-- ==== Sys2Proof/Word.lean ====
section
/-! DEFINITION. Word.lean: the machine word and its plainest arithmetic. Register fields, counts and addresses are
held as `Nat` bounded by their width (the register file truncates on every write); a 32-bit bus word is `Word`. -/
namespace Sys2Proof

/-- The 32-bit word of the register fabric (R39). -/
abbrev Word := BitVec 32

/-- A byte of a memory region (R41). -/
abbrev Byte := BitVec 8

/-- Bit `k` of `n`. -/
def bitOf (n k : Nat) : Bool := n.testBit k

/-- Bits `hi … lo` of `n`. -/
def bitsOf (n hi lo : Nat) : Nat := (n >>> lo) % 2 ^ (hi - lo + 1)

/-- `n` with bit `k` set to `b`. -/
def withBit (n k : Nat) (b : Bool) : Nat :=
  if n.testBit k == b then n else if b then n + 2 ^ k else n - 2 ^ k

/-- One for true, zero for false. -/
def boolNat (b : Bool) : Nat := if b then 1 else 0

end Sys2Proof
end

