-- ==== Sys2Proof/Config.lean ====
section
/-! DEFINITION. Config.lean: the values the spec leaves open, each an opaque constant with no body, and the constants
of the implementation the model fixes. A statement that mentions a free value holds for every value of it. -/
namespace Sys2Proof.Config

/-- A value the spec leaves undefined or does not state, drawn for the `n`-th time (log entry 3). -/
opaque freeValue : Nat → Nat

/-- A signed value the spec leaves undefined or does not state (log entry 3). -/
opaque freeInt : Nat → Int

/-- Duties of the three phases that the two current loops of the SPE write, from its coefficient table, the commands in force
and the currents measured on both axes and the observer angle, at the `n`-th draw: the table's form is the coefficient
tool's (R73, log entry 9). -/
opaque currentLoops : (coef : List Nat) → (idCmd id iqCmd iq : Int) → (angle n : Nat) → Nat × Nat × Nat

/-- Iq command of the speed loop from the coefficient table, the set-point in force and the observer speed, at the `n`-th draw
(R73, log entry 9). -/
opaque speedLoop : (coef : List Nat) → (target speed : Int) → (n : Nat) → Int

/-- The jerk-limited time-optimal profile of R107: reference position, velocity and acceleration at Fret `k` of the
plan that goes from the reference state `(p, v, a)` to `target` under the bounds (J_MAX, A limit, V_MAX), as numbers
with 16 fraction bits, sampled at
the Fret in force. The spec fixes the kind of profile and not its sample values (log entry 11). -/
opaque seekProfile : (jMax aLim vMax fretPs : Nat) → (p v a : Int) → (target : Int) → (k : Nat) → Int × Int × Int

/-- The peak acceleration that the rest of that plan demands from Fret `k` on, in the units of its A limit (R107, log entry
11). -/
opaque seekPeak (jMax aLim vMax fretPs : Nat) (p v a target : Int) (k : Nat) : Nat

/-- Entry, 0 to 63, and place beyond it, in 1/65,536, at which a LUT section reads its table for an input: the spec gives the
index no scale (R91, log entry 18). -/
opaque lutPlace : (input : Int) → Nat × Nat

/-- What an XFER section moves, from its descriptor: out of the signals or into them, LPDDR5X in place of Bridge SRAM, the
place in it, and how many words: the spec does not say where a descriptor holds them (R91, log entry 18). -/
opaque xfer : (fields : List Nat) → Bool × Bool × Nat × Nat

/-- Natural logarithm of a VAR as the detector forms it, in 1/65,536: the spec states no precision (R163, log entry 56). -/
opaque logVar : (var : Nat) → Int

/-- Error of a level against its target as the AGC forms it, in 1/65,536 of a VGA code of 0.125 dB: the spec states no precision
(R159, log entry 56). -/
opaque gainError : (target level : Nat) → Int

/-- The block entry of the Harp base matrix held in word `i` of HARP_HBASE: fixed, and not listed in the spec
(log entry 3). -/
opaque hbaseWord : Nat → Nat

/-- Command of the retract's velocity loop in amperes with 16 fraction bits, from RET_VEL and the velocity in mm/s and
the command in force: the loop's gains are not stated (R108, log entry 20). -/
opaque velocityLoop : (retVel velocity command : Int) → Int

/-- Bit of the Asynchronous Event Configuration (feature 0Bh) that enables the vendor-specific event with an information
code: the spec names no bit (log entry 3). -/
opaque vendorEventBit : (information : Nat) → Nat

/-- Log page identifier that the completion of an asynchronous event of a type and information names: the spec names
none (log entry 3). -/
opaque eventLogPage : (type information : Nat) → Nat

/-- LPDDR5X channel that holds an address: the spec states no interleave (log entry 3). -/
opaque lpddrChannel : (address : Nat) → Nat

/-- Check bits of a word of data at an address: the spec names a (72, 64) SECDED code with the address folded in, and not
its matrix (R410, log entry 3). -/
opaque checkBits : (address data : Nat) → Nat

/-- What an ordinary read makes of a word whose check bits were written raw: 0 good, 1 correctable, 2 uncorrectable
(R411, R417, log entry 3). -/
opaque codeStatus : (address check : Nat) → Nat

/-- Syndrome of an error at an address, and the data a correctable word gives (R411, log entry 3). -/
opaque syndrome : (address : Nat) → Nat
opaque correctedWord : (address word : Nat) → Nat

/-- Word `k` of the 37,120-bit codeword of a sector, from its LBA, generation, tag, key and data: the data is a name here, so its
bits are a free value (log entry 63). -/
opaque codewordWord : (content : List Nat) → (k : Nat) → Nat

/-- The Available Spare Threshold of the SMART/Health page, in percent: the spec names it and gives no value (log entry 66). -/
opaque spareThreshold : Nat

/-- Choices of HK_BAND among the free bands (R381), by the count of free values drawn and of bands left (log entry 70). -/
opaque bandHook : (draw left : Nat) → Nat

end Sys2Proof.Config
end

