-- ==== Sys2Proof/Syntax.lean ====
section
/-! DEFINITION. Syntax.lean: the commands of the block, one constructor of `Instr` for each row of
spec/opcode_table.json, with the operands the rules of the row name, and the types of those operands. A command is
something that reaches the block or comes about in it: a write of a register, an operation of a protocol, an event of
an engine, a pin or a timer (log entry 5). -/
namespace Sys2Proof

/-- The four Strings (R1). -/
inductive Str
  | A | B | C | D
deriving DecidableEq, Repr

/-- String number: A = 0 … D = 3 (R36). -/
def Str.num : Str → Nat
  | .A => 0
  | .B => 1
  | .C => 2
  | .D => 3

/-- Index of entry `k` of a String's register: the String stands in bits 19…16 of the index. -/
def Str.ix (x : Str) (k : Nat := 0) : Nat := x.num * 65536 + k

/-- Bit `x` of a String mask. -/
def Str.bit (x : Str) : Nat := 2 ^ x.num

/-- String of a number, modulo 4. -/
def Str.ofNum (n : Nat) : Str :=
  match n % 4 with
  | 0 => .A
  | 1 => .B
  | 2 => .C
  | _ => .D

/-- The four Strings in order. -/
def Str.all : List Str := [.A, .B, .C, .D]

/-- The three sequencers of a String (R352). -/
inductive SeqId
  | ssq | rsq | wsq
deriving DecidableEq, Repr

/-- Sequencer number: SSQ 0, RSQ 1, WSQ 2 (R372). -/
def SeqId.num : SeqId → Nat
  | .ssq => 0
  | .rsq => 1
  | .wsq => 2

/-- Index of entry `k` of a sequencer's register. -/
def SeqId.ix (q : SeqId) (x : Str) (k : Nat := 0) : Nat := (x.num * 3 + q.num) * 65536 + k

/-- Status of a Cibor reply (R393). -/
inductive CStat
  | ok | cfgRange | cfgLocked | notReady | prot | classDenied | busy | badHeader | badOpcode | tagBusy | queueFull
  | segOrder | keyExhausted | keMismatch | calNoContact | mcSigFail | mcRollback | mcBase | mcReject | lcDenied
  | internal
deriving DecidableEq, Repr

/-- The value of a status (R393). -/
def CStat.code : CStat → Nat
  | .ok => 0x0000
  | .cfgRange => 0x0010
  | .cfgLocked => 0x0011
  | .notReady => 0x0012
  | .prot => 0x0013
  | .classDenied => 0x0014
  | .busy => 0x0015
  | .badHeader => 0x0020
  | .badOpcode => 0x0021
  | .tagBusy => 0x0022
  | .queueFull => 0x0023
  | .segOrder => 0x0024
  | .keyExhausted => 0x0030
  | .keMismatch => 0x0031
  | .calNoContact => 0x0032
  | .mcSigFail => 0x0040
  | .mcRollback => 0x0041
  | .mcBase => 0x0042
  | .mcReject => 0x0043
  | .lcDenied => 0x0050
  | .internal => 0x00FF

/-- A peak that the servo reader's detector finds in a bit: its place from the bit's first cell, in 1/16 cell, and its amplitude in
1/65,536 of ADC full scale (R120). -/
structure Peak where
  place : Nat
  amplitude : Nat
deriving DecidableEq, Repr

/-- What one reader gives about a SAM (R113, R117, R120, R121): each comparison of the SAM detector in time order, as its time on
the 800 MHz timebase and the bit decisions before it, the last in bit 0; A_pre in 1/65,536 of ADC full scale; the peaks of the
ten bits of the wedge-number field and of the two index bits. -/
structure SamIn where
  bits : List (Nat × Nat)
  aPre : Nat
  number : List (List Peak)
  idx : List (List Peak)
deriving DecidableEq, Repr

/-- A SAM: what each of the three readers gives, and the VCM current measured at it, in amperes with 16 fraction bits (R90: S6). -/
structure SamEvent where
  readers : List SamIn
  iVcm : Int
deriving DecidableEq, Repr

/-- An overrun of a String's control law (R96): the optional tasks it had finished by 4.90 µs after the SAM. -/
structure Overrun where
  x : Str
  done : Nat
deriving DecidableEq, Repr

/-- A change of level at one of Capo's two inputs (R56): CAPO_AIN in place of CAPO_IN, the level before and after in mV, and the
instant on the 800 MHz timebase. -/
structure InputEdge where
  ain : Bool
  before : Nat
  after : Nat
  time : Nat
deriving DecidableEq, Repr

/-- The samples of a calibration capture (R175): of the ADCs of the three readers of a String. -/
structure CalCapture where
  x : Str
  samples : List (List Int)
deriving DecidableEq, Repr

/-- What HK_LADDER answers before a revolution rung (R381): the module's choice, so an operand; without a module the rung runs. -/
inductive LadderHook
  | run
  | skip
  | stop
  deriving DecidableEq, Repr

/-- A revolution of a ladder: its number, and what HK_LADDER answers if it is called. -/
structure LadderTurn where
  ladder : Nat
  hook : LadderHook
  deriving DecidableEq, Repr

/-- What a Harp lane finds (R190): the local iteration at whose end its syndrome is zero, and the extrinsic LLRs of the codeword
bits. -/
structure LaneOut where
  zeroAt : Option Nat
  extrinsic : List Int
deriving DecidableEq, Repr

/-- What one reader gives of the fields of a wedge (R113, R120 to R124): the peaks of the track bits and of the twelve bits of the RRO
field, most significant first, and the signal of the two bursts, one sample per cell in 1/65,536 of ADC full scale. -/
structure DemodIn where
  gray : List (List Peak)
  nBurst : List Int
  qBurst : List Int
  rro : List (List Peak)
deriving DecidableEq, Repr

/-- What a PWM period's sample instant and chain find (R70 to R75): the three sample windows in ns, the shunt currents in mA,
the observer speed in 0.001 rpm, its electrical angle in degrees, the angle innovation in degrees, the back-EMF estimate in
µV, the peak line-to-line back-EMF and VM in mV, and whether the observer angle passed 0 and at what time. -/
structure PwmIn where
  winU : Nat
  winV : Nat
  winW : Nat
  iu : Int
  iv : Int
  iw : Int
  mrpm : Int
  angle : Nat
  innovation : Nat
  emf : Nat
  lineEmf : Nat
  vm : Nat
  tick : Option Nat
deriving DecidableEq, Repr

/-- The back-EMF fit of R77: E in µV, signed speed in 0.001 rpm, residual in percent of E, and the electrical angle. -/
structure FitIn where
  e : Nat
  mrpm : Int
  residual : Nat
  angle : Nat
deriving DecidableEq, Repr

/-- Who owns a word that the scrubber found uncorrectable, as the Bridge extent manager answers (R414). -/
inductive WordOwner
  | version (fseq lba : Nat)
  | cell (x : Str) (request p : Nat)
  | page (fseq lba : Nat)
  | record (id : Nat)
  | other
deriving DecidableEq, Repr

/-- What the scrubber finds in a word (R413, R414). -/
inductive ScrubResult
  | clean
  | corrected (syndrome : Nat)
  | uncorrectable (syndrome : Nat) (owner : WordOwner)
deriving DecidableEq, Repr

/-- What the power-on sequence finds (R331, R319, R426, R432, R439, R482): REXT in ohms, Cabinet cores that fail their
known-answer test, key slots whose record fails its unwrap check, whether VDD_3V3 stayed present, whether every rail comes into range within
20 ms, and the PCIE_DUAL ball (R245). -/
structure PowerIn where
  rext : Nat
  kat : Nat
  unwrap : List Nat
  vddKept : Bool
  rails : Bool
  dual : Bool
  /-- The bytes of the serial NOR's SFDP area (R465). -/
  sfdp : List Nat := []
deriving DecidableEq, Repr


/-- Statuses of NVMe completions that the manual names. -/
inductive NvStatus
  | success
  | invalidOpcode | invalidField | dataTransferError | invalidFormat | invalidNamespace | invalidQueueId | invalidQueueSize
  | invalidQueueDeletion | completionQueueInvalid | lbaOutOfRange | capacityExceeded | internalError
  | namespaceNotReady | sanitizeInProgress | formatInProgress
  | abortRequested | abortedSqDeletion | abortLimitExceeded | asyncEventLimitExceeded
  | featureNotSaveable | featureNotChangeable | invalidFirmwareSlot | invalidFirmwareImage | overlappingRange
  | firmwareNeedsReset | invalidLogPage | selfTestInProgress | commandSequenceError
  | namespaceIdUnavailable | insufficientCapacity | nsAlreadyAttached | nsNotAttached | nsIsPrivate
  | controllerListInvalid | reservationConflict
  | unrecoveredRead | compareFailure | guardCheck | appTagCheck | refTagCheck
  | zoneBoundary | zoneIsFull | zoneIsReadOnly | zoneIsOffline | zoneInvalidWrite | tooManyActive | tooManyOpen
  | zoneInvalidTransition
  | streamRefused | keyExhausted | writeFault
deriving DecidableEq, Repr

/-- SCT and SC of the statuses whose values the manual states (R235, R278, R326, R343). -/
def NvStatus.code : NvStatus → Option (Nat × Nat)
  | .success => some (0, 0)
  | .unrecoveredRead => some (2, 0x81)
  | .streamRefused => some (1, 0xC0)
  | .keyExhausted => some (1, 0xC1)
  | .capacityExceeded => some (0, 0x81)
  | .writeFault => some (2, 0x80)
  | _ => none

/-- A logical block on its way from the host: its data, and the protection information that came with it (R260). -/
structure HostBlock where
  data : Nat
  guard : Nat
  app : Nat
  ref : Nat
deriving DecidableEq, Repr

/-- Fields of Namespace Management Create (R257). -/
structure NsFields where
  csi : Nat
  nsze : Nat
  ncap : Nat
  flbas : Nat
  dps : Nat
  shared : Bool
  kind : Nat
  mask : Nat
  opts : Nat
  appTag : Nat
  refTag : Nat
  /-- A byte marked reserved is not 0. -/
  reserved : Bool
deriving DecidableEq, Repr

/-- Actions of Reservation Register, Acquire and Release (NVMe Base 2.0). -/
inductive RegAction
  | register | unregister | replace
deriving DecidableEq, Repr

inductive AcqAction
  | acquire | preempt | preemptAbort
deriving DecidableEq, Repr

/-- What a fetched command asks (R252 to R254, R274 to R281). LBAs and block counts are in logical blocks; host buffers
are named by nothing, since the manual says nothing of their place. -/
inductive HostOp
  | read (lba n : Nat)
  | write (lba : Nat) (blocks : List HostBlock) (pract : Bool) (prchk : Nat) (fua : Bool)
  | append (zone : Nat) (blocks : List HostBlock) (pract : Bool) (prchk : Nat)
  | flush
  | compare (lba : Nat) (blocks : List Nat)
  | verify (lba n : Nat)
  | writeZeroes (lba n : Nat)
  | dsm (ranges : List (Nat × Nat)) (deallocate : Bool)
  | zoneSend (action : Nat) (zone : Nat) (all : Bool)
  | zoneReceive (zone n : Nat)
  | resvRegister (action : RegAction) (key newKey : Nat) (ignoreKey : Bool) (ptpl : Option Bool)
  | resvAcquire (action : AcqAction) (key prKey rtype : Nat)
  | resvRelease (clear : Bool) (key rtype : Nat)
  | resvReport
  | createSq (sqid cqid size prio : Nat)
  | createCq (cqid size : Nat) (vector : Option Nat)
  | deleteSq (sqid : Nat)
  | deleteCq (cqid : Nat)
  | identify (cns : Nat)
  | getLog (lid : Nat) (offset n : Nat)
  | abort (sqid cid : Nat)
  | setFeature (fid dw11 dw12 dw13 : Nat) (save : Bool)
  | getFeature (fid dw11 : Nat)
  | asyncEvent
  | nsCreate (f : NsFields)
  | nsDelete
  | nsAttach (controllers : List Nat)
  | nsDetach (controllers : List Nat)
  | fwDownload (offset : Nat) (words : List Nat)
  | fwCommit (slot action : Nat)
  | selfTest (code : Nat)
  | format
  | sanitize (action : Nat)
  | securitySend (protocol : Nat)
  | securityReceive (protocol : Nat)
  | ciborSend (packet : List Nat)
  | ciborReceive (numd tag : Nat) (any : Bool) (waitMs : Nat)
  /-- The data pointer is of a form that the controller does not support: Invalid Field in Command. -/
  | badPointer
  | unsupported
deriving DecidableEq, Repr

/-- What an entry of a submission queue asks for: the operation, and whether SGLs describe its data (R248). -/
structure HostEntry where
  op : HostOp
  sgl : Bool
deriving DecidableEq, Repr

/-- The command at the head of a submission queue. -/
structure QueueHead where
  sqid : Nat
  cid : Nat
  nsid : Nat
  entry : HostEntry
deriving DecidableEq, Repr

/-- The heads of an HQE's submission queues, from what lies there queue by queue. -/
def queueHeads : (sqids cids nsids : List Nat) → (ops : List HostEntry) → List QueueHead
  | q :: qs, c :: cs, n :: ns, o :: os => { sqid := q, cid := c, nsid := n, entry := o } :: queueHeads qs cs ns os
  | _, _, _, _ => []

/-- A command needs the media (R249). -/
def HostOp.needsMedia : HostOp → Bool
  | .read .. | .write .. | .append .. | .flush | .compare .. | .verify .. | .writeZeroes .. | .dsm .. | .zoneSend ..
  | .zoneReceive .. => true
  | _ => false

/-- A command of the I/O command sets. -/
def HostOp.isIo (o : HostOp) : Bool :=
  o.needsMedia || match o with
    | .resvRegister .. | .resvAcquire .. | .resvRelease .. | .resvReport => true
    | _ => false

/-- The commands: one constructor per row of spec/opcode_table.json. -/
inductive Instr
  -- Register access (R9 to R15, R39)
  /-- A software or Cibor write to a register field that has no row of its own takes effect under the field's
  change class and access type. (R9) Operands: a write by a requester of R40; `outcome` is what a test that it
  starts finds: a mask of the Cabinet cores that fail it. -/
  | registerWrite (requester address bytes value outcome : Nat)
  -- Servo timing and demodulation
  /-- At the preamble-gate phase, the servo gate opens, data recording pauses and the servo reader switches to its
  servo settings. (R172) -/
  | preambleGate (x : Str)
  /-- A SAM-pattern match in the window latches phase 0; a posted seek target is taken, and the sync state and skew
  measurement advance. (R117) -/
  | samLatched (x : Str) (sam : SamEvent)
  /-- No SAM is latched by the predicted SAM plus 0.50 µs, so a missed SAM is declared and phases run from the
  predicted SAM. (R116) -/
  | missedSam (x : Str)
  /-- At the wedge boundary the data field begins; the WSQ commits its sector starts, SECF is latched and inhibit
  releases are decided. (R115) Operands: A_pre of the wedge just passed on each of the three readers, 1/65,536 of
  ADC full scale, where its SAM was missed. -/
  | wedgeBoundary (x : Str) (aPre : List Nat)
  /-- At 2.20 µs the position, RRO and readable flag are latched into the SCE, and the law chain starts. (R125)
  Operands: what each of the three readers gives. -/
  | demodLatch (x : Str) (readers : List DemodIn)
  -- String control engine, per Fret
  /-- LOSTCNT reaching 5 starts a safe retract of the String at 5.00 µs. (R101) -/
  | lostWedgeRetract (x : Str)
  /-- A law not committed by 4.90 µs is an overrun: outputs are held and OVR is set; at the second overrun WINH is
  asserted. (R49) -/
  | controlLawOverrun (o : Overrun)
  /-- The third consecutive overrun switches to the fallback law, or sets FB_PEND if a retract takes precedence.
  (R49) -/
  | fallbackSwitch (x : Str)
  /-- At 5.00 µs the VCM and micro-actuator outputs are applied. (R104) Operands: the instant, on the 800 MHz
  timebase. -/
  | actuatorOutput (x : Str) (time : Nat)
  /-- Two Frets without a broadcast from a String zero its coupling inputs and set CPL_STALE. (R106) -/
  | couplingStale (x sender : Str)
  /-- SETTLE lasting SETTLE_MAX Frets sets SEEK_TO, and the loop stays closed. (R107) -/
  | settleTimeout (x : Str)
  -- Fret timing
  /-- At the end of a 64-revolution average, FRET_SKEWx is published and VALID is set. (R52) -/
  | skewAverageEnd (x : Str)
  /-- FRET_CTRL.REMEAS discards a String's skew average, restarts it and clears VALID. (R55) -/
  | remeas (mask : Nat)
  -- Capo unit
  /-- ARM starts Capo acquisition from OFF; in any other state it is ignored and sets CFG_LOCKED. (R62) -/
  | capoCtrlArm
  /-- DISARM returns Capo to OFF, and the generator brings the acceleration to zero. (R62) -/
  | capoCtrlDisarm
  /-- A reference edge is timed and either qualified or ignored as a glitch; a shadowed ratio reaches its boundary.
  (R58) -/
  | capoReferenceEdge (edge : InputEdge)
  /-- A frame edge falls at the predicted time of a missing edge, or after W wedges in HOLDOVER. (R497) Operands:
  the instant predicted, on the 800 MHz timebase. -/
  | predictedFrameEdge (time : Nat)
  /-- Four predicted edges without a qualified edge declare the reference lost. (R58) -/
  | referenceLost
  /-- After 4 reference periods or 10 ms, the target is compared with the range, and Capo enters SLEWING or repeats
  the measurement. (R62) -/
  | measureComplete
  /-- Every millisecond the set-point generator advances under the rate and jerk limits, and the state events of
  that step are taken. (R59) Operands: the phase loop's offset in µrpm, and the tracking it would need in 0.001
  rpm/s. -/
  | capoGeneratorStep (offset tracking : Int)
  /-- Eight consecutive frames within ±0.5 µs enter LOCKED, release the Capo inhibit and re-arm deadlines. (R62) -/
  | capoLock
  /-- When CAPO_HOLD.MS elapses in HOLDOVER, Capo returns to MEASURE. (R62) -/
  | holdoverTimeout
  -- SPE
  /-- SPE_CTRL.START leaves OFF for MEASURE with all gates off for 2 ms. (R86) -/
  | speStart
  /-- SPE_CTRL.STOP requests a retract, coasts, or brakes to rest according to STOPMODE. (R86) -/
  | speStop
  /-- After 2 ms with the gates off, sampling of the switch nodes begins. (R77) -/
  | gatesOffEnd
  /-- After 125 samples, the back-EMF fit selects ALIGN, BRAKE, catch on the fly, or a new measurement. (R77) -/
  | measureFit (fit : FitIn)
  /-- The 500 ms zero-vector hold after a rejected fit ends, and the SPE measures again. (R77) -/
  | residualHoldEnd
  /-- ALIGN_MS elapses and the SPE enters the open-loop RAMP. (R79) -/
  | alignEnd
  /-- Each 16 µs PWM period samples the shunts, runs the observer and current loops, and writes the duties. (R70) -/
  | pwmPeriod (p : PwmIn)
  /-- Four consecutive skipped samples limit the voltage vector and set SKIP_LIM. (R72) -/
  | skipLimit
  /-- Sixteen periods without a skip lift the voltage limit. (R72) -/
  | skipLimitLift
  /-- Every eighth PWM period the speed loop updates the Iq command, and the SPE's S fields apply. (R70) -/
  | speedLoopUpdate
  /-- A write to SPE_SETPT is shadowed, or ignored with SETPT_RANGE when out of range. (R76) -/
  | speSetptWrite (value : Nat)
  /-- VM above VM_OV applies the low-side zero vector within 200 ns and sets REGEN_CLAMP. (R69) -/
  | vmOvervoltage
  /-- A shunt current above OC_LIM applies the zero vector within 100 ns; a third trip within 1 s enters FAULT.
  (R85) -/
  | overcurrentTrip (time : Nat)
  /-- After 2 PWM periods the zero vector is released, and the state in force resumes. (R85) -/
  | ocHoldEnd
  /-- The innovation or back-EMF test fails for 3 periods, and the SPE enters REACQ with frozen commands. (R83) -/
  | observerLoss
  /-- A floated phase's back-EMF zero crossing is timed; two in sequence re-seed the observer and resume RUN. (R83) -/
  | zeroCrossing (inSequence : Bool) (angle : Nat) (mrpm : Int)
  /-- After 2 electrical periods in REACQ, the torque command goes to 0 and the bridge floats. (R83) -/
  | reacqFloat
  /-- At 50 ms the SPE enters COAST, sets OBS_LOSS, asserts the spindle write inhibit, and Capo goes OFF. (R83) -/
  | coastEntry
  /-- Speed within SPD_TOL for 100 ms sets ATSPD, or releases the spindle write inhibit. (R87) -/
  | atSpeed
  /-- The reverse-current block switches to blocking within 1 µs of either of its conditions failing. (R67) -/
  | rcbBlock
  /-- After both conditions have held for 10 ms, the reverse-current block conducts again. (R67) -/
  | rcbConduct
  -- String control engine: loading, retract, shock
  /-- SCEx_CTRL.LOAD enters LOADING from UNLOADED, or is refused or ignored. (R110) -/
  | load (x : Str)
  /-- SCEx_CTRL.UNLOAD starts a planned retract without setting RETRACTED. (R110) -/
  | unload (x : Str)
  /-- SCEx_CTRL.RETRACT starts a safe retract and sets RETRACTED. (R108) -/
  | retract (x : Str)
  /-- BANK_SW makes the inactive bank active, or is refused. (R98) -/
  | bankSw (x : Str)
  /-- A write to TRACK, HEAD or OFFS posts a target into the shadow, to be taken at a SAM. (R112) Operands: words
  written to SCEx_TARGET and SCEx_TOFFS. -/
  | targetPost (x : Str) (target offs : Option Nat)
  /-- LOAD_MS elapses in LOADING, which sets LOAD_FAIL and retracts. (R110) -/
  | loadTimeout (x : Str)
  /-- VCM current below 10 mA for 1 ms in UNLOADED or HALTED sets LOOP_OPEN. (R97) -/
  | loopOpen (x : Str)
  /-- S31 reaches 0 after 8 Frets, or after 128 µs, and the velocity loop toward the ramp begins. (R108) -/
  | retractRampEnd (x : Str)
  /-- Every 16 µs the retract velocity loop runs on the back-EMF, and the retract current is broadcast. (R108)
  Operands: coil terminal voltage in µV, coil current in 0.1 mA, VM in 0.1 V. -/
  | retractVelocityLoop (x : Str) (terminal current : Int) (vm time : Nat)
  /-- Velocity below 10 % for 5 ms, or RET_MS elapsed, ends the drive toward the ramp and starts the 50 ms hold.
  (R108) -/
  | retractPark (x : Str)
  /-- The 50 ms hold against the stop ends, and the SCE enters UNLOADED. (R108) -/
  | retractHoldEnd (x : Str)
  /-- A shock input above SHK_TH asserts WINH on every SCE within 200 ns. (R426) -/
  | shockEvent (input level : Nat)
  /-- SHK_HOLD elapses, and wedges may again be judged within the write-fault threshold. (R426) -/
  | shockHoldEnd
  -- Servo demodulator commands
  /-- SVDx_CTRL.ACQ starts an unwindowed SAM search, or is refused with CFG_RANGE. (R127) -/
  | acq (x : Str)
  /-- SVDx_CTRL.IDLE stops the demodulator and turns its gates off. (R127) -/
  | idle (x : Str)
  /-- A format-register write while IDLE re-evaluates FMT_VALID. (R114) Operands: SVDx_FMT0 to SVDx_FMT5. -/
  | svdFormatWrite (x : Str) (index value : Nat)
  -- Assist engine and Nut link
  /-- At 6.00 µs the AE computes and sends the UPDATE for the selected head. (R139) Operands: 400 MHz cycles of
  open write gate, and of the previous Fret. -/
  | assistSlot (x : Str) (gateCycles fretCycles : Nat)
  /-- A Nut-link reply is checked and acted on: resend, flag, TEMP and ECS. (R140) Operands: the 64-bit reply
  frame. -/
  | nutReply (x : Str) (reply : Nat)
  /-- Three consecutive unacknowledged UPDATEs set NUT_FAIL, and the AE aborts with cause link. (R140) -/
  | linkFailure (x : Str)
  /-- TEMP below HT_LIM − 5 °C for 100 ms allows writes to the head again. (R447) -/
  | hotHeadClear (x : Str) (head : Nat)
  /-- A background frame is started when a period has room: IDLE frames first, then posted frames, then resends.
  (R135) -/
  | backgroundFrameStart (x : Str)
  /-- BG_GO posts NUTx_BGCMD and NUTx_BGDATA as a background frame, or ends with BG_ERR. (R150) -/
  | bgGo (x : Str)
  /-- A write of WR_ARM requests write arming, or is refused with CFG_RANGE when the ledger caps are inconsistent.
  (R149) -/
  | wrArm (x : Str) (on : Bool)
  /-- ABORT_CLR leaves ABORTED for READ when allowed, and otherwise is ignored. (R145) -/
  | abortClr (x : Str)
  /-- WARM_FRETS acknowledged slots plus an acknowledged IDLE frame enter ARMED and raise WRRDY. (R145) -/
  | warmUpComplete (x : Str)
  /-- Inhibit held for ARM_HOLD Frets returns an ARMED AE to READ and clears WR_ARM. (R145) -/
  | armLapse (x : Str)
  /-- After FH_DIV gate-free Frets, HCORR is updated from the ECS average. (R141) -/
  | flyHeightUpdate (x : Str)
  -- Read channel and sector format
  /-- At an armed sector start the read gate opens, or is refused; a set change, slot allocation and adaptation
  apply here. (R153) -/
  | readGateOpen (x : Str)
  /-- The String PLL completes its relock within 20 µs and sets PLL_LOCK. (R153) -/
  | pllLock (x : Str)
  /-- A sync or fragment sync match in its window latches the capture alignment. (R185) Operands: hard decisions of
  the search: the bit-times from the expected end of the mark to the first of `bits`, the 48 before it, last in bit
  0. -/
  | syncMarkLatch (x : Str) (start : Int) (before : Nat) (bits : List Bool)
  /-- A sync window closes without a match, setting SYNC_MISS or FSYNC_MISS and using the expected alignment.
  (R186) -/
  | syncWindowClose (x : Str)
  /-- A slot's recording ends; the per-sector MSE is computed and the adaptation entry is formed. (R167) Operands:
  what the VGAs of the three readers gave over the read gate, one value per bit-time in 1/16 ADC LSB, and the
  bit-times recorded of the first fragment and of the second. -/
  | captureEnd (x : Str) (r0 r1 r2 : List Int) (first second : Nat)
  /-- SAVE copies the live taps and predictors into the active set at the next read-gate open. (R162) -/
  | save (x : Str)
  /-- RESTORE reloads the taps and predictors from the active set at the next read-gate open. (R162) -/
  | restore (x : Str)
  /-- A write to a channel set re-evaluates its VALID, or is refused for the active set while running. (R156)
  Operands: set, word and value. -/
  | channelSetWrite (x : Str) (n w v : Nat)
  /-- CAP_GO records raw samples of the readers in CAP_MASK in capture mode. (R175) -/
  | capGo (x : Str)
  /-- A calibration capture recording ends and CAP_BUSY clears. (R175) -/
  | calCaptureEnd (cap : CalCapture)
  -- Formatter sequencers
  /-- An IDLE sequencer starts a restart, a handler, or the head request's routine. (R364) -/
  | routineDispatch (x : Str) (q : SeqId)
  /-- A sequencer issues one microword: branch, ALU, counter, timer and stack operations. (R353) Operands: the
  position timer at the word's cycle. -/
  | microwordIssue (x : Str) (q : SeqId) (pt : Nat)
  /-- REQOP LOAD copies the head request into G8–G11 and places the walker. (R360) Operands: the position timer. -/
  | reqLoad (x : Str) (q : SeqId) (pt : Nat)
  /-- REQOP DONE completes and pops the head request. (R358) -/
  | reqDone (x : Str) (q : SeqId) (status : Nat)
  /-- REQOP REQUEUE returns the request from the walker's sector on. (R358) -/
  | requeue (x : Str) (q : SeqId)
  /-- OUTOP POST writes a mailbox entry. (R358) -/
  | post (x : Str) (q : SeqId) (code value : Nat)
  /-- TMOP NEXTSEC moves the walker to the next sector. (R358) -/
  | nextsec (x : Str) (q : SeqId) (pt : Nat)
  /-- TMOP REWIND moves the walker to the first unfinished sector and clears RUNSTOP. (R358) -/
  | rewind (x : Str) (q : SeqId) (pt : Nat)
  /-- CHOP CAPTURE arms the walker's sector for a read, or sets LATE. (R359) Operands: CHARG and the position
  timer. -/
  | capture (x : Str) (arg pt : Nat)
  /-- CHOP CONT resumes or commits the second fragment of a split sector. (R359) -/
  | cont (x : Str) (q : SeqId)
  /-- CHOP CLOSE closes the read gate and aborts armed captures. (R359) -/
  | close (x : Str)
  /-- CHOP SETSEL makes a channel set active. (R359) -/
  | setsel (x : Str) (arg : Nat)
  /-- CHOP START commits the walker's write position, or sets LATE and RUNSTOP. (R359) -/
  | start (x : Str) (pt : Nat)
  /-- CHOP WITHDRAW withdraws committed starts not yet reached. (R359) -/
  | withdraw (x : Str)
  /-- The SSQ sends a user event to the RSQ and/or the WSQ. (R359) -/
  | uevt (x : Str) (arg : Nat)
  /-- A COMMIT word drains the commit buffer and commits the routine. (R362) -/
  | commit (x : Str) (q : SeqId)
  /-- A YIELD word lets a pending interrupt be taken in a committed routine. (R367) Operands: the resolved next
  address. -/
  | yieldWord (x : Str) (q : SeqId) (next : Nat)
  /-- END finishes the routine, committing if needed. (R364) -/
  | endRoutine (x : Str) (q : SeqId)
  /-- A handler ends with RESUME. (R368) -/
  | resume (x : Str) (q : SeqId)
  /-- A handler ends with DROP. (R368) -/
  | drop (x : Str) (q : SeqId)
  /-- An interrupt abandons an uncommitted routine or waits, then runs its handler. (R365) -/
  | seqInterrupt (x : Str) (q : SeqId)
  /-- SQ_CTRL.GO moves STOPPED to IDLE. (R375) -/
  | sqGo (x : Str) (q : SeqId)
  /-- SQ_CTRL.STOP stops the sequencer at routine end. (R370) -/
  | sqStop (x : Str) (q : SeqId)
  /-- SQ_CTRL.RST returns FAULT or STOPPED to a clean STOPPED. (R375) -/
  | sqRst (x : Str) (q : SeqId)
  /-- SQ_CTRL.DOORBELL raises interrupt source 2. (R365) -/
  | doorbell (x : Str) (q : SeqId)
  /-- Control-store writes are staged and take effect at the offset 0x10 access. (R355) Operands: word address,
  offset in its slot, value. -/
  | microwordWrite (x : Str) (q : SeqId) (a off v : Nat)
  -- Cleaning and the Chest
  /-- The BCE starts copying a band's live sectors to a free band. (R223) Operands: number of the zone record. -/
  | bandCleanStart (record : Nat)
  /-- A pending skip request older than 24 hours triggers cleaning. (R223) Operands: number of the zone record. -/
  | skipAgeTimeout (record : Nat)
  /-- Changes waiting on a full journal proceed once a record is retired. (R308) -/
  | journalResume
  /-- A Chest row write obtains its tokens and proceeds in class order. (R311) Operands: microseconds for which the
  token buckets have filled since the last time. -/
  | chestWriteGrant (us : Nat)
  /-- After 64 writes to a group, its gap row moves by one. (R310) -/
  | wearGapMove (group : Nat)
  -- Recovery ladder
  /-- A revolution rung, once the String can read the sector, posts its retry read. (R231) Operands: the sector's
  ladder and what HK_LADDER answers. -/
  | ladderRevolution (x : Str) (turn : LadderTurn)
  /-- Rung 8 reads the stripe's outstanding positions in one pass of one or two revolutions. (R233) Operands: the
  sector's ladder and what HK_LADDER answers. -/
  | parityPass (x : Str) (turn : LadderTurn)
  /-- A WAITing sector returns to REVOLVE once ACTIVE falls below 8. (R241) -/
  | ladderResume (x : Str)
  /-- The TLER limit is reached, so the sector's outcome is given and its ladder is detached. (R236) Operands: the
  command whose limit is reached. -/
  | tlerExpiry (fseq : Nat)
  -- Harp
  /-- A codeword's LLRs are ready and offered to the Harp dispatch store. (R174) Operands: sample-buffer slot. -/
  | codewordReady (x : Str) (slot : Nat)
  /-- A RESTART, REDET, SLIP or PD pass completes in pipe 1 or 2, and the next queued pass starts. (R165) Operands:
  pipe 2 in place of pipe 1. -/
  | detectorPassDone (x : Str) (second : Bool)
  /-- An idle eligible lane loads the lowest-class oldest store entry and starts decoding. (R191) -/
  | harpDispatch
  /-- A lane finishes a global iteration or bit-flipping run and writes out its hard decisions. (R190) Operands:
  `signature` is that of its hard decisions. -/
  | laneResult (lane : Nat) (out : LaneOut) (signature : Nat)
  /-- A lane without a result after 30,000 cycles is stopped and takes a strike. (R190) -/
  | laneWatchdog (lane : Nat)
  /-- The quad's syndrome checker confirms, discards with a strike, or sends an unconverged codeword onward. (R192)
  Operands: whether the checker finds a zero syndrome. -/
  | syndromeVerdict (lane : Nat) (zero : Bool)
  /-- A struck lane's self-test ends, and the lane returns to service or takes another strike. (R193) Operands:
  both results of the test codeword passed the checker. -/
  | selfTestDone (lane : Nat) (passed : Bool)
  /-- HARP_CTRL.RETIRE retires lane RLANE and restarts its codeword. (R195) Operands: RLANE of the write. -/
  | harpRetire (lane : Nat)
  /-- HARP_CTRL.UNRETIRE clears a lane's strikes and self-tests it, in Maintenance only. (R198) Operands: RLANE of
  the write. -/
  | harpUnretire (lane : Nat)
  -- Write path
  /-- At a committed start, the write gate opens if every condition holds; otherwise the run stops. (R218) -/
  | writeGateOpen (x : Str)
  /-- A sector finishes its postamble; it is accumulated, MP advances and the parity sector is written after the
  64th. (R207) -/
  | sectorWritten (x : Str)
  /-- A codeword is encoded and checked; a double failure sets ENC_FAULT. (R217) Operands: the checker passes the
  codeword. -/
  | encodeDone (x : Str) (good : Bool)
  /-- Writing EN 0 then 1 clears the ENC_FAULT refusal. (R217) Operands: the value written to EN. -/
  | writePathEnable (x : Str) (on : Bool)
  /-- ACC_CLR clears the stripe accumulator outside a run. (R226) -/
  | accClr (x : Str)
  /-- After a cut toward the previous track, both tracks are read back and failures are rewritten or laddered.
  (R221) Operands: sectors of the previous track, and of the current one, whose read-back fails; that fail their
  read-back. -/
  | squeezeVerify (x : Str) (prev bad : List Nat)
  /-- The media manager issues a write batch to a String, saving and loading accumulators as needed. (R210)
  Operands: number of the zone or unit record, and the most sectors of the batch. -/
  | writeBatchIssue (record n : Nat)
  /-- An invalid accumulator is rebuilt by reading back the incomplete stripe before the next write. (R207)
  Operands: number of the zone record. -/
  | accumulatorRebuild (record : Nat)
  /-- A scheduled reallocation is carried out to a spare, the skip list or an open internal zone. (R237) Operands:
  the read-back of a spare passes. -/
  | reallocate (x : Str) (good : Bool)
  -- Phovi
  /-- An engine takes the next job in class order. (R345) -/
  | phoviJobStart (engine : Nat)
  /-- A compress or decompress job ends, with verification or error handling. (R344) Operands: of a compress job,
  each capsule's compressed body and a mask of the checks of a stored copy that an engine fault fails, and whether
  the output would overrun B; of a decompress job, 0 or the error of R347 that an engine fault gives. -/
  | phoviJobDone (engine : Nat) (capsules : List (List Nat × Nat)) (overrun : Bool) (code : Nat)
  /-- A running job is suspended at a boundary into a save slot. (R346) -/
  | jobSuspend (engine : Nat)
  /-- PACK_MS elapses and forces a tail. (R340) Operands: number of the internal zone's record. -/
  | packTimeout (record : Nat)
  /-- SPACE_MS elapses without a grant, and the write completes Capacity Exceeded. (R343) Operands: the write that
  waits for its grant. -/
  | spaceTimeout (fseq : Nat)
  /-- PHV_CTRL.RETIRE retires an engine. (R350) Operands: RETIRE of the write. -/
  | phoviRetire (mask : Nat)
  /-- PHV_CTRL.UNRETIRE returns an engine to service, in Maintenance only. (R350) Operands: UNRETIRE of the write. -/
  | phoviUnretire (mask : Nat)
  -- Cabinet
  /-- A GCM encryption request is checked against the counter and slot state, or refused with NONCE_GUARD. (R323)
  Operands: the String whose next WSQ sector is encrypted. -/
  | encryptRequest (x : Str)
  /-- A confirmed codeword gets a holding entry and is trailer-checked and queued for decryption. (R324) -/
  | holdEntryGrant
  /-- An XTS request for Chest data rows is queued. (R327) Operands: a block of the Chest entry of a write. -/
  | xtsRequest (fseq lba : Nat)
  /-- A core finishes a sector; a decrypted sector's tag is compared and released or cleared. (R329) Operands: no
  bit of a sector to be decrypted has altered. -/
  | cipherSectorDone (core : Nat) (intact : Bool)
  /-- Slot operation GENERATE creates new keys in a FREE slot. (R320) -/
  | generate (slot : Nat)
  /-- Slot operation ERASE clears a slot once no request names it. (R320) -/
  | erase (slot : Nat)
  /-- Slot operation REKEY replaces a slot's keys, or moves an exhausted namespace. (R320) -/
  | rekey (slot : Nat)
  /-- KAT_GO runs the known-answer test on every core. (R331) Operands: mask of the cores that fail. -/
  | katGo (bad : Nat)
  /-- Every KAT_MS each core is tested in turn, and a failing core is retired. (R331) -/
  | katPeriodic (core : Nat) (passed : Bool)
  /-- An entropy health test fails and sets RNG_FAIL. (R328) -/
  | rngHealthFail
  -- Bridge and Chest
  /-- A write at the head of its grant queue receives its credits and starts transfer. (R300) Operands: grant
  queue: 0 Chest, 1 ordinary, m + 2 stream slot index m. -/
  | writeGrant (queue : Nat)
  /-- A write's transfer ends; the version becomes READY and supersedes older blocks. (R295) Operands: the data
  arrived whole. -/
  | writeTransferEnd (fseq : Nat) (ok : Bool)
  /-- A read's last block from a version is transferred, and its pin is released. (R296) -/
  | hostTransferDone (fseq lba : Nat)
  /-- A read page not transferred after SPILL_US is copied to the version store. (R301) -/
  | readPageSpill (fseq lba : Nat)
  /-- An eligible write's header row is written and its completion may commit. (R306) -/
  | chestEntryCommit (fseq : Nat)
  /-- An entry more than 1,024 entries old is copied to the log head. (R307) -/
  | logEntryCopy
  /-- BRG_CTRL.GO starts Bridge service, or is refused when the minimums exceed the pools. (R313) -/
  | bridgeGo
  -- Host I/O commands
  /-- An HQE fetches a command, assigns FSEQ and checks the mode. (R266) Operands: what lies at the head of each
  submission queue of the HQE that holds a command, queue by queue. -/
  | commandFetch (hqe : Nat) (sqids cids nsids : List Nat) (ops : List HostEntry)
  /-- A Read returns each block from the newest visible version via the Bridge, the Chest or the media. (R271) -/
  | nvmRead (fseq : Nat)
  /-- A Write is checked against zone and PI rules, transferred, and completed per the cache mode. (R44) -/
  | nvmWrite (fseq : Nat)
  /-- A Zone Append takes WP at fetch and writes there. (R213) -/
  | zoneAppend (fseq : Nat)
  /-- Flush completes when every earlier write is on media or in the Chest. (R269) -/
  | flush (fseq : Nat)
  /-- Compare reads and compares the blocks. (R253) -/
  | compare (fseq : Nat)
  /-- Verify reads and tag-verifies the blocks without transfer. (R253) -/
  | verify (fseq : Nat)
  /-- Write Zeroes writes zeros, or unmaps on a Managed namespace. (R253) -/
  | writeZeroes (fseq : Nat)
  /-- Deallocate is ignored on Conventional and unmaps on Managed. (R253) -/
  | datasetManagement (fseq : Nat)
  /-- Zone Management Send Open explicitly opens a zone. (R213) -/
  | zoneOpen (fseq : Nat)
  /-- Close closes an open zone and saves its accumulator. (R213) -/
  | zoneClose (fseq : Nat)
  /-- Finish writes the last parity and makes the zone Full. (R208) -/
  | zoneFinish (fseq : Nat)
  /-- Reset withdraws pending writes, drops versions and empties the zone record. (R216) -/
  | zoneReset (fseq : Nat)
  /-- Offline takes a Read Only zone Offline. (R213) -/
  | zoneOffline (fseq : Nat)
  /-- Zone Management Receive reports zone descriptors. (R254) -/
  | reportZones (fseq : Nat)
  /-- A command's completion-queue entry is handed to host DMA. (R274) -/
  | completionCommit (fseq : Nat)
  -- Reservations, queues, features, logs
  /-- Reservation Register records a registrant in the Chest. (R262) -/
  | reservationRegister (fseq : Nat)
  /-- Reservation Acquire takes or preempts a reservation at its acceptance point. (R263) -/
  | reservationAcquire (fseq : Nat)
  /-- Reservation Release releases or clears a reservation. (R262) -/
  | reservationRelease (fseq : Nat)
  /-- Reservation Report returns the reservation state. (R262) -/
  | reservationReport (fseq : Nat)
  /-- Create I/O Submission Queue. (R248) -/
  | createIoSq (fseq : Nat)
  /-- Create I/O Completion Queue. (R248) -/
  | createIoCq (fseq : Nat)
  /-- Delete I/O Submission Queue, releasing any stream reservation. (R289) -/
  | deleteIoSq (fseq : Nat)
  /-- Delete I/O Completion Queue. (R252) -/
  | deleteIoCq (fseq : Nat)
  /-- Identify returns controller or namespace data. (R270) -/
  | nvmeIdentify (fseq : Nat)
  /-- Get Log Page returns a standard or vendor log page. (R397) -/
  | getLogPage (fseq : Nat)
  /-- Abort decides the named command's fate at the abort point. (R274) -/
  | abort (fseq : Nat)
  /-- Set Features sets a standard feature. (R252) -/
  | setFeatures (fseq : Nat)
  /-- Get Features returns a standard feature. (R252) -/
  | getFeatures (fseq : Nat)
  /-- Set Features C0h with ARM = 1 checks admission and arms a stream queue. (R278) -/
  | streamQueueArm (fseq : Nat)
  /-- Set Features C0h with ARM = 0 disarms a stream queue. (R289) -/
  | streamQueueDisarm (fseq : Nat)
  /-- Get Features C0h returns a queue's stream state and clears WDRN. (R281) -/
  | streamQueueGet (fseq : Nat)
  /-- Get Features C1h reports the share left on a String. (R281) -/
  | streamCapacityGet (fseq : Nat)
  /-- Set Features C4h sets the device-wide telemetry period. (R398) -/
  | telemetryPeriodSet (fseq : Nat)
  /-- An Asynchronous Event Request is held until an event completes it. (R274) -/
  | asynchronousEventRequest (fseq : Nat)
  /-- Device Self-test runs a short or extended test. (R252) -/
  | deviceSelfTest (fseq : Nat) (passed : Bool)
  /-- Security Send for protocol 00h. (R317) -/
  | securitySend (fseq : Nat)
  /-- Security Receive for protocol 00h. (R317) -/
  | securityReceive (fseq : Nat)
  -- Namespaces
  /-- Namespace Management Create checks and allocates a namespace, key slot and records. (R258) -/
  | namespaceCreate (fseq : Nat)
  /-- Delete frees the namespace's storage and erases its key slot. (R259) -/
  | namespaceDelete (fseq : Nat)
  /-- Namespace Attachment attaches a namespace to controllers. (R261) -/
  | namespaceAttach (fseq : Nat)
  /-- Namespace Attachment detaches a namespace from controllers. (R261) -/
  | namespaceDetach (fseq : Nat)
  /-- Format NVM crypto-erases and empties a namespace. (R259) -/
  | formatNvm (fseq : Nat)
  /-- Sanitize Crypto Erase re-keys every namespace. (R259) -/
  | sanitizeCryptoErase (fseq : Nat)
  /-- A waiting slot operation completes and sets DONE. (R320) -/
  | slotOpComplete
  -- Ports, controllers, NVMe-MI
  /-- PERST assertion performs a controller-level reset on the port's controllers. (R250) -/
  | perstAssert (port : Nat)
  /-- PERST deassertion starts link training of the port. (R246) -/
  | perstDeassert (port : Nat) (wake : PowerIn)
  /-- The port completes training and its data link comes up. (R246) Operands: what the partner and the working
  lanes allow. -/
  | linkTrained (port speed width : Nat)
  /-- Loss of the data link is a controller-level reset. (R250) -/
  | dlDown (port : Nat)
  /-- A host write of 0 to CC.EN resets the controller. (R250) -/
  | ccEnClear (hqe : Nat)
  /-- A host write of 1 to CC.EN enables the controller. (R250) -/
  | ccEnSet (hqe ams : Nat)
  /-- CSTS.RDY returns to 1 and RST_DONE is set. (R250) -/
  | controllerReady (hqe : Nat)
  /-- A Function Level Reset resets the controller. (R250) -/
  | functionLevelReset (hqe : Nat)
  /-- HQEn_CTRL.FORCE_RST performs a controller-level reset. (R264) -/
  | forceRst (hqe : Nat)
  /-- NVMe-MI Read NVMe-MI Data Structure. (R255) Operands: structure type, and the port or controller. -/
  | nvmeMiReadDataStructure (kind k : Nat) (wake : PowerIn)
  /-- NVMe-MI NVM Subsystem Health Status Poll. (R255) -/
  | nvmSubsystemHealthPoll (wake : PowerIn)
  /-- NVMe-MI Controller Health Status Poll. (R255) -/
  | controllerHealthPoll (k : Nat) (wake : PowerIn)
  /-- NVMe-MI Configuration Set. (R255) -/
  | configurationSet (id value : Nat) (wake : PowerIn)
  /-- NVMe-MI Configuration Get. (R255) -/
  | configurationGet (id : Nat) (wake : PowerIn)
  /-- NVMe-MI VPD Read. (R255) -/
  | vpdRead (offset n : Nat) (wake : PowerIn)
  /-- NVMe-MI VPD Write. (R255) -/
  | vpdWrite (offset : Nat) (bytes : List Nat) (wake : PowerIn)
  /-- The SMBus basic management command at address 0x6A. (R255) -/
  | basicManagementCommand (wake : PowerIn)
  -- Caches and memory integrity
  /-- L2n_MAINT.GO issues or queues a cache maintenance operation. (R405) Operands: cluster. -/
  | l2MaintGo (n : Nat)
  /-- A maintenance operation ends and sets MDONE. (R405) -/
  | l2MaintDone (n : Nat)
  /-- Writing EN = 0 starts the disable walk. (R408) -/
  | l2Disable (n : Nat)
  /-- The disable walk ends with the cache empty, and WALKT is recorded. (R408) Operands: time the write-backs
  took, ns, and addresses of dirty lines found uncorrectable. -/
  | disableWalkEnd (n writeNs : Nat) (bad : List Nat)
  /-- A write of VALID = 0 cleans and invalidates the entry's range. (R404) Operands: cluster and entry. -/
  | ratInvalidate (n e : Nat)
  /-- Every LEAK ms an instance's bucket level falls by one. (R412) Operands: instance, and address and syndrome of
  a correction in the same cycle. -/
  | bucketLeak (m : Nat) (correction : Option (Nat × Nat))
  /-- The SCB scrubs a word atomically and rewrites or poisons it. (R413) Operands: instance, word, what is found,
  and that it ends a pass. -/
  | scrubStep (m addr : Nat) (result : ScrubResult) (last : Bool)
  /-- MI_DIAG_CMD.RAWRD reads a word raw, in Maintenance only. (R417) -/
  | rawrd
  /-- MI_DIAG_CMD.RAWWR writes a word raw, in Maintenance only. (R417) -/
  | rawwr
  /-- FILL starts zeroing the invalid blocks of an SRAM instance. (R418) Operands: instance. -/
  | fill (m : Nat)
  /-- A FILL ends, clearing INIT_MODE and FILL_BUSY. (R418) -/
  | fillComplete (m : Nat)
  -- Power, modes and emergency retract
  /-- A supply below threshold for UV_DEB raises the power-loss event and starts emergency retract. (R426)
  Operands: whether each input is in range, VM in 0.1 V, time. -/
  | powerLossEvent (v12 v5 : Bool) (vm time : Nat)
  /-- At k × RET_GAP, String k may start step 2 of its retract. (R434) Operands: VM in 0.1 V. -/
  | retractStagger (x : Str) (vm : Nat)
  /-- VM above VM_RETMIN + 0.5 V lets a waiting retract start and restores RET_ILIM. (R435) Operands: VM in 0.1 V. -/
  | vmRetminRecover (vm : Nat)
  /-- Both inputs in range for 10 ms raise supply good and start the power-on sequence. (R426) Operands: what the
  power-on sequence finds. -/
  | supplyGood (p : PowerIn)
  /-- VM reaches within 0.3 V of the 12 V input, and SPE START is accepted. (R425) -/
  | vmCharged
  /-- Temperature above TW_TH in Dormant wakes the device. (R426) Operands: °C. -/
  | thermalWake (temp : Nat) (p : PowerIn)
  /-- CAPO input activity sets CAPO_ACT and may wake. (R426) -/
  | capoActivity (p : PowerIn)
  /-- SB_RTC reaching SB_ALARM wakes the device. (R438) -/
  | rtcAlarm (p : PowerIn)
  /-- With AUTODORM, PERST of every port held for DORM_S enters Dormant. (R430) -/
  | dormantTimeout
  /-- No media work for IDLE_MS moves Active to Ready. (R430) -/
  | idleTimeout
  /-- In Standby, the Bureau gates itself 1 ms after its last task. (R427) -/
  | bureauRegate
  /-- PWR_STRLOST.CLR returns a String to service, in Maintenance only. (R431) -/
  | strlostClr (mask : Nat)
  /-- A PWR_DOMREQ write switches domains on or off in index order, or is refused. (R433) Operands: word of
  PWR_DOMREQ, and the value that a read-modify-write gives the bits of `mask`. -/
  | domainRequest (word value mask : Nat)
  /-- A monitored rail below 92 % for 1 µs raises the power-loss event, or below 85 % a reset. (R482) Operands:
  below 85 %, inputs in range, VM in 0.1 V, time. -/
  | railUndervoltage (reset v12 v5 : Bool) (vm time : Nat) (p : PowerIn)
  /-- A rail not in range 20 ms after MAINPWR_EN drops MAINPWR_EN for 100 ms. (R482) -/
  | railTimeout
  /-- After 100 ms low, MAINPWR_EN is raised again. (R482) -/
  | mainpwrRetry (p : PowerIn)
  /-- A power-domain fault is reported for one of a String's domains, and the Bureau declares the String lost.
  (R431) Operands: index of R433. -/
  | powerDomainFault (domain : Nat)
  -- Trim, calibration and temperature
  /-- A Peg's VALUE moves one LSB toward TARGET. (R440) Operands: a String's Pegs, or the shared ones. -/
  | pegTick (x : Option Str)
  /-- Every 1 ms the sensors are read, T_J is found and the thresholds are evaluated. (R449) Operands: readings of
  the twelve sensors, quarter degrees, and the step that HK_THERMAL returns. -/
  | thermalSample (temps : List Int) (hookStep : Nat)
  /-- Every 100 ms the throttle level rises, falls or holds, and the limits change. (R450) -/
  | throttleTick
  /-- A due schedule entry starts its script on an idle String. (R445) -/
  | calScheduleDue (entry : Nat) (x : Str)
  /-- A scheduled script that gave way resumes from its step. (R445) Operands: String mask of the script, 0 for one
  on shared parts. -/
  | scriptResume (mask : Nat)
  /-- Every 8 Frets CALHTR rises by TD_STEP, and contact is tested. (R444) Operands: mean of ECS, and RMS of PES in
  1/256 track, over the 8 Frets. -/
  | tdStep (x : Str) (ecs pes : Nat)
  /-- CAL_CTRL.ABORT ends the running script. (R454) -/
  | calAbort
  /-- A running calibration script other than TD_SEARCH advances by one 8-Fret step, giving way to host media work
  or ending with its result and DONE. (R445) Operands: String mask, and the values computed at the last step. -/
  | calScriptStep (mask : Nat) (result : Option (List Int))
  -- Bureau cores
  /-- A core watchdog expires; the core is reset, or retired at the second expiry within 24 h. (R378) -/
  | coreWatchdog (core : Nat)
  /-- An uncorrectable L1 or register-file error retires the core. (R378) -/
  | machineCheck (core : Nat)
  /-- The periodic self-test of a core runs every 10 minutes. (R378) -/
  | coreSelfTest (core : Nat) (passed : Bool)
  /-- BURn_CTRL.RETIRE retires a core. (R399) -/
  | burRetire (cluster mask : Nat)
  /-- BURn_CTRL.UNRETIRE self-tests and restores a core. (R399) -/
  | burUnretire (cluster mask : Nat)
  -- Cibor: packets and replies
  /-- A Cibor packet arrives and is checked for header, class, transport and segment order. (R383) Operands:
  controllers 0 to 7, NVMe-MI 8, the Bench port 9; the packet's bytes. -/
  | ciborRequest (source : Nat) (packet : List Nat)
  /-- Vendor command C0h carries a Cibor request to the Bureau. (R387) -/
  | ciborSend (fseq : Nat)
  /-- Vendor command C1h fetches a Cibor reply, waiting up to its timeout. (R387) -/
  | ciborReceive (fseq : Nat)
  /-- A reply not fetched within 60 s is discarded. (R387) -/
  | replyExpiry (source tag : Nat)
  /-- A C1h command's wait of CDW13 ms elapses with no reply ready, and it completes with NONE set and nothing
  transferred. (R387) -/
  | replyWaitExpiry (fseq : Nat)
  /-- A tunnelled admin command over NVMe-MI. (R255) Operands: the controller addressed. -/
  | miTunnelledAdmin (k nsid : Nat) (op : HostOp) (wake : PowerIn)
  -- Cibor: opcodes of the configuration, telemetry, calibration and diagnostics classes, by the source and tag of the request
  /-- Cibor 0x0100 IDENTIFY returns variant, firmware and identity data. (R391) -/
  | identify (source tag : Nat)
  /-- Cibor 0x0110 REG_READ returns register words. (R391) -/
  | regRead (source tag : Nat)
  /-- Cibor 0x0111 REG_WRITE writes a register under the allow list. (R391) Operands: `outcome` as in
  REGISTER_WRITE. -/
  | regWrite (source tag outcome : Nat)
  /-- Cibor 0x0112 TABLE_WRITE writes a table. (R391) -/
  | tableWrite (source tag : Nat)
  /-- Cibor 0x0120 MODE_SET changes the device mode. (R429) -/
  | modeSet (source tag : Nat)
  /-- Cibor 0x0130 CFG_COMMIT stores the configuration in the NOR. (R394) -/
  | cfgCommit (source tag : Nat)
  /-- Cibor 0x0131 CFG_READBACK returns the stored configuration. (R391) -/
  | cfgReadback (source tag : Nat)
  /-- Cibor 0x0132 ALLOW_SET sets the allow list in MAKER. (R389) -/
  | allowSet (source tag : Nat)
  /-- Cibor 0x0A00 SPIN_START starts the spindle. (R391) -/
  | spinStart (source tag : Nat)
  /-- Cibor 0x0A01 SPIN_STOP stops the spindle. (R391) -/
  | spinStop (source tag : Nat)
  /-- Cibor 0x0A10 CAPO_ARM writes the Capo parameters and sets ARM. (R65) -/
  | capoArm (source tag : Nat)
  /-- Cibor 0x0A11 CAPO_DISARM sets DISARM. (R65) -/
  | capoDisarm (source tag : Nat)
  /-- Cibor 0x0B00 HEADS_LOAD loads the named Strings. (R391) -/
  | headsLoad (source tag : Nat)
  /-- Cibor 0x0B01 HEADS_UNLOAD unloads the named Strings. (R391) -/
  | headsUnload (source tag : Nat)
  /-- Cibor 0x0B02 BANK_SWITCH switches a String's coefficient bank. (R391) -/
  | bankSwitch (source tag : Nat)
  /-- Cibor 0x0C00 MEDIA_FORMAT checks and installs a media format. (R202) -/
  | mediaFormat (source tag : Nat)
  /-- Cibor 0x1000 TELEM_SNAPSHOT returns the resource counters. (R391) -/
  | telemSnapshot (source tag : Nat)
  /-- Cibor 0x1001 EVENT_READ returns event entries. (R391) -/
  | eventRead (source tag : Nat)
  /-- Cibor 0x2000 CAL_RUN runs a calibration script. (R443) -/
  | calRun (source tag : Nat)
  /-- Cibor 0x2001 TD_SEARCH runs the touchdown search. (R146) -/
  | tdSearch (source tag : Nat)
  /-- Cibor 0x5000 LANE_RETIRE retires a lane. (R391) -/
  | laneRetire (source tag : Nat)
  /-- Cibor 0x5001 LANE_UNRETIRE restores a lane. (R391) -/
  | laneUnretire (source tag : Nat)
  /-- Cibor 0x5010 CORE_RETIRE retires a Bureau core. (R378) -/
  | coreRetire (source tag : Nat)
  /-- Cibor 0x5011 CORE_UNRETIRE self-tests and restores a core. (R391) -/
  | coreUnretire (source tag : Nat)
  /-- Each telemetry period refreshes the controller-initiated telemetry log. (R398) Operands: what HK_TELEM adds. -/
  | telemetryPeriod (words : List Nat)
  /-- The serial NOR finishes erasing and programming the alternate configuration copy, and CFG_COMMIT replies.
  (R394) -/
  | configurationStored
  -- Microcode and extension modules
  /-- Cibor 0x3000 MC_LOAD checks and installs a microcode image or patch. (R373) Operands: the slot whose key
  verifies the signature, 1 or 3, and whether the image is the base. -/
  | mcLoad (source tag : Nat) (signed : Option Nat) (base : Bool)
  /-- Cibor 0x3010 EXT_LOAD loads a signed extension module. (R381) Operands: whether the signature verifies; SVN,
  size in bytes and hooks of the module. -/
  | extLoad (source tag : Nat) (signed : Bool) (svn size : Nat) (hooks : List Nat)
  /-- Cibor 0x3011 EXT_UNLOAD unloads a module. (R391) -/
  | extUnload (source tag : Nat)
  /-- An opcode from 0x8000 to 0xFFFF is passed to a module's HK_CIBOR hook. (R392) Operands: what HK_CIBOR
  answers. -/
  | extensionOpcode (source tag : Nat) (status : CStat) (payload : List Nat)
  /-- A hook running past 50 µs is stopped and its default is taken. (R382) Operands: source and tag of the request
  whose HK_CIBOR call is stopped. -/
  | hookTimeout (module hook : Nat) (request : Option (Nat × Nat))
  -- Life cycle
  /-- Firmware Image Download receives part of an image. (R252) -/
  | firmwareImageDownload (fseq : Nat)
  /-- Firmware Commit commits an image to a slot. (R467) Operands: hash of the image's public key, and whether its
  signature verifies. -/
  | firmwareCommit (fseq : Nat) (key : List Nat) (signed : Bool)
  /-- Cibor 0x4000 LC_CHALLENGE issues a challenge. (R462) -/
  | lcChallenge (source tag : Nat)
  /-- Cibor 0x4001 LC_TOKEN checks a token and performs a life-cycle transition. (R462) Operands: hash of the
  token's public key, whether its signature verifies, and the steps of R461 that are carried out before the power
  fails, 4 when it does not. -/
  | lcToken (source tag : Nat) (key : List Nat) (signed : Bool) (steps : Nat)
  /-- Cibor 0x4002 LC_STATE returns the life-cycle state. (R391) -/
  | lcState (source tag : Nat)
  /-- A live challenge ends after 600 s. (R462) -/
  | challengeExpiry
  -- The Bench port
  /-- TAP instruction BYPASS. (R468) -/
  | bypass
  /-- TAP instruction IDCODE. (R468) -/
  | idcode
  /-- TAP instruction SAMPLE/PRELOAD. (R468) -/
  | samplePreload
  /-- TAP instruction EXTEST, or BSCAN_BLK. (R468) -/
  | extest
  /-- TAP instruction CLAMP. (R468) -/
  | clamp
  /-- TAP instruction HIGHZ. (R468) -/
  | highz
  /-- TAP instruction DBG selects the debug protocol. (R468) -/
  | dbg
  /-- A debug-protocol frame arrives and is dispatched by type. (R469) Operands: the frame's bytes. -/
  | dbgFrame (frame : List Nat)
  /-- A Bench challenge request issues a challenge. (R469) -/
  | benchChallenge
  /-- A Bench opening token opens a session, or a RAW to BLANK request provisions fuses. (R469) Operands: the
  token's bytes with `key`, `signed` and `steps` as in LC_TOKEN, or a request of RAW: target, key hashes, identity. -/
  | benchOpen (token key : List Nat) (signed : Bool) (request : Option (Nat × List Nat × List Nat)) (steps : Nat)
  /-- CLOSE ends the session and resumes halted engines. (R472) -/
  | sessionClose
  /-- TRST_N assertion closes the session. (R469) -/
  | trst
  /-- IDLE_MIN minutes without a frame close the session. (R469) -/
  | sessionIdleTimeout
  /-- Debug HALT halts an engine, or is refused with NOT_READY. (R470) Operands: engines by the codes of R40. -/
  | halt (engine : Nat)
  /-- A Bench resume returns a halted engine to service. (R110) -/
  | benchResume (engine : Nat)
  /-- Debug STEP advances a halted engine by one unit. (R470) Operands: the position timer of a sequencer. -/
  | step (engine pt : Nat)
  /-- Debug command sets an engine breakpoint. (R470) Operands: kind 0 instruction, address, section or stage, 1
  data. -/
  | breakpointSet (engine kind place : Nat) (on : Bool)
  /-- An engine reaches a breakpoint and halts. (R470) -/
  | breakpointHit (engine kind place : Nat)
  /-- Debug MEM_RD reads words, with key areas returning 0. (R470) Operands: words counts them. -/
  | memRd (address words : Nat)
  /-- Debug MEM_WR writes words, except to protected blocks. (R470) Operands: `outcome` as in REGISTER_WRITE. -/
  | memWr (address : Nat) (words : List Nat) (outcome : Nat)
  /-- Debug STATE_RD reads an engine's private state. (R470) -/
  | stateRd (engine : Nat)
  /-- Debug TRACE_RD returns the last 1,024 trace tags. (R470) -/
  | traceRd
  /-- SNAP names an engine for shadow-step. (R471) -/
  | snap (engine : Nat)
  /-- At the next law execution, the state is copied into the shadow engine. (R471) -/
  | snapCapture
  /-- SSTEP runs the shadow one section. (R471) -/
  | sstep
  /-- SRUN runs the shadow to END or a breakpoint and sets MATCH. (R471) -/
  | srun
deriving DecidableEq, Repr

end Sys2Proof
end

