-- ==== Sys2Proof/WellFormed.lean ====
section
/-! DEFINITION. WellFormed.lean: the operands that the widths and the counts of the spec allow: 128 requester codes (R40),
48-bit addresses, eight host queue engines, 32 lanes, sixteen cores, 256 key slots, 4,096 control-store words, bytes. -/
namespace Sys2Proof

/-- Every item is a byte. -/
def areBytes (l : List Nat) : Bool := l.all fun b => decide (b < 256)

/-- Operands within the widths the spec gives them. -/
def Instr.wellFormed : Instr → Bool
  -- Register access (R9 to R15, R39)
  | .registerWrite requester address bytes value _ =>
    decide (requester < 128) && decide (address < 2 ^ 48) && decide (1 ≤ bytes) && decide (bytes ≤ 8) && decide (value < 2 ^ 64)
  -- Servo timing and demodulation
  | .preambleGate .. | .samLatched .. | .missedSam .. | .wedgeBoundary .. | .demodLatch .. => true
  -- String control engine, per Fret
  | .lostWedgeRetract .. | .controlLawOverrun .. | .fallbackSwitch .. | .actuatorOutput .. | .couplingStale .. | .settleTimeout .. => true
  -- Fret timing
  | .remeas mask =>
    decide (mask < 16)
  | .skewAverageEnd .. => true
  -- Capo unit
  | .capoCtrlArm | .capoCtrlDisarm | .capoReferenceEdge .. | .predictedFrameEdge .. | .referenceLost | .measureComplete | .capoGeneratorStep .. | .capoLock | .holdoverTimeout => true
  -- SPE
  | .speSetptWrite value =>
    decide (value < 2 ^ 16)
  | .speStart | .speStop | .gatesOffEnd | .measureFit .. | .residualHoldEnd | .alignEnd | .pwmPeriod .. | .skipLimit | .skipLimitLift | .speedLoopUpdate | .vmOvervoltage | .overcurrentTrip .. | .ocHoldEnd | .observerLoss | .zeroCrossing .. | .reacqFloat | .coastEntry | .atSpeed | .rcbBlock | .rcbConduct => true
  -- String control engine: loading, retract, shock
  | .load .. | .unload .. | .retract .. | .bankSw .. | .targetPost .. | .loadTimeout .. | .loopOpen .. | .retractRampEnd .. | .retractVelocityLoop .. | .retractPark .. | .retractHoldEnd .. | .shockEvent .. | .shockHoldEnd => true
  -- Servo demodulator commands
  | .svdFormatWrite _ _ value =>
    decide (value < 2 ^ 32)
  | .acq .. | .idle .. => true
  -- Assist engine and Nut link
  | .hotHeadClear _ head =>
    decide (head < 6)
  | .assistSlot .. | .nutReply .. | .linkFailure .. | .backgroundFrameStart .. | .bgGo .. | .wrArm .. | .abortClr .. | .warmUpComplete .. | .armLapse .. | .flyHeightUpdate .. => true
  -- Read channel and sector format
  | .syncMarkLatch _ _ before _ =>
    decide (before < 2 ^ 48)
  | .channelSetWrite _ n w v =>
    decide (n < 128) && decide (w < 256) && decide (v < 2 ^ 32)
  | .readGateOpen .. | .pllLock .. | .syncWindowClose .. | .captureEnd .. | .save .. | .restore .. | .capGo .. | .calCaptureEnd .. => true
  -- Formatter sequencers
  | .microwordIssue _ _ pt =>
    decide (pt < 2 ^ 20)
  | .reqLoad _ _ pt =>
    decide (pt < 2 ^ 20)
  | .reqDone _ _ status =>
    decide (status < 256)
  | .post _ _ code value =>
    decide (code < 256) && decide (value < 2 ^ 32)
  | .nextsec _ _ pt =>
    decide (pt < 2 ^ 20)
  | .rewind _ _ pt =>
    decide (pt < 2 ^ 20)
  | .capture _ arg pt =>
    decide (arg < 4096) && decide (pt < 2 ^ 20)
  | .setsel _ arg =>
    decide (arg < 4096)
  | .start _ pt =>
    decide (pt < 2 ^ 20)
  | .uevt _ arg =>
    decide (arg < 4096)
  | .yieldWord _ _ next =>
    decide (next < 4096)
  | .microwordWrite _ _ a off v =>
    decide (a < 4096) && decide (off < 32) && decide (v < 2 ^ 32)
  | .routineDispatch .. | .requeue .. | .cont .. | .close .. | .withdraw .. | .commit .. | .endRoutine .. | .resume .. | .drop .. | .seqInterrupt .. | .sqGo .. | .sqStop .. | .sqRst .. | .doorbell .. => true
  -- Cleaning and the Chest
  | .wearGapMove group =>
    decide (group < 64)
  | .bandCleanStart .. | .skipAgeTimeout .. | .journalResume | .chestWriteGrant .. => true
  -- Recovery ladder
  | .tlerExpiry fseq =>
    decide (fseq < 2 ^ 64)
  | .ladderRevolution .. | .parityPass .. | .ladderResume .. => true
  -- Harp
  | .codewordReady _ slot =>
    decide (slot < 10)
  | .laneResult lane _ _ =>
    decide (lane < 32)
  | .laneWatchdog lane =>
    decide (lane < 32)
  | .syndromeVerdict lane _ =>
    decide (lane < 32)
  | .selfTestDone lane _ =>
    decide (lane < 32)
  | .harpRetire lane =>
    decide (lane < 32)
  | .harpUnretire lane =>
    decide (lane < 32)
  | .detectorPassDone .. | .harpDispatch => true
  -- Write path
  | .writeGateOpen .. | .sectorWritten .. | .encodeDone .. | .writePathEnable .. | .accClr .. | .squeezeVerify .. | .writeBatchIssue .. | .accumulatorRebuild .. | .reallocate .. => true
  -- Phovi
  | .phoviJobStart engine =>
    decide (engine < 2)
  | .phoviJobDone engine _ _ _ =>
    decide (engine < 2)
  | .jobSuspend engine =>
    decide (engine < 2)
  | .spaceTimeout fseq =>
    decide (fseq < 2 ^ 64)
  | .phoviRetire mask =>
    decide (mask < 4)
  | .phoviUnretire mask =>
    decide (mask < 4)
  | .packTimeout .. => true
  -- Cabinet
  | .xtsRequest fseq _ =>
    decide (fseq < 2 ^ 64)
  | .generate slot =>
    decide (slot < 256)
  | .erase slot =>
    decide (slot < 256)
  | .rekey slot =>
    decide (slot < 256)
  | .encryptRequest .. | .holdEntryGrant | .cipherSectorDone .. | .katGo .. | .katPeriodic .. | .rngHealthFail => true
  -- Bridge and Chest
  | .writeTransferEnd fseq _ =>
    decide (fseq < 2 ^ 64)
  | .hostTransferDone fseq _ =>
    decide (fseq < 2 ^ 64)
  | .readPageSpill fseq _ =>
    decide (fseq < 2 ^ 64)
  | .chestEntryCommit fseq =>
    decide (fseq < 2 ^ 64)
  | .writeGrant .. | .logEntryCopy | .bridgeGo => true
  -- Host I/O commands
  | .commandFetch hqe sqids cids nsids _ =>
    decide (hqe < 8) && (sqids.all fun k => decide (k < 2 ^ 16)) && (cids.all fun k => decide (k < 2 ^ 16)) && (nsids.all fun k => decide (k < 2 ^ 32))
  | .nvmRead fseq =>
    decide (fseq < 2 ^ 64)
  | .nvmWrite fseq =>
    decide (fseq < 2 ^ 64)
  | .zoneAppend fseq =>
    decide (fseq < 2 ^ 64)
  | .flush fseq =>
    decide (fseq < 2 ^ 64)
  | .compare fseq =>
    decide (fseq < 2 ^ 64)
  | .verify fseq =>
    decide (fseq < 2 ^ 64)
  | .writeZeroes fseq =>
    decide (fseq < 2 ^ 64)
  | .datasetManagement fseq =>
    decide (fseq < 2 ^ 64)
  | .zoneOpen fseq =>
    decide (fseq < 2 ^ 64)
  | .zoneClose fseq =>
    decide (fseq < 2 ^ 64)
  | .zoneFinish fseq =>
    decide (fseq < 2 ^ 64)
  | .zoneReset fseq =>
    decide (fseq < 2 ^ 64)
  | .zoneOffline fseq =>
    decide (fseq < 2 ^ 64)
  | .reportZones fseq =>
    decide (fseq < 2 ^ 64)
  | .completionCommit fseq =>
    decide (fseq < 2 ^ 64)
  -- Reservations, queues, features, logs
  | .reservationRegister fseq =>
    decide (fseq < 2 ^ 64)
  | .reservationAcquire fseq =>
    decide (fseq < 2 ^ 64)
  | .reservationRelease fseq =>
    decide (fseq < 2 ^ 64)
  | .reservationReport fseq =>
    decide (fseq < 2 ^ 64)
  | .createIoSq fseq =>
    decide (fseq < 2 ^ 64)
  | .createIoCq fseq =>
    decide (fseq < 2 ^ 64)
  | .deleteIoSq fseq =>
    decide (fseq < 2 ^ 64)
  | .deleteIoCq fseq =>
    decide (fseq < 2 ^ 64)
  | .nvmeIdentify fseq =>
    decide (fseq < 2 ^ 64)
  | .getLogPage fseq =>
    decide (fseq < 2 ^ 64)
  | .abort fseq =>
    decide (fseq < 2 ^ 64)
  | .setFeatures fseq =>
    decide (fseq < 2 ^ 64)
  | .getFeatures fseq =>
    decide (fseq < 2 ^ 64)
  | .streamQueueArm fseq =>
    decide (fseq < 2 ^ 64)
  | .streamQueueDisarm fseq =>
    decide (fseq < 2 ^ 64)
  | .streamQueueGet fseq =>
    decide (fseq < 2 ^ 64)
  | .streamCapacityGet fseq =>
    decide (fseq < 2 ^ 64)
  | .telemetryPeriodSet fseq =>
    decide (fseq < 2 ^ 64)
  | .asynchronousEventRequest fseq =>
    decide (fseq < 2 ^ 64)
  | .deviceSelfTest fseq _ =>
    decide (fseq < 2 ^ 64)
  | .securitySend fseq =>
    decide (fseq < 2 ^ 64)
  | .securityReceive fseq =>
    decide (fseq < 2 ^ 64)
  -- Namespaces
  | .namespaceCreate fseq =>
    decide (fseq < 2 ^ 64)
  | .namespaceDelete fseq =>
    decide (fseq < 2 ^ 64)
  | .namespaceAttach fseq =>
    decide (fseq < 2 ^ 64)
  | .namespaceDetach fseq =>
    decide (fseq < 2 ^ 64)
  | .formatNvm fseq =>
    decide (fseq < 2 ^ 64)
  | .sanitizeCryptoErase fseq =>
    decide (fseq < 2 ^ 64)
  | .slotOpComplete => true
  -- Ports, controllers, NVMe-MI
  | .perstAssert port =>
    decide (port < 2)
  | .perstDeassert port _ =>
    decide (port < 2)
  | .linkTrained port _ _ =>
    decide (port < 2)
  | .dlDown port =>
    decide (port < 2)
  | .ccEnClear hqe =>
    decide (hqe < 8)
  | .ccEnSet hqe ams =>
    decide (hqe < 8) && decide (ams < 8)
  | .controllerReady hqe =>
    decide (hqe < 8)
  | .functionLevelReset hqe =>
    decide (hqe < 8)
  | .forceRst hqe =>
    decide (hqe < 8)
  | .nvmeMiReadDataStructure _ k _ =>
    decide (k < 8)
  | .controllerHealthPoll k _ =>
    decide (k < 8)
  | .configurationSet _ value _ =>
    decide (value < 2 ^ 32)
  | .vpdWrite _ bytes _ =>
    areBytes bytes
  | .nvmSubsystemHealthPoll .. | .configurationGet .. | .vpdRead .. | .basicManagementCommand .. => true
  -- Caches and memory integrity
  | .l2MaintGo n =>
    decide (n < 4)
  | .l2MaintDone n =>
    decide (n < 4)
  | .l2Disable n =>
    decide (n < 4)
  | .disableWalkEnd n _ _ =>
    decide (n < 4)
  | .ratInvalidate n _ =>
    decide (n < 4)
  | .bucketLeak .. | .scrubStep .. | .rawrd | .rawwr | .fill .. | .fillComplete .. => true
  -- Power, modes and emergency retract
  | .strlostClr mask =>
    decide (mask < 16)
  | .domainRequest word value mask =>
    decide (word < 3) && decide (value < 2 ^ 32) && decide (mask < 2 ^ 32)
  | .powerDomainFault domain =>
    decide (domain < 80)
  | .powerLossEvent .. | .retractStagger .. | .vmRetminRecover .. | .supplyGood .. | .vmCharged | .thermalWake .. | .capoActivity .. | .rtcAlarm .. | .dormantTimeout | .idleTimeout | .bureauRegate | .railUndervoltage .. | .railTimeout | .mainpwrRetry .. => true
  -- Trim, calibration and temperature
  | .scriptResume mask =>
    decide (mask < 16)
  | .calScriptStep mask _ =>
    decide (mask < 16)
  | .pegTick .. | .thermalSample .. | .throttleTick | .calScheduleDue .. | .tdStep .. | .calAbort => true
  -- Bureau cores
  | .coreWatchdog core =>
    decide (core < 16)
  | .machineCheck core =>
    decide (core < 16)
  | .coreSelfTest core _ =>
    decide (core < 16)
  | .burRetire cluster mask =>
    decide (cluster < 4) && decide (mask < 16)
  | .burUnretire cluster mask =>
    decide (cluster < 4) && decide (mask < 16)
  -- Cibor: packets and replies
  | .ciborRequest source packet =>
    decide (source < 10) && areBytes packet
  | .ciborSend fseq =>
    decide (fseq < 2 ^ 64)
  | .ciborReceive fseq =>
    decide (fseq < 2 ^ 64)
  | .replyExpiry source tag =>
    decide (source < 10) && decide (tag < 2 ^ 16)
  | .replyWaitExpiry fseq =>
    decide (fseq < 2 ^ 64)
  | .miTunnelledAdmin k nsid _ _ =>
    decide (k < 8) && decide (nsid < 2 ^ 32)
  -- Cibor: opcodes of the configuration, telemetry, calibration and diagnostics classes, by the source and tag of the request
  | .identify source tag =>
    decide (source < 10) && decide (tag < 2 ^ 16)
  | .regRead source tag =>
    decide (source < 10) && decide (tag < 2 ^ 16)
  | .regWrite source tag _ =>
    decide (source < 10) && decide (tag < 2 ^ 16)
  | .tableWrite source tag =>
    decide (source < 10) && decide (tag < 2 ^ 16)
  | .modeSet source tag =>
    decide (source < 10) && decide (tag < 2 ^ 16)
  | .cfgCommit source tag =>
    decide (source < 10) && decide (tag < 2 ^ 16)
  | .cfgReadback source tag =>
    decide (source < 10) && decide (tag < 2 ^ 16)
  | .allowSet source tag =>
    decide (source < 10) && decide (tag < 2 ^ 16)
  | .spinStart source tag =>
    decide (source < 10) && decide (tag < 2 ^ 16)
  | .spinStop source tag =>
    decide (source < 10) && decide (tag < 2 ^ 16)
  | .capoArm source tag =>
    decide (source < 10) && decide (tag < 2 ^ 16)
  | .capoDisarm source tag =>
    decide (source < 10) && decide (tag < 2 ^ 16)
  | .headsLoad source tag =>
    decide (source < 10) && decide (tag < 2 ^ 16)
  | .headsUnload source tag =>
    decide (source < 10) && decide (tag < 2 ^ 16)
  | .bankSwitch source tag =>
    decide (source < 10) && decide (tag < 2 ^ 16)
  | .mediaFormat source tag =>
    decide (source < 10) && decide (tag < 2 ^ 16)
  | .telemSnapshot source tag =>
    decide (source < 10) && decide (tag < 2 ^ 16)
  | .eventRead source tag =>
    decide (source < 10) && decide (tag < 2 ^ 16)
  | .calRun source tag =>
    decide (source < 10) && decide (tag < 2 ^ 16)
  | .tdSearch source tag =>
    decide (source < 10) && decide (tag < 2 ^ 16)
  | .laneRetire source tag =>
    decide (source < 10) && decide (tag < 2 ^ 16)
  | .laneUnretire source tag =>
    decide (source < 10) && decide (tag < 2 ^ 16)
  | .coreRetire source tag =>
    decide (source < 10) && decide (tag < 2 ^ 16)
  | .coreUnretire source tag =>
    decide (source < 10) && decide (tag < 2 ^ 16)
  | .telemetryPeriod .. | .configurationStored => true
  -- Microcode and extension modules
  | .mcLoad source tag _ _ =>
    decide (source < 10) && decide (tag < 2 ^ 16)
  | .extLoad source tag _ _ _ _ =>
    decide (source < 10) && decide (tag < 2 ^ 16)
  | .extUnload source tag =>
    decide (source < 10) && decide (tag < 2 ^ 16)
  | .extensionOpcode source tag _ payload =>
    decide (source < 10) && decide (tag < 2 ^ 16) && areBytes payload
  | .hookTimeout _ hook _ =>
    decide (hook < 7)
  -- Life cycle
  | .firmwareImageDownload fseq =>
    decide (fseq < 2 ^ 64)
  | .firmwareCommit fseq _ _ =>
    decide (fseq < 2 ^ 64)
  | .lcChallenge source tag =>
    decide (source < 10) && decide (tag < 2 ^ 16)
  | .lcToken source tag _ _ steps =>
    decide (source < 10) && decide (tag < 2 ^ 16) && decide (steps ≤ 4)
  | .lcState source tag =>
    decide (source < 10) && decide (tag < 2 ^ 16)
  | .challengeExpiry => true
  -- The Bench port
  | .dbgFrame frame =>
    areBytes frame
  | .benchOpen token _ _ _ steps =>
    areBytes token && decide (steps ≤ 4)
  | .halt engine =>
    decide (engine < 128)
  | .benchResume engine =>
    decide (engine < 128)
  | .step engine pt =>
    decide (engine < 128) && decide (pt < 2 ^ 20)
  | .breakpointSet engine _ _ _ =>
    decide (engine < 128)
  | .breakpointHit engine _ _ =>
    decide (engine < 128)
  | .memRd address _ =>
    decide (address < 2 ^ 48)
  | .memWr address _ _ =>
    decide (address < 2 ^ 48)
  | .stateRd engine =>
    decide (engine < 128)
  | .snap engine =>
    decide (engine < 128)
  | .bypass | .idcode | .samplePreload | .extest | .clamp | .highz | .dbg | .benchChallenge | .sessionClose | .trst | .sessionIdleTimeout | .traceRd | .snapCapture | .sstep | .srun => true

end Sys2Proof
end

