-- ==== Sys2Proof/Decode.lean ====
section
/-! DEFINITION. Decode.lean: the command that a word spells by the bits of spec/opcode_table.json. The block takes commands and
no words: the table gives no row any bits, so no word spells a command. -/
namespace Sys2Proof

/-- The command of the table whose bits are `w`: none, since no row has bits. -/
def decodeTableWord (_nbits _w : Nat) : Option Instr := none

end Sys2Proof
end

