-- ==== Sys2Proof/Machine/Regs.lean ====
section
/-! DEFINITION. Machine/Regs.lean: every named field of every register map of the spec, as ONE enumeration `Reg`
(one constructor per field, named REGISTER_FIELD), the blocks of R37 and R38 they lie in, and the table of their
rows: offset in the block, how many copies and at what stride, bit position and width, access type (R13), change
class (R9) and reset value (R16). A per-String register keeps the manual's `x` (SCEx_STAT); an indexed register has
one constructor and an index.

Reset values the spec does not give as a number (`restored`, `fuses`, `strap`) stand as 0 here, or as the value the
assumption log names (entry 2). -/
namespace Sys2Proof.Machine

/-- The register blocks (R37, R38). -/
inductive Blk
  | fabric
  | fret
  | capo
  | spe
  | sce
  | svd
  | ae
  | nut
  | rch
  | harp
  | sfm
  | wrp
  | rld
  | hqe
  | pcie
  | strm
  | bridge
  | chest
  | cabinet
  | phovi
  | seq
  | bureau
  | l2
  | mi
  | scbms
  | pwr
  | sideboard
  | cal
  | thermal
  | identity
  | bench
  | peg
deriving DecidableEq, Repr

/-- Access types (R13). -/
inductive Access
  | rw | ro | wo | w1c | rws
deriving DecidableEq, Repr

/-- Change classes (R9). `lk` is the manual's "L or K"; `ro` is its dash. -/
inductive Cls
  | l | s | k | lk | ro
deriving DecidableEq, Repr

/-- One constructor per register field of the spec's register maps. -/
inductive Reg
  -- Fabric control and error capture
  | FAB_ERR_STAT_ERR | FAB_ERR_STAT_OVF | FAB_ERR_STAT_KIND | FAB_ERR_ADDR_ADDR_LO | FAB_ERR_SRC_ADDR_HI
  | FAB_ERR_SRC_REQ | FAB_ERR_SRC_WR
  -- Fret timing
  | FRET_CTRL_REMEAS | FRET_CTRL_DRIFT_TOL | FRET_STAT_VALID | FRET_STAT_DRIFT | FRET_STAT_REF | FRET_STAT_NOREF
  | FRET_PERIOD_PS | FRET_SKEW_FRAC | FRET_SKEW_WEDGE | FRET_SKEWNS_NS
  -- Capo unit
  | CAPO_CTRL_ARM | CAPO_CTRL_DISARM | CAPO_CTRL_SRC | CAPO_CTRL_EDGE | CAPO_RATIO_M1 | CAPO_RATIO_N1
  | CAPO_FRAME_FDIV1 | CAPO_AIN_CFG_THRESH | CAPO_AIN_CFG_HYST | CAPO_HOLD_MS | CAPO_STAT_STATE | CAPO_STAT_SLEW
  | CAPO_STAT_WINH | CAPO_STAT_LOSS | CAPO_STAT_RANGE | CAPO_STAT_GLITCH | CAPO_STAT_CFG_LOCKED | CAPO_STAT_SPE_FAULT
  | CAPO_STAT_RATIO_REJ | CAPO_REF_PERIOD | CAPO_TARGET_UHZ | CAPO_SETPT_UHZ | CAPO_PHASE_ERR | CAPO_PHASE_WEDGE
  | CAPO_FRAMECNT_COUNT | CAPO_GLITCHCNT_COUNT | CAPO_SHADOW_RATIO
  -- SPE
  | SPE_CTRL_START | SPE_CTRL_STOP | SPE_CTRL_STOPMODE | SPE_CTRL_CATCH_EN | SPE_CTRL_BRK_RES | SPE_SETPT_RPM
  | SPE_RAMP_ACC | SPE_RAMP_SPD_TOL | SPE_ILIM_RUN_ILIM | SPE_ILIM_BRK_ILIM | SPE_ILIM_ALIGN_I | SPE_ILIM_START_I
  | SPE_START_ALIGN_MS | SPE_START_HANDOVER | SPE_START_OL_ACC | SPE_MOTOR_POLEPAIRS | SPE_MOTOR_KE_NOM
  | SPE_MOTOR_RPH | SPE_PWM_DEADTIME | SPE_PWM_SMP_MINW | SPE_PWM_FLY_PCT | SPE_FW_IDFW_MAX | SPE_FW_VMARGIN
  | SPE_BUS_VM_OV | SPE_BUS_BRK_PMAX | SPE_OC_OC_LIM | SPE_STAT_STATE | SPE_STAT_ATSPD | SPE_STAT_DIR | SPE_STAT_WINH
  | SPE_STAT_TICKPRED | SPE_STAT_KE_MISMATCH | SPE_STAT_OBS_LOSS | SPE_STAT_REACQ_OK | SPE_STAT_OC_TRIP
  | SPE_STAT_START_FAIL | SPE_STAT_REGEN_CLAMP | SPE_STAT_SKIP_LIM | SPE_STAT_CFG_LOCKED | SPE_STAT_SETPT_RANGE
  | SPE_SPEED_MRPM | SPE_KE_KE | SPE_KE_VALID | SPE_SKIPCNT_COUNT | SPE_SHADOW_SETPT | SPE_SHADOW_RUN_ILIM
  | SPE_TICK_PERIOD | SPE_COEF_COEF
  -- String control engine
  | SCEx_CTRL_LOAD | SCEx_CTRL_UNLOAD | SCEx_CTRL_RETRACT | SCEx_CTRL_BANK_SW | SCEx_CTRL_OPT_EN
  | SCEx_CTRL_CPL_ROUTE | SCEx_STAT_STATE | SCEx_STAT_PVALID | SCEx_STAT_WINH | SCEx_STAT_ACTBANK
  | SCEx_STAT_FALLBACK | SCEx_STAT_LOOP_OPEN | SCEx_STAT_LOSTCNT | SCEx_STAT_OVRCNT | SCEx_STAT_OVR
  | SCEx_STAT_SAT_VCM | SCEx_STAT_SAT_MA | SCEx_STAT_SAT_INT | SCEx_STAT_PLAUS | SCEx_STAT_RETRACTED
  | SCEx_STAT_FB_PEND | SCEx_STAT_CFG_LOCKED | SCEx_STAT_SEEK_TO | SCEx_STAT_LOAD_FAIL | SCEx_STAT_CPL_STALE
  | SCEx_STAT_FAULT | SCEx_STAT_TGT_ERR | SCEx_TARGET_TRACK | SCEx_TARGET_HEAD | SCEx_TOFFS_OFFS | SCEx_THRESH_WF_TH
  | SCEx_THRESH_RD_TH | SCEx_THRESH_PLAUS_TH | SCEx_THRESH_SETTLE_N | SCEx_SEEK_V_MAX | SCEx_SEEK_A_MAX
  | SCEx_SEEK_J_MAX | SCEx_ILIM_ISEEK_LIM | SCEx_ILIM_RET_ILIM | SCEx_RET_RET_VEL | SCEx_RET_RET_MS
  | SCEx_RET_LOAD_MS | SCEx_RET_SETTLE_MAX | SCEx_VCM_KB | SCEx_VCM_RVCM | SCEx_VCM_MA_LIM | SCEx_PES_S0
  | SCEx_VCMCMD_S30 | SCEx_MACMD_S31 | SCEx_CPLFF_S5 | SCEx_CYC_MAND | SCEx_CYC_PEAK | SCEx_LOSTTOT_COUNT
  | SCEx_PRSAM_TIME | SCEx_TGT_SHADOW_TRACK | SCEx_TGT_SHADOW_HEAD | SCEx_TGT_SHADOW_PEND | SCEx_MISC_SHADOW_OFFS
  | SCEx_MISC_SHADOW_OPT_EN | SCEx_MISC_SHADOW_CPL_ROUTE | SCEx_HEADS_HEADS | SCEx_BANK0_TABLE | SCEx_BANK1_TABLE
  | SCEx_FALLBACK_TABLE
  -- servo demodulator
  | SVDx_CTRL_ACQ | SVDx_CTRL_IDLE | SVDx_CTRL_GRAY_SUB | SVDx_CTRL_RRO_EN | SVDx_FMT0_CELLS | SVDx_FMT0_PRE_LEN
  | SVDx_FMT0_SAM_LEN | SVDx_FMT1_SAM_PAT | SVDx_FMT1_SAM_TOL | SVDx_FMT1_SAM_WIN | SVDx_FMT1_SAMW_TOL
  | SVDx_FMT2_GRAY_OFF | SVDx_FMT2_WNUM_OFF | SVDx_FMT2_NB_OFF | SVDx_FMT3_QB_OFF | SVDx_FMT3_RRO_OFF
  | SVDx_FMT3_BOUND | SVDx_FMT4_TRK_BITS | SVDx_FMT4_CPB | SVDx_FMT4_BURST_LEN | SVDx_FMT4_BURST_PER
  | SVDx_FMT4_BURST_MIN | SVDx_FMT5_SYNC_N | SVDx_FMT5_SYNC_LOSS | SVDx_HRDR_SRV_RDR | SVDx_HRDR_RDR_OFFS
  | SVDx_HSKEW_HSKEW | SVDx_STAT_SYNC_STATE | SVDx_STAT_LAST_OK | SVDx_STAT_CFG_LOCKED | SVDx_STAT_SLIP
  | SVDx_STAT_SAM_DUP | SVDx_STAT_GRAY_SUBD | SVDx_STAT_RRO_BAD | SVDx_STAT_WNUM_FIX | SVDx_STAT_SAM_OFF
  | SVDx_STAT_FMT_VALID | SVDx_STAT_LAST_CAUSE | SVDx_STAT_WEDGE | SVDx_TRK_T | SVDx_FRAC_F | SVDx_NQ_N | SVDx_NQ_Q
  | SVDx_RRO_VALUE | SVDx_SAMDEV_DEV | SVDx_CNT_MISSED | SVDx_CNT_UNREAD | SVDx_SHADOW_GRAY_SUB | SVDx_SHADOW_RRO_EN
  | SVDx_PREAMP_A_PRE
  -- assist engine
  | AEx_CTRL_WR_ARM | AEx_CTRL_ABORT_CLR | AEx_CTRL_CAL_EN | AEx_CTRL_FH_EN | AEx_STAT_STATE | AEx_STAT_HEAD
  | AEx_STAT_INH | AEx_STAT_LEDG_SOFT | AEx_STAT_ASSIST_ABORT | AEx_STAT_NUT_FAIL | AEx_STAT_ARM_LAPSE
  | AEx_STAT_CFG_LOCKED | AEx_STAT_HTR_CLAMP | AEx_STAT_LAS_CLAMP | AEx_STAT_TD_HIT | AEx_CFG_TYPE
  | AEx_CFG_WARM_FRETS | AEx_CFG_ARM_HOLD | AEx_CFG_LEAK_SH | AEx_CFG_FH_DIV | AEx_ABORT_WEDGE | AEx_ABORT_HEAD
  | AEx_ABORT_CAUSE | AEx_SHADOW_CTRL | AEx_CALHTR_HTR | AEx_H_LAS_LAS_WR | AEx_H_LAS_LAS_IDLE | AEx_H_LIM_LAS_MAX
  | AEx_H_LIM_PW_LSB | AEx_H_LIM_TC_LAS | AEx_H_HTR_HTR_RD | AEx_H_HTR_HTR_WIDLE | AEx_H_HTR_HTR_WR
  | AEx_H_HLIM_HTR_MAX | AEx_H_HLIM_HTR_TC | AEx_H_HLIM_HTR_CMAX | AEx_H_HLIM_WC | AEx_H_ECS_ECS_REF | AEx_H_ECS_KI
  | AEx_H_ECS_ECS_TD | AEx_H_CAPS_LEDG_SOFT | AEx_H_CAPS_LEDG_HARD | AEx_H_LEDGER_NJ | AEx_H_HSTAT_TEMP
  | AEx_H_HSTAT_HCORR
  -- Nut link
  | NUTx_CTRL_EN | NUTx_CTRL_BG_GO | NUTx_BGCMD_WR | NUTx_BGCMD_HEAD | NUTx_BGCMD_ADDR | NUTx_BGDATA_DATA
  | NUTx_BGRESP_DATA | NUTx_STAT_BG_BUSY | NUTx_STAT_BG_DONE | NUTx_STAT_BG_ERR | NUTx_STAT_WDOG | NUTx_STAT_WFLT
  | NUTx_STAT_CFG_LOCKED | NUTx_CNT_CRC_ERR | NUTx_CNT_NACK
  -- read channel
  | RCHx_CTRL_AGC_EN | RCHx_CTRL_TIM_EN | RCHx_CTRL_FIR_EN | RCHx_CTRL_NP_EN | RCHx_CTRL_DC_EN | RCHx_CTRL_SAVE
  | RCHx_CTRL_RESTORE | RCHx_CTRL_PDMODE | RCHx_CTRL_GLB_MAX | RCHx_CTRL_LOC_MAX | RCHx_CTRL_SLOT_RSV
  | RCHx_CTRL_CAPTURE | RCHx_STAT_PLL_LOCK | RCHx_STAT_EQ_DIV | RCHx_STAT_RATE_HI | RCHx_STAT_RDR_LOW
  | RCHx_STAT_SBUF_SLIP | RCHx_STAT_ITER_LIM | RCHx_STAT_CFG_LOCKED | RCHx_STAT_SET_INV | RCHx_STAT_CAP_BUSY
  | RCHx_STAT_SET | RCHx_STAT_SLOTS_FREE | RCHx_STAT_PENDQ | RCHx_ADAPT_AGC_MU_A | RCHx_ADAPT_AGC_MU_T
  | RCHx_ADAPT_TIM_KA | RCHx_ADAPT_TIM_KT | RCHx_ADAPT_FIR_MU | RCHx_ADAPT_NP_MU | RCHx_DIV_MSE_DIV | RCHx_DIV_DIV_N
  | RCHx_PD_PD_TH | RCHx_PD_PD_ALT | RCHx_RATE_BITRATE | RCHx_MSE_LAST | RCHx_SHADOW_CTRL | RCHx_CNT0_SECTORS
  | RCHx_CNT1_REDET | RCHx_CNT1_ITER_LIM | RCHx_CNT2_SBUF_SLIP | RCHx_CNT2_PD_POL | RCHx_AMP_A0 | RCHx_AMP_A1
  | RCHx_AMP_A2 | RCHx_GAIN_G0 | RCHx_GAIN_G1 | RCHx_GAIN_G2 | RCHx_SLOT_BUSY | RCHx_SRVGA_H0 | RCHx_SRVGA_H1
  | RCHx_SRVGA_H2 | RCHx_SRVGA_H3 | RCHx_SRVGB_H4 | RCHx_SRVGB_H5 | RCHx_CAPCTL_CAP_GO | RCHx_CAPCTL_CAP_MASK
  | RCHx_CAPCTL_CAP_LEN | RCHx_CAPRATE_CAP_RATE | RCHx_FIR_TAP | RCHx_NP_NP | RCHx_SET_SET
  -- Harp
  | HARP_CTRL_SLIP_EN | HARP_CTRL_SLIP_MAX | HARP_CTRL_SLIP_ORD | HARP_CTRL_SLIP_GLB | HARP_CTRL_RETIRE
  | HARP_CTRL_UNRETIRE | HARP_CTRL_RLANE | HARP_CTRL_BF_MAX | HARP_STAT_INSVC | HARP_STAT_AVAIL
  | HARP_STAT_BELOW_FLOOR | HARP_STAT_LANE_RETIRED | HARP_STAT_STRIKE | HARP_STAT_CHK_FAULT | HARP_STAT_OVF
  | HARP_STAT_CFG_LOCKED | HARP_STAT_LBA_MISMATCH | HARP_STAT_CHK_RET | HARP_RETIRED_LANES | HARP_WDRAWN_LANES
  | HARP_GATED_LANES | HARP_STRIKE0_COUNT | HARP_STRIKE1_COUNT | HARP_CNT0_CONFIRMED | HARP_CNT1_STRIKES
  | HARP_CNT1_RESTARTS | HARP_CNT2_SLIP_OK | HARP_CNT2_SLIP_FAIL | HARP_CNT3_OVF | HARP_CNT3_MISCLAIM
  | HARP_SLIPHIST_P1 | HARP_SLIPHIST_P2 | HARP_SLIPHIST_P3 | HARP_SLIPHIST_P4 | HARP_SLIPHIST_N1 | HARP_SLIPHIST_N2
  | HARP_SLIPHIST_N3 | HARP_SLIPHIST_N4 | HARP_LOG_LANE | HARP_LOG_CAUSE | HARP_LOGTIME_TIME | HARP_SHADOW_CTRL
  | HARP_HBASE_ENTRY
  -- sector format
  | SFMx_SYNC0_SYNC_LO | SFMx_SYNC1_SYNC_HI | SFMx_SYNC1_SYNC_TOL | SFMx_SYNC1_SYNC_WIN | SFMx_FSYNC_FSYNC_PAT
  | SFMx_FSYNC_FSYNC_TOL | SFMx_FSYNC_FSYNC_WIN | SFMx_STAT_SYNC_MISS | SFMx_STAT_FSYNC_MISS | SFMx_STAT_SYNC_ALT
  | SFMx_STAT_SECT_PRED | SFMx_STAT_CFG_LOCKED | SFMx_LAST_OFFS | SFMx_LAST_MISM | SFMx_CNT_SYNC_MISS
  | SFMx_CNT_SECT_PRED
  -- write path
  | WRPx_CTRL_EN | WRPx_CTRL_PAR_EN | WRPx_CTRL_ACC_CLR | WRPx_CFG_FSTART | WRPx_CFG_SGAP | WRPx_CFG_PREFILL
  | WRPx_STAT_GATE | WRPx_STAT_RUN | WRPx_STAT_RATE_HI | WRPx_STAT_CUT | WRPx_STAT_UNDERRUN | WRPx_STAT_ENC_FAULT
  | WRPx_STAT_CFG_LOCKED | WRPx_STAT_FIFO | WRPx_STAT_ACC_N | WRPx_CNT0_SECTORS | WRPx_CNT1_CUT | WRPx_CNT1_UNDERRUN
  | WRPx_CNT2_ENC_RETRY | WRPx_CNT2_SQZ | WRPx_SHADOW_PAR_EN | WRPx_PREC_PRE1 | WRPx_PREC_PRE2 | WRPx_ACC_DATA
  -- recovery ladder
  | RLDx_CFG_RETRY_N | RLDx_CFG_OFF_STEP | RLDx_CFG_REALLOC_RUNG | RLDx_CFG_STREAM_RUNG | RLDx_CFG_EXT_GLB
  | RLDx_CFG_EXT_ALT | RLDx_CFG_PAR_REV | RLDx_EN_RUNG_EN | RLDx_STAT_ACTIVE | RLDx_STAT_WAITQ | RLDx_STAT_SPARE_LOW
  | RLDx_STAT_TLER_CUT | RLDx_CNT0_RUNG1 | RLDx_CNT0_RUNG2 | RLDx_CNT1_RUNG3 | RLDx_CNT1_RUNG4 | RLDx_CNT2_RUNG5
  | RLDx_CNT2_RUNG6 | RLDx_CNT3_RUNG7 | RLDx_CNT3_RUNG8 | RLDx_CNT4_FAIL | RLDx_CNT4_REALLOC | RLDx_SHADOW_CFG
  | RLDx_SHADOW1_EN | RLDx_LAST_RUNG | RLDx_LASTLBA0_LBA_LO | RLDx_LASTLBA1_LBA_HI
  -- HQE (with its stream slots)
  | HQEn_CTRL_FN_EN | HQEn_CTRL_FORCE_RST | HQEn_CFG_MDTS | HQEn_CFG_ZASL | HQEn_CFG_NIOQ | HQEn_CFG_SGL_EN
  | HQEn_STAT_EN | HQEn_STAT_RDY | HQEn_STAT_CFS | HQEn_STAT_SHST | HQEn_STAT_LINK | HQEn_STAT_CFG_LOCKED
  | HQEn_STAT_RST_DONE | HQEn_STAT_IOQ | HQEn_OUT_OUTST | HQEn_CNT0_FETCHED | HQEn_CNT1_RESV_CONF | HQEn_CNT1_PI_ERR
  | HQEn_CNT2_NOT_READY | HQEn_STRM_Q_SQID | HQEn_STRM_Q_ARMED | HQEn_STRM_Q_DIR | HQEn_STRM_Q_SMASK
  | HQEn_STRM_Q_DLF | HQEn_STRM_BPF_BPF | HQEn_STRM_AORD_AORD | HQEn_STRM_CNT_MISS | HQEn_STRM_CNT_SUSP
  -- PCIe PHY and link
  | PCIE_CFG_DUAL | PCIE_CFG_FN_CNT0 | PCIE_CFG_FN_CNT1 | PCIE_CFG_CLK0 | PCIE_CFG_CLK1 | PCIE_CFG_MAXSPD0
  | PCIE_CFG_MAXSPD1 | PCIE_STAT_UP0 | PCIE_STAT_UP1 | PCIE_STAT_SPD0 | PCIE_STAT_SPD1 | PCIE_STAT_WID0
  | PCIE_STAT_WID1 | PCIE_STAT_CFG_LOCKED | PCIE_STAT_DLDN0 | PCIE_STAT_DLDN1 | PCIE_CNT_CORR0 | PCIE_CNT_CORR1
  | PCIE_MI_MI_ADDR
  -- stream scheduler
  | STRM_CFG_FRAC | STRM_CFG_SW_FRETS | STRM_STAT_ARMED | STRM_STAT_FROZEN | STRM_STAT_WDRN | STRM_STAT_MISS
  | STRM_STAT_REFUSED | STRM_HARP_REQ | STRM_HARP_CAP | STRM_MED_USED | STRM_MED_STREAMS | STRM_AVL_AVAIL
  | STRM_CNT0_MISS | STRM_CNT0_SUSP | STRM_CNT1_WDRN | STRM_CNT1_REFUSED
  -- Bridge control
  | BRG_CTRL_GO | BRG_CTRL_SPILL_EN | BRG_CFG0_WSPLIT | BRG_CFG0_WMIN | BRG_CFG0_WMAX | BRG_CFG1_RMIN | BRG_CFG1_RMAX
  | BRG_CFG2_STRM_MAX | BRG_CFG2_SPILL_US | BRG_STAT_CFG_LOCKED | BRG_STAT_DESC_WAIT | BRG_STAT_VSTORE_WAIT
  | BRG_STAT_RSLIP | BRG_STAT_SPILLED | BRG_STAT_MAP_RSV | BRG_VSTORE_FREE | BRG_DESC_FREE | BRG_STRM_RSV
  | BRG_USE_CELLS | BRG_USE_PAGES | BRG_RSLIP_COUNT
  -- Chest controller and write governor
  | CHST_CTRL_WB_EN | CHST_CTRL_CHB_MAXBLK | CHST_GOV_GOV_RATE | CHST_GOV_GOV_BURST | CHST_GOV_GOV_GRATE
  | CHST_GOV_GOV_GBURST | CHST_STAT_GOV_ACT | CHST_STAT_INELIG | CHST_STAT_JRNL_WAIT | CHST_STAT_LIFE_WARN
  | CHST_STAT_LIFE_END | CHST_TOKENS_GLOBAL | CHST_WB_ENTRIES | CHST_WB_FREE | CHST_JRNL_LIVE | CHST_LIFE_LIFE
  | CHST_LIFE_GROUP | CHST_TOTLO_ROWS | CHST_TOTHI_ROWS | CHST_GWRLO_G | CHST_GWRHI_G
  -- Cabinet
  | CAB_CTRL_SLOT_GO | CAB_CTRL_SLOT_OP | CAB_CTRL_SLOT | CAB_CTRL_KAT_GO | CAB_STAT_BUSY | CAB_STAT_DONE
  | CAB_STAT_OP_ERR | CAB_STAT_RNG_FAIL | CAB_STAT_TAG_FAIL | CAB_STAT_HOLD_WAIT | CAB_STAT_NONCE_GUARD
  | CAB_STAT_KEY_LOW | CAB_STAT_KEY_EXH | CAB_STAT_CORES | CAB_STAT_CORE_RET | CAB_STAT_HOLD_USED | CAB_CFG_KAT_MS
  | CAB_SLOTSEL_SLOT | CAB_SLOTSTAT_STATE | CAB_SLOTSTAT_LOW | CAB_SLOTSTAT_NSID | CAB_SLOTSTAT_NSTAG | CAB_GENLO_GEN
  | CAB_GENHI_GEN | CAB_CNT0_DECRYPTS | CAB_CNT1_ENCRYPTS | CAB_CNT2_TAG_FAIL | CAB_CNT2_GEN_BAD | CAB_CNT3_HOLD_WAIT
  | CAB_CNT3_KAT_FAIL | CAB_EPOCH_KEK_EPOCH
  -- Phovi
  | PHV_CTRL_RETIRE | PHV_CTRL_UNRETIRE | PHV_CFG_CAPS_BLK | PHV_CFG_MIN_GAIN | PHV_CFG_SPACE_MS | PHV_CFG_VFY_RET
  | PHV_CFG_PACK_MS | PHV_STAT_INSVC | PHV_STAT_VFY_FAIL | PHV_STAT_DEC_ERR | PHV_STAT_CAP_EXC | PHV_STAT_PREEMPT
  | PHV_STAT_CFG_LOCKED | PHV_STAT_ENG_FAULT | PHV_STAT_SLOTS_FREE | PHV_STAT_QUEUED | PHV_ENG_STATE | PHV_ENG_VFYCNT
  | PHV_CNT0_RAW_KIB | PHV_CNT1_PACK_KIB | PHV_CNT2_VFY_FAIL | PHV_CNT2_DEC_ERR | PHV_CNT3_CAP_EXC | PHV_CNT3_PREEMPT
  | PHV_ERRLOG_LAST_CODE | PHV_ERRLOG_ENGINE | PHV_ERRLOG_REPEAT | PHV_ERRCSA0_CSA_LO | PHV_ERRCSA1_CSA_HI
  | PHV_SHADOW_CFG
  -- formatter sequencer
  | SQ_CTRL_GO | SQ_CTRL_STOP | SQ_CTRL_RST | SQ_CTRL_DOORBELL | SQ_STAT_STATE | SQ_STAT_COMMITTED | SQ_STAT_HANDLER
  | SQ_STAT_CBUF | SQ_STAT_STKD | SQ_STAT_FCAUSE | SQ_STAT_FAULT | SQ_STAT_CFG_LOCKED | SQ_STAT_ABANDON | SQ_STAT_PC
  | SQ_ENTRY_EVEN | SQ_ENTRY_ODD | SQ_IVEC_IVEC | SQ_RESUME_ADDR | SQ_ESHADOW_ENTRY | SQ_LIVE_PAGES | SQ_OUT_VALUE
  | SQ_UFLAG_FLAGS | SQ_UCNT_COUNT | SQ_MBOX_CODE | SQ_MBOX_VALID | SQ_MBOXD_DATA | SQ_REQ_QUEUED | SQ_CNT_ABANDONS
  | SQ_CNT_DEFERRED
  -- Bureau cluster control
  | BURn_CTRL_RETIRE | BURn_CTRL_UNRETIRE | BURn_STAT_STATE | BURn_STAT_CAUSE_LAST | BURn_STAT_CORE_RET
  | BURn_STAT_WDOG | BURn_STAT_L2_OFF | BURn_STAT_CFG_LOCKED | BURn_WDOG_MS | BURn_CNT_WDOG_EXP | BURn_CNT_MIGRATE
  | BURn_LOAD_BUSY
  -- L2 cache
  | L2n_CTRL_EN | L2n_CTRL_PF_EN | L2n_CTRL_PF_DIST | L2n_STAT_ENABLED | L2n_STAT_WALK | L2n_STAT_MDONE
  | L2n_STAT_MERR | L2n_STAT_CFG_LOCKED | L2n_STAT_DIRTY | L2n_MAINT_OP | L2n_MAINT_BY | L2n_MAINT_GO | L2n_MAINT_SET
  | L2n_MAINT_WAY | L2n_MADDRLO_ADDR | L2n_MADDRHI_ADDR | L2n_MCOUNT_LINES | L2n_WALKT_NS | L2n_CNT0_HITS
  | L2n_CNT1_MISSES | L2n_CNT2_PF_USED | L2n_CNT2_PF_DROP | L2n_RAT_BASE_BASE | L2n_RAT_LIMIT_LIMIT | L2n_RAT_CTL_POL
  | L2n_RAT_CTL_VALID
  -- memory-integrity counters
  | MI_OVF0_OVF | MI_OVF1_OVF | MI_DIAG_ALO_ADDR | MI_DIAG_AHI_ADDR | MI_DIAG_DLO_DATA | MI_DIAG_DHI_DATA
  | MI_DIAG_CHK_CHK | MI_DIAG_CMD_RAWRD | MI_DIAG_CMD_RAWWR | MI_DIAG_CMD_DONE | MI_DIAG_CMD_CFG_LOCKED
  | MI_WLOST_RANGES | MI_WLOST_MERGED | MI_I_CFG_DEPTH | MI_I_CFG_LEAK | MI_I_CFG_INIT_MODE | MI_I_CFG_FILL
  | MI_I_STAT_LEVEL | MI_I_STAT_OVF | MI_I_STAT_UE | MI_I_STAT_POISON | MI_I_STAT_FILL_BUSY | MI_I_CE_COUNT
  | MI_I_UE_UE | MI_I_UE_POISONED | MI_I_ALO_ADDR | MI_I_AHI_ADDR | MI_I_AHI_SYND | MI_I_AHI_KIND
  -- SCB memory scrub
  | SCB_MS_CTRL_EN | SCB_MS_CFG_SRAM_S | SCB_MS_CFG_DDR_H | SCB_MS_CFG_CHEST_H | SCB_MS_CNT0_FIXED
  | SCB_MS_CNT0_POISONED | SCB_MS_CNT1_SRAM_PASS | SCB_MS_CNT1_DDR_PASS
  -- power-domain control
  | PWR_CTRL_AUTOSPIN | PWR_CTRL_AUTODORM | PWR_CTRL_SPIN_ON_IO | PWR_STAT_MODE | PWR_STAT_SUB | PWR_STAT_DEGR
  | PWR_STAT_CFG_LOCKED | PWR_STAT_REFUSED | PWR_STAT_RET_INCOMPLETE | PWR_TIME_DORM_S | PWR_TIME_IDLE_MS
  | PWR_STRLOST_LOST | PWR_STRLOST_CLR | PWR_RETCFG_RET_GAP | PWR_RETCFG_VM_HARV | PWR_RETCFG_VM_RETMIN
  | PWR_RETCFG_INRUSH | PWR_RETLOG_BEGUN | PWR_RETLOG_PARKED | PWR_RETLOG_LAST_MS | PWR_RETLOG_VM_MIN | PWR_DOMREQ_ON
  | PWR_DOMSTAT_ON | PWR_DOMERR_DOM
  -- Sideboard
  | SB_CFG0_UV12 | SB_CFG0_UV5 | SB_CFG0_UV_DEB | SB_CFG1_SHK_TH | SB_CFG1_SHK_EN0 | SB_CFG1_SHK_EN1
  | SB_CFG1_SHK_HOLD | SB_WAKE_EN | SB_WAKE_TW_TH | SB_STAT_V12_OK | SB_STAT_V5_OK | SB_STAT_PWRLOSS | SB_STAT_SHOCK
  | SB_STAT_WSRC | SB_STAT_CAPO_ACT | SB_RTC_SEC | SB_ALARM_SEC | SB_CNT_PWRLOSS | SB_CNT_SHOCK
  -- CAL and shared Pegs
  | CAL_CTRL_ABORT | CAL_STAT_BUSY | CAL_STAT_SCRIPT | CAL_STAT_STRING | CAL_STAT_REXT_BAD | CAL_STAT_CFG_LOCKED
  | CAL_STAT_DONE | CAL_STAT_RESULT | CAL_TD_TD_STEP | CAL_TD_TD_FLAT | CAL_TD_TD_PES | CAL_BO_BO_RD
  | CAL_BO_BO_WIDLE | CAL_BO_BO_WR | CAL_SCH_SCRIPT | CAL_SCH_PERIOD | CAL_SCH_TDELTA | CAL_SCH_EN | CAL_PEG_T_TARGET
  | CAL_PEG_V_VALUE
  -- thermal sensors
  | THR_CTRL_L_MIN | THR_STAT_TJ | THR_STAT_LEVEL | THR_STAT_WARN | THR_STAT_THROT | THR_STAT_SHUT
  | THR_STAT_CFG_LOCKED | THR_STAT_SNS_BAD | THR_HEAD_HT_LIM_A | THR_HEAD_HT_LIM_B | THR_HEAD_HT_LIM_C
  | THR_HEAD_HT_LIM_D | THR_SNS_T | THR_CNT_STEPS | THR_CNT_SHUTDOWNS
  -- identity, fuses and life cycle
  | LC_STAT_STATE | LC_STAT_RETCNT | LC_STAT_REFIELD | LC_STAT_CHAL_LIVE | LC_STAT_DENIED | LC_STAT_PEND
  | LC_VAR_VARIANT | LC_VAR_STEPPING | LC_PCIID_VID | LC_PCIID_SSVID | LC_DEVID_ID | LC_FWSVN_SVN | LC_BOOT_SLOT
  | LC_BOOT_FALLBACK | LC_BOOT_RECOVERY | LC_KEYH_HASH
  -- Bench debug access
  | BNCH_STAT_SESSION | BNCH_STAT_DENIED | BNCH_STAT_BSCAN_BLK | BNCH_STAT_KEYRD | BNCH_STAT_MATCH | BNCH_STAT_SKIPX
  | BNCH_STAT_HALTED | BNCH_CFG_IDLE_MIN | BNCH_CNT_OPENS | BNCH_CNT_REFUSED
  -- Pegs of a String
  | PEGx_T_TARGET | PEGx_V_VALUE
deriving DecidableEq, Repr

/-- A row of a register map. `off` is the byte offset in the block, `n` the number of copies, `stride` the bytes
between them; the field lies at bits `lo + width - 1 … lo`. -/
structure RegRow where
  reg : Reg
  blk : Blk
  off : Nat
  n : Nat
  stride : Nat
  lo : Nat
  width : Nat
  access : Access
  cls : Cls
  reset : Nat
deriving DecidableEq, Repr

/-- The row of a register field: its place in its block, its bits, its access type and class, its reset value. -/
def Reg.row : Reg → RegRow
  -- Fabric control and error capture (R39)
  | .FAB_ERR_STAT_ERR => ⟨.FAB_ERR_STAT_ERR, .fabric, 0x0, 1, 4, 0, 1, .w1c, .l, 0⟩
  | .FAB_ERR_STAT_OVF => ⟨.FAB_ERR_STAT_OVF, .fabric, 0x0, 1, 4, 1, 1, .w1c, .l, 0⟩
  | .FAB_ERR_STAT_KIND => ⟨.FAB_ERR_STAT_KIND, .fabric, 0x0, 1, 4, 2, 2, .ro, .ro, 0⟩
  | .FAB_ERR_ADDR_ADDR_LO => ⟨.FAB_ERR_ADDR_ADDR_LO, .fabric, 0x4, 1, 4, 0, 32, .ro, .ro, 0⟩
  | .FAB_ERR_SRC_ADDR_HI => ⟨.FAB_ERR_SRC_ADDR_HI, .fabric, 0x8, 1, 4, 0, 16, .ro, .ro, 0⟩
  | .FAB_ERR_SRC_REQ => ⟨.FAB_ERR_SRC_REQ, .fabric, 0x8, 1, 4, 16, 7, .ro, .ro, 0⟩
  | .FAB_ERR_SRC_WR => ⟨.FAB_ERR_SRC_WR, .fabric, 0x8, 1, 4, 23, 1, .ro, .ro, 0⟩
  -- Fret timing (R55)
  | .FRET_CTRL_REMEAS => ⟨.FRET_CTRL_REMEAS, .fret, 0x0, 1, 4, 0, 4, .wo, .l, 0⟩
  | .FRET_CTRL_DRIFT_TOL => ⟨.FRET_CTRL_DRIFT_TOL, .fret, 0x0, 1, 4, 8, 16, .rw, .l, 0x100⟩
  | .FRET_STAT_VALID => ⟨.FRET_STAT_VALID, .fret, 0x4, 1, 4, 0, 4, .ro, .ro, 0⟩
  | .FRET_STAT_DRIFT => ⟨.FRET_STAT_DRIFT, .fret, 0x4, 1, 4, 4, 4, .w1c, .l, 0⟩
  | .FRET_STAT_REF => ⟨.FRET_STAT_REF, .fret, 0x4, 1, 4, 8, 2, .ro, .ro, 0⟩
  | .FRET_STAT_NOREF => ⟨.FRET_STAT_NOREF, .fret, 0x4, 1, 4, 10, 1, .ro, .ro, 1⟩
  | .FRET_PERIOD_PS => ⟨.FRET_PERIOD_PS, .fret, 0x8, 1, 4, 0, 32, .ro, .ro, 0⟩
  | .FRET_SKEW_FRAC => ⟨.FRET_SKEW_FRAC, .fret, 0x10, 4, 4, 0, 16, .ro, .ro, 0⟩
  | .FRET_SKEW_WEDGE => ⟨.FRET_SKEW_WEDGE, .fret, 0x10, 4, 4, 16, 9, .ro, .ro, 0⟩
  | .FRET_SKEWNS_NS => ⟨.FRET_SKEWNS_NS, .fret, 0x20, 4, 4, 0, 16, .ro, .ro, 0⟩
  -- Capo unit (R65)
  | .CAPO_CTRL_ARM => ⟨.CAPO_CTRL_ARM, .capo, 0x0, 1, 4, 0, 1, .wo, .l, 0⟩
  | .CAPO_CTRL_DISARM => ⟨.CAPO_CTRL_DISARM, .capo, 0x0, 1, 4, 1, 1, .wo, .l, 0⟩
  | .CAPO_CTRL_SRC => ⟨.CAPO_CTRL_SRC, .capo, 0x0, 1, 4, 2, 2, .rw, .k, 0⟩
  | .CAPO_CTRL_EDGE => ⟨.CAPO_CTRL_EDGE, .capo, 0x0, 1, 4, 4, 1, .rw, .k, 0⟩
  | .CAPO_RATIO_M1 => ⟨.CAPO_RATIO_M1, .capo, 0x4, 1, 4, 0, 12, .rw, .s, 0⟩
  | .CAPO_RATIO_N1 => ⟨.CAPO_RATIO_N1, .capo, 0x4, 1, 4, 16, 12, .rw, .s, 0⟩
  | .CAPO_FRAME_FDIV1 => ⟨.CAPO_FRAME_FDIV1, .capo, 0x8, 1, 4, 0, 16, .rw, .k, 0⟩
  | .CAPO_AIN_CFG_THRESH => ⟨.CAPO_AIN_CFG_THRESH, .capo, 0xc, 1, 4, 0, 6, .rw, .l, 0x20⟩
  | .CAPO_AIN_CFG_HYST => ⟨.CAPO_AIN_CFG_HYST, .capo, 0xc, 1, 4, 6, 2, .rw, .l, 1⟩
  | .CAPO_HOLD_MS => ⟨.CAPO_HOLD_MS, .capo, 0x10, 1, 4, 0, 16, .rw, .l, 0x3e8⟩
  | .CAPO_STAT_STATE => ⟨.CAPO_STAT_STATE, .capo, 0x20, 1, 4, 0, 3, .ro, .ro, 0⟩
  | .CAPO_STAT_SLEW => ⟨.CAPO_STAT_SLEW, .capo, 0x20, 1, 4, 3, 1, .ro, .ro, 0⟩
  | .CAPO_STAT_WINH => ⟨.CAPO_STAT_WINH, .capo, 0x20, 1, 4, 4, 1, .ro, .ro, 0⟩
  | .CAPO_STAT_LOSS => ⟨.CAPO_STAT_LOSS, .capo, 0x20, 1, 4, 8, 1, .w1c, .l, 0⟩
  | .CAPO_STAT_RANGE => ⟨.CAPO_STAT_RANGE, .capo, 0x20, 1, 4, 9, 1, .w1c, .l, 0⟩
  | .CAPO_STAT_GLITCH => ⟨.CAPO_STAT_GLITCH, .capo, 0x20, 1, 4, 10, 1, .w1c, .l, 0⟩
  | .CAPO_STAT_CFG_LOCKED => ⟨.CAPO_STAT_CFG_LOCKED, .capo, 0x20, 1, 4, 11, 1, .w1c, .l, 0⟩
  | .CAPO_STAT_SPE_FAULT => ⟨.CAPO_STAT_SPE_FAULT, .capo, 0x20, 1, 4, 12, 1, .w1c, .l, 0⟩
  | .CAPO_STAT_RATIO_REJ => ⟨.CAPO_STAT_RATIO_REJ, .capo, 0x20, 1, 4, 13, 1, .w1c, .l, 0⟩
  | .CAPO_REF_PERIOD => ⟨.CAPO_REF_PERIOD, .capo, 0x24, 1, 4, 0, 32, .ro, .ro, 0⟩
  | .CAPO_TARGET_UHZ => ⟨.CAPO_TARGET_UHZ, .capo, 0x28, 1, 4, 0, 32, .ro, .ro, 0⟩
  | .CAPO_SETPT_UHZ => ⟨.CAPO_SETPT_UHZ, .capo, 0x2c, 1, 4, 0, 32, .ro, .ro, 0⟩
  | .CAPO_PHASE_ERR => ⟨.CAPO_PHASE_ERR, .capo, 0x30, 1, 4, 0, 16, .ro, .ro, 0⟩
  | .CAPO_PHASE_WEDGE => ⟨.CAPO_PHASE_WEDGE, .capo, 0x30, 1, 4, 16, 9, .ro, .ro, 0⟩
  | .CAPO_FRAMECNT_COUNT => ⟨.CAPO_FRAMECNT_COUNT, .capo, 0x34, 1, 4, 0, 32, .ro, .ro, 0⟩
  | .CAPO_GLITCHCNT_COUNT => ⟨.CAPO_GLITCHCNT_COUNT, .capo, 0x38, 1, 4, 0, 16, .ro, .ro, 0⟩
  | .CAPO_SHADOW_RATIO => ⟨.CAPO_SHADOW_RATIO, .capo, 0x3c, 1, 4, 0, 32, .ro, .ro, 0⟩
  -- SPE (R88)
  | .SPE_CTRL_START => ⟨.SPE_CTRL_START, .spe, 0x0, 1, 4, 0, 1, .wo, .l, 0⟩
  | .SPE_CTRL_STOP => ⟨.SPE_CTRL_STOP, .spe, 0x0, 1, 4, 1, 1, .wo, .l, 0⟩
  | .SPE_CTRL_STOPMODE => ⟨.SPE_CTRL_STOPMODE, .spe, 0x0, 1, 4, 2, 1, .rw, .l, 0⟩
  | .SPE_CTRL_CATCH_EN => ⟨.SPE_CTRL_CATCH_EN, .spe, 0x0, 1, 4, 3, 1, .rw, .k, 1⟩
  | .SPE_CTRL_BRK_RES => ⟨.SPE_CTRL_BRK_RES, .spe, 0x0, 1, 4, 4, 1, .rw, .k, 0⟩
  | .SPE_SETPT_RPM => ⟨.SPE_SETPT_RPM, .spe, 0x4, 1, 4, 0, 16, .rw, .s, 0xe100⟩
  | .SPE_RAMP_ACC => ⟨.SPE_RAMP_ACC, .spe, 0x8, 1, 4, 0, 10, .rw, .l, 0x12c⟩
  | .SPE_RAMP_SPD_TOL => ⟨.SPE_RAMP_SPD_TOL, .spe, 0x8, 1, 4, 10, 10, .rw, .l, 8⟩
  | .SPE_ILIM_RUN_ILIM => ⟨.SPE_ILIM_RUN_ILIM, .spe, 0xc, 1, 4, 0, 8, .rw, .s, 0x96⟩
  | .SPE_ILIM_BRK_ILIM => ⟨.SPE_ILIM_BRK_ILIM, .spe, 0xc, 1, 4, 8, 8, .rw, .k, 0x64⟩
  | .SPE_ILIM_ALIGN_I => ⟨.SPE_ILIM_ALIGN_I, .spe, 0xc, 1, 4, 16, 8, .rw, .k, 0x4b⟩
  | .SPE_ILIM_START_I => ⟨.SPE_ILIM_START_I, .spe, 0xc, 1, 4, 24, 8, .rw, .k, 0x4b⟩
  | .SPE_START_ALIGN_MS => ⟨.SPE_START_ALIGN_MS, .spe, 0x10, 1, 4, 0, 10, .rw, .k, 0xc8⟩
  | .SPE_START_HANDOVER => ⟨.SPE_START_HANDOVER, .spe, 0x10, 1, 4, 10, 10, .rw, .k, 0x12c⟩
  | .SPE_START_OL_ACC => ⟨.SPE_START_OL_ACC, .spe, 0x10, 1, 4, 20, 10, .rw, .k, 0x64⟩
  | .SPE_MOTOR_POLEPAIRS => ⟨.SPE_MOTOR_POLEPAIRS, .spe, 0x14, 1, 4, 0, 4, .rw, .k, 4⟩
  | .SPE_MOTOR_KE_NOM => ⟨.SPE_MOTOR_KE_NOM, .spe, 0x14, 1, 4, 4, 16, .rw, .k, 0x320⟩
  | .SPE_MOTOR_RPH => ⟨.SPE_MOTOR_RPH, .spe, 0x14, 1, 4, 20, 8, .rw, .k, 0x3c⟩
  | .SPE_PWM_DEADTIME => ⟨.SPE_PWM_DEADTIME, .spe, 0x18, 1, 4, 0, 8, .rw, .k, 0x50⟩
  | .SPE_PWM_SMP_MINW => ⟨.SPE_PWM_SMP_MINW, .spe, 0x18, 1, 4, 8, 8, .rw, .k, 0x78⟩
  | .SPE_PWM_FLY_PCT => ⟨.SPE_PWM_FLY_PCT, .spe, 0x18, 1, 4, 16, 8, .rw, .l, 0x50⟩
  | .SPE_FW_IDFW_MAX => ⟨.SPE_FW_IDFW_MAX, .spe, 0x1c, 1, 4, 0, 8, .rw, .k, 0x4b⟩
  | .SPE_FW_VMARGIN => ⟨.SPE_FW_VMARGIN, .spe, 0x1c, 1, 4, 8, 4, .rw, .k, 5⟩
  | .SPE_BUS_VM_OV => ⟨.SPE_BUS_VM_OV, .spe, 0x20, 1, 4, 0, 8, .rw, .l, 0x87⟩
  | .SPE_BUS_BRK_PMAX => ⟨.SPE_BUS_BRK_PMAX, .spe, 0x20, 1, 4, 8, 8, .rw, .k, 0⟩
  | .SPE_OC_OC_LIM => ⟨.SPE_OC_OC_LIM, .spe, 0x24, 1, 4, 0, 8, .rw, .k, 0x64⟩
  | .SPE_STAT_STATE => ⟨.SPE_STAT_STATE, .spe, 0x40, 1, 4, 0, 4, .ro, .ro, 0⟩
  | .SPE_STAT_ATSPD => ⟨.SPE_STAT_ATSPD, .spe, 0x40, 1, 4, 4, 1, .ro, .ro, 0⟩
  | .SPE_STAT_DIR => ⟨.SPE_STAT_DIR, .spe, 0x40, 1, 4, 5, 1, .ro, .ro, 0⟩
  | .SPE_STAT_WINH => ⟨.SPE_STAT_WINH, .spe, 0x40, 1, 4, 6, 1, .ro, .ro, 0⟩
  | .SPE_STAT_TICKPRED => ⟨.SPE_STAT_TICKPRED, .spe, 0x40, 1, 4, 7, 1, .ro, .ro, 0⟩
  | .SPE_STAT_KE_MISMATCH => ⟨.SPE_STAT_KE_MISMATCH, .spe, 0x40, 1, 4, 8, 1, .rws, .l, 0⟩
  | .SPE_STAT_OBS_LOSS => ⟨.SPE_STAT_OBS_LOSS, .spe, 0x40, 1, 4, 9, 1, .rws, .l, 0⟩
  | .SPE_STAT_REACQ_OK => ⟨.SPE_STAT_REACQ_OK, .spe, 0x40, 1, 4, 10, 1, .w1c, .l, 0⟩
  | .SPE_STAT_OC_TRIP => ⟨.SPE_STAT_OC_TRIP, .spe, 0x40, 1, 4, 11, 1, .w1c, .l, 0⟩
  | .SPE_STAT_START_FAIL => ⟨.SPE_STAT_START_FAIL, .spe, 0x40, 1, 4, 12, 1, .rws, .l, 0⟩
  | .SPE_STAT_REGEN_CLAMP => ⟨.SPE_STAT_REGEN_CLAMP, .spe, 0x40, 1, 4, 13, 1, .w1c, .l, 0⟩
  | .SPE_STAT_SKIP_LIM => ⟨.SPE_STAT_SKIP_LIM, .spe, 0x40, 1, 4, 14, 1, .ro, .ro, 0⟩
  | .SPE_STAT_CFG_LOCKED => ⟨.SPE_STAT_CFG_LOCKED, .spe, 0x40, 1, 4, 15, 1, .w1c, .l, 0⟩
  | .SPE_STAT_SETPT_RANGE => ⟨.SPE_STAT_SETPT_RANGE, .spe, 0x40, 1, 4, 16, 1, .w1c, .l, 0⟩
  | .SPE_SPEED_MRPM => ⟨.SPE_SPEED_MRPM, .spe, 0x44, 1, 4, 0, 32, .ro, .ro, 0⟩
  | .SPE_KE_KE => ⟨.SPE_KE_KE, .spe, 0x48, 1, 4, 0, 16, .ro, .ro, 0⟩
  | .SPE_KE_VALID => ⟨.SPE_KE_VALID, .spe, 0x48, 1, 4, 16, 1, .ro, .ro, 0⟩
  | .SPE_SKIPCNT_COUNT => ⟨.SPE_SKIPCNT_COUNT, .spe, 0x4c, 1, 4, 0, 32, .ro, .ro, 0⟩
  | .SPE_SHADOW_SETPT => ⟨.SPE_SHADOW_SETPT, .spe, 0x50, 1, 4, 0, 16, .ro, .ro, 0⟩
  | .SPE_SHADOW_RUN_ILIM => ⟨.SPE_SHADOW_RUN_ILIM, .spe, 0x50, 1, 4, 16, 8, .ro, .ro, 0⟩
  | .SPE_TICK_PERIOD => ⟨.SPE_TICK_PERIOD, .spe, 0x54, 1, 4, 0, 32, .ro, .ro, 0⟩
  | .SPE_COEF_COEF => ⟨.SPE_COEF_COEF, .spe, 0x1000, 1024, 4, 0, 32, .rw, .k, 0⟩
  -- String control engine (R111)
  | .SCEx_CTRL_LOAD => ⟨.SCEx_CTRL_LOAD, .sce, 0x0, 1, 4, 0, 1, .wo, .l, 0⟩
  | .SCEx_CTRL_UNLOAD => ⟨.SCEx_CTRL_UNLOAD, .sce, 0x0, 1, 4, 1, 1, .wo, .l, 0⟩
  | .SCEx_CTRL_RETRACT => ⟨.SCEx_CTRL_RETRACT, .sce, 0x0, 1, 4, 2, 1, .wo, .l, 0⟩
  | .SCEx_CTRL_BANK_SW => ⟨.SCEx_CTRL_BANK_SW, .sce, 0x0, 1, 4, 3, 1, .wo, .l, 0⟩
  | .SCEx_CTRL_OPT_EN => ⟨.SCEx_CTRL_OPT_EN, .sce, 0x0, 1, 4, 4, 1, .rw, .s, 0⟩
  | .SCEx_CTRL_CPL_ROUTE => ⟨.SCEx_CTRL_CPL_ROUTE, .sce, 0x0, 1, 4, 5, 2, .rw, .s, 1⟩
  | .SCEx_STAT_STATE => ⟨.SCEx_STAT_STATE, .sce, 0x4, 1, 4, 0, 4, .ro, .ro, 0⟩
  | .SCEx_STAT_PVALID => ⟨.SCEx_STAT_PVALID, .sce, 0x4, 1, 4, 4, 1, .ro, .ro, 0⟩
  | .SCEx_STAT_WINH => ⟨.SCEx_STAT_WINH, .sce, 0x4, 1, 4, 5, 1, .ro, .ro, 1⟩
  | .SCEx_STAT_ACTBANK => ⟨.SCEx_STAT_ACTBANK, .sce, 0x4, 1, 4, 6, 1, .ro, .ro, 0⟩
  | .SCEx_STAT_FALLBACK => ⟨.SCEx_STAT_FALLBACK, .sce, 0x4, 1, 4, 7, 1, .ro, .ro, 0⟩
  | .SCEx_STAT_LOOP_OPEN => ⟨.SCEx_STAT_LOOP_OPEN, .sce, 0x4, 1, 4, 8, 1, .ro, .ro, 1⟩
  | .SCEx_STAT_LOSTCNT => ⟨.SCEx_STAT_LOSTCNT, .sce, 0x4, 1, 4, 9, 3, .ro, .ro, 0⟩
  | .SCEx_STAT_OVRCNT => ⟨.SCEx_STAT_OVRCNT, .sce, 0x4, 1, 4, 12, 2, .ro, .ro, 0⟩
  | .SCEx_STAT_OVR => ⟨.SCEx_STAT_OVR, .sce, 0x4, 1, 4, 14, 1, .rws, .l, 0⟩
  | .SCEx_STAT_SAT_VCM => ⟨.SCEx_STAT_SAT_VCM, .sce, 0x4, 1, 4, 15, 1, .rws, .l, 0⟩
  | .SCEx_STAT_SAT_MA => ⟨.SCEx_STAT_SAT_MA, .sce, 0x4, 1, 4, 16, 1, .rws, .l, 0⟩
  | .SCEx_STAT_SAT_INT => ⟨.SCEx_STAT_SAT_INT, .sce, 0x4, 1, 4, 17, 1, .rws, .l, 0⟩
  | .SCEx_STAT_PLAUS => ⟨.SCEx_STAT_PLAUS, .sce, 0x4, 1, 4, 18, 1, .w1c, .l, 0⟩
  | .SCEx_STAT_RETRACTED => ⟨.SCEx_STAT_RETRACTED, .sce, 0x4, 1, 4, 19, 1, .rws, .l, 0⟩
  | .SCEx_STAT_FB_PEND => ⟨.SCEx_STAT_FB_PEND, .sce, 0x4, 1, 4, 20, 1, .ro, .ro, 0⟩
  | .SCEx_STAT_CFG_LOCKED => ⟨.SCEx_STAT_CFG_LOCKED, .sce, 0x4, 1, 4, 21, 1, .w1c, .l, 0⟩
  | .SCEx_STAT_SEEK_TO => ⟨.SCEx_STAT_SEEK_TO, .sce, 0x4, 1, 4, 22, 1, .w1c, .l, 0⟩
  | .SCEx_STAT_LOAD_FAIL => ⟨.SCEx_STAT_LOAD_FAIL, .sce, 0x4, 1, 4, 23, 1, .rws, .l, 0⟩
  | .SCEx_STAT_CPL_STALE => ⟨.SCEx_STAT_CPL_STALE, .sce, 0x4, 1, 4, 24, 4, .w1c, .l, 0⟩
  | .SCEx_STAT_FAULT => ⟨.SCEx_STAT_FAULT, .sce, 0x4, 1, 4, 28, 1, .rws, .l, 0⟩
  | .SCEx_STAT_TGT_ERR => ⟨.SCEx_STAT_TGT_ERR, .sce, 0x4, 1, 4, 29, 1, .w1c, .l, 0⟩
  | .SCEx_TARGET_TRACK => ⟨.SCEx_TARGET_TRACK, .sce, 0x8, 1, 4, 0, 24, .rw, .s, 0⟩
  | .SCEx_TARGET_HEAD => ⟨.SCEx_TARGET_HEAD, .sce, 0x8, 1, 4, 24, 3, .rw, .s, 0⟩
  | .SCEx_TOFFS_OFFS => ⟨.SCEx_TOFFS_OFFS, .sce, 0xc, 1, 4, 0, 16, .rw, .s, 0⟩
  | .SCEx_THRESH_WF_TH => ⟨.SCEx_THRESH_WF_TH, .sce, 0x10, 1, 4, 0, 8, .rw, .l, 0x26⟩
  | .SCEx_THRESH_RD_TH => ⟨.SCEx_THRESH_RD_TH, .sce, 0x10, 1, 4, 8, 8, .rw, .l, 0x4d⟩
  | .SCEx_THRESH_PLAUS_TH => ⟨.SCEx_THRESH_PLAUS_TH, .sce, 0x10, 1, 4, 16, 8, .rw, .l, 0x10⟩
  | .SCEx_THRESH_SETTLE_N => ⟨.SCEx_THRESH_SETTLE_N, .sce, 0x10, 1, 4, 24, 4, .rw, .l, 4⟩
  | .SCEx_SEEK_V_MAX => ⟨.SCEx_SEEK_V_MAX, .sce, 0x14, 1, 4, 0, 12, .rw, .k, 0x9c4⟩
  | .SCEx_SEEK_A_MAX => ⟨.SCEx_SEEK_A_MAX, .sce, 0x14, 1, 4, 12, 12, .rw, .k, 0x6d6⟩
  | .SCEx_SEEK_J_MAX => ⟨.SCEx_SEEK_J_MAX, .sce, 0x14, 1, 4, 24, 8, .rw, .k, 0x5a⟩
  | .SCEx_ILIM_ISEEK_LIM => ⟨.SCEx_ILIM_ISEEK_LIM, .sce, 0x18, 1, 4, 0, 16, .rw, .l, 0x4e20⟩
  | .SCEx_ILIM_RET_ILIM => ⟨.SCEx_ILIM_RET_ILIM, .sce, 0x18, 1, 4, 16, 16, .rw, .k, 0x7d0⟩
  | .SCEx_RET_RET_VEL => ⟨.SCEx_RET_RET_VEL, .sce, 0x1c, 1, 4, 0, 8, .rw, .k, 0x14⟩
  | .SCEx_RET_RET_MS => ⟨.SCEx_RET_RET_MS, .sce, 0x1c, 1, 4, 8, 8, .rw, .k, 0x64⟩
  | .SCEx_RET_LOAD_MS => ⟨.SCEx_RET_LOAD_MS, .sce, 0x1c, 1, 4, 16, 8, .rw, .k, 0x64⟩
  | .SCEx_RET_SETTLE_MAX => ⟨.SCEx_RET_SETTLE_MAX, .sce, 0x1c, 1, 4, 24, 8, .rw, .k, 0x60⟩
  | .SCEx_VCM_KB => ⟨.SCEx_VCM_KB, .sce, 0x20, 1, 4, 0, 16, .rw, .k, 0x190⟩
  | .SCEx_VCM_RVCM => ⟨.SCEx_VCM_RVCM, .sce, 0x20, 1, 4, 16, 8, .rw, .k, 0x50⟩
  | .SCEx_VCM_MA_LIM => ⟨.SCEx_VCM_MA_LIM, .sce, 0x20, 1, 4, 24, 8, .rw, .k, 0x20⟩
  | .SCEx_PES_S0 => ⟨.SCEx_PES_S0, .sce, 0x40, 1, 4, 0, 32, .ro, .ro, 0⟩
  | .SCEx_VCMCMD_S30 => ⟨.SCEx_VCMCMD_S30, .sce, 0x44, 1, 4, 0, 32, .ro, .ro, 0⟩
  | .SCEx_MACMD_S31 => ⟨.SCEx_MACMD_S31, .sce, 0x48, 1, 4, 0, 32, .ro, .ro, 0⟩
  | .SCEx_CPLFF_S5 => ⟨.SCEx_CPLFF_S5, .sce, 0x4c, 1, 4, 0, 32, .ro, .ro, 0⟩
  | .SCEx_CYC_MAND => ⟨.SCEx_CYC_MAND, .sce, 0x50, 1, 4, 0, 11, .ro, .ro, 0⟩
  | .SCEx_CYC_PEAK => ⟨.SCEx_CYC_PEAK, .sce, 0x50, 1, 4, 11, 12, .ro, .ro, 0⟩
  | .SCEx_LOSTTOT_COUNT => ⟨.SCEx_LOSTTOT_COUNT, .sce, 0x54, 1, 4, 0, 32, .ro, .ro, 0⟩
  | .SCEx_PRSAM_TIME => ⟨.SCEx_PRSAM_TIME, .sce, 0x58, 1, 4, 0, 32, .ro, .ro, 0⟩
  | .SCEx_TGT_SHADOW_TRACK => ⟨.SCEx_TGT_SHADOW_TRACK, .sce, 0x5c, 1, 4, 0, 24, .ro, .ro, 0⟩
  | .SCEx_TGT_SHADOW_HEAD => ⟨.SCEx_TGT_SHADOW_HEAD, .sce, 0x5c, 1, 4, 24, 3, .ro, .ro, 0⟩
  | .SCEx_TGT_SHADOW_PEND => ⟨.SCEx_TGT_SHADOW_PEND, .sce, 0x5c, 1, 4, 27, 1, .ro, .ro, 0⟩
  | .SCEx_MISC_SHADOW_OFFS => ⟨.SCEx_MISC_SHADOW_OFFS, .sce, 0x60, 1, 4, 0, 16, .ro, .ro, 0⟩
  | .SCEx_MISC_SHADOW_OPT_EN => ⟨.SCEx_MISC_SHADOW_OPT_EN, .sce, 0x60, 1, 4, 16, 1, .ro, .ro, 0⟩
  | .SCEx_MISC_SHADOW_CPL_ROUTE => ⟨.SCEx_MISC_SHADOW_CPL_ROUTE, .sce, 0x60, 1, 4, 17, 2, .ro, .ro, 1⟩
  | .SCEx_HEADS_HEADS => ⟨.SCEx_HEADS_HEADS, .sce, 0x64, 1, 4, 0, 3, .rw, .k, 0⟩
  | .SCEx_BANK0_TABLE => ⟨.SCEx_BANK0_TABLE, .sce, 0x10000, 16384, 4, 0, 32, .rw, .lk, 0⟩
  | .SCEx_BANK1_TABLE => ⟨.SCEx_BANK1_TABLE, .sce, 0x20000, 16384, 4, 0, 32, .rw, .lk, 0⟩
  | .SCEx_FALLBACK_TABLE => ⟨.SCEx_FALLBACK_TABLE, .sce, 0x30000, 16384, 4, 0, 32, .rw, .k, 0⟩
  -- servo demodulator (R128)
  | .SVDx_CTRL_ACQ => ⟨.SVDx_CTRL_ACQ, .svd, 0x0, 1, 4, 0, 1, .wo, .l, 0⟩
  | .SVDx_CTRL_IDLE => ⟨.SVDx_CTRL_IDLE, .svd, 0x0, 1, 4, 1, 1, .wo, .l, 0⟩
  | .SVDx_CTRL_GRAY_SUB => ⟨.SVDx_CTRL_GRAY_SUB, .svd, 0x0, 1, 4, 2, 1, .rw, .s, 1⟩
  | .SVDx_CTRL_RRO_EN => ⟨.SVDx_CTRL_RRO_EN, .svd, 0x0, 1, 4, 3, 1, .rw, .s, 1⟩
  | .SVDx_FMT0_CELLS => ⟨.SVDx_FMT0_CELLS, .svd, 0x4, 1, 4, 0, 13, .rw, .k, 0xfa0⟩
  | .SVDx_FMT0_PRE_LEN => ⟨.SVDx_FMT0_PRE_LEN, .svd, 0x4, 1, 4, 13, 9, .rw, .k, 0xc0⟩
  | .SVDx_FMT0_SAM_LEN => ⟨.SVDx_FMT0_SAM_LEN, .svd, 0x4, 1, 4, 22, 5, .rw, .k, 0xc⟩
  | .SVDx_FMT1_SAM_PAT => ⟨.SVDx_FMT1_SAM_PAT, .svd, 0x8, 1, 4, 0, 16, .rw, .k, 0xb71⟩
  | .SVDx_FMT1_SAM_TOL => ⟨.SVDx_FMT1_SAM_TOL, .svd, 0x8, 1, 4, 16, 2, .rw, .k, 1⟩
  | .SVDx_FMT1_SAM_WIN => ⟨.SVDx_FMT1_SAM_WIN, .svd, 0x8, 1, 4, 18, 7, .rw, .k, 0x20⟩
  | .SVDx_FMT1_SAMW_TOL => ⟨.SVDx_FMT1_SAMW_TOL, .svd, 0x8, 1, 4, 25, 4, .rw, .k, 4⟩
  | .SVDx_FMT2_GRAY_OFF => ⟨.SVDx_FMT2_GRAY_OFF, .svd, 0xc, 1, 4, 0, 9, .rw, .k, 0⟩
  | .SVDx_FMT2_WNUM_OFF => ⟨.SVDx_FMT2_WNUM_OFF, .svd, 0xc, 1, 4, 9, 9, .rw, .k, 0x68⟩
  | .SVDx_FMT2_NB_OFF => ⟨.SVDx_FMT2_NB_OFF, .svd, 0xc, 1, 4, 18, 9, .rw, .k, 0x98⟩
  | .SVDx_FMT3_QB_OFF => ⟨.SVDx_FMT3_QB_OFF, .svd, 0x10, 1, 4, 0, 9, .rw, .k, 0xd8⟩
  | .SVDx_FMT3_RRO_OFF => ⟨.SVDx_FMT3_RRO_OFF, .svd, 0x10, 1, 4, 9, 9, .rw, .k, 0x120⟩
  | .SVDx_FMT3_BOUND => ⟨.SVDx_FMT3_BOUND, .svd, 0x10, 1, 4, 18, 9, .rw, .k, 0x158⟩
  | .SVDx_FMT4_TRK_BITS => ⟨.SVDx_FMT4_TRK_BITS, .svd, 0x14, 1, 4, 0, 5, .rw, .k, 0x18⟩
  | .SVDx_FMT4_CPB => ⟨.SVDx_FMT4_CPB, .svd, 0x14, 1, 4, 5, 3, .rw, .k, 4⟩
  | .SVDx_FMT4_BURST_LEN => ⟨.SVDx_FMT4_BURST_LEN, .svd, 0x14, 1, 4, 8, 7, .rw, .k, 0x40⟩
  | .SVDx_FMT4_BURST_PER => ⟨.SVDx_FMT4_BURST_PER, .svd, 0x14, 1, 4, 15, 4, .rw, .k, 4⟩
  | .SVDx_FMT4_BURST_MIN => ⟨.SVDx_FMT4_BURST_MIN, .svd, 0x14, 1, 4, 19, 8, .rw, .k, 0x40⟩
  | .SVDx_FMT5_SYNC_N => ⟨.SVDx_FMT5_SYNC_N, .svd, 0x18, 1, 4, 0, 4, .rw, .k, 3⟩
  | .SVDx_FMT5_SYNC_LOSS => ⟨.SVDx_FMT5_SYNC_LOSS, .svd, 0x18, 1, 4, 4, 4, .rw, .k, 8⟩
  | .SVDx_HRDR_SRV_RDR => ⟨.SVDx_HRDR_SRV_RDR, .svd, 0x40, 6, 8, 0, 2, .rw, .lk, 1⟩
  | .SVDx_HRDR_RDR_OFFS => ⟨.SVDx_HRDR_RDR_OFFS, .svd, 0x40, 6, 8, 16, 16, .rw, .lk, 0⟩
  | .SVDx_HSKEW_HSKEW => ⟨.SVDx_HSKEW_HSKEW, .svd, 0x44, 6, 8, 0, 16, .rw, .lk, 0⟩
  | .SVDx_STAT_SYNC_STATE => ⟨.SVDx_STAT_SYNC_STATE, .svd, 0x80, 1, 4, 0, 2, .ro, .ro, 0⟩
  | .SVDx_STAT_LAST_OK => ⟨.SVDx_STAT_LAST_OK, .svd, 0x80, 1, 4, 2, 1, .ro, .ro, 0⟩
  | .SVDx_STAT_CFG_LOCKED => ⟨.SVDx_STAT_CFG_LOCKED, .svd, 0x80, 1, 4, 3, 1, .w1c, .l, 0⟩
  | .SVDx_STAT_SLIP => ⟨.SVDx_STAT_SLIP, .svd, 0x80, 1, 4, 4, 1, .w1c, .l, 0⟩
  | .SVDx_STAT_SAM_DUP => ⟨.SVDx_STAT_SAM_DUP, .svd, 0x80, 1, 4, 5, 1, .w1c, .l, 0⟩
  | .SVDx_STAT_GRAY_SUBD => ⟨.SVDx_STAT_GRAY_SUBD, .svd, 0x80, 1, 4, 6, 1, .w1c, .l, 0⟩
  | .SVDx_STAT_RRO_BAD => ⟨.SVDx_STAT_RRO_BAD, .svd, 0x80, 1, 4, 7, 1, .w1c, .l, 0⟩
  | .SVDx_STAT_WNUM_FIX => ⟨.SVDx_STAT_WNUM_FIX, .svd, 0x80, 1, 4, 8, 1, .w1c, .l, 0⟩
  | .SVDx_STAT_SAM_OFF => ⟨.SVDx_STAT_SAM_OFF, .svd, 0x80, 1, 4, 9, 1, .w1c, .l, 0⟩
  | .SVDx_STAT_FMT_VALID => ⟨.SVDx_STAT_FMT_VALID, .svd, 0x80, 1, 4, 10, 1, .ro, .ro, 1⟩
  | .SVDx_STAT_LAST_CAUSE => ⟨.SVDx_STAT_LAST_CAUSE, .svd, 0x80, 1, 4, 11, 3, .ro, .ro, 0⟩
  | .SVDx_STAT_WEDGE => ⟨.SVDx_STAT_WEDGE, .svd, 0x80, 1, 4, 14, 9, .ro, .ro, 0⟩
  | .SVDx_TRK_T => ⟨.SVDx_TRK_T, .svd, 0x84, 1, 4, 0, 24, .ro, .ro, 0⟩
  | .SVDx_FRAC_F => ⟨.SVDx_FRAC_F, .svd, 0x88, 1, 4, 0, 16, .ro, .ro, 0⟩
  | .SVDx_NQ_N => ⟨.SVDx_NQ_N, .svd, 0x8c, 1, 4, 0, 16, .ro, .ro, 0⟩
  | .SVDx_NQ_Q => ⟨.SVDx_NQ_Q, .svd, 0x8c, 1, 4, 16, 16, .ro, .ro, 0⟩
  | .SVDx_RRO_VALUE => ⟨.SVDx_RRO_VALUE, .svd, 0x90, 1, 4, 0, 10, .ro, .ro, 0⟩
  | .SVDx_SAMDEV_DEV => ⟨.SVDx_SAMDEV_DEV, .svd, 0x94, 1, 4, 0, 16, .ro, .ro, 0⟩
  | .SVDx_CNT_MISSED => ⟨.SVDx_CNT_MISSED, .svd, 0x98, 1, 4, 0, 16, .ro, .ro, 0⟩
  | .SVDx_CNT_UNREAD => ⟨.SVDx_CNT_UNREAD, .svd, 0x98, 1, 4, 16, 16, .ro, .ro, 0⟩
  | .SVDx_SHADOW_GRAY_SUB => ⟨.SVDx_SHADOW_GRAY_SUB, .svd, 0x9c, 1, 4, 0, 1, .ro, .ro, 1⟩
  | .SVDx_SHADOW_RRO_EN => ⟨.SVDx_SHADOW_RRO_EN, .svd, 0x9c, 1, 4, 1, 1, .ro, .ro, 1⟩
  | .SVDx_PREAMP_A_PRE => ⟨.SVDx_PREAMP_A_PRE, .svd, 0xa0, 1, 4, 0, 16, .ro, .ro, 0⟩
  -- assist engine (R148)
  | .AEx_CTRL_WR_ARM => ⟨.AEx_CTRL_WR_ARM, .ae, 0x0, 1, 4, 0, 1, .rw, .s, 0⟩
  | .AEx_CTRL_ABORT_CLR => ⟨.AEx_CTRL_ABORT_CLR, .ae, 0x0, 1, 4, 1, 1, .wo, .l, 0⟩
  | .AEx_CTRL_CAL_EN => ⟨.AEx_CTRL_CAL_EN, .ae, 0x0, 1, 4, 2, 1, .rw, .s, 0⟩
  | .AEx_CTRL_FH_EN => ⟨.AEx_CTRL_FH_EN, .ae, 0x0, 1, 4, 3, 1, .rw, .s, 1⟩
  | .AEx_STAT_STATE => ⟨.AEx_STAT_STATE, .ae, 0x4, 1, 4, 0, 3, .ro, .ro, 0⟩
  | .AEx_STAT_HEAD => ⟨.AEx_STAT_HEAD, .ae, 0x4, 1, 4, 3, 3, .ro, .ro, 0⟩
  | .AEx_STAT_INH => ⟨.AEx_STAT_INH, .ae, 0x4, 1, 4, 6, 1, .ro, .ro, 1⟩
  | .AEx_STAT_LEDG_SOFT => ⟨.AEx_STAT_LEDG_SOFT, .ae, 0x4, 1, 4, 7, 1, .ro, .ro, 0⟩
  | .AEx_STAT_ASSIST_ABORT => ⟨.AEx_STAT_ASSIST_ABORT, .ae, 0x4, 1, 4, 8, 1, .rws, .l, 0⟩
  | .AEx_STAT_NUT_FAIL => ⟨.AEx_STAT_NUT_FAIL, .ae, 0x4, 1, 4, 9, 1, .rws, .l, 0⟩
  | .AEx_STAT_ARM_LAPSE => ⟨.AEx_STAT_ARM_LAPSE, .ae, 0x4, 1, 4, 10, 1, .w1c, .l, 0⟩
  | .AEx_STAT_CFG_LOCKED => ⟨.AEx_STAT_CFG_LOCKED, .ae, 0x4, 1, 4, 11, 1, .w1c, .l, 0⟩
  | .AEx_STAT_HTR_CLAMP => ⟨.AEx_STAT_HTR_CLAMP, .ae, 0x4, 1, 4, 12, 1, .w1c, .l, 0⟩
  | .AEx_STAT_LAS_CLAMP => ⟨.AEx_STAT_LAS_CLAMP, .ae, 0x4, 1, 4, 13, 1, .w1c, .l, 0⟩
  | .AEx_STAT_TD_HIT => ⟨.AEx_STAT_TD_HIT, .ae, 0x4, 1, 4, 14, 1, .w1c, .l, 0⟩
  | .AEx_CFG_TYPE => ⟨.AEx_CFG_TYPE, .ae, 0x8, 1, 4, 0, 2, .rw, .k, 0⟩
  | .AEx_CFG_WARM_FRETS => ⟨.AEx_CFG_WARM_FRETS, .ae, 0x8, 1, 4, 2, 8, .rw, .k, 0x40⟩
  | .AEx_CFG_ARM_HOLD => ⟨.AEx_CFG_ARM_HOLD, .ae, 0x8, 1, 4, 10, 10, .rw, .l, 0x1e0⟩
  | .AEx_CFG_LEAK_SH => ⟨.AEx_CFG_LEAK_SH, .ae, 0x8, 1, 4, 20, 4, .rw, .k, 6⟩
  | .AEx_CFG_FH_DIV => ⟨.AEx_CFG_FH_DIV, .ae, 0x8, 1, 4, 24, 4, .rw, .k, 8⟩
  | .AEx_ABORT_WEDGE => ⟨.AEx_ABORT_WEDGE, .ae, 0xc, 1, 4, 0, 9, .ro, .ro, 0⟩
  | .AEx_ABORT_HEAD => ⟨.AEx_ABORT_HEAD, .ae, 0xc, 1, 4, 9, 3, .ro, .ro, 0⟩
  | .AEx_ABORT_CAUSE => ⟨.AEx_ABORT_CAUSE, .ae, 0xc, 1, 4, 12, 1, .ro, .ro, 0⟩
  | .AEx_SHADOW_CTRL => ⟨.AEx_SHADOW_CTRL, .ae, 0x10, 1, 4, 0, 3, .ro, .ro, 4⟩
  | .AEx_CALHTR_HTR => ⟨.AEx_CALHTR_HTR, .ae, 0x14, 1, 4, 0, 10, .rw, .l, 0⟩
  | .AEx_H_LAS_LAS_WR => ⟨.AEx_H_LAS_LAS_WR, .ae, 0x40, 6, 32, 0, 12, .rw, .lk, 0⟩
  | .AEx_H_LAS_LAS_IDLE => ⟨.AEx_H_LAS_LAS_IDLE, .ae, 0x40, 6, 32, 12, 12, .rw, .lk, 0⟩
  | .AEx_H_LIM_LAS_MAX => ⟨.AEx_H_LIM_LAS_MAX, .ae, 0x44, 6, 32, 0, 12, .rw, .lk, 0⟩
  | .AEx_H_LIM_PW_LSB => ⟨.AEx_H_LIM_PW_LSB, .ae, 0x44, 6, 32, 12, 12, .rw, .lk, 0x24⟩
  | .AEx_H_LIM_TC_LAS => ⟨.AEx_H_LIM_TC_LAS, .ae, 0x44, 6, 32, 24, 8, .rw, .lk, 0⟩
  | .AEx_H_HTR_HTR_RD => ⟨.AEx_H_HTR_HTR_RD, .ae, 0x48, 6, 32, 0, 10, .rw, .lk, 0⟩
  | .AEx_H_HTR_HTR_WIDLE => ⟨.AEx_H_HTR_HTR_WIDLE, .ae, 0x48, 6, 32, 10, 10, .rw, .lk, 0⟩
  | .AEx_H_HTR_HTR_WR => ⟨.AEx_H_HTR_HTR_WR, .ae, 0x48, 6, 32, 20, 10, .rw, .lk, 0⟩
  | .AEx_H_HLIM_HTR_MAX => ⟨.AEx_H_HLIM_HTR_MAX, .ae, 0x4c, 6, 32, 0, 10, .rw, .lk, 0⟩
  | .AEx_H_HLIM_HTR_TC => ⟨.AEx_H_HLIM_HTR_TC, .ae, 0x4c, 6, 32, 10, 8, .rw, .lk, 0⟩
  | .AEx_H_HLIM_HTR_CMAX => ⟨.AEx_H_HLIM_HTR_CMAX, .ae, 0x4c, 6, 32, 18, 8, .rw, .lk, 0x32⟩
  | .AEx_H_HLIM_WC => ⟨.AEx_H_HLIM_WC, .ae, 0x4c, 6, 32, 26, 6, .rw, .lk, 0⟩
  | .AEx_H_ECS_ECS_REF => ⟨.AEx_H_ECS_ECS_REF, .ae, 0x50, 6, 32, 0, 16, .rw, .lk, 0⟩
  | .AEx_H_ECS_KI => ⟨.AEx_H_ECS_KI, .ae, 0x50, 6, 32, 16, 8, .rw, .lk, 0⟩
  | .AEx_H_ECS_ECS_TD => ⟨.AEx_H_ECS_ECS_TD, .ae, 0x50, 6, 32, 24, 8, .rw, .lk, 0xff⟩
  | .AEx_H_CAPS_LEDG_SOFT => ⟨.AEx_H_CAPS_LEDG_SOFT, .ae, 0x54, 6, 32, 0, 16, .rw, .lk, 0⟩
  | .AEx_H_CAPS_LEDG_HARD => ⟨.AEx_H_CAPS_LEDG_HARD, .ae, 0x54, 6, 32, 16, 16, .rw, .lk, 0⟩
  | .AEx_H_LEDGER_NJ => ⟨.AEx_H_LEDGER_NJ, .ae, 0x58, 6, 32, 0, 32, .ro, .ro, 0⟩
  | .AEx_H_HSTAT_TEMP => ⟨.AEx_H_HSTAT_TEMP, .ae, 0x5c, 6, 32, 0, 8, .ro, .ro, 0⟩
  | .AEx_H_HSTAT_HCORR => ⟨.AEx_H_HSTAT_HCORR, .ae, 0x5c, 6, 32, 8, 10, .ro, .ro, 0⟩
  -- Nut link (R150)
  | .NUTx_CTRL_EN => ⟨.NUTx_CTRL_EN, .nut, 0x0, 1, 4, 0, 1, .rw, .k, 0⟩
  | .NUTx_CTRL_BG_GO => ⟨.NUTx_CTRL_BG_GO, .nut, 0x0, 1, 4, 1, 1, .wo, .l, 0⟩
  | .NUTx_BGCMD_WR => ⟨.NUTx_BGCMD_WR, .nut, 0x4, 1, 4, 0, 1, .rw, .l, 0⟩
  | .NUTx_BGCMD_HEAD => ⟨.NUTx_BGCMD_HEAD, .nut, 0x4, 1, 4, 1, 3, .rw, .l, 0⟩
  | .NUTx_BGCMD_ADDR => ⟨.NUTx_BGCMD_ADDR, .nut, 0x4, 1, 4, 4, 8, .rw, .l, 0⟩
  | .NUTx_BGDATA_DATA => ⟨.NUTx_BGDATA_DATA, .nut, 0x8, 1, 4, 0, 32, .rw, .l, 0⟩
  | .NUTx_BGRESP_DATA => ⟨.NUTx_BGRESP_DATA, .nut, 0xc, 1, 4, 0, 32, .ro, .ro, 0⟩
  | .NUTx_STAT_BG_BUSY => ⟨.NUTx_STAT_BG_BUSY, .nut, 0x10, 1, 4, 0, 1, .ro, .ro, 0⟩
  | .NUTx_STAT_BG_DONE => ⟨.NUTx_STAT_BG_DONE, .nut, 0x10, 1, 4, 1, 1, .w1c, .l, 0⟩
  | .NUTx_STAT_BG_ERR => ⟨.NUTx_STAT_BG_ERR, .nut, 0x10, 1, 4, 2, 1, .w1c, .l, 0⟩
  | .NUTx_STAT_WDOG => ⟨.NUTx_STAT_WDOG, .nut, 0x10, 1, 4, 3, 1, .w1c, .l, 0⟩
  | .NUTx_STAT_WFLT => ⟨.NUTx_STAT_WFLT, .nut, 0x10, 1, 4, 4, 1, .w1c, .l, 0⟩
  | .NUTx_STAT_CFG_LOCKED => ⟨.NUTx_STAT_CFG_LOCKED, .nut, 0x10, 1, 4, 5, 1, .w1c, .l, 0⟩
  | .NUTx_CNT_CRC_ERR => ⟨.NUTx_CNT_CRC_ERR, .nut, 0x14, 1, 4, 0, 16, .ro, .ro, 0⟩
  | .NUTx_CNT_NACK => ⟨.NUTx_CNT_NACK, .nut, 0x14, 1, 4, 16, 16, .ro, .ro, 0⟩
  -- read channel (R176)
  | .RCHx_CTRL_AGC_EN => ⟨.RCHx_CTRL_AGC_EN, .rch, 0x0, 1, 4, 0, 1, .rw, .s, 1⟩
  | .RCHx_CTRL_TIM_EN => ⟨.RCHx_CTRL_TIM_EN, .rch, 0x0, 1, 4, 1, 1, .rw, .s, 1⟩
  | .RCHx_CTRL_FIR_EN => ⟨.RCHx_CTRL_FIR_EN, .rch, 0x0, 1, 4, 2, 1, .rw, .s, 1⟩
  | .RCHx_CTRL_NP_EN => ⟨.RCHx_CTRL_NP_EN, .rch, 0x0, 1, 4, 3, 1, .rw, .s, 1⟩
  | .RCHx_CTRL_DC_EN => ⟨.RCHx_CTRL_DC_EN, .rch, 0x0, 1, 4, 4, 1, .rw, .s, 1⟩
  | .RCHx_CTRL_SAVE => ⟨.RCHx_CTRL_SAVE, .rch, 0x0, 1, 4, 5, 1, .wo, .l, 0⟩
  | .RCHx_CTRL_RESTORE => ⟨.RCHx_CTRL_RESTORE, .rch, 0x0, 1, 4, 6, 1, .wo, .l, 0⟩
  | .RCHx_CTRL_PDMODE => ⟨.RCHx_CTRL_PDMODE, .rch, 0x0, 1, 4, 7, 1, .rw, .s, 0⟩
  | .RCHx_CTRL_GLB_MAX => ⟨.RCHx_CTRL_GLB_MAX, .rch, 0x0, 1, 4, 8, 3, .rw, .s, 4⟩
  | .RCHx_CTRL_LOC_MAX => ⟨.RCHx_CTRL_LOC_MAX, .rch, 0x0, 1, 4, 11, 4, .rw, .s, 0xc⟩
  | .RCHx_CTRL_SLOT_RSV => ⟨.RCHx_CTRL_SLOT_RSV, .rch, 0x0, 1, 4, 15, 3, .rw, .k, 1⟩
  | .RCHx_CTRL_CAPTURE => ⟨.RCHx_CTRL_CAPTURE, .rch, 0x0, 1, 4, 18, 1, .rw, .s, 0⟩
  | .RCHx_STAT_PLL_LOCK => ⟨.RCHx_STAT_PLL_LOCK, .rch, 0x4, 1, 4, 0, 1, .ro, .ro, 0⟩
  | .RCHx_STAT_EQ_DIV => ⟨.RCHx_STAT_EQ_DIV, .rch, 0x4, 1, 4, 1, 1, .rws, .l, 0⟩
  | .RCHx_STAT_RATE_HI => ⟨.RCHx_STAT_RATE_HI, .rch, 0x4, 1, 4, 2, 1, .w1c, .l, 0⟩
  | .RCHx_STAT_RDR_LOW => ⟨.RCHx_STAT_RDR_LOW, .rch, 0x4, 1, 4, 3, 3, .w1c, .l, 0⟩
  | .RCHx_STAT_SBUF_SLIP => ⟨.RCHx_STAT_SBUF_SLIP, .rch, 0x4, 1, 4, 6, 1, .w1c, .l, 0⟩
  | .RCHx_STAT_ITER_LIM => ⟨.RCHx_STAT_ITER_LIM, .rch, 0x4, 1, 4, 7, 1, .w1c, .l, 0⟩
  | .RCHx_STAT_CFG_LOCKED => ⟨.RCHx_STAT_CFG_LOCKED, .rch, 0x4, 1, 4, 8, 1, .w1c, .l, 0⟩
  | .RCHx_STAT_SET_INV => ⟨.RCHx_STAT_SET_INV, .rch, 0x4, 1, 4, 9, 1, .w1c, .l, 0⟩
  | .RCHx_STAT_CAP_BUSY => ⟨.RCHx_STAT_CAP_BUSY, .rch, 0x4, 1, 4, 10, 1, .ro, .ro, 0⟩
  | .RCHx_STAT_SET => ⟨.RCHx_STAT_SET, .rch, 0x4, 1, 4, 11, 7, .ro, .ro, 0⟩
  | .RCHx_STAT_SLOTS_FREE => ⟨.RCHx_STAT_SLOTS_FREE, .rch, 0x4, 1, 4, 18, 4, .ro, .ro, 0xa⟩
  | .RCHx_STAT_PENDQ => ⟨.RCHx_STAT_PENDQ, .rch, 0x4, 1, 4, 22, 4, .ro, .ro, 0⟩
  | .RCHx_ADAPT_AGC_MU_A => ⟨.RCHx_ADAPT_AGC_MU_A, .rch, 0x8, 1, 4, 0, 4, .rw, .l, 3⟩
  | .RCHx_ADAPT_AGC_MU_T => ⟨.RCHx_ADAPT_AGC_MU_T, .rch, 0x8, 1, 4, 4, 4, .rw, .l, 8⟩
  | .RCHx_ADAPT_TIM_KA => ⟨.RCHx_ADAPT_TIM_KA, .rch, 0x8, 1, 4, 8, 4, .rw, .l, 4⟩
  | .RCHx_ADAPT_TIM_KT => ⟨.RCHx_ADAPT_TIM_KT, .rch, 0x8, 1, 4, 12, 4, .rw, .l, 7⟩
  | .RCHx_ADAPT_FIR_MU => ⟨.RCHx_ADAPT_FIR_MU, .rch, 0x8, 1, 4, 16, 4, .rw, .l, 0xc⟩
  | .RCHx_ADAPT_NP_MU => ⟨.RCHx_ADAPT_NP_MU, .rch, 0x8, 1, 4, 20, 4, .rw, .l, 0xa⟩
  | .RCHx_DIV_MSE_DIV => ⟨.RCHx_DIV_MSE_DIV, .rch, 0xc, 1, 4, 0, 12, .rw, .l, 0x200⟩
  | .RCHx_DIV_DIV_N => ⟨.RCHx_DIV_DIV_N, .rch, 0xc, 1, 4, 12, 4, .rw, .l, 4⟩
  | .RCHx_PD_PD_TH => ⟨.RCHx_PD_PD_TH, .rch, 0x10, 1, 4, 0, 6, .rw, .l, 0x20⟩
  | .RCHx_PD_PD_ALT => ⟨.RCHx_PD_PD_ALT, .rch, 0x10, 1, 4, 6, 1, .rw, .l, 1⟩
  | .RCHx_RATE_BITRATE => ⟨.RCHx_RATE_BITRATE, .rch, 0x14, 1, 4, 0, 13, .ro, .ro, 0⟩
  | .RCHx_MSE_LAST => ⟨.RCHx_MSE_LAST, .rch, 0x18, 1, 4, 0, 12, .ro, .ro, 0⟩
  | .RCHx_SHADOW_CTRL => ⟨.RCHx_SHADOW_CTRL, .rch, 0x1c, 1, 4, 0, 19, .ro, .ro, 0x641f⟩
  | .RCHx_CNT0_SECTORS => ⟨.RCHx_CNT0_SECTORS, .rch, 0x20, 1, 4, 0, 32, .ro, .ro, 0⟩
  | .RCHx_CNT1_REDET => ⟨.RCHx_CNT1_REDET, .rch, 0x24, 1, 4, 0, 16, .ro, .ro, 0⟩
  | .RCHx_CNT1_ITER_LIM => ⟨.RCHx_CNT1_ITER_LIM, .rch, 0x24, 1, 4, 16, 16, .ro, .ro, 0⟩
  | .RCHx_CNT2_SBUF_SLIP => ⟨.RCHx_CNT2_SBUF_SLIP, .rch, 0x28, 1, 4, 0, 16, .ro, .ro, 0⟩
  | .RCHx_CNT2_PD_POL => ⟨.RCHx_CNT2_PD_POL, .rch, 0x28, 1, 4, 16, 16, .ro, .ro, 0⟩
  | .RCHx_AMP_A0 => ⟨.RCHx_AMP_A0, .rch, 0x30, 1, 4, 0, 8, .ro, .ro, 0⟩
  | .RCHx_AMP_A1 => ⟨.RCHx_AMP_A1, .rch, 0x30, 1, 4, 8, 8, .ro, .ro, 0⟩
  | .RCHx_AMP_A2 => ⟨.RCHx_AMP_A2, .rch, 0x30, 1, 4, 16, 8, .ro, .ro, 0⟩
  | .RCHx_GAIN_G0 => ⟨.RCHx_GAIN_G0, .rch, 0x34, 1, 4, 0, 8, .ro, .ro, 0⟩
  | .RCHx_GAIN_G1 => ⟨.RCHx_GAIN_G1, .rch, 0x34, 1, 4, 8, 8, .ro, .ro, 0⟩
  | .RCHx_GAIN_G2 => ⟨.RCHx_GAIN_G2, .rch, 0x34, 1, 4, 16, 8, .ro, .ro, 0⟩
  | .RCHx_SLOT_BUSY => ⟨.RCHx_SLOT_BUSY, .rch, 0x38, 1, 4, 0, 10, .ro, .ro, 0⟩
  | .RCHx_SRVGA_H0 => ⟨.RCHx_SRVGA_H0, .rch, 0x3c, 1, 4, 0, 8, .ro, .ro, 0x80⟩
  | .RCHx_SRVGA_H1 => ⟨.RCHx_SRVGA_H1, .rch, 0x3c, 1, 4, 8, 8, .ro, .ro, 0x80⟩
  | .RCHx_SRVGA_H2 => ⟨.RCHx_SRVGA_H2, .rch, 0x3c, 1, 4, 16, 8, .ro, .ro, 0x80⟩
  | .RCHx_SRVGA_H3 => ⟨.RCHx_SRVGA_H3, .rch, 0x3c, 1, 4, 24, 8, .ro, .ro, 0x80⟩
  | .RCHx_SRVGB_H4 => ⟨.RCHx_SRVGB_H4, .rch, 0x40, 1, 4, 0, 8, .ro, .ro, 0x80⟩
  | .RCHx_SRVGB_H5 => ⟨.RCHx_SRVGB_H5, .rch, 0x40, 1, 4, 8, 8, .ro, .ro, 0x80⟩
  | .RCHx_CAPCTL_CAP_GO => ⟨.RCHx_CAPCTL_CAP_GO, .rch, 0x48, 1, 4, 0, 1, .wo, .l, 0⟩
  | .RCHx_CAPCTL_CAP_MASK => ⟨.RCHx_CAPCTL_CAP_MASK, .rch, 0x48, 1, 4, 1, 3, .rw, .l, 7⟩
  | .RCHx_CAPCTL_CAP_LEN => ⟨.RCHx_CAPCTL_CAP_LEN, .rch, 0x48, 1, 4, 4, 10, .rw, .l, 0⟩
  | .RCHx_CAPRATE_CAP_RATE => ⟨.RCHx_CAPRATE_CAP_RATE, .rch, 0x4c, 1, 4, 0, 13, .rw, .l, 0x1c20⟩
  | .RCHx_FIR_TAP => ⟨.RCHx_FIR_TAP, .rch, 0x100, 36, 4, 0, 10, .ro, .ro, 0⟩
  | .RCHx_NP_NP => ⟨.RCHx_NP_NP, .rch, 0x200, 96, 4, 0, 32, .ro, .ro, 0⟩
  | .RCHx_SET_SET => ⟨.RCHx_SET_SET, .rch, 0x40000, 24576, 4, 0, 32, .rw, .lk, 0⟩
  -- Harp (R198)
  | .HARP_CTRL_SLIP_EN => ⟨.HARP_CTRL_SLIP_EN, .harp, 0x0, 1, 4, 0, 1, .rw, .s, 1⟩
  | .HARP_CTRL_SLIP_MAX => ⟨.HARP_CTRL_SLIP_MAX, .harp, 0x0, 1, 4, 1, 3, .rw, .s, 4⟩
  | .HARP_CTRL_SLIP_ORD => ⟨.HARP_CTRL_SLIP_ORD, .harp, 0x0, 1, 4, 4, 2, .rw, .s, 0⟩
  | .HARP_CTRL_SLIP_GLB => ⟨.HARP_CTRL_SLIP_GLB, .harp, 0x0, 1, 4, 6, 2, .rw, .s, 2⟩
  | .HARP_CTRL_RETIRE => ⟨.HARP_CTRL_RETIRE, .harp, 0x0, 1, 4, 8, 1, .wo, .l, 0⟩
  | .HARP_CTRL_UNRETIRE => ⟨.HARP_CTRL_UNRETIRE, .harp, 0x0, 1, 4, 9, 1, .wo, .l, 0⟩
  | .HARP_CTRL_RLANE => ⟨.HARP_CTRL_RLANE, .harp, 0x0, 1, 4, 10, 5, .rw, .l, 0⟩
  | .HARP_CTRL_BF_MAX => ⟨.HARP_CTRL_BF_MAX, .harp, 0x0, 1, 4, 15, 7, .rw, .s, 0x20⟩
  | .HARP_STAT_INSVC => ⟨.HARP_STAT_INSVC, .harp, 0x4, 1, 4, 0, 6, .ro, .ro, 0x20⟩
  | .HARP_STAT_AVAIL => ⟨.HARP_STAT_AVAIL, .harp, 0x4, 1, 4, 6, 6, .ro, .ro, 0x20⟩
  | .HARP_STAT_BELOW_FLOOR => ⟨.HARP_STAT_BELOW_FLOOR, .harp, 0x4, 1, 4, 12, 1, .ro, .ro, 0⟩
  | .HARP_STAT_LANE_RETIRED => ⟨.HARP_STAT_LANE_RETIRED, .harp, 0x4, 1, 4, 13, 1, .w1c, .l, 0⟩
  | .HARP_STAT_STRIKE => ⟨.HARP_STAT_STRIKE, .harp, 0x4, 1, 4, 14, 1, .w1c, .l, 0⟩
  | .HARP_STAT_CHK_FAULT => ⟨.HARP_STAT_CHK_FAULT, .harp, 0x4, 1, 4, 15, 1, .w1c, .l, 0⟩
  | .HARP_STAT_OVF => ⟨.HARP_STAT_OVF, .harp, 0x4, 1, 4, 16, 1, .w1c, .l, 0⟩
  | .HARP_STAT_CFG_LOCKED => ⟨.HARP_STAT_CFG_LOCKED, .harp, 0x4, 1, 4, 17, 1, .w1c, .l, 0⟩
  | .HARP_STAT_LBA_MISMATCH => ⟨.HARP_STAT_LBA_MISMATCH, .harp, 0x4, 1, 4, 18, 1, .w1c, .l, 0⟩
  | .HARP_STAT_CHK_RET => ⟨.HARP_STAT_CHK_RET, .harp, 0x4, 1, 4, 19, 8, .ro, .ro, 0⟩
  | .HARP_RETIRED_LANES => ⟨.HARP_RETIRED_LANES, .harp, 0x8, 1, 4, 0, 32, .ro, .ro, 0⟩
  | .HARP_WDRAWN_LANES => ⟨.HARP_WDRAWN_LANES, .harp, 0xc, 1, 4, 0, 32, .ro, .ro, 0⟩
  | .HARP_GATED_LANES => ⟨.HARP_GATED_LANES, .harp, 0x10, 1, 4, 0, 32, .ro, .ro, 0⟩
  | .HARP_STRIKE0_COUNT => ⟨.HARP_STRIKE0_COUNT, .harp, 0x20, 1, 4, 0, 32, .ro, .ro, 0⟩
  | .HARP_STRIKE1_COUNT => ⟨.HARP_STRIKE1_COUNT, .harp, 0x24, 1, 4, 0, 32, .ro, .ro, 0⟩
  | .HARP_CNT0_CONFIRMED => ⟨.HARP_CNT0_CONFIRMED, .harp, 0x30, 1, 4, 0, 32, .ro, .ro, 0⟩
  | .HARP_CNT1_STRIKES => ⟨.HARP_CNT1_STRIKES, .harp, 0x34, 1, 4, 0, 16, .ro, .ro, 0⟩
  | .HARP_CNT1_RESTARTS => ⟨.HARP_CNT1_RESTARTS, .harp, 0x34, 1, 4, 16, 16, .ro, .ro, 0⟩
  | .HARP_CNT2_SLIP_OK => ⟨.HARP_CNT2_SLIP_OK, .harp, 0x38, 1, 4, 0, 16, .ro, .ro, 0⟩
  | .HARP_CNT2_SLIP_FAIL => ⟨.HARP_CNT2_SLIP_FAIL, .harp, 0x38, 1, 4, 16, 16, .ro, .ro, 0⟩
  | .HARP_CNT3_OVF => ⟨.HARP_CNT3_OVF, .harp, 0x3c, 1, 4, 0, 16, .ro, .ro, 0⟩
  | .HARP_CNT3_MISCLAIM => ⟨.HARP_CNT3_MISCLAIM, .harp, 0x3c, 1, 4, 16, 16, .ro, .ro, 0⟩
  | .HARP_SLIPHIST_P1 => ⟨.HARP_SLIPHIST_P1, .harp, 0x40, 1, 4, 0, 8, .ro, .ro, 0⟩
  | .HARP_SLIPHIST_P2 => ⟨.HARP_SLIPHIST_P2, .harp, 0x40, 1, 4, 8, 8, .ro, .ro, 0⟩
  | .HARP_SLIPHIST_P3 => ⟨.HARP_SLIPHIST_P3, .harp, 0x40, 1, 4, 16, 8, .ro, .ro, 0⟩
  | .HARP_SLIPHIST_P4 => ⟨.HARP_SLIPHIST_P4, .harp, 0x40, 1, 4, 24, 8, .ro, .ro, 0⟩
  | .HARP_SLIPHIST_N1 => ⟨.HARP_SLIPHIST_N1, .harp, 0x44, 1, 4, 0, 8, .ro, .ro, 0⟩
  | .HARP_SLIPHIST_N2 => ⟨.HARP_SLIPHIST_N2, .harp, 0x44, 1, 4, 8, 8, .ro, .ro, 0⟩
  | .HARP_SLIPHIST_N3 => ⟨.HARP_SLIPHIST_N3, .harp, 0x44, 1, 4, 16, 8, .ro, .ro, 0⟩
  | .HARP_SLIPHIST_N4 => ⟨.HARP_SLIPHIST_N4, .harp, 0x44, 1, 4, 24, 8, .ro, .ro, 0⟩
  | .HARP_LOG_LANE => ⟨.HARP_LOG_LANE, .harp, 0x50, 1, 4, 0, 5, .ro, .ro, 0⟩
  | .HARP_LOG_CAUSE => ⟨.HARP_LOG_CAUSE, .harp, 0x50, 1, 4, 5, 3, .ro, .ro, 0⟩
  | .HARP_LOGTIME_TIME => ⟨.HARP_LOGTIME_TIME, .harp, 0x54, 1, 4, 0, 32, .ro, .ro, 0⟩
  | .HARP_SHADOW_CTRL => ⟨.HARP_SHADOW_CTRL, .harp, 0x60, 1, 4, 0, 22, .ro, .ro, 0x100089⟩
  | .HARP_HBASE_ENTRY => ⟨.HARP_HBASE_ENTRY, .harp, 0x1000, 2320, 4, 0, 32, .ro, .ro, 0⟩
  -- sector format (R199)
  | .SFMx_SYNC0_SYNC_LO => ⟨.SFMx_SYNC0_SYNC_LO, .sfm, 0x0, 1, 4, 0, 32, .rw, .k, 0x3b27c0d9⟩
  | .SFMx_SYNC1_SYNC_HI => ⟨.SFMx_SYNC1_SYNC_HI, .sfm, 0x4, 1, 4, 0, 16, .rw, .k, 0x5f1e⟩
  | .SFMx_SYNC1_SYNC_TOL => ⟨.SFMx_SYNC1_SYNC_TOL, .sfm, 0x4, 1, 4, 16, 3, .rw, .k, 4⟩
  | .SFMx_SYNC1_SYNC_WIN => ⟨.SFMx_SYNC1_SYNC_WIN, .sfm, 0x4, 1, 4, 19, 8, .rw, .k, 0x40⟩
  | .SFMx_FSYNC_FSYNC_PAT => ⟨.SFMx_FSYNC_FSYNC_PAT, .sfm, 0x8, 1, 4, 0, 16, .rw, .k, 0xb4e3⟩
  | .SFMx_FSYNC_FSYNC_TOL => ⟨.SFMx_FSYNC_FSYNC_TOL, .sfm, 0x8, 1, 4, 16, 3, .rw, .k, 2⟩
  | .SFMx_FSYNC_FSYNC_WIN => ⟨.SFMx_FSYNC_FSYNC_WIN, .sfm, 0x8, 1, 4, 19, 5, .rw, .k, 0xc⟩
  | .SFMx_STAT_SYNC_MISS => ⟨.SFMx_STAT_SYNC_MISS, .sfm, 0xc, 1, 4, 0, 1, .w1c, .l, 0⟩
  | .SFMx_STAT_FSYNC_MISS => ⟨.SFMx_STAT_FSYNC_MISS, .sfm, 0xc, 1, 4, 1, 1, .w1c, .l, 0⟩
  | .SFMx_STAT_SYNC_ALT => ⟨.SFMx_STAT_SYNC_ALT, .sfm, 0xc, 1, 4, 2, 1, .w1c, .l, 0⟩
  | .SFMx_STAT_SECT_PRED => ⟨.SFMx_STAT_SECT_PRED, .sfm, 0xc, 1, 4, 3, 1, .w1c, .l, 0⟩
  | .SFMx_STAT_CFG_LOCKED => ⟨.SFMx_STAT_CFG_LOCKED, .sfm, 0xc, 1, 4, 4, 1, .w1c, .l, 0⟩
  | .SFMx_LAST_OFFS => ⟨.SFMx_LAST_OFFS, .sfm, 0x10, 1, 4, 0, 8, .ro, .ro, 0⟩
  | .SFMx_LAST_MISM => ⟨.SFMx_LAST_MISM, .sfm, 0x10, 1, 4, 8, 3, .ro, .ro, 0⟩
  | .SFMx_CNT_SYNC_MISS => ⟨.SFMx_CNT_SYNC_MISS, .sfm, 0x14, 1, 4, 0, 16, .ro, .ro, 0⟩
  | .SFMx_CNT_SECT_PRED => ⟨.SFMx_CNT_SECT_PRED, .sfm, 0x14, 1, 4, 16, 16, .ro, .ro, 0⟩
  -- write path (R226)
  | .WRPx_CTRL_EN => ⟨.WRPx_CTRL_EN, .wrp, 0x0, 1, 4, 0, 1, .rw, .k, 0⟩
  | .WRPx_CTRL_PAR_EN => ⟨.WRPx_CTRL_PAR_EN, .wrp, 0x0, 1, 4, 1, 1, .rw, .s, 1⟩
  | .WRPx_CTRL_ACC_CLR => ⟨.WRPx_CTRL_ACC_CLR, .wrp, 0x0, 1, 4, 2, 1, .wo, .l, 0⟩
  | .WRPx_CFG_FSTART => ⟨.WRPx_CFG_FSTART, .wrp, 0x4, 1, 4, 0, 9, .rw, .k, 0x140⟩
  | .WRPx_CFG_SGAP => ⟨.WRPx_CFG_SGAP, .wrp, 0x4, 1, 4, 9, 7, .rw, .k, 0x20⟩
  | .WRPx_CFG_PREFILL => ⟨.WRPx_CFG_PREFILL, .wrp, 0x4, 1, 4, 16, 7, .rw, .l, 0x10⟩
  | .WRPx_STAT_GATE => ⟨.WRPx_STAT_GATE, .wrp, 0x8, 1, 4, 0, 1, .ro, .ro, 0⟩
  | .WRPx_STAT_RUN => ⟨.WRPx_STAT_RUN, .wrp, 0x8, 1, 4, 1, 1, .ro, .ro, 0⟩
  | .WRPx_STAT_RATE_HI => ⟨.WRPx_STAT_RATE_HI, .wrp, 0x8, 1, 4, 2, 1, .w1c, .l, 0⟩
  | .WRPx_STAT_CUT => ⟨.WRPx_STAT_CUT, .wrp, 0x8, 1, 4, 3, 1, .w1c, .l, 0⟩
  | .WRPx_STAT_UNDERRUN => ⟨.WRPx_STAT_UNDERRUN, .wrp, 0x8, 1, 4, 4, 1, .w1c, .l, 0⟩
  | .WRPx_STAT_ENC_FAULT => ⟨.WRPx_STAT_ENC_FAULT, .wrp, 0x8, 1, 4, 5, 1, .rws, .l, 0⟩
  | .WRPx_STAT_CFG_LOCKED => ⟨.WRPx_STAT_CFG_LOCKED, .wrp, 0x8, 1, 4, 6, 1, .w1c, .l, 0⟩
  | .WRPx_STAT_FIFO => ⟨.WRPx_STAT_FIFO, .wrp, 0x8, 1, 4, 7, 2, .ro, .ro, 0⟩
  | .WRPx_STAT_ACC_N => ⟨.WRPx_STAT_ACC_N, .wrp, 0x8, 1, 4, 9, 7, .ro, .ro, 0⟩
  | .WRPx_CNT0_SECTORS => ⟨.WRPx_CNT0_SECTORS, .wrp, 0x10, 1, 4, 0, 32, .ro, .ro, 0⟩
  | .WRPx_CNT1_CUT => ⟨.WRPx_CNT1_CUT, .wrp, 0x14, 1, 4, 0, 16, .ro, .ro, 0⟩
  | .WRPx_CNT1_UNDERRUN => ⟨.WRPx_CNT1_UNDERRUN, .wrp, 0x14, 1, 4, 16, 16, .ro, .ro, 0⟩
  | .WRPx_CNT2_ENC_RETRY => ⟨.WRPx_CNT2_ENC_RETRY, .wrp, 0x18, 1, 4, 0, 16, .ro, .ro, 0⟩
  | .WRPx_CNT2_SQZ => ⟨.WRPx_CNT2_SQZ, .wrp, 0x18, 1, 4, 16, 16, .ro, .ro, 0⟩
  | .WRPx_SHADOW_PAR_EN => ⟨.WRPx_SHADOW_PAR_EN, .wrp, 0x1c, 1, 4, 1, 1, .ro, .ro, 2⟩
  | .WRPx_PREC_PRE1 => ⟨.WRPx_PREC_PRE1, .wrp, 0x40, 6, 4, 0, 5, .rw, .lk, 0⟩
  | .WRPx_PREC_PRE2 => ⟨.WRPx_PREC_PRE2, .wrp, 0x40, 6, 4, 5, 5, .rw, .lk, 0⟩
  | .WRPx_ACC_DATA => ⟨.WRPx_ACC_DATA, .wrp, 0x1000, 1160, 4, 0, 32, .rw, .lk, 0⟩
  -- recovery ladder (R243)
  | .RLDx_CFG_RETRY_N => ⟨.RLDx_CFG_RETRY_N, .rld, 0x0, 1, 4, 0, 3, .rw, .s, 2⟩
  | .RLDx_CFG_OFF_STEP => ⟨.RLDx_CFG_OFF_STEP, .rld, 0x0, 1, 4, 3, 8, .rw, .s, 0xd⟩
  | .RLDx_CFG_REALLOC_RUNG => ⟨.RLDx_CFG_REALLOC_RUNG, .rld, 0x0, 1, 4, 11, 4, .rw, .s, 4⟩
  | .RLDx_CFG_STREAM_RUNG => ⟨.RLDx_CFG_STREAM_RUNG, .rld, 0x0, 1, 4, 15, 4, .rw, .s, 3⟩
  | .RLDx_CFG_EXT_GLB => ⟨.RLDx_CFG_EXT_GLB, .rld, 0x0, 1, 4, 19, 4, .rw, .s, 8⟩
  | .RLDx_CFG_EXT_ALT => ⟨.RLDx_CFG_EXT_ALT, .rld, 0x0, 1, 4, 23, 4, .rw, .s, 0xc⟩
  | .RLDx_CFG_PAR_REV => ⟨.RLDx_CFG_PAR_REV, .rld, 0x0, 1, 4, 27, 2, .rw, .s, 2⟩
  | .RLDx_EN_RUNG_EN => ⟨.RLDx_EN_RUNG_EN, .rld, 0x4, 1, 4, 0, 8, .rw, .s, 0xff⟩
  | .RLDx_STAT_ACTIVE => ⟨.RLDx_STAT_ACTIVE, .rld, 0x8, 1, 4, 0, 4, .ro, .ro, 0⟩
  | .RLDx_STAT_WAITQ => ⟨.RLDx_STAT_WAITQ, .rld, 0x8, 1, 4, 4, 1, .ro, .ro, 0⟩
  | .RLDx_STAT_SPARE_LOW => ⟨.RLDx_STAT_SPARE_LOW, .rld, 0x8, 1, 4, 5, 1, .w1c, .l, 0⟩
  | .RLDx_STAT_TLER_CUT => ⟨.RLDx_STAT_TLER_CUT, .rld, 0x8, 1, 4, 6, 1, .w1c, .l, 0⟩
  | .RLDx_CNT0_RUNG1 => ⟨.RLDx_CNT0_RUNG1, .rld, 0x10, 1, 4, 0, 16, .ro, .ro, 0⟩
  | .RLDx_CNT0_RUNG2 => ⟨.RLDx_CNT0_RUNG2, .rld, 0x10, 1, 4, 16, 16, .ro, .ro, 0⟩
  | .RLDx_CNT1_RUNG3 => ⟨.RLDx_CNT1_RUNG3, .rld, 0x14, 1, 4, 0, 16, .ro, .ro, 0⟩
  | .RLDx_CNT1_RUNG4 => ⟨.RLDx_CNT1_RUNG4, .rld, 0x14, 1, 4, 16, 16, .ro, .ro, 0⟩
  | .RLDx_CNT2_RUNG5 => ⟨.RLDx_CNT2_RUNG5, .rld, 0x18, 1, 4, 0, 16, .ro, .ro, 0⟩
  | .RLDx_CNT2_RUNG6 => ⟨.RLDx_CNT2_RUNG6, .rld, 0x18, 1, 4, 16, 16, .ro, .ro, 0⟩
  | .RLDx_CNT3_RUNG7 => ⟨.RLDx_CNT3_RUNG7, .rld, 0x1c, 1, 4, 0, 16, .ro, .ro, 0⟩
  | .RLDx_CNT3_RUNG8 => ⟨.RLDx_CNT3_RUNG8, .rld, 0x1c, 1, 4, 16, 16, .ro, .ro, 0⟩
  | .RLDx_CNT4_FAIL => ⟨.RLDx_CNT4_FAIL, .rld, 0x20, 1, 4, 0, 16, .ro, .ro, 0⟩
  | .RLDx_CNT4_REALLOC => ⟨.RLDx_CNT4_REALLOC, .rld, 0x20, 1, 4, 16, 16, .ro, .ro, 0⟩
  | .RLDx_SHADOW_CFG => ⟨.RLDx_SHADOW_CFG, .rld, 0x24, 1, 4, 0, 29, .ro, .ro, 0x1641a06a⟩
  | .RLDx_SHADOW1_EN => ⟨.RLDx_SHADOW1_EN, .rld, 0x28, 1, 4, 0, 8, .ro, .ro, 0xff⟩
  | .RLDx_LAST_RUNG => ⟨.RLDx_LAST_RUNG, .rld, 0x30, 1, 4, 0, 4, .ro, .ro, 0⟩
  | .RLDx_LASTLBA0_LBA_LO => ⟨.RLDx_LASTLBA0_LBA_LO, .rld, 0x34, 1, 4, 0, 32, .ro, .ro, 0⟩
  | .RLDx_LASTLBA1_LBA_HI => ⟨.RLDx_LASTLBA1_LBA_HI, .rld, 0x38, 1, 4, 0, 16, .ro, .ro, 0⟩
  -- HQE (with its stream slots) (R264, R291)
  | .HQEn_CTRL_FN_EN => ⟨.HQEn_CTRL_FN_EN, .hqe, 0x0, 1, 4, 0, 1, .rw, .k, 1⟩
  | .HQEn_CTRL_FORCE_RST => ⟨.HQEn_CTRL_FORCE_RST, .hqe, 0x0, 1, 4, 1, 1, .wo, .l, 0⟩
  | .HQEn_CFG_MDTS => ⟨.HQEn_CFG_MDTS, .hqe, 0x4, 1, 4, 0, 4, .rw, .k, 9⟩
  | .HQEn_CFG_ZASL => ⟨.HQEn_CFG_ZASL, .hqe, 0x4, 1, 4, 4, 4, .rw, .k, 7⟩
  | .HQEn_CFG_NIOQ => ⟨.HQEn_CFG_NIOQ, .hqe, 0x4, 1, 4, 8, 7, .rw, .k, 0x40⟩
  | .HQEn_CFG_SGL_EN => ⟨.HQEn_CFG_SGL_EN, .hqe, 0x4, 1, 4, 15, 1, .rw, .k, 1⟩
  | .HQEn_STAT_EN => ⟨.HQEn_STAT_EN, .hqe, 0x10, 1, 4, 0, 1, .ro, .ro, 0⟩
  | .HQEn_STAT_RDY => ⟨.HQEn_STAT_RDY, .hqe, 0x10, 1, 4, 1, 1, .ro, .ro, 0⟩
  | .HQEn_STAT_CFS => ⟨.HQEn_STAT_CFS, .hqe, 0x10, 1, 4, 2, 1, .ro, .ro, 0⟩
  | .HQEn_STAT_SHST => ⟨.HQEn_STAT_SHST, .hqe, 0x10, 1, 4, 3, 2, .ro, .ro, 0⟩
  | .HQEn_STAT_LINK => ⟨.HQEn_STAT_LINK, .hqe, 0x10, 1, 4, 5, 1, .ro, .ro, 0⟩
  | .HQEn_STAT_CFG_LOCKED => ⟨.HQEn_STAT_CFG_LOCKED, .hqe, 0x10, 1, 4, 6, 1, .w1c, .l, 0⟩
  | .HQEn_STAT_RST_DONE => ⟨.HQEn_STAT_RST_DONE, .hqe, 0x10, 1, 4, 7, 1, .w1c, .l, 0⟩
  | .HQEn_STAT_IOQ => ⟨.HQEn_STAT_IOQ, .hqe, 0x10, 1, 4, 8, 7, .ro, .ro, 0⟩
  | .HQEn_OUT_OUTST => ⟨.HQEn_OUT_OUTST, .hqe, 0x14, 1, 4, 0, 14, .ro, .ro, 0⟩
  | .HQEn_CNT0_FETCHED => ⟨.HQEn_CNT0_FETCHED, .hqe, 0x20, 1, 4, 0, 32, .ro, .ro, 0⟩
  | .HQEn_CNT1_RESV_CONF => ⟨.HQEn_CNT1_RESV_CONF, .hqe, 0x24, 1, 4, 0, 16, .ro, .ro, 0⟩
  | .HQEn_CNT1_PI_ERR => ⟨.HQEn_CNT1_PI_ERR, .hqe, 0x24, 1, 4, 16, 16, .ro, .ro, 0⟩
  | .HQEn_CNT2_NOT_READY => ⟨.HQEn_CNT2_NOT_READY, .hqe, 0x28, 1, 4, 0, 16, .ro, .ro, 0⟩
  | .HQEn_STRM_Q_SQID => ⟨.HQEn_STRM_Q_SQID, .hqe, 0x100, 16, 16, 0, 16, .ro, .ro, 0⟩
  | .HQEn_STRM_Q_ARMED => ⟨.HQEn_STRM_Q_ARMED, .hqe, 0x100, 16, 16, 16, 1, .ro, .ro, 0⟩
  | .HQEn_STRM_Q_DIR => ⟨.HQEn_STRM_Q_DIR, .hqe, 0x100, 16, 16, 17, 1, .ro, .ro, 0⟩
  | .HQEn_STRM_Q_SMASK => ⟨.HQEn_STRM_Q_SMASK, .hqe, 0x100, 16, 16, 18, 4, .ro, .ro, 0⟩
  | .HQEn_STRM_Q_DLF => ⟨.HQEn_STRM_Q_DLF, .hqe, 0x100, 16, 16, 22, 8, .ro, .ro, 0⟩
  | .HQEn_STRM_BPF_BPF => ⟨.HQEn_STRM_BPF_BPF, .hqe, 0x104, 16, 16, 0, 24, .ro, .ro, 0⟩
  | .HQEn_STRM_AORD_AORD => ⟨.HQEn_STRM_AORD_AORD, .hqe, 0x108, 16, 16, 0, 32, .ro, .ro, 0⟩
  | .HQEn_STRM_CNT_MISS => ⟨.HQEn_STRM_CNT_MISS, .hqe, 0x10c, 16, 16, 0, 16, .ro, .ro, 0⟩
  | .HQEn_STRM_CNT_SUSP => ⟨.HQEn_STRM_CNT_SUSP, .hqe, 0x10c, 16, 16, 16, 16, .ro, .ro, 0⟩
  -- PCIe PHY and link (R265)
  | .PCIE_CFG_DUAL => ⟨.PCIE_CFG_DUAL, .pcie, 0x0, 1, 4, 0, 1, .ro, .ro, 0⟩
  | .PCIE_CFG_FN_CNT0 => ⟨.PCIE_CFG_FN_CNT0, .pcie, 0x0, 1, 4, 1, 4, .rw, .k, 1⟩
  | .PCIE_CFG_FN_CNT1 => ⟨.PCIE_CFG_FN_CNT1, .pcie, 0x0, 1, 4, 5, 3, .rw, .k, 1⟩
  | .PCIE_CFG_CLK0 => ⟨.PCIE_CFG_CLK0, .pcie, 0x0, 1, 4, 8, 2, .rw, .k, 0⟩
  | .PCIE_CFG_CLK1 => ⟨.PCIE_CFG_CLK1, .pcie, 0x0, 1, 4, 10, 2, .rw, .k, 2⟩
  | .PCIE_CFG_MAXSPD0 => ⟨.PCIE_CFG_MAXSPD0, .pcie, 0x0, 1, 4, 12, 3, .rw, .k, 5⟩
  | .PCIE_CFG_MAXSPD1 => ⟨.PCIE_CFG_MAXSPD1, .pcie, 0x0, 1, 4, 15, 3, .rw, .k, 5⟩
  | .PCIE_STAT_UP0 => ⟨.PCIE_STAT_UP0, .pcie, 0x10, 1, 4, 0, 1, .ro, .ro, 0⟩
  | .PCIE_STAT_UP1 => ⟨.PCIE_STAT_UP1, .pcie, 0x10, 1, 4, 1, 1, .ro, .ro, 0⟩
  | .PCIE_STAT_SPD0 => ⟨.PCIE_STAT_SPD0, .pcie, 0x10, 1, 4, 2, 3, .ro, .ro, 0⟩
  | .PCIE_STAT_SPD1 => ⟨.PCIE_STAT_SPD1, .pcie, 0x10, 1, 4, 5, 3, .ro, .ro, 0⟩
  | .PCIE_STAT_WID0 => ⟨.PCIE_STAT_WID0, .pcie, 0x10, 1, 4, 8, 3, .ro, .ro, 0⟩
  | .PCIE_STAT_WID1 => ⟨.PCIE_STAT_WID1, .pcie, 0x10, 1, 4, 11, 3, .ro, .ro, 0⟩
  | .PCIE_STAT_CFG_LOCKED => ⟨.PCIE_STAT_CFG_LOCKED, .pcie, 0x10, 1, 4, 14, 1, .w1c, .l, 0⟩
  | .PCIE_STAT_DLDN0 => ⟨.PCIE_STAT_DLDN0, .pcie, 0x10, 1, 4, 15, 1, .w1c, .l, 0⟩
  | .PCIE_STAT_DLDN1 => ⟨.PCIE_STAT_DLDN1, .pcie, 0x10, 1, 4, 16, 1, .w1c, .l, 0⟩
  | .PCIE_CNT_CORR0 => ⟨.PCIE_CNT_CORR0, .pcie, 0x14, 1, 4, 0, 16, .ro, .ro, 0⟩
  | .PCIE_CNT_CORR1 => ⟨.PCIE_CNT_CORR1, .pcie, 0x14, 1, 4, 16, 16, .ro, .ro, 0⟩
  | .PCIE_MI_MI_ADDR => ⟨.PCIE_MI_MI_ADDR, .pcie, 0x20, 1, 4, 0, 7, .rw, .k, 0x1d⟩
  -- stream scheduler (R290)
  | .STRM_CFG_FRAC => ⟨.STRM_CFG_FRAC, .strm, 0x0, 1, 4, 0, 7, .rw, .l, 0x4b⟩
  | .STRM_CFG_SW_FRETS => ⟨.STRM_CFG_SW_FRETS, .strm, 0x0, 1, 4, 7, 11, .rw, .l, 0x258⟩
  | .STRM_STAT_ARMED => ⟨.STRM_STAT_ARMED, .strm, 0x4, 1, 4, 0, 5, .ro, .ro, 0⟩
  | .STRM_STAT_FROZEN => ⟨.STRM_STAT_FROZEN, .strm, 0x4, 1, 4, 5, 1, .ro, .ro, 1⟩
  | .STRM_STAT_WDRN => ⟨.STRM_STAT_WDRN, .strm, 0x4, 1, 4, 6, 1, .w1c, .l, 0⟩
  | .STRM_STAT_MISS => ⟨.STRM_STAT_MISS, .strm, 0x4, 1, 4, 7, 1, .w1c, .l, 0⟩
  | .STRM_STAT_REFUSED => ⟨.STRM_STAT_REFUSED, .strm, 0x4, 1, 4, 8, 1, .w1c, .l, 0⟩
  | .STRM_HARP_REQ => ⟨.STRM_HARP_REQ, .strm, 0x8, 1, 4, 0, 10, .ro, .ro, 0⟩
  | .STRM_HARP_CAP => ⟨.STRM_HARP_CAP, .strm, 0x8, 1, 4, 10, 10, .ro, .ro, 0x200⟩
  | .STRM_MED_USED => ⟨.STRM_MED_USED, .strm, 0x10, 4, 4, 0, 20, .ro, .ro, 0⟩
  | .STRM_MED_STREAMS => ⟨.STRM_MED_STREAMS, .strm, 0x10, 4, 4, 20, 4, .ro, .ro, 0⟩
  | .STRM_AVL_AVAIL => ⟨.STRM_AVL_AVAIL, .strm, 0x20, 4, 4, 0, 20, .ro, .ro, 0⟩
  | .STRM_CNT0_MISS => ⟨.STRM_CNT0_MISS, .strm, 0x30, 1, 4, 0, 16, .ro, .ro, 0⟩
  | .STRM_CNT0_SUSP => ⟨.STRM_CNT0_SUSP, .strm, 0x30, 1, 4, 16, 16, .ro, .ro, 0⟩
  | .STRM_CNT1_WDRN => ⟨.STRM_CNT1_WDRN, .strm, 0x34, 1, 4, 0, 16, .ro, .ro, 0⟩
  | .STRM_CNT1_REFUSED => ⟨.STRM_CNT1_REFUSED, .strm, 0x34, 1, 4, 16, 16, .ro, .ro, 0⟩
  -- Bridge control (R313)
  | .BRG_CTRL_GO => ⟨.BRG_CTRL_GO, .bridge, 0x0, 1, 4, 0, 1, .wo, .l, 0⟩
  | .BRG_CTRL_SPILL_EN => ⟨.BRG_CTRL_SPILL_EN, .bridge, 0x0, 1, 4, 1, 1, .rw, .l, 1⟩
  | .BRG_CFG0_WSPLIT => ⟨.BRG_CFG0_WSPLIT, .bridge, 0x4, 1, 4, 0, 5, .rw, .k, 0x10⟩
  | .BRG_CFG0_WMIN => ⟨.BRG_CFG0_WMIN, .bridge, 0x4, 1, 4, 5, 9, .rw, .k, 0x80⟩
  | .BRG_CFG0_WMAX => ⟨.BRG_CFG0_WMAX, .bridge, 0x4, 1, 4, 14, 10, .rw, .k, 0x180⟩
  | .BRG_CFG1_RMIN => ⟨.BRG_CFG1_RMIN, .bridge, 0x8, 1, 4, 0, 11, .rw, .k, 0x80⟩
  | .BRG_CFG1_RMAX => ⟨.BRG_CFG1_RMAX, .bridge, 0x8, 1, 4, 11, 11, .rw, .k, 0x180⟩
  | .BRG_CFG2_STRM_MAX => ⟨.BRG_CFG2_STRM_MAX, .bridge, 0xc, 1, 4, 0, 12, .rw, .k, 0x100⟩
  | .BRG_CFG2_SPILL_US => ⟨.BRG_CFG2_SPILL_US, .bridge, 0xc, 1, 4, 12, 10, .rw, .l, 0x32⟩
  | .BRG_STAT_CFG_LOCKED => ⟨.BRG_STAT_CFG_LOCKED, .bridge, 0x10, 1, 4, 0, 1, .w1c, .l, 0⟩
  | .BRG_STAT_DESC_WAIT => ⟨.BRG_STAT_DESC_WAIT, .bridge, 0x10, 1, 4, 1, 1, .w1c, .l, 0⟩
  | .BRG_STAT_VSTORE_WAIT => ⟨.BRG_STAT_VSTORE_WAIT, .bridge, 0x10, 1, 4, 2, 1, .w1c, .l, 0⟩
  | .BRG_STAT_RSLIP => ⟨.BRG_STAT_RSLIP, .bridge, 0x10, 1, 4, 3, 1, .w1c, .l, 0⟩
  | .BRG_STAT_SPILLED => ⟨.BRG_STAT_SPILLED, .bridge, 0x10, 1, 4, 4, 1, .w1c, .l, 0⟩
  | .BRG_STAT_MAP_RSV => ⟨.BRG_STAT_MAP_RSV, .bridge, 0x10, 1, 4, 5, 1, .ro, .ro, 0⟩
  | .BRG_VSTORE_FREE => ⟨.BRG_VSTORE_FREE, .bridge, 0x14, 1, 4, 0, 21, .ro, .ro, 0⟩
  | .BRG_DESC_FREE => ⟨.BRG_DESC_FREE, .bridge, 0x18, 1, 4, 0, 15, .ro, .ro, 0x4000⟩
  | .BRG_STRM_RSV => ⟨.BRG_STRM_RSV, .bridge, 0x1c, 1, 4, 0, 12, .ro, .ro, 0⟩
  | .BRG_USE_CELLS => ⟨.BRG_USE_CELLS, .bridge, 0x20, 4, 4, 0, 10, .ro, .ro, 0⟩
  | .BRG_USE_PAGES => ⟨.BRG_USE_PAGES, .bridge, 0x20, 4, 4, 10, 11, .ro, .ro, 0⟩
  | .BRG_RSLIP_COUNT => ⟨.BRG_RSLIP_COUNT, .bridge, 0x30, 4, 4, 0, 32, .ro, .ro, 0⟩
  -- Chest controller and write governor (R314)
  | .CHST_CTRL_WB_EN => ⟨.CHST_CTRL_WB_EN, .chest, 0x0, 1, 4, 0, 1, .rw, .l, 1⟩
  | .CHST_CTRL_CHB_MAXBLK => ⟨.CHST_CTRL_CHB_MAXBLK, .chest, 0x0, 1, 4, 1, 4, .rw, .l, 8⟩
  | .CHST_GOV_GOV_RATE => ⟨.CHST_GOV_GOV_RATE, .chest, 0x4, 1, 4, 0, 8, .rw, .l, 0x10⟩
  | .CHST_GOV_GOV_BURST => ⟨.CHST_GOV_GOV_BURST, .chest, 0x4, 1, 4, 8, 8, .rw, .l, 0x10⟩
  | .CHST_GOV_GOV_GRATE => ⟨.CHST_GOV_GOV_GRATE, .chest, 0x4, 1, 4, 16, 8, .rw, .l, 0x10⟩
  | .CHST_GOV_GOV_GBURST => ⟨.CHST_GOV_GOV_GBURST, .chest, 0x4, 1, 4, 24, 8, .rw, .l, 0x40⟩
  | .CHST_STAT_GOV_ACT => ⟨.CHST_STAT_GOV_ACT, .chest, 0x8, 1, 4, 0, 1, .ro, .ro, 0⟩
  | .CHST_STAT_INELIG => ⟨.CHST_STAT_INELIG, .chest, 0x8, 1, 4, 1, 1, .w1c, .l, 0⟩
  | .CHST_STAT_JRNL_WAIT => ⟨.CHST_STAT_JRNL_WAIT, .chest, 0x8, 1, 4, 2, 1, .w1c, .l, 0⟩
  | .CHST_STAT_LIFE_WARN => ⟨.CHST_STAT_LIFE_WARN, .chest, 0x8, 1, 4, 3, 1, .ro, .ro, 0⟩
  | .CHST_STAT_LIFE_END => ⟨.CHST_STAT_LIFE_END, .chest, 0x8, 1, 4, 4, 1, .ro, .ro, 0⟩
  | .CHST_TOKENS_GLOBAL => ⟨.CHST_TOKENS_GLOBAL, .chest, 0xc, 1, 4, 0, 24, .ro, .ro, 0x100000⟩
  | .CHST_WB_ENTRIES => ⟨.CHST_WB_ENTRIES, .chest, 0x10, 1, 4, 0, 11, .ro, .ro, 0⟩
  | .CHST_WB_FREE => ⟨.CHST_WB_FREE, .chest, 0x10, 1, 4, 11, 13, .ro, .ro, 0x1900⟩
  | .CHST_JRNL_LIVE => ⟨.CHST_JRNL_LIVE, .chest, 0x14, 1, 4, 0, 15, .ro, .ro, 0⟩
  | .CHST_LIFE_LIFE => ⟨.CHST_LIFE_LIFE, .chest, 0x18, 1, 4, 0, 14, .ro, .ro, 0⟩
  | .CHST_LIFE_GROUP => ⟨.CHST_LIFE_GROUP, .chest, 0x18, 1, 4, 14, 6, .ro, .ro, 0⟩
  | .CHST_TOTLO_ROWS => ⟨.CHST_TOTLO_ROWS, .chest, 0x1c, 1, 4, 0, 32, .ro, .ro, 0⟩
  | .CHST_TOTHI_ROWS => ⟨.CHST_TOTHI_ROWS, .chest, 0x20, 1, 4, 0, 32, .ro, .ro, 0⟩
  | .CHST_GWRLO_G => ⟨.CHST_GWRLO_G, .chest, 0x100, 64, 8, 0, 32, .ro, .ro, 0⟩
  | .CHST_GWRHI_G => ⟨.CHST_GWRHI_G, .chest, 0x104, 64, 8, 0, 16, .ro, .ro, 0⟩
  -- Cabinet (R333)
  | .CAB_CTRL_SLOT_GO => ⟨.CAB_CTRL_SLOT_GO, .cabinet, 0x0, 1, 4, 0, 1, .wo, .l, 0⟩
  | .CAB_CTRL_SLOT_OP => ⟨.CAB_CTRL_SLOT_OP, .cabinet, 0x0, 1, 4, 1, 2, .rw, .l, 0⟩
  | .CAB_CTRL_SLOT => ⟨.CAB_CTRL_SLOT, .cabinet, 0x0, 1, 4, 3, 8, .rw, .l, 0⟩
  | .CAB_CTRL_KAT_GO => ⟨.CAB_CTRL_KAT_GO, .cabinet, 0x0, 1, 4, 11, 1, .wo, .l, 0⟩
  | .CAB_STAT_BUSY => ⟨.CAB_STAT_BUSY, .cabinet, 0x4, 1, 4, 0, 1, .ro, .ro, 0⟩
  | .CAB_STAT_DONE => ⟨.CAB_STAT_DONE, .cabinet, 0x4, 1, 4, 1, 1, .w1c, .l, 0⟩
  | .CAB_STAT_OP_ERR => ⟨.CAB_STAT_OP_ERR, .cabinet, 0x4, 1, 4, 2, 1, .w1c, .l, 0⟩
  | .CAB_STAT_RNG_FAIL => ⟨.CAB_STAT_RNG_FAIL, .cabinet, 0x4, 1, 4, 3, 1, .rws, .l, 0⟩
  | .CAB_STAT_TAG_FAIL => ⟨.CAB_STAT_TAG_FAIL, .cabinet, 0x4, 1, 4, 4, 1, .w1c, .l, 0⟩
  | .CAB_STAT_HOLD_WAIT => ⟨.CAB_STAT_HOLD_WAIT, .cabinet, 0x4, 1, 4, 5, 1, .w1c, .l, 0⟩
  | .CAB_STAT_NONCE_GUARD => ⟨.CAB_STAT_NONCE_GUARD, .cabinet, 0x4, 1, 4, 6, 1, .rws, .l, 0⟩
  | .CAB_STAT_KEY_LOW => ⟨.CAB_STAT_KEY_LOW, .cabinet, 0x4, 1, 4, 7, 1, .w1c, .l, 0⟩
  | .CAB_STAT_KEY_EXH => ⟨.CAB_STAT_KEY_EXH, .cabinet, 0x4, 1, 4, 8, 1, .w1c, .l, 0⟩
  | .CAB_STAT_CORES => ⟨.CAB_STAT_CORES, .cabinet, 0x4, 1, 4, 9, 3, .ro, .ro, 4⟩
  | .CAB_STAT_CORE_RET => ⟨.CAB_STAT_CORE_RET, .cabinet, 0x4, 1, 4, 12, 4, .ro, .ro, 0⟩
  | .CAB_STAT_HOLD_USED => ⟨.CAB_STAT_HOLD_USED, .cabinet, 0x4, 1, 4, 16, 7, .ro, .ro, 0⟩
  | .CAB_CFG_KAT_MS => ⟨.CAB_CFG_KAT_MS, .cabinet, 0x8, 1, 4, 0, 16, .rw, .l, 0x3e8⟩
  | .CAB_SLOTSEL_SLOT => ⟨.CAB_SLOTSEL_SLOT, .cabinet, 0x10, 1, 4, 0, 8, .rw, .l, 0⟩
  | .CAB_SLOTSTAT_STATE => ⟨.CAB_SLOTSTAT_STATE, .cabinet, 0x14, 1, 4, 0, 2, .ro, .ro, 0⟩
  | .CAB_SLOTSTAT_LOW => ⟨.CAB_SLOTSTAT_LOW, .cabinet, 0x14, 1, 4, 2, 1, .ro, .ro, 0⟩
  | .CAB_SLOTSTAT_NSID => ⟨.CAB_SLOTSTAT_NSID, .cabinet, 0x14, 1, 4, 3, 6, .ro, .ro, 0⟩
  | .CAB_SLOTSTAT_NSTAG => ⟨.CAB_SLOTSTAT_NSTAG, .cabinet, 0x14, 1, 4, 9, 8, .ro, .ro, 0⟩
  | .CAB_GENLO_GEN => ⟨.CAB_GENLO_GEN, .cabinet, 0x18, 1, 4, 0, 32, .ro, .ro, 0⟩
  | .CAB_GENHI_GEN => ⟨.CAB_GENHI_GEN, .cabinet, 0x1c, 1, 4, 0, 8, .ro, .ro, 0⟩
  | .CAB_CNT0_DECRYPTS => ⟨.CAB_CNT0_DECRYPTS, .cabinet, 0x20, 1, 4, 0, 32, .ro, .ro, 0⟩
  | .CAB_CNT1_ENCRYPTS => ⟨.CAB_CNT1_ENCRYPTS, .cabinet, 0x24, 1, 4, 0, 32, .ro, .ro, 0⟩
  | .CAB_CNT2_TAG_FAIL => ⟨.CAB_CNT2_TAG_FAIL, .cabinet, 0x28, 1, 4, 0, 16, .ro, .ro, 0⟩
  | .CAB_CNT2_GEN_BAD => ⟨.CAB_CNT2_GEN_BAD, .cabinet, 0x28, 1, 4, 16, 16, .ro, .ro, 0⟩
  | .CAB_CNT3_HOLD_WAIT => ⟨.CAB_CNT3_HOLD_WAIT, .cabinet, 0x2c, 1, 4, 0, 16, .ro, .ro, 0⟩
  | .CAB_CNT3_KAT_FAIL => ⟨.CAB_CNT3_KAT_FAIL, .cabinet, 0x2c, 1, 4, 16, 16, .ro, .ro, 0⟩
  | .CAB_EPOCH_KEK_EPOCH => ⟨.CAB_EPOCH_KEK_EPOCH, .cabinet, 0x30, 1, 4, 0, 3, .ro, .ro, 0⟩
  -- Phovi (R350)
  | .PHV_CTRL_RETIRE => ⟨.PHV_CTRL_RETIRE, .phovi, 0x0, 1, 4, 0, 2, .wo, .l, 0⟩
  | .PHV_CTRL_UNRETIRE => ⟨.PHV_CTRL_UNRETIRE, .phovi, 0x0, 1, 4, 2, 2, .wo, .l, 0⟩
  | .PHV_CFG_CAPS_BLK => ⟨.PHV_CFG_CAPS_BLK, .phovi, 0x4, 1, 4, 0, 5, .rw, .s, 0x10⟩
  | .PHV_CFG_MIN_GAIN => ⟨.PHV_CFG_MIN_GAIN, .phovi, 0x4, 1, 4, 5, 12, .rw, .s, 0x200⟩
  | .PHV_CFG_SPACE_MS => ⟨.PHV_CFG_SPACE_MS, .phovi, 0x4, 1, 4, 17, 8, .rw, .l, 0x64⟩
  | .PHV_CFG_VFY_RET => ⟨.PHV_CFG_VFY_RET, .phovi, 0x4, 1, 4, 25, 3, .rw, .l, 4⟩
  | .PHV_CFG_PACK_MS => ⟨.PHV_CFG_PACK_MS, .phovi, 0x4, 1, 4, 28, 4, .rw, .l, 8⟩
  | .PHV_STAT_INSVC => ⟨.PHV_STAT_INSVC, .phovi, 0x8, 1, 4, 0, 2, .ro, .ro, 3⟩
  | .PHV_STAT_VFY_FAIL => ⟨.PHV_STAT_VFY_FAIL, .phovi, 0x8, 1, 4, 2, 1, .w1c, .l, 0⟩
  | .PHV_STAT_DEC_ERR => ⟨.PHV_STAT_DEC_ERR, .phovi, 0x8, 1, 4, 3, 1, .w1c, .l, 0⟩
  | .PHV_STAT_CAP_EXC => ⟨.PHV_STAT_CAP_EXC, .phovi, 0x8, 1, 4, 4, 1, .w1c, .l, 0⟩
  | .PHV_STAT_PREEMPT => ⟨.PHV_STAT_PREEMPT, .phovi, 0x8, 1, 4, 5, 1, .w1c, .l, 0⟩
  | .PHV_STAT_CFG_LOCKED => ⟨.PHV_STAT_CFG_LOCKED, .phovi, 0x8, 1, 4, 6, 1, .w1c, .l, 0⟩
  | .PHV_STAT_ENG_FAULT => ⟨.PHV_STAT_ENG_FAULT, .phovi, 0x8, 1, 4, 7, 1, .rws, .l, 0⟩
  | .PHV_STAT_SLOTS_FREE => ⟨.PHV_STAT_SLOTS_FREE, .phovi, 0x8, 1, 4, 8, 3, .ro, .ro, 4⟩
  | .PHV_STAT_QUEUED => ⟨.PHV_STAT_QUEUED, .phovi, 0x8, 1, 4, 11, 6, .ro, .ro, 0⟩
  | .PHV_ENG_STATE => ⟨.PHV_ENG_STATE, .phovi, 0x10, 2, 4, 0, 2, .ro, .ro, 0⟩
  | .PHV_ENG_VFYCNT => ⟨.PHV_ENG_VFYCNT, .phovi, 0x10, 2, 4, 2, 3, .ro, .ro, 0⟩
  | .PHV_CNT0_RAW_KIB => ⟨.PHV_CNT0_RAW_KIB, .phovi, 0x20, 1, 4, 0, 32, .ro, .ro, 0⟩
  | .PHV_CNT1_PACK_KIB => ⟨.PHV_CNT1_PACK_KIB, .phovi, 0x24, 1, 4, 0, 32, .ro, .ro, 0⟩
  | .PHV_CNT2_VFY_FAIL => ⟨.PHV_CNT2_VFY_FAIL, .phovi, 0x28, 1, 4, 0, 16, .ro, .ro, 0⟩
  | .PHV_CNT2_DEC_ERR => ⟨.PHV_CNT2_DEC_ERR, .phovi, 0x28, 1, 4, 16, 16, .ro, .ro, 0⟩
  | .PHV_CNT3_CAP_EXC => ⟨.PHV_CNT3_CAP_EXC, .phovi, 0x2c, 1, 4, 0, 16, .ro, .ro, 0⟩
  | .PHV_CNT3_PREEMPT => ⟨.PHV_CNT3_PREEMPT, .phovi, 0x2c, 1, 4, 16, 16, .ro, .ro, 0⟩
  | .PHV_ERRLOG_LAST_CODE => ⟨.PHV_ERRLOG_LAST_CODE, .phovi, 0x30, 1, 4, 0, 4, .ro, .ro, 0⟩
  | .PHV_ERRLOG_ENGINE => ⟨.PHV_ERRLOG_ENGINE, .phovi, 0x30, 1, 4, 4, 1, .ro, .ro, 0⟩
  | .PHV_ERRLOG_REPEAT => ⟨.PHV_ERRLOG_REPEAT, .phovi, 0x30, 1, 4, 5, 1, .ro, .ro, 0⟩
  | .PHV_ERRCSA0_CSA_LO => ⟨.PHV_ERRCSA0_CSA_LO, .phovi, 0x34, 1, 4, 0, 32, .ro, .ro, 0⟩
  | .PHV_ERRCSA1_CSA_HI => ⟨.PHV_ERRCSA1_CSA_HI, .phovi, 0x38, 1, 4, 0, 16, .ro, .ro, 0⟩
  | .PHV_SHADOW_CFG => ⟨.PHV_SHADOW_CFG, .phovi, 0x3c, 1, 4, 0, 17, .ro, .ro, 0x4010⟩
  -- formatter sequencer (R375)
  | .SQ_CTRL_GO => ⟨.SQ_CTRL_GO, .seq, 0x0, 1, 4, 0, 1, .wo, .l, 0⟩
  | .SQ_CTRL_STOP => ⟨.SQ_CTRL_STOP, .seq, 0x0, 1, 4, 1, 1, .wo, .l, 0⟩
  | .SQ_CTRL_RST => ⟨.SQ_CTRL_RST, .seq, 0x0, 1, 4, 2, 1, .wo, .l, 0⟩
  | .SQ_CTRL_DOORBELL => ⟨.SQ_CTRL_DOORBELL, .seq, 0x0, 1, 4, 3, 1, .wo, .l, 0⟩
  | .SQ_STAT_STATE => ⟨.SQ_STAT_STATE, .seq, 0x4, 1, 4, 0, 2, .ro, .ro, 0⟩
  | .SQ_STAT_COMMITTED => ⟨.SQ_STAT_COMMITTED, .seq, 0x4, 1, 4, 2, 1, .ro, .ro, 0⟩
  | .SQ_STAT_HANDLER => ⟨.SQ_STAT_HANDLER, .seq, 0x4, 1, 4, 3, 1, .ro, .ro, 0⟩
  | .SQ_STAT_CBUF => ⟨.SQ_STAT_CBUF, .seq, 0x4, 1, 4, 4, 5, .ro, .ro, 0⟩
  | .SQ_STAT_STKD => ⟨.SQ_STAT_STKD, .seq, 0x4, 1, 4, 9, 3, .ro, .ro, 0⟩
  | .SQ_STAT_FCAUSE => ⟨.SQ_STAT_FCAUSE, .seq, 0x4, 1, 4, 12, 3, .ro, .ro, 0⟩
  | .SQ_STAT_FAULT => ⟨.SQ_STAT_FAULT, .seq, 0x4, 1, 4, 15, 1, .rws, .l, 0⟩
  | .SQ_STAT_CFG_LOCKED => ⟨.SQ_STAT_CFG_LOCKED, .seq, 0x4, 1, 4, 16, 1, .w1c, .l, 0⟩
  | .SQ_STAT_ABANDON => ⟨.SQ_STAT_ABANDON, .seq, 0x4, 1, 4, 17, 1, .w1c, .l, 0⟩
  | .SQ_STAT_PC => ⟨.SQ_STAT_PC, .seq, 0x4, 1, 4, 18, 12, .ro, .ro, 0⟩
  | .SQ_ENTRY_EVEN => ⟨.SQ_ENTRY_EVEN, .seq, 0x10, 4, 4, 0, 12, .rw, .s, 0⟩
  | .SQ_ENTRY_ODD => ⟨.SQ_ENTRY_ODD, .seq, 0x10, 4, 4, 16, 12, .rw, .s, 0⟩
  | .SQ_IVEC_IVEC => ⟨.SQ_IVEC_IVEC, .seq, 0x20, 1, 4, 0, 12, .rw, .k, 0⟩
  | .SQ_RESUME_ADDR => ⟨.SQ_RESUME_ADDR, .seq, 0x24, 1, 4, 0, 12, .ro, .ro, 0⟩
  | .SQ_ESHADOW_ENTRY => ⟨.SQ_ESHADOW_ENTRY, .seq, 0x30, 4, 4, 0, 32, .ro, .ro, 0⟩
  | .SQ_LIVE_PAGES => ⟨.SQ_LIVE_PAGES, .seq, 0x40, 2, 4, 0, 32, .rw, .l, 0⟩
  | .SQ_OUT_VALUE => ⟨.SQ_OUT_VALUE, .seq, 0x80, 8, 4, 0, 32, .ro, .ro, 0⟩
  | .SQ_UFLAG_FLAGS => ⟨.SQ_UFLAG_FLAGS, .seq, 0xa0, 1, 4, 0, 32, .w1c, .l, 0⟩
  | .SQ_UCNT_COUNT => ⟨.SQ_UCNT_COUNT, .seq, 0xc0, 8, 4, 0, 32, .ro, .ro, 0⟩
  | .SQ_MBOX_CODE => ⟨.SQ_MBOX_CODE, .seq, 0xe0, 1, 4, 0, 8, .ro, .ro, 0⟩
  | .SQ_MBOX_VALID => ⟨.SQ_MBOX_VALID, .seq, 0xe0, 1, 4, 8, 1, .ro, .ro, 0⟩
  | .SQ_MBOXD_DATA => ⟨.SQ_MBOXD_DATA, .seq, 0xe4, 1, 4, 0, 32, .ro, .ro, 0⟩
  | .SQ_REQ_QUEUED => ⟨.SQ_REQ_QUEUED, .seq, 0xf0, 1, 4, 0, 6, .ro, .ro, 0⟩
  | .SQ_CNT_ABANDONS => ⟨.SQ_CNT_ABANDONS, .seq, 0xf4, 1, 4, 0, 16, .ro, .ro, 0⟩
  | .SQ_CNT_DEFERRED => ⟨.SQ_CNT_DEFERRED, .seq, 0xf4, 1, 4, 16, 16, .ro, .ro, 0⟩
  -- Bureau cluster control (R399)
  | .BURn_CTRL_RETIRE => ⟨.BURn_CTRL_RETIRE, .bureau, 0x0, 1, 4, 0, 4, .wo, .l, 0⟩
  | .BURn_CTRL_UNRETIRE => ⟨.BURn_CTRL_UNRETIRE, .bureau, 0x0, 1, 4, 4, 4, .wo, .l, 0⟩
  | .BURn_STAT_STATE => ⟨.BURn_STAT_STATE, .bureau, 0x4, 1, 4, 0, 8, .ro, .ro, 0⟩
  | .BURn_STAT_CAUSE_LAST => ⟨.BURn_STAT_CAUSE_LAST, .bureau, 0x4, 1, 4, 8, 4, .ro, .ro, 0⟩
  | .BURn_STAT_CORE_RET => ⟨.BURn_STAT_CORE_RET, .bureau, 0x4, 1, 4, 12, 1, .w1c, .l, 0⟩
  | .BURn_STAT_WDOG => ⟨.BURn_STAT_WDOG, .bureau, 0x4, 1, 4, 13, 1, .w1c, .l, 0⟩
  | .BURn_STAT_L2_OFF => ⟨.BURn_STAT_L2_OFF, .bureau, 0x4, 1, 4, 14, 1, .ro, .ro, 0⟩
  | .BURn_STAT_CFG_LOCKED => ⟨.BURn_STAT_CFG_LOCKED, .bureau, 0x4, 1, 4, 15, 1, .w1c, .l, 0⟩
  | .BURn_WDOG_MS => ⟨.BURn_WDOG_MS, .bureau, 0x8, 1, 4, 0, 12, .rw, .l, 0xa⟩
  | .BURn_CNT_WDOG_EXP => ⟨.BURn_CNT_WDOG_EXP, .bureau, 0xc, 1, 4, 0, 16, .ro, .ro, 0⟩
  | .BURn_CNT_MIGRATE => ⟨.BURn_CNT_MIGRATE, .bureau, 0xc, 1, 4, 16, 16, .ro, .ro, 0⟩
  | .BURn_LOAD_BUSY => ⟨.BURn_LOAD_BUSY, .bureau, 0x10, 1, 4, 0, 32, .ro, .ro, 0⟩
  -- L2 cache (R419)
  | .L2n_CTRL_EN => ⟨.L2n_CTRL_EN, .l2, 0x1000, 1, 4, 0, 1, .rw, .l, 0⟩
  | .L2n_CTRL_PF_EN => ⟨.L2n_CTRL_PF_EN, .l2, 0x1000, 1, 4, 1, 1, .rw, .l, 1⟩
  | .L2n_CTRL_PF_DIST => ⟨.L2n_CTRL_PF_DIST, .l2, 0x1000, 1, 4, 2, 4, .rw, .l, 4⟩
  | .L2n_STAT_ENABLED => ⟨.L2n_STAT_ENABLED, .l2, 0x1004, 1, 4, 0, 1, .ro, .ro, 0⟩
  | .L2n_STAT_WALK => ⟨.L2n_STAT_WALK, .l2, 0x1004, 1, 4, 1, 1, .ro, .ro, 0⟩
  | .L2n_STAT_MDONE => ⟨.L2n_STAT_MDONE, .l2, 0x1004, 1, 4, 2, 1, .w1c, .l, 0⟩
  | .L2n_STAT_MERR => ⟨.L2n_STAT_MERR, .l2, 0x1004, 1, 4, 3, 1, .w1c, .l, 0⟩
  | .L2n_STAT_CFG_LOCKED => ⟨.L2n_STAT_CFG_LOCKED, .l2, 0x1004, 1, 4, 4, 1, .w1c, .l, 0⟩
  | .L2n_STAT_DIRTY => ⟨.L2n_STAT_DIRTY, .l2, 0x1004, 1, 4, 5, 15, .ro, .ro, 0⟩
  | .L2n_MAINT_OP => ⟨.L2n_MAINT_OP, .l2, 0x1008, 1, 4, 0, 2, .rw, .l, 0⟩
  | .L2n_MAINT_BY => ⟨.L2n_MAINT_BY, .l2, 0x1008, 1, 4, 2, 1, .rw, .l, 0⟩
  | .L2n_MAINT_GO => ⟨.L2n_MAINT_GO, .l2, 0x1008, 1, 4, 3, 1, .wo, .l, 0⟩
  | .L2n_MAINT_SET => ⟨.L2n_MAINT_SET, .l2, 0x1008, 1, 4, 4, 10, .rw, .l, 0⟩
  | .L2n_MAINT_WAY => ⟨.L2n_MAINT_WAY, .l2, 0x1008, 1, 4, 14, 4, .rw, .l, 0⟩
  | .L2n_MADDRLO_ADDR => ⟨.L2n_MADDRLO_ADDR, .l2, 0x100c, 1, 4, 6, 26, .rw, .l, 0⟩
  | .L2n_MADDRHI_ADDR => ⟨.L2n_MADDRHI_ADDR, .l2, 0x1010, 1, 4, 0, 16, .rw, .l, 0⟩
  | .L2n_MCOUNT_LINES => ⟨.L2n_MCOUNT_LINES, .l2, 0x1014, 1, 4, 0, 16, .rw, .l, 1⟩
  | .L2n_WALKT_NS => ⟨.L2n_WALKT_NS, .l2, 0x1018, 1, 4, 0, 32, .ro, .ro, 0⟩
  | .L2n_CNT0_HITS => ⟨.L2n_CNT0_HITS, .l2, 0x1020, 1, 4, 0, 32, .ro, .ro, 0⟩
  | .L2n_CNT1_MISSES => ⟨.L2n_CNT1_MISSES, .l2, 0x1024, 1, 4, 0, 32, .ro, .ro, 0⟩
  | .L2n_CNT2_PF_USED => ⟨.L2n_CNT2_PF_USED, .l2, 0x1028, 1, 4, 0, 16, .ro, .ro, 0⟩
  | .L2n_CNT2_PF_DROP => ⟨.L2n_CNT2_PF_DROP, .l2, 0x1028, 1, 4, 16, 16, .ro, .ro, 0⟩
  | .L2n_RAT_BASE_BASE => ⟨.L2n_RAT_BASE_BASE, .l2, 0x1040, 16, 16, 0, 32, .rw, .k, 0⟩
  | .L2n_RAT_LIMIT_LIMIT => ⟨.L2n_RAT_LIMIT_LIMIT, .l2, 0x1044, 16, 16, 0, 32, .rw, .k, 0⟩
  | .L2n_RAT_CTL_POL => ⟨.L2n_RAT_CTL_POL, .l2, 0x1048, 16, 16, 0, 2, .rw, .k, 3⟩
  | .L2n_RAT_CTL_VALID => ⟨.L2n_RAT_CTL_VALID, .l2, 0x1048, 16, 16, 2, 1, .rw, .l, 0⟩
  -- memory-integrity counters (R420)
  | .MI_OVF0_OVF => ⟨.MI_OVF0_OVF, .mi, 0x0, 1, 4, 0, 32, .ro, .ro, 0⟩
  | .MI_OVF1_OVF => ⟨.MI_OVF1_OVF, .mi, 0x4, 1, 4, 0, 16, .ro, .ro, 0⟩
  | .MI_DIAG_ALO_ADDR => ⟨.MI_DIAG_ALO_ADDR, .mi, 0x10, 1, 4, 3, 29, .rw, .l, 0⟩
  | .MI_DIAG_AHI_ADDR => ⟨.MI_DIAG_AHI_ADDR, .mi, 0x14, 1, 4, 0, 16, .rw, .l, 0⟩
  | .MI_DIAG_DLO_DATA => ⟨.MI_DIAG_DLO_DATA, .mi, 0x18, 1, 4, 0, 32, .rw, .l, 0⟩
  | .MI_DIAG_DHI_DATA => ⟨.MI_DIAG_DHI_DATA, .mi, 0x1c, 1, 4, 0, 32, .rw, .l, 0⟩
  | .MI_DIAG_CHK_CHK => ⟨.MI_DIAG_CHK_CHK, .mi, 0x20, 1, 4, 0, 8, .rw, .l, 0⟩
  | .MI_DIAG_CMD_RAWRD => ⟨.MI_DIAG_CMD_RAWRD, .mi, 0x24, 1, 4, 0, 1, .wo, .l, 0⟩
  | .MI_DIAG_CMD_RAWWR => ⟨.MI_DIAG_CMD_RAWWR, .mi, 0x24, 1, 4, 1, 1, .wo, .l, 0⟩
  | .MI_DIAG_CMD_DONE => ⟨.MI_DIAG_CMD_DONE, .mi, 0x24, 1, 4, 2, 1, .w1c, .l, 0⟩
  | .MI_DIAG_CMD_CFG_LOCKED => ⟨.MI_DIAG_CMD_CFG_LOCKED, .mi, 0x24, 1, 4, 3, 1, .w1c, .l, 0⟩
  | .MI_WLOST_RANGES => ⟨.MI_WLOST_RANGES, .mi, 0x30, 1, 4, 0, 13, .ro, .ro, 0⟩
  | .MI_WLOST_MERGED => ⟨.MI_WLOST_MERGED, .mi, 0x30, 1, 4, 13, 1, .w1c, .l, 0⟩
  | .MI_I_CFG_DEPTH => ⟨.MI_I_CFG_DEPTH, .mi, 0x100, 48, 32, 0, 8, .rw, .l, 0x10⟩
  | .MI_I_CFG_LEAK => ⟨.MI_I_CFG_LEAK, .mi, 0x100, 48, 32, 8, 16, .rw, .l, 0x3e8⟩
  | .MI_I_CFG_INIT_MODE => ⟨.MI_I_CFG_INIT_MODE, .mi, 0x100, 48, 32, 24, 1, .rw, .l, 1⟩
  | .MI_I_CFG_FILL => ⟨.MI_I_CFG_FILL, .mi, 0x100, 48, 32, 25, 1, .wo, .l, 0⟩
  | .MI_I_STAT_LEVEL => ⟨.MI_I_STAT_LEVEL, .mi, 0x104, 48, 32, 0, 8, .ro, .ro, 0⟩
  | .MI_I_STAT_OVF => ⟨.MI_I_STAT_OVF, .mi, 0x104, 48, 32, 8, 1, .w1c, .l, 0⟩
  | .MI_I_STAT_UE => ⟨.MI_I_STAT_UE, .mi, 0x104, 48, 32, 9, 1, .w1c, .l, 0⟩
  | .MI_I_STAT_POISON => ⟨.MI_I_STAT_POISON, .mi, 0x104, 48, 32, 10, 1, .w1c, .l, 0⟩
  | .MI_I_STAT_FILL_BUSY => ⟨.MI_I_STAT_FILL_BUSY, .mi, 0x104, 48, 32, 11, 1, .ro, .ro, 0⟩
  | .MI_I_CE_COUNT => ⟨.MI_I_CE_COUNT, .mi, 0x108, 48, 32, 0, 32, .ro, .ro, 0⟩
  | .MI_I_UE_UE => ⟨.MI_I_UE_UE, .mi, 0x10c, 48, 32, 0, 16, .ro, .ro, 0⟩
  | .MI_I_UE_POISONED => ⟨.MI_I_UE_POISONED, .mi, 0x10c, 48, 32, 16, 16, .ro, .ro, 0⟩
  | .MI_I_ALO_ADDR => ⟨.MI_I_ALO_ADDR, .mi, 0x110, 48, 32, 0, 32, .ro, .ro, 0⟩
  | .MI_I_AHI_ADDR => ⟨.MI_I_AHI_ADDR, .mi, 0x114, 48, 32, 0, 16, .ro, .ro, 0⟩
  | .MI_I_AHI_SYND => ⟨.MI_I_AHI_SYND, .mi, 0x114, 48, 32, 16, 8, .ro, .ro, 0⟩
  | .MI_I_AHI_KIND => ⟨.MI_I_AHI_KIND, .mi, 0x114, 48, 32, 24, 1, .ro, .ro, 0⟩
  -- SCB memory scrub (R421)
  | .SCB_MS_CTRL_EN => ⟨.SCB_MS_CTRL_EN, .scbms, 0x0, 1, 4, 0, 1, .rw, .l, 1⟩
  | .SCB_MS_CFG_SRAM_S => ⟨.SCB_MS_CFG_SRAM_S, .scbms, 0x4, 1, 4, 0, 12, .rw, .l, 0x3c⟩
  | .SCB_MS_CFG_DDR_H => ⟨.SCB_MS_CFG_DDR_H, .scbms, 0x4, 1, 4, 12, 10, .rw, .l, 0x18⟩
  | .SCB_MS_CFG_CHEST_H => ⟨.SCB_MS_CFG_CHEST_H, .scbms, 0x4, 1, 4, 22, 10, .rw, .l, 0xa8⟩
  | .SCB_MS_CNT0_FIXED => ⟨.SCB_MS_CNT0_FIXED, .scbms, 0x8, 1, 4, 0, 16, .ro, .ro, 0⟩
  | .SCB_MS_CNT0_POISONED => ⟨.SCB_MS_CNT0_POISONED, .scbms, 0x8, 1, 4, 16, 16, .ro, .ro, 0⟩
  | .SCB_MS_CNT1_SRAM_PASS => ⟨.SCB_MS_CNT1_SRAM_PASS, .scbms, 0xc, 1, 4, 0, 16, .ro, .ro, 0⟩
  | .SCB_MS_CNT1_DDR_PASS => ⟨.SCB_MS_CNT1_DDR_PASS, .scbms, 0xc, 1, 4, 16, 16, .ro, .ro, 0⟩
  -- power-domain control (R437)
  | .PWR_CTRL_AUTOSPIN => ⟨.PWR_CTRL_AUTOSPIN, .pwr, 0x0, 1, 4, 0, 1, .rw, .l, 1⟩
  | .PWR_CTRL_AUTODORM => ⟨.PWR_CTRL_AUTODORM, .pwr, 0x0, 1, 4, 1, 1, .rw, .l, 0⟩
  | .PWR_CTRL_SPIN_ON_IO => ⟨.PWR_CTRL_SPIN_ON_IO, .pwr, 0x0, 1, 4, 2, 1, .rw, .l, 1⟩
  | .PWR_STAT_MODE => ⟨.PWR_STAT_MODE, .pwr, 0x4, 1, 4, 0, 3, .ro, .ro, 1⟩
  | .PWR_STAT_SUB => ⟨.PWR_STAT_SUB, .pwr, 0x4, 1, 4, 3, 2, .ro, .ro, 0⟩
  | .PWR_STAT_DEGR => ⟨.PWR_STAT_DEGR, .pwr, 0x4, 1, 4, 5, 5, .ro, .ro, 0⟩
  | .PWR_STAT_CFG_LOCKED => ⟨.PWR_STAT_CFG_LOCKED, .pwr, 0x4, 1, 4, 10, 1, .w1c, .l, 0⟩
  | .PWR_STAT_REFUSED => ⟨.PWR_STAT_REFUSED, .pwr, 0x4, 1, 4, 11, 1, .w1c, .l, 0⟩
  | .PWR_STAT_RET_INCOMPLETE => ⟨.PWR_STAT_RET_INCOMPLETE, .pwr, 0x4, 1, 4, 12, 1, .rws, .l, 0⟩
  | .PWR_TIME_DORM_S => ⟨.PWR_TIME_DORM_S, .pwr, 0x8, 1, 4, 0, 16, .rw, .l, 0x3c⟩
  | .PWR_TIME_IDLE_MS => ⟨.PWR_TIME_IDLE_MS, .pwr, 0x8, 1, 4, 16, 16, .rw, .l, 0x64⟩
  | .PWR_STRLOST_LOST => ⟨.PWR_STRLOST_LOST, .pwr, 0xc, 1, 4, 0, 4, .ro, .ro, 0⟩
  | .PWR_STRLOST_CLR => ⟨.PWR_STRLOST_CLR, .pwr, 0xc, 1, 4, 4, 4, .wo, .l, 0⟩
  | .PWR_RETCFG_RET_GAP => ⟨.PWR_RETCFG_RET_GAP, .pwr, 0x10, 1, 4, 0, 8, .rw, .l, 0xa⟩
  | .PWR_RETCFG_VM_HARV => ⟨.PWR_RETCFG_VM_HARV, .pwr, 0x10, 1, 4, 8, 8, .rw, .l, 0x5a⟩
  | .PWR_RETCFG_VM_RETMIN => ⟨.PWR_RETCFG_VM_RETMIN, .pwr, 0x10, 1, 4, 16, 8, .rw, .l, 0x2d⟩
  | .PWR_RETCFG_INRUSH => ⟨.PWR_RETCFG_INRUSH, .pwr, 0x10, 1, 4, 24, 8, .rw, .l, 0x32⟩
  | .PWR_RETLOG_BEGUN => ⟨.PWR_RETLOG_BEGUN, .pwr, 0x14, 1, 4, 0, 4, .ro, .ro, 0⟩
  | .PWR_RETLOG_PARKED => ⟨.PWR_RETLOG_PARKED, .pwr, 0x14, 1, 4, 4, 4, .ro, .ro, 0⟩
  | .PWR_RETLOG_LAST_MS => ⟨.PWR_RETLOG_LAST_MS, .pwr, 0x14, 1, 4, 8, 16, .ro, .ro, 0⟩
  | .PWR_RETLOG_VM_MIN => ⟨.PWR_RETLOG_VM_MIN, .pwr, 0x14, 1, 4, 24, 8, .ro, .ro, 0⟩
  | .PWR_DOMREQ_ON => ⟨.PWR_DOMREQ_ON, .pwr, 0x20, 3, 4, 0, 32, .rw, .l, 0xffffffff⟩
  | .PWR_DOMSTAT_ON => ⟨.PWR_DOMSTAT_ON, .pwr, 0x30, 3, 4, 0, 32, .ro, .ro, 0xffffffff⟩
  | .PWR_DOMERR_DOM => ⟨.PWR_DOMERR_DOM, .pwr, 0x40, 1, 4, 0, 7, .ro, .ro, 0⟩
  -- Sideboard (R438)
  | .SB_CFG0_UV12 => ⟨.SB_CFG0_UV12, .sideboard, 0x0, 1, 4, 0, 8, .rw, .l, 0x66⟩
  | .SB_CFG0_UV5 => ⟨.SB_CFG0_UV5, .sideboard, 0x0, 1, 4, 8, 8, .rw, .l, 0x55⟩
  | .SB_CFG0_UV_DEB => ⟨.SB_CFG0_UV_DEB, .sideboard, 0x0, 1, 4, 16, 8, .rw, .l, 0x32⟩
  | .SB_CFG1_SHK_TH => ⟨.SB_CFG1_SHK_TH, .sideboard, 0x4, 1, 4, 0, 6, .rw, .l, 0x20⟩
  | .SB_CFG1_SHK_EN0 => ⟨.SB_CFG1_SHK_EN0, .sideboard, 0x4, 1, 4, 6, 1, .rw, .l, 1⟩
  | .SB_CFG1_SHK_EN1 => ⟨.SB_CFG1_SHK_EN1, .sideboard, 0x4, 1, 4, 7, 1, .rw, .l, 1⟩
  | .SB_CFG1_SHK_HOLD => ⟨.SB_CFG1_SHK_HOLD, .sideboard, 0x4, 1, 4, 8, 12, .rw, .l, 0x1f4⟩
  | .SB_WAKE_EN => ⟨.SB_WAKE_EN, .sideboard, 0x8, 1, 4, 0, 5, .rw, .l, 0x1f⟩
  | .SB_WAKE_TW_TH => ⟨.SB_WAKE_TW_TH, .sideboard, 0x8, 1, 4, 8, 8, .rw, .l, 0x55⟩
  | .SB_STAT_V12_OK => ⟨.SB_STAT_V12_OK, .sideboard, 0xc, 1, 4, 0, 1, .ro, .ro, 0⟩
  | .SB_STAT_V5_OK => ⟨.SB_STAT_V5_OK, .sideboard, 0xc, 1, 4, 1, 1, .ro, .ro, 0⟩
  | .SB_STAT_PWRLOSS => ⟨.SB_STAT_PWRLOSS, .sideboard, 0xc, 1, 4, 2, 1, .w1c, .l, 0⟩
  | .SB_STAT_SHOCK => ⟨.SB_STAT_SHOCK, .sideboard, 0xc, 1, 4, 3, 1, .w1c, .l, 0⟩
  | .SB_STAT_WSRC => ⟨.SB_STAT_WSRC, .sideboard, 0xc, 1, 4, 4, 3, .ro, .ro, 0⟩
  | .SB_STAT_CAPO_ACT => ⟨.SB_STAT_CAPO_ACT, .sideboard, 0xc, 1, 4, 7, 1, .w1c, .l, 0⟩
  | .SB_RTC_SEC => ⟨.SB_RTC_SEC, .sideboard, 0x10, 1, 4, 0, 32, .rw, .l, 0⟩
  | .SB_ALARM_SEC => ⟨.SB_ALARM_SEC, .sideboard, 0x14, 1, 4, 0, 32, .rw, .l, 0⟩
  | .SB_CNT_PWRLOSS => ⟨.SB_CNT_PWRLOSS, .sideboard, 0x18, 1, 4, 0, 16, .ro, .ro, 0⟩
  | .SB_CNT_SHOCK => ⟨.SB_CNT_SHOCK, .sideboard, 0x18, 1, 4, 16, 16, .ro, .ro, 0⟩
  -- CAL and shared Pegs (R454)
  | .CAL_CTRL_ABORT => ⟨.CAL_CTRL_ABORT, .cal, 0x0, 1, 4, 0, 1, .wo, .l, 0⟩
  | .CAL_STAT_BUSY => ⟨.CAL_STAT_BUSY, .cal, 0x4, 1, 4, 0, 1, .ro, .ro, 0⟩
  | .CAL_STAT_SCRIPT => ⟨.CAL_STAT_SCRIPT, .cal, 0x4, 1, 4, 1, 8, .ro, .ro, 0⟩
  | .CAL_STAT_STRING => ⟨.CAL_STAT_STRING, .cal, 0x4, 1, 4, 9, 4, .ro, .ro, 0⟩
  | .CAL_STAT_REXT_BAD => ⟨.CAL_STAT_REXT_BAD, .cal, 0x4, 1, 4, 13, 1, .ro, .ro, 0⟩
  | .CAL_STAT_CFG_LOCKED => ⟨.CAL_STAT_CFG_LOCKED, .cal, 0x4, 1, 4, 14, 1, .w1c, .l, 0⟩
  | .CAL_STAT_DONE => ⟨.CAL_STAT_DONE, .cal, 0x4, 1, 4, 15, 1, .w1c, .l, 0⟩
  | .CAL_STAT_RESULT => ⟨.CAL_STAT_RESULT, .cal, 0x4, 1, 4, 16, 16, .ro, .ro, 0⟩
  | .CAL_TD_TD_STEP => ⟨.CAL_TD_TD_STEP, .cal, 0x8, 1, 4, 0, 8, .rw, .k, 5⟩
  | .CAL_TD_TD_FLAT => ⟨.CAL_TD_TD_FLAT, .cal, 0x8, 1, 4, 8, 8, .rw, .k, 0x20⟩
  | .CAL_TD_TD_PES => ⟨.CAL_TD_TD_PES, .cal, 0x8, 1, 4, 16, 8, .rw, .k, 0xa⟩
  | .CAL_BO_BO_RD => ⟨.CAL_BO_BO_RD, .cal, 0xc, 1, 4, 0, 10, .rw, .k, 0x64⟩
  | .CAL_BO_BO_WIDLE => ⟨.CAL_BO_BO_WIDLE, .cal, 0xc, 1, 4, 10, 10, .rw, .k, 0x50⟩
  | .CAL_BO_BO_WR => ⟨.CAL_BO_BO_WR, .cal, 0xc, 1, 4, 20, 10, .rw, .k, 0x32⟩
  | .CAL_SCH_SCRIPT => ⟨.CAL_SCH_SCRIPT, .cal, 0x40, 8, 4, 0, 8, .rw, .l, 0⟩
  | .CAL_SCH_PERIOD => ⟨.CAL_SCH_PERIOD, .cal, 0x40, 8, 4, 8, 12, .rw, .l, 0⟩
  | .CAL_SCH_TDELTA => ⟨.CAL_SCH_TDELTA, .cal, 0x40, 8, 4, 20, 8, .rw, .l, 0⟩
  | .CAL_SCH_EN => ⟨.CAL_SCH_EN, .cal, 0x40, 8, 4, 28, 1, .rw, .l, 0⟩
  | .CAL_PEG_T_TARGET => ⟨.CAL_PEG_T_TARGET, .cal, 0x8000, 12, 8, 0, 10, .rw, .l, 0⟩
  | .CAL_PEG_V_VALUE => ⟨.CAL_PEG_V_VALUE, .cal, 0x8004, 12, 8, 0, 10, .ro, .ro, 0⟩
  -- thermal sensors (R456)
  | .THR_CTRL_L_MIN => ⟨.THR_CTRL_L_MIN, .thermal, 0x0, 1, 4, 0, 4, .rw, .l, 0⟩
  | .THR_STAT_TJ => ⟨.THR_STAT_TJ, .thermal, 0x4, 1, 4, 0, 12, .ro, .ro, 0⟩
  | .THR_STAT_LEVEL => ⟨.THR_STAT_LEVEL, .thermal, 0x4, 1, 4, 12, 4, .ro, .ro, 0⟩
  | .THR_STAT_WARN => ⟨.THR_STAT_WARN, .thermal, 0x4, 1, 4, 16, 1, .ro, .ro, 0⟩
  | .THR_STAT_THROT => ⟨.THR_STAT_THROT, .thermal, 0x4, 1, 4, 17, 1, .ro, .ro, 0⟩
  | .THR_STAT_SHUT => ⟨.THR_STAT_SHUT, .thermal, 0x4, 1, 4, 18, 1, .ro, .ro, 0⟩
  | .THR_STAT_CFG_LOCKED => ⟨.THR_STAT_CFG_LOCKED, .thermal, 0x4, 1, 4, 19, 1, .w1c, .l, 0⟩
  | .THR_STAT_SNS_BAD => ⟨.THR_STAT_SNS_BAD, .thermal, 0x4, 1, 4, 20, 12, .ro, .ro, 0⟩
  | .THR_HEAD_HT_LIM_A => ⟨.THR_HEAD_HT_LIM_A, .thermal, 0x8, 1, 4, 0, 8, .rw, .l, 0x82⟩
  | .THR_HEAD_HT_LIM_B => ⟨.THR_HEAD_HT_LIM_B, .thermal, 0x8, 1, 4, 8, 8, .rw, .l, 0x82⟩
  | .THR_HEAD_HT_LIM_C => ⟨.THR_HEAD_HT_LIM_C, .thermal, 0x8, 1, 4, 16, 8, .rw, .l, 0x82⟩
  | .THR_HEAD_HT_LIM_D => ⟨.THR_HEAD_HT_LIM_D, .thermal, 0x8, 1, 4, 24, 8, .rw, .l, 0x82⟩
  | .THR_SNS_T => ⟨.THR_SNS_T, .thermal, 0x10, 12, 4, 0, 12, .ro, .ro, 0⟩
  | .THR_CNT_STEPS => ⟨.THR_CNT_STEPS, .thermal, 0x40, 1, 4, 0, 16, .ro, .ro, 0⟩
  | .THR_CNT_SHUTDOWNS => ⟨.THR_CNT_SHUTDOWNS, .thermal, 0x40, 1, 4, 16, 16, .ro, .ro, 0⟩
  -- identity, fuses and life cycle (R473)
  | .LC_STAT_STATE => ⟨.LC_STAT_STATE, .identity, 0x0, 1, 4, 0, 3, .ro, .ro, 0⟩
  | .LC_STAT_RETCNT => ⟨.LC_STAT_RETCNT, .identity, 0x0, 1, 4, 3, 3, .ro, .ro, 0⟩
  | .LC_STAT_REFIELD => ⟨.LC_STAT_REFIELD, .identity, 0x0, 1, 4, 6, 2, .ro, .ro, 0⟩
  | .LC_STAT_CHAL_LIVE => ⟨.LC_STAT_CHAL_LIVE, .identity, 0x0, 1, 4, 8, 1, .ro, .ro, 0⟩
  | .LC_STAT_DENIED => ⟨.LC_STAT_DENIED, .identity, 0x0, 1, 4, 9, 1, .w1c, .l, 0⟩
  | .LC_STAT_PEND => ⟨.LC_STAT_PEND, .identity, 0x0, 1, 4, 10, 1, .ro, .ro, 0⟩
  | .LC_VAR_VARIANT => ⟨.LC_VAR_VARIANT, .identity, 0x4, 1, 4, 0, 1, .ro, .ro, 0⟩
  | .LC_VAR_STEPPING => ⟨.LC_VAR_STEPPING, .identity, 0x4, 1, 4, 1, 4, .ro, .ro, 1⟩
  | .LC_PCIID_VID => ⟨.LC_PCIID_VID, .identity, 0x8, 1, 4, 0, 16, .ro, .ro, 0⟩
  | .LC_PCIID_SSVID => ⟨.LC_PCIID_SSVID, .identity, 0x8, 1, 4, 16, 16, .ro, .ro, 0⟩
  | .LC_DEVID_ID => ⟨.LC_DEVID_ID, .identity, 0x10, 4, 4, 0, 32, .ro, .ro, 0⟩
  | .LC_FWSVN_SVN => ⟨.LC_FWSVN_SVN, .identity, 0x20, 1, 4, 0, 32, .ro, .ro, 0⟩
  | .LC_BOOT_SLOT => ⟨.LC_BOOT_SLOT, .identity, 0x24, 1, 4, 0, 1, .ro, .ro, 0⟩
  | .LC_BOOT_FALLBACK => ⟨.LC_BOOT_FALLBACK, .identity, 0x24, 1, 4, 1, 1, .ro, .ro, 0⟩
  | .LC_BOOT_RECOVERY => ⟨.LC_BOOT_RECOVERY, .identity, 0x24, 1, 4, 2, 1, .ro, .ro, 0⟩
  | .LC_KEYH_HASH => ⟨.LC_KEYH_HASH, .identity, 0x100, 80, 4, 0, 32, .ro, .ro, 0⟩
  -- Bench debug access (R474)
  | .BNCH_STAT_SESSION => ⟨.BNCH_STAT_SESSION, .bench, 0x0, 1, 4, 0, 1, .ro, .ro, 0⟩
  | .BNCH_STAT_DENIED => ⟨.BNCH_STAT_DENIED, .bench, 0x0, 1, 4, 1, 1, .w1c, .l, 0⟩
  | .BNCH_STAT_BSCAN_BLK => ⟨.BNCH_STAT_BSCAN_BLK, .bench, 0x0, 1, 4, 2, 1, .w1c, .l, 0⟩
  | .BNCH_STAT_KEYRD => ⟨.BNCH_STAT_KEYRD, .bench, 0x0, 1, 4, 3, 1, .w1c, .l, 0⟩
  | .BNCH_STAT_MATCH => ⟨.BNCH_STAT_MATCH, .bench, 0x0, 1, 4, 4, 1, .ro, .ro, 0⟩
  | .BNCH_STAT_SKIPX => ⟨.BNCH_STAT_SKIPX, .bench, 0x0, 1, 4, 5, 1, .w1c, .l, 0⟩
  | .BNCH_STAT_HALTED => ⟨.BNCH_STAT_HALTED, .bench, 0x0, 1, 4, 6, 16, .ro, .ro, 0⟩
  | .BNCH_CFG_IDLE_MIN => ⟨.BNCH_CFG_IDLE_MIN, .bench, 0x4, 1, 4, 0, 12, .rw, .k, 0x1e⟩
  | .BNCH_CNT_OPENS => ⟨.BNCH_CNT_OPENS, .bench, 0x8, 1, 4, 0, 16, .ro, .ro, 0⟩
  | .BNCH_CNT_REFUSED => ⟨.BNCH_CNT_REFUSED, .bench, 0x8, 1, 4, 16, 16, .ro, .ro, 0⟩
  -- Pegs of a String (R440)
  | .PEGx_T_TARGET => ⟨.PEGx_T_TARGET, .peg, 0x0, 12, 8, 0, 10, .rw, .l, 0⟩
  | .PEGx_V_VALUE => ⟨.PEGx_V_VALUE, .peg, 0x4, 12, 8, 0, 10, .ro, .ro, 0⟩

/-- The register fields of one block, in the order of its register map. -/
def Blk.regs : Blk → List Reg
  | .fabric => [.FAB_ERR_STAT_ERR, .FAB_ERR_STAT_OVF, .FAB_ERR_STAT_KIND, .FAB_ERR_ADDR_ADDR_LO, .FAB_ERR_SRC_ADDR_HI,
      .FAB_ERR_SRC_REQ, .FAB_ERR_SRC_WR]
  | .fret => [.FRET_CTRL_REMEAS, .FRET_CTRL_DRIFT_TOL, .FRET_STAT_VALID, .FRET_STAT_DRIFT, .FRET_STAT_REF, .FRET_STAT_NOREF,
      .FRET_PERIOD_PS, .FRET_SKEW_FRAC, .FRET_SKEW_WEDGE, .FRET_SKEWNS_NS]
  | .capo => [.CAPO_CTRL_ARM, .CAPO_CTRL_DISARM, .CAPO_CTRL_SRC, .CAPO_CTRL_EDGE, .CAPO_RATIO_M1, .CAPO_RATIO_N1,
      .CAPO_FRAME_FDIV1, .CAPO_AIN_CFG_THRESH, .CAPO_AIN_CFG_HYST, .CAPO_HOLD_MS, .CAPO_STAT_STATE, .CAPO_STAT_SLEW,
      .CAPO_STAT_WINH, .CAPO_STAT_LOSS, .CAPO_STAT_RANGE, .CAPO_STAT_GLITCH, .CAPO_STAT_CFG_LOCKED, .CAPO_STAT_SPE_FAULT,
      .CAPO_STAT_RATIO_REJ, .CAPO_REF_PERIOD, .CAPO_TARGET_UHZ, .CAPO_SETPT_UHZ, .CAPO_PHASE_ERR, .CAPO_PHASE_WEDGE,
      .CAPO_FRAMECNT_COUNT, .CAPO_GLITCHCNT_COUNT, .CAPO_SHADOW_RATIO]
  | .spe => [.SPE_CTRL_START, .SPE_CTRL_STOP, .SPE_CTRL_STOPMODE, .SPE_CTRL_CATCH_EN, .SPE_CTRL_BRK_RES, .SPE_SETPT_RPM,
      .SPE_RAMP_ACC, .SPE_RAMP_SPD_TOL, .SPE_ILIM_RUN_ILIM, .SPE_ILIM_BRK_ILIM, .SPE_ILIM_ALIGN_I, .SPE_ILIM_START_I,
      .SPE_START_ALIGN_MS, .SPE_START_HANDOVER, .SPE_START_OL_ACC, .SPE_MOTOR_POLEPAIRS, .SPE_MOTOR_KE_NOM, .SPE_MOTOR_RPH,
      .SPE_PWM_DEADTIME, .SPE_PWM_SMP_MINW, .SPE_PWM_FLY_PCT, .SPE_FW_IDFW_MAX, .SPE_FW_VMARGIN, .SPE_BUS_VM_OV,
      .SPE_BUS_BRK_PMAX, .SPE_OC_OC_LIM, .SPE_STAT_STATE, .SPE_STAT_ATSPD, .SPE_STAT_DIR, .SPE_STAT_WINH, .SPE_STAT_TICKPRED,
      .SPE_STAT_KE_MISMATCH, .SPE_STAT_OBS_LOSS, .SPE_STAT_REACQ_OK, .SPE_STAT_OC_TRIP, .SPE_STAT_START_FAIL,
      .SPE_STAT_REGEN_CLAMP, .SPE_STAT_SKIP_LIM, .SPE_STAT_CFG_LOCKED, .SPE_STAT_SETPT_RANGE, .SPE_SPEED_MRPM, .SPE_KE_KE,
      .SPE_KE_VALID, .SPE_SKIPCNT_COUNT, .SPE_SHADOW_SETPT, .SPE_SHADOW_RUN_ILIM, .SPE_TICK_PERIOD, .SPE_COEF_COEF]
  | .sce => [.SCEx_CTRL_LOAD, .SCEx_CTRL_UNLOAD, .SCEx_CTRL_RETRACT, .SCEx_CTRL_BANK_SW, .SCEx_CTRL_OPT_EN,
      .SCEx_CTRL_CPL_ROUTE, .SCEx_STAT_STATE, .SCEx_STAT_PVALID, .SCEx_STAT_WINH, .SCEx_STAT_ACTBANK, .SCEx_STAT_FALLBACK,
      .SCEx_STAT_LOOP_OPEN, .SCEx_STAT_LOSTCNT, .SCEx_STAT_OVRCNT, .SCEx_STAT_OVR, .SCEx_STAT_SAT_VCM, .SCEx_STAT_SAT_MA,
      .SCEx_STAT_SAT_INT, .SCEx_STAT_PLAUS, .SCEx_STAT_RETRACTED, .SCEx_STAT_FB_PEND, .SCEx_STAT_CFG_LOCKED,
      .SCEx_STAT_SEEK_TO, .SCEx_STAT_LOAD_FAIL, .SCEx_STAT_CPL_STALE, .SCEx_STAT_FAULT, .SCEx_STAT_TGT_ERR,
      .SCEx_TARGET_TRACK, .SCEx_TARGET_HEAD, .SCEx_TOFFS_OFFS, .SCEx_THRESH_WF_TH, .SCEx_THRESH_RD_TH, .SCEx_THRESH_PLAUS_TH,
      .SCEx_THRESH_SETTLE_N, .SCEx_SEEK_V_MAX, .SCEx_SEEK_A_MAX, .SCEx_SEEK_J_MAX, .SCEx_ILIM_ISEEK_LIM, .SCEx_ILIM_RET_ILIM,
      .SCEx_RET_RET_VEL, .SCEx_RET_RET_MS, .SCEx_RET_LOAD_MS, .SCEx_RET_SETTLE_MAX, .SCEx_VCM_KB, .SCEx_VCM_RVCM,
      .SCEx_VCM_MA_LIM, .SCEx_PES_S0, .SCEx_VCMCMD_S30, .SCEx_MACMD_S31, .SCEx_CPLFF_S5, .SCEx_CYC_MAND, .SCEx_CYC_PEAK,
      .SCEx_LOSTTOT_COUNT, .SCEx_PRSAM_TIME, .SCEx_TGT_SHADOW_TRACK, .SCEx_TGT_SHADOW_HEAD, .SCEx_TGT_SHADOW_PEND,
      .SCEx_MISC_SHADOW_OFFS, .SCEx_MISC_SHADOW_OPT_EN, .SCEx_MISC_SHADOW_CPL_ROUTE, .SCEx_HEADS_HEADS, .SCEx_BANK0_TABLE,
      .SCEx_BANK1_TABLE, .SCEx_FALLBACK_TABLE]
  | .svd => [.SVDx_CTRL_ACQ, .SVDx_CTRL_IDLE, .SVDx_CTRL_GRAY_SUB, .SVDx_CTRL_RRO_EN, .SVDx_FMT0_CELLS, .SVDx_FMT0_PRE_LEN,
      .SVDx_FMT0_SAM_LEN, .SVDx_FMT1_SAM_PAT, .SVDx_FMT1_SAM_TOL, .SVDx_FMT1_SAM_WIN, .SVDx_FMT1_SAMW_TOL,
      .SVDx_FMT2_GRAY_OFF, .SVDx_FMT2_WNUM_OFF, .SVDx_FMT2_NB_OFF, .SVDx_FMT3_QB_OFF, .SVDx_FMT3_RRO_OFF, .SVDx_FMT3_BOUND,
      .SVDx_FMT4_TRK_BITS, .SVDx_FMT4_CPB, .SVDx_FMT4_BURST_LEN, .SVDx_FMT4_BURST_PER, .SVDx_FMT4_BURST_MIN,
      .SVDx_FMT5_SYNC_N, .SVDx_FMT5_SYNC_LOSS, .SVDx_HRDR_SRV_RDR, .SVDx_HRDR_RDR_OFFS, .SVDx_HSKEW_HSKEW,
      .SVDx_STAT_SYNC_STATE, .SVDx_STAT_LAST_OK, .SVDx_STAT_CFG_LOCKED, .SVDx_STAT_SLIP, .SVDx_STAT_SAM_DUP,
      .SVDx_STAT_GRAY_SUBD, .SVDx_STAT_RRO_BAD, .SVDx_STAT_WNUM_FIX, .SVDx_STAT_SAM_OFF, .SVDx_STAT_FMT_VALID,
      .SVDx_STAT_LAST_CAUSE, .SVDx_STAT_WEDGE, .SVDx_TRK_T, .SVDx_FRAC_F, .SVDx_NQ_N, .SVDx_NQ_Q, .SVDx_RRO_VALUE,
      .SVDx_SAMDEV_DEV, .SVDx_CNT_MISSED, .SVDx_CNT_UNREAD, .SVDx_SHADOW_GRAY_SUB, .SVDx_SHADOW_RRO_EN, .SVDx_PREAMP_A_PRE]
  | .ae => [.AEx_CTRL_WR_ARM, .AEx_CTRL_ABORT_CLR, .AEx_CTRL_CAL_EN, .AEx_CTRL_FH_EN, .AEx_STAT_STATE, .AEx_STAT_HEAD,
      .AEx_STAT_INH, .AEx_STAT_LEDG_SOFT, .AEx_STAT_ASSIST_ABORT, .AEx_STAT_NUT_FAIL, .AEx_STAT_ARM_LAPSE,
      .AEx_STAT_CFG_LOCKED, .AEx_STAT_HTR_CLAMP, .AEx_STAT_LAS_CLAMP, .AEx_STAT_TD_HIT, .AEx_CFG_TYPE, .AEx_CFG_WARM_FRETS,
      .AEx_CFG_ARM_HOLD, .AEx_CFG_LEAK_SH, .AEx_CFG_FH_DIV, .AEx_ABORT_WEDGE, .AEx_ABORT_HEAD, .AEx_ABORT_CAUSE,
      .AEx_SHADOW_CTRL, .AEx_CALHTR_HTR, .AEx_H_LAS_LAS_WR, .AEx_H_LAS_LAS_IDLE, .AEx_H_LIM_LAS_MAX, .AEx_H_LIM_PW_LSB,
      .AEx_H_LIM_TC_LAS, .AEx_H_HTR_HTR_RD, .AEx_H_HTR_HTR_WIDLE, .AEx_H_HTR_HTR_WR, .AEx_H_HLIM_HTR_MAX, .AEx_H_HLIM_HTR_TC,
      .AEx_H_HLIM_HTR_CMAX, .AEx_H_HLIM_WC, .AEx_H_ECS_ECS_REF, .AEx_H_ECS_KI, .AEx_H_ECS_ECS_TD, .AEx_H_CAPS_LEDG_SOFT,
      .AEx_H_CAPS_LEDG_HARD, .AEx_H_LEDGER_NJ, .AEx_H_HSTAT_TEMP, .AEx_H_HSTAT_HCORR]
  | .nut => [.NUTx_CTRL_EN, .NUTx_CTRL_BG_GO, .NUTx_BGCMD_WR, .NUTx_BGCMD_HEAD, .NUTx_BGCMD_ADDR, .NUTx_BGDATA_DATA,
      .NUTx_BGRESP_DATA, .NUTx_STAT_BG_BUSY, .NUTx_STAT_BG_DONE, .NUTx_STAT_BG_ERR, .NUTx_STAT_WDOG, .NUTx_STAT_WFLT,
      .NUTx_STAT_CFG_LOCKED, .NUTx_CNT_CRC_ERR, .NUTx_CNT_NACK]
  | .rch => [.RCHx_CTRL_AGC_EN, .RCHx_CTRL_TIM_EN, .RCHx_CTRL_FIR_EN, .RCHx_CTRL_NP_EN, .RCHx_CTRL_DC_EN, .RCHx_CTRL_SAVE,
      .RCHx_CTRL_RESTORE, .RCHx_CTRL_PDMODE, .RCHx_CTRL_GLB_MAX, .RCHx_CTRL_LOC_MAX, .RCHx_CTRL_SLOT_RSV, .RCHx_CTRL_CAPTURE,
      .RCHx_STAT_PLL_LOCK, .RCHx_STAT_EQ_DIV, .RCHx_STAT_RATE_HI, .RCHx_STAT_RDR_LOW, .RCHx_STAT_SBUF_SLIP,
      .RCHx_STAT_ITER_LIM, .RCHx_STAT_CFG_LOCKED, .RCHx_STAT_SET_INV, .RCHx_STAT_CAP_BUSY, .RCHx_STAT_SET,
      .RCHx_STAT_SLOTS_FREE, .RCHx_STAT_PENDQ, .RCHx_ADAPT_AGC_MU_A, .RCHx_ADAPT_AGC_MU_T, .RCHx_ADAPT_TIM_KA,
      .RCHx_ADAPT_TIM_KT, .RCHx_ADAPT_FIR_MU, .RCHx_ADAPT_NP_MU, .RCHx_DIV_MSE_DIV, .RCHx_DIV_DIV_N, .RCHx_PD_PD_TH,
      .RCHx_PD_PD_ALT, .RCHx_RATE_BITRATE, .RCHx_MSE_LAST, .RCHx_SHADOW_CTRL, .RCHx_CNT0_SECTORS, .RCHx_CNT1_REDET,
      .RCHx_CNT1_ITER_LIM, .RCHx_CNT2_SBUF_SLIP, .RCHx_CNT2_PD_POL, .RCHx_AMP_A0, .RCHx_AMP_A1, .RCHx_AMP_A2, .RCHx_GAIN_G0,
      .RCHx_GAIN_G1, .RCHx_GAIN_G2, .RCHx_SLOT_BUSY, .RCHx_SRVGA_H0, .RCHx_SRVGA_H1, .RCHx_SRVGA_H2, .RCHx_SRVGA_H3,
      .RCHx_SRVGB_H4, .RCHx_SRVGB_H5, .RCHx_CAPCTL_CAP_GO, .RCHx_CAPCTL_CAP_MASK, .RCHx_CAPCTL_CAP_LEN,
      .RCHx_CAPRATE_CAP_RATE, .RCHx_FIR_TAP, .RCHx_NP_NP, .RCHx_SET_SET]
  | .harp => [.HARP_CTRL_SLIP_EN, .HARP_CTRL_SLIP_MAX, .HARP_CTRL_SLIP_ORD, .HARP_CTRL_SLIP_GLB, .HARP_CTRL_RETIRE,
      .HARP_CTRL_UNRETIRE, .HARP_CTRL_RLANE, .HARP_CTRL_BF_MAX, .HARP_STAT_INSVC, .HARP_STAT_AVAIL, .HARP_STAT_BELOW_FLOOR,
      .HARP_STAT_LANE_RETIRED, .HARP_STAT_STRIKE, .HARP_STAT_CHK_FAULT, .HARP_STAT_OVF, .HARP_STAT_CFG_LOCKED,
      .HARP_STAT_LBA_MISMATCH, .HARP_STAT_CHK_RET, .HARP_RETIRED_LANES, .HARP_WDRAWN_LANES, .HARP_GATED_LANES,
      .HARP_STRIKE0_COUNT, .HARP_STRIKE1_COUNT, .HARP_CNT0_CONFIRMED, .HARP_CNT1_STRIKES, .HARP_CNT1_RESTARTS,
      .HARP_CNT2_SLIP_OK, .HARP_CNT2_SLIP_FAIL, .HARP_CNT3_OVF, .HARP_CNT3_MISCLAIM, .HARP_SLIPHIST_P1, .HARP_SLIPHIST_P2,
      .HARP_SLIPHIST_P3, .HARP_SLIPHIST_P4, .HARP_SLIPHIST_N1, .HARP_SLIPHIST_N2, .HARP_SLIPHIST_N3, .HARP_SLIPHIST_N4,
      .HARP_LOG_LANE, .HARP_LOG_CAUSE, .HARP_LOGTIME_TIME, .HARP_SHADOW_CTRL, .HARP_HBASE_ENTRY]
  | .sfm => [.SFMx_SYNC0_SYNC_LO, .SFMx_SYNC1_SYNC_HI, .SFMx_SYNC1_SYNC_TOL, .SFMx_SYNC1_SYNC_WIN, .SFMx_FSYNC_FSYNC_PAT,
      .SFMx_FSYNC_FSYNC_TOL, .SFMx_FSYNC_FSYNC_WIN, .SFMx_STAT_SYNC_MISS, .SFMx_STAT_FSYNC_MISS, .SFMx_STAT_SYNC_ALT,
      .SFMx_STAT_SECT_PRED, .SFMx_STAT_CFG_LOCKED, .SFMx_LAST_OFFS, .SFMx_LAST_MISM, .SFMx_CNT_SYNC_MISS, .SFMx_CNT_SECT_PRED]
  | .wrp => [.WRPx_CTRL_EN, .WRPx_CTRL_PAR_EN, .WRPx_CTRL_ACC_CLR, .WRPx_CFG_FSTART, .WRPx_CFG_SGAP, .WRPx_CFG_PREFILL,
      .WRPx_STAT_GATE, .WRPx_STAT_RUN, .WRPx_STAT_RATE_HI, .WRPx_STAT_CUT, .WRPx_STAT_UNDERRUN, .WRPx_STAT_ENC_FAULT,
      .WRPx_STAT_CFG_LOCKED, .WRPx_STAT_FIFO, .WRPx_STAT_ACC_N, .WRPx_CNT0_SECTORS, .WRPx_CNT1_CUT, .WRPx_CNT1_UNDERRUN,
      .WRPx_CNT2_ENC_RETRY, .WRPx_CNT2_SQZ, .WRPx_SHADOW_PAR_EN, .WRPx_PREC_PRE1, .WRPx_PREC_PRE2, .WRPx_ACC_DATA]
  | .rld => [.RLDx_CFG_RETRY_N, .RLDx_CFG_OFF_STEP, .RLDx_CFG_REALLOC_RUNG, .RLDx_CFG_STREAM_RUNG, .RLDx_CFG_EXT_GLB,
      .RLDx_CFG_EXT_ALT, .RLDx_CFG_PAR_REV, .RLDx_EN_RUNG_EN, .RLDx_STAT_ACTIVE, .RLDx_STAT_WAITQ, .RLDx_STAT_SPARE_LOW,
      .RLDx_STAT_TLER_CUT, .RLDx_CNT0_RUNG1, .RLDx_CNT0_RUNG2, .RLDx_CNT1_RUNG3, .RLDx_CNT1_RUNG4, .RLDx_CNT2_RUNG5,
      .RLDx_CNT2_RUNG6, .RLDx_CNT3_RUNG7, .RLDx_CNT3_RUNG8, .RLDx_CNT4_FAIL, .RLDx_CNT4_REALLOC, .RLDx_SHADOW_CFG,
      .RLDx_SHADOW1_EN, .RLDx_LAST_RUNG, .RLDx_LASTLBA0_LBA_LO, .RLDx_LASTLBA1_LBA_HI]
  | .hqe => [.HQEn_CTRL_FN_EN, .HQEn_CTRL_FORCE_RST, .HQEn_CFG_MDTS, .HQEn_CFG_ZASL, .HQEn_CFG_NIOQ, .HQEn_CFG_SGL_EN,
      .HQEn_STAT_EN, .HQEn_STAT_RDY, .HQEn_STAT_CFS, .HQEn_STAT_SHST, .HQEn_STAT_LINK, .HQEn_STAT_CFG_LOCKED,
      .HQEn_STAT_RST_DONE, .HQEn_STAT_IOQ, .HQEn_OUT_OUTST, .HQEn_CNT0_FETCHED, .HQEn_CNT1_RESV_CONF, .HQEn_CNT1_PI_ERR,
      .HQEn_CNT2_NOT_READY, .HQEn_STRM_Q_SQID, .HQEn_STRM_Q_ARMED, .HQEn_STRM_Q_DIR, .HQEn_STRM_Q_SMASK, .HQEn_STRM_Q_DLF,
      .HQEn_STRM_BPF_BPF, .HQEn_STRM_AORD_AORD, .HQEn_STRM_CNT_MISS, .HQEn_STRM_CNT_SUSP]
  | .pcie => [.PCIE_CFG_DUAL, .PCIE_CFG_FN_CNT0, .PCIE_CFG_FN_CNT1, .PCIE_CFG_CLK0, .PCIE_CFG_CLK1, .PCIE_CFG_MAXSPD0,
      .PCIE_CFG_MAXSPD1, .PCIE_STAT_UP0, .PCIE_STAT_UP1, .PCIE_STAT_SPD0, .PCIE_STAT_SPD1, .PCIE_STAT_WID0, .PCIE_STAT_WID1,
      .PCIE_STAT_CFG_LOCKED, .PCIE_STAT_DLDN0, .PCIE_STAT_DLDN1, .PCIE_CNT_CORR0, .PCIE_CNT_CORR1, .PCIE_MI_MI_ADDR]
  | .strm => [.STRM_CFG_FRAC, .STRM_CFG_SW_FRETS, .STRM_STAT_ARMED, .STRM_STAT_FROZEN, .STRM_STAT_WDRN, .STRM_STAT_MISS,
      .STRM_STAT_REFUSED, .STRM_HARP_REQ, .STRM_HARP_CAP, .STRM_MED_USED, .STRM_MED_STREAMS, .STRM_AVL_AVAIL,
      .STRM_CNT0_MISS, .STRM_CNT0_SUSP, .STRM_CNT1_WDRN, .STRM_CNT1_REFUSED]
  | .bridge => [.BRG_CTRL_GO, .BRG_CTRL_SPILL_EN, .BRG_CFG0_WSPLIT, .BRG_CFG0_WMIN, .BRG_CFG0_WMAX, .BRG_CFG1_RMIN,
      .BRG_CFG1_RMAX, .BRG_CFG2_STRM_MAX, .BRG_CFG2_SPILL_US, .BRG_STAT_CFG_LOCKED, .BRG_STAT_DESC_WAIT,
      .BRG_STAT_VSTORE_WAIT, .BRG_STAT_RSLIP, .BRG_STAT_SPILLED, .BRG_STAT_MAP_RSV, .BRG_VSTORE_FREE, .BRG_DESC_FREE,
      .BRG_STRM_RSV, .BRG_USE_CELLS, .BRG_USE_PAGES, .BRG_RSLIP_COUNT]
  | .chest => [.CHST_CTRL_WB_EN, .CHST_CTRL_CHB_MAXBLK, .CHST_GOV_GOV_RATE, .CHST_GOV_GOV_BURST, .CHST_GOV_GOV_GRATE,
      .CHST_GOV_GOV_GBURST, .CHST_STAT_GOV_ACT, .CHST_STAT_INELIG, .CHST_STAT_JRNL_WAIT, .CHST_STAT_LIFE_WARN,
      .CHST_STAT_LIFE_END, .CHST_TOKENS_GLOBAL, .CHST_WB_ENTRIES, .CHST_WB_FREE, .CHST_JRNL_LIVE, .CHST_LIFE_LIFE,
      .CHST_LIFE_GROUP, .CHST_TOTLO_ROWS, .CHST_TOTHI_ROWS, .CHST_GWRLO_G, .CHST_GWRHI_G]
  | .cabinet => [.CAB_CTRL_SLOT_GO, .CAB_CTRL_SLOT_OP, .CAB_CTRL_SLOT, .CAB_CTRL_KAT_GO, .CAB_STAT_BUSY, .CAB_STAT_DONE,
      .CAB_STAT_OP_ERR, .CAB_STAT_RNG_FAIL, .CAB_STAT_TAG_FAIL, .CAB_STAT_HOLD_WAIT, .CAB_STAT_NONCE_GUARD,
      .CAB_STAT_KEY_LOW, .CAB_STAT_KEY_EXH, .CAB_STAT_CORES, .CAB_STAT_CORE_RET, .CAB_STAT_HOLD_USED, .CAB_CFG_KAT_MS,
      .CAB_SLOTSEL_SLOT, .CAB_SLOTSTAT_STATE, .CAB_SLOTSTAT_LOW, .CAB_SLOTSTAT_NSID, .CAB_SLOTSTAT_NSTAG, .CAB_GENLO_GEN,
      .CAB_GENHI_GEN, .CAB_CNT0_DECRYPTS, .CAB_CNT1_ENCRYPTS, .CAB_CNT2_TAG_FAIL, .CAB_CNT2_GEN_BAD, .CAB_CNT3_HOLD_WAIT,
      .CAB_CNT3_KAT_FAIL, .CAB_EPOCH_KEK_EPOCH]
  | .phovi => [.PHV_CTRL_RETIRE, .PHV_CTRL_UNRETIRE, .PHV_CFG_CAPS_BLK, .PHV_CFG_MIN_GAIN, .PHV_CFG_SPACE_MS,
      .PHV_CFG_VFY_RET, .PHV_CFG_PACK_MS, .PHV_STAT_INSVC, .PHV_STAT_VFY_FAIL, .PHV_STAT_DEC_ERR, .PHV_STAT_CAP_EXC,
      .PHV_STAT_PREEMPT, .PHV_STAT_CFG_LOCKED, .PHV_STAT_ENG_FAULT, .PHV_STAT_SLOTS_FREE, .PHV_STAT_QUEUED, .PHV_ENG_STATE,
      .PHV_ENG_VFYCNT, .PHV_CNT0_RAW_KIB, .PHV_CNT1_PACK_KIB, .PHV_CNT2_VFY_FAIL, .PHV_CNT2_DEC_ERR, .PHV_CNT3_CAP_EXC,
      .PHV_CNT3_PREEMPT, .PHV_ERRLOG_LAST_CODE, .PHV_ERRLOG_ENGINE, .PHV_ERRLOG_REPEAT, .PHV_ERRCSA0_CSA_LO,
      .PHV_ERRCSA1_CSA_HI, .PHV_SHADOW_CFG]
  | .seq => [.SQ_CTRL_GO, .SQ_CTRL_STOP, .SQ_CTRL_RST, .SQ_CTRL_DOORBELL, .SQ_STAT_STATE, .SQ_STAT_COMMITTED,
      .SQ_STAT_HANDLER, .SQ_STAT_CBUF, .SQ_STAT_STKD, .SQ_STAT_FCAUSE, .SQ_STAT_FAULT, .SQ_STAT_CFG_LOCKED, .SQ_STAT_ABANDON,
      .SQ_STAT_PC, .SQ_ENTRY_EVEN, .SQ_ENTRY_ODD, .SQ_IVEC_IVEC, .SQ_RESUME_ADDR, .SQ_ESHADOW_ENTRY, .SQ_LIVE_PAGES,
      .SQ_OUT_VALUE, .SQ_UFLAG_FLAGS, .SQ_UCNT_COUNT, .SQ_MBOX_CODE, .SQ_MBOX_VALID, .SQ_MBOXD_DATA, .SQ_REQ_QUEUED,
      .SQ_CNT_ABANDONS, .SQ_CNT_DEFERRED]
  | .bureau => [.BURn_CTRL_RETIRE, .BURn_CTRL_UNRETIRE, .BURn_STAT_STATE, .BURn_STAT_CAUSE_LAST, .BURn_STAT_CORE_RET,
      .BURn_STAT_WDOG, .BURn_STAT_L2_OFF, .BURn_STAT_CFG_LOCKED, .BURn_WDOG_MS, .BURn_CNT_WDOG_EXP, .BURn_CNT_MIGRATE,
      .BURn_LOAD_BUSY]
  | .l2 => [.L2n_CTRL_EN, .L2n_CTRL_PF_EN, .L2n_CTRL_PF_DIST, .L2n_STAT_ENABLED, .L2n_STAT_WALK, .L2n_STAT_MDONE,
      .L2n_STAT_MERR, .L2n_STAT_CFG_LOCKED, .L2n_STAT_DIRTY, .L2n_MAINT_OP, .L2n_MAINT_BY, .L2n_MAINT_GO, .L2n_MAINT_SET,
      .L2n_MAINT_WAY, .L2n_MADDRLO_ADDR, .L2n_MADDRHI_ADDR, .L2n_MCOUNT_LINES, .L2n_WALKT_NS, .L2n_CNT0_HITS,
      .L2n_CNT1_MISSES, .L2n_CNT2_PF_USED, .L2n_CNT2_PF_DROP, .L2n_RAT_BASE_BASE, .L2n_RAT_LIMIT_LIMIT, .L2n_RAT_CTL_POL,
      .L2n_RAT_CTL_VALID]
  | .mi => [.MI_OVF0_OVF, .MI_OVF1_OVF, .MI_DIAG_ALO_ADDR, .MI_DIAG_AHI_ADDR, .MI_DIAG_DLO_DATA, .MI_DIAG_DHI_DATA,
      .MI_DIAG_CHK_CHK, .MI_DIAG_CMD_RAWRD, .MI_DIAG_CMD_RAWWR, .MI_DIAG_CMD_DONE, .MI_DIAG_CMD_CFG_LOCKED, .MI_WLOST_RANGES,
      .MI_WLOST_MERGED, .MI_I_CFG_DEPTH, .MI_I_CFG_LEAK, .MI_I_CFG_INIT_MODE, .MI_I_CFG_FILL, .MI_I_STAT_LEVEL,
      .MI_I_STAT_OVF, .MI_I_STAT_UE, .MI_I_STAT_POISON, .MI_I_STAT_FILL_BUSY, .MI_I_CE_COUNT, .MI_I_UE_UE, .MI_I_UE_POISONED,
      .MI_I_ALO_ADDR, .MI_I_AHI_ADDR, .MI_I_AHI_SYND, .MI_I_AHI_KIND]
  | .scbms => [.SCB_MS_CTRL_EN, .SCB_MS_CFG_SRAM_S, .SCB_MS_CFG_DDR_H, .SCB_MS_CFG_CHEST_H, .SCB_MS_CNT0_FIXED,
      .SCB_MS_CNT0_POISONED, .SCB_MS_CNT1_SRAM_PASS, .SCB_MS_CNT1_DDR_PASS]
  | .pwr => [.PWR_CTRL_AUTOSPIN, .PWR_CTRL_AUTODORM, .PWR_CTRL_SPIN_ON_IO, .PWR_STAT_MODE, .PWR_STAT_SUB, .PWR_STAT_DEGR,
      .PWR_STAT_CFG_LOCKED, .PWR_STAT_REFUSED, .PWR_STAT_RET_INCOMPLETE, .PWR_TIME_DORM_S, .PWR_TIME_IDLE_MS,
      .PWR_STRLOST_LOST, .PWR_STRLOST_CLR, .PWR_RETCFG_RET_GAP, .PWR_RETCFG_VM_HARV, .PWR_RETCFG_VM_RETMIN,
      .PWR_RETCFG_INRUSH, .PWR_RETLOG_BEGUN, .PWR_RETLOG_PARKED, .PWR_RETLOG_LAST_MS, .PWR_RETLOG_VM_MIN, .PWR_DOMREQ_ON,
      .PWR_DOMSTAT_ON, .PWR_DOMERR_DOM]
  | .sideboard => [.SB_CFG0_UV12, .SB_CFG0_UV5, .SB_CFG0_UV_DEB, .SB_CFG1_SHK_TH, .SB_CFG1_SHK_EN0, .SB_CFG1_SHK_EN1,
      .SB_CFG1_SHK_HOLD, .SB_WAKE_EN, .SB_WAKE_TW_TH, .SB_STAT_V12_OK, .SB_STAT_V5_OK, .SB_STAT_PWRLOSS, .SB_STAT_SHOCK,
      .SB_STAT_WSRC, .SB_STAT_CAPO_ACT, .SB_RTC_SEC, .SB_ALARM_SEC, .SB_CNT_PWRLOSS, .SB_CNT_SHOCK]
  | .cal => [.CAL_CTRL_ABORT, .CAL_STAT_BUSY, .CAL_STAT_SCRIPT, .CAL_STAT_STRING, .CAL_STAT_REXT_BAD, .CAL_STAT_CFG_LOCKED,
      .CAL_STAT_DONE, .CAL_STAT_RESULT, .CAL_TD_TD_STEP, .CAL_TD_TD_FLAT, .CAL_TD_TD_PES, .CAL_BO_BO_RD, .CAL_BO_BO_WIDLE,
      .CAL_BO_BO_WR, .CAL_SCH_SCRIPT, .CAL_SCH_PERIOD, .CAL_SCH_TDELTA, .CAL_SCH_EN, .CAL_PEG_T_TARGET, .CAL_PEG_V_VALUE]
  | .thermal => [.THR_CTRL_L_MIN, .THR_STAT_TJ, .THR_STAT_LEVEL, .THR_STAT_WARN, .THR_STAT_THROT, .THR_STAT_SHUT,
      .THR_STAT_CFG_LOCKED, .THR_STAT_SNS_BAD, .THR_HEAD_HT_LIM_A, .THR_HEAD_HT_LIM_B, .THR_HEAD_HT_LIM_C,
      .THR_HEAD_HT_LIM_D, .THR_SNS_T, .THR_CNT_STEPS, .THR_CNT_SHUTDOWNS]
  | .identity => [.LC_STAT_STATE, .LC_STAT_RETCNT, .LC_STAT_REFIELD, .LC_STAT_CHAL_LIVE, .LC_STAT_DENIED, .LC_STAT_PEND,
      .LC_VAR_VARIANT, .LC_VAR_STEPPING, .LC_PCIID_VID, .LC_PCIID_SSVID, .LC_DEVID_ID, .LC_FWSVN_SVN, .LC_BOOT_SLOT,
      .LC_BOOT_FALLBACK, .LC_BOOT_RECOVERY, .LC_KEYH_HASH]
  | .bench => [.BNCH_STAT_SESSION, .BNCH_STAT_DENIED, .BNCH_STAT_BSCAN_BLK, .BNCH_STAT_KEYRD, .BNCH_STAT_MATCH,
      .BNCH_STAT_SKIPX, .BNCH_STAT_HALTED, .BNCH_CFG_IDLE_MIN, .BNCH_CNT_OPENS, .BNCH_CNT_REFUSED]
  | .peg => [.PEGx_T_TARGET, .PEGx_V_VALUE]

/-- The rows of one block. -/
def Blk.rows (b : Blk) : List RegRow := b.regs.map Reg.row

/-- The register blocks. -/
def Blk.all : List Blk :=
  [.fabric, .fret, .capo, .spe, .sce, .svd, .ae, .nut, .rch, .harp, .sfm, .wrp, .rld, .hqe, .pcie, .strm,
   .bridge, .chest, .cabinet, .phovi, .seq, .bureau, .l2, .mi, .scbms, .pwr, .sideboard, .cal, .thermal, .identity, .bench, .peg]

/-- Every row. -/
def regRows : List RegRow := Blk.all.flatMap Blk.rows

end Sys2Proof.Machine
end

