-- ==== Sys2Proof/Machine/Operands.lean ====
section
/-! DEFINITION. Machine/Operands.lean: how the values of register fields and operands are read: signed fields,
clamps, rounding, and the fields that "read back clamped" or whose out-of-range values "act as" another. -/
namespace Sys2Proof.Machine

/-- A `w`-bit field read as two's complement. -/
def toSigned (w n : Nat) : Int :=
  let m := n % 2 ^ w
  if m < 2 ^ (w - 1) then (m : Int) else (m : Int) - (2 ^ w : Nat)

/-- An integer held in a `w`-bit two's-complement field. -/
def ofSigned (w : Nat) (z : Int) : Nat := (z % ((2 ^ w : Nat) : Int)).toNat

/-- `n` held within `lo … hi`. -/
def clampNat (lo hi n : Nat) : Nat := max lo (min hi n)

/-- `z` held within `lo … hi`. -/
def clampInt (lo hi z : Int) : Int := max lo (min hi z)

/-- Division rounded to the nearest integer, ties away from zero (R94). -/
def roundDiv (a : Int) (b : Nat) : Int :=
  if a < 0 then -(((-a) * 2 + b) / (2 * b)) else (a * 2 + b) / (2 * b)

/-- `z` saturated to a signed value of `w` bits (R94). -/
def saturate (w : Nat) (z : Int) : Int := clampInt (-(2 ^ (w - 1) : Nat)) ((2 ^ (w - 1) : Nat) - 1) z

/-- A value where 0 acts as 1. -/
def atLeast1 (n : Nat) : Nat := max 1 n

/-- Parity of the set bits of `n` among its low `k` bits. -/
def parityOf (n : Nat) : Nat → Bool
  | 0 => false
  | k + 1 => xor (n.testBit k) (parityOf n k)

/-- Number of set bits of `n` among its low `k` bits. -/
def countOnes (n : Nat) : Nat → Nat
  | 0 => 0
  | k + 1 => boolNat (n.testBit k) + countOnes n k

/-- The value a write leaves in a field whose out-of-range values read back clamped: SPE_START.HANDOVER,
SPE_PWM.FLY_PCT (R88), AEx_CFG.LEAK_SH (R148), RCHx_CAPRATE (R176), BRG_CFG0.WSPLIT (R313), SB_CFG0.UV_DEB (R438),
STRM_CFG.FRAC (R290). WRPx_CFG.FSTART below 288 keeps the value in force (R226). -/
def writtenValue (r : Reg) (old v : Nat) : Nat :=
  match r with
  | .SPE_START_HANDOVER => max 100 v
  | .SPE_PWM_FLY_PCT => clampNat 70 95 v
  | .AEx_CFG_LEAK_SH => clampNat 2 12 v
  | .RCHx_CAPRATE_CAP_RATE => clampNat 2500 7600 v
  | .BRG_CFG0_WSPLIT => clampNat 4 28 v
  | .SB_CFG0_UV_DEB => min 0x32 v
  | .STRM_CFG_FRAC => clampNat 10 90 v
  | .WRPx_CFG_FSTART => if v < 288 then old else v
  | .CHST_GOV_GOV_RATE | .CHST_GOV_GOV_BURST | .CHST_GOV_GOV_GRATE | .CHST_GOV_GOV_GBURST => min r.row.reset v
  | _ => v

/-- The value a field acts as: 0 acts as 1, values above the top act as the top, reserved codes act as the code the
register map names. -/
def effective (r : Reg) (v : Nat) : Nat :=
  match r with
  | .SCEx_THRESH_SETTLE_N | .SVDx_FMT5_SYNC_N | .SVDx_FMT5_SYNC_LOSS | .AEx_CFG_FH_DIV | .RCHx_DIV_DIV_N
  | .HARP_CTRL_SLIP_GLB | .WRPx_CFG_PREFILL | .RLDx_CFG_REALLOC_RUNG | .RLDx_CFG_EXT_GLB | .RLDx_CFG_PAR_REV
  | .CHST_CTRL_CHB_MAXBLK | .CAB_CFG_KAT_MS | .PHV_CFG_VFY_RET | .PHV_CFG_PACK_MS | .BURn_WDOG_MS
  | .L2n_CTRL_PF_DIST | .L2n_MCOUNT_LINES | .MI_I_CFG_DEPTH | .MI_I_CFG_LEAK | .SCB_MS_CFG_SRAM_S
  | .SCB_MS_CFG_DDR_H | .SCB_MS_CFG_CHEST_H | .PWR_RETCFG_INRUSH | .CAL_TD_TD_STEP | .BNCH_CFG_IDLE_MIN =>
    max 1 v
  | .SCEx_HEADS_HEADS => min 6 v
  | .SVDx_FMT1_SAM_TOL => min 2 v
  | .SVDx_HRDR_SRV_RDR => if v = 3 then 1 else v
  | .AEx_CFG_TYPE => if v = 3 then 0 else v
  | .RCHx_CTRL_GLB_MAX | .HARP_CTRL_SLIP_MAX => clampNat 1 4 v
  | .RCHx_CTRL_LOC_MAX => clampNat 1 12 v
  | .RCHx_CTRL_SLOT_RSV => min 4 v
  | .HARP_CTRL_SLIP_ORD => if v = 3 then 0 else v
  | .HARP_CTRL_BF_MAX => clampNat 1 64 v
  | .SFMx_SYNC1_SYNC_TOL => min 6 v
  | .SFMx_SYNC1_SYNC_WIN => clampNat 16 128 v
  | .SFMx_FSYNC_FSYNC_TOL => min 4 v
  | .SFMx_FSYNC_FSYNC_WIN => max 4 v
  | .RLDx_CFG_STREAM_RUNG => min 8 v
  | .RLDx_CFG_EXT_ALT => if v = 0 then 16 else v
  | .HQEn_CFG_MDTS => if v = 0 || v > 9 then 9 else v
  | .HQEn_CFG_NIOQ => clampNat 1 64 v
  | .PCIE_CFG_CLK0 | .PCIE_CFG_CLK1 => if v = 3 then 0 else v
  | .PCIE_CFG_MAXSPD0 | .PCIE_CFG_MAXSPD1 => if v = 0 || v > 5 then 5 else v
  | .PHV_CFG_CAPS_BLK => clampNat 1 16 v
  | .PHV_CFG_MIN_GAIN => max 16 v
  | _ => v

end Sys2Proof.Machine
end

