-- ==== Sys2Proof/Machine/State.lean ====
section
/-! DEFINITION. Machine/State.lean: everything the spec gives the device, as plain data: the register file (every
field of every register map), the shadow copies of S fields, the memory regions, and the hidden state of each block,
one structure per block; then the queue of waiting commands, the faults and refusals, and the state after reset. -/
namespace Sys2Proof.Machine

/-- One value per String (A, B, C, D). -/
structure Quad (α : Type) where
  a : α
  b : α
  c : α
  d : α
deriving DecidableEq, Repr

/-- The value of String `x`. -/
def Quad.get {α : Type} (q : Quad α) : Str → α
  | .A => q.a
  | .B => q.b
  | .C => q.c
  | .D => q.d

/-- The quad with String `x`'s value replaced. -/
def Quad.set {α : Type} (q : Quad α) (x : Str) (v : α) : Quad α :=
  match x with
  | .A => { q with a := v }
  | .B => { q with b := v }
  | .C => { q with c := v }
  | .D => { q with d := v }

/-- The same value for every String. -/
def Quad.all {α : Type} (v : α) : Quad α := ⟨v, v, v, v⟩

/-- The Capo unit beside its registers (R56 to R64, R497, R504). Times are ticks of the 800 MHz timebase. -/
structure Capo where
  /-- Set-point of the generator, µrpm (R59). -/
  v : Int
  /-- Its acceleration, in units of J·dt = 0.04 rpm/s (R59). -/
  a : Int
  /-- The generator is bringing the acceleration to zero and then holds the speed (R62). -/
  coasting : Bool
  /-- Phase offset in force, µrpm (R59). -/
  offset : Int
  /-- Time of the last qualified reference edge. -/
  lastEdge : Nat
  /-- A qualified edge has been seen since ARM, or since a measurement restarted. -/
  haveEdge : Bool
  /-- The last four reference periods, newest first (R504). -/
  periods : List Nat
  /-- Time and number of reference periods measured in MEASURE (R62). -/
  measSum : Nat
  measCount : Nat
  /-- The reference period that predicts the next edge, in ticks; 0 when none has been timed since ARM, or since the
  reference was lost (R58). -/
  refPeriod : Nat
  /-- The first frame edge since ARM has fallen (R497). -/
  framed : Bool
  /-- Reference periods since the last frame edge, taken at the last qualified edge, frame edges already given by
  prediction since that edge, and the time of the last frame edge (R497). -/
  frameRef : Nat
  predictedFrames : Nat
  frameTime : Nat
  /-- Wedges of the reference String since the last frame edge (R497). -/
  wedges : Nat
  /-- A frame wedge has been chosen: the phase-lock stage of SLEWING (R63). -/
  phaseStage : Bool
  /-- Place on the reference String's revolution that is held on the frame edge, in 1/65,536 Fret (R63). -/
  lockPoint : Nat
  /-- Consecutive frames within ±0.5 µs (R62). -/
  lockFrames : Nat
  /-- HOLDOVER was entered directly from LOCKED (R64). -/
  fromLocked : Bool
  /-- W at the last entry into LOCKED, for stream re-admission (R287). -/
  lockedW : Nat
  /-- Revolution rate at that entry, µHz. -/
  lockedUhz : Nat
  /-- The Capo write inhibit of each String, and that LOCKED has been entered since it was asserted: it is released at each
  String's next wedge boundary (R61). -/
  inhibit : Quad Bool
  releasing : Bool
deriving DecidableEq, Repr

/-- The Fret timing block beside its registers: the skews are to be republished at the reference's next wedge 0
(R51), relative to the String they stand relative to; and the time at which a String became the reference with none
before it. -/
structure FretTiming where
  republish : Bool
  gained : Option Nat
deriving DecidableEq, Repr

/-- What the SPE drives on the bridge (R69, R77, R83). -/
inductive Bridge
  | off | zeroVector | driven
deriving DecidableEq, Repr

/-- The SPE beside its registers (R66 to R87, R498). -/
structure Spe where
  bridge : Bridge
  /-- MEASURE is past its 2 ms of gates off and samples the switch nodes (R77). -/
  sampling : Bool
  /-- The 500 ms zero-vector hold after a rejected fit (R77). -/
  residHold : Bool
  /-- Fit residuals rejected running, and failed attempts since START (R81). -/
  rejects : Nat
  attempts : Nat
  /-- Angle held in ALIGN, electrical degrees (R78, R79). -/
  alignAngle : Nat
  /-- Last observer angle, electrical degrees, with the rest below a degree in millionths while it is extrapolated in REACQ
  (R73, R83); the observer is locked. -/
  angle : Nat
  angleRest : Nat
  locked : Bool
  /-- The open-loop vector of RAMP: its speed in µrpm, and its angle in 10⁻¹² electrical degrees (R79). -/
  olSpeed : Nat
  olAngle : Nat
  /-- A catch: electrical periods left with Iq = 0 before RUN, and the back-EMF constant of the fit, if one was made (R77). -/
  catching : Option Nat
  catchKe : Option Nat
  /-- In REACQ, the phase that floats (0 U, 1 V, 2 W) and the PWM periods it still floats for (R83). -/
  floatPhase : Nat
  floatLeft : Nat
  /-- STOP waits for the heads to be parked (R86). -/
  stopPending : Bool
  /-- BRAKE with target 0, and its low-side zero vector below 60 rpm (R86, R498). -/
  toRest : Bool
  restHold : Bool
  /-- The low-side zero vector of R69 is held, and one VM_OV excursion is in progress. -/
  clamp : Bool
  excursion : Bool
  /-- VM has been found below VM_OV − 0.5 V: the zero vector ends with this PWM period. -/
  clampEnding : Bool
  /-- SPN_BRK is on (R68). -/
  brake : Bool
  /-- The zero vector of the float rule of R69 is applied in this PWM period. -/
  floatClamp : Bool
  /-- The zero vector of an overcurrent trip is held (R85), and the times of the trips of the last second. -/
  ocHold : Bool
  ocTrips : List Nat
  /-- Consecutive skipped and consecutive not-skipped samples (R72). -/
  skips : Nat
  goods : Nat
  /-- Consecutive periods that meet the angle test and the back-EMF test of observer loss (R83). -/
  lossRun : Nat
  lossEmf : Nat
  /-- In REACQ the torque command has gone to 0 and the bridge floats (R83). -/
  floated : Bool
  /-- Zero crossings in expected sequence (R83). -/
  crossings : Nat
  /-- Commands in force, mA (R73, R83), and the d-axis current that meets R68 and R74. -/
  idCmd : Int
  iqCmd : Int
  /-- Currents measured, or predicted for a skipped sample, mA (R71), and the demand of the field-weakening integrator (R74). -/
  idMeas : Int
  iqMeas : Int
  field : Nat
  /-- Duty values written this period, and in force (R70): U, V, W. -/
  dutyNext : Nat × Nat × Nat
  dutyNow : Nat × Nat × Nat
  /-- PWM periods since the last speed-loop update, 0 to 7 (R70). -/
  loopPhase : Nat
  /-- Set-point in force after the ramp, µrpm (R76). -/
  ramped : Nat
  /-- Samples of the back-EMF measurement: sum of E over speed, and their number (R82). -/
  keSum : Nat
  keCount : Nat
  /-- The spindle write inhibit of each String (R84), and that it is released at each String's next wedge boundary
  (R83). -/
  inhibit : Quad Bool
  releasing : Bool
  /-- The reverse-current block is blocking (R67). -/
  rcbBlocking : Bool
  /-- VM has been charged to within 0.3 V of the 12 V input (R425). -/
  vmCharged : Bool
  /-- A safe retract has been requested at FLY_PCT (R83, R86) and not yet again since. -/
  flyAsked : Bool
  /-- Time of the last spindle tick (R75). -/
  lastTick : Nat
deriving DecidableEq, Repr

/-- One coupling broadcast (R104). -/
structure Broadcast where
  time : Nat
  cmd : Int
  held : Bool
deriving DecidableEq, Repr

/-- A seek in progress (R107): the reference state it left from, its target, its bounds, and the Fret reached. -/
structure Plan where
  fromP : Int
  fromV : Int
  fromA : Int
  target : Int
  jMax : Nat
  aLim : Nat
  vMax : Nat
  fret : Nat
deriving DecidableEq, Repr

/-- Where a retract stands (R108): step 1, step 2 waiting for its turn (R434), step 2, the hold of step 3. -/
inductive RetractStep
  | none | ramp | waiting | velocity | hold
deriving DecidableEq, Repr

/-- What asked for a retract (event data of R396). -/
inductive RetractCause
  | lostWedges | spe | command | powerLoss | planned
deriving DecidableEq, Repr

/-- An SCE beside its registers (R90 to R110). Signals are 32-bit two's complement with 16 fraction bits. -/
structure Sce where
  /-- S0 to S31. -/
  sig : List Int
  /-- This Fret's wedge is the first after a change of head, and the next one is (R100). -/
  headChanged : Bool
  headNext : Bool
  /-- Reference position, velocity and acceleration in force, relative to the target (R90). -/
  refP : Int
  refV : Int
  refA : Int
  plan : Option Plan
  /-- The PRED output: head position predicted for the next wedge, relative to the target in force (R99). -/
  pred : Int
  /-- VCM current measured at the SAM (S6). -/
  iVcm : Int
  /-- This Fret's SAM was missed (R99), and this Fret's wedge is lost. -/
  missed : Bool
  lost : Bool
  /-- The last wedge, measured, plausible and within the write-fault threshold in TRACK (R25, R102). -/
  wedgeGood : Bool
  /-- Consecutive qualifying wedges in SETTLE, and Frets spent there (R107). -/
  settleRun : Nat
  settleFrets : Nat
  /-- This Fret's law has overrun (R49); its second count asserts WINH. -/
  overran : Bool
  /-- A retract request displaced to the next SAM is not kept; the retract in progress, its cause, whether it came
  from the power-loss event (R109). -/
  step : RetractStep
  cause : RetractCause
  emergency : Bool
  rampFrets : Nat
  /-- In an emergency retract, this String's turn under R434 has come. -/
  turn : Bool
  /-- S31 at the start of the ramp of R108. -/
  rampFrom : Int
  /-- Periods of 16 µs of step 2 so far, and in a row below 10 % of RET_VEL (R108). -/
  loopTicks : Nat
  slowTicks : Nat
  /-- The current limit of the retract in force, 0.1 mA (R108, R435). -/
  retLimit : Nat
  /-- Broadcasts taken from each String, newest first, at most four (R104), and Frets since one was taken (R106). -/
  taken : Quad (List Int)
  quiet : Quad Nat
  /-- Timestamp of the last broadcast taken from each String (R54). -/
  takenTime : Quad Nat
  /-- The latest broadcasts this SCE has sent, newest first: those a receiver can take under R54. -/
  sent : List Broadcast
  /-- ISEEK_LIM scaled by the throttle factor, 0.1 mA, as taken at the last SAM (R95). -/
  limit : Nat
  /-- The shock input has asserted WINH and SHK_HOLD has not elapsed (R426). -/
  shockHold : Bool
  /-- The first measured wedge after LOADING sets the reference the law starts from (R110). -/
  needRef : Bool
  /-- SEEK was entered from LOADING at this Fret's SAM: the law runs from the next Fret (R110). -/
  lawHold : Bool
deriving DecidableEq, Repr

/-- A servo demodulator with the SSQ's servo timer, beside the registers (R113 to R127). -/
structure Svd where
  /-- Time of the last SAM, measured or predicted; and, if it was measured with its wedge number accepted, its time with the
  head's HSKEW subtracted (R119). -/
  lastSam : Nat
  lastMeasured : Option Nat
  haveSam : Bool
  /-- The miss of this Fret has lost synchronisation: the Fret is still ended as a lost wedge (R101, R126). -/
  lastFret : Bool
  /-- The last SAM was measured. -/
  samMeasured : Bool
  /-- Prediction of the next SAM (R99). -/
  predicted : Nat
  /-- Predicted wedge number of this Fret. -/
  wedge : Nat
  /-- Decoded and accepted number of the last wedge that differed from the prediction, for the slip check (R127). -/
  slipFrom : Option Nat
  /-- The wedge of this Fret is unreadable by its number (R121, R126), and number accepted. -/
  numberBad : Bool
  /-- Confirmations (R127) and consecutive misses. -/
  confirms : Nat
  misses : Nat
  /-- The servo gate is open: data recording is paused (R172). -/
  servoGate : Bool
  /-- Head whose HSKEW, SRV_RDR and RDR_OFFS the window uses (R119). -/
  windowHead : Nat
  /-- Predicted SAM of this Fret, its SAM minus that prediction in ticks, and whether that SAM was measured (R184). -/
  expected : Nat
  deviation : Int
  /-- Wedge whose boundary opened the present data field. -/
  dataWedge : Nat
deriving DecidableEq, Repr

/-- A running skew average (R52). -/
structure SkewAvg where
  /-- Sum of differences from the first sample, in 1/65,536 Fret, and the first sample. -/
  base : Nat
  sum : Int
  revs : Nat
  /-- The String has held synchronisation since the average began. -/
  held : Bool
  /-- Time of the String's last SAM of wedge 0. -/
  wedge0 : Nat
  haveWedge0 : Bool
deriving DecidableEq, Repr

/-- A frame on the Nut link (R133, R135). -/
inductive FrameKind
  | update | headsel | idle | posted | collect
deriving DecidableEq, Repr

/-- An outbound frame whose reply is awaited. -/
structure NutFrame where
  kind : FrameKind
  write : Bool
  head : Nat
  addr : Nat
  data : Nat
  /-- Sends so far (R140). -/
  tries : Nat
  /-- Wedge and number of the assist slot of an UPDATE (R143). -/
  wedge : Nat := 0
  slot : Nat := 0
deriving DecidableEq, Repr

/-- An AE and its Nut link beside their registers (R130 to R151). Per-head lists have six entries. -/
structure Ae where
  /-- Acknowledged assist slots counted in ARMING (R145). -/
  warm : Nat
  /-- The selected head's IDLE frame is acknowledged (R137). -/
  idleAcked : Bool
  /-- Consecutive Frets under inhibit (ARM_HOLD) and consecutive unacknowledged UPDATEs. -/
  heldFrets : Nat
  unacked : Nat
  /-- Assist slots so far; wedge and number of the slot of the last UPDATE found not acknowledged (R143). -/
  slots : Nat
  missWedge : Nat
  missSlot : Nat
  /-- Head that the preamp had selected when the last frame went out (R133). -/
  replyHead : Nat
  /-- Ledgers, nJ with 16 fraction bits (R142), soft flags, and a hard-cap event waiting for the next slot. -/
  ledger : List Nat
  soft : List Bool
  capDue : Option Nat
  /-- Link failure waiting for the next slot: the wedge of the third missed UPDATE, and the number of its slot (R143). -/
  linkDue : Option (Nat × Nat)
  /-- WR_ARM, or CAL_EN, has become 1 and a higher event has displaced its row (R145). -/
  armDue : Bool
  calDue : Bool
  /-- The SCE has selected another head since the last slot, and the head of the last slot. -/
  headDue : Bool
  slotHead : Nat
  /-- Latest ECS per head, and the average of R141. -/
  ecs : List Nat
  ecsSum : Nat
  ecsCount : Nat
  /-- ASSIST of the UPDATE in force (R142), and the last UPDATE sent: mode, assist, heater, wc. -/
  assist : Nat
  mode : Nat
  heater : Nat
  wc : Nat
  /-- The touchdown guard zeroes the heater of the next UPDATE (R145). -/
  tdZero : Bool
  /-- Heads found hot (R447). -/
  hot : List Bool
  /-- SEQ of the next frame, the frame in flight, the last one sent, and frames waiting (R133 to R135). -/
  seq : Nat
  last : Option NutFrame
  /-- The frame before the last one: the one the next reply answers for (R133). -/
  prev : Option NutFrame
  idleQueue : List NutFrame
  postQueue : List NutFrame
  retry : Option NutFrame
deriving DecidableEq, Repr

/-- A sector position named by the layout walker (R203, R204): its index on the track, the wedge of its start, its
start in bit-times from the wedge boundary, and the codeword bits of its first fragment when a wedge splits it. -/
structure SectorPos where
  index : Nat
  wedge : Nat
  start : Nat
  split : Option Nat
deriving DecidableEq, Repr

/-- What a data codeword carries: the LBA in LBACHK, generation and namespace tag of the trailer (R181), the identity of
the key it was encrypted under (0 for none), and the plaintext block. -/
structure Content where
  lba : Nat
  gen : Nat
  nstag : Nat
  key : Nat
  data : Nat
  /-- LBACHK[63:48] as written (R181, R499). -/
  check : Nat := 0
  /-- The counter block J0 that the tag was made under (R321, R322). -/
  j0 : List Nat := []
deriving DecidableEq, Repr

/-- A codeword on the media or on its way there: a data codeword, or the parity codeword of a stripe, the XOR of the
data codewords listed by physical index (R206). -/
inductive Codeword
  | data (c : Content)
  | parity (covers : List (Nat × Content))
deriving DecidableEq, Repr

/-- Whose work a sequencer request is (R30, R360). -/
inductive ReqSource
  | host | scb | bce | cal | ladder | verify
deriving DecidableEq, Repr

/-- One sector of a request: its index on the track, its physical index p (R204), its LBA, and for a write its
codeword; a parity position of a write carries none, since the WSQ writes the accumulator there (R207). -/
structure Place where
  sector : Nat
  p : Nat
  lba : Nat
  word : Option Codeword
deriving DecidableEq, Repr

/-- A request in a sequencer's queue (R360), the command or job it serves, and the zone record it writes. -/
structure Request where
  id : Nat
  type : Nat
  track : Nat
  head : Nat
  set : Nat
  slipOk : Bool
  stream : Bool
  places : List Place
  source : ReqSource
  tag : Nat
  zone : Option Nat
  /-- Offset from track centre its target is posted with, 1/256 track (R229). -/
  offs : Int
deriving DecidableEq, Repr

/-- An armed action of the channel port (R359): a sector of a request. -/
structure Armed where
  request : Request
  offset : Nat
  sector : SectorPos
  set : Nat
  slipOk : Bool
  cont : Bool
deriving DecidableEq, Repr

/-- A sample-buffer slot that is held (R166 to R168, R185 to R188). -/
structure Slot where
  /-- The sector captured: its request and its place in it, and where it lies on the track. -/
  action : Armed
  /-- Head over the track at the capture, and what its media holds there. -/
  head : Nat
  word : Option Codeword
  /-- The snapshot of R166: the active set with the live taps and predictors in it, in the layout of R177. -/
  snap : List Nat
  /-- LOC_MAX and the scale of the returned extrinsics, EXT_SCALE or EXT_ALT (R164, R228). -/
  locMax : Nat
  scale : Nat
  /-- Preamble peaks of the three readers (R170). -/
  amps : List Nat
  /-- The pending queue was full when the gate opened: the sector accumulates no update (R160). -/
  adaptFull : Bool
  /-- Recording in progress, and paused by the servo gate (R172, R173). -/
  recording : Bool
  paused : Bool
  /-- The window open is that of the second fragment (R186). -/
  fragment : Bool
  /-- Capture alignment relative to the expected one, the alternative match (R185), mismatches of both marks. -/
  align : Int
  alt : Option Int
  mism1 : Nat
  mism2 : Nat
  /-- PDMODE in force at the capture (R171). -/
  peak : Bool
  /-- The most global iterations a decode of it may take (R164, R228). -/
  maxIter : Nat
  /-- Slip search (R187): run already, candidates left, outstanding, and confirmed and waiting in a lane. -/
  slipRun : Bool
  slipCands : List Int
  slipOut : List Int
  slipWon : Option (Int × Nat)
  /-- The adaptation entry of this sector has been formed (R160, R168). -/
  adapted : Bool
  /-- The ladder that holds the slot (R228, R241), by its identity. -/
  ladder : Option Nat
deriving DecidableEq, Repr

/-- An entry of the pending adaptation queue (R160). -/
structure AdaptEntry where
  slot : Nat
  set : Nat
  /-- Updates of the 36 taps and the 96 predictor words, summed over the read gate. -/
  taps : List Int
  preds : List Int
  /-- Harp's verdict on the sector: none yet, confirmed, failed. -/
  verdict : Option Bool
deriving DecidableEq, Repr

/-- Kinds of detector pass, in priority order (R165). -/
inductive PassKind
  | restart | redet | slip | pd
deriving DecidableEq, Repr

/-- A detector pass. -/
structure Pass where
  kind : PassKind
  slot : Nat
  shift : Int
  /-- Class its result is dispatched in (R191), and the global iteration it begins. -/
  cls : Nat
  iteration : Nat
  /-- Its result is discarded: a RESTART of the same codeword has been asked for (R173). -/
  discard : Bool
  /-- A priori LLRs: the extrinsics that Harp returned (R164). -/
  la : List Int := []
deriving DecidableEq, Repr

/-- The read channel of a String beside its registers (R152 to R178). -/
structure Rch where
  /-- The ten sample-buffer slots. -/
  slots : List (Option Slot)
  /-- The read gate is open for this slot. -/
  gate : Option Nat
  /-- Pending adaptation queue, oldest first. -/
  adapt : List AdaptEntry
  /-- Consecutive sectors with MSE above MSE_DIV (R161); set values to be reloaded at the next open. -/
  highMse : Nat
  reload : Bool
  /-- SAVE and RESTORE that wait for the next read-gate open, oldest first: whether it is SAVE, and when it was written (R162). -/
  taps : List (Bool × Nat)
  /-- DC offsets of the three readers in 1/16 LSB, and phase and frequency of the bit clock (R154, R155, R159). -/
  dc : List Int
  phase : Int
  freq : Int
  /-- The detector domain has powered up since the stored configuration was last written (R495). -/
  unconfigured : Bool
  /-- Detector passes waiting, RESTART requests held, and what pipes 1 and 2 run (R165). -/
  passes : List Pass
  heldRestarts : List Pass
  pipe1 : Option Pass
  pipe2 : Option Pass
  /-- CAPTURE is in force (R175), and waits for the ten slots to be free. -/
  capMode : Bool
deriving DecidableEq, Repr

/-- The layout walker (R352): the sector it is on, as an offset in the loaded request. -/
structure Walker where
  placed : Bool
  offset : Nat
  pos : SectorPos
deriving DecidableEq, Repr

/-- A buffered visible-state write (R362). -/
inductive VisWrite
  | done (status : Nat)
  | requeue
  | out (sel value : Nat)
  | post (code value : Nat)
  | uflag (bit : Nat)
  | ucnt (sel : Nat)
deriving DecidableEq, Repr

/-- The snapshot of routine entry (R363). -/
structure Snapshot where
  g : List Nat
  c : List Nat
  pm : Nat
  walker : Walker
deriving DecidableEq, Repr

/-- A sequencer beside its registers (R352 to R370). -/
structure Sequencer where
  /-- G0 to G15, C0 to C3, PT, PM, the micro-stack (top first). -/
  g : List Nat
  c : List Nat
  pt : Nat
  pm : Nat
  stack : List Nat
  walker : Walker
  /-- Flags Z, N, C (R357). -/
  z : Bool
  n : Bool
  carry : Bool
  /-- The request queue, head first, and the request loaded by LOAD. -/
  queue : List Request
  loaded : Option Request
  /-- The commit buffer and the mailbox, oldest first. -/
  commit : List VisWrite
  mailbox : List (Nat × Nat)
  /-- The channel port (R359). -/
  armed : List Armed
  /-- Consumed events WBOUND, SAM, MISSAM, SECF, UEVT; counts CAPACK and DONE (R354, R357). -/
  wbound : Bool
  sam : Bool
  missam : Bool
  secf : Bool
  uevt : Bool
  capack : Nat
  done : Nat
  /-- Sticky events NOTREADY, SBUFFULL, BRGFULL, LATE, RUNSTOP. -/
  notReady : Bool
  sbufFull : Bool
  brgFull : Bool
  late : Bool
  runStop : Bool
  /-- Interrupts pending, by source (R365). -/
  irq : List Bool
  /-- Entry of the routine in progress, its snapshot, a restart that waits, the first fault of this instance taken. -/
  entry : Nat
  snap : Snapshot
  restart : Bool
  faulted : Bool
  /-- The handler was entered from an abandon; it ends the routine; STOP waits (R368, R370). -/
  fromAbandon : Bool
  stopPend : Bool
  /-- The word at PC has performed its fields and waits on its condition (R353). -/
  waiting : Bool
  /-- Leading sectors of the head request captured, or written without a cut (REWIND, R358). -/
  progress : Nat
  /-- Requests the media manager is to post: those handed back by REQUEUE (R358), and those that found 32 queued. -/
  returned : List Request
  /-- Time of an RST no fault has followed yet, and consecutive re-entries of FAULT within 1 s of one (R431). -/
  rstTime : Option Nat
  rstFaults : Nat
  /-- A patch has been installed: after the next dispatch the pages that nothing reaches leave SQ_LIVE (R374). -/
  sweep : Bool
deriving DecidableEq, Repr

/-- The write path of a String beside its registers (R217 to R226). -/
structure Wrp where
  /-- Encrypted sectors that stand in write cells (R302), and codewords in the FIFO, checked (R217): request
  identifier and physical index. -/
  cells : List (Nat × Nat)
  fifo : List (Nat × Nat)
  /-- A codeword failed its check once and is encoded again. -/
  retrying : Option (Nat × Nat)
  /-- ENC_FAULT refuses every open until EN is written 0 then 1; EN has been written 0 since. -/
  encRefuse : Bool
  enWasOff : Bool
  /-- The sector whose gate is open. -/
  open' : Option Armed
  /-- Assist slots passed when it opened, and the sectors of the last Frets with theirs: a link abort counts those after its third
  missed UPDATE as cut (R143, R144). -/
  openSlot : Nat
  recent : List (Nat × Armed)
  /-- The last cut was caused by a wedge displaced toward the previous track (R221): the track, head and sector. -/
  squeeze : Option Armed
  /-- The last wedge measured within WF_TH, and of the squeeze's span the first wedge and the number of Frets (R221). -/
  within : Nat
  squeezeFrom : Nat
  squeezeFrets : Nat
  /-- Zone the live accumulator serves, and the data codewords it holds by physical index (R207). -/
  accZone : Option Nat
  acc : List (Nat × Content)
  /-- Words written to WRPx_ACC: what they differ by from the XOR of those codewords. -/
  accDiff : List (Nat × Nat)
deriving DecidableEq, Repr

/-- Ladder states (R241): on rungs 1 to 3, on rungs 4 to 8, waiting for ACTIVE to fall below 8, and with its recovered
codeword in the Cabinet (R234). A sector in SLIP is a slot whose slip search runs; a ladder that ends leaves the list. -/
inductive LadderState
  | buffered | revolve | wait | verify
deriving DecidableEq, Repr

/-- A sector's ladder (R228 to R241). It keeps the register values it entered with. -/
structure Ladder where
  id : Nat
  /-- Whose read it serves, and the request its sector was read by. -/
  source : ReqSource
  place : Place
  head : Nat
  track : Nat
  set : Nat
  zone : Option Nat
  smr : Bool
  slot : Option Nat
  state : LadderState
  rung : Nat
  /-- Retries, offsets or parity passes used on this rung. -/
  used : Nat
  detached : Bool
  /-- Command served, and whether it is a stream command (R236). -/
  command : Nat
  stream : Bool
  slipOk : Bool
  /-- RETRY_N, OFF_STEP, REALLOC_RUNG, STREAM_RUNG, EXT_GLB, EXT_ALT, PAR_REV, RUNG_EN as entered with. -/
  retryN : Nat
  offStep : Nat
  reallocRung : Nat
  streamRung : Nat
  extGlb : Nat
  extAlt : Nat
  parRev : Nat
  enabled : Nat
  /-- The read of this revolution rung is posted. -/
  posted : Bool
  /-- Rung 8: positions outstanding, reads of the present pass that have not ended, and whether it has been tried. -/
  outstanding : List Nat
  reading : Nat
  parityTried : Bool
  /-- Of a codeword that rung 8 of another ladder reads: that ladder (R233). -/
  parent : Option Nat
deriving DecidableEq, Repr

/-- A reallocation scheduled in the Chest (R237): the position, its codeword, whether it lies in a band, whether its
namespace is Managed, and the spares tried. -/
structure Realloc where
  head : Nat
  track : Nat
  place : Place
  zone : Option Nat
  word : Codeword
  smr : Bool
  managed : Bool
  tries : Nat
deriving DecidableEq, Repr

/-- The media format of a String (R202), and whether its block is in force. -/
structure StrFormat where
  formatted : Bool
  heads : Nat
  guard : Nat
  tskew : Nat
  cmrTrk : Nat
  tracks : Nat
  shdir : Nat
  /-- START[h][b] at 16 h + b. -/
  start : List Nat
deriving DecidableEq, Repr

/-- What the Bureau counts against a String (R431): consecutive failed loads, RTC seconds of safe retracts for lost
wedges, re-enables of the Nut link after NUT_FAIL. -/
structure Health where
  loadFails : Nat
  wedgeRetracts : List Nat
  nutEnables : Nat
deriving DecidableEq, Repr

/-- Everything one String holds beside its registers. -/
structure StringState where
  health : Health
  sce : Sce
  svd : Svd
  ae : Ae
  skew : SkewAvg
  rch : Rch
  wrp : Wrp
  ssq : Sequencer
  rsq : Sequencer
  wsq : Sequencer
  ladders : List Ladder
  /-- Number of the next ladder of this String. -/
  ladderNext : Nat
  reallocs : List Realloc
  format : StrFormat
  /-- What the media holds, by (head × 2²⁴ + track) × 2¹² + sector. -/
  media : List (Nat × Codeword)
  /-- The pending list of R239, oldest first, by media position, and drops from it (PEND_OVF). -/
  pendingList : List Nat
  pendOvf : Nat
deriving DecidableEq, Repr

/-- A dispatch-store entry of Harp (R191): the codeword in slot `slot` of String `x`. -/
structure HarpEntry where
  x : Str
  slot : Nat
  cls : Nat
  shift : Int
  /-- Global iteration this dispatch runs. -/
  iteration : Nat
  /-- Bit-flipping mode (R171), and the quad of the lane that was struck on it (R191, R194). -/
  bitFlip : Bool
  struckQuad : Option Nat
  /-- What the lane decodes: LLRs of the codeword bits in units of 0.5, or hard decisions (R163, R171). -/
  input : List Int := []
deriving DecidableEq, Repr

/-- What a Harp lane is doing (R190 to R195): `waiting` holds a confirmed codeword (R324). -/
inductive LaneJob
  | idle
  | decoding (e : HarpEntry)
  | checking (e : HarpEntry) (converged : Bool) (signature : Nat) (extrinsic : List Int)
  | waiting (e : HarpEntry)
  | selfTest
deriving DecidableEq, Repr

/-- A strike whose codeword has been restarted, with the signature of what the struck lane claimed, if it claimed
anything (R194), and whether the strike retired it. -/
structure StrikeRecord where
  x : Str
  slot : Nat
  lane : Nat
  signature : Option Nat
  retired : Bool
deriving DecidableEq, Repr

/-- Harp beside its registers. -/
structure Harp where
  store : List HarpEntry
  held : List HarpEntry
  lanes : List LaneJob
  /-- Lanes, least recently used first. -/
  lru : List Nat
  /-- Faults counted against each quad's checker (R194). -/
  chkFaults : List Nat
  records : List StrikeRecord
  /-- A lane named by RETIRE while its result is being checked (R195). -/
  retireAfter : List Nat
  /-- The throughput notice has been raised for this fall below the floor (R196). -/
  noticed : Bool
deriving DecidableEq, Repr

/-! ### Namespaces, zones and units (R201 to R216, R256 to R263) -/

/-- Kinds of namespace (R256). -/
inductive NsKind
  | conventional | zoned | managed
deriving DecidableEq, Repr

/-- Zone states (R209). -/
inductive ZoneState
  | empty | implicit | explicit | closed | full | readOnly | offline
deriving DecidableEq, Repr

/-- STATE of a zone record (R209). -/
def ZoneState.code : ZoneState → Nat
  | .empty => 0
  | .implicit => 1
  | .explicit => 2
  | .closed => 3
  | .full => 4
  | .readOnly => 5
  | .offline => 6

/-- A zone is active: open or closed (R215). -/
def ZoneState.active : ZoneState → Bool
  | .implicit | .explicit | .closed => true
  | _ => false

/-- A zone is open. -/
def ZoneState.opened : ZoneState → Bool
  | .implicit | .explicit => true
  | _ => false

/-- A record of the Chest (R209): a zone of a Zoned namespace, an internal zone of a Managed one, or a CMR unit. Zone
`index` of its namespace, or unit `index`. -/
structure Record where
  nsid : Nat
  index : Nat
  gen : Nat
  wp : Nat
  /-- Write pointer with every write accepted so far, which the next write is checked against (R213). -/
  accepted : Nat
  mp : Nat
  state : ZoneState
  band : Nat
  str : Str
  accValid : Bool
  clean : Bool
  nstag : Nat
  /-- Accumulator slot content: the data codewords of the incomplete stripe by physical index, if saved (R207). -/
  acc : List (Nat × Content)
  /-- FSEQ of its last write, for the implicit close (R215). -/
  lastWrite : Nat
  /-- A generation has been drawn since it left Empty. -/
  drawn : Bool
  /-- Spare map of a CMR unit: data sector and spare (R237); spares used. -/
  spares : List (Nat × Nat)
  sparesUsed : Nat
  /-- Its first write waits for the ladders of reads fetched before a Reset (R242). -/
  heldForLadders : Bool
  /-- Sectors withdrawn before they were on media: LBA, data and generation (R144, R210). -/
  keepGens : List (Nat × Nat × Nat)
  /-- A Finish has been taken: data sectors after which the last parity is written (R208). -/
  finish : Option Nat
deriving DecidableEq, Repr

/-- A band or unit of a String that carries a skip list (R224), pending skip requests with the hour each was made
(R223), or is retired. -/
structure BandInfo where
  str : Str
  band : Nat
  skips : List Nat
  pendingSkips : List (Nat × Nat)
  /-- Skip requests that wait for an entry of the skip-list pool (R304). -/
  waitingSkips : List (Nat × Nat)
  retired : Bool
deriving DecidableEq, Repr

/-- Reservation state of a namespace (R262): registrants (host identifier, key), holder, type 1 to 6 (0 none),
generation, Persist Through Power Loss. -/
structure Reservation where
  registrants : List (Nat × Nat)
  holder : Option Nat
  rtype : Nat
  generation : Nat
  ptpl : Bool
deriving DecidableEq, Repr

/-- A capsule of a compressed Managed namespace (R337, R341): first LBA, blocks, FSEQ of its write, CSA of its header's
payload, offset and footprint in 16-byte units, and live blocks. -/
structure Capsule where
  lba : Nat
  blocks : Nat
  fseq : Nat
  csa : Nat
  offset : Nat
  footprint : Nat
  live : List Nat
  /-- Blocks that a capsule not yet on media has superseded here: a power loss makes them live again (R309). -/
  prior : List Nat
  /-- Its header and body (R337). -/
  bytes : List Nat
deriving DecidableEq, Repr

/-- A namespace (R256, R257). -/
structure Namespace where
  nsid : Nat
  kind : NsKind
  nsze : Nat
  mask : Nat
  compressed : Bool
  flbas : Nat
  dps : Nat
  appTag : Nat
  refTag : Nat
  shared : Bool
  nstag : Nat
  slot : Nat
  attached : List Nat
  res : Reservation
  /-- G_X per String as numerator and denominator (R279). -/
  g : Quad (Nat × Nat)
  /-- Bands it reserves (R256), and payloads in outstanding grants (R343). -/
  bands : Nat
  granted : Nat
  /-- A Format or Sanitize of it runs (R263). -/
  formatting : Bool
  /-- The key slot's record failed its unwrap check; every media command ends in Internal Error (R319). -/
  keyLost : Bool
  /-- Map of a Conventional or Managed namespace: LBA, or CSA of a compressed one, record, data sector z. An LBA not
  listed reads as zeros. -/
  map : List (Nat × Nat × Nat)
  capsules : List Capsule
deriving DecidableEq, Repr

/-! ### Host port (R245 to R276) -/

/-- A submission queue, its completion queue, size and priority; the stream slot that holds it (R291). -/
structure SubQueue where
  sqid : Nat
  cqid : Nat
  size : Nat
  prio : Nat
  stream : Option Nat
deriving DecidableEq, Repr

/-- Arbitration of an HQE's submission queues (R267): the queue whose burst runs and the commands left of it, the queue last
chosen in each class, and the credits left of the high, medium and low weighted classes. -/
structure Arbiter where
  queue : Nat
  left : Nat
  last : List (Nat × Nat)
  credits : List Nat
deriving DecidableEq, Repr

/-- A controller beside its registers (R247 to R250). -/
structure Controller where
  /-- CC.EN, SHN and AMS as the host wrote them. -/
  enabled : Bool
  ams : Nat
  hostId : Nat
  sqs : List SubQueue
  cqs : List (Nat × Nat × Option Nat)
  /-- Feature values set, by identifier (R252). -/
  features : List (Nat × Nat)
  /-- Asynchronous events waiting for a request, oldest first: type and information. -/
  events : List (Nat × Nat)
  /-- Changed namespaces (log page 04h), errors logged (01h), newest first: FSEQ, LBA, vendor byte. -/
  changed : List Nat
  /-- CC.EN has been set and RDY is due; a controller-level reset has come before. -/
  starting : Bool
  wasReset : Bool
  arbiter : Arbiter
deriving DecidableEq, Repr

/-- What became of a block of a command (R235, R272): it waits for the media, it is taken from the version of a write,
its data is held in a read page, it is done, or it failed. -/
inductive BlockState
  | waiting | version (fseq : Nat) | held | done | failed (s : NvStatus)
deriving DecidableEq, Repr

/-- A command that an HQE holds (R266 to R276). -/
structure Cmd where
  fseq : Nat
  hqe : Nat
  sqid : Nat
  cid : Nat
  nsid : Nat
  hostId : Nat
  op : HostOp
  /-- Its blocks, by LBA, for a command that reads or writes them; data read, with the String whose read page holds it. -/
  blocks : List (Nat × BlockState)
  data : List (Nat × Nat × Option Str)
  /-- Executed: its row has been taken. Accepted by the Bureau. -/
  started : Bool
  accepted : Bool
  /-- Blocks whose media read has been posted; payloads of capsules verified into Phovi staging (R341). -/
  posted : List Nat
  staged : List Nat
  /-- FSEQ of the versions pinned (R296). -/
  pins : List Nat
  /-- Waits for these FSEQ before it completes (Flush, R269; Delete and Detach, R263). -/
  waits : List Nat
  /-- Completion ready to be committed: status, DW0, DW1 low half. -/
  ready : Option (NvStatus × Nat × Nat)
  /-- Blocks not yet on media that hold back the completion of a write (R44, R283). -/
  owed : List Nat
  /-- Stream slot and the frame edges left, lateness, SUSP, late while not suspended, WDRN, OVR (R284 to R286). -/
  stream : Option Nat
  remaining : Nat
  late : Nat
  susp : Bool
  isLate : Bool
  wdrn : Bool
  ovr : Bool
  /-- It completes without a completion-queue entry: its controller has been reset (R250). -/
  silent : Bool
  /-- A write whose zone has been reset since: the write pointer no longer advances at its completion (R216, R269). -/
  past : Bool
  /-- Fetch time in 100 ms units, for TLER (R236). -/
  fetched : Nat
deriving DecidableEq, Repr

/-! ### Bridge and Chest (R293 to R315) -/

/-- Version states (R295). -/
inductive VersionState
  | xfer | ready | drained | failed
deriving DecidableEq, Repr

/-- Which grant queue a write joined (R300); a stream's by the index of its slot, controller × 65,536 + slot. -/
inductive GrantQueue
  | chest | ordinary | stream (slot : Nat)
deriving DecidableEq, Repr

/-- A version of an extent (R295 to R297). -/
structure Version where
  fseq : Nat
  nsid : Nat
  lba : Nat
  data : List Nat
  state : VersionState
  /-- Blocks superseded, each with the FSEQ that superseded it first; blocks on media. -/
  superseded : List (Nat × Nat)
  onMedia : List Nat
  pins : Nat
  /-- It is held in the Chest write buffer, not in version-store pages. -/
  queue : GrantQueue
  /-- It has left the index (zone Reset, R298). -/
  unlisted : Bool
  /-- Blocks encrypted or issued in a batch and not yet on media. -/
  issued : List Nat
  /-- Phovi payloads granted (R343). -/
  grant : Nat
  /-- A volatile acknowledgement was journalled (R308). -/
  volatileAck : Bool
  /-- Blocks whose data has been lost in the Bridge (R414, R416). -/
  lost : List Nat
  /-- Pages of its stream's reservation that it holds (R299). -/
  held : Nat
deriving DecidableEq, Repr

/-- An entry of the write-buffer log (R306, R307): FSEQ, rows, committed, retired. -/
structure LogEntry where
  fseq : Nat
  nsid : Nat
  lba : Nat
  /-- First row, in the log, and rows. -/
  row : Nat
  rows : Nat
  seq : Nat
  committed : Bool
  retired : Bool
  /-- Key identity its data rows were encrypted under (R327). -/
  key : Nat
deriving DecidableEq, Repr

/-- A row write waiting for tokens (R311): class 1 journal, 2 table, 3 write buffer, 4 other; row number. -/
structure RowWrite where
  cls : Nat
  row : Nat
  /-- The journal record it follows is retired once it is made (R308). -/
  retires : Bool
deriving DecidableEq, Repr

/-- The Bridge and the Chest beside their registers. -/
structure BridgeState where
  running : Bool
  versions : List Version
  /-- Writes waiting for their grant, by queue, in FSEQ order (R300): FSEQ and queue. -/
  waiting : List (Nat × GrantQueue)
  log : List LogEntry
  logSeq : Nat
  journalSeq : Nat
  /-- Table rows of changes that wait on a full journal (R308). -/
  journalWait : List Nat
  rowsWaiting : List RowWrite
  /-- Tokens in each group's bucket, and row writes of each group since its gap last moved (R310, R311). -/
  groupTokens : List Nat
  gapCount : List Nat
  gapPlace : List Nat
  /-- Spilled read pages: command and LBA (R301). -/
  spilled : List (Nat × Nat)
  /-- Read pages that hold poison, and blocks read again for that: command and LBA (R414). -/
  poisonPages : List (Nat × Nat)
  readAgain : List (Nat × Nat)
  /-- Installed usable LPDDR5X, pages of 4 KiB. -/
  usable : Nat
deriving DecidableEq, Repr

/-! ### Cabinet (R316 to R334) -/

/-- Key-slot states (R318). -/
inductive SlotState
  | free | active | exhausted
deriving DecidableEq, Repr

/-- A key slot (R318): its state, the identity of its keys (0 none), its generation counter, its owner. -/
structure KeySlot where
  state : SlotState
  key : Nat
  counter : Nat
  nsid : Nat
  nstag : Nat
deriving DecidableEq, Repr

/-- Where a codeword or request comes from (R316, R325). -/
inductive CabSource
  | inline | rung (n : Nat) | scb | verifyCmd | encrypt | xts
deriving DecidableEq, Repr

/-- A Cabinet request (R316, R330). -/
structure CabJob where
  source : CabSource
  cls : Nat
  x : Str
  /-- Lane the codeword waits in (R324). -/
  lane : Option Nat
  /-- The sector: the command or request served, its LBA, the codeword for a decrypt. -/
  command : Nat
  lba : Nat
  word : Option Codeword
  slot : Nat
  /-- Its ladder, and where it lies. -/
  ladder : Option Nat
  action : Option Armed
  /-- Encrypt: generation, version, request identifier and offset. -/
  gen : Nat
  version : Nat
  offset : Nat
  /-- The counter block of GCM (R322), the tweak of XTS (R327). -/
  nonce : List Nat := []
deriving DecidableEq, Repr

/-- A slot operation waiting for the requests that name its slot (R320, R332). -/
structure SlotOp where
  op : Nat
  slot : Nat
  /-- Command that caused it. -/
  command : Option Nat
deriving DecidableEq, Repr

/-- The Cabinet beside its registers. -/
structure Cabinet where
  slots : List KeySlot
  nextKey : Nat
  /-- Requests waiting (at most 64), requests each core works on, codewords waiting in their lane for an entry. -/
  queue : List CabJob
  running : List (Nat × CabJob)
  holdWait : List CabJob
  ops : List SlotOp
deriving DecidableEq, Repr

/-! ### Phovi (R335 to R351) -/

/-- A Phovi job (R345): compress a version's blocks, or decompress the capsule of a write for a command; `version` is the
FSEQ of that write. -/
structure PhvJob where
  id : Nat
  compress : Bool
  cls : Nat
  nsid : Nat
  version : Nat
  command : Nat
  lba : Nat
  blocks : Nat
  /-- Reruns: the engine that failed it and the code it gave. -/
  failedOn : Option Nat
  code : Nat
  /-- CAPS_BLK and MIN_GAIN in force at its start. -/
  capsBlk : Nat
  minGain : Nat
deriving DecidableEq, Repr

/-- A packed payload on its way to the media (R340): its internal zone, data sector and CSA, the blocks of each version
whose capsules end in it, whether it is handed to the Cabinet, full or by a forced tail, and whether it is in a write
batch. -/
structure Payload where
  nsid : Nat
  record : Nat
  z : Nat
  csa : Nat
  ends : List (Nat × List Nat)
  /-- What capsules have put into it, by place. -/
  parts : List (Nat × List Nat)
  whole : Bool
  issued : Bool
deriving DecidableEq, Repr

/-- The Phovi engines beside their registers. -/
structure Phovi where
  queue : List PhvJob
  engines : List (Option PhvJob)
  saved : List PhvJob
  jobSeq : Nat
  /-- Stream position of each internal zone with a partial payload: record and byte of the zone's stream (R340). -/
  positions : List (Nat × Nat)
  packed : List Payload
  /-- Bytes packed beyond the KiB counted in PACK_KIB. -/
  packRest : Nat
  /-- Writes waiting for a payload grant (R343): FSEQ and payloads. -/
  spaceWait : List (Nat × Nat)
deriving DecidableEq, Repr

/-! ### Streams (R277 to R292) -/

/-- An armed stream (R277 to R281): its controller and slot, queue, namespace, direction, Strings, blocks per frame,
deadline, order. -/
structure Stream where
  hqe : Nat
  slot : Nat
  sqid : Nat
  nsid : Nat
  read : Bool
  mask : Nat
  bpf : Nat
  dlf : Nat
  aord : Nat
  /-- Pages taken of its reservation (R299), and sectors taken on each String in this frame (R282). -/
  pages : Nat
  reached : Quad Nat
deriving DecidableEq, Repr

/-- A clean in progress (R223): the source record and its namespace's kind, its destination band, the live sectors in
order (data sector and LBA), data sectors whose read has not ended, codewords read, unreadable data sectors met, the
next live sector to post, physical indices posted and not yet on media, and the stripe being accumulated. -/
structure Clean where
  record : Nat
  managed : Bool
  str : Str
  dest : Nat
  items : List (Nat × Nat)
  left : List Nat
  got : List (Nat × Content)
  unreadable : List Nat
  next : Nat
  posted : List Nat
  acc : List (Nat × Content)
deriving DecidableEq, Repr

/-- Everything the HQEs and the media manager hold beside registers. -/
structure HostState where
  fseq : Nat
  controllers : List Controller
  cmds : List Cmd
  namespaces : List Namespace
  records : List Record
  bands : List BandInfo
  streams : List Stream
  aordNext : Nat
  /-- WDRN and the cause of the last withdrawal of a queue: HQE, SQID, flag, cause (R281). -/
  withdrawn : List (Nat × Nat × Bool × Nat)
  cleans : List Clean
  /-- Ranges marked write-lost: NSID, first LBA, count (R416). -/
  writeLost : List (Nat × Nat × Nat)
  /-- Next identifier of a sequencer request. -/
  requestId : Nat
  /-- Write batches issued to each String in this revolution (R210). -/
  batches : Quad Nat
  /-- Media and Data Integrity Errors; Error Information log, newest first: FSEQ, NSID, LBA, vendor byte. -/
  integrityErrors : Nat
  errorLog : List (Nat × Nat × Nat × Nat)
  /-- Persistent Event log entries of volatile writes lost (R309): NSID, first LBA, blocks. -/
  lostWrites : List (Nat × Nat × Nat)
  /-- Zones changed for the Changed Zone List. -/
  changedZones : List (Nat × Nat)
  /-- Telemetry period in ms, the controller-initiated telemetry page, and that it is available (R398). -/
  telemetryMs : Nat
  telemetry : List Nat
  telemetryReady : Bool
  /-- Device self-test results, newest first; Sanitize Status. -/
  selfTests : List Nat
  sanitizeLog : List Nat
  /-- NVMe-MI configuration by identifier, and the vital product data written, by offset (R255). -/
  miConfig : List (Nat × Nat)
  vpd : List (Nat × Nat)
  /-- The Timestamp feature as it was set, ms, and the RTC second then (R395). -/
  timestamp : Option (Nat × Nat)
  /-- Ports whose PERST is asserted; ports in training. -/
  perst : List Bool
  training : List Bool
deriving DecidableEq, Repr

/-! ### Bureau caches and memory integrity (R401 to R418) -/

/-- A line of an L2 (R401): its address, its way, whether it is dirty, its 64 bytes. -/
structure L2Line where
  addr : Nat
  way : Nat
  dirty : Bool
  data : List Nat
deriving DecidableEq, Repr

/-- A maintenance operation as its GO found it (R405). -/
structure L2Op where
  op : Nat
  bySet : Bool
  set : Nat
  way : Nat
  addr : Nat
  lines : Nat
deriving DecidableEq, Repr

/-- A line stream of the prefetcher (R407): the line last missed, and whether it rises or falls once that is known. -/
structure LineStream where
  line : Nat
  rising : Option Bool
deriving DecidableEq, Repr

/-- An L2 beside its registers: its lines, the pseudo-LRU tree of each set, the side buffer, oldest first (an address and its
64 bytes), the streams, oldest first, the operation in progress and the one queued. -/
structure L2Cache where
  lines : List L2Line
  trees : List (Nat × Nat)
  side : List (Nat × List Nat)
  streams : List LineStream
  running : Option L2Op
  queued : Option L2Op
deriving DecidableEq, Repr

/-- The memories beside their bytes: the caches; check bits stored raw, by word (R417); poisoned words (R414); words the scrubber is asked to visit within 1 ms (R411); 256-byte
blocks of SRAM with their valid bit set, words written in normal service, and instances filled (R418). -/
structure MemoryState where
  caches : List L2Cache
  check : List (Nat × Nat)
  poisoned : List Nat
  asked : List Nat
  valid : List Nat
  written : List Nat
  filled : List Nat
deriving DecidableEq, Repr

/-! ### Bureau and Cibor (R377 to R398) -/

/-- An accepted Cibor request (R383 to R390): its source (controllers 0 to 7, 8 NVMe-MI, 9 the Bench port, 10 one whose
reply is discarded: its Bench session has closed or its controller has been reset, R387, R472), its header,
its parameters and payload, its place in the order of acceptance, and that it has begun and replies later. -/
structure CiborRequest where
  source : Nat
  opcode : Nat
  cls : Nat
  flags : Nat
  tag : Nat
  target : Nat
  segoff : Nat
  params : List Nat
  payload : List Nat
  order : Nat
  started : Bool
  /-- Strings that the request has begun on, those that refused it, and the status of the first refusal. -/
  named : Nat
  refused : Nat
  refusal : CStat
deriving DecidableEq, Repr

/-- A reply that is ready and has not been fetched (R384, R387). -/
structure CiborReply where
  source : Nat
  tag : Nat
  bytes : List Nat
deriving DecidableEq, Repr

/-- An open transfer of segments (R385). -/
structure Transfer where
  source : Nat
  opcode : Nat
  id : Nat
  bytes : List Nat
deriving DecidableEq, Repr

/-- What a signed extension module holds (R381): slot of its key's hash agrees, its signature holds, its security
version, its size in bytes, the hooks it registers for by number. -/
structure ModuleImage where
  signed : Bool
  svn : Nat
  size : Nat
  hooks : List Nat
deriving DecidableEq, Repr

/-- A loaded extension module (R381, R382): disabled until the next power-on, times of its overruns. -/
structure ExtModule where
  number : Nat
  image : ModuleImage
  disabled : Bool
  overruns : List Nat
deriving DecidableEq, Repr

/-- A copy of the stored configuration (R394): sequence number, register values, format record, allow list. -/
structure StoredConfig where
  seq : Nat
  regs : List (Nat × Nat)
  formats : List StrFormat
  allow : List (Nat × Nat)
deriving DecidableEq, Repr

/-- The Bureau beside its registers. -/
structure Bureau where
  /-- Tasks of the base firmware, one for each core that its class wants: the class, and the core it is placed on (R377). -/
  tasks : List (Nat × Option Nat)
  requests : List CiborRequest
  replies : List CiborReply
  transfers : List Transfer
  order : Nat
  modules : List ExtModule
  /-- RTC second of the last watchdog expiry of a core (R378). -/
  expiries : List (Nat × Nat)
  allow : List (Nat × Nat)
  /-- The two copies, and the one being erased and programmed. -/
  stored : List (Option StoredConfig)
  storing : Option StoredConfig
  /-- Clock-gated between commands in Standby (R427). -/
  gated : Bool
  /-- SVN minimums held in the Chest: SSQ, RSQ, WSQ microcode, extension modules (R373, R381). -/
  svnMin : List Nat
deriving DecidableEq, Repr

/-! ### Power (R423 to R438, R482) -/

/-- Power and modes beside the registers. -/
structure Power where
  /-- Time of the power-loss event of the emergency retract in progress (R434). -/
  loss : Option Nat
  /-- VM is below VM_RETMIN, and not yet above it by 0.5 V (R435). -/
  vmLow : Bool
  /-- The power-on sequence starts at the end of the retract: the supply is good (R435). -/
  supplyDue : Option PowerIn
  /-- The power-on sequence has ended with AUTOSPIN set before VM was charged (R425, R430). -/
  startDue : Bool
  /-- Standby follows once every SCE is UNLOADED and the spindle is OFF (R430). -/
  standbyDue : Bool
  /-- Source that entered Maintenance (R429). -/
  maintSource : Option Nat
  /-- MAINPWR_EN, that the rails have not yet come into range, failures in a row, and that it is held low (R482). -/
  mainpwr : Bool
  railWait : Bool
  railFails : Nat
  railHeld : Bool
deriving DecidableEq, Repr

/-! ### Calibration and temperature (R443 to R454) -/

/-- A calibration script that runs (R443 to R445): its Strings and head, the request or schedule entry it serves, that it
has given way; for TD_SEARCH the last mean of ECS, the steps in a row that fell short and the heater of the first of them,
then the heater at contact, and the sum and number of the means of ECS taken at HTR_RD. -/
structure CalRun where
  script : Nat
  mask : Nat
  head : Nat
  request : Option Nat
  entry : Option Nat
  yielded : Bool
  mean : Option Nat
  flat : Nat
  firstFlat : Nat
  contact : Option Nat
  refSum : Nat
  refCount : Nat
deriving DecidableEq, Repr

/-- CAL beside its registers: scripts that run, and for each schedule entry and String, at 4 × entry + String, the RTC
minute of its last run and the temperature then, in quarter degrees. -/
structure Cal where
  runs : List CalRun
  ran : List (Nat × Int)
deriving DecidableEq, Repr

/-- The thermal manager beside its registers: L_H, the last answer of HK_THERMAL, that T_J has reached 110 °C and not yet
fallen below 105 °C (R450); the Harp quads it leaves no codeword to, and those it has gated (R451, R452); by controller,
that Composite Temperature is beyond the over and under thresholds (R448: bits 0 and 1). -/
structure Thermal where
  level : Nat
  step : Nat
  hot : Bool
  draining : List Nat
  quads : List Nat
  beyond : List Nat
deriving DecidableEq, Repr

/-! ### Life cycle and Bench (R458 to R474) -/

/-- How the serial NOR is read (R465): lines of instruction, address and data, the instruction, its mode and wait clocks, the
method of quad enable, and how addresses from 16 MiB on are given: by 4-byte instructions, or by the entry methods coded in the
BFPT. -/
structure NorRead where
  lines : Nat × Nat × Nat
  instruction : Nat
  clocks : Nat
  quadEnable : Nat
  fourByte : Bool
  entry : Nat
deriving DecidableEq, Repr

/-- A firmware image in a slot of the serial NOR (R463): its magic is right, its body length, SVN, hash of its public key
in twelve words, its signature holds. -/
structure NorImage where
  magic : Bool
  length : Nat
  svn : Nat
  key : List Nat
  signed : Bool
deriving DecidableEq, Repr

/-- A transition (R460, R461): the state it leads to, the key hashes it blows, in words of 12 per slot, and from RAW the
identity: four words of device identifier, Vendor ID, Subsystem Vendor ID, variant, stepping, manufacturer code. -/
structure Transition where
  target : Nat
  hashes : List Nat
  identity : List Nat
deriving DecidableEq, Repr

/-- The fuses beside those that registers show, the live challenge and intent record, and the serial NOR's images. -/
structure LifeCycle where
  /-- STAGE as it is blown, SCRAP, the identity of the root secret, 0 when there is none, and the manufacturer code of the
  identity fuses (R468). -/
  stage : Nat
  scrap : Bool
  secret : Nat
  manufacturer : Nat
  /-- Nonce of the live challenge, by its eight words (R462). -/
  challenge : Option (List Nat)
  intent : Option Transition
  /-- A transition that waits until the session closes, and the request that brought it, by its order (R472). -/
  waiting : Option (Transition × Option Nat)
  /-- Image slots A and B, the directory's active slot, and the image being downloaded: dword offset and value. -/
  images : List (Option NorImage)
  nor : NorRead
  active : Nat
  download : List (Nat × Nat)
deriving DecidableEq, Repr

/-- The shadow engine of R471: the engine copied; of an SCE its signals after LOAD, the PRED output, the number of the
table in force and the words of that table with its state pool, by register key; the section it stands at, whether it has
reached END, and the live outputs S30 and S31 of the execution. -/
structure ShadowEngine where
  engine : Nat
  sig : List Int
  pred : Int
  table : Nat
  words : List (Nat × Nat)
  at' : Nat
  ended : Bool
  live30 : Int
  live31 : Int
deriving DecidableEq, Repr

/-- The Bench port beside its registers: the TAP instruction in force, engines halted by requester code (cores are in
HALTED), breakpoints by engine, kind (0 instruction, address, section or stage, 1 data) and place, SNAP pending, what the
law execution it names has latched, the shadow, the section that a halted SCE steps next, the trace buffer, newest first
(tag and 600 MHz timestamp). -/
structure Bench where
  ir : Nat
  halted : List Nat
  breaks : List (Nat × Nat × Nat)
  snap : Option Nat
  latched : Option ShadowEngine
  shadow : Option ShadowEngine
  stepAt : Quad Nat
  trace : List (Nat × Nat)
deriving DecidableEq, Repr

/-- A write to an S field that waits for its boundary (R9, R10). -/
structure Shadow where
  reg : Reg
  idx : Nat
  value : Nat
deriving DecidableEq, Repr

/-- An entry of the Bureau's event ring (R395). -/
structure Event where
  seq : Nat
  time : Nat
  code : Nat
  mask : Nat
  severity : Nat
  data : List Nat
deriving DecidableEq, Repr

/-- What the block has sent outside itself: interrupts to the Bureau's firmware, error responses, frames on the Nut
links, asynchronous events to the host. -/
inductive Out
  /-- Interrupt to the Bureau: what raised it, and the instance. -/
  | irq (source : String) (number : Nat)
  /-- Error response of the fabric to a requester (R39). -/
  | errorResponse (requester address : Nat)
  /-- Outbound frame of a Nut link (R133). -/
  | nutFrame (x : Str) (frame : Nat)
  /-- NVMe asynchronous event of type 7h with this information code (R196, R380). -/
  | asyncEvent (information : Nat)
  /-- A completion-queue entry handed to host DMA: controller, queue, command identifier, status, DNR and CRD where they
  are stated, DW0, DW1. -/
  | cqe (hqe sqid cid : Nat) (status : NvStatus) (retry : Option (Nat × Nat)) (dw0 dw1 : Nat)
  /-- Word of an answer on the SMBus: of an NVMe-MI message or the basic management command (R255). -/
  | mi (place value : Nat)
  /-- Data moved to host memory for a command: block, or page of a structure. -/
  | hostData (fseq place value : Nat)
  /-- Byte of a frame or register that the Bench port sends out: place and value (R468 to R471). -/
  | bench (place value : Nat)
  /-- Completion of a tunnelled admin command on the SMBus (R255). -/
  | miStatus (status : NvStatus) (dw0 : Nat)
  /-- Frame status of a Cibor packet, or of a debug command, over the Bench port (R388, R470). -/
  | frameStatus (tag : Nat) (status : CStat)
  /-- The write gate opens: the shifts of a transition after one transition and after two, in 1/64 bit-time (R226). -/
  | writer (x : Str) (one two : Nat)
  /-- A completed sequencer request: status and walker index (R358). -/
  | requestDone (x : Str) (q : SeqId) (id status index : Nat)
deriving DecidableEq, Repr

/-- Why the machine stops. No command of this block stops it: where the spec turns a command away it says with what
effect (an error response, a status, a flag), and that effect is the command's meaning here. -/
inductive Fault
  /-- An ill-formed command (an operand outside the width the spec gives it). No meaning raises it; safe. -/
  | illFormed
deriving DecidableEq, Repr

/-- Why a command has no meaning here. -/
inductive Refusal
  /-- The command named has no meaning in the model yet. Raised by `exec`'s arm alone; safe. -/
  | notModelled (mnemonic : String)
deriving DecidableEq, Repr

structure State where
  regs : List (Nat × Nat)
  shadow : List Shadow
  mem : List Host.Cell
  /-- Control stores: microword of sequencer n at n × 4,096 + address (R355), and words staged by the register port:
  sequencer, address, offset in the slot, value. -/
  control : List (Nat × Nat)
  staged : List (Nat × Nat × Nat × Nat)
  timebase : Nat
  draws : Nat
  events : List Event
  eventSeq : Nat
  fret : FretTiming
  capo : Capo
  spe : Spe
  str : Quad StringState
  harp : Harp
  host : HostState
  bridge : BridgeState
  cab : Cabinet
  phv : Phovi
  memory : MemoryState
  bur : Bureau
  power : Power
  cal : Cal
  therm : Thermal
  lc : LifeCycle
  bench : Bench
  out : List Out
  pending : List Instr
deriving DecidableEq, Repr

/-! ### The state after reset -/

def Sequencer.atReset : Sequencer :=
  let pos : SectorPos := { index := 0, wedge := 0, start := 0, split := none }
  let w : Walker := { placed := false, offset := 0, pos }
  let g := List.replicate 16 0
  let c := List.replicate 4 0
  { g, c, pt := 0, pm := 0, stack := [], walker := w, z := false, n := false, carry := false, queue := [], loaded := none
    commit := [], mailbox := [], armed := [], wbound := false, sam := false, missam := false, secf := false, uevt := false
    capack := 0, done := 0, notReady := false, sbufFull := false, brgFull := false, late := false, runStop := false
    irq := [false, false, false], entry := 0, snap := { g, c, pm := 0, walker := w }, restart := false, faulted := false
    fromAbandon := false, stopPend := false, waiting := false, progress := 0, returned := [], rstTime := none, rstFaults := 0, sweep := false }

def Sce.atReset : Sce :=
  { sig := List.replicate 32 0, headChanged := false, headNext := false, refP := 0, refV := 0, refA := 0, plan := none, pred := 0, iVcm := 0
    missed := false, lost := false, wedgeGood := false, settleRun := 0, settleFrets := 0, overran := false, step := .none
    cause := .planned, emergency := false, rampFrets := 0, turn := false, rampFrom := 0, loopTicks := 0, slowTicks := 0, retLimit := 0, taken := Quad.all []
    quiet := Quad.all 0, takenTime := Quad.all 0, sent := [], limit := 0, shockHold := false, needRef := false
    lawHold := false }

def Svd.atReset : Svd :=
  { lastSam := 0, lastMeasured := none, haveSam := false, lastFret := false, samMeasured := false, predicted := 0, wedge := 0, slipFrom := none
    numberBad := false, confirms := 0, misses := 0, servoGate := false, windowHead := 0, expected := 0, deviation := 0
    dataWedge := 0 }

def Ae.atReset : Ae :=
  let six := List.replicate 6 0
  let none6 := List.replicate 6 false
  { warm := 0, idleAcked := false, heldFrets := 0, unacked := 0, slots := 0, missWedge := 0, missSlot := 0, replyHead := 0, ledger := six, soft := none6, capDue := none, linkDue := none
    armDue := false, calDue := false, headDue := false, slotHead := 0, ecs := six, ecsSum := 0, ecsCount := 0, assist := 0
    mode := 0, heater := 0, wc := 0, tdZero := false, hot := none6, seq := 0, last := none, prev := none, idleQueue := []
    postQueue := [], retry := none }

def Rch.atReset : Rch :=
  { slots := List.replicate 10 none, gate := none, adapt := [], highMse := 0, reload := false, taps := []
    dc := [0, 0, 0], phase := 0, freq := 0, unconfigured := false, passes := [], heldRestarts := [], pipe1 := none, pipe2 := none, capMode := false }

def Wrp.atReset : Wrp :=
  { cells := [], fifo := [], retrying := none, encRefuse := false, enWasOff := false, open' := none, openSlot := 0, recent := [], squeeze := none, within := 0, squeezeFrom := 0
    squeezeFrets := 0, accDiff := []
    accZone := none, acc := [] }

/-- A String without a media format record and with nothing on its media. -/
def StringState.atReset : StringState :=
  { health := { loadFails := 0, wedgeRetracts := [], nutEnables := 0 }, sce := Sce.atReset, svd := Svd.atReset
    ae := Ae.atReset, skew := { base := 0, sum := 0, revs := 0, held := false, wedge0 := 0, haveWedge0 := false }
    rch := Rch.atReset, wrp := Wrp.atReset, ssq := Sequencer.atReset, rsq := Sequencer.atReset, wsq := Sequencer.atReset
    ladders := [], ladderNext := 0, reallocs := []
    format := { formatted := false, heads := 0, guard := 0, tskew := 0, cmrTrk := 0, tracks := 0, shdir := 0, start := [] }
    media := [], pendingList := [], pendOvf := 0 }

def Capo.atReset : Capo :=
  { v := 0, a := 0, coasting := false, offset := 0, lastEdge := 0, haveEdge := false, periods := [], measSum := 0
    measCount := 0, refPeriod := 0, framed := false, frameRef := 0, predictedFrames := 0, frameTime := 0, wedges := 0
    phaseStage := false, lockPoint := 0
    lockFrames := 0, fromLocked := false, lockedW := 0, lockedUhz := 0, inhibit := Quad.all false, releasing := false }

def Spe.atReset : Spe :=
  { bridge := .off, sampling := false, residHold := false, rejects := 0, attempts := 0, alignAngle := 0, angle := 0
    angleRest := 0, locked := false, olSpeed := 0, olAngle := 0, catching := none, catchKe := none, floatPhase := 0
    floatLeft := 0, clampEnding := false, brake := false, lossEmf := 0, idMeas := 0, iqMeas := 0, field := 0
    stopPending := false, toRest := false, restHold := false, clamp := false, excursion := false, floatClamp := false
    ocHold := false, ocTrips := [], skips := 0, goods := 0, lossRun := 0, floated := false, crossings := 0, idCmd := 0
    iqCmd := 0, dutyNext := (0, 0, 0), dutyNow := (0, 0, 0), loopPhase := 0, ramped := 0, keSum := 0, keCount := 0
    inhibit := Quad.all false, releasing := false, rcbBlocking := true, vmCharged := false, flyAsked := false, lastTick := 0 }

def Harp.atReset : Harp :=
  { store := [], held := [], lanes := List.replicate 32 .idle, lru := List.range 32, chkFaults := List.replicate 8 0
    records := [], retireAfter := [], noticed := false }

def Arbiter.atReset : Arbiter := { queue := 0, left := 0, last := [], credits := [0, 0, 0] }

def Controller.atReset : Controller :=
  { enabled := false, ams := 0, hostId := 0, sqs := [], cqs := [], features := [], events := [], changed := []
    starting := false, wasReset := false, arbiter := Arbiter.atReset }

/-- The host's side: no namespace, eight controllers disabled, both ports' PERST asserted (log entry 2). -/
def HostState.atReset : HostState :=
  { fseq := 0, controllers := List.replicate 8 Controller.atReset, cmds := [], namespaces := [], records := [], bands := []
    streams := [], aordNext := 0, withdrawn := [], cleans := [], writeLost := [], requestId := 0, batches := Quad.all 0
    integrityErrors := 0, errorLog := [], lostWrites := [], changedZones := [], telemetryMs := 0, telemetry := []
    telemetryReady := false, selfTests := [], sanitizeLog := [], miConfig := [], vpd := [], timestamp := none
    perst := [true, true], training := [false, false] }

/-- The Bridge and the Chest: not in service, nothing held; 7/8 of 8 GiB is usable (R294, log entry 2). -/
def BridgeState.atReset : BridgeState :=
  { running := false, versions := [], waiting := [], log := [], logSeq := 0, journalSeq := 0, journalWait := []
    rowsWaiting := [], groupTokens := List.replicate 64 65536, gapCount := List.replicate 64 0
    gapPlace := List.replicate 64 0, spilled := [], poisonPages := [], readAgain := [], usable := 1835008 }

def Cabinet.atReset : Cabinet :=
  { slots := List.replicate 256 { state := .free, key := 0, counter := 0, nsid := 0, nstag := 0 }, nextKey := 1, queue := []
    running := [], holdWait := [], ops := [] }

def Phovi.atReset : Phovi :=
  { queue := [], engines := [none, none], saved := [], jobSeq := 0, positions := [], packed := [], packRest := 0, spaceWait := [] }

def L2Cache.atReset : L2Cache :=
  { lines := [], trees := [], side := [], streams := [], running := none, queued := none }

def MemoryState.atReset : MemoryState :=
  { caches := List.replicate 4 L2Cache.atReset, check := [], poisoned := [], asked := []
    valid := [], written := [], filled := [] }

def Bureau.atReset : Bureau :=
  { tasks := [], requests := [], replies := [], transfers := [], order := 0, modules := [], expiries := [], allow := []
    stored := [none, none], storing := none, gated := false, svnMin := [0, 0, 0, 0] }

def Power.atReset : Power :=
  { loss := none, vmLow := false, supplyDue := none, startDue := false, standbyDue := false, maintSource := none
    mainpwr := false, railWait := false, railFails := 0, railHeld := false }

def LifeCycle.atReset : LifeCycle :=
  { stage := 7, scrap := false, secret := 1, manufacturer := 0, challenge := none, intent := none, waiting := none
    nor := { lines := (1, 1, 1), instruction := 0x0B, clocks := 8, quadEnable := 0, fourByte := false, entry := 0 }, images := [none, none], active := 0, download := [] }

/-- The register file after reset: no field away from its row's reset value but the third words of PWR_DOMREQ and
PWR_DOMSTAT, whose bits [31:16] are reserved (R437), and LC_STAT.STATE, which the fuses give: FIELD (log entry 2). -/
def regsAtReset : List (Nat × Nat) :=
  [(Reg.PWR_DOMREQ_ON.ctorIdx * 2 ^ 20 + 2, 0xFFFF), (Reg.PWR_DOMSTAT_ON.ctorIdx * 2 ^ 20 + 2, 0xFFFF)
   , (Reg.LC_STAT_STATE.ctorIdx * 2 ^ 20, 3)]

/-- The device right after a power-on reset, with nothing placed in its media, its Chest or its NOR, and no command
waiting. What the manual gives no value for stands in log entry 2. -/
def State.reset : State :=
  { regs := regsAtReset, shadow := [], mem := [], control := [], staged := [], timebase := 0, draws := 0, events := []
    eventSeq := 0, fret := { republish := false, gained := none }, capo := Capo.atReset, spe := Spe.atReset, str := Quad.all StringState.atReset
    harp := Harp.atReset, host := HostState.atReset, bridge := BridgeState.atReset, cab := Cabinet.atReset
    phv := Phovi.atReset, memory := MemoryState.atReset, bur := Bureau.atReset, power := Power.atReset
    cal := { runs := [], ran := List.replicate 32 (0, 0) }, therm := { level := 0, step := 0, hot := false, draining := [], quads := [], beyond := List.replicate 8 0 }
    lc := LifeCycle.atReset, bench := { ir := 1, halted := [], breaks := [], snap := none, latched := none, shadow := none, stepAt := ⟨0, 0, 0, 0⟩, trace := [] }
    out := [], pending := [] }

end Sys2Proof.Machine
end

