-- ==== Sys2Proof/Machine/Ops.lean ====
section
/-! DEFINITION. Machine/Ops.lean: the named operations over the register file, the memory regions and the hidden
state, which every meaning is written in. -/
namespace Sys2Proof.Machine

/-! ### Sparse stores: lists of key and value pairs, keys strictly rising -/

/-- The value listed under `k`. -/
def storeFind : List (Nat × Nat) → Nat → Option Nat
  | [], _ => none
  | (k', v) :: t, k => if k' = k then some v else storeFind t k

/-- The store with `v` listed under `k`. -/
def storePut : List (Nat × Nat) → Nat → Nat → List (Nat × Nat)
  | [], k, v => [(k, v)]
  | (k', v') :: t, k, v =>
    if k < k' then (k, v) :: (k', v') :: t
    else if k = k' then (k, v) :: t
    else (k', v') :: storePut t k v

/-- The store with nothing listed under `k`. -/
def storeDrop (m : List (Nat × Nat)) (k : Nat) : List (Nat × Nat) := m.filter (fun e => !(e.1 == k))

/-- Keys strictly rising. -/
def storeSorted : List (Nat × Nat) → Bool
  | [] => true
  | [_] => true
  | a :: b :: t => decide (a.1 < b.1) && storeSorted (b :: t)

/-! ### Registers -/

/-- Key of entry `i` of a register field; entries are numbered below 2^20. -/
def regKey (r : Reg) (i : Nat) : Nat := r.ctorIdx * 2 ^ 20 + i % 2 ^ 20

/-- The value in force of a register field; one that is not listed holds its reset value. -/
def State.rd (s : State) (r : Reg) (i : Nat := 0) : Nat :=
  (storeFind s.regs (regKey r i)).getD r.row.reset

/-- The state with a register field set, truncated to the field's width. The file lists no field at its reset
value. -/
def State.wr (s : State) (r : Reg) (v : Nat) (i : Nat := 0) : State :=
  let w := v % 2 ^ r.row.width
  { s with regs := if w = r.row.reset then storeDrop s.regs (regKey r i) else storePut s.regs (regKey r i) w }

/-- The value a field acts as. -/
def State.eff (s : State) (r : Reg) (i : Nat := 0) : Nat := effective r (s.rd r i)

/-- A field is not 0. -/
def State.isSet (s : State) (r : Reg) (i : Nat := 0) : Bool := s.rd r i != 0

/-- `f` applied when `b` holds. -/
def State.when (s : State) (b : Bool) (f : State → State) : State := if b then f s else s

/-- The fields of one word of a block's instance set from the word. -/
def State.putFields (s : State) (b : Blk) (off idx v : Nat) : State :=
  (b.rows.filter fun r => r.off == off).foldl (fun s r => s.wr r.reg (v / 2 ^ r.lo % 2 ^ r.width) idx) s

/-! ### Shadow copies of S fields -/

/-- The shadow copy that waits for its boundary, if any (R10). -/
def State.shadowOf (s : State) (r : Reg) (i : Nat := 0) : Option Nat :=
  (s.shadow.find? fun e => e.reg = r && e.idx = i).map (·.value)

/-- A write to an S field of a running block: only the last one before the boundary counts (R9, R10). -/
def State.shadowWr (s : State) (r : Reg) (v : Nat) (i : Nat := 0) : State :=
  { s with shadow := { reg := r, idx := i, value := v % 2 ^ r.row.width }
      :: s.shadow.filter (fun e => !(e.reg = r && e.idx = i)) }

/-- A shadow copy is discarded. -/
def State.shadowDrop (s : State) (r : Reg) (i : Nat := 0) : State :=
  { s with shadow := s.shadow.filter (fun e => !(e.reg = r && e.idx = i)) }

/-- The boundary of a block's instance: every write that waits takes effect together (R11). -/
def State.boundary (s : State) (b : Blk) (inst : Nat) : State :=
  let mine := s.shadow.filter fun e => e.reg.row.blk = b && e.idx / 65536 = inst
  let rest := s.shadow.filter fun e => !(e.reg.row.blk = b && e.idx / 65536 = inst)
  mine.foldl (fun s e => s.wr e.reg e.value e.idx) { s with shadow := rest }

/-- The value an S field will have after its boundary. -/
def State.coming (s : State) (r : Reg) (i : Nat := 0) : Nat := (s.shadowOf r i).getD (s.rd r i)

/-! ### Hidden state of a String -/

/-- String `x`'s hidden state changed by `f`. -/
def State.modStr (s : State) (x : Str) (f : StringState → StringState) : State :=
  { s with str := s.str.set x (f (s.str.get x)) }

/-- SCE of String `x` changed by `f`. -/
def State.modSce (s : State) (x : Str) (f : Sce → Sce) : State := s.modStr x fun t => { t with sce := f t.sce }

/-- Demodulator of String `x` changed by `f`. -/
def State.modSvd (s : State) (x : Str) (f : Svd → Svd) : State := s.modStr x fun t => { t with svd := f t.svd }

/-- AE of String `x` changed by `f`. -/
def State.modAe (s : State) (x : Str) (f : Ae → Ae) : State := s.modStr x fun t => { t with ae := f t.ae }

/-- Skew average of String `x` changed by `f`. -/
def State.modSkew (s : State) (x : Str) (f : SkewAvg → SkewAvg) : State := s.modStr x fun t => { t with skew := f t.skew }

/-- Read channel of String `x` changed by `f`. -/
def State.modRch (s : State) (x : Str) (f : Rch → Rch) : State := s.modStr x fun t => { t with rch := f t.rch }

/-- Write path of String `x` changed by `f`. -/
def State.modWrp (s : State) (x : Str) (f : Wrp → Wrp) : State := s.modStr x fun t => { t with wrp := f t.wrp }

/-- A sequencer of a String. -/
def StringState.seq (t : StringState) : SeqId → Sequencer
  | .ssq => t.ssq
  | .rsq => t.rsq
  | .wsq => t.wsq

/-- A String with one sequencer replaced. -/
def StringState.setSeq (t : StringState) (q : SeqId) (v : Sequencer) : StringState :=
  match q with
  | .ssq => { t with ssq := v }
  | .rsq => { t with rsq := v }
  | .wsq => { t with wsq := v }

/-- Sequencer `q` of String `x`. -/
def State.seq (s : State) (x : Str) (q : SeqId) : Sequencer := (s.str.get x).seq q

/-- Sequencer `q` of String `x` changed by `f`. -/
def State.modSeq (s : State) (x : Str) (q : SeqId) (f : Sequencer → Sequencer) : State :=
  s.modStr x fun t => t.setSeq q (f (t.seq q))

/-! ### Outputs, events, free values, time -/

/-- Something sent outside. -/
def State.emit (s : State) (o : Out) : State := { s with out := o :: s.out }

/-- Time of an event (R395): the NVMe Timestamp in ms if it is set, else RTC seconds × 1,000. -/
def State.eventTime (s : State) : Nat :=
  match s.host.timestamp with
  | some (ms, sec) => ms + (s.rd .SB_RTC_SEC - sec) * 1000
  | none => s.rd .SB_RTC_SEC * 1000

/-- The event ring holds 4,096 entries, the oldest overwritten first (R395). -/
def State.logEvent (s : State) (code severity mask : Nat) (data : List Nat) : State :=
  { s with
    events := ({ seq := s.eventSeq % 2 ^ 32, time := s.eventTime, code, mask, severity, data } :: s.events).take 4096
    eventSeq := (s.eventSeq + 1) % 2 ^ 32 }

/-- The next free value (log entry 3). -/
def State.free (s : State) : Nat := Config.freeValue s.draws

/-- The state after a free value has been drawn. -/
def State.drawn (s : State) : State := { s with draws := s.draws + 1 }

/-- The 800 MHz timebase read at an event's time, and the RTC with it (R426, log entry 6). -/
def State.at (s : State) (t : Nat) : State :=
  let sec := max s.timebase t / 800000000 - s.timebase / 800000000
  let s := { s with timebase := max s.timebase t }
  if sec = 0 then s else s.wr .SB_RTC_SEC (s.rd .SB_RTC_SEC + sec)

/-! ### Variant -/

/-- The String exists on this variant (R6, R7). -/
def State.present (s : State) (x : Str) : Bool :=
  s.rd .LC_VAR_VARIANT == 0 || x == .A || x == .B

/-- `f` for a String that is present; nothing happens to a String C or D that an RN4810-D does not have (R7). -/
def State.onStr (s : State) (x : Str) (f : State → State) : State := s.when (s.present x) f

end Sys2Proof.Machine
end

