-- ==== Sys2Proof/Machine/Flags.lean ====
section
/-! DEFINITION. Machine/Flags.lean: every way hardware changes a flag or a counter: setting and clearing a bit,
bits of a mask field, saturating counters, and the flags computed from a result. -/
namespace Sys2Proof.Machine

/-- Hardware sets a flag. -/
def State.flag (s : State) (r : Reg) (i : Nat := 0) : State := s.wr r 1 i

/-- Hardware clears a flag. -/
def State.unflag (s : State) (r : Reg) (i : Nat := 0) : State := s.wr r 0 i

/-- A status bit follows a condition. -/
def State.setTo (s : State) (r : Reg) (b : Bool) (i : Nat := 0) : State := s.wr r (boolNat b) i

/-- Bit `n` of a mask field. -/
def State.bit (s : State) (r : Reg) (n : Nat) (i : Nat := 0) : Bool := (s.rd r i).testBit n

/-- Hardware sets bit `n` of a mask field. -/
def State.flagBit (s : State) (r : Reg) (n : Nat) (i : Nat := 0) : State := s.wr r (withBit (s.rd r i) n true) i

/-- Hardware clears bit `n` of a mask field. -/
def State.unflagBit (s : State) (r : Reg) (n : Nat) (i : Nat := 0) : State := s.wr r (withBit (s.rd r i) n false) i

/-- A counter that saturates at the width of its field. -/
def State.bump (s : State) (r : Reg) (i : Nat := 0) (by' : Nat := 1) : State :=
  s.wr r (min (2 ^ r.row.width - 1) (s.rd r i + by')) i

/-- A counter that wraps at the width of its field. -/
def State.wrapInc (s : State) (r : Reg) (i : Nat := 0) : State := s.wr r (s.rd r i + 1) i

/-- The value W1C leaves of `old` when `v` is written: 1 clears (R13). -/
def w1cValue (old v : Nat) : Nat := old - (old &&& v)

/-- The value RWS leaves of `old` when `v` is written: 0 clears, 1 has no effect (R13). -/
def rwsValue (old v : Nat) : Nat := old &&& v

/-- cos of 0° to 90°, in 1/32,768. -/
def cosTable : List Int :=
  [32768, 32763, 32748, 32723, 32688, 32643, 32588, 32524, 32449, 32365, 32270, 32166, 32052, 31928, 31795, 31651]
  ++ [31499, 31336, 31164, 30983, 30792, 30592, 30382, 30163, 29935, 29698, 29452, 29197, 28932, 28660, 28378, 28088]
  ++ [27789, 27482, 27166, 26842, 26510, 26170, 25822, 25466, 25102, 24730, 24351, 23965, 23571, 23170, 22763, 22348]
  ++ [21926, 21498, 21063, 20622, 20174, 19720, 19261, 18795, 18324, 17847, 17364, 16877, 16384, 15886, 15384, 14876]
  ++ [14365, 13848, 13328, 12803, 12275, 11743, 11207, 10668, 10126, 9580, 9032, 8481, 7927, 7371, 6813, 6252]
  ++ [5690, 5126, 4560, 3993, 3425, 2856, 2286, 1715, 1144, 572, 0]

/-- cos of an angle in whole degrees, in 1/32,768. -/
def cosDeg (d : Nat) : Int :=
  let d := d % 360
  if d ≤ 90 then cosTable.getD d 0
  else if d ≤ 180 then -(cosTable.getD (180 - d) 0)
  else if d ≤ 270 then -(cosTable.getD (d - 180) 0)
  else cosTable.getD (360 - d) 0

/-- sin of an angle in whole degrees, in 1/32,768. -/
def sinDeg (d : Nat) : Int := cosDeg (d + 270)

/-- Flags of a sequencer's ALU result: Z, N, C (R357). C is the carry out of an addition and the absence of a borrow
of a subtraction. -/
structure AluFlags where
  z : Bool
  n : Bool
  c : Bool
deriving DecidableEq, Repr

/-- ALUOP 1 to 13 of R358 on 32-bit operands: result, and flags. `walkerWord` and `pt` are the operands of 12 and 13.
The manual names the flags Z, N and C without stating C for each operation: C is the carry of an addition, "no borrow"
of a subtraction, and the free value `c` for the others (log entry 3). -/
def alu (op a b walkerWord pt : Nat) (free : Bool) : Nat × AluFlags :=
  let m := 2 ^ 32
  let r := match op with
    | 1 => b
    | 2 => a + b
    | 3 => a + (m - b % m)
    | 4 => a &&& b
    | 5 => a ||| b
    | 6 => a ^^^ b
    | 7 => a <<< (b % 32)
    | 8 => a >>> (b % 32)
    | 9 => a + 1
    | 10 => a + (m - 1)
    | 11 => a + (m - b % m)
    | 12 => walkerWord
    | _ => pt
  let v := r % m
  let c := if op = 2 || op = 3 || op = 9 || op = 10 || op = 11 then decide (m ≤ r) else free
  (v, { z := v == 0, n := v.testBit 31, c })

end Sys2Proof.Machine
end

