-- ==== Sys2Proof/Machine/Shared.lean ====
section
/-! DEFINITION. Machine/Shared.lean: the operations that cross blocks: write inhibits and the write gate they stop
(R24, R61, R84, R220), captures and their abort (R173), sequencer interrupts (R365), frames of the Nut link (R133),
the assist engine switched off (R136), retracts (R108), wedge synchronisation lost or gained (R51, R127). -/
namespace Sys2Proof.Machine

/-! ### Sequencers -/

/-- Interrupt source `n` of a sequencer becomes pending (R365); one that finds a committed routine or a handler is
deferred and counted (R375). -/
def State.seqIrq (s : State) (x : Str) (q : SeqId) (n : Nat) : State :=
  let s := s.when (s.rd .SQ_STAT_STATE (q.ix x) == 2
      && (s.isSet .SQ_STAT_COMMITTED (q.ix x) || s.isSet .SQ_STAT_HANDLER (q.ix x))) fun s =>
    s.bump .SQ_CNT_DEFERRED (q.ix x)
  s.modSeq x q fun u => { u with irq := u.irq.set n true }

/-! ### Sample-buffer slots -/

/-- Slots that are free, in order. -/
def freeSlots (slots : List (Option Slot)) : List Nat :=
  (List.range 10).filter fun i => (slots.getD i none).isNone

/-- The read channel's status fields follow its slots and its queue: SLOTS_FREE, BUSY, PENDQ (R176). -/
def State.rchRefresh (s : State) (x : Str) : State :=
  let c := (s.str.get x).rch
  let busy := (List.range 10).foldl (fun m i => if (c.slots.getD i none).isSome then m + 2 ^ i else m) 0
  ((s.wr .RCHx_STAT_SLOTS_FREE (freeSlots c.slots).length x.ix).wr .RCHx_SLOT_BUSY busy x.ix).wr
    .RCHx_STAT_PENDQ c.adapt.length x.ix

/-- A slot is released (R168). -/
def State.releaseSlot (s : State) (x : Str) (i : Nat) : State :=
  (s.modRch x fun c => { c with slots := c.slots.set i none }).rchRefresh x

/-- A slot's content changed by `f`. -/
def State.modSlot (s : State) (x : Str) (i : Nat) (f : Slot → Slot) : State :=
  s.modRch x fun c => { c with slots := c.slots.set i ((c.slots.getD i none).map f) }

/-! ### Credits of the Bridge (R299) -/

/-- Cells of the WSTG pool: WSPLIT units of 256 KiB in cells of 4,160 bytes (R293). -/
def State.wstgCells (s : State) : Nat := s.rd .BRG_CFG0_WSPLIT * 262144 / 4160

/-- Pages of the RSTG pool: the other units of 256 KiB of banks 0 to 3 in pages of 4 KiB (R293). -/
def State.rstgPages (s : State) : Nat := (32 - s.rd .BRG_CFG0_WSPLIT) * 64

/-- String `x` may take one more unit of a pool: it holds fewer than `most`, and it is within its guarantee or the
shared remainder has room (R299). -/
def State.poolRoom (s : State) (r : Reg) (x : Str) (total least most : Nat) : Bool :=
  let held := s.rd r x.num
  let strs := Str.all.filter s.present
  let shared := (strs.map fun y => s.rd r y.num - least).sum
  decide (held < most) && (decide (held < least) || decide (shared < total - least * strs.length))

/-- A free read page for String `x`. -/
def State.pageFree (s : State) (x : Str) : Bool :=
  s.poolRoom .BRG_USE_PAGES x s.rstgPages (s.rd .BRG_CFG1_RMIN) (s.rd .BRG_CFG1_RMAX)

/-- A free write cell for String `x`. -/
def State.cellFree (s : State) (x : Str) : Bool :=
  s.poolRoom .BRG_USE_CELLS x s.wstgCells (s.rd .BRG_CFG0_WMIN) (s.rd .BRG_CFG0_WMAX)

/-- The credit of a read: a write cell for a BCE copy read, a read page for the others. -/
def creditReg : ReqSource → Reg
  | .bce => .BRG_USE_CELLS
  | _ => .BRG_USE_PAGES

/-- The credit of a read is returned (R299). -/
def State.giveCredit (s : State) (x : Str) (src : ReqSource) : State :=
  s.wr (creditReg src) (s.rd (creditReg src) x.num - 1) x.num

/-- A recording capture is aborted at once: its slot is released, nothing goes to Harp, and the RSQ receives "capture
aborted" (R173, R365). A RESTART of the slot that waits is cancelled (R195). -/
def State.abortCapture (s : State) (x : Str) : State :=
  match (s.str.get x).rch.gate with
  | none => s
  | some i =>
    let src := (((s.str.get x).rch.slots.getD i none).map (·.action.request.source)).getD .host
    let s := s.modRch x fun c =>
      { c with gate := none
               passes := c.passes.filter (fun p => p.slot != i)
               heldRestarts := c.heldRestarts.filter (fun p => p.slot != i) }
    ((s.giveCredit x src).releaseSlot x i).seqIrq x .rsq 0

/-! ### Write inhibit and the write gate -/

/-- Write cells returned to the WSTG pool (R302). -/
def State.giveCells (s : State) (x : Str) (n : Nat) : State :=
  s.wr .BRG_USE_CELLS (s.rd .BRG_USE_CELLS x.num - n) x.num

/-- The Bridge changed by `f`. -/
def State.modBridge (s : State) (f : BridgeState → BridgeState) : State := { s with bridge := f s.bridge }

/-- HQE and media-manager state changed by `f`. -/
def State.modHost (s : State) (f : HostState → HostState) : State := { s with host := f s.host }

/-- Blocks of a namespace are no longer issued: the media manager will issue them again. -/
def State.unissue (s : State) (nsid : Nat) (lbas : List Nat) : State :=
  s.modBridge fun b => { b with versions := b.versions.map fun v =>
    if v.nsid == nsid then { v with issued := v.issued.filter fun l => !(lbas.contains l) } else v }

/-- The namespace a request writes. -/
def State.requestNsid (s : State) (r : Request) : Nat :=
  ((r.zone.bind fun z => s.host.records[z]?).map (·.nsid)).getD 0

/-- A record changed by `f`. -/
def State.modRecord (s : State) (r : Nat) (f : Record → Record) : State :=
  s.modHost fun h => { h with records := h.records.modify r f }

/-- The next identifier of a request. -/
def State.newRequestId (s : State) : Nat × State :=
  (s.host.requestId % 65536, s.modHost fun h => { h with requestId := h.requestId + 1 })

/-- Sectors of a request withdrawn before they were on media are no longer issued, and keep their generations for the rewrite of
the same data (R144, R210). -/
def State.withdrawPlaces (s : State) (r : Request) (ps : List Place) : State :=
  let s := s.unissue (s.requestNsid r) (ps.map (·.lba))
  let gens := ps.filterMap fun p => match p.word with
    | some (.data w) => some (p.lba, w.data, w.gen)
    | _ => none
  match r.zone with
  | some id => s.modRecord id fun q => { q with keepGens := gens ++ q.keepGens }
  | none => s

/-- The inhibit OR of R84: the SCE's WINH, the Capo write inhibit and the spindle write inhibit. -/
def State.inhibit (s : State) (x : Str) : Bool :=
  s.isSet .SCEx_STAT_WINH x.ix || s.capo.inhibit.get x || s.spe.inhibit.get x

/-- AEx_STAT.INH follows the inhibit OR (R145, R148). -/
def State.refreshInh (s : State) (x : Str) : State := s.setTo .AEx_STAT_INH (s.inhibit x) x.ix

/-- The run stops at the position of `a`: later committed starts are withdrawn, RUNSTOP is set (R218, R220, R357). -/
def State.stopRun (s : State) (x : Str) : State :=
  (s.modSeq x .wsq fun q => { q with armed := [], runStop := true }).unflag .WRPx_STAT_RUN x.ix

/-- WRPx_STAT.FIFO follows the FIFO. -/
def State.fifoRefresh (s : State) (x : Str) : State :=
  s.wr .WRPx_STAT_FIFO (min 3 (s.str.get x).wrp.fifo.length) x.ix

/-- The sector in progress is cut: neither counted in MP nor accumulated, rewritten whole before any later position; its
cell is kept and its codeword is encoded again ahead of those after it (R302); the starts committed after it are
withdrawn (R24, R220). That of a request withdrawn meanwhile goes back to the media manager (R144). -/
def State.cutOpen (s : State) (x : Str) : State :=
  match (s.str.get x).wrp.open' with
  | none => s
  | some a =>
    let own := match a.request.places[a.offset]? with
      | some pl => if pl.word.isSome then [(a.request.id, pl.p)] else []
      | none => []
    let u := s.seq x .wsq
    let queued := (u.queue ++ u.returned).any fun r => r.id == a.request.id
    let s := s.modWrp x fun w =>
      { w with open' := none, cells := (if queued then own else []) ++ w.fifo ++ w.cells, fifo := [] }
    let s := s.when (!queued) fun s =>
      (s.withdrawPlaces a.request ((a.request.places[a.offset]?).toList.filter fun pl => pl.word.isSome)).giveCells x own.length
    (((((s.fifoRefresh x).unflag .WRPx_STAT_GATE x.ix).flag .WRPx_STAT_CUT x.ix).bump .WRPx_CNT1_CUT x.ix)).stopRun x

/-- An open write gate closes before the end of a sector. A split sector between its fragments has its gate closed: the
inhibit decides at the next wedge boundary (R218). -/
def State.closeWriteGate (s : State) (x : Str) : State :=
  s.when (s.isSet .WRPx_STAT_GATE x.ix) fun s => s.cutOpen x

/-- The SCE asserts WINH: the write gate stops within 20 ns (R24, R102). -/
def State.assertWinh (s : State) (x : Str) : State :=
  (((s.flag .SCEx_STAT_WINH x.ix).modSce x fun c => { c with wedgeGood := false }).refreshInh x).closeWriteGate x

/-- The Capo write inhibit of String `x` is asserted (R61). -/
def State.assertCapoInhibit (s : State) (x : Str) : State :=
  let s := { s with capo := { s.capo with inhibit := s.capo.inhibit.set x true } }
  (s.refreshInh x).closeWriteGate x

/-- The Capo write inhibit of String `x` is released. -/
def State.releaseCapoInhibit (s : State) (x : Str) : State :=
  ({ s with capo := { s.capo with inhibit := s.capo.inhibit.set x false } } : State).refreshInh x

/-- CAPO_STAT.WINH shows whether any String's Capo write inhibit is asserted (R65). -/
def State.capoWinh (s : State) : State := s.setTo .CAPO_STAT_WINH (Str.all.any fun x => s.capo.inhibit.get x)

/-- The Capo unit asserts its write inhibit to every String at once (R61). -/
def State.capoInhibitAll (s : State) : State := (Str.all.foldl (fun s x => s.onStr x fun s => s.assertCapoInhibit x) s).capoWinh

/-- The Capo write inhibit of every String is released. -/
def State.capoReleaseAll (s : State) : State := (Str.all.foldl State.releaseCapoInhibit s).capoWinh

/-- The spindle write inhibit of String `x` (R84). -/
def State.setSpindleInhibit (s : State) (x : Str) (b : Bool) : State :=
  let s := { s with spe := { s.spe with inhibit := s.spe.inhibit.set x b } }
  let s := (s.refreshInh x).setTo .SPE_STAT_WINH (Str.all.any fun y => s.spe.inhibit.get y)
  s.when b fun s => s.closeWriteGate x

/-- The spindle write inhibit is asserted to every String (R83, R85). -/
def State.spindleInhibitAll (s : State) : State := Str.all.foldl (fun s x => s.onStr x fun s => s.setSpindleInhibit x true) s

/-! ### The Nut link -/

/-- CRC-8 with polynomial x⁸ + x² + x + 1, initial value 0, over the top `k` bits below bit `p` of `w` (R133). -/
def crc8 (w p : Nat) : Nat → Nat → Nat
  | 0, crc => crc
  | k + 1, crc =>
    let b := xor (crc.testBit 7) (w.testBit (p - 1))
    let c := (crc * 2) % 256
    crc8 w (p - 1) k (if b then c ^^^ 0x07 else c)

/-- Bits [63:8] of a frame with its CRC in [7:0] (R133). -/
def withCrc8 (w : Nat) : Nat := (w / 256) * 256 + crc8 w 64 56 0

/-- The outbound frame of R133. -/
def frameWord (f : NutFrame) (seq : Nat) : Nat :=
  withCrc8 (0b1010 * 2 ^ 60 + boolNat f.write * 2 ^ 59 + (f.head % 8) * 2 ^ 56 + (f.addr % 256) * 2 ^ 48
    + (f.data % 2 ^ 32) * 2 ^ 16 + (seq % 256) * 2 ^ 8)

/-- A frame goes out on the Nut link of String `x`; with the link disabled, no frame is attempted (R131, R133). -/
def State.sendFrame (s : State) (x : Str) (f : NutFrame) : State :=
  s.when (s.isSet .NUTx_CTRL_EN x.ix) fun s =>
    let a := (s.str.get x).ae
    (s.modAe x fun a =>
      { a with prev := a.last, last := some { f with tries := f.tries + 1 }, seq := (a.seq + 1) % 256
               replyHead := s.rd .AEx_STAT_HEAD x.ix }).emit
      (.nutFrame x (frameWord f a.seq))

/-- DATA of an UPDATE (R134). -/
def updateData (assist heater wc mode : Nat) : Nat :=
  (assist % 4096) * 2 ^ 20 + (heater % 1024) * 2 ^ 10 + (wc % 64) * 2 ^ 4 + mode % 16

/-- An UPDATE for the selected head is sent and is the setting in force (R134, R139). -/
def State.sendUpdate (s : State) (x : Str) (mode assist heater wc : Nat) : State :=
  let h := s.rd .AEx_STAT_HEAD x.ix
  (s.modAe x fun a => { a with mode, assist, heater, wc }).sendFrame x
    { kind := .update, write := true, head := h, addr := 0, data := updateData assist heater wc mode, tries := 0
      wedge := (s.str.get x).svd.wedge, slot := (s.str.get x).ae.slots }

/-- The AE goes to OFF with an UPDATE of zeros (R136, R145). -/
def State.aeOff (s : State) (x : Str) : State :=
  s.when (s.isSet .AEx_STAT_STATE x.ix) fun s =>
    ((s.sendUpdate x 0 0 0 0).unflag .AEx_STAT_STATE x.ix).modAe x fun a =>
      { a with warm := 0, heldFrets := 0, capDue := none, linkDue := none, armDue := false, calDue := false }

/-! ### Wedge synchronisation and the reference String -/

/-- String `x` holds wedge synchronisation: its SSQ is in SYNC (R127). -/
def State.synced (s : State) (x : Str) : Bool := s.rd .SVDx_STAT_SYNC_STATE x.ix == 3

/-- A new reference String, or none: FRET_PERIOD is 0 until its first measured pair of SAMs, and the skews are
republished at its next wedge 0 (R51, R496). -/
def State.setReference (s : State) (r : Option Str) : State :=
  match r with
  | none => ({ s with fret := { republish := false, gained := none } }.flag .FRET_STAT_NOREF).wr .FRET_PERIOD_PS 0
  | some x => ({ s with fret := { s.fret with republish := true } }.unflag .FRET_STAT_NOREF).wr .FRET_STAT_REF x.num

/-- The reference String, if any. -/
def State.reference (s : State) : Option Str :=
  if s.isSet .FRET_STAT_NOREF then none else some (Str.ofNum (s.rd .FRET_STAT_REF))

/-- String `x` has lost wedge synchronisation: its average is discarded, VALID clears, and if it was the reference the
lowest-lettered String that still holds synchronisation becomes the reference (R51, R52). -/
def State.syncLost (s : State) (x : Str) : State :=
  let s := (s.modSkew x fun k => { k with revs := 0, sum := 0, held := false, haveWedge0 := false }).unflagBit
    .FRET_STAT_VALID x.num
  if s.reference = some x then s.setReference (Str.all.find? fun y => y != x && s.synced y) else s

/-- String `x` has gained wedge synchronisation: a fresh average starts, and with no reference it becomes the reference at
once; of several that gain it in one cycle the lowest-lettered does (R51, R52). -/
def State.syncGained (s : State) (x : Str) : State :=
  let s := s.modSkew x fun k => { k with revs := 0, sum := 0, held := true, haveWedge0 := false }
  match s.reference with
  | none => ({ s with fret := { s.fret with gained := some s.timebase } } : State).setReference (some x)
  | some r => s.when (s.fret.gained == some s.timebase && decide (x.num < r.num)) fun s => s.setReference (some x)

/-- The demodulator goes to IDLE (R127). -/
def State.svdIdle (s : State) (x : Str) : State :=
  let was := s.synced x
  let s := (s.wr .SVDx_STAT_SYNC_STATE 0 x.ix).modSvd x fun d =>
    { d with confirms := 0, misses := 0, haveSam := false, slipFrom := none, servoGate := false, lastFret := false }
  s.when was fun s => s.syncLost x

/-- Acquisition starts an unwindowed search if the format is valid (R127). -/
def State.svdSearch (s : State) (x : Str) : State :=
  s.when (s.rd .SVDx_STAT_SYNC_STATE x.ix == 0 && s.isSet .SVDx_STAT_FMT_VALID x.ix) fun s =>
    (s.wr .SVDx_STAT_SYNC_STATE 1 x.ix).modSvd x fun d => { d with confirms := 0, misses := 0, haveSam := false }

/-- The Fret in force, in ps: FRET_PERIOD, or the Fret derived from the spindle while it is 0; 0 when no Fret is in
force (R496). -/
def State.fretPs (s : State) : Nat :=
  let p := s.rd .FRET_PERIOD_PS
  if p != 0 then p
  else
    let m := (toSigned 32 (s.rd .SPE_SPEED_MRPM)).natAbs
    if m < 600000 then 0 else 60 * 10 ^ 15 / (480 * m)

/-- The Fret in force in ticks of the 800 MHz timebase, 1.25 ns each. -/
def State.fretTicks (s : State) : Nat := s.fretPs / 1250

/-! ### The SCE -/

/-- SCE state codes (R111). -/
def State.sceState (s : State) (x : Str) : Nat := s.rd .SCEx_STAT_STATE x.ix

/-- Heads are loaded: LOADING, SEEK, SETTLE, TRACK or RETRACT. -/
def State.loaded (s : State) (x : Str) : Bool := let st := s.sceState x; 1 ≤ st && st ≤ 5

/-- The String's channel and write path are running: its SCE is in a state other than UNLOADED or HALTED (R176). -/
def State.channelRunning (s : State) (x : Str) : Bool := let st := s.sceState x; st != 0 && st != 6

/-- Code of a retract's cause in the RETRACTED event (R396). -/
def RetractCause.code : RetractCause → Nat
  | .lostWedges => 0
  | .spe => 1
  | .command => 2
  | .powerLoss => 3
  | .planned => 4

/-- A safe retract starts (R108): RETRACT, WINH asserted, PVALID 0, step 1 in progress, the AE off (R145), a recording
capture aborted (R173). All causes but the planned unload and the power-loss event set RETRACTED. -/
def State.startRetract (s : State) (x : Str) (cause : RetractCause) : State :=
  let s := (s.wr .SCEx_STAT_STATE 5 x.ix).unflag .SCEx_STAT_PVALID x.ix
  let s := s.assertWinh x
  let s := s.when (cause != .planned && cause != .powerLoss) fun s =>
    (s.flag .SCEx_STAT_RETRACTED x.ix).logEvent 0x0009 1 x.bit [x.num, cause.code]
  let s := s.modSce x fun c =>
    { c with step := .ramp, cause, emergency := cause == .powerLoss, rampFrets := 0, rampFrom := c.sig.getD 31 0, turn := false
             plan := none, settleRun := 0, settleFrets := 0
             retLimit := s.rd .SCEx_ILIM_RET_ILIM x.ix }
  (s.aeOff x).abortCapture x

/-- A retract request: taken in LOADING, SEEK, SETTLE and TRACK; in RETRACT the retract in progress continues (R110). -/
def State.requestRetract (s : State) (x : Str) (cause : RetractCause) : State :=
  let st := s.sceState x
  s.when (1 ≤ st && st ≤ 4) fun s => s.startRetract x cause

/-- The SPE requests the safe retract of every String with heads loaded (R83, R86). -/
def State.retractAllBySpe (s : State) : State := Str.all.foldl (fun s x => s.requestRetract x .spe) s

/-! ### The stored configuration (R394) -/

/-- The copy of the stored configuration in force: the one with the higher sequence number (R394). -/
def State.configInForce (s : State) : Option StoredConfig :=
  match s.bur.stored.getD 0 none, s.bur.stored.getD 1 none with
  | some a, some b => some (if a.seq < b.seq then b else a)
  | some a, none => some a
  | none, b => b

/-- Registers of the read channel and of the sector format. -/
def channelRegs : List Nat := (Blk.rows .rch ++ Blk.rows .sfm).map fun r => r.reg.ctorIdx

/-- After its detector domain has powered up, and before its heads are next loaded, a String's channel sets and read-channel fields
are written from the stored configuration (R495). -/
def State.rewriteChannel (s : State) (x : Str) : State :=
  if !(s.str.get x).rch.unconfigured then s
  else
    let s := s.modRch x fun c => { c with unconfigured := false }
    match s.configInForce with
    | none => s
    | some c =>
      let mine (e : Nat × Nat) : Bool := channelRegs.contains (e.1 / 2 ^ 20) && e.1 % 2 ^ 20 / 65536 == x.num
      { s with regs := (c.regs.filter mine).foldl (fun m e => storePut m e.1 e.2) s.regs }

end Sys2Proof.Machine
end

