-- ==== Sys2Proof/Machine/Replies.lean ====
section
/-! DEFINITION. Machine/Replies.lean: bytes and CRC-32C of Cibor packets (R383), replies (R384, R387), and the replies of
requests that began earlier and end with a state of the device (R391). -/
namespace Sys2Proof.Machine

/-! ### Bytes -/

/-- The `k` low bytes of `v`, least significant first (R383). -/
def leBytes (k v : Nat) : List Nat := (List.range k).map fun i => v / 256 ^ i % 256

/-- The number that `k` bytes from `at'` spell, least significant first; a byte that is not there counts as 0. -/
def leField (bs : List Nat) (at' k : Nat) : Nat :=
  ((List.range k).map fun i => bs.getD (at' + i) 0 % 256 * 256 ^ i).sum

/-- One bit of CRC-32C, reflected. -/
def crcBit : Nat → Nat → Nat
  | 0, c => c
  | k + 1, c => crcBit k (if c % 2 = 1 then (c / 2) ^^^ 0x82F63B78 else c / 2)

/-- CRC-32C (Castagnoli) of bytes: initial value and final inversion all ones. -/
def crc32c (bs : List Nat) : Nat := (bs.foldl (fun c b => crcBit 8 (c ^^^ (b % 256))) 0xFFFFFFFF) ^^^ 0xFFFFFFFF

/-- The little-endian words of bytes. -/
def wordsOf (bs : List Nat) : List Nat := (List.range ((bs.length + 3) / 4)).map fun i => leField bs (4 * i) 4

/-! ### Replies (R384) -/

/-- A reply packet: bytes 0 to 15 of the request with REPLY and PLEN, status, details, results, CRC, payload. -/
def replyBytes (r : CiborRequest) (st d1 d2 : Nat) (results payload : List Nat) : List Nat :=
  let head := leBytes 2 r.opcode ++ [r.cls, r.flags % 4 + 4] ++ leBytes 2 r.tag ++ [1, r.target] ++ leBytes 4 payload.length
    ++ leBytes 4 r.segoff ++ leBytes 2 st ++ leBytes 2 d1 ++ leBytes 4 d2
    ++ (List.range 6).flatMap (fun i => leBytes 4 (results.getD i 0)) ++ List.replicate 12 0
  head ++ leBytes 4 (crc32c (head ++ payload)) ++ payload

/-- A Bureau field changed. -/
def State.modBur (s : State) (f : Bureau → Bureau) : State := { s with bur := f s.bur }

/-- Bench frames act: in RAW, and in an open session in every other state but SCRAPPED (R468). -/
def State.benchOpen (s : State) : Bool :=
  let st := s.rd .LC_STAT_STATE
  st == 0 || (st != 5 && s.isSet .BNCH_STAT_SESSION)

/-- A frame of the Bench port goes out: type 0x01, its length, the packet, a CRC-32C (R469). -/
def State.benchFrame (s : State) (type : Nat) (payload : List Nat) : State :=
  let head := [type, 0] ++ leBytes 2 payload.length ++ payload
  ((head ++ leBytes 4 (crc32c head)).mapIdx fun i b => (i, b)).foldl (fun s e => s.emit (.bench e.1 e.2)) s

/-- A C1h command takes a reply: as many dwords as its buffer holds; one that does not fit is kept (R387). -/
def State.giveReply (s : State) (f numd : Nat) (r : CiborReply) : State :=
  let ws := wordsOf r.bytes
  let s := ((ws.take numd).mapIdx fun i w => (i, w)).foldl (fun s e => s.emit (.hostData f e.1 e.2)) s
  let fits := decide (ws.length ≤ numd)
  let s := s.when fits fun s => s.modBur fun b => { b with replies := b.replies.filter fun e => !(e.source == r.source && e.tag == r.tag) }
  let dw0 := r.tag + (if fits then 0 else 2 ^ 30)
  { s with host := { s.host with cmds := s.host.cmds.map fun c => if c.fseq == f then { c with ready := some (.success, dw0, 0) } else c } }

/-- The reply that a C1h command asks for. -/
def State.replyFor (s : State) (k tag : Nat) (any : Bool) : Option CiborReply :=
  s.bur.replies.find? fun r => r.source == k && (any || r.tag == tag)

/-- The oldest C1h command that waits for a reply just made. -/
def State.waitingReceive (s : State) (r : CiborReply) : Option (Nat × Nat) :=
  s.host.cmds.findSome? fun c =>
    match c.op with
    | .ciborReceive numd tag any _ => if c.hqe == r.source && c.started && c.ready.isNone && (any || tag == r.tag) then some (c.fseq, numd) else none
    | _ => none

/-- A request has its one reply (R384): it is ready for its source, over the Bench port it goes out at once; one whose source
is gone is discarded (R387, R472). -/
def State.reply (s : State) (r : CiborRequest) (st : CStat) (d1 : Nat := 0) (d2 : Nat := 0) (results payload : List Nat := []) : State :=
  let s := s.modBur fun b => { b with requests := b.requests.filter fun e => e.order != r.order }
  let p : CiborReply := { source := r.source, tag := r.tag, bytes := replyBytes r st.code d1 d2 results payload }
  if r.source = 10 then s
  else if r.source = 9 then s.when s.benchOpen fun s => s.benchFrame 1 p.bytes
  else
    let s := s.modBur fun b => { b with replies := b.replies ++ [p] }
    match s.waitingReceive p with
    | some (f, numd) => s.giveReply f numd p
    | none => s

/-- A request with its extension modified. -/
def State.modRequest (s : State) (r : CiborRequest) (f : CiborRequest → CiborRequest) : State :=
  s.modBur fun b => { b with requests := b.requests.map fun e => if e.order == r.order then f e else e }

/-- Strings of a mask that are loaded to TRACK. -/
def State.allIn (s : State) (mask st : Nat) : Bool := Str.all.all fun x => !mask.testBit x.num || s.sceState x == st

/-- The reply of a request that has begun, if the state it waits for has come (R391, R430). -/
def State.settleOne (s : State) (r : CiborRequest) : State :=
  let mode := s.rd .PWR_STAT_MODE
  let spe := s.rd .SPE_STAT_STATE
  match r.opcode with
  | 0x0120 =>
    if r.params.getD 1 0 = 1 then (if mode = 1 then s.reply r .ok else s)
    else if 3 ≤ mode && mode ≤ 6 then s.reply r .ok
    else if mode = 1 then s.reply r .notReady
    else s
  | 0x0A00 =>
    if s.isSet .SPE_STAT_ATSPD then s.reply r .ok
    else if spe = 8 then s.reply r .keMismatch
    else if spe = 10 then s.reply r .notReady
    else s
  | 0x0A01 => if spe = 0 then s.reply r .ok else s
  | 0x0B00 =>
    if s.allIn r.named 4 then s.reply r r.refusal 0 0 [r.refused]
    else if Str.all.any fun x => r.named.testBit x.num && (s.sceState x == 0 || 5 ≤ s.sceState x) then s.reply r .internal 0 0 [r.refused]
    else s
  | 0x0B01 => if s.allIn r.named 0 then s.reply r .ok else s
  | 0x5001 =>
    let lane := r.params.getD 1 0
    if (s.rd .HARP_WDRAWN_LANES).testBit lane then s
    else s.reply r (if (s.rd .HARP_RETIRED_LANES).testBit lane then .internal else .ok)
  | 0x5011 =>
    let core := r.params.getD 1 0
    let st := s.rd .BURn_STAT_STATE (core / 4 * 65536) / 4 ^ (core % 4) % 4
    if st = 2 then s else s.reply r (if st = 3 then .internal else .ok)
  | _ => s

/-- The requests that have begun and whose end has come are answered. -/
def State.settleRequests (s : State) : State := (s.bur.requests.filter (·.started)).foldl State.settleOne s

end Sys2Proof.Machine
end

