-- ==== Sys2Proof/Machine/Modes.lean ====
section
/-! DEFINITION. Machine/Modes.lean: the device modes (R427, R428, R430) as far as they follow from the state of other
blocks, and asynchronous events to the host (R196, R288, R326, R380). -/
namespace Sys2Proof.Machine

/-- State of core `c` (R399): 0 in service, 1 resetting, 2 self-test, 3 retired. -/
def State.coreState (s : State) (c : Nat) : Nat := s.rd .BURn_STAT_STATE (c / 4 * 65536) / 4 ^ (c % 4) % 4

/-- Cores in service: those in state 0 (R380). -/
def State.coresIn (s : State) : List Nat := (List.range 16).filter fun c => s.coreState c == 0

/-- A hook is called (R381): a module registers for it, is not disabled, and class 6 runs (R380); else its default action is
taken. Hooks are numbered in the order of R381, from 1. -/
def State.hookAlive (s : State) (hook : Nat) : Bool :=
  decide (8 ≤ s.coresIn.length) && s.bur.modules.any fun m => !m.disabled && m.image.hooks.contains hook

/-- MODE (R427): 0 Dormant, 1 Standby, 2 Spin-up, 3 Ready, 4 Active, 5 Streaming, 6 Degraded, 7 Maintenance. -/
def State.mode (s : State) : Nat := s.rd .PWR_STAT_MODE

/-- The device serves media commands. -/
def State.serves (s : State) : Bool := let m := s.mode; !s.power.standbyDue && 3 ≤ m && m ≤ 6

/-- Media work is outstanding: a media command is not ready to complete, or a sequencer has a request. -/
def State.mediaWork (s : State) : Bool :=
  (s.host.cmds.any fun c => c.op.needsMedia && c.ready.isNone)
    || Str.all.any fun x => !(s.str.get x).rsq.queue.isEmpty || !(s.str.get x).wsq.queue.isEmpty

/-- A String is in TRACK or ready to seek: its heads are loaded and it has left LOADING. -/
def State.readyToSeek (s : State) (x : Str) : Bool := let st := s.rd .SCEx_STAT_STATE x.ix; 2 ≤ st && st ≤ 4

/-- Strings present and not lost. -/
def State.inService (s : State) : List Str := Str.all.filter fun x => s.present x && !(s.bit .PWR_STRLOST_LOST x.num)

/-- Ready, Active or Streaming, as they follow from the work and the streams (R430): Active stays until IDLE_MS. -/
def State.workMode (s : State) (m : Nat) : Nat :=
  if !s.host.streams.isEmpty then 5
  else if s.mediaWork then 4
  else if m = 5 then 3
  else m

/-- Mode and SUB after what has just happened, by the rows of R430 that need no command or timer. An emergency retract
changes no mode; a device on its way to Standby is there once the heads are parked and the spindle is OFF. -/
def State.nextMode (s : State) : State :=
  let m := s.mode
  let spe := s.rd .SPE_STAT_STATE
  if s.power.loss.isSome then s
  else if s.power.standbyDue then
    if spe = 0 && !Str.all.any s.loaded then
      { (s.wr .PWR_STAT_MODE 1).wr .PWR_STAT_SUB 0 with power := { s.power with standbyDue := false } }
    else s
  else if m = 2 then
    if spe = 8 || spe = 10 then s.wr .PWR_STAT_MODE 1
    else if s.isSet .SPE_STAT_ATSPD && s.inService.all s.readyToSeek && !s.inService.isEmpty then
      let w := s.workMode 3
      if s.isSet .PWR_STAT_DEGR then (s.wr .PWR_STAT_MODE 6).wr .PWR_STAT_SUB (w - 3) else s.wr .PWR_STAT_MODE w
    else s
  else if 3 ≤ m && m ≤ 6 then
    if spe != 5 && spe != 6 then s.wr .PWR_STAT_MODE 2
    else
      let w := s.workMode (if m = 6 then s.rd .PWR_STAT_SUB + 3 else m)
      if s.isSet .PWR_STAT_DEGR then (s.wr .PWR_STAT_MODE 6).wr .PWR_STAT_SUB (w - 3)
      else (s.wr .PWR_STAT_MODE w).wr .PWR_STAT_SUB 0
  else s

/-- The mode follows what has just happened, and requests that wait for it are answered. -/
def State.refreshMode (s : State) : State := s.nextMode.settleRequests

/-- A condition of R428 arises or clears. -/
def State.setDegr (s : State) (b : Nat) (on : Bool) : State :=
  (if on then s.flagBit .PWR_STAT_DEGR b else s.unflagBit .PWR_STAT_DEGR b).refreshMode

/-! ### Asynchronous events -/

/-- DW0 of the completion that an event gives (NVMe Base 2.0: type, information, log page). -/
def eventDword (type info : Nat) : Nat := type % 8 + info % 256 * 2 ^ 8 + Config.eventLogPage type info % 256 * 2 ^ 16

/-- An event of controller `k` completes its oldest outstanding Asynchronous Event Request, or waits for one (R274). -/
def State.hostEvent (s : State) (k type info : Nat) : State :=
  let h := s.host
  match h.cmds.find? fun c => c.hqe == k && c.op == .asyncEvent && c.started && c.ready.isNone with
  | some c =>
    { s with host := { h with cmds := h.cmds.map fun e =>
        if e.fseq == c.fseq then { e with ready := some (.success, eventDword type info, 0) } else e } }
  | none =>
    { s with host := { h with controllers := h.controllers.modify k fun c => { c with events := c.events ++ [(type, info)] } } }

/-- The value of a feature of a controller; one never set reads 0. -/
def Controller.feature (c : Controller) (fid : Nat) : Nat := (storeFind c.features fid).getD 0

/-- A vendor-specific event to the controllers that `who` names and that have it enabled. -/
def State.vendorEvent (s : State) (info : Nat) (who : Nat → Bool) : State :=
  let on (c : Controller) : Bool := (c.feature 0x0B).testBit (Config.vendorEventBit info)
  let s := s.emit (.asyncEvent info)
  (List.range s.host.controllers.length).foldl (fun s k =>
    s.when (who k && (s.host.controllers[k]?).any fun c => c.enabled && on c) fun s => s.hostEvent k 7 info) s

end Sys2Proof.Machine
end

