-- ==== Sys2Proof/Machine/Layout.lean ====
section
/-! DEFINITION. Machine/Layout.lean: where sectors lie on a track (R203), which physical index a position has (R204),
and the bands and units of a surface (R201, R202). -/
namespace Sys2Proof.Machine

/-! ### Channel sets -/

/-- Word `w` of channel set `n` of String `x` (R177). -/
def State.setWord (s : State) (x : Str) (n w : Nat) : Nat := s.rd .RCHx_SET_SET (x.ix (n * 256 + w))

/-- CHRATE of a set. -/
def State.chrate (s : State) (x : Str) (n : Nat) : Nat := bitsOf (s.setWord x n 0) 12 0

/-- RDR_MASK of a set. -/
def State.rdrMask (s : State) (x : Str) (n : Nat) : Nat := bitsOf (s.setWord x n 0) 15 13

/-- VALID of a set. -/
def State.setValid (s : State) (x : Str) (n : Nat) : Bool := bitOf (s.setWord x n 0) 31

/-- The active set. -/
def State.activeSet (s : State) (x : Str) : Nat := s.rd .RCHx_STAT_SET x.ix

/-- The bit rate of the active set at the Fret in force, Mb/s rounded down: CHRATE × f_rev / 120 Hz; 0 while no Fret is
in force (R152, R496). -/
def State.bitRate (s : State) (x : Str) : Nat :=
  if s.fretPs = 0 then 0 else s.chrate x (s.activeSet x) * 10 ^ 12 / (480 * 120 * s.fretPs)

/-- The bit rate lies within 2.5 to 7.2 Gb/s (R152). -/
def State.rateInRange (s : State) (x : Str) : Bool := decide (2500 ≤ s.bitRate x) && decide (s.bitRate x ≤ 7200)

/-- Bit-times of the active set in `ns` nanoseconds, rounded up. -/
def State.bitsIn (s : State) (x : Str) (ns : Nat) : Nat := (ns * s.bitRate x + 999) / 1000

/-! ### Sectors on a track (R203) -/

/-- What the layout of a track depends on: data-field length of a Fret, SGAP, FSTART. -/
structure TrackForm where
  room : Nat
  sgap : Nat
  fstart : Nat
deriving DecidableEq, Repr

/-- Data-field length of a Fret: bit-times from FSTART after the boundary to the next preamble gate, with one cell
CHRATE × 1,000,000 / (57,600 × CELLS) bit-times, rounded down (R203). -/
def dataField (chrate cells bound pre samBits fstart : Nat) : Nat :=
  (cells - pre - 2 * samBits - bound) * (chrate * 1000000) / (57600 * cells) - fstart

/-- The form of a track recorded with channel set `n`. -/
def State.trackForm (s : State) (x : Str) (n : Nat) : TrackForm :=
  let r f := s.rd f x.ix
  { room := dataField (s.chrate x n) (r .SVDx_FMT0_CELLS) (r .SVDx_FMT3_BOUND) (r .SVDx_FMT0_PRE_LEN)
      (r .SVDx_FMT0_SAM_LEN) (r .WRPx_CFG_FSTART)
    sgap := r .WRPx_CFG_SGAP
    fstart := r .WRPx_CFG_FSTART }

/-- The codeword bits of the first fragment of a sector split with `room` bit-times left: the largest multiple of 128
at most room − 192 and at most 36,096, if it is 1,024 or more. -/
def firstFragment (room : Nat) : Option Nat :=
  let f := min 36096 (room - 192) / 128 * 128
  if 1024 ≤ f then some f else none

/-- The layout loop of R203, `fuel` turns of it: `frets` Frets of the track are left, the present one included; `pos`
counts from the data-field start of the Fret `wedge`; sectors are numbered from `index`. -/
def layLoop (t : TrackForm) : (fuel frets wedge pos index : Nat) → List SectorPos
  | 0, _, _, _, _ => []
  | fuel + 1, frets, wedge, pos, index =>
    let room := t.room - pos
    if 37328 ≤ room then
      { index, wedge, start := t.fstart + pos, split := none } ::
        layLoop t fuel frets wedge (pos + 37328 + t.sgap) (index + 1)
    else if frets ≤ 1 then []
    else
      let next := (wedge + 1) % 480
      match firstFragment room with
      | some f =>
        { index, wedge, start := t.fstart + pos, split := some f } ::
          layLoop t fuel (frets - 1) next (80 + (37120 - f) + 32 + t.sgap) (index + 1)
      | none => layLoop t fuel (frets - 1) next 0 index

/-- Every sector of a track whose first Fret is wedge `w0`. At the top rate a Fret holds at most four starts. -/
def laySectors (t : TrackForm) (w0 : Nat) : List SectorPos := layLoop t 2880 480 w0 0 0

/-- The media format of String `x`. -/
def State.format (s : State) (x : Str) : StrFormat := (s.str.get x).format

/-- Sectors of a track of String `x` under set `n`: the track begins at wedge W0 = track × TSKEW mod 480. -/
def State.trackSectors (s : State) (x : Str) (n track : Nat) : List SectorPos :=
  laySectors (s.trackForm x n) (track * (s.format x).tskew % 480)

/-- Data sectors per track under set `n` (R202). -/
def State.perTrack (s : State) (x : Str) (n : Nat) : Nat := (laySectors (s.trackForm x n) 0).length

/-- Where sector `i` of a track lies; a sector beyond the track's end lies nowhere and is given the track's start. -/
def State.sectorPos (s : State) (x : Str) (n track i : Nat) : SectorPos :=
  ((s.trackSectors x n track)[i]?).getD { index := i, wedge := track * (s.format x).tskew % 480, start := 0, split := none }

/-! ### Radial bands, units and bands -/

/-- START[h][b]. -/
def StrFormat.startOf (f : StrFormat) (h b : Nat) : Nat := f.start.getD (16 * h + b) 0

/-- Radial band `b` of head `h` covers these tracks: its first and the one after its last. -/
def StrFormat.radial (f : StrFormat) (h b : Nat) : Nat × Nat :=
  (f.startOf h b, if b < 15 then f.startOf h (b + 1) else f.tracks)

/-- The radial band of a track: the highest band whose START is at or below it. -/
def StrFormat.bandOf (f : StrFormat) (h track : Nat) : Nat :=
  ((List.range 16).filter fun b => decide (f.startOf h b ≤ track)).getLast?.getD 0

/-- The channel set of a track (R202). -/
def StrFormat.setOf (f : StrFormat) (h track : Nat) : Nat := 16 * h + f.bandOf h track

/-- A CMR unit or SMR band of a surface (R201): its head, first track, tracks, data sectors per track. -/
structure Extent where
  cmr : Bool
  head : Nat
  first : Nat
  tracks : Nat
  perTrack : Nat
  set : Nat
deriving DecidableEq, Repr

/-- Units or bands of `size` positions that fit between two tracks, each followed by `guard` tracks (R202). -/
def extentsIn (cmr : Bool) (head set size guard per lo hi : Nat) : List Extent :=
  if per = 0 then []
  else
    let need := (size + per - 1) / per
    (List.range ((hi - lo) / (need + guard))).map fun i =>
      { cmr, head, first := lo + i * (need + guard), tracks := need, perTrack := per, set }

/-- The units and bands of String `x`, in head order and track order: first the units, then the bands (R202). -/
def State.extents (s : State) (x : Str) : List Extent × List Extent :=
  let f := s.format x
  if !f.formatted then ([], [])
  else
    let rows := (List.range f.heads).flatMap fun h => (List.range 16).map fun b => (h, b)
    let units := rows.flatMap fun (h, b) =>
      let (lo, hi) := f.radial h b
      extentsIn true h (16 * h + b) 131328 0 (s.perTrack x (16 * h + b)) lo (min hi f.cmrTrk)
    let bands := rows.flatMap fun (h, b) =>
      let (lo, hi) := f.radial h b
      extentsIn false h (16 * h + b) 133152 f.guard (s.perTrack x (16 * h + b)) (max lo f.cmrTrk) hi
    (units, bands)

/-- Extent number `n` of String `x`: units first, then bands (R209 numbers both together; log entry 12). -/
def State.extent (s : State) (x : Str) (n : Nat) : Option Extent :=
  let (u, b) := s.extents x
  (u ++ b)[n]?

/-- Position `k` of an extent lies on this track and sector: positions run in track order, from the side the shingle
direction of the surface starts at (R204, R202). -/
def Extent.at' (e : Extent) (shdir k : Nat) : Nat × Nat :=
  let t := k / e.perTrack
  ((if shdir.testBit e.head && !e.cmr then e.first + e.tracks - 1 - t else e.first + t), k % e.perTrack)

/-- The number of the position at a track and sector of an extent: `Extent.at'` undone. -/
def Extent.posOf (e : Extent) (shdir track sector : Nat) : Nat :=
  (if shdir.testBit e.head && !e.cmr then e.first + e.tracks - 1 - track else track - e.first) * e.perTrack + sector

/-- A track lies in an extent. -/
def Extent.holds (e : Extent) (head track : Nat) : Bool :=
  e.head == head && decide (e.first ≤ track) && decide (track < e.first + e.tracks)

/-- The position that physical index `p` has in a band whose skip list is `skips`, in rising order: skipped positions
are passed over (R204). -/
def skipTo (skips : List Nat) (p : Nat) : Nat := skips.foldl (fun p k => if k ≤ p then p + 1 else p) p

/-- Physical index of data sector z of a zone in a band (R204). -/
def dataIndex (z : Nat) : Nat := z + z / 64

/-- Physical index of the parity sector of stripe `k` (R204). -/
def parityIndex (k : Nat) : Nat := 65 * k + 64

/-- Key of a media position. -/
def mediaKey (head track sector : Nat) : Nat := (head * 2 ^ 24 + track) * 4096 + sector

/-- What the media of String `x` holds at a position. -/
def State.onMedia (s : State) (x : Str) (key : Nat) : Option Codeword :=
  ((s.str.get x).media.find? fun e => e.1 == key).map (·.2)

/-- The media of String `x` with a position written, or left with no readable codeword. -/
def State.setMedia (s : State) (x : Str) (key : Nat) (w : Option Codeword) : State :=
  s.modStr x fun t =>
    let rest := t.media.filter fun e => e.1 != key
    { t with media := match w with | some w => (key, w) :: rest | none => rest }

/-! ### The trailer (R181, R499) -/

/-- CRC-16 with polynomial x¹⁶ + x¹² + x⁵ + 1 over bytes, each most significant bit first (R499). -/
def crcLba (bytes : List Nat) : Nat :=
  bytes.foldl (fun crc b => (List.range 8).foldl (fun c k =>
    let top := xor (c.testBit 15) (b.testBit (7 - k))
    let d := (c * 2) % 65536
    if top then d ^^^ 0x1021 else d) crc) 0xFFFF

/-- Bytes 4,112 to 4,125 of a sector: GEN with the namespace tag, and the LBA, least significant byte first (R181). -/
def trailerBytes (w : Content) : List Nat :=
  let le (v n : Nat) : List Nat := (List.range n).map fun k => v / 256 ^ k % 256
  le (w.gen % 2 ^ 40 + w.nstag % 256 * 2 ^ 40) 8 ++ le (w.lba % 2 ^ 48) 6

/-- LBACHK[63:48] of a sector (R499). -/
def lbaCheck (w : Content) : Nat := crcLba (trailerBytes w)

end Sys2Proof.Machine
end

