-- ==== Sys2Proof/Machine/Regions.lean ====
section
/-! DEFINITION. Machine/Regions.lean: the memory regions (R36, R41): their bytes, what is initialised (R410, R418), and the
SECDED of their words (R410 to R412). -/
namespace Sys2Proof.Machine

/-- Memory regions of R36. -/
inductive MemRegion
  | rom
  | sram (bank : Nat)
  | chest
  | sample (x : Str)
  | nor
  | lpddr
deriving DecidableEq, Repr

/-! ### Memory regions (R41, R410, R418) -/

/-- A byte of the memory list; one not listed is 0. -/
def memFind : List Host.Cell → Nat → Byte
  | [], _ => 0
  | (k, v) :: t, a => if k = a then v else memFind t a

/-- The memory list with a byte set: addresses strictly rising, no byte 0 listed. -/
def memPut : List Host.Cell → Nat → Byte → List Host.Cell
  | [], a, v => if v = 0 then [] else [(a, v)]
  | (k, w) :: t, a, v =>
    if a < k then (if v = 0 then (k, w) :: t else (a, v) :: (k, w) :: t)
    else if a = k then (if v = 0 then t else (a, v) :: t)
    else (k, w) :: memPut t a v

/-- The canonical form: addresses strictly rising, no byte 0 listed. -/
def memWf : List Host.Cell → Bool
  | [] => true
  | [e] => e.2 != 0
  | a :: b :: t => decide (a.1 < b.1) && a.2 != 0 && memWf (b :: t)

/-- The memory's canonical form holds. -/
abbrev Memory.wf (m : List Host.Cell) : Prop := memWf m = true

/-- Memory state changed. -/
def State.modMemory (s : State) (f : MemoryState → MemoryState) : State := { s with memory := f s.memory }

/-- Instance of an SRAM address in R410. -/
def MemRegion.instance' : MemRegion → Option Nat
  | .sram n => some (20 + n)
  | .sample x => some (38 + x.num)
  | _ => none

/-- What a read of an address gives is defined: it has been written, or its region starts as zeros or is persistent
(R418). -/
def State.initialised (s : State) (m : MemRegion) (a : Nat) : Bool :=
  match m.instance' with
  | none => m == .chest || m == .lpddr
  | some i => s.isSet .MI_I_CFG_INIT_MODE i || s.memory.filled.contains i || s.memory.valid.contains (a / 256) || s.memory.written.contains (a / 8)

/-- A byte read from a memory region. What nothing has written in normal service, the Boot ROM and the serial NOR give
bytes the manual does not state. -/
def State.readByte (s : State) (m : MemRegion) (a : Nat) : Nat × State :=
  if s.initialised m a then ((memFind s.mem a).toNat, s) else (s.free % 256, s.drawn)

/-- A byte written. The Boot ROM and the NOR window ignore writes. -/
def State.writeByte (s : State) (m : MemRegion) (a v : Nat) : State :=
  match m with
  | .rom | .nor => s
  | _ => { s with mem := memPut s.mem a (BitVec.ofNat 8 v) }

/-- What the stored check bits of a word, where they were written raw, make of an ordinary read (R411, R417): 0 good, 1
correctable, 2 uncorrectable. The manual does not give the code. -/
def State.codeStatus (s : State) (a : Nat) : Nat :=
  match storeFind s.memory.check (a / 8 * 8) with
  | none => 0
  | some c => Config.codeStatus (a / 8 * 8) c % 3

/-- What a write does to the initialisation state and to the code of its word (R410, R418): it sets the block's valid bit
in INIT_MODE, and clears poison when it fills the 64-bit word; a lesser write reads the word first, and one it finds
uncorrectable is poisoned. -/
def State.wordWritten (s : State) (m : MemRegion) (a : Nat) (full : Bool) : State :=
  let w := a / 8 * 8
  let bad := !full && s.codeStatus a == 2 && !s.memory.poisoned.contains w
  let s := s.modMemory fun y =>
    { y with check := y.check.filter fun e => e.1 != w
             poisoned := if full then y.poisoned.filter (· != w) else if bad then w :: y.poisoned else y.poisoned }
  match m.instance' with
  | none => s
  | some i =>
    if s.isSet .MI_I_CFG_INIT_MODE i then s.modMemory fun y => { y with valid := if y.valid.contains (a / 256) then y.valid else a / 256 :: y.valid }
    else s.modMemory fun y => { y with written := if y.written.contains (a / 8) then y.written else a / 8 :: y.written }

/-- `k` bytes read, least significant first (R41). -/
def State.readMem (s : State) (m : MemRegion) (a : Nat) : Nat → Nat × State
  | 0 => (0, s)
  | k + 1 =>
    let (lo, s) := s.readByte m a
    let (hi, s) := s.readMem m (a + 1) k
    (lo + 256 * hi, s)

/-- `k` bytes written. -/
def State.writeMem (s : State) (m : MemRegion) (a v : Nat) : Nat → State
  | 0 => s
  | k + 1 => (s.writeByte m a (v % 256)).writeMem m (a + 1) (v / 256) k

/-! ### SECDED (R410 to R412) -/

/-- Instance of a memory region's word in R410; the Boot ROM and the NOR have none. -/
def MemRegion.ecc (m : MemRegion) (a : Nat) : Option Nat :=
  match m with
  | .sram n => some (20 + n)
  | .sample x => some (38 + x.num)
  | .lpddr => some (45 + Config.lpddrChannel a % 2)
  | .chest => some 47
  | _ => none

/-- Address, syndrome and kind of an instance's last error. -/
def State.captureError (s : State) (i a synd kind : Nat) : State :=
  (((s.wr .MI_I_ALO_ADDR (a % 2 ^ 32) i).wr .MI_I_AHI_ADDR (a / 2 ^ 32) i).wr .MI_I_AHI_SYND synd i).wr .MI_I_AHI_KIND kind i

/-- ECC_CORRECTION (R412): CE counts; the bucket rises, or overflows and interrupts the Bureau once. A correction and a leak
of the same cycle leave LEVEL unchanged. -/
def State.correction (s : State) (i a synd : Nat) (leak : Bool := false) : State :=
  let s := (s.bump .MI_I_CE_COUNT i).captureError i a synd 0
  if leak then s
  else if s.rd .MI_I_STAT_LEVEL i < s.eff .MI_I_CFG_DEPTH i then s.wr .MI_I_STAT_LEVEL (s.rd .MI_I_STAT_LEVEL i + 1) i
  else if s.isSet .MI_I_STAT_OVF i then s
  else (s.flag .MI_I_STAT_OVF i).emit (.irq "memory integrity" i)

/-- An uncorrectable error (R412): it counts in UE and interrupts at once. -/
def State.uncorrectable (s : State) (i a synd : Nat) : State :=
  (((s.bump .MI_I_UE_UE i).flag .MI_I_STAT_UE i).captureError i a synd 1).emit (.irq "memory integrity" i)

end Sys2Proof.Machine
end

