-- ==== Sys2Proof/Machine/Signal.lean ====
section
/-! DEFINITION. Machine/Signal.lean: the read channel's signal path (R154 to R163, R170, R171) over a channel set in the layout of
R177, and the sample buffer's contents (R166, R167). Samples are lists, one per bit-time; what the spec leaves open of the
arithmetic is in log entry 56. -/
namespace Sys2Proof.Machine

/-! ### A set's fields (R177) -/

/-- Field of a word of a set. -/
def setField (snap : List Nat) (w hi lo : Nat) : Nat := bitsOf (snap.getD w 0) hi lo

/-- Signed field of a word of a set. -/
def setSigned (snap : List Nat) (w hi lo : Nat) : Int := toSigned (hi + 1 - lo) (setField snap w hi lo)

/-- The reader is in RDR_MASK. -/
def inMask (snap : List Nat) (r : Nat) : Bool := (setField snap 0 15 13).testBit r

/-! ### Front end (R154, R155, R172) -/

/-- The analogue front end of a reader: cut-off of the CTF in kHz, boost in 0.5 dB, VGA code (its gain is −6 dB + code × 0.125 dB),
static phase in 1/64 bit-time. -/
structure FrontEnd where
  cutoff : Nat
  boost : Nat
  code : Nat
  phase : Nat
deriving DecidableEq, Repr

/-- Settings for data of a reader at a bit rate in Mb/s: the cut-off is (0.200 + FC × 0.005) × bit rate (R154). -/
def dataFrontEnd (snap : List Nat) (r rate code : Nat) : FrontEnd :=
  { cutoff := (200 + 5 * setField snap (1 + r) 5 0) * rate, boost := setField snap (1 + r) 10 6, code
    phase := setField snap (1 + r) 30 25 }

/-- Settings for servo fields: 1.0 GHz, 0 dB, the head's servo gain (R172). -/
def servoFrontEnd (code : Nat) : FrontEnd := { cutoff := 10 ^ 6, boost := 0, code, phase := 0 }

/-- An ADC sample: the VGA's output less the DC offset, both in 1/16 LSB, in 7 bits (R154). -/
def adcSample (v dc : Int) : Int := saturate 7 (roundDiv (v - dc) 16)

/-- Aligned sample `n` of a reader: delayed by its DLY; 0 outside RDR_MASK (R155, R156). -/
def alignedSample (snap : List Nat) (adc : List (List Int)) (r n : Nat) : Int :=
  let d := setField snap (1 + r) 24 19
  if inMask snap r && decide (d ≤ n) then (adc.getD r []).getD (n - d) 0 else 0

/-! ### Equaliser and target (R157, R158) -/

/-- Output `n` of the equaliser in 1/16 ADC LSB, and whether it saturated at ±128 LSB (R157). -/
def equalised (snap : List Nat) (adc : List (List Int)) (n : Nat) : Int × Bool :=
  let term (r k : Nat) : Int :=
    if n + 5 < k then 0 else setSigned snap (8 + 12 * r + k) 9 0 * alignedSample snap adc r (n + 5 - k)
  let y := roundDiv ((List.range 3).map fun r => ((List.range 12).map (term r)).sum).sum 8
  (clampInt (-2048) 2048 y, decide (2048 < y.natAbs))

/-- The target ŷ for three successive written bits, the newest first, in 1/1,024 ADC LSB (R158). -/
def targetFor (snap : List Nat) (b0 b1 b2 : Bool) : Int :=
  let a (b : Bool) : Int := if b then 1 else -1
  setField snap 5 13 6 * (256 * a b0 + setSigned snap 4 9 0 * a b1 + setSigned snap 4 19 10 * a b2)

/-- The target at bit `n` of a sequence; bits before its first are 0. -/
def targetAt (snap : List Nat) (bits : List Bool) (n : Nat) : Int :=
  let b (k : Nat) : Bool := if n < k then false else bits.getD (n - k) false
  targetFor snap (b 0) (b 1) (b 2)

/-- Pattern b[n] … b[n−4] as a binary number (R177). -/
def patternAt (bits : List Bool) (n : Nat) : Nat :=
  (List.range 5).foldl (fun v k => 2 * v + boolNat (if n < k then false else bits.getD (n - k) false)) 0

/-! ### The detector (R163) -/

/-- P1 and P2 in 1/1,024 and VAR in 1/256 LSB² of a pattern. -/
def predictors (snap : List Nat) (p : Nat) : Int × Int × Nat :=
  (setSigned snap (64 + 3 * p) 11 0, setSigned snap (65 + 3 * p) 11 0, setField snap (66 + 3 * p) 15 0)

/-- Prediction residual w of a pattern in 2⁻²⁰ LSB, from the errors e[n], e[n−1], e[n−2] in 2⁻¹⁰ LSB. -/
def residual (snap : List Nat) (p : Nat) (e0 e1 e2 : Int) : Int :=
  let (p1, p2, _) := predictors snap p
  1024 * e0 - p1 * e1 - p2 * e2

/-- Metric of a branch in 1/65,536: w² / VAR + ln VAR − a × La / 2, where `half` is La / 2. -/
def branchMetric (snap : List Nat) (y : Nat → Int) (half : Nat → Int) (n p : Nat) : Int :=
  let bit k := p.testBit (4 - k)
  let e (j : Nat) : Int := (if n < j then 0 else 64 * y (n - j)) - targetFor snap (bit j) (bit (j + 1)) (bit (j + 2))
  let w := residual snap p (e 0) (e 1) (e 2)
  let var := (predictors snap p).2.2
  roundDiv (w * w) (65536 * var) + Config.logVar var - (if bit 0 then half n else -half n)

/-- The lower of two metrics. -/
def minMetric (a b : Int) : Int := if a ≤ b then a else b

/-- Forward metrics of the 16 states after `k` branches from bit `n`; state t is b[n−1] … b[n−4] as a binary number. -/
def forward (γ : Nat → Nat → Int) (n : Nat) : Nat → List Int
  | 0 => List.replicate 16 0
  | k + 1 =>
    let a := forward γ n k
    (List.range 16).map fun t =>
      minMetric (a.getD (2 * t % 16) 0 + γ (n + k) (2 * t)) (a.getD ((2 * t + 1) % 16) 0 + γ (n + k) (2 * t + 1))

/-- Backward metrics of the 16 states before the `k` branches from bit `n`. -/
def backward (γ : Nat → Nat → Int) (n : Nat) : Nat → List Int
  | 0 => List.replicate 16 0
  | k + 1 =>
    let b := backward γ (n + 1) k
    (List.range 16).map fun t => minMetric (γ n t + b.getD (t / 2) 0) (γ n (16 + t) + b.getD (8 + t / 2) 0)

/-- Posterior LLR of bit `n` of `len`, in 1/65,536, over windows of 64 bit-times. -/
def posterior (γ : Nat → Nat → Int) (len n : Nat) : Int :=
  let a := forward γ (n - 64) (min n 64)
  let b := backward γ (n + 1) (min 64 (len - (n + 1)))
  let path (p : Nat) : Int := a.getD (p % 16) 0 + γ n p + b.getD (p / 2) 0
  let best (from' : Nat) : Int := (List.range 15).foldl (fun m k => minMetric m (path (from' + k + 1))) (path from')
  best 0 - best 16

/-- The detector on equalised samples with a priori LLRs in units of 0.5, scaled by EXT_SCALE / 16, of which 0 acts as 16: the
extrinsic LLRs, 6 bits in units of 0.5, and the hard decisions (R163, R164). -/
def detect (snap : List Nat) (scale : Nat) (ys la : List Int) : List Int × List Bool :=
  let es := if scale = 0 then 16 else scale
  let half (n : Nat) : Int := la.getD n 0 * es * 1024
  let γ := branchMetric snap (fun n => ys.getD n 0) half
  let post := (List.range ys.length).map (posterior γ ys.length)
  ((List.range ys.length).map fun n => clampInt (-31) 31 (roundDiv (2 * (post.getD n 0 - 2 * half n)) 65536), post.map fun l => decide (0 < l))

/-! ### Adaptation (R159, R161) -/

/-- Σ over the bits of a gate. -/
def gateSum (len : Nat) (f : Nat → Int) : Int := ((List.range len).map f).sum

/-- Error y[n] − ŷ[n] in 1/1,024 LSB. -/
def errorAt (snap : List Nat) (ys : List Int) (bits : List Bool) (n : Nat) : Int := 64 * ys.getD n 0 - targetAt snap bits n

/-- MSE of a sector in 1/4,096 (R161). -/
def sectorMse (snap : List Nat) (ys : List Int) (bits : List Bool) : Nat :=
  let err := gateSum ys.length fun n => errorAt snap ys bits n * errorAt snap ys bits n
  let ref := gateSum ys.length fun n => targetAt snap bits n * targetAt snap bits n
  (err * 4096).toNat / ref.toNat

/-- LMS updates of the 36 taps in 1/128, with step 2^−FIR_MU (R159). -/
def tapUpdates (snap : List Nat) (adc : List (List Int)) (ys : List Int) (bits : List Bool) (mu : Nat) : List Int :=
  (List.range 36).map fun i =>
    let x (n : Nat) : Int := if n + 5 < i % 12 then 0 else alignedSample snap adc (i / 12) (n + 5 - i % 12)
    roundDiv (-(gateSum ys.length fun n => errorAt snap ys bits n * x n)) (8 * 2 ^ mu)

/-- LMS updates of P1, P2 and VAR of the 32 patterns, with step 2^−NP_MU (R159). -/
def predictorUpdates (snap : List Nat) (ys : List Int) (bits : List Bool) (mu : Nat) : List Int :=
  (List.range 32).flatMap fun p =>
    let e (n k : Nat) : Int := if n < k then 0 else errorAt snap ys bits (n - k)
    let w (n : Nat) : Int := residual snap p (e n 0) (e n 1) (e n 2)
    let sum (f : Nat → Int) : Int := gateSum ys.length fun n => if patternAt bits n = p then f n else 0
    [roundDiv (sum fun n => w n * e n 1) (2 ^ 20 * 2 ^ mu), roundDiv (sum fun n => w n * e n 2) (2 ^ 20 * 2 ^ mu),
     roundDiv (sum fun n => w n * w n - (predictors snap p).2.2 * 2 ^ 32) (2 ^ 32 * 2 ^ mu)]

/-- Largest magnitude of the samples from `n` on, `k` of them. -/
def peakOf (xs : List Int) (n k : Nat) : Nat := ((xs.drop n).take k).foldl (fun m v => max m v.natAbs) 0

/-- The preamble peak of a reader: over acquisition, the first 96 bit-times of the gate. -/
def preamblePeak (xs : List Int) : Nat := peakOf xs 0 96

/-- VGA code of a reader after a gate that it entered with `code`: every 8 bit-times a step of the error in codes, in acquisition of
the peak against AGC_TGT, of which less than 16 acts as 16, then of the mean magnitude against its value at the end of
acquisition (R159). -/
def agcAfter (muA muT target code : Nat) (xs : List Int) : Nat :=
  let level (k : Nat) : Nat := ((xs.drop (8 * k)).take 8).foldl (fun m v => m + v.natAbs) 0
  let step (c : Int) (k : Nat) : Int :=
    let err := if k < 12 then Config.gainError (max 16 target) (peakOf xs (8 * k) 8) / 2 ^ muA else Config.gainError (level 11) (level k) / 2 ^ muT
    clampInt 0 (255 * 65536) (c + err)
  ((List.range (xs.length / 8)).foldl step (code * 65536 : Nat)).toNat / 65536

/-- DC offset of a reader after a gate, 1/16 LSB: every 256 bit-times one step toward a mean of 0, within ±8 LSB (R154, R159). -/
def dcAfter (dc : Int) (xs : List Int) : Int :=
  (List.range (xs.length / 256)).foldl (fun d k =>
    let m := ((xs.drop (256 * k)).take 256).sum
    clampInt (-128) 128 (d + (if 0 < m then 1 else if m < 0 then -1 else 0))) dc

/-- Phase and frequency of the bit clock after a gate: every 8 bit-times the second-order loop takes the Mueller–Müller error of
y against the hard decisions (R159). -/
def timingAfter (ka kt : Nat) (phase freq : Int) (ys : List Int) (bits : List Bool) : Int × Int :=
  let a (n : Nat) : Int := if bits.getD n false then 1 else -1
  let err (n : Nat) : Int := if n = 0 then 0 else ys.getD n 0 * a (n - 1) - ys.getD (n - 1) 0 * a n
  (List.range (ys.length / 8)).foldl (fun (ph, fr) k =>
    let e := ((List.range 8).map fun j => err (8 * k + j)).sum
    let gain : Nat := 2 ^ (if k < 12 then ka else kt)
    let fr := fr + roundDiv e (32 * gain)
    (ph + fr + roundDiv e gain, fr)) (phase, freq)

/-! ### Peak detection (R170, R171) -/

/-- Sample `n` is a peak: its magnitude exceeds those of both neighbours. -/
def isPeak (xs : List Int) (n : Nat) : Bool :=
  let m (k : Nat) : Nat := (xs.getD k 0).natAbs
  decide (0 < n) && decide (n + 1 < xs.length) && decide (m (n - 1) < m n) && decide (m (n + 1) < m n)

/-- Places of the qualified peaks of data, and how many PD_ALT discarded for the polarity of the one before (R170). -/
def dataPeaks (xs : List Int) (th amp : Nat) (alt : Bool) : List Nat × Nat :=
  let qualified := (List.range xs.length).filter fun n => isPeak xs n && decide (th * amp ≤ 64 * (xs.getD n 0).natAbs)
  let (kept, dropped) := qualified.foldl (fun (acc : List Nat × Nat) n =>
    let same := acc.1.head?.any fun k => decide (0 < xs.getD k 0) == decide (0 < xs.getD n 0)
    if alt && same then (acc.1, acc.2 + 1) else (n :: acc.1, acc.2)) ([], 0)
  (kept.reverse, dropped)

/-- NRZ bits from bit `first` on, `len` of them: the level before is `level`, and each peak toggles it (R171). -/
def nrzBits (peaks : List Nat) (level : Bool) (first len : Nat) : List Bool :=
  (List.range len).map fun k => xor level (((peaks.filter fun n => decide (first ≤ n) && decide (n ≤ first + k)).length % 2) == 1)

/-- Hard decisions as extrinsic values of full magnitude (R171). -/
def hardLlrs (bits : List Bool) : List Int := bits.map fun b => if b then 31 else -31

/-! ### The sample buffer (R166, R167) -/

/-- First address of a String's sample buffer (R36). -/
def sampleBase (x : Str) : Nat := 0x000300000000 + x.num * 0x100000

/-- First address of a slot's samples, and of its snapshot (R167). -/
def slotBase (x : Str) (i : Nat) : Nat := sampleBase x + i * 0x18000
def snapBase (x : Str) (i : Nat) : Nat := sampleBase x + 0xF0000 + i * 0x400

/-- Sample `j` of a packed area: sample n of reader r is number 3n + r, 7 bits each, the first in the lowest bits. -/
def packedByte (value : Nat → Nat) (b : Nat) : Nat :=
  let j := 8 * b / 7
  (value j + 128 * value (j + 1) + 16384 * value (j + 2)) / 2 ^ (8 * b - 7 * j) % 256

/-- Bytes written into a String's sample buffer from an address on. -/
def State.putBytes (s : State) (x : Str) : Nat → List Nat → State
  | _, [] => s
  | a, v :: rest => ((s.writeByte (.sample x) a v).wordWritten (.sample x) a true).putBytes x (a + 1) rest

/-- Samples of the three readers, packed, into a String's sample buffer: `n` per reader. -/
def State.putSamples (s : State) (x : Str) (a n : Nat) (samples : List (List Int)) : State :=
  let value (j : Nat) : Nat := if j / 3 < n then ofSigned 7 ((samples.getD (j % 3) []).getD (j / 3) 0) else 0
  s.putBytes x a ((List.range ((21 * n + 7) / 8)).map (packedByte value))

/-- The words of a snapshot, least significant byte first (R41). -/
def snapBytes (snap : List Nat) : List Nat := snap.flatMap fun w => (List.range 4).map fun k => w / 256 ^ k % 256

/-- Sample `n` of reader `r` of slot `i`, from the memory. -/
def State.slotSample (s : State) (x : Str) (i r n : Nat) : Int :=
  let bit := 7 * (3 * n + r)
  let byte (k : Nat) : Nat := (memFind s.mem (slotBase x i + bit / 8 + k)).toNat
  toSigned 7 ((byte 0 + 256 * byte 1) / 2 ^ (bit % 8) % 128)

/-- The samples that slot `i` holds, `n` per reader. -/
def State.slotSamples (s : State) (x : Str) (i n : Nat) : List (List Int) :=
  (List.range 3).map fun r => (List.range n).map fun k => s.slotSample x i r k

end Sys2Proof.Machine
end

