-- ==== Sys2Proof/Machine/Channel.lean ====
section
/-! DEFINITION. Machine/Channel.lean: the read channel (R152 to R178) and the sector format's sync search (R184 to
R186), and the meanings of its commands. What noise does to a sector stands in the operands of the events. -/
namespace Sys2Proof.Machine

/-! ### Channel sets -/

/-- The readers REF_RDR and PD_RDR name lie in RDR_MASK, RDR_MASK is not 0, CHRATE lies in range (R156). -/
def setConsistent (w0 : Nat) : Bool :=
  let mask := bitsOf w0 15 13
  mask != 0 && mask.testBit (bitsOf w0 17 16) && mask.testBit (bitsOf w0 19 18)
    && decide (2500 ≤ bitsOf w0 12 0) && decide (bitsOf w0 12 0 ≤ 7200)

/-- The bits of a set's word `w` that hold a field (R177); the others are reserved and read 0. -/
def setWordMask (w : Nat) : Nat :=
  if w = 0 then 0xFFFFF
  else if w < 4 then 0x7FFFFFFF
  else if w = 4 then 0xFFFFF
  else if w = 5 then 0x3FFFF
  else if 8 ≤ w && w < 44 then 0x3FF
  else if 64 ≤ w && w < 160 then (if (w - 64) % 3 = 2 then 0xFFFF else 0xFFF)
  else 0

/-- A reader's front end is powered with its Pegs loaded, or switched off, as RDR_MASK of the active set asks (R153, R156, R433,
R441). -/
def State.readerPower (s : State) (x : Str) (mask r : Nat) : State :=
  let d := 10 * x.num + r
  let on := s.bit .PWR_DOMSTAT_ON (d % 32) (d / 32)
  if mask.testBit r == on then s
  else if on then s.unflagBit .PWR_DOMSTAT_ON (d % 32) (d / 32)
  else [r, 3 + r, 6 + r].foldl (fun s n => s.wr .PEGx_V_VALUE (s.rd .PEGx_T_TARGET (x.ix n)) (x.ix n))
    (s.flagBit .PWR_DOMSTAT_ON (d % 32) (d / 32))

/-- The readers outside RDR_MASK of the active set are switched off; with `up` those inside it are powered. -/
def State.readersFollow (s : State) (x : Str) (up : Bool) : State :=
  let mask := s.rdrMask x (s.activeSet x)
  [0, 1, 2].foldl (fun s r => s.when (up || !mask.testBit r) fun s => s.readerPower x mask r) s

/-- A word of a set written; the device evaluates VALID again, and a value written to VALID is ignored (R156, R177). -/
def State.putSetWord (s : State) (x : Str) (n w v : Nat) : State :=
  let v := v &&& setWordMask w
  let s := s.wr .RCHx_SET_SET v (x.ix (n * 256 + w))
  let w0 := s.setWord x n 0 % 2 ^ 20
  s.wr .RCHx_SET_SET (w0 + if setConsistent w0 then 2 ^ 31 else 0) (x.ix (n * 256))

/-- CHANNEL_SET_WRITE: a write to the active set while running is ignored and sets CFG_LOCKED (R176). -/
def State.channelSetWrite (s : State) (x : Str) (n w v : Nat) : State :=
  if 96 ≤ n || 256 ≤ w then s
  else if n = s.activeSet x && s.channelRunning x then s.flag .RCHx_STAT_CFG_LOCKED x.ix
  else (s.putSetWord x n w v).when (n == s.activeSet x && w == 0) fun s => s.readersFollow x true

/-- The live taps and predictors are loaded from set `n`. -/
def State.loadTaps (s : State) (x : Str) (n : Nat) : State :=
  let s := (List.range 36).foldl (fun s k => s.wr .RCHx_FIR_TAP (s.setWord x n (8 + k)) (x.ix k)) s
  (List.range 96).foldl (fun s k => s.wr .RCHx_NP_NP (s.setWord x n (64 + k)) (x.ix k)) s

/-- The live taps and predictors are copied into the active set (SAVE, R162). -/
def State.saveTaps (s : State) (x : Str) : State :=
  let n := s.activeSet x
  let s := (List.range 36).foldl (fun s k => s.putSetWord x n (8 + k) (s.rd .RCHx_FIR_TAP (x.ix k))) s
  (List.range 96).foldl (fun s k => s.putSetWord x n (64 + k) (s.rd .RCHx_NP_NP (x.ix k))) s

/-- The bit rate in force is shown (R152, R176). -/
def State.refreshRate (s : State) (x : Str) : State := s.wr .RCHx_RATE_BITRATE (s.bitRate x) x.ix

/-- A set is named at an open or by SETSEL (R153, R502): whether the open may go on, and the state. A set that is not
VALID is refused, the active one too; a change of CHRATE or RDR_MASK takes effect, clears PLL_LOCK and refuses the open; any other
change takes effect without delay, with the taps and predictors of the set (log entry 13). -/
def State.nameSet (s : State) (x : Str) (n : Nat) : Bool × State :=
  if 96 ≤ n || !s.setValid x n then (false, s.flag .RCHx_STAT_SET_INV x.ix)
  else if n = s.activeSet x then (true, s)
  else
    let relock := s.chrate x n != s.chrate x (s.activeSet x) || s.rdrMask x n != s.rdrMask x (s.activeSet x)
    let s := (((s.wr .RCHx_STAT_SET n x.ix).loadTaps x n).refreshRate x).readersFollow x false
    if relock then (false, s.unflag .RCHx_STAT_PLL_LOCK x.ix) else (true, s)

/-- The rate test of a write-gate open on a set that may not be active yet (R218, R502): it names only CHRATE. -/
def State.nameSetForWrite (s : State) (x : Str) (n : Nat) : Bool × State :=
  if 96 ≤ n || !s.setValid x n then (false, s.flag .RCHx_STAT_SET_INV x.ix)
  else if n = s.activeSet x then (true, s)
  else
    let relock := s.chrate x n != s.chrate x (s.activeSet x)
    let s := (((s.wr .RCHx_STAT_SET n x.ix).loadTaps x n).refreshRate x).readersFollow x false
    if relock then (false, s.unflag .RCHx_STAT_PLL_LOCK x.ix) else (true, s)

/-! ### Detector passes (R165) -/

/-- Priority of a pass. -/
def PassKind.prio : PassKind → Nat
  | .restart => 1
  | .redet => 2
  | .slip => 3
  | .pd => 4

/-- The next pass of a queue: the lowest priority number, the oldest within it. -/
def nextPass (q : List Pass) : Option Pass :=
  [PassKind.restart, .redet, .slip, .pd].findSome? fun k => q.find? fun p => p.kind == k

/-- The queue without the first pass equal to `p`. -/
def dropPass (q : List Pass) (p : Pass) : List Pass := q.erase p

/-- Idle pipes 1 and 2 take work from the queue; a held RESTART takes the entry that is freed (R165). -/
def startPass (c : Rch) : Rch :=
  match nextPass c.passes with
  | none => c
  | some p =>
    let take (c : Rch) : Rch :=
      match c.heldRestarts with
      | h :: t => { c with passes := dropPass c.passes p ++ [h], heldRestarts := t }
      | [] => { c with passes := dropPass c.passes p }
    if c.pipe1.isNone then { take c with pipe1 := some p }
    else if c.pipe2.isNone then { take c with pipe2 := some p }
    else c

/-- Both pipes take what they can. -/
def State.startPasses (s : State) (x : Str) : State := s.modRch x fun c => startPass (startPass c)

/-- A freed entry is taken by a held RESTART, ahead of any other request (R165). -/
def fillHeld (c : Rch) : Rch :=
  let n := 8 - c.passes.length
  { c with passes := c.passes ++ c.heldRestarts.take n, heldRestarts := c.heldRestarts.drop n }

/-- A pass is requested: one of the eight entries is reserved for RESTART. It answers whether the pass was accepted; a
RESTART that finds the queue full is held, and a pass of the same codeword that runs gives no result (R165, R173). -/
def State.requestPass (s : State) (x : Str) (p : Pass) : Bool × State :=
  let c := (s.str.get x).rch
  let others := (c.passes.filter fun q => q.kind != .restart).length
  if p.kind == .restart then
    let stale (q : Option Pass) : Option Pass := q.map fun q => if q.slot == p.slot && q.shift == p.shift then { q with discard := true } else q
    let s := s.modRch x fun c => fillHeld { c with pipe1 := stale c.pipe1, pipe2 := stale c.pipe2 }
    let c := (s.str.get x).rch
    if c.passes.length < 8 then (true, (s.modRch x fun c => { c with passes := c.passes ++ [p] }).startPasses x)
    else (true, s.modRch x fun c => { c with heldRestarts := c.heldRestarts ++ [p] })
  else if others < 7 && c.passes.length < 8 then
    let s := s.when (p.kind == .redet) fun s => s.bump .RCHx_CNT1_REDET x.ix
    (true, (s.modRch x fun c => { c with passes := c.passes ++ [p] }).startPasses x)
  else (false, s)

/-! ### Adaptation (R159 to R162) -/

/-- A tap moved by an update, and whether it reaches an end value (R161). -/
def tapMoved (old : Nat) (d : Int) : Int := toSigned 10 old + d

/-- An update would bring a tap to an end value or a VAR to 0 (R161). Tap 5 of REF_RDR is never adapted (R159). -/
def State.adaptDiverges (s : State) (x : Str) (e : AdaptEntry) : Bool :=
  let anchor := 12 * bitsOf (s.setWord x (s.activeSet x) 0) 17 16 + 5
  let tap k := k != anchor &&
    (let v := tapMoved (s.rd .RCHx_FIR_TAP (x.ix k)) (e.taps.getD k 0); decide (v ≤ -512) || decide (511 ≤ v))
  let var p := decide ((s.rd .RCHx_NP_NP (x.ix (3 * p + 2)) : Int) + e.preds.getD (3 * p + 2) 0 ≤ 0)
  (e.taps.any (· != 0) && (List.range 36).any tap) || (e.preds.any (· != 0) && (List.range 32).any var)

/-- An update is applied to the live values. -/
def State.applyAdapt (s : State) (x : Str) (e : AdaptEntry) : State :=
  let anchor := 12 * bitsOf (s.setWord x (s.activeSet x) 0) 17 16 + 5
  let s := (List.range 36).foldl (fun s k =>
    s.when (k != anchor) fun s =>
      s.wr .RCHx_FIR_TAP (ofSigned 10 (tapMoved (s.rd .RCHx_FIR_TAP (x.ix k)) (e.taps.getD k 0))) (x.ix k)) s
  (List.range 96).foldl (fun s k =>
    let old := s.rd .RCHx_NP_NP (x.ix k)
    let d := e.preds.getD k 0
    s.wr .RCHx_NP_NP (if k % 3 = 2 then ofSigned 16 ((old : Int) + d) else ofSigned 12 (toSigned 12 old + d)) (x.ix k)) s

/-- Divergence (R161): EQ_DIV set, the pending queue discarded, the set values reloaded from the next open. -/
def State.diverge (s : State) (x : Str) : State :=
  ((s.flag .RCHx_STAT_EQ_DIV x.ix).modRch x fun c => { c with adapt := [], reload := true, highMse := 0 }).rchRefresh x

/-- Entries that have become applicable at this open, oldest first: failed ones are discarded, confirmed ones applied,
until one whose verdict is awaited (R160). `drop` discards them instead: the same open applied a set change, RESTORE
or a reload (R173). -/
def State.adaptOpen (s : State) (x : Str) (drop : Bool) : Nat → State
  | 0 => s
  | n + 1 =>
    match (s.str.get x).rch.adapt with
    | [] => s
    | e :: rest =>
      match e.verdict with
      | none => s
      | some ok =>
        let s := (s.modRch x fun c => { c with adapt := rest }).rchRefresh x
        let s :=
          if !ok || drop || e.set != s.activeSet x || s.isSet .RCHx_STAT_EQ_DIV x.ix then s
          else if s.adaptDiverges x e then s.diverge x
          else s.applyAdapt x e
        s.adaptOpen x drop n

/-! ### The read gate -/

/-- "Channel not ready" reaches the RSQ (R153, R173, R178). -/
def State.rsqNotReady (s : State) (x : Str) : State := s.modSeq x .rsq fun q => { q with notReady := true }

/-- The S fields of the read channel take effect at a read-gate open, CAPTURE apart (R175, R176). -/
def State.rchBoundary (s : State) (x : Str) : State :=
  let cap := s.shadowOf .RCHx_CTRL_CAPTURE x.ix
  let s := (s.shadowDrop .RCHx_CTRL_CAPTURE x.ix).boundary .rch x.num
  match cap with
  | none => s
  | some v => s.shadowWr .RCHx_CTRL_CAPTURE v x.ix

/-- CAPTURE waits for the ten slots to be free; leaving capture mode waits for nothing (R175). -/
def State.captureMode (s : State) (x : Str) : State :=
  match s.shadowOf .RCHx_CTRL_CAPTURE x.ix with
  | none => s
  | some v =>
    if v = 0 || (freeSlots (s.str.get x).rch.slots).length = 10 then
      ((s.shadowDrop .RCHx_CTRL_CAPTURE x.ix).wr .RCHx_CTRL_CAPTURE v x.ix).modRch x fun c => { c with capMode := v != 0 }
    else s

/-- "Sample buffer full" (R169). -/
def State.sbufFull (s : State) (x : Str) : State :=
  (((s.modSeq x .rsq fun q => { q with sbufFull := true }).flag .RCHx_STAT_SBUF_SLIP x.ix).bump .RCHx_CNT2_SBUF_SLIP x.ix)

/-- The active set with the live taps and predictors in it: the snapshot of a slot (R166, R177). -/
def State.liveSet (s : State) (x : Str) : List Nat :=
  let n := s.activeSet x
  (List.range 256).map fun w =>
    if 8 ≤ w && w < 44 then s.rd .RCHx_FIR_TAP (x.ix (w - 8))
    else if 64 ≤ w && w < 160 then s.rd .RCHx_NP_NP (x.ix (w - 64))
    else s.setWord x n w

/-- A slot as it stands when the read gate opens for `a` (R166, R167). -/
def State.newSlot (s : State) (x : Str) (a : Armed) : Slot :=
  let h := s.rd .SCEx_TARGET_HEAD x.ix
  let place := a.request.places[a.offset]?
  let snap := s.liveSet x
  { action := a
    head := h
    word := s.onMedia x (mediaKey a.request.head a.request.track ((place.map (·.sector)).getD 0))
    snap, locMax := s.eff .RCHx_CTRL_LOC_MAX x.ix, scale := setField snap 5 17 14, amps := [0, 0, 0]
    adaptFull := decide (8 ≤ (s.str.get x).rch.adapt.length)
    recording := true, paused := false, fragment := false, align := 0, alt := none, mism1 := 7, mism2 := 0
    peak := s.isSet .RCHx_CTRL_PDMODE x.ix, maxIter := s.eff .RCHx_CTRL_GLB_MAX x.ix
    slipRun := false, slipCands := [], slipOut := [], slipWon := none, adapted := false
    ladder := if a.request.source == .ladder then some a.request.tag else none }

/-- SAVE and RESTORE at a read-gate open, in the order written; with RESTORE, or a reload after a divergence, the whole pending queue
is discarded (R160 to R162). The retry of rung 5 applies a RESTORE of its own (R228). -/
def State.tapActions (s : State) (x : Str) (a : Armed) : State :=
  let retry := a.request.source == .ladder && (s.str.get x).ladders.any fun l => l.id == a.request.tag && l.rung == 5
  let s := s.when retry fun s => s.modRch x fun c => { c with taps := c.taps ++ [(false, s.timebase)] }
  let c := (s.str.get x).rch
  let s := c.taps.foldl (fun s e => if e.1 then s.saveTaps x else s.loadTaps x (s.activeSet x)) s
  let s := s.when c.reload fun s => s.loadTaps x (s.activeSet x)
  let fresh := c.reload || c.taps.any fun e => !e.1
  (s.modRch x fun c => { c with taps := [], reload := false, adapt := if fresh then [] else c.adapt }).rchRefresh x

/-- The read gate opens (R153, R168): VGA0 of every reader, a slot with its snapshot in the sample buffer, CAPACK. -/
def State.openGate (s : State) (x : Str) (a : Armed) (slot : Nat) : State :=
  let vga r := bitsOf (s.setWord x (s.activeSet x) (1 + r)) 18 11
  let s := ((s.wr .RCHx_GAIN_G0 (vga 0) x.ix).wr .RCHx_GAIN_G1 (vga 1) x.ix).wr .RCHx_GAIN_G2 (vga 2) x.ix
  let cell := s.newSlot x a
  let s := s.putBytes x (snapBase x slot) (snapBytes cell.snap)
  let s := s.modRch x fun c => { c with slots := c.slots.set slot (some cell), gate := some slot }
  let s := s.wr (creditReg a.request.source) (s.rd (creditReg a.request.source) x.num + 1) x.num
  ((s.rchRefresh x).bump .RCHx_CNT0_SECTORS x.ix).modSeq x .rsq fun q => { q with capack := min 2 (q.capack + 1) }

/-- The tests of a read-gate open that come before the set is named (R153, R173, R178); with no Harp lane in service nothing
is read (R196). -/
def State.gateRefused (s : State) (x : Str) : Bool :=
  let st := s.sceState x
  st = 0 || decide (5 ≤ st) || s.rd .HARP_STAT_INSVC == 0 || (s.str.get x).svd.servoGate || (s.str.get x).rch.gate.isSome || !s.isSet .RCHx_STAT_PLL_LOCK x.ix

/-- Rung 7 has PDMODE written to 1 before the open of its retry, and to 0 after it (R230). -/
def State.pdMode (s : State) (x : Str) (a : Armed) (v : Nat) : State :=
  s.when (a.request.source == .ladder && (s.str.get x).ladders.any fun l => l.id == a.request.tag && l.rung == 7) fun s =>
    s.shadowWr .RCHx_CTRL_PDMODE v x.ix

/-- READ_GATE_OPEN (R152, R153, R160, R162, R169, R173, R178, R301): the sector armed first is at its start. Its S fields, SAVE,
RESTORE and the pending updates take effect whether or not the gate then opens. -/
def State.readGateOpen (s : State) (x : Str) : State :=
  match (s.seq x .rsq).armed with
  | [] => s
  | a :: rest =>
    let s := s.modSeq x .rsq fun q => { q with armed := rest }
    let s := s.pdMode x a 1
    let s := ((((s.rchBoundary x).captureMode x).refreshRate x).tapActions x a).pdMode x a 0
    let s := s.when (!s.rateInRange x) fun s => s.flag .RCHx_STAT_RATE_HI x.ix
    if s.gateRefused x then (s.adaptOpen x false 8).rsqNotReady x
    else
      let old := s.activeSet x
      let (ok, s) := s.nameSet x a.set
      let s := s.adaptOpen x (old != s.activeSet x) 8
      if !ok then s.rsqNotReady x
      else if !s.rateInRange x then (s.flag .RCHx_STAT_RATE_HI x.ix).rsqNotReady x
      else
        let c := (s.str.get x).rch
        let free := freeSlots c.slots
        if c.capMode || (s.shadowOf .RCHx_CTRL_CAPTURE x.ix).isSome then s.sbufFull x
        else if free.length ≤ s.eff .RCHx_CTRL_SLOT_RSV x.ix then s.sbufFull x
        else if !(if a.request.source == .bce then s.cellFree x else s.pageFree x) then
          (((s.modSeq x .rsq fun q => { q with brgFull := true }).flag .BRG_STAT_RSLIP).bump .BRG_RSLIP_COUNT x.num)
        else s.openGate x a (free.headD 0)

/-! ### Sync search (R185, R186) -/

/-- The comparisons of a sync search, one per hard decision: offset from the expected end of the mark and the last 48 decisions. -/
def comparisons (start : Int) (before : Nat) : List Bool → List (Int × Nat)
  | [] => []
  | b :: rest =>
    let w := (2 * before + boolNat b) % 2 ^ 48
    (start, w) :: comparisons (start + 1) w rest

/-- Comparisons of a sync search that lie in the window and have at most `tol` mismatches of the `len` bits of the pattern:
offset and mismatches, in order (R185). -/
def syncMatches (pat len tol win : Nat) (bits : List (Int × Nat)) : List (Int × Nat) :=
  bits.filterMap fun (o, w) =>
    let wrong := countOnes ((w ^^^ pat) % 2 ^ len) len
    if o.natAbs ≤ win && wrong ≤ tol then some (o, wrong) else none

/-- SYNC_MARK_LATCH: the first match in the window latches the capture alignment; the next one is kept as the alternative (R185). For
the second fragment it resumes recording (R186). -/
def State.syncLatch (s : State) (x : Str) (bits : List (Int × Nat)) : State :=
  match (s.str.get x).rch.gate with
  | none => s
  | some i =>
    match (s.str.get x).rch.slots.getD i none with
    | none => s
    | some c =>
      if c.fragment then
        match syncMatches (s.rd .SFMx_FSYNC_FSYNC_PAT x.ix) 16 (s.eff .SFMx_FSYNC_FSYNC_TOL x.ix) (s.eff .SFMx_FSYNC_FSYNC_WIN x.ix) bits with
        | [] => s
        | (_, m) :: _ => s.modSlot x i fun c => { c with mism2 := m, fragment := false, paused := false }
      else if c.mism1 != 7 then s
      else
        let pat := s.rd .SFMx_SYNC1_SYNC_HI x.ix * 2 ^ 32 + s.rd .SFMx_SYNC0_SYNC_LO x.ix
        match syncMatches pat 48 (s.eff .SFMx_SYNC1_SYNC_TOL x.ix) (s.eff .SFMx_SYNC1_SYNC_WIN x.ix) bits with
        | [] => s
        | (o, m) :: later =>
          let s := s.modSlot x i fun c => { c with align := o, mism1 := m, alt := later.head?.map (·.1) }
          let s := s.when (!later.isEmpty) fun s => s.flag .SFMx_STAT_SYNC_ALT x.ix
          (s.wr .SFMx_LAST_OFFS (ofSigned 8 o) x.ix).wr .SFMx_LAST_MISM m x.ix

/-- SYNC_WINDOW_CLOSE without a match (R186): the expected alignment is used; a missed mark counts as 7 (R187). -/
def State.syncClose (s : State) (x : Str) : State :=
  match (s.str.get x).rch.gate with
  | none => s
  | some i =>
    match (s.str.get x).rch.slots.getD i none with
    | none => s
    | some c =>
      if c.fragment then
        (s.modSlot x i fun c => { c with mism2 := 7, fragment := false, paused := false }).flag .SFMx_STAT_FSYNC_MISS x.ix
      else if c.mism1 = 7 then
        (((s.modSlot x i fun c => { c with align := 0 }).flag .SFMx_STAT_SYNC_MISS x.ix).bump .SFMx_CNT_SYNC_MISS x.ix).wr
          .SFMx_LAST_MISM 7 x.ix
      else s

/-! ### End of a recording -/

/-- The three-entry value of a reader. -/
def reader3 (r : Reg) (g1 g2 : Reg) : Nat → Reg
  | 0 => r
  | 1 => g1
  | _ => g2

/-- Preamble peaks, and VGA codes and DC offsets as their loops leave them (R159); a reader at code 255 whose peak is below 1/8 of
full scale sets its RDR_LOW (R173). Full scale is 64 ADC LSB. -/
def State.readerLevels (s : State) (x : Str) (snap : List Nat) (adc : List (List Int)) : State :=
  let d := (s.rd .RCHx_ADAPT_AGC_MU_A x.ix, s.rd .RCHx_ADAPT_AGC_MU_T x.ix)
  (List.range 3).foldl (fun s r =>
    let xs := adc.getD r []
    let gain := reader3 .RCHx_GAIN_G0 .RCHx_GAIN_G1 .RCHx_GAIN_G2 r
    let amp := preamblePeak xs
    let s := s.wr (reader3 .RCHx_AMP_A0 .RCHx_AMP_A1 .RCHx_AMP_A2 r) amp x.ix
    let s := s.when (s.isSet .RCHx_CTRL_AGC_EN x.ix && inMask snap r) fun s =>
      s.wr gain (agcAfter d.1 d.2 (setField snap 5 5 0) (s.rd gain x.ix) xs) x.ix
    let s := s.when (s.isSet .RCHx_CTRL_DC_EN x.ix && inMask snap r) fun s =>
      s.modRch x fun c => { c with dc := c.dc.set r (dcAfter (c.dc.getD r 0) xs) }
    s.when (s.rd gain x.ix == 255 && decide (amp < 8) && inMask snap r) fun s => s.flagBit .RCHx_STAT_RDR_LOW r x.ix) s

/-- Codeword bit 0 of a slot in its recording, before the alignment: the window opens SYNC_WIN bit-times before the mark is expected
(R185). -/
def State.slotOrigin (s : State) (x : Str) : Int := (s.eff .SFMx_SYNC1_SYNC_WIN x.ix : Int) + 48

/-- Place of codeword bit `j` in a slot's recording under a slip of `shift`: of a split sector it moves the fragment with more
mismatches, the first when they are equal (R186, R187). -/
def slotPlace (origin : Int) (c : Slot) (shift : Int) (j : Nat) : Nat :=
  let moved : Bool := match c.action.sector.split with
    | none => true
    | some k => if c.mism1 < c.mism2 then decide (k ≤ j) else decide (j < k)
  (origin + c.align + j + (if moved then shift else 0)).toNat

/-- Bits by the peak detector, and how many peaks PD_ALT discarded: the level before the first is the last bit of the sync mark
(R170, R171). -/
def State.peakBits (s : State) (x : Str) (c : Slot) (first : Nat) (xs : List Int) : List Bool × Nat :=
  let r := setField c.snap 0 19 18
  let (ps, dropped) := dataPeaks xs (s.rd .RCHx_PD_PD_TH x.ix) (c.amps.getD r 0) (s.isSet .RCHx_PD_PD_ALT x.ix)
  (nrzBits ps (s.rd .SFMx_SYNC0_SYNC_LO x.ix % 2 == 1) first (xs.length - first), dropped)

/-- What a pass over slot `i` gives Harp for the 37,120 codeword bits, and how many peaks PD_ALT discarded: hard decisions of the
peak detector, or the extrinsic LLRs of the detector under the slot's snapshot (R163, R165, R166, R171). -/
def State.slotInput (s : State) (x : Str) (i : Nat) (c : Slot) (shift : Int) (hard : Bool) (la : List Int) : List Int × Nat :=
  let n := 37440
  let adc := s.slotSamples x i n
  let place := slotPlace (s.slotOrigin x) c shift
  if hard then
    let first := place 0
    let (bits, dropped) := s.peakBits x c first (adc.getD (setField c.snap 0 19 18) [])
    (hardLlrs ((List.range 37120).map fun j => bits.getD (place j - first) false), dropped)
  else
    let ys := (List.range n).map fun k => (equalised c.snap adc k).1
    let prior := (List.range n).map fun k => if place 0 ≤ k then la.getD (k - place 0) 0 else 0
    let (le, _) := detect c.snap c.scale ys prior
    ((List.range 37120).map fun j => le.getD (place j) 0, 0)

/-- CAPTURE_END (R154, R157, R159 to R161, R167): the recording ends in the sample buffer; the loops take the gate's samples; MSE is
shown and judged, a saturation of the equaliser counting as a divergence; and the sector's update enters the pending queue unless
the queue was full at the open, adaptation is stopped or its loop is off. -/
def State.captureEnd (s : State) (x : Str) (signal : List (List Int)) : State :=
  match (s.str.get x).rch.gate with
  | none => s
  | some i =>
    match (s.str.get x).rch.slots.getD i none with
    | none => s
    | some c =>
      let dc := (s.str.get x).rch.dc
      let adc := (List.range 3).map fun r => if inMask c.snap r then (signal.getD r []).map fun v => adcSample v (dc.getD r 0) else []
      let len := (adc.map List.length).foldl max 0
      let start := 128 - s.eff .SFMx_SYNC1_SYNC_WIN x.ix
      let s := s.putSamples x (slotBase x i) (min 37440 (len - start)) (adc.map fun xs => xs.drop start)
      let amps := adc.map preamblePeak
      let s := s.modSlot x i fun c => { c with recording := false, paused := false, adapted := true, amps }
      let s := (s.modRch x fun c => { c with gate := none }).modSeq x .rsq fun q =>
        { q with done := min 2 (q.done + 1), progress := q.progress + 1 }
      let out := (List.range len).map (equalised c.snap adc)
      let ys := out.map (·.1)
      let bits := (detect c.snap c.scale ys []).2
      let mse := sectorMse c.snap ys bits
      let s := (s.wr .RCHx_MSE_LAST (min 4095 mse) x.ix).readerLevels x c.snap adc
      let s := s.when (s.isSet .RCHx_CTRL_TIM_EN x.ix) fun s => s.modRch x fun v =>
        let (ph, fr) := timingAfter (s.rd .RCHx_ADAPT_TIM_KA x.ix) (s.rd .RCHx_ADAPT_TIM_KT x.ix) v.phase v.freq ys bits
        { v with phase := ph, freq := fr }
      let fir := s.isSet .RCHx_CTRL_FIR_EN x.ix
      let np := s.isSet .RCHx_CTRL_NP_EN x.ix
      let s := s.when ((fir || np) && !s.isSet .RCHx_STAT_EQ_DIV x.ix && !c.adaptFull) fun s =>
        (s.modRch x fun v =>
          { v with adapt := v.adapt ++ [{ slot := i, set := s.activeSet x
                                          taps := if fir then tapUpdates c.snap adc ys bits (s.rd .RCHx_ADAPT_FIR_MU x.ix) else []
                                          preds := if np then predictorUpdates c.snap ys bits (s.rd .RCHx_ADAPT_NP_MU x.ix) else []
                                          verdict := none }] }).rchRefresh x
      let high := if s.rd .RCHx_DIV_MSE_DIV x.ix < mse then (s.str.get x).rch.highMse + 1 else 0
      let s := s.modRch x fun c => { c with highMse := high }
      s.when (out.any (·.2) || decide (s.eff .RCHx_DIV_DIV_N x.ix ≤ high)) fun s => s.diverge x

/-- Harp's verdict on the sector of slot `i` reaches its adaptation entry (R160). -/
def State.adaptVerdict (s : State) (x : Str) (i : Nat) (ok : Bool) : State :=
  s.modRch x fun c => { c with adapt := c.adapt.map fun e =>
    if e.slot = i && e.verdict.isNone then { e with verdict := some ok } else e }

/-- SAVE or RESTORE waits for the next read-gate open; written in the same cycle, RESTORE stands alone (R162). -/
def State.tapsPosted (s : State) (x : Str) (save : Bool) : State :=
  s.modRch x fun c =>
    let now := c.taps.filter fun e => e.2 == s.timebase
    if save then (if now.any fun e => !e.1 then c else { c with taps := c.taps ++ [(true, s.timebase)] })
    else { c with taps := c.taps.filter (fun e => !(e.1 && e.2 == s.timebase)) ++ [(false, s.timebase)] }

/-- A calibration recording: CAP_LEN × 1,024 samples of each reader of CAP_MASK, packed like a slot's, cut at the end of the 960 KiB
(R175, log entry 56). -/
def State.calCapture (s : State) (x : Str) (samples : List (List Int)) : State :=
  s.when (s.isSet .RCHx_STAT_CAP_BUSY x.ix) fun s =>
    let n := min (s.rd .RCHx_CAPCTL_CAP_LEN x.ix * 1024) (983040 * 8 / 21)
    let mask := s.rd .RCHx_CAPCTL_CAP_MASK x.ix
    (s.putSamples x (sampleBase x) n ((List.range 3).map fun r => if mask.testBit r then samples.getD r [] else [])).unflag .RCHx_STAT_CAP_BUSY x.ix

/-! ### Meanings -/

def execReadGateOpen (x : Str) (s : State) : Host.Outcome State Fault Refusal :=
  .next (s.onStr x fun s => s.readGateOpen x)

/-- PLL_LOCK (R153): newly enabled readers have powered up. -/
def execPllLock (x : Str) (s : State) : Host.Outcome State Fault Refusal :=
  .next (s.onStr x fun s => ((s.flag .RCHx_STAT_PLL_LOCK x.ix).refreshRate x).readersFollow x true)

def execSyncMarkLatch (x : Str) (start : Int) (before : Nat) (bits : List Bool) (s : State) : Host.Outcome State Fault Refusal :=
  .next (s.onStr x fun s => s.syncLatch x (comparisons start before bits))

def execSyncWindowClose (x : Str) (s : State) : Host.Outcome State Fault Refusal :=
  .next (s.onStr x fun s => s.syncClose x)

def execCaptureEnd (x : Str) (r0 r1 r2 : List Int) (first second : Nat) (s : State) : Host.Outcome State Fault Refusal :=
  .next (s.onStr x fun s => s.captureEnd x ([r0, r1, r2].map fun r => r.take (first + second)))

def execSave (x : Str) (s : State) : Host.Outcome State Fault Refusal := .next (s.onStr x fun s => s.tapsPosted x true)

def execRestore (x : Str) (s : State) : Host.Outcome State Fault Refusal := .next (s.onStr x fun s => s.tapsPosted x false)

def execChannelSetWrite (x : Str) (n w v : Nat) (s : State) : Host.Outcome State Fault Refusal :=
  .next (s.onStr x fun s => s.channelSetWrite x n w v)

/-- CAP_GO records only with CAPTURE in force; CAP_BUSY is set until the recording ends (R175). -/
def execCapGo (x : Str) (s : State) : Host.Outcome State Fault Refusal :=
  .next (s.onStr x fun s => s.when (s.str.get x).rch.capMode fun s => s.flag .RCHx_STAT_CAP_BUSY x.ix)

def execCalCaptureEnd (cap : CalCapture) (s : State) : Host.Outcome State Fault Refusal :=
  .next (s.onStr cap.x fun s => s.calCapture cap.x cap.samples)

end Sys2Proof.Machine
end

