-- ==== Sys2Proof/Machine/Requests.lean ====
section
/-! DEFINITION. Machine/Requests.lean: what the media manager does with a String's queues: requests and targets posted
(R26, R30), writes withdrawn (R144, R216, R302, R447), assist aborted (R143). -/
namespace Sys2Proof.Machine

/-- CBUF, STKD, QUEUED and the mailbox registers follow the sequencer. -/
def State.sqRefresh (s : State) (x : Str) (q : SeqId) : State :=
  let u := s.seq x q
  let s := ((s.wr .SQ_STAT_CBUF u.commit.length (q.ix x)).wr .SQ_STAT_STKD u.stack.length (q.ix x)).wr .SQ_REQ_QUEUED
    (min 32 u.queue.length) (q.ix x)
  match u.mailbox with
  | [] => s.unflag .SQ_MBOX_VALID (q.ix x)
  | (c, v) :: _ => ((s.flag .SQ_MBOX_VALID (q.ix x)).wr .SQ_MBOX_CODE c (q.ix x)).wr .SQ_MBOXD_DATA v (q.ix x)

/-! ### Requests and targets that the media manager posts (R26, R30) -/

/-- A write to TRACK and HEAD, or to OFFS, is held in the shadow until a SAM (R26, R112). -/
def State.postTarget (s : State) (x : Str) (target offs : Option Nat) : State :=
  let s := match target with
    | none => s
    | some v => (s.shadowWr .SCEx_TARGET_TRACK (v % 2 ^ 24) x.ix).shadowWr .SCEx_TARGET_HEAD (v / 2 ^ 24 % 8) x.ix
  let s := match offs with
    | none => s
    | some v => s.shadowWr .SCEx_TOFFS_OFFS v x.ix
  s.flag .SCEx_TGT_SHADOW_PEND x.ix

/-- The media manager posts the target of the request the String is to serve next: the head of the RSQ's queue, or of
the WSQ's while the RSQ has none, if it is not posted already (log entry 16). -/
def State.steer (s : State) (x : Str) : State :=
  match (s.seq x .rsq).queue.head? <|> (s.seq x .wsq).queue.head? with
  | none => s
  | some r =>
    let offs := ofSigned 16 r.offs
    if s.coming .SCEx_TARGET_TRACK x.ix = r.track && s.coming .SCEx_TARGET_HEAD x.ix = r.head
        && s.coming .SCEx_TOFFS_OFFS x.ix = offs then s
    else s.postTarget x (some (r.track + r.head * 2 ^ 24)) (some offs)

/-- Requests that wait go into a queue of at most 32 (R375). -/
def State.feed (s : State) (x : Str) (q : SeqId) : State :=
  let s := s.modSeq x q fun u =>
    let n := 32 - u.queue.length
    { u with queue := u.queue ++ u.returned.take n, returned := u.returned.drop n }
  (s.sqRefresh x q).steer x

/-- The media manager posts a request. The codewords of a copy or a rewrite pass unchanged, without the Cabinet: they
stand in write cells at once, a BCE copy in the one it took at its read (R299, R316). -/
def State.postRequest (s : State) (x : Str) (q : SeqId) (r : Request) : State :=
  let own := (r.places.filter fun p => p.word.isSome).map (·.p)
  let copy := q == .wsq && r.source != .host
  let s := s.when copy fun s => s.modWrp x fun w => { w with cells := w.cells ++ own.map fun p => (r.id, p) }
  let s := s.when (copy && r.source != .bce) fun s =>
    s.wr .BRG_USE_CELLS (s.rd .BRG_USE_CELLS x.num + own.length) x.num
  (s.modSeq x q fun u => { u with returned := u.returned ++ [r] }).feed x q

/-- Data sectors of a WSQ request neither on the media nor with their write gate open. -/
def State.unwritten (s : State) (x : Str) (r : Request) : List Place :=
  let done := if (s.seq x .wsq).queue.head?.map (·.id) = some r.id then (s.seq x .wsq).progress else 0
  let going (p : Place) : Bool := (s.str.get x).wrp.open'.any fun a => a.request.id == r.id && (a.request.places[a.offset]?).any (·.p == p.p)
  (r.places.drop done).filter fun p => p.word.isSome && !going p

/-- The WSQ requests that satisfy `p` are withdrawn: their starts and cells with them; a sector in progress completes.
The WSQ is interrupted (R365). -/
def State.withdrawWrites (s : State) (x : Str) (p : Request → Bool) : State :=
  let u := s.seq x .wsq
  let gone := (u.queue ++ u.returned).filter p
  if gone.isEmpty then s
  else
    let ids := gone.map (·.id)
    let w := (s.str.get x).wrp
    let cells := ((w.cells ++ w.fifo ++ w.retrying.toList).filter fun e => ids.contains e.1).length
    let s := gone.foldl (fun s r => s.withdrawPlaces r (s.unwritten x r)) s
    let headGone := u.queue.head?.any fun r => ids.contains r.id
    let s := s.modSeq x .wsq fun u =>
      { u with queue := u.queue.filter fun r => !(ids.contains r.id)
               returned := u.returned.filter fun r => !(ids.contains r.id)
               armed := u.armed.filter fun a => !(ids.contains a.request.id)
               progress := if headGone then 0 else u.progress }
    let s := s.modWrp x fun w =>
      { w with cells := w.cells.filter fun e => !(ids.contains e.1)
               fifo := w.fifo.filter fun e => !(ids.contains e.1)
               retrying := w.retrying.filter fun e => !(ids.contains e.1) }
    ((s.giveCells x cells).feed x .wsq).seqIrq x .wsq 0

/-- The pending writes of a head are withdrawn (R144, R447). -/
def State.withdrawHead (s : State) (x : Str) (h : Nat) : State := s.withdrawWrites x fun r => r.head == h

/-- Sectors of a head written since assist slot `slot` are written again, at their positions and with their generations (R144). -/
def State.rewriteSince (s : State) (x : Str) (head slot : Nat) : State :=
  (s.str.get x).wrp.recent.foldl (fun s (n, a) =>
    match a.request.places[a.offset]? with
    | some pl =>
      if slot ≤ n && a.request.head == head then
        let (id, s) := s.newRequestId
        s.postRequest x .wsq { a.request with
          id, source := .verify, tag := 0
          places := [{ pl with word := s.onMedia x (mediaKey head a.request.track pl.sector) }] }
      else s
    | none => s) s

/-- The AE enters ABORTED (R143, R145): AEx_ABORT, ASSIST_ABORT, the event, the head's writes withdrawn, and those since slot
`slot` written again (R144). -/
def State.assistAbort (s : State) (x : Str) (wedge slot head cause : Nat) : State :=
  let s := ((s.wr .AEx_ABORT_WEDGE wedge x.ix).wr .AEx_ABORT_HEAD head x.ix).wr .AEx_ABORT_CAUSE cause x.ix
  let s := (s.flag .AEx_STAT_ASSIST_ABORT x.ix).wr .AEx_STAT_STATE 4 x.ix
  ((s.logEvent 0x000A 1 x.bit [x.num, head, wedge, cause]).withdrawHead x head).rewriteSince x head slot

/-- Bit of a domain in PWR_DOMSTAT or PWR_DOMREQ. -/
def State.domainBit (s : State) (r : Reg) (d : Nat) : Bool := s.bit r (d % 32) (d / 32)

/-- A String has been declared lost. -/
def State.isLost (s : State) (x : Str) : Bool := s.bit .PWR_STRLOST_LOST x.num

end Sys2Proof.Machine
end

