-- ==== Sys2Proof/Machine/Chest.lean ====
section
/-! DEFINITION. Machine/Chest.lean: the Chest's write governor and endurance counters (R310 to R312), its journal
(R308), and the places of its tables (R303). Rows are 64 bytes, numbered from offset 0. -/
namespace Sys2Proof.Machine

/-! ### Places (R303) -/

/-- Row of zone or unit record `r`. -/
def recordRow (r : Nat) : Nat := r % 327680 / 4

/-- Row of key slot `k`'s generation counter. -/
def counterRow (k : Nat) : Nat := 0x780000 / 64 + k % 256 / 8

/-- Row of key slot `k`'s record (R319). -/
def slotRow (k : Nat) : Nat := 0x780800 / 64 + k % 256 * 2

/-- Row of device state beside the key slots: namespace table, reservations, stream armings, strikes (log entry 23). -/
def deviceRow (k : Nat) : Nat := 0x78C000 / 64 + k % 3328

/-- Row of the media tables for extent `k`: band allocation, skip lists, spare maps, schedules (log entry 23). -/
def mediaTableRow (k : Nat) : Nat := 0x7C0000 / 64 + k % 16384

/-- Rows of accumulator slot `k`: 4,640 bytes from 0x50_0000. -/
def accRows (k : Nat) : List Nat :=
  let first := (0x500000 + k % 512 * 4640) / 64
  (List.range ((0x500000 + k % 512 * 4640 + 4639) / 64 + 1 - first)).map (first + ·)

/-- Row of a journal record. -/
def journalRow (seq : Nat) : Nat := 0x8C0000 / 64 + seq % 16384

/-- Row `k` of the write-buffer log. -/
def logRow (k : Nat) : Nat := 0x9C0000 / 64 + k % 102400

/-- Group of a row (R310). -/
def rowGroup (row : Nat) : Nat := (row % 64) ^^^ (row / 64 % 64) ^^^ (row / 4096 % 64)

/-! ### Endurance (R310, R312) -/

/-- Requester row writes of a group. -/
def State.groupWrites (s : State) (g : Nat) : Nat := s.rd .CHST_GWRLO_G g + s.rd .CHST_GWRHI_G g * 2 ^ 32

/-- Wear of a group with `n` requester row writes. -/
def wear (n : Nat) : Nat := n * 65 / 262144 + 262208

/-- A requester row write of group `g` is counted; LIFE and its flags follow. -/
def State.countRow (s : State) (g : Nat) : State :=
  let n := s.groupWrites g + 1
  let s := (s.wr .CHST_GWRLO_G (n % 2 ^ 32) g).wr .CHST_GWRHI_G (n / 2 ^ 32) g
  let t := s.rd .CHST_TOTLO_ROWS + s.rd .CHST_TOTHI_ROWS * 2 ^ 32 + 1
  let s := (s.wr .CHST_TOTLO_ROWS (t % 2 ^ 32)).wr .CHST_TOTHI_ROWS (t / 2 ^ 32)
  let s := s.when (decide (wear (s.groupWrites (s.rd .CHST_LIFE_GROUP)) ≤ wear n)) fun s =>
    (s.wr .CHST_LIFE_GROUP g).wr .CHST_LIFE_LIFE (min 16383 (wear n / 10 ^ 7))
  let life := s.rd .CHST_LIFE_LIFE
  let s := s.when (decide (9000 ≤ life)) fun s => s.flag .CHST_STAT_LIFE_WARN
  let s := s.when (decide (10000 ≤ life)) fun s => s.flag .CHST_STAT_LIFE_END
  s.modBridge fun b => { b with gapCount := b.gapCount.modify g (· + 1) }

/-! ### The governor (R311) -/

/-- Depth of the global bucket. -/
def State.globalDepth (s : State) : Nat := atLeast1 (s.rd .CHST_GOV_GOV_BURST) * 65536

/-- Depth of a group's bucket. -/
def State.groupDepth (s : State) : Nat := atLeast1 (s.rd .CHST_GOV_GOV_GBURST) * 1024

/-- The buckets fill for `us` microseconds. -/
def State.fillBuckets (s : State) (us : Nat) : State :=
  let global := min s.globalDepth (s.rd .CHST_TOKENS_GLOBAL + atLeast1 (s.rd .CHST_GOV_GOV_RATE) * 1048576 * us / 10 ^ 6)
  let add := atLeast1 (s.rd .CHST_GOV_GOV_GRATE) * 65536 * us / 10 ^ 6
  let depth := s.groupDepth
  (s.wr .CHST_TOKENS_GLOBAL global).modBridge fun b => { b with groupTokens := b.groupTokens.map fun t => min depth (t + add) }

/-- The next waiting row write: the lowest class, the oldest within it. A table row does not pass the journal record
it follows, which is of a lower class. -/
def nextRow (q : List RowWrite) : Option RowWrite := [1, 2, 3, 4].findSome? fun c => q.find? fun w => w.cls == c

/-- A row write takes its tokens and is made; a table row retires its journal record (R308). -/
def State.makeRow (s : State) (w : RowWrite) : State :=
  let g := rowGroup w.row
  let s := (s.wr .CHST_TOKENS_GLOBAL (s.rd .CHST_TOKENS_GLOBAL - 1)).modBridge fun b =>
    { b with groupTokens := b.groupTokens.modify g (· - 1) }
  let s := s.when w.retires fun s => s.wr .CHST_JRNL_LIVE (s.rd .CHST_JRNL_LIVE - 1)
  s.countRow g

/-- Tokens are there for a row; after the power-loss event the buckets stop limiting (R311). -/
def State.rowTokens (s : State) (w : RowWrite) : Bool :=
  s.power.loss.isSome || decide (0 < s.rd .CHST_TOKENS_GLOBAL) && decide (0 < s.bridge.groupTokens.getD (rowGroup w.row) 0)

/-- Waiting row writes proceed in class order while tokens are there. -/
def State.governRows (s : State) : Nat → State
  | 0 => s
  | n + 1 =>
    match nextRow s.bridge.rowsWaiting with
    | none => s.unflag .CHST_STAT_GOV_ACT
    | some w =>
      if s.rowTokens w then
        ((s.modBridge fun b => { b with rowsWaiting := b.rowsWaiting.erase w }).makeRow w).governRows n
      else s.flag .CHST_STAT_GOV_ACT

/-- A row write is requested. -/
def State.chestRow (s : State) (cls row : Nat) (retires : Bool := false) : State :=
  let w : RowWrite := { cls, row, retires }
  if s.bridge.rowsWaiting.isEmpty && s.rowTokens w then s.makeRow w
  else (s.modBridge fun b => { b with rowsWaiting := b.rowsWaiting ++ [w] }).governRows (s.bridge.rowsWaiting.length + 1)

/-- CHEST_WRITE_GRANT (R311): the buckets have filled for `us` microseconds since the last time, and what waits
proceeds. -/
def State.chestGrant (s : State) (us : Nat) : State := (s.fillBuckets us).governRows (s.bridge.rowsWaiting.length + 1)

/-! ### The journal (R308) -/

/-- A journal record for a change of a table row, and the row in place. -/
def State.journalNow (s : State) (row : Nat) : State :=
  let seq := s.bridge.journalSeq
  let s := (s.modBridge fun b => { b with journalSeq := seq + 1 }).wr .CHST_JRNL_LIVE (s.rd .CHST_JRNL_LIVE + 1)
  (s.chestRow 1 (journalRow seq)).chestRow 2 row true

/-- A change of the records, slots, device state or media tables is journalled; with 16,384 records live it waits. -/
def State.journal (s : State) (row : Nat) : State :=
  if 16384 ≤ s.rd .CHST_JRNL_LIVE then
    (s.flag .CHST_STAT_JRNL_WAIT).modBridge fun b => { b with journalWait := b.journalWait ++ [row] }
  else s.journalNow row

/-- JOURNAL_RESUME (R308): changes that wait proceed as far as the ring has room. -/
def State.journalResume (s : State) : Nat → State
  | 0 => s
  | n + 1 =>
    match s.bridge.journalWait with
    | [] => s
    | row :: rest =>
      if 16384 ≤ s.rd .CHST_JRNL_LIVE then s
      else ((s.modBridge fun b => { b with journalWait := rest }).journalNow row).journalResume n

/-- WEAR_GAP_MOVE (R310): after 64 row writes of a group its gap moves by one of its 4,097 rows, by a row write that
no requester made. -/
def State.gapMove (s : State) (g : Nat) : State :=
  if 64 ≤ s.bridge.gapCount.getD g 0 then
    s.modBridge fun b =>
      { b with gapCount := b.gapCount.modify g (· - 64), gapPlace := b.gapPlace.modify g fun p => (p + 1) % 4097 }
  else s

/-! ### Meanings -/

def execJournalResume (s : State) : Host.Outcome State Fault Refusal :=
  .next (s.journalResume (s.bridge.journalWait.length))

def execChestWriteGrant (us : Nat) (s : State) : Host.Outcome State Fault Refusal := .next (s.chestGrant us)

def execWearGapMove (group : Nat) (s : State) : Host.Outcome State Fault Refusal := .next (s.gapMove (group % 64))

end Sys2Proof.Machine
end

