-- ==== Sys2Proof/Machine/Commands.lean ====
section
/-! DEFINITION. Machine/Commands.lean: the commands an HQE holds and the outcome of their blocks (R43, R235), records
and the media positions of their sectors (R204, R205, R209), and the requests the media manager builds from them. -/
namespace Sys2Proof.Machine

/-! ### Commands -/

/-- The command with this FSEQ. -/
def State.findCmd (s : State) (f : Nat) : Option Cmd := s.host.cmds.find? fun c => c.fseq == f

/-- The command with this FSEQ changed by `g`. -/
def State.modCmd (s : State) (f : Nat) (g : Cmd → Cmd) : State :=
  s.modHost fun h => { h with cmds := h.cmds.map fun c => if c.fseq == f then g c else c }

/-- A block of a command set to an outcome. -/
def Cmd.setBlock (c : Cmd) (lba : Nat) (b : BlockState) : Cmd :=
  { c with blocks := c.blocks.map fun e => if e.1 = lba then (lba, b) else e }

/-- What became of a block so far. -/
def Cmd.block (c : Cmd) (lba : Nat) : Option BlockState := (c.blocks.find? fun e => e.1 == lba).map (·.2)

/-- A block that has an outcome. -/
def BlockState.ended : BlockState → Bool
  | .done | .failed _ => true
  | _ => false

/-- The failure of a block, if it failed. -/
def BlockState.failure : BlockState → Option NvStatus
  | .failed st => some st
  | _ => none

/-- The status of a command from its blocks: that of the failed block with the lowest LBA (R235). -/
def Cmd.outcome (c : Cmd) : NvStatus :=
  let bad := c.blocks.filterMap fun e => e.2.failure.map fun st => (e.1, st)
  match bad with
  | [] => .success
  | b :: rest => (rest.foldl (fun m e => if e.1 < m.1 then e else m) b).2

/-- A command whose every block has an outcome is ready to complete (R43, R235). -/
def Cmd.settled (c : Cmd) : Cmd :=
  if c.ready.isNone && c.started && !c.blocks.isEmpty && c.blocks.all (fun e => e.2.ended) && c.owed.isEmpty then
    { c with ready := some (c.outcome, 0, 0) }
  else c

/-- A command is ready with a status. -/
def State.finish (s : State) (f : Nat) (st : NvStatus) (dw0 : Nat := 0) (dw1 : Nat := 0) : State :=
  s.modCmd f fun c => { c with started := true, ready := some (st, dw0, dw1), owed := [] }

/-- The namespace of an NSID. -/
def State.ns (s : State) (nsid : Nat) : Option Namespace := s.host.namespaces.find? fun n => n.nsid == nsid

/-- A namespace changed by `f`. -/
def State.modNs (s : State) (nsid : Nat) (f : Namespace → Namespace) : State :=
  s.modHost fun h => { h with namespaces := h.namespaces.map fun n => if n.nsid == nsid then f n else n }

/-- Payloads a capsule spans, from its CSA on (R340, R341). -/
def Capsule.payloads (c : Capsule) : Nat := (16 * (c.offset + c.footprint) + 4095) / 4096

/-- The payload at `csa` holds part of the capsule. -/
def Capsule.spans (c : Capsule) (csa : Nat) : Bool := decide (c.csa ≤ csa) && decide (csa < c.csa + c.payloads)

/-- The capsule that a read with FSEQ `f` takes a block from: that of the newest write before it. -/
def Namespace.capsuleFor (n : Namespace) (f l : Nat) : Option Capsule :=
  (n.capsules.filter fun k => decide (k.fseq < f) && decide (k.lba ≤ l) && decide (l < k.lba + k.blocks)).foldl
    (fun (m : Option Capsule) k =>
      match m with
      | none => some k
      | some o => if o.fseq < k.fseq then some k else m) none

/-- Blocks of a command that a media sector serves: the sector's LBA, or the blocks read from the media whose capsule its
payload holds part of (R341). -/
def State.servedBlocks (s : State) (c : Cmd) (lba : Nat) : List Nat :=
  match s.ns c.nsid with
  | none => [lba]
  | some n =>
    if n.compressed then
      c.posted.filter fun l => (n.capsuleFor c.fseq l).any fun k => k.spans lba
    else [lba]

/-- An LBA enters the Error Information log of its command's first failed LBA, and the integrity-error count of the
command (R235); `vendor` is 1 for an authentication failure (R325). -/
def State.logUnrecovered (s : State) (c : Cmd) (lba vendor : Nat) : State :=
  s.modHost fun h =>
    match h.errorLog.find? fun e => e.1 == c.fseq with
    | none => { h with errorLog := ((c.fseq, c.nsid, lba, vendor) :: h.errorLog).take 64, integrityErrors := h.integrityErrors + 1 }
    | some _ =>
      { h with errorLog := h.errorLog.map fun e => if e.1 == c.fseq && decide (lba < e.2.2.1) then (c.fseq, c.nsid, lba, vendor) else e }

/-- A media sector of a command has failed: its blocks take the outcome (R235). -/
def State.failSector (s : State) (f lba : Nat) (st : NvStatus) (vendor : Nat) : State :=
  match s.findCmd f with
  | none => s
  | some c =>
    let hit := (s.servedBlocks c lba).filter fun l => ((c.block l).map (!·.ended)).getD false
    let s := if st == .unrecoveredRead then hit.foldl (fun s l => s.logUnrecovered c l vendor) s else s
    s.modCmd f fun c => (hit.foldl (fun c l => c.setBlock l (.failed st)) c).settled

/-- The data of a block reaches a command: a read holds it until the host transfer, a Compare compares it, a Verify is
satisfied (R253, R271). `page` names the String whose read page holds it. -/
def Cmd.receive (c : Cmd) (lba data : Nat) (page : Option Str) : Cmd :=
  match c.op with
  | .compare first blocks =>
    (c.setBlock lba (if blocks[lba - first]? = some data then .done else .failed .compareFailure)).settled
  | .verify .. => (c.setBlock lba .done).settled
  | _ => { c.setBlock lba .held with data := (lba, data, page) :: c.data.filter fun e => e.1 != lba }

/-- A read page of a String is returned (R299). -/
def State.givePage (s : State) (page : Option Str) : State :=
  match page with
  | none => s
  | some x => s.wr .BRG_USE_PAGES (s.rd .BRG_USE_PAGES x.num - 1) x.num

/-- A block arrives for a command. A block that already has its outcome takes none; a page that holds nothing for the
host is returned. -/
def State.receiveBlock (s : State) (f lba data : Nat) (page : Option Str) : State :=
  match s.findCmd f with
  | none => s.givePage page
  | some c =>
    if ((c.block lba).map (!·.ended)).getD false then
      let d := c.receive lba data page
      let s := s.modCmd f fun _ => d
      if d.block lba = some .held then s else s.givePage page
    else s.givePage page

/-- The Volatile Write Cache feature (06h) of a controller is disabled. -/
def State.vwcOff (s : State) (k : Nat) : Bool := !((s.host.controllers[k]?).any fun c => ((storeFind c.features 0x06).getD 0).testBit 0)

/-! ### Records and positions -/

/-- The record of zone `index` of a namespace, by its place. -/
def State.recordOf (s : State) (nsid index : Nat) : Option Nat :=
  s.host.records.findIdx? fun r => r.nsid == nsid && r.index == index

/-- What is known of a band or unit. -/
def State.bandInfo (s : State) (x : Str) (band : Nat) : BandInfo :=
  (s.host.bands.find? fun b => b.str == x && b.band == band).getD
    { str := x, band, skips := [], pendingSkips := [], waitingSkips := [], retired := false }

/-- A position joined to a skip list, in rising order. -/
def insertSkip (p : Nat) : List Nat → List Nat
  | [] => [p]
  | k :: t => if p < k then p :: k :: t else if p = k then k :: t else k :: insertSkip p t

/-- A band's pending skip requests are applied (R224): one whose list would need a 33rd position is retired, if its zone can
leave for another band; else the requests beyond wait. -/
def BandInfo.apply (b : BandInfo) (mayLeave : Bool) : BandInfo :=
  let all := b.pendingSkips.foldl (fun l e => insertSkip e.1 l) b.skips
  if all.length ≤ 32 then { b with skips := all, pendingSkips := [] }
  else if mayLeave then { b with pendingSkips := [], retired := true }
  else
    let (now, later) := b.pendingSkips.splitAt (32 - b.skips.length)
    { b with skips := now.foldl (fun l e => insertSkip e.1 l) b.skips, pendingSkips := later }

/-- Entries of the skip-list pool in use (R304). -/
def State.skipsHeld (s : State) : Nat := (s.host.bands.map fun b => b.skips.length + b.pendingSkips.length).sum

/-- Entries of the spare-map pool in use (R304), those of spares posted and not yet mapped among them. -/
def State.sparesHeld (s : State) : Nat :=
  let posted (x : Str) : Nat :=
    let u := s.seq x .wsq
    (((u.queue ++ u.returned).filter fun q => q.zone.any fun z =>
      (s.host.records[z]?).any fun r => ((s.extent x r.band).map (·.cmr)).getD false).map fun q =>
        (q.places.filter fun p => decide (131072 ≤ p.p)).length).sum
  (s.host.records.map fun r => r.spares.length).sum + (Str.all.map posted).sum

/-- A band's information replaced. -/
def State.setBandInfo (s : State) (b : BandInfo) : State :=
  s.modHost fun h => { h with bands := b :: h.bands.filter fun e => !(e.str == b.str && e.band == b.band) }

/-- Skip requests for a band (R224): each takes an entry of the pool, or waits for one (R304). -/
def State.requestSkips (s : State) (x : Str) (band : Nat) (ps : List (Nat × Nat)) : State :=
  let info := s.bandInfo x band
  let known (p : Nat) : Bool := info.skips.contains p || (info.pendingSkips ++ info.waitingSkips).any fun e => e.1 == p
  let (now, later) := (info.waitingSkips ++ ps.filter fun e => !known e.1).splitAt (65536 - s.skipsHeld)
  s.setBandInfo { info with pendingSkips := info.pendingSkips ++ now, waitingSkips := later }

/-- A band is to be written from its start, by a Reset or by cleaning: its positions on the pending list join the skip requests
(R239), and these are applied (R224). -/
def State.rewriteBand (s : State) (x : Str) (band : Nat) (mayLeave : Bool) : State :=
  match s.extent x band with
  | none => s
  | some e =>
    let mine (key : Nat) : Bool := e.holds (key / 2 ^ 36) (key / 4096 % 2 ^ 24)
    let failed := (s.str.get x).pendingList.filter mine
    let s := s.modStr x fun t => { t with pendingList := t.pendingList.filter fun k => !mine k }
    let s := s.requestSkips x band (failed.map fun k =>
      (e.posOf (s.format x).shdir (k / 4096 % 2 ^ 24) (k % 4096), s.rd .SB_RTC_SEC))
    s.setBandInfo ((s.bandInfo x band).apply mayLeave)

/-- Where a physical index of a band lies (R204): its extent, its track, its sector. -/
def State.positionOf (s : State) (x : Str) (band p : Nat) : Option (Extent × Nat × Nat) :=
  (s.extent x band).map fun e =>
    let (track, sector) := e.at' (s.format x).shdir (skipTo (s.bandInfo x band).skips p)
    (e, track, sector)

/-- Extent `band` of a String is a CMR unit. -/
def State.isUnit (s : State) (x : Str) (band : Nat) : Bool := ((s.extent x band).map (·.cmr)).getD false

/-- Physical index of data sector z of a record: units have no parity, and a mapped sector lies in its spare
(R204, R238). -/
def State.indexOf (s : State) (r : Record) (z : Nat) : Nat :=
  if s.isUnit r.str r.band then
    match r.spares.find? fun e => e.1 == z with
    | some (_, k) => 131072 + k
    | none => z
  else dataIndex z

/-- The record belongs to a Zoned namespace. -/
def State.isZone (s : State) (r : Record) : Bool := (s.ns r.nsid).any fun n => n.kind == .zoned

/-- Places of a band grouped by track, in the order given. -/
def groupByTrack (ps : List (Extent × Nat × Place)) : List (Extent × Nat × List Place) :=
  ps.foldl (fun acc e =>
    match acc.getLast? with
    | some (x, t, l) => if x.head == e.1.head && t == e.2.1 then acc.dropLast ++ [(x, t, l ++ [e.2.2])] else acc ++ [(e.1, e.2.1, [e.2.2])]
    | none => [(e.1, e.2.1, [e.2.2])]) []

/-- The media manager posts requests for positions of a band: one request for each track (R26, R30). -/
def State.postPlaces (s : State) (x : Str) (q : SeqId) (source : ReqSource) (tag : Nat) (zone : Option Nat)
    (stream slipOk : Bool) (offs : Int) (band : Nat) (ps : List (Nat × Nat × Option Codeword)) : State :=
  let located := ps.filterMap fun (p, lba, word) =>
    (s.positionOf x band p).map fun (e, track, sector) => (e, track, ({ sector, p, lba, word } : Place))
  (groupByTrack located).foldl (fun s (e, track, places) =>
    let (id, s) := s.newRequestId
    s.postRequest x q
      { id, type := if q == .wsq then 1 else 0, track, head := e.head, set := e.set, slipOk, stream, places, source, tag
        zone, offs }) s

/-- The data sectors of a record by LBA: z and the LBA of each. For a Zoned namespace the LBA of data sector z of zone n
is 131,072 n + z. -/
def Record.lbaOf (r : Record) (z : Nat) : Nat := r.index * 131072 + z

/-! ### Write-lost blocks (R416) -/

/-- The list of write-lost ranges replaced. -/
def State.setLost (s : State) (l : List (Nat × Nat × Nat)) : State :=
  (s.modHost fun h => { h with writeLost := l }).wr .MI_WLOST_RANGES (min 4096 l.length)

/-- An LBA of a namespace is marked write-lost. -/
def State.isWriteLost (s : State) (nsid lba : Nat) : Bool :=
  s.host.writeLost.any fun e => e.1 == nsid && decide (e.2.1 ≤ lba) && decide (lba < e.2.1 + e.2.2)

/-- The marks of blocks `first` to `first + n - 1` of a namespace are removed: a range loses them. -/
def State.unmark (s : State) (nsid first n : Nat) : State :=
  let cut (e : Nat × Nat × Nat) : List (Nat × Nat × Nat) :=
    let last := e.2.1 + e.2.2
    if e.1 != nsid || first + n ≤ e.2.1 || last ≤ first then [e]
    else
      (if e.2.1 < first then [(nsid, e.2.1, first - e.2.1)] else []) ++
        (if first + n < last then [(nsid, first + n, last - (first + n))] else [])
  s.setLost (s.host.writeLost.flatMap cut)

/-- Of two ranges, the one whose end lies nearer to a block. -/
def nearerRange (lba : Nat) (a b : Nat × Nat × Nat) : Nat × Nat × Nat :=
  let far (e : Nat × Nat × Nat) : Nat := min ((e.2.1 : Int) - lba).natAbs ((e.2.1 + e.2.2 : Int) - 1 - lba).natAbs
  if far b < far a then b else a

/-- A block is marked write-lost. With 4,096 ranges it joins the range of its namespace whose end lies nearest, which grows
to cover it; without a range of its namespace in a full list it joins none (log entry 41). -/
def State.markLost (s : State) (nsid lba : Nat) : State :=
  if s.isWriteLost nsid lba then s
  else
    let l := s.host.writeLost
    let s := s.journal (mediaTableRow (nsid + lba))
    if l.length < 4096 then
      let s := (s.setLost (l ++ [(nsid, lba, 1)])).logEvent 0x000B 2 0 [nsid, lba, 1]
      s.modHost fun h => { h with integrityErrors := h.integrityErrors + 1 }
    else
      match l.filter fun e => e.1 == nsid with
      | [] => s
      | e :: rest =>
        let m := rest.foldl (nearerRange lba) e
        let lo := min lba m.2.1
        let hi := max (lba + 1) (m.2.1 + m.2.2)
        (s.setLost (l.map fun e => if e == m then (nsid, lo, hi - lo) else e)).flag .MI_WLOST_MERGED

end Sys2Proof.Machine
end

