-- ==== Sys2Proof/Machine/Versions.lean ====
section
/-! DEFINITION. Machine/Versions.lean: versions of the Bridge (R295 to R297), the write-buffer log (R306, R307), and
what waits for writes to be safe (R44, R269). -/
namespace Sys2Proof.Machine

/-! ### Versions -/

/-- The version with this FSEQ. -/
def State.findVersion (s : State) (f : Nat) : Option Version := s.bridge.versions.find? fun v => v.fseq == f

/-- The version with this FSEQ changed by `g`. -/
def State.modVersion (s : State) (f : Nat) (g : Version → Version) : State :=
  s.modBridge fun b => { b with versions := b.versions.map fun v => if v.fseq == f then g v else v }

/-- LBAs of a version. -/
def Version.lbas (v : Version) : List Nat := (List.range v.data.length).map (v.lba + ·)

/-- A version covers an LBA of its namespace. -/
def Version.covers (v : Version) (lba : Nat) : Bool := decide (v.lba ≤ lba) && decide (lba < v.lba + v.data.length)

/-- The data of a block. -/
def Version.block (v : Version) (lba : Nat) : Nat := v.data.getD (lba - v.lba) 0

/-- A block has been superseded. -/
def Version.isSuperseded (v : Version) (l : Nat) : Bool := v.superseded.any fun e => e.1 == l

/-- A block superseded by the write or unmapping with FSEQ `g`. -/
def Version.superseding (v : Version) (l g : Nat) : Version :=
  if v.superseded.any fun e => e.1 == l && decide (e.2 ≤ g) then v
  else { v with superseded := (l, g) :: v.superseded.filter fun e => e.1 != l }

/-- Blocks neither superseded nor on media. -/
def Version.open' (v : Version) : List Nat := v.lbas.filter fun l => !(v.isSuperseded l) && !(v.onMedia.contains l)

/-- A READY version with no open block is DRAINED (R295). -/
def Version.drain (v : Version) : Version :=
  if v.state == .ready && v.open'.isEmpty then { v with state := .drained } else v

/-- A version may be dropped (R297). -/
def Version.droppable (v : Version) : Bool :=
  v.pins == 0 && (v.state == .failed || (v.state != .xfer && (v.unlisted || v.open'.isEmpty)))

/-- Block `l` is visible to a read with FSEQ `f`: nothing fetched before the read has superseded it (R271, R295). -/
def Version.visible (v : Version) (l f : Nat) : Bool :=
  decide (v.fseq < f) && v.state != .failed && !v.unlisted && !(v.superseded.any fun e => e.1 == l && decide (e.2 < f))

/-- The newest visible version of a block for a read with FSEQ `f` (R272, R296). -/
def State.newestVersion (s : State) (nsid lba f : Nat) : Option Version :=
  (s.bridge.versions.filter fun v => v.nsid == nsid && v.covers lba && v.visible lba f).foldl
    (fun (m : Option Version) v =>
      match m with
      | none => some v
      | some w => if w.fseq < v.fseq then some v else m) none

/-- Rows of the log in use, from the oldest entry that is not retired. -/
def logUsed (log : List LogEntry) : Nat := (log.map (·.rows)).sum

/-- Space is recovered at the tail; ENTRIES and FREE follow (R307). -/
def State.logRefresh (s : State) : State :=
  let log := s.bridge.log.dropWhile (·.retired)
  let s := s.modBridge fun b => { b with log }
  (s.wr .CHST_WB_ENTRIES (log.filter (!·.retired)).length).wr .CHST_WB_FREE ((102400 - logUsed log) / 16)

/-- The entry of a version is retired: its header row is rewritten with RET = 1 (R307). -/
def State.retireEntry (s : State) (f : Nat) : State :=
  match s.bridge.log.find? fun e => e.fseq == f && !e.retired with
  | none => s
  | some e =>
    let s := s.modBridge fun b => { b with log := b.log.map fun e => if e.fseq == f then { e with retired := true } else e }
    (s.chestRow 3 (logRow e.row)).logRefresh

/-- What a dropped version held goes back: descriptor, pages or entry, payload grant (R297, R299, R343). -/
def State.returnVersion (s : State) (v : Version) : State :=
  let s := s.wr .BRG_DESC_FREE (s.rd .BRG_DESC_FREE + 1)
  let s := s.when (v.grant != 0) fun s => s.modNs v.nsid fun n => { n with granted := n.granted - v.grant }
  match v.queue with
  | .chest => s.retireEntry v.fseq
  | .ordinary => s.wr .BRG_VSTORE_FREE (s.rd .BRG_VSTORE_FREE + v.held)
  | .stream slot =>
    s.modHost fun h => { h with streams := h.streams.map fun t =>
      if t.hqe * 65536 + t.slot == slot then { t with pages := t.pages - v.held } else t }

/-- Every version that may be dropped is dropped (R297). -/
def State.dropVersions (s : State) : State :=
  let gone := s.bridge.versions.filter (·.droppable)
  let s := s.modBridge fun b => { b with versions := b.versions.filter fun v => !v.droppable }
  gone.foldl State.returnVersion s

/-- When a version reaches READY, each older version's blocks that it overlaps are superseded (R297, R298). A version
that is not the newest is itself superseded where a newer one is READY or DRAINED. -/
def State.supersede (s : State) (v : Version) : State :=
  s.modBridge fun b =>
    { b with versions := b.versions.map fun w =>
        if w.nsid != v.nsid || w.fseq == v.fseq || w.state == .failed then w
        else if w.fseq < v.fseq then
          ((w.lbas.filter v.covers).foldl (fun w l => w.superseding l v.fseq) w).drain
        else w }

/-- A version whose blocks that newer READY or DRAINED versions cover are superseded. -/
def State.alreadyNewer (s : State) (v : Version) : Version :=
  let newer := s.bridge.versions.filter fun w => w.nsid == v.nsid && decide (v.fseq < w.fseq) && (w.state == .ready || w.state == .drained)
  newer.foldl (fun v w => (v.lbas.filter w.covers).foldl (fun v l => v.superseding l w.fseq) v) v

/-! ### What waits for writes -/

/-- A write is safe: on media, superseded, failed, or in the Chest (R269). -/
def State.versionSafe (s : State) (f : Nat) : Bool :=
  match s.findVersion f with
  | none => !(s.host.cmds.any fun c => c.fseq == f && c.ready.isNone)
  | some v =>
    v.state == .drained || v.state == .failed || v.unlisted
      || (v.queue == .chest && s.bridge.log.any fun e => e.fseq == f && e.committed)

/-- Writes and Flushes that waited for media complete once nothing is owed to them (R44, R269). -/
def State.settleWaits (s : State) : State :=
  let owed (c : Cmd) : List Nat :=
    match s.findVersion c.fseq with
    | none => []
    | some v => if v.state == .ready then c.owed.filter fun l => v.open'.contains l else if v.state == .drained then [] else c.owed
  let step (c : Cmd) : Cmd :=
    if c.ready.isSome || !c.started then c
    else
      match c.op with
      | .flush =>
        let left := c.waits.filter fun f => !(s.versionSafe f)
        { c with waits := left, ready := if left.isEmpty then some (.success, 0, 0) else none }
      | _ => if c.owed.isEmpty then c else { c with owed := owed c }.settled
  s.modHost fun h => { h with cmds := h.cmds.map step }

/-- Blocks of the versions of a namespace are on media: those of the version with FSEQ `f`. An on-media record closes a
volatile acknowledgement (R308). -/
def State.onMediaBlocks (s : State) (f : Nat) (lbas : List Nat) : State :=
  let s := s.modVersion f fun v =>
    ({ v with onMedia := v.onMedia ++ lbas, issued := v.issued.filter fun l => !(lbas.contains l) }).drain
  let closes := (s.findVersion f).any fun v => v.volatileAck && v.open'.isEmpty
  let s := s.when closes fun s => (s.modVersion f fun v => { v with volatileAck := false }).journal (deviceRow f)
  s.settleWaits.dropVersions

/-- A pin of a read on a version is released (R296). -/
def State.unpin (s : State) (f : Nat) : State := (s.modVersion f fun v => { v with pins := v.pins - 1 }).dropVersions

end Sys2Proof.Machine
end

