-- ==== Sys2Proof/Machine/Copy.lean ====
section
/-! DEFINITION. Machine/Copy.lean: what the BCE does when it cleans a band (R223 to R225): live sectors are read through
the RSQ, passed to the Bridge without decryption and written unchanged through the WSQ. -/
namespace Sys2Proof.Machine

/-- Bands of a String that a record uses or a clean writes to. -/
def State.usedBands (s : State) (x : Str) : List Nat :=
  ((s.host.records.filter fun r => r.str == x && r.nsid != 0).map (·.band)) ++ ((s.host.cleans.filter fun c => c.str == x).map (·.dest))

/-- Extents of a String of one kind that no record uses and that are not retired. -/
def State.freeExtents (s : State) (x : Str) (cmr : Bool) : List Nat :=
  let (u, b) := s.extents x
  let range := if cmr then List.range u.length else (List.range b.length).map (u.length + ·)
  let used := s.usedBands x
  let retired := (s.host.bands.filter fun i => i.str == x && i.retired).map (·.band)
  range.filter fun n => !(used.contains n) && !(retired.contains n)

/-- A list in the order in which a module takes its entries: `pick` chooses the next of those left. -/
def hookOrder (pick : Nat → Nat) : (fuel : Nat) → List Nat → List Nat
  | 0, l => l
  | n + 1, l =>
    match l with
    | [] => []
    | e :: _ => let k := l.getD (pick n % l.length) e; k :: hookOrder pick n (l.erase k)

/-- Free extents in the order in which they are taken: bands as HK_BAND answers, which the manual leaves to the module, else the
lowest first (R381, log entry 70). -/
def State.extentsToTake (s : State) (x : Str) (cmr : Bool) : List Nat :=
  let free := s.freeExtents x cmr
  if !cmr && s.hookAlive 2 then hookOrder (Config.bandHook s.draws) free.length free else free

/-- The live sectors of a record, in the order of their data sectors: z and the LBA in the codeword (R223). Every sector
of a Zoned zone below its media pointer is live; of a Managed zone those the map or a capsule names. -/
def State.liveSectors (s : State) (id : Nat) (r : Record) : List (Nat × Nat) :=
  match s.ns r.nsid with
  | none => []
  | some n =>
    if n.kind == .managed then
      let live (a : Nat) : Bool := !n.compressed || n.capsules.any fun k => !k.live.isEmpty && k.spans a
      (List.range r.mp).filterMap fun z =>
        (n.map.find? fun e => e.2.1 == id && e.2.2 == z && live e.1).map fun e => (z, e.1)
    else (List.range r.mp).map fun z => (z, r.lbaOf z)

/-- The clean of a record. -/
def State.findClean (s : State) (id : Nat) : Option Clean := s.host.cleans.find? fun c => c.record == id

/-- The clean of a record changed by `f`. -/
def State.modClean (s : State) (id : Nat) (f : Clean → Clean) : State :=
  s.modHost fun h => { h with cleans := h.cleans.map fun c => if c.record == id then f c else c }

/-- Data sector at the destination of the k-th live sector: a Zoned zone keeps its positions, a Managed one is packed. -/
def Clean.destZ (c : Clean) (k : Nat) : Nat := if c.managed then k else (c.items.getD k (0, 0)).1

/-- The places of the run of sectors that can be posted next, at most `fuel` of them, and the next sector after them:
after each 64th data sector comes its parity position, which the WSQ writes from the accumulator (R223). -/
def Clean.run (c : Clean) : Nat → Nat → List (Nat × Nat × Option Codeword) × Nat
  | 0, k => ([], k)
  | fuel + 1, k =>
    match c.items[k]? with
    | none => ([], k)
    | some (z, lba) =>
      let dz := c.destZ k
      let tail := if dz % 64 = 63 then [(parityIndex (dz / 64), 0, none)] else []
      match c.got.find? fun e => e.1 == z with
      | some (_, w) =>
        let (rest, next) := c.run fuel (k + 1)
        ((dataIndex dz, lba, some (.data w)) :: tail ++ rest, next)
      | none =>
        if c.unreadable.contains z then
          let (rest, next) := c.run fuel (k + 1)
          (tail ++ rest, next)
        else ([], k)

/-- The last copy is on media: one journal record switches the zone or the Managed extents to the new band; only copies
still current are mapped; the old band's pending skips are applied (R223, R225). -/
def State.bandSwitch (s : State) (id : Nat) (c : Clean) : State :=
  match s.host.records[id]? with
  | none => s
  | some r =>
    let s := s.rewriteBand r.str r.band true
    let place (lba z : Nat) : Option Nat :=
      ((List.range c.items.length).find? fun k => c.items.getD k (0, 0) == (z, lba)).map c.destZ
    let s := s.when c.managed fun s => s.modNs r.nsid fun n =>
      { n with map := n.map.filterMap fun (l, k, z) => if k == id then (place l z).map fun d => (l, k, d) else some (l, k, z) }
    let s := s.modRecord id fun r =>
      { r with band := c.dest, clean := false, acc := c.acc, accValid := true
               mp := if c.managed then c.items.length else r.mp, wp := if c.managed then c.items.length else r.wp }
    (s.modHost fun h => { h with cleans := h.cleans.filter fun e => e.record != id }).journal (recordRow id)

/-- The clean of a record goes on: what can be posted is posted; when everything is on media the switch is made. -/
def State.bceAdvance (s : State) (id : Nat) : State :=
  match s.findClean id with
  | none => s
  | some c =>
    let (places, next) := c.run c.items.length c.next
    let s := s.modClean id fun c => { c with next, posted := c.posted ++ places.map (·.1) }
    let s := if places.isEmpty then s else s.postPlaces c.str .wsq .bce id none false false 0 c.dest places
    if c.items.length ≤ next && places.isEmpty && c.posted.isEmpty then s.bandSwitch id c else s

/-- A codeword read for the clean of a record arrives in the Bridge. -/
def State.bceDeliver (s : State) (id lba : Nat) (w : Content) : State :=
  let done (c : Clean) : Clean :=
    match c.items.find? fun e => e.2 == lba with
    | none => c
    | some (z, _) => { c with left := c.left.erase z, got := c.got ++ [(z, w)] }
  (s.modClean id done).bceAdvance id

/-- A sector read for a clean has failed its ladder: its LBA will be unreadable (R225). -/
def State.bceFail (s : State) (id lba : Nat) : State :=
  let done (c : Clean) : Clean :=
    match c.items.find? fun e => e.2 == lba with
    | none => c
    | some (z, _) => { c with left := c.left.erase z, unreadable := c.unreadable ++ [z] }
  (s.modClean id done).bceAdvance id

/-- Requests of the RSQ that satisfy `p` are withdrawn. -/
def State.withdrawReads (s : State) (x : Str) (p : Request → Bool) : State :=
  let u := s.seq x .rsq
  let headGone := u.queue.head?.any p
  let s := s.modSeq x .rsq fun u =>
    { u with queue := u.queue.filter fun r => !p r
             returned := u.returned.filter fun r => !p r
             armed := u.armed.filter fun a => !p a.request
             progress := if headGone then 0 else u.progress }
  s.feed x .rsq

/-- The clean of a record is abandoned; its destination is free again (R225). -/
def State.abandonClean (s : State) (id : Nat) : State :=
  match s.findClean id with
  | none => s
  | some c =>
    let mine (r : Request) : Bool := r.source == .bce && r.tag == id
    let s := (s.withdrawReads c.str mine).withdrawWrites c.str mine
    let s := s.modRecord id fun r => { r with clean := false }
    s.modHost fun h => { h with cleans := h.cleans.filter fun e => e.record != id }

/-- A clean of a record's band starts: a free band of the same String is its destination and every live sector is read
(R223). With no free band nothing starts. -/
def State.startClean (s : State) (id : Nat) : State :=
  match s.host.records[id]? with
  | none => s
  | some r =>
    match s.extentsToTake r.str false with
    | [] => s
    | dest :: _ =>
      if r.clean || s.isUnit r.str r.band || s.isLost r.str then s
      else
        let items := s.liveSectors id r
        let managed := ((s.ns r.nsid).map fun n => n.kind == .managed).getD false
        let c : Clean :=
          { record := id, managed, str := r.str, dest, items, left := items.map (·.1), got := [], unreadable := [], next := 0
            posted := [], acc := [] }
        let s := (s.drawn.modRecord id fun r => { r with clean := true }).modHost fun h => { h with cleans := h.cleans ++ [c] }
        let s := s.rewriteBand r.str dest false
        let s := s.postPlaces r.str .rsq .bce id (some id) false true 0 r.band
          (items.map fun (z, lba) => (s.indexOf r z, lba, none))
        s.bceAdvance id

/-- A band's pending skip requests. -/
def State.pendingSkips (s : State) (r : Record) : List (Nat × Nat) := (s.bandInfo r.str r.band).pendingSkips

/-- BAND_CLEAN_START (R223): a Managed internal zone that the media manager cleans, or a band with 8 pending skips. -/
def State.bandCleanStart (s : State) (id : Nat) : State :=
  match s.host.records[id]? with
  | none => s
  | some r =>
    let managed := ((s.ns r.nsid).map fun n => n.kind == .managed).getD false
    if managed || 8 ≤ (s.pendingSkips r).length then s.startClean id else s

/-- SKIP_AGE_TIMEOUT (R223): a Full or Closed zone of a Zoned namespace with a skip request more than 24 hours old. -/
def State.skipAge (s : State) (id : Nat) : State :=
  match s.host.records[id]? with
  | none => s
  | some r =>
    let zoned := ((s.ns r.nsid).map fun n => n.kind == .zoned).getD false
    let old := (s.pendingSkips r).any fun e => decide (e.2 + 86400 < s.rd .SB_RTC_SEC)
    if zoned && (r.state == .full || r.state == .closed) && old then s.startClean id else s

/-! ### Meanings -/

def execBandCleanStart (record : Nat) (s : State) : Host.Outcome State Fault Refusal := .next (s.bandCleanStart record)

def execSkipAgeTimeout (record : Nat) (s : State) : Host.Outcome State Fault Refusal := .next (s.skipAge record)

end Sys2Proof.Machine
end

