-- ==== Sys2Proof/Machine/Streams.lean ====
section
/-! DEFINITION. Machine/Streams.lean: the frame of Capo's ratio (R57), and stream queues: admission (R278 to R280),
deadlines (R284 to R286), withdrawal and re-admission (R287, R288). -/
namespace Sys2Proof.Machine

/-- M, N and FDIV (R57). -/
def State.capoM (s : State) : Nat := s.rd .CAPO_RATIO_M1 + 1
def State.capoN (s : State) : Nat := s.rd .CAPO_RATIO_N1 + 1
def State.capoFdiv (s : State) : Nat := s.rd .CAPO_FRAME_FDIV1 + 1

/-- Wedges per frame, W = 480 × M × FDIV / N, if it is an integer (R57). -/
def wedgesPerFrame (m n fdiv : Nat) : Option Nat :=
  if 480 * m * fdiv % n = 0 then some (480 * m * fdiv / n) else none

/-- W of the ratio in force; 0 if it is not an integer. -/
def State.capoW (s : State) : Nat := (wedgesPerFrame s.capoM s.capoN s.capoFdiv).getD 0

/-! ### Admission arithmetic -/

/-- Strings of a mask. -/
def maskStrs (mask : Nat) : List Str := Str.all.filter fun x => mask.testBit x.num

/-- The share of a stream on each of its Strings (R279). -/
def Stream.share (t : Stream) : Nat := let k := (maskStrs t.mask).length; if k = 0 then 0 else (t.bpf + k - 1) / k

/-- G_X of a stream's namespace, numerator and denominator. -/
def State.streamRate (s : State) (nsid : Nat) (x : Str) : Nat × Nat := ((s.ns nsid).map fun n => n.g.get x).getD (0, 1)

/-- Frets that a share of `n` sectors takes at a rate, with the switching allowance (R279). -/
def State.streamFrets (s : State) (g : Nat × Nat) (n : Nat) : Nat :=
  (if g.1 = 0 then 0 else (n * g.2 + g.1 - 1) / g.1) + s.rd .STRM_CFG_SW_FRETS

/-- USED_X over a list of streams. -/
def State.usedFrets (s : State) (ts : List Stream) (x : Str) : Nat :=
  ((ts.filter fun t => t.mask.testBit x.num).map fun t => s.streamFrets (s.streamRate t.nsid x) t.share).sum

/-- AVAIL_X: D_W = (8 − L) / 8 counts for a write stream (R279, R451). -/
def State.availFrets (s : State) (read : Bool) : Nat :=
  if read then s.rd .STRM_CFG_FRAC * s.capoW / 100
  else s.rd .STRM_CFG_FRAC * s.capoW * (8 - min 8 (s.rd .THR_STAT_LEVEL)) / 800

/-- The highest bit rate in force among the bands a namespace holds on a String, Mb/s (R280, R152). -/
def State.topRate (s : State) (nsid : Nat) (x : Str) : Nat :=
  if s.fretPs = 0 then 0
  else
    let sets := (s.host.records.filter fun r => r.nsid == nsid && r.str == x).filterMap fun r => (s.extent x r.band).map (·.set)
    (sets.map fun n => s.chrate x n * 10 ^ 12 / (480 * 120 * s.fretPs)).foldl max 0

/-- Eleven times the sum of R280, Mb/s: the demand is a tenth of it. -/
def State.harpDemand (s : State) (ts : List Stream) : Nat :=
  let reads := ts.filter (·.read)
  11 * (Str.all.map fun x => ((reads.filter fun t => t.mask.testBit x.num).map fun t => s.topRate t.nsid x).foldl max 0).sum

/-- Harp can carry the demand with `lanes` lanes (R280). -/
def State.harpFits (s : State) (ts : List Stream) (lanes : Nat) : Bool := decide (s.harpDemand ts ≤ 16000 * lanes)

/-- Stream space of a list of streams, in pages of 4 KiB (R278). -/
def streamPages (ts : List Stream) : Nat := (ts.map fun t => (t.dlf + 1) * t.bpf).sum

/-- Strings on which a stream does not fit beside others (R279). -/
def State.shortStrs (s : State) (ts : List Stream) (t : Stream) : List Str :=
  (maskStrs t.mask).filter fun x => decide (s.availFrets t.read < s.usedFrets (ts ++ [t]) x)

/-- A mask of Strings. -/
def strMask (xs : List Str) : Nat := (xs.map Str.bit).sum

/-! ### Registers (R290, R291) -/

/-- The registers that follow the armed streams. -/
def State.streamRefresh (s : State) : State :=
  let ts := s.host.streams
  let s := s.wr .STRM_STAT_ARMED ts.length
  let s := (s.wr .STRM_HARP_REQ ((s.harpDemand ts + 999) / 1000)).wr .STRM_HARP_CAP (s.rd .HARP_STAT_AVAIL * 16)
  let s := Str.all.foldl (fun s x =>
    (s.wr .STRM_MED_USED (s.usedFrets ts x) x.num).wr .STRM_MED_STREAMS
      (ts.filter fun t => t.mask.testBit x.num).length x.num) s
  s.wr .BRG_STRM_RSV ((streamPages ts + 255) / 256)

/-- AVAIL_X of a check on the Strings of a mask. -/
def State.recordAvail (s : State) (t : Stream) : State :=
  (maskStrs t.mask).foldl (fun s x => s.wr .STRM_AVL_AVAIL (s.availFrets t.read) x.num) s

/-- Index of slot `m` of controller `k`. -/
def slotIx (k m : Nat) : Nat := k * 65536 + m

/-- A slot's registers for an armed stream, its counts cleared. -/
def State.showSlot (s : State) (t : Stream) : State :=
  let i := slotIx t.hqe t.slot
  let s := ((s.wr .HQEn_STRM_Q_SQID t.sqid i).flag .HQEn_STRM_Q_ARMED i).setTo .HQEn_STRM_Q_DIR t.read i
  let s := ((s.wr .HQEn_STRM_Q_SMASK t.mask i).wr .HQEn_STRM_Q_DLF t.dlf i).wr .HQEn_STRM_BPF_BPF t.bpf i
  ((s.wr .HQEn_STRM_AORD_AORD t.aord i).wr .HQEn_STRM_CNT_MISS 0 i).wr .HQEn_STRM_CNT_SUSP 0 i

/-! ### Release and withdrawal (R288, R289) -/

/-- A command of a queue. -/
def Stream.owns (t : Stream) (c : Cmd) : Bool := c.hqe == t.hqe && c.sqid == t.sqid && c.stream.isSome

/-- The reservation of a stream is released and its slot freed; its outstanding commands lose their deadlines and, when
`wdrn` holds, report WDRN. -/
def State.releaseStream (s : State) (t : Stream) (wdrn : Bool) : State :=
  let s := s.modHost fun h =>
    { h with
      streams := h.streams.filter fun u => !(u.hqe == t.hqe && u.slot == t.slot)
      cmds := h.cmds.map fun c => if t.owns c then { c with stream := none, wdrn := c.wdrn || wdrn } else c
      controllers := h.controllers.modify t.hqe fun k =>
        { k with sqs := k.sqs.map fun q => if q.sqid == t.sqid then { q with stream := none } else q } }
  let i := slotIx t.hqe t.slot
  (s.unflag .HQEn_STRM_Q_ARMED i).streamRefresh.refreshMode

/-- A withdrawal (R288): the reservation is released, the commands report WDRN, the owning controller hears event 02h. -/
def State.withdrawStream (s : State) (t : Stream) (cause : Nat) : State :=
  let s := (s.releaseStream t true).modHost fun h =>
    { h with withdrawn := (t.hqe, t.sqid, true, cause) :: h.withdrawn.filter fun e => !(e.1 == t.hqe && e.2.1 == t.sqid) }
  let s := ((s.flag .STRM_STAT_WDRN).bump .STRM_CNT1_WDRN).logEvent 0x0005 1 t.mask [t.hqe, t.sqid, cause]
  s.vendorEvent 0x02 fun k => k == t.hqe

/-- Streams in arming order. -/
def byAord (ts : List Stream) : List Stream := ts.mergeSort fun a b => decide (a.aord ≤ b.aord)

/-- Admission is re-run on a list of streams in AORD order: each that no longer fits beside the ones kept before it is
withdrawn (R287). -/
def State.rerun (s : State) (kept todo : List Stream) (cause : Nat) : State :=
  match todo with
  | [] => s
  | t :: rest =>
    let s := s.recordAvail t
    if (s.shortStrs kept t).isEmpty && (!t.read || s.harpFits (kept ++ [t]) (s.rd .HARP_STAT_AVAIL)) then
      s.rerun (kept ++ [t]) rest cause
    else (s.withdrawStream t cause).rerun kept rest cause

/-- Streams re-admitted after a lock with a different frame (R287). -/
def State.readmitAll (s : State) : State := s.rerun [] (byAord s.host.streams) 1

/-- A throttle step has lowered write duty (R287, R451): write streams that no longer fit are withdrawn, the newest
first, cause 4. -/
def State.readmitWrites (s : State) : State :=
  (byAord s.host.streams).reverse.foldl (fun s t =>
    let others := s.host.streams.filter fun u => !(u.hqe == t.hqe && u.slot == t.slot)
    let s := s.recordAvail t
    s.when (!t.read && !(s.shortStrs others t).isEmpty) fun s => s.withdrawStream t 4) s

/-- Lanes in service less gated ones (R287). -/
def State.laneFloor (s : State) : Nat :=
  32 - countOnes (s.rd .HARP_RETIRED_LANES ||| s.rd .HARP_GATED_LANES) 32

/-- A lane has retired: read streams are withdrawn newest first until Harp fits, cause 5 (R287). -/
def State.readmitReads (s : State) : State :=
  ((byAord s.host.streams).filter (·.read)).reverse.foldl (fun s t =>
    s.when (!(s.harpFits s.host.streams s.laneFloor)) fun s => s.withdrawStream t 5) s

/-- Streams with a share on a lost String are withdrawn, cause 7 (R287). -/
def State.withdrawLost (s : State) (x : Str) : State :=
  (s.host.streams.filter fun t => t.mask.testBit x.num).foldl (fun s t => s.withdrawStream t 7) s

/-- Every armed stream is withdrawn with a cause. -/
def State.withdrawAll (s : State) (cause : Nat) : State := s.host.streams.foldl (fun s t => s.withdrawStream t cause) s

/-! ### Deadlines (R284, R285) -/

/-- A counted frame edge on one command. -/
def Cmd.frame (c : Cmd) : Cmd :=
  if c.stream.isNone then c
  else if 0 < c.remaining then { c with remaining := c.remaining - 1, isLate := c.isLate || c.remaining == 1 }
  else { c with late := min 255 (c.late + 1) }

/-- A frame edge is counted, and a new frame's shares begin (R282, R284). -/
def State.countFrame (s : State) : State :=
  s.modHost fun h => { h with cmds := h.cmds.map Cmd.frame, streams := h.streams.map fun t => { t with reached := Quad.all 0 } }

/-- Sectors of a stream command reach a String: beyond the share of this frame they are an overdraw (R282). -/
def State.reach (s : State) (c : Cmd) (x : Str) (n : Nat) : State :=
  match s.host.streams.find? fun t => t.hqe == c.hqe && some t.slot == c.stream with
  | none => s
  | some t =>
    let sum := t.reached.get x + n
    let mine (u : Stream) : Bool := u.hqe == t.hqe && u.slot == t.slot
    let s := s.modHost fun h =>
      { h with streams := h.streams.map fun u => if mine u then { u with reached := u.reached.set x sum } else u }
    s.when (decide (t.share < sum)) fun s => s.modCmd c.fseq fun c => { c with ovr := true }

/-- Counts freeze: commands pending are marked suspended (R285). -/
def State.suspendDeadlines (s : State) : State :=
  (s.modHost fun h => { h with cmds := h.cmds.map fun c => if c.stream.isSome then { c with susp := true } else c }).flag
    .STRM_STAT_FROZEN

/-- Counts resume; with a different frame admission is re-run (R287). -/
def State.resumeDeadlines (s : State) (changed : Bool) : State :=
  (s.unflag .STRM_STAT_FROZEN).when changed State.readmitAll

/-- A command was late and never suspended (R286). -/
def Cmd.miss (c : Cmd) : Bool := c.isLate && !c.susp

/-- DW1 [31:16] of a command's completion (R286). -/
def Cmd.report (c : Cmd) : Nat :=
  boolNat c.susp + boolNat c.miss * 2 + boolNat c.wdrn * 4 + boolNat c.ovr * 8 + c.late % 256 * 256

/-- What a completion's report adds to the counters and the event ring (R286). -/
def State.countReport (s : State) (c : Cmd) : State :=
  let i := c.stream.map (slotIx c.hqe)
  let s := s.when c.miss fun s =>
    let s := (s.flag .STRM_STAT_MISS).bump .STRM_CNT0_MISS
    let s := match i with | some i => s.bump .HQEn_STRM_CNT_MISS i | none => s
    s.logEvent 0x0004 1 0 [c.hqe, c.sqid, c.cid, c.late]
  s.when c.susp fun s =>
    let s := s.bump .STRM_CNT0_SUSP
    match i with | some i => s.bump .HQEn_STRM_CNT_SUSP i | none => s

end Sys2Proof.Machine
end

