-- ==== Sys2Proof/Machine/Lost.lean ====
section
/-! DEFINITION. Machine/Lost.lean: what a String's loss does to its zones, commands, reads and domains (R213, R225,
R235, R298, R431). -/
namespace Sys2Proof.Machine

/-! ### Reads of a String that fail -/

/-- Slots of a String with all that is done on them are dropped; the credits of their captures go back. -/
def State.dropSlots (s : State) (x : Str) : State :=
  let c := (s.str.get x).rch
  let held := c.slots.filterMap id
  let s := held.foldl (fun s c => s.giveCredit x c.action.request.source) s
  let stale (p : Option Pass) : Option Pass := p.map fun p => { p with discard := true }
  let idle (j : LaneJob) : LaneJob :=
    match j with
    | .decoding e => if e.x == x then .idle else j
    | .checking e _ _ _ => if e.x == x then .idle else j
    | _ => j
  let s := s.modRch x fun c =>
    { c with slots := List.replicate 10 none, gate := none, adapt := [], passes := [], heldRestarts := []
             pipe1 := stale c.pipe1, pipe2 := stale c.pipe2 }
  let s := { s with harp := { s.harp with
    store := s.harp.store.filter fun e => e.x != x, held := s.harp.held.filter fun e => e.x != x
    lanes := s.harp.lanes.map idle, records := s.harp.records.filter fun e => e.x != x } }
  s.rchRefresh x

/-- Status of a sector of a lost String: Zone Is Offline for a Zoned namespace, else Unrecovered Read (R235). -/
def State.lostStatus (s : State) (f : Nat) : NvStatus :=
  match (s.findCmd f).bind fun c => s.ns c.nsid with
  | some n => if n.kind == .zoned then .zoneIsOffline else .unrecoveredRead
  | none => .unrecoveredRead

/-- A host read of a sector takes an outcome: the one named, or that of a lost String. -/
def State.failLost (s : State) (st : Option NvStatus) (f lba : Nat) : State :=
  s.failSector f lba (st.getD (s.lostStatus f)) 0

/-- The reads of a String end: queued requests, captures and ladders. -/
def State.failReads (s : State) (x : Str) (st : Option NvStatus) : State :=
  let u := s.seq x .rsq
  let reqs := (u.queue ++ u.returned).filter fun r => r.source == .host
  let slots := (s.str.get x).rch.slots.filterMap id |>.filter fun c => c.action.request.source == .host
  let ladders := (s.str.get x).ladders.filter fun l => l.source == .host && !l.detached
  let s := s.modSeq x .rsq fun u => { u with queue := [], returned := [], armed := [], progress := 0 }
  let s := (s.dropSlots x).modStr x fun t => { t with ladders := [] }
  let s := ((s.unflag .RLDx_STAT_ACTIVE x.ix).unflag .RLDx_STAT_WAITQ x.ix).sqRefresh x .rsq
  let s := reqs.foldl (fun s r => r.places.foldl (fun s p => s.failLost st r.tag p.lba) s) s
  let s := slots.foldl (fun s c => s.failLost st c.action.request.tag (((c.action.request.places[c.action.offset]?).map (·.lba)).getD 0)) s
  ladders.foldl (fun s l => s.failLost st l.command l.place.lba) s

/-! ### A lost String (R431) -/

/-- The zones of a record go Offline, their pending writes and cleaning discarded (R213): the versions that hold blocks
of them fail, and the commands they serve end in Internal Error; packed payloads for them are lost (R349). -/
def State.zonesOffline (s : State) (x : Str) : State :=
  let gone := s.host.records.filter fun r => r.str == x && r.state != .offline
  let there (id : Nat) : Bool := (s.host.records[id]?).any fun r => r.str == x
  let managed (nsid : Nat) : Bool := (s.ns nsid).any fun n => n.kind == .managed
  let ends := (s.phv.packed.filter fun q => there q.record).flatMap fun q => q.ends.map (·.1)
  let stricken (f nsid lba : Nat) : Bool :=
    ends.contains f || (!managed nsid && gone.any fun r => r.nsid = nsid && r.index = lba / 131072)
  let failed := (s.bridge.versions.filter fun v => stricken v.fseq v.nsid v.lba).map (·.fseq)
  let s := { s with phv := { s.phv with
    packed := s.phv.packed.filter fun q => !there q.record, positions := s.phv.positions.filter fun q => !there q.1 } }
  let s := (s.withdrawWrites x fun _ => true).failReads x none
  let fail (v : Version) : Version := if stricken v.fseq v.nsid v.lba then { v with state := .failed, issued := [] } else v
  let s := s.modBridge fun b => { b with versions := b.versions.map fail }
  let lost (c : Cmd) : Cmd :=
    if failed.contains c.fseq && c.ready.isNone then { c with ready := some (.internalError, 0, 0), owed := [] } else c
  s.modHost fun h =>
    { h with
      records := h.records.map fun r => if r.str == x then { r with state := .offline } else r
      cleans := h.cleans.filter fun c => c.str != x
      changedZones := h.changedZones ++ (gone.filter fun r => h.namespaces.any fun n => n.nsid == r.nsid && n.kind == .zoned).map
        fun r => (r.nsid, r.index)
      cmds := h.cmds.map lost }

/-- The ten domains of String `x` are switched off (R433). -/
def State.stringDomainsOff (s : State) (x : Str) : State :=
  (List.range 10).foldl (fun s k =>
    let d := 10 * x.num + k
    (s.unflagBit .PWR_DOMREQ_ON (d % 32) (d / 32)).unflagBit .PWR_DOMSTAT_ON (d % 32) (d / 32)) s

/-- A lost String with its heads parked: its zones go Offline and its domains off (R431). -/
def State.finishLost (s : State) (x : Str) : State :=
  s.when (s.isLost x && !s.loaded x) fun s => (s.zonesOffline x).stringDomainsOff x

/-- The Bureau declares a String lost, in the Chest too: it is retracted if it is loaded (R431), streams with a share on
it are withdrawn (R287), and PWR_STAT.DEGR shows STRING (R428). -/
def State.stringLost (s : State) (x : Str) : State :=
  let s := ((s.flagBit .PWR_STRLOST_LOST x.num).setDegr 0 true).journal (deviceRow 1)
  ((s.withdrawLost x).requestRetract x .command).finishLost x

end Sys2Proof.Machine
end

