-- ==== Sys2Proof/Machine/Flow.lean ====
section
/-! DEFINITION. Machine/Flow.lean: control stores and the paths that microcode can take from an entry or a vector (R356, R373,
R374). -/
namespace Sys2Proof.Machine

/-- The microword at an address of a sequencer's control store; unlisted words read 0. -/
def State.controlWord (s : State) (x : Str) (q : SeqId) (a : Nat) : Nat :=
  (storeFind s.control ((x.num * 3 + q.num) * 4096 + a)).getD 0

/-- Address of the 32 bytes of a control-store word (R38, R355). -/
def controlAddr (x : Str) (q : SeqId) (a : Nat) : Nat := 0xF100000000 + x.num * 0x1000000 + q.num * 0x20000 + 32 * a

/-- A control-store word cannot be given: one of its 64-bit words is poisoned or uncorrectable (R410, R415). -/
def State.controlBad (s : State) (x : Str) (q : SeqId) (a : Nat) : Bool :=
  (List.range 3).any fun k => s.memory.poisoned.contains (controlAddr x q a + 8 * k) || s.codeStatus (controlAddr x q a + 8 * k) == 2

/-- Control-store words written whole: their poison and raw check bits go (R410). -/
def State.controlWritten (s : State) (x : Str) (q : SeqId) (as : List Nat) : State :=
  let other (w : Nat) : Bool := !as.any fun a => decide (controlAddr x q a ≤ w) && decide (w < controlAddr x q a + 32)
  s.modMemory fun y => { y with check := y.check.filter fun e => other e.1, poisoned := y.poisoned.filter other }

/-- A page of the control store is live. -/
def State.pageLive (s : State) (x : Str) (q : SeqId) (a : Nat) : Bool :=
  (s.rd .SQ_LIVE_PAGES (q.ix x (a / 64 / 32))).testBit (a / 64 % 32)

/-- SQ_ENTRY of a request type. -/
def State.seqEntry (s : State) (x : Str) (q : SeqId) (type : Nat) : Nat :=
  s.rd (if type % 2 = 0 then .SQ_ENTRY_EVEN else .SQ_ENTRY_ODD) (q.ix x (type / 2 % 4))

/-! ### Paths -/

/-- A place on a path: the word, the micro-stack, top first (an address that a register gives is not known), and the
visible-state writes met before it. -/
structure FlowPoint where
  pc : Nat
  stack : List (Option Nat)
  writes : Nat
deriving DecidableEq, Repr

/-- What is reached from a list of points: each is expanded once. `fuel` bounds the points taken. -/
def explore (next : FlowPoint → List FlowPoint) : (fuel : Nat) → (todo seen : List FlowPoint) → List FlowPoint
  | 0, _, seen => seen
  | _ + 1, [], seen => seen
  | n + 1, p :: todo, seen => if seen.contains p then explore next n todo seen else explore next n (next p ++ todo) (p :: seen)

/-- Points enough to take every one of them. -/
def flowFuel (code : List (Nat × Nat)) : Nat := 64 * (18 * code.length + 64) * (2 * code.length + 16) ^ 4 * 20

/-- STK of a word pushes. -/
def pushes (w : Nat) : Bool := let k := bitsOf w 26 24; 1 ≤ k && k ≤ 3

/-- The micro-stack after STK (R356); a pop of an empty stack is a fault, and the path ends. -/
def stackAfter (w pc : Nat) (st : List (Option Nat)) : Option (List (Option Nat)) :=
  match bitsOf w 26 24 with
  | 1 => some (some (pc + 1) :: st)
  | 2 => some (some (bitsOf w 107 96) :: st)
  | 3 => some (none :: st)
  | 4 | 5 => match st with | [] => none | _ :: t => some t
  | 6 => some []
  | _ => some st

/-- Where a word goes on: its address and stack. -/
def flowTargets (w pc : Nat) (st : List (Option Nat)) : List (Nat × List (Option Nat)) :=
  let next := bitsOf w 11 0
  let pop : List (Nat × List (Option Nat)) := match st with | some a :: t => [(a, t)] | _ => []
  match bitsOf w 15 12 with
  | 0 | 3 => [(pc + 1, st)]
  | 1 | 4 => [(next, st)]
  | 2 | 8 => [(next, st), (pc + 1, st)]
  | 5 => pop
  | 6 => (pc + 1, st) :: pop
  | 7 => (List.range 16).map fun k => (next + k, st)
  | _ => []

/-- Visible-state writes of a word (R358). -/
def wordWrites (w : Nat) : Nat :=
  boolNat (decide (2 ≤ bitsOf w 75 73) && decide (bitsOf w 75 73 ≤ 3)) + boolNat (decide (1 ≤ bitsOf w 78 76) && decide (bitsOf w 78 76 ≤ 4))

/-- The points after a point, in an image whose words are `code`. A fourth nested push ends the path. -/
def flowNext (code : List (Nat × Nat)) (p : FlowPoint) : List FlowPoint :=
  match storeFind code p.pc with
  | none => []
  | some w =>
    if pushes w && 3 ≤ p.stack.length then []
    else
      match stackAfter w p.pc p.stack with
      | none => []
      | some st => (flowTargets w p.pc st).map fun e => { pc := e.1, stack := e.2, writes := p.writes }

/-- Everything that addresses reach. -/
def reached (code : List (Nat × Nat)) (starts : List Nat) : List FlowPoint :=
  explore (flowNext code) (flowFuel code) (starts.map fun pc => { pc, stack := [], writes := 0 }) []

/-! ### Live pages -/

/-- The words of a sequencer's live pages. -/
def State.liveCode (s : State) (x : Str) (q : SeqId) : List (Nat × Nat) :=
  ((List.range 4096).filter fun a => s.pageLive x q a).map fun a => (a, s.controlWord x q a)

/-- SQ_LIVE0 and SQ_LIVE1 set to a list of pages. -/
def State.setLive (s : State) (x : Str) (q : SeqId) (pages : List Nat) : State :=
  [0, 1].foldl (fun s w =>
    s.wr .SQ_LIVE_PAGES (((List.range 32).filter fun k => pages.contains (32 * w + k)).foldl (fun m k => m + 2 ^ k) 0) (q.ix x w)) s

/-- Handlers of a sequencer's interrupt sources (R365): the SSQ has no source 0. -/
def vectors (q : SeqId) (ivec : Nat) : List Nat := match q with | .ssq => [ivec + 1, ivec + 2] | _ => [ivec, ivec + 1, ivec + 2]

/-- After the dispatch that follows a patch, the pages that no entry or vector reaches leave SQ_LIVE (R374). -/
def State.sweepPages (s : State) (x : Str) (q : SeqId) : State :=
  let code := s.liveCode x q
  let starts := (List.range 8).map (s.seqEntry x q) ++ vectors q (s.rd .SQ_IVEC_IVEC (q.ix x))
  let used := (reached code starts).map fun p => p.pc / 64
  let live := (List.range 64).filter fun p => s.pageLive x q (64 * p) && used.contains p
  (s.setLive x q live).modSeq x q fun u => { u with sweep := false }

end Sys2Proof.Machine
end

