-- ==== Sys2Proof/Machine/Sequencer.lean ====
section
/-! DEFINITION. Machine/Sequencer.lean: the formatter sequencers (R352 to R371): conditions, the microword, the channel
port, the commit buffer, routines, interrupts, handlers and faults, and the meanings of their commands. The rows for a
single field (REQ_LOAD, CAPTURE, COMMIT and so on) and MICROWORD_ISSUE call the same operations (log entry 14). -/
namespace Sys2Proof.Machine

/-! ### Status -/

/-- STATE of SQ_STAT: 0 STOPPED, 1 IDLE, 2 RUNNING, 3 FAULT. -/
def State.sqState (s : State) (x : Str) (q : SeqId) : Nat := s.rd .SQ_STAT_STATE (q.ix x)

/-- The routine in progress is committed, or a handler runs (R362, R368). -/
def State.sqCommitted (s : State) (x : Str) (q : SeqId) : Bool :=
  s.isSet .SQ_STAT_COMMITTED (q.ix x) || s.isSet .SQ_STAT_HANDLER (q.ix x)

/-! ### The walker (R352, R360, R361) -/

/-- The sector's start lies in the current Fret at least 80 ns ahead of position `pt`. -/
def State.ahead (s : State) (x : Str) (pos : SectorPos) (pt : Nat) : Bool :=
  pos.wedge == (s.str.get x).svd.dataWedge && decide (pt + s.bitsIn x 80 ≤ pos.start)

/-- The walker is put on sector `k` of the loaded request; SECF is cleared, then set at once if the sector may still be
armed in this Fret (R361). -/
def State.walkTo (s : State) (x : Str) (q : SeqId) (k : Nat) : State :=
  match (s.seq x q).loaded with
  | none => s
  | some r =>
    let pos := s.sectorPos x r.set r.track (((r.places[k]?).map (·.sector)).getD 0)
    let ok := s.ahead x pos (s.seq x q).pt
    s.modSeq x q fun u => { u with walker := { placed := true, offset := k, pos }, secf := ok }

/-- SPLIT: the walker's sector is split by a wedge. -/
def Sequencer.isSplit (u : Sequencer) : Bool := u.walker.placed && u.walker.pos.split.isSome

/-- LAST: the walker is on the request's last sector. -/
def Sequencer.isLast (u : Sequencer) : Bool :=
  match u.loaded with
  | none => false
  | some r => u.walker.placed && decide (r.places.length ≤ u.walker.offset + 1)

/-- G8 to G11 of a request (R360). -/
def requestWords (r : Request) : List Nat :=
  [ r.id % 65536 + r.type % 8 * 2 ^ 16 + boolNat r.slipOk * 2 ^ 19 + boolNat r.stream * 2 ^ 20
  , r.places.length % 65536 + r.set % 128 * 2 ^ 16 + r.head % 8 * 2 ^ 23
  , r.track % 2 ^ 24
  , (r.places.head?.map (·.p)).getD 0 % 2 ^ 18 ]

/-- REQOP LOAD (R360). With the queue empty the registers stay and Z is set. -/
def State.seqLoad (s : State) (x : Str) (q : SeqId) : State :=
  match (s.seq x q).queue with
  | [] => s.modSeq x q fun u => { u with z := true }
  | r :: _ =>
    let s := s.modSeq x q fun u =>
      let g := (List.range 4).foldl (fun g i => g.set (8 + i) ((requestWords r).getD i 0)) u.g
      { u with g, loaded := some r }
    s.walkTo x q 0

/-- TMOP NEXTSEC: the walker moves on, and PM takes its start (R358). -/
def State.seqNextsec (s : State) (x : Str) (q : SeqId) : State :=
  let s := s.walkTo x q ((s.seq x q).walker.offset + 1)
  s.modSeq x q fun u => { u with pm := u.walker.pos.start % 2 ^ 20 }

/-- TMOP REWIND: the walker goes to the first sector not yet captured, or not yet written without a cut; RUNSTOP is
cleared (R358). -/
def State.seqRewind (s : State) (x : Str) (q : SeqId) : State :=
  let s := s.walkTo x q (s.seq x q).progress
  s.modSeq x q fun u => { u with pm := u.walker.pos.start % 2 ^ 20, runStop := false }

/-! ### Visible state (R358, R362) -/

/-- The head request leaves the queue. -/
def State.popRequest (s : State) (x : Str) (q : SeqId) : State :=
  (s.modSeq x q fun u => { u with queue := u.queue.tail, progress := 0 }).feed x q

/-- A visible-state write acts. -/
def State.actVis (s : State) (x : Str) (q : SeqId) (w : VisWrite) : State :=
  match w with
  | .done status =>
    match (s.seq x q).queue with
    | [] => s
    | r :: _ => (s.popRequest x q).emit (.requestDone x q r.id status (s.seq x q).walker.offset)
  | .requeue =>
    match (s.seq x q).queue with
    | [] => s
    | r :: _ =>
      let left := { r with places := r.places.drop (s.seq x q).walker.offset }
      (s.modSeq x q fun u => { u with returned := u.returned ++ [left] }).popRequest x q
  | .out sel v => s.wr .SQ_OUT_VALUE v (q.ix x (sel % 8))
  | .post code v => (s.modSeq x q fun u => { u with mailbox := u.mailbox ++ [(code % 256, v)] }).sqRefresh x q
  | .uflag b => s.flagBit .SQ_UFLAG_FLAGS (b % 32) (q.ix x)
  | .ucnt sel => s.bump .SQ_UCNT_COUNT (q.ix x (sel % 8))

/-- The commit buffer drains in order (R362). -/
def State.drainCommit (s : State) (x : Str) (q : SeqId) : State :=
  let buf := (s.seq x q).commit
  let s := s.modSeq x q fun u => { u with commit := [] }
  (buf.foldl (fun s w => s.actVis x q w) s).sqRefresh x q

/-! ### Abandon, faults (R363, R369, R370) -/

/-- The routine in progress is abandoned (R363). -/
def State.abandon (s : State) (x : Str) (q : SeqId) : State :=
  let s := s.modSeq x q fun u =>
    { u with commit := [], stack := [], g := u.snap.g, c := u.snap.c, pm := u.snap.pm, walker := u.snap.walker
             waiting := false, restart := true }
  ((s.flag .SQ_STAT_ABANDON (q.ix x)).bump .SQ_CNT_ABANDONS (q.ix x)).sqRefresh x q

/-- Armed actions of a sequencer are withdrawn. -/
def State.disarmAll (s : State) (x : Str) (q : SeqId) : State := s.modSeq x q fun u => { u with armed := [] }

/-- A sequencer enters FAULT (R370): the RSQ's captures are aborted, the WSQ's gate is closed and its starts are
withdrawn, the request stays queued, the Bureau is interrupted. The second re-entry within 1 s of an RST loses the
String (R431). -/
def State.enterFault (s : State) (x : Str) (q : SeqId) : State :=
  let s := ((s.wr .SQ_STAT_STATE 3 (q.ix x)).flag .SQ_STAT_FAULT (q.ix x)).modSeq x q fun u => { u with waiting := false }
  let s := (s.unflag .SQ_STAT_HANDLER (q.ix x)).unflag .SQ_STAT_COMMITTED (q.ix x)
  let s := match q with
    | .rsq => (s.disarmAll x .rsq).abortCapture x
    | .wsq => (s.disarmAll x .wsq).cutOpen x
    | .ssq => s
  let s := s.emit (.irq "sequencer fault" (x.num * 3 + q.num))
  let u := s.seq x q
  let again := u.rstTime.any fun t => decide (s.rd .SB_RTC_SEC ≤ t + 1)
  let n := if again then u.rstFaults + 1 else 0
  let s := s.modSeq x q fun u => { u with rstTime := none, rstFaults := n }
  s.when (decide (2 ≤ n)) fun s => s.stringLost x

/-- A fault (R369): an uncommitted routine is abandoned and restarted once; otherwise the sequencer enters FAULT. -/
def State.seqFault (s : State) (x : Str) (q : SeqId) (cause : Nat) : State :=
  let s := s.wr .SQ_STAT_FCAUSE cause (q.ix x)
  if !s.sqCommitted x q && !(s.seq x q).faulted then
    (((s.abandon x q).modSeq x q fun u => { u with faulted := true }).wr .SQ_STAT_STATE 1 (q.ix x))
  else s.enterFault x q

/-- A visible-state write of a word: it acts when committed, and is buffered otherwise; a 17th is CBOVF (R362). -/
def State.visWrite (s : State) (x : Str) (q : SeqId) (w : VisWrite) : State :=
  if s.sqCommitted x q then s.actVis x q w
  else if 16 ≤ (s.seq x q).commit.length then s.seqFault x q 3
  else (s.modSeq x q fun u => { u with commit := u.commit ++ [w] }).sqRefresh x q

/-- Posts of a list of visible-state writes. -/
def postsOf (l : List VisWrite) : Nat := (l.filter fun w => match w with | .post .. => true | _ => false).length

/-- The mailbox has room for the posts in the commit buffer: without it the word that would drain them stalls (R353, log entry
69). -/
def Sequencer.commitFits (u : Sequencer) : Bool := decide (u.mailbox.length + postsOf u.commit ≤ 16)

/-- A word stalls: a POST, or a COMMIT or END with posts to drain, without room in the mailbox (R353). -/
def Sequencer.stalls (u : Sequencer) (w : Nat) : Bool :=
  (bitsOf w 78 76 == 2 && decide (16 ≤ u.mailbox.length)) || ((bitOf w 27 || bitsOf w 15 12 == 9) && !u.commitFits)

/-- A COMMIT word (R362): the routine is committed and the buffer drains. -/
def State.seqCommit (s : State) (x : Str) (q : SeqId) : State :=
  if s.sqCommitted x q || !(s.seq x q).commitFits then s else (s.flag .SQ_STAT_COMMITTED (q.ix x)).drainCommit x q

/-! ### Interrupts, handlers, routine end (R364 to R368) -/

/-- The pending interrupt of highest priority. -/
def Sequencer.pendingIrq (u : Sequencer) : Option Nat := (List.range 3).find? fun n => u.irq.getD n false

/-- Handler of source `n` starts at SQ_IVEC + n, committed (R365, R368). -/
def State.enterHandler (s : State) (x : Str) (q : SeqId) (n : Nat) (fromAbandon : Bool) : State :=
  let s := s.modSeq x q fun u => { u with irq := u.irq.set n false, fromAbandon, waiting := false }
  (((s.flag .SQ_STAT_HANDLER (q.ix x)).flag .SQ_STAT_COMMITTED (q.ix x)).wr .SQ_STAT_PC (s.rd .SQ_IVEC_IVEC (q.ix x) + n)
    (q.ix x)).wr .SQ_STAT_STATE 2 (q.ix x)

/-- SEQ_INTERRUPT (R365): at a word boundary a pending interrupt abandons a routine that is not committed and its
handler runs; a committed routine or a handler keeps it waiting. -/
def State.seqInterrupt (s : State) (x : Str) (q : SeqId) : State :=
  match (s.seq x q).pendingIrq with
  | none => s
  | some n =>
    if s.sqState x q = 2 && !s.sqCommitted x q then (s.abandon x q).enterHandler x q n true else s

/-- The sequencer leaves its routine or handler: STOPPED if STOP waits and the routine has ended, else IDLE (R370). -/
def State.leaveRoutine (s : State) (x : Str) (q : SeqId) (ended : Bool) : State :=
  let stop := ended && (s.seq x q).stopPend
  let s := s.modSeq x q fun u =>
    { u with waiting := false, stopPend := u.stopPend && !stop, restart := u.restart && !ended, faulted := u.faulted && !ended }
  ((s.unflag .SQ_STAT_COMMITTED (q.ix x)).unflag .SQ_STAT_HANDLER (q.ix x)).wr .SQ_STAT_STATE (if stop then 0 else 1) (q.ix x)

/-- END (R362, R364, R368): the routine commits if it has not; a handler entered from an abandon leaves a restart. -/
def State.seqEnd (s : State) (x : Str) (q : SeqId) : State :=
  if s.isSet .SQ_STAT_HANDLER (q.ix x) then s.leaveRoutine x q (!(s.seq x q).fromAbandon)
  else if !(s.seq x q).commitFits then s
  else ((s.drainCommit x q).leaveRoutine x q true)

/-- RESUME (R368). -/
def State.seqResume (s : State) (x : Str) (q : SeqId) : State :=
  if !s.isSet .SQ_STAT_HANDLER (q.ix x) then s.seqFault x q 4
  else if (s.seq x q).fromAbandon then s.leaveRoutine x q false
  else
    (s.unflag .SQ_STAT_HANDLER (q.ix x)).wr .SQ_STAT_PC (s.rd .SQ_RESUME_ADDR (q.ix x)) (q.ix x)

/-- DROP (R368). -/
def State.seqDrop (s : State) (x : Str) (q : SeqId) : State :=
  if !s.isSet .SQ_STAT_HANDLER (q.ix x) then s.seqFault x q 4 else s.leaveRoutine x q true

/-- YIELD of a committed routine with the resolved next address (R367): a pending interrupt is taken and the address is
saved; otherwise the routine goes on there. A handler is never interrupted (R368). -/
def State.seqYield (s : State) (x : Str) (q : SeqId) (next : Nat) : State :=
  if !s.isSet .SQ_STAT_COMMITTED (q.ix x) || s.isSet .SQ_STAT_HANDLER (q.ix x) then s
  else
    match (s.seq x q).pendingIrq with
    | none => s
    | some n => (s.wr .SQ_RESUME_ADDR next (q.ix x)).enterHandler x q n false

/-- Routine entry (R363): the snapshot is taken and the micro-stack emptied. -/
def State.enterRoutine (s : State) (x : Str) (q : SeqId) (entry : Nat) : State :=
  let s := s.modSeq x q fun u =>
    { u with entry, restart := false, stack := [], commit := [], waiting := false
             snap := { g := u.g, c := u.c, pm := u.pm, walker := u.walker } }
  (((s.wr .SQ_STAT_PC entry (q.ix x)).wr .SQ_STAT_STATE 2 (q.ix x)).unflag .SQ_STAT_COMMITTED (q.ix x)).sqRefresh x q

/-- ROUTINE_DISPATCH (R364): an IDLE sequencer takes a pending restart, then pending interrupts, then the head
request. S fields take effect here (R375). -/
def State.seqDispatch (s : State) (x : Str) (q : SeqId) : State :=
  if s.sqState x q != 1 then s
  else
    let s := s.boundary .seq (x.num * 3 + q.num)
    let u := s.seq x q
    let s := s.when (u.sweep && !u.restart) fun s => s.sweepPages x q
    if u.restart then s.enterRoutine x q u.entry
    else match u.pendingIrq with
      | some n => s.enterHandler x q n false
      | none =>
        match u.queue with
        | [] => s
        | r :: _ => s.enterRoutine x q (s.seqEntry x q r.type)

/-! ### The channel port (R359) -/

/-- The walker's sector as an armed action. -/
def Sequencer.action (u : Sequencer) (set : Nat) (slipOk : Bool) : Option Armed :=
  u.loaded.map fun r => { request := r, offset := u.walker.offset, sector := u.walker.pos, set, slipOk, cont := false }

/-- An arming is refused: two actions are armed, or the start is passed or less than 80 ns ahead. A start of another
Fret is ahead (log entry 14). -/
def State.tooLate (s : State) (x : Str) (u : Sequencer) : Bool :=
  decide (2 ≤ u.armed.length)
    || (u.walker.pos.wedge == (s.str.get x).svd.dataWedge && !s.ahead x u.walker.pos u.pt)

/-- CHOP CAPTURE (R359): the refusals of the last one are cleared; the walker's sector is armed, or LATE is set. -/
def State.seqCapture (s : State) (x : Str) (arg : Nat) : State :=
  if !s.sqCommitted x .rsq then s
  else
    let s := s.modSeq x .rsq fun u => { u with notReady := false, sbufFull := false, brgFull := false, late := false }
    let u := s.seq x .rsq
    match u.loaded with
    | none => s
    | some r =>
      if s.tooLate x u then s.modSeq x .rsq fun u => { u with late := true }
      else
        let whole := bitOf arg 11
        let a := u.action (if whole then r.set else bitsOf arg 6 0) (if whole then r.slipOk else bitOf arg 7)
        s.modSeq x .rsq fun u => { u with armed := u.armed ++ a.toList }

/-- CHOP CONT of the RSQ (R359, R173, R186): the recording that the wedge paused resumes at the second fragment; a
CONT travels with its sector while it is still armed. -/
def State.seqContRead (s : State) (x : Str) : State :=
  if !s.sqCommitted x .rsq then s
  else
    match (s.str.get x).rch.gate with
    | some i =>
      let split := ((s.str.get x).rch.slots.getD i none).any fun c => c.action.sector.split.isSome && !c.action.cont
      if split then s.modSlot x i fun c => { c with action := { c.action with cont := true }, fragment := c.paused }
      else s.modSeq x .rsq fun u => { u with armed := u.armed.map fun a => { a with cont := a.sector.split.isSome } }
    | none => s.modSeq x .rsq fun u => { u with armed := u.armed.map fun a => { a with cont := a.sector.split.isSome } }

/-- CHOP CONT of the WSQ: the second fragment of the armed split sector is committed; ignored while RUNSTOP is set. -/
def State.seqContWrite (s : State) (x : Str) : State :=
  if !s.sqCommitted x .wsq || (s.seq x .wsq).runStop then s
  else
    let s := s.modWrp x fun w => { w with open' := w.open'.map fun a => { a with cont := a.sector.split.isSome } }
    s.modSeq x .wsq fun u => { u with armed := u.armed.map fun a => { a with cont := a.sector.split.isSome } }

/-- CHOP CLOSE (R359): the read gate closes now; armed captures are aborted and their slots released. -/
def State.seqClose (s : State) (x : Str) : State :=
  if !s.sqCommitted x .rsq then s
  else
    let s := s.disarmAll x .rsq
    match (s.str.get x).rch.gate with
    | none => s
    | some i =>
      let src := (((s.str.get x).rch.slots.getD i none).map (·.action.request.source)).getD .host
      let s := s.modRch x fun c => { c with gate := none }
      (s.giveCredit x src).releaseSlot x i

/-- CHOP SETSEL (R359, R153): the set becomes active now, without a gate. -/
def State.seqSetsel (s : State) (x : Str) (arg : Nat) : State :=
  if !s.sqCommitted x .rsq then s
  else
    let (ok, s) := s.nameSet x (bitsOf arg 6 0)
    s.when (!ok) fun s => s.rsqNotReady x

/-- CHOP START (R359): the walker's position is committed, or LATE and RUNSTOP are set; ignored while RUNSTOP is set. -/
def State.seqStart (s : State) (x : Str) : State :=
  if !s.sqCommitted x .wsq || (s.seq x .wsq).runStop then s
  else
    let s := s.modSeq x .wsq fun u => { u with late := false }
    let u := s.seq x .wsq
    match u.loaded with
    | none => s
    | some r =>
      if s.tooLate x u then s.modSeq x .wsq fun u => { u with late := true, runStop := true }
      else
        (s.modSeq x .wsq fun u => { u with armed := u.armed ++ (u.action r.set r.slipOk).toList }).flag .WRPx_STAT_RUN x.ix

/-- CHOP WITHDRAW (R359): committed starts not yet reached are withdrawn; a sector in progress completes. -/
def State.seqWithdraw (s : State) (x : Str) : State :=
  if !s.sqCommitted x .wsq then s else s.disarmAll x .wsq

/-- CHOP UEVT of the SSQ (R359): 1 to the RSQ, 2 to the WSQ, 3 to both. -/
def State.seqUevt (s : State) (x : Str) (arg : Nat) : State :=
  if !s.sqCommitted x .ssq then s
  else
    let s := s.when (arg = 1 || arg = 3) fun s => s.modSeq x .rsq fun u => { u with uevt := true }
    s.when (arg = 2 || arg = 3) fun s => s.modSeq x .wsq fun u => { u with uevt := true }

/-! ### Servo events (R354, R361) -/

/-- SAM, and MISSAM, are latched by the three sequencers (R357). -/
def State.seqSam (s : State) (x : Str) (missed : Bool) : State :=
  [SeqId.ssq, .rsq, .wsq].foldl (fun s q => s.modSeq x q fun u => { u with sam := true, missam := u.missam || missed }) s

/-- WBOUND is latched, PT is reset, and SECF is set where the Fret that opens holds the walker's sector (R361, R371). -/
def State.seqWedge (s : State) (x : Str) : State :=
  let w := (s.str.get x).svd.dataWedge
  [SeqId.ssq, .rsq, .wsq].foldl (fun s q => s.modSeq x q fun u =>
    { u with wbound := true, secf := u.secf || (u.walker.placed && u.walker.pos.wedge == w)
             pt := if q == .ssq then u.pt else 0 }) s

/-! ### Conditions (R357) -/

/-- The PREFILL rule of R222 for the loaded request: PREFILL sectors, or the whole run if shorter, or WMAX, stand
encrypted in cells (R302). -/
def State.prefilled (s : State) (x : Str) : Bool :=
  match (s.seq x .wsq).loaded with
  | none => false
  | some r =>
    let need := min (min (s.eff .WRPx_CFG_PREFILL x.ix) (s.rd .BRG_CFG0_WMAX))
      ((r.places.drop (s.seq x .wsq).progress).filter fun p => p.word.isSome).length
    let w := (s.str.get x).wrp
    decide (need ≤ ((w.cells ++ w.fifo).filter fun e => e.1 = r.id).length)

/-- A level condition of a sequencer; consumed and sticky events apart. -/
def State.level (s : State) (x : Str) (q : SeqId) (code srca : Nat) : Bool :=
  let u := s.seq x q
  if code = 0 then true
  else if code = 1 then decide (u.pm ≤ u.pt)
  else if 2 ≤ code && code ≤ 5 then u.c.getD (code - 2) 0 == 0
  else if code = 6 then u.z
  else if code = 7 then u.n
  else if code = 8 then u.carry
  else if code = 9 then !u.queue.isEmpty
  else if code = 0xD then s.isSet .SCEx_STAT_PVALID x.ix
  else if code = 0xE then s.inhibit x
  else if code = 0xF then s.rd .AEx_STAT_STATE x.ix == 3
  else if code = 0x11 then u.isSplit
  else if code = 0x12 then u.isLast
  else if code = 0x13 then
    match q with
    | .rsq => s.isSet .RCHx_STAT_PLL_LOCK x.ix && !(s.str.get x).svd.servoGate
    | .wsq => u.loaded.any fun r => (r.places[u.walker.offset]?).any fun p =>
        p.word.isNone || (s.str.get x).wrp.fifo.contains (r.id, p.p)
    | .ssq => false
  else if code = 0x16 then q == .rsq && u.notReady
  else if code = 0x17 then q == .rsq && u.sbufFull
  else if code = 0x18 then q == .rsq && u.brgFull
  else if code = 0x19 then q != .ssq && u.late
  else if code = 0x1A then q == .wsq && u.runStop
  else if code = 0x1B then q == .rsq && (decide (0 < u.capack) || u.notReady || u.sbufFull || u.brgFull || u.late)
  else if code = 0x1C then q == .wsq && (decide (0 < u.done) || u.runStop)
  else if code = 0x1D then q == .wsq && s.prefilled x
  else if code = 0x1F then u.pendingIrq.isSome
  else if 0x60 ≤ code then srca.testBit (code % 32)
  else false

/-- A condition tested: its value, and the sequencer after a consumed event that was found set is cleared (R354). -/
def State.test (s : State) (x : Str) (q : SeqId) (code srca : Nat) : Bool × State :=
  let u := s.seq x q
  let take (b : Bool) (f : Sequencer → Sequencer) : Bool × State := (b, if b then s.modSeq x q f else s)
  if code = 0xA then take u.wbound fun u => { u with wbound := false }
  else if code = 0xB then take u.sam fun u => { u with sam := false }
  else if code = 0xC then take u.missam fun u => { u with missam := false }
  else if code = 0x10 then take u.secf fun u => { u with secf := false }
  else if code = 0x14 then take (q == .rsq && decide (0 < u.capack)) fun u => { u with capack := u.capack - 1 }
  else if code = 0x15 then take (q != .ssq && decide (0 < u.done)) fun u => { u with done := u.done - 1 }
  else if code = 0x1E then take (q != .ssq && u.uevt) fun u => { u with uevt := false }
  else (s.level x q code srca, s)

/-! ### The microword (R353, R355, R356, R358) -/

/-- A word carries a reserved encoding (R355 to R359). -/
def wordIllegal (q : SeqId) (w : Nat) : Bool :=
  let f hi lo := bitsOf w hi lo
  bitOf w 55 || f 143 128 != 0 || decide (12 ≤ f 15 12) || (0x20 ≤ f 22 16 && f 22 16 < 0x60) || f 26 24 == 7
    || decide (6 ≤ f 31 29) || decide (6 ≤ f 36 34) || decide (14 ≤ f 41 38) || decide (4 ≤ f 75 73)
    || decide (5 ≤ f 78 76)
    || (match q with | .rsq => decide (5 ≤ f 59 56) | _ => decide (4 ≤ f 59 56))

/-- A register of the file: G0 reads 0. -/
def Sequencer.reg (u : Sequencer) (i : Nat) : Nat := if i = 0 then 0 else u.g.getD i 0

/-- A register written: G0 ignores writes. -/
def Sequencer.setReg (u : Sequencer) (i v : Nat) : Sequencer := if i = 0 then u else { u with g := u.g.set i (v % 2 ^ 32) }

/-- CNTOP on a counter (R358): decrement saturates at 0, increment at 0xFFFF. -/
def cntOp (op old imm srca : Nat) : Nat :=
  if op = 1 then imm % 65536
  else if op = 2 then srca % 65536
  else if op = 3 then old - 1
  else if op = 4 then min 65535 (old + 1)
  else if op = 5 then 0
  else old

/-- The ALU field (R358), with the flags of a word whose ALUOP is not 0. -/
def State.seqAlu (s : State) (x : Str) (q : SeqId) (w a b : Nat) : State :=
  let op := bitsOf w 41 38
  if op = 0 then s
  else
    let u := s.seq x q
    let walk := u.walker.pos.index % 65536 + u.walker.pos.wedge % 512 * 65536
    let (r, fl) := alu op a b walk u.pt (s.free % 2 == 1)
    let s := s.drawn
    s.modSeq x q fun u =>
      { (if op = 11 then u else u.setReg (bitsOf w 45 42) r) with z := fl.z, n := fl.n, carry := fl.c }

/-- The TMOP field. -/
def State.seqTmop (s : State) (x : Str) (q : SeqId) (w a imm : Nat) : State :=
  let operand := (if bitOf w 37 then a else imm) % 2 ^ 20
  match bitsOf w 36 34 with
  | 1 => s.modSeq x q fun u => { u with pm := operand }
  | 2 => s.modSeq x q fun u => { u with pm := (u.pm + operand) % 2 ^ 20 }
  | 3 => s.seqNextsec x q
  | 4 => s.seqRewind x q
  | 5 => s.modSeq x q fun u => { u with pm := 0xFFFFF }
  | _ => s

/-- The CHOP field; no CHOP acts before commit (R366). -/
def State.seqChop (s : State) (x : Str) (q : SeqId) (w a : Nat) : State :=
  let op := bitsOf w 59 56
  let arg := if bitOf w 72 then a % 4096 else bitsOf w 71 60
  match q with
  | .ssq => if op = 0 then s else s.seqUevt x op
  | .rsq =>
    match op with
    | 1 => s.seqCapture x arg
    | 2 => s.seqContRead x
    | 3 => s.seqClose x
    | 4 => s.seqSetsel x arg
    | _ => s
  | .wsq =>
    match op with
    | 1 => s.seqStart x
    | 2 => s.seqContWrite x
    | 3 => s.seqWithdraw x
    | _ => s

/-- The REQOP field: DONE and REQUEUE are visible-state writes. -/
def State.seqReqop (s : State) (x : Str) (q : SeqId) (w imm : Nat) : State :=
  match bitsOf w 75 73 with
  | 1 => s.seqLoad x q
  | 2 => s.visWrite x q (.done (imm % 256))
  | 3 => s.visWrite x q .requeue
  | _ => s

/-- The OUTOP field. -/
def State.seqOutop (s : State) (x : Str) (q : SeqId) (w a imm : Nat) : State :=
  let sel := bitsOf w 83 79
  match bitsOf w 78 76 with
  | 1 => s.visWrite x q (.out sel a)
  | 2 => s.visWrite x q (.post (imm % 256) a)
  | 3 => s.visWrite x q (.uflag sel)
  | 4 => s.visWrite x q (.ucnt sel)
  | _ => s

/-- The STK field (R356): the cause of a fault, or the state after it. -/
def State.seqStack (s : State) (x : Str) (q : SeqId) (w a imm pc : Nat) : Except Nat State :=
  let u := s.seq x q
  let push (v : Nat) : Except Nat State :=
    if 4 ≤ u.stack.length then .error 1 else .ok (s.modSeq x q fun u => { u with stack := v % 4096 :: u.stack })
  match bitsOf w 26 24 with
  | 1 => push (pc + 1)
  | 2 => push imm
  | 3 => push a
  | 4 =>
    match u.stack with
    | [] => .error 2
    | v :: t => .ok (s.modSeq x q fun u => { (u.setReg (bitsOf w 45 42) v) with stack := t })
  | 5 =>
    match u.stack with
    | [] => .error 2
    | _ :: t => .ok (s.modSeq x q fun u => { u with stack := t })
  | 6 => .ok (s.modSeq x q fun u => { u with stack := [] })
  | _ => .ok s

/-- The routine goes on at an address; a YIELD word may take an interrupt there (R367). -/
def State.seqGo (s : State) (x : Str) (q : SeqId) (w next : Nat) : State :=
  let s := (s.wr .SQ_STAT_PC next (q.ix x)).sqRefresh x q
  if bitOf w 28 then s.seqYield x q (next % 4096) else s

/-- The next address (R356), given the condition's value. A WAIT that does not hold leaves the word waiting. -/
def State.seqNext (s : State) (x : Str) (q : SeqId) (w a pc : Nat) (cond : Bool) : State :=
  let next := bitsOf w 11 0
  let wait (target : Nat) : State :=
    if cond then (s.modSeq x q fun u => { u with waiting := false }).seqGo x q w target
    else (s.modSeq x q fun u => { u with waiting := true }).seqGo x q w pc
  let pop : State :=
    match (s.seq x q).stack with
    | [] => s.seqFault x q 2
    | v :: t => (s.modSeq x q fun u => { u with stack := t }).seqGo x q w v
  match bitsOf w 15 12 with
  | 0 => s.seqGo x q w (pc + 1)
  | 1 => s.seqGo x q w next
  | 2 => s.seqGo x q w (if cond then next else pc + 1)
  | 3 => wait (pc + 1)
  | 4 => wait next
  | 5 => pop
  | 6 => if cond then pop else s.seqGo x q w (pc + 1)
  | 7 => s.seqGo x q w (next + a % 16)
  | 8 =>
    let k := bitsOf w 33 32
    let v := (s.seq x q).c.getD k 0 - 1
    (s.modSeq x q fun u => { u with c := u.c.set k v }).seqGo x q w (if v != 0 then next else pc + 1)
  | 9 => s.seqEnd x q
  | 10 => s.seqResume x q
  | _ => s.seqDrop x q

/-- MICROWORD_ISSUE (R353): one word, its fields in the order of R353, every field reading the registers as they stood
at the start. A POST to a full mailbox stalls the word; a waiting word samples its condition again. -/
def State.issue (s : State) (x : Str) (q : SeqId) (pt : Nat) : State :=
  if s.sqState x q != 2 then s
  else
    let s := s.modSeq x q fun u => { u with pt := pt % 2 ^ 20 }
    let pc := s.rd .SQ_STAT_PC (q.ix x)
    let w := s.controlWord x q pc
    if s.controlBad x q pc then s.seqFault x q 5
    else if !s.pageLive x q pc || wordIllegal q w then s.seqFault x q 4
    else
      let u := s.seq x q
      let a := u.reg (bitsOf w 49 46)
      let imm := bitsOf w 127 96
      let b := if bitOf w 54 then imm else u.reg (bitsOf w 53 50)
      let test (s : State) : Bool × State :=
        let (c, s) := s.test x q (bitsOf w 22 16) a
        (if bitOf w 23 then !c else c, s)
      if u.waiting then
        let (c, s) := test s
        s.seqNext x q w a pc c
      else if u.stalls w then s
      else
        let conditional := [2, 3, 4, 6].contains (bitsOf w 15 12)
        let (c, s) := if conditional then test s else (true, s)
        let s := s.when (bitOf w 27) fun s => s.seqCommit x q
        let s := s.seqReqop x q w imm
        let s := s.seqAlu x q w a b
        let k := bitsOf w 33 32
        let s := s.modSeq x q fun u => { u with c := u.c.set k (cntOp (bitsOf w 31 29) (u.c.getD k 0) imm a) }
        let s := s.seqTmop x q w a imm
        let s := s.seqChop x q w a
        let s := s.seqOutop x q w a imm
        if s.sqState x q != 2 then s
        else
          match s.seqStack x q w a imm pc with
          | .error cause => s.seqFault x q cause
          | .ok s => s.seqNext x q w a pc c

/-- Requester code of a sequencer (R40). -/
def seqEngine (q : SeqId) (x : Str) : Nat := 16 + 4 * q.num + x.num

/-- The TRACE field of a word that performs its fields goes to the Bench trace buffer, with a 600 MHz timestamp (R355,
R470). -/
def State.traced (s : State) (x : Str) (q : SeqId) : State :=
  let pc := s.rd .SQ_STAT_PC (q.ix x)
  let w := s.controlWord x q pc
  let u := s.seq x q
  let stalled := u.stalls w
  if s.sqState x q == 2 && !u.waiting && !stalled && s.pageLive x q pc && !wordIllegal q w && !s.controlBad x q pc && bitsOf w 95 84 != 0 then
    { s with bench := { s.bench with trace := ((bitsOf w 95 84, s.timebase * 3 / 4) :: s.bench.trace).take 1024 } }
  else s

/-- A word issues, unless the Bench has halted the sequencer (R470). -/
def State.microword (s : State) (x : Str) (q : SeqId) (pt : Nat) : State :=
  if s.bench.halted.contains (seqEngine q x) then s else (s.traced x q).issue x q pt

/-! ### Registers with an action (R375) -/

/-- GO: STOPPED to IDLE. -/
def State.seqGoOp (s : State) (x : Str) (q : SeqId) : State :=
  if s.sqState x q = 0 then s.wr .SQ_STAT_STATE 1 (q.ix x) else s

/-- STOP (R370): an IDLE sequencer stops now, a routine at its end. -/
def State.seqStop (s : State) (x : Str) (q : SeqId) : State :=
  if s.sqState x q = 1 && !(s.seq x q).restart then s.wr .SQ_STAT_STATE 0 (q.ix x)
  else if s.sqState x q = 0 || s.sqState x q = 3 then s
  else s.modSeq x q fun u => { u with stopPend := true }

/-- RST (R375): from FAULT or STOPPED to STOPPED; stack, buffer and events cleared; the queue is kept. -/
def State.seqRst (s : State) (x : Str) (q : SeqId) : State :=
  if s.sqState x q = 0 || s.sqState x q = 3 then
    let s := s.modSeq x q fun u =>
      { u with stack := [], commit := [], wbound := false, sam := false, missam := false, secf := false, uevt := false
               capack := 0, done := 0, notReady := false, sbufFull := false, brgFull := false, late := false
               runStop := false, irq := [false, false, false], restart := false, faulted := false, stopPend := false
               waiting := false, rstTime := some (s.rd .SB_RTC_SEC) }
    ((s.wr .SQ_STAT_STATE 0 (q.ix x)).wr .SQ_STAT_FCAUSE 0 (q.ix x)).sqRefresh x q
  else s

/-- A control-store access through the register port (R355): offsets 0x0 to 0xC are staged, the access to 0x10 makes the
word take effect; bytes 18 to 31 ignore writes. A live word of a running sequencer is not written (R375). -/
def State.microwordWrite (s : State) (x : Str) (q : SeqId) (a off v : Nat) : State :=
  let n := x.num * 3 + q.num
  let a := a % 4096
  if s.sqState x q != 0 && s.pageLive x q a then s.flag .SQ_STAT_CFG_LOCKED (q.ix x)
  else if off < 0x10 then
    { s with staged := (n, a, off / 4, v % 2 ^ 32) :: s.staged.filter fun e => !(e.1 = n && e.2.1 = a && e.2.2.1 = off / 4) }
  else if off / 4 = 4 then
    let old := s.controlWord x q a
    let part i := ((s.staged.find? fun e => e.1 = n && e.2.1 = a && e.2.2.1 = i).map (·.2.2.2)).getD (bitsOf old (32 * i + 31) (32 * i))
    let w := part 0 + part 1 * 2 ^ 32 + part 2 * 2 ^ 64 + part 3 * 2 ^ 96 + v % 65536 * 2 ^ 128
    let k := n * 4096 + a
    let s := s.controlWritten x q [a]
    { s with control := if w = 0 then storeDrop s.control k else storePut s.control k w
             staged := s.staged.filter fun e => !(e.1 = n && e.2.1 = a) }
  else s

/-! ### Meanings -/

def execRoutineDispatch (x : Str) (q : SeqId) (s : State) : Host.Outcome State Fault Refusal :=
  .next (s.onStr x fun s => if s.bench.halted.contains (seqEngine q x) then s else s.seqDispatch x q)

def execMicrowordIssue (x : Str) (q : SeqId) (pt : Nat) (s : State) : Host.Outcome State Fault Refusal :=
  .next (s.onStr x fun s => s.microword x q pt)

/-- The position timer of a word's cycle. -/
def State.seqAt (s : State) (x : Str) (q : SeqId) (pt : Nat) : State := s.modSeq x q fun u => { u with pt := pt % 2 ^ 20 }

def execReqLoad (x : Str) (q : SeqId) (pt : Nat) (s : State) : Host.Outcome State Fault Refusal :=
  .next (s.onStr x fun s => (s.seqAt x q pt).seqLoad x q)

def execReqDone (x : Str) (q : SeqId) (status : Nat) (s : State) : Host.Outcome State Fault Refusal :=
  .next (s.onStr x fun s => s.visWrite x q (.done (status % 256)))

def execRequeue (x : Str) (q : SeqId) (s : State) : Host.Outcome State Fault Refusal :=
  .next (s.onStr x fun s => s.visWrite x q .requeue)

/-- A POST to a full mailbox stalls its word (R353). -/
def execPost (x : Str) (q : SeqId) (code value : Nat) (s : State) : Host.Outcome State Fault Refusal :=
  .next (s.onStr x fun s => s.when (decide ((s.seq x q).mailbox.length < 16)) fun s => s.visWrite x q (.post code value))

def execNextsec (x : Str) (q : SeqId) (pt : Nat) (s : State) : Host.Outcome State Fault Refusal :=
  .next (s.onStr x fun s => (s.seqAt x q pt).seqNextsec x q)

def execRewind (x : Str) (q : SeqId) (pt : Nat) (s : State) : Host.Outcome State Fault Refusal :=
  .next (s.onStr x fun s => (s.seqAt x q pt).seqRewind x q)

def execCapture (x : Str) (arg pt : Nat) (s : State) : Host.Outcome State Fault Refusal :=
  .next (s.onStr x fun s => (s.seqAt x .rsq pt).seqCapture x arg)

def execCont (x : Str) (q : SeqId) (s : State) : Host.Outcome State Fault Refusal :=
  .next (s.onStr x fun s => match q with | .rsq => s.seqContRead x | .wsq => s.seqContWrite x | .ssq => s)

def execClose (x : Str) (s : State) : Host.Outcome State Fault Refusal := .next (s.onStr x fun s => s.seqClose x)

def execSetsel (x : Str) (arg : Nat) (s : State) : Host.Outcome State Fault Refusal :=
  .next (s.onStr x fun s => s.seqSetsel x arg)

def execStart (x : Str) (pt : Nat) (s : State) : Host.Outcome State Fault Refusal :=
  .next (s.onStr x fun s => (s.seqAt x .wsq pt).seqStart x)

def execWithdraw (x : Str) (s : State) : Host.Outcome State Fault Refusal := .next (s.onStr x fun s => s.seqWithdraw x)

def execUevt (x : Str) (arg : Nat) (s : State) : Host.Outcome State Fault Refusal :=
  .next (s.onStr x fun s => s.seqUevt x arg)

def execCommit (x : Str) (q : SeqId) (s : State) : Host.Outcome State Fault Refusal :=
  .next (s.onStr x fun s => s.seqCommit x q)

def execYieldWord (x : Str) (q : SeqId) (next : Nat) (s : State) : Host.Outcome State Fault Refusal :=
  .next (s.onStr x fun s => s.seqYield x q (next % 4096))

def execEndRoutine (x : Str) (q : SeqId) (s : State) : Host.Outcome State Fault Refusal := .next (s.onStr x fun s => s.seqEnd x q)

def execResume (x : Str) (q : SeqId) (s : State) : Host.Outcome State Fault Refusal :=
  .next (s.onStr x fun s => s.seqResume x q)

def execDrop (x : Str) (q : SeqId) (s : State) : Host.Outcome State Fault Refusal := .next (s.onStr x fun s => s.seqDrop x q)

def execSeqInterrupt (x : Str) (q : SeqId) (s : State) : Host.Outcome State Fault Refusal :=
  .next (s.onStr x fun s => s.seqInterrupt x q)

def execSqGo (x : Str) (q : SeqId) (s : State) : Host.Outcome State Fault Refusal :=
  .next (s.onStr x fun s => s.seqGoOp x q)

def execSqStop (x : Str) (q : SeqId) (s : State) : Host.Outcome State Fault Refusal :=
  .next (s.onStr x fun s => s.seqStop x q)

def execSqRst (x : Str) (q : SeqId) (s : State) : Host.Outcome State Fault Refusal :=
  .next (s.onStr x fun s => s.seqRst x q)

/-- DOORBELL raises source 2 (R365). -/
def execDoorbell (x : Str) (q : SeqId) (s : State) : Host.Outcome State Fault Refusal :=
  .next (s.onStr x fun s => s.seqIrq x q 2)

def execMicrowordWrite (x : Str) (q : SeqId) (a off v : Nat) (s : State) : Host.Outcome State Fault Refusal :=
  .next (s.onStr x fun s => s.microwordWrite x q a off v)

end Sys2Proof.Machine
end

