-- ==== Sys2Proof/Machine/Touchdown.lean ====
section
/-! DEFINITION. Machine/Touchdown.lean: the end of a calibration script (R443) and contact in the touchdown search (R146,
R147, R444), which the AE's touchdown guard shares with CAL. -/
namespace Sys2Proof.Machine

/-- The selected head (AEx_STAT.HEAD). -/
def State.aeHead (s : State) (x : Str) : Nat := s.rd .AEx_STAT_HEAD x.ix

/-- AE states: 0 OFF, 1 READ, 2 ARMING, 3 ARMED, 4 ABORTED, 5 CAL. -/
def State.aeState (s : State) (x : Str) : Nat := s.rd .AEx_STAT_STATE x.ix

def State.modCal (s : State) (f : Cal → Cal) : State := { s with cal := f s.cal }

/-- A running script changed. -/
def State.modRun (s : State) (c : CalRun) (f : CalRun → CalRun) : State :=
  s.modCal fun k => { k with runs := k.runs.map fun d => if d.mask == c.mask then f d else d }

/-- The touchdown search that runs on a String. -/
def State.tdRun (s : State) (x : Str) : Option CalRun := s.cal.runs.find? fun c => c.script == 6 && c.mask == x.bit

/-- A script ends (R443, R454): RESULT, DONE, BUSY, and the reply of a request. -/
def State.calEnd (s : State) (c : CalRun) (st : CStat) (results : List Nat := []) : State :=
  let s := s.modCal fun k => { k with runs := k.runs.filter fun d => d.mask != c.mask }
  let s := ((s.wr .CAL_STAT_RESULT st.code).flag .CAL_STAT_DONE).setTo .CAL_STAT_BUSY (!s.cal.runs.isEmpty)
  match c.request.bind fun n => s.bur.requests.find? fun r => r.order == n with
  | some r => s.reply r st 0 0 results
  | none => s

/-- CALHTR = 0 and CAL_EN = 0 (R146 step 4). -/
def State.tdRelease (s : State) (x : Str) : State := (s.wr .AEx_CALHTR_HTR 0 x.ix).shadowWr .AEx_CTRL_CAL_EN 0 x.ix

/-- HTR_RD of a head is written; a change clears its HCORR (R141). -/
def State.writeHtrRd (s : State) (x : Str) (h v : Nat) : State :=
  let i := x.ix h
  let s := s.when (s.rd .AEx_H_HTR_HTR_RD i != v) fun s => s.wr .AEx_H_HSTAT_HCORR 0 i
  s.wr .AEx_H_HTR_HTR_RD v i

/-- Contact at a heater value (R146 steps 4 and 5, R444): the head's heaters become the contact value less their back-offs.
A back-off beyond the contact value leaves a value outside its range, which is not written (log entry 28). -/
def State.tdContact (s : State) (x : Str) (c : CalRun) (heater : Nat) : State :=
  let s := s.tdRelease x
  let rd := s.rd .CAL_BO_BO_RD
  let idle := s.rd .CAL_BO_BO_WIDLE
  let wr := s.rd .CAL_BO_BO_WR
  if heater < rd || heater < idle || heater < wr then s.calEnd c .cfgRange
  else
    let i := x.ix c.head
    let s := ((s.writeHtrRd x c.head (heater - rd)).wr .AEx_H_HTR_HTR_WIDLE (heater - idle) i).wr .AEx_H_HTR_HTR_WR (heater - wr) i
    s.modRun c fun d => { d with contact := some heater, refSum := 0, refCount := 0 }

/-- The AE has found contact on its guard: a search that runs takes the CALHTR in force (R146 step 4). -/
def State.tdGuard (s : State) (x : Str) : State :=
  match s.tdRun x with
  | some c => if c.contact.isNone then s.tdContact x c (s.rd .AEx_CALHTR_HTR x.ix) else s
  | none => s

end Sys2Proof.Machine
end

