-- ==== Sys2Proof/Machine/Assist.lean ====
section
/-! DEFINITION. Machine/Assist.lean: the assist engine and the Nut link (R130 to R151, R503), hot heads (R447), and the
meanings of their commands. Rounding of the settings is to the nearest code (log entry 15). -/
namespace Sys2Proof.Machine

/-! ### The selected head -/

/-- AEx_STAT.LEDG_SOFT shows the selected head's flag. -/
def State.showSoft (s : State) (x : Str) : State :=
  s.setTo .AEx_STAT_LEDG_SOFT ((s.str.get x).ae.soft.getD (s.aeHead x) false) x.ix

/-- The SCE selects a head over the Nut link (R107, R135): a HEADSEL frame goes out, and the AE learns of it. -/
def State.selectHead (s : State) (x : Str) (h : Nat) : State :=
  let s := s.sendFrame x { kind := .headsel, write := true, head := h, addr := 1, data := h, tries := 0 }
  ((s.wr .AEx_STAT_HEAD h x.ix).modAe x fun a => { a with headDue := true }).showSoft x

/-- An IDLE frame for the selected head is due (R137). -/
def State.queueIdle (s : State) (x : Str) : State :=
  let h := s.aeHead x
  let f : NutFrame := { kind := .idle, write := true, head := h, addr := 5
                        data := s.rd .AEx_H_LAS_LAS_IDLE (x.ix h), tries := 0 }
  s.modAe x fun a => { a with idleAcked := false, idleQueue := a.idleQueue.filter (fun g => g.head != h) ++ [f] }

/-- ARMING for the selected head (R145). -/
def State.enterArming (s : State) (x : Str) : State :=
  ((s.wr .AEx_STAT_STATE 2 x.ix).modAe x fun a => { a with warm := 0 }).queueIdle x

/-- READ (R145). -/
def State.enterRead (s : State) (x : Str) : State :=
  (s.wr .AEx_STAT_STATE 1 x.ix).modAe x fun a => { a with warm := 0, heldFrets := 0 }

/-- OFF to READ when the SCE enters LOADING (R145). -/
def State.aeLoad (s : State) (x : Str) : State := s.when (s.aeState x == 0) fun s => s.enterRead x

/-! ### The heat ledger (R142) -/

/-- Energy of the previous Fret in nJ with 16 fraction bits: ASSIST × PW_LSB (µW) × 400 MHz cycles × 2.5 ns. -/
def ledgerEnergy (assist pw cycles : Nat) : Nat := assist * pw * cycles * 25 * 65536 / 10 ^ 7

/-- The ledger after a slot. -/
def ledgerStep (l leak e : Nat) : Nat := l - l / 2 ^ leak + e

/-- The soft flag after a slot, with a limit in µJ; a limit of 0 as R142 states. -/
def softAfter (flag : Bool) (l e limit : Nat) : Bool :=
  if limit = 0 then (if e != 0 then true else if l < 65536 then false else flag)
  else if limit * 1000 * 65536 ≤ l then true
  else if l < limit * 875 * 65536 then false
  else flag

/-- The hard-cap test, with a limit in µJ. -/
def hardReached (l limit : Nat) : Bool := if limit = 0 then decide (0 < l) else decide (limit * 1000 * 65536 ≤ l)

/-- The ledger of head `h` at a slot. -/
def State.ledgerHead (s : State) (x : Str) (gateCycles h : Nat) : State :=
  let a := (s.str.get x).ae
  let l0 := a.ledger.getD h 0
  let e := if h = a.slotHead then ledgerEnergy a.assist (s.rd .AEx_H_LIM_PW_LSB (x.ix h)) gateCycles else 0
  let l := ledgerStep l0 (s.rd .AEx_CFG_LEAK_SH x.ix) e
  let was := a.soft.getD h false
  let now := softAfter was l e (s.rd .AEx_H_CAPS_LEDG_SOFT (x.ix h))
  let hard := hardReached l (s.rd .AEx_H_CAPS_LEDG_HARD (x.ix h))
  let s := s.modAe x fun a => { a with ledger := a.ledger.set h l, soft := a.soft.set h now
                                       capDue := if hard then some h else a.capDue }
  (s.wr .AEx_H_LEDGER_NJ (l / 65536) (x.ix h)).when (now && !was) fun s => s.emit (.irq "LEDG_SOFT" x.num)

/-- Every head's ledger is updated once (R142). -/
def State.ledgers (s : State) (x : Str) (gateCycles : Nat) : State :=
  let s := s.modAe x fun a => { a with capDue := none }
  ((List.range 6).foldl (fun s h => s.ledgerHead x gateCycles h) s).showSoft x

/-! ### The UPDATE (R139) -/

/-- ASSIST of an ARMED slot before its clamp. -/
def State.writeAssist (s : State) (x : Str) (h : Nat) : Int :=
  let t : Int := (s.rd .AEx_H_HSTAT_TEMP (x.ix h) : Int) - 120
  s.rd .AEx_H_LAS_LAS_WR (x.ix h) + roundDiv (toSigned 8 (s.rd .AEx_H_LIM_TC_LAS (x.ix h)) * t) 2

/-- HEATER of a slot before its clamp: base + HTR_TC × (T − 40 °C) + HCORR, where base is HTR_RD, HTR_WIDLE, or
HTR_WIDLE − (HTR_WIDLE − HTR_WR) × gate/fret. -/
def State.heaterSum (s : State) (x : Str) (h st gate fret : Nat) : Int :=
  let i := x.ix h
  let t : Int := (s.rd .AEx_H_HSTAT_TEMP i : Int) - 120
  let tc : Int := toSigned 8 (s.rd .AEx_H_HLIM_HTR_TC i) * t
  let corr : Int := toSigned 10 (s.rd .AEx_H_HSTAT_HCORR i)
  let idle : Int := s.rd .AEx_H_HTR_HTR_WIDLE i
  let wr : Int := s.rd .AEx_H_HTR_HTR_WR i
  if st = 1 || st = 4 then (s.rd .AEx_H_HTR_HTR_RD i : Int) + roundDiv tc 2 + corr
  else if st = 3 && fret != 0 then idle + corr + roundDiv (tc * fret - 2 * (idle - wr) * gate) (2 * fret)
  else idle + roundDiv tc 2 + corr

/-- MODE of a state. -/
def modeOf (st : Nat) : Nat := if st = 0 then 0 else if st = 1 || st = 4 then 1 else if st = 5 then 3 else 2

/-- The UPDATE of a slot is computed and sent. -/
def State.slotUpdate (s : State) (x : Str) (gate fret : Nat) : State :=
  let st := s.aeState x
  let h := s.aeHead x
  let i := x.ix h
  let none' := s.eff .AEx_CFG_TYPE x.ix = 0
  let want : Int := if st = 3 then s.writeAssist x h else if st = 2 then s.rd .AEx_H_LAS_LAS_IDLE i else 0
  let top : Int := s.rd .AEx_H_LIM_LAS_MAX i
  let assist := if none' then 0 else if st = 3 then clampInt 0 top want else want
  let s := s.when (!none' && st = 3 && assist != want) fun s => s.flag .AEx_STAT_LAS_CLAMP x.ix
  let hmax : Int := s.rd .AEx_H_HLIM_HTR_MAX i
  let raw : Int := if st = 0 then 0 else if st = 5 then s.rd .AEx_CALHTR_HTR x.ix else s.heaterSum x h st gate fret
  let heater := if st = 0 then 0 else clampInt 0 hmax raw
  let s := s.when (heater != raw) fun s => s.flag .AEx_STAT_HTR_CLAMP x.ix
  let heater := if (s.str.get x).ae.tdZero then 0 else heater
  let wc := if st = 2 || st = 3 then s.rd .AEx_H_HLIM_WC i else 0
  (s.modAe x fun a => { a with tdZero := false }).sendUpdate x (modeOf st) assist.toNat heater.toNat wc

/-! ### The assist slot -/

/-- The S fields of the AE take effect; WR_ARM and CAL_EN that become 1 are events (R145, R148). -/
def State.aeBoundary (s : State) (x : Str) : State :=
  let arm := s.isSet .AEx_CTRL_WR_ARM x.ix
  let cal := s.isSet .AEx_CTRL_CAL_EN x.ix
  let s := s.boundary .ae x.num
  let arm' := s.isSet .AEx_CTRL_WR_ARM x.ix
  let cal' := s.isSet .AEx_CTRL_CAL_EN x.ix
  s.modAe x fun a => { a with armDue := arm' && (a.armDue || !arm), calDue := cal' && (a.calDue || !cal) }

/-- The events of a slot, in the order of R145: link failure, hard cap, head change, WR_ARM, CAL_EN. A head change from
READ has no row and displaces nothing; an event displaced stays due for the next slot. `cap` is the head of a hard-cap event of the previous slot. -/
def State.slotEvents (s : State) (x : Str) (cap : Option Nat) : State :=
  let st := s.aeState x
  let a := (s.str.get x).ae
  let armed := st = 2 || st = 3
  let s := s.modAe x fun a => { a with linkDue := none }
  match (if armed || st = 5 then a.linkDue else none), (if st = 3 then cap else none) with
  | some (wedge, slot), _ => s.assistAbort x wedge slot (s.aeHead x) 1
  | none, some h => s.assistAbort x (s.str.get x).svd.wedge a.slots h 0
  | none, none =>
    let s := s.modAe x fun a => { a with headDue := false }
    if a.headDue && armed then s.enterArming x
    else if st = 1 && a.armDue then (s.modAe x fun a => { a with armDue := false }).enterArming x
    else if armed && !s.isSet .AEx_CTRL_WR_ARM x.ix then s.enterRead x
    else
      let s := s.modAe x fun a => { a with armDue := false, calDue := false }
      if st = 1 && a.calDue then s.wr .AEx_STAT_STATE 5 x.ix
      else if st = 5 && !s.isSet .AEx_CTRL_CAL_EN x.ix then s.enterRead x
      else s

/-- The average of the fly-height loop (R141). -/
def State.flyAverage (s : State) (x : Str) (gate : Nat) : State :=
  let st := s.aeState x
  s.modAe x fun a =>
    if !(s.isSet .AEx_CTRL_FH_EN x.ix && (st = 1 || st = 3)) || gate != 0 then { a with ecsSum := 0, ecsCount := 0 }
    else { a with ecsSum := a.ecsSum + a.ecs.getD (s.aeHead x) 0, ecsCount := a.ecsCount + 1 }

/-- ASSIST_SLOT (R139): `gate` cycles of open write gate in the previous Fret of `fret` cycles, both at 400 MHz. There
is no assist slot without wedge timing (R145, R151). -/
def State.assistSlot (s : State) (x : Str) (gate fret : Nat) : State :=
  s.when (s.synced x) fun s =>
    let cap := (s.str.get x).ae.capDue
    let s := s.ledgers x gate
    let s := (s.aeBoundary x).slotEvents x cap
    let s := s.flyAverage x gate
    let inh := s.inhibit x
    let s := s.modAe x fun a => { a with heldFrets := if inh then a.heldFrets + 1 else 0, slotHead := s.aeHead x, slots := a.slots + 1 }
    s.slotUpdate x gate fret

/-! ### Replies (R133, R140) -/

/-- HT_LIM of a String. -/
def htLim : Str → Reg
  | .A => .THR_HEAD_HT_LIM_A
  | .B => .THR_HEAD_HT_LIM_B
  | .C => .THR_HEAD_HT_LIM_C
  | .D => .THR_HEAD_HT_LIM_D

/-- A head is found hot: its writes are withdrawn (R447). -/
def State.headHot (s : State) (x : Str) (h : Nat) : State :=
  s.when (!((s.str.get x).ae.hot.getD h false)) fun s =>
    (s.modAe x fun a => { a with hot := a.hot.set h true }).withdrawHead x h

/-- TEMP of a head arrives: a head at or above HT_LIM is hot (R447). -/
def State.headTemp (s : State) (x : Str) (h temp : Nat) : State :=
  (s.wr .AEx_H_HSTAT_TEMP temp (x.ix h)).when (decide (s.rd (htLim x) ≤ temp)) fun s => s.headHot x h

/-- The touchdown guard (R145). -/
def State.touchGuard (s : State) (x : Str) (ecs : Nat) : State :=
  s.when (s.aeState x == 5 && decide (s.rd .AEx_H_ECS_ECS_TD (x.ix (s.aeHead x)) * 256 ≤ ecs)) fun s =>
    (((s.enterRead x).flag .AEx_STAT_TD_HIT x.ix).modAe x fun a => { a with tdZero := true }).tdGuard x

/-- What the reply carries besides its acknowledgement: the preamp's flags, and TEMP and ECS of the head selected before the frame
it came with, or a register's value (R133, R140). -/
def State.replyData (s : State) (x : Str) (w : Nat) (f : Option NutFrame) : State :=
  let s := s.when (w.testBit 58) fun s => (s.flag .NUTx_STAT_WFLT x.ix).emit (.irq "WFLT" x.num)
  let s := s.when (w.testBit 57) fun s => (s.flag .NUTx_STAT_WDOG x.ix).emit (.irq "WDOG" x.num)
  let h := (s.str.get x).ae.replyHead
  let s := s.when (w.testBit 56) fun s => s.headHot x h
  let data := bitsOf w 47 16
  match f with
  | some f =>
    if f.write then
      let s := s.headTemp x h (bitsOf w 47 40)
      let ecs := bitsOf w 39 24
      (s.modAe x fun a => { a with ecs := a.ecs.set h ecs }).when (h == s.aeHead x) fun s => s.touchGuard x ecs
    else if f.kind == .collect then s.headTemp x f.head (data % 256)
    else s.when (w.testBit 59) fun s => s.wr .NUTx_BGRESP_DATA data x.ix
  | none => s

/-- The reply's acknowledgement of the frame it answers for (R140). An IDLE frame that a later one for the head has superseded is
neither resent nor its acknowledgement taken for the later one's (R137). -/
def State.replyAck (s : State) (x : Str) (f : NutFrame) (ok : Bool) : State :=
  match f.kind with
  | .update =>
    if ok then
      s.modAe x fun a =>
        { a with unacked := 0
                 warm := if s.aeState x = 2 && f.head = s.aeHead x && f.data % 16 = 2 then a.warm + 1 else a.warm }
    else s.modAe x fun a => { a with unacked := a.unacked + 1, missWedge := f.wedge, missSlot := f.slot }
  | .idle =>
    let a := (s.str.get x).ae
    let newer := (a.idleQueue ++ a.last.toList).any fun g => g.kind == .idle && g.head == f.head
    if newer then s
    else if ok then s.modAe x fun a => { a with idleAcked := a.idleAcked || f.head == s.aeHead x }
    else s.modAe x fun a => { a with idleQueue := a.idleQueue ++ [f] }
  | .posted =>
    if ok then (s.unflag .NUTx_STAT_BG_BUSY x.ix).flag .NUTx_STAT_BG_DONE x.ix
    else if f.tries < 3 then s.modAe x fun a => { a with retry := some f }
    else (s.unflag .NUTx_STAT_BG_BUSY x.ix).flag .NUTx_STAT_BG_ERR x.ix
  | .headsel | .collect => s

/-- NUT_REPLY: the reply to the frame before the one it came with. -/
def State.nutReply (s : State) (x : Str) (w : Nat) : State :=
  s.when (s.isSet .NUTx_CTRL_EN x.ix) fun s =>
    let good := crc8 w 64 56 0 == w % 256
    let ackp := w.testBit 59
    let f := (s.str.get x).ae.prev
    let s := s.modAe x fun a => { a with prev := none }
    let s := s.when (!good) fun s => s.bump .NUTx_CNT_CRC_ERR x.ix
    let s := s.when (good && !ackp) fun s => s.bump .NUTx_CNT_NACK x.ix
    let s := s.when good fun s => s.replyData x w f
    match f with
    | none => s
    | some f => s.replyAck x f (good && ackp)

/-! ### Background frames (R135, R503) -/

/-- A frame of the AE's or of software's is a background frame. -/
def FrameKind.background : FrameKind → Bool
  | .idle | .posted => true
  | _ => false

/-- BACKGROUND_FRAME_START: IDLE frames first, then posted frames, then resends; without wedge timing, a collection
frame after the last one (R503). -/
def State.backgroundFrame (s : State) (x : Str) : State :=
  let a := (s.str.get x).ae
  if !s.isSet .NUTx_CTRL_EN x.ix then s
  else
    match a.idleQueue, a.postQueue, a.retry with
    | f :: t, _, _ => (s.modAe x fun a => { a with idleQueue := t }).sendFrame x f
    | [], f :: t, _ => (s.modAe x fun a => { a with postQueue := t }).sendFrame x f
    | [], [], some f => (s.modAe x fun a => { a with retry := none }).sendFrame x f
    | [], [], none =>
      match a.last with
      | some f =>
        if f.kind.background && !s.synced x then
          s.sendFrame x { kind := .collect, write := false, head := f.head, addr := 3, data := 0, tries := 0 }
        else s
      | none => s

/-- BG_GO (R131, R150, R151). -/
def State.bgGo (s : State) (x : Str) : State :=
  let addr := s.rd .NUTx_BGCMD_ADDR x.ix
  if s.isSet .NUTx_STAT_BG_BUSY x.ix then s
  else if !s.isSet .NUTx_CTRL_EN x.ix || addr = 0 || addr = 1 || addr = 5 then s.flag .NUTx_STAT_BG_ERR x.ix
  else
    let wr := s.isSet .NUTx_BGCMD_WR x.ix
    let f : NutFrame := { kind := .posted, write := wr, head := s.rd .NUTx_BGCMD_HEAD x.ix, addr
                          data := if wr then s.rd .NUTx_BGDATA_DATA x.ix else 0, tries := 0 }
    (s.modAe x fun a => { a with postQueue := a.postQueue ++ [f] }).flag .NUTx_STAT_BG_BUSY x.ix

/-! ### The other rows of R145 -/

/-- LINK_FAILURE (R140, R143): NUT_FAIL, in OFF as well; in ARMING, ARMED and CAL the abort takes effect at the next slot, with the
wedge of the third missed UPDATE. A failure after 3 re-enables of the link loses the String (R431). -/
def State.linkFailure (s : State) (x : Str) : State :=
  let st := s.aeState x
  s.when (decide (3 ≤ (s.str.get x).ae.unacked)) fun s =>
    let s := (s.flag .AEx_STAT_NUT_FAIL x.ix).modAe x fun a => { a with unacked := 0 }
    let s := s.when (decide (3 ≤ (s.str.get x).health.nutEnables)) fun s => s.stringLost x
    s.when (st == 2 || st == 3 || st == 5) fun s => s.modAe x fun a => { a with linkDue := some (a.missWedge, a.missSlot) }

/-- HOT_HEAD_CLEAR (R447): TEMP has been below HT_LIM − 5 °C, 10 codes, for 100 ms. -/
def State.hotClear (s : State) (x : Str) (h : Nat) : State :=
  s.when (decide (s.rd .AEx_H_HSTAT_TEMP (x.ix h) + 10 < s.rd (htLim x))) fun s =>
    s.modAe x fun a => { a with hot := a.hot.set h false }

/-- A write of WR_ARM: what it answers and the state after it (R149). -/
def State.wrArm (s : State) (x : Str) (on : Bool) : CStat × State :=
  let i := x.ix (s.aeHead x)
  if on && s.eff .AEx_CFG_TYPE x.ix != 0 && decide (s.rd .AEx_H_CAPS_LEDG_HARD i ≤ s.rd .AEx_H_CAPS_LEDG_SOFT i) then
    (.cfgRange, s)
  else if s.aeState x = 0 then (.ok, s.wr .AEx_CTRL_WR_ARM (boolNat on) x.ix)
  else (.ok, s.shadowWr .AEx_CTRL_WR_ARM (boolNat on) x.ix)

/-- A ledger is below LEDG_SOFT; with a limit of 0, it reads 0 (R142). -/
def State.ledgerBelowSoft (s : State) (x : Str) (h : Nat) : Bool :=
  let l := (s.str.get x).ae.ledger.getD h 0
  let limit := s.rd .AEx_H_CAPS_LEDG_SOFT (x.ix h)
  if limit = 0 then decide (l < 65536) else decide (l < limit * 1000 * 65536)

/-- ABORT_CLR (R145). -/
def State.abortClr (s : State) (x : Str) : State :=
  if s.aeState x != 4 then s
  else if !s.isSet .AEx_STAT_NUT_FAIL x.ix && s.ledgerBelowSoft x (s.rd .AEx_ABORT_HEAD x.ix) then s.enterRead x
  else s.flag .AEx_STAT_CFG_LOCKED x.ix

/-- Neither a link failure nor a head change waits for the coming slot: both come before an inhibit lapse and the end of a warm-up
(R145). -/
def State.noneAhead (s : State) (x : Str) : Bool := (s.str.get x).ae.linkDue.isNone && !(s.str.get x).ae.headDue

/-- WARM_UP_COMPLETE (R145). -/
def State.warmUp (s : State) (x : Str) : State :=
  let a := (s.str.get x).ae
  s.when (s.aeState x == 2 && decide (s.rd .AEx_CFG_WARM_FRETS x.ix ≤ a.warm) && a.idleAcked && s.noneAhead x) fun s =>
    ((s.wr .AEx_STAT_STATE 3 x.ix).modAe x fun a => { a with heldFrets := 0 }).emit (.irq "WRRDY" x.num)

/-- ARM_LAPSE (R145). -/
def State.armLapse (s : State) (x : Str) : State :=
  let a := (s.str.get x).ae
  s.when (s.aeState x == 3 && decide (0 < a.heldFrets) && decide (s.rd .AEx_CFG_ARM_HOLD x.ix ≤ a.heldFrets)
      && s.noneAhead x && a.capDue.isNone) fun s =>
    (((s.enterRead x).flag .AEx_STAT_ARM_LAPSE x.ix).unflag .AEx_CTRL_WR_ARM x.ix).shadowDrop .AEx_CTRL_WR_ARM x.ix

/-- FLY_HEIGHT_UPDATE (R141). -/
def State.flyUpdate (s : State) (x : Str) : State :=
  let a := (s.str.get x).ae
  let st := s.aeState x
  let i := x.ix (s.aeHead x)
  s.when (s.isSet .AEx_CTRL_FH_EN x.ix && (st == 1 || st == 3) && decide (s.eff .AEx_CFG_FH_DIV x.ix ≤ a.ecsCount)) fun s =>
    let err : Int := (a.ecsSum : Int) - (s.rd .AEx_H_ECS_ECS_REF i * a.ecsCount : Nat)
    let d := roundDiv (s.rd .AEx_H_ECS_KI i * err) (65536 * a.ecsCount)
    let m : Int := s.rd .AEx_H_HLIM_HTR_CMAX i
    let v := clampInt (-m) m (toSigned 10 (s.rd .AEx_H_HSTAT_HCORR i) + d)
    (s.wr .AEx_H_HSTAT_HCORR (ofSigned 10 v) i).modAe x fun a => { a with ecsSum := 0, ecsCount := 0 }

/-! ### Meanings -/

def execAssistSlot (x : Str) (gateCycles fretCycles : Nat) (s : State) : Host.Outcome State Fault Refusal :=
  .next (s.onStr x fun s => s.assistSlot x gateCycles fretCycles)

def execNutReply (x : Str) (reply : Nat) (s : State) : Host.Outcome State Fault Refusal :=
  .next (s.onStr x fun s => s.nutReply x reply)

def execLinkFailure (x : Str) (s : State) : Host.Outcome State Fault Refusal := .next (s.onStr x fun s => s.linkFailure x)

def execHotHeadClear (x : Str) (head : Nat) (s : State) : Host.Outcome State Fault Refusal :=
  .next (s.onStr x fun s => s.hotClear x (head % 6))

def execBackgroundFrameStart (x : Str) (s : State) : Host.Outcome State Fault Refusal :=
  .next (s.onStr x fun s => s.backgroundFrame x)

def execBgGo (x : Str) (s : State) : Host.Outcome State Fault Refusal := .next (s.onStr x fun s => s.bgGo x)

def execWrArm (x : Str) (on : Bool) (s : State) : Host.Outcome State Fault Refusal :=
  .next (s.onStr x fun s => (s.wrArm x on).2)

def execAbortClr (x : Str) (s : State) : Host.Outcome State Fault Refusal := .next (s.onStr x fun s => s.abortClr x)

def execWarmUpComplete (x : Str) (s : State) : Host.Outcome State Fault Refusal := .next (s.onStr x fun s => s.warmUp x)

def execArmLapse (x : Str) (s : State) : Host.Outcome State Fault Refusal := .next (s.onStr x fun s => s.armLapse x)

def execFlyHeightUpdate (x : Str) (s : State) : Host.Outcome State Fault Refusal := .next (s.onStr x fun s => s.flyUpdate x)

end Sys2Proof.Machine
end

