-- ==== Sys2Proof/Machine/LawChain.lean ====
section
/-! DEFINITION. Machine/LawChain.lean: the coefficient tables of an SCE, the loader's check of them (R92, R93, R97), and
the sections of a law (R90, R91, R94). Signals and states are 32-bit with 16 fraction bits, coefficients have 28. -/
namespace Sys2Proof.Machine

/-- Table 0 is bank 0, 1 is bank 1, 2 is the fallback table. -/
def tableReg : Nat → Reg
  | 0 => .SCEx_BANK0_TABLE
  | 1 => .SCEx_BANK1_TABLE
  | _ => .SCEx_FALLBACK_TABLE

/-- Word `w` of a table. -/
def State.tableWord (s : State) (x : Str) (t w : Nat) : Nat := s.rd (tableReg t) (x.ix (w % 16384))

/-- Word `w` of a table written. -/
def State.putTableWord (s : State) (x : Str) (t w v : Nat) : State := s.wr (tableReg t) v (x.ix (w % 16384))

/-- The table in force: the fallback table, or the active bank (R98). -/
def State.activeTable (s : State) (x : Str) : Nat :=
  if s.isSet .SCEx_STAT_FALLBACK x.ix then 2 else s.rd .SCEx_STAT_ACTBANK x.ix

/-- VALID of a table's header (R93). -/
def State.tableValid (s : State) (x : Str) (t : Nat) : Bool := bitOf (s.tableWord x t 0) 31

/-- KA of a table (R93). -/
def State.tableKa (s : State) (x : Str) (t : Nat) : Int := toSigned 32 (s.tableWord x t 1)

/-- A section descriptor (R93): type code, states, inputs, outputs, input and output signals, pool offsets. -/
structure Section where
  code : Nat
  n : Nat
  m : Nat
  p : Nat
  ins : List Nat
  outs : List Nat
  coef : Nat
  state : Nat
deriving DecidableEq, Repr

/-- Section `i` of a table: four words from offset 0x0100. -/
def State.sectionAt (s : State) (x : Str) (t i : Nat) : Section :=
  let w k := s.tableWord x t (64 + 4 * i + k)
  { code := bitsOf (w 0) 3 0, n := bitsOf (w 0) 6 4 + 1, m := bitsOf (w 0) 8 7 + 1, p := bitsOf (w 0) 9 9 + 1
    ins := (List.range 4).map fun k => bitsOf (w 1) (5 * k + 4) (5 * k)
    outs := (List.range 2).map fun k => bitsOf (w 2) (5 * k + 4) (5 * k)
    coef := bitsOf (w 3) 15 0, state := bitsOf (w 3) 31 16 }

/-- Cycles of a section (R91). -/
def Section.cycles (d : Section) : Nat :=
  match d.code with
  | 1 => 10
  | 2 | 6 => 6 + (d.n + d.p) * (d.n + d.m)
  | 3 => 2 + d.m
  | 4 => 2
  | 5 => 8
  | _ => 0

/-- Signals a section writes. -/
def Section.writes (d : Section) : List Nat :=
  match d.code with
  | 0 => []
  | 2 | 6 | 7 => d.outs.take d.p
  | _ => d.outs.take 1

/-- Sections of a table. -/
def State.sections (s : State) (x : Str) (t : Nat) : List Section :=
  (List.range (min 64 (bitsOf (s.tableWord x t 0) 6 0))).map fun i => s.sectionAt x t i

/-- Sections before END, and the optional tasks after it (R91). -/
def mandatory (l : List Section) : List Section := l.takeWhile fun d => d.code != 0
def optional (l : List Section) : List Section := (l.dropWhile fun d => d.code != 0).drop 1

/-- Mandatory cycle count of a chain (R92). -/
def mandatoryCycles (l : List Section) : Nat := 64 + ((mandatory l).map Section.cycles).sum

/-- The loader accepts a table (R92). A type code that R91 does not list is refused (log entry 17). -/
def State.tableAccepted (s : State) (x : Str) (t : Nat) : Bool :=
  let l := s.sections x t
  decide (mandatoryCycles l ≤ 1600)
    && decide (bitsOf (s.tableWord x t 0) 6 0 ≤ 64)
    && ((mandatory l).filter fun d => d.code == 6).length == 1
    && (mandatory l).all (fun d => d.code != 7)
    && l.all (fun d => decide (d.code ≤ 7) && d.writes.all fun k => decide (8 ≤ k))
    && decide (0 < s.tableKa x t)

/-- SCEx_CYC.MAND follows the table in force (R111). -/
def State.refreshCyc (s : State) (x : Str) : State :=
  s.wr .SCEx_CYC_MAND (min 2047 (mandatoryCycles (s.sections x (s.activeTable x)))) x.ix

/-- The loader's result for a table: VALID and the mandatory cycles in its header (log entry 17). -/
def State.tableLoad (s : State) (x : Str) (t : Nat) : State :=
  let count := bitsOf (s.tableWord x t 0) 6 0
  let ok := s.tableAccepted x t
  let head := if ok then count + mandatoryCycles (s.sections x t) * 128 + 2 ^ 31 else count
  let s := s.putTableWord x t 0 head
  s.when (t == s.activeTable x) fun s => s.refreshCyc x

/-! ### Running sections -/

/-- A chain in progress: the signals, the tables' states, whether anything saturated, the PRED output. -/
structure Chain where
  s : State
  sig : List Int
  sat : Bool
  pred : Int
deriving DecidableEq, Repr

/-- A 72-bit sum of products rounded to 16 fraction bits and saturated to 32 bits (R94). -/
def narrow (acc : Int) : Int := saturate 32 (roundDiv acc (2 ^ 28))

/-- That narrowing saturates. -/
def narrowSat (acc : Int) : Bool := saturate 32 (roundDiv acc (2 ^ 28)) != roundDiv acc (2 ^ 28)

/-- Coefficient `k` of a section. -/
def Chain.coef (c : Chain) (x : Str) (t : Nat) (d : Section) (k : Nat) : Int :=
  toSigned 32 (c.s.tableWord x t (0x200 + d.coef + k))

/-- State `k` of a section. -/
def Chain.st (c : Chain) (x : Str) (t : Nat) (d : Section) (k : Nat) : Int :=
  toSigned 32 (c.s.tableWord x t (0x3000 + d.state + k))

/-- State `k` of a section written from a sum of products. -/
def Chain.putSt (c : Chain) (x : Str) (t : Nat) (d : Section) (k : Nat) (acc : Int) : Chain :=
  { c with s := c.s.putTableWord x t (0x3000 + d.state + k) (ofSigned 32 (narrow acc)), sat := c.sat || narrowSat acc }

/-- Output `k` of a section written from a sum of products. -/
def Chain.putOut (c : Chain) (d : Section) (k : Nat) (acc : Int) : Chain :=
  { c with sig := c.sig.set (d.outs.getD k 0) (narrow acc), sat := c.sat || narrowSat acc }

/-- Input `k` of a section. -/
def Chain.input (c : Chain) (d : Section) (k : Nat) : Int := c.sig.getD (d.ins.getD k 0) 0

/-- BIQ: transposed direct form II; the feedback takes the output as written. -/
def Chain.biq (c : Chain) (x : Str) (t : Nat) (d : Section) : Chain :=
  let q k := c.coef x t d k
  let u := c.input d 0
  let out := q 0 * u + c.st x t d 0 * 2 ^ 28
  let y := narrow out
  let z2 := c.st x t d 1
  ((c.putOut d 0 out).putSt x t d 0 (q 1 * u - q 3 * y + z2 * 2 ^ 28)).putSt x t d 1 (q 2 * u - q 4 * y)

/-- SS and PRED: x ← Ax + Bu, y = Cx + Du, both from the states before the section (log entry 18). -/
def Chain.ss (c : Chain) (x : Str) (t : Nat) (d : Section) : Chain :=
  let us := (List.range d.m).map fun k => c.input d k
  let xs := (List.range d.n).map fun k => c.st x t d k
  let row (base : Nat) (v : List Int) : Int := ((List.range v.length).map fun k => c.coef x t d (base + k) * v.getD k 0).sum
  let b := d.n * d.n
  let cc := b + d.n * d.m
  let dd := cc + d.p * d.n
  let c' := (List.range d.p).foldl (fun r i => r.putOut d i (row (cc + i * d.n) xs + row (dd + i * d.m) us)) c
  (List.range d.n).foldl (fun r i => r.putSt x t d i (row (i * d.n) xs + row (b + i * d.m) us)) c'

/-- GAIN: weighted sum. -/
def Chain.gain (c : Chain) (x : Str) (t : Nat) (d : Section) : Chain :=
  c.putOut d 0 ((List.range d.m).map fun k => c.coef x t d k * c.input d k).sum

/-- LIM: clamp between two coefficients. -/
def Chain.lim (c : Chain) (x : Str) (t : Nat) (d : Section) : Chain :=
  let at' k := roundDiv (c.coef x t d k) (2 ^ 12)
  { c with sig := c.sig.set (d.outs.getD 0 0) (clampInt (at' 0) (at' 1) (c.input d 0)) }

/-- LUT: linear interpolation between two of the 64 entries that stand in the coefficient pool (log entry 18). -/
def Chain.lut (c : Chain) (x : Str) (t : Nat) (d : Section) : Chain :=
  let (k, frac) := Config.lutPlace (c.input d 0)
  let k := k % 64
  let a := c.coef x t d k
  let b := c.coef x t d (min 63 (k + 1))
  c.putOut d 0 (65536 * a + (b - a) * (frac % 65536 : Nat))

/-- XFER: up to 16 words between successive signals, from its first input or output on, and Bridge SRAM or LPDDR5X (log entry
18). -/
def Chain.xfer (c : Chain) (d : Section) : Chain :=
  let (out, ddr, place, count) := Config.xfer ([d.n, d.m, d.p, d.coef, d.state] ++ d.ins ++ d.outs)
  let a := if ddr then 0x800000000 + place * 4 % max 4 (c.s.bridge.usable * 4096) else 0x100000000 + place * 4 % 0xC00000
  let m : MemRegion := if ddr then .lpddr else .sram ((a - 0x100000000) / 0x200000)
  let first := if out then d.ins.getD 0 0 else d.outs.getD 0 0
  (List.range (min 16 count)).foldl (fun c k =>
    let b := a + 4 * k
    if 32 ≤ first + k then c
    else if out then
      { c with s := (c.s.writeMem m b (ofSigned 32 (c.sig.getD (first + k) 0)) 4).wordWritten m b false }
    else
      let (v, s) := c.s.readMem m b 4
      { c with s, sig := c.sig.set (first + k) (toSigned 32 v) }) c

/-- One section. -/
def Chain.run (x : Str) (t : Nat) (c : Chain) (d : Section) : Chain :=
  match d.code with
  | 1 => c.biq x t d
  | 2 => c.ss x t d
  | 3 => c.gain x t d
  | 4 => c.lim x t d
  | 5 => c.lut x t d
  | 6 => let c := c.ss x t d
         { c with pred := c.sig.getD (d.outs.getD 0 0) 0 }
  | 7 => c.xfer d
  | _ => c

/-- The mandatory chain of a Fret: the sections before END of the table in force. -/
def State.runChain (s : State) (x : Str) (sig : List Int) (pred : Int) : Chain :=
  let t := s.activeTable x
  (mandatory (s.sections x t)).foldl (Chain.run x t) { s, sig, sat := false, pred }

/-- The optional tasks of the table in force: they run only while OPT_EN = 1 and no fallback law is in force (R96). -/
def State.optionalTasks (s : State) (x : Str) : List Section :=
  let t := s.activeTable x
  if s.isSet .SCEx_CTRL_OPT_EN x.ix && t != 2 then optional (s.sections x t) else []

/-- The first `n` optional tasks run on the signals of the String, and the cycles they took are counted in PEAK (R96, R111).
The time of an XFER is not stated: it counts none (log entry 18). -/
def State.runOptional (s : State) (x : Str) (n : Nat) : State :=
  let t := s.activeTable x
  let l := (s.optionalTasks x).take n
  let c := (s.str.get x).sce
  let r := l.foldl (Chain.run x t) { s, sig := c.sig, sat := false, pred := c.pred }
  let cyc := mandatoryCycles (s.sections x t) + (l.map Section.cycles).sum
  let s := (r.s.modSce x fun c => { c with sig := r.sig }).when r.sat fun s => s.flag .SCEx_STAT_SAT_INT x.ix
  s.wr .SCEx_CYC_PEAK (max (min 4095 cyc) (s.rd .SCEx_CYC_PEAK x.ix)) x.ix

end Sys2Proof.Machine
end

