-- ==== Sys2Proof/Machine/Capo.lean ====
section
/-! DEFINITION. Machine/Capo.lean: the Fret timing block (R51 to R55) and the Capo unit (R56 to R65, R497, R504). -/
namespace Sys2Proof.Machine

/-! ### Inter-String skew -/

/-- Skew of String `x` as one number of 1/65,536 Fret: WEDGE and FRAC together (R52). -/
def State.skewOf (s : State) (x : Str) : Nat :=
  s.rd .FRET_SKEW_WEDGE x.num * 65536 + s.rd .FRET_SKEW_FRAC x.num

/-- One revolution in 1/65,536 Fret. -/
def revUnits : Nat := 480 * 65536

/-- FRET_SKEWx and FRET_SKEWNSx of a String published (R52, R55); whole nanoseconds are cut off (log entry 51). -/
def State.publishSkew (s : State) (x : Str) (v : Nat) : State :=
  let v := v % revUnits
  ((s.wr .FRET_SKEW_WEDGE (v / 65536) x.num).wr .FRET_SKEW_FRAC (v % 65536) x.num).wr .FRET_SKEWNS_NS
    ((v % 65536) * s.fretPs / 65536 / 1000) x.num

/-- FRET_SKEWNSA–D are recomputed every Fret (R55). -/
def State.refreshSkewNs (s : State) : State :=
  Str.all.foldl (fun s x => s.onStr x fun s => s.wr .FRET_SKEWNS_NS (s.rd .FRET_SKEW_FRAC x.num * s.fretPs / 65536 / 1000) x.num) s

/-- At the SAM of wedge 0 of a new reference, all skews and the running averages are expressed anew relative to it, and the
place held on the frame edge too, with the frame wedge nearest it (R51, R52, R63). -/
def State.republish (s : State) (r : Str) : State :=
  let base := s.skewOf r
  let turn (v : Nat) : Nat := (v + revUnits - base) % revUnits
  let s := Str.all.foldl (fun s x => s.onStr x fun s =>
    (s.publishSkew x (turn (s.skewOf x))).modSkew x fun k => { k with base := turn k.base }) s
  let p := turn s.capo.lockPoint
  let s : State := { s with fret := { s.fret with republish := false }, capo := { s.capo with lockPoint := p } }
  s.when s.capo.phaseStage fun s => s.wr .CAPO_PHASE_WEDGE ((p + 32768) / 65536 % 480)

/-- The difference of two positions on the revolution, taken the short way round (log entry 51). -/
def shortWay (a b : Nat) : Int :=
  let d := (a + revUnits - b) % revUnits
  if d ≤ revUnits / 2 then (d : Int) else (d : Int) - (revUnits : Int)

/-- A SAM of wedge 0 of String `x` at time `t`: one more revolution of its skew average (R52), in units that are cut to whole
ones (log entry 51). Until the skews are republished, a sample taken against the new reference is expressed against the old
one, as the average it joins is. -/
def State.skewSample (s : State) (x : Str) (t : Nat) : State :=
  let s := s.modSkew x fun k => { k with wedge0 := t, haveWedge0 := true }
  match s.reference with
  | none => s
  | some r =>
    let s := s.when (r == x && s.fret.republish) fun s => s.republish r
    let ref := (s.str.get r).skew
    if s.fretTicks = 0 || !ref.haveWedge0 then s
    else
      let here := (t - ref.wedge0) * 65536 / s.fretTicks
      let here := (if s.fret.republish then here + s.skewOf r else here) % revUnits
      s.modSkew x fun k =>
        if k.revs = 0 then { k with base := here, sum := 0, revs := 1 }
        else { k with sum := k.sum + shortWay here k.base, revs := k.revs + 1 }

/-- SKEW_AVERAGE_END (R52, R53, R51): a complete average of 64 revolutions, rounded to a whole unit (log entry 51), is
published. An update that differs from the value before it by more than DRIFT_TOL sets DRIFT. A String lettered below the reference that has held synchronisation throughout its
average becomes the reference. -/
def State.skewAverageEnd (s : State) (x : Str) : State :=
  let k := (s.str.get x).skew
  if k.revs < 64 || !s.synced x then s
  else
    let mean := (((k.base : Int) + roundDiv k.sum 64) % (revUnits : Int)).toNat
    let drift := (shortWay mean (s.skewOf x)).natAbs
    let s := s.when (decide (s.rd .FRET_CTRL_DRIFT_TOL < drift)) fun s => s.flagBit .FRET_STAT_DRIFT x.num
    let s := ((s.publishSkew x mean).flagBit .FRET_STAT_VALID x.num).modSkew x fun k => { k with revs := 0, sum := 0 }
    match s.reference with
    | some r => s.when (decide (x.num < r.num) && k.held) fun s => s.setReference (some x)
    | none => s.setReference (some x)

/-- Bit n of REMEAS discards String n's average and restarts it; VALID clears (R55). -/
def State.remeasure (s : State) (mask : Nat) : State :=
  Str.all.foldl (fun s x => s.when (mask.testBit x.num && s.present x) fun s =>
    (s.modSkew x fun k => { k with revs := 0, sum := 0, held := s.synced x }).unflagBit .FRET_STAT_VALID x.num) s

def execSkewAverageEnd (x : Str) (s : State) : Host.Outcome State Fault Refusal :=
  .next (s.onStr x fun s => s.skewAverageEnd x)

def execRemeas (mask : Nat) (s : State) : Host.Outcome State Fault Refusal := .next (s.remeasure mask)

/-! ### Reference, ratio and frame -/

/-- Target revolution rate in µHz from `count` reference periods that lasted `sum` ticks of 1.25 ns, rounded to
nearest (R57; log entry 7). -/
def targetUhz (count sum m n : Nat) : Nat :=
  if sum = 0 then 0 else (2 * (count * 800000000000000 * m) + sum * n) / (2 * (sum * n))

/-- The measured target lies in 110 Hz to 130 Hz (R57). -/
def targetInRange (uhz : Nat) : Bool := decide (110000000 ≤ uhz) && decide (uhz ≤ 130000000)

/-- The target averaged over the last four reference periods (R504). -/
def State.capoMeasured (s : State) : Nat :=
  let p := s.capo.periods.take 4
  targetUhz p.length p.sum s.capoM s.capoN

/-- Capo states (R65). -/
def State.capoState (s : State) : Nat := s.rd .CAPO_STAT_STATE

/-- CAPO_STAT.STATE and SLEW. -/
def State.setCapoState (s : State) (st : Nat) : State :=
  (s.wr .CAPO_STAT_STATE st).setTo .CAPO_STAT_SLEW (st == 2)

/-- Frame deadlines count while LOCKED, or in HOLDOVER entered directly from LOCKED (R64). -/
def State.capoCounting (s : State) : Bool :=
  s.capoState == 3 || (s.capoState == 4 && s.capo.fromLocked)

/-- The hidden state of Capo changed by `f`. -/
def State.modCapo (s : State) (f : Capo → Capo) : State := { s with capo := f s.capo }

/-- A measurement starts (R62). -/
def State.restartMeasure (s : State) : State :=
  s.modCapo fun c => { c with measSum := 0, measCount := 0, periods := [] }

/-- The set-point reached is written into SPE_SETPT (R76): the last write of it, so that none from before waits (R10). -/
def State.loadSetpt (s : State) : State :=
  (s.shadowDrop .SPE_SETPT_RPM).wr .SPE_SETPT_RPM (s.capo.v / 125000).toNat

/-- Capo leaves a counting state, or was not in one: deadlines stay or become suspended (R64). -/
def State.enterCapo (s : State) (st : Nat) : State :=
  let was := s.capoCounting
  let s := s.setCapoState st
  s.when (was && !s.capoCounting) State.suspendDeadlines

/-- DISARM (R62): to OFF. The phase offset becomes 0, the generator brings the acceleration to zero and holds the
speed reached, and the Capo write inhibit is released when the acceleration is zero. -/
def State.capoDisarm (s : State) : State :=
  s.when (s.capoState != 0) fun s =>
    let s := (s.enterCapo 0).modCapo fun c => { c with offset := 0, coasting := true, phaseStage := false, lockFrames := 0 }
    let s := s.loadSetpt
    s.when (s.capo.a == 0) fun s => ({ s with capo := { s.capo with coasting := false } } : State).capoReleaseAll

/-- The SPE reports a fault or observer loss (R62): to OFF, SPE_FAULT set, the Capo write inhibit released; the set-point
reached goes into SPE_SETPT (R76). -/
def State.capoSpeFault (s : State) : State :=
  s.when (s.capoState != 0) fun s =>
    let s := (s.enterCapo 0).modCapo fun c =>
      { c with offset := 0, a := 0, coasting := false, phaseStage := false, lockFrames := 0 }
    (s.loadSetpt.flag .CAPO_STAT_SPE_FAULT).capoReleaseAll

/-- ARM (R62, R57): what it answers and the state after it. -/
def State.capoArm (s : State) : CStat × State :=
  if s.capoState != 0 then (.cfgLocked, s.flag .CAPO_STAT_CFG_LOCKED)
  else if !s.isSet .SPE_STAT_ATSPD then (.notReady, s)
  else if s.rd .CAPO_CTRL_SRC ≥ 2 || (wedgesPerFrame s.capoM s.capoN s.capoFdiv).isNone then (.cfgRange, s)
  else
    let s := ((s.setCapoState 1).wr .CAPO_FRAMECNT_COUNT 0).wr .CAPO_GLITCHCNT_COUNT 0
    let s := s.restartMeasure.modCapo fun c =>
      { c with haveEdge := false, refPeriod := 0, framed := false, frameRef := 0, predictedFrames := 0, wedges := 0, offset := 0
               lockFrames := 0, phaseStage := false, fromLocked := false
               v := if c.coasting then c.v else (s.spe.ramped : Int) }
    (.ok, s.wr .CAPO_SETPT_UHZ (s.capo.v / 60).toNat)

/-! ### Edges and frames -/

/-- Phase error against a frame edge at `t`, ns, saturated to 16 bits (R65): of the frame wedge's SAM of the String that the
frame wedge was chosen on, which a reference chosen since stands for through its skew (R63). -/
def State.phaseError (s : State) (t : Nat) : Int :=
  match s.reference with
  | none => 0
  | some r =>
    let d := (s.str.get r).svd
    let p := if s.fret.republish then s.capo.lockPoint + revUnits - s.skewOf r else s.capo.lockPoint
    let ahead := shortWay (p % revUnits) (s.rd .SVDx_STAT_WEDGE r.ix * 65536)
    saturate 16 (((d.lastSam : Int) + ahead * (s.fretTicks : Int) / 65536 - (t : Int)) * 5 / 4)

/-- A frame edge at `t` (R497): CAPO_FRAMECNT advances; counted deadlines advance (R64); with a frame wedge chosen the
phase error is measured and the lock count goes on or restarts (R62). -/
def State.frameEdge (s : State) (t : Nat) : State :=
  let s := (s.wrapInc .CAPO_FRAMECNT_COUNT).modCapo fun c => { c with frameTime := t, framed := true, wedges := 0 }
  let s := s.when s.capoCounting State.countFrame
  s.when (s.capo.phaseStage) fun s =>
    let e := s.phaseError t
    let s := s.wr .CAPO_PHASE_ERR (ofSigned 16 e)
    s.when (s.capoState == 2) fun s =>
      s.modCapo fun c => { c with lockFrames := if e.natAbs ≤ 500 then c.lockFrames + 1 else 0 }

/-- Capo enters SLEWING (R61, R62): the Capo write inhibit is asserted to every String, deadlines are suspended, and the
generator targets the target in force. -/
def State.enterSlewing (s : State) : State :=
  ((s.enterCapo 2).capoInhibitAll).modCapo fun c =>
    { c with lockFrames := 0, phaseStage := false, fromLocked := false, coasting := false, releasing := false }

/-- Capo leaves LOCKED for HOLDOVER: the speed is held, writes and frames go on (R62, R64). -/
def State.holdLocked (s : State) (why : Reg) : State :=
  ({ s.flag why with capo := { s.capo with fromLocked := true } } : State).setCapoState 4

/-- A written ratio reaches its boundary (R62, R57): it is discarded with RATIO_REJ if W would not be an integer;
otherwise it is in force, and the state answers it. In LOCKED an equal ratio changes no target, and a target out of range
goes to HOLDOVER, whose row stands higher. -/
def State.ratioBoundary (s : State) : State :=
  if (s.shadowOf .CAPO_RATIO_M1).isNone && (s.shadowOf .CAPO_RATIO_N1).isNone then s
  else
    let m := s.coming .CAPO_RATIO_M1 + 1
    let n := s.coming .CAPO_RATIO_N1 + 1
    if (wedgesPerFrame m n s.capoFdiv).isNone then
      ((s.shadowDrop .CAPO_RATIO_M1).shadowDrop .CAPO_RATIO_N1).flag .CAPO_STAT_RATIO_REJ
    else
      let same := m * s.capoN == n * s.capoM
      let s := s.boundary .capo 0
      let new := s.capoMeasured
      match s.capoState with
      | 1 => s.restartMeasure
      | 3 =>
        if same then s
        else if targetInRange new then (s.wr .CAPO_TARGET_UHZ new).enterSlewing
        else s.holdLocked .CAPO_STAT_RANGE
      | _ => s

/-- In SLEWING a qualified edge compares the measured target with the one in force (R504): above 10 ppm it is a change of
target. The lock count restarts; the phase-lock stage is left and its frame wedge chosen again (log entry 51). -/
def State.compareTarget (s : State) : State :=
  let measured := s.capoMeasured
  let target := s.rd .CAPO_TARGET_UHZ
  let differs := decide (target < ((measured : Int) - (target : Int)).natAbs * 100000)
  s.when (s.capoState == 2 && s.capo.periods.length == 4 && targetInRange measured && differs) fun s =>
    (s.wr .CAPO_TARGET_UHZ measured).modCapo fun c => { c with lockFrames := 0, phaseStage := false }

/-- A reference edge at `t` (R58): ignored as a glitch when it deviates from its predicted time by more than 5 % of the
reference period, else qualified. A qualified edge ends HOLDOVER when the target is in range, is a boundary of the
ratio, and gives the frame edges it brings. The first after a loss has no prediction, and is neither a frame edge nor
counted toward FDIV (log entry 51). -/
def State.capoEdge (s : State) (t : Nat) : State :=
  if s.capoState = 0 then s
  else
    let c := s.capo
    let p := c.refPeriod
    let gap := t - c.lastEdge
    if !c.haveEdge then
      let s := s.modCapo fun c => { c with haveEdge := true, lastEdge := t }
      let s := s.when (!c.framed) fun s => s.frameEdge t
      s.ratioBoundary
    else
      let k := if p = 0 then 1 else max 1 ((2 * gap + p) / (2 * p))
      let off := ((gap : Int) - (k * p : Nat)).natAbs
      if p ≠ 0 && decide (p < off * 20) then (s.flag .CAPO_STAT_GLITCH).bump .CAPO_GLITCHCNT_COUNT
      else
        let total := c.frameRef + k
        let due := total / s.capoFdiv - c.predictedFrames
        let s := s.modCapo fun c =>
          { c with lastEdge := t, refPeriod := gap / k, periods := (gap / k :: c.periods).take 4
                   measSum := c.measSum + gap, measCount := c.measCount + k
                   frameRef := total % s.capoFdiv, predictedFrames := 0 }
        let s := s.wr .CAPO_REF_PERIOD (gap / k)
        let s := s.when (s.capoState != 4) fun s => (List.range due).foldl (fun s _ => s.frameEdge t) s
        let s := s.ratioBoundary.compareTarget
        s.when (s.capoState == 4 && targetInRange s.capoMeasured) fun s =>
          ((s.enterCapo 1).restartMeasure).modCapo fun c => { c with fromLocked := false }

/-- The comparator of CAPO_AIN (R56, R65): an edge of the input from one level to another, mV, crosses the threshold, and the
lower end of the hysteresis below it (log entry 51). CAPO_IN is a pulse input: every edge of it counts. -/
def State.capoCrosses (s : State) (ain : Bool) (before after : Nat) : Bool :=
  let high := 100 + 25 * s.rd .CAPO_AIN_CFG_THRESH
  let low := high - [0, 25, 50, 100].getD (s.rd .CAPO_AIN_CFG_HYST) 0
  before != after && (!ain || (decide (min before after ≤ low) && decide (high ≤ max before after)))

/-- An edge on one of the two inputs at `t` (R56): it is a reference edge on the input that SRC selects, in the direction
that EDGE qualifies. -/
def State.capoInput (s : State) (e : InputEdge) : State :=
  let falls := decide (e.after < e.before)
  s.when (s.rd .CAPO_CTRL_SRC == boolNat e.ain && s.isSet .CAPO_CTRL_EDGE == falls && s.capoCrosses e.ain e.before e.after) fun s =>
    s.capoEdge e.time

/-- PREDICTED_FRAME_EDGE (R497): a frame edge at the predicted time of a missing edge, until four in a row have been missed;
in HOLDOVER, at the SAM of the reference String that ends W wedges since the last frame edge. -/
def State.capoPredicted (s : State) (time : Nat) : State :=
  let c := s.capo
  if s.capoState = 0 then s
  else if s.capoState = 4 then
    match s.reference with
    | none => s
    | some r =>
      let t := (s.str.get r).svd.lastSam
      s.when (time == t && decide (0 < s.capoW) && decide (s.capoW ≤ c.wedges)) fun s => s.frameEdge t
  else
    let n := s.capoFdiv * (c.predictedFrames + 1) - c.frameRef
    let t := c.lastEdge + n * c.refPeriod
    s.when (time == t && c.haveEdge && c.refPeriod != 0 && decide (n ≤ 4)) fun s =>
      ((s.at t).modCapo fun c => { c with predictedFrames := c.predictedFrames + 1 }).frameEdge t

/-- REFERENCE_LOST (R58, R62): 4.05 reference periods after the last qualified edge, at the close of the window of the fourth
predicted edge. The next edge has no prediction. -/
def State.capoLost (s : State) : State :=
  let c := s.capo
  if s.capoState = 0 || s.capoState = 4 || !c.haveEdge || c.refPeriod = 0 then s
  else
    let st := s.capoState
    let s := (s.at (c.lastEdge + 81 * c.refPeriod / 20)).modCapo fun c =>
      { c with haveEdge := false, refPeriod := 0, frameRef := 0, predictedFrames := 0 }
    match st with
    | 1 => (s.flag .CAPO_STAT_LOSS).restartMeasure
    | 2 => (((s.flag .CAPO_STAT_LOSS).enterCapo 4).restartMeasure).modCapo fun c =>
        { c with fromLocked := false, coasting := true, phaseStage := false, lockFrames := 0 }
    | _ => (s.holdLocked .CAPO_STAT_LOSS).restartMeasure

/-- The end of a measurement: 4 reference periods or 10 ms, whichever is longer (R62). -/
def State.capoMeasureDone (s : State) : State :=
  let c := s.capo
  if s.capoState ≠ 1 || c.measCount < 4 || c.measSum < 8000000 then s
  else
    let t := targetUhz c.measCount c.measSum s.capoM s.capoN
    let s := (s.wr .CAPO_REF_PERIOD ((2 * c.measSum + c.measCount) / (2 * c.measCount))).restartMeasure
    if targetInRange t then (s.wr .CAPO_TARGET_UHZ t).enterSlewing
    else s.flag .CAPO_STAT_RANGE

/-! ### The set-point generator (R59), in µrpm and units of 0.04 rpm/s -/

/-- One step of the generator toward `target` (R59). -/
def generatorStep (target v a : Int) : Int × Int :=
  let t := clampInt 6600000000 7800000000 target
  let vs := v + 20 * a * (a.natAbs : Int) + 40 * a
  let goal : Int := if t - vs > 1000 then 500 else if t - vs < -1000 then -500 else 0
  let a1 := a + clampInt (-1) 1 (goal - a)
  let a2 := if a1 * a < 0 then 0 else a1
  let v2 := v + 40 * a2
  if (t - v2).natAbs ≤ 1000 && a2.natAbs ≤ 1 then (t, 0) else (v2, a2)

/-- One step that brings the acceleration to zero, and holds the speed once it is (R62). -/
def generatorCoast (v a : Int) : Int × Int :=
  let a1 := a + clampInt (-1) 1 (-a)
  (v + 40 * a1, a1)

/-- Bound of the phase offset, µrpm: ±0.5 rpm while SLEWING, ±0.05 rpm while LOCKED (R59). -/
def offsetBound (st : Nat) : Int := if st = 2 then 500000 else if st = 3 then 50000 else 0

/-- The state event of one generator step, highest row first (R62). -/
def State.capoStepEvent (s : State) (tracking : Int) : State :=
  let measured := s.capoMeasured
  let target := s.rd .CAPO_TARGET_UHZ
  let out := s.capo.periods.length == 4 && !targetInRange measured
  match s.capoState with
  | 2 =>
    if out then
      ((s.flag .CAPO_STAT_RANGE).enterCapo 4).modCapo fun c =>
        { c with fromLocked := false, coasting := true, phaseStage := false, lockFrames := 0 }
    else
      s.when (!s.capo.phaseStage && s.capo.v == 60 * (target : Int) && s.reference.isSome) fun s =>
        match s.reference with
        | none => s
        | some r =>
          let d := (s.str.get r).svd
          let n := roundDiv ((s.capo.frameTime : Int) - (d.lastSam : Int)) (max 1 s.fretTicks)
          let w := (((s.rd .SVDx_STAT_WEDGE r.ix : Int) + n) % 480).toNat
          let p := if s.fret.republish then w * 65536 + s.skewOf r else w * 65536
          (s.wr .CAPO_PHASE_WEDGE w).modCapo fun c => { c with phaseStage := true, lockFrames := 0, lockPoint := p % revUnits }
  | 3 =>
    if out then s.holdLocked .CAPO_STAT_RANGE
    else if decide (500 < tracking.natAbs) || decide (2000 < (toSigned 16 (s.rd .CAPO_PHASE_ERR)).natAbs) then
      s.enterSlewing
    else s
  | _ => s

/-- CAPO_GENERATOR_STEP (R59, R62): the generator advances by 1 ms. `offset` is what the phase loop adds, whose gain the
spec does not give: it is held to the bounds of R59 (log entry 8). -/
def State.capoStep (s : State) (offset tracking : Int) : State :=
  let s := s.capoStepEvent tracking
  let st := s.capoState
  let b := offsetBound st
  let off := clampInt (-b) b offset
  let c := s.capo
  let (v, a) :=
    if !c.coasting && (st = 2 || st = 3) then generatorStep (60 * (s.rd .CAPO_TARGET_UHZ : Int) + off) c.v c.a
    else generatorCoast c.v c.a
  let done := c.coasting && a == 0
  let s := s.modCapo fun c => { c with v, a, offset := off, coasting := c.coasting && !done }
  let s := s.when (st != 0 || c.coasting) fun s => s.wr .CAPO_SETPT_UHZ (v / 60).toNat
  let s := s.when (st == 0 && c.coasting) State.loadSetpt
  s.when (done && st != 2) State.capoReleaseAll

/-- CAPO_LOCK (R62, R61, R287): eight consecutive frames within ±0.5 µs enter LOCKED. Each String's Capo write inhibit is
released at its first wedge boundary afterwards; deadlines are re-armed. -/
def State.capoLocked (s : State) : State :=
  s.when (s.capoState == 2 && s.capo.phaseStage && decide (8 ≤ s.capo.lockFrames)) fun s =>
    let w := s.capoW
    let rate := s.rd .CAPO_TARGET_UHZ
    let changed := s.capo.lockedW != w || s.capo.lockedUhz != rate
    let s := (s.setCapoState 3).modCapo fun c => { c with lockedW := w, lockedUhz := rate, releasing := true }
    s.resumeDeadlines changed

/-- CAPO_HOLD.MS has elapsed in HOLDOVER (R62). -/
def State.capoHoldover (s : State) : State :=
  s.when (s.capoState == 4) fun s => ((s.enterCapo 1).restartMeasure).modCapo fun c => { c with fromLocked := false }

def execCapoCtrlArm (s : State) : Host.Outcome State Fault Refusal := .next s.capoArm.2

def execCapoCtrlDisarm (s : State) : Host.Outcome State Fault Refusal := .next s.capoDisarm

def execCapoReferenceEdge (edge : InputEdge) (s : State) : Host.Outcome State Fault Refusal :=
  .next ((s.at edge.time).capoInput edge)

def execPredictedFrameEdge (time : Nat) (s : State) : Host.Outcome State Fault Refusal := .next (s.capoPredicted time)

def execReferenceLost (s : State) : Host.Outcome State Fault Refusal := .next s.capoLost

def execMeasureComplete (s : State) : Host.Outcome State Fault Refusal := .next s.capoMeasureDone

def execCapoGeneratorStep (offset tracking : Int) (s : State) : Host.Outcome State Fault Refusal :=
  .next (s.capoStep offset tracking)

def execCapoLock (s : State) : Host.Outcome State Fault Refusal := .next s.capoLocked

def execHoldoverTimeout (s : State) : Host.Outcome State Fault Refusal := .next s.capoHoldover

end Sys2Proof.Machine
end

