-- ==== Sys2Proof/Machine/Spindle.lean ====
section
/-! DEFINITION. Machine/Spindle.lean: the SPE (R66 to R89, R498). Currents are in mA, voltages in mV or µV, powers in
nW, speeds in 0.001 rpm. The gains of the loops stand in a coefficient table whose form the spec does not give: what
they compute from it is a free value held to the limits the rules state (log entry 9). -/
namespace Sys2Proof.Machine

/-- The hidden state of the SPE changed by `f`. -/
def State.modSpe (s : State) (f : Spe → Spe) : State := { s with spe := f s.spe }

/-- SPE states (R88): 0 OFF, 1 MEASURE, 2 BRAKE, 3 ALIGN, 4 RAMP, 5 RUN, 6 REACQ, 7 COAST, 8 KEHOLD, 9 HARVEST,
10 FAULT. -/
def State.speState (s : State) : Nat := s.rd .SPE_STAT_STATE

/-- SPE_STAT.STATE; ATSPD is clear in every state other than RUN (R87), the tick is extrapolated in REACQ alone (R75); the
device mode follows (R430). -/
def State.setSpeState (s : State) (st : Nat) : State :=
  (((s.wr .SPE_STAT_STATE st).setTo .SPE_STAT_TICKPRED (st == 6)).when (st != 5) fun s => s.unflag .SPE_STAT_ATSPD).refreshMode

/-! ### The rotor frame (R71, R73) -/

/-- Id and Iq of three phase currents at an electrical angle, in amplitude-invariant form, rounded to whole mA (R88; log entry
52). -/
def rotorFrame (iu iv iw : Int) (angle : Nat) : Int × Int :=
  (roundDiv (2 * (iu * cosDeg angle + iv * cosDeg (angle + 240) + iw * cosDeg (angle + 120))) 98304,
   roundDiv (-(2 * (iu * sinDeg angle + iv * sinDeg (angle + 240) + iw * sinDeg (angle + 120)))) 98304)

/-- Current of phase `k` (0 U, 1 V, 2 W) of Id and Iq at an electrical angle, times 32,768. -/
def phaseCurrent (id iq : Int) (angle k : Nat) : Int :=
  id * cosDeg (angle + 240 * k) - iq * sinDeg (angle + 240 * k)

/-- The phase whose current is nearest zero (R83). -/
def nearestZero (id iq : Int) (angle : Nat) : Nat :=
  let m (k : Nat) : Nat := (phaseCurrent id iq angle k).natAbs
  if m 0 ≤ m 1 && m 0 ≤ m 2 then 0 else if m 1 ≤ m 2 then 1 else 2

/-- The words of the coefficient table. -/
def State.speCoef (s : State) : List Nat := (List.range 1024).map fun k => s.rd .SPE_COEF_COEF k

/-- Observer speed, signed, 0.001 rpm. -/
def State.mrpm (s : State) : Int := toSigned 32 (s.rd .SPE_SPEED_MRPM)

/-- A measurement starts: all six gates off for 2 ms (R77). -/
def State.speMeasure (s : State) : State :=
  (s.setSpeState 1).modSpe fun e => { e with bridge := .off, sampling := false, residHold := false, locked := false, catching := none }

/-- SPE OFF: gates off, the rotor coasts (R86). -/
def State.speOff (s : State) : State :=
  (s.setSpeState 0).modSpe fun e =>
    { e with bridge := .off, toRest := false, restHold := false, stopPending := false, floated := false, locked := false
             catching := none, idCmd := 0, iqCmd := 0 }

/-- STOP acted on with no heads loaded (R86). -/
def State.speStopAct (s : State) : State :=
  if s.isSet .SPE_CTRL_STOPMODE then
    (s.setSpeState 2).modSpe fun e => { e with toRest := true, restHold := false, stopPending := false, bridge := .driven }
  else s.speOff

/-- STOP (R86). -/
def State.speStopOp (s : State) : State :=
  match s.speState with
  | 0 | 9 => s
  | 10 => s.speOff
  | _ =>
    if Str.all.any s.loaded then (s.modSpe fun e => { e with stopPending := true }).retractAllBySpe
    else s.speStopAct

/-- The SPE has entered FAULT or KEHOLD: from Spin-up the device goes to Standby and the Bureau writes STOP (R430). -/
def State.spinFailed (s : State) (st : Nat) : State :=
  let spinUp := s.mode == 2 && s.power.loss.isNone && !s.power.standbyDue
  let s := s.setSpeState st
  s.when spinUp State.speStopOp

/-- SPE FAULT: gates off, spindle write inhibit asserted, a safe retract at FLY_PCT (R86); Capo leaves to OFF (R62). -/
def State.speFault (s : State) : State :=
  let s := s.modSpe fun e =>
    { e with bridge := .off, flyAsked := false, releasing := false, stopPending := false, locked := false, catching := none, idCmd := 0, iqCmd := 0 }
  (s.spindleInhibitAll.capoSpeFault).spinFailed 10

/-- A start attempt fails: measure again; the third failure since START enters FAULT with START_FAIL (R81). -/
def State.speAttemptFailed (s : State) : State :=
  let n := s.spe.attempts + 1
  let s := s.modSpe fun e => { e with attempts := n, rejects := 0 }
  if 3 ≤ n then (s.flag .SPE_STAT_START_FAIL).speFault else s.speMeasure

/-- START (R86, R88, R425): what it answers and the state after it. -/
def State.speStartOp (s : State) : CStat × State :=
  match s.speState with
  | 0 =>
    let p := s.rd .SPE_MOTOR_POLEPAIRS
    if p = 0 || p > 8 then (.cfgRange, s)
    else if !s.spe.vmCharged || s.bench.halted.contains 32 then (.notReady, s)
    else
      let s := (s.wr .SPE_SKIPCNT_COUNT 0).unflag .SPE_KE_VALID
      (.ok, (s.modSpe fun e => { e with attempts := 0, rejects := 0, stopPending := false, toRest := false
                                        restHold := false, keSum := 0, keCount := 0, skips := 0, goods := 0 }).speMeasure)
  | 10 => (.notReady, s)
  | _ => (.ok, s)

/-- All Strings report heads parked: a STOP that waits is acted on (R86). -/
def State.speHeadsParked (s : State) : State :=
  s.when (s.spe.stopPending && !Str.all.any s.loaded) State.speStopAct

/-- The measured back-EMF constant lies within ±12 % of KE_NOM (R82). -/
def keWithin (ke nom : Nat) : Bool := decide (((ke : Int) - (nom : Int)).natAbs * 100 ≤ nom * 12)

/-- The back-EMF constant has been measured (R82): outside ±12 % of KE_NOM sets KE_MISMATCH and enters KEHOLD. -/
def State.keMeasured (s : State) (ke : Nat) : State :=
  let s := (s.wr .SPE_KE_KE (min 65535 ke)).flag .SPE_KE_VALID
  let nom := s.rd .SPE_MOTOR_KE_NOM
  if keWithin ke nom then s
  else ((s.flag .SPE_STAT_KE_MISMATCH).logEvent 0x0007 2 0 [ke, nom]).spinFailed 8

/-- ALIGN at an electrical angle (R78, R79). -/
def State.speAlign (s : State) (angle : Nat) : State :=
  (s.setSpeState 3).modSpe fun e => { e with alignAngle := angle % 360, bridge := .driven, toRest := false, locked := false }

/-- A catch on the fly (R77): the observer is seeded, and Iq is 0 for 4 electrical periods before RUN. STATE stays as it was
meanwhile (log entry 52). -/
def State.catchRotor (s : State) (angle : Nat) (mrpm : Int) (ke : Option Nat) : State :=
  (s.wr .SPE_SPEED_MRPM (ofSigned 32 mrpm)).modSpe fun e =>
    { e with angle := angle % 360, bridge := .driven, locked := true, catching := some 4, catchKe := ke, crossings := 0
             floated := false, floatLeft := 0, lossRun := 0, lossEmf := 0, idCmd := 0, iqCmd := 0 }

/-- The catch ends: RUN, with the set-point ramp starting at the measured speed; the fit's back-EMF constant counts (R77, R82). -/
def State.catchDone (s : State) : State :=
  let ke := s.spe.catchKe
  let s := (s.setSpeState 5).modSpe fun e =>
    { e with catching := none, catchKe := none, ramped := (s.mrpm * 1000).toNat, flyAsked := false }
  match ke with
  | some k => s.keMeasured k
  | none => s

/-- MEASURE_FIT (R77). -/
def State.speFit (s : State) (f : FitIn) : State :=
  if s.speState ≠ 1 || !s.spe.sampling then s
  else if 20000 ≤ f.e && 25 < f.residual then
    if 1 ≤ s.spe.rejects then s.speAttemptFailed
    else s.modSpe fun e => { e with rejects := e.rejects + 1, sampling := false, residHold := true, bridge := .zeroVector }
  else
    let s := s.modSpe fun e => { e with rejects := 0, sampling := false, angle := f.angle % 360 }
    let s := (s.wr .SPE_SPEED_MRPM (ofSigned 32 f.mrpm)).setTo .SPE_STAT_DIR (decide (f.mrpm < 0))
    if f.e < 20000 || f.mrpm.natAbs < 60000 then s.speAlign 0
    else if 600000 ≤ f.mrpm && s.isSet .SPE_CTRL_CATCH_EN then
      s.catchRotor f.angle f.mrpm (some (f.e * 1000 / f.mrpm.toNat))
    else (s.setSpeState 2).modSpe fun e =>
      { e with bridge := .driven, toRest := false, restHold := false, locked := true, lossRun := 0, lossEmf := 0 }

/-- The set-point the SPE goes to, µrpm: SPE_SETPT while Capo is OFF, else the Capo generator (R76); 1,200 rpm in
KEHOLD and until a valid back-EMF constant (R82). -/
def State.speTarget (s : State) : Nat :=
  let t := if s.capoState = 0 then s.rd .SPE_SETPT_RPM * 125000 else s.capo.v.toNat
  if s.speState = 8 || !s.isSet .SPE_KE_VALID then min t 1200000000 else t

/-- The speed lies within SPD_TOL of the set-point (R87). -/
def State.withinTol (s : State) : Bool :=
  let t := if s.capoState = 0 then s.rd .SPE_SETPT_RPM * 125 else (s.capo.v / 1000).toNat
  decide ((s.mrpm - (t : Int)).natAbs ≤ s.rd .SPE_RAMP_SPD_TOL * 125)

/-- Current limit of the state in force, mA (R74). -/
def State.currentLimit (s : State) : Nat :=
  match s.speState with
  | 2 => s.rd .SPE_ILIM_BRK_ILIM * 20
  | 3 => s.rd .SPE_ILIM_ALIGN_I * 20
  | 4 => s.rd .SPE_ILIM_START_I * 20
  | _ => s.rd .SPE_ILIM_RUN_ILIM * 20

/-- −P_bus must not exceed this, nW: BRK_PMAX, 0 unless BRK_RES = 1 (R68). -/
def State.brakePower (s : State) : Int :=
  if s.isSet .SPE_CTRL_BRK_RES then (s.rd .SPE_BUS_BRK_PMAX : Int) * 100000000 else 0

/-- Twice the bus power of R68 over 3, in nW: R_ph (Id² + Iq²) + k_e·n·Iq. -/
def busPower (rph : Nat) (emf id iq : Int) : Int := (rph * 10 : Nat) * (id * id + iq * iq) + emf * iq

/-- The least d-axis current magnitude that keeps the bus power at or above −`pmax`, not beyond the limit (R68). -/
def dAxisNeeded (rph : Nat) (emf iq pmax : Int) (limit : Nat) : Nat :=
  let need := -(2 * pmax / 3) - emf * iq - (rph * 10 : Nat) * (iq * iq)
  if need ≤ 0 then 0
  else if rph = 0 then limit
  else min limit (Nat.sqrt (need.toNat / (rph * 10)) + 1)

/-- Id and Iq commands under R68 and R74: the d-axis demand first, then |Iq| limited to what the bus power and the
remainder of the current limit allow. -/
def limitCurrents (rph : Nat) (emf iq pmax : Int) (limit dField : Nat) : Int × Int :=
  let iq := clampInt (-(limit : Int)) limit iq
  let d := max dField (dAxisNeeded rph emf iq pmax limit)
  let d := min d limit
  let room := Nat.sqrt (limit * limit - d * d)
  let iq := clampInt (-(room : Int)) room iq
  if busPower rph emf (-(d : Int)) iq * 3 ≥ -(2 * pmax) then (-(d : Int), iq)
  else
    let cap := if emf = 0 then room else (((rph * 10 : Nat) * (limit * limit : Nat) + 2 * pmax / 3).toNat / emf.natAbs)
    (-(d : Int), clampInt (-(min cap room : Nat)) (min cap room : Nat) iq)

/-- One PWM period's sampling (R71, R72): with two valid windows the third current comes from their sum; with fewer the sample
is skipped and counted, and Id and Iq are predicted, by a model the manual does not give: free values (log entry 9). -/
def State.pwmSample (s : State) (p : PwmIn) : State :=
  let w := s.rd .SPE_PWM_SMP_MINW * 10
  let u := decide (w ≤ p.winU)
  let v := decide (w ≤ p.winV)
  let x := decide (w ≤ p.winW)
  if 2 ≤ boolNat u + boolNat v + boolNat x then
    let iu := if u then p.iu else -(p.iv + p.iw)
    let iv := if v then p.iv else -(p.iu + p.iw)
    let iw := if x then p.iw else -(p.iu + p.iv)
    let (id, iq) := rotorFrame iu iv iw p.angle
    s.modSpe fun e => { e with skips := 0, goods := e.goods + 1, idMeas := id, iqMeas := iq }
  else
    let n := s.draws
    ((s.bump .SPE_SKIPCNT_COUNT).drawn.drawn).modSpe fun e =>
      { e with skips := e.skips + 1, goods := 0, idMeas := Config.freeInt n, iqMeas := Config.freeInt (n + 1) }

/-- Back-EMF constant that the SPE reckons with, µV/rpm: the measured one, and KE_NOM until it has been measured (log entry
52). -/
def State.backEmf (s : State) : Nat := if s.isSet .SPE_KE_VALID then s.rd .SPE_KE_KE else s.rd .SPE_MOTOR_KE_NOM

/-- The observer-loss tests of R83, each counted over consecutive periods. -/
def State.lossTest (s : State) (p : PwmIn) : State :=
  let expect := s.rd .SPE_KE_KE * p.mrpm.natAbs / 1000
  let turn := decide (30 < p.innovation)
  let emf := s.isSet .SPE_KE_VALID && decide (expect < ((p.emf : Int) - (expect : Int)).natAbs * 4)
  s.modSpe fun e => { e with lossRun := if turn then e.lossRun + 1 else 0, lossEmf := if emf then e.lossEmf + 1 else 0 }

/-- Back-EMF samples between 600 and 1,100 rpm, and the measurement when the speed has passed them (R82). -/
def State.keSample (s : State) (p : PwmIn) : State :=
  if s.isSet .SPE_KE_VALID then s
  else
    let n := p.mrpm.natAbs
    if 600000 ≤ n && n ≤ 1100000 then
      s.modSpe fun e => { e with keSum := e.keSum + p.emf * 1000 / n, keCount := e.keCount + 1 }
    else if 1100000 < n && s.spe.keCount ≠ 0 then s.keMeasured (s.spe.keSum / s.spe.keCount)
    else if 1200000 ≤ n then s.spinFailed 8
    else s

/-- The spindle tick (R75): emitted at the observer angle's zero, marked predicted in REACQ, absent when the angle is
unknown. Four of them are the electrical periods of a catch (R77). -/
def State.spindleTick (s : State) (t : Nat) (predicted : Bool) : State :=
  let s := ((s.wr .SPE_TICK_PERIOD (t - s.spe.lastTick)).setTo .SPE_STAT_TICKPRED predicted).modSpe fun e => { e with lastTick := t }
  match s.spe.catching with
  | some n => if n ≤ 1 then s.catchDone else s.modSpe fun e => { e with catching := some (n - 1) }
  | none => s

/-- The speed below FLY_PCT % of SPE_SETPT asks for the safe retract of every loaded String, once (R83, R86). -/
def State.flySpeed (s : State) : State :=
  s.when (!s.spe.flyAsked && decide (s.mrpm.natAbs * 100 < s.rd .SPE_SETPT_RPM * 125 * s.rd .SPE_PWM_FLY_PCT)) fun s =>
    (s.modSpe fun e => { e with flyAsked := true }).retractAllBySpe

/-- E of R498, µV: R_ph × the magnitude of the measured phase currents. -/
def State.shortEmf (s : State) : Nat :=
  s.rd .SPE_MOTOR_RPH * 10 * Nat.sqrt (s.spe.idMeas.natAbs ^ 2 + s.spe.iqMeas.natAbs ^ 2)

/-- One PWM period of the open-loop vector of RAMP (R79): its speed rises at OL_ACC, and it turns forward. -/
def State.openLoop (s : State) : State :=
  let v := s.spe.olSpeed + s.rd .SPE_START_OL_ACC * 16
  s.modSpe fun e =>
    { e with olSpeed := v, olAngle := (e.olAngle + v * s.rd .SPE_MOTOR_POLEPAIRS * 96) % 360000000000000
             locked := e.locked || decide (100000000 ≤ v) }

/-- The observer angle lies within 30° electrical of the open-loop angle (R79). -/
def State.anglesAgree (s : State) (angle : Nat) : Bool :=
  let d := (angle + 360 - s.spe.olAngle / 1000000000000) % 360
  decide (d ≤ 30) || decide (330 ≤ d)

/-- The transitions of R86 that the period's measurement decides. -/
def State.pwmTransitions (s : State) (p : PwmIn) : State :=
  match s.speState with
  | 2 =>
    if s.spe.toRest then
      if s.spe.restHold then s.when (decide (s.shortEmf < 20000)) State.speOff
      else s.when (decide (p.mrpm.natAbs < 60000)) fun s =>
        s.modSpe fun e => { e with restHold := true, bridge := .zeroVector }
    else s.when (decide (p.mrpm.natAbs < 60000)) fun s => s.speAlign p.angle
  | 4 =>
    s.when (decide (s.eff .SPE_START_HANDOVER * 1000000 ≤ s.spe.olSpeed)) fun s =>
      if s.anglesAgree p.angle then
        (s.setSpeState 5).modSpe fun e => { e with ramped := e.olSpeed, locked := true, lossRun := 0, lossEmf := 0 }
      else s.speAttemptFailed
  | 5 => (s.keSample p).when (!s.withinTol) fun s => s.unflag .SPE_STAT_ATSPD
  | 7 =>
    if s.spe.catching.isSome then s.flySpeed
    else if p.mrpm.natAbs < 60000 then s.flySpeed.speOff else s.flySpeed
  | 10 => s.flySpeed
  | _ => s

/-- The field-weakening integrator (R74): while the voltage vector demanded exceeds (1 − VMARGIN) × VM / √3 its demand grows,
down to Id = −IDFW_MAX, and otherwise it shrinks; with the voltage vector limited for sampling it does not shrink (R72). The
vector demanded and the steps are the loops', whose form the manual does not give: free values (log entry 9). -/
def State.fieldWeaken (s : State) (p : PwmIn) : State :=
  let top := s.rd .SPE_FW_IDFW_MAX * 20
  let want := Config.freeValue s.draws
  let limit := (100 - s.rd .SPE_FW_VMARGIN) * p.vm
  let beyond := decide (limit ^ 2 < 30000 * want ^ 2)
  let now := min top s.spe.field
  let f := Config.freeValue (s.draws + 1)
  let grown := now + f % (top - now + 1)
  let shrunk := f % (now + 1)
  let next := if beyond || s.isSet .SPE_STAT_SKIP_LIM then grown else shrunk
  s.drawn.drawn.modSpe fun e => { e with field := next }

/-- The extrapolated angle of REACQ moves on at the last speed (R83); every 60° electrical the phase whose current command is
nearest zero floats for 2 PWM periods. -/
def State.reacqPeriod (s : State) : State :=
  let turn := s.mrpm.natAbs * s.rd .SPE_MOTOR_POLEPAIRS * 96 / 1000
  let old := s.spe.angle * 1000000 + s.spe.angleRest
  let new := (if s.mrpm < 0 then old + 360000000 - turn % 360000000 else old + turn) % 360000000
  let crossed := old / 60000000 != new / 60000000 && !s.spe.floated
  s.modSpe fun e =>
    { e with angle := new / 1000000, angleRest := new % 1000000
             floatPhase := if crossed then nearestZero e.idCmd e.iqCmd (new / 1000000) else e.floatPhase
             floatLeft := if crossed then 2 else e.floatLeft - 1 }

/-- Commands of the state in force (R68, R74, R77 to R79, R83); a winding that is shorted takes none (R498). -/
def State.pwmCommands (s : State) (p : PwmIn) : State :=
  let lim := s.currentLimit
  let rph := s.rd .SPE_MOTOR_RPH
  let emf : Int := (s.backEmf : Int) * s.mrpm / 1000
  if s.spe.catching.isSome || s.spe.restHold then s.modSpe fun e => { e with idCmd := 0, iqCmd := 0 }
  else
    match s.speState with
    | 2 =>
      let want : Int := if s.mrpm < 0 then (lim : Int) else -(lim : Int)
      let (id, iq) := limitCurrents rph emf want s.brakePower lim 0
      s.modSpe fun e => { e with idCmd := id, iqCmd := iq }
    | 3 => s.modSpe fun e => { e with idCmd := lim, iqCmd := 0 }
    | 4 => s.openLoop.modSpe fun e => { e with idCmd := lim, iqCmd := 0 }
    | 5 | 8 =>
      let s := s.fieldWeaken p
      let (id, iq) := limitCurrents rph emf s.spe.iqCmd s.brakePower lim s.spe.field
      s.modSpe fun e => { e with idCmd := id, iqCmd := iq }
    | 6 => s.reacqPeriod
    | _ => s.modSpe fun e => { e with idCmd := 0, iqCmd := 0 }

/-- A duty, in cycles of the period's 12,800, limited so that the phase keeps its sample window unless it is the largest of the
three (R72). -/
def limitDuty (window : Nat) (d : Nat × Nat × Nat) : Nat × Nat × Nat :=
  let top := max d.1 (max d.2.1 d.2.2)
  let cap (v : Nat) : Nat := min v (12800 - window)
  if d.1 = top then (d.1, cap d.2.1, cap d.2.2)
  else if d.2.1 = top then (cap d.1, d.2.1, cap d.2.2)
  else (cap d.1, cap d.2.1, d.2.2)

/-- Duties written for the next period (R70): what the current loops give from the coefficient table, the commands and the
measured currents is free (R73); while SKIP_LIM is set two phases keep their windows (R72). -/
def State.pwmDuties (s : State) : State :=
  let e := s.spe
  let d := Config.currentLoops s.speCoef e.idCmd e.idMeas e.iqCmd e.iqMeas e.angle s.draws
  let d := (d.1 % 12801, d.2.1 % 12801, d.2.2 % 12801)
  let d := if s.isSet .SPE_STAT_SKIP_LIM then limitDuty (s.rd .SPE_PWM_SMP_MINW * 8) d else d
  s.drawn.modSpe fun e => { e with dutyNow := e.dutyNext, dutyNext := d }

/-- The clamp of R69 at a sample instant: it ends with the first period whose sample finds VM below VM_OV − 0.5 V; a floating
bridge takes the zero vector for the period while the back-EMF peak is within 0.5 V of VM. With a braking resistor SPN_BRK is
on while VM is above VM_OV (R68). -/
def State.pwmClamp (s : State) (p : PwmIn) : State :=
  let ov := s.rd .SPE_BUS_VM_OV * 100
  let below := decide (p.vm + 500 < ov)
  s.modSpe fun e =>
    let held := e.clamp && !e.clampEnding
    { e with clamp := held, clampEnding := held && below, excursion := e.excursion && !below
             brake := s.isSet .SPE_CTRL_BRK_RES && decide (ov < p.vm)
             floatClamp := e.bridge == .off && decide (p.vm ≤ p.lineEmf + 500) }

/-- A PWM period that SNAP waits for is latched (R471); the manual gives the chain's stages no form (log entry 44). -/
def State.snapPwm (s : State) : State :=
  if s.bench.snap = some 32 && s.bench.latched.isNone then
    let e : ShadowEngine := { engine := 32, sig := [], pred := 0, table := 0, words := [], at' := 0, ended := false
                              live30 := (s.spe.dutyNext.1 : Int), live31 := (s.spe.dutyNext.2.1 : Int) }
    { s with bench := { s.bench with latched := some e } }
  else s

/-- PWM_PERIOD (R70). The observer, once locked, tracks the rotor down to 40 rpm (R73); in RAMP it runs alongside from 100 rpm
(R79). -/
def State.pwmPeriodOp (s : State) (p : PwmIn) : State :=
  let s := s.pwmClamp p
  let st := s.speState
  if st = 0 then s
  else
    let s := s.modSpe fun e => { e with loopPhase := (e.loopPhase + 1) % 8 }
    let s := s.when (s.spe.bridge != .off) fun s => s.pwmSample p
    let s := s.when (decide (p.mrpm.natAbs < 40000)) fun s => s.modSpe fun e => { e with locked := false }
    let observed := st == 7 || st == 10 || (s.spe.locked && st != 6)
    let s := s.when observed fun s =>
      (s.wr .SPE_SPEED_MRPM (ofSigned 32 p.mrpm)).modSpe fun e => { e with angle := p.angle % 360, angleRest := 0 }
    let s := match p.tick with
      | some t => if st = 6 then (s.at t).spindleTick t true else s.when s.spe.locked fun s => (s.at t).spindleTick t false
      | none => s
    let st := s.speState
    let s := s.when (st == 5 || st == 2 || st == 8) fun s => s.lossTest p
    let s := (s.pwmTransitions p).pwmCommands p
    (s.when (s.spe.bridge == .driven) State.pwmDuties).snapPwm

/-- SPEED_LOOP_UPDATE (R70, R76, R89): the S fields apply, the set-point in force moves at ACC or follows Capo, and the
speed loop gives the Iq command. -/
def State.speedLoop (s : State) : State :=
  (s.boundary .spe 0).when (s.speState != 0) fun s =>
    let t := s.speTarget
    let step := s.rd .SPE_RAMP_ACC * 128
    let r := s.spe.ramped
    let r' := if s.capoState ≠ 0 then t else if r < t then min t (r + step) else max t (r - step)
    let st := s.speState
    let lim := s.currentLimit
    let s := s.when (st == 5 || st == 8) fun s =>
      let iq : Int := clampInt (-(lim : Int)) lim (Config.speedLoop s.speCoef r' s.mrpm s.draws)
      s.drawn.modSpe fun e => { e with ramped := r', iqCmd := iq }
    s.modSpe fun e => { e with loopPhase := 0 }

/-- SPE_SETPT written (R76, R89): ignored with SETPT_RANGE outside 6,600 to 7,800 rpm; shadowed while running. -/
def State.speSetptOp (s : State) (value : Nat) : State :=
  let v := value % 65536
  if v < 52800 || 62400 < v then s.flag .SPE_STAT_SETPT_RANGE
  else if s.speState = 0 then (s.shadowDrop .SPE_SETPT_RPM).wr .SPE_SETPT_RPM v
  else s.shadowWr .SPE_SETPT_RPM v

/-- VM above VM_OV (R69): the zero vector; REGEN_CLAMP once per excursion. -/
def State.vmOver (s : State) : State :=
  (s.when (!s.spe.excursion) fun s => s.flag .SPE_STAT_REGEN_CLAMP).modSpe fun e =>
    { e with clamp := true, clampEnding := false, excursion := true, brake := s.isSet .SPE_CTRL_BRK_RES }

/-- The observer is lost (R83): RUN goes to REACQ with frozen commands; in BRAKE the start attempt fails (R81). -/
def State.obsLost (s : State) : State :=
  match s.speState with
  | 5 => (s.setSpeState 6).modSpe fun e =>
      { e with crossings := 0, floated := false, lossRun := 0, lossEmf := 0, locked := false, floatLeft := 0, angleRest := 0 }
  | 2 => s.when (!s.spe.toRest) State.speAttemptFailed
  | _ => s

/-- OVERCURRENT_TRIP at `t` (R85): zero vector for 2 PWM periods; the third within 1 s enters FAULT; in RUN it counts as
an observer loss. -/
def State.ocTrip (s : State) (t : Nat) : State :=
  let recent := t :: s.spe.ocTrips.filter fun u => decide (t < u + 800000000)
  let s := ((s.at t).flag .SPE_STAT_OC_TRIP).modSpe fun e => { e with ocHold := true, ocTrips := recent }
  if 3 ≤ recent.length && s.speState ≠ 0 && s.speState ≠ 10 then s.speFault
  else if s.speState = 5 then s.obsLost else s

/-- A zero crossing of a floated phase (R83): two in the expected sequence re-seed the observer. From REACQ, RUN resumes; from
COAST, RUN follows as for a catch on the fly. -/
def State.zeroCross (s : State) (inSequence : Bool) (angle : Nat) (mrpm : Int) : State :=
  let st := s.speState
  if (st ≠ 6 && st ≠ 7) || s.spe.catching.isSome then s
  else
    let n := if inSequence then s.spe.crossings + 1 else 1
    let s := s.modSpe fun e => { e with crossings := n }
    if n < 2 then s
    else if st = 7 then s.catchRotor angle mrpm none
    else
      let s := (s.wr .SPE_SPEED_MRPM (ofSigned 32 mrpm)).modSpe fun e =>
        { e with angle := angle % 360, angleRest := 0, crossings := 0, floated := false, floatLeft := 0, bridge := .driven
                 locked := true, lossRun := 0, lossEmf := 0 }
      (s.flag .SPE_STAT_REACQ_OK).setSpeState 5

/-- Two electrical periods in REACQ (R83): torque command 0, the bridge floats. -/
def State.reacqFloated (s : State) : State :=
  s.when (s.speState == 6) fun s => s.modSpe fun e => { e with floated := true, bridge := .off, idCmd := 0, iqCmd := 0 }

/-- 50 ms after the loss (R83, R62): COAST. -/
def State.coast (s : State) : State :=
  s.when (s.speState == 6) fun s =>
    let speed := s.mrpm
    let set := if s.capoState = 0 then s.spe.ramped else s.capo.v.toNat
    let s := (s.setSpeState 7).modSpe fun e => { e with bridge := .off, idCmd := 0, iqCmd := 0, flyAsked := false, releasing := false
                                                        crossings := 0, floatLeft := 0 }
    let s := (s.flag .SPE_STAT_OBS_LOSS).logEvent 0x0008 2 0 [ofSigned 32 speed]
    let s := s.spindleInhibitAll.capoSpeFault
    (s.shadowDrop .SPE_SETPT_RPM).wr .SPE_SETPT_RPM (set / 125000)

/-- The speed has stayed within SPD_TOL for 100 ms (R83, R86, R87): ATSPD is set, and a spindle write inhibit is to be
released at each String's next wedge boundary. -/
def State.atSpeedOp (s : State) : State :=
  s.when (s.speState == 5 && s.withinTol) fun s =>
    ((s.flag .SPE_STAT_ATSPD).modSpe fun e => { e with releasing := true }).refreshMode

def execSpeStart (s : State) : Host.Outcome State Fault Refusal := .next s.speStartOp.2

def execSpeStop (s : State) : Host.Outcome State Fault Refusal := .next s.speStopOp

def execGatesOffEnd (s : State) : Host.Outcome State Fault Refusal :=
  .next (s.when (s.speState == 1 && !s.spe.residHold) fun s => s.modSpe fun e => { e with sampling := true })

def execMeasureFit (fit : FitIn) (s : State) : Host.Outcome State Fault Refusal := .next (s.speFit fit)

def execResidualHoldEnd (s : State) : Host.Outcome State Fault Refusal :=
  .next (s.when (s.speState == 1 && s.spe.residHold) State.speMeasure)

def execAlignEnd (s : State) : Host.Outcome State Fault Refusal :=
  .next (s.when (s.speState == 3) fun s =>
    (s.setSpeState 4).modSpe fun e => { e with olSpeed := 0, olAngle := e.alignAngle * 1000000000000 })

def execPwmPeriod (p : PwmIn) (s : State) : Host.Outcome State Fault Refusal := .next (s.pwmPeriodOp p)

/-- Four consecutive skipped samples limit the voltage vector (R72). -/
def execSkipLimit (s : State) : Host.Outcome State Fault Refusal :=
  .next (s.when (decide (4 ≤ s.spe.skips)) fun s => s.flag .SPE_STAT_SKIP_LIM)

/-- Sixteen consecutive periods not skipped lift the limit (R72). -/
def execSkipLimitLift (s : State) : Host.Outcome State Fault Refusal :=
  .next (s.when (decide (16 ≤ s.spe.goods)) fun s => s.unflag .SPE_STAT_SKIP_LIM)

def execSpeedLoopUpdate (s : State) : Host.Outcome State Fault Refusal := .next s.speedLoop

def execSpeSetptWrite (value : Nat) (s : State) : Host.Outcome State Fault Refusal := .next (s.speSetptOp value)

def execVmOvervoltage (s : State) : Host.Outcome State Fault Refusal := .next s.vmOver

def execOvercurrentTrip (time : Nat) (s : State) : Host.Outcome State Fault Refusal := .next (s.ocTrip time)

/-- The zero vector of a trip is released and the state in force resumes (R85). -/
def execOcHoldEnd (s : State) : Host.Outcome State Fault Refusal :=
  .next (s.modSpe fun e => { e with ocHold := false })

def execObserverLoss (s : State) : Host.Outcome State Fault Refusal :=
  .next (s.when (decide (3 ≤ s.spe.lossRun) || decide (3 ≤ s.spe.lossEmf)) State.obsLost)

def execZeroCrossing (inSequence : Bool) (angle : Nat) (mrpm : Int) (s : State) : Host.Outcome State Fault Refusal :=
  .next (s.zeroCross inSequence angle mrpm)

def execReacqFloat (s : State) : Host.Outcome State Fault Refusal := .next s.reacqFloated

def execCoastEntry (s : State) : Host.Outcome State Fault Refusal := .next s.coast

def execAtSpeed (s : State) : Host.Outcome State Fault Refusal := .next s.atSpeedOp

/-- One of the two conditions of R67 has failed: the reverse-current block blocks. -/
def execRcbBlock (s : State) : Host.Outcome State Fault Refusal :=
  .next (s.modSpe fun e => { e with rcbBlocking := true })

/-- Both conditions have held for 10 ms: it conducts again (R67); in HARVEST it stays blocking (R86). -/
def execRcbConduct (s : State) : Host.Outcome State Fault Refusal :=
  .next (s.when (s.speState != 9) fun s => s.modSpe fun e => { e with rcbBlocking := false })

end Sys2Proof.Machine
end

