-- ==== Sys2Proof/Machine/Actuator.lean ====
section
/-! DEFINITION. Machine/Actuator.lean: the String control engine (R90 to R112): limits, targets and seeks, the law of a
Fret, outputs and coupling, loading, retract, shock, and the meanings of their commands. -/
namespace Sys2Proof.Machine

/-! ### Limits (R95, R107) -/

/-- ISEEK_LIM scaled by the throttle factor in force, 0.1 mA (R95, R451). -/
def State.seekLimit (s : State) (x : Str) : Nat :=
  s.rd .SCEx_ILIM_ISEEK_LIM x.ix * max 3 (8 - s.rd .THR_STAT_LEVEL) / 8

/-- The VCM current limit in force, 0.1 mA (R95). -/
def State.vcmLimit (s : State) (x : Str) : Nat :=
  let c := (s.str.get x).sce
  if s.sceState x = 4 then min c.limit (c.limit / 4 + 5000) else if s.sceState x = 5 then c.retLimit else c.limit

/-- A current in 0.1 mA as amperes with 16 fraction bits. -/
def amps (n : Nat) : Int := (n * 65536 / 10000 : Nat)

/-- The acceleration bound of a plan, in 1/65,536 track per ms²: A_MAX, or KA × the limit in force if that is smaller,
converted with the Fret in force (R107). -/
def State.accelBound (s : State) (x : Str) : Nat :=
  let a := s.rd .SCEx_SEEK_A_MAX x.ix * 16 * 65536
  let f := s.fretPs
  if f = 0 then a
  else min a ((s.tableKa x (s.activeTable x)).toNat * (s.str.get x).sce.limit * 10 ^ 18 / (10 ^ 4 * f ^ 2))

/-- A profile is planned from the reference state in force to the target, position 0 (R107). -/
def State.replan (s : State) (x : Str) : State :=
  let a := s.accelBound x
  s.modSce x fun c =>
    { c with plan := some { fromP := c.refP, fromV := c.refV, fromA := c.refA, target := 0
                            jMax := s.rd .SCEx_SEEK_J_MAX x.ix, aLim := a, vMax := s.rd .SCEx_SEEK_V_MAX x.ix, fret := 0 } }

/-! ### Targets (R107, R112) -/

/-- TRACK + OFFS/256 in 1/65,536 track. -/
def targetPos (track offs : Nat) : Int := (track * 65536 : Nat) + toSigned 16 offs * 256

/-- The target in force. -/
def State.inForce (s : State) (x : Str) : Int := targetPos (s.rd .SCEx_TARGET_TRACK x.ix) (s.rd .SCEx_TOFFS_OFFS x.ix)

/-- The shadow of the target is emptied. -/
def State.dropTarget (s : State) (x : Str) : State :=
  (((s.shadowDrop .SCEx_TARGET_TRACK x.ix).shadowDrop .SCEx_TARGET_HEAD x.ix).shadowDrop .SCEx_TOFFS_OFFS x.ix).unflag
    .SCEx_TGT_SHADOW_PEND x.ix

/-- The posted target becomes the one in force: the reference and the stored prediction are expressed relative to it
(R99); a change of head is started (R107, R135, R173, R365). -/
def State.installTarget (s : State) (x : Str) : State :=
  let old := s.inForce x
  let oldHead := s.rd .SCEx_TARGET_HEAD x.ix
  let track := s.coming .SCEx_TARGET_TRACK x.ix
  let head := s.coming .SCEx_TARGET_HEAD x.ix
  let offs := s.coming .SCEx_TOFFS_OFFS x.ix
  let s := s.dropTarget x
  let s := ((s.wr .SCEx_TARGET_TRACK track x.ix).wr .SCEx_TARGET_HEAD head x.ix).wr .SCEx_TOFFS_OFFS offs x.ix
  let d := s.inForce x - old
  let s := s.modSce x fun c => { c with refP := c.refP - d, pred := c.pred - d }
  s.when (head != oldHead) fun s =>
    let s := (s.selectHead x head).modSce x fun c => { c with headNext := true }
    [SeqId.ssq, .rsq, .wsq].foldl (fun s q => s.seqIrq x q 1) (s.abortCapture x)

/-- The posted target differs from the one in force. -/
def State.targetDiffers (s : State) (x : Str) : Bool :=
  s.coming .SCEx_TARGET_TRACK x.ix != s.rd .SCEx_TARGET_TRACK x.ix
    || s.coming .SCEx_TARGET_HEAD x.ix != s.rd .SCEx_TARGET_HEAD x.ix
    || s.coming .SCEx_TOFFS_OFFS x.ix != s.rd .SCEx_TOFFS_OFFS x.ix

/-- The posted target names a head that is not fitted (R112). -/
def State.badHead (s : State) (x : Str) : Bool :=
  decide (s.eff .SCEx_HEADS_HEADS x.ix ≤ s.coming .SCEx_TARGET_HEAD x.ix)

/-- A posted target at a SAM of SEEK, SETTLE or TRACK (R107, R110, R112); in RETRACT it is discarded. -/
def State.takeTarget (s : State) (x : Str) : State :=
  let st := s.sceState x
  if !s.isSet .SCEx_TGT_SHADOW_PEND x.ix then s
  else if st = 5 then s.dropTarget x
  else if st < 2 || 5 < st then s
  else if s.badHead x then (s.dropTarget x).flag .SCEx_STAT_TGT_ERR x.ix
  else if st = 4 && !s.targetDiffers x then s.dropTarget x
  else
    let s := (s.installTarget x).wr .SCEx_STAT_STATE 2 x.ix
    let s := s.modSce x fun c => { c with settleRun := 0, settleFrets := 0 }
    (s.assertWinh x).replan x

/-- LOADING to SEEK when wedge synchronisation is gained (R110): a posted target is taken and checked; the law runs from
the next Fret, and the first measured wedge gives it its reference (log entry 19). -/
def State.enterSeekFromLoading (s : State) (x : Str) : State :=
  let s := if !s.isSet .SCEx_TGT_SHADOW_PEND x.ix then s
    else if s.badHead x then (s.dropTarget x).flag .SCEx_STAT_TGT_ERR x.ix
    else s.installTarget x
  let s := s.modStr x fun t => { t with health := { t.health with loadFails := 0 } }
  let s := (s.wr .SCEx_STAT_STATE 2 x.ix).modSce x fun c =>
    { c with lawHold := true, needRef := true, plan := none, settleRun := 0, settleFrets := 0, headChanged := false, headNext := false }
  s.refreshMode

/-- The S fields of the SCE other than the target take effect at the SAM (R26). -/
def State.sceBoundary (s : State) (x : Str) : State :=
  let keep : List Reg := [.SCEx_TARGET_TRACK, .SCEx_TARGET_HEAD, .SCEx_TOFFS_OFFS]
  let held := s.shadow.filter fun e => keep.contains e.reg && e.idx / 65536 == x.num
  let s := ({ s with shadow := s.shadow.filter fun e => !(keep.contains e.reg && e.idx / 65536 == x.num) } : State).boundary
    .sce x.num
  { s with shadow := held ++ s.shadow }

/-- The SAM, measured or predicted, in the SCE: its S fields, the scaled limit, a target, a replan for a limit that has
fallen below the profile's peak demand (R26, R95, R107). A missed SAM measures no VCM current: S6 keeps the last one (log
entry 53). -/
def State.sceSam (s : State) (x : Str) (missed : Bool) (iVcm : Int) : State :=
  let s := s.sceBoundary x
  let lim := s.seekLimit x
  let s := s.modSce x fun c =>
    { c with limit := lim, missed, lost := false, overran := false, lawHold := false, headChanged := c.headNext
             headNext := false, iVcm := if missed then c.iVcm else iVcm }
  let s := s.takeTarget x
  match (s.str.get x).sce.plan with
  | some p =>
    let peak := Config.seekPeak p.jMax p.aLim p.vMax s.fretPs p.fromP p.fromV p.fromA p.target p.fret
    s.when (s.sceState x == 2 && decide (s.accelBound x < min p.aLim peak)) fun s => s.replan x
  | none => s

/-! ### Lost wedges (R99, R101) -/

/-- A wedge of this Fret is lost: WINH, LOSTCNT and LOSTTOT, in SEEK, SETTLE and TRACK (R101). -/
def State.wedgeLost (s : State) (x : Str) : State :=
  let st := s.sceState x
  s.when (2 ≤ st && st ≤ 4 && !(s.str.get x).sce.lost) fun s =>
    let s := (s.modSce x fun c => { c with lost := true }).assertWinh x
    (s.wr .SCEx_STAT_LOSTCNT (min 5 (s.rd .SCEx_STAT_LOSTCNT x.ix + 1)) x.ix).bump .SCEx_LOSTTOT_COUNT x.ix

/-! ### Coupling (R54, R104 to R106) -/

/-- The latest broadcast of `y` whose timestamp lies at least 40 ns, 32 ticks, before `latch` and that is not yet taken. -/
def State.latestBroadcast (s : State) (x y : Str) (latch : Nat) : Option Broadcast :=
  (s.str.get y).sce.sent.find? fun b => decide (b.time + 32 ≤ latch) && decide ((s.str.get x).sce.takenTime.get y < b.time)

/-- The broadcasts of `y` at a coupling latch. -/
def State.latchFrom (s : State) (x : Str) (latch : Nat) (y : Str) : State :=
  match s.latestBroadcast x y latch with
  | some b => s.modSce x fun c =>
      { c with taken := c.taken.set y ((b.cmd :: c.taken.get y).take 4), takenTime := c.takenTime.set y b.time
               quiet := c.quiet.set y 0 }
  | none => s.modSce x fun c => { c with quiet := c.quiet.set y (c.quiet.get y + 1) }

/-- The coupling matrix entry C[y][k] of the table in force (R104). -/
def State.couplingCoef (s : State) (x y : Str) (k : Nat) : Int :=
  toSigned 32 (s.tableWord x (s.activeTable x) (16 + 4 * y.num + k))

/-- S5 before its saturation: the sum over Strings and ages (R104). -/
def State.couplingSum (s : State) (x : Str) : Int :=
  let term y := ((List.range 4).map fun k => s.couplingCoef x y k * ((s.str.get x).sce.taken.get y).getD k 0).sum
  roundDiv (Str.all.map term).sum 65536

/-! ### The law of a Fret (R90, R99 to R103) -/

/-- The reference of this Fret: the next sample of the plan in SEEK, the target otherwise; SETTLE is entered when the
reference reaches the target (R107). -/
def State.advanceReference (s : State) (x : Str) : State :=
  let c := (s.str.get x).sce
  if s.sceState x != 2 then s.modSce x fun c => { c with refP := 0, refV := 0, refA := 0 }
  else
    match c.plan with
    | none => s
    | some p =>
      let (rp, rv, ra) := Config.seekProfile p.jMax p.aLim p.vMax s.fretPs p.fromP p.fromV p.fromA p.target (p.fret + 1)
      let s := s.modSce x fun c => { c with refP := rp, refV := rv, refA := ra, plan := some { p with fret := p.fret + 1 } }
      s.when (rp == 0 && rv == 0 && ra == 0) fun s =>
        (s.wr .SCEx_STAT_STATE 3 x.ix).modSce x fun c => { c with plan := none, settleRun := 0, settleFrets := 0 }

/-- The wedge's class, given its measured position relative to the target, if it was demodulated: the position if the
wedge is measured and plausible (R99). The test is not applied after a change of head (R100) or to the first reference. -/
def State.plausible (s : State) (x : Str) (pos : Option Int) : Option Int :=
  let c := (s.str.get x).sce
  pos.filter fun p => c.headChanged || c.needRef
    || decide ((p - c.pred).natAbs ≤ s.rd .SCEx_THRESH_PLAUS_TH x.ix * 1024)

/-- The first measured wedge after LOADING sets the reference and the plan (log entry 19). -/
def State.firstReference (s : State) (x : Str) (p : Int) : State :=
  s.when (s.str.get x).sce.needRef fun s =>
    (s.modSce x fun c => { c with refP := p, refV := 0, refA := 0, pred := p, needRef := false }).replan x

/-- R100: the first PRED state is loaded with the measured position, saturated (R94), and the others are cleared. -/
def State.loadPred (s : State) (x : Str) (p : Int) : State :=
  let t := s.activeTable x
  match (s.sections x t).find? fun d => d.code == 6 with
  | none => s
  | some d =>
    let s := s.when (saturate 32 p != p) fun s => s.flag .SCEx_STAT_SAT_INT x.ix
    (List.range d.n).foldl (fun s k => s.putTableWord x t (0x3000 + d.state + k) (if k = 0 then ofSigned 32 (saturate 32 p) else 0)) s

/-- PVALID, WINH and TRACK after the plausibility check, for |S0| of a measured wedge, or a lost one (R101 to R103, R107,
R426). -/
def State.supervise (s : State) (x : Str) (err : Option Nat) : State :=
  let wf := s.rd .SCEx_THRESH_WF_TH x.ix * 256
  let inWf := err.any fun e => decide (e ≤ wf)
  let s := if s.sceState x != 3 then s
    else
      let s := s.modSce x fun c => { c with settleRun := if inWf then c.settleRun + 1 else 0, settleFrets := c.settleFrets + 1 }
      s.when (decide (s.eff .SCEx_THRESH_SETTLE_N x.ix ≤ (s.str.get x).sce.settleRun)) fun s =>
        (s.wr .SCEx_STAT_STATE 4 x.ix).settleRequests
  let track := s.sceState x == 4
  let valid := track && err.any fun e => decide (e ≤ s.rd .SCEx_THRESH_RD_TH x.ix * 256)
  let s := s.setTo .SCEx_STAT_PVALID valid x.ix
  let good := track && inWf && !(s.str.get x).sce.shockHold
  let s := s.when (err.isSome && !good) fun s => s.assertWinh x
  s.modSce x fun c => { c with wedgeGood := good }

/-- A position error that points toward the previously written track: the lower one, or the higher one in a band whose
surface is shingled toward the lower tracks (R202, R221). -/
def State.towardPrevious (s : State) (x : Str) (err : Int) : Bool :=
  let f := s.format x
  let down := f.shdir.testBit (s.rd .SCEx_TARGET_HEAD x.ix) && decide (f.cmrTrk ≤ s.rd .SCEx_TARGET_TRACK x.ix)
  if down then decide (0 < err) else decide (err < 0)

/-- A measured wedge beyond WF_TH toward the previous track cuts the sector in progress, or keeps the second fragment of a split
one from being written (R221): the span runs from the last wedge within WF_TH up to the cut. -/
def State.noteSqueeze (s : State) (x : Str) (inProgress : Option Armed) (err : Int) : State :=
  let k := (s.str.get x).svd.wedge
  if err.natAbs ≤ s.rd .SCEx_THRESH_WF_TH x.ix * 256 then s.modWrp x fun w => { w with within := k }
  else
    s.when (inProgress.isSome && !s.isSet .WRPx_STAT_GATE x.ix && s.towardPrevious x err) fun s =>
      s.modWrp x fun w => { w with squeeze := inProgress, squeezeFrom := w.within, squeezeFrets := (k + 480 - w.within) % 480 + 1 }

/-- The signals of R90 at the start of a chain, each saturated to 32 bits (R94). -/
def inputSignals (sig : List Int) (s0 s1 s2 s3 s4 s5 s6 : Int) (bridged : Bool) : List Int :=
  [s0, s1, s2, s3, s4, s5, s6].map (saturate 32) ++ [if bridged then 65536 else 0] ++ sig.drop 8

/-- The outputs: the chain's S30 and S31 with S5 where CPL_ROUTE sends it, saturated to their limits (R94, R105). -/
def State.limitOutputs (s : State) (x : Str) : State :=
  let sig := (s.str.get x).sce.sig
  let s5 := sig.getD 5 0
  let route := s.rd .SCEx_CTRL_CPL_ROUTE x.ix
  let raw30 := sig.getD 30 0 + if route = 2 then s5 else 0
  let raw31 := sig.getD 31 0 + if route = 1 then s5 else 0
  let lim := amps (s.vcmLimit x)
  let stroke : Int := (s.rd .SCEx_VCM_MA_LIM x.ix * 65536 : Nat)
  let o30 := clampInt (-lim) lim raw30
  let o31 := clampInt (-stroke) stroke raw31
  let s := s.when (o30 != raw30) fun s => s.flag .SCEx_STAT_SAT_VCM x.ix
  let s := s.when (o31 != raw31) fun s => s.flag .SCEx_STAT_SAT_MA x.ix
  s.modSce x fun c => { c with sig := (c.sig.set 30 o30).set 31 o31 }

/-- A law execution that SNAP waits for is latched (R471): its signals after LOAD, the table in force with its state pool, and
S30 and S31 as its sections leave them at END (log entry 44). -/
def State.snapLaw (s : State) (x : Str) (sig : List Int) (pred : Int) : State :=
  if s.bench.snap = some (28 + x.num) && s.bench.latched.isNone then
    let t := s.activeTable x
    let c := (mandatory (s.sections x t)).foldl (Chain.run x t) { s, sig, sat := false, pred }
    let words := s.regs.filter fun e => e.1 / 65536 == regKey (tableReg t) x.ix / 65536
    let e : ShadowEngine := { engine := 28 + x.num, sig, pred, table := t, words, at' := 0, ended := false
                              live30 := c.sig.getD 30 0, live31 := c.sig.getD 31 0 }
    { s with bench := { s.bench with latched := some e } }
  else s

/-- The law of a Fret at 2.20 µs: `pos` is the measured position in 1/65,536 track if the wedge was demodulated, `rro`
is S4, `latch` the time of the coupling latch. Only SEEK, SETTLE and TRACK run a law. -/
def State.law (s : State) (x : Str) (pos : Option Int) (rro : Int) (latch : Nat) : State :=
  let st := s.sceState x
  if st < 2 || 4 < st || (s.str.get x).sce.lawHold then s.unflag .SCEx_STAT_PVALID x.ix
  else
    let rel := pos.map fun p => p - s.inForce x
    let ok := s.plausible x rel
    let s := s.when (rel.isSome && ok.isNone) fun s => s.flag .SCEx_STAT_PLAUS x.ix
    let s := match ok with
      | none => s.wedgeLost x
      | some p =>
        let s := s.unflag .SCEx_STAT_LOSTCNT x.ix
        let s := s.when ((s.str.get x).sce.headChanged || (s.str.get x).sce.needRef) fun s => s.loadPred x p
        s.firstReference x p
    let s := s.advanceReference x
    let c := (s.str.get x).sce
    let raw0 := (ok.getD c.pred) - c.refP
    let s0 := saturate 32 raw0
    let open' := (s.str.get x).wrp.open'
    let s := s.supervise x (ok.map fun _ => s0.natAbs)
    let s := s.when ok.isSome fun s => s.noteSqueeze x open' s0
    let s := Str.all.foldl (fun s y => s.latchFrom x latch y) s
    let sum := s.couplingSum x
    let s5 := saturate 32 sum
    let sig := inputSignals c.sig s0 c.refP c.refV c.refA (if ok.isSome then rro else 0) s5 c.iVcm ok.isNone
    let s := s.snapLaw x sig c.pred
    let r := s.runChain x sig c.pred
    let s := r.s.modSce x fun c => { c with sig := r.sig, pred := r.pred, headChanged := false }
    let wide := [raw0, c.refP, c.refV, c.refA, sum, c.iVcm].any fun v => saturate 32 v != v
    let s := s.when (r.sat || wide) fun s => s.flag .SCEx_STAT_SAT_INT x.ix
    (s.wr .SCEx_PES_S0 (ofSigned 32 s0) x.ix).wr .SCEx_CPLFF_S5 (ofSigned 32 s5) x.ix

/-! ### Outputs (R49, R104) -/

/-- A broadcast of String `x` goes out. -/
def State.broadcast (s : State) (x : Str) (t : Nat) (cmd : Int) (held : Bool) : State :=
  s.modSce x fun c => { c with sent := ({ time := t, cmd, held } :: c.sent).take 8 }

/-- One step of the ramp of R108: S31 goes to 0 in eighths. -/
def State.rampStep (s : State) (x : Str) : State :=
  let c := (s.str.get x).sce
  let n := c.rampFrets + 1
  let v := c.rampFrom * (8 - min 8 n : Nat) / 8
  (s.wr .SCEx_MACMD_S31 (ofSigned 32 v) x.ix).modSce x fun c => { c with rampFrets := n, sig := c.sig.set 31 v }

/-- ACTUATOR_OUTPUT at 5.00 µs, 4,000 ticks after the Fret's SAM (R47, R104): the optional tasks have ended, and the law's
outputs go out, or the previous ones after an overrun; the fifth lost wedge takes its place (R101). In step 1 of a retract a
Fret is a step of the ramp (R108). -/
def State.actuatorOutput (s : State) (x : Str) : State :=
  let st := s.sceState x
  let t := (s.str.get x).svd.lastSam + 4000
  let s := s.at t
  if st = 5 then s.when ((s.str.get x).sce.step == .ramp) fun s => s.rampStep x
  else if st < 2 || s.rd .SCEx_STAT_LOSTCNT x.ix = 5 then s
  else if (s.str.get x).sce.overran then s.broadcast x t (toSigned 32 (s.rd .SCEx_VCMCMD_S30 x.ix)) true
  else
    let s := (s.runOptional x (s.optionalTasks x).length).limitOutputs x
    let c := (s.str.get x).sce
    let s := (s.wr .SCEx_VCMCMD_S30 (ofSigned 32 (c.sig.getD 30 0)) x.ix).wr .SCEx_MACMD_S31 (ofSigned 32 (c.sig.getD 31 0)) x.ix
    (s.unflag .SCEx_STAT_OVRCNT x.ix).broadcast x t (c.sig.getD 30 0) false

/-- CONTROL_LAW_OVERRUN (R49, R96): an optional task has not finished by 4.90 µs, 3,920 ticks after the SAM. Those before it
have run; an XFER is a task of one section, so its write stands; the rest is abandoned. With no optional task in force no
overrun can occur (R48). -/
def State.overrun (s : State) (x : Str) (done : Nat) : State :=
  let st := s.sceState x
  let tasks := (s.optionalTasks x).length
  s.when (2 ≤ st && st ≤ 4 && !(s.str.get x).sce.overran && decide (0 < tasks)) fun s =>
    let s := (s.at ((s.str.get x).svd.lastSam + 3920)).runOptional x (min done (tasks - 1))
    let n := min 3 (s.rd .SCEx_STAT_OVRCNT x.ix + 1)
    let s := ((s.modSce x fun c => { c with overran := true }).flag .SCEx_STAT_OVR x.ix).wr .SCEx_STAT_OVRCNT n x.ix
    s.when (decide (2 ≤ n)) fun s => s.assertWinh x

/-- FALLBACK_SWITCH (R49, R50, R98, R110): at the third consecutive overrun the fallback law, a FAULT and its interrupt; where
the fifth lost wedge of the same Fret takes precedence the switch is recorded in FB_PEND, and a switch displaced by any other
retract is dropped. -/
def State.fallback (s : State) (x : Str) : State :=
  s.when (s.rd .SCEx_STAT_OVRCNT x.ix == 3 && !s.isSet .SCEx_STAT_FALLBACK x.ix && s.sceState x != 5) fun s =>
    if s.rd .SCEx_STAT_LOSTCNT x.ix = 5 then s.flag .SCEx_STAT_FB_PEND x.ix
    else (((s.flag .SCEx_STAT_FALLBACK x.ix).flag .SCEx_STAT_FAULT x.ix).refreshCyc x).emit (.irq "SCE fault" x.num)

/-- LOST_WEDGE_RETRACT (R101, R50, R431): the third within 10 minutes loses the String. -/
def State.lostWedgeRetract (s : State) (x : Str) : State :=
  let st := s.sceState x
  s.when (2 ≤ st && st ≤ 4 && s.rd .SCEx_STAT_LOSTCNT x.ix == 5) fun s =>
    let s := s.when (s.rd .SCEx_STAT_OVRCNT x.ix == 3 && !s.isSet .SCEx_STAT_FALLBACK x.ix) fun s => s.flag .SCEx_STAT_FB_PEND x.ix
    let s := s.startRetract x .lostWedges
    let now := s.rd .SB_RTC_SEC
    let times := now :: (s.str.get x).health.wedgeRetracts.filter fun t => decide (now ≤ t + 600)
    let s := s.modStr x fun t => { t with health := { t.health with wedgeRetracts := times } }
    s.when (decide (3 ≤ times.length)) fun s => s.stringLost x

/-- COUPLING_STALE (R106): two Frets without a broadcast from `y`. Bits of Strings that are absent stay 0. -/
def State.couplingStale (s : State) (x y : Str) : State :=
  s.when (decide (2 ≤ (s.str.get x).sce.quiet.get y) && s.present y) fun s =>
    (s.modSce x fun c => { c with taken := c.taken.set y [] }).flagBit .SCEx_STAT_CPL_STALE y.num x.ix

/-- SETTLE_TIMEOUT (R107). -/
def State.settleTimeout (s : State) (x : Str) : State :=
  s.when (s.sceState x == 3 && decide (s.rd .SCEx_RET_SETTLE_MAX x.ix ≤ (s.str.get x).sce.settleFrets)) fun s =>
    s.flag .SCEx_STAT_SEEK_TO x.ix

/-! ### Loading and banks (R98, R110) -/

/-- LOAD: what it answers and the state after it (R98, R110, R112). It empties the broadcasts kept from each String with the
signals, and a fallback law that it applies raises no fault interrupt (log entry 53). With FMT_VALID = 0 it answers CFG_RANGE,
the demodulator stays IDLE and the load timeout applies (R127). -/
def State.sceLoad (s : State) (x : Str) : CStat × State :=
  if s.sceState x != 0 then (.cfgLocked, s.flag .SCEx_STAT_CFG_LOCKED x.ix)
  else if !s.isSet .SPE_STAT_ATSPD then (.notReady, s)
  else if s.eff .SCEx_HEADS_HEADS x.ix = 0 then (.cfgRange, s)
  else if !(s.tableValid x (s.rd .SCEx_STAT_ACTBANK x.ix) && s.tableValid x 2) then (.cfgRange, s)
  else
    let s := (s.rewriteChannel x).modSce x fun c =>
      { c with sig := List.replicate 32 0, refP := 0, refV := 0, refA := 0, plan := none, pred := 0, settleRun := 0
               settleFrets := 0, missed := false, lost := false, overran := false, headChanged := false, headNext := false, step := .none
               emergency := false
               taken := Quad.all [], quiet := Quad.all 0, needRef := false, lawHold := false }
    let s := s.when (s.isSet .SCEx_STAT_FB_PEND x.ix) fun s =>
      (s.flag .SCEx_STAT_FALLBACK x.ix).unflag .SCEx_STAT_FB_PEND x.ix
    let s := ((s.unflag .SCEx_LOSTTOT_COUNT x.ix).unflag .SCEx_STAT_LOSTCNT x.ix).unflag .SCEx_STAT_OVRCNT x.ix
    let s := (s.unflag .SCEx_STAT_LOOP_OPEN x.ix).wr .SCEx_STAT_STATE 1 x.ix
    (if s.isSet .SVDx_STAT_FMT_VALID x.ix then .ok else .cfgRange, (((s.refreshCyc x).assertWinh x).svdSearch x).aeLoad x)

/-- BANK_SW: what it answers and the state after it (R98). -/
def State.bankSwitch (s : State) (x : Str) : CStat × State :=
  let other := 1 - s.rd .SCEx_STAT_ACTBANK x.ix
  if !s.isSet .SCEx_STAT_LOOP_OPEN x.ix then (.cfgLocked, s.flag .SCEx_STAT_CFG_LOCKED x.ix)
  else if !s.tableValid x other then (.cfgRange, s)
  else
    let s := ((s.wr .SCEx_STAT_ACTBANK other x.ix).unflag .SCEx_STAT_FALLBACK x.ix).unflag .SCEx_STAT_FB_PEND x.ix
    (.ok, s.refreshCyc x)

/-- LOAD_TIMEOUT (R110, R431): the third consecutive failed load loses the String. -/
def State.loadTimeout (s : State) (x : Str) : State :=
  s.when (s.sceState x == 1) fun s =>
    let s := (s.flag .SCEx_STAT_LOAD_FAIL x.ix).startRetract x .planned
    let s := s.modStr x fun t => { t with health := { t.health with loadFails := t.health.loadFails + 1 } }
    s.when (decide (3 ≤ (s.str.get x).health.loadFails)) fun s => s.stringLost x

/-- LOOP_OPEN (R97). -/
def State.loopOpen (s : State) (x : Str) : State :=
  s.when (s.sceState x == 0 || s.sceState x == 6) fun s => s.flag .SCEx_STAT_LOOP_OPEN x.ix

/-! ### Retract (R108, R109, R434, R435) -/

/-- Step 2 begins, or waits for its turn in the retract of a power loss (R108, R434). -/
def State.rampEnd (s : State) (x : Str) : State :=
  s.when (s.sceState x == 5 && (s.str.get x).sce.step == .ramp && decide (8 ≤ (s.str.get x).sce.rampFrets)) fun s =>
    (s.wr .SCEx_MACMD_S31 0 x.ix).modSce x fun c =>
      { c with sig := c.sig.set 31 0, loopTicks := 0, slowTicks := 0
               step := if c.emergency && (!c.turn || s.power.vmLow) then .waiting else .velocity }

/-- Head velocity of the retract loop, mm/s: (terminal voltage in µV − RVCM in 0.1 Ω × current in 0.1 mA) / KB in µV per
mm/s, cut to a whole number (R108; log entry 53). With KB = 0 the division has no result: a free value. -/
def State.retractVelocity (s : State) (x : Str) (terminal current : Int) : Int :=
  let kb := s.rd .SCEx_VCM_KB x.ix
  if kb = 0 then Config.freeInt s.draws else (terminal - s.rd .SCEx_VCM_RVCM x.ix * current * 10) / kb

/-- Current of the velocity loop for a velocity to hold: the gains of the loop are not stated, so its command is a free value
held to the current limit (log entry 20). -/
def State.velocityCommand (s : State) (x : Str) (want v : Int) (limit : Nat) : Int :=
  clampInt (-(amps limit)) (amps limit) (Config.velocityLoop want v ((s.str.get x).sce.sig.getD 30 0))

/-- The VCM current of String `x` takes a value. -/
def State.putVcm (s : State) (x : Str) (i : Int) : State :=
  (s.wr .SCEx_VCMCMD_S30 (ofSigned 32 i) x.ix).modSce x fun c => { c with sig := c.sig.set 30 i }

/-- RETRACT_VELOCITY_LOOP (R106, R108): every 16 µs of a retract, and of the drive off the ramp in LOADING (R110), whose
current is held to RET_ILIM (log entry 53). In step 1 with wedge timing lost it is a step of the ramp; in step 2 the loop gives
the current; an SCE in RETRACT broadcasts its current each time. In an emergency retract RET_ILIM is halved while VM is below
VM_RETMIN (R435). -/
def State.retractLoop (s : State) (x : Str) (terminal current : Int) (vm t : Nat) : State :=
  let vel : Int := s.rd .SCEx_RET_RET_VEL x.ix * 10
  let v := s.retractVelocity x terminal current
  if s.sceState x = 1 then (s.drawn.putVcm x (s.velocityCommand x (-vel) v (s.rd .SCEx_ILIM_RET_ILIM x.ix)))
  else if s.sceState x != 5 then s
  else
    let c := (s.str.get x).sce
    let s := s.when (c.emergency && decide (vm < s.rd .PWR_RETLOG_VM_MIN)) fun s => s.wr .PWR_RETLOG_VM_MIN vm
    let s := s.when (c.emergency && decide (vm < s.rd .PWR_RETCFG_VM_RETMIN)) fun s =>
      { s.modSce x fun c => { c with retLimit := s.rd .SCEx_ILIM_RET_ILIM x.ix / 2 } with power := { s.power with vmLow := true } }
    let s := match c.step with
      | .ramp => s.when (!s.synced x) fun s => s.rampStep x
      | .velocity =>
        let s := s.drawn.putVcm x (s.velocityCommand x vel v (s.str.get x).sce.retLimit)
        s.modSce x fun c =>
          { c with loopTicks := c.loopTicks + 1, slowTicks := if decide ((v.natAbs * 10 : Int) < vel) then c.slowTicks + 1 else 0 }
      | _ => s
    s.broadcast x t ((s.str.get x).sce.sig.getD 30 0) false

/-- RETRACT_PARK (R108): the velocity has stayed below 10 % of RET_VEL for 5 ms, 313 periods of the loop, or RET_MS has elapsed
since step 2 began; half of RET_ILIM holds the heads against the stop for 50 ms, in the direction of the ramp, which is taken
as positive (log entry 53). -/
def State.retractParked (s : State) (x : Str) : State :=
  let c := (s.str.get x).sce
  let done := decide (313 ≤ c.slowTicks) || decide (s.rd .SCEx_RET_RET_MS x.ix * 2000 ≤ c.loopTicks * 16)
  s.when (s.sceState x == 5 && c.step == .velocity && done) fun s =>
    (s.putVcm x (amps (c.retLimit / 2))).modSce x fun c => { c with step := .hold }

/-- RETRACT_HOLD_END (R108, R110, R127, R145): UNLOADED; the demodulator goes to IDLE, the AE is off; a spindle stop that
waits is acted on; a lost String is switched off; the emergency log has its PARKED bit (R434). -/
def State.retractDone (s : State) (x : Str) : State :=
  s.when (s.sceState x == 5 && (s.str.get x).sce.step == .hold) fun s =>
    let emergency := (s.str.get x).sce.emergency
    let s := (s.wr .SCEx_STAT_STATE 0 x.ix).wr .SCEx_VCMCMD_S30 0 x.ix
    let s := s.modSce x fun c => { c with step := .none, emergency := false, sig := c.sig.set 30 0 }
    let s := s.when emergency fun s => s.flagBit .PWR_RETLOG_PARKED x.num
    ((((s.svdIdle x).aeOff x).speHeadsParked).finishLost x).refreshMode

/-! ### Shock (R426) -/

/-- SHOCK_EVENT: input 0 or 1 with its magnitude in 1/64 of full scale. In Dormant and Standby only SHOCK and its count;
during an emergency retract no effect (R435). -/
def State.shock (s : State) (input level : Nat) : State :=
  let en := if input = 0 then s.isSet .SB_CFG1_SHK_EN0 else s.isSet .SB_CFG1_SHK_EN1
  s.when (en && decide (s.rd .SB_CFG1_SHK_TH < level)) fun s =>
    let s := (s.flag .SB_STAT_SHOCK).bump .SB_CNT_SHOCK
    s.when (decide (2 ≤ s.rd .PWR_STAT_MODE)) fun s =>
      Str.all.foldl (fun s x => s.when (s.present x && !(s.str.get x).sce.emergency) fun s =>
        (s.assertWinh x).modSce x fun c => { c with shockHold := true }) s

/-- SHOCK_HOLD_END (R426). -/
def State.shockHoldEnd (s : State) : State :=
  Str.all.foldl (fun s x => s.modSce x fun c => { c with shockHold := false }) s

/-! ### Meanings -/

def execLoad (x : Str) (s : State) : Host.Outcome State Fault Refusal := .next (s.onStr x fun s => (s.sceLoad x).2)

/-- UNLOAD: a planned retract (R108, R110). -/
def execUnload (x : Str) (s : State) : Host.Outcome State Fault Refusal :=
  .next (s.onStr x fun s => s.requestRetract x .planned)

/-- RETRACT: a safe retract (R108, R110). -/
def execRetract (x : Str) (s : State) : Host.Outcome State Fault Refusal :=
  .next (s.onStr x fun s => s.requestRetract x .command)

def execBankSw (x : Str) (s : State) : Host.Outcome State Fault Refusal := .next (s.onStr x fun s => (s.bankSwitch x).2)

def execTargetPost (x : Str) (target offs : Option Nat) (s : State) : Host.Outcome State Fault Refusal :=
  .next (s.onStr x fun s => s.postTarget x target offs)

def execLoadTimeout (x : Str) (s : State) : Host.Outcome State Fault Refusal := .next (s.onStr x fun s => s.loadTimeout x)

def execLoopOpen (x : Str) (s : State) : Host.Outcome State Fault Refusal := .next (s.onStr x fun s => s.loopOpen x)

def execLostWedgeRetract (x : Str) (s : State) : Host.Outcome State Fault Refusal :=
  .next (s.onStr x fun s => s.lostWedgeRetract x)

def execControlLawOverrun (o : Overrun) (s : State) : Host.Outcome State Fault Refusal :=
  .next (s.onStr o.x fun s => s.overrun o.x o.done)

def execFallbackSwitch (x : Str) (s : State) : Host.Outcome State Fault Refusal := .next (s.onStr x fun s => s.fallback x)

def execActuatorOutput (x : Str) (time : Nat) (s : State) : Host.Outcome State Fault Refusal :=
  .next (s.onStr x fun s => s.when (time == (s.str.get x).svd.lastSam + 4000) fun s => s.actuatorOutput x)

def execCouplingStale (x sender : Str) (s : State) : Host.Outcome State Fault Refusal :=
  .next (s.onStr x fun s => s.couplingStale x sender)

def execSettleTimeout (x : Str) (s : State) : Host.Outcome State Fault Refusal := .next (s.onStr x fun s => s.settleTimeout x)

def execRetractRampEnd (x : Str) (s : State) : Host.Outcome State Fault Refusal := .next (s.onStr x fun s => s.rampEnd x)

def execRetractVelocityLoop (x : Str) (terminal current : Int) (vm time : Nat) (s : State) : Host.Outcome State Fault Refusal :=
  .next (s.onStr x fun s => (s.at time).retractLoop x terminal current vm time)

def execRetractPark (x : Str) (s : State) : Host.Outcome State Fault Refusal := .next (s.onStr x fun s => s.retractParked x)

def execShockEvent (input level : Nat) (s : State) : Host.Outcome State Fault Refusal := .next (s.shock input level)

def execShockHoldEnd (s : State) : Host.Outcome State Fault Refusal := .next s.shockHoldEnd

end Sys2Proof.Machine
end

