-- ==== Sys2Proof/Machine/Capsules.lean ====
section
/-! DEFINITION. Machine/Capsules.lean: the bytes of Phovi capsules (R337, R338), their decompression with the errors of R347, and
the payloads that carry them (R340). -/
namespace Sys2Proof.Machine

/-! ### Raw blocks -/

/-- The 4,096 bytes of a block, in their order. -/
def blockBytes (data : Nat) : List Nat := (List.range 4096).map fun k => data / 256 ^ (4095 - k) % 256

/-- The block that 4,096 bytes make. -/
def blockOf (bs : List Nat) : Nat := bs.foldl (fun v b => v * 256 + b % 256) 0

/-- The bytes of blocks. -/
def rawBytes (data : List Nat) : List Nat := data.flatMap blockBytes

/-! ### Tokens (R338) -/

/-- `len` bytes are copied one at a time from `dist` bytes back, in an output held last byte first. -/
def copyBack (dist : Nat) : Nat → List Nat → List Nat
  | 0, out => out
  | n + 1, out => copyBack dist n (out.getD (dist - 1) 0 :: out)

/-- The output of a compressed body, last byte first, and 0 or the error that stops it (R347): a token beyond the body (5), a
distance beyond the output (6), too long an output (7), too short a one (8). `fuel` bounds the tokens. -/
def expand (limit : Nat) : (fuel : Nat) → (body out : List Nat) → Nat × List Nat
  | 0, _, out => (5, out)
  | _ + 1, [], out => (if out.length < limit then 8 else 0, out)
  | fuel + 1, t :: rest, out =>
    if t < 128 then
      if rest.length < t + 1 then (5, out)
      else if limit < out.length + (t + 1) then (7, out)
      else expand limit fuel (rest.drop (t + 1)) ((rest.take (t + 1)).reverse ++ out)
    else
      match rest with
      | a :: b :: rest =>
        let dist := a + 256 * b + 1
        let len := t - 128 + 4
        if out.length < dist then (6, out)
        else if limit < out.length + len then (7, out)
        else expand limit fuel rest (copyBack dist len out)
      | _ => (5, out)

/-- A body of `blocks` blocks decompressed: 0 or the error, and the bytes. -/
def expandBody (blocks : Nat) (body : List Nat) : Nat × List Nat :=
  let (code, out) := expand (4096 * blocks) (body.length + 1) body []
  (code, out.reverse)

/-! ### Capsules (R337, R347) -/

/-- A capsule of blocks from `lba`: its header, with the CRC of the raw blocks and its own, and its body. -/
def capsuleBytes (stored : Bool) (lba blocks fseq dcrc : Nat) (body : List Nat) : List Nat :=
  let core := leBytes 2 0x7C31 ++ [0x01, (if stored then 1 else 0) + 2 * (blocks - 1)] ++ leBytes 6 lba ++ leBytes 4 body.length ++ [0, 0]
    ++ leBytes 4 dcrc ++ leBytes 8 fseq
  core ++ leBytes 4 (crc32c core) ++ body

/-- A capsule decompressed for a map entry of `blocks` blocks from `lba`: 0 or the first error of R347, and the raw bytes. -/
def decodeCapsule (lba blocks : Nat) (bs : List Nat) : Nat × List Nat :=
  let blen := leField bs 10 4
  let body := (bs.drop 32).take blen
  let check (r : Nat × List Nat) : Nat × List Nat := if r.1 = 0 && crc32c r.2 != leField bs 16 4 then (9, r.2) else r
  if leField bs 0 2 != 0x7C31 || bs.getD 2 0 != 0x01 then (1, [])
  else if crc32c (bs.take 28) != leField bs 28 4 then (2, [])
  else if leField bs 4 6 != lba || bs.getD 3 0 / 2 % 16 + 1 != blocks then (3, [])
  else if bs.getD 3 0 % 2 = 1 then if blen != 4096 * blocks then (4, []) else check (0, body)
  else check (expandBody blocks body)

/-! ### Payloads (R340) -/

/-- The bytes of a capsule that start at place `at'` of the zone's stream and lie in payload `z`: their place in the payload, and
they. -/
def partIn (at' z : Nat) (bs : List Nat) : Nat × List Nat :=
  let first := max at' (4096 * z)
  (first - 4096 * z, (bs.drop (first - at')).take (4096 * (z + 1) - first))

/-- The payload that parts make: zeros lie in the gaps between them and after the last. -/
def payloadData (parts : List (Nat × List Nat)) : Nat :=
  blockOf ((List.range 4096).map fun k =>
    ((parts.find? fun p => decide (p.1 ≤ k) && decide (k < p.1 + p.2.length)).map fun p => p.2.getD (k - p.1) 0).getD 0)

end Sys2Proof.Machine
end

