-- ==== Sys2Proof/Machine/Recovery.lean ====
section
/-! DEFINITION. Machine/Recovery.lean: the recovery ladder (R228 to R236, R241, R242), scheduled reallocations (R237,
R239) and the meanings of their rows that do not wait for Harp. -/
namespace Sys2Proof.Machine

/-! ### Ladders -/

/-- Ladder `id` of String `x`. -/
def State.findLadder (s : State) (x : Str) (id : Nat) : Option Ladder := (s.str.get x).ladders.find? fun l => l.id == id

/-- A ladder changed by `f`. -/
def State.modLadder (s : State) (x : Str) (id : Nat) (f : Ladder → Ladder) : State :=
  s.modStr x fun t => { t with ladders := t.ladders.map fun l => if l.id == id then f l else l }

/-- Sectors on rungs 4 to 8 (R243). -/
def State.activeRungs (s : State) (x : Str) : Nat := ((s.str.get x).ladders.filter fun l => l.state == .revolve).length

/-- ACTIVE and WAITQ follow the ladders. -/
def State.ladderRefresh (s : State) (x : Str) : State :=
  (s.wr .RLDx_STAT_ACTIVE (min 15 (s.activeRungs x)) x.ix).setTo .RLDx_STAT_WAITQ
    ((s.str.get x).ladders.any fun l => l.state == .wait) x.ix

/-- What is being done on slot `i` ends: passes, dispatches, decodes, strike records. -/
def State.cancelSlot (s : State) (x : Str) (i : Nat) : State :=
  let stale (p : Option Pass) : Option Pass := p.map fun p => if p.slot == i then { p with discard := true } else p
  let mine (e : HarpEntry) : Bool := e.x == x && e.slot == i
  let idle (j : LaneJob) : LaneJob :=
    match j with
    | .decoding e => if mine e then .idle else j
    | .checking e _ _ _ => if mine e then .idle else j
    | _ => j
  let s := s.modRch x fun c =>
    { c with passes := c.passes.filter fun p => p.slot != i, heldRestarts := c.heldRestarts.filter fun p => p.slot != i
             pipe1 := stale c.pipe1, pipe2 := stale c.pipe2 }
  let s := s.modRch x fillHeld
  let lane : Option Nat := ((s.str.get x).rch.slots.getD i none).bind fun c => c.slipWon.map (·.2)
  let s := match lane with
    | some n => { s with harp := { s.harp with lanes := s.harp.lanes.set n .idle } }
    | none => s
  { s with harp := { s.harp with
      store := s.harp.store.filter fun e => !mine e, held := s.harp.held.filter fun e => !mine e
      lanes := s.harp.lanes.map idle, records := s.harp.records.filter fun r => !(r.x == x && r.slot == i) } }

/-- A slot is released with its codeword confirmed; its read page or write cell stays taken. -/
def State.freeSlot (s : State) (x : Str) (i : Nat) : State := (s.cancelSlot x i).releaseSlot x i

/-- A slot is released with its sector failed: the page or cell of its capture goes back (R299). -/
def State.failSlot (s : State) (x : Str) (i : Nat) : State :=
  match (s.str.get x).rch.slots.getD i none with
  | none => s
  | some c => (s.giveCredit x c.action.request.source).freeSlot x i

/-- Data sectors of the stripe of physical index `p`, by physical index, beside `p` itself. -/
def stripeOthers (p : Nat) : List Nat := ((List.range 64).map (65 * (p / 65) + ·)).filter (· != p)

/-- The parity source of a stripe (R232): `none`, or whether it is the accumulator. A complete stripe's parity sector is
on media once the media pointer is beyond it, or the zone is Full. -/
def State.paritySource (s : State) (l : Ladder) : Option Bool :=
  match l.zone.bind fun z => s.host.records[z]? with
  | none => none
  | some r =>
    let k := l.place.p / 65
    if 64 * (k + 1) ≤ r.mp || r.state == .full then some false
    else if r.accValid then some true
    else none

/-- The next rung after `l.rung` whose bit is set and whose condition holds (R228). -/
def State.nextRung (s : State) (x : Str) (l : Ladder) : Option Nat :=
  let slot := l.slot.bind fun i => (s.str.get x).rch.slots.getD i none
  let can (n : Nat) : Bool :=
    match n with
    | 1 | 3 => slot.isSome
    | 2 => slot.any fun c => c.alt.isSome
    | 4 => decide (0 < l.retryN) && l.parent.isNone
    | 8 => l.smr && !l.parityTried && l.parent.isNone && (s.paritySource l).isSome
    | _ => l.parent.isNone
  (List.range 9).find? fun n => decide (l.rung < n) && l.enabled.testBit (n - 1) && can n

/-- A detector pass for the rung in progress on a held slot; a refused one is repeated after the next pass (R188). -/
def State.ladderPass (s : State) (x : Str) (l : Ladder) (i : Nat) : State :=
  let pass : Pass :=
    { kind := if l.rung = 3 then .pd else .slip, slot := i, shift := 0, cls := 5, iteration := 1, discard := false }
  let (ok, s) := s.requestPass x pass
  s.modLadder x l.id fun l => { l with posted := ok }

/-- A rung begins. Rungs 1 to 3 work on the slot; a revolution rung releases it and waits for its revolution, or for
ACTIVE to fall below 8 (R228, R241). -/
def State.startRung (s : State) (x : Str) (l : Ladder) (n : Nat) : State :=
  let l := { l with rung := n, used := 0, posted := false }
  match n, l.slot with
  | 1, some i =>
    let s := s.modSlot x i fun c => { c with maxIter := l.extGlb, locMax := 12, scale := l.extAlt, slipRun := true }
    (s.modLadder x l.id fun _ => l).ladderPass x l i
  | 2, some i =>
    let s := s.modSlot x i fun c =>
      { c with align := c.alt.getD c.align, alt := none, slipRun := false, maxIter := s.eff .RCHx_CTRL_GLB_MAX x.ix
               locMax := s.eff .RCHx_CTRL_LOC_MAX x.ix, scale := setField c.snap 5 17 14 }
    (s.modLadder x l.id fun _ => l).ladderPass x l i
  | 3, some i => (s.modLadder x l.id fun _ => l).ladderPass x l i
  | _, slot =>
    let s := match slot with
      | some i => s.failSlot x i
      | none => s
    let wait := decide (8 ≤ s.activeRungs x) && l.state != .revolve
    (s.modLadder x l.id fun _ => { l with slot := none, state := if wait then .wait else .revolve }).ladderRefresh x

/-- A position joins the pending list of its String; the oldest of 256 is dropped and counted (R239, R396). -/
def State.addPending (s : State) (x : Str) (key : Nat) : State :=
  let t := s.str.get x
  if t.pendingList.contains key then s
  else
    let full := 256 ≤ t.pendingList.length
    let s := s.modStr x fun t =>
      { t with pendingList := (if full then t.pendingList.tail else t.pendingList) ++ [key]
               pendOvf := if full then t.pendOvf + 1 else t.pendOvf }
    let s := s.when full fun s => s.logEvent 0x000C 1 x.bit [x.num]
    s.journal (mediaTableRow (key / 4096))

/-- RLDx_LAST and RLDx_LASTLBA at a ladder's end; rung 6 is left with OFFS = 0 (R229). -/
def State.ladderEnd (s : State) (x : Str) (l : Ladder) (code : Nat) : State :=
  let s := ((s.wr .RLDx_LAST_RUNG code x.ix).wr .RLDx_LASTLBA0_LBA_LO (l.place.lba % 2 ^ 32) x.ix).wr .RLDx_LASTLBA1_LBA_HI
    (l.place.lba / 2 ^ 32) x.ix
  let s := s.when (l.rung == 6) fun s => s.postTarget x none (some 0)
  (s.modStr x fun t => { t with ladders := t.ladders.filter fun e => e.id != l.id }).ladderRefresh x

/-- What the requester of a sector hears of its failure (R225, R235). -/
def State.reportFailure (s : State) (l : Ladder) (vendor : Nat) : State :=
  match l.source with
  | .host => if l.detached then s else s.failSector l.command l.place.lba .unrecoveredRead vendor
  | .bce => s.bceFail l.command l.place.lba
  | _ => s

/-- A ladder whose last rung has failed ends (R235, R239). -/
def State.ladderFail (s : State) (x : Str) (l : Ladder) (vendor : Nat) : State :=
  let s := match l.slot with
    | some i => s.failSlot x i
    | none => s
  let s := (s.bump .RLDx_CNT4_FAIL x.ix).ladderEnd x l 15
  let s := s.addPending x (mediaKey l.head l.track l.place.sector)
  s.reportFailure l vendor

/-- A limit of time or an Abort cuts a ladder: the outcome has been given, and it goes on detached (R236, R241). -/
def State.detach (s : State) (x : Str) (id : Nat) : State := s.modLadder x id fun l => { l with detached := true }

/-- A stream sector whose next rung lies above STREAM_RUNG is lost to its deadline: its outcome is given and its ladder
goes on detached (R236, R283). -/
def State.streamCut (s : State) (x : Str) (l : Ladder) (n : Nat) : State :=
  if l.stream && !l.detached && l.parent.isNone && l.streamRung < n then
    ((s.failSector l.command l.place.lba .unrecoveredRead 0).detach x l.id).flag .RLDx_STAT_TLER_CUT x.ix
  else s

/-- The ladder of a position that rung 8 of another ladder reads has failed: the position stays outstanding. -/
def State.subFailed (s : State) (x : Str) (l : Ladder) : State :=
  let s := match l.slot with
    | some i => s.failSlot x i
    | none => s
  s.modStr x fun t => { t with ladders := t.ladders.filter fun e => e.id != l.id }

/-- The rung in progress has failed: the next enabled one begins, or the ladder fails (R228, R241). The ladder of rung 8
that a position belongs to, if its pass may now have ended, is named in the answer. -/
def State.advance (s : State) (x : Str) (l : Ladder) : Option Nat × State :=
  let s := s.when (l.rung = 6) fun s => s.postTarget x none (some 0)
  match s.nextRung x l with
  | some n =>
    let s := s.streamCut x l n
    let l := (s.findLadder x l.id).getD l
    (none, s.startRung x l n)
  | none =>
    match l.parent with
    | some p => (some p, s.subFailed x l)
    | none => (none, s.ladderFail x l 0)

/-- The codeword that rung 8 rebuilds (R232): the XOR of the parity source and of the stripe's other codewords on media,
which is the lost codeword when each agrees with what the parity covers. -/
def State.rebuilt (s : State) (x : Str) (l : Ladder) : Option Content :=
  match l.zone.bind fun z => (s.host.records[z]?).map fun r => (z, r) with
  | none => none
  | some (z, r) =>
    let at' (p : Nat) : Option Codeword :=
      (s.positionOf x r.band p).bind fun (e, track, sector) => s.onMedia x (mediaKey e.head track sector)
    let covers : List (Nat × Content) :=
      match s.paritySource l with
      | some true => if (s.str.get x).wrp.accZone = some z then (s.str.get x).wrp.acc else r.acc
      | some false => match at' (parityIndex (l.place.p / 65)) with | some (.parity c) => c | _ => []
      | none => []
    let agrees := covers.all fun e => e.1 == l.place.p || (match at' e.1 with | some (.data c) => c == e.2 | _ => false)
    match covers.find? fun e => e.1 == l.place.p with
    | some (_, c) => if agrees && c.lba == l.place.lba then some c else none
    | none => none

/-- Positions rung 8 reads: the stripe's other data positions on media, and the parity sector if it is the source. -/
def State.stripeReads (s : State) (l : Ladder) : List Nat :=
  match l.zone.bind fun z => s.host.records[z]? with
  | none => []
  | some r =>
    let written := (stripeOthers l.place.p).filter fun p => decide (p - p / 65 < r.mp)
    match s.paritySource l with
    | some false => written ++ [parityIndex (l.place.p / 65)]
    | _ => written

/-- A Cabinet request for a codeword a rung has recovered (R234). -/
def ladderJob (x : Str) (l : Ladder) (w : Content) (lane : Option Nat) : CabJob :=
  { source := if l.detached || l.source != .host then .scb else .rung l.rung
    cls := if l.source == .host && !l.detached then 1 else 5
    x, lane, command := l.command, lba := l.place.lba, word := some (.data w), slot := 0, ladder := some l.id, action := none
    gen := 0, version := 0, offset := 0 }

/-- Rung 8 with nothing outstanding rebuilds the codeword; with positions outstanding after its last pass it fails; or
it waits for its next pass (R233). -/
def State.parityAdvance (s : State) (x : Str) (id : Nat) : State :=
  match s.findLadder x id with
  | none => s
  | some l =>
    let busy := l.reading != 0 || (s.str.get x).ladders.any fun e => e.parent == some id
    if l.rung != 8 || !l.posted || busy then s
    else
      let l := { l with posted := false, parityTried := true }
      let s := s.modLadder x id fun _ => l
      if l.outstanding.isEmpty then
        match s.rebuilt x l with
        | some w =>
          let s := s.modLadder x id fun l => { l with state := .verify }
          ({ s with cab := { s.cab with holdWait := s.cab.holdWait ++ [ladderJob x l w none] } }).ladderRefresh x
        | none => (s.advance x l).2
      else if l.parRev ≤ l.used then (s.advance x l).2
      else s

/-- A rung on a ladder of String `x` has failed. -/
def State.rungFail (s : State) (x : Str) (id : Nat) : State :=
  match s.findLadder x id with
  | none => s
  | some l =>
    let again := (l.rung = 4 && decide (l.used < l.retryN)) || (l.rung = 6 && decide (l.used < 4))
    if again then s.modLadder x id fun l => { l with posted := false }
    else
      match s.advance x l with
      | (none, s) => s
      | (some p, s) => s.parityAdvance x p

/-- A sector enters the ladder (R228): the registers take their boundary and their values stay with it (R243). `from'` is
the rung it enters behind. -/
def State.enterLadder (s : State) (x : Str) (slot : Option Nat) (a : Armed) (head from' : Nat) : State :=
  let s := s.boundary .rld x.num
  let r := a.request
  let place := (r.places[a.offset]?).getD { sector := 0, p := 0, lba := 0, word := none }
  let id := (s.str.get x).ladderNext
  let band := (r.zone.bind fun z => s.host.records[z]?).map (·.band)
  let l : Ladder :=
    { id, source := r.source, place, head, track := r.track, set := r.set, zone := r.zone
      smr := band.any fun b => !(s.isUnit x b)
      slot, state := .buffered, rung := from', used := 0, detached := false, command := r.tag, stream := r.stream, slipOk := r.slipOk
      retryN := s.rd .RLDx_CFG_RETRY_N x.ix, offStep := s.rd .RLDx_CFG_OFF_STEP x.ix
      reallocRung := s.eff .RLDx_CFG_REALLOC_RUNG x.ix, streamRung := s.eff .RLDx_CFG_STREAM_RUNG x.ix
      extGlb := s.eff .RLDx_CFG_EXT_GLB x.ix, extAlt := s.eff .RLDx_CFG_EXT_ALT x.ix, parRev := s.eff .RLDx_CFG_PAR_REV x.ix
      enabled := s.rd .RLDx_EN_RUNG_EN x.ix
      posted := false, outstanding := [], reading := 0, parityTried := false
      parent := if r.source == .ladder then some r.tag else none }
  let s := s.modStr x fun t => { t with ladders := t.ladders ++ [l], ladderNext := id + 1 }
  let s := match slot with
    | some i => s.modSlot x i fun c => { c with ladder := some id }
    | none => s
  s.rungFail x id

/-! ### Success -/

/-- Register of a rung's counter. -/
def rungCounter (n : Nat) : Reg :=
  match n with
  | 1 => .RLDx_CNT0_RUNG1
  | 2 => .RLDx_CNT0_RUNG2
  | 3 => .RLDx_CNT1_RUNG3
  | 4 => .RLDx_CNT1_RUNG4
  | 5 => .RLDx_CNT2_RUNG5
  | 6 => .RLDx_CNT2_RUNG6
  | 7 => .RLDx_CNT3_RUNG7
  | _ => .RLDx_CNT3_RUNG8

/-- The kind of a record's namespace is Managed. -/
def State.zoneManaged (s : State) (z : Option Nat) : Bool :=
  match z.bind fun z => s.host.records[z]? with
  | some r => ((s.ns r.nsid).map fun n => n.kind == .managed).getD false
  | none => false

/-- A sector recovered at REALLOC_RUNG or above is scheduled for reallocation in the Chest (R237). A band position
joins the pending skip requests; a unit's and a Managed zone's are carried out at once by REALLOCATE. -/
def State.schedule (s : State) (x : Str) (l : Ladder) (w : Codeword) : State :=
  match l.zone.bind fun z => s.host.records[z]? with
  | none => s
  | some r =>
    let s := s.bump .RLDx_CNT4_REALLOC x.ix
    let managed := s.zoneManaged l.zone
    let s := if l.smr then
        (s.extent x r.band).elim s fun e =>
          s.requestSkips x r.band [(e.posOf (s.format x).shdir l.track l.place.sector, s.rd .SB_RTC_SEC)]
      else s
    let s := if !l.smr || managed then
        s.modStr x fun t => { t with reallocs := t.reallocs ++
          [{ head := l.head, track := l.track, place := l.place, zone := l.zone, word := w, smr := l.smr, managed, tries := 0 }] }
      else s
    s.journal (mediaTableRow r.band)

/-- A recovered codeword has passed the Cabinet: the ladder ends in success (R234, R235, R237). -/
def State.ladderDone (s : State) (x : Str) (l : Ladder) (w : Codeword) : State :=
  let s := (s.bump (rungCounter l.rung) x.ix).ladderEnd x l l.rung
  if l.reallocRung ≤ l.rung && l.reallocRung ≤ 8 then s.schedule x l w else s

/-- A tag failure of a codeword a ladder recovered (R234, R325): rung 8 if it is available and untried, else the ladder
fails with the authentication mark. -/
def State.ladderTagFail (s : State) (x : Str) (l : Ladder) : State :=
  let s := s.when (l.rung == 6) fun s => s.postTarget x none (some 0)
  let l := { l with rung := max 7 l.rung, state := .revolve }
  let s := s.modLadder x l.id fun _ => l
  match s.nextRung x l with
  | some n => s.startRung x ((s.findLadder x l.id).getD l) n
  | none => s.ladderFail x l 1

/-! ### Meanings -/

/-- The String can read a sector of a ladder now (R231): its heads are over a track or on the way to the target that the
read posts, not in RETRACT or UNLOADED, and the String is in service. -/
def State.canRead (s : State) (x : Str) : Bool :=
  let st := s.sceState x
  2 ≤ st && st ≤ 4 && !s.isLost x

/-- Offset of rung 6's k-th read: +, −, +2, −2 steps (R228). -/
def offTrack (step k : Nat) : Int :=
  let m : Int := if k < 2 then step else 2 * (step : Int)
  if k % 2 = 0 then m else -m

/-- What HK_LADDER answers before a rung (R381): asked once for the rung, and `run` where no module answers. -/
def State.ladderHook (s : State) (l : Ladder) (answer : LadderHook) : LadderHook :=
  if l.used = 0 && s.hookAlive 3 then answer else .run

/-- HK_LADDER skips a rung: the ladder goes on to the next one, as after a rung that failed, without its revolution. -/
def State.skipRung (s : State) (x : Str) (l : Ladder) : State :=
  match s.advance x { l with parityTried := l.parityTried || l.rung = 8 } with
  | (none, s) => s
  | (some p, s) => s.parityAdvance x p

/-- HK_LADDER stops a ladder: it fails where it stands, its sector unrecovered (R381, log entry 70). -/
def State.stopLadder (s : State) (x : Str) (l : Ladder) : State :=
  match l.parent with
  | none => s.ladderFail x l 0
  | some p => (s.subFailed x l).parityAdvance x p

/-- LADDER_REVOLUTION (R228 to R231): a revolution rung posts its retry read, unless HK_LADDER skips it or stops the ladder. -/
def State.ladderRevolution (s : State) (x : Str) (turn : LadderTurn) : State :=
  let id := turn.ladder
  match s.findLadder x id with
  | none => s
  | some l =>
    if l.state != .revolve || l.posted || l.rung < 4 || 8 ≤ l.rung || !s.canRead x then s
    else if s.ladderHook l turn.hook = .skip then s.skipRung x l
    else if s.ladderHook l turn.hook = .stop then s.stopLadder x l
    else
      let s := s.modLadder x id fun l => { l with posted := true, used := l.used + 1 }
      let (rid, s) := s.newRequestId
      s.postRequest x .rsq
        { id := rid, type := 0, track := l.track, head := l.head, set := l.set, slipOk := l.slipOk, stream := l.stream
          places := [l.place], source := .ladder, tag := id, zone := l.zone
          offs := if l.rung = 6 then offTrack l.offStep l.used else 0 }

/-- PARITY_PASS (R233): rung 8 reads every outstanding position of the stripe. -/
def State.parityPass (s : State) (x : Str) (turn : LadderTurn) : State :=
  let id := turn.ladder
  match s.findLadder x id with
  | none => s
  | some l =>
    match l.zone.bind fun z => s.host.records[z]? with
    | none => s
    | some r =>
      if l.state != .revolve || l.posted || l.rung != 8 || !s.canRead x then s
      else if s.ladderHook l turn.hook = .skip then s.skipRung x l
      else if s.ladderHook l turn.hook = .stop then s.stopLadder x l
      else
        let todo := if l.used = 0 then s.stripeReads l else l.outstanding
        let s := s.modLadder x id fun l => { l with posted := true, used := l.used + 1, outstanding := todo, reading := todo.length }
        let at' (p : Nat) : Nat × Nat × Option Codeword :=
          (p, ((s.positionOf x r.band p).bind fun (e, track, sector) =>
            match s.onMedia x (mediaKey e.head track sector) with
            | some (.data c) => some c.lba
            | _ => none).getD 0, none)
        let s := s.postPlaces x .rsq .ladder id l.zone l.stream l.slipOk 0 r.band (todo.map at')
        s.parityAdvance x id

/-- LADDER_RESUME (R241): the sectors in WAIT return to REVOLVE in entry order while ACTIVE is below 8. -/
def State.ladderResume (s : State) (x : Str) : State :=
  if 8 ≤ s.activeRungs x then s
  else
    match (s.str.get x).ladders.find? fun l => l.state == .wait with
    | none => s
    | some l => (s.modLadder x l.id fun l => { l with state := .revolve }).ladderRefresh x

/-- The ladders of a command's sectors on String `x` are detached. -/
def State.detachOf (s : State) (x : Str) (f : Nat) : State :=
  s.modStr x fun t => { t with ladders := t.ladders.map fun l =>
    if l.source == .host && l.command == f then { l with detached := true } else l }

/-- TLER of the controller that fetched a command: the Error Recovery feature, 05h (R236). -/
def State.tler (s : State) (c : Cmd) : Nat :=
  match s.host.controllers[c.hqe]? with
  | none => 0
  | some k => k.feature 5 % 65536

/-- TLER_EXPIRY (R236): with TLER not 0, the sectors of an ordinary command that are on a ladder take Unrecovered Read,
TLER_CUT is set on their Strings and the ladders go on detached. -/
def State.tlerExpiry (s : State) (f : Nat) : State :=
  match s.findCmd f with
  | none => s
  | some c =>
    if s.tler c = 0 || c.ready.isSome then s
    else
      Str.all.foldl (fun s x =>
        let mine := (s.str.get x).ladders.filter fun l => l.source == .host && l.command == f && !l.detached
        if mine.isEmpty then s
        else
          let s := mine.foldl (fun s l => s.failSector f l.place.lba .unrecoveredRead 0) s
          (s.detachOf x f).flag .RLDx_STAT_TLER_CUT x.ix) s

def execLadderRevolution (x : Str) (turn : LadderTurn) (s : State) : Host.Outcome State Fault Refusal :=
  .next (s.onStr x fun s => s.ladderRevolution x turn)

def execParityPass (x : Str) (turn : LadderTurn) (s : State) : Host.Outcome State Fault Refusal :=
  .next (s.onStr x fun s => s.parityPass x turn)

def execLadderResume (x : Str) (s : State) : Host.Outcome State Fault Refusal :=
  .next (s.onStr x fun s => s.ladderResume x)

def execTlerExpiry (fseq : Nat) (s : State) : Host.Outcome State Fault Refusal := .next (s.tlerExpiry fseq)

end Sys2Proof.Machine
end

