-- ==== Sys2Proof/Machine/Harp.lean ====
section
/-! DEFINITION. Machine/Harp.lean: the Harp decoder pool (R164, R165, R187 to R198): the dispatch store, the lanes, the
syndrome check, strikes, the slip search, and the meanings of their commands. What a lane finds is an operand; what the
media holds decides what a confirmed codeword is. -/
namespace Sys2Proof.Machine

/-- Harp's hidden state changed by `f`. -/
def State.modHarp (s : State) (f : Harp → Harp) : State := { s with harp := f s.harp }

/-! ### Lanes in service -/

/-- Quad of a lane (R190). -/
def laneQuad (n : Nat) : Nat := n / 4

/-- What a lane is doing. -/
def State.laneJob (s : State) (n : Nat) : LaneJob := s.harp.lanes.getD n .idle

/-- A lane's work set. -/
def State.setLane (s : State) (n : Nat) (j : LaneJob) : State := s.modHarp fun h => { h with lanes := h.lanes.set n j }

/-- A lane may take work: in service, idle, not withdrawn, not gated (R191). -/
def State.eligible (s : State) (n : Nat) : Bool :=
  !s.bit .HARP_RETIRED_LANES n && !s.bit .HARP_WDRAWN_LANES n && !s.bit .HARP_GATED_LANES n && s.laneJob n == .idle
    && !s.therm.draining.contains (n / 4)

/-- Lanes in service (R196). -/
def State.lanesIn (s : State) : Nat := 32 - countOnes (s.rd .HARP_RETIRED_LANES) 32

/-- Strikes of a lane. -/
def State.strikes (s : State) (n : Nat) : Nat :=
  s.rd (if n < 16 then .HARP_STRIKE0_COUNT else .HARP_STRIKE1_COUNT) / 4 ^ (n % 16) % 4

/-- Strikes of a lane set, and written to the Chest (R193). -/
def State.setStrikes (s : State) (n v : Nat) : State :=
  let r : Reg := if n < 16 then .HARP_STRIKE0_COUNT else .HARP_STRIKE1_COUNT
  (s.wr r (s.rd r - s.strikes n * 4 ^ (n % 16) + v % 4 * 4 ^ (n % 16))).journal (deviceRow 0)

/-- With no lane in service, what waits is cancelled and each host sector that needs the media takes Internal Error
(R196). -/
def State.noLanes (s : State) : State :=
  let s := s.modHarp fun h => { h with store := [], held := [] }
  Str.all.foldl (fun s x => s.failReads x (some .internalError)) s

/-- INSVC, AVAIL and BELOW_FLOOR follow the lanes; a fall below the floor is noticed once (R196). -/
def State.harpRefresh (s : State) : State :=
  let n := s.lanesIn
  let away := s.rd .HARP_RETIRED_LANES ||| s.rd .HARP_WDRAWN_LANES ||| s.rd .HARP_GATED_LANES
  let s := (s.wr .HARP_STAT_INSVC n).wr .HARP_STAT_AVAIL (32 - countOnes away 32)
  let s :=
    if n < 20 then
      let s := s.flag .HARP_STAT_BELOW_FLOOR
      let s := s.when (!s.harp.noticed) fun s =>
        (((s.modHarp fun h => { h with noticed := true }).logEvent 0x0003 2 0 [n]).vendorEvent 0x01 fun _ => true)
      s.setDegr 1 true
    else ((s.unflag .HARP_STAT_BELOW_FLOOR).modHarp fun h => { h with noticed := false }).setDegr 1 false
  (s.when (n = 0) State.noLanes).streamRefresh

/-- A lane is retired (R193, R195): HARP_RETIRED, HARP_LOG, LANE_RETIRED, the event, streams re-admitted. -/
def State.retireLane (s : State) (n cause : Nat) : State :=
  let s := ((s.flagBit .HARP_RETIRED_LANES n).unflagBit .HARP_WDRAWN_LANES n).flag .HARP_STAT_LANE_RETIRED
  let s := ((s.wr .HARP_LOG_LANE n).wr .HARP_LOG_CAUSE cause).wr .HARP_LOGTIME_TIME (s.timebase % 2 ^ 32)
  let s := (s.logEvent 0x0001 1 0 [n, cause, s.lanesIn]).journal (deviceRow 0)
  s.harpRefresh.readmitReads

/-- A self-test of a withdrawn lane starts. -/
def State.startSelfTest (s : State) (n : Nat) : State := ((s.flagBit .HARP_WDRAWN_LANES n).setLane n .selfTest).harpRefresh

/-! ### The dispatch store (R191) -/

/-- The newest entry of a class in the store. -/
def newestOf (store : List HarpEntry) (cls : Nat) : Option HarpEntry := (store.filter fun e => e.cls == cls).getLast?

/-- The last occurrence of an entry taken out. -/
def dropLast (store : List HarpEntry) (e : HarpEntry) : List HarpEntry := (store.reverse.erase e).reverse

/-- An entry is offered to the store: whether it is stored or held, and the state. A class-3 entry that finds the store
full of classes 1 to 3 is neither. -/
def State.offer (s : State) (e : HarpEntry) : Bool × State :=
  let h := s.harp
  if h.store.length < 48 then (true, s.modHarp fun h => { h with store := h.store ++ [e] })
  else if 4 ≤ e.cls then (true, s.modHarp fun h => { h with held := h.held ++ [e] })
  else
    match newestOf h.store 5 <|> newestOf h.store 4 with
    | some v => (true, s.modHarp fun h => { h with store := dropLast h.store v ++ [e], held := h.held ++ [v] })
    | none =>
      if e.cls = 3 then (false, (s.flag .HARP_STAT_OVF).bump .HARP_CNT3_OVF)
      else (true, s.modHarp fun h => { h with held := h.held ++ [e] })

/-- The entry of the lowest class, the oldest in it. -/
def nextEntry (q : List HarpEntry) : Option HarpEntry := [1, 2, 3, 4, 5].findSome? fun c => q.find? fun e => e.cls == c

/-- A released store entry is taken by what is held, in class order. -/
def State.refillStore (s : State) : State :=
  match nextEntry s.harp.held with
  | some e =>
    if s.harp.store.length < 48 then
      s.modHarp fun h => { h with held := h.held.erase e, store := h.store ++ [e] }
    else s
  | none => s

/-- HARP_DISPATCH (R191): S fields take effect, and the first eligible lane, least recently used first, loads the entry
of the lowest class; a codeword struck in a lane's quad passes over that lane while another quad has an eligible one. -/
def State.harpDispatch (s : State) : State :=
  let s := s.boundary .harp 0
  match nextEntry s.harp.store with
  | none => s
  | some e =>
    let free := s.harp.lru.filter s.eligible
    let apart := free.filter fun n => e.struckQuad != some (laneQuad n)
    match (if apart.isEmpty then free else apart) with
    | [] => s
    | n :: _ =>
      let s := s.modHarp fun h => { h with store := h.store.erase e, lru := h.lru.erase n ++ [n] }
      (s.setLane n (.decoding e)).refillStore

/-! ### Slots under decode -/

/-- Slot `i` of String `x`, if it is held. -/
def State.slot (s : State) (x : Str) (i : Nat) : Option Slot := (s.str.get x).rch.slots.getD i none

/-- The place of the sector a slot captured. -/
def Slot.place (c : Slot) : Place := (c.action.request.places[c.action.offset]?).getD { sector := 0, p := 0, lba := 0, word := none }

/-- The decode is a slip candidate's. -/
def Slot.slipping (c : Slot) (e : HarpEntry) : Bool := e.shift != 0 && c.slipOut.contains e.shift

/-- Most global iterations of a decode (R164, R187, R228). -/
def State.iterLimit (s : State) (c : Slot) (e : HarpEntry) : Nat :=
  if c.slipping e then s.eff .HARP_CTRL_SLIP_GLB else c.maxIter

/-! ### Slip search (R187, R188) -/

/-- Shifts in the order of SLIP_ORD with |s| at most SLIP_MAX. -/
def slipOrder (ord max : Nat) : List Int :=
  let all : List Int := match ord with
    | 1 => [1, 2, 3, 4, -1, -2, -3, -4]
    | 2 => [-1, -2, -3, -4, 1, 2, 3, 4]
    | _ => [1, -1, 2, -2, 3, -3, 4, -4]
  all.filter fun k => k.natAbs ≤ max

/-- Candidates are requested while fewer than two are outstanding; a refused one stays first. -/
def State.slipIssue (s : State) (x : Str) (i : Nat) : Nat → State
  | 0 => s
  | n + 1 =>
    match s.slot x i with
    | none => s
    | some c =>
      match c.slipCands with
      | [] => s
      | k :: rest =>
        if 2 ≤ c.slipOut.length then s
        else
          let (ok, s) := s.requestPass x { kind := .slip, slot := i, shift := k, cls := 4, iteration := 1, discard := false }
          if ok then
            (s.modSlot x i fun c => { c with slipCands := rest, slipOut := c.slipOut ++ [k] }).slipIssue x i n
          else s

/-- The slip search of a slot begins. -/
def State.slipStart (s : State) (x : Str) (i : Nat) : State :=
  let cands := slipOrder (s.eff .HARP_CTRL_SLIP_ORD) (s.eff .HARP_CTRL_SLIP_MAX)
  (s.modSlot x i fun c => { c with slipRun := true, slipCands := cands, slipOut := [], slipWon := none }).slipIssue x i 2

/-- Register of the histogram of a shift. -/
def slipBin (k : Int) : Reg :=
  match k with
  | 1 => .HARP_SLIPHIST_P1
  | 2 => .HARP_SLIPHIST_P2
  | 3 => .HARP_SLIPHIST_P3
  | 4 => .HARP_SLIPHIST_P4
  | -1 => .HARP_SLIPHIST_N1
  | -2 => .HARP_SLIPHIST_N2
  | -3 => .HARP_SLIPHIST_N3
  | _ => .HARP_SLIPHIST_N4

/-! ### Where a codeword goes -/

/-- The position of rung 8's stripe that a slot captured has been read (R233). -/
def State.positionRead (s : State) (x : Str) (id p : Nat) (ok : Bool) : State :=
  (s.modLadder x id fun l =>
    { l with reading := l.reading - 1, outstanding := if ok then l.outstanding.erase p else l.outstanding })

/-- A confirmed codeword waits in its lane for a holding entry of the Cabinet (R324). -/
def State.toCabinet (s : State) (x : Str) (lane : Nat) (e : HarpEntry) (j : CabJob) : State :=
  let s := s.when (decide (64 ≤ s.rd .CAB_STAT_HOLD_USED)) fun s => (s.flag .CAB_STAT_HOLD_WAIT).bump .CAB_CNT3_HOLD_WAIT
  let s := { s with cab := { s.cab with holdWait := s.cab.holdWait ++ [j] } }
  (s.setLane lane (.waiting e)).freeSlot x e.slot

/-- A confirmed codeword of an ordinary capture goes to whom it was read for: through the Cabinet for a host command or
an SCB read, to the Bridge for the BCE (R223), to nobody for a read-back (R221) or a calibration. -/
def State.deliverInline (s : State) (x : Str) (lane : Nat) (e : HarpEntry) (c : Slot) (w : Content) : State :=
  let r := c.action.request
  let verify := ((s.findCmd r.tag).map fun k => match k.op with | .verify .. => true | _ => false).getD false
  let job : CabJob :=
    { source := .inline, cls := 1, x, lane := some lane, command := r.tag, lba := c.place.lba, word := some (.data w), slot := 0
      ladder := none, action := some c.action, gen := 0, version := 0, offset := 0 }
  match r.source with
  | .host => s.toCabinet x lane e (if verify then { job with source := .verifyCmd } else job)
  | .scb => s.toCabinet x lane e { job with source := .scb, cls := 5 }
  | .bce => (s.freeSlot x e.slot).bceDeliver r.tag c.place.lba w
  | _ => s.failSlot x e.slot

/-- A confirmed codeword that has passed the LBA check goes on (R189, R192, R234). -/
def State.deliver (s : State) (x : Str) (lane : Nat) (e : HarpEntry) (c : Slot) : State :=
  let w : Content := match c.word with
    | some (.data w) => w
    | _ => { lba := 0, gen := 0, nstag := 0, key := 0, data := 0 }
  match c.ladder.bind (s.findLadder x ·) with
  | none => if c.action.request.source == .ladder then s.failSlot x e.slot else s.deliverInline x lane e c w
  | some l =>
    match l.parent with
    | some p =>
      let s := (s.failSlot x e.slot).modStr x fun t => { t with ladders := t.ladders.filter fun k => k.id != l.id }
      (s.modLadder x p fun k => { k with outstanding := k.outstanding.erase l.place.p }).parityAdvance x p
    | none =>
      if l.rung = 8 then ((s.failSlot x e.slot).positionRead x l.id c.place.p true).parityAdvance x l.id
      else
        let s := s.modLadder x l.id fun l => { l with state := .verify, slot := none }
        (s.toCabinet x lane e (ladderJob x l w (some lane))).ladderRefresh x

/-- A capture for a revolution rung has failed its decode and its slip search (R228, R233). -/
def State.captureFailed (s : State) (x : Str) (l : Ladder) (i : Nat) (c : Slot) : State :=
  if l.rung = 8 then
    let s := (s.positionRead x l.id c.place.p false).modSlot x i fun c => { c with ladder := none }
    (s.enterLadder x (some i) c.action c.head 0).parityAdvance x l.id
  else (s.failSlot x i).rungFail x l.id

/-- The decodes of a slot have ended without a codeword, slip search included. -/
def State.slotFailed (s : State) (x : Str) (i : Nat) (c : Slot) : State :=
  let s := s.adaptVerdict x i false
  match c.ladder with
  | none => s.enterLadder x (some i) c.action c.head 0
  | some id =>
    match s.findLadder x id with
    | none => s.failSlot x i
    | some l => if l.slot = some i then s.rungFail x id else s.captureFailed x l i c

/-- A decode has failed outside the slip search: the slip search runs if it is enabled and has not run for the slot, and
the codeword is not a bit-flipping one; otherwise the slot has failed (R187, R189, R228). -/
def State.decodeFailed (s : State) (x : Str) (e : HarpEntry) (c : Slot) : State :=
  let ladderTail := (c.ladder.bind (s.findLadder x ·)).any fun l => l.slot = some e.slot && l.rung != 2
  if s.isSet .HARP_CTRL_SLIP_EN && !c.slipRun && !e.bitFlip && !ladderTail then s.slipStart x e.slot
  else s.slotFailed x e.slot c

/-- The slip search succeeds with a shift whose codeword waits in `lane` (R187). -/
def State.slipWin (s : State) (x : Str) (i : Nat) (k : Int) (lane : Nat) : State :=
  let e : HarpEntry := { x, slot := i, cls := 4, shift := k, iteration := 1, bitFlip := false, struckQuad := none }
  let s := (s.bump .HARP_CNT2_SLIP_OK).bump (slipBin k)
  let s := (s.cancelSlot x i).modSlot x i fun c =>
    { c with align := c.align + k, slipCands := [], slipOut := [], slipWon := none }
  match s.slot x i with
  | none => s
  | some c => (s.adaptVerdict x i true).deliver x lane e c

/-- A candidate has ended without a codeword: a held success wins once no earlier candidate runs; further candidates are
requested; with none left the search has failed. -/
def State.slipLost (s : State) (x : Str) (i : Nat) (k : Int) : State :=
  let s := s.modSlot x i fun c => { c with slipOut := c.slipOut.erase k }
  match s.slot x i with
  | none => s
  | some c =>
    match c.slipWon with
    | some (w, lane) =>
      let order := slipOrder (s.eff .HARP_CTRL_SLIP_ORD) 4
      let before := order.takeWhile (· != w)
      if c.slipOut.any fun o => before.contains o then s.slipIssue x i 2 else s.slipWin x i w lane
    | none =>
      let s := s.slipIssue x i 2
      let idle := (s.slot x i).any fun c => c.slipOut.isEmpty && c.slipCands.isEmpty
      if idle then (s.bump .HARP_CNT2_SLIP_FAIL).slotFailed x i c else s

/-- A candidate has been confirmed (R187): the earliest in order wins; one that an earlier one may still beat is held in
its lane. -/
def State.slipHit (s : State) (x : Str) (lane : Nat) (e : HarpEntry) (c : Slot) : State :=
  let order := slipOrder (s.eff .HARP_CTRL_SLIP_ORD) 4
  let before := order.takeWhile (· != e.shift)
  let earlier := c.slipOut.any fun o => before.contains o
  let beaten := c.slipWon.any fun w => before.contains w.1
  let s := s.modSlot x e.slot fun c => { c with slipOut := c.slipOut.erase e.shift }
  if beaten then s
  else
    let s := match c.slipWon with
      | some (_, n) => s.setLane n .idle
      | none => s
    if earlier then
      ((s.setLane lane (.waiting e)).modSlot x e.slot fun c => { c with slipWon := some (e.shift, lane) }).slipIssue x e.slot 2
    else s.slipWin x e.slot e.shift lane

/-! ### Strikes (R193, R194) -/

/-- A RESTART of the codeword a lane held is asked for (R165, R193). -/
def State.restartCodeword (s : State) (e : HarpEntry) : State :=
  let s := s.bump .HARP_CNT1_RESTARTS
  (s.requestPass e.x { kind := .restart, slot := e.slot, shift := e.shift, cls := 1, iteration := 1, discard := false }).2

/-- A lane takes a strike with a cause (R193). -/
def State.strike (s : State) (n cause : Nat) : State :=
  let k := min 3 (s.strikes n + 1)
  let s := ((s.setStrikes n k).flag .HARP_STAT_STRIKE).bump .HARP_CNT1_STRIKES
  if k = 3 then (s.setLane n .idle).retireLane n cause else s.startSelfTest n

/-- A strike on a codeword: the lane's claim is recorded and the codeword restarts. -/
def State.strikeOn (s : State) (n cause : Nat) (e : HarpEntry) (signature : Option Nat) : State :=
  let s := s.strike n cause
  let rec' : StrikeRecord := { x := e.x, slot := e.slot, lane := n, signature, retired := s.bit .HARP_RETIRED_LANES n }
  (s.modHarp fun h =>
    { h with records := rec' :: h.records.filter fun r => !(r.x == e.x && r.slot == e.slot) }).restartCodeword e

/-- A checker is retired; if its partner is retired too, the eight lanes of the pair are retired (R194). -/
def State.retireChecker (s : State) (q : Nat) : State :=
  let s := ((s.flagBit .HARP_STAT_CHK_RET q).logEvent 0x0002 1 0 [q]).journal (deviceRow 0)
  if s.bit .HARP_STAT_CHK_RET (q ^^^ 1) then
    ((List.range 4).map (4 * q + ·) ++ (List.range 4).map (4 * (q ^^^ 1) + ·)).foldl (fun s n =>
      s.when (!s.bit .HARP_RETIRED_LANES n) fun s =>
        let s := match s.laneJob n with
          | .decoding e | .checking e _ _ _ => (s.setLane n .idle).restartCodeword e
          | .selfTest => s.setLane n .idle
          | _ => s
        s.retireLane n 4) s
  else s

/-- The restarted codeword is confirmed (R194): with the same signature in a lane of another quad, the strike and the
retirement it caused are withdrawn and a fault is counted against the checker of the struck lane's quad. -/
def State.settleStrike (s : State) (n signature : Nat) (e : HarpEntry) : State :=
  match s.harp.records.find? fun r => r.x == e.x && r.slot == e.slot with
  | none => s
  | some r =>
    let s := s.modHarp fun h => { h with records := h.records.filter fun k => !(k.x == e.x && k.slot == e.slot) }
    if r.signature != some signature || laneQuad r.lane = laneQuad n then s
    else
      let q := laneQuad r.lane
      let s := s.setStrikes r.lane (s.strikes r.lane - 1)
      let s := if r.retired && s.bit .HARP_RETIRED_LANES r.lane then
          ((s.unflagBit .HARP_RETIRED_LANES r.lane).startSelfTest r.lane).journal (deviceRow 0)
        else s
      let s := (s.flag .HARP_STAT_CHK_FAULT).modHarp fun h => { h with chkFaults := h.chkFaults.modify q (· + 1) }
      s.when (s.harp.chkFaults.getD q 0 == 2) fun s => s.retireChecker q

/-! ### The verdict (R192) -/

/-- A codeword is confirmed: the restart's strike is settled; the LBA check of R189, with the CRC-16 of R499, which parity positions are spared
(R206), sends it on or fails it. -/
def State.confirmed (s : State) (n : Nat) (e : HarpEntry) (signature : Nat) : State :=
  let s := (s.bump .HARP_CNT0_CONFIRMED).settleStrike n signature e
  match s.slot e.x e.slot with
  | none => s
  | some c =>
    let good := match c.word with
      | some (.data w) => w.lba == c.place.lba && w.check == lbaCheck w
      | some (.parity _) => true
      | none => false
    if !good then
      let s := s.flag .HARP_STAT_LBA_MISMATCH
      if c.slipping e then s.slipLost e.x e.slot e.shift else s.decodeFailed e.x e c
    else if c.slipping e then s.slipHit e.x n e c
    else (s.adaptVerdict e.x e.slot true).deliver e.x n e c

/-- A global iteration has ended unconverged (R164, R165): REDET, with the returned extrinsics as its a priori, while iterations are
left and the queue takes it. -/
def State.unconverged (s : State) (e : HarpEntry) (ext : List Int) : State :=
  match s.slot e.x e.slot with
  | none => s
  | some c =>
    let fail (s : State) : State :=
      if c.slipping e then s.slipLost e.x e.slot e.shift else s.decodeFailed e.x e c
    if !e.bitFlip && e.iteration < s.iterLimit c e then
      let pass : Pass :=
        { kind := .redet, la := ext, slot := e.slot, shift := e.shift, cls := if 4 ≤ e.cls then e.cls else 2, iteration := e.iteration + 1
          discard := false }
      let (ok, s) := s.requestPass e.x pass
      if ok then s else fail ((s.flag .RCHx_STAT_ITER_LIM e.x.ix).bump .RCHx_CNT1_ITER_LIM e.x.ix)
    else fail s

/-- SYNDROME_VERDICT (R192): the quad's checker, or its partner's, has computed the syndrome. -/
def State.verdict (s : State) (n : Nat) (zero : Bool) : State :=
  match s.laneJob n with
  | .checking e claim signature ext =>
    let s := s.setLane n .idle
    let s :=
      if zero then (s.when (!claim) fun s => s.bump .HARP_CNT3_MISCLAIM).confirmed n e signature
      else if claim then s.strikeOn n 0 e (some signature)
      else s.unconverged e ext
    if s.harp.retireAfter.contains n then
      let s := s.modHarp fun h => { h with retireAfter := h.retireAfter.erase n }
      s.when (!s.bit .HARP_RETIRED_LANES n) fun s => s.retireLane n 3
    else s
  | _ => s

/-! ### Passes (R165, R174) -/

/-- A slot's decode is of hard decisions: captured through the peak detector, or on a PD pass (R171). -/
def State.hard (s : State) (x : Str) (c : Slot) : Bool :=
  c.peak || (c.ladder.bind (s.findLadder x ·)).any fun l => l.rung = 3 && l.slot.isSome

/-- What a finished pass offers to the dispatch store; PD_POL counts what its peak detector discarded (R170). -/
def State.passEntry (s : State) (x : Str) (p : Pass) (c : Slot) : HarpEntry × State :=
  let hard := p.kind == .pd || s.hard x c
  let (input, dropped) := s.slotInput x p.slot c p.shift hard p.la
  let struck := (s.harp.records.find? fun r => r.x == x && r.slot == p.slot).map fun r => laneQuad r.lane
  ({ x, slot := p.slot, cls := p.cls, shift := p.shift, iteration := p.iteration, bitFlip := hard, struckQuad := struck, input }
  , s.when (dropped != 0) fun s => s.bump .RCHx_CNT2_PD_POL x.ix dropped)

/-- Requests that a full queue refused are repeated (R165, R188). -/
def State.repeatPasses (s : State) (x : Str) : State :=
  let s := (List.range 10).foldl (fun s i => s.slipIssue x i 2) s
  (s.str.get x).ladders.foldl (fun s l =>
    match l.slot with
    | some i => s.when (l.state == .buffered && !l.posted) fun s => s.ladderPass x l i
    | none => s) s

/-- DETECTOR_PASS_DONE (R165): pipe 1 or 2 has finished its pass; the result is offered to Harp unless it is discarded;
the next pass starts. -/
def State.passDone (s : State) (x : Str) (second : Bool) : State :=
  let c := (s.str.get x).rch
  match (if second then c.pipe2 else c.pipe1) with
  | none => s
  | some p =>
    let s := (s.modRch x fun c => if second then { c with pipe2 := none } else { c with pipe1 := none }).startPasses x
    let s := match s.slot x p.slot with
      | some c =>
        if p.discard then s
        else
          let (e, s) := s.passEntry x p c
          (s.offer e).2
      | none => s
    s.repeatPasses x

/-- CODEWORD_READY (R174, R191): a live capture is offered in class 3; one the store cannot take passes to the ladder
undecoded. -/
def State.codewordReady (s : State) (x : Str) (i : Nat) : State :=
  match s.slot x i with
  | none => s
  | some c =>
    if c.recording then s
    else
      let (input, dropped) := s.slotInput x i c 0 c.peak []
      let s := s.when (dropped != 0) fun s => s.bump .RCHx_CNT2_PD_POL x.ix dropped
      let e : HarpEntry := { x, slot := i, cls := 3, shift := 0, iteration := 1, bitFlip := c.peak, struckQuad := none, input }
      let (ok, s) := s.offer e
      if ok then s
      else
        match c.ladder.bind (s.findLadder x ·) with
        | some l => s.captureFailed x l i c
        | none => s.enterLadder x (some i) c.action c.head 0

/-! ### Retirement by command (R195, R198) -/

/-- RETIRE of a lane: a decode restarts its codeword; a lane whose result is being checked retires after its verdict. -/
def State.harpRetire (s : State) (n : Nat) : State :=
  let s := s.wr .HARP_CTRL_RLANE n
  if s.bit .HARP_RETIRED_LANES n then s
  else
    match s.laneJob n with
    | .decoding e => ((s.setLane n .idle).restartCodeword e).retireLane n 3
    | .checking .. => s.modHarp fun h => { h with retireAfter := if h.retireAfter.contains n then h.retireAfter else n :: h.retireAfter }
    | .selfTest => (s.setLane n .idle).retireLane n 3
    | _ => s.retireLane n 3

/-- UNRETIRE of a lane in Maintenance: strikes and retirement are cleared and the lane tests itself (R198). -/
def State.harpUnretire (s : State) (n : Nat) : CStat × State :=
  let s := s.wr .HARP_CTRL_RLANE n
  if s.mode != 7 then (.cfgLocked, s.flag .HARP_STAT_CFG_LOCKED)
  else
    let s := (s.setStrikes n 0).unflagBit .HARP_RETIRED_LANES n
    match s.laneJob n with
    | .idle => (.ok, s.startSelfTest n)
    | _ => (.ok, s.harpRefresh)

/-! ### Meanings -/

def execCodewordReady (x : Str) (slot : Nat) (s : State) : Host.Outcome State Fault Refusal :=
  .next (s.onStr x fun s => s.codewordReady x slot)

def execDetectorPassDone (x : Str) (second : Bool) (s : State) : Host.Outcome State Fault Refusal :=
  .next (s.onStr x fun s => s.passDone x second)

def execHarpDispatch (s : State) : Host.Outcome State Fault Refusal := .next s.harpDispatch

/-- Local iterations a dispatch may run: LOC_MAX, or BF_MAX in bit-flipping mode (R164, R190). -/
def State.localLimit (s : State) (e : HarpEntry) : Nat :=
  if e.bitFlip then s.eff .HARP_CTRL_BF_MAX else (s.slot e.x e.slot).elim 12 (·.locMax)

/-- LANE_RESULT (R164, R190, R192): the lane writes out its hard decisions, with their signature, for the checker; it claims to have
converged when its syndrome is zero within the local iterations it may run. -/
def execLaneResult (lane : Nat) (out : LaneOut) (signature : Nat) (s : State) :
    Host.Outcome State Fault Refusal :=
  .next (match s.laneJob lane with
    | .decoding e => s.setLane lane (.checking e (out.zeroAt.any fun n => decide (n ≤ s.localLimit e)) signature out.extrinsic)
    | _ => s)

/-- LANE_WATCHDOG (R190, R193): a lane with no result after 30,000 cycles is stopped and takes a strike. -/
def execLaneWatchdog (lane : Nat) (s : State) : Host.Outcome State Fault Refusal :=
  .next (match s.laneJob lane with
    | .decoding e => s.strikeOn lane 1 e none
    | _ => s)

def execSyndromeVerdict (lane : Nat) (zero : Bool) (s : State) : Host.Outcome State Fault Refusal :=
  .next (s.verdict lane zero)

/-- SELF_TEST_DONE (R193): the lane returns to service, or takes another strike. -/
def execSelfTestDone (lane : Nat) (passed : Bool) (s : State) : Host.Outcome State Fault Refusal :=
  .next (match s.laneJob lane with
    | .selfTest =>
      (if passed then ((s.setLane lane .idle).unflagBit .HARP_WDRAWN_LANES lane).harpRefresh else s.strike lane 2).settleRequests
    | _ => s)

def execHarpRetire (lane : Nat) (s : State) : Host.Outcome State Fault Refusal := .next (s.harpRetire (lane % 32))

def execHarpUnretire (lane : Nat) (s : State) : Host.Outcome State Fault Refusal := .next (s.harpUnretire (lane % 32)).2

end Sys2Proof.Machine
end

