-- ==== Sys2Proof/Machine/Keys.lean ====
section
/-! DEFINITION. Machine/Keys.lean: key slots and generation draws (R210, R211, R318 to R320, R326). The keys themselves
are identities: what the rules say of them is which slot holds which, and that each GENERATE and REKEY makes new ones. -/
namespace Sys2Proof.Machine

/-- Key slot `k`. -/
def State.keySlot (s : State) (k : Nat) : KeySlot :=
  s.cab.slots.getD k { state := .free, key := 0, counter := 0, nsid := 0, nstag := 0 }

/-- Key slot `k` changed by `f`. -/
def State.modKeySlot (s : State) (k : Nat) (f : KeySlot → KeySlot) : State :=
  { s with cab := { s.cab with slots := s.cab.slots.modify k f } }

/-- Counter block J0 of a sector (R322): the 12 bytes of the IV, LBA, write generation and namespace tag, each most significant
byte first, and 0x0000_0001. -/
def counterBlock (lba gen nstag : Nat) : List Nat :=
  let be (v n : Nat) : List Nat := ((List.range n).map fun k => v / 256 ^ k % 256).reverse
  be lba 6 ++ be gen 5 ++ be nstag 1 ++ [0, 0, 0, 1]

/-- The 128-bit tweak of a block of a Chest entry (R327), least significant byte first: LBA and namespace tag. -/
def xtsTweak (lba nstag : Nat) : List Nat :=
  (List.range 16).map fun k => (lba % 2 ^ 48 + nstag % 256 * 2 ^ 48) / 256 ^ k % 256

/-- The last generation a counter may give is 0xFF_FFFF_FFFE (R211). -/
def lastGeneration : Nat := 0xFFFFFFFFFF

/-- The counter at which KEY_LOW is raised (R326). -/
def lowGeneration : Nat := 0xF000000000

/-- The counter at which new writes of a Conventional or Managed namespace are refused (R326). -/
def reserveGeneration : Nat := 0xFFFFFEFFFF

/-- CAB_SLOTSTAT and CAB_GEN show the slot that CAB_SLOTSEL names. -/
def State.slotShow (s : State) : State :=
  let k := s.keySlot (s.rd .CAB_SLOTSEL_SLOT)
  let code := match k.state with
    | .free => 0
    | .active => 1
    | .exhausted => 2
  let s := (s.wr .CAB_SLOTSTAT_STATE code).setTo .CAB_SLOTSTAT_LOW (decide (lowGeneration ≤ k.counter))
  let s := (s.wr .CAB_SLOTSTAT_NSID k.nsid).wr .CAB_SLOTSTAT_NSTAG k.nstag
  (s.wr .CAB_GENLO_GEN (k.counter % 2 ^ 32)).wr .CAB_GENHI_GEN (k.counter / 2 ^ 32)

/-- The controllers to which a namespace is attached. -/
def State.attachedTo (s : State) (nsid k : Nat) : Bool := (s.ns nsid).any fun n => n.attached.contains k

/-- A generation is drawn from a key slot (R210): the counter's value, after which the counter is one higher; KEY_LOW is
raised once (R326). A draw that would return 0xFF_FFFF_FFFF is refused and exhausts the slot (R211, R320). -/
def State.draw (s : State) (k : Nat) : Option Nat × State :=
  let c := s.keySlot k
  if lastGeneration ≤ c.counter then
    let s := (s.modKeySlot k fun c => { c with state := .exhausted }).flag .CAB_STAT_KEY_EXH
    (none, ((s.logEvent 0x000E 2 0 [k, c.nsid]).journal (slotRow k)).slotShow)
  else
    let s := (s.modKeySlot k fun c => { c with counter := c.counter + 1 }).journal (counterRow k)
    let s := s.when (c.counter + 1 == lowGeneration) fun s =>
      ((s.flag .CAB_STAT_KEY_LOW).logEvent 0x000D 1 0 [k, c.nsid]).vendorEvent 0x03 fun m => s.attachedTo c.nsid m
    (some c.counter, s.slotShow)

/-- A slot of a namespace that writes nothing more: exhausted, or with only the reserve left (R326). -/
def State.keyExhausted (s : State) (n : Namespace) : Bool :=
  let k := s.keySlot n.slot
  k.state == .exhausted || (n.kind != .zoned && decide (reserveGeneration ≤ k.counter))

end Sys2Proof.Machine
end

