-- ==== Sys2Proof/Machine/WritePath.lean ====
section
/-! DEFINITION. Machine/WritePath.lean: the write path of a String (R207, R208, R217 to R222, R226, R502), write batches
(R144, R210), reallocation (R237 to R240), and the meanings of their commands. -/
namespace Sys2Proof.Machine

/-! ### Accumulators (R207) -/

/-- WRPx_STAT.ACC_N follows the live accumulator. -/
def State.accRefresh (s : State) (x : Str) : State := s.wr .WRPx_STAT_ACC_N (min 64 (s.str.get x).wrp.acc.length) x.ix

/-- The live accumulator is saved to the Chest slot of the zone it serves, if its stripe is incomplete (R207). -/
def State.saveAcc (s : State) (x : Str) : State :=
  match (s.str.get x).wrp.accZone with
  | none => s
  | some old =>
    let acc := (s.str.get x).wrp.acc
    let s := s.modRecord old fun r => { r with acc, accValid := true }
    if acc.isEmpty then s
    else ((accRows old).foldl (fun s row => s.chestRow 2 row) s).journal (recordRow old)

/-- The String starts writing a zone: another zone's accumulator is saved, this zone's is loaded, PAR_EN is posted, and
the Chest records which zone the live accumulator serves (R207, R226). -/
def State.serveZone (s : State) (x : Str) (id : Nat) : State :=
  if (s.str.get x).wrp.accZone = some id then s
  else
    match s.host.records[id]? with
    | none => s
    | some r =>
      let s := s.saveAcc x
      let acc := if r.mp = 0 then [] else r.acc
      let s := s.modWrp x fun w => { w with acc, accDiff := [], accZone := some id }
      let s := s.modRecord id fun r => { r with accValid := r.accValid || r.mp == 0 }
      let s := s.shadowWr .WRPx_CTRL_PAR_EN (boolNat !(s.isUnit x r.band)) x.ix
      (s.accRefresh x).journal (deviceRow (2 + x.num))

/-- ACCUMULATOR_REBUILD (R207): the written data sectors of the incomplete stripe are read back; with every one readable
the accumulator holds their XOR and ACC_VALID is set. -/
def State.rebuildAcc (s : State) (id : Nat) : State :=
  match s.host.records[id]? with
  | none => s
  | some r =>
    if r.accValid || s.isUnit r.str r.band then s
    else
      let first := r.mp / 64 * 64
      let read (z : Nat) : Option (Nat × Content) :=
        match (s.positionOf r.str r.band (dataIndex z)).bind fun (e, t, k) => s.onMedia r.str (mediaKey e.head t k) with
        | some (.data c) => some (dataIndex z, c)
        | _ => none
      let got := (List.range (r.mp - first)).map fun k => read (first + k)
      if got.all (·.isSome) then
        let acc := got.filterMap fun e => e
        let s := (s.modRecord id fun r => { r with acc, accValid := true }).journal (recordRow id)
        let s := s.when ((s.str.get r.str).wrp.accZone == some id) fun s => s.modWrp r.str fun w => { w with acc }
        s.accRefresh r.str
      else s

/-! ### Opening the write gate (R218, R222, R502) -/

/-- The place of an armed action. -/
def Armed.place (a : Armed) : Place := (a.request.places[a.offset]?).getD { sector := 0, p := 0, lba := 0, word := none }

/-- Data sector of a physical index of a band. -/
def zOf (p : Nat) : Nat := p - p / 65

/-- The position is the zone's next unwritten one (R218): for a band, data in order, the parity position when the data of
its stripe is on media and the accumulator holds it. Copies and rewrites go to the position they name. -/
def State.nextPosition (s : State) (x : Str) (a : Armed) : Bool :=
  match a.request.zone.bind fun z => s.host.records[z]? with
  | none => true
  | some r =>
    let p := a.place.p
    if s.isUnit x r.band || a.request.source == .verify then true
    else if a.place.word.isNone then r.accValid && decide (min (64 * (p / 65 + 1)) (r.finish.getD 131072) ≤ r.mp)
    else r.accValid && p % 65 != 64 && zOf p == r.mp

/-- The codeword of an armed sector is first in the FIFO, checked; a parity sector comes from the accumulator. -/
def State.codewordThere (s : State) (x : Str) (a : Armed) : Bool :=
  a.place.word.isNone || (s.str.get x).wrp.fifo.head? == some (a.request.id, a.place.p)

/-- The run stops where a committed start fails (R222). -/
def State.refuseOpen (s : State) (x : Str) : State := s.stopRun x

/-- WRITE_GATE_OPEN (R218): the head reaches the first committed start; S fields take effect, and the gate opens if every
condition holds at this instant. -/
def State.writeGateOpen (s : State) (x : Str) : State :=
  match (s.seq x .wsq).armed with
  | [] => s
  | a :: rest =>
    let s := s.modSeq x .wsq fun u => { u with armed := rest }
    let s := match a.request.zone with
      | some z => s.serveZone x z
      | none => s
    let s := s.boundary .wrp x.num
    let running := s.isSet .WRPx_STAT_RUN x.ix
    if !s.isSet .WRPx_CTRL_EN x.ix || (s.str.get x).wrp.encRefuse then s.refuseOpen x
    else if s.inhibit x || !s.isSet .SCEx_STAT_PVALID x.ix then s.refuseOpen x
    else if s.rd .AEx_STAT_STATE x.ix != 3 || s.rd .AEx_STAT_HEAD x.ix != a.request.head then s.refuseOpen x
    else
      let (ok, s) := s.nameSetForWrite x a.set
      if !ok then s.refuseOpen x
      else if !s.isSet .RCHx_STAT_PLL_LOCK x.ix || !s.rateInRange x then (s.flag .WRPx_STAT_RATE_HI x.ix).refuseOpen x
      else if !s.codewordThere x a then
        ((s.flag .WRPx_STAT_UNDERRUN x.ix).bump .WRPx_CNT1_UNDERRUN x.ix).refuseOpen x
      else if !s.nextPosition x a then s.refuseOpen x
      else
        let s := s.modWrp x fun w =>
          { w with open' := some a, openSlot := (s.str.get x).ae.slots
                   fifo := if a.place.word.isNone then w.fifo else w.fifo.tail }
        let s := s.when (!running) fun s => s.flag .WRPx_STAT_RUN x.ix
        let one := s.rd .WRPx_PREC_PRE1 (x.ix a.request.head)
        let s := s.emit (.writer x one (one + s.rd .WRPx_PREC_PRE2 (x.ix a.request.head)))
        (s.fifoRefresh x).flag .WRPx_STAT_GATE x.ix

/-! ### A sector on media (R207, R212) -/

/-- A block of the version that was issued is on media. -/
def State.blockWritten (s : State) (nsid lba : Nat) : State :=
  match s.bridge.versions.find? fun v => v.nsid == nsid && v.issued.contains lba with
  | none => s.settleWaits
  | some v => s.onMediaBlocks v.fseq [lba]

/-- Payload `csa` of a compressed namespace is on media: the blocks of the capsules that end in it are (R340). -/
def State.payloadWritten (s : State) (nsid csa : Nat) : State :=
  let ends := (s.phv.packed.filter fun q => q.nsid == nsid && q.csa == csa).flatMap (·.ends)
  let s := { s with phv := { s.phv with packed := s.phv.packed.filter fun q => !(q.nsid == nsid && q.csa == csa) } }
  ends.foldl (fun s (f, lbas) => s.onMediaBlocks f lbas) s

/-- The map of a namespace after data sector z of a record has received an LBA (R201, R223). -/
def State.mapWritten (s : State) (id : Nat) (r : Record) (lba z : Nat) : State :=
  match s.ns r.nsid with
  | none => s
  | some n =>
    if n.kind == .zoned then s
    else s.modNs r.nsid fun n => { n with map := (lba, id, z) :: n.map.filter fun e => e.1 != lba }

/-- A finished zone: the parity of its last stripe is on media; Finish commands that wait for it may complete
(R208, R213). -/
def State.finishWritten (s : State) (id : Nat) : State :=
  let waiting (c : Cmd) : Bool := c.started && c.ready.isNone && c.waits.contains id && (match c.op with | .zoneSend .. => true | _ => false)
  if (s.host.cmds.any waiting) && (s.host.records[id]?).any fun r => r.finish.any fun n => decide (n ≤ r.mp) then
    let s := (s.modRecord id fun r => { r with state := .full }).journal (recordRow id)
    let release (c : Cmd) : Cmd :=
      let left := c.waits.erase id
      { c with waits := left, ready := if left.isEmpty then some (.success, 0, 0) else none }
    s.modHost fun h => { h with cmds := h.cmds.map fun c => if waiting c then release c else c }
  else s

/-- The record of a zone takes note of a data sector on media: MP, the accumulator, the map, the blocks of versions; a
pending position is cleared (R207, R212, R239). -/
def State.recordWritten (s : State) (x : Str) (id : Nat) (r : Record) (pl : Place) (w : Content) : State :=
  let unit := s.isUnit x r.band
  let managed := s.zoneManaged (some id)
  let compressed := ((s.ns r.nsid).map (·.compressed)).getD false
  let s := if unit then s
    else
      s.modRecord id fun r =>
        { r with state := if managed && r.mp + 1 == 131072 then .full else r.state
                 mp := r.mp + 1, wp := if managed then r.mp + 1 else r.wp, accepted := if managed then r.mp + 1 else r.accepted }
  let s := s.when (s.isSet .WRPx_CTRL_PAR_EN x.ix && !unit) fun s =>
    (s.modWrp x fun v => { v with acc := v.acc ++ [(pl.p, w)] }).accRefresh x
  let z := if unit then pl.lba % 131072 else zOf pl.p
  let s := s.when (unit && decide (131072 ≤ pl.p)) fun s =>
    (s.modRecord id fun r => { r with spares := (z, pl.p - 131072) :: r.spares.filter fun e => e.1 != z }).journal
      (mediaTableRow r.band)
  let s := s.modRecord id fun r => { r with keepGens := r.keepGens.filter fun e => e.1 != pl.lba }
  let s := s.mapWritten id r pl.lba z
  if compressed then s.payloadWritten r.nsid pl.lba else s.blockWritten r.nsid pl.lba

/-- The zone of a sector in progress has been reset meanwhile: the sector completes and counts for nothing (R216). -/
def State.resetUnder (s : State) (r : Record) (w : Content) : Bool := s.isZone r && (!r.drawn || r.gen != w.gen)

/-- SECTOR_WRITTEN (R207): the postamble is written. With the AE in ABORTED the sector counts as cut (R143, R144). -/
def State.sectorWritten (s : State) (x : Str) : State :=
  match (s.str.get x).wrp.open' with
  | none => s
  | some a =>
    if s.rd .AEx_STAT_STATE x.ix == 4 then s.cutOpen x
    else
      let pl := a.place
      let key := mediaKey a.request.head a.request.track pl.sector
      let old := (s.str.get x).ae.slots - 2
      let s := (s.modWrp x fun w =>
        { w with open' := none, recent := (w.openSlot, a) :: w.recent.filter fun e => decide (old ≤ e.1) }).unflag .WRPx_STAT_GATE x.ix
      let s := (s.bump .WRPx_CNT0_SECTORS x.ix).modSeq x .wsq fun u => { u with done := min 2 (u.done + 1), progress := u.progress + 1 }
      let s := s.modStr x fun t => { t with pendingList := t.pendingList.filter (· != key) }
      let s := s.when ((s.seq x .wsq).armed.isEmpty && decide (a.request.places.length ≤ a.offset + 1)) fun s =>
        s.unflag .WRPx_STAT_RUN x.ix
      match pl.word, a.request.source with
      | some (.data w), .bce =>
        let s := (s.setMedia x key pl.word).giveCells x 1
        let s := s.modClean a.request.tag fun c => { c with posted := c.posted.erase pl.p, acc := c.acc ++ [(pl.p, w)] }
        s.bceAdvance a.request.tag
      | none, .bce =>
        let acc := ((s.findClean a.request.tag).map (·.acc)).getD []
        let s := (s.setMedia x key (some (.parity acc))).modClean a.request.tag fun c =>
          { c with posted := c.posted.erase pl.p, acc := [] }
        s.bceAdvance a.request.tag
      | some w, .verify => (s.setMedia x key (some w)).giveCells x 1
      | some (.data w), _ =>
        let s := (s.setMedia x key pl.word).giveCells x 1
        match a.request.zone.bind fun z => (s.host.records[z]?).map fun r => (z, r) with
        | none => s
        | some (id, r) => s.when (!(s.resetUnder r w)) fun s => s.recordWritten x id r pl w
      | some w, _ => (s.setMedia x key (some w)).giveCells x 1
      | none, _ =>
        let w := (s.str.get x).wrp
        let s := s.setMedia x key (if w.accDiff.isEmpty then some (.parity w.acc) else none)
        let s := (s.modWrp x fun w => { w with acc := [], accDiff := [] }).accRefresh x
        match a.request.zone with
        | none => s
        | some id => ((s.modRecord id fun r => { r with accValid := true }).journal (recordRow id)).finishWritten id

/-! ### The encoder (R217) -/

/-- ENCODE_DONE (R217): the next encrypted sector is encoded; the checker passes it into the FIFO, or it is encoded once
more; a second failure sets ENC_FAULT and refuses every open. -/
def State.encodeDone (s : State) (x : Str) (good : Bool) : State :=
  let w := (s.str.get x).wrp
  match w.cells with
  | [] => s
  | c :: rest =>
    if 3 ≤ w.fifo.length then s
    else if good then
      (s.modWrp x fun w => { w with cells := rest, fifo := w.fifo ++ [c], retrying := none }).fifoRefresh x
    else if w.retrying = some c then
      (s.modWrp x fun w => { w with encRefuse := true, enWasOff := false, retrying := none }).flag .WRPx_STAT_ENC_FAULT x.ix
    else (s.modWrp x fun w => { w with retrying := some c }).bump .WRPx_CNT2_ENC_RETRY x.ix

/-- A write of EN (R217, R226): a K field; 0 and then 1 ends the refusal of an ENC_FAULT. -/
def State.writePathEnable (s : State) (x : Str) (on : Bool) : State :=
  if s.channelRunning x then s.flag .WRPx_STAT_CFG_LOCKED x.ix
  else
    let s := s.setTo .WRPx_CTRL_EN on x.ix
    s.modWrp x fun w =>
      if on then { w with encRefuse := w.encRefuse && !w.enWasOff, enWasOff := false } else { w with enWasOff := true }

/-- ACC_CLR (R226): ignored during a run. -/
def State.accClear (s : State) (x : Str) : State :=
  if s.isSet .WRPx_STAT_RUN x.ix then s else (s.modWrp x fun w => { w with acc := [], accDiff := [] }).accRefresh x

/-! ### Write batches (R144, R210, R451) -/

/-- Data sectors of a record that are posted to the WSQ and not yet on media. -/
def State.postedZs (s : State) (x : Str) (id : Nat) : List Nat :=
  let u := s.seq x .wsq
  (u.queue ++ u.returned).flatMap fun r =>
    if r.zone = some id && r.source != .verify then (r.places.filter fun p => p.word.isSome).map fun p => zOf p.p else []

/-- The next data sector of a band to post, after the payloads packed for it. -/
def State.nextZ (s : State) (x : Str) (id : Nat) (r : Record) : Nat :=
  let packed := (s.phv.packed.filter fun q => q.record == id).map (·.z)
  (s.postedZs x id ++ packed).foldl (fun m z => max m (z + 1)) r.mp

/-- READY versions that hold an open, unissued block, with the LBA. -/
def State.drainable (s : State) (nsid lba : Nat) : Option Version :=
  s.bridge.versions.find? fun v =>
    v.nsid == nsid && v.state == .ready && !v.unlisted && v.open'.contains lba && !(v.issued.contains lba)

/-- Consecutive sectors of a zone from z on that READY versions hold, at most `n`: z, LBA, data, FSEQ. -/
def State.zoneRun (s : State) (r : Record) (z : Nat) : Nat → List (Nat × Nat × Nat × Nat)
  | 0 => []
  | n + 1 =>
    if 131072 ≤ z then []
    else
      match s.drainable r.nsid (r.lbaOf z) with
      | none => []
      | some v => (z, r.lbaOf z, v.block (r.lbaOf z), v.fseq) :: s.zoneRun r (z + 1) n

/-- LBAs of a namespace that READY versions hold open and unissued, in order. -/
def State.openLbas (s : State) (nsid : Nat) : List Nat :=
  let all := s.bridge.versions.flatMap fun v =>
    if v.nsid == nsid && v.state == .ready && !v.unlisted then v.open'.filter fun l => !(v.issued.contains l) else []
  (all.mergeSort fun a b => decide (a ≤ b)).eraseDups

/-- What a batch to a record carries: data sector, LBA, data and FSEQ of each sector, at most `n`. -/
def State.batchItems (s : State) (id : Nat) (r : Record) (ns : Namespace) (n : Nat) : List (Nat × Nat × Nat × Nat) :=
  let z0 := s.nextZ r.str id r
  match ns.kind with
  | .zoned => s.zoneRun r z0 n
  | .conventional =>
    (((s.openLbas r.nsid).filter fun l => l / 131072 == r.index).take n).filterMap fun l =>
      (s.drainable r.nsid l).map fun v => (l % 131072, l, v.block l, v.fseq)
  | .managed =>
    if ns.compressed then
      (((s.phv.packed.filter fun q => q.record == id && q.whole && !q.issued).take n).map fun q => (q.z, q.csa, payloadData q.parts, 0))
    else
      let ls := (s.openLbas r.nsid).take (min n (131072 - z0))
      (List.range ls.length).filterMap fun k =>
        let l := ls.getD k 0
        (s.drainable r.nsid l).map fun v => (z0 + k, l, v.block l, v.fseq)

/-- Where the sectors of a batch go: parity positions follow each 64th data sector of a band; a pending position of a
unit goes to the next free spare, while the spare-map pool has an entry for it (R204, R239, R304). -/
def State.batchPlaces (s : State) (r : Record) (word : Nat → Nat → Codeword) (items : List (Nat × Nat × Nat × Nat)) :
    List (Nat × Nat × Option Codeword) :=
  if s.isUnit r.str r.band then
    let pendingAt (z : Nat) : Bool :=
      ((s.positionOf r.str r.band z).map fun (e, t, k) => (s.str.get r.str).pendingList.contains (mediaKey e.head t k)).getD false
    let room := 32768 - s.sparesHeld
    (items.foldl (fun (acc, used) (z, l, d, _) =>
      if pendingAt z && !(r.spares.any fun e => e.1 == z) && decide (used < 256) && decide (used < r.sparesUsed + room) then
        (acc ++ [(131072 + used, l, some (word l d))], used + 1)
      else (acc ++ [(s.indexOf r z, l, some (word l d))], used)) ([], r.sparesUsed)).1
  else
    items.flatMap fun (z, l, d, _) =>
      let last := z % 64 = 63 || r.finish == some (z + 1)
      (dataIndex z, l, some (word l d)) :: (if last then [(parityIndex (z / 64), 0, none)] else [])

/-- The media manager may post a write to a head now: the AE is ARMED for it, its ledger is not soft, it is not hot, the
throttle leaves some duty, and fewer than 4 batches have gone to the String in this revolution (R144, R210, R447, R451). -/
def State.mayPost (s : State) (x : Str) (h : Nat) : Bool :=
  s.rd .AEx_STAT_STATE x.ix == 3 && s.rd .AEx_STAT_HEAD x.ix == h && !((s.str.get x).ae.soft.getD h false)
    && !((s.str.get x).ae.hot.getD h false) && decide (s.rd .THR_STAT_LEVEL < 8) && !s.isLost x
    && decide (s.host.batches.get x < 4)

/-- The write duty D_W permits a sector position: it starts in one of the first 8 − L Frets of its group of 8 wedges
(R451, log entry 29). -/
def State.permitted (s : State) (x : Str) (band p : Nat) : Bool :=
  let l := s.rd .THR_STAT_LEVEL
  l = 0 || ((s.positionOf x band p).map fun (e, t, k) => decide ((s.sectorPos x e.set t k).wedge % 8 < 8 - l)).getD true

/-- Items of a batch that the write duty permits: on a band up to the first that it does not. -/
def State.dutyItems (s : State) (r : Record) (items : List (Nat × Nat × Nat × Nat)) : List (Nat × Nat × Nat × Nat) :=
  if s.isUnit r.str r.band then items.filter fun i => s.permitted r.str r.band (s.indexOf r i.1)
  else items.takeWhile fun i =>
    s.permitted r.str r.band (dataIndex i.1)
      && ((i.1 % 64 != 63 && r.finish != some (i.1 + 1)) || s.permitted r.str r.band (parityIndex (i.1 / 64)))

/-- The parity of an incomplete last stripe is posted when every data sector has been (R208). -/
def State.postFinish (s : State) (id : Nat) : State :=
  match s.host.records[id]? with
  | none => s
  | some r =>
    match r.finish with
    | none => s
    | some n =>
      let p := parityIndex (n / 64)
      let u := s.seq r.str .wsq
      let posted := (u.queue ++ u.returned).any fun q => q.zone == some id && (q.places.any fun pl => pl.p == p && pl.word.isNone)
      let ready := n % 64 != 0 && s.permitted r.str r.band p && s.nextZ r.str id r == n && r.state != .full && r.state != .offline
      if ready && !posted then
        s.postPlaces r.str .wsq .host 0 (some id) false true 0 r.band [(p, 0, none)]
      else s

/-- WRITE_BATCH_ISSUE (R210): a batch of at most `n` sectors goes to one zone or unit. A Conventional or Managed batch
draws its generation, unless every sector of it is the rewrite of one withdrawn, which keeps its own; a band whose accumulator is invalid is not written before it is rebuilt (R207); a zone reset
under ladders waits (R242). -/
def State.batchIssue (s : State) (id n : Nat) : State :=
  match s.host.records[id]? with
  | none => s
  | some r =>
    match s.ns r.nsid, s.extent r.str r.band with
    | some ns, some e =>
      let unit := s.isUnit r.str r.band
      let ready := unit || r.accValid || r.mp % 64 == 0
      let laddered := r.heldForLadders && (s.str.get r.str).ladders.any fun l => l.zone == some id
      if !s.mayPost r.str e.head || !ready || laddered || r.state == .offline || r.state == .readOnly then s
      else
        let items := s.dutyItems r (s.batchItems id r ns n)
        if items.isEmpty then s.postFinish id
        else
          let kept (l d : Nat) : Option Nat :=
            if ns.kind == .zoned then none else (r.keepGens.find? fun e => e.1 == l && e.2.1 == d).map (·.2.2)
          let fresh := ns.kind != .zoned && items.any fun i => (kept i.2.1 i.2.2.1).isNone
          let (gen, s) := if fresh then s.draw ns.slot else (some r.gen, s)
          match gen with
          | none => s
          | some g =>
            let word (l d : Nat) : Codeword :=
              .data { lba := l, gen := (kept l d).getD g, nstag := ns.nstag, key := (s.keySlot ns.slot).key, data := d }
            let places := s.batchPlaces r word items
            let spares := (places.filter fun p => unit && decide (131072 + r.sparesUsed ≤ p.1)).length
            let s := (s.modRecord id fun r =>
              { r with state := if ns.kind == .managed && r.state == .empty then .implicit else r.state
                       gen := g, heldForLadders := false, sparesUsed := r.sparesUsed + spares, accValid := r.accValid || r.mp % 64 == 0 }).journal (recordRow id)
            let s := items.foldl (fun s (_, l, _, f) => s.modVersion f fun v => { v with issued := l :: v.issued }) s
            let taken (q : Payload) : Bool := q.record == id && ns.compressed && items.any fun i => i.2.1 == q.csa
            let s := { s with phv := { s.phv with packed := s.phv.packed.map fun q => if taken q then { q with issued := true } else q } }
            let s := s.modHost fun h => { h with batches := h.batches.set r.str (h.batches.get r.str + 1) }
            let s := s.when (s.seq r.str .wsq).queue.isEmpty fun s => s.serveZone r.str id
            s.postPlaces r.str .wsq .host 0 (some id) ((s.host.cmds.any fun c => c.stream.isSome && items.any fun i => i.2.2.2 == c.fseq))
              true 0 r.band places
    | _, _ => s

/-! ### Squeeze verification (R221) -/

/-- A sector of a track has a part in one of the `n` Frets from wedge `first` on. -/
def SectorPos.within (p : SectorPos) (first n : Nat) : Bool :=
  decide ((p.wedge + 480 - first) % 480 < n) || (p.split.isSome && decide ((p.wedge + 481 - first) % 480 < n))

/-- The sectors of a track that lie in the span of a squeeze and hold a codeword. -/
def State.squeezed (s : State) (x : Str) (head track : Nat) : List Nat :=
  let w := (s.str.get x).wrp
  ((s.trackSectors x ((s.format x).setOf head track) track).filter fun p =>
    p.within w.squeezeFrom w.squeezeFrets && (s.onMedia x (mediaKey head track p.index)).isSome).map (·.index)

/-- SQUEEZE_VERIFY: the sectors of the previous track in the span, and those completed on the current one, are read back. Of those
that fail, the ones of the current track are rewritten at their positions; those of the previous track are read again through
the recovery ladder. -/
def State.squeezeVerify (s : State) (x : Str) (prev bad : List Nat) : State :=
  match (s.str.get x).wrp.squeeze with
  | none => s
  | some a =>
    let s := (s.modWrp x fun w => { w with squeeze := none }).bump .WRPx_CNT2_SQZ x.ix
    let r := a.request
    let inner := ((s.format x).shdir).testBit r.head
    let back := if inner then r.track + 1 else r.track - 1
    let lost := prev.filter (s.squeezed x r.head back).contains
    let again := bad.filter fun k => (s.squeezed x r.head r.track).contains k && decide (k < a.place.sector)
    let lbaAt (t k : Nat) : Nat := match s.onMedia x (mediaKey r.head t k) with | some (.data c) => c.lba | _ => 0
    let pAt (k : Nat) : Nat := ((r.places.find? fun p => p.sector == k).map (·.p)).getD 0
    let (id1, s) := s.newRequestId
    let s := if lost.isEmpty then s
      else s.postRequest x .rsq { r with
        id := id1, type := 0, track := back, source := .verify, tag := 0, offs := 0
        places := lost.map fun k => { sector := k, p := 0, lba := lbaAt back k, word := none } }
    let (id2, s) := s.newRequestId
    if again.isEmpty then s
    else s.postRequest x .wsq { r with
      id := id2, source := .verify, tag := 0
      places := again.map fun k => { sector := k, p := pAt k, lba := lbaAt r.track k, word := s.onMedia x (mediaKey r.head r.track k) } }

/-! ### Reallocation (R237 to R240) -/

/-- SPARE_LOW shows a unit without a free spare (R240). -/
def State.spareLow (s : State) (x : Str) : State := s.flag .RLDx_STAT_SPARE_LOW x.ix

/-- The open internal zone of a Managed namespace on a String that takes a reallocated sector: one in which no packed
payload waits. -/
def State.openInternal (s : State) (nsid : Nat) (x : Str) : Option Nat :=
  (List.range s.host.records.length).find? fun id =>
    (s.host.records[id]?).any fun r => r.nsid == nsid && r.str == x && decide (r.mp < 131072) && r.state.opened
      && !(s.phv.packed.any fun q => q.record == id && !q.issued)

/-- REALLOCATE (R237): the oldest scheduled reallocation of a String is carried out. In a CMR unit the codeword is written
unchanged to the next free spare and read back; `good` tells whether the read-back passes; at most three spares are
tried. In a Managed band it goes into the next positions of an open internal zone. -/
def State.reallocate (s : State) (x : Str) (good : Bool) : State :=
  match (s.str.get x).reallocs with
  | [] => s
  | q :: rest =>
    match q.zone.bind fun z => (s.host.records[z]?).map fun r => (z, r) with
    | none => s.modStr x fun t => { t with reallocs := rest }
    | some (id, r) =>
      if !q.smr then
        let mapped := r.spares.any fun e => e.1 == q.place.lba % 131072
        if 256 ≤ r.sparesUsed || (32768 ≤ s.sparesHeld && !mapped) then s.spareLow x
        else
          match s.positionOf x r.band (131072 + r.sparesUsed) with
          | none => s
          | some (e, track, sector) =>
            let k := r.sparesUsed
            let s := (s.setMedia x (mediaKey e.head track sector) (some q.word)).modRecord id fun r => { r with sparesUsed := k + 1 }
            if good then
              let z := q.place.lba % 131072
              let s := s.modRecord id fun r => { r with spares := (z, k) :: r.spares.filter fun e => e.1 != z }
              (s.modStr x fun t => { t with reallocs := rest }).journal (mediaTableRow r.band)
            else
              s.modStr x fun t => { t with reallocs := if 2 ≤ q.tries then rest else { q with tries := q.tries + 1 } :: rest }
      else
        match s.openInternal r.nsid x with
        | none => s
        | some dest =>
          match s.host.records[dest]? with
          | none => s
          | some d =>
            let z := s.nextZ x dest d
            let s := s.modStr x fun t => { t with reallocs := rest }
            s.postPlaces x .wsq .scb 0 (some dest) false true 0 d.band
              ((dataIndex z, q.place.lba, some q.word) :: (if z % 64 = 63 then [(parityIndex (z / 64), 0, none)] else []))

/-! ### Meanings -/

def execWriteGateOpen (x : Str) (s : State) : Host.Outcome State Fault Refusal :=
  .next (s.onStr x fun s => s.writeGateOpen x)

def execSectorWritten (x : Str) (s : State) : Host.Outcome State Fault Refusal :=
  .next (s.onStr x fun s => s.sectorWritten x)

def execEncodeDone (x : Str) (good : Bool) (s : State) : Host.Outcome State Fault Refusal :=
  .next (s.onStr x fun s => s.encodeDone x good)

def execWritePathEnable (x : Str) (on : Bool) (s : State) : Host.Outcome State Fault Refusal :=
  .next (s.onStr x fun s => s.writePathEnable x on)

def execAccClr (x : Str) (s : State) : Host.Outcome State Fault Refusal := .next (s.onStr x fun s => s.accClear x)

def execSqueezeVerify (x : Str) (prev bad : List Nat) (s : State) : Host.Outcome State Fault Refusal :=
  .next (s.onStr x fun s => s.squeezeVerify x prev bad)

def execWriteBatchIssue (record n : Nat) (s : State) : Host.Outcome State Fault Refusal := .next (s.batchIssue record n)

def execAccumulatorRebuild (record : Nat) (s : State) : Host.Outcome State Fault Refusal := .next (s.rebuildAcc record)

def execReallocate (x : Str) (good : Bool) (s : State) : Host.Outcome State Fault Refusal :=
  .next (s.onStr x fun s => s.reallocate x good)

end Sys2Proof.Machine
end

