-- ==== Sys2Proof/Machine/Phovi.lean ====
section
/-! DEFINITION. Machine/Phovi.lean: compression of Managed namespaces (R335 to R351): capsules and their packing, grants
of output space, the job queue, the engines, and the meanings of their commands. -/
namespace Sys2Proof.Machine

/-! ### Capsules and space (R336 to R343) -/

/-- First CSA of the record with internal zone index `index` (R335). -/
def csaBase (index : Nat) : Nat := 0x800000000000 + index * 131072

/-- The runs that `n` blocks at `lba` are split into: no run crosses a multiple of CAPS_BLK (R336). -/
def capsuleRuns (capsBlk : Nat) : (fuel lba n : Nat) → List (Nat × Nat)
  | 0, _, _ => []
  | fuel + 1, lba, n =>
    if n = 0 then []
    else
      let len := min n (capsBlk - lba % capsBlk)
      (lba, len) :: capsuleRuns capsBlk fuel (lba + len) (n - len)

/-- G of R342: payloads that a job of `n` blocks at `lba` may need. -/
def grantFor (capsBlk lba n : Nat) : Nat :=
  let c := (capsuleRuns capsBlk n lba n).length
  (4096 * n + 32 * c + 4095) / 4096

/-- Payloads that hold at least one live block. -/
def Namespace.livePayloads (n : Namespace) : Nat :=
  ((n.capsules.filter fun k => !k.live.isEmpty).flatMap fun k => (List.range k.payloads).map (k.csa + ·)).eraseDups.length

/-- U of R343. -/
def Namespace.spaceUsed (n : Namespace) : Nat := n.livePayloads + n.granted

/-- S of R343. -/
def Namespace.space (n : Namespace) : Nat := n.bands * 131072 * 8 / 9

/-- The grant of a write of `n` blocks to a namespace: none is needed without compression; `none` when it does not fit
(R343). -/
def State.payloadGrant (s : State) (ns : Namespace) (lba n : Nat) : Option Nat :=
  if ns.compressed then
    let g := grantFor (s.eff .PHV_CFG_CAPS_BLK) lba n
    if ns.space < ns.spaceUsed + g then none else some g
  else some 0

/-- A compressed body of `body` bytes gains too little: the capsule of `blocks` blocks is stored (R339). -/
def gainsLittle (minGain blocks body : Nat) : Bool := decide (4096 * blocks - minGain < body) || decide (4096 * blocks < minGain)

/-- What the compressor emits for blocks: whether stored, and the mismatches that the verifier finds (R344). It compares the CRC of
what it decodes with that of the raw blocks; the check of a stored copy fails by a fault of the engine alone, at most twice. -/
def emitted (minGain : Nat) (data body : List Nat) (faults : Nat) : Bool × Nat :=
  let stored := gainsLittle minGain data.length body.length
  let (code, out) := expandBody data.length body
  let first := if stored then faults.testBit 0 else code != 0 || crc32c out != crc32c (rawBytes data)
  (stored || first, if first then if faults.testBit 1 then 2 else 1 else 0)

/-- Footprint of a capsule of `n` bytes, in 16-byte units (R340). -/
def footprint (n : Nat) : Nat := (n + 15) / 16

/-- Bytes of the capsule that a version's blocks from `lba` become (R337, R338). -/
def Version.capsule (v : Version) (stored : Bool) (lba blocks : Nat) (body : List Nat) : List Nat :=
  let raw := rawBytes ((List.range blocks).map fun k => v.block (lba + k))
  capsuleBytes stored lba blocks v.fseq (crc32c raw) (if stored then raw else body)

/-! ### The engines' registers -/

/-- Phovi changed by `f`. -/
def State.modPhv (s : State) (f : Phovi → Phovi) : State := { s with phv := f s.phv }

/-- Engine `e` is in service. -/
def State.phvInService (s : State) (e : Nat) : Bool := s.bit .PHV_STAT_INSVC e

/-- SLOTS_FREE, QUEUED and the engines' STATE follow. -/
def State.phvRefresh (s : State) : State :=
  let p := s.phv
  let s := (s.wr .PHV_STAT_SLOTS_FREE (4 - p.saved.length)).wr .PHV_STAT_QUEUED (min 32 p.queue.length)
  [0, 1].foldl (fun s e =>
    let code := if !s.phvInService e then 3 else match p.engines.getD e none with
      | none => 0
      | some j => if j.compress then 1 else 2
    s.wr .PHV_ENG_STATE code e) s

/-- A job joins the queue (R345). -/
def State.postJob (s : State) (j : PhvJob) : State :=
  (s.modPhv fun p => { p with jobSeq := p.jobSeq + 1, queue := p.queue ++ [{ j with id := p.jobSeq }] }).phvRefresh

/-! ### Streams of payloads (R340) -/

/-- Stream position of an internal zone: that of its partial payload, or the start of its next payload. -/
def State.streamPos (s : State) (id : Nat) (r : Record) : Nat :=
  (storeFind s.phv.positions id).getD (s.nextZ r.str id r * 4096)

/-- The internal zone that the next job of a namespace packs into: one with a partial payload before an open one before
an empty one, with room for `g` payloads. -/
def State.packZone (s : State) (nsid g : Nat) : Option Nat :=
  let fits (p : Record → Nat → Bool) : Option Nat := (List.range s.host.records.length).find? fun id =>
    (s.host.records[id]?).any fun r => r.nsid == nsid && !r.clean && !s.isLost r.str && p r id
      && decide ((s.streamPos id r + 4095) / 4096 + g ≤ 131072)
  (fits fun _ id => (storeFind s.phv.positions id).isSome) <|> (fits fun r _ => r.state.opened) <|> fits fun r _ => r.state == .empty

/-- The partial payload of a zone is completed by zeros and handed to the Cabinet (R340). -/
def State.forceTail (s : State) (id : Nat) : State :=
  match storeFind s.phv.positions id with
  | none => s
  | some pos =>
    s.modPhv fun p =>
      { p with positions := storeDrop p.positions id
               packed := p.packed.map fun q => if q.record == id && q.z == pos / 4096 then { q with whole := true } else q }

/-- Every partial payload of a namespace is handed over: a Flush forces their tails (R340). -/
def State.forceTails (s : State) (nsid : Nat) : State :=
  let ids := (s.phv.positions.map (·.1)).filter fun id => (s.host.records[id]?).any fun r => r.nsid == nsid
  ids.foldl State.forceTail s

/-- A block is needed of a capsule without live blocks while a read that began before waits for it. -/
def State.capsuleNeeded (s : State) (nsid : Nat) (k : Capsule) : Bool :=
  !k.live.isEmpty || (!k.prior.isEmpty && s.phv.packed.any fun q => q.nsid == nsid) || s.host.cmds.any fun c => c.nsid == nsid && c.ready.isNone
    && c.posted.any fun l => decide (k.lba ≤ l) && decide (l < k.lba + k.blocks)

/-- Blocks of a namespace are no longer live in the capsules that held them (R341). -/
def State.killBlocks (s : State) (nsid : Nat) (lbas : List Nat) : State :=
  let kill (k : Capsule) : Capsule :=
    { k with live := k.live.filter fun l => !(lbas.contains l), prior := k.prior.filter fun l => !(lbas.contains l) }
  s.modNs nsid fun n => { n with capsules := (n.capsules.map kill).filter fun k => s.capsuleNeeded nsid k }

/-- Blocks of a namespace have a newer capsule, which is not yet on media. -/
def State.supersedeBlocks (s : State) (nsid : Nat) (lbas : List Nat) : State :=
  let kill (k : Capsule) : Capsule :=
    { k with live := k.live.filter fun l => !(lbas.contains l), prior := k.prior ++ k.live.filter fun l => lbas.contains l }
  s.modNs nsid fun n => { n with capsules := (n.capsules.map kill).filter fun k => s.capsuleNeeded nsid k }

/-- One capsule is packed at the zone's stream position (R340, R341). -/
def State.packCapsule (s : State) (id : Nat) (v : Version) (lba blocks : Nat) (bytes : List Nat) : State :=
  let fp := footprint bytes.length
  match s.host.records[id]? with
  | none => s
  | some r =>
    let pos := s.streamPos id r
    let z0 := pos / 4096
    let fin := pos + 16 * fp
    let z1 := (fin - 1) / 4096
    let csa z := csaBase r.index + z
    let lbas := (List.range blocks).map (lba + ·)
    let live := lbas.filter fun l => !(v.isSuperseded l) && !v.unlisted
    let zs := (List.range (z1 + 1 - z0)).map (z0 + ·)
    let begun (p : Phovi) : List Nat := zs.filter fun z => !(p.packed.any fun q => q.record == id && q.z == z && !q.whole)
    let fresh (p : Phovi) : List Payload := (begun p).map fun z =>
      { nsid := r.nsid, record := id, z, csa := csa z, ends := [], parts := [], whole := false, issued := false }
    let close (q : Payload) : Payload :=
      if q.record == id && zs.contains q.z && !q.whole then
        { q with whole := decide ((q.z + 1) * 4096 ≤ fin), parts := q.parts ++ [partIn pos q.z bytes]
                 ends := if q.z == z1 then q.ends ++ [(v.fseq, lbas)] else q.ends }
      else q
    let s := s.modPhv fun p =>
      { p with packed := (p.packed ++ fresh p).map close
               positions := if fin % 4096 = 0 then storeDrop p.positions id else storePut p.positions id fin }
    let s := s.modRecord id fun r => if r.state == .empty then { r with state := .implicit } else r
    let s := s.supersedeBlocks r.nsid live
    s.modNs r.nsid fun n => { n with capsules := n.capsules ++
      [{ lba, blocks, fseq := v.fseq, csa := csa z0, offset := pos % 4096 / 16, footprint := fp, live, prior := [], bytes }] }

/-! ### Jobs -/

/-- A compress job of a version is posted when its transfer has ended: class 2 when the String of the zone has writes
queued, else class 4 (R345). -/
def State.postCompress (s : State) (f : Nat) : State :=
  match s.findVersion f with
  | none => s
  | some v =>
    let zone := (s.packZone v.nsid v.grant).bind fun id => s.host.records[id]?
    let soon := zone.any fun r => !(s.seq r.str .wsq).queue.isEmpty
    s.postJob { id := 0, compress := true, cls := if soon then 2 else 4, nsid := v.nsid, version := f, command := 0
                lba := v.lba, blocks := v.data.length, failedOn := none, code := 0, capsBlk := 16, minGain := 512 }

/-- A compress job that has nothing left to do: its version is gone, failed or superseded in every block (R349). -/
def State.jobStale (s : State) (j : PhvJob) : Bool :=
  match s.findVersion j.version with
  | none => true
  | some v => v.unlisted || v.state == .failed || v.lbas.all v.isSuperseded

/-- A decompress job whose read is over, or none of whose blocks it still waits for (R349). -/
def State.jobOver (s : State) (j : PhvJob) : Bool :=
  match s.findCmd j.command with
  | none => true
  | some c => c.ready.isSome || !((List.range j.blocks).any fun k => ((c.block (j.lba + k)).map (!·.ended)).getD false)

/-- The grant of a version is returned, used or not (R343). -/
def State.returnGrant (s : State) (f : Nat) : State :=
  match s.findVersion f with
  | none => s
  | some v =>
    (s.modNs v.nsid fun n => { n with granted := n.granted - v.grant }).modVersion f fun v => { v with grant := 0 }

/-- Jobs that are cancelled leave the queue and the save slots (R349). -/
def State.phvSweep (s : State) : State :=
  let dead (j : PhvJob) : Bool := if j.compress then s.jobStale j else s.jobOver j
  let gone := (s.phv.queue ++ s.phv.saved).filter fun j => j.compress && dead j
  let s := gone.foldl (fun s j => s.returnGrant j.version) s
  (s.modPhv fun p => { p with queue := p.queue.filter fun j => !dead j, saved := p.saved.filter fun j => !dead j }).phvRefresh

/-- The capsule of a decompress job. -/
def State.jobCapsule (s : State) (j : PhvJob) : Option Capsule :=
  (s.ns j.nsid).bind fun n => n.capsules.find? fun k => k.lba == j.lba && k.fseq == j.version

/-- Every payload of a decompress job's capsule has been verified into Phovi staging (R341). -/
def State.jobStaged (s : State) (j : PhvJob) : Bool :=
  match s.jobCapsule j, s.findCmd j.command with
  | some k, some c => (List.range k.payloads).all fun i => c.staged.contains (k.csa + i)
  | _, _ => false

/-- Engine `e` may run a job: a job that failed on it goes to the other engine while that one is in service. -/
def State.mayRun (s : State) (e : Nat) (j : PhvJob) : Bool := j.failedOn != some e || !s.phvInService (1 - e)

/-- The job an engine takes next: the lowest class; a suspended one before those of its class that wait (R345, R346). -/
def State.nextJob (s : State) (e : Nat) : Option PhvJob :=
  let saved := s.phv.saved.filter fun j => s.mayRun e j && (j.compress || s.jobStaged j)
  let waiting := (s.phv.queue.take 32).filter (s.mayRun e)
  [1, 2, 3, 4].findSome? fun c => (saved ++ waiting).find? fun j => j.cls == c

/-- PHOVI_JOB_START (R345): the S fields take effect and an idle engine in service takes the next job. -/
def State.jobStart (s : State) (e : Nat) : State :=
  let s := s.phvSweep
  if !decide (e < 2) || !s.phvInService e || (s.phv.engines.getD e none).isSome then s
  else
    match s.nextJob e with
    | none => s
    | some j =>
      let s := s.boundary .phovi 0
      let fresh := s.phv.queue.any fun q => q.id == j.id
      let j' := if fresh then { j with capsBlk := s.eff .PHV_CFG_CAPS_BLK, minGain := s.eff .PHV_CFG_MIN_GAIN } else j
      (s.modPhv fun p =>
        { p with queue := p.queue.filter (fun q => q.id != j.id), saved := p.saved.filter (fun q => q.id != j.id)
                 engines := p.engines.set e (some j') }).phvRefresh

/-! ### Engines that fail (R344, R348) -/

/-- Every media command of a compressed namespace ends in Internal Error while both engines are retired (R348). -/
def State.failCompressed (s : State) : State :=
  let hit (c : Cmd) : Bool := c.op.needsMedia && c.ready.isNone && (s.ns c.nsid).any (·.compressed)
  s.modHost fun h => { h with cmds := h.cmds.map fun c => if hit c then { c with started := true, ready := some (.internalError, 0, 0), owed := [] } else c }

/-- Both Phovi engines are retired. -/
def State.phvDown (s : State) : Bool := s.rd .PHV_STAT_INSVC == 0

/-- An engine is retired: a job on it is rerun on the other engine (R344, R349); with none left the device is Degraded
(R348). -/
def State.phvRetire (s : State) (e : Nat) : State :=
  if !s.phvInService e || !decide (e < 2) then s
  else
    let s := ((s.unflagBit .PHV_STAT_INSVC e).flag .PHV_STAT_ENG_FAULT).logEvent 0x000F 2 0 [e]
    let s := s.modPhv fun p =>
      { p with engines := p.engines.set e none
               queue := (p.engines.getD e none).toList ++ p.queue }
    let s := s.phvRefresh
    s.when s.phvDown fun s => s.failCompressed.setDegr 2 true

/-- A failure counts toward VFY_RET of an engine, which is retired when it reaches it (R344, R348). -/
def State.phvCount (s : State) (e : Nat) : State :=
  let s := s.bump .PHV_ENG_VFYCNT e
  s.when (decide (s.eff .PHV_CFG_VFY_RET ≤ s.rd .PHV_ENG_VFYCNT e)) fun s => s.phvRetire e

/-- Engine `e` is free again. -/
def State.phvFree (s : State) (e : Nat) : State := (s.modPhv fun p => { p with engines := p.engines.set e none }).phvRefresh

/-- A job is rerun from its first capsule, on the other engine while that is in service. -/
def State.phvRerun (s : State) (e : Nat) (j : PhvJob) : State :=
  (s.modPhv fun p => { p with engines := p.engines.set e none, queue := j :: p.queue }).phvRefresh

/-! ### A job ends -/

/-- A verification mismatch on a capsule (R344). -/
def State.verifyFail (s : State) (e : Nat) : State :=
  ((s.flag .PHV_STAT_VFY_FAIL).bump .PHV_CNT2_VFY_FAIL).phvCount e

/-- A tail is due at the end of a job: its write waits on the media with the volatile write cache disabled, or a Flush
waits for it (R340). -/
def State.tailDue (s : State) (v : Version) : Bool :=
  ((s.findCmd v.fseq).any fun c => !c.owed.isEmpty && !c.stream.isSome && s.vwcOff c.hqe)
    || s.host.cmds.any fun c => c.op == .flush && c.started && c.ready.isNone && c.waits.contains v.fseq

/-- The end of a compress job on engine `e`: `caps` gives, for each capsule, the compressed body and the faults of the engine;
`overrun` tells that the output would overrun B. A second mismatch on one capsule, or an overrun, fails the job on the engine
(R344). -/
def State.compressDone (s : State) (e : Nat) (j : PhvJob) (caps : List (List Nat × Nat)) (overrun : Bool) : State :=
  match s.findVersion j.version with
  | none => s.phvFree e
  | some v =>
    let runs := capsuleRuns j.capsBlk j.blocks j.lba j.blocks
    let todo : List ((Nat × Nat) × List Nat × Bool × Nat) := (runs.zip caps).map fun (r, c) =>
      (r, c.1, emitted j.minGain ((List.range r.2).map fun k => v.block (r.1 + k)) c.1 c.2)
    let s := todo.foldl (fun s t => (List.range t.2.2.2).foldl (fun s _ => s.verifyFail e) s) s
    let stale := s.jobStale j
    if (overrun || todo.any fun t => decide (2 ≤ t.2.2.2)) && !stale then
      s.phvRerun e { j with failedOn := some e }
    else if !stale && caps.length < runs.length then s
    else
      match s.packZone j.nsid v.grant with
      | none => s
      | some id =>
        let out := todo.map fun t => (t.1, v.capsule t.2.2.1 t.1.1 t.1.2 t.2.1)
        let fps := out.map fun t => footprint t.2.length
        let s := out.foldl (fun s t => s.packCapsule id v t.1.1 t.1.2 t.2) s
        let raw := (todo.map fun t => t.1.2).sum
        let bytes := s.phv.packRest + 16 * fps.sum
        let s := (s.bump .PHV_CNT0_RAW_KIB 0 (4 * raw)).bump .PHV_CNT1_PACK_KIB 0 (bytes / 1024)
        let s := s.modPhv fun p => { p with packRest := bytes % 1024 }
        let s := s.when (s.tailDue v) fun s => s.forceTail id
        (s.returnGrant j.version).phvFree e

/-- The requested blocks of a capsule fail with Unrecovered Read, vendor byte 0x02, and no reallocation (R348). -/
def State.capsuleFails (s : State) (j : PhvJob) : State :=
  (List.range j.blocks).foldl (fun s k =>
    match s.findCmd j.command with
    | none => s
    | some c =>
      let l := j.lba + k
      if ((c.block l).map (!·.ended)).getD false && c.posted.contains l then
        (s.logUnrecovered c l 2).modCmd j.command fun c => (c.setBlock l (.failed .unrecoveredRead)).settled
      else s) s

/-- The String whose read pages take the blocks of a capsule. -/
def State.capsuleStr (s : State) (n : Namespace) (k : Capsule) : Option Str :=
  ((n.map.find? fun e => e.1 == k.csa).bind fun e => s.host.records[e.2.1]?).map (·.str)

/-- The blocks of a capsule reach its command (R341): each leaves for a read page. -/
def State.capsuleDelivered (s : State) (j : PhvJob) : State :=
  match s.ns j.nsid, s.jobCapsule j with
  | some n, some k =>
    let page := s.capsuleStr n k
    let raw := (decodeCapsule k.lba k.blocks k.bytes).2
    (List.range k.blocks).foldl (fun s i =>
      let l := k.lba + i
      let wanted := (s.findCmd j.command).any fun c =>
        c.posted.contains l && ((c.block l).map (!·.ended)).getD false
          && (n.capsuleFor c.fseq l).any fun q => q.fseq == k.fseq && q.lba == k.lba
      s.when wanted fun s =>
        let s := match page with
          | some x => s.wr .BRG_USE_PAGES (s.rd .BRG_USE_PAGES x.num + 1) x.num
          | none => s
        s.receiveBlock j.command l (blockOf ((raw.drop (4096 * i)).take 4096)) page) s
  | _, _ => s

/-- A decompressor error of code 1 to 9 on engine `e` (R347). -/
def State.decodeError (s : State) (e code : Nat) (j : PhvJob) : State :=
  let csa := ((s.jobCapsule j).map (·.csa)).getD 0
  let s := ((s.flag .PHV_STAT_DEC_ERR).bump .PHV_CNT2_DEC_ERR).wr .PHV_ERRLOG_LAST_CODE code
  let s := s.when j.failedOn.isNone fun s => (s.wr .PHV_ERRLOG_ENGINE e).unflag .PHV_ERRLOG_REPEAT
  (s.wr .PHV_ERRCSA0_CSA_LO (csa % 2 ^ 32)).wr .PHV_ERRCSA1_CSA_HI (csa / 2 ^ 32)

/-- The end of a decompress job on engine `e`: `code` is 0, or an error of R347 that a fault of the engine gives; else the
capsule's bytes decide. The first error is rerun on the other
engine; the rerun decides (R348). A rerun that gives another code ends as a repeat does, without REPEAT (log entry
24). -/
def State.decompressDone (s : State) (e : Nat) (j : PhvJob) (code : Nat) : State :=
  let code := if code = 0 then ((s.jobCapsule j).map fun k => (decodeCapsule k.lba k.blocks k.bytes).1).getD 0 else code
  if code = 0 then
    let s := s.capsuleDelivered j
    let s := match j.failedOn with
      | some first => s.phvCount first
      | none => s
    s.phvFree e
  else
    let s := s.decodeError e code j
    match j.failedOn with
    | none => if s.phvInService (1 - e) then s.phvRerun e { j with failedOn := some e, code } else (s.capsuleFails j).phvFree e
    | some _ => ((s.when (j.code == code) fun s => s.flag .PHV_ERRLOG_REPEAT).capsuleFails j).phvFree e

/-- PHOVI_JOB_DONE (R344, R347): engine `e` ends its job. A decompress job ends once all its payloads are verified. -/
def State.jobDone (s : State) (e : Nat) (caps : List (List Nat × Nat)) (overrun : Bool) (code : Nat) : State :=
  match s.phv.engines.getD e none with
  | none => s
  | some j =>
    if j.compress then s.compressDone e j caps overrun
    else if s.jobOver j then s.phvFree e
    else if s.jobStaged j then s.decompressDone e j (min 9 code)
    else s

/-- JOB_SUSPEND (R346): a compress job gives way to a job of a lower class, a decompress job whose next payload is not
yet verified leaves its engine; either needs a free save slot. -/
def State.jobSuspend (s : State) (e : Nat) : State :=
  match s.phv.engines.getD e none with
  | none => s
  | some j =>
    let due := if j.compress then (s.phv.queue.take 32).any fun q => decide (q.cls < j.cls) else !s.jobStaged j
    if due && decide (s.phv.saved.length < 4) then
      let s := (s.flag .PHV_STAT_PREEMPT).bump .PHV_CNT3_PREEMPT
      (s.modPhv fun p => { p with engines := p.engines.set e none, saved := p.saved ++ [j] }).phvRefresh
    else s

/-- SPACE_TIMEOUT (R343): a write whose grant could not be made completes with Capacity Exceeded. -/
def State.spaceTimeout (s : State) (f : Nat) : State :=
  if s.phv.spaceWait.any fun e => e.1 == f then
    let s := s.modPhv fun p => { p with spaceWait := p.spaceWait.filter fun e => e.1 != f }
    let s := s.modBridge fun b => { b with waiting := b.waiting.filter fun e => e.1 != f }
    ((s.flag .PHV_STAT_CAP_EXC).bump .PHV_CNT3_CAP_EXC).finish f .capacityExceeded
  else s

/-- RETIRE (R350). -/
def State.phvRetireMask (s : State) (mask : Nat) : State :=
  [0, 1].foldl (fun s e => s.when (mask.testBit e) fun s => s.phvRetire e) s

/-- UNRETIRE (R350): in Maintenance alone. -/
def State.phvUnretireMask (s : State) (mask : Nat) : State :=
  if s.mode != 7 then s.flag .PHV_STAT_CFG_LOCKED
  else
    let s := [0, 1].foldl (fun s e => s.when (mask.testBit e) fun s =>
      (s.flagBit .PHV_STAT_INSVC e).wr .PHV_ENG_VFYCNT 0 e) s
    s.phvRefresh.setDegr 2 s.phvDown

/-! ### Staging (R324, R341) -/

/-- A payload of a compressed namespace has been verified into Phovi staging for a command: the decompress jobs whose
header payload it is are posted, class 3 for a Verify (R341, R345). With both engines retired the command ends in
Internal Error (R348). -/
def State.stagePayload (s : State) (f csa : Nat) : State :=
  match s.findCmd f with
  | none => s
  | some c =>
    match s.ns c.nsid with
    | none => s
    | some n =>
      if s.phvDown then s.finish f .internalError
      else
        let s := s.modCmd f fun c => { c with staged := c.staged ++ [csa] }
        let ks := (c.posted.filterMap fun l => n.capsuleFor f l).eraseDups.filter fun k => k.csa == csa
        let cls := match c.op with
          | .verify .. => 3
          | _ => 1
        ks.foldl (fun s k => s.postJob
          { id := 0, compress := false, cls, nsid := c.nsid, version := k.fseq, command := f, lba := k.lba, blocks := k.blocks
            failedOn := none, code := 0, capsBlk := 16, minGain := 512 }) s

/-! ### Meanings -/

def execPhoviJobStart (engine : Nat) (s : State) : Host.Outcome State Fault Refusal := .next (s.jobStart engine)

def execPhoviJobDone (engine : Nat) (capsules : List (List Nat × Nat)) (overrun : Bool) (code : Nat) (s : State) :
    Host.Outcome State Fault Refusal :=
  .next (s.jobDone engine capsules overrun code)

def execJobSuspend (engine : Nat) (s : State) : Host.Outcome State Fault Refusal := .next (s.jobSuspend engine)

def execPackTimeout (record : Nat) (s : State) : Host.Outcome State Fault Refusal := .next (s.forceTail record)

def execSpaceTimeout (fseq : Nat) (s : State) : Host.Outcome State Fault Refusal := .next (s.spaceTimeout fseq)

def execPhoviRetire (mask : Nat) (s : State) : Host.Outcome State Fault Refusal := .next (s.phvRetireMask mask)

def execPhoviUnretire (mask : Nat) (s : State) : Host.Outcome State Fault Refusal := .next (s.phvUnretireMask mask)

end Sys2Proof.Machine
end

