-- ==== Sys2Proof/Machine/Cabinet.lean ====
section
/-! DEFINITION. Machine/Cabinet.lean: the Cabinet (R316 to R334): requests and cores, the holding buffer, tag failures,
slot operations on the keys, tests, and the meanings of their commands. SLOT_OP_COMPLETE's effect on the command that
caused it stands with the namespaces. -/
namespace Sys2Proof.Machine

/-- The Cabinet changed by `f`. -/
def State.modCab (s : State) (f : Cabinet → Cabinet) : State := { s with cab := f s.cab }

/-! ### Cores (R329 to R331) -/

/-- Core `c` is in service. -/
def State.coreUp (s : State) (c : Nat) : Bool := decide (c < 4) && !s.bit .CAB_STAT_CORE_RET c

/-- Cores in service that work on nothing. -/
def State.idleCores (s : State) : List Nat := [0, 1, 2, 3].filter fun c => s.coreUp c && !(s.cab.running.any fun r => r.1 == c)

/-- The next request: the lowest class, the oldest in it (R330). -/
def nextCab (q : List CabJob) : Option CabJob := [1, 2, 3, 4, 5].findSome? fun c => q.find? fun j => j.cls == c

/-- Idle cores take the next requests. -/
def State.cabStart (s : State) : State :=
  s.idleCores.foldl (fun s c =>
    match nextCab s.cab.queue with
    | none => s
    | some j => s.modCab fun k => { k with queue := k.queue.erase j, running := k.running ++ [(c, j)] }) s

/-- A request joins the queue of 64 (R330). -/
def State.cabRequest (s : State) (j : CabJob) : State := (s.modCab fun k => { k with queue := k.queue ++ [j] }).cabStart

/-- The queue has room. -/
def State.cabRoom (s : State) : Bool := decide (s.cab.queue.length < 64)

/-- With no core in service every command that needs the media or the Chest write buffer ends in Internal Error
(R331). -/
def State.failMediaAll (s : State) : State :=
  let hit (c : Cmd) : Bool := c.op.needsMedia && c.ready.isNone
  let fail (c : Cmd) : Cmd := { c with started := true, ready := some (.internalError, 0, 0), owed := [] }
  s.modHost fun h => { h with cmds := h.cmds.map fun c => if hit c then fail c else c }

/-- A core is retired: its sector is done again by another core (R331); with none left the device is Degraded (R428). -/
def State.retireCabCore (s : State) (c : Nat) : State :=
  if !s.coreUp c then s
  else
    let mine := (s.cab.running.filter fun r => r.1 == c).map (·.2)
    let s := (s.flagBit .CAB_STAT_CORE_RET c).wr .CAB_STAT_CORES (s.rd .CAB_STAT_CORES - 1)
    let s := (s.bump .CAB_CNT3_KAT_FAIL).logEvent 0x000F 2 0 [c]
    let s := s.modCab fun k => { k with running := k.running.filter fun r => r.1 != c, queue := mine ++ k.queue }
    s.cabStart.when (s.rd .CAB_STAT_CORES == 0) fun s => s.failMediaAll.setDegr 4 true

/-- KAT_GO (R331): every core is tested; `bad` names those that fail. -/
def State.katGo (s : State) (bad : Nat) : State :=
  [0, 1, 2, 3].foldl (fun s c => s.when (bad.testBit c) fun s => s.retireCabCore c) s

/-! ### Encryption (R321 to R323) -/

/-- A slot operation that waits refuses requests that name its slot (R332). -/
def State.slotHeld (s : State) (k : Nat) : Bool := s.cab.ops.any fun o => o.slot == k && o.op != 0

/-- Codewords of the WSQ's requests in request order: request identifier and place. -/
def State.wsqPlaces (s : State) (x : Str) : List (Request × Place) :=
  let u := s.seq x .wsq
  let at' (k : Nat) (r : Request) : List (Request × Place) :=
    ((r.places.drop (if k = 0 then u.progress else 0)).filter fun p => p.word.isSome).map fun p => (r, p)
  ((u.queue ++ u.returned).mapIdx fun k r => at' k r).flatten

/-- The place stands encrypted, is being encrypted, or is being written. -/
def State.encrypted (s : State) (x : Str) (id p : Nat) : Bool :=
  let w := (s.str.get x).wrp
  let busy (j : CabJob) : Bool := j.source == .encrypt && j.x == x && j.command == id && j.offset == p
  (w.cells ++ w.fifo ++ w.retrying.toList).contains (id, p) || s.cab.queue.any busy || (s.cab.running.any fun r => busy r.2)
    || w.open'.any fun a => a.request.id == id && a.place.p == p

/-- The next sector of a host request to encrypt (R302). -/
def State.nextEncrypt (s : State) (x : Str) : Option (Request × Place) :=
  (s.wsqPlaces x).find? fun e => e.1.source == .host && !(s.encrypted x e.1.id e.2.p)

/-- Slot of a request's namespace. -/
def State.slotOf (s : State) (nsid : Nat) : Option Nat := (s.ns nsid).map (·.slot)

/-- NONCE_GUARD (R323): nothing is encrypted and the WSQ request fails, its data kept in the Bridge. -/
def State.nonceGuard (s : State) (x : Str) (id : Nat) : State :=
  (s.flag .CAB_STAT_NONCE_GUARD).withdrawWrites x fun r => r.id == id

/-- ENCRYPT_REQUEST (R302, R323): String `x`'s next sector, if a write cell is free and the queue has room. -/
def State.encryptRequest (s : State) (x : Str) : State :=
  match s.nextEncrypt x with
  | none => s
  | some (r, p) =>
    if !s.cellFree x || !s.cabRoom then s
    else
      match p.word, s.slotOf (s.requestNsid r) with
      | some (.data w), some k =>
        let slot := s.keySlot k
        if slot.counter ≤ w.gen || slot.state != .active || s.slotHeld k then s.nonceGuard x r.id
        else
          let wp := (s.str.get x).wrp
          let urgent := s.isSet .WRPx_STAT_RUN x.ix && decide (wp.cells.length + wp.fifo.length < 2)
          let s := s.wr .BRG_USE_CELLS (s.rd .BRG_USE_CELLS x.num + 1) x.num
          s.cabRequest
            { source := .encrypt, cls := if urgent then 2 else 4, x, lane := none, command := r.id, lba := p.lba
              nonce := counterBlock p.lba w.gen w.nstag
              word := some (.data { w with key := slot.key, check := lbaCheck w, j0 := counterBlock p.lba w.gen w.nstag }), slot := k, ladder := none, action := none, gen := w.gen, version := 0
              offset := p.p }
      | _, _ => s.nonceGuard x r.id

/-- The codeword of a place of a request becomes what the Cabinet has encrypted. -/
def Request.fill (r : Request) (p : Nat) (w : Option Codeword) : Request :=
  { r with places := r.places.map fun q => if q.p == p && q.word.isSome then { q with word := w } else q }

/-- An encrypted sector stands in its write cell, in request order; a withdrawn request returns the cell (R302). -/
def State.cellFilled (s : State) (x : Str) (j : CabJob) : State :=
  let s := s.bump .CAB_CNT1_ENCRYPTS
  let u := s.seq x .wsq
  if (u.queue ++ u.returned).any fun r => r.id == j.command then
    let fill (r : Request) : Request := if r.id == j.command then r.fill j.offset j.word else r
    let s := s.modSeq x .wsq fun u =>
      { u with queue := u.queue.map fill, returned := u.returned.map fill
               armed := u.armed.map fun a => { a with request := fill a.request } }
    let order := (s.wsqPlaces x).map fun e => (e.1.id, e.2.p)
    s.modWrp x fun w =>
      let have' := w.cells ++ [(j.command, j.offset)]
      { w with cells := order.filter have'.contains }
  else s.giveCells x 1

/-! ### Holding and release (R324, R325) -/

/-- The namespace of a codeword: that of the record it was read from. -/
def State.jobNs (s : State) (j : CabJob) : Option Namespace :=
  let zone := (j.action.bind fun a => a.request.zone) <|> ((j.ladder.bind fun l => s.findLadder j.x l).bind fun l => l.zone)
  (zone.bind fun z => s.host.records[z]?).bind fun r => s.ns r.nsid

/-- The content of a codeword. -/
def CabJob.content (j : CabJob) : Content :=
  match j.word with
  | some (.data w) => w
  | _ => { lba := 0, gen := 0, nstag := 0, key := 0, data := 0 }

/-- An entry of the holding buffer is free again. -/
def State.releaseHold (s : State) : State := s.wr .CAB_STAT_HOLD_USED (s.rd .CAB_STAT_HOLD_USED - 1)

/-- The read page that a codeword's capture took; a codeword rebuilt from parity has none. -/
def CabJob.page (j : CabJob) : Option Str := if j.lane.isSome then some j.x else none

/-- A verified sector reaches its command: a payload of a compressed namespace goes to Phovi staging, a block to its read
page (R324); what no command waits for is discarded. -/
def State.released (s : State) (j : CabJob) : State :=
  match s.findCmd j.command with
  | none => s.givePage j.page
  | some c =>
    if (s.ns c.nsid).any (·.compressed) then (s.givePage j.page).stagePayload j.command j.lba
    else
      let s := s.when j.lane.isNone fun s => s.wr .BRG_USE_PAGES (s.rd .BRG_USE_PAGES j.x.num + 1) j.x.num
      s.receiveBlock j.command j.lba j.content.data (some j.x)

/-- A tag failure (R325). -/
def State.tagFail (s : State) (j : CabJob) : State :=
  let s := (((s.flag .CAB_STAT_TAG_FAIL).bump .CAB_CNT2_TAG_FAIL).releaseHold).givePage j.page
  match j.ladder.bind fun l => s.findLadder j.x l with
  | some l => s.ladderTagFail j.x l
  | none =>
    match j.source, j.action with
    | .inline, some a => s.enterLadder j.x none a a.request.head 3
    | .verifyCmd, some a => s.enterLadder j.x none a a.request.head 3
    | _, _ => s

/-- A tag match: a ladder ends in success, and the sector is released to its requester. -/
def State.tagGood (s : State) (j : CabJob) : State :=
  let s := s.releaseHold
  match j.ladder.bind fun l => s.findLadder j.x l with
  | some l =>
    let s := s.ladderDone j.x l (.data j.content)
    if l.source == .host && !l.detached then s.released j else s.givePage j.page
  | none =>
    match j.source with
    | .scb => s.givePage j.page
    | _ => s.released j

/-- HOLD_ENTRY_GRANT (R324): the first codeword that waits gets an entry, its lane is free, and its trailer is checked;
it is then queued for decryption. -/
def State.holdGrant (s : State) : State :=
  match s.cab.holdWait with
  | [] => s
  | j :: rest =>
    if 64 ≤ s.rd .CAB_STAT_HOLD_USED || !s.cabRoom then s
    else
      let s := (s.modCab fun k => { k with holdWait := rest }).wr .CAB_STAT_HOLD_USED (s.rd .CAB_STAT_HOLD_USED + 1)
      let s := match j.lane with
        | some n => s.setLane n .idle
        | none => s
      let w := j.content
      match s.jobNs j with
      | none => s.tagFail j
      | some n =>
        let slot := s.keySlot n.slot
        if slot.counter ≤ w.gen || w.nstag != n.nstag then (s.bump .CAB_CNT2_GEN_BAD).tagFail j
        else if s.slotHeld n.slot then (s.flag .CAB_STAT_NONCE_GUARD).tagFail j
        else s.cabRequest { j with slot := n.slot, nonce := counterBlock j.lba w.gen n.nstag }

/-- A core has decrypted a sector: the tag matches when the sector was encrypted under the slot's keys and the counter block that
the Cabinet built from the LBA of the RSQ, GEN and the namespace tag (R324), and its bits are unaltered. -/
def State.decrypted (s : State) (j : CabJob) (intact : Bool) : State :=
  let s := s.bump .CAB_CNT0_DECRYPTS
  let w := j.content
  let slot := s.keySlot j.slot
  if intact && w.key == slot.key && slot.key != 0 && w.j0 == j.nonce && w.lba == j.lba then s.tagGood j else s.tagFail j

/-! ### XTS (R327) -/

/-- XTS_REQUEST: a block of a Chest write, or of a read served from the Chest, passes through an XTS request. -/
def State.xtsRequest (s : State) (f lba : Nat) : State :=
  match s.findVersion f with
  | none => s
  | some v =>
    match (s.ns v.nsid).map fun n => (n.slot, n.nstag) with
    | none => s
    | some (k, nstag) =>
      if v.queue != .chest || !v.covers lba || !s.cabRoom then s
      else if s.slotHeld k then s.flag .CAB_STAT_NONCE_GUARD
      else s.cabRequest
        { source := .xts, cls := 3, x := .A, lane := none, command := f, lba, word := none, slot := k, ladder := none, action := none
          gen := 0, version := f, offset := 0, nonce := xtsTweak lba nstag }

/-- The 64 data rows of a block of an entry whose transfer runs are written (R306). -/
def State.xtsDone (s : State) (j : CabJob) : State :=
  match s.findVersion j.version, s.bridge.log.find? fun e => e.fseq == j.version with
  | some v, some e =>
    if v.state == .xfer then
      (List.range 64).foldl (fun s k => s.chestRow 3 (logRow (e.row + 1 + 64 * (j.lba - v.lba) + k))) s
    else s
  | _, _ => s

/-- CIPHER_SECTOR_DONE (R329): core `c` finishes its sector. -/
def State.cipherDone (s : State) (c : Nat) (intact : Bool) : State :=
  match s.cab.running.find? fun r => r.1 == c with
  | none => s
  | some (_, j) =>
    let s := s.modCab fun k => { k with running := k.running.filter fun r => r.1 != c }
    let s := match j.source with
      | .encrypt => s.cellFilled j.x j
      | .xts => s.xtsDone j
      | _ => s.decrypted j intact
    s.cabStart

/-! ### Slot operations (R320) -/

/-- BUSY follows the operations; CAB_SLOTSTAT follows the slots. -/
def State.opsRefresh (s : State) : State := (s.setTo .CAB_STAT_BUSY (!s.cab.ops.isEmpty)).slotShow

/-- The operation would be refused: RNG_FAIL or a SCRAPPED device (R460) for one that makes keys, a state without a row in R320's table, no FREE slot
for an exhausted one, an operation code of 3. -/
def State.opRefused (s : State) (op k : Nat) : Bool :=
  let st := (s.keySlot k).state
  let rng := s.isSet .CAB_STAT_RNG_FAIL || s.rd .LC_STAT_STATE == 5
  match op with
  | 0 => rng || st != .free
  | 1 => st == .free
  | 2 => rng || st == .free || (st == .exhausted && !(s.cab.slots.any fun e => e.state == .free))
  | _ => true

/-- A slot operation is issued: whether it is accepted. Operations run one at a time, in the order issued. -/
def State.issueOp (s : State) (op k : Nat) (command : Option Nat) : Bool × State :=
  if s.opRefused op k then (false, s.flag .CAB_STAT_OP_ERR)
  else (true, (s.modCab fun c => { c with ops := c.ops ++ [{ op, slot := k, command }] }).opsRefresh)

/-- A write of SLOT_GO (R333): with BUSY set it is ignored and sets OP_ERR. -/
def State.slotGo (s : State) (op k : Nat) : State :=
  let s := (s.wr .CAB_CTRL_SLOT_OP op).wr .CAB_CTRL_SLOT k
  if s.isSet .CAB_STAT_BUSY then s.flag .CAB_STAT_OP_ERR else (s.issueOp op k none).2

/-- A request names the slot: it waits for its core, runs, or waits for a holding entry. -/
def State.slotNamed (s : State) (k : Nat) : Bool :=
  (s.cab.queue.any fun j => j.slot == k) || (s.cab.running.any fun r => r.2.slot == k)
    || s.cab.holdWait.any fun j => (s.jobNs j).any fun n => n.slot == k

/-- A slot gets new keys: it becomes ACTIVE, its counter stays. -/
def State.newKeys (s : State) (k : Nat) : State :=
  let id := s.cab.nextKey
  ((s.modKeySlot k fun c => { c with state := .active, key := id }).modCab fun c => { c with nextKey := id + 1 }).journal (slotRow k)

/-- A slot's record and key RAM are cleared; an exhausted slot stays exhausted. -/
def State.clearKeys (s : State) (k : Nat) : State :=
  (s.modKeySlot k fun c =>
    { c with key := 0, nsid := 0, nstag := 0, state := if c.state == .exhausted then .exhausted else .free }).journal (slotRow k)

/-- The keys change as an operation says: the slot that holds the owner's keys afterwards. -/
def State.slotEffect (s : State) (o : SlotOp) : Option Nat × State :=
  match o.op with
  | 0 => (some o.slot, s.newKeys o.slot)
  | 1 => (none, s.clearKeys o.slot)
  | _ =>
    let c := s.keySlot o.slot
    if c.state == .exhausted then
      match s.cab.slots.findIdx? fun e => e.state == .free with
      | none => (none, s.flag .CAB_STAT_OP_ERR)
      | some k =>
        let s := (s.newKeys k).modKeySlot k fun e => { e with nsid := c.nsid, nstag := c.nstag }
        (some k, s.clearKeys o.slot)
    else (some o.slot, s.newKeys o.slot)

/-- KEK_EPOCH advances (R320): every record becomes unusable, key RAM is cleared, counters stay. -/
def State.epochKeys (s : State) : State :=
  let clear (k : KeySlot) : KeySlot :=
    { k with key := 0, state := if k.state == .active then .free else k.state, nsid := 0, nstag := 0 }
  let s := s.modCab fun c => { c with slots := c.slots.map clear }
  (s.modHost fun h => { h with namespaces := h.namespaces.map fun n => { n with keyLost := true } }).slotShow

/-! ### Meanings -/

def execEncryptRequest (x : Str) (s : State) : Host.Outcome State Fault Refusal := .next (s.onStr x fun s => s.encryptRequest x)

def execHoldEntryGrant (s : State) : Host.Outcome State Fault Refusal := .next s.holdGrant

def execXtsRequest (fseq lba : Nat) (s : State) : Host.Outcome State Fault Refusal := .next (s.xtsRequest fseq lba)

def execCipherSectorDone (core : Nat) (intact : Bool) (s : State) : Host.Outcome State Fault Refusal :=
  .next (s.cipherDone core intact)

def execGenerate (slot : Nat) (s : State) : Host.Outcome State Fault Refusal := .next (s.slotGo 0 (slot % 256))

def execErase (slot : Nat) (s : State) : Host.Outcome State Fault Refusal := .next (s.slotGo 1 (slot % 256))

def execRekey (slot : Nat) (s : State) : Host.Outcome State Fault Refusal := .next (s.slotGo 2 (slot % 256))

def execKatGo (bad : Nat) (s : State) : Host.Outcome State Fault Refusal := .next (s.katGo bad)

def execKatPeriodic (core : Nat) (passed : Bool) (s : State) : Host.Outcome State Fault Refusal :=
  .next (s.when (!passed) fun s => s.retireCabCore core)

def execRngHealthFail (s : State) : Host.Outcome State Fault Refusal := .next (s.flag .CAB_STAT_RNG_FAIL)

end Sys2Proof.Machine
end

