-- ==== Sys2Proof/Machine/HostOps.lean ====
section
/-! DEFINITION. Machine/HostOps.lean: what each operation of the command sets reads, writes and asks (R248, R252 to R254,
R262, R268). -/
namespace Sys2Proof
open Sys2Proof.Machine

/-- The command is a write: Write, Zone Append or Write Zeroes. -/
def HostOp.isWrite : HostOp → Bool
  | .write .. | .append .. | .writeZeroes .. => true
  | _ => false

/-- Data of a write, by block. -/
def HostOp.writeData : HostOp → List Nat
  | .write _ blocks _ _ _ => blocks.map (·.data)
  | .append _ blocks _ _ => blocks.map (·.data)
  | .writeZeroes _ n => List.replicate n 0
  | _ => []

/-- Reservation class of a command: reads, writes, or neither. -/
def HostOp.resvWrites : HostOp → Bool
  | .write .. | .append .. | .flush | .writeZeroes .. | .dsm .. | .zoneSend .. | .format | .nsDelete | .nsAttach .. | .nsDetach .. => true
  | _ => false

def HostOp.resvReads : HostOp → Bool
  | .read .. | .compare .. | .verify .. | .zoneReceive .. => true
  | _ => false

/-- The command set that a namespace's kind gives an operation: the zone commands and Zone Append on Zoned namespaces
alone, Dataset Management on the others (R253, R254). -/
def HostOp.supportedOn (op : HostOp) (k : NsKind) : Bool :=
  match op with
  | .append .. | .zoneSend .. | .zoneReceive .. => k == .zoned
  | .dsm .. => k != .zoned
  | _ => true

/-- First LBA and length of a command's range. -/
def HostOp.range : HostOp → Option (Nat × Nat)
  | .read l n => some (l, n)
  | .write l b _ _ _ => some (l, b.length)
  | .append z b _ _ => some (z * 131072, b.length)
  | .compare l b => some (l, b.length)
  | .verify l n => some (l, n)
  | .writeZeroes l n => some (l, n)
  | _ => none

/-- Blocks of a command when it is fetched: those of its range; a Zone Append's are known when it is taken. -/
def HostOp.firstBlocks (op : HostOp) : List (Nat × BlockState) :=
  match op with
  | .append .. => []
  | _ => match op.range with
    | some (l, n) => (List.range n).map fun k => (l + k, .waiting)
    | none => []

/-- What a command touches in its namespace: ranges, and whether it changes them. In a Zoned namespace a change touches
the whole zone. -/
def HostOp.touches (op : HostOp) (zoned : Bool) : List (Nat × Nat) × Bool :=
  let zone l n := if zoned then (l / 131072 * 131072, n + l % 131072 + 131072) else (l, n)
  match op with
  | .read l n | .verify l n => ([(l, n)], false)
  | .compare l b => ([(l, b.length)], false)
  | .write l b _ _ _ => ([zone l b.length], true)
  | .append z _ _ _ => ([(z * 131072, 131072)], true)
  | .writeZeroes l n => ([zone l n], true)
  | .dsm rs _ => (rs, true)
  | .zoneSend _ z all => (if all then [(0, 2 ^ 48)] else [(z * 131072, 131072)], true)
  | .zoneReceive z _ => ([(z * 131072, 2 ^ 48)], false)
  | _ => ([], false)

end Sys2Proof
end

