-- ==== Sys2Proof/Machine/Reads.lean ====
section
/-! DEFINITION. Machine/Reads.lean: where a read takes each of its blocks from (R271, R272, R296), and what becomes of
writes that fail (R270, R298). -/
namespace Sys2Proof.Machine

/-! ### Sources (R272) -/

/-- Where the media part of a namespace holds a block: nowhere readable, positions to read (record, data sector, LBA or
CSA; none for a block that reads as zeros), or a place whose contents the manual does not state. -/
inductive MediaSource
  | failed (st : NvStatus)
  | places (l : List (Nat × Nat × Nat))
  | unstated
deriving DecidableEq, Repr

/-- A mapped position, unless its String is lost. -/
def State.mappedAt (s : State) (n : Namespace) (a : Nat) : MediaSource :=
  match n.map.find? fun e => e.1 == a with
  | none => .places []
  | some (_, id, z) =>
    if (s.host.records[id]?).any fun r => r.state == .offline then .failed .unrecoveredRead else .places [(id, z, a)]

/-- Two sources read together. -/
def MediaSource.both (a b : MediaSource) : MediaSource :=
  match a, b with
  | .failed st, _ => .failed st
  | _, .failed st => .failed st
  | .places p, .places q => .places (p ++ q)
  | _, _ => .unstated

/-- The media source of block `l` for a read with FSEQ `f`. -/
def State.mediaSource (s : State) (n : Namespace) (f l : Nat) : MediaSource :=
  if s.isWriteLost n.nsid l then .failed .unrecoveredRead
  else if n.kind == .zoned then
    match (s.recordOf n.nsid (l / 131072)).bind fun id => (s.host.records[id]?).map fun r => (id, r) with
    | none => .unstated
    | some (id, r) =>
      if r.state == .offline then .failed .zoneIsOffline
      else if l % 131072 < max r.wp r.mp then .places [(id, l % 131072, l)]
      else .unstated
  else if n.compressed then
    match n.capsuleFor f l with
    | none => .places []
    | some k =>
      if k.live.contains l then
        (List.range k.payloads).foldl (fun m i => m.both (s.mappedAt n (k.csa + i))) (.places [])
      else .places []
  else s.mappedAt n l

/-- The newest write below FSEQ `f` that a read must see for block `l`, a version or one that waits for its grant. -/
def State.writeBelow (s : State) (nsid l f : Nat) : Option Nat :=
  let waits := (s.bridge.waiting.map (·.1)).filter fun g => decide (g < f) &&
    (s.findCmd g).any fun c => c.nsid == nsid && c.blocks.any fun e => e.1 == l
  (waits ++ ((s.newestVersion nsid l f).map (·.fseq)).toList).foldl (fun (m : Option Nat) g => some (max g (m.getD 0))) none

/-- Block `l` of command `f` waits for a version, which is pinned (R296). -/
def State.fromVersion (s : State) (f l g : Nat) : State :=
  let fresh := (s.findCmd f).any fun c => !(c.pins.contains g)
  let s := s.modCmd f fun c => { c.setBlock l (.version g) with pins := if c.pins.contains g then c.pins else g :: c.pins }
  s.when fresh fun s => s.modVersion g fun v => { v with pins := v.pins + 1 }

/-- A block takes its source: a version, an outcome at once, or positions to be read, which are added to `todo`; with no Harp lane
in service no media read is issued (R196). -/
def State.sourceBlock (s : State) (f l : Nat) (todo : List (Nat × Nat × Nat)) : State × List (Nat × Nat × Nat) :=
  match s.findCmd f with
  | none => (s, todo)
  | some c =>
    match s.writeBelow c.nsid l f with
    | some g =>
      if (s.findVersion g).any fun v => v.lost.contains l then
        ((s.logUnrecovered c l 0).modCmd f fun c => c.setBlock l (.failed .unrecoveredRead), todo)
      else (s.fromVersion f l g, todo)
    | none =>
      match (s.ns c.nsid).map fun n => s.mediaSource n f l with
      | none => (s, todo)
      | some (.failed st) =>
        let s := if st == .unrecoveredRead then s.logUnrecovered c l 0 else s
        (s.modCmd f fun c => c.setBlock l (.failed st), todo)
      | some .unstated => ((s.receiveBlock f l s.free none).drawn, todo)
      | some (.places []) => (s.receiveBlock f l 0 none, todo)
      | some (.places ps) =>
        if s.rd .HARP_STAT_INSVC = 0 then (s.modCmd f fun c => c.setBlock l (.failed .internalError), todo)
        else (s.modCmd f fun c => { c.setBlock l .waiting with posted := c.posted ++ [l] }, todo ++ ps)

/-- The positions of a read are posted, one request for each track of a record (R26). -/
def State.postReads (s : State) (f : Nat) (todo : List (Nat × Nat × Nat)) : State :=
  let todo := todo.eraseDups
  let ids := (todo.map (·.1)).eraseDups
  let stream := (s.findCmd f).any fun c => c.stream.isSome
  ids.foldl (fun s id =>
    match s.host.records[id]? with
    | none => s
    | some r =>
      let mine := (todo.filter fun e => e.1 == id).map fun (_, z, a) => (s.indexOf r z, a, none)
      let s := match s.findCmd f with
        | some c => s.reach c r.str mine.length
        | none => s
      s.postPlaces r.str .rsq .host f (some id) stream true 0 r.band mine) s

/-- The blocks of a command take their sources, and what must be read is posted. -/
def State.startReads (s : State) (f : Nat) (ls : List Nat) : State :=
  let (s, todo) := ls.foldl (fun (p : State × List (Nat × Nat × Nat)) l => p.1.sourceBlock f l p.2) (s, [])
  (s.postReads f todo).modCmd f Cmd.settled

/-! ### Writes that fail (R250, R270, R274, R298) -/

/-- LBAs of a command's blocks. -/
def Cmd.lbas (c : Cmd) : List Nat := c.blocks.map (·.1)

/-- First LBA of a command's blocks. -/
def Cmd.first (c : Cmd) : Nat := (c.lbas.head?).getD 0

/-- The record of the zone a write goes to, for a Zoned namespace. -/
def State.zoneOf (s : State) (c : Cmd) : Option Nat :=
  if (s.ns c.nsid).any fun n => n.kind == .zoned then s.recordOf c.nsid (c.first / 131072) else none

/-- Reads that waited on a write that has failed take the next older source (R272). -/
def State.resource (s : State) (g : Nat) : State :=
  let hit := s.host.cmds.filterMap fun c =>
    let ls := (c.blocks.filter fun e => e.2 == .version g).map (·.1)
    if ls.isEmpty then none else some (c.fseq, ls)
  hit.foldl (fun s (f, ls) =>
    let s := (s.modCmd f fun c => { c with pins := c.pins.filter (· != g) }).modVersion g fun v => { v with pins := v.pins - 1 }
    s.startReads f ls) s

/-- One write becomes FAILED: its log space is free again, its place in a grant queue is given up, no block changes. -/
def State.dropWrite (s : State) (f : Nat) : State :=
  let s := s.modBridge fun b =>
    { b with waiting := b.waiting.filter fun e => e.1 != f
             versions := b.versions.map fun v => if v.fseq == f then { v with state := .failed, issued := [] } else v
             log := b.log.map fun e => if e.fseq == f && !e.committed then { e with retired := true } else e }
  let s := s.modPhv fun p => { p with spaceWait := p.spaceWait.filter fun e => e.1 != f }
  ((s.resource f).logRefresh).dropVersions

/-- Writes to the zone of a failed write that were accepted after it and have not completed: they no longer begin at the
write pointer. -/
def State.followers (s : State) (c : Cmd) : List Nat :=
  match s.zoneOf c with
  | none => []
  | some id =>
    if c.past then []
    else ((s.host.cmds.filter fun e => decide (c.fseq < e.fseq) && e.started && e.ready.isNone && e.op.isWrite && !e.past
      && s.zoneOf e == some id).map (·.fseq))

/-- A write fails with a status: no block changes and the zone write pointer does not advance (R250, R270, R274). A write
to the same zone accepted after it ends in Zone Invalid Write (log entry 25). -/
def State.failWrite (s : State) (f : Nat) (st : NvStatus) : State :=
  match s.findCmd f with
  | none => s.dropWrite f
  | some c =>
    let later := s.followers c
    let s := match s.zoneOf c with
      | some id => if c.past then s else s.modRecord id fun r => { r with accepted := c.first % 131072 }
      | none => s
    let s := (s.dropWrite f).finish f st
    (later.foldl (fun s g => (s.dropWrite g).finish g .zoneInvalidWrite) s).settleWaits

end Sys2Proof.Machine
end

