-- ==== Sys2Proof/Machine/Bridge.lean ====
section
/-! DEFINITION. Machine/Bridge.lean: the Bridge's grants, transfers and completions of writes, reads to the host, and the
write-buffer log (R295 to R307, R313), and the meanings of their commands. -/
namespace Sys2Proof.Machine

/-! ### Eligibility and paths (R300, R305) -/

/-- Rows of an entry of `n` blocks. -/
def entryRows (n : Nat) : Nat := 64 * n + 1

/-- The log has room for an entry of `n` blocks. -/
def State.logRoom (s : State) (n : Nat) : Bool := decide (logUsed s.bridge.log + entryRows n ≤ 102400)

/-- The global bucket holds a quarter of its depth. -/
def State.bucketQuarter (s : State) : Bool := decide (s.globalDepth ≤ 4 * s.rd .CHST_TOKENS_GLOBAL)

/-- An entry is allocated at the head of the log. -/
def State.newEntry (s : State) (f nsid lba n : Nat) : State :=
  let head := (s.bridge.log.getLast?).elim 0 fun e => e.row + e.rows
  let key := ((s.ns nsid).map fun k => (s.keySlot k.slot).key).getD 0
  (s.modBridge fun b =>
    { b with log := b.log ++ [{ fseq := f, nsid, lba, row := head % 102400, rows := entryRows n, seq := b.logSeq, committed := false
                                retired := false, key }]
             logSeq := b.logSeq + 1 }).logRefresh

/-- A write's path is decided, and it joins its grant queue (R300, R305). -/
def State.joinQueue (s : State) (c : Cmd) (n : Nat) : State :=
  let join (s : State) (q : GrantQueue) : State := s.modBridge fun b => { b with waiting := b.waiting ++ [(c.fseq, q)] }
  match c.stream with
  | some m => join s (.stream (slotIx c.hqe m))
  | none =>
    if s.eff .CHST_CTRL_CHB_MAXBLK < n || !s.isSet .CHST_CTRL_WB_EN || s.isSet .CHST_STAT_LIFE_END then join s .ordinary
    else if s.logRoom n && s.bucketQuarter then join (s.newEntry c.fseq c.nsid c.first n) .chest
    else join (s.flag .CHST_STAT_INELIG) .ordinary

/-! ### Grants (R299, R300, R343) -/

/-- Versions of a kind of queue. -/
def State.versionsIn (s : State) (p : GrantQueue → Bool) : Nat := (s.bridge.versions.filter fun v => p v.queue).length

/-- A descriptor is free for a write of a queue: 2,048 are usable only by Chest writes and 2,048 only by stream writes. -/
def State.descriptorFree (s : State) (q : GrantQueue) : Bool :=
  let chest := s.versionsIn fun q => q == .chest
  let stream := s.versionsIn fun q => match q with | .stream _ => true | _ => false
  let ordinary := s.versionsIn fun q => q == .ordinary
  let shared := ordinary + (chest - 2048) + (stream - 2048)
  match q with
  | .chest => decide (chest < 2048) || decide (shared < 12288)
  | .stream _ => decide (stream < 2048) || decide (shared < 12288)
  | .ordinary => decide (shared < 12288)

/-- Space for the data of a write of `n` blocks: version pages, or pages of the stream's reservation; a Chest write holds
its entry already. -/
def State.spaceFree (s : State) (q : GrantQueue) (n : Nat) : Bool :=
  match q with
  | .chest => true
  | .ordinary => decide (n ≤ s.rd .BRG_VSTORE_FREE)
  | .stream m => (s.host.streams.find? fun t => slotIx t.hqe t.slot == m).any fun t => decide (t.pages + n ≤ (t.dlf + 1) * t.bpf)

/-- Pages that a write of `n` blocks takes when its transfer starts: a stream write takes those of its first 16 blocks, and
the others as they are transferred (R299). -/
def startPages (q : GrantQueue) (n : Nat) : Nat :=
  match q with
  | .stream _ => min 16 n
  | _ => n

/-- The space is taken. -/
def State.takeSpace (s : State) (q : GrantQueue) (n : Nat) : State :=
  match q with
  | .chest => s
  | .ordinary => s.wr .BRG_VSTORE_FREE (s.rd .BRG_VSTORE_FREE - n)
  | .stream m => s.modHost fun h =>
      { h with streams := h.streams.map fun t => if slotIx t.hqe t.slot == m then { t with pages := t.pages + n } else t }

/-- A descriptor is taken. -/
def State.takeDescriptor (s : State) : State := s.wr .BRG_DESC_FREE (s.rd .BRG_DESC_FREE - 1)

/-- WRITE_GRANT (R300): the write at the head of a grant queue receives its descriptor, its space and its payload grant,
and its transfer starts: its version is in XFER. -/
def State.writeGrant (s : State) (q : GrantQueue) : State :=
  match ((s.bridge.waiting.filter fun e => e.2 == q).map (·.1)).min? with
  | none => s
  | some f =>
    match s.findCmd f with
    | none => s
    | some c =>
      match s.ns c.nsid with
      | none => s
      | some n =>
        let data := c.op.writeData
        if !s.descriptorFree q then s.flag .BRG_STAT_DESC_WAIT
        else if !s.spaceFree q (startPages q data.length) then if q == .ordinary then s.flag .BRG_STAT_VSTORE_WAIT else s
        else
          match s.payloadGrant n c.first data.length with
          | none =>
            if s.phv.spaceWait.any fun e => e.1 == f then s
            else s.modPhv fun p => { p with spaceWait := p.spaceWait ++ [(f, grantFor (s.eff .PHV_CFG_CAPS_BLK) c.first data.length)] }
          | some g =>
            let pins := (s.host.cmds.filter fun e => e.pins.contains f).length
            let s := s.modPhv fun p => { p with spaceWait := p.spaceWait.filter fun e => e.1 != f }
            let s := s.modNs c.nsid fun n => { n with granted := n.granted + g }
            (s.takeDescriptor.takeSpace q (startPages q data.length)).modBridge fun b =>
              { b with waiting := b.waiting.filter fun e => e.1 != f
                       versions := b.versions ++
                        [{ fseq := f, nsid := c.nsid, lba := c.first, data, state := .xfer, superseded := [], onMedia := [], pins, queue := q
                           unlisted := false, issued := [], grant := g, volatileAck := false, lost := []
                           held := startPages q data.length }] }

/-! ### Protection information (R260) -/

/-- One step of the CRC-16 with polynomial 0x8BB7 over the top `k` bits below bit `p` of `w`. -/
def crc16 (w p : Nat) : Nat → Nat → Nat
  | 0, crc => crc
  | k + 1, crc =>
    let b := xor (crc.testBit 15) (w.testBit (p - 1))
    let c := (crc * 2) % 65536
    crc16 w (p - 1) k (if b then c ^^^ 0x8BB7 else c)

/-- Guard of a block: CRC-16 over its 4,096 bytes. -/
def guardOf (data : Nat) : Nat := crc16 data 32768 32768 0

/-- The check a block of write data fails first: guard, application tag, reference tag. -/
def piCheck (n : Namespace) (prchk lba : Nat) (b : HostBlock) : Option NvStatus :=
  if prchk.testBit 2 && b.guard != guardOf b.data then some .guardCheck
  else if b.app != n.appTag && b.app != 0xFFFF then some .appTagCheck
  else if n.dps == 1 && prchk.testBit 0 && b.ref != lba % 2 ^ 32 then some .refTagCheck
  else if n.dps == 3 && b.ref != n.refTag && b.ref != 0xFFFFFFFF then some .refTagCheck
  else none

/-- The PI check of a write: made with format 1, type 1 or 3, and PRACT = 0. -/
def piStatus (n : Namespace) (first : Nat) (op : HostOp) : Option NvStatus :=
  if n.flbas != 1 || n.dps == 0 then none
  else
    let check (blocks : List HostBlock) (prchk : Nat) : Option NvStatus :=
      (List.range blocks.length).findSome? fun k => (blocks[k]?).bind fun b => piCheck n prchk (first + k) b
    match op with
    | .write _ blocks pract prchk _ => if pract then none else check blocks prchk
    | .append _ blocks pract prchk => if pract then none else check blocks prchk
    | _ => none

/-! ### The end of a transfer (R44, R295, R308) -/

/-- Every block of a command is done. -/
def Cmd.allDone (c : Cmd) : Cmd := { c with blocks := c.blocks.map fun e => (e.1, .done) }

/-- The completion of a write must wait for the media: a stream write, FUA, or the volatile write cache disabled
(R44, R283). -/
def State.waitsMedia (s : State) (c : Cmd) : Bool :=
  c.stream.isSome || s.vwcOff c.hqe || (match c.op with | .write _ _ _ _ fua => fua | _ => false)

/-- A write is wholly in the Bridge: its version is READY and supersedes older blocks (R297). -/
def State.writeReady (s : State) (v : Version) (c : Cmd) : State :=
  let s := (s.modVersion v.fseq fun v => ({ s.alreadyNewer v with state := .ready }).drain).supersede v
  let newerLost (l : Nat) : Bool := s.bridge.versions.any fun w => w.nsid == v.nsid && decide (v.fseq < w.fseq) && w.lost.contains l
  let s := (v.lbas.filter fun l => !newerLost l).foldl (fun s l => s.unmark v.nsid l 1) s
  let compressed := (s.ns v.nsid).any (·.compressed)
  let s := s.when compressed fun s => s.postCompress v.fseq
  let s :=
    if v.queue == .chest then s
    else if s.waitsMedia c then s.modCmd c.fseq fun c => { c.allDone with owed := c.lbas }
    else
      let s := (s.modVersion v.fseq fun v => { v with volatileAck := true }).journal (deviceRow v.fseq)
      s.modCmd c.fseq fun c => { c.allDone with owed := [] }.settled
  s.settleWaits.dropVersions

/-- WRITE_TRANSFER_END (R295): the transfer of a write ends, with its data whole or not. A stream write's transfer is paused
where its stream's reservation has no page for its next blocks (R287, R299). -/
def State.transferEnd (s : State) (f : Nat) (ok : Bool) : State :=
  match s.findVersion f with
  | none => s
  | some v =>
    let more := v.data.length - v.held
    if v.state != .xfer || (ok && !s.spaceFree v.queue more && v.held < v.data.length) then s
    else
      let s := s.when (ok && decide (v.held < v.data.length)) fun s =>
        (s.takeSpace v.queue more).modVersion f fun v => { v with held := v.data.length }
      match s.findCmd f with
      | none => s.dropWrite f
      | some c =>
        if !ok then s.failWrite f .dataTransferError
        else
          match (s.ns v.nsid).bind fun n => piStatus n v.lba c.op with
          | some st => (s.bump .HQEn_CNT1_PI_ERR (c.hqe * 65536)).failWrite f st
          | none => s.writeReady v c

/-- CHEST_ENTRY_COMMIT (R306): the header row of an entry is written, after its data rows; the write's completion may be
committed. While rows wait for tokens it is not its turn (R311). -/
def State.entryCommit (s : State) (f : Nat) : State :=
  match s.findVersion f, s.bridge.log.find? fun e => e.fseq == f && !e.committed && !e.retired with
  | some v, some e =>
    let header : RowWrite := { cls := 3, row := logRow e.row, retires := false }
    if (v.state != .ready && v.state != .drained) || !s.bridge.rowsWaiting.isEmpty || !s.rowTokens header then s
    else
      let s := s.modBridge fun b => { b with log := b.log.map fun e => if e.fseq == f then { e with committed := true } else e }
      let s := (s.chestRow 3 (logRow e.row)).logRefresh
      let s := s.modCmd f fun c => { c.allDone with owed := [] }.settled
      s.settleWaits.dropVersions
  | _, _ => s

/-! ### Reads to the host (R43, R296, R301) -/

/-- A spilled copy of a read page is released. -/
def State.unspill (s : State) (f l : Nat) : State :=
  if s.bridge.spilled.contains (f, l) then
    (s.modBridge fun b => { b with spilled := b.spilled.erase (f, l) }).wr .BRG_VSTORE_FREE (s.rd .BRG_VSTORE_FREE + 1)
  else s

/-- A block has been moved to host memory: it is done; a pin whose last block this was is released. -/
def State.blockMoved (s : State) (f l data : Nat) : State :=
  (s.emit (.hostData f l data)).modCmd f fun c =>
    { c.setBlock l .done with data := c.data.filter fun e => e.1 != l }

/-- A read page that holds poison is consumed (R414): the sector is read from the media again, once. -/
def State.consumePoison (s : State) (f l : Nat) (page : Option Str) : State :=
  let again := s.bridge.readAgain.contains (f, l)
  let s := s.modBridge fun b =>
    { b with poisonPages := b.poisonPages.filter (· != (f, l)), readAgain := (f, l) :: b.readAgain.filter (· != (f, l)) }
  let s := (s.givePage page).modCmd f fun c => { c.setBlock l .waiting with data := c.data.filter fun e => e.1 != l }
  if again then s.failSector f l .unrecoveredRead 0 else s.startReads f [l]

/-- HOST_TRANSFER_DONE (R296): a block of a read has reached host memory, from its read page or from its version. -/
def State.hostTransfer (s : State) (f l : Nat) : State :=
  match s.findCmd f with
  | none => s
  | some c =>
    match c.block l with
    | some .held =>
      match c.data.find? fun e => e.1 == l with
      | none => s
      | some (_, d, page) =>
        if s.bridge.poisonPages.contains (f, l) then s.consumePoison f l page
        else (((s.blockMoved f l d).givePage page).unspill f l).modCmd f Cmd.settled
    | some (.version g) =>
      match s.findVersion g with
      | none => s
      | some v =>
        if v.state == .xfer then s
        else
          let s := if (match c.op with | .compare .. | .verify .. => true | _ => false) then s.modCmd f fun c => c.receive l (v.block l) none
            else s.blockMoved f l (v.block l)
          let more := (s.findCmd f).any fun c => c.blocks.any fun e => e.2 == .version g
          let s := s.when (!more) fun s => (s.modCmd f fun c => { c with pins := c.pins.filter (· != g) }).unpin g
          s.modCmd f Cmd.settled
    | _ => s

/-- READ_PAGE_SPILL (R301): a read page whose transfer has not started is copied to a version-store page and returned. -/
def State.pageSpill (s : State) (f l : Nat) : State :=
  match (s.findCmd f).bind fun c => c.data.find? fun e => e.1 == l with
  | some (_, _, some x) =>
    if s.isSet .BRG_CTRL_SPILL_EN && s.rd .BRG_VSTORE_FREE != 0 then
      let s := (s.givePage (some x)).modCmd f fun c =>
        { c with data := c.data.map fun e => if e.1 == l then (e.1, e.2.1, none) else e }
      let s := s.modBridge fun b => { b with spilled := (f, l) :: b.spilled }
      (s.wr .BRG_VSTORE_FREE (s.rd .BRG_VSTORE_FREE - 1)).flag .BRG_STAT_SPILLED
    else s
  | _ => s

/-! ### The log and GO (R307, R313) -/

/-- LOG_ENTRY_COPY (R307): with more than 1,024 entries between the oldest live entry and the newest, the oldest is
copied to the head and its old place retired. -/
def State.logCopy (s : State) : State :=
  match s.bridge.log.find? fun e => !e.retired, s.bridge.log.getLast? with
  | some old, some newest =>
    if newest.seq ≤ old.seq + 1024 || !old.committed || 102400 < logUsed s.bridge.log + old.rows then s
    else
      let head := (newest.row + newest.rows) % 102400
      let copy := { old with row := head, seq := s.bridge.logSeq }
      let s := s.modBridge fun b =>
        { b with logSeq := b.logSeq + 1
                 log := (b.log.map fun e => if e.seq == old.seq then { e with retired := true } else e) ++ [copy] }
      let s := (List.range old.rows).foldl (fun s k => s.chestRow 3 (logRow (head + k))) s
      (s.chestRow 3 (logRow old.row)).logRefresh
  | _, _ => s

/-- Version-store pages: what U holds beside the Bureau region, the stream space and the extent-map region (R294). -/
def State.vstorePages (s : State) : Nat :=
  s.bridge.usable - 131072 - s.rd .BRG_CFG2_STRM_MAX * 256 - (if s.isSet .BRG_STAT_MAP_RSV then 524288 else 0)

/-- GO (R309, R313): refused when the minimums of the Strings present exceed their pools; else the version store opens. -/
def State.bridgeGo (s : State) : State :=
  let strs := (Str.all.filter s.present).length
  if s.wstgCells < s.rd .BRG_CFG0_WMIN * strs || s.rstgPages < s.rd .BRG_CFG1_RMIN * strs then s.flag .BRG_STAT_CFG_LOCKED
  else if s.bridge.running then s
  else
    let s := s.setTo .BRG_STAT_MAP_RSV (s.host.namespaces.any fun n => n.kind == .managed)
    (s.wr .BRG_VSTORE_FREE s.vstorePages).modBridge fun b => { b with running := true }

/-! ### Meanings -/

/-- Grant queue of a number: 0 the Chest queue, 1 the ordinary one, m + 2 that of stream slot index m. -/
def queueOf (n : Nat) : GrantQueue :=
  match n with
  | 0 => .chest
  | 1 => .ordinary
  | m + 2 => .stream m

def execWriteGrant (queue : Nat) (s : State) : Host.Outcome State Fault Refusal := .next (s.writeGrant (queueOf queue))

def execWriteTransferEnd (fseq : Nat) (ok : Bool) (s : State) : Host.Outcome State Fault Refusal := .next (s.transferEnd fseq ok)

def execHostTransferDone (fseq lba : Nat) (s : State) : Host.Outcome State Fault Refusal := .next (s.hostTransfer fseq lba)

def execReadPageSpill (fseq lba : Nat) (s : State) : Host.Outcome State Fault Refusal := .next (s.pageSpill fseq lba)

def execChestEntryCommit (fseq : Nat) (s : State) : Host.Outcome State Fault Refusal := .next (s.entryCommit fseq)

def execLogEntryCopy (s : State) : Host.Outcome State Fault Refusal := .next s.logCopy

def execBridgeGo (s : State) : Host.Outcome State Fault Refusal := .next s.bridgeGo

end Sys2Proof.Machine
end

