-- ==== Sys2Proof/Machine/Fetch.lean ====
section
/-! DEFINITION. Machine/Fetch.lean: how an HQE fetches a command and what it checks then (R247 to R249, R262, R263, R266,
R284, R285, R326), and the order in which overlapping commands are taken (R268). -/
namespace Sys2Proof.Machine

/-! ### Controllers -/

/-- Controller `k`. -/
def State.controller (s : State) (k : Nat) : Option Controller := s.host.controllers[k]?

/-- Controller `k` changed by `f`. -/
def State.modController (s : State) (k : Nat) (f : Controller → Controller) : State :=
  s.modHost fun h => { h with controllers := h.controllers.modify k f }

/-- Functions a port presents: 0 acts as 1, above its most as its most (R247, R265). -/
def State.functions (s : State) (port : Nat) : Nat :=
  let most := if s.isSet .PCIE_CFG_DUAL then 4 else 8
  if port = 0 then clampNat 1 most (s.rd .PCIE_CFG_FN_CNT0)
  else if s.isSet .PCIE_CFG_DUAL then clampNat 1 4 (s.rd .PCIE_CFG_FN_CNT1)
  else 0

/-- Port of controller `k` (R247). -/
def State.portOf (s : State) (k : Nat) : Nat := if s.isSet .PCIE_CFG_DUAL && decide (4 ≤ k) then 1 else 0

/-- Controller `k` is presented: within FN_CNT of its port and with FN_EN set; the recovery loader presents port 0 function 0
alone (R466). -/
def State.presented (s : State) (k : Nat) : Bool :=
  if s.isSet .LC_BOOT_RECOVERY then k == 0
  else
  let f := if s.portOf k = 1 then k - 4 else k
  decide (k < 8) && decide (f < s.functions (s.portOf k)) && s.isSet .HQEn_CTRL_FN_EN (k * 65536)

/-- OUTST of an HQE: fetched commands not completed. -/
def State.outRefresh (s : State) (k : Nat) : State :=
  s.wr .HQEn_OUT_OUTST (s.host.cmds.filter fun c => c.hqe == k).length (k * 65536)

/-! ### Conflicts with a reservation (R262, NVMe Base 2.0) -/

/-- A host is a registrant of a namespace. -/
def Reservation.registered (r : Reservation) (h : Nat) : Bool := r.registrants.any fun e => e.1 == h

/-- A host holds the reservation: every registrant does under the two all-registrants types. -/
def Reservation.holds (r : Reservation) (h : Nat) : Bool :=
  if r.rtype = 5 || r.rtype = 6 then r.registered h else r.holder == some h

/-- A command of host `h` conflicts: types 1 and 3 and 5 exclude others' writes, types 2, 4 and 6 their reads as well; the
registrants-only and all-registrants types let registrants pass. -/
def Reservation.conflicts (r : Reservation) (h : Nat) (op : HostOp) : Bool :=
  let pass := if 3 ≤ r.rtype then r.registered h else r.holds h
  let guarded := if r.rtype % 2 = 1 then op.resvWrites else op.resvWrites || op.resvReads
  r.rtype != 0 && guarded && !pass

/-! ### Checks at the fetch (R249, R263) -/

/-- The data of a command is within MDTS, and of a Zone Append within ZASL (R248, R254). -/
def State.sizeFits (s : State) (k : Nat) (op : HostOp) : Bool :=
  let mdts := s.eff .HQEn_CFG_MDTS (k * 65536)
  match op with
  | .append _ b _ _ => decide (b.length ≤ 2 ^ min mdts (s.rd .HQEn_CFG_ZASL (k * 65536)))
  | .write _ b _ _ _ => decide (b.length ≤ 2 ^ mdts)
  | .read _ n => decide (n ≤ 2 ^ mdts)
  | .compare _ b => decide (b.length ≤ 2 ^ mdts)
  | _ => true

/-- A Format or Sanitize of the namespace runs (R263). -/
def State.underFormat (s : State) (n : Namespace) : Option NvStatus :=
  if n.formatting then
    if s.host.cmds.any fun c => c.started && c.ready.isNone && (match c.op with | .sanitize _ => true | _ => false) then
      some .sanitizeInProgress
    else some .namespaceNotReady
  else none

/-- Checks of a command to a namespace. -/
def State.nsCheck (s : State) (k host nsid : Nat) (op : HostOp) : Option NvStatus :=
  match s.ns nsid with
  | none => some .invalidNamespace
  | some n =>
    if !n.attached.contains k then some .invalidNamespace
    else if !op.supportedOn n.kind then some .invalidOpcode
    else
      match s.underFormat n with
      | some st => some st
      | none =>
        if op.needsMedia && !s.serves then some .namespaceNotReady
        else if op.needsMedia && (n.keyLost || (n.compressed && s.phvDown) || s.rd .CAB_STAT_CORES == 0) then some .internalError
        else if n.res.conflicts host op then some .reservationConflict
        else if !s.sizeFits k op then some .invalidField
        else if op.range.any fun r => decide (n.nsze < r.1 + r.2) || r.2 == 0 then some .lbaOutOfRange
        else if op.isWrite && s.keyExhausted n && n.kind != .zoned then some .keyExhausted
        else none

/-- Commands that the recovery loader executes (R466). -/
def recoveryOp : HostOp → Bool
  | .identify _ | .getLog 3 _ _ | .setFeature 7 _ _ _ _ | .getFeature 7 _ | .fwDownload .. | .fwCommit .. => true
  | _ => false

/-- The status a fetched command ends with at once, if any. -/
def State.fetchCheck (s : State) (k sqid host nsid : Nat) (op : HostOp) : Option NvStatus :=
  if s.isSet .LC_BOOT_RECOVERY && !recoveryOp op then some .invalidOpcode
  else if op == .badPointer then some .invalidField
  else if op == .unsupported || op.isIo == (sqid == 0) then some .invalidOpcode
  else if op.isIo then s.nsCheck k host nsid op
  else
    match op with
    | .format | .nsAttach _ | .nsDetach _ | .nsDelete =>
      if (s.ns nsid).any fun n => n.res.conflicts host op then some .reservationConflict else none
    | _ => none

/-! ### Streams at the fetch (R283 to R285) -/

/-- The stream slot of a command: its queue is armed and it is of the stream's kind. -/
def State.streamOf (s : State) (k sqid : Nat) (op : HostOp) : Option Stream :=
  s.host.streams.find? fun t => t.hqe == k && t.sqid == sqid &&
    (match op with
     | .read .. => t.read
     | .write .. => !t.read
     | .append .. => !t.read
     | _ => false)

/-- A media command in Standby starts the spindle when SPIN_ON_IO is set (R430). -/
def State.spinOnIo (s : State) : State :=
  if s.mode = 1 && s.isSet .PWR_CTRL_SPIN_ON_IO && !s.isSet .THR_STAT_SHUT then (s.wr .PWR_STAT_MODE 2).speStartOp.2 else s

/-- A command of queue `sqid` gets the next FSEQ and is checked (R249, R263, R266). -/
def State.fetchOne (s : State) (k sqid cid nsid : Nat) (op : HostOp) : State :=
  match s.controller k with
  | none => s
  | some c =>
      let f := s.host.fseq
      let st := s.fetchCheck k sqid c.hostId nsid op
      let t := s.streamOf k sqid op
      let cmd : Cmd :=
        { fseq := f, hqe := k, sqid, cid, nsid, hostId := c.hostId, op, blocks := op.firstBlocks, data := [], started := st.isSome
          accepted := false, posted := [], staged := [], pins := [], waits := [], ready := st.map fun st => (st, 0, 0), owed := []
          stream := t.map (·.slot), remaining := (t.elim 0 fun t => t.dlf + 1), late := 0, susp := t.isSome && !s.capoCounting
          isLate := false, wdrn := false, ovr := false, past := false, silent := false, fetched := s.timebase / 80000000 }
      let notReady := op.needsMedia && !s.serves && st == some .namespaceNotReady
      let s := s.modHost fun h => { h with fseq := (f + 1) % 2 ^ 64, cmds := h.cmds ++ [cmd] }
      let s := (s.bump .HQEn_CNT0_FETCHED (k * 65536)).outRefresh k
      let s := { s with bur := { s.bur with gated := false } }
      let s := s.when (st == some .reservationConflict) fun s => s.bump .HQEn_CNT1_RESV_CONF (k * 65536)
      let s := s.when notReady fun s => (s.bump .HQEn_CNT2_NOT_READY (k * 65536)).spinOnIo
      s.refreshMode

/-! ### Arbitration (R267) -/

/-- Dword 11 of the Arbitration feature (01h): the burst in bits 2:0, the weights from bit 8, the low one first. -/
def Controller.arbitration (c : Controller) : Nat := (storeFind c.features 0x01).getD 0

/-- Commands of a burst: a power of two, and 7 sets no limit. -/
def Controller.burst (c : Controller) : Nat := 2 ^ (c.arbitration % 8)

/-- Weights of the high, medium and low classes, less one in the feature. -/
def Controller.weights (c : Controller) : List Nat := [24, 16, 8].map fun at_ => c.arbitration / 2 ^ at_ % 256 + 1

/-- Class of a queue: 0 admin, 1 an armed stream queue, 2 the round robin of CC.AMS or its urgent class, 3 to 5 the weighted
classes high, medium and low. -/
def State.queueClass (s : State) (k : Nat) (c : Controller) (sqid : Nat) : Nat :=
  if sqid = 0 then 0
  else if s.host.streams.any fun t => t.hqe == k && t.sqid == sqid then 1
  else if c.ams = 1 then 2 + ((c.sqs.find? fun q => q.sqid == sqid).elim 0 fun q => q.prio % 4)
  else 2

/-- The next queue of a class round robin: the lowest number above the last one chosen, else the lowest. -/
def nextRound (last : Option Nat) (sqids : List Nat) : Option Nat :=
  let after := sqids.filter fun q => last.any fun l => decide (l < q)
  (if after.isEmpty then sqids else after).min?

/-- The class that the next round serves among the classes with a command waiting: those up to 2 in their order, then the
weighted ones that have credits left. -/
def servedClass (credits : List Nat) (waiting : List Nat) : Option Nat :=
  match (waiting.filter fun c => decide (c ≤ 2)).min? with
  | some c => some c
  | none => (waiting.filter fun c => decide (0 < credits.getD (c - 3) 0)).min?

/-- A command of a weighted class takes a credit. -/
def spend (credits : List Nat) (cls : Nat) : List Nat := if 3 ≤ cls then credits.modify (cls - 3) (· - 1) else credits

/-- The queue fetched from next among those that hold a command, and the arbiter after it: the queue of a burst under way
goes on; else a new round chooses the class, and in it the queue round robin. -/
def State.arbitrate (s : State) (k : Nat) (c : Controller) (sqids : List Nat) : Option (Nat × Arbiter) :=
  let a := c.arbiter
  let cls := s.queueClass k c
  let credits := if sqids.any fun q => (servedClass a.credits [cls q]).isSome then a.credits else c.weights
  if 0 < a.left && sqids.contains a.queue && (servedClass a.credits [cls a.queue]).isSome then
    some (a.queue, { a with left := if c.arbitration % 8 = 7 then a.left else a.left - 1, credits := spend a.credits (cls a.queue) })
  else
    (servedClass credits (sqids.map cls)).bind fun g =>
      (nextRound (storeFind a.last g) (sqids.filter fun q => cls q == g)).map fun q =>
        (q, { queue := q, left := c.burst - 1, last := storePut a.last g q, credits := spend credits g })

/-- The operation that an entry is taken as: SGLs are supported while SGL_EN is 1 alone (R248). -/
def State.taken (s : State) (k : Nat) (e : HostEntry) : HostOp :=
  if e.sgl && !s.isSet .HQEn_CFG_SGL_EN (k * 65536) then .badPointer else e.op

/-- COMMAND_FETCH (R266, R267): of the commands at the heads of an enabled controller's queues, the one of the queue that
arbitration chooses is fetched. Fetching waits for BRG_CTRL.GO (R309) and pauses at 8,192 commands (R248). -/
def State.commandFetch (s : State) (k : Nat) (heads : List QueueHead) : State :=
  match s.controller k with
  | none => s
  | some c =>
    if !s.presented k || !c.enabled || !(s.bridge.running || s.isSet .LC_BOOT_RECOVERY) || s.mode = 0
        || 8192 ≤ s.rd .HQEn_OUT_OUTST (k * 65536) then s
    else
      let heads := heads.filter fun h => h.sqid == 0 || c.sqs.any fun q => q.sqid == h.sqid
      match s.arbitrate k c (heads.map (·.sqid)) with
      | none => s
      | some (q, a) =>
        (heads.find? fun h => h.sqid == q).elim s fun h =>
          (s.modController k fun c => { c with arbiter := a }).fetchOne k q h.cid h.nsid (s.taken k h.entry)

/-! ### Order of overlapping commands (R268, R269) -/

/-- Two commands of one namespace are ordered by their FSEQ. -/
def ordered (zoned : Bool) (a b : HostOp) : Bool :=
  let (ra, wa) := a.touches zoned
  let (rb, wb) := b.touches zoned
  (wa || wb) && ra.any fun p => rb.any fun q => decide (p.1 < q.1 + q.2) && decide (q.1 < p.1 + p.2)

/-- It is a command's turn: it is not started, and no earlier command it is ordered after waits to be taken. -/
def State.turn (s : State) (c : Cmd) : Bool :=
  let zoned := (s.ns c.nsid).any fun n => n.kind == .zoned
  !c.started && c.ready.isNone && !(s.host.cmds.any fun e =>
    decide (e.fseq < c.fseq) && e.nsid == c.nsid && !e.started && e.ready.isNone && ordered zoned e.op c.op)

/-- The operation of the command with an FSEQ. -/
def State.opOf (s : State) (f : Nat) : Option HostOp := (s.findCmd f).map (·.op)

/-- The command with an FSEQ and its operation. -/
def State.cmdOp (s : State) (f : Nat) : Option (Cmd × HostOp) := (s.findCmd f).map fun c => (c, c.op)

/-- `f` applied to the command with an FSEQ when it is its turn. -/
def State.take (s : State) (f : Nat) (g : State → Cmd → State) : State :=
  match s.findCmd f with
  | none => s
  | some c => if s.turn c then g (s.modCmd f fun c => { c with started := true }) c else s

/-! ### Meaning -/

def execCommandFetch (hqe : Nat) (sqids cids nsids : List Nat) (ops : List HostEntry) (s : State) : Host.Outcome State Fault Refusal :=
  .next (s.commandFetch hqe (queueHeads sqids cids nsids ops))

end Sys2Proof.Machine
end

