-- ==== Sys2Proof/Machine/Zones.lean ====
section
/-! DEFINITION. Machine/Zones.lean: zone states (R208, R213 to R216, R501), writes, reads, and the other commands of the
I/O command sets (R44, R253, R254, R268 to R272), and completion of a command (R43, R44, R274). -/
namespace Sys2Proof.Machine

/-! ### Open and active zones (R215) -/

/-- Zones open, and active, in the whole device. -/
def State.openZones (s : State) : Nat := (s.host.records.filter fun r => r.state.opened && s.isZone r).length
def State.activeZones (s : State) : Nat := (s.host.records.filter fun r => r.state.active && s.isZone r).length

/-- A zone changes state in the Chest. -/
def State.setZone (s : State) (id : Nat) (f : Record → Record) : State := (s.modRecord id f).journal (recordRow id)

/-- The Implicitly Opened zone written least recently. -/
def State.oldestImplicit (s : State) : Option Nat :=
  let ids := (List.range s.host.records.length).filter fun id =>
    (s.host.records[id]?).any fun r => r.state == .implicit && s.isZone r
  let last id := ((s.host.records[id]?).map (·.lastWrite)).getD 0
  ids.foldl (fun (m : Option Nat) id =>
    match m with
    | none => some id
    | some k => if last id < last k then some id else m) none

/-- A zone is closed; its accumulator is saved if it is the live one (R207, R213). -/
def State.closeZone (s : State) (id : Nat) : State :=
  match s.host.records[id]? with
  | none => s
  | some r =>
    let s := if (s.str.get r.str).wrp.accZone = some id then s.saveAcc r.str else s
    s.setZone id fun r => { r with state := if r.accepted = 0 then .empty else .closed }

/-- A write to zone `id` needs it open: `none` when it is or has been opened implicitly, else the refusal (R214, R215). -/
def State.implicitOpen (s : State) (id : Nat) (r : Record) : Option NvStatus × State :=
  if r.state.opened then (none, s)
  else if r.state == .empty && decide (512 ≤ s.activeZones) then (some .tooManyActive, s)
  else
    let open' (s : State) : Option NvStatus × State := (none, s.setZone id fun r => { r with state := .implicit })
    if s.openZones < 256 then open' s
    else
      match s.oldestImplicit with
      | none => (some .tooManyOpen, s)
      | some k => open' (s.closeZone k)

/-- The cleaning of a zone is abandoned by a host command that opens, writes, finishes or resets it (R225). -/
def State.touchZone (s : State) (id : Nat) : State := s.abandonClean id

/-- Where a write to a zone may not go (R214). -/
def zoneRefusal (r : Record) (z n : Nat) : Option NvStatus :=
  if r.state == .offline then some .zoneIsOffline
  else if r.state == .readOnly then some .zoneIsReadOnly
  else if r.state == .full || r.finish.isSome || decide (131072 ≤ r.accepted) then some .zoneIsFull
  else if 131072 < z + n then some .zoneBoundary
  else if z != r.accepted then some .zoneInvalidWrite
  else none

/-- A write of `n` blocks at data sector `z` of a zone is accepted: implicit open, generation drawn at the first write
after Empty; or it is refused and the zone is unchanged, but for a refused draw, which leaves it Read Only
(R210, R211, R213). -/
def State.acceptWrite (s : State) (id : Nat) (r : Record) (ns : Namespace) (f z n : Nat) : Option NvStatus × State :=
  match zoneRefusal r z n with
  | some st => (some st, s)
  | none =>
    match s.implicitOpen id r with
    | (some st, s) => (some st, s)
    | (none, s) =>
      let s := s.touchZone id
      let accept (s : State) : Option NvStatus × State :=
        (none, s.modRecord id fun r => { r with accepted := z + n, lastWrite := f })
      if r.drawn then accept s
      else
        match s.draw ns.slot with
        | (none, s) => (some .keyExhausted, s.setZone id fun r => { r with state := .readOnly })
        | (some g, s) => accept (s.setZone id fun r => { r with gen := g, drawn := true })

/-! ### Writes (R44, R214, R300, R305) -/

/-- The Strings that the blocks of a write reach, with their sectors. -/
def State.reachWrite (s : State) (c : Cmd) (n : Nat) : State :=
  if c.stream.isNone then s
  else
    match s.zoneOf c with
    | some id => match s.host.records[id]? with
      | some r => s.reach c r.str n
      | none => s
    | none =>
      let strs := Str.all.map fun x => (x, (c.lbas.filter fun l => (s.host.records.any fun r =>
        r.nsid == c.nsid && r.index == l / 131072 && r.str == x)).length)
      strs.foldl (fun s e => if e.2 = 0 then s else s.reach c e.1 e.2) s

/-- A write is taken: its zone is checked, and it joins its grant queue. -/
def State.takeWrite (s : State) (c : Cmd) : State :=
  match s.ns c.nsid with
  | none => s.finish c.fseq .invalidNamespace
  | some ns =>
    let n := c.lbas.length
    match s.zoneOf c with
    | none => (s.reachWrite c n).joinQueue c n
    | some id =>
      match s.host.records[id]? with
      | none => s.finish c.fseq .zoneIsOffline
      | some r =>
        match s.acceptWrite id r ns c.fseq (c.first % 131072) n with
        | (some st, s) => s.finish c.fseq st
        | (none, s) => (s.reachWrite c n).joinQueue c n

/-- NVM_WRITE. -/
def State.nvmWrite (s : State) (f : Nat) : State :=
  match s.findCmd f with
  | some c => match c.op with
    | .write .. => s.take f State.takeWrite
    | _ => s
  | none => s

/-- ZONE_APPEND (R213, R269): the Append takes the write pointer with every write fetched before it. -/
def State.zoneAppend (s : State) (f : Nat) : State :=
  match s.opOf f with
  | some (.append z blocks _ _) =>
    s.take f fun s c =>
      match (s.recordOf c.nsid z).bind fun id => s.host.records[id]? with
      | none => s.finish f .lbaOutOfRange
      | some r =>
        let first := z * 131072 + r.accepted
        let c := { c with started := true, blocks := (List.range blocks.length).map fun k => (first + k, BlockState.waiting) }
        (s.modCmd f fun _ => c).takeWrite c
  | _ => s

/-! ### Reads (R253, R271, R272) -/

/-- A Read, Compare or Verify is taken: each block takes its source. -/
def State.takeRead (s : State) (c : Cmd) : State := s.startReads c.fseq c.lbas

/-- NVM_READ. -/
def State.nvmRead (s : State) (f : Nat) : State :=
  match s.opOf f with
  | some (.read ..) => s.take f State.takeRead
  | _ => s

/-- COMPARE. -/
def State.nvmCompare (s : State) (f : Nat) : State :=
  match s.opOf f with
  | some (.compare ..) => s.take f State.takeRead
  | _ => s

/-- VERIFY. -/
def State.nvmVerify (s : State) (f : Nat) : State :=
  match s.opOf f with
  | some (.verify ..) => s.take f State.takeRead
  | _ => s

/-! ### Flush, Write Zeroes, Dataset Management (R253, R269) -/

/-- FLUSH: waits for every write of its namespace with a lower FSEQ; tails are forced (R269, R340). -/
def State.nvmFlush (s : State) (f : Nat) : State :=
  match s.findCmd f with
  | some c =>
    if c.op == .flush && !c.started && c.ready.isNone then
      let writes := (s.host.cmds.filter fun e => decide (e.fseq < f) && e.nsid == c.nsid && e.op.isWrite).map (·.fseq)
      let versions := (s.bridge.versions.filter fun v => decide (v.fseq < f) && v.nsid == c.nsid).map (·.fseq)
      let s := s.modCmd f fun c => { c with started := true, waits := (writes ++ versions).eraseDups }
      (s.forceTails c.nsid).settleWaits
    else s
  | none => s

/-- LBAs of a Managed namespace are unmapped: they read as zeros from FSEQ `f` on (R253). -/
def State.unmap (s : State) (nsid f : Nat) (lbas : List Nat) : State :=
  let hit (v : Version) : Version :=
    if v.nsid == nsid && decide (v.fseq < f) then ((lbas.filter v.covers).foldl (fun v l => v.superseding l f) v).drain else v
  let s := s.modBridge fun b => { b with versions := b.versions.map hit }
  let s := s.modNs nsid fun n => if n.compressed then n else { n with map := n.map.filter fun e => !(lbas.contains e.1) }
  let s := s.killBlocks nsid lbas
  s.settleWaits.dropVersions

/-- WRITE_ZEROES (R253): zeros written like any data, or the LBAs of a Managed namespace unmapped. -/
def State.writeZeroes (s : State) (f : Nat) : State :=
  match s.opOf f with
  | some (.writeZeroes l n) =>
    s.take f fun s c =>
      if (s.ns c.nsid).any fun n => n.kind == .managed then
        (s.unmap c.nsid f ((List.range n).map (l + ·))).finish f .success
      else s.takeWrite c
  | _ => s

/-- DATASET_MANAGEMENT (R253): Deallocate unmaps on a Managed namespace and is accepted without effect on a Conventional
one. -/
def State.datasetManagement (s : State) (f : Nat) : State :=
  match s.opOf f with
  | some (.dsm ranges dealloc) =>
    s.take f fun s c =>
      let managed := (s.ns c.nsid).any fun n => n.kind == .managed
      let lbas := ranges.flatMap fun r => (List.range r.2).map (r.1 + ·)
      (s.when (managed && dealloc) fun s => s.unmap c.nsid f lbas).finish f .success
  | _ => s

/-! ### Zone Management Send (R208, R213, R216, R501) -/

/-- Actions of Zone Management Send (Zoned Namespace Command Set 1.1). -/
def zoneClose : Nat := 1
def zoneFinish : Nat := 2
def zoneOpen : Nat := 3
def zoneReset : Nat := 4
def zoneOffline : Nat := 5

/-- Open of one zone. -/
def State.openZone (s : State) (id : Nat) (r : Record) : NvStatus × State :=
  let go (s : State) : NvStatus × State := (.success, (s.touchZone id).setZone id fun r => { r with state := .explicit })
  match r.state with
  | .explicit => (.success, s)
  | .implicit => go s
  | .empty => if 512 ≤ s.activeZones then (.tooManyActive, s) else if 256 ≤ s.openZones then (.tooManyOpen, s) else go s
  | .closed => if 256 ≤ s.openZones then (.tooManyOpen, s) else go s
  | _ => (.zoneInvalidTransition, s)

/-- Close of one zone. -/
def State.closeOne (s : State) (id : Nat) (r : Record) : NvStatus × State :=
  match r.state with
  | .implicit | .explicit => (.success, s.closeZone id)
  | .closed => (.success, s)
  | _ => (.zoneInvalidTransition, s)

/-- Finish of one zone: whether command `f` must wait for its last parity, and the state. -/
def State.finishZone (s : State) (id : Nat) (r : Record) : Option NvStatus × State :=
  match r.state with
  | .full => (some .success, s)
  | .readOnly | .offline => (some .zoneInvalidTransition, s)
  | _ =>
    let s := s.touchZone id
    if (r.accepted % 64 == 0 && r.mp == r.accepted) then (some .success, s.setZone id fun r => { r with state := .full, finish := some r.accepted })
    else (none, (s.setZone id fun r => { r with finish := some r.accepted }).postFinish id)

/-- Writes of a zone have left their transfers: a Reset is taken after them (R269). -/
def State.transfersOver (s : State) (nsid zone : Nat) : Bool :=
  let here (f : Nat) : Bool := (s.findCmd f).any fun c => c.nsid == nsid && c.first / 131072 == zone
  !(s.bridge.waiting.any fun e => here e.1) && !(s.bridge.versions.any fun v => v.state == .xfer && v.nsid == nsid && v.lba / 131072 == zone)

/-- Reset of one zone (R216): pending requests are withdrawn, unwritten versions leave the index, their writes complete
with success (R269), cleaning is abandoned, and the record is rewritten, the pending skips applied and a retired band
left for a free one (R224). -/
def State.resetZone (s : State) (id : Nat) (r : Record) : NvStatus × State :=
  match r.state with
  | .empty => (.success, s)
  | .readOnly | .offline => (.zoneInvalidTransition, s)
  | _ =>
    let s := (s.withdrawWrites r.str fun q => q.zone == some id).abandonClean id
    let mine (v : Version) : Bool := v.nsid == r.nsid && v.lba / 131072 == r.index
    let acks := s.bridge.versions.filter fun v => mine v && v.volatileAck
    let s := s.modBridge fun b =>
      { b with versions := b.versions.map fun v => if mine v then { v with unlisted := true, issued := [], volatileAck := false } else v }
    let s := acks.foldl (fun s v => s.journal (deviceRow v.fseq)) s
    let ended (c : Cmd) : Bool := c.started && c.op.isWrite && s.zoneOf c == some id
    let close (c : Cmd) : Cmd :=
      let d := if c.ready.isNone then c.allDone else c
      { d with owed := [], past := true }.settled
    let s := s.modHost fun h => { h with cmds := h.cmds.map fun c => if ended c then close c else c }
    let free := (s.extentsToTake r.str false).head?
    let s := s.drawn.rewriteBand r.str r.band free.isSome
    let band := if (s.bandInfo r.str r.band).retired then free.getD r.band else r.band
    let held := (s.str.get r.str).ladders.any fun l => l.zone == some id
    let s := s.modWrp r.str fun w => if w.accZone == some id then { w with accZone := none, acc := [], accDiff := [] } else w
    let s := (s.accRefresh r.str).setZone id fun r =>
      { r with wp := 0, mp := 0, accepted := 0, accValid := false, acc := [], state := .empty, drawn := false, finish := none, band
               heldForLadders := held }
    (.success, (s.unmark r.nsid (r.index * 131072) 131072).settleWaits.dropVersions)

/-- Offline of one zone. -/
def State.offlineZone (s : State) (id : Nat) (r : Record) : NvStatus × State :=
  match r.state with
  | .readOnly =>
    (.success, (s.setZone id fun r => { r with state := .offline }).modHost fun h => { h with changedZones := h.changedZones ++ [(r.nsid, r.index)] })
  | .offline => (.success, s)
  | _ => (.zoneInvalidTransition, s)

/-- The states on which Select All acts, by action (R501). -/
def selectAll (action : Nat) : ZoneState → Bool
  | .empty => false
  | .implicit => action == zoneClose || action == zoneFinish || action == zoneReset
  | .explicit => action == zoneClose || action == zoneFinish || action == zoneReset
  | .closed => action == zoneOpen || action == zoneFinish || action == zoneReset
  | .full => action == zoneReset
  | .readOnly => action == zoneOffline
  | .offline => false

/-- One action on one zone: its status, or `none` when it completes later. -/
def State.zoneAct (s : State) (action id : Nat) : Option NvStatus × State :=
  match s.host.records[id]? with
  | none => (some .lbaOutOfRange, s)
  | some r =>
    let at' (p : NvStatus × State) : Option NvStatus × State := (some p.1, p.2)
    if action = zoneOpen then at' (s.openZone id r)
    else if action = zoneClose then at' (s.closeOne id r)
    else if action = zoneFinish then s.finishZone id r
    else if action = zoneReset then at' (s.resetZone id r)
    else at' (s.offlineZone id r)

/-- Zones a Zone Management Send acts on. -/
def State.zoneTargets (s : State) (nsid action zone : Nat) (all : Bool) : List Nat :=
  if all then
    (List.range s.host.records.length).filter fun id =>
      (s.host.records[id]?).any fun r => r.nsid == nsid && selectAll action r.state
  else (s.recordOf nsid zone).toList

/-- Zone Management Send with one action. A Reset waits for the transfers of earlier writes to its zones. -/
def State.zoneSend (s : State) (f action : Nat) : State :=
  match s.cmdOp f with
  | some (c, .zoneSend a zone all) =>
    let ids := s.zoneTargets c.nsid action zone all
    let ended (id : Nat) : Bool := (s.host.records[id]?).all fun r => s.transfersOver r.nsid r.index
    if a != action || (action == zoneReset && !(ids.all ended)) then s
    else if ids.isEmpty && !all then s.take f fun s _ => s.finish f .lbaOutOfRange
    else
      s.take f fun s _ =>
        let (s, st, waits) := ids.foldl (fun (p : State × Option NvStatus × List Nat) id =>
          match p.1.zoneAct action id with
          | (none, s) => (s, p.2.1, id :: p.2.2)
          | (some .success, s) => (s, p.2.1, p.2.2)
          | (some e, s) => (s, p.2.1 <|> some e, p.2.2)) (s, none, [])
        match st with
        | some e => if all then s.finish f .success else s.finish f e
        | none => if waits.isEmpty then s.finish f .success else s.modCmd f fun c => { c with waits }
  | _ => s

/-- REPORT_ZONES (R254): from the zone named on, one descriptor each: state, write pointer, capacity. -/
def State.reportZones (s : State) (f : Nat) : State :=
  match s.cmdOp f with
  | some (c, .zoneReceive zone n) =>
    s.take f fun s _ =>
      let rs := (s.host.records.filter fun r => r.nsid == c.nsid && decide (zone ≤ r.index)).take n
      let s := rs.foldl (fun s r => s.emit (.hostData f r.index (r.state.code + r.wp * 16))) s
      s.finish f .success
  | _ => s

/-! ### Completion (R43, R44, R274, R286) -/

/-- DW0 and DW1 low half of a Zone Append: the LBA it was written at (R286). -/
def Cmd.appendDwords (c : Cmd) (st : NvStatus) (d0 d1 : Nat) : Nat × Nat :=
  match c.op, st with
  | .append .., .success => (c.first % 2 ^ 32, c.first / 2 ^ 32)
  | _, _ => (d0, d1)

/-- The zone's write pointer that the host reads advances at the completion of a write; at 131,072 the zone is Full
(R44, R212, R213). -/
def State.advanceWp (s : State) (c : Cmd) : State :=
  match s.zoneOf c with
  | none => s
  | some id =>
    if c.past then s
    else s.setZone id fun r =>
      let wp := c.first % 131072 + c.lbas.length
      { r with wp, state := if wp = 131072 && r.state.opened then .full else r.state }

/-- A write to a zone commits its completion in the order of the write pointer. -/
def State.wpReached (s : State) (c : Cmd) : Bool :=
  match s.zoneOf c with
  | none => true
  | some id => c.past || (s.host.records[id]?).all fun r => r.wp == c.first % 131072

/-- A command whose state change waits on a full journal, or for the tokens of a journal record, completes later (R308,
R311). -/
def State.journalHolds (s : State) (c : Cmd) : Bool :=
  (!s.bridge.journalWait.isEmpty || s.bridge.rowsWaiting.any fun w => w.cls == 1) && (match c.op with
    | .read .. | .compare .. | .verify .. | .identify .. | .getLog .. | .getFeature .. | .asyncEvent | .abort .. | .zoneReceive .. => false
    | _ => true)

/-- What a command still holds is released as it leaves: read pages, spilled copies, pins. -/
def State.releaseCmd (s : State) (c : Cmd) : State :=
  let s := c.data.foldl (fun s e => (s.givePage e.2.2).unspill c.fseq e.1) s
  c.pins.foldl (fun s g => s.unpin g) s

/-- DNR and CRD of a status: 0 and 1 with Namespace Not Ready, where CRDT1 is 10 (R249); DNR with Key Exhausted (R326);
none where the manual states neither. -/
def retryOf : NvStatus → Option (Nat × Nat)
  | .namespaceNotReady => some (0, 1)
  | .keyExhausted => some (1, 0)
  | _ => none

/-- COMPLETION_COMMIT (R274): the completion-queue entry of a command that is ready is handed to host DMA, with its
stream report (R286). -/
def State.completionCommit (s : State) (f : Nat) : State :=
  match s.findCmd f with
  | none => s
  | some c =>
    match c.ready with
    | none => s
    | some (st, d0, d1) =>
      let write := c.op.isWrite && st == .success
      if s.power.loss.isSome || s.journalHolds c || (write && !s.wpReached c) then s
      else
        let s := s.when write fun s => s.advanceWp c
        let (d0, d1) := c.appendDwords st d0 d1
        let report := if c.stream.isSome || c.wdrn || c.susp || c.isLate || c.ovr then c.report else 0
        let s := s.when (!c.silent) fun s =>
          (s.countReport c).emit (.cqe c.hqe c.sqid c.cid st (retryOf st) d0 (d1 % 65536 + report * 65536))
        let s := (s.modHost fun h => { h with cmds := h.cmds.filter fun e => e.fseq != f }).releaseCmd c
        let left (e : Cmd) : Cmd :=
          let follows := match e.op with
            | .nsDelete | .nsDetach _ | .abort .. => true
            | _ => false
          if follows && e.started && e.ready.isNone && e.waits.contains f then
            let w := e.waits.filter (· != f)
            { e with waits := w, ready := if w.isEmpty && e.op != .nsDelete then some (.success, 0, 0) else none }
          else e
        let s := s.modHost fun h => { h with cmds := h.cmds.map left }
        ((s.outRefresh c.hqe).settleWaits).refreshMode

/-! ### Meanings -/

def execNvmRead (fseq : Nat) (s : State) : Host.Outcome State Fault Refusal := .next (s.nvmRead fseq)
def execNvmWrite (fseq : Nat) (s : State) : Host.Outcome State Fault Refusal := .next (s.nvmWrite fseq)
def execZoneAppend (fseq : Nat) (s : State) : Host.Outcome State Fault Refusal := .next (s.zoneAppend fseq)
def execFlush (fseq : Nat) (s : State) : Host.Outcome State Fault Refusal := .next (s.nvmFlush fseq)
def execCompare (fseq : Nat) (s : State) : Host.Outcome State Fault Refusal := .next (s.nvmCompare fseq)
def execVerify (fseq : Nat) (s : State) : Host.Outcome State Fault Refusal := .next (s.nvmVerify fseq)
def execWriteZeroes (fseq : Nat) (s : State) : Host.Outcome State Fault Refusal := .next (s.writeZeroes fseq)
def execDatasetManagement (fseq : Nat) (s : State) : Host.Outcome State Fault Refusal := .next (s.datasetManagement fseq)
def execZoneOpen (fseq : Nat) (s : State) : Host.Outcome State Fault Refusal := .next (s.zoneSend fseq zoneOpen)
def execZoneClose (fseq : Nat) (s : State) : Host.Outcome State Fault Refusal := .next (s.zoneSend fseq zoneClose)
def execZoneFinish (fseq : Nat) (s : State) : Host.Outcome State Fault Refusal := .next (s.zoneSend fseq zoneFinish)
def execZoneReset (fseq : Nat) (s : State) : Host.Outcome State Fault Refusal := .next (s.zoneSend fseq zoneReset)
def execZoneOffline (fseq : Nat) (s : State) : Host.Outcome State Fault Refusal := .next (s.zoneSend fseq zoneOffline)
def execReportZones (fseq : Nat) (s : State) : Host.Outcome State Fault Refusal := .next (s.reportZones fseq)
def execCompletionCommit (fseq : Nat) (s : State) : Host.Outcome State Fault Refusal := .next (s.completionCommit fseq)

end Sys2Proof.Machine
end

