-- ==== Sys2Proof/Machine/Admin.lean ====
section
/-! DEFINITION. Machine/Admin.lean: reservations (R262, R263), queues (R248, R289), Abort (R274 to R276), features and log
pages (R252, R397, R398), stream queues (R277 to R281), and the meanings of their commands. -/
namespace Sys2Proof.Machine

/-- An admin or reservation command that waits to be executed is executed. -/
def State.admin (s : State) (f : Nat) (g : State → Cmd → State) : State :=
  match s.findCmd f with
  | none => s
  | some c => if c.started || c.ready.isSome then s else g (s.modCmd f fun c => { c with started := true }) c

/-! ### Abort (R274, R276) -/

/-- A read ends: its ladders are detached (R236). -/
def State.stopRead (s : State) (f : Nat) (st : NvStatus) : State :=
  let s := Str.all.foldl (fun s x => s.detachOf x f) s
  (s.finish f st).phvSweep

/-- A write whose data is not yet wholly in the Bridge. -/
def State.writeIncomplete (s : State) (f : Nat) : Bool :=
  match s.findVersion f with
  | some v => v.state == .xfer
  | none => !((s.findCmd f).any fun c => c.started) || s.bridge.waiting.any fun e => e.1 == f

/-- What an Abort, or Preempt and Abort, makes of a command at the abort point: whether it is aborted, and the state
(R274). -/
def State.abortCmd (s : State) (f : Nat) (st : NvStatus) : Bool × State :=
  match s.findCmd f with
  | none => (false, s)
  | some c =>
    match c.op with
    | .read .. | .compare .. | .verify .. => if c.ready.any fun r => r.1 == .abortRequested then (false, s) else (true, s.stopRead f st)
    | .write .. | .append .. | .writeZeroes .. =>
      if c.ready.isNone && s.writeIncomplete f then (true, s.failWrite f st) else (false, s)
    | .flush | .asyncEvent => if c.ready.isNone then (true, s.finish f st) else (false, s)
    | _ => (false, s)

/-- Aborts of a controller that are outstanding. -/
def State.abortsOf (s : State) (k : Nat) : Nat :=
  (s.host.cmds.filter fun c => c.hqe == k && (match c.op with | .abort .. => true | _ => false) && c.started).length

/-- ABORT: at most 4 outstanding (ACL = 3); its completion follows that of the command it has aborted (R275). -/
def State.nvmeAbort (s : State) (f : Nat) : State :=
  match s.cmdOp f with
  | some (c, .abort sqid cid) =>
    if 4 ≤ s.abortsOf c.hqe then s.admin f fun s _ => s.finish f .abortLimitExceeded
    else
      s.admin f fun s c =>
        match s.host.cmds.find? fun e => e.hqe == c.hqe && e.sqid == sqid && e.cid == cid && e.fseq != f with
        | none => s.finish f .success 1
        | some e =>
          match s.abortCmd e.fseq .abortRequested with
          | (false, s) => s.finish f .success 1
          | (true, s) => s.modCmd f fun c => { c with waits := [e.fseq] }
  | _ => s

/-! ### Reservations (R262, R263) -/

/-- The reservation of a namespace changed and written to the Chest: its acceptance point (R263). -/
def State.setResv (s : State) (nsid : Nat) (f : Reservation → Reservation) : State :=
  (s.modNs nsid fun n => { n with res := f n.res }).journal (deviceRow (64 + nsid))

/-- No reservation is held. -/
def Reservation.free (r : Reservation) : Reservation := { r with holder := none, rtype := 0 }

/-- Key a host is registered with. -/
def Reservation.keyOf (r : Reservation) (h : Nat) : Option Nat := (r.registrants.find? fun e => e.1 == h).map (·.2)

/-- One more generation (modulo 2³²). -/
def Reservation.next (r : Reservation) : Reservation := { r with generation := (r.generation + 1) % 2 ^ 32 }

/-- Registrants are removed; the reservation is released when its holder, or under the all-registrants types the last
registrant, is among them. -/
def Reservation.unregister (r : Reservation) (p : Nat × Nat → Bool) : Reservation :=
  let left := r.registrants.filter fun e => !p e
  let gone := if r.rtype = 5 || r.rtype = 6 then left.isEmpty else r.holder.any fun h => !(left.any fun e => e.1 == h)
  let r := { r with registrants := left }
  if gone then r.free else r

/-- Controllers of the hosts named hear of a reservation event, unless their mask (82h) excludes it: an event of type 6,
information 0 (NVMe Base 2.0). -/
def State.notifyHosts (s : State) (hosts : List Nat) (maskBit : Nat) : State :=
  (List.range s.host.controllers.length).foldl (fun s k =>
    s.when ((s.controller k).any fun c => c.enabled && hosts.contains c.hostId && !(c.feature 0x82).testBit maskBit) fun s =>
      s.hostEvent k 6 0) s

/-- Reservation Register. -/
def State.resvRegister (s : State) (f : Nat) : State :=
  match s.cmdOp f with
  | some (_, .resvRegister action key newKey ignoreKey ptpl) =>
    s.admin f fun s c =>
      match s.ns c.nsid with
      | none => s.finish f .invalidNamespace
      | some n =>
        let h := c.hostId
        let keep (r : Reservation) : Reservation := match ptpl with | some b => { r with ptpl := b } | none => r
        let mine := n.res.keyOf h
        match action with
        | .register =>
          if mine.any fun k => k != newKey then s.finish f .reservationConflict
          else if mine.isNone && decide (64 ≤ n.res.registrants.length) then s.finish f .invalidField
          else (s.setResv c.nsid fun r => (keep { r with registrants :=
            if mine.isSome then r.registrants else r.registrants ++ [(h, newKey)] }).next).finish f .success
        | .unregister =>
          if mine.isNone || (!ignoreKey && mine != some key) then s.finish f .reservationConflict
          else
            let s := s.setResv c.nsid fun r => (keep (r.unregister fun e => e.1 == h)).next
            s.finish f .success
        | .replace =>
          if (mine.isNone && !ignoreKey) || (!ignoreKey && mine != some key) then s.finish f .reservationConflict
          else (s.setResv c.nsid fun r => (keep { r with registrants := (r.registrants.filter fun e => e.1 != h) ++ [(h, newKey)] }).next).finish f .success
  | _ => s

/-- A preempt: registrants with the key are removed; the reservation passes to the host when its holder is among them, or
when an all-registrants reservation is preempted with key 0. -/
def Reservation.preempt (r : Reservation) (h key prKey rtype : Nat) : Reservation :=
  let all := r.rtype = 5 || r.rtype = 6
  let heldBy := r.holder.bind r.keyOf
  let takes := if all then prKey == 0 else r.rtype != 0 && heldBy == some prKey
  let hit (e : Nat × Nat) : Bool := if all && prKey == 0 then e.1 != h else e.2 == prKey && (e.1 != h || prKey != key)
  let r' := { r with registrants := r.registrants.filter fun e => !hit e }
  (if takes then { r' with holder := some h, rtype } else r'.unregister fun _ => false).next

/-- Reservation Acquire. -/
def State.resvAcquire (s : State) (f : Nat) : State :=
  match s.cmdOp f with
  | some (_, .resvAcquire action key prKey rtype) =>
    s.admin f fun s c =>
      match s.ns c.nsid with
      | none => s.finish f .invalidNamespace
      | some n =>
        let h := c.hostId
        let r := n.res
        if rtype = 0 || 6 < rtype then s.finish f .invalidField
        else if r.keyOf h != some key then s.finish f .reservationConflict
        else
          match action with
          | .acquire =>
            if r.rtype = 0 then (s.setResv c.nsid fun r => { r with holder := some h, rtype }).finish f .success
            else if r.holds h && r.rtype == rtype then s.finish f .success
            else s.finish f .reservationConflict
          | a =>
            let all := r.rtype = 5 || r.rtype = 6
            if prKey = 0 && !all then s.finish f .invalidField
            else
              let r' := r.preempt h key prKey rtype
              let lost := (r.registrants.filter fun e => !(r'.registrants.any fun k => k.1 == e.1)).map (·.1)
              let s := (s.setResv c.nsid fun _ => r').notifyHosts lost 1
              let s :=
                if a == .preemptAbort then
                  let hit := (s.host.cmds.filter fun e => e.nsid == c.nsid && decide (e.fseq < f) && lost.contains e.hostId).map (·.fseq)
                  hit.foldl (fun s g => (s.abortCmd g .abortRequested).2) s
                else s
              s.finish f .success
  | _ => s

/-- Reservation Release. -/
def State.resvRelease (s : State) (f : Nat) : State :=
  match s.cmdOp f with
  | some (_, .resvRelease clear key rtype) =>
    s.admin f fun s c =>
      match s.ns c.nsid with
      | none => s.finish f .invalidNamespace
      | some n =>
        let h := c.hostId
        let r := n.res
        let others := (r.registrants.map (·.1)).filter (· != h)
        if r.keyOf h != some key then s.finish f .reservationConflict
        else if clear then
          ((s.setResv c.nsid fun r => ({ r with registrants := [] }.free).next).notifyHosts others 3).finish f .success
        else if r.rtype = 0 || !r.holds h then s.finish f .success
        else if r.rtype != rtype then s.finish f .invalidField
        else ((s.setResv c.nsid Reservation.free).notifyHosts (if r.rtype ≤ 2 then [] else others) 2).finish f .success
  | _ => s

/-- Reservation Report: generation, type, and the registrants with their keys and whether they hold. -/
def State.resvReport (s : State) (f : Nat) : State :=
  match s.cmdOp f with
  | some (_, .resvReport) =>
    s.admin f fun s c =>
      match s.ns c.nsid with
      | none => s.finish f .invalidNamespace
      | some n =>
        let s := ((s.emit (.hostData f 0 n.res.generation)).emit (.hostData f 4 n.res.rtype)).emit
          (.hostData f 5 n.res.registrants.length)
        let s := n.res.registrants.foldl (fun s e => s.emit (.hostData f (64 + e.1) (e.2 * 2 + boolNat (n.res.holds e.1)))) s
        s.finish f .success
  | _ => s

/-! ### Queues (R248, R252, R289) -/

/-- I/O queue pairs offered by a controller. -/
def State.nioq (s : State) (k : Nat) : Nat := s.eff .HQEn_CFG_NIOQ (k * 65536)

/-- IOQ counts the I/O submission queues of a controller. -/
def State.ioqRefresh (s : State) (k : Nat) : State :=
  s.wr .HQEn_STAT_IOQ (((s.controller k).map fun c => c.sqs.length).getD 0) (k * 65536)

/-- Create I/O Submission Queue: `size` entries. -/
def State.createSq (s : State) (f : Nat) : State :=
  match s.cmdOp f with
  | some (_, .createSq sqid cqid size prio) =>
    s.admin f fun s c =>
      match s.controller c.hqe with
      | none => s
      | some k =>
        if sqid = 0 || s.nioq c.hqe < sqid || k.sqs.any fun q => q.sqid == sqid then s.finish f .invalidQueueId
        else if size < 2 || 4096 < size then s.finish f .invalidQueueSize
        else if !(k.cqs.any fun q => q.1 == cqid) then s.finish f .completionQueueInvalid
        else
          let s := s.modController c.hqe fun k => { k with sqs := k.sqs ++ [{ sqid, cqid, size, prio, stream := none }] }
          (s.ioqRefresh c.hqe).finish f .success
  | _ => s

/-- Create I/O Completion Queue. -/
def State.createCq (s : State) (f : Nat) : State :=
  match s.cmdOp f with
  | some (_, .createCq cqid size vector) =>
    s.admin f fun s c =>
      match s.controller c.hqe with
      | none => s
      | some k =>
        if cqid = 0 || s.nioq c.hqe < cqid || k.cqs.any fun q => q.1 == cqid then s.finish f .invalidQueueId
        else if size < 2 || 4096 < size then s.finish f .invalidQueueSize
        else if vector.any fun v => decide (65 ≤ v) then s.finish f .invalidField
        else (s.modController c.hqe fun k => { k with cqs := k.cqs ++ [(cqid, size, vector)] }).finish f .success
  | _ => s

/-- A command of a queue that is deleted ends in Command Aborted due to SQ Deletion (R289); a write wholly in the Bridge is
carried to the media. -/
def State.deleteCmd (s : State) (f : Nat) : State :=
  match s.findCmd f with
  | none => s
  | some c =>
    if c.ready.isSome then s
    else if c.op.isWrite then
      if s.writeIncomplete f then s.failWrite f .abortedSqDeletion else s.finish f .abortedSqDeletion
    else s.stopRead f .abortedSqDeletion

/-- Delete I/O Submission Queue: an armed stream's reservation is released. -/
def State.deleteSq (s : State) (f : Nat) : State :=
  match s.cmdOp f with
  | some (_, .deleteSq sqid) =>
    s.admin f fun s c =>
      if !((s.controller c.hqe).any fun k => k.sqs.any fun q => q.sqid == sqid) || sqid = 0 then s.finish f .invalidQueueId
      else
        let mine := (s.host.cmds.filter fun e => e.hqe == c.hqe && e.sqid == sqid).map (·.fseq)
        let s := mine.foldl State.deleteCmd s
        let s := match s.host.streams.find? fun t => t.hqe == c.hqe && t.sqid == sqid with
          | some t => s.releaseStream t false
          | none => s
        let s := s.modController c.hqe fun k => { k with sqs := k.sqs.filter fun q => q.sqid != sqid }
        (s.ioqRefresh c.hqe).finish f .success
  | _ => s

/-- Delete I/O Completion Queue: refused while a submission queue uses it. -/
def State.deleteCq (s : State) (f : Nat) : State :=
  match s.cmdOp f with
  | some (_, .deleteCq cqid) =>
    s.admin f fun s c =>
      match s.controller c.hqe with
      | none => s
      | some k =>
        if cqid = 0 || !(k.cqs.any fun q => q.1 == cqid) then s.finish f .invalidQueueId
        else if k.sqs.any fun q => q.cqid == cqid then s.finish f .invalidQueueDeletion
        else (s.modController c.hqe fun k => { k with cqs := k.cqs.filter fun q => q.1 != cqid }).finish f .success
  | _ => s

/-! ### Features (R252) -/

/-- Standard features the device supports. -/
def standardFeatures : List Nat := [0x01, 0x02, 0x04, 0x05, 0x06, 0x07, 0x08, 0x09, 0x0A, 0x0B, 0x0E, 0x81, 0x82, 0x83]

/-- DW0 of the Number of Queues feature: queue pairs less one, twice. -/
def State.queuesDword (s : State) (k : Nat) : Nat := (s.nioq k - 1) * 65537

/-- Where a feature's value is kept: the over and the under threshold of the Temperature Threshold apart. -/
def featureKey (fid dw11 : Nat) : Nat := if fid = 0x04 && dw11 / 2 ^ 20 % 4 = 1 then 0x104 else fid

/-- The over or under threshold of Composite Temperature, K: WCTEMP and 0 until they are set (NVMe Base 2.0). -/
def Controller.threshold (c : Controller) (under : Bool) : Nat :=
  if under then (storeFind c.features 0x104).getD 0 % 65536 else (storeFind c.features 0x04).getD 368 % 65536

/-- Set Features of a standard feature. No feature is saveable (log entry 26). -/
def State.setFeatures (s : State) (f : Nat) : State :=
  match s.cmdOp f with
  | some (_, .setFeature fid dw11 dw12 dw13 save) =>
    if !standardFeatures.contains fid then
      if fid = 0xC0 || fid = 0xC4 then s else s.admin f fun s _ => s.finish f .invalidField
    else
      s.admin f fun s c =>
        if save then s.finish f .featureNotSaveable
        else if fid = 0x02 && dw11 % 32 != 0 then s.finish f .invalidField
        else if fid = 0x04 && dw11 / 2 ^ 16 % 16 != 0 && dw11 / 2 ^ 16 % 16 != 15 then s.finish f .invalidField
        else if fid = 0x07 then
          if (s.controller c.hqe).any fun k => !k.sqs.isEmpty || !k.cqs.isEmpty then s.finish f .commandSequenceError
          else s.finish f .success (s.queuesDword c.hqe)
        else
          let s := if fid = 0x0E then s.modHost fun h => { h with timestamp := some (dw12 % 2 ^ 32 + dw13 % 65536 * 2 ^ 32, s.rd .SB_RTC_SEC) } else s
          let s := s.modController c.hqe fun k =>
            { k with features := storePut k.features (featureKey fid dw11) dw11, hostId := if fid = 0x81 then dw11 else k.hostId }
          s.finish f .success
  | _ => s

/-- Get Features of a standard feature. -/
def State.getFeatures (s : State) (f : Nat) : State :=
  match s.cmdOp f with
  | some (_, .getFeature fid dw11) =>
    if !standardFeatures.contains fid then
      if fid = 0xC0 || fid = 0xC1 || fid = 0xC4 then s else s.admin f fun s _ => s.finish f .invalidField
    else
      s.admin f fun s c =>
        if fid = 0x07 then s.finish f .success (s.queuesDword c.hqe)
        else if fid = 0x04 then s.finish f .success (((s.controller c.hqe).map fun k => k.threshold (dw11 / 2 ^ 20 % 4 == 1)).getD 0)
        else s.finish f .success (((s.controller c.hqe).map fun k => k.feature fid).getD 0)
  | _ => s

/-- TELEMETRY_PERIOD_SET (R398). -/
def State.setTelemetry (s : State) (f : Nat) : State :=
  match s.cmdOp f with
  | some (_, .setFeature fid dw11 _ _ save) =>
    if fid = 0xC4 then
      s.admin f fun s _ =>
        if save then s.finish f .featureNotSaveable
        else (s.modHost fun h => { h with telemetryMs := dw11 % 65536 }).finish f .success
    else s
  | _ => s

/-! ### Stream queues (R277 to R281, R289) -/

/-- Strings of a mask: 0 names every String present. -/
def State.stringMask (s : State) (mask : Nat) : Nat := if mask = 0 then strMask (Str.all.filter s.present) else mask

/-- A refusal of admission (R278). -/
def State.streamRefused (s : State) (f cause short : Nat) : State :=
  ((s.flag .STRM_STAT_REFUSED).bump .STRM_CNT1_REFUSED).finish f .streamRefused (cause + short * 16)

/-- A String that is lost, or one of whose ten domains is isolated (R35, R433). -/
def State.isolated (s : State) (x : Str) : Bool :=
  s.isLost x || (List.range 10).any fun k => !s.domainBit .PWR_DOMSTAT_ON (10 * x.num + k)

/-- The free slot of a controller with the lowest number. -/
def State.freeStreamSlot (s : State) (k : Nat) : Option Nat :=
  (List.range 8).find? fun m => !(s.host.streams.any fun t => t.hqe == k && t.slot == m)

/-- Space that every armed stream's reservation takes beside a new one, against STRM_MAX. -/
def State.streamSpaceFits (s : State) (t : Stream) : Bool :=
  decide (streamPages (s.host.streams ++ [t]) ≤ s.rd .BRG_CFG2_STRM_MAX * 256)

/-- Set Features C0h with ARM = 1: the checks of R278 in their order, then the arming. -/
def State.streamArm (s : State) (c : Cmd) (dw11 dw12 dw13 : Nat) (save : Bool) : State :=
  let f := c.fseq
  let sqid := dw11 % 65536
  let read := dw11.testBit 17
  let bpf := dw12 % 2 ^ 24
  let dlf := dw13 % 256
  let reserved := dw11 / 2 ^ 22 != 0 || dw12 / 2 ^ 24 != 0 || dw13 / 256 != 0
  let queue := (s.controller c.hqe).any fun k => k.sqs.any fun q => q.sqid == sqid
  let armed := s.host.streams.any fun t => t.hqe == c.hqe && t.sqid == sqid
  if save then s.finish f .featureNotSaveable
  else if sqid = 0 || !queue then s.finish f .invalidQueueId
  else if armed || reserved || bpf = 0 || dlf = 0 then s.finish f .invalidField
  else
    match (s.host.namespaces.find? fun n => n.nsid == c.nsid && n.kind != .managed && n.attached.contains c.hqe) with
    | none => s.finish f .invalidNamespace
    | some n =>
      let all := s.stringMask n.mask
      let mask := if dw11 / 2 ^ 18 % 16 = 0 then all else dw11 / 2 ^ 18 % 16
      let st := s.capoState
      let t : Stream :=
        { hqe := c.hqe, slot := (s.freeStreamSlot c.hqe).getD 0, sqid, nsid := c.nsid, read, mask, bpf, dlf, aord := s.host.aordNext
          pages := 0, reached := Quad.all 0 }
      if Str.all.any fun x => mask.testBit x.num && (!all.testBit x.num || !s.present x) then s.streamRefused f 3 0
      else if st != 2 && st != 3 && st != 4 then s.streamRefused f 1 0
      else if 16 ≤ s.host.streams.length || (s.freeStreamSlot c.hqe).isNone then s.streamRefused f 2 0
      else if (maskStrs mask).any s.isolated then s.streamRefused f 7 0
      else
        let s := s.recordAvail t
        let short := s.shortStrs s.host.streams t
        if !short.isEmpty then s.streamRefused f 4 (strMask short)
        else if read && !s.harpFits (s.host.streams ++ [t]) (s.rd .HARP_STAT_AVAIL) then s.streamRefused f 5 0
        else if !s.streamSpaceFits t then s.streamRefused f 6 (strMask (maskStrs mask))
        else
          let s := s.modHost fun h => { h with streams := h.streams ++ [t], aordNext := h.aordNext + 1 }
          let s := s.modController c.hqe fun k =>
            { k with sqs := k.sqs.map fun q => if q.sqid == sqid then { q with stream := some t.slot } else q }
          let s := (s.journal (deviceRow (128 + t.aord % 16))).finish f .success
          ((s.showSlot t).streamRefresh).refreshMode

/-- STREAM_QUEUE_ARM. -/
def State.streamQueueArm (s : State) (f : Nat) : State :=
  match s.cmdOp f with
  | some (_, .setFeature fid dw11 dw12 dw13 save) =>
    if fid = 0xC0 && dw11.testBit 16 then s.admin f fun s c => s.streamArm c dw11 dw12 dw13 save else s
  | _ => s

/-- STREAM_QUEUE_DISARM: an ordinary queue is unaffected. -/
def State.streamQueueDisarm (s : State) (f : Nat) : State :=
  match s.cmdOp f with
  | some (_, .setFeature fid dw11 _ _ _) =>
    if fid = 0xC0 && !dw11.testBit 16 then
      s.admin f fun s c =>
        match s.host.streams.find? fun t => t.hqe == c.hqe && t.sqid == dw11 % 65536 with
        | some t => (s.releaseStream t false).finish f .success
        | none => s.finish f .success
    else s
  | _ => s

/-- STREAM_QUEUE_GET (R281): WDRN is cleared by the read. -/
def State.streamQueueGet (s : State) (f : Nat) : State :=
  match s.cmdOp f with
  | some (_, .getFeature fid dw11) =>
    if fid = 0xC0 then
      s.admin f fun s c =>
        let sqid := dw11 % 65536
        let (wdrn, cause) := ((s.host.withdrawn.find? fun e => e.1 == c.hqe && e.2.1 == sqid).map fun e => e.2.2).getD (false, 0)
        let base := match s.host.streams.find? fun t => t.hqe == c.hqe && t.sqid == sqid with
          | some t => 1 + boolNat t.read * 2 + t.mask % 16 * 4
          | none => 0
        let s := s.modHost fun h =>
          { h with withdrawn := h.withdrawn.map fun e => if e.1 == c.hqe && e.2.1 == sqid then (e.1, e.2.1, false, e.2.2.2) else e }
        s.finish f .success (base + boolNat wdrn * 64 + cause % 16 * 128)
    else s
  | _ => s

/-- STREAM_CAPACITY_GET (R281): the share that one more stream could take on a String, D_W = 1
(log entry 68), and G_X in 1/64. -/
def State.streamCapacity (s : State) (f : Nat) : State :=
  match s.cmdOp f with
  | some (_, .getFeature fid dw11) =>
    if fid = 0xC1 then
      s.admin f fun s c =>
        let x := Str.ofNum dw11
        let g := s.streamRate c.nsid x
        let room := s.availFrets true - s.usedFrets s.host.streams x - s.rd .STRM_CFG_SW_FRETS
        let share := if g.2 = 0 then 0 else room * g.1 / g.2
        let rate := if g.2 = 0 then 0 else 64 * g.1 / g.2
        s.finish f .success (min (2 ^ 24 - 1) share + min 255 rate * 2 ^ 24)
    else s
  | _ => s

/-! ### Asynchronous events, Identify, log pages -/

/-- ASYNCHRONOUS_EVENT_REQUEST: completed at once by an event that waits. -/
def State.asyncRequest (s : State) (f : Nat) : State :=
  match s.cmdOp f with
  | some (c, .asyncEvent) =>
    match (s.controller c.hqe).map (·.events) with
    | some ((type, info) :: rest) =>
      s.admin f fun s c => (s.modController c.hqe fun k => { k with events := rest }).finish f .success (eventDword type info)
    | _ => s.admin f fun s _ => s
  | _ => s

/-- Fields of Identify Namespace that the manual gives, by byte (R257, R270). -/
def identifyNs (n : Namespace) : List (Nat × Nat) :=
  [(0, n.nsze), (8, n.nsze), (24, 0), (26, n.flbas), (29, n.dps), (30, boolNat n.shared),
   (3072, if n.kind == .managed then 1 else 0), (3073, n.mask), (3074, boolNat n.compressed), (3076, n.appTag), (3078, n.refTag),
   (3082, n.nstag)]

/-- Fields of Identify Controller that the manual gives, by byte (R247, R248, R256, R270, R276, R448). -/
def State.identifyCtrl (s : State) (k : Nat) : List (Nat × Nat) :=
  [(77, s.eff .HQEn_CFG_MDTS (k * 65536)), (78, k + 1), (258, 3), (266, 368), (268, 398), (516, 32), (526, 0), (528, 0)]

/-- Fields of the Identify pages of the Zoned command set that the manual gives, by byte (R254): MAR, MOR, ZSZE of format 0;
ZASL of the controller. -/
def identifyZoned : List (Nat × Nat) := [(4, 511), (8, 255), (2816, 131072), (2824, 0)]
def State.identifyZonedCtrl (s : State) (k : Nat) : List (Nat × Nat) := [(0, s.eff .HQEn_CFG_ZASL (k * 65536))]

/-- NVME_IDENTIFY. -/
def State.nvmeIdentify (s : State) (f : Nat) : State :=
  match s.cmdOp f with
  | some (_, .identify cns) =>
    s.admin f fun s c =>
      let out (l : List (Nat × Nat)) : State := (l.foldl (fun s e => s.emit (.hostData f e.1 e.2)) s).finish f .success
      match cns with
      | 0 => match s.ns c.nsid with
        | some n => if n.attached.contains c.hqe then out (identifyNs n) else s.finish f .invalidNamespace
        | none => s.finish f .invalidNamespace
      | 1 => out (s.identifyCtrl c.hqe)
      | 2 => out (((s.host.namespaces.filter fun n => n.attached.contains c.hqe && decide (c.nsid < n.nsid)).map (·.nsid)).mapIdx fun i n => (4 * i, n))
      | 5 => match s.ns c.nsid with
        | some n => if n.attached.contains c.hqe && n.kind == .zoned then out identifyZoned else s.finish f .invalidNamespace
        | none => s.finish f .invalidNamespace
      | 6 => out (s.identifyZonedCtrl c.hqe)
      | 0x10 => out (((s.host.namespaces.filter fun n => decide (c.nsid < n.nsid)).map (·.nsid)).mapIdx fun i n => (4 * i, n))
      | 0x11 => match s.ns c.nsid with
        | some n => out (identifyNs n)
        | none => s.finish f .invalidNamespace
      | _ => s.finish f .invalidField
  | _ => s

/-- The Resource Status page (R397): cores in service, Harp, Cabinet cores, Phovi engines, Chest life, RLDx counters,
stream counters. -/
def State.resourceStatus (s : State) : List Nat :=
  [s.rd .BURn_STAT_STATE 0, s.rd .BURn_STAT_STATE 65536, s.rd .BURn_STAT_STATE 131072, s.rd .BURn_STAT_STATE 196608,
   s.rd .HARP_STAT_INSVC, s.rd .HARP_STAT_AVAIL, s.rd .HARP_STRIKE0_COUNT, s.rd .HARP_STRIKE1_COUNT, s.rd .HARP_RETIRED_LANES,
   s.rd .CAB_STAT_CORES, s.rd .PHV_STAT_INSVC, s.rd .CHST_LIFE_LIFE, min 255 (s.rd .CHST_LIFE_LIFE / 100)]
  ++ Str.all.flatMap (fun x =>
      [s.rd .RLDx_CNT0_RUNG1 x.ix, s.rd .RLDx_CNT0_RUNG2 x.ix, s.rd .RLDx_CNT1_RUNG3 x.ix, s.rd .RLDx_CNT1_RUNG4 x.ix,
       s.rd .RLDx_CNT2_RUNG5 x.ix, s.rd .RLDx_CNT2_RUNG6 x.ix, s.rd .RLDx_CNT3_RUNG7 x.ix, s.rd .RLDx_CNT3_RUNG8 x.ix,
       s.rd .RLDx_CNT4_FAIL x.ix, s.rd .RLDx_CNT4_REALLOC x.ix, (s.str.get x).pendOvf, s.rd .RCHx_CNT2_SBUF_SLIP x.ix, s.rd .BRG_RSLIP_COUNT x.num])
  ++ [s.rd .STRM_CNT0_MISS, s.rd .STRM_CNT0_SUSP, s.rd .STRM_CNT1_REFUSED, s.rd .STRM_CNT1_WDRN]

/-- The words of an event-ring entry: 32 bytes (R395). -/
def Event.words (e : Event) : List Nat := 
  [e.seq, e.time % 2 ^ 32, e.time / 2 ^ 32 % 2 ^ 32, e.code + e.mask * 2 ^ 16 + e.severity * 2 ^ 24]
  ++ (List.range 4).map fun i => e.data.getD i 0

/-- Kelvin of a temperature in quarter degrees, rounded to nearest (R448). -/
def kelvin (q : Int) : Nat := ((q * 25 + 27315 + 50) / 100).toNat

/-- SMART/Health Composite Temperature (R448). -/
def State.composite (s : State) : Nat := kelvin (toSigned 12 (s.rd .THR_STAT_TJ))

/-- Temperature Sensor 1 to 4: the hottest head of a String (R448). -/
def State.hottest (s : State) (x : Str) : Nat :=
  let t := ((List.range 6).map fun h => s.rd .AEx_H_HSTAT_TEMP (x.ix h)).foldl max 0
  kelvin (2 * (t : Int) - 80)

/-- SMART/Health Available Spare (R240): the lower of the smallest fraction of free spares over the CMR units and the smallest
fraction of a String's bands that are neither retired nor allocated, in percent. -/
def State.availableSpare (s : State) : Nat :=
  let units := (s.host.records.filter fun r => s.isUnit r.str r.band).map fun r => (256 - r.sparesUsed) * 100 / 256
  let bands := Str.all.filterMap fun x =>
    let n := (s.extents x).2.length
    if n = 0 then none else some ((s.freeExtents x false).length * 100 / n)
  (units ++ bands).foldl min 100

/-- Critical Warning of the SMART/Health page: spare bit 0 (R240), temperature bit 1, degraded bit 2 (R312). -/
def State.criticalWarning (s : State) : Nat :=
  boolNat (decide (s.availableSpare < Config.spareThreshold)) +
  boolNat (s.therm.beyond.any (· != 0)) * 2 + boolNat (s.isSet .CHST_STAT_LIFE_WARN) * 4

/-- A log page: its words, or none where the device has no such page (R252, R397). Pages whose layout the manual leaves to
NVMe Base 2.0 give what the manual says they hold. -/
def State.logPage (s : State) (k lid offset n : Nat) : Option (List Nat) :=
  match lid with
  | 0x01 => some (s.host.errorLog.flatMap fun e => [e.1, e.2.1, e.2.2.1, e.2.2.2])
  | 0x02 => some ([s.criticalWarning, s.composite, s.availableSpare, Config.spareThreshold] ++ (Str.all.map s.hottest) ++ [kelvin (toSigned 12 (s.rd .THR_SNS_T 11)), min 255 (s.rd .CHST_LIFE_LIFE / 100), s.host.integrityErrors])
  | 0x03 => some [s.rd .LC_BOOT_SLOT, s.rd .LC_FWSVN_SVN]
  | 0x04 => some (((s.controller k).map (·.changed)).getD [])
  | 0x05 => some []
  | 0x06 => some s.host.selfTests
  | 0x07 => some s.resourceStatus
  | 0x08 => some s.host.telemetry
  | 0x0D => some (s.host.lostWrites.flatMap (fun e => [e.1, e.2.1, e.2.2])
      ++ (s.events.filter fun e => e.severity != 0).flatMap fun e => (e.code + e.mask * 2 ^ 16 + e.severity * 2 ^ 24) :: e.data)
  | 0x80 => some []
  | 0x81 => some s.host.sanitizeLog
  | 0xBF => some (s.host.changedZones.flatMap fun e => [e.1, e.2])
  | 0xC0 => some (((s.events.drop (offset / 32)).take (n / 32)).flatMap Event.words)
  | 0xC2 => some s.resourceStatus
  | _ => none

/-- Reading a list of changes clears it (NVMe Base 2.0). -/
def State.clearChanges (s : State) (k lid : Nat) : State :=
  if lid = 0x04 then s.modController k fun c => { c with changed := [] }
  else if lid = 0xBF then s.modHost fun h => { h with changedZones := [] }
  else if lid = 0x08 then s.modHost fun h => { h with telemetryReady := false }
  else s

/-- GET_LOG_PAGE. -/
def State.getLogPage (s : State) (f : Nat) : State :=
  match s.cmdOp f with
  | some (_, .getLog lid offset n) =>
    s.admin f fun s c =>
      match s.logPage c.hqe lid offset n with
      | none => s.finish f .invalidLogPage
      | some ws => (((ws.mapIdx fun i w => (i, w)).foldl (fun s e => s.emit (.hostData f e.1 e.2)) s).clearChanges c.hqe lid).finish f .success
  | _ => s

/-- SECURITY_SEND and SECURITY_RECEIVE: protocol 00h alone, which lists the protocols supported: 00h (R317). -/
def State.security (s : State) (f protocol : Nat) (receive : Bool) : State :=
  s.admin f fun s _ =>
    if protocol != 0 then s.finish f .invalidField
    else (s.when receive fun s => s.emit (.hostData f 0 0)).finish f .success

def State.securitySend (s : State) (f : Nat) : State :=
  match s.cmdOp f with
  | some (_, .securitySend p) => s.security f p false
  | _ => s

def State.securityReceive (s : State) (f : Nat) : State :=
  match s.cmdOp f with
  | some (_, .securityReceive p) => s.security f p true
  | _ => s

/-- DEVICE_SELF_TEST (R252): short 1, extended 2, abort Fh. Its result is the outcome `passed` of the tests. -/
def State.selfTest (s : State) (f : Nat) (passed : Bool) : State :=
  match s.cmdOp f with
  | some (_, .selfTest code) =>
    s.admin f fun s _ =>
      if code = 1 || code = 2 then
        (s.modHost fun h => { h with selfTests := (code * 16 + (if passed then 0 else 7)) :: h.selfTests.take 19 }).finish f .success
      else if code = 15 then s.finish f .success
      else s.finish f .invalidField
  | _ => s

/-! ### Meanings -/

def execReservationRegister (fseq : Nat) (s : State) : Host.Outcome State Fault Refusal := .next (s.resvRegister fseq)
def execReservationAcquire (fseq : Nat) (s : State) : Host.Outcome State Fault Refusal := .next (s.resvAcquire fseq)
def execReservationRelease (fseq : Nat) (s : State) : Host.Outcome State Fault Refusal := .next (s.resvRelease fseq)
def execReservationReport (fseq : Nat) (s : State) : Host.Outcome State Fault Refusal := .next (s.resvReport fseq)
def execCreateIoSq (fseq : Nat) (s : State) : Host.Outcome State Fault Refusal := .next (s.createSq fseq)
def execCreateIoCq (fseq : Nat) (s : State) : Host.Outcome State Fault Refusal := .next (s.createCq fseq)
def execDeleteIoSq (fseq : Nat) (s : State) : Host.Outcome State Fault Refusal := .next (s.deleteSq fseq)
def execDeleteIoCq (fseq : Nat) (s : State) : Host.Outcome State Fault Refusal := .next (s.deleteCq fseq)
def execNvmeIdentify (fseq : Nat) (s : State) : Host.Outcome State Fault Refusal := .next (s.nvmeIdentify fseq)
def execGetLogPage (fseq : Nat) (s : State) : Host.Outcome State Fault Refusal := .next (s.getLogPage fseq)
def execAbort (fseq : Nat) (s : State) : Host.Outcome State Fault Refusal := .next (s.nvmeAbort fseq)
def execSetFeatures (fseq : Nat) (s : State) : Host.Outcome State Fault Refusal := .next (s.setFeatures fseq)
def execGetFeatures (fseq : Nat) (s : State) : Host.Outcome State Fault Refusal := .next (s.getFeatures fseq)
def execStreamQueueArm (fseq : Nat) (s : State) : Host.Outcome State Fault Refusal := .next (s.streamQueueArm fseq)
def execStreamQueueDisarm (fseq : Nat) (s : State) : Host.Outcome State Fault Refusal := .next (s.streamQueueDisarm fseq)
def execStreamQueueGet (fseq : Nat) (s : State) : Host.Outcome State Fault Refusal := .next (s.streamQueueGet fseq)
def execStreamCapacityGet (fseq : Nat) (s : State) : Host.Outcome State Fault Refusal := .next (s.streamCapacity fseq)
def execTelemetryPeriodSet (fseq : Nat) (s : State) : Host.Outcome State Fault Refusal := .next (s.setTelemetry fseq)
def execAsynchronousEventRequest (fseq : Nat) (s : State) : Host.Outcome State Fault Refusal := .next (s.asyncRequest fseq)
def execDeviceSelfTest (fseq : Nat) (passed : Bool) (s : State) : Host.Outcome State Fault Refusal := .next (s.selfTest fseq passed)
def execSecuritySend (fseq : Nat) (s : State) : Host.Outcome State Fault Refusal := .next (s.securitySend fseq)
def execSecurityReceive (fseq : Nat) (s : State) : Host.Outcome State Fault Refusal := .next (s.securityReceive fseq)

end Sys2Proof.Machine
end

