-- ==== Sys2Proof/Machine/AddressMap.lean ====
section
/-! DEFINITION. Machine/AddressMap.lean: the internal address map (R36 to R38), access errors (R35, R39), and reads and
writes of registers, control stores and memory regions (R13, R15). -/
namespace Sys2Proof.Machine

/-- What an address names: a memory region, a register block of an instance with the offset in it, a slot of a control
store, a place of a block or region at which nothing is listed (R15), LPDDR5X above U, nothing. -/
inductive Target
  | memory (m : MemRegion)
  | reg (b : Blk) (inst off : Nat)
  | control (x : Str) (q : SeqId) (word off : Nat)
  | reserved
  | over
  | unmapped
deriving DecidableEq, Repr

/-- Shared register blocks (R37), by the number of their 1 MiB from 0x00F0_0000_0000, and the offset in them. -/
def sharedTarget (mib off : Nat) : Target :=
  match mib with
  | 0x00 => .reg .identity 0 off
  | 0x02 => .reg .pwr 0 off
  | 0x03 => .reg .sideboard 0 off
  | 0x04 => .reg .spe 0 off
  | 0x05 => .reg .capo 0 off
  | 0x06 => .reg .harp 0 off
  | 0x07 => .reg .cabinet 0 off
  | 0x08 => .reg .phovi 0 off
  | 0x09 => .reg .bridge 0 off
  | 0x0A => .reg .chest 0 off
  | 0x0C => if 0x80000 ≤ off then .reg .strm 0 (off - 0x80000) else .reg .hqe (off / 0x10000) (off % 0x10000)
  | 0x0D => .reg .pcie 0 off
  | 0x0E => if 0x1000 ≤ off then .reg .scbms 0 (off - 0x1000) else .reserved
  | 0x10 => .reg .cal 0 off
  | 0x11 => .reg .thermal 0 off
  | 0x12 => if off % 0x40000 < 0x1000 then .reg .bureau (off / 0x40000) (off % 0x40000) else .reg .l2 (off / 0x40000) (off % 0x40000)
  | 0x14 => .reg .mi 0 off
  | 0x15 => .reg .bench 0 off
  | 0x18 => .reg .fret 0 off
  | 0x19 => .reg .fabric 0 off
  | _ => .reserved

/-- A String's region (R38), with the sub-blocks of "Read channel and write path" and of the sequencer registers. -/
def stringTarget (x : Str) (o : Nat) : Target :=
  if o < 0x60000 then .control x (if o < 0x20000 then .ssq else if o < 0x40000 then .rsq else .wsq) (o % 0x20000 / 32) (o % 32)
  else if o < 0x70000 then
    let k := o - 0x60000
    if 0xF000 ≤ k then .reg .rld x.num (k - 0xF000)
    else if k < 0x3000 then .reg .seq (x.num * 3 + k / 0x1000) (k % 0x1000)
    else .reserved
  else if o < 0x100000 then .reserved
  else if o < 0x200000 then
    let k := o - 0x100000
    if 0x80000 ≤ k then .reg .wrp x.num (k - 0x80000)
    else if 0x60000 ≤ k then .reg .sfm x.num (k - 0x60000)
    else .reg .rch x.num k
  else if o < 0x300000 then .reg .sce x.num (o - 0x200000)
  else if o < 0x380000 then .reg .ae x.num (o - 0x300000)
  else if o < 0x400000 then .reg .nut x.num (o - 0x380000)
  else if o < 0x480000 then .reg .svd x.num (o - 0x400000)
  else if o < 0x500000 then .reg .peg x.num (o - 0x480000)
  else .reserved

/-- What an address names (R36 to R39). -/
def State.target (s : State) (a : Nat) : Target :=
  if a < 0x40000 then .memory .rom
  else if 0x100000000 ≤ a && a < 0x100C00000 then .memory (.sram ((a - 0x100000000) / 0x200000))
  else if 0x200000000 ≤ a && a < 0x201000000 then .memory .chest
  else if 0x300000000 ≤ a && a < 0x300400000 then .memory (.sample (Str.ofNum ((a - 0x300000000) / 0x100000)))
  else if 0x400000000 ≤ a && a < 0x410000000 then .memory .nor
  else if 0x800000000 ≤ a && a < 0xA00000000 then
    if (a - 0x800000000) / 4096 < s.bridge.usable then .memory .lpddr else .over
  else if 0xF000000000 ≤ a && a < 0xF001A00000 then sharedTarget ((a - 0xF000000000) / 0x100000) (a % 0x100000)
  else if 0xF100000000 ≤ a && a < 0xF104000000 then stringTarget (Str.ofNum ((a - 0xF100000000) / 0x1000000)) (a % 0x1000000)
  else .unmapped

/-- The power domain that an access to address `a` reaches, if it can be isolated (R33, R35, R433, R495): LPDDR5X by the
channel that holds the address. -/
def Target.domain (t : Target) (a : Nat) : Option Nat :=
  match t with
  | .memory (.sram n) => some (72 + n)
  | .memory .chest => some 79
  | .memory (.sample x) => some (10 * x.num + 4)
  | .memory .lpddr => some (68 + Config.lpddrChannel a % 2)
  | .control x _ _ _ => some (10 * x.num + 5)
  | .reg .seq i _ => some (10 * (i / 3) + 5)
  | .reg .rld i _ => some (10 * i + 5)
  | .reg .rch i _ => some (10 * i + 3)
  | .reg .sfm i _ => some (10 * i + 3)
  | .reg .wrp i _ => some (10 * i + 9)
  | .reg .sce i _ => some (10 * i + 6)
  | .reg .ae i _ => some (10 * i + 7)
  | .reg .nut i _ => some (10 * i + 8)
  | .reg .svd i _ => some (10 * i + 8)
  | .reg .cabinet _ _ => some 70
  | .reg .phovi _ _ => some 71
  | _ => none

/-- The String that an access belongs to. -/
def Target.str : Target → Option Str
  | .memory (.sample x) => some x
  | .control x _ _ _ => some x
  | .reg .seq i _ => some (Str.ofNum (i / 3))
  | .reg b i _ => if [Blk.rld, .rch, .sfm, .wrp, .sce, .ae, .nut, .svd, .peg].contains b then some (Str.ofNum i) else none
  | _ => none

/-- The access belongs to a String that is absent (R7). -/
def State.absent (s : State) (t : Target) : Bool := t.str.any fun x => !s.present x

/-- The address lies in the register region of a String that is absent: no access there is an error (R39). -/
def State.absentAt (s : State) (a : Nat) : Bool :=
  decide (0xF100000000 ≤ a) && decide (a < 0xF104000000) && !s.present (Str.ofNum ((a - 0xF100000000) / 0x1000000))

/-- String whose sensor, skew, stream, buffer or memory-instance registers entry `k` of a shared block's field belongs to
(R7, R292, R315, R422, R457). -/
def Reg.owner (r : Reg) (k : Nat) : Option Str :=
  match r with
  | .FRET_SKEW_FRAC | .FRET_SKEW_WEDGE | .FRET_SKEWNS_NS | .STRM_MED_USED | .STRM_MED_STREAMS | .STRM_AVL_AVAIL
  | .BRG_USE_CELLS | .BRG_USE_PAGES | .BRG_RSLIP_COUNT => some (Str.ofNum k)
  | .THR_SNS_T => if k < 4 then some (Str.ofNum k) else none
  | .THR_HEAD_HT_LIM_C => some .C
  | .THR_HEAD_HT_LIM_D => some .D
  | .MI_I_CFG_DEPTH | .MI_I_CFG_LEAK | .MI_I_CFG_INIT_MODE | .MI_I_CFG_FILL | .MI_I_STAT_LEVEL | .MI_I_STAT_OVF | .MI_I_STAT_UE
  | .MI_I_STAT_POISON | .MI_I_STAT_FILL_BUSY | .MI_I_CE_COUNT | .MI_I_UE_UE | .MI_I_UE_POISONED | .MI_I_ALO_ADDR | .MI_I_AHI_ADDR
  | .MI_I_AHI_SYND | .MI_I_AHI_KIND =>
    if 26 ≤ k && k < 38 then some (Str.ofNum ((k - 26) / 3)) else if 38 ≤ k && k < 42 then some (Str.ofNum (k - 38)) else none
  | _ => none

/-- Entry `k` of a shared block's field belongs to a String that is absent: it reads 0 and ignores writes (R7). -/
def State.notOwned (s : State) (r : Reg) (k : Nat) : Bool := (r.owner k).any fun x => !s.present x

/-- KIND of the error response an access gets, if it gets one (R35, R39): registers take aligned 32-bit accesses alone. A
misaligned access to an isolated domain is recorded as misaligned: the manual gives the two no order (log entry 50). -/
def State.accessError (s : State) (t : Target) (a : Nat) : Option Nat :=
  match t with
  | .unmapped => some 0
  | .over => some 1
  | .reg .. | .control .. | .reserved =>
    if s.absentAt a then none
    else if a % 4 != 0 then some 2
    else if (t.domain a).any fun d => !s.domainBit .PWR_DOMSTAT_ON d then some 3 else none
  | .memory _ => if !s.absent t && ((t.domain a).any fun d => !s.domainBit .PWR_DOMSTAT_ON d) then some 3 else none

/-- An error response (R39): the first is captured, later ones set OVF. -/
def State.fabricError (s : State) (kind req a : Nat) (write : Bool) : State :=
  let s := s.emit (.errorResponse req a)
  if s.isSet .FAB_ERR_STAT_ERR then s.flag .FAB_ERR_STAT_OVF
  else
    let s := (s.flag .FAB_ERR_STAT_ERR).wr .FAB_ERR_STAT_KIND kind
    let s := (s.wr .FAB_ERR_ADDR_ADDR_LO (a % 2 ^ 32)).wr .FAB_ERR_SRC_ADDR_HI (a / 2 ^ 32 % 65536)
    (s.wr .FAB_ERR_SRC_REQ req).setTo .FAB_ERR_SRC_WR write

/-! ### Registers -/

/-- The fields of the word at an offset of a block, each with its index in the block's instance. -/
def fieldsAt (b : Blk) (off : Nat) : List (RegRow × Nat) :=
  b.rows.filterMap fun r =>
    if r.off ≤ off && (off - r.off) % max 1 r.stride = 0 && (off - r.off) / max 1 r.stride < r.n then
      some (r, (off - r.off) / max 1 r.stride)
    else none

/-- The shadow copies of the S fields at an offset, in the bit positions of that register. -/
def State.shadowWord (s : State) (b : Blk) (off i : Nat) : Nat :=
  ((fieldsAt b off).filter fun e => e.1.cls == .s).foldl (fun v e => v + s.coming e.1.reg (i + e.2) * 2 ^ e.1.lo) 0

/-- XOR of the words `k` of the codewords in the live accumulator of a String (R206). -/
def State.accXor (s : State) (x : Str) (k : Nat) : Nat :=
  (s.str.get x).wrp.acc.foldl (fun v e => v ^^^ Config.codewordWord [e.2.lba, e.2.gen, e.2.nstag, e.2.key, e.2.data] k) 0 % 2 ^ 32

/-- Word `k` of the live accumulator (R226): that XOR, and what writes of WRPx_ACC have changed in it. -/
def State.accWord (s : State) (x : Str) (k : Nat) : Nat :=
  s.accXor x k ^^^ (storeFind (s.str.get x).wrp.accDiff k).getD 0

/-- What a read of a field returns (R13): WO fields 0, shadow registers the shadow copies (R10), fields that read back
otherwise as their row says, every other field the value in force. `i` is the register's index, of entry `k` of instance
`inst`. -/
def State.fieldValue (s : State) (r : RegRow) (inst k : Nat) : Nat :=
  let i := inst * 65536 + k
  let base := inst * 65536
  if r.access == .wo || s.notOwned r.reg k then 0
  else
    match r.reg with
    | .RCHx_RATE_BITRATE => if s.fretPs = 0 then 0 else s.rd .RCHx_RATE_BITRATE i
    | .CAPO_SHADOW_RATIO => s.shadowWord .capo Reg.CAPO_RATIO_M1.row.off base
    | .SPE_SHADOW_SETPT => (s.shadowOf .SPE_SETPT_RPM).getD 0
    | .SPE_SHADOW_RUN_ILIM => (s.shadowOf .SPE_ILIM_RUN_ILIM).getD 0
    | .SCEx_TGT_SHADOW_TRACK => s.coming .SCEx_TARGET_TRACK i
    | .SCEx_TGT_SHADOW_HEAD => s.coming .SCEx_TARGET_HEAD i
    | .SCEx_MISC_SHADOW_OFFS => s.coming .SCEx_TOFFS_OFFS i
    | .SCEx_MISC_SHADOW_OPT_EN => s.coming .SCEx_CTRL_OPT_EN i
    | .SCEx_MISC_SHADOW_CPL_ROUTE => s.coming .SCEx_CTRL_CPL_ROUTE i
    | .SVDx_SHADOW_GRAY_SUB => s.coming .SVDx_CTRL_GRAY_SUB i
    | .SVDx_SHADOW_RRO_EN => s.coming .SVDx_CTRL_RRO_EN i
    | .AEx_SHADOW_CTRL => s.coming .AEx_CTRL_WR_ARM i + 2 * s.coming .AEx_CTRL_CAL_EN i + 4 * s.coming .AEx_CTRL_FH_EN i
    | .RCHx_SHADOW_CTRL => s.shadowWord .rch Reg.RCHx_CTRL_AGC_EN.row.off base
    | .HARP_SHADOW_CTRL => s.shadowWord .harp Reg.HARP_CTRL_SLIP_EN.row.off base
    | .WRPx_ACC_DATA => s.accWord (Str.ofNum inst) k
    | .WRPx_SHADOW_PAR_EN => s.coming .WRPx_CTRL_PAR_EN i
    | .RLDx_SHADOW_CFG => s.shadowWord .rld Reg.RLDx_CFG_RETRY_N.row.off base
    | .RLDx_SHADOW1_EN => s.coming .RLDx_EN_RUNG_EN i
    | .PHV_SHADOW_CFG => s.shadowWord .phovi Reg.PHV_CFG_CAPS_BLK.row.off base
    | .SQ_ESHADOW_ENTRY => s.coming .SQ_ENTRY_EVEN i + s.coming .SQ_ENTRY_ODD i * 65536
    | .FRET_SKEWNS_NS => if s.fretPs = 0 then 0 else s.rd .FRET_SKEWNS_NS i
    | .HARP_HBASE_ENTRY => Config.hbaseWord k
    | .PWR_RETCFG_VM_HARV => min (s.rd .PWR_RETCFG_VM_HARV) (s.rd .SPE_BUS_VM_OV - 10)
    | .CHST_CTRL_WB_EN => if s.isSet .CHST_STAT_LIFE_END then 0 else s.rd .CHST_CTRL_WB_EN
    | .MI_OVF0_OVF => ((List.range 32).map fun i => s.rd .MI_I_STAT_OVF i * 2 ^ i).sum
    | .MI_OVF1_OVF => ((List.range 16).map fun i => s.rd .MI_I_STAT_OVF (32 + i) * 2 ^ i).sum
    | .MI_I_CFG_INIT_MODE => if 45 ≤ k then 0 else s.rd .MI_I_CFG_INIT_MODE i
    | _ => s.rd r.reg i

/-- What reading a register changes: the mailbox is popped by its data, the peak is cleared (R375, R111). -/
def State.readEffect (s : State) (r : RegRow) (inst : Nat) : State :=
  match r.reg with
  | .SQ_MBOXD_DATA =>
    let x := Str.ofNum (inst / 3)
    let q := match inst % 3 with | 0 => SeqId.ssq | 1 => .rsq | _ => .wsq
    (s.modSeq x q fun u => { u with mailbox := u.mailbox.drop 1 }).sqRefresh x q
  | .SCEx_CYC_PEAK => s.wr .SCEx_CYC_PEAK 0 (inst * 65536)
  | _ => s

/-- A register word read. -/
def State.readReg (s : State) (b : Blk) (inst off : Nat) : Nat × State :=
  let fs := fieldsAt b off
  (fs.foldl (fun v e => v + s.fieldValue e.1 inst e.2 * 2 ^ e.1.lo) 0, fs.foldl (fun s e => s.readEffect e.1 inst) s)

/-- A word of a control-store slot read: bytes 18 to 31 read 0 (R355). -/
def State.readControl (s : State) (x : Str) (q : SeqId) (w off : Nat) : Nat := s.controlWord x q w / 2 ^ (8 * off) % 2 ^ 32

/-- The rows of the Chest that a write of `n` bytes at `a` touches go through its governor (R41, R311). The bytes are read
back at once, also while their row waits for its token: the manual does not say (log entry 50). -/
def State.chestCounted (s : State) (m : MemRegion) (a n : Nat) : State :=
  if m == .chest then
    let r := (a - 0x200000000) / 64
    let l := (a + n - 1 - 0x200000000) / 64
    (s.chestRow 4 r).when (r != l) fun s => s.chestRow 4 l
  else s

/-- A requester's write of `n` bytes, 1 to 8, to a memory region: one that fills its word clears poison. -/
def State.regionWrite (s : State) (m : MemRegion) (a v n : Nat) : State :=
  let l := a + n - 1
  let s := (s.writeMem m a v n).wordWritten m a (n == 8 && a % 8 == 0)
  (s.when (a / 8 != l / 8) fun s => s.wordWritten m l false).chestCounted m a n

end Sys2Proof.Machine
end

