-- ==== Sys2Proof/Machine/Caches.lean ====
section
/-! DEFINITION. Machine/Caches.lean: what the Bureau's L2 caches do with the accesses of the cores (R401 to R404, R407), and
the words that requesters read. -/
namespace Sys2Proof.Machine

/-! ### L2 caches -/

/-- Set index of an address (R402). -/
def l2Set (a : Nat) : Nat :=
  (a / 2 ^ 6 % 1024) ^^^ (a / 2 ^ 16 % 1024) ^^^ (a / 2 ^ 26 % 1024) ^^^ (a / 2 ^ 36 % 1024) ^^^ (a / 2 ^ 46 % 4)

/-- Index of entry `k` of a cluster's register. -/
def l2Ix (n : Nat) (k : Nat := 0) : Nat := n * 65536 + k

/-- Cache `n`. -/
def State.cache (s : State) (n : Nat) : L2Cache :=
  s.memory.caches.getD n L2Cache.atReset

/-- Cache `n` changed; DIRTY follows. -/
def State.modCache (s : State) (n : Nat) (f : L2Cache → L2Cache) : State :=
  let s := s.modMemory fun m => { m with caches := m.caches.modify n f }
  s.wr .L2n_STAT_DIRTY ((s.cache n).lines.filter (·.dirty)).length (l2Ix n)

/-- A line's bytes go to memory. -/
def State.writeLine (s : State) (l : L2Line) : State :=
  match s.target l.addr with
  | .memory m =>
    let s := (l.data.mapIdx fun i b => (i, b)).foldl (fun s e => s.writeByte m (l.addr + e.1) e.2) s
    (List.range 8).foldl (fun s k => s.wordWritten m (l.addr + 8 * k) true) s
  | _ => s

/-! ### Policies (R403) -/

/-- Policy of an access of cluster `n` to a memory region: that of the lowest-numbered valid entry that holds the address, else
uncached; in the Chest write-back acts as write-through; a cache that is not in use caches nothing. -/
def State.l2Policy (s : State) (n : Nat) (m : MemRegion) (a : Nat) : Nat :=
  let holds (e : Nat) : Bool :=
    s.isSet .L2n_RAT_CTL_VALID (l2Ix n e) && decide (s.rd .L2n_RAT_BASE_BASE (l2Ix n e) ≤ a / 65536)
      && decide (a / 65536 ≤ s.rd .L2n_RAT_LIMIT_LIMIT (l2Ix n e))
  if !s.isSet .L2n_STAT_ENABLED (l2Ix n) then 3
  else
    match (List.range 16).find? holds with
    | none => 3
    | some e =>
      let p := s.rd .L2n_RAT_CTL_POL (l2Ix n e)
      if p = 0 && m == .chest then 1 else p

/-! ### Lines (R401) -/

/-- Nodes of the pseudo-LRU tree on the way to a way, each with the side it lies on: nodes are numbered 1 to 15, and a node's
bit points to the side used less recently. -/
def plruPath (way : Nat) : List (Nat × Bool) :=
  [(1, way.testBit 3), (2 + way / 8, way.testBit 2), (4 + way / 4, way.testBit 1), (8 + way / 2, way.testBit 0)]

/-- The tree after a use of a way: every node on its path points away from it. -/
def plruUse (tree way : Nat) : Nat :=
  (plruPath way).foldl (fun t e => t - (t / 2 ^ e.1 % 2) * 2 ^ e.1 + (if e.2 then 0 else 2 ^ e.1)) tree

/-- The way that a tree points to. -/
def plruVictim (tree : Nat) : Nat :=
  let bit (node : Nat) : Nat := tree / 2 ^ node % 2
  let a := bit 1
  let b := bit (2 + a)
  let c := bit (4 + 2 * a + b)
  8 * a + 4 * b + 2 * c + bit (8 + 4 * a + 2 * b + c)

/-- A way of a set is used. -/
def L2Cache.use (c : L2Cache) (set way : Nat) : L2Cache :=
  { c with trees := storePut c.trees set (plruUse ((storeFind c.trees set).getD 0) way) }

/-- The 64 bytes of a line as memory holds them. -/
def State.lineBytes (s : State) (m : MemRegion) (la : Nat) : List Nat × State :=
  (List.range 64).foldl (fun (l, s) k => let (b, s) := s.readByte m (la + k); (l ++ [b], s)) ([], s)

/-- A line enters cache `n`: in a free way of its set, else in place of the line the tree points to, which is written back if
it is dirty. -/
def State.l2Insert (s : State) (n la : Nat) (data : List Nat) : State :=
  let set := l2Set la
  let here := (s.cache n).lines.filter fun l => l2Set l.addr == set
  let way := ((List.range 16).find? fun w => !(here.any fun l => l.way == w)).getD
    (plruVictim ((storeFind (s.cache n).trees set).getD 0))
  let out (l : L2Line) : Bool := l2Set l.addr == set && l.way == way
  let s := ((here.filter fun l => out l && l.dirty)).foldl State.writeLine s
  s.modCache n fun c =>
    ({ c with lines := { addr := la, way, dirty := false, data } :: c.lines.filter fun l => !out l } : L2Cache).use set way

/-! ### Prefetch (R407) -/

/-- A line can be fetched ahead: it reads without error, and stands in neither the cache nor the side buffer. -/
def State.mayFetch (s : State) (n la : Nat) : Bool :=
  !((s.cache n).lines.any fun l => l.addr == la) && !((s.cache n).side.any fun e => e.1 == la)
    && (List.range 8).all fun k => !s.memory.poisoned.contains (la + 8 * k) && s.codeStatus (la + 8 * k) == 0

/-- A line fetched ahead enters the side buffer of 32, whose oldest line it replaces. -/
def State.sideFill (s : State) (n : Nat) (m : MemRegion) (la : Nat) : State :=
  if !s.mayFetch n la then s
  else
    let (data, s) := s.lineBytes m la
    let full := decide (32 ≤ (s.cache n).side.length)
    (s.when full fun s => s.bump .L2n_CNT2_PF_DROP (l2Ix n)).modCache n fun c =>
      { c with side := (if full then c.side.tail else c.side) ++ [(la, data)] }

/-- A demand miss of a line extends a stream, tells its direction, or begins one in place of the oldest of eight; the streams,
and the direction to fetch in. -/
def followStreams (streams : List LineStream) (line : Nat) : List LineStream × Option Bool :=
  let next (t : LineStream) : Option Bool :=
    if t.rising != some false && t.line + 1 == line then some true
    else if t.rising != some true && t.line == line + 1 then some false
    else none
  match streams.find? fun t => (next t).isSome with
  | some t =>
    (streams.map fun u => if u == t then { line, rising := next t } else u, next t)
  | none =>
    if streams.any fun t => t.line == line then (streams, none)
    else ((if 8 ≤ streams.length then streams.tail else streams) ++ [{ line, rising := none }], none)

/-- Up to PF_DIST lines ahead of a stream are fetched, inside the 4 KiB of the miss. -/
def State.prefetch (s : State) (n : Nat) (m : MemRegion) (la : Nat) : State :=
  if !s.isSet .L2n_CTRL_PF_EN (l2Ix n) || 2 ≤ s.l2Policy n m la then s
  else
    let (streams, way) := followStreams (s.cache n).streams (la / 64)
    let s := s.modCache n fun c => { c with streams }
    match way with
    | none => s
    | some up =>
      let ahead := (List.range (s.eff .L2n_CTRL_PF_DIST (l2Ix n))).filterMap fun k =>
        let d := 64 * (k + 1)
        let a := if up then la + d else la - d
        if (up || decide (d ≤ la)) && a / 4096 == la / 4096 then some a else none
      ahead.foldl (fun s a => s.sideFill n m a) s

/-! ### Accesses of the cores -/

/-- The line at an address is in cache `n`. -/
def State.l2Has (s : State) (n la : Nat) : Bool := (s.cache n).lines.any fun l => l.addr == la

/-- A demand access that needs the line in the cache: it hits, the side buffer gives it, or it is fetched (R403, R407). -/
def State.l2Demand (s : State) (n : Nat) (m : MemRegion) (la : Nat) : State :=
  match (s.cache n).lines.find? fun l => l.addr == la with
  | some l => (s.bump .L2n_CNT0_HITS (l2Ix n)).modCache n fun c => c.use (l2Set la) l.way
  | none =>
    match (s.cache n).side.find? fun e => e.1 == la with
    | some e =>
      let s := (s.bump .L2n_CNT0_HITS (l2Ix n)).bump .L2n_CNT2_PF_USED (l2Ix n)
      let s := s.modCache n fun c => { c with side := c.side.filter fun d => d.1 != la }
      (s.l2Insert n la e.2).prefetch n m la
    | none =>
      let (data, s) := (s.bump .L2n_CNT1_MISSES (l2Ix n)).lineBytes m la
      (s.l2Insert n la data).prefetch n m la

/-- Bytes of lines of cache `n` replaced, from an address on. -/
def State.l2Patch (s : State) (n a v k : Nat) (dirty : Bool) : State :=
  s.modCache n fun c =>
    { c with lines := c.lines.map fun l =>
        if l.addr < a + k && a < l.addr + 64 then
          { l with dirty := l.dirty || dirty
                   data := l.data.mapIdx fun i b =>
                     if a ≤ l.addr + i && l.addr + i < a + k then v / 256 ^ (l.addr + i - a) % 256 else b }
        else l }

/-- The lines that `k` bytes at an address touch. -/
def linesOf (a k : Nat) : List Nat := ([a / 64 * 64, (a + k - 1) / 64 * 64]).eraseDups

/-- A core of cluster `n` writes `k` bytes (R403). A walk stalls the write: it lands in memory after the lines written back
(R408). -/
def State.coreWrite (s : State) (n : Nat) (m : MemRegion) (a v k : Nat) : State :=
  let pol := s.l2Policy n m a
  if s.isSet .L2n_STAT_WALK (l2Ix n) then (s.l2Patch n a v k false).regionWrite m a v k
  else if pol = 0 then (((linesOf a k).foldl (fun s la => s.l2Demand n m la) s).l2Patch n a v k true)
  else if pol = 1 then
    let early := (linesOf a k).filter fun la => s.l2Has n la || (s.cache n).side.any fun e => e.1 == la
    let s := early.foldl (fun s la => s.l2Demand n m la) s
    let s := (s.l2Patch n a v k false).regionWrite m a v k
    ((linesOf a k).filter fun la => !early.contains la).foldl (fun s la => s.l2Demand n m la) s
  else if pol = 2 then
    let hit := (linesOf a k).any (s.l2Has n)
    let s := (s.bump (if hit then .L2n_CNT0_HITS else .L2n_CNT1_MISSES) (l2Ix n)).modCache n fun c =>
      { c with lines := c.lines.filter fun l => !(linesOf a k).contains l.addr
               side := c.side.filter fun e => !(linesOf a k).contains e.1 }
    s.regionWrite m a v k
  else s.regionWrite m a v k

/-- The byte at an address as cache `n` holds it. -/
def State.l2Byte (s : State) (n a : Nat) : Option Nat :=
  ((s.cache n).lines.find? fun l => l.addr == a / 64 * 64).map fun l => l.data.getD (a % 64) 0

/-- A core of cluster `n` reads 4 bytes that memory can give without error: from the lines where the policy caches them. A walk
stalls the read: it sees the lines written back (R408). -/
def State.coreRead (s : State) (n : Nat) (m : MemRegion) (a : Nat) : Nat × State :=
  let s := s.when (decide (s.l2Policy n m a < 3) && !s.isSet .L2n_STAT_WALK (l2Ix n)) fun s =>
    (linesOf a 4).foldl (fun s la => s.l2Demand n m la) s
  let cached := decide (s.l2Policy n m a < 3) || s.isSet .L2n_STAT_WALK (l2Ix n)
  let (v, s) := s.readMem m a 4
  let b (i : Nat) : Nat := if cached then (s.l2Byte n (a + i)).getD (v / 256 ^ i % 256) else v / 256 ^ i % 256
  (b 0 + 256 * b 1 + 65536 * b 2 + 16777216 * b 3, s)

/-! ### Words read by requesters -/

/-- A requester reads a word it cannot be given (R411, R415): the error response, which a core takes as a data abort and an engine
reports to the Bureau with the address; the scrubber is asked to visit the word. -/
def State.badRead (s : State) (req a : Nat) : State :=
  let w := a / 8 * 8
  (s.emit (.errorResponse req a)).modMemory fun y => { y with asked := if y.asked.contains w then y.asked else y.asked ++ [w] }

/-- A 32-bit word read by a requester (R39): none is an error response. -/
def State.readWord (s : State) (req a : Nat) : Option Nat × State :=
  let t := s.target a
  match s.accessError t a with
  | some k => (none, s.fabricError k req a false)
  | none =>
    if s.absent t || s.absentAt a then (some 0, s)
    else
      match t with
      | .memory m =>
        let st := s.codeStatus a
        if req < 16 && (s.l2Byte (req / 4) a).isSome && decide (s.l2Policy (req / 4) m a < 3) then
          let (v, s) := s.coreRead (req / 4) m a
          (some v, s)
        else if s.memory.poisoned.contains (a / 8 * 8) then (none, s.badRead req a)
        else if st = 2 then
          let s := match m.ecc a with | some i => s.uncorrectable i (a / 8 * 8) (Config.syndrome a) | none => s
          (none, s.badRead req a)
        else
          let (v, s) := if req < 16 then s.coreRead (req / 4) m a else s.readMem m a 4
          if st = 1 then
            let s := match m.ecc a with | some i => s.correction i (a / 8 * 8) (Config.syndrome a) | none => s
            let (whole, s) := s.readMem m (a / 8 * 8) 8
            (some (Config.correctedWord (a / 8 * 8) whole / 2 ^ (8 * (a % 8)) % 2 ^ 32), s)
          else (some v, s)
      | .reg b inst off => let (v, s) := s.readReg b inst off; (some v, s)
      | .control x q w off =>
        if s.memory.poisoned.contains (a / 8 * 8) || s.codeStatus a == 2 then (none, s.badRead req a)
        else (some (s.readControl x q w off), s)
      | _ => (some 0, s)

end Sys2Proof.Machine
end

