-- ==== Sys2Proof/Machine/Namespaces.lean ====
section
/-! DEFINITION. Machine/Namespaces.lean: namespaces made, deleted, attached, detached, formatted (R256 to R263), and what
the completion of a slot operation does for the command that caused it (R320). -/
namespace Sys2Proof.Machine

/-! ### Storage of a namespace (R204, R205, R256, R279) -/

/-- Extents a namespace of a kind and size takes: units, zones, or 9/8 of its bands (R256). -/
def extentsNeeded (k : NsKind) (nsze : Nat) : Nat :=
  match k with
  | .managed => (nsze * 9 + 131072 * 8 - 1) / (131072 * 8)
  | _ => nsze / 131072

/-- String of extent `n`: the (n mod k)-th of the mask (R205). -/
def extentStr (strs : List Str) (n : Nat) : Str := strs.getD (n % max 1 strs.length) .A

/-- The extents a namespace would take, in order: index, String and extent; `none` when a String has too few. -/
def State.allocate (s : State) (cmr : Bool) (strs : List Str) (n : Nat) : Option (List (Nat × Str × Nat)) :=
  let free := Quad.mk (s.extentsToTake .A cmr) (s.extentsToTake .B cmr) (s.extentsToTake .C cmr) (s.extentsToTake .D cmr)
  let k := max 1 strs.length
  let pick (i : Nat) : Option (Nat × Str × Nat) :=
    let x := extentStr strs i
    ((free.get x)[i / k]?).map fun e => (i, x, e)
  let l := (List.range n).filterMap pick
  if l.length = n then some l else none

/-- A record of a new namespace. -/
def newRecord (nsid nstag index : Nat) (x : Str) (band : Nat) : Record :=
  { nsid, index, gen := 0, wp := 0, accepted := 0, mp := 0, state := .empty, band, str := x, accValid := false, clean := false, nstag
    acc := [], lastWrite := 0, drawn := false, spares := [], sparesUsed := 0, heldForLadders := false, keepGens := []
    finish := none }

/-- A record takes the first free place of the table. -/
def placeRecord (rs : List Record) (r : Record) : List Record :=
  match rs.findIdx? fun e => e.nsid == 0 with
  | some i => rs.set i r
  | none => rs ++ [r]

/-- G_X of the extents on a String: the least D / (480 + TSKEW), D less the parity's 65th share on a band (R279). -/
def State.rateOn (s : State) (cmr : Bool) (l : List (Nat × Str × Nat)) (x : Str) : Nat × Nat :=
  let ds := (l.filter fun e => e.2.1 == x).filterMap fun e => (s.extent x e.2.2).map fun e =>
    if cmr then e.perTrack else e.perTrack * 64 / 65
  match ds with
  | [] => (0, 1)
  | d :: rest => (rest.foldl min d, 480 + (s.format x).tskew)

/-! ### Create (R258) -/

/-- Kind a Create asks for. -/
def kindOf (f : NsFields) : NsKind :=
  if f.csi = 2 then .zoned else if f.kind = 1 then .managed else .conventional

/-- Records in use, of Zoned namespaces alone or of all. -/
def State.recordsUsed (s : State) (zoned : Bool) : Nat :=
  (s.host.records.filter fun r => r.nsid != 0 && (!zoned || s.isZone r)).length

/-- The checks of R258 in their order. -/
def State.createCheck (s : State) (f : NsFields) : Option NvStatus :=
  let k := kindOf f
  let mask := s.stringMask f.mask
  let n := extentsNeeded k f.nsze
  let managed := (s.host.namespaces.filter fun e => e.kind == .managed).map (·.nsze)
  if 32 ≤ s.host.namespaces.length then some .namespaceIdUnavailable
  else if (f.csi != 0 && f.csi != 2) || (f.csi == 0 && decide (1 < f.kind)) || 1 < f.opts || (f.opts == 1 && k != .managed) || f.reserved then
    some .invalidField
  else if k == .managed && decide (s.bridge.usable < 917504) then some .invalidField
  else if 16 ≤ mask || (Str.all.any fun x => mask.testBit x.num && !s.present x) then some .invalidField
  else if 1 < f.flbas || f.dps = 2 || 3 < f.dps || (f.dps != 0 && f.flbas == 0) then some .invalidFormat
  else if f.ncap != f.nsze || f.nsze = 0 || (k != .managed && f.nsze % 131072 != 0) then some .invalidField
  else if (s.allocate (k == .conventional) (maskStrs mask) n).isNone || 327680 < s.recordsUsed false + n
      || (k == .zoned && decide (262144 < s.recordsUsed true + n)) || (k == .managed && decide (3906250000 < managed.sum + f.nsze))
      || !(s.cab.slots.any fun e => e.state == .free) then some .insufficientCapacity
  else none

/-- A namespace command has been accepted and waits for its slot operation: others wait for it (R263). -/
def State.nsBusy (s : State) : Bool :=
  (s.host.cmds.any fun c => c.accepted && c.ready.isNone)
    || s.bur.requests.any fun r => !r.started && (r.cls == 0 || r.cls == 2 || r.cls == 3 || r.cls == 4)

/-- NAMESPACE_CREATE: checked, and GENERATE issued on the lowest FREE slot. -/
def State.nsCreate (s : State) (f : Nat) : State :=
  match s.cmdOp f with
  | some (_, .nsCreate fields) =>
    if s.nsBusy then s
    else
      s.admin f fun s _ =>
        match s.createCheck fields, s.cab.slots.findIdx? fun e => e.state == .free with
        | some st, _ => s.finish f st
        | none, none => s.finish f .insufficientCapacity
        | none, some k =>
          match s.issueOp 0 k (some f) with
          | (false, s) => s.finish f .internalError
          | (true, s) => s.modCmd f fun c => { c with accepted := true }
  | _ => s

/-- The lowest number from `first` on that a list does not hold. -/
def lowestFree (used : List Nat) (first : Nat) : Nat :=
  ((List.range (used.length + 1)).find? fun k => !used.contains (first + k)).elim first (first + ·)

/-- The namespace made once its keys exist: records, tag, G_X, all written to the Chest (R258, R279). -/
def State.nsMade (s : State) (f : NsFields) (slot : Nat) : Nat × State :=
  let k := kindOf f
  let cmr := k == .conventional
  let mask := s.stringMask f.mask
  let n := extentsNeeded k f.nsze
  let l := (s.allocate cmr (maskStrs mask) n).getD []
  let nsid := lowestFree (s.host.namespaces.map (·.nsid)) 1
  let nstag := lowestFree (s.host.namespaces.map (·.nstag)) 0
  let ns : Namespace :=
    { nsid, kind := k, nsze := f.nsze, mask := f.mask, compressed := f.opts == 1, flbas := f.flbas, dps := f.dps, appTag := f.appTag
      refTag := f.refTag, shared := f.shared, nstag, slot, attached := []
      res := { registrants := [], holder := none, rtype := 0, generation := 0, ptpl := false }
      g := ⟨s.rateOn cmr l .A, s.rateOn cmr l .B, s.rateOn cmr l .C, s.rateOn cmr l .D⟩
      bands := n, granted := 0, formatting := false, keyLost := false, map := [], capsules := [] }
  let s := s.drawn.modHost fun h =>
    { h with namespaces := h.namespaces ++ [ns]
             records := l.foldl (fun rs e => placeRecord rs (newRecord nsid nstag e.1 e.2.1 e.2.2)) h.records }
  let s := (s.modKeySlot slot fun e => { e with nsid, nstag }).journal (slotRow slot)
  let s := l.foldl (fun s e => match s.recordOf nsid e.1 with | some id => s.journal (recordRow id) | none => s) s
  (nsid, s.journal (deviceRow (32 + nsid)))

/-- The extent-map region is reserved while a Managed namespace exists: 2 GiB, 524,288 pages (R294). -/
def State.mapRegion (s : State) : State :=
  let managed := s.host.namespaces.any fun n => n.kind == .managed
  if managed && !s.isSet .BRG_STAT_MAP_RSV then
    (s.flag .BRG_STAT_MAP_RSV).wr .BRG_VSTORE_FREE (s.rd .BRG_VSTORE_FREE - 524288)
  else if !managed && s.isSet .BRG_STAT_MAP_RSV then
    (s.unflag .BRG_STAT_MAP_RSV).wr .BRG_VSTORE_FREE (s.rd .BRG_VSTORE_FREE + 524288)
  else s

/-! ### Attachment (R261, R263) -/

/-- An attachment or namespace change is announced to a controller: event type 2, information 0, when bit 8 of feature 0Bh
enables it, and the Changed Namespace List (NVMe Base 2.0). -/
def State.nsChanged (s : State) (nsid : Nat) (ks : List Nat) : State :=
  ks.foldl (fun s k =>
    let s := s.modController k fun c => { c with changed := if c.changed.contains nsid then c.changed else c.changed ++ [nsid] }
    s.when ((s.controller k).any fun c => c.enabled && (c.feature 0x0B).testBit 8) fun s => s.hostEvent k 2 0) s

/-- The controllers a list of CNTLIDs names, if each is presented (R247). -/
def State.controllerList (s : State) (ids : List Nat) : Option (List Nat) :=
  if ids.isEmpty || (ids.any fun i => i == 0 || !s.presented (i - 1)) then none else some (ids.map (· - 1))

/-- NAMESPACE_ATTACH. -/
def State.nsAttach (s : State) (f : Nat) : State :=
  match s.cmdOp f with
  | some (_, .nsAttach ids) =>
    s.admin f fun s c =>
      match s.ns c.nsid, s.controllerList ids with
      | none, _ => s.finish f .invalidNamespace
      | _, none => s.finish f .controllerListInvalid
      | some n, some ks =>
        if ks.any n.attached.contains then s.finish f .nsAlreadyAttached
        else if !n.shared && decide (1 < n.attached.length + ks.length) then s.finish f .nsIsPrivate
        else
          let s := (s.modNs c.nsid fun n => { n with attached := n.attached ++ ks }).journal (deviceRow (32 + c.nsid))
          (s.nsChanged c.nsid ks).finish f .success
  | _ => s

/-- NAMESPACE_DETACH: completes after the controllers' commands in flight. -/
def State.nsDetach (s : State) (f : Nat) : State :=
  match s.cmdOp f with
  | some (_, .nsDetach ids) =>
    s.admin f fun s c =>
      match s.ns c.nsid, s.controllerList ids with
      | none, _ => s.finish f .invalidNamespace
      | _, none => s.finish f .controllerListInvalid
      | some n, some ks =>
        if ks.any fun k => !n.attached.contains k then s.finish f .nsNotAttached
        else
          let s := (s.modNs c.nsid fun n => { n with attached := n.attached.filter fun k => !ks.contains k }).journal
            (deviceRow (32 + c.nsid))
          let s := s.nsChanged c.nsid ks
          let waits := (s.host.cmds.filter fun e => e.nsid == c.nsid && e.op.isIo && ks.contains e.hqe).map (·.fseq)
          if waits.isEmpty then s.finish f .success else s.modCmd f fun c => { c with waits }
  | _ => s

/-! ### Delete, Format, Sanitize (R259, R263) -/

/-- NAMESPACE_DELETE: accepted, later commands find no namespace; the keys are erased once the commands in flight have
completed. -/
def State.nsDelete (s : State) (f : Nat) : State :=
  match s.cmdOp f with
  | some (_, .nsDelete) =>
    if s.nsBusy then s
    else
      s.admin f fun s c =>
        match s.ns c.nsid with
        | none => s.finish f .invalidNamespace
        | some n =>
          let waits := (s.host.cmds.filter fun e => e.nsid == c.nsid && e.op.isIo).map (·.fseq)
          let s := s.nsChanged c.nsid n.attached
          let s := s.modNs c.nsid fun n => { n with attached := [] }
          let s := s.modCmd f fun c => { c with accepted := true, waits }
          match s.issueOp 1 n.slot (some f) with
          | (true, s) => s
          | (false, s) => s.finish f .internalError
  | _ => s

/-- The namespaces a Format names: one, or all for FFFFFFFFh. -/
def State.formatTargets (s : State) (nsid : Nat) : List Namespace :=
  s.host.namespaces.filter fun n => nsid == 0xFFFFFFFF || n.nsid == nsid

/-- A cryptographic erase of namespaces starts: a REKEY of each slot; a refused one leaves them as they are. -/
def State.eraseAll (s : State) (f : Nat) (ns : List Namespace) : State :=
  if ns.any fun n => s.opRefused 2 n.slot then (s.flag .CAB_STAT_OP_ERR).finish f .internalError
  else if ns.isEmpty then s.finish f .success
  else
    let s := ns.foldl (fun s n => (s.issueOp 2 n.slot (some f)).2.modNs n.nsid fun n => { n with formatting := true }) s
    s.modCmd f fun c => { c with accepted := true }

/-- FORMAT_NVM. -/
def State.formatNvm (s : State) (f : Nat) : State :=
  match s.cmdOp f with
  | some (_, .format) =>
    if s.nsBusy then s
    else
      s.admin f fun s c =>
        let ns := s.formatTargets c.nsid
        if ns.isEmpty && c.nsid != 0xFFFFFFFF then s.finish f .invalidNamespace else s.eraseAll f ns
  | _ => s

/-- SANITIZE_CRYPTO_ERASE: action 4; the other actions are not supported (R252). -/
def State.sanitize (s : State) (f : Nat) : State :=
  match s.cmdOp f with
  | some (_, .sanitize action) =>
    if s.nsBusy then s
    else
      s.admin f fun s _ =>
        if action != 4 then s.finish f .invalidField
        else ((s.modHost fun h => { h with sanitizeLog := [2] }).eraseAll f s.host.namespaces)
  | _ => s

/-- What stands in the Bridge, the queues and the write path for a namespace is dropped; its writes in flight end. -/
def State.dropNamespaceData (s : State) (nsid : Nat) : State :=
  let here (z : Option Nat) : Bool := z.any fun id => (s.host.records[id]?).any fun r => r.nsid == nsid
  let ids := (List.range s.host.records.length).filter fun id => (s.host.records[id]?).any fun r => r.nsid == nsid
  let s := ids.foldl (fun s id => s.abandonClean id) s
  let s := Str.all.foldl (fun s x =>
    let s := s.withdrawWrites x fun q => here q.zone
    s.modWrp x fun w => if here w.accZone then { w with accZone := none, acc := [], accDiff := [] } else w) s
  let close (c : Cmd) : Cmd :=
    if c.nsid == nsid && c.started && c.op.isWrite then
      let d := if c.ready.isNone then c.allDone else c
      { d with owed := [], past := true }.settled
    else c
  let drop (v : Version) : Version := if v.nsid == nsid then { v with unlisted := true, issued := [] } else v
  let s := s.modHost fun h => { h with cmds := h.cmds.map close }
  let s := s.modBridge fun b => { b with versions := b.versions.map drop, waiting := b.waiting.filter fun e =>
    !(s.host.cmds.any fun c => c.fseq == e.1 && c.nsid == nsid) }
  let s := s.modPhv fun p =>
    { p with packed := p.packed.filter (fun q => q.nsid != nsid), positions := p.positions.filter fun e => !ids.contains e.1
             spaceWait := p.spaceWait.filter fun e => !(s.host.cmds.any fun c => c.fseq == e.1 && c.nsid == nsid) }
  s.settleWaits.dropVersions.phvSweep

/-- Every zone of a namespace is Empty again; nothing is mapped (R259). -/
def State.emptyNamespace (s : State) (nsid : Nat) (slot : Nat) : State :=
  let s := s.dropNamespaceData nsid
  let empty (r : Record) : Record :=
    if r.nsid == nsid then
      { r with wp := 0, mp := 0, accepted := 0, accValid := false, acc := [], drawn := false, finish := none, spares := []
               sparesUsed := 0, state := if r.state == .offline then .offline else .empty }
    else r
  let s := s.modHost fun h =>
    { h with records := h.records.map empty }
  let s := s.setLost (s.host.writeLost.filter fun e => e.1 != nsid)
  let s := s.modNs nsid fun n => { n with map := [], capsules := [], granted := 0, formatting := false, keyLost := false, slot }
  (List.range s.host.records.length).foldl (fun s id =>
    s.when ((s.host.records[id]?).any fun r => r.nsid == nsid) fun s => s.journal (recordRow id)) s

/-- A namespace is gone: its units, bands and records are free (R259). -/
def State.removeNamespace (s : State) (nsid : Nat) : State :=
  let s := s.dropNamespaceData nsid
  let s := s.modHost fun h =>
    { h with namespaces := h.namespaces.filter fun n => n.nsid != nsid
             records := h.records.map fun r => if r.nsid == nsid then { r with nsid := 0, state := .empty } else r }
  let s := s.setLost (s.host.writeLost.filter fun e => e.1 != nsid)
  (s.mapRegion).journal (deviceRow (32 + nsid))

/-! ### The end of a slot operation (R320) -/

/-- What a slot operation's end does for its command: a Create makes its namespace, a Delete removes it, a Format or
Sanitize empties it and completes with the last of its operations. -/
def State.opEffect (s : State) (o : SlotOp) (slot : Option Nat) : State :=
  match o.command.bind s.findCmd with
  | none => s
  | some c =>
    match c.op with
    | .nsCreate fields =>
      let (nsid, s) := s.nsMade fields o.slot
      s.mapRegion.finish c.fseq .success nsid
    | .nsDelete => (s.removeNamespace c.nsid).finish c.fseq .success
    | .format | .sanitize _ =>
      let s := match s.host.namespaces.find? fun n => n.slot == o.slot with
        | some n => match slot with
          | some k => s.emptyNamespace n.nsid k
          | none => s.modNs n.nsid fun n => { n with formatting := false }
        | none => s
      if s.cab.ops.any fun q => q.command == o.command then s
      else s.finish c.fseq (if slot.isSome then .success else .internalError)
    | _ => s

/-- The operation at the head may complete: no request names its slot (R332), the commands its Delete waits for have
completed (R263), and the top 2 GiB hold no page before the first Managed Create completes (R294). -/
def State.opReady (s : State) (o : SlotOp) : Bool :=
  let free := o.op == 0 || !s.slotNamed o.slot
  match o.command.bind s.findCmd with
  | none => free
  | some c =>
    let room := match c.op with
      | .nsCreate f => kindOf f != .managed || s.isSet .BRG_STAT_MAP_RSV || decide (524288 ≤ s.rd .BRG_VSTORE_FREE)
      | _ => true
    free && c.waits.isEmpty && room

/-- SLOT_OP_COMPLETE: the operation in progress completes and sets DONE. -/
def State.slotOpComplete (s : State) : State :=
  match s.cab.ops with
  | [] => s
  | o :: rest =>
    if !s.opReady o then s
    else
      let (slot, s) := s.slotEffect o
      let s := (s.modCab fun c => { c with ops := rest }).flag .CAB_STAT_DONE
      (s.opEffect o slot).opsRefresh

/-! ### Meanings -/

def execNamespaceCreate (fseq : Nat) (s : State) : Host.Outcome State Fault Refusal := .next (s.nsCreate fseq)
def execNamespaceDelete (fseq : Nat) (s : State) : Host.Outcome State Fault Refusal := .next (s.nsDelete fseq)
def execNamespaceAttach (fseq : Nat) (s : State) : Host.Outcome State Fault Refusal := .next (s.nsAttach fseq)
def execNamespaceDetach (fseq : Nat) (s : State) : Host.Outcome State Fault Refusal := .next (s.nsDetach fseq)
def execFormatNvm (fseq : Nat) (s : State) : Host.Outcome State Fault Refusal := .next (s.formatNvm fseq)
def execSanitizeCryptoErase (fseq : Nat) (s : State) : Host.Outcome State Fault Refusal := .next (s.sanitize fseq)
def execSlotOpComplete (s : State) : Host.Outcome State Fault Refusal := .next s.slotOpComplete

end Sys2Proof.Machine
end

