-- ==== Sys2Proof/Machine/Controllers.lean ====
section
/-! DEFINITION. Machine/Controllers.lean: ports, controllers and their resets (R245 to R250, R264, R265), NVMe-MI (R255),
and the meanings of their commands. -/
namespace Sys2Proof.Machine

/-! ### Controller-level reset (R250) -/

/-- What a controller-level reset makes of one of the controller's commands. -/
def State.resetCmd (s : State) (f : Nat) : State :=
  match s.findCmd f with
  | none => s
  | some c =>
    let gone (s : State) : State := (s.modHost fun h => { h with cmds := h.cmds.filter fun e => e.fseq != f }).releaseCmd c
    let whole := c.op.isWrite && c.started && !s.writeIncomplete f && c.ready.all fun r => r.1 == .success
    if whole then gone (s.advanceWp c)
    else if c.op.isWrite then if c.ready.isSome then gone s else gone (s.failWrite f .success)
    else if c.ready.isNone && c.started && (c.accepted || !c.waits.isEmpty) && c.op != .flush then
      s.modCmd f fun c => { c with silent := true }
    else gone (Str.all.foldl (fun s x => s.detachOf x f) s)

/-- A controller-level reset of controller `k`: its commands end as R250 says, its stream queues are deleted, its queues and
features are gone; reservations stay. Its Cibor replies are discarded, its packets still complete (R387). -/
def State.controllerReset (s : State) (k : Nat) : State :=
  let mine := (s.host.cmds.filter fun c => c.hqe == k).map (·.fseq)
  let s := mine.foldl State.resetCmd s
  let s := (s.host.streams.filter fun t => t.hqe == k).foldl (fun s t => s.releaseStream t false) s
  let s := s.modController k fun _ => { Controller.atReset with wasReset := true }
  let s := ((s.unflag .HQEn_STAT_EN (k * 65536)).unflag .HQEn_STAT_RDY (k * 65536)).wr .HQEn_STAT_SHST 0 (k * 65536)
  let s := s.modBur fun b =>
    { b with replies := b.replies.filter fun r => r.source != k
             requests := b.requests.map fun r => if r.source == k then { r with source := 10 } else r }
  (((s.ioqRefresh k).outRefresh k).phvSweep).settleWaits.refreshMode

/-- Controllers presented on a port. -/
def State.portControllers (s : State) (port : Nat) : List Nat :=
  (List.range 8).filter fun k => s.presented k && s.portOf k == port

/-- A port exists: port 1 in dual-port wiring alone (R245). -/
def State.portExists (s : State) (port : Nat) : Bool := port == 0 || (port == 1 && s.isSet .PCIE_CFG_DUAL)

/-- CC_EN_SET: the controller is enabled and will be ready. -/
def State.ccEnable (s : State) (k ams : Nat) : State :=
  if !s.presented k || (s.controller k).any (·.enabled) then s
  else (s.modController k fun c => { c with enabled := true, ams, starting := true }).flag .HQEn_STAT_EN (k * 65536)

/-- CC_EN_CLEAR. -/
def State.ccDisable (s : State) (k : Nat) : State := if (s.controller k).any (·.enabled) then s.controllerReset k else s

/-- CONTROLLER_READY: CSTS.RDY is 1, and RST_DONE is set after a reset. -/
def State.controllerReady (s : State) (k : Nat) : State :=
  match s.controller k with
  | none => s
  | some c =>
    if !c.starting then s
    else
      let s := (s.flag .HQEn_STAT_RDY (k * 65536)).when c.wasReset fun s => s.flag .HQEn_STAT_RST_DONE (k * 65536)
      s.modController k fun c => { c with starting := false, wasReset := false }

/-- A reset of one function: Function Level Reset, FORCE_RST. -/
def State.functionReset (s : State) (k : Nat) : State := if s.presented k then s.controllerReset k else s

/-! ### Ports (R246, R250, R265) -/

/-- Status fields of a port: up, rate, width. -/
def portRegs (port : Nat) : Reg × Reg × Reg :=
  if port = 0 then (.PCIE_STAT_UP0, .PCIE_STAT_SPD0, .PCIE_STAT_WID0) else (.PCIE_STAT_UP1, .PCIE_STAT_SPD1, .PCIE_STAT_WID1)

/-- A port's data link is down, or up at a rate and width; LINK of its controllers follows. -/
def State.setLink (s : State) (port : Nat) (up : Bool) (speed width : Nat) : State :=
  let (u, v, w) := portRegs port
  let s := ((s.setTo u up).wr v speed).wr w width
  (s.portControllers port).foldl (fun s k => s.setTo .HQEn_STAT_LINK up (k * 65536)) s

/-- PERST of a port is asserted or not; the port trains or not. -/
def State.setPort (s : State) (port : Nat) (perst training : Bool) : State :=
  s.modHost fun h => { h with perst := h.perst.set port perst, training := h.training.set port training }

/-- The controllers of a port are reset. -/
def State.resetPort (s : State) (port : Nat) : State := (s.portControllers port).foldl State.controllerReset s

/-- PERST_ASSERT. -/
def State.perstAssert (s : State) (port : Nat) : State :=
  if s.portExists port then ((s.resetPort port).setLink port false 0 0).setPort port true false else s

/-- PERST_DEASSERT: link training starts. -/
def State.perstDeassert (s : State) (port : Nat) : State :=
  if s.portExists port && s.host.perst.getD port false then s.setPort port false true else s

/-- Widths of a link: x4, x2, x1 (R251). -/
def linkWidth (lanes : Nat) : Nat := if 4 ≤ lanes then 4 else if 2 ≤ lanes then 2 else 1

/-- LINK_TRAINED: the highest rate that MAXSPD and the partner permit, the widest width that the lanes support. -/
def State.linkTrained (s : State) (port speed width : Nat) : State :=
  if s.portExists port && s.host.training.getD port false then
    let most := s.eff (if port = 0 then .PCIE_CFG_MAXSPD0 else .PCIE_CFG_MAXSPD1)
    let lanes := if s.isSet .PCIE_CFG_DUAL then 2 else 4
    (s.setLink port true (min most (max 1 speed)) (linkWidth (min lanes width))).setPort port false false
  else s

/-- DL_DOWN: a controller-level reset of the port's controllers; the port trains again. -/
def State.dlDown (s : State) (port : Nat) : State :=
  if s.portExists port && s.isSet (portRegs port).1 then
    let s := ((s.resetPort port).setLink port false 0 0).flag (if port = 0 then .PCIE_STAT_DLDN0 else .PCIE_STAT_DLDN1)
    s.setPort port false true
  else s

/-! ### NVMe-MI and the basic management command (R255) -/

/-- Words of an answer. -/
def State.miReply (s : State) (ws : List Nat) : State :=
  (ws.mapIdx fun i w => (i, w)).foldl (fun s e => s.emit (.mi e.1 e.2)) s

/-- Percentage Used (R312). -/
def State.percentUsed (s : State) : Nat := min 255 (s.rd .CHST_LIFE_LIFE / 100)

/-- Read NVMe-MI Data Structure: 0 subsystem information, 1 port information, 2 controller list, 3 controller
information. Others are answered with no word. -/
def State.miDataStructure (s : State) (kind k : Nat) : State :=
  let ports := if s.isSet .PCIE_CFG_DUAL then 2 else 1
  let present := (List.range 8).filter s.presented
  match kind with
  | 0 => s.miReply [ports, 1, 2]
  | 1 => s.miReply [if k = 0 then s.rd .PCIE_STAT_SPD0 else s.rd .PCIE_STAT_SPD1, if k = 0 then s.rd .PCIE_STAT_WID0 else s.rd .PCIE_STAT_WID1]
  | 2 => s.miReply (present.map (· + 1))
  | 3 => s.miReply [k + 1, s.portOf k, 0x4810]
  | _ => s

/-- NVM Subsystem Health Status Poll: composite degradation, warnings, percentage used. -/
def State.miSubsystemHealth (s : State) : State :=
  s.miReply [boolNat (s.isSet .CHST_STAT_LIFE_WARN || s.isSet .PWR_STAT_DEGR), s.criticalWarning, s.composite, s.percentUsed]

/-- Controller Health Status Poll. -/
def State.miControllerHealth (s : State) (k : Nat) : State :=
  s.miReply [k + 1, s.rd .HQEn_STAT_RDY (k * 65536) + 2 * s.rd .HQEn_STAT_CFS (k * 65536) + 4 * s.rd .HQEn_STAT_SHST (k * 65536), s.composite, s.percentUsed]

/-- Configuration Set and Get: SMBus frequency 1, health status change 2, MCTP transmission unit 3. -/
def State.miConfigSet (s : State) (id value : Nat) : State :=
  if 1 ≤ id && id ≤ 3 then s.modHost fun h => { h with miConfig := storePut h.miConfig id (value % 2 ^ 32) } else s

def State.miConfigGet (s : State) (id : Nat) : State := s.miReply [(storeFind s.host.miConfig id).getD 0]

/-- VPD bytes. What nothing has written is not stated. -/
def State.vpdRead (s : State) (offset n : Nat) : State :=
  (List.range (min n 4096)).foldl (fun s i =>
    match storeFind s.host.vpd (offset + i) with
    | some v => s.emit (.mi (offset + i) v)
    | none => (s.emit (.mi (offset + i) (s.free % 256))).drawn) s

def State.vpdWrite (s : State) (offset : Nat) (bytes : List Nat) : State :=
  (bytes.mapIdx fun i b => (offset + i, b % 256)).foldl (fun s e => s.modHost fun h => { h with vpd := storePut h.vpd e.1 e.2 }) s

/-- The basic management command: drive ready, warnings, percentage used. -/
def State.basicManagement (s : State) : State :=
  s.miReply [boolNat s.serves, s.criticalWarning, s.composite, s.percentUsed]

/-! ### Meanings -/

def execPerstAssert (port : Nat) (s : State) : Host.Outcome State Fault Refusal := .next (s.perstAssert port)
def execLinkTrained (port speed width : Nat) (s : State) : Host.Outcome State Fault Refusal := .next (s.linkTrained port speed width)
def execDlDown (port : Nat) (s : State) : Host.Outcome State Fault Refusal := .next (s.dlDown port)
def execCcEnClear (hqe : Nat) (s : State) : Host.Outcome State Fault Refusal := .next (s.ccDisable hqe)
def execCcEnSet (hqe ams : Nat) (s : State) : Host.Outcome State Fault Refusal := .next (s.ccEnable hqe ams)
def execControllerReady (hqe : Nat) (s : State) : Host.Outcome State Fault Refusal := .next (s.controllerReady hqe)
def execFunctionLevelReset (hqe : Nat) (s : State) : Host.Outcome State Fault Refusal := .next (s.functionReset hqe)
def execForceRst (hqe : Nat) (s : State) : Host.Outcome State Fault Refusal := .next (s.functionReset hqe)

end Sys2Proof.Machine
end

