-- ==== Sys2Proof/Machine/Integrity.lean ====
section
/-! DEFINITION. Machine/Integrity.lean: maintenance of the Bureau's L2 caches (R404 to R409), leaky buckets and scrubbing (R412 to R416),
the diagnostic window and initialisation (R417, R418), and the meanings of their commands. -/
namespace Sys2Proof.Machine

/-! ### Maintenance of the caches (R405, R408) -/

/-- The lines that satisfy `p` are cleaned: the dirty ones written to memory and kept. -/
def State.cleanLines (s : State) (n : Nat) (p : L2Line → Bool) : State :=
  let s := ((s.cache n).lines.filter fun l => p l && l.dirty).foldl State.writeLine s
  s.modCache n fun c => { c with lines := c.lines.map fun l => if p l then { l with dirty := false } else l }

/-- The lines that satisfy `p`, and side-buffer entries whose address satisfies `q`, are dropped. -/
def State.dropLines (s : State) (n : Nat) (p : L2Line → Bool) (q : Nat → Bool) : State :=
  s.modCache n fun c => { c with lines := c.lines.filter fun l => !p l, side := c.side.filter fun e => !q e.1 }

/-- A maintenance operation names a line (R405). -/
def L2Op.names (o : L2Op) (l : L2Line) : Bool :=
  if o.bySet then l2Set l.addr == o.set && l.way == o.way
  else decide (o.addr / 64 ≤ l.addr / 64) && decide (l.addr / 64 < o.addr / 64 + o.lines)

/-- It names a side-buffer entry: by address alone. -/
def L2Op.namesSide (o : L2Op) (a : Nat) : Bool :=
  !o.bySet && decide (o.addr / 64 ≤ a / 64) && decide (a / 64 < o.addr / 64 + o.lines)

/-- What a maintenance operation does. -/
def State.applyOp (s : State) (n : Nat) (o : L2Op) : State :=
  let s := s.when (o.op != 1) fun s => s.cleanLines n o.names
  s.when (o.op != 0) fun s => s.dropLines n o.names o.namesSide

/-- L2_MAINT_GO: issued, queued one deep behind an operation or a walk, or ignored with MERR (R405). -/
def State.maintGo (s : State) (n : Nat) : State :=
  let i := l2Ix n
  let op := s.rd .L2n_MAINT_OP i
  let o : L2Op :=
    { op, bySet := s.isSet .L2n_MAINT_BY i, set := s.rd .L2n_MAINT_SET i, way := s.rd .L2n_MAINT_WAY i
      addr := s.rd .L2n_MADDRLO_ADDR i * 64 + s.rd .L2n_MADDRHI_ADDR i * 2 ^ 32, lines := s.eff .L2n_MCOUNT_LINES i }
  if 4 ≤ n then s
  else if op = 3 then s.flag .L2n_STAT_MERR i
  else if (s.cache n).running.isNone && !s.isSet .L2n_STAT_WALK i then s.modCache n fun c => { c with running := some o }
  else if (s.cache n).queued.isNone then s.modCache n fun c => { c with queued := some o }
  else s.flag .L2n_STAT_MERR i

/-- The queued operation starts once nothing is ahead of it. -/
def State.maintNext (s : State) (n : Nat) : State :=
  let c := s.cache n
  if c.running.isNone && c.queued.isSome && !s.isSet .L2n_STAT_WALK (l2Ix n) then
    s.modCache n fun c => { c with running := c.queued, queued := none }
  else s

/-- L2_MAINT_DONE: the operation takes effect and sets MDONE. -/
def State.maintDone (s : State) (n : Nat) : State :=
  match (s.cache n).running with
  | none => s
  | some o => (((s.applyOp n o).modCache n fun c => { c with running := none }).flag .L2n_STAT_MDONE (l2Ix n)).maintNext n

/-- The disable walk starts (R408). -/
def State.startWalk (s : State) (n : Nat) : State :=
  if s.isSet .L2n_STAT_ENABLED (l2Ix n) && !s.isSet .L2n_STAT_WALK (l2Ix n) then s.flag .L2n_STAT_WALK (l2Ix n) else s

/-- L2_DISABLE: EN = 0. -/
def State.l2Disable (s : State) (n : Nat) : State := if 4 ≤ n then s else (s.unflag .L2n_CTRL_EN (l2Ix n)).startWalk n

/-- EN = 1: the cache is in use at once, or when a walk in progress ends (R408). -/
def State.l2Enable (s : State) (n : Nat) : State :=
  let s := s.flag .L2n_CTRL_EN (l2Ix n)
  if s.isSet .L2n_STAT_WALK (l2Ix n) then s else s.flag .L2n_STAT_ENABLED (l2Ix n)

/-- A word is poisoned in memory. -/
def State.poisonWord (s : State) (a : Nat) : State :=
  s.modMemory fun m => { m with poisoned := if m.poisoned.contains (a / 8 * 8) then m.poisoned else a / 8 * 8 :: m.poisoned }

/-- DISABLE_WALK_END: every dirty line is in memory, an uncorrectable one as poison (R409); the cache and the side buffer
are empty; WALKT records T, in which each of D write-backs takes 2 to 4 ns. -/
def State.walkEnd (s : State) (n writeNs : Nat) (bad : List Nat) : State :=
  let i := l2Ix n
  if !s.isSet .L2n_STAT_WALK i then s
  else
    let dirty := (s.cache n).lines.filter (·.dirty)
    let d := dirty.length
    let s := s.cleanLines n fun l => !bad.contains l.addr
    let s := (dirty.filter fun l => bad.contains l.addr).foldl (fun s l =>
      ((List.range 8).foldl (fun s k => s.poisonWord (l.addr + 8 * k)) s).uncorrectable (16 + n) l.addr 0) s
    let s := (s.dropLines n (fun _ => true) fun _ => true).wr .L2n_WALKT_NS (500 + max 4096 (clampNat (2 * d) (4 * d) writeNs)) i
    ((s.unflag .L2n_STAT_WALK i).setTo .L2n_STAT_ENABLED (s.isSet .L2n_CTRL_EN i) i).maintNext n

/-- RAT_INVALIDATE (R404): VALID = 0; with the cache in use, the entry's range is cleaned and invalidated first. -/
def State.ratInvalidate (s : State) (n e : Nat) : State :=
  let i := l2Ix n e
  if 4 ≤ n || 16 ≤ e || !s.isSet .L2n_RAT_CTL_VALID i then s
  else
    let lo := s.rd .L2n_RAT_BASE_BASE i
    let hi := s.rd .L2n_RAT_LIMIT_LIMIT i
    let inside (a : Nat) : Bool := decide (lo ≤ a / 65536) && decide (a / 65536 ≤ hi)
    let s := s.when (s.isSet .L2n_STAT_ENABLED (l2Ix n)) fun s =>
      (s.cleanLines n fun l => inside l.addr).dropLines n (fun l => inside l.addr) inside
    s.unflag .L2n_RAT_CTL_VALID i

/-! ### Buckets and the scrubber -/

/-- BUCKET_LEAK (R412). -/
def State.bucketLeak (s : State) (i : Nat) (c : Option (Nat × Nat)) : State :=
  if 48 ≤ i then s
  else
    match c with
    | some (a, synd) => s.correction i a synd true
    | none => s.wr .MI_I_STAT_LEVEL (s.rd .MI_I_STAT_LEVEL i - 1) i

/-- A zone record is lost: its zone goes Offline, its pending writes end (R213, R414). -/
def State.recordOffline (s : State) (id : Nat) : State :=
  match s.host.records[id]? with
  | none => s
  | some r =>
    if r.nsid = 0 || r.state == .offline then s
    else
      let s := (s.withdrawWrites r.str fun q => q.zone == some id).abandonClean id
      let managed := (s.ns r.nsid).any fun n => n.kind == .managed
      let mine (v : Version) : Bool := !managed && v.nsid == r.nsid && v.lba / 131072 == r.index
      let failed := (s.bridge.versions.filter mine).map (·.fseq)
      let fail (v : Version) : Version := if mine v then { v with state := .failed, issued := [] } else v
      let s := s.modBridge fun b => { b with versions := b.versions.map fail }
      let lost (c : Cmd) : Cmd :=
        if failed.contains c.fseq && c.ready.isNone then { c with ready := some (.internalError, 0, 0), owed := [] } else c
      let s := s.modHost fun h => { h with cmds := h.cmds.map lost, changedZones := h.changedZones ++ [(r.nsid, r.index)] }
      s.setZone id fun r => { r with state := .offline }

/-- What the loss of a word does to its owner (R414). -/
def State.ownerLoses (s : State) : WordOwner → State
  | .version f l =>
    match s.findVersion f with
    | none => s
    | some v =>
      if v.state == .xfer then s.failWrite f .writeFault
      else if v.state == .ready && v.open'.contains l && !v.lost.contains l then
        let zero (v : Version) : Version := { v with lost := l :: v.lost, data := v.data.set (l - v.lba) 0 }
        (s.modVersion f zero).markLost v.nsid l
      else s
  | .cell x id p =>
    if (s.str.get x).wrp.cells.contains (id, p) && ((s.wsqPlaces x).any fun e => e.1.id == id && e.2.p == p && e.1.source == .host) then
      (s.modWrp x fun w => { w with cells := w.cells.erase (id, p) }).giveCells x 1
    else s
  | .page f l =>
    if (s.findCmd f).any fun c => c.block l == some .held then
      s.modBridge fun b => { b with poisonPages := (f, l) :: b.poisonPages.filter (· != (f, l)) }
    else s
  | .record id => s.recordOffline id
  | .other => s

/-- Which words the scrubber visits (R413): not the Bureau caches, and not a block whose valid bit is 0. A word it is asked to
visit (R411) needs no scrubbing enabled. -/
def State.scrubs (s : State) (i a : Nat) : Bool :=
  (s.isSet .SCB_MS_CTRL_EN || s.memory.asked.contains (a / 8 * 8)) && 20 ≤ i && decide (i < 48)
    && (45 ≤ i || !s.isSet .MI_I_CFG_INIT_MODE i || s.memory.valid.contains (a / 256))

/-- What the scrubber finds in a word: of one whose check bits were written raw (R417), what those make of it. -/
def State.scrubFinds (s : State) (a : Nat) (r : ScrubResult) : ScrubResult :=
  match storeFind s.memory.check (a / 8 * 8) with
  | none => r
  | some _ =>
    let owner := match r with | .uncorrectable _ o => o | _ => .other
    match s.codeStatus a with
    | 0 => .clean
    | 1 => .corrected (Config.syndrome (a / 8 * 8))
    | _ => .uncorrectable (Config.syndrome (a / 8 * 8)) owner

/-- A correctable word is rewritten as it reads corrected, with good check bits. -/
def State.rewriteCorrected (s : State) (a : Nat) : State :=
  let w := a / 8 * 8
  if (storeFind s.memory.check w).isNone then s
  else
    let s := match s.target w with
      | .memory m =>
        let (v, s) := s.readMem m w 8
        s.writeMem m w (Config.correctedWord w v % 2 ^ 64) 8
      | _ => s
    s.modMemory fun y => { y with check := y.check.filter fun e => e.1 != w }

/-- SCRUB_STEP (R413, R414): a correctable word is rewritten, an uncorrectable one poisoned and its owner handled. -/
def State.scrubStep (s : State) (i a : Nat) (r : ScrubResult) (last : Bool) : State :=
  if !s.scrubs i a then s
  else
    let row (s : State) : State := s.when (i == 47) fun s => s.chestRow 4 ((a - 0x200000000) / 64)
    let r := s.scrubFinds a r
    let s := s.modMemory fun y => { y with asked := y.asked.filter (· != a / 8 * 8) }
    let s := match r with
      | .clean => s
      | .corrected synd => row (((s.correction i a synd).rewriteCorrected a).bump .SCB_MS_CNT0_FIXED)
      | .uncorrectable synd owner =>
        let s := ((s.uncorrectable i a synd).flag .MI_I_STAT_POISON i).bump .MI_I_UE_POISONED i
        (row ((s.poisonWord a).bump .SCB_MS_CNT0_POISONED)).ownerLoses owner
    s.when last fun s =>
      if i < 45 then s.bump .SCB_MS_CNT1_SRAM_PASS else if i < 47 then s.bump .SCB_MS_CNT1_DDR_PASS else s

/-! ### Diagnostic window and initialisation -/

/-- Word address of the diagnostic window. -/
def State.diagAddr (s : State) : Nat := s.rd .MI_DIAG_ALO_ADDR * 8 + s.rd .MI_DIAG_AHI_ADDR * 2 ^ 32

/-- RAWRD (R417): the stored data and check bits, in Maintenance alone. -/
def State.rawRead (s : State) : State :=
  if s.mode != 7 then s.flag .MI_DIAG_CMD_CFG_LOCKED
  else
    let a := s.diagAddr
    let (v, s) := match s.target a with
      | .memory m => s.readMem m a 8
      | .control x q w off => (s.readControl x q w off + s.readControl x q w (off + 4) * 2 ^ 32, s)
      | _ => (0, s)
    let chk := (storeFind s.memory.check a).getD (Config.checkBits a v)
    let s := (s.wr .MI_DIAG_DLO_DATA (v % 2 ^ 32)).wr .MI_DIAG_DHI_DATA (v / 2 ^ 32)
    (s.wr .MI_DIAG_CHK_CHK chk).flag .MI_DIAG_CMD_DONE

/-- RAWWR (R417): data and check bits stored exactly as written. -/
def State.rawWrite (s : State) : State :=
  if s.mode != 7 then s.flag .MI_DIAG_CMD_CFG_LOCKED
  else
    let a := s.diagAddr
    let v := s.rd .MI_DIAG_DLO_DATA + s.rd .MI_DIAG_DHI_DATA * 2 ^ 32
    let s := match s.target a with
      | .memory m => s.regionWrite m a v 8
      | .control x q w off =>
        let k := q.ix x / 65536 * 4096 + w
        let old := (storeFind s.control k).getD 0
        let lo := 2 ^ (8 * off)
        let word := old - (old / lo % 2 ^ 64) * lo + v * lo
        { s with control := storePut s.control k (word % 2 ^ 144) }
      | _ => s
    (s.modMemory fun m => { m with check := storePut m.check a (s.rd .MI_DIAG_CHK_CHK) }).flag .MI_DIAG_CMD_DONE

/-- FILL of an SRAM instance (R418). -/
def State.fill (s : State) (i : Nat) : State := if i < 45 then s.flag .MI_I_STAT_FILL_BUSY i else s

/-- FILL_COMPLETE: every invalid block holds zero; INIT_MODE is 0. -/
def State.fillComplete (s : State) (i : Nat) : State :=
  if i < 45 && s.isSet .MI_I_STAT_FILL_BUSY i then
    ((s.unflag .MI_I_STAT_FILL_BUSY i).unflag .MI_I_CFG_INIT_MODE i).modMemory fun m =>
      { m with filled := if m.filled.contains i then m.filled else i :: m.filled }
  else s

/-! ### Meanings -/

def execL2MaintGo (n : Nat) (s : State) : Host.Outcome State Fault Refusal := .next (s.maintGo n)
def execL2MaintDone (n : Nat) (s : State) : Host.Outcome State Fault Refusal := .next (s.maintDone n)
def execL2Disable (n : Nat) (s : State) : Host.Outcome State Fault Refusal := .next (s.l2Disable n)
def execDisableWalkEnd (n writeNs : Nat) (bad : List Nat) (s : State) : Host.Outcome State Fault Refusal := .next (s.walkEnd n writeNs bad)
def execRatInvalidate (n i : Nat) (s : State) : Host.Outcome State Fault Refusal := .next (s.ratInvalidate n i)
def execBucketLeak (i : Nat) (correction : Option (Nat × Nat)) (s : State) : Host.Outcome State Fault Refusal :=
  .next (s.bucketLeak i correction)
def execScrubStep (i addr : Nat) (result : ScrubResult) (last : Bool) (s : State) : Host.Outcome State Fault Refusal :=
  .next (s.scrubStep i addr result last)
def execRawrd (s : State) : Host.Outcome State Fault Refusal := .next s.rawRead
def execRawwr (s : State) : Host.Outcome State Fault Refusal := .next s.rawWrite
def execFill (i : Nat) (s : State) : Host.Outcome State Fault Refusal := .next (s.fill i)
def execFillComplete (i : Nat) (s : State) : Host.Outcome State Fault Refusal := .next (s.fillComplete i)

end Sys2Proof.Machine
end

