-- ==== Sys2Proof/Machine/Session.lean ====
section
/-! DEFINITION. Machine/Session.lean: what several of the last blocks share: Bureau cores by their state (R378, R380, R399),
the way to Standby (R430), a Bench session's end (R469, R472), and the life-cycle state by the fuses with what a transition
does (R458 to R461). -/
namespace Sys2Proof.Machine

/-! ### Bureau cores -/

/-- A core's state set. -/
def State.setCore (s : State) (c v : Nat) : State :=
  let old := s.rd .BURn_STAT_STATE (c / 4 * 65536)
  s.wr .BURn_STAT_STATE (old - s.coreState c * 4 ^ (c % 4) + v % 4 * 4 ^ (c % 4)) (c / 4 * 65536)

/-- Degraded for want of cores (R428): 7 or fewer in service. -/
def State.coresDegr (s : State) : State := s.setDegr 3 (decide (s.coresIn.length ≤ 7))

/-! ### Tasks of the base firmware (R377, R379) -/

/-- Cores that the classes 1 to 6 want on a variant. -/
def coresWanted (isD : Bool) : List Nat := [if isD then 2 else 4, 2, 3, 3, 2, 2]

/-- The tasks of a variant, in class order, none of them placed. -/
def tasksOf (isD : Bool) : List (Nat × Option Nat) :=
  ((coresWanted isD).mapIdx fun k n => List.replicate n (k + 1, none)).flatten

/-- Classes of the tasks on a core. -/
def classesOn (tasks : List (Nat × Option Nat)) (core : Nat) : List Nat :=
  (tasks.filter fun t => t.2 == some core).map (·.1)

/-- A core that runs `there` may take a task of class `k`: no core runs class 1 and class 6. -/
def mayJoin (k : Nat) (there : List Nat) : Bool := !(k == 1 && there.contains 6) && !(k == 6 && there.contains 1)

/-- The first core of a list for which `f` is greatest. -/
def bestCore (f : Nat → Nat) (cores : List Nat) : Option Nat :=
  (cores.map f).max?.bind fun m => cores.find? fun c => f c == m

/-- The core that a task of class `k` takes: an empty one; else one whose classes all give precedence to it, the lowest in
precedence first; else one to share, of its own class if there is one, the least loaded. -/
def coreFor (cores : List Nat) (tasks : List (Nat × Option Nat)) (k : Nat) : Option Nat :=
  let on := classesOn tasks
  (cores.find? fun c => (on c).isEmpty)
  <|> bestCore (fun c => ((on c).min?).getD 0) (cores.filter fun c => (on c).all fun e => decide (k < e))
  <|> bestCore (fun c => 64 - (on c).length) (cores.filter fun c => (on c).all (· == k))
  <|> bestCore (fun c => 64 - (on c).length) (cores.filter fun c => mayJoin k (on c))

/-- Tasks that have no core are placed, the lowest class first; those that give way are placed after it. -/
def placeTasks (cores : List Nat) : Nat → List (Nat × Option Nat) → List (Nat × Option Nat)
  | 0, tasks => tasks
  | fuel + 1, tasks =>
    match (tasks.filter fun t => t.2.isNone && (coreFor cores tasks t.1).isSome).map (·.1) |>.min? with
    | none => tasks
    | some k =>
      match coreFor cores tasks k, tasks.findIdx? fun t => t == (k, none) with
      | some c, some i =>
        let way (t : Nat × Option Nat) : Nat × Option Nat := if t.2 == some c && decide (k < t.1) then (t.1, none) else t
        placeTasks cores fuel ((tasks.map way).set i (k, some c))
      | _, _ => tasks

/-- A core without a task takes the first task, in class order, that shares its core. -/
def spreadTasks (cores : List Nat) (tasks : List (Nat × Option Nat)) : List (Nat × Option Nat) :=
  cores.foldl (fun l c =>
    if !(classesOn l c).isEmpty then l
    else
      match l.findIdx? fun t => t.2.any fun d => decide (2 ≤ (classesOn l d).length) with
      | some i => l.set i ((l.getD i (0, none)).1, some c)
      | none => l) tasks

/-- The scheduler places the tasks on the cores in service that are not halted, those of `far` first; class 6 is suspended
below eight cores (R380). -/
def State.scheduleTasks (s : State) (far : Nat → Bool) : State :=
  let cores := s.coresIn.filter fun c => !s.bit .BNCH_STAT_HALTED c
  let sorted := cores.filter far ++ cores.filter fun c => !far c
  let stay (t : Nat × Option Nat) : Nat × Option Nat :=
    if t.2.any cores.contains then t else (t.1, none)
  let kept := s.bur.tasks.map stay
  let suspended (t : Nat × Option Nat) : Bool := t.1 == 6 && decide (s.coresIn.length < 8)
  let run := kept.filter fun t => !suspended t
  let rest := (kept.filter suspended).map fun t => (t.1, (none : Option Nat))
  { s with bur := { s.bur with tasks := spreadTasks sorted (placeTasks sorted 256 run) ++ rest } }

/-- The tasks of a core restart on others, each counted as a migration; after a fault of the L2 or the cluster those of another
cluster are preferred (R379). -/
def State.moveTasks (s : State) (c : Nat) (clusterFault : Bool) : State :=
  let mine := (classesOn s.bur.tasks c).length
  let s := (List.range mine).foldl (fun s _ => s.bump .BURn_CNT_MIGRATE (c / 4 * 65536)) s
  let off (t : Nat × Option Nat) : Nat × Option Nat := if t.2 == some c then (t.1, none) else t
  let s : State := { s with bur := { s.bur with tasks := s.bur.tasks.map off } }
  s.scheduleTasks fun d => d != c && !(clusterFault && d / 4 == c / 4)

/-- The core that a task of a class runs on. -/
def State.coreOf (s : State) (cls : Nat) : Option Nat := s.bur.tasks.findSome? fun (t : Nat × Option Nat) => if t.1 == cls then t.2 else none

/-! ### To Standby -/

/-- HEADS_UNLOAD, then SPE STOP; the mode is Standby once the heads are parked and the spindle is OFF (R430). -/
def State.goStandby (s : State) : State :=
  let s := { s with power := { s.power with standbyDue := true, startDue := false } }
  let s := Str.all.foldl (fun s x => s.onStr x fun s => s.requestRetract x .planned) s
  s.speStopOp.refreshMode

/-! ### Bench sessions -/

/-- SCE of String `x` leaves HALTED for UNLOADED (R110). -/
def State.sceResume (s : State) (x : Str) : State := s.when (s.sceState x == 6) fun s => s.wr .SCEx_STAT_STATE 0 x.ix

/-- Every halted engine resumes (R472). -/
def State.resumeEngines (s : State) : State :=
  let s := Str.all.foldl State.sceResume s
  State.scheduleTasks { s.wr .BNCH_STAT_HALTED 0 with bench := { s.bench with halted := [] } } fun _ => true

/-- The session closes: engines resume, and replies to packets that came over DBG are discarded (R469, R472). -/
def State.closeSession (s : State) : State :=
  let s := (s.unflag .BNCH_STAT_SESSION).resumeEngines
  s.modBur fun b =>
    { b with requests := b.requests.map fun r => if r.source == 9 then { r with source := 10 } else r
             transfers := b.transfers.filter fun t => t.source != 9 }

/-! ### Life cycle -/

/-- A field of the life-cycle state beside the registers changed. -/
def State.modLc (s : State) (f : LifeCycle → LifeCycle) : State := { s with lc := f s.lc }

/-- The state that the fuses give (R458). -/
def State.lifeState (s : State) : Nat :=
  if s.lc.scrap then 5
  else if s.rd .LC_STAT_REFIELD < s.rd .LC_STAT_RETCNT then 4
  else if s.lc.stage.testBit 2 then 3
  else if s.lc.stage.testBit 1 then 2
  else if s.lc.stage.testBit 0 then 1
  else 0

/-- LC_STAT.STATE and CAB_EPOCH follow the fuses. -/
def State.showLife (s : State) : State :=
  (s.wr .LC_STAT_STATE s.lifeState).wr .CAB_EPOCH_KEK_EPOCH (s.rd .LC_STAT_RETCNT)

/-- The twelve words of a key slot's hash, in LC_KEYHn (R473). -/
def keyWords (slot : Nat) : List Nat := (List.range 12).map (16 * slot + ·)

/-- Key hash of a slot. -/
def State.keyHash (s : State) (slot : Nat) : List Nat := (keyWords slot).map fun i => s.rd .LC_KEYH_HASH i

/-- A key, named by the hash of what is presented, is the one a slot trusts; a slot of zeros trusts none (R459). -/
def State.trusts (s : State) (slot : Nat) (key : List Nat) : Bool :=
  s.keyHash slot == key && key.any (· != 0)

/-- Hashes blown into slots from `first` on, twelve words each. -/
def State.blowHashes (s : State) (first : Nat) (ws : List Nat) : State :=
  (ws.mapIdx fun i w => (16 * (first + i / 12) + i % 12, w)).foldl (fun s e => s.wr .LC_KEYH_HASH e.2 e.1) s

/-- The identity fuses blown (R460). -/
def State.blowIdentity (s : State) (l : List Nat) : State :=
  let s := (List.range 4).foldl (fun s i => s.wr .LC_DEVID_ID (l.getD i 0) i) s
  let s := (s.wr .LC_PCIID_VID (l.getD 4 0)).wr .LC_PCIID_SSVID (l.getD 5 0)
  ((s.wr .LC_VAR_VARIANT (l.getD 6 0)).wr .LC_VAR_STEPPING (l.getD 7 0)).modLc fun c => { c with manufacturer := l.getD 8 0 }

/-- The fuses of a transition are blown (R458, R460, R461). The root secret is a new identity. -/
def State.blow (s : State) (t : Transition) : State :=
  let s := match t.target with
    | 1 => ((s.modLc fun l => { l with stage := l.stage ||| 1 }).blowHashes 0 t.hashes).blowIdentity t.identity
    | 2 =>
      let s := (s.modLc fun l => { l with stage := l.stage ||| 3, secret := s.cab.nextKey }).blowHashes 3 t.hashes
      { s with cab := { s.cab with nextKey := s.cab.nextKey + 1 } }
    | 3 => if s.lifeState = 4 then s.wr .LC_STAT_REFIELD (s.rd .LC_STAT_REFIELD + 1) else s.modLc fun l => { l with stage := l.stage ||| 7 }
    | 4 => s.wr .LC_STAT_RETCNT (s.rd .LC_STAT_RETCNT + 1)
    | _ => s.modLc fun l => { l with scrap := true }
  let s := s.showLife
  s.when (t.target == 4 || t.target == 5) State.epochKeys

/-- The effects of a transition beside the fuses (R460, R469): the session closes; into RETURN every namespace goes, with
reservations and stream armings, and the device goes to Standby. -/
def State.lifeEffects (s : State) (t : Transition) : State :=
  let s := s.closeSession
  if t.target = 4 then
    let s := s.host.streams.foldl (fun s e => s.releaseStream e false) s
    let s := (s.host.namespaces.map (·.nsid)).foldl State.removeNamespace s
    if s.mode = 1 || s.mode = 0 then s else s.goStandby
  else s

/-- The intent record stands, or is retired (R461). -/
def State.intend (s : State) (t : Option Transition) : State :=
  ((s.modLc fun l => { l with intent := t }).setTo .LC_STAT_PEND t.isSome).journal (deviceRow 3)

/-- A transition up to one of its four steps: a power loss cuts it short of the last (R461). -/
def State.transit (s : State) (t : Transition) (steps : Nat) : State :=
  let s := s.when (1 ≤ steps) fun s => s.intend (some t)
  let s := s.when (2 ≤ steps) fun s => s.blow t
  let s := s.when (3 ≤ steps) fun s => s.lifeEffects t
  s.when (4 ≤ steps) fun s => s.intend none

/-- At power-on: an intent whose fuses show the new state is completed; another is retired (R461). -/
def State.settleIntent (s : State) : State :=
  match s.lc.intent with
  | none => s
  | some t => (s.when (s.lifeState == t.target) fun s => s.lifeEffects t).intend none

end Sys2Proof.Machine
end

