-- ==== Sys2Proof/Machine/Retract.lean ====
section
/-! DEFINITION. Machine/Retract.lean: the power-loss event and emergency retract (R86, R109, R136, R173, R195, R241, R332,
R349, R370, R390, R406, R426, R434, R435). -/
namespace Sys2Proof.Machine

/-- A field of the power state beside the registers changed. -/
def State.modPower (s : State) (f : Power → Power) : State := { s with power := f s.power }

/-! ### What the event cancels -/

/-- The sequencer stops at once in STOPPED, its commit buffer discarded (R370). -/
def State.stopAtOnce (s : State) (x : Str) (q : SeqId) : State :=
  let s := ((s.wr .SQ_STAT_STATE 0 (q.ix x)).unflag .SQ_STAT_COMMITTED (q.ix x)).unflag .SQ_STAT_HANDLER (q.ix x)
  (s.modSeq x q fun u => { u with commit := [], armed := [], waiting := false, restart := false, stopPend := false }).sqRefresh x q

/-- Work of String `x` that is cancelled: sequencers, captures and passes, ladders (R173, R241). -/
def State.cancelString (s : State) (x : Str) : State :=
  let s := ((s.stopAtOnce x .ssq).stopAtOnce x .rsq).stopAtOnce x .wsq
  let s := (s.dropSlots x).modStr x fun t => { t with ladders := [] }
  s.modRch x fun c => { c with pipe1 := none, pipe2 := none }

/-- Work of the shared engines that is cancelled: Harp without a strike (R195), the Cabinet with its holding buffer
(R332), Phovi (R349), cache maintenance and lines (R406), requests and transfers of Cibor (R390), scripts. -/
def State.cancelShared (s : State) : State :=
  let idle (j : LaneJob) : LaneJob :=
    match j with
    | .waiting e => .waiting e
    | _ => .idle
  let s := s.modHarp fun h => { h with store := [], held := [], records := [], retireAfter := [], lanes := h.lanes.map idle }
  let s := (s.modCab fun c => { c with queue := [], running := [], holdWait := [] }).wr .CAB_STAT_HOLD_USED 0
  let s := s.modPhv fun p => { p with queue := [], engines := [none, none], saved := [], spaceWait := [] }
  let s := s.modMemory fun m =>
    { m with caches := m.caches.map fun _ => L2Cache.atReset }
  let s := s.modBur fun b => { b with requests := [], replies := [], transfers := [] }
  { s with cal := { s.cal with runs := [] } }

/-- Queued Chest writes complete at the array rate (R311, R434). -/
def State.flushRows (s : State) : State :=
  let rows := s.bridge.rowsWaiting
  (rows.foldl State.makeRow (s.modBridge fun b => { b with rowsWaiting := [] })).unflag .CHST_STAT_GOV_ACT

/-- Domains that stay on: 78, 79, the SCE of each String present, and one Bureau core, the lowest in service
(R434, log entry 27). -/
def State.lossDomains (s : State) : List Nat :=
  [78, 79, 48 + (s.coresIn.head?).getD 0] ++ (Str.all.filter s.present).map fun x => 10 * x.num + 6

/-- Domains beside a list go off. -/
def State.onlyDomains (s : State) (keep : List Nat) : State :=
  [0, 1, 2].foldl (fun s w =>
    let mask := ((keep.filter fun d => d / 32 == w).map fun d => 2 ^ (d % 32)).sum
    s.wr .PWR_DOMSTAT_ON (s.rd .PWR_DOMSTAT_ON w &&& mask) w) s

/-! ### Heads -/

/-- S30 and S31 go to 0 (R109). -/
def State.zeroDrive (s : State) (x : Str) : State :=
  ((s.modSce x fun c => { c with sig := (c.sig.set 30 0).set 31 0, rampFrom := 0 }).wr .SCEx_VCMCMD_S30 0 x.ix).wr .SCEx_MACMD_S31 0 x.ix

/-- Step 2 may start: the String's turn has come and VM is not below VM_RETMIN (R434, R435). -/
def State.startStep2 (s : State) (x : Str) : State :=
  s.when ((s.str.get x).sce.step == .waiting && (s.str.get x).sce.turn && !s.power.vmLow) fun s =>
    s.modSce x fun c => { c with step := .velocity }

/-- An SCE with heads loaded retracts; one already in RETRACT keeps its retract, step 1 ending at once (R109). String A's
turn comes at the event. -/
def State.lossRetract (s : State) (x : Str) : State :=
  let st := s.sceState x
  let turn := x == .A
  if 1 ≤ st && st ≤ 4 then
    ((s.startRetract x .powerLoss).zeroDrive x).modSce x fun c => { c with turn }
  else if st = 5 then
    let step1 := (s.str.get x).sce.step == .ramp
    let s := s.modSce x fun c => { c with emergency := true, turn, step := if step1 then .waiting else c.step }
    (s.when step1 fun s => (s.modSce x fun c => { c with sig := c.sig.set 31 0 }).wr .SCEx_MACMD_S31 0 x.ix).startStep2 x
  else s

/-- The SPE goes to HARVEST, but from OFF (R86): the bridge rectifies synchronously while the observer is locked. -/
def State.harvest (s : State) : State :=
  let st := s.speState
  if st = 0 || st = 9 then s
  else
    let locked := s.spe.locked
    (s.setSpeState 9).modSpe fun e =>
      { e with bridge := if locked then .driven else .off, stopPending := false, toRest := false, sampling := false
               residHold := false, restHold := false, catching := none, idCmd := 0, iqCmd := 0 }

/-! ### The event -/

/-- The power-loss event (R426, R434) with VM in 0.1 V: what it does beside the record of the inputs. -/
def State.emergency (s : State) (vm t : Nat) : State :=
  let s := (s.flag .SB_STAT_PWRLOSS).bump .SB_CNT_PWRLOSS
  if s.mode = 0 then s
  else
    let loaded := strMask (Str.all.filter s.loaded)
    let s := s.modPower fun p => { p with loss := some t, vmLow := decide (vm < s.rd .PWR_RETCFG_VM_RETMIN), supplyDue := none
                                          startDue := false, standbyDue := false }
    let s := (s.modSpe fun e => { e with rcbBlocking := true, vmCharged := false }).harvest
    let s := Str.all.foldl (fun s x => s.onStr x fun s => (s.cancelString x).lossRetract x) s
    let s := s.cancelShared.closeSession
    let s := s.modBridge fun b => { b with running := false }
    let s := ((s.wr .PWR_RETLOG_BEGUN loaded).wr .PWR_RETLOG_PARKED 0).wr .PWR_RETLOG_LAST_MS 0
    let s := (s.wr .PWR_RETLOG_VM_MIN (min 255 vm)).chestRow 4 (deviceRow 2)
    s.flushRows.onlyDomains s.lossDomains

/-- POWER_LOSS_EVENT: a second one while a retract runs has no effect (R435). -/
def State.powerLoss (s : State) (v12 v5 : Bool) (vm t : Nat) : State :=
  let s := ((s.at t).setTo .SB_STAT_V12_OK v12).setTo .SB_STAT_V5_OK v5
  if s.power.loss.isSome then s else s.emergency vm t

/-! ### The retract (R434, R435) -/

/-- RETRACT_STAGGER: at k × RET_GAP String k may start step 2. -/
def State.retractStagger (s : State) (x : Str) (vm : Nat) : State :=
  s.when (s.power.loss.isSome && s.sceState x == 5 && (s.str.get x).sce.emergency) fun s =>
    let s := s.when (decide (vm < s.rd .PWR_RETCFG_VM_RETMIN)) fun s => s.modPower fun p => { p with vmLow := true }
    (s.modSce x fun c => { c with turn := true }).startStep2 x

/-- VM_RETMIN_RECOVER: VM is above VM_RETMIN + 0.5 V. -/
def State.vmRecover (s : State) (vm : Nat) : State :=
  s.when (s.power.vmLow && decide (s.rd .PWR_RETCFG_VM_RETMIN + 5 < vm)) fun s =>
    let s := s.modPower fun p => { p with vmLow := false }
    Str.all.foldl (fun s x => s.when (s.sceState x == 5 && (s.str.get x).sce.emergency) fun s =>
      (s.modSce x fun c => { c with retLimit := s.rd .SCEx_ILIM_RET_ILIM x.ix }).startStep2 x) s

/-- An emergency retract with no head left loaded: its duration is logged and the SPE floats the bridge, whether or not
this has been done already. -/
def State.retractOver (s : State) : State :=
  match s.power.loss with
  | none => s
  | some t =>
    s.when (!Str.all.any s.loaded) fun s =>
      let s := s.wr .PWR_RETLOG_LAST_MS (min 65535 ((s.timebase - t) / 800000))
      s.when (s.speState == 9) fun s => s.modSpe fun e => { e with bridge := .off }

end Sys2Proof.Machine
end

