-- ==== Sys2Proof/Machine/SerialNor.lean ====
section
/-! DEFINITION. Machine/SerialNor.lean: how the boot ROM discovers the serial NOR (R464, R465). The places of the bits in the
SFDP tables are JESD216's (PRESUMED, log entry 57). -/
namespace Sys2Proof.Machine

/-- A little-endian number of `n` bytes at an offset of the SFDP area; what is not there reads as erased. -/
def sfdpNumber (b : List Nat) (at' n : Nat) : Nat := ((List.range n).map fun k => b.getD (at' + k) 255 % 256 * 256 ^ k).sum

/-- Bits `lo + n - 1` to `lo` of a DWORD. -/
def dwordBits (v lo n : Nat) : Nat := v / 2 ^ lo % 2 ^ n

/-- The SFDP header's signature, and the number of its parameter headers. -/
def sfdpHeaders (b : List Nat) : Nat := if sfdpNumber b 0 4 = 0x50444653 then sfdpNumber b 6 1 + 1 else 0

/-- The last parameter table of an identifier: its pointer and its DWORDs. -/
def sfdpTable (b : List Nat) (id : Nat) : Option (Nat × Nat) :=
  (((List.range (sfdpHeaders b)).map fun k => 8 + 8 * k).filter fun h =>
    sfdpNumber b h 1 + 256 * sfdpNumber b (h + 7) 1 == id).getLast?.map fun h => (sfdpNumber b (h + 4) 3, sfdpNumber b (h + 3) 1)

/-- Fast reads of the BFPT that the device supports, the fastest first (R465): the bit of DWORD 1 that offers it, the DWORD and the
lowest bit of its clocks and instruction, its bit in the 4-byte table, its lines. -/
def fastReads : List (Nat × Nat × Nat × Nat × (Nat × Nat × Nat)) :=
  [(21, 3, 0, 5, (1, 4, 4)), (22, 3, 16, 4, (1, 1, 4)), (20, 4, 16, 3, (1, 2, 2)), (16, 4, 0, 2, (1, 1, 2))]

/-- The read mode, quad-enable method and addressing that the tables give: single-line reads where the part describes none of the
supported ones, or has no BFPT of 16 DWORDs. -/
def norDiscover (b : List Nat) : NorRead :=
  let plain : NorRead := { lines := (1, 1, 1), instruction := 0x0B, clocks := 8, quadEnable := 0, fourByte := false, entry := 0 }
  match sfdpTable b 0xFF00 with
  | some (at', n) =>
    if n < 16 then plain
    else
      let dword (k : Nat) : Nat := sfdpNumber b (at' + 4 * (k - 1)) 4
      let four : Nat := ((sfdpTable b 0xFF84).map fun e => sfdpNumber b e.1 4).getD 0
      let entry := dwordBits (dword 16) 24 8
      match fastReads.find? fun r => (dword 1).testBit r.1 with
      | some (_, d, lo, f, lines) =>
        { lines, instruction := dwordBits (dword d) (lo + 8) 8
          clocks := dwordBits (dword d) lo 5 + dwordBits (dword d) (lo + 5) 3
          quadEnable := if lines.2.2 = 4 then dwordBits (dword 15) 20 3 else 0, fourByte := four.testBit f, entry }
      | none => { plain with fourByte := four.testBit 1, entry }
  | none => plain

/-- Step 2 of R432 begins with the discovery of the serial NOR. -/
def State.discoverNor (s : State) (sfdp : List Nat) : State := s.modLc fun l => { l with nor := norDiscover sfdp }

end Sys2Proof.Machine
end

