-- ==== Sys2Proof/Machine/Servo.lean ====
section
/-! DEFINITION. Machine/Servo.lean: the servo demodulator and the SSQ's servo timer (R113 to R129, R500), the wedge
boundary (R25, R61, R84, R172, R184), and the meanings of their commands. -/
namespace Sys2Proof.Machine

/-! ### The format (R113, R114) -/

/-- The checks of R114 at 110 Hz and 130 Hz: a Fret is 1/52,800 s and 1/62,400 s. -/
def State.formatValid (s : State) (x : Str) : Bool :=
  let r f := s.rd f x.ix
  let cells := r .SVDx_FMT0_CELLS
  let cpb := r .SVDx_FMT4_CPB
  let len := r .SVDx_FMT4_BURST_LEN
  let bound := r .SVDx_FMT3_BOUND
  decide (2000 ≤ cells) && decide (cells ≤ 8000)
    && decide (r .SVDx_FMT2_GRAY_OFF + (r .SVDx_FMT4_TRK_BITS + 2) * cpb ≤ r .SVDx_FMT2_WNUM_OFF)
    && decide (r .SVDx_FMT2_WNUM_OFF + 10 * cpb ≤ r .SVDx_FMT2_NB_OFF)
    && decide (r .SVDx_FMT2_NB_OFF + len ≤ r .SVDx_FMT3_QB_OFF)
    && decide (r .SVDx_FMT3_QB_OFF + len ≤ r .SVDx_FMT3_RRO_OFF)
    && decide (r .SVDx_FMT3_RRO_OFF + 12 * cpb ≤ bound)
    && decide (bound + r .SVDx_FMT0_PRE_LEN + 2 * r .SVDx_FMT0_SAM_LEN ≤ cells)
    && decide (9 * cells * 62400 ≤ bound * 10 ^ 7) && decide (bound * 10 ^ 7 ≤ 19 * cells * 52800)
    && decide (r .SVDx_FMT1_SAM_WIN * 10 ^ 8 ≤ 45 * cells * 52800)

/-- SVD_FORMAT_WRITE (R114, R128): SVDx_FMT0 to FMT5 are K fields; in IDLE the write re-evaluates FMT_VALID. -/
def State.formatWrite (s : State) (x : Str) (index v : Nat) : State :=
  if 6 ≤ index then s
  else if s.rd .SVDx_STAT_SYNC_STATE x.ix != 0 then s.flag .SVDx_STAT_CFG_LOCKED x.ix
  else
    let s := s.putFields .svd (4 + 4 * index) x.ix v
    s.setTo .SVDx_STAT_FMT_VALID (s.formatValid x) x.ix

/-! ### SAM timing (R99, R117 to R119, R127) -/

/-- Cells, in 1/16 cell, that a time in ticks spans. -/
def State.sixteenths (s : State) (x : Str) (ticks : Int) : Int :=
  if s.fretTicks = 0 then 0 else roundDiv (ticks * 16 * s.rd .SVDx_FMT0_CELLS x.ix) s.fretTicks

/-- Ticks of a signed length in 1/16 cell. -/
def State.ticksOf (s : State) (x : Str) (sixteenths : Int) : Int :=
  let c := s.rd .SVDx_FMT0_CELLS x.ix
  if c = 0 then 0 else roundDiv (sixteenths * s.fretTicks) (16 * c)

/-- HSKEW of a head, 1/16 cell. -/
def State.hskew (s : State) (x : Str) (h : Nat) : Int := toSigned 16 (s.rd .SVDx_HSKEW_HSKEW (x.ix h))

/-- The SAM predicted for the coming window: moved by HSKEW in the first window after a head change (R119). -/
def State.windowCentre (s : State) (x : Str) : Nat :=
  let v := (s.str.get x).svd
  let h := s.aeHead x
  let move := if h = v.windowHead then 0 else s.ticksOf x (s.hskew x h - s.hskew x v.windowHead)
  ((v.predicted : Int) + move).toNat

/-- The window of this Fret is that of the head now selected (R119). -/
def State.openWindow (s : State) (x : Str) : State :=
  s.modSvd x fun v => { v with expected := s.windowCentre x, windowHead := s.aeHead x }

/-- The next SAM is predicted one Fret after the last, measured or predicted, and published (R99); while no Fret is in force
none is predicted (R496). -/
def State.predictSam (s : State) (x : Str) (last fret : Nat) : State :=
  let have' := fret != 0 && s.fretPs != 0
  let s := s.modSvd x fun v => { v with lastSam := last, predicted := last + fret, haveSam := have' }
  s.when have' fun s => s.wr .SCEx_PRSAM_TIME (last + fret) x.ix

/-- The Fret derived from the spindle, in ticks (R127, R496). -/
def State.spindleFret (s : State) : Nat :=
  let m := (toSigned 32 (s.rd .SPE_SPEED_MRPM)).natAbs
  if m < 600000 then 0 else 60 * 10 ^ 15 / (480 * m) / 1250

/-! ### Servo bits (R113, R117, R120 to R124) -/

/-- Reader of a head's servo fields: SRV_RDR, of which 3 acts as 1 (R120, R128). -/
def State.servoReader (s : State) (x : Str) (h : Nat) : Nat :=
  let r := s.rd .SVDx_HRDR_SRV_RDR (x.ix h)
  if r = 3 then 1 else r

/-- A bit from its peaks: those of at least 0.5 × A_pre count; 1 when they fall only in the first half of its cells, 0 only in the
second, else invalid (R120). -/
def servoBit (cpb aPre : Nat) (peaks : List Peak) : Option Bool :=
  let q := peaks.filter fun p => decide (aPre ≤ 2 * p.amplitude)
  if q.isEmpty then none
  else if q.all fun p => decide (p.place < 8 * cpb) then some true
  else if q.all fun p => decide (8 * cpb ≤ p.place) && decide (p.place < 16 * cpb) then some false
  else none

/-- The `n` bits of a field, most significant first; none when one is invalid. -/
def servoBits (cpb aPre n : Nat) (field : List (List Peak)) : Option (List Bool) :=
  (List.range n).mapM fun k => servoBit cpb aPre (field.getD k [])

/-- Value of bits, most significant first. -/
def bitsValue (bs : List Bool) : Nat := bs.foldl (fun v b => 2 * v + boolNat b) 0

/-- Gray code to binary: each bit is the exclusive or of its Gray bit and the bit before (R122). -/
def grayValue (bs : List Bool) : Nat := (bs.foldl (fun (v : Nat × Bool) b => (2 * v.1 + boolNat (b != v.2), b != v.2)) (0, false)).1

/-- An even number of the bits are 1. -/
def evenParity (bs : List Bool) : Bool := bs.count true % 2 == 0

/-- The decoded wedge number: 9 bits and an even-parity bit; none with bad parity or an invalid bit (R113, R121, log entry 54). -/
def wedgeNumber (cpb aPre : Nat) (d : SamIn) : Option Nat :=
  match servoBits cpb aPre 10 d.number with
  | some bs => if evenParity bs then some (bitsValue (bs.take 9)) else none
  | none => none

/-- The wedge number, if it is accepted (R121). -/
def State.acceptedNumber (s : State) (x : Str) (d : SamIn) : Option Nat :=
  let cpb := s.rd .SVDx_FMT4_CPB x.ix
  match wedgeNumber cpb d.aPre d with
  | some n =>
    let idx := (servoBits cpb d.aPre 2 d.idx).map bitsValue
    if n < 480 && idx.all (fun i => i == (if n = 0 then 1 else if n = 240 then 2 else 0)) then some n else none
  | none => none

/-- A comparison of the SAM detector with at most SAM_TOL mismatches, of which 3 acts as 2 (R117). -/
def State.samMatch (s : State) (x : Str) (decisions : Nat) : Bool :=
  let len := s.rd .SVDx_FMT0_SAM_LEN x.ix
  let wrong := (decisions ^^^ s.rd .SVDx_FMT1_SAM_PAT x.ix) % 2 ^ len
  decide (countOnes wrong len ≤ min 2 (s.rd .SVDx_FMT1_SAM_TOL x.ix))

/-- Times of the matches, within the window around `centre` if there is one (R116, R117). -/
def State.samTimes (s : State) (x : Str) (d : SamIn) (centre : Option Nat) : List Nat :=
  let inside (t : Nat) : Bool := centre.all fun c =>
    decide (((t : Int) - c).natAbs * s.rd .SVDx_FMT0_CELLS x.ix ≤ s.rd .SVDx_FMT1_SAM_WIN x.ix * s.fretTicks)
  (d.bits.filter fun b => inside b.1 && s.samMatch x b.2).map (·.1)

/-- A measured SAM's time reaches the Fret timing block: FRET_PERIOD of the reference from two consecutive measured SAMs, the
skews (R51, R52, R55, R119). Times have the selected head's HSKEW subtracted. -/
def State.samToTiming (s : State) (x : Str) (t : Nat) : State :=
  let v := (s.str.get x).svd
  let t' := ((t : Int) - s.ticksOf x (s.hskew x v.windowHead)).toNat
  let s := match v.lastMeasured with
    | some p => s.when (s.reference == some x && decide (p < t')) fun s => s.wr .FRET_PERIOD_PS ((t' - p) * 1250)
    | none => s
  let s := s.modSvd x fun v => { v with lastMeasured := some t' }
  (s.when (v.wedge == 0) fun s => s.skewSample x t').refreshSkewNs

/-- A wedge of the reference String passes: HOLDOVER counts them (R497). -/
def State.countWedge (s : State) (x : Str) : State :=
  s.when (s.reference == some x) fun s => s.modCapo fun c => { c with wedges := c.wedges + 1 }

/-- The S fields of the demodulator take effect at a SAM, measured or predicted (R128), and the bit clock follows the Fret (R152). -/
def State.svdBoundary (s : State) (x : Str) : State := (s.boundary .svd x.num).refreshRate x

/-- SVDx_STAT.WEDGE and the wedge of the Fret; with wedge 0 a revolution begins for the batches of R210. -/
def State.setWedge (s : State) (x : Str) (w : Nat) : State :=
  let s := s.when (w == 0) fun s => s.modHost fun h => { h with batches := h.batches.set x 0 }
  (s.wr .SVDx_STAT_WEDGE w x.ix).modSvd x fun v => { v with wedge := w }

/-- A SAM in SEARCH: an accepted wedge number starts CONFIRM; any other starts no Fret (R121, R500). -/
def State.samSearch (s : State) (x : Str) (d : SamIn) (time : Nat) : State :=
  match s.acceptedNumber x d with
  | none => s
  | some n =>
    let s := (s.wr .SVDx_STAT_SYNC_STATE 2 x.ix).modSvd x fun v =>
      { v with confirms := 1, misses := 0, samMeasured := true, numberBad := false, slipFrom := none, expected := time
               deviation := 0, windowHead := s.aeHead x, lastMeasured := none, lastFret := false }
    (((s.svdBoundary x).setWedge x n).predictSam x time s.spindleFret).seqSam x false

/-- Back to SEARCH with the count cleared (R127). The Fret in progress still ends (R101, R126). -/
def State.backToSearch (s : State) (x : Str) : State :=
  let was := s.synced x
  let s := (s.wr .SVDx_STAT_SYNC_STATE 1 x.ix).modSvd x fun v =>
    { v with confirms := 0, misses := 0, haveSam := false, slipFrom := none, lastFret := true }
  s.when was fun s => s.syncLost x

/-- Wedge synchronisation is reached: the Fret timing block is told, and an SCE in LOADING goes to SEEK (R51, R110). -/
def State.reachSync (s : State) (x : Str) : State :=
  let s := (s.wr .SVDx_STAT_SYNC_STATE 3 x.ix).syncGained x
  let s := s.sceBoundary x
  s.when (s.sceState x == 1) fun s =>
    (s.modSce x fun c => { c with limit := s.seekLimit x }).enterSeekFromLoading x

/-- What a SAM in a window is off its prediction: SVDx_SAMDEV, and beyond SAMW_TOL cells SAM_OFF with WINH at the latch
(R118, R128). -/
def State.samDeviation (s : State) (x : Str) (time : Nat) : State :=
  let dev : Int := (time : Int) - (s.str.get x).svd.expected
  let s := s.wr .SVDx_SAMDEV_DEV (ofSigned 16 (saturate 16 (s.sixteenths x dev))) x.ix
  let s := s.modSvd x fun v => { v with deviation := dev, samMeasured := true }
  s.when (decide (s.rd .SVDx_FMT1_SAMW_TOL x.ix * s.fretTicks < dev.natAbs * s.rd .SVDx_FMT0_CELLS x.ix)) fun s =>
    (s.flag .SVDx_STAT_SAM_OFF x.ix).assertWinh x

/-- A SAM in CONFIRM (R127): the successor of the last wedge counts; anything else goes back to SEARCH. No SAM time is passed
to the Fret timing block yet (R500). -/
def State.samConfirm (s : State) (x : Str) (d : SamIn) (time : Nat) (iVcm : Int) : State :=
  let v := (s.str.get x).svd
  let s := s.svdBoundary x
  if s.acceptedNumber x d != some ((v.wedge + 1) % 480) then
    (((s.modSvd x fun v => { v with numberBad := true, lastSam := time }).seqSam x false).sceSam x false iVcm).backToSearch x
  else
    let n := v.confirms + 1
    let s := s.modSvd x fun v => { v with confirms := n, numberBad := false, lastMeasured := none }
    let s := (s.setWedge x ((v.wedge + 1) % 480)).predictSam x time (time - v.lastSam)
    let s := (s.seqSam x false).sceSam x false iVcm
    s.when (decide (s.eff .SVDx_FMT5_SYNC_N x.ix ≤ n)) fun s => s.reachSync x

/-- The wedge number in SYNC (R121, R127): a rejected one is replaced by the prediction; an accepted one that differs
makes the wedge unreadable, and two in succession re-base the count. -/
def State.samNumber (s : State) (x : Str) (d : SamIn) : State :=
  let v := (s.str.get x).svd
  let want := (v.wedge + 1) % 480
  match s.acceptedNumber x d with
  | none => ((s.flag .SVDx_STAT_WNUM_FIX x.ix).setWedge x want).modSvd x fun v => { v with numberBad := false, slipFrom := none }
  | some n =>
    if n = want then (s.setWedge x want).modSvd x fun v => { v with numberBad := false, slipFrom := none }
    else if v.slipFrom.any fun k => (k + 1) % 480 == n then
      ((s.flag .SVDx_STAT_SLIP x.ix).setWedge x n).modSvd x fun v => { v with numberBad := true, slipFrom := none }
    else (s.setWedge x want).modSvd x fun v => { v with numberBad := true, slipFrom := some n }

/-- A SAM in SYNC (R118, R121, R126). The time of one whose wedge number is wrong, a false SAM, is not passed on (log entry 54). -/
def State.samSync (s : State) (x : Str) (d : SamIn) (time : Nat) (iVcm : Int) : State :=
  let s := (s.svdBoundary x).samNumber x d
  let bad := (s.str.get x).svd.numberBad
  let s := if bad then s.modSvd x fun v => { v with lastMeasured := none } else s.samToTiming x time
  let s := s.countWedge x
  let s := (s.modSvd x fun v => { v with misses := 0 }).predictSam x time s.fretTicks
  (s.seqSam x false).sceSam x false iVcm

/-- SAM_LATCHED: the first match in the window, or without one in SEARCH, latches phase 0; a later one in the window is ignored
and sets SAM_DUP (R117, R127). With no SAM predicted there is no window (R496). -/
def State.samLatched (s : State) (x : Str) (readers : List SamIn) (iVcm : Int) : State :=
  let st := s.rd .SVDx_STAT_SYNC_STATE x.ix
  match readers[s.servoReader x (s.aeHead x)]? with
  | none => s
  | some d =>
    if st = 0 || (st != 1 && !(s.str.get x).svd.haveSam) then s
    else
      match s.samTimes x d (if st = 1 then none else some (s.windowCentre x)) with
      | [] => s
      | time :: later =>
        let s := (s.at time).wr .SVDx_PREAMP_A_PRE (min 65535 d.aPre) x.ix
        if st = 1 then s.samSearch x d time
        else
          let s := (s.openWindow x).when (!later.isEmpty) fun s => s.flag .SVDx_STAT_SAM_DUP x.ix
          let s := s.samDeviation x time
          if st = 2 then s.samConfirm x d time iVcm else s.samSync x d time iVcm

/-- MISSED_SAM at the predicted SAM + 0.50 µs, 400 ticks (R116, R127): CONFIRM falls back to SEARCH; in SYNC phases run from the
predicted SAM, the wedge is lost, and SYNC_LOSS consecutive misses lose synchronisation. -/
def State.missedSam (s : State) (x : Str) : State :=
  let st := s.rd .SVDx_STAT_SYNC_STATE x.ix
  if st < 2 || !(s.str.get x).svd.haveSam then s
  else
    let s := s.openWindow x
    let v := (s.str.get x).svd
    let s := s.at (v.expected + 400)
    let s := s.bump .SVDx_CNT_MISSED x.ix
    let s := (s.svdBoundary x).setWedge x ((v.wedge + 1) % 480)
    let s := s.modSvd x fun v =>
      { v with samMeasured := false, lastMeasured := none, numberBad := false, slipFrom := none, misses := v.misses + 1 }
    let s := s.when (st == 3) fun s => s.countWedge x
    let s := (s.predictSam x v.expected s.fretTicks).refreshSkewNs
    let s := ((s.seqSam x true).sceSam x true 0).wedgeLost x
    s.when (st == 2 || decide (s.eff .SVDx_FMT5_SYNC_LOSS x.ix ≤ (s.str.get x).svd.misses)) fun s => s.backToSearch x

/-- A Fret is in progress: SAM, missed SAM or predicted SAM in CONFIRM or SYNC, or the Fret whose SAM ended them. -/
def State.fretRuns (s : State) (x : Str) : Bool := decide (2 ≤ s.rd .SVDx_STAT_SYNC_STATE x.ix) || (s.str.get x).svd.lastFret

/-! ### The servo gate and the wedge boundary -/

/-- PREAMBLE_GATE (R172, R173): recording pauses; a write gate never stays open past it, and that of a split sector has
closed after its first fragment (R219). -/
def State.preambleGate (s : State) (x : Str) : State :=
  s.when (decide (2 ≤ s.rd .SVDx_STAT_SYNC_STATE x.ix)) fun s =>
    let s := s.modSvd x fun v => { v with servoGate := true }
    let s := match (s.str.get x).rch.gate with
      | some i => s.modSlot x i fun c => { c with paused := true, fragment := c.action.cont }
      | none => s
    match (s.str.get x).wrp.open' with
    | some a => if a.sector.split.isSome then s.unflag .WRPx_STAT_GATE x.ix else s.cutOpen x
    | none => s

/-- Servo gain code of a head (R172, R176). -/
def servoGain : Nat → Reg
  | 0 => .RCHx_SRVGA_H0
  | 1 => .RCHx_SRVGA_H1
  | 2 => .RCHx_SRVGA_H2
  | 3 => .RCHx_SRVGA_H3
  | 4 => .RCHx_SRVGB_H4
  | _ => .RCHx_SRVGB_H5

/-- Front-end settings in force on a reader: those of the servo fields on the head's servo reader while the servo gate is open, else
those of the active set (R154, R172). -/
def State.frontEnd (s : State) (x : Str) (r : Nat) : FrontEnd :=
  let v := (s.str.get x).svd
  if v.servoGate && r == s.servoReader x v.windowHead then servoFrontEnd (s.rd (servoGain v.windowHead) x.ix)
  else dataFrontEnd (s.liveSet x) r (s.bitRate x) (s.rd (reader3 .RCHx_GAIN_G0 .RCHx_GAIN_G1 .RCHx_GAIN_G2 r) x.ix)

/-- The servo gain steps by 4 codes after a wedge whose A_pre is below 0.4375 or above 0.5625 of full scale (R172). -/
def State.servoStep (s : State) (x : Str) (aPre : Nat) : State :=
  let r := servoGain (s.str.get x).svd.windowHead
  let g := s.rd r x.ix
  if aPre < 28672 then s.wr r (min 255 (g + 4)) x.ix else if 36864 < aPre then s.wr r (g - 4) x.ix else s

/-- R184: the reference SAM of sector timing is the predicted one when the deviation exceeds SYNC_WIN − 16 bit-times, or
the SAM was missed. A cell lasts CHRATE × 1,000,000 / (57,600 × CELLS) bit-times. -/
def State.sectorReference (s : State) (x : Str) : State :=
  let v := (s.str.get x).svd
  let bits := (toSigned 16 (s.rd .SVDx_SAMDEV_DEV x.ix)).natAbs * (s.chrate x (s.activeSet x) * 1000000)
  let limit := (s.eff .SFMx_SYNC1_SYNC_WIN x.ix - 16) * (16 * 57600 * s.rd .SVDx_FMT0_CELLS x.ix)
  s.when (!v.samMeasured || decide (limit < bits)) fun s =>
    (s.flag .SFMx_STAT_SECT_PRED x.ix).bump .SFMx_CNT_SECT_PRED x.ix

/-- Inhibits released at a wedge boundary: WINH (R25, R102), Capo's after LOCKED (R61), the spindle's (R83, R87). -/
def State.releaseInhibits (s : State) (x : Str) : State :=
  let c := (s.str.get x).sce
  let s := s.when (s.sceState x == 4 && c.wedgeGood && (s.str.get x).svd.samMeasured && !c.missed && !c.shockHold) fun s =>
    (s.unflag .SCEx_STAT_WINH x.ix).refreshInh x
  let s := s.when (s.capo.releasing && s.capo.inhibit.get x) fun s => (s.releaseCapoInhibit x).capoWinh
  s.when (s.spe.releasing && s.spe.inhibit.get x) fun s => s.setSpindleInhibit x false

/-- The second fragment of a split sector is written only if its CONT is committed and the inhibit OR is clear at this
boundary; otherwise the sector is cut (R218, R220). -/
def State.secondFragment (s : State) (x : Str) : State :=
  match (s.str.get x).wrp.open' with
  | none => s
  | some a => if s.inhibit x || !a.cont then s.cutOpen x else s.flag .WRPx_STAT_GATE x.ix

/-- WEDGE_BOUNDARY. -/
def State.wedgeBoundary (s : State) (x : Str) (aPre : List Nat) : State :=
  s.when (s.fretRuns x) fun s =>
    let v := (s.str.get x).svd
    let s := s.when (!v.samMeasured) fun s => s.wr .SVDx_PREAMP_A_PRE (min 65535 (aPre.getD (s.servoReader x v.windowHead) 0)) x.ix
    let s := s.servoStep x (s.rd .SVDx_PREAMP_A_PRE x.ix)
    let s := s.modSvd x fun v => { v with servoGate := false, dataWedge := v.wedge }
    let s := (s.sectorReference x).releaseInhibits x
    (s.secondFragment x).seqWedge x

/-! ### The demodulator (R120 to R125) -/

/-- Division rounded away from zero, as the example of R125 holds f (log entry 22). -/
def divAway (a : Int) (b : Nat) : Int :=
  if b = 0 then 0 else if a < 0 then -(((-a) + (b - 1 : Nat)) / b) else (a + (b - 1 : Nat)) / b

/-- T and f of R123 for track bits `tg` and signed burst results; f in 1/65,536 track. -/
def burstPosition (tg : Int) (n q : Int) : Int × Int :=
  let p : Int := if 0 ≤ q then 0 else 1
  let f := divAway (32768 * (if p = 0 then n else -n)) (n.natAbs + q.natAbs)
  let t := if tg % 2 = p then tg else if 0 ≤ f then tg - 1 else tg + 1
  (t, f)

/-- A burst's component in phase with the preamble timing over BURST_LEN cells, in 1/32,768 of A_pre (R123, log entry 54). -/
def burstIntegral (len period aPre : Nat) (cells : List Int) : Int :=
  let sum := ((List.range len).map fun k => cells.getD k 0 * cosDeg (360 * k / period)).sum
  saturate 16 (roundDiv (2 * sum) (len * aPre))

/-- N and Q of a wedge (R123). -/
def State.bursts (s : State) (x : Str) (d : DemodIn) : Int × Int :=
  let one := burstIntegral (s.rd .SVDx_FMT4_BURST_LEN x.ix) (s.rd .SVDx_FMT4_BURST_PER x.ix) (s.rd .SVDx_PREAMP_A_PRE x.ix)
  (one d.nBurst, one d.qBurst)

/-- What the demodulator makes of a wedge: the cause of an unreadable one (R128), or the position in 1/65,536 track. -/
def State.demodulate (s : State) (x : Str) (d : DemodIn) : State × Except Nat Int :=
  let v := (s.str.get x).svd
  if !v.samMeasured then (s, .error 1)
  else
    let (n, q) := s.bursts x d
    let s := (s.wr .SVDx_NQ_N (ofSigned 16 n) x.ix).wr .SVDx_NQ_Q (ofSigned 16 q) x.ix
    let offs : Int := toSigned 16 (s.rd .SVDx_HRDR_RDR_OFFS (x.ix v.windowHead))
    let aPre := s.rd .SVDx_PREAMP_A_PRE x.ix
    if v.numberBad then (s, .error 2)
    else if aPre < 8192 then (s, .error 5)
    else
      let read := servoBits (s.rd .SVDx_FMT4_CPB x.ix) aPre (s.rd .SVDx_FMT4_TRK_BITS x.ix) d.gray
      let sub := read.isNone && s.isSet .SVDx_CTRL_GRAY_SUB x.ix && s.sceState x == 4
      let near := roundDiv (s.inForce x + (s.str.get x).sce.pred + offs * 256) 65536
      let tg : Option Int := match read with
        | some bs => some (grayValue bs)
        | none => if sub then some near else none
      let s := s.when sub fun s => s.flag .SVDx_STAT_GRAY_SUBD x.ix
      match tg with
      | none => (s, .error 3)
      | some g =>
        if n.natAbs + q.natAbs < s.rd .SVDx_FMT4_BURST_MIN x.ix * 128 then (s, .error 4)
        else
          let (t, f) := burstPosition g n q
          let frac := f - offs * 256
          let s := (s.wr .SVDx_TRK_T t.toNat x.ix).wr .SVDx_FRAC_F (ofSigned 16 (saturate 16 frac)) x.ix
          (s, .ok (t * 65536 + frac))

/-- The RRO value and whether its check bits are good: even parity over the even value bits with the first check bit, over the
odd with the second (R113, R124); none with an invalid bit (log entry 54). -/
def rroValue (bs : List Bool) : Int × Bool :=
  let v := bs.take 10
  let half (odd : Nat) := (List.range 10).filter (fun k => (9 - k) % 2 = odd) |>.map fun k => v.getD k false
  (toSigned 10 (bitsValue v), evenParity (bs.getD 10 false :: half 0) && evenParity (bs.getD 11 false :: half 1))

/-- The RRO field (R124): VALUE, RRO_BAD, and S4 with 16 fraction bits. -/
def State.runout (s : State) (x : Str) (d : DemodIn) : State × Int :=
  match servoBits (s.rd .SVDx_FMT4_CPB x.ix) (s.rd .SVDx_PREAMP_A_PRE x.ix) 12 d.rro with
  | none => (s.flag .SVDx_STAT_RRO_BAD x.ix, 0)
  | some bs =>
    let (v, good) := rroValue bs
    let s := s.wr .SVDx_RRO_VALUE (ofSigned 10 v) x.ix
    if good then (s, if s.isSet .SVDx_CTRL_RRO_EN x.ix then v * 128 else 0) else (s.flag .SVDx_STAT_RRO_BAD x.ix, 0)

/-- DEMOD_LATCH at 2.20 µs, 1,760 ticks after the Fret's SAM: the demodulated wedge goes to the SCE's law (R125, R99). A
Fret whose wedge number was wrong is timed from its predicted SAM from here on (R126). -/
def State.demodLatch (s : State) (x : Str) (readers : List DemodIn) : State :=
  s.when (s.fretRuns x) fun s =>
    let d := readers.getD (s.servoReader x (s.str.get x).svd.windowHead) ⟨[], [], [], []⟩
    let s := s.modSvd x fun v => { v with lastFret := false }
    let latch := (s.str.get x).svd.lastSam + 1760
    let (s, result) := s.demodulate x d
    let (s, rro) := if (s.str.get x).svd.samMeasured then s.runout x d else (s, 0)
    let s := s.when (s.synced x && (s.str.get x).svd.numberBad) fun s =>
      s.predictSam x (s.str.get x).svd.expected s.fretTicks
    match result with
    | .ok p =>
      ((s.flag .SVDx_STAT_LAST_OK x.ix).wr .SVDx_STAT_LAST_CAUSE 0 x.ix).law x (some p) rro latch
    | .error cause =>
      let s := (s.unflag .SVDx_STAT_LAST_OK x.ix).wr .SVDx_STAT_LAST_CAUSE cause x.ix
      let s := s.when (cause != 1) fun s => s.bump .SVDx_CNT_UNREAD x.ix
      s.law x none rro latch

/-! ### Commands of the demodulator -/

/-- ACQ (R127, R128): what it answers and the state after it. -/
def State.svdAcq (s : State) (x : Str) : CStat × State :=
  if s.rd .SVDx_STAT_SYNC_STATE x.ix != 0 then (.ok, s)
  else if !s.isSet .SVDx_STAT_FMT_VALID x.ix then (.cfgRange, s)
  else (.ok, ((s.wr .SVDx_CNT_MISSED 0 x.ix).wr .SVDx_CNT_UNREAD 0 x.ix).svdSearch x)

/-! ### Meanings -/

def execPreambleGate (x : Str) (s : State) : Host.Outcome State Fault Refusal := .next (s.onStr x fun s => s.preambleGate x)

def execSamLatched (x : Str) (sam : SamEvent) (s : State) : Host.Outcome State Fault Refusal :=
  .next (s.onStr x fun s => s.samLatched x sam.readers sam.iVcm)

def execMissedSam (x : Str) (s : State) : Host.Outcome State Fault Refusal :=
  .next (s.onStr x fun s => s.missedSam x)

def execWedgeBoundary (x : Str) (aPre : List Nat) (s : State) : Host.Outcome State Fault Refusal :=
  .next (s.onStr x fun s => s.wedgeBoundary x aPre)

def execDemodLatch (x : Str) (readers : List DemodIn) (s : State) : Host.Outcome State Fault Refusal :=
  .next (s.onStr x fun s => s.demodLatch x readers)

def execAcq (x : Str) (s : State) : Host.Outcome State Fault Refusal := .next (s.onStr x fun s => (s.svdAcq x).2)

/-- IDLE (R127). -/
def execIdle (x : Str) (s : State) : Host.Outcome State Fault Refusal := .next (s.onStr x fun s => s.svdIdle x)

def execSvdFormatWrite (x : Str) (index value : Nat) (s : State) : Host.Outcome State Fault Refusal :=
  .next (s.onStr x fun s => s.formatWrite x index value)

end Sys2Proof.Machine
end

