-- ==== Sys2Proof/Machine/Power.lean ====
section
/-! DEFINITION. Machine/Power.lean: power-on reset and the power-on sequence (R16, R212, R309, R319, R394, R432, R461, R464),
the supply, wakes and modes (R425, R426, R430, R482), power domains (R33 to R35, R433), and the meanings of their commands
with those of a retract's end, of PERST's release and of the SMBus, which wake a Dormant device. -/
namespace Sys2Proof.Machine

/-! ### Power-on reset (R16) -/

/-- Fields restored from the Chest or held in fuses. -/
def restored : List Reg :=
  [.HARP_RETIRED_LANES, .HARP_STRIKE0_COUNT, .HARP_STRIKE1_COUNT, .CHST_STAT_LIFE_WARN, .CHST_STAT_LIFE_END, .CHST_LIFE_LIFE
   , .CHST_LIFE_GROUP, .CHST_TOTLO_ROWS, .CHST_TOTHI_ROWS, .CHST_GWRLO_G, .CHST_GWRHI_G, .CAB_EPOCH_KEK_EPOCH
   , .MI_WLOST_RANGES, .PWR_STRLOST_LOST, .PWR_RETLOG_BEGUN, .PWR_RETLOG_PARKED, .PWR_RETLOG_LAST_MS, .PWR_RETLOG_VM_MIN
   , .LC_STAT_STATE, .LC_STAT_RETCNT, .LC_STAT_REFIELD, .LC_STAT_PEND, .LC_VAR_VARIANT, .LC_VAR_STEPPING, .LC_PCIID_VID
   , .LC_PCIID_SSVID, .LC_DEVID_ID, .LC_FWSVN_SVN, .LC_KEYH_HASH, .BNCH_CNT_OPENS, .BNCH_CNT_REFUSED]

/-- Registers after a power-on reset: those of the Sideboard stay while VDD_3V3 does (R438), retired cores stay retired. -/
def State.resetRegs (s : State) (vddKept : Bool) : List (Nat × Nat) :=
  let keep := restored.map Reg.ctorIdx ++ (if vddKept then Blk.sideboard.rows.map (·.reg.ctorIdx) else [])
  let stays (e : Nat × Nat) : Bool := keep.contains (e.1 / 2 ^ 20)
  (s.regs.filter stays).foldl (fun m e => storePut m e.1 e.2) (regsAtReset.filter fun e => !stays e)

/-- Addresses whose memory keeps its contents: ROM, the Chest, the NOR. -/
def persistent (a : Nat) : Bool :=
  decide (a < 0x40000) || (decide (0x200000000 ≤ a) && decide (a < 0x201000000)) || (decide (0x400000000 ≤ a) && decide (a < 0x410000000))

/-- A String keeps its media, its scheduled reallocations and its pending list (R237, R239); its format comes with the
stored configuration. -/
def StringState.powered (t : StringState) : StringState :=
  { StringState.atReset with media := t.media, reallocs := t.reallocs, pendingList := t.pendingList, pendOvf := t.pendOvf
                             ladderNext := t.ladderNext }

/-- A reservation that does not persist through power loss is gone (R262). -/
def Reservation.powered (r : Reservation) : Reservation :=
  if r.ptpl then r else { r with registrants := [], holder := none, rtype := 0 }

/-- A capsule lies wholly on the media. -/
def Namespace.onMedia (n : Namespace) (k : Capsule) : Bool :=
  (List.range k.payloads).all fun i => n.map.any fun e => e.1 == k.csa + i

/-- Capsules on media: a block whose newer capsule was not is live again in the newest that had it (R309). -/
def Namespace.mediaCapsules (n : Namespace) : List Capsule :=
  let kept := n.capsules.filter n.onMedia
  let taken (l : Nat) : Bool := kept.any fun k => k.live.contains l
  let back (k : Capsule) : List Nat := (k.prior.eraseDups).filter fun l =>
    !taken l && !(kept.any fun k' => decide (k.fseq < k'.fseq) && k'.prior.contains l)
  kept.map fun k => { k with live := k.live ++ back k, prior := [] }

/-- A namespace as its tables give it at power-on. -/
def Namespace.powered (n : Namespace) : Namespace :=
  { n with res := n.res.powered, granted := 0, formatting := false, capsules := n.mediaCapsules }

/-- A zone record at power-on: WP = MP (R212), its accumulator invalid if it was live (R207), no cleaning (R225). -/
def Record.powered (r : Record) (live : Bool) : Record :=
  { r with wp := r.mp, accepted := r.mp, clean := false, accValid := r.accValid && !live, heldForLadders := false }

/-- The host's side keeps what the Chest and the NOR hold. -/
def State.poweredHost (s : State) : HostState :=
  let live (id : Nat) : Bool := Str.all.any fun x => (s.str.get x).wrp.accZone == some id
  { HostState.atReset with
    fseq := s.host.fseq, namespaces := s.host.namespaces.map Namespace.powered
    records := s.host.records.mapIdx fun id r => r.powered (live id), bands := s.host.bands, writeLost := s.host.writeLost
    requestId := s.host.requestId, integrityErrors := s.host.integrityErrors, lostWrites := s.host.lostWrites
    selfTests := s.host.selfTests, sanitizeLog := s.host.sanitizeLog, vpd := s.host.vpd, perst := s.host.perst
    training := s.host.perst.map (!·) }

/-- Everything but what survives goes to its reset value. The time base of the model, its free values, its outputs and
its queue go on (log entries 3, 6). -/
def State.powerReset (s : State) (vddKept : Bool) : State :=
  let z := State.reset
  let cores := (List.range 16).filter fun c => s.coreState c == 3
  let r : State :=
    { z with
      regs := s.resetRegs vddKept, mem := s.mem.filter fun c => persistent c.1, timebase := s.timebase, draws := s.draws
      events := s.events, eventSeq := s.eventSeq, host := s.poweredHost, out := s.out, pending := s.pending
      spe := { z.spe with vmCharged := s.spe.vmCharged, rcbBlocking := s.spe.rcbBlocking }
      str := ⟨(s.str.get .A).powered, (s.str.get .B).powered, (s.str.get .C).powered, (s.str.get .D).powered⟩
      bridge := { z.bridge with versions := s.bridge.versions, log := s.bridge.log, logSeq := s.bridge.logSeq
                                journalSeq := s.bridge.journalSeq, gapCount := s.bridge.gapCount
                                gapPlace := s.bridge.gapPlace, usable := s.bridge.usable }
      cab := { z.cab with slots := s.cab.slots, nextKey := s.cab.nextKey, ops := s.cab.ops }
      memory := { z.memory with check := s.memory.check.filter fun e => persistent e.1
                                poisoned := s.memory.poisoned.filter persistent }
      bur := { z.bur with modules := s.bur.modules.map fun m => { m with disabled := false, overruns := [] }
                          stored := s.bur.stored, svnMin := s.bur.svnMin }
      power := { z.power with railFails := s.power.railFails, railHeld := s.power.railHeld }
      lc := { s.lc with challenge := none, waiting := none, download := [] } }
  cores.foldl (fun s c => s.setCore c 3) r

/-! ### The steps of the sequence (R432) -/

/-- Image slot order: the directory's active slot, then the other (R464). -/
def State.slotOrder (s : State) : List Nat := [s.lc.active, 1 - s.lc.active]

/-- An image passes R464. -/
def State.imageOk (s : State) (im : NorImage) : Bool :=
  im.magic && decide (im.length ≤ 7340032) && s.trusts 0 im.key && decide (s.rd .LC_FWSVN_SVN ≤ im.svn) && im.signed

/-- Step 2: the slot that boots; with none the recovery loader runs (R464, R466). -/
def State.boot (s : State) : State :=
  match s.slotOrder.find? fun i => (s.lc.images.getD i none).any s.imageOk with
  | some i => (s.wr .LC_BOOT_SLOT i).setTo .LC_BOOT_FALLBACK (i != s.lc.active)
  | none => s.flag .LC_BOOT_RECOVERY

/-- Step 4: lanes, cores and lost Strings as the Chest has them, and the log of the last emergency retract (R196, R435). -/
def State.restoreUnits (s : State) : State :=
  let s := s.modHarp fun h => { h with noticed := decide (s.lanesIn < 20) }
  let s := s.harpRefresh.coresDegr
  let s := s.when (!s.isSet .LC_BOOT_RECOVERY) fun s =>
    State.scheduleTasks { s with bur := { s.bur with tasks := tasksOf (!s.present .C) } } fun _ => true
  let lost := Str.all.filter s.isLost
  let s := (lost.foldl State.stringDomainsOff s).setDegr 0 (!lost.isEmpty)
  let s := ((List.range 16).filter fun c => s.coreState c == 3).foldl (fun s c =>
    (s.unflagBit .PWR_DOMSTAT_ON ((48 + c) % 32) ((48 + c) / 32)).unflagBit .PWR_DOMREQ_ON ((48 + c) % 32) ((48 + c) / 32)) s
  let cut := Str.all.filter fun x => s.bit .PWR_RETLOG_BEGUN x.num && !s.bit .PWR_RETLOG_PARKED x.num
  let s := s.when (!cut.isEmpty) fun s => s.flag .PWR_STAT_RET_INCOMPLETE
  cut.foldl (fun s x => s.logEvent 0x0009 1 x.bit [x.num, RetractCause.powerLoss.code, 1]) s

/-- Step 5: known-answer tests (R331), slot operations completed from the journal (R332), records that fail their unwrap
check treated as erased (R319). -/
def State.restoreKeys (s : State) (p : PowerIn) : State :=
  let s := s.katGo p.kat
  let s := s.cab.ops.foldl (fun s o => (s.slotEffect o).2) (s.modCab fun c => { c with ops := [] })
  let s := p.unwrap.foldl (fun s k =>
    if (s.keySlot k).state == .active then
      let owner := (s.keySlot k).nsid
      (s.modKeySlot k fun e => { e with state := .free, key := 0 }).modNs owner fun n => { n with keyLost := true }
    else s) s
  s.opsRefresh

/-- Runs of consecutive addresses of a rising list. -/
def runsOf : List Nat → List (Nat × Nat)
  | [] => []
  | l :: t =>
    match runsOf t with
    | (a, n) :: rest => if a = l + 1 then (l, n + 1) :: rest else (l, 1) :: (a, n) :: rest
    | [] => [(l, 1)]

/-- Volatile acknowledgements with no on-media record (R309): event VOL_LOST and the log for each range. -/
def State.lostVolatile (s : State) : State :=
  let gone := s.bridge.versions.filter fun v => v.volatileAck && v.queue != .chest
  gone.foldl (fun s v => (runsOf v.open').foldl (fun s r =>
    (s.logEvent 0x000B 2 0 [v.nsid, r.1, r.2]).modHost fun h => { h with lostWrites := h.lostWrites ++ [(v.nsid, r.1, r.2)] }) s) s

/-- An entry of the log replays: committed, not retired, under keys that its namespace still has (R306, R327). -/
def State.replays (s : State) (e : LogEntry) : Bool :=
  e.committed && !e.retired && (s.ns e.nsid).any fun n => (s.keySlot n.slot).key == e.key

/-- Blocks of a Zoned namespace below MP are on media already. -/
def State.belowMp (s : State) (nsid lba : Nat) : Bool :=
  s.host.records.any fun r => r.nsid == nsid && r.index == lba / 131072 && decide (lba % 131072 < r.mp)

/-- The log's entries become READY versions in FSEQ order, superseding one another by FSEQ (R297, R309). -/
def State.replayLog (s : State) : State :=
  let log := s.bridge.log.filter s.replays
  let zoned (nsid : Nat) : Bool := (s.ns nsid).any fun n => n.kind == .zoned
  let ready (v : Version) : Version :=
    { v with state := .ready, superseded := [], pins := 0, unlisted := false, issued := [], grant := 0
             onMedia := if zoned v.nsid then v.lbas.filter (s.belowMp v.nsid) else [] }
  let vs := (s.bridge.versions.filter fun v => v.queue == .chest && log.any fun e => e.fseq == v.fseq).map ready
  let vs := vs.mergeSort fun a b => decide (a.fseq ≤ b.fseq)
  let top := (s.bridge.log.map (·.fseq) ++ (s.bridge.versions.filter (·.volatileAck)).map (·.fseq)).foldl (fun m f => max m (f + 1)) 0
  let s := s.modBridge fun b => { b with versions := [], log }
  let s := vs.foldl (fun s v => (s.modBridge fun b => { b with versions := b.versions ++ [v] }).supersede v) s
  let s := (s.wr .BRG_DESC_FREE (s.rd .BRG_DESC_FREE - vs.length)).dropVersions.logRefresh
  s.modHost fun h => { h with fseq := top }

/-- WP advances over the data that the Chest holds contiguously from MP (R212). -/
def State.chestRun (s : State) (nsid index : Nat) : (fuel z : Nat) → Nat
  | 0, z => z
  | n + 1, z =>
    let lba := index * 131072 + z
    let held := s.bridge.versions.any fun v => v.nsid == nsid && v.covers lba && !(v.isSuperseded lba)
    if held then s.chestRun nsid index n (z + 1) else z

/-- Write pointers of the zones (R212). -/
def State.writePointers (s : State) : State :=
  let held (r : Record) : Nat :=
    ((s.bridge.versions.filter fun v => v.nsid == r.nsid && v.lba / 131072 == r.index).map (·.data.length)).sum
  let move (r : Record) : Record :=
    let wp := if s.isZone r then s.chestRun r.nsid r.index (held r) r.mp else r.wp
    { r with wp, accepted := wp }
  s.modHost fun h => { h with records := h.records.map move }

/-- Step 6: the Bridge and the Chest, up to GO (R309). -/
def State.startBridge (s : State) : State := s.lostVolatile.replayLog.writePointers.bridgeGo

/-- What follows from the fields of a String that the stored configuration has set (R92, R114). -/
def State.configString (s : State) (x : Str) : State :=
  let s := [0, 1, 2].foldl (fun s t => s.when (s.tableValid x t) fun s => s.tableLoad x t) s
  let s := s.wr .SCEx_CYC_MAND (mandatoryCycles (s.sections x (s.rd .SCEx_STAT_ACTBANK x.ix))) x.ix
  s.setTo .SVDx_STAT_FMT_VALID (s.formatValid x) x.ix

/-- A stored configuration in force. -/
def State.applyConfig (s : State) (c : StoredConfig) : State :=
  let s : State := { s with regs := c.regs.foldl (fun m e => storePut m e.1 e.2) s.regs }
  let s := s.modBur fun b => { b with allow := c.allow }
  let s := Str.all.foldl (fun s x => s.modStr x fun t => { t with format := c.formats.getD x.num t.format }) s
  (Str.all.filter s.present).foldl State.configString s

/-- Step 7: the stored configuration, and the FILL of every SRAM instance (R394, R418). -/
def State.configure (s : State) : State :=
  let s := match s.configInForce with
    | none => s
    | some c => s.applyConfig c
  let s := s.modMemory fun m => { m with filled := List.range 45 }
  (List.range 45).foldl (fun s i => s.unflag .MI_I_CFG_INIT_MODE i) s

/-- START is due: the SPE starts as soon as VM is charged (R425, R430). -/
def State.spinUp (s : State) : State :=
  if s.isSet .THR_STAT_SHUT || s.mode != 1 then s
  else if s.spe.vmCharged then ((s.wr .PWR_STAT_MODE 2).speStartOp.2).modPower fun p => { p with startDue := false }
  else s.modPower fun p => { p with startDue := true }

/-- Step 8: Standby; LC_FWSVN is raised to the running image's SVN (R467); Spin-up follows with AUTOSPIN. -/
def State.enterStandby (s : State) : State :=
  let svn := ((s.lc.images.getD (s.rd .LC_BOOT_SLOT) none).map (·.svn)).getD 0
  let s := s.when (decide (s.rd .LC_FWSVN_SVN < svn)) fun s => (s.wr .LC_FWSVN_SVN svn).journal (deviceRow 4)
  (s.wr .PWR_STAT_MODE 1).when (s.isSet .PWR_CTRL_AUTOSPIN) State.spinUp

/-- On an RN4810-D, domains 20 to 39 read 0 (R437). -/
def State.variantDomains (s : State) : State :=
  if s.rd .LC_VAR_VARIANT = 0 then s
  else (List.range 20).foldl (fun s k =>
    let d := 20 + k
    (s.unflagBit .PWR_DOMREQ_ON (d % 32) (d / 32)).unflagBit .PWR_DOMSTAT_ON (d % 32) (d / 32)) s

/-- The Bureau writes every SCEx_HEADS from the format record in the Chest (R112). -/
def State.writeHeads (s : State) : State :=
  Str.all.foldl (fun s x => s.onStr x fun s => s.wr .SCEx_HEADS_HEADS (s.format x).heads x.ix) s

/-- The power-on sequence once the rails are in range (R432). -/
def State.powerOn (s : State) (p : PowerIn) : State :=
  let s := ((s.powerReset p.vddKept).modPower fun q => { q with mainpwr := true, railFails := 0 }).variantDomains
  let s := s.setTo .CAL_STAT_REXT_BAD (decide (p.rext < 9600) || decide (14400 < p.rext))
  let s := ((s.setTo .PCIE_CFG_DUAL p.dual).settleIntent.discoverNor p.sfdp).boot
  if s.isSet .LC_BOOT_RECOVERY then s
  else (s.restoreUnits.restoreKeys p).startBridge.configure.writeHeads.enterStandby

/-- MAINPWR_EN is raised; the sequence goes on once the rails are in range (R432, R482). -/
def State.powerUp (s : State) (p : PowerIn) : State :=
  if s.power.railHeld then s
  else if p.rails then s.powerOn p
  else s.modPower fun q => { q with mainpwr := true, railWait := true }

/-! ### Supply -/

/-- SUPPLY_GOOD: in Dormant nothing follows; during an emergency retract the sequence waits for its end (R426, R435). -/
def State.supplyGood (s : State) (p : PowerIn) : State :=
  let was := s.isSet .SB_STAT_V12_OK && s.isSet .SB_STAT_V5_OK
  let s := (s.flag .SB_STAT_V12_OK).flag .SB_STAT_V5_OK
  let s := s.when (!was) fun s => s.modPower fun q => { q with railHeld := false, railFails := 0 }
  if s.power.loss.isSome then
    if Str.all.any s.loaded then s.modPower fun q => { q with supplyDue := some p } else s.powerUp p
  else if (s.mode = 0 && p.vddKept) || (was && s.power.mainpwr) then s
  else s.powerUp p

/-- The end of an emergency retract, and the sequence that waits for it (R434, R435). -/
def State.retractEnd (s : State) : State :=
  let s := s.retractOver
  match s.power.loss, s.power.supplyDue with
  | some _, some p => if Str.all.any s.loaded then s else s.powerUp p
  | _, _ => s

/-- A rail that does not come into range: MAINPWR_EN goes low; the third failure in a row holds it low (R482). -/
def State.railTimeout (s : State) : State :=
  s.when (s.power.mainpwr && s.power.railWait) fun s =>
    let n := s.power.railFails + 1
    s.modPower fun p => { p with mainpwr := false, railWait := false, railFails := n, railHeld := decide (3 ≤ n) }

/-- MAINPWR_RETRY: after 100 ms low. -/
def State.railRetry (s : State) (p : PowerIn) : State :=
  s.when (!s.power.mainpwr && s.power.railFails != 0) fun s => s.powerUp p

/-- A monitored rail below 92 % of nominal: the power-loss event; below 85 %: a power-on reset of every domain but the
Sideboard, with the power-on sequence (R482, log entry 27). -/
def State.railUnder (s : State) (reset v12 v5 : Bool) (vm t : Nat) (p : PowerIn) : State :=
  if s.mode = 0 then s
  else if reset then s.powerUp { p with vddKept := true }
  else s.powerLoss v12 v5 vm t

/-- VM_CHARGED (R425). -/
def State.vmCharged (s : State) : State :=
  let s := s.modSpe fun e => { e with vmCharged := true }
  s.when s.power.startDue State.spinUp

/-! ### Dormant and wakes (R430) -/

/-- Dormant: only the Sideboard is powered; replies are discarded, the Bridge is out of service. -/
def State.enterDormant (s : State) : State :=
  let s := (s.wr .PWR_STAT_MODE 0).onlyDomains [78]
  let s := (s.modPower fun p => { p with mainpwr := false, startDue := false }).modBridge fun b => { b with running := false }
  s.cancelShared.closeSession

/-- A wake source, by its bit in SB_WAKE.EN (R438). -/
def State.wake (s : State) (src : Nat) (p : PowerIn) : State :=
  s.when (s.mode == 0 && s.bit .SB_WAKE_EN src) fun s => (s.wr .SB_STAT_WSRC (src + 1)).powerUp { p with vddKept := true }

/-- Every port's PERST is asserted. -/
def State.allPerst (s : State) : Bool := [0, 1].all fun p => !s.portExists p || s.host.perst.getD p false

/-- DORMANT_TIMEOUT: requests outstanding are completed first (R390). -/
def State.dormantTimeout (s : State) : State :=
  s.when (s.mode == 1 && s.isSet .PWR_CTRL_AUTODORM && s.allPerst && s.bur.requests.isEmpty) State.enterDormant

/-- IDLE_TIMEOUT: no media work for IDLE_MS. -/
def State.idleTimeout (s : State) : State :=
  s.when (!s.mediaWork && s.host.streams.isEmpty) fun s =>
    if s.mode = 4 then s.wr .PWR_STAT_MODE 3
    else if s.mode = 6 then s.wr .PWR_STAT_SUB 0
    else s

/-- BUREAU_REGATE: in Standby with nothing left to do (R427). -/
def State.regate (s : State) : State :=
  s.when (s.mode == 1 && s.bur.requests.isEmpty && s.host.cmds.all fun c => c.ready.isSome || (c.op == .asyncEvent && c.started)) fun s =>
    s.modBur fun b => { b with gated := true }

/-- STRLOST_CLR: the Strings of a mask return to service, in Maintenance only (R431); zones Offline stay so. -/
def State.strlostClr (s : State) (mask : Nat) : State :=
  if s.mode != 7 then s.flag .PWR_STAT_CFG_LOCKED
  else
    let back := Str.all.filter fun x => s.isLost x && mask.testBit x.num
    let s := back.foldl (fun s x =>
      let s := (s.unflagBit .PWR_STRLOST_LOST x.num).modStr x fun t =>
        { t with health := { loadFails := 0, wedgeRetracts := [], nutEnables := 0 } }
      (List.range 10).foldl (fun s k =>
        let d := 10 * x.num + k
        (s.flagBit .PWR_DOMREQ_ON (d % 32) (d / 32)).flagBit .PWR_DOMSTAT_ON (d % 32) (d / 32)) s) s
    if back.isEmpty then s
    else (s.journal (deviceRow 1)).setDegr 0 (Str.all.any s.isLost)

/-! ### Power domains (R433) -/

/-- A WORK allocation exists: Phovi staging, Cibor payloads, Bureau buffers (R293). -/
def State.workHeld (s : State) : Bool :=
  !s.phv.queue.isEmpty || s.phv.engines.any (·.isSome) || !s.phv.saved.isEmpty || !s.bur.transfers.isEmpty || !s.bur.requests.isEmpty

/-- The Bureau may gate a quad: its codewords have completed, and the lanes left are 20 while a stream is armed (R34). -/
def State.quadMayGate (s : State) (q : Nat) : Bool :=
  let lanes := (List.range 4).map (4 * q + ·)
  let away := (s.rd .HARP_RETIRED_LANES ||| s.rd .HARP_WDRAWN_LANES ||| s.rd .HARP_GATED_LANES ||| 15 * 16 ^ q)
  lanes.all (fun n => s.laneJob n == .idle || s.laneJob n == .selfTest)
    && (s.host.streams.isEmpty || decide (20 ≤ 32 - countOnes away 32))

/-- A domain may go off (R433). -/
def State.mayGoOff (s : State) (d : Nat) : Bool :=
  if d < 40 then
    let x := Str.ofNum (d / 10)
    s.isLost x || (s.sceState x == 0 && s.isSet .SCEx_STAT_LOOP_OPEN x.ix)
  else if d < 48 then s.quadMayGate (d - 40)
  else if d < 64 then s.coreState (d - 48) == 3 || (classesOn s.bur.tasks (d - 48)).isEmpty
  else if d < 72 then true
  else d == 77 && !s.workHeld

/-- Register blocks of a domain, by instance, and memory instances of it (R33, R410). -/
def domainBlocks (d : Nat) : List (Blk × Nat) × List Nat :=
  let x := d / 10
  if d < 40 then
    match d % 10 with
    | 3 => ([(.rch, x), (.sfm, x)], [])
    | 4 => ([], [38 + x])
    | 5 => ([(.seq, 3 * x), (.seq, 3 * x + 1), (.seq, 3 * x + 2), (.rld, x)], [26 + 3 * x, 27 + 3 * x, 28 + 3 * x])
    | 6 => ([(.sce, x)], [])
    | 7 => ([(.ae, x)], [])
    | 8 => ([(.svd, x), (.nut, x)], [])
    | 9 => ([(.wrp, x)], [])
    | _ => ([], [])
  else if 48 ≤ d && d < 64 then ([], [d - 48])
  else if d = 70 then ([(.cabinet, 0)], [42])
  else if d = 71 then ([(.phovi, 0)], [43])
  else if 72 ≤ d && d < 78 then ([], [20 + (d - 72)])
  else ([], [])

/-- Registers of a block's instance at their reset values. -/
def State.blockReset (s : State) (b : Blk) (inst : Nat) : State :=
  let mine := b.rows.map (·.reg.ctorIdx)
  let keep := restored.map Reg.ctorIdx
  let gone (e : Nat × Nat) : Bool :=
    mine.contains (e.1 / 2 ^ 20) && !(keep.contains (e.1 / 2 ^ 20)) && e.1 % 2 ^ 20 / 65536 == inst
  { s with regs := s.regs.filter fun e => !gone e, shadow := s.shadow.filter fun e => !(e.reg.row.blk = b && e.idx / 65536 = inst) }

/-- A sequencer whose domain has come up holds nothing but its queue. -/
def Sequencer.powered (u : Sequencer) : Sequencer := { Sequencer.atReset with queue := u.queue, returned := u.returned }

/-- What a String's domain holds beside its registers, when it has come up. -/
def State.stringDomain (s : State) (x : Str) (k : Nat) : State :=
  match k with
  | 3 => s.modRch x fun _ => { Rch.atReset with unconfigured := true }
  | 5 =>
    let s := s.modStr x fun t => { t with ssq := t.ssq.powered, rsq := t.rsq.powered, wsq := t.wsq.powered }
    let other (w : Nat) : Bool := w < controlAddr x .ssq 0 || controlAddr x .wsq 4096 ≤ w
    let s := s.modMemory fun y => { y with check := y.check.filter fun e => other e.1, poisoned := y.poisoned.filter other }
    { s with control := s.control.filter fun e => e.1 / 4096 / 3 != x.num }
  | 6 => s.modSce x fun _ => Sce.atReset
  | 7 => s.modAe x fun _ => Ae.atReset
  | 8 => s.modSvd x fun _ => Svd.atReset
  | 9 =>
    let s := match (s.str.get x).wrp.accZone with
      | some id => s.modRecord id fun r => { r with accValid := false }
      | none => s
    s.modWrp x fun _ => Wrp.atReset
  | _ => s

/-- The Pegs whose analogue part a String's domain feeds: those of a reader's front end, and the VCM sense and
micro-actuator Pegs with the SCE (R441, log entry 30). -/
def domainPegs (k : Nat) : List Nat := if k < 3 then [k, 3 + k, 6 + k] else if k = 6 then [9, 10, 11] else []

/-- VALUE is loaded with TARGET at once (R441). -/
def State.pegLoad (s : State) (x : Str) (n : Nat) : State := s.wr .PEGx_V_VALUE (s.rd .PEGx_T_TARGET (x.ix n)) (x.ix n)

/-- A domain's memory instances come up with INIT_MODE = 1 (R433). -/
def State.domainMemory (s : State) (d : Nat) : State :=
  (domainBlocks d).2.foldl (fun s i => (s.flag .MI_I_CFG_INIT_MODE i).modMemory fun m => { m with filled := m.filled.filter (· != i) }) s

/-- A Harp quad's lanes are available again, and self-tests abandoned with it run anew (R195). -/
def State.quadUp (s : State) (q : Nat) : State :=
  let lanes := (List.range 4).map (4 * q + ·)
  let s := (lanes.foldl (fun s n => s.unflagBit .HARP_GATED_LANES n) (s.flagBit .PWR_DOMSTAT_ON ((40 + q) % 32) ((40 + q) / 32))).harpRefresh
  lanes.foldl (fun s n => s.when (s.bit .HARP_WDRAWN_LANES n) fun s => s.startSelfTest n) s

/-- A gated quad's lanes are unavailable. -/
def State.quadDown (s : State) (q : Nat) : State :=
  let lanes := (List.range 4).map (4 * q + ·)
  (lanes.foldl (fun s n => (s.flagBit .HARP_GATED_LANES n).setLane n .idle) (s.unflagBit .PWR_DOMSTAT_ON ((40 + q) % 32) ((40 + q) / 32))).harpRefresh

/-- A domain powers up: registers at their reset values, SRAM with INIT_MODE = 1 (R433). -/
def State.domainUp (s : State) (d : Nat) : State :=
  if 40 ≤ d && d < 48 then s.quadUp (d - 40)
  else
    let s := s.flagBit .PWR_DOMSTAT_ON (d % 32) (d / 32)
    let s := ((domainBlocks d).1.foldl (fun s b => s.blockReset b.1 b.2) s).domainMemory d
    if d < 40 then (domainPegs (d % 10)).foldl (fun s n => s.pegLoad (Str.ofNum (d / 10)) n) (s.stringDomain (Str.ofNum (d / 10)) (d % 10))
    else s

/-- A domain goes off. With the sequencers or the demodulator isolated the String holds no wedge synchronisation (R51). -/
def State.domainDown (s : State) (d : Nat) : State :=
  if 40 ≤ d && d < 48 then s.quadDown (d - 40)
  else
    let s := s.unflagBit .PWR_DOMSTAT_ON (d % 32) (d / 32)
    s.when (decide (d < 40) && (d % 10 == 5 || d % 10 == 8)) fun s => s.svdIdle (Str.ofNum (d / 10))

/-- One domain's request: a change that breaks a rule is refused (R433); those of absent Strings are ignored (R437). -/
def State.domainRequest (s : State) (d : Nat) : State :=
  let want := s.domainBit .PWR_DOMREQ_ON d
  if want == s.domainBit .PWR_DOMSTAT_ON d then s
  else if want then s.domainUp d
  else if s.mayGoOff d then s.domainDown d
  else (s.flag .PWR_STAT_REFUSED).wr .PWR_DOMERR_DOM d

/-- A write of a PWR_DOMREQ word: its domains are taken in index order. -/
def State.domainWrite (s : State) (word value : Nat) : State :=
  if 3 ≤ word then s
  else
    let live (d : Nat) : Bool := decide (d < 80) && (decide (40 ≤ d) || s.present (Str.ofNum (d / 10)))
    let ds := ((List.range 32).map (32 * word + ·)).filter live
    let v := (ds.map fun d => if value.testBit (d % 32) then 2 ^ (d % 32) else 0).sum
    ds.foldl (fun s d => s.domainRequest d) (s.wr .PWR_DOMREQ_ON v word)

/-- POWER_DOMAIN_FAULT: a fault of one of a String's domains loses the String (R431). -/
def State.domainFault (s : State) (d : Nat) : State :=
  let x := Str.ofNum (d / 10)
  s.when (decide (d < 40) && s.present x && !s.isLost x) fun s => s.stringLost x

/-! ### Meanings -/

def execPowerLossEvent (v12 v5 : Bool) (vm time : Nat) (s : State) : Host.Outcome State Fault Refusal :=
  .next (s.powerLoss v12 v5 vm time)
def execRetractStagger (x : Str) (vm : Nat) (s : State) : Host.Outcome State Fault Refusal :=
  .next (s.onStr x fun s => s.retractStagger x vm)
def execVmRetminRecover (vm : Nat) (s : State) : Host.Outcome State Fault Refusal := .next (s.vmRecover vm)
/-- RETRACT_HOLD_END (R108, R434): with the last String of an emergency retract the retract is over. -/
def execRetractHoldEnd (x : Str) (s : State) : Host.Outcome State Fault Refusal := .next (s.onStr x fun s => (s.retractDone x).retractEnd)
def execSupplyGood (p : PowerIn) (s : State) : Host.Outcome State Fault Refusal := .next (s.supplyGood p)
def execVmCharged (s : State) : Host.Outcome State Fault Refusal := .next s.vmCharged
/-- THERMAL_WAKE: the on-die temperature, in °C, is above TW_TH. -/
def execThermalWake (temp : Nat) (p : PowerIn) (s : State) : Host.Outcome State Fault Refusal :=
  .next (s.when (decide (s.rd .SB_WAKE_TW_TH < temp)) fun s => s.wake 3 p)
def execCapoActivity (p : PowerIn) (s : State) : Host.Outcome State Fault Refusal := .next ((s.flag .SB_STAT_CAPO_ACT).wake 2 p)
/-- RTC_ALARM: SB_RTC reaches SB_ALARM; 0 is off. -/
def execRtcAlarm (p : PowerIn) (s : State) : Host.Outcome State Fault Refusal :=
  .next (s.when (s.isSet .SB_ALARM_SEC && decide (s.rd .SB_RTC_SEC ≤ s.rd .SB_ALARM_SEC)) fun s =>
    (s.wr .SB_RTC_SEC (s.rd .SB_ALARM_SEC)).wake 4 p)
def execDormantTimeout (s : State) : Host.Outcome State Fault Refusal := .next s.dormantTimeout
def execIdleTimeout (s : State) : Host.Outcome State Fault Refusal := .next s.idleTimeout
def execBureauRegate (s : State) : Host.Outcome State Fault Refusal := .next s.regate
def execStrlostClr (mask : Nat) (s : State) : Host.Outcome State Fault Refusal := .next (s.strlostClr mask)
def execDomainRequest (word value mask : Nat) (s : State) : Host.Outcome State Fault Refusal :=
  let old := s.rd .PWR_DOMREQ_ON word
  .next (s.domainWrite word (old - (old &&& mask) + (value &&& mask)))
def execRailUndervoltage (reset v12 v5 : Bool) (vm time : Nat) (p : PowerIn) (s : State) : Host.Outcome State Fault Refusal :=
  .next (s.railUnder reset v12 v5 vm time p)
def execRailTimeout (s : State) : Host.Outcome State Fault Refusal := .next s.railTimeout
def execMainpwrRetry (p : PowerIn) (s : State) : Host.Outcome State Fault Refusal := .next (s.railRetry p)
def execPowerDomainFault (domain : Nat) (s : State) : Host.Outcome State Fault Refusal := .next (s.domainFault domain)

/-- PERST_DEASSERT (R245): the port trains; a Dormant device wakes if it is enabled to. -/
def execPerstDeassert (port : Nat) (wake : PowerIn) (s : State) : Host.Outcome State Fault Refusal :=
  .next ((s.perstDeassert port).when (s.portExists port) fun s => s.wake 0 wake)

/-- A message on the SMBus: in Dormant its address match wakes the device if it is enabled to, and it is not answered. -/
def State.smbus (s : State) (p : PowerIn) (f : State → State) : State := if s.mode = 0 then s.wake 1 p else f s

def execNvmeMiReadDataStructure (kind k : Nat) (wake : PowerIn) (s : State) : Host.Outcome State Fault Refusal :=
  .next (s.smbus wake fun s => s.miDataStructure kind k)
def execNvmSubsystemHealthPoll (wake : PowerIn) (s : State) : Host.Outcome State Fault Refusal :=
  .next (s.smbus wake State.miSubsystemHealth)
def execControllerHealthPoll (k : Nat) (wake : PowerIn) (s : State) : Host.Outcome State Fault Refusal :=
  .next (s.smbus wake fun s => s.miControllerHealth k)
def execConfigurationSet (id value : Nat) (wake : PowerIn) (s : State) : Host.Outcome State Fault Refusal :=
  .next (s.smbus wake fun s => s.miConfigSet id value)
def execConfigurationGet (id : Nat) (wake : PowerIn) (s : State) : Host.Outcome State Fault Refusal :=
  .next (s.smbus wake fun s => s.miConfigGet id)
def execVpdRead (offset n : Nat) (wake : PowerIn) (s : State) : Host.Outcome State Fault Refusal :=
  .next (s.smbus wake fun s => s.vpdRead offset n)
def execVpdWrite (offset : Nat) (bytes : List Nat) (wake : PowerIn) (s : State) : Host.Outcome State Fault Refusal :=
  .next (s.smbus wake fun s => s.vpdWrite offset bytes)
def execBasicManagementCommand (wake : PowerIn) (s : State) : Host.Outcome State Fault Refusal :=
  .next (s.smbus wake State.basicManagement)

end Sys2Proof.Machine
end

