-- ==== Sys2Proof/Machine/Thermal.lean ====
section
/-! DEFINITION. Machine/Thermal.lean: the Pegs (R439 to R442), temperature sensing, thresholds and throttling (R446 to R453),
calibration scripts and their schedule (R443 to R445), and the meanings of their commands. -/
namespace Sys2Proof.Machine

/-! ### Pegs -/

/-- VALUE after a tick: one LSB toward TARGET (R440). -/
def pegStep (target value : Nat) : Nat := if value < target then value + 1 else if target < value then value - 1 else value

/-- A tick of a String's twelve Pegs, or of the shared ones; none while the power-loss event is in force (R442). -/
def State.pegTick (s : State) (x : Option Str) : State :=
  if s.power.loss.isSome then s
  else
    (List.range 12).foldl (fun s n =>
      match x with
      | some x => s.wr .PEGx_V_VALUE (pegStep (s.rd .PEGx_T_TARGET (x.ix n)) (s.rd .PEGx_V_VALUE (x.ix n))) (x.ix n)
      | none => s.wr .CAL_PEG_V_VALUE (pegStep (s.rd .CAL_PEG_T_TARGET n) (s.rd .CAL_PEG_V_VALUE n)) n) s

/-! ### Throttling -/

def State.modTherm (s : State) (f : Thermal → Thermal) : State := { s with therm := f s.therm }

/-- Sensors of this variant (R446, R457). -/
def State.sensors (s : State) : List Nat := if s.rd .LC_VAR_VARIANT = 0 then List.range 12 else [0, 1, 4, 5, 6, 7, 8, 9, 10, 11]

/-- Sensors whose last reading was valid. -/
def State.goodSensors (s : State) : Nat := (s.sensors.filter fun i => !s.bit .THR_STAT_SNS_BAD i).length

/-- The level in force (R446, R450). -/
def State.throttleLevel (s : State) : Nat :=
  let l := min 8 (max s.therm.level (s.rd .THR_CTRL_L_MIN) + s.therm.step)
  if s.goodSensors < 4 then max 4 l else l

/-- Lanes away: retired, withdrawn or gated. -/
def State.awayLanes (s : State) : Nat := s.rd .HARP_RETIRED_LANES ||| s.rd .HARP_WDRAWN_LANES ||| s.rd .HARP_GATED_LANES

/-- Retired lanes of a quad. -/
def State.quadRetired (s : State) (q : Nat) : Nat := countOnes (s.rd .HARP_RETIRED_LANES / 16 ^ q % 16) 4

/-- The quads that a level gates: those holding most retired lanes first, the lower number first among equals, until the
available lanes are at most 32 − 4L; no quad that would leave fewer than 20 (R34, R451). `away` counts what is away besides
the quads that throttling has gated. -/
def gateChoice (l : Nat) (order : List Nat) (away : Nat) : List Nat :=
  (order.foldl (fun (acc : List Nat × Nat) q =>
    let next := acc.2 ||| 15 * 16 ^ q
    if 32 - countOnes acc.2 32 ≤ 32 - 4 * l || 32 - countOnes next 32 < 20 || next = acc.2 then acc else (acc.1 ++ [q], next)) ([], away)).1

def State.quadOrder (s : State) : List Nat :=
  [4, 3, 2, 1, 0].flatMap fun k => (List.range 8).filter fun q => s.quadRetired q = k

/-- Quads to be gated at the level in force. -/
def State.quadsWanted (s : State) : List Nat :=
  let mine := s.therm.quads.foldl (fun m q => m ||| 15 * 16 ^ q) 0
  let gone := s.rd .HARP_RETIRED_LANES ||| s.rd .HARP_WDRAWN_LANES ||| (s.rd .HARP_GATED_LANES - (s.rd .HARP_GATED_LANES &&& mine))
  gateChoice (s.rd .THR_STAT_LEVEL) s.quadOrder gone

/-- Quads out of dispatch whose codewords have completed are gated, one after another, each by the lanes then left; read streams are admitted anew (R34, R452). -/
def State.gateDrained (s : State) : State :=
  let had := s.therm.draining
  let s := had.foldl (fun s q => s.when (s.quadMayGate q) fun s =>
    let s := (s.unflagBit .PWR_DOMREQ_ON (8 + q) 1).quadDown q
    s.modTherm fun t => { t with draining := t.draining.filter (· != q), quads := q :: t.quads }) s
  s.when (s.therm.draining != had) State.readmitReads

/-- Harp gating follows the level (R451). -/
def State.throttleHarp (s : State) : State :=
  let want := s.quadsWanted
  let back := s.therm.quads.filter fun q => !want.contains q
  let s := s.modTherm fun t => { t with draining := want.filter (fun q => !t.quads.contains q), quads := t.quads.filter want.contains }
  let s := back.foldl (fun s q => (s.flagBit .PWR_DOMREQ_ON (8 + q) 1).quadUp q) s
  s.gateDrained.harpDispatch

/-- The level in force is shown and acts (R450 to R452). At level 8 every pending write request of the media manager is
withdrawn. -/
def State.throttle (s : State) : State :=
  let l := s.throttleLevel
  let old := s.rd .THR_STAT_LEVEL
  if l = old then s
  else
    let s := (s.wr .THR_STAT_LEVEL l).setTo .THR_STAT_THROT (l != 0)
    let s := s.when (decide (old < l)) fun s => s.bump .THR_CNT_STEPS
    let s := s.when (l = 8) fun s => Str.all.foldl (fun s x => s.onStr x fun s => s.withdrawWrites x fun _ => true) s
    s.throttleHarp.readmitWrites

/-! ### Temperature sensing -/

/-- Twice the median of a list of readings. -/
def median2 (l : List Int) : Int :=
  let sorted := l.foldl (fun (acc : List Int) v => acc.takeWhile (fun w => decide (w ≤ v)) ++ v :: acc.dropWhile (fun w => decide (w ≤ v))) []
  let n := sorted.length
  sorted.getD ((n - 1) / 2) 0 + sorted.getD (n / 2) 0

/-- The sensors that read validly (R446): within −40 °C to 150 °C, and within 15 °C of the median of those. -/
def validSensors (use : List Nat) (temps : List Int) : List Nat :=
  let inRange := use.filter fun i => decide (-160 ≤ temps.getD i 0) && decide (temps.getD i 0 ≤ 600)
  let m := median2 (inRange.map fun i => temps.getD i 0)
  inRange.filter fun i => decide ((2 * temps.getD i 0 - m).natAbs ≤ 120)

/-- T_J, the highest valid reading, in quarter degrees; with none valid the last one stands (log entry 31). -/
def State.tj (s : State) : Int := toSigned 12 (s.rd .THR_STAT_TJ)

/-- The readings are taken (R446). -/
def State.takeReadings (s : State) (temps : List Int) : State :=
  let use := s.sensors
  let good := validSensors use temps
  let s := use.foldl (fun s i => s.wr .THR_SNS_T (ofSigned 12 (clampInt (-2048) 2047 (temps.getD i 0))) i) s
  let s := s.wr .THR_STAT_SNS_BAD ((use.filter fun i => !good.contains i).foldl (fun m i => m + 2 ^ i) 0)
  match good.map fun i => temps.getD i 0 with
  | [] => s
  | t :: ts => s.wr .THR_STAT_TJ (ofSigned 12 (ts.foldl max t))

/-- Thermal shutdown (R430, R449): streams withdrawn, cause 4; the heads unload, and SPE stops with STOPMODE 1. -/
def State.thermalShutdown (s : State) : State :=
  let s := (((s.flag .THR_STAT_SHUT).modTherm fun t => { t with level := 8 }).bump .THR_CNT_SHUTDOWNS).vendorEvent 0x06 fun _ => true
  if s.mode ≤ 1 then s else ((s.withdrawAll 4).wr .SPE_CTRL_STOPMODE 1).goStandby

/-- Warning, throttle and shutdown thresholds (R449, R450, R453). -/
def State.thresholds (s : State) : State :=
  let t := s.tj
  let s := if !s.isSet .THR_STAT_WARN && decide (380 ≤ t) then (s.flag .THR_STAT_WARN).vendorEvent 0x05 fun _ => true
    else s.when (decide (t < 360)) fun s => s.unflag .THR_STAT_WARN
  let shut := !s.isSet .THR_STAT_SHUT && decide (500 ≤ t)
  let s := if !s.therm.hot && decide (440 ≤ t) then s.modTherm fun m => { m with hot := true, level := min 8 (m.level + 1) }
    else s.when (decide (t < 420)) fun s => s.modTherm fun m => { m with hot := false }
  if shut then s.thermalShutdown else s.when (decide (t < 480)) fun s => s.unflag .THR_STAT_SHUT

/-- The Temperature Threshold feature acts on Composite Temperature: an event as it passes a threshold (R448). -/
def State.temperatureEvents (s : State) : State :=
  let c := s.composite
  (List.range s.host.controllers.length).foldl (fun s k =>
    match s.host.controllers[k]? with
    | some h =>
      let now := boolNat (decide (h.threshold false ≤ c)) + 2 * boolNat (decide (c ≤ h.threshold true))
      let was := s.therm.beyond.getD k 0
      let s := s.modTherm fun t => { t with beyond := t.beyond.set k now }
      let fresh := (now % 2 = 1 && was % 2 = 0) || (now / 2 = 1 && was / 2 = 0)
      s.when (fresh && h.enabled && (h.feature 0x0B).testBit 1) fun s => s.hostEvent k 1 1
    | none => s) s

/-- THERMAL_SAMPLE: the readings, in quarter degrees, and the extra step that HK_THERMAL returns. -/
def State.thermalSample (s : State) (temps : List Int) (step : Nat) : State :=
  if s.mode = 0 then s
  else
    let s := s.takeReadings temps
    let s := s.modTherm fun t => { t with step := if s.hookAlive 5 then min 8 step else 0 }
    (s.thresholds.throttle.temperatureEvents.gateDrained).settleRequests

/-- THROTTLE_TICK (R450). -/
def State.throttleTick (s : State) : State :=
  if s.mode = 0 then s
  else
    let t := s.tj
    let l := s.therm.level
    let l := if 440 ≤ t then min 8 (l + 1) else if t < 420 then l - 1 else l
    ((s.modTherm fun m => { m with level := l }).throttle).gateDrained

/-! ### Calibration scripts -/

/-- Host media work is queued on a String. -/
def State.hostWork (s : State) (x : Str) : Bool :=
  let work (u : Sequencer) : Bool := u.queue.any (fun r => r.source == .host) || u.loaded.any fun r => r.source == .host
  work (s.seq x .rsq) || work (s.seq x .wsq)

/-- A script writes Peg targets. -/
def writesPegs (script : Nat) : Bool := (1 ≤ script && script ≤ 5) || script = 8

/-- Scripts that run on a track of one head. -/
def onHead (script : Nat) : Bool := script = 2 || script = 3 || script = 6

/-- Conditions of a script, but for the state of the AE (R443). That the track is a calibration track is the Bureau's to
see to (log entry 32). -/
def State.calCondition (s : State) (script : Nat) (x : Str) (head : Nat) : Bool :=
  let i := x.ix
  let track := s.sceState x == 4 && (!onHead script || s.aeHead x == head)
  if writesPegs script && s.isSet .CAL_STAT_REXT_BAD then false
  else
    match script with
    | 1 | 2 | 3 => track
    | 4 => s.sceState x == 0 && s.isSet .SCEx_STAT_LOOP_OPEN i
    | 5 => track && !s.isSet .SCEx_CTRL_OPT_EN i
    | 6 => track && !s.isSet .AEx_CTRL_FH_EN i
    | 7 => s.synced x
    | _ => s.speState == 0

/-- What a script asks of the AE and the preamp when it starts: FE_OFFSET MODE 3 and no read gate open, TD_SEARCH READ. -/
def State.calAe (s : State) (script : Nat) (x : Str) : Bool :=
  if script = 1 then (s.str.get x).ae.mode == 3 && (s.str.get x).rch.gate.isNone
  else if script = 6 then s.aeState x == 1
  else true

/-- Targets of a script, in the order of its results. -/
def calTargets (script : Nat) (x : Str) : List (Reg × Nat) :=
  let pegs (l : List Nat) := l.map fun n => (Reg.PEGx_T_TARGET, x.ix n)
  match script with
  | 1 => pegs [3, 4, 5]
  | 2 => pegs [6, 7, 8]
  | 3 => pegs [0, 1, 2]
  | 4 => pegs [9, 10]
  | 5 => pegs [11]
  | 7 => (List.range 6).map fun h => (Reg.SVDx_HSKEW_HSKEW, x.ix h)
  | 8 => [3, 4, 5, 6, 7, 8, 9].map fun n => (Reg.CAL_PEG_T_TARGET, n)
  | _ => []

/-- String of a run's mask; a script on shared parts has none. -/
def runStr (mask : Nat) : Str := if mask = 8 then .D else if mask = 4 then .C else if mask = 2 then .B else .A

/-- The touchdown search enters CAL at its heater (R146 step 2). -/
def State.tdEnter (s : State) (x : Str) (heater : Nat) : State :=
  (s.wr .AEx_CALHTR_HTR heater x.ix).shadowWr .AEx_CTRL_CAL_EN 1 x.ix

/-- A script starts (R443). -/
def State.calStart (s : State) (script mask head : Nat) (request : Option Nat) (entry : Option Nat) : State :=
  let x := runStr mask
  let c : CalRun := { script, mask, head, request, entry, yielded := false, mean := none, flat := 0, firstFlat := 0
                      contact := none, refSum := 0, refCount := 0 }
  let s := s.modCal fun k => { k with runs := k.runs ++ [c] }
  let s := ((s.flag .CAL_STAT_BUSY).wr .CAL_STAT_SCRIPT script).wr .CAL_STAT_STRING mask
  s.when (script == 6) fun s => s.tdEnter x (s.rd .AEx_H_HTR_HTR_RD (x.ix head) - 100)

/-- A script may start: its conditions hold. -/
def State.calReady (s : State) (script mask head : Nat) : Bool :=
  let x := runStr mask
  s.calCondition script x head && s.calAe script x

/-- CAL_RUN and TD_SEARCH once their turn has come (R443, R146). -/
def State.calRequest (s : State) (r : CiborRequest) (script : Nat) : State :=
  let mask := if script = 8 then 0 else r.target % 16
  let head := r.target / 16 % 8
  let one := mask = 1 || mask = 2 || mask = 4 || mask = 8
  if !(1 ≤ script && script ≤ 8) || (script != 8 && !one) || (onHead script && 6 ≤ head) || (script != 8 && !s.present (runStr mask)) then
    s.reply r .cfgRange
  else if s.cal.runs.any fun c => c.mask == mask then s.reply r .busy
  else if !s.calReady script mask head then s.reply r .notReady
  else (s.modRequest r fun q => { q with started := true }).calStart script mask head (some r.order) none

/-- A scheduled script gives way: TD_SEARCH leaves CAL, its CALHTR kept (R445, log entry 32). -/
def State.calYield (s : State) (c : CalRun) : State :=
  let s := s.modRun c fun d => { d with yielded := true }
  s.when (c.script == 6 && c.contact.isNone) fun s => s.shadowWr .AEx_CTRL_CAL_EN 0 (runStr c.mask).ix

/-- A value lies within the range of a target: 0 to 1,023, and 16 bits for HSKEW. -/
def targetFits (r : Reg) (v : Int) : Bool :=
  if r = .SVDx_HSKEW_HSKEW then decide (-32768 ≤ v) && decide (v ≤ 32767) else decide (0 ≤ v) && decide (v ≤ 1023)

/-- A script ends with its computed values: one outside its range is not written, and the reply is CFG_RANGE (R443). -/
def State.calFinish (s : State) (c : CalRun) (values : List Int) : State :=
  let l := (calTargets c.script (runStr c.mask)).zip values
  let s := l.foldl (fun s e => s.when (targetFits e.1.1 e.2) fun s => s.wr e.1.1 (ofSigned e.1.1.row.width e.2) e.1.2) s
  let ok := l.all fun e => targetFits e.1.1 e.2
  s.calEnd c (if ok then .ok else .cfgRange) ((l.map fun e => ofSigned 32 e.2).take 3)

/-- One 8-Fret step of a script: it gives way, ends NOT_READY where its conditions no longer hold (log entry 32), or goes
on as `f` says. -/
def State.calStepWith (s : State) (c : CalRun) (f : State → State) : State :=
  let x := runStr c.mask
  if c.yielded then s
  else if c.request.isNone && c.mask != 0 && s.hostWork x then s.calYield c
  else if !s.calCondition c.script x c.head then (s.when (c.script == 6) fun s => s.tdRelease x).calEnd c .notReady
  else f s

/-- CAL_SCRIPT_STEP: `result` holds the computed values at the last step. -/
def State.calScriptStep (s : State) (mask : Nat) (result : Option (List Int)) : State :=
  match s.cal.runs.find? fun c => c.mask == mask && c.script != 6 with
  | none => s
  | some c => s.calStepWith c fun s =>
    match result with
    | some vs => s.calFinish c vs
    | none => s

/-- The contact test of R444 after a step: the heater at contact, if any, and the run with its mean. -/
def tdTest (c : CalRun) (heater flat pesLimit ecs pes : Nat) : Option Nat × CalRun :=
  let short := c.mean.any fun m => decide (m < ecs + flat)
  let n := if short then c.flat + 1 else 0
  let first := if n = 1 then heater else c.firstFlat
  let d := { c with mean := some ecs, flat := n, firstFlat := first }
  (if pesLimit < pes then some heater else if 2 ≤ n then some first else none, d)

/-- TD_STEP: the mean of ECS and the RMS of PES, in 1/256 track, over the 8 Frets at the present heater. -/
def State.tdStep (s : State) (x : Str) (ecs pes : Nat) : State :=
  match s.tdRun x with
  | none => s
  | some c => s.calStepWith c fun s =>
    match c.contact with
    | some k =>
      let sum := c.refSum + ecs
      if c.refCount < 7 then s.modRun c fun d => { d with refSum := sum, refCount := c.refCount + 1 }
      else (s.wr .AEx_H_ECS_ECS_REF ((2 * sum + 8) / 16) (x.ix c.head)).calEnd c .ok [k]
    | none =>
      if s.aeState x != 5 then (s.tdRelease x).calEnd c .notReady
      else
        let heater := s.rd .AEx_CALHTR_HTR x.ix
        let top := s.rd .AEx_H_HLIM_HTR_MAX (x.ix c.head)
        let (hit, d) := tdTest c heater (s.rd .CAL_TD_TD_FLAT) (s.rd .CAL_TD_TD_PES) ecs pes
        match hit with
        | some k => s.tdContact x c k
        | none =>
          if top ≤ heater then (s.tdRelease x).calEnd c .calNoContact
          else ((s.modRun c fun _ => d).wr .AEx_CALHTR_HTR (min top (heater + s.eff .CAL_TD_TD_STEP)) x.ix)

/-! ### Schedule (R445) -/

/-- The temperature that an entry watches, in quarter degrees: T_J, or the selected head's. -/
def State.calTemp (s : State) (script : Nat) (x : Str) : Int :=
  if (1 ≤ script && script ≤ 3) || script = 5 then 2 * (s.rd .AEx_H_HSTAT_TEMP (x.ix (s.aeHead x)) : Int) - 80 else s.tj

/-- Minutes of the RTC. -/
def State.minutes (s : State) : Nat := s.rd .SB_RTC_SEC / 60

/-- An enabled entry is due on a String. -/
def State.calDue (s : State) (n : Nat) (x : Str) : Bool :=
  let script := s.rd .CAL_SCH_SCRIPT n
  let (last, temp) := s.cal.ran.getD (4 * n + x.num) (0, 0)
  let period := s.rd .CAL_SCH_PERIOD n
  let delta := s.rd .CAL_SCH_TDELTA n
  s.isSet .CAL_SCH_EN n && 1 ≤ script && script ≤ 8
    && ((period != 0 && decide (last + period ≤ s.minutes))
      || (delta != 0 && decide (4 * delta ≤ (s.calTemp script x - temp).natAbs)))

/-- CAL_SCHEDULE_DUE: an entry starts on a String without host media work. -/
def State.calScheduleDue (s : State) (n : Nat) (x : Str) : State :=
  let script := s.rd .CAL_SCH_SCRIPT n
  let mask := if script = 8 then 0 else x.bit
  let head := s.aeHead x
  if !(n < 8) || !s.calDue n x || s.hostWork x || (s.cal.runs.any fun c => c.mask == mask) || !s.calReady script mask head then s
  else
    let s := s.modCal fun k => { k with ran := k.ran.set (4 * n + x.num) (s.minutes, s.calTemp script x) }
    s.calStart script mask head none (some n)

/-- SCRIPT_RESUME: a script that gave way goes on from its step, its conditions met again. -/
def State.scriptResume (s : State) (mask : Nat) : State :=
  match s.cal.runs.find? fun c => c.mask == mask && c.yielded with
  | none => s
  | some c =>
    let x := runStr mask
    let search := c.script == 6 && c.contact.isNone
    if s.hostWork x || !s.calCondition c.script x c.head || (search && s.aeState x != 1) then s
    else
      let s := s.modRun c fun d => { d with yielded := false }
      s.when search fun s => s.shadowWr .AEx_CTRL_CAL_EN 1 x.ix

/-- CAL_ABORT (R454): what runs ends; targets already written stand. The manual gives no status for its reply: INTERNAL
(log entry 32). -/
def State.calAbort (s : State) : State :=
  s.cal.runs.foldl (fun s c => (s.when (c.script == 6) fun s => s.tdRelease (runStr c.mask)).calEnd c .internal) s

/-! ### Meanings -/

/-- PEG_TICK: of a String at its SAM or after 1 ms without synchronisation, of the shared Pegs every 1 ms. -/
def execPegTick (x : Option Str) (s : State) : Host.Outcome State Fault Refusal :=
  .next (s.when (x.all s.present) fun s => s.pegTick x)
def execThermalSample (temps : List Int) (hookStep : Nat) (s : State) : Host.Outcome State Fault Refusal :=
  .next (s.thermalSample temps hookStep)
def execThrottleTick (s : State) : Host.Outcome State Fault Refusal := .next s.throttleTick
def execCalScheduleDue (entry : Nat) (x : Str) (s : State) : Host.Outcome State Fault Refusal :=
  .next (s.onStr x fun s => s.calScheduleDue entry x)
def execScriptResume (mask : Nat) (s : State) : Host.Outcome State Fault Refusal := .next (s.scriptResume mask)
def execTdStep (x : Str) (ecs pes : Nat) (s : State) : Host.Outcome State Fault Refusal := .next (s.onStr x fun s => s.tdStep x ecs pes)
def execCalAbort (s : State) : Host.Outcome State Fault Refusal := .next s.calAbort
def execCalScriptStep (mask : Nat) (result : Option (List Int)) (s : State) : Host.Outcome State Fault Refusal :=
  .next (s.calScriptStep mask result)

end Sys2Proof.Machine
end

