-- ==== Sys2Proof/Machine/Cores.lean ====
section
/-! DEFINITION. Machine/Cores.lean: the Bureau's cores: watchdogs, retirement, self-tests and return to service (R378 to R380,
R399). -/
namespace Sys2Proof.Machine

/-- The cluster of a core as an index of its registers. -/
def coreIx (c : Nat) : Nat := c / 4 * 65536

/-- With all four cores of a cluster retired its L2 is cleaned and disabled (R379). -/
def State.clusterOff (s : State) (n : Nat) : State :=
  if (List.range 4).all fun k => s.coreState (4 * n + k) == 3 then
    (s.flag .BURn_STAT_L2_OFF (n * 65536)).when (s.isSet .L2n_CTRL_EN (n * 65536)) fun s => s.l2Disable n
  else s

/-- A core's domain off or on, as the Bureau requests it (R433). -/
def State.coreDomain (s : State) (c : Nat) (on : Bool) : State :=
  let d := 48 + c
  if on then
    let s := s.flagBit .PWR_DOMREQ_ON (d % 32) (d / 32)
    if s.domainBit .PWR_DOMSTAT_ON d then s else (s.flagBit .PWR_DOMSTAT_ON (d % 32) (d / 32)).domainMemory d
  else (s.unflagBit .PWR_DOMREQ_ON (d % 32) (d / 32)).unflagBit .PWR_DOMSTAT_ON (d % 32) (d / 32)

/-- The fall from 12 cores to 11 is reported to every controller that has the event enabled; 7 or fewer degrade the device
(R380, log entry 35). -/
def State.capacityChange (s : State) (before : Nat) : State :=
  let now := s.coresIn.length
  (s.when (decide (now ≤ 11) && decide (12 ≤ before)) fun s => s.vendorEvent 0x04 fun _ => true).coresDegr

/-- A core leaves service for good: the Chest's device state, CORE_RET, the event; its tasks move; its domain goes off
(R378, R379, R396). -/
def State.coreOut (s : State) (c cause : Nat) : State :=
  let before := s.coresIn.length
  let s := ((s.setCore c 3).wr .BURn_STAT_CAUSE_LAST cause (coreIx c)).flag .BURn_STAT_CORE_RET (coreIx c)
  let s := ((s.moveTasks c false).chestRow 1 (deviceRow 5)).logEvent 0x0006 1 0 [c, cause]
  ((s.coreDomain c false).clusterOff (c / 4)).capacityChange before

/-- A core is reset alone and returns to service; its tasks move (R378). -/
def State.coreReset (s : State) (c : Nat) : State := s.moveTasks c false

/-- The core is the last one in service. -/
def State.lastCore (s : State) (c : Nat) : Bool := s.coresIn == [c]

/-- A core is retired (R378). The last one in service is not: a fault resets it, and is counted (log entry 35). -/
def State.coreRetire (s : State) (c cause : Nat) : State :=
  if 16 ≤ c || s.coreState c != 0 then s
  else if s.lastCore c then
    if cause = 4 then s else if cause = 2 then s.coreReset c else (s.bump .BURn_CNT_WDOG_EXP (coreIx c)).coreReset c
  else s.coreOut c cause

/-- CORE_WATCHDOG: the second expiry within 24 hours retires the core. -/
def State.coreWatchdog (s : State) (c : Nat) : State :=
  if 16 ≤ c || s.coreState c != 0 || s.bit .BNCH_STAT_HALTED c then s
  else
    let now := s.rd .SB_RTC_SEC
    let again := s.bur.expiries.any fun e => e.1 == c && decide (now ≤ e.2 + 86400)
    let s := (s.flag .BURn_STAT_WDOG (coreIx c)).bump .BURn_CNT_WDOG_EXP (coreIx c)
    let s := s.modBur fun b => { b with expiries := (c, now) :: b.expiries.filter fun e => e.1 != c }
    if again then s.coreRetire c 2 else s.coreReset c

/-- A core comes back to service. -/
def State.coreBack (s : State) (c : Nat) : State :=
  let s := ((s.setCore c 0).unflag .BURn_STAT_L2_OFF (coreIx c)).chestRow 1 (deviceRow 5)
  ((s.modBur fun b => { b with expiries := b.expiries.filter fun e => e.1 != c }).scheduleTasks fun _ => true).coresDegr

/-- CORE_SELF_TEST: of a core being restored, or the periodic test of one in service (R378, R399). -/
def State.coreSelfTest (s : State) (c : Nat) (passed : Bool) : State :=
  if 16 ≤ c then s
  else if s.coreState c = 2 then
    (if passed then s.coreBack c
     else (((s.setCore c 3).wr .BURn_STAT_CAUSE_LAST 3 (coreIx c)).coreDomain c false)).settleRequests
  else if passed then s
  else s.coreRetire c 3

/-- RETIRE bits of a cluster. -/
def State.coreRetireMask (s : State) (n mask : Nat) : State :=
  (List.range 4).foldl (fun s k => s.when (mask.testBit k) fun s => s.coreRetire (4 * n + k) 4) s

/-- A retired core powers up and is tested. -/
def State.coreTest (s : State) (c : Nat) : State := if s.coreState c = 3 then (s.coreDomain c true).setCore c 2 else s

/-- UNRETIRE bits of a cluster: in Maintenance alone. -/
def State.coreUnretireMask (s : State) (n mask : Nat) : CStat × State :=
  if s.mode != 7 then (.cfgLocked, s.flag .BURn_STAT_CFG_LOCKED (n * 65536))
  else (.ok, (List.range 4).foldl (fun s k => s.when (mask.testBit k) fun s => s.coreTest (4 * n + k)) s)

/-! ### Meanings -/

def execCoreWatchdog (core : Nat) (s : State) : Host.Outcome State Fault Refusal := .next (s.coreWatchdog core)
def execMachineCheck (core : Nat) (s : State) : Host.Outcome State Fault Refusal := .next (s.coreRetire core 1)
def execCoreSelfTest (core : Nat) (passed : Bool) (s : State) : Host.Outcome State Fault Refusal := .next (s.coreSelfTest core passed)
def execBurRetire (cluster mask : Nat) (s : State) : Host.Outcome State Fault Refusal := .next (s.coreRetireMask (cluster % 4) mask)
def execBurUnretire (cluster mask : Nat) (s : State) : Host.Outcome State Fault Refusal := .next (s.coreUnretireMask (cluster % 4) mask).2

end Sys2Proof.Machine
end

