-- ==== Sys2Proof/Machine/RegisterWrite.lean ====
section
/-! DEFINITION. Machine/RegisterWrite.lean: writes of registers, control stores and memory words through the fabric: change
classes (R9 to R12), access types (R13 to R15), what each writable field does beside taking its value, error responses (R35,
R39), and REGISTER_WRITE. -/
namespace Sys2Proof.Machine

/-! ### Running and locked -/

/-- The flag that a refused write to a K field of a block sets (R9); blocks without K fields have none. -/
def lockFlag : Blk → Option Reg
  | .capo => some .CAPO_STAT_CFG_LOCKED
  | .spe => some .SPE_STAT_CFG_LOCKED
  | .sce => some .SCEx_STAT_CFG_LOCKED
  | .svd => some .SVDx_STAT_CFG_LOCKED
  | .ae => some .AEx_STAT_CFG_LOCKED
  | .nut => some .NUTx_STAT_CFG_LOCKED
  | .rch => some .RCHx_STAT_CFG_LOCKED
  | .sfm => some .SFMx_STAT_CFG_LOCKED
  | .wrp => some .WRPx_STAT_CFG_LOCKED
  | .hqe => some .HQEn_STAT_CFG_LOCKED
  | .pcie => some .PCIE_STAT_CFG_LOCKED
  | .bridge => some .BRG_STAT_CFG_LOCKED
  | .phovi => some .PHV_STAT_CFG_LOCKED
  | .seq => some .SQ_STAT_CFG_LOCKED
  | .l2 => some .L2n_STAT_CFG_LOCKED
  | .cal => some .CAL_STAT_CFG_LOCKED
  | _ => none

/-- The String of a per-String block's instance. -/
def instStr (inst : Nat) : Str := Str.ofNum inst

/-- A ladder of the String is running (the ladder chapter's "Registers"). -/
def State.ladderRunning (s : State) (x : Str) : Bool :=
  s.isSet .RLDx_STAT_ACTIVE x.ix || (s.str.get x).rch.slots.any fun c => c.any fun c => c.slipRun && (!c.slipCands.isEmpty || !c.slipOut.isEmpty)
    || (s.str.get x).ladders.any fun l => l.state == .buffered

/-- A block's instance is running, as its chapter defines it. -/
def State.running (s : State) (b : Blk) (inst : Nat) : Bool :=
  let x := instStr inst
  match b with
  | .capo => s.capoState != 0
  | .spe => s.speState != 0
  | .sce => !s.isSet .SCEx_STAT_LOOP_OPEN x.ix
  | .svd => s.isSet .SVDx_STAT_SYNC_STATE x.ix
  | .ae | .nut => s.aeState x != 0
  | .rch | .sfm | .wrp => s.channelRunning x
  | .harp => Str.all.any s.channelRunning
  | .rld => s.ladderRunning x
  | .hqe => s.isSet .HQEn_STAT_EN (inst * 65536)
  | .bridge => s.bridge.running
  | .phovi => s.domainBit .PWR_DOMSTAT_ON 71
  | .seq => s.isSet .SQ_STAT_STATE (inst * 65536)
  | .cal => s.isSet .CAL_STAT_BUSY
  | .bench => s.isSet .BNCH_STAT_SESSION
  | _ => true

/-- A K field is locked now: its block runs, or what it belongs to does (the PCIe fields of a port while its PERST is
deasserted, a RAT entry while VALID, the SMBus address never between two messages: log entry 33). -/
def State.kLocked (s : State) (r : RegRow) (inst k : Nat) : Bool :=
  match r.reg with
  | .PCIE_CFG_FN_CNT0 | .PCIE_CFG_CLK0 | .PCIE_CFG_MAXSPD0 => !(s.host.perst.getD 0 true)
  | .PCIE_CFG_FN_CNT1 | .PCIE_CFG_CLK1 | .PCIE_CFG_MAXSPD1 => !(s.host.perst.getD 1 true)
  | .PCIE_MI_MI_ADDR => false
  | .L2n_RAT_BASE_BASE | .L2n_RAT_LIMIT_LIMIT | .L2n_RAT_CTL_POL => s.isSet .L2n_RAT_CTL_VALID (inst * 65536 + k)
  | .SCEx_FALLBACK_TABLE => s.running .sce inst
  | _ => s.running r.blk inst

/-- An "L or K" field is locked now: of the active bank (R97), of the selected head (R129, R226, the AE's "Registers"), of
the active channel set (R176), of the accumulator during a run (R226). -/
def State.lkLocked (s : State) (r : RegRow) (inst k : Nat) : Bool :=
  let x := instStr inst
  match r.reg with
  | .SCEx_BANK0_TABLE => s.rd .SCEx_STAT_ACTBANK x.ix == 0 && s.running .sce inst
  | .SCEx_BANK1_TABLE => s.rd .SCEx_STAT_ACTBANK x.ix == 1 && s.running .sce inst
  | .RCHx_SET_SET => k / 256 == s.activeSet x && s.running .rch inst
  | .WRPx_ACC_DATA => s.isSet .WRPx_STAT_RUN x.ix
  | _ => k == s.aeHead x && s.running r.blk inst

/-! ### What fields do -/

/-- What a write of word `k` of a coefficient table answers (R92): the write of the header word, which gives the table its
section count, hands the table to the loader, which refuses it with CFG_RANGE (log entry 17). -/
def State.tableStatus (s : State) (x : Str) (t k : Nat) : CStat := if k = 0 && !s.tableAccepted x t then .cfgRange else .ok

/-- A field takes a value at once: what it does beside that. -/
def State.setField (s : State) (r : RegRow) (inst k v : Nat) : CStat × State :=
  let i := inst * 65536 + k
  let x := instStr inst
  let old := s.rd r.reg i
  let s' := s.wr r.reg (writtenValue r.reg old v) i
  match r.reg with
  | .WRPx_CFG_FSTART => if v < 288 then (.cfgRange, s) else (.ok, s')
  | .SCEx_BANK0_TABLE => (s'.tableStatus x 0 k, s'.tableLoad x 0)
  | .SCEx_BANK1_TABLE => (s'.tableStatus x 1 k, s'.tableLoad x 1)
  | .SCEx_FALLBACK_TABLE => (s'.tableStatus x 2 k, s'.tableLoad x 2)
  | .WRPx_ACC_DATA =>
    let d := v % 2 ^ 32 ^^^ s.accXor x k
    (.ok, s.modWrp x fun w => { w with accDiff := if d = 0 then storeDrop w.accDiff k else storePut w.accDiff k d })
  | .AEx_H_HTR_HTR_RD => (.ok, s.writeHtrRd x k v)
  | .AEx_H_LAS_LAS_IDLE => (.ok, s'.when (k == s.aeHead x && old != v) fun s => s.queueIdle x)
  | .NUTx_CTRL_EN =>
    let again := old == 0 && v == 1 && s.isSet .AEx_STAT_NUT_FAIL x.ix
    (.ok, s'.when again fun s => s.modStr x fun t => { t with health := { t.health with nutEnables := t.health.nutEnables + 1 } })
  | .RCHx_CTRL_CAPTURE => (.ok, (s.shadowWr .RCHx_CTRL_CAPTURE v i).captureMode x)
  | .RCHx_SET_SET => (.ok, s.channelSetWrite x (k / 256) (k % 256) v)
  | .STRM_CFG_FRAC | .STRM_CFG_SW_FRETS => (.ok, s'.streamRefresh)
  | .CAB_SLOTSEL_SLOT => (.ok, s'.slotShow)
  | .L2n_CTRL_EN => (.ok, if v = 0 && old = 1 then s.l2Disable inst else if v = 1 && old = 0 then s.l2Enable inst else s)
  | .L2n_RAT_CTL_VALID => (.ok, if v = 0 then s.ratInvalidate inst k else s')
  | .MI_I_CFG_INIT_MODE => (.ok, if 45 ≤ k then s else s')
  | .PWR_DOMREQ_ON => (.ok, s.domainWrite k v)
  | .THR_CTRL_L_MIN => if s.mode = 7 then (.ok, s'.throttle) else (.cfgLocked, s.flag .THR_STAT_CFG_LOCKED)
  | _ => (.ok, s')

/-- The action of a WO field, with the value written. -/
def State.action (s : State) (r : RegRow) (inst k v outcome : Nat) : CStat × State :=
  let x := instStr inst
  let q : SeqId := match inst % 3 with | 0 => .ssq | 1 => .rsq | _ => .wsq
  let y := Str.ofNum (inst / 3)
  match r.reg with
  | .FRET_CTRL_REMEAS => (.ok, s.remeasure v)
  | .CAPO_CTRL_ARM => s.capoArm
  | .CAPO_CTRL_DISARM => (.ok, s.capoDisarm)
  | .SPE_CTRL_START => s.speStartOp
  | .SPE_CTRL_STOP => (.ok, s.speStopOp)
  | .SCEx_CTRL_LOAD => s.sceLoad x
  | .SCEx_CTRL_UNLOAD => (.ok, s.requestRetract x .planned)
  | .SCEx_CTRL_RETRACT => (.ok, s.requestRetract x .command)
  | .SCEx_CTRL_BANK_SW => s.bankSwitch x
  | .SVDx_CTRL_ACQ => s.svdAcq x
  | .SVDx_CTRL_IDLE => (.ok, s.svdIdle x)
  | .AEx_CTRL_ABORT_CLR => (.ok, s.abortClr x)
  | .NUTx_CTRL_BG_GO => (.ok, s.bgGo x)
  | .RCHx_CTRL_SAVE => (.ok, s.tapsPosted x true)
  | .RCHx_CTRL_RESTORE => (.ok, s.tapsPosted x false)
  | .RCHx_CAPCTL_CAP_GO => (.ok, s.when (s.str.get x).rch.capMode fun s => s.flag .RCHx_STAT_CAP_BUSY x.ix)
  | .HARP_CTRL_RETIRE => (.ok, s.harpRetire (s.rd .HARP_CTRL_RLANE))
  | .HARP_CTRL_UNRETIRE => s.harpUnretire (s.rd .HARP_CTRL_RLANE)
  | .WRPx_CTRL_ACC_CLR => (.ok, s.accClear x)
  | .HQEn_CTRL_FORCE_RST => (.ok, s.functionReset inst)
  | .BRG_CTRL_GO => (.ok, s.bridgeGo)
  | .CAB_CTRL_SLOT_GO => (.ok, s.slotGo (s.rd .CAB_CTRL_SLOT_OP) (s.rd .CAB_CTRL_SLOT))
  | .CAB_CTRL_KAT_GO => (.ok, s.katGo outcome)
  | .PHV_CTRL_RETIRE => (.ok, s.phvRetireMask v)
  | .PHV_CTRL_UNRETIRE => (.ok, s.phvUnretireMask v)
  | .SQ_CTRL_GO => (.ok, s.seqGoOp y q)
  | .SQ_CTRL_STOP => (.ok, s.seqStop y q)
  | .SQ_CTRL_RST => (.ok, s.seqRst y q)
  | .SQ_CTRL_DOORBELL => (.ok, s.seqIrq y q 2)
  | .BURn_CTRL_RETIRE => (.ok, s.coreRetireMask inst v)
  | .BURn_CTRL_UNRETIRE => s.coreUnretireMask inst v
  | .L2n_MAINT_GO => (.ok, s.maintGo inst)
  | .MI_DIAG_CMD_RAWRD => (.ok, s.rawRead)
  | .MI_DIAG_CMD_RAWWR => (.ok, s.rawWrite)
  | .MI_I_CFG_FILL => (.ok, s.fill k)
  | .PWR_STRLOST_CLR => (.ok, s.strlostClr v)
  | .CAL_CTRL_ABORT => (.ok, s.calAbort)
  | _ => (.ok, s)

/-- An action that another one written in the same cycle wins over (R65, R88, R111, R128, R370, R375, R420). -/
def overruled (acts : List Reg) : Reg → Bool
  | .CAPO_CTRL_ARM => acts.contains .CAPO_CTRL_DISARM
  | .SPE_CTRL_START => acts.contains .SPE_CTRL_STOP
  | .SCEx_CTRL_LOAD => acts.contains .SCEx_CTRL_UNLOAD || acts.contains .SCEx_CTRL_RETRACT
  | .SCEx_CTRL_UNLOAD => acts.contains .SCEx_CTRL_RETRACT
  | .SVDx_CTRL_ACQ => acts.contains .SVDx_CTRL_IDLE
  | .SQ_CTRL_GO => acts.contains .SQ_CTRL_STOP
  | .MI_DIAG_CMD_RAWRD => acts.contains .MI_DIAG_CMD_RAWWR
  | _ => false

/-- A write that is refused sets the block's CFG_LOCKED (R9). -/
def State.refuseWrite (s : State) (b : Blk) (inst : Nat) : CStat × State :=
  (.cfgLocked, match lockFlag b with | some f => s.flag f (inst * 65536) | none => s)

/-- A field that is not WO is written (R9, R13). -/
def State.writeField (s : State) (r : RegRow) (inst k v : Nat) : CStat × State :=
  let i := inst * 65536 + k
  let x := instStr inst
  match r.access with
  | .ro | .wo => (.ok, s)
  | .w1c => (.ok, s.wr r.reg (w1cValue (s.rd r.reg i) v) i)
  | .rws => (.ok, s.wr r.reg (rwsValue (s.rd r.reg i) v) i)
  | .rw =>
    match r.reg with
    | .SCEx_TARGET_TRACK | .SCEx_TARGET_HEAD | .SCEx_TOFFS_OFFS => (.ok, (s.shadowWr r.reg v i).flag .SCEx_TGT_SHADOW_PEND x.ix)
    | .SPE_SETPT_RPM => (.ok, s.speSetptOp v)
    | .AEx_CTRL_WR_ARM => s.wrArm x (v != 0)
    | .WRPx_CTRL_EN => (if s.channelRunning x then .cfgLocked else .ok, s.writePathEnable x (v != 0))
    | _ =>
      match r.cls with
      | .k => if s.kLocked r inst k then s.refuseWrite r.blk inst else s.setField r inst k v
      | .lk => if s.lkLocked r inst k then s.refuseWrite r.blk inst else s.setField r inst k v
      | .s =>
        if s.running r.blk inst then (.ok, s.shadowWr r.reg (writtenValue r.reg (s.rd r.reg i) v) i)
        else (s.shadowDrop r.reg i).setField r inst k v
      | _ => s.setField r inst k v

/-- The first status that is not OK stands. -/
def firstStatus (a b : CStat) : CStat := if a = .ok then b else a

/-- A word of a register block is written: its fields first, in bit order, then its actions. `mask` names the bits written
(R391): a field none of whose bits it names is not written, one of which it names some keeps the others (log entry 34).
Where an action of the word sets its block running, the word's K fields are ignored and CFG_LOCKED is set (R12).
`outcome` is what a test that an action starts finds: the Cabinet cores that fail their known-answer test. -/
def State.writeReg (s : State) (b : Blk) (inst off v mask outcome : Nat) : CStat × State :=
  let fs := (fieldsAt b off).filter fun e => mask / 2 ^ e.1.lo % 2 ^ e.1.width != 0 && !s.notOwned e.1.reg e.2
  let value (s : State) (e : RegRow × Nat) : Nat :=
    let m := mask / 2 ^ e.1.lo % 2 ^ e.1.width
    let new := v / 2 ^ e.1.lo % 2 ^ e.1.width
    if e.1.access == .rw then
      let old := s.coming e.1.reg (inst * 65536 + e.2)
      old - (old &&& m) + (new &&& m)
    else if e.1.access == .rws then (new ||| (2 ^ e.1.width - 1 - m)) else new &&& m
  let plain := fs.filter fun e => e.1.access != .wo
  let acts := fs.filter fun e => e.1.access == .wo && value s e != 0
  let names := acts.map fun e => e.1.reg
  let acts := acts.filter fun e => !overruled names e.1.reg
  let order := acts.filter (fun e => e.1.reg == .SCEx_CTRL_BANK_SW) ++ acts.filter fun e => e.1.reg != .SCEx_CTRL_BANK_SW
  let write (s : State) (fs : List (RegRow × Nat)) : CStat × State :=
    fs.foldl (fun (c, s) e => let (d, s) := s.writeField e.1 inst e.2 (value s e); (firstStatus c d, s)) (.ok, s)
  let act (c : CStat) (s : State) : CStat × State :=
    order.foldl (fun (c, s) e => let (d, s) := s.action e.1 inst e.2 (value s e) outcome; (firstStatus c d, s)) (c, s)
  let done (r : CStat × State) : CStat × State :=
    (r.1, if b == .svd && 4 ≤ off && off ≤ 24 then r.2.setTo .SVDx_STAT_FMT_VALID (r.2.formatValid (instStr inst)) (instStr inst).ix else r.2)
  let rest := write s (plain.filter fun e => e.1.cls != .k)
  let started := act rest.1 rest.2
  if plain.any (fun e => e.1.cls == .k) && !s.running b inst && started.2.running b inst then
    let (d, s) := started.2.refuseWrite b inst
    done (firstStatus started.1 d, s)
  else
    let all := write s plain
    done (act all.1 all.2)

/-- A requester's write to a memory region: a Bureau core's passes its cluster's L2. -/
def State.requesterWrite (s : State) (req : Nat) (m : MemRegion) (a v n : Nat) : State :=
  if req < 16 then s.coreWrite (req / 4) m a v n else s.regionWrite m a v n

/-- A 32-bit word written by a requester (R39): none is an error response. -/
def State.writeWord (s : State) (req a v mask outcome : Nat) : Option CStat × State :=
  let t := s.target a
  match s.accessError t a with
  | some k => (none, s.fabricError k req a true)
  | none =>
    if s.absent t || s.absentAt a then (some .ok, s)
    else
      match t with
      | .memory m => (some .ok, s.requesterWrite req m a v 4)
      | .reg b inst off => let (c, s) := s.writeReg b inst off v mask outcome; (some c, s)
      | .control x q w off => (some (if s.sqState x q != 0 && s.pageLive x q w then .cfgLocked else .ok), s.microwordWrite x q w off v)
      | _ => (some .ok, s)

/-! ### Meaning -/

/-- A write of `bytes` bytes: a register takes an aligned 32-bit access alone (R39); memory takes 1 to 8 bytes. -/
def State.writeAccess (s : State) (req a bytes v outcome : Nat) : State :=
  match s.target a with
  | .memory m =>
    match s.accessError (.memory m) a with
    | some k => s.fabricError k req a true
    | none =>
      let n := clampNat 1 8 bytes
      if s.absent (.memory m) then s else s.requesterWrite req m a v n
  | .unmapped | .over => (s.writeWord req a v (2 ^ 32 - 1) outcome).2
  | _ => if bytes = 4 || s.absentAt a then (s.writeWord req a (v % 2 ^ 32) (2 ^ 32 - 1) outcome).2 else s.fabricError 2 req a true

/-- REGISTER_WRITE (R9, R13): a write by a requester of R40. -/
def execRegisterWrite (requester address bytes value outcome : Nat) (s : State) : Host.Outcome State Fault Refusal :=
  .next (s.writeAccess requester address bytes value outcome).settleRequests

end Sys2Proof.Machine
end

