-- ==== Sys2Proof/Machine/Cibor.lean ====
section
/-! DEFINITION. Machine/Cibor.lean: the arrival of Cibor packets (R383 to R390): header, transports, classes, segments,
acceptance and the order of execution; C0h and C1h, tunnelled admin commands, and replies that expire (R255, R387). -/
namespace Sys2Proof.Machine

/-! ### Opcodes and classes -/

/-- Class of each opcode of the base firmware (R391): 0 configuration, 1 telemetry, 2 calibration, 3 microcode load, 4 life
cycle, 5 diagnostics. -/
def baseOpcodes : List (Nat × Nat) :=
  [(0x0100, 1), (0x0110, 0), (0x0111, 0), (0x0112, 0), (0x0120, 0), (0x0130, 0), (0x0131, 0), (0x0132, 0)]
  ++ [(0x0A00, 0), (0x0A01, 0), (0x0A10, 0), (0x0A11, 0), (0x0B00, 0), (0x0B01, 0), (0x0B02, 0), (0x0C00, 0)]
  ++ [(0x1000, 1), (0x1001, 1), (0x2000, 2), (0x2001, 2), (0x3000, 3), (0x3010, 3), (0x3011, 3)]
  ++ [(0x4000, 4), (0x4001, 4), (0x4002, 4), (0x5000, 5), (0x5001, 5), (0x5010, 5), (0x5011, 5)]

/-- The opcode belongs to the class (R383); one of an extension module belongs to whichever class the packet names
(R392). -/
def opcodeFits (op cls : Nat) : Bool := cls ≤ 5 && (decide (0x8000 ≤ op) || storeFind baseOpcodes op == some cls)

/-- Classes that are executed in the device-wide order (R390). -/
def inOrder (cls : Nat) : Bool := cls != 1 && cls != 5

/-- Opcodes whose payload may come as a transfer of segments (R385). -/
def segmented (op : Nat) : Bool := op == 0x0112 || op == 0x3000 || op == 0x3010

/-- A class and opcode are accepted from a source (R389): controllers 0 to 7, NVMe-MI 8, the Bench port 9. -/
def State.permits (s : State) (source op cls : Nat) : Bool :=
  let st := s.rd .LC_STAT_STATE
  let nvme := decide (source < 8)
  let maint := s.mode == 7
  if st = 5 then op == 0x0100 || op == 0x4002
  else if source = 9 then cls != 2 || maint
  else
    match cls with
    | 0 => st == 2 || st == 4 || (st == 3 && op != 0x0132)
    | 1 => true
    | 3 => nvme
    | 4 => op == 0x4002 || (nvme && (op == 0x4000 || op == 0x4001))
    | _ => nvme && maint

/-! ### The header (R383, R386, R388) -/

/-- The largest packet of a transport. -/
def State.packetLimit (s : State) (source : Nat) : Nat :=
  if source < 8 then min (64 + 1048576) (2 ^ s.eff .HQEn_CFG_MDTS (source * 65536) * 4096)
  else if source = 8 then 64 + 4096
  else 64 + 65536

/-- Bytes 60 to 63 hold the CRC-32C over bytes 0 to 59, then the payload. -/
def crcGood (bs : List Nat) : Bool := leField bs 60 4 == crc32c (bs.take 60 ++ (bs.drop 64).take (leField bs 8 4))

/-- The length of what the transport brought agrees with PLEN: on NVMe and NVMe-MI it is rounded up to a dword. -/
def lengthGood (source : Nat) (bs : List Nat) : Bool :=
  let n := 64 + leField bs 8 4
  decide (n ≤ bs.length) && decide (bs.length < n + (if source = 9 then 1 else 4))

/-- A header that is accepted. -/
def State.headerGood (s : State) (source : Nat) (bs : List Nat) : Bool :=
  decide (64 ≤ bs.length) && decide (64 + leField bs 8 4 ≤ s.packetLimit source) && lengthGood source bs && bs.getD 6 0 == 1 && crcGood bs

/-- The request that a packet spells. -/
def packetRequest (source order : Nat) (bs : List Nat) : CiborRequest :=
  { source, opcode := leField bs 0 2, cls := bs.getD 2 0, flags := bs.getD 3 0, tag := leField bs 4 2, target := bs.getD 7 0
    segoff := leField bs 12 4, params := (List.range 8).map (fun i => leField bs (16 + 4 * i) 4)
    payload := (bs.drop 64).take (leField bs 8 4), order, started := false, named := 0, refused := 0, refusal := .ok }

/-- FIRST and LAST. -/
def CiborRequest.first (r : CiborRequest) : Bool := r.flags.testBit 0
def CiborRequest.last (r : CiborRequest) : Bool := r.flags.testBit 1

/-- A parameter. -/
def CiborRequest.param (r : CiborRequest) (k : Nat) : Nat := r.params.getD k 0

/-- TARGET names a String that is absent (R7, R400). -/
def State.namesAbsent (s : State) (r : CiborRequest) : Bool := Str.all.any fun x => r.target.testBit x.num && !s.present x

/-! ### Acceptance (R388 to R390) -/

/-- Requests of a source accepted whose replies it has not fetched. -/
def State.outstanding (s : State) (source : Nat) : List Nat :=
  (s.bur.requests.filter fun r => r.source == source).map (·.tag) ++ (s.bur.replies.filter fun r => r.source == source).map (·.tag)

/-- Why a packet is rejected, if it is. The manual gives the checks no order: header, opcode, Strings, tag, queue, class, mode
and cores (log entry 45). -/
def State.ciborCheck (s : State) (r : CiborRequest) (bs : List Nat) : Option CStat :=
  let mine := s.outstanding r.source
  if !s.headerGood r.source bs then some .badHeader
  else if !opcodeFits r.opcode r.cls then some .badOpcode
  else if s.namesAbsent r then some .cfgRange
  else if mine.contains r.tag then some .tagBusy
  else if 16 ≤ mine.length then some .queueFull
  else if !s.permits r.source r.opcode r.cls then some .classDenied
  else if s.mode = 0 then some .notReady
  else if (r.cls = 2 || r.cls = 5) && s.coresIn.length ≤ 3 then some .busy
  else none

/-- The open transfer of a source is discarded. -/
def State.dropTransfer (s : State) (source : Nat) : State :=
  s.modBur fun b => { b with transfers := b.transfers.filter fun t => t.source != source }

/-- Bytes of a transfer up to and with this segment; none when the segment is out of order (R385). -/
def State.segmentBytes (s : State) (r : CiborRequest) : Option (List Nat) :=
  if r.first then (if r.segoff = 0 then some r.payload else none)
  else
    match s.bur.transfers.find? fun t => t.source == r.source with
    | some t => if t.opcode = r.opcode && t.id = r.param 0 && r.segoff = t.bytes.length then some (t.bytes ++ r.payload) else none
    | none => none

/-- A request takes its place in the order. -/
def State.accept (s : State) (r : CiborRequest) : State :=
  s.modBur fun b => { b with requests := b.requests ++ [r], order := b.order + 1, gated := false }

/-- CIBOR_REQUEST (R383 to R390): a packet of a source is rejected with a status, or accepted. Nothing of a transfer is
applied until LAST, whose request carries every byte of it. -/
def State.ciborArrive (s : State) (source : Nat) (bs : List Nat) : CStat × State :=
  let r := packetRequest source s.bur.order bs
  match s.ciborCheck r bs with
  | some st => (st, s)
  | none =>
    if !segmented r.opcode then (.ok, s.accept r)
    else
      match s.segmentBytes r with
      | none => (.segOrder, s.dropTransfer source)
      | some bytes =>
        let s := s.dropTransfer source
        if 1048576 < bytes.length then (.cfgRange, s)
        else if r.last then (.ok, s.accept { r with payload := bytes })
        else
          let t : Transfer := { source, opcode := r.opcode, id := r.param 0, bytes }
          (.ok, (s.accept { r with payload := [] }).modBur fun b => { b with transfers := b.transfers ++ [t] })

/-- A packet over the Bench port: a rejection goes out as a frame status (R388, R468). -/
def State.benchPacket (s : State) (bs : List Nat) : State :=
  if !s.benchOpen then s
  else
    match s.ciborArrive 9 bs with
    | (.ok, s) => s
    | (st, s) => s.emit (.frameStatus (leField bs 4 2) st)

/-! ### C0h and C1h (R387) -/

/-- C0h as an admin command ends: accepted with the tag, or Invalid Field with the Cibor status. -/
def State.ciborSend (s : State) (f : Nat) : State :=
  match s.cmdOp f with
  | some (_, .ciborSend bs) =>
    s.admin f fun s c =>
      match s.ciborArrive c.hqe bs with
      | (.ok, s) => s.finish f .success (leField bs 4 2)
      | (st, s) => s.finish f .invalidField st.code
  | _ => s

/-- C1h: a reply that is ready is transferred; with no wait left it ends with NONE; otherwise it waits. -/
def State.ciborReceive (s : State) (f : Nat) : State :=
  match s.cmdOp f with
  | some (_, .ciborReceive numd tag any wait) =>
    s.admin f fun s c =>
      match s.replyFor c.hqe tag any with
      | some r => s.giveReply f numd r
      | none => if wait = 0 then s.finish f .success (2 ^ 31) else s
  | _ => s

/-- REPLY_WAIT_EXPIRY. -/
def State.replyWait (s : State) (f : Nat) : State :=
  match s.cmdOp f with
  | some (c, .ciborReceive ..) => if c.started && c.ready.isNone then s.finish f .success (2 ^ 31) else s
  | _ => s

/-- REPLY_EXPIRY: a reply that has not been fetched for 60 s is discarded. -/
def State.replyExpire (s : State) (source tag : Nat) : State :=
  s.modBur fun b => { b with replies := b.replies.filter fun r => !(r.source == source && r.tag == tag) }

/-! ### Tunnelled admin commands (R255) -/

/-- An admin command is executed as one of controller `k` that no queue holds; what it would move to host memory, and its
completion, go out on the SMBus. -/
def State.tunnel (s : State) (k nsid : Nat) (op : HostOp) (f : State → Nat → State) : State :=
  let n := s.host.fseq
  let c : Cmd :=
    { fseq := n, hqe := k, sqid := 0, cid := 0, nsid, hostId := 0, op, blocks := [], data := [], started := false, accepted := false
      posted := [], staged := [], pins := [], waits := [], ready := none, owed := [], stream := none, remaining := 0, late := 0
      susp := false, isLate := false, wdrn := false, ovr := false, past := false, silent := true, fetched := s.timebase / 80000000 }
  let before := s.out
  let s := s.modHost fun h => { h with fseq := (n + 1) % 2 ^ 64, cmds := h.cmds ++ [c] }
  let t := f { s with out := [] } n
  let mine (o : Out) : Out :=
    match o with
    | .hostData g p v => if g = n then .mi p v else .hostData g p v
    | o => o
  let done := ((t.findCmd n).bind (·.ready)).map fun r => Out.miStatus r.1 r.2.1
  let t := t.modHost fun h => { h with cmds := h.cmds.filter fun c => c.fseq != n }
  { t with out := done.toList ++ t.out.map mine ++ before }

/-- A reply over NVMe-MI: as many dwords as asked; one that does not fit is kept (R387). -/
def State.miReceive (s : State) (numd tag : Nat) (any : Bool) : State :=
  match s.replyFor 8 tag any with
  | none => s.emit (.miStatus .success (2 ^ 31))
  | some r =>
    let ws := wordsOf r.bytes
    let s := s.miReply (ws.take numd)
    if ws.length ≤ numd then (s.replyExpire 8 r.tag).emit (.miStatus .success r.tag)
    else s.emit (.miStatus .success (r.tag + 2 ^ 30))

/-- MI_TUNNELLED_ADMIN: Identify, Get Log Page, Get Features, C0h and C1h; every other opcode is invalid. A tunnelled C1h ends at
once (log entry 45). -/
def State.miTunnel (s : State) (k nsid : Nat) (op : HostOp) : State :=
  match op with
  | .identify _ => s.tunnel k nsid op State.nvmeIdentify
  | .getLog .. => s.tunnel k nsid op State.getLogPage
  | .getFeature .. => s.tunnel k nsid op State.getFeatures
  | .ciborSend bs =>
    match s.ciborArrive 8 bs with
    | (.ok, s) => s.emit (.miStatus .success (leField bs 4 2))
    | (st, s) => s.emit (.miStatus .invalidField st.code)
  | .ciborReceive numd tag any _ => s.miReceive numd tag any
  | _ => s.emit (.miStatus .invalidOpcode 0)

/-! ### Requests whose turn has come (R390) -/

/-- An earlier request or command of the device-wide order waits to be executed. -/
def State.orderWaits (s : State) (r : CiborRequest) : Bool :=
  inOrder r.cls && ((s.bur.requests.any fun e => decide (e.order < r.order) && inOrder e.cls && !e.started)
    || s.host.cmds.any fun c => c.accepted && c.ready.isNone)

/-- A request of a source that is to be executed: none other of its tag stands, and it is its turn. -/
def State.dueRequest (s : State) (op source tag : Nat) : Option CiborRequest :=
  match s.bur.requests.find? fun r => r.source == source && r.tag == tag && r.opcode == op && !r.started with
  | some r => if s.orderWaits r then none else some r
  | none => none

/-- A request is executed by `f`; a segment before the last is answered alone (R385). -/
def State.cibor (s : State) (op source tag : Nat) (f : State → CiborRequest → State) : State :=
  match s.dueRequest op source tag with
  | none => s
  | some r => if segmented op && !r.last then s.reply r .ok else f s r

/-- A request has begun and is answered once the state it waits for has come. -/
def State.beginRequest (s : State) (r : CiborRequest) : State := (s.modRequest r fun q => { q with started := true }).refreshMode

/-! ### Meanings -/

/-- CIBOR_REQUEST: on the Bench port a packet of a debug-protocol frame; on the other transports C0h brings it. -/
def execCiborRequest (source : Nat) (packet : List Nat) (s : State) : Host.Outcome State Fault Refusal :=
  .next (if source = 9 then s.benchPacket packet else if source < 9 then (s.ciborArrive source packet).2 else s)
def execCiborSend (fseq : Nat) (s : State) : Host.Outcome State Fault Refusal := .next (s.ciborSend fseq)
def execCiborReceive (fseq : Nat) (s : State) : Host.Outcome State Fault Refusal := .next (s.ciborReceive fseq)
def execReplyWaitExpiry (fseq : Nat) (s : State) : Host.Outcome State Fault Refusal := .next (s.replyWait fseq)
def execReplyExpiry (source tag : Nat) (s : State) : Host.Outcome State Fault Refusal := .next (s.replyExpire source tag)
def execMiTunnelledAdmin (k nsid : Nat) (op : HostOp) (wake : PowerIn) (s : State) : Host.Outcome State Fault Refusal :=
  .next (s.smbus wake fun s => s.miTunnel k nsid op)

end Sys2Proof.Machine
end

