-- ==== Sys2Proof/Machine/Management.lean ====
section
/-! DEFINITION. Machine/Management.lean: the opcodes of the configuration, telemetry and diagnostics classes (R391), the
stored configuration (R394), the media format (R202), and telemetry periods (R398). -/
namespace Sys2Proof.Machine

/-! ### Small parts -/

/-- Requester code of the core that executes a request: the lowest in service (R40). -/
def State.bureauReq (s : State) : Nat := (s.coreOf 3).getD ((s.coresIn.head?).getD 0)

/-- PARAM1–2 as a 48-bit address. -/
def CiborRequest.address (r : CiborRequest) : Nat := r.param 1 + r.param 2 % 65536 * 2 ^ 32

/-- Bytes of words. -/
def bytesOf (ws : List Nat) : List Nat := ws.flatMap (leBytes 4)

/-- An address of a block that no Cibor write reaches: identity and life cycle, Cabinet, Bench debug (R389). -/
def protectedBlock (a : Nat) : Bool := let k := a / 0x100000; k == 0xF0000 || k == 0xF0007 || k == 0xF0015

/-- An address of the SPE's block. -/
def inSpe (a : Nat) : Bool := a / 0x100000 == 0xF0004

/-- A write of an address is within the allow list where that restricts it: in FIELD, from any transport but the Bench port.
Ranges hold both their ends (R389, log entry 45). -/
def State.allowed (s : State) (source a : Nat) : Bool :=
  s.rd .LC_STAT_STATE != 3 || source == 9 || s.bur.allow.any fun e => decide (e.1 ≤ a) && decide (a ≤ e.2)

/-- A SPIN_START has begun and not ended: a request that names the SPE is refused with BUSY (R390). -/
def State.speBusy (s : State) : Bool := s.bur.requests.any fun r => r.opcode == 0x0A00 && r.started

/-- A stream queue is armed. -/
def State.streamsArmed (s : State) : Bool := !s.host.streams.isEmpty

/-- TARGET names exactly one String. -/
def oneString (target : Nat) : Option Str := Str.all.find? fun x => target % 16 == x.bit

/-- The word of a register without what reading it changes. -/
def State.peekReg (s : State) (b : Blk) (inst off : Nat) : Nat := (s.readReg b inst off).1

/-! ### Registers and tables -/

/-- 0x0100 IDENTIFY. The payload's layout, and the number of the firmware's version, are not stated (log entry 45). -/
def State.mgmtIdentify (s : State) (r : CiborRequest) : State :=
  let ids := (List.range 4).map fun i => s.rd .LC_DEVID_ID i
  let pci := s.rd .LC_PCIID_VID + s.rd .LC_PCIID_SSVID * 65536
  let var := s.rd .LC_VAR_VARIANT + 2 * s.rd .LC_VAR_STEPPING
  let version := s.free % 2 ^ 32
  s.drawn.reply r .ok 0 0 [var, version, s.coresIn.length] (bytesOf (ids ++ [pci, var, s.rd .LC_FWSVN_SVN] ++ s.bur.svnMin))

/-- `n` words read from an address on; none when an access got an error response. -/
def State.readWords (s : State) (req a : Nat) : Nat → Option (List Nat) × State
  | 0 => (some [], s)
  | n + 1 =>
    match s.readWord req a with
    | (none, s) => (none, s)
    | (some v, s) =>
      match s.readWords req (a + 4) n with
      | (none, s) => (none, s)
      | (some vs, s) => (some (v :: vs), s)

/-- 0x0110 REG_READ. An error response is answered CFG_RANGE (log entry 45). -/
def State.mgmtRead (s : State) (r : CiborRequest) : State :=
  let n := r.param 3
  if n = 0 || 1024 < n then s.reply r .cfgRange
  else
    match s.readWords s.bureauReq r.address n with
    | (none, s) => s.reply r .cfgRange
    | (some ws, s) => s.reply r .ok 0 0 [] (bytesOf ws)

/-- REG_WRITE is answered with the value read back, or with CFG_RANGE where nothing was written. -/
def State.mgmtWritten (s : State) (r : CiborRequest) (a : Nat) : Option CStat → State
  | none => s.reply r .cfgRange
  | some st =>
    let p := s.readWord s.bureauReq a
    (p.2.reply r st 0 (p.1.getD 0)).settleRequests

/-- 0x0111 REG_WRITE (R389, R390). -/
def State.mgmtWrite (s : State) (r : CiborRequest) (outcome : Nat) : State :=
  let a := r.address
  if protectedBlock a || !s.allowed r.source a then s.reply r .prot
  else if inSpe a && s.speBusy then s.reply r .busy
  else
    (s.writeWord s.bureauReq a (r.param 3) (r.param 4) outcome).2.mgmtWritten r a (s.writeWord s.bureauReq a (r.param 3) (r.param 4) outcome).1

/-- A word of a coefficient bank, a channel set or a per-head table (R391). -/
def State.tableAddress (s : State) (a : Nat) : Bool :=
  match s.target a with
  | .reg b _ off => [Blk.sce, .rch, .ae, .svd, .thermal].contains b && (fieldsAt b off).any fun e => decide (6 ≤ e.1.n)
  | _ => false

/-- Words written from an address on; the first status that is not OK. -/
def State.writeWords (s : State) (req a : Nat) : List Nat → CStat × State
  | [] => (.ok, s)
  | w :: ws =>
    let (st, s) := s.writeWord req a w (2 ^ 32 - 1) 0
    let (st', s) := s.writeWords req (a + 4) ws
    (firstStatus (st.getD .cfgRange) st', s)

/-- 0x0112 TABLE_WRITE, its payload whole: refused before the first word when a word lies outside the tables or the allow
list. -/
def State.mgmtTable (s : State) (r : CiborRequest) : State :=
  let ws := wordsOf r.payload
  let places := (List.range ws.length).map fun i => r.address + 4 * i
  if r.payload.length % 4 != 0 || !places.all s.tableAddress then s.reply r .cfgRange
  else if !places.all (s.allowed r.source) then s.reply r .prot
  else
    let (st, s) := s.writeWords s.bureauReq r.address ws
    s.reply r st

/-! ### Modes (R429, R430) -/

/-- Maintenance is accepted from a source: NVMe or the Bench port in MAKER and RETURN, an open Bench port in FIELD. -/
def State.maintAllowed (s : State) (source : Nat) : Bool :=
  let st := s.rd .LC_STAT_STATE
  ((st == 2 || st == 4) && (decide (source < 8) || source == 9)) || (st == 3 && source == 9 && s.isSet .BNCH_STAT_SESSION)

/-- To Ready from Maintenance: through Spin-up when the spindle is not at speed, or the heads are not loaded. -/
def State.leaveToReady (s : State) : State :=
  let s := s.modPower fun p => { p with maintSource := none }
  let s := s.wr .PWR_STAT_MODE 2
  if s.speState = 0 then s.speStartOp.2 else s

/-- 0x0120 MODE_SET (R430). A target that no row of R430 reaches from the present mode is NOT_READY. -/
def State.mgmtMode (s : State) (r : CiborRequest) : State :=
  let m := s.mode
  let go := 3 ≤ m && m ≤ 6
  match r.param 1 with
  | 7 =>
    if !s.maintAllowed r.source then s.reply r .classDenied
    else if s.streamsArmed || s.power.standbyDue || !(m = 1 || m = 3) then s.reply r .notReady
    else ((s.wr .PWR_STAT_MODE 7).modPower fun p => { p with maintSource := some r.source }).reply r .ok
  | 0 =>
    if m != 1 then s.reply r .notReady
    else if s.bur.requests.length = 1 then s.enterDormant
    else s
  | 1 =>
    if m = 1 then s.reply r .ok
    else if m = 7 then
      if s.power.maintSource != some r.source then s.reply r .classDenied
      else ((s.modPower fun p => { p with maintSource := none }).goStandby).beginRequest r
    else if go && !s.streamsArmed then s.goStandby.beginRequest r
    else s.reply r .notReady
  | 3 =>
    if m = 7 then
      if s.power.maintSource != some r.source then s.reply r .classDenied
      else s.leaveToReady.beginRequest r
    else if go then s.reply r .ok
    else s.reply r .notReady
  | _ => s.reply r (if 7 < r.param 1 then .cfgRange else .notReady)

/-! ### The stored configuration (R394) -/

/-- A field that CFG_COMMIT stores: RW fields of the SCE banks and fallback tables, channel sets, per-head tables, SPE,
demodulator, write path, ladder and stream blocks, and the read-channel and sector-format fields that R495 has written from it
(log entry 56). -/
def storedField (r : RegRow) : Bool :=
  r.access == .rw &&
    match r.blk with
    | .spe | .svd | .wrp | .rld | .strm | .rch | .sfm => true
    | .sce => r.reg == .SCEx_BANK0_TABLE || r.reg == .SCEx_BANK1_TABLE || r.reg == .SCEx_FALLBACK_TABLE
    | .ae | .thermal => decide (6 ≤ r.n)
    | _ => false

/-- The configuration in force, as a record with the next sequence number. -/
def State.snapshotConfig (s : State) : StoredConfig :=
  let kept := (regRows.filter storedField).map fun r => r.reg.ctorIdx
  let seq := (s.configInForce.elim 0 fun c => c.seq) + 1
  { seq, regs := s.regs.filter (fun e => kept.contains (e.1 / 2 ^ 20)), formats := Str.all.map s.format, allow := s.bur.allow }

/-- 0x0130 CFG_COMMIT: refused while a transfer is open; otherwise the NOR copy not in force is erased and programmed. -/
def State.mgmtCommit (s : State) (r : CiborRequest) : State :=
  if !s.bur.transfers.isEmpty then s.reply r .busy
  else if s.bur.storing.isSome then s
  else (s.modBur fun b => { b with storing := some s.snapshotConfig }).modRequest r fun q => { q with started := true }

/-- The copy that is not in force. -/
def State.idleCopy (s : State) : Nat :=
  match s.configInForce with
  | some c => if s.bur.stored.getD 0 none == some c then 1 else 0
  | none => 0

/-- CONFIGURATION_STORED: the copy stands, and CFG_COMMIT is answered. -/
def State.configStored (s : State) : State :=
  match s.bur.storing with
  | none => s
  | some c =>
    let k := s.idleCopy
    let s := s.modBur fun b => { b with stored := b.stored.set k (some c), storing := none }
    match s.bur.requests.find? fun r => r.opcode == 0x0130 && r.started with
    | some r => s.reply r .ok
    | none => s

/-- Words of a String's part of the media format record. -/
def StrFormat.words (f : StrFormat) : List Nat :=
  [boolNat f.formatted, f.heads, f.guard, f.tskew, f.cmrTrk, f.tracks, f.shdir] ++ f.start

/-- 0x0131 CFG_READBACK: the record in force; its layout in the reply is not stated (log entry 45). -/
def State.mgmtReadback (s : State) (r : CiborRequest) : State :=
  let ws := s.configInForce.elim [] fun c =>
    c.seq :: c.regs.flatMap (fun e => [e.1, e.2]) ++ c.formats.flatMap StrFormat.words
      ++ c.allow.flatMap fun e => [e.1 % 2 ^ 32, e.1 / 2 ^ 32, e.2 % 2 ^ 32, e.2 / 2 ^ 32]
  s.reply r .ok 0 0 [] (bytesOf ws)

/-- 0x0132 ALLOW_SET, in MAKER alone: pairs of 8-byte addresses (log entry 45). -/
def State.mgmtAllow (s : State) (r : CiborRequest) : State :=
  let n := r.payload.length / 16
  if s.rd .LC_STAT_STATE != 2 then s.reply r .classDenied
  else if r.payload.length % 16 != 0 || 64 < n then s.reply r .cfgRange
  else
    let l := (List.range n).map fun i => (leField r.payload (16 * i) 8, leField r.payload (16 * i + 8) 8)
    (s.modBur fun b => { b with allow := l }).reply r .ok

/-! ### Spindle, Capo, heads -/

/-- 0x0A00 SPIN_START (R430): from Standby the device goes to Spin-up. -/
def State.mgmtSpinStart (s : State) (r : CiborRequest) : State :=
  if s.speBusy then s.reply r .busy
  else if s.isSet .THR_STAT_SHUT then s.reply r .notReady
  else
    match s.speStartOp with
    | (.ok, s) => (s.when (s.mode == 1) fun s => s.wr .PWR_STAT_MODE 2).beginRequest r
    | (st, s) => s.reply r st

/-- 0x0A01 SPIN_STOP (R430): the heads unload first; refused while a stream queue is armed. -/
def State.mgmtSpinStop (s : State) (r : CiborRequest) : State :=
  let m := s.mode
  if s.speBusy then s.reply r .busy
  else if 1 < r.param 1 then s.reply r .cfgRange
  else if s.streamsArmed then s.reply r .notReady
  else
    let s := s.wr .SPE_CTRL_STOPMODE (r.param 1)
    (if 2 ≤ m && m ≤ 6 then s.goStandby else s.speStopOp).beginRequest r

/-- 0x0A10 CAPO_ARM: the parameters are written, then ARM; out of OFF nothing is written (R62). RESULT0 is CAPO_STAT. -/
def State.mgmtCapoArm (s : State) (r : CiborRequest) : State :=
  let s := s.when (s.capoState == 0) fun s =>
    let s := (s.wr .CAPO_CTRL_SRC (r.param 3)).wr .CAPO_CTRL_EDGE (r.param 3 / 4)
    ((s.wr .CAPO_RATIO_M1 (r.param 1)).wr .CAPO_RATIO_N1 (r.param 1 / 65536)).wr .CAPO_FRAME_FDIV1 (r.param 2)
  let (st, s) := s.capoArm
  s.reply r st 0 0 [s.peekReg .capo 0 0x20]

/-- One String of HEADS_LOAD: the Strings that count, those that refuse, and the first refusal's status. -/
def State.loadOne (acc : State × Nat × Nat × CStat) (x : Str) : State × Nat × Nat × CStat :=
  let (s, named, refused, st) := acc
  let state := s.sceState x
  if state = 0 then
    match s.sceLoad x with
    | (.ok, s) => (s, named + x.bit, refused, st)
    | (e, s) => (s, named, refused + x.bit, firstStatus st e)
  else if 5 ≤ state then (s, named, refused + x.bit, firstStatus st .cfgLocked)
  else (s, named + x.bit, refused, st)

/-- 0x0B00 HEADS_LOAD: answered once every String that has not refused is in TRACK. -/
def State.mgmtLoad (s : State) (r : CiborRequest) : State :=
  let (s, named, refused, refusal) := (Str.all.filter fun x => r.target.testBit x.num).foldl State.loadOne (s, 0, 0, .ok)
  (s.modRequest r fun q => { q with started := true, named, refused, refusal }).refreshMode

/-- 0x0B01 HEADS_UNLOAD: answered once every named SCE is UNLOADED. -/
def State.mgmtUnload (s : State) (r : CiborRequest) : State :=
  let s := (Str.all.filter fun x => r.target.testBit x.num).foldl (fun s x => s.requestRetract x .planned) s
  (s.modRequest r fun q => { q with started := true, named := r.target % 16 }).refreshMode

/-- 0x0B02 BANK_SWITCH. -/
def State.mgmtBank (s : State) (r : CiborRequest) : State :=
  match oneString r.target with
  | none => s.reply r .cfgRange
  | some x =>
    let (st, s) := s.bankSwitch x
    s.reply r st

/-! ### Media format (R202) -/

/-- Block of a String in the format record. -/
def formatBlock (bs : List Nat) (x : Str) : StrFormat :=
  let at' := 16 + 512 * x.num
  { formatted := true, heads := leField bs at' 1, guard := leField bs (at' + 1) 1, tskew := leField bs (at' + 2) 2
    cmrTrk := leField bs (at' + 4) 4, tracks := leField bs (at' + 8) 4, shdir := leField bs (at' + 12) 1
    start := (List.range 96).map fun i => leField bs (at' + 16 + 4 * i) 4 }

/-- Bytes of a String's block that are reserved, and SHDIR[7:6]. -/
def reservedBlock (bs : List Nat) (x : Str) : Bool :=
  let at' := 16 + 512 * x.num
  let part (first n : Nat) : List Nat := (bs.drop (at' + first)).take n
  (part 13 3 ++ part 400 112).any (· != 0) || decide (64 ≤ bs.getD (at' + 12) 0)

/-- Radial bands of a head that are in use. -/
def StrFormat.usedBands (f : StrFormat) (h : Nat) : List Nat :=
  (List.range 16).filter fun b => b == 15 || f.startOf h b != f.startOf h (b + 1)

/-- START of a head ascends from 0 and stays below TRACKS. -/
def StrFormat.startGood (f : StrFormat) (h : Nat) : Bool :=
  f.startOf h 0 == 0 && (List.range 15).all (fun b => decide (f.startOf h b ≤ f.startOf h (b + 1)))
    && (List.range 16).all fun b => decide (f.startOf h b < f.tracks)

/-- CMR_TRK lies at a radial-band boundary of every head and below TRACKS. -/
def StrFormat.cmrGood (f : StrFormat) : Bool :=
  decide (f.cmrTrk < f.tracks) && (List.range f.heads).all fun h => (List.range 16).any fun b => f.startOf h b == f.cmrTrk

/-- Checks 1 to 6 of the record, in order. -/
def State.formatCheck (s : State) (bs : List Nat) : Option Nat :=
  let strs := Str.all.filter fun x => (bs.getD 2 0).testBit x.num
  let fs := strs.map fun x => (x, formatBlock bs x)
  if bs.length != 2064 || leField bs 0 2 != 1 || 16 ≤ bs.getD 2 0 || ((bs.drop 3).take 13).any (· != 0) || strs.any (reservedBlock bs) then some 1
  else if strs.any fun x => !s.present x then some 2
  else if fs.any fun (_, f) => f.heads = 0 || 6 < f.heads || f.guard = 0 || 4 < f.guard || 479 < f.tskew then some 3
  else if fs.any fun (_, f) => !(List.range f.heads).all f.startGood then some 4
  else if fs.any fun (x, f) => (List.range f.heads).any fun h => (f.usedBands h).any fun b => !s.setValid x (16 * h + b) then some 5
  else if fs.any fun (_, f) => !f.cmrGood then some 6
  else none

/-- The format of the record in force of every String: those outside STRMASK have none. -/
def State.withFormat (s : State) (bs : List Nat) : State :=
  let none' := StringState.atReset.format
  Str.all.foldl (fun s x => s.modStr x fun t => { t with format := if (bs.getD 2 0).testBit x.num then formatBlock bs x else none' }) s

/-- CMR units and SMR bands of the formatted Strings. -/
def State.unitCounts (s : State) : Nat × Nat :=
  Str.all.foldl (fun (u, b) x => let (us, bs) := s.extents x; (u + us.length, b + bs.length)) (0, 0)

/-- The new format in force (R202): HEADS of every String, every band free, every record empty; the tables go to the Chest. -/
def State.installFormat (s : State) (bs : List Nat) : State :=
  let s := s.withFormat bs
  let s := s.writeHeads
  let s := s.modHost fun h => { h with records := [], bands := [] }
  ((List.range 4).foldl (fun s k => s.journal (mediaTableRow k)) s)

/-- 0x0C00 MEDIA_FORMAT. -/
def State.mgmtFormat (s : State) (r : CiborRequest) : State :=
  if s.mode != 7 || s.power.maintSource != some r.source || !s.host.namespaces.isEmpty
      || Str.all.any (fun x => s.present x && s.sceState x != 0) then s.reply r .notReady
  else
    match s.formatCheck r.payload with
    | some k => s.reply r .cfgRange k
    | none =>
      let (units, bands) := (s.withFormat r.payload).unitCounts
      if 160 * 10 ^ 12 < (units + bands) * 2 ^ 29 then s.reply r .cfgRange 7
      else if 327680 < units + bands then s.reply r .cfgRange 8
      else (s.installFormat r.payload).reply r .ok 0 0 [units, bands, (units + bands) / 2]

/-! ### Telemetry -/

/-- 0x1000 TELEM_SNAPSHOT: the counters of the Resource Status page; the manual names no other page. -/
def State.mgmtTelemetry (s : State) (r : CiborRequest) : State := s.reply r .ok 0 0 [] (bytesOf s.resourceStatus)

/-- 0x1001 EVENT_READ: entries from a sequence number on, oldest first. -/
def State.mgmtEvents (s : State) (r : CiborRequest) : State :=
  let n := r.param 2
  if n = 0 || 128 < n then s.reply r .cfgRange
  else
    let l := (s.events.filter fun e => decide (r.param 1 ≤ e.seq)).reverse.take n
    s.reply r .ok 0 0 [] (bytesOf (l.flatMap Event.words))

/-- TELEMETRY_PERIOD (R398): the page is refreshed with the Resource Status page and up to 256 bytes from HK_TELEM. -/
def State.telemetryPeriod (s : State) (words : List Nat) : State :=
  s.when (s.host.telemetryMs != 0 && s.mode != 0) fun s =>
    let extra := if s.hookAlive 4 then words.take 64 else []
    s.modHost fun h => { h with telemetry := s.resourceStatus ++ extra, telemetryReady := true }

/-! ### Extension modules (R381, R382) -/

/-- 0x3010 EXT_LOAD: the module whose image the transfer holds. -/
def State.mgmtExtLoad (s : State) (r : CiborRequest) (m : ModuleImage) : State :=
  let used := s.bur.modules
  if !m.signed || !(s.keyHash 3).any (· != 0) then s.reply r .mcSigFail
  else if m.svn < s.bur.svnMin.getD 3 0 then s.reply r .mcRollback
  else if 8 ≤ used.length || 4194304 < (used.map (·.image.size)).sum + m.size then s.reply r .cfgRange
  else
    let number := lowestFree (used.map (·.number)) 0
    let s := s.modBur fun b =>
      { b with modules := b.modules ++ [{ number, image := m, disabled := false, overruns := [] }], svnMin := b.svnMin.set 3 m.svn }
    (s.journal (deviceRow 6)).reply r .ok

/-- 0x3011 EXT_UNLOAD. -/
def State.mgmtExtUnload (s : State) (r : CiborRequest) : State :=
  if s.bur.modules.any fun m => m.number == r.param 1 then
    (s.modBur fun b => { b with modules := b.modules.filter fun m => m.number != r.param 1 }).reply r .ok
  else s.reply r .cfgRange

/-- EXTENSION_OPCODE: HK_CIBOR replies, or BAD_OPCODE with no module to answer. -/
def State.mgmtExtension (s : State) (source tag : Nat) (st : CStat) (payload : List Nat) : State :=
  match s.bur.requests.find? fun r => r.source == source && r.tag == tag && decide (0x8000 ≤ r.opcode) && !r.started with
  | none => s
  | some r =>
    if s.orderWaits r then s
    else if s.hookAlive 6 then s.reply r st 0 0 [] payload
    else s.reply r .badOpcode

/-- HOOK_TIMEOUT: the hook's default action is taken; the third overrun within 1 s disables its module (R382). `request` is the
request whose HK_CIBOR call was stopped. -/
def State.hookTimeout (s : State) (module hook : Nat) (request : Option (Nat × Nat)) : State :=
  match s.bur.modules.find? fun m => m.number == module && !m.disabled && m.image.hooks.contains hook with
  | none => s
  | some m =>
    let now := s.timebase
    let times := now :: m.overruns.filter fun t => decide (now < t + 800000000)
    let off := decide (3 ≤ times.length)
    let s := s.modBur fun b =>
      { b with modules := b.modules.map fun e => if e.number == module then { e with overruns := times, disabled := off } else e }
    let s := s.when off fun s => s.logEvent 0x0010 1 0 [module, 0]
    let s := s.when (hook == 5) fun s => (s.modTherm fun t => { t with step := 0 }).throttle
    match request.bind fun (source, tag) => s.bur.requests.find? fun r => r.source == source && r.tag == tag with
    | some r => s.when (hook == 6 && decide (0x8000 ≤ r.opcode)) fun s => s.reply r .badOpcode
    | none => s

/-! ### Diagnostics -/

/-- 0x5000 LANE_RETIRE. -/
def State.mgmtLaneRetire (s : State) (r : CiborRequest) : State :=
  if 31 < r.param 1 then s.reply r .cfgRange else (s.harpRetire (r.param 1)).reply r .ok

/-- 0x5001 LANE_UNRETIRE: answered when the self-test has ended. -/
def State.mgmtLaneUnretire (s : State) (r : CiborRequest) : State :=
  if 31 < r.param 1 then s.reply r .cfgRange
  else
    match s.harpUnretire (r.param 1) with
    | (.ok, s) => s.beginRequest r
    | (st, s) => s.reply r st

/-- 0x5010 CORE_RETIRE: the last core in service is refused (R378). -/
def State.mgmtCoreRetire (s : State) (r : CiborRequest) : State :=
  let c := r.param 1
  if 15 < c || s.lastCore c then s.reply r .cfgRange else (s.coreRetire c 4).reply r .ok

/-- 0x5011 CORE_UNRETIRE: answered when the self-test has ended. -/
def State.mgmtCoreUnretire (s : State) (r : CiborRequest) : State :=
  let c := r.param 1
  if 15 < c then s.reply r .cfgRange
  else
    match s.coreUnretireMask (c / 4) (2 ^ (c % 4)) with
    | (.ok, s) => s.beginRequest r
    | (st, s) => s.reply r st

/-- 0x4002 LC_STATE. -/
def State.mgmtLcState (s : State) (r : CiborRequest) : State := s.reply r .ok 0 0 [s.rd .LC_STAT_STATE, s.rd .LC_STAT_REFIELD]

/-! ### Meanings: `source` and `tag` name the request -/

def execIdentify (source tag : Nat) (s : State) : Host.Outcome State Fault Refusal := .next (s.cibor 0x0100 source tag State.mgmtIdentify)
def execRegRead (source tag : Nat) (s : State) : Host.Outcome State Fault Refusal := .next (s.cibor 0x0110 source tag State.mgmtRead)
def execRegWrite (source tag outcome : Nat) (s : State) : Host.Outcome State Fault Refusal :=
  .next (s.cibor 0x0111 source tag fun s r => s.mgmtWrite r outcome)
def execTableWrite (source tag : Nat) (s : State) : Host.Outcome State Fault Refusal := .next (s.cibor 0x0112 source tag State.mgmtTable)
def execModeSet (source tag : Nat) (s : State) : Host.Outcome State Fault Refusal := .next (s.cibor 0x0120 source tag State.mgmtMode)
def execCfgCommit (source tag : Nat) (s : State) : Host.Outcome State Fault Refusal := .next (s.cibor 0x0130 source tag State.mgmtCommit)
def execCfgReadback (source tag : Nat) (s : State) : Host.Outcome State Fault Refusal := .next (s.cibor 0x0131 source tag State.mgmtReadback)
def execAllowSet (source tag : Nat) (s : State) : Host.Outcome State Fault Refusal := .next (s.cibor 0x0132 source tag State.mgmtAllow)
def execSpinStart (source tag : Nat) (s : State) : Host.Outcome State Fault Refusal := .next (s.cibor 0x0A00 source tag State.mgmtSpinStart)
def execSpinStop (source tag : Nat) (s : State) : Host.Outcome State Fault Refusal := .next (s.cibor 0x0A01 source tag State.mgmtSpinStop)
def execCapoArm (source tag : Nat) (s : State) : Host.Outcome State Fault Refusal := .next (s.cibor 0x0A10 source tag State.mgmtCapoArm)
def execCapoDisarm (source tag : Nat) (s : State) : Host.Outcome State Fault Refusal :=
  .next (s.cibor 0x0A11 source tag fun s r => s.capoDisarm.reply r .ok)
def execHeadsLoad (source tag : Nat) (s : State) : Host.Outcome State Fault Refusal := .next (s.cibor 0x0B00 source tag State.mgmtLoad)
def execHeadsUnload (source tag : Nat) (s : State) : Host.Outcome State Fault Refusal := .next (s.cibor 0x0B01 source tag State.mgmtUnload)
def execBankSwitch (source tag : Nat) (s : State) : Host.Outcome State Fault Refusal := .next (s.cibor 0x0B02 source tag State.mgmtBank)
def execMediaFormat (source tag : Nat) (s : State) : Host.Outcome State Fault Refusal := .next (s.cibor 0x0C00 source tag State.mgmtFormat)
def execTelemSnapshot (source tag : Nat) (s : State) : Host.Outcome State Fault Refusal := .next (s.cibor 0x1000 source tag State.mgmtTelemetry)
def execEventRead (source tag : Nat) (s : State) : Host.Outcome State Fault Refusal := .next (s.cibor 0x1001 source tag State.mgmtEvents)
def execCalRun (source tag : Nat) (s : State) : Host.Outcome State Fault Refusal :=
  .next (s.cibor 0x2000 source tag fun s r => s.calRequest r (r.param 1))
def execTdSearch (source tag : Nat) (s : State) : Host.Outcome State Fault Refusal := .next (s.cibor 0x2001 source tag fun s r => s.calRequest r 6)
def execExtLoad (source tag : Nat) (signed : Bool) (svn size : Nat) (hooks : List Nat) (s : State) : Host.Outcome State Fault Refusal :=
  .next (s.cibor 0x3010 source tag fun s r => s.mgmtExtLoad r { signed, svn, size, hooks })
def execExtUnload (source tag : Nat) (s : State) : Host.Outcome State Fault Refusal := .next (s.cibor 0x3011 source tag State.mgmtExtUnload)
def execLcState (source tag : Nat) (s : State) : Host.Outcome State Fault Refusal := .next (s.cibor 0x4002 source tag State.mgmtLcState)
def execLaneRetire (source tag : Nat) (s : State) : Host.Outcome State Fault Refusal := .next (s.cibor 0x5000 source tag State.mgmtLaneRetire)
def execLaneUnretire (source tag : Nat) (s : State) : Host.Outcome State Fault Refusal := .next (s.cibor 0x5001 source tag State.mgmtLaneUnretire)
def execCoreRetire (source tag : Nat) (s : State) : Host.Outcome State Fault Refusal := .next (s.cibor 0x5010 source tag State.mgmtCoreRetire)
def execCoreUnretire (source tag : Nat) (s : State) : Host.Outcome State Fault Refusal := .next (s.cibor 0x5011 source tag State.mgmtCoreUnretire)
def execExtensionOpcode (source tag : Nat) (status : CStat) (payload : List Nat) (s : State) : Host.Outcome State Fault Refusal :=
  .next (s.mgmtExtension source tag status payload)
def execHookTimeout (module hook : Nat) (request : Option (Nat × Nat)) (s : State) : Host.Outcome State Fault Refusal :=
  .next (s.hookTimeout module hook request)
def execTelemetryPeriod (words : List Nat) (s : State) : Host.Outcome State Fault Refusal := .next (s.telemetryPeriod words)
def execConfigurationStored (s : State) : Host.Outcome State Fault Refusal := .next s.configStored

end Sys2Proof.Machine
end

