-- ==== Sys2Proof/Machine/Microcode.lean ====
section
/-! DEFINITION. Machine/Microcode.lean: MC_LOAD (R372 to R374): the image, the checks of the loader, and its installation. -/
namespace Sys2Proof.Machine

/-! ### The image (R372) -/

/-- A microcode image as its bytes spell it. -/
structure Microcode where
  magic : Nat
  format : Nat
  kind : Nat
  seq : Nat
  mask : Nat
  svn : Nat
  n : Nat
  entries : List Nat
  ivec : Nat
  reserved : Bool
  length : Nat
  /-- Address and word, in the image's order. -/
  words : List (Nat × Nat)
deriving DecidableEq, Repr

/-- The image of a payload; its words are read as far as the word count says. -/
def microcodeOf (bs : List Nat) : Microcode :=
  let kind := bs.getD 6 0
  let n := leField bs 12 2
  let full (i : Nat) : Nat × Nat := (i, leField bs (96 + 18 * i) 18)
  let patch (i : Nat) : Nat × Nat := (leField bs (96 + 20 * i) 2, leField bs (98 + 20 * i) 18)
  { magic := leField bs 0 4, format := leField bs 4 2, kind, seq := bs.getD 7 0 % 4, mask := bs.getD 7 0 / 16, svn := leField bs 8 4, n
    entries := (List.range 8).map (fun i => leField bs (16 + 2 * i) 2), ivec := leField bs 32 2
    reserved := bs.getD 7 0 / 4 % 4 != 0 || leField bs 14 2 != 0 || ((bs.drop 34).take 14).any (· != 0)
      || (kind == 0 && ((bs.drop 48).take 48).any (· != 0))
    length := bs.length
    words := (List.range n).map fun i => if kind = 0 then full i else patch i }

/-- The sequencer that an image is for. -/
def Microcode.target (m : Microcode) : SeqId := match m.seq with | 0 => .ssq | 1 => .rsq | _ => .wsq

/-- Strings of an image. -/
def Microcode.strings (m : Microcode) : List Str := Str.all.filter fun x => m.mask.testBit x.num

/-- The fields that say what the image is are of a kind the device knows, and its length agrees with its word count. The
manual gives no status for an image that fails this (log entry 46). -/
def Microcode.formed (m : Microcode) : Bool :=
  m.magic == 0x4D515356 && m.format == 1 && decide (m.kind ≤ 1) && decide (m.seq ≤ 2) && m.mask != 0 && decide (m.n ≤ 4096)
    && m.length == 192 + (if m.kind = 0 then 18 else 20) * m.n

/-! ### Checks of single words (R355, R373) -/

/-- A field that the word's BMODE, CNTOP, TMOP, CHOP and OUTOP do not use is 0 (R355, log entry 46). -/
def fieldsUnused (q : SeqId) (w : Nat) : Bool :=
  let f hi lo := bitsOf w hi lo
  let bmode := f 15 12
  let zero (used : Bool) (v : Nat) : Bool := used || v == 0
  let chop := f 59 56
  let takesArg := q == .rsq && (chop == 1 || chop == 4)
  let byReg := f 72 72 == 1
  zero ([1, 2, 4, 7, 8].contains bmode) (f 11 0)
    && zero ([2, 3, 4, 6].contains bmode) (f 23 16)
    && zero (f 31 29 != 0 || bmode == 8) (f 33 32)
    && zero (f 36 34 == 1 || f 36 34 == 2) (f 37 37)
    && zero takesArg (f 72 72)
    && zero (takesArg && !byReg) (f 71 60)
    && zero (chop != 1) (f 70 68) && zero (chop != 4) (f 71 67)
    && (match f 78 76 with | 1 | 4 => f 83 82 == 0 | 3 => true | _ => f 83 79 == 0)

/-- Check 2: a reserved encoding or field, or an unused field that is not 0. -/
def wordReserved (q : SeqId) (w : Nat) : Bool := wordIllegal q w || !fieldsUnused q w

/-- Check 7, of a word by itself: RET, RETC or CASE with STK, DECBR with CNTOP. -/
def wordClash (w : Nat) : Bool :=
  let bmode := bitsOf w 15 12
  ([5, 6, 7].contains bmode && bitsOf w 26 24 != 0) || (bmode == 8 && bitsOf w 31 29 != 0)

/-- RESUME or DROP. -/
def endsHandler (w : Nat) : Bool := let b := bitsOf w 15 12; b == 10 || b == 11

/-- The addresses that a word names: NEXT, the CASE range, what it pushes. An address from a register is not known here. -/
def wordNames (w pc : Nat) : List Nat :=
  let next := bitsOf w 11 0
  let bmode := bitsOf w 15 12
  (if [1, 2, 4, 8].contains bmode then [next] else if bmode = 7 then (List.range 16).map (next + ·) else [])
    ++ (match bitsOf w 26 24 with | 1 => [pc + 1] | 2 => [bitsOf w 107 96] | _ => [])

/-! ### Checks of paths -/

/-- Points before commit: a COMMIT word ends the path, a 17th write too (R362). -/
def uncommittedNext (code : List (Nat × Nat)) (p : FlowPoint) : List FlowPoint :=
  match storeFind code p.pc with
  | none => []
  | some w =>
    if bitOf w 27 || 16 < p.writes + wordWrites w then []
    else (flowNext code p).map fun r => { r with writes := p.writes + wordWrites w }

/-- Everything that entries reach before commit. -/
def uncommitted (code : List (Nat × Nat)) (starts : List Nat) : List FlowPoint :=
  explore (uncommittedNext code) (18 * flowFuel code) (starts.map fun pc => { pc, stack := [], writes := 0 }) []

/-- The lowest address of a list. -/
def lowest : List Nat → Option Nat
  | [] => none
  | a :: t => some (t.foldl min a)

/-- The words of an image that break a rule, by address. -/
def offending (code : List (Nat × Nat)) (p : Nat → Nat → Bool) : Option Nat :=
  lowest ((code.filter fun e => p e.1 e.2).map (·.1))

/-- Check 4: paths that leave the image, or that push a fourth time. The address is that of the place the path reaches, or of
the pushing word. -/
def pathFault (code : List (Nat × Nat)) (points : List FlowPoint) : Option Nat :=
  lowest ((points.filter fun p =>
    match storeFind code p.pc with
    | none => true
    | some w => pushes w && decide (3 ≤ p.stack.length)).map (·.pc))

/-- The first of checks 2 to 7 that an image fails, with the first offending address (R373). `own` are the image's own words,
`code` all words its paths may use. -/
def microcodeCheck (q : SeqId) (own code : List (Nat × Nat)) (entries : List Nat) (ivec : Nat) : Option (Nat × Nat) :=
  let has (a : Nat) : Bool := (storeFind code a).isSome
  let all := reached code (entries ++ vectors q ivec)
  let routines := reached code entries
  let before := uncommitted code entries
  let word (p : FlowPoint) : Nat := (storeFind code p.pc).getD 0
  let at' (n : Nat) (a : Option Nat) : Option (Nat × Nat) := a.map fun a => (n, a)
  (at' 2 (offending own fun _ w => wordReserved q w))
    <|> (at' 3 (offending own fun a w => (wordNames w a).any fun b => !has b))
    <|> (at' 4 (pathFault code all))
    <|> (at' 5 (lowest ((before.filter fun p => !bitOf (word p) 27 && decide (16 < p.writes + wordWrites (word p))).map (·.pc))))
    <|> (at' 6 (lowest ((before.filter fun p => bitsOf (word p) 59 56 != 0 && !bitOf (word p) 27).map (·.pc))))
    <|> (at' 7 (lowest ((own.filter fun e => wordClash e.2).map (·.1) ++ (routines.filter fun p => endsHandler (word p)).map (·.pc))))

/-! ### Installing (R374) -/

/-- Words written into a sequencer's control store. -/
def State.putWords (s : State) (x : Str) (q : SeqId) (ws : List (Nat × Nat)) : State :=
  let n := x.num * 3 + q.num
  let s := s.controlWritten x q (ws.map fun e => e.1 % 4096)
  { s with control := ws.foldl (fun m e =>
      if e.2 = 0 then storeDrop m (n * 4096 + e.1 % 4096) else storePut m (n * 4096 + e.1 % 4096) e.2) s.control }

/-- SQ_ENTRY values written: at once, or at the next dispatch of a running sequencer (R375). -/
def State.putEntries (s : State) (x : Str) (q : SeqId) (es : List Nat) : State :=
  (List.range 8).foldl (fun s k =>
    let reg := if k % 2 = 0 then Reg.SQ_ENTRY_EVEN else Reg.SQ_ENTRY_ODD
    let v := es.getD k 0 % 4096
    if s.sqState x q = 0 then s.wr reg v (q.ix x (k / 2)) else s.shadowWr reg v (q.ix x (k / 2))) s

/-- A full image in a sequencer that is STOPPED; GO follows. -/
def State.installFull (s : State) (m : Microcode) (x : Str) : State :=
  let q := m.target
  let s := ((s.putWords x q m.words).putEntries x q m.entries).wr .SQ_IVEC_IVEC m.ivec (q.ix x)
  (s.setLive x q (List.range ((m.n + 63) / 64))).seqGoOp x q

/-- A patch in a sequencer that goes on running. -/
def State.installPatch (s : State) (m : Microcode) (x : Str) : State :=
  let q := m.target
  let live := (List.range 64).filter fun p => s.pageLive x q (64 * p)
  let s := ((s.putWords x q m.words).setLive x q (live ++ m.words.map fun e => e.1 / 64)).putEntries x q m.entries
  s.modSeq x q fun u => { u with sweep := true }

/-- The words that an image's paths may use on a String. -/
def State.imageCode (s : State) (m : Microcode) (x : Str) : List (Nat × Nat) :=
  if m.kind = 0 then m.words else m.words ++ s.liveCode x m.target

/-- The checks of R373 in their order, with the reply's details; `signed` says that the signature holds under the key of the
Vurrilas or the maker microcode slot, `base` that the base hash is that of the installed image. -/
def State.microcodeRefused (s : State) (m : Microcode) (signed : Option Nat) (base : Bool) : Option (CStat × Nat × Nat) :=
  let q := m.target
  let keyed := signed.any fun k => (k == 1 || k == 3) && (s.keyHash k).any (· != 0)
  let first := (m.strings.filterMap fun x => microcodeCheck q m.words (s.imageCode m x) m.entries
    (if m.kind = 0 then m.ivec else s.rd .SQ_IVEC_IVEC (q.ix x))).head?
  if !keyed then some (.mcSigFail, 0, 0)
  else if !m.formed || m.strings.any fun x => !s.present x then some (.cfgRange, 0, 0)
  else if m.svn < s.bur.svnMin.getD q.num 0 then some (.mcRollback, 0, 0)
  else if m.kind = 1 && !base then some (.mcBase, 0, 0)
  else
    match if m.kind = 1 then offending m.words fun a _ => m.strings.any fun x => s.pageLive x q a else none with
    | some a => some (.mcReject, 1, a)
    | none =>
      if m.reserved then some (.mcReject, 2, 0)
      else first.map fun e => (.mcReject, e.1, e.2)

/-- A started MC_LOAD names a String of the image for the same sequencer: BUSY (R390). -/
def State.microcodeBusy (s : State) (m : Microcode) : Bool :=
  s.bur.requests.any fun r => r.opcode == 0x3000 && r.started &&
    (let o := microcodeOf r.payload
     o.seq == m.seq && m.strings.any o.strings.contains)

/-- Every sequencer that a full image is for is STOPPED: it is installed, its SVN becomes the minimum, GO is written. -/
def State.microcodeInstall (s : State) (r : CiborRequest) (m : Microcode) : State :=
  if m.strings.all fun x => s.sqState x m.target == 0 then
    let s := m.strings.foldl (fun s x => s.installFull m x) s
    let s := s.modBur fun b => { b with svnMin := b.svnMin.set m.target.num m.svn }
    (s.journal (deviceRow 6)).reply r .ok
  else s

/-- 0x3000 MC_LOAD: checked; a patch is installed at once, for a full image STOP is written and it is installed when the
command is taken again with every sequencer STOPPED. -/
def State.microcodeLoad (s : State) (r : CiborRequest) (signed : Option Nat) (base : Bool) : State :=
  let m := microcodeOf r.payload
  match s.microcodeRefused m signed base with
  | some (st, d1, d2) => s.reply r st d1 d2
  | none =>
    if s.microcodeBusy m then s.reply r .busy
    else if m.kind = 1 then (m.strings.foldl (fun s x => s.installPatch m x) s).reply r .ok
    else
      let s := m.strings.foldl (fun s x => s.seqStop x m.target) s
      (s.modRequest r fun q => { q with started := true }).microcodeInstall r m

/-- MC_LOAD by the name of its request: one that has begun waits for its sequencers. -/
def State.mcLoad (s : State) (source tag : Nat) (signed : Option Nat) (base : Bool) : State :=
  match s.bur.requests.find? fun r => r.source == source && r.tag == tag && r.opcode == 0x3000 && r.started with
  | some r => s.microcodeInstall r (microcodeOf r.payload)
  | none => s.cibor 0x3000 source tag fun s r => s.microcodeLoad r signed base

def execMcLoad (source tag : Nat) (signed : Option Nat) (base : Bool) (s : State) : Host.Outcome State Fault Refusal :=
  .next (s.mcLoad source tag signed base)

end Sys2Proof.Machine
end

