-- ==== Sys2Proof/Machine/LifeCycle.lean ====
section
/-! DEFINITION. Machine/LifeCycle.lean: firmware images in the serial NOR (R252, R463, R467), challenges and tokens (R462), and
the transitions that they bring about (R460, R461). -/
namespace Sys2Proof.Machine

/-! ### Firmware images -/

/-- A part of an image overlaps what has been downloaded. -/
def overlaps (old : List (Nat × Nat)) (offset n : Nat) : Bool := old.any fun e => decide (offset ≤ e.1) && decide (e.1 < offset + n)

/-- FIRMWARE_IMAGE_DOWNLOAD: dwords from an offset on. A part at offset 0 begins an image (log entry 47). -/
def State.firmwareDownload (s : State) (f : Nat) : State :=
  match s.cmdOp f with
  | some (_, .fwDownload offset words) =>
    s.admin f fun s _ =>
      let old := if offset = 0 then [] else s.lc.download
      if words.isEmpty then s.finish f .invalidField
      else if overlaps old offset words.length then s.finish f .overlappingRange
      else
        (s.modLc fun l => { l with download := old ++ words.mapIdx fun i w => (offset + i, w) }).finish f .success
  | _ => s

/-- Dword of the image that has been downloaded. -/
def State.imageDword (s : State) (i : Nat) : Nat := (storeFind s.lc.download i).getD 0

/-- The image that has been downloaded: whole from its first dword on, its header as R463 lays it out. Its key and whether its
signature verifies are named beside it. -/
def State.downloaded (s : State) (key : List Nat) (signed : Bool) : Option NorImage :=
  let n := s.lc.download.length
  let whole := (List.range n).all fun i => (storeFind s.lc.download i).isSome
  let length := s.imageDword 2
  if whole && decide (512 + length ≤ 4 * n) then
    some { magic := s.imageDword 0 == 0x57464E52, length, svn := s.imageDword 1, key, signed }
  else none

/-- An image in a slot that passes R464. -/
def State.slotGood (s : State) (i : Nat) : Bool := (s.lc.images.getD i none).any s.imageOk

/-- The directory names a slot: the device boots it at the next power-on (R464). -/
def State.activate (s : State) (f i : Nat) : State := (s.modLc fun l => { l with active := i }).finish f .firmwareNeedsReset

/-- FIRMWARE_COMMIT: slots 1 and 2 are A and B; slot 0 leaves the choice to the device, which takes the slot that it has not
booted. An image is tested as R464 tests it before its slot is overwritten (log entry 47). -/
def State.firmwareCommit (s : State) (f : Nat) (key : List Nat) (signed : Bool) : State :=
  match s.cmdOp f with
  | some (_, .fwCommit slot action) =>
    s.admin f fun s _ =>
      let i := if slot = 0 then 1 - s.rd .LC_BOOT_SLOT else slot - 1
      let store (s : State) (im : NorImage) : State := s.modLc fun l => { l with images := l.images.set i (some im), download := [] }
      let im := (s.downloaded key signed).filter s.imageOk
      if 2 < slot || (action = 2 && slot = 0) then s.finish f .invalidFirmwareSlot
      else
        match action with
        | 0 => match im with
          | some im => (store s im).finish f .success
          | none => s.finish f .invalidFirmwareImage
        | 1 => match im with
          | some im => (store s im).activate f i
          | none => s.finish f .invalidFirmwareImage
        | 2 => if s.slotGood i then s.activate f i else s.finish f .invalidFirmwareImage
        | 3 =>
          if !s.lc.download.isEmpty then
            match im with
            | some im => (store s im).activate f i
            | none => s.finish f .invalidFirmwareImage
          else if s.slotGood i then s.activate f i
          else s.finish f .invalidFirmwareImage
        | _ => s.finish f .invalidField
  | _ => s

/-! ### Challenges (R462) -/

/-- The live challenge ends. -/
def State.endChallenge (s : State) : State := (s.modLc fun l => { l with challenge := none }).unflag .LC_STAT_CHAL_LIVE

/-- A new challenge: its nonce comes from the DRBG. -/
def State.newChallenge (s : State) : State :=
  let nonce := (List.range 8).map fun i => Config.freeValue (s.draws + i) % 2 ^ 32
  ({ s with draws := s.draws + 8, lc := { s.lc with challenge := some nonce } } : State).flag .LC_STAT_CHAL_LIVE

/-- Words of the device identifier. -/
def State.deviceId (s : State) : List Nat := (List.range 4).map fun i => s.rd .LC_DEVID_ID i

/-- The 64 bytes of the live challenge. -/
def State.challengeBytes (s : State) : List Nat :=
  bytesOf (s.deviceId ++ s.lc.challenge.getD []) ++ [s.rd .LC_STAT_STATE, s.rd .LC_STAT_RETCNT, s.rd .LC_STAT_REFIELD]
    ++ List.replicate 13 0

/-- 0x4000 LC_CHALLENGE. -/
def State.lcChallenge (s : State) (r : CiborRequest) : State :=
  let s := s.newChallenge
  s.reply r .ok 0 0 [] s.challengeBytes

/-! ### Tokens (R459, R460, R462) -/

/-- The slot whose key signs tokens in a state (R459). -/
def tokenSlot (st : Nat) : Nat := if st ≤ 1 then 2 else 4

/-- A refused request of the life cycle. -/
def State.lcRefused (s : State) : State := s.flag .LC_STAT_DENIED

/-- The words of a token from a byte on. -/
def tokenWords (bs : List Nat) (at' n : Nat) : List Nat := (List.range n).map fun i => leField bs (at' + 4 * i) 4

/-- Target of a token. -/
def tokenTarget (bs : List Nat) : Nat := bs.getD 4 0

/-- A token is genuine: 264 bytes with the magic, and a tail of 96 where BLANK to MAKER needs one; the device identifier and the
live challenge's nonce; the slot of the state; a key that the slot trusts; a signature that verifies. -/
def State.tokenGood (s : State) (bs key : List Nat) (signed : Bool) : Bool :=
  let slot := tokenSlot (s.rd .LC_STAT_STATE)
  bs.length == (if tokenTarget bs = 2 then 360 else 264) && leField bs 0 4 == 0x4B54434C && bs.getD 5 0 == slot
    && tokenWords bs 8 4 == s.deviceId && s.lc.challenge == some (tokenWords bs 24 8) && s.trusts slot key && signed

/-- The transition that a token asks. In BLANK to MAKER the tail holds the hashes of slots 3 and 4, slot 3's at the offset that
bytes 56 to 59 give: 0 or 48. -/
def tokenTransition (bs : List Nat) : Option Transition :=
  let first := leField bs 56 4
  if tokenTarget bs = 2 then
    if first = 0 || first = 48 then
      some { target := 2, hashes := tokenWords bs (264 + first) 12 ++ tokenWords bs (264 + (48 - first)) 12, identity := [] }
    else none
  else some { target := tokenTarget bs, hashes := [], identity := [] }

/-- The conditions of R460 on a transition that a token brings. -/
def State.transitionOk (s : State) (target : Nat) : Bool :=
  let calm := s.mode == 1 || s.mode == 3
  match s.rd .LC_STAT_STATE, target with
  | 1, 2 | 2, 3 => true
  | 3, 4 => calm && !s.streamsArmed
  | 4, 3 => decide (s.rd .LC_STAT_REFIELD < 3) && s.host.namespaces.isEmpty
  | 1, 5 | 2, 5 | 3, 5 | 4, 5 => calm
  | _, _ => false

/-- A transition is carried out up to one of its steps, and its request answered after the last (R461); a reply over a session
that the transition has closed is discarded (R472). -/
def State.carryOut (s : State) (t : Transition) (r : Option CiborRequest) (steps : Nat) : State :=
  let s := s.transit t steps
  if steps < 4 then s
  else
    match r with
    | some r => s.reply ((s.bur.requests.find? fun e => e.order == r.order).getD r) .ok 0 0 [s.rd .LC_STAT_STATE]
    | none => s.emit (.frameStatus 0 .ok)

/-- A token that is refused (R460, R462). -/
def State.refuseToken (s : State) (r : Option CiborRequest) : State :=
  let s := s.lcRefused
  match r with
  | some r => s.reply r .lcDenied
  | none => s.emit (.frameStatus 0 .lcDenied)

/-- A life-cycle token: its use ends the live challenge. While a Bureau core is halted, its transition waits until the session
closes (R472). -/
def State.lifeToken (s : State) (r : Option CiborRequest) (bs key : List Nat) (signed : Bool) (steps : Nat) : State :=
  let good := s.tokenGood bs key signed && s.transitionOk (tokenTarget bs)
  let s := s.endChallenge
  match good, tokenTransition bs with
  | true, some t =>
    if s.isSet .BNCH_STAT_HALTED then
      let s := s.modLc fun l => { l with waiting := some (t, r.map fun r => r.order) }
      match r with
      | some r => s.beginRequest r
      | none => s
    else s.carryOut t r steps
  | _, _ => s.refuseToken r

/-- 0x4001 LC_TOKEN. A token that comes while a transition waits has its turn after it. -/
def State.lcToken (s : State) (r : CiborRequest) (key : List Nat) (signed : Bool) (steps : Nat) : State :=
  if s.lc.waiting.isSome then s else s.lifeToken (some r) r.payload key signed steps

/-- A transition that has waited is carried out; its conditions are tested again (log entry 48). -/
def State.runWaiting (s : State) : State :=
  match s.lc.waiting with
  | none => s
  | some (t, o) =>
    let s := s.modLc fun l => { l with waiting := none }
    let r := o.bind fun o => s.bur.requests.find? fun e => e.order == o
    if s.transitionOk t.target then s.carryOut t r 4 else s.refuseToken r

/-! ### Meanings -/

def execFirmwareImageDownload (fseq : Nat) (s : State) : Host.Outcome State Fault Refusal := .next (s.firmwareDownload fseq)
def execFirmwareCommit (fseq : Nat) (key : List Nat) (signed : Bool) (s : State) : Host.Outcome State Fault Refusal :=
  .next (s.firmwareCommit fseq key signed)
def execLcChallenge (source tag : Nat) (s : State) : Host.Outcome State Fault Refusal := .next (s.cibor 0x4000 source tag State.lcChallenge)
def execLcToken (source tag : Nat) (key : List Nat) (signed : Bool) (steps : Nat) (s : State) : Host.Outcome State Fault Refusal :=
  .next (s.cibor 0x4001 source tag fun s r => s.lcToken r key signed steps)
def execChallengeExpiry (s : State) : Host.Outcome State Fault Refusal := .next s.endChallenge

end Sys2Proof.Machine
end

