-- ==== Sys2Proof/Machine/Bench.lean ====
section
/-! DEFINITION. Machine/Bench.lean: the Bench port: TAP instructions (R468), frames, challenges and sessions (R469, R472), debug
commands (R470, R475), and shadow-step (R471). -/
namespace Sys2Proof.Machine

/-! ### TAP instructions (R468)

Instruction codes of the model: 0 BYPASS, 1 IDCODE, 2 SAMPLE/PRELOAD, 3 EXTEST, 4 CLAMP, 5 HIGHZ, 6 DBG. -/

/-- An instruction is in force. -/
def State.tapLoad (s : State) (ir : Nat) : State := { s with bench := { s.bench with ir } }

/-- An instruction that does not act loads BYPASS. -/
def State.tapDenied (s : State) (r : Reg) : State := (s.tapLoad 0).flag r

/-- IDCODE: stepping, 0x4810, manufacturer code, 1. -/
def State.idcode (s : State) : Nat :=
  s.rd .LC_VAR_STEPPING * 2 ^ 28 + 0x4810 * 2 ^ 12 + s.lc.manufacturer % 2048 * 2 + 1

/-- SAMPLE/PRELOAD acts in every state but SCRAPPED. -/
def State.tapSample (s : State) : State := if s.rd .LC_STAT_STATE = 5 then s.tapDenied .BNCH_STAT_DENIED else s.tapLoad 2

/-- EXTEST, CLAMP and HIGHZ act in a state and while the SPE is OFF and every SCE UNLOADED, as the instruction is loaded. -/
def State.tapScan (s : State) (ir : Nat) : State :=
  let st := s.rd .LC_STAT_STATE
  if st = 5 || (st = 3 && !s.isSet .BNCH_STAT_SESSION) then s.tapDenied .BNCH_STAT_DENIED
  else if s.speState != 0 || Str.all.any (fun x => s.sceState x != 0) then s.tapDenied .BNCH_STAT_BSCAN_BLK
  else s.tapLoad ir

/-- DBG: in RAW, and in an open session. -/
def State.tapDbg (s : State) : State := if s.benchOpen then s.tapLoad 6 else s.tapDenied .BNCH_STAT_DENIED

/-! ### Frames, sessions (R469, R472) -/

/-- A debug command in a frame: acts while the port is open under R468, and its status goes out. -/
def State.debug (s : State) (f : State → CStat × State) : State :=
  if s.benchOpen then
    let (st, s) := f s
    s.emit (.frameStatus 0 st)
  else s

/-- Words go out over the Bench port. -/
def State.sendWords (s : State) (ws : List Nat) : State := (ws.mapIdx fun i w => (i, w)).foldl (fun s e => s.emit (.bench e.1 e.2)) s

/-- The payload of a frame whose length and CRC-32C are good, by its type. -/
def framePayload (frame : List Nat) : Option (Nat × List Nat) :=
  let n := leField frame 2 2
  if frame.length = n + 8 && leField frame (n + 4) 4 == crc32c (frame.take (n + 4)) then some (frame.getD 0 0, (frame.drop 4).take n) else none

/-- DBG_FRAME: type 0x01 is a Cibor packet; debug commands, challenge requests and openings have rows of their own. A frame
whose length or CRC is wrong is dropped (log entry 48). -/
def State.dbgFrame (s : State) (frame : List Nat) : State :=
  match framePayload frame with
  | some (1, packet) => s.benchPacket packet
  | _ => s

/-- BENCH_CHALLENGE: accepted without a session, since a session opens by it; never in SCRAPPED (log entry 48). -/
def State.benchChallenge (s : State) : State :=
  if s.rd .LC_STAT_STATE = 5 then s
  else
    let s := s.newChallenge
    s.benchFrame 3 s.challengeBytes

/-- The session ends: what waits for that is carried out (R472). -/
def State.endSession (s : State) : State := if s.isSet .BNCH_STAT_SESSION then s.closeSession.runWaiting else s

/-- A Bench opening token: OPENS, or REFUSED (R469, R474). -/
def State.benchOpening (s : State) (bs key : List Nat) (signed : Bool) : State :=
  let good := s.tokenGood bs key signed
  let s := s.endChallenge
  if good then
    (((s.flag .BNCH_STAT_SESSION).bump .BNCH_CNT_OPENS).journal (deviceRow 7)).emit (.frameStatus 0 .ok)
  else
    (((s.lcRefused).bump .BNCH_CNT_REFUSED).journal (deviceRow 7)).emit (.frameStatus 0 .lcDenied)

/-- Requests of RAW, which need no key (R460): RAW to BLANK with the identity and three hashes that are not 0, and RAW to
SCRAPPED with the spindle stopped. -/
def State.rawRequest (s : State) (t : Transition) (steps : Nat) : State :=
  let hash (k : Nat) : List Nat := (t.hashes.drop (12 * k)).take 12
  let ok :=
    if t.target = 1 then t.hashes.length == 36 && (List.range 3).all (fun k => (hash k).any (· != 0)) && t.identity.length == 9
    else t.target == 5 && s.speState == 0
  if s.rd .LC_STAT_STATE = 0 && ok then s.carryOut t none steps else s.refuseToken none

/-- BENCH_OPEN: a request of RAW, an opening token, or a token that asks a transition (R460). -/
def State.benchOpenFrame (s : State) (token key : List Nat) (signed : Bool) (request : Option (Nat × List Nat × List Nat)) (steps : Nat) :
    State :=
  if s.rd .LC_STAT_STATE = 5 || s.lc.waiting.isSome then s
  else
    match request with
    | some (target, hashes, identity) => s.rawRequest { target, hashes, identity } steps
    | none => if tokenTarget token = 0x80 then s.benchOpening token key signed else s.lifeToken none token key signed steps

/-! ### Engines (R40, R470, R475) -/

/-- The String of an engine code. -/
def engineStr (e : Nat) : Option Str :=
  if 16 ≤ e && e < 32 then some (Str.ofNum (e % 4)) else if 33 ≤ e && e < 37 then some (Str.ofNum (e - 33)) else none

/-- The sequencer of an engine code. -/
def engineSeq (e : Nat) : SeqId := if e < 20 then .ssq else if e < 24 then .rsq else .wsq

/-- A code that names no engine of this device: none of R28, or one of a String that is absent. -/
def State.noEngine (s : State) (e : Nat) : Bool := decide (47 < e) || (engineStr e).any fun x => !s.present x

/-- An engine is halted. -/
def State.isHalted (s : State) (e : Nat) : Bool :=
  if e < 16 then s.bit .BNCH_STAT_HALTED e
  else if 28 ≤ e && e < 32 then s.sceState (Str.ofNum (e % 4)) == 6
  else s.bench.halted.contains e

/-- Cores in service that are not halted. -/
def State.coresRunning (s : State) : List Nat := s.coresIn.filter fun c => !s.bit .BNCH_STAT_HALTED c

/-- An engine joins those halted. -/
def State.markHalted (s : State) (e : Nat) : State := { s with bench := { s.bench with halted := s.bench.halted ++ [e] } }

/-- A core halts, its tasks migrated, unless it is the last one running. -/
def State.haltCore (s : State) (c : Nat) : CStat × State :=
  if s.coresRunning.contains c && decide (2 ≤ s.coresRunning.length) then (.ok, (s.flagBit .BNCH_STAT_HALTED c).moveTasks c false)
  else (.notReady, s)

/-- A sequencer halts at its next word; the WSQ's committed starts are withdrawn. -/
def State.haltSeq (s : State) (e : Nat) (x : Str) : CStat × State :=
  (.ok, (s.when (engineSeq e == .wsq) fun s => s.seqWithdraw x).markHalted e)

/-- An SCE that is UNLOADED with its loop open goes to HALTED (R110): outputs 0, PVALID 0, WINH. -/
def State.haltSce (s : State) (x : Str) : CStat × State :=
  if s.sceState x = 0 && s.isSet .SCEx_STAT_LOOP_OPEN x.ix then
    let s := ((s.wr .SCEx_STAT_STATE 6 x.ix).wr .SCEx_VCMCMD_S30 0 x.ix).wr .SCEx_MACMD_S31 0 x.ix
    let s := (s.unflag .SCEx_STAT_PVALID x.ix).assertWinh x
    (.ok, { s with bench := { s.bench with stepAt := s.bench.stepAt.set x 0 } })
  else (.notReady, s)

/-- The SPE halts while OFF and below 60 rpm: its gates are off. -/
def State.haltSpe (s : State) : CStat × State :=
  if s.speState = 0 && decide ((toSigned 32 (s.rd .SPE_SPEED_MRPM)).natAbs < 60000) then
    (.ok, (s.modSpe fun e => { e with bridge := .off }).markHalted 32)
  else (.notReady, s)

/-- HALT. -/
def State.haltOp (s : State) (e : Nat) : CStat × State :=
  if s.noEngine e then (.cfgRange, s)
  else if s.isHalted e then (.ok, s)
  else if e < 16 then s.haltCore e
  else
    match engineStr e with
    | none => if e = 32 then s.haltSpe else (.notReady, s)
    | some x => if e < 28 then s.haltSeq e x else if e < 32 then s.haltSce x else (.notReady, s)

/-- A halted engine returns to service. -/
def State.resumeOp (s : State) (e : Nat) : CStat × State :=
  if s.noEngine e then (.cfgRange, s)
  else if !s.isHalted e then (.notReady, s)
  else if e < 16 then (.ok, (s.unflagBit .BNCH_STAT_HALTED e).scheduleTasks fun _ => true)
  else if 28 ≤ e && e < 32 then (.ok, s.sceResume (Str.ofNum (e % 4)))
  else (.ok, { s with bench := { s.bench with halted := s.bench.halted.filter (· != e) } })

/-- One section of the active bank of a halted SCE, on its signals as they stand; after the last one the first comes next. -/
def State.stepSce (s : State) (x : Str) : State :=
  let t := s.rd .SCEx_STAT_ACTBANK x.ix
  let l := s.sections x t
  let i := s.bench.stepAt.get x
  match l[i]? with
  | none => s
  | some d =>
    let c := (s.str.get x).sce
    let r := Chain.run x t { s, sig := c.sig, sat := false, pred := c.pred } d
    let s := (r.s.modSce x fun c => { c with sig := r.sig, pred := r.pred }).when r.sat fun s => s.flag .SCEx_STAT_SAT_INT x.ix
    { s with bench := { s.bench with stepAt := s.bench.stepAt.set x ((i + 1) % l.length) } }

/-- STEP: a sequencer issues one word; what an instruction of a core and a stage of the SPE's chain do inside them the manual
does not say. -/
def State.stepOp (s : State) (e pt : Nat) : CStat × State :=
  if s.noEngine e then (.cfgRange, s)
  else if !s.isHalted e then (.notReady, s)
  else
    match engineStr e with
    | none => (.ok, s)
    | some x => (.ok, if e < 28 then (s.traced x (engineSeq e)).issue x (engineSeq e) pt else s.stepSce x)

/-- Breakpoints of an engine: 8 instruction and 4 data of a core, 4 of a sequencer, an SCE and the SPE. -/
def breakLimit (e kind : Nat) : Nat :=
  if e < 16 then (if kind = 0 then 8 else if kind = 1 then 4 else 0) else if e < 33 && kind = 0 then 4 else 0

/-- BREAKPOINT_SET: a breakpoint is set, if the engine has one left, or taken away. -/
def State.breakOp (s : State) (e kind place : Nat) (on : Bool) : CStat × State :=
  let others := s.bench.breaks.filter fun b => !(b.1 == e && b.2.1 == kind && b.2.2 == place)
  let mine := others.filter fun b => b.1 == e && b.2.1 == kind
  if s.noEngine e || (on && decide (breakLimit e kind ≤ mine.length)) then (.cfgRange, s)
  else (.ok, { s with bench := { s.bench with breaks := if on then others ++ [(e, kind, place)] else others } })

/-- BREAKPOINT_HIT: an engine at a breakpoint halts, where HALT would be accepted. -/
def State.breakHit (s : State) (e kind place : Nat) : State :=
  let there := decide (e < 16 || 28 ≤ e) || (engineStr e).any fun x => s.rd .SQ_STAT_PC ((engineSeq e).ix x) == place
  if s.bench.breaks.contains (e, kind, place) && there then (s.haltOp e).2 else s

/-! ### Memory, state, trace -/

/-- Addresses of which reads return 0 and set KEYRD: the Cabinet block and the Chest's key records (R317). -/
def keyArea (a : Nat) : Bool := a / 0x100000 == 0xF0007 || (decide (0x200780800 ≤ a) && decide (a < 0x200788800))

/-- Words that the Bench port reads from an address on; an error response ends the command. -/
def State.benchWords (s : State) (a : Nat) : Nat → Option (List Nat) × State
  | 0 => (some [], s)
  | n + 1 =>
    let (v, s) := if keyArea a then (some 0, s.flag .BNCH_STAT_KEYRD) else s.readWord 64 a
    match v with
    | none => (none, s)
    | some v =>
      match s.benchWords (a + 4) n with
      | (none, s) => (none, s)
      | (some vs, s) => (some (v :: vs), s)

/-- MEM_RD: up to 16,384 words. -/
def State.memRead (s : State) (a n : Nat) : CStat × State :=
  if n = 0 || 16384 < n then (.cfgRange, s)
  else
    match s.benchWords a n with
    | (none, s) => (.cfgRange, s)
    | (some ws, s) => (.ok, s.sendWords ws)

/-- Words that the Bench port writes from an address on; writes of the protected blocks are ignored (R389). -/
def State.benchStore (s : State) (a : Nat) (outcome : Nat) : List Nat → CStat × State
  | [] => (.ok, s)
  | w :: ws =>
    let (st, s) := if protectedBlock a then (some .ok, s) else s.writeWord 64 a w (2 ^ 32 - 1) outcome
    let (st', s) := s.benchStore (a + 4) outcome ws
    (firstStatus (st.getD .cfgRange) st', s)

/-- MEM_WR: up to 16,384 words. -/
def State.memWrite (s : State) (a : Nat) (ws : List Nat) (outcome : Nat) : CStat × State :=
  if ws.isEmpty || 16384 < ws.length then (.cfgRange, s)
  else
    let (st, s) := s.benchStore a outcome (ws.map (· % 2 ^ 32))
    (st, s.settleRequests)

/-- Private state of an engine, as the model holds it; of the others the manual names none (log entry 48). -/
def State.privateWords (s : State) (e : Nat) : List Nat :=
  match engineStr e with
  | some x =>
    if e < 28 then
      let u := s.seq x (engineSeq e)
      u.g ++ u.c ++ [u.pt, u.pm] ++ u.stack
    else if e < 32 then (s.str.get x).sce.sig.map (ofSigned 32)
    else [s.free]
  | none => [s.free]

/-- STATE_RD. -/
def State.stateRead (s : State) (e : Nat) : CStat × State :=
  if s.noEngine e then (.cfgRange, s) else (.ok, s.drawn.sendWords (s.privateWords e))

/-- TRACE_RD: tags with their timestamps, oldest first. -/
def State.traceRead (s : State) : CStat × State := (.ok, s.sendWords (s.bench.trace.reverse.flatMap fun e => [e.1, e.2]))

/-! ### Shadow-step (R471) -/

/-- SNAP names an SCE that is not HALTED, or the SPE while it runs. -/
def State.snapOp (s : State) (e : Nat) : CStat × State :=
  if s.noEngine e then (.cfgRange, s)
  else if (28 ≤ e && e < 32 && !s.isHalted e) || (e = 32 && s.speState != 0) then
    (.ok, { s with bench := { s.bench with snap := some e, latched := none } })
  else (.notReady, s)

/-- No law execution comes: the SCE is UNLOADED, or the SPE OFF. -/
def State.noLaw (s : State) (e : Nat) : Bool := if e = 32 then s.speState == 0 else s.sceState (Str.ofNum (e % 4)) == 0

/-- SNAP_CAPTURE: what the execution has latched goes to the shadow engine; with none to come, SNAP ends with NOT_READY (R472). -/
def State.snapCapture (s : State) : State :=
  match s.bench.snap, s.bench.latched with
  | some _, some e =>
    ({ s with bench := { s.bench with snap := none, latched := none, shadow := some e } } : State).unflag .BNCH_STAT_MATCH
  | some e, none =>
    if s.noLaw e then ({ s with bench := { s.bench with snap := none } } : State).emit (.frameStatus 0 .notReady) else s
  | none, _ => s

/-- The entries of one table replaced. -/
def State.withTable (s : State) (block : Nat) (ws : List (Nat × Nat)) : State :=
  let own := ws.filter fun e => decide (e.1 / 65536 = block)
  { s with regs := s.regs.filter (fun e => decide (e.1 / 65536 < block)) ++ own ++ s.regs.filter fun e => decide (block < e.1 / 65536) }

/-- The shadow engine changed. -/
def State.setEngine (s : State) (e : ShadowEngine) : State := { s with bench := { s.bench with shadow := some e } }

/-- The shadow has reached END: MATCH. -/
def State.shadowEnd (s : State) (e : ShadowEngine) : State :=
  let same := e.sig.getD 30 0 == e.live30 && e.sig.getD 31 0 == e.live31
  (s.setEngine { e with ended := true }).setTo .BNCH_STAT_MATCH same

/-- One section of a shadow SCE. Its states are those that were copied: the table's own are put back after it. -/
def State.shadowSection (s : State) (e : ShadowEngine) : State :=
  let x := Str.ofNum (e.engine % 4)
  let block := regKey (tableReg e.table) x.ix / 65536
  let u := s.withTable block e.words
  match (u.sections x e.table)[e.at']? with
  | none => if e.ended then s else s.shadowEnd e
  | some d =>
    let next := { e with at' := e.at' + 1 }
    if d.code = 0 then s.shadowEnd next
    else if d.code = 7 then (s.setEngine next).flag .BNCH_STAT_SKIPX
    else
      let r := Chain.run x e.table { s := u, sig := e.sig, sat := false, pred := e.pred } d
      let words := r.s.regs.filter fun r => r.1 / 65536 == block
      (r.s.withTable block s.regs).setEngine { next with sig := r.sig, pred := r.pred, words }

/-- One stage of a shadow of the SPE's chain: what it leaves is free, and END too (log entry 44). -/
def State.shadowStage (s : State) (e : ShadowEngine) : State :=
  if e.ended then s
  else
    let sig := ((List.replicate 32 (0 : Int)).set 30 (Config.freeInt s.draws)).set 31 (Config.freeInt (s.draws + 1))
    let last := Config.freeValue (s.draws + 2) % 2 == 1
    let next := { e with at' := e.at' + 1, sig }
    let s : State := { s with draws := s.draws + 3 }
    if last then s.shadowEnd next else s.setEngine next

/-- The shadow runs one unit. -/
def State.shadowStep (s : State) : State :=
  match s.bench.shadow with
  | none => s
  | some e => if e.engine = 32 then s.shadowStage e else s.shadowSection e

/-- The shadow stands at a breakpoint of its engine. -/
def State.shadowBreak (s : State) : Bool := s.bench.shadow.any fun e => s.bench.breaks.contains (e.engine, 0, e.at')

/-- The shadow has reached END. -/
def State.shadowDone (s : State) : Bool := s.bench.shadow.all fun e => e.ended

/-- The shadow runs to END or to a breakpoint; an SCE has 64 sections, and the chain of the SPE ends within as many stages. -/
def State.shadowRun (s : State) : Nat → State
  | 0 => match s.bench.shadow with
    | some e => if e.ended then s else s.shadowEnd e
    | none => s
  | n + 1 =>
    if s.shadowDone then s
    else
      let s := s.shadowStep
      if s.shadowBreak then s else s.shadowRun n

/-- SSTEP. -/
def State.sstep (s : State) : CStat × State := if s.bench.shadow.isSome then (.ok, s.shadowStep) else (.notReady, s)

/-- SRUN. -/
def State.srun (s : State) : CStat × State := if s.bench.shadow.isSome then (.ok, s.shadowRun 66) else (.notReady, s)

/-! ### Meanings -/

def execBypass (s : State) : Host.Outcome State Fault Refusal := .next (s.tapLoad 0)
def execIdcode (s : State) : Host.Outcome State Fault Refusal := .next ((s.tapLoad 1).emit (.bench 0 s.idcode))
def execSamplePreload (s : State) : Host.Outcome State Fault Refusal := .next s.tapSample
def execExtest (s : State) : Host.Outcome State Fault Refusal := .next (s.tapScan 3)
def execClamp (s : State) : Host.Outcome State Fault Refusal := .next (s.tapScan 4)
def execHighz (s : State) : Host.Outcome State Fault Refusal := .next (s.tapScan 5)
def execDbg (s : State) : Host.Outcome State Fault Refusal := .next s.tapDbg
def execDbgFrame (frame : List Nat) (s : State) : Host.Outcome State Fault Refusal := .next (s.dbgFrame frame)
def execBenchChallenge (s : State) : Host.Outcome State Fault Refusal := .next s.benchChallenge
def execBenchOpen (token key : List Nat) (signed : Bool) (request : Option (Nat × List Nat × List Nat)) (steps : Nat) (s : State) :
    Host.Outcome State Fault Refusal := .next (s.benchOpenFrame token key signed request steps)
def execSessionClose (s : State) : Host.Outcome State Fault Refusal := .next s.endSession

/-- TRST_N asserted: the session closes, and the TAP is reset, which loads IDCODE (IEEE 1149.1). -/
def execTrst (s : State) : Host.Outcome State Fault Refusal := .next (s.endSession.tapLoad 1)
def execSessionIdleTimeout (s : State) : Host.Outcome State Fault Refusal := .next s.endSession
def execHalt (engine : Nat) (s : State) : Host.Outcome State Fault Refusal := .next (s.debug fun s => s.haltOp engine)
def execBenchResume (engine : Nat) (s : State) : Host.Outcome State Fault Refusal := .next (s.debug fun s => s.resumeOp engine)
def execStep (engine pt : Nat) (s : State) : Host.Outcome State Fault Refusal := .next (s.debug fun s => s.stepOp engine pt)
def execBreakpointSet (engine kind place : Nat) (on : Bool) (s : State) : Host.Outcome State Fault Refusal :=
  .next (s.debug fun s => s.breakOp engine kind place on)
def execBreakpointHit (engine kind place : Nat) (s : State) : Host.Outcome State Fault Refusal := .next (s.breakHit engine kind place)
def execMemRd (address words : Nat) (s : State) : Host.Outcome State Fault Refusal := .next (s.debug fun s => s.memRead address words)
def execMemWr (address : Nat) (words : List Nat) (outcome : Nat) (s : State) : Host.Outcome State Fault Refusal :=
  .next (s.debug fun s => s.memWrite address words outcome)
def execStateRd (engine : Nat) (s : State) : Host.Outcome State Fault Refusal := .next (s.debug fun s => s.stateRead engine)
def execTraceRd (s : State) : Host.Outcome State Fault Refusal := .next (s.debug State.traceRead)
def execSnap (engine : Nat) (s : State) : Host.Outcome State Fault Refusal := .next (s.debug fun s => s.snapOp engine)
def execSnapCapture (s : State) : Host.Outcome State Fault Refusal := .next s.snapCapture
def execSstep (s : State) : Host.Outcome State Fault Refusal := .next (s.debug State.sstep)
def execSrun (s : State) : Host.Outcome State Fault Refusal := .next (s.debug State.srun)

end Sys2Proof.Machine
end

