-- ==== Sys2Proof/Machine/Dispatch.lean ====
section
/-! DEFINITION. Machine/Dispatch.lean: one arm per command. A command that has its meaning is one direct call of it;
a command that has none is refused by name. -/
namespace Sys2Proof.Machine

def exec (i : Instr) (s : State) : Host.Outcome State Fault Refusal :=
  match i with
  -- Register access (R9 to R15, R39)
  | .registerWrite requester address bytes value outcome => Sys2Proof.Machine.execRegisterWrite requester address bytes value outcome s
  -- Servo timing and demodulation
  | .preambleGate x => Sys2Proof.Machine.execPreambleGate x s
  | .samLatched x sam => Sys2Proof.Machine.execSamLatched x sam s
  | .missedSam x => Sys2Proof.Machine.execMissedSam x s
  | .wedgeBoundary x aPre => Sys2Proof.Machine.execWedgeBoundary x aPre s
  | .demodLatch x readers => Sys2Proof.Machine.execDemodLatch x readers s
  -- String control engine, per Fret
  | .lostWedgeRetract x => Sys2Proof.Machine.execLostWedgeRetract x s
  | .controlLawOverrun o => Sys2Proof.Machine.execControlLawOverrun o s
  | .fallbackSwitch x => Sys2Proof.Machine.execFallbackSwitch x s
  | .actuatorOutput x time => Sys2Proof.Machine.execActuatorOutput x time s
  | .couplingStale x sender => Sys2Proof.Machine.execCouplingStale x sender s
  | .settleTimeout x => Sys2Proof.Machine.execSettleTimeout x s
  -- Fret timing
  | .skewAverageEnd x => Sys2Proof.Machine.execSkewAverageEnd x s
  | .remeas mask => Sys2Proof.Machine.execRemeas mask s
  -- Capo unit
  | .capoCtrlArm => Sys2Proof.Machine.execCapoCtrlArm s
  | .capoCtrlDisarm => Sys2Proof.Machine.execCapoCtrlDisarm s
  | .capoReferenceEdge edge => Sys2Proof.Machine.execCapoReferenceEdge edge s
  | .predictedFrameEdge time => Sys2Proof.Machine.execPredictedFrameEdge time s
  | .referenceLost => Sys2Proof.Machine.execReferenceLost s
  | .measureComplete => Sys2Proof.Machine.execMeasureComplete s
  | .capoGeneratorStep offset tracking => Sys2Proof.Machine.execCapoGeneratorStep offset tracking s
  | .capoLock => Sys2Proof.Machine.execCapoLock s
  | .holdoverTimeout => Sys2Proof.Machine.execHoldoverTimeout s
  -- SPE
  | .speStart => Sys2Proof.Machine.execSpeStart s
  | .speStop => Sys2Proof.Machine.execSpeStop s
  | .gatesOffEnd => Sys2Proof.Machine.execGatesOffEnd s
  | .measureFit fit => Sys2Proof.Machine.execMeasureFit fit s
  | .residualHoldEnd => Sys2Proof.Machine.execResidualHoldEnd s
  | .alignEnd => Sys2Proof.Machine.execAlignEnd s
  | .pwmPeriod p => Sys2Proof.Machine.execPwmPeriod p s
  | .skipLimit => Sys2Proof.Machine.execSkipLimit s
  | .skipLimitLift => Sys2Proof.Machine.execSkipLimitLift s
  | .speedLoopUpdate => Sys2Proof.Machine.execSpeedLoopUpdate s
  | .speSetptWrite value => Sys2Proof.Machine.execSpeSetptWrite value s
  | .vmOvervoltage => Sys2Proof.Machine.execVmOvervoltage s
  | .overcurrentTrip time => Sys2Proof.Machine.execOvercurrentTrip time s
  | .ocHoldEnd => Sys2Proof.Machine.execOcHoldEnd s
  | .observerLoss => Sys2Proof.Machine.execObserverLoss s
  | .zeroCrossing inSequence angle mrpm => Sys2Proof.Machine.execZeroCrossing inSequence angle mrpm s
  | .reacqFloat => Sys2Proof.Machine.execReacqFloat s
  | .coastEntry => Sys2Proof.Machine.execCoastEntry s
  | .atSpeed => Sys2Proof.Machine.execAtSpeed s
  | .rcbBlock => Sys2Proof.Machine.execRcbBlock s
  | .rcbConduct => Sys2Proof.Machine.execRcbConduct s
  -- String control engine: loading, retract, shock
  | .load x => Sys2Proof.Machine.execLoad x s
  | .unload x => Sys2Proof.Machine.execUnload x s
  | .retract x => Sys2Proof.Machine.execRetract x s
  | .bankSw x => Sys2Proof.Machine.execBankSw x s
  | .targetPost x target offs => Sys2Proof.Machine.execTargetPost x target offs s
  | .loadTimeout x => Sys2Proof.Machine.execLoadTimeout x s
  | .loopOpen x => Sys2Proof.Machine.execLoopOpen x s
  | .retractRampEnd x => Sys2Proof.Machine.execRetractRampEnd x s
  | .retractVelocityLoop x terminal current vm time => Sys2Proof.Machine.execRetractVelocityLoop x terminal current vm time s
  | .retractPark x => Sys2Proof.Machine.execRetractPark x s
  | .retractHoldEnd x => Sys2Proof.Machine.execRetractHoldEnd x s
  | .shockEvent input level => Sys2Proof.Machine.execShockEvent input level s
  | .shockHoldEnd => Sys2Proof.Machine.execShockHoldEnd s
  -- Servo demodulator commands
  | .acq x => Sys2Proof.Machine.execAcq x s
  | .idle x => Sys2Proof.Machine.execIdle x s
  | .svdFormatWrite x index value => Sys2Proof.Machine.execSvdFormatWrite x index value s
  -- Assist engine and Nut link
  | .assistSlot x gateCycles fretCycles => Sys2Proof.Machine.execAssistSlot x gateCycles fretCycles s
  | .nutReply x reply => Sys2Proof.Machine.execNutReply x reply s
  | .linkFailure x => Sys2Proof.Machine.execLinkFailure x s
  | .hotHeadClear x head => Sys2Proof.Machine.execHotHeadClear x head s
  | .backgroundFrameStart x => Sys2Proof.Machine.execBackgroundFrameStart x s
  | .bgGo x => Sys2Proof.Machine.execBgGo x s
  | .wrArm x on => Sys2Proof.Machine.execWrArm x on s
  | .abortClr x => Sys2Proof.Machine.execAbortClr x s
  | .warmUpComplete x => Sys2Proof.Machine.execWarmUpComplete x s
  | .armLapse x => Sys2Proof.Machine.execArmLapse x s
  | .flyHeightUpdate x => Sys2Proof.Machine.execFlyHeightUpdate x s
  -- Read channel and sector format
  | .readGateOpen x => Sys2Proof.Machine.execReadGateOpen x s
  | .pllLock x => Sys2Proof.Machine.execPllLock x s
  | .syncMarkLatch x start before bits => Sys2Proof.Machine.execSyncMarkLatch x start before bits s
  | .syncWindowClose x => Sys2Proof.Machine.execSyncWindowClose x s
  | .captureEnd x r0 r1 r2 first second => Sys2Proof.Machine.execCaptureEnd x r0 r1 r2 first second s
  | .save x => Sys2Proof.Machine.execSave x s
  | .restore x => Sys2Proof.Machine.execRestore x s
  | .channelSetWrite x n w v => Sys2Proof.Machine.execChannelSetWrite x n w v s
  | .capGo x => Sys2Proof.Machine.execCapGo x s
  | .calCaptureEnd cap => Sys2Proof.Machine.execCalCaptureEnd cap s
  -- Formatter sequencers
  | .routineDispatch x q => Sys2Proof.Machine.execRoutineDispatch x q s
  | .microwordIssue x q pt => Sys2Proof.Machine.execMicrowordIssue x q pt s
  | .reqLoad x q pt => Sys2Proof.Machine.execReqLoad x q pt s
  | .reqDone x q status => Sys2Proof.Machine.execReqDone x q status s
  | .requeue x q => Sys2Proof.Machine.execRequeue x q s
  | .post x q code value => Sys2Proof.Machine.execPost x q code value s
  | .nextsec x q pt => Sys2Proof.Machine.execNextsec x q pt s
  | .rewind x q pt => Sys2Proof.Machine.execRewind x q pt s
  | .capture x arg pt => Sys2Proof.Machine.execCapture x arg pt s
  | .cont x q => Sys2Proof.Machine.execCont x q s
  | .close x => Sys2Proof.Machine.execClose x s
  | .setsel x arg => Sys2Proof.Machine.execSetsel x arg s
  | .start x pt => Sys2Proof.Machine.execStart x pt s
  | .withdraw x => Sys2Proof.Machine.execWithdraw x s
  | .uevt x arg => Sys2Proof.Machine.execUevt x arg s
  | .commit x q => Sys2Proof.Machine.execCommit x q s
  | .yieldWord x q next => Sys2Proof.Machine.execYieldWord x q next s
  | .endRoutine x q => Sys2Proof.Machine.execEndRoutine x q s
  | .resume x q => Sys2Proof.Machine.execResume x q s
  | .drop x q => Sys2Proof.Machine.execDrop x q s
  | .seqInterrupt x q => Sys2Proof.Machine.execSeqInterrupt x q s
  | .sqGo x q => Sys2Proof.Machine.execSqGo x q s
  | .sqStop x q => Sys2Proof.Machine.execSqStop x q s
  | .sqRst x q => Sys2Proof.Machine.execSqRst x q s
  | .doorbell x q => Sys2Proof.Machine.execDoorbell x q s
  | .microwordWrite x q a off v => Sys2Proof.Machine.execMicrowordWrite x q a off v s
  -- Cleaning and the Chest
  | .bandCleanStart record => Sys2Proof.Machine.execBandCleanStart record s
  | .skipAgeTimeout record => Sys2Proof.Machine.execSkipAgeTimeout record s
  | .journalResume => Sys2Proof.Machine.execJournalResume s
  | .chestWriteGrant us => Sys2Proof.Machine.execChestWriteGrant us s
  | .wearGapMove group => Sys2Proof.Machine.execWearGapMove group s
  -- Recovery ladder
  | .ladderRevolution x turn => Sys2Proof.Machine.execLadderRevolution x turn s
  | .parityPass x turn => Sys2Proof.Machine.execParityPass x turn s
  | .ladderResume x => Sys2Proof.Machine.execLadderResume x s
  | .tlerExpiry fseq => Sys2Proof.Machine.execTlerExpiry fseq s
  -- Harp
  | .codewordReady x slot => Sys2Proof.Machine.execCodewordReady x slot s
  | .detectorPassDone x second => Sys2Proof.Machine.execDetectorPassDone x second s
  | .harpDispatch => Sys2Proof.Machine.execHarpDispatch s
  | .laneResult lane out signature => Sys2Proof.Machine.execLaneResult lane out signature s
  | .laneWatchdog lane => Sys2Proof.Machine.execLaneWatchdog lane s
  | .syndromeVerdict lane zero => Sys2Proof.Machine.execSyndromeVerdict lane zero s
  | .selfTestDone lane passed => Sys2Proof.Machine.execSelfTestDone lane passed s
  | .harpRetire lane => Sys2Proof.Machine.execHarpRetire lane s
  | .harpUnretire lane => Sys2Proof.Machine.execHarpUnretire lane s
  -- Write path
  | .writeGateOpen x => Sys2Proof.Machine.execWriteGateOpen x s
  | .sectorWritten x => Sys2Proof.Machine.execSectorWritten x s
  | .encodeDone x good => Sys2Proof.Machine.execEncodeDone x good s
  | .writePathEnable x on => Sys2Proof.Machine.execWritePathEnable x on s
  | .accClr x => Sys2Proof.Machine.execAccClr x s
  | .squeezeVerify x prev bad => Sys2Proof.Machine.execSqueezeVerify x prev bad s
  | .writeBatchIssue record n => Sys2Proof.Machine.execWriteBatchIssue record n s
  | .accumulatorRebuild record => Sys2Proof.Machine.execAccumulatorRebuild record s
  | .reallocate x good => Sys2Proof.Machine.execReallocate x good s
  -- Phovi
  | .phoviJobStart engine => Sys2Proof.Machine.execPhoviJobStart engine s
  | .phoviJobDone engine capsules overrun code => Sys2Proof.Machine.execPhoviJobDone engine capsules overrun code s
  | .jobSuspend engine => Sys2Proof.Machine.execJobSuspend engine s
  | .packTimeout record => Sys2Proof.Machine.execPackTimeout record s
  | .spaceTimeout fseq => Sys2Proof.Machine.execSpaceTimeout fseq s
  | .phoviRetire mask => Sys2Proof.Machine.execPhoviRetire mask s
  | .phoviUnretire mask => Sys2Proof.Machine.execPhoviUnretire mask s
  -- Cabinet
  | .encryptRequest x => Sys2Proof.Machine.execEncryptRequest x s
  | .holdEntryGrant => Sys2Proof.Machine.execHoldEntryGrant s
  | .xtsRequest fseq lba => Sys2Proof.Machine.execXtsRequest fseq lba s
  | .cipherSectorDone core intact => Sys2Proof.Machine.execCipherSectorDone core intact s
  | .generate slot => Sys2Proof.Machine.execGenerate slot s
  | .erase slot => Sys2Proof.Machine.execErase slot s
  | .rekey slot => Sys2Proof.Machine.execRekey slot s
  | .katGo bad => Sys2Proof.Machine.execKatGo bad s
  | .katPeriodic core passed => Sys2Proof.Machine.execKatPeriodic core passed s
  | .rngHealthFail => Sys2Proof.Machine.execRngHealthFail s
  -- Bridge and Chest
  | .writeGrant queue => Sys2Proof.Machine.execWriteGrant queue s
  | .writeTransferEnd fseq ok => Sys2Proof.Machine.execWriteTransferEnd fseq ok s
  | .hostTransferDone fseq lba => Sys2Proof.Machine.execHostTransferDone fseq lba s
  | .readPageSpill fseq lba => Sys2Proof.Machine.execReadPageSpill fseq lba s
  | .chestEntryCommit fseq => Sys2Proof.Machine.execChestEntryCommit fseq s
  | .logEntryCopy => Sys2Proof.Machine.execLogEntryCopy s
  | .bridgeGo => Sys2Proof.Machine.execBridgeGo s
  -- Host I/O commands
  | .commandFetch hqe sqids cids nsids ops => Sys2Proof.Machine.execCommandFetch hqe sqids cids nsids ops s
  | .nvmRead fseq => Sys2Proof.Machine.execNvmRead fseq s
  | .nvmWrite fseq => Sys2Proof.Machine.execNvmWrite fseq s
  | .zoneAppend fseq => Sys2Proof.Machine.execZoneAppend fseq s
  | .flush fseq => Sys2Proof.Machine.execFlush fseq s
  | .compare fseq => Sys2Proof.Machine.execCompare fseq s
  | .verify fseq => Sys2Proof.Machine.execVerify fseq s
  | .writeZeroes fseq => Sys2Proof.Machine.execWriteZeroes fseq s
  | .datasetManagement fseq => Sys2Proof.Machine.execDatasetManagement fseq s
  | .zoneOpen fseq => Sys2Proof.Machine.execZoneOpen fseq s
  | .zoneClose fseq => Sys2Proof.Machine.execZoneClose fseq s
  | .zoneFinish fseq => Sys2Proof.Machine.execZoneFinish fseq s
  | .zoneReset fseq => Sys2Proof.Machine.execZoneReset fseq s
  | .zoneOffline fseq => Sys2Proof.Machine.execZoneOffline fseq s
  | .reportZones fseq => Sys2Proof.Machine.execReportZones fseq s
  | .completionCommit fseq => Sys2Proof.Machine.execCompletionCommit fseq s
  -- Reservations, queues, features, logs
  | .reservationRegister fseq => Sys2Proof.Machine.execReservationRegister fseq s
  | .reservationAcquire fseq => Sys2Proof.Machine.execReservationAcquire fseq s
  | .reservationRelease fseq => Sys2Proof.Machine.execReservationRelease fseq s
  | .reservationReport fseq => Sys2Proof.Machine.execReservationReport fseq s
  | .createIoSq fseq => Sys2Proof.Machine.execCreateIoSq fseq s
  | .createIoCq fseq => Sys2Proof.Machine.execCreateIoCq fseq s
  | .deleteIoSq fseq => Sys2Proof.Machine.execDeleteIoSq fseq s
  | .deleteIoCq fseq => Sys2Proof.Machine.execDeleteIoCq fseq s
  | .nvmeIdentify fseq => Sys2Proof.Machine.execNvmeIdentify fseq s
  | .getLogPage fseq => Sys2Proof.Machine.execGetLogPage fseq s
  | .abort fseq => Sys2Proof.Machine.execAbort fseq s
  | .setFeatures fseq => Sys2Proof.Machine.execSetFeatures fseq s
  | .getFeatures fseq => Sys2Proof.Machine.execGetFeatures fseq s
  | .streamQueueArm fseq => Sys2Proof.Machine.execStreamQueueArm fseq s
  | .streamQueueDisarm fseq => Sys2Proof.Machine.execStreamQueueDisarm fseq s
  | .streamQueueGet fseq => Sys2Proof.Machine.execStreamQueueGet fseq s
  | .streamCapacityGet fseq => Sys2Proof.Machine.execStreamCapacityGet fseq s
  | .telemetryPeriodSet fseq => Sys2Proof.Machine.execTelemetryPeriodSet fseq s
  | .asynchronousEventRequest fseq => Sys2Proof.Machine.execAsynchronousEventRequest fseq s
  | .deviceSelfTest fseq passed => Sys2Proof.Machine.execDeviceSelfTest fseq passed s
  | .securitySend fseq => Sys2Proof.Machine.execSecuritySend fseq s
  | .securityReceive fseq => Sys2Proof.Machine.execSecurityReceive fseq s
  -- Namespaces
  | .namespaceCreate fseq => Sys2Proof.Machine.execNamespaceCreate fseq s
  | .namespaceDelete fseq => Sys2Proof.Machine.execNamespaceDelete fseq s
  | .namespaceAttach fseq => Sys2Proof.Machine.execNamespaceAttach fseq s
  | .namespaceDetach fseq => Sys2Proof.Machine.execNamespaceDetach fseq s
  | .formatNvm fseq => Sys2Proof.Machine.execFormatNvm fseq s
  | .sanitizeCryptoErase fseq => Sys2Proof.Machine.execSanitizeCryptoErase fseq s
  | .slotOpComplete => Sys2Proof.Machine.execSlotOpComplete s
  -- Ports, controllers, NVMe-MI
  | .perstAssert port => Sys2Proof.Machine.execPerstAssert port s
  | .perstDeassert port wake => Sys2Proof.Machine.execPerstDeassert port wake s
  | .linkTrained port speed width => Sys2Proof.Machine.execLinkTrained port speed width s
  | .dlDown port => Sys2Proof.Machine.execDlDown port s
  | .ccEnClear hqe => Sys2Proof.Machine.execCcEnClear hqe s
  | .ccEnSet hqe ams => Sys2Proof.Machine.execCcEnSet hqe ams s
  | .controllerReady hqe => Sys2Proof.Machine.execControllerReady hqe s
  | .functionLevelReset hqe => Sys2Proof.Machine.execFunctionLevelReset hqe s
  | .forceRst hqe => Sys2Proof.Machine.execForceRst hqe s
  | .nvmeMiReadDataStructure kind k wake => Sys2Proof.Machine.execNvmeMiReadDataStructure kind k wake s
  | .nvmSubsystemHealthPoll wake => Sys2Proof.Machine.execNvmSubsystemHealthPoll wake s
  | .controllerHealthPoll k wake => Sys2Proof.Machine.execControllerHealthPoll k wake s
  | .configurationSet id value wake => Sys2Proof.Machine.execConfigurationSet id value wake s
  | .configurationGet id wake => Sys2Proof.Machine.execConfigurationGet id wake s
  | .vpdRead offset n wake => Sys2Proof.Machine.execVpdRead offset n wake s
  | .vpdWrite offset bytes wake => Sys2Proof.Machine.execVpdWrite offset bytes wake s
  | .basicManagementCommand wake => Sys2Proof.Machine.execBasicManagementCommand wake s
  -- Caches and memory integrity
  | .l2MaintGo n => Sys2Proof.Machine.execL2MaintGo n s
  | .l2MaintDone n => Sys2Proof.Machine.execL2MaintDone n s
  | .l2Disable n => Sys2Proof.Machine.execL2Disable n s
  | .disableWalkEnd n writeNs bad => Sys2Proof.Machine.execDisableWalkEnd n writeNs bad s
  | .ratInvalidate n e => Sys2Proof.Machine.execRatInvalidate n e s
  | .bucketLeak m correction => Sys2Proof.Machine.execBucketLeak m correction s
  | .scrubStep m addr result last => Sys2Proof.Machine.execScrubStep m addr result last s
  | .rawrd => Sys2Proof.Machine.execRawrd s
  | .rawwr => Sys2Proof.Machine.execRawwr s
  | .fill m => Sys2Proof.Machine.execFill m s
  | .fillComplete m => Sys2Proof.Machine.execFillComplete m s
  -- Power, modes and emergency retract
  | .powerLossEvent v12 v5 vm time => Sys2Proof.Machine.execPowerLossEvent v12 v5 vm time s
  | .retractStagger x vm => Sys2Proof.Machine.execRetractStagger x vm s
  | .vmRetminRecover vm => Sys2Proof.Machine.execVmRetminRecover vm s
  | .supplyGood p => Sys2Proof.Machine.execSupplyGood p s
  | .vmCharged => Sys2Proof.Machine.execVmCharged s
  | .thermalWake temp p => Sys2Proof.Machine.execThermalWake temp p s
  | .capoActivity p => Sys2Proof.Machine.execCapoActivity p s
  | .rtcAlarm p => Sys2Proof.Machine.execRtcAlarm p s
  | .dormantTimeout => Sys2Proof.Machine.execDormantTimeout s
  | .idleTimeout => Sys2Proof.Machine.execIdleTimeout s
  | .bureauRegate => Sys2Proof.Machine.execBureauRegate s
  | .strlostClr mask => Sys2Proof.Machine.execStrlostClr mask s
  | .domainRequest word value mask => Sys2Proof.Machine.execDomainRequest word value mask s
  | .railUndervoltage reset v12 v5 vm time p => Sys2Proof.Machine.execRailUndervoltage reset v12 v5 vm time p s
  | .railTimeout => Sys2Proof.Machine.execRailTimeout s
  | .mainpwrRetry p => Sys2Proof.Machine.execMainpwrRetry p s
  | .powerDomainFault domain => Sys2Proof.Machine.execPowerDomainFault domain s
  -- Trim, calibration and temperature
  | .pegTick x => Sys2Proof.Machine.execPegTick x s
  | .thermalSample temps hookStep => Sys2Proof.Machine.execThermalSample temps hookStep s
  | .throttleTick => Sys2Proof.Machine.execThrottleTick s
  | .calScheduleDue entry x => Sys2Proof.Machine.execCalScheduleDue entry x s
  | .scriptResume mask => Sys2Proof.Machine.execScriptResume mask s
  | .tdStep x ecs pes => Sys2Proof.Machine.execTdStep x ecs pes s
  | .calAbort => Sys2Proof.Machine.execCalAbort s
  | .calScriptStep mask result => Sys2Proof.Machine.execCalScriptStep mask result s
  -- Bureau cores
  | .coreWatchdog core => Sys2Proof.Machine.execCoreWatchdog core s
  | .machineCheck core => Sys2Proof.Machine.execMachineCheck core s
  | .coreSelfTest core passed => Sys2Proof.Machine.execCoreSelfTest core passed s
  | .burRetire cluster mask => Sys2Proof.Machine.execBurRetire cluster mask s
  | .burUnretire cluster mask => Sys2Proof.Machine.execBurUnretire cluster mask s
  -- Cibor: packets and replies
  | .ciborRequest source packet => Sys2Proof.Machine.execCiborRequest source packet s
  | .ciborSend fseq => Sys2Proof.Machine.execCiborSend fseq s
  | .ciborReceive fseq => Sys2Proof.Machine.execCiborReceive fseq s
  | .replyExpiry source tag => Sys2Proof.Machine.execReplyExpiry source tag s
  | .replyWaitExpiry fseq => Sys2Proof.Machine.execReplyWaitExpiry fseq s
  | .miTunnelledAdmin k nsid op wake => Sys2Proof.Machine.execMiTunnelledAdmin k nsid op wake s
  -- Cibor: opcodes of the configuration, telemetry, calibration and diagnostics classes, by the source and tag of the request
  | .identify source tag => Sys2Proof.Machine.execIdentify source tag s
  | .regRead source tag => Sys2Proof.Machine.execRegRead source tag s
  | .regWrite source tag outcome => Sys2Proof.Machine.execRegWrite source tag outcome s
  | .tableWrite source tag => Sys2Proof.Machine.execTableWrite source tag s
  | .modeSet source tag => Sys2Proof.Machine.execModeSet source tag s
  | .cfgCommit source tag => Sys2Proof.Machine.execCfgCommit source tag s
  | .cfgReadback source tag => Sys2Proof.Machine.execCfgReadback source tag s
  | .allowSet source tag => Sys2Proof.Machine.execAllowSet source tag s
  | .spinStart source tag => Sys2Proof.Machine.execSpinStart source tag s
  | .spinStop source tag => Sys2Proof.Machine.execSpinStop source tag s
  | .capoArm source tag => Sys2Proof.Machine.execCapoArm source tag s
  | .capoDisarm source tag => Sys2Proof.Machine.execCapoDisarm source tag s
  | .headsLoad source tag => Sys2Proof.Machine.execHeadsLoad source tag s
  | .headsUnload source tag => Sys2Proof.Machine.execHeadsUnload source tag s
  | .bankSwitch source tag => Sys2Proof.Machine.execBankSwitch source tag s
  | .mediaFormat source tag => Sys2Proof.Machine.execMediaFormat source tag s
  | .telemSnapshot source tag => Sys2Proof.Machine.execTelemSnapshot source tag s
  | .eventRead source tag => Sys2Proof.Machine.execEventRead source tag s
  | .calRun source tag => Sys2Proof.Machine.execCalRun source tag s
  | .tdSearch source tag => Sys2Proof.Machine.execTdSearch source tag s
  | .laneRetire source tag => Sys2Proof.Machine.execLaneRetire source tag s
  | .laneUnretire source tag => Sys2Proof.Machine.execLaneUnretire source tag s
  | .coreRetire source tag => Sys2Proof.Machine.execCoreRetire source tag s
  | .coreUnretire source tag => Sys2Proof.Machine.execCoreUnretire source tag s
  | .telemetryPeriod words => Sys2Proof.Machine.execTelemetryPeriod words s
  | .configurationStored => Sys2Proof.Machine.execConfigurationStored s
  -- Microcode and extension modules
  | .mcLoad source tag signed base => Sys2Proof.Machine.execMcLoad source tag signed base s
  | .extLoad source tag signed svn size hooks => Sys2Proof.Machine.execExtLoad source tag signed svn size hooks s
  | .extUnload source tag => Sys2Proof.Machine.execExtUnload source tag s
  | .extensionOpcode source tag status payload => Sys2Proof.Machine.execExtensionOpcode source tag status payload s
  | .hookTimeout module hook request => Sys2Proof.Machine.execHookTimeout module hook request s
  -- Life cycle
  | .firmwareImageDownload fseq => Sys2Proof.Machine.execFirmwareImageDownload fseq s
  | .firmwareCommit fseq key signed => Sys2Proof.Machine.execFirmwareCommit fseq key signed s
  | .lcChallenge source tag => Sys2Proof.Machine.execLcChallenge source tag s
  | .lcToken source tag key signed steps => Sys2Proof.Machine.execLcToken source tag key signed steps s
  | .lcState source tag => Sys2Proof.Machine.execLcState source tag s
  | .challengeExpiry => Sys2Proof.Machine.execChallengeExpiry s
  -- The Bench port
  | .bypass => Sys2Proof.Machine.execBypass s
  | .idcode => Sys2Proof.Machine.execIdcode s
  | .samplePreload => Sys2Proof.Machine.execSamplePreload s
  | .extest => Sys2Proof.Machine.execExtest s
  | .clamp => Sys2Proof.Machine.execClamp s
  | .highz => Sys2Proof.Machine.execHighz s
  | .dbg => Sys2Proof.Machine.execDbg s
  | .dbgFrame frame => Sys2Proof.Machine.execDbgFrame frame s
  | .benchChallenge => Sys2Proof.Machine.execBenchChallenge s
  | .benchOpen token key signed request steps => Sys2Proof.Machine.execBenchOpen token key signed request steps s
  | .sessionClose => Sys2Proof.Machine.execSessionClose s
  | .trst => Sys2Proof.Machine.execTrst s
  | .sessionIdleTimeout => Sys2Proof.Machine.execSessionIdleTimeout s
  | .halt engine => Sys2Proof.Machine.execHalt engine s
  | .benchResume engine => Sys2Proof.Machine.execBenchResume engine s
  | .step engine pt => Sys2Proof.Machine.execStep engine pt s
  | .breakpointSet engine kind place on => Sys2Proof.Machine.execBreakpointSet engine kind place on s
  | .breakpointHit engine kind place => Sys2Proof.Machine.execBreakpointHit engine kind place s
  | .memRd address words => Sys2Proof.Machine.execMemRd address words s
  | .memWr address words outcome => Sys2Proof.Machine.execMemWr address words outcome s
  | .stateRd engine => Sys2Proof.Machine.execStateRd engine s
  | .traceRd => Sys2Proof.Machine.execTraceRd s
  | .snap engine => Sys2Proof.Machine.execSnap engine s
  | .snapCapture => Sys2Proof.Machine.execSnapCapture s
  | .sstep => Sys2Proof.Machine.execSstep s
  | .srun => Sys2Proof.Machine.execSrun s

end Sys2Proof.Machine
end

