-- ==== Sys2Proof/Safety.lean ====
section
/-! DEFINITION. Safety.lean: the words that statements about the machine are made of: a command completes with a property of its
next state; what a command may change: register fields, and parts of the state beside the registers; invariants. -/
namespace Sys2Proof.Machine

/-- Command `c` at `s` answers a next state, and `P` holds of it. -/
def Completes (c : Instr) (s : State) (P : State → Prop) : Prop := ∃ t, exec c s = .next t ∧ P t

/-- Every entry of every register field that is not listed in `l` reads in `t` as in `s`; entries are numbered below 2^20. -/
def OnlyEntries (l : List (Reg × Nat)) (s t : State) : Prop := ∀ r j, (r, j % 2 ^ 20) ∉ l → t.rd r j = s.rd r j

/-- No write of these fields waits in a shadow register: true of every field that is not of class S (R10). -/
def NoneWaits (s : State) (rs : List Reg) : Prop := ∀ e ∈ s.shadow, e.reg ∉ rs

/-- The media command with this FSEQ is `c` and may be taken now (R266, R268, R269). -/
def CanTake (s : State) (f : Nat) (c : Cmd) : Prop := s.findCmd f = some c ∧ s.turn c = true

/-- The admin command with this FSEQ is `c`, and it waits (R266). -/
def CanStart (s : State) (f : Nat) (c : Cmd) : Prop := s.findCmd f = some c ∧ c.started = false ∧ c.ready = none

/-- The status that the command with this FSEQ will complete with, once it has one. -/
def Answered (t : State) (f : Nat) : Option NvStatus := (t.findCmd f).bind fun c => c.ready.map (·.1)

/-- The request is done in `t`: the Bureau holds it no more. -/
def RequestGone (t : State) (r : CiborRequest) : Prop := ∀ e ∈ t.bur.requests, e.order ≠ r.order

/-- From `s` the request got this reply in `t`: of a source other than the Bench port the reply waits to be fetched, where no
C1h of `s` waits for one (R384, R387). -/
def Replied (s t : State) (r : CiborRequest) (bytes : List Nat) : Prop :=
  RequestGone t r ∧
  (r.source < 9 → (∀ c ∈ s.host.cmds, c.ready ≠ none) → { source := r.source, tag := r.tag, bytes } ∈ t.bur.replies)

/-- The parts of the state beside the register file and the queue: one for each field of `State`. -/
inductive Part
  | shadow | mem | control | staged | timebase | draws | events | eventSeq | fret | capo | spe | str
  | harp | host | bridge | cab | phv | memory | bur | power | cal | therm | lc | bench
  | out
deriving DecidableEq, Repr

/-- A part is in `t` as in `s`. -/
def Part.same (p : Part) (s t : State) : Prop :=
  match p with
  | .shadow => t.shadow = s.shadow
  | .mem => t.mem = s.mem
  | .control => t.control = s.control
  | .staged => t.staged = s.staged
  | .timebase => t.timebase = s.timebase
  | .draws => t.draws = s.draws
  | .events => t.events = s.events
  | .eventSeq => t.eventSeq = s.eventSeq
  | .fret => t.fret = s.fret
  | .capo => t.capo = s.capo
  | .spe => t.spe = s.spe
  | .str => t.str = s.str
  | .harp => t.harp = s.harp
  | .host => t.host = s.host
  | .bridge => t.bridge = s.bridge
  | .cab => t.cab = s.cab
  | .phv => t.phv = s.phv
  | .memory => t.memory = s.memory
  | .bur => t.bur = s.bur
  | .power => t.power = s.power
  | .cal => t.cal = s.cal
  | .therm => t.therm = s.therm
  | .lc => t.lc = s.lc
  | .bench => t.bench = s.bench
  | .out => t.out = s.out

/-! ### Named lists of register fields, for frames -/

/-- Fields that a row of the Chest may change: totals, life, tokens, the journal. -/
def chestRegs : List Reg :=
  [.CHST_STAT_GOV_ACT, .CHST_STAT_LIFE_WARN, .CHST_STAT_LIFE_END, .CHST_TOKENS_GLOBAL,
  .CHST_JRNL_LIVE, .CHST_LIFE_LIFE, .CHST_LIFE_GROUP, .CHST_TOTLO_ROWS, .CHST_TOTHI_ROWS, .CHST_GWRLO_G, .CHST_GWRHI_G]

/-- Fields that show a sequencer its queue. -/
def sequencerRegs : List Reg :=
  [.SQ_STAT_CBUF, .SQ_STAT_STKD, .SQ_MBOX_CODE, .SQ_MBOX_VALID, .SQ_MBOXD_DATA,
  .SQ_REQ_QUEUED]

/-- Fields that the write inhibit of a String may change. -/
def inhibitRegs : List Reg :=
  [.AEx_STAT_INH, .WRPx_STAT_GATE, .WRPx_STAT_RUN, .WRPx_STAT_CUT, .WRPx_STAT_FIFO,
  .WRPx_CNT1_CUT, .BRG_USE_CELLS]

/-- Fields that a retract of a String may change. -/
def retractRegs : List Reg :=
  inhibitRegs ++ [.SCEx_STAT_STATE, .SCEx_STAT_PVALID, .SCEx_STAT_WINH,
  .SCEx_STAT_RETRACTED, .AEx_STAT_STATE, .RCHx_STAT_SLOTS_FREE, .RCHx_STAT_PENDQ, .RCHx_SLOT_BUSY, .BRG_USE_PAGES,
  .SQ_CNT_DEFERRED, .PWR_STAT_MODE, .PWR_STAT_SUB]

/-- Fields of the stream ledger. -/
def streamRegs : List Reg :=
  [.HQEn_STRM_Q_ARMED, .STRM_STAT_ARMED, .STRM_HARP_REQ, .STRM_HARP_CAP, .STRM_MED_USED,
  .STRM_MED_STREAMS, .BRG_STRM_RSV, .PWR_STAT_MODE, .PWR_STAT_SUB]

/-- Fields that show the key slot selected. -/
def keySlotRegs : List Reg :=
  [.CAB_SLOTSTAT_STATE, .CAB_SLOTSTAT_LOW, .CAB_SLOTSTAT_NSID, .CAB_SLOTSTAT_NSTAG,
  .CAB_GENLO_GEN, .CAB_GENHI_GEN]

/-- Fields of the version store and of the write buffer. -/
def versionRegs : List Reg :=
  [.BRG_VSTORE_FREE, .BRG_DESC_FREE, .CHST_WB_ENTRIES, .CHST_WB_FREE]

/-- Fields that a codeword that fails may change, up to the ladder. -/
def codewordRegs : List Reg :=
  chestRegs ++ sequencerRegs ++ [.SCEx_TGT_SHADOW_PEND, .RCHx_STAT_SLOTS_FREE,
  .RCHx_STAT_PENDQ, .RCHx_CNT1_REDET, .RCHx_SLOT_BUSY, .RLDx_CFG_RETRY_N, .RLDx_CFG_OFF_STEP, .RLDx_CFG_REALLOC_RUNG,
  .RLDx_CFG_STREAM_RUNG, .RLDx_CFG_EXT_GLB, .RLDx_CFG_EXT_ALT, .RLDx_CFG_PAR_REV, .RLDx_EN_RUNG_EN, .RLDx_STAT_ACTIVE,
  .RLDx_STAT_WAITQ, .RLDx_STAT_SPARE_LOW, .RLDx_STAT_TLER_CUT, .RLDx_CNT0_RUNG1, .RLDx_CNT0_RUNG2, .RLDx_CNT1_RUNG3,
  .RLDx_CNT1_RUNG4, .RLDx_CNT2_RUNG5, .RLDx_CNT2_RUNG6, .RLDx_CNT3_RUNG7, .RLDx_CNT3_RUNG8, .RLDx_CNT4_FAIL,
  .RLDx_CNT4_REALLOC, .RLDx_SHADOW_CFG, .RLDx_SHADOW1_EN, .RLDx_LAST_RUNG, .RLDx_LASTLBA0_LBA_LO, .RLDx_LASTLBA1_LBA_HI,
  .BRG_USE_CELLS, .BRG_USE_PAGES, .CHST_STAT_JRNL_WAIT]

/-- Fields that the withdrawal of a request may change. -/
def requestRegs : List Reg :=
  retractRegs ++ chestRegs ++ streamRegs ++ sequencerRegs ++ [.SCEx_TGT_SHADOW_PEND,
  .RLDx_STAT_ACTIVE, .RLDx_STAT_WAITQ, .STRM_STAT_WDRN, .STRM_CNT1_WDRN, .CHST_STAT_JRNL_WAIT, .SQ_STAT_STATE,
  .SQ_STAT_COMMITTED, .SQ_STAT_HANDLER, .SQ_STAT_FCAUSE, .SQ_STAT_FAULT, .SQ_STAT_ABANDON, .SQ_CNT_ABANDONS,
  .PWR_STAT_DEGR, .PWR_STRLOST_LOST, .PWR_DOMREQ_ON, .PWR_DOMSTAT_ON]

/-- Fields that a lane going out of service may change. -/
def laneRegs : List Reg :=
  chestRegs ++ streamRegs ++ sequencerRegs ++ [.RCHx_STAT_SLOTS_FREE, .RCHx_STAT_PENDQ,
  .RCHx_SLOT_BUSY, .HARP_STAT_INSVC, .HARP_STAT_AVAIL, .HARP_STAT_BELOW_FLOOR, .HARP_STAT_LANE_RETIRED,
  .HARP_RETIRED_LANES, .HARP_WDRAWN_LANES, .HARP_LOG_LANE, .HARP_LOG_CAUSE, .HARP_LOGTIME_TIME, .RLDx_STAT_ACTIVE,
  .RLDx_STAT_WAITQ, .STRM_STAT_WDRN, .STRM_CNT1_WDRN, .BRG_USE_CELLS, .BRG_USE_PAGES, .CHST_STAT_JRNL_WAIT,
  .PWR_STAT_DEGR]

/-- Fields that a life-cycle transition may change. -/
def transitionRegs : List Reg :=
  retractRegs ++ chestRegs ++ streamRegs ++ sequencerRegs ++ keySlotRegs ++ versionRegs
  ++ [.SPE_STAT_STATE, .SPE_STAT_ATSPD, .SPE_STAT_TICKPRED, .SCEx_TGT_SHADOW_PEND, .BRG_STAT_MAP_RSV,
  .CHST_STAT_JRNL_WAIT, .CAB_EPOCH_KEK_EPOCH, .PHV_STAT_SLOTS_FREE, .PHV_STAT_QUEUED, .PHV_ENG_STATE, .MI_WLOST_RANGES,
  .LC_STAT_STATE, .LC_STAT_RETCNT, .LC_STAT_REFIELD, .LC_STAT_DENIED, .LC_STAT_PEND, .LC_VAR_VARIANT, .LC_VAR_STEPPING,
  .LC_PCIID_VID, .LC_PCIID_SSVID, .LC_DEVID_ID, .LC_KEYH_HASH, .BNCH_STAT_SESSION, .BNCH_STAT_HALTED]

/-! ### Frames -/

/-- What a command may change: every field of the register blocks `blks`, the register fields `regs`, the parts `parts`. -/
structure Footprint where
  blks : List Blk
  regs : List Reg
  parts : List Part

/-- `t` differs from `s` in nothing but what the footprint names: every other register field reads as before, every other part of
the state is as before, and so is the queue. -/
def Within (w : Footprint) (s t : State) : Prop :=
  (∀ r j, r ∉ w.regs → r.row.blk ∉ w.blks → t.rd r j = s.rd r j) ∧ (∀ p, p ∉ w.parts → p.same s t) ∧ t.pending = s.pending

/-- A command, whatever its state, changes nothing but what the footprint names. -/
def ChangesOnly (c : Instr) (w : Footprint) : Prop := ∀ s t, exec c s = .next t → Within w s t

/-- No fuse is unblown: a bit of the life-cycle stage that is blown in `s` is blown in `t`, and so is SCRAP (R459). -/
def FusesKept (s t : State) : Prop :=
  (∀ k, s.lc.stage.testBit k = true → t.lc.stage.testBit k = true) ∧ (s.lc.scrap = true → t.lc.scrap = true)

/-- The memory has its canonical form: addresses strictly rising, and no byte listed that is zero. -/
def MemoryCanonical (s : State) : Prop := Memory.wf s.mem

end Sys2Proof.Machine
end

