-- ==== Sys2Proof/Certificates/Slice0/Obligations.lean ====
section
/-! DEFINITION. Certificates/Slice0/Obligations.lean: the statements for the provers. -/
open Sys2Proof Sys2Proof.Machine

/-- A step takes the command at the front of the queue and is its meaning on the state with the queue's rest (log entry 1). -/
def Obligations.StepRunsTheFrontCommand : Prop :=
  ∀ (s : State) (c : Instr) (rest : List Instr), step { s with pending := c :: rest } = exec c { s with pending := rest }

/-- With no command waiting the block idles: the model's choice (log entry 1). -/
def Obligations.IdleOnEmptyQueue : Prop := ∀ s : State, s.pending = [] → step s = .next s

/-- Every command runs in every state: none ends in a fault or a refusal; and a step leaves the queue's rest as it was. -/
def Obligations.EveryCommandRuns : Prop :=
  (∀ (c : Instr) (s : State), ∃ t, exec c s = .next t) ∧
  (∀ (s t : State) (c : Instr) (rest : List Instr), s.pending = c :: rest → step s = .next t → t.pending = rest)

/-- Every step keeps the canonical form of memory: addresses strictly rising, no byte listed that reads as an unlisted one. -/
def Obligations.MemoryStaysCanonical : Prop := ∀ s t : State, MemoryCanonical s → step s = .next t → MemoryCanonical t

/-- Memory has its canonical form at reset: the base of `MemoryStaysCanonical`. -/
def Obligations.ResetMemoryCanonical : Prop := MemoryCanonical State.reset

/-- No fuse of the life-cycle stage is ever unblown, nor SCRAP, whatever command runs (R458). -/
def Obligations.FusesStayBlown : Prop := ∀ s t : State, step s = .next t → FusesKept s t

/-- The one operation that writes a register field: the entry reads the value cut to the field's width, every other entry of
every field reads as before, and no part of the state beside the registers changes. -/
def Obligations.RegisterReadsBack : Prop :=
  ∀ (s : State) (r : Reg) (v i : Nat),
    (s.wr r v i).rd r i = v % 2 ^ r.row.width ∧ OnlyEntries [(r, i % 2 ^ 20)] s (s.wr r v i) ∧ ∀ p : Part, p.same s (s.wr r v i)

/-- REGISTER_WRITE: memory takes its bytes and keeps every other (R41); a register takes aligned 32-bit accesses alone, an
address at which nothing stands none: each other access gets an error response, of which the first is captured (R39); an
L field takes its value at once and a K field of a running block keeps its own (R9). -/
def Obligations.RegisterWriteEffects : Prop :=
  (∀ (s : State) (req a n v o : Nat) (m : MemRegion), s.target a = .memory m → m ≠ .rom → m ≠ .nor →
    s.accessError (.memory m) a = none → s.absent (.memory m) = false → 1 ≤ n → n ≤ 8 → Memory.wf s.mem →
    Completes (.registerWrite req a n v o) s fun t =>
      (∀ k, k < n → (memFind t.mem (a + k)).toNat = v / 256 ^ k % 256) ∧
      (∀ b, b < a ∨ a + n ≤ b → memFind t.mem b = memFind s.mem b)) ∧
  (∀ (s : State) (req a n v o : Nat) (b : Blk) (inst off : Nat), s.target a = .reg b inst off → n ≠ 4 →
    s.rd .FAB_ERR_STAT_ERR = 0 → (∀ r ∈ s.bur.requests, r.started = false) →
    Completes (.registerWrite req a n v o) s fun t =>
      t.rd .FAB_ERR_STAT_ERR = 1 ∧ t.rd .FAB_ERR_STAT_KIND = 2 ∧ t.rd .FAB_ERR_ADDR_ADDR_LO = a % 2 ^ 32 ∧
      t.rd .FAB_ERR_SRC_REQ = req % 128 ∧ t.rd .FAB_ERR_SRC_WR = 1 ∧ t.out = .errorResponse req a :: s.out ∧
      OnlyEntries [(.FAB_ERR_STAT_ERR, 0), (.FAB_ERR_STAT_KIND, 0), (.FAB_ERR_ADDR_ADDR_LO, 0), (.FAB_ERR_SRC_ADDR_HI, 0), (.FAB_ERR_SRC_REQ, 0), (.FAB_ERR_SRC_WR, 0)] s t) ∧
  (∀ (s : State) (req a n v o : Nat), s.target a = .unmapped → s.rd .FAB_ERR_STAT_ERR = 1 → (∀ r ∈ s.bur.requests, r.started = false) →
    Completes (.registerWrite req a n v o) s fun t => t.rd .FAB_ERR_STAT_OVF = 1 ∧ OnlyEntries [(.FAB_ERR_STAT_OVF, 0)] s t) ∧
  (∀ (s : State) (req v o : Nat), (∀ r ∈ s.bur.requests, r.started = false) →
    Completes (.registerWrite req 0xF001500004 4 v o) s fun t =>
      t.rd .BNCH_CFG_IDLE_MIN = (if s.rd .BNCH_STAT_SESSION = 0 then v % 4096 else s.rd .BNCH_CFG_IDLE_MIN) ∧ OnlyEntries [(.BNCH_CFG_IDLE_MIN, 0)] s t)

/-- ATSPD is the condition that ARM tests, and it is clear in every state other than RUN: every step keeps that, and it holds at
reset (R87). -/
def Obligations.AtSpeedInRunAlone : Prop :=
  (∀ s t : State, (s.rd .SPE_STAT_STATE ≠ 5 → s.rd .SPE_STAT_ATSPD = 0) → step s = .next t →
    (t.rd .SPE_STAT_STATE ≠ 5 → t.rd .SPE_STAT_ATSPD = 0)) ∧
  (State.reset.rd .SPE_STAT_STATE ≠ 5 ∧ State.reset.rd .SPE_STAT_ATSPD = 0) ∧
  (∀ s : State, s.rd .CAPO_STAT_STATE = 0 → s.rd .SPE_STAT_ATSPD = 0 → s.capoArm = (.notReady, s) ∧ exec .capoCtrlArm s = .next s)

/-- Opcodes below 0x8000 that the table does not list are rejected with BAD_OPCODE; those from 0x8000 belong to extension
modules (R392). -/
def Obligations.UnlistedOpcodesRejected : Prop :=
  (∀ (s : State) (source : Nat) (bs : List Nat), s.headerGood source bs = true → leField bs 0 2 < 0x8000 →
    leField bs 0 2 ∉ [0x0100, 0x0110, 0x0111, 0x0112, 0x0120, 0x0130, 0x0131, 0x0132, 0x0A00, 0x0A01, 0x0A10, 0x0A11, 0x0B00, 0x0B01,
      0x0B02, 0x0C00, 0x1000, 0x1001, 0x2000, 0x2001, 0x3000, 0x3010, 0x3011, 0x4000, 0x4001, 0x4002, 0x5000, 0x5001, 0x5010, 0x5011] →
    s.ciborArrive source bs = (.badOpcode, s)) ∧
  (∀ (s : State) (source : Nat) (bs : List Nat), s.headerGood source bs = true → 0x8000 ≤ leField bs 0 2 → bs.getD 2 0 ≤ 5 →
    (s.ciborArrive source bs).1 ≠ .badOpcode)

/-- Each String's Peg block has PEGx_Tn at 8n and PEGx_Vn at 8n + 4, with the fields, access, change class and reset of
CAL_PEG_Tn and CAL_PEG_Vn (R455). -/
def Obligations.PegBlockLayout : Prop :=
  ∀ n, n < 12 →
    fieldsAt .peg (8 * n) = [(Reg.PEGx_T_TARGET.row, n)] ∧ fieldsAt .peg (8 * n + 4) = [(Reg.PEGx_V_VALUE.row, n)] ∧
    fieldsAt .cal (0x8000 + 8 * n) = [(Reg.CAL_PEG_T_TARGET.row, n)] ∧ fieldsAt .cal (0x8004 + 8 * n) = [(Reg.CAL_PEG_V_VALUE.row, n)] ∧
    (let a := Reg.PEGx_T_TARGET.row; let b := Reg.CAL_PEG_T_TARGET.row
     (a.lo, a.width, a.access, a.cls, a.reset) = (b.lo, b.width, b.access, b.cls, b.reset)) ∧
    (let a := Reg.PEGx_V_VALUE.row; let b := Reg.CAL_PEG_V_VALUE.row
     (a.lo, a.width, a.access, a.cls, a.reset) = (b.lo, b.width, b.access, b.cls, b.reset))

/-- What the commands of a wedge do where they act: the servo gate and the write gate at the preamble, the pre-amplitude and
the step SEARCH to CONFIRM at a SAM, the counts at a missed one, the boundary, the latch (R113 to R128). -/
def Obligations.ServoTimingEffects : Prop :=
  (∀ (s : State) (x : Str), s.present x = true → 2 ≤ s.rd .SVDx_STAT_SYNC_STATE x.ix →
    Completes (.preambleGate x) s fun t =>
      ((s.str.get x).wrp.open' = none → (t.str.get x).svd.servoGate = true) ∧
      (∀ a, (s.str.get x).wrp.open' = some a → t.rd .WRPx_STAT_GATE x.ix = 0)) ∧
  (∀ (s : State) (x : Str) (e : SamEvent) (d : SamIn) (time : Nat) (later : List Nat), s.present x = true →
    e.readers[s.servoReader x (s.aeHead x)]? = some d → s.rd .SVDx_STAT_SYNC_STATE x.ix = 1 →
    NoneWaits s [.SVDx_PREAMP_A_PRE, .SVDx_STAT_SYNC_STATE] → s.samTimes x d none = time :: later →
    Completes (.samLatched x e) s fun t => t.rd .SVDx_PREAMP_A_PRE x.ix = min 65535 d.aPre ∧
      ∀ n, ((s.at time).wr .SVDx_PREAMP_A_PRE (min 65535 d.aPre) x.ix).acceptedNumber x d = some n →
        t.rd .SVDx_STAT_SYNC_STATE x.ix = 2 ∧ t.rd .SVDx_STAT_WEDGE x.ix = n % 512) ∧
  (∀ (s : State) (x : Str), s.present x = true → 2 ≤ s.rd .SVDx_STAT_SYNC_STATE x.ix → (s.str.get x).svd.haveSam = true →
    NoneWaits s [.SVDx_CNT_MISSED, .SVDx_STAT_SYNC_STATE] → Completes (.missedSam x) s fun t =>
      t.rd .SVDx_CNT_MISSED x.ix = min 65535 (s.rd .SVDx_CNT_MISSED x.ix + 1) ∧
      (s.rd .SVDx_STAT_SYNC_STATE x.ix = 2 → t.rd .SVDx_STAT_SYNC_STATE x.ix = 1)) ∧
  (∀ (s : State) (x : Str) (aPre : List Nat), s.present x = true → s.fretRuns x = true →
    Completes (.wedgeBoundary x aPre) s fun t => t.rd .SVDx_PREAMP_A_PRE x.ix =
      if (s.str.get x).svd.samMeasured then s.rd .SVDx_PREAMP_A_PRE x.ix
      else min 65535 (aPre.getD (s.servoReader x (s.str.get x).svd.windowHead) 0)) ∧
  (∀ (s : State) (x : Str) (readers : List DemodIn), s.present x = true → s.fretRuns x = true → (s.str.get x).svd.samMeasured = false →
    Completes (.demodLatch x readers) s fun t => t.rd .SVDx_STAT_LAST_OK x.ix = 0 ∧ t.rd .SVDx_STAT_LAST_CAUSE x.ix = 1)

/-- What the control engine's events do where they act: retract on the fifth lost wedge, the overrun counter, the fallback
table, the accepted output, stale coupling, the settle limit (R95 to R109). -/
def Obligations.ControlEngineEffects : Prop :=
  (∀ (s : State) (x : Str), s.present x = true → 2 ≤ s.sceState x → s.sceState x ≤ 4 → s.rd .SCEx_STAT_LOSTCNT x.ix = 5 →
    Completes (.lostWedgeRetract x) s fun t => t.rd .SCEx_STAT_STATE x.ix = 5) ∧
  (∀ (s : State) (o : Overrun), s.present o.x = true → 2 ≤ s.sceState o.x → s.sceState o.x ≤ 4 →
    (s.str.get o.x).sce.overran = false → s.optionalTasks o.x ≠ [] →
    Completes (.controlLawOverrun o) s fun t => t.rd .SCEx_STAT_OVR o.x.ix = 1 ∧
      t.rd .SCEx_STAT_OVRCNT o.x.ix = min 3 (s.rd .SCEx_STAT_OVRCNT o.x.ix + 1) ∧
      (1 ≤ s.rd .SCEx_STAT_OVRCNT o.x.ix → t.rd .SCEx_STAT_WINH o.x.ix = 1)) ∧
  (∀ (s : State) (x : Str), s.present x = true → s.rd .SCEx_STAT_OVRCNT x.ix = 3 → s.rd .SCEx_STAT_FALLBACK x.ix = 0 →
    s.sceState x ≠ 5 → Completes (.fallbackSwitch x) s fun t =>
      if s.rd .SCEx_STAT_LOSTCNT x.ix = 5 then t.rd .SCEx_STAT_FB_PEND x.ix = 1
      else t.rd .SCEx_STAT_FALLBACK x.ix = 1 ∧ t.rd .SCEx_STAT_FAULT x.ix = 1 ∧ t.out = .irq "SCE fault" x.num :: s.out) ∧
  (∀ (s : State) (x : Str) (time : Nat), s.present x = true → time = (s.str.get x).svd.lastSam + 4000 → 2 ≤ s.sceState x →
    s.sceState x ≤ 4 → s.rd .SCEx_STAT_LOSTCNT x.ix ≠ 5 → (s.str.get x).sce.overran = false →
    Completes (.actuatorOutput x time) s fun t => t.rd .SCEx_STAT_OVRCNT x.ix = 0) ∧
  (∀ (s : State) (x y : Str), s.present x = true → s.present y = true → 2 ≤ (s.str.get x).sce.quiet.get y →
    Completes (.couplingStale x y) s fun t => (t.rd .SCEx_STAT_CPL_STALE x.ix).testBit y.num = true ∧ (t.str.get x).sce.taken.get y = []) ∧
  (∀ (s : State) (x : Str), s.present x = true → s.sceState x = 3 → s.rd .SCEx_RET_SETTLE_MAX x.ix ≤ (s.str.get x).sce.settleFrets →
    Completes (.settleTimeout x) s fun t => t.rd .SCEx_STAT_SEEK_TO x.ix = 1)

/-- The end of a skew average of 64 revolutions, and REMEAS (R51 to R54). -/
def Obligations.FretTimingEffects : Prop :=
  (∀ (s : State) (x : Str), s.present x = true → 64 ≤ (s.str.get x).skew.revs → s.synced x = true →
    Completes (.skewAverageEnd x) s fun t => (t.rd .FRET_STAT_VALID 0).testBit x.num = true ∧
      t.rd .FRET_SKEW_WEDGE x.num * 65536 + t.rd .FRET_SKEW_FRAC x.num =
        (((s.str.get x).skew.base + roundDiv (s.str.get x).skew.sum 64) % 31457280).toNat) ∧
  (∀ (s : State) (mask : Nat) (x : Str), mask.testBit x.num = true → s.present x = true →
    Completes (.remeas mask) s fun t => (t.rd .FRET_STAT_VALID 0).testBit x.num = false)

/-- What Capo's commands and events do where they act (R56 to R64, R497, R504). -/
def Obligations.CapoEffects : Prop :=
  (∀ s : State, s.rd .CAPO_STAT_STATE = 0 → s.rd .SPE_STAT_ATSPD = 1 → s.rd .CAPO_CTRL_SRC < 2 →
    (wedgesPerFrame s.capoM s.capoN s.capoFdiv).isSome = true → Completes .capoCtrlArm s fun t =>
      t.rd .CAPO_STAT_STATE = 1 ∧ t.rd .CAPO_FRAMECNT_COUNT = 0 ∧ t.rd .CAPO_GLITCHCNT_COUNT = 0) ∧
  (∀ s : State, s.rd .CAPO_STAT_STATE ≠ 0 → Completes .capoCtrlDisarm s fun t =>
      t.rd .CAPO_STAT_STATE = 0 ∧ t.rd .CAPO_STAT_SLEW = 0) ∧
  (∀ (s : State) (e : InputEdge), s.rd .CAPO_CTRL_SRC = boolNat e.ain → s.isSet .CAPO_CTRL_EDGE = decide (e.after < e.before) →
    s.capoCrosses e.ain e.before e.after = true → s.capo.haveEdge = false → s.capo.framed = false →
    s.rd .CAPO_STAT_STATE = 1 → NoneWaits s [.CAPO_FRAMECNT_COUNT] →
    Completes (.capoReferenceEdge e) s fun t => t.rd .CAPO_FRAMECNT_COUNT = (s.rd .CAPO_FRAMECNT_COUNT + 1) % 2 ^ 32) ∧
  (∀ s : State, s.rd .CAPO_STAT_STATE ≠ 0 → s.rd .CAPO_STAT_STATE ≠ 4 → s.capo.haveEdge = true → s.capo.refPeriod ≠ 0 →
    s.capoFdiv * (s.capo.predictedFrames + 1) - s.capo.frameRef ≤ 4 →
    Completes (.predictedFrameEdge (s.capo.lastEdge + (s.capoFdiv * (s.capo.predictedFrames + 1) - s.capo.frameRef) * s.capo.refPeriod)) s fun t =>
      t.rd .CAPO_FRAMECNT_COUNT = (s.rd .CAPO_FRAMECNT_COUNT + 1) % 2 ^ 32) ∧
  (∀ s : State, 1 ≤ s.rd .CAPO_STAT_STATE → s.rd .CAPO_STAT_STATE ≤ 3 → s.capo.haveEdge = true → s.capo.refPeriod ≠ 0 →
    Completes .referenceLost s fun t => t.rd .CAPO_STAT_LOSS = 1 ∧ t.capo.haveEdge = false ∧
      t.rd .CAPO_STAT_STATE = if s.rd .CAPO_STAT_STATE = 1 then 1 else 4) ∧
  (∀ s : State, s.rd .CAPO_STAT_STATE = 1 → 4 ≤ s.capo.measCount → 8000000 ≤ s.capo.measSum →
    Completes .measureComplete s fun t => 
      if targetInRange (targetUhz s.capo.measCount s.capo.measSum s.capoM s.capoN) = true then
        t.rd .CAPO_STAT_STATE = 2 ∧ t.rd .CAPO_TARGET_UHZ = targetUhz s.capo.measCount s.capo.measSum s.capoM s.capoN % 2 ^ 32
      else t.rd .CAPO_STAT_STATE = 1 ∧ t.rd .CAPO_STAT_RANGE = 1) ∧
  (∀ (s : State) (offset tracking : Int), s.rd .CAPO_STAT_STATE = 1 → s.capo.coasting = true →
    Completes (.capoGeneratorStep offset tracking) s fun t => (t.capo.v, t.capo.a) = generatorCoast s.capo.v s.capo.a) ∧
  (∀ s : State, s.rd .CAPO_STAT_STATE = 2 → s.capo.phaseStage = true → 8 ≤ s.capo.lockFrames →
    Completes .capoLock s fun t => t.rd .CAPO_STAT_STATE = 3) ∧
  (∀ s : State, s.rd .CAPO_STAT_STATE = 4 → Completes .holdoverTimeout s fun t =>
    t.rd .CAPO_STAT_STATE = 1 ∧ t.capo.measCount = 0 ∧ t.capo.periods = [])

/-- What the spindle's commands and events do where they act, a clause or more for each (R65 to R89). -/
def Obligations.SpindleEffects : Prop :=
  (∀ s : State, s.rd .SPE_STAT_STATE = 0 → s.spe.vmCharged = true → s.rd .THR_STAT_SHUT = 0 →
    1 ≤ s.rd .SPE_MOTOR_POLEPAIRS → s.rd .SPE_MOTOR_POLEPAIRS ≤ 8 → 32 ∉ s.bench.halted →
    Completes .speStart s fun t => t.rd .SPE_STAT_STATE = 1 ∧ t.spe.bridge = .off) ∧
  (∀ s : State, s.rd .SPE_STAT_STATE ≠ 0 → s.rd .SPE_STAT_STATE ≠ 9 → s.rd .SPE_STAT_STATE ≠ 10 → (Str.all.any s.loaded) = false →
    s.rd .SPE_CTRL_STOPMODE = 0 → Completes .speStop s fun t => t.rd .SPE_STAT_STATE = 0) ∧
  (∀ s : State, s.rd .SPE_STAT_STATE = 1 → s.spe.residHold = false →
    Completes .gatesOffEnd s fun t => t.spe.sampling = true) ∧
  (∀ (s : State) (f : FitIn), s.rd .SPE_STAT_STATE = 1 → s.spe.sampling = true → 20000 ≤ f.e → f.residual ≤ 25 →
    60000 ≤ f.mrpm.natAbs → (600000 ≤ f.mrpm → s.rd .SPE_CTRL_CATCH_EN = 0) →
    Completes (.measureFit f) s fun t => t.rd .SPE_STAT_STATE = 2 ∧ t.rd .SPE_STAT_DIR = boolNat (decide (f.mrpm < 0)) ∧
      t.spe.rejects = 0 ∧ t.spe.locked = true) ∧
  (∀ s : State, s.rd .SPE_STAT_STATE = 1 → s.spe.residHold = true →
    Completes .residualHoldEnd s fun t => t.rd .SPE_STAT_STATE = 1 ∧ t.spe.residHold = false ∧ t.spe.bridge = .off) ∧
  (∀ s : State, s.rd .SPE_STAT_STATE = 3 → Completes .alignEnd s fun t => t.rd .SPE_STAT_STATE = 4 ∧ t.spe.olSpeed = 0) ∧
  (∀ (s : State) (p : PwmIn), s.rd .SPE_STAT_STATE = 7 → p.tick = none → 60000 ≤ p.mrpm →
    Completes (.pwmPeriod p) s fun t => t.rd .SPE_SPEED_MRPM = ofSigned 32 p.mrpm) ∧
  (∀ s : State, 4 ≤ s.spe.skips → Completes .skipLimit s fun t => t.rd .SPE_STAT_SKIP_LIM = 1) ∧
  (∀ s : State, 16 ≤ s.spe.goods → Completes .skipLimitLift s fun t => t.rd .SPE_STAT_SKIP_LIM = 0) ∧
  (∀ s : State, s.rd .SPE_STAT_STATE = 5 → NoneWaits s [.SPE_STAT_STATE] → Completes .speedLoopUpdate s fun t =>
    t.shadow = s.shadow.filter fun e => !(e.reg.row.blk = .spe && e.idx / 65536 = 0)) ∧
  (∀ (s : State) (v : Nat), 52800 ≤ v % 65536 → v % 65536 ≤ 62400 → Completes (.speSetptWrite v) s fun t =>
    t.coming .SPE_SETPT_RPM 0 = v % 65536 ∧ (s.rd .SPE_STAT_STATE = 0 → t.rd .SPE_SETPT_RPM = v % 65536)) ∧
  (∀ s : State, Completes .vmOvervoltage s fun t => t.spe.clamp = true ∧
    (s.spe.excursion = false → t.rd .SPE_STAT_REGEN_CLAMP = 1)) ∧
  (∀ (s : State) (time : Nat), Completes (.overcurrentTrip time) s fun t => t.rd .SPE_STAT_OC_TRIP = 1 ∧
    (2 ≤ (s.spe.ocTrips.filter fun u => decide (time < u + 800000000)).length → s.rd .SPE_STAT_STATE ≠ 0 → s.rd .SPE_STAT_STATE ≠ 10 →
      s.mode ≠ 2 → t.rd .SPE_STAT_STATE = 10) ∧
    ((s.spe.ocTrips.filter fun u => decide (time < u + 800000000)).length < 2 → s.rd .SPE_STAT_STATE = 5 → t.rd .SPE_STAT_STATE = 6)) ∧
  (∀ s : State, Completes .ocHoldEnd s fun t => t.spe.ocHold = false) ∧
  (∀ s : State, 3 ≤ s.spe.lossRun ∨ 3 ≤ s.spe.lossEmf → s.rd .SPE_STAT_STATE = 5 →
    Completes .observerLoss s fun t => t.rd .SPE_STAT_STATE = 6 ∧ t.spe.locked = false ∧ t.rd .SPE_STAT_ATSPD = 0) ∧
  (∀ (s : State) (angle : Nat) (mrpm : Int), s.rd .SPE_STAT_STATE = 6 → s.spe.catching = none → s.spe.crossings = 1 →
    Completes (.zeroCrossing true angle mrpm) s fun t => t.rd .SPE_STAT_STATE = 5 ∧ t.rd .SPE_STAT_REACQ_OK = 1 ∧
      t.rd .SPE_SPEED_MRPM = ofSigned 32 mrpm ∧ t.spe.locked = true) ∧
  (∀ s : State, s.rd .SPE_STAT_STATE = 6 → Completes .reacqFloat s fun t =>
    t.spe.floated = true ∧ t.spe.bridge = .off ∧ t.spe.iqCmd = 0) ∧
  (∀ s : State, s.rd .SPE_STAT_STATE = 6 → Completes .coastEntry s fun t =>
    t.rd .SPE_STAT_STATE = 7 ∧ t.rd .SPE_STAT_OBS_LOSS = 1) ∧
  (∀ s : State, s.rd .SPE_STAT_STATE = 5 → s.withinTol = true → Completes .atSpeed s fun t =>
    t.rd .SPE_STAT_ATSPD = 1 ∧ t.spe.releasing = true) ∧
  (∀ s : State, Completes .rcbBlock s fun t => t.spe.rcbBlocking = true) ∧
  (∀ s : State, s.rd .SPE_STAT_STATE ≠ 9 → Completes .rcbConduct s fun t => t.spe.rcbBlocking = false)

/-- LOAD, UNLOAD, RETRACT, BANKSW, a posted target, the load timeout, LOOP_OPEN, the steps of a retract and shock events
(R99, R108 to R112, R434). -/
def Obligations.LoadAndRetractEffects : Prop :=
  (∀ (s : State) (x : Str), s.present x = true → s.rd .SCEx_STAT_STATE x.ix = 0 → s.rd .SPE_STAT_ATSPD = 1 →
    s.eff .SCEx_HEADS_HEADS x.ix ≠ 0 → s.tableValid x (s.rd .SCEx_STAT_ACTBANK x.ix) = true → s.tableValid x 2 = true →
    Completes (.load x) s fun t => t.rd .SCEx_STAT_STATE x.ix = 1 ∧ t.rd .SCEx_STAT_LOOP_OPEN x.ix = 0 ∧
      t.rd .SCEx_STAT_LOSTCNT x.ix = 0 ∧ t.rd .SCEx_STAT_OVRCNT x.ix = 0 ∧ t.rd .SCEx_LOSTTOT_COUNT x.ix = 0) ∧
  (∀ (s : State) (x : Str), s.present x = true → 1 ≤ s.rd .SCEx_STAT_STATE x.ix → s.rd .SCEx_STAT_STATE x.ix ≤ 4 →
    Completes (.unload x) s fun t => t.rd .SCEx_STAT_STATE x.ix = 5) ∧
  (∀ (s : State) (x : Str), s.present x = true → 1 ≤ s.rd .SCEx_STAT_STATE x.ix → s.rd .SCEx_STAT_STATE x.ix ≤ 4 →
    Completes (.retract x) s fun t => t.rd .SCEx_STAT_STATE x.ix = 5) ∧
  (∀ (s : State) (x : Str), s.present x = true → s.rd .SCEx_STAT_LOOP_OPEN x.ix = 1 → s.rd .SCEx_STAT_ACTBANK x.ix ≤ 1 →
    s.tableValid x (1 - s.rd .SCEx_STAT_ACTBANK x.ix) = true →
    Completes (.bankSw x) s fun t => t.rd .SCEx_STAT_ACTBANK x.ix = 1 - s.rd .SCEx_STAT_ACTBANK x.ix ∧
      t.rd .SCEx_STAT_FALLBACK x.ix = 0 ∧ t.rd .SCEx_STAT_FB_PEND x.ix = 0) ∧
  (∀ (s : State) (x : Str) (v : Nat), s.present x = true → Completes (.targetPost x (some v) none) s fun t =>
    t.rd .SCEx_TGT_SHADOW_PEND x.ix = 1 ∧ t.coming .SCEx_TARGET_TRACK x.ix = v % 2 ^ 24 ∧
    t.coming .SCEx_TARGET_HEAD x.ix = v / 2 ^ 24 % 8) ∧
  (∀ (s : State) (x : Str), s.present x = true → s.rd .SCEx_STAT_STATE x.ix = 1 → (s.str.get x).health.loadFails < 2 →
    Completes (.loadTimeout x) s fun t => t.rd .SCEx_STAT_STATE x.ix = 5 ∧ t.rd .SCEx_STAT_LOAD_FAIL x.ix = 1) ∧
  (∀ (s : State) (x : Str), s.present x = true → s.rd .SCEx_STAT_STATE x.ix = 0 ∨ s.rd .SCEx_STAT_STATE x.ix = 6 →
    Completes (.loopOpen x) s fun t => t.rd .SCEx_STAT_LOOP_OPEN x.ix = 1) ∧
  (∀ (s : State) (x : Str), s.present x = true → s.rd .SCEx_STAT_STATE x.ix = 5 → (s.str.get x).sce.step = .ramp →
    8 ≤ (s.str.get x).sce.rampFrets → (s.str.get x).sce.emergency = false →
    Completes (.retractRampEnd x) s fun t => t.rd .SCEx_MACMD_S31 x.ix = 0 ∧ (t.str.get x).sce.step = .velocity) ∧
  (∀ (s : State) (x : Str) (terminal current : Int) (vm time : Nat), s.present x = true → s.rd .SCEx_STAT_STATE x.ix = 5 →
    (s.str.get x).sce.emergency = true → vm < s.rd .PWR_RETCFG_VM_RETMIN →
    Completes (.retractVelocityLoop x terminal current vm time) s fun t => t.power.vmLow = true) ∧
  (∀ (s : State) (x : Str), s.present x = true → s.rd .SCEx_STAT_STATE x.ix = 5 → (s.str.get x).sce.step = .velocity →
    313 ≤ (s.str.get x).sce.slowTicks ∨ s.rd .SCEx_RET_RET_MS x.ix * 2000 ≤ (s.str.get x).sce.loopTicks * 16 →
    Completes (.retractPark x) s fun t => (t.str.get x).sce.step = .hold) ∧
  (∀ (s : State) (x : Str), s.present x = true → s.rd .SCEx_STAT_STATE x.ix = 5 → (s.str.get x).sce.step = .hold →
    s.power.loss = none →
    Completes (.retractHoldEnd x) s fun t => t.rd .SCEx_STAT_STATE x.ix = 0 ∧ t.rd .SCEx_VCMCMD_S30 x.ix = 0) ∧
  (∀ (s : State) (input level : Nat), (if input = 0 then s.rd .SB_CFG1_SHK_EN0 else s.rd .SB_CFG1_SHK_EN1) = 1 →
    s.rd .SB_CFG1_SHK_TH < level → Completes (.shockEvent input level) s fun t => t.rd .SB_STAT_SHOCK = 1) ∧
  (∀ s : State, Completes .shockHoldEnd s fun t => ∀ x, (t.str.get x).sce.shockHold = false)

/-- ACQ, IDLE and a servo format word (R114, R127). -/
def Obligations.AcquisitionEffects : Prop :=
  (∀ (s : State) (x : Str), s.present x = true → s.rd .SVDx_STAT_SYNC_STATE x.ix = 0 → s.rd .SVDx_STAT_FMT_VALID x.ix = 1 →
    Completes (.acq x) s fun t => t.rd .SVDx_STAT_SYNC_STATE x.ix = 1 ∧ t.rd .SVDx_CNT_MISSED x.ix = 0 ∧
      t.rd .SVDx_CNT_UNREAD x.ix = 0) ∧
  (∀ (s : State) (x : Str), s.present x = true → Completes (.idle x) s fun t => t.rd .SVDx_STAT_SYNC_STATE x.ix = 0) ∧
  (∀ (s : State) (x : Str) (index value : Nat), s.present x = true → index < 6 →
    Completes (.svdFormatWrite x index value) s fun t =>
      (s.rd .SVDx_STAT_SYNC_STATE x.ix = 0 → t.rd .SVDx_STAT_FMT_VALID x.ix = boolNat (t.formatValid x) ∧
        (index = 0 → t.rd .SVDx_FMT0_CELLS x.ix = value % 8192)) ∧
      (s.rd .SVDx_STAT_SYNC_STATE x.ix ≠ 0 → t.rd .SVDx_STAT_CFG_LOCKED x.ix = 1))

/-- What the energy assist's commands and events do where they act, a clause for each (R129 to R150). -/
def Obligations.EnergyAssistEffects : Prop :=
  (∀ (s : State) (x : Str) (gate fret : Nat), s.present x = true → s.synced x = true →
    Completes (.assistSlot x gate fret) s fun t => (t.str.get x).ae.slots = (s.str.get x).ae.slots + 1 ∧
      (t.str.get x).ae.tdZero = false ∧ (s.rd .NUTx_CTRL_EN x.ix = 1 → (t.str.get x).ae.seq = ((s.str.get x).ae.seq + 1) % 256)) ∧
  (∀ (s : State) (x : Str) (reply : Nat), s.present x = true → s.rd .NUTx_CTRL_EN x.ix = 1 → (s.str.get x).ae.prev = none →
    Completes (.nutReply x reply) s fun t =>
      (crc8 reply 64 56 0 ≠ reply % 256 → t.rd .NUTx_CNT_CRC_ERR x.ix = min 65535 (s.rd .NUTx_CNT_CRC_ERR x.ix + 1)) ∧
      (crc8 reply 64 56 0 = reply % 256 → reply.testBit 59 = false →
        t.rd .NUTx_CNT_NACK x.ix = min 65535 (s.rd .NUTx_CNT_NACK x.ix + 1))) ∧
  (∀ (s : State) (x : Str), s.present x = true → 3 ≤ (s.str.get x).ae.unacked → (s.str.get x).health.nutEnables < 3 →
    Completes (.linkFailure x) s fun t => t.rd .AEx_STAT_NUT_FAIL x.ix = 1 ∧ (t.str.get x).ae.unacked = 0 ∧
      (s.rd .AEx_STAT_STATE x.ix = 3 → (t.str.get x).ae.linkDue = some ((s.str.get x).ae.missWedge, (s.str.get x).ae.missSlot))) ∧
  (∀ (s : State) (x : Str) (head : Nat), s.present x = true → head < 6 → s.rd .AEx_H_HSTAT_TEMP (x.ix head) + 10 < s.rd (htLim x) →
    Completes (.hotHeadClear x head) s fun t => (t.str.get x).ae.hot = (s.str.get x).ae.hot.set head false) ∧
  (∀ (s : State) (x : Str) (f : NutFrame) (later : List NutFrame), s.present x = true → s.rd .NUTx_CTRL_EN x.ix = 1 →
    (s.str.get x).ae.idleQueue = f :: later → Completes (.backgroundFrameStart x) s fun t =>
      (t.str.get x).ae.idleQueue = later ∧ (t.str.get x).ae.last = some { f with tries := f.tries + 1 } ∧
      (t.str.get x).ae.seq = ((s.str.get x).ae.seq + 1) % 256) ∧
  (∀ (s : State) (x : Str), s.present x = true → s.rd .NUTx_STAT_BG_BUSY x.ix = 0 → s.rd .NUTx_CTRL_EN x.ix = 1 →
    s.rd .NUTx_BGCMD_ADDR x.ix ∉ [0, 1, 5] → Completes (.bgGo x) s fun t => t.rd .NUTx_STAT_BG_BUSY x.ix = 1 ∧
      (t.str.get x).ae.postQueue.length = (s.str.get x).ae.postQueue.length + 1) ∧
  (∀ (s : State) (x : Str) (on : Bool), s.present x = true → on = false ∨ s.eff .AEx_CFG_TYPE x.ix = 0 →
    Completes (.wrArm x on) s fun t => (s.rd .AEx_STAT_STATE x.ix = 0 → t.rd .AEx_CTRL_WR_ARM x.ix = boolNat on) ∧
      (s.rd .AEx_STAT_STATE x.ix ≠ 0 → t.coming .AEx_CTRL_WR_ARM x.ix = boolNat on)) ∧
  (∀ (s : State) (x : Str), s.present x = true → s.rd .AEx_STAT_STATE x.ix = 4 → Completes (.abortClr x) s fun t =>
    (s.rd .AEx_STAT_NUT_FAIL x.ix = 0 → s.ledgerBelowSoft x (s.rd .AEx_ABORT_HEAD x.ix) = true → t.rd .AEx_STAT_STATE x.ix = 1) ∧
    (s.rd .AEx_STAT_NUT_FAIL x.ix = 1 → t.rd .AEx_STAT_STATE x.ix = 4 ∧ t.rd .AEx_STAT_CFG_LOCKED x.ix = 1)) ∧
  (∀ (s : State) (x : Str), s.present x = true → s.rd .AEx_STAT_STATE x.ix = 2 →
    s.rd .AEx_CFG_WARM_FRETS x.ix ≤ (s.str.get x).ae.warm → (s.str.get x).ae.idleAcked = true →
    (s.str.get x).ae.linkDue = none → (s.str.get x).ae.headDue = false → Completes (.warmUpComplete x) s fun t =>
      t.rd .AEx_STAT_STATE x.ix = 3) ∧
  (∀ (s : State) (x : Str), s.present x = true → s.rd .AEx_STAT_STATE x.ix = 3 → 0 < (s.str.get x).ae.heldFrets →
    s.rd .AEx_CFG_ARM_HOLD x.ix ≤ (s.str.get x).ae.heldFrets → (s.str.get x).ae.linkDue = none →
    (s.str.get x).ae.headDue = false → (s.str.get x).ae.capDue = none → Completes (.armLapse x) s fun t =>
      t.rd .AEx_STAT_STATE x.ix = 1 ∧ t.rd .AEx_STAT_ARM_LAPSE x.ix = 1 ∧ t.rd .AEx_CTRL_WR_ARM x.ix = 0) ∧
  (∀ (s : State) (x : Str), s.present x = true → s.rd .AEx_CTRL_FH_EN x.ix = 1 →
    s.rd .AEx_STAT_STATE x.ix = 1 ∨ s.rd .AEx_STAT_STATE x.ix = 3 → s.eff .AEx_CFG_FH_DIV x.ix ≤ (s.str.get x).ae.ecsCount →
    Completes (.flyHeightUpdate x) s fun t => (t.str.get x).ae.ecsSum = 0 ∧ (t.str.get x).ae.ecsCount = 0)

/-- What the read channel's commands and events do where they act, a clause for each (R151 to R176, R183 to R186). -/
def Obligations.ReadChannelEffects : Prop :=
  (∀ (s : State) (x : Str) (a : Armed) (later : List Armed), s.present x = true → (s.seq x .rsq).armed = a :: later →
    a.request.source = .host → s.shadow = [] → (s.str.get x).rch.taps = [] → (s.str.get x).rch.reload = false →
    (s.str.get x).rch.adapt = [] → 1 ≤ s.rd .SCEx_STAT_STATE x.ix → s.rd .SCEx_STAT_STATE x.ix ≤ 4 →
    s.rd .HARP_STAT_INSVC ≠ 0 → (s.str.get x).svd.servoGate = false → (s.str.get x).rch.gate = none →
    s.rd .RCHx_STAT_PLL_LOCK x.ix = 1 → a.set = s.rd .RCHx_STAT_SET x.ix → a.set < 96 → s.setValid x a.set = true →
    s.rateInRange x = true → (s.str.get x).rch.capMode = false →
    s.eff .RCHx_CTRL_SLOT_RSV x.ix < (freeSlots (s.str.get x).rch.slots).length → s.pageFree x = true →
    Completes (.readGateOpen x) s fun t =>
      (t.str.get x).rch.gate = some ((freeSlots (s.str.get x).rch.slots).headD 0) ∧ (t.seq x .rsq).armed = later) ∧
  (∀ (s : State) (x : Str), s.present x = true → Completes (.pllLock x) s fun t => t.rd .RCHx_STAT_PLL_LOCK x.ix = 1) ∧
  (∀ (s : State) (x : Str) (start o : Int) (before i m : Nat) (bits : List Bool) (c : Slot) (later : List (Int × Nat)),
    s.present x = true → (s.str.get x).rch.gate = some i → (s.str.get x).rch.slots.getD i none = some c → c.fragment = false →
    c.mism1 = 7 → syncMatches (s.rd .SFMx_SYNC1_SYNC_HI x.ix * 2 ^ 32 + s.rd .SFMx_SYNC0_SYNC_LO x.ix) 48
      (s.eff .SFMx_SYNC1_SYNC_TOL x.ix) (s.eff .SFMx_SYNC1_SYNC_WIN x.ix) (comparisons start before bits) = (o, m) :: later →
    Completes (.syncMarkLatch x start before bits) s fun t => t.rd .SFMx_LAST_OFFS x.ix = ofSigned 8 o ∧
      (later ≠ [] → t.rd .SFMx_STAT_SYNC_ALT x.ix = 1)) ∧
  (∀ (s : State) (x : Str) (i : Nat) (c : Slot), s.present x = true → (s.str.get x).rch.gate = some i →
    (s.str.get x).rch.slots.getD i none = some c → Completes (.syncWindowClose x) s fun t =>
      (c.fragment = true → t.rd .SFMx_STAT_FSYNC_MISS x.ix = 1) ∧
      (c.fragment = false → c.mism1 = 7 → t.rd .SFMx_STAT_SYNC_MISS x.ix = 1 ∧ t.rd .SFMx_LAST_MISM x.ix = 7)) ∧
  (∀ (s : State) (x : Str) (r0 r1 r2 : List Int) (first second i : Nat) (c : Slot), s.present x = true →
    (s.str.get x).rch.gate = some i → (s.str.get x).rch.slots.getD i none = some c →
    Completes (.captureEnd x r0 r1 r2 first second) s fun t => (t.str.get x).rch.gate = none ∧
      (t.seq x .rsq).progress = (s.seq x .rsq).progress + 1) ∧
  (∀ (s : State) (x : Str), s.present x = true → (∀ e ∈ (s.str.get x).rch.taps, e.2 ≠ s.timebase) →
    Completes (.save x) s fun t => (t.str.get x).rch.taps = (s.str.get x).rch.taps ++ [(true, s.timebase)]) ∧
  (∀ (s : State) (x : Str), s.present x = true → Completes (.restore x) s fun t =>
    (false, s.timebase) ∈ (t.str.get x).rch.taps ∧ (true, s.timebase) ∉ (t.str.get x).rch.taps) ∧
  (∀ (s : State) (x : Str) (n w v : Nat), s.present x = true → n < 96 → 1 ≤ w → w < 256 → n ≠ s.rd .RCHx_STAT_SET x.ix →
    Completes (.channelSetWrite x n w v) s fun t => t.setWord x n w = (v &&& setWordMask w)) ∧
  (∀ (s : State) (x : Str), s.present x = true → (s.str.get x).rch.capMode = true → Completes (.capGo x) s fun t =>
    t.rd .RCHx_STAT_CAP_BUSY x.ix = 1) ∧
  (∀ (s : State) (cap : CalCapture), s.present cap.x = true → Completes (.calCaptureEnd cap) s fun t =>
    s.rd .RCHx_STAT_CAP_BUSY cap.x.ix = 1 → t.rd .RCHx_STAT_CAP_BUSY cap.x.ix = 0)

/-- What each operation of a formatter sequencer does where it acts (R343 to R370). -/
def Obligations.SequencerEffects : Prop :=
  (∀ (s : State) (x : Str) (q : SeqId), s.present x = true → seqEngine q x ∉ s.bench.halted → s.rd .SQ_STAT_STATE (q.ix x) = 1 →
    NoneWaits s [.SQ_STAT_STATE] → (s.seq x q).restart = true ∨ (s.seq x q).pendingIrq.isSome = true ∨ (s.seq x q).queue ≠ [] →
    Completes (.routineDispatch x q) s fun t => t.rd .SQ_STAT_STATE (q.ix x) = 2 ∧
      ((s.seq x q).restart = false → (s.seq x q).pendingIrq.isSome = true → t.rd .SQ_STAT_HANDLER (q.ix x) = 1)) ∧
  (∀ (s : State) (x : Str) (q : SeqId) (pt : Nat), s.present x = true → seqEngine q x ∉ s.bench.halted →
    s.rd .SQ_STAT_STATE (q.ix x) = 2 → s.controlBad x q (s.rd .SQ_STAT_PC (q.ix x)) = false →
    s.pageLive x q (s.rd .SQ_STAT_PC (q.ix x)) = true → s.controlWord x q (s.rd .SQ_STAT_PC (q.ix x)) = 0 →
    (s.seq x q).waiting = false → Completes (.microwordIssue x q pt) s fun t =>
      t.rd .SQ_STAT_PC (q.ix x) = (s.rd .SQ_STAT_PC (q.ix x) + 1) % 4096) ∧
  (∀ (s : State) (x : Str) (q : SeqId) (pt : Nat) (r : Request) (later : List Request), s.present x = true →
    (s.seq x q).queue = r :: later → Completes (.reqLoad x q pt) s fun t =>
      (t.seq x q).loaded = some r ∧ (t.seq x q).walker.offset = 0 ∧ (t.seq x q).walker.placed = true) ∧
  (∀ (s : State) (x : Str) (q : SeqId) (status : Nat) (r : Request) (later : List Request), s.present x = true →
    s.sqCommitted x q = true → (s.seq x q).queue = r :: later → Completes (.reqDone x q status) s fun t =>
      (t.seq x q).progress = 0 ∧ .requestDone x q r.id (status % 256) (s.seq x q).walker.offset ∈ t.out) ∧
  (∀ (s : State) (x : Str) (q : SeqId) (r : Request) (later : List Request), s.present x = true → s.sqCommitted x q = true →
    (s.seq x q).queue = r :: later → Completes (.requeue x q) s fun t => (t.seq x q).progress = 0) ∧
  (∀ (s : State) (x : Str) (q : SeqId) (code value : Nat), s.present x = true → (s.seq x q).mailbox.length < 16 →
    s.sqCommitted x q = true → Completes (.post x q code value) s fun t =>
      (t.seq x q).mailbox = (s.seq x q).mailbox ++ [(code % 256, value)] ∧ t.rd .SQ_MBOX_VALID (q.ix x) = 1) ∧
  (∀ (s : State) (x : Str) (q : SeqId) (pt : Nat), s.present x = true → (s.seq x q).loaded.isSome = true →
    Completes (.nextsec x q pt) s fun t => (t.seq x q).walker.offset = (s.seq x q).walker.offset + 1 ∧
      (t.seq x q).pm = (t.seq x q).walker.pos.start % 2 ^ 20) ∧
  (∀ (s : State) (x : Str) (q : SeqId) (pt : Nat), s.present x = true → (s.seq x q).loaded.isSome = true →
    Completes (.rewind x q pt) s fun t => (t.seq x q).walker.offset = (s.seq x q).progress ∧ (t.seq x q).runStop = false) ∧
  (∀ (s : State) (x : Str) (arg pt : Nat) (r : Request), s.present x = true → s.sqCommitted x .rsq = true →
    (s.seq x .rsq).loaded = some r → s.tooLate x { s.seq x .rsq with pt := pt % 2 ^ 20 } = false →
    Completes (.capture x arg pt) s fun t => (t.seq x .rsq).armed.length = (s.seq x .rsq).armed.length + 1 ∧
      (t.seq x .rsq).notReady = false) ∧
  (∀ (s : State) (x : Str), s.present x = true → s.sqCommitted x .rsq = true → (s.str.get x).rch.gate = none →
    Completes (.cont x .rsq) s fun t =>
      (t.seq x .rsq).armed = (s.seq x .rsq).armed.map fun a => { a with cont := a.sector.split.isSome }) ∧
  (∀ (s : State) (x : Str), s.present x = true → s.sqCommitted x .rsq = true → Completes (.close x) s fun t =>
    (t.seq x .rsq).armed = [] ∧ (t.str.get x).rch.gate = none) ∧
  (∀ (s : State) (x : Str) (arg : Nat), s.present x = true → s.sqCommitted x .rsq = true → bitsOf arg 6 0 < 96 →
    s.setValid x (bitsOf arg 6 0) = true → Completes (.setsel x arg) s fun t => t.rd .RCHx_STAT_SET x.ix = bitsOf arg 6 0) ∧
  (∀ (s : State) (x : Str) (pt : Nat) (r : Request), s.present x = true → s.sqCommitted x .wsq = true →
    (s.seq x .wsq).runStop = false → (s.seq x .wsq).loaded = some r →
    s.tooLate x { s.seq x .wsq with pt := pt % 2 ^ 20 } = false → Completes (.start x pt) s fun t =>
      (t.seq x .wsq).armed.length = (s.seq x .wsq).armed.length + 1 ∧ t.rd .WRPx_STAT_RUN x.ix = 1) ∧
  (∀ (s : State) (x : Str), s.present x = true → s.sqCommitted x .wsq = true → Completes (.withdraw x) s fun t =>
    (t.seq x .wsq).armed = []) ∧
  (∀ (s : State) (x : Str) (arg : Nat), s.present x = true → s.sqCommitted x .ssq = true → Completes (.uevt x arg) s fun t =>
    (arg = 1 ∨ arg = 3 → (t.seq x .rsq).uevt = true) ∧ (arg = 2 ∨ arg = 3 → (t.seq x .wsq).uevt = true)) ∧
  (∀ (s : State) (x : Str) (q : SeqId), s.present x = true → s.sqCommitted x q = false → (s.seq x q).commitFits = true →
    Completes (.commit x q) s fun t => t.rd .SQ_STAT_COMMITTED (q.ix x) = 1 ∧ (t.seq x q).commit = []) ∧
  (∀ (s : State) (x : Str) (q : SeqId) (next n : Nat), s.present x = true → s.rd .SQ_STAT_COMMITTED (q.ix x) = 1 →
    s.rd .SQ_STAT_HANDLER (q.ix x) = 0 → (s.seq x q).pendingIrq = some n → Completes (.yieldWord x q next) s fun t =>
      t.rd .SQ_RESUME_ADDR (q.ix x) = next % 4096 ∧ t.rd .SQ_STAT_HANDLER (q.ix x) = 1 ∧
      t.rd .SQ_STAT_PC (q.ix x) = (s.rd .SQ_IVEC_IVEC (q.ix x) + n) % 4096) ∧
  (∀ (s : State) (x : Str) (q : SeqId), s.present x = true → s.rd .SQ_STAT_HANDLER (q.ix x) = 0 →
    (s.seq x q).commitFits = true → Completes (.endRoutine x q) s fun t =>
      t.rd .SQ_STAT_STATE (q.ix x) ≤ 1 ∧ t.rd .SQ_STAT_COMMITTED (q.ix x) = 0) ∧
  (∀ (s : State) (x : Str) (q : SeqId), s.present x = true → s.rd .SQ_STAT_HANDLER (q.ix x) = 1 →
    (s.seq x q).fromAbandon = false → Completes (.resume x q) s fun t => t.rd .SQ_STAT_HANDLER (q.ix x) = 0 ∧
      t.rd .SQ_STAT_PC (q.ix x) = s.rd .SQ_RESUME_ADDR (q.ix x) % 4096) ∧
  (∀ (s : State) (x : Str) (q : SeqId), s.present x = true → s.rd .SQ_STAT_HANDLER (q.ix x) = 1 →
    Completes (.drop x q) s fun t => t.rd .SQ_STAT_HANDLER (q.ix x) = 0 ∧ t.rd .SQ_STAT_COMMITTED (q.ix x) = 0) ∧
  (∀ (s : State) (x : Str) (q : SeqId) (n : Nat), s.present x = true → (s.seq x q).pendingIrq = some n →
    s.rd .SQ_STAT_STATE (q.ix x) = 2 → s.sqCommitted x q = false → Completes (.seqInterrupt x q) s fun t =>
      t.rd .SQ_STAT_ABANDON (q.ix x) = 1 ∧ t.rd .SQ_STAT_HANDLER (q.ix x) = 1 ∧ (t.seq x q).commit = []) ∧
  (∀ (s : State) (x : Str) (q : SeqId), s.present x = true → s.rd .SQ_STAT_STATE (q.ix x) = 0 →
    Completes (.sqGo x q) s fun t => t.rd .SQ_STAT_STATE (q.ix x) = 1) ∧
  (∀ (s : State) (x : Str) (q : SeqId), s.present x = true → Completes (.sqStop x q) s fun t =>
    (s.rd .SQ_STAT_STATE (q.ix x) = 1 → (s.seq x q).restart = false → t.rd .SQ_STAT_STATE (q.ix x) = 0) ∧
    (s.rd .SQ_STAT_STATE (q.ix x) = 2 → (t.seq x q).stopPend = true)) ∧
  (∀ (s : State) (x : Str) (q : SeqId), s.present x = true → s.rd .SQ_STAT_STATE (q.ix x) = 0 ∨ s.rd .SQ_STAT_STATE (q.ix x) = 3 →
    Completes (.sqRst x q) s fun t => t.rd .SQ_STAT_STATE (q.ix x) = 0 ∧ t.rd .SQ_STAT_FCAUSE (q.ix x) = 0 ∧
      (t.seq x q).stack = [] ∧ (t.seq x q).commit = [] ∧ (t.seq x q).queue = (s.seq x q).queue) ∧
  (∀ (s : State) (x : Str) (q : SeqId), s.present x = true → Completes (.doorbell x q) s fun t =>
    (t.seq x q).irq = (s.seq x q).irq.set 2 true) ∧
  (∀ (s : State) (x : Str) (q : SeqId) (a off v : Nat), s.present x = true → s.rd .SQ_STAT_STATE (q.ix x) = 0 → off < 16 →
    Completes (.microwordWrite x q a off v) s fun t =>
      (x.num * 3 + q.num, a % 4096, off / 4, v % 2 ^ 32) ∈ t.staged)

/-- Cleaning of a band, its age limit, and the Chest's journal, governor and wear levelling (R213 to R218, R290 to R312). -/
def Obligations.CleaningAndChestEffects : Prop :=
  (∀ (s : State) (record dest : Nat) (later : List Nat) (r : Record), s.host.records[record]? = some r →
    ((s.ns r.nsid).map fun n => n.kind == .managed) = some true ∨ 8 ≤ (s.pendingSkips r).length →
    s.extentsToTake r.str false = dest :: later → r.clean = false → s.isUnit r.str r.band = false → s.isLost r.str = false →
    s.liveSectors record r ≠ [] → s.findClean record = none → Completes (.bandCleanStart record) s fun t =>
      ((t.host.records[record]?).map fun r => r.clean) = some true) ∧
  (∀ (s : State) (record dest : Nat) (later : List Nat) (r : Record) (age : Nat × Nat), s.host.records[record]? = some r →
    ((s.ns r.nsid).map fun n => n.kind == .zoned) = some true → r.state = .full ∨ r.state = .closed →
    age ∈ s.pendingSkips r → age.2 + 86400 < s.rd .SB_RTC_SEC → s.extentsToTake r.str false = dest :: later →
    r.clean = false → s.isUnit r.str r.band = false → s.isLost r.str = false → s.liveSectors record r ≠ [] → s.findClean record = none →
    Completes (.skipAgeTimeout record) s fun t => ((t.host.records[record]?).map fun r => r.clean) = some true) ∧
  (∀ (s : State) (row : Nat) (later : List Nat), s.bridge.journalWait = row :: later → s.rd .CHST_JRNL_LIVE < 16384 →
    Completes .journalResume s fun t => t.bridge.journalWait.length < s.bridge.journalWait.length ∧
      s.bridge.journalSeq < t.bridge.journalSeq) ∧
  (∀ (s : State) (us : Nat), s.bridge.rowsWaiting = [] → Completes (.chestWriteGrant us) s fun t =>
    t.rd .CHST_STAT_GOV_ACT = 0 ∧
    t.bridge.groupTokens = s.bridge.groupTokens.map fun b =>
      min s.groupDepth (b + atLeast1 (s.rd .CHST_GOV_GOV_GRATE) * 65536 * us / 10 ^ 6)) ∧
  (∀ (s : State) (group : Nat), 64 ≤ s.bridge.gapCount.getD (group % 64) 0 → Completes (.wearGapMove group) s fun t =>
    t.bridge.gapCount = s.bridge.gapCount.modify (group % 64) (· - 64) ∧
    t.bridge.gapPlace = s.bridge.gapPlace.modify (group % 64) fun p => (p + 1) % 4097)

/-- What the ladder's events do where they act (R219 to R231). -/
def Obligations.LadderEffects : Prop :=
  (∀ (s : State) (x : Str) (turn : LadderTurn) (l : Ladder), s.present x = true → s.findLadder x turn.ladder = some l →
    l.state = .revolve → l.posted = false → 4 ≤ l.rung → l.rung < 8 → s.canRead x = true → s.ladderHook l turn.hook = .run →
    Completes (.ladderRevolution x turn) s fun t => ∃ l', t.findLadder x turn.ladder = some l' ∧ l'.posted = true ∧
      l'.used = l.used + 1 ∧ l'.rung = l.rung ∧ t.host.requestId = s.host.requestId + 1) ∧
  (∀ (s : State) (x : Str) (turn : LadderTurn) (l : Ladder) (z : Nat) (r : Record), s.present x = true →
    s.findLadder x turn.ladder = some l → l.zone = some z → s.host.records[z]? = some r → l.state = .revolve →
    l.posted = false → l.rung = 8 → s.canRead x = true → s.ladderHook l turn.hook = .run →
    (if l.used = 0 then s.stripeReads l else l.outstanding) ≠ [] → Completes (.parityPass x turn) s fun t =>
      ∃ l', t.findLadder x turn.ladder = some l' ∧ l'.posted = true ∧ l'.used = l.used + 1 ∧
        l'.outstanding = (if l.used = 0 then s.stripeReads l else l.outstanding) ∧ l'.reading = l'.outstanding.length) ∧
  (∀ (s : State) (x : Str) (l : Ladder), s.present x = true → s.activeRungs x < 8 →
    ((s.str.get x).ladders.find? fun l => l.state == .wait) = some l → Completes (.ladderResume x) s fun t =>
      { l with state := .revolve } ∈ (t.str.get x).ladders ∧ t.rd .RLDx_STAT_ACTIVE x.ix = min 15 (t.activeRungs x)) ∧
  (∀ (s : State) (x : Str) (fseq : Nat) (c : Cmd) (l : Ladder), s.findCmd fseq = some c → s.tler c ≠ 0 → c.ready = none →
    l ∈ (s.str.get x).ladders → l.source = .host → l.command = fseq → l.detached = false →
    Completes (.tlerExpiry fseq) s fun t => t.rd .RLDx_STAT_TLER_CUT x.ix = 1)

/-- What Harp's commands and events do where they act (R163 to R171, R187 to R200). -/
def Obligations.HarpEffects : Prop :=
  (∀ (s : State) (x : Str) (slot : Nat) (c : Slot), s.present x = true → s.slot x slot = some c → c.recording = false →
    s.harp.store.length < 48 → Completes (.codewordReady x slot) s fun t =>
      t.harp.store.length = s.harp.store.length + 1 ∧
      ∃ e ∈ t.harp.store, e.x = x ∧ e.slot = slot ∧ e.cls = 3 ∧ e.iteration = 1 ∧ e.bitFlip = c.peak) ∧
  (∀ (s : State) (x : Str) (second : Bool) (p : Pass) (c : Slot), s.present x = true →
    (if second then (s.str.get x).rch.pipe2 else (s.str.get x).rch.pipe1) = some p → p.discard = false →
    s.slot x p.slot = some c → s.harp.store.length < 48 → Completes (.detectorPassDone x second) s fun t =>
      ∃ e ∈ t.harp.store, e.x = x ∧ e.slot = p.slot ∧ e.cls = p.cls ∧ e.shift = p.shift ∧ e.iteration = p.iteration) ∧
  (∀ (s : State) (e : HarpEntry) (n : Nat), s.shadow = [] → nextEntry s.harp.store = some e → n ∈ s.harp.lru →
    s.eligible n = true → (∀ m ∈ s.harp.lru, m < s.harp.lanes.length) → Completes .harpDispatch s fun t =>
      ∃ m ∈ s.harp.lru, s.eligible m = true ∧ t.laneJob m = .decoding e) ∧
  (∀ (s : State) (lane signature : Nat) (out : LaneOut) (e : HarpEntry), s.laneJob lane = .decoding e →
    Completes (.laneResult lane out signature) s fun t => t.laneJob lane =
      .checking e (out.zeroAt.any fun n => decide (n ≤ s.localLimit e)) signature out.extrinsic) ∧
  (∀ (s : State) (lane : Nat) (e : HarpEntry), s.laneJob lane = .decoding e → Completes (.laneWatchdog lane) s fun t =>
    t.rd .HARP_STAT_STRIKE = 1 ∧ ∃ r ∈ t.harp.records, r.x = e.x ∧ r.slot = e.slot ∧ r.lane = lane ∧ r.signature = none) ∧
  (∀ (s : State) (lane signature : Nat) (claim : Bool) (e : HarpEntry) (extrinsic : List Int),
    s.laneJob lane = .checking e claim signature extrinsic → Completes (.syndromeVerdict lane true) s fun t =>
      t.rd .HARP_CNT0_CONFIRMED = min (2 ^ 32 - 1) (s.rd .HARP_CNT0_CONFIRMED + 1)) ∧
  (∀ (s : State) (lane : Nat) (passed : Bool), s.laneJob lane = .selfTest → Completes (.selfTestDone lane passed) s fun t =>
    (passed = true → t.laneJob lane = .idle ∧ t.bit .HARP_WDRAWN_LANES lane = false) ∧
    (passed = false → t.rd .HARP_STAT_STRIKE = 1)) ∧
  (∀ (s : State) (lane : Nat), lane < 32 → s.bit .HARP_RETIRED_LANES lane = false → s.laneJob lane = .idle →
    Completes (.harpRetire lane) s fun t => t.bit .HARP_RETIRED_LANES lane = true ∧ t.rd .HARP_STAT_LANE_RETIRED = 1 ∧
      t.rd .HARP_LOG_LANE = lane ∧ t.rd .HARP_LOG_CAUSE = 3) ∧
  (∀ (s : State) (lane : Nat), lane < 32 → Completes (.harpUnretire lane) s fun t =>
    (s.rd .PWR_STAT_MODE = 7 → t.bit .HARP_RETIRED_LANES lane = false) ∧
    (s.rd .PWR_STAT_MODE ≠ 7 → t.rd .HARP_STAT_CFG_LOCKED = 1))

/-- What the write path's commands and events do where they act (R203 to R218, R232 to R239). -/
def Obligations.WritePathEffects : Prop :=
  (∀ (s : State) (x : Str) (a : Armed) (later : List Armed), s.present x = true → (s.seq x .wsq).armed = a :: later →
    a.request.zone = none → s.shadow = [] → s.rd .WRPx_CTRL_EN x.ix = 1 → (s.str.get x).wrp.encRefuse = false →
    s.inhibit x = false → s.rd .SCEx_STAT_PVALID x.ix = 1 → s.rd .AEx_STAT_STATE x.ix = 3 →
    s.rd .AEx_STAT_HEAD x.ix = a.request.head → a.set = s.rd .RCHx_STAT_SET x.ix → a.set < 96 → s.setValid x a.set = true →
    s.rd .RCHx_STAT_PLL_LOCK x.ix = 1 → s.rateInRange x = true → s.codewordThere x a = true →
    Completes (.writeGateOpen x) s fun t => t.rd .WRPx_STAT_GATE x.ix = 1 ∧ t.rd .WRPx_STAT_RUN x.ix = 1 ∧
      (t.str.get x).wrp.open' = some a ∧ (t.seq x .wsq).armed = later) ∧
  (∀ (s : State) (x : Str) (a : Armed), s.present x = true → (s.str.get x).wrp.open' = some a → s.rd .AEx_STAT_STATE x.ix ≠ 4 →
    Completes (.sectorWritten x) s fun t => t.rd .WRPx_STAT_GATE x.ix = 0 ∧ (t.str.get x).wrp.open' = none ∧
      t.rd .WRPx_CNT0_SECTORS x.ix = min (2 ^ 32 - 1) (s.rd .WRPx_CNT0_SECTORS x.ix + 1)) ∧
  (∀ (s : State) (x : Str) (c : Nat × Nat) (later : List (Nat × Nat)), s.present x = true →
    (s.str.get x).wrp.cells = c :: later → (s.str.get x).wrp.fifo.length < 3 →
    Completes (.encodeDone x true) s fun t => (t.str.get x).wrp.cells = later ∧
      (t.str.get x).wrp.fifo = (s.str.get x).wrp.fifo ++ [c] ∧ t.rd .WRPx_STAT_FIFO x.ix = (s.str.get x).wrp.fifo.length + 1) ∧
  (∀ (s : State) (x : Str) (c : Nat × Nat) (later : List (Nat × Nat)), s.present x = true →
    (s.str.get x).wrp.cells = c :: later → (s.str.get x).wrp.fifo.length < 3 → (s.str.get x).wrp.retrying = some c →
    Completes (.encodeDone x false) s fun t => t.rd .WRPx_STAT_ENC_FAULT x.ix = 1 ∧ (t.str.get x).wrp.encRefuse = true) ∧
  (∀ (s : State) (x : Str) (on : Bool), s.present x = true → Completes (.writePathEnable x on) s fun t =>
    (s.channelRunning x = false → t.rd .WRPx_CTRL_EN x.ix = boolNat on) ∧
    (s.channelRunning x = true → t.rd .WRPx_STAT_CFG_LOCKED x.ix = 1)) ∧
  (∀ (s : State) (x : Str), s.present x = true → s.rd .WRPx_STAT_RUN x.ix = 0 → Completes (.accClr x) s fun t =>
    (t.str.get x).wrp.acc = [] ∧ t.rd .WRPx_STAT_ACC_N x.ix = 0) ∧
  (∀ (s : State) (x : Str) (prev bad : List Nat) (a : Armed), s.present x = true → (s.str.get x).wrp.squeeze = some a →
    Completes (.squeezeVerify x prev bad) s fun t => (t.str.get x).wrp.squeeze = none) ∧
  (∀ (s : State) (record n : Nat) (r : Record) (ns : Namespace) (e : Extent), s.host.records[record]? = some r →
    s.ns r.nsid = some ns → s.extent r.str r.band = some e → ns.kind = .zoned → r.accValid = true → r.heldForLadders = false →
    s.mayPost r.str e.head = true → r.state ≠ .offline → r.state ≠ .readOnly → s.dutyItems r (s.batchItems record r ns n) ≠ [] →
    Completes (.writeBatchIssue record n) s fun t => t.host.batches.get r.str = s.host.batches.get r.str + 1) ∧
  (∀ (s : State) (record : Nat) (r : Record), s.host.records[record]? = some r → r.accValid = false →
    s.isUnit r.str r.band = false → r.mp % 64 = 0 → Completes (.accumulatorRebuild record) s fun t =>
      (t.host.records[record]?).map (fun r => (r.acc, r.accValid)) = some ([], true)) ∧
  (∀ (s : State) (x : Str) (q : Realloc) (later : List Realloc) (id : Nat) (r : Record) (e : Extent) (track sector : Nat),
    s.present x = true → (s.str.get x).reallocs = q :: later → q.zone = some id → s.host.records[id]? = some r → q.smr = false →
    r.sparesUsed < 256 → s.sparesHeld < 32768 → s.positionOf x r.band (131072 + r.sparesUsed) = some (e, track, sector) →
    Completes (.reallocate x true) s fun t => (t.str.get x).reallocs = later ∧
      (t.host.records[id]?).map (fun r => r.sparesUsed) = some (r.sparesUsed + 1) ∧
      ((t.host.records[id]?).map fun r => r.spares.head?) = some (some (q.place.lba % 131072, r.sparesUsed)))

/-- What Phovi's commands and events do where they act (R326 to R342). -/
def Obligations.PhoviEffects : Prop :=
  (∀ (s : State) (e : Nat) (j : PhvJob), s.shadow = [] → e < 2 → s.phvSweep.phvInService e = true → e < s.phvSweep.phv.engines.length →
    s.phvSweep.phv.engines.getD e none = none → s.phvSweep.nextJob e = some j → Completes (.phoviJobStart e) s fun t =>
      ∃ j', t.phv.engines.getD e none = some j' ∧ j'.id = j.id ∧ j'.lba = j.lba ∧ j'.compress = j.compress ∧
        t.rd .PHV_ENG_STATE e = if j.compress then 1 else 2) ∧
  (∀ (s : State) (e : Nat) (capsules : List (List Nat × Nat)) (overrun : Bool) (j : PhvJob) (k : Capsule),
    s.phv.engines.getD e none = some j → j.compress = false → s.jobOver j = false → s.jobStaged j = true →
    s.jobCapsule j = some k → (decodeCapsule k.lba k.blocks k.bytes).1 = 0 → Completes (.phoviJobDone e capsules overrun 0) s fun t =>
      t.phv.engines.getD e none = none) ∧
  (∀ (s : State) (e : Nat) (j : PhvJob), s.phv.engines.getD e none = some j → j.compress = false → s.jobStaged j = false →
    s.phv.saved.length < 4 → Completes (.jobSuspend e) s fun t => t.phv.engines.getD e none = none ∧
      t.phv.saved = s.phv.saved ++ [j] ∧ t.rd .PHV_STAT_PREEMPT = 1 ∧ t.rd .PHV_STAT_SLOTS_FREE = 4 - t.phv.saved.length) ∧
  (∀ (s : State) (record pos : Nat), storeFind s.phv.positions record = some pos → Completes (.packTimeout record) s fun t =>
    storeFind t.phv.positions record = none ∧
    t.phv.packed = s.phv.packed.map fun q => if q.record == record && q.z == pos / 4096 then { q with whole := true } else q) ∧
  (∀ (s : State) (fseq grant : Nat) (c : Cmd), (fseq, grant) ∈ s.phv.spaceWait → s.findCmd fseq = some c →
    Completes (.spaceTimeout fseq) s fun t => t.rd .PHV_STAT_CAP_EXC = 1 ∧
      (t.findCmd fseq).map (·.ready) = some (some (.capacityExceeded, 0, 0)) ∧ ∀ e ∈ t.phv.spaceWait, e.1 ≠ fseq) ∧
  (∀ (s : State) (mask e : Nat), e < 2 → mask.testBit e = true → Completes (.phoviRetire mask) s fun t =>
    t.phvInService e = false ∧ (s.phvInService e = true → t.rd .PHV_STAT_ENG_FAULT = 1)) ∧
  (∀ (s : State) (mask e : Nat), e < 2 → mask.testBit e = true → Completes (.phoviUnretire mask) s fun t =>
    (s.rd .PWR_STAT_MODE = 7 → t.phvInService e = true ∧ t.rd .PHV_ENG_VFYCNT e = 0) ∧
    (s.rd .PWR_STAT_MODE ≠ 7 → t.rd .PHV_STAT_CFG_LOCKED = 1))

/-- What the Cabinet's commands and events do where they act (R313 to R325). -/
def Obligations.CabinetEffects : Prop :=
  (∀ (s : State) (x : Str) (r : Request) (p : Place) (w : Content) (k : Nat), s.present x = true → s.nextEncrypt x = some (r, p) →
    s.cellFree x = true → s.cabRoom = true → p.word = some (.data w) → s.slotOf (s.requestNsid r) = some k →
    w.gen < (s.keySlot k).counter → (s.keySlot k).state = .active → s.slotHeld k = false →
    Completes (.encryptRequest x) s fun t => ∃ j ∈ t.cab.queue ++ t.cab.running.map (·.2), j.source = .encrypt ∧ j.x = x ∧
      j.command = r.id ∧ j.lba = p.lba ∧ j.slot = k ∧ j.nonce = counterBlock p.lba w.gen w.nstag) ∧
  (∀ (s : State) (j : CabJob) (later : List CabJob) (n : Namespace), s.cab.holdWait = j :: later → s.rd .CAB_STAT_HOLD_USED < 64 →
    s.cabRoom = true → j.lane = none → s.jobNs j = some n → j.content.gen < (s.keySlot n.slot).counter →
    j.content.nstag = n.nstag → s.slotHeld n.slot = false → Completes .holdEntryGrant s fun t =>
      t.cab.holdWait = later ∧ t.rd .CAB_STAT_HOLD_USED = s.rd .CAB_STAT_HOLD_USED + 1 ∧
      ∃ q ∈ t.cab.queue ++ t.cab.running.map (·.2), q.lba = j.lba ∧ q.slot = n.slot ∧
        q.nonce = counterBlock j.lba j.content.gen n.nstag) ∧
  (∀ (s : State) (fseq lba : Nat) (v : Version) (n : Namespace), s.findVersion fseq = some v → s.ns v.nsid = some n →
    v.queue = .chest → v.covers lba = true → s.cabRoom = true → Completes (.xtsRequest fseq lba) s fun t =>
      (s.slotHeld n.slot = true → t.rd .CAB_STAT_NONCE_GUARD = 1) ∧
      (s.slotHeld n.slot = false → ∃ j ∈ t.cab.queue ++ t.cab.running.map (·.2), j.source = .xts ∧ j.lba = lba ∧
        j.slot = n.slot ∧ j.nonce = xtsTweak lba n.nstag)) ∧
  (∀ (s : State) (core c : Nat) (intact : Bool) (j : CabJob), (s.cab.running.find? fun r => r.1 == core) = some (c, j) →
    Completes (.cipherSectorDone core intact) s fun t =>
      (j.source = .encrypt → t.rd .CAB_CNT1_ENCRYPTS = min (2 ^ 32 - 1) (s.rd .CAB_CNT1_ENCRYPTS + 1)) ∧
      (j.source ≠ .encrypt → j.source ≠ .xts → t.rd .CAB_CNT0_DECRYPTS = min (2 ^ 32 - 1) (s.rd .CAB_CNT0_DECRYPTS + 1))) ∧
  (∀ (s : State) (slot : Nat), s.rd .CAB_STAT_BUSY = 0 → s.opRefused 0 (slot % 256) = false → Completes (.generate slot) s fun t =>
    t.cab.ops = s.cab.ops ++ [{ op := 0, slot := slot % 256, command := none }] ∧ t.rd .CAB_STAT_BUSY = 1) ∧
  (∀ (s : State) (slot : Nat), s.rd .CAB_STAT_BUSY = 0 → s.opRefused 1 (slot % 256) = false → Completes (.erase slot) s fun t =>
    t.cab.ops = s.cab.ops ++ [{ op := 1, slot := slot % 256, command := none }] ∧ t.rd .CAB_STAT_BUSY = 1) ∧
  (∀ (s : State) (slot : Nat), s.rd .CAB_STAT_BUSY = 0 → s.opRefused 2 (slot % 256) = false → Completes (.rekey slot) s fun t =>
    t.cab.ops = s.cab.ops ++ [{ op := 2, slot := slot % 256, command := none }] ∧ t.rd .CAB_STAT_BUSY = 1) ∧
  (∀ (s : State) (slot : Nat), s.rd .CAB_STAT_BUSY = 1 → Completes (.generate slot) s fun t =>
    t.cab.ops = s.cab.ops ∧ t.rd .CAB_STAT_OP_ERR = 1) ∧
  (∀ (s : State) (bad core : Nat), core < 4 → bad.testBit core = true → Completes (.katGo bad) s fun t =>
    t.bit .CAB_STAT_CORE_RET core = true) ∧
  (∀ (s : State) (core : Nat), core < 4 → s.bit .CAB_STAT_CORE_RET core = false → Completes (.katPeriodic core false) s fun t =>
    t.bit .CAB_STAT_CORE_RET core = true ∧ t.rd .CAB_CNT3_KAT_FAIL = min (2 ^ 16 - 1) (s.rd .CAB_CNT3_KAT_FAIL + 1)) ∧
  (∀ s : State, Completes .rngHealthFail s fun t => t.rd .CAB_STAT_RNG_FAIL = 1)

/-- What the Bridge's commands and events do where they act (R286 to R312). -/
def Obligations.BridgeEffects : Prop :=
  (∀ (s : State) (queue f g : Nat) (c : Cmd) (n : Namespace),
    ((s.bridge.waiting.filter fun e => e.2 == queueOf queue).map (·.1)).min? = some f → s.findCmd f = some c → s.ns c.nsid = some n →
    s.descriptorFree (queueOf queue) = true → s.spaceFree (queueOf queue) (startPages (queueOf queue) c.op.writeData.length) = true →
    s.payloadGrant n c.first c.op.writeData.length = some g → Completes (.writeGrant queue) s fun t =>
      (∃ v ∈ t.bridge.versions, v.fseq = f ∧ v.lba = c.first ∧ v.data = c.op.writeData ∧ v.state = .xfer ∧ v.grant = g) ∧
      (∀ e ∈ t.bridge.waiting, e.1 ≠ f)) ∧
  (∀ (s : State) (f : Nat) (v : Version) (c : Cmd), s.findVersion f = some v → v.state = .xfer → v.held = v.data.length →
    v.queue = .ordinary → s.findCmd f = some c → c.started = true → c.ready = none → c.blocks ≠ [] → s.waitsMedia c = false →
    ((s.ns v.nsid).bind fun n => piStatus n v.lba c.op) = none → Completes (.writeTransferEnd f true) s fun t =>
      ∃ c', t.findCmd f = some c' ∧ c'.ready ≠ none ∧ c'.owed = []) ∧
  (∀ (s : State) (f lba data : Nat) (page : Option Str) (c : Cmd), s.findCmd f = some c → c.block lba = some .held →
    (c.data.find? fun e => e.1 == lba) = some (lba, data, page) → (f, lba) ∉ s.bridge.poisonPages →
    Completes (.hostTransferDone f lba) s fun t => .hostData f lba data ∈ t.out ∧
      ∃ c', t.findCmd f = some c' ∧ ∀ e ∈ c'.data, e.1 ≠ lba) ∧
  (∀ (s : State) (f lba data : Nat) (x : Str) (c : Cmd), s.findCmd f = some c →
    (c.data.find? fun e => e.1 == lba) = some (lba, data, some x) → s.rd .BRG_CTRL_SPILL_EN = 1 → s.rd .BRG_VSTORE_FREE ≠ 0 →
    Completes (.readPageSpill f lba) s fun t => t.rd .BRG_STAT_SPILLED = 1 ∧
      t.rd .BRG_VSTORE_FREE = (s.rd .BRG_VSTORE_FREE - 1) % 2 ^ 21 ∧ (f, lba) ∈ t.bridge.spilled ∧
      t.rd .BRG_USE_PAGES x.num = (s.rd .BRG_USE_PAGES x.num - 1) % 2 ^ 11) ∧
  (∀ (s : State) (f : Nat) (v : Version) (e : LogEntry), s.findVersion f = some v →
    (s.bridge.log.find? fun e => e.fseq == f && !e.committed && !e.retired) = some e → v.state = .ready →
    s.bridge.rowsWaiting = [] → s.rowTokens { cls := 3, row := logRow e.row, retires := false } = true →
    Completes (.chestEntryCommit f) s fun t => ∀ e ∈ t.bridge.log, e.fseq = f → e.committed = true) ∧
  (∀ (s : State) (old newest : LogEntry), (s.bridge.log.find? fun e => !e.retired) = some old →
    s.bridge.log.getLast? = some newest → old.seq + 1024 < newest.seq → old.committed = true →
    logUsed s.bridge.log + old.rows ≤ 102400 → Completes .logEntryCopy s fun t => t.bridge.logSeq = s.bridge.logSeq + 1 ∧
      ∃ e ∈ t.bridge.log, e.seq = s.bridge.logSeq ∧ e.fseq = old.fseq ∧ e.row = (newest.row + newest.rows) % 102400) ∧
  (∀ s : State, s.rd .BRG_CFG0_WMIN * (Str.all.filter s.present).length ≤ s.wstgCells →
    s.rd .BRG_CFG1_RMIN * (Str.all.filter s.present).length ≤ s.rstgPages → s.bridge.running = false →
    Completes .bridgeGo s fun t => t.bridge.running = true ∧ t.rd .BRG_VSTORE_FREE = t.vstorePages % 2 ^ 21)

/-- What each I/O command does when its turn comes, from COMMAND_FETCH to the commit of its completion (R256 to R285). -/
def Obligations.HostIoEffects : Prop :=
  (∀ (s : State) (hqe q : Nat) (sqids cids nsids : List Nat) (ops : List HostEntry) (c : Controller) (a : Arbiter) (h : QueueHead),
    s.controller hqe = some c → s.presented hqe = true → c.enabled = true → s.bridge.running = true → s.rd .PWR_STAT_MODE ≠ 0 →
    s.rd .HQEn_OUT_OUTST (hqe * 65536) < 8192 →
    s.arbitrate hqe c (((queueHeads sqids cids nsids ops).filter fun h => h.sqid == 0 || c.sqs.any fun q => q.sqid == h.sqid).map
      (·.sqid)) = some (q, a) →
    (((queueHeads sqids cids nsids ops).filter fun h => h.sqid == 0 || c.sqs.any fun q => q.sqid == h.sqid).find? fun h =>
      h.sqid == q) = some h →
    Completes (.commandFetch hqe sqids cids nsids ops) s fun t => t.host.fseq = (s.host.fseq + 1) % 2 ^ 64 ∧
      ∃ e ∈ t.host.cmds, e.fseq = s.host.fseq ∧ e.hqe = hqe ∧ e.sqid = q ∧ e.cid = h.cid ∧ e.nsid = h.nsid ∧
        e.op = s.taken hqe h.entry) ∧
  (∀ (s : State) (f lba n : Nat) (c : Cmd), CanTake s f c → c.op = .read lba n → Completes (.nvmRead f) s fun t =>
    ∃ c', t.findCmd f = some c' ∧ c'.started = true ∧ c'.lbas = c.lbas ∧ c'.op = c.op) ∧
  (∀ (s : State) (f lba prchk : Nat) (blocks : List HostBlock) (pract fua : Bool) (c : Cmd) (n : Namespace), CanTake s f c →
    c.op = .write lba blocks pract prchk fua → s.ns c.nsid = some n → n.kind ≠ .zoned → Completes (.nvmWrite f) s fun t =>
      ∃ q, (f, q) ∈ t.bridge.waiting) ∧
  (∀ (s : State) (f zone prchk id : Nat) (blocks : List HostBlock) (pract : Bool) (c : Cmd) (r : Record), CanTake s f c →
    c.op = .append zone blocks pract prchk → s.recordOf c.nsid zone = some id → s.host.records[id]? = some r →
    Completes (.zoneAppend f) s fun t => ∃ c', t.findCmd f = some c' ∧ c'.started = true ∧
      c'.lbas = (List.range blocks.length).map fun k => zone * 131072 + r.accepted + k) ∧
  (∀ (s : State) (f : Nat) (c : Cmd), CanStart s f c → c.op = .flush →
    (∀ e ∈ s.host.cmds, e.fseq < f → e.nsid = c.nsid → e.op.isWrite = false) →
    (∀ v ∈ s.bridge.versions, v.fseq < f → v.nsid ≠ c.nsid) → Completes (.flush f) s fun t => Answered t f = some .success) ∧
  (∀ (s : State) (f lba : Nat) (blocks : List Nat) (c : Cmd), CanTake s f c → c.op = .compare lba blocks →
    Completes (.compare f) s fun t => ∃ c', t.findCmd f = some c' ∧ c'.started = true ∧ c'.lbas = c.lbas ∧ c'.op = c.op) ∧
  (∀ (s : State) (f lba n : Nat) (c : Cmd), CanTake s f c → c.op = .verify lba n → Completes (.verify f) s fun t =>
    ∃ c', t.findCmd f = some c' ∧ c'.started = true ∧ c'.lbas = c.lbas ∧ c'.op = c.op) ∧
  (∀ (s : State) (f lba k : Nat) (c : Cmd) (n : Namespace), CanTake s f c → c.op = .writeZeroes lba k → s.ns c.nsid = some n →
    Completes (.writeZeroes f) s fun t => (n.kind = .managed → Answered t f = some .success) ∧
      (n.kind = .conventional → ∃ q, (f, q) ∈ t.bridge.waiting)) ∧
  (∀ (s : State) (f : Nat) (ranges : List (Nat × Nat)) (deallocate : Bool) (c : Cmd), CanTake s f c → c.op = .dsm ranges deallocate →
    Completes (.datasetManagement f) s fun t => Answered t f = some .success) ∧
  (∀ (s : State) (f zone id : Nat) (c : Cmd) (r : Record), CanTake s f c → c.op = .zoneSend zoneOpen zone false →
    s.recordOf c.nsid zone = some id → s.host.records[id]? = some r → r.state = .implicit → Completes (.zoneOpen f) s fun t =>
      Answered t f = some .success ∧ (t.host.records[id]?).map (·.state) = some .explicit) ∧
  (∀ (s : State) (f zone id : Nat) (c : Cmd) (r : Record), CanTake s f c → c.op = .zoneSend zoneClose zone false →
    s.recordOf c.nsid zone = some id → s.host.records[id]? = some r → r.state = .explicit → Completes (.zoneClose f) s fun t =>
      Answered t f = some .success ∧
      (t.host.records[id]?).map (·.state) = some (if r.accepted = 0 then .empty else .closed)) ∧
  (∀ (s : State) (f zone id : Nat) (c : Cmd) (r : Record), CanTake s f c → c.op = .zoneSend zoneFinish zone false →
    s.recordOf c.nsid zone = some id → s.host.records[id]? = some r → r.state = .explicit → r.accepted % 64 = 0 →
    r.mp = r.accepted → Completes (.zoneFinish f) s fun t =>
      Answered t f = some .success ∧ (t.host.records[id]?).map (·.state) = some .full) ∧
  (∀ (s : State) (f zone id : Nat) (c : Cmd) (r : Record), CanTake s f c → c.op = .zoneSend zoneReset zone false →
    s.recordOf c.nsid zone = some id → s.host.records[id]? = some r → r.state = .full → s.transfersOver r.nsid r.index = true →
    Completes (.zoneReset f) s fun t => Answered t f = some .success ∧
      (t.host.records[id]?).map (fun r => (r.state, r.wp)) = some (.empty, 0)) ∧
  (∀ (s : State) (f zone id : Nat) (c : Cmd) (r : Record), CanTake s f c → c.op = .zoneSend zoneOffline zone false →
    s.recordOf c.nsid zone = some id → s.host.records[id]? = some r → r.state = .readOnly → Completes (.zoneOffline f) s fun t =>
      Answered t f = some .success ∧ (t.host.records[id]?).map (·.state) = some .offline) ∧
  (∀ (s : State) (f zone n : Nat) (c : Cmd), CanTake s f c → c.op = .zoneReceive zone n → Completes (.reportZones f) s fun t =>
    Answered t f = some .success) ∧
  (∀ (s : State) (f d0 d1 : Nat) (st : NvStatus) (c : Cmd), s.findCmd f = some c → c.ready = some (st, d0, d1) →
    s.power.loss = none → s.journalHolds c = false → c.op.isWrite = false ∨ s.wpReached c = true →
    Completes (.completionCommit f) s fun t => t.findCmd f = none)

/-- What each reservation, queue, feature, stream, log, event, self-test and security command answers and changes (R246 to
R285). -/
def Obligations.AdminEffects : Prop :=
  (∀ (s : State) (f key newKey : Nat) (ignoreKey : Bool) (ptpl : Option Bool) (c : Cmd) (n : Namespace), CanStart s f c →
    c.op = .resvRegister .register key newKey ignoreKey ptpl → s.ns c.nsid = some n → n.res.keyOf c.hostId = none →
    n.res.registrants.length < 64 → Completes (.reservationRegister f) s fun t => Answered t f = some .success ∧
      (t.ns c.nsid).map (·.res.registrants) = some (n.res.registrants ++ [(c.hostId, newKey)])) ∧
  (∀ (s : State) (f key prKey rtype : Nat) (c : Cmd) (n : Namespace), CanStart s f c → c.op = .resvAcquire .acquire key prKey rtype →
    s.ns c.nsid = some n → 1 ≤ rtype → rtype ≤ 6 → n.res.keyOf c.hostId = some key → n.res.rtype = 0 →
    Completes (.reservationAcquire f) s fun t => Answered t f = some .success ∧
      (t.ns c.nsid).map (fun n => (n.res.holder, n.res.rtype)) = some (some c.hostId, rtype)) ∧
  (∀ (s : State) (f key rtype : Nat) (c : Cmd) (n : Namespace), CanStart s f c → c.op = .resvRelease false key rtype →
    s.ns c.nsid = some n → n.res.keyOf c.hostId = some key → n.res.rtype = rtype → n.res.rtype ≠ 0 →
    n.res.holds c.hostId = true → Completes (.reservationRelease f) s fun t => Answered t f = some .success ∧
      (t.ns c.nsid).map (·.res.rtype) = some 0) ∧
  (∀ (s : State) (f : Nat) (c : Cmd) (n : Namespace), CanStart s f c → c.op = .resvReport → s.ns c.nsid = some n →
    Completes (.reservationReport f) s fun t => Answered t f = some .success ∧ .hostData f 0 n.res.generation ∈ t.out) ∧
  (∀ (s : State) (f sqid cqid size prio : Nat) (c : Cmd) (k : Controller), CanStart s f c → c.op = .createSq sqid cqid size prio →
    s.controller c.hqe = some k → 1 ≤ sqid → sqid ≤ s.nioq c.hqe → (∀ q ∈ k.sqs, q.sqid ≠ sqid) → 2 ≤ size → size ≤ 4096 →
    (∃ q ∈ k.cqs, q.1 = cqid) → Completes (.createIoSq f) s fun t => Answered t f = some .success ∧
      (t.controller c.hqe).map (·.sqs) = some (k.sqs ++ [{ sqid, cqid, size, prio, stream := none }])) ∧
  (∀ (s : State) (f cqid size : Nat) (vector : Option Nat) (c : Cmd) (k : Controller), CanStart s f c →
    c.op = .createCq cqid size vector → s.controller c.hqe = some k → 1 ≤ cqid → cqid ≤ s.nioq c.hqe → (∀ q ∈ k.cqs, q.1 ≠ cqid) →
    2 ≤ size → size ≤ 4096 → (∀ v ∈ vector, v < 65) → Completes (.createIoCq f) s fun t => Answered t f = some .success ∧
      (t.controller c.hqe).map (·.cqs) = some (k.cqs ++ [(cqid, size, vector)])) ∧
  (∀ (s : State) (f sqid : Nat) (c : Cmd) (k : Controller), CanStart s f c → c.op = .deleteSq sqid → s.controller c.hqe = some k →
    1 ≤ sqid → (∃ q ∈ k.sqs, q.sqid = sqid) → Completes (.deleteIoSq f) s fun t => Answered t f = some .success ∧
      ∀ k', t.controller c.hqe = some k' → ∀ q ∈ k'.sqs, q.sqid ≠ sqid) ∧
  (∀ (s : State) (f cqid : Nat) (c : Cmd) (k : Controller), CanStart s f c → c.op = .deleteCq cqid → s.controller c.hqe = some k →
    1 ≤ cqid → (∃ q ∈ k.cqs, q.1 = cqid) → (∀ q ∈ k.sqs, q.cqid ≠ cqid) → Completes (.deleteIoCq f) s fun t =>
      Answered t f = some .success ∧ (t.controller c.hqe).map (·.cqs) = some (k.cqs.filter fun q => q.1 != cqid)) ∧
  (∀ (s : State) (f : Nat) (c : Cmd), CanStart s f c → c.op = .identify 1 → Completes (.nvmeIdentify f) s fun t =>
    Answered t f = some .success ∧ ∀ e ∈ s.identifyCtrl c.hqe, .hostData f e.1 e.2 ∈ t.out) ∧
  (∀ (s : State) (f lid offset n : Nat) (c : Cmd), CanStart s f c → c.op = .getLog lid offset n → Completes (.getLogPage f) s fun t =>
    ((s.logPage c.hqe lid offset n).isSome = true → Answered t f = some .success) ∧
    (s.logPage c.hqe lid offset n = none → Answered t f = some .invalidLogPage)) ∧
  (∀ (s : State) (f sqid cid : Nat) (c e : Cmd), CanStart s f c → c.op = .abort sqid cid → s.abortsOf c.hqe < 4 →
    (s.host.cmds.find? fun e => e.hqe == c.hqe && e.sqid == sqid && e.cid == cid && e.fseq != f) = some e →
    s.findCmd e.fseq = some e → e.op = .flush → e.ready = none → Completes (.abort f) s fun t =>
      Answered t e.fseq = some .abortRequested ∧ (t.findCmd f).map (·.waits) = some [e.fseq]) ∧
  (∀ (s : State) (f dw11 dw12 dw13 : Nat) (c : Cmd) (k : Controller), CanStart s f c → c.op = .setFeature 0x0B dw11 dw12 dw13 false →
    s.controller c.hqe = some k → Completes (.setFeatures f) s fun t => Answered t f = some .success ∧
      (t.controller c.hqe).map (·.features) = some (storePut k.features (featureKey 0x0B dw11) dw11)) ∧
  (∀ (s : State) (f dw11 : Nat) (c : Cmd) (k : Controller), CanStart s f c → c.op = .getFeature 0x0B dw11 →
    s.controller c.hqe = some k → Completes (.getFeatures f) s fun t =>
      (t.findCmd f).map (·.ready) = some (some (.success, k.feature 0x0B, 0))) ∧
  (∀ (s : State) (f sqid dw11 dw12 dw13 : Nat) (c : Cmd) (k : Controller) (n : Namespace) (st : Stream), CanStart s f c → c.fseq = f →
    c.op = .setFeature 0xC0 dw11 dw12 dw13 false → dw11.testBit 16 = true → dw11 < 2 ^ 22 → dw12 < 2 ^ 24 → dw13 < 256 →
    sqid = dw11 % 65536 → 1 ≤ sqid → s.controller c.hqe = some k → (∃ q ∈ k.sqs, q.sqid = sqid) →
    (∀ u ∈ s.host.streams, ¬(u.hqe = c.hqe ∧ u.sqid = sqid)) → dw12 ≠ 0 → dw13 ≠ 0 →
    (s.host.namespaces.find? fun n => n.nsid == c.nsid && n.kind != .managed && n.attached.contains c.hqe) = some n →
    st = { hqe := c.hqe, slot := (s.freeStreamSlot c.hqe).getD 0, sqid, nsid := c.nsid, read := dw11.testBit 17
           mask := if dw11 / 2 ^ 18 % 16 = 0 then s.stringMask n.mask else dw11 / 2 ^ 18 % 16, bpf := dw12, dlf := dw13
           aord := s.host.aordNext, pages := 0, reached := Quad.all 0 } →
    (∀ x, st.mask.testBit x.num = true → (s.stringMask n.mask).testBit x.num = true ∧ s.present x = true ∧ s.isolated x = false) →
    s.rd .CAPO_STAT_STATE = 3 → s.host.streams.length < 16 → (s.freeStreamSlot c.hqe).isSome = true →
    (s.recordAvail st).shortStrs s.host.streams st = [] →
    st.read = false ∨ (s.recordAvail st).harpFits (s.host.streams ++ [st]) (s.rd .HARP_STAT_AVAIL) = true →
    (s.recordAvail st).streamSpaceFits st = true → Completes (.streamQueueArm f) s fun t => Answered t f = some .success ∧
      t.host.streams = s.host.streams ++ [st]) ∧
  (∀ (s : State) (f dw11 dw12 dw13 : Nat) (save : Bool) (c : Cmd) (u : Stream), CanStart s f c →
    c.op = .setFeature 0xC0 dw11 dw12 dw13 save → dw11.testBit 16 = false →
    (s.host.streams.find? fun t => t.hqe == c.hqe && t.sqid == dw11 % 65536) = some u → Completes (.streamQueueDisarm f) s fun t =>
      Answered t f = some .success ∧ t.host.streams = s.host.streams.filter fun v => !(v.hqe == u.hqe && v.slot == u.slot)) ∧
  (∀ (s : State) (f dw11 : Nat) (c : Cmd), CanStart s f c → c.op = .getFeature 0xC0 dw11 → Completes (.streamQueueGet f) s fun t =>
    Answered t f = some .success ∧ ∀ e ∈ t.host.withdrawn, e.1 = c.hqe → e.2.1 = dw11 % 65536 → e.2.2.1 = false) ∧
  (∀ (s : State) (f dw11 : Nat) (c : Cmd), CanStart s f c → c.op = .getFeature 0xC1 dw11 → Completes (.streamCapacityGet f) s fun t =>
    Answered t f = some .success) ∧
  (∀ (s : State) (f dw11 dw12 dw13 : Nat) (c : Cmd), CanStart s f c → c.op = .setFeature 0xC4 dw11 dw12 dw13 false →
    Completes (.telemetryPeriodSet f) s fun t => Answered t f = some .success ∧ t.host.telemetryMs = dw11 % 65536) ∧
  (∀ (s : State) (f type info : Nat) (later : List (Nat × Nat)) (c : Cmd) (k : Controller), CanStart s f c → c.op = .asyncEvent →
    s.controller c.hqe = some k → k.events = (type, info) :: later → Completes (.asynchronousEventRequest f) s fun t =>
      (t.findCmd f).map (·.ready) = some (some (.success, eventDword type info, 0)) ∧
      (t.controller c.hqe).map (·.events) = some later) ∧
  (∀ (s : State) (f : Nat) (passed : Bool) (c : Cmd), CanStart s f c → c.op = .selfTest 1 → Completes (.deviceSelfTest f passed) s fun t =>
    Answered t f = some .success ∧ t.host.selfTests.head? = some (16 + if passed then 0 else 7)) ∧
  (∀ (s : State) (f protocol : Nat) (c : Cmd), CanStart s f c → c.op = .securitySend protocol → Completes (.securitySend f) s fun t =>
    Answered t f = some (if protocol = 0 then .success else .invalidField)) ∧
  (∀ (s : State) (f protocol : Nat) (c : Cmd), CanStart s f c → c.op = .securityReceive protocol →
    Completes (.securityReceive f) s fun t => Answered t f = some (if protocol = 0 then .success else .invalidField) ∧
      (protocol = 0 → .hostData f 0 0 ∈ t.out))

/-- What the namespace commands do where their checks pass (R240 to R252, R313 to R319). -/
def Obligations.NamespaceEffects : Prop :=
  (∀ (s : State) (f k : Nat) (fields : NsFields) (c : Cmd), CanStart s f c → c.op = .nsCreate fields → s.nsBusy = false →
    s.createCheck fields = none → (s.cab.slots.findIdx? fun e => e.state == .free) = some k → s.opRefused 0 k = false →
    Completes (.namespaceCreate f) s fun t => t.cab.ops = s.cab.ops ++ [{ op := 0, slot := k, command := some f }] ∧
      t.rd .CAB_STAT_BUSY = 1 ∧ (t.findCmd f).map (·.accepted) = some true) ∧
  (∀ (s : State) (f : Nat) (c : Cmd) (n : Namespace), CanStart s f c → c.op = .nsDelete → s.nsBusy = false →
    s.ns c.nsid = some n → s.opRefused 1 n.slot = false → Completes (.namespaceDelete f) s fun t =>
      t.cab.ops = s.cab.ops ++ [{ op := 1, slot := n.slot, command := some f }] ∧
      (t.ns c.nsid).map (·.attached) = some [] ∧ (t.findCmd f).map (·.accepted) = some true) ∧
  (∀ (s : State) (f : Nat) (ids ks : List Nat) (c : Cmd) (n : Namespace), CanStart s f c → c.op = .nsAttach ids →
    s.ns c.nsid = some n → s.controllerList ids = some ks → (∀ k ∈ ks, k ∉ n.attached) →
    n.shared = true ∨ n.attached.length + ks.length ≤ 1 → Completes (.namespaceAttach f) s fun t =>
      Answered t f = some .success ∧ (t.ns c.nsid).map (·.attached) = some (n.attached ++ ks)) ∧
  (∀ (s : State) (f : Nat) (ids ks : List Nat) (c : Cmd) (n : Namespace), CanStart s f c → c.op = .nsDetach ids →
    s.ns c.nsid = some n → s.controllerList ids = some ks → (∀ k ∈ ks, k ∈ n.attached) →
    (∀ e ∈ s.host.cmds, e.nsid = c.nsid → e.hqe ∈ ks → e.op.isIo = false) → Completes (.namespaceDetach f) s fun t =>
      Answered t f = some .success ∧ (t.ns c.nsid).map (·.attached) = some (n.attached.filter fun k => !ks.contains k)) ∧
  (∀ (s : State) (f : Nat) (c : Cmd), CanStart s f c → c.op = .format → s.nsBusy = false → s.formatTargets c.nsid ≠ [] →
    (∀ n ∈ s.formatTargets c.nsid, s.opRefused 2 n.slot = false) → Completes (.formatNvm f) s fun t =>
      (t.findCmd f).map (·.accepted) = some true ∧ t.rd .CAB_STAT_BUSY = 1 ∧
      ∀ n ∈ s.formatTargets c.nsid, { op := 2, slot := n.slot, command := some f } ∈ t.cab.ops) ∧
  (∀ (s : State) (f : Nat) (c : Cmd), CanStart s f c → c.op = .sanitize 4 → s.nsBusy = false → s.host.namespaces ≠ [] →
    (∀ n ∈ s.host.namespaces, s.opRefused 2 n.slot = false) → Completes (.sanitizeCryptoErase f) s fun t =>
      (t.findCmd f).map (·.accepted) = some true ∧ t.host.sanitizeLog = [2] ∧
      ∀ n ∈ s.host.namespaces, { op := 2, slot := n.slot, command := some f } ∈ t.cab.ops) ∧
  (∀ (s : State) (slot : Nat) (later : List SlotOp), s.cab.ops = { op := 1, slot, command := none } :: later →
    s.slotNamed slot = false → slot < s.cab.slots.length → (s.keySlot slot).state ≠ .exhausted → Completes .slotOpComplete s fun t => t.cab.ops = later ∧
      t.rd .CAB_STAT_DONE = 1 ∧ (t.keySlot slot).state = .free ∧ (t.keySlot slot).key = 0)

/-- What the port, controller and NVMe-MI commands do where they act (R240 to R255). -/
def Obligations.PortEffects : Prop :=
  (∀ (s : State) (port : Nat), s.portExists port = true → port < s.host.perst.length → Completes (.perstAssert port) s fun t =>
    t.host.perst.getD port false = true ∧ t.host.training.getD port false = false ∧ t.rd (portRegs port).1 = 0) ∧
  (∀ (s : State) (port : Nat) (wake : PowerIn), s.portExists port = true → s.host.perst.getD port false = true →
    port < s.host.training.length → s.rd .PWR_STAT_MODE ≠ 0 → Completes (.perstDeassert port wake) s fun t =>
      t.host.perst.getD port false = false ∧ t.host.training.getD port false = true) ∧
  (∀ (s : State) (port speed width : Nat), s.portExists port = true → s.host.training.getD port false = true →
    Completes (.linkTrained port speed width) s fun t => t.rd (portRegs port).1 = 1 ∧ t.host.training.getD port false = false ∧
      t.rd (portRegs port).2.2 = linkWidth (min (if s.isSet .PCIE_CFG_DUAL then 2 else 4) width)) ∧
  (∀ (s : State) (port : Nat), s.portExists port = true → s.rd (portRegs port).1 = 1 → port < s.host.training.length →
    Completes (.dlDown port) s fun t => t.rd (portRegs port).1 = 0 ∧ t.host.training.getD port false = true ∧
      t.rd (if port = 0 then .PCIE_STAT_DLDN0 else .PCIE_STAT_DLDN1) = 1) ∧
  (∀ (s : State) (hqe : Nat) (c : Controller), s.controller hqe = some c → c.enabled = true → Completes (.ccEnClear hqe) s fun t =>
    t.rd .HQEn_STAT_EN (hqe * 65536) = 0 ∧ t.rd .HQEn_STAT_RDY (hqe * 65536) = 0 ∧
      t.controller hqe = some { Controller.atReset with wasReset := true }) ∧
  (∀ (s : State) (hqe ams : Nat) (c : Controller), s.controller hqe = some c → c.enabled = false → s.presented hqe = true →
    Completes (.ccEnSet hqe ams) s fun t => t.rd .HQEn_STAT_EN (hqe * 65536) = 1 ∧
      t.controller hqe = some { c with enabled := true, ams, starting := true }) ∧
  (∀ (s : State) (hqe : Nat) (c : Controller), s.controller hqe = some c → c.starting = true →
    Completes (.controllerReady hqe) s fun t => t.rd .HQEn_STAT_RDY (hqe * 65536) = 1 ∧
      t.controller hqe = some { c with starting := false, wasReset := false } ∧
      (c.wasReset = true → t.rd .HQEn_STAT_RST_DONE (hqe * 65536) = 1)) ∧
  (∀ (s : State) (hqe : Nat), s.presented hqe = true → Completes (.functionLevelReset hqe) s fun t =>
    t.rd .HQEn_STAT_EN (hqe * 65536) = 0 ∧ t.rd .HQEn_STAT_RDY (hqe * 65536) = 0) ∧
  (∀ (s : State) (hqe : Nat), s.presented hqe = true → Completes (.forceRst hqe) s fun t =>
    t.rd .HQEn_STAT_EN (hqe * 65536) = 0 ∧ t.rd .HQEn_STAT_RDY (hqe * 65536) = 0) ∧
  (∀ (s : State) (k : Nat) (wake : PowerIn), s.rd .PWR_STAT_MODE ≠ 0 → Completes (.nvmeMiReadDataStructure 3 k wake) s fun t =>
    .mi 0 (k + 1) ∈ t.out ∧ .mi 1 (s.portOf k) ∈ t.out ∧ .mi 2 0x4810 ∈ t.out) ∧
  (∀ (s : State) (wake : PowerIn), s.rd .PWR_STAT_MODE ≠ 0 → Completes (.nvmSubsystemHealthPoll wake) s fun t =>
    .mi 1 s.criticalWarning ∈ t.out ∧ .mi 2 s.composite ∈ t.out ∧ .mi 3 s.percentUsed ∈ t.out) ∧
  (∀ (s : State) (k : Nat) (wake : PowerIn), s.rd .PWR_STAT_MODE ≠ 0 → Completes (.controllerHealthPoll k wake) s fun t =>
    .mi 0 (k + 1) ∈ t.out ∧ .mi 2 s.composite ∈ t.out ∧ .mi 3 s.percentUsed ∈ t.out) ∧
  (∀ (s : State) (id value : Nat) (wake : PowerIn), s.rd .PWR_STAT_MODE ≠ 0 → 1 ≤ id → id ≤ 3 →
    Completes (.configurationSet id value wake) s fun t => t.host.miConfig = storePut s.host.miConfig id (value % 2 ^ 32)) ∧
  (∀ (s : State) (id : Nat) (wake : PowerIn), s.rd .PWR_STAT_MODE ≠ 0 → Completes (.configurationGet id wake) s fun t =>
    .mi 0 ((storeFind s.host.miConfig id).getD 0) ∈ t.out) ∧
  (∀ (s : State) (offset n v : Nat) (wake : PowerIn), s.rd .PWR_STAT_MODE ≠ 0 → 1 ≤ n → storeFind s.host.vpd offset = some v →
    Completes (.vpdRead offset n wake) s fun t => .mi offset v ∈ t.out) ∧
  (∀ (s : State) (offset b : Nat) (wake : PowerIn), s.rd .PWR_STAT_MODE ≠ 0 → Completes (.vpdWrite offset [b] wake) s fun t =>
    t.host.vpd = storePut s.host.vpd offset (b % 256)) ∧
  (∀ (s : State) (wake : PowerIn), s.rd .PWR_STAT_MODE ≠ 0 → Completes (.basicManagementCommand wake) s fun t =>
    .mi 0 (boolNat s.serves) ∈ t.out ∧ .mi 1 s.criticalWarning ∈ t.out ∧ .mi 3 s.percentUsed ∈ t.out)

/-- What the L2 caches and the memory instances do where the commands act (R401 to R422). -/
def Obligations.MemoryIntegrityEffects : Prop :=
  (∀ (s : State) (n : Nat), n < 4 → n < s.memory.caches.length → s.rd .L2n_MAINT_OP (l2Ix n) ≠ 3 → (s.cache n).running = none →
    s.rd .L2n_STAT_WALK (l2Ix n) = 0 → Completes (.l2MaintGo n) s fun t =>
      ((t.cache n).running.map fun o => (o.op, o.set, o.way)) =
        some (s.rd .L2n_MAINT_OP (l2Ix n), s.rd .L2n_MAINT_SET (l2Ix n), s.rd .L2n_MAINT_WAY (l2Ix n))) ∧
  (∀ (s : State) (n : Nat), n < 4 → s.rd .L2n_MAINT_OP (l2Ix n) = 3 → Completes (.l2MaintGo n) s fun t =>
    t.rd .L2n_STAT_MERR (l2Ix n) = 1 ∧ t.cache n = s.cache n) ∧
  (∀ (s : State) (n : Nat) (o : L2Op), (s.cache n).running = some o → Completes (.l2MaintDone n) s fun t =>
    t.rd .L2n_STAT_MDONE (l2Ix n) = 1 ∧ ((s.cache n).queued = none → (t.cache n).running = none)) ∧
  (∀ (s : State) (n : Nat), n < 4 → Completes (.l2Disable n) s fun t => t.rd .L2n_CTRL_EN (l2Ix n) = 0 ∧
    (s.rd .L2n_STAT_ENABLED (l2Ix n) = 1 → t.rd .L2n_STAT_WALK (l2Ix n) ≠ 0)) ∧
  (∀ (s : State) (n writeNs : Nat) (bad : List Nat), s.rd .L2n_STAT_WALK (l2Ix n) = 1 → Completes (.disableWalkEnd n writeNs bad) s fun t =>
    t.rd .L2n_STAT_WALK (l2Ix n) = 0 ∧ t.rd .L2n_STAT_ENABLED (l2Ix n) = boolNat (s.isSet .L2n_CTRL_EN (l2Ix n)) ∧
    (t.cache n).lines = []) ∧
  (∀ (s : State) (n e : Nat), n < 4 → e < 16 → s.rd .L2n_RAT_CTL_VALID (l2Ix n e) = 1 → Completes (.ratInvalidate n e) s fun t =>
    t.rd .L2n_RAT_CTL_VALID (l2Ix n e) = 0) ∧
  (∀ (s : State) (m : Nat), m < 48 → Completes (.bucketLeak m none) s fun t =>
    t.rd .MI_I_STAT_LEVEL m = (s.rd .MI_I_STAT_LEVEL m - 1) % 2 ^ 8) ∧
  (∀ (s : State) (m a synd : Nat), m < 48 → Completes (.bucketLeak m (some (a, synd))) s fun t =>
    t.rd .MI_I_STAT_LEVEL m = s.rd .MI_I_STAT_LEVEL m ∧
    t.rd .MI_I_CE_COUNT m = min (2 ^ 32 - 1) (s.rd .MI_I_CE_COUNT m + 1)) ∧
  (∀ (s : State) (m a : Nat) (result : ScrubResult), s.scrubs m a = true → s.scrubFinds a result = .clean →
    Completes (.scrubStep m a result false) s fun t => t.memory.asked = s.memory.asked.filter (· != a / 8 * 8)) ∧
  (∀ (s : State) (m a synd : Nat) (result : ScrubResult), s.scrubs m a = true → s.scrubFinds a result = .corrected synd →
    Completes (.scrubStep m a result false) s fun t =>
      t.rd .SCB_MS_CNT0_FIXED = min (2 ^ 16 - 1) (s.rd .SCB_MS_CNT0_FIXED + 1)) ∧
  (∀ (s : State) (m : MemRegion), s.rd .PWR_STAT_MODE = 7 → s.target s.diagAddr = .memory m → Completes .rawrd s fun t =>
    t.rd .MI_DIAG_CMD_DONE = 1 ∧ t.rd .MI_DIAG_DLO_DATA = (s.readMem m s.diagAddr 8).1 % 2 ^ 32) ∧
  (∀ (s : State) (m : MemRegion), s.rd .PWR_STAT_MODE = 7 → s.target s.diagAddr = .memory m → Completes .rawwr s fun t =>
    t.rd .MI_DIAG_CMD_DONE = 1 ∧
    t.mem = (s.regionWrite m s.diagAddr (s.rd .MI_DIAG_DLO_DATA + s.rd .MI_DIAG_DHI_DATA * 2 ^ 32) 8).mem) ∧
  (∀ (s : State) (m : Nat), m < 45 → Completes (.fill m) s fun t => t.rd .MI_I_STAT_FILL_BUSY m = 1) ∧
  (∀ (s : State) (m : Nat), m < 45 → s.rd .MI_I_STAT_FILL_BUSY m = 1 → Completes (.fillComplete m) s fun t =>
    t.rd .MI_I_STAT_FILL_BUSY m = 0 ∧ t.rd .MI_I_CFG_INIT_MODE m = 0 ∧ m ∈ t.memory.filled)

/-- What the power commands and events do where they act, a clause or more for each (R423 to R438, R482). -/
def Obligations.PowerEffects : Prop :=
  (∀ (s : State) (v12 v5 : Bool) (vm time : Nat), s.rd .PWR_STAT_MODE ≠ 0 → s.power.loss = none →
    Completes (.powerLossEvent v12 v5 vm time) s fun t => t.power.loss = some time ∧ t.rd .SB_STAT_PWRLOSS = 1 ∧
      t.rd .PWR_RETLOG_PARKED = 0 ∧ t.rd .PWR_RETLOG_VM_MIN = min 255 vm ∧ t.cal.runs = [] ∧
      t.rd .SB_STAT_V12_OK = boolNat v12 ∧ t.rd .SB_STAT_V5_OK = boolNat v5) ∧
  (∀ (s : State) (x : Str) (vm : Nat), s.present x = true → s.power.loss ≠ none → s.rd .SCEx_STAT_STATE x.ix = 5 →
    (s.str.get x).sce.emergency = true → Completes (.retractStagger x vm) s fun t => (t.str.get x).sce.turn = true ∧
      (vm < s.rd .PWR_RETCFG_VM_RETMIN → t.power.vmLow = true) ∧
      ((s.str.get x).sce.step = .waiting → s.power.vmLow = false → s.rd .PWR_RETCFG_VM_RETMIN ≤ vm →
        (t.str.get x).sce.step = .velocity)) ∧
  (∀ (s : State) (vm : Nat), s.power.vmLow = true → s.rd .PWR_RETCFG_VM_RETMIN + 5 < vm → Completes (.vmRetminRecover vm) s fun t =>
    t.power.vmLow = false) ∧
  (∀ (s : State) (p : PowerIn), s.power.loss = none → s.rd .PWR_STAT_MODE ≠ 0 → s.rd .SB_STAT_V12_OK = 0 → p.rails = false →
    Completes (.supplyGood p) s fun t => t.power.mainpwr = true ∧ t.power.railWait = true ∧ t.rd .SB_STAT_V12_OK = 1 ∧
      t.rd .SB_STAT_V5_OK = 1) ∧
  (∀ (s : State) (p : PowerIn), s.power.loss ≠ none → Str.all.any s.loaded = true → Completes (.supplyGood p) s fun t =>
    t.power.supplyDue = some p ∧ t.power.loss = s.power.loss) ∧
  (∀ s : State, s.power.startDue = false → Completes .vmCharged s fun t => t.spe.vmCharged = true) ∧
  (∀ (s : State) (temp : Nat) (p : PowerIn), s.rd .PWR_STAT_MODE = 0 → (s.rd .SB_WAKE_EN).testBit 3 = true →
    s.rd .SB_WAKE_TW_TH < temp → s.power.railHeld = false → p.rails = false → Completes (.thermalWake temp p) s fun t =>
      t.rd .SB_STAT_WSRC = 4 ∧ t.power.mainpwr = true) ∧
  (∀ (s : State) (p : PowerIn), s.rd .PWR_STAT_MODE ≠ 0 → Completes (.capoActivity p) s fun t => t.rd .SB_STAT_CAPO_ACT = 1) ∧
  (∀ (s : State) (p : PowerIn), s.rd .PWR_STAT_MODE ≠ 0 → s.isSet .SB_ALARM_SEC = true → s.rd .SB_RTC_SEC ≤ s.rd .SB_ALARM_SEC →
    Completes (.rtcAlarm p) s fun t => t.rd .SB_RTC_SEC = s.rd .SB_ALARM_SEC % 2 ^ 32) ∧
  (∀ s : State, s.rd .PWR_STAT_MODE = 1 → s.isSet .PWR_CTRL_AUTODORM = true → s.allPerst = true → s.bur.requests = [] →
    Completes .dormantTimeout s fun t => t.rd .PWR_STAT_MODE = 0 ∧ t.power.mainpwr = false ∧ t.rd .BNCH_STAT_SESSION = 0) ∧
  (∀ s : State, s.mediaWork = false → s.host.streams = [] → Completes .idleTimeout s fun t =>
    (s.rd .PWR_STAT_MODE = 4 → t.rd .PWR_STAT_MODE = 3) ∧ (s.rd .PWR_STAT_MODE = 6 → t.rd .PWR_STAT_SUB = 0)) ∧
  (∀ s : State, s.rd .PWR_STAT_MODE = 1 → s.bur.requests = [] → (∀ c ∈ s.host.cmds, c.ready.isSome = true) →
    Completes .bureauRegate s fun t => t.bur.gated = true) ∧
  (∀ (s : State) (mask : Nat) (x : Str), s.rd .PWR_STAT_MODE = 7 → mask.testBit x.num = true → Completes (.strlostClr mask) s fun t =>
    t.isLost x = false) ∧
  (∀ (s : State) (mask : Nat), s.rd .PWR_STAT_MODE ≠ 7 → Completes (.strlostClr mask) s fun t =>
    t.rd .PWR_STAT_CFG_LOCKED = 1 ∧ ∀ x : Str, t.isLost x = s.isLost x) ∧
  (∀ (s : State) (d value mask : Nat), 48 ≤ d → d < 80 → value.testBit (d % 32) = true → mask.testBit (d % 32) = true →
    Completes (.domainRequest (d / 32) value mask) s fun t => (t.rd .PWR_DOMSTAT_ON (d / 32)).testBit (d % 32) = true) ∧
  (∀ (s : State) (v12 v5 : Bool) (vm time : Nat) (p : PowerIn), s.rd .PWR_STAT_MODE ≠ 0 → s.power.loss = none →
    Completes (.railUndervoltage false v12 v5 vm time p) s fun t => t.power.loss = some time ∧ t.rd .SB_STAT_PWRLOSS = 1) ∧
  (∀ (s : State), s.power.mainpwr = true → s.power.railWait = true → Completes .railTimeout s fun t => t.power.mainpwr = false ∧
    t.power.railFails = s.power.railFails + 1 ∧ (t.power.railHeld = true ↔ 3 ≤ s.power.railFails + 1)) ∧
  (∀ (s : State) (p : PowerIn), s.power.mainpwr = false → s.power.railFails ≠ 0 → s.power.railHeld = false → p.rails = false →
    Completes (.mainpwrRetry p) s fun t => t.power.mainpwr = true ∧ t.power.railWait = true) ∧
  (∀ (s : State) (d : Nat), d < 40 → s.present (Str.ofNum (d / 10)) = true → s.isLost (Str.ofNum (d / 10)) = false →
    Completes (.powerDomainFault d) s fun t => t.isLost (Str.ofNum (d / 10)) = true)

/-- What the Peg, thermal and calibration commands do where they act (R439 to R457). -/
def Obligations.TrimAndThermalEffects : Prop :=
  (∀ (s : State) (n : Nat), s.power.loss = none → n < 12 → Completes (.pegTick none) s fun t =>
    t.rd .CAL_PEG_V_VALUE n = pegStep (s.rd .CAL_PEG_T_TARGET n) (s.rd .CAL_PEG_V_VALUE n) % 2 ^ Reg.CAL_PEG_V_VALUE.row.width) ∧
  (∀ (s : State) (x : Str) (n : Nat), s.power.loss = none → s.present x = true → n < 12 → Completes (.pegTick (some x)) s fun t =>
    t.rd .PEGx_V_VALUE (x.ix n) =
      pegStep (s.rd .PEGx_T_TARGET (x.ix n)) (s.rd .PEGx_V_VALUE (x.ix n)) % 2 ^ Reg.PEGx_V_VALUE.row.width) ∧
  (∀ (s : State) (temps : List Int) (hookStep i : Nat), s.rd .PWR_STAT_MODE ≠ 0 → i ∈ s.sensors →
    Completes (.thermalSample temps hookStep) s fun t =>
      t.rd .THR_SNS_T i = ofSigned 12 (clampInt (-2048) 2047 (temps.getD i 0))) ∧
  (∀ s : State, s.rd .PWR_STAT_MODE ≠ 0 → Completes .throttleTick s fun t =>
    t.therm.level = if 440 ≤ s.tj then min 8 (s.therm.level + 1) else if s.tj < 420 then s.therm.level - 1 else s.therm.level) ∧
  (∀ (s : State) (n : Nat) (x : Str), s.present x = true → n < 8 → s.calDue n x = true → s.hostWork x = false →
    (∀ c ∈ s.cal.runs, c.mask ≠ if s.rd .CAL_SCH_SCRIPT n = 8 then 0 else x.bit) →
    s.calReady (s.rd .CAL_SCH_SCRIPT n) (if s.rd .CAL_SCH_SCRIPT n = 8 then 0 else x.bit) (s.aeHead x) = true →
    Completes (.calScheduleDue n x) s fun t => t.rd .CAL_STAT_BUSY = 1 ∧ t.rd .CAL_STAT_SCRIPT = s.rd .CAL_SCH_SCRIPT n ∧
      ∃ c ∈ t.cal.runs, c.script = s.rd .CAL_SCH_SCRIPT n ∧ c.entry = some n ∧ c.yielded = false) ∧
  (∀ (s : State) (mask : Nat) (c : CalRun), s.cal.runs.find? (fun c => c.mask == mask && c.yielded) = some c →
    s.hostWork (runStr mask) = false → s.calCondition c.script (runStr mask) c.head = true → c.script ≠ 6 →
    Completes (.scriptResume mask) s fun t => ∀ d ∈ t.cal.runs, d.mask = mask → d.yielded = false) ∧
  (∀ (s : State) (x : Str) (ecs pes : Nat) (c : CalRun), s.present x = true → s.tdRun x = some c → c.contact = none →
    c.yielded = false → c.request ≠ none → s.calCondition c.script (runStr c.mask) c.head = true → s.rd .AEx_STAT_STATE x.ix = 5 →
    (tdTest c (s.rd .AEx_CALHTR_HTR x.ix) (s.rd .CAL_TD_TD_FLAT) (s.rd .CAL_TD_TD_PES) ecs pes).1 = none →
    Completes (.tdStep x ecs pes) s fun t =>
      (s.rd .AEx_CALHTR_HTR x.ix < s.rd .AEx_H_HLIM_HTR_MAX (x.ix c.head) → t.rd .AEx_CALHTR_HTR x.ix =
        min (s.rd .AEx_H_HLIM_HTR_MAX (x.ix c.head)) (s.rd .AEx_CALHTR_HTR x.ix + s.eff .CAL_TD_TD_STEP) % 2 ^ Reg.AEx_CALHTR_HTR.row.width) ∧
      (s.rd .AEx_H_HLIM_HTR_MAX (x.ix c.head) ≤ s.rd .AEx_CALHTR_HTR x.ix → t.rd .AEx_CALHTR_HTR x.ix = 0 ∧
        t.rd .CAL_STAT_DONE = 1 ∧ t.rd .CAL_STAT_RESULT = CStat.code .calNoContact)) ∧
  (∀ s : State, Completes .calAbort s fun t => t.cal.runs = []) ∧
  (∀ (s : State) (mask : Nat) (values : List Int) (c : CalRun), s.cal.runs.find? (fun c => c.mask == mask && c.script != 6) = some c →
    c.yielded = false → c.request ≠ none → s.calCondition c.script (runStr c.mask) c.head = true →
    Completes (.calScriptStep mask (some values)) s fun t => t.rd .CAL_STAT_DONE = 1 ∧
      t.cal.runs = s.cal.runs.filter (fun d => d.mask != mask) ∧
      ∀ e ∈ (calTargets c.script (runStr c.mask)).zip values, targetFits e.1.1 e.2 = true →
        t.rd e.1.1 e.1.2 = ofSigned e.1.1.row.width e.2)

/-- What the core commands and events do (R377 to R380, R399). -/
def Obligations.CoreEffects : Prop :=
  (∀ (s : State) (c : Nat), c < 16 → s.coreState c = 0 → s.rd .BNCH_STAT_HALTED = 0 → Completes (.coreWatchdog c) s fun t =>
    t.rd .BURn_STAT_WDOG (coreIx c) = 1 ∧
    (s.lastCore c = false → (∃ e ∈ s.bur.expiries, e.1 = c ∧ s.rd .SB_RTC_SEC ≤ e.2 + 86400) →
      t.coreState c = 3 ∧ t.rd .BURn_STAT_CAUSE_LAST (coreIx c) = 2) ∧
    ((∀ e ∈ s.bur.expiries, e.1 = c → e.2 + 86400 < s.rd .SB_RTC_SEC) → t.coreState c = 0)) ∧
  (∀ (s : State) (c : Nat), c < 16 → s.coreState c = 0 → s.lastCore c = false → Completes (.machineCheck c) s fun t =>
    t.coreState c = 3 ∧ t.rd .BURn_STAT_CAUSE_LAST (coreIx c) = 1 ∧ t.rd .BURn_STAT_CORE_RET (coreIx c) = 1) ∧
  (∀ (s : State) (c : Nat), c < 16 → s.coreState c = 0 → s.lastCore c = true → Completes (.machineCheck c) s fun t => t.coreState c = 0) ∧
  (∀ (s : State) (c : Nat), c < 16 → s.coreState c = 2 → Completes (.coreSelfTest c true) s fun t => t.coreState c = 0) ∧
  (∀ (s : State) (c : Nat), c < 16 → s.coreState c = 2 → Completes (.coreSelfTest c false) s fun t =>
    t.coreState c = 3 ∧ t.rd .BURn_STAT_CAUSE_LAST (coreIx c) = 3) ∧
  (∀ (s : State) (n k : Nat), n < 4 → k < 4 → s.coreState (4 * n + k) = 0 → s.lastCore (4 * n + k) = false →
    Completes (.burRetire n (2 ^ k)) s fun t =>
      t.coreState (4 * n + k) = 3 ∧ t.rd .BURn_STAT_CAUSE_LAST (coreIx (4 * n + k)) = 4) ∧
  (∀ (s : State) (n k : Nat), n < 4 → k < 4 → s.rd .PWR_STAT_MODE = 7 → s.coreState (4 * n + k) = 3 →
    Completes (.burUnretire n (2 ^ k)) s fun t => t.coreState (4 * n + k) = 2) ∧
  (∀ (s : State) (n mask : Nat), n < 4 → s.rd .PWR_STAT_MODE ≠ 7 → Completes (.burUnretire n mask) s fun t =>
    t.rd .BURn_STAT_CFG_LOCKED (n * 65536) = 1 ∧ ∀ c, t.coreState c = s.coreState c)

/-- How packets come in and replies go out (R383 to R390). -/
def Obligations.CiborPacketEffects : Prop :=
  (∀ (s : State) (source : Nat) (packet : List Nat), source < 9 →
    s.ciborCheck (packetRequest source s.bur.order packet) packet = none →
    segmented (packetRequest source s.bur.order packet).opcode = false → Completes (.ciborRequest source packet) s fun t =>
      t.bur.requests = s.bur.requests ++ [packetRequest source s.bur.order packet] ∧ t.bur.order = s.bur.order + 1 ∧ t.bur.gated = false) ∧
  (∀ (s : State) (source : Nat) (packet : List Nat) (st : CStat), source < 9 →
    s.ciborCheck (packetRequest source s.bur.order packet) packet = some st → Completes (.ciborRequest source packet) s fun t => t.bur = s.bur) ∧
  (∀ (s : State) (packet : List Nat), s.benchOpen = true → s.ciborCheck (packetRequest 9 s.bur.order packet) packet = none →
    segmented (packetRequest 9 s.bur.order packet).opcode = false → Completes (.ciborRequest 9 packet) s fun t =>
      t.bur.requests = s.bur.requests ++ [packetRequest 9 s.bur.order packet]) ∧
  (∀ (s : State) (packet : List Nat) (st : CStat), s.benchOpen = true →
    s.ciborCheck (packetRequest 9 s.bur.order packet) packet = some st → Completes (.ciborRequest 9 packet) s fun t =>
      st ≠ .ok → t.out = .frameStatus (leField packet 4 2) st :: s.out) ∧
  (∀ (s : State) (source : Nat) (packet bytes : List Nat), source < 9 →
    s.ciborCheck (packetRequest source s.bur.order packet) packet = none →
    segmented (packetRequest source s.bur.order packet).opcode = true →
    s.segmentBytes (packetRequest source s.bur.order packet) = some bytes → bytes.length ≤ 1048576 →
    Completes (.ciborRequest source packet) s fun t =>
      ((packetRequest source s.bur.order packet).last = true →
        t.bur.requests = s.bur.requests ++ [{ packetRequest source s.bur.order packet with payload := bytes }] ∧
        ∀ e ∈ t.bur.transfers, e.source ≠ source) ∧
      ((packetRequest source s.bur.order packet).last = false →
        { source, opcode := (packetRequest source s.bur.order packet).opcode, id := (packetRequest source s.bur.order packet).param 0, bytes }
          ∈ t.bur.transfers)) ∧
  (∀ (s : State) (source : Nat) (packet : List Nat), source < 9 →
    s.ciborCheck (packetRequest source s.bur.order packet) packet = none →
    segmented (packetRequest source s.bur.order packet).opcode = true →
    s.segmentBytes (packetRequest source s.bur.order packet) = none → Completes (.ciborRequest source packet) s fun t =>
      t.bur.requests = s.bur.requests ∧ ∀ e ∈ t.bur.transfers, e.source ≠ source) ∧
  (∀ (s : State) (f : Nat) (c : Cmd) (bs : List Nat), CanStart s f c → c.op = .ciborSend bs →
    Completes (.ciborSend f) s fun t =>
      (s.ciborCheck (packetRequest c.hqe s.bur.order bs) bs = none → segmented (packetRequest c.hqe s.bur.order bs).opcode = false →
        Answered t f = some .success ∧ t.bur.requests = s.bur.requests ++ [packetRequest c.hqe s.bur.order bs]) ∧
      (∀ st, s.ciborCheck (packetRequest c.hqe s.bur.order bs) bs = some st → st ≠ .ok → Answered t f = some .invalidField ∧ t.bur = s.bur)) ∧
  (∀ (s : State) (f numd tag wait : Nat) (any : Bool) (c : Cmd), CanStart s f c → c.op = .ciborReceive numd tag any wait →
    Completes (.ciborReceive f) s fun t =>
      (s.replyFor c.hqe tag any = none → wait = 0 → Answered t f = some .success) ∧
      (s.replyFor c.hqe tag any = none → wait ≠ 0 → Answered t f = none ∧ (t.findCmd f).map (·.started) = some true) ∧
      (∀ r, s.replyFor c.hqe tag any = some r → Answered t f = some .success ∧
        ((wordsOf r.bytes).length ≤ numd → ∀ e ∈ t.bur.replies, e.source = r.source → e.tag ≠ r.tag))) ∧
  (∀ (s : State) (source tag : Nat), Completes (.replyExpiry source tag) s fun t =>
    ∀ e ∈ t.bur.replies, e.source = source → e.tag ≠ tag) ∧
  (∀ (s : State) (f numd tag wait : Nat) (any : Bool) (c : Cmd), s.findCmd f = some c → c.op = .ciborReceive numd tag any wait →
    c.started = true → c.ready = none → Completes (.replyWaitExpiry f) s fun t => Answered t f = some .success) ∧
  (∀ (s : State) (k nsid : Nat) (bs : List Nat) (wake : PowerIn), s.rd .PWR_STAT_MODE ≠ 0 →
    s.ciborCheck (packetRequest 8 s.bur.order bs) bs = none → segmented (packetRequest 8 s.bur.order bs).opcode = false →
    Completes (.miTunnelledAdmin k nsid (.ciborSend bs) wake) s fun t =>
      t.bur.requests = s.bur.requests ++ [packetRequest 8 s.bur.order bs] ∧ t.out = .miStatus .success (leField bs 4 2) :: s.out) ∧
  (∀ (s : State) (k nsid numd tag wait : Nat) (any : Bool) (wake : PowerIn), s.rd .PWR_STAT_MODE ≠ 0 → s.replyFor 8 tag any = none →
    Completes (.miTunnelledAdmin k nsid (.ciborReceive numd tag any wait) wake) s fun t => t.out = .miStatus .success (2 ^ 31) :: s.out)

/-- What each opcode does for a request that is due, with the reply it gives (R391 to R400). Replied says: the request is
done and, where no C1h waits, its reply waits to be fetched. -/
def Obligations.ManagementEffects : Prop :=
  (∀ (s : State) (source tag : Nat) (r : CiborRequest), s.dueRequest 0x0100 source tag = some r → Completes (.identify source tag) s fun t =>
    ∃ version payload, Replied s t r
      (replyBytes r 0 0 0 [s.rd .LC_VAR_VARIANT + 2 * s.rd .LC_VAR_STEPPING, version, s.coresIn.length] payload)) ∧
  (∀ (s : State) (source tag : Nat) (r : CiborRequest) (ws : List Nat), s.dueRequest 0x0110 source tag = some r → r.param 3 ≠ 0 →
    r.param 3 ≤ 1024 → (s.readWords s.bureauReq r.address (r.param 3)).1 = some ws → Completes (.regRead source tag) s fun t =>
      Replied s t r (replyBytes r 0 0 0 [] (bytesOf ws))) ∧
  (∀ (s : State) (source tag : Nat) (r : CiborRequest), s.dueRequest 0x0110 source tag = some r → (r.param 3 = 0 ∨ 1024 < r.param 3) →
    Completes (.regRead source tag) s fun t => Replied s t r (replyBytes r (CStat.code .cfgRange) 0 0 [] [])) ∧
  (∀ (s : State) (source tag outcome : Nat) (r : CiborRequest), s.dueRequest 0x0111 source tag = some r →
    (protectedBlock r.address = true ∨ s.allowed r.source r.address = false) → Completes (.regWrite source tag outcome) s fun t =>
      Replied s t r (replyBytes r (CStat.code .prot) 0 0 [] []) ∧ t.regs = s.regs ∧ t.mem = s.mem) ∧
  (∀ (s : State) (source tag outcome : Nat) (r : CiborRequest), s.dueRequest 0x0111 source tag = some r →
    protectedBlock r.address = false → s.allowed r.source r.address = true → (inSpe r.address && s.speBusy) = false →
    Completes (.regWrite source tag outcome) s fun t => RequestGone t r) ∧
  (∀ (s : State) (source tag : Nat) (r : CiborRequest), s.dueRequest 0x0112 source tag = some r → r.last = true →
    r.payload.length % 4 = 0 →
    (∀ i < (wordsOf r.payload).length, s.tableAddress (r.address + 4 * i) = true ∧ s.allowed r.source (r.address + 4 * i) = true) →
    Completes (.tableWrite source tag) s fun t =>
      Replied s t r (replyBytes r (s.writeWords s.bureauReq r.address (wordsOf r.payload)).1.code 0 0 [] [])) ∧
  (∀ (s : State) (source tag : Nat) (r : CiborRequest), s.dueRequest 0x0112 source tag = some r → r.last = false →
    Completes (.tableWrite source tag) s fun t => Replied s t r (replyBytes r 0 0 0 [] [])) ∧
  (∀ (s : State) (source tag : Nat) (r : CiborRequest), s.dueRequest 0x0120 source tag = some r → r.param 1 = 7 →
    s.maintAllowed r.source = true → s.host.streams = [] → s.power.standbyDue = false →
    (s.rd .PWR_STAT_MODE = 1 ∨ s.rd .PWR_STAT_MODE = 3) → Completes (.modeSet source tag) s fun t =>
      t.rd .PWR_STAT_MODE = 7 ∧ t.power.maintSource = some r.source ∧ Replied s t r (replyBytes r 0 0 0 [] [])) ∧
  (∀ (s : State) (source tag : Nat) (r : CiborRequest), s.dueRequest 0x0120 source tag = some r → r.param 1 = 7 →
    s.maintAllowed r.source = false → Completes (.modeSet source tag) s fun t =>
      Replied s t r (replyBytes r (CStat.code .classDenied) 0 0 [] []) ∧ t.rd .PWR_STAT_MODE = s.rd .PWR_STAT_MODE) ∧
  (∀ (s : State) (source tag : Nat) (r : CiborRequest), s.dueRequest 0x0130 source tag = some r → s.bur.transfers = [] →
    s.bur.storing = none → Completes (.cfgCommit source tag) s fun t => t.bur.storing = some s.snapshotConfig) ∧
  (∀ (s : State) (source tag : Nat) (r : CiborRequest), s.dueRequest 0x0130 source tag = some r → s.bur.transfers ≠ [] →
    Completes (.cfgCommit source tag) s fun t => Replied s t r (replyBytes r (CStat.code .busy) 0 0 [] [])) ∧
  (∀ (s : State) (source tag : Nat) (r : CiborRequest), s.dueRequest 0x0131 source tag = some r → Completes (.cfgReadback source tag) s fun t =>
    ∃ payload, (s.configInForce = none → payload = []) ∧ Replied s t r (replyBytes r 0 0 0 [] payload)) ∧
  (∀ (s : State) (source tag n : Nat) (r : CiborRequest), s.dueRequest 0x0132 source tag = some r → s.rd .LC_STAT_STATE = 2 →
    r.payload.length = 16 * n → n ≤ 64 → Completes (.allowSet source tag) s fun t =>
      t.bur.allow = (List.range n).map (fun i => (leField r.payload (16 * i) 8, leField r.payload (16 * i + 8) 8)) ∧
      Replied s t r (replyBytes r 0 0 0 [] [])) ∧
  (∀ (s : State) (source tag : Nat) (r : CiborRequest), s.dueRequest 0x0132 source tag = some r → s.rd .LC_STAT_STATE ≠ 2 →
    Completes (.allowSet source tag) s fun t => t.bur.allow = s.bur.allow ∧
      Replied s t r (replyBytes r (CStat.code .classDenied) 0 0 [] [])) ∧
  (∀ (s : State) (source tag : Nat) (r : CiborRequest), s.dueRequest 0x0A00 source tag = some r → s.speBusy = false →
    s.isSet .THR_STAT_SHUT = false → s.speState = 0 → 1 ≤ s.rd .SPE_MOTOR_POLEPAIRS → s.rd .SPE_MOTOR_POLEPAIRS ≤ 8 →
    s.spe.vmCharged = true → s.bench.halted.contains 32 = false → Completes (.spinStart source tag) s fun t =>
      t.rd .SPE_STAT_STATE = 1 ∧ (s.rd .PWR_STAT_MODE = 1 → t.rd .PWR_STAT_MODE = 2)) ∧
  (∀ (s : State) (source tag : Nat) (r : CiborRequest), s.dueRequest 0x0A01 source tag = some r → s.speBusy = false → r.param 1 ≤ 1 →
    s.host.streams = [] → Completes (.spinStop source tag) s fun t => t.rd .SPE_CTRL_STOPMODE = r.param 1) ∧
  (∀ (s : State) (source tag : Nat) (r : CiborRequest), s.dueRequest 0x0A10 source tag = some r → s.capoState = 0 →
    s.isSet .SPE_STAT_ATSPD = true → r.param 3 % 4 < 2 →
    (wedgesPerFrame (r.param 1 % 4096 + 1) (r.param 1 / 65536 % 4096 + 1) (r.param 2 % 65536 + 1)).isSome = true →
    Completes (.capoArm source tag) s fun t => t.rd .CAPO_STAT_STATE = 1 ∧ t.rd .CAPO_RATIO_M1 = r.param 1 % 4096 ∧
      t.rd .CAPO_FRAMECNT_COUNT = 0 ∧ RequestGone t r) ∧
  (∀ (s : State) (source tag : Nat) (r : CiborRequest), s.dueRequest 0x0A10 source tag = some r → s.capoState ≠ 0 →
    Completes (.capoArm source tag) s fun t => t.rd .CAPO_STAT_CFG_LOCKED = 1 ∧ t.rd .CAPO_RATIO_M1 = s.rd .CAPO_RATIO_M1 ∧ RequestGone t r) ∧
  (∀ (s : State) (source tag : Nat) (r : CiborRequest), s.dueRequest 0x0A11 source tag = some r → s.capoState ≠ 0 →
    Completes (.capoDisarm source tag) s fun t => t.rd .CAPO_STAT_STATE = 0 ∧ t.capo.coasting = (s.capo.a != 0) ∧ RequestGone t r) ∧
  (∀ (s : State) (source tag : Nat) (r : CiborRequest) (x : Str), s.dueRequest 0x0B00 source tag = some r → r.target = x.bit →
    s.sceState x = 0 → (s.sceLoad x).1 = .ok → Completes (.headsLoad source tag) s fun t => t.rd .SCEx_STAT_STATE x.ix = 1) ∧
  (∀ (s : State) (source tag : Nat) (r : CiborRequest) (x : Str), s.dueRequest 0x0B01 source tag = some r → r.target = x.bit →
    1 ≤ s.sceState x → s.sceState x ≤ 4 → Completes (.headsUnload source tag) s fun t => t.rd .SCEx_STAT_STATE x.ix = 5) ∧
  (∀ (s : State) (source tag : Nat) (r : CiborRequest) (x : Str), s.dueRequest 0x0B02 source tag = some r → oneString r.target = some x →
    s.isSet .SCEx_STAT_LOOP_OPEN x.ix = true → s.tableValid x (1 - s.rd .SCEx_STAT_ACTBANK x.ix) = true →
    Completes (.bankSwitch source tag) s fun t => t.rd .SCEx_STAT_ACTBANK x.ix = 1 - s.rd .SCEx_STAT_ACTBANK x.ix ∧
      Replied s t r (replyBytes r 0 0 0 [] [])) ∧
  (∀ (s : State) (source tag : Nat) (r : CiborRequest) (x : Str), s.dueRequest 0x0B02 source tag = some r → oneString r.target = some x →
    s.isSet .SCEx_STAT_LOOP_OPEN x.ix = false → Completes (.bankSwitch source tag) s fun t =>
      t.rd .SCEx_STAT_ACTBANK x.ix = s.rd .SCEx_STAT_ACTBANK x.ix ∧ Replied s t r (replyBytes r (CStat.code .cfgLocked) 0 0 [] [])) ∧
  (∀ (s : State) (source tag : Nat) (r : CiborRequest), s.dueRequest 0x0C00 source tag = some r → s.rd .PWR_STAT_MODE ≠ 7 →
    Completes (.mediaFormat source tag) s fun t => Replied s t r (replyBytes r (CStat.code .notReady) 0 0 [] []) ∧
      ∀ x, (t.str.get x).format = (s.str.get x).format) ∧
  (∀ (s : State) (source tag : Nat) (r : CiborRequest) (x : Str), s.dueRequest 0x0C00 source tag = some r → s.rd .PWR_STAT_MODE = 7 →
    s.power.maintSource = some r.source → s.host.namespaces = [] → (∀ y, s.present y = true → s.sceState y = 0) →
    s.formatCheck r.payload = none →
    ((s.withFormat r.payload).unitCounts.1 + (s.withFormat r.payload).unitCounts.2) * 2 ^ 29 ≤ 160 * 10 ^ 12 →
    (s.withFormat r.payload).unitCounts.1 + (s.withFormat r.payload).unitCounts.2 ≤ 327680 → (r.payload.getD 2 0).testBit x.num = true →
    Completes (.mediaFormat source tag) s fun t => (t.str.get x).format = formatBlock r.payload x ∧ RequestGone t r) ∧
  (∀ (s : State) (source tag : Nat) (r : CiborRequest), s.dueRequest 0x1000 source tag = some r → Completes (.telemSnapshot source tag) s fun t =>
    Replied s t r (replyBytes r 0 0 0 [] (bytesOf s.resourceStatus))) ∧
  (∀ (s : State) (source tag : Nat) (r : CiborRequest), s.dueRequest 0x1001 source tag = some r → r.param 2 ≠ 0 → r.param 2 ≤ 128 →
    Completes (.eventRead source tag) s fun t => Replied s t r (replyBytes r 0 0 0 []
      (bytesOf (((s.events.filter fun e => decide (r.param 1 ≤ e.seq)).reverse.take (r.param 2)).flatMap Event.words)))) ∧
  (∀ (s : State) (source tag : Nat) (r : CiborRequest) (x : Str), s.dueRequest 0x2000 source tag = some r → 1 ≤ r.param 1 → r.param 1 ≤ 7 →
    r.target % 16 = x.bit → s.present x = true → r.target / 16 % 8 < 6 → (∀ c ∈ s.cal.runs, c.mask ≠ x.bit) →
    s.calReady (r.param 1) x.bit (r.target / 16 % 8) = true → Completes (.calRun source tag) s fun t =>
      t.rd .CAL_STAT_BUSY = 1 ∧ t.rd .CAL_STAT_SCRIPT = r.param 1 ∧
      ∃ c ∈ t.cal.runs, c.script = r.param 1 ∧ c.mask = x.bit ∧ c.request = some r.order) ∧
  (∀ (s : State) (source tag : Nat) (r : CiborRequest), s.dueRequest 0x2000 source tag = some r → r.param 1 = 8 →
    (∃ c ∈ s.cal.runs, c.mask = 0) → Completes (.calRun source tag) s fun t => Replied s t r (replyBytes r (CStat.code .busy) 0 0 [] [])) ∧
  (∀ (s : State) (source tag : Nat) (r : CiborRequest) (x : Str), s.dueRequest 0x2001 source tag = some r → r.target % 16 = x.bit →
    s.present x = true → r.target / 16 % 8 < 6 → (∀ c ∈ s.cal.runs, c.mask ≠ x.bit) →
    s.calReady 6 x.bit (r.target / 16 % 8) = true → Completes (.tdSearch source tag) s fun t =>
      t.rd .CAL_STAT_SCRIPT = 6 ∧ ∃ c ∈ t.cal.runs, c.script = 6 ∧ c.mask = x.bit ∧ c.request = some r.order) ∧
  (∀ (s : State) (source tag : Nat) (r : CiborRequest), s.dueRequest 0x5000 source tag = some r → r.param 1 ≤ 31 →
    s.laneJob (r.param 1) = .idle → Completes (.laneRetire source tag) s fun t =>
      (t.rd .HARP_RETIRED_LANES).testBit (r.param 1) = true ∧ RequestGone t r) ∧
  (∀ (s : State) (source tag : Nat) (r : CiborRequest), s.dueRequest 0x5001 source tag = some r → r.param 1 ≤ 31 →
    s.rd .PWR_STAT_MODE = 7 → s.laneJob (r.param 1) = .idle → Completes (.laneUnretire source tag) s fun t =>
      (t.rd .HARP_RETIRED_LANES).testBit (r.param 1) = false ∧ (t.rd .HARP_WDRAWN_LANES).testBit (r.param 1) = true) ∧
  (∀ (s : State) (source tag : Nat) (r : CiborRequest), s.dueRequest 0x5001 source tag = some r → r.param 1 ≤ 31 →
    s.rd .PWR_STAT_MODE ≠ 7 → Completes (.laneUnretire source tag) s fun t => t.rd .HARP_STAT_CFG_LOCKED = 1 ∧
      Replied s t r (replyBytes r (CStat.code .cfgLocked) 0 0 [] [])) ∧
  (∀ (s : State) (source tag : Nat) (r : CiborRequest), s.dueRequest 0x5010 source tag = some r → r.param 1 ≤ 15 →
    s.lastCore (r.param 1) = false → s.coreState (r.param 1) = 0 → Completes (.coreRetire source tag) s fun t =>
      t.coreState (r.param 1) = 3 ∧ RequestGone t r) ∧
  (∀ (s : State) (source tag : Nat) (r : CiborRequest), s.dueRequest 0x5010 source tag = some r → s.lastCore (r.param 1) = true →
    Completes (.coreRetire source tag) s fun t => Replied s t r (replyBytes r (CStat.code .cfgRange) 0 0 [] [])) ∧
  (∀ (s : State) (source tag : Nat) (r : CiborRequest), s.dueRequest 0x5011 source tag = some r → r.param 1 ≤ 15 →
    s.rd .PWR_STAT_MODE = 7 → s.coreState (r.param 1) = 3 → Completes (.coreUnretire source tag) s fun t => t.coreState (r.param 1) = 2) ∧
  (∀ (s : State) (words : List Nat), s.host.telemetryMs ≠ 0 → s.rd .PWR_STAT_MODE ≠ 0 → Completes (.telemetryPeriod words) s fun t =>
    t.host.telemetryReady = true ∧ t.host.telemetry.take s.resourceStatus.length = s.resourceStatus) ∧
  (∀ (s : State) (c : StoredConfig), s.bur.storing = some c → Completes .configurationStored s fun t =>
    t.bur.storing = none ∧ t.bur.stored = s.bur.stored.set s.idleCopy (some c))

/-- MC_LOAD, EXT_LOAD, EXT_UNLOAD, opcodes from 0x8000 on and hook timeouts (R371 to R376, R381, R382). -/
def Obligations.MicrocodeAndModuleEffects : Prop :=
  (∀ (s : State) (source tag : Nat) (signed : Option Nat) (base : Bool) (r : CiborRequest) (st : CStat) (d1 d2 : Nat),
    s.bur.requests.find? (fun r => r.source == source && r.tag == tag && r.opcode == 0x3000 && r.started) = none →
    s.dueRequest 0x3000 source tag = some r → r.last = true → s.microcodeRefused (microcodeOf r.payload) signed base = some (st, d1, d2) →
    Completes (.mcLoad source tag signed base) s fun t => Replied s t r (replyBytes r st.code d1 d2 [] []) ∧ t.control = s.control) ∧
  (∀ (s : State) (source tag : Nat) (signed : Option Nat) (base : Bool) (r : CiborRequest) (x : Str),
    s.bur.requests.find? (fun r => r.source == source && r.tag == tag && r.opcode == 0x3000 && r.started) = none →
    s.dueRequest 0x3000 source tag = some r → r.last = true → s.microcodeRefused (microcodeOf r.payload) signed base = none →
    s.microcodeBusy (microcodeOf r.payload) = false → (microcodeOf r.payload).kind = 1 → x ∈ (microcodeOf r.payload).strings →
    Completes (.mcLoad source tag signed base) s fun t =>
      (t.seq x (microcodeOf r.payload).target).sweep = true ∧ RequestGone t r) ∧
  (∀ (s : State) (source tag : Nat) (signed : Option Nat) (base : Bool) (r : CiborRequest),
    s.bur.requests.find? (fun r => r.source == source && r.tag == tag && r.opcode == 0x3000 && r.started) = some r →
    (∀ x ∈ (microcodeOf r.payload).strings, s.sqState x (microcodeOf r.payload).target = 0) →
    Completes (.mcLoad source tag signed base) s fun t => RequestGone t r ∧
      t.bur.svnMin = s.bur.svnMin.set (microcodeOf r.payload).target.num (microcodeOf r.payload).svn) ∧
  (∀ (s : State) (source tag svn size : Nat) (signed : Bool) (hooks : List Nat) (r : CiborRequest),
    s.dueRequest 0x3010 source tag = some r → r.last = true → signed = true → (∃ w ∈ s.keyHash 3, w ≠ 0) →
    s.bur.svnMin.getD 3 0 ≤ svn → s.bur.modules.length < 8 → (s.bur.modules.map (·.image.size)).sum + size ≤ 4194304 →
    Completes (.extLoad source tag signed svn size hooks) s fun t => RequestGone t r ∧ t.bur.svnMin = s.bur.svnMin.set 3 svn ∧
      t.bur.modules = s.bur.modules ++ [{ number := lowestFree (s.bur.modules.map (·.number)) 0, image := { signed, svn, size, hooks },
                                          disabled := false, overruns := [] }]) ∧
  (∀ (s : State) (source tag svn size : Nat) (hooks : List Nat) (r : CiborRequest), s.dueRequest 0x3010 source tag = some r →
    r.last = true → Completes (.extLoad source tag false svn size hooks) s fun t => t.bur.modules = s.bur.modules ∧
      Replied s t r (replyBytes r (CStat.code .mcSigFail) 0 0 [] [])) ∧
  (∀ (s : State) (source tag : Nat) (r : CiborRequest), s.dueRequest 0x3011 source tag = some r →
    (∃ m ∈ s.bur.modules, m.number = r.param 1) → Completes (.extUnload source tag) s fun t =>
      t.bur.modules = s.bur.modules.filter (fun m => m.number != r.param 1) ∧ Replied s t r (replyBytes r 0 0 0 [] [])) ∧
  (∀ (s : State) (source tag : Nat) (r : CiborRequest), s.dueRequest 0x3011 source tag = some r →
    (∀ m ∈ s.bur.modules, m.number ≠ r.param 1) → Completes (.extUnload source tag) s fun t =>
      t.bur.modules = s.bur.modules ∧ Replied s t r (replyBytes r (CStat.code .cfgRange) 0 0 [] [])) ∧
  (∀ (s : State) (source tag : Nat) (status : CStat) (payload : List Nat) (r : CiborRequest),
    s.bur.requests.find? (fun r => r.source == source && r.tag == tag && decide (0x8000 ≤ r.opcode) && !r.started) = some r →
    s.orderWaits r = false → Completes (.extensionOpcode source tag status payload) s fun t =>
      Replied s t r (if s.hookAlive 6 then replyBytes r status.code 0 0 [] payload else replyBytes r (CStat.code .badOpcode) 0 0 [] [])) ∧
  (∀ (s : State) (module hook : Nat) (m : ExtModule), s.bur.modules.find? (fun m => m.number == module && !m.disabled &&
    m.image.hooks.contains hook) = some m → Completes (.hookTimeout module hook none) s fun t =>
      ∀ e ∈ t.bur.modules, e.number = module → e.overruns.head? = some s.timebase ∧
        (e.disabled = true ↔ 2 ≤ (m.overruns.filter fun t => decide (s.timebase < t + 800000000)).length))

/-- Firmware download and commit, the challenge, tokens and the state (R458 to R467). -/
def Obligations.LifeCycleEffects : Prop :=
  (∀ (s : State) (f offset : Nat) (words : List Nat) (c : Cmd), CanStart s f c → c.op = .fwDownload offset words → words ≠ [] →
    overlaps (if offset = 0 then [] else s.lc.download) offset words.length = false → Completes (.firmwareImageDownload f) s fun t =>
      Answered t f = some .success ∧
      t.lc.download = (if offset = 0 then [] else s.lc.download) ++ words.mapIdx (fun i w => (offset + i, w))) ∧
  (∀ (s : State) (f offset : Nat) (words : List Nat) (c : Cmd), CanStart s f c → c.op = .fwDownload offset words → words ≠ [] →
    overlaps (if offset = 0 then [] else s.lc.download) offset words.length = true → Completes (.firmwareImageDownload f) s fun t =>
      Answered t f = some .overlappingRange ∧ t.lc.download = s.lc.download) ∧
  (∀ (s : State) (f slot action : Nat) (key : List Nat) (signed : Bool) (c : Cmd), CanStart s f c → c.op = .fwCommit slot action →
    (2 < slot ∨ (action = 2 ∧ slot = 0)) → Completes (.firmwareCommit f key signed) s fun t =>
      Answered t f = some .invalidFirmwareSlot ∧ t.lc = s.lc) ∧
  (∀ (s : State) (f slot action : Nat) (key : List Nat) (signed : Bool) (c : Cmd) (image : NorImage), CanStart s f c →
    c.op = .fwCommit slot action → 1 ≤ slot → slot ≤ 2 → action ≤ 1 → s.downloaded key signed = some image → s.imageOk image = true →
    Completes (.firmwareCommit f key signed) s fun t => t.lc.images = s.lc.images.set (slot - 1) (some image) ∧ t.lc.download = [] ∧
      Answered t f = some (if action = 0 then .success else .firmwareNeedsReset) ∧
      t.lc.active = if action = 0 then s.lc.active else slot - 1) ∧
  (∀ (s : State) (f slot : Nat) (key : List Nat) (signed : Bool) (c : Cmd), CanStart s f c → c.op = .fwCommit slot 2 → 1 ≤ slot →
    slot ≤ 2 → Completes (.firmwareCommit f key signed) s fun t =>
      (s.slotGood (slot - 1) = true → Answered t f = some .firmwareNeedsReset ∧ t.lc.active = slot - 1) ∧
      (s.slotGood (slot - 1) = false → Answered t f = some .invalidFirmwareImage ∧ t.lc = s.lc)) ∧
  (∀ (s : State) (source tag : Nat) (r : CiborRequest), s.dueRequest 0x4000 source tag = some r → Completes (.lcChallenge source tag) s fun t =>
    t.rd .LC_STAT_CHAL_LIVE = 1 ∧ t.lc.challenge = some ((List.range 8).map fun i => Config.freeValue (s.draws + i) % 2 ^ 32) ∧
    RequestGone t r) ∧
  (∀ (s : State) (source tag steps : Nat) (key : List Nat) (signed : Bool) (r : CiborRequest), s.dueRequest 0x4001 source tag = some r →
    s.lc.waiting = none → (s.tokenGood r.payload key signed && s.transitionOk (tokenTarget r.payload)) = false →
    Completes (.lcToken source tag key signed steps) s fun t => t.rd .LC_STAT_CHAL_LIVE = 0 ∧ t.lc.challenge = none ∧
      t.rd .LC_STAT_DENIED = 1 ∧ t.lc.stage = s.lc.stage ∧ Replied s t r (replyBytes r (CStat.code .lcDenied) 0 0 [] [])) ∧
  (∀ (s : State) (source tag steps : Nat) (key : List Nat) (r : CiborRequest) (v : Transition), s.dueRequest 0x4001 source tag = some r →
    s.lc.waiting = none → (s.tokenGood r.payload key true && s.transitionOk (tokenTarget r.payload)) = true →
    tokenTransition r.payload = some v → s.rd .BNCH_STAT_HALTED ≠ 0 → Completes (.lcToken source tag key true steps) s fun t =>
      t.lc.waiting = some (v, some r.order) ∧ t.lc.stage = s.lc.stage ∧ t.lc.challenge = none) ∧
  (∀ (s : State) (source tag : Nat) (key : List Nat) (r : CiborRequest), s.dueRequest 0x4001 source tag = some r →
    s.lc.waiting = none → (s.tokenGood r.payload key true && s.transitionOk (tokenTarget r.payload)) = true → tokenTarget r.payload = 3 →
    s.lifeState ≠ 4 → s.rd .BNCH_STAT_HALTED = 0 → Completes (.lcToken source tag key true 4) s fun t =>
      t.lc.stage = s.lc.stage ||| 7 ∧ t.lc.intent = none ∧ t.rd .LC_STAT_PEND = 0 ∧ t.rd .BNCH_STAT_SESSION = 0 ∧ RequestGone t r) ∧
  (∀ (s : State) (source tag : Nat) (r : CiborRequest), s.dueRequest 0x4002 source tag = some r → Completes (.lcState source tag) s fun t =>
    Replied s t r (replyBytes r 0 0 0 [s.rd .LC_STAT_STATE, s.rd .LC_STAT_REFIELD] [])) ∧
  (∀ s : State, Completes .challengeExpiry s fun t => t.lc.challenge = none ∧ t.rd .LC_STAT_CHAL_LIVE = 0)

/-- What the Bench port's commands do, a clause or more for each (R468 to R476). -/
def Obligations.BenchEffects : Prop :=
  (∀ s : State, Completes .bypass s fun t => t.bench.ir = 0) ∧
  (∀ s : State, Completes .idcode s fun t => t.bench.ir = 1 ∧ t.out = .bench 0 s.idcode :: s.out) ∧
  (∀ s : State, Completes .samplePreload s fun t => (s.rd .LC_STAT_STATE ≠ 5 → t.bench.ir = 2) ∧
    (s.rd .LC_STAT_STATE = 5 → t.bench.ir = 0 ∧ t.rd .BNCH_STAT_DENIED = 1)) ∧
  (∀ (s : State) (c : Instr) (ir : Nat), (c, ir) ∈ [(Instr.extest, 3), (.clamp, 4), (.highz, 5)] → s.rd .LC_STAT_STATE ≠ 5 →
    (s.rd .LC_STAT_STATE = 3 → s.isSet .BNCH_STAT_SESSION = true) → Completes c s fun t =>
      (s.speState = 0 → (∀ x, s.sceState x = 0) → t.bench.ir = ir) ∧
      ((s.speState ≠ 0 ∨ ∃ x, s.sceState x ≠ 0) → t.bench.ir = 0 ∧ t.rd .BNCH_STAT_BSCAN_BLK = 1)) ∧
  (∀ (s : State) (c : Instr), c ∈ [Instr.extest, .clamp, .highz] →
    (s.rd .LC_STAT_STATE = 5 ∨ (s.rd .LC_STAT_STATE = 3 ∧ s.rd .BNCH_STAT_SESSION = 0)) → Completes c s fun t =>
      t.bench.ir = 0 ∧ t.rd .BNCH_STAT_DENIED = 1) ∧
  (∀ s : State, Completes .dbg s fun t => (s.benchOpen = true → t.bench.ir = 6) ∧
    (s.benchOpen = false → t.bench.ir = 0 ∧ t.rd .BNCH_STAT_DENIED = 1)) ∧
  (∀ (s : State) (frame packet : List Nat), framePayload frame = some (1, packet) → s.benchOpen = true →
    s.ciborCheck (packetRequest 9 s.bur.order packet) packet = none → segmented (packetRequest 9 s.bur.order packet).opcode = false →
    Completes (.dbgFrame frame) s fun t => t.bur.requests = s.bur.requests ++ [packetRequest 9 s.bur.order packet]) ∧
  (∀ (s : State) (frame : List Nat), framePayload frame = none → Completes (.dbgFrame frame) s fun t => t = s) ∧
  (∀ s : State, s.rd .LC_STAT_STATE ≠ 5 → Completes .benchChallenge s fun t => t.rd .LC_STAT_CHAL_LIVE = 1 ∧
    t.lc.challenge = some ((List.range 8).map fun i => Config.freeValue (s.draws + i) % 2 ^ 32)) ∧
  (∀ (s : State) (token key : List Nat) (signed : Bool) (steps : Nat), s.rd .LC_STAT_STATE ≠ 5 → s.lc.waiting = none →
    tokenTarget token = 0x80 → Completes (.benchOpen token key signed none steps) s fun t => t.lc.challenge = none ∧
      (s.tokenGood token key signed = true → t.rd .BNCH_STAT_SESSION = 1) ∧
      (s.tokenGood token key signed = false → t.rd .BNCH_STAT_SESSION = s.rd .BNCH_STAT_SESSION ∧ t.rd .LC_STAT_DENIED = 1)) ∧
  (∀ (s : State) (c : Instr), c ∈ [Instr.sessionClose, .trst, .sessionIdleTimeout] → Completes c s fun t =>
    t.isSet .BNCH_STAT_SESSION = false ∧ (s.isSet .BNCH_STAT_SESSION = true → t.rd .BNCH_STAT_HALTED = 0 ∧ t.bench.halted = []) ∧
    (c = .trst → t.bench.ir = 1)) ∧
  (∀ (s : State) (x : Str), s.benchOpen = true → s.present x = true → s.sceState x = 0 → s.isSet .SCEx_STAT_LOOP_OPEN x.ix = true →
    Completes (.halt (28 + x.num)) s fun t => t.rd .SCEx_STAT_STATE x.ix = 6 ∧ t.rd .SCEx_VCMCMD_S30 x.ix = 0 ∧
      t.out.head? = some (.frameStatus 0 .ok)) ∧
  (∀ s : State, s.benchOpen = true → s.bench.halted.contains 32 = false → s.speState = 0 →
    (toSigned 32 (s.rd .SPE_SPEED_MRPM)).natAbs < 60000 → Completes (.halt 32) s fun t => t.bench.halted.contains 32 = true ∧ t.spe.bridge = .off) ∧
  (∀ (s : State) (c : Nat), s.benchOpen = true → c < 16 → (s.rd .BNCH_STAT_HALTED).testBit c = false → c ∈ s.coresRunning →
    2 ≤ s.coresRunning.length → Completes (.halt c) s fun t => (t.rd .BNCH_STAT_HALTED).testBit c = true) ∧
  (∀ (s : State) (x : Str), s.benchOpen = true → s.present x = true → s.sceState x = 6 → Completes (.benchResume (28 + x.num)) s fun t =>
    t.rd .SCEx_STAT_STATE x.ix = 0) ∧
  (∀ (s : State) (c : Nat), s.benchOpen = true → c < 16 → (s.rd .BNCH_STAT_HALTED).testBit c = true → Completes (.benchResume c) s fun t =>
    (t.rd .BNCH_STAT_HALTED).testBit c = false) ∧
  (∀ (s : State) (x : Str) (pt : Nat), s.benchOpen = true → s.present x = true → s.sceState x ≠ 6 →
    Completes (.step (28 + x.num) pt) s fun t => t = s.emit (.frameStatus 0 .notReady)) ∧
  (∀ (s : State) (x : Str) (pt : Nat), s.benchOpen = true → s.present x = true → s.sceState x = 6 →
    s.bench.stepAt.get x < (s.sections x (s.rd .SCEx_STAT_ACTBANK x.ix)).length → Completes (.step (28 + x.num) pt) s fun t =>
      t.bench.stepAt.get x = (s.bench.stepAt.get x + 1) % (s.sections x (s.rd .SCEx_STAT_ACTBANK x.ix)).length) ∧
  (∀ (s : State) (engine kind place : Nat), s.benchOpen = true → s.noEngine engine = false → Completes (.breakpointSet engine kind place false) s fun t =>
    (engine, kind, place) ∉ t.bench.breaks) ∧
  (∀ (s : State) (engine kind place : Nat), s.benchOpen = true → s.noEngine engine = false →
    (s.bench.breaks.filter fun b => b.1 == engine && b.2.1 == kind && b.2.2 != place).length < breakLimit engine kind →
    Completes (.breakpointSet engine kind place true) s fun t => (engine, kind, place) ∈ t.bench.breaks) ∧
  (∀ (s : State) (x : Str) (kind place : Nat), (28 + x.num, kind, place) ∈ s.bench.breaks → s.present x = true → s.sceState x = 0 →
    s.isSet .SCEx_STAT_LOOP_OPEN x.ix = true → Completes (.breakpointHit (28 + x.num) kind place) s fun t => t.rd .SCEx_STAT_STATE x.ix = 6) ∧
  (∀ (s : State) (address n : Nat) (ws : List Nat), s.benchOpen = true → n ≠ 0 → n ≤ 16384 → (s.benchWords address n).1 = some ws →
    Completes (.memRd address n) s fun t => t.out = .frameStatus 0 .ok :: ((s.benchWords address n).2.sendWords ws).out) ∧
  (∀ (s : State) (address : Nat), s.benchOpen = true → keyArea address = true → Completes (.memRd address 1) s fun t =>
    t.rd .BNCH_STAT_KEYRD = 1 ∧ t.out = .frameStatus 0 .ok :: .bench 0 0 :: s.out) ∧
  (∀ (s : State) (address w outcome : Nat), s.benchOpen = true → protectedBlock address = false → Completes (.memWr address [w] outcome) s fun t =>
    t.mem = (s.writeWord 64 address (w % 2 ^ 32) (2 ^ 32 - 1) outcome).2.mem ∧
    t.regs = (s.writeWord 64 address (w % 2 ^ 32) (2 ^ 32 - 1) outcome).2.regs) ∧
  (∀ (s : State) (address w outcome : Nat), s.benchOpen = true → protectedBlock address = true → Completes (.memWr address [w] outcome) s fun t =>
    t.mem = s.mem ∧ t.regs = s.regs) ∧
  (∀ (s : State) (engine : Nat), s.benchOpen = true → Completes (.stateRd engine) s fun t =>
    t.out.head? = some (.frameStatus 0 (if s.noEngine engine then .cfgRange else .ok)) ∧
    (s.noEngine engine = false → t.draws = s.draws + 1)) ∧
  (∀ s : State, s.benchOpen = true → Completes .traceRd s fun t =>
    t.out = .frameStatus 0 .ok :: (s.sendWords (s.bench.trace.reverse.flatMap fun e => [e.1, e.2])).out) ∧
  (∀ (s : State) (x : Str), s.benchOpen = true → s.present x = true → s.sceState x ≠ 6 → Completes (.snap (28 + x.num)) s fun t =>
    t.bench.snap = some (28 + x.num) ∧ t.bench.latched = none) ∧
  (∀ (s : State) (n : Nat) (e : ShadowEngine), s.bench.snap = some n → s.bench.latched = some e → Completes .snapCapture s fun t =>
    t.bench.shadow = some e ∧ t.bench.snap = none ∧ t.rd .BNCH_STAT_MATCH = 0) ∧
  (∀ (s : State) (c : Instr), c ∈ [Instr.sstep, .srun] → s.benchOpen = true → s.bench.shadow = none → Completes c s fun t =>
    t = s.emit (.frameStatus 0 .notReady)) ∧
  (∀ (s : State) (e : ShadowEngine), s.benchOpen = true → s.bench.shadow = some e → e.engine = 32 → e.ended = false →
    Completes .sstep s fun t => t.bench.shadow.map (·.at') = some (e.at' + 1) ∧ t.draws = s.draws + 3) ∧
  (∀ (s : State) (e : ShadowEngine), s.benchOpen = true → s.bench.shadow = some e → e.ended = true → Completes .srun s fun t =>
    t = s.emit (.frameStatus 0 .ok))

/-- Frames of the servo, wedge, Fret timing and demodulator commands, in every state: outside the register fields and the parts of the state that a line names for its
command, every register field of every instance reads as before, every other part is as before (every byte of memory where `mem`
is not named), and the queue is as before. -/
def Obligations.ServoFrames : Prop :=
  (∀ x, ChangesOnly (.preambleGate x) ⟨[], [.WRPx_STAT_GATE, .WRPx_STAT_RUN, .WRPx_STAT_CUT, .WRPx_STAT_FIFO,
    .WRPx_CNT1_CUT, .BRG_USE_CELLS], [.str, .host, .bridge]⟩) ∧
  (∀ x sam, ChangesOnly (.samLatched x sam) ⟨[.sce, .svd], inhibitRegs ++ [.FRET_STAT_VALID, .FRET_STAT_REF,
    .FRET_STAT_NOREF, .FRET_PERIOD_PS, .FRET_SKEW_FRAC, .FRET_SKEW_WEDGE, .FRET_SKEWNS_NS, .CAPO_PHASE_WEDGE,
    .AEx_STAT_HEAD, .AEx_STAT_LEDG_SOFT, .RCHx_STAT_SLOTS_FREE, .RCHx_STAT_PENDQ, .RCHx_RATE_BITRATE, .RCHx_SLOT_BUSY,
    .BRG_USE_PAGES, .SQ_CNT_DEFERRED, .PWR_STAT_MODE, .PWR_STAT_SUB, .SB_RTC_SEC], [.shadow, .timebase, .fret, .capo,
    .str, .host, .bridge, .bur, .power, .out]⟩) ∧
  (∀ x, ChangesOnly (.missedSam x) ⟨[.sce, .svd], inhibitRegs ++ [.FRET_STAT_VALID, .FRET_STAT_REF, .FRET_STAT_NOREF,
    .FRET_PERIOD_PS, .FRET_SKEWNS_NS, .AEx_STAT_HEAD, .AEx_STAT_LEDG_SOFT, .RCHx_STAT_SLOTS_FREE, .RCHx_STAT_PENDQ,
    .RCHx_RATE_BITRATE, .RCHx_SLOT_BUSY, .BRG_USE_PAGES, .SQ_CNT_DEFERRED, .SB_RTC_SEC], [.shadow, .timebase, .fret,
    .capo, .str, .host, .bridge, .out]⟩) ∧
  (∀ x aPre, ChangesOnly (.wedgeBoundary x aPre) ⟨[], inhibitRegs ++ [.CAPO_STAT_WINH, .SPE_STAT_WINH, .SCEx_STAT_WINH,
    .SVDx_PREAMP_A_PRE, .RCHx_SRVGA_H0, .RCHx_SRVGA_H1, .RCHx_SRVGA_H2, .RCHx_SRVGA_H3, .RCHx_SRVGB_H4, .RCHx_SRVGB_H5,
    .SFMx_STAT_SECT_PRED, .SFMx_CNT_SECT_PRED], [.capo, .spe, .str, .host, .bridge]⟩) ∧
  (∀ x readers, ChangesOnly (.demodLatch x readers) ⟨[], inhibitRegs ++ [.SCEx_STAT_STATE, .SCEx_STAT_PVALID,
    .SCEx_STAT_WINH, .SCEx_STAT_LOSTCNT, .SCEx_STAT_SAT_INT, .SCEx_STAT_PLAUS, .SCEx_PES_S0, .SCEx_CPLFF_S5,
    .SCEx_LOSTTOT_COUNT, .SCEx_PRSAM_TIME, .SCEx_BANK0_TABLE, .SCEx_BANK1_TABLE, .SCEx_FALLBACK_TABLE, .SVDx_STAT_LAST_OK,
    .SVDx_STAT_GRAY_SUBD, .SVDx_STAT_RRO_BAD, .SVDx_STAT_LAST_CAUSE, .SVDx_TRK_T, .SVDx_FRAC_F, .SVDx_NQ_N, .SVDx_NQ_Q,
    .SVDx_RRO_VALUE, .SVDx_CNT_UNREAD], [.mem, .draws, .str, .host, .bridge, .memory, .bur, .bench, .out]⟩) ∧
  (∀ x, ChangesOnly (.lostWedgeRetract x) ⟨[], retractRegs ++ chestRegs ++ streamRegs ++ sequencerRegs ++
    [.SCEx_STAT_FB_PEND, .SCEx_TGT_SHADOW_PEND, .RLDx_STAT_ACTIVE, .RLDx_STAT_WAITQ, .STRM_STAT_WDRN, .STRM_CNT1_WDRN,
    .CHST_STAT_JRNL_WAIT, .PWR_STAT_DEGR, .PWR_STRLOST_LOST, .PWR_DOMREQ_ON, .PWR_DOMSTAT_ON], [.shadow, .events,
    .eventSeq, .str, .harp, .host, .bridge, .phv, .bur, .power, .out]⟩) ∧
  (∀ o, ChangesOnly (.controlLawOverrun o) ⟨[], inhibitRegs ++ [.SCEx_STAT_WINH, .SCEx_STAT_OVRCNT, .SCEx_STAT_OVR,
    .SCEx_STAT_SAT_INT, .SCEx_CYC_PEAK, .SCEx_BANK0_TABLE, .SCEx_BANK1_TABLE, .SCEx_FALLBACK_TABLE, .SB_RTC_SEC], [.mem,
    .timebase, .draws, .str, .host, .bridge, .memory]⟩) ∧
  (∀ x, ChangesOnly (.fallbackSwitch x) ⟨[], [.SCEx_STAT_FALLBACK, .SCEx_STAT_FB_PEND, .SCEx_STAT_FAULT, .SCEx_CYC_MAND],
    [.out]⟩) ∧
  (∀ x time, ChangesOnly (.actuatorOutput x time) ⟨[], [.SCEx_STAT_OVRCNT, .SCEx_STAT_SAT_VCM, .SCEx_STAT_SAT_MA,
    .SCEx_STAT_SAT_INT, .SCEx_VCMCMD_S30, .SCEx_MACMD_S31, .SCEx_CYC_PEAK, .SCEx_BANK0_TABLE, .SCEx_BANK1_TABLE,
    .SCEx_FALLBACK_TABLE, .SB_RTC_SEC], [.mem, .timebase, .draws, .str, .memory]⟩) ∧
  (∀ x sender, ChangesOnly (.couplingStale x sender) ⟨[], [.SCEx_STAT_CPL_STALE], [.str]⟩) ∧
  (∀ x, ChangesOnly (.settleTimeout x) ⟨[], [.SCEx_STAT_SEEK_TO], []⟩) ∧
  (∀ x, ChangesOnly (.skewAverageEnd x) ⟨[], [.FRET_STAT_VALID, .FRET_STAT_DRIFT, .FRET_STAT_REF, .FRET_STAT_NOREF,
    .FRET_PERIOD_PS, .FRET_SKEW_FRAC, .FRET_SKEW_WEDGE, .FRET_SKEWNS_NS], [.fret, .str]⟩) ∧
  (∀ mask, ChangesOnly (.remeas mask) ⟨[], [.FRET_STAT_VALID], [.str]⟩) ∧
  (∀ x, ChangesOnly (.acq x) ⟨[], [.SVDx_STAT_SYNC_STATE, .SVDx_CNT_MISSED, .SVDx_CNT_UNREAD], [.str]⟩) ∧
  (∀ x, ChangesOnly (.idle x) ⟨[], [.FRET_STAT_VALID, .FRET_STAT_REF, .FRET_STAT_NOREF, .FRET_PERIOD_PS,
    .SVDx_STAT_SYNC_STATE], [.fret, .str]⟩) ∧
  (∀ x index value, ChangesOnly (.svdFormatWrite x index value) ⟨[], [.SVDx_FMT0_CELLS, .SVDx_FMT0_PRE_LEN,
    .SVDx_FMT0_SAM_LEN, .SVDx_FMT1_SAM_PAT, .SVDx_FMT1_SAM_TOL, .SVDx_FMT1_SAM_WIN, .SVDx_FMT1_SAMW_TOL,
    .SVDx_FMT2_GRAY_OFF, .SVDx_FMT2_WNUM_OFF, .SVDx_FMT2_NB_OFF, .SVDx_FMT3_QB_OFF, .SVDx_FMT3_RRO_OFF, .SVDx_FMT3_BOUND,
    .SVDx_FMT4_TRK_BITS, .SVDx_FMT4_CPB, .SVDx_FMT4_BURST_LEN, .SVDx_FMT4_BURST_PER, .SVDx_FMT4_BURST_MIN,
    .SVDx_FMT5_SYNC_N, .SVDx_FMT5_SYNC_LOSS, .SVDx_STAT_CFG_LOCKED, .SVDx_STAT_FMT_VALID], []⟩)

/-- Frames of the Capo and spindle commands, in every state: outside the register fields and the parts of the state that a line names for its
command, every register field of every instance reads as before, every other part is as before (every byte of memory where `mem`
is not named), and the queue is as before. -/
def Obligations.SpindleFrames : Prop :=
  (ChangesOnly .capoCtrlArm ⟨[], [.CAPO_STAT_STATE, .CAPO_STAT_SLEW, .CAPO_STAT_CFG_LOCKED, .CAPO_SETPT_UHZ,
    .CAPO_FRAMECNT_COUNT, .CAPO_GLITCHCNT_COUNT], [.capo]⟩) ∧
  (ChangesOnly .capoCtrlDisarm ⟨[], [.CAPO_STAT_STATE, .CAPO_STAT_SLEW, .CAPO_STAT_WINH, .SPE_SETPT_RPM, .AEx_STAT_INH,
    .STRM_STAT_FROZEN], [.shadow, .capo, .host]⟩) ∧
  (∀ edge, ChangesOnly (.capoReferenceEdge edge) ⟨[.capo], inhibitRegs ++ [.STRM_STAT_FROZEN, .SB_RTC_SEC], [.shadow,
    .timebase, .capo, .str, .host, .bridge]⟩) ∧
  (∀ time, ChangesOnly (.predictedFrameEdge time) ⟨[], [.CAPO_PHASE_ERR, .CAPO_FRAMECNT_COUNT, .SB_RTC_SEC], [.timebase,
    .capo, .host]⟩) ∧
  (ChangesOnly .referenceLost ⟨[], [.CAPO_STAT_STATE, .CAPO_STAT_SLEW, .CAPO_STAT_LOSS, .CAPO_STAT_RANGE,
    .STRM_STAT_FROZEN, .SB_RTC_SEC], [.timebase, .capo, .host]⟩) ∧
  (ChangesOnly .measureComplete ⟨[], inhibitRegs ++ [.CAPO_STAT_STATE, .CAPO_STAT_SLEW, .CAPO_STAT_WINH,
    .CAPO_STAT_RANGE, .CAPO_REF_PERIOD, .CAPO_TARGET_UHZ, .STRM_STAT_FROZEN], [.capo, .str, .host, .bridge]⟩) ∧
  (∀ offset tracking, ChangesOnly (.capoGeneratorStep offset tracking) ⟨[], inhibitRegs ++ [.CAPO_STAT_STATE,
    .CAPO_STAT_SLEW, .CAPO_STAT_WINH, .CAPO_STAT_LOSS, .CAPO_STAT_RANGE, .CAPO_SETPT_UHZ, .CAPO_PHASE_WEDGE,
    .SPE_SETPT_RPM, .STRM_STAT_FROZEN], [.shadow, .capo, .str, .host, .bridge]⟩) ∧
  (ChangesOnly .capoLock ⟨[], streamRegs ++ [.CAPO_STAT_STATE, .CAPO_STAT_SLEW, .STRM_STAT_FROZEN, .STRM_STAT_WDRN,
    .STRM_AVL_AVAIL, .STRM_CNT1_WDRN], [.events, .eventSeq, .capo, .host, .bur, .power, .out]⟩) ∧
  (ChangesOnly .holdoverTimeout ⟨[], [.CAPO_STAT_STATE, .CAPO_STAT_SLEW, .STRM_STAT_FROZEN], [.capo, .host]⟩) ∧
  (ChangesOnly .speStart ⟨[], [.SPE_STAT_STATE, .SPE_STAT_ATSPD, .SPE_STAT_TICKPRED, .SPE_KE_VALID, .SPE_SKIPCNT_COUNT,
    .PWR_STAT_MODE, .PWR_STAT_SUB], [.spe, .host, .bur, .power, .out]⟩) ∧
  (ChangesOnly .speStop ⟨[], retractRegs ++ [.SPE_STAT_STATE, .SPE_STAT_ATSPD, .SPE_STAT_TICKPRED], [.events, .eventSeq,
    .spe, .str, .host, .bridge, .bur, .power, .out]⟩) ∧
  (ChangesOnly .gatesOffEnd ⟨[], [], [.spe]⟩) ∧
  (∀ fit, ChangesOnly (.measureFit fit) ⟨[], retractRegs ++ [.CAPO_STAT_STATE, .CAPO_STAT_SLEW, .CAPO_STAT_WINH,
    .CAPO_STAT_SPE_FAULT, .SPE_SETPT_RPM, .SPE_STAT_STATE, .SPE_STAT_ATSPD, .SPE_STAT_DIR, .SPE_STAT_WINH,
    .SPE_STAT_TICKPRED, .SPE_STAT_START_FAIL, .SPE_SPEED_MRPM, .STRM_STAT_FROZEN], [.shadow, .events, .eventSeq, .capo,
    .spe, .str, .host, .bridge, .bur, .power, .out]⟩) ∧
  (ChangesOnly .residualHoldEnd ⟨[], [.SPE_STAT_STATE, .SPE_STAT_ATSPD, .SPE_STAT_TICKPRED, .PWR_STAT_MODE,
    .PWR_STAT_SUB], [.spe, .host, .bur, .power, .out]⟩) ∧
  (ChangesOnly .alignEnd ⟨[], [.SPE_STAT_STATE, .SPE_STAT_ATSPD, .SPE_STAT_TICKPRED, .PWR_STAT_MODE, .PWR_STAT_SUB],
    [.spe, .host, .bur, .power, .out]⟩) ∧
  (∀ p, ChangesOnly (.pwmPeriod p) ⟨[], retractRegs ++ [.CAPO_STAT_STATE, .CAPO_STAT_SLEW, .CAPO_STAT_WINH,
    .CAPO_STAT_SPE_FAULT, .SPE_SETPT_RPM, .SPE_STAT_STATE, .SPE_STAT_ATSPD, .SPE_STAT_WINH, .SPE_STAT_TICKPRED,
    .SPE_STAT_KE_MISMATCH, .SPE_STAT_START_FAIL, .SPE_SPEED_MRPM, .SPE_KE_KE, .SPE_KE_VALID, .SPE_SKIPCNT_COUNT,
    .SPE_TICK_PERIOD, .STRM_STAT_FROZEN, .SB_RTC_SEC], [.shadow, .timebase, .draws, .events, .eventSeq, .capo, .spe, .str,
    .host, .bridge, .bur, .power, .bench, .out]⟩) ∧
  (ChangesOnly .skipLimit ⟨[], [.SPE_STAT_SKIP_LIM], []⟩) ∧
  (ChangesOnly .skipLimitLift ⟨[], [.SPE_STAT_SKIP_LIM], []⟩) ∧
  (ChangesOnly .speedLoopUpdate ⟨[.spe], [], [.shadow, .draws, .spe]⟩) ∧
  (∀ value, ChangesOnly (.speSetptWrite value) ⟨[], [.SPE_SETPT_RPM, .SPE_STAT_SETPT_RANGE], [.shadow]⟩) ∧
  (ChangesOnly .vmOvervoltage ⟨[], [.SPE_STAT_REGEN_CLAMP], [.spe]⟩) ∧
  (∀ time, ChangesOnly (.overcurrentTrip time) ⟨[], retractRegs ++ [.CAPO_STAT_STATE, .CAPO_STAT_SLEW, .CAPO_STAT_WINH,
    .CAPO_STAT_SPE_FAULT, .SPE_SETPT_RPM, .SPE_STAT_STATE, .SPE_STAT_ATSPD, .SPE_STAT_WINH, .SPE_STAT_TICKPRED,
    .SPE_STAT_OC_TRIP, .SPE_STAT_START_FAIL, .STRM_STAT_FROZEN, .SB_RTC_SEC], [.shadow, .timebase, .events, .eventSeq,
    .capo, .spe, .str, .host, .bridge, .bur, .power, .out]⟩) ∧
  (ChangesOnly .ocHoldEnd ⟨[], [], [.spe]⟩) ∧
  (ChangesOnly .observerLoss ⟨[], retractRegs ++ [.CAPO_STAT_STATE, .CAPO_STAT_SLEW, .CAPO_STAT_WINH,
    .CAPO_STAT_SPE_FAULT, .SPE_SETPT_RPM, .SPE_STAT_STATE, .SPE_STAT_ATSPD, .SPE_STAT_WINH, .SPE_STAT_TICKPRED,
    .SPE_STAT_START_FAIL, .STRM_STAT_FROZEN], [.shadow, .events, .eventSeq, .capo, .spe, .str, .host, .bridge, .bur,
    .power, .out]⟩) ∧
  (∀ inSequence angle mrpm, ChangesOnly (.zeroCrossing inSequence angle mrpm) ⟨[], [.SPE_STAT_STATE, .SPE_STAT_ATSPD,
    .SPE_STAT_TICKPRED, .SPE_STAT_REACQ_OK, .SPE_SPEED_MRPM, .PWR_STAT_MODE, .PWR_STAT_SUB], [.spe, .host, .bur, .power,
    .out]⟩) ∧
  (ChangesOnly .reacqFloat ⟨[], [], [.spe]⟩) ∧
  (ChangesOnly .coastEntry ⟨[], inhibitRegs ++ [.CAPO_STAT_STATE, .CAPO_STAT_SLEW, .CAPO_STAT_WINH, .CAPO_STAT_SPE_FAULT,
    .SPE_SETPT_RPM, .SPE_STAT_STATE, .SPE_STAT_ATSPD, .SPE_STAT_WINH, .SPE_STAT_TICKPRED, .SPE_STAT_OBS_LOSS,
    .STRM_STAT_FROZEN, .PWR_STAT_MODE, .PWR_STAT_SUB], [.shadow, .events, .eventSeq, .capo, .spe, .str, .host, .bridge,
    .bur, .power, .out]⟩) ∧
  (ChangesOnly .atSpeed ⟨[], [.SPE_STAT_ATSPD, .PWR_STAT_MODE, .PWR_STAT_SUB], [.spe, .host, .bur, .power, .out]⟩) ∧
  (ChangesOnly .rcbBlock ⟨[], [], [.spe]⟩) ∧
  (ChangesOnly .rcbConduct ⟨[], [], [.spe]⟩)

/-- Frames of the loading, retract and shock commands of a String, in every state: outside the register fields and the parts of the state that a line names for its
command, every register field of every instance reads as before, every other part is as before (every byte of memory where `mem`
is not named), and the queue is as before. -/
def Obligations.StringControlFrames : Prop :=
  (∀ x, ChangesOnly (.load x) ⟨[.rch, .sfm], inhibitRegs ++ [.SCEx_STAT_STATE, .SCEx_STAT_WINH, .SCEx_STAT_FALLBACK,
    .SCEx_STAT_LOOP_OPEN, .SCEx_STAT_LOSTCNT, .SCEx_STAT_OVRCNT, .SCEx_STAT_FB_PEND, .SCEx_STAT_CFG_LOCKED,
    .SCEx_CYC_MAND, .SCEx_LOSTTOT_COUNT, .SVDx_STAT_SYNC_STATE, .AEx_STAT_STATE], [.str, .host, .bridge]⟩) ∧
  (∀ x, ChangesOnly (.unload x) ⟨[], inhibitRegs ++ [.SCEx_STAT_STATE, .SCEx_STAT_PVALID, .SCEx_STAT_WINH,
    .SCEx_STAT_RETRACTED, .AEx_STAT_STATE, .RCHx_STAT_SLOTS_FREE, .RCHx_STAT_PENDQ, .RCHx_SLOT_BUSY, .BRG_USE_PAGES,
    .SQ_CNT_DEFERRED], [.events, .eventSeq, .str, .host, .bridge, .out]⟩) ∧
  (∀ x, ChangesOnly (.retract x) ⟨[], inhibitRegs ++ [.SCEx_STAT_STATE, .SCEx_STAT_PVALID, .SCEx_STAT_WINH,
    .SCEx_STAT_RETRACTED, .AEx_STAT_STATE, .RCHx_STAT_SLOTS_FREE, .RCHx_STAT_PENDQ, .RCHx_SLOT_BUSY, .BRG_USE_PAGES,
    .SQ_CNT_DEFERRED], [.events, .eventSeq, .str, .host, .bridge, .out]⟩) ∧
  (∀ x, ChangesOnly (.bankSw x) ⟨[], [.SCEx_STAT_ACTBANK, .SCEx_STAT_FALLBACK, .SCEx_STAT_FB_PEND, .SCEx_STAT_CFG_LOCKED,
    .SCEx_CYC_MAND], []⟩) ∧
  (∀ x target offs, ChangesOnly (.targetPost x target offs) ⟨[], [.SCEx_TGT_SHADOW_PEND], [.shadow]⟩) ∧
  (∀ x, ChangesOnly (.loadTimeout x) ⟨[], retractRegs ++ chestRegs ++ streamRegs ++ sequencerRegs ++
    [.SCEx_STAT_LOAD_FAIL, .SCEx_TGT_SHADOW_PEND, .RLDx_STAT_ACTIVE, .RLDx_STAT_WAITQ, .STRM_STAT_WDRN, .STRM_CNT1_WDRN,
    .CHST_STAT_JRNL_WAIT, .PWR_STAT_DEGR, .PWR_STRLOST_LOST, .PWR_DOMREQ_ON, .PWR_DOMSTAT_ON], [.shadow, .events,
    .eventSeq, .str, .harp, .host, .bridge, .phv, .bur, .power, .out]⟩) ∧
  (∀ x, ChangesOnly (.loopOpen x) ⟨[], [.SCEx_STAT_LOOP_OPEN], []⟩) ∧
  (∀ x, ChangesOnly (.retractRampEnd x) ⟨[], [.SCEx_MACMD_S31], [.str]⟩) ∧
  (∀ x terminal current vm time, ChangesOnly (.retractVelocityLoop x terminal current vm time) ⟨[], [.SCEx_VCMCMD_S30,
    .SCEx_MACMD_S31, .PWR_RETLOG_VM_MIN, .SB_RTC_SEC], [.timebase, .draws, .str, .power]⟩) ∧
  (∀ x, ChangesOnly (.retractPark x) ⟨[], [.SCEx_VCMCMD_S30], [.str]⟩) ∧
  (∀ x, ChangesOnly (.retractHoldEnd x) ⟨Blk.all, [], [.shadow, .mem, .control, .staged, .timebase, .draws, .events,
    .eventSeq, .fret, .capo, .spe, .str, .harp, .host, .bridge, .cab, .phv, .memory, .bur, .power, .cal, .therm, .lc,
    .bench, .out]⟩) ∧
  (∀ input level, ChangesOnly (.shockEvent input level) ⟨[], inhibitRegs ++ [.SCEx_STAT_WINH, .SB_STAT_SHOCK,
    .SB_CNT_SHOCK], [.str, .host, .bridge]⟩) ∧
  (ChangesOnly .shockHoldEnd ⟨[], [], [.str]⟩)

/-- Frames of the energy assist and read channel commands, in every state: outside the register fields and the parts of the state that a line names for its
command, every register field of every instance reads as before, every other part is as before (every byte of memory where `mem`
is not named), and the queue is as before. -/
def Obligations.AssistAndChannelFrames : Prop :=
  (∀ x gateCycles fretCycles, ChangesOnly (.assistSlot x gateCycles fretCycles) ⟨[.ae], sequencerRegs ++
    [.SCEx_TGT_SHADOW_PEND, .BRG_USE_CELLS, .SQ_CNT_DEFERRED], [.shadow, .events, .eventSeq, .str, .host, .bridge, .out]⟩) ∧
  (∀ x reply, ChangesOnly (.nutReply x reply) ⟨[], sequencerRegs ++ [.SCEx_TGT_SHADOW_PEND, .AEx_STAT_STATE,
    .AEx_STAT_TD_HIT, .AEx_CALHTR_HTR, .AEx_H_HTR_HTR_RD, .AEx_H_HTR_HTR_WIDLE, .AEx_H_HTR_HTR_WR, .AEx_H_HSTAT_TEMP,
    .AEx_H_HSTAT_HCORR, .NUTx_BGRESP_DATA, .NUTx_STAT_BG_BUSY, .NUTx_STAT_BG_DONE, .NUTx_STAT_BG_ERR, .NUTx_STAT_WDOG,
    .NUTx_STAT_WFLT, .NUTx_CNT_CRC_ERR, .NUTx_CNT_NACK, .BRG_USE_CELLS, .SQ_CNT_DEFERRED, .CAL_STAT_BUSY, .CAL_STAT_DONE,
    .CAL_STAT_RESULT], [.shadow, .str, .host, .bridge, .bur, .cal, .out]⟩) ∧
  (∀ x, ChangesOnly (.linkFailure x) ⟨[], retractRegs ++ chestRegs ++ streamRegs ++ sequencerRegs ++
    [.SCEx_TGT_SHADOW_PEND, .AEx_STAT_NUT_FAIL, .RLDx_STAT_ACTIVE, .RLDx_STAT_WAITQ, .STRM_STAT_WDRN, .STRM_CNT1_WDRN,
    .CHST_STAT_JRNL_WAIT, .PWR_STAT_DEGR, .PWR_STRLOST_LOST, .PWR_DOMREQ_ON, .PWR_DOMSTAT_ON], [.shadow, .events,
    .eventSeq, .str, .harp, .host, .bridge, .phv, .bur, .power, .out]⟩) ∧
  (∀ x head, ChangesOnly (.hotHeadClear x head) ⟨[], [], [.str]⟩) ∧
  (∀ x, ChangesOnly (.backgroundFrameStart x) ⟨[], [], [.str, .out]⟩) ∧
  (∀ x, ChangesOnly (.bgGo x) ⟨[], [.NUTx_STAT_BG_BUSY, .NUTx_STAT_BG_ERR], [.str]⟩) ∧
  (∀ x on, ChangesOnly (.wrArm x on) ⟨[], [.AEx_CTRL_WR_ARM], [.shadow]⟩) ∧
  (∀ x, ChangesOnly (.abortClr x) ⟨[], [.AEx_STAT_STATE, .AEx_STAT_CFG_LOCKED], [.str]⟩) ∧
  (∀ x, ChangesOnly (.warmUpComplete x) ⟨[], [.AEx_STAT_STATE], [.str, .out]⟩) ∧
  (∀ x, ChangesOnly (.armLapse x) ⟨[], [.AEx_CTRL_WR_ARM, .AEx_STAT_STATE, .AEx_STAT_ARM_LAPSE], [.shadow, .str]⟩) ∧
  (∀ x, ChangesOnly (.flyHeightUpdate x) ⟨[], [.AEx_H_HSTAT_HCORR], [.str]⟩) ∧
  (∀ x, ChangesOnly (.readGateOpen x) ⟨[.rch], [.BRG_STAT_RSLIP, .BRG_USE_CELLS, .BRG_USE_PAGES, .BRG_RSLIP_COUNT,
    .PWR_DOMSTAT_ON, .PEGx_V_VALUE], [.shadow, .mem, .str, .memory]⟩) ∧
  (∀ x, ChangesOnly (.pllLock x) ⟨[], [.RCHx_STAT_PLL_LOCK, .RCHx_RATE_BITRATE, .PWR_DOMSTAT_ON, .PEGx_V_VALUE], []⟩) ∧
  (∀ x start before bits, ChangesOnly (.syncMarkLatch x start before bits) ⟨[], [.SFMx_STAT_SYNC_ALT, .SFMx_LAST_OFFS,
    .SFMx_LAST_MISM], [.str]⟩) ∧
  (∀ x, ChangesOnly (.syncWindowClose x) ⟨[], [.SFMx_STAT_SYNC_MISS, .SFMx_STAT_FSYNC_MISS, .SFMx_LAST_MISM,
    .SFMx_CNT_SYNC_MISS], [.str]⟩) ∧
  (∀ x r0 r1 r2 first second, ChangesOnly (.captureEnd x r0 r1 r2 first second) ⟨[], [.RCHx_STAT_EQ_DIV,
    .RCHx_STAT_RDR_LOW, .RCHx_STAT_SLOTS_FREE, .RCHx_STAT_PENDQ, .RCHx_MSE_LAST, .RCHx_AMP_A0, .RCHx_AMP_A1, .RCHx_AMP_A2,
    .RCHx_GAIN_G0, .RCHx_GAIN_G1, .RCHx_GAIN_G2, .RCHx_SLOT_BUSY], [.mem, .str, .memory]⟩) ∧
  (∀ x, ChangesOnly (.save x) ⟨[], [], [.str]⟩) ∧
  (∀ x, ChangesOnly (.restore x) ⟨[], [], [.str]⟩) ∧
  (∀ x n w v, ChangesOnly (.channelSetWrite x n w v) ⟨[], [.RCHx_STAT_CFG_LOCKED, .RCHx_SET_SET, .PWR_DOMSTAT_ON,
    .PEGx_V_VALUE], []⟩) ∧
  (∀ x, ChangesOnly (.capGo x) ⟨[], [.RCHx_STAT_CAP_BUSY], []⟩) ∧
  (∀ cap, ChangesOnly (.calCaptureEnd cap) ⟨[], [.RCHx_STAT_CAP_BUSY], [.mem, .memory]⟩)

/-- Frames of the formatter sequencer commands, in every state: outside the register fields and the parts of the state that a line names for its
command, every register field of every instance reads as before, every other part is as before (every byte of memory where `mem`
is not named), and the queue is as before. -/
def Obligations.SequencerFrames : Prop :=
  (∀ x q, ChangesOnly (.routineDispatch x q) ⟨[.seq], [], [.shadow, .str]⟩) ∧
  (∀ x q pt, ChangesOnly (.microwordIssue x q pt) ⟨[], requestRegs ++ [.RCHx_STAT_PLL_LOCK, .RCHx_STAT_SET_INV,
    .RCHx_STAT_SET, .RCHx_RATE_BITRATE, .RCHx_FIR_TAP, .RCHx_NP_NP, .SQ_STAT_PC, .SQ_RESUME_ADDR, .SQ_OUT_VALUE,
    .SQ_UFLAG_FLAGS, .SQ_UCNT_COUNT, .PEGx_V_VALUE], [.shadow, .draws, .events, .eventSeq, .str, .harp, .host, .bridge,
    .phv, .bur, .power, .bench, .out]⟩) ∧
  (∀ x q pt, ChangesOnly (.reqLoad x q pt) ⟨[], [], [.str]⟩) ∧
  (∀ x q status, ChangesOnly (.reqDone x q status) ⟨[], requestRegs ++ [.SQ_OUT_VALUE, .SQ_UFLAG_FLAGS, .SQ_UCNT_COUNT],
    [.shadow, .events, .eventSeq, .str, .harp, .host, .bridge, .phv, .bur, .power, .out]⟩) ∧
  (∀ x q, ChangesOnly (.requeue x q) ⟨[], requestRegs ++ [.SQ_OUT_VALUE, .SQ_UFLAG_FLAGS, .SQ_UCNT_COUNT], [.shadow,
    .events, .eventSeq, .str, .harp, .host, .bridge, .phv, .bur, .power, .out]⟩) ∧
  (∀ x q code value, ChangesOnly (.post x q code value) ⟨[], requestRegs ++ [.SQ_OUT_VALUE, .SQ_UFLAG_FLAGS,
    .SQ_UCNT_COUNT], [.shadow, .events, .eventSeq, .str, .harp, .host, .bridge, .phv, .bur, .power, .out]⟩) ∧
  (∀ x q pt, ChangesOnly (.nextsec x q pt) ⟨[], [], [.str]⟩) ∧
  (∀ x q pt, ChangesOnly (.rewind x q pt) ⟨[], [], [.str]⟩) ∧
  (∀ x arg pt, ChangesOnly (.capture x arg pt) ⟨[], [], [.str]⟩) ∧
  (∀ x q, ChangesOnly (.cont x q) ⟨[], [], [.str]⟩) ∧
  (∀ x, ChangesOnly (.close x) ⟨[], [.RCHx_STAT_SLOTS_FREE, .RCHx_STAT_PENDQ, .RCHx_SLOT_BUSY, .BRG_USE_CELLS,
    .BRG_USE_PAGES], [.str]⟩) ∧
  (∀ x arg, ChangesOnly (.setsel x arg) ⟨[], [.RCHx_STAT_PLL_LOCK, .RCHx_STAT_SET_INV, .RCHx_STAT_SET,
    .RCHx_RATE_BITRATE, .RCHx_FIR_TAP, .RCHx_NP_NP, .PWR_DOMSTAT_ON, .PEGx_V_VALUE], [.str]⟩) ∧
  (∀ x pt, ChangesOnly (.start x pt) ⟨[], [.WRPx_STAT_RUN], [.str]⟩) ∧
  (∀ x, ChangesOnly (.withdraw x) ⟨[], [], [.str]⟩) ∧
  (∀ x arg, ChangesOnly (.uevt x arg) ⟨[], [], [.str]⟩) ∧
  (∀ x q, ChangesOnly (.commit x q) ⟨[], sequencerRegs ++ [.SCEx_TGT_SHADOW_PEND, .SQ_STAT_COMMITTED, .SQ_OUT_VALUE,
    .SQ_UFLAG_FLAGS, .SQ_UCNT_COUNT], [.shadow, .str, .out]⟩) ∧
  (∀ x q next, ChangesOnly (.yieldWord x q next) ⟨[], [.SQ_STAT_STATE, .SQ_STAT_COMMITTED, .SQ_STAT_HANDLER, .SQ_STAT_PC,
    .SQ_RESUME_ADDR], [.str]⟩) ∧
  (∀ x q, ChangesOnly (.endRoutine x q) ⟨[], sequencerRegs ++ [.SCEx_TGT_SHADOW_PEND, .SQ_STAT_STATE, .SQ_STAT_COMMITTED,
    .SQ_STAT_HANDLER, .SQ_OUT_VALUE, .SQ_UFLAG_FLAGS, .SQ_UCNT_COUNT], [.shadow, .str, .out]⟩) ∧
  (∀ x q, ChangesOnly (.resume x q) ⟨[], requestRegs ++ [.SQ_STAT_PC], [.shadow, .events, .eventSeq, .str, .harp, .host,
    .bridge, .phv, .bur, .power, .out]⟩) ∧
  (∀ x q, ChangesOnly (.drop x q) ⟨[], requestRegs, [.shadow, .events, .eventSeq, .str, .harp, .host, .bridge, .phv,
    .bur, .power, .out]⟩) ∧
  (∀ x q, ChangesOnly (.seqInterrupt x q) ⟨[], sequencerRegs ++ [.SQ_STAT_STATE, .SQ_STAT_COMMITTED, .SQ_STAT_HANDLER,
    .SQ_STAT_ABANDON, .SQ_STAT_PC, .SQ_CNT_ABANDONS], [.str]⟩) ∧
  (∀ x q, ChangesOnly (.sqGo x q) ⟨[], [.SQ_STAT_STATE], []⟩) ∧
  (∀ x q, ChangesOnly (.sqStop x q) ⟨[], [.SQ_STAT_STATE], [.str]⟩) ∧
  (∀ x q, ChangesOnly (.sqRst x q) ⟨[], sequencerRegs ++ [.SQ_STAT_STATE, .SQ_STAT_FCAUSE], [.str]⟩) ∧
  (∀ x q, ChangesOnly (.doorbell x q) ⟨[], [.SQ_CNT_DEFERRED], [.str]⟩) ∧
  (∀ x q a off v, ChangesOnly (.microwordWrite x q a off v) ⟨[], [.SQ_STAT_CFG_LOCKED], [.control, .staged, .memory]⟩)

/-- Frames of the cleaning, Chest, recovery ladder and Harp commands, in every state: outside the register fields and the parts of the state that a line names for its
command, every register field of every instance reads as before, every other part is as before (every byte of memory where `mem`
is not named), and the queue is as before. -/
def Obligations.RecoveryFrames : Prop :=
  (∀ record, ChangesOnly (.bandCleanStart record) ⟨[], chestRegs ++ sequencerRegs ++ [.SCEx_TGT_SHADOW_PEND,
    .BRG_USE_CELLS, .CHST_STAT_JRNL_WAIT], [.shadow, .draws, .str, .host, .bridge]⟩) ∧
  (∀ record, ChangesOnly (.skipAgeTimeout record) ⟨[], chestRegs ++ sequencerRegs ++ [.SCEx_TGT_SHADOW_PEND,
    .BRG_USE_CELLS, .CHST_STAT_JRNL_WAIT], [.shadow, .draws, .str, .host, .bridge]⟩) ∧
  (ChangesOnly .journalResume ⟨[], chestRegs, [.bridge]⟩) ∧
  (∀ us, ChangesOnly (.chestWriteGrant us) ⟨[], chestRegs, [.bridge]⟩) ∧
  (∀ group, ChangesOnly (.wearGapMove group) ⟨[], [], [.bridge]⟩) ∧
  (∀ x turn, ChangesOnly (.ladderRevolution x turn) ⟨[], chestRegs ++ sequencerRegs ++ [.SCEx_TGT_SHADOW_PEND,
    .RCHx_STAT_SLOTS_FREE, .RCHx_STAT_PENDQ, .RCHx_CNT1_REDET, .RCHx_SLOT_BUSY, .RLDx_STAT_ACTIVE, .RLDx_STAT_WAITQ,
    .RLDx_STAT_TLER_CUT, .RLDx_CNT4_FAIL, .RLDx_LAST_RUNG, .RLDx_LASTLBA0_LBA_LO, .RLDx_LASTLBA1_LBA_HI, .BRG_USE_CELLS,
    .BRG_USE_PAGES, .CHST_STAT_JRNL_WAIT], [.shadow, .events, .eventSeq, .str, .harp, .host, .bridge, .cab]⟩) ∧
  (∀ x turn, ChangesOnly (.parityPass x turn) ⟨[], chestRegs ++ sequencerRegs ++ [.SCEx_TGT_SHADOW_PEND,
    .RCHx_STAT_SLOTS_FREE, .RCHx_STAT_PENDQ, .RCHx_CNT1_REDET, .RCHx_SLOT_BUSY, .RLDx_STAT_ACTIVE, .RLDx_STAT_WAITQ,
    .RLDx_STAT_TLER_CUT, .RLDx_CNT4_FAIL, .RLDx_LAST_RUNG, .RLDx_LASTLBA0_LBA_LO, .RLDx_LASTLBA1_LBA_HI, .BRG_USE_CELLS,
    .BRG_USE_PAGES, .CHST_STAT_JRNL_WAIT], [.shadow, .events, .eventSeq, .str, .harp, .host, .bridge, .cab]⟩) ∧
  (∀ x, ChangesOnly (.ladderResume x) ⟨[], [.RLDx_STAT_ACTIVE, .RLDx_STAT_WAITQ], [.str]⟩) ∧
  (∀ fseq, ChangesOnly (.tlerExpiry fseq) ⟨[], [.RLDx_STAT_TLER_CUT], [.str, .host]⟩) ∧
  (∀ x slot, ChangesOnly (.codewordReady x slot) ⟨[.rld], codewordRegs ++ [.RCHx_CNT2_PD_POL, .HARP_STAT_OVF,
    .HARP_CNT3_OVF], [.shadow, .events, .eventSeq, .str, .harp, .host, .bridge, .cab]⟩) ∧
  (∀ x second, ChangesOnly (.detectorPassDone x second) ⟨[], [.RCHx_CNT1_REDET, .RCHx_CNT2_PD_POL, .HARP_STAT_OVF,
    .HARP_CNT3_OVF], [.str, .harp]⟩) ∧
  (ChangesOnly .harpDispatch ⟨[.harp], [], [.shadow, .harp]⟩) ∧
  (∀ lane out signature, ChangesOnly (.laneResult lane out signature) ⟨[], [], [.harp]⟩) ∧
  (∀ lane, ChangesOnly (.laneWatchdog lane) ⟨[], laneRegs ++ [.RCHx_CNT1_REDET, .HARP_STAT_STRIKE, .HARP_STRIKE0_COUNT,
    .HARP_STRIKE1_COUNT, .HARP_CNT1_STRIKES, .HARP_CNT1_RESTARTS], [.events, .eventSeq, .str, .harp, .host, .bridge, .bur,
    .power, .out]⟩) ∧
  (∀ lane zero, ChangesOnly (.syndromeVerdict lane zero) ⟨[.rld], laneRegs ++ [.SCEx_TGT_SHADOW_PEND,
    .RCHx_STAT_ITER_LIM, .RCHx_CNT1_REDET, .RCHx_CNT1_ITER_LIM, .HARP_STAT_STRIKE, .HARP_STAT_CHK_FAULT,
    .HARP_STAT_LBA_MISMATCH, .HARP_STAT_CHK_RET, .HARP_STRIKE0_COUNT, .HARP_STRIKE1_COUNT, .HARP_CNT0_CONFIRMED,
    .HARP_CNT1_STRIKES, .HARP_CNT1_RESTARTS, .HARP_CNT2_SLIP_OK, .HARP_CNT2_SLIP_FAIL, .HARP_CNT3_MISCLAIM,
    .HARP_SLIPHIST_P1, .HARP_SLIPHIST_P2, .HARP_SLIPHIST_P3, .HARP_SLIPHIST_P4, .HARP_SLIPHIST_N1, .HARP_SLIPHIST_N2,
    .HARP_SLIPHIST_N3, .HARP_SLIPHIST_N4, .CAB_STAT_HOLD_WAIT, .CAB_CNT3_HOLD_WAIT], [.shadow, .events, .eventSeq, .str,
    .harp, .host, .bridge, .cab, .bur, .power, .out]⟩) ∧
  (∀ lane passed, ChangesOnly (.selfTestDone lane passed) ⟨[], laneRegs ++ [.HARP_STAT_STRIKE, .HARP_STRIKE0_COUNT,
    .HARP_STRIKE1_COUNT, .HARP_CNT1_STRIKES], [.events, .eventSeq, .str, .harp, .host, .bridge, .bur, .power, .out]⟩) ∧
  (∀ lane, ChangesOnly (.harpRetire lane) ⟨[], laneRegs ++ [.RCHx_CNT1_REDET, .HARP_CTRL_RLANE, .HARP_CNT1_RESTARTS],
    [.events, .eventSeq, .str, .harp, .host, .bridge, .bur, .power, .out]⟩) ∧
  (∀ lane, ChangesOnly (.harpUnretire lane) ⟨[], chestRegs ++ sequencerRegs ++ [.RCHx_STAT_SLOTS_FREE, .RCHx_STAT_PENDQ,
    .RCHx_SLOT_BUSY, .HARP_CTRL_RLANE, .HARP_STAT_INSVC, .HARP_STAT_AVAIL, .HARP_STAT_BELOW_FLOOR, .HARP_STAT_CFG_LOCKED,
    .HARP_RETIRED_LANES, .HARP_WDRAWN_LANES, .HARP_STRIKE0_COUNT, .HARP_STRIKE1_COUNT, .RLDx_STAT_ACTIVE,
    .RLDx_STAT_WAITQ, .STRM_STAT_ARMED, .STRM_HARP_REQ, .STRM_HARP_CAP, .STRM_MED_USED, .STRM_MED_STREAMS, .BRG_STRM_RSV,
    .BRG_USE_CELLS, .BRG_USE_PAGES, .CHST_STAT_JRNL_WAIT, .PWR_STAT_MODE, .PWR_STAT_SUB, .PWR_STAT_DEGR], [.events,
    .eventSeq, .str, .harp, .host, .bridge, .bur, .power, .out]⟩)

/-- Frames of the write path and Phovi commands, in every state: outside the register fields and the parts of the state that a line names for its
command, every register field of every instance reads as before, every other part is as before (every byte of memory where `mem`
is not named), and the queue is as before. -/
def Obligations.WritePathFrames : Prop :=
  (∀ x, ChangesOnly (.writeGateOpen x) ⟨[.wrp], chestRegs ++ [.RCHx_STAT_PLL_LOCK, .RCHx_STAT_SET_INV, .RCHx_STAT_SET,
    .RCHx_RATE_BITRATE, .RCHx_FIR_TAP, .RCHx_NP_NP, .CHST_STAT_JRNL_WAIT, .PWR_DOMSTAT_ON, .PEGx_V_VALUE], [.shadow, .str,
    .host, .bridge, .out]⟩) ∧
  (∀ x, ChangesOnly (.sectorWritten x) ⟨[], chestRegs ++ sequencerRegs ++ versionRegs ++ [.SCEx_TGT_SHADOW_PEND,
    .WRPx_STAT_GATE, .WRPx_STAT_RUN, .WRPx_STAT_CUT, .WRPx_STAT_FIFO, .WRPx_STAT_ACC_N, .WRPx_CNT0_SECTORS,
    .WRPx_CNT1_CUT, .BRG_USE_CELLS, .CHST_STAT_JRNL_WAIT], [.shadow, .str, .host, .bridge, .phv]⟩) ∧
  (∀ x good, ChangesOnly (.encodeDone x good) ⟨[], [.WRPx_STAT_ENC_FAULT, .WRPx_STAT_FIFO, .WRPx_CNT2_ENC_RETRY],
    [.str]⟩) ∧
  (∀ x on, ChangesOnly (.writePathEnable x on) ⟨[], [.WRPx_CTRL_EN, .WRPx_STAT_CFG_LOCKED], [.str]⟩) ∧
  (∀ x, ChangesOnly (.accClr x) ⟨[], [.WRPx_STAT_ACC_N], [.str]⟩) ∧
  (∀ x prev bad, ChangesOnly (.squeezeVerify x prev bad) ⟨[], sequencerRegs ++ [.SCEx_TGT_SHADOW_PEND, .WRPx_CNT2_SQZ,
    .BRG_USE_CELLS], [.shadow, .str, .host]⟩) ∧
  (∀ record n, ChangesOnly (.writeBatchIssue record n) ⟨[], chestRegs ++ sequencerRegs ++ keySlotRegs ++
    [.SCEx_TGT_SHADOW_PEND, .WRPx_STAT_ACC_N, .BRG_USE_CELLS, .CHST_STAT_JRNL_WAIT, .CAB_STAT_KEY_LOW, .CAB_STAT_KEY_EXH],
    [.shadow, .events, .eventSeq, .str, .host, .bridge, .cab, .phv, .out]⟩) ∧
  (∀ record, ChangesOnly (.accumulatorRebuild record) ⟨[], chestRegs ++ [.WRPx_STAT_ACC_N, .CHST_STAT_JRNL_WAIT], [.str,
    .host, .bridge]⟩) ∧
  (∀ x good, ChangesOnly (.reallocate x good) ⟨[], chestRegs ++ sequencerRegs ++ [.SCEx_TGT_SHADOW_PEND,
    .RLDx_STAT_SPARE_LOW, .BRG_USE_CELLS, .CHST_STAT_JRNL_WAIT], [.shadow, .str, .host, .bridge]⟩) ∧
  (∀ engine, ChangesOnly (.phoviJobStart engine) ⟨[.phovi], [], [.shadow, .host, .bridge, .phv]⟩) ∧
  (∀ engine capsules overrun code, ChangesOnly (.phoviJobDone engine capsules overrun code) ⟨[], [.BRG_USE_PAGES,
    .PHV_STAT_INSVC, .PHV_STAT_VFY_FAIL, .PHV_STAT_DEC_ERR, .PHV_STAT_ENG_FAULT, .PHV_STAT_SLOTS_FREE, .PHV_STAT_QUEUED,
    .PHV_ENG_STATE, .PHV_ENG_VFYCNT, .PHV_CNT0_RAW_KIB, .PHV_CNT1_PACK_KIB, .PHV_CNT2_VFY_FAIL, .PHV_CNT2_DEC_ERR,
    .PHV_ERRLOG_LAST_CODE, .PHV_ERRLOG_ENGINE, .PHV_ERRLOG_REPEAT, .PHV_ERRCSA0_CSA_LO, .PHV_ERRCSA1_CSA_HI,
    .PWR_STAT_MODE, .PWR_STAT_SUB, .PWR_STAT_DEGR], [.events, .eventSeq, .host, .bridge, .phv, .bur, .power, .out]⟩) ∧
  (∀ engine, ChangesOnly (.jobSuspend engine) ⟨[], [.PHV_STAT_PREEMPT, .PHV_STAT_SLOTS_FREE, .PHV_STAT_QUEUED,
    .PHV_ENG_STATE, .PHV_CNT3_PREEMPT], [.phv]⟩) ∧
  (∀ record, ChangesOnly (.packTimeout record) ⟨[], [], [.phv]⟩) ∧
  (∀ fseq, ChangesOnly (.spaceTimeout fseq) ⟨[], [.PHV_STAT_CAP_EXC, .PHV_CNT3_CAP_EXC], [.host, .bridge, .phv]⟩) ∧
  (∀ mask, ChangesOnly (.phoviRetire mask) ⟨[], [.PHV_STAT_INSVC, .PHV_STAT_ENG_FAULT, .PHV_STAT_SLOTS_FREE,
    .PHV_STAT_QUEUED, .PHV_ENG_STATE, .PWR_STAT_MODE, .PWR_STAT_SUB, .PWR_STAT_DEGR], [.events, .eventSeq, .host, .phv,
    .bur, .power, .out]⟩) ∧
  (∀ mask, ChangesOnly (.phoviUnretire mask) ⟨[], [.PHV_STAT_INSVC, .PHV_STAT_CFG_LOCKED, .PHV_STAT_SLOTS_FREE,
    .PHV_STAT_QUEUED, .PHV_ENG_STATE, .PHV_ENG_VFYCNT, .PWR_STAT_MODE, .PWR_STAT_SUB, .PWR_STAT_DEGR], [.host, .bur,
    .power, .out]⟩)

/-- Frames of the Cabinet and Bridge commands, in every state: outside the register fields and the parts of the state that a line names for its
command, every register field of every instance reads as before, every other part is as before (every byte of memory where `mem`
is not named), and the queue is as before. -/
def Obligations.CabinetAndBridgeFrames : Prop :=
  (∀ x, ChangesOnly (.encryptRequest x) ⟨[], sequencerRegs ++ [.SCEx_TGT_SHADOW_PEND, .BRG_USE_CELLS,
    .CAB_STAT_NONCE_GUARD, .SQ_CNT_DEFERRED], [.shadow, .str, .host, .bridge, .cab]⟩) ∧
  (ChangesOnly .holdEntryGrant ⟨[.rld], codewordRegs ++ [.CAB_STAT_TAG_FAIL, .CAB_STAT_NONCE_GUARD, .CAB_STAT_HOLD_USED,
    .CAB_CNT2_TAG_FAIL, .CAB_CNT2_GEN_BAD], [.shadow, .events, .eventSeq, .str, .harp, .host, .bridge, .cab]⟩) ∧
  (∀ fseq lba, ChangesOnly (.xtsRequest fseq lba) ⟨[], [.CAB_STAT_NONCE_GUARD], [.cab]⟩) ∧
  (∀ core intact, ChangesOnly (.cipherSectorDone core intact) ⟨[.rld], codewordRegs ++ [.CAB_STAT_TAG_FAIL,
    .CAB_STAT_HOLD_USED, .CAB_CNT0_DECRYPTS, .CAB_CNT1_ENCRYPTS, .CAB_CNT2_TAG_FAIL, .PHV_STAT_SLOTS_FREE,
    .PHV_STAT_QUEUED, .PHV_ENG_STATE], [.shadow, .events, .eventSeq, .str, .harp, .host, .bridge, .cab, .phv]⟩) ∧
  (∀ slot, ChangesOnly (.generate slot) ⟨[], keySlotRegs ++ [.CAB_CTRL_SLOT_OP, .CAB_CTRL_SLOT, .CAB_STAT_BUSY,
    .CAB_STAT_OP_ERR], [.cab]⟩) ∧
  (∀ slot, ChangesOnly (.erase slot) ⟨[], keySlotRegs ++ [.CAB_CTRL_SLOT_OP, .CAB_CTRL_SLOT, .CAB_STAT_BUSY,
    .CAB_STAT_OP_ERR], [.cab]⟩) ∧
  (∀ slot, ChangesOnly (.rekey slot) ⟨[], keySlotRegs ++ [.CAB_CTRL_SLOT_OP, .CAB_CTRL_SLOT, .CAB_STAT_BUSY,
    .CAB_STAT_OP_ERR], [.cab]⟩) ∧
  (∀ bad, ChangesOnly (.katGo bad) ⟨[], [.CAB_STAT_CORES, .CAB_STAT_CORE_RET, .CAB_CNT3_KAT_FAIL, .PWR_STAT_MODE,
    .PWR_STAT_SUB, .PWR_STAT_DEGR], [.events, .eventSeq, .host, .cab, .bur, .power, .out]⟩) ∧
  (∀ core passed, ChangesOnly (.katPeriodic core passed) ⟨[], [.CAB_STAT_CORES, .CAB_STAT_CORE_RET, .CAB_CNT3_KAT_FAIL,
    .PWR_STAT_MODE, .PWR_STAT_SUB, .PWR_STAT_DEGR], [.events, .eventSeq, .host, .cab, .bur, .power, .out]⟩) ∧
  (ChangesOnly .rngHealthFail ⟨[], [.CAB_STAT_RNG_FAIL], []⟩) ∧
  (∀ queue, ChangesOnly (.writeGrant queue) ⟨[], [.BRG_STAT_DESC_WAIT, .BRG_STAT_VSTORE_WAIT, .BRG_VSTORE_FREE,
    .BRG_DESC_FREE], [.host, .bridge, .phv]⟩) ∧
  (∀ fseq ok, ChangesOnly (.writeTransferEnd fseq ok) ⟨[], chestRegs ++ sequencerRegs ++ versionRegs ++
    [.SCEx_TGT_SHADOW_PEND, .HQEn_CNT1_PI_ERR, .BRG_USE_CELLS, .BRG_USE_PAGES, .CHST_STAT_JRNL_WAIT, .PHV_STAT_SLOTS_FREE,
    .PHV_STAT_QUEUED, .PHV_ENG_STATE, .MI_WLOST_RANGES], [.shadow, .draws, .str, .host, .bridge, .phv]⟩) ∧
  (∀ fseq lba, ChangesOnly (.hostTransferDone fseq lba) ⟨[], chestRegs ++ sequencerRegs ++ versionRegs ++
    [.SCEx_TGT_SHADOW_PEND, .BRG_USE_CELLS, .BRG_USE_PAGES], [.shadow, .draws, .str, .host, .bridge, .out]⟩) ∧
  (∀ fseq lba, ChangesOnly (.readPageSpill fseq lba) ⟨[], [.BRG_STAT_SPILLED, .BRG_VSTORE_FREE, .BRG_USE_PAGES], [.host,
    .bridge]⟩) ∧
  (∀ fseq, ChangesOnly (.chestEntryCommit fseq) ⟨[], chestRegs ++ versionRegs, [.host, .bridge]⟩) ∧
  (ChangesOnly .logEntryCopy ⟨[], chestRegs ++ [.CHST_WB_ENTRIES, .CHST_WB_FREE], [.bridge]⟩) ∧
  (ChangesOnly .bridgeGo ⟨[], [.BRG_STAT_CFG_LOCKED, .BRG_STAT_MAP_RSV, .BRG_VSTORE_FREE], [.bridge]⟩)

/-- Frames of the host I/O commands, in every state: outside the register fields and the parts of the state that a line names for its
command, every register field of every instance reads as before, every other part is as before (every byte of memory where `mem`
is not named), and the queue is as before. -/
def Obligations.HostIoFrames : Prop :=
  (∀ hqe sqids cids nsids ops, ChangesOnly (.commandFetch hqe sqids cids nsids ops) ⟨[], [.SPE_STAT_STATE,
    .SPE_STAT_ATSPD, .SPE_STAT_TICKPRED, .SPE_KE_VALID, .SPE_SKIPCNT_COUNT, .HQEn_OUT_OUTST, .HQEn_CNT0_FETCHED,
    .HQEn_CNT1_RESV_CONF, .HQEn_CNT2_NOT_READY, .PWR_STAT_MODE, .PWR_STAT_SUB], [.spe, .host, .bur, .power, .out]⟩) ∧
  (∀ fseq, ChangesOnly (.nvmRead fseq) ⟨[], sequencerRegs ++ [.SCEx_TGT_SHADOW_PEND, .BRG_USE_CELLS, .BRG_USE_PAGES],
    [.shadow, .draws, .str, .host, .bridge]⟩) ∧
  (∀ fseq, ChangesOnly (.nvmWrite fseq) ⟨[], chestRegs ++ sequencerRegs ++ keySlotRegs ++ [.SCEx_TGT_SHADOW_PEND,
    .BRG_USE_CELLS, .CHST_STAT_INELIG, .CHST_STAT_JRNL_WAIT, .CHST_WB_ENTRIES, .CHST_WB_FREE, .CAB_STAT_KEY_LOW,
    .CAB_STAT_KEY_EXH, .SQ_CNT_DEFERRED], [.shadow, .events, .eventSeq, .str, .host, .bridge, .cab, .out]⟩) ∧
  (∀ fseq, ChangesOnly (.zoneAppend fseq) ⟨[], chestRegs ++ sequencerRegs ++ keySlotRegs ++ [.SCEx_TGT_SHADOW_PEND,
    .BRG_USE_CELLS, .CHST_STAT_INELIG, .CHST_STAT_JRNL_WAIT, .CHST_WB_ENTRIES, .CHST_WB_FREE, .CAB_STAT_KEY_LOW,
    .CAB_STAT_KEY_EXH, .SQ_CNT_DEFERRED], [.shadow, .events, .eventSeq, .str, .host, .bridge, .cab, .out]⟩) ∧
  (∀ fseq, ChangesOnly (.flush fseq) ⟨[], [], [.host, .phv]⟩) ∧
  (∀ fseq, ChangesOnly (.compare fseq) ⟨[], sequencerRegs ++ [.SCEx_TGT_SHADOW_PEND, .BRG_USE_CELLS, .BRG_USE_PAGES],
    [.shadow, .draws, .str, .host, .bridge]⟩) ∧
  (∀ fseq, ChangesOnly (.verify fseq) ⟨[], sequencerRegs ++ [.SCEx_TGT_SHADOW_PEND, .BRG_USE_CELLS, .BRG_USE_PAGES],
    [.shadow, .draws, .str, .host, .bridge]⟩) ∧
  (∀ fseq, ChangesOnly (.writeZeroes fseq) ⟨[], chestRegs ++ sequencerRegs ++ keySlotRegs ++ versionRegs ++
    [.SCEx_TGT_SHADOW_PEND, .BRG_USE_CELLS, .CHST_STAT_INELIG, .CHST_STAT_JRNL_WAIT, .CAB_STAT_KEY_LOW, .CAB_STAT_KEY_EXH,
    .SQ_CNT_DEFERRED], [.shadow, .events, .eventSeq, .str, .host, .bridge, .cab, .out]⟩) ∧
  (∀ fseq, ChangesOnly (.datasetManagement fseq) ⟨[], chestRegs ++ versionRegs, [.host, .bridge]⟩) ∧
  (∀ fseq, ChangesOnly (.zoneOpen fseq) ⟨[], chestRegs ++ sequencerRegs ++ versionRegs ++ [.SCEx_TGT_SHADOW_PEND,
    .WRPx_STAT_ACC_N, .BRG_USE_CELLS, .CHST_STAT_JRNL_WAIT, .SQ_CNT_DEFERRED, .MI_WLOST_RANGES], [.shadow, .draws, .str,
    .host, .bridge]⟩) ∧
  (∀ fseq, ChangesOnly (.zoneClose fseq) ⟨[], chestRegs ++ sequencerRegs ++ versionRegs ++ [.SCEx_TGT_SHADOW_PEND,
    .WRPx_STAT_ACC_N, .BRG_USE_CELLS, .CHST_STAT_JRNL_WAIT, .SQ_CNT_DEFERRED, .MI_WLOST_RANGES], [.shadow, .draws, .str,
    .host, .bridge]⟩) ∧
  (∀ fseq, ChangesOnly (.zoneFinish fseq) ⟨[], chestRegs ++ sequencerRegs ++ versionRegs ++ [.SCEx_TGT_SHADOW_PEND,
    .WRPx_STAT_ACC_N, .BRG_USE_CELLS, .CHST_STAT_JRNL_WAIT, .SQ_CNT_DEFERRED, .MI_WLOST_RANGES], [.shadow, .draws, .str,
    .host, .bridge]⟩) ∧
  (∀ fseq, ChangesOnly (.zoneReset fseq) ⟨[], chestRegs ++ sequencerRegs ++ versionRegs ++ [.SCEx_TGT_SHADOW_PEND,
    .WRPx_STAT_ACC_N, .BRG_USE_CELLS, .CHST_STAT_JRNL_WAIT, .SQ_CNT_DEFERRED, .MI_WLOST_RANGES], [.shadow, .draws, .str,
    .host, .bridge]⟩) ∧
  (∀ fseq, ChangesOnly (.zoneOffline fseq) ⟨[], chestRegs ++ sequencerRegs ++ versionRegs ++ [.SCEx_TGT_SHADOW_PEND,
    .WRPx_STAT_ACC_N, .BRG_USE_CELLS, .CHST_STAT_JRNL_WAIT, .SQ_CNT_DEFERRED, .MI_WLOST_RANGES], [.shadow, .draws, .str,
    .host, .bridge]⟩) ∧
  (∀ fseq, ChangesOnly (.reportZones fseq) ⟨[], [], [.host, .out]⟩) ∧
  (∀ fseq, ChangesOnly (.completionCommit fseq) ⟨[], chestRegs ++ versionRegs ++ [.HQEn_OUT_OUTST, .HQEn_STRM_CNT_MISS,
    .HQEn_STRM_CNT_SUSP, .STRM_STAT_MISS, .STRM_CNT0_MISS, .STRM_CNT0_SUSP, .BRG_USE_PAGES, .CHST_STAT_JRNL_WAIT,
    .PWR_STAT_MODE, .PWR_STAT_SUB], [.events, .eventSeq, .host, .bridge, .bur, .power, .out]⟩)

/-- Frames of the queue, feature, reservation and log commands, in every state: outside the register fields and the parts of the state that a line names for its
command, every register field of every instance reads as before, every other part is as before (every byte of memory where `mem`
is not named), and the queue is as before. -/
def Obligations.QueueAndFeatureFrames : Prop :=
  (∀ fseq, ChangesOnly (.reservationRegister fseq) ⟨[], chestRegs ++ [.CHST_STAT_JRNL_WAIT], [.host, .bridge]⟩) ∧
  (∀ fseq, ChangesOnly (.reservationAcquire fseq) ⟨[], chestRegs ++ sequencerRegs ++ versionRegs ++
    [.SCEx_TGT_SHADOW_PEND, .BRG_USE_CELLS, .BRG_USE_PAGES, .CHST_STAT_JRNL_WAIT, .PHV_STAT_SLOTS_FREE, .PHV_STAT_QUEUED,
    .PHV_ENG_STATE], [.shadow, .draws, .str, .host, .bridge, .phv]⟩) ∧
  (∀ fseq, ChangesOnly (.reservationRelease fseq) ⟨[], chestRegs ++ [.CHST_STAT_JRNL_WAIT], [.host, .bridge]⟩) ∧
  (∀ fseq, ChangesOnly (.reservationReport fseq) ⟨[], [], [.host, .out]⟩) ∧
  (∀ fseq, ChangesOnly (.createIoSq fseq) ⟨[], [.HQEn_STAT_IOQ], [.host]⟩) ∧
  (∀ fseq, ChangesOnly (.createIoCq fseq) ⟨[], [], [.host]⟩) ∧
  (∀ fseq, ChangesOnly (.deleteIoSq fseq) ⟨[], chestRegs ++ streamRegs ++ sequencerRegs ++ versionRegs ++
    [.SCEx_TGT_SHADOW_PEND, .HQEn_STAT_IOQ, .BRG_USE_CELLS, .BRG_USE_PAGES, .PHV_STAT_SLOTS_FREE, .PHV_STAT_QUEUED,
    .PHV_ENG_STATE], [.shadow, .draws, .str, .host, .bridge, .phv, .bur, .power, .out]⟩) ∧
  (∀ fseq, ChangesOnly (.deleteIoCq fseq) ⟨[], [], [.host]⟩) ∧
  (∀ fseq, ChangesOnly (.nvmeIdentify fseq) ⟨[], [], [.host, .out]⟩) ∧
  (∀ fseq, ChangesOnly (.getLogPage fseq) ⟨[], [], [.host, .out]⟩) ∧
  (∀ fseq, ChangesOnly (.abort fseq) ⟨[], chestRegs ++ sequencerRegs ++ versionRegs ++ [.SCEx_TGT_SHADOW_PEND,
    .BRG_USE_CELLS, .BRG_USE_PAGES, .PHV_STAT_SLOTS_FREE, .PHV_STAT_QUEUED, .PHV_ENG_STATE], [.shadow, .draws, .str,
    .host, .bridge, .phv]⟩) ∧
  (∀ fseq, ChangesOnly (.setFeatures fseq) ⟨[], [], [.host]⟩) ∧
  (∀ fseq, ChangesOnly (.getFeatures fseq) ⟨[], [], [.host]⟩) ∧
  (∀ fseq, ChangesOnly (.streamQueueArm fseq) ⟨[], chestRegs ++ streamRegs ++ [.HQEn_STRM_Q_SQID, .HQEn_STRM_Q_DIR,
    .HQEn_STRM_Q_SMASK, .HQEn_STRM_Q_DLF, .HQEn_STRM_BPF_BPF, .HQEn_STRM_AORD_AORD, .HQEn_STRM_CNT_MISS,
    .HQEn_STRM_CNT_SUSP, .STRM_STAT_REFUSED, .STRM_AVL_AVAIL, .STRM_CNT1_REFUSED, .CHST_STAT_JRNL_WAIT], [.host, .bridge,
    .bur, .power, .out]⟩) ∧
  (∀ fseq, ChangesOnly (.streamQueueDisarm fseq) ⟨[], streamRegs, [.host, .bur, .power, .out]⟩) ∧
  (∀ fseq, ChangesOnly (.streamQueueGet fseq) ⟨[], [], [.host]⟩) ∧
  (∀ fseq, ChangesOnly (.streamCapacityGet fseq) ⟨[], [], [.host]⟩) ∧
  (∀ fseq, ChangesOnly (.telemetryPeriodSet fseq) ⟨[], [], [.host]⟩) ∧
  (∀ fseq, ChangesOnly (.asynchronousEventRequest fseq) ⟨[], [], [.host]⟩) ∧
  (∀ fseq passed, ChangesOnly (.deviceSelfTest fseq passed) ⟨[], [], [.host]⟩) ∧
  (∀ fseq, ChangesOnly (.securitySend fseq) ⟨[], [], [.host, .out]⟩) ∧
  (∀ fseq, ChangesOnly (.securityReceive fseq) ⟨[], [], [.host, .out]⟩)

/-- Frames of the namespace commands, in every state: outside the register fields and the parts of the state that a line names for its
command, every register field of every instance reads as before, every other part is as before (every byte of memory where `mem`
is not named), and the queue is as before. -/
def Obligations.NamespaceFrames : Prop :=
  (∀ fseq, ChangesOnly (.namespaceCreate fseq) ⟨[], keySlotRegs ++ [.CAB_STAT_BUSY, .CAB_STAT_OP_ERR], [.host, .cab]⟩) ∧
  (∀ fseq, ChangesOnly (.namespaceDelete fseq) ⟨[], keySlotRegs ++ [.CAB_STAT_BUSY, .CAB_STAT_OP_ERR], [.host, .cab]⟩) ∧
  (∀ fseq, ChangesOnly (.namespaceAttach fseq) ⟨[], chestRegs ++ [.CHST_STAT_JRNL_WAIT], [.host, .bridge]⟩) ∧
  (∀ fseq, ChangesOnly (.namespaceDetach fseq) ⟨[], chestRegs ++ [.CHST_STAT_JRNL_WAIT], [.host, .bridge]⟩) ∧
  (∀ fseq, ChangesOnly (.formatNvm fseq) ⟨[], keySlotRegs ++ [.CAB_STAT_BUSY, .CAB_STAT_OP_ERR], [.host, .cab]⟩) ∧
  (∀ fseq, ChangesOnly (.sanitizeCryptoErase fseq) ⟨[], keySlotRegs ++ [.CAB_STAT_BUSY, .CAB_STAT_OP_ERR], [.host,
    .cab]⟩) ∧
  (ChangesOnly .slotOpComplete ⟨[], chestRegs ++ sequencerRegs ++ keySlotRegs ++ versionRegs ++ [.SCEx_TGT_SHADOW_PEND,
    .BRG_STAT_MAP_RSV, .BRG_USE_CELLS, .CHST_STAT_JRNL_WAIT, .CAB_STAT_BUSY, .CAB_STAT_DONE, .CAB_STAT_OP_ERR,
    .PHV_STAT_SLOTS_FREE, .PHV_STAT_QUEUED, .PHV_ENG_STATE, .SQ_CNT_DEFERRED, .MI_WLOST_RANGES], [.shadow, .draws, .str,
    .host, .bridge, .cab, .phv]⟩)

/-- Frames of the port, controller and NVMe-MI commands, in every state: outside the register fields and the parts of the state that a line names for its
command, every register field of every instance reads as before, every other part is as before (every byte of memory where `mem`
is not named), and the queue is as before. -/
def Obligations.PortFrames : Prop :=
  (∀ port, ChangesOnly (.perstAssert port) ⟨[], chestRegs ++ streamRegs ++ sequencerRegs ++ versionRegs ++
    [.SCEx_TGT_SHADOW_PEND, .HQEn_STAT_EN, .HQEn_STAT_RDY, .HQEn_STAT_SHST, .HQEn_STAT_LINK, .HQEn_STAT_IOQ,
    .HQEn_OUT_OUTST, .PCIE_STAT_UP0, .PCIE_STAT_UP1, .PCIE_STAT_SPD0, .PCIE_STAT_SPD1, .PCIE_STAT_WID0, .PCIE_STAT_WID1,
    .BRG_USE_CELLS, .BRG_USE_PAGES, .CHST_STAT_JRNL_WAIT, .PHV_STAT_SLOTS_FREE, .PHV_STAT_QUEUED, .PHV_ENG_STATE],
    [.shadow, .draws, .str, .host, .bridge, .phv, .bur, .power, .out]⟩) ∧
  (∀ port wake, ChangesOnly (.perstDeassert port wake) ⟨Blk.all, [], [.shadow, .mem, .control, .staged, .timebase,
    .draws, .events, .eventSeq, .fret, .capo, .spe, .str, .harp, .host, .bridge, .cab, .phv, .memory, .bur, .power, .cal,
    .therm, .lc, .bench, .out]⟩) ∧
  (∀ port speed width, ChangesOnly (.linkTrained port speed width) ⟨[], [.HQEn_STAT_LINK, .PCIE_STAT_UP0, .PCIE_STAT_UP1,
    .PCIE_STAT_SPD0, .PCIE_STAT_SPD1, .PCIE_STAT_WID0, .PCIE_STAT_WID1], [.host]⟩) ∧
  (∀ port, ChangesOnly (.dlDown port) ⟨[], chestRegs ++ streamRegs ++ sequencerRegs ++ versionRegs ++
    [.SCEx_TGT_SHADOW_PEND, .HQEn_STAT_EN, .HQEn_STAT_RDY, .HQEn_STAT_SHST, .HQEn_STAT_LINK, .HQEn_STAT_IOQ,
    .HQEn_OUT_OUTST, .PCIE_STAT_UP0, .PCIE_STAT_UP1, .PCIE_STAT_SPD0, .PCIE_STAT_SPD1, .PCIE_STAT_WID0, .PCIE_STAT_WID1,
    .PCIE_STAT_DLDN0, .PCIE_STAT_DLDN1, .BRG_USE_CELLS, .BRG_USE_PAGES, .CHST_STAT_JRNL_WAIT, .PHV_STAT_SLOTS_FREE,
    .PHV_STAT_QUEUED, .PHV_ENG_STATE], [.shadow, .draws, .str, .host, .bridge, .phv, .bur, .power, .out]⟩) ∧
  (∀ hqe, ChangesOnly (.ccEnClear hqe) ⟨[], chestRegs ++ streamRegs ++ sequencerRegs ++ versionRegs ++
    [.SCEx_TGT_SHADOW_PEND, .HQEn_STAT_EN, .HQEn_STAT_RDY, .HQEn_STAT_SHST, .HQEn_STAT_IOQ, .HQEn_OUT_OUTST,
    .BRG_USE_CELLS, .BRG_USE_PAGES, .CHST_STAT_JRNL_WAIT, .PHV_STAT_SLOTS_FREE, .PHV_STAT_QUEUED, .PHV_ENG_STATE],
    [.shadow, .draws, .str, .host, .bridge, .phv, .bur, .power, .out]⟩) ∧
  (∀ hqe ams, ChangesOnly (.ccEnSet hqe ams) ⟨[], [.HQEn_STAT_EN], [.host]⟩) ∧
  (∀ hqe, ChangesOnly (.controllerReady hqe) ⟨[], [.HQEn_STAT_RDY, .HQEn_STAT_RST_DONE], [.host]⟩) ∧
  (∀ hqe, ChangesOnly (.functionLevelReset hqe) ⟨[], chestRegs ++ streamRegs ++ sequencerRegs ++ versionRegs ++
    [.SCEx_TGT_SHADOW_PEND, .HQEn_STAT_EN, .HQEn_STAT_RDY, .HQEn_STAT_SHST, .HQEn_STAT_IOQ, .HQEn_OUT_OUTST,
    .BRG_USE_CELLS, .BRG_USE_PAGES, .CHST_STAT_JRNL_WAIT, .PHV_STAT_SLOTS_FREE, .PHV_STAT_QUEUED, .PHV_ENG_STATE],
    [.shadow, .draws, .str, .host, .bridge, .phv, .bur, .power, .out]⟩) ∧
  (∀ hqe, ChangesOnly (.forceRst hqe) ⟨[], chestRegs ++ streamRegs ++ sequencerRegs ++ versionRegs ++
    [.SCEx_TGT_SHADOW_PEND, .HQEn_STAT_EN, .HQEn_STAT_RDY, .HQEn_STAT_SHST, .HQEn_STAT_IOQ, .HQEn_OUT_OUTST,
    .BRG_USE_CELLS, .BRG_USE_PAGES, .CHST_STAT_JRNL_WAIT, .PHV_STAT_SLOTS_FREE, .PHV_STAT_QUEUED, .PHV_ENG_STATE],
    [.shadow, .draws, .str, .host, .bridge, .phv, .bur, .power, .out]⟩) ∧
  (∀ kind k wake, ChangesOnly (.nvmeMiReadDataStructure kind k wake) ⟨Blk.all, [], [.shadow, .mem, .control, .staged,
    .timebase, .draws, .events, .eventSeq, .fret, .capo, .spe, .str, .harp, .host, .bridge, .cab, .phv, .memory, .bur,
    .power, .cal, .therm, .lc, .bench, .out]⟩) ∧
  (∀ wake, ChangesOnly (.nvmSubsystemHealthPoll wake) ⟨Blk.all, [], [.shadow, .mem, .control, .staged, .timebase, .draws,
    .events, .eventSeq, .fret, .capo, .spe, .str, .harp, .host, .bridge, .cab, .phv, .memory, .bur, .power, .cal, .therm,
    .lc, .bench, .out]⟩) ∧
  (∀ k wake, ChangesOnly (.controllerHealthPoll k wake) ⟨Blk.all, [], [.shadow, .mem, .control, .staged, .timebase,
    .draws, .events, .eventSeq, .fret, .capo, .spe, .str, .harp, .host, .bridge, .cab, .phv, .memory, .bur, .power, .cal,
    .therm, .lc, .bench, .out]⟩) ∧
  (∀ id value wake, ChangesOnly (.configurationSet id value wake) ⟨Blk.all, [], [.shadow, .mem, .control, .staged,
    .timebase, .draws, .events, .eventSeq, .fret, .capo, .spe, .str, .harp, .host, .bridge, .cab, .phv, .memory, .bur,
    .power, .cal, .therm, .lc, .bench, .out]⟩) ∧
  (∀ id wake, ChangesOnly (.configurationGet id wake) ⟨Blk.all, [], [.shadow, .mem, .control, .staged, .timebase, .draws,
    .events, .eventSeq, .fret, .capo, .spe, .str, .harp, .host, .bridge, .cab, .phv, .memory, .bur, .power, .cal, .therm,
    .lc, .bench, .out]⟩) ∧
  (∀ offset n wake, ChangesOnly (.vpdRead offset n wake) ⟨Blk.all, [], [.shadow, .mem, .control, .staged, .timebase,
    .draws, .events, .eventSeq, .fret, .capo, .spe, .str, .harp, .host, .bridge, .cab, .phv, .memory, .bur, .power, .cal,
    .therm, .lc, .bench, .out]⟩) ∧
  (∀ offset bytes wake, ChangesOnly (.vpdWrite offset bytes wake) ⟨Blk.all, [], [.shadow, .mem, .control, .staged,
    .timebase, .draws, .events, .eventSeq, .fret, .capo, .spe, .str, .harp, .host, .bridge, .cab, .phv, .memory, .bur,
    .power, .cal, .therm, .lc, .bench, .out]⟩) ∧
  (∀ wake, ChangesOnly (.basicManagementCommand wake) ⟨Blk.all, [], [.shadow, .mem, .control, .staged, .timebase, .draws,
    .events, .eventSeq, .fret, .capo, .spe, .str, .harp, .host, .bridge, .cab, .phv, .memory, .bur, .power, .cal, .therm,
    .lc, .bench, .out]⟩)

/-- Frames of the register access, cache and memory integrity commands, in every state: outside the register fields and the parts of the state that a line names for its
command, every register field of every instance reads as before, every other part is as before (every byte of memory where `mem`
is not named), and the queue is as before. -/
def Obligations.AccessAndIntegrityFrames : Prop :=
  (∀ requester address bytes value outcome, ChangesOnly (.registerWrite requester address bytes value outcome) ⟨Blk.all,
    [], [.shadow, .mem, .control, .staged, .draws, .events, .eventSeq, .fret, .capo, .spe, .str, .harp, .host, .bridge,
    .cab, .phv, .memory, .bur, .power, .cal, .therm, .out]⟩) ∧
  (∀ n, ChangesOnly (.l2MaintGo n) ⟨[], [.L2n_STAT_MERR, .L2n_STAT_DIRTY], [.memory]⟩) ∧
  (∀ n, ChangesOnly (.l2MaintDone n) ⟨[], [.L2n_STAT_MDONE, .L2n_STAT_DIRTY], [.mem, .memory]⟩) ∧
  (∀ n, ChangesOnly (.l2Disable n) ⟨[], [.L2n_CTRL_EN, .L2n_STAT_WALK], []⟩) ∧
  (∀ n writeNs bad, ChangesOnly (.disableWalkEnd n writeNs bad) ⟨[], [.L2n_STAT_ENABLED, .L2n_STAT_WALK, .L2n_STAT_DIRTY,
    .L2n_WALKT_NS, .MI_I_STAT_UE, .MI_I_UE_UE, .MI_I_ALO_ADDR, .MI_I_AHI_ADDR, .MI_I_AHI_SYND, .MI_I_AHI_KIND], [.mem,
    .memory, .out]⟩) ∧
  (∀ n e, ChangesOnly (.ratInvalidate n e) ⟨[], [.L2n_STAT_DIRTY, .L2n_RAT_CTL_VALID], [.mem, .memory]⟩) ∧
  (∀ m correction, ChangesOnly (.bucketLeak m correction) ⟨[], [.MI_I_STAT_LEVEL, .MI_I_STAT_OVF, .MI_I_CE_COUNT,
    .MI_I_ALO_ADDR, .MI_I_AHI_ADDR, .MI_I_AHI_SYND, .MI_I_AHI_KIND], [.out]⟩) ∧
  (∀ m addr result last, ChangesOnly (.scrubStep m addr result last) ⟨[], chestRegs ++ sequencerRegs ++ versionRegs ++
    [.SCEx_TGT_SHADOW_PEND, .BRG_USE_CELLS, .BRG_USE_PAGES, .CHST_STAT_JRNL_WAIT, .SQ_CNT_DEFERRED, .MI_WLOST_RANGES,
    .MI_WLOST_MERGED, .MI_I_STAT_LEVEL, .MI_I_STAT_OVF, .MI_I_STAT_UE, .MI_I_STAT_POISON, .MI_I_CE_COUNT, .MI_I_UE_UE,
    .MI_I_UE_POISONED, .MI_I_ALO_ADDR, .MI_I_AHI_ADDR, .MI_I_AHI_SYND, .MI_I_AHI_KIND, .SCB_MS_CNT0_FIXED,
    .SCB_MS_CNT0_POISONED, .SCB_MS_CNT1_SRAM_PASS, .SCB_MS_CNT1_DDR_PASS], [.shadow, .mem, .draws, .events, .eventSeq,
    .str, .host, .bridge, .phv, .memory, .out]⟩) ∧
  (ChangesOnly .rawrd ⟨[], [.MI_DIAG_DLO_DATA, .MI_DIAG_DHI_DATA, .MI_DIAG_CHK_CHK, .MI_DIAG_CMD_DONE,
    .MI_DIAG_CMD_CFG_LOCKED], [.draws]⟩) ∧
  (ChangesOnly .rawwr ⟨[], chestRegs ++ [.MI_DIAG_CMD_DONE, .MI_DIAG_CMD_CFG_LOCKED], [.mem, .control, .bridge,
    .memory]⟩) ∧
  (∀ m, ChangesOnly (.fill m) ⟨[], [.MI_I_STAT_FILL_BUSY], []⟩) ∧
  (∀ m, ChangesOnly (.fillComplete m) ⟨[], [.MI_I_CFG_INIT_MODE, .MI_I_STAT_FILL_BUSY], [.memory]⟩)

/-- Frames of the power, mode and core commands, in every state: outside the register fields and the parts of the state that a line names for its
command, every register field of every instance reads as before, every other part is as before (every byte of memory where `mem`
is not named), and the queue is as before. -/
def Obligations.PowerFrames : Prop :=
  (∀ v12 v5 vm time, ChangesOnly (.powerLossEvent v12 v5 vm time) ⟨[], retractRegs ++ chestRegs ++ sequencerRegs ++
    [.SPE_STAT_STATE, .SPE_STAT_ATSPD, .SPE_STAT_TICKPRED, .SCEx_VCMCMD_S30, .SCEx_MACMD_S31, .CAB_STAT_HOLD_USED,
    .SQ_STAT_STATE, .SQ_STAT_COMMITTED, .SQ_STAT_HANDLER, .PWR_RETLOG_BEGUN, .PWR_RETLOG_PARKED, .PWR_RETLOG_LAST_MS,
    .PWR_RETLOG_VM_MIN, .PWR_DOMSTAT_ON, .SB_STAT_V12_OK, .SB_STAT_V5_OK, .SB_STAT_PWRLOSS, .SB_RTC_SEC, .SB_CNT_PWRLOSS,
    .BNCH_STAT_SESSION, .BNCH_STAT_HALTED], [.timebase, .events, .eventSeq, .spe, .str, .harp, .host, .bridge, .cab, .phv,
    .memory, .bur, .power, .cal, .bench, .out]⟩) ∧
  (∀ x vm, ChangesOnly (.retractStagger x vm) ⟨[], [], [.str, .power]⟩) ∧
  (∀ vm, ChangesOnly (.vmRetminRecover vm) ⟨[], [], [.str, .power]⟩) ∧
  (∀ p, ChangesOnly (.supplyGood p) ⟨Blk.all, [], [.shadow, .mem, .control, .staged, .timebase, .draws, .events,
    .eventSeq, .fret, .capo, .spe, .str, .harp, .host, .bridge, .cab, .phv, .memory, .bur, .power, .cal, .therm, .lc,
    .bench, .out]⟩) ∧
  (ChangesOnly .vmCharged ⟨[], [.SPE_STAT_STATE, .SPE_STAT_ATSPD, .SPE_STAT_TICKPRED, .SPE_KE_VALID, .SPE_SKIPCNT_COUNT,
    .PWR_STAT_MODE, .PWR_STAT_SUB], [.spe, .host, .bur, .power, .out]⟩) ∧
  (∀ temp p, ChangesOnly (.thermalWake temp p) ⟨Blk.all, [], [.shadow, .mem, .control, .staged, .timebase, .draws,
    .events, .eventSeq, .fret, .capo, .spe, .str, .harp, .host, .bridge, .cab, .phv, .memory, .bur, .power, .cal, .therm,
    .lc, .bench, .out]⟩) ∧
  (∀ p, ChangesOnly (.capoActivity p) ⟨Blk.all, [], [.shadow, .mem, .control, .staged, .timebase, .draws, .events,
    .eventSeq, .fret, .capo, .spe, .str, .harp, .host, .bridge, .cab, .phv, .memory, .bur, .power, .cal, .therm, .lc,
    .bench, .out]⟩) ∧
  (∀ p, ChangesOnly (.rtcAlarm p) ⟨Blk.all, [], [.shadow, .mem, .control, .staged, .timebase, .draws, .events, .eventSeq,
    .fret, .capo, .spe, .str, .harp, .host, .bridge, .cab, .phv, .memory, .bur, .power, .cal, .therm, .lc, .bench, .out]⟩) ∧
  (ChangesOnly .dormantTimeout ⟨[], [.SCEx_STAT_STATE, .CAB_STAT_HOLD_USED, .PWR_STAT_MODE, .PWR_DOMSTAT_ON,
    .BNCH_STAT_SESSION, .BNCH_STAT_HALTED], [.harp, .bridge, .cab, .phv, .memory, .bur, .power, .cal, .bench]⟩) ∧
  (ChangesOnly .idleTimeout ⟨[], [.PWR_STAT_MODE, .PWR_STAT_SUB], []⟩) ∧
  (ChangesOnly .bureauRegate ⟨[], [], [.bur]⟩) ∧
  (∀ mask, ChangesOnly (.strlostClr mask) ⟨[], chestRegs ++ [.CHST_STAT_JRNL_WAIT, .PWR_STAT_MODE, .PWR_STAT_SUB,
    .PWR_STAT_DEGR, .PWR_STAT_CFG_LOCKED, .PWR_STRLOST_LOST, .PWR_DOMREQ_ON, .PWR_DOMSTAT_ON], [.str, .host, .bridge,
    .bur, .power, .out]⟩) ∧
  (∀ word value mask, ChangesOnly (.domainRequest word value mask) ⟨[.sce, .svd, .ae, .nut, .rch, .sfm, .wrp, .rld,
    .cabinet, .phovi, .seq], retractRegs ++ [.FRET_STAT_VALID, .FRET_STAT_REF, .FRET_STAT_NOREF, .FRET_PERIOD_PS,
    .HARP_STAT_INSVC, .HARP_STAT_AVAIL, .HARP_STAT_BELOW_FLOOR, .HARP_WDRAWN_LANES, .HARP_GATED_LANES, .STRM_STAT_ARMED,
    .STRM_HARP_REQ, .STRM_HARP_CAP, .STRM_MED_USED, .STRM_MED_STREAMS, .BRG_STRM_RSV, .MI_I_CFG_INIT_MODE, .PWR_STAT_DEGR,
    .PWR_STAT_REFUSED, .PWR_DOMREQ_ON, .PWR_DOMSTAT_ON, .PWR_DOMERR_DOM, .PEGx_V_VALUE], [.shadow, .control, .events,
    .eventSeq, .fret, .str, .harp, .host, .memory, .bur, .power, .out]⟩) ∧
  (∀ reset v12 v5 vm time p, ChangesOnly (.railUndervoltage reset v12 v5 vm time p) ⟨Blk.all, [], [.shadow, .mem,
    .control, .staged, .timebase, .draws, .events, .eventSeq, .fret, .capo, .spe, .str, .harp, .host, .bridge, .cab, .phv,
    .memory, .bur, .power, .cal, .therm, .lc, .bench, .out]⟩) ∧
  (ChangesOnly .railTimeout ⟨[], [], [.power]⟩) ∧
  (∀ p, ChangesOnly (.mainpwrRetry p) ⟨Blk.all, [], [.shadow, .mem, .control, .staged, .timebase, .draws, .events,
    .eventSeq, .fret, .capo, .spe, .str, .harp, .host, .bridge, .cab, .phv, .memory, .bur, .power, .cal, .therm, .lc,
    .bench, .out]⟩) ∧
  (∀ domain, ChangesOnly (.powerDomainFault domain) ⟨[], retractRegs ++ chestRegs ++ streamRegs ++ sequencerRegs ++
    [.SCEx_TGT_SHADOW_PEND, .RLDx_STAT_ACTIVE, .RLDx_STAT_WAITQ, .STRM_STAT_WDRN, .STRM_CNT1_WDRN, .CHST_STAT_JRNL_WAIT,
    .PWR_STAT_DEGR, .PWR_STRLOST_LOST, .PWR_DOMREQ_ON, .PWR_DOMSTAT_ON], [.shadow, .events, .eventSeq, .str, .harp, .host,
    .bridge, .phv, .bur, .power, .out]⟩) ∧
  (∀ core, ChangesOnly (.coreWatchdog core) ⟨[], chestRegs ++ [.BURn_STAT_STATE, .BURn_STAT_CAUSE_LAST,
    .BURn_STAT_CORE_RET, .BURn_STAT_WDOG, .BURn_STAT_L2_OFF, .BURn_CNT_WDOG_EXP, .BURn_CNT_MIGRATE, .L2n_CTRL_EN,
    .L2n_STAT_WALK, .MI_I_CFG_INIT_MODE, .PWR_STAT_MODE, .PWR_STAT_SUB, .PWR_STAT_DEGR, .PWR_DOMREQ_ON, .PWR_DOMSTAT_ON],
    [.events, .eventSeq, .host, .bridge, .memory, .bur, .power, .out]⟩) ∧
  (∀ core, ChangesOnly (.machineCheck core) ⟨[], chestRegs ++ [.BURn_STAT_STATE, .BURn_STAT_CAUSE_LAST,
    .BURn_STAT_CORE_RET, .BURn_STAT_L2_OFF, .BURn_CNT_WDOG_EXP, .BURn_CNT_MIGRATE, .L2n_CTRL_EN, .L2n_STAT_WALK,
    .MI_I_CFG_INIT_MODE, .PWR_STAT_MODE, .PWR_STAT_SUB, .PWR_STAT_DEGR, .PWR_DOMREQ_ON, .PWR_DOMSTAT_ON], [.events,
    .eventSeq, .host, .bridge, .memory, .bur, .power, .out]⟩) ∧
  (∀ core passed, ChangesOnly (.coreSelfTest core passed) ⟨[], chestRegs ++ [.BURn_STAT_STATE, .BURn_STAT_CAUSE_LAST,
    .BURn_STAT_CORE_RET, .BURn_STAT_L2_OFF, .BURn_CNT_WDOG_EXP, .BURn_CNT_MIGRATE, .L2n_CTRL_EN, .L2n_STAT_WALK,
    .MI_I_CFG_INIT_MODE, .PWR_STAT_MODE, .PWR_STAT_SUB, .PWR_STAT_DEGR, .PWR_DOMREQ_ON, .PWR_DOMSTAT_ON], [.events,
    .eventSeq, .host, .bridge, .memory, .bur, .power, .out]⟩) ∧
  (∀ cluster mask, ChangesOnly (.burRetire cluster mask) ⟨[], chestRegs ++ [.BURn_STAT_STATE, .BURn_STAT_CAUSE_LAST,
    .BURn_STAT_CORE_RET, .BURn_STAT_L2_OFF, .BURn_CNT_WDOG_EXP, .BURn_CNT_MIGRATE, .L2n_CTRL_EN, .L2n_STAT_WALK,
    .MI_I_CFG_INIT_MODE, .PWR_STAT_MODE, .PWR_STAT_SUB, .PWR_STAT_DEGR, .PWR_DOMREQ_ON, .PWR_DOMSTAT_ON], [.events,
    .eventSeq, .host, .bridge, .memory, .bur, .power, .out]⟩) ∧
  (∀ cluster mask, ChangesOnly (.burUnretire cluster mask) ⟨[], [.BURn_STAT_STATE, .BURn_STAT_CFG_LOCKED,
    .MI_I_CFG_INIT_MODE, .PWR_DOMREQ_ON, .PWR_DOMSTAT_ON], [.memory]⟩)

/-- Frames of the trim, calibration and temperature commands, in every state: outside the register fields and the parts of the state that a line names for its
command, every register field of every instance reads as before, every other part is as before (every byte of memory where `mem`
is not named), and the queue is as before. -/
def Obligations.ThermalFrames : Prop :=
  (∀ x, ChangesOnly (.pegTick x) ⟨[], [.CAL_PEG_V_VALUE, .PEGx_V_VALUE], []⟩) ∧
  (∀ temps hookStep, ChangesOnly (.thermalSample temps hookStep) ⟨[.harp], retractRegs ++ streamRegs ++ sequencerRegs ++
    [.SPE_CTRL_STOPMODE, .SPE_STAT_STATE, .SPE_STAT_ATSPD, .SPE_STAT_TICKPRED, .SCEx_TGT_SHADOW_PEND, .RLDx_STAT_ACTIVE,
    .RLDx_STAT_WAITQ, .STRM_STAT_WDRN, .STRM_AVL_AVAIL, .STRM_CNT1_WDRN, .PWR_STAT_DEGR, .PWR_DOMREQ_ON, .PWR_DOMSTAT_ON,
    .THR_STAT_TJ, .THR_STAT_LEVEL, .THR_STAT_WARN, .THR_STAT_THROT, .THR_STAT_SHUT, .THR_STAT_SNS_BAD, .THR_SNS_T,
    .THR_CNT_STEPS, .THR_CNT_SHUTDOWNS], [.shadow, .events, .eventSeq, .spe, .str, .harp, .host, .bridge, .bur, .power,
    .therm, .out]⟩) ∧
  (ChangesOnly .throttleTick ⟨[.harp], streamRegs ++ sequencerRegs ++ [.SCEx_TGT_SHADOW_PEND, .RCHx_STAT_SLOTS_FREE,
    .RCHx_STAT_PENDQ, .RCHx_SLOT_BUSY, .RLDx_STAT_ACTIVE, .RLDx_STAT_WAITQ, .STRM_STAT_WDRN, .STRM_AVL_AVAIL,
    .STRM_CNT1_WDRN, .BRG_USE_CELLS, .BRG_USE_PAGES, .SQ_CNT_DEFERRED, .PWR_STAT_DEGR, .PWR_DOMREQ_ON, .PWR_DOMSTAT_ON,
    .THR_STAT_LEVEL, .THR_STAT_THROT, .THR_CNT_STEPS], [.shadow, .events, .eventSeq, .str, .harp, .host, .bridge, .bur,
    .power, .therm, .out]⟩) ∧
  (∀ entry x, ChangesOnly (.calScheduleDue entry x) ⟨[], [.AEx_CALHTR_HTR, .CAL_STAT_BUSY, .CAL_STAT_SCRIPT,
    .CAL_STAT_STRING], [.shadow, .cal]⟩) ∧
  (∀ mask, ChangesOnly (.scriptResume mask) ⟨[], [], [.shadow, .cal]⟩) ∧
  (∀ x ecs pes, ChangesOnly (.tdStep x ecs pes) ⟨[], [.AEx_CALHTR_HTR, .AEx_H_HTR_HTR_RD, .AEx_H_HTR_HTR_WIDLE,
    .AEx_H_HTR_HTR_WR, .AEx_H_ECS_ECS_REF, .AEx_H_HSTAT_HCORR, .CAL_STAT_BUSY, .CAL_STAT_DONE, .CAL_STAT_RESULT],
    [.shadow, .host, .bur, .cal, .out]⟩) ∧
  (ChangesOnly .calAbort ⟨[], [.AEx_CALHTR_HTR, .CAL_STAT_BUSY, .CAL_STAT_DONE, .CAL_STAT_RESULT], [.shadow, .host, .bur,
    .cal, .out]⟩) ∧
  (∀ mask result, ChangesOnly (.calScriptStep mask result) ⟨[], [.SVDx_HSKEW_HSKEW, .AEx_CALHTR_HTR, .CAL_STAT_BUSY,
    .CAL_STAT_DONE, .CAL_STAT_RESULT, .CAL_PEG_T_TARGET, .PEGx_T_TARGET], [.shadow, .host, .bur, .cal, .out]⟩)

/-- Frames of the Cibor packet and extension module commands, in every state: outside the register fields and the parts of the state that a line names for its
command, every register field of every instance reads as before, every other part is as before (every byte of memory where `mem`
is not named), and the queue is as before. -/
def Obligations.CiborFrames : Prop :=
  (∀ source packet, ChangesOnly (.ciborRequest source packet) ⟨[], [], [.bur, .out]⟩) ∧
  (∀ fseq, ChangesOnly (.ciborSend fseq) ⟨[], [], [.host, .bur]⟩) ∧
  (∀ fseq, ChangesOnly (.ciborReceive fseq) ⟨[], [], [.host, .bur, .out]⟩) ∧
  (∀ source tag, ChangesOnly (.replyExpiry source tag) ⟨[], [], [.bur]⟩) ∧
  (∀ fseq, ChangesOnly (.replyWaitExpiry fseq) ⟨[], [], [.host]⟩) ∧
  (∀ k nsid op wake, ChangesOnly (.miTunnelledAdmin k nsid op wake) ⟨Blk.all, [], [.shadow, .mem, .control, .staged,
    .timebase, .draws, .events, .eventSeq, .fret, .capo, .spe, .str, .harp, .host, .bridge, .cab, .phv, .memory, .bur,
    .power, .cal, .therm, .lc, .bench, .out]⟩) ∧
  (∀ source tag signed base, ChangesOnly (.mcLoad source tag signed base) ⟨[], chestRegs ++ [.CHST_STAT_JRNL_WAIT,
    .SQ_STAT_STATE, .SQ_ENTRY_EVEN, .SQ_ENTRY_ODD, .SQ_IVEC_IVEC, .SQ_LIVE_PAGES], [.shadow, .control, .str, .host,
    .bridge, .memory, .bur, .out]⟩) ∧
  (∀ source tag signed svn size hooks, ChangesOnly (.extLoad source tag signed svn size hooks) ⟨[], chestRegs ++
    [.CHST_STAT_JRNL_WAIT], [.host, .bridge, .bur, .out]⟩) ∧
  (∀ source tag, ChangesOnly (.extUnload source tag) ⟨[], [], [.host, .bur, .out]⟩) ∧
  (∀ source tag status payload, ChangesOnly (.extensionOpcode source tag status payload) ⟨[], [], [.host, .bur, .out]⟩) ∧
  (∀ module hook request, ChangesOnly (.hookTimeout module hook request) ⟨[.harp], streamRegs ++ sequencerRegs ++
    [.SCEx_TGT_SHADOW_PEND, .RCHx_STAT_SLOTS_FREE, .RCHx_STAT_PENDQ, .RCHx_SLOT_BUSY, .RLDx_STAT_ACTIVE, .RLDx_STAT_WAITQ,
    .STRM_STAT_WDRN, .STRM_AVL_AVAIL, .STRM_CNT1_WDRN, .BRG_USE_CELLS, .BRG_USE_PAGES, .SQ_CNT_DEFERRED, .PWR_STAT_DEGR,
    .PWR_DOMREQ_ON, .PWR_DOMSTAT_ON, .THR_STAT_LEVEL, .THR_STAT_THROT, .THR_CNT_STEPS], [.shadow, .events, .eventSeq,
    .str, .harp, .host, .bridge, .bur, .power, .therm, .out]⟩)

/-- Frames of the Cibor opcodes, in every state: outside the register fields and the parts of the state that a line names for its
command, every register field of every instance reads as before, every other part is as before (every byte of memory where `mem`
is not named), and the queue is as before. -/
def Obligations.ManagementFrames : Prop :=
  (∀ source tag, ChangesOnly (.identify source tag) ⟨[], [], [.draws, .host, .bur, .out]⟩) ∧
  (∀ source tag, ChangesOnly (.regRead source tag) ⟨[], sequencerRegs ++ [.FAB_ERR_STAT_ERR, .FAB_ERR_STAT_OVF,
    .FAB_ERR_STAT_KIND, .FAB_ERR_ADDR_ADDR_LO, .FAB_ERR_SRC_ADDR_HI, .FAB_ERR_SRC_REQ, .FAB_ERR_SRC_WR, .SCEx_CYC_PEAK,
    .L2n_STAT_DIRTY, .L2n_CNT0_HITS, .L2n_CNT1_MISSES, .L2n_CNT2_PF_USED, .L2n_CNT2_PF_DROP, .MI_I_STAT_LEVEL,
    .MI_I_STAT_OVF, .MI_I_STAT_UE, .MI_I_CE_COUNT, .MI_I_UE_UE, .MI_I_ALO_ADDR, .MI_I_AHI_ADDR, .MI_I_AHI_SYND,
    .MI_I_AHI_KIND], [.mem, .draws, .str, .host, .memory, .bur, .out]⟩) ∧
  (∀ source tag outcome, ChangesOnly (.regWrite source tag outcome) ⟨Blk.all, [], [.shadow, .mem, .control, .staged,
    .draws, .events, .eventSeq, .fret, .capo, .spe, .str, .harp, .host, .bridge, .cab, .phv, .memory, .bur, .power, .cal,
    .therm, .out]⟩) ∧
  (∀ source tag, ChangesOnly (.tableWrite source tag) ⟨Blk.all, [], [.shadow, .mem, .control, .staged, .draws, .events,
    .eventSeq, .fret, .capo, .spe, .str, .harp, .host, .bridge, .cab, .phv, .memory, .bur, .power, .cal, .therm, .out]⟩) ∧
  (∀ source tag, ChangesOnly (.modeSet source tag) ⟨[], retractRegs ++ [.SPE_STAT_STATE, .SPE_STAT_ATSPD,
    .SPE_STAT_TICKPRED, .SPE_KE_VALID, .SPE_SKIPCNT_COUNT, .CAB_STAT_HOLD_USED, .PWR_DOMSTAT_ON, .BNCH_STAT_SESSION,
    .BNCH_STAT_HALTED], [.events, .eventSeq, .spe, .str, .harp, .host, .bridge, .cab, .phv, .memory, .bur, .power, .cal,
    .bench, .out]⟩) ∧
  (∀ source tag, ChangesOnly (.cfgCommit source tag) ⟨[], [], [.host, .bur, .out]⟩) ∧
  (∀ source tag, ChangesOnly (.cfgReadback source tag) ⟨[], [], [.host, .bur, .out]⟩) ∧
  (∀ source tag, ChangesOnly (.allowSet source tag) ⟨[], [], [.host, .bur, .out]⟩) ∧
  (∀ source tag, ChangesOnly (.spinStart source tag) ⟨[], [.SPE_STAT_STATE, .SPE_STAT_ATSPD, .SPE_STAT_TICKPRED,
    .SPE_KE_VALID, .SPE_SKIPCNT_COUNT, .PWR_STAT_MODE, .PWR_STAT_SUB], [.spe, .host, .bur, .power, .out]⟩) ∧
  (∀ source tag, ChangesOnly (.spinStop source tag) ⟨[], retractRegs ++ [.SPE_CTRL_STOPMODE, .SPE_STAT_STATE,
    .SPE_STAT_ATSPD, .SPE_STAT_TICKPRED], [.events, .eventSeq, .spe, .str, .host, .bridge, .bur, .power, .out]⟩) ∧
  (∀ source tag, ChangesOnly (.capoArm source tag) ⟨[], sequencerRegs ++ [.CAPO_CTRL_SRC, .CAPO_CTRL_EDGE,
    .CAPO_RATIO_M1, .CAPO_RATIO_N1, .CAPO_FRAME_FDIV1, .CAPO_STAT_STATE, .CAPO_STAT_SLEW, .CAPO_STAT_CFG_LOCKED,
    .CAPO_SETPT_UHZ, .CAPO_FRAMECNT_COUNT, .CAPO_GLITCHCNT_COUNT, .SCEx_CYC_PEAK], [.capo, .str, .host, .bur, .out]⟩) ∧
  (∀ source tag, ChangesOnly (.capoDisarm source tag) ⟨[], [.CAPO_STAT_STATE, .CAPO_STAT_SLEW, .CAPO_STAT_WINH,
    .SPE_SETPT_RPM, .AEx_STAT_INH, .STRM_STAT_FROZEN], [.shadow, .capo, .host, .bur, .out]⟩) ∧
  (∀ source tag, ChangesOnly (.headsLoad source tag) ⟨[.rch, .sfm], inhibitRegs ++ [.SCEx_STAT_STATE, .SCEx_STAT_WINH,
    .SCEx_STAT_FALLBACK, .SCEx_STAT_LOOP_OPEN, .SCEx_STAT_LOSTCNT, .SCEx_STAT_OVRCNT, .SCEx_STAT_FB_PEND,
    .SCEx_STAT_CFG_LOCKED, .SCEx_CYC_MAND, .SCEx_LOSTTOT_COUNT, .SVDx_STAT_SYNC_STATE, .AEx_STAT_STATE, .PWR_STAT_MODE,
    .PWR_STAT_SUB], [.str, .host, .bridge, .bur, .power, .out]⟩) ∧
  (∀ source tag, ChangesOnly (.headsUnload source tag) ⟨[], retractRegs, [.events, .eventSeq, .str, .host, .bridge, .bur,
    .power, .out]⟩) ∧
  (∀ source tag, ChangesOnly (.bankSwitch source tag) ⟨[], [.SCEx_STAT_ACTBANK, .SCEx_STAT_FALLBACK, .SCEx_STAT_FB_PEND,
    .SCEx_STAT_CFG_LOCKED, .SCEx_CYC_MAND], [.host, .bur, .out]⟩) ∧
  (∀ source tag, ChangesOnly (.mediaFormat source tag) ⟨[], chestRegs ++ [.SCEx_HEADS_HEADS, .CHST_STAT_JRNL_WAIT],
    [.str, .host, .bridge, .bur, .out]⟩) ∧
  (∀ source tag, ChangesOnly (.telemSnapshot source tag) ⟨[], [], [.host, .bur, .out]⟩) ∧
  (∀ source tag, ChangesOnly (.eventRead source tag) ⟨[], [], [.host, .bur, .out]⟩) ∧
  (∀ source tag, ChangesOnly (.calRun source tag) ⟨[], [.AEx_CALHTR_HTR, .CAL_STAT_BUSY, .CAL_STAT_SCRIPT,
    .CAL_STAT_STRING], [.shadow, .host, .bur, .cal, .out]⟩) ∧
  (∀ source tag, ChangesOnly (.tdSearch source tag) ⟨[], [.AEx_CALHTR_HTR, .CAL_STAT_BUSY, .CAL_STAT_SCRIPT,
    .CAL_STAT_STRING], [.shadow, .host, .bur, .cal, .out]⟩) ∧
  (∀ source tag, ChangesOnly (.laneRetire source tag) ⟨[], laneRegs ++ [.RCHx_CNT1_REDET, .HARP_CTRL_RLANE,
    .HARP_CNT1_RESTARTS], [.events, .eventSeq, .str, .harp, .host, .bridge, .bur, .power, .out]⟩) ∧
  (∀ source tag, ChangesOnly (.laneUnretire source tag) ⟨[], chestRegs ++ sequencerRegs ++ [.RCHx_STAT_SLOTS_FREE,
    .RCHx_STAT_PENDQ, .RCHx_SLOT_BUSY, .HARP_CTRL_RLANE, .HARP_STAT_INSVC, .HARP_STAT_AVAIL, .HARP_STAT_BELOW_FLOOR,
    .HARP_STAT_CFG_LOCKED, .HARP_RETIRED_LANES, .HARP_WDRAWN_LANES, .HARP_STRIKE0_COUNT, .HARP_STRIKE1_COUNT,
    .RLDx_STAT_ACTIVE, .RLDx_STAT_WAITQ, .STRM_STAT_ARMED, .STRM_HARP_REQ, .STRM_HARP_CAP, .STRM_MED_USED,
    .STRM_MED_STREAMS, .BRG_STRM_RSV, .BRG_USE_CELLS, .BRG_USE_PAGES, .CHST_STAT_JRNL_WAIT, .PWR_STAT_MODE, .PWR_STAT_SUB,
    .PWR_STAT_DEGR], [.events, .eventSeq, .str, .harp, .host, .bridge, .bur, .power, .out]⟩) ∧
  (∀ source tag, ChangesOnly (.coreRetire source tag) ⟨[], chestRegs ++ [.BURn_STAT_STATE, .BURn_STAT_CAUSE_LAST,
    .BURn_STAT_CORE_RET, .BURn_STAT_L2_OFF, .BURn_CNT_WDOG_EXP, .BURn_CNT_MIGRATE, .L2n_CTRL_EN, .L2n_STAT_WALK,
    .MI_I_CFG_INIT_MODE, .PWR_STAT_MODE, .PWR_STAT_SUB, .PWR_STAT_DEGR, .PWR_DOMREQ_ON, .PWR_DOMSTAT_ON], [.events,
    .eventSeq, .host, .bridge, .memory, .bur, .power, .out]⟩) ∧
  (∀ source tag, ChangesOnly (.coreUnretire source tag) ⟨[], [.BURn_STAT_STATE, .BURn_STAT_CFG_LOCKED,
    .MI_I_CFG_INIT_MODE, .PWR_STAT_MODE, .PWR_STAT_SUB, .PWR_DOMREQ_ON, .PWR_DOMSTAT_ON], [.host, .memory, .bur, .power,
    .out]⟩) ∧
  (∀ words, ChangesOnly (.telemetryPeriod words) ⟨[], [], [.host]⟩) ∧
  (ChangesOnly .configurationStored ⟨[], [], [.host, .bur, .out]⟩)

/-- Frames of the life cycle and Bench commands, in every state: outside the register fields and the parts of the state that a line names for its
command, every register field of every instance reads as before, every other part is as before (every byte of memory where `mem`
is not named), and the queue is as before. -/
def Obligations.LifeCycleAndBenchFrames : Prop :=
  (∀ fseq, ChangesOnly (.firmwareImageDownload fseq) ⟨[], [], [.host, .lc]⟩) ∧
  (∀ fseq key signed, ChangesOnly (.firmwareCommit fseq key signed) ⟨[], [], [.host, .lc]⟩) ∧
  (∀ source tag, ChangesOnly (.lcChallenge source tag) ⟨[], [.LC_STAT_CHAL_LIVE], [.draws, .host, .bur, .lc, .out]⟩) ∧
  (∀ source tag key signed steps, ChangesOnly (.lcToken source tag key signed steps) ⟨[], transitionRegs ++
    [.LC_STAT_CHAL_LIVE], [.shadow, .events, .eventSeq, .spe, .str, .host, .bridge, .cab, .phv, .bur, .power, .lc, .bench,
    .out]⟩) ∧
  (∀ source tag, ChangesOnly (.lcState source tag) ⟨[], [], [.host, .bur, .out]⟩) ∧
  (ChangesOnly .challengeExpiry ⟨[], [.LC_STAT_CHAL_LIVE], [.lc]⟩) ∧
  (ChangesOnly .bypass ⟨[], [], [.bench]⟩) ∧
  (ChangesOnly .idcode ⟨[], [], [.bench, .out]⟩) ∧
  (ChangesOnly .samplePreload ⟨[], [.BNCH_STAT_DENIED, .BNCH_STAT_BSCAN_BLK], [.bench]⟩) ∧
  (ChangesOnly .extest ⟨[], [.BNCH_STAT_DENIED, .BNCH_STAT_BSCAN_BLK], [.bench]⟩) ∧
  (ChangesOnly .clamp ⟨[], [.BNCH_STAT_DENIED, .BNCH_STAT_BSCAN_BLK], [.bench]⟩) ∧
  (ChangesOnly .highz ⟨[], [.BNCH_STAT_DENIED, .BNCH_STAT_BSCAN_BLK], [.bench]⟩) ∧
  (ChangesOnly .dbg ⟨[], [.BNCH_STAT_DENIED, .BNCH_STAT_BSCAN_BLK], [.bench]⟩) ∧
  (∀ frame, ChangesOnly (.dbgFrame frame) ⟨[], [], [.bur, .out]⟩) ∧
  (ChangesOnly .benchChallenge ⟨[], [.LC_STAT_CHAL_LIVE], [.draws, .lc, .out]⟩) ∧
  (∀ token key signed request steps, ChangesOnly (.benchOpen token key signed request steps) ⟨[], transitionRegs ++
    [.LC_STAT_CHAL_LIVE, .BNCH_CNT_OPENS, .BNCH_CNT_REFUSED], [.shadow, .events, .eventSeq, .spe, .str, .host, .bridge,
    .cab, .phv, .bur, .power, .lc, .bench, .out]⟩) ∧
  (ChangesOnly .sessionClose ⟨[], transitionRegs, [.shadow, .events, .eventSeq, .spe, .str, .host, .bridge, .cab, .phv,
    .bur, .power, .lc, .bench, .out]⟩) ∧
  (ChangesOnly .trst ⟨[], transitionRegs, [.shadow, .events, .eventSeq, .spe, .str, .host, .bridge, .cab, .phv, .bur,
    .power, .lc, .bench, .out]⟩) ∧
  (ChangesOnly .sessionIdleTimeout ⟨[], transitionRegs, [.shadow, .events, .eventSeq, .spe, .str, .host, .bridge, .cab,
    .phv, .bur, .power, .lc, .bench, .out]⟩) ∧
  (∀ engine, ChangesOnly (.halt engine) ⟨[], inhibitRegs ++ [.SCEx_STAT_STATE, .SCEx_STAT_PVALID, .SCEx_STAT_WINH,
    .SCEx_VCMCMD_S30, .SCEx_MACMD_S31, .BURn_CNT_MIGRATE, .BNCH_STAT_HALTED], [.spe, .str, .host, .bridge, .bur, .bench,
    .out]⟩) ∧
  (∀ engine, ChangesOnly (.benchResume engine) ⟨[], [.SCEx_STAT_STATE, .BNCH_STAT_HALTED], [.bur, .bench, .out]⟩) ∧
  (∀ engine pt, ChangesOnly (.step engine pt) ⟨[], requestRegs ++ [.SCEx_STAT_SAT_INT, .SCEx_BANK0_TABLE,
    .SCEx_BANK1_TABLE, .SCEx_FALLBACK_TABLE, .RCHx_STAT_PLL_LOCK, .RCHx_STAT_SET_INV, .RCHx_STAT_SET, .RCHx_RATE_BITRATE,
    .RCHx_FIR_TAP, .RCHx_NP_NP, .SQ_STAT_PC, .SQ_RESUME_ADDR, .SQ_OUT_VALUE, .SQ_UFLAG_FLAGS, .SQ_UCNT_COUNT,
    .PEGx_V_VALUE], [.shadow, .mem, .draws, .events, .eventSeq, .str, .harp, .host, .bridge, .phv, .memory, .bur, .power,
    .bench, .out]⟩) ∧
  (∀ engine kind place on, ChangesOnly (.breakpointSet engine kind place on) ⟨[], [], [.bench, .out]⟩) ∧
  (∀ engine kind place, ChangesOnly (.breakpointHit engine kind place) ⟨[], inhibitRegs ++ [.SCEx_STAT_STATE,
    .SCEx_STAT_PVALID, .SCEx_STAT_WINH, .SCEx_VCMCMD_S30, .SCEx_MACMD_S31, .BURn_CNT_MIGRATE, .BNCH_STAT_HALTED], [.spe,
    .str, .host, .bridge, .bur, .bench]⟩) ∧
  (∀ address words, ChangesOnly (.memRd address words) ⟨[], sequencerRegs ++ [.FAB_ERR_STAT_ERR, .FAB_ERR_STAT_OVF,
    .FAB_ERR_STAT_KIND, .FAB_ERR_ADDR_ADDR_LO, .FAB_ERR_SRC_ADDR_HI, .FAB_ERR_SRC_REQ, .FAB_ERR_SRC_WR, .SCEx_CYC_PEAK,
    .L2n_STAT_DIRTY, .L2n_CNT0_HITS, .L2n_CNT1_MISSES, .L2n_CNT2_PF_USED, .L2n_CNT2_PF_DROP, .MI_I_STAT_LEVEL,
    .MI_I_STAT_OVF, .MI_I_STAT_UE, .MI_I_CE_COUNT, .MI_I_UE_UE, .MI_I_ALO_ADDR, .MI_I_AHI_ADDR, .MI_I_AHI_SYND,
    .MI_I_AHI_KIND, .BNCH_STAT_KEYRD], [.mem, .draws, .str, .memory, .out]⟩) ∧
  (∀ address words outcome, ChangesOnly (.memWr address words outcome) ⟨Blk.all, [], [.shadow, .mem, .control, .staged,
    .draws, .events, .eventSeq, .fret, .capo, .spe, .str, .harp, .host, .bridge, .cab, .phv, .memory, .bur, .power, .cal,
    .therm, .out]⟩) ∧
  (∀ engine, ChangesOnly (.stateRd engine) ⟨[], [], [.draws, .out]⟩) ∧
  (ChangesOnly .traceRd ⟨[], [], [.out]⟩) ∧
  (∀ engine, ChangesOnly (.snap engine) ⟨[], [], [.bench, .out]⟩) ∧
  (ChangesOnly .snapCapture ⟨[], [.BNCH_STAT_MATCH], [.bench, .out]⟩) ∧
  (ChangesOnly .sstep ⟨[], [.BNCH_STAT_MATCH, .BNCH_STAT_SKIPX], [.draws, .bench, .out]⟩) ∧
  (ChangesOnly .srun ⟨[], [.BNCH_STAT_MATCH, .BNCH_STAT_SKIPX], [.draws, .bench, .out]⟩)
end

