-- ==== Sys2Proof/Laws/Widths.lean ====
section
/-! SUPPORT. Laws/Widths.lean: the width of every register field, for the truncation of a write. -/
namespace Sys2Proof.Machine

@[simp] theorem Reg.width_FAB_ERR_STAT_ERR : (Reg.FAB_ERR_STAT_ERR).row.width = 1 := rfl
@[simp] theorem Reg.width_FAB_ERR_STAT_OVF : (Reg.FAB_ERR_STAT_OVF).row.width = 1 := rfl
@[simp] theorem Reg.width_FAB_ERR_STAT_KIND : (Reg.FAB_ERR_STAT_KIND).row.width = 2 := rfl
@[simp] theorem Reg.width_FAB_ERR_ADDR_ADDR_LO : (Reg.FAB_ERR_ADDR_ADDR_LO).row.width = 32 := rfl
@[simp] theorem Reg.width_FAB_ERR_SRC_ADDR_HI : (Reg.FAB_ERR_SRC_ADDR_HI).row.width = 16 := rfl
@[simp] theorem Reg.width_FAB_ERR_SRC_REQ : (Reg.FAB_ERR_SRC_REQ).row.width = 7 := rfl
@[simp] theorem Reg.width_FAB_ERR_SRC_WR : (Reg.FAB_ERR_SRC_WR).row.width = 1 := rfl
@[simp] theorem Reg.width_FRET_CTRL_REMEAS : (Reg.FRET_CTRL_REMEAS).row.width = 4 := rfl
@[simp] theorem Reg.width_FRET_CTRL_DRIFT_TOL : (Reg.FRET_CTRL_DRIFT_TOL).row.width = 16 := rfl
@[simp] theorem Reg.width_FRET_STAT_VALID : (Reg.FRET_STAT_VALID).row.width = 4 := rfl
@[simp] theorem Reg.width_FRET_STAT_DRIFT : (Reg.FRET_STAT_DRIFT).row.width = 4 := rfl
@[simp] theorem Reg.width_FRET_STAT_REF : (Reg.FRET_STAT_REF).row.width = 2 := rfl
@[simp] theorem Reg.width_FRET_STAT_NOREF : (Reg.FRET_STAT_NOREF).row.width = 1 := rfl
@[simp] theorem Reg.width_FRET_PERIOD_PS : (Reg.FRET_PERIOD_PS).row.width = 32 := rfl
@[simp] theorem Reg.width_FRET_SKEW_FRAC : (Reg.FRET_SKEW_FRAC).row.width = 16 := rfl
@[simp] theorem Reg.width_FRET_SKEW_WEDGE : (Reg.FRET_SKEW_WEDGE).row.width = 9 := rfl
@[simp] theorem Reg.width_FRET_SKEWNS_NS : (Reg.FRET_SKEWNS_NS).row.width = 16 := rfl
@[simp] theorem Reg.width_CAPO_CTRL_ARM : (Reg.CAPO_CTRL_ARM).row.width = 1 := rfl
@[simp] theorem Reg.width_CAPO_CTRL_DISARM : (Reg.CAPO_CTRL_DISARM).row.width = 1 := rfl
@[simp] theorem Reg.width_CAPO_CTRL_SRC : (Reg.CAPO_CTRL_SRC).row.width = 2 := rfl
@[simp] theorem Reg.width_CAPO_CTRL_EDGE : (Reg.CAPO_CTRL_EDGE).row.width = 1 := rfl
@[simp] theorem Reg.width_CAPO_RATIO_M1 : (Reg.CAPO_RATIO_M1).row.width = 12 := rfl
@[simp] theorem Reg.width_CAPO_RATIO_N1 : (Reg.CAPO_RATIO_N1).row.width = 12 := rfl
@[simp] theorem Reg.width_CAPO_FRAME_FDIV1 : (Reg.CAPO_FRAME_FDIV1).row.width = 16 := rfl
@[simp] theorem Reg.width_CAPO_AIN_CFG_THRESH : (Reg.CAPO_AIN_CFG_THRESH).row.width = 6 := rfl
@[simp] theorem Reg.width_CAPO_AIN_CFG_HYST : (Reg.CAPO_AIN_CFG_HYST).row.width = 2 := rfl
@[simp] theorem Reg.width_CAPO_HOLD_MS : (Reg.CAPO_HOLD_MS).row.width = 16 := rfl
@[simp] theorem Reg.width_CAPO_STAT_STATE : (Reg.CAPO_STAT_STATE).row.width = 3 := rfl
@[simp] theorem Reg.width_CAPO_STAT_SLEW : (Reg.CAPO_STAT_SLEW).row.width = 1 := rfl
@[simp] theorem Reg.width_CAPO_STAT_WINH : (Reg.CAPO_STAT_WINH).row.width = 1 := rfl
@[simp] theorem Reg.width_CAPO_STAT_LOSS : (Reg.CAPO_STAT_LOSS).row.width = 1 := rfl
@[simp] theorem Reg.width_CAPO_STAT_RANGE : (Reg.CAPO_STAT_RANGE).row.width = 1 := rfl
@[simp] theorem Reg.width_CAPO_STAT_GLITCH : (Reg.CAPO_STAT_GLITCH).row.width = 1 := rfl
@[simp] theorem Reg.width_CAPO_STAT_CFG_LOCKED : (Reg.CAPO_STAT_CFG_LOCKED).row.width = 1 := rfl
@[simp] theorem Reg.width_CAPO_STAT_SPE_FAULT : (Reg.CAPO_STAT_SPE_FAULT).row.width = 1 := rfl
@[simp] theorem Reg.width_CAPO_STAT_RATIO_REJ : (Reg.CAPO_STAT_RATIO_REJ).row.width = 1 := rfl
@[simp] theorem Reg.width_CAPO_REF_PERIOD : (Reg.CAPO_REF_PERIOD).row.width = 32 := rfl
@[simp] theorem Reg.width_CAPO_TARGET_UHZ : (Reg.CAPO_TARGET_UHZ).row.width = 32 := rfl
@[simp] theorem Reg.width_CAPO_SETPT_UHZ : (Reg.CAPO_SETPT_UHZ).row.width = 32 := rfl
@[simp] theorem Reg.width_CAPO_PHASE_ERR : (Reg.CAPO_PHASE_ERR).row.width = 16 := rfl
@[simp] theorem Reg.width_CAPO_PHASE_WEDGE : (Reg.CAPO_PHASE_WEDGE).row.width = 9 := rfl
@[simp] theorem Reg.width_CAPO_FRAMECNT_COUNT : (Reg.CAPO_FRAMECNT_COUNT).row.width = 32 := rfl
@[simp] theorem Reg.width_CAPO_GLITCHCNT_COUNT : (Reg.CAPO_GLITCHCNT_COUNT).row.width = 16 := rfl
@[simp] theorem Reg.width_CAPO_SHADOW_RATIO : (Reg.CAPO_SHADOW_RATIO).row.width = 32 := rfl
@[simp] theorem Reg.width_SPE_CTRL_START : (Reg.SPE_CTRL_START).row.width = 1 := rfl
@[simp] theorem Reg.width_SPE_CTRL_STOP : (Reg.SPE_CTRL_STOP).row.width = 1 := rfl
@[simp] theorem Reg.width_SPE_CTRL_STOPMODE : (Reg.SPE_CTRL_STOPMODE).row.width = 1 := rfl
@[simp] theorem Reg.width_SPE_CTRL_CATCH_EN : (Reg.SPE_CTRL_CATCH_EN).row.width = 1 := rfl
@[simp] theorem Reg.width_SPE_CTRL_BRK_RES : (Reg.SPE_CTRL_BRK_RES).row.width = 1 := rfl
@[simp] theorem Reg.width_SPE_SETPT_RPM : (Reg.SPE_SETPT_RPM).row.width = 16 := rfl
@[simp] theorem Reg.width_SPE_RAMP_ACC : (Reg.SPE_RAMP_ACC).row.width = 10 := rfl
@[simp] theorem Reg.width_SPE_RAMP_SPD_TOL : (Reg.SPE_RAMP_SPD_TOL).row.width = 10 := rfl
@[simp] theorem Reg.width_SPE_ILIM_RUN_ILIM : (Reg.SPE_ILIM_RUN_ILIM).row.width = 8 := rfl
@[simp] theorem Reg.width_SPE_ILIM_BRK_ILIM : (Reg.SPE_ILIM_BRK_ILIM).row.width = 8 := rfl
@[simp] theorem Reg.width_SPE_ILIM_ALIGN_I : (Reg.SPE_ILIM_ALIGN_I).row.width = 8 := rfl
@[simp] theorem Reg.width_SPE_ILIM_START_I : (Reg.SPE_ILIM_START_I).row.width = 8 := rfl
@[simp] theorem Reg.width_SPE_START_ALIGN_MS : (Reg.SPE_START_ALIGN_MS).row.width = 10 := rfl
@[simp] theorem Reg.width_SPE_START_HANDOVER : (Reg.SPE_START_HANDOVER).row.width = 10 := rfl
@[simp] theorem Reg.width_SPE_START_OL_ACC : (Reg.SPE_START_OL_ACC).row.width = 10 := rfl
@[simp] theorem Reg.width_SPE_MOTOR_POLEPAIRS : (Reg.SPE_MOTOR_POLEPAIRS).row.width = 4 := rfl
@[simp] theorem Reg.width_SPE_MOTOR_KE_NOM : (Reg.SPE_MOTOR_KE_NOM).row.width = 16 := rfl
@[simp] theorem Reg.width_SPE_MOTOR_RPH : (Reg.SPE_MOTOR_RPH).row.width = 8 := rfl
@[simp] theorem Reg.width_SPE_PWM_DEADTIME : (Reg.SPE_PWM_DEADTIME).row.width = 8 := rfl
@[simp] theorem Reg.width_SPE_PWM_SMP_MINW : (Reg.SPE_PWM_SMP_MINW).row.width = 8 := rfl
@[simp] theorem Reg.width_SPE_PWM_FLY_PCT : (Reg.SPE_PWM_FLY_PCT).row.width = 8 := rfl
@[simp] theorem Reg.width_SPE_FW_IDFW_MAX : (Reg.SPE_FW_IDFW_MAX).row.width = 8 := rfl
@[simp] theorem Reg.width_SPE_FW_VMARGIN : (Reg.SPE_FW_VMARGIN).row.width = 4 := rfl
@[simp] theorem Reg.width_SPE_BUS_VM_OV : (Reg.SPE_BUS_VM_OV).row.width = 8 := rfl
@[simp] theorem Reg.width_SPE_BUS_BRK_PMAX : (Reg.SPE_BUS_BRK_PMAX).row.width = 8 := rfl
@[simp] theorem Reg.width_SPE_OC_OC_LIM : (Reg.SPE_OC_OC_LIM).row.width = 8 := rfl
@[simp] theorem Reg.width_SPE_STAT_STATE : (Reg.SPE_STAT_STATE).row.width = 4 := rfl
@[simp] theorem Reg.width_SPE_STAT_ATSPD : (Reg.SPE_STAT_ATSPD).row.width = 1 := rfl
@[simp] theorem Reg.width_SPE_STAT_DIR : (Reg.SPE_STAT_DIR).row.width = 1 := rfl
@[simp] theorem Reg.width_SPE_STAT_WINH : (Reg.SPE_STAT_WINH).row.width = 1 := rfl
@[simp] theorem Reg.width_SPE_STAT_TICKPRED : (Reg.SPE_STAT_TICKPRED).row.width = 1 := rfl
@[simp] theorem Reg.width_SPE_STAT_KE_MISMATCH : (Reg.SPE_STAT_KE_MISMATCH).row.width = 1 := rfl
@[simp] theorem Reg.width_SPE_STAT_OBS_LOSS : (Reg.SPE_STAT_OBS_LOSS).row.width = 1 := rfl
@[simp] theorem Reg.width_SPE_STAT_REACQ_OK : (Reg.SPE_STAT_REACQ_OK).row.width = 1 := rfl
@[simp] theorem Reg.width_SPE_STAT_OC_TRIP : (Reg.SPE_STAT_OC_TRIP).row.width = 1 := rfl
@[simp] theorem Reg.width_SPE_STAT_START_FAIL : (Reg.SPE_STAT_START_FAIL).row.width = 1 := rfl
@[simp] theorem Reg.width_SPE_STAT_REGEN_CLAMP : (Reg.SPE_STAT_REGEN_CLAMP).row.width = 1 := rfl
@[simp] theorem Reg.width_SPE_STAT_SKIP_LIM : (Reg.SPE_STAT_SKIP_LIM).row.width = 1 := rfl
@[simp] theorem Reg.width_SPE_STAT_CFG_LOCKED : (Reg.SPE_STAT_CFG_LOCKED).row.width = 1 := rfl
@[simp] theorem Reg.width_SPE_STAT_SETPT_RANGE : (Reg.SPE_STAT_SETPT_RANGE).row.width = 1 := rfl
@[simp] theorem Reg.width_SPE_SPEED_MRPM : (Reg.SPE_SPEED_MRPM).row.width = 32 := rfl
@[simp] theorem Reg.width_SPE_KE_KE : (Reg.SPE_KE_KE).row.width = 16 := rfl
@[simp] theorem Reg.width_SPE_KE_VALID : (Reg.SPE_KE_VALID).row.width = 1 := rfl
@[simp] theorem Reg.width_SPE_SKIPCNT_COUNT : (Reg.SPE_SKIPCNT_COUNT).row.width = 32 := rfl
@[simp] theorem Reg.width_SPE_SHADOW_SETPT : (Reg.SPE_SHADOW_SETPT).row.width = 16 := rfl
@[simp] theorem Reg.width_SPE_SHADOW_RUN_ILIM : (Reg.SPE_SHADOW_RUN_ILIM).row.width = 8 := rfl
@[simp] theorem Reg.width_SPE_TICK_PERIOD : (Reg.SPE_TICK_PERIOD).row.width = 32 := rfl
@[simp] theorem Reg.width_SPE_COEF_COEF : (Reg.SPE_COEF_COEF).row.width = 32 := rfl
@[simp] theorem Reg.width_SCEx_CTRL_LOAD : (Reg.SCEx_CTRL_LOAD).row.width = 1 := rfl
@[simp] theorem Reg.width_SCEx_CTRL_UNLOAD : (Reg.SCEx_CTRL_UNLOAD).row.width = 1 := rfl
@[simp] theorem Reg.width_SCEx_CTRL_RETRACT : (Reg.SCEx_CTRL_RETRACT).row.width = 1 := rfl
@[simp] theorem Reg.width_SCEx_CTRL_BANK_SW : (Reg.SCEx_CTRL_BANK_SW).row.width = 1 := rfl
@[simp] theorem Reg.width_SCEx_CTRL_OPT_EN : (Reg.SCEx_CTRL_OPT_EN).row.width = 1 := rfl
@[simp] theorem Reg.width_SCEx_CTRL_CPL_ROUTE : (Reg.SCEx_CTRL_CPL_ROUTE).row.width = 2 := rfl
@[simp] theorem Reg.width_SCEx_STAT_STATE : (Reg.SCEx_STAT_STATE).row.width = 4 := rfl
@[simp] theorem Reg.width_SCEx_STAT_PVALID : (Reg.SCEx_STAT_PVALID).row.width = 1 := rfl
@[simp] theorem Reg.width_SCEx_STAT_WINH : (Reg.SCEx_STAT_WINH).row.width = 1 := rfl
@[simp] theorem Reg.width_SCEx_STAT_ACTBANK : (Reg.SCEx_STAT_ACTBANK).row.width = 1 := rfl
@[simp] theorem Reg.width_SCEx_STAT_FALLBACK : (Reg.SCEx_STAT_FALLBACK).row.width = 1 := rfl
@[simp] theorem Reg.width_SCEx_STAT_LOOP_OPEN : (Reg.SCEx_STAT_LOOP_OPEN).row.width = 1 := rfl
@[simp] theorem Reg.width_SCEx_STAT_LOSTCNT : (Reg.SCEx_STAT_LOSTCNT).row.width = 3 := rfl
@[simp] theorem Reg.width_SCEx_STAT_OVRCNT : (Reg.SCEx_STAT_OVRCNT).row.width = 2 := rfl
@[simp] theorem Reg.width_SCEx_STAT_OVR : (Reg.SCEx_STAT_OVR).row.width = 1 := rfl
@[simp] theorem Reg.width_SCEx_STAT_SAT_VCM : (Reg.SCEx_STAT_SAT_VCM).row.width = 1 := rfl
@[simp] theorem Reg.width_SCEx_STAT_SAT_MA : (Reg.SCEx_STAT_SAT_MA).row.width = 1 := rfl
@[simp] theorem Reg.width_SCEx_STAT_SAT_INT : (Reg.SCEx_STAT_SAT_INT).row.width = 1 := rfl
@[simp] theorem Reg.width_SCEx_STAT_PLAUS : (Reg.SCEx_STAT_PLAUS).row.width = 1 := rfl
@[simp] theorem Reg.width_SCEx_STAT_RETRACTED : (Reg.SCEx_STAT_RETRACTED).row.width = 1 := rfl
@[simp] theorem Reg.width_SCEx_STAT_FB_PEND : (Reg.SCEx_STAT_FB_PEND).row.width = 1 := rfl
@[simp] theorem Reg.width_SCEx_STAT_CFG_LOCKED : (Reg.SCEx_STAT_CFG_LOCKED).row.width = 1 := rfl
@[simp] theorem Reg.width_SCEx_STAT_SEEK_TO : (Reg.SCEx_STAT_SEEK_TO).row.width = 1 := rfl
@[simp] theorem Reg.width_SCEx_STAT_LOAD_FAIL : (Reg.SCEx_STAT_LOAD_FAIL).row.width = 1 := rfl
@[simp] theorem Reg.width_SCEx_STAT_CPL_STALE : (Reg.SCEx_STAT_CPL_STALE).row.width = 4 := rfl
@[simp] theorem Reg.width_SCEx_STAT_FAULT : (Reg.SCEx_STAT_FAULT).row.width = 1 := rfl
@[simp] theorem Reg.width_SCEx_STAT_TGT_ERR : (Reg.SCEx_STAT_TGT_ERR).row.width = 1 := rfl
@[simp] theorem Reg.width_SCEx_TARGET_TRACK : (Reg.SCEx_TARGET_TRACK).row.width = 24 := rfl
@[simp] theorem Reg.width_SCEx_TARGET_HEAD : (Reg.SCEx_TARGET_HEAD).row.width = 3 := rfl
@[simp] theorem Reg.width_SCEx_TOFFS_OFFS : (Reg.SCEx_TOFFS_OFFS).row.width = 16 := rfl
@[simp] theorem Reg.width_SCEx_THRESH_WF_TH : (Reg.SCEx_THRESH_WF_TH).row.width = 8 := rfl
@[simp] theorem Reg.width_SCEx_THRESH_RD_TH : (Reg.SCEx_THRESH_RD_TH).row.width = 8 := rfl
@[simp] theorem Reg.width_SCEx_THRESH_PLAUS_TH : (Reg.SCEx_THRESH_PLAUS_TH).row.width = 8 := rfl
@[simp] theorem Reg.width_SCEx_THRESH_SETTLE_N : (Reg.SCEx_THRESH_SETTLE_N).row.width = 4 := rfl
@[simp] theorem Reg.width_SCEx_SEEK_V_MAX : (Reg.SCEx_SEEK_V_MAX).row.width = 12 := rfl
@[simp] theorem Reg.width_SCEx_SEEK_A_MAX : (Reg.SCEx_SEEK_A_MAX).row.width = 12 := rfl
@[simp] theorem Reg.width_SCEx_SEEK_J_MAX : (Reg.SCEx_SEEK_J_MAX).row.width = 8 := rfl
@[simp] theorem Reg.width_SCEx_ILIM_ISEEK_LIM : (Reg.SCEx_ILIM_ISEEK_LIM).row.width = 16 := rfl
@[simp] theorem Reg.width_SCEx_ILIM_RET_ILIM : (Reg.SCEx_ILIM_RET_ILIM).row.width = 16 := rfl
@[simp] theorem Reg.width_SCEx_RET_RET_VEL : (Reg.SCEx_RET_RET_VEL).row.width = 8 := rfl
@[simp] theorem Reg.width_SCEx_RET_RET_MS : (Reg.SCEx_RET_RET_MS).row.width = 8 := rfl
@[simp] theorem Reg.width_SCEx_RET_LOAD_MS : (Reg.SCEx_RET_LOAD_MS).row.width = 8 := rfl
@[simp] theorem Reg.width_SCEx_RET_SETTLE_MAX : (Reg.SCEx_RET_SETTLE_MAX).row.width = 8 := rfl
@[simp] theorem Reg.width_SCEx_VCM_KB : (Reg.SCEx_VCM_KB).row.width = 16 := rfl
@[simp] theorem Reg.width_SCEx_VCM_RVCM : (Reg.SCEx_VCM_RVCM).row.width = 8 := rfl
@[simp] theorem Reg.width_SCEx_VCM_MA_LIM : (Reg.SCEx_VCM_MA_LIM).row.width = 8 := rfl
@[simp] theorem Reg.width_SCEx_PES_S0 : (Reg.SCEx_PES_S0).row.width = 32 := rfl
@[simp] theorem Reg.width_SCEx_VCMCMD_S30 : (Reg.SCEx_VCMCMD_S30).row.width = 32 := rfl
@[simp] theorem Reg.width_SCEx_MACMD_S31 : (Reg.SCEx_MACMD_S31).row.width = 32 := rfl
@[simp] theorem Reg.width_SCEx_CPLFF_S5 : (Reg.SCEx_CPLFF_S5).row.width = 32 := rfl
@[simp] theorem Reg.width_SCEx_CYC_MAND : (Reg.SCEx_CYC_MAND).row.width = 11 := rfl
@[simp] theorem Reg.width_SCEx_CYC_PEAK : (Reg.SCEx_CYC_PEAK).row.width = 12 := rfl
@[simp] theorem Reg.width_SCEx_LOSTTOT_COUNT : (Reg.SCEx_LOSTTOT_COUNT).row.width = 32 := rfl
@[simp] theorem Reg.width_SCEx_PRSAM_TIME : (Reg.SCEx_PRSAM_TIME).row.width = 32 := rfl
@[simp] theorem Reg.width_SCEx_TGT_SHADOW_TRACK : (Reg.SCEx_TGT_SHADOW_TRACK).row.width = 24 := rfl
@[simp] theorem Reg.width_SCEx_TGT_SHADOW_HEAD : (Reg.SCEx_TGT_SHADOW_HEAD).row.width = 3 := rfl
@[simp] theorem Reg.width_SCEx_TGT_SHADOW_PEND : (Reg.SCEx_TGT_SHADOW_PEND).row.width = 1 := rfl
@[simp] theorem Reg.width_SCEx_MISC_SHADOW_OFFS : (Reg.SCEx_MISC_SHADOW_OFFS).row.width = 16 := rfl
@[simp] theorem Reg.width_SCEx_MISC_SHADOW_OPT_EN : (Reg.SCEx_MISC_SHADOW_OPT_EN).row.width = 1 := rfl
@[simp] theorem Reg.width_SCEx_MISC_SHADOW_CPL_ROUTE : (Reg.SCEx_MISC_SHADOW_CPL_ROUTE).row.width = 2 := rfl
@[simp] theorem Reg.width_SCEx_HEADS_HEADS : (Reg.SCEx_HEADS_HEADS).row.width = 3 := rfl
@[simp] theorem Reg.width_SCEx_BANK0_TABLE : (Reg.SCEx_BANK0_TABLE).row.width = 32 := rfl
@[simp] theorem Reg.width_SCEx_BANK1_TABLE : (Reg.SCEx_BANK1_TABLE).row.width = 32 := rfl
@[simp] theorem Reg.width_SCEx_FALLBACK_TABLE : (Reg.SCEx_FALLBACK_TABLE).row.width = 32 := rfl
@[simp] theorem Reg.width_SVDx_CTRL_ACQ : (Reg.SVDx_CTRL_ACQ).row.width = 1 := rfl
@[simp] theorem Reg.width_SVDx_CTRL_IDLE : (Reg.SVDx_CTRL_IDLE).row.width = 1 := rfl
@[simp] theorem Reg.width_SVDx_CTRL_GRAY_SUB : (Reg.SVDx_CTRL_GRAY_SUB).row.width = 1 := rfl
@[simp] theorem Reg.width_SVDx_CTRL_RRO_EN : (Reg.SVDx_CTRL_RRO_EN).row.width = 1 := rfl
@[simp] theorem Reg.width_SVDx_FMT0_CELLS : (Reg.SVDx_FMT0_CELLS).row.width = 13 := rfl
@[simp] theorem Reg.width_SVDx_FMT0_PRE_LEN : (Reg.SVDx_FMT0_PRE_LEN).row.width = 9 := rfl
@[simp] theorem Reg.width_SVDx_FMT0_SAM_LEN : (Reg.SVDx_FMT0_SAM_LEN).row.width = 5 := rfl
@[simp] theorem Reg.width_SVDx_FMT1_SAM_PAT : (Reg.SVDx_FMT1_SAM_PAT).row.width = 16 := rfl
@[simp] theorem Reg.width_SVDx_FMT1_SAM_TOL : (Reg.SVDx_FMT1_SAM_TOL).row.width = 2 := rfl
@[simp] theorem Reg.width_SVDx_FMT1_SAM_WIN : (Reg.SVDx_FMT1_SAM_WIN).row.width = 7 := rfl
@[simp] theorem Reg.width_SVDx_FMT1_SAMW_TOL : (Reg.SVDx_FMT1_SAMW_TOL).row.width = 4 := rfl
@[simp] theorem Reg.width_SVDx_FMT2_GRAY_OFF : (Reg.SVDx_FMT2_GRAY_OFF).row.width = 9 := rfl
@[simp] theorem Reg.width_SVDx_FMT2_WNUM_OFF : (Reg.SVDx_FMT2_WNUM_OFF).row.width = 9 := rfl
@[simp] theorem Reg.width_SVDx_FMT2_NB_OFF : (Reg.SVDx_FMT2_NB_OFF).row.width = 9 := rfl
@[simp] theorem Reg.width_SVDx_FMT3_QB_OFF : (Reg.SVDx_FMT3_QB_OFF).row.width = 9 := rfl
@[simp] theorem Reg.width_SVDx_FMT3_RRO_OFF : (Reg.SVDx_FMT3_RRO_OFF).row.width = 9 := rfl
@[simp] theorem Reg.width_SVDx_FMT3_BOUND : (Reg.SVDx_FMT3_BOUND).row.width = 9 := rfl
@[simp] theorem Reg.width_SVDx_FMT4_TRK_BITS : (Reg.SVDx_FMT4_TRK_BITS).row.width = 5 := rfl
@[simp] theorem Reg.width_SVDx_FMT4_CPB : (Reg.SVDx_FMT4_CPB).row.width = 3 := rfl
@[simp] theorem Reg.width_SVDx_FMT4_BURST_LEN : (Reg.SVDx_FMT4_BURST_LEN).row.width = 7 := rfl
@[simp] theorem Reg.width_SVDx_FMT4_BURST_PER : (Reg.SVDx_FMT4_BURST_PER).row.width = 4 := rfl
@[simp] theorem Reg.width_SVDx_FMT4_BURST_MIN : (Reg.SVDx_FMT4_BURST_MIN).row.width = 8 := rfl
@[simp] theorem Reg.width_SVDx_FMT5_SYNC_N : (Reg.SVDx_FMT5_SYNC_N).row.width = 4 := rfl
@[simp] theorem Reg.width_SVDx_FMT5_SYNC_LOSS : (Reg.SVDx_FMT5_SYNC_LOSS).row.width = 4 := rfl
@[simp] theorem Reg.width_SVDx_HRDR_SRV_RDR : (Reg.SVDx_HRDR_SRV_RDR).row.width = 2 := rfl
@[simp] theorem Reg.width_SVDx_HRDR_RDR_OFFS : (Reg.SVDx_HRDR_RDR_OFFS).row.width = 16 := rfl
@[simp] theorem Reg.width_SVDx_HSKEW_HSKEW : (Reg.SVDx_HSKEW_HSKEW).row.width = 16 := rfl
@[simp] theorem Reg.width_SVDx_STAT_SYNC_STATE : (Reg.SVDx_STAT_SYNC_STATE).row.width = 2 := rfl
@[simp] theorem Reg.width_SVDx_STAT_LAST_OK : (Reg.SVDx_STAT_LAST_OK).row.width = 1 := rfl
@[simp] theorem Reg.width_SVDx_STAT_CFG_LOCKED : (Reg.SVDx_STAT_CFG_LOCKED).row.width = 1 := rfl
@[simp] theorem Reg.width_SVDx_STAT_SLIP : (Reg.SVDx_STAT_SLIP).row.width = 1 := rfl
@[simp] theorem Reg.width_SVDx_STAT_SAM_DUP : (Reg.SVDx_STAT_SAM_DUP).row.width = 1 := rfl
@[simp] theorem Reg.width_SVDx_STAT_GRAY_SUBD : (Reg.SVDx_STAT_GRAY_SUBD).row.width = 1 := rfl
@[simp] theorem Reg.width_SVDx_STAT_RRO_BAD : (Reg.SVDx_STAT_RRO_BAD).row.width = 1 := rfl
@[simp] theorem Reg.width_SVDx_STAT_WNUM_FIX : (Reg.SVDx_STAT_WNUM_FIX).row.width = 1 := rfl
@[simp] theorem Reg.width_SVDx_STAT_SAM_OFF : (Reg.SVDx_STAT_SAM_OFF).row.width = 1 := rfl
@[simp] theorem Reg.width_SVDx_STAT_FMT_VALID : (Reg.SVDx_STAT_FMT_VALID).row.width = 1 := rfl
@[simp] theorem Reg.width_SVDx_STAT_LAST_CAUSE : (Reg.SVDx_STAT_LAST_CAUSE).row.width = 3 := rfl
@[simp] theorem Reg.width_SVDx_STAT_WEDGE : (Reg.SVDx_STAT_WEDGE).row.width = 9 := rfl
@[simp] theorem Reg.width_SVDx_TRK_T : (Reg.SVDx_TRK_T).row.width = 24 := rfl
@[simp] theorem Reg.width_SVDx_FRAC_F : (Reg.SVDx_FRAC_F).row.width = 16 := rfl
@[simp] theorem Reg.width_SVDx_NQ_N : (Reg.SVDx_NQ_N).row.width = 16 := rfl
@[simp] theorem Reg.width_SVDx_NQ_Q : (Reg.SVDx_NQ_Q).row.width = 16 := rfl
@[simp] theorem Reg.width_SVDx_RRO_VALUE : (Reg.SVDx_RRO_VALUE).row.width = 10 := rfl
@[simp] theorem Reg.width_SVDx_SAMDEV_DEV : (Reg.SVDx_SAMDEV_DEV).row.width = 16 := rfl
@[simp] theorem Reg.width_SVDx_CNT_MISSED : (Reg.SVDx_CNT_MISSED).row.width = 16 := rfl
@[simp] theorem Reg.width_SVDx_CNT_UNREAD : (Reg.SVDx_CNT_UNREAD).row.width = 16 := rfl
@[simp] theorem Reg.width_SVDx_SHADOW_GRAY_SUB : (Reg.SVDx_SHADOW_GRAY_SUB).row.width = 1 := rfl
@[simp] theorem Reg.width_SVDx_SHADOW_RRO_EN : (Reg.SVDx_SHADOW_RRO_EN).row.width = 1 := rfl
@[simp] theorem Reg.width_SVDx_PREAMP_A_PRE : (Reg.SVDx_PREAMP_A_PRE).row.width = 16 := rfl
@[simp] theorem Reg.width_AEx_CTRL_WR_ARM : (Reg.AEx_CTRL_WR_ARM).row.width = 1 := rfl
@[simp] theorem Reg.width_AEx_CTRL_ABORT_CLR : (Reg.AEx_CTRL_ABORT_CLR).row.width = 1 := rfl
@[simp] theorem Reg.width_AEx_CTRL_CAL_EN : (Reg.AEx_CTRL_CAL_EN).row.width = 1 := rfl
@[simp] theorem Reg.width_AEx_CTRL_FH_EN : (Reg.AEx_CTRL_FH_EN).row.width = 1 := rfl
@[simp] theorem Reg.width_AEx_STAT_STATE : (Reg.AEx_STAT_STATE).row.width = 3 := rfl
@[simp] theorem Reg.width_AEx_STAT_HEAD : (Reg.AEx_STAT_HEAD).row.width = 3 := rfl
@[simp] theorem Reg.width_AEx_STAT_INH : (Reg.AEx_STAT_INH).row.width = 1 := rfl
@[simp] theorem Reg.width_AEx_STAT_LEDG_SOFT : (Reg.AEx_STAT_LEDG_SOFT).row.width = 1 := rfl
@[simp] theorem Reg.width_AEx_STAT_ASSIST_ABORT : (Reg.AEx_STAT_ASSIST_ABORT).row.width = 1 := rfl
@[simp] theorem Reg.width_AEx_STAT_NUT_FAIL : (Reg.AEx_STAT_NUT_FAIL).row.width = 1 := rfl
@[simp] theorem Reg.width_AEx_STAT_ARM_LAPSE : (Reg.AEx_STAT_ARM_LAPSE).row.width = 1 := rfl
@[simp] theorem Reg.width_AEx_STAT_CFG_LOCKED : (Reg.AEx_STAT_CFG_LOCKED).row.width = 1 := rfl
@[simp] theorem Reg.width_AEx_STAT_HTR_CLAMP : (Reg.AEx_STAT_HTR_CLAMP).row.width = 1 := rfl
@[simp] theorem Reg.width_AEx_STAT_LAS_CLAMP : (Reg.AEx_STAT_LAS_CLAMP).row.width = 1 := rfl
@[simp] theorem Reg.width_AEx_STAT_TD_HIT : (Reg.AEx_STAT_TD_HIT).row.width = 1 := rfl
@[simp] theorem Reg.width_AEx_CFG_TYPE : (Reg.AEx_CFG_TYPE).row.width = 2 := rfl
@[simp] theorem Reg.width_AEx_CFG_WARM_FRETS : (Reg.AEx_CFG_WARM_FRETS).row.width = 8 := rfl
@[simp] theorem Reg.width_AEx_CFG_ARM_HOLD : (Reg.AEx_CFG_ARM_HOLD).row.width = 10 := rfl
@[simp] theorem Reg.width_AEx_CFG_LEAK_SH : (Reg.AEx_CFG_LEAK_SH).row.width = 4 := rfl
@[simp] theorem Reg.width_AEx_CFG_FH_DIV : (Reg.AEx_CFG_FH_DIV).row.width = 4 := rfl
@[simp] theorem Reg.width_AEx_ABORT_WEDGE : (Reg.AEx_ABORT_WEDGE).row.width = 9 := rfl
@[simp] theorem Reg.width_AEx_ABORT_HEAD : (Reg.AEx_ABORT_HEAD).row.width = 3 := rfl
@[simp] theorem Reg.width_AEx_ABORT_CAUSE : (Reg.AEx_ABORT_CAUSE).row.width = 1 := rfl
@[simp] theorem Reg.width_AEx_SHADOW_CTRL : (Reg.AEx_SHADOW_CTRL).row.width = 3 := rfl
@[simp] theorem Reg.width_AEx_CALHTR_HTR : (Reg.AEx_CALHTR_HTR).row.width = 10 := rfl
@[simp] theorem Reg.width_AEx_H_LAS_LAS_WR : (Reg.AEx_H_LAS_LAS_WR).row.width = 12 := rfl
@[simp] theorem Reg.width_AEx_H_LAS_LAS_IDLE : (Reg.AEx_H_LAS_LAS_IDLE).row.width = 12 := rfl
@[simp] theorem Reg.width_AEx_H_LIM_LAS_MAX : (Reg.AEx_H_LIM_LAS_MAX).row.width = 12 := rfl
@[simp] theorem Reg.width_AEx_H_LIM_PW_LSB : (Reg.AEx_H_LIM_PW_LSB).row.width = 12 := rfl
@[simp] theorem Reg.width_AEx_H_LIM_TC_LAS : (Reg.AEx_H_LIM_TC_LAS).row.width = 8 := rfl
@[simp] theorem Reg.width_AEx_H_HTR_HTR_RD : (Reg.AEx_H_HTR_HTR_RD).row.width = 10 := rfl
@[simp] theorem Reg.width_AEx_H_HTR_HTR_WIDLE : (Reg.AEx_H_HTR_HTR_WIDLE).row.width = 10 := rfl
@[simp] theorem Reg.width_AEx_H_HTR_HTR_WR : (Reg.AEx_H_HTR_HTR_WR).row.width = 10 := rfl
@[simp] theorem Reg.width_AEx_H_HLIM_HTR_MAX : (Reg.AEx_H_HLIM_HTR_MAX).row.width = 10 := rfl
@[simp] theorem Reg.width_AEx_H_HLIM_HTR_TC : (Reg.AEx_H_HLIM_HTR_TC).row.width = 8 := rfl
@[simp] theorem Reg.width_AEx_H_HLIM_HTR_CMAX : (Reg.AEx_H_HLIM_HTR_CMAX).row.width = 8 := rfl
@[simp] theorem Reg.width_AEx_H_HLIM_WC : (Reg.AEx_H_HLIM_WC).row.width = 6 := rfl
@[simp] theorem Reg.width_AEx_H_ECS_ECS_REF : (Reg.AEx_H_ECS_ECS_REF).row.width = 16 := rfl
@[simp] theorem Reg.width_AEx_H_ECS_KI : (Reg.AEx_H_ECS_KI).row.width = 8 := rfl
@[simp] theorem Reg.width_AEx_H_ECS_ECS_TD : (Reg.AEx_H_ECS_ECS_TD).row.width = 8 := rfl
@[simp] theorem Reg.width_AEx_H_CAPS_LEDG_SOFT : (Reg.AEx_H_CAPS_LEDG_SOFT).row.width = 16 := rfl
@[simp] theorem Reg.width_AEx_H_CAPS_LEDG_HARD : (Reg.AEx_H_CAPS_LEDG_HARD).row.width = 16 := rfl
@[simp] theorem Reg.width_AEx_H_LEDGER_NJ : (Reg.AEx_H_LEDGER_NJ).row.width = 32 := rfl
@[simp] theorem Reg.width_AEx_H_HSTAT_TEMP : (Reg.AEx_H_HSTAT_TEMP).row.width = 8 := rfl
@[simp] theorem Reg.width_AEx_H_HSTAT_HCORR : (Reg.AEx_H_HSTAT_HCORR).row.width = 10 := rfl
@[simp] theorem Reg.width_NUTx_CTRL_EN : (Reg.NUTx_CTRL_EN).row.width = 1 := rfl
@[simp] theorem Reg.width_NUTx_CTRL_BG_GO : (Reg.NUTx_CTRL_BG_GO).row.width = 1 := rfl
@[simp] theorem Reg.width_NUTx_BGCMD_WR : (Reg.NUTx_BGCMD_WR).row.width = 1 := rfl
@[simp] theorem Reg.width_NUTx_BGCMD_HEAD : (Reg.NUTx_BGCMD_HEAD).row.width = 3 := rfl
@[simp] theorem Reg.width_NUTx_BGCMD_ADDR : (Reg.NUTx_BGCMD_ADDR).row.width = 8 := rfl
@[simp] theorem Reg.width_NUTx_BGDATA_DATA : (Reg.NUTx_BGDATA_DATA).row.width = 32 := rfl
@[simp] theorem Reg.width_NUTx_BGRESP_DATA : (Reg.NUTx_BGRESP_DATA).row.width = 32 := rfl
@[simp] theorem Reg.width_NUTx_STAT_BG_BUSY : (Reg.NUTx_STAT_BG_BUSY).row.width = 1 := rfl
@[simp] theorem Reg.width_NUTx_STAT_BG_DONE : (Reg.NUTx_STAT_BG_DONE).row.width = 1 := rfl
@[simp] theorem Reg.width_NUTx_STAT_BG_ERR : (Reg.NUTx_STAT_BG_ERR).row.width = 1 := rfl
@[simp] theorem Reg.width_NUTx_STAT_WDOG : (Reg.NUTx_STAT_WDOG).row.width = 1 := rfl
@[simp] theorem Reg.width_NUTx_STAT_WFLT : (Reg.NUTx_STAT_WFLT).row.width = 1 := rfl
@[simp] theorem Reg.width_NUTx_STAT_CFG_LOCKED : (Reg.NUTx_STAT_CFG_LOCKED).row.width = 1 := rfl
@[simp] theorem Reg.width_NUTx_CNT_CRC_ERR : (Reg.NUTx_CNT_CRC_ERR).row.width = 16 := rfl
@[simp] theorem Reg.width_NUTx_CNT_NACK : (Reg.NUTx_CNT_NACK).row.width = 16 := rfl
@[simp] theorem Reg.width_RCHx_CTRL_AGC_EN : (Reg.RCHx_CTRL_AGC_EN).row.width = 1 := rfl
@[simp] theorem Reg.width_RCHx_CTRL_TIM_EN : (Reg.RCHx_CTRL_TIM_EN).row.width = 1 := rfl
@[simp] theorem Reg.width_RCHx_CTRL_FIR_EN : (Reg.RCHx_CTRL_FIR_EN).row.width = 1 := rfl
@[simp] theorem Reg.width_RCHx_CTRL_NP_EN : (Reg.RCHx_CTRL_NP_EN).row.width = 1 := rfl
@[simp] theorem Reg.width_RCHx_CTRL_DC_EN : (Reg.RCHx_CTRL_DC_EN).row.width = 1 := rfl
@[simp] theorem Reg.width_RCHx_CTRL_SAVE : (Reg.RCHx_CTRL_SAVE).row.width = 1 := rfl
@[simp] theorem Reg.width_RCHx_CTRL_RESTORE : (Reg.RCHx_CTRL_RESTORE).row.width = 1 := rfl
@[simp] theorem Reg.width_RCHx_CTRL_PDMODE : (Reg.RCHx_CTRL_PDMODE).row.width = 1 := rfl
@[simp] theorem Reg.width_RCHx_CTRL_GLB_MAX : (Reg.RCHx_CTRL_GLB_MAX).row.width = 3 := rfl
@[simp] theorem Reg.width_RCHx_CTRL_LOC_MAX : (Reg.RCHx_CTRL_LOC_MAX).row.width = 4 := rfl
@[simp] theorem Reg.width_RCHx_CTRL_SLOT_RSV : (Reg.RCHx_CTRL_SLOT_RSV).row.width = 3 := rfl
@[simp] theorem Reg.width_RCHx_CTRL_CAPTURE : (Reg.RCHx_CTRL_CAPTURE).row.width = 1 := rfl
@[simp] theorem Reg.width_RCHx_STAT_PLL_LOCK : (Reg.RCHx_STAT_PLL_LOCK).row.width = 1 := rfl
@[simp] theorem Reg.width_RCHx_STAT_EQ_DIV : (Reg.RCHx_STAT_EQ_DIV).row.width = 1 := rfl
@[simp] theorem Reg.width_RCHx_STAT_RATE_HI : (Reg.RCHx_STAT_RATE_HI).row.width = 1 := rfl
@[simp] theorem Reg.width_RCHx_STAT_RDR_LOW : (Reg.RCHx_STAT_RDR_LOW).row.width = 3 := rfl
@[simp] theorem Reg.width_RCHx_STAT_SBUF_SLIP : (Reg.RCHx_STAT_SBUF_SLIP).row.width = 1 := rfl
@[simp] theorem Reg.width_RCHx_STAT_ITER_LIM : (Reg.RCHx_STAT_ITER_LIM).row.width = 1 := rfl
@[simp] theorem Reg.width_RCHx_STAT_CFG_LOCKED : (Reg.RCHx_STAT_CFG_LOCKED).row.width = 1 := rfl
@[simp] theorem Reg.width_RCHx_STAT_SET_INV : (Reg.RCHx_STAT_SET_INV).row.width = 1 := rfl
@[simp] theorem Reg.width_RCHx_STAT_CAP_BUSY : (Reg.RCHx_STAT_CAP_BUSY).row.width = 1 := rfl
@[simp] theorem Reg.width_RCHx_STAT_SET : (Reg.RCHx_STAT_SET).row.width = 7 := rfl
@[simp] theorem Reg.width_RCHx_STAT_SLOTS_FREE : (Reg.RCHx_STAT_SLOTS_FREE).row.width = 4 := rfl
@[simp] theorem Reg.width_RCHx_STAT_PENDQ : (Reg.RCHx_STAT_PENDQ).row.width = 4 := rfl
@[simp] theorem Reg.width_RCHx_ADAPT_AGC_MU_A : (Reg.RCHx_ADAPT_AGC_MU_A).row.width = 4 := rfl
@[simp] theorem Reg.width_RCHx_ADAPT_AGC_MU_T : (Reg.RCHx_ADAPT_AGC_MU_T).row.width = 4 := rfl
@[simp] theorem Reg.width_RCHx_ADAPT_TIM_KA : (Reg.RCHx_ADAPT_TIM_KA).row.width = 4 := rfl
@[simp] theorem Reg.width_RCHx_ADAPT_TIM_KT : (Reg.RCHx_ADAPT_TIM_KT).row.width = 4 := rfl
@[simp] theorem Reg.width_RCHx_ADAPT_FIR_MU : (Reg.RCHx_ADAPT_FIR_MU).row.width = 4 := rfl
@[simp] theorem Reg.width_RCHx_ADAPT_NP_MU : (Reg.RCHx_ADAPT_NP_MU).row.width = 4 := rfl
@[simp] theorem Reg.width_RCHx_DIV_MSE_DIV : (Reg.RCHx_DIV_MSE_DIV).row.width = 12 := rfl
@[simp] theorem Reg.width_RCHx_DIV_DIV_N : (Reg.RCHx_DIV_DIV_N).row.width = 4 := rfl
@[simp] theorem Reg.width_RCHx_PD_PD_TH : (Reg.RCHx_PD_PD_TH).row.width = 6 := rfl
@[simp] theorem Reg.width_RCHx_PD_PD_ALT : (Reg.RCHx_PD_PD_ALT).row.width = 1 := rfl
@[simp] theorem Reg.width_RCHx_RATE_BITRATE : (Reg.RCHx_RATE_BITRATE).row.width = 13 := rfl
@[simp] theorem Reg.width_RCHx_MSE_LAST : (Reg.RCHx_MSE_LAST).row.width = 12 := rfl
@[simp] theorem Reg.width_RCHx_SHADOW_CTRL : (Reg.RCHx_SHADOW_CTRL).row.width = 19 := rfl
@[simp] theorem Reg.width_RCHx_CNT0_SECTORS : (Reg.RCHx_CNT0_SECTORS).row.width = 32 := rfl
@[simp] theorem Reg.width_RCHx_CNT1_REDET : (Reg.RCHx_CNT1_REDET).row.width = 16 := rfl
@[simp] theorem Reg.width_RCHx_CNT1_ITER_LIM : (Reg.RCHx_CNT1_ITER_LIM).row.width = 16 := rfl
@[simp] theorem Reg.width_RCHx_CNT2_SBUF_SLIP : (Reg.RCHx_CNT2_SBUF_SLIP).row.width = 16 := rfl
@[simp] theorem Reg.width_RCHx_CNT2_PD_POL : (Reg.RCHx_CNT2_PD_POL).row.width = 16 := rfl
@[simp] theorem Reg.width_RCHx_AMP_A0 : (Reg.RCHx_AMP_A0).row.width = 8 := rfl
@[simp] theorem Reg.width_RCHx_AMP_A1 : (Reg.RCHx_AMP_A1).row.width = 8 := rfl
@[simp] theorem Reg.width_RCHx_AMP_A2 : (Reg.RCHx_AMP_A2).row.width = 8 := rfl
@[simp] theorem Reg.width_RCHx_GAIN_G0 : (Reg.RCHx_GAIN_G0).row.width = 8 := rfl
@[simp] theorem Reg.width_RCHx_GAIN_G1 : (Reg.RCHx_GAIN_G1).row.width = 8 := rfl
@[simp] theorem Reg.width_RCHx_GAIN_G2 : (Reg.RCHx_GAIN_G2).row.width = 8 := rfl
@[simp] theorem Reg.width_RCHx_SLOT_BUSY : (Reg.RCHx_SLOT_BUSY).row.width = 10 := rfl
@[simp] theorem Reg.width_RCHx_SRVGA_H0 : (Reg.RCHx_SRVGA_H0).row.width = 8 := rfl
@[simp] theorem Reg.width_RCHx_SRVGA_H1 : (Reg.RCHx_SRVGA_H1).row.width = 8 := rfl
@[simp] theorem Reg.width_RCHx_SRVGA_H2 : (Reg.RCHx_SRVGA_H2).row.width = 8 := rfl
@[simp] theorem Reg.width_RCHx_SRVGA_H3 : (Reg.RCHx_SRVGA_H3).row.width = 8 := rfl
@[simp] theorem Reg.width_RCHx_SRVGB_H4 : (Reg.RCHx_SRVGB_H4).row.width = 8 := rfl
@[simp] theorem Reg.width_RCHx_SRVGB_H5 : (Reg.RCHx_SRVGB_H5).row.width = 8 := rfl
@[simp] theorem Reg.width_RCHx_CAPCTL_CAP_GO : (Reg.RCHx_CAPCTL_CAP_GO).row.width = 1 := rfl
@[simp] theorem Reg.width_RCHx_CAPCTL_CAP_MASK : (Reg.RCHx_CAPCTL_CAP_MASK).row.width = 3 := rfl
@[simp] theorem Reg.width_RCHx_CAPCTL_CAP_LEN : (Reg.RCHx_CAPCTL_CAP_LEN).row.width = 10 := rfl
@[simp] theorem Reg.width_RCHx_CAPRATE_CAP_RATE : (Reg.RCHx_CAPRATE_CAP_RATE).row.width = 13 := rfl
@[simp] theorem Reg.width_RCHx_FIR_TAP : (Reg.RCHx_FIR_TAP).row.width = 10 := rfl
@[simp] theorem Reg.width_RCHx_NP_NP : (Reg.RCHx_NP_NP).row.width = 32 := rfl
@[simp] theorem Reg.width_RCHx_SET_SET : (Reg.RCHx_SET_SET).row.width = 32 := rfl
@[simp] theorem Reg.width_HARP_CTRL_SLIP_EN : (Reg.HARP_CTRL_SLIP_EN).row.width = 1 := rfl
@[simp] theorem Reg.width_HARP_CTRL_SLIP_MAX : (Reg.HARP_CTRL_SLIP_MAX).row.width = 3 := rfl
@[simp] theorem Reg.width_HARP_CTRL_SLIP_ORD : (Reg.HARP_CTRL_SLIP_ORD).row.width = 2 := rfl
@[simp] theorem Reg.width_HARP_CTRL_SLIP_GLB : (Reg.HARP_CTRL_SLIP_GLB).row.width = 2 := rfl
@[simp] theorem Reg.width_HARP_CTRL_RETIRE : (Reg.HARP_CTRL_RETIRE).row.width = 1 := rfl
@[simp] theorem Reg.width_HARP_CTRL_UNRETIRE : (Reg.HARP_CTRL_UNRETIRE).row.width = 1 := rfl
@[simp] theorem Reg.width_HARP_CTRL_RLANE : (Reg.HARP_CTRL_RLANE).row.width = 5 := rfl
@[simp] theorem Reg.width_HARP_CTRL_BF_MAX : (Reg.HARP_CTRL_BF_MAX).row.width = 7 := rfl
@[simp] theorem Reg.width_HARP_STAT_INSVC : (Reg.HARP_STAT_INSVC).row.width = 6 := rfl
@[simp] theorem Reg.width_HARP_STAT_AVAIL : (Reg.HARP_STAT_AVAIL).row.width = 6 := rfl
@[simp] theorem Reg.width_HARP_STAT_BELOW_FLOOR : (Reg.HARP_STAT_BELOW_FLOOR).row.width = 1 := rfl
@[simp] theorem Reg.width_HARP_STAT_LANE_RETIRED : (Reg.HARP_STAT_LANE_RETIRED).row.width = 1 := rfl
@[simp] theorem Reg.width_HARP_STAT_STRIKE : (Reg.HARP_STAT_STRIKE).row.width = 1 := rfl
@[simp] theorem Reg.width_HARP_STAT_CHK_FAULT : (Reg.HARP_STAT_CHK_FAULT).row.width = 1 := rfl
@[simp] theorem Reg.width_HARP_STAT_OVF : (Reg.HARP_STAT_OVF).row.width = 1 := rfl
@[simp] theorem Reg.width_HARP_STAT_CFG_LOCKED : (Reg.HARP_STAT_CFG_LOCKED).row.width = 1 := rfl
@[simp] theorem Reg.width_HARP_STAT_LBA_MISMATCH : (Reg.HARP_STAT_LBA_MISMATCH).row.width = 1 := rfl
@[simp] theorem Reg.width_HARP_STAT_CHK_RET : (Reg.HARP_STAT_CHK_RET).row.width = 8 := rfl
@[simp] theorem Reg.width_HARP_RETIRED_LANES : (Reg.HARP_RETIRED_LANES).row.width = 32 := rfl
@[simp] theorem Reg.width_HARP_WDRAWN_LANES : (Reg.HARP_WDRAWN_LANES).row.width = 32 := rfl
@[simp] theorem Reg.width_HARP_GATED_LANES : (Reg.HARP_GATED_LANES).row.width = 32 := rfl
@[simp] theorem Reg.width_HARP_STRIKE0_COUNT : (Reg.HARP_STRIKE0_COUNT).row.width = 32 := rfl
@[simp] theorem Reg.width_HARP_STRIKE1_COUNT : (Reg.HARP_STRIKE1_COUNT).row.width = 32 := rfl
@[simp] theorem Reg.width_HARP_CNT0_CONFIRMED : (Reg.HARP_CNT0_CONFIRMED).row.width = 32 := rfl
@[simp] theorem Reg.width_HARP_CNT1_STRIKES : (Reg.HARP_CNT1_STRIKES).row.width = 16 := rfl
@[simp] theorem Reg.width_HARP_CNT1_RESTARTS : (Reg.HARP_CNT1_RESTARTS).row.width = 16 := rfl
@[simp] theorem Reg.width_HARP_CNT2_SLIP_OK : (Reg.HARP_CNT2_SLIP_OK).row.width = 16 := rfl
@[simp] theorem Reg.width_HARP_CNT2_SLIP_FAIL : (Reg.HARP_CNT2_SLIP_FAIL).row.width = 16 := rfl
@[simp] theorem Reg.width_HARP_CNT3_OVF : (Reg.HARP_CNT3_OVF).row.width = 16 := rfl
@[simp] theorem Reg.width_HARP_CNT3_MISCLAIM : (Reg.HARP_CNT3_MISCLAIM).row.width = 16 := rfl
@[simp] theorem Reg.width_HARP_SLIPHIST_P1 : (Reg.HARP_SLIPHIST_P1).row.width = 8 := rfl
@[simp] theorem Reg.width_HARP_SLIPHIST_P2 : (Reg.HARP_SLIPHIST_P2).row.width = 8 := rfl
@[simp] theorem Reg.width_HARP_SLIPHIST_P3 : (Reg.HARP_SLIPHIST_P3).row.width = 8 := rfl
@[simp] theorem Reg.width_HARP_SLIPHIST_P4 : (Reg.HARP_SLIPHIST_P4).row.width = 8 := rfl
@[simp] theorem Reg.width_HARP_SLIPHIST_N1 : (Reg.HARP_SLIPHIST_N1).row.width = 8 := rfl
@[simp] theorem Reg.width_HARP_SLIPHIST_N2 : (Reg.HARP_SLIPHIST_N2).row.width = 8 := rfl
@[simp] theorem Reg.width_HARP_SLIPHIST_N3 : (Reg.HARP_SLIPHIST_N3).row.width = 8 := rfl
@[simp] theorem Reg.width_HARP_SLIPHIST_N4 : (Reg.HARP_SLIPHIST_N4).row.width = 8 := rfl
@[simp] theorem Reg.width_HARP_LOG_LANE : (Reg.HARP_LOG_LANE).row.width = 5 := rfl
@[simp] theorem Reg.width_HARP_LOG_CAUSE : (Reg.HARP_LOG_CAUSE).row.width = 3 := rfl
@[simp] theorem Reg.width_HARP_LOGTIME_TIME : (Reg.HARP_LOGTIME_TIME).row.width = 32 := rfl
@[simp] theorem Reg.width_HARP_SHADOW_CTRL : (Reg.HARP_SHADOW_CTRL).row.width = 22 := rfl
@[simp] theorem Reg.width_HARP_HBASE_ENTRY : (Reg.HARP_HBASE_ENTRY).row.width = 32 := rfl
@[simp] theorem Reg.width_SFMx_SYNC0_SYNC_LO : (Reg.SFMx_SYNC0_SYNC_LO).row.width = 32 := rfl
@[simp] theorem Reg.width_SFMx_SYNC1_SYNC_HI : (Reg.SFMx_SYNC1_SYNC_HI).row.width = 16 := rfl
@[simp] theorem Reg.width_SFMx_SYNC1_SYNC_TOL : (Reg.SFMx_SYNC1_SYNC_TOL).row.width = 3 := rfl
@[simp] theorem Reg.width_SFMx_SYNC1_SYNC_WIN : (Reg.SFMx_SYNC1_SYNC_WIN).row.width = 8 := rfl
@[simp] theorem Reg.width_SFMx_FSYNC_FSYNC_PAT : (Reg.SFMx_FSYNC_FSYNC_PAT).row.width = 16 := rfl
@[simp] theorem Reg.width_SFMx_FSYNC_FSYNC_TOL : (Reg.SFMx_FSYNC_FSYNC_TOL).row.width = 3 := rfl
@[simp] theorem Reg.width_SFMx_FSYNC_FSYNC_WIN : (Reg.SFMx_FSYNC_FSYNC_WIN).row.width = 5 := rfl
@[simp] theorem Reg.width_SFMx_STAT_SYNC_MISS : (Reg.SFMx_STAT_SYNC_MISS).row.width = 1 := rfl
@[simp] theorem Reg.width_SFMx_STAT_FSYNC_MISS : (Reg.SFMx_STAT_FSYNC_MISS).row.width = 1 := rfl
@[simp] theorem Reg.width_SFMx_STAT_SYNC_ALT : (Reg.SFMx_STAT_SYNC_ALT).row.width = 1 := rfl
@[simp] theorem Reg.width_SFMx_STAT_SECT_PRED : (Reg.SFMx_STAT_SECT_PRED).row.width = 1 := rfl
@[simp] theorem Reg.width_SFMx_STAT_CFG_LOCKED : (Reg.SFMx_STAT_CFG_LOCKED).row.width = 1 := rfl
@[simp] theorem Reg.width_SFMx_LAST_OFFS : (Reg.SFMx_LAST_OFFS).row.width = 8 := rfl
@[simp] theorem Reg.width_SFMx_LAST_MISM : (Reg.SFMx_LAST_MISM).row.width = 3 := rfl
@[simp] theorem Reg.width_SFMx_CNT_SYNC_MISS : (Reg.SFMx_CNT_SYNC_MISS).row.width = 16 := rfl
@[simp] theorem Reg.width_SFMx_CNT_SECT_PRED : (Reg.SFMx_CNT_SECT_PRED).row.width = 16 := rfl
@[simp] theorem Reg.width_WRPx_CTRL_EN : (Reg.WRPx_CTRL_EN).row.width = 1 := rfl
@[simp] theorem Reg.width_WRPx_CTRL_PAR_EN : (Reg.WRPx_CTRL_PAR_EN).row.width = 1 := rfl
@[simp] theorem Reg.width_WRPx_CTRL_ACC_CLR : (Reg.WRPx_CTRL_ACC_CLR).row.width = 1 := rfl
@[simp] theorem Reg.width_WRPx_CFG_FSTART : (Reg.WRPx_CFG_FSTART).row.width = 9 := rfl
@[simp] theorem Reg.width_WRPx_CFG_SGAP : (Reg.WRPx_CFG_SGAP).row.width = 7 := rfl
@[simp] theorem Reg.width_WRPx_CFG_PREFILL : (Reg.WRPx_CFG_PREFILL).row.width = 7 := rfl
@[simp] theorem Reg.width_WRPx_STAT_GATE : (Reg.WRPx_STAT_GATE).row.width = 1 := rfl
@[simp] theorem Reg.width_WRPx_STAT_RUN : (Reg.WRPx_STAT_RUN).row.width = 1 := rfl
@[simp] theorem Reg.width_WRPx_STAT_RATE_HI : (Reg.WRPx_STAT_RATE_HI).row.width = 1 := rfl
@[simp] theorem Reg.width_WRPx_STAT_CUT : (Reg.WRPx_STAT_CUT).row.width = 1 := rfl
@[simp] theorem Reg.width_WRPx_STAT_UNDERRUN : (Reg.WRPx_STAT_UNDERRUN).row.width = 1 := rfl
@[simp] theorem Reg.width_WRPx_STAT_ENC_FAULT : (Reg.WRPx_STAT_ENC_FAULT).row.width = 1 := rfl
@[simp] theorem Reg.width_WRPx_STAT_CFG_LOCKED : (Reg.WRPx_STAT_CFG_LOCKED).row.width = 1 := rfl
@[simp] theorem Reg.width_WRPx_STAT_FIFO : (Reg.WRPx_STAT_FIFO).row.width = 2 := rfl
@[simp] theorem Reg.width_WRPx_STAT_ACC_N : (Reg.WRPx_STAT_ACC_N).row.width = 7 := rfl
@[simp] theorem Reg.width_WRPx_CNT0_SECTORS : (Reg.WRPx_CNT0_SECTORS).row.width = 32 := rfl
@[simp] theorem Reg.width_WRPx_CNT1_CUT : (Reg.WRPx_CNT1_CUT).row.width = 16 := rfl
@[simp] theorem Reg.width_WRPx_CNT1_UNDERRUN : (Reg.WRPx_CNT1_UNDERRUN).row.width = 16 := rfl
@[simp] theorem Reg.width_WRPx_CNT2_ENC_RETRY : (Reg.WRPx_CNT2_ENC_RETRY).row.width = 16 := rfl
@[simp] theorem Reg.width_WRPx_CNT2_SQZ : (Reg.WRPx_CNT2_SQZ).row.width = 16 := rfl
@[simp] theorem Reg.width_WRPx_SHADOW_PAR_EN : (Reg.WRPx_SHADOW_PAR_EN).row.width = 1 := rfl
@[simp] theorem Reg.width_WRPx_PREC_PRE1 : (Reg.WRPx_PREC_PRE1).row.width = 5 := rfl
@[simp] theorem Reg.width_WRPx_PREC_PRE2 : (Reg.WRPx_PREC_PRE2).row.width = 5 := rfl
@[simp] theorem Reg.width_WRPx_ACC_DATA : (Reg.WRPx_ACC_DATA).row.width = 32 := rfl
@[simp] theorem Reg.width_RLDx_CFG_RETRY_N : (Reg.RLDx_CFG_RETRY_N).row.width = 3 := rfl
@[simp] theorem Reg.width_RLDx_CFG_OFF_STEP : (Reg.RLDx_CFG_OFF_STEP).row.width = 8 := rfl
@[simp] theorem Reg.width_RLDx_CFG_REALLOC_RUNG : (Reg.RLDx_CFG_REALLOC_RUNG).row.width = 4 := rfl
@[simp] theorem Reg.width_RLDx_CFG_STREAM_RUNG : (Reg.RLDx_CFG_STREAM_RUNG).row.width = 4 := rfl
@[simp] theorem Reg.width_RLDx_CFG_EXT_GLB : (Reg.RLDx_CFG_EXT_GLB).row.width = 4 := rfl
@[simp] theorem Reg.width_RLDx_CFG_EXT_ALT : (Reg.RLDx_CFG_EXT_ALT).row.width = 4 := rfl
@[simp] theorem Reg.width_RLDx_CFG_PAR_REV : (Reg.RLDx_CFG_PAR_REV).row.width = 2 := rfl
@[simp] theorem Reg.width_RLDx_EN_RUNG_EN : (Reg.RLDx_EN_RUNG_EN).row.width = 8 := rfl
@[simp] theorem Reg.width_RLDx_STAT_ACTIVE : (Reg.RLDx_STAT_ACTIVE).row.width = 4 := rfl
@[simp] theorem Reg.width_RLDx_STAT_WAITQ : (Reg.RLDx_STAT_WAITQ).row.width = 1 := rfl
@[simp] theorem Reg.width_RLDx_STAT_SPARE_LOW : (Reg.RLDx_STAT_SPARE_LOW).row.width = 1 := rfl
@[simp] theorem Reg.width_RLDx_STAT_TLER_CUT : (Reg.RLDx_STAT_TLER_CUT).row.width = 1 := rfl
@[simp] theorem Reg.width_RLDx_CNT0_RUNG1 : (Reg.RLDx_CNT0_RUNG1).row.width = 16 := rfl
@[simp] theorem Reg.width_RLDx_CNT0_RUNG2 : (Reg.RLDx_CNT0_RUNG2).row.width = 16 := rfl
@[simp] theorem Reg.width_RLDx_CNT1_RUNG3 : (Reg.RLDx_CNT1_RUNG3).row.width = 16 := rfl
@[simp] theorem Reg.width_RLDx_CNT1_RUNG4 : (Reg.RLDx_CNT1_RUNG4).row.width = 16 := rfl
@[simp] theorem Reg.width_RLDx_CNT2_RUNG5 : (Reg.RLDx_CNT2_RUNG5).row.width = 16 := rfl
@[simp] theorem Reg.width_RLDx_CNT2_RUNG6 : (Reg.RLDx_CNT2_RUNG6).row.width = 16 := rfl
@[simp] theorem Reg.width_RLDx_CNT3_RUNG7 : (Reg.RLDx_CNT3_RUNG7).row.width = 16 := rfl
@[simp] theorem Reg.width_RLDx_CNT3_RUNG8 : (Reg.RLDx_CNT3_RUNG8).row.width = 16 := rfl
@[simp] theorem Reg.width_RLDx_CNT4_FAIL : (Reg.RLDx_CNT4_FAIL).row.width = 16 := rfl
@[simp] theorem Reg.width_RLDx_CNT4_REALLOC : (Reg.RLDx_CNT4_REALLOC).row.width = 16 := rfl
@[simp] theorem Reg.width_RLDx_SHADOW_CFG : (Reg.RLDx_SHADOW_CFG).row.width = 29 := rfl
@[simp] theorem Reg.width_RLDx_SHADOW1_EN : (Reg.RLDx_SHADOW1_EN).row.width = 8 := rfl
@[simp] theorem Reg.width_RLDx_LAST_RUNG : (Reg.RLDx_LAST_RUNG).row.width = 4 := rfl
@[simp] theorem Reg.width_RLDx_LASTLBA0_LBA_LO : (Reg.RLDx_LASTLBA0_LBA_LO).row.width = 32 := rfl
@[simp] theorem Reg.width_RLDx_LASTLBA1_LBA_HI : (Reg.RLDx_LASTLBA1_LBA_HI).row.width = 16 := rfl
@[simp] theorem Reg.width_HQEn_CTRL_FN_EN : (Reg.HQEn_CTRL_FN_EN).row.width = 1 := rfl
@[simp] theorem Reg.width_HQEn_CTRL_FORCE_RST : (Reg.HQEn_CTRL_FORCE_RST).row.width = 1 := rfl
@[simp] theorem Reg.width_HQEn_CFG_MDTS : (Reg.HQEn_CFG_MDTS).row.width = 4 := rfl
@[simp] theorem Reg.width_HQEn_CFG_ZASL : (Reg.HQEn_CFG_ZASL).row.width = 4 := rfl
@[simp] theorem Reg.width_HQEn_CFG_NIOQ : (Reg.HQEn_CFG_NIOQ).row.width = 7 := rfl
@[simp] theorem Reg.width_HQEn_CFG_SGL_EN : (Reg.HQEn_CFG_SGL_EN).row.width = 1 := rfl
@[simp] theorem Reg.width_HQEn_STAT_EN : (Reg.HQEn_STAT_EN).row.width = 1 := rfl
@[simp] theorem Reg.width_HQEn_STAT_RDY : (Reg.HQEn_STAT_RDY).row.width = 1 := rfl
@[simp] theorem Reg.width_HQEn_STAT_CFS : (Reg.HQEn_STAT_CFS).row.width = 1 := rfl
@[simp] theorem Reg.width_HQEn_STAT_SHST : (Reg.HQEn_STAT_SHST).row.width = 2 := rfl
@[simp] theorem Reg.width_HQEn_STAT_LINK : (Reg.HQEn_STAT_LINK).row.width = 1 := rfl
@[simp] theorem Reg.width_HQEn_STAT_CFG_LOCKED : (Reg.HQEn_STAT_CFG_LOCKED).row.width = 1 := rfl
@[simp] theorem Reg.width_HQEn_STAT_RST_DONE : (Reg.HQEn_STAT_RST_DONE).row.width = 1 := rfl
@[simp] theorem Reg.width_HQEn_STAT_IOQ : (Reg.HQEn_STAT_IOQ).row.width = 7 := rfl
@[simp] theorem Reg.width_HQEn_OUT_OUTST : (Reg.HQEn_OUT_OUTST).row.width = 14 := rfl
@[simp] theorem Reg.width_HQEn_CNT0_FETCHED : (Reg.HQEn_CNT0_FETCHED).row.width = 32 := rfl
@[simp] theorem Reg.width_HQEn_CNT1_RESV_CONF : (Reg.HQEn_CNT1_RESV_CONF).row.width = 16 := rfl
@[simp] theorem Reg.width_HQEn_CNT1_PI_ERR : (Reg.HQEn_CNT1_PI_ERR).row.width = 16 := rfl
@[simp] theorem Reg.width_HQEn_CNT2_NOT_READY : (Reg.HQEn_CNT2_NOT_READY).row.width = 16 := rfl
@[simp] theorem Reg.width_HQEn_STRM_Q_SQID : (Reg.HQEn_STRM_Q_SQID).row.width = 16 := rfl
@[simp] theorem Reg.width_HQEn_STRM_Q_ARMED : (Reg.HQEn_STRM_Q_ARMED).row.width = 1 := rfl
@[simp] theorem Reg.width_HQEn_STRM_Q_DIR : (Reg.HQEn_STRM_Q_DIR).row.width = 1 := rfl
@[simp] theorem Reg.width_HQEn_STRM_Q_SMASK : (Reg.HQEn_STRM_Q_SMASK).row.width = 4 := rfl
@[simp] theorem Reg.width_HQEn_STRM_Q_DLF : (Reg.HQEn_STRM_Q_DLF).row.width = 8 := rfl
@[simp] theorem Reg.width_HQEn_STRM_BPF_BPF : (Reg.HQEn_STRM_BPF_BPF).row.width = 24 := rfl
@[simp] theorem Reg.width_HQEn_STRM_AORD_AORD : (Reg.HQEn_STRM_AORD_AORD).row.width = 32 := rfl
@[simp] theorem Reg.width_HQEn_STRM_CNT_MISS : (Reg.HQEn_STRM_CNT_MISS).row.width = 16 := rfl
@[simp] theorem Reg.width_HQEn_STRM_CNT_SUSP : (Reg.HQEn_STRM_CNT_SUSP).row.width = 16 := rfl
@[simp] theorem Reg.width_PCIE_CFG_DUAL : (Reg.PCIE_CFG_DUAL).row.width = 1 := rfl
@[simp] theorem Reg.width_PCIE_CFG_FN_CNT0 : (Reg.PCIE_CFG_FN_CNT0).row.width = 4 := rfl
@[simp] theorem Reg.width_PCIE_CFG_FN_CNT1 : (Reg.PCIE_CFG_FN_CNT1).row.width = 3 := rfl
@[simp] theorem Reg.width_PCIE_CFG_CLK0 : (Reg.PCIE_CFG_CLK0).row.width = 2 := rfl
@[simp] theorem Reg.width_PCIE_CFG_CLK1 : (Reg.PCIE_CFG_CLK1).row.width = 2 := rfl
@[simp] theorem Reg.width_PCIE_CFG_MAXSPD0 : (Reg.PCIE_CFG_MAXSPD0).row.width = 3 := rfl
@[simp] theorem Reg.width_PCIE_CFG_MAXSPD1 : (Reg.PCIE_CFG_MAXSPD1).row.width = 3 := rfl
@[simp] theorem Reg.width_PCIE_STAT_UP0 : (Reg.PCIE_STAT_UP0).row.width = 1 := rfl
@[simp] theorem Reg.width_PCIE_STAT_UP1 : (Reg.PCIE_STAT_UP1).row.width = 1 := rfl
@[simp] theorem Reg.width_PCIE_STAT_SPD0 : (Reg.PCIE_STAT_SPD0).row.width = 3 := rfl
@[simp] theorem Reg.width_PCIE_STAT_SPD1 : (Reg.PCIE_STAT_SPD1).row.width = 3 := rfl
@[simp] theorem Reg.width_PCIE_STAT_WID0 : (Reg.PCIE_STAT_WID0).row.width = 3 := rfl
@[simp] theorem Reg.width_PCIE_STAT_WID1 : (Reg.PCIE_STAT_WID1).row.width = 3 := rfl
@[simp] theorem Reg.width_PCIE_STAT_CFG_LOCKED : (Reg.PCIE_STAT_CFG_LOCKED).row.width = 1 := rfl
@[simp] theorem Reg.width_PCIE_STAT_DLDN0 : (Reg.PCIE_STAT_DLDN0).row.width = 1 := rfl
@[simp] theorem Reg.width_PCIE_STAT_DLDN1 : (Reg.PCIE_STAT_DLDN1).row.width = 1 := rfl
@[simp] theorem Reg.width_PCIE_CNT_CORR0 : (Reg.PCIE_CNT_CORR0).row.width = 16 := rfl
@[simp] theorem Reg.width_PCIE_CNT_CORR1 : (Reg.PCIE_CNT_CORR1).row.width = 16 := rfl
@[simp] theorem Reg.width_PCIE_MI_MI_ADDR : (Reg.PCIE_MI_MI_ADDR).row.width = 7 := rfl
@[simp] theorem Reg.width_STRM_CFG_FRAC : (Reg.STRM_CFG_FRAC).row.width = 7 := rfl
@[simp] theorem Reg.width_STRM_CFG_SW_FRETS : (Reg.STRM_CFG_SW_FRETS).row.width = 11 := rfl
@[simp] theorem Reg.width_STRM_STAT_ARMED : (Reg.STRM_STAT_ARMED).row.width = 5 := rfl
@[simp] theorem Reg.width_STRM_STAT_FROZEN : (Reg.STRM_STAT_FROZEN).row.width = 1 := rfl
@[simp] theorem Reg.width_STRM_STAT_WDRN : (Reg.STRM_STAT_WDRN).row.width = 1 := rfl
@[simp] theorem Reg.width_STRM_STAT_MISS : (Reg.STRM_STAT_MISS).row.width = 1 := rfl
@[simp] theorem Reg.width_STRM_STAT_REFUSED : (Reg.STRM_STAT_REFUSED).row.width = 1 := rfl
@[simp] theorem Reg.width_STRM_HARP_REQ : (Reg.STRM_HARP_REQ).row.width = 10 := rfl
@[simp] theorem Reg.width_STRM_HARP_CAP : (Reg.STRM_HARP_CAP).row.width = 10 := rfl
@[simp] theorem Reg.width_STRM_MED_USED : (Reg.STRM_MED_USED).row.width = 20 := rfl
@[simp] theorem Reg.width_STRM_MED_STREAMS : (Reg.STRM_MED_STREAMS).row.width = 4 := rfl
@[simp] theorem Reg.width_STRM_AVL_AVAIL : (Reg.STRM_AVL_AVAIL).row.width = 20 := rfl
@[simp] theorem Reg.width_STRM_CNT0_MISS : (Reg.STRM_CNT0_MISS).row.width = 16 := rfl
@[simp] theorem Reg.width_STRM_CNT0_SUSP : (Reg.STRM_CNT0_SUSP).row.width = 16 := rfl
@[simp] theorem Reg.width_STRM_CNT1_WDRN : (Reg.STRM_CNT1_WDRN).row.width = 16 := rfl
@[simp] theorem Reg.width_STRM_CNT1_REFUSED : (Reg.STRM_CNT1_REFUSED).row.width = 16 := rfl
@[simp] theorem Reg.width_BRG_CTRL_GO : (Reg.BRG_CTRL_GO).row.width = 1 := rfl
@[simp] theorem Reg.width_BRG_CTRL_SPILL_EN : (Reg.BRG_CTRL_SPILL_EN).row.width = 1 := rfl
@[simp] theorem Reg.width_BRG_CFG0_WSPLIT : (Reg.BRG_CFG0_WSPLIT).row.width = 5 := rfl
@[simp] theorem Reg.width_BRG_CFG0_WMIN : (Reg.BRG_CFG0_WMIN).row.width = 9 := rfl
@[simp] theorem Reg.width_BRG_CFG0_WMAX : (Reg.BRG_CFG0_WMAX).row.width = 10 := rfl
@[simp] theorem Reg.width_BRG_CFG1_RMIN : (Reg.BRG_CFG1_RMIN).row.width = 11 := rfl
@[simp] theorem Reg.width_BRG_CFG1_RMAX : (Reg.BRG_CFG1_RMAX).row.width = 11 := rfl
@[simp] theorem Reg.width_BRG_CFG2_STRM_MAX : (Reg.BRG_CFG2_STRM_MAX).row.width = 12 := rfl
@[simp] theorem Reg.width_BRG_CFG2_SPILL_US : (Reg.BRG_CFG2_SPILL_US).row.width = 10 := rfl
@[simp] theorem Reg.width_BRG_STAT_CFG_LOCKED : (Reg.BRG_STAT_CFG_LOCKED).row.width = 1 := rfl
@[simp] theorem Reg.width_BRG_STAT_DESC_WAIT : (Reg.BRG_STAT_DESC_WAIT).row.width = 1 := rfl
@[simp] theorem Reg.width_BRG_STAT_VSTORE_WAIT : (Reg.BRG_STAT_VSTORE_WAIT).row.width = 1 := rfl
@[simp] theorem Reg.width_BRG_STAT_RSLIP : (Reg.BRG_STAT_RSLIP).row.width = 1 := rfl
@[simp] theorem Reg.width_BRG_STAT_SPILLED : (Reg.BRG_STAT_SPILLED).row.width = 1 := rfl
@[simp] theorem Reg.width_BRG_STAT_MAP_RSV : (Reg.BRG_STAT_MAP_RSV).row.width = 1 := rfl
@[simp] theorem Reg.width_BRG_VSTORE_FREE : (Reg.BRG_VSTORE_FREE).row.width = 21 := rfl
@[simp] theorem Reg.width_BRG_DESC_FREE : (Reg.BRG_DESC_FREE).row.width = 15 := rfl
@[simp] theorem Reg.width_BRG_STRM_RSV : (Reg.BRG_STRM_RSV).row.width = 12 := rfl
@[simp] theorem Reg.width_BRG_USE_CELLS : (Reg.BRG_USE_CELLS).row.width = 10 := rfl
@[simp] theorem Reg.width_BRG_USE_PAGES : (Reg.BRG_USE_PAGES).row.width = 11 := rfl
@[simp] theorem Reg.width_BRG_RSLIP_COUNT : (Reg.BRG_RSLIP_COUNT).row.width = 32 := rfl
@[simp] theorem Reg.width_CHST_CTRL_WB_EN : (Reg.CHST_CTRL_WB_EN).row.width = 1 := rfl
@[simp] theorem Reg.width_CHST_CTRL_CHB_MAXBLK : (Reg.CHST_CTRL_CHB_MAXBLK).row.width = 4 := rfl
@[simp] theorem Reg.width_CHST_GOV_GOV_RATE : (Reg.CHST_GOV_GOV_RATE).row.width = 8 := rfl
@[simp] theorem Reg.width_CHST_GOV_GOV_BURST : (Reg.CHST_GOV_GOV_BURST).row.width = 8 := rfl
@[simp] theorem Reg.width_CHST_GOV_GOV_GRATE : (Reg.CHST_GOV_GOV_GRATE).row.width = 8 := rfl
@[simp] theorem Reg.width_CHST_GOV_GOV_GBURST : (Reg.CHST_GOV_GOV_GBURST).row.width = 8 := rfl
@[simp] theorem Reg.width_CHST_STAT_GOV_ACT : (Reg.CHST_STAT_GOV_ACT).row.width = 1 := rfl
@[simp] theorem Reg.width_CHST_STAT_INELIG : (Reg.CHST_STAT_INELIG).row.width = 1 := rfl
@[simp] theorem Reg.width_CHST_STAT_JRNL_WAIT : (Reg.CHST_STAT_JRNL_WAIT).row.width = 1 := rfl
@[simp] theorem Reg.width_CHST_STAT_LIFE_WARN : (Reg.CHST_STAT_LIFE_WARN).row.width = 1 := rfl
@[simp] theorem Reg.width_CHST_STAT_LIFE_END : (Reg.CHST_STAT_LIFE_END).row.width = 1 := rfl
@[simp] theorem Reg.width_CHST_TOKENS_GLOBAL : (Reg.CHST_TOKENS_GLOBAL).row.width = 24 := rfl
@[simp] theorem Reg.width_CHST_WB_ENTRIES : (Reg.CHST_WB_ENTRIES).row.width = 11 := rfl
@[simp] theorem Reg.width_CHST_WB_FREE : (Reg.CHST_WB_FREE).row.width = 13 := rfl
@[simp] theorem Reg.width_CHST_JRNL_LIVE : (Reg.CHST_JRNL_LIVE).row.width = 15 := rfl
@[simp] theorem Reg.width_CHST_LIFE_LIFE : (Reg.CHST_LIFE_LIFE).row.width = 14 := rfl
@[simp] theorem Reg.width_CHST_LIFE_GROUP : (Reg.CHST_LIFE_GROUP).row.width = 6 := rfl
@[simp] theorem Reg.width_CHST_TOTLO_ROWS : (Reg.CHST_TOTLO_ROWS).row.width = 32 := rfl
@[simp] theorem Reg.width_CHST_TOTHI_ROWS : (Reg.CHST_TOTHI_ROWS).row.width = 32 := rfl
@[simp] theorem Reg.width_CHST_GWRLO_G : (Reg.CHST_GWRLO_G).row.width = 32 := rfl
@[simp] theorem Reg.width_CHST_GWRHI_G : (Reg.CHST_GWRHI_G).row.width = 16 := rfl
@[simp] theorem Reg.width_CAB_CTRL_SLOT_GO : (Reg.CAB_CTRL_SLOT_GO).row.width = 1 := rfl
@[simp] theorem Reg.width_CAB_CTRL_SLOT_OP : (Reg.CAB_CTRL_SLOT_OP).row.width = 2 := rfl
@[simp] theorem Reg.width_CAB_CTRL_SLOT : (Reg.CAB_CTRL_SLOT).row.width = 8 := rfl
@[simp] theorem Reg.width_CAB_CTRL_KAT_GO : (Reg.CAB_CTRL_KAT_GO).row.width = 1 := rfl
@[simp] theorem Reg.width_CAB_STAT_BUSY : (Reg.CAB_STAT_BUSY).row.width = 1 := rfl
@[simp] theorem Reg.width_CAB_STAT_DONE : (Reg.CAB_STAT_DONE).row.width = 1 := rfl
@[simp] theorem Reg.width_CAB_STAT_OP_ERR : (Reg.CAB_STAT_OP_ERR).row.width = 1 := rfl
@[simp] theorem Reg.width_CAB_STAT_RNG_FAIL : (Reg.CAB_STAT_RNG_FAIL).row.width = 1 := rfl
@[simp] theorem Reg.width_CAB_STAT_TAG_FAIL : (Reg.CAB_STAT_TAG_FAIL).row.width = 1 := rfl
@[simp] theorem Reg.width_CAB_STAT_HOLD_WAIT : (Reg.CAB_STAT_HOLD_WAIT).row.width = 1 := rfl
@[simp] theorem Reg.width_CAB_STAT_NONCE_GUARD : (Reg.CAB_STAT_NONCE_GUARD).row.width = 1 := rfl
@[simp] theorem Reg.width_CAB_STAT_KEY_LOW : (Reg.CAB_STAT_KEY_LOW).row.width = 1 := rfl
@[simp] theorem Reg.width_CAB_STAT_KEY_EXH : (Reg.CAB_STAT_KEY_EXH).row.width = 1 := rfl
@[simp] theorem Reg.width_CAB_STAT_CORES : (Reg.CAB_STAT_CORES).row.width = 3 := rfl
@[simp] theorem Reg.width_CAB_STAT_CORE_RET : (Reg.CAB_STAT_CORE_RET).row.width = 4 := rfl
@[simp] theorem Reg.width_CAB_STAT_HOLD_USED : (Reg.CAB_STAT_HOLD_USED).row.width = 7 := rfl
@[simp] theorem Reg.width_CAB_CFG_KAT_MS : (Reg.CAB_CFG_KAT_MS).row.width = 16 := rfl
@[simp] theorem Reg.width_CAB_SLOTSEL_SLOT : (Reg.CAB_SLOTSEL_SLOT).row.width = 8 := rfl
@[simp] theorem Reg.width_CAB_SLOTSTAT_STATE : (Reg.CAB_SLOTSTAT_STATE).row.width = 2 := rfl
@[simp] theorem Reg.width_CAB_SLOTSTAT_LOW : (Reg.CAB_SLOTSTAT_LOW).row.width = 1 := rfl
@[simp] theorem Reg.width_CAB_SLOTSTAT_NSID : (Reg.CAB_SLOTSTAT_NSID).row.width = 6 := rfl
@[simp] theorem Reg.width_CAB_SLOTSTAT_NSTAG : (Reg.CAB_SLOTSTAT_NSTAG).row.width = 8 := rfl
@[simp] theorem Reg.width_CAB_GENLO_GEN : (Reg.CAB_GENLO_GEN).row.width = 32 := rfl
@[simp] theorem Reg.width_CAB_GENHI_GEN : (Reg.CAB_GENHI_GEN).row.width = 8 := rfl
@[simp] theorem Reg.width_CAB_CNT0_DECRYPTS : (Reg.CAB_CNT0_DECRYPTS).row.width = 32 := rfl
@[simp] theorem Reg.width_CAB_CNT1_ENCRYPTS : (Reg.CAB_CNT1_ENCRYPTS).row.width = 32 := rfl
@[simp] theorem Reg.width_CAB_CNT2_TAG_FAIL : (Reg.CAB_CNT2_TAG_FAIL).row.width = 16 := rfl
@[simp] theorem Reg.width_CAB_CNT2_GEN_BAD : (Reg.CAB_CNT2_GEN_BAD).row.width = 16 := rfl
@[simp] theorem Reg.width_CAB_CNT3_HOLD_WAIT : (Reg.CAB_CNT3_HOLD_WAIT).row.width = 16 := rfl
@[simp] theorem Reg.width_CAB_CNT3_KAT_FAIL : (Reg.CAB_CNT3_KAT_FAIL).row.width = 16 := rfl
@[simp] theorem Reg.width_CAB_EPOCH_KEK_EPOCH : (Reg.CAB_EPOCH_KEK_EPOCH).row.width = 3 := rfl
@[simp] theorem Reg.width_PHV_CTRL_RETIRE : (Reg.PHV_CTRL_RETIRE).row.width = 2 := rfl
@[simp] theorem Reg.width_PHV_CTRL_UNRETIRE : (Reg.PHV_CTRL_UNRETIRE).row.width = 2 := rfl
@[simp] theorem Reg.width_PHV_CFG_CAPS_BLK : (Reg.PHV_CFG_CAPS_BLK).row.width = 5 := rfl
@[simp] theorem Reg.width_PHV_CFG_MIN_GAIN : (Reg.PHV_CFG_MIN_GAIN).row.width = 12 := rfl
@[simp] theorem Reg.width_PHV_CFG_SPACE_MS : (Reg.PHV_CFG_SPACE_MS).row.width = 8 := rfl
@[simp] theorem Reg.width_PHV_CFG_VFY_RET : (Reg.PHV_CFG_VFY_RET).row.width = 3 := rfl
@[simp] theorem Reg.width_PHV_CFG_PACK_MS : (Reg.PHV_CFG_PACK_MS).row.width = 4 := rfl
@[simp] theorem Reg.width_PHV_STAT_INSVC : (Reg.PHV_STAT_INSVC).row.width = 2 := rfl
@[simp] theorem Reg.width_PHV_STAT_VFY_FAIL : (Reg.PHV_STAT_VFY_FAIL).row.width = 1 := rfl
@[simp] theorem Reg.width_PHV_STAT_DEC_ERR : (Reg.PHV_STAT_DEC_ERR).row.width = 1 := rfl
@[simp] theorem Reg.width_PHV_STAT_CAP_EXC : (Reg.PHV_STAT_CAP_EXC).row.width = 1 := rfl
@[simp] theorem Reg.width_PHV_STAT_PREEMPT : (Reg.PHV_STAT_PREEMPT).row.width = 1 := rfl
@[simp] theorem Reg.width_PHV_STAT_CFG_LOCKED : (Reg.PHV_STAT_CFG_LOCKED).row.width = 1 := rfl
@[simp] theorem Reg.width_PHV_STAT_ENG_FAULT : (Reg.PHV_STAT_ENG_FAULT).row.width = 1 := rfl
@[simp] theorem Reg.width_PHV_STAT_SLOTS_FREE : (Reg.PHV_STAT_SLOTS_FREE).row.width = 3 := rfl
@[simp] theorem Reg.width_PHV_STAT_QUEUED : (Reg.PHV_STAT_QUEUED).row.width = 6 := rfl
@[simp] theorem Reg.width_PHV_ENG_STATE : (Reg.PHV_ENG_STATE).row.width = 2 := rfl
@[simp] theorem Reg.width_PHV_ENG_VFYCNT : (Reg.PHV_ENG_VFYCNT).row.width = 3 := rfl
@[simp] theorem Reg.width_PHV_CNT0_RAW_KIB : (Reg.PHV_CNT0_RAW_KIB).row.width = 32 := rfl
@[simp] theorem Reg.width_PHV_CNT1_PACK_KIB : (Reg.PHV_CNT1_PACK_KIB).row.width = 32 := rfl
@[simp] theorem Reg.width_PHV_CNT2_VFY_FAIL : (Reg.PHV_CNT2_VFY_FAIL).row.width = 16 := rfl
@[simp] theorem Reg.width_PHV_CNT2_DEC_ERR : (Reg.PHV_CNT2_DEC_ERR).row.width = 16 := rfl
@[simp] theorem Reg.width_PHV_CNT3_CAP_EXC : (Reg.PHV_CNT3_CAP_EXC).row.width = 16 := rfl
@[simp] theorem Reg.width_PHV_CNT3_PREEMPT : (Reg.PHV_CNT3_PREEMPT).row.width = 16 := rfl
@[simp] theorem Reg.width_PHV_ERRLOG_LAST_CODE : (Reg.PHV_ERRLOG_LAST_CODE).row.width = 4 := rfl
@[simp] theorem Reg.width_PHV_ERRLOG_ENGINE : (Reg.PHV_ERRLOG_ENGINE).row.width = 1 := rfl
@[simp] theorem Reg.width_PHV_ERRLOG_REPEAT : (Reg.PHV_ERRLOG_REPEAT).row.width = 1 := rfl
@[simp] theorem Reg.width_PHV_ERRCSA0_CSA_LO : (Reg.PHV_ERRCSA0_CSA_LO).row.width = 32 := rfl
@[simp] theorem Reg.width_PHV_ERRCSA1_CSA_HI : (Reg.PHV_ERRCSA1_CSA_HI).row.width = 16 := rfl
@[simp] theorem Reg.width_PHV_SHADOW_CFG : (Reg.PHV_SHADOW_CFG).row.width = 17 := rfl
@[simp] theorem Reg.width_SQ_CTRL_GO : (Reg.SQ_CTRL_GO).row.width = 1 := rfl
@[simp] theorem Reg.width_SQ_CTRL_STOP : (Reg.SQ_CTRL_STOP).row.width = 1 := rfl
@[simp] theorem Reg.width_SQ_CTRL_RST : (Reg.SQ_CTRL_RST).row.width = 1 := rfl
@[simp] theorem Reg.width_SQ_CTRL_DOORBELL : (Reg.SQ_CTRL_DOORBELL).row.width = 1 := rfl
@[simp] theorem Reg.width_SQ_STAT_STATE : (Reg.SQ_STAT_STATE).row.width = 2 := rfl
@[simp] theorem Reg.width_SQ_STAT_COMMITTED : (Reg.SQ_STAT_COMMITTED).row.width = 1 := rfl
@[simp] theorem Reg.width_SQ_STAT_HANDLER : (Reg.SQ_STAT_HANDLER).row.width = 1 := rfl
@[simp] theorem Reg.width_SQ_STAT_CBUF : (Reg.SQ_STAT_CBUF).row.width = 5 := rfl
@[simp] theorem Reg.width_SQ_STAT_STKD : (Reg.SQ_STAT_STKD).row.width = 3 := rfl
@[simp] theorem Reg.width_SQ_STAT_FCAUSE : (Reg.SQ_STAT_FCAUSE).row.width = 3 := rfl
@[simp] theorem Reg.width_SQ_STAT_FAULT : (Reg.SQ_STAT_FAULT).row.width = 1 := rfl
@[simp] theorem Reg.width_SQ_STAT_CFG_LOCKED : (Reg.SQ_STAT_CFG_LOCKED).row.width = 1 := rfl
@[simp] theorem Reg.width_SQ_STAT_ABANDON : (Reg.SQ_STAT_ABANDON).row.width = 1 := rfl
@[simp] theorem Reg.width_SQ_STAT_PC : (Reg.SQ_STAT_PC).row.width = 12 := rfl
@[simp] theorem Reg.width_SQ_ENTRY_EVEN : (Reg.SQ_ENTRY_EVEN).row.width = 12 := rfl
@[simp] theorem Reg.width_SQ_ENTRY_ODD : (Reg.SQ_ENTRY_ODD).row.width = 12 := rfl
@[simp] theorem Reg.width_SQ_IVEC_IVEC : (Reg.SQ_IVEC_IVEC).row.width = 12 := rfl
@[simp] theorem Reg.width_SQ_RESUME_ADDR : (Reg.SQ_RESUME_ADDR).row.width = 12 := rfl
@[simp] theorem Reg.width_SQ_ESHADOW_ENTRY : (Reg.SQ_ESHADOW_ENTRY).row.width = 32 := rfl
@[simp] theorem Reg.width_SQ_LIVE_PAGES : (Reg.SQ_LIVE_PAGES).row.width = 32 := rfl
@[simp] theorem Reg.width_SQ_OUT_VALUE : (Reg.SQ_OUT_VALUE).row.width = 32 := rfl
@[simp] theorem Reg.width_SQ_UFLAG_FLAGS : (Reg.SQ_UFLAG_FLAGS).row.width = 32 := rfl
@[simp] theorem Reg.width_SQ_UCNT_COUNT : (Reg.SQ_UCNT_COUNT).row.width = 32 := rfl
@[simp] theorem Reg.width_SQ_MBOX_CODE : (Reg.SQ_MBOX_CODE).row.width = 8 := rfl
@[simp] theorem Reg.width_SQ_MBOX_VALID : (Reg.SQ_MBOX_VALID).row.width = 1 := rfl
@[simp] theorem Reg.width_SQ_MBOXD_DATA : (Reg.SQ_MBOXD_DATA).row.width = 32 := rfl
@[simp] theorem Reg.width_SQ_REQ_QUEUED : (Reg.SQ_REQ_QUEUED).row.width = 6 := rfl
@[simp] theorem Reg.width_SQ_CNT_ABANDONS : (Reg.SQ_CNT_ABANDONS).row.width = 16 := rfl
@[simp] theorem Reg.width_SQ_CNT_DEFERRED : (Reg.SQ_CNT_DEFERRED).row.width = 16 := rfl
@[simp] theorem Reg.width_BURn_CTRL_RETIRE : (Reg.BURn_CTRL_RETIRE).row.width = 4 := rfl
@[simp] theorem Reg.width_BURn_CTRL_UNRETIRE : (Reg.BURn_CTRL_UNRETIRE).row.width = 4 := rfl
@[simp] theorem Reg.width_BURn_STAT_STATE : (Reg.BURn_STAT_STATE).row.width = 8 := rfl
@[simp] theorem Reg.width_BURn_STAT_CAUSE_LAST : (Reg.BURn_STAT_CAUSE_LAST).row.width = 4 := rfl
@[simp] theorem Reg.width_BURn_STAT_CORE_RET : (Reg.BURn_STAT_CORE_RET).row.width = 1 := rfl
@[simp] theorem Reg.width_BURn_STAT_WDOG : (Reg.BURn_STAT_WDOG).row.width = 1 := rfl
@[simp] theorem Reg.width_BURn_STAT_L2_OFF : (Reg.BURn_STAT_L2_OFF).row.width = 1 := rfl
@[simp] theorem Reg.width_BURn_STAT_CFG_LOCKED : (Reg.BURn_STAT_CFG_LOCKED).row.width = 1 := rfl
@[simp] theorem Reg.width_BURn_WDOG_MS : (Reg.BURn_WDOG_MS).row.width = 12 := rfl
@[simp] theorem Reg.width_BURn_CNT_WDOG_EXP : (Reg.BURn_CNT_WDOG_EXP).row.width = 16 := rfl
@[simp] theorem Reg.width_BURn_CNT_MIGRATE : (Reg.BURn_CNT_MIGRATE).row.width = 16 := rfl
@[simp] theorem Reg.width_BURn_LOAD_BUSY : (Reg.BURn_LOAD_BUSY).row.width = 32 := rfl
@[simp] theorem Reg.width_L2n_CTRL_EN : (Reg.L2n_CTRL_EN).row.width = 1 := rfl
@[simp] theorem Reg.width_L2n_CTRL_PF_EN : (Reg.L2n_CTRL_PF_EN).row.width = 1 := rfl
@[simp] theorem Reg.width_L2n_CTRL_PF_DIST : (Reg.L2n_CTRL_PF_DIST).row.width = 4 := rfl
@[simp] theorem Reg.width_L2n_STAT_ENABLED : (Reg.L2n_STAT_ENABLED).row.width = 1 := rfl
@[simp] theorem Reg.width_L2n_STAT_WALK : (Reg.L2n_STAT_WALK).row.width = 1 := rfl
@[simp] theorem Reg.width_L2n_STAT_MDONE : (Reg.L2n_STAT_MDONE).row.width = 1 := rfl
@[simp] theorem Reg.width_L2n_STAT_MERR : (Reg.L2n_STAT_MERR).row.width = 1 := rfl
@[simp] theorem Reg.width_L2n_STAT_CFG_LOCKED : (Reg.L2n_STAT_CFG_LOCKED).row.width = 1 := rfl
@[simp] theorem Reg.width_L2n_STAT_DIRTY : (Reg.L2n_STAT_DIRTY).row.width = 15 := rfl
@[simp] theorem Reg.width_L2n_MAINT_OP : (Reg.L2n_MAINT_OP).row.width = 2 := rfl
@[simp] theorem Reg.width_L2n_MAINT_BY : (Reg.L2n_MAINT_BY).row.width = 1 := rfl
@[simp] theorem Reg.width_L2n_MAINT_GO : (Reg.L2n_MAINT_GO).row.width = 1 := rfl
@[simp] theorem Reg.width_L2n_MAINT_SET : (Reg.L2n_MAINT_SET).row.width = 10 := rfl
@[simp] theorem Reg.width_L2n_MAINT_WAY : (Reg.L2n_MAINT_WAY).row.width = 4 := rfl
@[simp] theorem Reg.width_L2n_MADDRLO_ADDR : (Reg.L2n_MADDRLO_ADDR).row.width = 26 := rfl
@[simp] theorem Reg.width_L2n_MADDRHI_ADDR : (Reg.L2n_MADDRHI_ADDR).row.width = 16 := rfl
@[simp] theorem Reg.width_L2n_MCOUNT_LINES : (Reg.L2n_MCOUNT_LINES).row.width = 16 := rfl
@[simp] theorem Reg.width_L2n_WALKT_NS : (Reg.L2n_WALKT_NS).row.width = 32 := rfl
@[simp] theorem Reg.width_L2n_CNT0_HITS : (Reg.L2n_CNT0_HITS).row.width = 32 := rfl
@[simp] theorem Reg.width_L2n_CNT1_MISSES : (Reg.L2n_CNT1_MISSES).row.width = 32 := rfl
@[simp] theorem Reg.width_L2n_CNT2_PF_USED : (Reg.L2n_CNT2_PF_USED).row.width = 16 := rfl
@[simp] theorem Reg.width_L2n_CNT2_PF_DROP : (Reg.L2n_CNT2_PF_DROP).row.width = 16 := rfl
@[simp] theorem Reg.width_L2n_RAT_BASE_BASE : (Reg.L2n_RAT_BASE_BASE).row.width = 32 := rfl
@[simp] theorem Reg.width_L2n_RAT_LIMIT_LIMIT : (Reg.L2n_RAT_LIMIT_LIMIT).row.width = 32 := rfl
@[simp] theorem Reg.width_L2n_RAT_CTL_POL : (Reg.L2n_RAT_CTL_POL).row.width = 2 := rfl
@[simp] theorem Reg.width_L2n_RAT_CTL_VALID : (Reg.L2n_RAT_CTL_VALID).row.width = 1 := rfl
@[simp] theorem Reg.width_MI_OVF0_OVF : (Reg.MI_OVF0_OVF).row.width = 32 := rfl
@[simp] theorem Reg.width_MI_OVF1_OVF : (Reg.MI_OVF1_OVF).row.width = 16 := rfl
@[simp] theorem Reg.width_MI_DIAG_ALO_ADDR : (Reg.MI_DIAG_ALO_ADDR).row.width = 29 := rfl
@[simp] theorem Reg.width_MI_DIAG_AHI_ADDR : (Reg.MI_DIAG_AHI_ADDR).row.width = 16 := rfl
@[simp] theorem Reg.width_MI_DIAG_DLO_DATA : (Reg.MI_DIAG_DLO_DATA).row.width = 32 := rfl
@[simp] theorem Reg.width_MI_DIAG_DHI_DATA : (Reg.MI_DIAG_DHI_DATA).row.width = 32 := rfl
@[simp] theorem Reg.width_MI_DIAG_CHK_CHK : (Reg.MI_DIAG_CHK_CHK).row.width = 8 := rfl
@[simp] theorem Reg.width_MI_DIAG_CMD_RAWRD : (Reg.MI_DIAG_CMD_RAWRD).row.width = 1 := rfl
@[simp] theorem Reg.width_MI_DIAG_CMD_RAWWR : (Reg.MI_DIAG_CMD_RAWWR).row.width = 1 := rfl
@[simp] theorem Reg.width_MI_DIAG_CMD_DONE : (Reg.MI_DIAG_CMD_DONE).row.width = 1 := rfl
@[simp] theorem Reg.width_MI_DIAG_CMD_CFG_LOCKED : (Reg.MI_DIAG_CMD_CFG_LOCKED).row.width = 1 := rfl
@[simp] theorem Reg.width_MI_WLOST_RANGES : (Reg.MI_WLOST_RANGES).row.width = 13 := rfl
@[simp] theorem Reg.width_MI_WLOST_MERGED : (Reg.MI_WLOST_MERGED).row.width = 1 := rfl
@[simp] theorem Reg.width_MI_I_CFG_DEPTH : (Reg.MI_I_CFG_DEPTH).row.width = 8 := rfl
@[simp] theorem Reg.width_MI_I_CFG_LEAK : (Reg.MI_I_CFG_LEAK).row.width = 16 := rfl
@[simp] theorem Reg.width_MI_I_CFG_INIT_MODE : (Reg.MI_I_CFG_INIT_MODE).row.width = 1 := rfl
@[simp] theorem Reg.width_MI_I_CFG_FILL : (Reg.MI_I_CFG_FILL).row.width = 1 := rfl
@[simp] theorem Reg.width_MI_I_STAT_LEVEL : (Reg.MI_I_STAT_LEVEL).row.width = 8 := rfl
@[simp] theorem Reg.width_MI_I_STAT_OVF : (Reg.MI_I_STAT_OVF).row.width = 1 := rfl
@[simp] theorem Reg.width_MI_I_STAT_UE : (Reg.MI_I_STAT_UE).row.width = 1 := rfl
@[simp] theorem Reg.width_MI_I_STAT_POISON : (Reg.MI_I_STAT_POISON).row.width = 1 := rfl
@[simp] theorem Reg.width_MI_I_STAT_FILL_BUSY : (Reg.MI_I_STAT_FILL_BUSY).row.width = 1 := rfl
@[simp] theorem Reg.width_MI_I_CE_COUNT : (Reg.MI_I_CE_COUNT).row.width = 32 := rfl
@[simp] theorem Reg.width_MI_I_UE_UE : (Reg.MI_I_UE_UE).row.width = 16 := rfl
@[simp] theorem Reg.width_MI_I_UE_POISONED : (Reg.MI_I_UE_POISONED).row.width = 16 := rfl
@[simp] theorem Reg.width_MI_I_ALO_ADDR : (Reg.MI_I_ALO_ADDR).row.width = 32 := rfl
@[simp] theorem Reg.width_MI_I_AHI_ADDR : (Reg.MI_I_AHI_ADDR).row.width = 16 := rfl
@[simp] theorem Reg.width_MI_I_AHI_SYND : (Reg.MI_I_AHI_SYND).row.width = 8 := rfl
@[simp] theorem Reg.width_MI_I_AHI_KIND : (Reg.MI_I_AHI_KIND).row.width = 1 := rfl
@[simp] theorem Reg.width_SCB_MS_CTRL_EN : (Reg.SCB_MS_CTRL_EN).row.width = 1 := rfl
@[simp] theorem Reg.width_SCB_MS_CFG_SRAM_S : (Reg.SCB_MS_CFG_SRAM_S).row.width = 12 := rfl
@[simp] theorem Reg.width_SCB_MS_CFG_DDR_H : (Reg.SCB_MS_CFG_DDR_H).row.width = 10 := rfl
@[simp] theorem Reg.width_SCB_MS_CFG_CHEST_H : (Reg.SCB_MS_CFG_CHEST_H).row.width = 10 := rfl
@[simp] theorem Reg.width_SCB_MS_CNT0_FIXED : (Reg.SCB_MS_CNT0_FIXED).row.width = 16 := rfl
@[simp] theorem Reg.width_SCB_MS_CNT0_POISONED : (Reg.SCB_MS_CNT0_POISONED).row.width = 16 := rfl
@[simp] theorem Reg.width_SCB_MS_CNT1_SRAM_PASS : (Reg.SCB_MS_CNT1_SRAM_PASS).row.width = 16 := rfl
@[simp] theorem Reg.width_SCB_MS_CNT1_DDR_PASS : (Reg.SCB_MS_CNT1_DDR_PASS).row.width = 16 := rfl
@[simp] theorem Reg.width_PWR_CTRL_AUTOSPIN : (Reg.PWR_CTRL_AUTOSPIN).row.width = 1 := rfl
@[simp] theorem Reg.width_PWR_CTRL_AUTODORM : (Reg.PWR_CTRL_AUTODORM).row.width = 1 := rfl
@[simp] theorem Reg.width_PWR_CTRL_SPIN_ON_IO : (Reg.PWR_CTRL_SPIN_ON_IO).row.width = 1 := rfl
@[simp] theorem Reg.width_PWR_STAT_MODE : (Reg.PWR_STAT_MODE).row.width = 3 := rfl
@[simp] theorem Reg.width_PWR_STAT_SUB : (Reg.PWR_STAT_SUB).row.width = 2 := rfl
@[simp] theorem Reg.width_PWR_STAT_DEGR : (Reg.PWR_STAT_DEGR).row.width = 5 := rfl
@[simp] theorem Reg.width_PWR_STAT_CFG_LOCKED : (Reg.PWR_STAT_CFG_LOCKED).row.width = 1 := rfl
@[simp] theorem Reg.width_PWR_STAT_REFUSED : (Reg.PWR_STAT_REFUSED).row.width = 1 := rfl
@[simp] theorem Reg.width_PWR_STAT_RET_INCOMPLETE : (Reg.PWR_STAT_RET_INCOMPLETE).row.width = 1 := rfl
@[simp] theorem Reg.width_PWR_TIME_DORM_S : (Reg.PWR_TIME_DORM_S).row.width = 16 := rfl
@[simp] theorem Reg.width_PWR_TIME_IDLE_MS : (Reg.PWR_TIME_IDLE_MS).row.width = 16 := rfl
@[simp] theorem Reg.width_PWR_STRLOST_LOST : (Reg.PWR_STRLOST_LOST).row.width = 4 := rfl
@[simp] theorem Reg.width_PWR_STRLOST_CLR : (Reg.PWR_STRLOST_CLR).row.width = 4 := rfl
@[simp] theorem Reg.width_PWR_RETCFG_RET_GAP : (Reg.PWR_RETCFG_RET_GAP).row.width = 8 := rfl
@[simp] theorem Reg.width_PWR_RETCFG_VM_HARV : (Reg.PWR_RETCFG_VM_HARV).row.width = 8 := rfl
@[simp] theorem Reg.width_PWR_RETCFG_VM_RETMIN : (Reg.PWR_RETCFG_VM_RETMIN).row.width = 8 := rfl
@[simp] theorem Reg.width_PWR_RETCFG_INRUSH : (Reg.PWR_RETCFG_INRUSH).row.width = 8 := rfl
@[simp] theorem Reg.width_PWR_RETLOG_BEGUN : (Reg.PWR_RETLOG_BEGUN).row.width = 4 := rfl
@[simp] theorem Reg.width_PWR_RETLOG_PARKED : (Reg.PWR_RETLOG_PARKED).row.width = 4 := rfl
@[simp] theorem Reg.width_PWR_RETLOG_LAST_MS : (Reg.PWR_RETLOG_LAST_MS).row.width = 16 := rfl
@[simp] theorem Reg.width_PWR_RETLOG_VM_MIN : (Reg.PWR_RETLOG_VM_MIN).row.width = 8 := rfl
@[simp] theorem Reg.width_PWR_DOMREQ_ON : (Reg.PWR_DOMREQ_ON).row.width = 32 := rfl
@[simp] theorem Reg.width_PWR_DOMSTAT_ON : (Reg.PWR_DOMSTAT_ON).row.width = 32 := rfl
@[simp] theorem Reg.width_PWR_DOMERR_DOM : (Reg.PWR_DOMERR_DOM).row.width = 7 := rfl
@[simp] theorem Reg.width_SB_CFG0_UV12 : (Reg.SB_CFG0_UV12).row.width = 8 := rfl
@[simp] theorem Reg.width_SB_CFG0_UV5 : (Reg.SB_CFG0_UV5).row.width = 8 := rfl
@[simp] theorem Reg.width_SB_CFG0_UV_DEB : (Reg.SB_CFG0_UV_DEB).row.width = 8 := rfl
@[simp] theorem Reg.width_SB_CFG1_SHK_TH : (Reg.SB_CFG1_SHK_TH).row.width = 6 := rfl
@[simp] theorem Reg.width_SB_CFG1_SHK_EN0 : (Reg.SB_CFG1_SHK_EN0).row.width = 1 := rfl
@[simp] theorem Reg.width_SB_CFG1_SHK_EN1 : (Reg.SB_CFG1_SHK_EN1).row.width = 1 := rfl
@[simp] theorem Reg.width_SB_CFG1_SHK_HOLD : (Reg.SB_CFG1_SHK_HOLD).row.width = 12 := rfl
@[simp] theorem Reg.width_SB_WAKE_EN : (Reg.SB_WAKE_EN).row.width = 5 := rfl
@[simp] theorem Reg.width_SB_WAKE_TW_TH : (Reg.SB_WAKE_TW_TH).row.width = 8 := rfl
@[simp] theorem Reg.width_SB_STAT_V12_OK : (Reg.SB_STAT_V12_OK).row.width = 1 := rfl
@[simp] theorem Reg.width_SB_STAT_V5_OK : (Reg.SB_STAT_V5_OK).row.width = 1 := rfl
@[simp] theorem Reg.width_SB_STAT_PWRLOSS : (Reg.SB_STAT_PWRLOSS).row.width = 1 := rfl
@[simp] theorem Reg.width_SB_STAT_SHOCK : (Reg.SB_STAT_SHOCK).row.width = 1 := rfl
@[simp] theorem Reg.width_SB_STAT_WSRC : (Reg.SB_STAT_WSRC).row.width = 3 := rfl
@[simp] theorem Reg.width_SB_STAT_CAPO_ACT : (Reg.SB_STAT_CAPO_ACT).row.width = 1 := rfl
@[simp] theorem Reg.width_SB_RTC_SEC : (Reg.SB_RTC_SEC).row.width = 32 := rfl
@[simp] theorem Reg.width_SB_ALARM_SEC : (Reg.SB_ALARM_SEC).row.width = 32 := rfl
@[simp] theorem Reg.width_SB_CNT_PWRLOSS : (Reg.SB_CNT_PWRLOSS).row.width = 16 := rfl
@[simp] theorem Reg.width_SB_CNT_SHOCK : (Reg.SB_CNT_SHOCK).row.width = 16 := rfl
@[simp] theorem Reg.width_CAL_CTRL_ABORT : (Reg.CAL_CTRL_ABORT).row.width = 1 := rfl
@[simp] theorem Reg.width_CAL_STAT_BUSY : (Reg.CAL_STAT_BUSY).row.width = 1 := rfl
@[simp] theorem Reg.width_CAL_STAT_SCRIPT : (Reg.CAL_STAT_SCRIPT).row.width = 8 := rfl
@[simp] theorem Reg.width_CAL_STAT_STRING : (Reg.CAL_STAT_STRING).row.width = 4 := rfl
@[simp] theorem Reg.width_CAL_STAT_REXT_BAD : (Reg.CAL_STAT_REXT_BAD).row.width = 1 := rfl
@[simp] theorem Reg.width_CAL_STAT_CFG_LOCKED : (Reg.CAL_STAT_CFG_LOCKED).row.width = 1 := rfl
@[simp] theorem Reg.width_CAL_STAT_DONE : (Reg.CAL_STAT_DONE).row.width = 1 := rfl
@[simp] theorem Reg.width_CAL_STAT_RESULT : (Reg.CAL_STAT_RESULT).row.width = 16 := rfl
@[simp] theorem Reg.width_CAL_TD_TD_STEP : (Reg.CAL_TD_TD_STEP).row.width = 8 := rfl
@[simp] theorem Reg.width_CAL_TD_TD_FLAT : (Reg.CAL_TD_TD_FLAT).row.width = 8 := rfl
@[simp] theorem Reg.width_CAL_TD_TD_PES : (Reg.CAL_TD_TD_PES).row.width = 8 := rfl
@[simp] theorem Reg.width_CAL_BO_BO_RD : (Reg.CAL_BO_BO_RD).row.width = 10 := rfl
@[simp] theorem Reg.width_CAL_BO_BO_WIDLE : (Reg.CAL_BO_BO_WIDLE).row.width = 10 := rfl
@[simp] theorem Reg.width_CAL_BO_BO_WR : (Reg.CAL_BO_BO_WR).row.width = 10 := rfl
@[simp] theorem Reg.width_CAL_SCH_SCRIPT : (Reg.CAL_SCH_SCRIPT).row.width = 8 := rfl
@[simp] theorem Reg.width_CAL_SCH_PERIOD : (Reg.CAL_SCH_PERIOD).row.width = 12 := rfl
@[simp] theorem Reg.width_CAL_SCH_TDELTA : (Reg.CAL_SCH_TDELTA).row.width = 8 := rfl
@[simp] theorem Reg.width_CAL_SCH_EN : (Reg.CAL_SCH_EN).row.width = 1 := rfl
@[simp] theorem Reg.width_CAL_PEG_T_TARGET : (Reg.CAL_PEG_T_TARGET).row.width = 10 := rfl
@[simp] theorem Reg.width_CAL_PEG_V_VALUE : (Reg.CAL_PEG_V_VALUE).row.width = 10 := rfl
@[simp] theorem Reg.width_THR_CTRL_L_MIN : (Reg.THR_CTRL_L_MIN).row.width = 4 := rfl
@[simp] theorem Reg.width_THR_STAT_TJ : (Reg.THR_STAT_TJ).row.width = 12 := rfl
@[simp] theorem Reg.width_THR_STAT_LEVEL : (Reg.THR_STAT_LEVEL).row.width = 4 := rfl
@[simp] theorem Reg.width_THR_STAT_WARN : (Reg.THR_STAT_WARN).row.width = 1 := rfl
@[simp] theorem Reg.width_THR_STAT_THROT : (Reg.THR_STAT_THROT).row.width = 1 := rfl
@[simp] theorem Reg.width_THR_STAT_SHUT : (Reg.THR_STAT_SHUT).row.width = 1 := rfl
@[simp] theorem Reg.width_THR_STAT_CFG_LOCKED : (Reg.THR_STAT_CFG_LOCKED).row.width = 1 := rfl
@[simp] theorem Reg.width_THR_STAT_SNS_BAD : (Reg.THR_STAT_SNS_BAD).row.width = 12 := rfl
@[simp] theorem Reg.width_THR_HEAD_HT_LIM_A : (Reg.THR_HEAD_HT_LIM_A).row.width = 8 := rfl
@[simp] theorem Reg.width_THR_HEAD_HT_LIM_B : (Reg.THR_HEAD_HT_LIM_B).row.width = 8 := rfl
@[simp] theorem Reg.width_THR_HEAD_HT_LIM_C : (Reg.THR_HEAD_HT_LIM_C).row.width = 8 := rfl
@[simp] theorem Reg.width_THR_HEAD_HT_LIM_D : (Reg.THR_HEAD_HT_LIM_D).row.width = 8 := rfl
@[simp] theorem Reg.width_THR_SNS_T : (Reg.THR_SNS_T).row.width = 12 := rfl
@[simp] theorem Reg.width_THR_CNT_STEPS : (Reg.THR_CNT_STEPS).row.width = 16 := rfl
@[simp] theorem Reg.width_THR_CNT_SHUTDOWNS : (Reg.THR_CNT_SHUTDOWNS).row.width = 16 := rfl
@[simp] theorem Reg.width_LC_STAT_STATE : (Reg.LC_STAT_STATE).row.width = 3 := rfl
@[simp] theorem Reg.width_LC_STAT_RETCNT : (Reg.LC_STAT_RETCNT).row.width = 3 := rfl
@[simp] theorem Reg.width_LC_STAT_REFIELD : (Reg.LC_STAT_REFIELD).row.width = 2 := rfl
@[simp] theorem Reg.width_LC_STAT_CHAL_LIVE : (Reg.LC_STAT_CHAL_LIVE).row.width = 1 := rfl
@[simp] theorem Reg.width_LC_STAT_DENIED : (Reg.LC_STAT_DENIED).row.width = 1 := rfl
@[simp] theorem Reg.width_LC_STAT_PEND : (Reg.LC_STAT_PEND).row.width = 1 := rfl
@[simp] theorem Reg.width_LC_VAR_VARIANT : (Reg.LC_VAR_VARIANT).row.width = 1 := rfl
@[simp] theorem Reg.width_LC_VAR_STEPPING : (Reg.LC_VAR_STEPPING).row.width = 4 := rfl
@[simp] theorem Reg.width_LC_PCIID_VID : (Reg.LC_PCIID_VID).row.width = 16 := rfl
@[simp] theorem Reg.width_LC_PCIID_SSVID : (Reg.LC_PCIID_SSVID).row.width = 16 := rfl
@[simp] theorem Reg.width_LC_DEVID_ID : (Reg.LC_DEVID_ID).row.width = 32 := rfl
@[simp] theorem Reg.width_LC_FWSVN_SVN : (Reg.LC_FWSVN_SVN).row.width = 32 := rfl
@[simp] theorem Reg.width_LC_BOOT_SLOT : (Reg.LC_BOOT_SLOT).row.width = 1 := rfl
@[simp] theorem Reg.width_LC_BOOT_FALLBACK : (Reg.LC_BOOT_FALLBACK).row.width = 1 := rfl
@[simp] theorem Reg.width_LC_BOOT_RECOVERY : (Reg.LC_BOOT_RECOVERY).row.width = 1 := rfl
@[simp] theorem Reg.width_LC_KEYH_HASH : (Reg.LC_KEYH_HASH).row.width = 32 := rfl
@[simp] theorem Reg.width_BNCH_STAT_SESSION : (Reg.BNCH_STAT_SESSION).row.width = 1 := rfl
@[simp] theorem Reg.width_BNCH_STAT_DENIED : (Reg.BNCH_STAT_DENIED).row.width = 1 := rfl
@[simp] theorem Reg.width_BNCH_STAT_BSCAN_BLK : (Reg.BNCH_STAT_BSCAN_BLK).row.width = 1 := rfl
@[simp] theorem Reg.width_BNCH_STAT_KEYRD : (Reg.BNCH_STAT_KEYRD).row.width = 1 := rfl
@[simp] theorem Reg.width_BNCH_STAT_MATCH : (Reg.BNCH_STAT_MATCH).row.width = 1 := rfl
@[simp] theorem Reg.width_BNCH_STAT_SKIPX : (Reg.BNCH_STAT_SKIPX).row.width = 1 := rfl
@[simp] theorem Reg.width_BNCH_STAT_HALTED : (Reg.BNCH_STAT_HALTED).row.width = 16 := rfl
@[simp] theorem Reg.width_BNCH_CFG_IDLE_MIN : (Reg.BNCH_CFG_IDLE_MIN).row.width = 12 := rfl
@[simp] theorem Reg.width_BNCH_CNT_OPENS : (Reg.BNCH_CNT_OPENS).row.width = 16 := rfl
@[simp] theorem Reg.width_BNCH_CNT_REFUSED : (Reg.BNCH_CNT_REFUSED).row.width = 16 := rfl
@[simp] theorem Reg.width_PEGx_T_TARGET : (Reg.PEGx_T_TARGET).row.width = 10 := rfl
@[simp] theorem Reg.width_PEGx_V_VALUE : (Reg.PEGx_V_VALUE).row.width = 10 := rfl

end Sys2Proof.Machine
end

