-- ==== Sys2Proof/Laws/State.lean ====
section
/-! SUPPORT. Laws/State.lean: what each update of one part of the state leaves of the others, field by field; reads of registers
after writes; one command at the front of the queue. -/
namespace Sys2Proof.Machine

/-! ### wr -/

@[simp] theorem State.wr_shadow (s : State) (r : Reg) (v i : Nat) : (s.wr r v i).shadow = s.shadow := rfl
@[simp] theorem State.wr_mem (s : State) (r : Reg) (v i : Nat) : (s.wr r v i).mem = s.mem := rfl
@[simp] theorem State.wr_control (s : State) (r : Reg) (v i : Nat) : (s.wr r v i).control = s.control := rfl
@[simp] theorem State.wr_staged (s : State) (r : Reg) (v i : Nat) : (s.wr r v i).staged = s.staged := rfl
@[simp] theorem State.wr_timebase (s : State) (r : Reg) (v i : Nat) : (s.wr r v i).timebase = s.timebase := rfl
@[simp] theorem State.wr_draws (s : State) (r : Reg) (v i : Nat) : (s.wr r v i).draws = s.draws := rfl
@[simp] theorem State.wr_events (s : State) (r : Reg) (v i : Nat) : (s.wr r v i).events = s.events := rfl
@[simp] theorem State.wr_eventSeq (s : State) (r : Reg) (v i : Nat) : (s.wr r v i).eventSeq = s.eventSeq := rfl
@[simp] theorem State.wr_fret (s : State) (r : Reg) (v i : Nat) : (s.wr r v i).fret = s.fret := rfl
@[simp] theorem State.wr_capo (s : State) (r : Reg) (v i : Nat) : (s.wr r v i).capo = s.capo := rfl
@[simp] theorem State.wr_spe (s : State) (r : Reg) (v i : Nat) : (s.wr r v i).spe = s.spe := rfl
@[simp] theorem State.wr_str (s : State) (r : Reg) (v i : Nat) : (s.wr r v i).str = s.str := rfl
@[simp] theorem State.wr_harp (s : State) (r : Reg) (v i : Nat) : (s.wr r v i).harp = s.harp := rfl
@[simp] theorem State.wr_host (s : State) (r : Reg) (v i : Nat) : (s.wr r v i).host = s.host := rfl
@[simp] theorem State.wr_bridge (s : State) (r : Reg) (v i : Nat) : (s.wr r v i).bridge = s.bridge := rfl
@[simp] theorem State.wr_cab (s : State) (r : Reg) (v i : Nat) : (s.wr r v i).cab = s.cab := rfl
@[simp] theorem State.wr_phv (s : State) (r : Reg) (v i : Nat) : (s.wr r v i).phv = s.phv := rfl
@[simp] theorem State.wr_memory (s : State) (r : Reg) (v i : Nat) : (s.wr r v i).memory = s.memory := rfl
@[simp] theorem State.wr_bur (s : State) (r : Reg) (v i : Nat) : (s.wr r v i).bur = s.bur := rfl
@[simp] theorem State.wr_power (s : State) (r : Reg) (v i : Nat) : (s.wr r v i).power = s.power := rfl
@[simp] theorem State.wr_cal (s : State) (r : Reg) (v i : Nat) : (s.wr r v i).cal = s.cal := rfl
@[simp] theorem State.wr_therm (s : State) (r : Reg) (v i : Nat) : (s.wr r v i).therm = s.therm := rfl
@[simp] theorem State.wr_lc (s : State) (r : Reg) (v i : Nat) : (s.wr r v i).lc = s.lc := rfl
@[simp] theorem State.wr_bench (s : State) (r : Reg) (v i : Nat) : (s.wr r v i).bench = s.bench := rfl
@[simp] theorem State.wr_out (s : State) (r : Reg) (v i : Nat) : (s.wr r v i).out = s.out := rfl
@[simp] theorem State.wr_pending (s : State) (r : Reg) (v i : Nat) : (s.wr r v i).pending = s.pending := rfl

/-! ### flag -/

@[simp] theorem State.flag_shadow (s : State) (r : Reg) (i : Nat) : (s.flag r i).shadow = s.shadow := rfl
@[simp] theorem State.flag_mem (s : State) (r : Reg) (i : Nat) : (s.flag r i).mem = s.mem := rfl
@[simp] theorem State.flag_control (s : State) (r : Reg) (i : Nat) : (s.flag r i).control = s.control := rfl
@[simp] theorem State.flag_staged (s : State) (r : Reg) (i : Nat) : (s.flag r i).staged = s.staged := rfl
@[simp] theorem State.flag_timebase (s : State) (r : Reg) (i : Nat) : (s.flag r i).timebase = s.timebase := rfl
@[simp] theorem State.flag_draws (s : State) (r : Reg) (i : Nat) : (s.flag r i).draws = s.draws := rfl
@[simp] theorem State.flag_events (s : State) (r : Reg) (i : Nat) : (s.flag r i).events = s.events := rfl
@[simp] theorem State.flag_eventSeq (s : State) (r : Reg) (i : Nat) : (s.flag r i).eventSeq = s.eventSeq := rfl
@[simp] theorem State.flag_fret (s : State) (r : Reg) (i : Nat) : (s.flag r i).fret = s.fret := rfl
@[simp] theorem State.flag_capo (s : State) (r : Reg) (i : Nat) : (s.flag r i).capo = s.capo := rfl
@[simp] theorem State.flag_spe (s : State) (r : Reg) (i : Nat) : (s.flag r i).spe = s.spe := rfl
@[simp] theorem State.flag_str (s : State) (r : Reg) (i : Nat) : (s.flag r i).str = s.str := rfl
@[simp] theorem State.flag_harp (s : State) (r : Reg) (i : Nat) : (s.flag r i).harp = s.harp := rfl
@[simp] theorem State.flag_host (s : State) (r : Reg) (i : Nat) : (s.flag r i).host = s.host := rfl
@[simp] theorem State.flag_bridge (s : State) (r : Reg) (i : Nat) : (s.flag r i).bridge = s.bridge := rfl
@[simp] theorem State.flag_cab (s : State) (r : Reg) (i : Nat) : (s.flag r i).cab = s.cab := rfl
@[simp] theorem State.flag_phv (s : State) (r : Reg) (i : Nat) : (s.flag r i).phv = s.phv := rfl
@[simp] theorem State.flag_memory (s : State) (r : Reg) (i : Nat) : (s.flag r i).memory = s.memory := rfl
@[simp] theorem State.flag_bur (s : State) (r : Reg) (i : Nat) : (s.flag r i).bur = s.bur := rfl
@[simp] theorem State.flag_power (s : State) (r : Reg) (i : Nat) : (s.flag r i).power = s.power := rfl
@[simp] theorem State.flag_cal (s : State) (r : Reg) (i : Nat) : (s.flag r i).cal = s.cal := rfl
@[simp] theorem State.flag_therm (s : State) (r : Reg) (i : Nat) : (s.flag r i).therm = s.therm := rfl
@[simp] theorem State.flag_lc (s : State) (r : Reg) (i : Nat) : (s.flag r i).lc = s.lc := rfl
@[simp] theorem State.flag_bench (s : State) (r : Reg) (i : Nat) : (s.flag r i).bench = s.bench := rfl
@[simp] theorem State.flag_out (s : State) (r : Reg) (i : Nat) : (s.flag r i).out = s.out := rfl
@[simp] theorem State.flag_pending (s : State) (r : Reg) (i : Nat) : (s.flag r i).pending = s.pending := rfl

/-! ### unflag -/

@[simp] theorem State.unflag_shadow (s : State) (r : Reg) (i : Nat) : (s.unflag r i).shadow = s.shadow := rfl
@[simp] theorem State.unflag_mem (s : State) (r : Reg) (i : Nat) : (s.unflag r i).mem = s.mem := rfl
@[simp] theorem State.unflag_control (s : State) (r : Reg) (i : Nat) : (s.unflag r i).control = s.control := rfl
@[simp] theorem State.unflag_staged (s : State) (r : Reg) (i : Nat) : (s.unflag r i).staged = s.staged := rfl
@[simp] theorem State.unflag_timebase (s : State) (r : Reg) (i : Nat) : (s.unflag r i).timebase = s.timebase := rfl
@[simp] theorem State.unflag_draws (s : State) (r : Reg) (i : Nat) : (s.unflag r i).draws = s.draws := rfl
@[simp] theorem State.unflag_events (s : State) (r : Reg) (i : Nat) : (s.unflag r i).events = s.events := rfl
@[simp] theorem State.unflag_eventSeq (s : State) (r : Reg) (i : Nat) : (s.unflag r i).eventSeq = s.eventSeq := rfl
@[simp] theorem State.unflag_fret (s : State) (r : Reg) (i : Nat) : (s.unflag r i).fret = s.fret := rfl
@[simp] theorem State.unflag_capo (s : State) (r : Reg) (i : Nat) : (s.unflag r i).capo = s.capo := rfl
@[simp] theorem State.unflag_spe (s : State) (r : Reg) (i : Nat) : (s.unflag r i).spe = s.spe := rfl
@[simp] theorem State.unflag_str (s : State) (r : Reg) (i : Nat) : (s.unflag r i).str = s.str := rfl
@[simp] theorem State.unflag_harp (s : State) (r : Reg) (i : Nat) : (s.unflag r i).harp = s.harp := rfl
@[simp] theorem State.unflag_host (s : State) (r : Reg) (i : Nat) : (s.unflag r i).host = s.host := rfl
@[simp] theorem State.unflag_bridge (s : State) (r : Reg) (i : Nat) : (s.unflag r i).bridge = s.bridge := rfl
@[simp] theorem State.unflag_cab (s : State) (r : Reg) (i : Nat) : (s.unflag r i).cab = s.cab := rfl
@[simp] theorem State.unflag_phv (s : State) (r : Reg) (i : Nat) : (s.unflag r i).phv = s.phv := rfl
@[simp] theorem State.unflag_memory (s : State) (r : Reg) (i : Nat) : (s.unflag r i).memory = s.memory := rfl
@[simp] theorem State.unflag_bur (s : State) (r : Reg) (i : Nat) : (s.unflag r i).bur = s.bur := rfl
@[simp] theorem State.unflag_power (s : State) (r : Reg) (i : Nat) : (s.unflag r i).power = s.power := rfl
@[simp] theorem State.unflag_cal (s : State) (r : Reg) (i : Nat) : (s.unflag r i).cal = s.cal := rfl
@[simp] theorem State.unflag_therm (s : State) (r : Reg) (i : Nat) : (s.unflag r i).therm = s.therm := rfl
@[simp] theorem State.unflag_lc (s : State) (r : Reg) (i : Nat) : (s.unflag r i).lc = s.lc := rfl
@[simp] theorem State.unflag_bench (s : State) (r : Reg) (i : Nat) : (s.unflag r i).bench = s.bench := rfl
@[simp] theorem State.unflag_out (s : State) (r : Reg) (i : Nat) : (s.unflag r i).out = s.out := rfl
@[simp] theorem State.unflag_pending (s : State) (r : Reg) (i : Nat) : (s.unflag r i).pending = s.pending := rfl

/-! ### setTo -/

@[simp] theorem State.setTo_shadow (s : State) (r : Reg) (b : Bool) (i : Nat) : (s.setTo r b i).shadow = s.shadow := rfl
@[simp] theorem State.setTo_mem (s : State) (r : Reg) (b : Bool) (i : Nat) : (s.setTo r b i).mem = s.mem := rfl
@[simp] theorem State.setTo_control (s : State) (r : Reg) (b : Bool) (i : Nat) : (s.setTo r b i).control = s.control := rfl
@[simp] theorem State.setTo_staged (s : State) (r : Reg) (b : Bool) (i : Nat) : (s.setTo r b i).staged = s.staged := rfl
@[simp] theorem State.setTo_timebase (s : State) (r : Reg) (b : Bool) (i : Nat) : (s.setTo r b i).timebase = s.timebase := rfl
@[simp] theorem State.setTo_draws (s : State) (r : Reg) (b : Bool) (i : Nat) : (s.setTo r b i).draws = s.draws := rfl
@[simp] theorem State.setTo_events (s : State) (r : Reg) (b : Bool) (i : Nat) : (s.setTo r b i).events = s.events := rfl
@[simp] theorem State.setTo_eventSeq (s : State) (r : Reg) (b : Bool) (i : Nat) : (s.setTo r b i).eventSeq = s.eventSeq := rfl
@[simp] theorem State.setTo_fret (s : State) (r : Reg) (b : Bool) (i : Nat) : (s.setTo r b i).fret = s.fret := rfl
@[simp] theorem State.setTo_capo (s : State) (r : Reg) (b : Bool) (i : Nat) : (s.setTo r b i).capo = s.capo := rfl
@[simp] theorem State.setTo_spe (s : State) (r : Reg) (b : Bool) (i : Nat) : (s.setTo r b i).spe = s.spe := rfl
@[simp] theorem State.setTo_str (s : State) (r : Reg) (b : Bool) (i : Nat) : (s.setTo r b i).str = s.str := rfl
@[simp] theorem State.setTo_harp (s : State) (r : Reg) (b : Bool) (i : Nat) : (s.setTo r b i).harp = s.harp := rfl
@[simp] theorem State.setTo_host (s : State) (r : Reg) (b : Bool) (i : Nat) : (s.setTo r b i).host = s.host := rfl
@[simp] theorem State.setTo_bridge (s : State) (r : Reg) (b : Bool) (i : Nat) : (s.setTo r b i).bridge = s.bridge := rfl
@[simp] theorem State.setTo_cab (s : State) (r : Reg) (b : Bool) (i : Nat) : (s.setTo r b i).cab = s.cab := rfl
@[simp] theorem State.setTo_phv (s : State) (r : Reg) (b : Bool) (i : Nat) : (s.setTo r b i).phv = s.phv := rfl
@[simp] theorem State.setTo_memory (s : State) (r : Reg) (b : Bool) (i : Nat) : (s.setTo r b i).memory = s.memory := rfl
@[simp] theorem State.setTo_bur (s : State) (r : Reg) (b : Bool) (i : Nat) : (s.setTo r b i).bur = s.bur := rfl
@[simp] theorem State.setTo_power (s : State) (r : Reg) (b : Bool) (i : Nat) : (s.setTo r b i).power = s.power := rfl
@[simp] theorem State.setTo_cal (s : State) (r : Reg) (b : Bool) (i : Nat) : (s.setTo r b i).cal = s.cal := rfl
@[simp] theorem State.setTo_therm (s : State) (r : Reg) (b : Bool) (i : Nat) : (s.setTo r b i).therm = s.therm := rfl
@[simp] theorem State.setTo_lc (s : State) (r : Reg) (b : Bool) (i : Nat) : (s.setTo r b i).lc = s.lc := rfl
@[simp] theorem State.setTo_bench (s : State) (r : Reg) (b : Bool) (i : Nat) : (s.setTo r b i).bench = s.bench := rfl
@[simp] theorem State.setTo_out (s : State) (r : Reg) (b : Bool) (i : Nat) : (s.setTo r b i).out = s.out := rfl
@[simp] theorem State.setTo_pending (s : State) (r : Reg) (b : Bool) (i : Nat) : (s.setTo r b i).pending = s.pending := rfl

/-! ### flagBit -/

@[simp] theorem State.flagBit_shadow (s : State) (r : Reg) (n i : Nat) : (s.flagBit r n i).shadow = s.shadow := rfl
@[simp] theorem State.flagBit_mem (s : State) (r : Reg) (n i : Nat) : (s.flagBit r n i).mem = s.mem := rfl
@[simp] theorem State.flagBit_control (s : State) (r : Reg) (n i : Nat) : (s.flagBit r n i).control = s.control := rfl
@[simp] theorem State.flagBit_staged (s : State) (r : Reg) (n i : Nat) : (s.flagBit r n i).staged = s.staged := rfl
@[simp] theorem State.flagBit_timebase (s : State) (r : Reg) (n i : Nat) : (s.flagBit r n i).timebase = s.timebase := rfl
@[simp] theorem State.flagBit_draws (s : State) (r : Reg) (n i : Nat) : (s.flagBit r n i).draws = s.draws := rfl
@[simp] theorem State.flagBit_events (s : State) (r : Reg) (n i : Nat) : (s.flagBit r n i).events = s.events := rfl
@[simp] theorem State.flagBit_eventSeq (s : State) (r : Reg) (n i : Nat) : (s.flagBit r n i).eventSeq = s.eventSeq := rfl
@[simp] theorem State.flagBit_fret (s : State) (r : Reg) (n i : Nat) : (s.flagBit r n i).fret = s.fret := rfl
@[simp] theorem State.flagBit_capo (s : State) (r : Reg) (n i : Nat) : (s.flagBit r n i).capo = s.capo := rfl
@[simp] theorem State.flagBit_spe (s : State) (r : Reg) (n i : Nat) : (s.flagBit r n i).spe = s.spe := rfl
@[simp] theorem State.flagBit_str (s : State) (r : Reg) (n i : Nat) : (s.flagBit r n i).str = s.str := rfl
@[simp] theorem State.flagBit_harp (s : State) (r : Reg) (n i : Nat) : (s.flagBit r n i).harp = s.harp := rfl
@[simp] theorem State.flagBit_host (s : State) (r : Reg) (n i : Nat) : (s.flagBit r n i).host = s.host := rfl
@[simp] theorem State.flagBit_bridge (s : State) (r : Reg) (n i : Nat) : (s.flagBit r n i).bridge = s.bridge := rfl
@[simp] theorem State.flagBit_cab (s : State) (r : Reg) (n i : Nat) : (s.flagBit r n i).cab = s.cab := rfl
@[simp] theorem State.flagBit_phv (s : State) (r : Reg) (n i : Nat) : (s.flagBit r n i).phv = s.phv := rfl
@[simp] theorem State.flagBit_memory (s : State) (r : Reg) (n i : Nat) : (s.flagBit r n i).memory = s.memory := rfl
@[simp] theorem State.flagBit_bur (s : State) (r : Reg) (n i : Nat) : (s.flagBit r n i).bur = s.bur := rfl
@[simp] theorem State.flagBit_power (s : State) (r : Reg) (n i : Nat) : (s.flagBit r n i).power = s.power := rfl
@[simp] theorem State.flagBit_cal (s : State) (r : Reg) (n i : Nat) : (s.flagBit r n i).cal = s.cal := rfl
@[simp] theorem State.flagBit_therm (s : State) (r : Reg) (n i : Nat) : (s.flagBit r n i).therm = s.therm := rfl
@[simp] theorem State.flagBit_lc (s : State) (r : Reg) (n i : Nat) : (s.flagBit r n i).lc = s.lc := rfl
@[simp] theorem State.flagBit_bench (s : State) (r : Reg) (n i : Nat) : (s.flagBit r n i).bench = s.bench := rfl
@[simp] theorem State.flagBit_out (s : State) (r : Reg) (n i : Nat) : (s.flagBit r n i).out = s.out := rfl
@[simp] theorem State.flagBit_pending (s : State) (r : Reg) (n i : Nat) : (s.flagBit r n i).pending = s.pending := rfl

/-! ### unflagBit -/

@[simp] theorem State.unflagBit_shadow (s : State) (r : Reg) (n i : Nat) : (s.unflagBit r n i).shadow = s.shadow := rfl
@[simp] theorem State.unflagBit_mem (s : State) (r : Reg) (n i : Nat) : (s.unflagBit r n i).mem = s.mem := rfl
@[simp] theorem State.unflagBit_control (s : State) (r : Reg) (n i : Nat) : (s.unflagBit r n i).control = s.control := rfl
@[simp] theorem State.unflagBit_staged (s : State) (r : Reg) (n i : Nat) : (s.unflagBit r n i).staged = s.staged := rfl
@[simp] theorem State.unflagBit_timebase (s : State) (r : Reg) (n i : Nat) : (s.unflagBit r n i).timebase = s.timebase := rfl
@[simp] theorem State.unflagBit_draws (s : State) (r : Reg) (n i : Nat) : (s.unflagBit r n i).draws = s.draws := rfl
@[simp] theorem State.unflagBit_events (s : State) (r : Reg) (n i : Nat) : (s.unflagBit r n i).events = s.events := rfl
@[simp] theorem State.unflagBit_eventSeq (s : State) (r : Reg) (n i : Nat) : (s.unflagBit r n i).eventSeq = s.eventSeq := rfl
@[simp] theorem State.unflagBit_fret (s : State) (r : Reg) (n i : Nat) : (s.unflagBit r n i).fret = s.fret := rfl
@[simp] theorem State.unflagBit_capo (s : State) (r : Reg) (n i : Nat) : (s.unflagBit r n i).capo = s.capo := rfl
@[simp] theorem State.unflagBit_spe (s : State) (r : Reg) (n i : Nat) : (s.unflagBit r n i).spe = s.spe := rfl
@[simp] theorem State.unflagBit_str (s : State) (r : Reg) (n i : Nat) : (s.unflagBit r n i).str = s.str := rfl
@[simp] theorem State.unflagBit_harp (s : State) (r : Reg) (n i : Nat) : (s.unflagBit r n i).harp = s.harp := rfl
@[simp] theorem State.unflagBit_host (s : State) (r : Reg) (n i : Nat) : (s.unflagBit r n i).host = s.host := rfl
@[simp] theorem State.unflagBit_bridge (s : State) (r : Reg) (n i : Nat) : (s.unflagBit r n i).bridge = s.bridge := rfl
@[simp] theorem State.unflagBit_cab (s : State) (r : Reg) (n i : Nat) : (s.unflagBit r n i).cab = s.cab := rfl
@[simp] theorem State.unflagBit_phv (s : State) (r : Reg) (n i : Nat) : (s.unflagBit r n i).phv = s.phv := rfl
@[simp] theorem State.unflagBit_memory (s : State) (r : Reg) (n i : Nat) : (s.unflagBit r n i).memory = s.memory := rfl
@[simp] theorem State.unflagBit_bur (s : State) (r : Reg) (n i : Nat) : (s.unflagBit r n i).bur = s.bur := rfl
@[simp] theorem State.unflagBit_power (s : State) (r : Reg) (n i : Nat) : (s.unflagBit r n i).power = s.power := rfl
@[simp] theorem State.unflagBit_cal (s : State) (r : Reg) (n i : Nat) : (s.unflagBit r n i).cal = s.cal := rfl
@[simp] theorem State.unflagBit_therm (s : State) (r : Reg) (n i : Nat) : (s.unflagBit r n i).therm = s.therm := rfl
@[simp] theorem State.unflagBit_lc (s : State) (r : Reg) (n i : Nat) : (s.unflagBit r n i).lc = s.lc := rfl
@[simp] theorem State.unflagBit_bench (s : State) (r : Reg) (n i : Nat) : (s.unflagBit r n i).bench = s.bench := rfl
@[simp] theorem State.unflagBit_out (s : State) (r : Reg) (n i : Nat) : (s.unflagBit r n i).out = s.out := rfl
@[simp] theorem State.unflagBit_pending (s : State) (r : Reg) (n i : Nat) : (s.unflagBit r n i).pending = s.pending := rfl

/-! ### bump -/

@[simp] theorem State.bump_shadow (s : State) (r : Reg) (i k : Nat) : (s.bump r i k).shadow = s.shadow := rfl
@[simp] theorem State.bump_mem (s : State) (r : Reg) (i k : Nat) : (s.bump r i k).mem = s.mem := rfl
@[simp] theorem State.bump_control (s : State) (r : Reg) (i k : Nat) : (s.bump r i k).control = s.control := rfl
@[simp] theorem State.bump_staged (s : State) (r : Reg) (i k : Nat) : (s.bump r i k).staged = s.staged := rfl
@[simp] theorem State.bump_timebase (s : State) (r : Reg) (i k : Nat) : (s.bump r i k).timebase = s.timebase := rfl
@[simp] theorem State.bump_draws (s : State) (r : Reg) (i k : Nat) : (s.bump r i k).draws = s.draws := rfl
@[simp] theorem State.bump_events (s : State) (r : Reg) (i k : Nat) : (s.bump r i k).events = s.events := rfl
@[simp] theorem State.bump_eventSeq (s : State) (r : Reg) (i k : Nat) : (s.bump r i k).eventSeq = s.eventSeq := rfl
@[simp] theorem State.bump_fret (s : State) (r : Reg) (i k : Nat) : (s.bump r i k).fret = s.fret := rfl
@[simp] theorem State.bump_capo (s : State) (r : Reg) (i k : Nat) : (s.bump r i k).capo = s.capo := rfl
@[simp] theorem State.bump_spe (s : State) (r : Reg) (i k : Nat) : (s.bump r i k).spe = s.spe := rfl
@[simp] theorem State.bump_str (s : State) (r : Reg) (i k : Nat) : (s.bump r i k).str = s.str := rfl
@[simp] theorem State.bump_harp (s : State) (r : Reg) (i k : Nat) : (s.bump r i k).harp = s.harp := rfl
@[simp] theorem State.bump_host (s : State) (r : Reg) (i k : Nat) : (s.bump r i k).host = s.host := rfl
@[simp] theorem State.bump_bridge (s : State) (r : Reg) (i k : Nat) : (s.bump r i k).bridge = s.bridge := rfl
@[simp] theorem State.bump_cab (s : State) (r : Reg) (i k : Nat) : (s.bump r i k).cab = s.cab := rfl
@[simp] theorem State.bump_phv (s : State) (r : Reg) (i k : Nat) : (s.bump r i k).phv = s.phv := rfl
@[simp] theorem State.bump_memory (s : State) (r : Reg) (i k : Nat) : (s.bump r i k).memory = s.memory := rfl
@[simp] theorem State.bump_bur (s : State) (r : Reg) (i k : Nat) : (s.bump r i k).bur = s.bur := rfl
@[simp] theorem State.bump_power (s : State) (r : Reg) (i k : Nat) : (s.bump r i k).power = s.power := rfl
@[simp] theorem State.bump_cal (s : State) (r : Reg) (i k : Nat) : (s.bump r i k).cal = s.cal := rfl
@[simp] theorem State.bump_therm (s : State) (r : Reg) (i k : Nat) : (s.bump r i k).therm = s.therm := rfl
@[simp] theorem State.bump_lc (s : State) (r : Reg) (i k : Nat) : (s.bump r i k).lc = s.lc := rfl
@[simp] theorem State.bump_bench (s : State) (r : Reg) (i k : Nat) : (s.bump r i k).bench = s.bench := rfl
@[simp] theorem State.bump_out (s : State) (r : Reg) (i k : Nat) : (s.bump r i k).out = s.out := rfl
@[simp] theorem State.bump_pending (s : State) (r : Reg) (i k : Nat) : (s.bump r i k).pending = s.pending := rfl

/-! ### wrapInc -/

@[simp] theorem State.wrapInc_shadow (s : State) (r : Reg) (i : Nat) : (s.wrapInc r i).shadow = s.shadow := rfl
@[simp] theorem State.wrapInc_mem (s : State) (r : Reg) (i : Nat) : (s.wrapInc r i).mem = s.mem := rfl
@[simp] theorem State.wrapInc_control (s : State) (r : Reg) (i : Nat) : (s.wrapInc r i).control = s.control := rfl
@[simp] theorem State.wrapInc_staged (s : State) (r : Reg) (i : Nat) : (s.wrapInc r i).staged = s.staged := rfl
@[simp] theorem State.wrapInc_timebase (s : State) (r : Reg) (i : Nat) : (s.wrapInc r i).timebase = s.timebase := rfl
@[simp] theorem State.wrapInc_draws (s : State) (r : Reg) (i : Nat) : (s.wrapInc r i).draws = s.draws := rfl
@[simp] theorem State.wrapInc_events (s : State) (r : Reg) (i : Nat) : (s.wrapInc r i).events = s.events := rfl
@[simp] theorem State.wrapInc_eventSeq (s : State) (r : Reg) (i : Nat) : (s.wrapInc r i).eventSeq = s.eventSeq := rfl
@[simp] theorem State.wrapInc_fret (s : State) (r : Reg) (i : Nat) : (s.wrapInc r i).fret = s.fret := rfl
@[simp] theorem State.wrapInc_capo (s : State) (r : Reg) (i : Nat) : (s.wrapInc r i).capo = s.capo := rfl
@[simp] theorem State.wrapInc_spe (s : State) (r : Reg) (i : Nat) : (s.wrapInc r i).spe = s.spe := rfl
@[simp] theorem State.wrapInc_str (s : State) (r : Reg) (i : Nat) : (s.wrapInc r i).str = s.str := rfl
@[simp] theorem State.wrapInc_harp (s : State) (r : Reg) (i : Nat) : (s.wrapInc r i).harp = s.harp := rfl
@[simp] theorem State.wrapInc_host (s : State) (r : Reg) (i : Nat) : (s.wrapInc r i).host = s.host := rfl
@[simp] theorem State.wrapInc_bridge (s : State) (r : Reg) (i : Nat) : (s.wrapInc r i).bridge = s.bridge := rfl
@[simp] theorem State.wrapInc_cab (s : State) (r : Reg) (i : Nat) : (s.wrapInc r i).cab = s.cab := rfl
@[simp] theorem State.wrapInc_phv (s : State) (r : Reg) (i : Nat) : (s.wrapInc r i).phv = s.phv := rfl
@[simp] theorem State.wrapInc_memory (s : State) (r : Reg) (i : Nat) : (s.wrapInc r i).memory = s.memory := rfl
@[simp] theorem State.wrapInc_bur (s : State) (r : Reg) (i : Nat) : (s.wrapInc r i).bur = s.bur := rfl
@[simp] theorem State.wrapInc_power (s : State) (r : Reg) (i : Nat) : (s.wrapInc r i).power = s.power := rfl
@[simp] theorem State.wrapInc_cal (s : State) (r : Reg) (i : Nat) : (s.wrapInc r i).cal = s.cal := rfl
@[simp] theorem State.wrapInc_therm (s : State) (r : Reg) (i : Nat) : (s.wrapInc r i).therm = s.therm := rfl
@[simp] theorem State.wrapInc_lc (s : State) (r : Reg) (i : Nat) : (s.wrapInc r i).lc = s.lc := rfl
@[simp] theorem State.wrapInc_bench (s : State) (r : Reg) (i : Nat) : (s.wrapInc r i).bench = s.bench := rfl
@[simp] theorem State.wrapInc_out (s : State) (r : Reg) (i : Nat) : (s.wrapInc r i).out = s.out := rfl
@[simp] theorem State.wrapInc_pending (s : State) (r : Reg) (i : Nat) : (s.wrapInc r i).pending = s.pending := rfl

/-! ### shadowWr -/

@[simp] theorem State.shadowWr_regs (s : State) (r : Reg) (v i : Nat) : (s.shadowWr r v i).regs = s.regs := rfl
@[simp] theorem State.shadowWr_mem (s : State) (r : Reg) (v i : Nat) : (s.shadowWr r v i).mem = s.mem := rfl
@[simp] theorem State.shadowWr_control (s : State) (r : Reg) (v i : Nat) : (s.shadowWr r v i).control = s.control := rfl
@[simp] theorem State.shadowWr_staged (s : State) (r : Reg) (v i : Nat) : (s.shadowWr r v i).staged = s.staged := rfl
@[simp] theorem State.shadowWr_timebase (s : State) (r : Reg) (v i : Nat) : (s.shadowWr r v i).timebase = s.timebase := rfl
@[simp] theorem State.shadowWr_draws (s : State) (r : Reg) (v i : Nat) : (s.shadowWr r v i).draws = s.draws := rfl
@[simp] theorem State.shadowWr_events (s : State) (r : Reg) (v i : Nat) : (s.shadowWr r v i).events = s.events := rfl
@[simp] theorem State.shadowWr_eventSeq (s : State) (r : Reg) (v i : Nat) : (s.shadowWr r v i).eventSeq = s.eventSeq := rfl
@[simp] theorem State.shadowWr_fret (s : State) (r : Reg) (v i : Nat) : (s.shadowWr r v i).fret = s.fret := rfl
@[simp] theorem State.shadowWr_capo (s : State) (r : Reg) (v i : Nat) : (s.shadowWr r v i).capo = s.capo := rfl
@[simp] theorem State.shadowWr_spe (s : State) (r : Reg) (v i : Nat) : (s.shadowWr r v i).spe = s.spe := rfl
@[simp] theorem State.shadowWr_str (s : State) (r : Reg) (v i : Nat) : (s.shadowWr r v i).str = s.str := rfl
@[simp] theorem State.shadowWr_harp (s : State) (r : Reg) (v i : Nat) : (s.shadowWr r v i).harp = s.harp := rfl
@[simp] theorem State.shadowWr_host (s : State) (r : Reg) (v i : Nat) : (s.shadowWr r v i).host = s.host := rfl
@[simp] theorem State.shadowWr_bridge (s : State) (r : Reg) (v i : Nat) : (s.shadowWr r v i).bridge = s.bridge := rfl
@[simp] theorem State.shadowWr_cab (s : State) (r : Reg) (v i : Nat) : (s.shadowWr r v i).cab = s.cab := rfl
@[simp] theorem State.shadowWr_phv (s : State) (r : Reg) (v i : Nat) : (s.shadowWr r v i).phv = s.phv := rfl
@[simp] theorem State.shadowWr_memory (s : State) (r : Reg) (v i : Nat) : (s.shadowWr r v i).memory = s.memory := rfl
@[simp] theorem State.shadowWr_bur (s : State) (r : Reg) (v i : Nat) : (s.shadowWr r v i).bur = s.bur := rfl
@[simp] theorem State.shadowWr_power (s : State) (r : Reg) (v i : Nat) : (s.shadowWr r v i).power = s.power := rfl
@[simp] theorem State.shadowWr_cal (s : State) (r : Reg) (v i : Nat) : (s.shadowWr r v i).cal = s.cal := rfl
@[simp] theorem State.shadowWr_therm (s : State) (r : Reg) (v i : Nat) : (s.shadowWr r v i).therm = s.therm := rfl
@[simp] theorem State.shadowWr_lc (s : State) (r : Reg) (v i : Nat) : (s.shadowWr r v i).lc = s.lc := rfl
@[simp] theorem State.shadowWr_bench (s : State) (r : Reg) (v i : Nat) : (s.shadowWr r v i).bench = s.bench := rfl
@[simp] theorem State.shadowWr_out (s : State) (r : Reg) (v i : Nat) : (s.shadowWr r v i).out = s.out := rfl
@[simp] theorem State.shadowWr_pending (s : State) (r : Reg) (v i : Nat) : (s.shadowWr r v i).pending = s.pending := rfl
@[simp] theorem State.shadowWr_rd (s : State) (r : Reg) (v i : Nat) (r' : Reg) (j : Nat) : (s.shadowWr r v i).rd r' j = s.rd r' j := rfl

/-! ### shadowDrop -/

@[simp] theorem State.shadowDrop_regs (s : State) (r : Reg) (i : Nat) : (s.shadowDrop r i).regs = s.regs := rfl
@[simp] theorem State.shadowDrop_mem (s : State) (r : Reg) (i : Nat) : (s.shadowDrop r i).mem = s.mem := rfl
@[simp] theorem State.shadowDrop_control (s : State) (r : Reg) (i : Nat) : (s.shadowDrop r i).control = s.control := rfl
@[simp] theorem State.shadowDrop_staged (s : State) (r : Reg) (i : Nat) : (s.shadowDrop r i).staged = s.staged := rfl
@[simp] theorem State.shadowDrop_timebase (s : State) (r : Reg) (i : Nat) : (s.shadowDrop r i).timebase = s.timebase := rfl
@[simp] theorem State.shadowDrop_draws (s : State) (r : Reg) (i : Nat) : (s.shadowDrop r i).draws = s.draws := rfl
@[simp] theorem State.shadowDrop_events (s : State) (r : Reg) (i : Nat) : (s.shadowDrop r i).events = s.events := rfl
@[simp] theorem State.shadowDrop_eventSeq (s : State) (r : Reg) (i : Nat) : (s.shadowDrop r i).eventSeq = s.eventSeq := rfl
@[simp] theorem State.shadowDrop_fret (s : State) (r : Reg) (i : Nat) : (s.shadowDrop r i).fret = s.fret := rfl
@[simp] theorem State.shadowDrop_capo (s : State) (r : Reg) (i : Nat) : (s.shadowDrop r i).capo = s.capo := rfl
@[simp] theorem State.shadowDrop_spe (s : State) (r : Reg) (i : Nat) : (s.shadowDrop r i).spe = s.spe := rfl
@[simp] theorem State.shadowDrop_str (s : State) (r : Reg) (i : Nat) : (s.shadowDrop r i).str = s.str := rfl
@[simp] theorem State.shadowDrop_harp (s : State) (r : Reg) (i : Nat) : (s.shadowDrop r i).harp = s.harp := rfl
@[simp] theorem State.shadowDrop_host (s : State) (r : Reg) (i : Nat) : (s.shadowDrop r i).host = s.host := rfl
@[simp] theorem State.shadowDrop_bridge (s : State) (r : Reg) (i : Nat) : (s.shadowDrop r i).bridge = s.bridge := rfl
@[simp] theorem State.shadowDrop_cab (s : State) (r : Reg) (i : Nat) : (s.shadowDrop r i).cab = s.cab := rfl
@[simp] theorem State.shadowDrop_phv (s : State) (r : Reg) (i : Nat) : (s.shadowDrop r i).phv = s.phv := rfl
@[simp] theorem State.shadowDrop_memory (s : State) (r : Reg) (i : Nat) : (s.shadowDrop r i).memory = s.memory := rfl
@[simp] theorem State.shadowDrop_bur (s : State) (r : Reg) (i : Nat) : (s.shadowDrop r i).bur = s.bur := rfl
@[simp] theorem State.shadowDrop_power (s : State) (r : Reg) (i : Nat) : (s.shadowDrop r i).power = s.power := rfl
@[simp] theorem State.shadowDrop_cal (s : State) (r : Reg) (i : Nat) : (s.shadowDrop r i).cal = s.cal := rfl
@[simp] theorem State.shadowDrop_therm (s : State) (r : Reg) (i : Nat) : (s.shadowDrop r i).therm = s.therm := rfl
@[simp] theorem State.shadowDrop_lc (s : State) (r : Reg) (i : Nat) : (s.shadowDrop r i).lc = s.lc := rfl
@[simp] theorem State.shadowDrop_bench (s : State) (r : Reg) (i : Nat) : (s.shadowDrop r i).bench = s.bench := rfl
@[simp] theorem State.shadowDrop_out (s : State) (r : Reg) (i : Nat) : (s.shadowDrop r i).out = s.out := rfl
@[simp] theorem State.shadowDrop_pending (s : State) (r : Reg) (i : Nat) : (s.shadowDrop r i).pending = s.pending := rfl
@[simp] theorem State.shadowDrop_rd (s : State) (r : Reg) (i : Nat) (r' : Reg) (j : Nat) : (s.shadowDrop r i).rd r' j = s.rd r' j := rfl

/-! ### modStr -/

@[simp] theorem State.modStr_regs (s : State) (x : Str) (f : StringState → StringState) : (s.modStr x f).regs = s.regs := rfl
@[simp] theorem State.modStr_shadow (s : State) (x : Str) (f : StringState → StringState) : (s.modStr x f).shadow = s.shadow := rfl
@[simp] theorem State.modStr_mem (s : State) (x : Str) (f : StringState → StringState) : (s.modStr x f).mem = s.mem := rfl
@[simp] theorem State.modStr_control (s : State) (x : Str) (f : StringState → StringState) : (s.modStr x f).control = s.control := rfl
@[simp] theorem State.modStr_staged (s : State) (x : Str) (f : StringState → StringState) : (s.modStr x f).staged = s.staged := rfl
@[simp] theorem State.modStr_timebase (s : State) (x : Str) (f : StringState → StringState) : (s.modStr x f).timebase = s.timebase := rfl
@[simp] theorem State.modStr_draws (s : State) (x : Str) (f : StringState → StringState) : (s.modStr x f).draws = s.draws := rfl
@[simp] theorem State.modStr_events (s : State) (x : Str) (f : StringState → StringState) : (s.modStr x f).events = s.events := rfl
@[simp] theorem State.modStr_eventSeq (s : State) (x : Str) (f : StringState → StringState) : (s.modStr x f).eventSeq = s.eventSeq := rfl
@[simp] theorem State.modStr_fret (s : State) (x : Str) (f : StringState → StringState) : (s.modStr x f).fret = s.fret := rfl
@[simp] theorem State.modStr_capo (s : State) (x : Str) (f : StringState → StringState) : (s.modStr x f).capo = s.capo := rfl
@[simp] theorem State.modStr_spe (s : State) (x : Str) (f : StringState → StringState) : (s.modStr x f).spe = s.spe := rfl
@[simp] theorem State.modStr_harp (s : State) (x : Str) (f : StringState → StringState) : (s.modStr x f).harp = s.harp := rfl
@[simp] theorem State.modStr_host (s : State) (x : Str) (f : StringState → StringState) : (s.modStr x f).host = s.host := rfl
@[simp] theorem State.modStr_bridge (s : State) (x : Str) (f : StringState → StringState) : (s.modStr x f).bridge = s.bridge := rfl
@[simp] theorem State.modStr_cab (s : State) (x : Str) (f : StringState → StringState) : (s.modStr x f).cab = s.cab := rfl
@[simp] theorem State.modStr_phv (s : State) (x : Str) (f : StringState → StringState) : (s.modStr x f).phv = s.phv := rfl
@[simp] theorem State.modStr_memory (s : State) (x : Str) (f : StringState → StringState) : (s.modStr x f).memory = s.memory := rfl
@[simp] theorem State.modStr_bur (s : State) (x : Str) (f : StringState → StringState) : (s.modStr x f).bur = s.bur := rfl
@[simp] theorem State.modStr_power (s : State) (x : Str) (f : StringState → StringState) : (s.modStr x f).power = s.power := rfl
@[simp] theorem State.modStr_cal (s : State) (x : Str) (f : StringState → StringState) : (s.modStr x f).cal = s.cal := rfl
@[simp] theorem State.modStr_therm (s : State) (x : Str) (f : StringState → StringState) : (s.modStr x f).therm = s.therm := rfl
@[simp] theorem State.modStr_lc (s : State) (x : Str) (f : StringState → StringState) : (s.modStr x f).lc = s.lc := rfl
@[simp] theorem State.modStr_bench (s : State) (x : Str) (f : StringState → StringState) : (s.modStr x f).bench = s.bench := rfl
@[simp] theorem State.modStr_out (s : State) (x : Str) (f : StringState → StringState) : (s.modStr x f).out = s.out := rfl
@[simp] theorem State.modStr_pending (s : State) (x : Str) (f : StringState → StringState) : (s.modStr x f).pending = s.pending := rfl
@[simp] theorem State.modStr_rd (s : State) (x : Str) (f : StringState → StringState) (r' : Reg) (j : Nat) : (s.modStr x f).rd r' j = s.rd r' j := rfl

/-! ### modSce -/

@[simp] theorem State.modSce_regs (s : State) (x : Str) (f : Sce → Sce) : (s.modSce x f).regs = s.regs := rfl
@[simp] theorem State.modSce_shadow (s : State) (x : Str) (f : Sce → Sce) : (s.modSce x f).shadow = s.shadow := rfl
@[simp] theorem State.modSce_mem (s : State) (x : Str) (f : Sce → Sce) : (s.modSce x f).mem = s.mem := rfl
@[simp] theorem State.modSce_control (s : State) (x : Str) (f : Sce → Sce) : (s.modSce x f).control = s.control := rfl
@[simp] theorem State.modSce_staged (s : State) (x : Str) (f : Sce → Sce) : (s.modSce x f).staged = s.staged := rfl
@[simp] theorem State.modSce_timebase (s : State) (x : Str) (f : Sce → Sce) : (s.modSce x f).timebase = s.timebase := rfl
@[simp] theorem State.modSce_draws (s : State) (x : Str) (f : Sce → Sce) : (s.modSce x f).draws = s.draws := rfl
@[simp] theorem State.modSce_events (s : State) (x : Str) (f : Sce → Sce) : (s.modSce x f).events = s.events := rfl
@[simp] theorem State.modSce_eventSeq (s : State) (x : Str) (f : Sce → Sce) : (s.modSce x f).eventSeq = s.eventSeq := rfl
@[simp] theorem State.modSce_fret (s : State) (x : Str) (f : Sce → Sce) : (s.modSce x f).fret = s.fret := rfl
@[simp] theorem State.modSce_capo (s : State) (x : Str) (f : Sce → Sce) : (s.modSce x f).capo = s.capo := rfl
@[simp] theorem State.modSce_spe (s : State) (x : Str) (f : Sce → Sce) : (s.modSce x f).spe = s.spe := rfl
@[simp] theorem State.modSce_harp (s : State) (x : Str) (f : Sce → Sce) : (s.modSce x f).harp = s.harp := rfl
@[simp] theorem State.modSce_host (s : State) (x : Str) (f : Sce → Sce) : (s.modSce x f).host = s.host := rfl
@[simp] theorem State.modSce_bridge (s : State) (x : Str) (f : Sce → Sce) : (s.modSce x f).bridge = s.bridge := rfl
@[simp] theorem State.modSce_cab (s : State) (x : Str) (f : Sce → Sce) : (s.modSce x f).cab = s.cab := rfl
@[simp] theorem State.modSce_phv (s : State) (x : Str) (f : Sce → Sce) : (s.modSce x f).phv = s.phv := rfl
@[simp] theorem State.modSce_memory (s : State) (x : Str) (f : Sce → Sce) : (s.modSce x f).memory = s.memory := rfl
@[simp] theorem State.modSce_bur (s : State) (x : Str) (f : Sce → Sce) : (s.modSce x f).bur = s.bur := rfl
@[simp] theorem State.modSce_power (s : State) (x : Str) (f : Sce → Sce) : (s.modSce x f).power = s.power := rfl
@[simp] theorem State.modSce_cal (s : State) (x : Str) (f : Sce → Sce) : (s.modSce x f).cal = s.cal := rfl
@[simp] theorem State.modSce_therm (s : State) (x : Str) (f : Sce → Sce) : (s.modSce x f).therm = s.therm := rfl
@[simp] theorem State.modSce_lc (s : State) (x : Str) (f : Sce → Sce) : (s.modSce x f).lc = s.lc := rfl
@[simp] theorem State.modSce_bench (s : State) (x : Str) (f : Sce → Sce) : (s.modSce x f).bench = s.bench := rfl
@[simp] theorem State.modSce_out (s : State) (x : Str) (f : Sce → Sce) : (s.modSce x f).out = s.out := rfl
@[simp] theorem State.modSce_pending (s : State) (x : Str) (f : Sce → Sce) : (s.modSce x f).pending = s.pending := rfl
@[simp] theorem State.modSce_rd (s : State) (x : Str) (f : Sce → Sce) (r' : Reg) (j : Nat) : (s.modSce x f).rd r' j = s.rd r' j := rfl

/-! ### modSvd -/

@[simp] theorem State.modSvd_regs (s : State) (x : Str) (f : Svd → Svd) : (s.modSvd x f).regs = s.regs := rfl
@[simp] theorem State.modSvd_shadow (s : State) (x : Str) (f : Svd → Svd) : (s.modSvd x f).shadow = s.shadow := rfl
@[simp] theorem State.modSvd_mem (s : State) (x : Str) (f : Svd → Svd) : (s.modSvd x f).mem = s.mem := rfl
@[simp] theorem State.modSvd_control (s : State) (x : Str) (f : Svd → Svd) : (s.modSvd x f).control = s.control := rfl
@[simp] theorem State.modSvd_staged (s : State) (x : Str) (f : Svd → Svd) : (s.modSvd x f).staged = s.staged := rfl
@[simp] theorem State.modSvd_timebase (s : State) (x : Str) (f : Svd → Svd) : (s.modSvd x f).timebase = s.timebase := rfl
@[simp] theorem State.modSvd_draws (s : State) (x : Str) (f : Svd → Svd) : (s.modSvd x f).draws = s.draws := rfl
@[simp] theorem State.modSvd_events (s : State) (x : Str) (f : Svd → Svd) : (s.modSvd x f).events = s.events := rfl
@[simp] theorem State.modSvd_eventSeq (s : State) (x : Str) (f : Svd → Svd) : (s.modSvd x f).eventSeq = s.eventSeq := rfl
@[simp] theorem State.modSvd_fret (s : State) (x : Str) (f : Svd → Svd) : (s.modSvd x f).fret = s.fret := rfl
@[simp] theorem State.modSvd_capo (s : State) (x : Str) (f : Svd → Svd) : (s.modSvd x f).capo = s.capo := rfl
@[simp] theorem State.modSvd_spe (s : State) (x : Str) (f : Svd → Svd) : (s.modSvd x f).spe = s.spe := rfl
@[simp] theorem State.modSvd_harp (s : State) (x : Str) (f : Svd → Svd) : (s.modSvd x f).harp = s.harp := rfl
@[simp] theorem State.modSvd_host (s : State) (x : Str) (f : Svd → Svd) : (s.modSvd x f).host = s.host := rfl
@[simp] theorem State.modSvd_bridge (s : State) (x : Str) (f : Svd → Svd) : (s.modSvd x f).bridge = s.bridge := rfl
@[simp] theorem State.modSvd_cab (s : State) (x : Str) (f : Svd → Svd) : (s.modSvd x f).cab = s.cab := rfl
@[simp] theorem State.modSvd_phv (s : State) (x : Str) (f : Svd → Svd) : (s.modSvd x f).phv = s.phv := rfl
@[simp] theorem State.modSvd_memory (s : State) (x : Str) (f : Svd → Svd) : (s.modSvd x f).memory = s.memory := rfl
@[simp] theorem State.modSvd_bur (s : State) (x : Str) (f : Svd → Svd) : (s.modSvd x f).bur = s.bur := rfl
@[simp] theorem State.modSvd_power (s : State) (x : Str) (f : Svd → Svd) : (s.modSvd x f).power = s.power := rfl
@[simp] theorem State.modSvd_cal (s : State) (x : Str) (f : Svd → Svd) : (s.modSvd x f).cal = s.cal := rfl
@[simp] theorem State.modSvd_therm (s : State) (x : Str) (f : Svd → Svd) : (s.modSvd x f).therm = s.therm := rfl
@[simp] theorem State.modSvd_lc (s : State) (x : Str) (f : Svd → Svd) : (s.modSvd x f).lc = s.lc := rfl
@[simp] theorem State.modSvd_bench (s : State) (x : Str) (f : Svd → Svd) : (s.modSvd x f).bench = s.bench := rfl
@[simp] theorem State.modSvd_out (s : State) (x : Str) (f : Svd → Svd) : (s.modSvd x f).out = s.out := rfl
@[simp] theorem State.modSvd_pending (s : State) (x : Str) (f : Svd → Svd) : (s.modSvd x f).pending = s.pending := rfl
@[simp] theorem State.modSvd_rd (s : State) (x : Str) (f : Svd → Svd) (r' : Reg) (j : Nat) : (s.modSvd x f).rd r' j = s.rd r' j := rfl

/-! ### modAe -/

@[simp] theorem State.modAe_regs (s : State) (x : Str) (f : Ae → Ae) : (s.modAe x f).regs = s.regs := rfl
@[simp] theorem State.modAe_shadow (s : State) (x : Str) (f : Ae → Ae) : (s.modAe x f).shadow = s.shadow := rfl
@[simp] theorem State.modAe_mem (s : State) (x : Str) (f : Ae → Ae) : (s.modAe x f).mem = s.mem := rfl
@[simp] theorem State.modAe_control (s : State) (x : Str) (f : Ae → Ae) : (s.modAe x f).control = s.control := rfl
@[simp] theorem State.modAe_staged (s : State) (x : Str) (f : Ae → Ae) : (s.modAe x f).staged = s.staged := rfl
@[simp] theorem State.modAe_timebase (s : State) (x : Str) (f : Ae → Ae) : (s.modAe x f).timebase = s.timebase := rfl
@[simp] theorem State.modAe_draws (s : State) (x : Str) (f : Ae → Ae) : (s.modAe x f).draws = s.draws := rfl
@[simp] theorem State.modAe_events (s : State) (x : Str) (f : Ae → Ae) : (s.modAe x f).events = s.events := rfl
@[simp] theorem State.modAe_eventSeq (s : State) (x : Str) (f : Ae → Ae) : (s.modAe x f).eventSeq = s.eventSeq := rfl
@[simp] theorem State.modAe_fret (s : State) (x : Str) (f : Ae → Ae) : (s.modAe x f).fret = s.fret := rfl
@[simp] theorem State.modAe_capo (s : State) (x : Str) (f : Ae → Ae) : (s.modAe x f).capo = s.capo := rfl
@[simp] theorem State.modAe_spe (s : State) (x : Str) (f : Ae → Ae) : (s.modAe x f).spe = s.spe := rfl
@[simp] theorem State.modAe_harp (s : State) (x : Str) (f : Ae → Ae) : (s.modAe x f).harp = s.harp := rfl
@[simp] theorem State.modAe_host (s : State) (x : Str) (f : Ae → Ae) : (s.modAe x f).host = s.host := rfl
@[simp] theorem State.modAe_bridge (s : State) (x : Str) (f : Ae → Ae) : (s.modAe x f).bridge = s.bridge := rfl
@[simp] theorem State.modAe_cab (s : State) (x : Str) (f : Ae → Ae) : (s.modAe x f).cab = s.cab := rfl
@[simp] theorem State.modAe_phv (s : State) (x : Str) (f : Ae → Ae) : (s.modAe x f).phv = s.phv := rfl
@[simp] theorem State.modAe_memory (s : State) (x : Str) (f : Ae → Ae) : (s.modAe x f).memory = s.memory := rfl
@[simp] theorem State.modAe_bur (s : State) (x : Str) (f : Ae → Ae) : (s.modAe x f).bur = s.bur := rfl
@[simp] theorem State.modAe_power (s : State) (x : Str) (f : Ae → Ae) : (s.modAe x f).power = s.power := rfl
@[simp] theorem State.modAe_cal (s : State) (x : Str) (f : Ae → Ae) : (s.modAe x f).cal = s.cal := rfl
@[simp] theorem State.modAe_therm (s : State) (x : Str) (f : Ae → Ae) : (s.modAe x f).therm = s.therm := rfl
@[simp] theorem State.modAe_lc (s : State) (x : Str) (f : Ae → Ae) : (s.modAe x f).lc = s.lc := rfl
@[simp] theorem State.modAe_bench (s : State) (x : Str) (f : Ae → Ae) : (s.modAe x f).bench = s.bench := rfl
@[simp] theorem State.modAe_out (s : State) (x : Str) (f : Ae → Ae) : (s.modAe x f).out = s.out := rfl
@[simp] theorem State.modAe_pending (s : State) (x : Str) (f : Ae → Ae) : (s.modAe x f).pending = s.pending := rfl
@[simp] theorem State.modAe_rd (s : State) (x : Str) (f : Ae → Ae) (r' : Reg) (j : Nat) : (s.modAe x f).rd r' j = s.rd r' j := rfl

/-! ### modSkew -/

@[simp] theorem State.modSkew_regs (s : State) (x : Str) (f : SkewAvg → SkewAvg) : (s.modSkew x f).regs = s.regs := rfl
@[simp] theorem State.modSkew_shadow (s : State) (x : Str) (f : SkewAvg → SkewAvg) : (s.modSkew x f).shadow = s.shadow := rfl
@[simp] theorem State.modSkew_mem (s : State) (x : Str) (f : SkewAvg → SkewAvg) : (s.modSkew x f).mem = s.mem := rfl
@[simp] theorem State.modSkew_control (s : State) (x : Str) (f : SkewAvg → SkewAvg) : (s.modSkew x f).control = s.control := rfl
@[simp] theorem State.modSkew_staged (s : State) (x : Str) (f : SkewAvg → SkewAvg) : (s.modSkew x f).staged = s.staged := rfl
@[simp] theorem State.modSkew_timebase (s : State) (x : Str) (f : SkewAvg → SkewAvg) : (s.modSkew x f).timebase = s.timebase := rfl
@[simp] theorem State.modSkew_draws (s : State) (x : Str) (f : SkewAvg → SkewAvg) : (s.modSkew x f).draws = s.draws := rfl
@[simp] theorem State.modSkew_events (s : State) (x : Str) (f : SkewAvg → SkewAvg) : (s.modSkew x f).events = s.events := rfl
@[simp] theorem State.modSkew_eventSeq (s : State) (x : Str) (f : SkewAvg → SkewAvg) : (s.modSkew x f).eventSeq = s.eventSeq := rfl
@[simp] theorem State.modSkew_fret (s : State) (x : Str) (f : SkewAvg → SkewAvg) : (s.modSkew x f).fret = s.fret := rfl
@[simp] theorem State.modSkew_capo (s : State) (x : Str) (f : SkewAvg → SkewAvg) : (s.modSkew x f).capo = s.capo := rfl
@[simp] theorem State.modSkew_spe (s : State) (x : Str) (f : SkewAvg → SkewAvg) : (s.modSkew x f).spe = s.spe := rfl
@[simp] theorem State.modSkew_harp (s : State) (x : Str) (f : SkewAvg → SkewAvg) : (s.modSkew x f).harp = s.harp := rfl
@[simp] theorem State.modSkew_host (s : State) (x : Str) (f : SkewAvg → SkewAvg) : (s.modSkew x f).host = s.host := rfl
@[simp] theorem State.modSkew_bridge (s : State) (x : Str) (f : SkewAvg → SkewAvg) : (s.modSkew x f).bridge = s.bridge := rfl
@[simp] theorem State.modSkew_cab (s : State) (x : Str) (f : SkewAvg → SkewAvg) : (s.modSkew x f).cab = s.cab := rfl
@[simp] theorem State.modSkew_phv (s : State) (x : Str) (f : SkewAvg → SkewAvg) : (s.modSkew x f).phv = s.phv := rfl
@[simp] theorem State.modSkew_memory (s : State) (x : Str) (f : SkewAvg → SkewAvg) : (s.modSkew x f).memory = s.memory := rfl
@[simp] theorem State.modSkew_bur (s : State) (x : Str) (f : SkewAvg → SkewAvg) : (s.modSkew x f).bur = s.bur := rfl
@[simp] theorem State.modSkew_power (s : State) (x : Str) (f : SkewAvg → SkewAvg) : (s.modSkew x f).power = s.power := rfl
@[simp] theorem State.modSkew_cal (s : State) (x : Str) (f : SkewAvg → SkewAvg) : (s.modSkew x f).cal = s.cal := rfl
@[simp] theorem State.modSkew_therm (s : State) (x : Str) (f : SkewAvg → SkewAvg) : (s.modSkew x f).therm = s.therm := rfl
@[simp] theorem State.modSkew_lc (s : State) (x : Str) (f : SkewAvg → SkewAvg) : (s.modSkew x f).lc = s.lc := rfl
@[simp] theorem State.modSkew_bench (s : State) (x : Str) (f : SkewAvg → SkewAvg) : (s.modSkew x f).bench = s.bench := rfl
@[simp] theorem State.modSkew_out (s : State) (x : Str) (f : SkewAvg → SkewAvg) : (s.modSkew x f).out = s.out := rfl
@[simp] theorem State.modSkew_pending (s : State) (x : Str) (f : SkewAvg → SkewAvg) : (s.modSkew x f).pending = s.pending := rfl
@[simp] theorem State.modSkew_rd (s : State) (x : Str) (f : SkewAvg → SkewAvg) (r' : Reg) (j : Nat) : (s.modSkew x f).rd r' j = s.rd r' j := rfl

/-! ### modRch -/

@[simp] theorem State.modRch_regs (s : State) (x : Str) (f : Rch → Rch) : (s.modRch x f).regs = s.regs := rfl
@[simp] theorem State.modRch_shadow (s : State) (x : Str) (f : Rch → Rch) : (s.modRch x f).shadow = s.shadow := rfl
@[simp] theorem State.modRch_mem (s : State) (x : Str) (f : Rch → Rch) : (s.modRch x f).mem = s.mem := rfl
@[simp] theorem State.modRch_control (s : State) (x : Str) (f : Rch → Rch) : (s.modRch x f).control = s.control := rfl
@[simp] theorem State.modRch_staged (s : State) (x : Str) (f : Rch → Rch) : (s.modRch x f).staged = s.staged := rfl
@[simp] theorem State.modRch_timebase (s : State) (x : Str) (f : Rch → Rch) : (s.modRch x f).timebase = s.timebase := rfl
@[simp] theorem State.modRch_draws (s : State) (x : Str) (f : Rch → Rch) : (s.modRch x f).draws = s.draws := rfl
@[simp] theorem State.modRch_events (s : State) (x : Str) (f : Rch → Rch) : (s.modRch x f).events = s.events := rfl
@[simp] theorem State.modRch_eventSeq (s : State) (x : Str) (f : Rch → Rch) : (s.modRch x f).eventSeq = s.eventSeq := rfl
@[simp] theorem State.modRch_fret (s : State) (x : Str) (f : Rch → Rch) : (s.modRch x f).fret = s.fret := rfl
@[simp] theorem State.modRch_capo (s : State) (x : Str) (f : Rch → Rch) : (s.modRch x f).capo = s.capo := rfl
@[simp] theorem State.modRch_spe (s : State) (x : Str) (f : Rch → Rch) : (s.modRch x f).spe = s.spe := rfl
@[simp] theorem State.modRch_harp (s : State) (x : Str) (f : Rch → Rch) : (s.modRch x f).harp = s.harp := rfl
@[simp] theorem State.modRch_host (s : State) (x : Str) (f : Rch → Rch) : (s.modRch x f).host = s.host := rfl
@[simp] theorem State.modRch_bridge (s : State) (x : Str) (f : Rch → Rch) : (s.modRch x f).bridge = s.bridge := rfl
@[simp] theorem State.modRch_cab (s : State) (x : Str) (f : Rch → Rch) : (s.modRch x f).cab = s.cab := rfl
@[simp] theorem State.modRch_phv (s : State) (x : Str) (f : Rch → Rch) : (s.modRch x f).phv = s.phv := rfl
@[simp] theorem State.modRch_memory (s : State) (x : Str) (f : Rch → Rch) : (s.modRch x f).memory = s.memory := rfl
@[simp] theorem State.modRch_bur (s : State) (x : Str) (f : Rch → Rch) : (s.modRch x f).bur = s.bur := rfl
@[simp] theorem State.modRch_power (s : State) (x : Str) (f : Rch → Rch) : (s.modRch x f).power = s.power := rfl
@[simp] theorem State.modRch_cal (s : State) (x : Str) (f : Rch → Rch) : (s.modRch x f).cal = s.cal := rfl
@[simp] theorem State.modRch_therm (s : State) (x : Str) (f : Rch → Rch) : (s.modRch x f).therm = s.therm := rfl
@[simp] theorem State.modRch_lc (s : State) (x : Str) (f : Rch → Rch) : (s.modRch x f).lc = s.lc := rfl
@[simp] theorem State.modRch_bench (s : State) (x : Str) (f : Rch → Rch) : (s.modRch x f).bench = s.bench := rfl
@[simp] theorem State.modRch_out (s : State) (x : Str) (f : Rch → Rch) : (s.modRch x f).out = s.out := rfl
@[simp] theorem State.modRch_pending (s : State) (x : Str) (f : Rch → Rch) : (s.modRch x f).pending = s.pending := rfl
@[simp] theorem State.modRch_rd (s : State) (x : Str) (f : Rch → Rch) (r' : Reg) (j : Nat) : (s.modRch x f).rd r' j = s.rd r' j := rfl

/-! ### modWrp -/

@[simp] theorem State.modWrp_regs (s : State) (x : Str) (f : Wrp → Wrp) : (s.modWrp x f).regs = s.regs := rfl
@[simp] theorem State.modWrp_shadow (s : State) (x : Str) (f : Wrp → Wrp) : (s.modWrp x f).shadow = s.shadow := rfl
@[simp] theorem State.modWrp_mem (s : State) (x : Str) (f : Wrp → Wrp) : (s.modWrp x f).mem = s.mem := rfl
@[simp] theorem State.modWrp_control (s : State) (x : Str) (f : Wrp → Wrp) : (s.modWrp x f).control = s.control := rfl
@[simp] theorem State.modWrp_staged (s : State) (x : Str) (f : Wrp → Wrp) : (s.modWrp x f).staged = s.staged := rfl
@[simp] theorem State.modWrp_timebase (s : State) (x : Str) (f : Wrp → Wrp) : (s.modWrp x f).timebase = s.timebase := rfl
@[simp] theorem State.modWrp_draws (s : State) (x : Str) (f : Wrp → Wrp) : (s.modWrp x f).draws = s.draws := rfl
@[simp] theorem State.modWrp_events (s : State) (x : Str) (f : Wrp → Wrp) : (s.modWrp x f).events = s.events := rfl
@[simp] theorem State.modWrp_eventSeq (s : State) (x : Str) (f : Wrp → Wrp) : (s.modWrp x f).eventSeq = s.eventSeq := rfl
@[simp] theorem State.modWrp_fret (s : State) (x : Str) (f : Wrp → Wrp) : (s.modWrp x f).fret = s.fret := rfl
@[simp] theorem State.modWrp_capo (s : State) (x : Str) (f : Wrp → Wrp) : (s.modWrp x f).capo = s.capo := rfl
@[simp] theorem State.modWrp_spe (s : State) (x : Str) (f : Wrp → Wrp) : (s.modWrp x f).spe = s.spe := rfl
@[simp] theorem State.modWrp_harp (s : State) (x : Str) (f : Wrp → Wrp) : (s.modWrp x f).harp = s.harp := rfl
@[simp] theorem State.modWrp_host (s : State) (x : Str) (f : Wrp → Wrp) : (s.modWrp x f).host = s.host := rfl
@[simp] theorem State.modWrp_bridge (s : State) (x : Str) (f : Wrp → Wrp) : (s.modWrp x f).bridge = s.bridge := rfl
@[simp] theorem State.modWrp_cab (s : State) (x : Str) (f : Wrp → Wrp) : (s.modWrp x f).cab = s.cab := rfl
@[simp] theorem State.modWrp_phv (s : State) (x : Str) (f : Wrp → Wrp) : (s.modWrp x f).phv = s.phv := rfl
@[simp] theorem State.modWrp_memory (s : State) (x : Str) (f : Wrp → Wrp) : (s.modWrp x f).memory = s.memory := rfl
@[simp] theorem State.modWrp_bur (s : State) (x : Str) (f : Wrp → Wrp) : (s.modWrp x f).bur = s.bur := rfl
@[simp] theorem State.modWrp_power (s : State) (x : Str) (f : Wrp → Wrp) : (s.modWrp x f).power = s.power := rfl
@[simp] theorem State.modWrp_cal (s : State) (x : Str) (f : Wrp → Wrp) : (s.modWrp x f).cal = s.cal := rfl
@[simp] theorem State.modWrp_therm (s : State) (x : Str) (f : Wrp → Wrp) : (s.modWrp x f).therm = s.therm := rfl
@[simp] theorem State.modWrp_lc (s : State) (x : Str) (f : Wrp → Wrp) : (s.modWrp x f).lc = s.lc := rfl
@[simp] theorem State.modWrp_bench (s : State) (x : Str) (f : Wrp → Wrp) : (s.modWrp x f).bench = s.bench := rfl
@[simp] theorem State.modWrp_out (s : State) (x : Str) (f : Wrp → Wrp) : (s.modWrp x f).out = s.out := rfl
@[simp] theorem State.modWrp_pending (s : State) (x : Str) (f : Wrp → Wrp) : (s.modWrp x f).pending = s.pending := rfl
@[simp] theorem State.modWrp_rd (s : State) (x : Str) (f : Wrp → Wrp) (r' : Reg) (j : Nat) : (s.modWrp x f).rd r' j = s.rd r' j := rfl

/-! ### modSeq -/

@[simp] theorem State.modSeq_regs (s : State) (x : Str) (q : SeqId) (f : Sequencer → Sequencer) : (s.modSeq x q f).regs = s.regs := rfl
@[simp] theorem State.modSeq_shadow (s : State) (x : Str) (q : SeqId) (f : Sequencer → Sequencer) : (s.modSeq x q f).shadow = s.shadow := rfl
@[simp] theorem State.modSeq_mem (s : State) (x : Str) (q : SeqId) (f : Sequencer → Sequencer) : (s.modSeq x q f).mem = s.mem := rfl
@[simp] theorem State.modSeq_control (s : State) (x : Str) (q : SeqId) (f : Sequencer → Sequencer) : (s.modSeq x q f).control = s.control := rfl
@[simp] theorem State.modSeq_staged (s : State) (x : Str) (q : SeqId) (f : Sequencer → Sequencer) : (s.modSeq x q f).staged = s.staged := rfl
@[simp] theorem State.modSeq_timebase (s : State) (x : Str) (q : SeqId) (f : Sequencer → Sequencer) : (s.modSeq x q f).timebase = s.timebase := rfl
@[simp] theorem State.modSeq_draws (s : State) (x : Str) (q : SeqId) (f : Sequencer → Sequencer) : (s.modSeq x q f).draws = s.draws := rfl
@[simp] theorem State.modSeq_events (s : State) (x : Str) (q : SeqId) (f : Sequencer → Sequencer) : (s.modSeq x q f).events = s.events := rfl
@[simp] theorem State.modSeq_eventSeq (s : State) (x : Str) (q : SeqId) (f : Sequencer → Sequencer) : (s.modSeq x q f).eventSeq = s.eventSeq := rfl
@[simp] theorem State.modSeq_fret (s : State) (x : Str) (q : SeqId) (f : Sequencer → Sequencer) : (s.modSeq x q f).fret = s.fret := rfl
@[simp] theorem State.modSeq_capo (s : State) (x : Str) (q : SeqId) (f : Sequencer → Sequencer) : (s.modSeq x q f).capo = s.capo := rfl
@[simp] theorem State.modSeq_spe (s : State) (x : Str) (q : SeqId) (f : Sequencer → Sequencer) : (s.modSeq x q f).spe = s.spe := rfl
@[simp] theorem State.modSeq_harp (s : State) (x : Str) (q : SeqId) (f : Sequencer → Sequencer) : (s.modSeq x q f).harp = s.harp := rfl
@[simp] theorem State.modSeq_host (s : State) (x : Str) (q : SeqId) (f : Sequencer → Sequencer) : (s.modSeq x q f).host = s.host := rfl
@[simp] theorem State.modSeq_bridge (s : State) (x : Str) (q : SeqId) (f : Sequencer → Sequencer) : (s.modSeq x q f).bridge = s.bridge := rfl
@[simp] theorem State.modSeq_cab (s : State) (x : Str) (q : SeqId) (f : Sequencer → Sequencer) : (s.modSeq x q f).cab = s.cab := rfl
@[simp] theorem State.modSeq_phv (s : State) (x : Str) (q : SeqId) (f : Sequencer → Sequencer) : (s.modSeq x q f).phv = s.phv := rfl
@[simp] theorem State.modSeq_memory (s : State) (x : Str) (q : SeqId) (f : Sequencer → Sequencer) : (s.modSeq x q f).memory = s.memory := rfl
@[simp] theorem State.modSeq_bur (s : State) (x : Str) (q : SeqId) (f : Sequencer → Sequencer) : (s.modSeq x q f).bur = s.bur := rfl
@[simp] theorem State.modSeq_power (s : State) (x : Str) (q : SeqId) (f : Sequencer → Sequencer) : (s.modSeq x q f).power = s.power := rfl
@[simp] theorem State.modSeq_cal (s : State) (x : Str) (q : SeqId) (f : Sequencer → Sequencer) : (s.modSeq x q f).cal = s.cal := rfl
@[simp] theorem State.modSeq_therm (s : State) (x : Str) (q : SeqId) (f : Sequencer → Sequencer) : (s.modSeq x q f).therm = s.therm := rfl
@[simp] theorem State.modSeq_lc (s : State) (x : Str) (q : SeqId) (f : Sequencer → Sequencer) : (s.modSeq x q f).lc = s.lc := rfl
@[simp] theorem State.modSeq_bench (s : State) (x : Str) (q : SeqId) (f : Sequencer → Sequencer) : (s.modSeq x q f).bench = s.bench := rfl
@[simp] theorem State.modSeq_out (s : State) (x : Str) (q : SeqId) (f : Sequencer → Sequencer) : (s.modSeq x q f).out = s.out := rfl
@[simp] theorem State.modSeq_pending (s : State) (x : Str) (q : SeqId) (f : Sequencer → Sequencer) : (s.modSeq x q f).pending = s.pending := rfl
@[simp] theorem State.modSeq_rd (s : State) (x : Str) (q : SeqId) (f : Sequencer → Sequencer) (r' : Reg) (j : Nat) : (s.modSeq x q f).rd r' j = s.rd r' j := rfl

/-! ### emit -/

@[simp] theorem State.emit_regs (s : State) (o : Out) : (s.emit o).regs = s.regs := rfl
@[simp] theorem State.emit_shadow (s : State) (o : Out) : (s.emit o).shadow = s.shadow := rfl
@[simp] theorem State.emit_mem (s : State) (o : Out) : (s.emit o).mem = s.mem := rfl
@[simp] theorem State.emit_control (s : State) (o : Out) : (s.emit o).control = s.control := rfl
@[simp] theorem State.emit_staged (s : State) (o : Out) : (s.emit o).staged = s.staged := rfl
@[simp] theorem State.emit_timebase (s : State) (o : Out) : (s.emit o).timebase = s.timebase := rfl
@[simp] theorem State.emit_draws (s : State) (o : Out) : (s.emit o).draws = s.draws := rfl
@[simp] theorem State.emit_events (s : State) (o : Out) : (s.emit o).events = s.events := rfl
@[simp] theorem State.emit_eventSeq (s : State) (o : Out) : (s.emit o).eventSeq = s.eventSeq := rfl
@[simp] theorem State.emit_fret (s : State) (o : Out) : (s.emit o).fret = s.fret := rfl
@[simp] theorem State.emit_capo (s : State) (o : Out) : (s.emit o).capo = s.capo := rfl
@[simp] theorem State.emit_spe (s : State) (o : Out) : (s.emit o).spe = s.spe := rfl
@[simp] theorem State.emit_str (s : State) (o : Out) : (s.emit o).str = s.str := rfl
@[simp] theorem State.emit_harp (s : State) (o : Out) : (s.emit o).harp = s.harp := rfl
@[simp] theorem State.emit_host (s : State) (o : Out) : (s.emit o).host = s.host := rfl
@[simp] theorem State.emit_bridge (s : State) (o : Out) : (s.emit o).bridge = s.bridge := rfl
@[simp] theorem State.emit_cab (s : State) (o : Out) : (s.emit o).cab = s.cab := rfl
@[simp] theorem State.emit_phv (s : State) (o : Out) : (s.emit o).phv = s.phv := rfl
@[simp] theorem State.emit_memory (s : State) (o : Out) : (s.emit o).memory = s.memory := rfl
@[simp] theorem State.emit_bur (s : State) (o : Out) : (s.emit o).bur = s.bur := rfl
@[simp] theorem State.emit_power (s : State) (o : Out) : (s.emit o).power = s.power := rfl
@[simp] theorem State.emit_cal (s : State) (o : Out) : (s.emit o).cal = s.cal := rfl
@[simp] theorem State.emit_therm (s : State) (o : Out) : (s.emit o).therm = s.therm := rfl
@[simp] theorem State.emit_lc (s : State) (o : Out) : (s.emit o).lc = s.lc := rfl
@[simp] theorem State.emit_bench (s : State) (o : Out) : (s.emit o).bench = s.bench := rfl
@[simp] theorem State.emit_pending (s : State) (o : Out) : (s.emit o).pending = s.pending := rfl
@[simp] theorem State.emit_rd (s : State) (o : Out) (r' : Reg) (j : Nat) : (s.emit o).rd r' j = s.rd r' j := rfl

/-! ### logEvent -/

@[simp] theorem State.logEvent_regs (s : State) (c sev m : Nat) (d : List Nat) : (s.logEvent c sev m d).regs = s.regs := rfl
@[simp] theorem State.logEvent_shadow (s : State) (c sev m : Nat) (d : List Nat) : (s.logEvent c sev m d).shadow = s.shadow := rfl
@[simp] theorem State.logEvent_mem (s : State) (c sev m : Nat) (d : List Nat) : (s.logEvent c sev m d).mem = s.mem := rfl
@[simp] theorem State.logEvent_control (s : State) (c sev m : Nat) (d : List Nat) : (s.logEvent c sev m d).control = s.control := rfl
@[simp] theorem State.logEvent_staged (s : State) (c sev m : Nat) (d : List Nat) : (s.logEvent c sev m d).staged = s.staged := rfl
@[simp] theorem State.logEvent_timebase (s : State) (c sev m : Nat) (d : List Nat) : (s.logEvent c sev m d).timebase = s.timebase := rfl
@[simp] theorem State.logEvent_draws (s : State) (c sev m : Nat) (d : List Nat) : (s.logEvent c sev m d).draws = s.draws := rfl
@[simp] theorem State.logEvent_fret (s : State) (c sev m : Nat) (d : List Nat) : (s.logEvent c sev m d).fret = s.fret := rfl
@[simp] theorem State.logEvent_capo (s : State) (c sev m : Nat) (d : List Nat) : (s.logEvent c sev m d).capo = s.capo := rfl
@[simp] theorem State.logEvent_spe (s : State) (c sev m : Nat) (d : List Nat) : (s.logEvent c sev m d).spe = s.spe := rfl
@[simp] theorem State.logEvent_str (s : State) (c sev m : Nat) (d : List Nat) : (s.logEvent c sev m d).str = s.str := rfl
@[simp] theorem State.logEvent_harp (s : State) (c sev m : Nat) (d : List Nat) : (s.logEvent c sev m d).harp = s.harp := rfl
@[simp] theorem State.logEvent_host (s : State) (c sev m : Nat) (d : List Nat) : (s.logEvent c sev m d).host = s.host := rfl
@[simp] theorem State.logEvent_bridge (s : State) (c sev m : Nat) (d : List Nat) : (s.logEvent c sev m d).bridge = s.bridge := rfl
@[simp] theorem State.logEvent_cab (s : State) (c sev m : Nat) (d : List Nat) : (s.logEvent c sev m d).cab = s.cab := rfl
@[simp] theorem State.logEvent_phv (s : State) (c sev m : Nat) (d : List Nat) : (s.logEvent c sev m d).phv = s.phv := rfl
@[simp] theorem State.logEvent_memory (s : State) (c sev m : Nat) (d : List Nat) : (s.logEvent c sev m d).memory = s.memory := rfl
@[simp] theorem State.logEvent_bur (s : State) (c sev m : Nat) (d : List Nat) : (s.logEvent c sev m d).bur = s.bur := rfl
@[simp] theorem State.logEvent_power (s : State) (c sev m : Nat) (d : List Nat) : (s.logEvent c sev m d).power = s.power := rfl
@[simp] theorem State.logEvent_cal (s : State) (c sev m : Nat) (d : List Nat) : (s.logEvent c sev m d).cal = s.cal := rfl
@[simp] theorem State.logEvent_therm (s : State) (c sev m : Nat) (d : List Nat) : (s.logEvent c sev m d).therm = s.therm := rfl
@[simp] theorem State.logEvent_lc (s : State) (c sev m : Nat) (d : List Nat) : (s.logEvent c sev m d).lc = s.lc := rfl
@[simp] theorem State.logEvent_bench (s : State) (c sev m : Nat) (d : List Nat) : (s.logEvent c sev m d).bench = s.bench := rfl
@[simp] theorem State.logEvent_out (s : State) (c sev m : Nat) (d : List Nat) : (s.logEvent c sev m d).out = s.out := rfl
@[simp] theorem State.logEvent_pending (s : State) (c sev m : Nat) (d : List Nat) : (s.logEvent c sev m d).pending = s.pending := rfl
@[simp] theorem State.logEvent_rd (s : State) (c sev m : Nat) (d : List Nat) (r' : Reg) (j : Nat) : (s.logEvent c sev m d).rd r' j = s.rd r' j := rfl

/-! ### drawn -/

@[simp] theorem State.drawn_regs (s : State) : (s.drawn).regs = s.regs := rfl
@[simp] theorem State.drawn_shadow (s : State) : (s.drawn).shadow = s.shadow := rfl
@[simp] theorem State.drawn_mem (s : State) : (s.drawn).mem = s.mem := rfl
@[simp] theorem State.drawn_control (s : State) : (s.drawn).control = s.control := rfl
@[simp] theorem State.drawn_staged (s : State) : (s.drawn).staged = s.staged := rfl
@[simp] theorem State.drawn_timebase (s : State) : (s.drawn).timebase = s.timebase := rfl
@[simp] theorem State.drawn_events (s : State) : (s.drawn).events = s.events := rfl
@[simp] theorem State.drawn_eventSeq (s : State) : (s.drawn).eventSeq = s.eventSeq := rfl
@[simp] theorem State.drawn_fret (s : State) : (s.drawn).fret = s.fret := rfl
@[simp] theorem State.drawn_capo (s : State) : (s.drawn).capo = s.capo := rfl
@[simp] theorem State.drawn_spe (s : State) : (s.drawn).spe = s.spe := rfl
@[simp] theorem State.drawn_str (s : State) : (s.drawn).str = s.str := rfl
@[simp] theorem State.drawn_harp (s : State) : (s.drawn).harp = s.harp := rfl
@[simp] theorem State.drawn_host (s : State) : (s.drawn).host = s.host := rfl
@[simp] theorem State.drawn_bridge (s : State) : (s.drawn).bridge = s.bridge := rfl
@[simp] theorem State.drawn_cab (s : State) : (s.drawn).cab = s.cab := rfl
@[simp] theorem State.drawn_phv (s : State) : (s.drawn).phv = s.phv := rfl
@[simp] theorem State.drawn_memory (s : State) : (s.drawn).memory = s.memory := rfl
@[simp] theorem State.drawn_bur (s : State) : (s.drawn).bur = s.bur := rfl
@[simp] theorem State.drawn_power (s : State) : (s.drawn).power = s.power := rfl
@[simp] theorem State.drawn_cal (s : State) : (s.drawn).cal = s.cal := rfl
@[simp] theorem State.drawn_therm (s : State) : (s.drawn).therm = s.therm := rfl
@[simp] theorem State.drawn_lc (s : State) : (s.drawn).lc = s.lc := rfl
@[simp] theorem State.drawn_bench (s : State) : (s.drawn).bench = s.bench := rfl
@[simp] theorem State.drawn_out (s : State) : (s.drawn).out = s.out := rfl
@[simp] theorem State.drawn_pending (s : State) : (s.drawn).pending = s.pending := rfl
@[simp] theorem State.drawn_rd (s : State) (r' : Reg) (j : Nat) : (s.drawn).rd r' j = s.rd r' j := rfl

/-! ### modSpe -/

@[simp] theorem State.modSpe_regs (s : State) (f : Spe → Spe) : (s.modSpe f).regs = s.regs := rfl
@[simp] theorem State.modSpe_shadow (s : State) (f : Spe → Spe) : (s.modSpe f).shadow = s.shadow := rfl
@[simp] theorem State.modSpe_mem (s : State) (f : Spe → Spe) : (s.modSpe f).mem = s.mem := rfl
@[simp] theorem State.modSpe_control (s : State) (f : Spe → Spe) : (s.modSpe f).control = s.control := rfl
@[simp] theorem State.modSpe_staged (s : State) (f : Spe → Spe) : (s.modSpe f).staged = s.staged := rfl
@[simp] theorem State.modSpe_timebase (s : State) (f : Spe → Spe) : (s.modSpe f).timebase = s.timebase := rfl
@[simp] theorem State.modSpe_draws (s : State) (f : Spe → Spe) : (s.modSpe f).draws = s.draws := rfl
@[simp] theorem State.modSpe_events (s : State) (f : Spe → Spe) : (s.modSpe f).events = s.events := rfl
@[simp] theorem State.modSpe_eventSeq (s : State) (f : Spe → Spe) : (s.modSpe f).eventSeq = s.eventSeq := rfl
@[simp] theorem State.modSpe_fret (s : State) (f : Spe → Spe) : (s.modSpe f).fret = s.fret := rfl
@[simp] theorem State.modSpe_capo (s : State) (f : Spe → Spe) : (s.modSpe f).capo = s.capo := rfl
@[simp] theorem State.modSpe_str (s : State) (f : Spe → Spe) : (s.modSpe f).str = s.str := rfl
@[simp] theorem State.modSpe_harp (s : State) (f : Spe → Spe) : (s.modSpe f).harp = s.harp := rfl
@[simp] theorem State.modSpe_host (s : State) (f : Spe → Spe) : (s.modSpe f).host = s.host := rfl
@[simp] theorem State.modSpe_bridge (s : State) (f : Spe → Spe) : (s.modSpe f).bridge = s.bridge := rfl
@[simp] theorem State.modSpe_cab (s : State) (f : Spe → Spe) : (s.modSpe f).cab = s.cab := rfl
@[simp] theorem State.modSpe_phv (s : State) (f : Spe → Spe) : (s.modSpe f).phv = s.phv := rfl
@[simp] theorem State.modSpe_memory (s : State) (f : Spe → Spe) : (s.modSpe f).memory = s.memory := rfl
@[simp] theorem State.modSpe_bur (s : State) (f : Spe → Spe) : (s.modSpe f).bur = s.bur := rfl
@[simp] theorem State.modSpe_power (s : State) (f : Spe → Spe) : (s.modSpe f).power = s.power := rfl
@[simp] theorem State.modSpe_cal (s : State) (f : Spe → Spe) : (s.modSpe f).cal = s.cal := rfl
@[simp] theorem State.modSpe_therm (s : State) (f : Spe → Spe) : (s.modSpe f).therm = s.therm := rfl
@[simp] theorem State.modSpe_lc (s : State) (f : Spe → Spe) : (s.modSpe f).lc = s.lc := rfl
@[simp] theorem State.modSpe_bench (s : State) (f : Spe → Spe) : (s.modSpe f).bench = s.bench := rfl
@[simp] theorem State.modSpe_out (s : State) (f : Spe → Spe) : (s.modSpe f).out = s.out := rfl
@[simp] theorem State.modSpe_pending (s : State) (f : Spe → Spe) : (s.modSpe f).pending = s.pending := rfl
@[simp] theorem State.modSpe_rd (s : State) (f : Spe → Spe) (r' : Reg) (j : Nat) : (s.modSpe f).rd r' j = s.rd r' j := rfl

/-! ### modCapo -/

@[simp] theorem State.modCapo_regs (s : State) (f : Capo → Capo) : (s.modCapo f).regs = s.regs := rfl
@[simp] theorem State.modCapo_shadow (s : State) (f : Capo → Capo) : (s.modCapo f).shadow = s.shadow := rfl
@[simp] theorem State.modCapo_mem (s : State) (f : Capo → Capo) : (s.modCapo f).mem = s.mem := rfl
@[simp] theorem State.modCapo_control (s : State) (f : Capo → Capo) : (s.modCapo f).control = s.control := rfl
@[simp] theorem State.modCapo_staged (s : State) (f : Capo → Capo) : (s.modCapo f).staged = s.staged := rfl
@[simp] theorem State.modCapo_timebase (s : State) (f : Capo → Capo) : (s.modCapo f).timebase = s.timebase := rfl
@[simp] theorem State.modCapo_draws (s : State) (f : Capo → Capo) : (s.modCapo f).draws = s.draws := rfl
@[simp] theorem State.modCapo_events (s : State) (f : Capo → Capo) : (s.modCapo f).events = s.events := rfl
@[simp] theorem State.modCapo_eventSeq (s : State) (f : Capo → Capo) : (s.modCapo f).eventSeq = s.eventSeq := rfl
@[simp] theorem State.modCapo_fret (s : State) (f : Capo → Capo) : (s.modCapo f).fret = s.fret := rfl
@[simp] theorem State.modCapo_spe (s : State) (f : Capo → Capo) : (s.modCapo f).spe = s.spe := rfl
@[simp] theorem State.modCapo_str (s : State) (f : Capo → Capo) : (s.modCapo f).str = s.str := rfl
@[simp] theorem State.modCapo_harp (s : State) (f : Capo → Capo) : (s.modCapo f).harp = s.harp := rfl
@[simp] theorem State.modCapo_host (s : State) (f : Capo → Capo) : (s.modCapo f).host = s.host := rfl
@[simp] theorem State.modCapo_bridge (s : State) (f : Capo → Capo) : (s.modCapo f).bridge = s.bridge := rfl
@[simp] theorem State.modCapo_cab (s : State) (f : Capo → Capo) : (s.modCapo f).cab = s.cab := rfl
@[simp] theorem State.modCapo_phv (s : State) (f : Capo → Capo) : (s.modCapo f).phv = s.phv := rfl
@[simp] theorem State.modCapo_memory (s : State) (f : Capo → Capo) : (s.modCapo f).memory = s.memory := rfl
@[simp] theorem State.modCapo_bur (s : State) (f : Capo → Capo) : (s.modCapo f).bur = s.bur := rfl
@[simp] theorem State.modCapo_power (s : State) (f : Capo → Capo) : (s.modCapo f).power = s.power := rfl
@[simp] theorem State.modCapo_cal (s : State) (f : Capo → Capo) : (s.modCapo f).cal = s.cal := rfl
@[simp] theorem State.modCapo_therm (s : State) (f : Capo → Capo) : (s.modCapo f).therm = s.therm := rfl
@[simp] theorem State.modCapo_lc (s : State) (f : Capo → Capo) : (s.modCapo f).lc = s.lc := rfl
@[simp] theorem State.modCapo_bench (s : State) (f : Capo → Capo) : (s.modCapo f).bench = s.bench := rfl
@[simp] theorem State.modCapo_out (s : State) (f : Capo → Capo) : (s.modCapo f).out = s.out := rfl
@[simp] theorem State.modCapo_pending (s : State) (f : Capo → Capo) : (s.modCapo f).pending = s.pending := rfl
@[simp] theorem State.modCapo_rd (s : State) (f : Capo → Capo) (r' : Reg) (j : Nat) : (s.modCapo f).rd r' j = s.rd r' j := rfl

/-! ### modHarp -/

@[simp] theorem State.modHarp_regs (s : State) (f : Harp → Harp) : (s.modHarp f).regs = s.regs := rfl
@[simp] theorem State.modHarp_shadow (s : State) (f : Harp → Harp) : (s.modHarp f).shadow = s.shadow := rfl
@[simp] theorem State.modHarp_mem (s : State) (f : Harp → Harp) : (s.modHarp f).mem = s.mem := rfl
@[simp] theorem State.modHarp_control (s : State) (f : Harp → Harp) : (s.modHarp f).control = s.control := rfl
@[simp] theorem State.modHarp_staged (s : State) (f : Harp → Harp) : (s.modHarp f).staged = s.staged := rfl
@[simp] theorem State.modHarp_timebase (s : State) (f : Harp → Harp) : (s.modHarp f).timebase = s.timebase := rfl
@[simp] theorem State.modHarp_draws (s : State) (f : Harp → Harp) : (s.modHarp f).draws = s.draws := rfl
@[simp] theorem State.modHarp_events (s : State) (f : Harp → Harp) : (s.modHarp f).events = s.events := rfl
@[simp] theorem State.modHarp_eventSeq (s : State) (f : Harp → Harp) : (s.modHarp f).eventSeq = s.eventSeq := rfl
@[simp] theorem State.modHarp_fret (s : State) (f : Harp → Harp) : (s.modHarp f).fret = s.fret := rfl
@[simp] theorem State.modHarp_capo (s : State) (f : Harp → Harp) : (s.modHarp f).capo = s.capo := rfl
@[simp] theorem State.modHarp_spe (s : State) (f : Harp → Harp) : (s.modHarp f).spe = s.spe := rfl
@[simp] theorem State.modHarp_str (s : State) (f : Harp → Harp) : (s.modHarp f).str = s.str := rfl
@[simp] theorem State.modHarp_host (s : State) (f : Harp → Harp) : (s.modHarp f).host = s.host := rfl
@[simp] theorem State.modHarp_bridge (s : State) (f : Harp → Harp) : (s.modHarp f).bridge = s.bridge := rfl
@[simp] theorem State.modHarp_cab (s : State) (f : Harp → Harp) : (s.modHarp f).cab = s.cab := rfl
@[simp] theorem State.modHarp_phv (s : State) (f : Harp → Harp) : (s.modHarp f).phv = s.phv := rfl
@[simp] theorem State.modHarp_memory (s : State) (f : Harp → Harp) : (s.modHarp f).memory = s.memory := rfl
@[simp] theorem State.modHarp_bur (s : State) (f : Harp → Harp) : (s.modHarp f).bur = s.bur := rfl
@[simp] theorem State.modHarp_power (s : State) (f : Harp → Harp) : (s.modHarp f).power = s.power := rfl
@[simp] theorem State.modHarp_cal (s : State) (f : Harp → Harp) : (s.modHarp f).cal = s.cal := rfl
@[simp] theorem State.modHarp_therm (s : State) (f : Harp → Harp) : (s.modHarp f).therm = s.therm := rfl
@[simp] theorem State.modHarp_lc (s : State) (f : Harp → Harp) : (s.modHarp f).lc = s.lc := rfl
@[simp] theorem State.modHarp_bench (s : State) (f : Harp → Harp) : (s.modHarp f).bench = s.bench := rfl
@[simp] theorem State.modHarp_out (s : State) (f : Harp → Harp) : (s.modHarp f).out = s.out := rfl
@[simp] theorem State.modHarp_pending (s : State) (f : Harp → Harp) : (s.modHarp f).pending = s.pending := rfl
@[simp] theorem State.modHarp_rd (s : State) (f : Harp → Harp) (r' : Reg) (j : Nat) : (s.modHarp f).rd r' j = s.rd r' j := rfl

/-! ### modCab -/

@[simp] theorem State.modCab_regs (s : State) (f : Cabinet → Cabinet) : (s.modCab f).regs = s.regs := rfl
@[simp] theorem State.modCab_shadow (s : State) (f : Cabinet → Cabinet) : (s.modCab f).shadow = s.shadow := rfl
@[simp] theorem State.modCab_mem (s : State) (f : Cabinet → Cabinet) : (s.modCab f).mem = s.mem := rfl
@[simp] theorem State.modCab_control (s : State) (f : Cabinet → Cabinet) : (s.modCab f).control = s.control := rfl
@[simp] theorem State.modCab_staged (s : State) (f : Cabinet → Cabinet) : (s.modCab f).staged = s.staged := rfl
@[simp] theorem State.modCab_timebase (s : State) (f : Cabinet → Cabinet) : (s.modCab f).timebase = s.timebase := rfl
@[simp] theorem State.modCab_draws (s : State) (f : Cabinet → Cabinet) : (s.modCab f).draws = s.draws := rfl
@[simp] theorem State.modCab_events (s : State) (f : Cabinet → Cabinet) : (s.modCab f).events = s.events := rfl
@[simp] theorem State.modCab_eventSeq (s : State) (f : Cabinet → Cabinet) : (s.modCab f).eventSeq = s.eventSeq := rfl
@[simp] theorem State.modCab_fret (s : State) (f : Cabinet → Cabinet) : (s.modCab f).fret = s.fret := rfl
@[simp] theorem State.modCab_capo (s : State) (f : Cabinet → Cabinet) : (s.modCab f).capo = s.capo := rfl
@[simp] theorem State.modCab_spe (s : State) (f : Cabinet → Cabinet) : (s.modCab f).spe = s.spe := rfl
@[simp] theorem State.modCab_str (s : State) (f : Cabinet → Cabinet) : (s.modCab f).str = s.str := rfl
@[simp] theorem State.modCab_harp (s : State) (f : Cabinet → Cabinet) : (s.modCab f).harp = s.harp := rfl
@[simp] theorem State.modCab_host (s : State) (f : Cabinet → Cabinet) : (s.modCab f).host = s.host := rfl
@[simp] theorem State.modCab_bridge (s : State) (f : Cabinet → Cabinet) : (s.modCab f).bridge = s.bridge := rfl
@[simp] theorem State.modCab_phv (s : State) (f : Cabinet → Cabinet) : (s.modCab f).phv = s.phv := rfl
@[simp] theorem State.modCab_memory (s : State) (f : Cabinet → Cabinet) : (s.modCab f).memory = s.memory := rfl
@[simp] theorem State.modCab_bur (s : State) (f : Cabinet → Cabinet) : (s.modCab f).bur = s.bur := rfl
@[simp] theorem State.modCab_power (s : State) (f : Cabinet → Cabinet) : (s.modCab f).power = s.power := rfl
@[simp] theorem State.modCab_cal (s : State) (f : Cabinet → Cabinet) : (s.modCab f).cal = s.cal := rfl
@[simp] theorem State.modCab_therm (s : State) (f : Cabinet → Cabinet) : (s.modCab f).therm = s.therm := rfl
@[simp] theorem State.modCab_lc (s : State) (f : Cabinet → Cabinet) : (s.modCab f).lc = s.lc := rfl
@[simp] theorem State.modCab_bench (s : State) (f : Cabinet → Cabinet) : (s.modCab f).bench = s.bench := rfl
@[simp] theorem State.modCab_out (s : State) (f : Cabinet → Cabinet) : (s.modCab f).out = s.out := rfl
@[simp] theorem State.modCab_pending (s : State) (f : Cabinet → Cabinet) : (s.modCab f).pending = s.pending := rfl
@[simp] theorem State.modCab_rd (s : State) (f : Cabinet → Cabinet) (r' : Reg) (j : Nat) : (s.modCab f).rd r' j = s.rd r' j := rfl

/-! ### modPhv -/

@[simp] theorem State.modPhv_regs (s : State) (f : Phovi → Phovi) : (s.modPhv f).regs = s.regs := rfl
@[simp] theorem State.modPhv_shadow (s : State) (f : Phovi → Phovi) : (s.modPhv f).shadow = s.shadow := rfl
@[simp] theorem State.modPhv_mem (s : State) (f : Phovi → Phovi) : (s.modPhv f).mem = s.mem := rfl
@[simp] theorem State.modPhv_control (s : State) (f : Phovi → Phovi) : (s.modPhv f).control = s.control := rfl
@[simp] theorem State.modPhv_staged (s : State) (f : Phovi → Phovi) : (s.modPhv f).staged = s.staged := rfl
@[simp] theorem State.modPhv_timebase (s : State) (f : Phovi → Phovi) : (s.modPhv f).timebase = s.timebase := rfl
@[simp] theorem State.modPhv_draws (s : State) (f : Phovi → Phovi) : (s.modPhv f).draws = s.draws := rfl
@[simp] theorem State.modPhv_events (s : State) (f : Phovi → Phovi) : (s.modPhv f).events = s.events := rfl
@[simp] theorem State.modPhv_eventSeq (s : State) (f : Phovi → Phovi) : (s.modPhv f).eventSeq = s.eventSeq := rfl
@[simp] theorem State.modPhv_fret (s : State) (f : Phovi → Phovi) : (s.modPhv f).fret = s.fret := rfl
@[simp] theorem State.modPhv_capo (s : State) (f : Phovi → Phovi) : (s.modPhv f).capo = s.capo := rfl
@[simp] theorem State.modPhv_spe (s : State) (f : Phovi → Phovi) : (s.modPhv f).spe = s.spe := rfl
@[simp] theorem State.modPhv_str (s : State) (f : Phovi → Phovi) : (s.modPhv f).str = s.str := rfl
@[simp] theorem State.modPhv_harp (s : State) (f : Phovi → Phovi) : (s.modPhv f).harp = s.harp := rfl
@[simp] theorem State.modPhv_host (s : State) (f : Phovi → Phovi) : (s.modPhv f).host = s.host := rfl
@[simp] theorem State.modPhv_bridge (s : State) (f : Phovi → Phovi) : (s.modPhv f).bridge = s.bridge := rfl
@[simp] theorem State.modPhv_cab (s : State) (f : Phovi → Phovi) : (s.modPhv f).cab = s.cab := rfl
@[simp] theorem State.modPhv_memory (s : State) (f : Phovi → Phovi) : (s.modPhv f).memory = s.memory := rfl
@[simp] theorem State.modPhv_bur (s : State) (f : Phovi → Phovi) : (s.modPhv f).bur = s.bur := rfl
@[simp] theorem State.modPhv_power (s : State) (f : Phovi → Phovi) : (s.modPhv f).power = s.power := rfl
@[simp] theorem State.modPhv_cal (s : State) (f : Phovi → Phovi) : (s.modPhv f).cal = s.cal := rfl
@[simp] theorem State.modPhv_therm (s : State) (f : Phovi → Phovi) : (s.modPhv f).therm = s.therm := rfl
@[simp] theorem State.modPhv_lc (s : State) (f : Phovi → Phovi) : (s.modPhv f).lc = s.lc := rfl
@[simp] theorem State.modPhv_bench (s : State) (f : Phovi → Phovi) : (s.modPhv f).bench = s.bench := rfl
@[simp] theorem State.modPhv_out (s : State) (f : Phovi → Phovi) : (s.modPhv f).out = s.out := rfl
@[simp] theorem State.modPhv_pending (s : State) (f : Phovi → Phovi) : (s.modPhv f).pending = s.pending := rfl
@[simp] theorem State.modPhv_rd (s : State) (f : Phovi → Phovi) (r' : Reg) (j : Nat) : (s.modPhv f).rd r' j = s.rd r' j := rfl

/-! ### modMemory -/

@[simp] theorem State.modMemory_regs (s : State) (f : MemoryState → MemoryState) : (s.modMemory f).regs = s.regs := rfl
@[simp] theorem State.modMemory_shadow (s : State) (f : MemoryState → MemoryState) : (s.modMemory f).shadow = s.shadow := rfl
@[simp] theorem State.modMemory_mem (s : State) (f : MemoryState → MemoryState) : (s.modMemory f).mem = s.mem := rfl
@[simp] theorem State.modMemory_control (s : State) (f : MemoryState → MemoryState) : (s.modMemory f).control = s.control := rfl
@[simp] theorem State.modMemory_staged (s : State) (f : MemoryState → MemoryState) : (s.modMemory f).staged = s.staged := rfl
@[simp] theorem State.modMemory_timebase (s : State) (f : MemoryState → MemoryState) : (s.modMemory f).timebase = s.timebase := rfl
@[simp] theorem State.modMemory_draws (s : State) (f : MemoryState → MemoryState) : (s.modMemory f).draws = s.draws := rfl
@[simp] theorem State.modMemory_events (s : State) (f : MemoryState → MemoryState) : (s.modMemory f).events = s.events := rfl
@[simp] theorem State.modMemory_eventSeq (s : State) (f : MemoryState → MemoryState) : (s.modMemory f).eventSeq = s.eventSeq := rfl
@[simp] theorem State.modMemory_fret (s : State) (f : MemoryState → MemoryState) : (s.modMemory f).fret = s.fret := rfl
@[simp] theorem State.modMemory_capo (s : State) (f : MemoryState → MemoryState) : (s.modMemory f).capo = s.capo := rfl
@[simp] theorem State.modMemory_spe (s : State) (f : MemoryState → MemoryState) : (s.modMemory f).spe = s.spe := rfl
@[simp] theorem State.modMemory_str (s : State) (f : MemoryState → MemoryState) : (s.modMemory f).str = s.str := rfl
@[simp] theorem State.modMemory_harp (s : State) (f : MemoryState → MemoryState) : (s.modMemory f).harp = s.harp := rfl
@[simp] theorem State.modMemory_host (s : State) (f : MemoryState → MemoryState) : (s.modMemory f).host = s.host := rfl
@[simp] theorem State.modMemory_bridge (s : State) (f : MemoryState → MemoryState) : (s.modMemory f).bridge = s.bridge := rfl
@[simp] theorem State.modMemory_cab (s : State) (f : MemoryState → MemoryState) : (s.modMemory f).cab = s.cab := rfl
@[simp] theorem State.modMemory_phv (s : State) (f : MemoryState → MemoryState) : (s.modMemory f).phv = s.phv := rfl
@[simp] theorem State.modMemory_bur (s : State) (f : MemoryState → MemoryState) : (s.modMemory f).bur = s.bur := rfl
@[simp] theorem State.modMemory_power (s : State) (f : MemoryState → MemoryState) : (s.modMemory f).power = s.power := rfl
@[simp] theorem State.modMemory_cal (s : State) (f : MemoryState → MemoryState) : (s.modMemory f).cal = s.cal := rfl
@[simp] theorem State.modMemory_therm (s : State) (f : MemoryState → MemoryState) : (s.modMemory f).therm = s.therm := rfl
@[simp] theorem State.modMemory_lc (s : State) (f : MemoryState → MemoryState) : (s.modMemory f).lc = s.lc := rfl
@[simp] theorem State.modMemory_bench (s : State) (f : MemoryState → MemoryState) : (s.modMemory f).bench = s.bench := rfl
@[simp] theorem State.modMemory_out (s : State) (f : MemoryState → MemoryState) : (s.modMemory f).out = s.out := rfl
@[simp] theorem State.modMemory_pending (s : State) (f : MemoryState → MemoryState) : (s.modMemory f).pending = s.pending := rfl
@[simp] theorem State.modMemory_rd (s : State) (f : MemoryState → MemoryState) (r' : Reg) (j : Nat) : (s.modMemory f).rd r' j = s.rd r' j := rfl

/-! ### modBur -/

@[simp] theorem State.modBur_regs (s : State) (f : Bureau → Bureau) : (s.modBur f).regs = s.regs := rfl
@[simp] theorem State.modBur_shadow (s : State) (f : Bureau → Bureau) : (s.modBur f).shadow = s.shadow := rfl
@[simp] theorem State.modBur_mem (s : State) (f : Bureau → Bureau) : (s.modBur f).mem = s.mem := rfl
@[simp] theorem State.modBur_control (s : State) (f : Bureau → Bureau) : (s.modBur f).control = s.control := rfl
@[simp] theorem State.modBur_staged (s : State) (f : Bureau → Bureau) : (s.modBur f).staged = s.staged := rfl
@[simp] theorem State.modBur_timebase (s : State) (f : Bureau → Bureau) : (s.modBur f).timebase = s.timebase := rfl
@[simp] theorem State.modBur_draws (s : State) (f : Bureau → Bureau) : (s.modBur f).draws = s.draws := rfl
@[simp] theorem State.modBur_events (s : State) (f : Bureau → Bureau) : (s.modBur f).events = s.events := rfl
@[simp] theorem State.modBur_eventSeq (s : State) (f : Bureau → Bureau) : (s.modBur f).eventSeq = s.eventSeq := rfl
@[simp] theorem State.modBur_fret (s : State) (f : Bureau → Bureau) : (s.modBur f).fret = s.fret := rfl
@[simp] theorem State.modBur_capo (s : State) (f : Bureau → Bureau) : (s.modBur f).capo = s.capo := rfl
@[simp] theorem State.modBur_spe (s : State) (f : Bureau → Bureau) : (s.modBur f).spe = s.spe := rfl
@[simp] theorem State.modBur_str (s : State) (f : Bureau → Bureau) : (s.modBur f).str = s.str := rfl
@[simp] theorem State.modBur_harp (s : State) (f : Bureau → Bureau) : (s.modBur f).harp = s.harp := rfl
@[simp] theorem State.modBur_host (s : State) (f : Bureau → Bureau) : (s.modBur f).host = s.host := rfl
@[simp] theorem State.modBur_bridge (s : State) (f : Bureau → Bureau) : (s.modBur f).bridge = s.bridge := rfl
@[simp] theorem State.modBur_cab (s : State) (f : Bureau → Bureau) : (s.modBur f).cab = s.cab := rfl
@[simp] theorem State.modBur_phv (s : State) (f : Bureau → Bureau) : (s.modBur f).phv = s.phv := rfl
@[simp] theorem State.modBur_memory (s : State) (f : Bureau → Bureau) : (s.modBur f).memory = s.memory := rfl
@[simp] theorem State.modBur_power (s : State) (f : Bureau → Bureau) : (s.modBur f).power = s.power := rfl
@[simp] theorem State.modBur_cal (s : State) (f : Bureau → Bureau) : (s.modBur f).cal = s.cal := rfl
@[simp] theorem State.modBur_therm (s : State) (f : Bureau → Bureau) : (s.modBur f).therm = s.therm := rfl
@[simp] theorem State.modBur_lc (s : State) (f : Bureau → Bureau) : (s.modBur f).lc = s.lc := rfl
@[simp] theorem State.modBur_bench (s : State) (f : Bureau → Bureau) : (s.modBur f).bench = s.bench := rfl
@[simp] theorem State.modBur_out (s : State) (f : Bureau → Bureau) : (s.modBur f).out = s.out := rfl
@[simp] theorem State.modBur_pending (s : State) (f : Bureau → Bureau) : (s.modBur f).pending = s.pending := rfl
@[simp] theorem State.modBur_rd (s : State) (f : Bureau → Bureau) (r' : Reg) (j : Nat) : (s.modBur f).rd r' j = s.rd r' j := rfl

/-! ### modBridge -/

@[simp] theorem State.modBridge_regs (s : State) (f : BridgeState → BridgeState) : (s.modBridge f).regs = s.regs := rfl
@[simp] theorem State.modBridge_shadow (s : State) (f : BridgeState → BridgeState) : (s.modBridge f).shadow = s.shadow := rfl
@[simp] theorem State.modBridge_mem (s : State) (f : BridgeState → BridgeState) : (s.modBridge f).mem = s.mem := rfl
@[simp] theorem State.modBridge_control (s : State) (f : BridgeState → BridgeState) : (s.modBridge f).control = s.control := rfl
@[simp] theorem State.modBridge_staged (s : State) (f : BridgeState → BridgeState) : (s.modBridge f).staged = s.staged := rfl
@[simp] theorem State.modBridge_timebase (s : State) (f : BridgeState → BridgeState) : (s.modBridge f).timebase = s.timebase := rfl
@[simp] theorem State.modBridge_draws (s : State) (f : BridgeState → BridgeState) : (s.modBridge f).draws = s.draws := rfl
@[simp] theorem State.modBridge_events (s : State) (f : BridgeState → BridgeState) : (s.modBridge f).events = s.events := rfl
@[simp] theorem State.modBridge_eventSeq (s : State) (f : BridgeState → BridgeState) : (s.modBridge f).eventSeq = s.eventSeq := rfl
@[simp] theorem State.modBridge_fret (s : State) (f : BridgeState → BridgeState) : (s.modBridge f).fret = s.fret := rfl
@[simp] theorem State.modBridge_capo (s : State) (f : BridgeState → BridgeState) : (s.modBridge f).capo = s.capo := rfl
@[simp] theorem State.modBridge_spe (s : State) (f : BridgeState → BridgeState) : (s.modBridge f).spe = s.spe := rfl
@[simp] theorem State.modBridge_str (s : State) (f : BridgeState → BridgeState) : (s.modBridge f).str = s.str := rfl
@[simp] theorem State.modBridge_harp (s : State) (f : BridgeState → BridgeState) : (s.modBridge f).harp = s.harp := rfl
@[simp] theorem State.modBridge_host (s : State) (f : BridgeState → BridgeState) : (s.modBridge f).host = s.host := rfl
@[simp] theorem State.modBridge_cab (s : State) (f : BridgeState → BridgeState) : (s.modBridge f).cab = s.cab := rfl
@[simp] theorem State.modBridge_phv (s : State) (f : BridgeState → BridgeState) : (s.modBridge f).phv = s.phv := rfl
@[simp] theorem State.modBridge_memory (s : State) (f : BridgeState → BridgeState) : (s.modBridge f).memory = s.memory := rfl
@[simp] theorem State.modBridge_bur (s : State) (f : BridgeState → BridgeState) : (s.modBridge f).bur = s.bur := rfl
@[simp] theorem State.modBridge_power (s : State) (f : BridgeState → BridgeState) : (s.modBridge f).power = s.power := rfl
@[simp] theorem State.modBridge_cal (s : State) (f : BridgeState → BridgeState) : (s.modBridge f).cal = s.cal := rfl
@[simp] theorem State.modBridge_therm (s : State) (f : BridgeState → BridgeState) : (s.modBridge f).therm = s.therm := rfl
@[simp] theorem State.modBridge_lc (s : State) (f : BridgeState → BridgeState) : (s.modBridge f).lc = s.lc := rfl
@[simp] theorem State.modBridge_bench (s : State) (f : BridgeState → BridgeState) : (s.modBridge f).bench = s.bench := rfl
@[simp] theorem State.modBridge_out (s : State) (f : BridgeState → BridgeState) : (s.modBridge f).out = s.out := rfl
@[simp] theorem State.modBridge_pending (s : State) (f : BridgeState → BridgeState) : (s.modBridge f).pending = s.pending := rfl
@[simp] theorem State.modBridge_rd (s : State) (f : BridgeState → BridgeState) (r' : Reg) (j : Nat) : (s.modBridge f).rd r' j = s.rd r' j := rfl

/-! ### modHost -/

@[simp] theorem State.modHost_regs (s : State) (f : HostState → HostState) : (s.modHost f).regs = s.regs := rfl
@[simp] theorem State.modHost_shadow (s : State) (f : HostState → HostState) : (s.modHost f).shadow = s.shadow := rfl
@[simp] theorem State.modHost_mem (s : State) (f : HostState → HostState) : (s.modHost f).mem = s.mem := rfl
@[simp] theorem State.modHost_control (s : State) (f : HostState → HostState) : (s.modHost f).control = s.control := rfl
@[simp] theorem State.modHost_staged (s : State) (f : HostState → HostState) : (s.modHost f).staged = s.staged := rfl
@[simp] theorem State.modHost_timebase (s : State) (f : HostState → HostState) : (s.modHost f).timebase = s.timebase := rfl
@[simp] theorem State.modHost_draws (s : State) (f : HostState → HostState) : (s.modHost f).draws = s.draws := rfl
@[simp] theorem State.modHost_events (s : State) (f : HostState → HostState) : (s.modHost f).events = s.events := rfl
@[simp] theorem State.modHost_eventSeq (s : State) (f : HostState → HostState) : (s.modHost f).eventSeq = s.eventSeq := rfl
@[simp] theorem State.modHost_fret (s : State) (f : HostState → HostState) : (s.modHost f).fret = s.fret := rfl
@[simp] theorem State.modHost_capo (s : State) (f : HostState → HostState) : (s.modHost f).capo = s.capo := rfl
@[simp] theorem State.modHost_spe (s : State) (f : HostState → HostState) : (s.modHost f).spe = s.spe := rfl
@[simp] theorem State.modHost_str (s : State) (f : HostState → HostState) : (s.modHost f).str = s.str := rfl
@[simp] theorem State.modHost_harp (s : State) (f : HostState → HostState) : (s.modHost f).harp = s.harp := rfl
@[simp] theorem State.modHost_bridge (s : State) (f : HostState → HostState) : (s.modHost f).bridge = s.bridge := rfl
@[simp] theorem State.modHost_cab (s : State) (f : HostState → HostState) : (s.modHost f).cab = s.cab := rfl
@[simp] theorem State.modHost_phv (s : State) (f : HostState → HostState) : (s.modHost f).phv = s.phv := rfl
@[simp] theorem State.modHost_memory (s : State) (f : HostState → HostState) : (s.modHost f).memory = s.memory := rfl
@[simp] theorem State.modHost_bur (s : State) (f : HostState → HostState) : (s.modHost f).bur = s.bur := rfl
@[simp] theorem State.modHost_power (s : State) (f : HostState → HostState) : (s.modHost f).power = s.power := rfl
@[simp] theorem State.modHost_cal (s : State) (f : HostState → HostState) : (s.modHost f).cal = s.cal := rfl
@[simp] theorem State.modHost_therm (s : State) (f : HostState → HostState) : (s.modHost f).therm = s.therm := rfl
@[simp] theorem State.modHost_lc (s : State) (f : HostState → HostState) : (s.modHost f).lc = s.lc := rfl
@[simp] theorem State.modHost_bench (s : State) (f : HostState → HostState) : (s.modHost f).bench = s.bench := rfl
@[simp] theorem State.modHost_out (s : State) (f : HostState → HostState) : (s.modHost f).out = s.out := rfl
@[simp] theorem State.modHost_pending (s : State) (f : HostState → HostState) : (s.modHost f).pending = s.pending := rfl
@[simp] theorem State.modHost_rd (s : State) (f : HostState → HostState) (r' : Reg) (j : Nat) : (s.modHost f).rd r' j = s.rd r' j := rfl

/-! ### modPower -/

@[simp] theorem State.modPower_regs (s : State) (f : Power → Power) : (s.modPower f).regs = s.regs := rfl
@[simp] theorem State.modPower_shadow (s : State) (f : Power → Power) : (s.modPower f).shadow = s.shadow := rfl
@[simp] theorem State.modPower_mem (s : State) (f : Power → Power) : (s.modPower f).mem = s.mem := rfl
@[simp] theorem State.modPower_control (s : State) (f : Power → Power) : (s.modPower f).control = s.control := rfl
@[simp] theorem State.modPower_staged (s : State) (f : Power → Power) : (s.modPower f).staged = s.staged := rfl
@[simp] theorem State.modPower_timebase (s : State) (f : Power → Power) : (s.modPower f).timebase = s.timebase := rfl
@[simp] theorem State.modPower_draws (s : State) (f : Power → Power) : (s.modPower f).draws = s.draws := rfl
@[simp] theorem State.modPower_events (s : State) (f : Power → Power) : (s.modPower f).events = s.events := rfl
@[simp] theorem State.modPower_eventSeq (s : State) (f : Power → Power) : (s.modPower f).eventSeq = s.eventSeq := rfl
@[simp] theorem State.modPower_fret (s : State) (f : Power → Power) : (s.modPower f).fret = s.fret := rfl
@[simp] theorem State.modPower_capo (s : State) (f : Power → Power) : (s.modPower f).capo = s.capo := rfl
@[simp] theorem State.modPower_spe (s : State) (f : Power → Power) : (s.modPower f).spe = s.spe := rfl
@[simp] theorem State.modPower_str (s : State) (f : Power → Power) : (s.modPower f).str = s.str := rfl
@[simp] theorem State.modPower_harp (s : State) (f : Power → Power) : (s.modPower f).harp = s.harp := rfl
@[simp] theorem State.modPower_host (s : State) (f : Power → Power) : (s.modPower f).host = s.host := rfl
@[simp] theorem State.modPower_bridge (s : State) (f : Power → Power) : (s.modPower f).bridge = s.bridge := rfl
@[simp] theorem State.modPower_cab (s : State) (f : Power → Power) : (s.modPower f).cab = s.cab := rfl
@[simp] theorem State.modPower_phv (s : State) (f : Power → Power) : (s.modPower f).phv = s.phv := rfl
@[simp] theorem State.modPower_memory (s : State) (f : Power → Power) : (s.modPower f).memory = s.memory := rfl
@[simp] theorem State.modPower_bur (s : State) (f : Power → Power) : (s.modPower f).bur = s.bur := rfl
@[simp] theorem State.modPower_cal (s : State) (f : Power → Power) : (s.modPower f).cal = s.cal := rfl
@[simp] theorem State.modPower_therm (s : State) (f : Power → Power) : (s.modPower f).therm = s.therm := rfl
@[simp] theorem State.modPower_lc (s : State) (f : Power → Power) : (s.modPower f).lc = s.lc := rfl
@[simp] theorem State.modPower_bench (s : State) (f : Power → Power) : (s.modPower f).bench = s.bench := rfl
@[simp] theorem State.modPower_out (s : State) (f : Power → Power) : (s.modPower f).out = s.out := rfl
@[simp] theorem State.modPower_pending (s : State) (f : Power → Power) : (s.modPower f).pending = s.pending := rfl
@[simp] theorem State.modPower_rd (s : State) (f : Power → Power) (r' : Reg) (j : Nat) : (s.modPower f).rd r' j = s.rd r' j := rfl

/-! ### modLc -/

@[simp] theorem State.modLc_regs (s : State) (f : LifeCycle → LifeCycle) : (s.modLc f).regs = s.regs := rfl
@[simp] theorem State.modLc_shadow (s : State) (f : LifeCycle → LifeCycle) : (s.modLc f).shadow = s.shadow := rfl
@[simp] theorem State.modLc_mem (s : State) (f : LifeCycle → LifeCycle) : (s.modLc f).mem = s.mem := rfl
@[simp] theorem State.modLc_control (s : State) (f : LifeCycle → LifeCycle) : (s.modLc f).control = s.control := rfl
@[simp] theorem State.modLc_staged (s : State) (f : LifeCycle → LifeCycle) : (s.modLc f).staged = s.staged := rfl
@[simp] theorem State.modLc_timebase (s : State) (f : LifeCycle → LifeCycle) : (s.modLc f).timebase = s.timebase := rfl
@[simp] theorem State.modLc_draws (s : State) (f : LifeCycle → LifeCycle) : (s.modLc f).draws = s.draws := rfl
@[simp] theorem State.modLc_events (s : State) (f : LifeCycle → LifeCycle) : (s.modLc f).events = s.events := rfl
@[simp] theorem State.modLc_eventSeq (s : State) (f : LifeCycle → LifeCycle) : (s.modLc f).eventSeq = s.eventSeq := rfl
@[simp] theorem State.modLc_fret (s : State) (f : LifeCycle → LifeCycle) : (s.modLc f).fret = s.fret := rfl
@[simp] theorem State.modLc_capo (s : State) (f : LifeCycle → LifeCycle) : (s.modLc f).capo = s.capo := rfl
@[simp] theorem State.modLc_spe (s : State) (f : LifeCycle → LifeCycle) : (s.modLc f).spe = s.spe := rfl
@[simp] theorem State.modLc_str (s : State) (f : LifeCycle → LifeCycle) : (s.modLc f).str = s.str := rfl
@[simp] theorem State.modLc_harp (s : State) (f : LifeCycle → LifeCycle) : (s.modLc f).harp = s.harp := rfl
@[simp] theorem State.modLc_host (s : State) (f : LifeCycle → LifeCycle) : (s.modLc f).host = s.host := rfl
@[simp] theorem State.modLc_bridge (s : State) (f : LifeCycle → LifeCycle) : (s.modLc f).bridge = s.bridge := rfl
@[simp] theorem State.modLc_cab (s : State) (f : LifeCycle → LifeCycle) : (s.modLc f).cab = s.cab := rfl
@[simp] theorem State.modLc_phv (s : State) (f : LifeCycle → LifeCycle) : (s.modLc f).phv = s.phv := rfl
@[simp] theorem State.modLc_memory (s : State) (f : LifeCycle → LifeCycle) : (s.modLc f).memory = s.memory := rfl
@[simp] theorem State.modLc_bur (s : State) (f : LifeCycle → LifeCycle) : (s.modLc f).bur = s.bur := rfl
@[simp] theorem State.modLc_power (s : State) (f : LifeCycle → LifeCycle) : (s.modLc f).power = s.power := rfl
@[simp] theorem State.modLc_cal (s : State) (f : LifeCycle → LifeCycle) : (s.modLc f).cal = s.cal := rfl
@[simp] theorem State.modLc_therm (s : State) (f : LifeCycle → LifeCycle) : (s.modLc f).therm = s.therm := rfl
@[simp] theorem State.modLc_bench (s : State) (f : LifeCycle → LifeCycle) : (s.modLc f).bench = s.bench := rfl
@[simp] theorem State.modLc_out (s : State) (f : LifeCycle → LifeCycle) : (s.modLc f).out = s.out := rfl
@[simp] theorem State.modLc_pending (s : State) (f : LifeCycle → LifeCycle) : (s.modLc f).pending = s.pending := rfl
@[simp] theorem State.modLc_rd (s : State) (f : LifeCycle → LifeCycle) (r' : Reg) (j : Nat) : (s.modLc f).rd r' j = s.rd r' j := rfl

/-! ### modTherm -/

@[simp] theorem State.modTherm_regs (s : State) (f : Thermal → Thermal) : (s.modTherm f).regs = s.regs := rfl
@[simp] theorem State.modTherm_shadow (s : State) (f : Thermal → Thermal) : (s.modTherm f).shadow = s.shadow := rfl
@[simp] theorem State.modTherm_mem (s : State) (f : Thermal → Thermal) : (s.modTherm f).mem = s.mem := rfl
@[simp] theorem State.modTherm_control (s : State) (f : Thermal → Thermal) : (s.modTherm f).control = s.control := rfl
@[simp] theorem State.modTherm_staged (s : State) (f : Thermal → Thermal) : (s.modTherm f).staged = s.staged := rfl
@[simp] theorem State.modTherm_timebase (s : State) (f : Thermal → Thermal) : (s.modTherm f).timebase = s.timebase := rfl
@[simp] theorem State.modTherm_draws (s : State) (f : Thermal → Thermal) : (s.modTherm f).draws = s.draws := rfl
@[simp] theorem State.modTherm_events (s : State) (f : Thermal → Thermal) : (s.modTherm f).events = s.events := rfl
@[simp] theorem State.modTherm_eventSeq (s : State) (f : Thermal → Thermal) : (s.modTherm f).eventSeq = s.eventSeq := rfl
@[simp] theorem State.modTherm_fret (s : State) (f : Thermal → Thermal) : (s.modTherm f).fret = s.fret := rfl
@[simp] theorem State.modTherm_capo (s : State) (f : Thermal → Thermal) : (s.modTherm f).capo = s.capo := rfl
@[simp] theorem State.modTherm_spe (s : State) (f : Thermal → Thermal) : (s.modTherm f).spe = s.spe := rfl
@[simp] theorem State.modTherm_str (s : State) (f : Thermal → Thermal) : (s.modTherm f).str = s.str := rfl
@[simp] theorem State.modTherm_harp (s : State) (f : Thermal → Thermal) : (s.modTherm f).harp = s.harp := rfl
@[simp] theorem State.modTherm_host (s : State) (f : Thermal → Thermal) : (s.modTherm f).host = s.host := rfl
@[simp] theorem State.modTherm_bridge (s : State) (f : Thermal → Thermal) : (s.modTherm f).bridge = s.bridge := rfl
@[simp] theorem State.modTherm_cab (s : State) (f : Thermal → Thermal) : (s.modTherm f).cab = s.cab := rfl
@[simp] theorem State.modTherm_phv (s : State) (f : Thermal → Thermal) : (s.modTherm f).phv = s.phv := rfl
@[simp] theorem State.modTherm_memory (s : State) (f : Thermal → Thermal) : (s.modTherm f).memory = s.memory := rfl
@[simp] theorem State.modTherm_bur (s : State) (f : Thermal → Thermal) : (s.modTherm f).bur = s.bur := rfl
@[simp] theorem State.modTherm_power (s : State) (f : Thermal → Thermal) : (s.modTherm f).power = s.power := rfl
@[simp] theorem State.modTherm_cal (s : State) (f : Thermal → Thermal) : (s.modTherm f).cal = s.cal := rfl
@[simp] theorem State.modTherm_lc (s : State) (f : Thermal → Thermal) : (s.modTherm f).lc = s.lc := rfl
@[simp] theorem State.modTherm_bench (s : State) (f : Thermal → Thermal) : (s.modTherm f).bench = s.bench := rfl
@[simp] theorem State.modTherm_out (s : State) (f : Thermal → Thermal) : (s.modTherm f).out = s.out := rfl
@[simp] theorem State.modTherm_pending (s : State) (f : Thermal → Thermal) : (s.modTherm f).pending = s.pending := rfl
@[simp] theorem State.modTherm_rd (s : State) (f : Thermal → Thermal) (r' : Reg) (j : Nat) : (s.modTherm f).rd r' j = s.rd r' j := rfl

/-! ### modCal -/

@[simp] theorem State.modCal_regs (s : State) (f : Cal → Cal) : (s.modCal f).regs = s.regs := rfl
@[simp] theorem State.modCal_shadow (s : State) (f : Cal → Cal) : (s.modCal f).shadow = s.shadow := rfl
@[simp] theorem State.modCal_mem (s : State) (f : Cal → Cal) : (s.modCal f).mem = s.mem := rfl
@[simp] theorem State.modCal_control (s : State) (f : Cal → Cal) : (s.modCal f).control = s.control := rfl
@[simp] theorem State.modCal_staged (s : State) (f : Cal → Cal) : (s.modCal f).staged = s.staged := rfl
@[simp] theorem State.modCal_timebase (s : State) (f : Cal → Cal) : (s.modCal f).timebase = s.timebase := rfl
@[simp] theorem State.modCal_draws (s : State) (f : Cal → Cal) : (s.modCal f).draws = s.draws := rfl
@[simp] theorem State.modCal_events (s : State) (f : Cal → Cal) : (s.modCal f).events = s.events := rfl
@[simp] theorem State.modCal_eventSeq (s : State) (f : Cal → Cal) : (s.modCal f).eventSeq = s.eventSeq := rfl
@[simp] theorem State.modCal_fret (s : State) (f : Cal → Cal) : (s.modCal f).fret = s.fret := rfl
@[simp] theorem State.modCal_capo (s : State) (f : Cal → Cal) : (s.modCal f).capo = s.capo := rfl
@[simp] theorem State.modCal_spe (s : State) (f : Cal → Cal) : (s.modCal f).spe = s.spe := rfl
@[simp] theorem State.modCal_str (s : State) (f : Cal → Cal) : (s.modCal f).str = s.str := rfl
@[simp] theorem State.modCal_harp (s : State) (f : Cal → Cal) : (s.modCal f).harp = s.harp := rfl
@[simp] theorem State.modCal_host (s : State) (f : Cal → Cal) : (s.modCal f).host = s.host := rfl
@[simp] theorem State.modCal_bridge (s : State) (f : Cal → Cal) : (s.modCal f).bridge = s.bridge := rfl
@[simp] theorem State.modCal_cab (s : State) (f : Cal → Cal) : (s.modCal f).cab = s.cab := rfl
@[simp] theorem State.modCal_phv (s : State) (f : Cal → Cal) : (s.modCal f).phv = s.phv := rfl
@[simp] theorem State.modCal_memory (s : State) (f : Cal → Cal) : (s.modCal f).memory = s.memory := rfl
@[simp] theorem State.modCal_bur (s : State) (f : Cal → Cal) : (s.modCal f).bur = s.bur := rfl
@[simp] theorem State.modCal_power (s : State) (f : Cal → Cal) : (s.modCal f).power = s.power := rfl
@[simp] theorem State.modCal_therm (s : State) (f : Cal → Cal) : (s.modCal f).therm = s.therm := rfl
@[simp] theorem State.modCal_lc (s : State) (f : Cal → Cal) : (s.modCal f).lc = s.lc := rfl
@[simp] theorem State.modCal_bench (s : State) (f : Cal → Cal) : (s.modCal f).bench = s.bench := rfl
@[simp] theorem State.modCal_out (s : State) (f : Cal → Cal) : (s.modCal f).out = s.out := rfl
@[simp] theorem State.modCal_pending (s : State) (f : Cal → Cal) : (s.modCal f).pending = s.pending := rfl
@[simp] theorem State.modCal_rd (s : State) (f : Cal → Cal) (r' : Reg) (j : Nat) : (s.modCal f).rd r' j = s.rd r' j := rfl

/-! ### when -/

@[simp] theorem State.when_true (s : State) (f : State → State) : s.when true f = f s := rfl
@[simp] theorem State.when_false (s : State) (f : State → State) : s.when false f = s := rfl

/-! ### Sparse stores -/

theorem storeFind_storePut_self (m : List (Nat × Nat)) (k v : Nat) : storeFind (storePut m k v) k = some v := by
  induction m with
  | nil => simp [storePut, storeFind]
  | cons e t ih =>
    obtain ⟨a, b⟩ := e
    by_cases h : k < a
    · simp [storePut, storeFind, h]
    · by_cases h' : k = a
      · simp [storePut, storeFind, h']
      · simp [storePut, storeFind, h, h', Ne.symm h', ih]

theorem storeFind_storePut_ne (m : List (Nat × Nat)) (k v j : Nat) (hj : j ≠ k) :
    storeFind (storePut m k v) j = storeFind m j := by
  induction m with
  | nil => simp [storePut, storeFind, Ne.symm hj]
  | cons e t ih =>
    obtain ⟨a, b⟩ := e
    by_cases h : k < a
    · simp [storePut, storeFind, h, Ne.symm hj]
    · by_cases h' : k = a
      · subst h'; simp [storePut, storeFind, Ne.symm hj]
      · simp [storePut, storeFind, h, h', ih]

theorem storeFind_storeDrop_self (m : List (Nat × Nat)) (k : Nat) : storeFind (storeDrop m k) k = none := by
  induction m with
  | nil => rfl
  | cons e t ih =>
    obtain ⟨a, b⟩ := e
    unfold storeDrop at ih ⊢
    by_cases h : a = k
    · simp [h, ih]
    · simp [h, storeFind, ih]

theorem storeFind_storeDrop_ne (m : List (Nat × Nat)) (k j : Nat) (hj : j ≠ k) : storeFind (storeDrop m k) j = storeFind m j := by
  induction m with
  | nil => rfl
  | cons e t ih =>
    obtain ⟨a, b⟩ := e
    unfold storeDrop at ih ⊢
    by_cases h : a = k
    · subst h; simp [storeFind, Ne.symm hj, ih]
    · simp [h, storeFind, ih]

/-! ### Registers -/

/-- A field reads what was written to it, truncated to its width. -/
@[simp] theorem State.rd_wr_self (s : State) (r : Reg) (v i : Nat) : (s.wr r v i).rd r i = v % 2 ^ r.row.width := by
  unfold State.rd State.wr
  by_cases h : v % 2 ^ r.row.width = r.row.reset
  · simp [h, storeFind_storeDrop_self]
  · simp [h, storeFind_storePut_self]

/-- Another field reads as before. -/
theorem State.rd_wr_key (s : State) (r r' : Reg) (v i j : Nat) (h : regKey r' j ≠ regKey r i) : (s.wr r v i).rd r' j = s.rd r' j := by
  unfold State.rd State.wr
  by_cases hv : v % 2 ^ r.row.width = r.row.reset
  · simp [hv, storeFind_storeDrop_ne _ _ _ h]
  · simp [hv, storeFind_storePut_ne _ _ _ _ h]

/-- A field is determined by its place in the enumeration. -/
theorem Reg.eq_of_ctorIdx {r r' : Reg} (h : r.ctorIdx = r'.ctorIdx) : r = r' := by
  have := congrArg Reg.ofNat h
  simpa [Reg.ofNat_ctorIdx] using this

/-- Keys differ when the fields differ. -/
theorem regKey_ne {r r' : Reg} (i j : Nat) (hr : r ≠ r') : regKey r i ≠ regKey r' j := by
  intro h
  apply hr
  apply Reg.eq_of_ctorIdx
  unfold regKey at h; omega

/-- A write of one field leaves another as it was. -/
@[simp] theorem State.rd_wr_ne (s : State) (r r' : Reg) (v i j : Nat) (hr : r' ≠ r) : (s.wr r v i).rd r' j = s.rd r' j :=
  s.rd_wr_key r r' v i j (regKey_ne j i hr)

/-- A write of one entry of a field leaves the others as they were. -/
theorem State.rd_wr_entry (s : State) (r : Reg) (v i j : Nat) (h : j % 2 ^ 20 ≠ i % 2 ^ 20) : (s.wr r v i).rd r j = s.rd r j :=
  s.rd_wr_key r r v i j (by unfold regKey; omega)

/-- Entries of the Strings' blocks are below 2^20. -/
theorem ix_lt (x : Str) (k : Nat) (h : k < 65536) : x.ix k < 2 ^ 20 := by
  cases x <;> simp [Str.ix, Str.num] <;> omega

/-! ### The queue -/

/-- A step with a command in front. -/
@[simp] theorem step_cons (s : State) (c : Instr) (rest : List Instr) :
    step { s with pending := c :: rest } = exec c { s with pending := rest } := rfl

/-- A step with no command waiting. -/
@[simp] theorem step_nil (s : State) (h : s.pending = []) : step s = .next s := by unfold step; rw [h]

end Sys2Proof.Machine
end

