-- ==== Sys2Proof/Laws/Memory.lean ====
section
/-! SUPPORT. Laws/Memory.lean: the memory's canonical form is kept by every memory operation; a read after a write. -/
namespace Sys2Proof.Machine

/-- The head of a memory in canonical form: not zero, below every other address, and the rest in canonical form. -/
theorem memWf_cons (a : Nat) (v : Byte) (t : List Host.Cell) :
    memWf ((a, v) :: t) = true ↔ v ≠ 0#8 ∧ (∀ e ∈ t, a < e.1) ∧ memWf t = true := by
  induction t generalizing a v with
  | nil => simp [memWf]
  | cons b t ih =>
    obtain ⟨b, w⟩ := b
    have e : memWf ((a, v) :: (b, w) :: t) = true ↔ a < b ∧ v ≠ 0#8 ∧ memWf ((b, w) :: t) = true := by
      simp [memWf, and_assoc]
    rw [e, ih b w]
    constructor
    · rintro ⟨hab, hv, hw, hlt, ht⟩
      refine ⟨hv, ?_, hw, hlt, ht⟩
      intro c hc
      rcases List.mem_cons.mp hc with rfl | hc
      · exact hab
      · exact hab.trans (hlt c hc)
    · rintro ⟨hv, hall, hw, hlt, ht⟩
      exact ⟨hall (b, w) (by simp), hv, hw, hlt, ht⟩

/-- Every address listed after a put was listed before or is the one put. -/
theorem mem_memPut {m : List Host.Cell} {a : Nat} {v : Byte} {e : Host.Cell} (h : e ∈ memPut m a v) : e ∈ m ∨ e.1 = a := by
  induction m with
  | nil =>
    unfold memPut at h
    split at h
    · exact absurd h (List.not_mem_nil)
    · exact Or.inr (by rw [List.mem_singleton.mp h])
  | cons b t ih =>
    obtain ⟨b, w⟩ := b
    unfold memPut at h
    split at h
    · split at h
      · exact Or.inl h
      · rcases List.mem_cons.mp h with rfl | h
        · exact Or.inr rfl
        · exact Or.inl h
    · split at h
      · split at h
        · exact Or.inl (List.mem_cons_of_mem _ h)
        · rcases List.mem_cons.mp h with rfl | h
          · exact Or.inr rfl
          · exact Or.inl (List.mem_cons_of_mem _ h)
      · rcases List.mem_cons.mp h with rfl | h
        · exact Or.inl (List.mem_cons_self)
        · rcases ih h with h | h
          · exact Or.inl (List.mem_cons_of_mem _ h)
          · exact Or.inr h

/-- A put keeps the canonical form. -/
theorem memWf_memPut (m : List Host.Cell) (a : Nat) (v : Byte) (h : memWf m = true) : memWf (memPut m a v) = true := by
  induction m with
  | nil => by_cases hv : v = 0#8 <;> simp [memPut, hv, memWf]
  | cons b t ih =>
    obtain ⟨b, w⟩ := b
    obtain ⟨hw, hlt, ht⟩ := (memWf_cons b w t).mp h
    by_cases h1 : a < b
    · by_cases hv : v = 0#8
      · simpa [memPut, h1, hv] using h
      · have : memPut ((b, w) :: t) a v = (a, v) :: (b, w) :: t := by simp [memPut, h1, hv]
        rw [this, memWf_cons]
        refine ⟨hv, ?_, h⟩
        intro e he
        rcases List.mem_cons.mp he with rfl | he
        · exact h1
        · exact h1.trans (hlt e he)
    · by_cases h2 : a = b
      · subst h2
        by_cases hv : v = 0#8
        · simpa [memPut, hv] using ht
        · have : memPut ((a, w) :: t) a v = (a, v) :: t := by simp [memPut, hv]
          rw [this, memWf_cons]; exact ⟨hv, hlt, ht⟩
      · have : memPut ((b, w) :: t) a v = (b, w) :: memPut t a v := by simp [memPut, h1, h2]
        rw [this, memWf_cons]
        refine ⟨hw, ?_, ih ht⟩
        intro e he
        rcases mem_memPut he with he | he
        · exact hlt e he
        · omega

/-- An address above every listed one, or below, is not found. -/
theorem memFind_not_listed (m : List Host.Cell) (a : Nat) (h : ∀ e ∈ m, e.1 ≠ a) : memFind m a = 0 := by
  induction m with
  | nil => rfl
  | cons b t ih =>
    obtain ⟨b, w⟩ := b
    have hb : b ≠ a := h (b, w) (by simp)
    simp [memFind, hb, ih fun e he => h e (by simp [he])]

/-- Read after write: the byte put at its address, every other byte as before. -/
theorem memFind_memPut (m : List Host.Cell) (a b : Nat) (v : Byte) (h : memWf m = true) :
    memFind (memPut m a v) b = if b = a then v else memFind m b := by
  induction m with
  | nil =>
    by_cases hb : b = a
    · subst hb; by_cases hv : v = 0#8 <;> simp [memPut, hv, memFind]
    · by_cases hv : v = 0#8 <;> simp [memPut, hv, hb, memFind, Ne.symm hb]
  | cons c t ih =>
    obtain ⟨c, w⟩ := c
    obtain ⟨hw, hlt, ht⟩ := (memWf_cons c w t).mp h
    have low : a ≤ c → memFind t a = 0 := fun hac => memFind_not_listed t a fun e he => by have := hlt e he; omega
    by_cases h1 : a < c
    · have hn := low (by omega)
      have hca : c ≠ a := by omega
      by_cases hv : v = 0#8
      · by_cases hb : b = a
        · subst hb; simp [memPut, h1, hv, memFind, hca, hn]
        · simp [memPut, h1, hv, hb]
      · by_cases hb : b = a
        · subst hb; simp [memPut, h1, hv, memFind]
        · simp [memPut, h1, hv, memFind, hb, Ne.symm hb]
    · by_cases h2 : a = c
      · subst h2
        have hn := low (le_refl _)
        by_cases hv : v = 0#8
        · by_cases hb : b = a
          · subst hb; simp [memPut, hv, hn]
          · simp [memPut, hv, memFind, hb, Ne.symm hb]
        · by_cases hb : b = a
          · subst hb; simp [memPut, hv, memFind]
          · simp [memPut, hv, memFind, hb, Ne.symm hb]
      · have e : memPut ((c, w) :: t) a v = (c, w) :: memPut t a v := by simp [memPut, h1, h2]
        rw [e]
        by_cases hc : c = b
        · subst hc; simp [memFind, Ne.symm h2]
        · simp [memFind, hc, ih ht]

/-- Dropping bytes keeps the canonical form. -/
theorem memWf_filter (m : List Host.Cell) (p : Host.Cell → Bool) (h : memWf m = true) : memWf (m.filter p) = true := by
  induction m with
  | nil => rfl
  | cons b t ih =>
    obtain ⟨b, w⟩ := b
    obtain ⟨hw, hlt, ht⟩ := (memWf_cons b w t).mp h
    by_cases hp : p (b, w) = true
    · rw [List.filter_cons_of_pos hp, memWf_cons]
      exact ⟨hw, fun e he => hlt e (List.mem_of_mem_filter he), ih ht⟩
    · rw [List.filter_cons_of_neg hp]; exact ih ht

/-- A byte written keeps the canonical form. -/
theorem State.writeByte_wf (s : State) (m : MemRegion) (a v : Nat) (h : Memory.wf s.mem) : Memory.wf (s.writeByte m a v).mem := by
  cases m <;> first | exact h | exact memWf_memPut _ _ _ h

/-- Bytes written keep the canonical form. -/
theorem State.writeMem_wf (m : MemRegion) (k : Nat) (s : State) (a v : Nat) (h : Memory.wf s.mem) : Memory.wf (s.writeMem m a v k).mem := by
  induction k generalizing s a v with
  | zero => exact h
  | succ k ih => exact ih _ _ _ (s.writeByte_wf m a _ h)

/-- Bytes outside the ones written read as before. -/
theorem State.writeMem_other (m : MemRegion) (k : Nat) (s : State) (a v b : Nat) (h : Memory.wf s.mem) (hb : b < a ∨ a + k ≤ b) :
    memFind (s.writeMem m a v k).mem b = memFind s.mem b := by
  induction k generalizing s a v with
  | zero => rfl
  | succ k ih =>
    rw [State.writeMem, ih _ _ _ (s.writeByte_wf m a _ h) (by omega)]
    have hne : b ≠ a := by omega
    cases m <;> first | rfl | (simp only [State.writeByte]; rw [memFind_memPut _ _ _ _ h, if_neg hne])

/-- The bytes written read back. -/
theorem State.writeMem_byte (m : MemRegion) (hm : m ≠ .rom ∧ m ≠ .nor) (k : Nat) (s : State) (a v i : Nat) (h : Memory.wf s.mem) (hi : i < k) :
    (memFind (s.writeMem m a v k).mem (a + i)).toNat = v / 256 ^ i % 256 := by
  induction k generalizing s a v i with
  | zero => omega
  | succ k ih =>
    have hw := s.writeByte_wf m a (v % 256) h
    rw [State.writeMem]
    cases i with
    | zero =>
      rw [Nat.add_zero, State.writeMem_other m k _ _ _ _ hw (by omega)]
      obtain ⟨h1, h2⟩ := hm
      cases m <;> first
        | contradiction
        | (simp only [State.writeByte]; rw [memFind_memPut _ _ _ _ h]; simp)
    | succ i =>
      have := ih (s.writeByte m a (v % 256)) (a + 1) (v / 256) i hw (by omega)
      rw [show a + (i + 1) = a + 1 + i by omega, this, Nat.div_div_eq_div_mul, pow_succ, Nat.mul_comm 256]

end Sys2Proof.Machine
end

