-- ==== Sys2Proof/Laws/Frame.lean ====
section
/-! SUPPORT. Laws/Frame.lean: what an operation keeps, as one relation with a mask of the register fields and one of the parts it
may change, and the rules by which the relation is composed. -/
namespace Sys2Proof.Machine

/-- `t` comes from `s` by changes within the masks: bit `r.ctorIdx` of `m` for a register field, bit `p.ctorIdx` of `q` for a part.
The queue stands, the memory's canonical form is kept, no fuse is unblown. -/
structure Keeps (m q : Nat) (s t : State) : Prop where
  regs : ∀ r j, m.testBit r.ctorIdx = false → t.rd r j = s.rd r j
  parts : ∀ p : Part, q.testBit p.ctorIdx = false → p.same s t
  queue : t.pending = s.pending
  memory : Memory.wf s.mem → Memory.wf t.mem
  fuses : FusesKept s t

theorem Part.same_refl (p : Part) (s : State) : p.same s s := by cases p <;> rfl

theorem Part.same_trans (p : Part) {s t u : State} (h : p.same s t) (k : p.same t u) : p.same s u := by
  cases p <;> exact Eq.trans k h

theorem FusesKept.refl (s : State) : FusesKept s s := ⟨fun _ h => h, fun h => h⟩

theorem FusesKept.trans {s t u : State} (h : FusesKept s t) (k : FusesKept t u) : FusesKept s u :=
  ⟨fun i hi => k.1 i (h.1 i hi), fun hi => k.2 (h.2 hi)⟩

theorem Keeps.refl {m q : Nat} (s : State) : Keeps m q s s :=
  ⟨fun _ _ _ => rfl, fun p _ => p.same_refl s, rfl, fun h => h, FusesKept.refl s⟩

theorem testBit_of_lor {a b i : Nat} (h : Nat.lor a b = b) (k : b.testBit i = false) : a.testBit i = false := by
  have e : (a ||| b).testBit i = b.testBit i := by
    have : a ||| b = b := h
    rw [this]
  rw [Nat.testBit_or, k, Bool.or_false] at e
  exact e

theorem lor_of {a M m : Nat} (h : Nat.lor M m = m) (k : Nat.lor a M = M) : Nat.lor a m = m := by
  change a ||| m = m
  change M ||| m = m at h
  change a ||| M = M at k
  rw [← h, ← Nat.lor_assoc, k]

theorem bit_of {M m i : Nat} (h : Nat.lor M m = m) (k : M.testBit i = true) : m.testBit i = true := by
  by_contra hc
  rw [testBit_of_lor h (Bool.eq_false_iff.mpr hc)] at k
  exact absurd k (by decide)

/-- One operation after others. -/
theorem Keeps.after {m q M Q : Nat} {s t u : State} (k : Keeps m q t u) (hm : Nat.lor m M = M) (hq : Nat.lor q Q = Q)
    (h : Keeps M Q s t) : Keeps M Q s u where
  regs r j hr := (k.regs r j (testBit_of_lor hm hr)).trans (h.regs r j hr)
  parts p hp := p.same_trans (h.parts p hp) (k.parts p (testBit_of_lor hq hp))
  queue := k.queue.trans h.queue
  memory w := k.memory (h.memory w)
  fuses := h.fuses.trans k.fuses

theorem Keeps.trans {m q : Nat} {s t u : State} (h : Keeps m q s t) (k : Keeps m q t u) : Keeps m q s u :=
  k.after (Nat.or_self m) (Nat.or_self q) h

/-- A larger mask. -/
theorem Keeps.mono {m q M Q : Nat} {s t : State} (k : Keeps m q s t) (hm : Nat.lor m M = M) (hq : Nat.lor q Q = Q) : Keeps M Q s t :=
  k.after hm hq (Keeps.refl s)

/-- A register field is written. -/
theorem Keeps.wr {m q : Nat} {s t : State} {r : Reg} {v i : Nat} (h : Keeps m q s t) (hr : Nat.testBit m r.ctorIdx = true) :
    Keeps m q s (t.wr r v i) where
  regs r' j hj := by
    rw [State.rd_wr_ne t r r' v i j (by rintro rfl; rw [hr] at hj; exact absurd hj (by decide))]
    exact h.regs r' j hj
  parts p hp := p.same_trans (h.parts p hp) (by cases p <;> rfl)
  queue := h.queue
  memory := h.memory
  fuses := h.fuses

theorem Keeps.flag {m q : Nat} {s t : State} {r : Reg} {i : Nat} (h : Keeps m q s t) (hr : Nat.testBit m r.ctorIdx = true) :
    Keeps m q s (t.flag r i) := h.wr hr
theorem Keeps.unflag {m q : Nat} {s t : State} {r : Reg} {i : Nat} (h : Keeps m q s t) (hr : Nat.testBit m r.ctorIdx = true) :
    Keeps m q s (t.unflag r i) := h.wr hr
theorem Keeps.setTo {m q : Nat} {s t : State} {r : Reg} {b : Bool} {i : Nat} (h : Keeps m q s t) (hr : Nat.testBit m r.ctorIdx = true) :
    Keeps m q s (t.setTo r b i) := h.wr hr
theorem Keeps.flagBit {m q : Nat} {s t : State} {r : Reg} {n i : Nat} (h : Keeps m q s t) (hr : Nat.testBit m r.ctorIdx = true) :
    Keeps m q s (t.flagBit r n i) := h.wr hr
theorem Keeps.unflagBit {m q : Nat} {s t : State} {r : Reg} {n i : Nat} (h : Keeps m q s t) (hr : Nat.testBit m r.ctorIdx = true) :
    Keeps m q s (t.unflagBit r n i) := h.wr hr
theorem Keeps.bump {m q : Nat} {s t : State} {r : Reg} {i k : Nat} (h : Keeps m q s t) (hr : Nat.testBit m r.ctorIdx = true) :
    Keeps m q s (t.bump r i k) := h.wr hr
theorem Keeps.wrapInc {m q : Nat} {s t : State} {r : Reg} {i : Nat} (h : Keeps m q s t) (hr : Nat.testBit m r.ctorIdx = true) :
    Keeps m q s (t.wrapInc r i) := h.wr hr

/-- Only registers within the mask and nothing else, from what the components say. -/
theorem Keeps.of_same {m q : Nat} {s t u : State} (h : Keeps m q s t) (hr : u.regs = t.regs) (hq : u.pending = t.pending)
    (hm : u.mem = t.mem) (hl : u.lc = t.lc) (hp : ∀ p : Part, q.testBit p.ctorIdx = false → p.same t u) : Keeps m q s u where
  regs r j hj := by rw [← h.regs r j hj]; unfold State.rd; rw [hr]
  parts p hj := p.same_trans (h.parts p hj) (hp p hj)
  queue := hq.trans h.queue
  memory w := by rw [hm]; exact h.memory w
  fuses := by
    have k := h.fuses
    unfold FusesKept at *
    rw [hl]; exact k

theorem Keeps.with_shadow {m q : Nat} {s t : State} {v} (h : Keeps m q s t) (hq : Nat.testBit q 0 = true) :
    Keeps m q s { t with shadow := v } :=
  h.of_same rfl rfl rfl rfl fun p hp => by cases p <;> first | rfl | (exfalso; simp_all [Part.ctorIdx])
theorem Keeps.with_control {m q : Nat} {s t : State} {v} (h : Keeps m q s t) (hq : Nat.testBit q 2 = true) :
    Keeps m q s { t with control := v } :=
  h.of_same rfl rfl rfl rfl fun p hp => by cases p <;> first | rfl | (exfalso; simp_all [Part.ctorIdx])
theorem Keeps.with_staged {m q : Nat} {s t : State} {v} (h : Keeps m q s t) (hq : Nat.testBit q 3 = true) :
    Keeps m q s { t with staged := v } :=
  h.of_same rfl rfl rfl rfl fun p hp => by cases p <;> first | rfl | (exfalso; simp_all [Part.ctorIdx])
theorem Keeps.with_timebase {m q : Nat} {s t : State} {v} (h : Keeps m q s t) (hq : Nat.testBit q 4 = true) :
    Keeps m q s { t with timebase := v } :=
  h.of_same rfl rfl rfl rfl fun p hp => by cases p <;> first | rfl | (exfalso; simp_all [Part.ctorIdx])
theorem Keeps.with_draws {m q : Nat} {s t : State} {v} (h : Keeps m q s t) (hq : Nat.testBit q 5 = true) :
    Keeps m q s { t with draws := v } :=
  h.of_same rfl rfl rfl rfl fun p hp => by cases p <;> first | rfl | (exfalso; simp_all [Part.ctorIdx])
theorem Keeps.with_events {m q : Nat} {s t : State} {v} (h : Keeps m q s t) (hq : Nat.testBit q 6 = true) :
    Keeps m q s { t with events := v } :=
  h.of_same rfl rfl rfl rfl fun p hp => by cases p <;> first | rfl | (exfalso; simp_all [Part.ctorIdx])
theorem Keeps.with_eventSeq {m q : Nat} {s t : State} {v} (h : Keeps m q s t) (hq : Nat.testBit q 7 = true) :
    Keeps m q s { t with eventSeq := v } :=
  h.of_same rfl rfl rfl rfl fun p hp => by cases p <;> first | rfl | (exfalso; simp_all [Part.ctorIdx])
theorem Keeps.with_fret {m q : Nat} {s t : State} {v} (h : Keeps m q s t) (hq : Nat.testBit q 8 = true) :
    Keeps m q s { t with fret := v } :=
  h.of_same rfl rfl rfl rfl fun p hp => by cases p <;> first | rfl | (exfalso; simp_all [Part.ctorIdx])
theorem Keeps.with_capo {m q : Nat} {s t : State} {v} (h : Keeps m q s t) (hq : Nat.testBit q 9 = true) :
    Keeps m q s { t with capo := v } :=
  h.of_same rfl rfl rfl rfl fun p hp => by cases p <;> first | rfl | (exfalso; simp_all [Part.ctorIdx])
theorem Keeps.with_spe {m q : Nat} {s t : State} {v} (h : Keeps m q s t) (hq : Nat.testBit q 10 = true) :
    Keeps m q s { t with spe := v } :=
  h.of_same rfl rfl rfl rfl fun p hp => by cases p <;> first | rfl | (exfalso; simp_all [Part.ctorIdx])
theorem Keeps.with_str {m q : Nat} {s t : State} {v} (h : Keeps m q s t) (hq : Nat.testBit q 11 = true) :
    Keeps m q s { t with str := v } :=
  h.of_same rfl rfl rfl rfl fun p hp => by cases p <;> first | rfl | (exfalso; simp_all [Part.ctorIdx])
theorem Keeps.with_harp {m q : Nat} {s t : State} {v} (h : Keeps m q s t) (hq : Nat.testBit q 12 = true) :
    Keeps m q s { t with harp := v } :=
  h.of_same rfl rfl rfl rfl fun p hp => by cases p <;> first | rfl | (exfalso; simp_all [Part.ctorIdx])
theorem Keeps.with_host {m q : Nat} {s t : State} {v} (h : Keeps m q s t) (hq : Nat.testBit q 13 = true) :
    Keeps m q s { t with host := v } :=
  h.of_same rfl rfl rfl rfl fun p hp => by cases p <;> first | rfl | (exfalso; simp_all [Part.ctorIdx])
theorem Keeps.with_bridge {m q : Nat} {s t : State} {v} (h : Keeps m q s t) (hq : Nat.testBit q 14 = true) :
    Keeps m q s { t with bridge := v } :=
  h.of_same rfl rfl rfl rfl fun p hp => by cases p <;> first | rfl | (exfalso; simp_all [Part.ctorIdx])
theorem Keeps.with_cab {m q : Nat} {s t : State} {v} (h : Keeps m q s t) (hq : Nat.testBit q 15 = true) :
    Keeps m q s { t with cab := v } :=
  h.of_same rfl rfl rfl rfl fun p hp => by cases p <;> first | rfl | (exfalso; simp_all [Part.ctorIdx])
theorem Keeps.with_phv {m q : Nat} {s t : State} {v} (h : Keeps m q s t) (hq : Nat.testBit q 16 = true) :
    Keeps m q s { t with phv := v } :=
  h.of_same rfl rfl rfl rfl fun p hp => by cases p <;> first | rfl | (exfalso; simp_all [Part.ctorIdx])
theorem Keeps.with_memory {m q : Nat} {s t : State} {v} (h : Keeps m q s t) (hq : Nat.testBit q 17 = true) :
    Keeps m q s { t with memory := v } :=
  h.of_same rfl rfl rfl rfl fun p hp => by cases p <;> first | rfl | (exfalso; simp_all [Part.ctorIdx])
theorem Keeps.with_bur {m q : Nat} {s t : State} {v} (h : Keeps m q s t) (hq : Nat.testBit q 18 = true) :
    Keeps m q s { t with bur := v } :=
  h.of_same rfl rfl rfl rfl fun p hp => by cases p <;> first | rfl | (exfalso; simp_all [Part.ctorIdx])
theorem Keeps.with_power {m q : Nat} {s t : State} {v} (h : Keeps m q s t) (hq : Nat.testBit q 19 = true) :
    Keeps m q s { t with power := v } :=
  h.of_same rfl rfl rfl rfl fun p hp => by cases p <;> first | rfl | (exfalso; simp_all [Part.ctorIdx])
theorem Keeps.with_cal {m q : Nat} {s t : State} {v} (h : Keeps m q s t) (hq : Nat.testBit q 20 = true) :
    Keeps m q s { t with cal := v } :=
  h.of_same rfl rfl rfl rfl fun p hp => by cases p <;> first | rfl | (exfalso; simp_all [Part.ctorIdx])
theorem Keeps.with_therm {m q : Nat} {s t : State} {v} (h : Keeps m q s t) (hq : Nat.testBit q 21 = true) :
    Keeps m q s { t with therm := v } :=
  h.of_same rfl rfl rfl rfl fun p hp => by cases p <;> first | rfl | (exfalso; simp_all [Part.ctorIdx])
/-- The life cycle is changed, and no fuse of it is unblown. -/
theorem Keeps.with_lc {m q : Nat} {s t : State} {v : LifeCycle} (h : Keeps m q s t) (hq : Nat.testBit q 22 = true)
    (hs : ∀ k, t.lc.stage.testBit k = true → v.stage.testBit k = true) (hc : t.lc.scrap = true → v.scrap = true) :
    Keeps m q s { t with lc := v } where
  regs := h.regs
  parts p hp := p.same_trans (h.parts p hp) (by
    cases p <;> first | rfl | (exfalso; simp only [Part.ctorIdx] at hp; rw [hq] at hp; exact absurd hp (by decide)))
  queue := h.queue
  memory := h.memory
  fuses := h.fuses.trans ⟨hs, hc⟩
theorem Keeps.with_bench {m q : Nat} {s t : State} {v} (h : Keeps m q s t) (hq : Nat.testBit q 23 = true) :
    Keeps m q s { t with bench := v } :=
  h.of_same rfl rfl rfl rfl fun p hp => by cases p <;> first | rfl | (exfalso; simp_all [Part.ctorIdx])
theorem Keeps.with_out {m q : Nat} {s t : State} {v} (h : Keeps m q s t) (hq : Nat.testBit q 24 = true) :
    Keeps m q s { t with out := v } :=
  h.of_same rfl rfl rfl rfl fun p hp => by cases p <;> first | rfl | (exfalso; simp_all [Part.ctorIdx])
theorem Keeps.with_events_eventSeq {m q : Nat} {s t : State} {v w} (h : Keeps m q s t) (hq : Nat.testBit q 6 = true)
    (hq' : Nat.testBit q 7 = true) : Keeps m q s { t with events := v, eventSeq := w } :=
  h.of_same rfl rfl rfl rfl fun p hp => by cases p <;> first | rfl | (exfalso; simp_all [Part.ctorIdx])
theorem Keeps.with_draws_spe {m q : Nat} {s t : State} {v w} (h : Keeps m q s t) (hq : Nat.testBit q 5 = true)
    (hq' : Nat.testBit q 10 = true) : Keeps m q s { t with draws := v, spe := w } :=
  h.of_same rfl rfl rfl rfl fun p hp => by cases p <;> first | rfl | (exfalso; simp_all [Part.ctorIdx])
theorem Keeps.with_draws_str {m q : Nat} {s t : State} {v w} (h : Keeps m q s t) (hq : Nat.testBit q 5 = true)
    (hq' : Nat.testBit q 11 = true) : Keeps m q s { t with draws := v, str := w } :=
  h.of_same rfl rfl rfl rfl fun p hp => by cases p <;> first | rfl | (exfalso; simp_all [Part.ctorIdx])
theorem Keeps.with_draws_harp {m q : Nat} {s t : State} {v w} (h : Keeps m q s t) (hq : Nat.testBit q 5 = true)
    (hq' : Nat.testBit q 12 = true) : Keeps m q s { t with draws := v, harp := w } :=
  h.of_same rfl rfl rfl rfl fun p hp => by cases p <;> first | rfl | (exfalso; simp_all [Part.ctorIdx])
theorem Keeps.with_control_staged {m q : Nat} {s t : State} {v w} (h : Keeps m q s t) (hq : Nat.testBit q 2 = true)
    (hq' : Nat.testBit q 3 = true) : Keeps m q s { t with control := v, staged := w } :=
  h.of_same rfl rfl rfl rfl fun p hp => by cases p <;> first | rfl | (exfalso; simp_all [Part.ctorIdx])
theorem Keeps.with_fret_capo {m q : Nat} {s t : State} {v w} (h : Keeps m q s t) (hq : Nat.testBit q 8 = true)
    (hq' : Nat.testBit q 9 = true) : Keeps m q s { t with fret := v, capo := w } :=
  h.of_same rfl rfl rfl rfl fun p hp => by cases p <;> first | rfl | (exfalso; simp_all [Part.ctorIdx])
theorem Keeps.with_power_str {m q : Nat} {s t : State} {v w} (h : Keeps m q s t) (hq : Nat.testBit q 19 = true)
    (hq' : Nat.testBit q 11 = true) : Keeps m q s { t with power := v, str := w } :=
  h.of_same rfl rfl rfl rfl fun p hp => by cases p <;> first | rfl | (exfalso; simp_all [Part.ctorIdx])

theorem Keeps.when {m q : Nat} {s t : State} {b : Bool} {f : State → State} (h : Keeps m q s t) (k : ∀ u, Keeps m q s u → Keeps m q s (f u)) :
    Keeps m q s (t.when b f) := by
  cases b
  · exact h
  · exact k t h

theorem Keeps.elim {α : Type} {m q : Nat} {s t : State} {o : Option α} {f : α → State} (h : Keeps m q s t)
    (k : ∀ a, Keeps m q s (f a)) : Keeps m q s (o.elim t f) := by
  cases o
  · exact h
  · exact k _

theorem Keeps.onStr {m q : Nat} {s t : State} {x : Str} {f : State → State} (h : Keeps m q s t) (k : ∀ u, Keeps m q s u → Keeps m q s (f u)) :
    Keeps m q s (t.onStr x f) := h.when k

theorem Keeps.ite {m q : Nat} {s a b : State} {c : Prop} [Decidable c] (h : c → Keeps m q s a) (k : ¬c → Keeps m q s b) :
    Keeps m q s (if c then a else b) := by
  split
  · exact h ‹_›
  · exact k ‹_›

theorem Keeps.ite_fst {β : Type} {m q : Nat} {s : State} {a b : State × β} {c : Prop} [Decidable c] (h : c → Keeps m q s a.1)
    (k : ¬c → Keeps m q s b.1) : Keeps m q s (if c then a else b).1 := by
  split
  · exact h ‹_›
  · exact k ‹_›

theorem Keeps.ite_snd {β : Type} {m q : Nat} {s : State} {a b : β × State} {c : Prop} [Decidable c] (h : c → Keeps m q s a.2)
    (k : ¬c → Keeps m q s b.2) : Keeps m q s (if c then a else b).2 := by
  split
  · exact h ‹_›
  · exact k ‹_›

theorem Keeps.of_eq_fst {β : Type} {m q : Nat} {s t : State} {p : State × β} {a : β} (e : p = (t, a)) (h : Keeps m q s p.1) : Keeps m q s t := by
  rw [e] at h; exact h

theorem Keeps.of_eq_snd {β : Type} {m q : Nat} {s t : State} {p : β × State} {a : β} (e : p = (a, t)) (h : Keeps m q s p.2) : Keeps m q s t := by
  rw [e] at h; exact h

theorem Keeps.foldl {α : Type} {m q : Nat} {s t : State} {f : State → α → State} {l : List α} (h : Keeps m q s t)
    (k : ∀ u a, Keeps m q s u → Keeps m q s (f u a)) : Keeps m q s (l.foldl f t) := by
  induction l generalizing t with
  | nil => exact h
  | cons a l ih => exact ih (k t a h)

theorem Keeps.foldl_snd {α β : Type} {m q : Nat} {s : State} {p : β × State} {f : β × State → α → β × State} {l : List α}
    (h : Keeps m q s p.2) (k : ∀ c u a, Keeps m q s u → Keeps m q s (f (c, u) a).2) : Keeps m q s (l.foldl f p).2 := by
  induction l generalizing p with
  | nil => exact h
  | cons a l ih => exact ih (k p.1 p.2 a h)

theorem Keeps.foldl_fst {α β : Type} {m q : Nat} {s : State} {p : State × β} {f : State × β → α → State × β} {l : List α}
    (h : Keeps m q s p.1) (k : ∀ u c a, Keeps m q s u → Keeps m q s (f (u, c) a).1) : Keeps m q s (l.foldl f p).1 := by
  induction l generalizing p with
  | nil => exact h
  | cons a l ih => exact ih (k p.1 p.2 a h)

/-- The fields of a block, bit by bit. -/
def blkMask : Blk → Nat
  | .fabric => 0x7f
  | .fret => 0x1ff80
  | .capo => 0xffffffe0000
  | .spe => 0xffffffffffff00000000000
  | .sce => 0xffffffffffffffff00000000000000000000000
  | .svd => 0x3ffffffffffff000000000000000000000000000000000000000
  | .ae => 0x7ffffffffffc000000000000000000000000000000000000000000000000000
  | .nut => 0x3fff800000000000000000000000000000000000000000000000000000000000000
  | .rch => 0xfffffffffffffffc000000000000000000000000000000000000000000000000000000000000000000
  | .harp => 0x7ffffffffff0000000000000000000000000000000000000000000000000000000000000000000000000000000000
  | .sfm => 0x7fff800000000000000000000000000000000000000000000000000000000000000000000000000000000000000000000
  | .wrp => 0x7fffff8000000000000000000000000000000000000000000000000000000000000000000000000000000000000000000000000
  | .rld => 0x3ffffff8000000000000000000000000000000000000000000000000000000000000000000000000000000000000000000000000000000
  | .hqe => 0x3ffffffc0000000000000000000000000000000000000000000000000000000000000000000000000000000000000000000000000000000000000
  | .pcie => 0x1ffffc00000000000000000000000000000000000000000000000000000000000000000000000000000000000000000000000000000000000000000000
  | .strm => 0x1fffe0000000000000000000000000000000000000000000000000000000000000000000000000000000000000000000000000000000000000000000000000
  | .bridge => 0x3ffffe00000000000000000000000000000000000000000000000000000000000000000000000000000000000000000000000000000000000000000000000000000
  | .chest => 0x7ffffc0000000000000000000000000000000000000000000000000000000000000000000000000000000000000000000000000000000000000000000000000000000000
  | .cabinet => 0x3fffffff8000000000000000000000000000000000000000000000000000000000000000000000000000000000000000000000000000000000000000000000000000000000000000
  | .phovi => 0xfffffffc00000000000000000000000000000000000000000000000000000000000000000000000000000000000000000000000000000000000000000000000000000000000000000000000
  | .seq => 0x1fffffff0000000000000000000000000000000000000000000000000000000000000000000000000000000000000000000000000000000000000000000000000000000000000000000000000000000
  | .bureau => 0x1ffe00000000000000000000000000000000000000000000000000000000000000000000000000000000000000000000000000000000000000000000000000000000000000000000000000000000000000
  | .l2 => 0x7fffffe00000000000000000000000000000000000000000000000000000000000000000000000000000000000000000000000000000000000000000000000000000000000000000000000000000000000000000
  | .mi => 0xfffffff800000000000000000000000000000000000000000000000000000000000000000000000000000000000000000000000000000000000000000000000000000000000000000000000000000000000000000000000
  | .scbms => 0xff0000000000000000000000000000000000000000000000000000000000000000000000000000000000000000000000000000000000000000000000000000000000000000000000000000000000000000000000000000000
  | .pwr => 0xffffff000000000000000000000000000000000000000000000000000000000000000000000000000000000000000000000000000000000000000000000000000000000000000000000000000000000000000000000000000000000
  | .sideboard => 0x7ffff000000000000000000000000000000000000000000000000000000000000000000000000000000000000000000000000000000000000000000000000000000000000000000000000000000000000000000000000000000000000000
  | .cal => 0x7ffff80000000000000000000000000000000000000000000000000000000000000000000000000000000000000000000000000000000000000000000000000000000000000000000000000000000000000000000000000000000000000000000
  | .thermal => 0x3fff8000000000000000000000000000000000000000000000000000000000000000000000000000000000000000000000000000000000000000000000000000000000000000000000000000000000000000000000000000000000000000000000000
  | .identity => 0x3fffc0000000000000000000000000000000000000000000000000000000000000000000000000000000000000000000000000000000000000000000000000000000000000000000000000000000000000000000000000000000000000000000000000000
  | .bench => 0xffc00000000000000000000000000000000000000000000000000000000000000000000000000000000000000000000000000000000000000000000000000000000000000000000000000000000000000000000000000000000000000000000000000000000
  | .peg => 0x300000000000000000000000000000000000000000000000000000000000000000000000000000000000000000000000000000000000000000000000000000000000000000000000000000000000000000000000000000000000000000000000000000000000

set_option maxRecDepth 4000 in
theorem blkMask_self (r : Reg) : Nat.testBit (blkMask r.row.blk) r.ctorIdx = true := by cases r <;> rfl

set_option maxRecDepth 4000 in
theorem allRegs_self (r : Reg) : Nat.testBit 0x3fffffffffffffffffffffffffffffffffffffffffffffffffffffffffffffffffffffffffffffffffffffffffffffffffffffffffffffffffffffffffffffffffffffffffffffffffffffffffffffffffffffffffffffffffffffffffffffffffffffffffff r.ctorIdx = true := by cases r <;> rfl

set_option maxRecDepth 4000 in
theorem Blk.regs_blk (b : Blk) : b.regs.all (fun r => Nat.testBit (blkMask b) r.ctorIdx) = true := by cases b <;> rfl

set_option maxRecDepth 4000 in
theorem Reg.row_reg (r : Reg) : r.row.reg = r := by cases r <;> rfl

theorem blkMask_disjoint (b c : Blk) (h : b ≠ c) : Nat.land (blkMask b) (blkMask c) = 0 := by
  cases b <;> cases c <;> first | exact absurd rfl h | rfl

theorem blk_of_blkMask {b : Blk} {r : Reg} (h : Nat.testBit (blkMask b) r.ctorIdx = true) : r.row.blk = b := by
  by_contra hc
  have e : (blkMask r.row.blk &&& blkMask b) = 0 := blkMask_disjoint _ _ hc
  have t := congrArg (fun n => Nat.testBit n r.ctorIdx) e
  simp only [Nat.testBit_and, blkMask_self, h, Nat.zero_testBit] at t
  exact absurd t (by decide)

/-- The mask of a footprint's register fields. -/
def Footprint.mask (w : Footprint) : Nat :=
  w.regs.foldl (fun m r => m ||| 1 <<< r.ctorIdx) (w.blks.foldl (fun m b => m ||| blkMask b) 0)

/-- The mask of a footprint's parts. -/
def Footprint.partMask (w : Footprint) : Nat := w.parts.foldl (fun m p => m ||| 1 <<< p.ctorIdx) 0

theorem testBit_foldl {α : Type} (f : α → Nat) (l : List α) (n i : Nat) :
    (l.foldl (fun m a => m ||| f a) n).testBit i = true → n.testBit i = true ∨ ∃ a ∈ l, (f a).testBit i = true := by
  induction l generalizing n with
  | nil => exact fun h => .inl h
  | cons a l ih =>
    intro h
    rcases ih _ h with h | ⟨b, hb, h⟩
    · rw [Nat.testBit_or, Bool.or_eq_true] at h
      rcases h with h | h
      · exact .inl h
      · exact .inr ⟨a, List.mem_cons_self, h⟩
    · exact .inr ⟨b, List.mem_cons_of_mem _ hb, h⟩

theorem testBit_one_shift {n i : Nat} (h : (1 <<< n).testBit i = true) : n = i := by
  rw [Nat.one_shiftLeft, Nat.testBit_two_pow] at h
  exact of_decide_eq_true h

theorem Part.eq_of_ctorIdx {p r : Part} (h : p.ctorIdx = r.ctorIdx) : p = r := by
  have := congrArg Part.ofNat h
  simpa [Part.ofNat_ctorIdx] using this

/-- What an operation keeps, as a footprint. -/
theorem Keeps.within {m q : Nat} {s t : State} {w : Footprint} (h : Keeps m q s t) (hm : Nat.lor m w.mask = w.mask)
    (hq : Nat.lor q w.partMask = w.partMask) : Within w s t where
  left r j hr hb := h.regs r j (testBit_of_lor hm (by
    by_contra hc
    rw [Bool.not_eq_false] at hc
    rcases testBit_foldl (fun r : Reg => 1 <<< r.ctorIdx) _ _ _ hc with hc | ⟨a, ha, hc⟩
    · rcases testBit_foldl blkMask _ _ _ hc with hc | ⟨a, ha, hc⟩
      · rw [Nat.zero_testBit] at hc; exact absurd hc (by decide)
      · exact hb (blk_of_blkMask hc ▸ ha)
    · exact hr (Reg.eq_of_ctorIdx (testBit_one_shift hc) ▸ ha)))
  right := ⟨fun p hp => h.parts p (testBit_of_lor hq (by
    by_contra hc
    rw [Bool.not_eq_false] at hc
    rcases testBit_foldl (fun p : Part => 1 <<< p.ctorIdx) _ _ _ hc with hc | ⟨a, ha, hc⟩
    · rw [Nat.zero_testBit] at hc; exact absurd hc (by decide)
    · exact hp (Part.eq_of_ctorIdx (testBit_one_shift hc) ▸ ha))), h.queue⟩

end Sys2Proof.Machine
end

