-- ==== Sys2Proof/Laws/FrameCore.lean ====
section
/-! SUPPORT. Laws/FrameCore.lean: what each operation of the model keeps, one lemma each: the operations on registers and state, memory, and what the controllers share: requests, the Chest, versions, copies, streams. The numbers are the masks of
`Keeps`. -/
namespace Sys2Proof.Machine
set_option linter.unreachableTactic false
set_option linter.unusedTactic false

/-! ### Ops -/

theorem State.putFields_after {m' q' : Nat} {u' : State} {s : State} {b : Blk} {off i v : Nat} (h' : Keeps m' q' u' s)
    (hm' : Nat.lor (blkMask b) m' = m') : Keeps m' q' u' (s.putFields b off i v) := by
  unfold State.putFields
  have : ∀ (l : List RegRow) (t : State), (∀ e ∈ l, e ∈ b.rows) → Keeps m' q' u' t →
      Keeps m' q' u' (l.foldl (fun s r => s.wr r.reg (v / 2 ^ r.lo % 2 ^ r.width) i) t) := by
    intro l; induction l with
    | nil => intro t _ h; exact h
    | cons e l ih =>
      intro t hl h
      refine ih _ (fun a ha => hl a (List.mem_cons_of_mem _ ha)) (h.wr ?_)
      obtain ⟨r, hr, rfl⟩ := List.mem_map.mp (hl e List.mem_cons_self)
      rw [Reg.row_reg]
      have hb := List.all_eq_true.mp (Blk.regs_blk b) r hr
      by_contra hc
      have := testBit_of_lor hm' (Bool.eq_false_iff.mpr hc)
      rw [hb] at this; exact absurd this (by decide)
  apply this
  · intro e he; exact (List.mem_filter.mp he).1
  · exact h'

theorem State.shadowWr_after {m' q' : Nat} {u' : State} {s : State} {r : Reg} {v : Nat} {i : Nat } (h' : Keeps m' q' u' s)
    (hm' : Nat.lor 0x0 m' = m') (hq' : Nat.lor 0x1 q' = q') : Keeps m' q' u' (s.shadowWr r v i) := by
  refine Keeps.after ?_ hm' hq' h'
  clear hm' hq' h'
  unfold State.shadowWr
  with_reducible repeat' first
    | assumption | exact Keeps.refl _ | (intro) | split | dsimp only | (apply Keeps.with_shadow; rotate_left; decide)

theorem State.shadowDrop_after {m' q' : Nat} {u' : State} {s : State} {r : Reg} {i : Nat } (h' : Keeps m' q' u' s)
    (hm' : Nat.lor 0x0 m' = m') (hq' : Nat.lor 0x1 q' = q') : Keeps m' q' u' (s.shadowDrop r i) := by
  refine Keeps.after ?_ hm' hq' h'
  clear hm' hq' h'
  unfold State.shadowDrop
  with_reducible repeat' first
    | assumption | exact Keeps.refl _ | (intro) | split | dsimp only | (apply Keeps.with_shadow; rotate_left; decide)

theorem State.boundary_after {m' q' : Nat} {u' : State} {s : State} {b : Blk} {inst : Nat} (h' : Keeps m' q' u' s)
    (hm' : Nat.lor (blkMask b) m' = m') (hq' : Nat.lor 0x1 q' = q') : Keeps m' q' u' (s.boundary b inst) := by
  have hr : ∀ r : Reg, r.row.blk = b → m'.testBit r.ctorIdx = true := by
    intro r e
    by_contra hc
    have := testBit_of_lor hm' (Bool.eq_false_iff.mpr hc)
    rw [← e, blkMask_self r] at this; exact absurd this (by decide)
  have h0 : q'.testBit 0 = true := by
    by_contra hc
    have := testBit_of_lor hq' (Bool.eq_false_iff.mpr hc); exact absurd this (by decide)
  unfold State.boundary
  have : ∀ (l : List Shadow) (t : State), (∀ e ∈ l, e.reg.row.blk = b) → Keeps m' q' u' t →
      Keeps m' q' u' (l.foldl (fun s e => s.wr e.reg e.value e.idx) t) := by
    intro l; induction l with
    | nil => intro t _ h; exact h
    | cons e l ih => intro t hl h; exact ih _ (fun a ha => hl a (List.mem_cons_of_mem _ ha)) (h.wr (hr _ (hl e List.mem_cons_self)))
  apply this
  · intro e he; simp at he; exact he.2.1
  · exact h'.with_shadow h0

theorem State.modStr_after {m' q' : Nat} {u' : State} {s : State} {x : Str} {f : StringState → StringState} (h' : Keeps m' q' u' s)
    (hm' : Nat.lor 0x0 m' = m') (hq' : Nat.lor 0x800 q' = q') : Keeps m' q' u' (s.modStr x f) := by
  refine Keeps.after ?_ hm' hq' h'
  clear hm' hq' h'
  unfold State.modStr
  with_reducible repeat' first
    | assumption | exact Keeps.refl _ | (intro) | split | dsimp only | (apply Keeps.with_str; rotate_left; decide)

theorem State.modSce_after {m' q' : Nat} {u' : State} {s : State} {x : Str} {f : Sce → Sce} (h' : Keeps m' q' u' s)
    (hm' : Nat.lor 0x0 m' = m') (hq' : Nat.lor 0x800 q' = q') : Keeps m' q' u' (s.modSce x f) := by
  refine Keeps.after ?_ hm' hq' h'
  clear hm' hq' h'
  unfold State.modSce
  with_reducible repeat' first
    | assumption | exact Keeps.refl _ | (apply State.modStr_after; rotate_left; decide; decide) | (intro) | split
    | dsimp only

theorem State.modSvd_after {m' q' : Nat} {u' : State} {s : State} {x : Str} {f : Svd → Svd} (h' : Keeps m' q' u' s)
    (hm' : Nat.lor 0x0 m' = m') (hq' : Nat.lor 0x800 q' = q') : Keeps m' q' u' (s.modSvd x f) := by
  refine Keeps.after ?_ hm' hq' h'
  clear hm' hq' h'
  unfold State.modSvd
  with_reducible repeat' first
    | assumption | exact Keeps.refl _ | (apply State.modStr_after; rotate_left; decide; decide) | (intro) | split
    | dsimp only

theorem State.modAe_after {m' q' : Nat} {u' : State} {s : State} {x : Str} {f : Ae → Ae} (h' : Keeps m' q' u' s)
    (hm' : Nat.lor 0x0 m' = m') (hq' : Nat.lor 0x800 q' = q') : Keeps m' q' u' (s.modAe x f) := by
  refine Keeps.after ?_ hm' hq' h'
  clear hm' hq' h'
  unfold State.modAe
  with_reducible repeat' first
    | assumption | exact Keeps.refl _ | (apply State.modStr_after; rotate_left; decide; decide) | (intro) | split
    | dsimp only

theorem State.modSkew_after {m' q' : Nat} {u' : State} {s : State} {x : Str} {f : SkewAvg → SkewAvg} (h' : Keeps m' q' u' s)
    (hm' : Nat.lor 0x0 m' = m') (hq' : Nat.lor 0x800 q' = q') : Keeps m' q' u' (s.modSkew x f) := by
  refine Keeps.after ?_ hm' hq' h'
  clear hm' hq' h'
  unfold State.modSkew
  with_reducible repeat' first
    | assumption | exact Keeps.refl _ | (apply State.modStr_after; rotate_left; decide; decide) | (intro) | split
    | dsimp only

theorem State.modRch_after {m' q' : Nat} {u' : State} {s : State} {x : Str} {f : Rch → Rch} (h' : Keeps m' q' u' s)
    (hm' : Nat.lor 0x0 m' = m') (hq' : Nat.lor 0x800 q' = q') : Keeps m' q' u' (s.modRch x f) := by
  refine Keeps.after ?_ hm' hq' h'
  clear hm' hq' h'
  unfold State.modRch
  with_reducible repeat' first
    | assumption | exact Keeps.refl _ | (apply State.modStr_after; rotate_left; decide; decide) | (intro) | split
    | dsimp only

theorem State.modWrp_after {m' q' : Nat} {u' : State} {s : State} {x : Str} {f : Wrp → Wrp} (h' : Keeps m' q' u' s)
    (hm' : Nat.lor 0x0 m' = m') (hq' : Nat.lor 0x800 q' = q') : Keeps m' q' u' (s.modWrp x f) := by
  refine Keeps.after ?_ hm' hq' h'
  clear hm' hq' h'
  unfold State.modWrp
  with_reducible repeat' first
    | assumption | exact Keeps.refl _ | (apply State.modStr_after; rotate_left; decide; decide) | (intro) | split
    | dsimp only

theorem State.modSeq_after {m' q' : Nat} {u' : State} {s : State} {x : Str} {q : SeqId} {f : Sequencer → Sequencer} (h' : Keeps m' q' u' s)
    (hm' : Nat.lor 0x0 m' = m') (hq' : Nat.lor 0x800 q' = q') : Keeps m' q' u' (s.modSeq x q f) := by
  refine Keeps.after ?_ hm' hq' h'
  clear hm' hq' h'
  unfold State.modSeq
  with_reducible repeat' first
    | assumption | exact Keeps.refl _ | (apply State.modStr_after; rotate_left; decide; decide) | (intro) | split
    | dsimp only

theorem State.emit_after {m' q' : Nat} {u' : State} {s : State} {o : Out} (h' : Keeps m' q' u' s)
    (hm' : Nat.lor 0x0 m' = m') (hq' : Nat.lor 0x1000000 q' = q') : Keeps m' q' u' (s.emit o) := by
  refine Keeps.after ?_ hm' hq' h'
  clear hm' hq' h'
  unfold State.emit
  with_reducible repeat' first
    | assumption | exact Keeps.refl _ | (intro) | split | dsimp only | (apply Keeps.with_out; rotate_left; decide)

theorem State.logEvent_after {m' q' : Nat} {u' : State} {s : State} {code severity mask : Nat} {data : List Nat} (h' : Keeps m' q' u' s)
    (hm' : Nat.lor 0x0 m' = m') (hq' : Nat.lor 0xc0 q' = q') : Keeps m' q' u' (s.logEvent code severity mask data) := by
  refine Keeps.after ?_ hm' hq' h'
  clear hm' hq' h'
  unfold State.logEvent
  with_reducible repeat' first
    | assumption | exact Keeps.refl _ | (intro) | split | dsimp only | (apply Keeps.with_eventSeq; rotate_left; decide)
    | (apply Keeps.with_events; rotate_left; decide) | (apply Keeps.with_events_eventSeq; rotate_left; decide; decide)

theorem State.drawn_after {m' q' : Nat} {u' : State} {s : State} (h' : Keeps m' q' u' s)
    (hm' : Nat.lor 0x0 m' = m') (hq' : Nat.lor 0x20 q' = q') : Keeps m' q' u' (s.drawn) := by
  refine Keeps.after ?_ hm' hq' h'
  clear hm' hq' h'
  unfold State.drawn
  with_reducible repeat' first
    | assumption | exact Keeps.refl _ | (intro) | split | dsimp only | (apply Keeps.with_draws; rotate_left; decide)

theorem State.at_after {m' q' : Nat} {u' : State} {s : State} {t : Nat} (h' : Keeps m' q' u' s)
    (hm' : Nat.lor 0x8000000000000000000000000000000000000000000000000000000000000000000000000000000000000000000000000000000000000000000000000000000000000000000000000000000000000000000000000000000000000000000 m' = m') (hq' : Nat.lor 0x10 q' = q') : Keeps m' q' u' (s.at t) := by
  refine Keeps.after ?_ hm' hq' h'
  clear hm' hq' h'
  unfold State.at
  with_reducible repeat' first
    | assumption | exact Keeps.refl _ | (apply Keeps.wr; rotate_left; decide) | apply Keeps.ite | apply Keeps.ite_fst
    | apply Keeps.ite_snd | (intro) | split | dsimp only | (apply Keeps.with_timebase; rotate_left; decide)

/-! ### Shared -/

theorem State.seqIrq_after {m' q' : Nat} {u' : State} {s : State} {x : Str} {q : SeqId} {n : Nat} (h' : Keeps m' q' u' s)
    (hm' : Nat.lor 0x100000000000000000000000000000000000000000000000000000000000000000000000000000000000000000000000000000000000000000000000000000000000000000000000000000000000000 m' = m') (hq' : Nat.lor 0x800 q' = q') : Keeps m' q' u' (s.seqIrq x q n) := by
  refine Keeps.after ?_ hm' hq' h'
  clear hm' hq' h'
  unfold State.seqIrq
  with_reducible repeat' first
    | assumption | exact Keeps.refl _ | (apply Keeps.bump; rotate_left; decide)
    | (apply State.modSeq_after; rotate_left; decide; decide) | apply Keeps.when | (intro) | split | dsimp only

theorem State.rchRefresh_after {m' q' : Nat} {u' : State} {s : State} {x : Str} (h' : Keeps m' q' u' s)
    (hm' : Nat.lor 0x4000003000000000000000000000000000000000000000000000000000000000000000000000000 m' = m') (hq' : Nat.lor 0x0 q' = q') : Keeps m' q' u' (s.rchRefresh x) := by
  refine Keeps.after ?_ hm' hq' h'
  clear hm' hq' h'
  unfold State.rchRefresh
  with_reducible repeat' first
    | assumption | exact Keeps.refl _ | (apply Keeps.wr; rotate_left; decide) | apply Keeps.ite | apply Keeps.ite_fst
    | apply Keeps.ite_snd | apply Keeps.foldl | apply Keeps.foldl_snd | apply Keeps.foldl_fst | (intro) | split | dsimp only

theorem State.releaseSlot_after {m' q' : Nat} {u' : State} {s : State} {x : Str} {i : Nat} (h' : Keeps m' q' u' s)
    (hm' : Nat.lor 0x4000003000000000000000000000000000000000000000000000000000000000000000000000000 m' = m') (hq' : Nat.lor 0x800 q' = q') : Keeps m' q' u' (s.releaseSlot x i) := by
  refine Keeps.after ?_ hm' hq' h'
  clear hm' hq' h'
  unfold State.releaseSlot
  with_reducible repeat' first
    | assumption | exact Keeps.refl _ | (apply State.modRch_after; rotate_left; decide; decide)
    | (apply State.rchRefresh_after; rotate_left; decide; decide) | (intro) | split | dsimp only

theorem State.modSlot_after {m' q' : Nat} {u' : State} {s : State} {x : Str} {i : Nat} {f : Slot → Slot} (h' : Keeps m' q' u' s)
    (hm' : Nat.lor 0x0 m' = m') (hq' : Nat.lor 0x800 q' = q') : Keeps m' q' u' (s.modSlot x i f) := by
  refine Keeps.after ?_ hm' hq' h'
  clear hm' hq' h'
  unfold State.modSlot
  with_reducible repeat' first
    | assumption | exact Keeps.refl _ | (apply State.modRch_after; rotate_left; decide; decide) | (intro) | split
    | dsimp only

theorem State.giveCredit_after {m' q' : Nat} {u' : State} {s : State} {x : Str} {src : ReqSource} (h' : Keeps m' q' u' s)
    (hm' : Nat.lor 0x18000000000000000000000000000000000000000000000000000000000000000000000000000000000000000000000000000000000000000000000000000000000 m' = m') (hq' : Nat.lor 0x0 q' = q') : Keeps m' q' u' (s.giveCredit x src) := by
  refine Keeps.after ?_ hm' hq' h'
  unfold State.giveCredit
  cases src <;> exact (Keeps.refl _).wr rfl

theorem State.abortCapture_after {m' q' : Nat} {u' : State} {s : State} {x : Str} (h' : Keeps m' q' u' s)
    (hm' : Nat.lor 0x100000000000000000000000000018000000000000000000000000000000000000000000000000004000003000000000000000000000000000000000000000000000000000000000000000000000000 m' = m') (hq' : Nat.lor 0x800 q' = q') : Keeps m' q' u' (s.abortCapture x) := by
  refine Keeps.after ?_ hm' hq' h'
  clear hm' hq' h'
  unfold State.abortCapture
  with_reducible repeat' first
    | assumption | exact Keeps.refl _ | (apply State.giveCredit_after; rotate_left; decide; decide)
    | (apply State.modRch_after; rotate_left; decide; decide) | (apply State.releaseSlot_after; rotate_left; decide; decide)
    | (apply State.seqIrq_after; rotate_left; decide; decide) | (apply Keeps.of_eq_fst; assumption)
    | (apply Keeps.of_eq_snd; assumption) | (intro) | split | dsimp only

theorem State.giveCells_after {m' q' : Nat} {u' : State} {s : State} {x : Str} {n : Nat} (h' : Keeps m' q' u' s)
    (hm' : Nat.lor 0x8000000000000000000000000000000000000000000000000000000000000000000000000000000000000000000000000000000000000000000000000000000000 m' = m') (hq' : Nat.lor 0x0 q' = q') : Keeps m' q' u' (s.giveCells x n) := by
  refine Keeps.after ?_ hm' hq' h'
  clear hm' hq' h'
  unfold State.giveCells
  with_reducible repeat' first
    | assumption | exact Keeps.refl _ | (apply Keeps.wr; rotate_left; decide) | (intro) | split | dsimp only

theorem State.modBridge_after {m' q' : Nat} {u' : State} {s : State} {f : BridgeState → BridgeState} (h' : Keeps m' q' u' s)
    (hm' : Nat.lor 0x0 m' = m') (hq' : Nat.lor 0x4000 q' = q') : Keeps m' q' u' (s.modBridge f) := by
  refine Keeps.after ?_ hm' hq' h'
  clear hm' hq' h'
  unfold State.modBridge
  with_reducible repeat' first
    | assumption | exact Keeps.refl _ | (intro) | split | dsimp only | (apply Keeps.with_bridge; rotate_left; decide)

theorem State.modHost_after {m' q' : Nat} {u' : State} {s : State} {f : HostState → HostState} (h' : Keeps m' q' u' s)
    (hm' : Nat.lor 0x0 m' = m') (hq' : Nat.lor 0x2000 q' = q') : Keeps m' q' u' (s.modHost f) := by
  refine Keeps.after ?_ hm' hq' h'
  clear hm' hq' h'
  unfold State.modHost
  with_reducible repeat' first
    | assumption | exact Keeps.refl _ | (intro) | split | dsimp only | (apply Keeps.with_host; rotate_left; decide)

theorem State.unissue_after {m' q' : Nat} {u' : State} {s : State} {nsid : Nat} {lbas : List Nat} (h' : Keeps m' q' u' s)
    (hm' : Nat.lor 0x0 m' = m') (hq' : Nat.lor 0x4000 q' = q') : Keeps m' q' u' (s.unissue nsid lbas) := by
  refine Keeps.after ?_ hm' hq' h'
  clear hm' hq' h'
  unfold State.unissue
  with_reducible repeat' first
    | assumption | exact Keeps.refl _ | (apply State.modBridge_after; rotate_left; decide; decide) | apply Keeps.ite
    | apply Keeps.ite_fst | apply Keeps.ite_snd | (intro) | split | dsimp only

theorem State.modRecord_after {m' q' : Nat} {u' : State} {s : State} {r : Nat} {f : Record → Record} (h' : Keeps m' q' u' s)
    (hm' : Nat.lor 0x0 m' = m') (hq' : Nat.lor 0x2000 q' = q') : Keeps m' q' u' (s.modRecord r f) := by
  refine Keeps.after ?_ hm' hq' h'
  clear hm' hq' h'
  unfold State.modRecord
  with_reducible repeat' first
    | assumption | exact Keeps.refl _ | (apply State.modHost_after; rotate_left; decide; decide) | (intro) | split
    | dsimp only

theorem State.newRequestId_after {m' q' : Nat} {u' : State} {s : State} (h' : Keeps m' q' u' s)
    (hm' : Nat.lor 0x0 m' = m') (hq' : Nat.lor 0x2000 q' = q') : Keeps m' q' u' (s.newRequestId).2 := by
  refine Keeps.after ?_ hm' hq' h'
  clear hm' hq' h'
  unfold State.newRequestId
  with_reducible repeat' first
    | assumption | exact Keeps.refl _ | (apply State.modHost_after; rotate_left; decide; decide) | (intro) | split
    | dsimp only

theorem State.withdrawPlaces_after {m' q' : Nat} {u' : State} {s : State} {r : Request} {ps : List Place} (h' : Keeps m' q' u' s)
    (hm' : Nat.lor 0x0 m' = m') (hq' : Nat.lor 0x6000 q' = q') : Keeps m' q' u' (s.withdrawPlaces r ps) := by
  refine Keeps.after ?_ hm' hq' h'
  clear hm' hq' h'
  unfold State.withdrawPlaces
  with_reducible repeat' first
    | assumption | exact Keeps.refl _ | (apply State.modRecord_after; rotate_left; decide; decide)
    | (apply State.unissue_after; rotate_left; decide; decide) | (apply Keeps.of_eq_fst; assumption)
    | (apply Keeps.of_eq_snd; assumption) | (intro) | split | dsimp only

theorem State.refreshInh_after {m' q' : Nat} {u' : State} {s : State} {x : Str} (h' : Keeps m' q' u' s)
    (hm' : Nat.lor 0x100000000000000000000000000000000000000000000000000000 m' = m') (hq' : Nat.lor 0x0 q' = q') : Keeps m' q' u' (s.refreshInh x) := by
  refine Keeps.after ?_ hm' hq' h'
  clear hm' hq' h'
  unfold State.refreshInh
  with_reducible repeat' first
    | assumption | exact Keeps.refl _ | (apply Keeps.setTo; rotate_left; decide) | (intro) | split | dsimp only

theorem State.stopRun_after {m' q' : Nat} {u' : State} {s : State} {x : Str} (h' : Keeps m' q' u' s)
    (hm' : Nat.lor 0x400000000000000000000000000000000000000000000000000000000000000000000000000000000000000000000000000 m' = m') (hq' : Nat.lor 0x800 q' = q') : Keeps m' q' u' (s.stopRun x) := by
  refine Keeps.after ?_ hm' hq' h'
  clear hm' hq' h'
  unfold State.stopRun
  with_reducible repeat' first
    | assumption | exact Keeps.refl _ | (apply Keeps.unflag; rotate_left; decide)
    | (apply State.modSeq_after; rotate_left; decide; decide) | (intro) | split | dsimp only

theorem State.fifoRefresh_after {m' q' : Nat} {u' : State} {s : State} {x : Str} (h' : Keeps m' q' u' s)
    (hm' : Nat.lor 0x10000000000000000000000000000000000000000000000000000000000000000000000000000000000000000000000000000 m' = m') (hq' : Nat.lor 0x0 q' = q') : Keeps m' q' u' (s.fifoRefresh x) := by
  refine Keeps.after ?_ hm' hq' h'
  clear hm' hq' h'
  unfold State.fifoRefresh
  with_reducible repeat' first
    | assumption | exact Keeps.refl _ | (apply Keeps.wr; rotate_left; decide) | (intro) | split | dsimp only

theorem State.cutOpen_after {m' q' : Nat} {u' : State} {s : State} {x : Str} (h' : Keeps m' q' u' s)
    (hm' : Nat.lor 0x8000000000000000000000000000091600000000000000000000000000000000000000000000000000000000000000000000000000000000000000000000000000 m' = m') (hq' : Nat.lor 0x6800 q' = q') : Keeps m' q' u' (s.cutOpen x) := by
  refine Keeps.after ?_ hm' hq' h'
  clear hm' hq' h'
  unfold State.cutOpen
  with_reducible repeat' first
    | assumption | exact Keeps.refl _ | (apply Keeps.flag; rotate_left; decide) | (apply Keeps.unflag; rotate_left; decide)
    | (apply Keeps.bump; rotate_left; decide) | (apply State.fifoRefresh_after; rotate_left; decide; decide)
    | (apply State.giveCells_after; rotate_left; decide; decide) | (apply State.modWrp_after; rotate_left; decide; decide)
    | (apply State.stopRun_after; rotate_left; decide; decide)
    | (apply State.withdrawPlaces_after; rotate_left; decide; decide) | apply Keeps.when | apply Keeps.ite
    | apply Keeps.ite_fst | apply Keeps.ite_snd | (apply Keeps.of_eq_fst; assumption) | (apply Keeps.of_eq_snd; assumption)
    | (intro) | split | dsimp only

theorem State.closeWriteGate_after {m' q' : Nat} {u' : State} {s : State} {x : Str} (h' : Keeps m' q' u' s)
    (hm' : Nat.lor 0x8000000000000000000000000000091600000000000000000000000000000000000000000000000000000000000000000000000000000000000000000000000000 m' = m') (hq' : Nat.lor 0x6800 q' = q') : Keeps m' q' u' (s.closeWriteGate x) := by
  refine Keeps.after ?_ hm' hq' h'
  clear hm' hq' h'
  unfold State.closeWriteGate
  with_reducible repeat' first
    | assumption | exact Keeps.refl _ | (apply State.cutOpen_after; rotate_left; decide; decide) | apply Keeps.when
    | (intro) | split | dsimp only

theorem State.assertWinh_after {m' q' : Nat} {u' : State} {s : State} {x : Str} (h' : Keeps m' q' u' s)
    (hm' : Nat.lor 0x8000000000000000000000000000091600000000000000000000000000000000000000000000100000000000000000000000000010000000000000000000000000 m' = m') (hq' : Nat.lor 0x6800 q' = q') : Keeps m' q' u' (s.assertWinh x) := by
  refine Keeps.after ?_ hm' hq' h'
  clear hm' hq' h'
  unfold State.assertWinh
  with_reducible repeat' first
    | assumption | exact Keeps.refl _ | (apply Keeps.flag; rotate_left; decide)
    | (apply State.closeWriteGate_after; rotate_left; decide; decide)
    | (apply State.modSce_after; rotate_left; decide; decide) | (apply State.refreshInh_after; rotate_left; decide; decide)
    | (intro) | split | dsimp only

theorem State.assertCapoInhibit_after {m' q' : Nat} {u' : State} {s : State} {x : Str} (h' : Keeps m' q' u' s)
    (hm' : Nat.lor 0x8000000000000000000000000000091600000000000000000000000000000000000000000000100000000000000000000000000000000000000000000000000000 m' = m') (hq' : Nat.lor 0x6a00 q' = q') : Keeps m' q' u' (s.assertCapoInhibit x) := by
  refine Keeps.after ?_ hm' hq' h'
  clear hm' hq' h'
  unfold State.assertCapoInhibit
  with_reducible repeat' first
    | assumption | exact Keeps.refl _ | (apply State.closeWriteGate_after; rotate_left; decide; decide)
    | (apply State.refreshInh_after; rotate_left; decide; decide) | (intro) | split | dsimp only
    | (apply Keeps.with_capo; rotate_left; decide)

theorem State.releaseCapoInhibit_after {m' q' : Nat} {u' : State} {s : State} {x : Str} (h' : Keeps m' q' u' s)
    (hm' : Nat.lor 0x100000000000000000000000000000000000000000000000000000 m' = m') (hq' : Nat.lor 0x200 q' = q') : Keeps m' q' u' (s.releaseCapoInhibit x) := by
  refine Keeps.after ?_ hm' hq' h'
  clear hm' hq' h'
  unfold State.releaseCapoInhibit
  with_reducible repeat' first
    | assumption | exact Keeps.refl _ | (apply State.refreshInh_after; rotate_left; decide; decide) | (intro) | split
    | dsimp only | (apply Keeps.with_capo; rotate_left; decide)

theorem State.capoWinh_after {m' q' : Nat} {u' : State} {s : State} (h' : Keeps m' q' u' s)
    (hm' : Nat.lor 0x20000000 m' = m') (hq' : Nat.lor 0x0 q' = q') : Keeps m' q' u' (s.capoWinh) := by
  refine Keeps.after ?_ hm' hq' h'
  clear hm' hq' h'
  unfold State.capoWinh
  with_reducible repeat' first
    | assumption | exact Keeps.refl _ | (apply Keeps.setTo; rotate_left; decide) | (intro) | split | dsimp only

theorem State.capoInhibitAll_after {m' q' : Nat} {u' : State} {s : State} (h' : Keeps m' q' u' s)
    (hm' : Nat.lor 0x8000000000000000000000000000091600000000000000000000000000000000000000000000100000000000000000000000000000000000000000000020000000 m' = m') (hq' : Nat.lor 0x6a00 q' = q') : Keeps m' q' u' (s.capoInhibitAll) := by
  refine Keeps.after ?_ hm' hq' h'
  clear hm' hq' h'
  unfold State.capoInhibitAll
  with_reducible repeat' first
    | assumption | exact Keeps.refl _ | (apply State.assertCapoInhibit_after; rotate_left; decide; decide)
    | (apply State.capoWinh_after; rotate_left; decide; decide) | apply Keeps.onStr | apply Keeps.foldl
    | apply Keeps.foldl_snd | apply Keeps.foldl_fst | (intro) | split | dsimp only

theorem State.capoReleaseAll_after {m' q' : Nat} {u' : State} {s : State} (h' : Keeps m' q' u' s)
    (hm' : Nat.lor 0x100000000000000000000000000000000000000000000020000000 m' = m') (hq' : Nat.lor 0x200 q' = q') : Keeps m' q' u' (s.capoReleaseAll) := by
  refine Keeps.after ?_ hm' hq' h'
  clear hm' hq' h'
  unfold State.capoReleaseAll
  with_reducible repeat' first
    | assumption | exact Keeps.refl _ | (apply State.capoWinh_after; rotate_left; decide; decide)
    | (apply State.releaseCapoInhibit_after; rotate_left; decide; decide) | apply Keeps.foldl | apply Keeps.foldl_snd
    | apply Keeps.foldl_fst | (intro) | split | dsimp only

theorem State.setSpindleInhibit_after {m' q' : Nat} {u' : State} {s : State} {x : Str} {b : Bool} (h' : Keeps m' q' u' s)
    (hm' : Nat.lor 0x8000000000000000000000000000091600000000000000000000000000000000000000000000100000000000000000000000000000000002000000000000000000 m' = m') (hq' : Nat.lor 0x6c00 q' = q') : Keeps m' q' u' (s.setSpindleInhibit x b) := by
  refine Keeps.after ?_ hm' hq' h'
  clear hm' hq' h'
  unfold State.setSpindleInhibit
  with_reducible repeat' first
    | assumption | exact Keeps.refl _ | (apply Keeps.setTo; rotate_left; decide)
    | (apply State.closeWriteGate_after; rotate_left; decide; decide)
    | (apply State.refreshInh_after; rotate_left; decide; decide) | apply Keeps.when | (intro) | split | dsimp only
    | (apply Keeps.with_spe; rotate_left; decide)

theorem State.spindleInhibitAll_after {m' q' : Nat} {u' : State} {s : State} (h' : Keeps m' q' u' s)
    (hm' : Nat.lor 0x8000000000000000000000000000091600000000000000000000000000000000000000000000100000000000000000000000000000000002000000000000000000 m' = m') (hq' : Nat.lor 0x6c00 q' = q') : Keeps m' q' u' (s.spindleInhibitAll) := by
  refine Keeps.after ?_ hm' hq' h'
  clear hm' hq' h'
  unfold State.spindleInhibitAll
  with_reducible repeat' first
    | assumption | exact Keeps.refl _ | (apply State.setSpindleInhibit_after; rotate_left; decide; decide)
    | apply Keeps.onStr | apply Keeps.foldl | apply Keeps.foldl_snd | apply Keeps.foldl_fst | (intro) | split | dsimp only

theorem State.sendFrame_after {m' q' : Nat} {u' : State} {s : State} {x : Str} {f : NutFrame} (h' : Keeps m' q' u' s)
    (hm' : Nat.lor 0x0 m' = m') (hq' : Nat.lor 0x1000800 q' = q') : Keeps m' q' u' (s.sendFrame x f) := by
  refine Keeps.after ?_ hm' hq' h'
  clear hm' hq' h'
  unfold State.sendFrame
  with_reducible repeat' first
    | assumption | exact Keeps.refl _ | (apply State.emit_after; rotate_left; decide; decide)
    | (apply State.modAe_after; rotate_left; decide; decide) | apply Keeps.when | (intro) | split | dsimp only

theorem State.sendUpdate_after {m' q' : Nat} {u' : State} {s : State} {x : Str} {mode assist heater wc : Nat} (h' : Keeps m' q' u' s)
    (hm' : Nat.lor 0x0 m' = m') (hq' : Nat.lor 0x1000800 q' = q') : Keeps m' q' u' (s.sendUpdate x mode assist heater wc) := by
  refine Keeps.after ?_ hm' hq' h'
  clear hm' hq' h'
  unfold State.sendUpdate
  with_reducible repeat' first
    | assumption | exact Keeps.refl _ | (apply State.modAe_after; rotate_left; decide; decide)
    | (apply State.sendFrame_after; rotate_left; decide; decide) | (intro) | split | dsimp only

theorem State.aeOff_after {m' q' : Nat} {u' : State} {s : State} {x : Str} (h' : Keeps m' q' u' s)
    (hm' : Nat.lor 0x40000000000000000000000000000000000000000000000000000 m' = m') (hq' : Nat.lor 0x1000800 q' = q') : Keeps m' q' u' (s.aeOff x) := by
  refine Keeps.after ?_ hm' hq' h'
  clear hm' hq' h'
  unfold State.aeOff
  with_reducible repeat' first
    | assumption | exact Keeps.refl _ | (apply Keeps.unflag; rotate_left; decide)
    | (apply State.modAe_after; rotate_left; decide; decide) | (apply State.sendUpdate_after; rotate_left; decide; decide)
    | apply Keeps.when | (intro) | split | dsimp only

theorem State.setReference_after {m' q' : Nat} {u' : State} {s : State} {r : Option Str} (h' : Keeps m' q' u' s)
    (hm' : Nat.lor 0x3800 m' = m') (hq' : Nat.lor 0x100 q' = q') : Keeps m' q' u' (s.setReference r) := by
  refine Keeps.after ?_ hm' hq' h'
  clear hm' hq' h'
  unfold State.setReference
  with_reducible repeat' first
    | assumption | exact Keeps.refl _ | (apply Keeps.wr; rotate_left; decide) | (apply Keeps.flag; rotate_left; decide)
    | (apply Keeps.unflag; rotate_left; decide) | (apply Keeps.of_eq_fst; assumption) | (apply Keeps.of_eq_snd; assumption)
    | (intro) | split | dsimp only | (apply Keeps.with_fret; rotate_left; decide)

theorem State.syncLost_after {m' q' : Nat} {u' : State} {s : State} {x : Str} (h' : Keeps m' q' u' s)
    (hm' : Nat.lor 0x3a00 m' = m') (hq' : Nat.lor 0x900 q' = q') : Keeps m' q' u' (s.syncLost x) := by
  refine Keeps.after ?_ hm' hq' h'
  clear hm' hq' h'
  unfold State.syncLost
  with_reducible repeat' first
    | assumption | exact Keeps.refl _ | (apply Keeps.unflagBit; rotate_left; decide)
    | (apply State.modSkew_after; rotate_left; decide; decide)
    | (apply State.setReference_after; rotate_left; decide; decide) | apply Keeps.ite | apply Keeps.ite_fst
    | apply Keeps.ite_snd | (intro) | split | dsimp only

theorem State.syncGained_after {m' q' : Nat} {u' : State} {s : State} {x : Str} (h' : Keeps m' q' u' s)
    (hm' : Nat.lor 0x3800 m' = m') (hq' : Nat.lor 0x900 q' = q') : Keeps m' q' u' (s.syncGained x) := by
  refine Keeps.after ?_ hm' hq' h'
  clear hm' hq' h'
  unfold State.syncGained
  with_reducible repeat' first
    | assumption | exact Keeps.refl _ | (apply State.modSkew_after; rotate_left; decide; decide)
    | (apply State.setReference_after; rotate_left; decide; decide) | apply Keeps.when | (apply Keeps.of_eq_fst; assumption)
    | (apply Keeps.of_eq_snd; assumption) | (intro) | split | dsimp only | (apply Keeps.with_fret; rotate_left; decide)

theorem State.svdIdle_after {m' q' : Nat} {u' : State} {s : State} {x : Str} (h' : Keeps m' q' u' s)
    (hm' : Nat.lor 0x8000000000000000000000000000000000000000003a00 m' = m') (hq' : Nat.lor 0x900 q' = q') : Keeps m' q' u' (s.svdIdle x) := by
  refine Keeps.after ?_ hm' hq' h'
  clear hm' hq' h'
  unfold State.svdIdle
  with_reducible repeat' first
    | assumption | exact Keeps.refl _ | (apply Keeps.wr; rotate_left; decide)
    | (apply State.modSvd_after; rotate_left; decide; decide) | (apply State.syncLost_after; rotate_left; decide; decide)
    | apply Keeps.when | (intro) | split | dsimp only

theorem State.svdSearch_after {m' q' : Nat} {u' : State} {s : State} {x : Str} (h' : Keeps m' q' u' s)
    (hm' : Nat.lor 0x8000000000000000000000000000000000000000000000 m' = m') (hq' : Nat.lor 0x800 q' = q') : Keeps m' q' u' (s.svdSearch x) := by
  refine Keeps.after ?_ hm' hq' h'
  clear hm' hq' h'
  unfold State.svdSearch
  with_reducible repeat' first
    | assumption | exact Keeps.refl _ | (apply Keeps.wr; rotate_left; decide)
    | (apply State.modSvd_after; rotate_left; decide; decide) | apply Keeps.when | (intro) | split | dsimp only

theorem State.startRetract_after {m' q' : Nat} {u' : State} {s : State} {x : Str} {cause : RetractCause} (h' : Keeps m' q' u' s)
    (hm' : Nat.lor 0x10000000000000000000000000001800000000000000000000000000009160000000000000000000400000300000000000000000014000000000000000000000000801c000000000000000000000000 m' = m') (hq' : Nat.lor 0x10068c0 q' = q') : Keeps m' q' u' (s.startRetract x cause) := by
  refine Keeps.after ?_ hm' hq' h'
  clear hm' hq' h'
  unfold State.startRetract
  with_reducible repeat' first
    | assumption | exact Keeps.refl _ | (apply Keeps.wr; rotate_left; decide) | (apply Keeps.flag; rotate_left; decide)
    | (apply Keeps.unflag; rotate_left; decide) | (apply State.abortCapture_after; rotate_left; decide; decide)
    | (apply State.aeOff_after; rotate_left; decide; decide) | (apply State.assertWinh_after; rotate_left; decide; decide)
    | (apply State.logEvent_after; rotate_left; decide; decide) | (apply State.modSce_after; rotate_left; decide; decide)
    | apply Keeps.when | (intro) | split | dsimp only

theorem State.requestRetract_after {m' q' : Nat} {u' : State} {s : State} {x : Str} {cause : RetractCause} (h' : Keeps m' q' u' s)
    (hm' : Nat.lor 0x10000000000000000000000000001800000000000000000000000000009160000000000000000000400000300000000000000000014000000000000000000000000801c000000000000000000000000 m' = m') (hq' : Nat.lor 0x10068c0 q' = q') : Keeps m' q' u' (s.requestRetract x cause) := by
  refine Keeps.after ?_ hm' hq' h'
  clear hm' hq' h'
  unfold State.requestRetract
  with_reducible repeat' first
    | assumption | exact Keeps.refl _ | (apply State.startRetract_after; rotate_left; decide; decide) | apply Keeps.when
    | (intro) | split | dsimp only

theorem State.retractAllBySpe_after {m' q' : Nat} {u' : State} {s : State} (h' : Keeps m' q' u' s)
    (hm' : Nat.lor 0x10000000000000000000000000001800000000000000000000000000009160000000000000000000400000300000000000000000014000000000000000000000000801c000000000000000000000000 m' = m') (hq' : Nat.lor 0x10068c0 q' = q') : Keeps m' q' u' (s.retractAllBySpe) := by
  refine Keeps.after ?_ hm' hq' h'
  clear hm' hq' h'
  unfold State.retractAllBySpe
  with_reducible repeat' first
    | assumption | exact Keeps.refl _ | (apply State.requestRetract_after; rotate_left; decide; decide) | apply Keeps.foldl
    | apply Keeps.foldl_snd | apply Keeps.foldl_fst | (intro) | split | dsimp only

theorem storeFind_foldl_put (l : List (Nat × Nat)) (m : List (Nat × Nat)) (k : Nat) (h : ∀ e ∈ l, e.1 ≠ k) :
    storeFind (l.foldl (fun m e => storePut m e.1 e.2) m) k = storeFind m k := by
  induction l generalizing m with
  | nil => rfl
  | cons e l ih =>
    exact (ih _ fun a ha => h a (List.mem_cons_of_mem _ ha)).trans (storeFind_storePut_ne _ _ _ _ (h e List.mem_cons_self).symm)

theorem channelRegs_mask (r : Reg) (h : Nat.testBit 0x7fff80000000000fffffffffffffffc000000000000000000000000000000000000000000000000000000000000000000 r.ctorIdx = false) : channelRegs.contains r.ctorIdx = false := by
  rw [Bool.eq_false_iff]
  intro hc
  simp only [channelRegs, List.contains_iff_mem, List.map_append, List.mem_append, List.mem_map, Blk.rows] at hc
  have go (b : Blk) (hb : Nat.lor (blkMask b) 0x7fff80000000000fffffffffffffffc000000000000000000000000000000000000000000000000000000000000000000 = 0x7fff80000000000fffffffffffffffc000000000000000000000000000000000000000000000000000000000000000000) : ¬ ∃ w, (∃ r', r' ∈ b.regs ∧ r'.row = w) ∧ w.reg.ctorIdx = r.ctorIdx := by
    rintro ⟨w, ⟨r', hr, rfl⟩, hw⟩
    rw [Reg.row_reg] at hw
    have h1 := List.all_eq_true.mp (Blk.regs_blk b) r' hr
    rw [hw] at h1
    have h2 := testBit_of_lor hb h
    rw [h2] at h1; exact absurd h1 (by decide)
  rcases hc with hc | hc
  · exact go .rch rfl hc
  · exact go .sfm rfl hc

theorem State.rewriteChannel_after {m' q' : Nat} {u' : State} {s : State} {x : Str} (h' : Keeps m' q' u' s)
    (hm' : Nat.lor 0x7fff80000000000fffffffffffffffc000000000000000000000000000000000000000000000000000000000000000000 m' = m') (hq' : Nat.lor 0x800 q' = q') : Keeps m' q' u' (s.rewriteChannel x) := by
  refine Keeps.after ?_ hm' hq' h'
  unfold State.rewriteChannel
  refine Keeps.ite (fun _ => Keeps.refl _) fun _ => ?_
  dsimp only
  have k : Keeps 0x7fff80000000000fffffffffffffffc000000000000000000000000000000000000000000000000000000000000000000 0x800 s (s.modRch x fun c => { c with unconfigured := false }) := State.modRch_after (Keeps.refl _) rfl rfl
  generalize (s.modRch x fun c => { c with unconfigured := false }) = t at k
  split
  · exact k
  · rename_i c _
    refine k.trans { regs := fun r j h => ?_, parts := fun p _ => by cases p <;> rfl, queue := rfl, memory := fun h => h, fuses := FusesKept.refl _ }
    unfold State.rd
    rw [storeFind_foldl_put]
    intro e he
    simp only [List.mem_filter, Bool.and_eq_true] at he
    rintro hk
    have e1 : e.1 / 2 ^ 20 = r.ctorIdx := by rw [hk]; unfold regKey; omega
    have := he.2.1
    rw [e1, channelRegs_mask r h] at this
    exact absurd this (by decide)

/-! ### Layout -/

theorem State.setMedia_after {m' q' : Nat} {u' : State} {s : State} {x : Str} {key : Nat} {w : Option Codeword} (h' : Keeps m' q' u' s)
    (hm' : Nat.lor 0x0 m' = m') (hq' : Nat.lor 0x800 q' = q') : Keeps m' q' u' (s.setMedia x key w) := by
  refine Keeps.after ?_ hm' hq' h'
  clear hm' hq' h'
  unfold State.setMedia
  with_reducible repeat' first
    | assumption | exact Keeps.refl _ | (apply State.modStr_after; rotate_left; decide; decide)
    | (apply Keeps.of_eq_fst; assumption) | (apply Keeps.of_eq_snd; assumption) | (intro) | split | dsimp only

/-! ### Regions -/

theorem State.modMemory_after {m' q' : Nat} {u' : State} {s : State} {f : MemoryState → MemoryState} (h' : Keeps m' q' u' s)
    (hm' : Nat.lor 0x0 m' = m') (hq' : Nat.lor 0x20000 q' = q') : Keeps m' q' u' (s.modMemory f) := by
  refine Keeps.after ?_ hm' hq' h'
  clear hm' hq' h'
  unfold State.modMemory
  with_reducible repeat' first
    | assumption | exact Keeps.refl _ | (intro) | split | dsimp only | (apply Keeps.with_memory; rotate_left; decide)

theorem State.readByte_after {m' q' : Nat} {u' : State} {s : State} {m : MemRegion} {a : Nat} (h' : Keeps m' q' u' s)
    (hm' : Nat.lor 0x0 m' = m') (hq' : Nat.lor 0x20 q' = q') : Keeps m' q' u' (s.readByte m a).2 := by
  refine Keeps.after ?_ hm' hq' h'
  clear hm' hq' h'
  unfold State.readByte
  with_reducible repeat' first
    | assumption | exact Keeps.refl _ | (apply State.drawn_after; rotate_left; decide; decide) | apply Keeps.ite
    | apply Keeps.ite_fst | apply Keeps.ite_snd | (intro) | split | dsimp only

theorem State.writeByte_after {m' q' : Nat} {u' : State} {s : State} {m : MemRegion} {a v : Nat} (h' : Keeps m' q' u' s)
    (hm' : Nat.lor 0x0 m' = m') (hq' : Nat.lor 0x2 q' = q') : Keeps m' q' u' (s.writeByte m a v) := by
  refine Keeps.after ?_ hm' hq' h'
  exact { regs := fun r j _ => by cases m <;> rfl
          parts := fun p hp => by cases p <;> cases m <;> first | rfl | (exact absurd hp (by decide))
          queue := by cases m <;> rfl
          memory := s.writeByte_wf m a v
          fuses := by cases m <;> exact FusesKept.refl s }

theorem State.wordWritten_after {m' q' : Nat} {u' : State} {s : State} {m : MemRegion} {a : Nat} {full : Bool} (h' : Keeps m' q' u' s)
    (hm' : Nat.lor 0x0 m' = m') (hq' : Nat.lor 0x20000 q' = q') : Keeps m' q' u' (s.wordWritten m a full) := by
  refine Keeps.after ?_ hm' hq' h'
  clear hm' hq' h'
  unfold State.wordWritten
  with_reducible repeat' first
    | assumption | exact Keeps.refl _ | (apply State.modMemory_after; rotate_left; decide; decide) | apply Keeps.ite
    | apply Keeps.ite_fst | apply Keeps.ite_snd | (apply Keeps.of_eq_fst; assumption) | (apply Keeps.of_eq_snd; assumption)
    | (intro) | split | dsimp only

theorem State.readMem_after {m' q' : Nat} {u' : State} {s : State} {m : MemRegion} {a : Nat} {fuel : Nat} (h' : Keeps m' q' u' s)
    (hm' : Nat.lor 0x0 m' = m') (hq' : Nat.lor 0x20 q' = q') : Keeps m' q' u' (s.readMem m a fuel).2 := by
  refine Keeps.after ?_ hm' hq' h'
  clear hm' hq' h'
  suffices H : ∀ u, Keeps 0x0 0x20 u s → Keeps 0x0 0x20 u (s.readMem m a fuel).2 from H _ (Keeps.refl _)
  induction fuel generalizing s m a with
  | zero =>
    intro u hu
    simp only [State.readMem]
    with_reducible repeat' first
      | assumption | exact Keeps.refl _ | (apply State.readByte_after; rotate_left; decide; decide)
      | (apply Keeps.of_eq_fst; assumption) | (apply Keeps.of_eq_snd; assumption) | (intro) | split | dsimp only
  | succ k ih =>
    intro u hu
    simp only [State.readMem]
    with_reducible repeat' first
      | assumption | exact Keeps.refl _ | (apply State.readByte_after; rotate_left; decide; decide) | apply ih
      | (apply Keeps.of_eq_fst; assumption) | (apply Keeps.of_eq_snd; assumption) | (intro) | split | dsimp only

theorem State.writeMem_after {m' q' : Nat} {u' : State} {m : MemRegion} (k : Nat) {s : State} {a v : Nat} (h' : Keeps m' q' u' s)
    (hm' : Nat.lor 0x0 m' = m') (hq' : Nat.lor 0x2 q' = q') : Keeps m' q' u' (s.writeMem m a v k) := by
  induction k generalizing s a v with
  | zero => exact h'
  | succ k ih => exact ih (State.writeByte_after h' hm' hq')

theorem State.captureError_after {m' q' : Nat} {u' : State} {s : State} {i a synd kind : Nat} (h' : Keeps m' q' u' s)
    (hm' : Nat.lor 0xf000000000000000000000000000000000000000000000000000000000000000000000000000000000000000000000000000000000000000000000000000000000000000000000000000000000000000000000000000000 m' = m') (hq' : Nat.lor 0x0 q' = q') : Keeps m' q' u' (s.captureError i a synd kind) := by
  refine Keeps.after ?_ hm' hq' h'
  clear hm' hq' h'
  unfold State.captureError
  with_reducible repeat' first
    | assumption | exact Keeps.refl _ | (apply Keeps.wr; rotate_left; decide) | (intro) | split | dsimp only

theorem State.correction_after {m' q' : Nat} {u' : State} {s : State} {i a synd : Nat} {leak : Bool } (h' : Keeps m' q' u' s)
    (hm' : Nat.lor 0xf230000000000000000000000000000000000000000000000000000000000000000000000000000000000000000000000000000000000000000000000000000000000000000000000000000000000000000000000000000 m' = m') (hq' : Nat.lor 0x1000000 q' = q') : Keeps m' q' u' (s.correction i a synd leak) := by
  refine Keeps.after ?_ hm' hq' h'
  clear hm' hq' h'
  unfold State.correction
  with_reducible repeat' first
    | assumption | exact Keeps.refl _ | (apply Keeps.wr; rotate_left; decide) | (apply Keeps.flag; rotate_left; decide)
    | (apply Keeps.bump; rotate_left; decide) | (apply State.captureError_after; rotate_left; decide; decide)
    | (apply State.emit_after; rotate_left; decide; decide) | apply Keeps.ite | apply Keeps.ite_fst | apply Keeps.ite_snd
    | (intro) | split | dsimp only

theorem State.uncorrectable_after {m' q' : Nat} {u' : State} {s : State} {i a synd : Nat} (h' : Keeps m' q' u' s)
    (hm' : Nat.lor 0xf440000000000000000000000000000000000000000000000000000000000000000000000000000000000000000000000000000000000000000000000000000000000000000000000000000000000000000000000000000 m' = m') (hq' : Nat.lor 0x1000000 q' = q') : Keeps m' q' u' (s.uncorrectable i a synd) := by
  refine Keeps.after ?_ hm' hq' h'
  clear hm' hq' h'
  unfold State.uncorrectable
  with_reducible repeat' first
    | assumption | exact Keeps.refl _ | (apply Keeps.flag; rotate_left; decide) | (apply Keeps.bump; rotate_left; decide)
    | (apply State.captureError_after; rotate_left; decide; decide) | (apply State.emit_after; rotate_left; decide; decide)
    | (intro) | split | dsimp only

/-! ### Signal -/

theorem State.putBytes_after {m' q' : Nat} {u' : State} {x : Str} (l : List Nat) {s : State} {a : Nat} (h' : Keeps m' q' u' s)
    (hm' : Nat.lor 0x0 m' = m') (hq' : Nat.lor 0x20002 q' = q') : Keeps m' q' u' (s.putBytes x a l) := by
  induction l generalizing s a with
  | nil => exact h'
  | cons v rest ih =>
    unfold State.putBytes
    exact ih (State.wordWritten_after (State.writeByte_after h' (lor_of hm' rfl) (lor_of hq' rfl)) (lor_of hm' rfl) (lor_of hq' rfl))

theorem State.putSamples_after {m' q' : Nat} {u' : State} {s : State} {x : Str} {a n : Nat} {samples : List (List Int)} (h' : Keeps m' q' u' s)
    (hm' : Nat.lor 0x0 m' = m') (hq' : Nat.lor 0x20002 q' = q') : Keeps m' q' u' (s.putSamples x a n samples) := by
  refine Keeps.after ?_ hm' hq' h'
  clear hm' hq' h'
  unfold State.putSamples
  with_reducible repeat' first
    | assumption | exact Keeps.refl _ | (apply State.putBytes_after; rotate_left; decide; decide) | apply Keeps.ite
    | apply Keeps.ite_fst | apply Keeps.ite_snd | (intro) | split | dsimp only

/-! ### Channel -/

theorem State.readerPower_after {m' q' : Nat} {u' : State} {s : State} {x : Str} {mask r : Nat} (h' : Keeps m' q' u' s)
    (hm' : Nat.lor 0x200000000000000000000400000000000000000000000000000000000000000000000000000000000000000000000000000000000000000000000000000000000000000000000000000000000000000000000000000000000000000000000000000000000000 m' = m') (hq' : Nat.lor 0x0 q' = q') : Keeps m' q' u' (s.readerPower x mask r) := by
  refine Keeps.after ?_ hm' hq' h'
  clear hm' hq' h'
  unfold State.readerPower
  with_reducible repeat' first
    | assumption | exact Keeps.refl _ | (apply Keeps.wr; rotate_left; decide) | (apply Keeps.flagBit; rotate_left; decide)
    | (apply Keeps.unflagBit; rotate_left; decide) | apply Keeps.ite | apply Keeps.ite_fst | apply Keeps.ite_snd
    | apply Keeps.foldl | apply Keeps.foldl_snd | apply Keeps.foldl_fst | (intro) | split | dsimp only

theorem State.readersFollow_after {m' q' : Nat} {u' : State} {s : State} {x : Str} {up : Bool} (h' : Keeps m' q' u' s)
    (hm' : Nat.lor 0x200000000000000000000400000000000000000000000000000000000000000000000000000000000000000000000000000000000000000000000000000000000000000000000000000000000000000000000000000000000000000000000000000000000000 m' = m') (hq' : Nat.lor 0x0 q' = q') : Keeps m' q' u' (s.readersFollow x up) := by
  refine Keeps.after ?_ hm' hq' h'
  clear hm' hq' h'
  unfold State.readersFollow
  with_reducible repeat' first
    | assumption | exact Keeps.refl _ | (apply State.readerPower_after; rotate_left; decide; decide) | apply Keeps.when
    | apply Keeps.foldl | apply Keeps.foldl_snd | apply Keeps.foldl_fst | (intro) | split | dsimp only

theorem State.putSetWord_after {m' q' : Nat} {u' : State} {s : State} {x : Str} {n w v : Nat} (h' : Keeps m' q' u' s)
    (hm' : Nat.lor 0x8000000000000000000000000000000000000000000000000000000000000000000000000000000000 m' = m') (hq' : Nat.lor 0x0 q' = q') : Keeps m' q' u' (s.putSetWord x n w v) := by
  refine Keeps.after ?_ hm' hq' h'
  clear hm' hq' h'
  unfold State.putSetWord
  with_reducible repeat' first
    | assumption | exact Keeps.refl _ | (apply Keeps.wr; rotate_left; decide) | apply Keeps.ite | apply Keeps.ite_fst
    | apply Keeps.ite_snd | (intro) | split | dsimp only

theorem State.channelSetWrite_after {m' q' : Nat} {u' : State} {s : State} {x : Str} {n w v : Nat} (h' : Keeps m' q' u' s)
    (hm' : Nat.lor 0x200000000000000000000400000000000000000000000000000000000000000000000000000000000000000000000000000000000000000000000000008000000000100000000000000000000000000000000000000000000000000000000000000000000000 m' = m') (hq' : Nat.lor 0x0 q' = q') : Keeps m' q' u' (s.channelSetWrite x n w v) := by
  refine Keeps.after ?_ hm' hq' h'
  clear hm' hq' h'
  unfold State.channelSetWrite
  with_reducible repeat' first
    | assumption | exact Keeps.refl _ | (apply Keeps.flag; rotate_left; decide)
    | (apply State.putSetWord_after; rotate_left; decide; decide)
    | (apply State.readersFollow_after; rotate_left; decide; decide) | apply Keeps.when | apply Keeps.ite
    | apply Keeps.ite_fst | apply Keeps.ite_snd | (intro) | split | dsimp only

theorem State.loadTaps_after {m' q' : Nat} {u' : State} {s : State} {x : Str} {n : Nat} (h' : Keeps m' q' u' s)
    (hm' : Nat.lor 0x6000000000000000000000000000000000000000000000000000000000000000000000000000000000 m' = m') (hq' : Nat.lor 0x0 q' = q') : Keeps m' q' u' (s.loadTaps x n) := by
  refine Keeps.after ?_ hm' hq' h'
  clear hm' hq' h'
  unfold State.loadTaps
  with_reducible repeat' first
    | assumption | exact Keeps.refl _ | (apply Keeps.wr; rotate_left; decide) | apply Keeps.foldl | apply Keeps.foldl_snd
    | apply Keeps.foldl_fst | (intro) | split | dsimp only

theorem State.saveTaps_after {m' q' : Nat} {u' : State} {s : State} {x : Str} (h' : Keeps m' q' u' s)
    (hm' : Nat.lor 0x8000000000000000000000000000000000000000000000000000000000000000000000000000000000 m' = m') (hq' : Nat.lor 0x0 q' = q') : Keeps m' q' u' (s.saveTaps x) := by
  refine Keeps.after ?_ hm' hq' h'
  clear hm' hq' h'
  unfold State.saveTaps
  with_reducible repeat' first
    | assumption | exact Keeps.refl _ | (apply State.putSetWord_after; rotate_left; decide; decide) | apply Keeps.foldl
    | apply Keeps.foldl_snd | apply Keeps.foldl_fst | (intro) | split | dsimp only

theorem State.refreshRate_after {m' q' : Nat} {u' : State} {s : State} {x : Str} (h' : Keeps m' q' u' s)
    (hm' : Nat.lor 0x1000000000000000000000000000000000000000000000000000000000000000000000000000 m' = m') (hq' : Nat.lor 0x0 q' = q') : Keeps m' q' u' (s.refreshRate x) := by
  refine Keeps.after ?_ hm' hq' h'
  clear hm' hq' h'
  unfold State.refreshRate
  with_reducible repeat' first
    | assumption | exact Keeps.refl _ | (apply Keeps.wr; rotate_left; decide) | (intro) | split | dsimp only

theorem State.nameSet_after {m' q' : Nat} {u' : State} {s : State} {x : Str} {n : Nat} (h' : Keeps m' q' u' s)
    (hm' : Nat.lor 0x200000000000000000000400000000000000000000000000000000000000000000000000000000000000000000000000000000000000000000000000006000001000a04000000000000000000000000000000000000000000000000000000000000000000000 m' = m') (hq' : Nat.lor 0x0 q' = q') : Keeps m' q' u' (s.nameSet x n).2 := by
  refine Keeps.after ?_ hm' hq' h'
  clear hm' hq' h'
  unfold State.nameSet
  with_reducible repeat' first
    | assumption | exact Keeps.refl _ | (apply Keeps.wr; rotate_left; decide) | (apply Keeps.flag; rotate_left; decide)
    | (apply Keeps.unflag; rotate_left; decide) | (apply State.loadTaps_after; rotate_left; decide; decide)
    | (apply State.readersFollow_after; rotate_left; decide; decide)
    | (apply State.refreshRate_after; rotate_left; decide; decide) | apply Keeps.ite | apply Keeps.ite_fst
    | apply Keeps.ite_snd | (intro) | split | dsimp only

theorem State.nameSetForWrite_after {m' q' : Nat} {u' : State} {s : State} {x : Str} {n : Nat} (h' : Keeps m' q' u' s)
    (hm' : Nat.lor 0x200000000000000000000400000000000000000000000000000000000000000000000000000000000000000000000000000000000000000000000000006000001000a04000000000000000000000000000000000000000000000000000000000000000000000 m' = m') (hq' : Nat.lor 0x0 q' = q') : Keeps m' q' u' (s.nameSetForWrite x n).2 := by
  refine Keeps.after ?_ hm' hq' h'
  clear hm' hq' h'
  unfold State.nameSetForWrite
  with_reducible repeat' first
    | assumption | exact Keeps.refl _ | (apply Keeps.wr; rotate_left; decide) | (apply Keeps.flag; rotate_left; decide)
    | (apply Keeps.unflag; rotate_left; decide) | (apply State.loadTaps_after; rotate_left; decide; decide)
    | (apply State.readersFollow_after; rotate_left; decide; decide)
    | (apply State.refreshRate_after; rotate_left; decide; decide) | apply Keeps.ite | apply Keeps.ite_fst
    | apply Keeps.ite_snd | (intro) | split | dsimp only

theorem State.startPasses_after {m' q' : Nat} {u' : State} {s : State} {x : Str} (h' : Keeps m' q' u' s)
    (hm' : Nat.lor 0x0 m' = m') (hq' : Nat.lor 0x800 q' = q') : Keeps m' q' u' (s.startPasses x) := by
  refine Keeps.after ?_ hm' hq' h'
  clear hm' hq' h'
  unfold State.startPasses
  with_reducible repeat' first
    | assumption | exact Keeps.refl _ | (apply State.modRch_after; rotate_left; decide; decide) | (intro) | split
    | dsimp only

theorem State.requestPass_after {m' q' : Nat} {u' : State} {s : State} {x : Str} {p : Pass} (h' : Keeps m' q' u' s)
    (hm' : Nat.lor 0x10000000000000000000000000000000000000000000000000000000000000000000000000000 m' = m') (hq' : Nat.lor 0x800 q' = q') : Keeps m' q' u' (s.requestPass x p).2 := by
  refine Keeps.after ?_ hm' hq' h'
  clear hm' hq' h'
  unfold State.requestPass
  with_reducible repeat' first
    | assumption | exact Keeps.refl _ | (apply Keeps.bump; rotate_left; decide)
    | (apply State.modRch_after; rotate_left; decide; decide) | (apply State.startPasses_after; rotate_left; decide; decide)
    | apply Keeps.when | apply Keeps.ite | apply Keeps.ite_fst | apply Keeps.ite_snd | (intro) | split | dsimp only

theorem State.applyAdapt_after {m' q' : Nat} {u' : State} {s : State} {x : Str} {e : AdaptEntry} (h' : Keeps m' q' u' s)
    (hm' : Nat.lor 0x6000000000000000000000000000000000000000000000000000000000000000000000000000000000 m' = m') (hq' : Nat.lor 0x0 q' = q') : Keeps m' q' u' (s.applyAdapt x e) := by
  refine Keeps.after ?_ hm' hq' h'
  clear hm' hq' h'
  unfold State.applyAdapt
  with_reducible repeat' first
    | assumption | exact Keeps.refl _ | (apply Keeps.wr; rotate_left; decide) | apply Keeps.when | apply Keeps.ite
    | apply Keeps.ite_fst | apply Keeps.ite_snd | apply Keeps.foldl | apply Keeps.foldl_snd | apply Keeps.foldl_fst
    | (intro) | split | dsimp only

theorem State.diverge_after {m' q' : Nat} {u' : State} {s : State} {x : Str} (h' : Keeps m' q' u' s)
    (hm' : Nat.lor 0x4000003008000000000000000000000000000000000000000000000000000000000000000000000 m' = m') (hq' : Nat.lor 0x800 q' = q') : Keeps m' q' u' (s.diverge x) := by
  refine Keeps.after ?_ hm' hq' h'
  clear hm' hq' h'
  unfold State.diverge
  with_reducible repeat' first
    | assumption | exact Keeps.refl _ | (apply Keeps.flag; rotate_left; decide)
    | (apply State.modRch_after; rotate_left; decide; decide) | (apply State.rchRefresh_after; rotate_left; decide; decide)
    | (intro) | split | dsimp only

theorem State.adaptOpen_after {m' q' : Nat} {u' : State} {s : State} {x : Str} {drop : Bool} {fuel : Nat} (h' : Keeps m' q' u' s)
    (hm' : Nat.lor 0x6004000003008000000000000000000000000000000000000000000000000000000000000000000000 m' = m') (hq' : Nat.lor 0x800 q' = q') : Keeps m' q' u' (s.adaptOpen x drop fuel) := by
  refine Keeps.after ?_ hm' hq' h'
  clear hm' hq' h'
  suffices H : ∀ u, Keeps 0x6004000003008000000000000000000000000000000000000000000000000000000000000000000000 0x800 u s → Keeps 0x6004000003008000000000000000000000000000000000000000000000000000000000000000000000 0x800 u (s.adaptOpen x drop fuel) from H _ (Keeps.refl _)
  induction fuel generalizing s x drop with
  | zero =>
    intro u hu
    simp only [State.adaptOpen]
    with_reducible repeat' first
      | assumption | exact Keeps.refl _ | (apply State.applyAdapt_after; rotate_left; decide; decide)
      | (apply State.diverge_after; rotate_left; decide; decide) | (apply State.modRch_after; rotate_left; decide; decide)
      | (apply State.rchRefresh_after; rotate_left; decide; decide) | apply Keeps.ite | apply Keeps.ite_fst
      | apply Keeps.ite_snd | (apply Keeps.of_eq_fst; assumption) | (apply Keeps.of_eq_snd; assumption) | (intro) | split
      | dsimp only
  | succ k ih =>
    intro u hu
    simp only [State.adaptOpen]
    with_reducible repeat' first
      | assumption | exact Keeps.refl _ | (apply State.applyAdapt_after; rotate_left; decide; decide)
      | (apply State.diverge_after; rotate_left; decide; decide) | (apply State.modRch_after; rotate_left; decide; decide)
      | (apply State.rchRefresh_after; rotate_left; decide; decide) | apply ih | apply Keeps.ite | apply Keeps.ite_fst
      | apply Keeps.ite_snd | (apply Keeps.of_eq_fst; assumption) | (apply Keeps.of_eq_snd; assumption) | (intro) | split
      | dsimp only

theorem State.rsqNotReady_after {m' q' : Nat} {u' : State} {s : State} {x : Str} (h' : Keeps m' q' u' s)
    (hm' : Nat.lor 0x0 m' = m') (hq' : Nat.lor 0x800 q' = q') : Keeps m' q' u' (s.rsqNotReady x) := by
  refine Keeps.after ?_ hm' hq' h'
  clear hm' hq' h'
  unfold State.rsqNotReady
  with_reducible repeat' first
    | assumption | exact Keeps.refl _ | (apply State.modSeq_after; rotate_left; decide; decide) | (intro) | split
    | dsimp only

theorem State.rchBoundary_after {m' q' : Nat} {u' : State} {s : State} {x : Str} (h' : Keeps m' q' u' s)
    (hm' : Nat.lor 0xfffffffffffffffc000000000000000000000000000000000000000000000000000000000000000000 m' = m') (hq' : Nat.lor 0x1 q' = q') : Keeps m' q' u' (s.rchBoundary x) := by
  refine Keeps.after ?_ hm' hq' h'
  clear hm' hq' h'
  unfold State.rchBoundary
  with_reducible repeat' first
    | assumption | exact Keeps.refl _ | (apply State.boundary_after; rotate_left; decide; decide)
    | (apply State.shadowDrop_after; rotate_left; decide; decide)
    | (apply State.shadowWr_after; rotate_left; decide; decide) | (apply Keeps.of_eq_fst; assumption)
    | (apply Keeps.of_eq_snd; assumption) | (intro) | split | dsimp only

theorem State.captureMode_after {m' q' : Nat} {u' : State} {s : State} {x : Str} (h' : Keeps m' q' u' s)
    (hm' : Nat.lor 0x2000000000000000000000000000000000000000000000000000000000000000000000 m' = m') (hq' : Nat.lor 0x801 q' = q') : Keeps m' q' u' (s.captureMode x) := by
  refine Keeps.after ?_ hm' hq' h'
  clear hm' hq' h'
  unfold State.captureMode
  with_reducible repeat' first
    | assumption | exact Keeps.refl _ | (apply Keeps.wr; rotate_left; decide)
    | (apply State.modRch_after; rotate_left; decide; decide) | (apply State.shadowDrop_after; rotate_left; decide; decide)
    | apply Keeps.ite | apply Keeps.ite_fst | apply Keeps.ite_snd | (apply Keeps.of_eq_fst; assumption)
    | (apply Keeps.of_eq_snd; assumption) | (intro) | split | dsimp only

theorem State.sbufFull_after {m' q' : Nat} {u' : State} {s : State} {x : Str} (h' : Keeps m' q' u' s)
    (hm' : Nat.lor 0x40000040000000000000000000000000000000000000000000000000000000000000000000000 m' = m') (hq' : Nat.lor 0x800 q' = q') : Keeps m' q' u' (s.sbufFull x) := by
  refine Keeps.after ?_ hm' hq' h'
  clear hm' hq' h'
  unfold State.sbufFull
  with_reducible repeat' first
    | assumption | exact Keeps.refl _ | (apply Keeps.flag; rotate_left; decide) | (apply Keeps.bump; rotate_left; decide)
    | (apply State.modSeq_after; rotate_left; decide; decide) | (intro) | split | dsimp only

theorem State.tapActions_after {m' q' : Nat} {u' : State} {s : State} {x : Str} {a : Armed} (h' : Keeps m' q' u' s)
    (hm' : Nat.lor 0xe004000003000000000000000000000000000000000000000000000000000000000000000000000000 m' = m') (hq' : Nat.lor 0x800 q' = q') : Keeps m' q' u' (s.tapActions x a) := by
  refine Keeps.after ?_ hm' hq' h'
  clear hm' hq' h'
  unfold State.tapActions
  with_reducible repeat' first
    | assumption | exact Keeps.refl _ | (apply State.loadTaps_after; rotate_left; decide; decide)
    | (apply State.modRch_after; rotate_left; decide; decide) | (apply State.rchRefresh_after; rotate_left; decide; decide)
    | (apply State.saveTaps_after; rotate_left; decide; decide) | apply Keeps.when | apply Keeps.ite | apply Keeps.ite_fst
    | apply Keeps.ite_snd | apply Keeps.foldl | apply Keeps.foldl_snd | apply Keeps.foldl_fst | (intro) | split | dsimp only

theorem State.openGate_after {m' q' : Nat} {u' : State} {s : State} {x : Str} {a : Armed} {slot : Nat} (h' : Keeps m' q' u' s)
    (hm' : Nat.lor 0x18000000000000000000000000000000000000000000000000007808003000000000000000000000000000000000000000000000000000000000000000000000000 m' = m') (hq' : Nat.lor 0x20802 q' = q') : Keeps m' q' u' (s.openGate x a slot) := by
  refine Keeps.after ?_ hm' hq' h'
  clear hm' hq' h'
  unfold State.openGate
  with_reducible repeat' first
    | assumption | exact Keeps.refl _ | (apply Keeps.wr; rotate_left; decide) | (apply Keeps.bump; rotate_left; decide)
    | (apply State.modRch_after; rotate_left; decide; decide) | (apply State.modSeq_after; rotate_left; decide; decide)
    | (apply State.putBytes_after; rotate_left; decide; decide)
    | (apply State.rchRefresh_after; rotate_left; decide; decide)
    | (apply Keeps.wr; rotate_left; (simp only [creditReg]; repeat' split) <;> decide) | (intro) | split | dsimp only

theorem State.pdMode_after {m' q' : Nat} {u' : State} {s : State} {x : Str} {a : Armed} {v : Nat} (h' : Keeps m' q' u' s)
    (hm' : Nat.lor 0x0 m' = m') (hq' : Nat.lor 0x1 q' = q') : Keeps m' q' u' (s.pdMode x a v) := by
  refine Keeps.after ?_ hm' hq' h'
  clear hm' hq' h'
  unfold State.pdMode
  with_reducible repeat' first
    | assumption | exact Keeps.refl _ | (apply State.shadowWr_after; rotate_left; decide; decide) | apply Keeps.when
    | (intro) | split | dsimp only

theorem State.readGateOpen_after {m' q' : Nat} {u' : State} {s : State} {x : Str} (h' : Keeps m' q' u' s)
    (hm' : Nat.lor 0x20000000000000000000040000000000000000000000000000000000000000000000000003820000000000000000000000000000000000000000000000fffffffffffffffc000000000000000000000000000000000000000000000000000000000000000000 m' = m') (hq' : Nat.lor 0x20803 q' = q') : Keeps m' q' u' (s.readGateOpen x) := by
  refine Keeps.after ?_ hm' hq' h'
  clear hm' hq' h'
  unfold State.readGateOpen
  with_reducible repeat' first
    | assumption | exact Keeps.refl _ | (apply Keeps.flag; rotate_left; decide) | (apply Keeps.bump; rotate_left; decide)
    | (apply State.adaptOpen_after; rotate_left; decide; decide)
    | (apply State.captureMode_after; rotate_left; decide; decide) | (apply State.modSeq_after; rotate_left; decide; decide)
    | (apply State.nameSet_after; rotate_left; decide; decide) | (apply State.openGate_after; rotate_left; decide; decide)
    | (apply State.pdMode_after; rotate_left; decide; decide) | (apply State.rchBoundary_after; rotate_left; decide; decide)
    | (apply State.refreshRate_after; rotate_left; decide; decide)
    | (apply State.rsqNotReady_after; rotate_left; decide; decide)
    | (apply State.sbufFull_after; rotate_left; decide; decide)
    | (apply State.tapActions_after; rotate_left; decide; decide) | apply Keeps.when | apply Keeps.ite | apply Keeps.ite_fst
    | apply Keeps.ite_snd | (apply Keeps.of_eq_fst; assumption) | (apply Keeps.of_eq_snd; assumption) | (intro) | split
    | dsimp only

theorem State.syncLatch_after {m' q' : Nat} {u' : State} {s : State} {x : Str} {bits : List (Int × Nat)} (h' : Keeps m' q' u' s)
    (hm' : Nat.lor 0x1900000000000000000000000000000000000000000000000000000000000000000000000000000000000000000000000 m' = m') (hq' : Nat.lor 0x800 q' = q') : Keeps m' q' u' (s.syncLatch x bits) := by
  refine Keeps.after ?_ hm' hq' h'
  clear hm' hq' h'
  unfold State.syncLatch
  with_reducible repeat' first
    | assumption | exact Keeps.refl _ | (apply Keeps.wr; rotate_left; decide) | (apply Keeps.flag; rotate_left; decide)
    | (apply State.modSlot_after; rotate_left; decide; decide) | apply Keeps.when | apply Keeps.ite | apply Keeps.ite_fst
    | apply Keeps.ite_snd | (apply Keeps.of_eq_fst; assumption) | (apply Keeps.of_eq_snd; assumption) | (intro) | split
    | dsimp only

theorem State.syncClose_after {m' q' : Nat} {u' : State} {s : State} {x : Str} (h' : Keeps m' q' u' s)
    (hm' : Nat.lor 0x30c0000000000000000000000000000000000000000000000000000000000000000000000000000000000000000000000 m' = m') (hq' : Nat.lor 0x800 q' = q') : Keeps m' q' u' (s.syncClose x) := by
  refine Keeps.after ?_ hm' hq' h'
  clear hm' hq' h'
  unfold State.syncClose
  with_reducible repeat' first
    | assumption | exact Keeps.refl _ | (apply Keeps.wr; rotate_left; decide) | (apply Keeps.flag; rotate_left; decide)
    | (apply Keeps.bump; rotate_left; decide) | (apply State.modSlot_after; rotate_left; decide; decide) | apply Keeps.ite
    | apply Keeps.ite_fst | apply Keeps.ite_snd | (apply Keeps.of_eq_fst; assumption) | (apply Keeps.of_eq_snd; assumption)
    | (intro) | split | dsimp only

theorem State.readerLevels_after {m' q' : Nat} {u' : State} {s : State} {x : Str} {snap : List Nat} {adc : List (List Int)} (h' : Keeps m' q' u' s)
    (hm' : Nat.lor 0x3f00000020000000000000000000000000000000000000000000000000000000000000000000000 m' = m') (hq' : Nat.lor 0x800 q' = q') : Keeps m' q' u' (s.readerLevels x snap adc) := by
  refine Keeps.after ?_ hm' hq' h'
  clear hm' hq' h'
  unfold State.readerLevels
  with_reducible repeat' first
    | assumption | exact Keeps.refl _ | (apply Keeps.wr; rotate_left; decide) | (apply Keeps.flagBit; rotate_left; decide)
    | (apply State.modRch_after; rotate_left; decide; decide)
    | (apply Keeps.wr; rotate_left; (simp only [reader3]; repeat' split) <;> decide) | apply Keeps.when | apply Keeps.foldl
    | apply Keeps.foldl_snd | apply Keeps.foldl_fst | (intro) | split | dsimp only

theorem State.captureEnd_after {m' q' : Nat} {u' : State} {s : State} {x : Str} {signal : List (List Int)} (h' : Keeps m' q' u' s)
    (hm' : Nat.lor 0x7f02003028000000000000000000000000000000000000000000000000000000000000000000000 m' = m') (hq' : Nat.lor 0x20802 q' = q') : Keeps m' q' u' (s.captureEnd x signal) := by
  refine Keeps.after ?_ hm' hq' h'
  clear hm' hq' h'
  unfold State.captureEnd
  with_reducible repeat' first
    | assumption | exact Keeps.refl _ | (apply Keeps.wr; rotate_left; decide)
    | (apply State.diverge_after; rotate_left; decide; decide) | (apply State.modRch_after; rotate_left; decide; decide)
    | (apply State.modSeq_after; rotate_left; decide; decide) | (apply State.modSlot_after; rotate_left; decide; decide)
    | (apply State.putSamples_after; rotate_left; decide; decide)
    | (apply State.rchRefresh_after; rotate_left; decide; decide)
    | (apply State.readerLevels_after; rotate_left; decide; decide) | apply Keeps.when | apply Keeps.ite
    | apply Keeps.ite_fst | apply Keeps.ite_snd | apply Keeps.foldl | apply Keeps.foldl_snd | apply Keeps.foldl_fst
    | (apply Keeps.of_eq_fst; assumption) | (apply Keeps.of_eq_snd; assumption) | (intro) | split | dsimp only

theorem State.adaptVerdict_after {m' q' : Nat} {u' : State} {s : State} {x : Str} {i : Nat} {ok : Bool} (h' : Keeps m' q' u' s)
    (hm' : Nat.lor 0x0 m' = m') (hq' : Nat.lor 0x800 q' = q') : Keeps m' q' u' (s.adaptVerdict x i ok) := by
  refine Keeps.after ?_ hm' hq' h'
  clear hm' hq' h'
  unfold State.adaptVerdict
  with_reducible repeat' first
    | assumption | exact Keeps.refl _ | (apply State.modRch_after; rotate_left; decide; decide) | apply Keeps.ite
    | apply Keeps.ite_fst | apply Keeps.ite_snd | (intro) | split | dsimp only

theorem State.tapsPosted_after {m' q' : Nat} {u' : State} {s : State} {x : Str} {save : Bool} (h' : Keeps m' q' u' s)
    (hm' : Nat.lor 0x0 m' = m') (hq' : Nat.lor 0x800 q' = q') : Keeps m' q' u' (s.tapsPosted x save) := by
  refine Keeps.after ?_ hm' hq' h'
  clear hm' hq' h'
  unfold State.tapsPosted
  with_reducible repeat' first
    | assumption | exact Keeps.refl _ | (apply State.modRch_after; rotate_left; decide; decide) | apply Keeps.ite
    | apply Keeps.ite_fst | apply Keeps.ite_snd | (intro) | split | dsimp only

theorem State.calCapture_after {m' q' : Nat} {u' : State} {s : State} {x : Str} {samples : List (List Int)} (h' : Keeps m' q' u' s)
    (hm' : Nat.lor 0x400000000000000000000000000000000000000000000000000000000000000000000000 m' = m') (hq' : Nat.lor 0x20002 q' = q') : Keeps m' q' u' (s.calCapture x samples) := by
  refine Keeps.after ?_ hm' hq' h'
  clear hm' hq' h'
  unfold State.calCapture
  with_reducible repeat' first
    | assumption | exact Keeps.refl _ | (apply Keeps.unflag; rotate_left; decide)
    | (apply State.putSamples_after; rotate_left; decide; decide) | apply Keeps.when | apply Keeps.ite | apply Keeps.ite_fst
    | apply Keeps.ite_snd | (intro) | split | dsimp only

/-! ### Requests -/

theorem State.sqRefresh_after {m' q' : Nat} {u' : State} {s : State} {x : Str} {q : SeqId} (h' : Keeps m' q' u' s)
    (hm' : Nat.lor 0x78001800000000000000000000000000000000000000000000000000000000000000000000000000000000000000000000000000000000000000000000000000000000000000000000000000000000 m' = m') (hq' : Nat.lor 0x0 q' = q') : Keeps m' q' u' (s.sqRefresh x q) := by
  refine Keeps.after ?_ hm' hq' h'
  clear hm' hq' h'
  unfold State.sqRefresh
  with_reducible repeat' first
    | assumption | exact Keeps.refl _ | (apply Keeps.wr; rotate_left; decide) | (apply Keeps.flag; rotate_left; decide)
    | (apply Keeps.unflag; rotate_left; decide) | (apply Keeps.of_eq_fst; assumption) | (apply Keeps.of_eq_snd; assumption)
    | (intro) | split | dsimp only

theorem State.postTarget_after {m' q' : Nat} {u' : State} {s : State} {x : Str} {target offs : Option Nat} (h' : Keeps m' q' u' s)
    (hm' : Nat.lor 0x10000000000000000000000000000000000000 m' = m') (hq' : Nat.lor 0x1 q' = q') : Keeps m' q' u' (s.postTarget x target offs) := by
  refine Keeps.after ?_ hm' hq' h'
  clear hm' hq' h'
  unfold State.postTarget
  with_reducible repeat' first
    | assumption | exact Keeps.refl _ | (apply Keeps.flag; rotate_left; decide)
    | (apply State.shadowWr_after; rotate_left; decide; decide) | (apply Keeps.of_eq_fst; assumption)
    | (apply Keeps.of_eq_snd; assumption) | (intro) | split | dsimp only

theorem State.steer_after {m' q' : Nat} {u' : State} {s : State} {x : Str} (h' : Keeps m' q' u' s)
    (hm' : Nat.lor 0x10000000000000000000000000000000000000 m' = m') (hq' : Nat.lor 0x1 q' = q') : Keeps m' q' u' (s.steer x) := by
  refine Keeps.after ?_ hm' hq' h'
  clear hm' hq' h'
  unfold State.steer
  with_reducible repeat' first
    | assumption | exact Keeps.refl _ | (apply State.postTarget_after; rotate_left; decide; decide) | apply Keeps.ite
    | apply Keeps.ite_fst | apply Keeps.ite_snd | (apply Keeps.of_eq_fst; assumption) | (apply Keeps.of_eq_snd; assumption)
    | (intro) | split | dsimp only

theorem State.feed_after {m' q' : Nat} {u' : State} {s : State} {x : Str} {q : SeqId} (h' : Keeps m' q' u' s)
    (hm' : Nat.lor 0x78001800000000000000000000000000000000000000000000000000000000000000000000000000000000000000000000000000000000000000000010000000000000000000000000000000000000 m' = m') (hq' : Nat.lor 0x801 q' = q') : Keeps m' q' u' (s.feed x q) := by
  refine Keeps.after ?_ hm' hq' h'
  clear hm' hq' h'
  unfold State.feed
  with_reducible repeat' first
    | assumption | exact Keeps.refl _ | (apply State.modSeq_after; rotate_left; decide; decide)
    | (apply State.sqRefresh_after; rotate_left; decide; decide) | (apply State.steer_after; rotate_left; decide; decide)
    | (intro) | split | dsimp only

theorem State.postRequest_after {m' q' : Nat} {u' : State} {s : State} {x : Str} {q : SeqId} {r : Request} (h' : Keeps m' q' u' s)
    (hm' : Nat.lor 0x78001800000000000000000000008000000000000000000000000000000000000000000000000000000000000000000000000000000000000000000010000000000000000000000000000000000000 m' = m') (hq' : Nat.lor 0x801 q' = q') : Keeps m' q' u' (s.postRequest x q r) := by
  refine Keeps.after ?_ hm' hq' h'
  clear hm' hq' h'
  unfold State.postRequest
  with_reducible repeat' first
    | assumption | exact Keeps.refl _ | (apply Keeps.wr; rotate_left; decide)
    | (apply State.feed_after; rotate_left; decide; decide) | (apply State.modSeq_after; rotate_left; decide; decide)
    | (apply State.modWrp_after; rotate_left; decide; decide) | apply Keeps.when | (intro) | split | dsimp only

theorem State.withdrawWrites_after {m' q' : Nat} {u' : State} {s : State} {x : Str} {p : Request → Bool} (h' : Keeps m' q' u' s)
    (hm' : Nat.lor 0x178001800000000000000000000008000000000000000000000000000000000000000000000000000000000000000000000000000000000000000000010000000000000000000000000000000000000 m' = m') (hq' : Nat.lor 0x6801 q' = q') : Keeps m' q' u' (s.withdrawWrites x p) := by
  refine Keeps.after ?_ hm' hq' h'
  clear hm' hq' h'
  unfold State.withdrawWrites
  with_reducible repeat' first
    | assumption | exact Keeps.refl _ | (apply State.feed_after; rotate_left; decide; decide)
    | (apply State.giveCells_after; rotate_left; decide; decide) | (apply State.modSeq_after; rotate_left; decide; decide)
    | (apply State.modWrp_after; rotate_left; decide; decide) | (apply State.seqIrq_after; rotate_left; decide; decide)
    | (apply State.withdrawPlaces_after; rotate_left; decide; decide) | apply Keeps.ite | apply Keeps.ite_fst
    | apply Keeps.ite_snd | apply Keeps.foldl | apply Keeps.foldl_snd | apply Keeps.foldl_fst | (intro) | split | dsimp only

theorem State.withdrawHead_after {m' q' : Nat} {u' : State} {s : State} {x : Str} {h : Nat} (h' : Keeps m' q' u' s)
    (hm' : Nat.lor 0x178001800000000000000000000008000000000000000000000000000000000000000000000000000000000000000000000000000000000000000000010000000000000000000000000000000000000 m' = m') (hq' : Nat.lor 0x6801 q' = q') : Keeps m' q' u' (s.withdrawHead x h) := by
  refine Keeps.after ?_ hm' hq' h'
  clear hm' hq' h'
  unfold State.withdrawHead
  with_reducible repeat' first
    | assumption | exact Keeps.refl _ | (apply State.withdrawWrites_after; rotate_left; decide; decide) | (intro) | split
    | dsimp only

theorem State.rewriteSince_after {m' q' : Nat} {u' : State} {s : State} {x : Str} {head slot : Nat} (h' : Keeps m' q' u' s)
    (hm' : Nat.lor 0x78001800000000000000000000008000000000000000000000000000000000000000000000000000000000000000000000000000000000000000000010000000000000000000000000000000000000 m' = m') (hq' : Nat.lor 0x2801 q' = q') : Keeps m' q' u' (s.rewriteSince x head slot) := by
  refine Keeps.after ?_ hm' hq' h'
  clear hm' hq' h'
  unfold State.rewriteSince
  with_reducible repeat' first
    | assumption | exact Keeps.refl _ | (apply State.newRequestId_after; rotate_left; decide; decide)
    | (apply State.postRequest_after; rotate_left; decide; decide) | apply Keeps.ite | apply Keeps.ite_fst
    | apply Keeps.ite_snd | apply Keeps.foldl | apply Keeps.foldl_snd | apply Keeps.foldl_fst
    | (apply Keeps.of_eq_fst; assumption) | (apply Keeps.of_eq_snd; assumption) | (intro) | split | dsimp only

theorem State.assistAbort_after {m' q' : Nat} {u' : State} {s : State} {x : Str} {wedge slot head cause : Nat} (h' : Keeps m' q' u' s)
    (hm' : Nat.lor 0x178001800000000000000000000008000000000000000000000000000000000000000000000000000000000000000000000001c00440000000000000010000000000000000000000000000000000000 m' = m') (hq' : Nat.lor 0x68c1 q' = q') : Keeps m' q' u' (s.assistAbort x wedge slot head cause) := by
  refine Keeps.after ?_ hm' hq' h'
  clear hm' hq' h'
  unfold State.assistAbort
  with_reducible repeat' first
    | assumption | exact Keeps.refl _ | (apply Keeps.wr; rotate_left; decide) | (apply Keeps.flag; rotate_left; decide)
    | (apply State.logEvent_after; rotate_left; decide; decide)
    | (apply State.rewriteSince_after; rotate_left; decide; decide)
    | (apply State.withdrawHead_after; rotate_left; decide; decide) | (intro) | split | dsimp only

/-! ### Chest -/

theorem State.countRow_after {m' q' : Nat} {u' : State} {s : State} {g : Nat} (h' : Keeps m' q' u' s)
    (hm' : Nat.lor 0x7e18000000000000000000000000000000000000000000000000000000000000000000000000000000000000000000000000000000000000000000000000000000000000 m' = m') (hq' : Nat.lor 0x4000 q' = q') : Keeps m' q' u' (s.countRow g) := by
  refine Keeps.after ?_ hm' hq' h'
  clear hm' hq' h'
  unfold State.countRow
  with_reducible repeat' first
    | assumption | exact Keeps.refl _ | (apply Keeps.wr; rotate_left; decide) | (apply Keeps.flag; rotate_left; decide)
    | (apply State.modBridge_after; rotate_left; decide; decide) | apply Keeps.when | (intro) | split | dsimp only

theorem State.fillBuckets_after {m' q' : Nat} {u' : State} {s : State} {us : Nat} (h' : Keeps m' q' u' s)
    (hm' : Nat.lor 0x20000000000000000000000000000000000000000000000000000000000000000000000000000000000000000000000000000000000000000000000000000000000000 m' = m') (hq' : Nat.lor 0x4000 q' = q') : Keeps m' q' u' (s.fillBuckets us) := by
  refine Keeps.after ?_ hm' hq' h'
  clear hm' hq' h'
  unfold State.fillBuckets
  with_reducible repeat' first
    | assumption | exact Keeps.refl _ | (apply Keeps.wr; rotate_left; decide)
    | (apply State.modBridge_after; rotate_left; decide; decide) | (intro) | split | dsimp only

theorem State.makeRow_after {m' q' : Nat} {u' : State} {s : State} {w : RowWrite} (h' : Keeps m' q' u' s)
    (hm' : Nat.lor 0x7f38000000000000000000000000000000000000000000000000000000000000000000000000000000000000000000000000000000000000000000000000000000000000 m' = m') (hq' : Nat.lor 0x4000 q' = q') : Keeps m' q' u' (s.makeRow w) := by
  refine Keeps.after ?_ hm' hq' h'
  clear hm' hq' h'
  unfold State.makeRow
  with_reducible repeat' first
    | assumption | exact Keeps.refl _ | (apply Keeps.wr; rotate_left; decide)
    | (apply State.countRow_after; rotate_left; decide; decide) | (apply State.modBridge_after; rotate_left; decide; decide)
    | apply Keeps.when | (intro) | split | dsimp only

theorem State.governRows_after {m' q' : Nat} {u' : State} {s : State} {fuel : Nat} (h' : Keeps m' q' u' s)
    (hm' : Nat.lor 0x7f39000000000000000000000000000000000000000000000000000000000000000000000000000000000000000000000000000000000000000000000000000000000000 m' = m') (hq' : Nat.lor 0x4000 q' = q') : Keeps m' q' u' (s.governRows fuel) := by
  refine Keeps.after ?_ hm' hq' h'
  clear hm' hq' h'
  suffices H : ∀ u, Keeps 0x7f39000000000000000000000000000000000000000000000000000000000000000000000000000000000000000000000000000000000000000000000000000000000000 0x4000 u s → Keeps 0x7f39000000000000000000000000000000000000000000000000000000000000000000000000000000000000000000000000000000000000000000000000000000000000 0x4000 u (s.governRows fuel) from H _ (Keeps.refl _)
  induction fuel generalizing s with
  | zero =>
    intro u hu
    simp only [State.governRows]
    with_reducible repeat' first
      | assumption | exact Keeps.refl _ | (apply Keeps.flag; rotate_left; decide) | (apply Keeps.unflag; rotate_left; decide)
      | (apply State.makeRow_after; rotate_left; decide; decide) | (apply State.modBridge_after; rotate_left; decide; decide)
      | apply Keeps.ite | apply Keeps.ite_fst | apply Keeps.ite_snd | (apply Keeps.of_eq_fst; assumption)
      | (apply Keeps.of_eq_snd; assumption) | (intro) | split | dsimp only
  | succ k ih =>
    intro u hu
    simp only [State.governRows]
    with_reducible repeat' first
      | assumption | exact Keeps.refl _ | (apply Keeps.flag; rotate_left; decide) | (apply Keeps.unflag; rotate_left; decide)
      | (apply State.makeRow_after; rotate_left; decide; decide) | (apply State.modBridge_after; rotate_left; decide; decide)
      | apply ih | apply Keeps.ite | apply Keeps.ite_fst | apply Keeps.ite_snd | (apply Keeps.of_eq_fst; assumption)
      | (apply Keeps.of_eq_snd; assumption) | (intro) | split | dsimp only

theorem State.chestRow_after {m' q' : Nat} {u' : State} {s : State} {cls row : Nat} {retires : Bool } (h' : Keeps m' q' u' s)
    (hm' : Nat.lor 0x7f39000000000000000000000000000000000000000000000000000000000000000000000000000000000000000000000000000000000000000000000000000000000000 m' = m') (hq' : Nat.lor 0x4000 q' = q') : Keeps m' q' u' (s.chestRow cls row retires) := by
  refine Keeps.after ?_ hm' hq' h'
  clear hm' hq' h'
  unfold State.chestRow
  with_reducible repeat' first
    | assumption | exact Keeps.refl _ | (apply State.governRows_after; rotate_left; decide; decide)
    | (apply State.makeRow_after; rotate_left; decide; decide) | (apply State.modBridge_after; rotate_left; decide; decide)
    | apply Keeps.ite | apply Keeps.ite_fst | apply Keeps.ite_snd | (intro) | split | dsimp only

theorem State.chestGrant_after {m' q' : Nat} {u' : State} {s : State} {us : Nat} (h' : Keeps m' q' u' s)
    (hm' : Nat.lor 0x7f39000000000000000000000000000000000000000000000000000000000000000000000000000000000000000000000000000000000000000000000000000000000000 m' = m') (hq' : Nat.lor 0x4000 q' = q') : Keeps m' q' u' (s.chestGrant us) := by
  refine Keeps.after ?_ hm' hq' h'
  clear hm' hq' h'
  unfold State.chestGrant
  with_reducible repeat' first
    | assumption | exact Keeps.refl _ | (apply State.fillBuckets_after; rotate_left; decide; decide)
    | (apply State.governRows_after; rotate_left; decide; decide) | (intro) | split | dsimp only

theorem State.journalNow_after {m' q' : Nat} {u' : State} {s : State} {row : Nat} (h' : Keeps m' q' u' s)
    (hm' : Nat.lor 0x7f39000000000000000000000000000000000000000000000000000000000000000000000000000000000000000000000000000000000000000000000000000000000000 m' = m') (hq' : Nat.lor 0x4000 q' = q') : Keeps m' q' u' (s.journalNow row) := by
  refine Keeps.after ?_ hm' hq' h'
  clear hm' hq' h'
  unfold State.journalNow
  with_reducible repeat' first
    | assumption | exact Keeps.refl _ | (apply Keeps.wr; rotate_left; decide)
    | (apply State.chestRow_after; rotate_left; decide; decide) | (apply State.modBridge_after; rotate_left; decide; decide)
    | (intro) | split | dsimp only

theorem State.journal_after {m' q' : Nat} {u' : State} {s : State} {row : Nat} (h' : Keeps m' q' u' s)
    (hm' : Nat.lor 0x7f3d000000000000000000000000000000000000000000000000000000000000000000000000000000000000000000000000000000000000000000000000000000000000 m' = m') (hq' : Nat.lor 0x4000 q' = q') : Keeps m' q' u' (s.journal row) := by
  refine Keeps.after ?_ hm' hq' h'
  clear hm' hq' h'
  unfold State.journal
  with_reducible repeat' first
    | assumption | exact Keeps.refl _ | (apply Keeps.flag; rotate_left; decide)
    | (apply State.journalNow_after; rotate_left; decide; decide)
    | (apply State.modBridge_after; rotate_left; decide; decide) | apply Keeps.ite | apply Keeps.ite_fst
    | apply Keeps.ite_snd | (intro) | split | dsimp only

theorem State.journalResume_after {m' q' : Nat} {u' : State} {s : State} {fuel : Nat} (h' : Keeps m' q' u' s)
    (hm' : Nat.lor 0x7f39000000000000000000000000000000000000000000000000000000000000000000000000000000000000000000000000000000000000000000000000000000000000 m' = m') (hq' : Nat.lor 0x4000 q' = q') : Keeps m' q' u' (s.journalResume fuel) := by
  refine Keeps.after ?_ hm' hq' h'
  clear hm' hq' h'
  suffices H : ∀ u, Keeps 0x7f39000000000000000000000000000000000000000000000000000000000000000000000000000000000000000000000000000000000000000000000000000000000000 0x4000 u s → Keeps 0x7f39000000000000000000000000000000000000000000000000000000000000000000000000000000000000000000000000000000000000000000000000000000000000 0x4000 u (s.journalResume fuel) from H _ (Keeps.refl _)
  induction fuel generalizing s with
  | zero =>
    intro u hu
    simp only [State.journalResume]
    with_reducible repeat' first
      | assumption | exact Keeps.refl _ | (apply State.journalNow_after; rotate_left; decide; decide)
      | (apply State.modBridge_after; rotate_left; decide; decide) | apply Keeps.ite | apply Keeps.ite_fst
      | apply Keeps.ite_snd | (apply Keeps.of_eq_fst; assumption) | (apply Keeps.of_eq_snd; assumption) | (intro) | split
      | dsimp only
  | succ k ih =>
    intro u hu
    simp only [State.journalResume]
    with_reducible repeat' first
      | assumption | exact Keeps.refl _ | (apply State.journalNow_after; rotate_left; decide; decide)
      | (apply State.modBridge_after; rotate_left; decide; decide) | apply ih | apply Keeps.ite | apply Keeps.ite_fst
      | apply Keeps.ite_snd | (apply Keeps.of_eq_fst; assumption) | (apply Keeps.of_eq_snd; assumption) | (intro) | split
      | dsimp only

theorem State.gapMove_after {m' q' : Nat} {u' : State} {s : State} {g : Nat} (h' : Keeps m' q' u' s)
    (hm' : Nat.lor 0x0 m' = m') (hq' : Nat.lor 0x4000 q' = q') : Keeps m' q' u' (s.gapMove g) := by
  refine Keeps.after ?_ hm' hq' h'
  clear hm' hq' h'
  unfold State.gapMove
  with_reducible repeat' first
    | assumption | exact Keeps.refl _ | (apply State.modBridge_after; rotate_left; decide; decide) | apply Keeps.ite
    | apply Keeps.ite_fst | apply Keeps.ite_snd | (intro) | split | dsimp only

/-! ### Commands -/

theorem State.modCmd_after {m' q' : Nat} {u' : State} {s : State} {f : Nat} {g : Cmd → Cmd} (h' : Keeps m' q' u' s)
    (hm' : Nat.lor 0x0 m' = m') (hq' : Nat.lor 0x2000 q' = q') : Keeps m' q' u' (s.modCmd f g) := by
  refine Keeps.after ?_ hm' hq' h'
  clear hm' hq' h'
  unfold State.modCmd
  with_reducible repeat' first
    | assumption | exact Keeps.refl _ | (apply State.modHost_after; rotate_left; decide; decide) | apply Keeps.ite
    | apply Keeps.ite_fst | apply Keeps.ite_snd | (intro) | split | dsimp only

theorem State.finish_after {m' q' : Nat} {u' : State} {s : State} {f : Nat} {st : NvStatus} {dw0 : Nat } {dw1 : Nat } (h' : Keeps m' q' u' s)
    (hm' : Nat.lor 0x0 m' = m') (hq' : Nat.lor 0x2000 q' = q') : Keeps m' q' u' (s.finish f st dw0 dw1) := by
  refine Keeps.after ?_ hm' hq' h'
  clear hm' hq' h'
  unfold State.finish
  with_reducible repeat' first
    | assumption | exact Keeps.refl _ | (apply State.modCmd_after; rotate_left; decide; decide) | (intro) | split
    | dsimp only

theorem State.modNs_after {m' q' : Nat} {u' : State} {s : State} {nsid : Nat} {f : Namespace → Namespace} (h' : Keeps m' q' u' s)
    (hm' : Nat.lor 0x0 m' = m') (hq' : Nat.lor 0x2000 q' = q') : Keeps m' q' u' (s.modNs nsid f) := by
  refine Keeps.after ?_ hm' hq' h'
  clear hm' hq' h'
  unfold State.modNs
  with_reducible repeat' first
    | assumption | exact Keeps.refl _ | (apply State.modHost_after; rotate_left; decide; decide) | apply Keeps.ite
    | apply Keeps.ite_fst | apply Keeps.ite_snd | (intro) | split | dsimp only

theorem State.logUnrecovered_after {m' q' : Nat} {u' : State} {s : State} {c : Cmd} {lba vendor : Nat} (h' : Keeps m' q' u' s)
    (hm' : Nat.lor 0x0 m' = m') (hq' : Nat.lor 0x2000 q' = q') : Keeps m' q' u' (s.logUnrecovered c lba vendor) := by
  refine Keeps.after ?_ hm' hq' h'
  clear hm' hq' h'
  unfold State.logUnrecovered
  with_reducible repeat' first
    | assumption | exact Keeps.refl _ | (apply State.modHost_after; rotate_left; decide; decide) | apply Keeps.ite
    | apply Keeps.ite_fst | apply Keeps.ite_snd | (apply Keeps.of_eq_fst; assumption) | (apply Keeps.of_eq_snd; assumption)
    | (intro) | split | dsimp only

theorem State.failSector_after {m' q' : Nat} {u' : State} {s : State} {f lba : Nat} {st : NvStatus} {vendor : Nat} (h' : Keeps m' q' u' s)
    (hm' : Nat.lor 0x0 m' = m') (hq' : Nat.lor 0x2000 q' = q') : Keeps m' q' u' (s.failSector f lba st vendor) := by
  refine Keeps.after ?_ hm' hq' h'
  clear hm' hq' h'
  unfold State.failSector
  with_reducible repeat' first
    | assumption | exact Keeps.refl _ | (apply State.logUnrecovered_after; rotate_left; decide; decide)
    | (apply State.modCmd_after; rotate_left; decide; decide) | apply Keeps.ite | apply Keeps.ite_fst | apply Keeps.ite_snd
    | apply Keeps.foldl | apply Keeps.foldl_snd | apply Keeps.foldl_fst | (apply Keeps.of_eq_fst; assumption)
    | (apply Keeps.of_eq_snd; assumption) | (intro) | split | dsimp only

theorem State.givePage_after {m' q' : Nat} {u' : State} {s : State} {page : Option Str} (h' : Keeps m' q' u' s)
    (hm' : Nat.lor 0x10000000000000000000000000000000000000000000000000000000000000000000000000000000000000000000000000000000000000000000000000000000000 m' = m') (hq' : Nat.lor 0x0 q' = q') : Keeps m' q' u' (s.givePage page) := by
  refine Keeps.after ?_ hm' hq' h'
  clear hm' hq' h'
  unfold State.givePage
  with_reducible repeat' first
    | assumption | exact Keeps.refl _ | (apply Keeps.wr; rotate_left; decide) | (apply Keeps.of_eq_fst; assumption)
    | (apply Keeps.of_eq_snd; assumption) | (intro) | split | dsimp only

theorem State.receiveBlock_after {m' q' : Nat} {u' : State} {s : State} {f lba data : Nat} {page : Option Str} (h' : Keeps m' q' u' s)
    (hm' : Nat.lor 0x10000000000000000000000000000000000000000000000000000000000000000000000000000000000000000000000000000000000000000000000000000000000 m' = m') (hq' : Nat.lor 0x2000 q' = q') : Keeps m' q' u' (s.receiveBlock f lba data page) := by
  refine Keeps.after ?_ hm' hq' h'
  clear hm' hq' h'
  unfold State.receiveBlock
  with_reducible repeat' first
    | assumption | exact Keeps.refl _ | (apply State.givePage_after; rotate_left; decide; decide)
    | (apply State.modCmd_after; rotate_left; decide; decide) | apply Keeps.ite | apply Keeps.ite_fst | apply Keeps.ite_snd
    | (apply Keeps.of_eq_fst; assumption) | (apply Keeps.of_eq_snd; assumption) | (intro) | split | dsimp only

theorem State.setBandInfo_after {m' q' : Nat} {u' : State} {s : State} {b : BandInfo} (h' : Keeps m' q' u' s)
    (hm' : Nat.lor 0x0 m' = m') (hq' : Nat.lor 0x2000 q' = q') : Keeps m' q' u' (s.setBandInfo b) := by
  refine Keeps.after ?_ hm' hq' h'
  clear hm' hq' h'
  unfold State.setBandInfo
  with_reducible repeat' first
    | assumption | exact Keeps.refl _ | (apply State.modHost_after; rotate_left; decide; decide) | (intro) | split
    | dsimp only

theorem State.requestSkips_after {m' q' : Nat} {u' : State} {s : State} {x : Str} {band : Nat} {ps : List (Nat × Nat)} (h' : Keeps m' q' u' s)
    (hm' : Nat.lor 0x0 m' = m') (hq' : Nat.lor 0x2000 q' = q') : Keeps m' q' u' (s.requestSkips x band ps) := by
  refine Keeps.after ?_ hm' hq' h'
  clear hm' hq' h'
  unfold State.requestSkips
  with_reducible repeat' first
    | assumption | exact Keeps.refl _ | (apply State.setBandInfo_after; rotate_left; decide; decide)
    | (apply Keeps.of_eq_fst; assumption) | (apply Keeps.of_eq_snd; assumption) | (intro) | split | dsimp only

theorem State.rewriteBand_after {m' q' : Nat} {u' : State} {s : State} {x : Str} {band : Nat} {mayLeave : Bool} (h' : Keeps m' q' u' s)
    (hm' : Nat.lor 0x0 m' = m') (hq' : Nat.lor 0x2800 q' = q') : Keeps m' q' u' (s.rewriteBand x band mayLeave) := by
  refine Keeps.after ?_ hm' hq' h'
  clear hm' hq' h'
  unfold State.rewriteBand
  with_reducible repeat' first
    | assumption | exact Keeps.refl _ | (apply State.modStr_after; rotate_left; decide; decide)
    | (apply State.requestSkips_after; rotate_left; decide; decide)
    | (apply State.setBandInfo_after; rotate_left; decide; decide) | (apply Keeps.of_eq_fst; assumption)
    | (apply Keeps.of_eq_snd; assumption) | (intro) | split | dsimp only

theorem State.postPlaces_after {m' q' : Nat} {u' : State} {s : State} {x : Str} {q : SeqId} {source : ReqSource} {tag : Nat} {zone : Option Nat} {stream slipOk : Bool} {offs : Int} {band : Nat} {ps : List (Nat × Nat × Option Codeword)} (h' : Keeps m' q' u' s)
    (hm' : Nat.lor 0x78001800000000000000000000008000000000000000000000000000000000000000000000000000000000000000000000000000000000000000000010000000000000000000000000000000000000 m' = m') (hq' : Nat.lor 0x2801 q' = q') : Keeps m' q' u' (s.postPlaces x q source tag zone stream slipOk offs band ps) := by
  refine Keeps.after ?_ hm' hq' h'
  clear hm' hq' h'
  unfold State.postPlaces
  with_reducible repeat' first
    | assumption | exact Keeps.refl _ | (apply State.newRequestId_after; rotate_left; decide; decide)
    | (apply State.postRequest_after; rotate_left; decide; decide) | apply Keeps.ite | apply Keeps.ite_fst
    | apply Keeps.ite_snd | apply Keeps.foldl | apply Keeps.foldl_snd | apply Keeps.foldl_fst
    | (apply Keeps.of_eq_fst; assumption) | (apply Keeps.of_eq_snd; assumption) | (intro) | split | dsimp only

theorem State.setLost_after {m' q' : Nat} {u' : State} {s : State} {l : List (Nat × Nat × Nat)} (h' : Keeps m' q' u' s)
    (hm' : Nat.lor 0x400000000000000000000000000000000000000000000000000000000000000000000000000000000000000000000000000000000000000000000000000000000000000000000000000000000000000000000000000 m' = m') (hq' : Nat.lor 0x2000 q' = q') : Keeps m' q' u' (s.setLost l) := by
  refine Keeps.after ?_ hm' hq' h'
  clear hm' hq' h'
  unfold State.setLost
  with_reducible repeat' first
    | assumption | exact Keeps.refl _ | (apply Keeps.wr; rotate_left; decide)
    | (apply State.modHost_after; rotate_left; decide; decide) | (intro) | split | dsimp only

theorem State.unmark_after {m' q' : Nat} {u' : State} {s : State} {nsid first n : Nat} (h' : Keeps m' q' u' s)
    (hm' : Nat.lor 0x400000000000000000000000000000000000000000000000000000000000000000000000000000000000000000000000000000000000000000000000000000000000000000000000000000000000000000000000000 m' = m') (hq' : Nat.lor 0x2000 q' = q') : Keeps m' q' u' (s.unmark nsid first n) := by
  refine Keeps.after ?_ hm' hq' h'
  clear hm' hq' h'
  unfold State.unmark
  with_reducible repeat' first
    | assumption | exact Keeps.refl _ | (apply State.setLost_after; rotate_left; decide; decide) | apply Keeps.ite
    | apply Keeps.ite_fst | apply Keeps.ite_snd | (intro) | split | dsimp only

theorem State.markLost_after {m' q' : Nat} {u' : State} {s : State} {nsid lba : Nat} (h' : Keeps m' q' u' s)
    (hm' : Nat.lor 0xc00000000000000000000000000000000007f3d000000000000000000000000000000000000000000000000000000000000000000000000000000000000000000000000000000000000000000000000000000000000 m' = m') (hq' : Nat.lor 0x60c0 q' = q') : Keeps m' q' u' (s.markLost nsid lba) := by
  refine Keeps.after ?_ hm' hq' h'
  clear hm' hq' h'
  unfold State.markLost
  with_reducible repeat' first
    | assumption | exact Keeps.refl _ | (apply Keeps.flag; rotate_left; decide)
    | (apply State.journal_after; rotate_left; decide; decide) | (apply State.logEvent_after; rotate_left; decide; decide)
    | (apply State.modHost_after; rotate_left; decide; decide) | (apply State.setLost_after; rotate_left; decide; decide)
    | apply Keeps.ite | apply Keeps.ite_fst | apply Keeps.ite_snd | apply Keeps.foldl | apply Keeps.foldl_snd
    | apply Keeps.foldl_fst | (apply Keeps.of_eq_fst; assumption) | (apply Keeps.of_eq_snd; assumption) | (intro) | split
    | dsimp only

/-! ### Versions -/

theorem State.modVersion_after {m' q' : Nat} {u' : State} {s : State} {f : Nat} {g : Version → Version} (h' : Keeps m' q' u' s)
    (hm' : Nat.lor 0x0 m' = m') (hq' : Nat.lor 0x4000 q' = q') : Keeps m' q' u' (s.modVersion f g) := by
  refine Keeps.after ?_ hm' hq' h'
  clear hm' hq' h'
  unfold State.modVersion
  with_reducible repeat' first
    | assumption | exact Keeps.refl _ | (apply State.modBridge_after; rotate_left; decide; decide) | apply Keeps.ite
    | apply Keeps.ite_fst | apply Keeps.ite_snd | (intro) | split | dsimp only

theorem State.logRefresh_after {m' q' : Nat} {u' : State} {s : State} (h' : Keeps m' q' u' s)
    (hm' : Nat.lor 0xc0000000000000000000000000000000000000000000000000000000000000000000000000000000000000000000000000000000000000000000000000000000000000 m' = m') (hq' : Nat.lor 0x4000 q' = q') : Keeps m' q' u' (s.logRefresh) := by
  refine Keeps.after ?_ hm' hq' h'
  clear hm' hq' h'
  unfold State.logRefresh
  with_reducible repeat' first
    | assumption | exact Keeps.refl _ | (apply Keeps.wr; rotate_left; decide)
    | (apply State.modBridge_after; rotate_left; decide; decide) | (intro) | split | dsimp only

theorem State.retireEntry_after {m' q' : Nat} {u' : State} {s : State} {f : Nat} (h' : Keeps m' q' u' s)
    (hm' : Nat.lor 0x7ff9000000000000000000000000000000000000000000000000000000000000000000000000000000000000000000000000000000000000000000000000000000000000 m' = m') (hq' : Nat.lor 0x4000 q' = q') : Keeps m' q' u' (s.retireEntry f) := by
  refine Keeps.after ?_ hm' hq' h'
  clear hm' hq' h'
  unfold State.retireEntry
  with_reducible repeat' first
    | assumption | exact Keeps.refl _ | (apply State.chestRow_after; rotate_left; decide; decide)
    | (apply State.logRefresh_after; rotate_left; decide; decide)
    | (apply State.modBridge_after; rotate_left; decide; decide) | apply Keeps.ite | apply Keeps.ite_fst
    | apply Keeps.ite_snd | (apply Keeps.of_eq_fst; assumption) | (apply Keeps.of_eq_snd; assumption) | (intro) | split
    | dsimp only

theorem State.returnVersion_after {m' q' : Nat} {u' : State} {s : State} {v : Version} (h' : Keeps m' q' u' s)
    (hm' : Nat.lor 0x7ff9003000000000000000000000000000000000000000000000000000000000000000000000000000000000000000000000000000000000000000000000000000000000 m' = m') (hq' : Nat.lor 0x6000 q' = q') : Keeps m' q' u' (s.returnVersion v) := by
  refine Keeps.after ?_ hm' hq' h'
  clear hm' hq' h'
  unfold State.returnVersion
  with_reducible repeat' first
    | assumption | exact Keeps.refl _ | (apply Keeps.wr; rotate_left; decide)
    | (apply State.modHost_after; rotate_left; decide; decide) | (apply State.modNs_after; rotate_left; decide; decide)
    | (apply State.retireEntry_after; rotate_left; decide; decide) | apply Keeps.when | apply Keeps.ite
    | apply Keeps.ite_fst | apply Keeps.ite_snd | (apply Keeps.of_eq_fst; assumption) | (apply Keeps.of_eq_snd; assumption)
    | (intro) | split | dsimp only

theorem State.dropVersions_after {m' q' : Nat} {u' : State} {s : State} (h' : Keeps m' q' u' s)
    (hm' : Nat.lor 0x7ff9003000000000000000000000000000000000000000000000000000000000000000000000000000000000000000000000000000000000000000000000000000000000 m' = m') (hq' : Nat.lor 0x6000 q' = q') : Keeps m' q' u' (s.dropVersions) := by
  refine Keeps.after ?_ hm' hq' h'
  clear hm' hq' h'
  unfold State.dropVersions
  with_reducible repeat' first
    | assumption | exact Keeps.refl _ | (apply State.modBridge_after; rotate_left; decide; decide)
    | (apply State.returnVersion_after; rotate_left; decide; decide) | apply Keeps.foldl | apply Keeps.foldl_snd
    | apply Keeps.foldl_fst | (intro) | split | dsimp only

theorem State.supersede_after {m' q' : Nat} {u' : State} {s : State} {v : Version} (h' : Keeps m' q' u' s)
    (hm' : Nat.lor 0x0 m' = m') (hq' : Nat.lor 0x4000 q' = q') : Keeps m' q' u' (s.supersede v) := by
  refine Keeps.after ?_ hm' hq' h'
  clear hm' hq' h'
  unfold State.supersede
  with_reducible repeat' first
    | assumption | exact Keeps.refl _ | (apply State.modBridge_after; rotate_left; decide; decide) | apply Keeps.ite
    | apply Keeps.ite_fst | apply Keeps.ite_snd | apply Keeps.foldl | apply Keeps.foldl_snd | apply Keeps.foldl_fst
    | (intro) | split | dsimp only

theorem State.settleWaits_after {m' q' : Nat} {u' : State} {s : State} (h' : Keeps m' q' u' s)
    (hm' : Nat.lor 0x0 m' = m') (hq' : Nat.lor 0x2000 q' = q') : Keeps m' q' u' (s.settleWaits) := by
  refine Keeps.after ?_ hm' hq' h'
  clear hm' hq' h'
  unfold State.settleWaits
  with_reducible repeat' first
    | assumption | exact Keeps.refl _ | (apply State.modHost_after; rotate_left; decide; decide) | apply Keeps.ite
    | apply Keeps.ite_fst | apply Keeps.ite_snd | (apply Keeps.of_eq_fst; assumption) | (apply Keeps.of_eq_snd; assumption)
    | (intro) | split | dsimp only

theorem State.onMediaBlocks_after {m' q' : Nat} {u' : State} {s : State} {f : Nat} {lbas : List Nat} (h' : Keeps m' q' u' s)
    (hm' : Nat.lor 0x7ffd003000000000000000000000000000000000000000000000000000000000000000000000000000000000000000000000000000000000000000000000000000000000 m' = m') (hq' : Nat.lor 0x6000 q' = q') : Keeps m' q' u' (s.onMediaBlocks f lbas) := by
  refine Keeps.after ?_ hm' hq' h'
  clear hm' hq' h'
  unfold State.onMediaBlocks
  with_reducible repeat' first
    | assumption | exact Keeps.refl _ | (apply State.dropVersions_after; rotate_left; decide; decide)
    | (apply State.journal_after; rotate_left; decide; decide) | (apply State.modVersion_after; rotate_left; decide; decide)
    | (apply State.settleWaits_after; rotate_left; decide; decide) | apply Keeps.when | (intro) | split | dsimp only

theorem State.unpin_after {m' q' : Nat} {u' : State} {s : State} {f : Nat} (h' : Keeps m' q' u' s)
    (hm' : Nat.lor 0x7ff9003000000000000000000000000000000000000000000000000000000000000000000000000000000000000000000000000000000000000000000000000000000000 m' = m') (hq' : Nat.lor 0x6000 q' = q') : Keeps m' q' u' (s.unpin f) := by
  refine Keeps.after ?_ hm' hq' h'
  clear hm' hq' h'
  unfold State.unpin
  with_reducible repeat' first
    | assumption | exact Keeps.refl _ | (apply State.dropVersions_after; rotate_left; decide; decide)
    | (apply State.modVersion_after; rotate_left; decide; decide) | (intro) | split | dsimp only

/-! ### Replies -/

theorem State.modBur_after {m' q' : Nat} {u' : State} {s : State} {f : Bureau → Bureau} (h' : Keeps m' q' u' s)
    (hm' : Nat.lor 0x0 m' = m') (hq' : Nat.lor 0x40000 q' = q') : Keeps m' q' u' (s.modBur f) := by
  refine Keeps.after ?_ hm' hq' h'
  clear hm' hq' h'
  unfold State.modBur
  with_reducible repeat' first
    | assumption | exact Keeps.refl _ | (intro) | split | dsimp only | (apply Keeps.with_bur; rotate_left; decide)

theorem State.benchFrame_after {m' q' : Nat} {u' : State} {s : State} {type : Nat} {payload : List Nat} (h' : Keeps m' q' u' s)
    (hm' : Nat.lor 0x0 m' = m') (hq' : Nat.lor 0x1000000 q' = q') : Keeps m' q' u' (s.benchFrame type payload) := by
  refine Keeps.after ?_ hm' hq' h'
  clear hm' hq' h'
  unfold State.benchFrame
  with_reducible repeat' first
    | assumption | exact Keeps.refl _ | (apply State.emit_after; rotate_left; decide; decide) | apply Keeps.foldl
    | apply Keeps.foldl_snd | apply Keeps.foldl_fst | (intro) | split | dsimp only

theorem State.giveReply_after {m' q' : Nat} {u' : State} {s : State} {f numd : Nat} {r : CiborReply} (h' : Keeps m' q' u' s)
    (hm' : Nat.lor 0x0 m' = m') (hq' : Nat.lor 0x1042000 q' = q') : Keeps m' q' u' (s.giveReply f numd r) := by
  refine Keeps.after ?_ hm' hq' h'
  clear hm' hq' h'
  unfold State.giveReply
  with_reducible repeat' first
    | assumption | exact Keeps.refl _ | (apply State.emit_after; rotate_left; decide; decide)
    | (apply State.modBur_after; rotate_left; decide; decide) | apply Keeps.when | apply Keeps.ite | apply Keeps.ite_fst
    | apply Keeps.ite_snd | apply Keeps.foldl | apply Keeps.foldl_snd | apply Keeps.foldl_fst | (intro) | split | dsimp only
    | (apply Keeps.with_host; rotate_left; decide)

theorem State.reply_after {m' q' : Nat} {u' : State} {s : State} {r : CiborRequest} {st : CStat} {d1 : Nat } {d2 : Nat } {results payload : List Nat } (h' : Keeps m' q' u' s)
    (hm' : Nat.lor 0x0 m' = m') (hq' : Nat.lor 0x1042000 q' = q') : Keeps m' q' u' (s.reply r st d1 d2 results payload) := by
  refine Keeps.after ?_ hm' hq' h'
  clear hm' hq' h'
  unfold State.reply
  with_reducible repeat' first
    | assumption | exact Keeps.refl _ | (apply State.benchFrame_after; rotate_left; decide; decide)
    | (apply State.giveReply_after; rotate_left; decide; decide) | (apply State.modBur_after; rotate_left; decide; decide)
    | apply Keeps.when | apply Keeps.ite | apply Keeps.ite_fst | apply Keeps.ite_snd | (apply Keeps.of_eq_fst; assumption)
    | (apply Keeps.of_eq_snd; assumption) | (intro) | split | dsimp only

theorem State.modRequest_after {m' q' : Nat} {u' : State} {s : State} {r : CiborRequest} {f : CiborRequest → CiborRequest} (h' : Keeps m' q' u' s)
    (hm' : Nat.lor 0x0 m' = m') (hq' : Nat.lor 0x40000 q' = q') : Keeps m' q' u' (s.modRequest r f) := by
  refine Keeps.after ?_ hm' hq' h'
  clear hm' hq' h'
  unfold State.modRequest
  with_reducible repeat' first
    | assumption | exact Keeps.refl _ | (apply State.modBur_after; rotate_left; decide; decide) | apply Keeps.ite
    | apply Keeps.ite_fst | apply Keeps.ite_snd | (intro) | split | dsimp only

theorem State.settleOne_after {m' q' : Nat} {u' : State} {s : State} {r : CiborRequest} (h' : Keeps m' q' u' s)
    (hm' : Nat.lor 0x0 m' = m') (hq' : Nat.lor 0x1042000 q' = q') : Keeps m' q' u' (s.settleOne r) := by
  refine Keeps.after ?_ hm' hq' h'
  clear hm' hq' h'
  unfold State.settleOne
  with_reducible repeat' first
    | assumption | exact Keeps.refl _ | (apply State.reply_after; rotate_left; decide; decide) | apply Keeps.ite
    | apply Keeps.ite_fst | apply Keeps.ite_snd | (apply Keeps.of_eq_fst; assumption) | (apply Keeps.of_eq_snd; assumption)
    | (intro) | split | dsimp only

theorem State.settleRequests_after {m' q' : Nat} {u' : State} {s : State} (h' : Keeps m' q' u' s)
    (hm' : Nat.lor 0x0 m' = m') (hq' : Nat.lor 0x1042000 q' = q') : Keeps m' q' u' (s.settleRequests) := by
  refine Keeps.after ?_ hm' hq' h'
  clear hm' hq' h'
  unfold State.settleRequests
  with_reducible repeat' first
    | assumption | exact Keeps.refl _ | (apply State.settleOne_after; rotate_left; decide; decide) | apply Keeps.foldl
    | apply Keeps.foldl_snd | apply Keeps.foldl_fst | (intro) | split | dsimp only

/-! ### Modes -/

theorem State.nextMode_after {m' q' : Nat} {u' : State} {s : State} (h' : Keeps m' q' u' s)
    (hm' : Nat.lor 0x18000000000000000000000000000000000000000000000000000000000000000000000000000000000000000000000000000000000000000000000000000000000000000000000000000000000000000000000000000000000 m' = m') (hq' : Nat.lor 0x80000 q' = q') : Keeps m' q' u' (s.nextMode) := by
  refine Keeps.after ?_ hm' hq' h'
  clear hm' hq' h'
  unfold State.nextMode
  with_reducible repeat' first
    | assumption | exact Keeps.refl _ | (apply Keeps.wr; rotate_left; decide) | apply Keeps.ite | apply Keeps.ite_fst
    | apply Keeps.ite_snd | (intro) | split | dsimp only | (apply Keeps.with_power; rotate_left; decide)

theorem State.refreshMode_after {m' q' : Nat} {u' : State} {s : State} (h' : Keeps m' q' u' s)
    (hm' : Nat.lor 0x18000000000000000000000000000000000000000000000000000000000000000000000000000000000000000000000000000000000000000000000000000000000000000000000000000000000000000000000000000000000 m' = m') (hq' : Nat.lor 0x10c2000 q' = q') : Keeps m' q' u' (s.refreshMode) := by
  refine Keeps.after ?_ hm' hq' h'
  clear hm' hq' h'
  unfold State.refreshMode
  with_reducible repeat' first
    | assumption | exact Keeps.refl _ | (apply State.nextMode_after; rotate_left; decide; decide)
    | (apply State.settleRequests_after; rotate_left; decide; decide) | (intro) | split | dsimp only

theorem State.setDegr_after {m' q' : Nat} {u' : State} {s : State} {b : Nat} {on : Bool} (h' : Keeps m' q' u' s)
    (hm' : Nat.lor 0x38000000000000000000000000000000000000000000000000000000000000000000000000000000000000000000000000000000000000000000000000000000000000000000000000000000000000000000000000000000000 m' = m') (hq' : Nat.lor 0x10c2000 q' = q') : Keeps m' q' u' (s.setDegr b on) := by
  refine Keeps.after ?_ hm' hq' h'
  clear hm' hq' h'
  unfold State.setDegr
  with_reducible repeat' first
    | assumption | exact Keeps.refl _ | (apply Keeps.flagBit; rotate_left; decide)
    | (apply Keeps.unflagBit; rotate_left; decide) | (apply State.refreshMode_after; rotate_left; decide; decide)
    | apply Keeps.ite | apply Keeps.ite_fst | apply Keeps.ite_snd | (intro) | split | dsimp only

theorem State.hostEvent_after {m' q' : Nat} {u' : State} {s : State} {k type info : Nat} (h' : Keeps m' q' u' s)
    (hm' : Nat.lor 0x0 m' = m') (hq' : Nat.lor 0x2000 q' = q') : Keeps m' q' u' (s.hostEvent k type info) := by
  refine Keeps.after ?_ hm' hq' h'
  clear hm' hq' h'
  unfold State.hostEvent
  with_reducible repeat' first
    | assumption | exact Keeps.refl _ | apply Keeps.ite | apply Keeps.ite_fst | apply Keeps.ite_snd
    | (apply Keeps.of_eq_fst; assumption) | (apply Keeps.of_eq_snd; assumption) | (intro) | split | dsimp only
    | (apply Keeps.with_host; rotate_left; decide)

theorem State.vendorEvent_after {m' q' : Nat} {u' : State} {s : State} {info : Nat} {who : Nat → Bool} (h' : Keeps m' q' u' s)
    (hm' : Nat.lor 0x0 m' = m') (hq' : Nat.lor 0x1002000 q' = q') : Keeps m' q' u' (s.vendorEvent info who) := by
  refine Keeps.after ?_ hm' hq' h'
  clear hm' hq' h'
  unfold State.vendorEvent
  with_reducible repeat' first
    | assumption | exact Keeps.refl _ | (apply State.emit_after; rotate_left; decide; decide)
    | (apply State.hostEvent_after; rotate_left; decide; decide) | apply Keeps.when | apply Keeps.foldl
    | apply Keeps.foldl_snd | apply Keeps.foldl_fst | (intro) | split | dsimp only

/-! ### Copy -/

theorem State.modClean_after {m' q' : Nat} {u' : State} {s : State} {id : Nat} {f : Clean → Clean} (h' : Keeps m' q' u' s)
    (hm' : Nat.lor 0x0 m' = m') (hq' : Nat.lor 0x2000 q' = q') : Keeps m' q' u' (s.modClean id f) := by
  refine Keeps.after ?_ hm' hq' h'
  clear hm' hq' h'
  unfold State.modClean
  with_reducible repeat' first
    | assumption | exact Keeps.refl _ | (apply State.modHost_after; rotate_left; decide; decide) | apply Keeps.ite
    | apply Keeps.ite_fst | apply Keeps.ite_snd | (intro) | split | dsimp only

theorem State.bandSwitch_after {m' q' : Nat} {u' : State} {s : State} {id : Nat} {c : Clean} (h' : Keeps m' q' u' s)
    (hm' : Nat.lor 0x7f3d000000000000000000000000000000000000000000000000000000000000000000000000000000000000000000000000000000000000000000000000000000000000 m' = m') (hq' : Nat.lor 0x6800 q' = q') : Keeps m' q' u' (s.bandSwitch id c) := by
  refine Keeps.after ?_ hm' hq' h'
  clear hm' hq' h'
  unfold State.bandSwitch
  with_reducible repeat' first
    | assumption | exact Keeps.refl _ | (apply State.journal_after; rotate_left; decide; decide)
    | (apply State.modHost_after; rotate_left; decide; decide) | (apply State.modNs_after; rotate_left; decide; decide)
    | (apply State.modRecord_after; rotate_left; decide; decide)
    | (apply State.rewriteBand_after; rotate_left; decide; decide) | apply Keeps.when | apply Keeps.ite
    | apply Keeps.ite_fst | apply Keeps.ite_snd | (apply Keeps.of_eq_fst; assumption) | (apply Keeps.of_eq_snd; assumption)
    | (intro) | split | dsimp only

theorem State.bceAdvance_after {m' q' : Nat} {u' : State} {s : State} {id : Nat} (h' : Keeps m' q' u' s)
    (hm' : Nat.lor 0x78001800000000000000007f3d008000000000000000000000000000000000000000000000000000000000000000000000000000000000000000000010000000000000000000000000000000000000 m' = m') (hq' : Nat.lor 0x6801 q' = q') : Keeps m' q' u' (s.bceAdvance id) := by
  refine Keeps.after ?_ hm' hq' h'
  clear hm' hq' h'
  unfold State.bceAdvance
  with_reducible repeat' first
    | assumption | exact Keeps.refl _ | (apply State.bandSwitch_after; rotate_left; decide; decide)
    | (apply State.modClean_after; rotate_left; decide; decide)
    | (apply State.postPlaces_after; rotate_left; decide; decide) | apply Keeps.ite | apply Keeps.ite_fst
    | apply Keeps.ite_snd | (apply Keeps.of_eq_fst; assumption) | (apply Keeps.of_eq_snd; assumption) | (intro) | split
    | dsimp only

theorem State.bceDeliver_after {m' q' : Nat} {u' : State} {s : State} {id lba : Nat} {w : Content} (h' : Keeps m' q' u' s)
    (hm' : Nat.lor 0x78001800000000000000007f3d008000000000000000000000000000000000000000000000000000000000000000000000000000000000000000000010000000000000000000000000000000000000 m' = m') (hq' : Nat.lor 0x6801 q' = q') : Keeps m' q' u' (s.bceDeliver id lba w) := by
  refine Keeps.after ?_ hm' hq' h'
  clear hm' hq' h'
  unfold State.bceDeliver
  with_reducible repeat' first
    | assumption | exact Keeps.refl _ | (apply State.bceAdvance_after; rotate_left; decide; decide)
    | (apply State.modClean_after; rotate_left; decide; decide) | (apply Keeps.of_eq_fst; assumption)
    | (apply Keeps.of_eq_snd; assumption) | (intro) | split | dsimp only

theorem State.bceFail_after {m' q' : Nat} {u' : State} {s : State} {id lba : Nat} (h' : Keeps m' q' u' s)
    (hm' : Nat.lor 0x78001800000000000000007f3d008000000000000000000000000000000000000000000000000000000000000000000000000000000000000000000010000000000000000000000000000000000000 m' = m') (hq' : Nat.lor 0x6801 q' = q') : Keeps m' q' u' (s.bceFail id lba) := by
  refine Keeps.after ?_ hm' hq' h'
  clear hm' hq' h'
  unfold State.bceFail
  with_reducible repeat' first
    | assumption | exact Keeps.refl _ | (apply State.bceAdvance_after; rotate_left; decide; decide)
    | (apply State.modClean_after; rotate_left; decide; decide) | (apply Keeps.of_eq_fst; assumption)
    | (apply Keeps.of_eq_snd; assumption) | (intro) | split | dsimp only

theorem State.withdrawReads_after {m' q' : Nat} {u' : State} {s : State} {x : Str} {p : Request → Bool} (h' : Keeps m' q' u' s)
    (hm' : Nat.lor 0x78001800000000000000000000000000000000000000000000000000000000000000000000000000000000000000000000000000000000000000000010000000000000000000000000000000000000 m' = m') (hq' : Nat.lor 0x801 q' = q') : Keeps m' q' u' (s.withdrawReads x p) := by
  refine Keeps.after ?_ hm' hq' h'
  clear hm' hq' h'
  unfold State.withdrawReads
  with_reducible repeat' first
    | assumption | exact Keeps.refl _ | (apply State.feed_after; rotate_left; decide; decide)
    | (apply State.modSeq_after; rotate_left; decide; decide) | apply Keeps.ite | apply Keeps.ite_fst | apply Keeps.ite_snd
    | (intro) | split | dsimp only

theorem State.abandonClean_after {m' q' : Nat} {u' : State} {s : State} {id : Nat} (h' : Keeps m' q' u' s)
    (hm' : Nat.lor 0x178001800000000000000000000008000000000000000000000000000000000000000000000000000000000000000000000000000000000000000000010000000000000000000000000000000000000 m' = m') (hq' : Nat.lor 0x6801 q' = q') : Keeps m' q' u' (s.abandonClean id) := by
  refine Keeps.after ?_ hm' hq' h'
  clear hm' hq' h'
  unfold State.abandonClean
  with_reducible repeat' first
    | assumption | exact Keeps.refl _ | (apply State.modHost_after; rotate_left; decide; decide)
    | (apply State.modRecord_after; rotate_left; decide; decide)
    | (apply State.withdrawReads_after; rotate_left; decide; decide)
    | (apply State.withdrawWrites_after; rotate_left; decide; decide) | (apply Keeps.of_eq_fst; assumption)
    | (apply Keeps.of_eq_snd; assumption) | (intro) | split | dsimp only

theorem State.startClean_after {m' q' : Nat} {u' : State} {s : State} {id : Nat} (h' : Keeps m' q' u' s)
    (hm' : Nat.lor 0x78001800000000000000007f3d008000000000000000000000000000000000000000000000000000000000000000000000000000000000000000000010000000000000000000000000000000000000 m' = m') (hq' : Nat.lor 0x6821 q' = q') : Keeps m' q' u' (s.startClean id) := by
  refine Keeps.after ?_ hm' hq' h'
  clear hm' hq' h'
  unfold State.startClean
  with_reducible repeat' first
    | assumption | exact Keeps.refl _ | (apply State.bceAdvance_after; rotate_left; decide; decide)
    | (apply State.drawn_after; rotate_left; decide; decide) | (apply State.modHost_after; rotate_left; decide; decide)
    | (apply State.modRecord_after; rotate_left; decide; decide)
    | (apply State.postPlaces_after; rotate_left; decide; decide)
    | (apply State.rewriteBand_after; rotate_left; decide; decide) | apply Keeps.ite | apply Keeps.ite_fst
    | apply Keeps.ite_snd | (apply Keeps.of_eq_fst; assumption) | (apply Keeps.of_eq_snd; assumption) | (intro) | split
    | dsimp only

theorem State.bandCleanStart_after {m' q' : Nat} {u' : State} {s : State} {id : Nat} (h' : Keeps m' q' u' s)
    (hm' : Nat.lor 0x78001800000000000000007f3d008000000000000000000000000000000000000000000000000000000000000000000000000000000000000000000010000000000000000000000000000000000000 m' = m') (hq' : Nat.lor 0x6821 q' = q') : Keeps m' q' u' (s.bandCleanStart id) := by
  refine Keeps.after ?_ hm' hq' h'
  clear hm' hq' h'
  unfold State.bandCleanStart
  with_reducible repeat' first
    | assumption | exact Keeps.refl _ | (apply State.startClean_after; rotate_left; decide; decide) | apply Keeps.ite
    | apply Keeps.ite_fst | apply Keeps.ite_snd | (apply Keeps.of_eq_fst; assumption) | (apply Keeps.of_eq_snd; assumption)
    | (intro) | split | dsimp only

theorem State.skipAge_after {m' q' : Nat} {u' : State} {s : State} {id : Nat} (h' : Keeps m' q' u' s)
    (hm' : Nat.lor 0x78001800000000000000007f3d008000000000000000000000000000000000000000000000000000000000000000000000000000000000000000000010000000000000000000000000000000000000 m' = m') (hq' : Nat.lor 0x6821 q' = q') : Keeps m' q' u' (s.skipAge id) := by
  refine Keeps.after ?_ hm' hq' h'
  clear hm' hq' h'
  unfold State.skipAge
  with_reducible repeat' first
    | assumption | exact Keeps.refl _ | (apply State.startClean_after; rotate_left; decide; decide) | apply Keeps.ite
    | apply Keeps.ite_fst | apply Keeps.ite_snd | (apply Keeps.of_eq_fst; assumption) | (apply Keeps.of_eq_snd; assumption)
    | (intro) | split | dsimp only

/-! ### Streams -/

theorem State.streamRefresh_after {m' q' : Nat} {u' : State} {s : State} (h' : Keeps m' q' u' s)
    (hm' : Nat.lor 0x400000f080000000000000000000000000000000000000000000000000000000000000000000000000000000000000000000000000000000000000000000000000 m' = m') (hq' : Nat.lor 0x0 q' = q') : Keeps m' q' u' (s.streamRefresh) := by
  refine Keeps.after ?_ hm' hq' h'
  clear hm' hq' h'
  unfold State.streamRefresh
  with_reducible repeat' first
    | assumption | exact Keeps.refl _ | (apply Keeps.wr; rotate_left; decide) | apply Keeps.foldl | apply Keeps.foldl_snd
    | apply Keeps.foldl_fst | (intro) | split | dsimp only

theorem State.recordAvail_after {m' q' : Nat} {u' : State} {s : State} {t : Stream} (h' : Keeps m' q' u' s)
    (hm' : Nat.lor 0x10000000000000000000000000000000000000000000000000000000000000000000000000000000000000000000000000000000000000000000000000000 m' = m') (hq' : Nat.lor 0x0 q' = q') : Keeps m' q' u' (s.recordAvail t) := by
  refine Keeps.after ?_ hm' hq' h'
  clear hm' hq' h'
  unfold State.recordAvail
  with_reducible repeat' first
    | assumption | exact Keeps.refl _ | (apply Keeps.wr; rotate_left; decide) | apply Keeps.foldl | apply Keeps.foldl_snd
    | apply Keeps.foldl_fst | (intro) | split | dsimp only

theorem State.showSlot_after {m' q' : Nat} {u' : State} {s : State} {t : Stream} (h' : Keeps m' q' u' s)
    (hm' : Nat.lor 0x3fe000000000000000000000000000000000000000000000000000000000000000000000000000000000000000000000000000000000000000000 m' = m') (hq' : Nat.lor 0x0 q' = q') : Keeps m' q' u' (s.showSlot t) := by
  refine Keeps.after ?_ hm' hq' h'
  clear hm' hq' h'
  unfold State.showSlot
  with_reducible repeat' first
    | assumption | exact Keeps.refl _ | (apply Keeps.wr; rotate_left; decide) | (apply Keeps.flag; rotate_left; decide)
    | (apply Keeps.setTo; rotate_left; decide) | (intro) | split | dsimp only

theorem State.releaseStream_after {m' q' : Nat} {u' : State} {s : State} {t : Stream} {wdrn : Bool} (h' : Keeps m' q' u' s)
    (hm' : Nat.lor 0x1800000000000000000000000000000000000000000000000400000f080000004000000000000000000000000000000000000000000000000000000000000000000000000000000000000000000000000000000000000000000 m' = m') (hq' : Nat.lor 0x10c2000 q' = q') : Keeps m' q' u' (s.releaseStream t wdrn) := by
  refine Keeps.after ?_ hm' hq' h'
  clear hm' hq' h'
  unfold State.releaseStream
  with_reducible repeat' first
    | assumption | exact Keeps.refl _ | (apply Keeps.unflag; rotate_left; decide)
    | (apply State.modHost_after; rotate_left; decide; decide)
    | (apply State.refreshMode_after; rotate_left; decide; decide)
    | (apply State.streamRefresh_after; rotate_left; decide; decide) | apply Keeps.ite | apply Keeps.ite_fst
    | apply Keeps.ite_snd | (intro) | split | dsimp only

theorem State.withdrawStream_after {m' q' : Nat} {u' : State} {s : State} {t : Stream} {cause : Nat} (h' : Keeps m' q' u' s)
    (hm' : Nat.lor 0x1800000000000000000000000000000000000000000000000400008f280000004000000000000000000000000000000000000000000000000000000000000000000000000000000000000000000000000000000000000000000 m' = m') (hq' : Nat.lor 0x10c20c0 q' = q') : Keeps m' q' u' (s.withdrawStream t cause) := by
  refine Keeps.after ?_ hm' hq' h'
  clear hm' hq' h'
  unfold State.withdrawStream
  with_reducible repeat' first
    | assumption | exact Keeps.refl _ | (apply Keeps.flag; rotate_left; decide) | (apply Keeps.bump; rotate_left; decide)
    | (apply State.logEvent_after; rotate_left; decide; decide) | (apply State.modHost_after; rotate_left; decide; decide)
    | (apply State.releaseStream_after; rotate_left; decide; decide)
    | (apply State.vendorEvent_after; rotate_left; decide; decide) | (intro) | split | dsimp only

theorem State.rerun_keeps (todo : List Stream) : ∀ (s : State) (kept : List Stream) (cause : Nat) (u : State), Keeps 0x1800000000000000000000000000000000000000000000000400009f280000004000000000000000000000000000000000000000000000000000000000000000000000000000000000000000000000000000000000000000000 0x10c20c0 u s → Keeps 0x1800000000000000000000000000000000000000000000000400009f280000004000000000000000000000000000000000000000000000000000000000000000000000000000000000000000000000000000000000000000000 0x10c20c0 u (s.rerun kept todo cause) := by
  induction todo with
  | nil => intro s kept cause u h; exact h
  | cons a rest ih =>
    intro s kept cause u h
    simp only [State.rerun]
    repeat' first
      | ((with_reducible apply ih))
      | with_reducible assumption
      | with_reducible exact Keeps.refl _
      | ((with_reducible apply Keeps.wr); rotate_left; exact rfl)
      | ((with_reducible apply Keeps.flag); rotate_left; exact rfl)
      | ((with_reducible apply Keeps.unflag); rotate_left; exact rfl)
      | ((with_reducible apply Keeps.setTo); rotate_left; exact rfl)
      | ((with_reducible apply Keeps.flagBit); rotate_left; exact rfl)
      | ((with_reducible apply Keeps.unflagBit); rotate_left; exact rfl)
      | ((with_reducible apply Keeps.bump); rotate_left; exact rfl)
      | ((with_reducible apply Keeps.wrapInc); rotate_left; exact rfl)
      | ((with_reducible apply State.recordAvail_after); rotate_left; exact rfl; exact rfl)
      | ((with_reducible apply State.withdrawStream_after); rotate_left; exact rfl; exact rfl)
      | with_reducible apply Keeps.when
      | with_reducible apply Keeps.onStr
      | with_reducible apply Keeps.foldl
      | with_reducible apply Keeps.foldl_snd
      | with_reducible apply Keeps.foldl_fst
      | (with_reducible intro)
      | (split)
      | (dsimp only)

theorem State.rerun_after {m' q' : Nat} {u' : State} {s : State} {kept todo : List Stream} {cause : Nat} (h' : Keeps m' q' u' s) (hm' : Nat.lor 0x1800000000000000000000000000000000000000000000000400009f280000004000000000000000000000000000000000000000000000000000000000000000000000000000000000000000000000000000000000000000000 m' = m') (hq' : Nat.lor 0x10c20c0 q' = q') : Keeps m' q' u' (s.rerun kept todo cause) := (State.rerun_keeps todo s kept cause s (Keeps.refl _)).after hm' hq' h'

theorem State.readmitAll_after {m' q' : Nat} {u' : State} {s : State} (h' : Keeps m' q' u' s)
    (hm' : Nat.lor 0x1800000000000000000000000000000000000000000000000400009f280000004000000000000000000000000000000000000000000000000000000000000000000000000000000000000000000000000000000000000000000 m' = m') (hq' : Nat.lor 0x10c20c0 q' = q') : Keeps m' q' u' (s.readmitAll) := by
  refine Keeps.after ?_ hm' hq' h'
  clear hm' hq' h'
  unfold State.readmitAll
  with_reducible repeat' first
    | assumption | exact Keeps.refl _ | (apply State.rerun_after; rotate_left; decide; decide) | (intro) | split
    | dsimp only

theorem State.readmitWrites_after {m' q' : Nat} {u' : State} {s : State} (h' : Keeps m' q' u' s)
    (hm' : Nat.lor 0x1800000000000000000000000000000000000000000000000400009f280000004000000000000000000000000000000000000000000000000000000000000000000000000000000000000000000000000000000000000000000 m' = m') (hq' : Nat.lor 0x10c20c0 q' = q') : Keeps m' q' u' (s.readmitWrites) := by
  refine Keeps.after ?_ hm' hq' h'
  clear hm' hq' h'
  unfold State.readmitWrites
  with_reducible repeat' first
    | assumption | exact Keeps.refl _ | (apply State.recordAvail_after; rotate_left; decide; decide)
    | (apply State.withdrawStream_after; rotate_left; decide; decide) | apply Keeps.when | apply Keeps.foldl
    | apply Keeps.foldl_snd | apply Keeps.foldl_fst | (intro) | split | dsimp only

theorem State.readmitReads_after {m' q' : Nat} {u' : State} {s : State} (h' : Keeps m' q' u' s)
    (hm' : Nat.lor 0x1800000000000000000000000000000000000000000000000400008f280000004000000000000000000000000000000000000000000000000000000000000000000000000000000000000000000000000000000000000000000 m' = m') (hq' : Nat.lor 0x10c20c0 q' = q') : Keeps m' q' u' (s.readmitReads) := by
  refine Keeps.after ?_ hm' hq' h'
  clear hm' hq' h'
  unfold State.readmitReads
  with_reducible repeat' first
    | assumption | exact Keeps.refl _ | (apply State.withdrawStream_after; rotate_left; decide; decide) | apply Keeps.when
    | apply Keeps.foldl | apply Keeps.foldl_snd | apply Keeps.foldl_fst | (intro) | split | dsimp only

theorem State.withdrawLost_after {m' q' : Nat} {u' : State} {s : State} {x : Str} (h' : Keeps m' q' u' s)
    (hm' : Nat.lor 0x1800000000000000000000000000000000000000000000000400008f280000004000000000000000000000000000000000000000000000000000000000000000000000000000000000000000000000000000000000000000000 m' = m') (hq' : Nat.lor 0x10c20c0 q' = q') : Keeps m' q' u' (s.withdrawLost x) := by
  refine Keeps.after ?_ hm' hq' h'
  clear hm' hq' h'
  unfold State.withdrawLost
  with_reducible repeat' first
    | assumption | exact Keeps.refl _ | (apply State.withdrawStream_after; rotate_left; decide; decide) | apply Keeps.foldl
    | apply Keeps.foldl_snd | apply Keeps.foldl_fst | (intro) | split | dsimp only

theorem State.withdrawAll_after {m' q' : Nat} {u' : State} {s : State} {cause : Nat} (h' : Keeps m' q' u' s)
    (hm' : Nat.lor 0x1800000000000000000000000000000000000000000000000400008f280000004000000000000000000000000000000000000000000000000000000000000000000000000000000000000000000000000000000000000000000 m' = m') (hq' : Nat.lor 0x10c20c0 q' = q') : Keeps m' q' u' (s.withdrawAll cause) := by
  refine Keeps.after ?_ hm' hq' h'
  clear hm' hq' h'
  unfold State.withdrawAll
  with_reducible repeat' first
    | assumption | exact Keeps.refl _ | (apply State.withdrawStream_after; rotate_left; decide; decide) | apply Keeps.foldl
    | apply Keeps.foldl_snd | apply Keeps.foldl_fst | (intro) | split | dsimp only

theorem State.countFrame_after {m' q' : Nat} {u' : State} {s : State} (h' : Keeps m' q' u' s)
    (hm' : Nat.lor 0x0 m' = m') (hq' : Nat.lor 0x2000 q' = q') : Keeps m' q' u' (s.countFrame) := by
  refine Keeps.after ?_ hm' hq' h'
  clear hm' hq' h'
  unfold State.countFrame
  with_reducible repeat' first
    | assumption | exact Keeps.refl _ | (apply State.modHost_after; rotate_left; decide; decide) | (intro) | split
    | dsimp only

theorem State.reach_after {m' q' : Nat} {u' : State} {s : State} {c : Cmd} {x : Str} {n : Nat} (h' : Keeps m' q' u' s)
    (hm' : Nat.lor 0x0 m' = m') (hq' : Nat.lor 0x2000 q' = q') : Keeps m' q' u' (s.reach c x n) := by
  refine Keeps.after ?_ hm' hq' h'
  clear hm' hq' h'
  unfold State.reach
  with_reducible repeat' first
    | assumption | exact Keeps.refl _ | (apply State.modCmd_after; rotate_left; decide; decide)
    | (apply State.modHost_after; rotate_left; decide; decide) | apply Keeps.when | apply Keeps.ite | apply Keeps.ite_fst
    | apply Keeps.ite_snd | (apply Keeps.of_eq_fst; assumption) | (apply Keeps.of_eq_snd; assumption) | (intro) | split
    | dsimp only

theorem State.suspendDeadlines_after {m' q' : Nat} {u' : State} {s : State} (h' : Keeps m' q' u' s)
    (hm' : Nat.lor 0x100000000000000000000000000000000000000000000000000000000000000000000000000000000000000000000000000000000000000000000000000 m' = m') (hq' : Nat.lor 0x2000 q' = q') : Keeps m' q' u' (s.suspendDeadlines) := by
  refine Keeps.after ?_ hm' hq' h'
  clear hm' hq' h'
  unfold State.suspendDeadlines
  with_reducible repeat' first
    | assumption | exact Keeps.refl _ | (apply Keeps.flag; rotate_left; decide)
    | (apply State.modHost_after; rotate_left; decide; decide) | apply Keeps.ite | apply Keeps.ite_fst | apply Keeps.ite_snd
    | (intro) | split | dsimp only

theorem State.resumeDeadlines_after {m' q' : Nat} {u' : State} {s : State} {changed : Bool} (h' : Keeps m' q' u' s)
    (hm' : Nat.lor 0x1800000000000000000000000000000000000000000000000400009f380000004000000000000000000000000000000000000000000000000000000000000000000000000000000000000000000000000000000000000000000 m' = m') (hq' : Nat.lor 0x10c20c0 q' = q') : Keeps m' q' u' (s.resumeDeadlines changed) := by
  refine Keeps.after ?_ hm' hq' h'
  clear hm' hq' h'
  unfold State.resumeDeadlines
  with_reducible repeat' first
    | assumption | exact Keeps.refl _ | (apply Keeps.unflag; rotate_left; decide)
    | (apply State.readmitAll_after; rotate_left; decide; decide) | apply Keeps.when | (intro) | split | dsimp only

theorem State.countReport_after {m' q' : Nat} {u' : State} {s : State} {c : Cmd} (h' : Keeps m' q' u' s)
    (hm' : Nat.lor 0x60400000300000000000000000000000000000000000000000000000000000000000000000000000000000000000000000000000000000000000000000000 m' = m') (hq' : Nat.lor 0xc0 q' = q') : Keeps m' q' u' (s.countReport c) := by
  refine Keeps.after ?_ hm' hq' h'
  clear hm' hq' h'
  unfold State.countReport
  with_reducible repeat' first
    | assumption | exact Keeps.refl _ | (apply Keeps.flag; rotate_left; decide) | (apply Keeps.bump; rotate_left; decide)
    | (apply State.logEvent_after; rotate_left; decide; decide) | apply Keeps.when | (apply Keeps.of_eq_fst; assumption)
    | (apply Keeps.of_eq_snd; assumption) | (intro) | split | dsimp only

/-! ### Lost -/

theorem State.dropSlots_after {m' q' : Nat} {u' : State} {s : State} {x : Str} (h' : Keeps m' q' u' s)
    (hm' : Nat.lor 0x18000000000000000000000000000000000000000000000000004000003000000000000000000000000000000000000000000000000000000000000000000000000 m' = m') (hq' : Nat.lor 0x1800 q' = q') : Keeps m' q' u' (s.dropSlots x) := by
  refine Keeps.after ?_ hm' hq' h'
  clear hm' hq' h'
  unfold State.dropSlots
  with_reducible repeat' first
    | assumption | exact Keeps.refl _ | (apply State.giveCredit_after; rotate_left; decide; decide)
    | (apply State.modRch_after; rotate_left; decide; decide) | (apply State.rchRefresh_after; rotate_left; decide; decide)
    | apply Keeps.ite | apply Keeps.ite_fst | apply Keeps.ite_snd | apply Keeps.foldl | apply Keeps.foldl_snd
    | apply Keeps.foldl_fst | (apply Keeps.of_eq_fst; assumption) | (apply Keeps.of_eq_snd; assumption) | (intro) | split
    | dsimp only | (apply Keeps.with_harp; rotate_left; decide)

theorem State.failLost_after {m' q' : Nat} {u' : State} {s : State} {st : Option NvStatus} {f lba : Nat} (h' : Keeps m' q' u' s)
    (hm' : Nat.lor 0x0 m' = m') (hq' : Nat.lor 0x2000 q' = q') : Keeps m' q' u' (s.failLost st f lba) := by
  refine Keeps.after ?_ hm' hq' h'
  clear hm' hq' h'
  unfold State.failLost
  with_reducible repeat' first
    | assumption | exact Keeps.refl _ | (apply State.failSector_after; rotate_left; decide; decide) | (intro) | split
    | dsimp only

theorem State.failReads_after {m' q' : Nat} {u' : State} {s : State} {x : Str} {st : Option NvStatus} (h' : Keeps m' q' u' s)
    (hm' : Nat.lor 0x78001800000000000000000000018000000000000000000000001800000000000000000000000004000003000000000000000000000000000000000000000000000000000000000000000000000000 m' = m') (hq' : Nat.lor 0x3800 q' = q') : Keeps m' q' u' (s.failReads x st) := by
  refine Keeps.after ?_ hm' hq' h'
  clear hm' hq' h'
  unfold State.failReads
  with_reducible repeat' first
    | assumption | exact Keeps.refl _ | (apply Keeps.unflag; rotate_left; decide)
    | (apply State.dropSlots_after; rotate_left; decide; decide) | (apply State.failLost_after; rotate_left; decide; decide)
    | (apply State.modSeq_after; rotate_left; decide; decide) | (apply State.modStr_after; rotate_left; decide; decide)
    | (apply State.sqRefresh_after; rotate_left; decide; decide) | apply Keeps.foldl | apply Keeps.foldl_snd
    | apply Keeps.foldl_fst | (intro) | split | dsimp only

theorem State.zonesOffline_after {m' q' : Nat} {u' : State} {s : State} {x : Str} (h' : Keeps m' q' u' s)
    (hm' : Nat.lor 0x178001800000000000000000000018000000000000000000000001800000000000000000000000004000003000000000000000000000000000000000010000000000000000000000000000000000000 m' = m') (hq' : Nat.lor 0x17801 q' = q') : Keeps m' q' u' (s.zonesOffline x) := by
  refine Keeps.after ?_ hm' hq' h'
  clear hm' hq' h'
  unfold State.zonesOffline
  with_reducible repeat' first
    | assumption | exact Keeps.refl _ | (apply State.failReads_after; rotate_left; decide; decide)
    | (apply State.modBridge_after; rotate_left; decide; decide) | (apply State.modHost_after; rotate_left; decide; decide)
    | (apply State.withdrawWrites_after; rotate_left; decide; decide) | apply Keeps.ite | apply Keeps.ite_fst
    | apply Keeps.ite_snd | (intro) | split | dsimp only | (apply Keeps.with_phv; rotate_left; decide)

theorem State.stringDomainsOff_after {m' q' : Nat} {u' : State} {s : State} {x : Str} (h' : Keeps m' q' u' s)
    (hm' : Nat.lor 0x600000000000000000000000000000000000000000000000000000000000000000000000000000000000000000000000000000000000000000000000000000000000000000000000000000000000000000000000000000000000000 m' = m') (hq' : Nat.lor 0x0 q' = q') : Keeps m' q' u' (s.stringDomainsOff x) := by
  refine Keeps.after ?_ hm' hq' h'
  clear hm' hq' h'
  unfold State.stringDomainsOff
  with_reducible repeat' first
    | assumption | exact Keeps.refl _ | (apply Keeps.unflagBit; rotate_left; decide) | apply Keeps.foldl
    | apply Keeps.foldl_snd | apply Keeps.foldl_fst | (intro) | split | dsimp only

theorem State.finishLost_after {m' q' : Nat} {u' : State} {s : State} {x : Str} (h' : Keeps m' q' u' s)
    (hm' : Nat.lor 0x600000000000000000000000178001800000000000000000000018000000000000000000000001800000000000000000000000004000003000000000000000000000000000000000010000000000000000000000000000000000000 m' = m') (hq' : Nat.lor 0x17801 q' = q') : Keeps m' q' u' (s.finishLost x) := by
  refine Keeps.after ?_ hm' hq' h'
  clear hm' hq' h'
  unfold State.finishLost
  with_reducible repeat' first
    | assumption | exact Keeps.refl _ | (apply State.stringDomainsOff_after; rotate_left; decide; decide)
    | (apply State.zonesOffline_after; rotate_left; decide; decide) | apply Keeps.when | (intro) | split | dsimp only

theorem State.stringLost_after {m' q' : Nat} {u' : State} {s : State} {x : Str} (h' : Keeps m' q' u' s)
    (hm' : Nat.lor 0x600838000000000000000000178001800000000000000007f3d01c00008f28000000400000000180009160000000000000000000400000300000000000000000014000000000000001000000000801c000000000000000000000000 m' = m') (hq' : Nat.lor 0x10d78c1 q' = q') : Keeps m' q' u' (s.stringLost x) := by
  refine Keeps.after ?_ hm' hq' h'
  clear hm' hq' h'
  unfold State.stringLost
  with_reducible repeat' first
    | assumption | exact Keeps.refl _ | (apply Keeps.flagBit; rotate_left; decide)
    | (apply State.finishLost_after; rotate_left; decide; decide) | (apply State.journal_after; rotate_left; decide; decide)
    | (apply State.requestRetract_after; rotate_left; decide; decide)
    | (apply State.setDegr_after; rotate_left; decide; decide)
    | (apply State.withdrawLost_after; rotate_left; decide; decide) | (intro) | split | dsimp only

/-! ### Flow -/

theorem State.controlWritten_after {m' q' : Nat} {u' : State} {s : State} {x : Str} {q : SeqId} {as : List Nat} (h' : Keeps m' q' u' s)
    (hm' : Nat.lor 0x0 m' = m') (hq' : Nat.lor 0x20000 q' = q') : Keeps m' q' u' (s.controlWritten x q as) := by
  refine Keeps.after ?_ hm' hq' h'
  clear hm' hq' h'
  unfold State.controlWritten
  with_reducible repeat' first
    | assumption | exact Keeps.refl _ | (apply State.modMemory_after; rotate_left; decide; decide) | (intro) | split
    | dsimp only

theorem State.setLive_after {m' q' : Nat} {u' : State} {s : State} {x : Str} {q : SeqId} {pages : List Nat} (h' : Keeps m' q' u' s)
    (hm' : Nat.lor 0x800000000000000000000000000000000000000000000000000000000000000000000000000000000000000000000000000000000000000000000000000000000000000000000000000000000000 m' = m') (hq' : Nat.lor 0x0 q' = q') : Keeps m' q' u' (s.setLive x q pages) := by
  refine Keeps.after ?_ hm' hq' h'
  clear hm' hq' h'
  unfold State.setLive
  with_reducible repeat' first
    | assumption | exact Keeps.refl _ | (apply Keeps.wr; rotate_left; decide) | apply Keeps.foldl | apply Keeps.foldl_snd
    | apply Keeps.foldl_fst | (intro) | split | dsimp only

theorem State.sweepPages_after {m' q' : Nat} {u' : State} {s : State} {x : Str} {q : SeqId} (h' : Keeps m' q' u' s)
    (hm' : Nat.lor 0x800000000000000000000000000000000000000000000000000000000000000000000000000000000000000000000000000000000000000000000000000000000000000000000000000000000000 m' = m') (hq' : Nat.lor 0x800 q' = q') : Keeps m' q' u' (s.sweepPages x q) := by
  refine Keeps.after ?_ hm' hq' h'
  clear hm' hq' h'
  unfold State.sweepPages
  with_reducible repeat' first
    | assumption | exact Keeps.refl _ | (apply State.modSeq_after; rotate_left; decide; decide)
    | (apply State.setLive_after; rotate_left; decide; decide) | (intro) | split | dsimp only

end Sys2Proof.Machine
end

