-- ==== Sys2Proof/Laws/FrameServo.lean ====
section
/-! SUPPORT. Laws/FrameServo.lean: what each operation of the model keeps, one lemma each: the sequencers, the assist, the law chain, Capo, the spindle and the actuator. The numbers are the masks of
`Keeps`. -/
namespace Sys2Proof.Machine
set_option linter.unreachableTactic false
set_option linter.unusedTactic false

/-! ### Sequencer -/

theorem State.walkTo_after {m' q' : Nat} {u' : State} {s : State} {x : Str} {q : SeqId} {k : Nat} (h' : Keeps m' q' u' s)
    (hm' : Nat.lor 0x0 m' = m') (hq' : Nat.lor 0x800 q' = q') : Keeps m' q' u' (s.walkTo x q k) := by
  refine Keeps.after ?_ hm' hq' h'
  clear hm' hq' h'
  unfold State.walkTo
  with_reducible repeat' first
    | assumption | exact Keeps.refl _ | (apply State.modSeq_after; rotate_left; decide; decide)
    | (apply Keeps.of_eq_fst; assumption) | (apply Keeps.of_eq_snd; assumption) | (intro) | split | dsimp only

theorem State.seqLoad_after {m' q' : Nat} {u' : State} {s : State} {x : Str} {q : SeqId} (h' : Keeps m' q' u' s)
    (hm' : Nat.lor 0x0 m' = m') (hq' : Nat.lor 0x800 q' = q') : Keeps m' q' u' (s.seqLoad x q) := by
  refine Keeps.after ?_ hm' hq' h'
  clear hm' hq' h'
  unfold State.seqLoad
  with_reducible repeat' first
    | assumption | exact Keeps.refl _ | (apply State.modSeq_after; rotate_left; decide; decide)
    | (apply State.walkTo_after; rotate_left; decide; decide) | apply Keeps.foldl | apply Keeps.foldl_snd
    | apply Keeps.foldl_fst | (apply Keeps.of_eq_fst; assumption) | (apply Keeps.of_eq_snd; assumption) | (intro) | split
    | dsimp only

theorem State.seqNextsec_after {m' q' : Nat} {u' : State} {s : State} {x : Str} {q : SeqId} (h' : Keeps m' q' u' s)
    (hm' : Nat.lor 0x0 m' = m') (hq' : Nat.lor 0x800 q' = q') : Keeps m' q' u' (s.seqNextsec x q) := by
  refine Keeps.after ?_ hm' hq' h'
  clear hm' hq' h'
  unfold State.seqNextsec
  with_reducible repeat' first
    | assumption | exact Keeps.refl _ | (apply State.modSeq_after; rotate_left; decide; decide)
    | (apply State.walkTo_after; rotate_left; decide; decide) | (intro) | split | dsimp only

theorem State.seqRewind_after {m' q' : Nat} {u' : State} {s : State} {x : Str} {q : SeqId} (h' : Keeps m' q' u' s)
    (hm' : Nat.lor 0x0 m' = m') (hq' : Nat.lor 0x800 q' = q') : Keeps m' q' u' (s.seqRewind x q) := by
  refine Keeps.after ?_ hm' hq' h'
  clear hm' hq' h'
  unfold State.seqRewind
  with_reducible repeat' first
    | assumption | exact Keeps.refl _ | (apply State.modSeq_after; rotate_left; decide; decide)
    | (apply State.walkTo_after; rotate_left; decide; decide) | (intro) | split | dsimp only

theorem State.popRequest_after {m' q' : Nat} {u' : State} {s : State} {x : Str} {q : SeqId} (h' : Keeps m' q' u' s)
    (hm' : Nat.lor 0x78001800000000000000000000000000000000000000000000000000000000000000000000000000000000000000000000000000000000000000000010000000000000000000000000000000000000 m' = m') (hq' : Nat.lor 0x801 q' = q') : Keeps m' q' u' (s.popRequest x q) := by
  refine Keeps.after ?_ hm' hq' h'
  clear hm' hq' h'
  unfold State.popRequest
  with_reducible repeat' first
    | assumption | exact Keeps.refl _ | (apply State.feed_after; rotate_left; decide; decide)
    | (apply State.modSeq_after; rotate_left; decide; decide) | (intro) | split | dsimp only

theorem State.actVis_after {m' q' : Nat} {u' : State} {s : State} {x : Str} {q : SeqId} {w : VisWrite} (h' : Keeps m' q' u' s)
    (hm' : Nat.lor 0x7f001800000000000000000000000000000000000000000000000000000000000000000000000000000000000000000000000000000000000000000010000000000000000000000000000000000000 m' = m') (hq' : Nat.lor 0x1000801 q' = q') : Keeps m' q' u' (s.actVis x q w) := by
  refine Keeps.after ?_ hm' hq' h'
  clear hm' hq' h'
  unfold State.actVis
  with_reducible repeat' first
    | assumption | exact Keeps.refl _ | (apply Keeps.wr; rotate_left; decide) | (apply Keeps.flagBit; rotate_left; decide)
    | (apply Keeps.bump; rotate_left; decide) | (apply State.emit_after; rotate_left; decide; decide)
    | (apply State.modSeq_after; rotate_left; decide; decide) | (apply State.popRequest_after; rotate_left; decide; decide)
    | (apply State.sqRefresh_after; rotate_left; decide; decide) | (apply Keeps.of_eq_fst; assumption)
    | (apply Keeps.of_eq_snd; assumption) | (intro) | split | dsimp only

theorem State.drainCommit_after {m' q' : Nat} {u' : State} {s : State} {x : Str} {q : SeqId} (h' : Keeps m' q' u' s)
    (hm' : Nat.lor 0x7f001800000000000000000000000000000000000000000000000000000000000000000000000000000000000000000000000000000000000000000010000000000000000000000000000000000000 m' = m') (hq' : Nat.lor 0x1000801 q' = q') : Keeps m' q' u' (s.drainCommit x q) := by
  refine Keeps.after ?_ hm' hq' h'
  clear hm' hq' h'
  unfold State.drainCommit
  with_reducible repeat' first
    | assumption | exact Keeps.refl _ | (apply State.actVis_after; rotate_left; decide; decide)
    | (apply State.modSeq_after; rotate_left; decide; decide) | (apply State.sqRefresh_after; rotate_left; decide; decide)
    | apply Keeps.foldl | apply Keeps.foldl_snd | apply Keeps.foldl_fst | (intro) | split | dsimp only

theorem State.abandon_after {m' q' : Nat} {u' : State} {s : State} {x : Str} {q : SeqId} (h' : Keeps m' q' u' s)
    (hm' : Nat.lor 0xf8011800000000000000000000000000000000000000000000000000000000000000000000000000000000000000000000000000000000000000000000000000000000000000000000000000000000 m' = m') (hq' : Nat.lor 0x800 q' = q') : Keeps m' q' u' (s.abandon x q) := by
  refine Keeps.after ?_ hm' hq' h'
  clear hm' hq' h'
  unfold State.abandon
  with_reducible repeat' first
    | assumption | exact Keeps.refl _ | (apply Keeps.flag; rotate_left; decide) | (apply Keeps.bump; rotate_left; decide)
    | (apply State.modSeq_after; rotate_left; decide; decide) | (apply State.sqRefresh_after; rotate_left; decide; decide)
    | (intro) | split | dsimp only

theorem State.disarmAll_after {m' q' : Nat} {u' : State} {s : State} {x : Str} {q : SeqId} (h' : Keeps m' q' u' s)
    (hm' : Nat.lor 0x0 m' = m') (hq' : Nat.lor 0x800 q' = q') : Keeps m' q' u' (s.disarmAll x q) := by
  refine Keeps.after ?_ hm' hq' h'
  clear hm' hq' h'
  unfold State.disarmAll
  with_reducible repeat' first
    | assumption | exact Keeps.refl _ | (apply State.modSeq_after; rotate_left; decide; decide) | (intro) | split
    | dsimp only

theorem State.enterFault_after {m' q' : Nat} {u' : State} {s : State} {x : Str} {q : SeqId} (h' : Keeps m' q' u' s)
    (hm' : Nat.lor 0x600838000000000000000000178005f00000000000000007f3d01c00008f28000000400000000180009160000000000000000000400000300000000000000000014000000000000001000000000801c000000000000000000000000 m' = m') (hq' : Nat.lor 0x10d78c1 q' = q') : Keeps m' q' u' (s.enterFault x q) := by
  refine Keeps.after ?_ hm' hq' h'
  clear hm' hq' h'
  unfold State.enterFault
  with_reducible repeat' first
    | assumption | exact Keeps.refl _ | (apply Keeps.wr; rotate_left; decide) | (apply Keeps.flag; rotate_left; decide)
    | (apply Keeps.unflag; rotate_left; decide) | (apply State.abortCapture_after; rotate_left; decide; decide)
    | (apply State.cutOpen_after; rotate_left; decide; decide) | (apply State.disarmAll_after; rotate_left; decide; decide)
    | (apply State.emit_after; rotate_left; decide; decide) | (apply State.modSeq_after; rotate_left; decide; decide)
    | (apply State.stringLost_after; rotate_left; decide; decide) | apply Keeps.when | apply Keeps.ite | apply Keeps.ite_fst
    | apply Keeps.ite_snd | (apply Keeps.of_eq_fst; assumption) | (apply Keeps.of_eq_snd; assumption) | (intro) | split
    | dsimp only

theorem State.seqFault_after {m' q' : Nat} {u' : State} {s : State} {x : Str} {q : SeqId} {cause : Nat} (h' : Keeps m' q' u' s)
    (hm' : Nat.lor 0x6008380000000000000000001f8017f00000000000000007f3d01c00008f28000000400000000180009160000000000000000000400000300000000000000000014000000000000001000000000801c000000000000000000000000 m' = m') (hq' : Nat.lor 0x10d78c1 q' = q') : Keeps m' q' u' (s.seqFault x q cause) := by
  refine Keeps.after ?_ hm' hq' h'
  clear hm' hq' h'
  unfold State.seqFault
  with_reducible repeat' first
    | assumption | exact Keeps.refl _ | (apply Keeps.wr; rotate_left; decide)
    | (apply State.abandon_after; rotate_left; decide; decide) | (apply State.enterFault_after; rotate_left; decide; decide)
    | (apply State.modSeq_after; rotate_left; decide; decide) | apply Keeps.ite | apply Keeps.ite_fst | apply Keeps.ite_snd
    | (intro) | split | dsimp only

theorem State.visWrite_after {m' q' : Nat} {u' : State} {s : State} {x : Str} {q : SeqId} {w : VisWrite} (h' : Keeps m' q' u' s)
    (hm' : Nat.lor 0x6008380000000000000000001ff017f00000000000000007f3d01c00008f28000000400000000180009160000000000000000000400000300000000000000000014000000000000001000000000801c000000000000000000000000 m' = m') (hq' : Nat.lor 0x10d78c1 q' = q') : Keeps m' q' u' (s.visWrite x q w) := by
  refine Keeps.after ?_ hm' hq' h'
  clear hm' hq' h'
  unfold State.visWrite
  with_reducible repeat' first
    | assumption | exact Keeps.refl _ | (apply State.actVis_after; rotate_left; decide; decide)
    | (apply State.modSeq_after; rotate_left; decide; decide) | (apply State.seqFault_after; rotate_left; decide; decide)
    | (apply State.sqRefresh_after; rotate_left; decide; decide) | apply Keeps.ite | apply Keeps.ite_fst
    | apply Keeps.ite_snd | (intro) | split | dsimp only

theorem State.seqCommit_after {m' q' : Nat} {u' : State} {s : State} {x : Str} {q : SeqId} (h' : Keeps m' q' u' s)
    (hm' : Nat.lor 0x7f001a00000000000000000000000000000000000000000000000000000000000000000000000000000000000000000000000000000000000000000010000000000000000000000000000000000000 m' = m') (hq' : Nat.lor 0x1000801 q' = q') : Keeps m' q' u' (s.seqCommit x q) := by
  refine Keeps.after ?_ hm' hq' h'
  clear hm' hq' h'
  unfold State.seqCommit
  with_reducible repeat' first
    | assumption | exact Keeps.refl _ | (apply Keeps.flag; rotate_left; decide)
    | (apply State.drainCommit_after; rotate_left; decide; decide) | apply Keeps.ite | apply Keeps.ite_fst
    | apply Keeps.ite_snd | (intro) | split | dsimp only

theorem State.enterHandler_after {m' q' : Nat} {u' : State} {s : State} {x : Str} {q : SeqId} {n : Nat} {fromAbandon : Bool} (h' : Keeps m' q' u' s)
    (hm' : Nat.lor 0x20700000000000000000000000000000000000000000000000000000000000000000000000000000000000000000000000000000000000000000000000000000000000000000000000000000000 m' = m') (hq' : Nat.lor 0x800 q' = q') : Keeps m' q' u' (s.enterHandler x q n fromAbandon) := by
  refine Keeps.after ?_ hm' hq' h'
  clear hm' hq' h'
  unfold State.enterHandler
  with_reducible repeat' first
    | assumption | exact Keeps.refl _ | (apply Keeps.wr; rotate_left; decide) | (apply Keeps.flag; rotate_left; decide)
    | (apply State.modSeq_after; rotate_left; decide; decide) | (intro) | split | dsimp only

theorem State.seqInterrupt_after {m' q' : Nat} {u' : State} {s : State} {x : Str} {q : SeqId} (h' : Keeps m' q' u' s)
    (hm' : Nat.lor 0xf8031f00000000000000000000000000000000000000000000000000000000000000000000000000000000000000000000000000000000000000000000000000000000000000000000000000000000 m' = m') (hq' : Nat.lor 0x800 q' = q') : Keeps m' q' u' (s.seqInterrupt x q) := by
  refine Keeps.after ?_ hm' hq' h'
  clear hm' hq' h'
  unfold State.seqInterrupt
  with_reducible repeat' first
    | assumption | exact Keeps.refl _ | (apply State.abandon_after; rotate_left; decide; decide)
    | (apply State.enterHandler_after; rotate_left; decide; decide) | apply Keeps.ite | apply Keeps.ite_fst
    | apply Keeps.ite_snd | (apply Keeps.of_eq_fst; assumption) | (apply Keeps.of_eq_snd; assumption) | (intro) | split
    | dsimp only

theorem State.leaveRoutine_after {m' q' : Nat} {u' : State} {s : State} {x : Str} {q : SeqId} {ended : Bool} (h' : Keeps m' q' u' s)
    (hm' : Nat.lor 0x700000000000000000000000000000000000000000000000000000000000000000000000000000000000000000000000000000000000000000000000000000000000000000000000000000000 m' = m') (hq' : Nat.lor 0x800 q' = q') : Keeps m' q' u' (s.leaveRoutine x q ended) := by
  refine Keeps.after ?_ hm' hq' h'
  clear hm' hq' h'
  unfold State.leaveRoutine
  with_reducible repeat' first
    | assumption | exact Keeps.refl _ | (apply Keeps.wr; rotate_left; decide) | (apply Keeps.unflag; rotate_left; decide)
    | (apply State.modSeq_after; rotate_left; decide; decide) | apply Keeps.ite | apply Keeps.ite_fst | apply Keeps.ite_snd
    | (intro) | split | dsimp only

theorem State.seqEnd_after {m' q' : Nat} {u' : State} {s : State} {x : Str} {q : SeqId} (h' : Keeps m' q' u' s)
    (hm' : Nat.lor 0x7f001f00000000000000000000000000000000000000000000000000000000000000000000000000000000000000000000000000000000000000000010000000000000000000000000000000000000 m' = m') (hq' : Nat.lor 0x1000801 q' = q') : Keeps m' q' u' (s.seqEnd x q) := by
  refine Keeps.after ?_ hm' hq' h'
  clear hm' hq' h'
  unfold State.seqEnd
  with_reducible repeat' first
    | assumption | exact Keeps.refl _ | (apply State.drainCommit_after; rotate_left; decide; decide)
    | (apply State.leaveRoutine_after; rotate_left; decide; decide) | apply Keeps.ite | apply Keeps.ite_fst
    | apply Keeps.ite_snd | (intro) | split | dsimp only

theorem State.seqResume_after {m' q' : Nat} {u' : State} {s : State} {x : Str} {q : SeqId} (h' : Keeps m' q' u' s)
    (hm' : Nat.lor 0x6008380000000000000000001f8037f00000000000000007f3d01c00008f28000000400000000180009160000000000000000000400000300000000000000000014000000000000001000000000801c000000000000000000000000 m' = m') (hq' : Nat.lor 0x10d78c1 q' = q') : Keeps m' q' u' (s.seqResume x q) := by
  refine Keeps.after ?_ hm' hq' h'
  clear hm' hq' h'
  unfold State.seqResume
  with_reducible repeat' first
    | assumption | exact Keeps.refl _ | (apply Keeps.wr; rotate_left; decide) | (apply Keeps.unflag; rotate_left; decide)
    | (apply State.leaveRoutine_after; rotate_left; decide; decide)
    | (apply State.seqFault_after; rotate_left; decide; decide) | apply Keeps.ite | apply Keeps.ite_fst
    | apply Keeps.ite_snd | (intro) | split | dsimp only

theorem State.seqDrop_after {m' q' : Nat} {u' : State} {s : State} {x : Str} {q : SeqId} (h' : Keeps m' q' u' s)
    (hm' : Nat.lor 0x6008380000000000000000001f8017f00000000000000007f3d01c00008f28000000400000000180009160000000000000000000400000300000000000000000014000000000000001000000000801c000000000000000000000000 m' = m') (hq' : Nat.lor 0x10d78c1 q' = q') : Keeps m' q' u' (s.seqDrop x q) := by
  refine Keeps.after ?_ hm' hq' h'
  clear hm' hq' h'
  unfold State.seqDrop
  with_reducible repeat' first
    | assumption | exact Keeps.refl _ | (apply State.leaveRoutine_after; rotate_left; decide; decide)
    | (apply State.seqFault_after; rotate_left; decide; decide) | apply Keeps.ite | apply Keeps.ite_fst
    | apply Keeps.ite_snd | (intro) | split | dsimp only

theorem State.seqYield_after {m' q' : Nat} {u' : State} {s : State} {x : Str} {q : SeqId} {next : Nat} (h' : Keeps m' q' u' s)
    (hm' : Nat.lor 0x220700000000000000000000000000000000000000000000000000000000000000000000000000000000000000000000000000000000000000000000000000000000000000000000000000000000 m' = m') (hq' : Nat.lor 0x800 q' = q') : Keeps m' q' u' (s.seqYield x q next) := by
  refine Keeps.after ?_ hm' hq' h'
  clear hm' hq' h'
  unfold State.seqYield
  with_reducible repeat' first
    | assumption | exact Keeps.refl _ | (apply Keeps.wr; rotate_left; decide)
    | (apply State.enterHandler_after; rotate_left; decide; decide) | apply Keeps.ite | apply Keeps.ite_fst
    | apply Keeps.ite_snd | (apply Keeps.of_eq_fst; assumption) | (apply Keeps.of_eq_snd; assumption) | (intro) | split
    | dsimp only

theorem State.enterRoutine_after {m' q' : Nat} {u' : State} {s : State} {x : Str} {q : SeqId} {entry : Nat} (h' : Keeps m' q' u' s)
    (hm' : Nat.lor 0x78021b00000000000000000000000000000000000000000000000000000000000000000000000000000000000000000000000000000000000000000000000000000000000000000000000000000000 m' = m') (hq' : Nat.lor 0x800 q' = q') : Keeps m' q' u' (s.enterRoutine x q entry) := by
  refine Keeps.after ?_ hm' hq' h'
  clear hm' hq' h'
  unfold State.enterRoutine
  with_reducible repeat' first
    | assumption | exact Keeps.refl _ | (apply Keeps.wr; rotate_left; decide) | (apply Keeps.unflag; rotate_left; decide)
    | (apply State.modSeq_after; rotate_left; decide; decide) | (apply State.sqRefresh_after; rotate_left; decide; decide)
    | (intro) | split | dsimp only

theorem State.seqDispatch_after {m' q' : Nat} {u' : State} {s : State} {x : Str} {q : SeqId} (h' : Keeps m' q' u' s)
    (hm' : Nat.lor 0x1fffffff0000000000000000000000000000000000000000000000000000000000000000000000000000000000000000000000000000000000000000000000000000000000000000000000000000000 m' = m') (hq' : Nat.lor 0x801 q' = q') : Keeps m' q' u' (s.seqDispatch x q) := by
  refine Keeps.after ?_ hm' hq' h'
  clear hm' hq' h'
  unfold State.seqDispatch
  with_reducible repeat' first
    | assumption | exact Keeps.refl _ | (apply State.boundary_after; rotate_left; decide; decide)
    | (apply State.enterHandler_after; rotate_left; decide; decide)
    | (apply State.enterRoutine_after; rotate_left; decide; decide)
    | (apply State.sweepPages_after; rotate_left; decide; decide) | apply Keeps.when | apply Keeps.ite | apply Keeps.ite_fst
    | apply Keeps.ite_snd | (apply Keeps.of_eq_fst; assumption) | (apply Keeps.of_eq_snd; assumption) | (intro) | split
    | dsimp only

theorem State.seqCapture_after {m' q' : Nat} {u' : State} {s : State} {x : Str} {arg : Nat} (h' : Keeps m' q' u' s)
    (hm' : Nat.lor 0x0 m' = m') (hq' : Nat.lor 0x800 q' = q') : Keeps m' q' u' (s.seqCapture x arg) := by
  refine Keeps.after ?_ hm' hq' h'
  clear hm' hq' h'
  unfold State.seqCapture
  with_reducible repeat' first
    | assumption | exact Keeps.refl _ | (apply State.modSeq_after; rotate_left; decide; decide) | apply Keeps.ite
    | apply Keeps.ite_fst | apply Keeps.ite_snd | (apply Keeps.of_eq_fst; assumption) | (apply Keeps.of_eq_snd; assumption)
    | (intro) | split | dsimp only

theorem State.seqContRead_after {m' q' : Nat} {u' : State} {s : State} {x : Str} (h' : Keeps m' q' u' s)
    (hm' : Nat.lor 0x0 m' = m') (hq' : Nat.lor 0x800 q' = q') : Keeps m' q' u' (s.seqContRead x) := by
  refine Keeps.after ?_ hm' hq' h'
  clear hm' hq' h'
  unfold State.seqContRead
  with_reducible repeat' first
    | assumption | exact Keeps.refl _ | (apply State.modSeq_after; rotate_left; decide; decide)
    | (apply State.modSlot_after; rotate_left; decide; decide) | apply Keeps.ite | apply Keeps.ite_fst | apply Keeps.ite_snd
    | (apply Keeps.of_eq_fst; assumption) | (apply Keeps.of_eq_snd; assumption) | (intro) | split | dsimp only

theorem State.seqContWrite_after {m' q' : Nat} {u' : State} {s : State} {x : Str} (h' : Keeps m' q' u' s)
    (hm' : Nat.lor 0x0 m' = m') (hq' : Nat.lor 0x800 q' = q') : Keeps m' q' u' (s.seqContWrite x) := by
  refine Keeps.after ?_ hm' hq' h'
  clear hm' hq' h'
  unfold State.seqContWrite
  with_reducible repeat' first
    | assumption | exact Keeps.refl _ | (apply State.modSeq_after; rotate_left; decide; decide)
    | (apply State.modWrp_after; rotate_left; decide; decide) | apply Keeps.ite | apply Keeps.ite_fst | apply Keeps.ite_snd
    | (intro) | split | dsimp only

theorem State.seqClose_after {m' q' : Nat} {u' : State} {s : State} {x : Str} (h' : Keeps m' q' u' s)
    (hm' : Nat.lor 0x18000000000000000000000000000000000000000000000000004000003000000000000000000000000000000000000000000000000000000000000000000000000 m' = m') (hq' : Nat.lor 0x800 q' = q') : Keeps m' q' u' (s.seqClose x) := by
  refine Keeps.after ?_ hm' hq' h'
  clear hm' hq' h'
  unfold State.seqClose
  with_reducible repeat' first
    | assumption | exact Keeps.refl _ | (apply State.disarmAll_after; rotate_left; decide; decide)
    | (apply State.giveCredit_after; rotate_left; decide; decide) | (apply State.modRch_after; rotate_left; decide; decide)
    | (apply State.releaseSlot_after; rotate_left; decide; decide) | apply Keeps.ite | apply Keeps.ite_fst
    | apply Keeps.ite_snd | (apply Keeps.of_eq_fst; assumption) | (apply Keeps.of_eq_snd; assumption) | (intro) | split
    | dsimp only

theorem State.seqSetsel_after {m' q' : Nat} {u' : State} {s : State} {x : Str} {arg : Nat} (h' : Keeps m' q' u' s)
    (hm' : Nat.lor 0x200000000000000000000400000000000000000000000000000000000000000000000000000000000000000000000000000000000000000000000000006000001000a04000000000000000000000000000000000000000000000000000000000000000000000 m' = m') (hq' : Nat.lor 0x800 q' = q') : Keeps m' q' u' (s.seqSetsel x arg) := by
  refine Keeps.after ?_ hm' hq' h'
  clear hm' hq' h'
  unfold State.seqSetsel
  with_reducible repeat' first
    | assumption | exact Keeps.refl _ | (apply State.nameSet_after; rotate_left; decide; decide)
    | (apply State.rsqNotReady_after; rotate_left; decide; decide) | apply Keeps.when | apply Keeps.ite
    | apply Keeps.ite_fst | apply Keeps.ite_snd | (apply Keeps.of_eq_fst; assumption) | (apply Keeps.of_eq_snd; assumption)
    | (intro) | split | dsimp only

theorem State.seqStart_after {m' q' : Nat} {u' : State} {s : State} {x : Str} (h' : Keeps m' q' u' s)
    (hm' : Nat.lor 0x400000000000000000000000000000000000000000000000000000000000000000000000000000000000000000000000000 m' = m') (hq' : Nat.lor 0x800 q' = q') : Keeps m' q' u' (s.seqStart x) := by
  refine Keeps.after ?_ hm' hq' h'
  clear hm' hq' h'
  unfold State.seqStart
  with_reducible repeat' first
    | assumption | exact Keeps.refl _ | (apply Keeps.flag; rotate_left; decide)
    | (apply State.modSeq_after; rotate_left; decide; decide) | apply Keeps.ite | apply Keeps.ite_fst | apply Keeps.ite_snd
    | (apply Keeps.of_eq_fst; assumption) | (apply Keeps.of_eq_snd; assumption) | (intro) | split | dsimp only

theorem State.seqWithdraw_after {m' q' : Nat} {u' : State} {s : State} {x : Str} (h' : Keeps m' q' u' s)
    (hm' : Nat.lor 0x0 m' = m') (hq' : Nat.lor 0x800 q' = q') : Keeps m' q' u' (s.seqWithdraw x) := by
  refine Keeps.after ?_ hm' hq' h'
  clear hm' hq' h'
  unfold State.seqWithdraw
  with_reducible repeat' first
    | assumption | exact Keeps.refl _ | (apply State.disarmAll_after; rotate_left; decide; decide) | apply Keeps.ite
    | apply Keeps.ite_fst | apply Keeps.ite_snd | (intro) | split | dsimp only

theorem State.seqUevt_after {m' q' : Nat} {u' : State} {s : State} {x : Str} {arg : Nat} (h' : Keeps m' q' u' s)
    (hm' : Nat.lor 0x0 m' = m') (hq' : Nat.lor 0x800 q' = q') : Keeps m' q' u' (s.seqUevt x arg) := by
  refine Keeps.after ?_ hm' hq' h'
  clear hm' hq' h'
  unfold State.seqUevt
  with_reducible repeat' first
    | assumption | exact Keeps.refl _ | (apply State.modSeq_after; rotate_left; decide; decide) | apply Keeps.when
    | apply Keeps.ite | apply Keeps.ite_fst | apply Keeps.ite_snd | (intro) | split | dsimp only

theorem State.seqSam_after {m' q' : Nat} {u' : State} {s : State} {x : Str} {missed : Bool} (h' : Keeps m' q' u' s)
    (hm' : Nat.lor 0x0 m' = m') (hq' : Nat.lor 0x800 q' = q') : Keeps m' q' u' (s.seqSam x missed) := by
  refine Keeps.after ?_ hm' hq' h'
  clear hm' hq' h'
  unfold State.seqSam
  with_reducible repeat' first
    | assumption | exact Keeps.refl _ | (apply State.modSeq_after; rotate_left; decide; decide) | apply Keeps.foldl
    | apply Keeps.foldl_snd | apply Keeps.foldl_fst | (intro) | split | dsimp only

theorem State.seqWedge_after {m' q' : Nat} {u' : State} {s : State} {x : Str} (h' : Keeps m' q' u' s)
    (hm' : Nat.lor 0x0 m' = m') (hq' : Nat.lor 0x800 q' = q') : Keeps m' q' u' (s.seqWedge x) := by
  refine Keeps.after ?_ hm' hq' h'
  clear hm' hq' h'
  unfold State.seqWedge
  with_reducible repeat' first
    | assumption | exact Keeps.refl _ | (apply State.modSeq_after; rotate_left; decide; decide) | apply Keeps.ite
    | apply Keeps.ite_fst | apply Keeps.ite_snd | apply Keeps.foldl | apply Keeps.foldl_snd | apply Keeps.foldl_fst
    | (intro) | split | dsimp only

theorem State.test_after {m' q' : Nat} {u' : State} {s : State} {x : Str} {q : SeqId} {code srca : Nat} (h' : Keeps m' q' u' s)
    (hm' : Nat.lor 0x0 m' = m') (hq' : Nat.lor 0x800 q' = q') : Keeps m' q' u' (s.test x q code srca).2 := by
  refine Keeps.after ?_ hm' hq' h'
  clear hm' hq' h'
  unfold State.test
  with_reducible repeat' first
    | assumption | exact Keeps.refl _ | (apply State.modSeq_after; rotate_left; decide; decide) | apply Keeps.ite
    | apply Keeps.ite_fst | apply Keeps.ite_snd | (intro) | split | dsimp only

theorem State.seqAlu_after {m' q' : Nat} {u' : State} {s : State} {x : Str} {q : SeqId} {w a b : Nat} (h' : Keeps m' q' u' s)
    (hm' : Nat.lor 0x0 m' = m') (hq' : Nat.lor 0x820 q' = q') : Keeps m' q' u' (s.seqAlu x q w a b) := by
  refine Keeps.after ?_ hm' hq' h'
  clear hm' hq' h'
  unfold State.seqAlu
  with_reducible repeat' first
    | assumption | exact Keeps.refl _ | (apply State.drawn_after; rotate_left; decide; decide)
    | (apply State.modSeq_after; rotate_left; decide; decide) | apply Keeps.ite | apply Keeps.ite_fst | apply Keeps.ite_snd
    | (apply Keeps.of_eq_fst; assumption) | (apply Keeps.of_eq_snd; assumption) | (intro) | split | dsimp only

theorem State.seqTmop_after {m' q' : Nat} {u' : State} {s : State} {x : Str} {q : SeqId} {w a imm : Nat} (h' : Keeps m' q' u' s)
    (hm' : Nat.lor 0x0 m' = m') (hq' : Nat.lor 0x800 q' = q') : Keeps m' q' u' (s.seqTmop x q w a imm) := by
  refine Keeps.after ?_ hm' hq' h'
  clear hm' hq' h'
  unfold State.seqTmop
  with_reducible repeat' first
    | assumption | exact Keeps.refl _ | (apply State.modSeq_after; rotate_left; decide; decide)
    | (apply State.seqNextsec_after; rotate_left; decide; decide)
    | (apply State.seqRewind_after; rotate_left; decide; decide) | apply Keeps.ite | apply Keeps.ite_fst
    | apply Keeps.ite_snd | (apply Keeps.of_eq_fst; assumption) | (apply Keeps.of_eq_snd; assumption) | (intro) | split
    | dsimp only

theorem State.seqChop_after {m' q' : Nat} {u' : State} {s : State} {x : Str} {q : SeqId} {w a : Nat} (h' : Keeps m' q' u' s)
    (hm' : Nat.lor 0x200000000000000000000400000000000000000000000000000000000000000000000000018000000000000000000000000000000400000000000000006004001003a04000000000000000000000000000000000000000000000000000000000000000000000 m' = m') (hq' : Nat.lor 0x800 q' = q') : Keeps m' q' u' (s.seqChop x q w a) := by
  refine Keeps.after ?_ hm' hq' h'
  clear hm' hq' h'
  unfold State.seqChop
  with_reducible repeat' first
    | assumption | exact Keeps.refl _ | (apply State.seqCapture_after; rotate_left; decide; decide)
    | (apply State.seqClose_after; rotate_left; decide; decide)
    | (apply State.seqContRead_after; rotate_left; decide; decide)
    | (apply State.seqContWrite_after; rotate_left; decide; decide)
    | (apply State.seqSetsel_after; rotate_left; decide; decide) | (apply State.seqStart_after; rotate_left; decide; decide)
    | (apply State.seqUevt_after; rotate_left; decide; decide)
    | (apply State.seqWithdraw_after; rotate_left; decide; decide) | apply Keeps.ite | apply Keeps.ite_fst
    | apply Keeps.ite_snd | (apply Keeps.of_eq_fst; assumption) | (apply Keeps.of_eq_snd; assumption) | (intro) | split
    | dsimp only

theorem State.seqReqop_after {m' q' : Nat} {u' : State} {s : State} {x : Str} {q : SeqId} {w imm : Nat} (h' : Keeps m' q' u' s)
    (hm' : Nat.lor 0x6008380000000000000000001ff017f00000000000000007f3d01c00008f28000000400000000180009160000000000000000000400000300000000000000000014000000000000001000000000801c000000000000000000000000 m' = m') (hq' : Nat.lor 0x10d78c1 q' = q') : Keeps m' q' u' (s.seqReqop x q w imm) := by
  refine Keeps.after ?_ hm' hq' h'
  clear hm' hq' h'
  unfold State.seqReqop
  with_reducible repeat' first
    | assumption | exact Keeps.refl _ | (apply State.seqLoad_after; rotate_left; decide; decide)
    | (apply State.visWrite_after; rotate_left; decide; decide) | (apply Keeps.of_eq_fst; assumption)
    | (apply Keeps.of_eq_snd; assumption) | (intro) | split | dsimp only

theorem State.seqOutop_after {m' q' : Nat} {u' : State} {s : State} {x : Str} {q : SeqId} {w a imm : Nat} (h' : Keeps m' q' u' s)
    (hm' : Nat.lor 0x6008380000000000000000001ff017f00000000000000007f3d01c00008f28000000400000000180009160000000000000000000400000300000000000000000014000000000000001000000000801c000000000000000000000000 m' = m') (hq' : Nat.lor 0x10d78c1 q' = q') : Keeps m' q' u' (s.seqOutop x q w a imm) := by
  refine Keeps.after ?_ hm' hq' h'
  clear hm' hq' h'
  unfold State.seqOutop
  with_reducible repeat' first
    | assumption | exact Keeps.refl _ | (apply State.visWrite_after; rotate_left; decide; decide)
    | (apply Keeps.of_eq_fst; assumption) | (apply Keeps.of_eq_snd; assumption) | (intro) | split | dsimp only

theorem State.seqGo_after {m' q' : Nat} {u' : State} {s : State} {x : Str} {q : SeqId} {w next : Nat} (h' : Keeps m' q' u' s)
    (hm' : Nat.lor 0x78221f00000000000000000000000000000000000000000000000000000000000000000000000000000000000000000000000000000000000000000000000000000000000000000000000000000000 m' = m') (hq' : Nat.lor 0x800 q' = q') : Keeps m' q' u' (s.seqGo x q w next) := by
  refine Keeps.after ?_ hm' hq' h'
  clear hm' hq' h'
  unfold State.seqGo
  with_reducible repeat' first
    | assumption | exact Keeps.refl _ | (apply Keeps.wr; rotate_left; decide)
    | (apply State.seqYield_after; rotate_left; decide; decide) | (apply State.sqRefresh_after; rotate_left; decide; decide)
    | apply Keeps.ite | apply Keeps.ite_fst | apply Keeps.ite_snd | (intro) | split | dsimp only

theorem State.seqNext_after {m' q' : Nat} {u' : State} {s : State} {x : Str} {q : SeqId} {w a pc : Nat} {cond : Bool} (h' : Keeps m' q' u' s)
    (hm' : Nat.lor 0x6008380000000000000000001ff237f00000000000000007f3d01c00008f28000000400000000180009160000000000000000000400000300000000000000000014000000000000001000000000801c000000000000000000000000 m' = m') (hq' : Nat.lor 0x10d78c1 q' = q') : Keeps m' q' u' (s.seqNext x q w a pc cond) := by
  refine Keeps.after ?_ hm' hq' h'
  clear hm' hq' h'
  unfold State.seqNext
  with_reducible repeat' first
    | assumption | exact Keeps.refl _ | (apply State.modSeq_after; rotate_left; decide; decide)
    | (apply State.seqDrop_after; rotate_left; decide; decide) | (apply State.seqEnd_after; rotate_left; decide; decide)
    | (apply State.seqFault_after; rotate_left; decide; decide) | (apply State.seqGo_after; rotate_left; decide; decide)
    | (apply State.seqResume_after; rotate_left; decide; decide) | apply Keeps.ite | apply Keeps.ite_fst
    | apply Keeps.ite_snd | (apply Keeps.of_eq_fst; assumption) | (apply Keeps.of_eq_snd; assumption) | (intro) | split
    | dsimp only

theorem State.seqStack_after {m' q' : Nat} {u' : State} {s t : State} {x : Str} {q : SeqId} {w a imm pc : Nat} (e' : s.seqStack x q w a imm pc = .ok t)
    (h' : Keeps m' q' u' s) (hm' : Nat.lor 0x0 m' = m') (hq' : Nat.lor 0x800 q' = q') : Keeps m' q' u' t := by
  refine Keeps.after ?_ hm' hq' h'
  unfold State.seqStack at e'
  dsimp only at e'
  repeat' split at e'
  all_goals first
    | (cases e'; done)
    | (obtain rfl := Except.ok.inj e'; first | exact Keeps.refl _ | exact State.modSeq_after (Keeps.refl _) rfl rfl)

theorem State.issue_after {m' q' : Nat} {u' : State} {s : State} {x : Str} {q : SeqId} {pt : Nat} (h' : Keeps m' q' u' s)
    (hm' : Nat.lor 0x2000000000000000000006008380000000000000000001ff237f00000000000000007f3d01c00008f280000004000000001800091600000000000000006004001003a0400000000000000014000000000000001000000000801c000000000000000000000000 m' = m') (hq' : Nat.lor 0x10d78e1 q' = q') : Keeps m' q' u' (s.issue x q pt) := by
  refine Keeps.after ?_ hm' hq' h'
  clear hm' hq' h'
  unfold State.issue
  with_reducible repeat' first
    | assumption | exact Keeps.refl _ | (apply State.modSeq_after; rotate_left; decide; decide)
    | (apply State.seqAlu_after; rotate_left; decide; decide) | (apply State.seqChop_after; rotate_left; decide; decide)
    | (apply State.seqCommit_after; rotate_left; decide; decide) | (apply State.seqFault_after; rotate_left; decide; decide)
    | (apply State.seqNext_after; rotate_left; decide; decide) | (apply State.seqOutop_after; rotate_left; decide; decide)
    | (apply State.seqReqop_after; rotate_left; decide; decide) | (apply State.seqTmop_after; rotate_left; decide; decide)
    | (apply State.test_after; rotate_left; decide; decide)
    | (apply State.seqStack_after; assumption; rotate_left; decide; decide) | apply Keeps.when | apply Keeps.ite
    | apply Keeps.ite_fst | apply Keeps.ite_snd | (apply Keeps.of_eq_fst; assumption) | (apply Keeps.of_eq_snd; assumption)
    | (intro) | split | dsimp only

theorem State.traced_after {m' q' : Nat} {u' : State} {s : State} {x : Str} {q : SeqId} (h' : Keeps m' q' u' s)
    (hm' : Nat.lor 0x0 m' = m') (hq' : Nat.lor 0x800000 q' = q') : Keeps m' q' u' (s.traced x q) := by
  refine Keeps.after ?_ hm' hq' h'
  clear hm' hq' h'
  unfold State.traced
  with_reducible repeat' first
    | assumption | exact Keeps.refl _ | apply Keeps.ite | apply Keeps.ite_fst | apply Keeps.ite_snd | (intro) | split
    | dsimp only | (apply Keeps.with_bench; rotate_left; decide)

theorem State.microword_after {m' q' : Nat} {u' : State} {s : State} {x : Str} {q : SeqId} {pt : Nat} (h' : Keeps m' q' u' s)
    (hm' : Nat.lor 0x2000000000000000000006008380000000000000000001ff237f00000000000000007f3d01c00008f280000004000000001800091600000000000000006004001003a0400000000000000014000000000000001000000000801c000000000000000000000000 m' = m') (hq' : Nat.lor 0x18d78e1 q' = q') : Keeps m' q' u' (s.microword x q pt) := by
  refine Keeps.after ?_ hm' hq' h'
  clear hm' hq' h'
  unfold State.microword
  with_reducible repeat' first
    | assumption | exact Keeps.refl _ | (apply State.issue_after; rotate_left; decide; decide)
    | (apply State.traced_after; rotate_left; decide; decide) | apply Keeps.ite | apply Keeps.ite_fst | apply Keeps.ite_snd
    | (intro) | split | dsimp only

theorem State.seqGoOp_after {m' q' : Nat} {u' : State} {s : State} {x : Str} {q : SeqId} (h' : Keeps m' q' u' s)
    (hm' : Nat.lor 0x100000000000000000000000000000000000000000000000000000000000000000000000000000000000000000000000000000000000000000000000000000000000000000000000000000000 m' = m') (hq' : Nat.lor 0x0 q' = q') : Keeps m' q' u' (s.seqGoOp x q) := by
  refine Keeps.after ?_ hm' hq' h'
  clear hm' hq' h'
  unfold State.seqGoOp
  with_reducible repeat' first
    | assumption | exact Keeps.refl _ | (apply Keeps.wr; rotate_left; decide) | apply Keeps.ite | apply Keeps.ite_fst
    | apply Keeps.ite_snd | (intro) | split | dsimp only

theorem State.seqStop_after {m' q' : Nat} {u' : State} {s : State} {x : Str} {q : SeqId} (h' : Keeps m' q' u' s)
    (hm' : Nat.lor 0x100000000000000000000000000000000000000000000000000000000000000000000000000000000000000000000000000000000000000000000000000000000000000000000000000000000 m' = m') (hq' : Nat.lor 0x800 q' = q') : Keeps m' q' u' (s.seqStop x q) := by
  refine Keeps.after ?_ hm' hq' h'
  clear hm' hq' h'
  unfold State.seqStop
  with_reducible repeat' first
    | assumption | exact Keeps.refl _ | (apply Keeps.wr; rotate_left; decide)
    | (apply State.modSeq_after; rotate_left; decide; decide) | apply Keeps.ite | apply Keeps.ite_fst | apply Keeps.ite_snd
    | (intro) | split | dsimp only

theorem State.seqRst_after {m' q' : Nat} {u' : State} {s : State} {x : Str} {q : SeqId} (h' : Keeps m' q' u' s)
    (hm' : Nat.lor 0x78003900000000000000000000000000000000000000000000000000000000000000000000000000000000000000000000000000000000000000000000000000000000000000000000000000000000 m' = m') (hq' : Nat.lor 0x800 q' = q') : Keeps m' q' u' (s.seqRst x q) := by
  refine Keeps.after ?_ hm' hq' h'
  clear hm' hq' h'
  unfold State.seqRst
  with_reducible repeat' first
    | assumption | exact Keeps.refl _ | (apply Keeps.wr; rotate_left; decide)
    | (apply State.modSeq_after; rotate_left; decide; decide) | (apply State.sqRefresh_after; rotate_left; decide; decide)
    | apply Keeps.ite | apply Keeps.ite_fst | apply Keeps.ite_snd | (intro) | split | dsimp only

theorem State.microwordWrite_after {m' q' : Nat} {u' : State} {s : State} {x : Str} {q : SeqId} {a off v : Nat} (h' : Keeps m' q' u' s)
    (hm' : Nat.lor 0x8000000000000000000000000000000000000000000000000000000000000000000000000000000000000000000000000000000000000000000000000000000000000000000000000000000000 m' = m') (hq' : Nat.lor 0x2000c q' = q') : Keeps m' q' u' (s.microwordWrite x q a off v) := by
  refine Keeps.after ?_ hm' hq' h'
  clear hm' hq' h'
  unfold State.microwordWrite
  with_reducible repeat' first
    | assumption | exact Keeps.refl _ | (apply Keeps.flag; rotate_left; decide)
    | (apply State.controlWritten_after; rotate_left; decide; decide) | apply Keeps.ite | apply Keeps.ite_fst
    | apply Keeps.ite_snd | (intro) | split | dsimp only | (apply Keeps.with_control; rotate_left; decide)
    | (apply Keeps.with_staged; rotate_left; decide) | (apply Keeps.with_control_staged; rotate_left; decide; decide)

theorem State.seqAt_after {m' q' : Nat} {u' : State} {s : State} {x : Str} {q : SeqId} {pt : Nat} (h' : Keeps m' q' u' s)
    (hm' : Nat.lor 0x0 m' = m') (hq' : Nat.lor 0x800 q' = q') : Keeps m' q' u' (s.seqAt x q pt) := by
  refine Keeps.after ?_ hm' hq' h'
  clear hm' hq' h'
  unfold State.seqAt
  with_reducible repeat' first
    | assumption | exact Keeps.refl _ | (apply State.modSeq_after; rotate_left; decide; decide) | (intro) | split
    | dsimp only

/-! ### Touchdown -/

theorem State.modCal_after {m' q' : Nat} {u' : State} {s : State} {f : Cal → Cal} (h' : Keeps m' q' u' s)
    (hm' : Nat.lor 0x0 m' = m') (hq' : Nat.lor 0x100000 q' = q') : Keeps m' q' u' (s.modCal f) := by
  refine Keeps.after ?_ hm' hq' h'
  clear hm' hq' h'
  unfold State.modCal
  with_reducible repeat' first
    | assumption | exact Keeps.refl _ | (intro) | split | dsimp only | (apply Keeps.with_cal; rotate_left; decide)

theorem State.modRun_after {m' q' : Nat} {u' : State} {s : State} {c : CalRun} {f : CalRun → CalRun} (h' : Keeps m' q' u' s)
    (hm' : Nat.lor 0x0 m' = m') (hq' : Nat.lor 0x100000 q' = q') : Keeps m' q' u' (s.modRun c f) := by
  refine Keeps.after ?_ hm' hq' h'
  clear hm' hq' h'
  unfold State.modRun
  with_reducible repeat' first
    | assumption | exact Keeps.refl _ | (apply State.modCal_after; rotate_left; decide; decide) | apply Keeps.ite
    | apply Keeps.ite_fst | apply Keeps.ite_snd | (intro) | split | dsimp only

theorem State.calEnd_after {m' q' : Nat} {u' : State} {s : State} {c : CalRun} {st : CStat} {results : List Nat } (h' : Keeps m' q' u' s)
    (hm' : Nat.lor 0x6100000000000000000000000000000000000000000000000000000000000000000000000000000000000000000000000000000000000000000000000000000000000000000000000000000000000000000000000000000000000000000000 m' = m') (hq' : Nat.lor 0x1142000 q' = q') : Keeps m' q' u' (s.calEnd c st results) := by
  refine Keeps.after ?_ hm' hq' h'
  clear hm' hq' h'
  unfold State.calEnd
  with_reducible repeat' first
    | assumption | exact Keeps.refl _ | (apply Keeps.wr; rotate_left; decide) | (apply Keeps.flag; rotate_left; decide)
    | (apply Keeps.setTo; rotate_left; decide) | (apply State.modCal_after; rotate_left; decide; decide)
    | (apply State.reply_after; rotate_left; decide; decide) | (apply Keeps.of_eq_fst; assumption)
    | (apply Keeps.of_eq_snd; assumption) | (intro) | split | dsimp only

theorem State.tdRelease_after {m' q' : Nat} {u' : State} {s : State} {x : Str} (h' : Keeps m' q' u' s)
    (hm' : Nat.lor 0x4000000000000000000000000000000000000000000000000000000000 m' = m') (hq' : Nat.lor 0x1 q' = q') : Keeps m' q' u' (s.tdRelease x) := by
  refine Keeps.after ?_ hm' hq' h'
  clear hm' hq' h'
  unfold State.tdRelease
  with_reducible repeat' first
    | assumption | exact Keeps.refl _ | (apply Keeps.wr; rotate_left; decide)
    | (apply State.shadowWr_after; rotate_left; decide; decide) | (intro) | split | dsimp only

theorem State.writeHtrRd_after {m' q' : Nat} {u' : State} {s : State} {x : Str} {h v : Nat} (h' : Keeps m' q' u' s)
    (hm' : Nat.lor 0x400100000000000000000000000000000000000000000000000000000000000 m' = m') (hq' : Nat.lor 0x0 q' = q') : Keeps m' q' u' (s.writeHtrRd x h v) := by
  refine Keeps.after ?_ hm' hq' h'
  clear hm' hq' h'
  unfold State.writeHtrRd
  with_reducible repeat' first
    | assumption | exact Keeps.refl _ | (apply Keeps.wr; rotate_left; decide) | apply Keeps.when | (intro) | split
    | dsimp only

theorem State.tdContact_after {m' q' : Nat} {u' : State} {s : State} {x : Str} {c : CalRun} {heater : Nat} (h' : Keeps m' q' u' s)
    (hm' : Nat.lor 0x6100000000000000000000000000000000000000000000000000000000000000000000000000000000000000000000000000000000000000000000000000000400704000000000000000000000000000000000000000000000000000000000 m' = m') (hq' : Nat.lor 0x1142001 q' = q') : Keeps m' q' u' (s.tdContact x c heater) := by
  refine Keeps.after ?_ hm' hq' h'
  clear hm' hq' h'
  unfold State.tdContact
  with_reducible repeat' first
    | assumption | exact Keeps.refl _ | (apply Keeps.wr; rotate_left; decide)
    | (apply State.calEnd_after; rotate_left; decide; decide) | (apply State.modRun_after; rotate_left; decide; decide)
    | (apply State.tdRelease_after; rotate_left; decide; decide)
    | (apply State.writeHtrRd_after; rotate_left; decide; decide) | apply Keeps.ite | apply Keeps.ite_fst
    | apply Keeps.ite_snd | (intro) | split | dsimp only

theorem State.tdGuard_after {m' q' : Nat} {u' : State} {s : State} {x : Str} (h' : Keeps m' q' u' s)
    (hm' : Nat.lor 0x6100000000000000000000000000000000000000000000000000000000000000000000000000000000000000000000000000000000000000000000000000000400704000000000000000000000000000000000000000000000000000000000 m' = m') (hq' : Nat.lor 0x1142001 q' = q') : Keeps m' q' u' (s.tdGuard x) := by
  refine Keeps.after ?_ hm' hq' h'
  clear hm' hq' h'
  unfold State.tdGuard
  with_reducible repeat' first
    | assumption | exact Keeps.refl _ | (apply State.tdContact_after; rotate_left; decide; decide) | apply Keeps.ite
    | apply Keeps.ite_fst | apply Keeps.ite_snd | (apply Keeps.of_eq_fst; assumption) | (apply Keeps.of_eq_snd; assumption)
    | (intro) | split | dsimp only

/-! ### Assist -/

theorem State.showSoft_after {m' q' : Nat} {u' : State} {s : State} {x : Str} (h' : Keeps m' q' u' s)
    (hm' : Nat.lor 0x200000000000000000000000000000000000000000000000000000 m' = m') (hq' : Nat.lor 0x0 q' = q') : Keeps m' q' u' (s.showSoft x) := by
  refine Keeps.after ?_ hm' hq' h'
  clear hm' hq' h'
  unfold State.showSoft
  with_reducible repeat' first
    | assumption | exact Keeps.refl _ | (apply Keeps.setTo; rotate_left; decide) | (intro) | split | dsimp only

theorem State.selectHead_after {m' q' : Nat} {u' : State} {s : State} {x : Str} {h : Nat} (h' : Keeps m' q' u' s)
    (hm' : Nat.lor 0x280000000000000000000000000000000000000000000000000000 m' = m') (hq' : Nat.lor 0x1000800 q' = q') : Keeps m' q' u' (s.selectHead x h) := by
  refine Keeps.after ?_ hm' hq' h'
  clear hm' hq' h'
  unfold State.selectHead
  with_reducible repeat' first
    | assumption | exact Keeps.refl _ | (apply Keeps.wr; rotate_left; decide)
    | (apply State.modAe_after; rotate_left; decide; decide) | (apply State.sendFrame_after; rotate_left; decide; decide)
    | (apply State.showSoft_after; rotate_left; decide; decide) | (intro) | split | dsimp only

theorem State.queueIdle_after {m' q' : Nat} {u' : State} {s : State} {x : Str} (h' : Keeps m' q' u' s)
    (hm' : Nat.lor 0x0 m' = m') (hq' : Nat.lor 0x800 q' = q') : Keeps m' q' u' (s.queueIdle x) := by
  refine Keeps.after ?_ hm' hq' h'
  clear hm' hq' h'
  unfold State.queueIdle
  with_reducible repeat' first
    | assumption | exact Keeps.refl _ | (apply State.modAe_after; rotate_left; decide; decide) | (intro) | split
    | dsimp only

theorem State.enterArming_after {m' q' : Nat} {u' : State} {s : State} {x : Str} (h' : Keeps m' q' u' s)
    (hm' : Nat.lor 0x40000000000000000000000000000000000000000000000000000 m' = m') (hq' : Nat.lor 0x800 q' = q') : Keeps m' q' u' (s.enterArming x) := by
  refine Keeps.after ?_ hm' hq' h'
  clear hm' hq' h'
  unfold State.enterArming
  with_reducible repeat' first
    | assumption | exact Keeps.refl _ | (apply Keeps.wr; rotate_left; decide)
    | (apply State.modAe_after; rotate_left; decide; decide) | (apply State.queueIdle_after; rotate_left; decide; decide)
    | (intro) | split | dsimp only

theorem State.enterRead_after {m' q' : Nat} {u' : State} {s : State} {x : Str} (h' : Keeps m' q' u' s)
    (hm' : Nat.lor 0x40000000000000000000000000000000000000000000000000000 m' = m') (hq' : Nat.lor 0x800 q' = q') : Keeps m' q' u' (s.enterRead x) := by
  refine Keeps.after ?_ hm' hq' h'
  clear hm' hq' h'
  unfold State.enterRead
  with_reducible repeat' first
    | assumption | exact Keeps.refl _ | (apply Keeps.wr; rotate_left; decide)
    | (apply State.modAe_after; rotate_left; decide; decide) | (intro) | split | dsimp only

theorem State.aeLoad_after {m' q' : Nat} {u' : State} {s : State} {x : Str} (h' : Keeps m' q' u' s)
    (hm' : Nat.lor 0x40000000000000000000000000000000000000000000000000000 m' = m') (hq' : Nat.lor 0x800 q' = q') : Keeps m' q' u' (s.aeLoad x) := by
  refine Keeps.after ?_ hm' hq' h'
  clear hm' hq' h'
  unfold State.aeLoad
  with_reducible repeat' first
    | assumption | exact Keeps.refl _ | (apply State.enterRead_after; rotate_left; decide; decide) | apply Keeps.when
    | (intro) | split | dsimp only

theorem State.ledgerHead_after {m' q' : Nat} {u' : State} {s : State} {x : Str} {gateCycles h : Nat} (h' : Keeps m' q' u' s)
    (hm' : Nat.lor 0x100000000000000000000000000000000000000000000000000000000000000 m' = m') (hq' : Nat.lor 0x1000800 q' = q') : Keeps m' q' u' (s.ledgerHead x gateCycles h) := by
  refine Keeps.after ?_ hm' hq' h'
  clear hm' hq' h'
  unfold State.ledgerHead
  with_reducible repeat' first
    | assumption | exact Keeps.refl _ | (apply Keeps.wr; rotate_left; decide)
    | (apply State.emit_after; rotate_left; decide; decide) | (apply State.modAe_after; rotate_left; decide; decide)
    | apply Keeps.when | apply Keeps.ite | apply Keeps.ite_fst | apply Keeps.ite_snd | (intro) | split | dsimp only

theorem State.ledgers_after {m' q' : Nat} {u' : State} {s : State} {x : Str} {gateCycles : Nat} (h' : Keeps m' q' u' s)
    (hm' : Nat.lor 0x100000000200000000000000000000000000000000000000000000000000000 m' = m') (hq' : Nat.lor 0x1000800 q' = q') : Keeps m' q' u' (s.ledgers x gateCycles) := by
  refine Keeps.after ?_ hm' hq' h'
  clear hm' hq' h'
  unfold State.ledgers
  with_reducible repeat' first
    | assumption | exact Keeps.refl _ | (apply State.ledgerHead_after; rotate_left; decide; decide)
    | (apply State.modAe_after; rotate_left; decide; decide) | (apply State.showSoft_after; rotate_left; decide; decide)
    | apply Keeps.foldl | apply Keeps.foldl_snd | apply Keeps.foldl_fst | (intro) | split | dsimp only

theorem State.slotUpdate_after {m' q' : Nat} {u' : State} {s : State} {x : Str} {gate fret : Nat} (h' : Keeps m' q' u' s)
    (hm' : Nat.lor 0xc000000000000000000000000000000000000000000000000000000 m' = m') (hq' : Nat.lor 0x1000800 q' = q') : Keeps m' q' u' (s.slotUpdate x gate fret) := by
  refine Keeps.after ?_ hm' hq' h'
  clear hm' hq' h'
  unfold State.slotUpdate
  with_reducible repeat' first
    | assumption | exact Keeps.refl _ | (apply Keeps.flag; rotate_left; decide)
    | (apply State.modAe_after; rotate_left; decide; decide) | (apply State.sendUpdate_after; rotate_left; decide; decide)
    | apply Keeps.when | apply Keeps.ite | apply Keeps.ite_fst | apply Keeps.ite_snd | (intro) | split | dsimp only

theorem State.aeBoundary_after {m' q' : Nat} {u' : State} {s : State} {x : Str} (h' : Keeps m' q' u' s)
    (hm' : Nat.lor 0x7ffffffffffc000000000000000000000000000000000000000000000000000 m' = m') (hq' : Nat.lor 0x801 q' = q') : Keeps m' q' u' (s.aeBoundary x) := by
  refine Keeps.after ?_ hm' hq' h'
  clear hm' hq' h'
  unfold State.aeBoundary
  with_reducible repeat' first
    | assumption | exact Keeps.refl _ | (apply State.boundary_after; rotate_left; decide; decide)
    | (apply State.modAe_after; rotate_left; decide; decide) | (intro) | split | dsimp only

theorem State.slotEvents_after {m' q' : Nat} {u' : State} {s : State} {x : Str} {cap : Option Nat} (h' : Keeps m' q' u' s)
    (hm' : Nat.lor 0x178001800000000000000000000008000000000000000000000000000000000000000000000000000000000000000000000001c00440000000000000010000000000000000000000000000000000000 m' = m') (hq' : Nat.lor 0x68c1 q' = q') : Keeps m' q' u' (s.slotEvents x cap) := by
  refine Keeps.after ?_ hm' hq' h'
  clear hm' hq' h'
  unfold State.slotEvents
  with_reducible repeat' first
    | assumption | exact Keeps.refl _ | (apply Keeps.wr; rotate_left; decide)
    | (apply State.assistAbort_after; rotate_left; decide; decide)
    | (apply State.enterArming_after; rotate_left; decide; decide)
    | (apply State.enterRead_after; rotate_left; decide; decide) | (apply State.modAe_after; rotate_left; decide; decide)
    | apply Keeps.ite | apply Keeps.ite_fst | apply Keeps.ite_snd | (apply Keeps.of_eq_fst; assumption)
    | (apply Keeps.of_eq_snd; assumption) | (intro) | split | dsimp only

theorem State.flyAverage_after {m' q' : Nat} {u' : State} {s : State} {x : Str} {gate : Nat} (h' : Keeps m' q' u' s)
    (hm' : Nat.lor 0x0 m' = m') (hq' : Nat.lor 0x800 q' = q') : Keeps m' q' u' (s.flyAverage x gate) := by
  refine Keeps.after ?_ hm' hq' h'
  clear hm' hq' h'
  unfold State.flyAverage
  with_reducible repeat' first
    | assumption | exact Keeps.refl _ | (apply State.modAe_after; rotate_left; decide; decide) | apply Keeps.ite
    | apply Keeps.ite_fst | apply Keeps.ite_snd | (intro) | split | dsimp only

theorem State.assistSlot_after {m' q' : Nat} {u' : State} {s : State} {x : Str} {gate fret : Nat} (h' : Keeps m' q' u' s)
    (hm' : Nat.lor 0x1780018000000000000000000000080000000000000000000000000000000000000000000000000000000000000000007ffffffffffc000000000000010000000000000000000000000000000000000 m' = m') (hq' : Nat.lor 0x10068c1 q' = q') : Keeps m' q' u' (s.assistSlot x gate fret) := by
  refine Keeps.after ?_ hm' hq' h'
  clear hm' hq' h'
  unfold State.assistSlot
  with_reducible repeat' first
    | assumption | exact Keeps.refl _ | (apply State.aeBoundary_after; rotate_left; decide; decide)
    | (apply State.flyAverage_after; rotate_left; decide; decide) | (apply State.ledgers_after; rotate_left; decide; decide)
    | (apply State.modAe_after; rotate_left; decide; decide) | (apply State.slotEvents_after; rotate_left; decide; decide)
    | (apply State.slotUpdate_after; rotate_left; decide; decide) | apply Keeps.when | apply Keeps.ite | apply Keeps.ite_fst
    | apply Keeps.ite_snd | (intro) | split | dsimp only

theorem State.headHot_after {m' q' : Nat} {u' : State} {s : State} {x : Str} {h : Nat} (h' : Keeps m' q' u' s)
    (hm' : Nat.lor 0x178001800000000000000000000008000000000000000000000000000000000000000000000000000000000000000000000000000000000000000000010000000000000000000000000000000000000 m' = m') (hq' : Nat.lor 0x6801 q' = q') : Keeps m' q' u' (s.headHot x h) := by
  refine Keeps.after ?_ hm' hq' h'
  clear hm' hq' h'
  unfold State.headHot
  with_reducible repeat' first
    | assumption | exact Keeps.refl _ | (apply State.modAe_after; rotate_left; decide; decide)
    | (apply State.withdrawHead_after; rotate_left; decide; decide) | apply Keeps.when | (intro) | split | dsimp only

theorem State.headTemp_after {m' q' : Nat} {u' : State} {s : State} {x : Str} {h temp : Nat} (h' : Keeps m' q' u' s)
    (hm' : Nat.lor 0x178001800000000000000000000008000000000000000000000000000000000000000000000000000000000000000000200000000000000000000000010000000000000000000000000000000000000 m' = m') (hq' : Nat.lor 0x6801 q' = q') : Keeps m' q' u' (s.headTemp x h temp) := by
  refine Keeps.after ?_ hm' hq' h'
  clear hm' hq' h'
  unfold State.headTemp
  with_reducible repeat' first
    | assumption | exact Keeps.refl _ | (apply Keeps.wr; rotate_left; decide)
    | (apply State.headHot_after; rotate_left; decide; decide) | apply Keeps.when | (intro) | split | dsimp only

theorem State.touchGuard_after {m' q' : Nat} {u' : State} {s : State} {x : Str} {ecs : Nat} (h' : Keeps m' q' u' s)
    (hm' : Nat.lor 0x6100000000000000000000000000000000000000000000000000000000000000000000000000000000000000000000000000000000000000000000000000000400704010040000000000000000000000000000000000000000000000000000 m' = m') (hq' : Nat.lor 0x1142801 q' = q') : Keeps m' q' u' (s.touchGuard x ecs) := by
  refine Keeps.after ?_ hm' hq' h'
  clear hm' hq' h'
  unfold State.touchGuard
  with_reducible repeat' first
    | assumption | exact Keeps.refl _ | (apply Keeps.flag; rotate_left; decide)
    | (apply State.enterRead_after; rotate_left; decide; decide) | (apply State.modAe_after; rotate_left; decide; decide)
    | (apply State.tdGuard_after; rotate_left; decide; decide) | apply Keeps.when | (intro) | split | dsimp only

theorem State.replyData_after {m' q' : Nat} {u' : State} {s : State} {x : Str} {w : Nat} {f : Option NutFrame} (h' : Keeps m' q' u' s)
    (hm' : Nat.lor 0x6100000000000000000000000000000178001800000000000000000000008000000000000000000000000000000000000000000000000000000000000000620600704010040000000000000010000000000000000000000000000000000000 m' = m') (hq' : Nat.lor 0x1146801 q' = q') : Keeps m' q' u' (s.replyData x w f) := by
  refine Keeps.after ?_ hm' hq' h'
  clear hm' hq' h'
  unfold State.replyData
  with_reducible repeat' first
    | assumption | exact Keeps.refl _ | (apply Keeps.wr; rotate_left; decide) | (apply Keeps.flag; rotate_left; decide)
    | (apply State.emit_after; rotate_left; decide; decide) | (apply State.headHot_after; rotate_left; decide; decide)
    | (apply State.headTemp_after; rotate_left; decide; decide) | (apply State.modAe_after; rotate_left; decide; decide)
    | (apply State.touchGuard_after; rotate_left; decide; decide) | apply Keeps.when | apply Keeps.ite | apply Keeps.ite_fst
    | apply Keeps.ite_snd | (apply Keeps.of_eq_fst; assumption) | (apply Keeps.of_eq_snd; assumption) | (intro) | split
    | dsimp only

theorem State.replyAck_after {m' q' : Nat} {u' : State} {s : State} {x : Str} {f : NutFrame} {ok : Bool} (h' : Keeps m' q' u' s)
    (hm' : Nat.lor 0x1c0000000000000000000000000000000000000000000000000000000000000000 m' = m') (hq' : Nat.lor 0x800 q' = q') : Keeps m' q' u' (s.replyAck x f ok) := by
  refine Keeps.after ?_ hm' hq' h'
  clear hm' hq' h'
  unfold State.replyAck
  with_reducible repeat' first
    | assumption | exact Keeps.refl _ | (apply Keeps.flag; rotate_left; decide) | (apply Keeps.unflag; rotate_left; decide)
    | (apply State.modAe_after; rotate_left; decide; decide) | apply Keeps.ite | apply Keeps.ite_fst | apply Keeps.ite_snd
    | (apply Keeps.of_eq_fst; assumption) | (apply Keeps.of_eq_snd; assumption) | (intro) | split | dsimp only

theorem State.nutReply_after {m' q' : Nat} {u' : State} {s : State} {x : Str} {w : Nat} (h' : Keeps m' q' u' s)
    (hm' : Nat.lor 0x61000000000000000000000000000001780018000000000000000000000080000000000000000000000000000000000000000000000000000000000000037e0600704010040000000000000010000000000000000000000000000000000000 m' = m') (hq' : Nat.lor 0x1146801 q' = q') : Keeps m' q' u' (s.nutReply x w) := by
  refine Keeps.after ?_ hm' hq' h'
  clear hm' hq' h'
  unfold State.nutReply
  with_reducible repeat' first
    | assumption | exact Keeps.refl _ | (apply Keeps.bump; rotate_left; decide)
    | (apply State.modAe_after; rotate_left; decide; decide) | (apply State.replyAck_after; rotate_left; decide; decide)
    | (apply State.replyData_after; rotate_left; decide; decide) | apply Keeps.when | (apply Keeps.of_eq_fst; assumption)
    | (apply Keeps.of_eq_snd; assumption) | (intro) | split | dsimp only

theorem State.backgroundFrame_after {m' q' : Nat} {u' : State} {s : State} {x : Str} (h' : Keeps m' q' u' s)
    (hm' : Nat.lor 0x0 m' = m') (hq' : Nat.lor 0x1000800 q' = q') : Keeps m' q' u' (s.backgroundFrame x) := by
  refine Keeps.after ?_ hm' hq' h'
  clear hm' hq' h'
  unfold State.backgroundFrame
  with_reducible repeat' first
    | assumption | exact Keeps.refl _ | (apply State.modAe_after; rotate_left; decide; decide)
    | (apply State.sendFrame_after; rotate_left; decide; decide) | apply Keeps.ite | apply Keeps.ite_fst
    | apply Keeps.ite_snd | (apply Keeps.of_eq_fst; assumption) | (apply Keeps.of_eq_snd; assumption) | (intro) | split
    | dsimp only

theorem State.bgGo_after {m' q' : Nat} {u' : State} {s : State} {x : Str} (h' : Keeps m' q' u' s)
    (hm' : Nat.lor 0x140000000000000000000000000000000000000000000000000000000000000000 m' = m') (hq' : Nat.lor 0x800 q' = q') : Keeps m' q' u' (s.bgGo x) := by
  refine Keeps.after ?_ hm' hq' h'
  clear hm' hq' h'
  unfold State.bgGo
  with_reducible repeat' first
    | assumption | exact Keeps.refl _ | (apply Keeps.flag; rotate_left; decide)
    | (apply State.modAe_after; rotate_left; decide; decide) | apply Keeps.ite | apply Keeps.ite_fst | apply Keeps.ite_snd
    | (intro) | split | dsimp only

theorem State.linkFailure_after {m' q' : Nat} {u' : State} {s : State} {x : Str} (h' : Keeps m' q' u' s)
    (hm' : Nat.lor 0x600838000000000000000000178001800000000000000007f3d01c00008f28000000400000000180009160000000000000000000400000300000000000000000094000000000000001000000000801c000000000000000000000000 m' = m') (hq' : Nat.lor 0x10d78c1 q' = q') : Keeps m' q' u' (s.linkFailure x) := by
  refine Keeps.after ?_ hm' hq' h'
  clear hm' hq' h'
  unfold State.linkFailure
  with_reducible repeat' first
    | assumption | exact Keeps.refl _ | (apply Keeps.flag; rotate_left; decide)
    | (apply State.modAe_after; rotate_left; decide; decide) | (apply State.stringLost_after; rotate_left; decide; decide)
    | apply Keeps.when | (intro) | split | dsimp only

theorem State.hotClear_after {m' q' : Nat} {u' : State} {s : State} {x : Str} {h : Nat} (h' : Keeps m' q' u' s)
    (hm' : Nat.lor 0x0 m' = m') (hq' : Nat.lor 0x800 q' = q') : Keeps m' q' u' (s.hotClear x h) := by
  refine Keeps.after ?_ hm' hq' h'
  clear hm' hq' h'
  unfold State.hotClear
  with_reducible repeat' first
    | assumption | exact Keeps.refl _ | (apply State.modAe_after; rotate_left; decide; decide) | apply Keeps.when | (intro)
    | split | dsimp only

theorem State.wrArm_after {m' q' : Nat} {u' : State} {s : State} {x : Str} {on : Bool} (h' : Keeps m' q' u' s)
    (hm' : Nat.lor 0x4000000000000000000000000000000000000000000000000000 m' = m') (hq' : Nat.lor 0x1 q' = q') : Keeps m' q' u' (s.wrArm x on).2 := by
  refine Keeps.after ?_ hm' hq' h'
  clear hm' hq' h'
  unfold State.wrArm
  with_reducible repeat' first
    | assumption | exact Keeps.refl _ | (apply Keeps.wr; rotate_left; decide)
    | (apply State.shadowWr_after; rotate_left; decide; decide) | apply Keeps.ite | apply Keeps.ite_fst
    | apply Keeps.ite_snd | (intro) | split | dsimp only

theorem State.abortClr_after {m' q' : Nat} {u' : State} {s : State} {x : Str} (h' : Keeps m' q' u' s)
    (hm' : Nat.lor 0x2040000000000000000000000000000000000000000000000000000 m' = m') (hq' : Nat.lor 0x800 q' = q') : Keeps m' q' u' (s.abortClr x) := by
  refine Keeps.after ?_ hm' hq' h'
  clear hm' hq' h'
  unfold State.abortClr
  with_reducible repeat' first
    | assumption | exact Keeps.refl _ | (apply Keeps.flag; rotate_left; decide)
    | (apply State.enterRead_after; rotate_left; decide; decide) | apply Keeps.ite | apply Keeps.ite_fst
    | apply Keeps.ite_snd | (intro) | split | dsimp only

theorem State.warmUp_after {m' q' : Nat} {u' : State} {s : State} {x : Str} (h' : Keeps m' q' u' s)
    (hm' : Nat.lor 0x40000000000000000000000000000000000000000000000000000 m' = m') (hq' : Nat.lor 0x1000800 q' = q') : Keeps m' q' u' (s.warmUp x) := by
  refine Keeps.after ?_ hm' hq' h'
  clear hm' hq' h'
  unfold State.warmUp
  with_reducible repeat' first
    | assumption | exact Keeps.refl _ | (apply Keeps.wr; rotate_left; decide)
    | (apply State.emit_after; rotate_left; decide; decide) | (apply State.modAe_after; rotate_left; decide; decide)
    | apply Keeps.when | (intro) | split | dsimp only

theorem State.armLapse_after {m' q' : Nat} {u' : State} {s : State} {x : Str} (h' : Keeps m' q' u' s)
    (hm' : Nat.lor 0x1044000000000000000000000000000000000000000000000000000 m' = m') (hq' : Nat.lor 0x801 q' = q') : Keeps m' q' u' (s.armLapse x) := by
  refine Keeps.after ?_ hm' hq' h'
  clear hm' hq' h'
  unfold State.armLapse
  with_reducible repeat' first
    | assumption | exact Keeps.refl _ | (apply Keeps.flag; rotate_left; decide) | (apply Keeps.unflag; rotate_left; decide)
    | (apply State.enterRead_after; rotate_left; decide; decide)
    | (apply State.shadowDrop_after; rotate_left; decide; decide) | apply Keeps.when | (intro) | split | dsimp only

theorem State.flyUpdate_after {m' q' : Nat} {u' : State} {s : State} {x : Str} (h' : Keeps m' q' u' s)
    (hm' : Nat.lor 0x400000000000000000000000000000000000000000000000000000000000000 m' = m') (hq' : Nat.lor 0x800 q' = q') : Keeps m' q' u' (s.flyUpdate x) := by
  refine Keeps.after ?_ hm' hq' h'
  clear hm' hq' h'
  unfold State.flyUpdate
  with_reducible repeat' first
    | assumption | exact Keeps.refl _ | (apply Keeps.wr; rotate_left; decide)
    | (apply State.modAe_after; rotate_left; decide; decide) | apply Keeps.when | (intro) | split | dsimp only

/-! ### LawChain -/

theorem State.putTableWord_after {m' q' : Nat} {u' : State} {s : State} {x : Str} {t w v : Nat} (h' : Keeps m' q' u' s)
    (hm' : Nat.lor 0xe00000000000000000000000000000000000000 m' = m') (hq' : Nat.lor 0x0 q' = q') : Keeps m' q' u' (s.putTableWord x t w v) := by
  refine Keeps.after ?_ hm' hq' h'
  clear hm' hq' h'
  unfold State.putTableWord
  with_reducible repeat' first
    | assumption | exact Keeps.refl _ | (apply Keeps.wr; rotate_left; decide)
    | (apply Keeps.wr; rotate_left; (simp only [tableReg]; repeat' split) <;> decide) | (intro) | split | dsimp only

theorem State.refreshCyc_after {m' q' : Nat} {u' : State} {s : State} {x : Str} (h' : Keeps m' q' u' s)
    (hm' : Nat.lor 0x400000000000000000000000000000000000 m' = m') (hq' : Nat.lor 0x0 q' = q') : Keeps m' q' u' (s.refreshCyc x) := by
  refine Keeps.after ?_ hm' hq' h'
  clear hm' hq' h'
  unfold State.refreshCyc
  with_reducible repeat' first
    | assumption | exact Keeps.refl _ | (apply Keeps.wr; rotate_left; decide) | (intro) | split | dsimp only

theorem State.tableLoad_after {m' q' : Nat} {u' : State} {s : State} {x : Str} {t : Nat} (h' : Keeps m' q' u' s)
    (hm' : Nat.lor 0xe00400000000000000000000000000000000000 m' = m') (hq' : Nat.lor 0x0 q' = q') : Keeps m' q' u' (s.tableLoad x t) := by
  refine Keeps.after ?_ hm' hq' h'
  clear hm' hq' h'
  unfold State.tableLoad
  with_reducible repeat' first
    | assumption | exact Keeps.refl _ | (apply State.putTableWord_after; rotate_left; decide; decide)
    | (apply State.refreshCyc_after; rotate_left; decide; decide) | apply Keeps.when | apply Keeps.ite | apply Keeps.ite_fst
    | apply Keeps.ite_snd | (intro) | split | dsimp only

theorem Chain.putSt_keeps (u : State) (c : Chain) (x : Str) (t : Nat) (d : Section) (k : Nat) (acc : Int) (h : Keeps 0xe00000000000000000000000000000000000000 0x20022 u c.s) :
    Keeps 0xe00000000000000000000000000000000000000 0x20022 u (c.putSt x t d k acc).s := State.putTableWord_after h rfl rfl

theorem Chain.foldl_keeps {α : Type} (u : State) (f : Chain → α → Chain) (hf : ∀ c a, Keeps 0xe00000000000000000000000000000000000000 0x20022 u c.s → Keeps 0xe00000000000000000000000000000000000000 0x20022 u (f c a).s)
    (l : List α) (c : Chain) (h : Keeps 0xe00000000000000000000000000000000000000 0x20022 u c.s) : Keeps 0xe00000000000000000000000000000000000000 0x20022 u (l.foldl f c).s := by
  induction l generalizing c with
  | nil => exact h
  | cons a l ih => exact ih _ (hf c a h)

theorem Chain.ss_keeps (u : State) (c : Chain) (x : Str) (t : Nat) (d : Section) (h : Keeps 0xe00000000000000000000000000000000000000 0x20022 u c.s) :
    Keeps 0xe00000000000000000000000000000000000000 0x20022 u (c.ss x t d).s := by
  unfold Chain.ss
  dsimp only
  apply Chain.foldl_keeps
  · intro c a hc; exact Chain.putSt_keeps _ _ _ _ _ _ _ hc
  · apply Chain.foldl_keeps
    · intro c a hc; exact hc
    · exact h

theorem Chain.xfer_keeps (u : State) (c : Chain) (d : Section) (h : Keeps 0xe00000000000000000000000000000000000000 0x20022 u c.s) : Keeps 0xe00000000000000000000000000000000000000 0x20022 u (c.xfer d).s := by
  unfold Chain.xfer
  split
  rename_i out ddr place count _
  dsimp only
  generalize (if ddr then _ else _ : Nat) = a
  generalize (if ddr then _ else _ : MemRegion) = m
  generalize (if out then _ else _ : Nat) = f
  apply Chain.foldl_keeps _ _ _ _ _ h
  intro c k hc
  split
  · exact hc
  · split
    · exact State.wordWritten_after (State.writeMem_after 4 hc rfl rfl) rfl rfl
    · exact State.readMem_after hc rfl rfl

theorem Chain.run_keeps (u : State) (c : Chain) (x : Str) (t : Nat) (d : Section) (h : Keeps 0xe00000000000000000000000000000000000000 0x20022 u c.s) :
    Keeps 0xe00000000000000000000000000000000000000 0x20022 u (Chain.run x t c d).s := by
  unfold Chain.run
  split
  · exact Chain.putSt_keeps _ _ _ _ _ _ _ (Chain.putSt_keeps _ _ _ _ _ _ _ h)
  · exact Chain.ss_keeps _ _ _ _ _ h
  · exact h
  · exact h
  · exact h
  · exact Chain.ss_keeps _ _ _ _ _ h
  · exact Chain.xfer_keeps _ _ _ h
  · exact h

theorem State.runChain_after {m' q' : Nat} {u' : State} {s : State} {x : Str} {sig : List Int} {pred : Int} (h' : Keeps m' q' u' s)
    (hm' : Nat.lor 0xe00000000000000000000000000000000000000 m' = m') (hq' : Nat.lor 0x20022 q' = q') : Keeps m' q' u' (s.runChain x sig pred).s := by
  refine Keeps.after ?_ hm' hq' h'
  unfold State.runChain
  exact Chain.foldl_keeps _ _ (fun c d => Chain.run_keeps _ c _ _ d) _ _ (Keeps.refl _)

theorem State.runOptional_after {m' q' : Nat} {u' : State} {s : State} {x : Str} {n : Nat} (h' : Keeps m' q' u' s)
    (hm' : Nat.lor 0xe00800000002000000000000000000000000000 m' = m') (hq' : Nat.lor 0x20822 q' = q') : Keeps m' q' u' (s.runOptional x n) := by
  refine Keeps.after ?_ hm' hq' h'
  unfold State.runOptional
  dsimp only
  refine Keeps.wr (Keeps.when ?_ fun u hu => hu.flag rfl) rfl
  refine State.modSce_after ?_ rfl rfl
  exact (Chain.foldl_keeps s _ (fun c d => Chain.run_keeps _ c _ _ d) _ _ (Keeps.refl _)).mono rfl rfl

/-! ### Capo -/

theorem State.publishSkew_after {m' q' : Nat} {u' : State} {s : State} {x : Str} {v : Nat} (h' : Keeps m' q' u' s)
    (hm' : Nat.lor 0x1c000 m' = m') (hq' : Nat.lor 0x0 q' = q') : Keeps m' q' u' (s.publishSkew x v) := by
  refine Keeps.after ?_ hm' hq' h'
  clear hm' hq' h'
  unfold State.publishSkew
  with_reducible repeat' first
    | assumption | exact Keeps.refl _ | (apply Keeps.wr; rotate_left; decide) | (intro) | split | dsimp only

theorem State.refreshSkewNs_after {m' q' : Nat} {u' : State} {s : State} (h' : Keeps m' q' u' s)
    (hm' : Nat.lor 0x10000 m' = m') (hq' : Nat.lor 0x0 q' = q') : Keeps m' q' u' (s.refreshSkewNs) := by
  refine Keeps.after ?_ hm' hq' h'
  clear hm' hq' h'
  unfold State.refreshSkewNs
  with_reducible repeat' first
    | assumption | exact Keeps.refl _ | (apply Keeps.wr; rotate_left; decide) | apply Keeps.onStr | apply Keeps.foldl
    | apply Keeps.foldl_snd | apply Keeps.foldl_fst | (intro) | split | dsimp only

theorem State.republish_after {m' q' : Nat} {u' : State} {s : State} {r : Str} (h' : Keeps m' q' u' s)
    (hm' : Nat.lor 0x1000001c000 m' = m') (hq' : Nat.lor 0xb00 q' = q') : Keeps m' q' u' (s.republish r) := by
  refine Keeps.after ?_ hm' hq' h'
  clear hm' hq' h'
  unfold State.republish
  with_reducible repeat' first
    | assumption | exact Keeps.refl _ | (apply Keeps.wr; rotate_left; decide)
    | (apply State.modSkew_after; rotate_left; decide; decide)
    | (apply State.publishSkew_after; rotate_left; decide; decide) | apply Keeps.when | apply Keeps.onStr
    | apply Keeps.foldl | apply Keeps.foldl_snd | apply Keeps.foldl_fst | (intro) | split | dsimp only
    | (apply Keeps.with_capo; rotate_left; decide) | (apply Keeps.with_fret; rotate_left; decide)
    | (apply Keeps.with_fret_capo; rotate_left; decide; decide)

theorem State.skewSample_after {m' q' : Nat} {u' : State} {s : State} {x : Str} {t : Nat} (h' : Keeps m' q' u' s)
    (hm' : Nat.lor 0x1000001c000 m' = m') (hq' : Nat.lor 0xb00 q' = q') : Keeps m' q' u' (s.skewSample x t) := by
  refine Keeps.after ?_ hm' hq' h'
  clear hm' hq' h'
  unfold State.skewSample
  with_reducible repeat' first
    | assumption | exact Keeps.refl _ | (apply State.modSkew_after; rotate_left; decide; decide)
    | (apply State.republish_after; rotate_left; decide; decide) | apply Keeps.when | apply Keeps.ite | apply Keeps.ite_fst
    | apply Keeps.ite_snd | (apply Keeps.of_eq_fst; assumption) | (apply Keeps.of_eq_snd; assumption) | (intro) | split
    | dsimp only

theorem State.skewAverageEnd_after {m' q' : Nat} {u' : State} {s : State} {x : Str} (h' : Keeps m' q' u' s)
    (hm' : Nat.lor 0x1fe00 m' = m') (hq' : Nat.lor 0x900 q' = q') : Keeps m' q' u' (s.skewAverageEnd x) := by
  refine Keeps.after ?_ hm' hq' h'
  clear hm' hq' h'
  unfold State.skewAverageEnd
  with_reducible repeat' first
    | assumption | exact Keeps.refl _ | (apply Keeps.flagBit; rotate_left; decide)
    | (apply State.modSkew_after; rotate_left; decide; decide)
    | (apply State.publishSkew_after; rotate_left; decide; decide)
    | (apply State.setReference_after; rotate_left; decide; decide) | apply Keeps.when | apply Keeps.ite
    | apply Keeps.ite_fst | apply Keeps.ite_snd | (apply Keeps.of_eq_fst; assumption) | (apply Keeps.of_eq_snd; assumption)
    | (intro) | split | dsimp only

theorem State.remeasure_after {m' q' : Nat} {u' : State} {s : State} {mask : Nat} (h' : Keeps m' q' u' s)
    (hm' : Nat.lor 0x200 m' = m') (hq' : Nat.lor 0x800 q' = q') : Keeps m' q' u' (s.remeasure mask) := by
  refine Keeps.after ?_ hm' hq' h'
  clear hm' hq' h'
  unfold State.remeasure
  with_reducible repeat' first
    | assumption | exact Keeps.refl _ | (apply Keeps.unflagBit; rotate_left; decide)
    | (apply State.modSkew_after; rotate_left; decide; decide) | apply Keeps.when | apply Keeps.foldl
    | apply Keeps.foldl_snd | apply Keeps.foldl_fst | (intro) | split | dsimp only

theorem State.setCapoState_after {m' q' : Nat} {u' : State} {s : State} {st : Nat} (h' : Keeps m' q' u' s)
    (hm' : Nat.lor 0x18000000 m' = m') (hq' : Nat.lor 0x0 q' = q') : Keeps m' q' u' (s.setCapoState st) := by
  refine Keeps.after ?_ hm' hq' h'
  clear hm' hq' h'
  unfold State.setCapoState
  with_reducible repeat' first
    | assumption | exact Keeps.refl _ | (apply Keeps.wr; rotate_left; decide) | (apply Keeps.setTo; rotate_left; decide)
    | (intro) | split | dsimp only

theorem State.modCapo_after {m' q' : Nat} {u' : State} {s : State} {f : Capo → Capo} (h' : Keeps m' q' u' s)
    (hm' : Nat.lor 0x0 m' = m') (hq' : Nat.lor 0x200 q' = q') : Keeps m' q' u' (s.modCapo f) := by
  refine Keeps.after ?_ hm' hq' h'
  clear hm' hq' h'
  unfold State.modCapo
  with_reducible repeat' first
    | assumption | exact Keeps.refl _ | (intro) | split | dsimp only | (apply Keeps.with_capo; rotate_left; decide)

theorem State.restartMeasure_after {m' q' : Nat} {u' : State} {s : State} (h' : Keeps m' q' u' s)
    (hm' : Nat.lor 0x0 m' = m') (hq' : Nat.lor 0x200 q' = q') : Keeps m' q' u' (s.restartMeasure) := by
  refine Keeps.after ?_ hm' hq' h'
  clear hm' hq' h'
  unfold State.restartMeasure
  with_reducible repeat' first
    | assumption | exact Keeps.refl _ | (apply State.modCapo_after; rotate_left; decide; decide) | (intro) | split
    | dsimp only

theorem State.loadSetpt_after {m' q' : Nat} {u' : State} {s : State} (h' : Keeps m' q' u' s)
    (hm' : Nat.lor 0x2000000000000 m' = m') (hq' : Nat.lor 0x1 q' = q') : Keeps m' q' u' (s.loadSetpt) := by
  refine Keeps.after ?_ hm' hq' h'
  clear hm' hq' h'
  unfold State.loadSetpt
  with_reducible repeat' first
    | assumption | exact Keeps.refl _ | (apply Keeps.wr; rotate_left; decide)
    | (apply State.shadowDrop_after; rotate_left; decide; decide) | (intro) | split | dsimp only

theorem State.enterCapo_after {m' q' : Nat} {u' : State} {s : State} {st : Nat} (h' : Keeps m' q' u' s)
    (hm' : Nat.lor 0x100000000000000000000000000000000000000000000000000000000000000000000000000000000000000000000000000000000000000000018000000 m' = m') (hq' : Nat.lor 0x2000 q' = q') : Keeps m' q' u' (s.enterCapo st) := by
  refine Keeps.after ?_ hm' hq' h'
  clear hm' hq' h'
  unfold State.enterCapo
  with_reducible repeat' first
    | assumption | exact Keeps.refl _ | (apply State.setCapoState_after; rotate_left; decide; decide)
    | (apply State.suspendDeadlines_after; rotate_left; decide; decide) | apply Keeps.when | (intro) | split | dsimp only

theorem State.capoDisarm_after {m' q' : Nat} {u' : State} {s : State} (h' : Keeps m' q' u' s)
    (hm' : Nat.lor 0x100000000000000000000000000000000000000000000000000000000000000000000100000000000000000000000000000000000000002000038000000 m' = m') (hq' : Nat.lor 0x2201 q' = q') : Keeps m' q' u' (s.capoDisarm) := by
  refine Keeps.after ?_ hm' hq' h'
  clear hm' hq' h'
  unfold State.capoDisarm
  with_reducible repeat' first
    | assumption | exact Keeps.refl _ | (apply State.capoReleaseAll_after; rotate_left; decide; decide)
    | (apply State.enterCapo_after; rotate_left; decide; decide)
    | (apply State.loadSetpt_after; rotate_left; decide; decide) | (apply State.modCapo_after; rotate_left; decide; decide)
    | apply Keeps.when | (intro) | split | dsimp only | (apply Keeps.with_capo; rotate_left; decide)

theorem State.capoSpeFault_after {m' q' : Nat} {u' : State} {s : State} (h' : Keeps m' q' u' s)
    (hm' : Nat.lor 0x100000000000000000000000000000000000000000000000000000000000000000000100000000000000000000000000000000000000002000438000000 m' = m') (hq' : Nat.lor 0x2201 q' = q') : Keeps m' q' u' (s.capoSpeFault) := by
  refine Keeps.after ?_ hm' hq' h'
  clear hm' hq' h'
  unfold State.capoSpeFault
  with_reducible repeat' first
    | assumption | exact Keeps.refl _ | (apply Keeps.flag; rotate_left; decide)
    | (apply State.capoReleaseAll_after; rotate_left; decide; decide)
    | (apply State.enterCapo_after; rotate_left; decide; decide)
    | (apply State.loadSetpt_after; rotate_left; decide; decide) | (apply State.modCapo_after; rotate_left; decide; decide)
    | apply Keeps.when | (intro) | split | dsimp only

theorem State.capoArm_after {m' q' : Nat} {u' : State} {s : State} (h' : Keeps m' q' u' s)
    (hm' : Nat.lor 0x64218000000 m' = m') (hq' : Nat.lor 0x200 q' = q') : Keeps m' q' u' (s.capoArm).2 := by
  refine Keeps.after ?_ hm' hq' h'
  clear hm' hq' h'
  unfold State.capoArm
  with_reducible repeat' first
    | assumption | exact Keeps.refl _ | (apply Keeps.wr; rotate_left; decide) | (apply Keeps.flag; rotate_left; decide)
    | (apply State.modCapo_after; rotate_left; decide; decide)
    | (apply State.restartMeasure_after; rotate_left; decide; decide)
    | (apply State.setCapoState_after; rotate_left; decide; decide) | apply Keeps.ite | apply Keeps.ite_fst
    | apply Keeps.ite_snd | (intro) | split | dsimp only

theorem State.frameEdge_after {m' q' : Nat} {u' : State} {s : State} {t : Nat} (h' : Keeps m' q' u' s)
    (hm' : Nat.lor 0x28000000000 m' = m') (hq' : Nat.lor 0x2200 q' = q') : Keeps m' q' u' (s.frameEdge t) := by
  refine Keeps.after ?_ hm' hq' h'
  clear hm' hq' h'
  unfold State.frameEdge
  with_reducible repeat' first
    | assumption | exact Keeps.refl _ | (apply Keeps.wr; rotate_left; decide) | (apply Keeps.wrapInc; rotate_left; decide)
    | (apply State.countFrame_after; rotate_left; decide; decide) | (apply State.modCapo_after; rotate_left; decide; decide)
    | apply Keeps.when | apply Keeps.ite | apply Keeps.ite_fst | apply Keeps.ite_snd | (intro) | split | dsimp only

theorem State.enterSlewing_after {m' q' : Nat} {u' : State} {s : State} (h' : Keeps m' q' u' s)
    (hm' : Nat.lor 0x8000000100000000000000000000091600000000000000000000000000000000000000000000100000000000000000000000000000000000000000000038000000 m' = m') (hq' : Nat.lor 0x6a00 q' = q') : Keeps m' q' u' (s.enterSlewing) := by
  refine Keeps.after ?_ hm' hq' h'
  clear hm' hq' h'
  unfold State.enterSlewing
  with_reducible repeat' first
    | assumption | exact Keeps.refl _ | (apply State.capoInhibitAll_after; rotate_left; decide; decide)
    | (apply State.enterCapo_after; rotate_left; decide; decide) | (apply State.modCapo_after; rotate_left; decide; decide)
    | (intro) | split | dsimp only

theorem State.holdLocked_after {m' q' : Nat} {u' : State} {s : State} {w : Reg} (h' : Keeps m' q' u' s)
    (hm' : Nat.testBit m' w.ctorIdx = true ∧ Nat.lor 0x18000000 m' = m') (hq' : Nat.lor 0x200 q' = q') :
    Keeps m' q' u' (s.holdLocked w) := by
  unfold State.holdLocked
  refine State.setCapoState_after ?_ hm'.2 (show Nat.lor 0x0 q' = q' from Nat.zero_or q')
  exact Keeps.with_capo (t := s.flag w) (h'.flag hm'.1) (bit_of hq' rfl)

theorem State.ratioBoundary_after {m' q' : Nat} {u' : State} {s : State} (h' : Keeps m' q' u' s)
    (hm' : Nat.lor 0x80000001000000000000000000000916000000000000000000000000000000000000000000001000000000000000000000000000000000000000000ffffffe0000 m' = m') (hq' : Nat.lor 0x6a01 q' = q') : Keeps m' q' u' (s.ratioBoundary) := by
  refine Keeps.after ?_ hm' hq' h'
  clear hm' hq' h'
  unfold State.ratioBoundary
  with_reducible repeat' first
    | assumption | exact Keeps.refl _ | (apply Keeps.wr; rotate_left; decide) | (apply Keeps.flag; rotate_left; decide)
    | (apply State.boundary_after; rotate_left; decide; decide)
    | (apply State.enterSlewing_after; rotate_left; decide; decide)
    | (apply State.holdLocked_after; rotate_left; decide; decide)
    | (apply State.restartMeasure_after; rotate_left; decide; decide)
    | (apply State.shadowDrop_after; rotate_left; decide; decide) | apply Keeps.ite | apply Keeps.ite_fst
    | apply Keeps.ite_snd | (apply Keeps.of_eq_fst; assumption) | (apply Keeps.of_eq_snd; assumption) | (intro) | split
    | dsimp only

theorem State.compareTarget_after {m' q' : Nat} {u' : State} {s : State} (h' : Keeps m' q' u' s)
    (hm' : Nat.lor 0x2000000000 m' = m') (hq' : Nat.lor 0x200 q' = q') : Keeps m' q' u' (s.compareTarget) := by
  refine Keeps.after ?_ hm' hq' h'
  clear hm' hq' h'
  unfold State.compareTarget
  with_reducible repeat' first
    | assumption | exact Keeps.refl _ | (apply Keeps.wr; rotate_left; decide)
    | (apply State.modCapo_after; rotate_left; decide; decide) | apply Keeps.when | (intro) | split | dsimp only

theorem State.capoEdge_after {m' q' : Nat} {u' : State} {s : State} {t : Nat} (h' : Keeps m' q' u' s)
    (hm' : Nat.lor 0x80000001000000000000000000000916000000000000000000000000000000000000000000001000000000000000000000000000000000000000000ffffffe0000 m' = m') (hq' : Nat.lor 0x6a01 q' = q') : Keeps m' q' u' (s.capoEdge t) := by
  refine Keeps.after ?_ hm' hq' h'
  clear hm' hq' h'
  unfold State.capoEdge
  with_reducible repeat' first
    | assumption | exact Keeps.refl _ | (apply Keeps.wr; rotate_left; decide) | (apply Keeps.flag; rotate_left; decide)
    | (apply Keeps.bump; rotate_left; decide) | (apply State.compareTarget_after; rotate_left; decide; decide)
    | (apply State.enterCapo_after; rotate_left; decide; decide)
    | (apply State.frameEdge_after; rotate_left; decide; decide) | (apply State.modCapo_after; rotate_left; decide; decide)
    | (apply State.ratioBoundary_after; rotate_left; decide; decide)
    | (apply State.restartMeasure_after; rotate_left; decide; decide) | apply Keeps.when | apply Keeps.ite
    | apply Keeps.ite_fst | apply Keeps.ite_snd | apply Keeps.foldl | apply Keeps.foldl_snd | apply Keeps.foldl_fst
    | (intro) | split | dsimp only

theorem State.capoInput_after {m' q' : Nat} {u' : State} {s : State} {e : InputEdge} (h' : Keeps m' q' u' s)
    (hm' : Nat.lor 0x80000001000000000000000000000916000000000000000000000000000000000000000000001000000000000000000000000000000000000000000ffffffe0000 m' = m') (hq' : Nat.lor 0x6a01 q' = q') : Keeps m' q' u' (s.capoInput e) := by
  refine Keeps.after ?_ hm' hq' h'
  clear hm' hq' h'
  unfold State.capoInput
  with_reducible repeat' first
    | assumption | exact Keeps.refl _ | (apply State.capoEdge_after; rotate_left; decide; decide) | apply Keeps.when
    | (intro) | split | dsimp only

theorem State.capoPredicted_after {m' q' : Nat} {u' : State} {s : State} {time : Nat} (h' : Keeps m' q' u' s)
    (hm' : Nat.lor 0x8000000000000000000000000000000000000000000000000000000000000000000000000000000000000000000000000000000000000000000000000000000000000000000000000000000000000000000000000000000028000000000 m' = m') (hq' : Nat.lor 0x2210 q' = q') : Keeps m' q' u' (s.capoPredicted time) := by
  refine Keeps.after ?_ hm' hq' h'
  clear hm' hq' h'
  unfold State.capoPredicted
  with_reducible repeat' first
    | assumption | exact Keeps.refl _ | (apply State.at_after; rotate_left; decide; decide)
    | (apply State.frameEdge_after; rotate_left; decide; decide) | (apply State.modCapo_after; rotate_left; decide; decide)
    | apply Keeps.when | apply Keeps.ite | apply Keeps.ite_fst | apply Keeps.ite_snd | (apply Keeps.of_eq_fst; assumption)
    | (apply Keeps.of_eq_snd; assumption) | (intro) | split | dsimp only

theorem State.capoLost_after {m' q' : Nat} {u' : State} {s : State} (h' : Keeps m' q' u' s)
    (hm' : Nat.lor 0x80000000000000000000000000000000000000000000000000000000000000001000000000000000000000000000000000000000000000000000000000000000000000000000000000000000000000000000000000000000000d8000000 m' = m') (hq' : Nat.lor 0x2210 q' = q') : Keeps m' q' u' (s.capoLost) := by
  refine Keeps.after ?_ hm' hq' h'
  clear hm' hq' h'
  unfold State.capoLost
  with_reducible repeat' first
    | assumption | exact Keeps.refl _ | (apply Keeps.flag; rotate_left; decide)
    | (apply State.at_after; rotate_left; decide; decide) | (apply State.enterCapo_after; rotate_left; decide; decide)
    | (apply State.holdLocked_after; rotate_left; decide; decide) | (apply State.modCapo_after; rotate_left; decide; decide)
    | (apply State.restartMeasure_after; rotate_left; decide; decide) | apply Keeps.ite | apply Keeps.ite_fst
    | apply Keeps.ite_snd | (apply Keeps.of_eq_fst; assumption) | (apply Keeps.of_eq_snd; assumption) | (intro) | split
    | dsimp only

theorem State.capoMeasureDone_after {m' q' : Nat} {u' : State} {s : State} (h' : Keeps m' q' u' s)
    (hm' : Nat.lor 0x80000001000000000000000000000916000000000000000000000000000000000000000000001000000000000000000000000000000000000000000030b8000000 m' = m') (hq' : Nat.lor 0x6a00 q' = q') : Keeps m' q' u' (s.capoMeasureDone) := by
  refine Keeps.after ?_ hm' hq' h'
  clear hm' hq' h'
  unfold State.capoMeasureDone
  with_reducible repeat' first
    | assumption | exact Keeps.refl _ | (apply Keeps.wr; rotate_left; decide) | (apply Keeps.flag; rotate_left; decide)
    | (apply State.enterSlewing_after; rotate_left; decide; decide)
    | (apply State.restartMeasure_after; rotate_left; decide; decide) | apply Keeps.ite | apply Keeps.ite_fst
    | apply Keeps.ite_snd | (intro) | split | dsimp only

theorem State.capoStepEvent_after {m' q' : Nat} {u' : State} {s : State} {tracking : Int} (h' : Keeps m' q' u' s)
    (hm' : Nat.lor 0x80000001000000000000000000000916000000000000000000000000000000000000000000001000000000000000000000000000000000000000000100f8000000 m' = m') (hq' : Nat.lor 0x6a00 q' = q') : Keeps m' q' u' (s.capoStepEvent tracking) := by
  refine Keeps.after ?_ hm' hq' h'
  clear hm' hq' h'
  unfold State.capoStepEvent
  with_reducible repeat' first
    | assumption | exact Keeps.refl _ | (apply Keeps.wr; rotate_left; decide) | (apply Keeps.flag; rotate_left; decide)
    | (apply State.enterCapo_after; rotate_left; decide; decide)
    | (apply State.enterSlewing_after; rotate_left; decide; decide)
    | (apply State.holdLocked_after; rotate_left; decide; decide) | (apply State.modCapo_after; rotate_left; decide; decide)
    | apply Keeps.when | apply Keeps.ite | apply Keeps.ite_fst | apply Keeps.ite_snd | (apply Keeps.of_eq_fst; assumption)
    | (apply Keeps.of_eq_snd; assumption) | (intro) | split | dsimp only

theorem State.capoStep_after {m' q' : Nat} {u' : State} {s : State} {offset tracking : Int} (h' : Keeps m' q' u' s)
    (hm' : Nat.lor 0x80000001000000000000000000000916000000000000000000000000000000000000000000001000000000000000000000000000000000000000020140f8000000 m' = m') (hq' : Nat.lor 0x6a01 q' = q') : Keeps m' q' u' (s.capoStep offset tracking) := by
  refine Keeps.after ?_ hm' hq' h'
  clear hm' hq' h'
  unfold State.capoStep
  with_reducible repeat' first
    | assumption | exact Keeps.refl _ | (apply Keeps.wr; rotate_left; decide)
    | (apply State.capoReleaseAll_after; rotate_left; decide; decide)
    | (apply State.capoStepEvent_after; rotate_left; decide; decide)
    | (apply State.loadSetpt_after; rotate_left; decide; decide) | (apply State.modCapo_after; rotate_left; decide; decide)
    | apply Keeps.when | apply Keeps.ite | apply Keeps.ite_fst | apply Keeps.ite_snd | (apply Keeps.of_eq_fst; assumption)
    | (apply Keeps.of_eq_snd; assumption) | (intro) | split | dsimp only

theorem State.capoLocked_after {m' q' : Nat} {u' : State} {s : State} (h' : Keeps m' q' u' s)
    (hm' : Nat.lor 0x1800000000000000000000000000000000000000000000000400009f380000004000000000000000000000000000000000000000000000000000000000000000000000000000000000000000000000000000000000018000000 m' = m') (hq' : Nat.lor 0x10c22c0 q' = q') : Keeps m' q' u' (s.capoLocked) := by
  refine Keeps.after ?_ hm' hq' h'
  clear hm' hq' h'
  unfold State.capoLocked
  with_reducible repeat' first
    | assumption | exact Keeps.refl _ | (apply State.modCapo_after; rotate_left; decide; decide)
    | (apply State.resumeDeadlines_after; rotate_left; decide; decide)
    | (apply State.setCapoState_after; rotate_left; decide; decide) | apply Keeps.when | (intro) | split | dsimp only

theorem State.capoHoldover_after {m' q' : Nat} {u' : State} {s : State} (h' : Keeps m' q' u' s)
    (hm' : Nat.lor 0x100000000000000000000000000000000000000000000000000000000000000000000000000000000000000000000000000000000000000000018000000 m' = m') (hq' : Nat.lor 0x2200 q' = q') : Keeps m' q' u' (s.capoHoldover) := by
  refine Keeps.after ?_ hm' hq' h'
  clear hm' hq' h'
  unfold State.capoHoldover
  with_reducible repeat' first
    | assumption | exact Keeps.refl _ | (apply State.enterCapo_after; rotate_left; decide; decide)
    | (apply State.modCapo_after; rotate_left; decide; decide)
    | (apply State.restartMeasure_after; rotate_left; decide; decide) | apply Keeps.when | (intro) | split | dsimp only

/-! ### Spindle -/

theorem State.modSpe_after {m' q' : Nat} {u' : State} {s : State} {f : Spe → Spe} (h' : Keeps m' q' u' s)
    (hm' : Nat.lor 0x0 m' = m') (hq' : Nat.lor 0x400 q' = q') : Keeps m' q' u' (s.modSpe f) := by
  refine Keeps.after ?_ hm' hq' h'
  clear hm' hq' h'
  unfold State.modSpe
  with_reducible repeat' first
    | assumption | exact Keeps.refl _ | (intro) | split | dsimp only | (apply Keeps.with_spe; rotate_left; decide)

theorem State.setSpeState_after {m' q' : Nat} {u' : State} {s : State} {st : Nat} (h' : Keeps m' q' u' s)
    (hm' : Nat.lor 0x18000000000000000000000000000000000000000000000000000000000000000000000000000000000000000000000000000000000000000000000000000000000000000000000000000000000000004c00000000000000000 m' = m') (hq' : Nat.lor 0x10c2000 q' = q') : Keeps m' q' u' (s.setSpeState st) := by
  refine Keeps.after ?_ hm' hq' h'
  clear hm' hq' h'
  unfold State.setSpeState
  with_reducible repeat' first
    | assumption | exact Keeps.refl _ | (apply Keeps.wr; rotate_left; decide) | (apply Keeps.unflag; rotate_left; decide)
    | (apply Keeps.setTo; rotate_left; decide) | (apply State.refreshMode_after; rotate_left; decide; decide)
    | apply Keeps.when | (intro) | split | dsimp only

theorem State.speMeasure_after {m' q' : Nat} {u' : State} {s : State} (h' : Keeps m' q' u' s)
    (hm' : Nat.lor 0x18000000000000000000000000000000000000000000000000000000000000000000000000000000000000000000000000000000000000000000000000000000000000000000000000000000000000004c00000000000000000 m' = m') (hq' : Nat.lor 0x10c2400 q' = q') : Keeps m' q' u' (s.speMeasure) := by
  refine Keeps.after ?_ hm' hq' h'
  clear hm' hq' h'
  unfold State.speMeasure
  with_reducible repeat' first
    | assumption | exact Keeps.refl _ | (apply State.modSpe_after; rotate_left; decide; decide)
    | (apply State.setSpeState_after; rotate_left; decide; decide) | (intro) | split | dsimp only

theorem State.speOff_after {m' q' : Nat} {u' : State} {s : State} (h' : Keeps m' q' u' s)
    (hm' : Nat.lor 0x18000000000000000000000000000000000000000000000000000000000000000000000000000000000000000000000000000000000000000000000000000000000000000000000000000000000000004c00000000000000000 m' = m') (hq' : Nat.lor 0x10c2400 q' = q') : Keeps m' q' u' (s.speOff) := by
  refine Keeps.after ?_ hm' hq' h'
  clear hm' hq' h'
  unfold State.speOff
  with_reducible repeat' first
    | assumption | exact Keeps.refl _ | (apply State.modSpe_after; rotate_left; decide; decide)
    | (apply State.setSpeState_after; rotate_left; decide; decide) | (intro) | split | dsimp only

theorem State.speStopAct_after {m' q' : Nat} {u' : State} {s : State} (h' : Keeps m' q' u' s)
    (hm' : Nat.lor 0x18000000000000000000000000000000000000000000000000000000000000000000000000000000000000000000000000000000000000000000000000000000000000000000000000000000000000004c00000000000000000 m' = m') (hq' : Nat.lor 0x10c2400 q' = q') : Keeps m' q' u' (s.speStopAct) := by
  refine Keeps.after ?_ hm' hq' h'
  clear hm' hq' h'
  unfold State.speStopAct
  with_reducible repeat' first
    | assumption | exact Keeps.refl _ | (apply State.modSpe_after; rotate_left; decide; decide)
    | (apply State.setSpeState_after; rotate_left; decide; decide) | (apply State.speOff_after; rotate_left; decide; decide)
    | apply Keeps.ite | apply Keeps.ite_fst | apply Keeps.ite_snd | (intro) | split | dsimp only

theorem State.speStopOp_after {m' q' : Nat} {u' : State} {s : State} (h' : Keeps m' q' u' s)
    (hm' : Nat.lor 0x1800000000000000000010000000000000000000000000001800000000000000000000000000009160000000000000000000400000300000000000000000014000000000000000000000000801c000004c00000000000000000 m' = m') (hq' : Nat.lor 0x10c6cc0 q' = q') : Keeps m' q' u' (s.speStopOp) := by
  refine Keeps.after ?_ hm' hq' h'
  clear hm' hq' h'
  unfold State.speStopOp
  with_reducible repeat' first
    | assumption | exact Keeps.refl _ | (apply State.modSpe_after; rotate_left; decide; decide)
    | (apply State.retractAllBySpe_after; rotate_left; decide; decide)
    | (apply State.speOff_after; rotate_left; decide; decide) | (apply State.speStopAct_after; rotate_left; decide; decide)
    | apply Keeps.ite | apply Keeps.ite_fst | apply Keeps.ite_snd | (apply Keeps.of_eq_fst; assumption)
    | (apply Keeps.of_eq_snd; assumption) | (intro) | split | dsimp only

theorem State.spinFailed_after {m' q' : Nat} {u' : State} {s : State} {st : Nat} (h' : Keeps m' q' u' s)
    (hm' : Nat.lor 0x1800000000000000000010000000000000000000000000001800000000000000000000000000009160000000000000000000400000300000000000000000014000000000000000000000000801c000004c00000000000000000 m' = m') (hq' : Nat.lor 0x10c6cc0 q' = q') : Keeps m' q' u' (s.spinFailed st) := by
  refine Keeps.after ?_ hm' hq' h'
  clear hm' hq' h'
  unfold State.spinFailed
  with_reducible repeat' first
    | assumption | exact Keeps.refl _ | (apply State.setSpeState_after; rotate_left; decide; decide)
    | (apply State.speStopOp_after; rotate_left; decide; decide) | apply Keeps.when | (intro) | split | dsimp only

theorem State.speFault_after {m' q' : Nat} {u' : State} {s : State} (h' : Keeps m' q' u' s)
    (hm' : Nat.lor 0x1800000000000000000010000000000000000000000000001800000010000000000000000000009160000000000000000000400000300000000000000000014000000000000000000000000801c000006c00002000438000000 m' = m') (hq' : Nat.lor 0x10c6ec1 q' = q') : Keeps m' q' u' (s.speFault) := by
  refine Keeps.after ?_ hm' hq' h'
  clear hm' hq' h'
  unfold State.speFault
  with_reducible repeat' first
    | assumption | exact Keeps.refl _ | (apply State.capoSpeFault_after; rotate_left; decide; decide)
    | (apply State.modSpe_after; rotate_left; decide; decide) | (apply State.spinFailed_after; rotate_left; decide; decide)
    | (apply State.spindleInhibitAll_after; rotate_left; decide; decide) | (intro) | split | dsimp only

theorem State.speAttemptFailed_after {m' q' : Nat} {u' : State} {s : State} (h' : Keeps m' q' u' s)
    (hm' : Nat.lor 0x1800000000000000000010000000000000000000000000001800000010000000000000000000009160000000000000000000400000300000000000000000014000000000000000000000000801c000086c00002000438000000 m' = m') (hq' : Nat.lor 0x10c6ec1 q' = q') : Keeps m' q' u' (s.speAttemptFailed) := by
  refine Keeps.after ?_ hm' hq' h'
  clear hm' hq' h'
  unfold State.speAttemptFailed
  with_reducible repeat' first
    | assumption | exact Keeps.refl _ | (apply Keeps.flag; rotate_left; decide)
    | (apply State.modSpe_after; rotate_left; decide; decide) | (apply State.speFault_after; rotate_left; decide; decide)
    | (apply State.speMeasure_after; rotate_left; decide; decide) | apply Keeps.ite | apply Keeps.ite_fst
    | apply Keeps.ite_snd | (intro) | split | dsimp only

theorem State.speStartOp_after {m' q' : Nat} {u' : State} {s : State} (h' : Keeps m' q' u' s)
    (hm' : Nat.lor 0x1800000000000000000000000000000000000000000000000000000000000000000000000000000000000000000000000000000000000000000000000000000000000000000000000000000000000c004c00000000000000000 m' = m') (hq' : Nat.lor 0x10c2400 q' = q') : Keeps m' q' u' (s.speStartOp).2 := by
  refine Keeps.after ?_ hm' hq' h'
  clear hm' hq' h'
  unfold State.speStartOp
  with_reducible repeat' first
    | assumption | exact Keeps.refl _ | (apply Keeps.wr; rotate_left; decide) | (apply Keeps.unflag; rotate_left; decide)
    | (apply State.modSpe_after; rotate_left; decide; decide) | (apply State.speMeasure_after; rotate_left; decide; decide)
    | apply Keeps.ite | apply Keeps.ite_fst | apply Keeps.ite_snd | (apply Keeps.of_eq_fst; assumption)
    | (apply Keeps.of_eq_snd; assumption) | (intro) | split | dsimp only

theorem State.speHeadsParked_after {m' q' : Nat} {u' : State} {s : State} (h' : Keeps m' q' u' s)
    (hm' : Nat.lor 0x18000000000000000000000000000000000000000000000000000000000000000000000000000000000000000000000000000000000000000000000000000000000000000000000000000000000000004c00000000000000000 m' = m') (hq' : Nat.lor 0x10c2400 q' = q') : Keeps m' q' u' (s.speHeadsParked) := by
  refine Keeps.after ?_ hm' hq' h'
  clear hm' hq' h'
  unfold State.speHeadsParked
  with_reducible repeat' first
    | assumption | exact Keeps.refl _ | (apply State.speStopAct_after; rotate_left; decide; decide) | apply Keeps.when
    | (intro) | split | dsimp only

theorem State.keMeasured_after {m' q' : Nat} {u' : State} {s : State} {ke : Nat} (h' : Keeps m' q' u' s)
    (hm' : Nat.lor 0x1800000000000000000010000000000000000000000000001800000000000000000000000000009160000000000000000000400000300000000000000000014000000000000000000000000801c00600cc00000000000000000 m' = m') (hq' : Nat.lor 0x10c6cc0 q' = q') : Keeps m' q' u' (s.keMeasured ke) := by
  refine Keeps.after ?_ hm' hq' h'
  clear hm' hq' h'
  unfold State.keMeasured
  with_reducible repeat' first
    | assumption | exact Keeps.refl _ | (apply Keeps.wr; rotate_left; decide) | (apply Keeps.flag; rotate_left; decide)
    | (apply State.logEvent_after; rotate_left; decide; decide)
    | (apply State.spinFailed_after; rotate_left; decide; decide) | apply Keeps.ite | apply Keeps.ite_fst
    | apply Keeps.ite_snd | (intro) | split | dsimp only

theorem State.speAlign_after {m' q' : Nat} {u' : State} {s : State} {angle : Nat} (h' : Keeps m' q' u' s)
    (hm' : Nat.lor 0x18000000000000000000000000000000000000000000000000000000000000000000000000000000000000000000000000000000000000000000000000000000000000000000000000000000000000004c00000000000000000 m' = m') (hq' : Nat.lor 0x10c2400 q' = q') : Keeps m' q' u' (s.speAlign angle) := by
  refine Keeps.after ?_ hm' hq' h'
  clear hm' hq' h'
  unfold State.speAlign
  with_reducible repeat' first
    | assumption | exact Keeps.refl _ | (apply State.modSpe_after; rotate_left; decide; decide)
    | (apply State.setSpeState_after; rotate_left; decide; decide) | (intro) | split | dsimp only

theorem State.catchRotor_after {m' q' : Nat} {u' : State} {s : State} {angle : Nat} {mrpm : Int} {ke : Option Nat} (h' : Keeps m' q' u' s)
    (hm' : Nat.lor 0x1000000000000000000000 m' = m') (hq' : Nat.lor 0x400 q' = q') : Keeps m' q' u' (s.catchRotor angle mrpm ke) := by
  refine Keeps.after ?_ hm' hq' h'
  clear hm' hq' h'
  unfold State.catchRotor
  with_reducible repeat' first
    | assumption | exact Keeps.refl _ | (apply Keeps.wr; rotate_left; decide)
    | (apply State.modSpe_after; rotate_left; decide; decide) | (intro) | split | dsimp only

theorem State.catchDone_after {m' q' : Nat} {u' : State} {s : State} (h' : Keeps m' q' u' s)
    (hm' : Nat.lor 0x1800000000000000000010000000000000000000000000001800000000000000000000000000009160000000000000000000400000300000000000000000014000000000000000000000000801c00600cc00000000000000000 m' = m') (hq' : Nat.lor 0x10c6cc0 q' = q') : Keeps m' q' u' (s.catchDone) := by
  refine Keeps.after ?_ hm' hq' h'
  clear hm' hq' h'
  unfold State.catchDone
  with_reducible repeat' first
    | assumption | exact Keeps.refl _ | (apply State.keMeasured_after; rotate_left; decide; decide)
    | (apply State.modSpe_after; rotate_left; decide; decide) | (apply State.setSpeState_after; rotate_left; decide; decide)
    | (apply Keeps.of_eq_fst; assumption) | (apply Keeps.of_eq_snd; assumption) | (intro) | split | dsimp only

theorem State.speFit_after {m' q' : Nat} {u' : State} {s : State} {f : FitIn} (h' : Keeps m' q' u' s)
    (hm' : Nat.lor 0x1800000000000000000010000000000000000000000000001800000010000000000000000000009160000000000000000000400000300000000000000000014000000000000000000000000801c001087c00002000438000000 m' = m') (hq' : Nat.lor 0x10c6ec1 q' = q') : Keeps m' q' u' (s.speFit f) := by
  refine Keeps.after ?_ hm' hq' h'
  clear hm' hq' h'
  unfold State.speFit
  with_reducible repeat' first
    | assumption | exact Keeps.refl _ | (apply Keeps.wr; rotate_left; decide) | (apply Keeps.setTo; rotate_left; decide)
    | (apply State.catchRotor_after; rotate_left; decide; decide) | (apply State.modSpe_after; rotate_left; decide; decide)
    | (apply State.setSpeState_after; rotate_left; decide; decide)
    | (apply State.speAlign_after; rotate_left; decide; decide)
    | (apply State.speAttemptFailed_after; rotate_left; decide; decide) | apply Keeps.ite | apply Keeps.ite_fst
    | apply Keeps.ite_snd | (intro) | split | dsimp only

theorem State.pwmSample_after {m' q' : Nat} {u' : State} {s : State} {p : PwmIn} (h' : Keeps m' q' u' s)
    (hm' : Nat.lor 0x8000000000000000000000 m' = m') (hq' : Nat.lor 0x420 q' = q') : Keeps m' q' u' (s.pwmSample p) := by
  refine Keeps.after ?_ hm' hq' h'
  clear hm' hq' h'
  unfold State.pwmSample
  with_reducible repeat' first
    | assumption | exact Keeps.refl _ | (apply Keeps.bump; rotate_left; decide)
    | (apply State.drawn_after; rotate_left; decide; decide) | (apply State.modSpe_after; rotate_left; decide; decide)
    | apply Keeps.ite | apply Keeps.ite_fst | apply Keeps.ite_snd | (apply Keeps.of_eq_fst; assumption)
    | (apply Keeps.of_eq_snd; assumption) | (intro) | split | dsimp only

theorem State.lossTest_after {m' q' : Nat} {u' : State} {s : State} {p : PwmIn} (h' : Keeps m' q' u' s)
    (hm' : Nat.lor 0x0 m' = m') (hq' : Nat.lor 0x400 q' = q') : Keeps m' q' u' (s.lossTest p) := by
  refine Keeps.after ?_ hm' hq' h'
  clear hm' hq' h'
  unfold State.lossTest
  with_reducible repeat' first
    | assumption | exact Keeps.refl _ | (apply State.modSpe_after; rotate_left; decide; decide) | apply Keeps.ite
    | apply Keeps.ite_fst | apply Keeps.ite_snd | (intro) | split | dsimp only

theorem State.keSample_after {m' q' : Nat} {u' : State} {s : State} {p : PwmIn} (h' : Keeps m' q' u' s)
    (hm' : Nat.lor 0x1800000000000000000010000000000000000000000000001800000000000000000000000000009160000000000000000000400000300000000000000000014000000000000000000000000801c00600cc00000000000000000 m' = m') (hq' : Nat.lor 0x10c6cc0 q' = q') : Keeps m' q' u' (s.keSample p) := by
  refine Keeps.after ?_ hm' hq' h'
  clear hm' hq' h'
  unfold State.keSample
  with_reducible repeat' first
    | assumption | exact Keeps.refl _ | (apply State.keMeasured_after; rotate_left; decide; decide)
    | (apply State.modSpe_after; rotate_left; decide; decide) | (apply State.spinFailed_after; rotate_left; decide; decide)
    | apply Keeps.ite | apply Keeps.ite_fst | apply Keeps.ite_snd | (intro) | split | dsimp only

theorem State.spindleTick_after {m' q' : Nat} {u' : State} {s : State} {t : Nat} {predicted : Bool} (h' : Keeps m' q' u' s)
    (hm' : Nat.lor 0x1800000000000000000010000000000000000000000000001800000000000000000000000000009160000000000000000000400000300000000000000000014000000000000000000000000801c04600cc00000000000000000 m' = m') (hq' : Nat.lor 0x10c6cc0 q' = q') : Keeps m' q' u' (s.spindleTick t predicted) := by
  refine Keeps.after ?_ hm' hq' h'
  clear hm' hq' h'
  unfold State.spindleTick
  with_reducible repeat' first
    | assumption | exact Keeps.refl _ | (apply Keeps.wr; rotate_left; decide) | (apply Keeps.setTo; rotate_left; decide)
    | (apply State.catchDone_after; rotate_left; decide; decide) | (apply State.modSpe_after; rotate_left; decide; decide)
    | apply Keeps.ite | apply Keeps.ite_fst | apply Keeps.ite_snd | (apply Keeps.of_eq_fst; assumption)
    | (apply Keeps.of_eq_snd; assumption) | (intro) | split | dsimp only

theorem State.flySpeed_after {m' q' : Nat} {u' : State} {s : State} (h' : Keeps m' q' u' s)
    (hm' : Nat.lor 0x10000000000000000000000000001800000000000000000000000000009160000000000000000000400000300000000000000000014000000000000000000000000801c000000000000000000000000 m' = m') (hq' : Nat.lor 0x1006cc0 q' = q') : Keeps m' q' u' (s.flySpeed) := by
  refine Keeps.after ?_ hm' hq' h'
  clear hm' hq' h'
  unfold State.flySpeed
  with_reducible repeat' first
    | assumption | exact Keeps.refl _ | (apply State.modSpe_after; rotate_left; decide; decide)
    | (apply State.retractAllBySpe_after; rotate_left; decide; decide) | apply Keeps.when | (intro) | split | dsimp only

theorem State.openLoop_after {m' q' : Nat} {u' : State} {s : State} (h' : Keeps m' q' u' s)
    (hm' : Nat.lor 0x0 m' = m') (hq' : Nat.lor 0x400 q' = q') : Keeps m' q' u' (s.openLoop) := by
  refine Keeps.after ?_ hm' hq' h'
  clear hm' hq' h'
  unfold State.openLoop
  with_reducible repeat' first
    | assumption | exact Keeps.refl _ | (apply State.modSpe_after; rotate_left; decide; decide) | (intro) | split
    | dsimp only

theorem State.pwmTransitions_after {m' q' : Nat} {u' : State} {s : State} {p : PwmIn} (h' : Keeps m' q' u' s)
    (hm' : Nat.lor 0x1800000000000000000010000000000000000000000000001800000010000000000000000000009160000000000000000000400000300000000000000000014000000000000000000000000801c00608ec00002000438000000 m' = m') (hq' : Nat.lor 0x10c6ec1 q' = q') : Keeps m' q' u' (s.pwmTransitions p) := by
  refine Keeps.after ?_ hm' hq' h'
  clear hm' hq' h'
  unfold State.pwmTransitions
  with_reducible repeat' first
    | assumption | exact Keeps.refl _ | (apply Keeps.unflag; rotate_left; decide)
    | (apply State.flySpeed_after; rotate_left; decide; decide) | (apply State.keSample_after; rotate_left; decide; decide)
    | (apply State.modSpe_after; rotate_left; decide; decide) | (apply State.setSpeState_after; rotate_left; decide; decide)
    | (apply State.speAlign_after; rotate_left; decide; decide)
    | (apply State.speAttemptFailed_after; rotate_left; decide; decide)
    | (apply State.speOff_after; rotate_left; decide; decide) | apply Keeps.when | apply Keeps.ite | apply Keeps.ite_fst
    | apply Keeps.ite_snd | (apply Keeps.of_eq_fst; assumption) | (apply Keeps.of_eq_snd; assumption) | (intro) | split
    | dsimp only

theorem State.fieldWeaken_after {m' q' : Nat} {u' : State} {s : State} {p : PwmIn} (h' : Keeps m' q' u' s)
    (hm' : Nat.lor 0x0 m' = m') (hq' : Nat.lor 0x420 q' = q') : Keeps m' q' u' (s.fieldWeaken p) := by
  refine Keeps.after ?_ hm' hq' h'
  clear hm' hq' h'
  unfold State.fieldWeaken
  with_reducible repeat' first
    | assumption | exact Keeps.refl _ | (apply State.drawn_after; rotate_left; decide; decide)
    | (apply State.modSpe_after; rotate_left; decide; decide) | apply Keeps.ite | apply Keeps.ite_fst | apply Keeps.ite_snd
    | (intro) | split | dsimp only

theorem State.reacqPeriod_after {m' q' : Nat} {u' : State} {s : State} (h' : Keeps m' q' u' s)
    (hm' : Nat.lor 0x0 m' = m') (hq' : Nat.lor 0x400 q' = q') : Keeps m' q' u' (s.reacqPeriod) := by
  refine Keeps.after ?_ hm' hq' h'
  clear hm' hq' h'
  unfold State.reacqPeriod
  with_reducible repeat' first
    | assumption | exact Keeps.refl _ | (apply State.modSpe_after; rotate_left; decide; decide) | apply Keeps.ite
    | apply Keeps.ite_fst | apply Keeps.ite_snd | (intro) | split | dsimp only

theorem State.pwmCommands_after {m' q' : Nat} {u' : State} {s : State} {p : PwmIn} (h' : Keeps m' q' u' s)
    (hm' : Nat.lor 0x0 m' = m') (hq' : Nat.lor 0x420 q' = q') : Keeps m' q' u' (s.pwmCommands p) := by
  refine Keeps.after ?_ hm' hq' h'
  clear hm' hq' h'
  unfold State.pwmCommands
  with_reducible repeat' first
    | assumption | exact Keeps.refl _ | (apply State.fieldWeaken_after; rotate_left; decide; decide)
    | (apply State.modSpe_after; rotate_left; decide; decide) | (apply State.openLoop_after; rotate_left; decide; decide)
    | (apply State.reacqPeriod_after; rotate_left; decide; decide) | apply Keeps.ite | apply Keeps.ite_fst
    | apply Keeps.ite_snd | (apply Keeps.of_eq_fst; assumption) | (apply Keeps.of_eq_snd; assumption) | (intro) | split
    | dsimp only

theorem State.pwmDuties_after {m' q' : Nat} {u' : State} {s : State} (h' : Keeps m' q' u' s)
    (hm' : Nat.lor 0x0 m' = m') (hq' : Nat.lor 0x420 q' = q') : Keeps m' q' u' (s.pwmDuties) := by
  refine Keeps.after ?_ hm' hq' h'
  clear hm' hq' h'
  unfold State.pwmDuties
  with_reducible repeat' first
    | assumption | exact Keeps.refl _ | (apply State.drawn_after; rotate_left; decide; decide)
    | (apply State.modSpe_after; rotate_left; decide; decide) | apply Keeps.ite | apply Keeps.ite_fst | apply Keeps.ite_snd
    | (intro) | split | dsimp only

theorem State.pwmClamp_after {m' q' : Nat} {u' : State} {s : State} {p : PwmIn} (h' : Keeps m' q' u' s)
    (hm' : Nat.lor 0x0 m' = m') (hq' : Nat.lor 0x400 q' = q') : Keeps m' q' u' (s.pwmClamp p) := by
  refine Keeps.after ?_ hm' hq' h'
  clear hm' hq' h'
  unfold State.pwmClamp
  with_reducible repeat' first
    | assumption | exact Keeps.refl _ | (apply State.modSpe_after; rotate_left; decide; decide) | (intro) | split
    | dsimp only

theorem State.snapPwm_after {m' q' : Nat} {u' : State} {s : State} (h' : Keeps m' q' u' s)
    (hm' : Nat.lor 0x0 m' = m') (hq' : Nat.lor 0x800000 q' = q') : Keeps m' q' u' (s.snapPwm) := by
  refine Keeps.after ?_ hm' hq' h'
  clear hm' hq' h'
  unfold State.snapPwm
  with_reducible repeat' first
    | assumption | exact Keeps.refl _ | apply Keeps.ite | apply Keeps.ite_fst | apply Keeps.ite_snd | (intro) | split
    | dsimp only | (apply Keeps.with_bench; rotate_left; decide)

theorem State.pwmPeriodOp_after {m' q' : Nat} {u' : State} {s : State} {p : PwmIn} (h' : Keeps m' q' u' s)
    (hm' : Nat.lor 0x800000001800000000000000000010000000000000000000000000001800000010000000000000000000009160000000000000000000400000300000000000000000014000000000000000000000000801c04f08ec00002000438000000 m' = m') (hq' : Nat.lor 0x18c6ef1 q' = q') : Keeps m' q' u' (s.pwmPeriodOp p) := by
  refine Keeps.after ?_ hm' hq' h'
  clear hm' hq' h'
  unfold State.pwmPeriodOp
  with_reducible repeat' first
    | assumption | exact Keeps.refl _ | (apply Keeps.wr; rotate_left; decide)
    | (apply State.at_after; rotate_left; decide; decide) | (apply State.lossTest_after; rotate_left; decide; decide)
    | (apply State.modSpe_after; rotate_left; decide; decide) | (apply State.pwmClamp_after; rotate_left; decide; decide)
    | (apply State.pwmCommands_after; rotate_left; decide; decide)
    | (apply State.pwmDuties_after; rotate_left; decide; decide)
    | (apply State.pwmSample_after; rotate_left; decide; decide)
    | (apply State.pwmTransitions_after; rotate_left; decide; decide)
    | (apply State.snapPwm_after; rotate_left; decide; decide)
    | (apply State.spindleTick_after; rotate_left; decide; decide) | apply Keeps.when | apply Keeps.ite
    | apply Keeps.ite_fst | apply Keeps.ite_snd | (apply Keeps.of_eq_fst; assumption) | (apply Keeps.of_eq_snd; assumption)
    | (intro) | split | dsimp only

theorem State.speedLoop_after {m' q' : Nat} {u' : State} {s : State} (h' : Keeps m' q' u' s)
    (hm' : Nat.lor 0xffffffffffff00000000000 m' = m') (hq' : Nat.lor 0x421 q' = q') : Keeps m' q' u' (s.speedLoop) := by
  refine Keeps.after ?_ hm' hq' h'
  clear hm' hq' h'
  unfold State.speedLoop
  with_reducible repeat' first
    | assumption | exact Keeps.refl _ | (apply State.boundary_after; rotate_left; decide; decide)
    | (apply State.drawn_after; rotate_left; decide; decide) | (apply State.modSpe_after; rotate_left; decide; decide)
    | apply Keeps.when | apply Keeps.ite | apply Keeps.ite_fst | apply Keeps.ite_snd | (intro) | split | dsimp only

theorem State.speSetptOp_after {m' q' : Nat} {u' : State} {s : State} {value : Nat} (h' : Keeps m' q' u' s)
    (hm' : Nat.lor 0x800000002000000000000 m' = m') (hq' : Nat.lor 0x1 q' = q') : Keeps m' q' u' (s.speSetptOp value) := by
  refine Keeps.after ?_ hm' hq' h'
  clear hm' hq' h'
  unfold State.speSetptOp
  with_reducible repeat' first
    | assumption | exact Keeps.refl _ | (apply Keeps.wr; rotate_left; decide) | (apply Keeps.flag; rotate_left; decide)
    | (apply State.shadowDrop_after; rotate_left; decide; decide)
    | (apply State.shadowWr_after; rotate_left; decide; decide) | apply Keeps.ite | apply Keeps.ite_fst
    | apply Keeps.ite_snd | (intro) | split | dsimp only

theorem State.vmOver_after {m' q' : Nat} {u' : State} {s : State} (h' : Keeps m' q' u' s)
    (hm' : Nat.lor 0x100000000000000000000 m' = m') (hq' : Nat.lor 0x400 q' = q') : Keeps m' q' u' (s.vmOver) := by
  refine Keeps.after ?_ hm' hq' h'
  clear hm' hq' h'
  unfold State.vmOver
  with_reducible repeat' first
    | assumption | exact Keeps.refl _ | (apply Keeps.flag; rotate_left; decide)
    | (apply State.modSpe_after; rotate_left; decide; decide) | apply Keeps.when | (intro) | split | dsimp only

theorem State.obsLost_after {m' q' : Nat} {u' : State} {s : State} (h' : Keeps m' q' u' s)
    (hm' : Nat.lor 0x1800000000000000000010000000000000000000000000001800000010000000000000000000009160000000000000000000400000300000000000000000014000000000000000000000000801c000086c00002000438000000 m' = m') (hq' : Nat.lor 0x10c6ec1 q' = q') : Keeps m' q' u' (s.obsLost) := by
  refine Keeps.after ?_ hm' hq' h'
  clear hm' hq' h'
  unfold State.obsLost
  with_reducible repeat' first
    | assumption | exact Keeps.refl _ | (apply State.modSpe_after; rotate_left; decide; decide)
    | (apply State.setSpeState_after; rotate_left; decide; decide)
    | (apply State.speAttemptFailed_after; rotate_left; decide; decide) | apply Keeps.when
    | (apply Keeps.of_eq_fst; assumption) | (apply Keeps.of_eq_snd; assumption) | (intro) | split | dsimp only

theorem State.ocTrip_after {m' q' : Nat} {u' : State} {s : State} {t : Nat} (h' : Keeps m' q' u' s)
    (hm' : Nat.lor 0x800000001800000000000000000010000000000000000000000000001800000010000000000000000000009160000000000000000000400000300000000000000000014000000000000000000000000801c0000c6c00002000438000000 m' = m') (hq' : Nat.lor 0x10c6ed1 q' = q') : Keeps m' q' u' (s.ocTrip t) := by
  refine Keeps.after ?_ hm' hq' h'
  clear hm' hq' h'
  unfold State.ocTrip
  with_reducible repeat' first
    | assumption | exact Keeps.refl _ | (apply Keeps.flag; rotate_left; decide)
    | (apply State.at_after; rotate_left; decide; decide) | (apply State.modSpe_after; rotate_left; decide; decide)
    | (apply State.obsLost_after; rotate_left; decide; decide) | (apply State.speFault_after; rotate_left; decide; decide)
    | apply Keeps.ite | apply Keeps.ite_fst | apply Keeps.ite_snd | (intro) | split | dsimp only

theorem State.zeroCross_after {m' q' : Nat} {u' : State} {s : State} {inSequence : Bool} {angle : Nat} {mrpm : Int} (h' : Keeps m' q' u' s)
    (hm' : Nat.lor 0x18000000000000000000000000000000000000000000000000000000000000000000000000000000000000000000000000000000000000000000000000000000000000000000000000000000000001024c00000000000000000 m' = m') (hq' : Nat.lor 0x10c2400 q' = q') : Keeps m' q' u' (s.zeroCross inSequence angle mrpm) := by
  refine Keeps.after ?_ hm' hq' h'
  clear hm' hq' h'
  unfold State.zeroCross
  with_reducible repeat' first
    | assumption | exact Keeps.refl _ | (apply Keeps.wr; rotate_left; decide) | (apply Keeps.flag; rotate_left; decide)
    | (apply State.catchRotor_after; rotate_left; decide; decide) | (apply State.modSpe_after; rotate_left; decide; decide)
    | (apply State.setSpeState_after; rotate_left; decide; decide) | apply Keeps.ite | apply Keeps.ite_fst
    | apply Keeps.ite_snd | (intro) | split | dsimp only

theorem State.reacqFloated_after {m' q' : Nat} {u' : State} {s : State} (h' : Keeps m' q' u' s)
    (hm' : Nat.lor 0x0 m' = m') (hq' : Nat.lor 0x400 q' = q') : Keeps m' q' u' (s.reacqFloated) := by
  refine Keeps.after ?_ hm' hq' h'
  clear hm' hq' h'
  unfold State.reacqFloated
  with_reducible repeat' first
    | assumption | exact Keeps.refl _ | (apply State.modSpe_after; rotate_left; decide; decide) | apply Keeps.when | (intro)
    | split | dsimp only

theorem State.coast_after {m' q' : Nat} {u' : State} {s : State} (h' : Keeps m' q' u' s)
    (hm' : Nat.lor 0x18000000000000000000000000000000000000000000000008000000100000000000000000000091600000000000000000000000000000000000000000000100000000000000000000000000000000016c00002000438000000 m' = m') (hq' : Nat.lor 0x10c6ec1 q' = q') : Keeps m' q' u' (s.coast) := by
  refine Keeps.after ?_ hm' hq' h'
  clear hm' hq' h'
  unfold State.coast
  with_reducible repeat' first
    | assumption | exact Keeps.refl _ | (apply Keeps.wr; rotate_left; decide) | (apply Keeps.flag; rotate_left; decide)
    | (apply State.capoSpeFault_after; rotate_left; decide; decide)
    | (apply State.logEvent_after; rotate_left; decide; decide) | (apply State.modSpe_after; rotate_left; decide; decide)
    | (apply State.setSpeState_after; rotate_left; decide; decide)
    | (apply State.shadowDrop_after; rotate_left; decide; decide)
    | (apply State.spindleInhibitAll_after; rotate_left; decide; decide) | apply Keeps.when | apply Keeps.ite
    | apply Keeps.ite_fst | apply Keeps.ite_snd | (intro) | split | dsimp only

theorem State.atSpeedOp_after {m' q' : Nat} {u' : State} {s : State} (h' : Keeps m' q' u' s)
    (hm' : Nat.lor 0x18000000000000000000000000000000000000000000000000000000000000000000000000000000000000000000000000000000000000000000000000000000000000000000000000000000000000000800000000000000000 m' = m') (hq' : Nat.lor 0x10c2400 q' = q') : Keeps m' q' u' (s.atSpeedOp) := by
  refine Keeps.after ?_ hm' hq' h'
  clear hm' hq' h'
  unfold State.atSpeedOp
  with_reducible repeat' first
    | assumption | exact Keeps.refl _ | (apply Keeps.flag; rotate_left; decide)
    | (apply State.modSpe_after; rotate_left; decide; decide) | (apply State.refreshMode_after; rotate_left; decide; decide)
    | apply Keeps.when | (intro) | split | dsimp only

/-! ### Actuator -/

theorem State.replan_after {m' q' : Nat} {u' : State} {s : State} {x : Str} (h' : Keeps m' q' u' s)
    (hm' : Nat.lor 0x0 m' = m') (hq' : Nat.lor 0x800 q' = q') : Keeps m' q' u' (s.replan x) := by
  refine Keeps.after ?_ hm' hq' h'
  clear hm' hq' h'
  unfold State.replan
  with_reducible repeat' first
    | assumption | exact Keeps.refl _ | (apply State.modSce_after; rotate_left; decide; decide) | (intro) | split
    | dsimp only

theorem State.dropTarget_after {m' q' : Nat} {u' : State} {s : State} {x : Str} (h' : Keeps m' q' u' s)
    (hm' : Nat.lor 0x10000000000000000000000000000000000000 m' = m') (hq' : Nat.lor 0x1 q' = q') : Keeps m' q' u' (s.dropTarget x) := by
  refine Keeps.after ?_ hm' hq' h'
  clear hm' hq' h'
  unfold State.dropTarget
  with_reducible repeat' first
    | assumption | exact Keeps.refl _ | (apply Keeps.unflag; rotate_left; decide)
    | (apply State.shadowDrop_after; rotate_left; decide; decide) | (intro) | split | dsimp only

theorem State.installTarget_after {m' q' : Nat} {u' : State} {s : State} {x : Str} (h' : Keeps m' q' u' s)
    (hm' : Nat.lor 0x100000000000000000000000000018000000000000000000000000000000000000000000000000004000003000000000000000000280000000000000010000003800000000000000000000000000000 m' = m') (hq' : Nat.lor 0x1000801 q' = q') : Keeps m' q' u' (s.installTarget x) := by
  refine Keeps.after ?_ hm' hq' h'
  clear hm' hq' h'
  unfold State.installTarget
  with_reducible repeat' first
    | assumption | exact Keeps.refl _ | (apply Keeps.wr; rotate_left; decide)
    | (apply State.abortCapture_after; rotate_left; decide; decide)
    | (apply State.dropTarget_after; rotate_left; decide; decide) | (apply State.modSce_after; rotate_left; decide; decide)
    | (apply State.selectHead_after; rotate_left; decide; decide) | (apply State.seqIrq_after; rotate_left; decide; decide)
    | apply Keeps.when | apply Keeps.foldl | apply Keeps.foldl_snd | apply Keeps.foldl_fst | (intro) | split | dsimp only

theorem State.takeTarget_after {m' q' : Nat} {u' : State} {s : State} {x : Str} (h' : Keeps m' q' u' s)
    (hm' : Nat.lor 0x100000000000000000000000000018000000000000000000000000000091600000000000000000004000003000000000000000000380000000000000010000003c00014000000000000000000000000 m' = m') (hq' : Nat.lor 0x1006801 q' = q') : Keeps m' q' u' (s.takeTarget x) := by
  refine Keeps.after ?_ hm' hq' h'
  clear hm' hq' h'
  unfold State.takeTarget
  with_reducible repeat' first
    | assumption | exact Keeps.refl _ | (apply Keeps.wr; rotate_left; decide) | (apply Keeps.flag; rotate_left; decide)
    | (apply State.assertWinh_after; rotate_left; decide; decide)
    | (apply State.dropTarget_after; rotate_left; decide; decide)
    | (apply State.installTarget_after; rotate_left; decide; decide)
    | (apply State.modSce_after; rotate_left; decide; decide) | (apply State.replan_after; rotate_left; decide; decide)
    | apply Keeps.ite | apply Keeps.ite_fst | apply Keeps.ite_snd | (intro) | split | dsimp only

theorem State.enterSeekFromLoading_after {m' q' : Nat} {u' : State} {s : State} {x : Str} (h' : Keeps m' q' u' s)
    (hm' : Nat.lor 0x18000000000000000000100000000000000000000000000018000000000000000000000000000000000000000000000000004000003000000000000000000280000000000000010000003c00004000000000000000000000000 m' = m') (hq' : Nat.lor 0x10c2801 q' = q') : Keeps m' q' u' (s.enterSeekFromLoading x) := by
  refine Keeps.after ?_ hm' hq' h'
  clear hm' hq' h'
  unfold State.enterSeekFromLoading
  with_reducible repeat' first
    | assumption | exact Keeps.refl _ | (apply Keeps.wr; rotate_left; decide) | (apply Keeps.flag; rotate_left; decide)
    | (apply State.dropTarget_after; rotate_left; decide; decide)
    | (apply State.installTarget_after; rotate_left; decide; decide)
    | (apply State.modSce_after; rotate_left; decide; decide) | (apply State.modStr_after; rotate_left; decide; decide)
    | (apply State.refreshMode_after; rotate_left; decide; decide) | apply Keeps.ite | apply Keeps.ite_fst
    | apply Keeps.ite_snd | (intro) | split | dsimp only

theorem State.sceBoundary_after {m' q' : Nat} {u' : State} {s : State} {x : Str} (h' : Keeps m' q' u' s)
    (hm' : Nat.lor 0xffffffffffffffff00000000000000000000000 m' = m') (hq' : Nat.lor 0x1 q' = q') : Keeps m' q' u' (s.sceBoundary x) := by
  refine Keeps.after ?_ hm' hq' h'
  clear hm' hq' h'
  unfold State.sceBoundary
  with_reducible repeat' first
    | assumption | exact Keeps.refl _ | (apply State.boundary_after; rotate_left; decide; decide) | (intro) | split
    | dsimp only | (apply Keeps.with_shadow; rotate_left; decide)

theorem State.sceSam_after {m' q' : Nat} {u' : State} {s : State} {x : Str} {missed : Bool} {iVcm : Int} (h' : Keeps m' q' u' s)
    (hm' : Nat.lor 0x100000000000000000000000000018000000000000000000000000000091600000000000000000004000003000000000000000000380000000000000ffffffffffffffff00000000000000000000000 m' = m') (hq' : Nat.lor 0x1006801 q' = q') : Keeps m' q' u' (s.sceSam x missed iVcm) := by
  refine Keeps.after ?_ hm' hq' h'
  clear hm' hq' h'
  unfold State.sceSam
  with_reducible repeat' first
    | assumption | exact Keeps.refl _ | (apply State.modSce_after; rotate_left; decide; decide)
    | (apply State.replan_after; rotate_left; decide; decide) | (apply State.sceBoundary_after; rotate_left; decide; decide)
    | (apply State.takeTarget_after; rotate_left; decide; decide) | apply Keeps.when | apply Keeps.ite | apply Keeps.ite_fst
    | apply Keeps.ite_snd | (apply Keeps.of_eq_fst; assumption) | (apply Keeps.of_eq_snd; assumption) | (intro) | split
    | dsimp only

theorem State.wedgeLost_after {m' q' : Nat} {u' : State} {s : State} {x : Str} (h' : Keeps m' q' u' s)
    (hm' : Nat.lor 0x8000000000000000000000000000091600000000000000000000000000000000000000000000100000000000000001000000000110000000000000000000000000 m' = m') (hq' : Nat.lor 0x6800 q' = q') : Keeps m' q' u' (s.wedgeLost x) := by
  refine Keeps.after ?_ hm' hq' h'
  clear hm' hq' h'
  unfold State.wedgeLost
  with_reducible repeat' first
    | assumption | exact Keeps.refl _ | (apply Keeps.wr; rotate_left; decide) | (apply Keeps.bump; rotate_left; decide)
    | (apply State.assertWinh_after; rotate_left; decide; decide) | (apply State.modSce_after; rotate_left; decide; decide)
    | apply Keeps.when | (intro) | split | dsimp only

theorem State.latchFrom_after {m' q' : Nat} {u' : State} {s : State} {x : Str} {latch : Nat} {y : Str} (h' : Keeps m' q' u' s)
    (hm' : Nat.lor 0x0 m' = m') (hq' : Nat.lor 0x800 q' = q') : Keeps m' q' u' (s.latchFrom x latch y) := by
  refine Keeps.after ?_ hm' hq' h'
  clear hm' hq' h'
  unfold State.latchFrom
  with_reducible repeat' first
    | assumption | exact Keeps.refl _ | (apply State.modSce_after; rotate_left; decide; decide)
    | (apply Keeps.of_eq_fst; assumption) | (apply Keeps.of_eq_snd; assumption) | (intro) | split | dsimp only

theorem State.advanceReference_after {m' q' : Nat} {u' : State} {s : State} {x : Str} (h' : Keeps m' q' u' s)
    (hm' : Nat.lor 0x4000000000000000000000000 m' = m') (hq' : Nat.lor 0x800 q' = q') : Keeps m' q' u' (s.advanceReference x) := by
  refine Keeps.after ?_ hm' hq' h'
  clear hm' hq' h'
  unfold State.advanceReference
  with_reducible repeat' first
    | assumption | exact Keeps.refl _ | (apply Keeps.wr; rotate_left; decide)
    | (apply State.modSce_after; rotate_left; decide; decide) | apply Keeps.when | apply Keeps.ite | apply Keeps.ite_fst
    | apply Keeps.ite_snd | (apply Keeps.of_eq_fst; assumption) | (apply Keeps.of_eq_snd; assumption) | (intro) | split
    | dsimp only

theorem State.firstReference_after {m' q' : Nat} {u' : State} {s : State} {x : Str} {p : Int} (h' : Keeps m' q' u' s)
    (hm' : Nat.lor 0x0 m' = m') (hq' : Nat.lor 0x800 q' = q') : Keeps m' q' u' (s.firstReference x p) := by
  refine Keeps.after ?_ hm' hq' h'
  clear hm' hq' h'
  unfold State.firstReference
  with_reducible repeat' first
    | assumption | exact Keeps.refl _ | (apply State.modSce_after; rotate_left; decide; decide)
    | (apply State.replan_after; rotate_left; decide; decide) | apply Keeps.when | (intro) | split | dsimp only

theorem State.loadPred_after {m' q' : Nat} {u' : State} {s : State} {x : Str} {p : Int} (h' : Keeps m' q' u' s)
    (hm' : Nat.lor 0xe00000000002000000000000000000000000000 m' = m') (hq' : Nat.lor 0x0 q' = q') : Keeps m' q' u' (s.loadPred x p) := by
  refine Keeps.after ?_ hm' hq' h'
  clear hm' hq' h'
  unfold State.loadPred
  with_reducible repeat' first
    | assumption | exact Keeps.refl _ | (apply Keeps.flag; rotate_left; decide)
    | (apply State.putTableWord_after; rotate_left; decide; decide) | apply Keeps.when | apply Keeps.ite
    | apply Keeps.ite_fst | apply Keeps.ite_snd | apply Keeps.foldl | apply Keeps.foldl_snd | apply Keeps.foldl_fst
    | (apply Keeps.of_eq_fst; assumption) | (apply Keeps.of_eq_snd; assumption) | (intro) | split | dsimp only

theorem State.supervise_after {m' q' : Nat} {u' : State} {s : State} {x : Str} {err : Option Nat} (h' : Keeps m' q' u' s)
    (hm' : Nat.lor 0x800000000000000000000000000009160000000000000000000000000000000000000000000010000000000000000000000000001c000000000000000000000000 m' = m') (hq' : Nat.lor 0x1046800 q' = q') : Keeps m' q' u' (s.supervise x err) := by
  refine Keeps.after ?_ hm' hq' h'
  clear hm' hq' h'
  unfold State.supervise
  with_reducible repeat' first
    | assumption | exact Keeps.refl _ | (apply Keeps.wr; rotate_left; decide) | (apply Keeps.setTo; rotate_left; decide)
    | (apply State.assertWinh_after; rotate_left; decide; decide) | (apply State.modSce_after; rotate_left; decide; decide)
    | (apply State.settleRequests_after; rotate_left; decide; decide) | apply Keeps.when | apply Keeps.ite
    | apply Keeps.ite_fst | apply Keeps.ite_snd | (intro) | split | dsimp only

theorem State.noteSqueeze_after {m' q' : Nat} {u' : State} {s : State} {x : Str} {inProgress : Option Armed} {err : Int} (h' : Keeps m' q' u' s)
    (hm' : Nat.lor 0x0 m' = m') (hq' : Nat.lor 0x800 q' = q') : Keeps m' q' u' (s.noteSqueeze x inProgress err) := by
  refine Keeps.after ?_ hm' hq' h'
  clear hm' hq' h'
  unfold State.noteSqueeze
  with_reducible repeat' first
    | assumption | exact Keeps.refl _ | (apply State.modWrp_after; rotate_left; decide; decide) | apply Keeps.when
    | apply Keeps.ite | apply Keeps.ite_fst | apply Keeps.ite_snd | (intro) | split | dsimp only

theorem State.limitOutputs_after {m' q' : Nat} {u' : State} {s : State} {x : Str} (h' : Keeps m' q' u' s)
    (hm' : Nat.lor 0x1800000000000000000000000000 m' = m') (hq' : Nat.lor 0x800 q' = q') : Keeps m' q' u' (s.limitOutputs x) := by
  refine Keeps.after ?_ hm' hq' h'
  clear hm' hq' h'
  unfold State.limitOutputs
  with_reducible repeat' first
    | assumption | exact Keeps.refl _ | (apply Keeps.flag; rotate_left; decide)
    | (apply State.modSce_after; rotate_left; decide; decide) | apply Keeps.when | apply Keeps.ite | apply Keeps.ite_fst
    | apply Keeps.ite_snd | (intro) | split | dsimp only

theorem State.snapLaw_after {m' q' : Nat} {u' : State} {s : State} {x : Str} {sig : List Int} {pred : Int} (h' : Keeps m' q' u' s)
    (hm' : Nat.lor 0xe00000000000000000000000000000000000000 m' = m') (hq' : Nat.lor 0x820022 q' = q') : Keeps m' q' u' (s.snapLaw x sig pred) := by
  refine Keeps.after ?_ hm' hq' h'
  clear hm' hq' h'
  unfold State.snapLaw
  with_reducible repeat' first
    | assumption | exact Keeps.refl _ | apply Keeps.ite | apply Keeps.ite_fst | apply Keeps.ite_snd | apply Keeps.foldl
    | apply Keeps.foldl_snd | apply Keeps.foldl_fst | (intro) | split | dsimp only
    | (apply Keeps.with_bench; rotate_left; decide)

theorem State.law_after {m' q' : Nat} {u' : State} {s : State} {x : Str} {pos : Option Int} {rro : Int} {latch : Nat} (h' : Keeps m' q' u' s)
    (hm' : Nat.lor 0x8000000000000000000000000000091600000000000000000000000000000000000000000000100000000000000e0124000000611c000000000000000000000000 m' = m') (hq' : Nat.lor 0x1866822 q' = q') : Keeps m' q' u' (s.law x pos rro latch) := by
  refine Keeps.after ?_ hm' hq' h'
  clear hm' hq' h'
  unfold State.law
  with_reducible repeat' first
    | assumption | exact Keeps.refl _ | (apply Keeps.wr; rotate_left; decide) | (apply Keeps.flag; rotate_left; decide)
    | (apply Keeps.unflag; rotate_left; decide) | (apply State.advanceReference_after; rotate_left; decide; decide)
    | (apply State.firstReference_after; rotate_left; decide; decide)
    | (apply State.latchFrom_after; rotate_left; decide; decide) | (apply State.loadPred_after; rotate_left; decide; decide)
    | (apply State.modSce_after; rotate_left; decide; decide) | (apply State.noteSqueeze_after; rotate_left; decide; decide)
    | (apply State.runChain_after; rotate_left; decide; decide) | (apply State.snapLaw_after; rotate_left; decide; decide)
    | (apply State.supervise_after; rotate_left; decide; decide)
    | (apply State.wedgeLost_after; rotate_left; decide; decide) | apply Keeps.when | apply Keeps.ite | apply Keeps.ite_fst
    | apply Keeps.ite_snd | apply Keeps.foldl | apply Keeps.foldl_snd | apply Keeps.foldl_fst
    | (apply Keeps.of_eq_fst; assumption) | (apply Keeps.of_eq_snd; assumption) | (intro) | split | dsimp only

theorem State.broadcast_after {m' q' : Nat} {u' : State} {s : State} {x : Str} {t : Nat} {cmd : Int} {held : Bool} (h' : Keeps m' q' u' s)
    (hm' : Nat.lor 0x0 m' = m') (hq' : Nat.lor 0x800 q' = q') : Keeps m' q' u' (s.broadcast x t cmd held) := by
  refine Keeps.after ?_ hm' hq' h'
  clear hm' hq' h'
  unfold State.broadcast
  with_reducible repeat' first
    | assumption | exact Keeps.refl _ | (apply State.modSce_after; rotate_left; decide; decide) | (intro) | split
    | dsimp only

theorem State.rampStep_after {m' q' : Nat} {u' : State} {s : State} {x : Str} (h' : Keeps m' q' u' s)
    (hm' : Nat.lor 0x100000000000000000000000000000000000 m' = m') (hq' : Nat.lor 0x800 q' = q') : Keeps m' q' u' (s.rampStep x) := by
  refine Keeps.after ?_ hm' hq' h'
  clear hm' hq' h'
  unfold State.rampStep
  with_reducible repeat' first
    | assumption | exact Keeps.refl _ | (apply Keeps.wr; rotate_left; decide)
    | (apply State.modSce_after; rotate_left; decide; decide) | (intro) | split | dsimp only

theorem State.actuatorOutput_after {m' q' : Nat} {u' : State} {s : State} {x : Str} (h' : Keeps m' q' u' s)
    (hm' : Nat.lor 0x8000000000000000000000000000000000000000000000000000000000000000000000000000000000000000000000000000000000000000000000000000000000000000000000000000e00980000003a00000000000000000000000000 m' = m') (hq' : Nat.lor 0x20832 q' = q') : Keeps m' q' u' (s.actuatorOutput x) := by
  refine Keeps.after ?_ hm' hq' h'
  clear hm' hq' h'
  unfold State.actuatorOutput
  with_reducible repeat' first
    | assumption | exact Keeps.refl _ | (apply Keeps.wr; rotate_left; decide) | (apply Keeps.unflag; rotate_left; decide)
    | (apply State.at_after; rotate_left; decide; decide) | (apply State.broadcast_after; rotate_left; decide; decide)
    | (apply State.limitOutputs_after; rotate_left; decide; decide)
    | (apply State.rampStep_after; rotate_left; decide; decide)
    | (apply State.runOptional_after; rotate_left; decide; decide) | apply Keeps.when | apply Keeps.ite
    | apply Keeps.ite_fst | apply Keeps.ite_snd | (intro) | split | dsimp only

theorem State.overrun_after {m' q' : Nat} {u' : State} {s : State} {x : Str} {done : Nat} (h' : Keeps m' q' u' s)
    (hm' : Nat.lor 0x8000000000000000000000000000000000000000000000000000000008000000000000000000000000000091600000000000000000000000000000000000000000000100000000000000e00800000002610000000000000000000000000 m' = m') (hq' : Nat.lor 0x26832 q' = q') : Keeps m' q' u' (s.overrun x done) := by
  refine Keeps.after ?_ hm' hq' h'
  clear hm' hq' h'
  unfold State.overrun
  with_reducible repeat' first
    | assumption | exact Keeps.refl _ | (apply Keeps.wr; rotate_left; decide) | (apply Keeps.flag; rotate_left; decide)
    | (apply State.assertWinh_after; rotate_left; decide; decide) | (apply State.at_after; rotate_left; decide; decide)
    | (apply State.modSce_after; rotate_left; decide; decide) | (apply State.runOptional_after; rotate_left; decide; decide)
    | apply Keeps.when | (intro) | split | dsimp only

theorem State.fallback_after {m' q' : Nat} {u' : State} {s : State} {x : Str} (h' : Keeps m' q' u' s)
    (hm' : Nat.lor 0x400000210040000000000000000000000000 m' = m') (hq' : Nat.lor 0x1000000 q' = q') : Keeps m' q' u' (s.fallback x) := by
  refine Keeps.after ?_ hm' hq' h'
  clear hm' hq' h'
  unfold State.fallback
  with_reducible repeat' first
    | assumption | exact Keeps.refl _ | (apply Keeps.flag; rotate_left; decide)
    | (apply State.emit_after; rotate_left; decide; decide) | (apply State.refreshCyc_after; rotate_left; decide; decide)
    | apply Keeps.when | apply Keeps.ite | apply Keeps.ite_fst | apply Keeps.ite_snd | (intro) | split | dsimp only

theorem State.lostWedgeRetract_after {m' q' : Nat} {u' : State} {s : State} {x : Str} (h' : Keeps m' q' u' s)
    (hm' : Nat.lor 0x600838000000000000000000178001800000000000000007f3d01c00008f28000000400000000180009160000000000000000000400000300000000000000000014000000000000001000000001801c000000000000000000000000 m' = m') (hq' : Nat.lor 0x10d78c1 q' = q') : Keeps m' q' u' (s.lostWedgeRetract x) := by
  refine Keeps.after ?_ hm' hq' h'
  clear hm' hq' h'
  unfold State.lostWedgeRetract
  with_reducible repeat' first
    | assumption | exact Keeps.refl _ | (apply Keeps.flag; rotate_left; decide)
    | (apply State.modStr_after; rotate_left; decide; decide)
    | (apply State.startRetract_after; rotate_left; decide; decide)
    | (apply State.stringLost_after; rotate_left; decide; decide) | apply Keeps.when | (intro) | split | dsimp only

theorem State.couplingStale_after {m' q' : Nat} {u' : State} {s : State} {x y : Str} (h' : Keeps m' q' u' s)
    (hm' : Nat.lor 0x100000000000000000000000000000 m' = m') (hq' : Nat.lor 0x800 q' = q') : Keeps m' q' u' (s.couplingStale x y) := by
  refine Keeps.after ?_ hm' hq' h'
  clear hm' hq' h'
  unfold State.couplingStale
  with_reducible repeat' first
    | assumption | exact Keeps.refl _ | (apply Keeps.flagBit; rotate_left; decide)
    | (apply State.modSce_after; rotate_left; decide; decide) | apply Keeps.when | (intro) | split | dsimp only

theorem State.settleTimeout_after {m' q' : Nat} {u' : State} {s : State} {x : Str} (h' : Keeps m' q' u' s)
    (hm' : Nat.lor 0x40000000000000000000000000000 m' = m') (hq' : Nat.lor 0x0 q' = q') : Keeps m' q' u' (s.settleTimeout x) := by
  refine Keeps.after ?_ hm' hq' h'
  clear hm' hq' h'
  unfold State.settleTimeout
  with_reducible repeat' first
    | assumption | exact Keeps.refl _ | (apply Keeps.flag; rotate_left; decide) | apply Keeps.when | (intro) | split
    | dsimp only

theorem State.sceLoad_after {m' q' : Nat} {u' : State} {s : State} {x : Str} (h' : Keeps m' q' u' s)
    (hm' : Nat.lor 0x8000000000000000000000000000091607fff80000000000fffffffffffffffc0000000000001400000080000000014000000303d4000000000000000000000000 m' = m') (hq' : Nat.lor 0x6800 q' = q') : Keeps m' q' u' (s.sceLoad x).2 := by
  refine Keeps.after ?_ hm' hq' h'
  clear hm' hq' h'
  unfold State.sceLoad
  with_reducible repeat' first
    | assumption | exact Keeps.refl _ | (apply Keeps.wr; rotate_left; decide) | (apply Keeps.flag; rotate_left; decide)
    | (apply Keeps.unflag; rotate_left; decide) | (apply State.aeLoad_after; rotate_left; decide; decide)
    | (apply State.assertWinh_after; rotate_left; decide; decide) | (apply State.modSce_after; rotate_left; decide; decide)
    | (apply State.refreshCyc_after; rotate_left; decide; decide)
    | (apply State.rewriteChannel_after; rotate_left; decide; decide)
    | (apply State.svdSearch_after; rotate_left; decide; decide) | apply Keeps.when | apply Keeps.ite | apply Keeps.ite_fst
    | apply Keeps.ite_snd | (intro) | split | dsimp only

theorem State.bankSwitch_after {m' q' : Nat} {u' : State} {s : State} {x : Str} (h' : Keeps m' q' u' s)
    (hm' : Nat.lor 0x400000030060000000000000000000000000 m' = m') (hq' : Nat.lor 0x0 q' = q') : Keeps m' q' u' (s.bankSwitch x).2 := by
  refine Keeps.after ?_ hm' hq' h'
  clear hm' hq' h'
  unfold State.bankSwitch
  with_reducible repeat' first
    | assumption | exact Keeps.refl _ | (apply Keeps.wr; rotate_left; decide) | (apply Keeps.flag; rotate_left; decide)
    | (apply Keeps.unflag; rotate_left; decide) | (apply State.refreshCyc_after; rotate_left; decide; decide)
    | apply Keeps.ite | apply Keeps.ite_fst | apply Keeps.ite_snd | (intro) | split | dsimp only

theorem State.loadTimeout_after {m' q' : Nat} {u' : State} {s : State} {x : Str} (h' : Keeps m' q' u' s)
    (hm' : Nat.lor 0x600838000000000000000000178001800000000000000007f3d01c00008f28000000400000000180009160000000000000000000400000300000000000000000014000000000000001000000008801c000000000000000000000000 m' = m') (hq' : Nat.lor 0x10d78c1 q' = q') : Keeps m' q' u' (s.loadTimeout x) := by
  refine Keeps.after ?_ hm' hq' h'
  clear hm' hq' h'
  unfold State.loadTimeout
  with_reducible repeat' first
    | assumption | exact Keeps.refl _ | (apply Keeps.flag; rotate_left; decide)
    | (apply State.modStr_after; rotate_left; decide; decide)
    | (apply State.startRetract_after; rotate_left; decide; decide)
    | (apply State.stringLost_after; rotate_left; decide; decide) | apply Keeps.when | (intro) | split | dsimp only

theorem State.loopOpen_after {m' q' : Nat} {u' : State} {s : State} {x : Str} (h' : Keeps m' q' u' s)
    (hm' : Nat.lor 0x80000000000000000000000000 m' = m') (hq' : Nat.lor 0x0 q' = q') : Keeps m' q' u' (s.loopOpen x) := by
  refine Keeps.after ?_ hm' hq' h'
  clear hm' hq' h'
  unfold State.loopOpen
  with_reducible repeat' first
    | assumption | exact Keeps.refl _ | (apply Keeps.flag; rotate_left; decide) | apply Keeps.when | (intro) | split
    | dsimp only

theorem State.rampEnd_after {m' q' : Nat} {u' : State} {s : State} {x : Str} (h' : Keeps m' q' u' s)
    (hm' : Nat.lor 0x100000000000000000000000000000000000 m' = m') (hq' : Nat.lor 0x800 q' = q') : Keeps m' q' u' (s.rampEnd x) := by
  refine Keeps.after ?_ hm' hq' h'
  clear hm' hq' h'
  unfold State.rampEnd
  with_reducible repeat' first
    | assumption | exact Keeps.refl _ | (apply Keeps.wr; rotate_left; decide)
    | (apply State.modSce_after; rotate_left; decide; decide) | apply Keeps.when | apply Keeps.ite | apply Keeps.ite_fst
    | apply Keeps.ite_snd | (intro) | split | dsimp only

theorem State.putVcm_after {m' q' : Nat} {u' : State} {s : State} {x : Str} {i : Int} (h' : Keeps m' q' u' s)
    (hm' : Nat.lor 0x80000000000000000000000000000000000 m' = m') (hq' : Nat.lor 0x800 q' = q') : Keeps m' q' u' (s.putVcm x i) := by
  refine Keeps.after ?_ hm' hq' h'
  clear hm' hq' h'
  unfold State.putVcm
  with_reducible repeat' first
    | assumption | exact Keeps.refl _ | (apply Keeps.wr; rotate_left; decide)
    | (apply State.modSce_after; rotate_left; decide; decide) | (intro) | split | dsimp only

theorem State.retractLoop_after {m' q' : Nat} {u' : State} {s : State} {x : Str} {terminal current : Int} {vm t : Nat} (h' : Keeps m' q' u' s)
    (hm' : Nat.lor 0x100000000000000000000000000000000000000000000000000000000000000000000000000000000000000000000000000000000000000000000000000000000000000000000000000180000000000000000000000000000000000 m' = m') (hq' : Nat.lor 0x80820 q' = q') : Keeps m' q' u' (s.retractLoop x terminal current vm t) := by
  refine Keeps.after ?_ hm' hq' h'
  clear hm' hq' h'
  unfold State.retractLoop
  with_reducible repeat' first
    | assumption | exact Keeps.refl _ | (apply Keeps.wr; rotate_left; decide)
    | (apply State.broadcast_after; rotate_left; decide; decide) | (apply State.drawn_after; rotate_left; decide; decide)
    | (apply State.modSce_after; rotate_left; decide; decide) | (apply State.putVcm_after; rotate_left; decide; decide)
    | (apply State.rampStep_after; rotate_left; decide; decide) | apply Keeps.when | apply Keeps.ite | apply Keeps.ite_fst
    | apply Keeps.ite_snd | (apply Keeps.of_eq_fst; assumption) | (apply Keeps.of_eq_snd; assumption) | (intro) | split
    | dsimp only | (apply Keeps.with_power; rotate_left; decide)

theorem State.retractParked_after {m' q' : Nat} {u' : State} {s : State} {x : Str} (h' : Keeps m' q' u' s)
    (hm' : Nat.lor 0x80000000000000000000000000000000000 m' = m') (hq' : Nat.lor 0x800 q' = q') : Keeps m' q' u' (s.retractParked x) := by
  refine Keeps.after ?_ hm' hq' h'
  clear hm' hq' h'
  unfold State.retractParked
  with_reducible repeat' first
    | assumption | exact Keeps.refl _ | (apply State.modSce_after; rotate_left; decide; decide)
    | (apply State.putVcm_after; rotate_left; decide; decide) | apply Keeps.when | (intro) | split | dsimp only

theorem State.retractDone_after {m' q' : Nat} {u' : State} {s : State} {x : Str} (h' : Keeps m' q' u' s)
    (hm' : Nat.lor 0x640018000000000000000000178001800000000000000000000018000000000000000000000001800000000000000000000000004000003000000000000000000040000008000000010080000000004000004c00000000000003a00 m' = m') (hq' : Nat.lor 0x10d7d01 q' = q') : Keeps m' q' u' (s.retractDone x) := by
  refine Keeps.after ?_ hm' hq' h'
  clear hm' hq' h'
  unfold State.retractDone
  with_reducible repeat' first
    | assumption | exact Keeps.refl _ | (apply Keeps.wr; rotate_left; decide) | (apply Keeps.flagBit; rotate_left; decide)
    | (apply State.aeOff_after; rotate_left; decide; decide) | (apply State.finishLost_after; rotate_left; decide; decide)
    | (apply State.modSce_after; rotate_left; decide; decide) | (apply State.refreshMode_after; rotate_left; decide; decide)
    | (apply State.speHeadsParked_after; rotate_left; decide; decide)
    | (apply State.svdIdle_after; rotate_left; decide; decide) | apply Keeps.when | (intro) | split | dsimp only

theorem State.shock_after {m' q' : Nat} {u' : State} {s : State} {input level : Nat} (h' : Keeps m' q' u' s)
    (hm' : Nat.lor 0x41000000000000000000000000000000000000000000000000000000008000000000000000000000000000091600000000000000000000000000000000000000000000100000000000000000000000000010000000000000000000000000 m' = m') (hq' : Nat.lor 0x6800 q' = q') : Keeps m' q' u' (s.shock input level) := by
  refine Keeps.after ?_ hm' hq' h'
  clear hm' hq' h'
  unfold State.shock
  with_reducible repeat' first
    | assumption | exact Keeps.refl _ | (apply Keeps.flag; rotate_left; decide) | (apply Keeps.bump; rotate_left; decide)
    | (apply State.assertWinh_after; rotate_left; decide; decide) | (apply State.modSce_after; rotate_left; decide; decide)
    | apply Keeps.when | apply Keeps.ite | apply Keeps.ite_fst | apply Keeps.ite_snd | apply Keeps.foldl
    | apply Keeps.foldl_snd | apply Keeps.foldl_fst | (intro) | split | dsimp only

theorem State.shockHoldEnd_after {m' q' : Nat} {u' : State} {s : State} (h' : Keeps m' q' u' s)
    (hm' : Nat.lor 0x0 m' = m') (hq' : Nat.lor 0x800 q' = q') : Keeps m' q' u' (s.shockHoldEnd) := by
  refine Keeps.after ?_ hm' hq' h'
  clear hm' hq' h'
  unfold State.shockHoldEnd
  with_reducible repeat' first
    | assumption | exact Keeps.refl _ | (apply State.modSce_after; rotate_left; decide; decide) | apply Keeps.foldl
    | apply Keeps.foldl_snd | apply Keeps.foldl_fst | (intro) | split | dsimp only

end Sys2Proof.Machine
end

