-- ==== Sys2Proof/Laws/FrameData.lean ====
section
/-! SUPPORT. Laws/FrameData.lean: what each operation of the model keeps, one lemma each: recovery, Harp, keys, the write path, Phovi, the Cabinet and the Bridge. The numbers are the masks of
`Keeps`. -/
namespace Sys2Proof.Machine
set_option linter.unreachableTactic false
set_option linter.unusedTactic false

/-! ### Recovery -/

theorem State.modLadder_after {m' q' : Nat} {u' : State} {s : State} {x : Str} {id : Nat} {f : Ladder → Ladder} (h' : Keeps m' q' u' s)
    (hm' : Nat.lor 0x0 m' = m') (hq' : Nat.lor 0x800 q' = q') : Keeps m' q' u' (s.modLadder x id f) := by
  refine Keeps.after ?_ hm' hq' h'
  clear hm' hq' h'
  unfold State.modLadder
  with_reducible repeat' first
    | assumption | exact Keeps.refl _ | (apply State.modStr_after; rotate_left; decide; decide) | apply Keeps.ite
    | apply Keeps.ite_fst | apply Keeps.ite_snd | (intro) | split | dsimp only

theorem State.ladderRefresh_after {m' q' : Nat} {u' : State} {s : State} {x : Str} (h' : Keeps m' q' u' s)
    (hm' : Nat.lor 0x1800000000000000000000000000000000000000000000000000000000000000000000000000000000000000000000000000000000 m' = m') (hq' : Nat.lor 0x0 q' = q') : Keeps m' q' u' (s.ladderRefresh x) := by
  refine Keeps.after ?_ hm' hq' h'
  clear hm' hq' h'
  unfold State.ladderRefresh
  with_reducible repeat' first
    | assumption | exact Keeps.refl _ | (apply Keeps.wr; rotate_left; decide) | (apply Keeps.setTo; rotate_left; decide)
    | (intro) | split | dsimp only

theorem State.cancelSlot_after {m' q' : Nat} {u' : State} {s : State} {x : Str} {i : Nat} (h' : Keeps m' q' u' s)
    (hm' : Nat.lor 0x0 m' = m') (hq' : Nat.lor 0x1800 q' = q') : Keeps m' q' u' (s.cancelSlot x i) := by
  refine Keeps.after ?_ hm' hq' h'
  clear hm' hq' h'
  unfold State.cancelSlot
  with_reducible repeat' first
    | assumption | exact Keeps.refl _ | (apply State.modRch_after; rotate_left; decide; decide) | apply Keeps.ite
    | apply Keeps.ite_fst | apply Keeps.ite_snd | (apply Keeps.of_eq_fst; assumption) | (apply Keeps.of_eq_snd; assumption)
    | (intro) | split | dsimp only | (apply Keeps.with_harp; rotate_left; decide)

theorem State.freeSlot_after {m' q' : Nat} {u' : State} {s : State} {x : Str} {i : Nat} (h' : Keeps m' q' u' s)
    (hm' : Nat.lor 0x4000003000000000000000000000000000000000000000000000000000000000000000000000000 m' = m') (hq' : Nat.lor 0x1800 q' = q') : Keeps m' q' u' (s.freeSlot x i) := by
  refine Keeps.after ?_ hm' hq' h'
  clear hm' hq' h'
  unfold State.freeSlot
  with_reducible repeat' first
    | assumption | exact Keeps.refl _ | (apply State.cancelSlot_after; rotate_left; decide; decide)
    | (apply State.releaseSlot_after; rotate_left; decide; decide) | (intro) | split | dsimp only

theorem State.failSlot_after {m' q' : Nat} {u' : State} {s : State} {x : Str} {i : Nat} (h' : Keeps m' q' u' s)
    (hm' : Nat.lor 0x18000000000000000000000000000000000000000000000000004000003000000000000000000000000000000000000000000000000000000000000000000000000 m' = m') (hq' : Nat.lor 0x1800 q' = q') : Keeps m' q' u' (s.failSlot x i) := by
  refine Keeps.after ?_ hm' hq' h'
  clear hm' hq' h'
  unfold State.failSlot
  with_reducible repeat' first
    | assumption | exact Keeps.refl _ | (apply State.freeSlot_after; rotate_left; decide; decide)
    | (apply State.giveCredit_after; rotate_left; decide; decide) | (apply Keeps.of_eq_fst; assumption)
    | (apply Keeps.of_eq_snd; assumption) | (intro) | split | dsimp only

theorem State.ladderPass_after {m' q' : Nat} {u' : State} {s : State} {x : Str} {l : Ladder} {i : Nat} (h' : Keeps m' q' u' s)
    (hm' : Nat.lor 0x10000000000000000000000000000000000000000000000000000000000000000000000000000 m' = m') (hq' : Nat.lor 0x800 q' = q') : Keeps m' q' u' (s.ladderPass x l i) := by
  refine Keeps.after ?_ hm' hq' h'
  clear hm' hq' h'
  unfold State.ladderPass
  with_reducible repeat' first
    | assumption | exact Keeps.refl _ | (apply State.modLadder_after; rotate_left; decide; decide)
    | (apply State.requestPass_after; rotate_left; decide; decide) | apply Keeps.ite | apply Keeps.ite_fst
    | apply Keeps.ite_snd | (apply Keeps.of_eq_fst; assumption) | (apply Keeps.of_eq_snd; assumption) | (intro) | split
    | dsimp only

theorem State.startRung_after {m' q' : Nat} {u' : State} {s : State} {x : Str} {l : Ladder} {n : Nat} (h' : Keeps m' q' u' s)
    (hm' : Nat.lor 0x18000000000000000000000001800000000000000000000000004010003000000000000000000000000000000000000000000000000000000000000000000000000 m' = m') (hq' : Nat.lor 0x1800 q' = q') : Keeps m' q' u' (s.startRung x l n) := by
  refine Keeps.after ?_ hm' hq' h'
  clear hm' hq' h'
  unfold State.startRung
  with_reducible repeat' first
    | assumption | exact Keeps.refl _ | (apply State.failSlot_after; rotate_left; decide; decide)
    | (apply State.ladderPass_after; rotate_left; decide; decide)
    | (apply State.ladderRefresh_after; rotate_left; decide; decide)
    | (apply State.modLadder_after; rotate_left; decide; decide) | (apply State.modSlot_after; rotate_left; decide; decide)
    | apply Keeps.ite | apply Keeps.ite_fst | apply Keeps.ite_snd | (apply Keeps.of_eq_fst; assumption)
    | (apply Keeps.of_eq_snd; assumption) | (intro) | split | dsimp only

theorem State.addPending_after {m' q' : Nat} {u' : State} {s : State} {x : Str} {key : Nat} (h' : Keeps m' q' u' s)
    (hm' : Nat.lor 0x7f3d000000000000000000000000000000000000000000000000000000000000000000000000000000000000000000000000000000000000000000000000000000000000 m' = m') (hq' : Nat.lor 0x48c0 q' = q') : Keeps m' q' u' (s.addPending x key) := by
  refine Keeps.after ?_ hm' hq' h'
  clear hm' hq' h'
  unfold State.addPending
  with_reducible repeat' first
    | assumption | exact Keeps.refl _ | (apply State.journal_after; rotate_left; decide; decide)
    | (apply State.logEvent_after; rotate_left; decide; decide) | (apply State.modStr_after; rotate_left; decide; decide)
    | apply Keeps.when | apply Keeps.ite | apply Keeps.ite_fst | apply Keeps.ite_snd | (intro) | split | dsimp only

theorem State.ladderEnd_after {m' q' : Nat} {u' : State} {s : State} {x : Str} {l : Ladder} {code : Nat} (h' : Keeps m' q' u' s)
    (hm' : Nat.lor 0x38001800000000000000000000000000000000000000000000000000000000000000000010000000000000000000000000000000000000 m' = m') (hq' : Nat.lor 0x801 q' = q') : Keeps m' q' u' (s.ladderEnd x l code) := by
  refine Keeps.after ?_ hm' hq' h'
  clear hm' hq' h'
  unfold State.ladderEnd
  with_reducible repeat' first
    | assumption | exact Keeps.refl _ | (apply Keeps.wr; rotate_left; decide)
    | (apply State.ladderRefresh_after; rotate_left; decide; decide)
    | (apply State.modStr_after; rotate_left; decide; decide) | (apply State.postTarget_after; rotate_left; decide; decide)
    | apply Keeps.when | (intro) | split | dsimp only

theorem State.reportFailure_after {m' q' : Nat} {u' : State} {s : State} {l : Ladder} {vendor : Nat} (h' : Keeps m' q' u' s)
    (hm' : Nat.lor 0x78001800000000000000007f3d008000000000000000000000000000000000000000000000000000000000000000000000000000000000000000000010000000000000000000000000000000000000 m' = m') (hq' : Nat.lor 0x6801 q' = q') : Keeps m' q' u' (s.reportFailure l vendor) := by
  refine Keeps.after ?_ hm' hq' h'
  clear hm' hq' h'
  unfold State.reportFailure
  with_reducible repeat' first
    | assumption | exact Keeps.refl _ | (apply State.bceFail_after; rotate_left; decide; decide)
    | (apply State.failSector_after; rotate_left; decide; decide) | apply Keeps.ite | apply Keeps.ite_fst
    | apply Keeps.ite_snd | (apply Keeps.of_eq_fst; assumption) | (apply Keeps.of_eq_snd; assumption) | (intro) | split
    | dsimp only

theorem State.ladderFail_after {m' q' : Nat} {u' : State} {s : State} {x : Str} {l : Ladder} {vendor : Nat} (h' : Keeps m' q' u' s)
    (hm' : Nat.lor 0x78001800000000000000007f3d018000000000000000000038801800000000000000000000000004000003000000000000000000000000000000000010000000000000000000000000000000000000 m' = m') (hq' : Nat.lor 0x78c1 q' = q') : Keeps m' q' u' (s.ladderFail x l vendor) := by
  refine Keeps.after ?_ hm' hq' h'
  clear hm' hq' h'
  unfold State.ladderFail
  with_reducible repeat' first
    | assumption | exact Keeps.refl _ | (apply Keeps.bump; rotate_left; decide)
    | (apply State.addPending_after; rotate_left; decide; decide)
    | (apply State.failSlot_after; rotate_left; decide; decide) | (apply State.ladderEnd_after; rotate_left; decide; decide)
    | (apply State.reportFailure_after; rotate_left; decide; decide) | (apply Keeps.of_eq_fst; assumption)
    | (apply Keeps.of_eq_snd; assumption) | (intro) | split | dsimp only

theorem State.detach_after {m' q' : Nat} {u' : State} {s : State} {x : Str} {id : Nat} (h' : Keeps m' q' u' s)
    (hm' : Nat.lor 0x0 m' = m') (hq' : Nat.lor 0x800 q' = q') : Keeps m' q' u' (s.detach x id) := by
  refine Keeps.after ?_ hm' hq' h'
  clear hm' hq' h'
  unfold State.detach
  with_reducible repeat' first
    | assumption | exact Keeps.refl _ | (apply State.modLadder_after; rotate_left; decide; decide) | (intro) | split
    | dsimp only

theorem State.streamCut_after {m' q' : Nat} {u' : State} {s : State} {x : Str} {l : Ladder} {n : Nat} (h' : Keeps m' q' u' s)
    (hm' : Nat.lor 0x4000000000000000000000000000000000000000000000000000000000000000000000000000000000000000000000000000000000 m' = m') (hq' : Nat.lor 0x2800 q' = q') : Keeps m' q' u' (s.streamCut x l n) := by
  refine Keeps.after ?_ hm' hq' h'
  clear hm' hq' h'
  unfold State.streamCut
  with_reducible repeat' first
    | assumption | exact Keeps.refl _ | (apply Keeps.flag; rotate_left; decide)
    | (apply State.detach_after; rotate_left; decide; decide) | (apply State.failSector_after; rotate_left; decide; decide)
    | apply Keeps.ite | apply Keeps.ite_fst | apply Keeps.ite_snd | (intro) | split | dsimp only

theorem State.subFailed_after {m' q' : Nat} {u' : State} {s : State} {x : Str} {l : Ladder} (h' : Keeps m' q' u' s)
    (hm' : Nat.lor 0x18000000000000000000000000000000000000000000000000004000003000000000000000000000000000000000000000000000000000000000000000000000000 m' = m') (hq' : Nat.lor 0x1800 q' = q') : Keeps m' q' u' (s.subFailed x l) := by
  refine Keeps.after ?_ hm' hq' h'
  clear hm' hq' h'
  unfold State.subFailed
  with_reducible repeat' first
    | assumption | exact Keeps.refl _ | (apply State.failSlot_after; rotate_left; decide; decide)
    | (apply State.modStr_after; rotate_left; decide; decide) | (apply Keeps.of_eq_fst; assumption)
    | (apply Keeps.of_eq_snd; assumption) | (intro) | split | dsimp only

theorem State.advance_after {m' q' : Nat} {u' : State} {s : State} {x : Str} {l : Ladder} (h' : Keeps m' q' u' s)
    (hm' : Nat.lor 0x78001800000000000000007f3d018000000000000000000038805800000000000000000000000004010003000000000000000000000000000000000010000000000000000000000000000000000000 m' = m') (hq' : Nat.lor 0x78c1 q' = q') : Keeps m' q' u' (s.advance x l).2 := by
  refine Keeps.after ?_ hm' hq' h'
  clear hm' hq' h'
  unfold State.advance
  with_reducible repeat' first
    | assumption | exact Keeps.refl _ | (apply State.ladderFail_after; rotate_left; decide; decide)
    | (apply State.postTarget_after; rotate_left; decide; decide)
    | (apply State.startRung_after; rotate_left; decide; decide)
    | (apply State.streamCut_after; rotate_left; decide; decide)
    | (apply State.subFailed_after; rotate_left; decide; decide) | apply Keeps.when | (apply Keeps.of_eq_fst; assumption)
    | (apply Keeps.of_eq_snd; assumption) | (intro) | split | dsimp only

theorem State.parityAdvance_after {m' q' : Nat} {u' : State} {s : State} {x : Str} {id : Nat} (h' : Keeps m' q' u' s)
    (hm' : Nat.lor 0x78001800000000000000007f3d018000000000000000000038805800000000000000000000000004010003000000000000000000000000000000000010000000000000000000000000000000000000 m' = m') (hq' : Nat.lor 0xf8c1 q' = q') : Keeps m' q' u' (s.parityAdvance x id) := by
  refine Keeps.after ?_ hm' hq' h'
  clear hm' hq' h'
  unfold State.parityAdvance
  with_reducible repeat' first
    | assumption | exact Keeps.refl _ | (apply State.advance_after; rotate_left; decide; decide)
    | (apply State.ladderRefresh_after; rotate_left; decide; decide)
    | (apply State.modLadder_after; rotate_left; decide; decide) | apply Keeps.ite | apply Keeps.ite_fst
    | apply Keeps.ite_snd | (apply Keeps.of_eq_fst; assumption) | (apply Keeps.of_eq_snd; assumption) | (intro) | split
    | dsimp only | (apply Keeps.with_cab; rotate_left; decide)

theorem State.rungFail_after {m' q' : Nat} {u' : State} {s : State} {x : Str} {id : Nat} (h' : Keeps m' q' u' s)
    (hm' : Nat.lor 0x78001800000000000000007f3d018000000000000000000038805800000000000000000000000004010003000000000000000000000000000000000010000000000000000000000000000000000000 m' = m') (hq' : Nat.lor 0xf8c1 q' = q') : Keeps m' q' u' (s.rungFail x id) := by
  refine Keeps.after ?_ hm' hq' h'
  clear hm' hq' h'
  unfold State.rungFail
  with_reducible repeat' first
    | assumption | exact Keeps.refl _ | (apply State.advance_after; rotate_left; decide; decide)
    | (apply State.modLadder_after; rotate_left; decide; decide)
    | (apply State.parityAdvance_after; rotate_left; decide; decide) | apply Keeps.ite | apply Keeps.ite_fst
    | apply Keeps.ite_snd | (apply Keeps.of_eq_fst; assumption) | (apply Keeps.of_eq_snd; assumption) | (intro) | split
    | dsimp only

theorem State.enterLadder_after {m' q' : Nat} {u' : State} {s : State} {x : Str} {slot : Option Nat} {a : Armed} {head from' : Nat} (h' : Keeps m' q' u' s)
    (hm' : Nat.lor 0x78001800000000000000007f3d01800000000000000000003ffffff8000000000000000000000004010003000000000000000000000000000000000010000000000000000000000000000000000000 m' = m') (hq' : Nat.lor 0xf8c1 q' = q') : Keeps m' q' u' (s.enterLadder x slot a head from') := by
  refine Keeps.after ?_ hm' hq' h'
  clear hm' hq' h'
  unfold State.enterLadder
  with_reducible repeat' first
    | assumption | exact Keeps.refl _ | (apply State.boundary_after; rotate_left; decide; decide)
    | (apply State.modSlot_after; rotate_left; decide; decide) | (apply State.modStr_after; rotate_left; decide; decide)
    | (apply State.rungFail_after; rotate_left; decide; decide)
    | (apply Keeps.bump; rotate_left; (simp only [rungCounter]; repeat' split) <;> decide) | apply Keeps.ite
    | apply Keeps.ite_fst | apply Keeps.ite_snd | (apply Keeps.of_eq_fst; assumption) | (apply Keeps.of_eq_snd; assumption)
    | (intro) | split | dsimp only

theorem State.schedule_after {m' q' : Nat} {u' : State} {s : State} {x : Str} {l : Ladder} {w : Codeword} (h' : Keeps m' q' u' s)
    (hm' : Nat.lor 0x7f3d000000000000000000000001000000000000000000000000000000000000000000000000000000000000000000000000000000000000000000000000000000000000 m' = m') (hq' : Nat.lor 0x6800 q' = q') : Keeps m' q' u' (s.schedule x l w) := by
  refine Keeps.after ?_ hm' hq' h'
  clear hm' hq' h'
  unfold State.schedule
  with_reducible repeat' first
    | assumption | exact Keeps.refl _ | (apply Keeps.bump; rotate_left; decide)
    | (apply State.journal_after; rotate_left; decide; decide) | (apply State.modStr_after; rotate_left; decide; decide)
    | (apply State.requestSkips_after; rotate_left; decide; decide) | apply Keeps.ite | apply Keeps.ite_fst
    | apply Keeps.ite_snd | (apply Keeps.of_eq_fst; assumption) | (apply Keeps.of_eq_snd; assumption) | apply Keeps.elim
    | (intro) | split | dsimp only

theorem State.ladderDone_after {m' q' : Nat} {u' : State} {s : State} {x : Str} {l : Ladder} {w : Codeword} (h' : Keeps m' q' u' s)
    (hm' : Nat.lor 0x7f3d0000000000000000000000397f9800000000000000000000000000000000000000000000000000000000000000000010000000000000000000000000000000000000 m' = m') (hq' : Nat.lor 0x6801 q' = q') : Keeps m' q' u' (s.ladderDone x l w) := by
  refine Keeps.after ?_ hm' hq' h'
  clear hm' hq' h'
  unfold State.ladderDone
  with_reducible repeat' first
    | assumption | exact Keeps.refl _ | (apply Keeps.bump; rotate_left; decide)
    | (apply State.ladderEnd_after; rotate_left; decide; decide) | (apply State.schedule_after; rotate_left; decide; decide)
    | (apply Keeps.bump; rotate_left; (simp only [rungCounter]; repeat' split) <;> decide) | apply Keeps.ite
    | apply Keeps.ite_fst | apply Keeps.ite_snd | (intro) | split | dsimp only

theorem State.ladderTagFail_after {m' q' : Nat} {u' : State} {s : State} {x : Str} {l : Ladder} (h' : Keeps m' q' u' s)
    (hm' : Nat.lor 0x78001800000000000000007f3d018000000000000000000038801800000000000000000000000004010003000000000000000000000000000000000010000000000000000000000000000000000000 m' = m') (hq' : Nat.lor 0x78c1 q' = q') : Keeps m' q' u' (s.ladderTagFail x l) := by
  refine Keeps.after ?_ hm' hq' h'
  clear hm' hq' h'
  unfold State.ladderTagFail
  with_reducible repeat' first
    | assumption | exact Keeps.refl _ | (apply State.ladderFail_after; rotate_left; decide; decide)
    | (apply State.modLadder_after; rotate_left; decide; decide)
    | (apply State.postTarget_after; rotate_left; decide; decide)
    | (apply State.startRung_after; rotate_left; decide; decide) | apply Keeps.when | (apply Keeps.of_eq_fst; assumption)
    | (apply Keeps.of_eq_snd; assumption) | (intro) | split | dsimp only

theorem State.skipRung_after {m' q' : Nat} {u' : State} {s : State} {x : Str} {l : Ladder} (h' : Keeps m' q' u' s)
    (hm' : Nat.lor 0x78001800000000000000007f3d018000000000000000000038805800000000000000000000000004010003000000000000000000000000000000000010000000000000000000000000000000000000 m' = m') (hq' : Nat.lor 0xf8c1 q' = q') : Keeps m' q' u' (s.skipRung x l) := by
  refine Keeps.after ?_ hm' hq' h'
  clear hm' hq' h'
  unfold State.skipRung
  with_reducible repeat' first
    | assumption | exact Keeps.refl _ | (apply State.advance_after; rotate_left; decide; decide)
    | (apply State.parityAdvance_after; rotate_left; decide; decide) | (apply Keeps.of_eq_fst; assumption)
    | (apply Keeps.of_eq_snd; assumption) | (intro) | split | dsimp only

theorem State.stopLadder_after {m' q' : Nat} {u' : State} {s : State} {x : Str} {l : Ladder} (h' : Keeps m' q' u' s)
    (hm' : Nat.lor 0x78001800000000000000007f3d018000000000000000000038805800000000000000000000000004010003000000000000000000000000000000000010000000000000000000000000000000000000 m' = m') (hq' : Nat.lor 0xf8c1 q' = q') : Keeps m' q' u' (s.stopLadder x l) := by
  refine Keeps.after ?_ hm' hq' h'
  clear hm' hq' h'
  unfold State.stopLadder
  with_reducible repeat' first
    | assumption | exact Keeps.refl _ | (apply State.ladderFail_after; rotate_left; decide; decide)
    | (apply State.parityAdvance_after; rotate_left; decide; decide)
    | (apply State.subFailed_after; rotate_left; decide; decide) | (apply Keeps.of_eq_fst; assumption)
    | (apply Keeps.of_eq_snd; assumption) | (intro) | split | dsimp only

theorem State.ladderRevolution_after {m' q' : Nat} {u' : State} {s : State} {x : Str} {turn : LadderTurn} (h' : Keeps m' q' u' s)
    (hm' : Nat.lor 0x78001800000000000000007f3d018000000000000000000038805800000000000000000000000004010003000000000000000000000000000000000010000000000000000000000000000000000000 m' = m') (hq' : Nat.lor 0xf8c1 q' = q') : Keeps m' q' u' (s.ladderRevolution x turn) := by
  refine Keeps.after ?_ hm' hq' h'
  clear hm' hq' h'
  unfold State.ladderRevolution
  with_reducible repeat' first
    | assumption | exact Keeps.refl _ | (apply State.modLadder_after; rotate_left; decide; decide)
    | (apply State.newRequestId_after; rotate_left; decide; decide)
    | (apply State.postRequest_after; rotate_left; decide; decide)
    | (apply State.skipRung_after; rotate_left; decide; decide)
    | (apply State.stopLadder_after; rotate_left; decide; decide) | apply Keeps.ite | apply Keeps.ite_fst
    | apply Keeps.ite_snd | (apply Keeps.of_eq_fst; assumption) | (apply Keeps.of_eq_snd; assumption) | (intro) | split
    | dsimp only

theorem State.parityPass_after {m' q' : Nat} {u' : State} {s : State} {x : Str} {turn : LadderTurn} (h' : Keeps m' q' u' s)
    (hm' : Nat.lor 0x78001800000000000000007f3d018000000000000000000038805800000000000000000000000004010003000000000000000000000000000000000010000000000000000000000000000000000000 m' = m') (hq' : Nat.lor 0xf8c1 q' = q') : Keeps m' q' u' (s.parityPass x turn) := by
  refine Keeps.after ?_ hm' hq' h'
  clear hm' hq' h'
  unfold State.parityPass
  with_reducible repeat' first
    | assumption | exact Keeps.refl _ | (apply State.modLadder_after; rotate_left; decide; decide)
    | (apply State.parityAdvance_after; rotate_left; decide; decide)
    | (apply State.postPlaces_after; rotate_left; decide; decide)
    | (apply State.skipRung_after; rotate_left; decide; decide)
    | (apply State.stopLadder_after; rotate_left; decide; decide) | apply Keeps.ite | apply Keeps.ite_fst
    | apply Keeps.ite_snd | (apply Keeps.of_eq_fst; assumption) | (apply Keeps.of_eq_snd; assumption) | (intro) | split
    | dsimp only

theorem State.ladderResume_after {m' q' : Nat} {u' : State} {s : State} {x : Str} (h' : Keeps m' q' u' s)
    (hm' : Nat.lor 0x1800000000000000000000000000000000000000000000000000000000000000000000000000000000000000000000000000000000 m' = m') (hq' : Nat.lor 0x800 q' = q') : Keeps m' q' u' (s.ladderResume x) := by
  refine Keeps.after ?_ hm' hq' h'
  clear hm' hq' h'
  unfold State.ladderResume
  with_reducible repeat' first
    | assumption | exact Keeps.refl _ | (apply State.ladderRefresh_after; rotate_left; decide; decide)
    | (apply State.modLadder_after; rotate_left; decide; decide) | apply Keeps.ite | apply Keeps.ite_fst
    | apply Keeps.ite_snd | (apply Keeps.of_eq_fst; assumption) | (apply Keeps.of_eq_snd; assumption) | (intro) | split
    | dsimp only

theorem State.detachOf_after {m' q' : Nat} {u' : State} {s : State} {x : Str} {f : Nat} (h' : Keeps m' q' u' s)
    (hm' : Nat.lor 0x0 m' = m') (hq' : Nat.lor 0x800 q' = q') : Keeps m' q' u' (s.detachOf x f) := by
  refine Keeps.after ?_ hm' hq' h'
  clear hm' hq' h'
  unfold State.detachOf
  with_reducible repeat' first
    | assumption | exact Keeps.refl _ | (apply State.modStr_after; rotate_left; decide; decide) | apply Keeps.ite
    | apply Keeps.ite_fst | apply Keeps.ite_snd | (intro) | split | dsimp only

theorem State.tlerExpiry_after {m' q' : Nat} {u' : State} {s : State} {f : Nat} (h' : Keeps m' q' u' s)
    (hm' : Nat.lor 0x4000000000000000000000000000000000000000000000000000000000000000000000000000000000000000000000000000000000 m' = m') (hq' : Nat.lor 0x2800 q' = q') : Keeps m' q' u' (s.tlerExpiry f) := by
  refine Keeps.after ?_ hm' hq' h'
  clear hm' hq' h'
  unfold State.tlerExpiry
  with_reducible repeat' first
    | assumption | exact Keeps.refl _ | (apply Keeps.flag; rotate_left; decide)
    | (apply State.detachOf_after; rotate_left; decide; decide)
    | (apply State.failSector_after; rotate_left; decide; decide) | apply Keeps.ite | apply Keeps.ite_fst
    | apply Keeps.ite_snd | apply Keeps.foldl | apply Keeps.foldl_snd | apply Keeps.foldl_fst
    | (apply Keeps.of_eq_fst; assumption) | (apply Keeps.of_eq_snd; assumption) | (intro) | split | dsimp only

/-! ### Harp -/

theorem State.modHarp_after {m' q' : Nat} {u' : State} {s : State} {f : Harp → Harp} (h' : Keeps m' q' u' s)
    (hm' : Nat.lor 0x0 m' = m') (hq' : Nat.lor 0x1000 q' = q') : Keeps m' q' u' (s.modHarp f) := by
  refine Keeps.after ?_ hm' hq' h'
  clear hm' hq' h'
  unfold State.modHarp
  with_reducible repeat' first
    | assumption | exact Keeps.refl _ | (intro) | split | dsimp only | (apply Keeps.with_harp; rotate_left; decide)

theorem State.setLane_after {m' q' : Nat} {u' : State} {s : State} {n : Nat} {j : LaneJob} (h' : Keeps m' q' u' s)
    (hm' : Nat.lor 0x0 m' = m') (hq' : Nat.lor 0x1000 q' = q') : Keeps m' q' u' (s.setLane n j) := by
  refine Keeps.after ?_ hm' hq' h'
  clear hm' hq' h'
  unfold State.setLane
  with_reducible repeat' first
    | assumption | exact Keeps.refl _ | (apply State.modHarp_after; rotate_left; decide; decide) | (intro) | split
    | dsimp only

theorem State.setStrikes_after {m' q' : Nat} {u' : State} {s : State} {n v : Nat} (h' : Keeps m' q' u' s)
    (hm' : Nat.lor 0x7f3d000000000000000000000000000000000000000000006000000000000000000000000000000000000000000000000000000000000000000000000000000000000000 m' = m') (hq' : Nat.lor 0x4000 q' = q') : Keeps m' q' u' (s.setStrikes n v) := by
  refine Keeps.after ?_ hm' hq' h'
  clear hm' hq' h'
  unfold State.setStrikes
  with_reducible repeat' first
    | assumption | exact Keeps.refl _ | (apply Keeps.wr; rotate_left; decide)
    | (apply State.journal_after; rotate_left; decide; decide) | apply Keeps.ite | apply Keeps.ite_fst | apply Keeps.ite_snd
    | (intro) | split | dsimp only

theorem State.noLanes_after {m' q' : Nat} {u' : State} {s : State} (h' : Keeps m' q' u' s)
    (hm' : Nat.lor 0x78001800000000000000000000018000000000000000000000001800000000000000000000000004000003000000000000000000000000000000000000000000000000000000000000000000000000 m' = m') (hq' : Nat.lor 0x3800 q' = q') : Keeps m' q' u' (s.noLanes) := by
  refine Keeps.after ?_ hm' hq' h'
  clear hm' hq' h'
  unfold State.noLanes
  with_reducible repeat' first
    | assumption | exact Keeps.refl _ | (apply State.failReads_after; rotate_left; decide; decide)
    | (apply State.modHarp_after; rotate_left; decide; decide) | apply Keeps.foldl | apply Keeps.foldl_snd
    | apply Keeps.foldl_fst | (intro) | split | dsimp only

theorem State.harpRefresh_after {m' q' : Nat} {u' : State} {s : State} (h' : Keeps m' q' u' s)
    (hm' : Nat.lor 0x3800000000000000000007800180000000000000000000001c00000f080000000000000001800000000000000000007000004000003000000000000000000000000000000000000000000000000000000000000000000000000 m' = m') (hq' : Nat.lor 0x10c38c0 q' = q') : Keeps m' q' u' (s.harpRefresh) := by
  refine Keeps.after ?_ hm' hq' h'
  clear hm' hq' h'
  unfold State.harpRefresh
  with_reducible repeat' first
    | assumption | exact Keeps.refl _ | (apply Keeps.wr; rotate_left; decide) | (apply Keeps.flag; rotate_left; decide)
    | (apply Keeps.unflag; rotate_left; decide) | (apply State.logEvent_after; rotate_left; decide; decide)
    | (apply State.modHarp_after; rotate_left; decide; decide) | (apply State.noLanes_after; rotate_left; decide; decide)
    | (apply State.setDegr_after; rotate_left; decide; decide)
    | (apply State.streamRefresh_after; rotate_left; decide; decide)
    | (apply State.vendorEvent_after; rotate_left; decide; decide) | apply Keeps.when | apply Keeps.ite
    | apply Keeps.ite_fst | apply Keeps.ite_snd | (intro) | split | dsimp only

theorem State.retireLane_after {m' q' : Nat} {u' : State} {s : State} {n cause : Nat} (h' : Keeps m' q' u' s)
    (hm' : Nat.lor 0x38000000000000000000078001800000000000000007f3d01c00008f2800000040000000018000000000001c0000c0f000004000003000000000000000000000000000000000000000000000000000000000000000000000000 m' = m') (hq' : Nat.lor 0x10c78c0 q' = q') : Keeps m' q' u' (s.retireLane n cause) := by
  refine Keeps.after ?_ hm' hq' h'
  clear hm' hq' h'
  unfold State.retireLane
  with_reducible repeat' first
    | assumption | exact Keeps.refl _ | (apply Keeps.wr; rotate_left; decide) | (apply Keeps.flag; rotate_left; decide)
    | (apply Keeps.flagBit; rotate_left; decide) | (apply Keeps.unflagBit; rotate_left; decide)
    | (apply State.harpRefresh_after; rotate_left; decide; decide)
    | (apply State.journal_after; rotate_left; decide; decide) | (apply State.logEvent_after; rotate_left; decide; decide)
    | (apply State.readmitReads_after; rotate_left; decide; decide) | (intro) | split | dsimp only

theorem State.startSelfTest_after {m' q' : Nat} {u' : State} {s : State} {n : Nat} (h' : Keeps m' q' u' s)
    (hm' : Nat.lor 0x3800000000000000000007800180000000000000000000001c00000f080000000000000001800000000000000000807000004000003000000000000000000000000000000000000000000000000000000000000000000000000 m' = m') (hq' : Nat.lor 0x10c38c0 q' = q') : Keeps m' q' u' (s.startSelfTest n) := by
  refine Keeps.after ?_ hm' hq' h'
  clear hm' hq' h'
  unfold State.startSelfTest
  with_reducible repeat' first
    | assumption | exact Keeps.refl _ | (apply Keeps.flagBit; rotate_left; decide)
    | (apply State.harpRefresh_after; rotate_left; decide; decide)
    | (apply State.setLane_after; rotate_left; decide; decide) | (intro) | split | dsimp only

theorem State.offer_after {m' q' : Nat} {u' : State} {s : State} {e : HarpEntry} (h' : Keeps m' q' u' s)
    (hm' : Nat.lor 0x100040000000000000000000000000000000000000000000000000000000000000000000000000000000000000 m' = m') (hq' : Nat.lor 0x1000 q' = q') : Keeps m' q' u' (s.offer e).2 := by
  refine Keeps.after ?_ hm' hq' h'
  clear hm' hq' h'
  unfold State.offer
  with_reducible repeat' first
    | assumption | exact Keeps.refl _ | (apply Keeps.flag; rotate_left; decide) | (apply Keeps.bump; rotate_left; decide)
    | (apply State.modHarp_after; rotate_left; decide; decide) | apply Keeps.ite | apply Keeps.ite_fst | apply Keeps.ite_snd
    | (apply Keeps.of_eq_fst; assumption) | (apply Keeps.of_eq_snd; assumption) | (intro) | split | dsimp only

theorem State.refillStore_after {m' q' : Nat} {u' : State} {s : State} (h' : Keeps m' q' u' s)
    (hm' : Nat.lor 0x0 m' = m') (hq' : Nat.lor 0x1000 q' = q') : Keeps m' q' u' (s.refillStore) := by
  refine Keeps.after ?_ hm' hq' h'
  clear hm' hq' h'
  unfold State.refillStore
  with_reducible repeat' first
    | assumption | exact Keeps.refl _ | (apply State.modHarp_after; rotate_left; decide; decide) | apply Keeps.ite
    | apply Keeps.ite_fst | apply Keeps.ite_snd | (apply Keeps.of_eq_fst; assumption) | (apply Keeps.of_eq_snd; assumption)
    | (intro) | split | dsimp only

theorem State.harpDispatch_after {m' q' : Nat} {u' : State} {s : State} (h' : Keeps m' q' u' s)
    (hm' : Nat.lor 0x7ffffffffff0000000000000000000000000000000000000000000000000000000000000000000000000000000000 m' = m') (hq' : Nat.lor 0x1001 q' = q') : Keeps m' q' u' (s.harpDispatch) := by
  refine Keeps.after ?_ hm' hq' h'
  clear hm' hq' h'
  unfold State.harpDispatch
  with_reducible repeat' first
    | assumption | exact Keeps.refl _ | (apply State.boundary_after; rotate_left; decide; decide)
    | (apply State.modHarp_after; rotate_left; decide; decide)
    | (apply State.refillStore_after; rotate_left; decide; decide)
    | (apply State.setLane_after; rotate_left; decide; decide) | apply Keeps.ite | apply Keeps.ite_fst | apply Keeps.ite_snd
    | (apply Keeps.of_eq_fst; assumption) | (apply Keeps.of_eq_snd; assumption) | (intro) | split | dsimp only

theorem State.slipIssue_after {m' q' : Nat} {u' : State} {s : State} {x : Str} {i : Nat} {fuel : Nat} (h' : Keeps m' q' u' s)
    (hm' : Nat.lor 0x10000000000000000000000000000000000000000000000000000000000000000000000000000 m' = m') (hq' : Nat.lor 0x800 q' = q') : Keeps m' q' u' (s.slipIssue x i fuel) := by
  refine Keeps.after ?_ hm' hq' h'
  clear hm' hq' h'
  suffices H : ∀ u, Keeps 0x10000000000000000000000000000000000000000000000000000000000000000000000000000 0x800 u s → Keeps 0x10000000000000000000000000000000000000000000000000000000000000000000000000000 0x800 u (s.slipIssue x i fuel) from H _ (Keeps.refl _)
  induction fuel generalizing s x i with
  | zero =>
    intro u hu
    simp only [State.slipIssue]
    with_reducible repeat' first
      | assumption | exact Keeps.refl _ | (apply State.modSlot_after; rotate_left; decide; decide)
      | (apply State.requestPass_after; rotate_left; decide; decide) | apply Keeps.ite | apply Keeps.ite_fst
      | apply Keeps.ite_snd | (apply Keeps.of_eq_fst; assumption) | (apply Keeps.of_eq_snd; assumption) | (intro) | split
      | dsimp only
  | succ k ih =>
    intro u hu
    simp only [State.slipIssue]
    with_reducible repeat' first
      | assumption | exact Keeps.refl _ | (apply State.modSlot_after; rotate_left; decide; decide)
      | (apply State.requestPass_after; rotate_left; decide; decide) | apply ih | apply Keeps.ite | apply Keeps.ite_fst
      | apply Keeps.ite_snd | (apply Keeps.of_eq_fst; assumption) | (apply Keeps.of_eq_snd; assumption) | (intro) | split
      | dsimp only

theorem State.slipStart_after {m' q' : Nat} {u' : State} {s : State} {x : Str} {i : Nat} (h' : Keeps m' q' u' s)
    (hm' : Nat.lor 0x10000000000000000000000000000000000000000000000000000000000000000000000000000 m' = m') (hq' : Nat.lor 0x800 q' = q') : Keeps m' q' u' (s.slipStart x i) := by
  refine Keeps.after ?_ hm' hq' h'
  clear hm' hq' h'
  unfold State.slipStart
  with_reducible repeat' first
    | assumption | exact Keeps.refl _ | (apply State.modSlot_after; rotate_left; decide; decide)
    | (apply State.slipIssue_after; rotate_left; decide; decide) | (intro) | split | dsimp only

theorem State.positionRead_after {m' q' : Nat} {u' : State} {s : State} {x : Str} {id p : Nat} {ok : Bool} (h' : Keeps m' q' u' s)
    (hm' : Nat.lor 0x0 m' = m') (hq' : Nat.lor 0x800 q' = q') : Keeps m' q' u' (s.positionRead x id p ok) := by
  refine Keeps.after ?_ hm' hq' h'
  clear hm' hq' h'
  unfold State.positionRead
  with_reducible repeat' first
    | assumption | exact Keeps.refl _ | (apply State.modLadder_after; rotate_left; decide; decide) | apply Keeps.ite
    | apply Keeps.ite_fst | apply Keeps.ite_snd | (intro) | split | dsimp only

theorem State.toCabinet_after {m' q' : Nat} {u' : State} {s : State} {x : Str} {lane : Nat} {e : HarpEntry} {j : CabJob} (h' : Keeps m' q' u' s)
    (hm' : Nat.lor 0x80001000000000000000000000000000000000000000000000000000000000004000003000000000000000000000000000000000000000000000000000000000000000000000000 m' = m') (hq' : Nat.lor 0x9800 q' = q') : Keeps m' q' u' (s.toCabinet x lane e j) := by
  refine Keeps.after ?_ hm' hq' h'
  clear hm' hq' h'
  unfold State.toCabinet
  with_reducible repeat' first
    | assumption | exact Keeps.refl _ | (apply Keeps.flag; rotate_left; decide) | (apply Keeps.bump; rotate_left; decide)
    | (apply State.freeSlot_after; rotate_left; decide; decide) | (apply State.setLane_after; rotate_left; decide; decide)
    | apply Keeps.when | (intro) | split | dsimp only | (apply Keeps.with_cab; rotate_left; decide)

theorem State.deliverInline_after {m' q' : Nat} {u' : State} {s : State} {x : Str} {lane : Nat} {e : HarpEntry} {c : Slot} {w : Content} (h' : Keeps m' q' u' s)
    (hm' : Nat.lor 0x78001800000000080001007f3d018000000000000000000000000000000000000000000000000004000003000000000000000000000000000000000010000000000000000000000000000000000000 m' = m') (hq' : Nat.lor 0xf801 q' = q') : Keeps m' q' u' (s.deliverInline x lane e c w) := by
  refine Keeps.after ?_ hm' hq' h'
  clear hm' hq' h'
  unfold State.deliverInline
  with_reducible repeat' first
    | assumption | exact Keeps.refl _ | (apply State.bceDeliver_after; rotate_left; decide; decide)
    | (apply State.failSlot_after; rotate_left; decide; decide) | (apply State.freeSlot_after; rotate_left; decide; decide)
    | (apply State.toCabinet_after; rotate_left; decide; decide) | apply Keeps.ite | apply Keeps.ite_fst
    | apply Keeps.ite_snd | (apply Keeps.of_eq_fst; assumption) | (apply Keeps.of_eq_snd; assumption) | (intro) | split
    | dsimp only

theorem State.deliver_after {m' q' : Nat} {u' : State} {s : State} {x : Str} {lane : Nat} {e : HarpEntry} {c : Slot} (h' : Keeps m' q' u' s)
    (hm' : Nat.lor 0x78001800000000080001007f3d018000000000000000000038805800000000000000000000000004010003000000000000000000000000000000000010000000000000000000000000000000000000 m' = m') (hq' : Nat.lor 0xf8c1 q' = q') : Keeps m' q' u' (s.deliver x lane e c) := by
  refine Keeps.after ?_ hm' hq' h'
  clear hm' hq' h'
  unfold State.deliver
  with_reducible repeat' first
    | assumption | exact Keeps.refl _ | (apply State.deliverInline_after; rotate_left; decide; decide)
    | (apply State.failSlot_after; rotate_left; decide; decide)
    | (apply State.ladderRefresh_after; rotate_left; decide; decide)
    | (apply State.modLadder_after; rotate_left; decide; decide) | (apply State.modStr_after; rotate_left; decide; decide)
    | (apply State.parityAdvance_after; rotate_left; decide; decide)
    | (apply State.positionRead_after; rotate_left; decide; decide)
    | (apply State.toCabinet_after; rotate_left; decide; decide) | apply Keeps.ite | apply Keeps.ite_fst
    | apply Keeps.ite_snd | (apply Keeps.of_eq_fst; assumption) | (apply Keeps.of_eq_snd; assumption) | (intro) | split
    | dsimp only

theorem State.captureFailed_after {m' q' : Nat} {u' : State} {s : State} {x : Str} {l : Ladder} {i : Nat} {c : Slot} (h' : Keeps m' q' u' s)
    (hm' : Nat.lor 0x78001800000000000000007f3d01800000000000000000003ffffff8000000000000000000000004010003000000000000000000000000000000000010000000000000000000000000000000000000 m' = m') (hq' : Nat.lor 0xf8c1 q' = q') : Keeps m' q' u' (s.captureFailed x l i c) := by
  refine Keeps.after ?_ hm' hq' h'
  clear hm' hq' h'
  unfold State.captureFailed
  with_reducible repeat' first
    | assumption | exact Keeps.refl _ | (apply State.enterLadder_after; rotate_left; decide; decide)
    | (apply State.failSlot_after; rotate_left; decide; decide) | (apply State.modSlot_after; rotate_left; decide; decide)
    | (apply State.parityAdvance_after; rotate_left; decide; decide)
    | (apply State.positionRead_after; rotate_left; decide; decide)
    | (apply State.rungFail_after; rotate_left; decide; decide) | apply Keeps.ite | apply Keeps.ite_fst
    | apply Keeps.ite_snd | (intro) | split | dsimp only

theorem State.slotFailed_after {m' q' : Nat} {u' : State} {s : State} {x : Str} {i : Nat} {c : Slot} (h' : Keeps m' q' u' s)
    (hm' : Nat.lor 0x78001800000000000000007f3d01800000000000000000003ffffff8000000000000000000000004010003000000000000000000000000000000000010000000000000000000000000000000000000 m' = m') (hq' : Nat.lor 0xf8c1 q' = q') : Keeps m' q' u' (s.slotFailed x i c) := by
  refine Keeps.after ?_ hm' hq' h'
  clear hm' hq' h'
  unfold State.slotFailed
  with_reducible repeat' first
    | assumption | exact Keeps.refl _ | (apply State.adaptVerdict_after; rotate_left; decide; decide)
    | (apply State.captureFailed_after; rotate_left; decide; decide)
    | (apply State.enterLadder_after; rotate_left; decide; decide)
    | (apply State.failSlot_after; rotate_left; decide; decide) | (apply State.rungFail_after; rotate_left; decide; decide)
    | apply Keeps.ite | apply Keeps.ite_fst | apply Keeps.ite_snd | (apply Keeps.of_eq_fst; assumption)
    | (apply Keeps.of_eq_snd; assumption) | (intro) | split | dsimp only

theorem State.decodeFailed_after {m' q' : Nat} {u' : State} {s : State} {x : Str} {e : HarpEntry} {c : Slot} (h' : Keeps m' q' u' s)
    (hm' : Nat.lor 0x78001800000000000000007f3d01800000000000000000003ffffff8000000000000000000000004010003000000000000000000000000000000000010000000000000000000000000000000000000 m' = m') (hq' : Nat.lor 0xf8c1 q' = q') : Keeps m' q' u' (s.decodeFailed x e c) := by
  refine Keeps.after ?_ hm' hq' h'
  clear hm' hq' h'
  unfold State.decodeFailed
  with_reducible repeat' first
    | assumption | exact Keeps.refl _ | (apply State.slipStart_after; rotate_left; decide; decide)
    | (apply State.slotFailed_after; rotate_left; decide; decide) | apply Keeps.ite | apply Keeps.ite_fst
    | apply Keeps.ite_snd | (intro) | split | dsimp only

theorem State.slipWin_after {m' q' : Nat} {u' : State} {s : State} {x : Str} {i : Nat} {k : Int} {lane : Nat} (h' : Keeps m' q' u' s)
    (hm' : Nat.lor 0x78001800000000080001007f3d01800000000000000000003880580000000000003fc40000000004010003000000000000000000000000000000000010000000000000000000000000000000000000 m' = m') (hq' : Nat.lor 0xf8c1 q' = q') : Keeps m' q' u' (s.slipWin x i k lane) := by
  refine Keeps.after ?_ hm' hq' h'
  clear hm' hq' h'
  unfold State.slipWin
  with_reducible repeat' first
    | assumption | exact Keeps.refl _ | (apply Keeps.bump; rotate_left; decide)
    | (apply State.adaptVerdict_after; rotate_left; decide; decide)
    | (apply State.cancelSlot_after; rotate_left; decide; decide) | (apply State.deliver_after; rotate_left; decide; decide)
    | (apply State.modSlot_after; rotate_left; decide; decide)
    | (apply Keeps.bump; rotate_left; (simp only [slipBin]; repeat' split) <;> decide) | (apply Keeps.of_eq_fst; assumption)
    | (apply Keeps.of_eq_snd; assumption) | (intro) | split | dsimp only

theorem State.slipLost_after {m' q' : Nat} {u' : State} {s : State} {x : Str} {i : Nat} {k : Int} (h' : Keeps m' q' u' s)
    (hm' : Nat.lor 0x78001800000000080001007f3d01800000000000000000003ffffff800000000003fcc0000000004010003000000000000000000000000000000000010000000000000000000000000000000000000 m' = m') (hq' : Nat.lor 0xf8c1 q' = q') : Keeps m' q' u' (s.slipLost x i k) := by
  refine Keeps.after ?_ hm' hq' h'
  clear hm' hq' h'
  unfold State.slipLost
  with_reducible repeat' first
    | assumption | exact Keeps.refl _ | (apply Keeps.bump; rotate_left; decide)
    | (apply State.modSlot_after; rotate_left; decide; decide) | (apply State.slipIssue_after; rotate_left; decide; decide)
    | (apply State.slipWin_after; rotate_left; decide; decide) | (apply State.slotFailed_after; rotate_left; decide; decide)
    | apply Keeps.ite | apply Keeps.ite_fst | apply Keeps.ite_snd | (apply Keeps.of_eq_fst; assumption)
    | (apply Keeps.of_eq_snd; assumption) | (intro) | split | dsimp only

theorem State.slipHit_after {m' q' : Nat} {u' : State} {s : State} {x : Str} {lane : Nat} {e : HarpEntry} {c : Slot} (h' : Keeps m' q' u' s)
    (hm' : Nat.lor 0x78001800000000080001007f3d01800000000000000000003880580000000000003fc40000000004010003000000000000000000000000000000000010000000000000000000000000000000000000 m' = m') (hq' : Nat.lor 0xf8c1 q' = q') : Keeps m' q' u' (s.slipHit x lane e c) := by
  refine Keeps.after ?_ hm' hq' h'
  clear hm' hq' h'
  unfold State.slipHit
  with_reducible repeat' first
    | assumption | exact Keeps.refl _ | (apply State.modSlot_after; rotate_left; decide; decide)
    | (apply State.setLane_after; rotate_left; decide; decide) | (apply State.slipIssue_after; rotate_left; decide; decide)
    | (apply State.slipWin_after; rotate_left; decide; decide) | apply Keeps.ite | apply Keeps.ite_fst | apply Keeps.ite_snd
    | (apply Keeps.of_eq_fst; assumption) | (apply Keeps.of_eq_snd; assumption) | (intro) | split | dsimp only

theorem State.restartCodeword_after {m' q' : Nat} {u' : State} {s : State} {e : HarpEntry} (h' : Keeps m' q' u' s)
    (hm' : Nat.lor 0x20000000000010000000000000000000000000000000000000000000000000000000000000000000000000000 m' = m') (hq' : Nat.lor 0x800 q' = q') : Keeps m' q' u' (s.restartCodeword e) := by
  refine Keeps.after ?_ hm' hq' h'
  clear hm' hq' h'
  unfold State.restartCodeword
  with_reducible repeat' first
    | assumption | exact Keeps.refl _ | (apply Keeps.bump; rotate_left; decide)
    | (apply State.requestPass_after; rotate_left; decide; decide) | (intro) | split | dsimp only

theorem State.strike_after {m' q' : Nat} {u' : State} {s : State} {n cause : Nat} (h' : Keeps m' q' u' s)
    (hm' : Nat.lor 0x38000000000000000000078001800000000000000007f3d01c00008f2800000040000000018000000000001c0016c1f000004000003000000000000000000000000000000000000000000000000000000000000000000000000 m' = m') (hq' : Nat.lor 0x10c78c0 q' = q') : Keeps m' q' u' (s.strike n cause) := by
  refine Keeps.after ?_ hm' hq' h'
  clear hm' hq' h'
  unfold State.strike
  with_reducible repeat' first
    | assumption | exact Keeps.refl _ | (apply Keeps.flag; rotate_left; decide) | (apply Keeps.bump; rotate_left; decide)
    | (apply State.retireLane_after; rotate_left; decide; decide) | (apply State.setLane_after; rotate_left; decide; decide)
    | (apply State.setStrikes_after; rotate_left; decide; decide)
    | (apply State.startSelfTest_after; rotate_left; decide; decide) | apply Keeps.ite | apply Keeps.ite_fst
    | apply Keeps.ite_snd | (intro) | split | dsimp only

theorem State.strikeOn_after {m' q' : Nat} {u' : State} {s : State} {n cause : Nat} {e : HarpEntry} {signature : Option Nat} (h' : Keeps m' q' u' s)
    (hm' : Nat.lor 0x38000000000000000000078001800000000000000007f3d01c00008f2800000040000000018000000000001c0036c1f000004010003000000000000000000000000000000000000000000000000000000000000000000000000 m' = m') (hq' : Nat.lor 0x10c78c0 q' = q') : Keeps m' q' u' (s.strikeOn n cause e signature) := by
  refine Keeps.after ?_ hm' hq' h'
  clear hm' hq' h'
  unfold State.strikeOn
  with_reducible repeat' first
    | assumption | exact Keeps.refl _ | (apply State.modHarp_after; rotate_left; decide; decide)
    | (apply State.restartCodeword_after; rotate_left; decide; decide)
    | (apply State.strike_after; rotate_left; decide; decide) | (intro) | split | dsimp only

theorem State.retireChecker_after {m' q' : Nat} {u' : State} {s : State} {q : Nat} (h' : Keeps m' q' u' s)
    (hm' : Nat.lor 0x38000000000000000000078001800000000000000007f3d01c00008f2800000040000000018000000000001c0020e0f000004010003000000000000000000000000000000000000000000000000000000000000000000000000 m' = m') (hq' : Nat.lor 0x10c78c0 q' = q') : Keeps m' q' u' (s.retireChecker q) := by
  refine Keeps.after ?_ hm' hq' h'
  clear hm' hq' h'
  unfold State.retireChecker
  with_reducible repeat' first
    | assumption | exact Keeps.refl _ | (apply Keeps.flagBit; rotate_left; decide)
    | (apply State.journal_after; rotate_left; decide; decide) | (apply State.logEvent_after; rotate_left; decide; decide)
    | (apply State.restartCodeword_after; rotate_left; decide; decide)
    | (apply State.retireLane_after; rotate_left; decide; decide) | (apply State.setLane_after; rotate_left; decide; decide)
    | apply Keeps.when | apply Keeps.ite | apply Keeps.ite_fst | apply Keeps.ite_snd | apply Keeps.foldl
    | apply Keeps.foldl_snd | apply Keeps.foldl_fst | (apply Keeps.of_eq_fst; assumption)
    | (apply Keeps.of_eq_snd; assumption) | (intro) | split | dsimp only

theorem State.settleStrike_after {m' q' : Nat} {u' : State} {s : State} {n signature : Nat} {e : HarpEntry} (h' : Keeps m' q' u' s)
    (hm' : Nat.lor 0x38000000000000000000078001800000000000000007f3d01c00008f2800000040000000018000000000001c0026e2f000004010003000000000000000000000000000000000000000000000000000000000000000000000000 m' = m') (hq' : Nat.lor 0x10c78c0 q' = q') : Keeps m' q' u' (s.settleStrike n signature e) := by
  refine Keeps.after ?_ hm' hq' h'
  clear hm' hq' h'
  unfold State.settleStrike
  with_reducible repeat' first
    | assumption | exact Keeps.refl _ | (apply Keeps.flag; rotate_left; decide)
    | (apply Keeps.unflagBit; rotate_left; decide) | (apply State.journal_after; rotate_left; decide; decide)
    | (apply State.modHarp_after; rotate_left; decide; decide)
    | (apply State.retireChecker_after; rotate_left; decide; decide)
    | (apply State.setStrikes_after; rotate_left; decide; decide)
    | (apply State.startSelfTest_after; rotate_left; decide; decide) | apply Keeps.when | apply Keeps.ite
    | apply Keeps.ite_fst | apply Keeps.ite_snd | (apply Keeps.of_eq_fst; assumption) | (apply Keeps.of_eq_snd; assumption)
    | (intro) | split | dsimp only

theorem State.confirmed_after {m' q' : Nat} {u' : State} {s : State} {n : Nat} {e : HarpEntry} {signature : Nat} (h' : Keeps m' q' u' s)
    (hm' : Nat.lor 0x38000000000000000000078001800000000080001007f3d01c00008f28000000400003ffffff80000000001ffceef2f000004010003000000000000000000000000000000000010000000000000000000000000000000000000 m' = m') (hq' : Nat.lor 0x10cf8c1 q' = q') : Keeps m' q' u' (s.confirmed n e signature) := by
  refine Keeps.after ?_ hm' hq' h'
  clear hm' hq' h'
  unfold State.confirmed
  with_reducible repeat' first
    | assumption | exact Keeps.refl _ | (apply Keeps.flag; rotate_left; decide) | (apply Keeps.bump; rotate_left; decide)
    | (apply State.adaptVerdict_after; rotate_left; decide; decide)
    | (apply State.decodeFailed_after; rotate_left; decide; decide)
    | (apply State.deliver_after; rotate_left; decide; decide)
    | (apply State.settleStrike_after; rotate_left; decide; decide)
    | (apply State.slipHit_after; rotate_left; decide; decide) | (apply State.slipLost_after; rotate_left; decide; decide)
    | apply Keeps.ite | apply Keeps.ite_fst | apply Keeps.ite_snd | (apply Keeps.of_eq_fst; assumption)
    | (apply Keeps.of_eq_snd; assumption) | (intro) | split | dsimp only

theorem State.unconverged_after {m' q' : Nat} {u' : State} {s : State} {e : HarpEntry} {ext : List Int} (h' : Keeps m' q' u' s)
    (hm' : Nat.lor 0x78001800000000080001007f3d01800000000000000000003ffffff800000000003fcc0000000004030003080000000000000000000000000000000010000000000000000000000000000000000000 m' = m') (hq' : Nat.lor 0xf8c1 q' = q') : Keeps m' q' u' (s.unconverged e ext) := by
  refine Keeps.after ?_ hm' hq' h'
  clear hm' hq' h'
  unfold State.unconverged
  with_reducible repeat' first
    | assumption | exact Keeps.refl _ | (apply Keeps.flag; rotate_left; decide) | (apply Keeps.bump; rotate_left; decide)
    | (apply State.decodeFailed_after; rotate_left; decide; decide)
    | (apply State.requestPass_after; rotate_left; decide; decide)
    | (apply State.slipLost_after; rotate_left; decide; decide) | apply Keeps.ite | apply Keeps.ite_fst
    | apply Keeps.ite_snd | (apply Keeps.of_eq_fst; assumption) | (apply Keeps.of_eq_snd; assumption) | (intro) | split
    | dsimp only

theorem State.verdict_after {m' q' : Nat} {u' : State} {s : State} {n : Nat} {zero : Bool} (h' : Keeps m' q' u' s)
    (hm' : Nat.lor 0x38000000000000000000078001800000000080001007f3d01c00008f28000000400003ffffff80000000001ffefef3f000004030003080000000000000000000000000000000010000000000000000000000000000000000000 m' = m') (hq' : Nat.lor 0x10cf8c1 q' = q') : Keeps m' q' u' (s.verdict n zero) := by
  refine Keeps.after ?_ hm' hq' h'
  clear hm' hq' h'
  unfold State.verdict
  with_reducible repeat' first
    | assumption | exact Keeps.refl _ | (apply Keeps.bump; rotate_left; decide)
    | (apply State.confirmed_after; rotate_left; decide; decide) | (apply State.modHarp_after; rotate_left; decide; decide)
    | (apply State.retireLane_after; rotate_left; decide; decide) | (apply State.setLane_after; rotate_left; decide; decide)
    | (apply State.strikeOn_after; rotate_left; decide; decide)
    | (apply State.unconverged_after; rotate_left; decide; decide) | apply Keeps.when | apply Keeps.ite
    | apply Keeps.ite_fst | apply Keeps.ite_snd | (apply Keeps.of_eq_fst; assumption) | (apply Keeps.of_eq_snd; assumption)
    | (intro) | split | dsimp only

theorem State.passEntry_after {m' q' : Nat} {u' : State} {s : State} {x : Str} {p : Pass} {c : Slot} (h' : Keeps m' q' u' s)
    (hm' : Nat.lor 0x80000000000000000000000000000000000000000000000000000000000000000000000000000 m' = m') (hq' : Nat.lor 0x0 q' = q') : Keeps m' q' u' (s.passEntry x p c).2 := by
  refine Keeps.after ?_ hm' hq' h'
  clear hm' hq' h'
  unfold State.passEntry
  with_reducible repeat' first
    | assumption | exact Keeps.refl _ | (apply Keeps.bump; rotate_left; decide) | apply Keeps.when
    | (apply Keeps.of_eq_fst; assumption) | (apply Keeps.of_eq_snd; assumption) | (intro) | split | dsimp only

theorem State.repeatPasses_after {m' q' : Nat} {u' : State} {s : State} {x : Str} (h' : Keeps m' q' u' s)
    (hm' : Nat.lor 0x10000000000000000000000000000000000000000000000000000000000000000000000000000 m' = m') (hq' : Nat.lor 0x800 q' = q') : Keeps m' q' u' (s.repeatPasses x) := by
  refine Keeps.after ?_ hm' hq' h'
  clear hm' hq' h'
  unfold State.repeatPasses
  with_reducible repeat' first
    | assumption | exact Keeps.refl _ | (apply State.ladderPass_after; rotate_left; decide; decide)
    | (apply State.slipIssue_after; rotate_left; decide; decide) | apply Keeps.when | apply Keeps.foldl
    | apply Keeps.foldl_snd | apply Keeps.foldl_fst | (apply Keeps.of_eq_fst; assumption)
    | (apply Keeps.of_eq_snd; assumption) | (intro) | split | dsimp only

theorem State.passDone_after {m' q' : Nat} {u' : State} {s : State} {x : Str} {second : Bool} (h' : Keeps m' q' u' s)
    (hm' : Nat.lor 0x100040000000090000000000000000000000000000000000000000000000000000000000000000000000000000 m' = m') (hq' : Nat.lor 0x1800 q' = q') : Keeps m' q' u' (s.passDone x second) := by
  refine Keeps.after ?_ hm' hq' h'
  clear hm' hq' h'
  unfold State.passDone
  with_reducible repeat' first
    | assumption | exact Keeps.refl _ | (apply State.modRch_after; rotate_left; decide; decide)
    | (apply State.offer_after; rotate_left; decide; decide) | (apply State.passEntry_after; rotate_left; decide; decide)
    | (apply State.repeatPasses_after; rotate_left; decide; decide)
    | (apply State.startPasses_after; rotate_left; decide; decide) | apply Keeps.ite | apply Keeps.ite_fst
    | apply Keeps.ite_snd | (apply Keeps.of_eq_fst; assumption) | (apply Keeps.of_eq_snd; assumption) | (intro) | split
    | dsimp only

theorem State.codewordReady_after {m' q' : Nat} {u' : State} {s : State} {x : Str} {i : Nat} (h' : Keeps m' q' u' s)
    (hm' : Nat.lor 0x78001800000000000000007f3d01800000000000000000003ffffff8000000000000100040000004090003000000000000000000000000000000000010000000000000000000000000000000000000 m' = m') (hq' : Nat.lor 0xf8c1 q' = q') : Keeps m' q' u' (s.codewordReady x i) := by
  refine Keeps.after ?_ hm' hq' h'
  clear hm' hq' h'
  unfold State.codewordReady
  with_reducible repeat' first
    | assumption | exact Keeps.refl _ | (apply Keeps.bump; rotate_left; decide)
    | (apply State.captureFailed_after; rotate_left; decide; decide)
    | (apply State.enterLadder_after; rotate_left; decide; decide) | (apply State.offer_after; rotate_left; decide; decide)
    | apply Keeps.when | apply Keeps.ite | apply Keeps.ite_fst | apply Keeps.ite_snd | (apply Keeps.of_eq_fst; assumption)
    | (apply Keeps.of_eq_snd; assumption) | (intro) | split | dsimp only

theorem State.harpRetire_after {m' q' : Nat} {u' : State} {s : State} {n : Nat} (h' : Keeps m' q' u' s)
    (hm' : Nat.lor 0x38000000000000000000078001800000000000000007f3d01c00008f2800000040000000018000000000001c0020c0f400004010003000000000000000000000000000000000000000000000000000000000000000000000000 m' = m') (hq' : Nat.lor 0x10c78c0 q' = q') : Keeps m' q' u' (s.harpRetire n) := by
  refine Keeps.after ?_ hm' hq' h'
  clear hm' hq' h'
  unfold State.harpRetire
  with_reducible repeat' first
    | assumption | exact Keeps.refl _ | (apply Keeps.wr; rotate_left; decide)
    | (apply State.modHarp_after; rotate_left; decide; decide)
    | (apply State.restartCodeword_after; rotate_left; decide; decide)
    | (apply State.retireLane_after; rotate_left; decide; decide) | (apply State.setLane_after; rotate_left; decide; decide)
    | apply Keeps.ite | apply Keeps.ite_fst | apply Keeps.ite_snd | (apply Keeps.of_eq_fst; assumption)
    | (apply Keeps.of_eq_snd; assumption) | (intro) | split | dsimp only

theorem State.harpUnretire_after {m' q' : Nat} {u' : State} {s : State} {n : Nat} (h' : Keeps m' q' u' s)
    (hm' : Nat.lor 0x38000000000000000000078001800000000000000007f3d01c00000f080000000000000001800000000000000006c87400004000003000000000000000000000000000000000000000000000000000000000000000000000000 m' = m') (hq' : Nat.lor 0x10c78c0 q' = q') : Keeps m' q' u' (s.harpUnretire n).2 := by
  refine Keeps.after ?_ hm' hq' h'
  clear hm' hq' h'
  unfold State.harpUnretire
  with_reducible repeat' first
    | assumption | exact Keeps.refl _ | (apply Keeps.wr; rotate_left; decide) | (apply Keeps.flag; rotate_left; decide)
    | (apply Keeps.unflagBit; rotate_left; decide) | (apply State.harpRefresh_after; rotate_left; decide; decide)
    | (apply State.setStrikes_after; rotate_left; decide; decide)
    | (apply State.startSelfTest_after; rotate_left; decide; decide) | apply Keeps.ite | apply Keeps.ite_fst
    | apply Keeps.ite_snd | (apply Keeps.of_eq_fst; assumption) | (apply Keeps.of_eq_snd; assumption) | (intro) | split
    | dsimp only

/-! ### Keys -/

theorem State.modKeySlot_after {m' q' : Nat} {u' : State} {s : State} {k : Nat} {f : KeySlot → KeySlot} (h' : Keeps m' q' u' s)
    (hm' : Nat.lor 0x0 m' = m') (hq' : Nat.lor 0x8000 q' = q') : Keeps m' q' u' (s.modKeySlot k f) := by
  refine Keeps.after ?_ hm' hq' h'
  clear hm' hq' h'
  unfold State.modKeySlot
  with_reducible repeat' first
    | assumption | exact Keeps.refl _ | (intro) | split | dsimp only | (apply Keeps.with_cab; rotate_left; decide)

theorem State.slotShow_after {m' q' : Nat} {u' : State} {s : State} (h' : Keeps m' q' u' s)
    (hm' : Nat.lor 0x7e00000000000000000000000000000000000000000000000000000000000000000000000000000000000000000000000000000000000000000000000000000000000000000000 m' = m') (hq' : Nat.lor 0x0 q' = q') : Keeps m' q' u' (s.slotShow) := by
  refine Keeps.after ?_ hm' hq' h'
  clear hm' hq' h'
  unfold State.slotShow
  with_reducible repeat' first
    | assumption | exact Keeps.refl _ | (apply Keeps.wr; rotate_left; decide) | (apply Keeps.setTo; rotate_left; decide)
    | (apply Keeps.of_eq_fst; assumption) | (apply Keeps.of_eq_snd; assumption) | (intro) | split | dsimp only

theorem State.draw_after {m' q' : Nat} {u' : State} {s : State} {k : Nat} (h' : Keeps m' q' u' s)
    (hm' : Nat.lor 0x7e0c007f3d000000000000000000000000000000000000000000000000000000000000000000000000000000000000000000000000000000000000000000000000000000000000 m' = m') (hq' : Nat.lor 0x100e0c0 q' = q') : Keeps m' q' u' (s.draw k).2 := by
  refine Keeps.after ?_ hm' hq' h'
  clear hm' hq' h'
  unfold State.draw
  with_reducible repeat' first
    | assumption | exact Keeps.refl _ | (apply Keeps.flag; rotate_left; decide)
    | (apply State.journal_after; rotate_left; decide; decide) | (apply State.logEvent_after; rotate_left; decide; decide)
    | (apply State.modKeySlot_after; rotate_left; decide; decide)
    | (apply State.slotShow_after; rotate_left; decide; decide)
    | (apply State.vendorEvent_after; rotate_left; decide; decide) | apply Keeps.when | apply Keeps.ite
    | apply Keeps.ite_fst | apply Keeps.ite_snd | (intro) | split | dsimp only

/-! ### WritePath -/

theorem State.accRefresh_after {m' q' : Nat} {u' : State} {s : State} {x : Str} (h' : Keeps m' q' u' s)
    (hm' : Nat.lor 0x20000000000000000000000000000000000000000000000000000000000000000000000000000000000000000000000000000 m' = m') (hq' : Nat.lor 0x0 q' = q') : Keeps m' q' u' (s.accRefresh x) := by
  refine Keeps.after ?_ hm' hq' h'
  clear hm' hq' h'
  unfold State.accRefresh
  with_reducible repeat' first
    | assumption | exact Keeps.refl _ | (apply Keeps.wr; rotate_left; decide) | (intro) | split | dsimp only

theorem State.saveAcc_after {m' q' : Nat} {u' : State} {s : State} {x : Str} (h' : Keeps m' q' u' s)
    (hm' : Nat.lor 0x7f3d000000000000000000000000000000000000000000000000000000000000000000000000000000000000000000000000000000000000000000000000000000000000 m' = m') (hq' : Nat.lor 0x6000 q' = q') : Keeps m' q' u' (s.saveAcc x) := by
  refine Keeps.after ?_ hm' hq' h'
  clear hm' hq' h'
  unfold State.saveAcc
  with_reducible repeat' first
    | assumption | exact Keeps.refl _ | (apply State.chestRow_after; rotate_left; decide; decide)
    | (apply State.journal_after; rotate_left; decide; decide) | (apply State.modRecord_after; rotate_left; decide; decide)
    | apply Keeps.ite | apply Keeps.ite_fst | apply Keeps.ite_snd | apply Keeps.foldl | apply Keeps.foldl_snd
    | apply Keeps.foldl_fst | (apply Keeps.of_eq_fst; assumption) | (apply Keeps.of_eq_snd; assumption) | (intro) | split
    | dsimp only

theorem State.serveZone_after {m' q' : Nat} {u' : State} {s : State} {x : Str} {id : Nat} (h' : Keeps m' q' u' s)
    (hm' : Nat.lor 0x7f3d000000000000000000000000000000020000000000000000000000000000000000000000000000000000000000000000000000000000000000000000000000000000 m' = m') (hq' : Nat.lor 0x6801 q' = q') : Keeps m' q' u' (s.serveZone x id) := by
  refine Keeps.after ?_ hm' hq' h'
  clear hm' hq' h'
  unfold State.serveZone
  with_reducible repeat' first
    | assumption | exact Keeps.refl _ | (apply State.accRefresh_after; rotate_left; decide; decide)
    | (apply State.journal_after; rotate_left; decide; decide) | (apply State.modRecord_after; rotate_left; decide; decide)
    | (apply State.modWrp_after; rotate_left; decide; decide) | (apply State.saveAcc_after; rotate_left; decide; decide)
    | (apply State.shadowWr_after; rotate_left; decide; decide) | apply Keeps.ite | apply Keeps.ite_fst
    | apply Keeps.ite_snd | (apply Keeps.of_eq_fst; assumption) | (apply Keeps.of_eq_snd; assumption) | (intro) | split
    | dsimp only

theorem State.rebuildAcc_after {m' q' : Nat} {u' : State} {s : State} {id : Nat} (h' : Keeps m' q' u' s)
    (hm' : Nat.lor 0x7f3d000000000000000000000000000000020000000000000000000000000000000000000000000000000000000000000000000000000000000000000000000000000000 m' = m') (hq' : Nat.lor 0x6800 q' = q') : Keeps m' q' u' (s.rebuildAcc id) := by
  refine Keeps.after ?_ hm' hq' h'
  clear hm' hq' h'
  unfold State.rebuildAcc
  with_reducible repeat' first
    | assumption | exact Keeps.refl _ | (apply State.accRefresh_after; rotate_left; decide; decide)
    | (apply State.journal_after; rotate_left; decide; decide) | (apply State.modRecord_after; rotate_left; decide; decide)
    | (apply State.modWrp_after; rotate_left; decide; decide) | apply Keeps.when | apply Keeps.ite | apply Keeps.ite_fst
    | apply Keeps.ite_snd | (apply Keeps.of_eq_fst; assumption) | (apply Keeps.of_eq_snd; assumption) | (intro) | split
    | dsimp only

theorem State.refuseOpen_after {m' q' : Nat} {u' : State} {s : State} {x : Str} (h' : Keeps m' q' u' s)
    (hm' : Nat.lor 0x400000000000000000000000000000000000000000000000000000000000000000000000000000000000000000000000000 m' = m') (hq' : Nat.lor 0x800 q' = q') : Keeps m' q' u' (s.refuseOpen x) := by
  refine Keeps.after ?_ hm' hq' h'
  clear hm' hq' h'
  unfold State.refuseOpen
  with_reducible repeat' first
    | assumption | exact Keeps.refl _ | (apply State.stopRun_after; rotate_left; decide; decide) | (intro) | split
    | dsimp only

theorem State.writeGateOpen_after {m' q' : Nat} {u' : State} {s : State} {x : Str} (h' : Keeps m' q' u' s)
    (hm' : Nat.lor 0x200000000000000000000400000000000000000000000000000000000000000000007f3d000000000000000000000000000007fffff8000000000000006000001000a04000000000000000000000000000000000000000000000000000000000000000000000 m' = m') (hq' : Nat.lor 0x1006801 q' = q') : Keeps m' q' u' (s.writeGateOpen x) := by
  refine Keeps.after ?_ hm' hq' h'
  clear hm' hq' h'
  unfold State.writeGateOpen
  with_reducible repeat' first
    | assumption | exact Keeps.refl _ | (apply Keeps.flag; rotate_left; decide) | (apply Keeps.bump; rotate_left; decide)
    | (apply State.boundary_after; rotate_left; decide; decide) | (apply State.emit_after; rotate_left; decide; decide)
    | (apply State.fifoRefresh_after; rotate_left; decide; decide) | (apply State.modSeq_after; rotate_left; decide; decide)
    | (apply State.modWrp_after; rotate_left; decide; decide)
    | (apply State.nameSetForWrite_after; rotate_left; decide; decide)
    | (apply State.refuseOpen_after; rotate_left; decide; decide)
    | (apply State.serveZone_after; rotate_left; decide; decide) | apply Keeps.when | apply Keeps.ite | apply Keeps.ite_fst
    | apply Keeps.ite_snd | (apply Keeps.of_eq_fst; assumption) | (apply Keeps.of_eq_snd; assumption) | (intro) | split
    | dsimp only

theorem State.blockWritten_after {m' q' : Nat} {u' : State} {s : State} {nsid lba : Nat} (h' : Keeps m' q' u' s)
    (hm' : Nat.lor 0x7ffd003000000000000000000000000000000000000000000000000000000000000000000000000000000000000000000000000000000000000000000000000000000000 m' = m') (hq' : Nat.lor 0x6000 q' = q') : Keeps m' q' u' (s.blockWritten nsid lba) := by
  refine Keeps.after ?_ hm' hq' h'
  clear hm' hq' h'
  unfold State.blockWritten
  with_reducible repeat' first
    | assumption | exact Keeps.refl _ | (apply State.onMediaBlocks_after; rotate_left; decide; decide)
    | (apply State.settleWaits_after; rotate_left; decide; decide) | (apply Keeps.of_eq_fst; assumption)
    | (apply Keeps.of_eq_snd; assumption) | (intro) | split | dsimp only

theorem State.payloadWritten_after {m' q' : Nat} {u' : State} {s : State} {nsid csa : Nat} (h' : Keeps m' q' u' s)
    (hm' : Nat.lor 0x7ffd003000000000000000000000000000000000000000000000000000000000000000000000000000000000000000000000000000000000000000000000000000000000 m' = m') (hq' : Nat.lor 0x16000 q' = q') : Keeps m' q' u' (s.payloadWritten nsid csa) := by
  refine Keeps.after ?_ hm' hq' h'
  clear hm' hq' h'
  unfold State.payloadWritten
  with_reducible repeat' first
    | assumption | exact Keeps.refl _ | (apply State.onMediaBlocks_after; rotate_left; decide; decide) | apply Keeps.foldl
    | apply Keeps.foldl_snd | apply Keeps.foldl_fst | (intro) | split | dsimp only
    | (apply Keeps.with_phv; rotate_left; decide)

theorem State.mapWritten_after {m' q' : Nat} {u' : State} {s : State} {id : Nat} {r : Record} {lba z : Nat} (h' : Keeps m' q' u' s)
    (hm' : Nat.lor 0x0 m' = m') (hq' : Nat.lor 0x2000 q' = q') : Keeps m' q' u' (s.mapWritten id r lba z) := by
  refine Keeps.after ?_ hm' hq' h'
  clear hm' hq' h'
  unfold State.mapWritten
  with_reducible repeat' first
    | assumption | exact Keeps.refl _ | (apply State.modNs_after; rotate_left; decide; decide) | apply Keeps.ite
    | apply Keeps.ite_fst | apply Keeps.ite_snd | (apply Keeps.of_eq_fst; assumption) | (apply Keeps.of_eq_snd; assumption)
    | (intro) | split | dsimp only

theorem State.finishWritten_after {m' q' : Nat} {u' : State} {s : State} {id : Nat} (h' : Keeps m' q' u' s)
    (hm' : Nat.lor 0x7f3d000000000000000000000000000000000000000000000000000000000000000000000000000000000000000000000000000000000000000000000000000000000000 m' = m') (hq' : Nat.lor 0x6000 q' = q') : Keeps m' q' u' (s.finishWritten id) := by
  refine Keeps.after ?_ hm' hq' h'
  clear hm' hq' h'
  unfold State.finishWritten
  with_reducible repeat' first
    | assumption | exact Keeps.refl _ | (apply State.journal_after; rotate_left; decide; decide)
    | (apply State.modHost_after; rotate_left; decide; decide) | (apply State.modRecord_after; rotate_left; decide; decide)
    | apply Keeps.ite | apply Keeps.ite_fst | apply Keeps.ite_snd | (apply Keeps.of_eq_fst; assumption)
    | (apply Keeps.of_eq_snd; assumption) | (intro) | split | dsimp only

theorem State.recordWritten_after {m' q' : Nat} {u' : State} {s : State} {x : Str} {id : Nat} {r : Record} {pl : Place} {w : Content} (h' : Keeps m' q' u' s)
    (hm' : Nat.lor 0x7ffd003000000000000000000000000000020000000000000000000000000000000000000000000000000000000000000000000000000000000000000000000000000000 m' = m') (hq' : Nat.lor 0x16800 q' = q') : Keeps m' q' u' (s.recordWritten x id r pl w) := by
  refine Keeps.after ?_ hm' hq' h'
  clear hm' hq' h'
  unfold State.recordWritten
  with_reducible repeat' first
    | assumption | exact Keeps.refl _ | (apply State.accRefresh_after; rotate_left; decide; decide)
    | (apply State.blockWritten_after; rotate_left; decide; decide)
    | (apply State.journal_after; rotate_left; decide; decide) | (apply State.mapWritten_after; rotate_left; decide; decide)
    | (apply State.modRecord_after; rotate_left; decide; decide) | (apply State.modWrp_after; rotate_left; decide; decide)
    | (apply State.payloadWritten_after; rotate_left; decide; decide) | apply Keeps.when | apply Keeps.ite
    | apply Keeps.ite_fst | apply Keeps.ite_snd | (intro) | split | dsimp only

theorem State.sectorWritten_after {m' q' : Nat} {u' : State} {s : State} {x : Str} (h' : Keeps m' q' u' s)
    (hm' : Nat.lor 0x78001800000000000000007ffd00b0000000000000000000000000000f1600000000000000000000000000000000000000000000000000000000000010000000000000000000000000000000000000 m' = m') (hq' : Nat.lor 0x16801 q' = q') : Keeps m' q' u' (s.sectorWritten x) := by
  refine Keeps.after ?_ hm' hq' h'
  clear hm' hq' h'
  unfold State.sectorWritten
  with_reducible repeat' first
    | assumption | exact Keeps.refl _ | (apply Keeps.unflag; rotate_left; decide) | (apply Keeps.bump; rotate_left; decide)
    | (apply State.accRefresh_after; rotate_left; decide; decide)
    | (apply State.bceAdvance_after; rotate_left; decide; decide) | (apply State.cutOpen_after; rotate_left; decide; decide)
    | (apply State.finishWritten_after; rotate_left; decide; decide)
    | (apply State.giveCells_after; rotate_left; decide; decide) | (apply State.journal_after; rotate_left; decide; decide)
    | (apply State.modClean_after; rotate_left; decide; decide) | (apply State.modRecord_after; rotate_left; decide; decide)
    | (apply State.modSeq_after; rotate_left; decide; decide) | (apply State.modStr_after; rotate_left; decide; decide)
    | (apply State.modWrp_after; rotate_left; decide; decide)
    | (apply State.recordWritten_after; rotate_left; decide; decide)
    | (apply State.setMedia_after; rotate_left; decide; decide) | apply Keeps.when | apply Keeps.ite | apply Keeps.ite_fst
    | apply Keeps.ite_snd | (apply Keeps.of_eq_fst; assumption) | (apply Keeps.of_eq_snd; assumption) | (intro) | split
    | dsimp only

theorem State.encodeDone_after {m' q' : Nat} {u' : State} {s : State} {x : Str} {good : Bool} (h' : Keeps m' q' u' s)
    (hm' : Nat.lor 0x214000000000000000000000000000000000000000000000000000000000000000000000000000000000000000000000000000 m' = m') (hq' : Nat.lor 0x800 q' = q') : Keeps m' q' u' (s.encodeDone x good) := by
  refine Keeps.after ?_ hm' hq' h'
  clear hm' hq' h'
  unfold State.encodeDone
  with_reducible repeat' first
    | assumption | exact Keeps.refl _ | (apply Keeps.flag; rotate_left; decide) | (apply Keeps.bump; rotate_left; decide)
    | (apply State.fifoRefresh_after; rotate_left; decide; decide) | (apply State.modWrp_after; rotate_left; decide; decide)
    | apply Keeps.ite | apply Keeps.ite_fst | apply Keeps.ite_snd | (apply Keeps.of_eq_fst; assumption)
    | (apply Keeps.of_eq_snd; assumption) | (intro) | split | dsimp only

theorem State.writePathEnable_after {m' q' : Nat} {u' : State} {s : State} {x : Str} {on : Bool} (h' : Keeps m' q' u' s)
    (hm' : Nat.lor 0x8008000000000000000000000000000000000000000000000000000000000000000000000000000000000000000000000000 m' = m') (hq' : Nat.lor 0x800 q' = q') : Keeps m' q' u' (s.writePathEnable x on) := by
  refine Keeps.after ?_ hm' hq' h'
  clear hm' hq' h'
  unfold State.writePathEnable
  with_reducible repeat' first
    | assumption | exact Keeps.refl _ | (apply Keeps.flag; rotate_left; decide) | (apply Keeps.setTo; rotate_left; decide)
    | (apply State.modWrp_after; rotate_left; decide; decide) | apply Keeps.ite | apply Keeps.ite_fst | apply Keeps.ite_snd
    | (intro) | split | dsimp only

theorem State.accClear_after {m' q' : Nat} {u' : State} {s : State} {x : Str} (h' : Keeps m' q' u' s)
    (hm' : Nat.lor 0x20000000000000000000000000000000000000000000000000000000000000000000000000000000000000000000000000000 m' = m') (hq' : Nat.lor 0x800 q' = q') : Keeps m' q' u' (s.accClear x) := by
  refine Keeps.after ?_ hm' hq' h'
  clear hm' hq' h'
  unfold State.accClear
  with_reducible repeat' first
    | assumption | exact Keeps.refl _ | (apply State.accRefresh_after; rotate_left; decide; decide)
    | (apply State.modWrp_after; rotate_left; decide; decide) | apply Keeps.ite | apply Keeps.ite_fst | apply Keeps.ite_snd
    | (intro) | split | dsimp only

theorem State.postFinish_after {m' q' : Nat} {u' : State} {s : State} {id : Nat} (h' : Keeps m' q' u' s)
    (hm' : Nat.lor 0x78001800000000000000000000008000000000000000000000000000000000000000000000000000000000000000000000000000000000000000000010000000000000000000000000000000000000 m' = m') (hq' : Nat.lor 0x2801 q' = q') : Keeps m' q' u' (s.postFinish id) := by
  refine Keeps.after ?_ hm' hq' h'
  clear hm' hq' h'
  unfold State.postFinish
  with_reducible repeat' first
    | assumption | exact Keeps.refl _ | (apply State.postPlaces_after; rotate_left; decide; decide) | apply Keeps.ite
    | apply Keeps.ite_fst | apply Keeps.ite_snd | (apply Keeps.of_eq_fst; assumption) | (apply Keeps.of_eq_snd; assumption)
    | (intro) | split | dsimp only

theorem State.batchIssue_after {m' q' : Nat} {u' : State} {s : State} {id n : Nat} (h' : Keeps m' q' u' s)
    (hm' : Nat.lor 0x78001800000000007e0c007f3d008000000000000000000000000000020000000000000000000000000000000000000000000000000000000000000010000000000000000000000000000000000000 m' = m') (hq' : Nat.lor 0x101e8c1 q' = q') : Keeps m' q' u' (s.batchIssue id n) := by
  refine Keeps.after ?_ hm' hq' h'
  clear hm' hq' h'
  unfold State.batchIssue
  with_reducible repeat' first
    | assumption | exact Keeps.refl _ | (apply State.draw_after; rotate_left; decide; decide)
    | (apply State.journal_after; rotate_left; decide; decide) | (apply State.modHost_after; rotate_left; decide; decide)
    | (apply State.modRecord_after; rotate_left; decide; decide)
    | (apply State.modVersion_after; rotate_left; decide; decide)
    | (apply State.postFinish_after; rotate_left; decide; decide)
    | (apply State.postPlaces_after; rotate_left; decide; decide)
    | (apply State.serveZone_after; rotate_left; decide; decide) | apply Keeps.when | apply Keeps.ite | apply Keeps.ite_fst
    | apply Keeps.ite_snd | apply Keeps.foldl | apply Keeps.foldl_snd | apply Keeps.foldl_fst
    | (apply Keeps.of_eq_fst; assumption) | (apply Keeps.of_eq_snd; assumption) | (intro) | split | dsimp only
    | (apply Keeps.with_phv; rotate_left; decide)

theorem State.squeezeVerify_after {m' q' : Nat} {u' : State} {s : State} {x : Str} {prev bad : List Nat} (h' : Keeps m' q' u' s)
    (hm' : Nat.lor 0x78001800000000000000000000008000000000000000000000000000400000000000000000000000000000000000000000000000000000000000000010000000000000000000000000000000000000 m' = m') (hq' : Nat.lor 0x2801 q' = q') : Keeps m' q' u' (s.squeezeVerify x prev bad) := by
  refine Keeps.after ?_ hm' hq' h'
  clear hm' hq' h'
  unfold State.squeezeVerify
  with_reducible repeat' first
    | assumption | exact Keeps.refl _ | (apply Keeps.bump; rotate_left; decide)
    | (apply State.modWrp_after; rotate_left; decide; decide)
    | (apply State.newRequestId_after; rotate_left; decide; decide)
    | (apply State.postRequest_after; rotate_left; decide; decide) | apply Keeps.ite | apply Keeps.ite_fst
    | apply Keeps.ite_snd | (apply Keeps.of_eq_fst; assumption) | (apply Keeps.of_eq_snd; assumption) | (intro) | split
    | dsimp only

theorem State.spareLow_after {m' q' : Nat} {u' : State} {s : State} {x : Str} (h' : Keeps m' q' u' s)
    (hm' : Nat.lor 0x2000000000000000000000000000000000000000000000000000000000000000000000000000000000000000000000000000000000 m' = m') (hq' : Nat.lor 0x0 q' = q') : Keeps m' q' u' (s.spareLow x) := by
  refine Keeps.after ?_ hm' hq' h'
  clear hm' hq' h'
  unfold State.spareLow
  with_reducible repeat' first
    | assumption | exact Keeps.refl _ | (apply Keeps.flag; rotate_left; decide) | (intro) | split | dsimp only

theorem State.reallocate_after {m' q' : Nat} {u' : State} {s : State} {x : Str} {good : Bool} (h' : Keeps m' q' u' s)
    (hm' : Nat.lor 0x78001800000000000000007f3d008000000000000000000000002000000000000000000000000000000000000000000000000000000000000000000010000000000000000000000000000000000000 m' = m') (hq' : Nat.lor 0x6801 q' = q') : Keeps m' q' u' (s.reallocate x good) := by
  refine Keeps.after ?_ hm' hq' h'
  clear hm' hq' h'
  unfold State.reallocate
  with_reducible repeat' first
    | assumption | exact Keeps.refl _ | (apply State.journal_after; rotate_left; decide; decide)
    | (apply State.modRecord_after; rotate_left; decide; decide) | (apply State.modStr_after; rotate_left; decide; decide)
    | (apply State.postPlaces_after; rotate_left; decide; decide)
    | (apply State.setMedia_after; rotate_left; decide; decide) | (apply State.spareLow_after; rotate_left; decide; decide)
    | apply Keeps.ite | apply Keeps.ite_fst | apply Keeps.ite_snd | (apply Keeps.of_eq_fst; assumption)
    | (apply Keeps.of_eq_snd; assumption) | (intro) | split | dsimp only

/-! ### Phovi -/

theorem State.modPhv_after {m' q' : Nat} {u' : State} {s : State} {f : Phovi → Phovi} (h' : Keeps m' q' u' s)
    (hm' : Nat.lor 0x0 m' = m') (hq' : Nat.lor 0x10000 q' = q') : Keeps m' q' u' (s.modPhv f) := by
  refine Keeps.after ?_ hm' hq' h'
  clear hm' hq' h'
  unfold State.modPhv
  with_reducible repeat' first
    | assumption | exact Keeps.refl _ | (intro) | split | dsimp only | (apply Keeps.with_phv; rotate_left; decide)

theorem State.phvRefresh_after {m' q' : Nat} {u' : State} {s : State} (h' : Keeps m' q' u' s)
    (hm' : Nat.lor 0x7000000000000000000000000000000000000000000000000000000000000000000000000000000000000000000000000000000000000000000000000000000000000000000000000000 m' = m') (hq' : Nat.lor 0x0 q' = q') : Keeps m' q' u' (s.phvRefresh) := by
  refine Keeps.after ?_ hm' hq' h'
  clear hm' hq' h'
  unfold State.phvRefresh
  with_reducible repeat' first
    | assumption | exact Keeps.refl _ | (apply Keeps.wr; rotate_left; decide) | apply Keeps.ite | apply Keeps.ite_fst
    | apply Keeps.ite_snd | apply Keeps.foldl | apply Keeps.foldl_snd | apply Keeps.foldl_fst
    | (apply Keeps.of_eq_fst; assumption) | (apply Keeps.of_eq_snd; assumption) | (intro) | split | dsimp only

theorem State.postJob_after {m' q' : Nat} {u' : State} {s : State} {j : PhvJob} (h' : Keeps m' q' u' s)
    (hm' : Nat.lor 0x7000000000000000000000000000000000000000000000000000000000000000000000000000000000000000000000000000000000000000000000000000000000000000000000000000 m' = m') (hq' : Nat.lor 0x10000 q' = q') : Keeps m' q' u' (s.postJob j) := by
  refine Keeps.after ?_ hm' hq' h'
  clear hm' hq' h'
  unfold State.postJob
  with_reducible repeat' first
    | assumption | exact Keeps.refl _ | (apply State.modPhv_after; rotate_left; decide; decide)
    | (apply State.phvRefresh_after; rotate_left; decide; decide) | (intro) | split | dsimp only

theorem State.forceTail_after {m' q' : Nat} {u' : State} {s : State} {id : Nat} (h' : Keeps m' q' u' s)
    (hm' : Nat.lor 0x0 m' = m') (hq' : Nat.lor 0x10000 q' = q') : Keeps m' q' u' (s.forceTail id) := by
  refine Keeps.after ?_ hm' hq' h'
  clear hm' hq' h'
  unfold State.forceTail
  with_reducible repeat' first
    | assumption | exact Keeps.refl _ | (apply State.modPhv_after; rotate_left; decide; decide) | apply Keeps.ite
    | apply Keeps.ite_fst | apply Keeps.ite_snd | (apply Keeps.of_eq_fst; assumption) | (apply Keeps.of_eq_snd; assumption)
    | (intro) | split | dsimp only

theorem State.forceTails_after {m' q' : Nat} {u' : State} {s : State} {nsid : Nat} (h' : Keeps m' q' u' s)
    (hm' : Nat.lor 0x0 m' = m') (hq' : Nat.lor 0x10000 q' = q') : Keeps m' q' u' (s.forceTails nsid) := by
  refine Keeps.after ?_ hm' hq' h'
  clear hm' hq' h'
  unfold State.forceTails
  with_reducible repeat' first
    | assumption | exact Keeps.refl _ | (apply State.forceTail_after; rotate_left; decide; decide) | apply Keeps.foldl
    | apply Keeps.foldl_snd | apply Keeps.foldl_fst | (intro) | split | dsimp only

theorem State.killBlocks_after {m' q' : Nat} {u' : State} {s : State} {nsid : Nat} {lbas : List Nat} (h' : Keeps m' q' u' s)
    (hm' : Nat.lor 0x0 m' = m') (hq' : Nat.lor 0x2000 q' = q') : Keeps m' q' u' (s.killBlocks nsid lbas) := by
  refine Keeps.after ?_ hm' hq' h'
  clear hm' hq' h'
  unfold State.killBlocks
  with_reducible repeat' first
    | assumption | exact Keeps.refl _ | (apply State.modNs_after; rotate_left; decide; decide) | (intro) | split
    | dsimp only

theorem State.supersedeBlocks_after {m' q' : Nat} {u' : State} {s : State} {nsid : Nat} {lbas : List Nat} (h' : Keeps m' q' u' s)
    (hm' : Nat.lor 0x0 m' = m') (hq' : Nat.lor 0x2000 q' = q') : Keeps m' q' u' (s.supersedeBlocks nsid lbas) := by
  refine Keeps.after ?_ hm' hq' h'
  clear hm' hq' h'
  unfold State.supersedeBlocks
  with_reducible repeat' first
    | assumption | exact Keeps.refl _ | (apply State.modNs_after; rotate_left; decide; decide) | (intro) | split
    | dsimp only

theorem State.packCapsule_after {m' q' : Nat} {u' : State} {s : State} {id : Nat} {v : Version} {lba blocks : Nat} {bytes : List Nat} (h' : Keeps m' q' u' s)
    (hm' : Nat.lor 0x0 m' = m') (hq' : Nat.lor 0x12000 q' = q') : Keeps m' q' u' (s.packCapsule id v lba blocks bytes) := by
  refine Keeps.after ?_ hm' hq' h'
  clear hm' hq' h'
  unfold State.packCapsule
  with_reducible repeat' first
    | assumption | exact Keeps.refl _ | (apply State.modNs_after; rotate_left; decide; decide)
    | (apply State.modPhv_after; rotate_left; decide; decide) | (apply State.modRecord_after; rotate_left; decide; decide)
    | (apply State.supersedeBlocks_after; rotate_left; decide; decide) | apply Keeps.ite | apply Keeps.ite_fst
    | apply Keeps.ite_snd | (apply Keeps.of_eq_fst; assumption) | (apply Keeps.of_eq_snd; assumption) | (intro) | split
    | dsimp only

theorem State.postCompress_after {m' q' : Nat} {u' : State} {s : State} {f : Nat} (h' : Keeps m' q' u' s)
    (hm' : Nat.lor 0x7000000000000000000000000000000000000000000000000000000000000000000000000000000000000000000000000000000000000000000000000000000000000000000000000000 m' = m') (hq' : Nat.lor 0x10000 q' = q') : Keeps m' q' u' (s.postCompress f) := by
  refine Keeps.after ?_ hm' hq' h'
  clear hm' hq' h'
  unfold State.postCompress
  with_reducible repeat' first
    | assumption | exact Keeps.refl _ | (apply State.postJob_after; rotate_left; decide; decide) | apply Keeps.ite
    | apply Keeps.ite_fst | apply Keeps.ite_snd | (apply Keeps.of_eq_fst; assumption) | (apply Keeps.of_eq_snd; assumption)
    | (intro) | split | dsimp only

theorem State.returnGrant_after {m' q' : Nat} {u' : State} {s : State} {f : Nat} (h' : Keeps m' q' u' s)
    (hm' : Nat.lor 0x0 m' = m') (hq' : Nat.lor 0x6000 q' = q') : Keeps m' q' u' (s.returnGrant f) := by
  refine Keeps.after ?_ hm' hq' h'
  clear hm' hq' h'
  unfold State.returnGrant
  with_reducible repeat' first
    | assumption | exact Keeps.refl _ | (apply State.modNs_after; rotate_left; decide; decide)
    | (apply State.modVersion_after; rotate_left; decide; decide) | (apply Keeps.of_eq_fst; assumption)
    | (apply Keeps.of_eq_snd; assumption) | (intro) | split | dsimp only

theorem State.phvSweep_after {m' q' : Nat} {u' : State} {s : State} (h' : Keeps m' q' u' s)
    (hm' : Nat.lor 0x7000000000000000000000000000000000000000000000000000000000000000000000000000000000000000000000000000000000000000000000000000000000000000000000000000 m' = m') (hq' : Nat.lor 0x16000 q' = q') : Keeps m' q' u' (s.phvSweep) := by
  refine Keeps.after ?_ hm' hq' h'
  clear hm' hq' h'
  unfold State.phvSweep
  with_reducible repeat' first
    | assumption | exact Keeps.refl _ | (apply State.modPhv_after; rotate_left; decide; decide)
    | (apply State.phvRefresh_after; rotate_left; decide; decide)
    | (apply State.returnGrant_after; rotate_left; decide; decide) | apply Keeps.ite | apply Keeps.ite_fst
    | apply Keeps.ite_snd | apply Keeps.foldl | apply Keeps.foldl_snd | apply Keeps.foldl_fst | (intro) | split | dsimp only

theorem State.jobStart_after {m' q' : Nat} {u' : State} {s : State} {e : Nat} (h' : Keeps m' q' u' s)
    (hm' : Nat.lor 0xfffffffc00000000000000000000000000000000000000000000000000000000000000000000000000000000000000000000000000000000000000000000000000000000000000000000000 m' = m') (hq' : Nat.lor 0x16001 q' = q') : Keeps m' q' u' (s.jobStart e) := by
  refine Keeps.after ?_ hm' hq' h'
  clear hm' hq' h'
  unfold State.jobStart
  with_reducible repeat' first
    | assumption | exact Keeps.refl _ | (apply State.boundary_after; rotate_left; decide; decide)
    | (apply State.modPhv_after; rotate_left; decide; decide) | (apply State.phvRefresh_after; rotate_left; decide; decide)
    | (apply State.phvSweep_after; rotate_left; decide; decide) | apply Keeps.ite | apply Keeps.ite_fst
    | apply Keeps.ite_snd | (apply Keeps.of_eq_fst; assumption) | (apply Keeps.of_eq_snd; assumption) | (intro) | split
    | dsimp only

theorem State.failCompressed_after {m' q' : Nat} {u' : State} {s : State} (h' : Keeps m' q' u' s)
    (hm' : Nat.lor 0x0 m' = m') (hq' : Nat.lor 0x2000 q' = q') : Keeps m' q' u' (s.failCompressed) := by
  refine Keeps.after ?_ hm' hq' h'
  clear hm' hq' h'
  unfold State.failCompressed
  with_reducible repeat' first
    | assumption | exact Keeps.refl _ | (apply State.modHost_after; rotate_left; decide; decide) | apply Keeps.ite
    | apply Keeps.ite_fst | apply Keeps.ite_snd | (intro) | split | dsimp only

theorem State.phvRetire_after {m' q' : Nat} {u' : State} {s : State} {e : Nat} (h' : Keeps m' q' u' s)
    (hm' : Nat.lor 0x38000000000000000000000000000007820000000000000000000000000000000000000000000000000000000000000000000000000000000000000000000000000000000000000000000000000000000000000000000000000 m' = m') (hq' : Nat.lor 0x10d20c0 q' = q') : Keeps m' q' u' (s.phvRetire e) := by
  refine Keeps.after ?_ hm' hq' h'
  clear hm' hq' h'
  unfold State.phvRetire
  with_reducible repeat' first
    | assumption | exact Keeps.refl _ | (apply Keeps.flag; rotate_left; decide)
    | (apply Keeps.unflagBit; rotate_left; decide) | (apply State.failCompressed_after; rotate_left; decide; decide)
    | (apply State.logEvent_after; rotate_left; decide; decide) | (apply State.modPhv_after; rotate_left; decide; decide)
    | (apply State.phvRefresh_after; rotate_left; decide; decide) | (apply State.setDegr_after; rotate_left; decide; decide)
    | apply Keeps.when | apply Keeps.ite | apply Keeps.ite_fst | apply Keeps.ite_snd | (intro) | split | dsimp only

theorem State.phvCount_after {m' q' : Nat} {u' : State} {s : State} {e : Nat} (h' : Keeps m' q' u' s)
    (hm' : Nat.lor 0x3800000000000000000000000000000f820000000000000000000000000000000000000000000000000000000000000000000000000000000000000000000000000000000000000000000000000000000000000000000000000 m' = m') (hq' : Nat.lor 0x10d20c0 q' = q') : Keeps m' q' u' (s.phvCount e) := by
  refine Keeps.after ?_ hm' hq' h'
  clear hm' hq' h'
  unfold State.phvCount
  with_reducible repeat' first
    | assumption | exact Keeps.refl _ | (apply Keeps.bump; rotate_left; decide)
    | (apply State.phvRetire_after; rotate_left; decide; decide) | apply Keeps.when | (intro) | split | dsimp only

theorem State.phvFree_after {m' q' : Nat} {u' : State} {s : State} {e : Nat} (h' : Keeps m' q' u' s)
    (hm' : Nat.lor 0x7000000000000000000000000000000000000000000000000000000000000000000000000000000000000000000000000000000000000000000000000000000000000000000000000000 m' = m') (hq' : Nat.lor 0x10000 q' = q') : Keeps m' q' u' (s.phvFree e) := by
  refine Keeps.after ?_ hm' hq' h'
  clear hm' hq' h'
  unfold State.phvFree
  with_reducible repeat' first
    | assumption | exact Keeps.refl _ | (apply State.modPhv_after; rotate_left; decide; decide)
    | (apply State.phvRefresh_after; rotate_left; decide; decide) | (intro) | split | dsimp only

theorem State.phvRerun_after {m' q' : Nat} {u' : State} {s : State} {e : Nat} {j : PhvJob} (h' : Keeps m' q' u' s)
    (hm' : Nat.lor 0x7000000000000000000000000000000000000000000000000000000000000000000000000000000000000000000000000000000000000000000000000000000000000000000000000000 m' = m') (hq' : Nat.lor 0x10000 q' = q') : Keeps m' q' u' (s.phvRerun e j) := by
  refine Keeps.after ?_ hm' hq' h'
  clear hm' hq' h'
  unfold State.phvRerun
  with_reducible repeat' first
    | assumption | exact Keeps.refl _ | (apply State.modPhv_after; rotate_left; decide; decide)
    | (apply State.phvRefresh_after; rotate_left; decide; decide) | (intro) | split | dsimp only

theorem State.verifyFail_after {m' q' : Nat} {u' : State} {s : State} {e : Nat} (h' : Keeps m' q' u' s)
    (hm' : Nat.lor 0x3800000000000000000000000000004f860000000000000000000000000000000000000000000000000000000000000000000000000000000000000000000000000000000000000000000000000000000000000000000000000 m' = m') (hq' : Nat.lor 0x10d20c0 q' = q') : Keeps m' q' u' (s.verifyFail e) := by
  refine Keeps.after ?_ hm' hq' h'
  clear hm' hq' h'
  unfold State.verifyFail
  with_reducible repeat' first
    | assumption | exact Keeps.refl _ | (apply Keeps.flag; rotate_left; decide) | (apply Keeps.bump; rotate_left; decide)
    | (apply State.phvCount_after; rotate_left; decide; decide) | (intro) | split | dsimp only

theorem State.compressDone_after {m' q' : Nat} {u' : State} {s : State} {e : Nat} {j : PhvJob} {caps : List (List Nat × Nat)} {overrun : Bool} (h' : Keeps m' q' u' s)
    (hm' : Nat.lor 0x3800000000000000000000000000007f860000000000000000000000000000000000000000000000000000000000000000000000000000000000000000000000000000000000000000000000000000000000000000000000000 m' = m') (hq' : Nat.lor 0x10d60c0 q' = q') : Keeps m' q' u' (s.compressDone e j caps overrun) := by
  refine Keeps.after ?_ hm' hq' h'
  clear hm' hq' h'
  unfold State.compressDone
  with_reducible repeat' first
    | assumption | exact Keeps.refl _ | (apply Keeps.bump; rotate_left; decide)
    | (apply State.forceTail_after; rotate_left; decide; decide) | (apply State.modPhv_after; rotate_left; decide; decide)
    | (apply State.packCapsule_after; rotate_left; decide; decide)
    | (apply State.phvFree_after; rotate_left; decide; decide) | (apply State.phvRerun_after; rotate_left; decide; decide)
    | (apply State.returnGrant_after; rotate_left; decide; decide)
    | (apply State.verifyFail_after; rotate_left; decide; decide) | apply Keeps.when | apply Keeps.ite | apply Keeps.ite_fst
    | apply Keeps.ite_snd | apply Keeps.foldl | apply Keeps.foldl_snd | apply Keeps.foldl_fst
    | (apply Keeps.of_eq_fst; assumption) | (apply Keeps.of_eq_snd; assumption) | (intro) | split | dsimp only

theorem State.capsuleFails_after {m' q' : Nat} {u' : State} {s : State} {j : PhvJob} (h' : Keeps m' q' u' s)
    (hm' : Nat.lor 0x0 m' = m') (hq' : Nat.lor 0x2000 q' = q') : Keeps m' q' u' (s.capsuleFails j) := by
  refine Keeps.after ?_ hm' hq' h'
  clear hm' hq' h'
  unfold State.capsuleFails
  with_reducible repeat' first
    | assumption | exact Keeps.refl _ | (apply State.logUnrecovered_after; rotate_left; decide; decide)
    | (apply State.modCmd_after; rotate_left; decide; decide) | apply Keeps.ite | apply Keeps.ite_fst | apply Keeps.ite_snd
    | apply Keeps.foldl | apply Keeps.foldl_snd | apply Keeps.foldl_fst | (apply Keeps.of_eq_fst; assumption)
    | (apply Keeps.of_eq_snd; assumption) | (intro) | split | dsimp only

theorem State.capsuleDelivered_after {m' q' : Nat} {u' : State} {s : State} {j : PhvJob} (h' : Keeps m' q' u' s)
    (hm' : Nat.lor 0x10000000000000000000000000000000000000000000000000000000000000000000000000000000000000000000000000000000000000000000000000000000000 m' = m') (hq' : Nat.lor 0x2000 q' = q') : Keeps m' q' u' (s.capsuleDelivered j) := by
  refine Keeps.after ?_ hm' hq' h'
  clear hm' hq' h'
  unfold State.capsuleDelivered
  with_reducible repeat' first
    | assumption | exact Keeps.refl _ | (apply Keeps.wr; rotate_left; decide)
    | (apply State.receiveBlock_after; rotate_left; decide; decide) | apply Keeps.when | apply Keeps.foldl
    | apply Keeps.foldl_snd | apply Keeps.foldl_fst | (apply Keeps.of_eq_fst; assumption)
    | (apply Keeps.of_eq_snd; assumption) | (intro) | split | dsimp only

theorem State.decodeError_after {m' q' : Nat} {u' : State} {s : State} {e code : Nat} {j : PhvJob} (h' : Keeps m' q' u' s)
    (hm' : Nat.lor 0x7c80080000000000000000000000000000000000000000000000000000000000000000000000000000000000000000000000000000000000000000000000000000000000000000000000000 m' = m') (hq' : Nat.lor 0x0 q' = q') : Keeps m' q' u' (s.decodeError e code j) := by
  refine Keeps.after ?_ hm' hq' h'
  clear hm' hq' h'
  unfold State.decodeError
  with_reducible repeat' first
    | assumption | exact Keeps.refl _ | (apply Keeps.wr; rotate_left; decide) | (apply Keeps.flag; rotate_left; decide)
    | (apply Keeps.unflag; rotate_left; decide) | (apply Keeps.bump; rotate_left; decide) | apply Keeps.when | (intro)
    | split | dsimp only

theorem State.decompressDone_after {m' q' : Nat} {u' : State} {s : State} {e : Nat} {j : PhvJob} {code : Nat} (h' : Keeps m' q' u' s)
    (hm' : Nat.lor 0x38000000000000000000000000007c8f8a0000000000000010000000000000000000000000000000000000000000000000000000000000000000000000000000000000000000000000000000000000000000000000000000000 m' = m') (hq' : Nat.lor 0x10d20c0 q' = q') : Keeps m' q' u' (s.decompressDone e j code) := by
  refine Keeps.after ?_ hm' hq' h'
  clear hm' hq' h'
  unfold State.decompressDone
  with_reducible repeat' first
    | assumption | exact Keeps.refl _ | (apply Keeps.flag; rotate_left; decide)
    | (apply State.capsuleDelivered_after; rotate_left; decide; decide)
    | (apply State.capsuleFails_after; rotate_left; decide; decide)
    | (apply State.decodeError_after; rotate_left; decide; decide)
    | (apply State.phvCount_after; rotate_left; decide; decide) | (apply State.phvFree_after; rotate_left; decide; decide)
    | (apply State.phvRerun_after; rotate_left; decide; decide) | apply Keeps.when | apply Keeps.ite | apply Keeps.ite_fst
    | apply Keeps.ite_snd | (apply Keeps.of_eq_fst; assumption) | (apply Keeps.of_eq_snd; assumption) | (intro) | split
    | dsimp only

theorem State.jobDone_after {m' q' : Nat} {u' : State} {s : State} {e : Nat} {caps : List (List Nat × Nat)} {overrun : Bool} {code : Nat} (h' : Keeps m' q' u' s)
    (hm' : Nat.lor 0x38000000000000000000000000007cff8e0000000000000010000000000000000000000000000000000000000000000000000000000000000000000000000000000000000000000000000000000000000000000000000000000 m' = m') (hq' : Nat.lor 0x10d60c0 q' = q') : Keeps m' q' u' (s.jobDone e caps overrun code) := by
  refine Keeps.after ?_ hm' hq' h'
  clear hm' hq' h'
  unfold State.jobDone
  with_reducible repeat' first
    | assumption | exact Keeps.refl _ | (apply State.compressDone_after; rotate_left; decide; decide)
    | (apply State.decompressDone_after; rotate_left; decide; decide)
    | (apply State.phvFree_after; rotate_left; decide; decide) | apply Keeps.ite | apply Keeps.ite_fst | apply Keeps.ite_snd
    | (apply Keeps.of_eq_fst; assumption) | (apply Keeps.of_eq_snd; assumption) | (intro) | split | dsimp only

theorem State.jobSuspend_after {m' q' : Nat} {u' : State} {s : State} {e : Nat} (h' : Keeps m' q' u' s)
    (hm' : Nat.lor 0x207200000000000000000000000000000000000000000000000000000000000000000000000000000000000000000000000000000000000000000000000000000000000000000000000000 m' = m') (hq' : Nat.lor 0x10000 q' = q') : Keeps m' q' u' (s.jobSuspend e) := by
  refine Keeps.after ?_ hm' hq' h'
  clear hm' hq' h'
  unfold State.jobSuspend
  with_reducible repeat' first
    | assumption | exact Keeps.refl _ | (apply Keeps.flag; rotate_left; decide) | (apply Keeps.bump; rotate_left; decide)
    | (apply State.modPhv_after; rotate_left; decide; decide) | (apply State.phvRefresh_after; rotate_left; decide; decide)
    | apply Keeps.ite | apply Keeps.ite_fst | apply Keeps.ite_snd | (apply Keeps.of_eq_fst; assumption)
    | (apply Keeps.of_eq_snd; assumption) | (intro) | split | dsimp only

theorem State.spaceTimeout_after {m' q' : Nat} {u' : State} {s : State} {f : Nat} (h' : Keeps m' q' u' s)
    (hm' : Nat.lor 0x100100000000000000000000000000000000000000000000000000000000000000000000000000000000000000000000000000000000000000000000000000000000000000000000000000 m' = m') (hq' : Nat.lor 0x16000 q' = q') : Keeps m' q' u' (s.spaceTimeout f) := by
  refine Keeps.after ?_ hm' hq' h'
  clear hm' hq' h'
  unfold State.spaceTimeout
  with_reducible repeat' first
    | assumption | exact Keeps.refl _ | (apply Keeps.flag; rotate_left; decide) | (apply Keeps.bump; rotate_left; decide)
    | (apply State.finish_after; rotate_left; decide; decide) | (apply State.modBridge_after; rotate_left; decide; decide)
    | (apply State.modPhv_after; rotate_left; decide; decide) | apply Keeps.ite | apply Keeps.ite_fst | apply Keeps.ite_snd
    | (intro) | split | dsimp only

theorem State.phvRetireMask_after {m' q' : Nat} {u' : State} {s : State} {mask : Nat} (h' : Keeps m' q' u' s)
    (hm' : Nat.lor 0x38000000000000000000000000000007820000000000000000000000000000000000000000000000000000000000000000000000000000000000000000000000000000000000000000000000000000000000000000000000000 m' = m') (hq' : Nat.lor 0x10d20c0 q' = q') : Keeps m' q' u' (s.phvRetireMask mask) := by
  refine Keeps.after ?_ hm' hq' h'
  clear hm' hq' h'
  unfold State.phvRetireMask
  with_reducible repeat' first
    | assumption | exact Keeps.refl _ | (apply State.phvRetire_after; rotate_left; decide; decide) | apply Keeps.when
    | apply Keeps.foldl | apply Keeps.foldl_snd | apply Keeps.foldl_fst | (intro) | split | dsimp only

theorem State.phvUnretireMask_after {m' q' : Nat} {u' : State} {s : State} {mask : Nat} (h' : Keeps m' q' u' s)
    (hm' : Nat.lor 0x3800000000000000000000000000000f420000000000000000000000000000000000000000000000000000000000000000000000000000000000000000000000000000000000000000000000000000000000000000000000000 m' = m') (hq' : Nat.lor 0x10c2000 q' = q') : Keeps m' q' u' (s.phvUnretireMask mask) := by
  refine Keeps.after ?_ hm' hq' h'
  clear hm' hq' h'
  unfold State.phvUnretireMask
  with_reducible repeat' first
    | assumption | exact Keeps.refl _ | (apply Keeps.wr; rotate_left; decide) | (apply Keeps.flag; rotate_left; decide)
    | (apply Keeps.flagBit; rotate_left; decide) | (apply State.phvRefresh_after; rotate_left; decide; decide)
    | (apply State.setDegr_after; rotate_left; decide; decide) | apply Keeps.when | apply Keeps.ite | apply Keeps.ite_fst
    | apply Keeps.ite_snd | apply Keeps.foldl | apply Keeps.foldl_snd | apply Keeps.foldl_fst | (intro) | split | dsimp only

theorem State.stagePayload_after {m' q' : Nat} {u' : State} {s : State} {f csa : Nat} (h' : Keeps m' q' u' s)
    (hm' : Nat.lor 0x7000000000000000000000000000000000000000000000000000000000000000000000000000000000000000000000000000000000000000000000000000000000000000000000000000 m' = m') (hq' : Nat.lor 0x12000 q' = q') : Keeps m' q' u' (s.stagePayload f csa) := by
  refine Keeps.after ?_ hm' hq' h'
  clear hm' hq' h'
  unfold State.stagePayload
  with_reducible repeat' first
    | assumption | exact Keeps.refl _ | (apply State.finish_after; rotate_left; decide; decide)
    | (apply State.modCmd_after; rotate_left; decide; decide) | (apply State.postJob_after; rotate_left; decide; decide)
    | apply Keeps.ite | apply Keeps.ite_fst | apply Keeps.ite_snd | apply Keeps.foldl | apply Keeps.foldl_snd
    | apply Keeps.foldl_fst | (apply Keeps.of_eq_fst; assumption) | (apply Keeps.of_eq_snd; assumption) | (intro) | split
    | dsimp only

/-! ### Cabinet -/

theorem State.modCab_after {m' q' : Nat} {u' : State} {s : State} {f : Cabinet → Cabinet} (h' : Keeps m' q' u' s)
    (hm' : Nat.lor 0x0 m' = m') (hq' : Nat.lor 0x8000 q' = q') : Keeps m' q' u' (s.modCab f) := by
  refine Keeps.after ?_ hm' hq' h'
  clear hm' hq' h'
  unfold State.modCab
  with_reducible repeat' first
    | assumption | exact Keeps.refl _ | (intro) | split | dsimp only | (apply Keeps.with_cab; rotate_left; decide)

theorem State.cabStart_after {m' q' : Nat} {u' : State} {s : State} (h' : Keeps m' q' u' s)
    (hm' : Nat.lor 0x0 m' = m') (hq' : Nat.lor 0x8000 q' = q') : Keeps m' q' u' (s.cabStart) := by
  refine Keeps.after ?_ hm' hq' h'
  clear hm' hq' h'
  unfold State.cabStart
  with_reducible repeat' first
    | assumption | exact Keeps.refl _ | (apply State.modCab_after; rotate_left; decide; decide) | apply Keeps.foldl
    | apply Keeps.foldl_snd | apply Keeps.foldl_fst | (apply Keeps.of_eq_fst; assumption)
    | (apply Keeps.of_eq_snd; assumption) | (intro) | split | dsimp only

theorem State.cabRequest_after {m' q' : Nat} {u' : State} {s : State} {j : CabJob} (h' : Keeps m' q' u' s)
    (hm' : Nat.lor 0x0 m' = m') (hq' : Nat.lor 0x8000 q' = q') : Keeps m' q' u' (s.cabRequest j) := by
  refine Keeps.after ?_ hm' hq' h'
  clear hm' hq' h'
  unfold State.cabRequest
  with_reducible repeat' first
    | assumption | exact Keeps.refl _ | (apply State.cabStart_after; rotate_left; decide; decide)
    | (apply State.modCab_after; rotate_left; decide; decide) | (intro) | split | dsimp only

theorem State.failMediaAll_after {m' q' : Nat} {u' : State} {s : State} (h' : Keeps m' q' u' s)
    (hm' : Nat.lor 0x0 m' = m') (hq' : Nat.lor 0x2000 q' = q') : Keeps m' q' u' (s.failMediaAll) := by
  refine Keeps.after ?_ hm' hq' h'
  clear hm' hq' h'
  unfold State.failMediaAll
  with_reducible repeat' first
    | assumption | exact Keeps.refl _ | (apply State.modHost_after; rotate_left; decide; decide) | apply Keeps.ite
    | apply Keeps.ite_fst | apply Keeps.ite_snd | (intro) | split | dsimp only

theorem State.retireCabCore_after {m' q' : Nat} {u' : State} {s : State} {c : Nat} (h' : Keeps m' q' u' s)
    (hm' : Nat.lor 0x38000000000000000000000000000000000100030000000000000000000000000000000000000000000000000000000000000000000000000000000000000000000000000000000000000000000000000000000000000000000 m' = m') (hq' : Nat.lor 0x10ca0c0 q' = q') : Keeps m' q' u' (s.retireCabCore c) := by
  refine Keeps.after ?_ hm' hq' h'
  clear hm' hq' h'
  unfold State.retireCabCore
  with_reducible repeat' first
    | assumption | exact Keeps.refl _ | (apply Keeps.wr; rotate_left; decide) | (apply Keeps.flagBit; rotate_left; decide)
    | (apply Keeps.bump; rotate_left; decide) | (apply State.cabStart_after; rotate_left; decide; decide)
    | (apply State.failMediaAll_after; rotate_left; decide; decide)
    | (apply State.logEvent_after; rotate_left; decide; decide) | (apply State.modCab_after; rotate_left; decide; decide)
    | (apply State.setDegr_after; rotate_left; decide; decide) | apply Keeps.when | apply Keeps.ite | apply Keeps.ite_fst
    | apply Keeps.ite_snd | (intro) | split | dsimp only

theorem State.katGo_after {m' q' : Nat} {u' : State} {s : State} {bad : Nat} (h' : Keeps m' q' u' s)
    (hm' : Nat.lor 0x38000000000000000000000000000000000100030000000000000000000000000000000000000000000000000000000000000000000000000000000000000000000000000000000000000000000000000000000000000000000 m' = m') (hq' : Nat.lor 0x10ca0c0 q' = q') : Keeps m' q' u' (s.katGo bad) := by
  refine Keeps.after ?_ hm' hq' h'
  clear hm' hq' h'
  unfold State.katGo
  with_reducible repeat' first
    | assumption | exact Keeps.refl _ | (apply State.retireCabCore_after; rotate_left; decide; decide) | apply Keeps.when
    | apply Keeps.foldl | apply Keeps.foldl_snd | apply Keeps.foldl_fst | (intro) | split | dsimp only

theorem State.nonceGuard_after {m' q' : Nat} {u' : State} {s : State} {x : Str} {id : Nat} (h' : Keeps m' q' u' s)
    (hm' : Nat.lor 0x178001800000000000002000000008000000000000000000000000000000000000000000000000000000000000000000000000000000000000000000010000000000000000000000000000000000000 m' = m') (hq' : Nat.lor 0x6801 q' = q') : Keeps m' q' u' (s.nonceGuard x id) := by
  refine Keeps.after ?_ hm' hq' h'
  clear hm' hq' h'
  unfold State.nonceGuard
  with_reducible repeat' first
    | assumption | exact Keeps.refl _ | (apply Keeps.flag; rotate_left; decide)
    | (apply State.withdrawWrites_after; rotate_left; decide; decide) | (intro) | split | dsimp only

theorem State.encryptRequest_after {m' q' : Nat} {u' : State} {s : State} {x : Str} (h' : Keeps m' q' u' s)
    (hm' : Nat.lor 0x178001800000000000002000000008000000000000000000000000000000000000000000000000000000000000000000000000000000000000000000010000000000000000000000000000000000000 m' = m') (hq' : Nat.lor 0xe801 q' = q') : Keeps m' q' u' (s.encryptRequest x) := by
  refine Keeps.after ?_ hm' hq' h'
  clear hm' hq' h'
  unfold State.encryptRequest
  with_reducible repeat' first
    | assumption | exact Keeps.refl _ | (apply Keeps.wr; rotate_left; decide)
    | (apply State.cabRequest_after; rotate_left; decide; decide)
    | (apply State.nonceGuard_after; rotate_left; decide; decide) | apply Keeps.ite | apply Keeps.ite_fst
    | apply Keeps.ite_snd | (apply Keeps.of_eq_fst; assumption) | (apply Keeps.of_eq_snd; assumption) | (intro) | split
    | dsimp only

theorem State.cellFilled_after {m' q' : Nat} {u' : State} {s : State} {x : Str} {j : CabJob} (h' : Keeps m' q' u' s)
    (hm' : Nat.lor 0x10000000000008000000000000000000000000000000000000000000000000000000000000000000000000000000000000000000000000000000000000000000000000000000000 m' = m') (hq' : Nat.lor 0x800 q' = q') : Keeps m' q' u' (s.cellFilled x j) := by
  refine Keeps.after ?_ hm' hq' h'
  clear hm' hq' h'
  unfold State.cellFilled
  with_reducible repeat' first
    | assumption | exact Keeps.refl _ | (apply Keeps.bump; rotate_left; decide)
    | (apply State.giveCells_after; rotate_left; decide; decide) | (apply State.modSeq_after; rotate_left; decide; decide)
    | (apply State.modWrp_after; rotate_left; decide; decide) | apply Keeps.ite | apply Keeps.ite_fst | apply Keeps.ite_snd
    | (intro) | split | dsimp only

theorem State.releaseHold_after {m' q' : Nat} {u' : State} {s : State} (h' : Keeps m' q' u' s)
    (hm' : Nat.lor 0x40000000000000000000000000000000000000000000000000000000000000000000000000000000000000000000000000000000000000000000000000000000000000000000 m' = m') (hq' : Nat.lor 0x0 q' = q') : Keeps m' q' u' (s.releaseHold) := by
  refine Keeps.after ?_ hm' hq' h'
  clear hm' hq' h'
  unfold State.releaseHold
  with_reducible repeat' first
    | assumption | exact Keeps.refl _ | (apply Keeps.wr; rotate_left; decide) | (intro) | split | dsimp only

theorem State.released_after {m' q' : Nat} {u' : State} {s : State} {j : CabJob} (h' : Keeps m' q' u' s)
    (hm' : Nat.lor 0x7000000000000000010000000000000000000000000000000000000000000000000000000000000000000000000000000000000000000000000000000000000000000000000000000000 m' = m') (hq' : Nat.lor 0x12000 q' = q') : Keeps m' q' u' (s.released j) := by
  refine Keeps.after ?_ hm' hq' h'
  clear hm' hq' h'
  unfold State.released
  with_reducible repeat' first
    | assumption | exact Keeps.refl _ | (apply Keeps.wr; rotate_left; decide)
    | (apply State.givePage_after; rotate_left; decide; decide)
    | (apply State.receiveBlock_after; rotate_left; decide; decide)
    | (apply State.stagePayload_after; rotate_left; decide; decide) | apply Keeps.when | apply Keeps.ite
    | apply Keeps.ite_fst | apply Keeps.ite_snd | (apply Keeps.of_eq_fst; assumption) | (apply Keeps.of_eq_snd; assumption)
    | (intro) | split | dsimp only

theorem State.tagFail_after {m' q' : Nat} {u' : State} {s : State} {j : CabJob} (h' : Keeps m' q' u' s)
    (hm' : Nat.lor 0x78001800000000020040807f3d01800000000000000000003ffffff8000000000000000000000004010003000000000000000000000000000000000010000000000000000000000000000000000000 m' = m') (hq' : Nat.lor 0xf8c1 q' = q') : Keeps m' q' u' (s.tagFail j) := by
  refine Keeps.after ?_ hm' hq' h'
  clear hm' hq' h'
  unfold State.tagFail
  with_reducible repeat' first
    | assumption | exact Keeps.refl _ | (apply Keeps.flag; rotate_left; decide) | (apply Keeps.bump; rotate_left; decide)
    | (apply State.enterLadder_after; rotate_left; decide; decide)
    | (apply State.givePage_after; rotate_left; decide; decide)
    | (apply State.ladderTagFail_after; rotate_left; decide; decide)
    | (apply State.releaseHold_after; rotate_left; decide; decide) | (apply Keeps.of_eq_fst; assumption)
    | (apply Keeps.of_eq_snd; assumption) | (intro) | split | dsimp only

theorem State.tagGood_after {m' q' : Nat} {u' : State} {s : State} {j : CabJob} (h' : Keeps m' q' u' s)
    (hm' : Nat.lor 0x7000000040007f3d0100000000000000000000397f9800000000000000000000000000000000000000000000000000000000000000000010000000000000000000000000000000000000 m' = m') (hq' : Nat.lor 0x16801 q' = q') : Keeps m' q' u' (s.tagGood j) := by
  refine Keeps.after ?_ hm' hq' h'
  clear hm' hq' h'
  unfold State.tagGood
  with_reducible repeat' first
    | assumption | exact Keeps.refl _ | (apply State.givePage_after; rotate_left; decide; decide)
    | (apply State.ladderDone_after; rotate_left; decide; decide)
    | (apply State.releaseHold_after; rotate_left; decide; decide)
    | (apply State.released_after; rotate_left; decide; decide) | apply Keeps.ite | apply Keeps.ite_fst
    | apply Keeps.ite_snd | (apply Keeps.of_eq_fst; assumption) | (apply Keeps.of_eq_snd; assumption) | (intro) | split
    | dsimp only

theorem State.holdGrant_after {m' q' : Nat} {u' : State} {s : State} (h' : Keeps m' q' u' s)
    (hm' : Nat.lor 0x78001800000000060042807f3d01800000000000000000003ffffff8000000000000000000000004010003000000000000000000000000000000000010000000000000000000000000000000000000 m' = m') (hq' : Nat.lor 0xf8c1 q' = q') : Keeps m' q' u' (s.holdGrant) := by
  refine Keeps.after ?_ hm' hq' h'
  clear hm' hq' h'
  unfold State.holdGrant
  with_reducible repeat' first
    | assumption | exact Keeps.refl _ | (apply Keeps.wr; rotate_left; decide) | (apply Keeps.flag; rotate_left; decide)
    | (apply Keeps.bump; rotate_left; decide) | (apply State.cabRequest_after; rotate_left; decide; decide)
    | (apply State.modCab_after; rotate_left; decide; decide) | (apply State.setLane_after; rotate_left; decide; decide)
    | (apply State.tagFail_after; rotate_left; decide; decide) | apply Keeps.ite | apply Keeps.ite_fst | apply Keeps.ite_snd
    | (apply Keeps.of_eq_fst; assumption) | (apply Keeps.of_eq_snd; assumption) | (intro) | split | dsimp only

theorem State.decrypted_after {m' q' : Nat} {u' : State} {s : State} {j : CabJob} {intact : Bool} (h' : Keeps m' q' u' s)
    (hm' : Nat.lor 0x78001800007000028040807f3d01800000000000000000003ffffff8000000000000000000000004010003000000000000000000000000000000000010000000000000000000000000000000000000 m' = m') (hq' : Nat.lor 0x1f8c1 q' = q') : Keeps m' q' u' (s.decrypted j intact) := by
  refine Keeps.after ?_ hm' hq' h'
  clear hm' hq' h'
  unfold State.decrypted
  with_reducible repeat' first
    | assumption | exact Keeps.refl _ | (apply Keeps.bump; rotate_left; decide)
    | (apply State.tagFail_after; rotate_left; decide; decide) | (apply State.tagGood_after; rotate_left; decide; decide)
    | apply Keeps.ite | apply Keeps.ite_fst | apply Keeps.ite_snd | (intro) | split | dsimp only

theorem State.xtsRequest_after {m' q' : Nat} {u' : State} {s : State} {f lba : Nat} (h' : Keeps m' q' u' s)
    (hm' : Nat.lor 0x2000000000000000000000000000000000000000000000000000000000000000000000000000000000000000000000000000000000000000000000000000000000000000000 m' = m') (hq' : Nat.lor 0x8000 q' = q') : Keeps m' q' u' (s.xtsRequest f lba) := by
  refine Keeps.after ?_ hm' hq' h'
  clear hm' hq' h'
  unfold State.xtsRequest
  with_reducible repeat' first
    | assumption | exact Keeps.refl _ | (apply Keeps.flag; rotate_left; decide)
    | (apply State.cabRequest_after; rotate_left; decide; decide) | apply Keeps.ite | apply Keeps.ite_fst
    | apply Keeps.ite_snd | (apply Keeps.of_eq_fst; assumption) | (apply Keeps.of_eq_snd; assumption) | (intro) | split
    | dsimp only

theorem State.xtsDone_after {m' q' : Nat} {u' : State} {s : State} {j : CabJob} (h' : Keeps m' q' u' s)
    (hm' : Nat.lor 0x7f39000000000000000000000000000000000000000000000000000000000000000000000000000000000000000000000000000000000000000000000000000000000000 m' = m') (hq' : Nat.lor 0x4000 q' = q') : Keeps m' q' u' (s.xtsDone j) := by
  refine Keeps.after ?_ hm' hq' h'
  clear hm' hq' h'
  unfold State.xtsDone
  with_reducible repeat' first
    | assumption | exact Keeps.refl _ | (apply State.chestRow_after; rotate_left; decide; decide) | apply Keeps.ite
    | apply Keeps.ite_fst | apply Keeps.ite_snd | apply Keeps.foldl | apply Keeps.foldl_snd | apply Keeps.foldl_fst
    | (apply Keeps.of_eq_fst; assumption) | (apply Keeps.of_eq_snd; assumption) | (intro) | split | dsimp only

theorem State.cipherDone_after {m' q' : Nat} {u' : State} {s : State} {c : Nat} {intact : Bool} (h' : Keeps m' q' u' s)
    (hm' : Nat.lor 0x78001800007000038040807f3d01800000000000000000003ffffff8000000000000000000000004010003000000000000000000000000000000000010000000000000000000000000000000000000 m' = m') (hq' : Nat.lor 0x1f8c1 q' = q') : Keeps m' q' u' (s.cipherDone c intact) := by
  refine Keeps.after ?_ hm' hq' h'
  clear hm' hq' h'
  unfold State.cipherDone
  with_reducible repeat' first
    | assumption | exact Keeps.refl _ | (apply State.cabStart_after; rotate_left; decide; decide)
    | (apply State.cellFilled_after; rotate_left; decide; decide)
    | (apply State.decrypted_after; rotate_left; decide; decide) | (apply State.modCab_after; rotate_left; decide; decide)
    | (apply State.xtsDone_after; rotate_left; decide; decide) | (apply Keeps.of_eq_fst; assumption)
    | (apply Keeps.of_eq_snd; assumption) | (intro) | split | dsimp only

theorem State.opsRefresh_after {m' q' : Nat} {u' : State} {s : State} (h' : Keeps m' q' u' s)
    (hm' : Nat.lor 0x7e00080000000000000000000000000000000000000000000000000000000000000000000000000000000000000000000000000000000000000000000000000000000000000000 m' = m') (hq' : Nat.lor 0x0 q' = q') : Keeps m' q' u' (s.opsRefresh) := by
  refine Keeps.after ?_ hm' hq' h'
  clear hm' hq' h'
  unfold State.opsRefresh
  with_reducible repeat' first
    | assumption | exact Keeps.refl _ | (apply Keeps.setTo; rotate_left; decide)
    | (apply State.slotShow_after; rotate_left; decide; decide) | (intro) | split | dsimp only

theorem State.issueOp_after {m' q' : Nat} {u' : State} {s : State} {op k : Nat} {command : Option Nat} (h' : Keeps m' q' u' s)
    (hm' : Nat.lor 0x7e00280000000000000000000000000000000000000000000000000000000000000000000000000000000000000000000000000000000000000000000000000000000000000000 m' = m') (hq' : Nat.lor 0x8000 q' = q') : Keeps m' q' u' (s.issueOp op k command).2 := by
  refine Keeps.after ?_ hm' hq' h'
  clear hm' hq' h'
  unfold State.issueOp
  with_reducible repeat' first
    | assumption | exact Keeps.refl _ | (apply Keeps.flag; rotate_left; decide)
    | (apply State.modCab_after; rotate_left; decide; decide) | (apply State.opsRefresh_after; rotate_left; decide; decide)
    | apply Keeps.ite | apply Keeps.ite_fst | apply Keeps.ite_snd | (intro) | split | dsimp only

theorem State.slotGo_after {m' q' : Nat} {u' : State} {s : State} {op k : Nat} (h' : Keeps m' q' u' s)
    (hm' : Nat.lor 0x7e002b0000000000000000000000000000000000000000000000000000000000000000000000000000000000000000000000000000000000000000000000000000000000000000 m' = m') (hq' : Nat.lor 0x8000 q' = q') : Keeps m' q' u' (s.slotGo op k) := by
  refine Keeps.after ?_ hm' hq' h'
  clear hm' hq' h'
  unfold State.slotGo
  with_reducible repeat' first
    | assumption | exact Keeps.refl _ | (apply Keeps.wr; rotate_left; decide) | (apply Keeps.flag; rotate_left; decide)
    | (apply State.issueOp_after; rotate_left; decide; decide) | apply Keeps.ite | apply Keeps.ite_fst | apply Keeps.ite_snd
    | (intro) | split | dsimp only

theorem State.newKeys_after {m' q' : Nat} {u' : State} {s : State} {k : Nat} (h' : Keeps m' q' u' s)
    (hm' : Nat.lor 0x7f3d000000000000000000000000000000000000000000000000000000000000000000000000000000000000000000000000000000000000000000000000000000000000 m' = m') (hq' : Nat.lor 0xc000 q' = q') : Keeps m' q' u' (s.newKeys k) := by
  refine Keeps.after ?_ hm' hq' h'
  clear hm' hq' h'
  unfold State.newKeys
  with_reducible repeat' first
    | assumption | exact Keeps.refl _ | (apply State.journal_after; rotate_left; decide; decide)
    | (apply State.modCab_after; rotate_left; decide; decide) | (apply State.modKeySlot_after; rotate_left; decide; decide)
    | (intro) | split | dsimp only

theorem State.clearKeys_after {m' q' : Nat} {u' : State} {s : State} {k : Nat} (h' : Keeps m' q' u' s)
    (hm' : Nat.lor 0x7f3d000000000000000000000000000000000000000000000000000000000000000000000000000000000000000000000000000000000000000000000000000000000000 m' = m') (hq' : Nat.lor 0xc000 q' = q') : Keeps m' q' u' (s.clearKeys k) := by
  refine Keeps.after ?_ hm' hq' h'
  clear hm' hq' h'
  unfold State.clearKeys
  with_reducible repeat' first
    | assumption | exact Keeps.refl _ | (apply State.journal_after; rotate_left; decide; decide)
    | (apply State.modKeySlot_after; rotate_left; decide; decide) | apply Keeps.ite | apply Keeps.ite_fst
    | apply Keeps.ite_snd | (intro) | split | dsimp only

theorem State.slotEffect_after {m' q' : Nat} {u' : State} {s : State} {o : SlotOp} (h' : Keeps m' q' u' s)
    (hm' : Nat.lor 0x207f3d000000000000000000000000000000000000000000000000000000000000000000000000000000000000000000000000000000000000000000000000000000000000 m' = m') (hq' : Nat.lor 0xc000 q' = q') : Keeps m' q' u' (s.slotEffect o).2 := by
  refine Keeps.after ?_ hm' hq' h'
  clear hm' hq' h'
  unfold State.slotEffect
  with_reducible repeat' first
    | assumption | exact Keeps.refl _ | (apply Keeps.flag; rotate_left; decide)
    | (apply State.clearKeys_after; rotate_left; decide; decide)
    | (apply State.modKeySlot_after; rotate_left; decide; decide) | (apply State.newKeys_after; rotate_left; decide; decide)
    | apply Keeps.ite | apply Keeps.ite_fst | apply Keeps.ite_snd | (apply Keeps.of_eq_fst; assumption)
    | (apply Keeps.of_eq_snd; assumption) | (intro) | split | dsimp only

theorem State.epochKeys_after {m' q' : Nat} {u' : State} {s : State} (h' : Keeps m' q' u' s)
    (hm' : Nat.lor 0x7e00000000000000000000000000000000000000000000000000000000000000000000000000000000000000000000000000000000000000000000000000000000000000000000 m' = m') (hq' : Nat.lor 0xa000 q' = q') : Keeps m' q' u' (s.epochKeys) := by
  refine Keeps.after ?_ hm' hq' h'
  clear hm' hq' h'
  unfold State.epochKeys
  with_reducible repeat' first
    | assumption | exact Keeps.refl _ | (apply State.modCab_after; rotate_left; decide; decide)
    | (apply State.modHost_after; rotate_left; decide; decide) | (apply State.slotShow_after; rotate_left; decide; decide)
    | apply Keeps.ite | apply Keeps.ite_fst | apply Keeps.ite_snd | (intro) | split | dsimp only

/-! ### Reads -/

theorem State.fromVersion_after {m' q' : Nat} {u' : State} {s : State} {f l g : Nat} (h' : Keeps m' q' u' s)
    (hm' : Nat.lor 0x0 m' = m') (hq' : Nat.lor 0x6000 q' = q') : Keeps m' q' u' (s.fromVersion f l g) := by
  refine Keeps.after ?_ hm' hq' h'
  clear hm' hq' h'
  unfold State.fromVersion
  with_reducible repeat' first
    | assumption | exact Keeps.refl _ | (apply State.modCmd_after; rotate_left; decide; decide)
    | (apply State.modVersion_after; rotate_left; decide; decide) | apply Keeps.when | apply Keeps.ite | apply Keeps.ite_fst
    | apply Keeps.ite_snd | (intro) | split | dsimp only

theorem State.sourceBlock_after {m' q' : Nat} {u' : State} {s : State} {f l : Nat} {todo : List (Nat × Nat × Nat)} (h' : Keeps m' q' u' s)
    (hm' : Nat.lor 0x10000000000000000000000000000000000000000000000000000000000000000000000000000000000000000000000000000000000000000000000000000000000 m' = m') (hq' : Nat.lor 0x6020 q' = q') : Keeps m' q' u' (s.sourceBlock f l todo).1 := by
  refine Keeps.after ?_ hm' hq' h'
  clear hm' hq' h'
  unfold State.sourceBlock
  with_reducible repeat' first
    | assumption | exact Keeps.refl _ | (apply State.drawn_after; rotate_left; decide; decide)
    | (apply State.fromVersion_after; rotate_left; decide; decide)
    | (apply State.logUnrecovered_after; rotate_left; decide; decide)
    | (apply State.modCmd_after; rotate_left; decide; decide)
    | (apply State.receiveBlock_after; rotate_left; decide; decide) | apply Keeps.ite | apply Keeps.ite_fst
    | apply Keeps.ite_snd | (apply Keeps.of_eq_fst; assumption) | (apply Keeps.of_eq_snd; assumption) | (intro) | split
    | dsimp only

theorem State.postReads_after {m' q' : Nat} {u' : State} {s : State} {f : Nat} {todo : List (Nat × Nat × Nat)} (h' : Keeps m' q' u' s)
    (hm' : Nat.lor 0x78001800000000000000000000008000000000000000000000000000000000000000000000000000000000000000000000000000000000000000000010000000000000000000000000000000000000 m' = m') (hq' : Nat.lor 0x2801 q' = q') : Keeps m' q' u' (s.postReads f todo) := by
  refine Keeps.after ?_ hm' hq' h'
  clear hm' hq' h'
  unfold State.postReads
  with_reducible repeat' first
    | assumption | exact Keeps.refl _ | (apply State.postPlaces_after; rotate_left; decide; decide)
    | (apply State.reach_after; rotate_left; decide; decide) | apply Keeps.foldl | apply Keeps.foldl_snd
    | apply Keeps.foldl_fst | (apply Keeps.of_eq_fst; assumption) | (apply Keeps.of_eq_snd; assumption) | (intro) | split
    | dsimp only

theorem State.startReads_after {m' q' : Nat} {u' : State} {s : State} {f : Nat} {ls : List Nat} (h' : Keeps m' q' u' s)
    (hm' : Nat.lor 0x78001800000000000000000000018000000000000000000000000000000000000000000000000000000000000000000000000000000000000000000010000000000000000000000000000000000000 m' = m') (hq' : Nat.lor 0x6821 q' = q') : Keeps m' q' u' (s.startReads f ls) := by
  refine Keeps.after ?_ hm' hq' h'
  clear hm' hq' h'
  unfold State.startReads
  with_reducible repeat' first
    | assumption | exact Keeps.refl _ | (apply State.modCmd_after; rotate_left; decide; decide)
    | (apply State.postReads_after; rotate_left; decide; decide)
    | (apply State.sourceBlock_after; rotate_left; decide; decide) | apply Keeps.foldl | apply Keeps.foldl_snd
    | apply Keeps.foldl_fst | (apply Keeps.of_eq_fst; assumption) | (apply Keeps.of_eq_snd; assumption) | (intro) | split
    | dsimp only

theorem State.resource_after {m' q' : Nat} {u' : State} {s : State} {g : Nat} (h' : Keeps m' q' u' s)
    (hm' : Nat.lor 0x78001800000000000000000000018000000000000000000000000000000000000000000000000000000000000000000000000000000000000000000010000000000000000000000000000000000000 m' = m') (hq' : Nat.lor 0x6821 q' = q') : Keeps m' q' u' (s.resource g) := by
  refine Keeps.after ?_ hm' hq' h'
  clear hm' hq' h'
  unfold State.resource
  with_reducible repeat' first
    | assumption | exact Keeps.refl _ | (apply State.modCmd_after; rotate_left; decide; decide)
    | (apply State.modVersion_after; rotate_left; decide; decide)
    | (apply State.startReads_after; rotate_left; decide; decide) | apply Keeps.ite | apply Keeps.ite_fst
    | apply Keeps.ite_snd | apply Keeps.foldl | apply Keeps.foldl_snd | apply Keeps.foldl_fst | (intro) | split | dsimp only

theorem State.dropWrite_after {m' q' : Nat} {u' : State} {s : State} {f : Nat} (h' : Keeps m' q' u' s)
    (hm' : Nat.lor 0x78001800000000000000007ff901b000000000000000000000000000000000000000000000000000000000000000000000000000000000000000000010000000000000000000000000000000000000 m' = m') (hq' : Nat.lor 0x16821 q' = q') : Keeps m' q' u' (s.dropWrite f) := by
  refine Keeps.after ?_ hm' hq' h'
  clear hm' hq' h'
  unfold State.dropWrite
  with_reducible repeat' first
    | assumption | exact Keeps.refl _ | (apply State.dropVersions_after; rotate_left; decide; decide)
    | (apply State.logRefresh_after; rotate_left; decide; decide)
    | (apply State.modBridge_after; rotate_left; decide; decide) | (apply State.modPhv_after; rotate_left; decide; decide)
    | (apply State.resource_after; rotate_left; decide; decide) | apply Keeps.ite | apply Keeps.ite_fst
    | apply Keeps.ite_snd | (intro) | split | dsimp only

theorem State.failWrite_after {m' q' : Nat} {u' : State} {s : State} {f : Nat} {st : NvStatus} (h' : Keeps m' q' u' s)
    (hm' : Nat.lor 0x78001800000000000000007ff901b000000000000000000000000000000000000000000000000000000000000000000000000000000000000000000010000000000000000000000000000000000000 m' = m') (hq' : Nat.lor 0x16821 q' = q') : Keeps m' q' u' (s.failWrite f st) := by
  refine Keeps.after ?_ hm' hq' h'
  clear hm' hq' h'
  unfold State.failWrite
  with_reducible repeat' first
    | assumption | exact Keeps.refl _ | (apply State.dropWrite_after; rotate_left; decide; decide)
    | (apply State.finish_after; rotate_left; decide; decide) | (apply State.modRecord_after; rotate_left; decide; decide)
    | (apply State.settleWaits_after; rotate_left; decide; decide) | apply Keeps.ite | apply Keeps.ite_fst
    | apply Keeps.ite_snd | apply Keeps.foldl | apply Keeps.foldl_snd | apply Keeps.foldl_fst
    | (apply Keeps.of_eq_fst; assumption) | (apply Keeps.of_eq_snd; assumption) | (intro) | split | dsimp only

/-! ### Bridge -/

theorem State.newEntry_after {m' q' : Nat} {u' : State} {s : State} {f nsid lba n : Nat} (h' : Keeps m' q' u' s)
    (hm' : Nat.lor 0xc0000000000000000000000000000000000000000000000000000000000000000000000000000000000000000000000000000000000000000000000000000000000000 m' = m') (hq' : Nat.lor 0x4000 q' = q') : Keeps m' q' u' (s.newEntry f nsid lba n) := by
  refine Keeps.after ?_ hm' hq' h'
  clear hm' hq' h'
  unfold State.newEntry
  with_reducible repeat' first
    | assumption | exact Keeps.refl _ | (apply State.logRefresh_after; rotate_left; decide; decide)
    | (apply State.modBridge_after; rotate_left; decide; decide) | apply Keeps.elim | (intro) | split | dsimp only

theorem State.joinQueue_after {m' q' : Nat} {u' : State} {s : State} {c : Cmd} {n : Nat} (h' : Keeps m' q' u' s)
    (hm' : Nat.lor 0xc2000000000000000000000000000000000000000000000000000000000000000000000000000000000000000000000000000000000000000000000000000000000000 m' = m') (hq' : Nat.lor 0x4000 q' = q') : Keeps m' q' u' (s.joinQueue c n) := by
  refine Keeps.after ?_ hm' hq' h'
  clear hm' hq' h'
  unfold State.joinQueue
  with_reducible repeat' first
    | assumption | exact Keeps.refl _ | (apply Keeps.flag; rotate_left; decide)
    | (apply State.modBridge_after; rotate_left; decide; decide) | (apply State.newEntry_after; rotate_left; decide; decide)
    | apply Keeps.ite | apply Keeps.ite_fst | apply Keeps.ite_snd | (apply Keeps.of_eq_fst; assumption)
    | (apply Keeps.of_eq_snd; assumption) | (intro) | split | dsimp only

theorem State.takeSpace_after {m' q' : Nat} {u' : State} {s : State} {q : GrantQueue} {n : Nat} (h' : Keeps m' q' u' s)
    (hm' : Nat.lor 0x1000000000000000000000000000000000000000000000000000000000000000000000000000000000000000000000000000000000000000000000000000000000 m' = m') (hq' : Nat.lor 0x2000 q' = q') : Keeps m' q' u' (s.takeSpace q n) := by
  refine Keeps.after ?_ hm' hq' h'
  clear hm' hq' h'
  unfold State.takeSpace
  with_reducible repeat' first
    | assumption | exact Keeps.refl _ | (apply Keeps.wr; rotate_left; decide)
    | (apply State.modHost_after; rotate_left; decide; decide) | apply Keeps.ite | apply Keeps.ite_fst | apply Keeps.ite_snd
    | (apply Keeps.of_eq_fst; assumption) | (apply Keeps.of_eq_snd; assumption) | (intro) | split | dsimp only

theorem State.takeDescriptor_after {m' q' : Nat} {u' : State} {s : State} (h' : Keeps m' q' u' s)
    (hm' : Nat.lor 0x2000000000000000000000000000000000000000000000000000000000000000000000000000000000000000000000000000000000000000000000000000000000 m' = m') (hq' : Nat.lor 0x0 q' = q') : Keeps m' q' u' (s.takeDescriptor) := by
  refine Keeps.after ?_ hm' hq' h'
  clear hm' hq' h'
  unfold State.takeDescriptor
  with_reducible repeat' first
    | assumption | exact Keeps.refl _ | (apply Keeps.wr; rotate_left; decide) | (intro) | split | dsimp only

theorem State.writeGrant_after {m' q' : Nat} {u' : State} {s : State} {q : GrantQueue} (h' : Keeps m' q' u' s)
    (hm' : Nat.lor 0x3180000000000000000000000000000000000000000000000000000000000000000000000000000000000000000000000000000000000000000000000000000000 m' = m') (hq' : Nat.lor 0x16000 q' = q') : Keeps m' q' u' (s.writeGrant q) := by
  refine Keeps.after ?_ hm' hq' h'
  clear hm' hq' h'
  unfold State.writeGrant
  with_reducible repeat' first
    | assumption | exact Keeps.refl _ | (apply Keeps.flag; rotate_left; decide)
    | (apply State.modBridge_after; rotate_left; decide; decide) | (apply State.modNs_after; rotate_left; decide; decide)
    | (apply State.modPhv_after; rotate_left; decide; decide)
    | (apply State.takeDescriptor_after; rotate_left; decide; decide)
    | (apply State.takeSpace_after; rotate_left; decide; decide) | apply Keeps.ite | apply Keeps.ite_fst
    | apply Keeps.ite_snd | (apply Keeps.of_eq_fst; assumption) | (apply Keeps.of_eq_snd; assumption) | (intro) | split
    | dsimp only

theorem State.writeReady_after {m' q' : Nat} {u' : State} {s : State} {v : Version} {c : Cmd} (h' : Keeps m' q' u' s)
    (hm' : Nat.lor 0x400000000000000000000007000000000007ffd003000000000000000000000000000000000000000000000000000000000000000000000000000000000000000000000000000000000000000000000000000000000 m' = m') (hq' : Nat.lor 0x16000 q' = q') : Keeps m' q' u' (s.writeReady v c) := by
  refine Keeps.after ?_ hm' hq' h'
  clear hm' hq' h'
  unfold State.writeReady
  with_reducible repeat' first
    | assumption | exact Keeps.refl _ | (apply State.dropVersions_after; rotate_left; decide; decide)
    | (apply State.journal_after; rotate_left; decide; decide) | (apply State.modCmd_after; rotate_left; decide; decide)
    | (apply State.modVersion_after; rotate_left; decide; decide)
    | (apply State.postCompress_after; rotate_left; decide; decide)
    | (apply State.settleWaits_after; rotate_left; decide; decide)
    | (apply State.supersede_after; rotate_left; decide; decide) | (apply State.unmark_after; rotate_left; decide; decide)
    | apply Keeps.when | apply Keeps.ite | apply Keeps.ite_fst | apply Keeps.ite_snd | apply Keeps.foldl
    | apply Keeps.foldl_snd | apply Keeps.foldl_fst | (intro) | split | dsimp only

theorem State.transferEnd_after {m' q' : Nat} {u' : State} {s : State} {f : Nat} {ok : Bool} (h' : Keeps m' q' u' s)
    (hm' : Nat.lor 0x400000000000078001800007000000000007ffd01b000000000000000800000000000000000000000000000000000000000000000000000000000000000000000000010000000000000000000000000000000000000 m' = m') (hq' : Nat.lor 0x16821 q' = q') : Keeps m' q' u' (s.transferEnd f ok) := by
  refine Keeps.after ?_ hm' hq' h'
  clear hm' hq' h'
  unfold State.transferEnd
  with_reducible repeat' first
    | assumption | exact Keeps.refl _ | (apply Keeps.bump; rotate_left; decide)
    | (apply State.dropWrite_after; rotate_left; decide; decide)
    | (apply State.failWrite_after; rotate_left; decide; decide)
    | (apply State.modVersion_after; rotate_left; decide; decide)
    | (apply State.takeSpace_after; rotate_left; decide; decide)
    | (apply State.writeReady_after; rotate_left; decide; decide) | apply Keeps.when | apply Keeps.ite | apply Keeps.ite_fst
    | apply Keeps.ite_snd | (apply Keeps.of_eq_fst; assumption) | (apply Keeps.of_eq_snd; assumption) | (intro) | split
    | dsimp only

theorem State.entryCommit_after {m' q' : Nat} {u' : State} {s : State} {f : Nat} (h' : Keeps m' q' u' s)
    (hm' : Nat.lor 0x7ff9003000000000000000000000000000000000000000000000000000000000000000000000000000000000000000000000000000000000000000000000000000000000 m' = m') (hq' : Nat.lor 0x6000 q' = q') : Keeps m' q' u' (s.entryCommit f) := by
  refine Keeps.after ?_ hm' hq' h'
  clear hm' hq' h'
  unfold State.entryCommit
  with_reducible repeat' first
    | assumption | exact Keeps.refl _ | (apply State.chestRow_after; rotate_left; decide; decide)
    | (apply State.dropVersions_after; rotate_left; decide; decide)
    | (apply State.logRefresh_after; rotate_left; decide; decide)
    | (apply State.modBridge_after; rotate_left; decide; decide) | (apply State.modCmd_after; rotate_left; decide; decide)
    | (apply State.settleWaits_after; rotate_left; decide; decide) | apply Keeps.ite | apply Keeps.ite_fst
    | apply Keeps.ite_snd | (apply Keeps.of_eq_fst; assumption) | (apply Keeps.of_eq_snd; assumption) | (intro) | split
    | dsimp only

theorem State.unspill_after {m' q' : Nat} {u' : State} {s : State} {f l : Nat} (h' : Keeps m' q' u' s)
    (hm' : Nat.lor 0x1000000000000000000000000000000000000000000000000000000000000000000000000000000000000000000000000000000000000000000000000000000000 m' = m') (hq' : Nat.lor 0x4000 q' = q') : Keeps m' q' u' (s.unspill f l) := by
  refine Keeps.after ?_ hm' hq' h'
  clear hm' hq' h'
  unfold State.unspill
  with_reducible repeat' first
    | assumption | exact Keeps.refl _ | (apply Keeps.wr; rotate_left; decide)
    | (apply State.modBridge_after; rotate_left; decide; decide) | apply Keeps.ite | apply Keeps.ite_fst
    | apply Keeps.ite_snd | (intro) | split | dsimp only

theorem State.blockMoved_after {m' q' : Nat} {u' : State} {s : State} {f l data : Nat} (h' : Keeps m' q' u' s)
    (hm' : Nat.lor 0x0 m' = m') (hq' : Nat.lor 0x1002000 q' = q') : Keeps m' q' u' (s.blockMoved f l data) := by
  refine Keeps.after ?_ hm' hq' h'
  clear hm' hq' h'
  unfold State.blockMoved
  with_reducible repeat' first
    | assumption | exact Keeps.refl _ | (apply State.emit_after; rotate_left; decide; decide)
    | (apply State.modCmd_after; rotate_left; decide; decide) | (intro) | split | dsimp only

theorem State.consumePoison_after {m' q' : Nat} {u' : State} {s : State} {f l : Nat} {page : Option Str} (h' : Keeps m' q' u' s)
    (hm' : Nat.lor 0x78001800000000000000000000018000000000000000000000000000000000000000000000000000000000000000000000000000000000000000000010000000000000000000000000000000000000 m' = m') (hq' : Nat.lor 0x6821 q' = q') : Keeps m' q' u' (s.consumePoison f l page) := by
  refine Keeps.after ?_ hm' hq' h'
  clear hm' hq' h'
  unfold State.consumePoison
  with_reducible repeat' first
    | assumption | exact Keeps.refl _ | (apply State.failSector_after; rotate_left; decide; decide)
    | (apply State.givePage_after; rotate_left; decide; decide) | (apply State.modBridge_after; rotate_left; decide; decide)
    | (apply State.modCmd_after; rotate_left; decide; decide) | (apply State.startReads_after; rotate_left; decide; decide)
    | apply Keeps.ite | apply Keeps.ite_fst | apply Keeps.ite_snd | (intro) | split | dsimp only

theorem State.hostTransfer_after {m' q' : Nat} {u' : State} {s : State} {f l : Nat} (h' : Keeps m' q' u' s)
    (hm' : Nat.lor 0x78001800000000000000007ff901b000000000000000000000000000000000000000000000000000000000000000000000000000000000000000000010000000000000000000000000000000000000 m' = m') (hq' : Nat.lor 0x1006821 q' = q') : Keeps m' q' u' (s.hostTransfer f l) := by
  refine Keeps.after ?_ hm' hq' h'
  clear hm' hq' h'
  unfold State.hostTransfer
  with_reducible repeat' first
    | assumption | exact Keeps.refl _ | (apply State.blockMoved_after; rotate_left; decide; decide)
    | (apply State.consumePoison_after; rotate_left; decide; decide)
    | (apply State.givePage_after; rotate_left; decide; decide) | (apply State.modCmd_after; rotate_left; decide; decide)
    | (apply State.unpin_after; rotate_left; decide; decide) | (apply State.unspill_after; rotate_left; decide; decide)
    | apply Keeps.when | apply Keeps.ite | apply Keeps.ite_fst | apply Keeps.ite_snd | (apply Keeps.of_eq_fst; assumption)
    | (apply Keeps.of_eq_snd; assumption) | (intro) | split | dsimp only

theorem State.pageSpill_after {m' q' : Nat} {u' : State} {s : State} {f l : Nat} (h' : Keeps m' q' u' s)
    (hm' : Nat.lor 0x11400000000000000000000000000000000000000000000000000000000000000000000000000000000000000000000000000000000000000000000000000000000 m' = m') (hq' : Nat.lor 0x6000 q' = q') : Keeps m' q' u' (s.pageSpill f l) := by
  refine Keeps.after ?_ hm' hq' h'
  clear hm' hq' h'
  unfold State.pageSpill
  with_reducible repeat' first
    | assumption | exact Keeps.refl _ | (apply Keeps.wr; rotate_left; decide) | (apply Keeps.flag; rotate_left; decide)
    | (apply State.givePage_after; rotate_left; decide; decide) | (apply State.modBridge_after; rotate_left; decide; decide)
    | (apply State.modCmd_after; rotate_left; decide; decide) | apply Keeps.ite | apply Keeps.ite_fst | apply Keeps.ite_snd
    | (apply Keeps.of_eq_fst; assumption) | (apply Keeps.of_eq_snd; assumption) | (intro) | split | dsimp only

theorem State.logCopy_after {m' q' : Nat} {u' : State} {s : State} (h' : Keeps m' q' u' s)
    (hm' : Nat.lor 0x7ff9000000000000000000000000000000000000000000000000000000000000000000000000000000000000000000000000000000000000000000000000000000000000 m' = m') (hq' : Nat.lor 0x4000 q' = q') : Keeps m' q' u' (s.logCopy) := by
  refine Keeps.after ?_ hm' hq' h'
  clear hm' hq' h'
  unfold State.logCopy
  with_reducible repeat' first
    | assumption | exact Keeps.refl _ | (apply State.chestRow_after; rotate_left; decide; decide)
    | (apply State.logRefresh_after; rotate_left; decide; decide)
    | (apply State.modBridge_after; rotate_left; decide; decide) | apply Keeps.ite | apply Keeps.ite_fst
    | apply Keeps.ite_snd | apply Keeps.foldl | apply Keeps.foldl_snd | apply Keeps.foldl_fst
    | (apply Keeps.of_eq_fst; assumption) | (apply Keeps.of_eq_snd; assumption) | (intro) | split | dsimp only

theorem State.bridgeGo_after {m' q' : Nat} {u' : State} {s : State} (h' : Keeps m' q' u' s)
    (hm' : Nat.lor 0x1840000000000000000000000000000000000000000000000000000000000000000000000000000000000000000000000000000000000000000000000000000000 m' = m') (hq' : Nat.lor 0x4000 q' = q') : Keeps m' q' u' (s.bridgeGo) := by
  refine Keeps.after ?_ hm' hq' h'
  clear hm' hq' h'
  unfold State.bridgeGo
  with_reducible repeat' first
    | assumption | exact Keeps.refl _ | (apply Keeps.wr; rotate_left; decide) | (apply Keeps.flag; rotate_left; decide)
    | (apply Keeps.setTo; rotate_left; decide) | (apply State.modBridge_after; rotate_left; decide; decide)
    | apply Keeps.ite | apply Keeps.ite_fst | apply Keeps.ite_snd | (intro) | split | dsimp only

end Sys2Proof.Machine
end

