-- ==== Sys2Proof/Laws/FrameHost.lean ====
section
/-! SUPPORT. Laws/FrameHost.lean: what each operation of the model keeps, one lemma each: the host commands: fetch, zones, administration, the address map and caches, namespaces, controllers. The numbers are the masks of
`Keeps`. -/
namespace Sys2Proof.Machine
set_option linter.unreachableTactic false
set_option linter.unusedTactic false

/-! ### Fetch -/

theorem State.modController_after {m' q' : Nat} {u' : State} {s : State} {k : Nat} {f : Controller → Controller} (h' : Keeps m' q' u' s)
    (hm' : Nat.lor 0x0 m' = m') (hq' : Nat.lor 0x2000 q' = q') : Keeps m' q' u' (s.modController k f) := by
  refine Keeps.after ?_ hm' hq' h'
  clear hm' hq' h'
  unfold State.modController
  with_reducible repeat' first
    | assumption | exact Keeps.refl _ | (apply State.modHost_after; rotate_left; decide; decide) | (intro) | split
    | dsimp only

theorem State.outRefresh_after {m' q' : Nat} {u' : State} {s : State} {k : Nat} (h' : Keeps m' q' u' s)
    (hm' : Nat.lor 0x100000000000000000000000000000000000000000000000000000000000000000000000000000000000000000000000000000000000000000 m' = m') (hq' : Nat.lor 0x0 q' = q') : Keeps m' q' u' (s.outRefresh k) := by
  refine Keeps.after ?_ hm' hq' h'
  clear hm' hq' h'
  unfold State.outRefresh
  with_reducible repeat' first
    | assumption | exact Keeps.refl _ | (apply Keeps.wr; rotate_left; decide) | (intro) | split | dsimp only

theorem State.spinOnIo_after {m' q' : Nat} {u' : State} {s : State} (h' : Keeps m' q' u' s)
    (hm' : Nat.lor 0x1800000000000000000000000000000000000000000000000000000000000000000000000000000000000000000000000000000000000000000000000000000000000000000000000000000000000c004c00000000000000000 m' = m') (hq' : Nat.lor 0x10c2400 q' = q') : Keeps m' q' u' (s.spinOnIo) := by
  refine Keeps.after ?_ hm' hq' h'
  clear hm' hq' h'
  unfold State.spinOnIo
  with_reducible repeat' first
    | assumption | exact Keeps.refl _ | (apply Keeps.wr; rotate_left; decide)
    | (apply State.speStartOp_after; rotate_left; decide; decide) | apply Keeps.ite | apply Keeps.ite_fst
    | apply Keeps.ite_snd | (intro) | split | dsimp only

theorem State.fetchOne_after {m' q' : Nat} {u' : State} {s : State} {k sqid cid nsid : Nat} {op : HostOp} (h' : Keeps m' q' u' s)
    (hm' : Nat.lor 0x1800000000000000000000000000000000000000000000000000000000000000170000000000000000000000000000000000000000000000000000000000000000000000000000000000000000000c004c00000000000000000 m' = m') (hq' : Nat.lor 0x10c2400 q' = q') : Keeps m' q' u' (s.fetchOne k sqid cid nsid op) := by
  refine Keeps.after ?_ hm' hq' h'
  clear hm' hq' h'
  unfold State.fetchOne
  with_reducible repeat' first
    | assumption | exact Keeps.refl _ | (apply Keeps.bump; rotate_left; decide)
    | (apply State.modHost_after; rotate_left; decide; decide) | (apply State.outRefresh_after; rotate_left; decide; decide)
    | (apply State.refreshMode_after; rotate_left; decide; decide)
    | (apply State.spinOnIo_after; rotate_left; decide; decide) | apply Keeps.when | (apply Keeps.of_eq_fst; assumption)
    | (apply Keeps.of_eq_snd; assumption) | apply Keeps.elim | (intro) | split | dsimp only
    | (apply Keeps.with_bur; rotate_left; decide)

theorem State.commandFetch_after {m' q' : Nat} {u' : State} {s : State} {k : Nat} {heads : List QueueHead} (h' : Keeps m' q' u' s)
    (hm' : Nat.lor 0x1800000000000000000000000000000000000000000000000000000000000000170000000000000000000000000000000000000000000000000000000000000000000000000000000000000000000c004c00000000000000000 m' = m') (hq' : Nat.lor 0x10c2400 q' = q') : Keeps m' q' u' (s.commandFetch k heads) := by
  refine Keeps.after ?_ hm' hq' h'
  clear hm' hq' h'
  unfold State.commandFetch
  with_reducible repeat' first
    | assumption | exact Keeps.refl _ | (apply State.fetchOne_after; rotate_left; decide; decide)
    | (apply State.modController_after; rotate_left; decide; decide) | apply Keeps.ite | apply Keeps.ite_fst
    | apply Keeps.ite_snd | (apply Keeps.of_eq_fst; assumption) | (apply Keeps.of_eq_snd; assumption) | apply Keeps.elim
    | (intro) | split | dsimp only

theorem State.take_after {m' q' : Nat} {u' : State} {s : State} {f : Nat} {g : State → Cmd → State} (k' : Keeps m' q' u' s)
    (hm' : Nat.lor 0x0 m' = m') (hq' : Nat.lor 0x2000 q' = q') (h : ∀ s c, Keeps m' q' u' s → Keeps m' q' u' (g s c)) :
    Keeps m' q' u' (s.take f g) := by
  unfold State.take
  with_reducible repeat' first
    | assumption | exact Keeps.refl _
    | (apply State.modCmd_after; rotate_left; (first | exact bit_of hm' (by decide) | exact bit_of hq' (by decide) | exact lor_of hm' (by decide) | exact lor_of hq' (by decide)); (first | exact bit_of hm' (by decide) | exact bit_of hq' (by decide) | exact lor_of hm' (by decide) | exact lor_of hq' (by decide)))
    | apply Keeps.ite | apply Keeps.ite_fst | apply Keeps.ite_snd | (apply Keeps.of_eq_fst; assumption)
    | (apply Keeps.of_eq_snd; assumption) | apply h | (intro) | split | dsimp only

/-! ### Zones -/

theorem State.setZone_after {m' q' : Nat} {u' : State} {s : State} {id : Nat} {f : Record → Record} (h' : Keeps m' q' u' s)
    (hm' : Nat.lor 0x7f3d000000000000000000000000000000000000000000000000000000000000000000000000000000000000000000000000000000000000000000000000000000000000 m' = m') (hq' : Nat.lor 0x6000 q' = q') : Keeps m' q' u' (s.setZone id f) := by
  refine Keeps.after ?_ hm' hq' h'
  clear hm' hq' h'
  unfold State.setZone
  with_reducible repeat' first
    | assumption | exact Keeps.refl _ | (apply State.journal_after; rotate_left; decide; decide)
    | (apply State.modRecord_after; rotate_left; decide; decide) | (intro) | split | dsimp only

theorem State.closeZone_after {m' q' : Nat} {u' : State} {s : State} {id : Nat} (h' : Keeps m' q' u' s)
    (hm' : Nat.lor 0x7f3d000000000000000000000000000000000000000000000000000000000000000000000000000000000000000000000000000000000000000000000000000000000000 m' = m') (hq' : Nat.lor 0x6000 q' = q') : Keeps m' q' u' (s.closeZone id) := by
  refine Keeps.after ?_ hm' hq' h'
  clear hm' hq' h'
  unfold State.closeZone
  with_reducible repeat' first
    | assumption | exact Keeps.refl _ | (apply State.saveAcc_after; rotate_left; decide; decide)
    | (apply State.setZone_after; rotate_left; decide; decide) | apply Keeps.ite | apply Keeps.ite_fst | apply Keeps.ite_snd
    | (apply Keeps.of_eq_fst; assumption) | (apply Keeps.of_eq_snd; assumption) | (intro) | split | dsimp only

theorem State.implicitOpen_after {m' q' : Nat} {u' : State} {s : State} {id : Nat} {r : Record} (h' : Keeps m' q' u' s)
    (hm' : Nat.lor 0x7f3d000000000000000000000000000000000000000000000000000000000000000000000000000000000000000000000000000000000000000000000000000000000000 m' = m') (hq' : Nat.lor 0x6000 q' = q') : Keeps m' q' u' (s.implicitOpen id r).2 := by
  refine Keeps.after ?_ hm' hq' h'
  clear hm' hq' h'
  unfold State.implicitOpen
  with_reducible repeat' first
    | assumption | exact Keeps.refl _ | (apply State.closeZone_after; rotate_left; decide; decide)
    | (apply State.setZone_after; rotate_left; decide; decide) | apply Keeps.ite | apply Keeps.ite_fst | apply Keeps.ite_snd
    | (apply Keeps.of_eq_fst; assumption) | (apply Keeps.of_eq_snd; assumption) | (intro) | split | dsimp only

theorem State.touchZone_after {m' q' : Nat} {u' : State} {s : State} {id : Nat} (h' : Keeps m' q' u' s)
    (hm' : Nat.lor 0x178001800000000000000000000008000000000000000000000000000000000000000000000000000000000000000000000000000000000000000000010000000000000000000000000000000000000 m' = m') (hq' : Nat.lor 0x6801 q' = q') : Keeps m' q' u' (s.touchZone id) := by
  refine Keeps.after ?_ hm' hq' h'
  clear hm' hq' h'
  unfold State.touchZone
  with_reducible repeat' first
    | assumption | exact Keeps.refl _ | (apply State.abandonClean_after; rotate_left; decide; decide) | (intro) | split
    | dsimp only

theorem State.acceptWrite_after {m' q' : Nat} {u' : State} {s : State} {id : Nat} {r : Record} {ns : Namespace} {f z n : Nat} (h' : Keeps m' q' u' s)
    (hm' : Nat.lor 0x178001800000000007e0c007f3d008000000000000000000000000000000000000000000000000000000000000000000000000000000000000000000010000000000000000000000000000000000000 m' = m') (hq' : Nat.lor 0x100e8c1 q' = q') : Keeps m' q' u' (s.acceptWrite id r ns f z n).2 := by
  refine Keeps.after ?_ hm' hq' h'
  clear hm' hq' h'
  unfold State.acceptWrite
  with_reducible repeat' first
    | assumption | exact Keeps.refl _ | (apply State.draw_after; rotate_left; decide; decide)
    | (apply State.implicitOpen_after; rotate_left; decide; decide)
    | (apply State.modRecord_after; rotate_left; decide; decide) | (apply State.setZone_after; rotate_left; decide; decide)
    | (apply State.touchZone_after; rotate_left; decide; decide) | apply Keeps.ite | apply Keeps.ite_fst
    | apply Keeps.ite_snd | (apply Keeps.of_eq_fst; assumption) | (apply Keeps.of_eq_snd; assumption) | (intro) | split
    | dsimp only

theorem State.reachWrite_after {m' q' : Nat} {u' : State} {s : State} {c : Cmd} {n : Nat} (h' : Keeps m' q' u' s)
    (hm' : Nat.lor 0x0 m' = m') (hq' : Nat.lor 0x2000 q' = q') : Keeps m' q' u' (s.reachWrite c n) := by
  refine Keeps.after ?_ hm' hq' h'
  clear hm' hq' h'
  unfold State.reachWrite
  with_reducible repeat' first
    | assumption | exact Keeps.refl _ | (apply State.reach_after; rotate_left; decide; decide) | apply Keeps.ite
    | apply Keeps.ite_fst | apply Keeps.ite_snd | apply Keeps.foldl | apply Keeps.foldl_snd | apply Keeps.foldl_fst
    | (apply Keeps.of_eq_fst; assumption) | (apply Keeps.of_eq_snd; assumption) | (intro) | split | dsimp only

theorem State.takeWrite_after {m' q' : Nat} {u' : State} {s : State} {c : Cmd} (h' : Keeps m' q' u' s)
    (hm' : Nat.lor 0x178001800000000007e0c007fff008000000000000000000000000000000000000000000000000000000000000000000000000000000000000000000010000000000000000000000000000000000000 m' = m') (hq' : Nat.lor 0x100e8c1 q' = q') : Keeps m' q' u' (s.takeWrite c) := by
  refine Keeps.after ?_ hm' hq' h'
  clear hm' hq' h'
  unfold State.takeWrite
  with_reducible repeat' first
    | assumption | exact Keeps.refl _ | (apply State.acceptWrite_after; rotate_left; decide; decide)
    | (apply State.finish_after; rotate_left; decide; decide) | (apply State.joinQueue_after; rotate_left; decide; decide)
    | (apply State.reachWrite_after; rotate_left; decide; decide) | (apply Keeps.of_eq_fst; assumption)
    | (apply Keeps.of_eq_snd; assumption) | (intro) | split | dsimp only

theorem State.nvmWrite_after {m' q' : Nat} {u' : State} {s : State} {f : Nat} (h' : Keeps m' q' u' s)
    (hm' : Nat.lor 0x178001800000000007e0c007fff008000000000000000000000000000000000000000000000000000000000000000000000000000000000000000000010000000000000000000000000000000000000 m' = m') (hq' : Nat.lor 0x100e8c1 q' = q') : Keeps m' q' u' (s.nvmWrite f) := by
  refine Keeps.after ?_ hm' hq' h'
  clear hm' hq' h'
  unfold State.nvmWrite
  with_reducible repeat' first
    | assumption | exact Keeps.refl _ | (apply State.takeWrite_after; rotate_left; decide; decide)
    | (apply State.take_after; rotate_left; decide; decide; rotate_left) | (apply Keeps.of_eq_fst; assumption)
    | (apply Keeps.of_eq_snd; assumption) | (intro) | split | dsimp only

theorem State.zoneAppend_after {m' q' : Nat} {u' : State} {s : State} {f : Nat} (h' : Keeps m' q' u' s)
    (hm' : Nat.lor 0x178001800000000007e0c007fff008000000000000000000000000000000000000000000000000000000000000000000000000000000000000000000010000000000000000000000000000000000000 m' = m') (hq' : Nat.lor 0x100e8c1 q' = q') : Keeps m' q' u' (s.zoneAppend f) := by
  refine Keeps.after ?_ hm' hq' h'
  clear hm' hq' h'
  unfold State.zoneAppend
  with_reducible repeat' first
    | assumption | exact Keeps.refl _ | (apply State.finish_after; rotate_left; decide; decide)
    | (apply State.modCmd_after; rotate_left; decide; decide) | (apply State.takeWrite_after; rotate_left; decide; decide)
    | (apply State.take_after; rotate_left; decide; decide; rotate_left) | (apply Keeps.of_eq_fst; assumption)
    | (apply Keeps.of_eq_snd; assumption) | (intro) | split | dsimp only

theorem State.takeRead_after {m' q' : Nat} {u' : State} {s : State} {c : Cmd} (h' : Keeps m' q' u' s)
    (hm' : Nat.lor 0x78001800000000000000000000018000000000000000000000000000000000000000000000000000000000000000000000000000000000000000000010000000000000000000000000000000000000 m' = m') (hq' : Nat.lor 0x6821 q' = q') : Keeps m' q' u' (s.takeRead c) := by
  refine Keeps.after ?_ hm' hq' h'
  clear hm' hq' h'
  unfold State.takeRead
  with_reducible repeat' first
    | assumption | exact Keeps.refl _ | (apply State.startReads_after; rotate_left; decide; decide) | (intro) | split
    | dsimp only

theorem State.nvmRead_after {m' q' : Nat} {u' : State} {s : State} {f : Nat} (h' : Keeps m' q' u' s)
    (hm' : Nat.lor 0x78001800000000000000000000018000000000000000000000000000000000000000000000000000000000000000000000000000000000000000000010000000000000000000000000000000000000 m' = m') (hq' : Nat.lor 0x6821 q' = q') : Keeps m' q' u' (s.nvmRead f) := by
  refine Keeps.after ?_ hm' hq' h'
  clear hm' hq' h'
  unfold State.nvmRead
  with_reducible repeat' first
    | assumption | exact Keeps.refl _ | (apply State.takeRead_after; rotate_left; decide; decide)
    | (apply State.take_after; rotate_left; decide; decide; rotate_left) | (apply Keeps.of_eq_fst; assumption)
    | (apply Keeps.of_eq_snd; assumption) | (intro) | split | dsimp only

theorem State.nvmCompare_after {m' q' : Nat} {u' : State} {s : State} {f : Nat} (h' : Keeps m' q' u' s)
    (hm' : Nat.lor 0x78001800000000000000000000018000000000000000000000000000000000000000000000000000000000000000000000000000000000000000000010000000000000000000000000000000000000 m' = m') (hq' : Nat.lor 0x6821 q' = q') : Keeps m' q' u' (s.nvmCompare f) := by
  refine Keeps.after ?_ hm' hq' h'
  clear hm' hq' h'
  unfold State.nvmCompare
  with_reducible repeat' first
    | assumption | exact Keeps.refl _ | (apply State.takeRead_after; rotate_left; decide; decide)
    | (apply State.take_after; rotate_left; decide; decide; rotate_left) | (apply Keeps.of_eq_fst; assumption)
    | (apply Keeps.of_eq_snd; assumption) | (intro) | split | dsimp only

theorem State.nvmVerify_after {m' q' : Nat} {u' : State} {s : State} {f : Nat} (h' : Keeps m' q' u' s)
    (hm' : Nat.lor 0x78001800000000000000000000018000000000000000000000000000000000000000000000000000000000000000000000000000000000000000000010000000000000000000000000000000000000 m' = m') (hq' : Nat.lor 0x6821 q' = q') : Keeps m' q' u' (s.nvmVerify f) := by
  refine Keeps.after ?_ hm' hq' h'
  clear hm' hq' h'
  unfold State.nvmVerify
  with_reducible repeat' first
    | assumption | exact Keeps.refl _ | (apply State.takeRead_after; rotate_left; decide; decide)
    | (apply State.take_after; rotate_left; decide; decide; rotate_left) | (apply Keeps.of_eq_fst; assumption)
    | (apply Keeps.of_eq_snd; assumption) | (intro) | split | dsimp only

theorem State.nvmFlush_after {m' q' : Nat} {u' : State} {s : State} {f : Nat} (h' : Keeps m' q' u' s)
    (hm' : Nat.lor 0x0 m' = m') (hq' : Nat.lor 0x12000 q' = q') : Keeps m' q' u' (s.nvmFlush f) := by
  refine Keeps.after ?_ hm' hq' h'
  clear hm' hq' h'
  unfold State.nvmFlush
  with_reducible repeat' first
    | assumption | exact Keeps.refl _ | (apply State.forceTails_after; rotate_left; decide; decide)
    | (apply State.modCmd_after; rotate_left; decide; decide) | (apply State.settleWaits_after; rotate_left; decide; decide)
    | apply Keeps.ite | apply Keeps.ite_fst | apply Keeps.ite_snd | (apply Keeps.of_eq_fst; assumption)
    | (apply Keeps.of_eq_snd; assumption) | (intro) | split | dsimp only

theorem State.unmap_after {m' q' : Nat} {u' : State} {s : State} {nsid f : Nat} {lbas : List Nat} (h' : Keeps m' q' u' s)
    (hm' : Nat.lor 0x7ff9003000000000000000000000000000000000000000000000000000000000000000000000000000000000000000000000000000000000000000000000000000000000 m' = m') (hq' : Nat.lor 0x6000 q' = q') : Keeps m' q' u' (s.unmap nsid f lbas) := by
  refine Keeps.after ?_ hm' hq' h'
  clear hm' hq' h'
  unfold State.unmap
  with_reducible repeat' first
    | assumption | exact Keeps.refl _ | (apply State.dropVersions_after; rotate_left; decide; decide)
    | (apply State.killBlocks_after; rotate_left; decide; decide)
    | (apply State.modBridge_after; rotate_left; decide; decide) | (apply State.modNs_after; rotate_left; decide; decide)
    | (apply State.settleWaits_after; rotate_left; decide; decide) | apply Keeps.ite | apply Keeps.ite_fst
    | apply Keeps.ite_snd | apply Keeps.foldl | apply Keeps.foldl_snd | apply Keeps.foldl_fst | (intro) | split | dsimp only

theorem State.writeZeroes_after {m' q' : Nat} {u' : State} {s : State} {f : Nat} (h' : Keeps m' q' u' s)
    (hm' : Nat.lor 0x178001800000000007e0c007fff00b000000000000000000000000000000000000000000000000000000000000000000000000000000000000000000010000000000000000000000000000000000000 m' = m') (hq' : Nat.lor 0x100e8c1 q' = q') : Keeps m' q' u' (s.writeZeroes f) := by
  refine Keeps.after ?_ hm' hq' h'
  clear hm' hq' h'
  unfold State.writeZeroes
  with_reducible repeat' first
    | assumption | exact Keeps.refl _ | (apply State.finish_after; rotate_left; decide; decide)
    | (apply State.takeWrite_after; rotate_left; decide; decide) | (apply State.unmap_after; rotate_left; decide; decide)
    | (apply State.take_after; rotate_left; decide; decide; rotate_left) | apply Keeps.ite | apply Keeps.ite_fst
    | apply Keeps.ite_snd | (apply Keeps.of_eq_fst; assumption) | (apply Keeps.of_eq_snd; assumption) | (intro) | split
    | dsimp only

theorem State.datasetManagement_after {m' q' : Nat} {u' : State} {s : State} {f : Nat} (h' : Keeps m' q' u' s)
    (hm' : Nat.lor 0x7ff9003000000000000000000000000000000000000000000000000000000000000000000000000000000000000000000000000000000000000000000000000000000000 m' = m') (hq' : Nat.lor 0x6000 q' = q') : Keeps m' q' u' (s.datasetManagement f) := by
  refine Keeps.after ?_ hm' hq' h'
  clear hm' hq' h'
  unfold State.datasetManagement
  with_reducible repeat' first
    | assumption | exact Keeps.refl _ | (apply State.finish_after; rotate_left; decide; decide)
    | (apply State.unmap_after; rotate_left; decide; decide)
    | (apply State.take_after; rotate_left; decide; decide; rotate_left) | apply Keeps.when
    | (apply Keeps.of_eq_fst; assumption) | (apply Keeps.of_eq_snd; assumption) | (intro) | split | dsimp only

theorem State.openZone_after {m' q' : Nat} {u' : State} {s : State} {id : Nat} {r : Record} (h' : Keeps m' q' u' s)
    (hm' : Nat.lor 0x178001800000000000000007f3d008000000000000000000000000000000000000000000000000000000000000000000000000000000000000000000010000000000000000000000000000000000000 m' = m') (hq' : Nat.lor 0x6801 q' = q') : Keeps m' q' u' (s.openZone id r).2 := by
  refine Keeps.after ?_ hm' hq' h'
  clear hm' hq' h'
  unfold State.openZone
  with_reducible repeat' first
    | assumption | exact Keeps.refl _ | (apply State.setZone_after; rotate_left; decide; decide)
    | (apply State.touchZone_after; rotate_left; decide; decide) | apply Keeps.ite | apply Keeps.ite_fst
    | apply Keeps.ite_snd | (apply Keeps.of_eq_fst; assumption) | (apply Keeps.of_eq_snd; assumption) | (intro) | split
    | dsimp only

theorem State.closeOne_after {m' q' : Nat} {u' : State} {s : State} {id : Nat} {r : Record} (h' : Keeps m' q' u' s)
    (hm' : Nat.lor 0x7f3d000000000000000000000000000000000000000000000000000000000000000000000000000000000000000000000000000000000000000000000000000000000000 m' = m') (hq' : Nat.lor 0x6000 q' = q') : Keeps m' q' u' (s.closeOne id r).2 := by
  refine Keeps.after ?_ hm' hq' h'
  clear hm' hq' h'
  unfold State.closeOne
  with_reducible repeat' first
    | assumption | exact Keeps.refl _ | (apply State.closeZone_after; rotate_left; decide; decide)
    | (apply Keeps.of_eq_fst; assumption) | (apply Keeps.of_eq_snd; assumption) | (intro) | split | dsimp only

theorem State.finishZone_after {m' q' : Nat} {u' : State} {s : State} {id : Nat} {r : Record} (h' : Keeps m' q' u' s)
    (hm' : Nat.lor 0x178001800000000000000007f3d008000000000000000000000000000000000000000000000000000000000000000000000000000000000000000000010000000000000000000000000000000000000 m' = m') (hq' : Nat.lor 0x6801 q' = q') : Keeps m' q' u' (s.finishZone id r).2 := by
  refine Keeps.after ?_ hm' hq' h'
  clear hm' hq' h'
  unfold State.finishZone
  with_reducible repeat' first
    | assumption | exact Keeps.refl _ | (apply State.postFinish_after; rotate_left; decide; decide)
    | (apply State.setZone_after; rotate_left; decide; decide) | (apply State.touchZone_after; rotate_left; decide; decide)
    | apply Keeps.ite | apply Keeps.ite_fst | apply Keeps.ite_snd | (apply Keeps.of_eq_fst; assumption)
    | (apply Keeps.of_eq_snd; assumption) | (intro) | split | dsimp only

theorem State.resetZone_after {m' q' : Nat} {u' : State} {s : State} {id : Nat} {r : Record} (h' : Keeps m' q' u' s)
    (hm' : Nat.lor 0x400000000000178001800000000000000007ffd00b000000000000000000000000000020000000000000000000000000000000000000000000000000000000000000010000000000000000000000000000000000000 m' = m') (hq' : Nat.lor 0x6821 q' = q') : Keeps m' q' u' (s.resetZone id r).2 := by
  refine Keeps.after ?_ hm' hq' h'
  clear hm' hq' h'
  unfold State.resetZone
  with_reducible repeat' first
    | assumption | exact Keeps.refl _ | (apply State.abandonClean_after; rotate_left; decide; decide)
    | (apply State.accRefresh_after; rotate_left; decide; decide) | (apply State.drawn_after; rotate_left; decide; decide)
    | (apply State.dropVersions_after; rotate_left; decide; decide)
    | (apply State.journal_after; rotate_left; decide; decide) | (apply State.modBridge_after; rotate_left; decide; decide)
    | (apply State.modHost_after; rotate_left; decide; decide) | (apply State.modWrp_after; rotate_left; decide; decide)
    | (apply State.rewriteBand_after; rotate_left; decide; decide)
    | (apply State.setZone_after; rotate_left; decide; decide)
    | (apply State.settleWaits_after; rotate_left; decide; decide) | (apply State.unmark_after; rotate_left; decide; decide)
    | (apply State.withdrawWrites_after; rotate_left; decide; decide) | apply Keeps.ite | apply Keeps.ite_fst
    | apply Keeps.ite_snd | apply Keeps.foldl | apply Keeps.foldl_snd | apply Keeps.foldl_fst
    | (apply Keeps.of_eq_fst; assumption) | (apply Keeps.of_eq_snd; assumption) | (intro) | split | dsimp only

theorem State.offlineZone_after {m' q' : Nat} {u' : State} {s : State} {id : Nat} {r : Record} (h' : Keeps m' q' u' s)
    (hm' : Nat.lor 0x7f3d000000000000000000000000000000000000000000000000000000000000000000000000000000000000000000000000000000000000000000000000000000000000 m' = m') (hq' : Nat.lor 0x6000 q' = q') : Keeps m' q' u' (s.offlineZone id r).2 := by
  refine Keeps.after ?_ hm' hq' h'
  clear hm' hq' h'
  unfold State.offlineZone
  with_reducible repeat' first
    | assumption | exact Keeps.refl _ | (apply State.modHost_after; rotate_left; decide; decide)
    | (apply State.setZone_after; rotate_left; decide; decide) | (apply Keeps.of_eq_fst; assumption)
    | (apply Keeps.of_eq_snd; assumption) | (intro) | split | dsimp only

theorem State.zoneAct_after {m' q' : Nat} {u' : State} {s : State} {action id : Nat} (h' : Keeps m' q' u' s)
    (hm' : Nat.lor 0x400000000000178001800000000000000007ffd00b000000000000000000000000000020000000000000000000000000000000000000000000000000000000000000010000000000000000000000000000000000000 m' = m') (hq' : Nat.lor 0x6821 q' = q') : Keeps m' q' u' (s.zoneAct action id).2 := by
  refine Keeps.after ?_ hm' hq' h'
  clear hm' hq' h'
  unfold State.zoneAct
  with_reducible repeat' first
    | assumption | exact Keeps.refl _ | (apply State.closeOne_after; rotate_left; decide; decide)
    | (apply State.finishZone_after; rotate_left; decide; decide)
    | (apply State.offlineZone_after; rotate_left; decide; decide)
    | (apply State.openZone_after; rotate_left; decide; decide) | (apply State.resetZone_after; rotate_left; decide; decide)
    | apply Keeps.ite | apply Keeps.ite_fst | apply Keeps.ite_snd | (apply Keeps.of_eq_fst; assumption)
    | (apply Keeps.of_eq_snd; assumption) | (intro) | split | dsimp only

theorem State.zoneSend_after {m' q' : Nat} {u' : State} {s : State} {f action : Nat} (h' : Keeps m' q' u' s)
    (hm' : Nat.lor 0x400000000000178001800000000000000007ffd00b000000000000000000000000000020000000000000000000000000000000000000000000000000000000000000010000000000000000000000000000000000000 m' = m') (hq' : Nat.lor 0x6821 q' = q') : Keeps m' q' u' (s.zoneSend f action) := by
  refine Keeps.after ?_ hm' hq' h'
  clear hm' hq' h'
  unfold State.zoneSend
  with_reducible repeat' first
    | assumption | exact Keeps.refl _ | (apply State.finish_after; rotate_left; decide; decide)
    | (apply State.modCmd_after; rotate_left; decide; decide) | (apply State.zoneAct_after; rotate_left; decide; decide)
    | (apply State.take_after; rotate_left; decide; decide; rotate_left) | apply Keeps.ite | apply Keeps.ite_fst
    | apply Keeps.ite_snd | apply Keeps.foldl | apply Keeps.foldl_snd | apply Keeps.foldl_fst
    | (apply Keeps.of_eq_fst; assumption) | (apply Keeps.of_eq_snd; assumption) | (intro) | split | dsimp only

theorem State.reportZones_after {m' q' : Nat} {u' : State} {s : State} {f : Nat} (h' : Keeps m' q' u' s)
    (hm' : Nat.lor 0x0 m' = m') (hq' : Nat.lor 0x1002000 q' = q') : Keeps m' q' u' (s.reportZones f) := by
  refine Keeps.after ?_ hm' hq' h'
  clear hm' hq' h'
  unfold State.reportZones
  with_reducible repeat' first
    | assumption | exact Keeps.refl _ | (apply State.emit_after; rotate_left; decide; decide)
    | (apply State.finish_after; rotate_left; decide; decide)
    | (apply State.take_after; rotate_left; decide; decide; rotate_left) | apply Keeps.foldl | apply Keeps.foldl_snd
    | apply Keeps.foldl_fst | (apply Keeps.of_eq_fst; assumption) | (apply Keeps.of_eq_snd; assumption) | (intro) | split
    | dsimp only

theorem State.advanceWp_after {m' q' : Nat} {u' : State} {s : State} {c : Cmd} (h' : Keeps m' q' u' s)
    (hm' : Nat.lor 0x7f3d000000000000000000000000000000000000000000000000000000000000000000000000000000000000000000000000000000000000000000000000000000000000 m' = m') (hq' : Nat.lor 0x6000 q' = q') : Keeps m' q' u' (s.advanceWp c) := by
  refine Keeps.after ?_ hm' hq' h'
  clear hm' hq' h'
  unfold State.advanceWp
  with_reducible repeat' first
    | assumption | exact Keeps.refl _ | (apply State.setZone_after; rotate_left; decide; decide) | apply Keeps.ite
    | apply Keeps.ite_fst | apply Keeps.ite_snd | (apply Keeps.of_eq_fst; assumption) | (apply Keeps.of_eq_snd; assumption)
    | (intro) | split | dsimp only

theorem State.releaseCmd_after {m' q' : Nat} {u' : State} {s : State} {c : Cmd} (h' : Keeps m' q' u' s)
    (hm' : Nat.lor 0x7ff9013000000000000000000000000000000000000000000000000000000000000000000000000000000000000000000000000000000000000000000000000000000000 m' = m') (hq' : Nat.lor 0x6000 q' = q') : Keeps m' q' u' (s.releaseCmd c) := by
  refine Keeps.after ?_ hm' hq' h'
  clear hm' hq' h'
  unfold State.releaseCmd
  with_reducible repeat' first
    | assumption | exact Keeps.refl _ | (apply State.givePage_after; rotate_left; decide; decide)
    | (apply State.unpin_after; rotate_left; decide; decide) | (apply State.unspill_after; rotate_left; decide; decide)
    | apply Keeps.foldl | apply Keeps.foldl_snd | apply Keeps.foldl_fst | (intro) | split | dsimp only

theorem State.completionCommit_after {m' q' : Nat} {u' : State} {s : State} {f : Nat} (h' : Keeps m' q' u' s)
    (hm' : Nat.lor 0x18000000000000000000000000000000000000000007ffd013000060400000300100000000000000000000000000000000000000000000000000000000000000000000000000000000000000000000000000000000000000000 m' = m') (hq' : Nat.lor 0x10c60c0 q' = q') : Keeps m' q' u' (s.completionCommit f) := by
  refine Keeps.after ?_ hm' hq' h'
  clear hm' hq' h'
  unfold State.completionCommit
  with_reducible repeat' first
    | assumption | exact Keeps.refl _ | (apply State.advanceWp_after; rotate_left; decide; decide)
    | (apply State.countReport_after; rotate_left; decide; decide) | (apply State.emit_after; rotate_left; decide; decide)
    | (apply State.modHost_after; rotate_left; decide; decide) | (apply State.outRefresh_after; rotate_left; decide; decide)
    | (apply State.refreshMode_after; rotate_left; decide; decide)
    | (apply State.releaseCmd_after; rotate_left; decide; decide)
    | (apply State.settleWaits_after; rotate_left; decide; decide) | apply Keeps.when | apply Keeps.ite
    | apply Keeps.ite_fst | apply Keeps.ite_snd | (apply Keeps.of_eq_fst; assumption) | (apply Keeps.of_eq_snd; assumption)
    | (intro) | split | dsimp only

/-! ### Admin -/

theorem State.admin_after {m' q' : Nat} {u' : State} {s : State} {f : Nat} {g : State → Cmd → State} (k' : Keeps m' q' u' s)
    (hm' : Nat.lor 0x0 m' = m') (hq' : Nat.lor 0x2000 q' = q') (h : ∀ s c, Keeps m' q' u' s → Keeps m' q' u' (g s c)) :
    Keeps m' q' u' (s.admin f g) := by
  unfold State.admin
  with_reducible repeat' first
    | assumption | exact Keeps.refl _
    | (apply State.modCmd_after; rotate_left; (first | exact bit_of hm' (by decide) | exact bit_of hq' (by decide) | exact lor_of hm' (by decide) | exact lor_of hq' (by decide)); (first | exact bit_of hm' (by decide) | exact bit_of hq' (by decide) | exact lor_of hm' (by decide) | exact lor_of hq' (by decide)))
    | apply Keeps.ite | apply Keeps.ite_fst | apply Keeps.ite_snd | (apply Keeps.of_eq_fst; assumption)
    | (apply Keeps.of_eq_snd; assumption) | apply h | (intro) | split | dsimp only

theorem State.stopRead_after {m' q' : Nat} {u' : State} {s : State} {f : Nat} {st : NvStatus} (h' : Keeps m' q' u' s)
    (hm' : Nat.lor 0x7000000000000000000000000000000000000000000000000000000000000000000000000000000000000000000000000000000000000000000000000000000000000000000000000000 m' = m') (hq' : Nat.lor 0x16800 q' = q') : Keeps m' q' u' (s.stopRead f st) := by
  refine Keeps.after ?_ hm' hq' h'
  clear hm' hq' h'
  unfold State.stopRead
  with_reducible repeat' first
    | assumption | exact Keeps.refl _ | (apply State.detachOf_after; rotate_left; decide; decide)
    | (apply State.finish_after; rotate_left; decide; decide) | (apply State.phvSweep_after; rotate_left; decide; decide)
    | apply Keeps.foldl | apply Keeps.foldl_snd | apply Keeps.foldl_fst | (intro) | split | dsimp only

theorem State.abortCmd_after {m' q' : Nat} {u' : State} {s : State} {f : Nat} {st : NvStatus} (h' : Keeps m' q' u' s)
    (hm' : Nat.lor 0x78001800007000000000007ff901b000000000000000000000000000000000000000000000000000000000000000000000000000000000000000000010000000000000000000000000000000000000 m' = m') (hq' : Nat.lor 0x16821 q' = q') : Keeps m' q' u' (s.abortCmd f st).2 := by
  refine Keeps.after ?_ hm' hq' h'
  clear hm' hq' h'
  unfold State.abortCmd
  with_reducible repeat' first
    | assumption | exact Keeps.refl _ | (apply State.failWrite_after; rotate_left; decide; decide)
    | (apply State.finish_after; rotate_left; decide; decide) | (apply State.stopRead_after; rotate_left; decide; decide)
    | apply Keeps.ite | apply Keeps.ite_fst | apply Keeps.ite_snd | (apply Keeps.of_eq_fst; assumption)
    | (apply Keeps.of_eq_snd; assumption) | (intro) | split | dsimp only

theorem State.nvmeAbort_after {m' q' : Nat} {u' : State} {s : State} {f : Nat} (h' : Keeps m' q' u' s)
    (hm' : Nat.lor 0x78001800007000000000007ff901b000000000000000000000000000000000000000000000000000000000000000000000000000000000000000000010000000000000000000000000000000000000 m' = m') (hq' : Nat.lor 0x16821 q' = q') : Keeps m' q' u' (s.nvmeAbort f) := by
  refine Keeps.after ?_ hm' hq' h'
  clear hm' hq' h'
  unfold State.nvmeAbort
  with_reducible repeat' first
    | assumption | exact Keeps.refl _ | (apply State.abortCmd_after; rotate_left; decide; decide)
    | (apply State.finish_after; rotate_left; decide; decide) | (apply State.modCmd_after; rotate_left; decide; decide)
    | (apply State.admin_after; rotate_left; decide; decide; rotate_left) | apply Keeps.ite | apply Keeps.ite_fst
    | apply Keeps.ite_snd | (apply Keeps.of_eq_fst; assumption) | (apply Keeps.of_eq_snd; assumption) | (intro) | split
    | dsimp only

theorem State.setResv_after {m' q' : Nat} {u' : State} {s : State} {nsid : Nat} {f : Reservation → Reservation} (h' : Keeps m' q' u' s)
    (hm' : Nat.lor 0x7f3d000000000000000000000000000000000000000000000000000000000000000000000000000000000000000000000000000000000000000000000000000000000000 m' = m') (hq' : Nat.lor 0x6000 q' = q') : Keeps m' q' u' (s.setResv nsid f) := by
  refine Keeps.after ?_ hm' hq' h'
  clear hm' hq' h'
  unfold State.setResv
  with_reducible repeat' first
    | assumption | exact Keeps.refl _ | (apply State.journal_after; rotate_left; decide; decide)
    | (apply State.modNs_after; rotate_left; decide; decide) | (intro) | split | dsimp only

theorem State.notifyHosts_after {m' q' : Nat} {u' : State} {s : State} {hosts : List Nat} {maskBit : Nat} (h' : Keeps m' q' u' s)
    (hm' : Nat.lor 0x0 m' = m') (hq' : Nat.lor 0x2000 q' = q') : Keeps m' q' u' (s.notifyHosts hosts maskBit) := by
  refine Keeps.after ?_ hm' hq' h'
  clear hm' hq' h'
  unfold State.notifyHosts
  with_reducible repeat' first
    | assumption | exact Keeps.refl _ | (apply State.hostEvent_after; rotate_left; decide; decide) | apply Keeps.when
    | apply Keeps.foldl | apply Keeps.foldl_snd | apply Keeps.foldl_fst | (intro) | split | dsimp only

theorem State.resvRegister_after {m' q' : Nat} {u' : State} {s : State} {f : Nat} (h' : Keeps m' q' u' s)
    (hm' : Nat.lor 0x7f3d000000000000000000000000000000000000000000000000000000000000000000000000000000000000000000000000000000000000000000000000000000000000 m' = m') (hq' : Nat.lor 0x6000 q' = q') : Keeps m' q' u' (s.resvRegister f) := by
  refine Keeps.after ?_ hm' hq' h'
  clear hm' hq' h'
  unfold State.resvRegister
  with_reducible repeat' first
    | assumption | exact Keeps.refl _ | (apply State.finish_after; rotate_left; decide; decide)
    | (apply State.setResv_after; rotate_left; decide; decide)
    | (apply State.admin_after; rotate_left; decide; decide; rotate_left) | apply Keeps.ite | apply Keeps.ite_fst
    | apply Keeps.ite_snd | (apply Keeps.of_eq_fst; assumption) | (apply Keeps.of_eq_snd; assumption) | (intro) | split
    | dsimp only

theorem State.resvAcquire_after {m' q' : Nat} {u' : State} {s : State} {f : Nat} (h' : Keeps m' q' u' s)
    (hm' : Nat.lor 0x78001800007000000000007ffd01b000000000000000000000000000000000000000000000000000000000000000000000000000000000000000000010000000000000000000000000000000000000 m' = m') (hq' : Nat.lor 0x16821 q' = q') : Keeps m' q' u' (s.resvAcquire f) := by
  refine Keeps.after ?_ hm' hq' h'
  clear hm' hq' h'
  unfold State.resvAcquire
  with_reducible repeat' first
    | assumption | exact Keeps.refl _ | (apply State.abortCmd_after; rotate_left; decide; decide)
    | (apply State.finish_after; rotate_left; decide; decide) | (apply State.notifyHosts_after; rotate_left; decide; decide)
    | (apply State.setResv_after; rotate_left; decide; decide)
    | (apply State.admin_after; rotate_left; decide; decide; rotate_left) | apply Keeps.ite | apply Keeps.ite_fst
    | apply Keeps.ite_snd | apply Keeps.foldl | apply Keeps.foldl_snd | apply Keeps.foldl_fst
    | (apply Keeps.of_eq_fst; assumption) | (apply Keeps.of_eq_snd; assumption) | (intro) | split | dsimp only

theorem State.resvRelease_after {m' q' : Nat} {u' : State} {s : State} {f : Nat} (h' : Keeps m' q' u' s)
    (hm' : Nat.lor 0x7f3d000000000000000000000000000000000000000000000000000000000000000000000000000000000000000000000000000000000000000000000000000000000000 m' = m') (hq' : Nat.lor 0x6000 q' = q') : Keeps m' q' u' (s.resvRelease f) := by
  refine Keeps.after ?_ hm' hq' h'
  clear hm' hq' h'
  unfold State.resvRelease
  with_reducible repeat' first
    | assumption | exact Keeps.refl _ | (apply State.finish_after; rotate_left; decide; decide)
    | (apply State.notifyHosts_after; rotate_left; decide; decide)
    | (apply State.setResv_after; rotate_left; decide; decide)
    | (apply State.admin_after; rotate_left; decide; decide; rotate_left) | apply Keeps.ite | apply Keeps.ite_fst
    | apply Keeps.ite_snd | (apply Keeps.of_eq_fst; assumption) | (apply Keeps.of_eq_snd; assumption) | (intro) | split
    | dsimp only

theorem State.resvReport_after {m' q' : Nat} {u' : State} {s : State} {f : Nat} (h' : Keeps m' q' u' s)
    (hm' : Nat.lor 0x0 m' = m') (hq' : Nat.lor 0x1002000 q' = q') : Keeps m' q' u' (s.resvReport f) := by
  refine Keeps.after ?_ hm' hq' h'
  clear hm' hq' h'
  unfold State.resvReport
  with_reducible repeat' first
    | assumption | exact Keeps.refl _ | (apply State.emit_after; rotate_left; decide; decide)
    | (apply State.finish_after; rotate_left; decide; decide)
    | (apply State.admin_after; rotate_left; decide; decide; rotate_left) | apply Keeps.foldl | apply Keeps.foldl_snd
    | apply Keeps.foldl_fst | (apply Keeps.of_eq_fst; assumption) | (apply Keeps.of_eq_snd; assumption) | (intro) | split
    | dsimp only

theorem State.ioqRefresh_after {m' q' : Nat} {u' : State} {s : State} {k : Nat} (h' : Keeps m' q' u' s)
    (hm' : Nat.lor 0x80000000000000000000000000000000000000000000000000000000000000000000000000000000000000000000000000000000000000000 m' = m') (hq' : Nat.lor 0x0 q' = q') : Keeps m' q' u' (s.ioqRefresh k) := by
  refine Keeps.after ?_ hm' hq' h'
  clear hm' hq' h'
  unfold State.ioqRefresh
  with_reducible repeat' first
    | assumption | exact Keeps.refl _ | (apply Keeps.wr; rotate_left; decide) | (intro) | split | dsimp only

theorem State.createSq_after {m' q' : Nat} {u' : State} {s : State} {f : Nat} (h' : Keeps m' q' u' s)
    (hm' : Nat.lor 0x80000000000000000000000000000000000000000000000000000000000000000000000000000000000000000000000000000000000000000 m' = m') (hq' : Nat.lor 0x2000 q' = q') : Keeps m' q' u' (s.createSq f) := by
  refine Keeps.after ?_ hm' hq' h'
  clear hm' hq' h'
  unfold State.createSq
  with_reducible repeat' first
    | assumption | exact Keeps.refl _ | (apply State.finish_after; rotate_left; decide; decide)
    | (apply State.ioqRefresh_after; rotate_left; decide; decide)
    | (apply State.modController_after; rotate_left; decide; decide)
    | (apply State.admin_after; rotate_left; decide; decide; rotate_left) | apply Keeps.ite | apply Keeps.ite_fst
    | apply Keeps.ite_snd | (apply Keeps.of_eq_fst; assumption) | (apply Keeps.of_eq_snd; assumption) | (intro) | split
    | dsimp only

theorem State.createCq_after {m' q' : Nat} {u' : State} {s : State} {f : Nat} (h' : Keeps m' q' u' s)
    (hm' : Nat.lor 0x0 m' = m') (hq' : Nat.lor 0x2000 q' = q') : Keeps m' q' u' (s.createCq f) := by
  refine Keeps.after ?_ hm' hq' h'
  clear hm' hq' h'
  unfold State.createCq
  with_reducible repeat' first
    | assumption | exact Keeps.refl _ | (apply State.finish_after; rotate_left; decide; decide)
    | (apply State.modController_after; rotate_left; decide; decide)
    | (apply State.admin_after; rotate_left; decide; decide; rotate_left) | apply Keeps.ite | apply Keeps.ite_fst
    | apply Keeps.ite_snd | (apply Keeps.of_eq_fst; assumption) | (apply Keeps.of_eq_snd; assumption) | (intro) | split
    | dsimp only

theorem State.deleteCmd_after {m' q' : Nat} {u' : State} {s : State} {f : Nat} (h' : Keeps m' q' u' s)
    (hm' : Nat.lor 0x78001800007000000000007ff901b000000000000000000000000000000000000000000000000000000000000000000000000000000000000000000010000000000000000000000000000000000000 m' = m') (hq' : Nat.lor 0x16821 q' = q') : Keeps m' q' u' (s.deleteCmd f) := by
  refine Keeps.after ?_ hm' hq' h'
  clear hm' hq' h'
  unfold State.deleteCmd
  with_reducible repeat' first
    | assumption | exact Keeps.refl _ | (apply State.failWrite_after; rotate_left; decide; decide)
    | (apply State.finish_after; rotate_left; decide; decide) | (apply State.stopRead_after; rotate_left; decide; decide)
    | apply Keeps.ite | apply Keeps.ite_fst | apply Keeps.ite_snd | (apply Keeps.of_eq_fst; assumption)
    | (apply Keeps.of_eq_snd; assumption) | (intro) | split | dsimp only

theorem State.deleteSq_after {m' q' : Nat} {u' : State} {s : State} {f : Nat} (h' : Keeps m' q' u' s)
    (hm' : Nat.lor 0x18000000000000000000078001800007000000000007ff901f00000f080000004080000000000000000000000000000000000000000000000000000000000000000000000000010000000000000000000000000000000000000 m' = m') (hq' : Nat.lor 0x10d6821 q' = q') : Keeps m' q' u' (s.deleteSq f) := by
  refine Keeps.after ?_ hm' hq' h'
  clear hm' hq' h'
  unfold State.deleteSq
  with_reducible repeat' first
    | assumption | exact Keeps.refl _ | (apply State.deleteCmd_after; rotate_left; decide; decide)
    | (apply State.finish_after; rotate_left; decide; decide) | (apply State.ioqRefresh_after; rotate_left; decide; decide)
    | (apply State.modController_after; rotate_left; decide; decide)
    | (apply State.releaseStream_after; rotate_left; decide; decide)
    | (apply State.admin_after; rotate_left; decide; decide; rotate_left) | apply Keeps.ite | apply Keeps.ite_fst
    | apply Keeps.ite_snd | apply Keeps.foldl | apply Keeps.foldl_snd | apply Keeps.foldl_fst
    | (apply Keeps.of_eq_fst; assumption) | (apply Keeps.of_eq_snd; assumption) | (intro) | split | dsimp only

theorem State.deleteCq_after {m' q' : Nat} {u' : State} {s : State} {f : Nat} (h' : Keeps m' q' u' s)
    (hm' : Nat.lor 0x0 m' = m') (hq' : Nat.lor 0x2000 q' = q') : Keeps m' q' u' (s.deleteCq f) := by
  refine Keeps.after ?_ hm' hq' h'
  clear hm' hq' h'
  unfold State.deleteCq
  with_reducible repeat' first
    | assumption | exact Keeps.refl _ | (apply State.finish_after; rotate_left; decide; decide)
    | (apply State.modController_after; rotate_left; decide; decide)
    | (apply State.admin_after; rotate_left; decide; decide; rotate_left) | apply Keeps.ite | apply Keeps.ite_fst
    | apply Keeps.ite_snd | (apply Keeps.of_eq_fst; assumption) | (apply Keeps.of_eq_snd; assumption) | (intro) | split
    | dsimp only

theorem State.setFeatures_after {m' q' : Nat} {u' : State} {s : State} {f : Nat} (h' : Keeps m' q' u' s)
    (hm' : Nat.lor 0x0 m' = m') (hq' : Nat.lor 0x2000 q' = q') : Keeps m' q' u' (s.setFeatures f) := by
  refine Keeps.after ?_ hm' hq' h'
  clear hm' hq' h'
  unfold State.setFeatures
  with_reducible repeat' first
    | assumption | exact Keeps.refl _ | (apply State.finish_after; rotate_left; decide; decide)
    | (apply State.modController_after; rotate_left; decide; decide)
    | (apply State.modHost_after; rotate_left; decide; decide)
    | (apply State.admin_after; rotate_left; decide; decide; rotate_left) | apply Keeps.ite | apply Keeps.ite_fst
    | apply Keeps.ite_snd | (apply Keeps.of_eq_fst; assumption) | (apply Keeps.of_eq_snd; assumption) | (intro) | split
    | dsimp only

theorem State.getFeatures_after {m' q' : Nat} {u' : State} {s : State} {f : Nat} (h' : Keeps m' q' u' s)
    (hm' : Nat.lor 0x0 m' = m') (hq' : Nat.lor 0x2000 q' = q') : Keeps m' q' u' (s.getFeatures f) := by
  refine Keeps.after ?_ hm' hq' h'
  clear hm' hq' h'
  unfold State.getFeatures
  with_reducible repeat' first
    | assumption | exact Keeps.refl _ | (apply State.finish_after; rotate_left; decide; decide)
    | (apply State.admin_after; rotate_left; decide; decide; rotate_left) | apply Keeps.ite | apply Keeps.ite_fst
    | apply Keeps.ite_snd | (apply Keeps.of_eq_fst; assumption) | (apply Keeps.of_eq_snd; assumption) | (intro) | split
    | dsimp only

theorem State.setTelemetry_after {m' q' : Nat} {u' : State} {s : State} {f : Nat} (h' : Keeps m' q' u' s)
    (hm' : Nat.lor 0x0 m' = m') (hq' : Nat.lor 0x2000 q' = q') : Keeps m' q' u' (s.setTelemetry f) := by
  refine Keeps.after ?_ hm' hq' h'
  clear hm' hq' h'
  unfold State.setTelemetry
  with_reducible repeat' first
    | assumption | exact Keeps.refl _ | (apply State.finish_after; rotate_left; decide; decide)
    | (apply State.modHost_after; rotate_left; decide; decide)
    | (apply State.admin_after; rotate_left; decide; decide; rotate_left) | apply Keeps.ite | apply Keeps.ite_fst
    | apply Keeps.ite_snd | (apply Keeps.of_eq_fst; assumption) | (apply Keeps.of_eq_snd; assumption) | (intro) | split
    | dsimp only

theorem State.streamRefused_after {m' q' : Nat} {u' : State} {s : State} {f cause short : Nat} (h' : Keeps m' q' u' s)
    (hm' : Nat.lor 0x100800000000000000000000000000000000000000000000000000000000000000000000000000000000000000000000000000000000000000000000000000 m' = m') (hq' : Nat.lor 0x2000 q' = q') : Keeps m' q' u' (s.streamRefused f cause short) := by
  refine Keeps.after ?_ hm' hq' h'
  clear hm' hq' h'
  unfold State.streamRefused
  with_reducible repeat' first
    | assumption | exact Keeps.refl _ | (apply Keeps.flag; rotate_left; decide) | (apply Keeps.bump; rotate_left; decide)
    | (apply State.finish_after; rotate_left; decide; decide) | (intro) | split | dsimp only

theorem State.streamArm_after {m' q' : Nat} {u' : State} {s : State} {c : Cmd} {dw11 dw12 dw13 : Nat} {save : Bool} (h' : Keeps m' q' u' s)
    (hm' : Nat.lor 0x18000000000000000000000000000000000000000007f3d00400011f8800003fe000000000000000000000000000000000000000000000000000000000000000000000000000000000000000000000000000000000000000000 m' = m') (hq' : Nat.lor 0x10c6000 q' = q') : Keeps m' q' u' (s.streamArm c dw11 dw12 dw13 save) := by
  refine Keeps.after ?_ hm' hq' h'
  clear hm' hq' h'
  unfold State.streamArm
  with_reducible repeat' first
    | assumption | exact Keeps.refl _ | (apply State.finish_after; rotate_left; decide; decide)
    | (apply State.journal_after; rotate_left; decide; decide)
    | (apply State.modController_after; rotate_left; decide; decide)
    | (apply State.modHost_after; rotate_left; decide; decide)
    | (apply State.recordAvail_after; rotate_left; decide; decide)
    | (apply State.refreshMode_after; rotate_left; decide; decide)
    | (apply State.showSlot_after; rotate_left; decide; decide)
    | (apply State.streamRefresh_after; rotate_left; decide; decide)
    | (apply State.streamRefused_after; rotate_left; decide; decide) | apply Keeps.ite | apply Keeps.ite_fst
    | apply Keeps.ite_snd | (apply Keeps.of_eq_fst; assumption) | (apply Keeps.of_eq_snd; assumption) | (intro) | split
    | dsimp only

theorem State.streamQueueArm_after {m' q' : Nat} {u' : State} {s : State} {f : Nat} (h' : Keeps m' q' u' s)
    (hm' : Nat.lor 0x18000000000000000000000000000000000000000007f3d00400011f8800003fe000000000000000000000000000000000000000000000000000000000000000000000000000000000000000000000000000000000000000000 m' = m') (hq' : Nat.lor 0x10c6000 q' = q') : Keeps m' q' u' (s.streamQueueArm f) := by
  refine Keeps.after ?_ hm' hq' h'
  clear hm' hq' h'
  unfold State.streamQueueArm
  with_reducible repeat' first
    | assumption | exact Keeps.refl _ | (apply State.streamArm_after; rotate_left; decide; decide)
    | (apply State.admin_after; rotate_left; decide; decide; rotate_left) | apply Keeps.ite | apply Keeps.ite_fst
    | apply Keeps.ite_snd | (apply Keeps.of_eq_fst; assumption) | (apply Keeps.of_eq_snd; assumption) | (intro) | split
    | dsimp only

theorem State.streamQueueDisarm_after {m' q' : Nat} {u' : State} {s : State} {f : Nat} (h' : Keeps m' q' u' s)
    (hm' : Nat.lor 0x1800000000000000000000000000000000000000000000000400000f080000004000000000000000000000000000000000000000000000000000000000000000000000000000000000000000000000000000000000000000000 m' = m') (hq' : Nat.lor 0x10c2000 q' = q') : Keeps m' q' u' (s.streamQueueDisarm f) := by
  refine Keeps.after ?_ hm' hq' h'
  clear hm' hq' h'
  unfold State.streamQueueDisarm
  with_reducible repeat' first
    | assumption | exact Keeps.refl _ | (apply State.finish_after; rotate_left; decide; decide)
    | (apply State.releaseStream_after; rotate_left; decide; decide)
    | (apply State.admin_after; rotate_left; decide; decide; rotate_left) | apply Keeps.ite | apply Keeps.ite_fst
    | apply Keeps.ite_snd | (apply Keeps.of_eq_fst; assumption) | (apply Keeps.of_eq_snd; assumption) | (intro) | split
    | dsimp only

theorem State.streamQueueGet_after {m' q' : Nat} {u' : State} {s : State} {f : Nat} (h' : Keeps m' q' u' s)
    (hm' : Nat.lor 0x0 m' = m') (hq' : Nat.lor 0x2000 q' = q') : Keeps m' q' u' (s.streamQueueGet f) := by
  refine Keeps.after ?_ hm' hq' h'
  clear hm' hq' h'
  unfold State.streamQueueGet
  with_reducible repeat' first
    | assumption | exact Keeps.refl _ | (apply State.finish_after; rotate_left; decide; decide)
    | (apply State.modHost_after; rotate_left; decide; decide)
    | (apply State.admin_after; rotate_left; decide; decide; rotate_left) | apply Keeps.ite | apply Keeps.ite_fst
    | apply Keeps.ite_snd | (apply Keeps.of_eq_fst; assumption) | (apply Keeps.of_eq_snd; assumption) | (intro) | split
    | dsimp only

theorem State.streamCapacity_after {m' q' : Nat} {u' : State} {s : State} {f : Nat} (h' : Keeps m' q' u' s)
    (hm' : Nat.lor 0x0 m' = m') (hq' : Nat.lor 0x2000 q' = q') : Keeps m' q' u' (s.streamCapacity f) := by
  refine Keeps.after ?_ hm' hq' h'
  clear hm' hq' h'
  unfold State.streamCapacity
  with_reducible repeat' first
    | assumption | exact Keeps.refl _ | (apply State.finish_after; rotate_left; decide; decide)
    | (apply State.admin_after; rotate_left; decide; decide; rotate_left) | apply Keeps.ite | apply Keeps.ite_fst
    | apply Keeps.ite_snd | (apply Keeps.of_eq_fst; assumption) | (apply Keeps.of_eq_snd; assumption) | (intro) | split
    | dsimp only

theorem State.asyncRequest_after {m' q' : Nat} {u' : State} {s : State} {f : Nat} (h' : Keeps m' q' u' s)
    (hm' : Nat.lor 0x0 m' = m') (hq' : Nat.lor 0x2000 q' = q') : Keeps m' q' u' (s.asyncRequest f) := by
  refine Keeps.after ?_ hm' hq' h'
  clear hm' hq' h'
  unfold State.asyncRequest
  with_reducible repeat' first
    | assumption | exact Keeps.refl _ | (apply State.finish_after; rotate_left; decide; decide)
    | (apply State.modController_after; rotate_left; decide; decide)
    | (apply State.admin_after; rotate_left; decide; decide; rotate_left) | (apply Keeps.of_eq_fst; assumption)
    | (apply Keeps.of_eq_snd; assumption) | (intro) | split | dsimp only

theorem State.nvmeIdentify_after {m' q' : Nat} {u' : State} {s : State} {f : Nat} (h' : Keeps m' q' u' s)
    (hm' : Nat.lor 0x0 m' = m') (hq' : Nat.lor 0x1002000 q' = q') : Keeps m' q' u' (s.nvmeIdentify f) := by
  refine Keeps.after ?_ hm' hq' h'
  clear hm' hq' h'
  unfold State.nvmeIdentify
  with_reducible repeat' first
    | assumption | exact Keeps.refl _ | (apply State.emit_after; rotate_left; decide; decide)
    | (apply State.finish_after; rotate_left; decide; decide)
    | (apply State.admin_after; rotate_left; decide; decide; rotate_left) | apply Keeps.ite | apply Keeps.ite_fst
    | apply Keeps.ite_snd | apply Keeps.foldl | apply Keeps.foldl_snd | apply Keeps.foldl_fst
    | (apply Keeps.of_eq_fst; assumption) | (apply Keeps.of_eq_snd; assumption) | (intro) | split | dsimp only

theorem State.clearChanges_after {m' q' : Nat} {u' : State} {s : State} {k lid : Nat} (h' : Keeps m' q' u' s)
    (hm' : Nat.lor 0x0 m' = m') (hq' : Nat.lor 0x2000 q' = q') : Keeps m' q' u' (s.clearChanges k lid) := by
  refine Keeps.after ?_ hm' hq' h'
  clear hm' hq' h'
  unfold State.clearChanges
  with_reducible repeat' first
    | assumption | exact Keeps.refl _ | (apply State.modController_after; rotate_left; decide; decide)
    | (apply State.modHost_after; rotate_left; decide; decide) | apply Keeps.ite | apply Keeps.ite_fst | apply Keeps.ite_snd
    | (intro) | split | dsimp only

theorem State.getLogPage_after {m' q' : Nat} {u' : State} {s : State} {f : Nat} (h' : Keeps m' q' u' s)
    (hm' : Nat.lor 0x0 m' = m') (hq' : Nat.lor 0x1002000 q' = q') : Keeps m' q' u' (s.getLogPage f) := by
  refine Keeps.after ?_ hm' hq' h'
  clear hm' hq' h'
  unfold State.getLogPage
  with_reducible repeat' first
    | assumption | exact Keeps.refl _ | (apply State.clearChanges_after; rotate_left; decide; decide)
    | (apply State.emit_after; rotate_left; decide; decide) | (apply State.finish_after; rotate_left; decide; decide)
    | (apply State.admin_after; rotate_left; decide; decide; rotate_left) | apply Keeps.foldl | apply Keeps.foldl_snd
    | apply Keeps.foldl_fst | (apply Keeps.of_eq_fst; assumption) | (apply Keeps.of_eq_snd; assumption) | (intro) | split
    | dsimp only

theorem State.security_after {m' q' : Nat} {u' : State} {s : State} {f protocol : Nat} {receive : Bool} (h' : Keeps m' q' u' s)
    (hm' : Nat.lor 0x0 m' = m') (hq' : Nat.lor 0x1002000 q' = q') : Keeps m' q' u' (s.security f protocol receive) := by
  refine Keeps.after ?_ hm' hq' h'
  clear hm' hq' h'
  unfold State.security
  with_reducible repeat' first
    | assumption | exact Keeps.refl _ | (apply State.emit_after; rotate_left; decide; decide)
    | (apply State.finish_after; rotate_left; decide; decide)
    | (apply State.admin_after; rotate_left; decide; decide; rotate_left) | apply Keeps.when | apply Keeps.ite
    | apply Keeps.ite_fst | apply Keeps.ite_snd | (intro) | split | dsimp only

theorem State.securitySend_after {m' q' : Nat} {u' : State} {s : State} {f : Nat} (h' : Keeps m' q' u' s)
    (hm' : Nat.lor 0x0 m' = m') (hq' : Nat.lor 0x1002000 q' = q') : Keeps m' q' u' (s.securitySend f) := by
  refine Keeps.after ?_ hm' hq' h'
  clear hm' hq' h'
  unfold State.securitySend
  with_reducible repeat' first
    | assumption | exact Keeps.refl _ | (apply State.security_after; rotate_left; decide; decide)
    | (apply Keeps.of_eq_fst; assumption) | (apply Keeps.of_eq_snd; assumption) | (intro) | split | dsimp only

theorem State.securityReceive_after {m' q' : Nat} {u' : State} {s : State} {f : Nat} (h' : Keeps m' q' u' s)
    (hm' : Nat.lor 0x0 m' = m') (hq' : Nat.lor 0x1002000 q' = q') : Keeps m' q' u' (s.securityReceive f) := by
  refine Keeps.after ?_ hm' hq' h'
  clear hm' hq' h'
  unfold State.securityReceive
  with_reducible repeat' first
    | assumption | exact Keeps.refl _ | (apply State.security_after; rotate_left; decide; decide)
    | (apply Keeps.of_eq_fst; assumption) | (apply Keeps.of_eq_snd; assumption) | (intro) | split | dsimp only

theorem State.selfTest_after {m' q' : Nat} {u' : State} {s : State} {f : Nat} {passed : Bool} (h' : Keeps m' q' u' s)
    (hm' : Nat.lor 0x0 m' = m') (hq' : Nat.lor 0x2000 q' = q') : Keeps m' q' u' (s.selfTest f passed) := by
  refine Keeps.after ?_ hm' hq' h'
  clear hm' hq' h'
  unfold State.selfTest
  with_reducible repeat' first
    | assumption | exact Keeps.refl _ | (apply State.finish_after; rotate_left; decide; decide)
    | (apply State.modHost_after; rotate_left; decide; decide)
    | (apply State.admin_after; rotate_left; decide; decide; rotate_left) | apply Keeps.ite | apply Keeps.ite_fst
    | apply Keeps.ite_snd | (apply Keeps.of_eq_fst; assumption) | (apply Keeps.of_eq_snd; assumption) | (intro) | split
    | dsimp only

/-! ### AddressMap -/

theorem State.fabricError_after {m' q' : Nat} {u' : State} {s : State} {kind req a : Nat} {write : Bool} (h' : Keeps m' q' u' s)
    (hm' : Nat.lor 0x7f m' = m') (hq' : Nat.lor 0x1000000 q' = q') : Keeps m' q' u' (s.fabricError kind req a write) := by
  refine Keeps.after ?_ hm' hq' h'
  clear hm' hq' h'
  unfold State.fabricError
  with_reducible repeat' first
    | assumption | exact Keeps.refl _ | (apply Keeps.wr; rotate_left; decide) | (apply Keeps.flag; rotate_left; decide)
    | (apply Keeps.setTo; rotate_left; decide) | (apply State.emit_after; rotate_left; decide; decide) | apply Keeps.ite
    | apply Keeps.ite_fst | apply Keeps.ite_snd | (intro) | split | dsimp only

theorem State.readEffect_after {m' q' : Nat} {u' : State} {s : State} {r : RegRow} {inst : Nat} (h' : Keeps m' q' u' s)
    (hm' : Nat.lor 0x78001800000000000000000000000000000000000000000000000000000000000000000000000000000000000000000000000000000000000000000000800000000000000000000000000000000000 m' = m') (hq' : Nat.lor 0x800 q' = q') : Keeps m' q' u' (s.readEffect r inst) := by
  refine Keeps.after ?_ hm' hq' h'
  clear hm' hq' h'
  unfold State.readEffect
  with_reducible repeat' first
    | assumption | exact Keeps.refl _ | (apply Keeps.wr; rotate_left; decide)
    | (apply State.modSeq_after; rotate_left; decide; decide) | (apply State.sqRefresh_after; rotate_left; decide; decide)
    | (apply Keeps.of_eq_fst; assumption) | (apply Keeps.of_eq_snd; assumption) | (intro) | split | dsimp only

theorem State.readReg_after {m' q' : Nat} {u' : State} {s : State} {b : Blk} {inst off : Nat} (h' : Keeps m' q' u' s)
    (hm' : Nat.lor 0x78001800000000000000000000000000000000000000000000000000000000000000000000000000000000000000000000000000000000000000000000800000000000000000000000000000000000 m' = m') (hq' : Nat.lor 0x800 q' = q') : Keeps m' q' u' (s.readReg b inst off).2 := by
  refine Keeps.after ?_ hm' hq' h'
  clear hm' hq' h'
  unfold State.readReg
  with_reducible repeat' first
    | assumption | exact Keeps.refl _ | (apply State.readEffect_after; rotate_left; decide; decide) | apply Keeps.foldl
    | apply Keeps.foldl_snd | apply Keeps.foldl_fst | (intro) | split | dsimp only

theorem State.chestCounted_after {m' q' : Nat} {u' : State} {s : State} {m : MemRegion} {a n : Nat} (h' : Keeps m' q' u' s)
    (hm' : Nat.lor 0x7f39000000000000000000000000000000000000000000000000000000000000000000000000000000000000000000000000000000000000000000000000000000000000 m' = m') (hq' : Nat.lor 0x4000 q' = q') : Keeps m' q' u' (s.chestCounted m a n) := by
  refine Keeps.after ?_ hm' hq' h'
  clear hm' hq' h'
  unfold State.chestCounted
  with_reducible repeat' first
    | assumption | exact Keeps.refl _ | (apply State.chestRow_after; rotate_left; decide; decide) | apply Keeps.when
    | apply Keeps.ite | apply Keeps.ite_fst | apply Keeps.ite_snd | (intro) | split | dsimp only

theorem State.regionWrite_after {m' q' : Nat} {u' : State} {s : State} {m : MemRegion} {a v n : Nat} (h' : Keeps m' q' u' s)
    (hm' : Nat.lor 0x7f39000000000000000000000000000000000000000000000000000000000000000000000000000000000000000000000000000000000000000000000000000000000000 m' = m') (hq' : Nat.lor 0x24002 q' = q') : Keeps m' q' u' (s.regionWrite m a v n) := by
  refine Keeps.after ?_ hm' hq' h'
  clear hm' hq' h'
  unfold State.regionWrite
  with_reducible repeat' first
    | assumption | exact Keeps.refl _ | (apply State.chestCounted_after; rotate_left; decide; decide)
    | (apply State.wordWritten_after; rotate_left; decide; decide)
    | (apply State.writeMem_after; rotate_left; decide; decide) | apply Keeps.when | (intro) | split | dsimp only

/-! ### Caches -/

theorem State.modCache_after {m' q' : Nat} {u' : State} {s : State} {n : Nat} {f : L2Cache → L2Cache} (h' : Keeps m' q' u' s)
    (hm' : Nat.lor 0x20000000000000000000000000000000000000000000000000000000000000000000000000000000000000000000000000000000000000000000000000000000000000000000000000000000000000000000 m' = m') (hq' : Nat.lor 0x20000 q' = q') : Keeps m' q' u' (s.modCache n f) := by
  refine Keeps.after ?_ hm' hq' h'
  clear hm' hq' h'
  unfold State.modCache
  with_reducible repeat' first
    | assumption | exact Keeps.refl _ | (apply Keeps.wr; rotate_left; decide)
    | (apply State.modMemory_after; rotate_left; decide; decide) | (intro) | split | dsimp only

theorem State.writeLine_after {m' q' : Nat} {u' : State} {s : State} {l : L2Line} (h' : Keeps m' q' u' s)
    (hm' : Nat.lor 0x0 m' = m') (hq' : Nat.lor 0x20002 q' = q') : Keeps m' q' u' (s.writeLine l) := by
  refine Keeps.after ?_ hm' hq' h'
  clear hm' hq' h'
  unfold State.writeLine
  with_reducible repeat' first
    | assumption | exact Keeps.refl _ | (apply State.wordWritten_after; rotate_left; decide; decide)
    | (apply State.writeByte_after; rotate_left; decide; decide) | apply Keeps.foldl | apply Keeps.foldl_snd
    | apply Keeps.foldl_fst | (apply Keeps.of_eq_fst; assumption) | (apply Keeps.of_eq_snd; assumption) | (intro) | split
    | dsimp only

theorem State.lineBytes_after {m' q' : Nat} {u' : State} {s : State} {m : MemRegion} {la : Nat} (h' : Keeps m' q' u' s)
    (hm' : Nat.lor 0x0 m' = m') (hq' : Nat.lor 0x20 q' = q') : Keeps m' q' u' (s.lineBytes m la).2 := by
  refine Keeps.after ?_ hm' hq' h'
  clear hm' hq' h'
  unfold State.lineBytes
  with_reducible repeat' first
    | assumption | exact Keeps.refl _ | (apply State.readByte_after; rotate_left; decide; decide) | apply Keeps.foldl
    | apply Keeps.foldl_snd | apply Keeps.foldl_fst | (apply Keeps.of_eq_fst; assumption)
    | (apply Keeps.of_eq_snd; assumption) | (intro) | split | dsimp only

theorem State.l2Insert_after {m' q' : Nat} {u' : State} {s : State} {n la : Nat} {data : List Nat} (h' : Keeps m' q' u' s)
    (hm' : Nat.lor 0x20000000000000000000000000000000000000000000000000000000000000000000000000000000000000000000000000000000000000000000000000000000000000000000000000000000000000000000 m' = m') (hq' : Nat.lor 0x20002 q' = q') : Keeps m' q' u' (s.l2Insert n la data) := by
  refine Keeps.after ?_ hm' hq' h'
  clear hm' hq' h'
  unfold State.l2Insert
  with_reducible repeat' first
    | assumption | exact Keeps.refl _ | (apply State.modCache_after; rotate_left; decide; decide)
    | (apply State.writeLine_after; rotate_left; decide; decide) | apply Keeps.foldl | apply Keeps.foldl_snd
    | apply Keeps.foldl_fst | (intro) | split | dsimp only

theorem State.sideFill_after {m' q' : Nat} {u' : State} {s : State} {n : Nat} {m : MemRegion} {la : Nat} (h' : Keeps m' q' u' s)
    (hm' : Nat.lor 0x40020000000000000000000000000000000000000000000000000000000000000000000000000000000000000000000000000000000000000000000000000000000000000000000000000000000000000000000 m' = m') (hq' : Nat.lor 0x20020 q' = q') : Keeps m' q' u' (s.sideFill n m la) := by
  refine Keeps.after ?_ hm' hq' h'
  clear hm' hq' h'
  unfold State.sideFill
  with_reducible repeat' first
    | assumption | exact Keeps.refl _ | (apply Keeps.bump; rotate_left; decide)
    | (apply State.lineBytes_after; rotate_left; decide; decide) | (apply State.modCache_after; rotate_left; decide; decide)
    | apply Keeps.when | apply Keeps.ite | apply Keeps.ite_fst | apply Keeps.ite_snd | (apply Keeps.of_eq_fst; assumption)
    | (apply Keeps.of_eq_snd; assumption) | (intro) | split | dsimp only

theorem State.prefetch_after {m' q' : Nat} {u' : State} {s : State} {n : Nat} {m : MemRegion} {la : Nat} (h' : Keeps m' q' u' s)
    (hm' : Nat.lor 0x40020000000000000000000000000000000000000000000000000000000000000000000000000000000000000000000000000000000000000000000000000000000000000000000000000000000000000000000 m' = m') (hq' : Nat.lor 0x20020 q' = q') : Keeps m' q' u' (s.prefetch n m la) := by
  refine Keeps.after ?_ hm' hq' h'
  clear hm' hq' h'
  unfold State.prefetch
  with_reducible repeat' first
    | assumption | exact Keeps.refl _ | (apply State.modCache_after; rotate_left; decide; decide)
    | (apply State.sideFill_after; rotate_left; decide; decide) | apply Keeps.ite | apply Keeps.ite_fst
    | apply Keeps.ite_snd | apply Keeps.foldl | apply Keeps.foldl_snd | apply Keeps.foldl_fst
    | (apply Keeps.of_eq_fst; assumption) | (apply Keeps.of_eq_snd; assumption) | (intro) | split | dsimp only

theorem State.l2Demand_after {m' q' : Nat} {u' : State} {s : State} {n : Nat} {m : MemRegion} {la : Nat} (h' : Keeps m' q' u' s)
    (hm' : Nat.lor 0x78020000000000000000000000000000000000000000000000000000000000000000000000000000000000000000000000000000000000000000000000000000000000000000000000000000000000000000000 m' = m') (hq' : Nat.lor 0x20022 q' = q') : Keeps m' q' u' (s.l2Demand n m la) := by
  refine Keeps.after ?_ hm' hq' h'
  clear hm' hq' h'
  unfold State.l2Demand
  with_reducible repeat' first
    | assumption | exact Keeps.refl _ | (apply Keeps.bump; rotate_left; decide)
    | (apply State.l2Insert_after; rotate_left; decide; decide) | (apply State.lineBytes_after; rotate_left; decide; decide)
    | (apply State.modCache_after; rotate_left; decide; decide) | (apply State.prefetch_after; rotate_left; decide; decide)
    | (apply Keeps.of_eq_fst; assumption) | (apply Keeps.of_eq_snd; assumption) | (intro) | split | dsimp only

theorem State.l2Patch_after {m' q' : Nat} {u' : State} {s : State} {n a v k : Nat} {dirty : Bool} (h' : Keeps m' q' u' s)
    (hm' : Nat.lor 0x20000000000000000000000000000000000000000000000000000000000000000000000000000000000000000000000000000000000000000000000000000000000000000000000000000000000000000000 m' = m') (hq' : Nat.lor 0x20000 q' = q') : Keeps m' q' u' (s.l2Patch n a v k dirty) := by
  refine Keeps.after ?_ hm' hq' h'
  clear hm' hq' h'
  unfold State.l2Patch
  with_reducible repeat' first
    | assumption | exact Keeps.refl _ | (apply State.modCache_after; rotate_left; decide; decide) | apply Keeps.ite
    | apply Keeps.ite_fst | apply Keeps.ite_snd | (intro) | split | dsimp only

theorem State.coreWrite_after {m' q' : Nat} {u' : State} {s : State} {n : Nat} {m : MemRegion} {a v k : Nat} (h' : Keeps m' q' u' s)
    (hm' : Nat.lor 0x78020000000000000000000000000007f39000000000000000000000000000000000000000000000000000000000000000000000000000000000000000000000000000000000000000000000000000000000000 m' = m') (hq' : Nat.lor 0x24022 q' = q') : Keeps m' q' u' (s.coreWrite n m a v k) := by
  refine Keeps.after ?_ hm' hq' h'
  clear hm' hq' h'
  unfold State.coreWrite
  with_reducible repeat' first
    | assumption | exact Keeps.refl _ | (apply Keeps.bump; rotate_left; decide)
    | (apply State.l2Demand_after; rotate_left; decide; decide) | (apply State.l2Patch_after; rotate_left; decide; decide)
    | (apply State.modCache_after; rotate_left; decide; decide)
    | (apply State.regionWrite_after; rotate_left; decide; decide) | (apply Keeps.bump; rotate_left; split <;> decide)
    | apply Keeps.ite | apply Keeps.ite_fst | apply Keeps.ite_snd | apply Keeps.foldl | apply Keeps.foldl_snd
    | apply Keeps.foldl_fst | (intro) | split | dsimp only

theorem State.coreRead_after {m' q' : Nat} {u' : State} {s : State} {n : Nat} {m : MemRegion} {a : Nat} (h' : Keeps m' q' u' s)
    (hm' : Nat.lor 0x78020000000000000000000000000000000000000000000000000000000000000000000000000000000000000000000000000000000000000000000000000000000000000000000000000000000000000000000 m' = m') (hq' : Nat.lor 0x20022 q' = q') : Keeps m' q' u' (s.coreRead n m a).2 := by
  refine Keeps.after ?_ hm' hq' h'
  clear hm' hq' h'
  unfold State.coreRead
  with_reducible repeat' first
    | assumption | exact Keeps.refl _ | (apply State.l2Demand_after; rotate_left; decide; decide)
    | (apply State.readMem_after; rotate_left; decide; decide) | apply Keeps.when | apply Keeps.ite | apply Keeps.ite_fst
    | apply Keeps.ite_snd | apply Keeps.foldl | apply Keeps.foldl_snd | apply Keeps.foldl_fst
    | (apply Keeps.of_eq_fst; assumption) | (apply Keeps.of_eq_snd; assumption) | (intro) | split | dsimp only

theorem State.badRead_after {m' q' : Nat} {u' : State} {s : State} {req a : Nat} (h' : Keeps m' q' u' s)
    (hm' : Nat.lor 0x0 m' = m') (hq' : Nat.lor 0x1020000 q' = q') : Keeps m' q' u' (s.badRead req a) := by
  refine Keeps.after ?_ hm' hq' h'
  clear hm' hq' h'
  unfold State.badRead
  with_reducible repeat' first
    | assumption | exact Keeps.refl _ | (apply State.emit_after; rotate_left; decide; decide)
    | (apply State.modMemory_after; rotate_left; decide; decide) | apply Keeps.ite | apply Keeps.ite_fst
    | apply Keeps.ite_snd | (intro) | split | dsimp only

theorem State.readWord_after {m' q' : Nat} {u' : State} {s : State} {req a : Nat} (h' : Keeps m' q' u' s)
    (hm' : Nat.lor 0xf67000007802000007800180000000000000000000000000000000000000000000000000000000000000000000000000000000000000000000000000000000000000000000080000000000000000000000000000000007f m' = m') (hq' : Nat.lor 0x1020822 q' = q') : Keeps m' q' u' (s.readWord req a).2 := by
  refine Keeps.after ?_ hm' hq' h'
  clear hm' hq' h'
  unfold State.readWord
  with_reducible repeat' first
    | assumption | exact Keeps.refl _ | (apply State.badRead_after; rotate_left; decide; decide)
    | (apply State.coreRead_after; rotate_left; decide; decide)
    | (apply State.correction_after; rotate_left; decide; decide)
    | (apply State.fabricError_after; rotate_left; decide; decide)
    | (apply State.readMem_after; rotate_left; decide; decide) | (apply State.readReg_after; rotate_left; decide; decide)
    | (apply State.uncorrectable_after; rotate_left; decide; decide) | apply Keeps.ite | apply Keeps.ite_fst
    | apply Keeps.ite_snd | (apply Keeps.of_eq_fst; assumption) | (apply Keeps.of_eq_snd; assumption) | (intro) | split
    | dsimp only

/-! ### Namespaces -/

theorem State.nsCreate_after {m' q' : Nat} {u' : State} {s : State} {f : Nat} (h' : Keeps m' q' u' s)
    (hm' : Nat.lor 0x7e00280000000000000000000000000000000000000000000000000000000000000000000000000000000000000000000000000000000000000000000000000000000000000000 m' = m') (hq' : Nat.lor 0xa000 q' = q') : Keeps m' q' u' (s.nsCreate f) := by
  refine Keeps.after ?_ hm' hq' h'
  clear hm' hq' h'
  unfold State.nsCreate
  with_reducible repeat' first
    | assumption | exact Keeps.refl _ | (apply State.finish_after; rotate_left; decide; decide)
    | (apply State.issueOp_after; rotate_left; decide; decide) | (apply State.modCmd_after; rotate_left; decide; decide)
    | (apply State.admin_after; rotate_left; decide; decide; rotate_left) | apply Keeps.ite | apply Keeps.ite_fst
    | apply Keeps.ite_snd | (apply Keeps.of_eq_fst; assumption) | (apply Keeps.of_eq_snd; assumption) | (intro) | split
    | dsimp only

theorem State.nsMade_after {m' q' : Nat} {u' : State} {s : State} {f : NsFields} {slot : Nat} (h' : Keeps m' q' u' s)
    (hm' : Nat.lor 0x7f3d000000000000000000000000000000000000000000000000000000000000000000000000000000000000000000000000000000000000000000000000000000000000 m' = m') (hq' : Nat.lor 0xe020 q' = q') : Keeps m' q' u' (s.nsMade f slot).2 := by
  refine Keeps.after ?_ hm' hq' h'
  clear hm' hq' h'
  unfold State.nsMade
  with_reducible repeat' first
    | assumption | exact Keeps.refl _ | (apply State.drawn_after; rotate_left; decide; decide)
    | (apply State.journal_after; rotate_left; decide; decide) | (apply State.modHost_after; rotate_left; decide; decide)
    | (apply State.modKeySlot_after; rotate_left; decide; decide) | apply Keeps.foldl | apply Keeps.foldl_snd
    | apply Keeps.foldl_fst | (apply Keeps.of_eq_fst; assumption) | (apply Keeps.of_eq_snd; assumption) | (intro) | split
    | dsimp only

theorem State.mapRegion_after {m' q' : Nat} {u' : State} {s : State} (h' : Keeps m' q' u' s)
    (hm' : Nat.lor 0x1800000000000000000000000000000000000000000000000000000000000000000000000000000000000000000000000000000000000000000000000000000000 m' = m') (hq' : Nat.lor 0x0 q' = q') : Keeps m' q' u' (s.mapRegion) := by
  refine Keeps.after ?_ hm' hq' h'
  clear hm' hq' h'
  unfold State.mapRegion
  with_reducible repeat' first
    | assumption | exact Keeps.refl _ | (apply Keeps.wr; rotate_left; decide) | (apply Keeps.flag; rotate_left; decide)
    | (apply Keeps.unflag; rotate_left; decide) | apply Keeps.ite | apply Keeps.ite_fst | apply Keeps.ite_snd | (intro)
    | split | dsimp only

theorem State.nsChanged_after {m' q' : Nat} {u' : State} {s : State} {nsid : Nat} {ks : List Nat} (h' : Keeps m' q' u' s)
    (hm' : Nat.lor 0x0 m' = m') (hq' : Nat.lor 0x2000 q' = q') : Keeps m' q' u' (s.nsChanged nsid ks) := by
  refine Keeps.after ?_ hm' hq' h'
  clear hm' hq' h'
  unfold State.nsChanged
  with_reducible repeat' first
    | assumption | exact Keeps.refl _ | (apply State.hostEvent_after; rotate_left; decide; decide)
    | (apply State.modController_after; rotate_left; decide; decide) | apply Keeps.when | apply Keeps.ite
    | apply Keeps.ite_fst | apply Keeps.ite_snd | apply Keeps.foldl | apply Keeps.foldl_snd | apply Keeps.foldl_fst
    | (intro) | split | dsimp only

theorem State.nsAttach_after {m' q' : Nat} {u' : State} {s : State} {f : Nat} (h' : Keeps m' q' u' s)
    (hm' : Nat.lor 0x7f3d000000000000000000000000000000000000000000000000000000000000000000000000000000000000000000000000000000000000000000000000000000000000 m' = m') (hq' : Nat.lor 0x6000 q' = q') : Keeps m' q' u' (s.nsAttach f) := by
  refine Keeps.after ?_ hm' hq' h'
  clear hm' hq' h'
  unfold State.nsAttach
  with_reducible repeat' first
    | assumption | exact Keeps.refl _ | (apply State.finish_after; rotate_left; decide; decide)
    | (apply State.journal_after; rotate_left; decide; decide) | (apply State.modNs_after; rotate_left; decide; decide)
    | (apply State.nsChanged_after; rotate_left; decide; decide)
    | (apply State.admin_after; rotate_left; decide; decide; rotate_left) | apply Keeps.ite | apply Keeps.ite_fst
    | apply Keeps.ite_snd | (apply Keeps.of_eq_fst; assumption) | (apply Keeps.of_eq_snd; assumption) | (intro) | split
    | dsimp only

theorem State.nsDetach_after {m' q' : Nat} {u' : State} {s : State} {f : Nat} (h' : Keeps m' q' u' s)
    (hm' : Nat.lor 0x7f3d000000000000000000000000000000000000000000000000000000000000000000000000000000000000000000000000000000000000000000000000000000000000 m' = m') (hq' : Nat.lor 0x6000 q' = q') : Keeps m' q' u' (s.nsDetach f) := by
  refine Keeps.after ?_ hm' hq' h'
  clear hm' hq' h'
  unfold State.nsDetach
  with_reducible repeat' first
    | assumption | exact Keeps.refl _ | (apply State.finish_after; rotate_left; decide; decide)
    | (apply State.journal_after; rotate_left; decide; decide) | (apply State.modCmd_after; rotate_left; decide; decide)
    | (apply State.modNs_after; rotate_left; decide; decide) | (apply State.nsChanged_after; rotate_left; decide; decide)
    | (apply State.admin_after; rotate_left; decide; decide; rotate_left) | apply Keeps.ite | apply Keeps.ite_fst
    | apply Keeps.ite_snd | (apply Keeps.of_eq_fst; assumption) | (apply Keeps.of_eq_snd; assumption) | (intro) | split
    | dsimp only

theorem State.nsDelete_after {m' q' : Nat} {u' : State} {s : State} {f : Nat} (h' : Keeps m' q' u' s)
    (hm' : Nat.lor 0x7e00280000000000000000000000000000000000000000000000000000000000000000000000000000000000000000000000000000000000000000000000000000000000000000 m' = m') (hq' : Nat.lor 0xa000 q' = q') : Keeps m' q' u' (s.nsDelete f) := by
  refine Keeps.after ?_ hm' hq' h'
  clear hm' hq' h'
  unfold State.nsDelete
  with_reducible repeat' first
    | assumption | exact Keeps.refl _ | (apply State.finish_after; rotate_left; decide; decide)
    | (apply State.issueOp_after; rotate_left; decide; decide) | (apply State.modCmd_after; rotate_left; decide; decide)
    | (apply State.modNs_after; rotate_left; decide; decide) | (apply State.nsChanged_after; rotate_left; decide; decide)
    | (apply State.admin_after; rotate_left; decide; decide; rotate_left) | apply Keeps.ite | apply Keeps.ite_fst
    | apply Keeps.ite_snd | (apply Keeps.of_eq_fst; assumption) | (apply Keeps.of_eq_snd; assumption) | (intro) | split
    | dsimp only

theorem State.eraseAll_after {m' q' : Nat} {u' : State} {s : State} {f : Nat} {ns : List Namespace} (h' : Keeps m' q' u' s)
    (hm' : Nat.lor 0x7e00280000000000000000000000000000000000000000000000000000000000000000000000000000000000000000000000000000000000000000000000000000000000000000 m' = m') (hq' : Nat.lor 0xa000 q' = q') : Keeps m' q' u' (s.eraseAll f ns) := by
  refine Keeps.after ?_ hm' hq' h'
  clear hm' hq' h'
  unfold State.eraseAll
  with_reducible repeat' first
    | assumption | exact Keeps.refl _ | (apply Keeps.flag; rotate_left; decide)
    | (apply State.finish_after; rotate_left; decide; decide) | (apply State.issueOp_after; rotate_left; decide; decide)
    | (apply State.modCmd_after; rotate_left; decide; decide) | (apply State.modNs_after; rotate_left; decide; decide)
    | apply Keeps.ite | apply Keeps.ite_fst | apply Keeps.ite_snd | apply Keeps.foldl | apply Keeps.foldl_snd
    | apply Keeps.foldl_fst | (intro) | split | dsimp only

theorem State.formatNvm_after {m' q' : Nat} {u' : State} {s : State} {f : Nat} (h' : Keeps m' q' u' s)
    (hm' : Nat.lor 0x7e00280000000000000000000000000000000000000000000000000000000000000000000000000000000000000000000000000000000000000000000000000000000000000000 m' = m') (hq' : Nat.lor 0xa000 q' = q') : Keeps m' q' u' (s.formatNvm f) := by
  refine Keeps.after ?_ hm' hq' h'
  clear hm' hq' h'
  unfold State.formatNvm
  with_reducible repeat' first
    | assumption | exact Keeps.refl _ | (apply State.eraseAll_after; rotate_left; decide; decide)
    | (apply State.finish_after; rotate_left; decide; decide)
    | (apply State.admin_after; rotate_left; decide; decide; rotate_left) | apply Keeps.ite | apply Keeps.ite_fst
    | apply Keeps.ite_snd | (apply Keeps.of_eq_fst; assumption) | (apply Keeps.of_eq_snd; assumption) | (intro) | split
    | dsimp only

theorem State.sanitize_after {m' q' : Nat} {u' : State} {s : State} {f : Nat} (h' : Keeps m' q' u' s)
    (hm' : Nat.lor 0x7e00280000000000000000000000000000000000000000000000000000000000000000000000000000000000000000000000000000000000000000000000000000000000000000 m' = m') (hq' : Nat.lor 0xa000 q' = q') : Keeps m' q' u' (s.sanitize f) := by
  refine Keeps.after ?_ hm' hq' h'
  clear hm' hq' h'
  unfold State.sanitize
  with_reducible repeat' first
    | assumption | exact Keeps.refl _ | (apply State.eraseAll_after; rotate_left; decide; decide)
    | (apply State.finish_after; rotate_left; decide; decide) | (apply State.modHost_after; rotate_left; decide; decide)
    | (apply State.admin_after; rotate_left; decide; decide; rotate_left) | apply Keeps.ite | apply Keeps.ite_fst
    | apply Keeps.ite_snd | (apply Keeps.of_eq_fst; assumption) | (apply Keeps.of_eq_snd; assumption) | (intro) | split
    | dsimp only

theorem State.dropNamespaceData_after {m' q' : Nat} {u' : State} {s : State} {nsid : Nat} (h' : Keeps m' q' u' s)
    (hm' : Nat.lor 0x178001800007000000000007ff900b000000000000000000000000000000000000000000000000000000000000000000000000000000000000000000010000000000000000000000000000000000000 m' = m') (hq' : Nat.lor 0x16801 q' = q') : Keeps m' q' u' (s.dropNamespaceData nsid) := by
  refine Keeps.after ?_ hm' hq' h'
  clear hm' hq' h'
  unfold State.dropNamespaceData
  with_reducible repeat' first
    | assumption | exact Keeps.refl _ | (apply State.abandonClean_after; rotate_left; decide; decide)
    | (apply State.dropVersions_after; rotate_left; decide; decide)
    | (apply State.modBridge_after; rotate_left; decide; decide) | (apply State.modHost_after; rotate_left; decide; decide)
    | (apply State.modPhv_after; rotate_left; decide; decide) | (apply State.modWrp_after; rotate_left; decide; decide)
    | (apply State.phvSweep_after; rotate_left; decide; decide)
    | (apply State.settleWaits_after; rotate_left; decide; decide)
    | (apply State.withdrawWrites_after; rotate_left; decide; decide) | apply Keeps.ite | apply Keeps.ite_fst
    | apply Keeps.ite_snd | apply Keeps.foldl | apply Keeps.foldl_snd | apply Keeps.foldl_fst | (intro) | split | dsimp only

theorem State.emptyNamespace_after {m' q' : Nat} {u' : State} {s : State} {nsid : Nat} {slot : Nat} (h' : Keeps m' q' u' s)
    (hm' : Nat.lor 0x400000000000178001800007000000000007ffd00b000000000000000000000000000000000000000000000000000000000000000000000000000000000000000000010000000000000000000000000000000000000 m' = m') (hq' : Nat.lor 0x16801 q' = q') : Keeps m' q' u' (s.emptyNamespace nsid slot) := by
  refine Keeps.after ?_ hm' hq' h'
  clear hm' hq' h'
  unfold State.emptyNamespace
  with_reducible repeat' first
    | assumption | exact Keeps.refl _ | (apply State.dropNamespaceData_after; rotate_left; decide; decide)
    | (apply State.journal_after; rotate_left; decide; decide) | (apply State.modHost_after; rotate_left; decide; decide)
    | (apply State.modNs_after; rotate_left; decide; decide) | (apply State.setLost_after; rotate_left; decide; decide)
    | apply Keeps.when | apply Keeps.ite | apply Keeps.ite_fst | apply Keeps.ite_snd | apply Keeps.foldl
    | apply Keeps.foldl_snd | apply Keeps.foldl_fst | (intro) | split | dsimp only

theorem State.removeNamespace_after {m' q' : Nat} {u' : State} {s : State} {nsid : Nat} (h' : Keeps m' q' u' s)
    (hm' : Nat.lor 0x400000000000178001800007000000000007ffd00b800000000000000000000000000000000000000000000000000000000000000000000000000000000000000000010000000000000000000000000000000000000 m' = m') (hq' : Nat.lor 0x16801 q' = q') : Keeps m' q' u' (s.removeNamespace nsid) := by
  refine Keeps.after ?_ hm' hq' h'
  clear hm' hq' h'
  unfold State.removeNamespace
  with_reducible repeat' first
    | assumption | exact Keeps.refl _ | (apply State.dropNamespaceData_after; rotate_left; decide; decide)
    | (apply State.journal_after; rotate_left; decide; decide) | (apply State.mapRegion_after; rotate_left; decide; decide)
    | (apply State.modHost_after; rotate_left; decide; decide) | (apply State.setLost_after; rotate_left; decide; decide)
    | apply Keeps.ite | apply Keeps.ite_fst | apply Keeps.ite_snd | (intro) | split | dsimp only

theorem State.opEffect_after {m' q' : Nat} {u' : State} {s : State} {o : SlotOp} {slot : Option Nat} (h' : Keeps m' q' u' s)
    (hm' : Nat.lor 0x400000000000178001800007000000000007ffd00b800000000000000000000000000000000000000000000000000000000000000000000000000000000000000000010000000000000000000000000000000000000 m' = m') (hq' : Nat.lor 0x1e821 q' = q') : Keeps m' q' u' (s.opEffect o slot) := by
  refine Keeps.after ?_ hm' hq' h'
  clear hm' hq' h'
  unfold State.opEffect
  with_reducible repeat' first
    | assumption | exact Keeps.refl _ | (apply State.emptyNamespace_after; rotate_left; decide; decide)
    | (apply State.finish_after; rotate_left; decide; decide) | (apply State.mapRegion_after; rotate_left; decide; decide)
    | (apply State.modNs_after; rotate_left; decide; decide) | (apply State.nsMade_after; rotate_left; decide; decide)
    | (apply State.removeNamespace_after; rotate_left; decide; decide) | apply Keeps.ite | apply Keeps.ite_fst
    | apply Keeps.ite_snd | (apply Keeps.of_eq_fst; assumption) | (apply Keeps.of_eq_snd; assumption) | (intro) | split
    | dsimp only

theorem State.slotOpComplete_after {m' q' : Nat} {u' : State} {s : State} (h' : Keeps m' q' u' s)
    (hm' : Nat.lor 0x400000000000178001800007000007e00387ffd00b800000000000000000000000000000000000000000000000000000000000000000000000000000000000000000010000000000000000000000000000000000000 m' = m') (hq' : Nat.lor 0x1e821 q' = q') : Keeps m' q' u' (s.slotOpComplete) := by
  refine Keeps.after ?_ hm' hq' h'
  clear hm' hq' h'
  unfold State.slotOpComplete
  with_reducible repeat' first
    | assumption | exact Keeps.refl _ | (apply Keeps.flag; rotate_left; decide)
    | (apply State.modCab_after; rotate_left; decide; decide) | (apply State.opEffect_after; rotate_left; decide; decide)
    | (apply State.opsRefresh_after; rotate_left; decide; decide)
    | (apply State.slotEffect_after; rotate_left; decide; decide) | apply Keeps.ite | apply Keeps.ite_fst
    | apply Keeps.ite_snd | (apply Keeps.of_eq_fst; assumption) | (apply Keeps.of_eq_snd; assumption) | (intro) | split
    | dsimp only

/-! ### Controllers -/

theorem State.resetCmd_after {m' q' : Nat} {u' : State} {s : State} {f : Nat} (h' : Keeps m' q' u' s)
    (hm' : Nat.lor 0x78001800000000000000007ffd01b000000000000000000000000000000000000000000000000000000000000000000000000000000000000000000010000000000000000000000000000000000000 m' = m') (hq' : Nat.lor 0x16821 q' = q') : Keeps m' q' u' (s.resetCmd f) := by
  refine Keeps.after ?_ hm' hq' h'
  clear hm' hq' h'
  unfold State.resetCmd
  with_reducible repeat' first
    | assumption | exact Keeps.refl _ | (apply State.advanceWp_after; rotate_left; decide; decide)
    | (apply State.detachOf_after; rotate_left; decide; decide) | (apply State.failWrite_after; rotate_left; decide; decide)
    | (apply State.modCmd_after; rotate_left; decide; decide) | (apply State.modHost_after; rotate_left; decide; decide)
    | (apply State.releaseCmd_after; rotate_left; decide; decide) | apply Keeps.ite | apply Keeps.ite_fst
    | apply Keeps.ite_snd | apply Keeps.foldl | apply Keeps.foldl_snd | apply Keeps.foldl_fst
    | (apply Keeps.of_eq_fst; assumption) | (apply Keeps.of_eq_snd; assumption) | (intro) | split | dsimp only

theorem State.controllerReset_after {m' q' : Nat} {u' : State} {s : State} {k : Nat} (h' : Keeps m' q' u' s)
    (hm' : Nat.lor 0x18000000000000000000078001800007000000000007ffd01f00000f08000000418b000000000000000000000000000000000000000000000000000000000000000000000000010000000000000000000000000000000000000 m' = m') (hq' : Nat.lor 0x10d6821 q' = q') : Keeps m' q' u' (s.controllerReset k) := by
  refine Keeps.after ?_ hm' hq' h'
  clear hm' hq' h'
  unfold State.controllerReset
  with_reducible repeat' first
    | assumption | exact Keeps.refl _ | (apply Keeps.wr; rotate_left; decide) | (apply Keeps.unflag; rotate_left; decide)
    | (apply State.ioqRefresh_after; rotate_left; decide; decide) | (apply State.modBur_after; rotate_left; decide; decide)
    | (apply State.modController_after; rotate_left; decide; decide)
    | (apply State.outRefresh_after; rotate_left; decide; decide)
    | (apply State.phvSweep_after; rotate_left; decide; decide)
    | (apply State.refreshMode_after; rotate_left; decide; decide)
    | (apply State.releaseStream_after; rotate_left; decide; decide)
    | (apply State.resetCmd_after; rotate_left; decide; decide)
    | (apply State.settleWaits_after; rotate_left; decide; decide) | apply Keeps.ite | apply Keeps.ite_fst
    | apply Keeps.ite_snd | apply Keeps.foldl | apply Keeps.foldl_snd | apply Keeps.foldl_fst | (intro) | split | dsimp only

theorem State.ccEnable_after {m' q' : Nat} {u' : State} {s : State} {k ams : Nat} (h' : Keeps m' q' u' s)
    (hm' : Nat.lor 0x1000000000000000000000000000000000000000000000000000000000000000000000000000000000000000000000000000000000000000 m' = m') (hq' : Nat.lor 0x2000 q' = q') : Keeps m' q' u' (s.ccEnable k ams) := by
  refine Keeps.after ?_ hm' hq' h'
  clear hm' hq' h'
  unfold State.ccEnable
  with_reducible repeat' first
    | assumption | exact Keeps.refl _ | (apply Keeps.flag; rotate_left; decide)
    | (apply State.modController_after; rotate_left; decide; decide) | apply Keeps.ite | apply Keeps.ite_fst
    | apply Keeps.ite_snd | (intro) | split | dsimp only

theorem State.ccDisable_after {m' q' : Nat} {u' : State} {s : State} {k : Nat} (h' : Keeps m' q' u' s)
    (hm' : Nat.lor 0x18000000000000000000078001800007000000000007ffd01f00000f08000000418b000000000000000000000000000000000000000000000000000000000000000000000000010000000000000000000000000000000000000 m' = m') (hq' : Nat.lor 0x10d6821 q' = q') : Keeps m' q' u' (s.ccDisable k) := by
  refine Keeps.after ?_ hm' hq' h'
  clear hm' hq' h'
  unfold State.ccDisable
  with_reducible repeat' first
    | assumption | exact Keeps.refl _ | (apply State.controllerReset_after; rotate_left; decide; decide) | apply Keeps.ite
    | apply Keeps.ite_fst | apply Keeps.ite_snd | (intro) | split | dsimp only

theorem State.controllerReady_after {m' q' : Nat} {u' : State} {s : State} {k : Nat} (h' : Keeps m' q' u' s)
    (hm' : Nat.lor 0x42000000000000000000000000000000000000000000000000000000000000000000000000000000000000000000000000000000000000000 m' = m') (hq' : Nat.lor 0x2000 q' = q') : Keeps m' q' u' (s.controllerReady k) := by
  refine Keeps.after ?_ hm' hq' h'
  clear hm' hq' h'
  unfold State.controllerReady
  with_reducible repeat' first
    | assumption | exact Keeps.refl _ | (apply Keeps.flag; rotate_left; decide)
    | (apply State.modController_after; rotate_left; decide; decide) | apply Keeps.when | apply Keeps.ite
    | apply Keeps.ite_fst | apply Keeps.ite_snd | (apply Keeps.of_eq_fst; assumption) | (apply Keeps.of_eq_snd; assumption)
    | (intro) | split | dsimp only

theorem State.functionReset_after {m' q' : Nat} {u' : State} {s : State} {k : Nat} (h' : Keeps m' q' u' s)
    (hm' : Nat.lor 0x18000000000000000000078001800007000000000007ffd01f00000f08000000418b000000000000000000000000000000000000000000000000000000000000000000000000010000000000000000000000000000000000000 m' = m') (hq' : Nat.lor 0x10d6821 q' = q') : Keeps m' q' u' (s.functionReset k) := by
  refine Keeps.after ?_ hm' hq' h'
  clear hm' hq' h'
  unfold State.functionReset
  with_reducible repeat' first
    | assumption | exact Keeps.refl _ | (apply State.controllerReset_after; rotate_left; decide; decide) | apply Keeps.ite
    | apply Keeps.ite_fst | apply Keeps.ite_snd | (intro) | split | dsimp only

theorem State.setLink_after {m' q' : Nat} {u' : State} {s : State} {p : Nat} {up : Bool} {speed width : Nat} (h' : Keeps m' q' u' s)
    (hm' : Nat.lor 0x7e0000010000000000000000000000000000000000000000000000000000000000000000000000000000000000000000000000000000000000000000 m' = m') (hq' : Nat.lor 0x0 q' = q') : Keeps m' q' u' (s.setLink p up speed width) := by
  refine Keeps.after ?_ hm' hq' h'
  unfold State.setLink portRegs
  by_cases hp : p = 0 <;> simp only [hp, if_true, if_false] <;>
    (refine Keeps.foldl ?_ (fun u a h => h.setTo rfl); exact (((Keeps.refl _).setTo rfl).wr rfl).wr rfl)

theorem State.setPort_after {m' q' : Nat} {u' : State} {s : State} {port : Nat} {perst training : Bool} (h' : Keeps m' q' u' s)
    (hm' : Nat.lor 0x0 m' = m') (hq' : Nat.lor 0x2000 q' = q') : Keeps m' q' u' (s.setPort port perst training) := by
  refine Keeps.after ?_ hm' hq' h'
  clear hm' hq' h'
  unfold State.setPort
  with_reducible repeat' first
    | assumption | exact Keeps.refl _ | (apply State.modHost_after; rotate_left; decide; decide) | (intro) | split
    | dsimp only

theorem State.resetPort_after {m' q' : Nat} {u' : State} {s : State} {port : Nat} (h' : Keeps m' q' u' s)
    (hm' : Nat.lor 0x18000000000000000000078001800007000000000007ffd01f00000f08000000418b000000000000000000000000000000000000000000000000000000000000000000000000010000000000000000000000000000000000000 m' = m') (hq' : Nat.lor 0x10d6821 q' = q') : Keeps m' q' u' (s.resetPort port) := by
  refine Keeps.after ?_ hm' hq' h'
  clear hm' hq' h'
  unfold State.resetPort
  with_reducible repeat' first
    | assumption | exact Keeps.refl _ | (apply State.controllerReset_after; rotate_left; decide; decide) | apply Keeps.foldl
    | apply Keeps.foldl_snd | apply Keeps.foldl_fst | (intro) | split | dsimp only

theorem State.perstAssert_after {m' q' : Nat} {u' : State} {s : State} {port : Nat} (h' : Keeps m' q' u' s)
    (hm' : Nat.lor 0x18000000000000000000078001800007000000000007ffd01f00000f0807e000419b000000000000000000000000000000000000000000000000000000000000000000000000010000000000000000000000000000000000000 m' = m') (hq' : Nat.lor 0x10d6821 q' = q') : Keeps m' q' u' (s.perstAssert port) := by
  refine Keeps.after ?_ hm' hq' h'
  clear hm' hq' h'
  unfold State.perstAssert
  with_reducible repeat' first
    | assumption | exact Keeps.refl _ | (apply State.resetPort_after; rotate_left; decide; decide)
    | (apply State.setLink_after; rotate_left; decide; decide) | (apply State.setPort_after; rotate_left; decide; decide)
    | apply Keeps.ite | apply Keeps.ite_fst | apply Keeps.ite_snd | (intro) | split | dsimp only

theorem State.perstDeassert_after {m' q' : Nat} {u' : State} {s : State} {port : Nat} (h' : Keeps m' q' u' s)
    (hm' : Nat.lor 0x0 m' = m') (hq' : Nat.lor 0x2000 q' = q') : Keeps m' q' u' (s.perstDeassert port) := by
  refine Keeps.after ?_ hm' hq' h'
  clear hm' hq' h'
  unfold State.perstDeassert
  with_reducible repeat' first
    | assumption | exact Keeps.refl _ | (apply State.setPort_after; rotate_left; decide; decide) | apply Keeps.ite
    | apply Keeps.ite_fst | apply Keeps.ite_snd | (intro) | split | dsimp only

theorem State.linkTrained_after {m' q' : Nat} {u' : State} {s : State} {port speed width : Nat} (h' : Keeps m' q' u' s)
    (hm' : Nat.lor 0x7e0000010000000000000000000000000000000000000000000000000000000000000000000000000000000000000000000000000000000000000000 m' = m') (hq' : Nat.lor 0x2000 q' = q') : Keeps m' q' u' (s.linkTrained port speed width) := by
  refine Keeps.after ?_ hm' hq' h'
  clear hm' hq' h'
  unfold State.linkTrained
  with_reducible repeat' first
    | assumption | exact Keeps.refl _ | (apply State.setLink_after; rotate_left; decide; decide)
    | (apply State.setPort_after; rotate_left; decide; decide) | apply Keeps.ite | apply Keeps.ite_fst | apply Keeps.ite_snd
    | (intro) | split | dsimp only

theorem State.dlDown_after {m' q' : Nat} {u' : State} {s : State} {port : Nat} (h' : Keeps m' q' u' s)
    (hm' : Nat.lor 0x18000000000000000000078001800007000000000007ffd01f00000f0837e000419b000000000000000000000000000000000000000000000000000000000000000000000000010000000000000000000000000000000000000 m' = m') (hq' : Nat.lor 0x10d6821 q' = q') : Keeps m' q' u' (s.dlDown port) := by
  refine Keeps.after ?_ hm' hq' h'
  clear hm' hq' h'
  unfold State.dlDown
  with_reducible repeat' first
    | assumption | exact Keeps.refl _ | (apply Keeps.flag; rotate_left; decide)
    | (apply State.resetPort_after; rotate_left; decide; decide) | (apply State.setLink_after; rotate_left; decide; decide)
    | (apply State.setPort_after; rotate_left; decide; decide) | apply Keeps.ite | apply Keeps.ite_fst | apply Keeps.ite_snd
    | (intro) | split | dsimp only

theorem State.miReply_after {m' q' : Nat} {u' : State} {s : State} {ws : List Nat} (h' : Keeps m' q' u' s)
    (hm' : Nat.lor 0x0 m' = m') (hq' : Nat.lor 0x1000000 q' = q') : Keeps m' q' u' (s.miReply ws) := by
  refine Keeps.after ?_ hm' hq' h'
  clear hm' hq' h'
  unfold State.miReply
  with_reducible repeat' first
    | assumption | exact Keeps.refl _ | (apply State.emit_after; rotate_left; decide; decide) | apply Keeps.foldl
    | apply Keeps.foldl_snd | apply Keeps.foldl_fst | (intro) | split | dsimp only

theorem State.miDataStructure_after {m' q' : Nat} {u' : State} {s : State} {kind k : Nat} (h' : Keeps m' q' u' s)
    (hm' : Nat.lor 0x0 m' = m') (hq' : Nat.lor 0x1000000 q' = q') : Keeps m' q' u' (s.miDataStructure kind k) := by
  refine Keeps.after ?_ hm' hq' h'
  clear hm' hq' h'
  unfold State.miDataStructure
  with_reducible repeat' first
    | assumption | exact Keeps.refl _ | (apply State.miReply_after; rotate_left; decide; decide) | apply Keeps.ite
    | apply Keeps.ite_fst | apply Keeps.ite_snd | (apply Keeps.of_eq_fst; assumption) | (apply Keeps.of_eq_snd; assumption)
    | (intro) | split | dsimp only

theorem State.miSubsystemHealth_after {m' q' : Nat} {u' : State} {s : State} (h' : Keeps m' q' u' s)
    (hm' : Nat.lor 0x0 m' = m') (hq' : Nat.lor 0x1000000 q' = q') : Keeps m' q' u' (s.miSubsystemHealth) := by
  refine Keeps.after ?_ hm' hq' h'
  clear hm' hq' h'
  unfold State.miSubsystemHealth
  with_reducible repeat' first
    | assumption | exact Keeps.refl _ | (apply State.miReply_after; rotate_left; decide; decide) | (intro) | split
    | dsimp only

theorem State.miControllerHealth_after {m' q' : Nat} {u' : State} {s : State} {k : Nat} (h' : Keeps m' q' u' s)
    (hm' : Nat.lor 0x0 m' = m') (hq' : Nat.lor 0x1000000 q' = q') : Keeps m' q' u' (s.miControllerHealth k) := by
  refine Keeps.after ?_ hm' hq' h'
  clear hm' hq' h'
  unfold State.miControllerHealth
  with_reducible repeat' first
    | assumption | exact Keeps.refl _ | (apply State.miReply_after; rotate_left; decide; decide) | (intro) | split
    | dsimp only

theorem State.miConfigSet_after {m' q' : Nat} {u' : State} {s : State} {id value : Nat} (h' : Keeps m' q' u' s)
    (hm' : Nat.lor 0x0 m' = m') (hq' : Nat.lor 0x2000 q' = q') : Keeps m' q' u' (s.miConfigSet id value) := by
  refine Keeps.after ?_ hm' hq' h'
  clear hm' hq' h'
  unfold State.miConfigSet
  with_reducible repeat' first
    | assumption | exact Keeps.refl _ | (apply State.modHost_after; rotate_left; decide; decide) | apply Keeps.ite
    | apply Keeps.ite_fst | apply Keeps.ite_snd | (intro) | split | dsimp only

theorem State.miConfigGet_after {m' q' : Nat} {u' : State} {s : State} {id : Nat} (h' : Keeps m' q' u' s)
    (hm' : Nat.lor 0x0 m' = m') (hq' : Nat.lor 0x1000000 q' = q') : Keeps m' q' u' (s.miConfigGet id) := by
  refine Keeps.after ?_ hm' hq' h'
  clear hm' hq' h'
  unfold State.miConfigGet
  with_reducible repeat' first
    | assumption | exact Keeps.refl _ | (apply State.miReply_after; rotate_left; decide; decide) | (intro) | split
    | dsimp only

theorem State.vpdRead_after {m' q' : Nat} {u' : State} {s : State} {offset n : Nat} (h' : Keeps m' q' u' s)
    (hm' : Nat.lor 0x0 m' = m') (hq' : Nat.lor 0x1000020 q' = q') : Keeps m' q' u' (s.vpdRead offset n) := by
  refine Keeps.after ?_ hm' hq' h'
  clear hm' hq' h'
  unfold State.vpdRead
  with_reducible repeat' first
    | assumption | exact Keeps.refl _ | (apply State.drawn_after; rotate_left; decide; decide)
    | (apply State.emit_after; rotate_left; decide; decide) | apply Keeps.foldl | apply Keeps.foldl_snd
    | apply Keeps.foldl_fst | (apply Keeps.of_eq_fst; assumption) | (apply Keeps.of_eq_snd; assumption) | (intro) | split
    | dsimp only

theorem State.vpdWrite_after {m' q' : Nat} {u' : State} {s : State} {offset : Nat} {bytes : List Nat} (h' : Keeps m' q' u' s)
    (hm' : Nat.lor 0x0 m' = m') (hq' : Nat.lor 0x2000 q' = q') : Keeps m' q' u' (s.vpdWrite offset bytes) := by
  refine Keeps.after ?_ hm' hq' h'
  clear hm' hq' h'
  unfold State.vpdWrite
  with_reducible repeat' first
    | assumption | exact Keeps.refl _ | (apply State.modHost_after; rotate_left; decide; decide) | apply Keeps.foldl
    | apply Keeps.foldl_snd | apply Keeps.foldl_fst | (intro) | split | dsimp only

theorem State.basicManagement_after {m' q' : Nat} {u' : State} {s : State} (h' : Keeps m' q' u' s)
    (hm' : Nat.lor 0x0 m' = m') (hq' : Nat.lor 0x1000000 q' = q') : Keeps m' q' u' (s.basicManagement) := by
  refine Keeps.after ?_ hm' hq' h'
  clear hm' hq' h'
  unfold State.basicManagement
  with_reducible repeat' first
    | assumption | exact Keeps.refl _ | (apply State.miReply_after; rotate_left; decide; decide) | (intro) | split
    | dsimp only

end Sys2Proof.Machine
end

