-- ==== Sys2Proof/Laws/FrameManage.lean ====
section
/-! SUPPORT. Laws/FrameManage.lean: what each operation of the model keeps, one lemma each: integrity, retract, the servo, power, thermal, cores, register writes, management, microcode, life cycle, Bench. The numbers are the masks of
`Keeps`. -/
namespace Sys2Proof.Machine
set_option linter.unreachableTactic false
set_option linter.unusedTactic false

/-! ### Integrity -/

theorem State.cleanLines_after {m' q' : Nat} {u' : State} {s : State} {n : Nat} {p : L2Line → Bool} (h' : Keeps m' q' u' s)
    (hm' : Nat.lor 0x20000000000000000000000000000000000000000000000000000000000000000000000000000000000000000000000000000000000000000000000000000000000000000000000000000000000000000000 m' = m') (hq' : Nat.lor 0x20002 q' = q') : Keeps m' q' u' (s.cleanLines n p) := by
  refine Keeps.after ?_ hm' hq' h'
  clear hm' hq' h'
  unfold State.cleanLines
  with_reducible repeat' first
    | assumption | exact Keeps.refl _ | (apply State.modCache_after; rotate_left; decide; decide)
    | (apply State.writeLine_after; rotate_left; decide; decide) | apply Keeps.ite | apply Keeps.ite_fst
    | apply Keeps.ite_snd | apply Keeps.foldl | apply Keeps.foldl_snd | apply Keeps.foldl_fst | (intro) | split | dsimp only

theorem State.dropLines_after {m' q' : Nat} {u' : State} {s : State} {n : Nat} {p : L2Line → Bool} {q : Nat → Bool} (h' : Keeps m' q' u' s)
    (hm' : Nat.lor 0x20000000000000000000000000000000000000000000000000000000000000000000000000000000000000000000000000000000000000000000000000000000000000000000000000000000000000000000 m' = m') (hq' : Nat.lor 0x20000 q' = q') : Keeps m' q' u' (s.dropLines n p q) := by
  refine Keeps.after ?_ hm' hq' h'
  clear hm' hq' h'
  unfold State.dropLines
  with_reducible repeat' first
    | assumption | exact Keeps.refl _ | (apply State.modCache_after; rotate_left; decide; decide) | (intro) | split
    | dsimp only

theorem State.applyOp_after {m' q' : Nat} {u' : State} {s : State} {n : Nat} {o : L2Op} (h' : Keeps m' q' u' s)
    (hm' : Nat.lor 0x20000000000000000000000000000000000000000000000000000000000000000000000000000000000000000000000000000000000000000000000000000000000000000000000000000000000000000000 m' = m') (hq' : Nat.lor 0x20002 q' = q') : Keeps m' q' u' (s.applyOp n o) := by
  refine Keeps.after ?_ hm' hq' h'
  clear hm' hq' h'
  unfold State.applyOp
  with_reducible repeat' first
    | assumption | exact Keeps.refl _ | (apply State.cleanLines_after; rotate_left; decide; decide)
    | (apply State.dropLines_after; rotate_left; decide; decide) | apply Keeps.when | (intro) | split | dsimp only

theorem State.maintGo_after {m' q' : Nat} {u' : State} {s : State} {n : Nat} (h' : Keeps m' q' u' s)
    (hm' : Nat.lor 0x28000000000000000000000000000000000000000000000000000000000000000000000000000000000000000000000000000000000000000000000000000000000000000000000000000000000000000000 m' = m') (hq' : Nat.lor 0x20000 q' = q') : Keeps m' q' u' (s.maintGo n) := by
  refine Keeps.after ?_ hm' hq' h'
  clear hm' hq' h'
  unfold State.maintGo
  with_reducible repeat' first
    | assumption | exact Keeps.refl _ | (apply Keeps.flag; rotate_left; decide)
    | (apply State.modCache_after; rotate_left; decide; decide) | apply Keeps.ite | apply Keeps.ite_fst
    | apply Keeps.ite_snd | (intro) | split | dsimp only

theorem State.maintNext_after {m' q' : Nat} {u' : State} {s : State} {n : Nat} (h' : Keeps m' q' u' s)
    (hm' : Nat.lor 0x20000000000000000000000000000000000000000000000000000000000000000000000000000000000000000000000000000000000000000000000000000000000000000000000000000000000000000000 m' = m') (hq' : Nat.lor 0x20000 q' = q') : Keeps m' q' u' (s.maintNext n) := by
  refine Keeps.after ?_ hm' hq' h'
  clear hm' hq' h'
  unfold State.maintNext
  with_reducible repeat' first
    | assumption | exact Keeps.refl _ | (apply State.modCache_after; rotate_left; decide; decide) | apply Keeps.ite
    | apply Keeps.ite_fst | apply Keeps.ite_snd | (intro) | split | dsimp only

theorem State.maintDone_after {m' q' : Nat} {u' : State} {s : State} {n : Nat} (h' : Keeps m' q' u' s)
    (hm' : Nat.lor 0x24000000000000000000000000000000000000000000000000000000000000000000000000000000000000000000000000000000000000000000000000000000000000000000000000000000000000000000 m' = m') (hq' : Nat.lor 0x20002 q' = q') : Keeps m' q' u' (s.maintDone n) := by
  refine Keeps.after ?_ hm' hq' h'
  clear hm' hq' h'
  unfold State.maintDone
  with_reducible repeat' first
    | assumption | exact Keeps.refl _ | (apply Keeps.flag; rotate_left; decide)
    | (apply State.applyOp_after; rotate_left; decide; decide) | (apply State.maintNext_after; rotate_left; decide; decide)
    | (apply State.modCache_after; rotate_left; decide; decide) | (apply Keeps.of_eq_fst; assumption)
    | (apply Keeps.of_eq_snd; assumption) | (intro) | split | dsimp only

theorem State.startWalk_after {m' q' : Nat} {u' : State} {s : State} {n : Nat} (h' : Keeps m' q' u' s)
    (hm' : Nat.lor 0x2000000000000000000000000000000000000000000000000000000000000000000000000000000000000000000000000000000000000000000000000000000000000000000000000000000000000000000 m' = m') (hq' : Nat.lor 0x0 q' = q') : Keeps m' q' u' (s.startWalk n) := by
  refine Keeps.after ?_ hm' hq' h'
  clear hm' hq' h'
  unfold State.startWalk
  with_reducible repeat' first
    | assumption | exact Keeps.refl _ | (apply Keeps.flag; rotate_left; decide) | apply Keeps.ite | apply Keeps.ite_fst
    | apply Keeps.ite_snd | (intro) | split | dsimp only

theorem State.l2Disable_after {m' q' : Nat} {u' : State} {s : State} {n : Nat} (h' : Keeps m' q' u' s)
    (hm' : Nat.lor 0x2200000000000000000000000000000000000000000000000000000000000000000000000000000000000000000000000000000000000000000000000000000000000000000000000000000000000000000 m' = m') (hq' : Nat.lor 0x0 q' = q') : Keeps m' q' u' (s.l2Disable n) := by
  refine Keeps.after ?_ hm' hq' h'
  clear hm' hq' h'
  unfold State.l2Disable
  with_reducible repeat' first
    | assumption | exact Keeps.refl _ | (apply Keeps.unflag; rotate_left; decide)
    | (apply State.startWalk_after; rotate_left; decide; decide) | apply Keeps.ite | apply Keeps.ite_fst
    | apply Keeps.ite_snd | (intro) | split | dsimp only

theorem State.l2Enable_after {m' q' : Nat} {u' : State} {s : State} {n : Nat} (h' : Keeps m' q' u' s)
    (hm' : Nat.lor 0x1200000000000000000000000000000000000000000000000000000000000000000000000000000000000000000000000000000000000000000000000000000000000000000000000000000000000000000 m' = m') (hq' : Nat.lor 0x0 q' = q') : Keeps m' q' u' (s.l2Enable n) := by
  refine Keeps.after ?_ hm' hq' h'
  clear hm' hq' h'
  unfold State.l2Enable
  with_reducible repeat' first
    | assumption | exact Keeps.refl _ | (apply Keeps.flag; rotate_left; decide) | apply Keeps.ite | apply Keeps.ite_fst
    | apply Keeps.ite_snd | (intro) | split | dsimp only

theorem State.poisonWord_after {m' q' : Nat} {u' : State} {s : State} {a : Nat} (h' : Keeps m' q' u' s)
    (hm' : Nat.lor 0x0 m' = m') (hq' : Nat.lor 0x20000 q' = q') : Keeps m' q' u' (s.poisonWord a) := by
  refine Keeps.after ?_ hm' hq' h'
  clear hm' hq' h'
  unfold State.poisonWord
  with_reducible repeat' first
    | assumption | exact Keeps.refl _ | (apply State.modMemory_after; rotate_left; decide; decide) | apply Keeps.ite
    | apply Keeps.ite_fst | apply Keeps.ite_snd | (intro) | split | dsimp only

theorem State.walkEnd_after {m' q' : Nat} {u' : State} {s : State} {n writeNs : Nat} {bad : List Nat} (h' : Keeps m' q' u' s)
    (hm' : Nat.lor 0xf440000004023000000000000000000000000000000000000000000000000000000000000000000000000000000000000000000000000000000000000000000000000000000000000000000000000000000000000000000 m' = m') (hq' : Nat.lor 0x1020002 q' = q') : Keeps m' q' u' (s.walkEnd n writeNs bad) := by
  refine Keeps.after ?_ hm' hq' h'
  clear hm' hq' h'
  unfold State.walkEnd
  with_reducible repeat' first
    | assumption | exact Keeps.refl _ | (apply Keeps.wr; rotate_left; decide) | (apply Keeps.unflag; rotate_left; decide)
    | (apply Keeps.setTo; rotate_left; decide) | (apply State.cleanLines_after; rotate_left; decide; decide)
    | (apply State.dropLines_after; rotate_left; decide; decide)
    | (apply State.maintNext_after; rotate_left; decide; decide)
    | (apply State.poisonWord_after; rotate_left; decide; decide)
    | (apply State.uncorrectable_after; rotate_left; decide; decide) | apply Keeps.ite | apply Keeps.ite_fst
    | apply Keeps.ite_snd | apply Keeps.foldl | apply Keeps.foldl_snd | apply Keeps.foldl_fst | (intro) | split | dsimp only

theorem State.ratInvalidate_after {m' q' : Nat} {u' : State} {s : State} {n e : Nat} (h' : Keeps m' q' u' s)
    (hm' : Nat.lor 0x400020000000000000000000000000000000000000000000000000000000000000000000000000000000000000000000000000000000000000000000000000000000000000000000000000000000000000000000 m' = m') (hq' : Nat.lor 0x20002 q' = q') : Keeps m' q' u' (s.ratInvalidate n e) := by
  refine Keeps.after ?_ hm' hq' h'
  clear hm' hq' h'
  unfold State.ratInvalidate
  with_reducible repeat' first
    | assumption | exact Keeps.refl _ | (apply Keeps.unflag; rotate_left; decide)
    | (apply State.cleanLines_after; rotate_left; decide; decide)
    | (apply State.dropLines_after; rotate_left; decide; decide) | apply Keeps.when | apply Keeps.ite | apply Keeps.ite_fst
    | apply Keeps.ite_snd | (intro) | split | dsimp only

theorem State.bucketLeak_after {m' q' : Nat} {u' : State} {s : State} {i : Nat} {c : Option (Nat × Nat)} (h' : Keeps m' q' u' s)
    (hm' : Nat.lor 0xf230000000000000000000000000000000000000000000000000000000000000000000000000000000000000000000000000000000000000000000000000000000000000000000000000000000000000000000000000000 m' = m') (hq' : Nat.lor 0x1000000 q' = q') : Keeps m' q' u' (s.bucketLeak i c) := by
  refine Keeps.after ?_ hm' hq' h'
  clear hm' hq' h'
  unfold State.bucketLeak
  with_reducible repeat' first
    | assumption | exact Keeps.refl _ | (apply Keeps.wr; rotate_left; decide)
    | (apply State.correction_after; rotate_left; decide; decide) | apply Keeps.ite | apply Keeps.ite_fst
    | apply Keeps.ite_snd | (apply Keeps.of_eq_fst; assumption) | (apply Keeps.of_eq_snd; assumption) | (intro) | split
    | dsimp only

theorem State.recordOffline_after {m' q' : Nat} {u' : State} {s : State} {id : Nat} (h' : Keeps m' q' u' s)
    (hm' : Nat.lor 0x178001800000000000000007f3d008000000000000000000000000000000000000000000000000000000000000000000000000000000000000000000010000000000000000000000000000000000000 m' = m') (hq' : Nat.lor 0x6801 q' = q') : Keeps m' q' u' (s.recordOffline id) := by
  refine Keeps.after ?_ hm' hq' h'
  clear hm' hq' h'
  unfold State.recordOffline
  with_reducible repeat' first
    | assumption | exact Keeps.refl _ | (apply State.abandonClean_after; rotate_left; decide; decide)
    | (apply State.modBridge_after; rotate_left; decide; decide) | (apply State.modHost_after; rotate_left; decide; decide)
    | (apply State.setZone_after; rotate_left; decide; decide)
    | (apply State.withdrawWrites_after; rotate_left; decide; decide) | apply Keeps.ite | apply Keeps.ite_fst
    | apply Keeps.ite_snd | (apply Keeps.of_eq_fst; assumption) | (apply Keeps.of_eq_snd; assumption) | (intro) | split
    | dsimp only

theorem State.rewriteCorrected_after {m' q' : Nat} {u' : State} {s : State} {a : Nat} (h' : Keeps m' q' u' s)
    (hm' : Nat.lor 0x0 m' = m') (hq' : Nat.lor 0x20022 q' = q') : Keeps m' q' u' (s.rewriteCorrected a) := by
  refine Keeps.after ?_ hm' hq' h'
  clear hm' hq' h'
  unfold State.rewriteCorrected
  with_reducible repeat' first
    | assumption | exact Keeps.refl _ | (apply State.modMemory_after; rotate_left; decide; decide)
    | (apply State.readMem_after; rotate_left; decide; decide) | (apply State.writeMem_after; rotate_left; decide; decide)
    | apply Keeps.ite | apply Keeps.ite_fst | apply Keeps.ite_snd | (apply Keeps.of_eq_fst; assumption)
    | (apply Keeps.of_eq_snd; assumption) | (intro) | split | dsimp only

theorem State.ownerLoses_after {m' q' : Nat} {u' : State} {s : State} {o : WordOwner} (h' : Keeps m' q' u' s)
    (hm' : Nat.lor 0xc00000000000178001800000000000000007ffd01b000000000000000000000000000000000000000000000000000000000000000000000000000000000000000000010000000000000000000000000000000000000 m' = m') (hq' : Nat.lor 0x168e1 q' = q') : Keeps m' q' u' (s.ownerLoses o) := by
  refine Keeps.after ?_ hm' hq' h'
  unfold State.ownerLoses
  repeat' first
    | with_reducible assumption
    | with_reducible exact Keeps.refl _
    | ((with_reducible apply Keeps.wr); rotate_left; exact rfl)
    | ((with_reducible apply Keeps.flag); rotate_left; exact rfl)
    | ((with_reducible apply Keeps.unflag); rotate_left; exact rfl)
    | ((with_reducible apply Keeps.setTo); rotate_left; exact rfl)
    | ((with_reducible apply Keeps.flagBit); rotate_left; exact rfl)
    | ((with_reducible apply Keeps.unflagBit); rotate_left; exact rfl)
    | ((with_reducible apply Keeps.bump); rotate_left; exact rfl)
    | ((with_reducible apply Keeps.wrapInc); rotate_left; exact rfl)
    | ((with_reducible apply State.failWrite_after); rotate_left; exact rfl; exact rfl)
    | ((with_reducible apply State.giveCells_after); rotate_left; exact rfl; exact rfl)
    | ((with_reducible apply State.markLost_after); rotate_left; exact rfl; exact rfl)
    | ((with_reducible apply State.modBridge_after); rotate_left; exact rfl; exact rfl)
    | ((with_reducible apply State.modVersion_after); rotate_left; exact rfl; exact rfl)
    | ((with_reducible apply State.modWrp_after); rotate_left; exact rfl; exact rfl)
    | ((with_reducible apply State.recordOffline_after); rotate_left; exact rfl; exact rfl)
    | with_reducible apply Keeps.when
    | with_reducible apply Keeps.onStr
    | with_reducible apply Keeps.ite
    | with_reducible apply Keeps.ite_fst
    | with_reducible apply Keeps.ite_snd
    | with_reducible apply Keeps.foldl
    | with_reducible apply Keeps.foldl_snd
    | with_reducible apply Keeps.foldl_fst
    | ((with_reducible apply Keeps.of_eq_fst); (with_reducible assumption))
    | ((with_reducible apply Keeps.of_eq_snd); (with_reducible assumption))
    | (with_reducible intro)
    | (split)
    | (dsimp only)

theorem State.scrubStep_after {m' q' : Nat} {u' : State} {s : State} {i a : Nat} {r : ScrubResult} {last : Bool} (h' : Keeps m' q' u' s)
    (hm' : Nat.lor 0xf0fef0c00000000000178001800000000000000007ffd01b000000000000000000000000000000000000000000000000000000000000000000000000000000000000000000010000000000000000000000000000000000000 m' = m') (hq' : Nat.lor 0x10368e3 q' = q') : Keeps m' q' u' (s.scrubStep i a r last) := by
  refine Keeps.after ?_ hm' hq' h'
  clear hm' hq' h'
  unfold State.scrubStep
  with_reducible repeat' first
    | assumption | exact Keeps.refl _ | (apply Keeps.flag; rotate_left; decide) | (apply Keeps.bump; rotate_left; decide)
    | (apply State.chestRow_after; rotate_left; decide; decide)
    | (apply State.correction_after; rotate_left; decide; decide)
    | (apply State.modMemory_after; rotate_left; decide; decide)
    | (apply State.ownerLoses_after; rotate_left; decide; decide)
    | (apply State.poisonWord_after; rotate_left; decide; decide)
    | (apply State.rewriteCorrected_after; rotate_left; decide; decide)
    | (apply State.uncorrectable_after; rotate_left; decide; decide) | apply Keeps.when | apply Keeps.ite
    | apply Keeps.ite_fst | apply Keeps.ite_snd | (apply Keeps.of_eq_fst; assumption) | (apply Keeps.of_eq_snd; assumption)
    | (intro) | split | dsimp only

theorem State.rawRead_after {m' q' : Nat} {u' : State} {s : State}  (h' : Keeps m' q' u' s)
    (hm' : Nat.lor 0x338000000000000000000000000000000000000000000000000000000000000000000000000000000000000000000000000000000000000000000000000000000000000000000000000000000000000000000000000 m' = m') (hq' : Nat.lor 0x20 q' = q') : Keeps m' q' u' s.rawRead := by
  refine Keeps.after ?_ hm' hq' h'
  unfold State.rawRead
  refine Keeps.ite (fun _ => (Keeps.refl _).flag rfl) (fun _ => ?_)
  extract_lets a
  split
  rename_i v t e
  refine Keeps.flag (Keeps.wr (Keeps.wr (Keeps.wr ?_ rfl) rfl) rfl) rfl
  refine Keeps.of_eq_snd e ?_
  clear e
  generalize 2 ^ 32 = n
  split
  · exact State.readMem_after (Keeps.refl _) rfl rfl
  · exact Keeps.refl _
  · exact Keeps.refl _

theorem State.rawWrite_after {m' q' : Nat} {u' : State} {s : State} (h' : Keeps m' q' u' s)
    (hm' : Nat.lor 0x300000000000000000000000000000000007f39000000000000000000000000000000000000000000000000000000000000000000000000000000000000000000000000000000000000000000000000000000000000 m' = m') (hq' : Nat.lor 0x24006 q' = q') : Keeps m' q' u' (s.rawWrite) := by
  refine Keeps.after ?_ hm' hq' h'
  clear hm' hq' h'
  unfold State.rawWrite
  with_reducible repeat' first
    | assumption | exact Keeps.refl _ | (apply Keeps.flag; rotate_left; decide)
    | (apply State.modMemory_after; rotate_left; decide; decide)
    | (apply State.regionWrite_after; rotate_left; decide; decide) | apply Keeps.ite | apply Keeps.ite_fst
    | apply Keeps.ite_snd | (apply Keeps.of_eq_fst; assumption) | (apply Keeps.of_eq_snd; assumption) | (intro) | split
    | dsimp only | (apply Keeps.with_control; rotate_left; decide)

theorem State.fill_after {m' q' : Nat} {u' : State} {s : State} {i : Nat} (h' : Keeps m' q' u' s)
    (hm' : Nat.lor 0x100000000000000000000000000000000000000000000000000000000000000000000000000000000000000000000000000000000000000000000000000000000000000000000000000000000000000000000000000000 m' = m') (hq' : Nat.lor 0x0 q' = q') : Keeps m' q' u' (s.fill i) := by
  refine Keeps.after ?_ hm' hq' h'
  clear hm' hq' h'
  unfold State.fill
  with_reducible repeat' first
    | assumption | exact Keeps.refl _ | (apply Keeps.flag; rotate_left; decide) | apply Keeps.ite | apply Keeps.ite_fst
    | apply Keeps.ite_snd | (intro) | split | dsimp only

theorem State.fillComplete_after {m' q' : Nat} {u' : State} {s : State} {i : Nat} (h' : Keeps m' q' u' s)
    (hm' : Nat.lor 0x104000000000000000000000000000000000000000000000000000000000000000000000000000000000000000000000000000000000000000000000000000000000000000000000000000000000000000000000000000 m' = m') (hq' : Nat.lor 0x20000 q' = q') : Keeps m' q' u' (s.fillComplete i) := by
  refine Keeps.after ?_ hm' hq' h'
  clear hm' hq' h'
  unfold State.fillComplete
  with_reducible repeat' first
    | assumption | exact Keeps.refl _ | (apply Keeps.unflag; rotate_left; decide)
    | (apply State.modMemory_after; rotate_left; decide; decide) | apply Keeps.ite | apply Keeps.ite_fst
    | apply Keeps.ite_snd | (intro) | split | dsimp only

/-! ### Session -/

theorem State.setCore_after {m' q' : Nat} {u' : State} {s : State} {c v : Nat} (h' : Keeps m' q' u' s)
    (hm' : Nat.lor 0x800000000000000000000000000000000000000000000000000000000000000000000000000000000000000000000000000000000000000000000000000000000000000000000000000000000000000 m' = m') (hq' : Nat.lor 0x0 q' = q') : Keeps m' q' u' (s.setCore c v) := by
  refine Keeps.after ?_ hm' hq' h'
  clear hm' hq' h'
  unfold State.setCore
  with_reducible repeat' first
    | assumption | exact Keeps.refl _ | (apply Keeps.wr; rotate_left; decide) | (intro) | split | dsimp only

theorem State.coresDegr_after {m' q' : Nat} {u' : State} {s : State} (h' : Keeps m' q' u' s)
    (hm' : Nat.lor 0x38000000000000000000000000000000000000000000000000000000000000000000000000000000000000000000000000000000000000000000000000000000000000000000000000000000000000000000000000000000000 m' = m') (hq' : Nat.lor 0x10c2000 q' = q') : Keeps m' q' u' (s.coresDegr) := by
  refine Keeps.after ?_ hm' hq' h'
  clear hm' hq' h'
  unfold State.coresDegr
  with_reducible repeat' first
    | assumption | exact Keeps.refl _ | (apply State.setDegr_after; rotate_left; decide; decide) | (intro) | split
    | dsimp only

theorem State.scheduleTasks_after {m' q' : Nat} {u' : State} {s : State} {far : Nat → Bool} (h' : Keeps m' q' u' s)
    (hm' : Nat.lor 0x0 m' = m') (hq' : Nat.lor 0x40000 q' = q') : Keeps m' q' u' (s.scheduleTasks far) := by
  refine Keeps.after ?_ hm' hq' h'
  clear hm' hq' h'
  unfold State.scheduleTasks
  with_reducible repeat' first
    | assumption | exact Keeps.refl _ | apply Keeps.ite | apply Keeps.ite_fst | apply Keeps.ite_snd | (intro) | split
    | dsimp only | (apply Keeps.with_bur; rotate_left; decide)

theorem State.moveTasks_after {m' q' : Nat} {u' : State} {s : State} {c : Nat} {clusterFault : Bool} (h' : Keeps m' q' u' s)
    (hm' : Nat.lor 0x80000000000000000000000000000000000000000000000000000000000000000000000000000000000000000000000000000000000000000000000000000000000000000000000000000000000000000 m' = m') (hq' : Nat.lor 0x40000 q' = q') : Keeps m' q' u' (s.moveTasks c clusterFault) := by
  refine Keeps.after ?_ hm' hq' h'
  clear hm' hq' h'
  unfold State.moveTasks
  with_reducible repeat' first
    | assumption | exact Keeps.refl _ | (apply Keeps.bump; rotate_left; decide)
    | (apply State.scheduleTasks_after; rotate_left; decide; decide) | apply Keeps.ite | apply Keeps.ite_fst
    | apply Keeps.ite_snd | apply Keeps.foldl | apply Keeps.foldl_snd | apply Keeps.foldl_fst | (intro) | split | dsimp only
    | (apply Keeps.with_bur; rotate_left; decide)

theorem State.goStandby_after {m' q' : Nat} {u' : State} {s : State} (h' : Keeps m' q' u' s)
    (hm' : Nat.lor 0x1800000000000000000010000000000000000000000000001800000000000000000000000000009160000000000000000000400000300000000000000000014000000000000000000000000801c000004c00000000000000000 m' = m') (hq' : Nat.lor 0x10c6cc0 q' = q') : Keeps m' q' u' (s.goStandby) := by
  refine Keeps.after ?_ hm' hq' h'
  clear hm' hq' h'
  unfold State.goStandby
  with_reducible repeat' first
    | assumption | exact Keeps.refl _ | (apply State.refreshMode_after; rotate_left; decide; decide)
    | (apply State.requestRetract_after; rotate_left; decide; decide)
    | (apply State.speStopOp_after; rotate_left; decide; decide) | apply Keeps.onStr | apply Keeps.foldl
    | apply Keeps.foldl_snd | apply Keeps.foldl_fst | (intro) | split | dsimp only
    | (apply Keeps.with_power; rotate_left; decide)

theorem State.sceResume_after {m' q' : Nat} {u' : State} {s : State} {x : Str} (h' : Keeps m' q' u' s)
    (hm' : Nat.lor 0x4000000000000000000000000 m' = m') (hq' : Nat.lor 0x0 q' = q') : Keeps m' q' u' (s.sceResume x) := by
  refine Keeps.after ?_ hm' hq' h'
  clear hm' hq' h'
  unfold State.sceResume
  with_reducible repeat' first
    | assumption | exact Keeps.refl _ | (apply Keeps.wr; rotate_left; decide) | apply Keeps.when | (intro) | split
    | dsimp only

theorem State.resumeEngines_after {m' q' : Nat} {u' : State} {s : State} (h' : Keeps m' q' u' s)
    (hm' : Nat.lor 0x10000000000000000000000000000000000000000000000000000000000000000000000000000000000000000000000000000000000000000000000000000000000000000000000000000000000000000000000000000000004000000000000000000000000 m' = m') (hq' : Nat.lor 0x840000 q' = q') : Keeps m' q' u' (s.resumeEngines) := by
  refine Keeps.after ?_ hm' hq' h'
  clear hm' hq' h'
  unfold State.resumeEngines
  with_reducible repeat' first
    | assumption | exact Keeps.refl _ | (apply Keeps.wr; rotate_left; decide)
    | (apply State.sceResume_after; rotate_left; decide; decide)
    | (apply State.scheduleTasks_after; rotate_left; decide; decide) | apply Keeps.foldl | apply Keeps.foldl_snd
    | apply Keeps.foldl_fst | (intro) | split | dsimp only | (apply Keeps.with_bench; rotate_left; decide)

theorem State.closeSession_after {m' q' : Nat} {u' : State} {s : State} (h' : Keeps m' q' u' s)
    (hm' : Nat.lor 0x10400000000000000000000000000000000000000000000000000000000000000000000000000000000000000000000000000000000000000000000000000000000000000000000000000000000000000000000000000000004000000000000000000000000 m' = m') (hq' : Nat.lor 0x840000 q' = q') : Keeps m' q' u' (s.closeSession) := by
  refine Keeps.after ?_ hm' hq' h'
  clear hm' hq' h'
  unfold State.closeSession
  with_reducible repeat' first
    | assumption | exact Keeps.refl _ | (apply Keeps.unflag; rotate_left; decide)
    | (apply State.modBur_after; rotate_left; decide; decide)
    | (apply State.resumeEngines_after; rotate_left; decide; decide) | apply Keeps.ite | apply Keeps.ite_fst
    | apply Keeps.ite_snd | (intro) | split | dsimp only

theorem State.modLc_after {m' q' : Nat} {u' : State} {s : State} {f : LifeCycle → LifeCycle} (h' : Keeps m' q' u' s) (hq' : Nat.lor 0x400000 q' = q')
    (hs : ∀ k, s.lc.stage.testBit k = true → (f s.lc).stage.testBit k = true) (hc : s.lc.scrap = true → (f s.lc).scrap = true) :
    Keeps m' q' u' (s.modLc f) := h'.with_lc (bit_of hq' (by decide)) hs hc

theorem State.showLife_after {m' q' : Nat} {u' : State} {s : State} (h' : Keeps m' q' u' s)
    (hm' : Nat.lor 0x40000000000000000000000000000000000000000000000000000200000000000000000000000000000000000000000000000000000000000000000000000000000000000000000000000000000000000000000000000000000000000000000000000 m' = m') (hq' : Nat.lor 0x0 q' = q') : Keeps m' q' u' (s.showLife) := by
  refine Keeps.after ?_ hm' hq' h'
  clear hm' hq' h'
  unfold State.showLife
  with_reducible repeat' first
    | assumption | exact Keeps.refl _ | (apply Keeps.wr; rotate_left; decide) | (intro) | split | dsimp only

theorem State.blowHashes_after {m' q' : Nat} {u' : State} {s : State} {first : Nat} {ws : List Nat} (h' : Keeps m' q' u' s)
    (hm' : Nat.lor 0x200000000000000000000000000000000000000000000000000000000000000000000000000000000000000000000000000000000000000000000000000000000000000000000000000000000000000000000000000000000000000000000000000000000 m' = m') (hq' : Nat.lor 0x0 q' = q') : Keeps m' q' u' (s.blowHashes first ws) := by
  refine Keeps.after ?_ hm' hq' h'
  clear hm' hq' h'
  unfold State.blowHashes
  with_reducible repeat' first
    | assumption | exact Keeps.refl _ | (apply Keeps.wr; rotate_left; decide) | apply Keeps.foldl | apply Keeps.foldl_snd
    | apply Keeps.foldl_fst | (intro) | split | dsimp only

theorem State.blowIdentity_after {m' q' : Nat} {u' : State} {s : State} {l : List Nat} (h' : Keeps m' q' u' s)
    (hm' : Nat.lor 0x1f000000000000000000000000000000000000000000000000000000000000000000000000000000000000000000000000000000000000000000000000000000000000000000000000000000000000000000000000000000000000000000000000000000 m' = m') (hq' : Nat.lor 0x400000 q' = q') : Keeps m' q' u' (s.blowIdentity l) := by
  refine Keeps.after ?_ hm' hq' h'
  clear hm' hq' h'
  unfold State.blowIdentity
  with_reducible repeat' first
    | assumption | exact Keeps.refl _ | (apply Keeps.wr; rotate_left; decide)
    | (apply State.modLc_after; rotate_left; decide; first | exact fun _ h => h | (intro k h; simp [Nat.testBit_or, h]; done); first | exact fun h => h | exact fun _ => rfl)
    | apply Keeps.foldl | apply Keeps.foldl_snd | apply Keeps.foldl_fst | (intro) | split | dsimp only

theorem State.blow_after {m' q' : Nat} {u' : State} {s : State} {t : Transition} (h' : Keeps m' q' u' s)
    (hm' : Nat.lor 0x21f1c0000000000000000000000000000000000000000000000000000207e00000000000000000000000000000000000000000000000000000000000000000000000000000000000000000000000000000000000000000000000000000000000000000000 m' = m') (hq' : Nat.lor 0x40a000 q' = q') : Keeps m' q' u' (s.blow t) := by
  refine Keeps.after ?_ hm' hq' h'
  have or_kept (a b : Nat) : ∀ k, a.testBit k = true → (a ||| b).testBit k = true := fun k h => by rw [Nat.testBit_or, h, Bool.true_or]
  have step1 : ∀ u, Keeps 0x21f1c0000000000000000000000000000000000000000000000000000207e00000000000000000000000000000000000000000000000000000000000000000000000000000000000000000000000000000000000000000000000000000000000000000000 0x40a000 s u → Keeps 0x21f1c0000000000000000000000000000000000000000000000000000207e00000000000000000000000000000000000000000000000000000000000000000000000000000000000000000000000000000000000000000000000000000000000000000000 0x40a000 s ((u.showLife).when (t.target == 4 || t.target == 5) State.epochKeys) := fun u h =>
    (State.showLife_after h rfl rfl).when fun u h => State.epochKeys_after h rfl rfl
  unfold State.blow
  refine step1 _ ?_
  clear step1
  split
  · exact State.blowIdentity_after (State.blowHashes_after (State.modLc_after (Keeps.refl _) rfl (or_kept _ _) fun h => h) rfl rfl) rfl rfl
  · exact Keeps.with_cab (State.blowHashes_after (State.modLc_after (Keeps.refl _) rfl (or_kept _ _) fun h => h) rfl rfl) rfl
  · refine Keeps.ite (fun _ => (Keeps.refl _).wr rfl) fun _ => ?_
    exact State.modLc_after (Keeps.refl _) rfl (or_kept _ _) fun h => h
  · exact (Keeps.refl _).wr rfl
  · exact State.modLc_after (Keeps.refl _) rfl (fun _ h => h) fun _ => rfl

theorem State.lifeEffects_after {m' q' : Nat} {u' : State} {s : State} {t : Transition} (h' : Keeps m' q' u' s)
    (hm' : Nat.lor 0x10400000000000000000000018000000400000000000178001800007000000000007ffd01f80000f08000000400000000000009160000000000000000000400000300000000000000000014000000000000001000000000801c000004c00000000000000000 m' = m') (hq' : Nat.lor 0x18d6cc1 q' = q') : Keeps m' q' u' (s.lifeEffects t) := by
  refine Keeps.after ?_ hm' hq' h'
  clear hm' hq' h'
  unfold State.lifeEffects
  with_reducible repeat' first
    | assumption | exact Keeps.refl _ | (apply State.closeSession_after; rotate_left; decide; decide)
    | (apply State.goStandby_after; rotate_left; decide; decide)
    | (apply State.releaseStream_after; rotate_left; decide; decide)
    | (apply State.removeNamespace_after; rotate_left; decide; decide) | apply Keeps.ite | apply Keeps.ite_fst
    | apply Keeps.ite_snd | apply Keeps.foldl | apply Keeps.foldl_snd | apply Keeps.foldl_fst | (intro) | split | dsimp only

theorem State.intend_after {m' q' : Nat} {u' : State} {s : State} {t : Option Transition} (h' : Keeps m' q' u' s)
    (hm' : Nat.lor 0x800000000000000000000000000000000000000000000000000000000000007f3d000000000000000000000000000000000000000000000000000000000000000000000000000000000000000000000000000000000000000000000000000000000000 m' = m') (hq' : Nat.lor 0x404000 q' = q') : Keeps m' q' u' (s.intend t) := by
  refine Keeps.after ?_ hm' hq' h'
  clear hm' hq' h'
  unfold State.intend
  with_reducible repeat' first
    | assumption | exact Keeps.refl _ | (apply Keeps.setTo; rotate_left; decide)
    | (apply State.journal_after; rotate_left; decide; decide)
    | (apply State.modLc_after; rotate_left; decide; first | exact fun _ h => h | (intro k h; simp [Nat.testBit_or, h]; done); first | exact fun h => h | exact fun _ => rfl)
    | (intro) | split | dsimp only

theorem State.transit_after {m' q' : Nat} {u' : State} {s : State} {t : Transition} {steps : Nat} (h' : Keeps m' q' u' s)
    (hm' : Nat.lor 0x1061f9c0000000000000000018000000400000000000178001800007000207e00007ffd01f80000f08000000400000000000009160000000000000000000400000300000000000000000014000000000000001000000000801c000004c00000000000000000 m' = m') (hq' : Nat.lor 0x1cdecc1 q' = q') : Keeps m' q' u' (s.transit t steps) := by
  refine Keeps.after ?_ hm' hq' h'
  clear hm' hq' h'
  unfold State.transit
  with_reducible repeat' first
    | assumption | exact Keeps.refl _ | (apply State.blow_after; rotate_left; decide; decide)
    | (apply State.intend_after; rotate_left; decide; decide) | (apply State.lifeEffects_after; rotate_left; decide; decide)
    | apply Keeps.when | (intro) | split | dsimp only

theorem State.settleIntent_after {m' q' : Nat} {u' : State} {s : State} (h' : Keeps m' q' u' s)
    (hm' : Nat.lor 0x10400800000000000000000018000000400000000000178001800007000000000007ffd01f80000f08000000400000000000009160000000000000000000400000300000000000000000014000000000000001000000000801c000004c00000000000000000 m' = m') (hq' : Nat.lor 0x1cd6cc1 q' = q') : Keeps m' q' u' (s.settleIntent) := by
  refine Keeps.after ?_ hm' hq' h'
  clear hm' hq' h'
  unfold State.settleIntent
  with_reducible repeat' first
    | assumption | exact Keeps.refl _ | (apply State.intend_after; rotate_left; decide; decide)
    | (apply State.lifeEffects_after; rotate_left; decide; decide) | apply Keeps.when | (apply Keeps.of_eq_fst; assumption)
    | (apply Keeps.of_eq_snd; assumption) | (intro) | split | dsimp only

/-! ### Retract -/

theorem State.modPower_after {m' q' : Nat} {u' : State} {s : State} {f : Power → Power} (h' : Keeps m' q' u' s)
    (hm' : Nat.lor 0x0 m' = m') (hq' : Nat.lor 0x80000 q' = q') : Keeps m' q' u' (s.modPower f) := by
  refine Keeps.after ?_ hm' hq' h'
  clear hm' hq' h'
  unfold State.modPower
  with_reducible repeat' first
    | assumption | exact Keeps.refl _ | (intro) | split | dsimp only | (apply Keeps.with_power; rotate_left; decide)

theorem State.stopAtOnce_after {m' q' : Nat} {u' : State} {s : State} {x : Str} {q : SeqId} (h' : Keeps m' q' u' s)
    (hm' : Nat.lor 0x78001f00000000000000000000000000000000000000000000000000000000000000000000000000000000000000000000000000000000000000000000000000000000000000000000000000000000 m' = m') (hq' : Nat.lor 0x800 q' = q') : Keeps m' q' u' (s.stopAtOnce x q) := by
  refine Keeps.after ?_ hm' hq' h'
  clear hm' hq' h'
  unfold State.stopAtOnce
  with_reducible repeat' first
    | assumption | exact Keeps.refl _ | (apply Keeps.wr; rotate_left; decide) | (apply Keeps.unflag; rotate_left; decide)
    | (apply State.modSeq_after; rotate_left; decide; decide) | (apply State.sqRefresh_after; rotate_left; decide; decide)
    | (intro) | split | dsimp only

theorem State.cancelString_after {m' q' : Nat} {u' : State} {s : State} {x : Str} (h' : Keeps m' q' u' s)
    (hm' : Nat.lor 0x78001f00000000000000000000018000000000000000000000000000000000000000000000000004000003000000000000000000000000000000000000000000000000000000000000000000000000 m' = m') (hq' : Nat.lor 0x1800 q' = q') : Keeps m' q' u' (s.cancelString x) := by
  refine Keeps.after ?_ hm' hq' h'
  clear hm' hq' h'
  unfold State.cancelString
  with_reducible repeat' first
    | assumption | exact Keeps.refl _ | (apply State.dropSlots_after; rotate_left; decide; decide)
    | (apply State.modRch_after; rotate_left; decide; decide) | (apply State.modStr_after; rotate_left; decide; decide)
    | (apply State.stopAtOnce_after; rotate_left; decide; decide) | (intro) | split | dsimp only

theorem State.cancelShared_after {m' q' : Nat} {u' : State} {s : State} (h' : Keeps m' q' u' s)
    (hm' : Nat.lor 0x40000000000000000000000000000000000000000000000000000000000000000000000000000000000000000000000000000000000000000000000000000000000000000000 m' = m') (hq' : Nat.lor 0x179000 q' = q') : Keeps m' q' u' (s.cancelShared) := by
  refine Keeps.after ?_ hm' hq' h'
  clear hm' hq' h'
  unfold State.cancelShared
  with_reducible repeat' first
    | assumption | exact Keeps.refl _ | (apply Keeps.wr; rotate_left; decide)
    | (apply State.modBur_after; rotate_left; decide; decide) | (apply State.modCab_after; rotate_left; decide; decide)
    | (apply State.modHarp_after; rotate_left; decide; decide) | (apply State.modMemory_after; rotate_left; decide; decide)
    | (apply State.modPhv_after; rotate_left; decide; decide) | (apply Keeps.of_eq_fst; assumption)
    | (apply Keeps.of_eq_snd; assumption) | (intro) | split | dsimp only | (apply Keeps.with_cal; rotate_left; decide)

theorem State.flushRows_after {m' q' : Nat} {u' : State} {s : State} (h' : Keeps m' q' u' s)
    (hm' : Nat.lor 0x7f39000000000000000000000000000000000000000000000000000000000000000000000000000000000000000000000000000000000000000000000000000000000000 m' = m') (hq' : Nat.lor 0x4000 q' = q') : Keeps m' q' u' (s.flushRows) := by
  refine Keeps.after ?_ hm' hq' h'
  clear hm' hq' h'
  unfold State.flushRows
  with_reducible repeat' first
    | assumption | exact Keeps.refl _ | (apply Keeps.unflag; rotate_left; decide)
    | (apply State.makeRow_after; rotate_left; decide; decide) | (apply State.modBridge_after; rotate_left; decide; decide)
    | apply Keeps.foldl | apply Keeps.foldl_snd | apply Keeps.foldl_fst | (intro) | split | dsimp only

theorem State.onlyDomains_after {m' q' : Nat} {u' : State} {s : State} {keep : List Nat} (h' : Keeps m' q' u' s)
    (hm' : Nat.lor 0x400000000000000000000000000000000000000000000000000000000000000000000000000000000000000000000000000000000000000000000000000000000000000000000000000000000000000000000000000000000000000 m' = m') (hq' : Nat.lor 0x0 q' = q') : Keeps m' q' u' (s.onlyDomains keep) := by
  refine Keeps.after ?_ hm' hq' h'
  clear hm' hq' h'
  unfold State.onlyDomains
  with_reducible repeat' first
    | assumption | exact Keeps.refl _ | (apply Keeps.wr; rotate_left; decide) | apply Keeps.foldl | apply Keeps.foldl_snd
    | apply Keeps.foldl_fst | (intro) | split | dsimp only

theorem State.zeroDrive_after {m' q' : Nat} {u' : State} {s : State} {x : Str} (h' : Keeps m' q' u' s)
    (hm' : Nat.lor 0x180000000000000000000000000000000000 m' = m') (hq' : Nat.lor 0x800 q' = q') : Keeps m' q' u' (s.zeroDrive x) := by
  refine Keeps.after ?_ hm' hq' h'
  clear hm' hq' h'
  unfold State.zeroDrive
  with_reducible repeat' first
    | assumption | exact Keeps.refl _ | (apply Keeps.wr; rotate_left; decide)
    | (apply State.modSce_after; rotate_left; decide; decide) | (intro) | split | dsimp only

theorem State.startStep2_after {m' q' : Nat} {u' : State} {s : State} {x : Str} (h' : Keeps m' q' u' s)
    (hm' : Nat.lor 0x0 m' = m') (hq' : Nat.lor 0x800 q' = q') : Keeps m' q' u' (s.startStep2 x) := by
  refine Keeps.after ?_ hm' hq' h'
  clear hm' hq' h'
  unfold State.startStep2
  with_reducible repeat' first
    | assumption | exact Keeps.refl _ | (apply State.modSce_after; rotate_left; decide; decide) | apply Keeps.when | (intro)
    | split | dsimp only

theorem State.lossRetract_after {m' q' : Nat} {u' : State} {s : State} {x : Str} (h' : Keeps m' q' u' s)
    (hm' : Nat.lor 0x10000000000000000000000000001800000000000000000000000000009160000000000000000000400000300000000000000000014000000000000000018000000801c000000000000000000000000 m' = m') (hq' : Nat.lor 0x10068c0 q' = q') : Keeps m' q' u' (s.lossRetract x) := by
  refine Keeps.after ?_ hm' hq' h'
  clear hm' hq' h'
  unfold State.lossRetract
  with_reducible repeat' first
    | assumption | exact Keeps.refl _ | (apply Keeps.wr; rotate_left; decide)
    | (apply State.modSce_after; rotate_left; decide; decide)
    | (apply State.startRetract_after; rotate_left; decide; decide)
    | (apply State.startStep2_after; rotate_left; decide; decide)
    | (apply State.zeroDrive_after; rotate_left; decide; decide) | apply Keeps.when | apply Keeps.ite | apply Keeps.ite_fst
    | apply Keeps.ite_snd | (intro) | split | dsimp only

theorem State.harvest_after {m' q' : Nat} {u' : State} {s : State} (h' : Keeps m' q' u' s)
    (hm' : Nat.lor 0x18000000000000000000000000000000000000000000000000000000000000000000000000000000000000000000000000000000000000000000000000000000000000000000000000000000000000004c00000000000000000 m' = m') (hq' : Nat.lor 0x10c2400 q' = q') : Keeps m' q' u' (s.harvest) := by
  refine Keeps.after ?_ hm' hq' h'
  clear hm' hq' h'
  unfold State.harvest
  with_reducible repeat' first
    | assumption | exact Keeps.refl _ | (apply State.modSpe_after; rotate_left; decide; decide)
    | (apply State.setSpeState_after; rotate_left; decide; decide) | apply Keeps.ite | apply Keeps.ite_fst
    | apply Keeps.ite_snd | (intro) | split | dsimp only

theorem State.emergency_after {m' q' : Nat} {u' : State} {s : State} {vm t : Nat} (h' : Keeps m' q' u' s)
    (hm' : Nat.lor 0x104000000000000208005e0018000000000000000000178001f00000000000040007f3901800000000000000000000000000009160000000000000000000400000300000000000000000014000000000000000018000000801c000004c00000000000000000 m' = m') (hq' : Nat.lor 0x19ffcc0 q' = q') : Keeps m' q' u' (s.emergency vm t) := by
  refine Keeps.after ?_ hm' hq' h'
  clear hm' hq' h'
  unfold State.emergency
  with_reducible repeat' first
    | assumption | exact Keeps.refl _ | (apply Keeps.wr; rotate_left; decide) | (apply Keeps.flag; rotate_left; decide)
    | (apply Keeps.bump; rotate_left; decide) | (apply State.cancelShared_after; rotate_left; decide; decide)
    | (apply State.cancelString_after; rotate_left; decide; decide)
    | (apply State.chestRow_after; rotate_left; decide; decide)
    | (apply State.closeSession_after; rotate_left; decide; decide)
    | (apply State.flushRows_after; rotate_left; decide; decide) | (apply State.harvest_after; rotate_left; decide; decide)
    | (apply State.lossRetract_after; rotate_left; decide; decide)
    | (apply State.modBridge_after; rotate_left; decide; decide) | (apply State.modPower_after; rotate_left; decide; decide)
    | (apply State.modSpe_after; rotate_left; decide; decide) | (apply State.onlyDomains_after; rotate_left; decide; decide)
    | apply Keeps.onStr | apply Keeps.ite | apply Keeps.ite_fst | apply Keeps.ite_snd | apply Keeps.foldl
    | apply Keeps.foldl_snd | apply Keeps.foldl_fst | (intro) | split | dsimp only

theorem State.powerLoss_after {m' q' : Nat} {u' : State} {s : State} {v12 v5 : Bool} {vm t : Nat} (h' : Keeps m' q' u' s)
    (hm' : Nat.lor 0x10400000000000028e005e0018000000000000000000178001f00000000000040007f3901800000000000000000000000000009160000000000000000000400000300000000000000000014000000000000000018000000801c000004c00000000000000000 m' = m') (hq' : Nat.lor 0x19ffcd0 q' = q') : Keeps m' q' u' (s.powerLoss v12 v5 vm t) := by
  refine Keeps.after ?_ hm' hq' h'
  clear hm' hq' h'
  unfold State.powerLoss
  with_reducible repeat' first
    | assumption | exact Keeps.refl _ | (apply Keeps.setTo; rotate_left; decide)
    | (apply State.at_after; rotate_left; decide; decide) | (apply State.emergency_after; rotate_left; decide; decide)
    | apply Keeps.ite | apply Keeps.ite_fst | apply Keeps.ite_snd | (intro) | split | dsimp only

theorem State.retractStagger_after {m' q' : Nat} {u' : State} {s : State} {x : Str} {vm : Nat} (h' : Keeps m' q' u' s)
    (hm' : Nat.lor 0x0 m' = m') (hq' : Nat.lor 0x80800 q' = q') : Keeps m' q' u' (s.retractStagger x vm) := by
  refine Keeps.after ?_ hm' hq' h'
  clear hm' hq' h'
  unfold State.retractStagger
  with_reducible repeat' first
    | assumption | exact Keeps.refl _ | (apply State.modPower_after; rotate_left; decide; decide)
    | (apply State.modSce_after; rotate_left; decide; decide) | (apply State.startStep2_after; rotate_left; decide; decide)
    | apply Keeps.when | (intro) | split | dsimp only

theorem State.vmRecover_after {m' q' : Nat} {u' : State} {s : State} {vm : Nat} (h' : Keeps m' q' u' s)
    (hm' : Nat.lor 0x0 m' = m') (hq' : Nat.lor 0x80800 q' = q') : Keeps m' q' u' (s.vmRecover vm) := by
  refine Keeps.after ?_ hm' hq' h'
  clear hm' hq' h'
  unfold State.vmRecover
  with_reducible repeat' first
    | assumption | exact Keeps.refl _ | (apply State.modPower_after; rotate_left; decide; decide)
    | (apply State.modSce_after; rotate_left; decide; decide) | (apply State.startStep2_after; rotate_left; decide; decide)
    | apply Keeps.when | apply Keeps.foldl | apply Keeps.foldl_snd | apply Keeps.foldl_fst | (intro) | split | dsimp only

theorem State.retractOver_after {m' q' : Nat} {u' : State} {s : State} (h' : Keeps m' q' u' s)
    (hm' : Nat.lor 0x80000000000000000000000000000000000000000000000000000000000000000000000000000000000000000000000000000000000000000000000000000000000000000000000000000000000000000000000000000000000000 m' = m') (hq' : Nat.lor 0x400 q' = q') : Keeps m' q' u' (s.retractOver) := by
  refine Keeps.after ?_ hm' hq' h'
  clear hm' hq' h'
  unfold State.retractOver
  with_reducible repeat' first
    | assumption | exact Keeps.refl _ | (apply Keeps.wr; rotate_left; decide)
    | (apply State.modSpe_after; rotate_left; decide; decide) | apply Keeps.when | (apply Keeps.of_eq_fst; assumption)
    | (apply Keeps.of_eq_snd; assumption) | (intro) | split | dsimp only

/-! ### SerialNor -/

theorem State.discoverNor_after {m' q' : Nat} {u' : State} {s : State} {sfdp : List Nat} (h' : Keeps m' q' u' s)
    (hm' : Nat.lor 0x0 m' = m') (hq' : Nat.lor 0x400000 q' = q') : Keeps m' q' u' (s.discoverNor sfdp) := by
  refine Keeps.after ?_ hm' hq' h'
  clear hm' hq' h'
  unfold State.discoverNor
  with_reducible repeat' first
    | assumption | exact Keeps.refl _
    | (apply State.modLc_after; rotate_left; decide; first | exact fun _ h => h | (intro k h; simp [Nat.testBit_or, h]; done); first | exact fun h => h | exact fun _ => rfl)
    | (intro) | split | dsimp only

/-! ### Servo -/

theorem svd_format_rows (i : Nat) (h : i < 6) : (Blk.svd.rows.filter fun r => r.off == 4 + 4 * i).all (fun r => Nat.testBit 0xfffff0000000000000000000000000000000000000000 r.reg.ctorIdx) = true := by
  obtain rfl | rfl | rfl | rfl | rfl | rfl : i = 0 ∨ i = 1 ∨ i = 2 ∨ i = 3 ∨ i = 4 ∨ i = 5 := by omega
  all_goals rfl

theorem State.formatWrite_after {m' q' : Nat} {u' : State} {s : State} {x : Str} {index v : Nat} (h' : Keeps m' q' u' s)
    (hm' : Nat.lor 0x1020fffff0000000000000000000000000000000000000000 m' = m') (hq' : Nat.lor 0x0 q' = q') : Keeps m' q' u' (s.formatWrite x index v) := by
  refine Keeps.after ?_ hm' hq' h'
  unfold State.formatWrite
  split
  · exact Keeps.refl _
  · split
    · exact (Keeps.refl _).flag rfl
    · refine Keeps.setTo ?_ rfl
      have hl := List.all_eq_true.mp (svd_format_rows index (by omega))
      unfold State.putFields
      revert hl
      generalize (Blk.svd.rows.filter fun r => r.off == 4 + 4 * index) = l
      have : ∀ (t : State), Keeps 0x1020fffff0000000000000000000000000000000000000000 0x0 s t → (∀ r ∈ l, Nat.testBit 0xfffff0000000000000000000000000000000000000000 r.reg.ctorIdx = true) →
          Keeps 0x1020fffff0000000000000000000000000000000000000000 0x0 s (l.foldl (fun s r => s.wr r.reg (v / 2 ^ r.lo % 2 ^ r.width) x.ix) t) := by
        induction l with
        | nil => intro t h _; exact h
        | cons r l ih =>
          intro t h hl
          exact ih _ (h.wr (bit_of (show Nat.lor 0xfffff0000000000000000000000000000000000000000 0x1020fffff0000000000000000000000000000000000000000 = 0x1020fffff0000000000000000000000000000000000000000 from rfl) (hl r List.mem_cons_self))) (fun a ha => hl a (List.mem_cons_of_mem _ ha))
      exact fun hl => this s (Keeps.refl _) hl

theorem State.openWindow_after {m' q' : Nat} {u' : State} {s : State} {x : Str} (h' : Keeps m' q' u' s)
    (hm' : Nat.lor 0x0 m' = m') (hq' : Nat.lor 0x800 q' = q') : Keeps m' q' u' (s.openWindow x) := by
  refine Keeps.after ?_ hm' hq' h'
  clear hm' hq' h'
  unfold State.openWindow
  with_reducible repeat' first
    | assumption | exact Keeps.refl _ | (apply State.modSvd_after; rotate_left; decide; decide) | (intro) | split
    | dsimp only

theorem State.predictSam_after {m' q' : Nat} {u' : State} {s : State} {x : Str} {last fret : Nat} (h' : Keeps m' q' u' s)
    (hm' : Nat.lor 0x2000000000000000000000000000000000000 m' = m') (hq' : Nat.lor 0x800 q' = q') : Keeps m' q' u' (s.predictSam x last fret) := by
  refine Keeps.after ?_ hm' hq' h'
  clear hm' hq' h'
  unfold State.predictSam
  with_reducible repeat' first
    | assumption | exact Keeps.refl _ | (apply Keeps.wr; rotate_left; decide)
    | (apply State.modSvd_after; rotate_left; decide; decide) | apply Keeps.when | (intro) | split | dsimp only

theorem State.samToTiming_after {m' q' : Nat} {u' : State} {s : State} {x : Str} {t : Nat} (h' : Keeps m' q' u' s)
    (hm' : Nat.lor 0x1000001e000 m' = m') (hq' : Nat.lor 0xb00 q' = q') : Keeps m' q' u' (s.samToTiming x t) := by
  refine Keeps.after ?_ hm' hq' h'
  clear hm' hq' h'
  unfold State.samToTiming
  with_reducible repeat' first
    | assumption | exact Keeps.refl _ | (apply Keeps.wr; rotate_left; decide)
    | (apply State.modSvd_after; rotate_left; decide; decide)
    | (apply State.refreshSkewNs_after; rotate_left; decide; decide)
    | (apply State.skewSample_after; rotate_left; decide; decide) | apply Keeps.when | (apply Keeps.of_eq_fst; assumption)
    | (apply Keeps.of_eq_snd; assumption) | (intro) | split | dsimp only

theorem State.countWedge_after {m' q' : Nat} {u' : State} {s : State} {x : Str} (h' : Keeps m' q' u' s)
    (hm' : Nat.lor 0x0 m' = m') (hq' : Nat.lor 0x200 q' = q') : Keeps m' q' u' (s.countWedge x) := by
  refine Keeps.after ?_ hm' hq' h'
  clear hm' hq' h'
  unfold State.countWedge
  with_reducible repeat' first
    | assumption | exact Keeps.refl _ | (apply State.modCapo_after; rotate_left; decide; decide) | apply Keeps.when
    | (intro) | split | dsimp only

theorem State.svdBoundary_after {m' q' : Nat} {u' : State} {s : State} {x : Str} (h' : Keeps m' q' u' s)
    (hm' : Nat.lor 0x1000000000000000000000003ffffffffffff000000000000000000000000000000000000000 m' = m') (hq' : Nat.lor 0x1 q' = q') : Keeps m' q' u' (s.svdBoundary x) := by
  refine Keeps.after ?_ hm' hq' h'
  clear hm' hq' h'
  unfold State.svdBoundary
  with_reducible repeat' first
    | assumption | exact Keeps.refl _ | (apply State.boundary_after; rotate_left; decide; decide)
    | (apply State.refreshRate_after; rotate_left; decide; decide) | (intro) | split | dsimp only

theorem State.setWedge_after {m' q' : Nat} {u' : State} {s : State} {x : Str} {w : Nat} (h' : Keeps m' q' u' s)
    (hm' : Nat.lor 0x4000000000000000000000000000000000000000000000000 m' = m') (hq' : Nat.lor 0x2800 q' = q') : Keeps m' q' u' (s.setWedge x w) := by
  refine Keeps.after ?_ hm' hq' h'
  clear hm' hq' h'
  unfold State.setWedge
  with_reducible repeat' first
    | assumption | exact Keeps.refl _ | (apply Keeps.wr; rotate_left; decide)
    | (apply State.modHost_after; rotate_left; decide; decide) | (apply State.modSvd_after; rotate_left; decide; decide)
    | apply Keeps.when | (intro) | split | dsimp only

theorem State.samSearch_after {m' q' : Nat} {u' : State} {s : State} {x : Str} {d : SamIn} {time : Nat} (h' : Keeps m' q' u' s)
    (hm' : Nat.lor 0x1000000000000000000000003ffffffffffff002000000000000000000000000000000000000 m' = m') (hq' : Nat.lor 0x2801 q' = q') : Keeps m' q' u' (s.samSearch x d time) := by
  refine Keeps.after ?_ hm' hq' h'
  clear hm' hq' h'
  unfold State.samSearch
  with_reducible repeat' first
    | assumption | exact Keeps.refl _ | (apply Keeps.wr; rotate_left; decide)
    | (apply State.modSvd_after; rotate_left; decide; decide) | (apply State.predictSam_after; rotate_left; decide; decide)
    | (apply State.seqSam_after; rotate_left; decide; decide) | (apply State.setWedge_after; rotate_left; decide; decide)
    | (apply State.svdBoundary_after; rotate_left; decide; decide) | (apply Keeps.of_eq_fst; assumption)
    | (apply Keeps.of_eq_snd; assumption) | (intro) | split | dsimp only

theorem State.backToSearch_after {m' q' : Nat} {u' : State} {s : State} {x : Str} (h' : Keeps m' q' u' s)
    (hm' : Nat.lor 0x8000000000000000000000000000000000000000003a00 m' = m') (hq' : Nat.lor 0x900 q' = q') : Keeps m' q' u' (s.backToSearch x) := by
  refine Keeps.after ?_ hm' hq' h'
  clear hm' hq' h'
  unfold State.backToSearch
  with_reducible repeat' first
    | assumption | exact Keeps.refl _ | (apply Keeps.wr; rotate_left; decide)
    | (apply State.modSvd_after; rotate_left; decide; decide) | (apply State.syncLost_after; rotate_left; decide; decide)
    | apply Keeps.when | (intro) | split | dsimp only

theorem State.reachSync_after {m' q' : Nat} {u' : State} {s : State} {x : Str} (h' : Keeps m' q' u' s)
    (hm' : Nat.lor 0x18000000000000000000100000000000000000000000000018000000000000000000000000000000000000000000000000004000003000000000000000000280000008000000ffffffffffffffff00000000000000000003800 m' = m') (hq' : Nat.lor 0x10c2901 q' = q') : Keeps m' q' u' (s.reachSync x) := by
  refine Keeps.after ?_ hm' hq' h'
  clear hm' hq' h'
  unfold State.reachSync
  with_reducible repeat' first
    | assumption | exact Keeps.refl _ | (apply Keeps.wr; rotate_left; decide)
    | (apply State.enterSeekFromLoading_after; rotate_left; decide; decide)
    | (apply State.modSce_after; rotate_left; decide; decide) | (apply State.sceBoundary_after; rotate_left; decide; decide)
    | (apply State.syncGained_after; rotate_left; decide; decide) | apply Keeps.when | (intro) | split | dsimp only

theorem State.samDeviation_after {m' q' : Nat} {u' : State} {s : State} {x : Str} {time : Nat} (h' : Keeps m' q' u' s)
    (hm' : Nat.lor 0x8000000000000000000000000000091600000000000000000000000000000000000000000000100100800000000000000000000010000000000000000000000000 m' = m') (hq' : Nat.lor 0x6800 q' = q') : Keeps m' q' u' (s.samDeviation x time) := by
  refine Keeps.after ?_ hm' hq' h'
  clear hm' hq' h'
  unfold State.samDeviation
  with_reducible repeat' first
    | assumption | exact Keeps.refl _ | (apply Keeps.wr; rotate_left; decide) | (apply Keeps.flag; rotate_left; decide)
    | (apply State.assertWinh_after; rotate_left; decide; decide) | (apply State.modSvd_after; rotate_left; decide; decide)
    | apply Keeps.when | (intro) | split | dsimp only

theorem State.samConfirm_after {m' q' : Nat} {u' : State} {s : State} {x : Str} {d : SamIn} {time : Nat} {iVcm : Int} (h' : Keeps m' q' u' s)
    (hm' : Nat.lor 0x18000000000000000000100000000000000000000000000018000000000000000000000000000091600000000000000000004001003000000000000000000383ffffffffffffffffffffffffffff00000000000000000003a00 m' = m') (hq' : Nat.lor 0x10c6901 q' = q') : Keeps m' q' u' (s.samConfirm x d time iVcm) := by
  refine Keeps.after ?_ hm' hq' h'
  clear hm' hq' h'
  unfold State.samConfirm
  with_reducible repeat' first
    | assumption | exact Keeps.refl _ | (apply State.backToSearch_after; rotate_left; decide; decide)
    | (apply State.modSvd_after; rotate_left; decide; decide) | (apply State.predictSam_after; rotate_left; decide; decide)
    | (apply State.reachSync_after; rotate_left; decide; decide) | (apply State.sceSam_after; rotate_left; decide; decide)
    | (apply State.seqSam_after; rotate_left; decide; decide) | (apply State.setWedge_after; rotate_left; decide; decide)
    | (apply State.svdBoundary_after; rotate_left; decide; decide) | apply Keeps.when | apply Keeps.ite
    | apply Keeps.ite_fst | apply Keeps.ite_snd | (intro) | split | dsimp only

theorem State.samNumber_after {m' q' : Nat} {u' : State} {s : State} {x : Str} {d : SamIn} (h' : Keeps m' q' u' s)
    (hm' : Nat.lor 0x4440000000000000000000000000000000000000000000000 m' = m') (hq' : Nat.lor 0x2800 q' = q') : Keeps m' q' u' (s.samNumber x d) := by
  refine Keeps.after ?_ hm' hq' h'
  clear hm' hq' h'
  unfold State.samNumber
  with_reducible repeat' first
    | assumption | exact Keeps.refl _ | (apply Keeps.flag; rotate_left; decide)
    | (apply State.modSvd_after; rotate_left; decide; decide) | (apply State.setWedge_after; rotate_left; decide; decide)
    | apply Keeps.ite | apply Keeps.ite_fst | apply Keeps.ite_snd | (apply Keeps.of_eq_fst; assumption)
    | (apply Keeps.of_eq_snd; assumption) | (intro) | split | dsimp only

theorem State.samSync_after {m' q' : Nat} {u' : State} {s : State} {x : Str} {d : SamIn} {time : Nat} {iVcm : Int} (h' : Keeps m' q' u' s)
    (hm' : Nat.lor 0x100000000000000000000000000018000000000000000000000000000091600000000000000000004001003000000000000000000383ffffffffffffffffffffffffffff0000000000001000001e000 m' = m') (hq' : Nat.lor 0x1006b01 q' = q') : Keeps m' q' u' (s.samSync x d time iVcm) := by
  refine Keeps.after ?_ hm' hq' h'
  clear hm' hq' h'
  unfold State.samSync
  with_reducible repeat' first
    | assumption | exact Keeps.refl _ | (apply State.countWedge_after; rotate_left; decide; decide)
    | (apply State.modSvd_after; rotate_left; decide; decide) | (apply State.predictSam_after; rotate_left; decide; decide)
    | (apply State.samNumber_after; rotate_left; decide; decide)
    | (apply State.samToTiming_after; rotate_left; decide; decide) | (apply State.sceSam_after; rotate_left; decide; decide)
    | (apply State.seqSam_after; rotate_left; decide; decide) | (apply State.svdBoundary_after; rotate_left; decide; decide)
    | apply Keeps.ite | apply Keeps.ite_fst | apply Keeps.ite_snd | (intro) | split | dsimp only

theorem State.samLatched_after {m' q' : Nat} {u' : State} {s : State} {x : Str} {readers : List SamIn} {iVcm : Int} (h' : Keeps m' q' u' s)
    (hm' : Nat.lor 0x8000000018000000000000000000100000000000000000000000000018000000000000000000000000000091600000000000000000004001003000000000000000000383ffffffffffffffffffffffffffff0000000000001000001fa00 m' = m') (hq' : Nat.lor 0x10c6b11 q' = q') : Keeps m' q' u' (s.samLatched x readers iVcm) := by
  refine Keeps.after ?_ hm' hq' h'
  clear hm' hq' h'
  unfold State.samLatched
  with_reducible repeat' first
    | assumption | exact Keeps.refl _ | (apply Keeps.wr; rotate_left; decide) | (apply Keeps.flag; rotate_left; decide)
    | (apply State.at_after; rotate_left; decide; decide) | (apply State.openWindow_after; rotate_left; decide; decide)
    | (apply State.samConfirm_after; rotate_left; decide; decide)
    | (apply State.samDeviation_after; rotate_left; decide; decide)
    | (apply State.samSearch_after; rotate_left; decide; decide) | (apply State.samSync_after; rotate_left; decide; decide)
    | apply Keeps.when | apply Keeps.ite | apply Keeps.ite_fst | apply Keeps.ite_snd | (apply Keeps.of_eq_fst; assumption)
    | (apply Keeps.of_eq_snd; assumption) | (intro) | split | dsimp only

theorem State.missedSam_after {m' q' : Nat} {u' : State} {s : State} {x : Str} (h' : Keeps m' q' u' s)
    (hm' : Nat.lor 0x8000000000000000000000000000100000000000000000000000000018000000000000000000000000000091600000000000000000004001003000000000000000000383ffffffffffffffffffffffffffff00000000000000000013a00 m' = m') (hq' : Nat.lor 0x1006b11 q' = q') : Keeps m' q' u' (s.missedSam x) := by
  refine Keeps.after ?_ hm' hq' h'
  clear hm' hq' h'
  unfold State.missedSam
  with_reducible repeat' first
    | assumption | exact Keeps.refl _ | (apply Keeps.bump; rotate_left; decide)
    | (apply State.at_after; rotate_left; decide; decide) | (apply State.backToSearch_after; rotate_left; decide; decide)
    | (apply State.countWedge_after; rotate_left; decide; decide) | (apply State.modSvd_after; rotate_left; decide; decide)
    | (apply State.openWindow_after; rotate_left; decide; decide)
    | (apply State.predictSam_after; rotate_left; decide; decide)
    | (apply State.refreshSkewNs_after; rotate_left; decide; decide)
    | (apply State.sceSam_after; rotate_left; decide; decide) | (apply State.seqSam_after; rotate_left; decide; decide)
    | (apply State.setWedge_after; rotate_left; decide; decide)
    | (apply State.svdBoundary_after; rotate_left; decide; decide)
    | (apply State.wedgeLost_after; rotate_left; decide; decide) | apply Keeps.when | apply Keeps.ite | apply Keeps.ite_fst
    | apply Keeps.ite_snd | (intro) | split | dsimp only

theorem State.preambleGate_after {m' q' : Nat} {u' : State} {s : State} {x : Str} (h' : Keeps m' q' u' s)
    (hm' : Nat.lor 0x8000000000000000000000000000091600000000000000000000000000000000000000000000000000000000000000000000000000000000000000000000000000 m' = m') (hq' : Nat.lor 0x6800 q' = q') : Keeps m' q' u' (s.preambleGate x) := by
  refine Keeps.after ?_ hm' hq' h'
  clear hm' hq' h'
  unfold State.preambleGate
  with_reducible repeat' first
    | assumption | exact Keeps.refl _ | (apply Keeps.unflag; rotate_left; decide)
    | (apply State.cutOpen_after; rotate_left; decide; decide) | (apply State.modSlot_after; rotate_left; decide; decide)
    | (apply State.modSvd_after; rotate_left; decide; decide) | apply Keeps.when | apply Keeps.ite | apply Keeps.ite_fst
    | apply Keeps.ite_snd | (apply Keeps.of_eq_fst; assumption) | (apply Keeps.of_eq_snd; assumption) | (intro) | split
    | dsimp only

theorem State.servoStep_after {m' q' : Nat} {u' : State} {s : State} {x : Str} {aPre : Nat} (h' : Keeps m' q' u' s)
    (hm' : Nat.lor 0x1f8000000000000000000000000000000000000000000000000000000000000000000000000000000 m' = m') (hq' : Nat.lor 0x0 q' = q') : Keeps m' q' u' (s.servoStep x aPre) := by
  refine Keeps.after ?_ hm' hq' h'
  clear hm' hq' h'
  unfold State.servoStep
  with_reducible repeat' first
    | assumption | exact Keeps.refl _ | (apply Keeps.wr; rotate_left; decide)
    | (apply Keeps.wr; rotate_left; (simp only [servoGain]; repeat' split) <;> decide) | apply Keeps.ite
    | apply Keeps.ite_fst | apply Keeps.ite_snd | (intro) | split | dsimp only

theorem State.sectorReference_after {m' q' : Nat} {u' : State} {s : State} {x : Str} (h' : Keeps m' q' u' s)
    (hm' : Nat.lor 0x4200000000000000000000000000000000000000000000000000000000000000000000000000000000000000000000000 m' = m') (hq' : Nat.lor 0x0 q' = q') : Keeps m' q' u' (s.sectorReference x) := by
  refine Keeps.after ?_ hm' hq' h'
  clear hm' hq' h'
  unfold State.sectorReference
  with_reducible repeat' first
    | assumption | exact Keeps.refl _ | (apply Keeps.flag; rotate_left; decide) | (apply Keeps.bump; rotate_left; decide)
    | apply Keeps.when | (intro) | split | dsimp only

theorem State.releaseInhibits_after {m' q' : Nat} {u' : State} {s : State} {x : Str} (h' : Keeps m' q' u' s)
    (hm' : Nat.lor 0x8000000000000000000000000000091600000000000000000000000000000000000000000000100000000000000000000000000010000002000000000020000000 m' = m') (hq' : Nat.lor 0x6e00 q' = q') : Keeps m' q' u' (s.releaseInhibits x) := by
  refine Keeps.after ?_ hm' hq' h'
  clear hm' hq' h'
  unfold State.releaseInhibits
  with_reducible repeat' first
    | assumption | exact Keeps.refl _ | (apply Keeps.unflag; rotate_left; decide)
    | (apply State.capoWinh_after; rotate_left; decide; decide)
    | (apply State.refreshInh_after; rotate_left; decide; decide)
    | (apply State.releaseCapoInhibit_after; rotate_left; decide; decide)
    | (apply State.setSpindleInhibit_after; rotate_left; decide; decide) | apply Keeps.when | (intro) | split | dsimp only

theorem State.secondFragment_after {m' q' : Nat} {u' : State} {s : State} {x : Str} (h' : Keeps m' q' u' s)
    (hm' : Nat.lor 0x8000000000000000000000000000091600000000000000000000000000000000000000000000000000000000000000000000000000000000000000000000000000 m' = m') (hq' : Nat.lor 0x6800 q' = q') : Keeps m' q' u' (s.secondFragment x) := by
  refine Keeps.after ?_ hm' hq' h'
  clear hm' hq' h'
  unfold State.secondFragment
  with_reducible repeat' first
    | assumption | exact Keeps.refl _ | (apply Keeps.flag; rotate_left; decide)
    | (apply State.cutOpen_after; rotate_left; decide; decide) | apply Keeps.ite | apply Keeps.ite_fst | apply Keeps.ite_snd
    | (apply Keeps.of_eq_fst; assumption) | (apply Keeps.of_eq_snd; assumption) | (intro) | split | dsimp only

theorem State.wedgeBoundary_after {m' q' : Nat} {u' : State} {s : State} {x : Str} {aPre : List Nat} (h' : Keeps m' q' u' s)
    (hm' : Nat.lor 0x80000000000000000000000000000916042000000000000001f8000000000000000000000000102000000000000000000000000010000002000000000020000000 m' = m') (hq' : Nat.lor 0x6e00 q' = q') : Keeps m' q' u' (s.wedgeBoundary x aPre) := by
  refine Keeps.after ?_ hm' hq' h'
  clear hm' hq' h'
  unfold State.wedgeBoundary
  with_reducible repeat' first
    | assumption | exact Keeps.refl _ | (apply Keeps.wr; rotate_left; decide)
    | (apply State.modSvd_after; rotate_left; decide; decide)
    | (apply State.releaseInhibits_after; rotate_left; decide; decide)
    | (apply State.secondFragment_after; rotate_left; decide; decide)
    | (apply State.sectorReference_after; rotate_left; decide; decide)
    | (apply State.seqWedge_after; rotate_left; decide; decide) | (apply State.servoStep_after; rotate_left; decide; decide)
    | apply Keeps.when | (intro) | split | dsimp only

theorem State.demodulate_after {m' q' : Nat} {u' : State} {s : State} {x : Str} {d : DemodIn} (h' : Keeps m' q' u' s)
    (hm' : Nat.lor 0x78100000000000000000000000000000000000000000000000 m' = m') (hq' : Nat.lor 0x0 q' = q') : Keeps m' q' u' (s.demodulate x d).1 := by
  refine Keeps.after ?_ hm' hq' h'
  clear hm' hq' h'
  unfold State.demodulate
  with_reducible repeat' first
    | assumption | exact Keeps.refl _ | (apply Keeps.wr; rotate_left; decide) | (apply Keeps.flag; rotate_left; decide)
    | apply Keeps.when | apply Keeps.ite | apply Keeps.ite_fst | apply Keeps.ite_snd | (apply Keeps.of_eq_fst; assumption)
    | (apply Keeps.of_eq_snd; assumption) | (intro) | split | dsimp only

theorem State.runout_after {m' q' : Nat} {u' : State} {s : State} {x : Str} {d : DemodIn} (h' : Keeps m' q' u' s)
    (hm' : Nat.lor 0x80200000000000000000000000000000000000000000000000 m' = m') (hq' : Nat.lor 0x0 q' = q') : Keeps m' q' u' (s.runout x d).1 := by
  refine Keeps.after ?_ hm' hq' h'
  clear hm' hq' h'
  unfold State.runout
  with_reducible repeat' first
    | assumption | exact Keeps.refl _ | (apply Keeps.wr; rotate_left; decide) | (apply Keeps.flag; rotate_left; decide)
    | apply Keeps.ite | apply Keeps.ite_fst | apply Keeps.ite_snd | (apply Keeps.of_eq_fst; assumption)
    | (apply Keeps.of_eq_snd; assumption) | (intro) | split | dsimp only

theorem State.demodLatch_after {m' q' : Nat} {u' : State} {s : State} {x : Str} {readers : List DemodIn} (h' : Keeps m' q' u' s)
    (hm' : Nat.lor 0x80000000000000000000000000000916000000000000000000000000000000000000000000001004fa310000000e0324000000611c000000000000000000000000 m' = m') (hq' : Nat.lor 0x1866822 q' = q') : Keeps m' q' u' (s.demodLatch x readers) := by
  refine Keeps.after ?_ hm' hq' h'
  clear hm' hq' h'
  unfold State.demodLatch
  with_reducible repeat' first
    | assumption | exact Keeps.refl _ | (apply Keeps.wr; rotate_left; decide) | (apply Keeps.flag; rotate_left; decide)
    | (apply Keeps.unflag; rotate_left; decide) | (apply Keeps.bump; rotate_left; decide)
    | (apply State.demodulate_after; rotate_left; decide; decide) | (apply State.law_after; rotate_left; decide; decide)
    | (apply State.modSvd_after; rotate_left; decide; decide) | (apply State.predictSam_after; rotate_left; decide; decide)
    | (apply State.runout_after; rotate_left; decide; decide) | apply Keeps.when | apply Keeps.ite | apply Keeps.ite_fst
    | apply Keeps.ite_snd | (apply Keeps.of_eq_fst; assumption) | (apply Keeps.of_eq_snd; assumption) | (intro) | split
    | dsimp only

theorem State.svdAcq_after {m' q' : Nat} {u' : State} {s : State} {x : Str} (h' : Keeps m' q' u' s)
    (hm' : Nat.lor 0x600008000000000000000000000000000000000000000000000 m' = m') (hq' : Nat.lor 0x800 q' = q') : Keeps m' q' u' (s.svdAcq x).2 := by
  refine Keeps.after ?_ hm' hq' h'
  clear hm' hq' h'
  unfold State.svdAcq
  with_reducible repeat' first
    | assumption | exact Keeps.refl _ | (apply Keeps.wr; rotate_left; decide)
    | (apply State.svdSearch_after; rotate_left; decide; decide) | apply Keeps.ite | apply Keeps.ite_fst
    | apply Keeps.ite_snd | (intro) | split | dsimp only

/-! ### Power -/

theorem State.powerReset_after {m' q' : Nat} {u' : State} {s : State} {k : Bool} (h' : Keeps m' q' u' s)
    (hm' : Nat.lor 0x3fffffffffffffffffffffffffffffffffffffffffffffffffffffffffffffffffffffffffffffffffffffffffffffffffffffffffffffffffffffffffffffffffffffffffffffffffffffffffffffffffffffffffffffffffffffffffffffffffffffffffff m' = m') (hq' : Nat.lor 0x1ffffff q' = q') : Keeps m' q' u' (s.powerReset k) := by
  refine Keeps.after ?_ hm' hq' h'
  unfold State.powerReset
  refine Keeps.foldl ?_ (fun u a h => State.setCore_after h rfl rfl)
  exact {
           regs := fun r j h => by rw [allRegs_self r] at h; exact absurd h (by decide)
           parts := fun p h => by cases p <;> first | rfl | exact absurd h (by decide)
           queue := rfl
           memory := fun h => memWf_filter _ _ h
           fuses := ⟨fun _ h => h, fun h => h⟩ }

theorem State.boot_after {m' q' : Nat} {u' : State} {s : State} (h' : Keeps m' q' u' s)
    (hm' : Nat.lor 0x1c0000000000000000000000000000000000000000000000000000000000000000000000000000000000000000000000000000000000000000000000000000000000000000000000000000000000000000000000000000000000000000000000000000000 m' = m') (hq' : Nat.lor 0x0 q' = q') : Keeps m' q' u' (s.boot) := by
  refine Keeps.after ?_ hm' hq' h'
  clear hm' hq' h'
  unfold State.boot
  with_reducible repeat' first
    | assumption | exact Keeps.refl _ | (apply Keeps.wr; rotate_left; decide) | (apply Keeps.flag; rotate_left; decide)
    | (apply Keeps.setTo; rotate_left; decide) | (apply Keeps.of_eq_fst; assumption) | (apply Keeps.of_eq_snd; assumption)
    | (intro) | split | dsimp only

theorem State.restoreUnits_after {m' q' : Nat} {u' : State} {s : State} (h' : Keeps m' q' u' s)
    (hm' : Nat.lor 0x60013800000000000000000007800180000000000000000000001c00000f080000000000000001800000000000000000007000004000003000000000000000000000000000000000000000000000000000000000000000000000000 m' = m') (hq' : Nat.lor 0x10c38c0 q' = q') : Keeps m' q' u' (s.restoreUnits) := by
  refine Keeps.after ?_ hm' hq' h'
  clear hm' hq' h'
  unfold State.restoreUnits
  with_reducible repeat' first
    | assumption | exact Keeps.refl _ | (apply Keeps.flag; rotate_left; decide)
    | (apply Keeps.unflagBit; rotate_left; decide) | (apply State.coresDegr_after; rotate_left; decide; decide)
    | (apply State.harpRefresh_after; rotate_left; decide; decide)
    | (apply State.logEvent_after; rotate_left; decide; decide) | (apply State.modHarp_after; rotate_left; decide; decide)
    | (apply State.scheduleTasks_after; rotate_left; decide; decide)
    | (apply State.setDegr_after; rotate_left; decide; decide)
    | (apply State.stringDomainsOff_after; rotate_left; decide; decide) | apply Keeps.when | apply Keeps.foldl
    | apply Keeps.foldl_snd | apply Keeps.foldl_fst | (intro) | split | dsimp only
    | (apply Keeps.with_bur; rotate_left; decide)

theorem State.restoreKeys_after {m' q' : Nat} {u' : State} {s : State} {p : PowerIn} (h' : Keeps m' q' u' s)
    (hm' : Nat.lor 0x38000000000000000000000000000000000107e30287f3d000000000000000000000000000000000000000000000000000000000000000000000000000000000000000000000000000000000000000000000000000000000000 m' = m') (hq' : Nat.lor 0x10ce0c0 q' = q') : Keeps m' q' u' (s.restoreKeys p) := by
  refine Keeps.after ?_ hm' hq' h'
  clear hm' hq' h'
  unfold State.restoreKeys
  with_reducible repeat' first
    | assumption | exact Keeps.refl _ | (apply State.katGo_after; rotate_left; decide; decide)
    | (apply State.modCab_after; rotate_left; decide; decide) | (apply State.modKeySlot_after; rotate_left; decide; decide)
    | (apply State.modNs_after; rotate_left; decide; decide) | (apply State.opsRefresh_after; rotate_left; decide; decide)
    | (apply State.slotEffect_after; rotate_left; decide; decide) | apply Keeps.ite | apply Keeps.ite_fst
    | apply Keeps.ite_snd | apply Keeps.foldl | apply Keeps.foldl_snd | apply Keeps.foldl_fst | (intro) | split | dsimp only

theorem State.lostVolatile_after {m' q' : Nat} {u' : State} {s : State} (h' : Keeps m' q' u' s)
    (hm' : Nat.lor 0x0 m' = m') (hq' : Nat.lor 0x20c0 q' = q') : Keeps m' q' u' (s.lostVolatile) := by
  refine Keeps.after ?_ hm' hq' h'
  clear hm' hq' h'
  unfold State.lostVolatile
  with_reducible repeat' first
    | assumption | exact Keeps.refl _ | (apply State.logEvent_after; rotate_left; decide; decide)
    | (apply State.modHost_after; rotate_left; decide; decide) | apply Keeps.foldl | apply Keeps.foldl_snd
    | apply Keeps.foldl_fst | (intro) | split | dsimp only

theorem State.replayLog_after {m' q' : Nat} {u' : State} {s : State} (h' : Keeps m' q' u' s)
    (hm' : Nat.lor 0x7ff9003000000000000000000000000000000000000000000000000000000000000000000000000000000000000000000000000000000000000000000000000000000000 m' = m') (hq' : Nat.lor 0x6000 q' = q') : Keeps m' q' u' (s.replayLog) := by
  refine Keeps.after ?_ hm' hq' h'
  clear hm' hq' h'
  unfold State.replayLog
  with_reducible repeat' first
    | assumption | exact Keeps.refl _ | (apply Keeps.wr; rotate_left; decide)
    | (apply State.dropVersions_after; rotate_left; decide; decide)
    | (apply State.logRefresh_after; rotate_left; decide; decide)
    | (apply State.modBridge_after; rotate_left; decide; decide) | (apply State.modHost_after; rotate_left; decide; decide)
    | (apply State.supersede_after; rotate_left; decide; decide) | apply Keeps.ite | apply Keeps.ite_fst
    | apply Keeps.ite_snd | apply Keeps.foldl | apply Keeps.foldl_snd | apply Keeps.foldl_fst | (intro) | split | dsimp only

theorem State.writePointers_after {m' q' : Nat} {u' : State} {s : State} (h' : Keeps m' q' u' s)
    (hm' : Nat.lor 0x0 m' = m') (hq' : Nat.lor 0x2000 q' = q') : Keeps m' q' u' (s.writePointers) := by
  refine Keeps.after ?_ hm' hq' h'
  clear hm' hq' h'
  unfold State.writePointers
  with_reducible repeat' first
    | assumption | exact Keeps.refl _ | (apply State.modHost_after; rotate_left; decide; decide) | apply Keeps.ite
    | apply Keeps.ite_fst | apply Keeps.ite_snd | (intro) | split | dsimp only

theorem State.startBridge_after {m' q' : Nat} {u' : State} {s : State} (h' : Keeps m' q' u' s)
    (hm' : Nat.lor 0x7ff9003840000000000000000000000000000000000000000000000000000000000000000000000000000000000000000000000000000000000000000000000000000000 m' = m') (hq' : Nat.lor 0x60c0 q' = q') : Keeps m' q' u' (s.startBridge) := by
  refine Keeps.after ?_ hm' hq' h'
  clear hm' hq' h'
  unfold State.startBridge
  with_reducible repeat' first
    | assumption | exact Keeps.refl _ | (apply State.bridgeGo_after; rotate_left; decide; decide)
    | (apply State.lostVolatile_after; rotate_left; decide; decide)
    | (apply State.replayLog_after; rotate_left; decide; decide)
    | (apply State.writePointers_after; rotate_left; decide; decide) | (intro) | split | dsimp only

theorem State.configString_after {m' q' : Nat} {u' : State} {s : State} {x : Str} (h' : Keeps m' q' u' s)
    (hm' : Nat.lor 0x1000000000e00400000000000000000000000000000000000 m' = m') (hq' : Nat.lor 0x0 q' = q') : Keeps m' q' u' (s.configString x) := by
  refine Keeps.after ?_ hm' hq' h'
  clear hm' hq' h'
  unfold State.configString
  with_reducible repeat' first
    | assumption | exact Keeps.refl _ | (apply Keeps.wr; rotate_left; decide) | (apply Keeps.setTo; rotate_left; decide)
    | (apply State.tableLoad_after; rotate_left; decide; decide) | apply Keeps.when | apply Keeps.foldl
    | apply Keeps.foldl_snd | apply Keeps.foldl_fst | (intro) | split | dsimp only

theorem State.applyConfig_after {m' q' : Nat} {u' : State} {s : State} {c : StoredConfig} (h' : Keeps m' q' u' s)
    (hm' : Nat.lor 0x3fffffffffffffffffffffffffffffffffffffffffffffffffffffffffffffffffffffffffffffffffffffffffffffffffffffffffffffffffffffffffffffffffffffffffffffffffffffffffffffffffffffffffffffffffffffffffffffffffffffffffff m' = m') (hq' : Nat.lor 0x40800 q' = q') : Keeps m' q' u' (s.applyConfig c) := by
  refine Keeps.after ?_ hm' hq' h'
  unfold State.applyConfig
  dsimp only
  refine Keeps.foldl ?_ (fun u a h => State.configString_after h rfl rfl)
  refine Keeps.foldl ?_ (fun u a h => State.modStr_after h rfl rfl)
  refine State.modBur_after ?_ rfl rfl
  exact {
           regs := fun r j h => by rw [allRegs_self r] at h; exact absurd h (by decide)
           parts := fun p h => by cases p <;> first | rfl | exact absurd h (by decide)
           queue := rfl
           memory := fun h => h
           fuses := ⟨fun _ h => h, fun h => h⟩ }

theorem State.configure_after {m' q' : Nat} {u' : State} {s : State} (h' : Keeps m' q' u' s)
    (hm' : Nat.lor 0x3fffffffffffffffffffffffffffffffffffffffffffffffffffffffffffffffffffffffffffffffffffffffffffffffffffffffffffffffffffffffffffffffffffffffffffffffffffffffffffffffffffffffffffffffffffffffffffffffffffffffffff m' = m') (hq' : Nat.lor 0x60800 q' = q') : Keeps m' q' u' (s.configure) := by
  refine Keeps.after ?_ hm' hq' h'
  clear hm' hq' h'
  unfold State.configure
  with_reducible repeat' first
    | assumption | exact Keeps.refl _ | (apply Keeps.unflag; rotate_left; decide)
    | (apply State.applyConfig_after; rotate_left; decide; decide)
    | (apply State.modMemory_after; rotate_left; decide; decide) | apply Keeps.foldl | apply Keeps.foldl_snd
    | apply Keeps.foldl_fst | (apply Keeps.of_eq_fst; assumption) | (apply Keeps.of_eq_snd; assumption) | (intro) | split
    | dsimp only

theorem State.spinUp_after {m' q' : Nat} {u' : State} {s : State} (h' : Keeps m' q' u' s)
    (hm' : Nat.lor 0x1800000000000000000000000000000000000000000000000000000000000000000000000000000000000000000000000000000000000000000000000000000000000000000000000000000000000c004c00000000000000000 m' = m') (hq' : Nat.lor 0x10c2400 q' = q') : Keeps m' q' u' (s.spinUp) := by
  refine Keeps.after ?_ hm' hq' h'
  clear hm' hq' h'
  unfold State.spinUp
  with_reducible repeat' first
    | assumption | exact Keeps.refl _ | (apply Keeps.wr; rotate_left; decide)
    | (apply State.modPower_after; rotate_left; decide; decide)
    | (apply State.speStartOp_after; rotate_left; decide; decide) | apply Keeps.ite | apply Keeps.ite_fst
    | apply Keeps.ite_snd | (intro) | split | dsimp only

theorem State.enterStandby_after {m' q' : Nat} {u' : State} {s : State} (h' : Keeps m' q' u' s)
    (hm' : Nat.lor 0x20000000000000000000018000000000000000000000000000000000000000007f3d00000000000000000000000000000000000000000000000000000000000000000000000000000000000000000000000000000000000000c004c00000000000000000 m' = m') (hq' : Nat.lor 0x10c6400 q' = q') : Keeps m' q' u' (s.enterStandby) := by
  refine Keeps.after ?_ hm' hq' h'
  clear hm' hq' h'
  unfold State.enterStandby
  with_reducible repeat' first
    | assumption | exact Keeps.refl _ | (apply Keeps.wr; rotate_left; decide)
    | (apply State.journal_after; rotate_left; decide; decide) | (apply State.spinUp_after; rotate_left; decide; decide)
    | apply Keeps.when | (intro) | split | dsimp only

theorem State.variantDomains_after {m' q' : Nat} {u' : State} {s : State} (h' : Keeps m' q' u' s)
    (hm' : Nat.lor 0x600000000000000000000000000000000000000000000000000000000000000000000000000000000000000000000000000000000000000000000000000000000000000000000000000000000000000000000000000000000000000 m' = m') (hq' : Nat.lor 0x0 q' = q') : Keeps m' q' u' (s.variantDomains) := by
  refine Keeps.after ?_ hm' hq' h'
  clear hm' hq' h'
  unfold State.variantDomains
  with_reducible repeat' first
    | assumption | exact Keeps.refl _ | (apply Keeps.unflagBit; rotate_left; decide) | apply Keeps.ite | apply Keeps.ite_fst
    | apply Keeps.ite_snd | apply Keeps.foldl | apply Keeps.foldl_snd | apply Keeps.foldl_fst | (intro) | split | dsimp only

theorem State.writeHeads_after {m' q' : Nat} {u' : State} {s : State} (h' : Keeps m' q' u' s)
    (hm' : Nat.lor 0x100000000000000000000000000000000000000 m' = m') (hq' : Nat.lor 0x0 q' = q') : Keeps m' q' u' (s.writeHeads) := by
  refine Keeps.after ?_ hm' hq' h'
  clear hm' hq' h'
  unfold State.writeHeads
  with_reducible repeat' first
    | assumption | exact Keeps.refl _ | (apply Keeps.wr; rotate_left; decide) | apply Keeps.onStr | apply Keeps.foldl
    | apply Keeps.foldl_snd | apply Keeps.foldl_fst | (intro) | split | dsimp only

theorem State.powerOn_after {m' q' : Nat} {u' : State} {s : State} {p : PowerIn} (h' : Keeps m' q' u' s)
    (hm' : Nat.lor 0x3fffffffffffffffffffffffffffffffffffffffffffffffffffffffffffffffffffffffffffffffffffffffffffffffffffffffffffffffffffffffffffffffffffffffffffffffffffffffffffffffffffffffffffffffffffffffffffffffffffffffffff m' = m') (hq' : Nat.lor 0x1ffffff q' = q') : Keeps m' q' u' (s.powerOn p) := by
  refine Keeps.after ?_ hm' hq' h'
  clear hm' hq' h'
  unfold State.powerOn
  with_reducible repeat' first
    | assumption | exact Keeps.refl _ | (apply Keeps.setTo; rotate_left; decide)
    | (apply State.boot_after; rotate_left; decide; decide) | (apply State.configure_after; rotate_left; decide; decide)
    | (apply State.discoverNor_after; rotate_left; decide; decide)
    | (apply State.enterStandby_after; rotate_left; decide; decide)
    | (apply State.modPower_after; rotate_left; decide; decide)
    | (apply State.powerReset_after; rotate_left; decide; decide)
    | (apply State.restoreKeys_after; rotate_left; decide; decide)
    | (apply State.restoreUnits_after; rotate_left; decide; decide)
    | (apply State.settleIntent_after; rotate_left; decide; decide)
    | (apply State.startBridge_after; rotate_left; decide; decide)
    | (apply State.variantDomains_after; rotate_left; decide; decide)
    | (apply State.writeHeads_after; rotate_left; decide; decide) | apply Keeps.ite | apply Keeps.ite_fst
    | apply Keeps.ite_snd | (intro) | split | dsimp only

theorem State.powerUp_after {m' q' : Nat} {u' : State} {s : State} {p : PowerIn} (h' : Keeps m' q' u' s)
    (hm' : Nat.lor 0x3fffffffffffffffffffffffffffffffffffffffffffffffffffffffffffffffffffffffffffffffffffffffffffffffffffffffffffffffffffffffffffffffffffffffffffffffffffffffffffffffffffffffffffffffffffffffffffffffffffffffffff m' = m') (hq' : Nat.lor 0x1ffffff q' = q') : Keeps m' q' u' (s.powerUp p) := by
  refine Keeps.after ?_ hm' hq' h'
  clear hm' hq' h'
  unfold State.powerUp
  with_reducible repeat' first
    | assumption | exact Keeps.refl _ | (apply State.modPower_after; rotate_left; decide; decide)
    | (apply State.powerOn_after; rotate_left; decide; decide) | apply Keeps.ite | apply Keeps.ite_fst | apply Keeps.ite_snd
    | (intro) | split | dsimp only

theorem State.supplyGood_after {m' q' : Nat} {u' : State} {s : State} {p : PowerIn} (h' : Keeps m' q' u' s)
    (hm' : Nat.lor 0x3fffffffffffffffffffffffffffffffffffffffffffffffffffffffffffffffffffffffffffffffffffffffffffffffffffffffffffffffffffffffffffffffffffffffffffffffffffffffffffffffffffffffffffffffffffffffffffffffffffffffffff m' = m') (hq' : Nat.lor 0x1ffffff q' = q') : Keeps m' q' u' (s.supplyGood p) := by
  refine Keeps.after ?_ hm' hq' h'
  clear hm' hq' h'
  unfold State.supplyGood
  with_reducible repeat' first
    | assumption | exact Keeps.refl _ | (apply Keeps.flag; rotate_left; decide)
    | (apply State.modPower_after; rotate_left; decide; decide) | (apply State.powerUp_after; rotate_left; decide; decide)
    | apply Keeps.when | apply Keeps.ite | apply Keeps.ite_fst | apply Keeps.ite_snd | (intro) | split | dsimp only

theorem State.retractEnd_after {m' q' : Nat} {u' : State} {s : State} (h' : Keeps m' q' u' s)
    (hm' : Nat.lor 0x3fffffffffffffffffffffffffffffffffffffffffffffffffffffffffffffffffffffffffffffffffffffffffffffffffffffffffffffffffffffffffffffffffffffffffffffffffffffffffffffffffffffffffffffffffffffffffffffffffffffffffff m' = m') (hq' : Nat.lor 0x1ffffff q' = q') : Keeps m' q' u' (s.retractEnd) := by
  refine Keeps.after ?_ hm' hq' h'
  clear hm' hq' h'
  unfold State.retractEnd
  with_reducible repeat' first
    | assumption | exact Keeps.refl _ | (apply State.powerUp_after; rotate_left; decide; decide)
    | (apply State.retractOver_after; rotate_left; decide; decide) | apply Keeps.ite | apply Keeps.ite_fst
    | apply Keeps.ite_snd | (apply Keeps.of_eq_fst; assumption) | (apply Keeps.of_eq_snd; assumption) | (intro) | split
    | dsimp only

theorem State.railTimeout_after {m' q' : Nat} {u' : State} {s : State} (h' : Keeps m' q' u' s)
    (hm' : Nat.lor 0x0 m' = m') (hq' : Nat.lor 0x80000 q' = q') : Keeps m' q' u' (s.railTimeout) := by
  refine Keeps.after ?_ hm' hq' h'
  clear hm' hq' h'
  unfold State.railTimeout
  with_reducible repeat' first
    | assumption | exact Keeps.refl _ | (apply State.modPower_after; rotate_left; decide; decide) | apply Keeps.when
    | (intro) | split | dsimp only

theorem State.railRetry_after {m' q' : Nat} {u' : State} {s : State} {p : PowerIn} (h' : Keeps m' q' u' s)
    (hm' : Nat.lor 0x3fffffffffffffffffffffffffffffffffffffffffffffffffffffffffffffffffffffffffffffffffffffffffffffffffffffffffffffffffffffffffffffffffffffffffffffffffffffffffffffffffffffffffffffffffffffffffffffffffffffffffff m' = m') (hq' : Nat.lor 0x1ffffff q' = q') : Keeps m' q' u' (s.railRetry p) := by
  refine Keeps.after ?_ hm' hq' h'
  clear hm' hq' h'
  unfold State.railRetry
  with_reducible repeat' first
    | assumption | exact Keeps.refl _ | (apply State.powerUp_after; rotate_left; decide; decide) | apply Keeps.when
    | (intro) | split | dsimp only

theorem State.railUnder_after {m' q' : Nat} {u' : State} {s : State} {reset v12 v5 : Bool} {vm t : Nat} {p : PowerIn} (h' : Keeps m' q' u' s)
    (hm' : Nat.lor 0x3fffffffffffffffffffffffffffffffffffffffffffffffffffffffffffffffffffffffffffffffffffffffffffffffffffffffffffffffffffffffffffffffffffffffffffffffffffffffffffffffffffffffffffffffffffffffffffffffffffffffffff m' = m') (hq' : Nat.lor 0x1ffffff q' = q') : Keeps m' q' u' (s.railUnder reset v12 v5 vm t p) := by
  refine Keeps.after ?_ hm' hq' h'
  clear hm' hq' h'
  unfold State.railUnder
  with_reducible repeat' first
    | assumption | exact Keeps.refl _ | (apply State.powerLoss_after; rotate_left; decide; decide)
    | (apply State.powerUp_after; rotate_left; decide; decide) | apply Keeps.ite | apply Keeps.ite_fst | apply Keeps.ite_snd
    | (intro) | split | dsimp only

theorem State.vmCharged_after {m' q' : Nat} {u' : State} {s : State} (h' : Keeps m' q' u' s)
    (hm' : Nat.lor 0x1800000000000000000000000000000000000000000000000000000000000000000000000000000000000000000000000000000000000000000000000000000000000000000000000000000000000c004c00000000000000000 m' = m') (hq' : Nat.lor 0x10c2400 q' = q') : Keeps m' q' u' (s.vmCharged) := by
  refine Keeps.after ?_ hm' hq' h'
  clear hm' hq' h'
  unfold State.vmCharged
  with_reducible repeat' first
    | assumption | exact Keeps.refl _ | (apply State.modSpe_after; rotate_left; decide; decide)
    | (apply State.spinUp_after; rotate_left; decide; decide) | apply Keeps.when | (intro) | split | dsimp only

theorem State.enterDormant_after {m' q' : Nat} {u' : State} {s : State} (h' : Keeps m' q' u' s)
    (hm' : Nat.lor 0x10400000000000000000400008000000000000000000000000000000000000040000000000000000000000000000000000000000000000000000000000000000000000000000000000000000000000000000000000000000004000000000000000000000000 m' = m') (hq' : Nat.lor 0x9fd000 q' = q') : Keeps m' q' u' (s.enterDormant) := by
  refine Keeps.after ?_ hm' hq' h'
  clear hm' hq' h'
  unfold State.enterDormant
  with_reducible repeat' first
    | assumption | exact Keeps.refl _ | (apply Keeps.wr; rotate_left; decide)
    | (apply State.cancelShared_after; rotate_left; decide; decide)
    | (apply State.closeSession_after; rotate_left; decide; decide)
    | (apply State.modBridge_after; rotate_left; decide; decide) | (apply State.modPower_after; rotate_left; decide; decide)
    | (apply State.onlyDomains_after; rotate_left; decide; decide) | (intro) | split | dsimp only

theorem State.wake_after {m' q' : Nat} {u' : State} {s : State} {src : Nat} {p : PowerIn} (h' : Keeps m' q' u' s)
    (hm' : Nat.lor 0x3fffffffffffffffffffffffffffffffffffffffffffffffffffffffffffffffffffffffffffffffffffffffffffffffffffffffffffffffffffffffffffffffffffffffffffffffffffffffffffffffffffffffffffffffffffffffffffffffffffffffffff m' = m') (hq' : Nat.lor 0x1ffffff q' = q') : Keeps m' q' u' (s.wake src p) := by
  refine Keeps.after ?_ hm' hq' h'
  clear hm' hq' h'
  unfold State.wake
  with_reducible repeat' first
    | assumption | exact Keeps.refl _ | (apply Keeps.wr; rotate_left; decide)
    | (apply State.powerUp_after; rotate_left; decide; decide) | apply Keeps.when | (intro) | split | dsimp only

theorem State.dormantTimeout_after {m' q' : Nat} {u' : State} {s : State} (h' : Keeps m' q' u' s)
    (hm' : Nat.lor 0x10400000000000000000400008000000000000000000000000000000000000040000000000000000000000000000000000000000000000000000000000000000000000000000000000000000000000000000000000000000004000000000000000000000000 m' = m') (hq' : Nat.lor 0x9fd000 q' = q') : Keeps m' q' u' (s.dormantTimeout) := by
  refine Keeps.after ?_ hm' hq' h'
  clear hm' hq' h'
  unfold State.dormantTimeout
  with_reducible repeat' first
    | assumption | exact Keeps.refl _ | (apply State.enterDormant_after; rotate_left; decide; decide) | apply Keeps.when
    | (intro) | split | dsimp only

theorem State.idleTimeout_after {m' q' : Nat} {u' : State} {s : State} (h' : Keeps m' q' u' s)
    (hm' : Nat.lor 0x18000000000000000000000000000000000000000000000000000000000000000000000000000000000000000000000000000000000000000000000000000000000000000000000000000000000000000000000000000000000 m' = m') (hq' : Nat.lor 0x0 q' = q') : Keeps m' q' u' (s.idleTimeout) := by
  refine Keeps.after ?_ hm' hq' h'
  clear hm' hq' h'
  unfold State.idleTimeout
  with_reducible repeat' first
    | assumption | exact Keeps.refl _ | (apply Keeps.wr; rotate_left; decide) | apply Keeps.when | apply Keeps.ite
    | apply Keeps.ite_fst | apply Keeps.ite_snd | (intro) | split | dsimp only

theorem State.regate_after {m' q' : Nat} {u' : State} {s : State} (h' : Keeps m' q' u' s)
    (hm' : Nat.lor 0x0 m' = m') (hq' : Nat.lor 0x40000 q' = q') : Keeps m' q' u' (s.regate) := by
  refine Keeps.after ?_ hm' hq' h'
  clear hm' hq' h'
  unfold State.regate
  with_reducible repeat' first
    | assumption | exact Keeps.refl _ | (apply State.modBur_after; rotate_left; decide; decide) | apply Keeps.when | (intro)
    | split | dsimp only

theorem State.strlostClr_after {m' q' : Nat} {u' : State} {s : State} {mask : Nat} (h' : Keeps m' q' u' s)
    (hm' : Nat.lor 0x600878000000000000000000000000000000000000000007f3d000000000000000000000000000000000000000000000000000000000000000000000000000000000000000000000000000000000000000000000000000000000000 m' = m') (hq' : Nat.lor 0x10c6800 q' = q') : Keeps m' q' u' (s.strlostClr mask) := by
  refine Keeps.after ?_ hm' hq' h'
  clear hm' hq' h'
  unfold State.strlostClr
  with_reducible repeat' first
    | assumption | exact Keeps.refl _ | (apply Keeps.flag; rotate_left; decide) | (apply Keeps.flagBit; rotate_left; decide)
    | (apply Keeps.unflagBit; rotate_left; decide) | (apply State.journal_after; rotate_left; decide; decide)
    | (apply State.modStr_after; rotate_left; decide; decide) | (apply State.setDegr_after; rotate_left; decide; decide)
    | apply Keeps.ite | apply Keeps.ite_fst | apply Keeps.ite_snd | apply Keeps.foldl | apply Keeps.foldl_snd
    | apply Keeps.foldl_fst | (intro) | split | dsimp only

theorem storeFind_filter (f : Nat → Bool) (m : List (Nat × Nat)) (k : Nat) :
    storeFind (m.filter fun e => f e.1) k = if f k then storeFind m k else none := by
  induction m with
  | nil => simp [storeFind]
  | cons e m ih =>
    obtain ⟨j, v⟩ := e
    by_cases h : j = k
    · subst h
      by_cases hf : f j <;> simp [storeFind, hf] at *
      simp [ih]
    · by_cases hf : f j <;> simp [storeFind, hf, h, ih]

theorem State.blockReset_after {m' q' : Nat} {u' : State} {s : State} {b : Blk} {i : Nat} (h' : Keeps m' q' u' s)
    (hm' : Nat.lor (blkMask b) m' = m') (hq' : Nat.lor 0x1 q' = q') : Keeps m' q' u' (s.blockReset b i) := by
  refine Keeps.after ?_ hm' hq' h'
  exact {
    regs := fun r j h => by
      unfold State.rd State.blockReset
      rw [storeFind_filter (fun k => !((b.rows.map (·.reg.ctorIdx)).contains (k / 2 ^ 20) && !((restored.map Reg.ctorIdx).contains (k / 2 ^ 20)) && k % 2 ^ 20 / 65536 == i))]
      have e : regKey r j / 2 ^ 20 = r.ctorIdx := by unfold regKey; omega
      have n : (b.rows.map (·.reg.ctorIdx)).contains r.ctorIdx = false := by
        rw [Bool.eq_false_iff]
        intro hc
        simp only [List.contains_iff_mem, List.mem_map, Blk.rows] at hc
        obtain ⟨w, ⟨r', hr, rfl⟩, hw⟩ := hc
        rw [Reg.row_reg] at hw
        have hb := List.all_eq_true.mp (Blk.regs_blk b) r' hr
        rw [hw, h] at hb
        exact absurd hb (by decide)
      rw [e, n]; rfl
    parts := fun p h => by cases p <;> first | rfl | exact absurd h (by decide)
    queue := rfl
    memory := fun h => h
    fuses := ⟨fun _ h => h, fun h => h⟩ }

theorem State.stringDomain_after {m' q' : Nat} {u' : State} {s : State} {x : Str} {k : Nat} (h' : Keeps m' q' u' s)
    (hm' : Nat.lor 0x0 m' = m') (hq' : Nat.lor 0x22804 q' = q') : Keeps m' q' u' (s.stringDomain x k) := by
  refine Keeps.after ?_ hm' hq' h'
  clear hm' hq' h'
  unfold State.stringDomain
  with_reducible repeat' first
    | assumption | exact Keeps.refl _ | (apply State.modAe_after; rotate_left; decide; decide)
    | (apply State.modMemory_after; rotate_left; decide; decide) | (apply State.modRch_after; rotate_left; decide; decide)
    | (apply State.modRecord_after; rotate_left; decide; decide) | (apply State.modSce_after; rotate_left; decide; decide)
    | (apply State.modStr_after; rotate_left; decide; decide) | (apply State.modSvd_after; rotate_left; decide; decide)
    | (apply State.modWrp_after; rotate_left; decide; decide) | (apply Keeps.of_eq_fst; assumption)
    | (apply Keeps.of_eq_snd; assumption) | (intro) | split | dsimp only | (apply Keeps.with_control; rotate_left; decide)

theorem State.pegLoad_after {m' q' : Nat} {u' : State} {s : State} {x : Str} {n : Nat} (h' : Keeps m' q' u' s)
    (hm' : Nat.lor 0x200000000000000000000000000000000000000000000000000000000000000000000000000000000000000000000000000000000000000000000000000000000000000000000000000000000000000000000000000000000000000000000000000000000000 m' = m') (hq' : Nat.lor 0x0 q' = q') : Keeps m' q' u' (s.pegLoad x n) := by
  refine Keeps.after ?_ hm' hq' h'
  clear hm' hq' h'
  unfold State.pegLoad
  with_reducible repeat' first
    | assumption | exact Keeps.refl _ | (apply Keeps.wr; rotate_left; decide) | (intro) | split | dsimp only

theorem State.domainMemory_after {m' q' : Nat} {u' : State} {s : State} {d : Nat} (h' : Keeps m' q' u' s)
    (hm' : Nat.lor 0x4000000000000000000000000000000000000000000000000000000000000000000000000000000000000000000000000000000000000000000000000000000000000000000000000000000000000000000000000000 m' = m') (hq' : Nat.lor 0x20000 q' = q') : Keeps m' q' u' (s.domainMemory d) := by
  refine Keeps.after ?_ hm' hq' h'
  clear hm' hq' h'
  unfold State.domainMemory
  with_reducible repeat' first
    | assumption | exact Keeps.refl _ | (apply Keeps.flag; rotate_left; decide)
    | (apply State.modMemory_after; rotate_left; decide; decide) | apply Keeps.foldl | apply Keeps.foldl_snd
    | apply Keeps.foldl_fst | (intro) | split | dsimp only

theorem State.quadUp_after {m' q' : Nat} {u' : State} {s : State} {q : Nat} (h' : Keeps m' q' u' s)
    (hm' : Nat.lor 0x40003800000000000000000007800180000000000000000000001c00000f080000000000000001800000000000000001807000004000003000000000000000000000000000000000000000000000000000000000000000000000000 m' = m') (hq' : Nat.lor 0x10c38c0 q' = q') : Keeps m' q' u' (s.quadUp q) := by
  refine Keeps.after ?_ hm' hq' h'
  clear hm' hq' h'
  unfold State.quadUp
  with_reducible repeat' first
    | assumption | exact Keeps.refl _ | (apply Keeps.flagBit; rotate_left; decide)
    | (apply Keeps.unflagBit; rotate_left; decide) | (apply State.harpRefresh_after; rotate_left; decide; decide)
    | (apply State.startSelfTest_after; rotate_left; decide; decide) | apply Keeps.when | apply Keeps.foldl
    | apply Keeps.foldl_snd | apply Keeps.foldl_fst | (intro) | split | dsimp only

theorem State.quadDown_after {m' q' : Nat} {u' : State} {s : State} {q : Nat} (h' : Keeps m' q' u' s)
    (hm' : Nat.lor 0x40003800000000000000000007800180000000000000000000001c00000f080000000000000001800000000000000001007000004000003000000000000000000000000000000000000000000000000000000000000000000000000 m' = m') (hq' : Nat.lor 0x10c38c0 q' = q') : Keeps m' q' u' (s.quadDown q) := by
  refine Keeps.after ?_ hm' hq' h'
  clear hm' hq' h'
  unfold State.quadDown
  with_reducible repeat' first
    | assumption | exact Keeps.refl _ | (apply Keeps.flagBit; rotate_left; decide)
    | (apply Keeps.unflagBit; rotate_left; decide) | (apply State.harpRefresh_after; rotate_left; decide; decide)
    | (apply State.setLane_after; rotate_left; decide; decide) | apply Keeps.foldl | apply Keeps.foldl_snd
    | apply Keeps.foldl_fst | (intro) | split | dsimp only

theorem domainBlocks_mask (d : Nat) : ∀ b ∈ (domainBlocks d).1, Nat.lor (blkMask b.1) 0x2000000000000000000004000380000040000000000001ffffffffffffffffffffff800001c00000f08000000000003ffffffffffffffff80000180700fffffffffffffffffffffffffffffffffffffffffffffffffffffffffff00000000000000000000000 = 0x2000000000000000000004000380000040000000000001ffffffffffffffffffffff800001c00000f08000000000003ffffffffffffffff80000180700fffffffffffffffffffffffffffffffffffffffffffffffffffffffffff00000000000000000000000 := by
  unfold domainBlocks
  dsimp only
  repeat' split
  all_goals simp only [List.forall_mem_cons, List.not_mem_nil, false_implies, implies_true, and_true]
  all_goals first | trivial | exact rfl | exact ⟨rfl, rfl⟩ | exact ⟨rfl, rfl, rfl, rfl⟩

theorem State.domainUp_after {m' q' : Nat} {u' : State} {s : State} {d : Nat} (h' : Keeps m' q' u' s)
    (hm' : Nat.lor 0x2000000000000000000004000380000040000000000001ffffffffffffffffffffff800001c00000f08000000000003ffffffffffffffff80000180700fffffffffffffffffffffffffffffffffffffffffffffffffffffffffff00000000000000000000000 m' = m') (hq' : Nat.lor 0x10e38c5 q' = q') : Keeps m' q' u' (s.domainUp d) := by
  refine Keeps.after ?_ hm' hq' h'
  unfold State.domainUp
  refine Keeps.ite (fun _ => State.quadUp_after (Keeps.refl _) rfl rfl) fun _ => ?_
  dsimp only
  have k : Keeps 0x2000000000000000000004000380000040000000000001ffffffffffffffffffffff800001c00000f08000000000003ffffffffffffffff80000180700fffffffffffffffffffffffffffffffffffffffffffffffffffffffffff00000000000000000000000 0x10e38c5 s (((domainBlocks d).1.foldl (fun s b => s.blockReset b.1 b.2) (s.flagBit .PWR_DOMSTAT_ON (d % 32) (d / 32))).domainMemory d) := by
    refine State.domainMemory_after ?_ rfl rfl
    have hb := domainBlocks_mask d
    generalize (domainBlocks d).1 = l at hb
    have : ∀ t, Keeps 0x2000000000000000000004000380000040000000000001ffffffffffffffffffffff800001c00000f08000000000003ffffffffffffffff80000180700fffffffffffffffffffffffffffffffffffffffffffffffffffffffffff00000000000000000000000 0x10e38c5 s t → Keeps 0x2000000000000000000004000380000040000000000001ffffffffffffffffffffff800001c00000f08000000000003ffffffffffffffff80000180700fffffffffffffffffffffffffffffffffffffffffffffffffffffffffff00000000000000000000000 0x10e38c5 s (l.foldl (fun s b => s.blockReset b.1 b.2) t) := by
      induction l with
      | nil => intro t h; exact h
      | cons a l ih => intro t h; exact ih (fun b hb' => hb b (List.mem_cons_of_mem _ hb')) _ (State.blockReset_after h (hb a List.mem_cons_self) rfl)
    exact this _ ((Keeps.refl _).flagBit rfl)
  refine Keeps.ite (fun _ => ?_) fun _ => k
  exact Keeps.foldl (State.stringDomain_after k rfl rfl) fun u a h => State.pegLoad_after h rfl rfl

theorem State.domainDown_after {m' q' : Nat} {u' : State} {s : State} {d : Nat} (h' : Keeps m' q' u' s)
    (hm' : Nat.lor 0x40003800000000000000000007800180000000000000000000001c00000f080000000000000001800000000000000001007000004000003000000000000000000000000008000000000000000000000000000000000000000003a00 m' = m') (hq' : Nat.lor 0x10c39c0 q' = q') : Keeps m' q' u' (s.domainDown d) := by
  refine Keeps.after ?_ hm' hq' h'
  clear hm' hq' h'
  unfold State.domainDown
  with_reducible repeat' first
    | assumption | exact Keeps.refl _ | (apply Keeps.unflagBit; rotate_left; decide)
    | (apply State.quadDown_after; rotate_left; decide; decide) | (apply State.svdIdle_after; rotate_left; decide; decide)
    | apply Keeps.when | apply Keeps.ite | apply Keeps.ite_fst | apply Keeps.ite_snd | (intro) | split | dsimp only

theorem State.domainRequest_after {m' q' : Nat} {u' : State} {s : State} {d : Nat} (h' : Keeps m' q' u' s)
    (hm' : Nat.lor 0x200000000000000000000c000b80000040000000000001ffffffffffffffffffffff800001c00000f08000000000003ffffffffffffffff80000180700fffffffffffffffffffffffffffffffffffffffffffffffffffffffffff00000000000000000003a00 m' = m') (hq' : Nat.lor 0x10e39c5 q' = q') : Keeps m' q' u' (s.domainRequest d) := by
  refine Keeps.after ?_ hm' hq' h'
  clear hm' hq' h'
  unfold State.domainRequest
  with_reducible repeat' first
    | assumption | exact Keeps.refl _ | (apply Keeps.wr; rotate_left; decide) | (apply Keeps.flag; rotate_left; decide)
    | (apply State.domainDown_after; rotate_left; decide; decide)
    | (apply State.domainUp_after; rotate_left; decide; decide) | apply Keeps.ite | apply Keeps.ite_fst
    | apply Keeps.ite_snd | (intro) | split | dsimp only

theorem State.domainWrite_after {m' q' : Nat} {u' : State} {s : State} {word value : Nat} (h' : Keeps m' q' u' s)
    (hm' : Nat.lor 0x200000000000000000000e000b80000040000000000001ffffffffffffffffffffff800001c00000f08000000000003ffffffffffffffff80000180700fffffffffffffffffffffffffffffffffffffffffffffffffffffffffff00000000000000000003a00 m' = m') (hq' : Nat.lor 0x10e39c5 q' = q') : Keeps m' q' u' (s.domainWrite word value) := by
  refine Keeps.after ?_ hm' hq' h'
  clear hm' hq' h'
  unfold State.domainWrite
  with_reducible repeat' first
    | assumption | exact Keeps.refl _ | (apply Keeps.wr; rotate_left; decide)
    | (apply State.domainRequest_after; rotate_left; decide; decide) | apply Keeps.ite | apply Keeps.ite_fst
    | apply Keeps.ite_snd | apply Keeps.foldl | apply Keeps.foldl_snd | apply Keeps.foldl_fst | (intro) | split | dsimp only

theorem State.domainFault_after {m' q' : Nat} {u' : State} {s : State} {d : Nat} (h' : Keeps m' q' u' s)
    (hm' : Nat.lor 0x600838000000000000000000178001800000000000000007f3d01c00008f28000000400000000180009160000000000000000000400000300000000000000000014000000000000001000000000801c000000000000000000000000 m' = m') (hq' : Nat.lor 0x10d78c1 q' = q') : Keeps m' q' u' (s.domainFault d) := by
  refine Keeps.after ?_ hm' hq' h'
  clear hm' hq' h'
  unfold State.domainFault
  with_reducible repeat' first
    | assumption | exact Keeps.refl _ | (apply State.stringLost_after; rotate_left; decide; decide) | apply Keeps.when
    | (intro) | split | dsimp only

theorem State.smbus_after {m' q' : Nat} {u' : State} {s : State} {p : PowerIn} {f : State → State} (k' : Keeps m' q' u' s)
    (hm' : Nat.lor 0x3fffffffffffffffffffffffffffffffffffffffffffffffffffffffffffffffffffffffffffffffffffffffffffffffffffffffffffffffffffffffffffffffffffffffffffffffffffffffffffffffffffffffffffffffffffffffffffffffffffffffffff m' = m') (hq' : Nat.lor 0x1ffffff q' = q') (h : ∀ s, Keeps m' q' u' s → Keeps m' q' u' (f s)) :
    Keeps m' q' u' (s.smbus p f) := by
  unfold State.smbus
  with_reducible repeat' first
    | assumption | exact Keeps.refl _
    | (apply State.wake_after; rotate_left; (first | exact bit_of hm' (by decide) | exact bit_of hq' (by decide) | exact lor_of hm' (by decide) | exact lor_of hq' (by decide)); (first | exact bit_of hm' (by decide) | exact bit_of hq' (by decide) | exact lor_of hm' (by decide) | exact lor_of hq' (by decide)))
    | apply Keeps.ite | apply Keeps.ite_fst | apply Keeps.ite_snd | apply h | (intro) | split | dsimp only

/-! ### Thermal -/

theorem State.pegTick_after {m' q' : Nat} {u' : State} {s : State} {x : Option Str} (h' : Keeps m' q' u' s)
    (hm' : Nat.lor 0x200000000004000000000000000000000000000000000000000000000000000000000000000000000000000000000000000000000000000000000000000000000000000000000000000000000000000000000000000000000000000000000000000000000000 m' = m') (hq' : Nat.lor 0x0 q' = q') : Keeps m' q' u' (s.pegTick x) := by
  refine Keeps.after ?_ hm' hq' h'
  clear hm' hq' h'
  unfold State.pegTick
  with_reducible repeat' first
    | assumption | exact Keeps.refl _ | (apply Keeps.wr; rotate_left; decide) | apply Keeps.ite | apply Keeps.ite_fst
    | apply Keeps.ite_snd | apply Keeps.foldl | apply Keeps.foldl_snd | apply Keeps.foldl_fst
    | (apply Keeps.of_eq_fst; assumption) | (apply Keeps.of_eq_snd; assumption) | (intro) | split | dsimp only

theorem State.modTherm_after {m' q' : Nat} {u' : State} {s : State} {f : Thermal → Thermal} (h' : Keeps m' q' u' s)
    (hm' : Nat.lor 0x0 m' = m') (hq' : Nat.lor 0x200000 q' = q') : Keeps m' q' u' (s.modTherm f) := by
  refine Keeps.after ?_ hm' hq' h'
  clear hm' hq' h'
  unfold State.modTherm
  with_reducible repeat' first
    | assumption | exact Keeps.refl _ | (intro) | split | dsimp only | (apply Keeps.with_therm; rotate_left; decide)

theorem State.gateDrained_after {m' q' : Nat} {u' : State} {s : State} (h' : Keeps m' q' u' s)
    (hm' : Nat.lor 0x60003800000000000000000007800180000000000000000000001c00008f280000004000000001800000000000000001007000004000003000000000000000000000000000000000000000000000000000000000000000000000000 m' = m') (hq' : Nat.lor 0x12c38c0 q' = q') : Keeps m' q' u' (s.gateDrained) := by
  refine Keeps.after ?_ hm' hq' h'
  clear hm' hq' h'
  unfold State.gateDrained
  with_reducible repeat' first
    | assumption | exact Keeps.refl _ | (apply Keeps.unflagBit; rotate_left; decide)
    | (apply State.modTherm_after; rotate_left; decide; decide) | (apply State.quadDown_after; rotate_left; decide; decide)
    | (apply State.readmitReads_after; rotate_left; decide; decide) | apply Keeps.when | apply Keeps.foldl
    | apply Keeps.foldl_snd | apply Keeps.foldl_fst | (intro) | split | dsimp only

theorem State.throttleHarp_after {m' q' : Nat} {u' : State} {s : State} (h' : Keeps m' q' u' s)
    (hm' : Nat.lor 0x60003800000000000000000007800180000000000000000000001c00008f2800000040000000018000000000007ffffffffff0004000003000000000000000000000000000000000000000000000000000000000000000000000000 m' = m') (hq' : Nat.lor 0x12c38c1 q' = q') : Keeps m' q' u' (s.throttleHarp) := by
  refine Keeps.after ?_ hm' hq' h'
  clear hm' hq' h'
  unfold State.throttleHarp
  with_reducible repeat' first
    | assumption | exact Keeps.refl _ | (apply Keeps.flagBit; rotate_left; decide)
    | (apply State.gateDrained_after; rotate_left; decide; decide)
    | (apply State.harpDispatch_after; rotate_left; decide; decide)
    | (apply State.modTherm_after; rotate_left; decide; decide) | (apply State.quadUp_after; rotate_left; decide; decide)
    | apply Keeps.foldl | apply Keeps.foldl_snd | apply Keeps.foldl_fst | (intro) | split | dsimp only

theorem State.throttle_after {m' q' : Nat} {u' : State} {s : State} (h' : Keeps m' q' u' s)
    (hm' : Nat.lor 0x100a000000000060003800000000000000000017800180000000000000000000001c00009f2800000040000000018000000000007ffffffffff0004000003000000000000000000000000000000000010000000000000000000000000000000000000 m' = m') (hq' : Nat.lor 0x12c78c1 q' = q') : Keeps m' q' u' (s.throttle) := by
  refine Keeps.after ?_ hm' hq' h'
  clear hm' hq' h'
  unfold State.throttle
  with_reducible repeat' first
    | assumption | exact Keeps.refl _ | (apply Keeps.wr; rotate_left; decide) | (apply Keeps.setTo; rotate_left; decide)
    | (apply Keeps.bump; rotate_left; decide) | (apply State.readmitWrites_after; rotate_left; decide; decide)
    | (apply State.throttleHarp_after; rotate_left; decide; decide)
    | (apply State.withdrawWrites_after; rotate_left; decide; decide) | apply Keeps.when | apply Keeps.onStr
    | apply Keeps.ite | apply Keeps.ite_fst | apply Keeps.ite_snd | apply Keeps.foldl | apply Keeps.foldl_snd
    | apply Keeps.foldl_fst | (intro) | split | dsimp only

theorem State.takeReadings_after {m' q' : Nat} {u' : State} {s : State} {temps : List Int} (h' : Keeps m' q' u' s)
    (hm' : Nat.lor 0x8410000000000000000000000000000000000000000000000000000000000000000000000000000000000000000000000000000000000000000000000000000000000000000000000000000000000000000000000000000000000000000000000000 m' = m') (hq' : Nat.lor 0x0 q' = q') : Keeps m' q' u' (s.takeReadings temps) := by
  refine Keeps.after ?_ hm' hq' h'
  clear hm' hq' h'
  unfold State.takeReadings
  with_reducible repeat' first
    | assumption | exact Keeps.refl _ | (apply Keeps.wr; rotate_left; decide) | apply Keeps.foldl | apply Keeps.foldl_snd
    | apply Keeps.foldl_fst | (apply Keeps.of_eq_fst; assumption) | (apply Keeps.of_eq_snd; assumption) | (intro) | split
    | dsimp only

theorem State.thermalShutdown_after {m' q' : Nat} {u' : State} {s : State} (h' : Keeps m' q' u' s)
    (hm' : Nat.lor 0x2010000000000000001800000000000000000010000000000000000000000000001c00008f28000000400000000000009160000000000000000000400000300000000000000000014000000000000000000000000801c000004c00000400000000000 m' = m') (hq' : Nat.lor 0x12c6cc0 q' = q') : Keeps m' q' u' (s.thermalShutdown) := by
  refine Keeps.after ?_ hm' hq' h'
  clear hm' hq' h'
  unfold State.thermalShutdown
  with_reducible repeat' first
    | assumption | exact Keeps.refl _ | (apply Keeps.wr; rotate_left; decide) | (apply Keeps.flag; rotate_left; decide)
    | (apply Keeps.bump; rotate_left; decide) | (apply State.goStandby_after; rotate_left; decide; decide)
    | (apply State.modTherm_after; rotate_left; decide; decide)
    | (apply State.vendorEvent_after; rotate_left; decide; decide)
    | (apply State.withdrawAll_after; rotate_left; decide; decide) | apply Keeps.ite | apply Keeps.ite_fst
    | apply Keeps.ite_snd | (intro) | split | dsimp only

theorem State.thresholds_after {m' q' : Nat} {u' : State} {s : State} (h' : Keeps m' q' u' s)
    (hm' : Nat.lor 0x2014000000000000001800000000000000000010000000000000000000000000001c00008f28000000400000000000009160000000000000000000400000300000000000000000014000000000000000000000000801c000004c00000400000000000 m' = m') (hq' : Nat.lor 0x12c6cc0 q' = q') : Keeps m' q' u' (s.thresholds) := by
  refine Keeps.after ?_ hm' hq' h'
  clear hm' hq' h'
  unfold State.thresholds
  with_reducible repeat' first
    | assumption | exact Keeps.refl _ | (apply Keeps.flag; rotate_left; decide) | (apply Keeps.unflag; rotate_left; decide)
    | (apply State.modTherm_after; rotate_left; decide; decide)
    | (apply State.thermalShutdown_after; rotate_left; decide; decide)
    | (apply State.vendorEvent_after; rotate_left; decide; decide) | apply Keeps.when | apply Keeps.ite
    | apply Keeps.ite_fst | apply Keeps.ite_snd | (intro) | split | dsimp only

theorem State.temperatureEvents_after {m' q' : Nat} {u' : State} {s : State} (h' : Keeps m' q' u' s)
    (hm' : Nat.lor 0x0 m' = m') (hq' : Nat.lor 0x202000 q' = q') : Keeps m' q' u' (s.temperatureEvents) := by
  refine Keeps.after ?_ hm' hq' h'
  clear hm' hq' h'
  unfold State.temperatureEvents
  with_reducible repeat' first
    | assumption | exact Keeps.refl _ | (apply State.hostEvent_after; rotate_left; decide; decide)
    | (apply State.modTherm_after; rotate_left; decide; decide) | apply Keeps.when | apply Keeps.foldl
    | apply Keeps.foldl_snd | apply Keeps.foldl_fst | (apply Keeps.of_eq_fst; assumption)
    | (apply Keeps.of_eq_snd; assumption) | (intro) | split | dsimp only

theorem State.thermalSample_after {m' q' : Nat} {u' : State} {s : State} {temps : List Int} {step : Nat} (h' : Keeps m' q' u' s)
    (hm' : Nat.lor 0x385f000000000060003800000000000000000017800180000000000000000000001c00009f2800000040000000018000916000007ffffffffff000400000300000000000000000014000000000000001000000000801c000004c00000400000000000 m' = m') (hq' : Nat.lor 0x12c7cc1 q' = q') : Keeps m' q' u' (s.thermalSample temps step) := by
  refine Keeps.after ?_ hm' hq' h'
  clear hm' hq' h'
  unfold State.thermalSample
  with_reducible repeat' first
    | assumption | exact Keeps.refl _ | (apply State.gateDrained_after; rotate_left; decide; decide)
    | (apply State.modTherm_after; rotate_left; decide; decide)
    | (apply State.settleRequests_after; rotate_left; decide; decide)
    | (apply State.takeReadings_after; rotate_left; decide; decide)
    | (apply State.temperatureEvents_after; rotate_left; decide; decide)
    | (apply State.thresholds_after; rotate_left; decide; decide)
    | (apply State.throttle_after; rotate_left; decide; decide) | apply Keeps.ite | apply Keeps.ite_fst
    | apply Keeps.ite_snd | (intro) | split | dsimp only

theorem State.throttleTick_after {m' q' : Nat} {u' : State} {s : State} (h' : Keeps m' q' u' s)
    (hm' : Nat.lor 0x100a000000000060003800000000000000000017800180000000000000000000001c00009f2800000040000000018000000000007ffffffffff0004000003000000000000000000000000000000000010000000000000000000000000000000000000 m' = m') (hq' : Nat.lor 0x12c78c1 q' = q') : Keeps m' q' u' (s.throttleTick) := by
  refine Keeps.after ?_ hm' hq' h'
  clear hm' hq' h'
  unfold State.throttleTick
  with_reducible repeat' first
    | assumption | exact Keeps.refl _ | (apply State.gateDrained_after; rotate_left; decide; decide)
    | (apply State.modTherm_after; rotate_left; decide; decide) | (apply State.throttle_after; rotate_left; decide; decide)
    | apply Keeps.ite | apply Keeps.ite_fst | apply Keeps.ite_snd | (intro) | split | dsimp only

theorem State.tdEnter_after {m' q' : Nat} {u' : State} {s : State} {x : Str} {heater : Nat} (h' : Keeps m' q' u' s)
    (hm' : Nat.lor 0x4000000000000000000000000000000000000000000000000000000000 m' = m') (hq' : Nat.lor 0x1 q' = q') : Keeps m' q' u' (s.tdEnter x heater) := by
  refine Keeps.after ?_ hm' hq' h'
  clear hm' hq' h'
  unfold State.tdEnter
  with_reducible repeat' first
    | assumption | exact Keeps.refl _ | (apply Keeps.wr; rotate_left; decide)
    | (apply State.shadowWr_after; rotate_left; decide; decide) | (intro) | split | dsimp only

theorem State.calStart_after {m' q' : Nat} {u' : State} {s : State} {script mask head : Nat} {request : Option Nat} {entry : Option Nat} (h' : Keeps m' q' u' s)
    (hm' : Nat.lor 0x700000000000000000000000000000000000000000000000000000000000000000000000000000000000000000000000000000000000000000000000000000000004000000000000000000000000000000000000000000000000000000000 m' = m') (hq' : Nat.lor 0x100001 q' = q') : Keeps m' q' u' (s.calStart script mask head request entry) := by
  refine Keeps.after ?_ hm' hq' h'
  clear hm' hq' h'
  unfold State.calStart
  with_reducible repeat' first
    | assumption | exact Keeps.refl _ | (apply Keeps.wr; rotate_left; decide) | (apply Keeps.flag; rotate_left; decide)
    | (apply State.modCal_after; rotate_left; decide; decide) | (apply State.tdEnter_after; rotate_left; decide; decide)
    | apply Keeps.when | (intro) | split | dsimp only

theorem State.calRequest_after {m' q' : Nat} {u' : State} {s : State} {r : CiborRequest} {script : Nat} (h' : Keeps m' q' u' s)
    (hm' : Nat.lor 0x700000000000000000000000000000000000000000000000000000000000000000000000000000000000000000000000000000000000000000000000000000000004000000000000000000000000000000000000000000000000000000000 m' = m') (hq' : Nat.lor 0x1142001 q' = q') : Keeps m' q' u' (s.calRequest r script) := by
  refine Keeps.after ?_ hm' hq' h'
  clear hm' hq' h'
  unfold State.calRequest
  with_reducible repeat' first
    | assumption | exact Keeps.refl _ | (apply State.calStart_after; rotate_left; decide; decide)
    | (apply State.modRequest_after; rotate_left; decide; decide) | (apply State.reply_after; rotate_left; decide; decide)
    | apply Keeps.ite | apply Keeps.ite_fst | apply Keeps.ite_snd | (intro) | split | dsimp only

theorem State.calYield_after {m' q' : Nat} {u' : State} {s : State} {c : CalRun} (h' : Keeps m' q' u' s)
    (hm' : Nat.lor 0x0 m' = m') (hq' : Nat.lor 0x100001 q' = q') : Keeps m' q' u' (s.calYield c) := by
  refine Keeps.after ?_ hm' hq' h'
  clear hm' hq' h'
  unfold State.calYield
  with_reducible repeat' first
    | assumption | exact Keeps.refl _ | (apply State.modRun_after; rotate_left; decide; decide)
    | (apply State.shadowWr_after; rotate_left; decide; decide) | apply Keeps.when | (intro) | split | dsimp only

theorem calTargets_regs (k : Nat) (x : Str) : ∀ e ∈ calTargets k x, Nat.testBit 0x100000000002000000000000000000000000000000000000000000000000000000000000000000000000000000000000000000000000000000000000000000000000000000000000000000000000004000000000000000000000000000000000000000000000 e.1.ctorIdx = true := by
  intro e he
  unfold calTargets at he
  dsimp only at he
  split at he <;> simp only [List.mem_map, List.not_mem_nil] at he <;> first | exact he.elim | (obtain ⟨_, _, rfl⟩ := he; dsimp only; exact rfl)

theorem State.calFinish_after {m' q' : Nat} {u' : State} {s : State} {c : CalRun} {values : List Int} (h' : Keeps m' q' u' s)
    (hm' : Nat.lor 0x100000000002006100000000000000000000000000000000000000000000000000000000000000000000000000000000000000000000000000000000000000000000000000000000000000000000004000000000000000000000000000000000000000000000 m' = m') (hq' : Nat.lor 0x1142000 q' = q') : Keeps m' q' u' (s.calFinish c values) := by
  refine Keeps.after ?_ hm' hq' h'
  unfold State.calFinish
  dsimp only
  refine State.calEnd_after ?_ rfl rfl
  have hz : ∀ e ∈ (calTargets c.script (runStr c.mask)).zip values, Nat.testBit 0x100000000002000000000000000000000000000000000000000000000000000000000000000000000000000000000000000000000000000000000000000000000000000000000000000000000000004000000000000000000000000000000000000000000000 e.1.1.ctorIdx = true := fun e he =>
    calTargets_regs _ _ _ (List.of_mem_zip (a := e.1) (b := e.2) he).1
  generalize (calTargets c.script (runStr c.mask)).zip values = l at hz
  have : ∀ t, Keeps 0x100000000002006100000000000000000000000000000000000000000000000000000000000000000000000000000000000000000000000000000000000000000000000000000000000000000000004000000000000000000000000000000000000000000000 0x1142000 s t → Keeps 0x100000000002006100000000000000000000000000000000000000000000000000000000000000000000000000000000000000000000000000000000000000000000000000000000000000000000004000000000000000000000000000000000000000000000 0x1142000 s (l.foldl (fun s e => s.when (targetFits e.1.1 e.2) fun s => s.wr e.1.1 (ofSigned e.1.1.row.width e.2) e.1.2) t) := by
    induction l with
    | nil => intro t h; exact h
    | cons a l ih =>
      intro t h
      exact ih (fun e he => hz e (List.mem_cons_of_mem _ he)) _ (h.when fun u hu => hu.wr (bit_of (show Nat.lor 0x100000000002000000000000000000000000000000000000000000000000000000000000000000000000000000000000000000000000000000000000000000000000000000000000000000000000004000000000000000000000000000000000000000000000 0x100000000002006100000000000000000000000000000000000000000000000000000000000000000000000000000000000000000000000000000000000000000000000000000000000000000000004000000000000000000000000000000000000000000000 = 0x100000000002006100000000000000000000000000000000000000000000000000000000000000000000000000000000000000000000000000000000000000000000000000000000000000000000004000000000000000000000000000000000000000000000 from rfl) (hz a List.mem_cons_self)))
  exact this s (Keeps.refl _)

theorem State.calStepWith_after {m' q' : Nat} {u' : State} {s : State} {c : CalRun} {f : State → State} (k' : Keeps m' q' u' s)
    (hm' : Nat.lor 0x6100000000000000000000000000000000000000000000000000000000000000000000000000000000000000000000000000000000000000000000000000000000004000000000000000000000000000000000000000000000000000000000 m' = m') (hq' : Nat.lor 0x1142001 q' = q') (h : ∀ s, Keeps m' q' u' s → Keeps m' q' u' (f s)) :
    Keeps m' q' u' (s.calStepWith c f) := by
  unfold State.calStepWith
  with_reducible repeat' first
    | assumption | exact Keeps.refl _
    | (apply State.calEnd_after; rotate_left; (first | exact bit_of hm' (by decide) | exact bit_of hq' (by decide) | exact lor_of hm' (by decide) | exact lor_of hq' (by decide)); (first | exact bit_of hm' (by decide) | exact bit_of hq' (by decide) | exact lor_of hm' (by decide) | exact lor_of hq' (by decide)))
    | (apply State.calYield_after; rotate_left; (first | exact bit_of hm' (by decide) | exact bit_of hq' (by decide) | exact lor_of hm' (by decide) | exact lor_of hq' (by decide)); (first | exact bit_of hm' (by decide) | exact bit_of hq' (by decide) | exact lor_of hm' (by decide) | exact lor_of hq' (by decide)))
    | (apply State.tdRelease_after; rotate_left; (first | exact bit_of hm' (by decide) | exact bit_of hq' (by decide) | exact lor_of hm' (by decide) | exact lor_of hq' (by decide)); (first | exact bit_of hm' (by decide) | exact bit_of hq' (by decide) | exact lor_of hm' (by decide) | exact lor_of hq' (by decide)))
    | apply Keeps.when | apply Keeps.ite | apply Keeps.ite_fst | apply Keeps.ite_snd | apply h | (intro) | split
    | dsimp only

theorem State.calScriptStep_after {m' q' : Nat} {u' : State} {s : State} {mask : Nat} {result : Option (List Int)} (h' : Keeps m' q' u' s)
    (hm' : Nat.lor 0x100000000002006100000000000000000000000000000000000000000000000000000000000000000000000000000000000000000000000000000000000000000000000000000000004000000000004000000000000000000000000000000000000000000000 m' = m') (hq' : Nat.lor 0x1142001 q' = q') : Keeps m' q' u' (s.calScriptStep mask result) := by
  refine Keeps.after ?_ hm' hq' h'
  clear hm' hq' h'
  unfold State.calScriptStep
  with_reducible repeat' first
    | assumption | exact Keeps.refl _ | (apply State.calFinish_after; rotate_left; decide; decide)
    | (apply State.calStepWith_after; rotate_left; decide; decide; rotate_left) | (apply Keeps.of_eq_fst; assumption)
    | (apply Keeps.of_eq_snd; assumption) | (intro) | split | dsimp only

theorem State.tdStep_after {m' q' : Nat} {u' : State} {s : State} {x : Str} {ecs pes : Nat} (h' : Keeps m' q' u' s)
    (hm' : Nat.lor 0x6100000000000000000000000000000000000000000000000000000000000000000000000000000000000000000000000000000000000000000000000000000408704000000000000000000000000000000000000000000000000000000000 m' = m') (hq' : Nat.lor 0x1142001 q' = q') : Keeps m' q' u' (s.tdStep x ecs pes) := by
  refine Keeps.after ?_ hm' hq' h'
  clear hm' hq' h'
  unfold State.tdStep
  with_reducible repeat' first
    | assumption | exact Keeps.refl _ | (apply Keeps.wr; rotate_left; decide)
    | (apply State.calEnd_after; rotate_left; decide; decide) | (apply State.modRun_after; rotate_left; decide; decide)
    | (apply State.tdContact_after; rotate_left; decide; decide)
    | (apply State.tdRelease_after; rotate_left; decide; decide)
    | (apply State.calStepWith_after; rotate_left; decide; decide; rotate_left) | apply Keeps.ite | apply Keeps.ite_fst
    | apply Keeps.ite_snd | (apply Keeps.of_eq_fst; assumption) | (apply Keeps.of_eq_snd; assumption) | (intro) | split
    | dsimp only

theorem State.calScheduleDue_after {m' q' : Nat} {u' : State} {s : State} {n : Nat} {x : Str} (h' : Keeps m' q' u' s)
    (hm' : Nat.lor 0x700000000000000000000000000000000000000000000000000000000000000000000000000000000000000000000000000000000000000000000000000000000004000000000000000000000000000000000000000000000000000000000 m' = m') (hq' : Nat.lor 0x100001 q' = q') : Keeps m' q' u' (s.calScheduleDue n x) := by
  refine Keeps.after ?_ hm' hq' h'
  clear hm' hq' h'
  unfold State.calScheduleDue
  with_reducible repeat' first
    | assumption | exact Keeps.refl _ | (apply State.calStart_after; rotate_left; decide; decide)
    | (apply State.modCal_after; rotate_left; decide; decide) | apply Keeps.ite | apply Keeps.ite_fst | apply Keeps.ite_snd
    | (intro) | split | dsimp only

theorem State.scriptResume_after {m' q' : Nat} {u' : State} {s : State} {mask : Nat} (h' : Keeps m' q' u' s)
    (hm' : Nat.lor 0x0 m' = m') (hq' : Nat.lor 0x100001 q' = q') : Keeps m' q' u' (s.scriptResume mask) := by
  refine Keeps.after ?_ hm' hq' h'
  clear hm' hq' h'
  unfold State.scriptResume
  with_reducible repeat' first
    | assumption | exact Keeps.refl _ | (apply State.modRun_after; rotate_left; decide; decide)
    | (apply State.shadowWr_after; rotate_left; decide; decide) | apply Keeps.when | apply Keeps.ite | apply Keeps.ite_fst
    | apply Keeps.ite_snd | (apply Keeps.of_eq_fst; assumption) | (apply Keeps.of_eq_snd; assumption) | (intro) | split
    | dsimp only

theorem State.calAbort_after {m' q' : Nat} {u' : State} {s : State} (h' : Keeps m' q' u' s)
    (hm' : Nat.lor 0x6100000000000000000000000000000000000000000000000000000000000000000000000000000000000000000000000000000000000000000000000000000000004000000000000000000000000000000000000000000000000000000000 m' = m') (hq' : Nat.lor 0x1142001 q' = q') : Keeps m' q' u' (s.calAbort) := by
  refine Keeps.after ?_ hm' hq' h'
  clear hm' hq' h'
  unfold State.calAbort
  with_reducible repeat' first
    | assumption | exact Keeps.refl _ | (apply State.calEnd_after; rotate_left; decide; decide)
    | (apply State.tdRelease_after; rotate_left; decide; decide) | apply Keeps.when | apply Keeps.foldl
    | apply Keeps.foldl_snd | apply Keeps.foldl_fst | (intro) | split | dsimp only

/-! ### Cores -/

theorem State.clusterOff_after {m' q' : Nat} {u' : State} {s : State} {n : Nat} (h' : Keeps m' q' u' s)
    (hm' : Nat.lor 0x2208000000000000000000000000000000000000000000000000000000000000000000000000000000000000000000000000000000000000000000000000000000000000000000000000000000000000000 m' = m') (hq' : Nat.lor 0x0 q' = q') : Keeps m' q' u' (s.clusterOff n) := by
  refine Keeps.after ?_ hm' hq' h'
  clear hm' hq' h'
  unfold State.clusterOff
  with_reducible repeat' first
    | assumption | exact Keeps.refl _ | (apply Keeps.flag; rotate_left; decide)
    | (apply State.l2Disable_after; rotate_left; decide; decide) | apply Keeps.when | apply Keeps.ite | apply Keeps.ite_fst
    | apply Keeps.ite_snd | (intro) | split | dsimp only

theorem State.coreDomain_after {m' q' : Nat} {u' : State} {s : State} {c : Nat} {on : Bool} (h' : Keeps m' q' u' s)
    (hm' : Nat.lor 0x600000000004000000000000000000000000000000000000000000000000000000000000000000000000000000000000000000000000000000000000000000000000000000000000000000000000000000000000000000000000000 m' = m') (hq' : Nat.lor 0x20000 q' = q') : Keeps m' q' u' (s.coreDomain c on) := by
  refine Keeps.after ?_ hm' hq' h'
  clear hm' hq' h'
  unfold State.coreDomain
  with_reducible repeat' first
    | assumption | exact Keeps.refl _ | (apply Keeps.flagBit; rotate_left; decide)
    | (apply Keeps.unflagBit; rotate_left; decide) | (apply State.domainMemory_after; rotate_left; decide; decide)
    | apply Keeps.ite | apply Keeps.ite_fst | apply Keeps.ite_snd | (intro) | split | dsimp only

theorem State.capacityChange_after {m' q' : Nat} {u' : State} {s : State} {before : Nat} (h' : Keeps m' q' u' s)
    (hm' : Nat.lor 0x38000000000000000000000000000000000000000000000000000000000000000000000000000000000000000000000000000000000000000000000000000000000000000000000000000000000000000000000000000000000 m' = m') (hq' : Nat.lor 0x10c2000 q' = q') : Keeps m' q' u' (s.capacityChange before) := by
  refine Keeps.after ?_ hm' hq' h'
  clear hm' hq' h'
  unfold State.capacityChange
  with_reducible repeat' first
    | assumption | exact Keeps.refl _ | (apply State.coresDegr_after; rotate_left; decide; decide)
    | (apply State.vendorEvent_after; rotate_left; decide; decide) | apply Keeps.when | (intro) | split | dsimp only

theorem State.coreOut_after {m' q' : Nat} {u' : State} {s : State} {c cause : Nat} (h' : Keeps m' q' u' s)
    (hm' : Nat.lor 0x60003800000400000000228b800000000000000000000007f39000000000000000000000000000000000000000000000000000000000000000000000000000000000000000000000000000000000000000000000000000000000000 m' = m') (hq' : Nat.lor 0x10e60c0 q' = q') : Keeps m' q' u' (s.coreOut c cause) := by
  refine Keeps.after ?_ hm' hq' h'
  clear hm' hq' h'
  unfold State.coreOut
  with_reducible repeat' first
    | assumption | exact Keeps.refl _ | (apply Keeps.wr; rotate_left; decide) | (apply Keeps.flag; rotate_left; decide)
    | (apply State.capacityChange_after; rotate_left; decide; decide)
    | (apply State.chestRow_after; rotate_left; decide; decide)
    | (apply State.clusterOff_after; rotate_left; decide; decide)
    | (apply State.coreDomain_after; rotate_left; decide; decide)
    | (apply State.logEvent_after; rotate_left; decide; decide) | (apply State.moveTasks_after; rotate_left; decide; decide)
    | (apply State.setCore_after; rotate_left; decide; decide) | (intro) | split | dsimp only

theorem State.coreReset_after {m' q' : Nat} {u' : State} {s : State} {c : Nat} (h' : Keeps m' q' u' s)
    (hm' : Nat.lor 0x80000000000000000000000000000000000000000000000000000000000000000000000000000000000000000000000000000000000000000000000000000000000000000000000000000000000000000 m' = m') (hq' : Nat.lor 0x40000 q' = q') : Keeps m' q' u' (s.coreReset c) := by
  refine Keeps.after ?_ hm' hq' h'
  clear hm' hq' h'
  unfold State.coreReset
  with_reducible repeat' first
    | assumption | exact Keeps.refl _ | (apply State.moveTasks_after; rotate_left; decide; decide) | (intro) | split
    | dsimp only

theorem State.coreRetire_after {m' q' : Nat} {u' : State} {s : State} {c cause : Nat} (h' : Keeps m' q' u' s)
    (hm' : Nat.lor 0x6000380000040000000022cb800000000000000000000007f39000000000000000000000000000000000000000000000000000000000000000000000000000000000000000000000000000000000000000000000000000000000000 m' = m') (hq' : Nat.lor 0x10e60c0 q' = q') : Keeps m' q' u' (s.coreRetire c cause) := by
  refine Keeps.after ?_ hm' hq' h'
  clear hm' hq' h'
  unfold State.coreRetire
  with_reducible repeat' first
    | assumption | exact Keeps.refl _ | (apply Keeps.bump; rotate_left; decide)
    | (apply State.coreOut_after; rotate_left; decide; decide) | (apply State.coreReset_after; rotate_left; decide; decide)
    | apply Keeps.ite | apply Keeps.ite_fst | apply Keeps.ite_snd | (intro) | split | dsimp only

theorem State.coreWatchdog_after {m' q' : Nat} {u' : State} {s : State} {c : Nat} (h' : Keeps m' q' u' s)
    (hm' : Nat.lor 0x6000380000040000000022cf800000000000000000000007f39000000000000000000000000000000000000000000000000000000000000000000000000000000000000000000000000000000000000000000000000000000000000 m' = m') (hq' : Nat.lor 0x10e60c0 q' = q') : Keeps m' q' u' (s.coreWatchdog c) := by
  refine Keeps.after ?_ hm' hq' h'
  clear hm' hq' h'
  unfold State.coreWatchdog
  with_reducible repeat' first
    | assumption | exact Keeps.refl _ | (apply Keeps.flag; rotate_left; decide) | (apply Keeps.bump; rotate_left; decide)
    | (apply State.coreReset_after; rotate_left; decide; decide)
    | (apply State.coreRetire_after; rotate_left; decide; decide) | (apply State.modBur_after; rotate_left; decide; decide)
    | apply Keeps.ite | apply Keeps.ite_fst | apply Keeps.ite_snd | (intro) | split | dsimp only

theorem State.coreBack_after {m' q' : Nat} {u' : State} {s : State} {c : Nat} (h' : Keeps m' q' u' s)
    (hm' : Nat.lor 0x38000000000000000008800000000000000000000007f39000000000000000000000000000000000000000000000000000000000000000000000000000000000000000000000000000000000000000000000000000000000000 m' = m') (hq' : Nat.lor 0x10c6000 q' = q') : Keeps m' q' u' (s.coreBack c) := by
  refine Keeps.after ?_ hm' hq' h'
  clear hm' hq' h'
  unfold State.coreBack
  with_reducible repeat' first
    | assumption | exact Keeps.refl _ | (apply Keeps.unflag; rotate_left; decide)
    | (apply State.chestRow_after; rotate_left; decide; decide) | (apply State.coresDegr_after; rotate_left; decide; decide)
    | (apply State.modBur_after; rotate_left; decide; decide)
    | (apply State.scheduleTasks_after; rotate_left; decide; decide)
    | (apply State.setCore_after; rotate_left; decide; decide) | (intro) | split | dsimp only

theorem State.coreSelfTest_after {m' q' : Nat} {u' : State} {s : State} {c : Nat} {passed : Bool} (h' : Keeps m' q' u' s)
    (hm' : Nat.lor 0x6000380000040000000022cb800000000000000000000007f39000000000000000000000000000000000000000000000000000000000000000000000000000000000000000000000000000000000000000000000000000000000000 m' = m') (hq' : Nat.lor 0x10e60c0 q' = q') : Keeps m' q' u' (s.coreSelfTest c passed) := by
  refine Keeps.after ?_ hm' hq' h'
  clear hm' hq' h'
  unfold State.coreSelfTest
  with_reducible repeat' first
    | assumption | exact Keeps.refl _ | (apply Keeps.wr; rotate_left; decide)
    | (apply State.coreBack_after; rotate_left; decide; decide)
    | (apply State.coreDomain_after; rotate_left; decide; decide)
    | (apply State.coreRetire_after; rotate_left; decide; decide) | (apply State.setCore_after; rotate_left; decide; decide)
    | (apply State.settleRequests_after; rotate_left; decide; decide) | apply Keeps.ite | apply Keeps.ite_fst
    | apply Keeps.ite_snd | (intro) | split | dsimp only

theorem State.coreRetireMask_after {m' q' : Nat} {u' : State} {s : State} {n mask : Nat} (h' : Keeps m' q' u' s)
    (hm' : Nat.lor 0x6000380000040000000022cb800000000000000000000007f39000000000000000000000000000000000000000000000000000000000000000000000000000000000000000000000000000000000000000000000000000000000000 m' = m') (hq' : Nat.lor 0x10e60c0 q' = q') : Keeps m' q' u' (s.coreRetireMask n mask) := by
  refine Keeps.after ?_ hm' hq' h'
  clear hm' hq' h'
  unfold State.coreRetireMask
  with_reducible repeat' first
    | assumption | exact Keeps.refl _ | (apply State.coreRetire_after; rotate_left; decide; decide) | apply Keeps.when
    | apply Keeps.foldl | apply Keeps.foldl_snd | apply Keeps.foldl_fst | (intro) | split | dsimp only

theorem State.coreTest_after {m' q' : Nat} {u' : State} {s : State} {c : Nat} (h' : Keeps m' q' u' s)
    (hm' : Nat.lor 0x600000000004000000000000800000000000000000000000000000000000000000000000000000000000000000000000000000000000000000000000000000000000000000000000000000000000000000000000000000000000000 m' = m') (hq' : Nat.lor 0x20000 q' = q') : Keeps m' q' u' (s.coreTest c) := by
  refine Keeps.after ?_ hm' hq' h'
  clear hm' hq' h'
  unfold State.coreTest
  with_reducible repeat' first
    | assumption | exact Keeps.refl _ | (apply State.coreDomain_after; rotate_left; decide; decide)
    | (apply State.setCore_after; rotate_left; decide; decide) | apply Keeps.ite | apply Keeps.ite_fst | apply Keeps.ite_snd
    | (intro) | split | dsimp only

theorem State.coreUnretireMask_after {m' q' : Nat} {u' : State} {s : State} {n mask : Nat} (h' : Keeps m' q' u' s)
    (hm' : Nat.lor 0x600000000004000000000010800000000000000000000000000000000000000000000000000000000000000000000000000000000000000000000000000000000000000000000000000000000000000000000000000000000000000 m' = m') (hq' : Nat.lor 0x20000 q' = q') : Keeps m' q' u' (s.coreUnretireMask n mask).2 := by
  refine Keeps.after ?_ hm' hq' h'
  clear hm' hq' h'
  unfold State.coreUnretireMask
  with_reducible repeat' first
    | assumption | exact Keeps.refl _ | (apply Keeps.flag; rotate_left; decide)
    | (apply State.coreTest_after; rotate_left; decide; decide) | apply Keeps.when | apply Keeps.ite | apply Keeps.ite_fst
    | apply Keeps.ite_snd | apply Keeps.foldl | apply Keeps.foldl_snd | apply Keeps.foldl_fst | (intro) | split | dsimp only

/-! ### RegisterWrite -/

theorem State.setField_after {m' q' : Nat} {u' : State} {s : State} {r : RegRow} {inst k v : Nat} (h' : Keeps m' q' u' s)
    (hm' : Nat.lor 0x3fffffffffffffffffffffffffffffffffffffffffffffffffffffffffffffffffffffffffffffffffffffffffffffffffffffffffffffffffffffffffffffffffffffffffffffffffffffffffffffffffffffffffffffffffffffffffffffffffffffffffff m' = m') (hq' : Nat.lor 0x12e79c7 q' = q') : Keeps m' q' u' (s.setField r inst k v).2 := by
  refine Keeps.after ?_ hm' hq' h'
  clear hm' hq' h'
  unfold State.setField
  with_reducible repeat' first
    | assumption | exact Keeps.refl _ | (apply Keeps.wr; rotate_left; decide) | (apply Keeps.flag; rotate_left; decide)
    | (apply State.captureMode_after; rotate_left; decide; decide)
    | (apply State.channelSetWrite_after; rotate_left; decide; decide)
    | (apply State.domainWrite_after; rotate_left; decide; decide)
    | (apply State.l2Disable_after; rotate_left; decide; decide) | (apply State.l2Enable_after; rotate_left; decide; decide)
    | (apply State.modStr_after; rotate_left; decide; decide) | (apply State.modWrp_after; rotate_left; decide; decide)
    | (apply State.queueIdle_after; rotate_left; decide; decide)
    | (apply State.ratInvalidate_after; rotate_left; decide; decide)
    | (apply State.shadowWr_after; rotate_left; decide; decide) | (apply State.slotShow_after; rotate_left; decide; decide)
    | (apply State.streamRefresh_after; rotate_left; decide; decide)
    | (apply State.tableLoad_after; rotate_left; decide; decide) | (apply State.throttle_after; rotate_left; decide; decide)
    | (apply State.writeHtrRd_after; rotate_left; decide; decide) | (apply Keeps.wr; rotate_left; exact allRegs_self _)
    | apply Keeps.when | apply Keeps.ite | apply Keeps.ite_fst | apply Keeps.ite_snd | (apply Keeps.of_eq_fst; assumption)
    | (apply Keeps.of_eq_snd; assumption) | (intro) | split | dsimp only

theorem State.action_after {m' q' : Nat} {u' : State} {s : State} {r : RegRow} {inst k v outcome : Nat} (h' : Keeps m' q' u' s)
    (hm' : Nat.lor 0x610000060087800010433800002a2db97800390000fc20107e302b7ffd01f84008f38000000418b0000018000b1607fff9c0026c8f40fffffffffffffffc1400000040021406000080000000114000000383fc00c004c00002064238003a00 m' = m') (hq' : Nat.lor 0x11fffe7 q' = q') : Keeps m' q' u' (s.action r inst k v outcome).2 := by
  refine Keeps.after ?_ hm' hq' h'
  clear hm' hq' h'
  unfold State.action
  with_reducible repeat' first
    | assumption | exact Keeps.refl _ | (apply Keeps.flag; rotate_left; decide)
    | (apply State.abortClr_after; rotate_left; decide; decide) | (apply State.accClear_after; rotate_left; decide; decide)
    | (apply State.bankSwitch_after; rotate_left; decide; decide) | (apply State.bgGo_after; rotate_left; decide; decide)
    | (apply State.bridgeGo_after; rotate_left; decide; decide) | (apply State.calAbort_after; rotate_left; decide; decide)
    | (apply State.capoArm_after; rotate_left; decide; decide) | (apply State.capoDisarm_after; rotate_left; decide; decide)
    | (apply State.coreRetireMask_after; rotate_left; decide; decide)
    | (apply State.coreUnretireMask_after; rotate_left; decide; decide)
    | (apply State.fill_after; rotate_left; decide; decide) | (apply State.functionReset_after; rotate_left; decide; decide)
    | (apply State.harpRetire_after; rotate_left; decide; decide)
    | (apply State.harpUnretire_after; rotate_left; decide; decide) | (apply State.katGo_after; rotate_left; decide; decide)
    | (apply State.maintGo_after; rotate_left; decide; decide)
    | (apply State.phvRetireMask_after; rotate_left; decide; decide)
    | (apply State.phvUnretireMask_after; rotate_left; decide; decide)
    | (apply State.rawRead_after; rotate_left; decide; decide) | (apply State.rawWrite_after; rotate_left; decide; decide)
    | (apply State.remeasure_after; rotate_left; decide; decide)
    | (apply State.requestRetract_after; rotate_left; decide; decide)
    | (apply State.sceLoad_after; rotate_left; decide; decide) | (apply State.seqGoOp_after; rotate_left; decide; decide)
    | (apply State.seqIrq_after; rotate_left; decide; decide) | (apply State.seqRst_after; rotate_left; decide; decide)
    | (apply State.seqStop_after; rotate_left; decide; decide) | (apply State.slotGo_after; rotate_left; decide; decide)
    | (apply State.speStartOp_after; rotate_left; decide; decide)
    | (apply State.speStopOp_after; rotate_left; decide; decide)
    | (apply State.strlostClr_after; rotate_left; decide; decide) | (apply State.svdAcq_after; rotate_left; decide; decide)
    | (apply State.svdIdle_after; rotate_left; decide; decide) | (apply State.tapsPosted_after; rotate_left; decide; decide)
    | apply Keeps.when | (apply Keeps.of_eq_fst; assumption) | (apply Keeps.of_eq_snd; assumption) | (intro) | split
    | dsimp only

theorem State.refuseWrite_after {m' q' : Nat} {u' : State} {s : State} {b : Blk} {i : Nat} (h' : Keeps m' q' u' s)
    (hm' : Nat.lor 0x200001000000000040000000200000010010000008000000400000000000000000040000000800000020000000000008000400000000080000000000000100000800000000002000000020000000000000000020000000400000000000200000000 m' = m') (hq' : Nat.lor 0x0 q' = q') : Keeps m' q' u' (s.refuseWrite b i).2 := by
  refine Keeps.after ?_ hm' hq' h'
  unfold State.refuseWrite lockFlag
  cases b <;> first | exact (Keeps.refl _).flag rfl | exact Keeps.refl _

theorem State.writeField_after {m' q' : Nat} {u' : State} {s : State} {r : RegRow} {inst k v : Nat} (h' : Keeps m' q' u' s)
    (hm' : Nat.lor 0x3fffffffffffffffffffffffffffffffffffffffffffffffffffffffffffffffffffffffffffffffffffffffffffffffffffffffffffffffffffffffffffffffffffffffffffffffffffffffffffffffffffffffffffffffffffffffffffffffffffffffffff m' = m') (hq' : Nat.lor 0x12e79c7 q' = q') : Keeps m' q' u' (s.writeField r inst k v).2 := by
  refine Keeps.after ?_ hm' hq' h'
  clear hm' hq' h'
  unfold State.writeField
  with_reducible repeat' first
    | assumption | exact Keeps.refl _ | (apply Keeps.wr; rotate_left; decide) | (apply Keeps.flag; rotate_left; decide)
    | (apply State.refuseWrite_after; rotate_left; decide; decide)
    | (apply State.setField_after; rotate_left; decide; decide)
    | (apply State.shadowDrop_after; rotate_left; decide; decide)
    | (apply State.shadowWr_after; rotate_left; decide; decide)
    | (apply State.speSetptOp_after; rotate_left; decide; decide) | (apply State.wrArm_after; rotate_left; decide; decide)
    | (apply State.writePathEnable_after; rotate_left; decide; decide) | (apply Keeps.wr; rotate_left; exact allRegs_self _)
    | apply Keeps.ite | apply Keeps.ite_fst | apply Keeps.ite_snd | (apply Keeps.of_eq_fst; assumption)
    | (apply Keeps.of_eq_snd; assumption) | (intro) | split | dsimp only

theorem State.writeReg_after {m' q' : Nat} {u' : State} {s : State} {b : Blk} {inst off v mask outcome : Nat} (h' : Keeps m' q' u' s)
    (hm' : Nat.lor 0x3fffffffffffffffffffffffffffffffffffffffffffffffffffffffffffffffffffffffffffffffffffffffffffffffffffffffffffffffffffffffffffffffffffffffffffffffffffffffffffffffffffffffffffffffffffffffffffffffffffffffffff m' = m') (hq' : Nat.lor 0x13fffe7 q' = q') : Keeps m' q' u' (s.writeReg b inst off v mask outcome).2 := by
  refine Keeps.after ?_ hm' hq' h'
  clear hm' hq' h'
  unfold State.writeReg
  with_reducible repeat' first
    | assumption | exact Keeps.refl _ | (apply Keeps.setTo; rotate_left; decide)
    | (apply State.action_after; rotate_left; decide; decide) | (apply State.refuseWrite_after; rotate_left; decide; decide)
    | (apply State.writeField_after; rotate_left; decide; decide) | apply Keeps.ite | apply Keeps.ite_fst
    | apply Keeps.ite_snd | apply Keeps.foldl | apply Keeps.foldl_snd | apply Keeps.foldl_fst
    | (apply Keeps.of_eq_fst; assumption) | (apply Keeps.of_eq_snd; assumption) | (intro) | split | dsimp only

theorem State.requesterWrite_after {m' q' : Nat} {u' : State} {s : State} {req : Nat} {m : MemRegion} {a v n : Nat} (h' : Keeps m' q' u' s)
    (hm' : Nat.lor 0x78020000000000000000000000000007f39000000000000000000000000000000000000000000000000000000000000000000000000000000000000000000000000000000000000000000000000000000000000 m' = m') (hq' : Nat.lor 0x24022 q' = q') : Keeps m' q' u' (s.requesterWrite req m a v n) := by
  refine Keeps.after ?_ hm' hq' h'
  clear hm' hq' h'
  unfold State.requesterWrite
  with_reducible repeat' first
    | assumption | exact Keeps.refl _ | (apply State.coreWrite_after; rotate_left; decide; decide)
    | (apply State.regionWrite_after; rotate_left; decide; decide) | apply Keeps.ite | apply Keeps.ite_fst
    | apply Keeps.ite_snd | (intro) | split | dsimp only

theorem State.writeWord_after {m' q' : Nat} {u' : State} {s : State} {req a v mask outcome : Nat} (h' : Keeps m' q' u' s)
    (hm' : Nat.lor 0x3fffffffffffffffffffffffffffffffffffffffffffffffffffffffffffffffffffffffffffffffffffffffffffffffffffffffffffffffffffffffffffffffffffffffffffffffffffffffffffffffffffffffffffffffffffffffffffffffffffffffffff m' = m') (hq' : Nat.lor 0x13fffef q' = q') : Keeps m' q' u' (s.writeWord req a v mask outcome).2 := by
  refine Keeps.after ?_ hm' hq' h'
  clear hm' hq' h'
  unfold State.writeWord
  with_reducible repeat' first
    | assumption | exact Keeps.refl _ | (apply State.fabricError_after; rotate_left; decide; decide)
    | (apply State.microwordWrite_after; rotate_left; decide; decide)
    | (apply State.requesterWrite_after; rotate_left; decide; decide)
    | (apply State.writeReg_after; rotate_left; decide; decide) | apply Keeps.ite | apply Keeps.ite_fst
    | apply Keeps.ite_snd | (apply Keeps.of_eq_fst; assumption) | (apply Keeps.of_eq_snd; assumption) | (intro) | split
    | dsimp only

theorem State.writeAccess_after {m' q' : Nat} {u' : State} {s : State} {req a bytes v outcome : Nat} (h' : Keeps m' q' u' s)
    (hm' : Nat.lor 0x3fffffffffffffffffffffffffffffffffffffffffffffffffffffffffffffffffffffffffffffffffffffffffffffffffffffffffffffffffffffffffffffffffffffffffffffffffffffffffffffffffffffffffffffffffffffffffffffffffffffffffff m' = m') (hq' : Nat.lor 0x13fffef q' = q') : Keeps m' q' u' (s.writeAccess req a bytes v outcome) := by
  refine Keeps.after ?_ hm' hq' h'
  clear hm' hq' h'
  unfold State.writeAccess
  with_reducible repeat' first
    | assumption | exact Keeps.refl _ | (apply State.fabricError_after; rotate_left; decide; decide)
    | (apply State.requesterWrite_after; rotate_left; decide; decide)
    | (apply State.writeWord_after; rotate_left; decide; decide) | apply Keeps.ite | apply Keeps.ite_fst
    | apply Keeps.ite_snd | (apply Keeps.of_eq_fst; assumption) | (apply Keeps.of_eq_snd; assumption) | (intro) | split
    | dsimp only

/-! ### Cibor -/

theorem State.dropTransfer_after {m' q' : Nat} {u' : State} {s : State} {source : Nat} (h' : Keeps m' q' u' s)
    (hm' : Nat.lor 0x0 m' = m') (hq' : Nat.lor 0x40000 q' = q') : Keeps m' q' u' (s.dropTransfer source) := by
  refine Keeps.after ?_ hm' hq' h'
  clear hm' hq' h'
  unfold State.dropTransfer
  with_reducible repeat' first
    | assumption | exact Keeps.refl _ | (apply State.modBur_after; rotate_left; decide; decide) | (intro) | split
    | dsimp only

theorem State.accept_after {m' q' : Nat} {u' : State} {s : State} {r : CiborRequest} (h' : Keeps m' q' u' s)
    (hm' : Nat.lor 0x0 m' = m') (hq' : Nat.lor 0x40000 q' = q') : Keeps m' q' u' (s.accept r) := by
  refine Keeps.after ?_ hm' hq' h'
  clear hm' hq' h'
  unfold State.accept
  with_reducible repeat' first
    | assumption | exact Keeps.refl _ | (apply State.modBur_after; rotate_left; decide; decide) | (intro) | split
    | dsimp only

theorem State.ciborArrive_after {m' q' : Nat} {u' : State} {s : State} {source : Nat} {bs : List Nat} (h' : Keeps m' q' u' s)
    (hm' : Nat.lor 0x0 m' = m') (hq' : Nat.lor 0x40000 q' = q') : Keeps m' q' u' (s.ciborArrive source bs).2 := by
  refine Keeps.after ?_ hm' hq' h'
  clear hm' hq' h'
  unfold State.ciborArrive
  with_reducible repeat' first
    | assumption | exact Keeps.refl _ | (apply State.accept_after; rotate_left; decide; decide)
    | (apply State.dropTransfer_after; rotate_left; decide; decide)
    | (apply State.modBur_after; rotate_left; decide; decide) | apply Keeps.ite | apply Keeps.ite_fst | apply Keeps.ite_snd
    | (apply Keeps.of_eq_fst; assumption) | (apply Keeps.of_eq_snd; assumption) | (intro) | split | dsimp only

theorem State.benchPacket_after {m' q' : Nat} {u' : State} {s : State} {bs : List Nat} (h' : Keeps m' q' u' s)
    (hm' : Nat.lor 0x0 m' = m') (hq' : Nat.lor 0x1040000 q' = q') : Keeps m' q' u' (s.benchPacket bs) := by
  refine Keeps.after ?_ hm' hq' h'
  clear hm' hq' h'
  unfold State.benchPacket
  with_reducible repeat' first
    | assumption | exact Keeps.refl _ | (apply State.ciborArrive_after; rotate_left; decide; decide)
    | (apply State.emit_after; rotate_left; decide; decide) | apply Keeps.ite | apply Keeps.ite_fst | apply Keeps.ite_snd
    | (apply Keeps.of_eq_fst; assumption) | (apply Keeps.of_eq_snd; assumption) | (intro) | split | dsimp only

theorem State.ciborSend_after {m' q' : Nat} {u' : State} {s : State} {f : Nat} (h' : Keeps m' q' u' s)
    (hm' : Nat.lor 0x0 m' = m') (hq' : Nat.lor 0x42000 q' = q') : Keeps m' q' u' (s.ciborSend f) := by
  refine Keeps.after ?_ hm' hq' h'
  clear hm' hq' h'
  unfold State.ciborSend
  with_reducible repeat' first
    | assumption | exact Keeps.refl _ | (apply State.ciborArrive_after; rotate_left; decide; decide)
    | (apply State.finish_after; rotate_left; decide; decide)
    | (apply State.admin_after; rotate_left; decide; decide; rotate_left) | (apply Keeps.of_eq_fst; assumption)
    | (apply Keeps.of_eq_snd; assumption) | (intro) | split | dsimp only

theorem State.ciborReceive_after {m' q' : Nat} {u' : State} {s : State} {f : Nat} (h' : Keeps m' q' u' s)
    (hm' : Nat.lor 0x0 m' = m') (hq' : Nat.lor 0x1042000 q' = q') : Keeps m' q' u' (s.ciborReceive f) := by
  refine Keeps.after ?_ hm' hq' h'
  clear hm' hq' h'
  unfold State.ciborReceive
  with_reducible repeat' first
    | assumption | exact Keeps.refl _ | (apply State.finish_after; rotate_left; decide; decide)
    | (apply State.giveReply_after; rotate_left; decide; decide)
    | (apply State.admin_after; rotate_left; decide; decide; rotate_left) | apply Keeps.ite | apply Keeps.ite_fst
    | apply Keeps.ite_snd | (apply Keeps.of_eq_fst; assumption) | (apply Keeps.of_eq_snd; assumption) | (intro) | split
    | dsimp only

theorem State.replyWait_after {m' q' : Nat} {u' : State} {s : State} {f : Nat} (h' : Keeps m' q' u' s)
    (hm' : Nat.lor 0x0 m' = m') (hq' : Nat.lor 0x2000 q' = q') : Keeps m' q' u' (s.replyWait f) := by
  refine Keeps.after ?_ hm' hq' h'
  clear hm' hq' h'
  unfold State.replyWait
  with_reducible repeat' first
    | assumption | exact Keeps.refl _ | (apply State.finish_after; rotate_left; decide; decide) | apply Keeps.ite
    | apply Keeps.ite_fst | apply Keeps.ite_snd | (apply Keeps.of_eq_fst; assumption) | (apply Keeps.of_eq_snd; assumption)
    | (intro) | split | dsimp only

theorem State.replyExpire_after {m' q' : Nat} {u' : State} {s : State} {source tag : Nat} (h' : Keeps m' q' u' s)
    (hm' : Nat.lor 0x0 m' = m') (hq' : Nat.lor 0x40000 q' = q') : Keeps m' q' u' (s.replyExpire source tag) := by
  refine Keeps.after ?_ hm' hq' h'
  clear hm' hq' h'
  unfold State.replyExpire
  with_reducible repeat' first
    | assumption | exact Keeps.refl _ | (apply State.modBur_after; rotate_left; decide; decide) | (intro) | split
    | dsimp only

theorem State.tunnel_after {m' q' : Nat} {u' : State} {s : State} {k nsid : Nat} {op : HostOp} {f : State → Nat → State} (k' : Keeps m' q' u' s)
    (hm' : Nat.lor 0x0 m' = m') (hq' : Nat.lor 0x1002000 q' = q') (h : ∀ s n, Keeps m' q' u' s → Keeps m' q' u' (f s n)) :
    Keeps m' q' u' (s.tunnel k nsid op f) := by
  unfold State.tunnel
  with_reducible repeat' first
    | assumption | exact Keeps.refl _
    | (apply State.modHost_after; rotate_left; (first | exact bit_of hm' (by decide) | exact bit_of hq' (by decide) | exact lor_of hm' (by decide) | exact lor_of hq' (by decide)); (first | exact bit_of hm' (by decide) | exact bit_of hq' (by decide) | exact lor_of hm' (by decide) | exact lor_of hq' (by decide)))
    | apply Keeps.ite | apply Keeps.ite_fst | apply Keeps.ite_snd | (apply Keeps.of_eq_fst; assumption)
    | (apply Keeps.of_eq_snd; assumption) | apply h | (intro) | split | dsimp only
    | (apply Keeps.with_out; rotate_left; (first | exact bit_of hm' (by decide) | exact bit_of hq' (by decide) | exact lor_of hm' (by decide) | exact lor_of hq' (by decide)))

theorem State.miReceive_after {m' q' : Nat} {u' : State} {s : State} {numd tag : Nat} {any : Bool} (h' : Keeps m' q' u' s)
    (hm' : Nat.lor 0x0 m' = m') (hq' : Nat.lor 0x1040000 q' = q') : Keeps m' q' u' (s.miReceive numd tag any) := by
  refine Keeps.after ?_ hm' hq' h'
  clear hm' hq' h'
  unfold State.miReceive
  with_reducible repeat' first
    | assumption | exact Keeps.refl _ | (apply State.emit_after; rotate_left; decide; decide)
    | (apply State.miReply_after; rotate_left; decide; decide)
    | (apply State.replyExpire_after; rotate_left; decide; decide) | apply Keeps.ite | apply Keeps.ite_fst
    | apply Keeps.ite_snd | (apply Keeps.of_eq_fst; assumption) | (apply Keeps.of_eq_snd; assumption) | (intro) | split
    | dsimp only

theorem State.miTunnel_after {m' q' : Nat} {u' : State} {s : State} {k nsid : Nat} {op : HostOp} (h' : Keeps m' q' u' s)
    (hm' : Nat.lor 0x0 m' = m') (hq' : Nat.lor 0x1042000 q' = q') : Keeps m' q' u' (s.miTunnel k nsid op) := by
  refine Keeps.after ?_ hm' hq' h'
  clear hm' hq' h'
  unfold State.miTunnel
  with_reducible repeat' first
    | assumption | exact Keeps.refl _ | (apply State.ciborArrive_after; rotate_left; decide; decide)
    | (apply State.emit_after; rotate_left; decide; decide) | (apply State.getFeatures_after; rotate_left; decide; decide)
    | (apply State.getLogPage_after; rotate_left; decide; decide)
    | (apply State.miReceive_after; rotate_left; decide; decide)
    | (apply State.nvmeIdentify_after; rotate_left; decide; decide)
    | (apply State.tunnel_after; rotate_left; decide; decide; rotate_left) | (apply Keeps.of_eq_fst; assumption)
    | (apply Keeps.of_eq_snd; assumption) | (intro) | split | dsimp only

theorem State.cibor_after {m' q' : Nat} {u' : State} {s : State} {op source tag : Nat} {f : State → CiborRequest → State} (k' : Keeps m' q' u' s)
    (hm' : Nat.lor 0x0 m' = m') (hq' : Nat.lor 0x1042000 q' = q') (h : ∀ s r, Keeps m' q' u' s → Keeps m' q' u' (f s r)) :
    Keeps m' q' u' (s.cibor op source tag f) := by
  unfold State.cibor
  with_reducible repeat' first
    | assumption | exact Keeps.refl _
    | (apply State.reply_after; rotate_left; (first | exact bit_of hm' (by decide) | exact bit_of hq' (by decide) | exact lor_of hm' (by decide) | exact lor_of hq' (by decide)); (first | exact bit_of hm' (by decide) | exact bit_of hq' (by decide) | exact lor_of hm' (by decide) | exact lor_of hq' (by decide)))
    | apply Keeps.ite | apply Keeps.ite_fst | apply Keeps.ite_snd | (apply Keeps.of_eq_fst; assumption)
    | (apply Keeps.of_eq_snd; assumption) | apply h | (intro) | split | dsimp only

theorem State.beginRequest_after {m' q' : Nat} {u' : State} {s : State} {r : CiborRequest} (h' : Keeps m' q' u' s)
    (hm' : Nat.lor 0x18000000000000000000000000000000000000000000000000000000000000000000000000000000000000000000000000000000000000000000000000000000000000000000000000000000000000000000000000000000000 m' = m') (hq' : Nat.lor 0x10c2000 q' = q') : Keeps m' q' u' (s.beginRequest r) := by
  refine Keeps.after ?_ hm' hq' h'
  clear hm' hq' h'
  unfold State.beginRequest
  with_reducible repeat' first
    | assumption | exact Keeps.refl _ | (apply State.modRequest_after; rotate_left; decide; decide)
    | (apply State.refreshMode_after; rotate_left; decide; decide) | (intro) | split | dsimp only

/-! ### Management -/

theorem State.mgmtIdentify_after {m' q' : Nat} {u' : State} {s : State} {r : CiborRequest} (h' : Keeps m' q' u' s)
    (hm' : Nat.lor 0x0 m' = m') (hq' : Nat.lor 0x1042020 q' = q') : Keeps m' q' u' (s.mgmtIdentify r) := by
  refine Keeps.after ?_ hm' hq' h'
  clear hm' hq' h'
  unfold State.mgmtIdentify
  with_reducible repeat' first
    | assumption | exact Keeps.refl _ | (apply State.drawn_after; rotate_left; decide; decide)
    | (apply State.reply_after; rotate_left; decide; decide) | (intro) | split | dsimp only

theorem State.readWords_after {m' q' : Nat} {u' : State} {s : State} {req a : Nat} {fuel : Nat} (h' : Keeps m' q' u' s)
    (hm' : Nat.lor 0xf67000007802000007800180000000000000000000000000000000000000000000000000000000000000000000000000000000000000000000000000000000000000000000080000000000000000000000000000000007f m' = m') (hq' : Nat.lor 0x1020822 q' = q') : Keeps m' q' u' (s.readWords req a fuel).2 := by
  refine Keeps.after ?_ hm' hq' h'
  clear hm' hq' h'
  suffices H : ∀ u, Keeps 0xf67000007802000007800180000000000000000000000000000000000000000000000000000000000000000000000000000000000000000000000000000000000000000000080000000000000000000000000000000007f 0x1020822 u s → Keeps 0xf67000007802000007800180000000000000000000000000000000000000000000000000000000000000000000000000000000000000000000000000000000000000000000080000000000000000000000000000000007f 0x1020822 u (s.readWords req a fuel).2 from H _ (Keeps.refl _)
  induction fuel generalizing s req a with
  | zero =>
    intro u hu
    simp only [State.readWords]
    with_reducible repeat' first
      | assumption | exact Keeps.refl _ | (apply State.readWord_after; rotate_left; decide; decide)
      | (apply Keeps.of_eq_fst; assumption) | (apply Keeps.of_eq_snd; assumption) | (intro) | split | dsimp only
  | succ k ih =>
    intro u hu
    simp only [State.readWords]
    with_reducible repeat' first
      | assumption | exact Keeps.refl _ | (apply State.readWord_after; rotate_left; decide; decide) | apply ih
      | (apply Keeps.of_eq_fst; assumption) | (apply Keeps.of_eq_snd; assumption) | (intro) | split | dsimp only

theorem State.mgmtRead_after {m' q' : Nat} {u' : State} {s : State} {r : CiborRequest} (h' : Keeps m' q' u' s)
    (hm' : Nat.lor 0xf67000007802000007800180000000000000000000000000000000000000000000000000000000000000000000000000000000000000000000000000000000000000000000080000000000000000000000000000000007f m' = m') (hq' : Nat.lor 0x1062822 q' = q') : Keeps m' q' u' (s.mgmtRead r) := by
  refine Keeps.after ?_ hm' hq' h'
  clear hm' hq' h'
  unfold State.mgmtRead
  with_reducible repeat' first
    | assumption | exact Keeps.refl _ | (apply State.readWords_after; rotate_left; decide; decide)
    | (apply State.reply_after; rotate_left; decide; decide) | apply Keeps.ite | apply Keeps.ite_fst | apply Keeps.ite_snd
    | (apply Keeps.of_eq_fst; assumption) | (apply Keeps.of_eq_snd; assumption) | (intro) | split | dsimp only

theorem State.mgmtWritten_after {m' q' : Nat} {u' : State} {s : State} {r : CiborRequest} {a : Nat} {c : Option CStat} (h' : Keeps m' q' u' s)
    (hm' : Nat.lor 0x3fffffffffffffffffffffffffffffffffffffffffffffffffffffffffffffffffffffffffffffffffffffffffffffffffffffffffffffffffffffffffffffffffffffffffffffffffffffffffffffffffffffffffffffffffffffffffffffffffffffffffff m' = m') (hq' : Nat.lor 0x13fffef q' = q') : Keeps m' q' u' (s.mgmtWritten r a c) := by
  refine Keeps.after (m := 0x3fffffffffffffffffffffffffffffffffffffffffffffffffffffffffffffffffffffffffffffffffffffffffffffffffffffffffffffffffffffffffffffffffffffffffffffffffffffffffffffffffffffffffffffffffffffffffffffffffffffffffff) (q := 0x13fffef) ?_ hm' hq' h'
  cases c with
  | none => exact State.reply_after (Keeps.refl _) rfl rfl
  | some st =>
    refine State.settleRequests_after (State.reply_after ?_ rfl rfl) rfl rfl
    exact State.readWord_after (Keeps.refl _) rfl rfl

theorem State.mgmtWrite_keeps (s : State) (r : CiborRequest) (outcome : Nat) : Keeps 0x3fffffffffffffffffffffffffffffffffffffffffffffffffffffffffffffffffffffffffffffffffffffffffffffffffffffffffffffffffffffffffffffffffffffffffffffffffffffffffffffffffffffffffffffffffffffffffffffffffffffffffff 0x13fffef s (s.mgmtWrite r outcome) := by
  unfold State.mgmtWrite
  extract_lets a
  clear_value a
  refine Keeps.ite (fun _ => State.reply_after (Keeps.refl _) rfl rfl) fun _ => ?_
  refine Keeps.ite (fun _ => State.reply_after (Keeps.refl _) rfl rfl) fun _ => ?_
  exact State.mgmtWritten_after (State.writeWord_after (Keeps.refl _) rfl rfl) rfl rfl

theorem State.mgmtWrite_after {m' q' : Nat} {u' : State} {s : State} {r : CiborRequest} {outcome : Nat} (h' : Keeps m' q' u' s)
    (hm' : Nat.lor 0x3fffffffffffffffffffffffffffffffffffffffffffffffffffffffffffffffffffffffffffffffffffffffffffffffffffffffffffffffffffffffffffffffffffffffffffffffffffffffffffffffffffffffffffffffffffffffffffffffffffffffffff m' = m') (hq' : Nat.lor 0x13fffef q' = q') : Keeps m' q' u' (s.mgmtWrite r outcome) := (State.mgmtWrite_keeps s r outcome).after hm' hq' h'

theorem State.writeWords_after {m' q' : Nat} {u' : State} (ws : List Nat) {s : State} {req a : Nat} (h' : Keeps m' q' u' s)
    (hm' : Nat.lor 0x3fffffffffffffffffffffffffffffffffffffffffffffffffffffffffffffffffffffffffffffffffffffffffffffffffffffffffffffffffffffffffffffffffffffffffffffffffffffffffffffffffffffffffffffffffffffffffffffffffffffffffff m' = m') (hq' : Nat.lor 0x13fffef q' = q') : Keeps m' q' u' (State.writeWords s req a ws).2 := by
  induction ws generalizing s a with
  | nil => exact h'
  | cons w ws ih =>
    unfold State.writeWords
    dsimp only
    refine ih ?_
    exact (State.writeWord_after (Keeps.refl _) rfl rfl).after hm' hq' h'

theorem State.mgmtTable_after {m' q' : Nat} {u' : State} {s : State} {r : CiborRequest} (h' : Keeps m' q' u' s)
    (hm' : Nat.lor 0x3fffffffffffffffffffffffffffffffffffffffffffffffffffffffffffffffffffffffffffffffffffffffffffffffffffffffffffffffffffffffffffffffffffffffffffffffffffffffffffffffffffffffffffffffffffffffffffffffffffffffffff m' = m') (hq' : Nat.lor 0x13fffef q' = q') : Keeps m' q' u' (s.mgmtTable r) := by
  refine Keeps.after ?_ hm' hq' h'
  clear hm' hq' h'
  unfold State.mgmtTable
  with_reducible repeat' first
    | assumption | exact Keeps.refl _ | (apply State.reply_after; rotate_left; decide; decide)
    | (apply State.writeWords_after; rotate_left; decide; decide) | apply Keeps.ite | apply Keeps.ite_fst
    | apply Keeps.ite_snd | (apply Keeps.of_eq_fst; assumption) | (apply Keeps.of_eq_snd; assumption) | (intro) | split
    | dsimp only

theorem State.leaveToReady_after {m' q' : Nat} {u' : State} {s : State} (h' : Keeps m' q' u' s)
    (hm' : Nat.lor 0x1800000000000000000000000000000000000000000000000000000000000000000000000000000000000000000000000000000000000000000000000000000000000000000000000000000000000c004c00000000000000000 m' = m') (hq' : Nat.lor 0x10c2400 q' = q') : Keeps m' q' u' (s.leaveToReady) := by
  refine Keeps.after ?_ hm' hq' h'
  clear hm' hq' h'
  unfold State.leaveToReady
  with_reducible repeat' first
    | assumption | exact Keeps.refl _ | (apply Keeps.wr; rotate_left; decide)
    | (apply State.modPower_after; rotate_left; decide; decide)
    | (apply State.speStartOp_after; rotate_left; decide; decide) | apply Keeps.ite | apply Keeps.ite_fst
    | apply Keeps.ite_snd | (intro) | split | dsimp only

theorem State.mgmtMode_after {m' q' : Nat} {u' : State} {s : State} {r : CiborRequest} (h' : Keeps m' q' u' s)
    (hm' : Nat.lor 0x1040000000000000000040001800000000000000000010000000000000000004000000001800000000000000000000000000009160000000000000000000400000300000000000000000014000000000000000000000000801c00c004c00000000000000000 m' = m') (hq' : Nat.lor 0x19ffcc0 q' = q') : Keeps m' q' u' (s.mgmtMode r) := by
  refine Keeps.after ?_ hm' hq' h'
  clear hm' hq' h'
  unfold State.mgmtMode
  with_reducible repeat' first
    | assumption | exact Keeps.refl _ | (apply Keeps.wr; rotate_left; decide)
    | (apply State.beginRequest_after; rotate_left; decide; decide)
    | (apply State.enterDormant_after; rotate_left; decide; decide)
    | (apply State.goStandby_after; rotate_left; decide; decide)
    | (apply State.leaveToReady_after; rotate_left; decide; decide)
    | (apply State.modPower_after; rotate_left; decide; decide) | (apply State.reply_after; rotate_left; decide; decide)
    | apply Keeps.ite | apply Keeps.ite_fst | apply Keeps.ite_snd | (apply Keeps.of_eq_fst; assumption)
    | (apply Keeps.of_eq_snd; assumption) | (intro) | split | dsimp only

theorem State.mgmtCommit_after {m' q' : Nat} {u' : State} {s : State} {r : CiborRequest} (h' : Keeps m' q' u' s)
    (hm' : Nat.lor 0x0 m' = m') (hq' : Nat.lor 0x1042000 q' = q') : Keeps m' q' u' (s.mgmtCommit r) := by
  refine Keeps.after ?_ hm' hq' h'
  clear hm' hq' h'
  unfold State.mgmtCommit
  with_reducible repeat' first
    | assumption | exact Keeps.refl _ | (apply State.modBur_after; rotate_left; decide; decide)
    | (apply State.modRequest_after; rotate_left; decide; decide) | (apply State.reply_after; rotate_left; decide; decide)
    | apply Keeps.ite | apply Keeps.ite_fst | apply Keeps.ite_snd | (intro) | split | dsimp only

theorem State.configStored_after {m' q' : Nat} {u' : State} {s : State} (h' : Keeps m' q' u' s)
    (hm' : Nat.lor 0x0 m' = m') (hq' : Nat.lor 0x1042000 q' = q') : Keeps m' q' u' (s.configStored) := by
  refine Keeps.after ?_ hm' hq' h'
  clear hm' hq' h'
  unfold State.configStored
  with_reducible repeat' first
    | assumption | exact Keeps.refl _ | (apply State.modBur_after; rotate_left; decide; decide)
    | (apply State.reply_after; rotate_left; decide; decide) | (apply Keeps.of_eq_fst; assumption)
    | (apply Keeps.of_eq_snd; assumption) | (intro) | split | dsimp only

theorem State.mgmtReadback_after {m' q' : Nat} {u' : State} {s : State} {r : CiborRequest} (h' : Keeps m' q' u' s)
    (hm' : Nat.lor 0x0 m' = m') (hq' : Nat.lor 0x1042000 q' = q') : Keeps m' q' u' (s.mgmtReadback r) := by
  refine Keeps.after ?_ hm' hq' h'
  clear hm' hq' h'
  unfold State.mgmtReadback
  with_reducible repeat' first
    | assumption | exact Keeps.refl _ | (apply State.reply_after; rotate_left; decide; decide) | apply Keeps.elim | (intro)
    | split | dsimp only

theorem State.mgmtAllow_after {m' q' : Nat} {u' : State} {s : State} {r : CiborRequest} (h' : Keeps m' q' u' s)
    (hm' : Nat.lor 0x0 m' = m') (hq' : Nat.lor 0x1042000 q' = q') : Keeps m' q' u' (s.mgmtAllow r) := by
  refine Keeps.after ?_ hm' hq' h'
  clear hm' hq' h'
  unfold State.mgmtAllow
  with_reducible repeat' first
    | assumption | exact Keeps.refl _ | (apply State.modBur_after; rotate_left; decide; decide)
    | (apply State.reply_after; rotate_left; decide; decide) | apply Keeps.ite | apply Keeps.ite_fst | apply Keeps.ite_snd
    | (intro) | split | dsimp only

theorem State.mgmtSpinStart_after {m' q' : Nat} {u' : State} {s : State} {r : CiborRequest} (h' : Keeps m' q' u' s)
    (hm' : Nat.lor 0x1800000000000000000000000000000000000000000000000000000000000000000000000000000000000000000000000000000000000000000000000000000000000000000000000000000000000c004c00000000000000000 m' = m') (hq' : Nat.lor 0x10c2400 q' = q') : Keeps m' q' u' (s.mgmtSpinStart r) := by
  refine Keeps.after ?_ hm' hq' h'
  clear hm' hq' h'
  unfold State.mgmtSpinStart
  with_reducible repeat' first
    | assumption | exact Keeps.refl _ | (apply Keeps.wr; rotate_left; decide)
    | (apply State.beginRequest_after; rotate_left; decide; decide) | (apply State.reply_after; rotate_left; decide; decide)
    | (apply State.speStartOp_after; rotate_left; decide; decide) | apply Keeps.when | apply Keeps.ite | apply Keeps.ite_fst
    | apply Keeps.ite_snd | (apply Keeps.of_eq_fst; assumption) | (apply Keeps.of_eq_snd; assumption) | (intro) | split
    | dsimp only

theorem State.mgmtSpinStop_after {m' q' : Nat} {u' : State} {s : State} {r : CiborRequest} (h' : Keeps m' q' u' s)
    (hm' : Nat.lor 0x1800000000000000000010000000000000000000000000001800000000000000000000000000009160000000000000000000400000300000000000000000014000000000000000000000000801c000004c00000400000000000 m' = m') (hq' : Nat.lor 0x10c6cc0 q' = q') : Keeps m' q' u' (s.mgmtSpinStop r) := by
  refine Keeps.after ?_ hm' hq' h'
  clear hm' hq' h'
  unfold State.mgmtSpinStop
  with_reducible repeat' first
    | assumption | exact Keeps.refl _ | (apply Keeps.wr; rotate_left; decide)
    | (apply State.beginRequest_after; rotate_left; decide; decide)
    | (apply State.goStandby_after; rotate_left; decide; decide) | (apply State.reply_after; rotate_left; decide; decide)
    | (apply State.speStopOp_after; rotate_left; decide; decide) | apply Keeps.ite | apply Keeps.ite_fst
    | apply Keeps.ite_snd | (intro) | split | dsimp only

theorem State.mgmtCapoArm_after {m' q' : Nat} {u' : State} {s : State} {r : CiborRequest} (h' : Keeps m' q' u' s)
    (hm' : Nat.lor 0x78001800000000000000000000000000000000000000000000000000000000000000000000000000000000000000000000000000000000000000000000800000000000000000000000064218f80000 m' = m') (hq' : Nat.lor 0x1042a00 q' = q') : Keeps m' q' u' (s.mgmtCapoArm r) := by
  refine Keeps.after ?_ hm' hq' h'
  clear hm' hq' h'
  unfold State.mgmtCapoArm
  with_reducible repeat' first
    | assumption | exact Keeps.refl _ | (apply Keeps.wr; rotate_left; decide)
    | (apply State.capoArm_after; rotate_left; decide; decide) | (apply State.reply_after; rotate_left; decide; decide)
    | apply Keeps.when | (apply Keeps.of_eq_fst; assumption) | (apply Keeps.of_eq_snd; assumption) | (intro) | split
    | dsimp only

theorem State.loadOne_after {m' q' : Nat} {u' : State} {acc : State × Nat × Nat × CStat} {x : Str} (h' : Keeps m' q' u' acc.1)
    (hm' : Nat.lor 0x8000000000000000000000000000091607fff80000000000fffffffffffffffc0000000000001400000080000000014000000303d4000000000000000000000000 m' = m') (hq' : Nat.lor 0x6800 q' = q') : Keeps m' q' u' (State.loadOne acc x).1 := by
  obtain ⟨s, named, refused, st⟩ := acc
  have k : Keeps m' q' u' (s.sceLoad x).2 := State.sceLoad_after h' (lor_of hm' rfl) (lor_of hq' rfl)
  unfold State.loadOne
  dsimp only
  split
  · split
    · rename_i e; rw [e] at k; exact k
    · rename_i e; rw [e] at k; exact k
  · split <;> exact h'

theorem State.mgmtLoad_after {m' q' : Nat} {u' : State} {s : State} {r : CiborRequest} (h' : Keeps m' q' u' s)
    (hm' : Nat.lor 0x18000000000000000000000000000000000000000000000008000000000000000000000000000091607fff80000000000fffffffffffffffc0000000000001400000080000000014000000303d4000000000000000000000000 m' = m') (hq' : Nat.lor 0x10c6800 q' = q') : Keeps m' q' u' (s.mgmtLoad r) := by
  refine Keeps.after ?_ hm' hq' h'
  clear hm' hq' h'
  unfold State.mgmtLoad
  with_reducible repeat' first
    | assumption | exact Keeps.refl _ | (apply State.loadOne_after; rotate_left; decide; decide)
    | (apply State.modRequest_after; rotate_left; decide; decide)
    | (apply State.refreshMode_after; rotate_left; decide; decide) | apply Keeps.foldl | apply Keeps.foldl_snd
    | apply Keeps.foldl_fst | (apply Keeps.of_eq_fst; assumption) | (apply Keeps.of_eq_snd; assumption) | (intro) | split
    | dsimp only

theorem State.mgmtUnload_after {m' q' : Nat} {u' : State} {s : State} {r : CiborRequest} (h' : Keeps m' q' u' s)
    (hm' : Nat.lor 0x1800000000000000000010000000000000000000000000001800000000000000000000000000009160000000000000000000400000300000000000000000014000000000000000000000000801c000000000000000000000000 m' = m') (hq' : Nat.lor 0x10c68c0 q' = q') : Keeps m' q' u' (s.mgmtUnload r) := by
  refine Keeps.after ?_ hm' hq' h'
  clear hm' hq' h'
  unfold State.mgmtUnload
  with_reducible repeat' first
    | assumption | exact Keeps.refl _ | (apply State.modRequest_after; rotate_left; decide; decide)
    | (apply State.refreshMode_after; rotate_left; decide; decide)
    | (apply State.requestRetract_after; rotate_left; decide; decide) | apply Keeps.foldl | apply Keeps.foldl_snd
    | apply Keeps.foldl_fst | (intro) | split | dsimp only

theorem State.mgmtBank_after {m' q' : Nat} {u' : State} {s : State} {r : CiborRequest} (h' : Keeps m' q' u' s)
    (hm' : Nat.lor 0x400000030060000000000000000000000000 m' = m') (hq' : Nat.lor 0x1042000 q' = q') : Keeps m' q' u' (s.mgmtBank r) := by
  refine Keeps.after ?_ hm' hq' h'
  clear hm' hq' h'
  unfold State.mgmtBank
  with_reducible repeat' first
    | assumption | exact Keeps.refl _ | (apply State.bankSwitch_after; rotate_left; decide; decide)
    | (apply State.reply_after; rotate_left; decide; decide) | (apply Keeps.of_eq_fst; assumption)
    | (apply Keeps.of_eq_snd; assumption) | (intro) | split | dsimp only

theorem State.withFormat_after {m' q' : Nat} {u' : State} {s : State} {bs : List Nat} (h' : Keeps m' q' u' s)
    (hm' : Nat.lor 0x0 m' = m') (hq' : Nat.lor 0x800 q' = q') : Keeps m' q' u' (s.withFormat bs) := by
  refine Keeps.after ?_ hm' hq' h'
  clear hm' hq' h'
  unfold State.withFormat
  with_reducible repeat' first
    | assumption | exact Keeps.refl _ | (apply State.modStr_after; rotate_left; decide; decide) | apply Keeps.ite
    | apply Keeps.ite_fst | apply Keeps.ite_snd | apply Keeps.foldl | apply Keeps.foldl_snd | apply Keeps.foldl_fst
    | (intro) | split | dsimp only

theorem State.installFormat_after {m' q' : Nat} {u' : State} {s : State} {bs : List Nat} (h' : Keeps m' q' u' s)
    (hm' : Nat.lor 0x7f3d000000000000000000000000000000000000000000000000000000000000000000000000000000000000000000000100000000000000000000000000000000000000 m' = m') (hq' : Nat.lor 0x6800 q' = q') : Keeps m' q' u' (s.installFormat bs) := by
  refine Keeps.after ?_ hm' hq' h'
  clear hm' hq' h'
  unfold State.installFormat
  with_reducible repeat' first
    | assumption | exact Keeps.refl _ | (apply State.journal_after; rotate_left; decide; decide)
    | (apply State.modHost_after; rotate_left; decide; decide) | (apply State.withFormat_after; rotate_left; decide; decide)
    | (apply State.writeHeads_after; rotate_left; decide; decide) | apply Keeps.foldl | apply Keeps.foldl_snd
    | apply Keeps.foldl_fst | (intro) | split | dsimp only

theorem State.mgmtFormat_after {m' q' : Nat} {u' : State} {s : State} {r : CiborRequest} (h' : Keeps m' q' u' s)
    (hm' : Nat.lor 0x7f3d000000000000000000000000000000000000000000000000000000000000000000000000000000000000000000000100000000000000000000000000000000000000 m' = m') (hq' : Nat.lor 0x1046800 q' = q') : Keeps m' q' u' (s.mgmtFormat r) := by
  refine Keeps.after ?_ hm' hq' h'
  clear hm' hq' h'
  unfold State.mgmtFormat
  with_reducible repeat' first
    | assumption | exact Keeps.refl _ | (apply State.installFormat_after; rotate_left; decide; decide)
    | (apply State.reply_after; rotate_left; decide; decide) | (apply State.withFormat_after; rotate_left; decide; decide)
    | apply Keeps.ite | apply Keeps.ite_fst | apply Keeps.ite_snd | (apply Keeps.of_eq_fst; assumption)
    | (apply Keeps.of_eq_snd; assumption) | (intro) | split | dsimp only

theorem State.mgmtTelemetry_after {m' q' : Nat} {u' : State} {s : State} {r : CiborRequest} (h' : Keeps m' q' u' s)
    (hm' : Nat.lor 0x0 m' = m') (hq' : Nat.lor 0x1042000 q' = q') : Keeps m' q' u' (s.mgmtTelemetry r) := by
  refine Keeps.after ?_ hm' hq' h'
  clear hm' hq' h'
  unfold State.mgmtTelemetry
  with_reducible repeat' first
    | assumption | exact Keeps.refl _ | (apply State.reply_after; rotate_left; decide; decide) | (intro) | split
    | dsimp only

theorem State.mgmtEvents_after {m' q' : Nat} {u' : State} {s : State} {r : CiborRequest} (h' : Keeps m' q' u' s)
    (hm' : Nat.lor 0x0 m' = m') (hq' : Nat.lor 0x1042000 q' = q') : Keeps m' q' u' (s.mgmtEvents r) := by
  refine Keeps.after ?_ hm' hq' h'
  clear hm' hq' h'
  unfold State.mgmtEvents
  with_reducible repeat' first
    | assumption | exact Keeps.refl _ | (apply State.reply_after; rotate_left; decide; decide) | apply Keeps.ite
    | apply Keeps.ite_fst | apply Keeps.ite_snd | (intro) | split | dsimp only

theorem State.telemetryPeriod_after {m' q' : Nat} {u' : State} {s : State} {words : List Nat} (h' : Keeps m' q' u' s)
    (hm' : Nat.lor 0x0 m' = m') (hq' : Nat.lor 0x2000 q' = q') : Keeps m' q' u' (s.telemetryPeriod words) := by
  refine Keeps.after ?_ hm' hq' h'
  clear hm' hq' h'
  unfold State.telemetryPeriod
  with_reducible repeat' first
    | assumption | exact Keeps.refl _ | (apply State.modHost_after; rotate_left; decide; decide) | apply Keeps.when
    | apply Keeps.ite | apply Keeps.ite_fst | apply Keeps.ite_snd | (intro) | split | dsimp only

theorem State.mgmtExtLoad_after {m' q' : Nat} {u' : State} {s : State} {r : CiborRequest} {m : ModuleImage} (h' : Keeps m' q' u' s)
    (hm' : Nat.lor 0x7f3d000000000000000000000000000000000000000000000000000000000000000000000000000000000000000000000000000000000000000000000000000000000000 m' = m') (hq' : Nat.lor 0x1046000 q' = q') : Keeps m' q' u' (s.mgmtExtLoad r m) := by
  refine Keeps.after ?_ hm' hq' h'
  clear hm' hq' h'
  unfold State.mgmtExtLoad
  with_reducible repeat' first
    | assumption | exact Keeps.refl _ | (apply State.journal_after; rotate_left; decide; decide)
    | (apply State.modBur_after; rotate_left; decide; decide) | (apply State.reply_after; rotate_left; decide; decide)
    | apply Keeps.ite | apply Keeps.ite_fst | apply Keeps.ite_snd | (intro) | split | dsimp only

theorem State.mgmtExtUnload_after {m' q' : Nat} {u' : State} {s : State} {r : CiborRequest} (h' : Keeps m' q' u' s)
    (hm' : Nat.lor 0x0 m' = m') (hq' : Nat.lor 0x1042000 q' = q') : Keeps m' q' u' (s.mgmtExtUnload r) := by
  refine Keeps.after ?_ hm' hq' h'
  clear hm' hq' h'
  unfold State.mgmtExtUnload
  with_reducible repeat' first
    | assumption | exact Keeps.refl _ | (apply State.modBur_after; rotate_left; decide; decide)
    | (apply State.reply_after; rotate_left; decide; decide) | apply Keeps.ite | apply Keeps.ite_fst | apply Keeps.ite_snd
    | (intro) | split | dsimp only

theorem State.mgmtExtension_after {m' q' : Nat} {u' : State} {s : State} {source tag : Nat} {st : CStat} {payload : List Nat} (h' : Keeps m' q' u' s)
    (hm' : Nat.lor 0x0 m' = m') (hq' : Nat.lor 0x1042000 q' = q') : Keeps m' q' u' (s.mgmtExtension source tag st payload) := by
  refine Keeps.after ?_ hm' hq' h'
  clear hm' hq' h'
  unfold State.mgmtExtension
  with_reducible repeat' first
    | assumption | exact Keeps.refl _ | (apply State.reply_after; rotate_left; decide; decide) | apply Keeps.ite
    | apply Keeps.ite_fst | apply Keeps.ite_snd | (apply Keeps.of_eq_fst; assumption) | (apply Keeps.of_eq_snd; assumption)
    | (intro) | split | dsimp only

theorem State.hookTimeout_after {m' q' : Nat} {u' : State} {s : State} {module hook : Nat} {request : Option (Nat × Nat)} (h' : Keeps m' q' u' s)
    (hm' : Nat.lor 0x100a000000000060003800000000000000000017800180000000000000000000001c00009f2800000040000000018000000000007ffffffffff0004000003000000000000000000000000000000000010000000000000000000000000000000000000 m' = m') (hq' : Nat.lor 0x12c78c1 q' = q') : Keeps m' q' u' (s.hookTimeout module hook request) := by
  refine Keeps.after ?_ hm' hq' h'
  clear hm' hq' h'
  unfold State.hookTimeout
  with_reducible repeat' first
    | assumption | exact Keeps.refl _ | (apply State.logEvent_after; rotate_left; decide; decide)
    | (apply State.modBur_after; rotate_left; decide; decide) | (apply State.modTherm_after; rotate_left; decide; decide)
    | (apply State.reply_after; rotate_left; decide; decide) | (apply State.throttle_after; rotate_left; decide; decide)
    | apply Keeps.when | apply Keeps.ite | apply Keeps.ite_fst | apply Keeps.ite_snd | (apply Keeps.of_eq_fst; assumption)
    | (apply Keeps.of_eq_snd; assumption) | (intro) | split | dsimp only

theorem State.mgmtLaneRetire_after {m' q' : Nat} {u' : State} {s : State} {r : CiborRequest} (h' : Keeps m' q' u' s)
    (hm' : Nat.lor 0x38000000000000000000078001800000000000000007f3d01c00008f2800000040000000018000000000001c0020c0f400004010003000000000000000000000000000000000000000000000000000000000000000000000000 m' = m') (hq' : Nat.lor 0x10c78c0 q' = q') : Keeps m' q' u' (s.mgmtLaneRetire r) := by
  refine Keeps.after ?_ hm' hq' h'
  clear hm' hq' h'
  unfold State.mgmtLaneRetire
  with_reducible repeat' first
    | assumption | exact Keeps.refl _ | (apply State.harpRetire_after; rotate_left; decide; decide)
    | (apply State.reply_after; rotate_left; decide; decide) | apply Keeps.ite | apply Keeps.ite_fst | apply Keeps.ite_snd
    | (intro) | split | dsimp only

theorem State.mgmtLaneUnretire_after {m' q' : Nat} {u' : State} {s : State} {r : CiborRequest} (h' : Keeps m' q' u' s)
    (hm' : Nat.lor 0x38000000000000000000078001800000000000000007f3d01c00000f080000000000000001800000000000000006c87400004000003000000000000000000000000000000000000000000000000000000000000000000000000 m' = m') (hq' : Nat.lor 0x10c78c0 q' = q') : Keeps m' q' u' (s.mgmtLaneUnretire r) := by
  refine Keeps.after ?_ hm' hq' h'
  clear hm' hq' h'
  unfold State.mgmtLaneUnretire
  with_reducible repeat' first
    | assumption | exact Keeps.refl _ | (apply State.beginRequest_after; rotate_left; decide; decide)
    | (apply State.harpUnretire_after; rotate_left; decide; decide) | (apply State.reply_after; rotate_left; decide; decide)
    | apply Keeps.ite | apply Keeps.ite_fst | apply Keeps.ite_snd | (apply Keeps.of_eq_fst; assumption)
    | (apply Keeps.of_eq_snd; assumption) | (intro) | split | dsimp only

theorem State.mgmtCoreRetire_after {m' q' : Nat} {u' : State} {s : State} {r : CiborRequest} (h' : Keeps m' q' u' s)
    (hm' : Nat.lor 0x6000380000040000000022cb800000000000000000000007f39000000000000000000000000000000000000000000000000000000000000000000000000000000000000000000000000000000000000000000000000000000000000 m' = m') (hq' : Nat.lor 0x10e60c0 q' = q') : Keeps m' q' u' (s.mgmtCoreRetire r) := by
  refine Keeps.after ?_ hm' hq' h'
  clear hm' hq' h'
  unfold State.mgmtCoreRetire
  with_reducible repeat' first
    | assumption | exact Keeps.refl _ | (apply State.coreRetire_after; rotate_left; decide; decide)
    | (apply State.reply_after; rotate_left; decide; decide) | apply Keeps.ite | apply Keeps.ite_fst | apply Keeps.ite_snd
    | (intro) | split | dsimp only

theorem State.mgmtCoreUnretire_after {m' q' : Nat} {u' : State} {s : State} {r : CiborRequest} (h' : Keeps m' q' u' s)
    (hm' : Nat.lor 0x600018000004000000000010800000000000000000000000000000000000000000000000000000000000000000000000000000000000000000000000000000000000000000000000000000000000000000000000000000000000000 m' = m') (hq' : Nat.lor 0x10e2000 q' = q') : Keeps m' q' u' (s.mgmtCoreUnretire r) := by
  refine Keeps.after ?_ hm' hq' h'
  clear hm' hq' h'
  unfold State.mgmtCoreUnretire
  with_reducible repeat' first
    | assumption | exact Keeps.refl _ | (apply State.beginRequest_after; rotate_left; decide; decide)
    | (apply State.coreUnretireMask_after; rotate_left; decide; decide)
    | (apply State.reply_after; rotate_left; decide; decide) | apply Keeps.ite | apply Keeps.ite_fst | apply Keeps.ite_snd
    | (apply Keeps.of_eq_fst; assumption) | (apply Keeps.of_eq_snd; assumption) | (intro) | split | dsimp only

theorem State.mgmtLcState_after {m' q' : Nat} {u' : State} {s : State} {r : CiborRequest} (h' : Keeps m' q' u' s)
    (hm' : Nat.lor 0x0 m' = m') (hq' : Nat.lor 0x1042000 q' = q') : Keeps m' q' u' (s.mgmtLcState r) := by
  refine Keeps.after ?_ hm' hq' h'
  clear hm' hq' h'
  unfold State.mgmtLcState
  with_reducible repeat' first
    | assumption | exact Keeps.refl _ | (apply State.reply_after; rotate_left; decide; decide) | (intro) | split
    | dsimp only

/-! ### Microcode -/

theorem State.putWords_after {m' q' : Nat} {u' : State} {s : State} {x : Str} {q : SeqId} {ws : List (Nat × Nat)} (h' : Keeps m' q' u' s)
    (hm' : Nat.lor 0x0 m' = m') (hq' : Nat.lor 0x20004 q' = q') : Keeps m' q' u' (s.putWords x q ws) := by
  refine Keeps.after ?_ hm' hq' h'
  clear hm' hq' h'
  unfold State.putWords
  with_reducible repeat' first
    | assumption | exact Keeps.refl _ | (apply State.controlWritten_after; rotate_left; decide; decide) | apply Keeps.ite
    | apply Keeps.ite_fst | apply Keeps.ite_snd | apply Keeps.foldl | apply Keeps.foldl_snd | apply Keeps.foldl_fst
    | (intro) | split | dsimp only | (apply Keeps.with_control; rotate_left; decide)

theorem State.putEntries_after {m' q' : Nat} {u' : State} {s : State} {x : Str} {q : SeqId} {es : List Nat} (h' : Keeps m' q' u' s)
    (hm' : Nat.lor 0xc0000000000000000000000000000000000000000000000000000000000000000000000000000000000000000000000000000000000000000000000000000000000000000000000000000000000 m' = m') (hq' : Nat.lor 0x1 q' = q') : Keeps m' q' u' (s.putEntries x q es) := by
  refine Keeps.after ?_ hm' hq' h'
  clear hm' hq' h'
  unfold State.putEntries
  with_reducible repeat' first
    | assumption | exact Keeps.refl _ | (apply Keeps.wr; rotate_left; decide)
    | (apply State.shadowWr_after; rotate_left; decide; decide) | apply Keeps.ite | apply Keeps.ite_fst
    | apply Keeps.ite_snd | apply Keeps.foldl | apply Keeps.foldl_snd | apply Keeps.foldl_fst | (intro) | split | dsimp only

theorem State.installFull_after {m' q' : Nat} {u' : State} {s : State} {m : Microcode} {x : Str} (h' : Keeps m' q' u' s)
    (hm' : Nat.lor 0x9c0100000000000000000000000000000000000000000000000000000000000000000000000000000000000000000000000000000000000000000000000000000000000000000000000000000000 m' = m') (hq' : Nat.lor 0x20005 q' = q') : Keeps m' q' u' (s.installFull m x) := by
  refine Keeps.after ?_ hm' hq' h'
  clear hm' hq' h'
  unfold State.installFull
  with_reducible repeat' first
    | assumption | exact Keeps.refl _ | (apply Keeps.wr; rotate_left; decide)
    | (apply State.putEntries_after; rotate_left; decide; decide)
    | (apply State.putWords_after; rotate_left; decide; decide) | (apply State.seqGoOp_after; rotate_left; decide; decide)
    | (apply State.setLive_after; rotate_left; decide; decide) | (intro) | split | dsimp only

theorem State.installPatch_after {m' q' : Nat} {u' : State} {s : State} {m : Microcode} {x : Str} (h' : Keeps m' q' u' s)
    (hm' : Nat.lor 0x8c0000000000000000000000000000000000000000000000000000000000000000000000000000000000000000000000000000000000000000000000000000000000000000000000000000000000 m' = m') (hq' : Nat.lor 0x20805 q' = q') : Keeps m' q' u' (s.installPatch m x) := by
  refine Keeps.after ?_ hm' hq' h'
  clear hm' hq' h'
  unfold State.installPatch
  with_reducible repeat' first
    | assumption | exact Keeps.refl _ | (apply State.modSeq_after; rotate_left; decide; decide)
    | (apply State.putEntries_after; rotate_left; decide; decide)
    | (apply State.putWords_after; rotate_left; decide; decide) | (apply State.setLive_after; rotate_left; decide; decide)
    | (intro) | split | dsimp only

theorem State.microcodeInstall_after {m' q' : Nat} {u' : State} {s : State} {r : CiborRequest} {m : Microcode} (h' : Keeps m' q' u' s)
    (hm' : Nat.lor 0x9c0100000000000000007f3d000000000000000000000000000000000000000000000000000000000000000000000000000000000000000000000000000000000000000000000000000000000000 m' = m') (hq' : Nat.lor 0x1066005 q' = q') : Keeps m' q' u' (s.microcodeInstall r m) := by
  refine Keeps.after ?_ hm' hq' h'
  clear hm' hq' h'
  unfold State.microcodeInstall
  with_reducible repeat' first
    | assumption | exact Keeps.refl _ | (apply State.installFull_after; rotate_left; decide; decide)
    | (apply State.journal_after; rotate_left; decide; decide) | (apply State.modBur_after; rotate_left; decide; decide)
    | (apply State.reply_after; rotate_left; decide; decide) | apply Keeps.ite | apply Keeps.ite_fst | apply Keeps.ite_snd
    | apply Keeps.foldl | apply Keeps.foldl_snd | apply Keeps.foldl_fst | (intro) | split | dsimp only

theorem State.microcodeLoad_after {m' q' : Nat} {u' : State} {s : State} {r : CiborRequest} {signed : Option Nat} {base : Bool} (h' : Keeps m' q' u' s)
    (hm' : Nat.lor 0x9c0100000000000000007f3d000000000000000000000000000000000000000000000000000000000000000000000000000000000000000000000000000000000000000000000000000000000000 m' = m') (hq' : Nat.lor 0x1066805 q' = q') : Keeps m' q' u' (s.microcodeLoad r signed base) := by
  refine Keeps.after ?_ hm' hq' h'
  clear hm' hq' h'
  unfold State.microcodeLoad
  with_reducible repeat' first
    | assumption | exact Keeps.refl _ | (apply State.installPatch_after; rotate_left; decide; decide)
    | (apply State.microcodeInstall_after; rotate_left; decide; decide)
    | (apply State.modRequest_after; rotate_left; decide; decide) | (apply State.reply_after; rotate_left; decide; decide)
    | (apply State.seqStop_after; rotate_left; decide; decide) | apply Keeps.ite | apply Keeps.ite_fst | apply Keeps.ite_snd
    | apply Keeps.foldl | apply Keeps.foldl_snd | apply Keeps.foldl_fst | (apply Keeps.of_eq_fst; assumption)
    | (apply Keeps.of_eq_snd; assumption) | (intro) | split | dsimp only

theorem State.mcLoad_after {m' q' : Nat} {u' : State} {s : State} {source tag : Nat} {signed : Option Nat} {base : Bool} (h' : Keeps m' q' u' s)
    (hm' : Nat.lor 0x9c0100000000000000007f3d000000000000000000000000000000000000000000000000000000000000000000000000000000000000000000000000000000000000000000000000000000000000 m' = m') (hq' : Nat.lor 0x1066805 q' = q') : Keeps m' q' u' (s.mcLoad source tag signed base) := by
  refine Keeps.after ?_ hm' hq' h'
  clear hm' hq' h'
  unfold State.mcLoad
  with_reducible repeat' first
    | assumption | exact Keeps.refl _ | (apply State.microcodeInstall_after; rotate_left; decide; decide)
    | (apply State.microcodeLoad_after; rotate_left; decide; decide)
    | (apply State.cibor_after; rotate_left; decide; decide; rotate_left) | (apply Keeps.of_eq_fst; assumption)
    | (apply Keeps.of_eq_snd; assumption) | (intro) | split | dsimp only

/-! ### LifeCycle -/

theorem State.firmwareDownload_after {m' q' : Nat} {u' : State} {s : State} {f : Nat} (h' : Keeps m' q' u' s)
    (hm' : Nat.lor 0x0 m' = m') (hq' : Nat.lor 0x402000 q' = q') : Keeps m' q' u' (s.firmwareDownload f) := by
  refine Keeps.after ?_ hm' hq' h'
  clear hm' hq' h'
  unfold State.firmwareDownload
  with_reducible repeat' first
    | assumption | exact Keeps.refl _ | (apply State.finish_after; rotate_left; decide; decide)
    | (apply State.modLc_after; rotate_left; decide; first | exact fun _ h => h | (intro k h; simp [Nat.testBit_or, h]; done); first | exact fun h => h | exact fun _ => rfl)
    | (apply State.admin_after; rotate_left; decide; decide; rotate_left) | apply Keeps.ite | apply Keeps.ite_fst
    | apply Keeps.ite_snd | (apply Keeps.of_eq_fst; assumption) | (apply Keeps.of_eq_snd; assumption) | (intro) | split
    | dsimp only

theorem State.activate_after {m' q' : Nat} {u' : State} {s : State} {f i : Nat} (h' : Keeps m' q' u' s)
    (hm' : Nat.lor 0x0 m' = m') (hq' : Nat.lor 0x402000 q' = q') : Keeps m' q' u' (s.activate f i) := by
  refine Keeps.after ?_ hm' hq' h'
  clear hm' hq' h'
  unfold State.activate
  with_reducible repeat' first
    | assumption | exact Keeps.refl _ | (apply State.finish_after; rotate_left; decide; decide)
    | (apply State.modLc_after; rotate_left; decide; first | exact fun _ h => h | (intro k h; simp [Nat.testBit_or, h]; done); first | exact fun h => h | exact fun _ => rfl)
    | (intro) | split | dsimp only

theorem State.firmwareCommit_after {m' q' : Nat} {u' : State} {s : State} {f : Nat} {key : List Nat} {signed : Bool} (h' : Keeps m' q' u' s)
    (hm' : Nat.lor 0x0 m' = m') (hq' : Nat.lor 0x402000 q' = q') : Keeps m' q' u' (s.firmwareCommit f key signed) := by
  refine Keeps.after ?_ hm' hq' h'
  clear hm' hq' h'
  unfold State.firmwareCommit
  with_reducible repeat' first
    | assumption | exact Keeps.refl _ | (apply State.activate_after; rotate_left; decide; decide)
    | (apply State.finish_after; rotate_left; decide; decide)
    | (apply State.modLc_after; rotate_left; decide; first | exact fun _ h => h | (intro k h; simp [Nat.testBit_or, h]; done); first | exact fun h => h | exact fun _ => rfl)
    | (apply State.admin_after; rotate_left; decide; decide; rotate_left) | apply Keeps.ite | apply Keeps.ite_fst
    | apply Keeps.ite_snd | (apply Keeps.of_eq_fst; assumption) | (apply Keeps.of_eq_snd; assumption) | (intro) | split
    | dsimp only

theorem State.endChallenge_after {m' q' : Nat} {u' : State} {s : State} (h' : Keeps m' q' u' s)
    (hm' : Nat.lor 0x200000000000000000000000000000000000000000000000000000000000000000000000000000000000000000000000000000000000000000000000000000000000000000000000000000000000000000000000000000000000000000000000000000 m' = m') (hq' : Nat.lor 0x400000 q' = q') : Keeps m' q' u' (s.endChallenge) := by
  refine Keeps.after ?_ hm' hq' h'
  clear hm' hq' h'
  unfold State.endChallenge
  with_reducible repeat' first
    | assumption | exact Keeps.refl _ | (apply Keeps.unflag; rotate_left; decide)
    | (apply State.modLc_after; rotate_left; decide; first | exact fun _ h => h | (intro k h; simp [Nat.testBit_or, h]; done); first | exact fun h => h | exact fun _ => rfl)
    | (intro) | split | dsimp only

theorem State.newChallenge_after {m' q' : Nat} {u' : State} {s : State}  (h' : Keeps m' q' u' s)
    (hm' : Nat.lor 0x200000000000000000000000000000000000000000000000000000000000000000000000000000000000000000000000000000000000000000000000000000000000000000000000000000000000000000000000000000000000000000000000000000 m' = m') (hq' : Nat.lor 0x400020 q' = q') : Keeps m' q' u' s.newChallenge := by
  refine Keeps.after ?_ hm' hq' h'
  unfold State.newChallenge
  refine Keeps.flag ?_ rfl
  exact Keeps.with_lc (t := { s with draws := s.draws + 8 }) ((Keeps.refl s).with_draws rfl) rfl (fun _ h => h) (fun h => h)

theorem State.lcChallenge_after {m' q' : Nat} {u' : State} {s : State} {r : CiborRequest} (h' : Keeps m' q' u' s)
    (hm' : Nat.lor 0x200000000000000000000000000000000000000000000000000000000000000000000000000000000000000000000000000000000000000000000000000000000000000000000000000000000000000000000000000000000000000000000000000000 m' = m') (hq' : Nat.lor 0x1442020 q' = q') : Keeps m' q' u' (s.lcChallenge r) := by
  refine Keeps.after ?_ hm' hq' h'
  clear hm' hq' h'
  unfold State.lcChallenge
  with_reducible repeat' first
    | assumption | exact Keeps.refl _ | (apply State.newChallenge_after; rotate_left; decide; decide)
    | (apply State.reply_after; rotate_left; decide; decide) | (intro) | split | dsimp only

theorem State.lcRefused_after {m' q' : Nat} {u' : State} {s : State} (h' : Keeps m' q' u' s)
    (hm' : Nat.lor 0x400000000000000000000000000000000000000000000000000000000000000000000000000000000000000000000000000000000000000000000000000000000000000000000000000000000000000000000000000000000000000000000000000000 m' = m') (hq' : Nat.lor 0x0 q' = q') : Keeps m' q' u' (s.lcRefused) := by
  refine Keeps.after ?_ hm' hq' h'
  clear hm' hq' h'
  unfold State.lcRefused
  with_reducible repeat' first
    | assumption | exact Keeps.refl _ | (apply Keeps.flag; rotate_left; decide) | (intro) | split | dsimp only

theorem State.carryOut_after {m' q' : Nat} {u' : State} {s : State} {t : Transition} {r : Option CiborRequest} {steps : Nat} (h' : Keeps m' q' u' s)
    (hm' : Nat.lor 0x1061f9c0000000000000000018000000400000000000178001800007000207e00007ffd01f80000f08000000400000000000009160000000000000000000400000300000000000000000014000000000000001000000000801c000004c00000000000000000 m' = m') (hq' : Nat.lor 0x1cdecc1 q' = q') : Keeps m' q' u' (s.carryOut t r steps) := by
  refine Keeps.after ?_ hm' hq' h'
  clear hm' hq' h'
  unfold State.carryOut
  with_reducible repeat' first
    | assumption | exact Keeps.refl _ | (apply State.emit_after; rotate_left; decide; decide)
    | (apply State.reply_after; rotate_left; decide; decide) | (apply State.transit_after; rotate_left; decide; decide)
    | apply Keeps.ite | apply Keeps.ite_fst | apply Keeps.ite_snd | (apply Keeps.of_eq_fst; assumption)
    | (apply Keeps.of_eq_snd; assumption) | (intro) | split | dsimp only

theorem State.refuseToken_after {m' q' : Nat} {u' : State} {s : State} {r : Option CiborRequest} (h' : Keeps m' q' u' s)
    (hm' : Nat.lor 0x400000000000000000000000000000000000000000000000000000000000000000000000000000000000000000000000000000000000000000000000000000000000000000000000000000000000000000000000000000000000000000000000000000 m' = m') (hq' : Nat.lor 0x1042000 q' = q') : Keeps m' q' u' (s.refuseToken r) := by
  refine Keeps.after ?_ hm' hq' h'
  clear hm' hq' h'
  unfold State.refuseToken
  with_reducible repeat' first
    | assumption | exact Keeps.refl _ | (apply State.emit_after; rotate_left; decide; decide)
    | (apply State.lcRefused_after; rotate_left; decide; decide) | (apply State.reply_after; rotate_left; decide; decide)
    | (apply Keeps.of_eq_fst; assumption) | (apply Keeps.of_eq_snd; assumption) | (intro) | split | dsimp only

theorem State.lifeToken_after {m' q' : Nat} {u' : State} {s : State} {r : Option CiborRequest} {bs key : List Nat} {signed : Bool} {steps : Nat} (h' : Keeps m' q' u' s)
    (hm' : Nat.lor 0x1061ffc0000000000000000018000000400000000000178001800007000207e00007ffd01f80000f08000000400000000000009160000000000000000000400000300000000000000000014000000000000001000000000801c000004c00000000000000000 m' = m') (hq' : Nat.lor 0x1cdecc1 q' = q') : Keeps m' q' u' (s.lifeToken r bs key signed steps) := by
  refine Keeps.after ?_ hm' hq' h'
  clear hm' hq' h'
  unfold State.lifeToken
  with_reducible repeat' first
    | assumption | exact Keeps.refl _ | (apply State.beginRequest_after; rotate_left; decide; decide)
    | (apply State.carryOut_after; rotate_left; decide; decide)
    | (apply State.endChallenge_after; rotate_left; decide; decide)
    | (apply State.refuseToken_after; rotate_left; decide; decide)
    | (apply State.modLc_after; rotate_left; decide; first | exact fun _ h => h | (intro k h; simp [Nat.testBit_or, h]; done); first | exact fun h => h | exact fun _ => rfl)
    | apply Keeps.ite | apply Keeps.ite_fst | apply Keeps.ite_snd | (apply Keeps.of_eq_fst; assumption)
    | (apply Keeps.of_eq_snd; assumption) | (intro) | split | dsimp only

theorem State.lcToken_after {m' q' : Nat} {u' : State} {s : State} {r : CiborRequest} {key : List Nat} {signed : Bool} {steps : Nat} (h' : Keeps m' q' u' s)
    (hm' : Nat.lor 0x1061ffc0000000000000000018000000400000000000178001800007000207e00007ffd01f80000f08000000400000000000009160000000000000000000400000300000000000000000014000000000000001000000000801c000004c00000000000000000 m' = m') (hq' : Nat.lor 0x1cdecc1 q' = q') : Keeps m' q' u' (s.lcToken r key signed steps) := by
  refine Keeps.after ?_ hm' hq' h'
  clear hm' hq' h'
  unfold State.lcToken
  with_reducible repeat' first
    | assumption | exact Keeps.refl _ | (apply State.lifeToken_after; rotate_left; decide; decide) | apply Keeps.ite
    | apply Keeps.ite_fst | apply Keeps.ite_snd | (intro) | split | dsimp only

theorem State.runWaiting_after {m' q' : Nat} {u' : State} {s : State} (h' : Keeps m' q' u' s)
    (hm' : Nat.lor 0x1061fdc0000000000000000018000000400000000000178001800007000207e00007ffd01f80000f08000000400000000000009160000000000000000000400000300000000000000000014000000000000001000000000801c000004c00000000000000000 m' = m') (hq' : Nat.lor 0x1cdecc1 q' = q') : Keeps m' q' u' (s.runWaiting) := by
  refine Keeps.after ?_ hm' hq' h'
  clear hm' hq' h'
  unfold State.runWaiting
  with_reducible repeat' first
    | assumption | exact Keeps.refl _ | (apply State.carryOut_after; rotate_left; decide; decide)
    | (apply State.refuseToken_after; rotate_left; decide; decide)
    | (apply State.modLc_after; rotate_left; decide; first | exact fun _ h => h | (intro k h; simp [Nat.testBit_or, h]; done); first | exact fun h => h | exact fun _ => rfl)
    | apply Keeps.ite | apply Keeps.ite_fst | apply Keeps.ite_snd | (apply Keeps.of_eq_fst; assumption)
    | (apply Keeps.of_eq_snd; assumption) | (intro) | split | dsimp only

/-! ### Bench -/

theorem State.tapLoad_after {m' q' : Nat} {u' : State} {s : State} {ir : Nat} (h' : Keeps m' q' u' s)
    (hm' : Nat.lor 0x0 m' = m') (hq' : Nat.lor 0x800000 q' = q') : Keeps m' q' u' (s.tapLoad ir) := by
  refine Keeps.after ?_ hm' hq' h'
  clear hm' hq' h'
  unfold State.tapLoad
  with_reducible repeat' first
    | assumption | exact Keeps.refl _ | (intro) | split | dsimp only | (apply Keeps.with_bench; rotate_left; decide)

theorem State.tapDenied_after {m' q' : Nat} {u' : State} {s : State} {r : Reg} (h' : Keeps m' q' u' s)
    (hm' : Nat.testBit m' r.ctorIdx = true) (hq' : Nat.lor 0x800000 q' = q') : Keeps m' q' u' (s.tapDenied r) :=
  (State.tapLoad_after h' (Nat.zero_or m') hq').flag hm'

theorem State.tapSample_after {m' q' : Nat} {u' : State} {s : State} (h' : Keeps m' q' u' s)
    (hm' : Nat.lor 0x1800000000000000000000000000000000000000000000000000000000000000000000000000000000000000000000000000000000000000000000000000000000000000000000000000000000000000000000000000000000000000000000000000000000 m' = m') (hq' : Nat.lor 0x800000 q' = q') : Keeps m' q' u' (s.tapSample) := by
  refine Keeps.after ?_ hm' hq' h'
  clear hm' hq' h'
  unfold State.tapSample
  with_reducible repeat' first
    | assumption | exact Keeps.refl _ | (apply State.tapDenied_after; rotate_left; decide; decide)
    | (apply State.tapLoad_after; rotate_left; decide; decide) | apply Keeps.ite | apply Keeps.ite_fst | apply Keeps.ite_snd
    | (intro) | split | dsimp only

theorem State.tapScan_after {m' q' : Nat} {u' : State} {s : State} {ir : Nat} (h' : Keeps m' q' u' s)
    (hm' : Nat.lor 0x1800000000000000000000000000000000000000000000000000000000000000000000000000000000000000000000000000000000000000000000000000000000000000000000000000000000000000000000000000000000000000000000000000000000 m' = m') (hq' : Nat.lor 0x800000 q' = q') : Keeps m' q' u' (s.tapScan ir) := by
  refine Keeps.after ?_ hm' hq' h'
  clear hm' hq' h'
  unfold State.tapScan
  with_reducible repeat' first
    | assumption | exact Keeps.refl _ | (apply State.tapDenied_after; rotate_left; decide; decide)
    | (apply State.tapLoad_after; rotate_left; decide; decide) | apply Keeps.ite | apply Keeps.ite_fst | apply Keeps.ite_snd
    | (intro) | split | dsimp only

theorem State.tapDbg_after {m' q' : Nat} {u' : State} {s : State} (h' : Keeps m' q' u' s)
    (hm' : Nat.lor 0x1800000000000000000000000000000000000000000000000000000000000000000000000000000000000000000000000000000000000000000000000000000000000000000000000000000000000000000000000000000000000000000000000000000000 m' = m') (hq' : Nat.lor 0x800000 q' = q') : Keeps m' q' u' (s.tapDbg) := by
  refine Keeps.after ?_ hm' hq' h'
  clear hm' hq' h'
  unfold State.tapDbg
  with_reducible repeat' first
    | assumption | exact Keeps.refl _ | (apply State.tapDenied_after; rotate_left; decide; decide)
    | (apply State.tapLoad_after; rotate_left; decide; decide) | apply Keeps.ite | apply Keeps.ite_fst | apply Keeps.ite_snd
    | (intro) | split | dsimp only

theorem State.debug_after {m' q' : Nat} {u' : State} {s : State} {f : State → CStat × State} (k' : Keeps m' q' u' s)
    (hm' : Nat.lor 0x0 m' = m') (hq' : Nat.lor 0x1000000 q' = q') (h : ∀ s, Keeps m' q' u' s → Keeps m' q' u' (f s).2) :
    Keeps m' q' u' (s.debug f) := by
  unfold State.debug
  with_reducible repeat' first
    | assumption | exact Keeps.refl _
    | (apply State.emit_after; rotate_left; (first | exact bit_of hm' (by decide) | exact bit_of hq' (by decide) | exact lor_of hm' (by decide) | exact lor_of hq' (by decide)); (first | exact bit_of hm' (by decide) | exact bit_of hq' (by decide) | exact lor_of hm' (by decide) | exact lor_of hq' (by decide)))
    | apply Keeps.ite | apply Keeps.ite_fst | apply Keeps.ite_snd | (apply Keeps.of_eq_fst; assumption)
    | (apply Keeps.of_eq_snd; assumption) | apply h | (intro) | split | dsimp only

theorem State.sendWords_after {m' q' : Nat} {u' : State} {s : State} {ws : List Nat} (h' : Keeps m' q' u' s)
    (hm' : Nat.lor 0x0 m' = m') (hq' : Nat.lor 0x1000000 q' = q') : Keeps m' q' u' (s.sendWords ws) := by
  refine Keeps.after ?_ hm' hq' h'
  clear hm' hq' h'
  unfold State.sendWords
  with_reducible repeat' first
    | assumption | exact Keeps.refl _ | (apply State.emit_after; rotate_left; decide; decide) | apply Keeps.foldl
    | apply Keeps.foldl_snd | apply Keeps.foldl_fst | (intro) | split | dsimp only

theorem State.dbgFrame_after {m' q' : Nat} {u' : State} {s : State} {frame : List Nat} (h' : Keeps m' q' u' s)
    (hm' : Nat.lor 0x0 m' = m') (hq' : Nat.lor 0x1040000 q' = q') : Keeps m' q' u' (s.dbgFrame frame) := by
  refine Keeps.after ?_ hm' hq' h'
  clear hm' hq' h'
  unfold State.dbgFrame
  with_reducible repeat' first
    | assumption | exact Keeps.refl _ | (apply State.benchPacket_after; rotate_left; decide; decide)
    | (apply Keeps.of_eq_fst; assumption) | (apply Keeps.of_eq_snd; assumption) | (intro) | split | dsimp only

theorem State.benchChallenge_after {m' q' : Nat} {u' : State} {s : State} (h' : Keeps m' q' u' s)
    (hm' : Nat.lor 0x200000000000000000000000000000000000000000000000000000000000000000000000000000000000000000000000000000000000000000000000000000000000000000000000000000000000000000000000000000000000000000000000000000 m' = m') (hq' : Nat.lor 0x1400020 q' = q') : Keeps m' q' u' (s.benchChallenge) := by
  refine Keeps.after ?_ hm' hq' h'
  clear hm' hq' h'
  unfold State.benchChallenge
  with_reducible repeat' first
    | assumption | exact Keeps.refl _ | (apply State.benchFrame_after; rotate_left; decide; decide)
    | (apply State.newChallenge_after; rotate_left; decide; decide) | apply Keeps.ite | apply Keeps.ite_fst
    | apply Keeps.ite_snd | (intro) | split | dsimp only

theorem State.endSession_after {m' q' : Nat} {u' : State} {s : State} (h' : Keeps m' q' u' s)
    (hm' : Nat.lor 0x1061fdc0000000000000000018000000400000000000178001800007000207e00007ffd01f80000f08000000400000000000009160000000000000000000400000300000000000000000014000000000000001000000000801c000004c00000000000000000 m' = m') (hq' : Nat.lor 0x1cdecc1 q' = q') : Keeps m' q' u' (s.endSession) := by
  refine Keeps.after ?_ hm' hq' h'
  clear hm' hq' h'
  unfold State.endSession
  with_reducible repeat' first
    | assumption | exact Keeps.refl _ | (apply State.closeSession_after; rotate_left; decide; decide)
    | (apply State.runWaiting_after; rotate_left; decide; decide) | apply Keeps.ite | apply Keeps.ite_fst
    | apply Keeps.ite_snd | (intro) | split | dsimp only

theorem State.benchOpening_after {m' q' : Nat} {u' : State} {s : State} {bs key : List Nat} {signed : Bool} (h' : Keeps m' q' u' s)
    (hm' : Nat.lor 0xc0400600000000000000000000000000000000000000000000000000000000000007f3d000000000000000000000000000000000000000000000000000000000000000000000000000000000000000000000000000000000000000000000000000000000000 m' = m') (hq' : Nat.lor 0x1404000 q' = q') : Keeps m' q' u' (s.benchOpening bs key signed) := by
  refine Keeps.after ?_ hm' hq' h'
  clear hm' hq' h'
  unfold State.benchOpening
  with_reducible repeat' first
    | assumption | exact Keeps.refl _ | (apply Keeps.flag; rotate_left; decide) | (apply Keeps.bump; rotate_left; decide)
    | (apply State.emit_after; rotate_left; decide; decide) | (apply State.endChallenge_after; rotate_left; decide; decide)
    | (apply State.journal_after; rotate_left; decide; decide) | (apply State.lcRefused_after; rotate_left; decide; decide)
    | apply Keeps.ite | apply Keeps.ite_fst | apply Keeps.ite_snd | (intro) | split | dsimp only

theorem State.rawRequest_after {m' q' : Nat} {u' : State} {s : State} {t : Transition} {steps : Nat} (h' : Keeps m' q' u' s)
    (hm' : Nat.lor 0x1061fdc0000000000000000018000000400000000000178001800007000207e00007ffd01f80000f08000000400000000000009160000000000000000000400000300000000000000000014000000000000001000000000801c000004c00000000000000000 m' = m') (hq' : Nat.lor 0x1cdecc1 q' = q') : Keeps m' q' u' (s.rawRequest t steps) := by
  refine Keeps.after ?_ hm' hq' h'
  clear hm' hq' h'
  unfold State.rawRequest
  with_reducible repeat' first
    | assumption | exact Keeps.refl _ | (apply State.carryOut_after; rotate_left; decide; decide)
    | (apply State.refuseToken_after; rotate_left; decide; decide) | apply Keeps.ite | apply Keeps.ite_fst
    | apply Keeps.ite_snd | (intro) | split | dsimp only

theorem State.benchOpenFrame_after {m' q' : Nat} {u' : State} {s : State} {token key : List Nat} {signed : Bool} {request : Option (Nat × List Nat × List Nat)} {steps : Nat} (h' : Keeps m' q' u' s)
    (hm' : Nat.lor 0xd061ffc0000000000000000018000000400000000000178001800007000207e00007ffd01f80000f08000000400000000000009160000000000000000000400000300000000000000000014000000000000001000000000801c000004c00000000000000000 m' = m') (hq' : Nat.lor 0x1cdecc1 q' = q') : Keeps m' q' u' (s.benchOpenFrame token key signed request steps) := by
  refine Keeps.after ?_ hm' hq' h'
  clear hm' hq' h'
  unfold State.benchOpenFrame
  with_reducible repeat' first
    | assumption | exact Keeps.refl _ | (apply State.benchOpening_after; rotate_left; decide; decide)
    | (apply State.lifeToken_after; rotate_left; decide; decide)
    | (apply State.rawRequest_after; rotate_left; decide; decide) | apply Keeps.ite | apply Keeps.ite_fst
    | apply Keeps.ite_snd | (apply Keeps.of_eq_fst; assumption) | (apply Keeps.of_eq_snd; assumption) | (intro) | split
    | dsimp only

theorem State.markHalted_after {m' q' : Nat} {u' : State} {s : State} {e : Nat} (h' : Keeps m' q' u' s)
    (hm' : Nat.lor 0x0 m' = m') (hq' : Nat.lor 0x800000 q' = q') : Keeps m' q' u' (s.markHalted e) := by
  refine Keeps.after ?_ hm' hq' h'
  clear hm' hq' h'
  unfold State.markHalted
  with_reducible repeat' first
    | assumption | exact Keeps.refl _ | (intro) | split | dsimp only | (apply Keeps.with_bench; rotate_left; decide)

theorem State.haltCore_after {m' q' : Nat} {u' : State} {s : State} {c : Nat} (h' : Keeps m' q' u' s)
    (hm' : Nat.lor 0x10000000000000000000000000000000000000000080000000000000000000000000000000000000000000000000000000000000000000000000000000000000000000000000000000000000000000000000000000000000000000000000000000000000000 m' = m') (hq' : Nat.lor 0x40000 q' = q') : Keeps m' q' u' (s.haltCore c).2 := by
  refine Keeps.after ?_ hm' hq' h'
  clear hm' hq' h'
  unfold State.haltCore
  with_reducible repeat' first
    | assumption | exact Keeps.refl _ | (apply Keeps.flagBit; rotate_left; decide)
    | (apply State.moveTasks_after; rotate_left; decide; decide) | apply Keeps.ite | apply Keeps.ite_fst
    | apply Keeps.ite_snd | (intro) | split | dsimp only

theorem State.haltSeq_after {m' q' : Nat} {u' : State} {s : State} {e : Nat} {x : Str} (h' : Keeps m' q' u' s)
    (hm' : Nat.lor 0x0 m' = m') (hq' : Nat.lor 0x800800 q' = q') : Keeps m' q' u' (s.haltSeq e x).2 := by
  refine Keeps.after ?_ hm' hq' h'
  clear hm' hq' h'
  unfold State.haltSeq
  with_reducible repeat' first
    | assumption | exact Keeps.refl _ | (apply State.markHalted_after; rotate_left; decide; decide)
    | (apply State.seqWithdraw_after; rotate_left; decide; decide) | apply Keeps.when | (intro) | split | dsimp only

theorem State.haltSce_after {m' q' : Nat} {u' : State} {s : State} {x : Str} (h' : Keeps m' q' u' s)
    (hm' : Nat.lor 0x800000000000000000000000000009160000000000000000000000000000000000000000000010000000000000000018000000001c000000000000000000000000 m' = m') (hq' : Nat.lor 0x806800 q' = q') : Keeps m' q' u' (s.haltSce x).2 := by
  refine Keeps.after ?_ hm' hq' h'
  clear hm' hq' h'
  unfold State.haltSce
  with_reducible repeat' first
    | assumption | exact Keeps.refl _ | (apply Keeps.wr; rotate_left; decide) | (apply Keeps.unflag; rotate_left; decide)
    | (apply State.assertWinh_after; rotate_left; decide; decide) | apply Keeps.ite | apply Keeps.ite_fst
    | apply Keeps.ite_snd | (intro) | split | dsimp only | (apply Keeps.with_bench; rotate_left; decide)

theorem State.haltSpe_after {m' q' : Nat} {u' : State} {s : State} (h' : Keeps m' q' u' s)
    (hm' : Nat.lor 0x0 m' = m') (hq' : Nat.lor 0x800400 q' = q') : Keeps m' q' u' (s.haltSpe).2 := by
  refine Keeps.after ?_ hm' hq' h'
  clear hm' hq' h'
  unfold State.haltSpe
  with_reducible repeat' first
    | assumption | exact Keeps.refl _ | (apply State.markHalted_after; rotate_left; decide; decide)
    | (apply State.modSpe_after; rotate_left; decide; decide) | apply Keeps.ite | apply Keeps.ite_fst | apply Keeps.ite_snd
    | (intro) | split | dsimp only

theorem State.haltOp_after {m' q' : Nat} {u' : State} {s : State} {e : Nat} (h' : Keeps m' q' u' s)
    (hm' : Nat.lor 0x1000000000000000000000000000000000000000008000000000000000000000000000000800000000000000000000000000009160000000000000000000000000000000000000000000010000000000000000018000000001c000000000000000000000000 m' = m') (hq' : Nat.lor 0x846c00 q' = q') : Keeps m' q' u' (s.haltOp e).2 := by
  refine Keeps.after ?_ hm' hq' h'
  clear hm' hq' h'
  unfold State.haltOp
  with_reducible repeat' first
    | assumption | exact Keeps.refl _ | (apply State.haltCore_after; rotate_left; decide; decide)
    | (apply State.haltSce_after; rotate_left; decide; decide) | (apply State.haltSeq_after; rotate_left; decide; decide)
    | (apply State.haltSpe_after; rotate_left; decide; decide) | apply Keeps.ite | apply Keeps.ite_fst | apply Keeps.ite_snd
    | (apply Keeps.of_eq_fst; assumption) | (apply Keeps.of_eq_snd; assumption) | (intro) | split | dsimp only

theorem State.resumeOp_after {m' q' : Nat} {u' : State} {s : State} {e : Nat} (h' : Keeps m' q' u' s)
    (hm' : Nat.lor 0x10000000000000000000000000000000000000000000000000000000000000000000000000000000000000000000000000000000000000000000000000000000000000000000000000000000000000000000000000000000004000000000000000000000000 m' = m') (hq' : Nat.lor 0x840000 q' = q') : Keeps m' q' u' (s.resumeOp e).2 := by
  refine Keeps.after ?_ hm' hq' h'
  clear hm' hq' h'
  unfold State.resumeOp
  with_reducible repeat' first
    | assumption | exact Keeps.refl _ | (apply Keeps.unflagBit; rotate_left; decide)
    | (apply State.sceResume_after; rotate_left; decide; decide)
    | (apply State.scheduleTasks_after; rotate_left; decide; decide) | apply Keeps.ite | apply Keeps.ite_fst
    | apply Keeps.ite_snd | (intro) | split | dsimp only | (apply Keeps.with_bench; rotate_left; decide)

theorem State.stepSce_after {m' q' : Nat} {u' : State} {s : State} {x : Str} (h' : Keeps m' q' u' s)
    (hm' : Nat.lor 0xe00000000002000000000000000000000000000 m' = m') (hq' : Nat.lor 0x820822 q' = q') : Keeps m' q' u' (s.stepSce x) := by
  refine Keeps.after ?_ hm' hq' h'
  unfold State.stepSce
  dsimp only
  split
  · exact Keeps.refl _
  · refine Keeps.with_bench ?_ rfl
    refine Keeps.when ?_ (fun u h => h.flag rfl)
    refine State.modSce_after ?_ rfl rfl
    exact (Chain.run_keeps s _ _ _ _ (Keeps.refl s)).mono rfl rfl

theorem State.stepOp_after {m' q' : Nat} {u' : State} {s : State} {e pt : Nat} (h' : Keeps m' q' u' s)
    (hm' : Nat.lor 0x2000000000000000000006008380000000000000000001ff237f00000000000000007f3d01c00008f280000004000000001800091600000000000000006004001003a04000000000000000140000000000000e1000000000a01c000000000000000000000000 m' = m') (hq' : Nat.lor 0x18f78e3 q' = q') : Keeps m' q' u' (s.stepOp e pt).2 := by
  refine Keeps.after ?_ hm' hq' h'
  clear hm' hq' h'
  unfold State.stepOp
  with_reducible repeat' first
    | assumption | exact Keeps.refl _ | (apply State.issue_after; rotate_left; decide; decide)
    | (apply State.stepSce_after; rotate_left; decide; decide) | (apply State.traced_after; rotate_left; decide; decide)
    | apply Keeps.ite | apply Keeps.ite_fst | apply Keeps.ite_snd | (apply Keeps.of_eq_fst; assumption)
    | (apply Keeps.of_eq_snd; assumption) | (intro) | split | dsimp only

theorem State.breakOp_after {m' q' : Nat} {u' : State} {s : State} {e kind place : Nat} {on : Bool} (h' : Keeps m' q' u' s)
    (hm' : Nat.lor 0x0 m' = m') (hq' : Nat.lor 0x800000 q' = q') : Keeps m' q' u' (s.breakOp e kind place on).2 := by
  refine Keeps.after ?_ hm' hq' h'
  clear hm' hq' h'
  unfold State.breakOp
  with_reducible repeat' first
    | assumption | exact Keeps.refl _ | apply Keeps.ite | apply Keeps.ite_fst | apply Keeps.ite_snd | (intro) | split
    | dsimp only | (apply Keeps.with_bench; rotate_left; decide)

theorem State.breakHit_after {m' q' : Nat} {u' : State} {s : State} {e kind place : Nat} (h' : Keeps m' q' u' s)
    (hm' : Nat.lor 0x1000000000000000000000000000000000000000008000000000000000000000000000000800000000000000000000000000009160000000000000000000000000000000000000000000010000000000000000018000000001c000000000000000000000000 m' = m') (hq' : Nat.lor 0x846c00 q' = q') : Keeps m' q' u' (s.breakHit e kind place) := by
  refine Keeps.after ?_ hm' hq' h'
  clear hm' hq' h'
  unfold State.breakHit
  with_reducible repeat' first
    | assumption | exact Keeps.refl _ | (apply State.haltOp_after; rotate_left; decide; decide) | apply Keeps.ite
    | apply Keeps.ite_fst | apply Keeps.ite_snd | (intro) | split | dsimp only

theorem State.benchWords_after {m' q' : Nat} {u' : State} {s : State} {a : Nat} {fuel : Nat} (h' : Keeps m' q' u' s)
    (hm' : Nat.lor 0x200000000000000000000000000f67000007802000007800180000000000000000000000000000000000000000000000000000000000000000000000000000000000000000000000000000000000000000000080000000000000000000000000000000007f m' = m') (hq' : Nat.lor 0x1020822 q' = q') : Keeps m' q' u' (s.benchWords a fuel).2 := by
  refine Keeps.after ?_ hm' hq' h'
  clear hm' hq' h'
  suffices H : ∀ u, Keeps 0x200000000000000000000000000f67000007802000007800180000000000000000000000000000000000000000000000000000000000000000000000000000000000000000000000000000000000000000000080000000000000000000000000000000007f 0x1020822 u s → Keeps 0x200000000000000000000000000f67000007802000007800180000000000000000000000000000000000000000000000000000000000000000000000000000000000000000000000000000000000000000000080000000000000000000000000000000007f 0x1020822 u (s.benchWords a fuel).2 from H _ (Keeps.refl _)
  induction fuel generalizing s a with
  | zero =>
    intro u hu
    simp only [State.benchWords]
    with_reducible repeat' first
      | assumption | exact Keeps.refl _ | (apply Keeps.flag; rotate_left; decide)
      | (apply State.readWord_after; rotate_left; decide; decide) | apply Keeps.ite | apply Keeps.ite_fst
      | apply Keeps.ite_snd | (apply Keeps.of_eq_fst; assumption) | (apply Keeps.of_eq_snd; assumption) | (intro) | split
      | dsimp only
  | succ k ih =>
    intro u hu
    simp only [State.benchWords]
    with_reducible repeat' first
      | assumption | exact Keeps.refl _ | (apply Keeps.flag; rotate_left; decide)
      | (apply State.readWord_after; rotate_left; decide; decide) | apply ih | apply Keeps.ite | apply Keeps.ite_fst
      | apply Keeps.ite_snd | (apply Keeps.of_eq_fst; assumption) | (apply Keeps.of_eq_snd; assumption) | (intro) | split
      | dsimp only

theorem State.memRead_after {m' q' : Nat} {u' : State} {s : State} {a n : Nat} (h' : Keeps m' q' u' s)
    (hm' : Nat.lor 0x200000000000000000000000000f67000007802000007800180000000000000000000000000000000000000000000000000000000000000000000000000000000000000000000000000000000000000000000080000000000000000000000000000000007f m' = m') (hq' : Nat.lor 0x1020822 q' = q') : Keeps m' q' u' (s.memRead a n).2 := by
  refine Keeps.after ?_ hm' hq' h'
  clear hm' hq' h'
  unfold State.memRead
  with_reducible repeat' first
    | assumption | exact Keeps.refl _ | (apply State.benchWords_after; rotate_left; decide; decide)
    | (apply State.sendWords_after; rotate_left; decide; decide) | apply Keeps.ite | apply Keeps.ite_fst
    | apply Keeps.ite_snd | (apply Keeps.of_eq_fst; assumption) | (apply Keeps.of_eq_snd; assumption) | (intro) | split
    | dsimp only

theorem State.benchStore_after {m' q' : Nat} {u' : State} (ws : List Nat) {s : State} {a outcome : Nat} (h' : Keeps m' q' u' s)
    (hm' : Nat.lor 0x3fffffffffffffffffffffffffffffffffffffffffffffffffffffffffffffffffffffffffffffffffffffffffffffffffffffffffffffffffffffffffffffffffffffffffffffffffffffffffffffffffffffffffffffffffffffffffffffffffffffffffff m' = m') (hq' : Nat.lor 0x13fffef q' = q') : Keeps m' q' u' (State.benchStore s a outcome ws).2 := by
  induction ws generalizing s a with
  | nil => exact h'
  | cons w ws ih =>
    unfold State.benchStore
    dsimp only
    refine ih ?_
    refine Keeps.of_eq_snd (a := (if protectedBlock a then (some CStat.ok, s) else s.writeWord 64 a w (2 ^ 32 - 1) outcome).1) rfl ?_
    refine Keeps.ite_snd (fun _ => h') fun _ => ?_
    exact (State.writeWord_after (Keeps.refl _) rfl rfl).after hm' hq' h'

theorem State.memWrite_after {m' q' : Nat} {u' : State} {s : State} {a : Nat} {ws : List Nat} {outcome : Nat} (h' : Keeps m' q' u' s)
    (hm' : Nat.lor 0x3fffffffffffffffffffffffffffffffffffffffffffffffffffffffffffffffffffffffffffffffffffffffffffffffffffffffffffffffffffffffffffffffffffffffffffffffffffffffffffffffffffffffffffffffffffffffffffffffffffffffffff m' = m') (hq' : Nat.lor 0x13fffef q' = q') : Keeps m' q' u' (s.memWrite a ws outcome).2 := by
  refine Keeps.after ?_ hm' hq' h'
  clear hm' hq' h'
  unfold State.memWrite
  with_reducible repeat' first
    | assumption | exact Keeps.refl _ | (apply State.benchStore_after; rotate_left; decide; decide)
    | (apply State.settleRequests_after; rotate_left; decide; decide) | apply Keeps.ite | apply Keeps.ite_fst
    | apply Keeps.ite_snd | (apply Keeps.of_eq_fst; assumption) | (apply Keeps.of_eq_snd; assumption) | (intro) | split
    | dsimp only

theorem State.stateRead_after {m' q' : Nat} {u' : State} {s : State} {e : Nat} (h' : Keeps m' q' u' s)
    (hm' : Nat.lor 0x0 m' = m') (hq' : Nat.lor 0x1000020 q' = q') : Keeps m' q' u' (s.stateRead e).2 := by
  refine Keeps.after ?_ hm' hq' h'
  clear hm' hq' h'
  unfold State.stateRead
  with_reducible repeat' first
    | assumption | exact Keeps.refl _ | (apply State.drawn_after; rotate_left; decide; decide)
    | (apply State.sendWords_after; rotate_left; decide; decide) | apply Keeps.ite | apply Keeps.ite_fst
    | apply Keeps.ite_snd | (intro) | split | dsimp only

theorem State.traceRead_after {m' q' : Nat} {u' : State} {s : State} (h' : Keeps m' q' u' s)
    (hm' : Nat.lor 0x0 m' = m') (hq' : Nat.lor 0x1000000 q' = q') : Keeps m' q' u' (s.traceRead).2 := by
  refine Keeps.after ?_ hm' hq' h'
  clear hm' hq' h'
  unfold State.traceRead
  with_reducible repeat' first
    | assumption | exact Keeps.refl _ | (apply State.sendWords_after; rotate_left; decide; decide) | (intro) | split
    | dsimp only

theorem State.snapOp_after {m' q' : Nat} {u' : State} {s : State} {e : Nat} (h' : Keeps m' q' u' s)
    (hm' : Nat.lor 0x0 m' = m') (hq' : Nat.lor 0x800000 q' = q') : Keeps m' q' u' (s.snapOp e).2 := by
  refine Keeps.after ?_ hm' hq' h'
  clear hm' hq' h'
  unfold State.snapOp
  with_reducible repeat' first
    | assumption | exact Keeps.refl _ | apply Keeps.ite | apply Keeps.ite_fst | apply Keeps.ite_snd | (intro) | split
    | dsimp only | (apply Keeps.with_bench; rotate_left; decide)

theorem State.snapCapture_after {m' q' : Nat} {u' : State} {s : State} (h' : Keeps m' q' u' s)
    (hm' : Nat.lor 0x4000000000000000000000000000000000000000000000000000000000000000000000000000000000000000000000000000000000000000000000000000000000000000000000000000000000000000000000000000000000000000000000000000000000 m' = m') (hq' : Nat.lor 0x1800000 q' = q') : Keeps m' q' u' (s.snapCapture) := by
  refine Keeps.after ?_ hm' hq' h'
  clear hm' hq' h'
  unfold State.snapCapture
  with_reducible repeat' first
    | assumption | exact Keeps.refl _ | (apply Keeps.unflag; rotate_left; decide)
    | (apply State.emit_after; rotate_left; decide; decide) | apply Keeps.ite | apply Keeps.ite_fst | apply Keeps.ite_snd
    | (apply Keeps.of_eq_fst; assumption) | (apply Keeps.of_eq_snd; assumption) | (intro) | split | dsimp only
    | (apply Keeps.with_bench; rotate_left; decide)

theorem State.setEngine_after {m' q' : Nat} {u' : State} {s : State} {e : ShadowEngine} (h' : Keeps m' q' u' s)
    (hm' : Nat.lor 0x0 m' = m') (hq' : Nat.lor 0x800000 q' = q') : Keeps m' q' u' (s.setEngine e) := by
  refine Keeps.after ?_ hm' hq' h'
  clear hm' hq' h'
  unfold State.setEngine
  with_reducible repeat' first
    | assumption | exact Keeps.refl _ | (intro) | split | dsimp only | (apply Keeps.with_bench; rotate_left; decide)

theorem State.shadowEnd_after {m' q' : Nat} {u' : State} {s : State} {e : ShadowEngine} (h' : Keeps m' q' u' s)
    (hm' : Nat.lor 0x4000000000000000000000000000000000000000000000000000000000000000000000000000000000000000000000000000000000000000000000000000000000000000000000000000000000000000000000000000000000000000000000000000000000 m' = m') (hq' : Nat.lor 0x800000 q' = q') : Keeps m' q' u' (s.shadowEnd e) := by
  refine Keeps.after ?_ hm' hq' h'
  clear hm' hq' h'
  unfold State.shadowEnd
  with_reducible repeat' first
    | assumption | exact Keeps.refl _ | (apply Keeps.setTo; rotate_left; decide)
    | (apply State.setEngine_after; rotate_left; decide; decide) | (intro) | split | dsimp only

theorem storeFind_append (a b : List (Nat × Nat)) (k : Nat) : storeFind (a ++ b) k = (storeFind a k).orElse fun _ => storeFind b k := by
  induction a with
  | nil => rfl
  | cons e a ih =>
    obtain ⟨j, v⟩ := e
    by_cases h : j = k <;> simp [storeFind, h, ih]

/-- Entries of the table read as given, every other one as before. -/
theorem State.withTable_find (s : State) (b : Nat) (ws : List (Nat × Nat)) (k : Nat) :
    storeFind (s.withTable b ws).regs k = if k / 65536 = b then storeFind ws k else storeFind s.regs k := by
  unfold State.withTable
  simp only [storeFind_append, storeFind_filter (fun n => decide (n / 65536 < b)), storeFind_filter (fun n => decide (n / 65536 = b)),
    storeFind_filter (fun n => decide (b < n / 65536))]
  rcases Nat.lt_trichotomy (k / 65536) b with h | h | h
  · simp only [h, Nat.ne_of_lt h, Nat.not_lt.mpr (Nat.le_of_lt h), decide_true, decide_false, if_true, if_false]
    cases storeFind s.regs k <;> rfl
  · subst h; simp
  · simp only [h, Nat.ne_of_gt h, Nat.not_lt.mpr (Nat.le_of_lt h), decide_true, decide_false, if_true, if_false]
    cases storeFind s.regs k <;> rfl

/-- A chain of a shadow changes no entry outside its table. -/
def Chain.Kept (b : Nat) (s : State) (c : Chain) : Prop :=
  (∀ k, k / 65536 ≠ b → storeFind c.s.regs k = storeFind s.regs k) ∧ Keeps 0x3fffffffffffffffffffffffffffffffffffffffffffffffffffffffffffffffffffffffffffffffffffffffffffffffffffffffffffffffffffffffffffffffffffffffffffffffffffffffffffffffffffffffffffffffffffffffffffffffffffffffffff 0x20 s c.s

theorem tableKey (t : Nat) (x : Str) (w : Nat) : regKey (tableReg t) (x.ix (w % 16384)) / 65536 = regKey (tableReg t) x.ix / 65536 := by
  have hx : x.num < 4 := by cases x <;> decide
  have hw : w % 16384 < 16384 := Nat.mod_lt _ (by decide)
  unfold regKey Str.ix
  rw [Nat.mod_eq_of_lt (a := x.num * 65536 + w % 16384) (by omega), Nat.mod_eq_of_lt (a := x.num * 65536 + 0) (by omega)]
  omega

theorem State.wr_find (s : State) (r : Reg) (v i k : Nat) (h : k ≠ regKey r i) : storeFind (s.wr r v i).regs k = storeFind s.regs k := by
  unfold State.wr
  by_cases hv : v % 2 ^ r.row.width = r.row.reset
  · simp [hv, storeFind_storeDrop_ne _ _ _ h]
  · simp [hv, storeFind_storePut_ne _ _ _ _ h]

theorem Chain.Kept.putSt {s : State} {c : Chain} {x : Str} {t : Nat} {d : Section} {k : Nat} {acc : Int} (h : Chain.Kept (regKey (tableReg t) x.ix / 65536) s c) :
    Chain.Kept (regKey (tableReg t) x.ix / 65536) s (c.putSt x t d k acc) :=
  ⟨fun j hj => (State.wr_find _ _ _ _ _ (by rintro rfl; exact hj (tableKey t x _))).trans (h.1 j hj), h.2.wr (allRegs_self _)⟩

theorem Chain.Kept.foldl {α : Type} {b : Nat} {s : State} {f : Chain → α → Chain} (hf : ∀ c a, Chain.Kept b s c → Chain.Kept b s (f c a)) (l : List α) {c : Chain}
    (h : Chain.Kept b s c) : Chain.Kept b s (l.foldl f c) := by
  induction l generalizing c with
  | nil => exact h
  | cons a l ih => exact ih (hf c a h)

theorem Chain.Kept.run {s : State} {c : Chain} {x : Str} {t : Nat} (d : Section) (h7 : d.code ≠ 7) (h : Chain.Kept (regKey (tableReg t) x.ix / 65536) s c) :
    Chain.Kept (regKey (tableReg t) x.ix / 65536) s (Chain.run x t c d) := by
  have ss : ∀ c, Chain.Kept (regKey (tableReg t) x.ix / 65536) s c → Chain.Kept (regKey (tableReg t) x.ix / 65536) s (c.ss x t d) := by
    intro c h
    unfold Chain.ss
    dsimp only
    apply Chain.Kept.foldl
    · intro c a hc; exact hc.putSt
    · apply Chain.Kept.foldl
      · intro c a hc; exact hc
      · exact h
  unfold Chain.run
  split
  · exact Chain.Kept.putSt (Chain.Kept.putSt h)
  · exact ss _ h
  · exact h
  · exact h
  · exact h
  · exact ss _ h
  · rename_i e; exact absurd e h7
  · exact h

theorem State.shadowSection_after {m' q' : Nat} {u' : State} {s : State} {e : ShadowEngine} (h' : Keeps m' q' u' s)
    (hm' : Nat.lor 0xc000000000000000000000000000000000000000000000000000000000000000000000000000000000000000000000000000000000000000000000000000000000000000000000000000000000000000000000000000000000000000000000000000000000 m' = m') (hq' : Nat.lor 0x800020 q' = q') : Keeps m' q' u' (s.shadowSection e) := by
  refine Keeps.after ?_ hm' hq' h'
  unfold State.shadowSection
  dsimp only
  split
  · exact Keeps.ite (fun _ => Keeps.refl _) fun _ => State.shadowEnd_after (Keeps.refl _) rfl rfl
  · rename_i d hd
    refine Keeps.ite (fun _ => State.shadowEnd_after (Keeps.refl _) rfl rfl) fun _ => ?_
    refine Keeps.ite (fun _ => (State.setEngine_after (Keeps.refl _) rfl rfl).flag rfl) fun h7 => ?_
    refine State.setEngine_after ?_ rfl rfl
    generalize hb : regKey (tableReg e.table) (Str.ofNum (e.engine % 4)).ix / 65536 = b
    have k : Chain.Kept b (s.withTable b e.words)
        (Chain.run (Str.ofNum (e.engine % 4)) e.table { s := s.withTable b e.words, sig := e.sig, sat := false, pred := e.pred } d) := by
      subst hb; exact Chain.Kept.run d h7 ⟨fun _ _ => rfl, Keeps.refl _⟩
    generalize Chain.run (Str.ofNum (e.engine % 4)) e.table { s := s.withTable b e.words, sig := e.sig, sat := false, pred := e.pred } d = c at k
    have w : Keeps 0 0x20 s (c.s.withTable b s.regs) :=
      {
         regs := fun r j _ => by
           have e1 : storeFind (c.s.withTable b s.regs).regs (regKey r j) = storeFind s.regs (regKey r j) := by
             rw [State.withTable_find]
             split
             · rfl
             · rename_i hne
               rw [k.1 _ hne, State.withTable_find, if_neg hne]
           unfold State.rd; rw [e1]
         parts := fun p hp => p.same_trans (k.2.parts p hp) (by cases p <;> rfl)
         queue := k.2.queue
         memory := k.2.memory
         fuses := k.2.fuses }
    exact w.mono (Nat.zero_or _) rfl

theorem State.shadowStage_after {m' q' : Nat} {u' : State} {s : State} {e : ShadowEngine} (h' : Keeps m' q' u' s)
    (hm' : Nat.lor 0x4000000000000000000000000000000000000000000000000000000000000000000000000000000000000000000000000000000000000000000000000000000000000000000000000000000000000000000000000000000000000000000000000000000000 m' = m') (hq' : Nat.lor 0x800020 q' = q') : Keeps m' q' u' (s.shadowStage e) := by
  refine Keeps.after ?_ hm' hq' h'
  clear hm' hq' h'
  unfold State.shadowStage
  with_reducible repeat' first
    | assumption | exact Keeps.refl _ | (apply State.setEngine_after; rotate_left; decide; decide)
    | (apply State.shadowEnd_after; rotate_left; decide; decide) | apply Keeps.ite | apply Keeps.ite_fst
    | apply Keeps.ite_snd | (intro) | split | dsimp only | (apply Keeps.with_draws; rotate_left; decide)

theorem State.shadowStep_after {m' q' : Nat} {u' : State} {s : State} (h' : Keeps m' q' u' s)
    (hm' : Nat.lor 0xc000000000000000000000000000000000000000000000000000000000000000000000000000000000000000000000000000000000000000000000000000000000000000000000000000000000000000000000000000000000000000000000000000000000 m' = m') (hq' : Nat.lor 0x800020 q' = q') : Keeps m' q' u' (s.shadowStep) := by
  refine Keeps.after ?_ hm' hq' h'
  clear hm' hq' h'
  unfold State.shadowStep
  with_reducible repeat' first
    | assumption | exact Keeps.refl _ | (apply State.shadowSection_after; rotate_left; decide; decide)
    | (apply State.shadowStage_after; rotate_left; decide; decide) | apply Keeps.ite | apply Keeps.ite_fst
    | apply Keeps.ite_snd | (apply Keeps.of_eq_fst; assumption) | (apply Keeps.of_eq_snd; assumption) | (intro) | split
    | dsimp only

theorem State.shadowRun_after {m' q' : Nat} {u' : State} {s : State} {fuel : Nat} (h' : Keeps m' q' u' s)
    (hm' : Nat.lor 0xc000000000000000000000000000000000000000000000000000000000000000000000000000000000000000000000000000000000000000000000000000000000000000000000000000000000000000000000000000000000000000000000000000000000 m' = m') (hq' : Nat.lor 0x800020 q' = q') : Keeps m' q' u' (s.shadowRun fuel) := by
  refine Keeps.after ?_ hm' hq' h'
  clear hm' hq' h'
  suffices H : ∀ u, Keeps 0xc000000000000000000000000000000000000000000000000000000000000000000000000000000000000000000000000000000000000000000000000000000000000000000000000000000000000000000000000000000000000000000000000000000000 0x800020 u s → Keeps 0xc000000000000000000000000000000000000000000000000000000000000000000000000000000000000000000000000000000000000000000000000000000000000000000000000000000000000000000000000000000000000000000000000000000000 0x800020 u (s.shadowRun fuel) from H _ (Keeps.refl _)
  induction fuel generalizing s with
  | zero =>
    intro u hu
    simp only [State.shadowRun]
    with_reducible repeat' first
      | assumption | exact Keeps.refl _ | (apply State.shadowEnd_after; rotate_left; decide; decide)
      | (apply State.shadowStep_after; rotate_left; decide; decide) | apply Keeps.ite | apply Keeps.ite_fst
      | apply Keeps.ite_snd | (apply Keeps.of_eq_fst; assumption) | (apply Keeps.of_eq_snd; assumption) | (intro) | split
      | dsimp only
  | succ k ih =>
    intro u hu
    simp only [State.shadowRun]
    with_reducible repeat' first
      | assumption | exact Keeps.refl _ | (apply State.shadowEnd_after; rotate_left; decide; decide)
      | (apply State.shadowStep_after; rotate_left; decide; decide) | apply ih | apply Keeps.ite | apply Keeps.ite_fst
      | apply Keeps.ite_snd | (apply Keeps.of_eq_fst; assumption) | (apply Keeps.of_eq_snd; assumption) | (intro) | split
      | dsimp only

theorem State.sstep_after {m' q' : Nat} {u' : State} {s : State} (h' : Keeps m' q' u' s)
    (hm' : Nat.lor 0xc000000000000000000000000000000000000000000000000000000000000000000000000000000000000000000000000000000000000000000000000000000000000000000000000000000000000000000000000000000000000000000000000000000000 m' = m') (hq' : Nat.lor 0x800020 q' = q') : Keeps m' q' u' (s.sstep).2 := by
  refine Keeps.after ?_ hm' hq' h'
  clear hm' hq' h'
  unfold State.sstep
  with_reducible repeat' first
    | assumption | exact Keeps.refl _ | (apply State.shadowStep_after; rotate_left; decide; decide) | apply Keeps.ite
    | apply Keeps.ite_fst | apply Keeps.ite_snd | (intro) | split | dsimp only

theorem State.srun_after {m' q' : Nat} {u' : State} {s : State} (h' : Keeps m' q' u' s)
    (hm' : Nat.lor 0xc000000000000000000000000000000000000000000000000000000000000000000000000000000000000000000000000000000000000000000000000000000000000000000000000000000000000000000000000000000000000000000000000000000000 m' = m') (hq' : Nat.lor 0x800020 q' = q') : Keeps m' q' u' (s.srun).2 := by
  refine Keeps.after ?_ hm' hq' h'
  clear hm' hq' h'
  unfold State.srun
  with_reducible repeat' first
    | assumption | exact Keeps.refl _ | (apply State.shadowRun_after; rotate_left; decide; decide) | apply Keeps.ite
    | apply Keeps.ite_fst | apply Keeps.ite_snd | (intro) | split | dsimp only

end Sys2Proof.Machine
end

