-- ==== Sys2Proof/Tests/Slice0.lean ====
section
/-! SUPPORT. Tests/Slice0.lean: small checks of the model, and for each statement a state that meets its premises. -/
namespace Sys2Proof.Machine

theorem test_idle : step State.reset = .next State.reset := rfl

end Sys2Proof.Machine
end

/-! PROOF. Proofs/AtSpeed.lean: ATSPD outside RUN. SPEED_LOOP_UPDATE puts in force whatever shadow copy waits for the SPE (R11),
so the premise of O9, which binds the register file alone, is not kept: a copy of ATSPD itself may wait. -/
namespace Sys2Proof.Machine

/-- A boundary at which one copy waits writes that copy and leaves none waiting. -/
theorem State.boundary_of_shadow_singleton (s : State) (e : Shadow) (h : s.shadow = [e]) :
    s.boundary e.reg.row.blk (e.idx / 65536) = ({ s with shadow := [] } : State).wr e.reg e.value e.idx := by
  simp [State.boundary, h]

/-- With the SPE in OFF the speed loop is its block's boundary and nothing more. -/
theorem State.speedLoop_of_off (s : State) (h : s.rd .SPE_STAT_STATE = 0) : s.speedLoop = s.boundary .spe 0 := by
  simp [State.speedLoop, State.speState, h]

/-- The copy of ATSPD that waits in the counterexample to O9. -/
def atSpeedCopy : Shadow := { reg := .SPE_STAT_ATSPD, idx := 0, value := 1 }

/-- The reset state but for a copy of ATSPD that waits for SPEED_LOOP_UPDATE, which stands in the queue. -/
def atSpeedWaiting : State := { State.reset with shadow := [atSpeedCopy], pending := [.speedLoopUpdate] }

/-- `atSpeedWaiting` after its one command: ATSPD is set and nothing waits. -/
def atSpeedInOff : State := State.reset.flag .SPE_STAT_ATSPD

theorem atSpeedInOff_state : atSpeedInOff.rd .SPE_STAT_STATE = 0 :=
  State.rd_wr_ne State.reset .SPE_STAT_ATSPD .SPE_STAT_STATE 1 0 0 (by decide)

theorem atSpeedInOff_atspd : atSpeedInOff.rd .SPE_STAT_ATSPD = 1 := State.rd_wr_self ..

/-- The command of `atSpeedWaiting` sets ATSPD in OFF. -/
theorem step_atSpeedWaiting : step atSpeedWaiting = .next atSpeedInOff := by
  let s : State := { State.reset with shadow := [atSpeedCopy] }
  have applied : s.boundary .spe 0 = atSpeedInOff := s.boundary_of_shadow_singleton atSpeedCopy rfl
  calc step atSpeedWaiting = .next s.speedLoop := rfl
    _ = .next atSpeedInOff := by rw [s.speedLoop_of_off rfl, applied]

/-- Refutes O9: its premise says nothing of the shadow copies. In the reset state with a copy of ATSPD waiting, STATE is OFF and
ATSPD clear, and SPEED_LOOP_UPDATE takes the copy: ATSPD reads 1 in OFF. -/
theorem not_atSpeedInRunAlone : ¬ Obligations.AtSpeedInRunAlone := by
  rintro ⟨kept, -, -⟩
  have clear : atSpeedInOff.rd .SPE_STAT_ATSPD = 0 :=
    kept atSpeedWaiting atSpeedInOff (fun _ => rfl) step_atSpeedWaiting (by simp [atSpeedInOff_state])
  simp [atSpeedInOff_atspd] at clear

end Sys2Proof.Machine

/-! PROOF. Proofs/Opcodes.lean: which opcodes an arriving packet may name (R383, R391, R392). Behind an accepted header the opcode
is the next check, and nothing after it answers BAD_OPCODE. -/
namespace Sys2Proof.Machine

theorem storeFind_eq_none_of_not_mem (m : List (Nat × Nat)) (k : Nat) (h : k ∉ m.map Prod.fst) : storeFind m k = none := by
  induction m with
  | nil => rfl
  | cons e m ih =>
    obtain ⟨he, hm⟩ : k ≠ e.1 ∧ k ∉ m.map Prod.fst := by simpa using h
    simp [storeFind, he.symm, ih hm]

theorem opcodeFits_of_unlisted {op : Nat} (cls : Nat) (low : op < 0x8000) (unlisted : op ∉ baseOpcodes.map Prod.fst) :
    opcodeFits op cls = false := by
  simp [opcodeFits, storeFind_eq_none_of_not_mem _ _ unlisted, low]

theorem opcodeFits_of_extension {op cls : Nat} (high : 0x8000 ≤ op) (known : cls ≤ 5) : opcodeFits op cls = true := by
  simp [opcodeFits, high, known]

/-- Behind an accepted header the opcode and the class alone decide whether the check answers BAD_OPCODE. -/
theorem State.ciborCheck_eq_badOpcode_iff {s : State} {r : CiborRequest} {bs : List Nat} (good : s.headerGood r.source bs = true) :
    s.ciborCheck r bs = some .badOpcode ↔ opcodeFits r.opcode r.cls = false := by
  cases fits : opcodeFits r.opcode r.cls with
  | false => simp [State.ciborCheck, good, fits]
  | true =>
    simp only [State.ciborCheck, good, fits]
    split_ifs <;> simp

theorem packetRequest_opcode (source order : Nat) (bs : List Nat) : (packetRequest source order bs).opcode = leField bs 0 2 := rfl
theorem packetRequest_cls (source order : Nat) (bs : List Nat) : (packetRequest source order bs).cls = bs.getD 2 0 := rfl

theorem State.ciborCheck_packet_eq_badOpcode_iff {s : State} {source : Nat} {bs : List Nat} (good : s.headerGood source bs = true)
    (order : Nat) :
    s.ciborCheck (packetRequest source order bs) bs = some .badOpcode ↔ opcodeFits (leField bs 0 2) (bs.getD 2 0) = false := by
  rw [← packetRequest_opcode source order bs, ← packetRequest_cls source order bs]
  exact State.ciborCheck_eq_badOpcode_iff good

theorem State.ciborArrive_of_rejected {s : State} {source : Nat} {bs : List Nat} {st : CStat}
    (check : s.ciborCheck (packetRequest source s.bur.order bs) bs = some st) : s.ciborArrive source bs = (st, s) := by
  simp [State.ciborArrive, check]

/-- A packet that passes the checks ends in OK, SEG_ORDER or CFG_RANGE. -/
theorem State.ciborArrive_ne_badOpcode_of_checked {s : State} {source : Nat} {bs : List Nat}
    (check : s.ciborCheck (packetRequest source s.bur.order bs) bs = none) : (s.ciborArrive source bs).1 ≠ .badOpcode := by
  simp only [State.ciborArrive, check]
  cases segmented (packetRequest source s.bur.order bs).opcode with
  | false => simp
  | true =>
    cases s.segmentBytes (packetRequest source s.bur.order bs) with
    | none => simp
    | some bytes => dsimp only; split_ifs <;> simp

theorem State.ciborArrive_eq_badOpcode_iff (s : State) (source : Nat) (bs : List Nat) :
    (s.ciborArrive source bs).1 = .badOpcode ↔ s.ciborCheck (packetRequest source s.bur.order bs) bs = some .badOpcode := by
  cases check : s.ciborCheck (packetRequest source s.bur.order bs) bs with
  | some st => simp [State.ciborArrive_of_rejected check]
  | none => simp [State.ciborArrive_ne_badOpcode_of_checked check]

/-- Settles O10: the opcode's class is looked up in the table of R391, and one that is not found fits no class; from 0x8000 up
every class of the table fits. -/
theorem unlistedOpcodesRejected : Obligations.UnlistedOpcodesRejected := by
  refine ⟨fun s source bs good low unlisted => ?_, fun s source bs good high known bad => ?_⟩
  · have unfit : opcodeFits (leField bs 0 2) (bs.getD 2 0) = false :=
      opcodeFits_of_unlisted _ low (by simpa [baseOpcodes] using unlisted)
    exact State.ciborArrive_of_rejected ((State.ciborCheck_packet_eq_badOpcode_iff good s.bur.order).2 unfit)
  · have unfit : opcodeFits (leField bs 0 2) (bs.getD 2 0) = false :=
      (State.ciborCheck_packet_eq_badOpcode_iff good s.bur.order).1 ((s.ciborArrive_eq_badOpcode_iff source bs).1 bad)
    exact Bool.false_ne_true (unfit.symm.trans (opcodeFits_of_extension high known))

/-! ### Packets that meet the premises -/

/-- Bytes 0 to 59 of a header with no payload: tag 7, VER 1. -/
def opcodeHeader (op cls : Nat) : List Nat := leBytes 2 op ++ [cls, 0, 7, 0, 1, 0] ++ List.replicate 52 0

/-- The packet of that header with its CRC. -/
def opcodePacket (op cls : Nat) : List Nat := opcodeHeader op cls ++ leBytes 4 (crc32c (opcodeHeader op cls))

/-- 0x0A12 follows CAPO_DISARM and stands in no row of R391: at reset the Bench port's packet is rejected. -/
theorem ciborArrive_unlisted_at_reset : State.reset.ciborArrive 9 (opcodePacket 0x0A12 0) = (.badOpcode, State.reset) :=
  unlistedOpcodesRejected.1 _ _ _ (by decide +kernel) (by decide) (by decide)

/-- 0x8001 as a microcode load belongs to an extension module. -/
theorem ciborArrive_extension_at_reset : (State.reset.ciborArrive 9 (opcodePacket 0x8001 3)).1 ≠ .badOpcode :=
  unlistedOpcodesRejected.2 _ _ _ (by decide +kernel) (by decide) (by decide)

end Sys2Proof.Machine

/-! PROOF. Proofs/PegLayout.lean: where the words of a register map lie (R454, R455). A row answers at its copies' places and
nowhere else, so two rows of stride 8 that lie 4 bytes apart, behind all others of their block, share no word. -/
namespace Sys2Proof.Machine

/-- The copy of a row that lies at an offset of its block. -/
def RegRow.copyAt (r : RegRow) (off : Nat) : Option Nat :=
  if r.off ≤ off && (off - r.off) % max 1 r.stride = 0 && (off - r.off) / max 1 r.stride < r.n then
    some ((off - r.off) / max 1 r.stride)
  else none

/-- Copy `i` of a row lies `i` strides behind the row's offset, and no other offset is a copy's. -/
theorem RegRow.copyAt_eq_some_iff {r : RegRow} {off i : Nat} :
    r.copyAt off = some i ↔ off = r.off + max 1 r.stride * i ∧ i < r.n := by
  have pos : 0 < max 1 r.stride := by omega
  constructor
  · intro h
    obtain ⟨⟨⟨behind, aligned⟩, copy⟩, rfl⟩ : ((r.off ≤ off ∧ (off - r.off) % max 1 r.stride = 0) ∧
        (off - r.off) / max 1 r.stride < r.n) ∧ (off - r.off) / max 1 r.stride = i := by simpa [RegRow.copyAt] using h
    have whole := Nat.mul_div_cancel' (Nat.dvd_of_mod_eq_zero aligned)
    exact ⟨by omega, copy⟩
  · rintro ⟨rfl, copy⟩
    simp [RegRow.copyAt, Nat.mul_div_cancel_left _ pos, copy]

theorem RegRow.copyAt_eq_none_iff {r : RegRow} {off : Nat} :
    r.copyAt off = none ↔ ∀ i < r.n, off ≠ r.off + max 1 r.stride * i := by
  simp only [Option.eq_none_iff_forall_ne_some, ne_eq, RegRow.copyAt_eq_some_iff]
  exact ⟨fun h i copy place => h i ⟨place, copy⟩, fun h i e => h i e.2 e.1⟩

/-- No row answers behind its last copy. -/
theorem RegRow.copyAt_eq_none_of_end_le {r : RegRow} {off : Nat} (behind : r.off + max 1 r.stride * r.n ≤ off) :
    r.copyAt off = none := by
  refine RegRow.copyAt_eq_none_iff.2 fun i copy place => ?_
  have inside : max 1 r.stride * i < max 1 r.stride * r.n := Nat.mul_lt_mul_of_pos_left copy (by omega)
  omega

/-- The word at an offset holds one field of each row that has a copy there. -/
theorem fieldsAt_eq_filterMap_copyAt (b : Blk) (off : Nat) :
    fieldsAt b off = b.rows.filterMap fun r => (r.copyAt off).map fun i => (r, i) := by
  unfold fieldsAt
  congr 1
  funext r
  unfold RegRow.copyAt
  split <;> rfl

/-- The words of two rows at the end of a block, of stride 8 and 4 bytes apart: copy `n` of each stands alone in its own. -/
theorem fieldsAt_of_interleaved {b : Blk} {before : List RegRow} {t v : RegRow} {n : Nat} (rows : b.rows = before ++ [t, v])
    (below : ∀ r ∈ before, r.off + max 1 r.stride * r.n ≤ t.off) (apart : v.off = t.off + 4)
    (strideT : t.stride = 8) (strideV : v.stride = 8) (copyT : n < t.n) (copyV : n < v.n) :
    fieldsAt b (t.off + 8 * n) = [(t, n)] ∧ fieldsAt b (v.off + 8 * n) = [(v, n)] := by
  have rest (off : Nat) (behind : t.off ≤ off) : before.filterMap (fun r => (r.copyAt off).map fun i => (r, i)) = [] := by
    refine List.filterMap_eq_nil_iff.2 fun r mem => ?_
    simp [RegRow.copyAt_eq_none_of_end_le ((below r mem).trans behind)]
  have tAtT : t.copyAt (t.off + 8 * n) = some n := RegRow.copyAt_eq_some_iff.2 ⟨by simp [strideT], copyT⟩
  have vAtT : v.copyAt (t.off + 8 * n) = none := RegRow.copyAt_eq_none_iff.2 fun i _ => by simp [strideV]; omega
  have tAtV : t.copyAt (v.off + 8 * n) = none := RegRow.copyAt_eq_none_iff.2 fun i _ => by simp [strideT]; omega
  have vAtV : v.copyAt (v.off + 8 * n) = some n := RegRow.copyAt_eq_some_iff.2 ⟨by simp [strideV], copyV⟩
  constructor
  · simp [fieldsAt_eq_filterMap_copyAt, rows, rest, tAtT, vAtT]
  · simp [fieldsAt_eq_filterMap_copyAt, rows, rest _ (show t.off ≤ v.off + 8 * n by omega), tAtV, vAtV]

theorem peg_rows : Blk.peg.rows = [] ++ [Reg.PEGx_T_TARGET.row, Reg.PEGx_V_VALUE.row] := rfl

/-- The rows of CAL before the shared Pegs. -/
def calRowsBeforePegs : List RegRow := Blk.cal.rows.take 18

theorem cal_rows : Blk.cal.rows = calRowsBeforePegs ++ [Reg.CAL_PEG_T_TARGET.row, Reg.CAL_PEG_V_VALUE.row] := rfl

/-- The registers of R454 that precede the shared Pegs end below 0x8000. -/
theorem calRowsBeforePegs_below : ∀ r ∈ calRowsBeforePegs, r.off + max 1 r.stride * r.n ≤ Reg.CAL_PEG_T_TARGET.row.off := by
  decide

/-- Settles O11: in the Peg block and in CAL the targets and the values are the last two rows, interleaved by 4 bytes, so
`fieldsAt_of_interleaved` places both; their bits, access, class and reset are the same in both maps. -/
theorem pegBlockLayout : Obligations.PegBlockLayout := by
  intro n copy
  obtain ⟨targetOwn, valueOwn⟩ := fieldsAt_of_interleaved (t := Reg.PEGx_T_TARGET.row) (v := Reg.PEGx_V_VALUE.row)
    peg_rows (by simp) rfl rfl rfl copy copy
  obtain ⟨targetShared, valueShared⟩ := fieldsAt_of_interleaved (t := Reg.CAL_PEG_T_TARGET.row) (v := Reg.CAL_PEG_V_VALUE.row)
    cal_rows calRowsBeforePegs_below rfl rfl rfl copy copy
  have targetPlace : Reg.PEGx_T_TARGET.row.off + 8 * n = 8 * n := Nat.zero_add _
  have valuePlace : Reg.PEGx_V_VALUE.row.off + 8 * n = 8 * n + 4 := Nat.add_comm ..
  rw [targetPlace] at targetOwn
  rw [valuePlace] at valueOwn
  exact ⟨targetOwn, valueOwn, targetShared, valueShared, rfl, rfl⟩

end Sys2Proof.Machine

/-! PROOF. Proofs/Steps.lean: every command answers a next state and keeps what `Keeps` says of it (Laws/Frame.lean), the lemma of
the operation that it calls cited for each; the statements about a step follow. -/
namespace Sys2Proof.Machine

/-- Every register field. -/
def everyReg : Nat := 0x3fffffffffffffffffffffffffffffffffffffffffffffffffffffffffffffffffffffffffffffffffffffffffffffffffffffffffffffffffffffffffffffffffffffffffffffffffffffffffffffffffffffffffffffffffffffffffffffffffffffffffff

/-- Every part. -/
def everyPart : Nat := 0x1ffffff

/-! ### Commands that branch on what they find -/

theorem execCont_keeps {m p : Nat} {s : State} {x : Str} {q : SeqId}
    (read : ∀ {u}, Keeps m p s u → Keeps m p s (u.seqContRead x)) (write : ∀ {u}, Keeps m p s u → Keeps m p s (u.seqContWrite x)) :
    ∃ t, execCont x q s = .next t ∧ Keeps m p s t := by
  refine ⟨_, rfl, .onStr (.refl s) fun u h => ?_⟩
  cases q with
  | ssq => exact h
  | rsq => exact read h
  | wsq => exact write h

theorem execLaneResult_keeps {m q : Nat} {s : State} {lane signature : Nat} {out : LaneOut}
    (set : ∀ j, Keeps m q s (s.setLane lane j)) : ∃ t, execLaneResult lane out signature s = .next t ∧ Keeps m q s t := by
  refine ⟨_, rfl, ?_⟩
  split
  · exact set _
  · exact .refl s

theorem execLaneWatchdog_keeps {m q : Nat} {s : State} {lane : Nat} (strike : ∀ e, Keeps m q s (s.strikeOn lane 1 e none)) :
    ∃ t, execLaneWatchdog lane s = .next t ∧ Keeps m q s t := by
  refine ⟨_, rfl, ?_⟩
  split
  · exact strike _
  · exact .refl s

theorem execSelfTestDone_keeps {m q : Nat} {s : State} {lane : Nat} {passed : Bool}
    (back : Keeps m q s ((s.setLane lane .idle).unflagBit .HARP_WDRAWN_LANES lane).harpRefresh)
    (strike : Keeps m q s (s.strike lane 2)) (settle : ∀ {u}, Keeps m q s u → Keeps m q s u.settleRequests) :
    ∃ t, execSelfTestDone lane passed s = .next t ∧ Keeps m q s t := by
  refine ⟨_, rfl, ?_⟩
  split
  · exact settle (.ite (fun _ => back) fun _ => strike)
  · exact .refl s

/-! ### Every command -/

/-- Every command answers a next state, with the queue as it was, canonical memory kept and no fuse unblown. -/
theorem exec_keeps (c : Instr) (s : State) : ∃ t, exec c s = .next t ∧ Keeps everyReg everyPart s t := by
  cases c with
  | registerWrite _ _ _ _ _ =>
    exact ⟨_, rfl, State.settleRequests_after (State.writeAccess_after (.refl s) rfl rfl) rfl rfl⟩
  | preambleGate _ => exact ⟨_, rfl, .onStr (.refl s) fun _ h => State.preambleGate_after h rfl rfl⟩
  | samLatched _ _ => exact ⟨_, rfl, .onStr (.refl s) fun _ h => State.samLatched_after h rfl rfl⟩
  | missedSam _ => exact ⟨_, rfl, .onStr (.refl s) fun _ h => State.missedSam_after h rfl rfl⟩
  | wedgeBoundary _ _ => exact ⟨_, rfl, .onStr (.refl s) fun _ h => State.wedgeBoundary_after h rfl rfl⟩
  | demodLatch _ _ => exact ⟨_, rfl, .onStr (.refl s) fun _ h => State.demodLatch_after h rfl rfl⟩
  | lostWedgeRetract _ => exact ⟨_, rfl, .onStr (.refl s) fun _ h => State.lostWedgeRetract_after h rfl rfl⟩
  | controlLawOverrun _ => exact ⟨_, rfl, .onStr (.refl s) fun _ h => State.overrun_after h rfl rfl⟩
  | fallbackSwitch _ => exact ⟨_, rfl, .onStr (.refl s) fun _ h => State.fallback_after h rfl rfl⟩
  | actuatorOutput _ _ =>
    exact ⟨_, rfl, .onStr (.refl s) fun _ h => .when h fun _ h => State.actuatorOutput_after h rfl rfl⟩
  | couplingStale _ _ => exact ⟨_, rfl, .onStr (.refl s) fun _ h => State.couplingStale_after h rfl rfl⟩
  | settleTimeout _ => exact ⟨_, rfl, .onStr (.refl s) fun _ h => State.settleTimeout_after h rfl rfl⟩
  | skewAverageEnd _ => exact ⟨_, rfl, .onStr (.refl s) fun _ h => State.skewAverageEnd_after h rfl rfl⟩
  | remeas _ => exact ⟨_, rfl, State.remeasure_after (.refl s) rfl rfl⟩
  | capoCtrlArm => exact ⟨_, rfl, State.capoArm_after (.refl s) rfl rfl⟩
  | capoCtrlDisarm => exact ⟨_, rfl, State.capoDisarm_after (.refl s) rfl rfl⟩
  | capoReferenceEdge _ => exact ⟨_, rfl, State.capoInput_after (State.at_after (.refl s) rfl rfl) rfl rfl⟩
  | predictedFrameEdge _ => exact ⟨_, rfl, State.capoPredicted_after (.refl s) rfl rfl⟩
  | referenceLost => exact ⟨_, rfl, State.capoLost_after (.refl s) rfl rfl⟩
  | measureComplete => exact ⟨_, rfl, State.capoMeasureDone_after (.refl s) rfl rfl⟩
  | capoGeneratorStep _ _ => exact ⟨_, rfl, State.capoStep_after (.refl s) rfl rfl⟩
  | capoLock => exact ⟨_, rfl, State.capoLocked_after (.refl s) rfl rfl⟩
  | holdoverTimeout => exact ⟨_, rfl, State.capoHoldover_after (.refl s) rfl rfl⟩
  | speStart => exact ⟨_, rfl, State.speStartOp_after (.refl s) rfl rfl⟩
  | speStop => exact ⟨_, rfl, State.speStopOp_after (.refl s) rfl rfl⟩
  | gatesOffEnd => exact ⟨_, rfl, .when (.refl s) fun _ h => State.modSpe_after h rfl rfl⟩
  | measureFit _ => exact ⟨_, rfl, State.speFit_after (.refl s) rfl rfl⟩
  | residualHoldEnd => exact ⟨_, rfl, .when (.refl s) fun _ h => State.speMeasure_after h rfl rfl⟩
  | alignEnd => exact ⟨_, rfl, .when (.refl s) fun _ h => State.modSpe_after (State.setSpeState_after h rfl rfl) rfl rfl⟩
  | pwmPeriod _ => exact ⟨_, rfl, State.pwmPeriodOp_after (.refl s) rfl rfl⟩
  | skipLimit => exact ⟨_, rfl, .when (.refl s) fun _ h => Keeps.flag h rfl⟩
  | skipLimitLift => exact ⟨_, rfl, .when (.refl s) fun _ h => Keeps.unflag h rfl⟩
  | speedLoopUpdate => exact ⟨_, rfl, State.speedLoop_after (.refl s) rfl rfl⟩
  | speSetptWrite _ => exact ⟨_, rfl, State.speSetptOp_after (.refl s) rfl rfl⟩
  | vmOvervoltage => exact ⟨_, rfl, State.vmOver_after (.refl s) rfl rfl⟩
  | overcurrentTrip _ => exact ⟨_, rfl, State.ocTrip_after (.refl s) rfl rfl⟩
  | ocHoldEnd => exact ⟨_, rfl, State.modSpe_after (.refl s) rfl rfl⟩
  | observerLoss => exact ⟨_, rfl, .when (.refl s) fun _ h => State.obsLost_after h rfl rfl⟩
  | zeroCrossing _ _ _ => exact ⟨_, rfl, State.zeroCross_after (.refl s) rfl rfl⟩
  | reacqFloat => exact ⟨_, rfl, State.reacqFloated_after (.refl s) rfl rfl⟩
  | coastEntry => exact ⟨_, rfl, State.coast_after (.refl s) rfl rfl⟩
  | atSpeed => exact ⟨_, rfl, State.atSpeedOp_after (.refl s) rfl rfl⟩
  | rcbBlock => exact ⟨_, rfl, State.modSpe_after (.refl s) rfl rfl⟩
  | rcbConduct => exact ⟨_, rfl, .when (.refl s) fun _ h => State.modSpe_after h rfl rfl⟩
  | load _ => exact ⟨_, rfl, .onStr (.refl s) fun _ h => State.sceLoad_after h rfl rfl⟩
  | unload _ => exact ⟨_, rfl, .onStr (.refl s) fun _ h => State.requestRetract_after h rfl rfl⟩
  | retract _ => exact ⟨_, rfl, .onStr (.refl s) fun _ h => State.requestRetract_after h rfl rfl⟩
  | bankSw _ => exact ⟨_, rfl, .onStr (.refl s) fun _ h => State.bankSwitch_after h rfl rfl⟩
  | targetPost _ _ _ => exact ⟨_, rfl, .onStr (.refl s) fun _ h => State.postTarget_after h rfl rfl⟩
  | loadTimeout _ => exact ⟨_, rfl, .onStr (.refl s) fun _ h => State.loadTimeout_after h rfl rfl⟩
  | loopOpen _ => exact ⟨_, rfl, .onStr (.refl s) fun _ h => State.loopOpen_after h rfl rfl⟩
  | retractRampEnd _ => exact ⟨_, rfl, .onStr (.refl s) fun _ h => State.rampEnd_after h rfl rfl⟩
  | retractVelocityLoop _ _ _ _ _ =>
    exact ⟨_, rfl, .onStr (.refl s) fun _ h => State.retractLoop_after (State.at_after h rfl rfl) rfl rfl⟩
  | retractPark _ => exact ⟨_, rfl, .onStr (.refl s) fun _ h => State.retractParked_after h rfl rfl⟩
  | retractHoldEnd _ =>
    exact ⟨_, rfl, .onStr (.refl s) fun _ h => State.retractEnd_after (State.retractDone_after h rfl rfl) rfl rfl⟩
  | shockEvent _ _ => exact ⟨_, rfl, State.shock_after (.refl s) rfl rfl⟩
  | shockHoldEnd => exact ⟨_, rfl, State.shockHoldEnd_after (.refl s) rfl rfl⟩
  | acq _ => exact ⟨_, rfl, .onStr (.refl s) fun _ h => State.svdAcq_after h rfl rfl⟩
  | idle _ => exact ⟨_, rfl, .onStr (.refl s) fun _ h => State.svdIdle_after h rfl rfl⟩
  | svdFormatWrite _ _ _ => exact ⟨_, rfl, .onStr (.refl s) fun _ h => State.formatWrite_after h rfl rfl⟩
  | assistSlot _ _ _ => exact ⟨_, rfl, .onStr (.refl s) fun _ h => State.assistSlot_after h rfl rfl⟩
  | nutReply _ _ => exact ⟨_, rfl, .onStr (.refl s) fun _ h => State.nutReply_after h rfl rfl⟩
  | linkFailure _ => exact ⟨_, rfl, .onStr (.refl s) fun _ h => State.linkFailure_after h rfl rfl⟩
  | hotHeadClear _ _ => exact ⟨_, rfl, .onStr (.refl s) fun _ h => State.hotClear_after h rfl rfl⟩
  | backgroundFrameStart _ => exact ⟨_, rfl, .onStr (.refl s) fun _ h => State.backgroundFrame_after h rfl rfl⟩
  | bgGo _ => exact ⟨_, rfl, .onStr (.refl s) fun _ h => State.bgGo_after h rfl rfl⟩
  | wrArm _ _ => exact ⟨_, rfl, .onStr (.refl s) fun _ h => State.wrArm_after h rfl rfl⟩
  | abortClr _ => exact ⟨_, rfl, .onStr (.refl s) fun _ h => State.abortClr_after h rfl rfl⟩
  | warmUpComplete _ => exact ⟨_, rfl, .onStr (.refl s) fun _ h => State.warmUp_after h rfl rfl⟩
  | armLapse _ => exact ⟨_, rfl, .onStr (.refl s) fun _ h => State.armLapse_after h rfl rfl⟩
  | flyHeightUpdate _ => exact ⟨_, rfl, .onStr (.refl s) fun _ h => State.flyUpdate_after h rfl rfl⟩
  | readGateOpen _ => exact ⟨_, rfl, .onStr (.refl s) fun _ h => State.readGateOpen_after h rfl rfl⟩
  | pllLock _ =>
    exact ⟨_, rfl, .onStr (.refl s) fun _ h => State.readersFollow_after (State.refreshRate_after (Keeps.flag h rfl) rfl rfl) rfl rfl⟩
  | syncMarkLatch _ _ _ _ => exact ⟨_, rfl, .onStr (.refl s) fun _ h => State.syncLatch_after h rfl rfl⟩
  | syncWindowClose _ => exact ⟨_, rfl, .onStr (.refl s) fun _ h => State.syncClose_after h rfl rfl⟩
  | captureEnd _ _ _ _ _ _ => exact ⟨_, rfl, .onStr (.refl s) fun _ h => State.captureEnd_after h rfl rfl⟩
  | save _ => exact ⟨_, rfl, .onStr (.refl s) fun _ h => State.tapsPosted_after h rfl rfl⟩
  | restore _ => exact ⟨_, rfl, .onStr (.refl s) fun _ h => State.tapsPosted_after h rfl rfl⟩
  | channelSetWrite _ _ _ _ => exact ⟨_, rfl, .onStr (.refl s) fun _ h => State.channelSetWrite_after h rfl rfl⟩
  | capGo _ => exact ⟨_, rfl, .onStr (.refl s) fun _ h => .when h fun _ h => Keeps.flag h rfl⟩
  | calCaptureEnd _ => exact ⟨_, rfl, .onStr (.refl s) fun _ h => State.calCapture_after h rfl rfl⟩
  | routineDispatch _ _ =>
    exact ⟨_, rfl, .onStr (.refl s) fun _ h => .ite (fun _ => h) fun _ => State.seqDispatch_after h rfl rfl⟩
  | microwordIssue _ _ _ => exact ⟨_, rfl, .onStr (.refl s) fun _ h => State.microword_after h rfl rfl⟩
  | reqLoad _ _ _ => exact ⟨_, rfl, .onStr (.refl s) fun _ h => State.seqLoad_after (State.seqAt_after h rfl rfl) rfl rfl⟩
  | reqDone _ _ _ => exact ⟨_, rfl, .onStr (.refl s) fun _ h => State.visWrite_after h rfl rfl⟩
  | requeue _ _ => exact ⟨_, rfl, .onStr (.refl s) fun _ h => State.visWrite_after h rfl rfl⟩
  | post _ _ _ _ => exact ⟨_, rfl, .onStr (.refl s) fun _ h => .when h fun _ h => State.visWrite_after h rfl rfl⟩
  | nextsec _ _ _ =>
    exact ⟨_, rfl, .onStr (.refl s) fun _ h => State.seqNextsec_after (State.seqAt_after h rfl rfl) rfl rfl⟩
  | rewind _ _ _ => exact ⟨_, rfl, .onStr (.refl s) fun _ h => State.seqRewind_after (State.seqAt_after h rfl rfl) rfl rfl⟩
  | capture _ _ _ =>
    exact ⟨_, rfl, .onStr (.refl s) fun _ h => State.seqCapture_after (State.seqAt_after h rfl rfl) rfl rfl⟩
  | cont _ _ =>
    exact execCont_keeps (fun h => State.seqContRead_after h rfl rfl) fun h => State.seqContWrite_after h rfl rfl
  | close _ => exact ⟨_, rfl, .onStr (.refl s) fun _ h => State.seqClose_after h rfl rfl⟩
  | setsel _ _ => exact ⟨_, rfl, .onStr (.refl s) fun _ h => State.seqSetsel_after h rfl rfl⟩
  | start _ _ => exact ⟨_, rfl, .onStr (.refl s) fun _ h => State.seqStart_after (State.seqAt_after h rfl rfl) rfl rfl⟩
  | withdraw _ => exact ⟨_, rfl, .onStr (.refl s) fun _ h => State.seqWithdraw_after h rfl rfl⟩
  | uevt _ _ => exact ⟨_, rfl, .onStr (.refl s) fun _ h => State.seqUevt_after h rfl rfl⟩
  | commit _ _ => exact ⟨_, rfl, .onStr (.refl s) fun _ h => State.seqCommit_after h rfl rfl⟩
  | yieldWord _ _ _ => exact ⟨_, rfl, .onStr (.refl s) fun _ h => State.seqYield_after h rfl rfl⟩
  | endRoutine _ _ => exact ⟨_, rfl, .onStr (.refl s) fun _ h => State.seqEnd_after h rfl rfl⟩
  | resume _ _ => exact ⟨_, rfl, .onStr (.refl s) fun _ h => State.seqResume_after h rfl rfl⟩
  | drop _ _ => exact ⟨_, rfl, .onStr (.refl s) fun _ h => State.seqDrop_after h rfl rfl⟩
  | seqInterrupt _ _ => exact ⟨_, rfl, .onStr (.refl s) fun _ h => State.seqInterrupt_after h rfl rfl⟩
  | sqGo _ _ => exact ⟨_, rfl, .onStr (.refl s) fun _ h => State.seqGoOp_after h rfl rfl⟩
  | sqStop _ _ => exact ⟨_, rfl, .onStr (.refl s) fun _ h => State.seqStop_after h rfl rfl⟩
  | sqRst _ _ => exact ⟨_, rfl, .onStr (.refl s) fun _ h => State.seqRst_after h rfl rfl⟩
  | doorbell _ _ => exact ⟨_, rfl, .onStr (.refl s) fun _ h => State.seqIrq_after h rfl rfl⟩
  | microwordWrite _ _ _ _ _ => exact ⟨_, rfl, .onStr (.refl s) fun _ h => State.microwordWrite_after h rfl rfl⟩
  | bandCleanStart _ => exact ⟨_, rfl, State.bandCleanStart_after (.refl s) rfl rfl⟩
  | skipAgeTimeout _ => exact ⟨_, rfl, State.skipAge_after (.refl s) rfl rfl⟩
  | journalResume => exact ⟨_, rfl, State.journalResume_after (.refl s) rfl rfl⟩
  | chestWriteGrant _ => exact ⟨_, rfl, State.chestGrant_after (.refl s) rfl rfl⟩
  | wearGapMove _ => exact ⟨_, rfl, State.gapMove_after (.refl s) rfl rfl⟩
  | ladderRevolution _ _ => exact ⟨_, rfl, .onStr (.refl s) fun _ h => State.ladderRevolution_after h rfl rfl⟩
  | parityPass _ _ => exact ⟨_, rfl, .onStr (.refl s) fun _ h => State.parityPass_after h rfl rfl⟩
  | ladderResume _ => exact ⟨_, rfl, .onStr (.refl s) fun _ h => State.ladderResume_after h rfl rfl⟩
  | tlerExpiry _ => exact ⟨_, rfl, State.tlerExpiry_after (.refl s) rfl rfl⟩
  | codewordReady _ _ => exact ⟨_, rfl, .onStr (.refl s) fun _ h => State.codewordReady_after h rfl rfl⟩
  | detectorPassDone _ _ => exact ⟨_, rfl, .onStr (.refl s) fun _ h => State.passDone_after h rfl rfl⟩
  | harpDispatch => exact ⟨_, rfl, State.harpDispatch_after (.refl s) rfl rfl⟩
  | laneResult _ _ _ => exact execLaneResult_keeps fun _ => State.setLane_after (.refl s) rfl rfl
  | laneWatchdog _ => exact execLaneWatchdog_keeps fun _ => State.strikeOn_after (.refl s) rfl rfl
  | syndromeVerdict _ _ => exact ⟨_, rfl, State.verdict_after (.refl s) rfl rfl⟩
  | selfTestDone _ _ =>
    exact execSelfTestDone_keeps
      (State.harpRefresh_after (Keeps.unflagBit (State.setLane_after (.refl s) rfl rfl) rfl) rfl rfl)
      (State.strike_after (.refl s) rfl rfl) fun h => State.settleRequests_after h rfl rfl
  | harpRetire _ => exact ⟨_, rfl, State.harpRetire_after (.refl s) rfl rfl⟩
  | harpUnretire _ => exact ⟨_, rfl, State.harpUnretire_after (.refl s) rfl rfl⟩
  | writeGateOpen _ => exact ⟨_, rfl, .onStr (.refl s) fun _ h => State.writeGateOpen_after h rfl rfl⟩
  | sectorWritten _ => exact ⟨_, rfl, .onStr (.refl s) fun _ h => State.sectorWritten_after h rfl rfl⟩
  | encodeDone _ _ => exact ⟨_, rfl, .onStr (.refl s) fun _ h => State.encodeDone_after h rfl rfl⟩
  | writePathEnable _ _ => exact ⟨_, rfl, .onStr (.refl s) fun _ h => State.writePathEnable_after h rfl rfl⟩
  | accClr _ => exact ⟨_, rfl, .onStr (.refl s) fun _ h => State.accClear_after h rfl rfl⟩
  | squeezeVerify _ _ _ => exact ⟨_, rfl, .onStr (.refl s) fun _ h => State.squeezeVerify_after h rfl rfl⟩
  | writeBatchIssue _ _ => exact ⟨_, rfl, State.batchIssue_after (.refl s) rfl rfl⟩
  | accumulatorRebuild _ => exact ⟨_, rfl, State.rebuildAcc_after (.refl s) rfl rfl⟩
  | reallocate _ _ => exact ⟨_, rfl, .onStr (.refl s) fun _ h => State.reallocate_after h rfl rfl⟩
  | phoviJobStart _ => exact ⟨_, rfl, State.jobStart_after (.refl s) rfl rfl⟩
  | phoviJobDone _ _ _ _ => exact ⟨_, rfl, State.jobDone_after (.refl s) rfl rfl⟩
  | jobSuspend _ => exact ⟨_, rfl, State.jobSuspend_after (.refl s) rfl rfl⟩
  | packTimeout _ => exact ⟨_, rfl, State.forceTail_after (.refl s) rfl rfl⟩
  | spaceTimeout _ => exact ⟨_, rfl, State.spaceTimeout_after (.refl s) rfl rfl⟩
  | phoviRetire _ => exact ⟨_, rfl, State.phvRetireMask_after (.refl s) rfl rfl⟩
  | phoviUnretire _ => exact ⟨_, rfl, State.phvUnretireMask_after (.refl s) rfl rfl⟩
  | encryptRequest _ => exact ⟨_, rfl, .onStr (.refl s) fun _ h => State.encryptRequest_after h rfl rfl⟩
  | holdEntryGrant => exact ⟨_, rfl, State.holdGrant_after (.refl s) rfl rfl⟩
  | xtsRequest _ _ => exact ⟨_, rfl, State.xtsRequest_after (.refl s) rfl rfl⟩
  | cipherSectorDone _ _ => exact ⟨_, rfl, State.cipherDone_after (.refl s) rfl rfl⟩
  | generate _ => exact ⟨_, rfl, State.slotGo_after (.refl s) rfl rfl⟩
  | erase _ => exact ⟨_, rfl, State.slotGo_after (.refl s) rfl rfl⟩
  | rekey _ => exact ⟨_, rfl, State.slotGo_after (.refl s) rfl rfl⟩
  | katGo _ => exact ⟨_, rfl, State.katGo_after (.refl s) rfl rfl⟩
  | katPeriodic _ _ => exact ⟨_, rfl, .when (.refl s) fun _ h => State.retireCabCore_after h rfl rfl⟩
  | rngHealthFail => exact ⟨_, rfl, Keeps.flag (.refl s) rfl⟩
  | writeGrant _ => exact ⟨_, rfl, State.writeGrant_after (.refl s) rfl rfl⟩
  | writeTransferEnd _ _ => exact ⟨_, rfl, State.transferEnd_after (.refl s) rfl rfl⟩
  | hostTransferDone _ _ => exact ⟨_, rfl, State.hostTransfer_after (.refl s) rfl rfl⟩
  | readPageSpill _ _ => exact ⟨_, rfl, State.pageSpill_after (.refl s) rfl rfl⟩
  | chestEntryCommit _ => exact ⟨_, rfl, State.entryCommit_after (.refl s) rfl rfl⟩
  | logEntryCopy => exact ⟨_, rfl, State.logCopy_after (.refl s) rfl rfl⟩
  | bridgeGo => exact ⟨_, rfl, State.bridgeGo_after (.refl s) rfl rfl⟩
  | commandFetch _ _ _ _ _ => exact ⟨_, rfl, State.commandFetch_after (.refl s) rfl rfl⟩
  | nvmRead _ => exact ⟨_, rfl, State.nvmRead_after (.refl s) rfl rfl⟩
  | nvmWrite _ => exact ⟨_, rfl, State.nvmWrite_after (.refl s) rfl rfl⟩
  | zoneAppend _ => exact ⟨_, rfl, State.zoneAppend_after (.refl s) rfl rfl⟩
  | flush _ => exact ⟨_, rfl, State.nvmFlush_after (.refl s) rfl rfl⟩
  | compare _ => exact ⟨_, rfl, State.nvmCompare_after (.refl s) rfl rfl⟩
  | verify _ => exact ⟨_, rfl, State.nvmVerify_after (.refl s) rfl rfl⟩
  | writeZeroes _ => exact ⟨_, rfl, State.writeZeroes_after (.refl s) rfl rfl⟩
  | datasetManagement _ => exact ⟨_, rfl, State.datasetManagement_after (.refl s) rfl rfl⟩
  | zoneOpen _ => exact ⟨_, rfl, State.zoneSend_after (.refl s) rfl rfl⟩
  | zoneClose _ => exact ⟨_, rfl, State.zoneSend_after (.refl s) rfl rfl⟩
  | zoneFinish _ => exact ⟨_, rfl, State.zoneSend_after (.refl s) rfl rfl⟩
  | zoneReset _ => exact ⟨_, rfl, State.zoneSend_after (.refl s) rfl rfl⟩
  | zoneOffline _ => exact ⟨_, rfl, State.zoneSend_after (.refl s) rfl rfl⟩
  | reportZones _ => exact ⟨_, rfl, State.reportZones_after (.refl s) rfl rfl⟩
  | completionCommit _ => exact ⟨_, rfl, State.completionCommit_after (.refl s) rfl rfl⟩
  | reservationRegister _ => exact ⟨_, rfl, State.resvRegister_after (.refl s) rfl rfl⟩
  | reservationAcquire _ => exact ⟨_, rfl, State.resvAcquire_after (.refl s) rfl rfl⟩
  | reservationRelease _ => exact ⟨_, rfl, State.resvRelease_after (.refl s) rfl rfl⟩
  | reservationReport _ => exact ⟨_, rfl, State.resvReport_after (.refl s) rfl rfl⟩
  | createIoSq _ => exact ⟨_, rfl, State.createSq_after (.refl s) rfl rfl⟩
  | createIoCq _ => exact ⟨_, rfl, State.createCq_after (.refl s) rfl rfl⟩
  | deleteIoSq _ => exact ⟨_, rfl, State.deleteSq_after (.refl s) rfl rfl⟩
  | deleteIoCq _ => exact ⟨_, rfl, State.deleteCq_after (.refl s) rfl rfl⟩
  | nvmeIdentify _ => exact ⟨_, rfl, State.nvmeIdentify_after (.refl s) rfl rfl⟩
  | getLogPage _ => exact ⟨_, rfl, State.getLogPage_after (.refl s) rfl rfl⟩
  | abort _ => exact ⟨_, rfl, State.nvmeAbort_after (.refl s) rfl rfl⟩
  | setFeatures _ => exact ⟨_, rfl, State.setFeatures_after (.refl s) rfl rfl⟩
  | getFeatures _ => exact ⟨_, rfl, State.getFeatures_after (.refl s) rfl rfl⟩
  | streamQueueArm _ => exact ⟨_, rfl, State.streamQueueArm_after (.refl s) rfl rfl⟩
  | streamQueueDisarm _ => exact ⟨_, rfl, State.streamQueueDisarm_after (.refl s) rfl rfl⟩
  | streamQueueGet _ => exact ⟨_, rfl, State.streamQueueGet_after (.refl s) rfl rfl⟩
  | streamCapacityGet _ => exact ⟨_, rfl, State.streamCapacity_after (.refl s) rfl rfl⟩
  | telemetryPeriodSet _ => exact ⟨_, rfl, State.setTelemetry_after (.refl s) rfl rfl⟩
  | asynchronousEventRequest _ => exact ⟨_, rfl, State.asyncRequest_after (.refl s) rfl rfl⟩
  | deviceSelfTest _ _ => exact ⟨_, rfl, State.selfTest_after (.refl s) rfl rfl⟩
  | securitySend _ => exact ⟨_, rfl, State.securitySend_after (.refl s) rfl rfl⟩
  | securityReceive _ => exact ⟨_, rfl, State.securityReceive_after (.refl s) rfl rfl⟩
  | namespaceCreate _ => exact ⟨_, rfl, State.nsCreate_after (.refl s) rfl rfl⟩
  | namespaceDelete _ => exact ⟨_, rfl, State.nsDelete_after (.refl s) rfl rfl⟩
  | namespaceAttach _ => exact ⟨_, rfl, State.nsAttach_after (.refl s) rfl rfl⟩
  | namespaceDetach _ => exact ⟨_, rfl, State.nsDetach_after (.refl s) rfl rfl⟩
  | formatNvm _ => exact ⟨_, rfl, State.formatNvm_after (.refl s) rfl rfl⟩
  | sanitizeCryptoErase _ => exact ⟨_, rfl, State.sanitize_after (.refl s) rfl rfl⟩
  | slotOpComplete => exact ⟨_, rfl, State.slotOpComplete_after (.refl s) rfl rfl⟩
  | perstAssert _ => exact ⟨_, rfl, State.perstAssert_after (.refl s) rfl rfl⟩
  | perstDeassert _ _ =>
    exact ⟨_, rfl, .when (State.perstDeassert_after (.refl s) rfl rfl) fun _ h => State.wake_after h rfl rfl⟩
  | linkTrained _ _ _ => exact ⟨_, rfl, State.linkTrained_after (.refl s) rfl rfl⟩
  | dlDown _ => exact ⟨_, rfl, State.dlDown_after (.refl s) rfl rfl⟩
  | ccEnClear _ => exact ⟨_, rfl, State.ccDisable_after (.refl s) rfl rfl⟩
  | ccEnSet _ _ => exact ⟨_, rfl, State.ccEnable_after (.refl s) rfl rfl⟩
  | controllerReady _ => exact ⟨_, rfl, State.controllerReady_after (.refl s) rfl rfl⟩
  | functionLevelReset _ => exact ⟨_, rfl, State.functionReset_after (.refl s) rfl rfl⟩
  | forceRst _ => exact ⟨_, rfl, State.functionReset_after (.refl s) rfl rfl⟩
  | nvmeMiReadDataStructure _ _ _ =>
    exact ⟨_, rfl, State.smbus_after (.refl s) rfl rfl fun _ h => State.miDataStructure_after h rfl rfl⟩
  | nvmSubsystemHealthPoll _ =>
    exact ⟨_, rfl, State.smbus_after (.refl s) rfl rfl fun _ h => State.miSubsystemHealth_after h rfl rfl⟩
  | controllerHealthPoll _ _ =>
    exact ⟨_, rfl, State.smbus_after (.refl s) rfl rfl fun _ h => State.miControllerHealth_after h rfl rfl⟩
  | configurationSet _ _ _ =>
    exact ⟨_, rfl, State.smbus_after (.refl s) rfl rfl fun _ h => State.miConfigSet_after h rfl rfl⟩
  | configurationGet _ _ => exact ⟨_, rfl, State.smbus_after (.refl s) rfl rfl fun _ h => State.miConfigGet_after h rfl rfl⟩
  | vpdRead _ _ _ => exact ⟨_, rfl, State.smbus_after (.refl s) rfl rfl fun _ h => State.vpdRead_after h rfl rfl⟩
  | vpdWrite _ _ _ => exact ⟨_, rfl, State.smbus_after (.refl s) rfl rfl fun _ h => State.vpdWrite_after h rfl rfl⟩
  | basicManagementCommand _ =>
    exact ⟨_, rfl, State.smbus_after (.refl s) rfl rfl fun _ h => State.basicManagement_after h rfl rfl⟩
  | l2MaintGo _ => exact ⟨_, rfl, State.maintGo_after (.refl s) rfl rfl⟩
  | l2MaintDone _ => exact ⟨_, rfl, State.maintDone_after (.refl s) rfl rfl⟩
  | l2Disable _ => exact ⟨_, rfl, State.l2Disable_after (.refl s) rfl rfl⟩
  | disableWalkEnd _ _ _ => exact ⟨_, rfl, State.walkEnd_after (.refl s) rfl rfl⟩
  | ratInvalidate _ _ => exact ⟨_, rfl, State.ratInvalidate_after (.refl s) rfl rfl⟩
  | bucketLeak _ _ => exact ⟨_, rfl, State.bucketLeak_after (.refl s) rfl rfl⟩
  | scrubStep _ _ _ _ => exact ⟨_, rfl, State.scrubStep_after (.refl s) rfl rfl⟩
  | rawrd => exact ⟨_, rfl, State.rawRead_after (.refl s) rfl rfl⟩
  | rawwr => exact ⟨_, rfl, State.rawWrite_after (.refl s) rfl rfl⟩
  | fill _ => exact ⟨_, rfl, State.fill_after (.refl s) rfl rfl⟩
  | fillComplete _ => exact ⟨_, rfl, State.fillComplete_after (.refl s) rfl rfl⟩
  | powerLossEvent _ _ _ _ => exact ⟨_, rfl, State.powerLoss_after (.refl s) rfl rfl⟩
  | retractStagger _ _ => exact ⟨_, rfl, .onStr (.refl s) fun _ h => State.retractStagger_after h rfl rfl⟩
  | vmRetminRecover _ => exact ⟨_, rfl, State.vmRecover_after (.refl s) rfl rfl⟩
  | supplyGood _ => exact ⟨_, rfl, State.supplyGood_after (.refl s) rfl rfl⟩
  | vmCharged => exact ⟨_, rfl, State.vmCharged_after (.refl s) rfl rfl⟩
  | thermalWake _ _ => exact ⟨_, rfl, .when (.refl s) fun _ h => State.wake_after h rfl rfl⟩
  | capoActivity _ => exact ⟨_, rfl, State.wake_after (Keeps.flag (.refl s) rfl) rfl rfl⟩
  | rtcAlarm _ => exact ⟨_, rfl, .when (.refl s) fun _ h => State.wake_after (Keeps.wr h rfl) rfl rfl⟩
  | dormantTimeout => exact ⟨_, rfl, State.dormantTimeout_after (.refl s) rfl rfl⟩
  | idleTimeout => exact ⟨_, rfl, State.idleTimeout_after (.refl s) rfl rfl⟩
  | bureauRegate => exact ⟨_, rfl, State.regate_after (.refl s) rfl rfl⟩
  | strlostClr _ => exact ⟨_, rfl, State.strlostClr_after (.refl s) rfl rfl⟩
  | domainRequest => exact ⟨_, rfl, State.domainWrite_after (.refl s) rfl rfl⟩
  | railUndervoltage _ _ _ _ _ _ => exact ⟨_, rfl, State.railUnder_after (.refl s) rfl rfl⟩
  | railTimeout => exact ⟨_, rfl, State.railTimeout_after (.refl s) rfl rfl⟩
  | mainpwrRetry _ => exact ⟨_, rfl, State.railRetry_after (.refl s) rfl rfl⟩
  | powerDomainFault _ => exact ⟨_, rfl, State.domainFault_after (.refl s) rfl rfl⟩
  | pegTick _ => exact ⟨_, rfl, .when (.refl s) fun _ h => State.pegTick_after h rfl rfl⟩
  | thermalSample _ _ => exact ⟨_, rfl, State.thermalSample_after (.refl s) rfl rfl⟩
  | throttleTick => exact ⟨_, rfl, State.throttleTick_after (.refl s) rfl rfl⟩
  | calScheduleDue _ _ => exact ⟨_, rfl, .onStr (.refl s) fun _ h => State.calScheduleDue_after h rfl rfl⟩
  | scriptResume _ => exact ⟨_, rfl, State.scriptResume_after (.refl s) rfl rfl⟩
  | tdStep _ _ _ => exact ⟨_, rfl, .onStr (.refl s) fun _ h => State.tdStep_after h rfl rfl⟩
  | calAbort => exact ⟨_, rfl, State.calAbort_after (.refl s) rfl rfl⟩
  | calScriptStep _ _ => exact ⟨_, rfl, State.calScriptStep_after (.refl s) rfl rfl⟩
  | coreWatchdog _ => exact ⟨_, rfl, State.coreWatchdog_after (.refl s) rfl rfl⟩
  | machineCheck _ => exact ⟨_, rfl, State.coreRetire_after (.refl s) rfl rfl⟩
  | coreSelfTest _ _ => exact ⟨_, rfl, State.coreSelfTest_after (.refl s) rfl rfl⟩
  | burRetire _ _ => exact ⟨_, rfl, State.coreRetireMask_after (.refl s) rfl rfl⟩
  | burUnretire _ _ => exact ⟨_, rfl, State.coreUnretireMask_after (.refl s) rfl rfl⟩
  | ciborRequest _ _ =>
    exact ⟨_, rfl, .ite (fun _ => State.benchPacket_after (.refl s) rfl rfl)
      fun _ => .ite (fun _ => State.ciborArrive_after (.refl s) rfl rfl) fun _ => .refl s⟩
  | ciborSend _ => exact ⟨_, rfl, State.ciborSend_after (.refl s) rfl rfl⟩
  | ciborReceive _ => exact ⟨_, rfl, State.ciborReceive_after (.refl s) rfl rfl⟩
  | replyExpiry _ _ => exact ⟨_, rfl, State.replyExpire_after (.refl s) rfl rfl⟩
  | replyWaitExpiry _ => exact ⟨_, rfl, State.replyWait_after (.refl s) rfl rfl⟩
  | miTunnelledAdmin _ _ _ _ =>
    exact ⟨_, rfl, State.smbus_after (.refl s) rfl rfl fun _ h => State.miTunnel_after h rfl rfl⟩
  | identify _ _ => exact ⟨_, rfl, State.cibor_after (.refl s) rfl rfl fun _ _ h => State.mgmtIdentify_after h rfl rfl⟩
  | regRead _ _ => exact ⟨_, rfl, State.cibor_after (.refl s) rfl rfl fun _ _ h => State.mgmtRead_after h rfl rfl⟩
  | regWrite _ _ _ => exact ⟨_, rfl, State.cibor_after (.refl s) rfl rfl fun _ _ h => State.mgmtWrite_after h rfl rfl⟩
  | tableWrite _ _ => exact ⟨_, rfl, State.cibor_after (.refl s) rfl rfl fun _ _ h => State.mgmtTable_after h rfl rfl⟩
  | modeSet _ _ => exact ⟨_, rfl, State.cibor_after (.refl s) rfl rfl fun _ _ h => State.mgmtMode_after h rfl rfl⟩
  | cfgCommit _ _ => exact ⟨_, rfl, State.cibor_after (.refl s) rfl rfl fun _ _ h => State.mgmtCommit_after h rfl rfl⟩
  | cfgReadback _ _ => exact ⟨_, rfl, State.cibor_after (.refl s) rfl rfl fun _ _ h => State.mgmtReadback_after h rfl rfl⟩
  | allowSet _ _ => exact ⟨_, rfl, State.cibor_after (.refl s) rfl rfl fun _ _ h => State.mgmtAllow_after h rfl rfl⟩
  | spinStart _ _ => exact ⟨_, rfl, State.cibor_after (.refl s) rfl rfl fun _ _ h => State.mgmtSpinStart_after h rfl rfl⟩
  | spinStop _ _ => exact ⟨_, rfl, State.cibor_after (.refl s) rfl rfl fun _ _ h => State.mgmtSpinStop_after h rfl rfl⟩
  | capoArm _ _ => exact ⟨_, rfl, State.cibor_after (.refl s) rfl rfl fun _ _ h => State.mgmtCapoArm_after h rfl rfl⟩
  | capoDisarm _ _ =>
    exact ⟨_, rfl, State.cibor_after (.refl s) rfl rfl fun _ _ h => State.reply_after (State.capoDisarm_after h rfl rfl) rfl rfl⟩
  | headsLoad _ _ => exact ⟨_, rfl, State.cibor_after (.refl s) rfl rfl fun _ _ h => State.mgmtLoad_after h rfl rfl⟩
  | headsUnload _ _ => exact ⟨_, rfl, State.cibor_after (.refl s) rfl rfl fun _ _ h => State.mgmtUnload_after h rfl rfl⟩
  | bankSwitch _ _ => exact ⟨_, rfl, State.cibor_after (.refl s) rfl rfl fun _ _ h => State.mgmtBank_after h rfl rfl⟩
  | mediaFormat _ _ => exact ⟨_, rfl, State.cibor_after (.refl s) rfl rfl fun _ _ h => State.mgmtFormat_after h rfl rfl⟩
  | telemSnapshot _ _ =>
    exact ⟨_, rfl, State.cibor_after (.refl s) rfl rfl fun _ _ h => State.mgmtTelemetry_after h rfl rfl⟩
  | eventRead _ _ => exact ⟨_, rfl, State.cibor_after (.refl s) rfl rfl fun _ _ h => State.mgmtEvents_after h rfl rfl⟩
  | calRun _ _ => exact ⟨_, rfl, State.cibor_after (.refl s) rfl rfl fun _ _ h => State.calRequest_after h rfl rfl⟩
  | tdSearch _ _ => exact ⟨_, rfl, State.cibor_after (.refl s) rfl rfl fun _ _ h => State.calRequest_after h rfl rfl⟩
  | laneRetire _ _ => exact ⟨_, rfl, State.cibor_after (.refl s) rfl rfl fun _ _ h => State.mgmtLaneRetire_after h rfl rfl⟩
  | laneUnretire _ _ =>
    exact ⟨_, rfl, State.cibor_after (.refl s) rfl rfl fun _ _ h => State.mgmtLaneUnretire_after h rfl rfl⟩
  | coreRetire _ _ => exact ⟨_, rfl, State.cibor_after (.refl s) rfl rfl fun _ _ h => State.mgmtCoreRetire_after h rfl rfl⟩
  | coreUnretire _ _ =>
    exact ⟨_, rfl, State.cibor_after (.refl s) rfl rfl fun _ _ h => State.mgmtCoreUnretire_after h rfl rfl⟩
  | telemetryPeriod _ => exact ⟨_, rfl, State.telemetryPeriod_after (.refl s) rfl rfl⟩
  | configurationStored => exact ⟨_, rfl, State.configStored_after (.refl s) rfl rfl⟩
  | mcLoad _ _ _ _ => exact ⟨_, rfl, State.mcLoad_after (.refl s) rfl rfl⟩
  | extLoad _ _ _ _ _ _ =>
    exact ⟨_, rfl, State.cibor_after (.refl s) rfl rfl fun _ _ h => State.mgmtExtLoad_after h rfl rfl⟩
  | extUnload _ _ => exact ⟨_, rfl, State.cibor_after (.refl s) rfl rfl fun _ _ h => State.mgmtExtUnload_after h rfl rfl⟩
  | extensionOpcode _ _ _ _ => exact ⟨_, rfl, State.mgmtExtension_after (.refl s) rfl rfl⟩
  | hookTimeout _ _ _ => exact ⟨_, rfl, State.hookTimeout_after (.refl s) rfl rfl⟩
  | firmwareImageDownload _ => exact ⟨_, rfl, State.firmwareDownload_after (.refl s) rfl rfl⟩
  | firmwareCommit _ _ _ => exact ⟨_, rfl, State.firmwareCommit_after (.refl s) rfl rfl⟩
  | lcChallenge _ _ => exact ⟨_, rfl, State.cibor_after (.refl s) rfl rfl fun _ _ h => State.lcChallenge_after h rfl rfl⟩
  | lcToken _ _ _ _ _ => exact ⟨_, rfl, State.cibor_after (.refl s) rfl rfl fun _ _ h => State.lcToken_after h rfl rfl⟩
  | lcState _ _ => exact ⟨_, rfl, State.cibor_after (.refl s) rfl rfl fun _ _ h => State.mgmtLcState_after h rfl rfl⟩
  | challengeExpiry => exact ⟨_, rfl, State.endChallenge_after (.refl s) rfl rfl⟩
  | bypass => exact ⟨_, rfl, State.tapLoad_after (.refl s) rfl rfl⟩
  | idcode => exact ⟨_, rfl, State.emit_after (State.tapLoad_after (.refl s) rfl rfl) rfl rfl⟩
  | samplePreload => exact ⟨_, rfl, State.tapSample_after (.refl s) rfl rfl⟩
  | extest => exact ⟨_, rfl, State.tapScan_after (.refl s) rfl rfl⟩
  | clamp => exact ⟨_, rfl, State.tapScan_after (.refl s) rfl rfl⟩
  | highz => exact ⟨_, rfl, State.tapScan_after (.refl s) rfl rfl⟩
  | dbg => exact ⟨_, rfl, State.tapDbg_after (.refl s) rfl rfl⟩
  | dbgFrame _ => exact ⟨_, rfl, State.dbgFrame_after (.refl s) rfl rfl⟩
  | benchChallenge => exact ⟨_, rfl, State.benchChallenge_after (.refl s) rfl rfl⟩
  | benchOpen _ _ _ _ _ => exact ⟨_, rfl, State.benchOpenFrame_after (.refl s) rfl rfl⟩
  | sessionClose => exact ⟨_, rfl, State.endSession_after (.refl s) rfl rfl⟩
  | trst => exact ⟨_, rfl, State.tapLoad_after (State.endSession_after (.refl s) rfl rfl) rfl rfl⟩
  | sessionIdleTimeout => exact ⟨_, rfl, State.endSession_after (.refl s) rfl rfl⟩
  | halt _ => exact ⟨_, rfl, State.debug_after (.refl s) rfl rfl fun _ h => State.haltOp_after h rfl rfl⟩
  | benchResume _ => exact ⟨_, rfl, State.debug_after (.refl s) rfl rfl fun _ h => State.resumeOp_after h rfl rfl⟩
  | step _ _ => exact ⟨_, rfl, State.debug_after (.refl s) rfl rfl fun _ h => State.stepOp_after h rfl rfl⟩
  | breakpointSet _ _ _ _ => exact ⟨_, rfl, State.debug_after (.refl s) rfl rfl fun _ h => State.breakOp_after h rfl rfl⟩
  | breakpointHit _ _ _ => exact ⟨_, rfl, State.breakHit_after (.refl s) rfl rfl⟩
  | memRd _ _ => exact ⟨_, rfl, State.debug_after (.refl s) rfl rfl fun _ h => State.memRead_after h rfl rfl⟩
  | memWr _ _ _ => exact ⟨_, rfl, State.debug_after (.refl s) rfl rfl fun _ h => State.memWrite_after h rfl rfl⟩
  | stateRd _ => exact ⟨_, rfl, State.debug_after (.refl s) rfl rfl fun _ h => State.stateRead_after h rfl rfl⟩
  | traceRd => exact ⟨_, rfl, State.debug_after (.refl s) rfl rfl fun _ h => State.traceRead_after h rfl rfl⟩
  | snap _ => exact ⟨_, rfl, State.debug_after (.refl s) rfl rfl fun _ h => State.snapOp_after h rfl rfl⟩
  | snapCapture => exact ⟨_, rfl, State.snapCapture_after (.refl s) rfl rfl⟩
  | sstep => exact ⟨_, rfl, State.debug_after (.refl s) rfl rfl fun _ h => State.sstep_after h rfl rfl⟩
  | srun => exact ⟨_, rfl, State.debug_after (.refl s) rfl rfl fun _ h => State.srun_after h rfl rfl⟩

/-- A step is `exec` of the front command, so it keeps the canonical memory and the blown fuses. -/
theorem step_keeps {s t : State} (h : step s = .next t) :
    (Memory.wf s.mem → Memory.wf t.mem) ∧ FusesKept s t ∧ t.pending = s.pending.tail := by
  unfold step at h
  cases pending : s.pending with
  | nil =>
    simp only [pending] at h
    cases h
    exact ⟨id, .refl s, by simp [pending]⟩
  | cons c rest =>
    simp only [pending] at h
    obtain ⟨u, run, k⟩ := exec_keeps c { s with pending := rest }
    rw [run] at h
    cases h
    exact ⟨k.memory, k.fuses, k.queue⟩

/-- Settles O1: `step` takes the queue's front. -/
theorem stepRunsTheFrontCommand : Obligations.StepRunsTheFrontCommand := step_cons

/-- Settles O2: `step` of an empty queue. -/
theorem idleOnEmptyQueue : Obligations.IdleOnEmptyQueue := step_nil

/-- Settles O3, by `exec_keeps`: each command has a next state, and none touches the queue. -/
theorem everyCommandRuns : Obligations.EveryCommandRuns := by
  refine ⟨fun c s => ?_, fun s t c rest front h => ?_⟩
  · obtain ⟨t, run, -⟩ := exec_keeps c s
    exact ⟨t, run⟩
  · obtain ⟨-, -, queue⟩ := step_keeps h
    simpa [front] using queue

/-- Settles O4: every write of memory goes through `memPut` or drops bytes, which keep the form (Laws/Memory.lean). -/
theorem memoryStaysCanonical : Obligations.MemoryStaysCanonical :=
  fun _ _ canonical h => (step_keeps h).1 canonical

/-- Settles O5. -/
theorem resetMemoryCanonical : Obligations.ResetMemoryCanonical := rfl

/-- Settles O6: the stage fuses are only ever ORed to, SCRAP only ever set. -/
theorem fusesStayBlown : Obligations.FusesStayBlown := fun _ _ h => (step_keeps h).2.1

/-- A write leaves every other entry of every field. -/
theorem State.wr_onlyEntries (s : State) (r : Reg) (v i : Nat) : OnlyEntries [(r, i % 2 ^ 20)] s (s.wr r v i) := by
  intro r' j other
  by_cases field : r' = r
  · subst field
    exact s.rd_wr_entry r' v i j fun entry => other (List.mem_singleton.2 (Prod.ext rfl entry))
  · exact s.rd_wr_ne r r' v i j field

/-- Settles O7. -/
theorem registerReadsBack : Obligations.RegisterReadsBack :=
  fun s r v i => ⟨s.rd_wr_self r v i, s.wr_onlyEntries r v i, fun p => by cases p <;> rfl⟩

end Sys2Proof.Machine

/-! PROOF. Proofs/Frames.lean: the footprint of a command names the masks that `Keeps` has for the operation the command calls. -/
namespace Sys2Proof.Machine

/-- A command that keeps what lies outside its footprint's masks changes the footprint alone. -/
theorem ChangesOnly.of_keeps {c : Instr} {w : Footprint} (k : ∀ s, ∃ t, exec c s = .next t ∧ Keeps w.mask w.partMask s t) :
    ChangesOnly c w := by
  intro s t h
  obtain ⟨u, run, k⟩ := k s
  rw [run] at h
  cases h
  exact k.within (Nat.or_self _) (Nat.or_self _)

/-- Settles O43. -/
theorem spindleFrames : Obligations.SpindleFrames := by
  refine ⟨?_, ?_, ?_, ?_, ?_, ?_, ?_, ?_, ?_, ?_, ?_, ?_, ?_, ?_, ?_, ?_, ?_, ?_, ?_, ?_, ?_, ?_, ?_, ?_, ?_, ?_, ?_, ?_, ?_, ?_⟩
  · exact .of_keeps fun s => ⟨_, rfl, State.capoArm_after (.refl s) (by decide) (by decide)⟩
  · exact .of_keeps fun s => ⟨_, rfl, State.capoDisarm_after (.refl s) (by decide) (by decide)⟩
  · exact fun _ => .of_keeps fun s => ⟨_, rfl, State.capoInput_after (State.at_after (.refl s) (by decide)
      (by decide)) (by decide) (by decide)⟩
  · exact fun _ => .of_keeps fun s => ⟨_, rfl, State.capoPredicted_after (.refl s) (by decide) (by decide)⟩
  · exact .of_keeps fun s => ⟨_, rfl, State.capoLost_after (.refl s) (by decide) (by decide)⟩
  · exact .of_keeps fun s => ⟨_, rfl, State.capoMeasureDone_after (.refl s) (by decide) (by decide)⟩
  · exact fun _ _ => .of_keeps fun s => ⟨_, rfl, State.capoStep_after (.refl s) (by decide) (by decide)⟩
  · exact .of_keeps fun s => ⟨_, rfl, State.capoLocked_after (.refl s) (by decide) (by decide)⟩
  · exact .of_keeps fun s => ⟨_, rfl, State.capoHoldover_after (.refl s) (by decide) (by decide)⟩
  · exact .of_keeps fun s => ⟨_, rfl, State.speStartOp_after (.refl s) (by decide) (by decide)⟩
  · exact .of_keeps fun s => ⟨_, rfl, State.speStopOp_after (.refl s) (by decide) (by decide)⟩
  · exact .of_keeps fun s => ⟨_, rfl, .when (.refl s) fun _ h => State.modSpe_after h (by decide) (by decide)⟩
  · exact fun _ => .of_keeps fun s => ⟨_, rfl, State.speFit_after (.refl s) (by decide) (by decide)⟩
  · exact .of_keeps fun s => ⟨_, rfl, .when (.refl s) fun _ h => State.speMeasure_after h (by decide) (by decide)⟩
  · exact .of_keeps fun s => ⟨_, rfl, .when (.refl s) fun _ h =>
      State.modSpe_after (State.setSpeState_after h (by decide) (by decide)) (by decide) (by decide)⟩
  · exact fun _ => .of_keeps fun s => ⟨_, rfl, State.pwmPeriodOp_after (.refl s) (by decide) (by decide)⟩
  · exact .of_keeps fun s => ⟨_, rfl, .when (.refl s) fun _ h => Keeps.flag h (by decide)⟩
  · exact .of_keeps fun s => ⟨_, rfl, .when (.refl s) fun _ h => Keeps.unflag h (by decide)⟩
  · exact .of_keeps fun s => ⟨_, rfl, State.speedLoop_after (.refl s) (by decide) (by decide)⟩
  · exact fun _ => .of_keeps fun s => ⟨_, rfl, State.speSetptOp_after (.refl s) (by decide) (by decide)⟩
  · exact .of_keeps fun s => ⟨_, rfl, State.vmOver_after (.refl s) (by decide) (by decide)⟩
  · exact fun _ => .of_keeps fun s => ⟨_, rfl, State.ocTrip_after (.refl s) (by decide) (by decide)⟩
  · exact .of_keeps fun s => ⟨_, rfl, State.modSpe_after (.refl s) (by decide) (by decide)⟩
  · exact .of_keeps fun s => ⟨_, rfl, .when (.refl s) fun _ h => State.obsLost_after h (by decide) (by decide)⟩
  · exact fun _ _ _ => .of_keeps fun s => ⟨_, rfl, State.zeroCross_after (.refl s) (by decide) (by decide)⟩
  · exact .of_keeps fun s => ⟨_, rfl, State.reacqFloated_after (.refl s) (by decide) (by decide)⟩
  · exact .of_keeps fun s => ⟨_, rfl, State.coast_after (.refl s) (by decide) (by decide)⟩
  · exact .of_keeps fun s => ⟨_, rfl, State.atSpeedOp_after (.refl s) (by decide) (by decide)⟩
  · exact .of_keeps fun s => ⟨_, rfl, State.modSpe_after (.refl s) (by decide) (by decide)⟩
  · exact .of_keeps fun s => ⟨_, rfl, .when (.refl s) fun _ h => State.modSpe_after h (by decide) (by decide)⟩

/-- Settles O46. -/
theorem sequencerFrames : Obligations.SequencerFrames := by
  refine ⟨?_, ?_, ?_, ?_, ?_, ?_, ?_, ?_, ?_, ?_, ?_, ?_, ?_, ?_, ?_, ?_, ?_, ?_, ?_, ?_, ?_, ?_, ?_, ?_, ?_, ?_⟩
  · exact fun _ _ => .of_keeps fun s => ⟨_, rfl, .onStr (.refl s) fun _ h =>
      .ite (fun _ => h) fun _ => State.seqDispatch_after h (by decide) (by decide)⟩
  · exact fun _ _ _ => .of_keeps fun s => ⟨_, rfl, .onStr (.refl s) fun _ h => State.microword_after h (by decide) (by decide)⟩
  · exact fun _ _ _ => .of_keeps fun s => ⟨_, rfl, .onStr (.refl s) fun _ h =>
      State.seqLoad_after (State.seqAt_after h (by decide) (by decide)) (by decide) (by decide)⟩
  · exact fun _ _ _ => .of_keeps fun s => ⟨_, rfl, .onStr (.refl s) fun _ h => State.visWrite_after h (by decide) (by decide)⟩
  · exact fun _ _ => .of_keeps fun s => ⟨_, rfl, .onStr (.refl s) fun _ h => State.visWrite_after h (by decide) (by decide)⟩
  · exact fun _ _ _ _ => .of_keeps fun s => ⟨_, rfl, .onStr (.refl s) fun _ h =>
      .when h fun _ h => State.visWrite_after h (by decide) (by decide)⟩
  · exact fun _ _ _ => .of_keeps fun s => ⟨_, rfl, .onStr (.refl s) fun _ h =>
      State.seqNextsec_after (State.seqAt_after h (by decide) (by decide)) (by decide) (by decide)⟩
  · exact fun _ _ _ => .of_keeps fun s => ⟨_, rfl, .onStr (.refl s) fun _ h =>
      State.seqRewind_after (State.seqAt_after h (by decide) (by decide)) (by decide) (by decide)⟩
  · exact fun _ _ _ => .of_keeps fun s => ⟨_, rfl, .onStr (.refl s) fun _ h =>
      State.seqCapture_after (State.seqAt_after h (by decide) (by decide)) (by decide) (by decide)⟩
  · exact fun _ _ => .of_keeps fun s => execCont_keeps (fun h => State.seqContRead_after h (by decide) (by decide)) fun h =>
      State.seqContWrite_after h (by decide) (by decide)
  · exact fun _ => .of_keeps fun s => ⟨_, rfl, .onStr (.refl s) fun _ h => State.seqClose_after h (by decide) (by decide)⟩
  · exact fun _ _ => .of_keeps fun s => ⟨_, rfl, .onStr (.refl s) fun _ h => State.seqSetsel_after h (by decide) (by decide)⟩
  · exact fun _ _ => .of_keeps fun s => ⟨_, rfl, .onStr (.refl s) fun _ h =>
      State.seqStart_after (State.seqAt_after h (by decide) (by decide)) (by decide) (by decide)⟩
  · exact fun _ => .of_keeps fun s => ⟨_, rfl, .onStr (.refl s) fun _ h => State.seqWithdraw_after h (by decide) (by decide)⟩
  · exact fun _ _ => .of_keeps fun s => ⟨_, rfl, .onStr (.refl s) fun _ h => State.seqUevt_after h (by decide) (by decide)⟩
  · exact fun _ _ => .of_keeps fun s => ⟨_, rfl, .onStr (.refl s) fun _ h => State.seqCommit_after h (by decide) (by decide)⟩
  · exact fun _ _ _ => .of_keeps fun s => ⟨_, rfl, .onStr (.refl s) fun _ h => State.seqYield_after h (by decide) (by decide)⟩
  · exact fun _ _ => .of_keeps fun s => ⟨_, rfl, .onStr (.refl s) fun _ h => State.seqEnd_after h (by decide) (by decide)⟩
  · exact fun _ _ => .of_keeps fun s => ⟨_, rfl, .onStr (.refl s) fun _ h => State.seqResume_after h (by decide) (by decide)⟩
  · exact fun _ _ => .of_keeps fun s => ⟨_, rfl, .onStr (.refl s) fun _ h => State.seqDrop_after h (by decide) (by decide)⟩
  · exact fun _ _ => .of_keeps fun s => ⟨_, rfl, .onStr (.refl s) fun _ h => State.seqInterrupt_after h (by decide) (by decide)⟩
  · exact fun _ _ => .of_keeps fun s => ⟨_, rfl, .onStr (.refl s) fun _ h => State.seqGoOp_after h (by decide) (by decide)⟩
  · exact fun _ _ => .of_keeps fun s => ⟨_, rfl, .onStr (.refl s) fun _ h => State.seqStop_after h (by decide) (by decide)⟩
  · exact fun _ _ => .of_keeps fun s => ⟨_, rfl, .onStr (.refl s) fun _ h => State.seqRst_after h (by decide) (by decide)⟩
  · exact fun _ _ => .of_keeps fun s => ⟨_, rfl, .onStr (.refl s) fun _ h => State.seqIrq_after h (by decide) (by decide)⟩
  · exact fun _ _ _ _ _ => .of_keeps fun s => ⟨_, rfl,
      .onStr (.refl s) fun _ h => State.microwordWrite_after h (by decide) (by decide)⟩

/-- Settles O47. -/
theorem recoveryFrames : Obligations.RecoveryFrames := by
  refine ⟨?_, ?_, ?_, ?_, ?_, ?_, ?_, ?_, ?_, ?_, ?_, ?_, ?_, ?_, ?_, ?_, ?_, ?_⟩
  · exact fun _ => .of_keeps fun s => ⟨_, rfl, State.bandCleanStart_after (.refl s) (by decide) (by decide)⟩
  · exact fun _ => .of_keeps fun s => ⟨_, rfl, State.skipAge_after (.refl s) (by decide) (by decide)⟩
  · exact .of_keeps fun s => ⟨_, rfl, State.journalResume_after (.refl s) (by decide) (by decide)⟩
  · exact fun _ => .of_keeps fun s => ⟨_, rfl, State.chestGrant_after (.refl s) (by decide) (by decide)⟩
  · exact fun _ => .of_keeps fun s => ⟨_, rfl, State.gapMove_after (.refl s) (by decide) (by decide)⟩
  · exact fun _ _ => .of_keeps fun s => ⟨_, rfl, .onStr (.refl s) fun _ h =>
      State.ladderRevolution_after h (by decide) (by decide)⟩
  · exact fun _ _ => .of_keeps fun s => ⟨_, rfl, .onStr (.refl s) fun _ h => State.parityPass_after h (by decide) (by decide)⟩
  · exact fun _ => .of_keeps fun s => ⟨_, rfl, .onStr (.refl s) fun _ h => State.ladderResume_after h (by decide) (by decide)⟩
  · exact fun _ => .of_keeps fun s => ⟨_, rfl, State.tlerExpiry_after (.refl s) (by decide) (by decide)⟩
  · exact fun _ _ => .of_keeps fun s => ⟨_, rfl, .onStr (.refl s) fun _ h => State.codewordReady_after h (by decide) (by decide)⟩
  · exact fun _ _ => .of_keeps fun s => ⟨_, rfl, .onStr (.refl s) fun _ h => State.passDone_after h (by decide) (by decide)⟩
  · exact .of_keeps fun s => ⟨_, rfl, State.harpDispatch_after (.refl s) (by decide) (by decide)⟩
  · exact fun _ _ _ => .of_keeps fun s => execLaneResult_keeps fun _ => State.setLane_after (.refl s) (by decide) (by decide)
  · exact fun _ => .of_keeps fun s => execLaneWatchdog_keeps fun _ => State.strikeOn_after (.refl s) (by decide) (by decide)
  · exact fun _ _ => .of_keeps fun s => ⟨_, rfl, State.verdict_after (.refl s) (by decide) (by decide)⟩
  · exact fun _ _ => .of_keeps fun s => execSelfTestDone_keeps
      (State.harpRefresh_after (Keeps.unflagBit (State.setLane_after (.refl s) (by decide)
      (by decide)) (by decide)) (by decide) (by decide))
      (State.strike_after (.refl s) (by decide) (by decide)) fun h => State.settleRequests_after h (by decide) (by decide)
  · exact fun _ => .of_keeps fun s => ⟨_, rfl, State.harpRetire_after (.refl s) (by decide) (by decide)⟩
  · exact fun _ => .of_keeps fun s => ⟨_, rfl, State.harpUnretire_after (.refl s) (by decide) (by decide)⟩

/-- Settles O48. -/
theorem writePathFrames : Obligations.WritePathFrames := by
  refine ⟨?_, ?_, ?_, ?_, ?_, ?_, ?_, ?_, ?_, ?_, ?_, ?_, ?_, ?_, ?_, ?_⟩
  · exact fun _ => .of_keeps fun s => ⟨_, rfl, .onStr (.refl s) fun _ h => State.writeGateOpen_after h (by decide) (by decide)⟩
  · exact fun _ => .of_keeps fun s => ⟨_, rfl, .onStr (.refl s) fun _ h => State.sectorWritten_after h (by decide) (by decide)⟩
  · exact fun _ _ => .of_keeps fun s => ⟨_, rfl, .onStr (.refl s) fun _ h => State.encodeDone_after h (by decide) (by decide)⟩
  · exact fun _ _ => .of_keeps fun s => ⟨_, rfl, .onStr (.refl s) fun _ h =>
      State.writePathEnable_after h (by decide) (by decide)⟩
  · exact fun _ => .of_keeps fun s => ⟨_, rfl, .onStr (.refl s) fun _ h => State.accClear_after h (by decide) (by decide)⟩
  · exact fun _ _ _ => .of_keeps fun s => ⟨_, rfl, .onStr (.refl s) fun _ h =>
      State.squeezeVerify_after h (by decide) (by decide)⟩
  · exact fun _ _ => .of_keeps fun s => ⟨_, rfl, State.batchIssue_after (.refl s) (by decide) (by decide)⟩
  · exact fun _ => .of_keeps fun s => ⟨_, rfl, State.rebuildAcc_after (.refl s) (by decide) (by decide)⟩
  · exact fun _ _ => .of_keeps fun s => ⟨_, rfl, .onStr (.refl s) fun _ h => State.reallocate_after h (by decide) (by decide)⟩
  · exact fun _ => .of_keeps fun s => ⟨_, rfl, State.jobStart_after (.refl s) (by decide) (by decide)⟩
  · exact fun _ _ _ _ => .of_keeps fun s => ⟨_, rfl, State.jobDone_after (.refl s) (by decide) (by decide)⟩
  · exact fun _ => .of_keeps fun s => ⟨_, rfl, State.jobSuspend_after (.refl s) (by decide) (by decide)⟩
  · exact fun _ => .of_keeps fun s => ⟨_, rfl, State.forceTail_after (.refl s) (by decide) (by decide)⟩
  · exact fun _ => .of_keeps fun s => ⟨_, rfl, State.spaceTimeout_after (.refl s) (by decide) (by decide)⟩
  · exact fun _ => .of_keeps fun s => ⟨_, rfl, State.phvRetireMask_after (.refl s) (by decide) (by decide)⟩
  · exact fun _ => .of_keeps fun s => ⟨_, rfl, State.phvUnretireMask_after (.refl s) (by decide) (by decide)⟩

/-- Settles O49. -/
theorem cabinetAndBridgeFrames : Obligations.CabinetAndBridgeFrames := by
  refine ⟨?_, ?_, ?_, ?_, ?_, ?_, ?_, ?_, ?_, ?_, ?_, ?_, ?_, ?_, ?_, ?_, ?_⟩
  · exact fun _ => .of_keeps fun s => ⟨_, rfl, .onStr (.refl s) fun _ h => State.encryptRequest_after h (by decide) (by decide)⟩
  · exact .of_keeps fun s => ⟨_, rfl, State.holdGrant_after (.refl s) (by decide) (by decide)⟩
  · exact fun _ _ => .of_keeps fun s => ⟨_, rfl, State.xtsRequest_after (.refl s) (by decide) (by decide)⟩
  · exact fun _ _ => .of_keeps fun s => ⟨_, rfl, State.cipherDone_after (.refl s) (by decide) (by decide)⟩
  · exact fun _ => .of_keeps fun s => ⟨_, rfl, State.slotGo_after (.refl s) (by decide) (by decide)⟩
  · exact fun _ => .of_keeps fun s => ⟨_, rfl, State.slotGo_after (.refl s) (by decide) (by decide)⟩
  · exact fun _ => .of_keeps fun s => ⟨_, rfl, State.slotGo_after (.refl s) (by decide) (by decide)⟩
  · exact fun _ => .of_keeps fun s => ⟨_, rfl, State.katGo_after (.refl s) (by decide) (by decide)⟩
  · exact fun _ _ => .of_keeps fun s => ⟨_, rfl, .when (.refl s) fun _ h => State.retireCabCore_after h (by decide) (by decide)⟩
  · exact .of_keeps fun s => ⟨_, rfl, Keeps.flag (.refl s) (by decide)⟩
  · exact fun _ => .of_keeps fun s => ⟨_, rfl, State.writeGrant_after (.refl s) (by decide) (by decide)⟩
  · exact fun _ _ => .of_keeps fun s => ⟨_, rfl, State.transferEnd_after (.refl s) (by decide) (by decide)⟩
  · exact fun _ _ => .of_keeps fun s => ⟨_, rfl, State.hostTransfer_after (.refl s) (by decide) (by decide)⟩
  · exact fun _ _ => .of_keeps fun s => ⟨_, rfl, State.pageSpill_after (.refl s) (by decide) (by decide)⟩
  · exact fun _ => .of_keeps fun s => ⟨_, rfl, State.entryCommit_after (.refl s) (by decide) (by decide)⟩
  · exact .of_keeps fun s => ⟨_, rfl, State.logCopy_after (.refl s) (by decide) (by decide)⟩
  · exact .of_keeps fun s => ⟨_, rfl, State.bridgeGo_after (.refl s) (by decide) (by decide)⟩

/-- Settles O50. -/
theorem hostIoFrames : Obligations.HostIoFrames := by
  refine ⟨?_, ?_, ?_, ?_, ?_, ?_, ?_, ?_, ?_, ?_, ?_, ?_, ?_, ?_, ?_, ?_⟩
  · exact fun _ _ _ _ _ => .of_keeps fun s => ⟨_, rfl, State.commandFetch_after (.refl s) (by decide) (by decide)⟩
  · exact fun _ => .of_keeps fun s => ⟨_, rfl, State.nvmRead_after (.refl s) (by decide) (by decide)⟩
  · exact fun _ => .of_keeps fun s => ⟨_, rfl, State.nvmWrite_after (.refl s) (by decide) (by decide)⟩
  · exact fun _ => .of_keeps fun s => ⟨_, rfl, State.zoneAppend_after (.refl s) (by decide) (by decide)⟩
  · exact fun _ => .of_keeps fun s => ⟨_, rfl, State.nvmFlush_after (.refl s) (by decide) (by decide)⟩
  · exact fun _ => .of_keeps fun s => ⟨_, rfl, State.nvmCompare_after (.refl s) (by decide) (by decide)⟩
  · exact fun _ => .of_keeps fun s => ⟨_, rfl, State.nvmVerify_after (.refl s) (by decide) (by decide)⟩
  · exact fun _ => .of_keeps fun s => ⟨_, rfl, State.writeZeroes_after (.refl s) (by decide) (by decide)⟩
  · exact fun _ => .of_keeps fun s => ⟨_, rfl, State.datasetManagement_after (.refl s) (by decide) (by decide)⟩
  · exact fun _ => .of_keeps fun s => ⟨_, rfl, State.zoneSend_after (.refl s) (by decide) (by decide)⟩
  · exact fun _ => .of_keeps fun s => ⟨_, rfl, State.zoneSend_after (.refl s) (by decide) (by decide)⟩
  · exact fun _ => .of_keeps fun s => ⟨_, rfl, State.zoneSend_after (.refl s) (by decide) (by decide)⟩
  · exact fun _ => .of_keeps fun s => ⟨_, rfl, State.zoneSend_after (.refl s) (by decide) (by decide)⟩
  · exact fun _ => .of_keeps fun s => ⟨_, rfl, State.zoneSend_after (.refl s) (by decide) (by decide)⟩
  · exact fun _ => .of_keeps fun s => ⟨_, rfl, State.reportZones_after (.refl s) (by decide) (by decide)⟩
  · exact fun _ => .of_keeps fun s => ⟨_, rfl, State.completionCommit_after (.refl s) (by decide) (by decide)⟩

/-- Settles O51. -/
theorem queueAndFeatureFrames : Obligations.QueueAndFeatureFrames := by
  refine ⟨?_, ?_, ?_, ?_, ?_, ?_, ?_, ?_, ?_, ?_, ?_, ?_, ?_, ?_, ?_, ?_, ?_, ?_, ?_, ?_, ?_, ?_⟩
  · exact fun _ => .of_keeps fun s => ⟨_, rfl, State.resvRegister_after (.refl s) (by decide) (by decide)⟩
  · exact fun _ => .of_keeps fun s => ⟨_, rfl, State.resvAcquire_after (.refl s) (by decide) (by decide)⟩
  · exact fun _ => .of_keeps fun s => ⟨_, rfl, State.resvRelease_after (.refl s) (by decide) (by decide)⟩
  · exact fun _ => .of_keeps fun s => ⟨_, rfl, State.resvReport_after (.refl s) (by decide) (by decide)⟩
  · exact fun _ => .of_keeps fun s => ⟨_, rfl, State.createSq_after (.refl s) (by decide) (by decide)⟩
  · exact fun _ => .of_keeps fun s => ⟨_, rfl, State.createCq_after (.refl s) (by decide) (by decide)⟩
  · exact fun _ => .of_keeps fun s => ⟨_, rfl, State.deleteSq_after (.refl s) (by decide) (by decide)⟩
  · exact fun _ => .of_keeps fun s => ⟨_, rfl, State.deleteCq_after (.refl s) (by decide) (by decide)⟩
  · exact fun _ => .of_keeps fun s => ⟨_, rfl, State.nvmeIdentify_after (.refl s) (by decide) (by decide)⟩
  · exact fun _ => .of_keeps fun s => ⟨_, rfl, State.getLogPage_after (.refl s) (by decide) (by decide)⟩
  · exact fun _ => .of_keeps fun s => ⟨_, rfl, State.nvmeAbort_after (.refl s) (by decide) (by decide)⟩
  · exact fun _ => .of_keeps fun s => ⟨_, rfl, State.setFeatures_after (.refl s) (by decide) (by decide)⟩
  · exact fun _ => .of_keeps fun s => ⟨_, rfl, State.getFeatures_after (.refl s) (by decide) (by decide)⟩
  · exact fun _ => .of_keeps fun s => ⟨_, rfl, State.streamQueueArm_after (.refl s) (by decide) (by decide)⟩
  · exact fun _ => .of_keeps fun s => ⟨_, rfl, State.streamQueueDisarm_after (.refl s) (by decide) (by decide)⟩
  · exact fun _ => .of_keeps fun s => ⟨_, rfl, State.streamQueueGet_after (.refl s) (by decide) (by decide)⟩
  · exact fun _ => .of_keeps fun s => ⟨_, rfl, State.streamCapacity_after (.refl s) (by decide) (by decide)⟩
  · exact fun _ => .of_keeps fun s => ⟨_, rfl, State.setTelemetry_after (.refl s) (by decide) (by decide)⟩
  · exact fun _ => .of_keeps fun s => ⟨_, rfl, State.asyncRequest_after (.refl s) (by decide) (by decide)⟩
  · exact fun _ _ => .of_keeps fun s => ⟨_, rfl, State.selfTest_after (.refl s) (by decide) (by decide)⟩
  · exact fun _ => .of_keeps fun s => ⟨_, rfl, State.securitySend_after (.refl s) (by decide) (by decide)⟩
  · exact fun _ => .of_keeps fun s => ⟨_, rfl, State.securityReceive_after (.refl s) (by decide) (by decide)⟩

/-- Settles O52. -/
theorem namespaceFrames : Obligations.NamespaceFrames := by
  refine ⟨?_, ?_, ?_, ?_, ?_, ?_, ?_⟩
  · exact fun _ => .of_keeps fun s => ⟨_, rfl, State.nsCreate_after (.refl s) (by decide) (by decide)⟩
  · exact fun _ => .of_keeps fun s => ⟨_, rfl, State.nsDelete_after (.refl s) (by decide) (by decide)⟩
  · exact fun _ => .of_keeps fun s => ⟨_, rfl, State.nsAttach_after (.refl s) (by decide) (by decide)⟩
  · exact fun _ => .of_keeps fun s => ⟨_, rfl, State.nsDetach_after (.refl s) (by decide) (by decide)⟩
  · exact fun _ => .of_keeps fun s => ⟨_, rfl, State.formatNvm_after (.refl s) (by decide) (by decide)⟩
  · exact fun _ => .of_keeps fun s => ⟨_, rfl, State.sanitize_after (.refl s) (by decide) (by decide)⟩
  · exact .of_keeps fun s => ⟨_, rfl, State.slotOpComplete_after (.refl s) (by decide) (by decide)⟩

/-- Settles O56. -/
theorem thermalFrames : Obligations.ThermalFrames := by
  refine ⟨?_, ?_, ?_, ?_, ?_, ?_, ?_, ?_⟩
  · exact fun _ => .of_keeps fun s => ⟨_, rfl, .when (.refl s) fun _ h => State.pegTick_after h (by decide) (by decide)⟩
  · exact fun _ _ => .of_keeps fun s => ⟨_, rfl, State.thermalSample_after (.refl s) (by decide) (by decide)⟩
  · exact .of_keeps fun s => ⟨_, rfl, State.throttleTick_after (.refl s) (by decide) (by decide)⟩
  · exact fun _ _ => .of_keeps fun s => ⟨_, rfl, .onStr (.refl s) fun _ h => State.calScheduleDue_after h (by decide) (by decide)⟩
  · exact fun _ => .of_keeps fun s => ⟨_, rfl, State.scriptResume_after (.refl s) (by decide) (by decide)⟩
  · exact fun _ _ _ => .of_keeps fun s => ⟨_, rfl, .onStr (.refl s) fun _ h => State.tdStep_after h (by decide) (by decide)⟩
  · exact .of_keeps fun s => ⟨_, rfl, State.calAbort_after (.refl s) (by decide) (by decide)⟩
  · exact fun _ _ => .of_keeps fun s => ⟨_, rfl, State.calScriptStep_after (.refl s) (by decide) (by decide)⟩

end Sys2Proof.Machine

/-! PROOF. Proofs/Accessors.lean: what a command's own String and its register fields read after the operations that every meaning is
written in. -/
namespace Sys2Proof.Machine

/-! ### A command that acts -/

theorem State.onStr_of_present {s : State} {x : Str} (present : s.present x = true) (f : State → State) : s.onStr x f = f s := by
  simp [State.onStr, present]

/-- A command of a String that is present. -/
theorem Completes.onStr {c : Instr} {s : State} {x : Str} {f : State → State} {P : State → Prop}
    (run : exec c s = .next (s.onStr x f)) (present : s.present x = true) (holds : P (f s)) : Completes c s P :=
  ⟨f s, by rw [run, State.onStr_of_present present], holds⟩

/-- What an operation leaves of a field outside its mask. -/
theorem Keeps.rd {m q : Nat} {s t : State} (k : Keeps m q s t) (r : Reg) (j : Nat) (outside : m.testBit r.ctorIdx = false) :
    t.rd r j = s.rd r j := k.regs r j outside

/-- The mask of every register field but those listed. -/
def allBut (rs : List Reg) : Nat := rs.foldl (fun m r => m ^^^ 1 <<< r.ctorIdx) everyReg

/-- The mask of every part of the state but those listed. -/
def partsBut (ps : List Part) : Nat := ps.foldl (fun m p => m ^^^ 1 <<< p.ctorIdx) everyPart

/-! ### Fields after the operations of Ops and Flags -/

section
variable (s : State) (r : Reg) (i : Nat)

@[simp] theorem State.rd_flag_self : (s.flag r i).rd r i = 1 % 2 ^ r.row.width := s.rd_wr_self r 1 i
@[simp] theorem State.rd_unflag_self : (s.unflag r i).rd r i = 0 := by simp [State.unflag]
@[simp] theorem State.rd_setTo_self (b : Bool) : (s.setTo r b i).rd r i = boolNat b % 2 ^ r.row.width := s.rd_wr_self ..
@[simp] theorem State.rd_bump_self (k : Nat) :
    (s.bump r i k).rd r i = min (2 ^ r.row.width - 1) (s.rd r i + k) := by
  rw [State.bump, State.rd_wr_self]
  exact Nat.mod_eq_of_lt (by have := Nat.two_pow_pos r.row.width; omega)
@[simp] theorem State.rd_wrapInc_self : (s.wrapInc r i).rd r i = (s.rd r i + 1) % 2 ^ r.row.width := s.rd_wr_self ..

variable {r' : Reg} (j : Nat) (other : r' ≠ r)
include other

@[simp] theorem State.rd_flag_ne : (s.flag r i).rd r' j = s.rd r' j := s.rd_wr_ne r r' _ i j other
@[simp] theorem State.rd_unflag_ne : (s.unflag r i).rd r' j = s.rd r' j := s.rd_wr_ne r r' _ i j other
@[simp] theorem State.rd_setTo_ne (b : Bool) : (s.setTo r b i).rd r' j = s.rd r' j := s.rd_wr_ne r r' _ i j other
@[simp] theorem State.rd_bump_ne (k : Nat) : (s.bump r i k).rd r' j = s.rd r' j := s.rd_wr_ne r r' _ i j other
@[simp] theorem State.rd_wrapInc_ne : (s.wrapInc r i).rd r' j = s.rd r' j := s.rd_wr_ne r r' _ i j other
@[simp] theorem State.rd_flagBit_ne (n : Nat) : (s.flagBit r n i).rd r' j = s.rd r' j := s.rd_wr_ne r r' _ i j other
@[simp] theorem State.rd_unflagBit_ne (n : Nat) : (s.unflagBit r n i).rd r' j = s.rd r' j := s.rd_wr_ne r r' _ i j other

end

@[simp] theorem boolNat_true : boolNat true = 1 := rfl
@[simp] theorem boolNat_false : boolNat false = 0 := rfl

@[simp] theorem boolNat_mod_two (b : Bool) : boolNat b % 2 = boolNat b := by cases b <;> rfl

/-! ### Bits of a mask field -/

/-- A bit that is clear is set by adding its weight. -/
theorem testBit_two_pow_add {n k : Nat} (clear : n.testBit k = false) (j : Nat) :
    (2 ^ k + n).testBit j = if j = k then true else n.testBit j := by
  rcases Nat.lt_trichotomy j k with below | rfl | above
  · rw [Nat.testBit_two_pow_add_gt below, if_neg below.ne]
  · rw [Nat.testBit_two_pow_add_eq, clear, if_pos rfl]
    rfl
  · have low : n % 2 ^ (k + 1) < 2 ^ k := by
      have half : n / 2 ^ k % 2 = 0 := by
        have := Nat.toNat_testBit n k
        rw [clear] at this
        simpa using this.symm
      rw [Nat.mod_pow_succ, half]
      simpa using Nat.mod_lt n (Nat.two_pow_pos k)
    have split : 2 ^ k + n = 2 ^ (k + 1) * (n / 2 ^ (k + 1)) + (2 ^ k + n % 2 ^ (k + 1)) := by
      have := Nat.div_add_mod n (2 ^ (k + 1))
      omega
    have room : 2 ^ k + n % 2 ^ (k + 1) < 2 ^ (k + 1) := by rw [pow_succ] at *; omega
    rw [split, Nat.testBit_two_pow_mul_add _ room, if_neg (by omega), if_neg above.ne', Nat.testBit_div_two_pow]
    congr 1
    omega

/-- A bit that is set is cleared by taking its weight away. -/
theorem testBit_sub_two_pow {n k : Nat} (on : n.testBit k = true) (j : Nat) :
    (n - 2 ^ k).testBit j = if j = k then false else n.testBit j := by
  have back : 2 ^ k + (n - 2 ^ k) = n := Nat.add_sub_cancel' (Nat.ge_two_pow_of_testBit on)
  have off : (n - 2 ^ k).testBit k = false := by
    have flips := Nat.testBit_two_pow_add_eq (n - 2 ^ k) k
    rw [back, on] at flips
    simpa using flips
  by_cases at' : j = k
  · rw [if_pos at', at', off]
  · have added := testBit_two_pow_add off j
    rw [back, if_neg at'] at added
    rw [if_neg at', added]

theorem testBit_withBit (n k : Nat) (b : Bool) (j : Nat) : (withBit n k b).testBit j = if j = k then b else n.testBit j := by
  by_cases same : n.testBit k = b
  · by_cases at' : j = k <;> simp [withBit, same, at']
  · cases b with
    | true => simpa [withBit, same, Nat.add_comm] using testBit_two_pow_add (by simpa using same) j
    | false => simpa [withBit, same] using testBit_sub_two_pow (by simpa using same) j

/-- A bit of a mask field after hardware has set a bit of it. -/
theorem State.testBit_flagBit (s : State) (r : Reg) (n i j : Nat) (within : j < r.row.width) :
    ((s.flagBit r n i).rd r i).testBit j = if j = n then true else (s.rd r i).testBit j := by
  rw [State.flagBit, State.rd_wr_self, Nat.testBit_mod_two_pow, testBit_withBit]
  simp [within]

/-- A bit of a mask field after hardware has cleared a bit of it. -/
theorem State.testBit_unflagBit (s : State) (r : Reg) (n i j : Nat) (within : j < r.row.width) :
    ((s.unflagBit r n i).rd r i).testBit j = if j = n then false else (s.rd r i).testBit j := by
  rw [State.unflagBit, State.rd_wr_self, Nat.testBit_mod_two_pow, testBit_withBit]
  simp [within]

/-! ### Boundaries and time -/

/-- A field of which no write waits is as it was at the boundary of its block. -/
theorem State.rd_boundary {s : State} {r : Reg} (none : ∀ e ∈ s.shadow, e.reg ≠ r) (b : Blk) (inst j : Nat) :
    (s.boundary b inst).rd r j = s.rd r j := by
  have fold (l : List Shadow) (sub : ∀ e ∈ l, e.reg ≠ r) (t : State) :
      (l.foldl (fun s e => s.wr e.reg e.value e.idx) t).rd r j = t.rd r j := by
    induction l generalizing t with
    | nil => rfl
    | cons e l ih =>
      rw [List.foldl_cons, ih (fun e mem => sub e (List.mem_cons_of_mem _ mem)), State.rd_wr_ne]
      exact (sub e List.mem_cons_self).symm
  exact fold _ (fun e mem => none e (List.mem_of_mem_filter mem)) _

theorem State.shadowOf_shadowDrop (s : State) (r : Reg) (i : Nat) : (s.shadowDrop r i).shadowOf r i = none := by
  simp only [State.shadowOf, State.shadowDrop, Option.map_eq_none_iff, List.find?_eq_none, List.mem_filter]
  rintro e ⟨-, kept⟩ same
  simp_all

theorem NoneWaits.ne {s : State} {rs : List Reg} (h : NoneWaits s rs) {r : Reg} (mem : r ∈ rs) : ∀ e ∈ s.shadow, e.reg ≠ r :=
  fun e waits same => h e waits (same ▸ mem)

@[simp] theorem State.at_shadow (s : State) (time : Nat) : (s.at time).shadow = s.shadow :=
  (State.at_after (.refl s) (Nat.or_self _) (Nat.or_self _)).parts .shadow rfl
@[simp] theorem State.at_str (s : State) (time : Nat) : (s.at time).str = s.str :=
  (State.at_after (.refl s) (Nat.or_self _) (Nat.or_self _)).parts .str rfl
@[simp] theorem State.at_capo (s : State) (time : Nat) : (s.at time).capo = s.capo :=
  (State.at_after (.refl s) (Nat.or_self _) (Nat.or_self _)).parts .capo rfl
@[simp] theorem State.at_spe (s : State) (time : Nat) : (s.at time).spe = s.spe :=
  (State.at_after (.refl s) (Nat.or_self _) (Nat.or_self _)).parts .spe rfl
@[simp] theorem State.at_rd (s : State) (time : Nat) {r : Reg} (j : Nat) (other : r ≠ .SB_RTC_SEC) :
    (s.at time).rd r j = s.rd r j := by
  simp only [State.at]
  split
  · rfl
  · exact State.rd_wr_ne _ _ _ _ _ _ other

/-! ### The part that an operation changes -/

section
variable (s : State)

@[simp] theorem State.emit_out (o : Out) : (s.emit o).out = o :: s.out := rfl
@[simp] theorem State.drawn_draws : s.drawn.draws = s.draws + 1 := rfl
@[simp] theorem State.modSpe_spe (f : Spe → Spe) : (s.modSpe f).spe = f s.spe := rfl
@[simp] theorem State.modCapo_capo (f : Capo → Capo) : (s.modCapo f).capo = f s.capo := rfl
@[simp] theorem State.modHarp_harp (f : Harp → Harp) : (s.modHarp f).harp = f s.harp := rfl
@[simp] theorem State.modCab_cab (f : Cabinet → Cabinet) : (s.modCab f).cab = f s.cab := rfl
@[simp] theorem State.modPhv_phv (f : Phovi → Phovi) : (s.modPhv f).phv = f s.phv := rfl
@[simp] theorem State.modMemory_memory (f : MemoryState → MemoryState) : (s.modMemory f).memory = f s.memory := rfl
@[simp] theorem State.modBur_bur (f : Bureau → Bureau) : (s.modBur f).bur = f s.bur := rfl
@[simp] theorem State.modBridge_bridge (f : BridgeState → BridgeState) : (s.modBridge f).bridge = f s.bridge := rfl
@[simp] theorem State.modHost_host (f : HostState → HostState) : (s.modHost f).host = f s.host := rfl
@[simp] theorem State.modPower_power (f : Power → Power) : (s.modPower f).power = f s.power := rfl
@[simp] theorem State.modLc_lc (f : LifeCycle → LifeCycle) : (s.modLc f).lc = f s.lc := rfl
@[simp] theorem State.modTherm_therm (f : Thermal → Thermal) : (s.modTherm f).therm = f s.therm := rfl
@[simp] theorem State.modCal_cal (f : Cal → Cal) : (s.modCal f).cal = f s.cal := rfl

end

/-! ### Strings -/

section
variable {α : Type} (q : Quad α) (x : Str) (v : α)

@[simp] theorem Quad.get_set_self : (q.set x v).get x = v := by cases x <;> rfl
theorem Quad.get_set_ne {y : Str} (other : y ≠ x) : (q.set x v).get y = q.get y := by
  cases x <;> cases y <;> simp_all [Quad.get, Quad.set]

end

section
variable (s : State) (x : Str)

@[simp] theorem State.modStr_get (f : StringState → StringState) : (s.modStr x f).str.get x = f (s.str.get x) := by
  simp [State.modStr]
@[simp] theorem State.modSce_get (f : Sce → Sce) :
    (s.modSce x f).str.get x = { s.str.get x with sce := f (s.str.get x).sce } := s.modStr_get ..
@[simp] theorem State.modSvd_get (f : Svd → Svd) :
    (s.modSvd x f).str.get x = { s.str.get x with svd := f (s.str.get x).svd } := s.modStr_get ..
@[simp] theorem State.modAe_get (f : Ae → Ae) :
    (s.modAe x f).str.get x = { s.str.get x with ae := f (s.str.get x).ae } := s.modStr_get ..
@[simp] theorem State.modSkew_get (f : SkewAvg → SkewAvg) :
    (s.modSkew x f).str.get x = { s.str.get x with skew := f (s.str.get x).skew } := s.modStr_get ..
@[simp] theorem State.modRch_get (f : Rch → Rch) :
    (s.modRch x f).str.get x = { s.str.get x with rch := f (s.str.get x).rch } := s.modStr_get ..
@[simp] theorem State.modWrp_get (f : Wrp → Wrp) :
    (s.modWrp x f).str.get x = { s.str.get x with wrp := f (s.str.get x).wrp } := s.modStr_get ..
@[simp] theorem State.modSeq_get (q : SeqId) (f : Sequencer → Sequencer) :
    (s.modSeq x q f).str.get x = (s.str.get x).setSeq q (f ((s.str.get x).seq q)) := s.modStr_get ..

end

theorem Str.num_lt (x : Str) : x.num < 4 := by cases x <;> decide
theorem Str.num_inj {x y : Str} (h : x.num = y.num) : x = y := by cases x <;> cases y <;> simp_all [Str.num]

theorem Str.mem_all (x : Str) : x ∈ Str.all := by cases x <;> simp [Str.all]

/-- What one element of a list brings about, and every element keeps, holds after the whole list. -/
theorem foldl_reaches {α : Type} {f : State → α → State} {P Q : State → Prop} {l : List α} {a : α} {s : State} (mem : a ∈ l)
    (start : P s) (keeps : ∀ u b, P u → P (f u b)) (makes : ∀ u, P u → Q (f u a)) (stays : ∀ u b, Q u → Q (f u b)) :
    Q (l.foldl f s) := by
  induction l generalizing s with
  | nil => cases mem
  | cons b l ih =>
    rcases List.mem_cons.1 mem with rfl | later
    · exact List.foldlRecOn l f (makes s start) fun u holds b _ => stays u b holds
    · exact ih later (keeps s b start)

end Sys2Proof.Machine

/-! PROOF. Proofs/Servo.lean: the servo format, the servo gate, the SAM and the demodulator's latch (R113 to R128). -/
namespace Sys2Proof.Machine

/-! ### Acquisition (R114, R127) -/

theorem State.svdSearch_of_idle {s : State} {x : Str} (idle : s.rd .SVDx_STAT_SYNC_STATE x.ix = 0)
    (valid : s.rd .SVDx_STAT_FMT_VALID x.ix = 1) :
    s.svdSearch x = (s.wr .SVDx_STAT_SYNC_STATE 1 x.ix).modSvd x fun d =>
      { d with confirms := 0, misses := 0, haveSam := false } := by
  simp [State.svdSearch, State.isSet, idle, valid]

theorem State.svdIdle_syncState (s : State) (x : Str) : (s.svdIdle x).rd .SVDx_STAT_SYNC_STATE x.ix = 0 := by
  have k : Keeps (allBut [.SVDx_STAT_SYNC_STATE]) everyPart
      ((s.wr .SVDx_STAT_SYNC_STATE 0 x.ix).modSvd x fun d =>
        { d with confirms := 0, misses := 0, haveSam := false, slipFrom := none, servoGate := false, lastFret := false })
      (s.svdIdle x) :=
    .when (.refl _) fun _ h => State.syncLost_after h (by decide) (by decide)
  rw [k.rd .SVDx_STAT_SYNC_STATE _ (by decide)]
  simp

/-- Word 0 of the servo format puts bits 12:0 in CELLS. -/
theorem State.putFields_cells (s : State) (i v : Nat) : (s.putFields .svd 4 i v).rd .SVDx_FMT0_CELLS i = v % 8192 := by
  have rows : (Blk.svd.rows.filter fun r => r.off == 4) =
      [Reg.SVDx_FMT0_CELLS.row, Reg.SVDx_FMT0_PRE_LEN.row, Reg.SVDx_FMT0_SAM_LEN.row] := rfl
  have place : Reg.SVDx_FMT0_CELLS.row.lo = 0 := rfl
  simp [State.putFields, rows, Reg.row_reg, place]

theorem State.formatValid_setTo (s : State) (x : Str) (b : Bool) :
    (s.setTo .SVDx_STAT_FMT_VALID b x.ix).formatValid x = s.formatValid x := by
  simp [State.formatValid]

/-- Settles O18. -/
theorem acquisitionEffects : Obligations.AcquisitionEffects := by
  refine ⟨fun s x present idle valid => ?_, fun s x present => ?_, fun s x index value present word => ?_⟩
  · refine .onStr rfl present ?_
    rw [State.svdAcq]
    simp [State.isSet, idle, valid, State.svdSearch_of_idle]
  · exact .onStr rfl present (s.svdIdle_syncState x)
  · refine .onStr rfl present ⟨fun idle => ?_, fun running => ?_⟩
    · have written : s.formatWrite x index value = (s.putFields .svd (4 + 4 * index) x.ix value).setTo .SVDx_STAT_FMT_VALID
          ((s.putFields .svd (4 + 4 * index) x.ix value).formatValid x) x.ix := by
        simp [State.formatWrite, idle, Nat.not_le.2 word]
      rw [written, State.formatValid_setTo]
      refine ⟨by simp, ?_⟩
      rintro rfl
      simpa using s.putFields_cells x.ix value
    · simp [State.formatWrite, running, Nat.not_le.2 word]

/-! ### The servo gate (R172, R173, R218) -/

theorem State.cutOpen_gate {s : State} {x : Str} {a : Armed} (open' : (s.str.get x).wrp.open' = some a) :
    (s.cutOpen x).rd .WRPx_STAT_GATE x.ix = 0 := by
  simp [State.cutOpen, open', State.stopRun]

/-- The servo gate open and a recording slot paused. -/
def State.servoGated (s : State) (x : Str) : State :=
  let s := s.modSvd x fun v => { v with servoGate := true }
  match (s.str.get x).rch.gate with
  | some i => s.modSlot x i fun c => { c with paused := true, fragment := c.action.cont }
  | none => s

theorem State.servoGated_str (s : State) (x : Str) : ((s.servoGated x).str.get x).svd.servoGate = true ∧
    ((s.servoGated x).str.get x).wrp = (s.str.get x).wrp := by
  cases gate : (s.str.get x).rch.gate <;> simp [State.servoGated, State.modSlot, gate]

theorem State.preambleGate_eq {s : State} {x : Str} (sync : 2 ≤ s.rd .SVDx_STAT_SYNC_STATE x.ix) :
    s.preambleGate x = match ((s.servoGated x).str.get x).wrp.open' with
      | some a => if a.sector.split.isSome then (s.servoGated x).unflag .WRPx_STAT_GATE x.ix else (s.servoGated x).cutOpen x
      | none => s.servoGated x := by
  simp only [State.preambleGate, sync, decide_true, State.when_true]
  rfl

theorem State.preambleGate_effect {s : State} {x : Str} (sync : 2 ≤ s.rd .SVDx_STAT_SYNC_STATE x.ix) :
    ((s.str.get x).wrp.open' = none → ((s.preambleGate x).str.get x).svd.servoGate = true) ∧
    ∀ a, (s.str.get x).wrp.open' = some a → (s.preambleGate x).rd .WRPx_STAT_GATE x.ix = 0 := by
  obtain ⟨servo, same⟩ := s.servoGated_str x
  rw [State.preambleGate_eq sync, same]
  refine ⟨fun closed => by simp only [closed, servo], fun a open' => ?_⟩
  simp only [open']
  split
  · simp
  · exact State.cutOpen_gate (same ▸ open')

/-! ### SAMs (R117, R127) -/

theorem State.rd_svdBoundary (s : State) {r : Reg} (none : ∀ e ∈ s.shadow, e.reg ≠ r) (x : Str) (j : Nat)
    (other : r ≠ .RCHx_RATE_BITRATE) : (s.svdBoundary x).rd r j = s.rd r j := by
  rw [State.svdBoundary, State.refreshRate, State.rd_wr_ne _ _ _ _ _ _ other, State.rd_boundary none]

theorem State.setWedge_wedge (s : State) (x : Str) (w : Nat) : (s.setWedge x w).rd .SVDx_STAT_WEDGE x.ix = w % 512 := by
  simp [State.setWedge]

theorem State.samLatched_of_search {s : State} {x : Str} {readers : List SamIn} {iVcm : Int} {d : SamIn} {time : Nat}
    {later : List Nat} (reader : readers[s.servoReader x (s.aeHead x)]? = some d)
    (search : s.rd .SVDx_STAT_SYNC_STATE x.ix = 1) (first : s.samTimes x d none = time :: later) :
    s.samLatched x readers iVcm = ((s.at time).wr .SVDx_PREAMP_A_PRE (min 65535 d.aPre) x.ix).samSearch x d time := by
  simp [State.samLatched, reader, search, first]

/-- A SAM in SEARCH keeps the pre-amplitude, and one whose number is accepted leads to CONFIRM with that wedge. -/
theorem State.samSearch_effect {s : State} {x : Str} (d : SamIn) (time : Nat)
    (free : NoneWaits s [.SVDx_PREAMP_A_PRE, .SVDx_STAT_SYNC_STATE]) :
    (s.samSearch x d time).rd .SVDx_PREAMP_A_PRE x.ix = s.rd .SVDx_PREAMP_A_PRE x.ix ∧
    ∀ n, s.acceptedNumber x d = some n →
      (s.samSearch x d time).rd .SVDx_STAT_SYNC_STATE x.ix = 2 ∧ (s.samSearch x d time).rd .SVDx_STAT_WEDGE x.ix = n % 512 := by
  cases number : s.acceptedNumber x d with
  | none => exact ⟨by simp [State.samSearch, number], fun n h => nomatch h⟩
  | some n =>
    let u := (s.wr .SVDx_STAT_SYNC_STATE 2 x.ix).modSvd x fun v =>
      { v with confirms := 1, misses := 0, samMeasured := true, numberBad := false, slipFrom := none, expected := time
               deviation := 0, windowHead := s.aeHead x, lastMeasured := none, lastFret := false }
    have e : s.samSearch x d time = (((u.svdBoundary x).setWedge x n).predictSam x time u.spindleFret).seqSam x false := by
      rw [State.samSearch, number]
    have k : Keeps (allBut [.SVDx_PREAMP_A_PRE, .SVDx_STAT_SYNC_STATE, .SVDx_STAT_WEDGE]) everyPart
        ((u.svdBoundary x).setWedge x n) (s.samSearch x d time) := by
      rw [e]
      exact State.seqSam_after (State.predictSam_after (.refl _) (by decide) (by decide)) (by decide) (by decide)
    have w : Keeps (allBut [.SVDx_PREAMP_A_PRE, .SVDx_STAT_SYNC_STATE]) everyPart (u.svdBoundary x) ((u.svdBoundary x).setWedge x n) :=
      State.setWedge_after (.refl _) (by decide) (by decide)
    refine ⟨?_, fun m h => ?_⟩
    · rw [k.rd .SVDx_PREAMP_A_PRE _ (by decide), w.rd .SVDx_PREAMP_A_PRE _ (by decide),
          u.rd_svdBoundary (r := .SVDx_PREAMP_A_PRE) (free.ne (by simp)) x _ (by decide)]
      simp [u]
    · cases h
      rw [k.rd .SVDx_STAT_SYNC_STATE _ (by decide), w.rd .SVDx_STAT_SYNC_STATE _ (by decide),
          u.rd_svdBoundary (r := .SVDx_STAT_SYNC_STATE) (free.ne (by simp)) x _ (by decide),
        k.rd .SVDx_STAT_WEDGE _ (by decide), State.setWedge_wedge]
      simp [u]

/-! ### Wedge boundary and latch (R125, R172) -/

theorem State.wedgeBoundary_aPre {s : State} {x : Str} (aPre : List Nat) (runs : s.fretRuns x = true) :
    (s.wedgeBoundary x aPre).rd .SVDx_PREAMP_A_PRE x.ix =
      if (s.str.get x).svd.samMeasured then s.rd .SVDx_PREAMP_A_PRE x.ix
      else min 65535 (aPre.getD (s.servoReader x (s.str.get x).svd.windowHead) 0) := by
  have k (u : State) : Keeps (allBut [.SVDx_PREAMP_A_PRE]) everyPart u
      (((((u.servoStep x (u.rd .SVDx_PREAMP_A_PRE x.ix)).modSvd x fun v =>
        { v with servoGate := false, dataWedge := v.wedge }).sectorReference x).releaseInhibits x |>.secondFragment x).seqWedge x) :=
    State.seqWedge_after (State.secondFragment_after (State.releaseInhibits_after (State.sectorReference_after
      (State.modSvd_after (State.servoStep_after (.refl u) (by decide) (by decide)) (by decide) (by decide)) (by decide)
      (by decide)) (by decide) (by decide)) (by decide) (by decide)) (by decide) (by decide)
  simp only [State.wedgeBoundary, runs, State.when_true, (k _).rd .SVDx_PREAMP_A_PRE _ (by decide)]
  cases (s.str.get x).svd.samMeasured <;> simp

theorem State.demodLatch_of_missed {s : State} {x : Str} (readers : List DemodIn) (runs : s.fretRuns x = true)
    (missed : (s.str.get x).svd.samMeasured = false) :
    (s.demodLatch x readers).rd .SVDx_STAT_LAST_OK x.ix = 0 ∧ (s.demodLatch x readers).rd .SVDx_STAT_LAST_CAUSE x.ix = 1 := by
  simp only [State.demodLatch, State.when, runs, if_true, State.demodulate, missed, State.modSvd_get, Bool.not_false,
    bne_self_eq_false, Bool.false_eq_true, if_false]
  rw [(State.law_after (.refl _) (Nat.or_self _) (Nat.or_self _)).rd .SVDx_STAT_LAST_OK _ (by decide),
    (State.law_after (.refl _) (Nat.or_self _) (Nat.or_self _)).rd .SVDx_STAT_LAST_CAUSE _ (by decide)]
  simp

/-! ### A missed SAM (R116, R127) -/

theorem State.backToSearch_syncState (s : State) (x : Str) : (s.backToSearch x).rd .SVDx_STAT_SYNC_STATE x.ix = 1 := by
  have k : Keeps (allBut [.SVDx_STAT_SYNC_STATE]) everyPart
      ((s.wr .SVDx_STAT_SYNC_STATE 1 x.ix).modSvd x fun v =>
        { v with confirms := 0, misses := 0, haveSam := false, slipFrom := none, lastFret := true })
      (s.backToSearch x) :=
    .when (.refl _) fun _ h => State.syncLost_after h (by decide) (by decide)
  rw [k.rd .SVDx_STAT_SYNC_STATE _ (by decide)]
  simp

/-- The miss is counted, and CONFIRM falls back to SEARCH. -/
theorem State.missedSam_effect {s : State} {x : Str} (sync : 2 ≤ s.rd .SVDx_STAT_SYNC_STATE x.ix)
    (predicted : (s.str.get x).svd.haveSam = true) (free : NoneWaits s [.SVDx_CNT_MISSED, .SVDx_STAT_SYNC_STATE]) :
    (s.missedSam x).rd .SVDx_CNT_MISSED x.ix = min 65535 (s.rd .SVDx_CNT_MISSED x.ix + 1) ∧
    (s.rd .SVDx_STAT_SYNC_STATE x.ix = 2 → (s.missedSam x).rd .SVDx_STAT_SYNC_STATE x.ix = 1) := by
  let u := ((s.openWindow x).at (((s.openWindow x).str.get x).svd.expected + 400)).bump .SVDx_CNT_MISSED x.ix
  have shadow : u.shadow = s.shadow := by simp [u, State.openWindow]
  have acts : ¬(decide (s.rd .SVDx_STAT_SYNC_STATE x.ix < 2) || !(s.str.get x).svd.haveSam) = true := by
    simp [predicted, Nat.lt_of_succ_le sync]
  have k : Keeps (allBut [.SVDx_CNT_MISSED]) everyPart (u.svdBoundary x) (s.missedSam x) := by
    simp only [State.missedSam, if_neg acts]
    exact .when (State.wedgeLost_after (State.sceSam_after (State.seqSam_after (State.refreshSkewNs_after
        (State.predictSam_after (.when (State.modSvd_after (State.setWedge_after (.refl _) (by decide) (by decide)) (by decide)
          (by decide)) fun _ h => State.countWedge_after h (by decide) (by decide)) (by decide) (by decide)) (by decide)
        (by decide)) (by decide) (by decide)) (by decide) (by decide)) (by decide) (by decide))
      fun _ h => State.backToSearch_after h (by decide) (by decide)
  refine ⟨?_, fun confirm => ?_⟩
  · rw [k.rd .SVDx_CNT_MISSED _ (by decide), u.rd_svdBoundary (r := .SVDx_CNT_MISSED) (shadow ▸ free.ne (by simp)) x _ (by decide)]
    simp [u, State.openWindow]
  · simp only [State.missedSam, if_neg acts]
    simp only [confirm, BEq.rfl, Bool.true_or, State.when_true]
    exact State.backToSearch_syncState ..

/-- Settles O12. -/
theorem servoTimingEffects : Obligations.ServoTimingEffects := by
  refine ⟨fun s x present sync => ?_, fun s x e d time later present reader search free first => ?_,
    fun s x present sync predicted free => ?_, fun s x aPre present runs => ?_, fun s x readers present runs missed => ?_⟩
  · exact .onStr rfl present (State.preambleGate_effect sync)
  · refine .onStr rfl present ?_
    rw [State.samLatched_of_search reader search first]
    obtain ⟨aPre, accepted⟩ := State.samSearch_effect (s := (s.at time).wr .SVDx_PREAMP_A_PRE (min 65535 d.aPre) x.ix) (x := x) d time
      (by simpa [NoneWaits] using free)
    exact ⟨by rw [aPre]; simp, accepted⟩
  · exact .onStr rfl present (State.missedSam_effect sync predicted free)
  · exact .onStr rfl present (State.wedgeBoundary_aPre aPre runs)
  · exact .onStr rfl present (State.demodLatch_of_missed readers runs missed)

end Sys2Proof.Machine

/-! PROOF. Proofs/Control.lean: the control engine's events, the skew average, loading and retracting (R52 to R55, R95 to R112). -/
namespace Sys2Proof.Machine

/-! ### A retract starts, and a String is lost (R108, R431) -/

theorem State.startRetract_state (s : State) (x : Str) (cause : RetractCause) : (s.startRetract x cause).rd .SCEx_STAT_STATE x.ix = 5 := by
  have k : Keeps (allBut [.SCEx_STAT_STATE]) everyPart (s.wr .SCEx_STAT_STATE 5 x.ix) (s.startRetract x cause) :=
    State.abortCapture_after (State.aeOff_after (State.modSce_after (.when (State.assertWinh_after (.unflag (.refl _) (by decide))
      (by decide) (by decide)) fun _ h => State.logEvent_after (.flag h (by decide)) (by decide) (by decide)) (by decide) (by decide))
      (by decide) (by decide)) (by decide) (by decide)
  rw [k.rd .SCEx_STAT_STATE _ (by decide)]
  simp

theorem State.requestRetract_state {s : State} {x : Str} (cause : RetractCause) (above : 1 ≤ s.rd .SCEx_STAT_STATE x.ix)
    (below : s.rd .SCEx_STAT_STATE x.ix ≤ 4) : (s.requestRetract x cause).rd .SCEx_STAT_STATE x.ix = 5 := by
  simp only [State.requestRetract, State.sceState, above, below, decide_true, Bool.and_self, State.when_true]
  exact s.startRetract_state x cause

/-- A String that is lost while it retracts goes on retracting. -/
theorem State.stringLost_state {s : State} {x : Str} (retracts : s.rd .SCEx_STAT_STATE x.ix = 5) :
    (s.stringLost x).rd .SCEx_STAT_STATE x.ix = 5 := by
  let u := (((s.flagBit .PWR_STRLOST_LOST x.num).setDegr 0 true).journal (deviceRow 1)).withdrawLost x
  have before : Keeps (allBut [.SCEx_STAT_STATE]) everyPart s u :=
    State.withdrawLost_after (State.journal_after (State.setDegr_after (.flagBit (.refl _) (by decide)) (by decide) (by decide))
      (by decide) (by decide)) (by decide) (by decide)
  have still : u.rd .SCEx_STAT_STATE x.ix = 5 := by rw [before.rd .SCEx_STAT_STATE _ (by decide), retracts]
  have waits : u.requestRetract x .command = u := by simp [State.requestRetract, State.sceState, still]
  change ((u.requestRetract x .command).finishLost x).rd .SCEx_STAT_STATE x.ix = 5
  rw [waits, (State.finishLost_after (.refl _) (Nat.or_self _) (Nat.or_self _)).rd .SCEx_STAT_STATE _ (by decide), still]

theorem State.assertWinh_winh (s : State) (x : Str) : (s.assertWinh x).rd .SCEx_STAT_WINH x.ix = 1 := by
  have k : Keeps (allBut [.SCEx_STAT_WINH]) everyPart (s.flag .SCEx_STAT_WINH x.ix) (s.assertWinh x) :=
    State.closeWriteGate_after (State.refreshInh_after (State.modSce_after (.refl _) (by decide) (by decide)) (by decide) (by decide))
      (by decide) (by decide)
  rw [k.rd .SCEx_STAT_WINH _ (by decide)]
  simp

/-! ### Events of the control engine (R49, R50, R96 to R107) -/

section
variable {s : State} {x : Str}

theorem State.lostWedgeRetract_state (above : 2 ≤ s.sceState x) (below : s.sceState x ≤ 4) (lost : s.rd .SCEx_STAT_LOSTCNT x.ix = 5) :
    (s.lostWedgeRetract x).rd .SCEx_STAT_STATE x.ix = 5 := by
  simp only [State.lostWedgeRetract, above, below, lost, decide_true, BEq.rfl, Bool.and_self, State.when_true]
  generalize s.when _ _ = u
  rw [State.when]
  split
  · exact State.stringLost_state (u.startRetract_state x .lostWedges)
  · exact u.startRetract_state x .lostWedges

theorem State.overrun_effect (done : Nat) (above : 2 ≤ s.sceState x) (below : s.sceState x ≤ 4)
    (first : (s.str.get x).sce.overran = false) (tasks : s.optionalTasks x ≠ []) :
    (s.overrun x done).rd .SCEx_STAT_OVR x.ix = 1 ∧
      (s.overrun x done).rd .SCEx_STAT_OVRCNT x.ix = min 3 (s.rd .SCEx_STAT_OVRCNT x.ix + 1) ∧
      (1 ≤ s.rd .SCEx_STAT_OVRCNT x.ix → (s.overrun x done).rd .SCEx_STAT_WINH x.ix = 1) := by
  let u := (s.at ((s.str.get x).svd.lastSam + 3920)).runOptional x (min done ((s.optionalTasks x).length - 1))
  let n := min 3 (s.rd .SCEx_STAT_OVRCNT x.ix + 1)
  let v := ((u.modSce x fun c => { c with overran := true }).flag .SCEx_STAT_OVR x.ix).wr .SCEx_STAT_OVRCNT n x.ix
  have count : u.rd .SCEx_STAT_OVRCNT x.ix = s.rd .SCEx_STAT_OVRCNT x.ix := by
    rw [(State.runOptional_after (.refl _) (Nat.or_self _) (Nat.or_self _)).rd .SCEx_STAT_OVRCNT _ (by decide), State.at_rd _ _ _ (by decide)]
  have run : s.overrun x done = v.when (decide (2 ≤ n)) fun s => s.assertWinh x := by
    have some : 0 < (s.optionalTasks x).length := List.length_pos_of_ne_nil tasks
    simp only [State.overrun, above, below, first, some, decide_true, Bool.not_false, Bool.and_self, State.when_true]
    simp only [v, n, ← count]
    rfl
  have k : Keeps (allBut [.SCEx_STAT_OVR, .SCEx_STAT_OVRCNT]) everyPart v (s.overrun x done) := by
    rw [run]
    exact .when (.refl _) fun _ h => State.assertWinh_after h (by decide) (by decide)
  refine ⟨?_, ?_, fun again => ?_⟩
  · rw [k.rd .SCEx_STAT_OVR _ (by decide)]
    simp [v]
  · rw [k.rd .SCEx_STAT_OVRCNT _ (by decide)]
    simp only [v, State.rd_wr_self, Reg.width_SCEx_STAT_OVRCNT]
    omega
  · have two : decide (2 ≤ n) = true := by simp only [n, decide_eq_true_eq]; omega
    rw [run, two, State.when_true, State.assertWinh_winh]

theorem State.fallback_effect (third : s.rd .SCEx_STAT_OVRCNT x.ix = 3) (law : s.rd .SCEx_STAT_FALLBACK x.ix = 0)
    (state : s.sceState x ≠ 5) :
    if s.rd .SCEx_STAT_LOSTCNT x.ix = 5 then (s.fallback x).rd .SCEx_STAT_FB_PEND x.ix = 1
    else (s.fallback x).rd .SCEx_STAT_FALLBACK x.ix = 1 ∧ (s.fallback x).rd .SCEx_STAT_FAULT x.ix = 1 ∧
      (s.fallback x).out = .irq "SCE fault" x.num :: s.out := by
  have acts : (s.rd .SCEx_STAT_OVRCNT x.ix == 3 && !s.isSet .SCEx_STAT_FALLBACK x.ix && s.sceState x != 5) = true := by
    simp [State.isSet, third, law, state]
  rw [State.fallback, acts, State.when_true]
  split <;> simp [State.refreshCyc]

theorem State.actuatorOutput_ovrCnt (above : 2 ≤ s.sceState x) (below : s.sceState x ≤ 4)
    (lost : s.rd .SCEx_STAT_LOSTCNT x.ix ≠ 5) (done : (s.str.get x).sce.overran = false) :
    (s.actuatorOutput x).rd .SCEx_STAT_OVRCNT x.ix = 0 := by
  have state : s.sceState x ≠ 5 := by omega
  have runs : ¬(decide (s.sceState x < 2) ||
      decide ((s.at ((s.str.get x).svd.lastSam + 4000)).rd .SCEx_STAT_LOSTCNT x.ix = 5)) = true := by
    rw [State.at_rd _ _ _ (by decide)]
    simp [lost, Nat.lt_of_succ_le above]
  simp only [State.actuatorOutput, if_neg state, if_neg runs, State.at_str, done, Bool.false_eq_true, if_false]
  rw [(State.broadcast_after (.refl _) (Nat.or_self _) (Nat.or_self _)).rd .SCEx_STAT_OVRCNT _ (by decide), State.rd_unflag_self]

theorem State.couplingStale_effect {y : Str} (present : s.present y = true) (silent : 2 ≤ (s.str.get x).sce.quiet.get y) :
    ((s.couplingStale x y).rd .SCEx_STAT_CPL_STALE x.ix).testBit y.num = true ∧ ((s.couplingStale x y).str.get x).sce.taken.get y = [] := by
  have four : y.num < Reg.SCEx_STAT_CPL_STALE.row.width := Str.num_lt y
  rw [State.couplingStale, silent |> decide_eq_true, present, Bool.and_self, State.when_true]
  exact ⟨by rw [State.testBit_flagBit _ _ _ _ _ four, if_pos rfl], by simp [State.flagBit]⟩

theorem State.settleTimeout_effect (settling : s.sceState x = 3)
    (limit : s.rd .SCEx_RET_SETTLE_MAX x.ix ≤ (s.str.get x).sce.settleFrets) : (s.settleTimeout x).rd .SCEx_STAT_SEEK_TO x.ix = 1 := by
  simp [State.settleTimeout, settling, limit]

end

/-- Settles O13. -/
theorem controlEngineEffects : Obligations.ControlEngineEffects := by
  refine ⟨fun s x present above below lost => ?_, fun s o present above below first tasks => ?_,
    fun s x present third law state => ?_, fun s x time present sam above below lost done => ?_,
    fun s x y present other silent => ?_, fun s x present settling limit => ?_⟩
  · exact .onStr rfl present (State.lostWedgeRetract_state above below lost)
  · exact .onStr rfl present (State.overrun_effect _ above below first tasks)
  · exact .onStr rfl present (State.fallback_effect third law state)
  · refine .onStr rfl present ?_
    rw [beq_iff_eq.2 sam, State.when_true]
    exact State.actuatorOutput_ovrCnt above below lost done
  · exact .onStr rfl present (State.couplingStale_effect other silent)
  · exact .onStr rfl present (State.settleTimeout_effect settling limit)

/-! ### The skew average (R52 to R55) -/

section
variable {s : State} {x : Str}

theorem State.publishSkew_skew (s : State) (x : Str) (v : Nat) : (s.publishSkew x v).skewOf x = v % revUnits := by
  have under : v % revUnits < revUnits := Nat.mod_lt _ (by decide)
  have wedge : v % revUnits / 65536 < 512 := by simp only [revUnits] at *; omega
  simp [State.skewOf, State.publishSkew, Nat.mod_eq_of_lt wedge]
  omega

theorem State.skewAverageEnd_effect (enough : 64 ≤ (s.str.get x).skew.revs) (synced : s.synced x = true) :
    ((s.skewAverageEnd x).rd .FRET_STAT_VALID 0).testBit x.num = true ∧
      (s.skewAverageEnd x).skewOf x = (((s.str.get x).skew.base + roundDiv (s.str.get x).skew.sum 64) % 31457280).toNat := by
  let mean := ((((s.str.get x).skew.base : Int) + roundDiv (s.str.get x).skew.sum 64) % (revUnits : Int)).toNat
  let u := s.when (decide (s.rd .FRET_CTRL_DRIFT_TOL < (shortWay mean (s.skewOf x)).natAbs)) fun s => s.flagBit .FRET_STAT_DRIFT x.num
  have acts : ¬(decide ((s.str.get x).skew.revs < 64) || !s.synced x) = true := by simpa [synced] using enough
  have k : Keeps (allBut [.FRET_STAT_VALID, .FRET_SKEW_WEDGE, .FRET_SKEW_FRAC]) everyPart
      ((u.publishSkew x mean).flagBit .FRET_STAT_VALID x.num) (s.skewAverageEnd x) := by
    simp only [State.skewAverageEnd, if_neg acts]
    split
    · exact .when (State.modSkew_after (.refl _) (by decide) (by decide)) fun _ h => State.setReference_after h (by decide) (by decide)
    · exact State.setReference_after (State.modSkew_after (.refl _) (by decide) (by decide)) (by decide) (by decide)
  have four : x.num < Reg.FRET_STAT_VALID.row.width := Str.num_lt x
  refine ⟨?_, ?_⟩
  · rw [k.rd .FRET_STAT_VALID _ (by decide), State.testBit_flagBit _ _ _ _ _ four, if_pos rfl]
  · rw [State.skewOf, k.rd .FRET_SKEW_WEDGE _ (by decide), k.rd .FRET_SKEW_FRAC _ (by decide)]
    have shown := u.publishSkew_skew x mean
    rw [State.skewOf] at shown
    simp only [State.rd_flagBit_ne, ne_eq, reduceCtorEq, not_false_eq_true, shown]
    simp only [mean, revUnits]
    omega

theorem State.remeasure_valid {mask : Nat} (named : mask.testBit x.num = true) (present : s.present x = true) :
    ((s.remeasure mask).rd .FRET_STAT_VALID 0).testBit x.num = false := by
  have four : x.num < Reg.FRET_STAT_VALID.row.width := Str.num_lt x
  refine foldl_reaches (P := fun u => u.present x = true) (Q := fun u => (u.rd .FRET_STAT_VALID 0).testBit x.num = false) (Str.mem_all x)
    present (fun u y => ?_) (fun u here => ?_) fun u y clear => ?_
  · intro here
    rw [State.present] at here ⊢
    rwa [(Keeps.when (.refl u) fun _ h => .unflagBit (State.modSkew_after h (Nat.zero_or _) (by decide)) (by decide) :
      Keeps (allBut [.LC_VAR_VARIANT]) everyPart u _).rd .LC_VAR_VARIANT _ (by decide)]
  · simp only [named, here, Bool.and_self, State.when_true, State.testBit_unflagBit _ _ _ _ _ four, if_true]
  · simp only [State.when]
    split
    · simp [State.testBit_unflagBit _ _ _ _ _ four, clear]
    · exact clear

end

/-- Settles O14. -/
theorem fretTimingEffects : Obligations.FretTimingEffects := by
  refine ⟨fun s x present enough synced => ?_, fun s mask x named present => ?_⟩
  · exact .onStr rfl present (State.skewAverageEnd_effect enough synced)
  · exact ⟨_, rfl, State.remeasure_valid named present⟩

/-! ### Loading, banks and targets (R26, R98, R110) -/

section
variable {s : State} {x : Str}

theorem State.sceLoad_effect (unloaded : s.rd .SCEx_STAT_STATE x.ix = 0) (speed : s.rd .SPE_STAT_ATSPD = 1)
    (heads : s.eff .SCEx_HEADS_HEADS x.ix ≠ 0) (own : s.tableValid x (s.rd .SCEx_STAT_ACTBANK x.ix) = true)
    (shared : s.tableValid x 2 = true) :
    let t := (s.sceLoad x).2
    t.rd .SCEx_STAT_STATE x.ix = 1 ∧ t.rd .SCEx_STAT_LOOP_OPEN x.ix = 0 ∧ t.rd .SCEx_STAT_LOSTCNT x.ix = 0 ∧
      t.rd .SCEx_STAT_OVRCNT x.ix = 0 ∧ t.rd .SCEx_LOSTTOT_COUNT x.ix = 0 := by
  have k (u : State) : Keeps (allBut [.SCEx_STAT_STATE, .SCEx_STAT_LOOP_OPEN, .SCEx_STAT_LOSTCNT, .SCEx_STAT_OVRCNT,
      .SCEx_LOSTTOT_COUNT]) everyPart u ((((u.refreshCyc x).assertWinh x).svdSearch x).aeLoad x) :=
    State.aeLoad_after (State.svdSearch_after (State.assertWinh_after (State.refreshCyc_after (.refl _) (by decide) (by decide))
      (by decide) (by decide)) (by decide) (by decide)) (by decide) (by decide)
  have state : ¬(s.sceState x != 0) = true := by simp [State.sceState, unloaded]
  have turns : ¬(!s.isSet .SPE_STAT_ATSPD) = true := by simp [State.isSet, speed]
  have tables : ¬(!(s.tableValid x (s.rd .SCEx_STAT_ACTBANK x.ix) && s.tableValid x 2)) = true := by simp [own, shared]
  simp only [State.sceLoad, if_neg state, if_neg turns, if_neg heads, if_neg tables]
  simp only [(k _).rd .SCEx_STAT_STATE _ (by decide), (k _).rd .SCEx_STAT_LOOP_OPEN _ (by decide),
      (k _).rd .SCEx_STAT_LOSTCNT _ (by decide), (k _).rd .SCEx_STAT_OVRCNT _ (by decide),
    (k _).rd .SCEx_LOSTTOT_COUNT _ (by decide)]
  simp

theorem State.bankSwitch_effect (opened : s.rd .SCEx_STAT_LOOP_OPEN x.ix = 1)
    (valid : s.tableValid x (1 - s.rd .SCEx_STAT_ACTBANK x.ix) = true) :
    let t := (s.bankSwitch x).2
    t.rd .SCEx_STAT_ACTBANK x.ix = 1 - s.rd .SCEx_STAT_ACTBANK x.ix ∧ t.rd .SCEx_STAT_FALLBACK x.ix = 0 ∧
      t.rd .SCEx_STAT_FB_PEND x.ix = 0 := by
  simp [State.bankSwitch, State.isSet, opened, valid, State.refreshCyc]

theorem State.postTarget_effect (v : Nat) :
    let t := s.postTarget x (some v) none
    t.rd .SCEx_TGT_SHADOW_PEND x.ix = 1 ∧ t.coming .SCEx_TARGET_TRACK x.ix = v % 2 ^ 24 ∧
      t.coming .SCEx_TARGET_HEAD x.ix = v / 2 ^ 24 % 8 := by
  simp [State.postTarget, State.coming, State.shadowOf, State.shadowWr]

theorem State.loadTimeout_effect (loads : s.rd .SCEx_STAT_STATE x.ix = 1) :
    (s.loadTimeout x).rd .SCEx_STAT_STATE x.ix = 5 ∧ (s.loadTimeout x).rd .SCEx_STAT_LOAD_FAIL x.ix = 1 := by
  simp only [State.loadTimeout, State.sceState, loads, BEq.rfl, State.when_true]
  generalize fails : ((s.flag .SCEx_STAT_LOAD_FAIL x.ix).startRetract x .planned).modStr x _ = u
  have state : u.rd .SCEx_STAT_STATE x.ix = 5 := by rw [← fails, State.modStr_rd, State.startRetract_state]
  have flagged : u.rd .SCEx_STAT_LOAD_FAIL x.ix = 1 := by
    rw [← fails, State.modStr_rd, (State.startRetract_after (.refl _) (Nat.or_self _) (Nat.or_self _)).rd .SCEx_STAT_LOAD_FAIL _ (by decide)]
    simp
  rw [State.when]
  split
  · exact ⟨State.stringLost_state state,
      by rw [(State.stringLost_after (.refl _) (Nat.or_self _) (Nat.or_self _)).rd .SCEx_STAT_LOAD_FAIL _ (by decide), flagged]⟩
  · exact ⟨state, flagged⟩

theorem State.rampEnd_effect (retracts : s.rd .SCEx_STAT_STATE x.ix = 5) (ramp : (s.str.get x).sce.step = .ramp)
    (done : 8 ≤ (s.str.get x).sce.rampFrets) (commanded : (s.str.get x).sce.emergency = false) :
    (s.rampEnd x).rd .SCEx_MACMD_S31 x.ix = 0 ∧ ((s.rampEnd x).str.get x).sce.step = .velocity := by
  simp [State.rampEnd, State.sceState, retracts, ramp, done, commanded]

theorem State.retractParked_effect (retracts : s.rd .SCEx_STAT_STATE x.ix = 5) (velocity : (s.str.get x).sce.step = .velocity)
    (slow : 313 ≤ (s.str.get x).sce.slowTicks ∨ s.rd .SCEx_RET_RET_MS x.ix * 2000 ≤ (s.str.get x).sce.loopTicks * 16) :
    ((s.retractParked x).str.get x).sce.step = .hold := by
  have done : (decide (313 ≤ (s.str.get x).sce.slowTicks) ||
      decide (s.rd .SCEx_RET_RET_MS x.ix * 2000 ≤ (s.str.get x).sce.loopTicks * 16)) = true := by simpa using slow
  simp [State.retractParked, State.sceState, retracts, velocity, done]

theorem State.shock_shock {input level : Nat} (enabled : (if input = 0 then s.rd .SB_CFG1_SHK_EN0 else s.rd .SB_CFG1_SHK_EN1) = 1)
    (above : s.rd .SB_CFG1_SHK_TH < level) : (s.shock input level).rd .SB_STAT_SHOCK = 1 := by
  have on : (if input = 0 then s.isSet .SB_CFG1_SHK_EN0 else s.isSet .SB_CFG1_SHK_EN1) = true := by
    split at enabled <;> simp [State.isSet, *]
  have k (u : State) : Keeps (allBut [.SB_STAT_SHOCK]) everyPart u (Str.all.foldl (fun s x =>
      s.when (s.present x && !(s.str.get x).sce.emergency) fun s => (s.assertWinh x).modSce x fun c => { c with shockHold := true }) u) :=
    .foldl (.refl _) fun _ _ h => h.when fun _ h =>
      State.modSce_after (State.assertWinh_after h (by decide) (by decide)) (by decide) (by decide)
  simp only [State.shock, on, above, decide_true, Bool.and_self, State.when_true]
  rw [(Keeps.when (.refl _) fun v h => h.trans (k v) : Keeps (allBut [.SB_STAT_SHOCK]) everyPart _ _).rd .SB_STAT_SHOCK _ (by decide)]
  simp

end

theorem State.shockHoldEnd_shockHold (s : State) (x : Str) : (s.shockHoldEnd.str.get x).sce.shockHold = false := by
  refine foldl_reaches (P := fun _ => True) (Q := fun u => (u.str.get x).sce.shockHold = false) (Str.mem_all x) trivial
    (fun _ _ h => h) (fun u _ => by simp) fun u y released => ?_
  by_cases same : y = x
  · simp [same]
  · simpa [State.modSce, State.modStr, Quad.get_set_ne _ _ _ (Ne.symm same)] using released

/-! ### The steps of a retract (R108, R434, R435) -/

theorem State.refreshMode_loss (s : State) : s.refreshMode.power.loss = s.power.loss := by
  rw [State.refreshMode, (State.settleRequests_after (.refl _) (Nat.or_self _) (Nat.or_self _)).parts .power rfl]
  simp only [State.nextMode]
  split_ifs <;> rfl

theorem State.setSpeState_loss (s : State) (st : Nat) : (s.setSpeState st).power.loss = s.power.loss := by
  rw [State.setSpeState, State.refreshMode_loss, State.when]
  split <;> rfl

theorem State.speHeadsParked_loss (s : State) : s.speHeadsParked.power.loss = s.power.loss := by
  simp only [State.speHeadsParked, State.when, State.speStopAct, State.speOff]
  split_ifs <;> simp [State.setSpeState_loss]

theorem State.retractLoop_vmLow {s : State} {x : Str} (terminal current : Int) {vm : Nat} (time : Nat)
    (retracts : s.rd .SCEx_STAT_STATE x.ix = 5) (emergency : (s.str.get x).sce.emergency = true)
    (low : vm < s.rd .PWR_RETCFG_VM_RETMIN) : (s.retractLoop x terminal current vm time).power.vmLow = true := by
  have state : ¬ s.sceState x = 1 := by simp [State.sceState, retracts]
  have state' : ¬ (s.sceState x != 5) = true := by simp [State.sceState, retracts]
  simp only [State.retractLoop, if_neg state, if_neg state', emergency, Bool.true_and]
  generalize first : s.when _ (fun s => s.wr .PWR_RETLOG_VM_MIN vm) = u
  have limit : u.rd .PWR_RETCFG_VM_RETMIN = s.rd .PWR_RETCFG_VM_RETMIN := by
    rw [← first, State.when]
    split <;> simp
  simp only [limit, low, decide_true, State.when_true]
  rw [(State.broadcast_after (.refl _) (Nat.or_self _) (Nat.or_self _)).parts .power rfl]
  split
  · rw [(Keeps.when (.refl _) fun _ h => State.rampStep_after h (by decide) (by decide) :
      Keeps (allBut []) (partsBut [.power]) _ _).parts .power rfl]
  · rfl
  · rfl

theorem State.retractHoldEnd_effect {s : State} {x : Str} (retracts : s.rd .SCEx_STAT_STATE x.ix = 5)
    (hold : (s.str.get x).sce.step = .hold) (powered : s.power.loss = none) :
    (s.retractDone x).retractEnd.rd .SCEx_STAT_STATE x.ix = 0 ∧ (s.retractDone x).retractEnd.rd .SCEx_VCMCMD_S30 x.ix = 0 := by
  let u := ((s.wr .SCEx_STAT_STATE 0 x.ix).wr .SCEx_VCMCMD_S30 0 x.ix).modSce x fun c =>
    { c with step := .none, emergency := false, sig := c.sig.set 30 0 }
  let v := u.when (s.str.get x).sce.emergency fun s => s.flagBit .PWR_RETLOG_PARKED x.num
  have run : s.retractDone x = ((((v.svdIdle x).aeOff x).speHeadsParked).finishLost x).refreshMode := by
    simp only [State.retractDone, State.sceState, retracts, hold, BEq.rfl, Bool.and_self, State.when_true]
    rfl
  have k : Keeps (allBut [.SCEx_STAT_STATE, .SCEx_VCMCMD_S30]) everyPart u (s.retractDone x) := by
    rw [run]
    exact State.refreshMode_after (State.finishLost_after (State.speHeadsParked_after (State.aeOff_after (State.svdIdle_after
      (.when (.refl _) fun _ h => .flagBit h (by decide)) (by decide) (by decide)) (by decide) (by decide)) (by decide) (by decide))
      (by decide) (by decide)) (by decide) (by decide)
  have still : (s.retractDone x).power.loss = none := by
    have start : v.power.loss = none := by
      simp only [v, State.when]
      split <;> exact powered
    rw [run, State.refreshMode_loss, (State.finishLost_after (.refl _) (Nat.or_self _) (Nat.or_self _)).parts .power rfl,
      State.speHeadsParked_loss, (State.aeOff_after (State.svdIdle_after (.refl _) (by decide) (by decide)) (by decide) (by decide) :
        Keeps everyReg (partsBut [.power]) v _).parts .power rfl, start]
  have stays : (s.retractDone x).retractEnd = s.retractDone x := by
    simp [State.retractEnd, State.retractOver, still]
  rw [stays, k.rd .SCEx_STAT_STATE _ (by decide), k.rd .SCEx_VCMCMD_S30 _ (by decide)]
  simp [u]

/-- Settles O17. -/
theorem loadAndRetractEffects : Obligations.LoadAndRetractEffects := by
  refine ⟨fun s x present unloaded speed heads own shared => ?_, fun s x present above below => ?_, fun s x present above below => ?_,
    fun s x present opened two valid => ?_, fun s x v present => ?_, fun s x present loads few => ?_, fun s x present state => ?_,
    fun s x present retracts ramp done commanded => ?_, fun s x terminal current vm time present retracts emergency low => ?_,
    fun s x present retracts velocity slow => ?_, fun s x present retracts hold powered => ?_,
    fun s input level enabled above => ?_, fun s => ?_⟩
  · exact .onStr rfl present (State.sceLoad_effect unloaded speed heads own shared)
  · exact .onStr rfl present (State.requestRetract_state _ above below)
  · exact .onStr rfl present (State.requestRetract_state _ above below)
  · exact .onStr rfl present (State.bankSwitch_effect opened valid)
  · exact .onStr rfl present (State.postTarget_effect v)
  · exact .onStr rfl present (State.loadTimeout_effect loads)
  · refine .onStr rfl present ?_
    rcases state with state | state <;> simp [State.loopOpen, State.sceState, state]
  · exact .onStr rfl present (State.rampEnd_effect retracts ramp done commanded)
  · refine .onStr rfl present (State.retractLoop_vmLow terminal current time ?_ ?_ ?_)
    · rwa [State.at_rd _ _ _ (by decide)]
    · rwa [State.at_str]
    · rwa [State.at_rd _ _ _ (by decide)]
  · exact .onStr rfl present (State.retractParked_effect retracts velocity slow)
  · exact .onStr rfl present (State.retractHoldEnd_effect retracts hold powered)
  · exact ⟨_, rfl, State.shock_shock enabled above⟩
  · exact ⟨_, rfl, s.shockHoldEnd_shockHold⟩

end Sys2Proof.Machine

/-! PROOF. Proofs/Capo.lean: the Capo unit (R56 to R64, R497, R504). -/
namespace Sys2Proof.Machine

/-! ### Changes of state (R61, R62) -/

section
variable (s : State)

theorem State.enterCapo_state (st : Nat) :
    (s.enterCapo st).rd .CAPO_STAT_STATE = st % 8 ∧ (s.enterCapo st).rd .CAPO_STAT_SLEW = boolNat (st == 2) := by
  have k : Keeps (allBut [.CAPO_STAT_STATE, .CAPO_STAT_SLEW]) everyPart (s.setCapoState st) (s.enterCapo st) :=
    .when (.refl _) fun _ h => State.suspendDeadlines_after h (by decide) (by decide)
  rw [k.rd .CAPO_STAT_STATE _ (by decide), k.rd .CAPO_STAT_SLEW _ (by decide)]
  simp [State.setCapoState]

theorem State.enterCapo_capo (st : Nat) : (s.enterCapo st).capo = s.capo :=
  (State.enterCapo_after (.refl _) (Nat.or_self _) (Nat.or_self _)).parts .capo rfl

theorem State.enterSlewing_state : s.enterSlewing.rd .CAPO_STAT_STATE = 2 := by
  rw [State.enterSlewing, State.modCapo_rd, (State.capoInhibitAll_after (.refl _) (Nat.or_self _) (Nat.or_self _)).rd .CAPO_STAT_STATE _ (by decide),
    (s.enterCapo_state 2).1]

theorem State.holdLocked_eq (why : Reg) :
    s.holdLocked why = ((s.flag why).modCapo fun c => { c with fromLocked := true }).setCapoState 4 := rfl

/-- Releasing the inhibits leaves the generator as it was. -/
theorem State.capoReleaseAll_generator : s.capoReleaseAll.capo.v = s.capo.v ∧ s.capoReleaseAll.capo.a = s.capo.a := by
  simp [State.capoReleaseAll, State.capoWinh, Str.all, State.releaseCapoInhibit, State.refreshInh]

theorem State.capoArm_effect {s : State} (off : s.rd .CAPO_STAT_STATE = 0) (speed : s.rd .SPE_STAT_ATSPD = 1)
    (input : s.rd .CAPO_CTRL_SRC < 2) (whole : (wedgesPerFrame s.capoM s.capoN s.capoFdiv).isSome = true) :
    s.capoArm.2.rd .CAPO_STAT_STATE = 1 ∧ s.capoArm.2.rd .CAPO_FRAMECNT_COUNT = 0 ∧ s.capoArm.2.rd .CAPO_GLITCHCNT_COUNT = 0 := by
  have state : ¬(s.capoState != 0) = true := by simp [State.capoState, off]
  have turns : ¬(!s.isSet .SPE_STAT_ATSPD) = true := by simp [State.isSet, speed]
  have legal : ¬(decide (s.rd .CAPO_CTRL_SRC ≥ 2) || (wedgesPerFrame s.capoM s.capoN s.capoFdiv).isNone) = true := by
    simp [Option.isSome_iff_ne_none.1 whole, input]
  simp only [State.capoArm, if_neg state, if_neg turns, if_neg legal]
  simp [State.setCapoState, State.restartMeasure]

theorem State.capoDisarm_effect {s : State} (on : s.rd .CAPO_STAT_STATE ≠ 0) :
    s.capoDisarm.rd .CAPO_STAT_STATE = 0 ∧ s.capoDisarm.rd .CAPO_STAT_SLEW = 0 := by
  have acts : (s.capoState != 0) = true := by simp [State.capoState, on]
  have k : Keeps (allBut [.CAPO_STAT_STATE, .CAPO_STAT_SLEW]) everyPart (s.enterCapo 0) s.capoDisarm := by
    rw [State.capoDisarm, acts, State.when_true]
    exact .when (State.loadSetpt_after (State.modCapo_after (.refl _) (by decide) (by decide)) (by decide) (by decide)) fun _ h =>
      State.capoReleaseAll_after (.with_capo h (by decide)) (by decide) (by decide)
  rw [k.rd .CAPO_STAT_STATE _ (by decide), k.rd .CAPO_STAT_SLEW _ (by decide), (s.enterCapo_state 0).1, (s.enterCapo_state 0).2]
  simp

/-! ### Edges and frames (R56, R58, R497) -/

theorem State.frameEdge_count (t : Nat) : (s.frameEdge t).rd .CAPO_FRAMECNT_COUNT = (s.rd .CAPO_FRAMECNT_COUNT + 1) % 2 ^ 32 := by
  have k : Keeps (allBut [.CAPO_FRAMECNT_COUNT]) everyPart (s.wrapInc .CAPO_FRAMECNT_COUNT) (s.frameEdge t) := by
    unfold State.frameEdge
    exact .when (.when (State.modCapo_after (.refl _) (by decide) (by decide)) fun _ h => State.countFrame_after h (by decide) (by decide))
      fun _ h => .when (.wr h (by decide)) fun _ h => State.modCapo_after h (by decide) (by decide)
  rw [k.rd .CAPO_FRAMECNT_COUNT _ (by decide), State.rd_wrapInc_self, Reg.width_CAPO_FRAMECNT_COUNT]

/-- The boundary of the ratio changes the frame count only by a write of it that waits. -/
theorem State.ratioBoundary_count {s : State} (free : ∀ e ∈ s.shadow, e.reg ≠ .CAPO_FRAMECNT_COUNT) :
    s.ratioBoundary.rd .CAPO_FRAMECNT_COUNT = s.rd .CAPO_FRAMECNT_COUNT := by
  have k (u t : State) (same : Keeps (allBut [.CAPO_FRAMECNT_COUNT]) everyPart u t) :
      t.rd .CAPO_FRAMECNT_COUNT = u.rd .CAPO_FRAMECNT_COUNT := same.rd .CAPO_FRAMECNT_COUNT 0 (by decide)
  simp only [State.ratioBoundary]
  split
  · rfl
  · split
    · simp
    · rw [← State.rd_boundary free .capo 0 0]
      refine k _ _ ?_
      split
      · exact State.restartMeasure_after (.refl _) (by decide) (by decide)
      · exact .ite (fun _ => .refl _) fun _ => .ite
          (fun _ => State.enterSlewing_after (.wr (.refl _) (by decide)) (by decide) (by decide))
          fun _ => State.holdLocked_after (.refl _) (by decide) (by decide)
      · exact .refl _

theorem State.capoEdge_first {s : State} (t : Nat) (measures : s.rd .CAPO_STAT_STATE = 1) (first : s.capo.haveEdge = false)
    (frame : s.capo.framed = false) (free : ∀ e ∈ s.shadow, e.reg ≠ .CAPO_FRAMECNT_COUNT) :
    (s.capoEdge t).rd .CAPO_FRAMECNT_COUNT = (s.rd .CAPO_FRAMECNT_COUNT + 1) % 2 ^ 32 := by
  let u := s.modCapo fun c => { c with haveEdge := true, lastEdge := t }
  have run : s.capoEdge t = (u.frameEdge t).ratioBoundary := by
    simp [State.capoEdge, State.capoState, measures, first, u, frame]
  have shadow : (u.frameEdge t).shadow = s.shadow :=
    (State.frameEdge_after (.refl u) (Nat.or_self _) (Nat.or_self _)).parts .shadow rfl
  rw [run, State.ratioBoundary_count (shadow ▸ free), State.frameEdge_count]
  rfl

theorem State.capoPredicted_count {s : State} (on : s.rd .CAPO_STAT_STATE ≠ 0) (follows : s.rd .CAPO_STAT_STATE ≠ 4)
    (edge : s.capo.haveEdge = true) (period : s.capo.refPeriod ≠ 0)
    (ahead : s.capoFdiv * (s.capo.predictedFrames + 1) - s.capo.frameRef ≤ 4) :
    (s.capoPredicted (s.capo.lastEdge + (s.capoFdiv * (s.capo.predictedFrames + 1) - s.capo.frameRef) * s.capo.refPeriod)).rd
      .CAPO_FRAMECNT_COUNT = (s.rd .CAPO_FRAMECNT_COUNT + 1) % 2 ^ 32 := by
  have waits : (s.capo.refPeriod != 0) = true := by simpa using period
  simp only [State.capoPredicted, State.capoState, if_neg on, if_neg follows, BEq.rfl, edge, waits, ahead, decide_true,
    Bool.and_self, State.when_true]
  rw [State.frameEdge_count, State.modCapo_rd, State.at_rd _ _ _ (by decide)]

theorem State.capoLost_effect {s : State} (above : 1 ≤ s.rd .CAPO_STAT_STATE) (below : s.rd .CAPO_STAT_STATE ≤ 3)
    (edge : s.capo.haveEdge = true) (period : s.capo.refPeriod ≠ 0) :
    s.capoLost.rd .CAPO_STAT_LOSS = 1 ∧ s.capoLost.capo.haveEdge = false ∧
      s.capoLost.rd .CAPO_STAT_STATE = if s.rd .CAPO_STAT_STATE = 1 then 1 else 4 := by
  have acts : ¬(decide (s.capoState = 0) || decide (s.capoState = 4) || !s.capo.haveEdge || decide (s.capo.refPeriod = 0)) = true := by
    have on : s.rd .CAPO_STAT_STATE ≠ 0 := by omega
    have follows : s.rd .CAPO_STAT_STATE ≠ 4 := by omega
    simp [State.capoState, edge, period, on, follows]
  simp only [State.capoLost, if_neg acts]
  generalize lost : (s.at (s.capo.lastEdge + 81 * s.capo.refPeriod / 20)).modCapo _ = u
  have edge' : u.capo.haveEdge = false := by rw [← lost, State.modCapo_capo]
  have state : u.rd .CAPO_STAT_STATE = s.rd .CAPO_STAT_STATE := by rw [← lost, State.modCapo_rd, State.at_rd _ _ _ (by decide)]
  have states : s.rd .CAPO_STAT_STATE = 1 ∨ s.rd .CAPO_STAT_STATE = 2 ∨ s.rd .CAPO_STAT_STATE = 3 := by omega
  rcases states with st | st | st
  · simp [State.capoState, st, State.restartMeasure, edge', state]
  · simp [State.capoState, st, State.restartMeasure, edge', ((u.flag .CAPO_STAT_LOSS).enterCapo_state 4).1, State.enterCapo_capo,
      (State.enterCapo_after (.refl _) (Nat.or_self _) (Nat.or_self _)).rd .CAPO_STAT_LOSS _ (by decide)]
  · simp [State.capoState, st, State.holdLocked_eq, State.setCapoState, State.restartMeasure, edge']

/-! ### Measuring, slewing, lock and holdover (R57, R59, R62) -/

theorem State.capoMeasureDone_effect {s : State} (measures : s.rd .CAPO_STAT_STATE = 1) (count : 4 ≤ s.capo.measCount)
    (span : 8000000 ≤ s.capo.measSum) :
    if targetInRange (targetUhz s.capo.measCount s.capo.measSum s.capoM s.capoN) = true then
      s.capoMeasureDone.rd .CAPO_STAT_STATE = 2 ∧
        s.capoMeasureDone.rd .CAPO_TARGET_UHZ = targetUhz s.capo.measCount s.capo.measSum s.capoM s.capoN % 2 ^ 32
    else s.capoMeasureDone.rd .CAPO_STAT_STATE = 1 ∧ s.capoMeasureDone.rd .CAPO_STAT_RANGE = 1 := by
  have acts : ¬(decide (s.capoState ≠ 1) || decide (s.capo.measCount < 4) || decide (s.capo.measSum < 8000000)) = true := by
    simp [State.capoState, measures, count, span]
  simp only [State.capoMeasureDone, if_neg acts]
  split
  · refine ⟨State.enterSlewing_state _, ?_⟩
    rw [(State.enterSlewing_after (.refl _) (Nat.or_self _) (Nat.or_self _)).rd .CAPO_TARGET_UHZ _ (by decide), State.rd_wr_self,
      Reg.width_CAPO_TARGET_UHZ]
  · simp [State.restartMeasure, measures]

theorem State.capoStep_coasts {s : State} (offset tracking : Int) (measures : s.rd .CAPO_STAT_STATE = 1)
    (coasts : s.capo.coasting = true) :
    ((s.capoStep offset tracking).capo.v, (s.capoStep offset tracking).capo.a) = generatorCoast s.capo.v s.capo.a := by
  have event : s.capoStepEvent tracking = s := by simp [State.capoStepEvent, State.capoState, measures]
  simp only [State.capoStep, event, State.capoState, measures, coasts, Bool.not_true, Bool.false_and, Bool.false_eq_true, if_false,
    Bool.true_and]
  generalize generatorCoast s.capo.v s.capo.a = step
  have released (u : State) (b : Bool) : (u.when b State.capoReleaseAll).capo.v = u.capo.v ∧
      (u.when b State.capoReleaseAll).capo.a = u.capo.a := by
    cases b
    · exact ⟨rfl, rfl⟩
    · exact u.capoReleaseAll_generator
  rw [(released _ _).1, (released _ _).2]
  simp

theorem State.capoLocked_state {s : State} (slews : s.rd .CAPO_STAT_STATE = 2) (phase : s.capo.phaseStage = true)
    (frames : 8 ≤ s.capo.lockFrames) : s.capoLocked.rd .CAPO_STAT_STATE = 3 := by
  simp only [State.capoLocked, State.capoState, slews, BEq.rfl, phase, frames, decide_true, Bool.and_self, State.when_true]
  rw [(State.resumeDeadlines_after (.refl _) (Nat.or_self _) (Nat.or_self _)).rd .CAPO_STAT_STATE _ (by decide)]
  simp [State.setCapoState]

theorem State.capoHoldover_effect {s : State} (holds : s.rd .CAPO_STAT_STATE = 4) :
    s.capoHoldover.rd .CAPO_STAT_STATE = 1 ∧ s.capoHoldover.capo.measCount = 0 ∧ s.capoHoldover.capo.periods = [] := by
  simp [State.capoHoldover, State.capoState, holds, State.restartMeasure, (s.enterCapo_state 1).1]

end

/-- Settles O15. -/
theorem capoEffects : Obligations.CapoEffects := by
  refine ⟨fun s off speed input whole => ?_, fun s on => ?_, fun s e source direction crosses first frame measures free => ?_,
    fun s on follows edge period ahead => ?_, fun s above below edge period => ?_, fun s measures count span => ?_,
    fun s offset tracking measures coasts => ?_, fun s slews phase frames => ?_, fun s holds => ?_⟩
  · exact ⟨_, rfl, State.capoArm_effect off speed input whole⟩
  · exact ⟨_, rfl, State.capoDisarm_effect on⟩
  · refine ⟨_, rfl, ?_⟩
    have edge : (s.at e.time).capoInput e = (s.at e.time).capoEdge e.time := by
      have same : (s.at e.time).capoCrosses e.ain e.before e.after = s.capoCrosses e.ain e.before e.after := by simp [State.capoCrosses]
      have falls : (s.at e.time).isSet .CAPO_CTRL_EDGE = s.isSet .CAPO_CTRL_EDGE := by simp [State.isSet]
      simp [State.capoInput, same, crosses, falls, direction, source]
    change ((s.at e.time).capoInput e).rd .CAPO_FRAMECNT_COUNT 0 = _
    rw [edge, State.capoEdge_first e.time, State.at_rd _ _ _ (by decide)]
    · rwa [State.at_rd _ _ _ (by decide)]
    · rwa [State.at_capo]
    · rwa [State.at_capo]
    · simpa using free.ne (by simp)
  · exact ⟨_, rfl, State.capoPredicted_count on follows edge period ahead⟩
  · exact ⟨_, rfl, State.capoLost_effect above below edge period⟩
  · exact ⟨_, rfl, State.capoMeasureDone_effect measures count span⟩
  · exact ⟨_, rfl, State.capoStep_coasts offset tracking measures coasts⟩
  · exact ⟨_, rfl, State.capoLocked_state slews phase frames⟩
  · exact ⟨_, rfl, State.capoHoldover_effect holds⟩

end Sys2Proof.Machine

/-! PROOF. Proofs/Spindle.lean: the spindle's commands and events (R65 to R89). -/
namespace Sys2Proof.Machine

theorem ofSigned_lt (w : Nat) (v : Int) : ofSigned w v < 2 ^ w := by
  have positive : (0 : Int) < (2 ^ w : Nat) := by exact_mod_cast Nat.two_pow_pos w
  have under := Int.emod_lt_of_pos v positive
  rw [ofSigned]
  omega

/-! ### STATE (R87, R430) -/

section
variable (s : State)

@[simp] theorem State.setSpeState_state (st : Nat) : (s.setSpeState st).rd .SPE_STAT_STATE = st % 16 := by
  have k : Keeps (allBut [.SPE_STAT_STATE]) everyPart (s.wr .SPE_STAT_STATE st) (s.setSpeState st) :=
    State.refreshMode_after (.when (.setTo (.refl _) (by decide)) fun _ h => .unflag h (by decide)) (by decide) (by decide)
  rw [k.rd .SPE_STAT_STATE _ (by decide)]
  simp

@[simp] theorem State.setSpeState_spe (st : Nat) : (s.setSpeState st).spe = s.spe :=
  (State.setSpeState_after (.refl s) (Nat.or_self _) (Nat.or_self _)).parts .spe rfl

theorem State.setSpeState_atSpd {st : Nat} (other : st ≠ 5) : (s.setSpeState st).rd .SPE_STAT_ATSPD = 0 := by
  have leaves : (st != 5) = true := by simpa using other
  rw [State.setSpeState, leaves, State.when_true,
    (State.refreshMode_after (.refl _) (Nat.or_self _) (Nat.or_self _)).rd .SPE_STAT_ATSPD _ (by decide)]
  simp

@[simp] theorem State.speMeasure_state : s.speMeasure.rd .SPE_STAT_STATE = 1 := by simp [State.speMeasure]

@[simp] theorem State.speOff_state : s.speOff.rd .SPE_STAT_STATE = 0 := by simp [State.speOff]

end

/-! ### Starting and stopping (R77 to R79, R86) -/

section
variable {s : State}

theorem State.speStartOp_effect (off : s.rd .SPE_STAT_STATE = 0) (charged : s.spe.vmCharged = true)
    (least : 1 ≤ s.rd .SPE_MOTOR_POLEPAIRS) (most : s.rd .SPE_MOTOR_POLEPAIRS ≤ 8) (free : 32 ∉ s.bench.halted) :
    s.speStartOp.2.rd .SPE_STAT_STATE = 1 ∧ s.speStartOp.2.spe.bridge = .off := by
  have poles : ¬(decide (s.rd .SPE_MOTOR_POLEPAIRS = 0) || decide (s.rd .SPE_MOTOR_POLEPAIRS > 8)) = true := by
    have some : s.rd .SPE_MOTOR_POLEPAIRS ≠ 0 := by omega
    simp [some, most]
  have ready : ¬(!s.spe.vmCharged || s.bench.halted.contains 32) = true := by simp [charged, free]
  simp only [State.speStartOp, State.speState, off, if_neg poles, if_neg ready]
  exact ⟨State.speMeasure_state _, by simp [State.speMeasure]⟩

theorem State.speStopOp_state (running : s.rd .SPE_STAT_STATE ≠ 0) (spins : s.rd .SPE_STAT_STATE ≠ 9)
    (healthy : s.rd .SPE_STAT_STATE ≠ 10) (parked : (Str.all.any s.loaded) = false) (coasts : s.rd .SPE_CTRL_STOPMODE = 0) :
    s.speStopOp.rd .SPE_STAT_STATE = 0 := by
  have act : s.speStopOp = s.speStopAct := by
    rw [State.speStopOp, State.speState]
    split
    · contradiction
    · contradiction
    · contradiction
    · simp [parked]
  simp [act, State.speStopAct, State.isSet, coasts]

theorem State.speFit_effect {f : FitIn} (measures : s.rd .SPE_STAT_STATE = 1) (samples : s.spe.sampling = true)
    (strong : 20000 ≤ f.e) (good : f.residual ≤ 25) (turns : 60000 ≤ f.mrpm.natAbs)
    (caught : 600000 ≤ f.mrpm → s.rd .SPE_CTRL_CATCH_EN = 0) :
    (s.speFit f).rd .SPE_STAT_STATE = 2 ∧ (s.speFit f).rd .SPE_STAT_DIR = boolNat (decide (f.mrpm < 0)) ∧
      (s.speFit f).spe.rejects = 0 ∧ (s.speFit f).spe.locked = true := by
  have acts : ¬(decide (s.speState ≠ 1) || !s.spe.sampling) = true := by simp [State.speState, measures, samples]
  have fits : ¬(decide (20000 ≤ f.e) && decide (25 < f.residual)) = true := by simp [good]
  have moves : ¬(decide (f.e < 20000) || decide (f.mrpm.natAbs < 60000)) = true := by simp [strong, turns]
  simp only [State.speFit, if_neg acts, if_neg fits, if_neg moves]
  rw [if_neg]
  · simp [(State.setSpeState_after (.refl _) (Nat.or_self _) (Nat.or_self _)).rd .SPE_STAT_DIR _ (by decide)]
  · simp [State.isSet]
    exact caught

/-! ### PWM periods and limits (R69 to R76) -/

theorem State.pwmPeriodOp_speed {p : PwmIn} (coasts : s.rd .SPE_STAT_STATE = 7) (tick : p.tick = none) :
    (s.pwmPeriodOp p).rd .SPE_SPEED_MRPM = ofSigned 32 p.mrpm := by
  have k (u : State) (b c : Bool) : Keeps (allBut [.SPE_SPEED_MRPM]) everyPart u
      (((((u.when b fun s => s.lossTest p).pwmTransitions p).pwmCommands p).when c State.pwmDuties).snapPwm) :=
    State.snapPwm_after (.when (State.pwmCommands_after (State.pwmTransitions_after (.when (.refl _) fun _ h =>
      State.lossTest_after h (by decide) (by decide)) (by decide) (by decide)) (by decide) (by decide)) fun _ h =>
      State.pwmDuties_after h (by decide) (by decide)) (by decide) (by decide)
  have state : (s.pwmClamp p).rd .SPE_STAT_STATE = 7 := by
    rw [(State.pwmClamp_after (.refl _) (Nat.or_self _) (Nat.or_self _)).rd .SPE_STAT_STATE _ (by decide), coasts]
  simp only [State.pwmPeriodOp, State.speState, state, tick, (by decide : ¬ 7 = 0), if_false, BEq.rfl, Bool.true_or, State.when_true]
  rw [(k _ _ _).rd .SPE_SPEED_MRPM _ (by decide), State.modSpe_rd, State.rd_wr_self]
  exact Nat.mod_eq_of_lt (ofSigned_lt 32 p.mrpm)

theorem State.boundary_shadow (s : State) (b : Blk) (inst : Nat) :
    (s.boundary b inst).shadow = s.shadow.filter fun e => !(e.reg.row.blk = b && e.idx / 65536 = inst) := by
  have fold (l : List Shadow) (t : State) : (l.foldl (fun s e => s.wr e.reg e.value e.idx) t).shadow = t.shadow :=
    List.foldlRecOn (motive := fun u : State => u.shadow = t.shadow) l _ rfl fun _ same _ _ => same
  exact fold _ _

theorem State.speedLoop_shadow :
    s.speedLoop.shadow = s.shadow.filter fun e => !(e.reg.row.blk = .spe && e.idx / 65536 = 0) := by
  have k : Keeps (allBut []) (partsBut [.shadow]) (s.boundary .spe 0) s.speedLoop := by
    unfold State.speedLoop
    exact .when (.refl _) fun _ h => State.modSpe_after (.when h fun _ h =>
      State.modSpe_after (State.drawn_after h (by decide) (by decide)) (by decide) (by decide)) (by decide) (by decide)
  rw [k.parts .shadow rfl, State.boundary_shadow]

theorem State.speSetptOp_effect {v : Nat} (least : 52800 ≤ v % 65536) (most : v % 65536 ≤ 62400) :
    (s.speSetptOp v).coming .SPE_SETPT_RPM 0 = v % 65536 ∧
      (s.rd .SPE_STAT_STATE = 0 → (s.speSetptOp v).rd .SPE_SETPT_RPM = v % 65536) := by
  have inRange : ¬(decide (v % 65536 < 52800) || decide (62400 < v % 65536)) = true := by simp [least, most]
  simp only [State.speSetptOp, if_neg inRange]
  split
  case isTrue off =>
    refine ⟨?_, fun _ => ?_⟩
    · have free : ((s.shadowDrop .SPE_SETPT_RPM).wr .SPE_SETPT_RPM (v % 65536)).shadowOf .SPE_SETPT_RPM = none :=
        s.shadowOf_shadowDrop .SPE_SETPT_RPM 0
      simp [State.coming, free]
    · simp
  case isFalse on =>
    refine ⟨by simp [State.coming, State.shadowOf, State.shadowWr], fun off => absurd off on⟩

theorem State.vmOver_effect : s.vmOver.spe.clamp = true ∧ (s.spe.excursion = false → s.vmOver.rd .SPE_STAT_REGEN_CLAMP = 1) := by
  refine ⟨by simp [State.vmOver], fun first => by simp [State.vmOver, first]⟩

end

/-! ### Trips, the observer and REACQ (R83, R85) -/

section
variable {s : State}

theorem State.obsLost_effect (runs : s.rd .SPE_STAT_STATE = 5) :
    s.obsLost.rd .SPE_STAT_STATE = 6 ∧ s.obsLost.spe.locked = false ∧ s.obsLost.rd .SPE_STAT_ATSPD = 0 := by
  simp [State.obsLost, State.speState, runs, State.setSpeState_atSpd]

theorem State.speFault_state (spun : s.mode ≠ 2) : s.speFault.rd .SPE_STAT_STATE = 10 := by
  have mode (u : State) : u.spindleInhibitAll.capoSpeFault.mode = u.mode :=
    (State.capoSpeFault_after (State.spindleInhibitAll_after (.refl u) (by decide) (by decide)) (by decide) (by decide) :
      Keeps (allBut [.PWR_STAT_MODE]) everyPart u _).rd .PWR_STAT_MODE 0 (by decide)
  have other : (s.mode == 2) = false := by simpa using spun
  simp only [State.speFault, State.spinFailed, mode]
  change (State.when _ (s.mode == 2 && _ && _) _).rd _ _ = _
  simp [other]

theorem State.ocTrip_effect (time : Nat) :
    (s.ocTrip time).rd .SPE_STAT_OC_TRIP = 1 ∧
    (2 ≤ (s.spe.ocTrips.filter fun u => decide (time < u + 800000000)).length → s.rd .SPE_STAT_STATE ≠ 0 →
      s.rd .SPE_STAT_STATE ≠ 10 → s.mode ≠ 2 → (s.ocTrip time).rd .SPE_STAT_STATE = 10) ∧
    ((s.spe.ocTrips.filter fun u => decide (time < u + 800000000)).length < 2 → s.rd .SPE_STAT_STATE = 5 →
      (s.ocTrip time).rd .SPE_STAT_STATE = 6) := by
  let u := ((s.at time).flag .SPE_STAT_OC_TRIP).modSpe fun e =>
    { e with ocHold := true, ocTrips := time :: s.spe.ocTrips.filter fun u => decide (time < u + 800000000) }
  have state : u.rd .SPE_STAT_STATE = s.rd .SPE_STAT_STATE := by simp [u]
  have run : s.ocTrip time = if 2 ≤ (s.spe.ocTrips.filter fun u => decide (time < u + 800000000)).length ∧
      s.rd .SPE_STAT_STATE ≠ 0 ∧ s.rd .SPE_STAT_STATE ≠ 10 then u.speFault
    else if s.rd .SPE_STAT_STATE = 5 then u.obsLost else u := by
    simp only [State.ocTrip, State.speState, u]
    simp [and_assoc]
  refine ⟨?_, fun third on healthy spun => ?_, fun few runs => ?_⟩
  · have k : Keeps (allBut [.SPE_STAT_OC_TRIP]) everyPart u (s.ocTrip time) := by
      rw [run]
      exact .ite (fun _ => State.speFault_after (.refl _) (by decide) (by decide)) fun _ =>
        .ite (fun _ => State.obsLost_after (.refl _) (by decide) (by decide)) fun _ => .refl _
    rw [k.rd .SPE_STAT_OC_TRIP _ (by decide)]
    simp [u]
  · rw [run, if_pos ⟨third, on, healthy⟩]
    refine State.speFault_state ?_
    simpa [u, State.mode] using spun
  · rw [run, if_neg (by omega), if_pos runs]
    exact (State.obsLost_effect (state.trans runs)).1

theorem State.zeroCross_effect {angle : Nat} {mrpm : Int} (reacq : s.rd .SPE_STAT_STATE = 6) (free : s.spe.catching = none)
    (second : s.spe.crossings = 1) :
    let t := s.zeroCross true angle mrpm
    t.rd .SPE_STAT_STATE = 5 ∧ t.rd .SPE_STAT_REACQ_OK = 1 ∧ t.rd .SPE_SPEED_MRPM = ofSigned 32 mrpm ∧ t.spe.locked = true := by
  have acts : ¬(decide (s.speState ≠ 6) && decide (s.speState ≠ 7) || s.spe.catching.isSome) = true := by
    simp [State.speState, reacq, free]
  simp only [State.zeroCross, if_neg acts]
  simp [State.speState, reacq, second, (State.setSpeState_after (.refl _) (Nat.or_self _) (Nat.or_self _)).rd .SPE_STAT_REACQ_OK _ (by decide),
    (State.setSpeState_after (.refl _) (Nat.or_self _) (Nat.or_self _)).rd .SPE_SPEED_MRPM _ (by decide)]
  exact ofSigned_lt 32 mrpm

theorem State.coast_effect (reacq : s.rd .SPE_STAT_STATE = 6) :
    s.coast.rd .SPE_STAT_STATE = 7 ∧ s.coast.rd .SPE_STAT_OBS_LOSS = 1 := by
  have k (u : State) (v : Nat) : Keeps (allBut [.SPE_STAT_STATE, .SPE_STAT_OBS_LOSS]) everyPart u
      ((u.spindleInhibitAll.capoSpeFault.shadowDrop .SPE_SETPT_RPM).wr .SPE_SETPT_RPM v) :=
    .wr (State.shadowDrop_after (State.capoSpeFault_after (State.spindleInhibitAll_after (.refl _) (by decide) (by decide))
      (by decide) (by decide)) (by decide) (by decide)) (by decide)
  simp only [State.coast, State.speState, reacq, BEq.rfl, State.when_true]
  rw [(k _ _).rd .SPE_STAT_STATE _ (by decide), (k _ _).rd .SPE_STAT_OBS_LOSS _ (by decide)]
  simp

theorem State.atSpeedOp_effect (runs : s.rd .SPE_STAT_STATE = 5) (within : s.withinTol = true) :
    s.atSpeedOp.rd .SPE_STAT_ATSPD = 1 ∧ s.atSpeedOp.spe.releasing = true := by
  simp only [State.atSpeedOp, State.speState, runs, within, BEq.rfl, Bool.and_self, State.when_true]
  rw [(State.refreshMode_after (.refl _) (Nat.or_self _) (Nat.or_self _)).rd .SPE_STAT_ATSPD _ (by decide),
    (State.refreshMode_after (.refl _) (Nat.or_self _) (Nat.or_self _)).parts .spe rfl]
  simp

end

/-- Settles O16. -/
theorem spindleEffects : Obligations.SpindleEffects := by
  refine ⟨fun s off charged _ least most free => ?_, fun s running spins healthy parked coasts => ?_, fun s measures running => ?_,
    fun s f measures samples strong good turns caught => ?_, fun s measures hold => ?_, fun s aligns => ?_,
    fun s p coasts tick _ => ?_, fun s skips => ?_, fun s goods => ?_, fun s _ _ => ?_, fun s v least most => ?_,
    fun s => ?_, fun s time => ?_, fun s => ?_, fun s lost runs => ?_, fun s angle mrpm reacq free second => ?_,
    fun s reacq => ?_, fun s reacq => ?_, fun s runs within => ?_, fun s => ?_, fun s other => ?_⟩
  · exact ⟨_, rfl, State.speStartOp_effect off charged least most free⟩
  · exact ⟨_, rfl, State.speStopOp_state running spins healthy parked coasts⟩
  · exact ⟨_, rfl, by simp [State.speState, measures, running]⟩
  · exact ⟨_, rfl, State.speFit_effect measures samples strong good turns caught⟩
  · exact ⟨_, rfl, by simp [State.speState, measures, hold, State.speMeasure]⟩
  · exact ⟨_, rfl, by simp [State.speState, aligns]⟩
  · exact ⟨_, rfl, State.pwmPeriodOp_speed coasts tick⟩
  · exact ⟨_, rfl, by simp [skips]⟩
  · exact ⟨_, rfl, by simp [goods]⟩
  · exact ⟨_, rfl, State.speedLoop_shadow⟩
  · exact ⟨_, rfl, State.speSetptOp_effect least most⟩
  · exact ⟨_, rfl, State.vmOver_effect⟩
  · exact ⟨_, rfl, State.ocTrip_effect time⟩
  · exact ⟨_, rfl, rfl⟩
  · have counted : (decide (3 ≤ s.spe.lossRun) || decide (3 ≤ s.spe.lossEmf)) = true := by simpa using lost
    refine ⟨_, rfl, ?_⟩
    rw [counted, State.when_true]
    exact State.obsLost_effect runs
  · exact ⟨_, rfl, State.zeroCross_effect reacq free second⟩
  · exact ⟨_, rfl, by simp [State.reacqFloated, State.speState, reacq]⟩
  · exact ⟨_, rfl, State.coast_effect reacq⟩
  · exact ⟨_, rfl, State.atSpeedOp_effect runs within⟩
  · exact ⟨_, rfl, rfl⟩
  · have runs : (s.speState != 9) = true := by simpa [State.speState] using other
    exact ⟨_, rfl, by simp [runs]⟩

end Sys2Proof.Machine

/-! PROOF. Proofs/Assist.lean: the assist engine and the Nut link (R129 to R150). -/
namespace Sys2Proof.Machine

/-! ### What leaves the assist engine's record of a String alone -/

section
variable (s : State) (x : Str)

@[simp] theorem StringState.setSeq_ae (t : StringState) (q : SeqId) (v : Sequencer) : (t.setSeq q v).ae = t.ae := by cases q <;> rfl

theorem State.feed_ae (q : SeqId) : ((s.feed x q).str.get x).ae = (s.str.get x).ae := by
  let u := s.modSeq x q fun u =>
    { u with queue := u.queue ++ u.returned.take (32 - u.queue.length), returned := u.returned.drop (32 - u.queue.length) }
  have k : Keeps everyReg (partsBut [.str]) u (s.feed x q) :=
    State.steer_after (State.sqRefresh_after (.refl _) (by decide) (by decide)) (by decide) (by decide)
  rw [k.parts .str rfl]
  simp [u]

theorem State.seqIrq_ae (q : SeqId) (n : Nat) : ((s.seqIrq x q n).str.get x).ae = (s.str.get x).ae := by
  simp only [State.seqIrq, State.modSeq_get, StringState.setSeq_ae, State.when]
  split <;> simp

theorem State.withdrawWrites_ae (p : Request → Bool) : ((s.withdrawWrites x p).str.get x).ae = (s.str.get x).ae := by
  simp only [State.withdrawWrites]
  split
  · rfl
  · simp only [State.seqIrq_ae, State.feed_ae]
    rw [(State.giveCells_after (.refl _) (Nat.or_self _) (Nat.or_self _)).parts .str rfl]
    simp only [State.modWrp_get, State.modSeq_get, StringState.setSeq_ae]
    rw [(Keeps.foldl (.refl s) fun _ _ h => State.withdrawPlaces_after h (by decide) (by decide) :
      Keeps everyReg (partsBut [.str]) s _).parts .str rfl]

theorem State.postRequest_ae (q : SeqId) (r : Request) : ((s.postRequest x q r).str.get x).ae = (s.str.get x).ae := by
  simp only [State.postRequest, State.feed_ae, State.modSeq_get, StringState.setSeq_ae, State.when]
  split_ifs <;> simp

theorem State.rewriteSince_ae (head slot : Nat) : ((s.rewriteSince x head slot).str.get x).ae = (s.str.get x).ae := by
  refine List.foldlRecOn (motive := fun u : State => (u.str.get x).ae = (s.str.get x).ae) _ _ rfl fun u same (n, a) _ => ?_
  simp only
  split
  · split
    · rw [State.postRequest_ae]
      exact same
    · exact same
  · exact same

theorem State.assistAbort_ae (wedge slot head cause : Nat) :
    ((s.assistAbort x wedge slot head cause).str.get x).ae = (s.str.get x).ae := by
  simp [State.assistAbort, State.rewriteSince_ae, State.withdrawHead, State.withdrawWrites_ae]

end

/-! ### The assist slot (R139, R145) -/

/-- The slot count and the frame number of a String are in `t` as in `s`. -/
def SlotsKept (x : Str) (s t : State) : Prop :=
  (t.str.get x).ae.slots = (s.str.get x).ae.slots ∧ (t.str.get x).ae.seq = (s.str.get x).ae.seq

section
variable {s t u : State} {x : Str}

theorem SlotsKept.of_ae (h : SlotsKept x s t) (same : (u.str.get x).ae = (t.str.get x).ae) : SlotsKept x s u :=
  ⟨by rw [same, h.1], by rw [same, h.2]⟩

theorem SlotsKept.refl (x : Str) (s : State) : SlotsKept x s s := ⟨rfl, rfl⟩
theorem SlotsKept.wr {r : Reg} {v i : Nat} (h : SlotsKept x s t) : SlotsKept x s (t.wr r v i) := h
theorem SlotsKept.setTo {r : Reg} {b : Bool} {i : Nat} (h : SlotsKept x s t) : SlotsKept x s (t.setTo r b i) := h
theorem SlotsKept.emit {o : Out} (h : SlotsKept x s t) : SlotsKept x s (t.emit o) := h

theorem SlotsKept.modAe {f : Ae → Ae} (h : SlotsKept x s t) (slots : ∀ a, (f a).slots = a.slots) (seq : ∀ a, (f a).seq = a.seq) :
    SlotsKept x s (t.modAe x f) := by
  simp [SlotsKept, slots, seq, h.1, h.2]

theorem SlotsKept.when {b : Bool} {f : State → State} (h : SlotsKept x s t) (k : SlotsKept x s (f t)) : SlotsKept x s (t.when b f) := by
  cases b
  · exact h
  · exact k

theorem SlotsKept.ledgers (h : SlotsKept x s t) (gate : Nat) : SlotsKept x s (t.ledgers x gate) := by
  have one (u : State) (kept : SlotsKept x s u) (head : Nat) : SlotsKept x s (u.ledgerHead x gate head) := by
    unfold State.ledgerHead
    refine .when (.wr (kept.modAe (fun _ => rfl) fun _ => rfl)) (.emit (.wr (kept.modAe (fun _ => rfl) fun _ => rfl)))
  have all (l : List Nat) (u : State) (kept : SlotsKept x s u) : SlotsKept x s (l.foldl (fun s h => s.ledgerHead x gate h) u) :=
    List.foldlRecOn (motive := SlotsKept x s) l _ kept fun u kept head _ => one u kept head
  unfold State.ledgers State.showSoft
  exact .setTo (all _ _ (.modAe h (fun _ => rfl) fun _ => rfl))

theorem SlotsKept.aeBoundary (h : SlotsKept x s t) : SlotsKept x s (t.aeBoundary x) := by
  refine .modAe (h.of_ae ?_) (fun _ => rfl) (fun _ => rfl)
  rw [(State.boundary_after (.refl t) (Nat.or_self _) (Nat.or_self _)).parts .str rfl]

theorem SlotsKept.enterArming (h : SlotsKept x s t) : SlotsKept x s (t.enterArming x) :=
  .modAe (.modAe h.wr (fun _ => rfl) (fun _ => rfl)) (fun _ => rfl) (fun _ => rfl)

theorem SlotsKept.enterRead (h : SlotsKept x s t) : SlotsKept x s (t.enterRead x) :=
  .modAe h.wr (fun _ => rfl) (fun _ => rfl)

theorem SlotsKept.slotEvents (h : SlotsKept x s t) (cap : Option Nat) : SlotsKept x s (t.slotEvents x cap) := by
  unfold State.slotEvents
  generalize start : t.modAe x (fun a => { a with linkDue := none }) = u
  have kept : SlotsKept x s u := start ▸ h.modAe (fun _ => rfl) (fun _ => rfl)
  dsimp only
  split
  · exact kept.of_ae (State.assistAbort_ae ..)
  · exact kept.of_ae (State.assistAbort_ae ..)
  · generalize next : u.modAe x (fun a => { a with headDue := false }) = v
    have kept : SlotsKept x s v := next ▸ kept.modAe (fun _ => rfl) (fun _ => rfl)
    split_ifs
    · exact kept.enterArming
    · exact .enterArming (.modAe kept (fun _ => rfl) fun _ => rfl)
    · exact kept.enterRead
    · exact .wr (.modAe kept (fun _ => rfl) fun _ => rfl)
    · exact .enterRead (.modAe kept (fun _ => rfl) fun _ => rfl)
    · exact kept.modAe (fun _ => rfl) (fun _ => rfl)

theorem SlotsKept.flyAverage (h : SlotsKept x s t) (gate : Nat) : SlotsKept x s (t.flyAverage x gate) := by
  refine h.modAe (fun a => ?_) (fun a => ?_) <;> split <;> rfl

theorem State.sendFrame_ae (f : NutFrame) (en : s.rd .NUTx_CTRL_EN x.ix = 1) :
    ((s.sendFrame x f).str.get x).ae = { (s.str.get x).ae with
      prev := (s.str.get x).ae.last, last := some { f with tries := f.tries + 1 }, seq := ((s.str.get x).ae.seq + 1) % 256
      replyHead := s.rd .AEx_STAT_HEAD x.ix } := by
  simp [State.sendFrame, State.isSet, en]

theorem State.sendUpdate_effect (mode assist heater wc : Nat) :
    ((s.sendUpdate x mode assist heater wc).str.get x).ae.slots = (s.str.get x).ae.slots ∧
      ((s.sendUpdate x mode assist heater wc).str.get x).ae.tdZero = (s.str.get x).ae.tdZero ∧
      (s.rd .NUTx_CTRL_EN x.ix = 1 →
        ((s.sendUpdate x mode assist heater wc).str.get x).ae.seq = ((s.str.get x).ae.seq + 1) % 256) := by
  refine ⟨?_, ?_, fun en => ?_⟩
  · simp only [State.sendUpdate, State.sendFrame, State.when]
    split <;> simp
  · simp only [State.sendUpdate, State.sendFrame, State.when]
    split <;> simp
  · rw [State.sendUpdate, State.sendFrame_ae _ (by simpa using en)]
    simp

/-- The UPDATE of a slot goes out after nothing but flags of its clamps. -/
theorem State.slotUpdate_eq (s : State) (x : Str) (gate fret : Nat) : ∃ (u : State) (mode assist heater wc : Nat), u.str = s.str ∧
    u.rd .NUTx_CTRL_EN x.ix = s.rd .NUTx_CTRL_EN x.ix ∧
    s.slotUpdate x gate fret = (u.modAe x fun a => { a with tdZero := false }).sendUpdate x mode assist heater wc := by
  refine ⟨_, _, _, _, _, ?_, ?_, rfl⟩
  all_goals
    simp only [State.when]
    split_ifs <;> simp

theorem State.assistSlot_effect (gate fret : Nat) (synced : s.synced x = true) :
    let t := s.assistSlot x gate fret
    (t.str.get x).ae.slots = (s.str.get x).ae.slots + 1 ∧ (t.str.get x).ae.tdZero = false ∧
      (s.rd .NUTx_CTRL_EN x.ix = 1 → (t.str.get x).ae.seq = ((s.str.get x).ae.seq + 1) % 256) := by
  let u := (((s.ledgers x gate).aeBoundary x).slotEvents x (s.str.get x).ae.capDue).flyAverage x gate
  have kept : SlotsKept x s u := ((((SlotsKept.refl x s).ledgers gate).aeBoundary).slotEvents _).flyAverage gate
  have enabled : u.rd .NUTx_CTRL_EN x.ix = s.rd .NUTx_CTRL_EN x.ix :=
    (State.flyAverage_after (State.slotEvents_after (State.aeBoundary_after (State.ledgers_after (.refl s) (by decide) (by decide))
      (by decide) (by decide)) (by decide) (by decide)) (by decide) (by decide) : Keeps (allBut [.NUTx_CTRL_EN]) everyPart s u).rd
        .NUTx_CTRL_EN x.ix (by decide)
  obtain ⟨slots, seq⟩ := kept
  let v := u.modAe x fun a =>
    { a with heldFrets := if u.inhibit x then a.heldFrets + 1 else 0, slotHead := u.aeHead x, slots := a.slots + 1 }
  have run : s.assistSlot x gate fret = v.slotUpdate x gate fret := by
    rw [State.assistSlot, synced, State.when_true]
  obtain ⟨w, mode, assist, heater, wc, str, en, sent⟩ := v.slotUpdate_eq x gate fret
  obtain ⟨slots', tdZero, seq'⟩ := State.sendUpdate_effect (s := w.modAe x fun a => { a with tdZero := false }) (x := x) mode assist heater wc
  rw [run, sent]
  refine ⟨?_, ?_, fun on => ?_⟩
  · rw [slots', State.modAe_get, str]
    simp [v, slots]
  · rw [tdZero, State.modAe_get]
  · rw [seq' (by rw [State.modAe_rd, en]; simpa [v, enabled] using on), State.modAe_get, str]
    simp [v, seq]

/-! ### Replies, background frames and the other rows of R145 -/

theorem State.nutReply_effect {reply : Nat} (en : s.rd .NUTx_CTRL_EN x.ix = 1) (first : (s.str.get x).ae.prev = none) :
    (crc8 reply 64 56 0 ≠ reply % 256 →
      (s.nutReply x reply).rd .NUTx_CNT_CRC_ERR x.ix = min 65535 (s.rd .NUTx_CNT_CRC_ERR x.ix + 1)) ∧
    (crc8 reply 64 56 0 = reply % 256 → reply.testBit 59 = false →
      (s.nutReply x reply).rd .NUTx_CNT_NACK x.ix = min 65535 (s.rd .NUTx_CNT_NACK x.ix + 1)) := by
  have on : s.isSet .NUTx_CTRL_EN x.ix = true := by simp [State.isSet, en]
  simp only [State.nutReply, on, State.when_true, first]
  refine ⟨fun bad => ?_, fun good nack => ?_⟩
  · have wrong : (crc8 reply 64 56 0 == reply % 256) = false := by simpa using bad
    simp [wrong]
  · rw [(Keeps.when (.refl _) fun _ h => State.replyData_after h (by decide) (by decide) :
      Keeps (allBut [.NUTx_CNT_NACK]) everyPart _ _).rd .NUTx_CNT_NACK _ (by decide)]
    simp [good, nack]

theorem State.linkFailure_effect (third : 3 ≤ (s.str.get x).ae.unacked) (few : (s.str.get x).health.nutEnables < 3) :
    (s.linkFailure x).rd .AEx_STAT_NUT_FAIL x.ix = 1 ∧ ((s.linkFailure x).str.get x).ae.unacked = 0 ∧
      (s.rd .AEx_STAT_STATE x.ix = 3 →
        ((s.linkFailure x).str.get x).ae.linkDue = some ((s.str.get x).ae.missWedge, (s.str.get x).ae.missSlot)) := by
  have kept : decide (3 ≤ (((s.flag .AEx_STAT_NUT_FAIL x.ix).modAe x fun a => { a with unacked := 0 }).str.get x).health.nutEnables) =
      false := by simpa using few
  simp only [State.linkFailure, third, decide_true, State.when_true, kept, State.when_false]
  refine ⟨?_, ?_, fun armed => ?_⟩
  · simp only [State.when]
    split <;> simp
  · simp only [State.when]
    split <;> simp
  · simp [State.aeState, armed]

theorem State.hotClear_effect {head : Nat} (cool : s.rd .AEx_H_HSTAT_TEMP (x.ix head) + 10 < s.rd (htLim x)) :
    ((s.hotClear x head).str.get x).ae.hot = (s.str.get x).ae.hot.set head false := by
  simp [State.hotClear, cool]

theorem State.backgroundFrame_effect {f : NutFrame} {later : List NutFrame} (en : s.rd .NUTx_CTRL_EN x.ix = 1)
    (queue : (s.str.get x).ae.idleQueue = f :: later) :
    let t := s.backgroundFrame x
    (t.str.get x).ae.idleQueue = later ∧ (t.str.get x).ae.last = some { f with tries := f.tries + 1 } ∧
      (t.str.get x).ae.seq = ((s.str.get x).ae.seq + 1) % 256 := by
  have on : ¬(!s.isSet .NUTx_CTRL_EN x.ix) = true := by simp [State.isSet, en]
  simp only [State.backgroundFrame, if_neg on, queue]
  rw [State.sendFrame_ae _ (by simpa using en)]
  simp

theorem State.bgGo_effect (idle : s.rd .NUTx_STAT_BG_BUSY x.ix = 0) (en : s.rd .NUTx_CTRL_EN x.ix = 1)
    (free : s.rd .NUTx_BGCMD_ADDR x.ix ∉ [0, 1, 5]) :
    (s.bgGo x).rd .NUTx_STAT_BG_BUSY x.ix = 1 ∧
      ((s.bgGo x).str.get x).ae.postQueue.length = (s.str.get x).ae.postQueue.length + 1 := by
  simp only [List.mem_cons, List.not_mem_nil, or_false, not_or] at free
  simp [State.bgGo, State.isSet, idle, en, free]

theorem State.wrArm_effect {on : Bool} (taken : on = false ∨ s.eff .AEx_CFG_TYPE x.ix = 0) :
    (s.rd .AEx_STAT_STATE x.ix = 0 → (s.wrArm x on).2.rd .AEx_CTRL_WR_ARM x.ix = boolNat on) ∧
      (s.rd .AEx_STAT_STATE x.ix ≠ 0 → (s.wrArm x on).2.coming .AEx_CTRL_WR_ARM x.ix = boolNat on) := by
  have legal (b : Bool) : ¬(on && s.eff .AEx_CFG_TYPE x.ix != 0 && b) = true := by
    rcases taken with off | kind
    · simp [off]
    · simp [kind]
  simp only [State.wrArm, if_neg (legal _), State.aeState]
  refine ⟨fun off => ?_, fun running => ?_⟩
  · simp [off]
  · simp [running, State.coming, State.shadowOf, State.shadowWr]

theorem State.abortClr_effect (aborted : s.rd .AEx_STAT_STATE x.ix = 4) :
    (s.rd .AEx_STAT_NUT_FAIL x.ix = 0 → s.ledgerBelowSoft x (s.rd .AEx_ABORT_HEAD x.ix) = true →
      (s.abortClr x).rd .AEx_STAT_STATE x.ix = 1) ∧
    (s.rd .AEx_STAT_NUT_FAIL x.ix = 1 →
      (s.abortClr x).rd .AEx_STAT_STATE x.ix = 4 ∧ (s.abortClr x).rd .AEx_STAT_CFG_LOCKED x.ix = 1) := by
  refine ⟨fun linked below => ?_, fun failed => ?_⟩
  · simp [State.abortClr, State.aeState, aborted, State.isSet, linked, below, State.enterRead]
  · simp [State.abortClr, State.aeState, aborted, State.isSet, failed]

theorem State.warmUp_state (arming : s.rd .AEx_STAT_STATE x.ix = 2) (frets : s.rd .AEx_CFG_WARM_FRETS x.ix ≤ (s.str.get x).ae.warm)
    (idle : (s.str.get x).ae.idleAcked = true) (link : (s.str.get x).ae.linkDue = none) (head : (s.str.get x).ae.headDue = false) :
    (s.warmUp x).rd .AEx_STAT_STATE x.ix = 3 := by
  simp [State.warmUp, State.aeState, arming, frets, idle, State.noneAhead, link, head]

theorem State.armLapse_effect (armed : s.rd .AEx_STAT_STATE x.ix = 3) (held : 0 < (s.str.get x).ae.heldFrets)
    (long : s.rd .AEx_CFG_ARM_HOLD x.ix ≤ (s.str.get x).ae.heldFrets) (link : (s.str.get x).ae.linkDue = none)
    (head : (s.str.get x).ae.headDue = false) (cap : (s.str.get x).ae.capDue = none) :
    (s.armLapse x).rd .AEx_STAT_STATE x.ix = 1 ∧ (s.armLapse x).rd .AEx_STAT_ARM_LAPSE x.ix = 1 ∧
      (s.armLapse x).rd .AEx_CTRL_WR_ARM x.ix = 0 := by
  simp [State.armLapse, State.aeState, armed, held, long, State.noneAhead, link, head, cap, State.enterRead]

theorem State.flyUpdate_effect (en : s.rd .AEx_CTRL_FH_EN x.ix = 1)
    (state : s.rd .AEx_STAT_STATE x.ix = 1 ∨ s.rd .AEx_STAT_STATE x.ix = 3)
    (enough : s.eff .AEx_CFG_FH_DIV x.ix ≤ (s.str.get x).ae.ecsCount) :
    ((s.flyUpdate x).str.get x).ae.ecsSum = 0 ∧ ((s.flyUpdate x).str.get x).ae.ecsCount = 0 := by
  have acts : (s.isSet .AEx_CTRL_FH_EN x.ix && (s.aeState x == 1 || s.aeState x == 3) &&
      decide (s.eff .AEx_CFG_FH_DIV x.ix ≤ (s.str.get x).ae.ecsCount)) = true := by
    simp [State.isSet, State.aeState, en, state, enough]
  simp only [State.flyUpdate, acts, State.when_true, State.modAe_get, and_self]

end

/-- Settles O19. -/
theorem energyAssistEffects : Obligations.EnergyAssistEffects := by
  refine ⟨fun s x gate fret present synced => ?_, fun s x reply present en first => ?_, fun s x present third few => ?_,
    fun s x head present six cool => ?_, fun s x f later present en queue => ?_, fun s x present idle en free => ?_,
    fun s x on present taken => ?_, fun s x present aborted => ?_, fun s x present arming frets idle link head => ?_,
    fun s x present armed held long link head cap => ?_, fun s x present en state enough => ?_⟩
  · exact .onStr rfl present (State.assistSlot_effect gate fret synced)
  · exact .onStr rfl present (State.nutReply_effect en first)
  · exact .onStr rfl present (State.linkFailure_effect third few)
  · refine .onStr rfl present ?_
    rw [Nat.mod_eq_of_lt six]
    exact State.hotClear_effect cool
  · exact .onStr rfl present (State.backgroundFrame_effect en queue)
  · exact .onStr rfl present (State.bgGo_effect idle en free)
  · exact .onStr rfl present (State.wrArm_effect taken)
  · exact .onStr rfl present (State.abortClr_effect aborted)
  · exact .onStr rfl present (State.warmUp_state arming frets idle link head)
  · exact .onStr rfl present (State.armLapse_effect armed held long link head cap)
  · exact .onStr rfl present (State.flyUpdate_effect en state enough)

end Sys2Proof.Machine

/-! PROOF. Proofs/Channel.lean: the read channel's commands and events (R151 to R176, R183 to R186). -/
namespace Sys2Proof.Machine

/-- The masks of some register fields and of some parts of the state. -/
def maskOf (rs : List Reg) : Nat := rs.foldl (fun m r => m ||| 1 <<< r.ctorIdx) 0
def maskOfParts (ps : List Part) : Nat := ps.foldl (fun m p => m ||| 1 <<< p.ctorIdx) 0

theorem Keeps.rd_fun {m q : Nat} {s t : State} (k : Keeps m q s t) (r : Reg) (outside : m.testBit r.ctorIdx = false) :
    @State.rd t r = @State.rd s r := funext fun j => k.regs r j outside

/-! ### The parts of a String -/

section
variable (t : StringState) (q : SeqId) (v : Sequencer)

@[simp] theorem StringState.setSeq_rch : (t.setSeq q v).rch = t.rch := by cases q <;> rfl
@[simp] theorem StringState.setSeq_wrp : (t.setSeq q v).wrp = t.wrp := by cases q <;> rfl
@[simp] theorem StringState.setSeq_svd : (t.setSeq q v).svd = t.svd := by cases q <;> rfl
@[simp] theorem StringState.setSeq_sce : (t.setSeq q v).sce = t.sce := by cases q <;> rfl
@[simp] theorem StringState.setSeq_health : (t.setSeq q v).health = t.health := by cases q <;> rfl
@[simp] theorem StringState.setSeq_ladders : (t.setSeq q v).ladders = t.ladders := by cases q <;> rfl
@[simp] theorem StringState.seq_setSeq : (t.setSeq q v).seq q = v := by cases q <;> rfl

theorem StringState.seq_setSeq_ne {q' : SeqId} (other : q' ≠ q) : (t.setSeq q v).seq q' = t.seq q' := by
  cases q <;> cases q' <;> simp_all [StringState.seq, StringState.setSeq]

end

section
variable {s : State} {x : Str}

@[simp] theorem State.seq_modSeq (q : SeqId) (f : Sequencer → Sequencer) : (s.modSeq x q f).seq x q = f (s.seq x q) := by
  simp [State.seq]

@[simp] theorem State.seq_modRch (q : SeqId) (f : Rch → Rch) : (s.modRch x f).seq x q = s.seq x q := by
  simp only [State.seq, State.modRch_get]
  cases q <;> rfl

@[simp] theorem State.seq_modWrp (q : SeqId) (f : Wrp → Wrp) : (s.modWrp x f).seq x q = s.seq x q := by
  simp only [State.seq, State.modWrp_get]
  cases q <;> rfl

theorem State.seq_of_str {t : State} (same : t.str = s.str) (q : SeqId) : t.seq x q = s.seq x q := by rw [State.seq, same, State.seq]

/-! ### A read gate that opens (R153, R168) -/

theorem State.rchBoundary_of_empty (empty : s.shadow = []) : s.rchBoundary x = s := by
  cases s
  simp only at empty
  subst empty
  rfl

theorem State.captureMode_of_empty (empty : s.shadow = []) : s.captureMode x = s := by
  simp [State.captureMode, State.shadowOf, empty]

theorem State.pdMode_of_host {a : Armed} (host : a.request.source = .host) (v : Nat) : s.pdMode x a v = s := by
  have other : (a.request.source == .ladder) = false := by
    rw [host]
    rfl
  rw [State.pdMode, other, Bool.false_and, State.when_false]

/-- With no SAVE, RESTORE or reload due an open takes no taps. -/
theorem State.tapActions_of_none {a : Armed} (host : a.request.source = .host) (taps : (s.str.get x).rch.taps = [])
    (reload : (s.str.get x).rch.reload = false) : s.tapActions x a =
      (s.modRch x fun c => { c with taps := [], reload := false }).rchRefresh x := by
  have other : (a.request.source == .ladder) = false := by
    rw [host]
    rfl
  simp [State.tapActions, other, taps, reload]

theorem State.nameSet_of_active {n : Nat} (active : n = s.activeSet x) (least : n < 96) (valid : s.setValid x n = true) :
    s.nameSet x n = (true, s) := by
  have legal : ¬(decide (96 ≤ n) || !s.setValid x n) = true := by simp [valid, least]
  rw [State.nameSet, if_neg legal, if_pos active]

theorem State.adaptOpen_of_none (none : (s.str.get x).rch.adapt = []) (drop : Bool) (n : Nat) : s.adaptOpen x drop n = s := by
  cases n with
  | zero => rfl
  | succ n => rw [State.adaptOpen, none]

theorem State.modSeq_str_of {t : State} (same : t.str = s.str) (q : SeqId) (f : Sequencer → Sequencer) :
    (t.modSeq x q f).str = (s.modSeq x q f).str := by simp [State.modSeq, State.modStr, same]

theorem State.modRch_str_of {t : State} (same : t.str = s.str) (f : Rch → Rch) : (t.modRch x f).str = (s.modRch x f).str := by
  simp [State.modRch, State.modStr, same]

theorem State.rchRefresh_str : (s.rchRefresh x).str = s.str :=
  (State.rchRefresh_after (.refl s) (Nat.or_self _) (Nat.or_self _)).parts .str rfl

/-- The String after an open: the slot records, and the gate is its. -/
theorem State.openGate_str (a : Armed) (slot : Nat) : ∃ cell, (s.openGate x a slot).str = ((s.modRch x fun c =>
    { c with slots := c.slots.set slot (some cell), gate := some slot }).modSeq x .rsq fun q => { q with capack := min 2 (q.capack + 1) }).str := by
  let vga r := bitsOf (s.setWord x (s.activeSet x) (1 + r)) 18 11
  refine ⟨(((s.wr .RCHx_GAIN_G0 (vga 0) x.ix).wr .RCHx_GAIN_G1 (vga 1) x.ix).wr .RCHx_GAIN_G2 (vga 2) x.ix).newSlot x a, ?_⟩
  refine State.modSeq_str_of ?_ _ _
  rw [State.bump_str, State.rchRefresh_str, State.wr_str]
  refine State.modRch_str_of ?_ _
  exact (State.putBytes_after _ (.refl _) (Nat.or_self _) (Nat.or_self _)).parts .str rfl

theorem State.openGate_effect (a : Armed) (slot : Nat) :
    ((s.openGate x a slot).str.get x).rch.gate = some slot ∧ ((s.openGate x a slot).seq x .rsq).armed = (s.seq x .rsq).armed := by
  obtain ⟨cell, str⟩ := s.openGate_str (x := x) a slot
  rw [State.seq_of_str str, str, State.seq_modSeq, State.seq_modRch]
  exact ⟨by simp, rfl⟩

/-- The state in which a read gate is tested when nothing waits for its open: the capture left the armed list. -/
def State.atGate (s : State) (x : Str) (later : List Armed) : State :=
  (((s.modSeq x .rsq fun q => { q with armed := later }).refreshRate x).modRch x fun c => { c with taps := [], reload := false }).rchRefresh x

theorem State.atGate_keeps (s : State) (x : Str) (later : List Armed) :
    Keeps (maskOf [.RCHx_RATE_BITRATE, .RCHx_STAT_SLOTS_FREE, .RCHx_SLOT_BUSY, .RCHx_STAT_PENDQ]) (maskOfParts [.str]) s (s.atGate x later) :=
  State.rchRefresh_after (State.modRch_after (State.refreshRate_after (State.modSeq_after (.refl s) (by decide) (by decide))
    (by decide) (by decide)) (by decide) (by decide)) (by decide) (by decide)

theorem State.atGate_string (later : List Armed) : (s.atGate x later).str.get x =
    { (s.str.get x).setSeq .rsq { s.seq x .rsq with armed := later } with
      rch := { (s.str.get x).rch with taps := [], reload := false } } := by
  simp [State.atGate, State.rchRefresh, State.refreshRate, State.seq]

theorem State.atGate_pageFree (later : List Armed) : (s.atGate x later).pageFree x = s.pageFree x := by
  have k := s.atGate_keeps x later
  unfold State.pageFree State.poolRoom State.rstgPages
  have here : (s.atGate x later).present = s.present := by
    funext y
    rw [State.present, k.rd .LC_VAR_VARIANT _ (by decide), State.present]
  simp only [here, k.rd_fun .BRG_USE_PAGES (by decide), k.rd_fun .BRG_CFG1_RMIN (by decide),
      k.rd_fun .BRG_CFG1_RMAX (by decide), k.rd_fun .BRG_CFG0_WSPLIT (by decide)]

theorem State.atGate_rateInRange (later : List Armed) : (s.atGate x later).rateInRange x = s.rateInRange x := by
  have k := s.atGate_keeps x later
  have fret : (s.atGate x later).fretPs = s.fretPs := by
    unfold State.fretPs
    rw [k.rd .FRET_PERIOD_PS _ (by decide), k.rd .SPE_SPEED_MRPM _ (by decide)]
  have rate : (s.atGate x later).chrate x = s.chrate x := by
    funext n
    rw [State.chrate, State.setWord, k.rd .RCHx_SET_SET _ (by decide), State.chrate, State.setWord]
  have set : (s.atGate x later).activeSet x = s.activeSet x := k.rd .RCHx_STAT_SET _ (by decide)
  unfold State.rateInRange State.bitRate
  rw [fret, rate, set]

theorem State.readGateOpen_effect {a : Armed} {later : List Armed} (armed : (s.seq x .rsq).armed = a :: later)
    (host : a.request.source = .host) (empty : s.shadow = []) (taps : (s.str.get x).rch.taps = [])
    (reload : (s.str.get x).rch.reload = false) (adapt : (s.str.get x).rch.adapt = []) (above : 1 ≤ s.rd .SCEx_STAT_STATE x.ix)
    (below : s.rd .SCEx_STAT_STATE x.ix ≤ 4) (lanes : s.rd .HARP_STAT_INSVC ≠ 0) (servo : (s.str.get x).svd.servoGate = false)
    (closed : (s.str.get x).rch.gate = none) (lock : s.rd .RCHx_STAT_PLL_LOCK x.ix = 1) (active : a.set = s.rd .RCHx_STAT_SET x.ix)
    (least : a.set < 96) (valid : s.setValid x a.set = true) (rate : s.rateInRange x = true)
    (data : (s.str.get x).rch.capMode = false)
    (room : s.eff .RCHx_CTRL_SLOT_RSV x.ix < (freeSlots (s.str.get x).rch.slots).length) (page : s.pageFree x = true) :
    ((s.readGateOpen x).str.get x).rch.gate = some ((freeSlots (s.str.get x).rch.slots).headD 0) ∧
      ((s.readGateOpen x).seq x .rsq).armed = later := by
  have k := s.atGate_keeps x later
  have str := s.atGate_string (x := x) later
  have opens : ¬(s.atGate x later).gateRefused x = true := by
    have loaded : s.rd .SCEx_STAT_STATE x.ix ≠ 0 := by omega
    have high : ¬ 5 ≤ s.rd .SCEx_STAT_STATE x.ix := by omega
    simp (disch := decide) [State.gateRefused, State.sceState, State.isSet, k.regs, str, lanes, servo, closed, lock, loaded, high]
  have named : (s.atGate x later).nameSet x a.set = (true, s.atGate x later) := by
    refine State.nameSet_of_active ?_ least ?_
    · rw [active, State.activeSet, k.rd .RCHx_STAT_SET _ (by decide)]
    · rw [← valid, State.setValid, State.setWord, k.rd .RCHx_SET_SET _ (by decide), State.setValid, State.setWord]
  have waits (b : Bool) : (s.atGate x later).adaptOpen x b 8 = s.atGate x later :=
    State.adaptOpen_of_none (by rw [str]; exact adapt) _ _
  have run : s.readGateOpen x = (s.atGate x later).openGate x a ((freeSlots (s.str.get x).rch.slots).headD 0) := by
    have leaves : (s.modSeq x .rsq fun q => { q with armed := later }).shadow = [] := empty
    have rateInRange := (s.atGate_rateInRange (x := x) later).trans rate
    have pageFree := (s.atGate_pageFree (x := x) later).trans page
    have due : ((s.modSeq x .rsq fun q => { q with armed := later }).refreshRate x).tapActions x a = s.atGate x later :=
      State.tapActions_of_none host (by simpa [State.refreshRate] using taps) (by simpa [State.refreshRate] using reload)
    have noSlip : (s.atGate x later).shadowOf .RCHx_CTRL_CAPTURE x.ix = none := by
      rw [State.shadowOf, k.parts .shadow rfl, empty]
      rfl
    have slots : ¬ (freeSlots (s.str.get x).rch.slots).length ≤ (s.atGate x later).eff .RCHx_CTRL_SLOT_RSV x.ix := by
      rw [State.eff, k.rd .RCHx_CTRL_SLOT_RSV _ (by decide)]
      exact Nat.not_le.2 room
    have other : (a.request.source == .bce) = false := by
      rw [host]
      rfl
    simp only [State.readGateOpen, armed, State.pdMode_of_host host, State.rchBoundary_of_empty leaves, State.captureMode_of_empty leaves,
      due, rateInRange, Bool.not_true, State.when_false, if_neg opens, named, waits, Bool.false_eq_true, if_false, str, data, noSlip,
      Option.isSome_none, Bool.or_self, if_neg slots, other, pageFree]
  obtain ⟨gate, armed'⟩ := State.openGate_effect (s := s.atGate x later) (x := x) a ((freeSlots (s.str.get x).rch.slots).headD 0)
  rw [run, gate, armed', State.seq, str]
  exact ⟨rfl, rfl⟩

/-! ### The sync search (R185, R186) -/

theorem State.syncLatch_effect {i m : Nat} {o : Int} {bits : List (Int × Nat)} {c : Slot} {later : List (Int × Nat)}
    (gate : (s.str.get x).rch.gate = some i) (slot : (s.str.get x).rch.slots.getD i none = some c) (first : c.fragment = false)
    (unmarked : c.mism1 = 7)
    (found : syncMatches (s.rd .SFMx_SYNC1_SYNC_HI x.ix * 2 ^ 32 + s.rd .SFMx_SYNC0_SYNC_LO x.ix) 48
      (s.eff .SFMx_SYNC1_SYNC_TOL x.ix) (s.eff .SFMx_SYNC1_SYNC_WIN x.ix) bits = (o, m) :: later) :
    (s.syncLatch x bits).rd .SFMx_LAST_OFFS x.ix = ofSigned 8 o ∧ (later ≠ [] → (s.syncLatch x bits).rd .SFMx_STAT_SYNC_ALT x.ix = 1) := by
  have seven : ¬(c.mism1 != 7) = true := by simp [unmarked]
  simp only [State.syncLatch, gate, slot, first, Bool.false_eq_true, if_false, if_neg seven, found]
  refine ⟨?_, fun more => ?_⟩
  · rw [State.rd_wr_ne _ _ _ _ _ _ (by decide), State.rd_wr_self]
    exact Nat.mod_eq_of_lt (ofSigned_lt 8 o)
  · have shown : (!later.isEmpty) = true := by simpa using more
    simp [shown]

theorem State.syncClose_effect {i : Nat} {c : Slot} (gate : (s.str.get x).rch.gate = some i)
    (slot : (s.str.get x).rch.slots.getD i none = some c) :
    (c.fragment = true → (s.syncClose x).rd .SFMx_STAT_FSYNC_MISS x.ix = 1) ∧
      (c.fragment = false → c.mism1 = 7 →
        (s.syncClose x).rd .SFMx_STAT_SYNC_MISS x.ix = 1 ∧ (s.syncClose x).rd .SFMx_LAST_MISM x.ix = 7) := by
  simp only [State.syncClose, gate, slot]
  refine ⟨fun second => ?_, fun first unmarked => ?_⟩
  · simp [second]
  · simp [first, unmarked]

/-! ### The end of a recording (R154 to R161, R167) -/

/-- What a recording's end leaves alone once the gate is closed: the gate and the sequencer. -/
def GateKept (x : Str) (s t : State) : Prop := (t.str.get x).rch.gate = (s.str.get x).rch.gate ∧ t.seq x .rsq = s.seq x .rsq

section
variable {t u : State}

theorem GateKept.refl (x : Str) (s : State) : GateKept x s s := ⟨rfl, rfl⟩

theorem GateKept.of_str (h : GateKept x s t) (same : u.str = t.str) : GateKept x s u :=
  ⟨by rw [same, h.1], by rw [State.seq_of_str same, h.2]⟩

theorem GateKept.wr {r : Reg} {v i : Nat} (h : GateKept x s t) : GateKept x s (t.wr r v i) := h.of_str (State.wr_str ..)

theorem GateKept.rchRefresh (h : GateKept x s t) : GateKept x s (t.rchRefresh x) := h.of_str State.rchRefresh_str

theorem GateKept.modRch {f : Rch → Rch} (h : GateKept x s t) (gate : ∀ c, (f c).gate = c.gate) : GateKept x s (t.modRch x f) :=
  ⟨by rw [State.modRch_get, ← h.1]; exact gate _, by rw [State.seq_modRch, h.2]⟩

theorem GateKept.when {b : Bool} {f : State → State} (h : GateKept x s t) (k : ∀ t, GateKept x s t → GateKept x s (f t)) :
    GateKept x s (t.when b f) := by
  cases b
  · exact h
  · exact k t h

theorem GateKept.readerLevels (h : GateKept x s t) (snap : List Nat) (adc : List (List Int)) : GateKept x s (t.readerLevels x snap adc) := by
  refine List.foldlRecOn (motive := GateKept x s) _ _ h fun u kept r _ => ?_
  exact .when (.when (.when (.wr kept) fun _ h => .wr h) fun _ h => .modRch h fun _ => rfl) fun _ h => .wr h

theorem GateKept.diverge (h : GateKept x s t) : GateKept x s (t.diverge x) := by
  unfold State.diverge
  exact .rchRefresh (.modRch (.wr h) fun _ => rfl)

end

/-- A recording ends: the gate closes and the sequencer goes on by one, and what follows keeps both. -/
theorem State.captureEnd_kept {i : Nat} {c : Slot} (signal : List (List Int)) (gate : (s.str.get x).rch.gate = some i)
    (slot : (s.str.get x).rch.slots.getD i none = some c) :
    ∃ u : State, u.str = s.str ∧ ∃ f : Slot → Slot, GateKept x
      (((u.modSlot x i f).modRch x fun c => { c with gate := none }).modSeq x .rsq fun q =>
        { q with done := min 2 (q.done + 1), progress := q.progress + 1 }) (s.captureEnd x signal) := by
  unfold State.captureEnd
  split
  next none => rw [gate] at none; cases none
  next j some =>
    cases gate.symm.trans some
    split
    next none => rw [slot] at none; cases none
    next d some =>
      cases slot.symm.trans some
      refine ⟨_, ?_, _, .when (.modRch (.when (.when (.readerLevels (.wr (.refl x _)) _ _) fun _ h => .modRch h fun _ => rfl) fun _ h =>
        .rchRefresh (.modRch h fun _ => rfl)) fun _ => rfl) fun _ h => .diverge h⟩
      exact (State.putSamples_after (.refl _) (Nat.or_self _) (Nat.or_self _)).parts .str rfl

theorem State.captureEnd_effect {i : Nat} {c : Slot} (signal : List (List Int)) (gate : (s.str.get x).rch.gate = some i)
    (slot : (s.str.get x).rch.slots.getD i none = some c) :
    ((s.captureEnd x signal).str.get x).rch.gate = none ∧
      ((s.captureEnd x signal).seq x .rsq).progress = (s.seq x .rsq).progress + 1 := by
  obtain ⟨u, same, f, gate', seq⟩ := State.captureEnd_kept signal gate slot
  rw [gate', seq, State.seq_modSeq, State.seq_modRch, State.modSlot, State.seq_modRch, State.seq_of_str same]
  exact ⟨by simp, rfl⟩

/-! ### Taps, sets and calibration recordings (R162, R175, R176) -/

theorem State.tapsPosted_save (alone : ∀ e ∈ (s.str.get x).rch.taps, e.2 ≠ s.timebase) :
    ((s.tapsPosted x true).str.get x).rch.taps = (s.str.get x).rch.taps ++ [(true, s.timebase)] := by
  have none : (false, s.timebase) ∉ (s.str.get x).rch.taps := fun mem => alone _ mem rfl
  simp [State.tapsPosted, none]

theorem State.tapsPosted_restore :
    (false, s.timebase) ∈ ((s.tapsPosted x false).str.get x).rch.taps ∧
      (true, s.timebase) ∉ ((s.tapsPosted x false).str.get x).rch.taps := by
  simp [State.tapsPosted]

theorem State.channelSetWrite_word {n w : Nat} (v : Nat) (least : n < 96) (notFirst : 1 ≤ w) (word : w < 256)
    (other : n ≠ s.rd .RCHx_STAT_SET x.ix) : (s.channelSetWrite x n w v).setWord x n w = v &&& setWordMask w := by
  have legal : ¬(decide (96 ≤ n) || decide (256 ≤ w)) = true := by simp [least, word]
  have idle : ¬(decide (n = s.activeSet x) && s.channelRunning x) = true := by simp [State.activeSet, other]
  have inactive : (n == s.activeSet x && w == 0) = false := by simp [State.activeSet, other]
  simp only [State.channelSetWrite, if_neg legal, if_neg idle, inactive, State.when_false, State.putSetWord, State.setWord]
  have apart : x.ix (n * 256 + w) % 2 ^ 20 ≠ x.ix (n * 256) % 2 ^ 20 := by
    rw [Nat.mod_eq_of_lt (ix_lt x _ (by omega)), Nat.mod_eq_of_lt (ix_lt x _ (by omega))]
    simp only [Str.ix]
    omega
  have fits : v &&& setWordMask w < 2 ^ 32 := by
    refine Nat.lt_of_le_of_lt Nat.and_le_right ?_
    unfold setWordMask
    split_ifs <;> decide
  rw [State.rd_wr_entry _ _ _ _ _ apart, State.rd_wr_self]
  exact Nat.mod_eq_of_lt fits

theorem State.calCapture_busy (samples : List (List Int)) (busy : s.rd .RCHx_STAT_CAP_BUSY x.ix = 1) :
    (s.calCapture x samples).rd .RCHx_STAT_CAP_BUSY x.ix = 0 := by
  have on : s.isSet .RCHx_STAT_CAP_BUSY x.ix = true := by simp [State.isSet, busy]
  rw [State.calCapture, on, State.when_true]
  exact State.rd_unflag_self ..

theorem State.pllLock_lock : (((s.flag .RCHx_STAT_PLL_LOCK x.ix).refreshRate x).readersFollow x true).rd .RCHx_STAT_PLL_LOCK x.ix = 1 := by
  rw [(State.readersFollow_after (.refl _) (Nat.or_self _) (Nat.or_self _)).rd .RCHx_STAT_PLL_LOCK _ (by decide)]
  simp [State.refreshRate]

end

/-- Settles O20. -/
theorem readChannelEffects : Obligations.ReadChannelEffects := by
  refine ⟨fun s x a later present armed host empty taps reload adapt above below lanes servo closed lock active least valid rate data room
      page => ?_, fun s x present => ?_, fun s x start o before i m bits c later present gate slot first unmarked found => ?_,
    fun s x i c present gate slot => ?_, fun s x r0 r1 r2 k l i c present gate slot => ?_, fun s x present alone => ?_,
    fun s x present => ?_, fun s x n w v present least notFirst word other => ?_, fun s x present mode => ?_,
    fun s cap present => ?_⟩
  · exact .onStr rfl present (State.readGateOpen_effect armed host empty taps reload adapt above below lanes servo closed lock active
      least valid rate data room page)
  · exact .onStr rfl present State.pllLock_lock
  · exact .onStr rfl present (State.syncLatch_effect gate slot first unmarked found)
  · exact .onStr rfl present (State.syncClose_effect gate slot)
  · exact .onStr rfl present (State.captureEnd_effect _ gate slot)
  · exact .onStr rfl present (State.tapsPosted_save alone)
  · exact .onStr rfl present State.tapsPosted_restore
  · exact .onStr rfl present (State.channelSetWrite_word v least notFirst word other)
  · exact .onStr rfl present (by simp [mode])
  · exact .onStr rfl present (State.calCapture_busy _)

end Sys2Proof.Machine

/-! PROOF. Proofs/Sequencer.lean: the commands of the formatter sequencers (R352 to R371). -/
namespace Sys2Proof.Machine

section
variable {s : State} {x : Str} {q : SeqId}

/-! ### What the shared operations leave of a sequencer -/

@[simp] theorem State.sqRefresh_str : (s.sqRefresh x q).str = s.str :=
  (State.sqRefresh_after (.refl s) (Nat.or_self _) (Nat.or_self _)).parts .str rfl

@[simp] theorem State.sqRefresh_seq : (s.sqRefresh x q).seq x q = s.seq x q := State.seq_of_str State.sqRefresh_str q

@[simp] theorem State.wr_seq (r : Reg) (v i : Nat) : (s.wr r v i).seq x q = s.seq x q := rfl
@[simp] theorem State.flag_seq (r : Reg) (i : Nat) : (s.flag r i).seq x q = s.seq x q := rfl
@[simp] theorem State.unflag_seq (r : Reg) (i : Nat) : (s.unflag r i).seq x q = s.seq x q := rfl
@[simp] theorem State.flagBit_seq (r : Reg) (n i : Nat) : (s.flagBit r n i).seq x q = s.seq x q := rfl
@[simp] theorem State.bump_seq (r : Reg) (i k : Nat) : (s.bump r i k).seq x q = s.seq x q := rfl

@[simp] theorem State.modSeq_present (f : Sequencer → Sequencer) : (s.modSeq x q f).present = s.present := rfl

/-- Waiting requests move into the queue; nothing else of the sequencer changes. -/
theorem State.feed_seq : (s.feed x q).seq x q = { s.seq x q with
    queue := (s.seq x q).queue ++ (s.seq x q).returned.take (32 - (s.seq x q).queue.length)
    returned := (s.seq x q).returned.drop (32 - (s.seq x q).queue.length) } := by
  have str : (s.feed x q).str = (s.modSeq x q fun u =>
      { u with queue := u.queue ++ u.returned.take (32 - u.queue.length), returned := u.returned.drop (32 - u.queue.length) }).str := by
    rw [State.feed, (State.steer_after (.refl _) (Nat.or_self _) (Nat.or_self _)).parts .str rfl, State.sqRefresh_str]
  rw [State.seq_of_str str, State.seq_modSeq]

theorem State.popRequest_progress : ((s.popRequest x q).seq x q).progress = 0 := by
  rw [State.popRequest, State.feed_seq, State.seq_modSeq]

theorem State.popRequest_commit : ((s.popRequest x q).seq x q).commit = (s.seq x q).commit := by
  rw [State.popRequest, State.feed_seq, State.seq_modSeq]

/-- A visible-state write that acts is no write to the commit buffer. -/
theorem State.actVis_commit (w : VisWrite) : ((s.actVis x q w).seq x q).commit = (s.seq x q).commit := by
  cases w with
  | done status =>
    simp only [State.actVis]
    split
    · rfl
    · exact State.popRequest_commit
  | requeue =>
    simp only [State.actVis]
    split
    · rfl
    · rw [State.popRequest_commit, State.seq_modSeq]
  | out sel v => rfl
  | post code v => simp [State.actVis]
  | uflag b => rfl
  | ucnt sel => rfl

theorem State.drainCommit_commit : ((s.drainCommit x q).seq x q).commit = [] := by
  rw [State.drainCommit, State.sqRefresh_seq]
  refine List.foldlRecOn (motive := fun t : State => (t.seq x q).commit = []) _ _ (by rw [State.seq_modSeq]) fun u empty w _ => ?_
  rw [State.actVis_commit, empty]

theorem State.visWrite_of_committed (w : VisWrite) (committed : s.sqCommitted x q = true) : s.visWrite x q w = s.actVis x q w := by
  rw [State.visWrite, if_pos committed]

theorem State.boundary_str {b : Blk} {inst : Nat} : (s.boundary b inst).str = s.str := by
  have k : Keeps everyReg (maskOfParts [.shadow]) s (s.boundary b inst) := State.boundary_after (.refl s) (by cases b <;> decide) (by decide)
  exact k.parts .str rfl

/-! ### Dispatch and words (R353, R364) -/

theorem State.enterRoutine_state (entry : Nat) : (s.enterRoutine x q entry).rd .SQ_STAT_STATE (q.ix x) = 2 := by
  rw [State.enterRoutine, (State.sqRefresh_after (.refl _) (Nat.or_self _) (Nat.or_self _)).rd .SQ_STAT_STATE _ (by decide),
    State.rd_unflag_ne _ _ _ _ (by decide), State.rd_wr_self]
  rfl

theorem State.enterHandler_effect (n : Nat) (abandoned : Bool) :
    (s.enterHandler x q n abandoned).rd .SQ_STAT_STATE (q.ix x) = 2 ∧ (s.enterHandler x q n abandoned).rd .SQ_STAT_HANDLER (q.ix x) = 1 ∧
      (s.enterHandler x q n abandoned).rd .SQ_STAT_PC (q.ix x) = (s.rd .SQ_IVEC_IVEC (q.ix x) + n) % 4096 ∧
      ((s.enterHandler x q n abandoned).seq x q).commit = (s.seq x q).commit := by
  refine ⟨?_, ?_, ?_, ?_⟩ <;> simp (disch := decide) [State.enterHandler, State.rd_wr_ne]

theorem State.seqDispatch_effect (idle : s.rd .SQ_STAT_STATE (q.ix x) = 1)
    (due : (s.seq x q).restart = true ∨ (s.seq x q).pendingIrq.isSome = true ∨ (s.seq x q).queue ≠ []) :
    (s.seqDispatch x q).rd .SQ_STAT_STATE (q.ix x) = 2 ∧ ((s.seq x q).restart = false → (s.seq x q).pendingIrq.isSome = true →
      (s.seqDispatch x q).rd .SQ_STAT_HANDLER (q.ix x) = 1) := by
  have idle' : ¬(s.sqState x q != 1) = true := by simp [State.sqState, idle]
  have seq : (s.boundary .seq (x.num * 3 + q.num)).seq x q = s.seq x q :=
    State.seq_of_str State.boundary_str q
  simp only [State.seqDispatch, if_neg idle', seq]
  generalize State.when _ _ _ = t
  split
  next again => exact ⟨State.enterRoutine_state _, by simp [again]⟩
  next fresh =>
    split
    next n irq => exact ⟨(State.enterHandler_effect n false).1, fun _ _ => (State.enterHandler_effect n false).2.1⟩
    next quiet =>
      split
      next empty => simp [quiet, empty, fresh] at due
      next r later queue => exact ⟨State.enterRoutine_state _, by simp [quiet]⟩

@[simp] theorem bitsOf_zero (hi lo : Nat) : bitsOf 0 hi lo = 0 := by simp [bitsOf]
@[simp] theorem bitOf_zero (i : Nat) : bitOf 0 i = false := by simp [bitOf]

theorem wordIllegal_zero (q : SeqId) : wordIllegal q 0 = false := by cases q <;> decide

theorem Sequencer.stalls_zero (u : Sequencer) : u.stalls 0 = false := by simp [Sequencer.stalls]

theorem State.traced_of_zero (word : s.controlWord x q (s.rd .SQ_STAT_PC (q.ix x)) = 0) : s.traced x q = s := by
  simp [State.traced, word]

theorem State.seqGo_zero_pc (next : Nat) : (s.seqGo x q 0 next).rd .SQ_STAT_PC (q.ix x) = next % 4096 := by
  rw [State.seqGo, if_neg (by simp), (State.sqRefresh_after (.refl _) (Nat.or_self _) (Nat.or_self _)).rd .SQ_STAT_PC _ (by decide), State.rd_wr_self]
  rfl

section
variable (f : Sequencer → Sequencer) (pc : Nat)

theorem State.controlBad_modSeq : (s.modSeq x q f).controlBad x q pc = s.controlBad x q pc := rfl
theorem State.pageLive_modSeq : (s.modSeq x q f).pageLive x q pc = s.pageLive x q pc := rfl
theorem State.controlWord_modSeq : (s.modSeq x q f).controlWord x q pc = s.controlWord x q pc := rfl

end

section
variable (a b imm pc : Nat)

theorem State.seqReqop_zero : s.seqReqop x q 0 imm = s := by simp [State.seqReqop]
theorem State.seqAlu_zero : s.seqAlu x q 0 a b = s := by simp [State.seqAlu]
theorem State.seqTmop_zero : s.seqTmop x q 0 a imm = s := by simp [State.seqTmop]
theorem State.seqOutop_zero : s.seqOutop x q 0 a imm = s := by simp [State.seqOutop]
theorem State.seqChop_zero : s.seqChop x q 0 a = s := by cases q <;> simp [State.seqChop]
theorem State.seqStack_zero : s.seqStack x q 0 a imm pc = .ok s := by simp [State.seqStack]
theorem State.seqNext_zero (cond : Bool) : s.seqNext x q 0 a pc cond = s.seqGo x q 0 (pc + 1) := by simp [State.seqNext]

end

/-- The word 0 asks for nothing: the program counter goes on by one. -/
theorem State.issue_zero_pc (pt : Nat) (running : s.rd .SQ_STAT_STATE (q.ix x) = 2)
    (good : s.controlBad x q (s.rd .SQ_STAT_PC (q.ix x)) = false) (live : s.pageLive x q (s.rd .SQ_STAT_PC (q.ix x)) = true)
    (word : s.controlWord x q (s.rd .SQ_STAT_PC (q.ix x)) = 0) (goes : (s.seq x q).waiting = false) :
    (s.issue x q pt).rd .SQ_STAT_PC (q.ix x) = (s.rd .SQ_STAT_PC (q.ix x) + 1) % 4096 := by
  have runs : ¬(s.sqState x q != 2) = true := by simp [State.sqState, running]
  have legal : ¬(!s.pageLive x q (s.rd .SQ_STAT_PC (q.ix x)) || wordIllegal q 0) = true := by simp [live, wordIllegal_zero]
  have runs' (f g : Sequencer → Sequencer) : ¬(((s.modSeq x q f).modSeq x q g).sqState x q != 2) = true := runs
  have plain : ([2, 3, 4, 6].contains (bitsOf 0 15 12)) = false := by decide
  simp only [State.issue, if_neg runs, State.modSeq_rd, State.controlBad_modSeq, State.pageLive_modSeq, State.controlWord_modSeq, word, good,
    Bool.false_eq_true, if_false, if_neg legal, State.seq_modSeq, goes, Sequencer.stalls_zero, plain, bitOf_zero, State.when_false,
    State.seqReqop_zero, State.seqAlu_zero, State.seqTmop_zero, State.seqChop_zero, State.seqOutop_zero, if_neg (runs' _ _),
    State.seqStack_zero, State.seqNext_zero, State.seqGo_zero_pc]

/-! ### Requests and the walker (R352, R358, R360) -/

theorem State.walkTo_seq {r : Request} (loaded : (s.seq x q).loaded = some r) (k : Nat) : ∃ pos ok,
    (s.walkTo x q k).seq x q = { s.seq x q with walker := { placed := true, offset := k, pos }, secf := ok } := by
  simp only [State.walkTo, loaded, State.seq_modSeq]
  exact ⟨_, _, rfl⟩

theorem State.seqLoad_effect {r : Request} {later : List Request} (queue : (s.seq x q).queue = r :: later) :
    ((s.seqLoad x q).seq x q).loaded = some r ∧ ((s.seqLoad x q).seq x q).walker.offset = 0 ∧
      ((s.seqLoad x q).seq x q).walker.placed = true := by
  simp only [State.seqLoad, queue]
  generalize taken : s.modSeq x q _ = u
  have loaded : (u.seq x q).loaded = some r := by rw [← taken, State.seq_modSeq]
  obtain ⟨pos, ok, seq⟩ := State.walkTo_seq loaded 0
  rw [seq]
  exact ⟨loaded, rfl, rfl⟩

theorem State.seqNextsec_effect (loaded : (s.seq x q).loaded.isSome = true) :
    ((s.seqNextsec x q).seq x q).walker.offset = (s.seq x q).walker.offset + 1 ∧
      ((s.seqNextsec x q).seq x q).pm = ((s.seqNextsec x q).seq x q).walker.pos.start % 2 ^ 20 := by
  obtain ⟨r, loaded⟩ := Option.isSome_iff_exists.1 loaded
  obtain ⟨pos, ok, seq⟩ := State.walkTo_seq loaded ((s.seq x q).walker.offset + 1)
  rw [State.seqNextsec, State.seq_modSeq, seq]
  exact ⟨rfl, rfl⟩

theorem State.seqRewind_effect (loaded : (s.seq x q).loaded.isSome = true) :
    ((s.seqRewind x q).seq x q).walker.offset = (s.seq x q).progress ∧ ((s.seqRewind x q).seq x q).runStop = false := by
  obtain ⟨r, loaded⟩ := Option.isSome_iff_exists.1 loaded
  obtain ⟨pos, ok, seq⟩ := State.walkTo_seq loaded (s.seq x q).progress
  rw [State.seqRewind, State.seq_modSeq, seq]
  exact ⟨rfl, rfl⟩

theorem State.actVis_done {r : Request} {later : List Request} (status : Nat) (queue : (s.seq x q).queue = r :: later) :
    ((s.actVis x q (.done status)).seq x q).progress = 0 ∧
      .requestDone x q r.id status (s.seq x q).walker.offset ∈ (s.actVis x q (.done status)).out := by
  simp only [State.actVis, queue]
  exact ⟨State.popRequest_progress, List.mem_cons_self⟩

theorem State.actVis_requeue {r : Request} {later : List Request} (queue : (s.seq x q).queue = r :: later) :
    ((s.actVis x q .requeue).seq x q).progress = 0 := by
  simp only [State.actVis, queue]
  exact State.popRequest_progress

theorem State.sqRefresh_mboxValid (held : (s.seq x q).mailbox ≠ []) : (s.sqRefresh x q).rd .SQ_MBOX_VALID (q.ix x) = 1 := by
  simp only [State.sqRefresh]
  split
  next empty => exact absurd empty held
  next c v later _ =>
    rw [State.rd_wr_ne _ _ _ _ _ _ (by decide), State.rd_wr_ne _ _ _ _ _ _ (by decide), State.rd_flag_self]
    rfl

theorem State.actVis_post (code value : Nat) :
    ((s.actVis x q (.post code value)).seq x q).mailbox = (s.seq x q).mailbox ++ [(code % 256, value)] ∧
      (s.actVis x q (.post code value)).rd .SQ_MBOX_VALID (q.ix x) = 1 := by
  simp only [State.actVis]
  exact ⟨by simp, State.sqRefresh_mboxValid (by simp)⟩

/-! ### The channel port (R359) -/

@[simp] theorem State.seqAt_seq (pt : Nat) : (s.seqAt x q pt).seq x q = { s.seq x q with pt := pt % 2 ^ 20 } := State.seq_modSeq ..

@[simp] theorem State.seqAt_sqCommitted (pt : Nat) (q' : SeqId) : (s.seqAt x q pt).sqCommitted x q' = s.sqCommitted x q' := rfl

theorem State.tooLate_modSeq (f : Sequencer → Sequencer) (u : Sequencer) : (s.modSeq x q f).tooLate x u = s.tooLate x u := by
  have bits : (s.modSeq x q f).bitsIn x 80 = s.bitsIn x 80 := rfl
  simp [State.tooLate, State.ahead, bits]

theorem State.seqCapture_effect {arg pt : Nat} {r : Request} (committed : s.sqCommitted x .rsq = true)
    (loaded : (s.seq x .rsq).loaded = some r) (early : s.tooLate x { s.seq x .rsq with pt := pt % 2 ^ 20 } = false) :
    ((((s.seqAt x .rsq pt).seqCapture x arg)).seq x .rsq).armed.length = (s.seq x .rsq).armed.length + 1 ∧
      (((s.seqAt x .rsq pt).seqCapture x arg).seq x .rsq).notReady = false := by
  have runs : ¬(!(s.seqAt x .rsq pt).sqCommitted x .rsq) = true := by simpa using committed
  simp only [State.seqCapture, if_neg runs, State.seq_modSeq, State.seqAt_seq, loaded]
  split
  next late =>
    rw [State.tooLate_modSeq, State.seqAt, State.tooLate_modSeq] at late
    exact absurd late (ne_true_of_eq_false early)
  next => simp [Sequencer.action, loaded]

theorem State.seqContRead_armed (committed : s.sqCommitted x .rsq = true) (closed : (s.str.get x).rch.gate = none) :
    ((s.seqContRead x).seq x .rsq).armed = (s.seq x .rsq).armed.map fun a => { a with cont := a.sector.split.isSome } := by
  simp [State.seqContRead, committed, closed]

theorem State.seqClose_effect (committed : s.sqCommitted x .rsq = true) :
    ((s.seqClose x).seq x .rsq).armed = [] ∧ ((s.seqClose x).str.get x).rch.gate = none := by
  have runs : ¬(!s.sqCommitted x .rsq) = true := by simpa using committed
  simp only [State.seqClose, if_neg runs]
  split
  next closed => exact ⟨by simp [State.disarmAll], closed⟩
  next i _ => simp [State.disarmAll, State.releaseSlot, State.giveCredit, State.seq_of_str State.rchRefresh_str, State.rchRefresh_str]

theorem State.nameSet_set {n : Nat} (least : n < 96) (valid : s.setValid x n = true) : (s.nameSet x n).2.rd .RCHx_STAT_SET x.ix = n := by
  by_cases active : n = s.activeSet x
  · rw [State.nameSet_of_active active least valid]
    exact active.symm
  · have legal : ¬(decide (96 ≤ n) || !s.setValid x n) = true := by simp [valid, least]
    have taken : ((((s.wr .RCHx_STAT_SET n x.ix).loadTaps x n).refreshRate x).readersFollow x false).rd .RCHx_STAT_SET x.ix = n := by
      have k {u : State} : Keeps (allBut [.RCHx_STAT_SET]) everyPart u (((u.loadTaps x n).refreshRate x).readersFollow x false) :=
        State.readersFollow_after (State.refreshRate_after (State.loadTaps_after (.refl u) (by decide) (by decide)) (by decide) (by decide))
          (by decide) (by decide)
      rw [k.rd .RCHx_STAT_SET _ (by decide), State.rd_wr_self]
      exact Nat.mod_eq_of_lt (Nat.lt_trans least (by decide))
    simp only [State.nameSet, if_neg legal, if_neg active]
    split
    · rw [State.rd_unflag_ne _ _ _ _ (by decide), taken]
    · exact taken

theorem State.seqSetsel_set {arg : Nat} (committed : s.sqCommitted x .rsq = true) (least : bitsOf arg 6 0 < 96)
    (valid : s.setValid x (bitsOf arg 6 0) = true) : (s.seqSetsel x arg).rd .RCHx_STAT_SET x.ix = bitsOf arg 6 0 := by
  have runs : ¬(!s.sqCommitted x .rsq) = true := by simpa using committed
  have k : Keeps 0 (maskOfParts [.str]) (s.nameSet x (bitsOf arg 6 0)).2 (s.seqSetsel x arg) := by
    rw [State.seqSetsel, if_neg runs]
    exact .when (.refl _) fun _ h => State.rsqNotReady_after h (by decide) (by decide)
  rw [k.rd .RCHx_STAT_SET _ (by decide), State.nameSet_set least valid]

theorem State.seqStart_effect {pt : Nat} {r : Request} (committed : s.sqCommitted x .wsq = true) (runs : (s.seq x .wsq).runStop = false)
    (loaded : (s.seq x .wsq).loaded = some r) (early : s.tooLate x { s.seq x .wsq with pt := pt % 2 ^ 20 } = false) :
    (((s.seqAt x .wsq pt).seqStart x).seq x .wsq).armed.length = (s.seq x .wsq).armed.length + 1 ∧
      ((s.seqAt x .wsq pt).seqStart x).rd .WRPx_STAT_RUN x.ix = 1 := by
  have acts : ¬(!(s.seqAt x .wsq pt).sqCommitted x .wsq || (s.seq x .wsq).runStop) = true := by
    simpa [runs] using committed
  simp only [State.seqStart, State.seq_modSeq, State.seqAt_seq, if_neg acts, loaded]
  split
  next late =>
    rw [State.tooLate_modSeq, State.seqAt, State.tooLate_modSeq] at late
    exact absurd late (ne_true_of_eq_false early)
  next => simp [Sequencer.action, loaded]

theorem State.seqWithdraw_armed (committed : s.sqCommitted x .wsq = true) : ((s.seqWithdraw x).seq x .wsq).armed = [] := by
  simp [State.seqWithdraw, committed, State.disarmAll]

theorem State.seq_modSeq_ne {q' : SeqId} (other : q' ≠ q) (f : Sequencer → Sequencer) : (s.modSeq x q f).seq x q' = s.seq x q' := by
  rw [State.seq, State.modSeq_get, StringState.seq_setSeq_ne _ _ _ other, State.seq]

theorem State.seqUevt_effect {arg : Nat} (committed : s.sqCommitted x .ssq = true) :
    (arg = 1 ∨ arg = 3 → ((s.seqUevt x arg).seq x .rsq).uevt = true) ∧ (arg = 2 ∨ arg = 3 → ((s.seqUevt x arg).seq x .wsq).uevt = true) := by
  have runs : ¬(!s.sqCommitted x .ssq) = true := by simpa using committed
  refine ⟨?_, ?_⟩ <;> rintro (rfl | rfl) <;> simp [State.seqUevt, committed, State.when, State.seq_modSeq_ne]

/-! ### Commit, handlers and the routine's end (R362 to R368) -/

theorem State.seqCommit_effect (open' : s.sqCommitted x q = false) (fits : (s.seq x q).commitFits = true) :
    (s.seqCommit x q).rd .SQ_STAT_COMMITTED (q.ix x) = 1 ∧ ((s.seqCommit x q).seq x q).commit = [] := by
  have acts : ¬(s.sqCommitted x q || !(s.seq x q).commitFits) = true := by simp [open', fits]
  rw [State.seqCommit, if_neg acts]
  refine ⟨?_, State.drainCommit_commit⟩
  rw [(State.drainCommit_after (.refl _) (Nat.or_self _) (Nat.or_self _)).rd .SQ_STAT_COMMITTED _ (by decide), State.rd_flag_self]
  rfl

theorem State.seqYield_effect {n : Nat} (next : Nat) (committed : s.rd .SQ_STAT_COMMITTED (q.ix x) = 1)
    (routine : s.rd .SQ_STAT_HANDLER (q.ix x) = 0) (irq : (s.seq x q).pendingIrq = some n) :
    (s.seqYield x q (next % 4096)).rd .SQ_RESUME_ADDR (q.ix x) = next % 4096 ∧
      (s.seqYield x q (next % 4096)).rd .SQ_STAT_HANDLER (q.ix x) = 1 ∧
      (s.seqYield x q (next % 4096)).rd .SQ_STAT_PC (q.ix x) = (s.rd .SQ_IVEC_IVEC (q.ix x) + n) % 4096 := by
  have acts : ¬(!s.isSet .SQ_STAT_COMMITTED (q.ix x) || s.isSet .SQ_STAT_HANDLER (q.ix x)) = true := by
    simp [State.isSet, committed, routine]
  simp only [State.seqYield, if_neg acts, irq]
  obtain ⟨_, handler, pc, _⟩ := State.enterHandler_effect (s := s.wr .SQ_RESUME_ADDR (next % 4096) (q.ix x)) (x := x) (q := q) n false
  refine ⟨?_, handler, pc.trans ?_⟩
  · rw [(State.enterHandler_after (.refl _) (Nat.or_self _) (Nat.or_self _)).rd .SQ_RESUME_ADDR _ (by decide), State.rd_wr_self]
    exact Nat.mod_mod ..
  · rw [State.rd_wr_ne _ _ _ _ _ _ (by decide)]

theorem State.leaveRoutine_effect (ended : Bool) : (s.leaveRoutine x q ended).rd .SQ_STAT_STATE (q.ix x) ≤ 1 ∧
    (s.leaveRoutine x q ended).rd .SQ_STAT_COMMITTED (q.ix x) = 0 ∧ (s.leaveRoutine x q ended).rd .SQ_STAT_HANDLER (q.ix x) = 0 := by
  refine ⟨?_, ?_, ?_⟩
  · rw [State.leaveRoutine, State.rd_wr_self]
    split <;> decide
  · simp (disch := decide) [State.leaveRoutine, State.rd_wr_ne]
  · simp (disch := decide) [State.leaveRoutine, State.rd_wr_ne]

theorem State.seqEnd_effect (routine : s.rd .SQ_STAT_HANDLER (q.ix x) = 0) (fits : (s.seq x q).commitFits = true) :
    (s.seqEnd x q).rd .SQ_STAT_STATE (q.ix x) ≤ 1 ∧ (s.seqEnd x q).rd .SQ_STAT_COMMITTED (q.ix x) = 0 := by
  have plain : ¬s.isSet .SQ_STAT_HANDLER (q.ix x) = true := by simp [State.isSet, routine]
  have fits' : ¬(!(s.seq x q).commitFits) = true := by simp [fits]
  rw [State.seqEnd, if_neg plain, if_neg fits']
  obtain ⟨state, committed, _⟩ := State.leaveRoutine_effect (s := s.drainCommit x q) (x := x) (q := q) true
  exact ⟨state, committed⟩

theorem State.seqResume_effect (handler : s.rd .SQ_STAT_HANDLER (q.ix x) = 1) (yielded : (s.seq x q).fromAbandon = false) :
    (s.seqResume x q).rd .SQ_STAT_HANDLER (q.ix x) = 0 ∧ (s.seqResume x q).rd .SQ_STAT_PC (q.ix x) = s.rd .SQ_RESUME_ADDR (q.ix x) % 4096 := by
  have inHandler : ¬(!s.isSet .SQ_STAT_HANDLER (q.ix x)) = true := by simp [State.isSet, handler]
  simp only [State.seqResume, if_neg inHandler, yielded, Bool.false_eq_true, if_false]
  refine ⟨?_, State.rd_wr_self ..⟩
  rw [State.rd_wr_ne _ _ _ _ _ _ (by decide), State.rd_unflag_self]

theorem State.seqDrop_effect (handler : s.rd .SQ_STAT_HANDLER (q.ix x) = 1) :
    (s.seqDrop x q).rd .SQ_STAT_HANDLER (q.ix x) = 0 ∧ (s.seqDrop x q).rd .SQ_STAT_COMMITTED (q.ix x) = 0 := by
  have inHandler : ¬(!s.isSet .SQ_STAT_HANDLER (q.ix x)) = true := by simp [State.isSet, handler]
  rw [State.seqDrop, if_neg inHandler]
  obtain ⟨_, committed, left⟩ := State.leaveRoutine_effect (s := s) (x := x) (q := q) true
  exact ⟨left, committed⟩

theorem State.abandon_effect : (s.abandon x q).rd .SQ_STAT_ABANDON (q.ix x) = 1 ∧ ((s.abandon x q).seq x q).commit = [] := by
  refine ⟨?_, ?_⟩
  · rw [State.abandon, (State.sqRefresh_after (.refl _) (Nat.or_self _) (Nat.or_self _)).rd .SQ_STAT_ABANDON _ (by decide),
      State.rd_bump_ne _ _ _ _ (by decide), State.rd_flag_self]
    rfl
  · simp [State.abandon]

theorem State.seqInterrupt_effect {n : Nat} (irq : (s.seq x q).pendingIrq = some n) (running : s.rd .SQ_STAT_STATE (q.ix x) = 2)
    (open' : s.sqCommitted x q = false) : (s.seqInterrupt x q).rd .SQ_STAT_ABANDON (q.ix x) = 1 ∧
      (s.seqInterrupt x q).rd .SQ_STAT_HANDLER (q.ix x) = 1 ∧ ((s.seqInterrupt x q).seq x q).commit = [] := by
  have acts : (decide (s.sqState x q = 2) && !s.sqCommitted x q) = true := by simp [State.sqState, running, open']
  simp only [State.seqInterrupt, irq, if_pos acts]
  obtain ⟨abandoned, empty⟩ := State.abandon_effect (s := s) (x := x) (q := q)
  obtain ⟨_, handler, _, commit⟩ := State.enterHandler_effect (s := s.abandon x q) (x := x) (q := q) n true
  refine ⟨?_, handler, commit.trans empty⟩
  rw [(State.enterHandler_after (.refl _) (Nat.or_self _) (Nat.or_self _)).rd .SQ_STAT_ABANDON _ (by decide), abandoned]

/-! ### Control (R370, R375) -/

theorem State.seqGoOp_state (stopped : s.rd .SQ_STAT_STATE (q.ix x) = 0) : (s.seqGoOp x q).rd .SQ_STAT_STATE (q.ix x) = 1 := by
  rw [State.seqGoOp, if_pos (show s.sqState x q = 0 from stopped), State.rd_wr_self]
  rfl

theorem State.seqStop_effect : (s.rd .SQ_STAT_STATE (q.ix x) = 1 → (s.seq x q).restart = false →
      (s.seqStop x q).rd .SQ_STAT_STATE (q.ix x) = 0) ∧
    (s.rd .SQ_STAT_STATE (q.ix x) = 2 → ((s.seqStop x q).seq x q).stopPend = true) := by
  refine ⟨fun idle fresh => ?_, fun running => ?_⟩
  · simp [State.seqStop, State.sqState, idle, fresh]
  · simp [State.seqStop, State.sqState, running]

theorem State.seqRst_effect (halted : s.rd .SQ_STAT_STATE (q.ix x) = 0 ∨ s.rd .SQ_STAT_STATE (q.ix x) = 3) :
    (s.seqRst x q).rd .SQ_STAT_STATE (q.ix x) = 0 ∧ (s.seqRst x q).rd .SQ_STAT_FCAUSE (q.ix x) = 0 ∧
      ((s.seqRst x q).seq x q).stack = [] ∧ ((s.seqRst x q).seq x q).commit = [] ∧
      ((s.seqRst x q).seq x q).queue = (s.seq x q).queue := by
  have acts : (decide (s.sqState x q = 0) || decide (s.sqState x q = 3)) = true := by
    simp only [Bool.or_eq_true, decide_eq_true_eq]
    exact halted
  rw [State.seqRst, if_pos acts, State.sqRefresh_seq]
  have k {u : State} := State.sqRefresh_after (x := x) (q := q) (.refl u) (Nat.or_self _) (Nat.or_self _)
  refine ⟨?_, ?_, by simp, by simp, by simp⟩
  · rw [k.rd .SQ_STAT_STATE _ (by decide), State.rd_wr_ne _ _ _ _ _ _ (by decide), State.rd_wr_self]
    rfl
  · rw [k.rd .SQ_STAT_FCAUSE _ (by decide), State.rd_wr_self]
    rfl

theorem State.seqIrq_irq (n : Nat) : ((s.seqIrq x q n).seq x q).irq = (s.seq x q).irq.set n true := by
  simp only [State.seqIrq, State.seq_modSeq, State.when]
  split <;> rfl

theorem State.microwordWrite_staged {a off v : Nat} (stopped : s.rd .SQ_STAT_STATE (q.ix x) = 0) (port : off < 16) :
    (x.num * 3 + q.num, a % 4096, off / 4, v % 2 ^ 32) ∈ (s.microwordWrite x q a off v).staged := by
  have free : ¬(s.sqState x q != 0 && s.pageLive x q (a % 4096)) = true := by simp [State.sqState, stopped]
  simp only [State.microwordWrite, if_neg free, if_pos port]
  exact List.mem_cons_self

end

/-- Settles O21. -/
theorem sequencerEffects : Obligations.SequencerEffects := by
  refine ⟨fun s x q present goes idle _ due => ?_, fun s x q pt present goes running good live word ready => ?_,
    fun s x q pt r later present queue => .onStr rfl present ?_, fun s x q status r later present committed queue => .onStr rfl present ?_,
    fun s x q r later present committed queue => .onStr rfl present ?_, fun s x q code value present room committed => .onStr rfl present ?_,
    fun s x q pt present loaded => .onStr rfl present ?_, fun s x q pt present loaded => .onStr rfl present ?_,
    fun s x arg pt r present committed loaded early => .onStr rfl present (State.seqCapture_effect committed loaded early),
    fun s x present committed closed => .onStr rfl present (State.seqContRead_armed committed closed),
    fun s x present committed => .onStr rfl present (State.seqClose_effect committed),
    fun s x arg present committed least valid => .onStr rfl present (State.seqSetsel_set committed least valid),
    fun s x pt r present committed runs loaded early => .onStr rfl present (State.seqStart_effect committed runs loaded early),
    fun s x present committed => .onStr rfl present (State.seqWithdraw_armed committed),
    fun s x arg present committed => .onStr rfl present (State.seqUevt_effect committed),
    fun s x q present open' fits => .onStr rfl present (State.seqCommit_effect open' fits),
    fun s x q next n present committed routine irq => .onStr rfl present (State.seqYield_effect next committed routine irq),
    fun s x q present routine fits => .onStr rfl present (State.seqEnd_effect routine fits),
    fun s x q present handler yielded => .onStr rfl present (State.seqResume_effect handler yielded),
    fun s x q present handler => .onStr rfl present (State.seqDrop_effect handler),
    fun s x q n present irq running open' => .onStr rfl present (State.seqInterrupt_effect irq running open'),
    fun s x q present stopped => .onStr rfl present (State.seqGoOp_state stopped),
    fun s x q present => .onStr rfl present State.seqStop_effect,
    fun s x q present halted => .onStr rfl present (State.seqRst_effect halted),
    fun s x q present => .onStr rfl present (State.seqIrq_irq 2),
    fun s x q a off v present stopped port => .onStr rfl present (State.microwordWrite_staged stopped port)⟩
  · refine .onStr rfl present ?_
    rw [if_neg (by simpa using goes)]
    exact State.seqDispatch_effect idle due
  · refine .onStr rfl present ?_
    rw [State.microword, if_neg (by simpa using goes), State.traced_of_zero word]
    exact State.issue_zero_pc pt running good live word ready
  · obtain ⟨loaded, offset, placed⟩ := State.seqLoad_effect (s := s.seqAt x q pt) (q := q) (by rw [State.seqAt_seq]; exact queue)
    exact ⟨loaded, offset, placed⟩
  · rw [State.visWrite_of_committed _ committed]
    exact State.actVis_done _ queue
  · rw [State.visWrite_of_committed _ committed]
    exact State.actVis_requeue queue
  · rw [decide_eq_true room, State.when_true, State.visWrite_of_committed _ committed]
    exact State.actVis_post code value
  · obtain ⟨offset, pm⟩ := State.seqNextsec_effect (s := s.seqAt x q pt) (q := q) (by rw [State.seqAt_seq]; exact loaded)
    rw [State.seqAt_seq] at offset
    exact ⟨offset, pm⟩
  · obtain ⟨offset, runStop⟩ := State.seqRewind_effect (s := s.seqAt x q pt) (q := q) (by rw [State.seqAt_seq]; exact loaded)
    rw [State.seqAt_seq] at offset
    exact ⟨offset, runStop⟩

end Sys2Proof.Machine

/-! PROOF. Proofs/Cleaning.lean: the cleaning of bands (R223), the Chest's journal, governor and wear levelling (R308 to R311). -/
namespace Sys2Proof.Machine

section
variable {s t u : State}

/-! ### The journal (R308) -/

/-- The changes that wait for the journal, and the next sequence number, are as before. -/
def JournalKept (s t : State) : Prop := t.bridge.journalWait = s.bridge.journalWait ∧ t.bridge.journalSeq = s.bridge.journalSeq

theorem JournalKept.refl (s : State) : JournalKept s s := ⟨rfl, rfl⟩

theorem JournalKept.wr {r : Reg} {v i : Nat} (h : JournalKept s t) : JournalKept s (t.wr r v i) := h

theorem JournalKept.modBridge {f : BridgeState → BridgeState} (h : JournalKept s t)
    (same : ∀ b, (f b).journalWait = b.journalWait ∧ (f b).journalSeq = b.journalSeq) : JournalKept s (t.modBridge f) :=
  ⟨(same _).1.trans h.1, (same _).2.trans h.2⟩

theorem JournalKept.when {b : Bool} {f : State → State} (h : JournalKept s t) (k : ∀ t, JournalKept s t → JournalKept s (f t)) :
    JournalKept s (t.when b f) := by
  cases b
  · exact h
  · exact k t h

theorem JournalKept.countRow (h : JournalKept s t) (g : Nat) : JournalKept s (t.countRow g) := by
  unfold State.countRow
  refine .modBridge (.when (.when (.when ?_ fun _ h => .wr (.wr h)) fun _ h => .wr h) fun _ h => .wr h) fun _ => ⟨rfl, rfl⟩
  exact .wr (.wr (.wr (.wr h)))

theorem JournalKept.makeRow (h : JournalKept s t) (w : RowWrite) : JournalKept s (t.makeRow w) := by
  unfold State.makeRow
  refine JournalKept.countRow (JournalKept.when ?_ fun _ h => h.wr) _
  refine JournalKept.modBridge h.wr fun _ => ?_
  exact ⟨rfl, rfl⟩

theorem JournalKept.governRows (h : JournalKept s t) (n : Nat) : JournalKept s (t.governRows n) := by
  induction n generalizing t with
  | zero => exact h
  | succ n ih =>
    unfold State.governRows
    split
    · exact .wr h
    · split
      · refine ih (JournalKept.makeRow (h.modBridge fun _ => ?_) _)
        exact ⟨rfl, rfl⟩
      · exact .wr h

theorem JournalKept.chestRow (h : JournalKept s t) (cls row : Nat) (retires : Bool) : JournalKept s (t.chestRow cls row retires) := by
  simp only [State.chestRow]
  split
  · exact .makeRow h _
  · refine JournalKept.governRows (h.modBridge fun _ => ?_) _
    exact ⟨rfl, rfl⟩

/-- A change that is journalled takes one sequence number. -/
theorem State.journalNow_effect (row : Nat) : (s.journalNow row).bridge.journalWait = s.bridge.journalWait ∧
    (s.journalNow row).bridge.journalSeq = s.bridge.journalSeq + 1 :=
  JournalKept.chestRow (JournalKept.chestRow (JournalKept.refl _) _ _ _) _ _ _

theorem State.journalResume_bounds (n : Nat) : (s.journalResume n).bridge.journalWait.length ≤ s.bridge.journalWait.length ∧
    s.bridge.journalSeq ≤ (s.journalResume n).bridge.journalSeq := by
  induction n generalizing s with
  | zero => exact ⟨Nat.le_refl _, Nat.le_refl _⟩
  | succ n ih =>
    unfold State.journalResume
    split
    · exact ⟨Nat.le_refl _, Nat.le_refl _⟩
    · next row rest waits =>
      split
      · exact ⟨Nat.le_refl _, Nat.le_refl _⟩
      · obtain ⟨shorter, later⟩ := ih (s := (s.modBridge fun b => { b with journalWait := rest }).journalNow row)
        obtain ⟨wait, seq⟩ := State.journalNow_effect (s := s.modBridge fun b => { b with journalWait := rest }) row
        simp only [wait, seq, State.modBridge_bridge, waits, List.length_cons] at shorter later ⊢
        omega

theorem State.journalResume_effect {row : Nat} {later : List Nat} (waits : s.bridge.journalWait = row :: later)
    (room : s.rd .CHST_JRNL_LIVE < 16384) (n : Nat) :
    (s.journalResume (n + 1)).bridge.journalWait.length < s.bridge.journalWait.length ∧
      s.bridge.journalSeq < (s.journalResume (n + 1)).bridge.journalSeq := by
  simp only [State.journalResume, waits, if_neg (Nat.not_le.2 room)]
  obtain ⟨shorter, higher⟩ := State.journalResume_bounds (s := (s.modBridge fun b => { b with journalWait := later }).journalNow row) n
  obtain ⟨wait, seq⟩ := State.journalNow_effect (s := s.modBridge fun b => { b with journalWait := later }) row
  simp only [wait, seq, State.modBridge_bridge, List.length_cons] at shorter higher ⊢
  omega

/-! ### The governor and the gaps (R310, R311) -/

theorem State.chestGrant_idle (us : Nat) (none : s.bridge.rowsWaiting = []) :
    (s.chestGrant us).rd .CHST_STAT_GOV_ACT = 0 ∧ (s.chestGrant us).bridge.groupTokens = s.bridge.groupTokens.map fun b =>
      min s.groupDepth (b + atLeast1 (s.rd .CHST_GOV_GOV_GRATE) * 65536 * us / 10 ^ 6) := by
  have still : nextRow (s.fillBuckets us).bridge.rowsWaiting = Option.none := by
    rw [show (s.fillBuckets us).bridge.rowsWaiting = [] from none]
    rfl
  rw [State.chestGrant, State.governRows, still]
  exact ⟨State.rd_unflag_self .., rfl⟩

theorem State.gapMove_bridge {g : Nat} (due : 64 ≤ s.bridge.gapCount.getD g 0) : (s.gapMove g).bridge =
    { s.bridge with gapCount := s.bridge.gapCount.modify g (· - 64), gapPlace := s.bridge.gapPlace.modify g fun p => (p + 1) % 4097 } := by
  rw [State.gapMove, if_pos due]
  rfl

/-! ### A band's cleaning (R223) -/

/-- The records and the cleans in progress are as before. -/
def CleansKept (s t : State) : Prop := t.host.records = s.host.records ∧ t.host.cleans = s.host.cleans

theorem CleansKept.refl (s : State) : CleansKept s s := ⟨rfl, rfl⟩

theorem CleansKept.of_host (h : CleansKept s t) (same : u.host = t.host) : CleansKept s u := by rwa [CleansKept, same]

theorem CleansKept.modHost {f : HostState → HostState} (h : CleansKept s t)
    (same : ∀ b, (f b).records = b.records ∧ (f b).cleans = b.cleans) : CleansKept s (t.modHost f) :=
  ⟨(same _).1.trans h.1, (same _).2.trans h.2⟩

theorem CleansKept.requestSkips (h : CleansKept s t) (x : Str) (band : Nat) (ps : List (Nat × Nat)) :
    CleansKept s (t.requestSkips x band ps) := h.modHost fun _ => ⟨rfl, rfl⟩

theorem CleansKept.rewriteBand (h : CleansKept s t) (x : Str) (band : Nat) (mayLeave : Bool) :
    CleansKept s (t.rewriteBand x band mayLeave) := by
  unfold State.rewriteBand
  split
  · exact h
  · exact .modHost (.requestSkips (.of_host h rfl) _ _ _) fun _ => ⟨rfl, rfl⟩

theorem CleansKept.postPlaces (h : CleansKept s t) (x : Str) (q : SeqId) (source : ReqSource) (tag : Nat) (zone : Option Nat)
    (stream slipOk : Bool) (offs : Int) (band : Nat) (ps : List (Nat × Nat × Option Codeword)) :
    CleansKept s (t.postPlaces x q source tag zone stream slipOk offs band ps) := by
  refine List.foldlRecOn (motive := CleansKept s) _ _ h fun u kept e _ => ?_
  refine CleansKept.of_host (t := u.newRequestId.2) (kept.modHost fun _ => ⟨rfl, rfl⟩) ?_
  exact (State.postRequest_after (.refl _) (Nat.or_self _) (Nat.or_self _)).parts .host rfl

/-- A clean none of whose sectors has come can post nothing. -/
theorem Clean.run_of_nothing {c : Clean} (got : c.got = []) (readable : c.unreadable = []) (fuel k : Nat) : c.run fuel k = ([], k) := by
  cases fuel with
  | zero => rfl
  | succ n =>
    unfold Clean.run
    split
    · rfl
    · simp [got, readable]

theorem State.bceAdvance_records {id : Nat} {c : Clean} (found : s.findClean id = some c) (got : c.got = []) (readable : c.unreadable = [])
    (start : c.next = 0) (items : c.items ≠ []) : (s.bceAdvance id).host.records = s.host.records := by
  have more : ¬(decide (c.items.length ≤ 0) && true && c.posted.isEmpty) = true := by simp [items]
  simp only [State.bceAdvance, found, Clean.run_of_nothing got readable, start, List.isEmpty_nil, if_true, if_neg more]
  rfl

/-- The reads of a clean that has just begun leave the records alone. -/
theorem State.reads_of_clean_records {id dest : Nat} {c : Clean} {x : Str} (found : s.findClean id = some c) (got : c.got = [])
    (readable : c.unreadable = []) (start : c.next = 0) (items : c.items ≠ []) {zone : Option Nat} {band : Nat}
    {ps : List (Nat × Nat × Option Codeword)} :
    (((s.rewriteBand x dest false).postPlaces x .rsq .bce id zone false true 0 band ps).bceAdvance id).host.records = s.host.records := by
  obtain ⟨records, cleans⟩ := CleansKept.postPlaces (.rewriteBand (.refl s) x dest false) x .rsq .bce id zone false true 0 band ps
  rw [State.bceAdvance_records (c := c) ?_ got readable start items, records]
  rw [State.findClean, cleans]
  exact found

theorem State.startClean_clean {id dest : Nat} {later : List Nat} {r : Record} (record : s.host.records[id]? = some r)
    (free : s.extentsToTake r.str false = dest :: later) (idle : r.clean = false) (band : s.isUnit r.str r.band = false)
    (here : s.isLost r.str = false) (live : s.liveSectors id r ≠ []) (none : s.findClean id = none) :
    ((s.startClean id).host.records[id]?).map (fun r => r.clean) = some true := by
  have starts : ¬(r.clean || s.isUnit r.str r.band || s.isLost r.str) = true := by simp [idle, band, here]
  simp only [State.startClean, record, free, if_neg starts]
  generalize opened : State.modHost _ _ = u
  have now : u.host.records = s.host.records.modify id (fun r => { r with clean := true }) ∧ u.findClean id = some
      { record := id, managed := ((s.ns r.nsid).map fun n => n.kind == .managed).getD false, str := r.str, dest, items := s.liveSectors id r
        left := (s.liveSectors id r).map (·.1), got := [], unreadable := [], next := 0, posted := [], acc := [] } := by
    rw [← opened]
    refine ⟨rfl, ?_⟩
    rw [State.findClean] at none
    simp [State.findClean, State.modHost, State.modRecord, State.drawn, none]
  obtain ⟨records, clean⟩ := now
  rw [State.reads_of_clean_records clean rfl rfl rfl live, records]
  simp [record]

theorem State.bandCleanStart_clean {id dest : Nat} {later : List Nat} {r : Record} (record : s.host.records[id]? = some r)
    (due : ((s.ns r.nsid).map fun n => n.kind == .managed) = some true ∨ 8 ≤ (s.pendingSkips r).length)
    (free : s.extentsToTake r.str false = dest :: later) (idle : r.clean = false) (band : s.isUnit r.str r.band = false)
    (here : s.isLost r.str = false) (live : s.liveSectors id r ≠ []) (none : s.findClean id = none) :
    ((s.bandCleanStart id).host.records[id]?).map (fun r => r.clean) = some true := by
  have starts : (((s.ns r.nsid).map fun n => n.kind == .managed).getD false || decide (8 ≤ (s.pendingSkips r).length)) = true := by
    rcases due with managed | skips
    · rw [managed]
      rfl
    · rw [decide_eq_true skips, Bool.or_true]
  simp only [State.bandCleanStart, record, if_pos starts]
  exact State.startClean_clean record free idle band here live none

theorem State.skipAge_clean {id dest : Nat} {later : List Nat} {r : Record} {age : Nat × Nat} (record : s.host.records[id]? = some r)
    (zoned : ((s.ns r.nsid).map fun n => n.kind == .zoned) = some true) (state : r.state = .full ∨ r.state = .closed)
    (waits : age ∈ s.pendingSkips r) (old : age.2 + 86400 < s.rd .SB_RTC_SEC)
    (free : s.extentsToTake r.str false = dest :: later) (idle : r.clean = false) (band : s.isUnit r.str r.band = false)
    (here : s.isLost r.str = false) (live : s.liveSectors id r ≠ []) (none : s.findClean id = none) :
    ((s.skipAge id).host.records[id]?).map (fun r => r.clean) = some true := by
  have aged : ((s.pendingSkips r).any fun e => decide (e.2 + 86400 < s.rd .SB_RTC_SEC)) = true :=
    List.any_eq_true.2 ⟨age, waits, decide_eq_true old⟩
  have written : (r.state == .full || r.state == .closed) = true := by rcases state with h | h <;> rw [h] <;> rfl
  simp only [State.skipAge, record, zoned, Option.getD_some, written, aged, Bool.and_self, if_true]
  exact State.startClean_clean record free idle band here live none

end

/-- Settles O22. -/
theorem cleaningAndChestEffects : Obligations.CleaningAndChestEffects := by
  refine ⟨fun s id dest later r record due free idle band here live none => ⟨_, rfl, ?_⟩,
    fun s id dest later r age record zoned state waits old free idle band here live none => ⟨_, rfl, ?_⟩,
    fun s row later waits room => ⟨_, rfl, ?_⟩, fun s us none => ⟨_, rfl, State.chestGrant_idle us none⟩,
    fun s group due => ⟨_, rfl, ?_⟩⟩
  · exact State.bandCleanStart_clean record due free idle band here live none
  · exact State.skipAge_clean record zoned state waits old free idle band here live none
  · have more : s.bridge.journalWait.length = later.length + 1 := by rw [waits, List.length_cons]
    have effect := State.journalResume_effect waits room later.length
    rwa [← more] at effect
  · have bridge := State.gapMove_bridge due
    exact ⟨congrArg BridgeState.gapCount bridge, congrArg BridgeState.gapPlace bridge⟩

end Sys2Proof.Machine

/-! PROOF. Proofs/Recovery.lean: the recovery ladder's events (R219 to R243). -/
namespace Sys2Proof.Machine

section
variable {s : State} {x : Str}

/-! ### The ladders of a String -/

theorem State.feed_ladders (q : SeqId) : ((s.feed x q).str.get x).ladders = (s.str.get x).ladders := by
  have str : (s.feed x q).str = (s.modSeq x q fun u =>
      { u with queue := u.queue ++ u.returned.take (32 - u.queue.length), returned := u.returned.drop (32 - u.queue.length) }).str := by
    rw [State.feed, (State.steer_after (.refl _) (Nat.or_self _) (Nat.or_self _)).parts .str rfl, State.sqRefresh_str]
  rw [str]
  simp

theorem State.postRequest_ladders (q : SeqId) (r : Request) : ((s.postRequest x q r).str.get x).ladders = (s.str.get x).ladders := by
  simp only [State.postRequest, State.feed_ladders, State.modSeq_get, StringState.setSeq_ladders, State.when]
  split_ifs <;> simp

theorem State.postPlaces_ladders (q : SeqId) (source : ReqSource) (tag : Nat) (zone : Option Nat) (stream slipOk : Bool) (offs : Int)
    (band : Nat) (ps : List (Nat × Nat × Option Codeword)) :
    ((s.postPlaces x q source tag zone stream slipOk offs band ps).str.get x).ladders = (s.str.get x).ladders := by
  refine List.foldlRecOn (motive := fun u : State => (u.str.get x).ladders = (s.str.get x).ladders) _ _ rfl fun u same e _ => ?_
  rw [State.postRequest_ladders]
  exact same

/-- The ladder found is the one that is changed. -/
theorem State.findLadder_modLadder {id : Nat} {l : Ladder} (found : s.findLadder x id = some l) {f : Ladder → Ladder}
    (same : ∀ l, (f l).id = l.id) : (s.modLadder x id f).findLadder x id = some (f l) := by
  rw [State.findLadder] at found
  have mine : l.id = id := by simpa using List.find?_some found
  have hits (e : Ladder) : ((fun e : Ladder => e.id == id) ∘ fun e => if (e.id == id) = true then f e else e) e = (e.id == id) := by
    by_cases h : e.id = id <;> simp [h, same]
  rw [State.findLadder, State.modLadder, State.modStr_get, List.find?_map, funext hits]
  rw [found]
  simp [mine]

theorem State.findLadder_of_ladders {t : State} (same : (t.str.get x).ladders = (s.str.get x).ladders) (id : Nat) :
    t.findLadder x id = s.findLadder x id := by rw [State.findLadder, same, State.findLadder]

/-! ### Revolutions and parity passes (R228 to R233) -/

theorem State.ladderRevolution_effect {turn : LadderTurn} {l : Ladder} (found : s.findLadder x turn.ladder = some l)
    (state : l.state = .revolve) (fresh : l.posted = false) (least : 4 ≤ l.rung) (most : l.rung < 8) (ready : s.canRead x = true)
    (run : s.ladderHook l turn.hook = .run) : ∃ l', (s.ladderRevolution x turn).findLadder x turn.ladder = some l' ∧ l'.posted = true ∧
      l'.used = l.used + 1 ∧ l'.rung = l.rung ∧ (s.ladderRevolution x turn).host.requestId = s.host.requestId + 1 := by
  have acts : ¬(l.state != .revolve || l.posted || decide (l.rung < 4) || decide (8 ≤ l.rung) || !s.canRead x) = true := by
    simp [state, fresh, ready, least, most]
  have goes : ¬s.ladderHook l turn.hook = .skip ∧ ¬s.ladderHook l turn.hook = .stop := by simp [run]
  simp only [State.ladderRevolution, found, if_neg acts, if_neg goes.1, if_neg goes.2]
  refine ⟨{ l with posted := true, used := l.used + 1 }, ?_, rfl, rfl, rfl, ?_⟩
  · rw [State.findLadder_of_ladders (State.postRequest_ladders _ _)]
    exact State.findLadder_modLadder found (f := fun l => { l with posted := true, used := l.used + 1 }) fun _ => rfl
  · rw [(State.postRequest_after (.refl _) (Nat.or_self _) (Nat.or_self _)).parts .host rfl]
    rfl

theorem State.parityAdvance_of_reading {id : Nat} {l : Ladder} (found : s.findLadder x id = some l) (busy : l.reading ≠ 0) :
    s.parityAdvance x id = s := by
  simp [State.parityAdvance, found, busy]

theorem State.parityPass_effect {turn : LadderTurn} {l : Ladder} {z : Nat} {r : Record} (found : s.findLadder x turn.ladder = some l)
    (zone : l.zone = some z) (record : s.host.records[z]? = some r) (state : l.state = .revolve) (fresh : l.posted = false)
    (rung : l.rung = 8) (ready : s.canRead x = true) (run : s.ladderHook l turn.hook = .run)
    (reads : (if l.used = 0 then s.stripeReads l else l.outstanding) ≠ []) :
    ∃ l', (s.parityPass x turn).findLadder x turn.ladder = some l' ∧ l'.posted = true ∧ l'.used = l.used + 1 ∧
      l'.outstanding = (if l.used = 0 then s.stripeReads l else l.outstanding) ∧ l'.reading = l'.outstanding.length := by
  have acts : ¬(l.state != .revolve || l.posted || l.rung != 8 || !s.canRead x) = true := by simp [state, fresh, ready, rung]
  have goes : ¬s.ladderHook l turn.hook = .skip ∧ ¬s.ladderHook l turn.hook = .stop := by simp [run]
  simp only [State.parityPass, found, zone, Option.bind_some, record, if_neg acts, if_neg goes.1, if_neg goes.2]
  generalize (if l.used = 0 then s.stripeReads l else l.outstanding) = todo at reads ⊢
  generalize posted : State.postPlaces _ _ _ _ _ _ _ _ _ _ _ = u
  have next : u.findLadder x turn.ladder = some { l with
      posted := true, used := l.used + 1, outstanding := todo, reading := todo.length } := by
    rw [← posted, State.findLadder_of_ladders (State.postPlaces_ladders ..)]
    exact State.findLadder_modLadder found (f := fun l =>
      { l with posted := true, used := l.used + 1, outstanding := todo, reading := todo.length }) fun _ => rfl
  rw [State.parityAdvance_of_reading next (by simpa using reads)]
  exact ⟨_, next, rfl, rfl, rfl, rfl⟩

theorem State.ladderResume_effect {l : Ladder} (room : s.activeRungs x < 8)
    (waits : ((s.str.get x).ladders.find? fun l => l.state == .wait) = some l) :
    { l with state := .revolve } ∈ ((s.ladderResume x).str.get x).ladders ∧
      (s.ladderResume x).rd .RLDx_STAT_ACTIVE x.ix = min 15 ((s.ladderResume x).activeRungs x) := by
  simp only [State.ladderResume, if_neg (Nat.not_le.2 room), waits]
  refine ⟨?_, ?_⟩
  · have mem : l ∈ (s.str.get x).ladders := List.mem_of_find?_eq_some waits
    simp only [State.ladderRefresh, State.setTo_str, State.wr_str, State.modLadder, State.modStr_get]
    exact List.mem_map.2 ⟨l, mem, by simp⟩
  · rw [State.ladderRefresh, State.rd_setTo_ne _ _ _ _ (by decide), State.rd_wr_self]
    refine (Nat.mod_eq_of_lt ?_).trans rfl
    exact Nat.lt_of_le_of_lt (Nat.min_le_left ..) (by decide)

/-! ### The limit of time (R236) -/

theorem Str.ix_mod_ne {x y : Str} (other : y ≠ x) : x.ix % 2 ^ 20 ≠ y.ix % 2 ^ 20 := by
  have apart : x.num ≠ y.num := fun same => other (Str.num_inj same.symm)
  have bounds := And.intro (Str.num_lt x) (Str.num_lt y)
  simp only [Str.ix]
  omega

/-- A flag of a String that is set stays set when hardware sets the flag of any String. -/
theorem State.rd_flag_stays {r : Reg} (y : Str) (wide : 1 % 2 ^ r.row.width = 1) (on : s.rd r x.ix = 1) : (s.flag r y.ix).rd r x.ix = 1 := by
  by_cases same : y = x
  · rw [same, State.rd_flag_self, wide]
  · rw [State.flag, State.rd_wr_entry _ _ _ _ _ (Str.ix_mod_ne same), on]

/-- The sectors of a command that are on a String's ladders at the limit of its time: their outcome is given. -/
def State.cutString (f : Nat) (s : State) (x : Str) : State :=
  let mine := (s.str.get x).ladders.filter fun l => l.source == .host && l.command == f && !l.detached
  if mine.isEmpty then s
  else
    let s := mine.foldl (fun s l => s.failSector f l.place.lba .unrecoveredRead 0) s
    (s.detachOf x f).flag .RLDx_STAT_TLER_CUT x.ix

theorem State.tlerExpiry_eq {f : Nat} {c : Cmd} (found : s.findCmd f = some c) (limit : s.tler c ≠ 0) (open' : c.ready = none) :
    s.tlerExpiry f = Str.all.foldl (State.cutString f) s := by
  simp only [State.tlerExpiry, found, limit, open', decide_false, Option.isSome_none, Bool.or_self, Bool.false_eq_true, if_false]
  rfl

theorem State.failed_keeps (f : Nat) (l : List Ladder) :
    Keeps 0 (maskOfParts [.host]) s (l.foldl (fun s l => s.failSector f l.place.lba .unrecoveredRead 0) s) :=
  .foldl (.refl s) fun _ _ h => State.failSector_after h (by decide) (by decide)

theorem State.cutString_ne {f : Nat} {y : Str} (other : y ≠ x) : ((s.cutString f y).str.get x).ladders = (s.str.get x).ladders := by
  simp only [State.cutString]
  split
  · rfl
  · rw [State.flag_str, State.detachOf, State.modStr]
    dsimp only
    rw [Quad.get_set_ne _ _ _ (Ne.symm other), (State.failed_keeps f _).parts .str rfl]

theorem State.cutString_self {f : Nat} {l : Ladder} (mem : l ∈ (s.str.get x).ladders) (source : l.source = .host) (command : l.command = f)
    (attached : l.detached = false) : (s.cutString f x).rd .RLDx_STAT_TLER_CUT x.ix = 1 := by
  have mine : ¬((s.str.get x).ladders.filter fun l => l.source == .host && l.command == f && !l.detached).isEmpty = true := by
    simp only [List.isEmpty_iff, List.filter_eq_nil_iff, not_forall]
    exact ⟨l, mem, by simp [source, command, attached]⟩
  simp only [State.cutString, if_neg mine]
  exact State.rd_flag_self ..

theorem State.cutString_cut {f : Nat} (y : Str) (on : s.rd .RLDx_STAT_TLER_CUT x.ix = 1) :
    (s.cutString f y).rd .RLDx_STAT_TLER_CUT x.ix = 1 := by
  simp only [State.cutString]
  split
  · exact on
  · refine State.rd_flag_stays y (by decide) ?_
    exact ((State.failed_keeps f _).rd .RLDx_STAT_TLER_CUT _ (by decide)).trans on

theorem State.tlerExpiry_cut {f : Nat} {c : Cmd} {l : Ladder} (found : s.findCmd f = some c) (limit : s.tler c ≠ 0) (open' : c.ready = none)
    (mem : l ∈ (s.str.get x).ladders) (source : l.source = .host) (command : l.command = f) (attached : l.detached = false) :
    (s.tlerExpiry f).rd .RLDx_STAT_TLER_CUT x.ix = 1 := by
  rw [State.tlerExpiry_eq found limit open']
  refine foldl_reaches (P := fun u : State => l ∈ (u.str.get x).ladders ∨ u.rd .RLDx_STAT_TLER_CUT x.ix = 1)
    (Q := fun u => u.rd .RLDx_STAT_TLER_CUT x.ix = 1) (Str.mem_all x) (.inl mem) (fun u y here => ?_) (fun u here => ?_)
    fun u y on => State.cutString_cut y on
  · rcases here with mem | on
    · by_cases same : y = x
      · exact .inr (by rw [same]; exact State.cutString_self mem source command attached)
      · exact .inl (by rw [State.cutString_ne same]; exact mem)
    · exact .inr (State.cutString_cut y on)
  · rcases here with mem | on
    · exact State.cutString_self mem source command attached
    · exact State.cutString_cut x on

end

/-- Settles O23. -/
theorem ladderEffects : Obligations.LadderEffects := by
  refine ⟨fun s x turn l present found state fresh least most ready run => .onStr rfl present ?_,
    fun s x turn l z r present found zone record state fresh rung ready run reads => .onStr rfl present ?_,
    fun s x l present room waits => .onStr rfl present ?_, fun s x f c l found limit open' mem source command attached => ⟨_, rfl, ?_⟩⟩
  · exact State.ladderRevolution_effect found state fresh least most ready run
  · exact State.parityPass_effect found zone record state fresh rung ready run reads
  · exact State.ladderResume_effect room waits
  · exact State.tlerExpiry_cut found limit open' mem source command attached

end Sys2Proof.Machine

/-! PROOF. Proofs/Harp.lean: the Harp decoder pool's commands and events (R163 to R200). -/
namespace Sys2Proof.Machine

section
variable {s t u : State} {x : Str}

/-! ### The dispatch store (R191) -/

/-- With room in the store an entry is stored. -/
theorem State.offer_of_room {e : HarpEntry} (room : s.harp.store.length < 48) :
    s.offer e = (true, s.modHarp fun h => { h with store := h.store ++ [e] }) := by
  rw [State.offer, if_pos room]

theorem State.codewordReady_effect {i : Nat} {c : Slot} (slot : s.slot x i = some c) (ended : c.recording = false)
    (room : s.harp.store.length < 48) : (s.codewordReady x i).harp.store.length = s.harp.store.length + 1 ∧
      ∃ e ∈ (s.codewordReady x i).harp.store, e.x = x ∧ e.slot = i ∧ e.cls = 3 ∧ e.iteration = 1 ∧ e.bitFlip = c.peak := by
  have same (b : Bool) (k : Nat) : (s.when b fun s => s.bump .RCHx_CNT2_PD_POL x.ix k).harp = s.harp := by cases b <;> rfl
  have room' (b : Bool) (k : Nat) : (s.when b fun s => s.bump .RCHx_CNT2_PD_POL x.ix k).harp.store.length < 48 := by rwa [same]
  simp only [State.codewordReady, slot, ended, Bool.false_eq_true, if_false, State.offer_of_room (room' _ _), if_true, State.modHarp_harp, same]
  exact ⟨by simp, _, List.mem_append_right _ (List.mem_singleton_self _), rfl, rfl, rfl, rfl, rfl⟩

theorem startPass_slots (c : Rch) : (startPass c).slots = c.slots := by
  unfold startPass
  split
  · rfl
  · dsimp only
    split_ifs
    · split <;> rfl
    · split <;> rfl
    · rfl

theorem State.startPasses_slot (i : Nat) : (s.startPasses x).slot x i = s.slot x i := by
  simp [State.slot, State.startPasses, startPass_slots]

theorem State.passDone_effect {second : Bool} {p : Pass} {c : Slot}
    (running : (if second then (s.str.get x).rch.pipe2 else (s.str.get x).rch.pipe1) = some p) (wanted : p.discard = false)
    (slot : s.slot x p.slot = some c) (room : s.harp.store.length < 48) :
    ∃ e ∈ (s.passDone x second).harp.store, e.x = x ∧ e.slot = p.slot ∧ e.cls = p.cls ∧ e.shift = p.shift ∧ e.iteration = p.iteration := by
  simp only [State.passDone, running]
  generalize freed : State.startPasses _ x = u
  have slot' : u.slot x p.slot = some c := by
    rw [← freed, State.startPasses_slot, ← slot]
    cases second <;> simp [State.slot]
  have harp : (u.passEntry x p c).2.harp = s.harp := by
    rw [← freed, (State.passEntry_after (.refl _) (Nat.or_self _) (Nat.or_self _)).parts .harp rfl]
    rfl
  simp only [slot', wanted, Bool.false_eq_true, if_false, State.offer_of_room (harp ▸ room)]
  rw [(State.repeatPasses_after (.refl _) (Nat.or_self _) (Nat.or_self _)).parts .harp rfl]
  exact ⟨_, List.mem_append_right _ (List.mem_singleton_self _), rfl, rfl, rfl, rfl, rfl⟩

theorem State.boundary_of_empty (empty : s.shadow = []) (b : Blk) (inst : Nat) : s.boundary b inst = s := by
  cases s
  simp only at empty
  subst empty
  rfl

theorem State.laneJob_setLane {n : Nat} (j : LaneJob) (lane : n < s.harp.lanes.length) : (s.setLane n j).laneJob n = j := by
  simp [State.laneJob, State.setLane, lane]

/-- A lane that does something is a lane. -/
theorem State.lane_lt {n : Nat} (busy : s.laneJob n ≠ .idle) : n < s.harp.lanes.length := by
  by_contra beyond
  exact busy (List.getD_eq_default _ _ (Nat.le_of_not_lt beyond))

theorem State.refillStore_laneJob (n : Nat) : s.refillStore.laneJob n = s.laneJob n := by
  simp only [State.refillStore]
  split
  · split <;> rfl
  · rfl

theorem State.harpDispatch_effect {e : HarpEntry} {n : Nat} (empty : s.shadow = []) (next : nextEntry s.harp.store = some e)
    (lane : n ∈ s.harp.lru) (free : s.eligible n = true) (lanes : ∀ m ∈ s.harp.lru, m < s.harp.lanes.length) :
    ∃ m ∈ s.harp.lru, s.eligible m = true ∧ s.harpDispatch.laneJob m = .decoding e := by
  have candidate : n ∈ s.harp.lru.filter s.eligible := List.mem_filter.2 ⟨lane, free⟩
  simp only [State.harpDispatch, State.boundary_of_empty empty, next]
  generalize chosen : (if ((s.harp.lru.filter s.eligible).filter fun n => e.struckQuad != some (laneQuad n)).isEmpty = true
    then s.harp.lru.filter s.eligible else (s.harp.lru.filter s.eligible).filter fun n => e.struckQuad != some (laneQuad n)) = l
  have among : ∀ m ∈ l, m ∈ s.harp.lru ∧ s.eligible m = true := by
    intro m mem
    rw [← chosen] at mem
    split at mem
    · exact List.mem_filter.1 mem
    · exact List.mem_filter.1 (List.mem_filter.1 mem).1
  split
  next none =>
    split at chosen
    · rw [chosen] at candidate
      cases candidate
    next some => simp [chosen] at some
  next m later =>
    obtain ⟨mem, free⟩ := among m List.mem_cons_self
    refine ⟨m, mem, free, ?_⟩
    rw [State.refillStore_laneJob]
    exact State.laneJob_setLane _ (lanes m mem)

/-! ### Strikes and self-tests (R190 to R195) -/

theorem State.strike_flag (n cause : Nat) : (s.strike n cause).rd .HARP_STAT_STRIKE = 1 := by
  have k {v : State} : Keeps (allBut [.HARP_STAT_STRIKE]) everyPart (v.flag .HARP_STAT_STRIKE) (if min 3 (s.strikes n + 1) = 3
      then (((v.flag .HARP_STAT_STRIKE).bump .HARP_CNT1_STRIKES).setLane n .idle).retireLane n cause
      else ((v.flag .HARP_STAT_STRIKE).bump .HARP_CNT1_STRIKES).startSelfTest n) :=
    .ite (fun _ => State.retireLane_after (State.setLane_after (.bump (.refl _) (by decide)) (by decide) (by decide)) (by decide) (by decide))
      fun _ => State.startSelfTest_after (.bump (.refl _) (by decide)) (by decide) (by decide)
  rw [State.strike, k.rd .HARP_STAT_STRIKE _ (by decide), State.rd_flag_self]
  rfl

theorem State.strikeOn_effect (n cause : Nat) (e : HarpEntry) (signature : Option Nat) :
    (s.strikeOn n cause e signature).rd .HARP_STAT_STRIKE = 1 ∧
      ∃ r ∈ (s.strikeOn n cause e signature).harp.records, r.x = e.x ∧ r.slot = e.slot ∧ r.lane = n ∧ r.signature = signature := by
  have k {v : State} := State.restartCodeword_after (e := e) (.refl v) (Nat.or_self _) (Nat.or_self _)
  simp only [State.strikeOn]
  refine ⟨?_, ?_⟩
  · rw [k.rd .HARP_STAT_STRIKE _ (by decide)]
    exact State.strike_flag n cause
  · rw [k.parts .harp rfl]
    exact ⟨_, List.mem_cons_self, rfl, rfl, rfl, rfl⟩

theorem State.confirmed_keeps (n : Nat) (e : HarpEntry) (signature : Nat) :
    Keeps (allBut [.HARP_CNT0_CONFIRMED]) everyPart (s.bump .HARP_CNT0_CONFIRMED) (s.confirmed n e signature) := by
  have h : Keeps (allBut [.HARP_CNT0_CONFIRMED]) everyPart (s.bump .HARP_CNT0_CONFIRMED)
      ((s.bump .HARP_CNT0_CONFIRMED).settleStrike n signature e) := State.settleStrike_after (.refl _) (by decide) (by decide)
  simp only [State.confirmed]
  split
  · exact h
  · refine .ite (fun _ => .ite (fun _ => ?_) fun _ => ?_) fun _ => .ite (fun _ => ?_) fun _ => ?_
    · exact State.slipLost_after (.flag h (by decide)) (by decide) (by decide)
    · exact State.decodeFailed_after (.flag h (by decide)) (by decide) (by decide)
    · exact State.slipHit_after h (by decide) (by decide)
    · exact State.deliver_after (State.adaptVerdict_after h (by decide) (by decide)) (by decide) (by decide)

theorem State.verdict_confirmed {n signature : Nat} {claim : Bool} {e : HarpEntry} {ext : List Int}
    (lane : s.laneJob n = .checking e claim signature ext) :
    (s.verdict n true).rd .HARP_CNT0_CONFIRMED = min (2 ^ 32 - 1) (s.rd .HARP_CNT0_CONFIRMED + 1) := by
  have idle : Keeps (allBut [.HARP_CNT0_CONFIRMED]) everyPart s
      ((s.setLane n .idle).when (!claim) fun s => s.bump .HARP_CNT3_MISCLAIM) :=
    .when (State.setLane_after (.refl s) (by decide) (by decide)) fun _ h => .bump h (by decide)
  simp only [State.verdict, lane, if_true]
  generalize (s.setLane n .idle).when _ _ = v at idle
  have ends : Keeps (allBut [.HARP_CNT0_CONFIRMED]) everyPart (v.bump .HARP_CNT0_CONFIRMED)
      (if (v.confirmed n e signature).harp.retireAfter.contains n = true
        then ((v.confirmed n e signature).modHarp fun h => { h with retireAfter := h.retireAfter.erase n }).when
          (!((v.confirmed n e signature).modHarp fun h => { h with retireAfter := h.retireAfter.erase n }).bit .HARP_RETIRED_LANES n)
          fun s => s.retireLane n 3
        else v.confirmed n e signature) :=
    .ite (fun _ => .when (State.modHarp_after (State.confirmed_keeps n e signature) (by decide) (by decide)) fun _ h =>
      State.retireLane_after h (by decide) (by decide)) fun _ => State.confirmed_keeps n e signature
  rw [ends.rd .HARP_CNT0_CONFIRMED _ (by decide), State.rd_bump_self, idle.rd .HARP_CNT0_CONFIRMED _ (by decide)]
  rfl

/-! ### A lane that is idle -/

/-- Lane `n` of `t` has nothing to do. -/
def LaneIdle (n : Nat) (t : State) : Prop := t.laneJob n = .idle

section
variable {n : Nat}

theorem LaneIdle.of_harp (h : LaneIdle n t) (same : u.harp = t.harp) : LaneIdle n u := by rwa [LaneIdle, State.laneJob, same]

theorem LaneIdle.setLane (n : Nat) (s : State) : LaneIdle n (s.setLane n .idle) := by
  simp only [LaneIdle, State.laneJob, State.setLane, State.modHarp_harp, List.getD_eq_getElem?_getD, List.getElem?_set_self']
  cases s.harp.lanes[n]? <;> rfl

theorem LaneIdle.wr {r : Reg} {v i : Nat} (h : LaneIdle n t) : LaneIdle n (t.wr r v i) := h
theorem LaneIdle.modSeq {q : SeqId} {f : Sequencer → Sequencer} (h : LaneIdle n t) : LaneIdle n (t.modSeq x q f) := h
theorem LaneIdle.logEvent {code severity mask : Nat} {data : List Nat} (h : LaneIdle n t) :
    LaneIdle n (t.logEvent code severity mask data) := h
theorem LaneIdle.notice {b : Bool} (h : LaneIdle n t) : LaneIdle n (t.modHarp fun h => { h with noticed := b }) := h

theorem LaneIdle.when {b : Bool} {f : State → State} (h : LaneIdle n t) (k : ∀ t, LaneIdle n t → LaneIdle n (f t)) :
    LaneIdle n (t.when b f) := by
  cases b
  · exact h
  · exact k t h

/-- The captures of a String are dropped: the lanes that decode them become idle, the others go on. -/
theorem LaneIdle.dropSlots (h : LaneIdle n t) (x : Str) : LaneIdle n (t.dropSlots x) := by
  unfold State.dropSlots
  refine .of_harp (t := _) ?_ ((State.rchRefresh_after (.refl _) (Nat.or_self _) (Nat.or_self _)).parts .harp rfl)
  have credits : ((((t.str.get x).rch.slots.filterMap id).foldl (fun s c => s.giveCredit x c.action.request.source) t).harp) = t.harp :=
    (Keeps.foldl (.refl t) fun _ _ h => State.giveCredit_after h (by decide) (by decide) :
      Keeps everyReg (partsBut [.harp]) t _).parts .harp rfl
  simp only [LaneIdle, State.laneJob, State.modRch_harp, credits, List.getD_eq_getElem?_getD, List.getElem?_map]
  rw [LaneIdle, State.laneJob, List.getD_eq_getElem?_getD] at h
  cases lane : t.harp.lanes[n]? with
  | none => rfl
  | some j =>
    rw [lane] at h
    cases h
    rfl

theorem LaneIdle.failReads (h : LaneIdle n t) (x : Str) (st : Option NvStatus) : LaneIdle n (t.failReads x st) := by
  have lost {v : State} (l : List Ladder) (m : List Slot) (k : List Request) : Keeps everyReg (partsBut [.harp]) v
      (l.foldl (fun s l => s.failLost st l.command l.place.lba) (m.foldl (fun s c =>
        s.failLost st c.action.request.tag (((c.action.request.places[c.action.offset]?).map (·.lba)).getD 0))
        (k.foldl (fun s r => r.places.foldl (fun s p => s.failLost st r.tag p.lba) s) v))) :=
    .foldl (.foldl (.foldl (.refl v) fun _ _ h => .foldl h fun _ _ h => State.failLost_after h (by decide) (by decide)) fun _ _ h =>
      State.failLost_after h (by decide) (by decide)) fun _ _ h => State.failLost_after h (by decide) (by decide)
  refine .of_harp (t := ((t.modSeq x .rsq fun u => { u with queue := [], returned := [], armed := [], progress := 0 }).dropSlots x)) ?_ ?_
  · exact LaneIdle.dropSlots h.modSeq x
  · exact ((lost _ _ _).parts .harp rfl).trans ((State.sqRefresh_after (.refl _) (Nat.or_self _) (Nat.or_self _)).parts .harp rfl)

theorem LaneIdle.noLanes (h : LaneIdle n t) : LaneIdle n t.noLanes :=
  List.foldlRecOn (motive := LaneIdle n) _ _ h fun _ h _ _ => .failReads h _ _

theorem LaneIdle.setDegr (h : LaneIdle n t) (b : Nat) (on : Bool) : LaneIdle n (t.setDegr b on) :=
  h.of_harp ((State.setDegr_after (.refl _) (Nat.or_self _) (Nat.or_self _)).parts .harp rfl)

theorem LaneIdle.harpRefresh (h : LaneIdle n t) : LaneIdle n t.harpRefresh := by
  unfold State.harpRefresh
  refine .of_harp (.when ?_ fun _ h => .noLanes h) ((State.streamRefresh_after (.refl _) (Nat.or_self _) (Nat.or_self _)).parts .harp rfl)
  split
  · refine LaneIdle.setDegr (LaneIdle.when (LaneIdle.wr (LaneIdle.wr (LaneIdle.wr h))) fun v h => ?_) _ _
    exact LaneIdle.of_harp h.notice.logEvent ((State.vendorEvent_after (.refl _) (Nat.or_self _) (Nat.or_self _)).parts .harp rfl)
  · exact LaneIdle.setDegr (LaneIdle.notice (LaneIdle.wr (LaneIdle.wr (LaneIdle.wr h)))) _ _

end

/-! ### Self-tests, retirement and return (R193 to R198) -/

theorem State.selfTestPassed_effect (lane : Nat) :
    (((s.setLane lane .idle).unflagBit .HARP_WDRAWN_LANES lane).harpRefresh.settleRequests).laneJob lane = .idle ∧
      (((s.setLane lane .idle).unflagBit .HARP_WDRAWN_LANES lane).harpRefresh.settleRequests).bit .HARP_WDRAWN_LANES lane = false := by
  have k {v : State} : Keeps (allBut [.HARP_WDRAWN_LANES]) everyPart v v.harpRefresh.settleRequests :=
    State.settleRequests_after (State.harpRefresh_after (.refl v) (by decide) (by decide)) (by decide) (by decide)
  refine ⟨?_, ?_⟩
  · refine LaneIdle.of_harp (t := ((s.setLane lane .idle).unflagBit .HARP_WDRAWN_LANES lane).harpRefresh)
        (LaneIdle.harpRefresh (LaneIdle.setLane lane s).wr) ?_
    exact (State.settleRequests_after (.refl _) (Nat.or_self _) (Nat.or_self _)).parts .harp rfl
  · rw [State.bit, k.rd .HARP_WDRAWN_LANES _ (by decide)]
    by_cases within : lane < Reg.HARP_WDRAWN_LANES.row.width
    · rw [State.testBit_unflagBit _ _ _ _ _ within, if_pos rfl]
    · rw [State.unflagBit, State.rd_wr_self, Nat.testBit_mod_two_pow, decide_eq_false within, Bool.false_and]

theorem State.selfTestFailed_strike (lane : Nat) : (s.strike lane 2).settleRequests.rd .HARP_STAT_STRIKE = 1 := by
  rw [(State.settleRequests_after (.refl _) (Nat.or_self _) (Nat.or_self _)).rd .HARP_STAT_STRIKE _ (by decide), State.strike_flag]

theorem State.retireLane_effect {lane : Nat} (cause : Nat) (least : lane < 32) (known : cause < 8) :
    (s.retireLane lane cause).bit .HARP_RETIRED_LANES lane = true ∧ (s.retireLane lane cause).rd .HARP_STAT_LANE_RETIRED = 1 ∧
      (s.retireLane lane cause).rd .HARP_LOG_LANE = lane ∧ (s.retireLane lane cause).rd .HARP_LOG_CAUSE = cause := by
  have k {v : State} (time : Nat) (data : List Nat) :
      Keeps (allBut [.HARP_RETIRED_LANES, .HARP_STAT_LANE_RETIRED, .HARP_LOG_LANE, .HARP_LOG_CAUSE]) everyPart v
        (((v.wr .HARP_LOGTIME_TIME time).logEvent 0x0001 1 0 data).journal (deviceRow 0)).harpRefresh.readmitReads :=
    State.readmitReads_after (State.harpRefresh_after (State.journal_after (State.logEvent_after (.wr (.refl v) (by decide)) (by decide)
      (by decide)) (by decide) (by decide)) (by decide) (by decide)) (by decide) (by decide)
  have marked : Keeps (allBut [.HARP_RETIRED_LANES]) everyPart (s.flagBit .HARP_RETIRED_LANES lane)
      ((((((s.flagBit .HARP_RETIRED_LANES lane).unflagBit .HARP_WDRAWN_LANES lane).flag .HARP_STAT_LANE_RETIRED).wr .HARP_LOG_LANE lane).wr
        .HARP_LOG_CAUSE cause)) := .wr (.wr (.flag (.unflagBit (.refl _) (by decide)) (by decide)) (by decide)) (by decide)
  refine ⟨?_, ?_, ?_, ?_⟩
  · rw [State.bit, State.retireLane, (k _ _).rd .HARP_RETIRED_LANES _ (by decide), marked.rd .HARP_RETIRED_LANES _ (by decide),
        State.testBit_flagBit _ _ _ _ _ least,
      if_pos rfl]
  · rw [State.retireLane, (k _ _).rd .HARP_STAT_LANE_RETIRED _ (by decide),
        State.rd_wr_ne _ _ _ _ _ _ (by decide), State.rd_wr_ne _ _ _ _ _ _ (by decide),
      State.rd_flag_self]
    rfl
  · rw [State.retireLane, (k _ _).rd .HARP_LOG_LANE _ (by decide), State.rd_wr_ne _ _ _ _ _ _ (by decide), State.rd_wr_self]
    exact Nat.mod_eq_of_lt least
  · rw [State.retireLane, (k _ _).rd .HARP_LOG_CAUSE _ (by decide), State.rd_wr_self]
    exact Nat.mod_eq_of_lt known

theorem State.harpRetire_idle {lane : Nat} (inService : s.bit .HARP_RETIRED_LANES lane = false) (idle : s.laneJob lane = .idle) :
    s.harpRetire lane = (s.wr .HARP_CTRL_RLANE lane).retireLane lane 3 := by
  have inService' : (s.wr .HARP_CTRL_RLANE lane).bit .HARP_RETIRED_LANES lane = false := by
    rw [← inService, State.bit, State.rd_wr_ne _ _ _ _ _ _ (by decide), State.bit]
  have idle' : (s.wr .HARP_CTRL_RLANE lane).laneJob lane = .idle := idle
  simp only [State.harpRetire, inService', Bool.false_eq_true, if_false, idle']

theorem State.harpUnretire_effect {lane : Nat} (least : lane < 32) :
    (s.rd .PWR_STAT_MODE = 7 → (s.harpUnretire lane).2.bit .HARP_RETIRED_LANES lane = false) ∧
      (s.rd .PWR_STAT_MODE ≠ 7 → (s.harpUnretire lane).2.rd .HARP_STAT_CFG_LOCKED = 1) := by
  have mode : (s.wr .HARP_CTRL_RLANE lane).mode = s.rd .PWR_STAT_MODE := State.rd_wr_ne _ _ _ _ _ _ (by decide)
  refine ⟨fun maintenance => ?_, fun other => ?_⟩
  · have clear : (((s.wr .HARP_CTRL_RLANE lane).setStrikes lane 0).unflagBit .HARP_RETIRED_LANES lane).bit .HARP_RETIRED_LANES lane = false := by
      rw [State.bit, State.testBit_unflagBit _ _ _ _ _ least, if_pos rfl]
    have acts : ¬((s.wr .HARP_CTRL_RLANE lane).mode != 7) = true := by simp [mode, maintenance]
    simp only [State.harpUnretire, if_neg acts]
    split
    · rw [State.bit, (State.startSelfTest_after (.refl _) (Nat.or_self _) (Nat.or_self _)).rd .HARP_RETIRED_LANES _ (by decide)]
      exact clear
    · rw [State.bit, (State.harpRefresh_after (.refl _) (Nat.or_self _) (Nat.or_self _)).rd .HARP_RETIRED_LANES _ (by decide)]
      exact clear
  · have refused : ((s.wr .HARP_CTRL_RLANE lane).mode != 7) = true := by simp [mode, other]
    simp only [State.harpUnretire, if_pos refused]
    exact State.rd_flag_self ..

end

/-- Settles O24. -/
theorem harpEffects : Obligations.HarpEffects := by
  refine ⟨fun s x i c present slot ended room => .onStr rfl present (State.codewordReady_effect slot ended room),
    fun s x second p c present running wanted slot room => .onStr rfl present (State.passDone_effect running wanted slot room),
    fun s e n empty next lane free lanes => ⟨_, rfl, State.harpDispatch_effect empty next lane free lanes⟩,
    fun s lane signature out e job => ⟨_, rfl, ?_⟩, fun s lane e job => ⟨_, rfl, ?_⟩,
    fun s lane signature claim e ext job => ⟨_, rfl, State.verdict_confirmed job⟩, fun s lane passed job => ⟨_, rfl, ?_⟩,
    fun s lane least inService idle => ⟨_, rfl, ?_⟩, fun s lane least => ⟨_, rfl, ?_⟩⟩
  · simp only [job]
    exact State.laneJob_setLane _ (State.lane_lt (by simp [job]))
  · simp only [job]
    exact State.strikeOn_effect lane 1 e none
  · simp only [job]
    refine ⟨fun good => ?_, fun bad => ?_⟩
    · rw [good, if_pos rfl]
      exact State.selfTestPassed_effect lane
    · rw [bad, if_neg (by decide)]
      exact State.selfTestFailed_strike lane
  · rw [Nat.mod_eq_of_lt least, State.harpRetire_idle inService idle]
    exact State.retireLane_effect 3 least (by decide)
  · rw [Nat.mod_eq_of_lt least]
    exact State.harpUnretire_effect least

end Sys2Proof.Machine

/-! PROOF. Proofs/WriteGate.lean: a write-gate open of a run that is already marked (R218). -/
namespace Sys2Proof.Machine

/-- A start of a parity sector, on the set in force. -/
def gateStart : Armed :=
  { request := { id := 0, type := 0, track := 0, head := 0, set := 0, slipOk := false, stream := false, places := [], source := .host, tag := 0
                 zone := none, offs := 0 }
    offset := 0, sector := { index := 0, start := 0, wedge := 0, split := none }, set := 0, slipOk := false, cont := false }

/-- String A with every condition of the gate met and one start committed. Its register file lists RUN with the value 2, which the
one-bit field never takes from a write. -/
def gateState : State :=
  { State.reset with
    regs := [ (regKey .WRPx_CTRL_EN 0, 1), (regKey .WRPx_STAT_RUN 0, 2), (regKey .SCEx_STAT_PVALID 0, 1), (regKey .SCEx_STAT_WINH 0, 0)
            , (regKey .AEx_STAT_STATE 0, 3), (regKey .RCHx_STAT_PLL_LOCK 0, 1), (regKey .FRET_PERIOD_PS 0, 17361111)
            , (regKey .RCHx_SET_SET 0, 2 ^ 31 + 5000) ]
    capo := { Capo.atReset with inhibit := Quad.all false }
    spe := { Spe.atReset with inhibit := Quad.all false }
    str := Quad.all { StringState.atReset with wsq := { Sequencer.atReset with armed := [gateStart] } } }

theorem gateState_run : (gateState.writeGateOpen .A).rd .WRPx_STAT_RUN Str.A.ix = 2 := by decide

/-- Refutes O25: an open finds the run marked and leaves RUN as it stands, which is 1 in a file that holds it truncated only. -/
theorem not_writePathEffects : ¬ Obligations.WritePathEffects := by
  rintro ⟨opens, -⟩
  obtain ⟨t, run, -, marked, -⟩ := opens gateState .A gateStart [] rfl rfl rfl rfl
      (by decide) (by decide) (by decide) (by decide) (by decide) (by decide)
    (by decide) (by decide) (by decide) (by decide) (by decide) (by decide)
  cases Host.Outcome.next.inj run
  rw [State.onStr_of_present rfl, gateState_run] at marked
  exact absurd marked (by decide)

end Sys2Proof.Machine

/-! PROOF. Proofs/Phovi.lean: Phovi's commands and events (R335 to R350). -/
namespace Sys2Proof.Machine

section
variable {s t : State}

/-! ### Commands of the host -/

/-- The command found is the one that is changed. -/
theorem State.findCmd_modCmd {f : Nat} {c : Cmd} (found : s.findCmd f = some c) {g : Cmd → Cmd} (same : ∀ c, (g c).fseq = c.fseq) :
    (s.modCmd f g).findCmd f = some (g c) := by
  rw [State.findCmd] at found
  have mine : c.fseq = f := by simpa using List.find?_some found
  have hits (e : Cmd) : ((fun e : Cmd => e.fseq == f) ∘ fun e => if (e.fseq == f) = true then g e else e) e = (e.fseq == f) := by
    by_cases h : e.fseq = f <;> simp [h, same]
  rw [State.findCmd, State.modCmd, State.modHost_host, List.find?_map, funext hits, found]
  simp [mine]

theorem State.findCmd_finish {f : Nat} {c : Cmd} (found : s.findCmd f = some c) (st : NvStatus) (dw0 dw1 : Nat) :
    (s.finish f st dw0 dw1).findCmd f = some { c with started := true, ready := some (st, dw0, dw1), owed := [] } :=
  State.findCmd_modCmd found fun _ => rfl

/-- The same commands give the same command. -/
theorem State.findCmd_of_cmds (same : t.host.cmds = s.host.cmds) (f : Nat) : t.findCmd f = s.findCmd f := by
  rw [State.findCmd, same, State.findCmd]

/-! ### Engines (R345 to R350) -/

section
variable {e : Nat}

@[simp] theorem State.phvRefresh_phv : s.phvRefresh.phv = s.phv :=
  (State.phvRefresh_after (.refl s) (Nat.or_self _) (Nat.or_self _)).parts .phv rfl

/-- What STATE of an engine shows. -/
def State.engineCode (s : State) (e : Nat) : Nat :=
  if !s.phvInService e then 3 else match s.phv.engines.getD e none with
    | none => 0
    | some j => if j.compress then 1 else 2

theorem State.engineCode_lt : s.engineCode e < 4 := by
  unfold State.engineCode
  split
  · decide
  · split
    · decide
    · split <;> decide

theorem State.phvRefresh_state (engine : e < 2) : s.phvRefresh.rd .PHV_ENG_STATE e = s.engineCode e := by
  have code (v : State) (k : Nat) (same : v.rd .PHV_STAT_INSVC = s.rd .PHV_STAT_INSVC) (jobs : v.phv = s.phv) :
      v.engineCode k = s.engineCode k := by
    unfold State.engineCode State.phvInService State.bit
    rw [same, jobs]
  have shown : s.phvRefresh = [0, 1].foldl (fun s e => s.wr .PHV_ENG_STATE (s.engineCode e) e)
      ((s.wr .PHV_STAT_SLOTS_FREE (4 - s.phv.saved.length)).wr .PHV_STAT_QUEUED (min 32 s.phv.queue.length)) := rfl
  rw [shown, List.foldl_cons, List.foldl_cons, List.foldl_nil]
  have fits (k : Nat) : s.engineCode k % 2 ^ Reg.PHV_ENG_STATE.row.width = s.engineCode k := Nat.mod_eq_of_lt State.engineCode_lt
  have first := code ((s.wr .PHV_STAT_SLOTS_FREE (4 - s.phv.saved.length)).wr .PHV_STAT_QUEUED (min 32 s.phv.queue.length)) 0
    (by simp (disch := decide) [State.rd_wr_ne]) rfl
  have second := code (((s.wr .PHV_STAT_SLOTS_FREE (4 - s.phv.saved.length)).wr .PHV_STAT_QUEUED (min 32 s.phv.queue.length)).wr
    .PHV_ENG_STATE (s.engineCode 0) 0) 1 (by simp (disch := decide) [State.rd_wr_ne]) rfl
  rw [first, second]
  rcases Nat.lt_or_ge e 1 with zero | one
  · obtain rfl : e = 0 := by omega
    rw [State.rd_wr_entry _ _ _ _ _ (by decide), State.rd_wr_self, fits]
  · obtain rfl : e = 1 := by omega
    rw [State.rd_wr_self, fits]

theorem State.phvRefresh_slotsFree : s.phvRefresh.rd .PHV_STAT_SLOTS_FREE = 4 - s.phv.saved.length := by
  have k {v : State} : Keeps (maskOf [.PHV_ENG_STATE]) 0 v ([0, 1].foldl (fun s e => s.wr .PHV_ENG_STATE (s.engineCode e) e) v) :=
    .foldl (.refl v) fun _ _ h => .wr h (by decide)
  have shown : s.phvRefresh = [0, 1].foldl (fun s e => s.wr .PHV_ENG_STATE (s.engineCode e) e)
      ((s.wr .PHV_STAT_SLOTS_FREE (4 - s.phv.saved.length)).wr .PHV_STAT_QUEUED (min 32 s.phv.queue.length)) := rfl
  rw [shown, k.rd .PHV_STAT_SLOTS_FREE _ (by decide), State.rd_wr_ne _ _ _ _ _ _ (by decide), State.rd_wr_self]
  exact Nat.mod_eq_of_lt (Nat.lt_of_le_of_lt (Nat.sub_le ..) (by decide))

theorem List.getD_set_default {α : Type} (l : List α) (i : Nat) (a : α) : (l.set i a).getD i a = a := by
  simp only [List.getD_eq_getElem?_getD, List.getElem?_set_self']
  cases l[i]? <;> rfl

theorem State.phvFree_engine : (s.phvFree e).phv.engines.getD e none = none := by
  rw [State.phvFree, State.phvRefresh_phv]
  exact List.getD_set_default ..

theorem State.jobStart_effect {j : PhvJob} (empty : s.shadow = []) (engine : e < 2) (inService : s.phvSweep.phvInService e = true)
    (length : e < s.phvSweep.phv.engines.length) (idle : s.phvSweep.phv.engines.getD e none = none)
    (next : s.phvSweep.nextJob e = some j) : ∃ j', (s.jobStart e).phv.engines.getD e none = some j' ∧ j'.id = j.id ∧ j'.lba = j.lba ∧
      j'.compress = j.compress ∧ (s.jobStart e).rd .PHV_ENG_STATE e = if j.compress then 1 else 2 := by
  have empty' : s.phvSweep.shadow = [] := by
    rw [(State.phvSweep_after (.refl _) (Nat.or_self _) (Nat.or_self _)).parts .shadow rfl, empty]
  have takes : ¬(!decide (e < 2) || !s.phvSweep.phvInService e || (s.phvSweep.phv.engines.getD e none).isSome) = true := by
    rw [decide_eq_true engine, inService, idle]
    decide
  simp only [State.jobStart, if_neg takes, next, State.boundary_of_empty empty']
  generalize given : (if (s.phvSweep.phv.queue.any fun q => q.id == j.id) = true then _ else j : PhvJob) = j'
  have job : j'.id = j.id ∧ j'.lba = j.lba ∧ j'.compress = j.compress := by
    rw [← given]
    split <;> exact ⟨rfl, rfl, rfl⟩
  obtain ⟨id, lba, compress⟩ := job
  have runs : (s.phvSweep.modPhv fun p => { p with
      queue := p.queue.filter (fun q => q.id != j.id), saved := p.saved.filter (fun q => q.id != j.id)
      engines := p.engines.set e (some j') }).phv.engines.getD e none = some j' := by simp [length]
  refine ⟨j', ?_, id, lba, compress, ?_⟩
  · rw [State.phvRefresh_phv]
    exact runs
  · rw [State.phvRefresh_state engine, State.engineCode, runs, ← compress]
    have serves (f : Phovi → Phovi) : (s.phvSweep.modPhv f).phvInService e = true := inService
    rw [serves]
    rfl

theorem State.jobDone_engine {caps : List (List Nat × Nat)} {overrun : Bool} {j : PhvJob} {k : Capsule}
    (running : s.phv.engines.getD e none = some j) (expand : j.compress = false) (open' : s.jobOver j = false)
    (staged : s.jobStaged j = true) (capsule : s.jobCapsule j = some k) (good : (decodeCapsule k.lba k.blocks k.bytes).1 = 0) :
    (s.jobDone e caps overrun 0).phv.engines.getD e none = none := by
  simp only [State.jobDone, running, expand, open', staged, Bool.false_eq_true, if_false, if_true, State.decompressDone, Nat.min_zero, capsule,
    Option.map_some, Option.getD_some, good]
  exact State.phvFree_engine

theorem State.jobSuspend_effect {j : PhvJob} (running : s.phv.engines.getD e none = some j) (expand : j.compress = false)
    (waits : s.jobStaged j = false) (room : s.phv.saved.length < 4) : (s.jobSuspend e).phv.engines.getD e none = none ∧
      (s.jobSuspend e).phv.saved = s.phv.saved ++ [j] ∧ (s.jobSuspend e).rd .PHV_STAT_PREEMPT = 1 ∧
      (s.jobSuspend e).rd .PHV_STAT_SLOTS_FREE = 4 - (s.jobSuspend e).phv.saved.length := by
  have due : (!s.jobStaged j && decide (s.phv.saved.length < 4)) = true := by rw [waits, decide_eq_true room]; rfl
  simp only [State.jobSuspend, running, expand, Bool.false_eq_true, if_false, if_pos due, State.phvRefresh_phv]
  refine ⟨List.getD_set_default .., rfl, ?_, ?_⟩
  · rw [(State.phvRefresh_after (.refl _) (Nat.or_self _) (Nat.or_self _)).rd .PHV_STAT_PREEMPT _ (by decide), State.modPhv_rd,
      State.rd_bump_ne _ _ _ _ (by decide), State.rd_flag_self]
    rfl
  · exact State.phvRefresh_slotsFree

/-! ### Streams and space (R340, R343) -/

theorem storeFind_storeDrop (m : List (Nat × Nat)) (k : Nat) : storeFind (storeDrop m k) k = none := by
  induction m with
  | nil => rfl
  | cons e m ih =>
    rw [storeDrop] at ih ⊢
    by_cases h : e.1 = k <;> simp [storeFind, h, ih]

theorem State.forceTail_phv {record pos : Nat} (kept : storeFind s.phv.positions record = some pos) :
    storeFind (s.forceTail record).phv.positions record = none ∧ (s.forceTail record).phv.packed =
      s.phv.packed.map fun q => if q.record == record && q.z == pos / 4096 then { q with whole := true } else q := by
  simp only [State.forceTail, kept]
  exact ⟨storeFind_storeDrop .., rfl⟩

theorem State.spaceTimeout_effect {f grant : Nat} {c : Cmd} (waits : (f, grant) ∈ s.phv.spaceWait) (found : s.findCmd f = some c) :
    (s.spaceTimeout f).rd .PHV_STAT_CAP_EXC = 1 ∧
      ((s.spaceTimeout f).findCmd f).map (·.ready) = some (some (.capacityExceeded, 0, 0)) ∧
      ∀ e ∈ (s.spaceTimeout f).phv.spaceWait, e.1 ≠ f := by
  have mine : (s.phv.spaceWait.any fun e => e.1 == f) = true := List.any_eq_true.2 ⟨_, waits, beq_self_eq_true _⟩
  simp only [State.spaceTimeout, if_pos mine]
  refine ⟨?_, ?_, ?_⟩
  · rw [(State.finish_after (.refl _) (Nat.or_self _) (Nat.or_self _)).rd .PHV_STAT_CAP_EXC _ (by decide), State.rd_bump_ne _ _ _ _ (by decide),
      State.rd_flag_self]
    rfl
  · rw [State.findCmd_finish (c := c) ?_]
    · rfl
    · exact found
  · rw [(State.finish_after (.refl _) (Nat.or_self _) (Nat.or_self _)).parts .phv rfl]
    intro e mem
    simpa using (List.mem_filter.1 mem).2

/-! ### Retirement (R348, R350) -/

/-- What follows the fall of an engine keeps which engines serve. -/
theorem State.retired_keeps (data : List Nat) (f : Phovi → Phovi) : Keeps (allBut [.PHV_STAT_INSVC, .PHV_STAT_ENG_FAULT]) everyPart s
    ((((s.logEvent 0x000F 2 0 data).modPhv f).phvRefresh).when ((s.logEvent 0x000F 2 0 data).modPhv f).phvRefresh.phvDown
      fun s => s.failCompressed.setDegr 2 true) :=
  .when (State.phvRefresh_after (State.modPhv_after (State.logEvent_after (.refl s) (by decide) (by decide)) (by decide) (by decide))
    (by decide) (by decide)) fun _ h => State.setDegr_after (State.failCompressed_after h (by decide) (by decide)) (by decide) (by decide)

theorem State.phvRetire_inService {e' : Nat} (engine : e < 2) (engine' : e' < 2) :
    (s.phvRetire e').phvInService e = if e = e' then false else s.phvInService e := by
  simp only [State.phvRetire]
  split
  next idle =>
    have off : s.phvInService e' = false := by simpa [engine'] using idle
    split
    next same => rw [same, off]
    next => rfl
  next =>
    rw [State.phvInService, State.bit, (State.retired_keeps _ _).rd .PHV_STAT_INSVC _ (by decide), State.rd_flag_ne _ _ _ _ (by decide),
      State.testBit_unflagBit _ _ _ _ _ engine]
    rfl

theorem State.phvRetire_fault {e' : Nat} (engine' : e' < 2) :
    (s.phvRetire e').rd .PHV_STAT_ENG_FAULT = if s.phvInService e' then 1 else s.rd .PHV_STAT_ENG_FAULT := by
  simp only [State.phvRetire]
  split
  next idle =>
    have off : s.phvInService e' = false := by simpa [engine'] using idle
    rw [off, if_neg (by decide)]
  next acts =>
    have on : s.phvInService e' = true := by
      by_contra off
      exact acts (by simp [off])
    rw [(State.retired_keeps _ _).rd .PHV_STAT_ENG_FAULT _ (by decide), State.rd_flag_self, on, if_pos rfl]
    rfl

theorem State.phvRetireMask_effect {mask : Nat} (engine : e < 2) (named : mask.testBit e = true) :
    (s.phvRetireMask mask).phvInService e = false ∧
      (s.phvInService e = true → (s.phvRetireMask mask).rd .PHV_STAT_ENG_FAULT = 1) := by
  rw [State.phvRetireMask, List.foldl_cons, List.foldl_cons, List.foldl_nil]
  rcases Nat.lt_or_ge e 1 with zero | one
  · obtain rfl : e = 0 := by omega
    rw [named, State.when_true]
    have off : (s.phvRetire 0).phvInService 0 = false := by rw [State.phvRetire_inService engine engine, if_pos rfl]
    cases mask.testBit 1
    · exact ⟨off, fun on => by rw [State.when_false, State.phvRetire_fault engine, on, if_pos rfl]⟩
    · refine ⟨by rw [State.when_true, State.phvRetire_inService engine (by decide), if_neg (by decide), off], fun on => ?_⟩
      rw [State.when_true, State.phvRetire_fault (by decide), State.phvRetire_fault engine, on]
      split <;> rfl
  · obtain rfl : e = 1 := by omega
    rw [named, State.when_true]
    refine ⟨by rw [State.phvRetire_inService engine engine, if_pos rfl], fun on => ?_⟩
    have same : (s.when (mask.testBit 0) fun s => s.phvRetire 0).phvInService 1 = true := by
      cases mask.testBit 0
      · exact on
      · rw [State.when_true, State.phvRetire_inService engine (by decide), if_neg (by decide), on]
    rw [State.phvRetire_fault engine, same, if_pos rfl]

theorem State.phvUnretireMask_effect {mask : Nat} (engine : e < 2) (named : mask.testBit e = true) :
    (s.rd .PWR_STAT_MODE = 7 → (s.phvUnretireMask mask).phvInService e = true ∧ (s.phvUnretireMask mask).rd .PHV_ENG_VFYCNT e = 0) ∧
      (s.rd .PWR_STAT_MODE ≠ 7 → (s.phvUnretireMask mask).rd .PHV_STAT_CFG_LOCKED = 1) := by
  refine ⟨fun maintenance => ?_, fun other => ?_⟩
  · have acts : ¬(s.mode != 7) = true := by simp [State.mode, maintenance]
    have k {v : State} (b : Bool) : Keeps (allBut [.PHV_STAT_INSVC, .PHV_ENG_VFYCNT]) everyPart v (v.phvRefresh.setDegr 2 b) :=
      State.setDegr_after (State.phvRefresh_after (.refl v) (by decide) (by decide)) (by decide) (by decide)
    have back (v : State) (n : Nat) (within : n < 2) : ((v.flagBit .PHV_STAT_INSVC n).wr .PHV_ENG_VFYCNT 0 n).phvInService e =
        if e = n then true else v.phvInService e := by
      rw [State.phvInService, State.bit, State.rd_wr_ne _ _ _ _ _ _ (by decide), State.testBit_flagBit _ _ _ _ _ engine]
      rfl
    simp only [State.phvUnretireMask, if_neg acts]
    rw [State.phvInService, State.bit, (k _).rd .PHV_STAT_INSVC _ (by decide), (k _).rd .PHV_ENG_VFYCNT _ (by decide),
        List.foldl_cons, List.foldl_cons, List.foldl_nil]
    rw [← State.bit, ← State.phvInService]
    rcases Nat.lt_or_ge e 1 with zero | one
    · obtain rfl : e = 0 := by omega
      rw [named, State.when_true]
      cases mask.testBit 1
      · exact ⟨by rw [State.when_false, back _ _ engine, if_pos rfl], by rw [State.when_false, State.rd_wr_self]; rfl⟩
      · refine ⟨by rw [State.when_true, back _ _ (by decide), if_neg (by decide), back _ _ engine, if_pos rfl], ?_⟩
        rw [State.when_true, State.rd_wr_entry _ _ _ _ _ (by decide), State.rd_flagBit_ne _ _ _ _ (by decide), State.rd_wr_self]
        rfl
    · obtain rfl : e = 1 := by omega
      rw [named, State.when_true]
      exact ⟨by rw [back _ _ engine, if_pos rfl], by rw [State.rd_wr_self]; rfl⟩
  · have refused : (s.mode != 7) = true := by simp [State.mode, other]
    rw [State.phvUnretireMask, if_pos refused]
    exact State.rd_flag_self ..

end
end

/-- Settles O26. -/
theorem phoviEffects : Obligations.PhoviEffects := by
  refine ⟨fun s e j empty engine inService length idle next => ⟨_, rfl, State.jobStart_effect empty engine inService length idle next⟩,
    fun s e caps overrun j k running expand open' staged capsule good =>
      ⟨_, rfl, State.jobDone_engine running expand open' staged capsule good⟩,
    fun s e j running expand waits room => ⟨_, rfl, State.jobSuspend_effect running expand waits room⟩,
    fun s record pos kept => ⟨_, rfl, State.forceTail_phv kept⟩,
    fun s f grant c waits found => ⟨_, rfl, State.spaceTimeout_effect waits found⟩,
    fun s mask e engine named => ⟨_, rfl, State.phvRetireMask_effect engine named⟩,
    fun s mask e engine named => ⟨_, rfl, State.phvUnretireMask_effect engine named⟩⟩

end Sys2Proof.Machine

/-! PROOF. Proofs/Cabinet.lean: the Cabinet's commands and events (R313 to R331). -/
namespace Sys2Proof.Machine

section
variable {s t : State}

/-! ### Requests and cores (R329, R330) -/

/-- The requests that the Cabinet holds: those that wait for a core and those that a core works on. -/
def State.cabJobs (s : State) : List CabJob := s.cab.queue ++ s.cab.running.map (·.2)

theorem State.mem_cabJobs_cabStart {j : CabJob} (mem : j ∈ s.cabJobs) : j ∈ s.cabStart.cabJobs := by
  refine List.foldlRecOn (motive := fun (u : State) => j ∈ u.cabJobs) s.idleCores _ mem fun u holds c _ => ?_
  split
  · exact holds
  · next a _ =>
    rcases List.mem_append.1 holds with waits | runs
    · by_cases same : j = a
      · exact List.mem_append.2 (.inr (by simp [same]))
      · exact List.mem_append.2 (.inl ((List.mem_erase_of_ne same).2 waits))
    · exact List.mem_append.2 (.inr (by simpa using .inl (by simpa using runs)))

theorem State.mem_cabJobs_cabRequest (j : CabJob) : j ∈ (s.cabRequest j).cabJobs :=
  State.mem_cabJobs_cabStart (List.mem_append.2 (.inl (List.mem_append.2 (.inr (List.mem_singleton.2 rfl)))))

theorem State.cabStart_holdWait : s.cabStart.cab.holdWait = s.cab.holdWait :=
  List.foldlRecOn (motive := fun (u : State) => u.cab.holdWait = s.cab.holdWait) s.idleCores _ rfl fun u holds c _ => by
    split <;> exact holds

theorem State.cipherDone_counts {core c : Nat} {intact : Bool} {j : CabJob}
    (running : (s.cab.running.find? fun r => r.1 == core) = some (c, j)) :
    (j.source = .encrypt → (s.cipherDone core intact).rd .CAB_CNT1_ENCRYPTS = min (2 ^ 32 - 1) (s.rd .CAB_CNT1_ENCRYPTS + 1)) ∧
      (j.source ≠ .encrypt → j.source ≠ .xts →
        (s.cipherDone core intact).rd .CAB_CNT0_DECRYPTS = min (2 ^ 32 - 1) (s.rd .CAB_CNT0_DECRYPTS + 1)) := by
  have start {v : State} (r : Reg) : v.cabStart.rd r = v.rd r :=
    (State.cabStart_after (.refl v) (Nat.or_self _) (Nat.or_self _)).rd r 0 (Nat.zero_testBit _)
  simp only [State.cipherDone, running, start]
  refine ⟨fun encrypts => ?_, fun plain notXts => ?_⟩
  · rw [encrypts]
    dsimp only [State.cellFilled]
    split
    · exact State.rd_bump_self ..
    · exact (State.giveCells_after (.refl _) (Nat.or_self _) (Nat.or_self _)).rd .CAB_CNT1_ENCRYPTS _ (by decide) |>.trans
        (State.rd_bump_self ..)
  · have counts {v : State} : (v.decrypted j intact).rd .CAB_CNT0_DECRYPTS = min (2 ^ 32 - 1) (v.rd .CAB_CNT0_DECRYPTS + 1) := by
      dsimp only [State.decrypted]
      split
      · exact ((State.tagGood_after (.refl _) (Nat.or_self _) (Nat.or_self _)).rd .CAB_CNT0_DECRYPTS _ (by decide)).trans
          (State.rd_bump_self ..)
      · exact ((State.tagFail_after (.refl _) (Nat.or_self _) (Nat.or_self _)).rd .CAB_CNT0_DECRYPTS _ (by decide)).trans
          (State.rd_bump_self ..)
    split
    · next h => exact absurd h plain
    · next h => exact absurd h notXts
    · exact counts

/-! ### Requests to encrypt and to decrypt (R322 to R327) -/

theorem State.encryptRequest_job {x : Str} {r : Request} {p : Place} {w : Content} {k : Nat}
    (next : s.nextEncrypt x = some (r, p)) (free : s.cellFree x = true) (room : s.cabRoom = true) (word : p.word = some (.data w))
    (slot : s.slotOf (s.requestNsid r) = some k) (newer : w.gen < (s.keySlot k).counter) (active : (s.keySlot k).state = .active)
    (held : s.slotHeld k = false) : ∃ j ∈ (s.encryptRequest x).cabJobs, j.source = .encrypt ∧ j.x = x ∧
      j.command = r.id ∧ j.lba = p.lba ∧ j.slot = k ∧ j.nonce = counterBlock p.lba w.gen w.nstag := by
  have takes : ¬(!s.cellFree x || !s.cabRoom) = true := by simp [free, room]
  have guarded : ¬(decide ((s.keySlot k).counter ≤ w.gen) || (s.keySlot k).state != .active || s.slotHeld k) = true := by
    simp [newer, active, held]
  simp only [State.encryptRequest, next, if_neg takes, word, slot]
  rw [if_neg (by simpa using guarded)]
  exact ⟨_, State.mem_cabJobs_cabRequest _, rfl, rfl, rfl, rfl, rfl, rfl⟩

theorem State.holdGrant_job {j : CabJob} {later : List CabJob} {n : Namespace} (waits : s.cab.holdWait = j :: later)
    (entries : s.rd .CAB_STAT_HOLD_USED < 64) (room : s.cabRoom = true) (shared : j.lane = none) (owner : s.jobNs j = some n)
    (newer : j.content.gen < (s.keySlot n.slot).counter) (tag : j.content.nstag = n.nstag) (held : s.slotHeld n.slot = false) :
    s.holdGrant.cab.holdWait = later ∧ s.holdGrant.rd .CAB_STAT_HOLD_USED = s.rd .CAB_STAT_HOLD_USED + 1 ∧
      ∃ q ∈ s.holdGrant.cabJobs, q.lba = j.lba ∧ q.slot = n.slot ∧ q.nonce = counterBlock j.lba j.content.gen n.nstag := by
  have takes : ¬(decide (64 ≤ s.rd .CAB_STAT_HOLD_USED) || !s.cabRoom) = true := by simp [entries, room]
  have effect : s.holdGrant = ((s.modCab fun k => { k with holdWait := later }).wr .CAB_STAT_HOLD_USED
      (s.rd .CAB_STAT_HOLD_USED + 1)).cabRequest { j with slot := n.slot, nonce := counterBlock j.lba j.content.gen n.nstag } := by
    simp only [State.holdGrant, waits, if_neg takes, shared]
    have owner' : ((s.modCab fun k => { k with holdWait := later }).wr .CAB_STAT_HOLD_USED
        (s.rd .CAB_STAT_HOLD_USED + 1)).jobNs j = some n := owner
    have fresh : ¬(decide ((s.keySlot n.slot).counter ≤ j.content.gen) || j.content.nstag != n.nstag) = true := by simp [newer, tag]
    rw [owner']
    dsimp only
    have guarded : ¬((s.modCab fun k => { k with holdWait := later }).wr .CAB_STAT_HOLD_USED
        (s.rd .CAB_STAT_HOLD_USED + 1)).slotHeld n.slot = true := by
      exact Bool.eq_false_iff.1 held
    exact (if_neg fresh).trans (if_neg guarded)
  rw [effect]
  refine ⟨State.cabStart_holdWait, ?_, ⟨_, State.mem_cabJobs_cabRequest _, rfl, rfl, rfl⟩⟩
  rw [(State.cabRequest_after (.refl _) (Nat.or_self _) (Nat.or_self _)).rd .CAB_STAT_HOLD_USED _ (by decide), State.rd_wr_self]
  exact Nat.mod_eq_of_lt (Nat.lt_of_le_of_lt (Nat.succ_le_of_lt entries) (by decide))

theorem State.xtsRequest_effect {f lba : Nat} {v : Version} {n : Namespace} (found : s.findVersion f = some v)
    (owner : s.ns v.nsid = some n) (chest : v.queue = .chest) (covers : v.covers lba = true) (room : s.cabRoom = true) :
    (s.slotHeld n.slot = true → (s.xtsRequest f lba).rd .CAB_STAT_NONCE_GUARD = 1) ∧
      (s.slotHeld n.slot = false → ∃ j ∈ (s.xtsRequest f lba).cabJobs, j.source = .xts ∧ j.lba = lba ∧ j.slot = n.slot ∧
        j.nonce = xtsTweak lba n.nstag) := by
  have takes : ¬(v.queue != .chest || !v.covers lba || !s.cabRoom) = true := by simp [chest, covers, room]
  simp only [State.xtsRequest, found, owner, Option.map_some, if_neg takes]
  refine ⟨fun held => ?_, fun free => ?_⟩
  · rw [if_pos held, State.rd_flag_self]
    rfl
  · rw [if_neg (by simp [free])]
    exact ⟨_, State.mem_cabJobs_cabRequest _, rfl, rfl, rfl, rfl⟩

/-! ### Slot operations (R333) -/

theorem State.slotGo_accepted {op k : Nat} (idle : s.rd .CAB_STAT_BUSY = 0) (accepted : s.opRefused op k = false) :
    (s.slotGo op k).cab.ops = s.cab.ops ++ [{ op, slot := k, command := none }] ∧ (s.slotGo op k).rd .CAB_STAT_BUSY = 1 := by
  have same : ((s.wr .CAB_CTRL_SLOT_OP op).wr .CAB_CTRL_SLOT k).opRefused op k = s.opRefused op k := by
    simp (disch := decide) only [State.opRefused, State.isSet, State.keySlot, State.rd_wr_ne, State.wr_cab]
  have free : ((s.wr .CAB_CTRL_SLOT_OP op).wr .CAB_CTRL_SLOT k).isSet .CAB_STAT_BUSY = false := by
    simp (disch := decide) only [State.isSet, State.rd_wr_ne, idle]
    rfl
  have shown {v : State} : Keeps (allBut [.CAB_STAT_BUSY]) (partsBut [.cab]) v v.slotShow :=
    State.slotShow_after (.refl v) (by decide) (by decide)
  simp only [State.slotGo, State.issueOp, free, same, accepted, Bool.false_eq_true, if_false, State.opsRefresh]
  refine ⟨?_, ?_⟩
  · rw [shown.parts .cab rfl]
    rfl
  · rw [shown.rd .CAB_STAT_BUSY _ (by decide), State.rd_setTo_self]
    have waits : (s.cab.ops ++ [{ op, slot := k, command := none : SlotOp }]).isEmpty = false := by simp
    exact congrArg (fun b : Bool => boolNat (!b) % 2 ^ Reg.CAB_STAT_BUSY.row.width) waits

theorem State.slotGo_busy {op k : Nat} (busy : s.rd .CAB_STAT_BUSY = 1) :
    (s.slotGo op k).cab.ops = s.cab.ops ∧ (s.slotGo op k).rd .CAB_STAT_OP_ERR = 1 := by
  have taken : ((s.wr .CAB_CTRL_SLOT_OP op).wr .CAB_CTRL_SLOT k).isSet .CAB_STAT_BUSY = true := by
    simp (disch := decide) only [State.isSet, State.rd_wr_ne, busy]
    rfl
  simp only [State.slotGo, taken, if_true]
  exact ⟨rfl, State.rd_flag_self ..⟩

/-! ### Tests of the cores (R331) -/

theorem State.retireCabCore_up {c : Nat} (up : s.coreUp c = true) :
    (s.retireCabCore c).rd .CAB_STAT_CORE_RET = (s.flagBit .CAB_STAT_CORE_RET c).rd .CAB_STAT_CORE_RET ∧
      (s.retireCabCore c).rd .CAB_CNT3_KAT_FAIL = min (2 ^ 16 - 1) (s.rd .CAB_CNT3_KAT_FAIL + 1) := by
  have rest {v : State} : Keeps (allBut [.CAB_STAT_CORE_RET, .CAB_CNT3_KAT_FAIL]) everyPart v
      (v.cabStart.when (v.rd .CAB_STAT_CORES == 0) fun s => s.failMediaAll.setDegr 4 true) :=
    .when (State.cabStart_after (.refl v) (by decide) (by decide)) fun _ h =>
      State.setDegr_after (State.failMediaAll_after h (by decide) (by decide)) (by decide) (by decide)
  have logged {v : State} {a b d : Nat} {l : List Nat} : Keeps 0 everyPart v (v.logEvent a b d l) :=
    State.logEvent_after (.refl v) (by decide) (by decide)
  simp only [State.retireCabCore, up, Bool.not_true, Bool.false_eq_true, if_false]
  constructor
  · rw [rest.rd .CAB_STAT_CORE_RET _ (by decide), State.modCab_rd, logged.rd .CAB_STAT_CORE_RET _ (by decide),
      State.rd_bump_ne _ _ _ _ (by decide), State.rd_wr_ne _ _ _ _ _ _ (by decide)]
  · rw [rest.rd .CAB_CNT3_KAT_FAIL _ (by decide), State.modCab_rd, logged.rd .CAB_CNT3_KAT_FAIL _ (by decide), State.rd_bump_self,
      State.rd_wr_ne _ _ _ _ _ _ (by decide), State.rd_flagBit_ne _ _ _ _ (by decide)]
    rfl

theorem State.retireCabCore_bit {c k : Nat} (core : k < 4) :
    (s.retireCabCore c).bit .CAB_STAT_CORE_RET k = (s.bit .CAB_STAT_CORE_RET k || decide (k = c)) := by
  by_cases up : s.coreUp c = true
  · rw [State.bit, (State.retireCabCore_up up).1, State.testBit_flagBit _ _ _ _ _ core, State.bit]
    by_cases h : k = c <;> simp [h]
  · simp only [State.retireCabCore, up, Bool.not_false, if_true]
    by_cases h : k = c
    · subst h
      simpa [State.coreUp, core] using up
    · simp [h]

theorem State.katGo_bit {bad core : Nat} (four : core < 4) (fails : bad.testBit core = true) :
    (s.katGo bad).bit .CAB_STAT_CORE_RET core = true := by
  refine foldl_reaches (P := fun _ => True) (Q := fun u => u.bit .CAB_STAT_CORE_RET core = true) (a := core)
    (by simp; omega) trivial (fun _ _ _ => trivial) (fun u _ => ?_) fun u b on => ?_
  · rw [fails]
    exact (State.retireCabCore_bit four).trans (by simp)
  · unfold State.when
    split
    · rw [State.retireCabCore_bit four, on, Bool.true_or]
    · exact on

end

/-- Settles O27. -/
theorem cabinetEffects : Obligations.CabinetEffects := by
  unfold Obligations.CabinetEffects
  refine ⟨fun s x r p w k present next free room word slot newer active held => ?_, fun s j later n waits entries room shared owner newer
      tag held => ⟨_, rfl, State.holdGrant_job waits entries room shared owner newer tag held⟩,
    fun s f lba v n found owner chest covers room => ⟨_, rfl, State.xtsRequest_effect found owner chest covers room⟩,
    fun s core c intact j running => ⟨_, rfl, State.cipherDone_counts running⟩,
    fun s slot idle accepted => ⟨_, rfl, State.slotGo_accepted idle accepted⟩,
    fun s slot idle accepted => ⟨_, rfl, State.slotGo_accepted idle accepted⟩,
    fun s slot idle accepted => ⟨_, rfl, State.slotGo_accepted idle accepted⟩,
    fun s slot busy => ⟨_, rfl, State.slotGo_busy busy⟩,
    fun s bad core four fails => ⟨_, rfl, State.katGo_bit four fails⟩, fun s core four up => ⟨_, rfl, ?_⟩,
    fun s => ⟨_, rfl, State.rd_flag_self ..⟩⟩
  · exact Completes.onStr rfl present (State.encryptRequest_job next free room word slot newer active held)
  · have serves : s.coreUp core = true := by simp [State.coreUp, four, up]
    refine ⟨?_, (State.retireCabCore_up serves).2⟩
    exact (State.retireCabCore_bit four).trans (by simp)

end Sys2Proof.Machine

/-! PROOF. Proofs/Bridge.lean: the Bridge's grants, transfers and its write-buffer log (R286 to R312). -/
namespace Sys2Proof.Machine

section
variable {s t : State}

/-! ### Row writes of the Chest (R311) -/

/-- The Bridge changed at most in the rows that wait, the groups' tokens and the counts of the wear gaps. -/
def RowsOnly (s t : State) : Prop :=
  t.bridge = { s.bridge with rowsWaiting := t.bridge.rowsWaiting, groupTokens := t.bridge.groupTokens, gapCount := t.bridge.gapCount }

theorem RowsOnly.refl (s : State) : RowsOnly s s := rfl

theorem RowsOnly.modBridge {f : BridgeState → BridgeState} (h : RowsOnly s t) (rows : ∀ b, f b =
    { b with rowsWaiting := (f b).rowsWaiting, groupTokens := (f b).groupTokens, gapCount := (f b).gapCount }) :
    RowsOnly s (t.modBridge f) := by
  rw [RowsOnly, State.modBridge_bridge]
  refine (rows _).trans ?_
  rw [h]

theorem RowsOnly.when {b : Bool} {f : State → State} (h : RowsOnly s t) (k : ∀ t, RowsOnly s t → RowsOnly s (f t)) :
    RowsOnly s (t.when b f) := by
  cases b
  · exact h
  · exact k t h

theorem RowsOnly.wr {r : Reg} {v i : Nat} (h : RowsOnly s t) : RowsOnly s (t.wr r v i) := h

theorem RowsOnly.makeRow (h : RowsOnly s t) (w : RowWrite) : RowsOnly s (t.makeRow w) := by
  have counts {u : State} (h : RowsOnly s u) (g : Nat) : RowsOnly s (u.countRow g) := by
    unfold State.countRow
    refine RowsOnly.modBridge (.when (.when (.when ?_ fun _ h => .wr (.wr h)) fun _ h => .wr h) fun _ h => .wr h) fun _ => rfl
    exact .wr (.wr (.wr (.wr h)))
  unfold State.makeRow
  refine counts (RowsOnly.when ?_ fun _ h => .wr h) _
  exact RowsOnly.modBridge (.wr h) fun _ => rfl

theorem RowsOnly.governRows (h : RowsOnly s t) (n : Nat) : RowsOnly s (t.governRows n) := by
  induction n generalizing t with
  | zero => exact h
  | succ n ih =>
    unfold State.governRows
    split
    · exact .wr h
    · split
      · exact ih (.makeRow (.modBridge h fun _ => rfl) _)
      · exact .wr h

theorem RowsOnly.chestRow (h : RowsOnly s t) (cls row : Nat) (retires : Bool) : RowsOnly s (t.chestRow cls row retires) := by
  simp only [State.chestRow]
  split
  · exact .makeRow h _
  · exact RowsOnly.governRows (.modBridge h fun _ => rfl) _

theorem RowsOnly.foldl {α : Type} {f : State → α → State} (l : List α) (h : RowsOnly s t)
    (k : ∀ t a, RowsOnly s t → RowsOnly s (f t a)) : RowsOnly s (l.foldl f t) :=
  List.foldlRecOn l f h fun u holds a _ => k u a holds

theorem RowsOnly.log (h : RowsOnly s t) : t.bridge.log = s.bridge.log := by rw [h]

theorem RowsOnly.logSeq (h : RowsOnly s t) : t.bridge.logSeq = s.bridge.logSeq := by rw [h]

/-! ### The write-buffer log (R306, R307) -/

/-- Every entry of the version is committed. -/
def LogCommitted (f : Nat) (s : State) : Prop := ∀ e ∈ s.bridge.log, e.fseq = f → e.committed = true

section
variable {f : Nat}

theorem LogCommitted.of_log (h : LogCommitted f s) (same : t.bridge.log = s.bridge.log) : LogCommitted f t := by
  rw [LogCommitted, same]
  exact h

theorem LogCommitted.chestRow (h : LogCommitted f s) (cls row : Nat) (retires : Bool) : LogCommitted f (s.chestRow cls row retires) :=
  h.of_log (RowsOnly.chestRow (.refl s) cls row retires).log

theorem LogCommitted.logRefresh (h : LogCommitted f s) : LogCommitted f s.logRefresh :=
  fun e mem => h e ((List.dropWhile_sublist _).subset mem)

theorem LogCommitted.retireEntry (h : LogCommitted f s) (g : Nat) : LogCommitted f (s.retireEntry g) := by
  unfold State.retireEntry
  split
  · exact h
  · refine LogCommitted.logRefresh (LogCommitted.chestRow (fun e mem => ?_) _ _ _)
    obtain ⟨e', mem', rfl⟩ := List.mem_map.1 mem
    intro mine
    split at mine <;> split <;> exact h e' mem' mine

theorem LogCommitted.dropVersions (h : LogCommitted f s) : LogCommitted f s.dropVersions := by
  simp only [State.dropVersions]
  refine List.foldlRecOn _ _ (h.of_log rfl) fun u holds v _ => ?_
  have granted : LogCommitted f ((u.wr .BRG_DESC_FREE (u.rd .BRG_DESC_FREE + 1)).when (v.grant != 0) fun s =>
      s.modNs v.nsid fun n => { n with granted := n.granted - v.grant }) := by
    unfold State.when
    split <;> exact holds.of_log rfl
  simp only [State.returnVersion]
  split
  · exact granted.retireEntry _
  · exact granted.of_log rfl
  · exact granted.of_log rfl

theorem State.entryCommit_log {v : Version} {e : LogEntry} (found : s.findVersion f = some v)
    (entry : (s.bridge.log.find? fun e => e.fseq == f && !e.committed && !e.retired) = some e) (ready : v.state = .ready)
    (clear : s.bridge.rowsWaiting = []) (tokens : s.rowTokens { cls := 3, row := logRow e.row, retires := false } = true) :
    LogCommitted f (s.entryCommit f) := by
  have due : ¬((v.state != .ready && v.state != .drained) || !s.bridge.rowsWaiting.isEmpty ||
      !s.rowTokens { cls := 3, row := logRow e.row, retires := false }) = true := by simp [ready, clear, tokens]
  simp only [State.entryCommit, found, entry, if_neg due]
  have committed : LogCommitted f (s.modBridge fun b =>
      { b with log := b.log.map fun e => if e.fseq == f then { e with committed := true } else e }) := by
    intro e mem mine
    obtain ⟨e', _, rfl⟩ := List.mem_map.1 mem
    split at mine
    · next h => rw [if_pos h]
    · next h => exact absurd (by simpa using mine) h
  exact LogCommitted.dropVersions ((committed.chestRow 3 _ false).logRefresh.of_log rfl)

end

theorem List.mem_dropWhile {α : Type} {p : α → Bool} {l : List α} {a : α} (mem : a ∈ l) (stops : p a = false) :
    a ∈ l.dropWhile p := by
  induction l with
  | nil => exact mem
  | cons b l ih =>
    rw [List.dropWhile_cons]
    rcases List.mem_cons.1 mem with rfl | later
    · simp [stops]
    · split
      · exact ih later
      · exact mem

theorem State.logCopy_effect {old newest : LogEntry} (oldest : (s.bridge.log.find? fun e => !e.retired) = some old)
    (last : s.bridge.log.getLast? = some newest) (far : old.seq + 1024 < newest.seq) (committed : old.committed = true)
    (room : logUsed s.bridge.log + old.rows ≤ 102400) : s.logCopy.bridge.logSeq = s.bridge.logSeq + 1 ∧
      ∃ e ∈ s.logCopy.bridge.log, e.seq = s.bridge.logSeq ∧ e.fseq = old.fseq ∧ e.row = (newest.row + newest.rows) % 102400 := by
  have due : ¬(decide (newest.seq ≤ old.seq + 1024) || !old.committed || decide (102400 < logUsed s.bridge.log + old.rows)) = true := by
    simp [far, committed, room]
  have live : old.retired = false := by simpa using List.find?_some oldest
  have written {u : State} {head : Nat} : RowsOnly u
      (((List.range old.rows).foldl (fun s k => s.chestRow 3 (logRow (head + k))) u).chestRow 3 (logRow old.row)) :=
    .chestRow (.foldl _ (.refl u) fun _ _ h => .chestRow h _ _ _) _ _ _
  simp only [State.logCopy, oldest, last]
  rw [if_neg (by simpa using due)]
  refine ⟨written.logSeq, { old with row := (newest.row + newest.rows) % 102400, seq := s.bridge.logSeq },
    List.mem_dropWhile ?_ live, rfl, rfl, rfl⟩
  rw [written.log]
  exact List.mem_append.2 (.inr (List.mem_singleton.2 rfl))

/-! ### Commands through the Bridge's operations (R43, R295) -/

@[simp] theorem Cmd.settled_fseq (c : Cmd) : c.settled.fseq = c.fseq := by
  unfold Cmd.settled
  split <;> rfl

@[simp] theorem Cmd.settled_data (c : Cmd) : c.settled.data = c.data := by
  unfold Cmd.settled
  split <;> rfl

@[simp] theorem Cmd.settled_owed (c : Cmd) : c.settled.owed = c.owed := by
  unfold Cmd.settled
  split <;> rfl

theorem State.findCmd_fseq {f : Nat} {c : Cmd} (found : s.findCmd f = some c) : c.fseq = f := by
  simpa using List.find?_some found

theorem State.findVersion_fseq {f : Nat} {v : Version} (found : s.findVersion f = some v) : v.fseq = f := by
  simpa using List.find?_some found

/-- What waits for writes and Flushes leaves a command that is already answered. -/
theorem State.findCmd_settleWaits {f : Nat} {c : Cmd} (found : s.findCmd f = some c) (answered : c.ready.isSome = true) :
    s.settleWaits.findCmd f = some c := by
  rw [State.findCmd] at found
  rw [State.findCmd, State.settleWaits, State.modHost_host, List.find?_map]
  refine (congrArg (Option.map _) ((List.find?_congr fun e _ => ?_).trans found)).trans ?_
  · dsimp only [Function.comp]
    split
    · rfl
    · split
      · rfl
      · split <;> simp
  · simp [answered]

theorem State.retireEntry_host (f : Nat) : (s.retireEntry f).host = s.host :=
  (State.retireEntry_after (.refl s) (Nat.or_self _) (Nat.or_self _)).parts .host rfl

theorem State.dropVersions_cmds : s.dropVersions.host.cmds = s.host.cmds := by
  simp only [State.dropVersions]
  refine List.foldlRecOn (motive := fun u : State => u.host.cmds = s.host.cmds) _ _ rfl fun u holds v _ => ?_
  have granted : ((u.wr .BRG_DESC_FREE (u.rd .BRG_DESC_FREE + 1)).when (v.grant != 0) fun s =>
      s.modNs v.nsid fun n => { n with granted := n.granted - v.grant }).host.cmds = s.host.cmds := by
    unfold State.when
    split <;> exact holds
  simp only [State.returnVersion]
  split
  · rw [State.retireEntry_host, granted]
  · exact granted
  · exact granted

/-- The commands and the controllers are as before. -/
def CmdsKept (s t : State) : Prop := t.host.cmds = s.host.cmds ∧ t.host.controllers = s.host.controllers

theorem CmdsKept.of_host (h : CmdsKept s t) {u : State} (same : u.host = t.host) : CmdsKept s u := by
  rw [CmdsKept, same]
  exact h

theorem CmdsKept.waitsMedia (h : CmdsKept s t) (c : Cmd) : t.waitsMedia c = s.waitsMedia c := by
  rw [State.waitsMedia, State.vwcOff, h.2, State.waitsMedia, State.vwcOff]

/-- An ordinary write that need not wait for the media is answered when its version is ready. -/
theorem State.writeReady_answers {v : Version} {c : Cmd} (found : s.findCmd c.fseq = some c) (queue : v.queue = .ordinary)
    (started : c.started = true) (open' : c.ready = none) (blocks : c.blocks ≠ []) (cached : s.waitsMedia c = false) :
    ∃ c', (s.writeReady v c).findCmd c.fseq = some c' ∧ c'.ready ≠ none ∧ c'.owed = [] := by
  have unmarks (u : State) (l : List Nat) (h : CmdsKept s u) : CmdsKept s (l.foldl (fun s b => s.unmark v.nsid b 1) u) :=
    List.foldlRecOn l _ h fun _ holds _ _ => holds
  have compress (u : State) (b : Bool) (h : CmdsKept s u) : CmdsKept s (u.when b fun s => s.postCompress v.fseq) := by
    cases b
    · exact h
    · exact h.of_host ((State.postCompress_after (.refl u) (Nat.or_self _) (Nat.or_self _)).parts .host rfl)
  simp only [State.writeReady, queue]
  generalize prepared : State.when _ _ _ = u
  have kept : CmdsKept s u := by
    rw [← prepared]
    exact compress _ _ (unmarks _ _ ⟨rfl, rfl⟩)
  rw [if_neg (by decide), if_neg (by simp [kept.waitsMedia, cached])]
  have acked : ((u.modVersion v.fseq fun v => { v with volatileAck := true }).journal (deviceRow v.fseq)).findCmd c.fseq = some c := by
    refine (State.findCmd_of_cmds (s := s) ?_ _).trans found
    rw [(State.journal_after (.refl _) (Nat.or_self _) (Nat.or_self _)).parts .host rfl]
    exact kept.1
  have ready : ({ c.allDone with owed := [] } : Cmd).settled.ready.isSome = true := by
    have all : (c.allDone.blocks.all fun e => e.2.ended) = true := by simp [Cmd.allDone, BlockState.ended]
    have some' : c.allDone.blocks.isEmpty = false := by simpa [Cmd.allDone] using blocks
    have c1 : (({ c.allDone with owed := [] } : Cmd).ready.isNone && ({ c.allDone with owed := [] } : Cmd).started &&
        !({ c.allDone with owed := [] } : Cmd).blocks.isEmpty && ({ c.allDone with owed := [] } : Cmd).blocks.all (fun e => e.2.ended) &&
        ({ c.allDone with owed := [] } : Cmd).owed.isEmpty) = true := by
      simp only [all, some']
      simp [Cmd.allDone, open', started]
    rw [Cmd.settled, if_pos c1]
    rfl
  refine ⟨{ c.allDone with owed := [] : Cmd }.settled, ?_, Option.isSome_iff_ne_none.1 ready, Cmd.settled_owed _⟩
  rw [State.findCmd_of_cmds State.dropVersions_cmds]
  refine State.findCmd_settleWaits (State.findCmd_modCmd acked fun c => ?_) ready
  rw [Cmd.settled_fseq]
  rfl

theorem State.transferEnd_answers {f : Nat} {v : Version} {c : Cmd} (version : s.findVersion f = some v) (transfers : v.state = .xfer)
    (whole : v.held = v.data.length) (queue : v.queue = .ordinary) (found : s.findCmd f = some c) (started : c.started = true)
    (open' : c.ready = none) (blocks : c.blocks ≠ []) (cached : s.waitsMedia c = false)
    (guards : ((s.ns v.nsid).bind fun n => piStatus n v.lba c.op) = none) :
    ∃ c', (s.transferEnd f true).findCmd f = some c' ∧ c'.ready ≠ none ∧ c'.owed = [] := by
  have ends : ¬(v.state != .xfer || (true && !s.spaceFree v.queue (v.data.length - v.held) && decide (v.held < v.data.length))) = true := by
    simp [transfers, whole]
  have rest : State.when s (true && decide (v.held < v.data.length)) (fun s => (s.takeSpace v.queue (v.data.length - v.held)).modVersion f
      fun v => { v with held := v.data.length }) = s := by simp [State.when, whole]
  simp only [State.transferEnd, version]
  rw [if_neg ends, rest, found]
  simp only [Bool.not_true, Bool.false_eq_true, if_false, guards]
  have mine : c.fseq = f := State.findCmd_fseq found
  subst mine
  exact State.writeReady_answers found queue started open' blocks cached

/-- A block that is held goes to the host and is held no more. -/
theorem State.hostTransfer_held {f lba data : Nat} {page : Option Str} {c : Cmd} (found : s.findCmd f = some c)
    (held : c.block lba = some .held) (block : (c.data.find? fun e => e.1 == lba) = some (lba, data, page))
    (sound : (f, lba) ∉ s.bridge.poisonPages) : .hostData f lba data ∈ (s.hostTransfer f lba).out ∧
      ∃ c', (s.hostTransfer f lba).findCmd f = some c' ∧ ∀ e ∈ c'.data, e.1 ≠ lba := by
  simp only [State.hostTransfer, found, held, block]
  rw [if_neg (by simpa using sound)]
  have unspilled {u : State} : Keeps everyReg (maskOfParts [.bridge]) u (u.unspill f lba) :=
    State.unspill_after (.refl u) (by decide) (by decide)
  have paged {u : State} : Keeps everyReg 0 u (u.givePage page) := State.givePage_after (.refl u) (by decide) (by decide)
  have moved : (((s.blockMoved f lba data).givePage page).unspill f lba).findCmd f =
      some { c.setBlock lba .done with data := c.data.filter fun e => e.1 != lba } := by
    rw [State.findCmd_of_cmds (congrArg HostState.cmds (unspilled.parts .host rfl)),
      State.findCmd_of_cmds (congrArg HostState.cmds (paged.parts .host rfl))]
    exact State.findCmd_modCmd (s := s.emit (.hostData f lba data)) found fun _ => rfl
  refine ⟨?_, _, State.findCmd_modCmd moved Cmd.settled_fseq, fun e mem => ?_⟩
  · rw [show ((((s.blockMoved f lba data).givePage page).unspill f lba).modCmd f Cmd.settled).out =
      (((s.blockMoved f lba data).givePage page).unspill f lba).out from rfl, unspilled.parts .out rfl, paged.parts .out rfl]
    exact List.mem_cons_self
  · rw [Cmd.settled_data] at mem
    simpa using (List.mem_filter.1 mem).2

theorem State.pageSpill_effect {f lba data : Nat} {x : Str} {c : Cmd} (found : s.findCmd f = some c)
    (block : (c.data.find? fun e => e.1 == lba) = some (lba, data, some x)) (enabled : s.rd .BRG_CTRL_SPILL_EN = 1)
    (room : s.rd .BRG_VSTORE_FREE ≠ 0) : (s.pageSpill f lba).rd .BRG_STAT_SPILLED = 1 ∧
      (s.pageSpill f lba).rd .BRG_VSTORE_FREE = (s.rd .BRG_VSTORE_FREE - 1) % 2 ^ 21 ∧ (f, lba) ∈ (s.pageSpill f lba).bridge.spilled ∧
      (s.pageSpill f lba).rd .BRG_USE_PAGES x.num = (s.rd .BRG_USE_PAGES x.num - 1) % 2 ^ 11 := by
  have due : (s.isSet .BRG_CTRL_SPILL_EN && s.rd .BRG_VSTORE_FREE != 0) = true := by simp [State.isSet, enabled, room]
  simp only [State.pageSpill, found, Option.bind_some, block, if_pos due]
  refine ⟨State.rd_flag_self .., ?_, List.mem_cons_self, ?_⟩
  · rw [State.rd_flag_ne _ _ _ _ (by decide), State.rd_wr_self]
    exact congrArg (fun n => (n - 1) % 2 ^ 21) (State.rd_wr_ne _ _ _ _ _ _ (by decide))
  · rw [State.rd_flag_ne _ _ _ _ (by decide), State.rd_wr_ne _ _ _ _ _ _ (by decide)]
    exact State.rd_wr_self ..

/-! ### Grants and GO (R300, R309) -/

theorem State.writeGrant_effect {q : GrantQueue} {f g : Nat} {c : Cmd} {n : Namespace}
    (oldest : ((s.bridge.waiting.filter fun e => e.2 == q).map (·.1)).min? = some f) (found : s.findCmd f = some c)
    (owner : s.ns c.nsid = some n) (descriptor : s.descriptorFree q = true)
    (space : s.spaceFree q (startPages q c.op.writeData.length) = true)
    (payload : s.payloadGrant n c.first c.op.writeData.length = some g) :
    (∃ v ∈ (s.writeGrant q).bridge.versions, v.fseq = f ∧ v.lba = c.first ∧ v.data = c.op.writeData ∧ v.state = .xfer ∧ v.grant = g) ∧
      ∀ e ∈ (s.writeGrant q).bridge.waiting, e.1 ≠ f := by
  simp only [State.writeGrant, oldest, found, owner, descriptor, space, Bool.not_true, Bool.false_eq_true, if_false, payload]
  refine ⟨⟨_, List.mem_append.2 (.inr (List.mem_singleton.2 rfl)), rfl, rfl, rfl, rfl, rfl⟩, fun e mem => ?_⟩
  simpa using (List.mem_filter.1 mem).2

theorem State.bridgeGo_effect (cells : s.rd .BRG_CFG0_WMIN * (Str.all.filter s.present).length ≤ s.wstgCells)
    (pages : s.rd .BRG_CFG1_RMIN * (Str.all.filter s.present).length ≤ s.rstgPages) (stopped : s.bridge.running = false) :
    s.bridgeGo.bridge.running = true ∧ s.bridgeGo.rd .BRG_VSTORE_FREE = s.bridgeGo.vstorePages % 2 ^ 21 := by
  have fits : ¬(decide (s.wstgCells < s.rd .BRG_CFG0_WMIN * (Str.all.filter s.present).length) ||
      decide (s.rstgPages < s.rd .BRG_CFG1_RMIN * (Str.all.filter s.present).length)) = true := by simp [cells, pages]
  simp only [State.bridgeGo]
  rw [if_neg fits, if_neg (by simp [stopped])]
  generalize s.setTo .BRG_STAT_MAP_RSV _ = u
  have same : ((u.wr .BRG_VSTORE_FREE u.vstorePages).modBridge fun b => { b with running := true }).vstorePages = u.vstorePages := by
    have keeps : Keeps (allBut [.BRG_CFG2_STRM_MAX, .BRG_STAT_MAP_RSV]) everyPart u (u.wr .BRG_VSTORE_FREE u.vstorePages) :=
      .wr (.refl u) (by decide)
    rw [State.vstorePages, State.isSet, State.modBridge_rd, State.modBridge_rd, keeps.rd .BRG_CFG2_STRM_MAX _ (by decide),
      keeps.rd .BRG_STAT_MAP_RSV _ (by decide)]
    rfl
  exact ⟨rfl, by rw [same]; exact State.rd_wr_self ..⟩

end

/-- Settles O28. -/
theorem bridgeEffects : Obligations.BridgeEffects := by
  unfold Obligations.BridgeEffects
  exact ⟨fun s queue f g c n oldest found owner descriptor space payload =>
      ⟨_, rfl, State.writeGrant_effect oldest found owner descriptor space payload⟩,
    fun s f v c version transfers whole queue found started open' blocks cached guards =>
      ⟨_, rfl, State.transferEnd_answers version transfers whole queue found started open' blocks cached guards⟩,
    fun s f lba data page c found held block sound => ⟨_, rfl, State.hostTransfer_held found held block sound⟩,
    fun s f lba data x c found block enabled room => ⟨_, rfl, State.pageSpill_effect found block enabled room⟩,
    fun s f v e found entry ready clear tokens => ⟨_, rfl, State.entryCommit_log found entry ready clear tokens⟩,
    fun s old newest oldest last far committed room => ⟨_, rfl, State.logCopy_effect oldest last far committed room⟩,
    fun s cells pages stopped => ⟨_, rfl, State.bridgeGo_effect cells pages stopped⟩⟩

end Sys2Proof.Machine

/-! PROOF. Proofs/Cores.lean: the Bureau's cores (R378 to R380, R399). -/
namespace Sys2Proof.Machine

section
variable {s t : State} {c : Nat}

theorem State.coreState_of_rd (same : ∀ i, t.rd .BURn_STAT_STATE i = s.rd .BURn_STAT_STATE i) (c : Nat) : t.coreState c = s.coreState c := by
  rw [State.coreState, same, State.coreState]

theorem State.lastCore_of_rd (same : ∀ i, t.rd .BURn_STAT_STATE i = s.rd .BURn_STAT_STATE i) (c : Nat) : t.lastCore c = s.lastCore c := by
  rw [State.lastCore, State.coresIn, funext fun c => congrArg (· == 0) (State.coreState_of_rd same c)]
  rfl

/-- A digit in base 4 of a byte is replaced. -/
theorem digit_replaced (old v k : Nat) (four : k < 4) :
    (old - old / 4 ^ k % 4 * 4 ^ k + v % 4 * 4 ^ k) % 2 ^ 8 / 4 ^ k % 4 = v % 4 := by
  match k, four with
  | 0, _ => omega
  | 1, _ => omega
  | 2, _ => omega
  | 3, _ => omega

theorem State.coreState_setCore (c v : Nat) : (s.setCore c v).coreState c = v % 4 := by
  rw [State.coreState, State.setCore, State.rd_wr_self]
  exact digit_replaced _ _ _ (Nat.mod_lt _ (by decide))

/-! ### Out of service (R378, R379) -/

/-- What follows the state of a core that leaves service. -/
theorem State.coreOut_keeps (cause : Nat) : Keeps (allBut [.BURn_STAT_STATE, .BURn_STAT_CAUSE_LAST, .BURn_STAT_CORE_RET, .BURn_STAT_WDOG])
    everyPart (((s.setCore c 3).wr .BURn_STAT_CAUSE_LAST cause (coreIx c)).flag .BURn_STAT_CORE_RET (coreIx c)) (s.coreOut c cause) := by
  have moved {u : State} : Keeps (allBut [.BURn_STAT_STATE, .BURn_STAT_CAUSE_LAST, .BURn_STAT_CORE_RET, .BURn_STAT_WDOG]) everyPart u
      (u.moveTasks c false) := State.moveTasks_after (.refl u) (by decide) (by decide)
  unfold State.coreOut
  exact State.capacityChange_after (State.clusterOff_after (State.coreDomain_after (State.logEvent_after (State.chestRow_after moved
    (by decide) (by decide)) (by decide) (by decide)) (by decide) (by decide)) (by decide) (by decide)) (by decide) (by decide)

theorem State.coreOut_effect (cause : Nat) : (s.coreOut c cause).coreState c = 3 ∧
    (s.coreOut c cause).rd .BURn_STAT_CAUSE_LAST (coreIx c) = cause % 16 ∧ (s.coreOut c cause).rd .BURn_STAT_CORE_RET (coreIx c) = 1 ∧
    (s.coreOut c cause).rd .BURn_STAT_WDOG (coreIx c) = s.rd .BURn_STAT_WDOG (coreIx c) := by
  have k := State.coreOut_keeps (s := s) (c := c) cause
  refine ⟨?_, ?_, ?_, ?_⟩
  · rw [State.coreState_of_rd (s := s.setCore c 3) (fun i => ?_), State.coreState_setCore]
    rw [k.rd .BURn_STAT_STATE _ (by decide), State.rd_flag_ne _ _ _ _ (by decide), State.rd_wr_ne _ _ _ _ _ _ (by decide)]
  · rw [k.rd .BURn_STAT_CAUSE_LAST _ (by decide), State.rd_flag_ne _ _ _ _ (by decide), State.rd_wr_self]
    rfl
  · rw [k.rd .BURn_STAT_CORE_RET _ (by decide), State.rd_flag_self]
    rfl
  · rw [k.rd .BURn_STAT_WDOG _ (by decide), State.rd_flag_ne _ _ _ _ (by decide), State.rd_wr_ne _ _ _ _ _ _ (by decide), State.setCore,
      State.rd_wr_ne _ _ _ _ _ _ (by decide)]

/-- A core in service that is not the last one leaves it. -/
theorem State.coreRetire_out (core : c < 16) (serves : s.coreState c = 0) (others : s.lastCore c = false) (cause : Nat) :
    s.coreRetire c cause = s.coreOut c cause := by
  simp [State.coreRetire, Nat.not_le.2 core, serves, others]

/-- Moving a core's tasks leaves what its status shows. -/
theorem State.coreReset_keeps : Keeps (allBut [.BURn_STAT_STATE, .BURn_STAT_WDOG]) everyPart s (s.coreReset c) :=
  State.coreReset_after (.refl s) (by decide) (by decide)

theorem State.coreRetire_last (core : c < 16) (serves : s.coreState c = 0) (last : s.lastCore c = true) :
    (s.coreRetire c 1).coreState c = 0 := by
  simp only [State.coreRetire, serves, last, Nat.not_le.2 core]
  refine (State.coreState_of_rd (fun i => ?_) c).trans serves
  exact (State.coreReset_keeps.rd .BURn_STAT_STATE i (by decide)).trans (State.rd_bump_ne _ _ _ _ (by decide) _)

/-- The last core in service is reset by its watchdog. -/
theorem State.coreRetire_watchdog (core : c < 16) (serves : s.coreState c = 0) (last : s.lastCore c = true) :
    s.coreRetire c 2 = s.coreReset c := by
  simp [State.coreRetire, Nat.not_le.2 core, serves, last]

theorem State.coreWatchdog_effect (core : c < 16) (serves : s.coreState c = 0) (runs : s.rd .BNCH_STAT_HALTED = 0) :
    (s.coreWatchdog c).rd .BURn_STAT_WDOG (coreIx c) = 1 ∧
      (s.lastCore c = false → (∃ e ∈ s.bur.expiries, e.1 = c ∧ s.rd .SB_RTC_SEC ≤ e.2 + 86400) →
        (s.coreWatchdog c).coreState c = 3 ∧ (s.coreWatchdog c).rd .BURn_STAT_CAUSE_LAST (coreIx c) = 2) ∧
      ((∀ e ∈ s.bur.expiries, e.1 = c → e.2 + 86400 < s.rd .SB_RTC_SEC) → (s.coreWatchdog c).coreState c = 0) := by
  have due : ¬(decide (16 ≤ c) || s.coreState c != 0 || s.bit .BNCH_STAT_HALTED c) = true := by
    simp [Nat.not_le.2 core, serves, State.bit, runs]
  simp only [State.coreWatchdog, if_neg due]
  generalize counted : State.modBur _ _ = u
  have same (i : Nat) : u.rd .BURn_STAT_STATE i = s.rd .BURn_STAT_STATE i := by
    rw [← counted, State.modBur_rd, State.rd_bump_ne _ _ _ _ (by decide), State.rd_flag_ne _ _ _ _ (by decide)]
  have serves' : u.coreState c = 0 := (State.coreState_of_rd same c).trans serves
  have expired : u.rd .BURn_STAT_WDOG (coreIx c) = 1 := by
    rw [← counted, State.modBur_rd, State.rd_bump_ne _ _ _ _ (by decide), State.rd_flag_self]
    rfl
  have reset : (u.coreReset c).rd .BURn_STAT_WDOG (coreIx c) = 1 := (State.coreReset_keeps.rd .BURn_STAT_WDOG _ (by decide)).trans expired
  refine ⟨?_, fun others ⟨e, mem, mine, recent⟩ => ?_, fun old => ?_⟩
  · split
    · by_cases last : u.lastCore c = true
      · rw [State.coreRetire_watchdog core serves' last, reset]
      · rw [State.coreRetire_out core serves' (by simpa using last), (State.coreOut_effect 2).2.2.2, expired]
    · exact reset
  · rw [if_pos (List.any_eq_true.2 ⟨e, mem, by simp [mine, recent]⟩),
      State.coreRetire_out core serves' ((State.lastCore_of_rd same c).trans others)]
    obtain ⟨out, cause, _⟩ := State.coreOut_effect (s := u) (c := c) 2
    exact ⟨out, cause⟩
  · rw [if_neg fun again => ?_]
    · exact (State.coreState_of_rd (fun i => State.coreReset_keeps.rd .BURn_STAT_STATE i (by decide)) c).trans serves'
    · obtain ⟨e, mem, h⟩ := List.any_eq_true.1 again
      obtain ⟨mine, recent⟩ := Bool.and_eq_true_iff.1 h
      exact absurd (old e mem (by simpa using mine)) (by simpa using recent)

theorem State.coreSelfTest_passed (core : c < 16) (tests : s.coreState c = 2) : (s.coreSelfTest c true).coreState c = 0 := by
  simp only [State.coreSelfTest, if_neg (Nat.not_le.2 core), tests, if_true]
  have back : Keeps (allBut [.BURn_STAT_STATE]) everyPart (s.setCore c 0) (s.coreBack c).settleRequests := by
    unfold State.coreBack
    have requests {u : State} : Keeps (allBut [.BURn_STAT_STATE]) everyPart u
        ((u.modBur fun b => { b with expiries := b.expiries.filter fun e => e.1 != c }).scheduleTasks fun _ => true) :=
      State.scheduleTasks_after (.with_bur (.refl u) (by decide)) (by decide) (by decide)
    have l2 : Keeps (allBut [.BURn_STAT_STATE]) everyPart (s.setCore c 0)
        (((s.setCore c 0).unflag .BURn_STAT_L2_OFF (coreIx c)).chestRow 1 (deviceRow 5)) :=
      State.chestRow_after (.unflag (.refl _) (by decide)) (by decide) (by decide)
    exact State.settleRequests_after (State.coresDegr_after (l2.trans requests) (by decide) (by decide)) (by decide) (by decide)
  rw [State.coreState_of_rd (s := s.setCore c 0) fun i => back.rd .BURn_STAT_STATE i (by decide)]
  exact State.coreState_setCore ..

theorem State.coreSelfTest_failed (core : c < 16) (tests : s.coreState c = 2) : (s.coreSelfTest c false).coreState c = 3 ∧
    (s.coreSelfTest c false).rd .BURn_STAT_CAUSE_LAST (coreIx c) = 3 := by
  simp only [State.coreSelfTest, if_neg (Nat.not_le.2 core), tests, if_true, Bool.false_eq_true, if_false]
  have off {u : State} : Keeps (allBut [.BURn_STAT_STATE, .BURn_STAT_CAUSE_LAST]) everyPart u (u.coreDomain c false).settleRequests :=
    State.settleRequests_after (State.coreDomain_after (.refl u) (by decide) (by decide)) (by decide) (by decide)
  constructor
  · rw [State.coreState_of_rd (s := s.setCore c 3) fun i => (off.rd .BURn_STAT_STATE i (by decide)).trans
      (State.rd_wr_ne _ _ _ _ _ _ (by decide)), State.coreState_setCore]
  · rw [off.rd .BURn_STAT_CAUSE_LAST _ (by decide), State.rd_wr_self]
    rfl

/-! ### RETIRE and UNRETIRE (R378, R399) -/

/-- A mask of one bit acts on that core of the cluster alone. -/
theorem foldl_one_core {f : State → Nat → State} {k : Nat} (four : k < 4) :
    (List.range 4).foldl (fun s j => s.when ((2 ^ k).testBit j) fun s => f s j) s = f s k := by
  match k, four with
  | 0, _ => rfl
  | 1, _ => rfl
  | 2, _ => rfl
  | 3, _ => rfl

theorem State.coreTest_state (retired : s.coreState c = 3) : (s.coreTest c).coreState c = 2 := by
  rw [State.coreTest, if_pos retired]
  exact State.coreState_setCore ..

end

/-- Settles O36. -/
theorem coreEffects : Obligations.CoreEffects := by
  unfold Obligations.CoreEffects
  refine ⟨fun s c core serves runs => ⟨_, rfl, State.coreWatchdog_effect core serves runs⟩, fun s c core serves others => ⟨_, rfl, ?_⟩,
    fun s c core serves last => ⟨_, rfl, State.coreRetire_last core serves last⟩,
    fun s c core tests => ⟨_, rfl, State.coreSelfTest_passed core tests⟩,
    fun s c core tests => ⟨_, rfl, State.coreSelfTest_failed core tests⟩,
    fun s n k cluster four serves others => ⟨_, rfl, ?_⟩, fun s n k cluster four maintenance retired => ⟨_, rfl, ?_⟩,
    fun s n mask cluster other => ⟨_, rfl, ?_⟩⟩
  · rw [State.coreRetire_out core serves others]
    obtain ⟨out, cause, shown, _⟩ := State.coreOut_effect (s := s) (c := c) 1
    exact ⟨out, cause, shown⟩
  · rw [Nat.mod_eq_of_lt cluster, State.coreRetireMask, foldl_one_core (f := fun s j => s.coreRetire (4 * n + j) 4) four,
      State.coreRetire_out (by omega) serves others]
    obtain ⟨out, cause, _⟩ := State.coreOut_effect (s := s) (c := 4 * n + k) 4
    exact ⟨out, cause⟩
  · have mode : ¬(s.mode != 7) = true := by simp [State.mode, maintenance]
    rw [Nat.mod_eq_of_lt cluster, State.coreUnretireMask, if_neg mode, foldl_one_core (f := fun s j => s.coreTest (4 * n + j)) four]
    exact State.coreTest_state retired
  · have mode : (s.mode != 7) = true := by simpa [State.mode] using other
    rw [Nat.mod_eq_of_lt cluster, State.coreUnretireMask, if_pos mode]
    exact ⟨State.rd_flag_self .., fun c => State.coreState_of_rd (fun i => State.rd_flag_ne _ _ _ _ (by decide)) c⟩

end Sys2Proof.Machine

/-! PROOF. Proofs/Integrity.lean: the L2 caches' maintenance, the scrubber, the diagnostic window and initialisation (R401 to R418). -/
namespace Sys2Proof.Machine

section
variable {s t : State} {n : Nat}

/-! ### Caches (R401 to R409) -/

@[simp] theorem State.writeByte_memory (m : MemRegion) (a v : Nat) : (s.writeByte m a v).memory = s.memory := by
  cases m <;> rfl

@[simp] theorem State.wordWritten_caches (m : MemRegion) (a : Nat) (full : Bool) :
    (s.wordWritten m a full).memory.caches = s.memory.caches := by
  dsimp only [State.wordWritten]
  split
  · rfl
  · generalize State.isSet _ _ _ = b
    cases b <;> rfl

/-- A line that goes to memory leaves the caches as they are. -/
theorem State.writeLine_caches (l : L2Line) : (s.writeLine l).memory.caches = s.memory.caches := by
  unfold State.writeLine
  split
  · refine List.foldlRecOn (motive := fun u : State => u.memory.caches = s.memory.caches) _ _ ?_ fun u holds k _ => ?_
    · refine List.foldlRecOn (motive := fun u : State => u.memory.caches = s.memory.caches) _ _ rfl fun u holds k _ => ?_
      rw [State.writeByte_memory, holds]
    · rw [State.wordWritten_caches, holds]
  · rfl

theorem State.cache_of_caches (same : t.memory.caches = s.memory.caches) (n : Nat) : t.cache n = s.cache n := by
  rw [State.cache, same, State.cache]

/-- A change of a cache, where the reset contents stand for a cache that does not exist. -/
theorem State.cache_modCache {f : L2Cache → L2Cache} : (s.modCache n f).cache n = f (s.cache n) ∨
    (s.modCache n f).cache n = L2Cache.atReset ∧ s.cache n = L2Cache.atReset := by
  simp only [State.cache, State.modCache, State.wr_memory, State.modMemory, List.getD_eq_getElem?_getD, List.getElem?_modify_eq]
  cases s.memory.caches[n]? with
  | none => exact .inr ⟨rfl, rfl⟩
  | some c => exact .inl rfl

theorem State.cache_modCache_of_lt {f : L2Cache → L2Cache} (within : n < s.memory.caches.length) :
    (s.modCache n f).cache n = f (s.cache n) := by
  simp [State.cache, State.modCache, State.modMemory, within]

theorem State.modCache_length {f : L2Cache → L2Cache} : (s.modCache n f).memory.caches.length = s.memory.caches.length :=
  List.length_modify ..

/-- The operation that waits is as before. -/
def QueuedKept (n : Nat) (s t : State) : Prop := (t.cache n).queued = (s.cache n).queued

theorem QueuedKept.modCache (h : QueuedKept n s t) {f : L2Cache → L2Cache} (same : ∀ c, (f c).queued = c.queued) :
    QueuedKept n s (t.modCache n f) := by
  rw [QueuedKept] at h ⊢
  rcases State.cache_modCache (s := t) (n := n) (f := f) with changed | ⟨gone, absent⟩
  · rw [changed, same, h]
  · rw [gone, ← absent, h]

theorem QueuedKept.writeLines (h : QueuedKept n s t) (l : List L2Line) : QueuedKept n s (l.foldl State.writeLine t) :=
  List.foldlRecOn l _ h fun u holds line _ => by rwa [QueuedKept, State.cache_of_caches (State.writeLine_caches line)]

theorem QueuedKept.applyOp (o : L2Op) : QueuedKept n s (s.applyOp n o) := by
  have cleans {t : State} {p : L2Line → Bool} (h : QueuedKept n s t) : QueuedKept n s (t.cleanLines n p) :=
    (h.writeLines _).modCache fun _ => rfl
  have drops {t : State} {p : L2Line → Bool} {q : Nat → Bool} (h : QueuedKept n s t) : QueuedKept n s (t.dropLines n p q) :=
    h.modCache fun _ => rfl
  have start : QueuedKept n s s := rfl
  simp only [State.applyOp, State.when]
  split <;> split
  · exact drops (cleans start)
  · exact drops start
  · exact cleans start
  · exact start

theorem State.maintGo_running (cluster : n < 4) (within : n < s.memory.caches.length) (op : s.rd .L2n_MAINT_OP (l2Ix n) ≠ 3)
    (free : (s.cache n).running = none) (still : s.rd .L2n_STAT_WALK (l2Ix n) = 0) :
    (((s.maintGo n).cache n).running.map fun o => (o.op, o.set, o.way)) =
      some (s.rd .L2n_MAINT_OP (l2Ix n), s.rd .L2n_MAINT_SET (l2Ix n), s.rd .L2n_MAINT_WAY (l2Ix n)) := by
  have idle : ((s.cache n).running.isNone && !s.isSet .L2n_STAT_WALK (l2Ix n)) = true := by simp [free, State.isSet, still]
  simp only [State.maintGo, if_neg (Nat.not_le.2 cluster), if_neg op, if_pos idle]
  rw [State.cache_modCache_of_lt within]
  rfl

theorem State.maintDone_effect {o : L2Op} (running : (s.cache n).running = some o) :
    (s.maintDone n).rd .L2n_STAT_MDONE (l2Ix n) = 1 ∧ ((s.cache n).queued = none → ((s.maintDone n).cache n).running = none) := by
  simp only [State.maintDone, running]
  generalize ended : State.modCache _ n _ = u
  have next : Keeps (allBut [.L2n_STAT_MDONE]) everyPart (u.flag .L2n_STAT_MDONE (l2Ix n))
      ((u.flag .L2n_STAT_MDONE (l2Ix n)).maintNext n) := State.maintNext_after (.refl _) (by decide) (by decide)
  refine ⟨?_, fun alone => ?_⟩
  · rw [next.rd .L2n_STAT_MDONE _ (by decide), State.rd_flag_self]
    rfl
  · have queued : ((u.flag .L2n_STAT_MDONE (l2Ix n)).cache n).queued = none := by
      rw [← alone, ← ended]
      exact QueuedKept.modCache (.applyOp o) fun _ => rfl
    have stopped : ((u.flag .L2n_STAT_MDONE (l2Ix n)).cache n).running = none := by
      rw [← ended]
      rcases State.cache_modCache (s := s.applyOp n o) (n := n) (f := fun c => { c with running := none }) with changed | ⟨gone, _⟩
      · exact congrArg L2Cache.running changed
      · exact congrArg L2Cache.running gone
    have rests : ¬(((u.flag .L2n_STAT_MDONE (l2Ix n)).cache n).running.isNone && ((u.flag .L2n_STAT_MDONE (l2Ix n)).cache n).queued.isSome &&
        !(u.flag .L2n_STAT_MDONE (l2Ix n)).isSet .L2n_STAT_WALK (l2Ix n)) = true := by simp [queued]
    simp only [State.maintNext]
    rw [if_neg rests, stopped]

theorem State.l2Disable_effect (cluster : n < 4) : (s.l2Disable n).rd .L2n_CTRL_EN (l2Ix n) = 0 ∧
    (s.rd .L2n_STAT_ENABLED (l2Ix n) = 1 → (s.l2Disable n).rd .L2n_STAT_WALK (l2Ix n) ≠ 0) := by
  rw [State.l2Disable, if_neg (Nat.not_le.2 cluster), State.startWalk]
  refine ⟨?_, fun enabled => ?_⟩
  · split
    · rw [State.rd_flag_ne _ _ _ _ (by decide), State.rd_unflag_self]
    · exact State.rd_unflag_self ..
  · have on : (s.unflag .L2n_CTRL_EN (l2Ix n)).isSet .L2n_STAT_ENABLED (l2Ix n) = true := by
      rw [State.isSet, State.rd_unflag_ne _ _ _ _ (by decide), enabled]
      rfl
    rw [on, Bool.true_and]
    split
    · rw [State.rd_flag_self]
      decide
    · next walks => simpa [State.isSet] using walks

theorem State.dropLines_all : ((s.dropLines n (fun _ => true) fun _ => true).cache n).lines = [] := by
  rcases State.cache_modCache (s := s) (n := n) (f := fun c =>
    { c with lines := c.lines.filter fun _ => !true, side := c.side.filter fun _ => !true }) with changed | ⟨gone, _⟩
  · exact (congrArg L2Cache.lines changed).trans (by simp)
  · exact congrArg L2Cache.lines gone

theorem State.maintNext_lines : ((s.maintNext n).cache n).lines = (s.cache n).lines := by
  simp only [State.maintNext]
  split
  · rcases State.cache_modCache (s := s) (n := n) (f := fun c => { c with running := c.queued, queued := none }) with changed | ⟨gone, absent⟩
    · rw [changed]
    · exact congrArg L2Cache.lines (gone.trans absent.symm)
  · rfl

theorem State.walkEnd_effect {writeNs : Nat} {bad : List Nat} (walks : s.rd .L2n_STAT_WALK (l2Ix n) = 1) :
    (s.walkEnd n writeNs bad).rd .L2n_STAT_WALK (l2Ix n) = 0 ∧
      (s.walkEnd n writeNs bad).rd .L2n_STAT_ENABLED (l2Ix n) = boolNat (s.isSet .L2n_CTRL_EN (l2Ix n)) ∧
      ((s.walkEnd n writeNs bad).cache n).lines = [] := by
  have due : ¬(!s.isSet .L2n_STAT_WALK (l2Ix n)) = true := by simp [State.isSet, walks]
  have written {u : State} {l : List L2Line} : Keeps (allBut [.L2n_CTRL_EN]) everyPart u (l.foldl (fun s l =>
      ((List.range 8).foldl (fun s k => s.poisonWord (l.addr + 8 * k)) s).uncorrectable (16 + n) l.addr 0) u) :=
    .foldl (.refl u) fun _ _ h => State.uncorrectable_after (.foldl h fun _ _ h => State.poisonWord_after h (by decide) (by decide))
      (by decide) (by decide)
  have cleaned {p : L2Line → Bool} : Keeps (allBut [.L2n_CTRL_EN]) everyPart s (s.cleanLines n p) :=
    State.cleanLines_after (.refl s) (by decide) (by decide)
  have dropped {u : State} {p : L2Line → Bool} {q : Nat → Bool} : Keeps (allBut [.L2n_CTRL_EN]) everyPart u (u.dropLines n p q) :=
    State.dropLines_after (.refl u) (by decide) (by decide)
  have next {u : State} : Keeps (allBut [.L2n_STAT_WALK, .L2n_STAT_ENABLED]) everyPart u (u.maintNext n) :=
    State.maintNext_after (.refl u) (by decide) (by decide)
  simp only [State.walkEnd, if_neg due]
  generalize poisoned : List.foldl _ (State.cleanLines _ _ _) _ = u
  have enable : (u.dropLines n (fun _ => true) fun _ => true).rd .L2n_CTRL_EN (l2Ix n) = s.rd .L2n_CTRL_EN (l2Ix n) := by
    rw [dropped.rd .L2n_CTRL_EN _ (by decide), ← poisoned, written.rd .L2n_CTRL_EN _ (by decide), cleaned.rd .L2n_CTRL_EN _ (by decide)]
  refine ⟨?_, ?_, ?_⟩
  · rw [next.rd .L2n_STAT_WALK _ (by decide), State.rd_setTo_ne _ _ _ _ (by decide), State.rd_unflag_self]
  · rw [next.rd .L2n_STAT_ENABLED _ (by decide), State.rd_setTo_self, State.isSet, State.rd_wr_ne _ _ _ _ _ _ (by decide),
      enable]
    exact boolNat_mod_two _
  · rw [State.maintNext_lines, State.cache_of_caches (s := u.dropLines n (fun _ => true) fun _ => true) (by
      rw [State.setTo_memory, State.unflag_memory, State.wr_memory])]
    exact State.dropLines_all

theorem State.ratInvalidate_valid {e : Nat} (cluster : n < 4) (entry : e < 16) (valid : s.rd .L2n_RAT_CTL_VALID (l2Ix n e) = 1) :
    (s.ratInvalidate n e).rd .L2n_RAT_CTL_VALID (l2Ix n e) = 0 := by
  have due : ¬(decide (4 ≤ n) || decide (16 ≤ e) || !s.isSet .L2n_RAT_CTL_VALID (l2Ix n e)) = true := by
    simp [Nat.not_le.2 cluster, Nat.not_le.2 entry, State.isSet, valid]
  simp only [State.ratInvalidate, if_neg due]
  exact State.rd_unflag_self ..

/-! ### Buckets and the scrubber (R412 to R414) -/

section
variable {m a synd : Nat}

theorem State.bucketLeak_empty (inRange : m < 48) :
    (s.bucketLeak m none).rd .MI_I_STAT_LEVEL m = (s.rd .MI_I_STAT_LEVEL m - 1) % 2 ^ 8 := by
  rw [State.bucketLeak, if_neg (Nat.not_le.2 inRange)]
  exact State.rd_wr_self ..

theorem State.bucketLeak_error (inRange : m < 48) :
    (s.bucketLeak m (some (a, synd))).rd .MI_I_STAT_LEVEL m = s.rd .MI_I_STAT_LEVEL m ∧
      (s.bucketLeak m (some (a, synd))).rd .MI_I_CE_COUNT m = min (2 ^ 32 - 1) (s.rd .MI_I_CE_COUNT m + 1) := by
  have captured {u : State} : Keeps (allBut [.MI_I_STAT_LEVEL, .MI_I_CE_COUNT]) everyPart u (u.captureError m a synd 0) :=
    State.captureError_after (.refl u) (by decide) (by decide)
  rw [State.bucketLeak, if_neg (Nat.not_le.2 inRange)]
  simp only [State.correction, if_true]
  constructor
  · rw [captured.rd .MI_I_STAT_LEVEL _ (by decide), State.rd_bump_ne _ _ _ _ (by decide)]
  · rw [captured.rd .MI_I_CE_COUNT _ (by decide), State.rd_bump_self]
    rfl

theorem State.scrubStep_clean {result : ScrubResult} (visits : s.scrubs m a = true) (finds : s.scrubFinds a result = .clean) :
    (s.scrubStep m a result false).memory.asked = s.memory.asked.filter (· != a / 8 * 8) := by
  simp only [State.scrubStep, visits, finds, Bool.not_true, Bool.false_eq_true, if_false, State.when]
  rfl

theorem State.scrubStep_corrected {result : ScrubResult} (visits : s.scrubs m a = true)
    (finds : s.scrubFinds a result = .corrected synd) :
    (s.scrubStep m a result false).rd .SCB_MS_CNT0_FIXED = min (2 ^ 16 - 1) (s.rd .SCB_MS_CNT0_FIXED + 1) := by
  have row {u : State} {b : Bool} {r : Nat} : Keeps (allBut [.SCB_MS_CNT0_FIXED]) everyPart u (u.when b fun s => s.chestRow 4 r) :=
    .when (.refl u) fun _ h => State.chestRow_after h (by decide) (by decide)
  have corrects {u : State} : Keeps (allBut [.SCB_MS_CNT0_FIXED]) everyPart u ((u.correction m a synd).rewriteCorrected a) :=
    State.rewriteCorrected_after (State.correction_after (.refl u) (by decide) (by decide)) (by decide) (by decide)
  simp only [State.scrubStep, visits, finds, Bool.not_true, Bool.false_eq_true, if_false, State.when]
  refine (row.rd .SCB_MS_CNT0_FIXED _ (by decide)).trans ?_
  rw [State.rd_bump_self, corrects.rd .SCB_MS_CNT0_FIXED _ (by decide)]
  rfl

end

/-! ### The diagnostic window and initialisation (R417, R418) -/

theorem State.rawRead_effect {m : MemRegion} (maintenance : s.rd .PWR_STAT_MODE = 7) (target : s.target s.diagAddr = .memory m) :
    s.rawRead.rd .MI_DIAG_CMD_DONE = 1 ∧ s.rawRead.rd .MI_DIAG_DLO_DATA = (s.readMem m s.diagAddr 8).1 % 2 ^ 32 := by
  have mode : ¬(s.mode != 7) = true := by simp [State.mode, maintenance]
  rw [State.rawRead, if_neg mode]
  extract_lets a
  split
  next v u found =>
    have read : v = (s.readMem m s.diagAddr 8).1 := by
      -- The power stays opaque: the kernel would unfold the product with it.
      generalize 2 ^ 32 = n at found
      rw [show s.target a = .memory m from target] at found
      exact (congrArg Prod.fst found).symm
    refine ⟨State.rd_flag_self .., ?_⟩
    rw [State.rd_flag_ne _ _ _ _ (by decide), State.rd_wr_ne _ _ _ _ _ _ (by decide), State.rd_wr_ne _ _ _ _ _ _ (by decide),
      State.rd_wr_self, ← read]
    exact Nat.mod_mod v (2 ^ 32)

theorem State.rawWrite_effect {m : MemRegion} (maintenance : s.rd .PWR_STAT_MODE = 7) (target : s.target s.diagAddr = .memory m) :
    s.rawWrite.rd .MI_DIAG_CMD_DONE = 1 ∧
      s.rawWrite.mem = (s.regionWrite m s.diagAddr (s.rd .MI_DIAG_DLO_DATA + s.rd .MI_DIAG_DHI_DATA * 2 ^ 32) 8).mem := by
  have mode : ¬(s.mode != 7) = true := by simp [State.mode, maintenance]
  simp only [State.rawWrite, if_neg mode, target]
  exact ⟨State.rd_flag_self .., rfl⟩

theorem State.fill_busy {m : Nat} (sram : m < 45) : (s.fill m).rd .MI_I_STAT_FILL_BUSY m = 1 := by
  rw [State.fill, if_pos sram]
  exact State.rd_flag_self ..

theorem State.fillComplete_effect {m : Nat} (sram : m < 45) (busy : s.rd .MI_I_STAT_FILL_BUSY m = 1) :
    (s.fillComplete m).rd .MI_I_STAT_FILL_BUSY m = 0 ∧ (s.fillComplete m).rd .MI_I_CFG_INIT_MODE m = 0 ∧
      m ∈ (s.fillComplete m).memory.filled := by
  have due : (decide (m < 45) && s.isSet .MI_I_STAT_FILL_BUSY m) = true := by simp [sram, State.isSet, busy]
  rw [State.fillComplete, if_pos due]
  refine ⟨?_, ?_, ?_⟩
  · rw [State.modMemory_rd, State.rd_unflag_ne _ _ _ _ (by decide), State.rd_unflag_self]
  · rw [State.modMemory_rd, State.rd_unflag_self]
  · simp only [State.modMemory_memory]
    split
    · next mem => simpa using mem
    · exact List.mem_cons_self

end

/-- Settles O33. -/
theorem memoryIntegrityEffects : Obligations.MemoryIntegrityEffects := by
  unfold Obligations.MemoryIntegrityEffects
  refine ⟨fun s n cluster within op free still => ⟨_, rfl, State.maintGo_running cluster within op free still⟩,
    fun s n cluster op => ⟨_, rfl, ?_⟩, fun s n o running => ⟨_, rfl, State.maintDone_effect running⟩,
    fun s n cluster => ⟨_, rfl, State.l2Disable_effect cluster⟩, fun s n writeNs bad walks => ⟨_, rfl, State.walkEnd_effect walks⟩,
    fun s n e cluster entry valid => ⟨_, rfl, State.ratInvalidate_valid cluster entry valid⟩,
    fun s m inRange => ⟨_, rfl, State.bucketLeak_empty inRange⟩, fun s m a synd inRange => ⟨_, rfl, State.bucketLeak_error inRange⟩,
    fun s m a result visits finds => ⟨_, rfl, State.scrubStep_clean visits finds⟩,
    fun s m a synd result visits finds => ⟨_, rfl, State.scrubStep_corrected visits finds⟩,
    fun s m maintenance target => ⟨_, rfl, State.rawRead_effect maintenance target⟩,
    fun s m maintenance target => ⟨_, rfl, State.rawWrite_effect maintenance target⟩, fun s m sram => ⟨_, rfl, State.fill_busy sram⟩,
    fun s m sram busy => ⟨_, rfl, State.fillComplete_effect sram busy⟩⟩
  simp only [State.maintGo, if_neg (Nat.not_le.2 cluster), if_pos op]
  exact ⟨State.rd_flag_self .., rfl⟩

end Sys2Proof.Machine

/-! PROOF. Proofs/Replies.lean: commands that are answered, and Cibor requests with their replies (R384 to R390). -/
namespace Sys2Proof.Machine

section
variable {s t u : State} {f : Nat} {c : Cmd}

/-! ### Commands that wait to be executed (R266) -/

theorem State.admin_of_canStart (start : CanStart s f c) (g : State → Cmd → State) :
    s.admin f g = g (s.modCmd f fun c => { c with started := true }) c := by
  obtain ⟨found, waits, open'⟩ := start
  simp only [State.admin, found, waits, open', Option.isSome_none, Bool.or_self, Bool.false_eq_true, if_false]

theorem State.cmdOp_of_found (found : s.findCmd f = some c) : s.cmdOp f = some (c, c.op) := by rw [State.cmdOp, found]; rfl

/-- The command once it is being executed. -/
theorem State.findCmd_started (found : s.findCmd f = some c) :
    (s.modCmd f fun c => { c with started := true }).findCmd f = some { c with started := true } :=
  State.findCmd_modCmd found fun _ => rfl

theorem Answered.of_found {ready : NvStatus × Nat × Nat} (found : t.findCmd f = some c) (answer : c.ready = some ready) :
    Answered t f = some ready.1 := by
  rw [Answered, found]
  simp [answer]

theorem Answered.of_cmds (same : t.host.cmds = s.host.cmds) : Answered t f = Answered s f := by
  rw [Answered, State.findCmd_of_cmds same, Answered]

theorem Answered.finish (found : s.findCmd f = some c) (st : NvStatus) (dw0 dw1 : Nat) : Answered (s.finish f st dw0 dw1) f = some st :=
  Answered.of_found (State.findCmd_finish found st dw0 dw1) rfl

/-- A command that is executed and then ends. -/
theorem Answered.finish_started (found : s.findCmd f = some c) (same : t.host.cmds = (s.modCmd f fun c => { c with started := true }).host.cmds)
    (st : NvStatus) (dw0 dw1 : Nat) : Answered (t.finish f st dw0 dw1) f = some st :=
  Answered.finish ((State.findCmd_of_cmds same f).trans (State.findCmd_started found)) st dw0 dw1

/-! ### Requests and their replies (R384, R387) -/

theorem RequestGone.of_requests {r : CiborRequest} (h : RequestGone s r) (same : t.bur.requests = s.bur.requests) : RequestGone t r := by
  rw [RequestGone, same]
  exact h

/-- Frames of the Bench port leave everything but what goes out. -/
theorem State.benchFrame_bur (type : Nat) (payload : List Nat) : (s.benchFrame type payload).bur = s.bur :=
  List.foldlRecOn (motive := fun u : State => u.bur = s.bur) _ _ rfl fun _ holds _ _ => holds

/-- What a C1h takes goes out before the command is answered. -/
theorem State.hostData_kept (f : Nat) (l : List (Nat × Nat)) : (l.foldl (fun s e => s.emit (.hostData f e.1 e.2)) s).bur = s.bur ∧
    (l.foldl (fun s e => s.emit (.hostData f e.1 e.2)) s).host = s.host :=
  List.foldlRecOn (motive := fun u : State => u.bur = s.bur ∧ u.host = s.host) l _ ⟨rfl, rfl⟩ fun _ holds _ _ => holds

theorem State.giveReply_requests (f numd : Nat) (r : CiborReply) : (s.giveReply f numd r).bur.requests = s.bur.requests := by
  simp only [State.giveReply, State.when]
  have sent (l : List (Nat × Nat)) := congrArg Bureau.requests (State.hostData_kept (s := s) f l).1
  split <;> exact sent _

theorem State.reply_requests (r : CiborRequest) (st : CStat) (d1 d2 : Nat) (results payload : List Nat) :
    (s.reply r st d1 d2 results payload).bur.requests = s.bur.requests.filter fun e => e.order != r.order := by
  simp only [State.reply]
  split
  · rfl
  · split
    · unfold State.when
      split
      · rw [State.benchFrame_bur]
        rfl
      · rfl
    · split
      · rw [State.giveReply_requests]
        rfl
      · rfl

theorem State.reply_gone (r : CiborRequest) (st : CStat) (d1 d2 : Nat) (results payload : List Nat) :
    RequestGone (s.reply r st d1 d2 results payload) r := by
  intro e mem
  rw [State.reply_requests] at mem
  simpa using (List.mem_filter.1 mem).2

/-- With every command answered none waits for a reply. -/
theorem State.waitingReceive_none (answered : ∀ c ∈ s.host.cmds, c.ready ≠ none) (r : CiborReply) : s.waitingReceive r = none := by
  refine List.findSome?_eq_none_iff.2 fun c mem => ?_
  have ready : c.ready.isNone = false := by simp [Option.isSome_iff_ne_none, answered c mem]
  split
  · simp [ready]
  · rfl

/-- The reply waits to be fetched. -/
theorem State.reply_replied {r : CiborRequest} (same : s.host.cmds = t.host.cmds) (st : CStat) (d1 d2 : Nat) (results payload : List Nat) :
    Replied t (s.reply r st d1 d2 results payload) r (replyBytes r st.code d1 d2 results payload) := by
  refine ⟨State.reply_gone r st d1 d2 results payload, fun source answered => ?_⟩
  have nvme : r.source ≠ 10 ∧ r.source ≠ 9 := by omega
  simp only [State.reply, if_neg nvme.1, if_neg nvme.2]
  rw [State.waitingReceive_none (by rw [← same] at answered; exact answered)]
  exact List.mem_append.2 (.inr (List.mem_singleton.2 rfl))

theorem Replied.keeps {r : CiborRequest} {bytes : List Nat} (h : Replied s t r bytes) (same : u.bur.requests = t.bur.requests)
    (replies : u.bur.replies = t.bur.replies) : Replied s u r bytes :=
  ⟨h.1.of_requests same, fun source answered => by rw [replies]; exact h.2 source answered⟩

/-- A request that is due is executed; only a segment before the last is answered alone. -/
theorem State.cibor_due {op source tag : Nat} {r : CiborRequest} (due : s.dueRequest op source tag = some r) (whole : segmented op = false)
    (g : State → CiborRequest → State) : s.cibor op source tag g = g s r := by
  simp only [State.cibor, due, whole, Bool.false_and, Bool.false_eq_true, if_false]

theorem State.cibor_last {op source tag : Nat} {r : CiborRequest} (due : s.dueRequest op source tag = some r) (last : r.last = true)
    (g : State → CiborRequest → State) : s.cibor op source tag g = g s r := by
  simp only [State.cibor, due, last, Bool.not_true, Bool.and_false, Bool.false_eq_true, if_false]

end

end Sys2Proof.Machine

/-! PROOF. Proofs/Packets.lean: how Cibor packets come in and their replies go out (R383 to R390). -/
namespace Sys2Proof.Machine

section
variable {s : State} {source : Nat} {bs : List Nat}

/-! ### Arrival (R385, R388) -/

theorem State.ciborArrive_rejected {st : CStat} (check : s.ciborCheck (packetRequest source s.bur.order bs) bs = some st) :
    s.ciborArrive source bs = (st, s) := by
  simp only [State.ciborArrive, check]

theorem State.ciborArrive_single (check : s.ciborCheck (packetRequest source s.bur.order bs) bs = none)
    (single : segmented (packetRequest source s.bur.order bs).opcode = false) :
    s.ciborArrive source bs = (.ok, s.accept (packetRequest source s.bur.order bs)) := by
  simp only [State.ciborArrive, check, single, Bool.not_false, if_true]

theorem State.dropTransfer_none : ∀ e ∈ (s.dropTransfer source).bur.transfers, e.source ≠ source := by
  intro e mem
  simpa using (List.mem_filter.1 mem).2

theorem State.ciborArrive_segment {bytes : List Nat} (check : s.ciborCheck (packetRequest source s.bur.order bs) bs = none)
    (part : segmented (packetRequest source s.bur.order bs).opcode = true)
    (inOrder : s.segmentBytes (packetRequest source s.bur.order bs) = some bytes) (fits : bytes.length ≤ 1048576) :
    ((packetRequest source s.bur.order bs).last = true →
      (s.ciborArrive source bs).2.bur.requests =
        s.bur.requests ++ [{ packetRequest source s.bur.order bs with payload := bytes }] ∧
      ∀ e ∈ (s.ciborArrive source bs).2.bur.transfers, e.source ≠ source) ∧
    ((packetRequest source s.bur.order bs).last = false →
      { source, opcode := (packetRequest source s.bur.order bs).opcode, id := (packetRequest source s.bur.order bs).param 0, bytes }
        ∈ (s.ciborArrive source bs).2.bur.transfers) := by
  simp only [State.ciborArrive, check, part, Bool.not_true, Bool.false_eq_true, if_false, inOrder, if_neg (Nat.not_lt.2 fits)]
  refine ⟨fun last => ?_, fun more => ?_⟩
  · rw [if_pos last]
    exact ⟨rfl, State.dropTransfer_none⟩
  · rw [if_neg (by simp [more])]
    exact List.mem_append.2 (.inr (List.mem_singleton.2 rfl))

theorem State.ciborArrive_disordered (check : s.ciborCheck (packetRequest source s.bur.order bs) bs = none)
    (part : segmented (packetRequest source s.bur.order bs).opcode = true)
    (disordered : s.segmentBytes (packetRequest source s.bur.order bs) = none) :
    s.ciborArrive source bs = (.segOrder, s.dropTransfer source) := by
  simp only [State.ciborArrive, check, part, Bool.not_true, Bool.false_eq_true, if_false, disordered]

/-- Over NVMe and NVMe-MI a packet arrives as it is. -/
theorem execCiborRequest_bus (bus : source < 9) : execCiborRequest source bs s = .next (s.ciborArrive source bs).2 := by
  rw [execCiborRequest, if_neg (by omega), if_pos bus]

theorem State.benchPacket_rejected {st : CStat} (opens : s.benchOpen = true)
    (check : s.ciborCheck (packetRequest 9 s.bur.order bs) bs = some st) (bad : st ≠ .ok) :
    (s.benchPacket bs).out = .frameStatus (leField bs 4 2) st :: s.out := by
  simp only [State.benchPacket, opens, Bool.not_true, Bool.false_eq_true, if_false, State.ciborArrive_rejected check]
  rfl

/-! ### C0h and C1h (R387) -/

section
variable {f : Nat} {c : Cmd}

/-- The checks look at no command. -/
theorem State.ciborCheck_started (r : CiborRequest) :
    (s.modCmd f fun c => { c with started := true }).ciborCheck r bs = s.ciborCheck r bs := rfl

theorem State.ciborSend_effect (start : CanStart s f c) (op : c.op = .ciborSend bs) :
    (s.ciborCheck (packetRequest c.hqe s.bur.order bs) bs = none → segmented (packetRequest c.hqe s.bur.order bs).opcode = false →
      Answered (s.ciborSend f) f = some .success ∧
        (s.ciborSend f).bur.requests = s.bur.requests ++ [packetRequest c.hqe s.bur.order bs]) ∧
    (∀ st, s.ciborCheck (packetRequest c.hqe s.bur.order bs) bs = some st → st ≠ .ok →
      Answered (s.ciborSend f) f = some .invalidField ∧ (s.ciborSend f).bur = s.bur) := by
  obtain ⟨found, _, _⟩ := id start
  simp only [State.ciborSend, State.cmdOp_of_found found, op, State.admin_of_canStart start]
  refine ⟨fun check single => ?_, fun st check bad => ?_⟩
  · rw [State.ciborArrive_single (s := s.modCmd f fun c => { c with started := true }) check single]
    exact ⟨Answered.finish_started found rfl .success _ _, rfl⟩
  · rw [State.ciborArrive_rejected (s := s.modCmd f fun c => { c with started := true }) check]
    split
    · next h => exact absurd (congrArg Prod.fst h) bad
    · next st' s' _ h =>
      obtain ⟨rfl, rfl⟩ := Prod.mk.inj h
      exact ⟨Answered.finish_started found rfl .invalidField _ _, rfl⟩

theorem State.giveReply_answers {numd : Nat} {r : CiborReply} (found : s.findCmd f = some c) :
    Answered (s.giveReply f numd r) f = some .success ∧
      ((wordsOf r.bytes).length ≤ numd → ∀ e ∈ (s.giveReply f numd r).bur.replies, e.source = r.source → e.tag ≠ r.tag) := by
  simp only [State.giveReply]
  generalize sent : List.foldl _ s _ = v
  have host : v.host = s.host := by
    rw [← sent]
    exact (State.hostData_kept f _).2
  refine ⟨?_, fun fits => ?_⟩
  · have same : (v.when (decide ((wordsOf r.bytes).length ≤ numd)) fun s => s.modBur fun b =>
        { b with replies := b.replies.filter fun e => !(e.source == r.source && e.tag == r.tag) }).host = s.host := by
      unfold State.when
      split <;> exact host
    have here := (State.findCmd_of_cmds (congrArg HostState.cmds same) f).trans found
    exact Answered.of_found (State.findCmd_modCmd here (g := fun c => { c with ready := some (.success, _, 0) }) fun _ => rfl) rfl
  · rw [decide_eq_true fits]
    intro e mem
    simpa [imp_iff_not_or] using (List.mem_filter.1 mem).2

theorem State.ciborReceive_effect {numd tag wait : Nat} {any : Bool} (start : CanStart s f c) (op : c.op = .ciborReceive numd tag any wait) :
    (s.replyFor c.hqe tag any = none → wait = 0 → Answered (s.ciborReceive f) f = some .success) ∧
    (s.replyFor c.hqe tag any = none → wait ≠ 0 →
      Answered (s.ciborReceive f) f = none ∧ ((s.ciborReceive f).findCmd f).map (·.started) = some true) ∧
    (∀ r, s.replyFor c.hqe tag any = some r → Answered (s.ciborReceive f) f = some .success ∧
      ((wordsOf r.bytes).length ≤ numd → ∀ e ∈ (s.ciborReceive f).bur.replies, e.source = r.source → e.tag ≠ r.tag)) := by
  obtain ⟨found, _, open'⟩ := id start
  have started := State.findCmd_started found
  have same : (s.modCmd f fun c => { c with started := true }).replyFor c.hqe tag any = s.replyFor c.hqe tag any := rfl
  simp only [State.ciborReceive, State.cmdOp_of_found found, op, State.admin_of_canStart start, same]
  refine ⟨fun none now => ?_, fun none later => ?_, fun r some' => ?_⟩
  · simp only [none, if_pos now]
    exact Answered.finish started ..
  · simp only [none, if_neg later]
    refine ⟨?_, by rw [started]; rfl⟩
    rw [Answered, started]
    simp [open']
  · simp only [some']
    exact State.giveReply_answers started

theorem State.replyWait_answers {numd tag wait : Nat} {any : Bool} (found : s.findCmd f = some c)
    (op : c.op = .ciborReceive numd tag any wait) (started : c.started = true) (open' : c.ready = none) :
    Answered (s.replyWait f) f = some .success := by
  simp only [State.replyWait, State.cmdOp_of_found found, op, started, open', Option.isNone_none, Bool.and_self, if_true]
  exact Answered.finish found ..

end

/-! ### NVMe-MI (R255) -/

theorem State.smbus_awake {wake : PowerIn} {g : State → State} (awake : s.rd .PWR_STAT_MODE ≠ 0) : s.smbus wake g = g s := by
  rw [State.smbus, State.mode, if_neg awake]

theorem State.miTunnel_send {k nsid : Nat} (check : s.ciborCheck (packetRequest 8 s.bur.order bs) bs = none)
    (single : segmented (packetRequest 8 s.bur.order bs).opcode = false) :
    s.miTunnel k nsid (.ciborSend bs) =
      (s.accept (packetRequest 8 s.bur.order bs)).emit (.miStatus .success (leField bs 4 2)) := by
  simp only [State.miTunnel, State.ciborArrive_single check single]

theorem State.miTunnel_receive {k nsid numd tag wait : Nat} {any : Bool} (none : s.replyFor 8 tag any = none) :
    s.miTunnel k nsid (.ciborReceive numd tag any wait) = s.emit (.miStatus .success (2 ^ 31)) := by
  simp only [State.miTunnel, State.miReceive, none]

end

/-- Settles O37. -/
theorem ciborPacketEffects : Obligations.CiborPacketEffects := by
  unfold Obligations.CiborPacketEffects
  refine ⟨fun s source packet bus check single => ⟨_, execCiborRequest_bus bus, ?_⟩,
    fun s source packet st bus check => ⟨_, execCiborRequest_bus bus, ?_⟩, fun s packet opens check single => ⟨_, rfl, ?_⟩,
    fun s packet st opens check => ⟨_, rfl, fun bad => State.benchPacket_rejected opens check bad⟩,
    fun s source packet bytes bus check part inOrder fits =>
      ⟨_, execCiborRequest_bus bus, State.ciborArrive_segment check part inOrder fits⟩,
    fun s source packet bus check part disordered => ⟨_, execCiborRequest_bus bus, ?_⟩,
    fun s f c bs start op => ⟨_, rfl, State.ciborSend_effect start op⟩,
    fun s f numd tag wait any c start op => ⟨_, rfl, State.ciborReceive_effect start op⟩, fun s source tag => ⟨_, rfl, fun e mem => ?_⟩,
    fun s f numd tag wait any c found op started open' => ⟨_, rfl, State.replyWait_answers found op started open'⟩,
    fun s k nsid bs wake awake check single => ⟨_, rfl, ?_⟩, fun s k nsid numd tag wait any wake awake none => ⟨_, rfl, ?_⟩⟩
  · rw [State.ciborArrive_single check single]
    exact ⟨rfl, rfl, rfl⟩
  · rw [State.ciborArrive_rejected check]
  · simp only [State.benchPacket, opens, Bool.not_true, Bool.false_eq_true, if_false, if_true, State.ciborArrive_single check single]
    rfl
  · rw [State.ciborArrive_disordered check part disordered]
    exact ⟨rfl, State.dropTransfer_none⟩
  · simpa [imp_iff_not_or] using (List.mem_filter.1 mem).2
  · rw [State.smbus_awake awake, State.miTunnel_send check single]
    exact ⟨rfl, rfl⟩
  · rw [State.smbus_awake awake, State.miTunnel_receive none]
    rfl

end Sys2Proof.Machine

/-! PROOF. Proofs/LifeCycle.lean: firmware images, challenges and tokens (R456 to R467). -/
namespace Sys2Proof.Machine

section
variable {s : State} {f : Nat} {c : Cmd}

/-! ### Firmware images (R463, R464) -/

section
variable {offset : Nat} {words : List Nat}

theorem State.firmwareDownload_joins (start : CanStart s f c) (op : c.op = .fwDownload offset words) (some' : words ≠ [])
    (apart : overlaps (if offset = 0 then [] else s.lc.download) offset words.length = false) :
    Answered (s.firmwareDownload f) f = some .success ∧ (s.firmwareDownload f).lc.download =
      (if offset = 0 then [] else s.lc.download) ++ words.mapIdx fun i w => (offset + i, w) := by
  obtain ⟨found, _, _⟩ := id start
  have whole : ¬words.isEmpty = true := by simpa using some'
  have kept : (s.modCmd f fun c => { c with started := true }).lc = s.lc := rfl
  simp only [State.firmwareDownload, State.cmdOp_of_found found, op, State.admin_of_canStart start, kept]
  rw [if_neg whole, if_neg (Bool.eq_false_iff.1 apart)]
  exact ⟨Answered.finish_started found rfl .success _ _, rfl⟩

theorem State.firmwareDownload_overlaps (start : CanStart s f c) (op : c.op = .fwDownload offset words) (some' : words ≠ [])
    (over' : overlaps (if offset = 0 then [] else s.lc.download) offset words.length = true) :
    Answered (s.firmwareDownload f) f = some .overlappingRange ∧ (s.firmwareDownload f).lc.download = s.lc.download := by
  obtain ⟨found, _, _⟩ := id start
  have whole : ¬words.isEmpty = true := by simpa using some'
  have kept : (s.modCmd f fun c => { c with started := true }).lc = s.lc := rfl
  simp only [State.firmwareDownload, State.cmdOp_of_found found, op, State.admin_of_canStart start, kept]
  rw [if_neg whole, if_pos over']
  exact ⟨Answered.finish_started found rfl .overlappingRange _ _, rfl⟩

end

section
variable {slot action : Nat} {key : List Nat} {signed : Bool}

theorem State.firmwareCommit_badSlot (start : CanStart s f c) (op : c.op = .fwCommit slot action)
    (bad : 2 < slot ∨ (action = 2 ∧ slot = 0)) : Answered (s.firmwareCommit f key signed) f = some .invalidFirmwareSlot ∧
      (s.firmwareCommit f key signed).lc = s.lc := by
  obtain ⟨found, _, _⟩ := id start
  simp only [State.firmwareCommit, State.cmdOp_of_found found, op, State.admin_of_canStart start]
  rw [if_pos (by simpa using bad)]
  exact ⟨Answered.finish_started found rfl .invalidFirmwareSlot _ _, rfl⟩

theorem State.firmwareCommit_stores {image : NorImage} (start : CanStart s f c) (op : c.op = .fwCommit slot action) (first : 1 ≤ slot)
    (last : slot ≤ 2) (stores : action ≤ 1) (whole : s.downloaded key signed = some image) (good : s.imageOk image = true) :
    (s.firmwareCommit f key signed).lc.images = s.lc.images.set (slot - 1) (some image) ∧ (s.firmwareCommit f key signed).lc.download = [] ∧
      Answered (s.firmwareCommit f key signed) f = some (if action = 0 then .success else .firmwareNeedsReset) ∧
      (s.firmwareCommit f key signed).lc.active = if action = 0 then s.lc.active else slot - 1 := by
  obtain ⟨found, _, _⟩ := id start
  have taken : ((s.modCmd f fun c => { c with started := true }).downloaded key signed).filter
      (s.modCmd f fun c => { c with started := true }).imageOk = some image := by
    rw [show (s.modCmd f fun c => { c with started := true }).downloaded key signed = some image from whole]
    exact Option.filter_some_pos good
  have named : slot ≠ 0 := by omega
  simp only [State.firmwareCommit, State.cmdOp_of_found found, op, State.admin_of_canStart start, taken, if_neg named]
  rw [if_neg (by simp [named, last])]
  match action, stores with
  | 0, _ => exact ⟨rfl, rfl, Answered.finish_started found rfl .success _ _, rfl⟩
  | 1, _ => exact ⟨rfl, rfl, Answered.finish_started found rfl .firmwareNeedsReset _ _, rfl⟩

theorem State.firmwareCommit_activates (start : CanStart s f c) (op : c.op = .fwCommit slot 2) (first : 1 ≤ slot) (last : slot ≤ 2) :
    (s.slotGood (slot - 1) = true → Answered (s.firmwareCommit f key signed) f = some .firmwareNeedsReset ∧
      (s.firmwareCommit f key signed).lc.active = slot - 1) ∧
    (s.slotGood (slot - 1) = false → Answered (s.firmwareCommit f key signed) f = some .invalidFirmwareImage ∧
      (s.firmwareCommit f key signed).lc = s.lc) := by
  obtain ⟨found, _, _⟩ := id start
  have named : slot ≠ 0 := by omega
  have same : (s.modCmd f fun c => { c with started := true }).slotGood (slot - 1) = s.slotGood (slot - 1) := rfl
  simp only [State.firmwareCommit, State.cmdOp_of_found found, op, State.admin_of_canStart start, if_neg named, same]
  rw [if_neg (by simp [named, last])]
  refine ⟨fun good => ?_, fun bad => ?_⟩
  · rw [if_pos good]
    exact ⟨Answered.finish_started found rfl .firmwareNeedsReset _ _, rfl⟩
  · rw [if_neg (by simp [bad])]
    exact ⟨Answered.finish_started found rfl .invalidFirmwareImage _ _, rfl⟩

end

/-! ### Challenges and refused tokens (R462) -/

section
variable {r : CiborRequest}

/-- A reply changes the Bureau's requests and replies, the commands and what goes out. -/
theorem State.reply_keeps {v : State} {st : CStat} {d1 d2 : Nat} {results payload : List Nat} :
    Keeps 0 (maskOfParts [.host, .bur, .out]) v (v.reply r st d1 d2 results payload) :=
  State.reply_after (.refl v) (by decide) (by decide)

theorem State.lcChallenge_effect : (s.lcChallenge r).rd .LC_STAT_CHAL_LIVE = 1 ∧
    (s.lcChallenge r).lc.challenge = some ((List.range 8).map fun i => Config.freeValue (s.draws + i) % 2 ^ 32) ∧
    RequestGone (s.lcChallenge r) r := by
  refine ⟨?_, ?_, State.reply_gone _ _ _ _ _ _⟩
  · rw [State.lcChallenge, State.reply_keeps.rd .LC_STAT_CHAL_LIVE _ (by decide)]
    exact State.rd_flag_self ..
  · rw [State.lcChallenge, State.reply_keeps.parts .lc rfl]
    rfl

variable {key : List Nat} {steps : Nat}

theorem State.lcToken_denied {signed : Bool} (free : s.lc.waiting = none)
    (bad : (s.tokenGood r.payload key signed && s.transitionOk (tokenTarget r.payload)) = false) :
    (s.lcToken r key signed steps).rd .LC_STAT_CHAL_LIVE = 0 ∧ (s.lcToken r key signed steps).lc.challenge = none ∧
      (s.lcToken r key signed steps).rd .LC_STAT_DENIED = 1 ∧ (s.lcToken r key signed steps).lc.stage = s.lc.stage ∧
      Replied s (s.lcToken r key signed steps) r (replyBytes r (CStat.code .lcDenied) 0 0 [] []) := by
  have effect : s.lcToken r key signed steps = s.endChallenge.lcRefused.reply r .lcDenied := by
    simp only [State.lcToken, free, State.lifeToken, bad, Option.isSome_none, Bool.false_eq_true, if_false]
    rfl
  rw [effect]
  refine ⟨?_, ?_, ?_, ?_, State.reply_replied rfl ..⟩
  · rw [State.reply_keeps.rd .LC_STAT_CHAL_LIVE _ (by decide), State.lcRefused, State.rd_flag_ne _ _ _ _ (by decide)]
    exact State.rd_unflag_self ..
  · rw [State.reply_keeps.parts .lc rfl]
    rfl
  · rw [State.reply_keeps.rd .LC_STAT_DENIED _ (by decide)]
    exact State.rd_flag_self ..
  · rw [State.reply_keeps.parts .lc rfl]
    rfl

/-! ### Transitions (R460, R461) -/

theorem State.lcToken_waits {v : Transition} (free : s.lc.waiting = none)
    (good : (s.tokenGood r.payload key true && s.transitionOk (tokenTarget r.payload)) = true) (transition : tokenTransition r.payload = some v)
    (halted : s.rd .BNCH_STAT_HALTED ≠ 0) : (s.lcToken r key true steps).lc.waiting = some (v, some r.order) ∧
      (s.lcToken r key true steps).lc.stage = s.lc.stage ∧ (s.lcToken r key true steps).lc.challenge = none := by
  have stands : s.endChallenge.isSet .BNCH_STAT_HALTED = true := by
    rw [State.isSet, State.endChallenge, State.rd_unflag_ne _ _ _ _ (by decide)]
    simpa using halted
  simp only [State.lcToken, free, State.lifeToken, good, transition, stands, Option.isSome_none, Bool.false_eq_true, if_false, if_true]
  rw [(State.beginRequest_after (.refl _) (Nat.or_self _) (Nat.or_self _)).parts .lc rfl]
  exact ⟨rfl, rfl, rfl⟩

theorem State.intend_lc (t : Option Transition) : (s.intend t).lc = { s.lc with intent := t } := by
  rw [State.intend, (State.journal_after (.refl _) (Nat.or_self _) (Nat.or_self _)).parts .lc rfl]
  rfl

theorem State.intend_keeps {v : State} (t : Option Transition) :
    Keeps (allBut [.LC_STAT_REFIELD, .LC_STAT_RETCNT, .BNCH_STAT_SESSION]) everyPart v (v.intend t) :=
  State.intend_after (.refl v) (by decide) (by decide)

theorem State.lifeState_intend (t : Option Transition) : (s.intend t).lifeState = s.lifeState := by
  rw [State.lifeState, State.intend_lc, (State.intend_keeps t).rd .LC_STAT_REFIELD _ (by decide),
    (State.intend_keeps t).rd .LC_STAT_RETCNT _ (by decide), State.lifeState]

theorem State.blow_field {v : Transition} (target : v.target = 3) (other : s.lifeState ≠ 4) :
    (s.blow v).lc = { s.lc with stage := s.lc.stage ||| 7 } := by
  simp only [State.blow, target, if_neg other, State.when]
  rfl

/-- A transition to FIELD from a state other than RETURN, carried out whole. -/
theorem State.transit_field {v : Transition} (target : v.target = 3) (other : s.lifeState ≠ 4) :
    (s.transit v 4).lc.stage = s.lc.stage ||| 7 ∧ (s.transit v 4).lc.intent = none ∧ (s.transit v 4).rd .LC_STAT_PEND = 0 ∧
      (s.transit v 4).rd .BNCH_STAT_SESSION = 0 := by
  have effects (u : State) : u.lifeEffects v = u.closeSession := by simp [State.lifeEffects, target]
  have steps : s.transit v 4 = (((s.intend (some v)).blow v).closeSession).intend none := by
    simp [State.transit, State.when, effects]
  have closed {u : State} : u.closeSession.lc = u.lc := (State.closeSession_after (.refl u) (Nat.or_self _) (Nat.or_self _)).parts .lc rfl
  have journals {u : State} : Keeps (allBut [.LC_STAT_PEND, .BNCH_STAT_SESSION]) everyPart u (u.journal (deviceRow 3)) :=
    State.journal_after (.refl u) (by decide) (by decide)
  have resumes {u : State} : Keeps (allBut [.BNCH_STAT_SESSION]) everyPart u u.resumeEngines :=
    State.resumeEngines_after (.refl u) (by decide) (by decide)
  rw [steps]
  refine ⟨?_, ?_, ?_, ?_⟩
  · rw [State.intend_lc, closed, State.blow_field target (by rwa [State.lifeState_intend]), State.intend_lc]
  · rw [State.intend_lc]
  · rw [State.intend, journals.rd .LC_STAT_PEND _ (by decide), State.rd_setTo_self]
    rfl
  · rw [(State.intend_keeps none).rd .BNCH_STAT_SESSION _ (by decide), State.closeSession, State.modBur_rd,
      resumes.rd .BNCH_STAT_SESSION _ (by decide), State.rd_unflag_self]

theorem State.lcToken_field (free : s.lc.waiting = none)
    (good : (s.tokenGood r.payload key true && s.transitionOk (tokenTarget r.payload)) = true) (target : tokenTarget r.payload = 3)
    (other : s.lifeState ≠ 4) (runs : s.rd .BNCH_STAT_HALTED = 0) : (s.lcToken r key true 4).lc.stage = s.lc.stage ||| 7 ∧
      (s.lcToken r key true 4).lc.intent = none ∧ (s.lcToken r key true 4).rd .LC_STAT_PEND = 0 ∧
      (s.lcToken r key true 4).rd .BNCH_STAT_SESSION = 0 ∧ RequestGone (s.lcToken r key true 4) r := by
  have stands : s.endChallenge.isSet .BNCH_STAT_HALTED = false := by
    rw [State.isSet, State.endChallenge, State.rd_unflag_ne _ _ _ _ (by decide)]
    simp [runs]
  have transition : tokenTransition r.payload = some { target := 3, hashes := [], identity := [] } := by
    simp [tokenTransition, target]
  have other' : s.endChallenge.lifeState ≠ 4 := by
    rw [State.lifeState, State.endChallenge, State.rd_unflag_ne _ _ _ _ (by decide), State.rd_unflag_ne _ _ _ _ (by decide)]
    exact other
  obtain ⟨stage, intent, pending, session⟩ := State.transit_field (v := { target := 3, hashes := [], identity := [] }) rfl other'
  simp only [State.lcToken, free, State.lifeToken, good, transition, stands, Option.isSome_none, Bool.false_eq_true, if_false,
    State.carryOut, Nat.lt_irrefl]
  generalize s.endChallenge.transit _ 4 = u at stage intent pending session ⊢
  have answered : ((u.bur.requests.find? fun e => e.order == r.order).getD r).order = r.order := by
    cases h : u.bur.requests.find? fun e => e.order == r.order with
    | none => rfl
    | some e => simpa using List.find?_some h
  refine ⟨?_, ?_, ?_, ?_, fun e mem => ?_⟩
  · rw [State.reply_keeps.parts .lc rfl]
    exact stage
  · rw [State.reply_keeps.parts .lc rfl]
    exact intent
  · rw [State.reply_keeps.rd .LC_STAT_PEND _ (by decide)]
    exact pending
  · rw [State.reply_keeps.rd .BNCH_STAT_SESSION _ (by decide)]
    exact session
  · rw [← answered]
    exact State.reply_gone _ _ _ _ _ _ e mem

end

end

/-- Settles O40. -/
theorem lifeCycleEffects : Obligations.LifeCycleEffects := by
  unfold Obligations.LifeCycleEffects
  refine ⟨fun s f offset words c start op some' apart => ⟨_, rfl, State.firmwareDownload_joins start op some' apart⟩,
    fun s f offset words c start op some' over' => ⟨_, rfl, State.firmwareDownload_overlaps start op some' over'⟩,
    fun s f slot action key signed c start op bad => ⟨_, rfl, State.firmwareCommit_badSlot start op bad⟩,
    fun s f slot action key signed c image start op first last stores whole good =>
      ⟨_, rfl, State.firmwareCommit_stores start op first last stores whole good⟩,
    fun s f slot key signed c start op first last => ⟨_, rfl, State.firmwareCommit_activates start op first last⟩,
    fun s source tag r due => ⟨_, rfl, ?_⟩, fun s source tag steps key signed r due free bad => ⟨_, rfl, ?_⟩,
    fun s source tag steps key r v due free good transition halted => ⟨_, rfl, ?_⟩,
    fun s source tag key r due free good target other runs => ⟨_, rfl, ?_⟩, fun s source tag r due => ⟨_, rfl, ?_⟩,
    fun s => ⟨_, rfl, rfl, State.rd_unflag_self ..⟩⟩
  · rw [State.cibor_due due rfl]
    exact State.lcChallenge_effect
  · rw [State.cibor_due due rfl]
    exact State.lcToken_denied free bad
  · rw [State.cibor_due due rfl]
    exact State.lcToken_waits free good transition halted
  · rw [State.cibor_due due rfl]
    exact State.lcToken_field free good target other runs
  · rw [State.cibor_due due rfl]
    exact State.reply_replied rfl .ok 0 0 _ _

end Sys2Proof.Machine

/-! PROOF. Proofs/Modules.lean: microcode images and extension modules (R372 to R382). -/
namespace Sys2Proof.Machine

section
variable {s t : State}

/-! ### What replies leave of the Bureau -/

/-- Of the Bureau a reply changes the requests and the replies. -/
theorem State.reply_bur (r : CiborRequest) (st : CStat) (d1 d2 : Nat) (results payload : List Nat) :
    (s.reply r st d1 d2 results payload).bur = { s.bur with
      requests := (s.reply r st d1 d2 results payload).bur.requests, replies := (s.reply r st d1 d2 results payload).bur.replies } := by
  have gives (u : State) (f numd : Nat) (p : CiborReply) :
      (u.giveReply f numd p).bur = { u.bur with replies := (u.giveReply f numd p).bur.replies } := by
    simp only [State.giveReply, State.when]
    split
    · rw [State.modBur_bur, (State.hostData_kept (s := u) f _).1]
    · rw [(State.hostData_kept (s := u) f _).1]
  simp only [State.reply]
  split
  · rfl
  · split
    · unfold State.when
      split
      · rw [State.benchFrame_bur]
        rfl
      · rfl
    · split
      · rw [gives]
        rfl
      · rfl

theorem State.reply_modules (r : CiborRequest) (st : CStat) (d1 d2 : Nat) (results payload : List Nat) :
    (s.reply r st d1 d2 results payload).bur.modules = s.bur.modules := by rw [State.reply_bur]

theorem State.reply_svnMin (r : CiborRequest) (st : CStat) (d1 d2 : Nat) (results payload : List Nat) :
    (s.reply r st d1 d2 results payload).bur.svnMin = s.bur.svnMin := by rw [State.reply_bur]

/-- A request that has begun is answered or not. -/
theorem State.settleOne_cases (s : State) (r : CiborRequest) : s.settleOne r = s ∨ ∃ st d1 d2 results payload,
    s.settleOne r = s.reply r st d1 d2 results payload := by
  unfold State.settleOne
  have stays : s = s ∨ ∃ st d1 d2 results payload, s = s.reply r st d1 d2 results payload := .inl rfl
  have answers (st : CStat) (d1 d2 : Nat) (l p : List Nat) : s.reply r st d1 d2 l p = s ∨ ∃ st' d1' d2' results payload,
      s.reply r st d1 d2 l p = s.reply r st' d1' d2' results payload := .inr ⟨st, d1, d2, l, p, rfl⟩
  have either {P : Prop} [Decidable P] {a b : State}
      (ha : a = s ∨ ∃ st d1 d2 results payload, a = s.reply r st d1 d2 results payload)
      (hb : b = s ∨ ∃ st d1 d2 results payload, b = s.reply r st d1 d2 results payload) :
      (if P then a else b) = s ∨ ∃ st d1 d2 results payload, (if P then a else b) = s.reply r st d1 d2 results payload := by
    split
    · exact ha
    · exact hb
  split
  · exact either (either (answers ..) stays) (either (answers ..) (either (answers ..) stays))
  · exact either (answers ..) (either (answers ..) (either (answers ..) stays))
  · exact either (answers ..) stays
  · exact either (answers ..) (either (answers ..) stays)
  · exact either (answers ..) stays
  · exact either stays (answers ..)
  · exact either stays (answers ..)
  · exact stays

/-! ### What leaves the modules alone -/

/-- The extension modules are as before. -/
def ModulesKept (s t : State) : Prop := t.bur.modules = s.bur.modules

section
variable {u : State}

theorem ModulesKept.of_bur (h : ModulesKept s t) (same : u.bur = t.bur) : ModulesKept s u := by
  rw [ModulesKept, same]
  exact h

theorem ModulesKept.when {b : Bool} {f : State → State} (h : ModulesKept s t) (k : ∀ t, ModulesKept s t → ModulesKept s (f t)) :
    ModulesKept s (t.when b f) := by
  cases b
  · exact h
  · exact k t h

theorem ModulesKept.foldl {α : Type} {f : State → α → State} (l : List α) (h : ModulesKept s t)
    (k : ∀ t a, ModulesKept s t → ModulesKept s (f t a)) : ModulesKept s (l.foldl f t) :=
  List.foldlRecOn l f h fun _ holds a _ => k _ a holds

theorem ModulesKept.settleRequests (h : ModulesKept s t) : ModulesKept s t.settleRequests := by
  refine .foldl _ h fun u r holds => ?_
  rcases State.settleOne_cases u r with same | ⟨st, d1, d2, results, payload, replied⟩
  · rw [same]
    exact holds
  · rw [ModulesKept, replied, State.reply_modules]
    exact holds

theorem ModulesKept.refreshMode (h : ModulesKept s t) : ModulesKept s t.refreshMode :=
  (h.of_bur ((State.nextMode_after (.refl t) (Nat.or_self _) (Nat.or_self _)).parts .bur rfl)).settleRequests

theorem ModulesKept.setDegr (h : ModulesKept s t) (b : Nat) (on : Bool) : ModulesKept s (t.setDegr b on) := by
  unfold State.setDegr
  refine .refreshMode (h.of_bur ?_)
  split <;> rfl

theorem ModulesKept.vendorEvent (h : ModulesKept s t) (info : Nat) (who : Nat → Bool) : ModulesKept s (t.vendorEvent info who) :=
  h.of_bur ((State.vendorEvent_after (.refl t) (Nat.or_self _) (Nat.or_self _)).parts .bur rfl)

theorem ModulesKept.logEvent (h : ModulesKept s t) (code severity mask : Nat) (data : List Nat) :
    ModulesKept s (t.logEvent code severity mask data) :=
  h.of_bur ((State.logEvent_after (.refl t) (Nat.or_self _) (Nat.or_self _)).parts .bur rfl)

theorem ModulesKept.noLanes (h : ModulesKept s t) : ModulesKept s t.noLanes :=
  h.of_bur ((State.noLanes_after (.refl t) (Nat.or_self _) (Nat.or_self _)).parts .bur rfl)

theorem ModulesKept.streamRefresh (h : ModulesKept s t) : ModulesKept s t.streamRefresh :=
  h.of_bur ((State.streamRefresh_after (.refl t) (Nat.or_self _) (Nat.or_self _)).parts .bur rfl)

theorem ModulesKept.wr (h : ModulesKept s t) {r : Reg} {v i : Nat} : ModulesKept s (t.wr r v i) := h

theorem ModulesKept.modHarp (h : ModulesKept s t) {f : Harp → Harp} : ModulesKept s (t.modHarp f) := h

theorem ModulesKept.modTherm (h : ModulesKept s t) {f : Thermal → Thermal} : ModulesKept s (t.modTherm f) := h

theorem ModulesKept.modHost (h : ModulesKept s t) {f : HostState → HostState} : ModulesKept s (t.modHost f) := h

theorem ModulesKept.harpRefresh (h : ModulesKept s t) : ModulesKept s t.harpRefresh := by
  unfold State.harpRefresh
  dsimp only
  refine ModulesKept.streamRefresh (ModulesKept.when ?_ fun u h => ModulesKept.noLanes h)
  split
  · exact ModulesKept.setDegr (ModulesKept.when h.wr.wr.wr fun u h => ModulesKept.vendorEvent (ModulesKept.logEvent h.modHarp _ _ _ _) _ _) _ _
  · exact ModulesKept.setDegr (ModulesKept.modHarp h.wr.wr.wr) _ _

theorem ModulesKept.setLane (h : ModulesKept s t) (n : Nat) (j : LaneJob) : ModulesKept s (t.setLane n j) :=
  h.of_bur ((State.setLane_after (.refl t) (Nat.or_self _) (Nat.or_self _)).parts .bur rfl)

theorem ModulesKept.withdrawStream (h : ModulesKept s t) (e : Stream) (cause : Nat) : ModulesKept s (t.withdrawStream e cause) := by
  have released : ModulesKept s (t.releaseStream e true) := by
    unfold State.releaseStream
    refine ModulesKept.refreshMode (ModulesKept.streamRefresh ?_)
    exact h
  unfold State.withdrawStream
  refine ModulesKept.vendorEvent (ModulesKept.logEvent ?_ _ _ _ _) _ _
  exact released

theorem ModulesKept.readmitReads (h : ModulesKept s t) : ModulesKept s t.readmitReads :=
  ModulesKept.foldl _ h fun _ _ h => ModulesKept.when h fun _ h => h.withdrawStream _ _

theorem ModulesKept.recordAvail (h : ModulesKept s t) (e : Stream) : ModulesKept s (t.recordAvail e) :=
  h.of_bur ((State.recordAvail_after (.refl t) (Nat.or_self _) (Nat.or_self _)).parts .bur rfl)

theorem ModulesKept.readmitWrites (h : ModulesKept s t) : ModulesKept s t.readmitWrites :=
  ModulesKept.foldl _ h fun _ _ h => ModulesKept.when (h.recordAvail _) fun _ h => h.withdrawStream _ _

theorem ModulesKept.startSelfTest (h : ModulesKept s t) (n : Nat) : ModulesKept s (t.startSelfTest n) :=
  ModulesKept.harpRefresh (ModulesKept.setLane h.wr n .selfTest)

theorem ModulesKept.quadUp (h : ModulesKept s t) (q : Nat) : ModulesKept s (t.quadUp q) :=
  ModulesKept.foldl _ (ModulesKept.harpRefresh (ModulesKept.foldl _ h.wr fun _ _ h => h.wr))
    fun _ _ h => ModulesKept.when h fun _ h => h.startSelfTest _

theorem ModulesKept.quadDown (h : ModulesKept s t) (q : Nat) : ModulesKept s (t.quadDown q) :=
  ModulesKept.harpRefresh (ModulesKept.foldl _ h.wr fun _ k h => ModulesKept.setLane h.wr k .idle)

theorem ModulesKept.gateDrained (h : ModulesKept s t) : ModulesKept s t.gateDrained :=
  ModulesKept.when (ModulesKept.foldl _ h fun _ _ h => ModulesKept.when h fun _ h => ModulesKept.modTherm (ModulesKept.quadDown h.wr _))
    fun _ h => h.readmitReads

theorem ModulesKept.harpDispatch (h : ModulesKept s t) : ModulesKept s t.harpDispatch :=
  h.of_bur ((State.harpDispatch_after (.refl t) (Nat.or_self _) (Nat.or_self _)).parts .bur rfl)

theorem ModulesKept.throttleHarp (h : ModulesKept s t) : ModulesKept s t.throttleHarp := by
  unfold State.throttleHarp
  dsimp only
  exact ModulesKept.harpDispatch (ModulesKept.gateDrained (ModulesKept.foldl _ h.modTherm fun _ _ h => ModulesKept.quadUp h.wr _))

theorem ModulesKept.withdrawWrites (h : ModulesKept s t) (x : Str) (p : Request → Bool) :
    ModulesKept s (t.onStr x fun v => v.withdrawWrites x p) := by
  unfold State.onStr
  exact ModulesKept.when h fun u h => h.of_bur ((State.withdrawWrites_after (.refl u) (Nat.or_self _) (Nat.or_self _)).parts .bur rfl)

theorem ModulesKept.throttle (h : ModulesKept s t) : ModulesKept s t.throttle := by
  unfold State.throttle
  dsimp only
  split
  · exact h
  · refine ModulesKept.readmitWrites (ModulesKept.throttleHarp (ModulesKept.when (ModulesKept.when ?_ fun _ h => h.wr) fun _ h =>
      ModulesKept.foldl _ h fun _ _ h => h.withdrawWrites _ _))
    exact h

end

/-! ### Extension modules (R381, R382) -/

section
variable {r : CiborRequest}

theorem State.journal_bur (row : Nat) : (s.journal row).bur = s.bur :=
  (State.journal_after (.refl s) (Nat.or_self _) (Nat.or_self _)).parts .bur rfl

theorem State.mgmtExtLoad_loads {m : ModuleImage} (signed : m.signed = true) (key : ∃ w ∈ s.keyHash 3, w ≠ 0)
    (version : s.bur.svnMin.getD 3 0 ≤ m.svn) (count : s.bur.modules.length < 8)
    (room : (s.bur.modules.map (·.image.size)).sum + m.size ≤ 4194304) : RequestGone (s.mgmtExtLoad r m) r ∧
      (s.mgmtExtLoad r m).bur.svnMin = s.bur.svnMin.set 3 m.svn ∧ (s.mgmtExtLoad r m).bur.modules =
        s.bur.modules ++ [{ number := lowestFree (s.bur.modules.map (·.number)) 0, image := m, disabled := false, overruns := [] }] := by
  have keyed : (s.keyHash 3).any (· != 0) = true := by simpa using key
  have trusted : ¬(!m.signed || !(s.keyHash 3).any (· != 0)) = true := by rw [signed, keyed]; decide
  have fits : ¬(decide (8 ≤ s.bur.modules.length) || decide (4194304 < (s.bur.modules.map (·.image.size)).sum + m.size)) = true := by
    simp [Nat.not_le.2 count, Nat.not_lt.2 room]
  simp only [State.mgmtExtLoad, if_neg trusted, if_neg (Nat.not_lt.2 version), if_neg fits]
  refine ⟨State.reply_gone _ _ _ _ _ _, ?_, ?_⟩
  · rw [State.reply_svnMin, State.journal_bur]
    rfl
  · rw [State.reply_modules, State.journal_bur]
    rfl

theorem State.mgmtExtLoad_unsigned {m : ModuleImage} (unsigned : m.signed = false) : (s.mgmtExtLoad r m).bur.modules = s.bur.modules ∧
    Replied s (s.mgmtExtLoad r m) r (replyBytes r (CStat.code .mcSigFail) 0 0 [] []) := by
  simp only [State.mgmtExtLoad, unsigned, Bool.not_false, Bool.true_or, if_true]
  exact ⟨State.reply_modules _ _ _ _ _ _, State.reply_replied rfl _ _ _ _ _⟩

theorem State.mgmtExtUnload_found (found : ∃ m ∈ s.bur.modules, m.number = r.param 1) :
    (s.mgmtExtUnload r).bur.modules = s.bur.modules.filter (fun m => m.number != r.param 1) ∧
      Replied s (s.mgmtExtUnload r) r (replyBytes r 0 0 0 [] []) := by
  rw [State.mgmtExtUnload, if_pos (by simpa using found)]
  exact ⟨State.reply_modules _ _ _ _ _ _, State.reply_replied (s := s.modBur _) rfl .ok 0 0 [] []⟩

theorem State.mgmtExtUnload_absent (absent : ∀ m ∈ s.bur.modules, m.number ≠ r.param 1) :
    (s.mgmtExtUnload r).bur.modules = s.bur.modules ∧
      Replied s (s.mgmtExtUnload r) r (replyBytes r (CStat.code .cfgRange) 0 0 [] []) := by
  rw [State.mgmtExtUnload, if_neg (by simpa using absent)]
  exact ⟨State.reply_modules _ _ _ _ _ _, State.reply_replied rfl _ _ _ _ _⟩

end

/-- The overruns of a hook's modules, and whether a third within a second has disabled them. -/
theorem State.hookTimeout_modules {module hook : Nat} {m : ExtModule} (found : (s.bur.modules.find? fun m =>
      m.number == module && !m.disabled && m.image.hooks.contains hook) = some m) :
    ∀ e ∈ (s.hookTimeout module hook none).bur.modules, e.number = module → e.overruns.head? = some s.timebase ∧
      (e.disabled = true ↔ 2 ≤ (m.overruns.filter fun t => decide (s.timebase < t + 800000000)).length) := by
  simp only [State.hookTimeout, found, Option.bind_none]
  generalize counted : (s.modBur fun b => { b with modules := b.modules.map _ }) = u
  have kept {b b' : Bool} {l : List Nat} : ((u.when b fun s => s.logEvent 0x0010 1 0 l).when b' fun s =>
      (s.modTherm fun t => { t with step := 0 }).throttle).bur.modules = u.bur.modules :=
    ModulesKept.when (ModulesKept.when rfl fun _ h => h.logEvent _ _ _ _) fun _ h => h.modTherm.throttle
  rw [kept, ← counted]
  intro e mem mine
  obtain ⟨e', _, rfl⟩ := List.mem_map.1 mem
  split at mine
  · next h =>
    rw [if_pos h]
    refine ⟨rfl, decide_eq_true_iff.trans ?_⟩
    rw [List.length_cons]
    omega
  · next h => exact absurd (by simpa using mine) h

/-! ### Microcode images (R372 to R374) -/

section
variable {m : Microcode} {r : CiborRequest}

theorem State.installPatch_sweep (x : Str) : ((s.installPatch m x).seq x m.target).sweep = true := by
  rw [State.installPatch, State.seq_modSeq]

/-- A patch of one String leaves the sequencers of the others. -/
theorem State.installPatch_seq_ne {x y : Str} (other : y ≠ x) (q : SeqId) : (s.installPatch m x).seq y q = s.seq y q := by
  have kept : Keeps everyReg (partsBut [.str]) s (((s.putWords x m.target m.words).setLive x m.target
      (((List.range 64).filter fun p => s.pageLive x m.target (64 * p)) ++ m.words.map fun e => e.1 / 64)).putEntries x m.target m.entries) :=
    State.putEntries_after (State.setLive_after (State.putWords_after (.refl s) (by decide) (by decide)) (by decide) (by decide))
      (by decide) (by decide)
  rw [State.installPatch, State.seq, State.modSeq, State.modStr, Quad.get_set_ne _ _ _ other, kept.parts .str rfl, State.seq]

theorem State.microcodeLoad_patch {signed : Option Nat} {base : Bool} {x : Str}
    (good : s.microcodeRefused (microcodeOf r.payload) signed base = none) (free : s.microcodeBusy (microcodeOf r.payload) = false)
    (patch : (microcodeOf r.payload).kind = 1) (mem : x ∈ (microcodeOf r.payload).strings) :
    ((s.microcodeLoad r signed base).seq x (microcodeOf r.payload).target).sweep = true ∧ RequestGone (s.microcodeLoad r signed base) r := by
  have effect : s.microcodeLoad r signed base =
      ((microcodeOf r.payload).strings.foldl (fun s x => s.installPatch (microcodeOf r.payload) x) s).reply r .ok := by
    simp only [State.microcodeLoad, good, free, Bool.false_eq_true, if_false, if_pos patch]
  rw [effect]
  refine ⟨?_, State.reply_gone _ _ _ _ _ _⟩
  rw [State.seq_of_str (State.reply_keeps.parts .str rfl)]
  refine foldl_reaches (P := fun _ => True) (Q := fun u => (u.seq x (microcodeOf r.payload).target).sweep = true) mem trivial
    (fun _ _ _ => trivial) (fun u _ => State.installPatch_sweep x) fun u y sweeps => ?_
  by_cases same : x = y
  · rw [← same]
    exact State.installPatch_sweep x
  · rwa [State.installPatch_seq_ne same]

theorem State.microcodeInstall_effect (stopped : ∀ x ∈ m.strings, s.sqState x m.target = 0) :
    RequestGone (s.microcodeInstall r m) r ∧ (s.microcodeInstall r m).bur.svnMin = s.bur.svnMin.set m.target.num m.svn := by
  have all : (m.strings.all fun x => s.sqState x m.target == 0) = true := by simpa using stopped
  have installs : Keeps everyReg (partsBut [.bur]) s (m.strings.foldl (fun s x => s.installFull m x) s) :=
    .foldl (.refl s) fun _ _ h => State.installFull_after h (by decide) (by decide)
  simp only [State.microcodeInstall, all, if_true]
  refine ⟨State.reply_gone _ _ _ _ _ _, ?_⟩
  rw [State.reply_svnMin, State.journal_bur, State.modBur_bur, installs.parts .bur rfl]

end

theorem State.mcLoad_due {source tag : Nat} {signed : Option Nat} {base : Bool} {r : CiborRequest}
    (fresh : s.bur.requests.find? (fun r => r.source == source && r.tag == tag && r.opcode == 0x3000 && r.started) = none)
    (due : s.dueRequest 0x3000 source tag = some r) (last : r.last = true) :
    s.mcLoad source tag signed base = s.microcodeLoad r signed base := by
  rw [State.mcLoad, fresh]
  exact State.cibor_last due last _

theorem State.mgmtExtension_answers {source tag : Nat} {status : CStat} {payload : List Nat} {r : CiborRequest}
    (found : s.bur.requests.find? (fun r => r.source == source && r.tag == tag && decide (0x8000 ≤ r.opcode) && !r.started) = some r)
    (turn : s.orderWaits r = false) : Replied s (s.mgmtExtension source tag status payload) r
      (if s.hookAlive 6 then replyBytes r status.code 0 0 [] payload else replyBytes r (CStat.code .badOpcode) 0 0 [] []) := by
  simp only [State.mgmtExtension, found, turn, Bool.false_eq_true, if_false]
  split
  · exact State.reply_replied (s := s) rfl status 0 0 [] payload
  · exact State.reply_replied (s := s) rfl .badOpcode 0 0 [] []

end

/-- Settles O39. -/
theorem microcodeAndModuleEffects : Obligations.MicrocodeAndModuleEffects := by
  unfold Obligations.MicrocodeAndModuleEffects
  refine ⟨fun s source tag signed base r st d1 d2 fresh due last refused => ⟨_, rfl, ?_⟩,
    fun s source tag signed base r x fresh due last good free patch mem => ⟨_, rfl, ?_⟩,
    fun s source tag signed base r begun stopped => ⟨_, rfl, ?_⟩,
    fun s source tag svn size signed hooks r due last holds key version count room => ⟨_, rfl, ?_⟩,
    fun s source tag svn size hooks r due last => ⟨_, rfl, ?_⟩, fun s source tag r due found => ⟨_, rfl, ?_⟩,
    fun s source tag r due absent => ⟨_, rfl, ?_⟩,
    fun s source tag status payload r found turn => ⟨_, rfl, State.mgmtExtension_answers found turn⟩,
    fun s module hook m found => ⟨_, rfl, State.hookTimeout_modules found⟩⟩
  · have effect : s.mcLoad source tag signed base = s.reply r st d1 d2 := by
      rw [State.mcLoad_due fresh due last]
      simp only [State.microcodeLoad, refused]
    rw [effect]
    exact ⟨State.reply_replied (s := s) rfl st d1 d2 [] [], State.reply_keeps.parts .control rfl⟩
  · rw [State.mcLoad_due fresh due last]
    exact State.microcodeLoad_patch good free patch mem
  · have effect : s.mcLoad source tag signed base = s.microcodeInstall r (microcodeOf r.payload) := by rw [State.mcLoad, begun]
    rw [effect]
    exact State.microcodeInstall_effect stopped
  · rw [State.cibor_last due last]
    exact State.mgmtExtLoad_loads (m := { signed, svn, size, hooks }) holds key version count room
  · rw [State.cibor_last due last]
    exact State.mgmtExtLoad_unsigned rfl
  · rw [State.cibor_due due rfl]
    exact State.mgmtExtUnload_found found
  · rw [State.cibor_due due rfl]
    exact State.mgmtExtUnload_absent absent

end Sys2Proof.Machine

/-! PROOF. Proofs/Calibration.lean: the Pegs, temperature and calibration scripts (R439 to R457). -/
namespace Sys2Proof.Machine

section
variable {s t : State}

/-! ### Entries of a register written one after another -/

/-- Each entry is stepped once, from what its own entries hold. -/
theorem State.rd_foldl_step {r r' : Reg} (other : r' ≠ r) {g : Nat → Nat → Nat} {ix : Nat → Nat} {l : List Nat}
    (apart : ∀ a ∈ l, ∀ b ∈ l, ix a % 2 ^ 20 = ix b % 2 ^ 20 → a = b) (once : l.Nodup) {n : Nat} (mem : n ∈ l) :
    (l.foldl (fun s n => s.wr r (g (s.rd r' (ix n)) (s.rd r (ix n))) (ix n)) s).rd r (ix n) =
      g (s.rd r' (ix n)) (s.rd r (ix n)) % 2 ^ r.row.width := by
  have leaves (l : List Nat) (out : ∀ a ∈ l, ix n % 2 ^ 20 ≠ ix a % 2 ^ 20) (u : State) :
      (l.foldl (fun s n => s.wr r (g (s.rd r' (ix n)) (s.rd r (ix n))) (ix n)) u).rd r (ix n) = u.rd r (ix n) := by
    induction l generalizing u with
    | nil => rfl
    | cons a l ih =>
      rw [List.foldl_cons, ih fun b mem => out b (List.mem_cons_of_mem _ mem), State.rd_wr_entry _ _ _ _ _ (out a List.mem_cons_self)]
  induction l generalizing s with
  | nil => cases mem
  | cons a l ih =>
    obtain ⟨out, once⟩ := List.nodup_cons.1 once
    rw [List.foldl_cons]
    rcases List.mem_cons.1 mem with rfl | later
    · rw [leaves l fun b mem' same => out (apart _ mem _ (List.mem_cons_of_mem _ mem') same ▸ mem'), State.rd_wr_self]
    · have differ : ix n % 2 ^ 20 ≠ ix a % 2 ^ 20 := fun same => out (apart _ mem _ List.mem_cons_self same ▸ later)
      rw [ih (fun b mem c mem' => apart b (List.mem_cons_of_mem _ mem) c (List.mem_cons_of_mem _ mem')) once later,
          State.rd_wr_ne _ _ _ _ _ _ other, State.rd_wr_entry _ _ _ _ _ differ]

/-- Each entry holds what was written to it. -/
theorem State.rd_foldl_wr {r : Reg} {v : Nat → Nat} {l : List Nat} (small : ∀ a ∈ l, a < 2 ^ 20) {n : Nat} (mem : n ∈ l) :
    (l.foldl (fun s i => s.wr r (v i) i) s).rd r n = v n % 2 ^ r.row.width := by
  induction l using List.reverseRecOn with
  | nil => cases mem
  | append_singleton l a ih =>
    rw [List.foldl_append, List.foldl_cons, List.foldl_nil]
    by_cases here : n = a
    · rw [here, State.rd_wr_self]
    · have bounds := And.intro (small n mem) (small a (List.mem_append.2 (.inr (List.mem_singleton.2 rfl))))
      rw [State.rd_wr_entry _ _ _ _ _ (by omega)]
      exact ih (fun b mem => small b (List.mem_append.2 (.inl mem))) ((List.mem_append.1 mem).resolve_right fun h => here (List.mem_singleton.1 h))

/-! ### Pegs (R440, R442) -/

theorem State.pegTick_shared {n : Nat} (power : s.power.loss = none) (peg : n < 12) : (s.pegTick none).rd .CAL_PEG_V_VALUE n =
    pegStep (s.rd .CAL_PEG_T_TARGET n) (s.rd .CAL_PEG_V_VALUE n) % 2 ^ Reg.CAL_PEG_V_VALUE.row.width := by
  simp only [State.pegTick, power, Option.isSome_none, Bool.false_eq_true, if_false]
  exact State.rd_foldl_step (ix := fun n => n) (by decide) (fun a ha b hb h => by
    have bounds := And.intro (List.mem_range.1 ha) (List.mem_range.1 hb)
    omega) List.nodup_range (List.mem_range.2 peg)

theorem State.pegTick_string {x : Str} {n : Nat} (power : s.power.loss = none) (peg : n < 12) : (s.pegTick (some x)).rd .PEGx_V_VALUE (x.ix n) =
    pegStep (s.rd .PEGx_T_TARGET (x.ix n)) (s.rd .PEGx_V_VALUE (x.ix n)) % 2 ^ Reg.PEGx_V_VALUE.row.width := by
  simp only [State.pegTick, power, Option.isSome_none, Bool.false_eq_true, if_false]
  exact State.rd_foldl_step (ix := fun n => x.ix n) (by decide) (fun a ha b hb h => by
    have bounds := And.intro (List.mem_range.1 ha) (List.mem_range.1 hb)
    have string := Str.num_lt x
    simp only [Str.ix] at h
    omega) List.nodup_range (List.mem_range.2 peg)

/-! ### Temperature and throttling (R446 to R452) -/

theorem State.thermalSample_reading {temps : List Int} {step i : Nat} (awake : s.rd .PWR_STAT_MODE ≠ 0) (sensor : i ∈ s.sensors) :
    (s.thermalSample temps step).rd .THR_SNS_T i = ofSigned 12 (clampInt (-2048) 2047 (temps.getD i 0)) := by
  have acts {u : State} : Keeps (allBut [.THR_SNS_T]) everyPart u (u.thresholds.throttle.temperatureEvents.gateDrained).settleRequests :=
    State.settleRequests_after (State.gateDrained_after (State.temperatureEvents_after (State.throttle_after (State.thresholds_after (.refl u)
      (by decide) (by decide)) (by decide) (by decide)) (by decide) (by decide)) (by decide) (by decide)) (by decide) (by decide)
  have taken : (s.takeReadings temps).rd .THR_SNS_T i = ofSigned 12 (clampInt (-2048) 2047 (temps.getD i 0)) := by
    have small (a : Nat) (mem : a ∈ s.sensors) : a < 2 ^ 20 := by
      unfold State.sensors at mem
      split at mem
      · exact Nat.lt_trans (List.mem_range.1 mem) (by decide)
      · simp only [List.mem_cons, List.not_mem_nil, or_false] at mem
        omega
    have read := (State.rd_foldl_wr (s := s) (r := .THR_SNS_T) (v := fun i => ofSigned 12 (clampInt (-2048) 2047 (temps.getD i 0)))
      small sensor).trans (Nat.mod_eq_of_lt (ofSigned_lt 12 _))
    dsimp only [State.takeReadings]
    split
    · rw [State.rd_wr_ne _ _ _ _ _ _ (by decide)]
      exact read
    · rw [State.rd_wr_ne _ _ _ _ _ _ (by decide), State.rd_wr_ne _ _ _ _ _ _ (by decide)]
      exact read
  have mode : ¬s.mode = 0 := awake
  simp only [State.thermalSample, if_neg mode]
  rw [acts.rd .THR_SNS_T _ (by decide)]
  exact taken

/-- The level that the readings ask for is as before. -/
def LevelKept (s t : State) : Prop := t.therm.level = s.therm.level

section
variable {u : State}

theorem LevelKept.of_therm (h : LevelKept s t) (same : u.therm = t.therm) : LevelKept s u := by
  rw [LevelKept, same]
  exact h

theorem LevelKept.when {b : Bool} {f : State → State} (h : LevelKept s t) (k : ∀ t, LevelKept s t → LevelKept s (f t)) :
    LevelKept s (t.when b f) := by
  cases b
  · exact h
  · exact k t h

theorem LevelKept.foldl {α : Type} {f : State → α → State} (l : List α) (h : LevelKept s t)
    (k : ∀ t a, LevelKept s t → LevelKept s (f t a)) : LevelKept s (l.foldl f t) :=
  List.foldlRecOn l f h fun _ holds a _ => k _ a holds

theorem LevelKept.wr (h : LevelKept s t) {r : Reg} {v i : Nat} : LevelKept s (t.wr r v i) := h

theorem LevelKept.modTherm (h : LevelKept s t) {f : Thermal → Thermal} (same : ∀ m, (f m).level = m.level) : LevelKept s (t.modTherm f) :=
  (same _).trans h

theorem LevelKept.gateDrained (h : LevelKept s t) : LevelKept s t.gateDrained := by
  refine LevelKept.when (LevelKept.foldl _ h fun v q h => LevelKept.when h fun v h => LevelKept.modTherm ?_ fun _ => ?_) fun v h => ?_
  · exact LevelKept.of_therm (h.wr) ((State.quadDown_after (.refl _) (Nat.or_self _) (Nat.or_self _)).parts .therm rfl)
  · rfl
  · exact h.of_therm ((State.readmitReads_after (.refl v) (Nat.or_self _) (Nat.or_self _)).parts .therm rfl)

theorem LevelKept.throttleHarp (h : LevelKept s t) : LevelKept s t.throttleHarp := by
  have up (v : State) (q : Nat) (h : LevelKept s v) : LevelKept s (v.quadUp q) :=
    h.of_therm ((State.quadUp_after (.refl v) (Nat.or_self _) (Nat.or_self _)).parts .therm rfl)
  have dispatch (v : State) (h : LevelKept s v) : LevelKept s v.harpDispatch :=
    h.of_therm ((State.harpDispatch_after (.refl v) (Nat.or_self _) (Nat.or_self _)).parts .therm rfl)
  unfold State.throttleHarp
  dsimp only
  exact dispatch _ (LevelKept.gateDrained (LevelKept.foldl _ (h.modTherm fun _ => by rfl) fun v q h => up _ q h.wr))

theorem LevelKept.throttle (h : LevelKept s t) : LevelKept s t.throttle := by
  have withdraws (v : State) (x : Str) (h : LevelKept s v) : LevelKept s (v.onStr x fun s => s.withdrawWrites x fun _ => true) :=
    LevelKept.when h fun v h => h.of_therm ((State.withdrawWrites_after (.refl v) (Nat.or_self _) (Nat.or_self _)).parts .therm rfl)
  have readmits (v : State) (h : LevelKept s v) : LevelKept s v.readmitWrites :=
    h.of_therm ((State.readmitWrites_after (.refl v) (Nat.or_self _) (Nat.or_self _)).parts .therm rfl)
  unfold State.throttle
  dsimp only
  split
  · exact h
  · exact readmits _ (LevelKept.throttleHarp (LevelKept.when (LevelKept.when h.wr.wr fun _ h => h.wr) fun _ h =>
      LevelKept.foldl _ h fun v x h => withdraws v x h))

end

theorem State.throttleTick_level (awake : s.rd .PWR_STAT_MODE ≠ 0) : s.throttleTick.therm.level =
    if 440 ≤ s.tj then min 8 (s.therm.level + 1) else if s.tj < 420 then s.therm.level - 1 else s.therm.level := by
  have mode : ¬s.mode = 0 := awake
  simp only [State.throttleTick, if_neg mode]
  exact LevelKept.gateDrained (LevelKept.throttle rfl)

/-! ### Calibration scripts (R443 to R445, R454) -/

theorem State.calScheduleDue_starts {n : Nat} {x : Str} (entry : n < 8) (due : s.calDue n x = true) (idle : s.hostWork x = false)
    (free : ∀ c ∈ s.cal.runs, c.mask ≠ if s.rd .CAL_SCH_SCRIPT n = 8 then 0 else x.bit)
    (ready : s.calReady (s.rd .CAL_SCH_SCRIPT n) (if s.rd .CAL_SCH_SCRIPT n = 8 then 0 else x.bit) (s.aeHead x) = true) :
    (s.calScheduleDue n x).rd .CAL_STAT_BUSY = 1 ∧ (s.calScheduleDue n x).rd .CAL_STAT_SCRIPT = s.rd .CAL_SCH_SCRIPT n ∧
      ∃ c ∈ (s.calScheduleDue n x).cal.runs, c.script = s.rd .CAL_SCH_SCRIPT n ∧ c.entry = some n ∧ c.yielded = false := by
  have script : s.rd .CAL_SCH_SCRIPT n ≤ 8 := by
    simp only [State.calDue, Bool.and_eq_true, decide_eq_true_eq] at due
    exact due.1.2
  have alone : (s.cal.runs.any fun c => c.mask == if s.rd .CAL_SCH_SCRIPT n = 8 then 0 else x.bit) = false :=
    List.any_eq_false.2 fun c mem => by simpa using free c mem
  have starts : ¬(!decide (n < 8) || !s.calDue n x || s.hostWork x ||
      (s.cal.runs.any fun c => c.mask == if s.rd .CAL_SCH_SCRIPT n = 8 then 0 else x.bit) ||
      !s.calReady (s.rd .CAL_SCH_SCRIPT n) (if s.rd .CAL_SCH_SCRIPT n = 8 then 0 else x.bit) (s.aeHead x)) = true := by
    rw [due, idle, alone, ready, decide_eq_true entry]
    decide
  have enters {u : State} {b : Bool} {y : Str} {h : State → Nat} : Keeps (allBut [.CAL_STAT_BUSY, .CAL_STAT_SCRIPT]) (partsBut [.cal]) u
      (u.when b fun s => s.tdEnter y (h s)) := .when (.refl u) fun _ k => State.tdEnter_after k (by decide) (by decide)
  simp only [State.calScheduleDue, if_neg starts, State.calStart]
  refine ⟨?_, ?_, ?_⟩
  · rw [enters.rd .CAL_STAT_BUSY _ (by decide), State.rd_wr_ne _ _ _ _ _ _ (by decide), State.rd_wr_ne _ _ _ _ _ _ (by decide), State.rd_flag_self]
    rfl
  · rw [enters.rd .CAL_STAT_SCRIPT _ (by decide), State.rd_wr_ne _ _ _ _ _ _ (by decide), State.rd_wr_self]
    exact Nat.mod_eq_of_lt (Nat.lt_of_le_of_lt script (by decide))
  · rw [enters.parts .cal rfl]
    exact ⟨_, List.mem_append.2 (.inr (List.mem_singleton.2 rfl)), rfl, rfl, rfl⟩

theorem State.scriptResume_resumes {mask : Nat} {c : CalRun} (found : s.cal.runs.find? (fun c => c.mask == mask && c.yielded) = some c)
    (idle : s.hostWork (runStr mask) = false) (condition : s.calCondition c.script (runStr mask) c.head = true) (script : c.script ≠ 6) :
    ∀ d ∈ (s.scriptResume mask).cal.runs, d.mask = mask → d.yielded = false := by
  have mine : c.mask = mask := by
    have := List.find?_some found
    simp only [Bool.and_eq_true, beq_iff_eq] at this
    exact this.1
  have other : (c.script == 6 && c.contact.isNone) = false := by simp [script]
  simp only [State.scriptResume, found, idle, condition, other, State.when]
  intro d mem yields
  obtain ⟨d', _, rfl⟩ := List.mem_map.1 mem
  split at yields
  · next h => rw [if_pos h]
  · next h => exact absurd (by simpa [mine] using yields) h

/-- A run that has ended is shown. -/
def State.calShown (s : State) (c : CalRun) (st : CStat) : State :=
  let s := s.modCal fun k => { k with runs := k.runs.filter fun d => d.mask != c.mask }
  ((s.wr .CAL_STAT_RESULT st.code).flag .CAL_STAT_DONE).setTo .CAL_STAT_BUSY (!s.cal.runs.isEmpty)

/-- What is left of the end of a run is the reply of its request. -/
theorem State.calEnd_keeps (c : CalRun) (st : CStat) (results : List Nat) :
    Keeps 0 (maskOfParts [.host, .bur, .out]) (s.calShown c st) (s.calEnd c st results) := by
  unfold State.calEnd
  dsimp only
  split
  · exact State.reply_keeps
  · exact .refl _

/-- The end of a run: its result, DONE, and no run of its mask. -/
theorem State.calEnd_effect (c : CalRun) (st : CStat) (results : List Nat) : (s.calEnd c st results).rd .CAL_STAT_DONE = 1 ∧
    (s.calEnd c st results).rd .CAL_STAT_RESULT = st.code % 2 ^ 16 ∧
    (s.calEnd c st results).cal.runs = s.cal.runs.filter fun d => d.mask != c.mask := by
  have kept := State.calEnd_keeps (s := s) c st results
  refine ⟨?_, ?_, ?_⟩
  · rw [kept.rd .CAL_STAT_DONE _ (by decide), State.calShown, State.rd_setTo_ne _ _ _ _ (by decide), State.rd_flag_self]
    rfl
  · rw [kept.rd .CAL_STAT_RESULT _ (by decide), State.calShown, State.rd_setTo_ne _ _ _ _ (by decide), State.rd_flag_ne _ _ _ _ (by decide),
      State.rd_wr_self]
    rfl
  · rw [kept.parts .cal rfl]
    rfl

theorem State.calAbort_runs : s.calAbort.cal.runs = [] := by
  have ends (l : List CalRun) (u : State) : (l.foldl (fun s c => (s.when (c.script == 6) fun s =>
      s.tdRelease (runStr c.mask)).calEnd c .internal) u).cal.runs = u.cal.runs.filter fun d => l.all fun c => d.mask != c.mask := by
    induction l generalizing u with
    | nil => simp
    | cons c l ih =>
      have same : (u.when (c.script == 6) fun s => s.tdRelease (runStr c.mask)).cal = u.cal := by
        unfold State.when
        split <;> rfl
      rw [List.foldl_cons, ih, (State.calEnd_effect ..).2.2, same, List.filter_filter]
      refine List.filter_congr fun d _ => ?_
      rw [List.all_cons, Bool.and_comm]
  rw [State.calAbort, ends]
  refine List.filter_eq_nil_iff.2 fun d mem all => ?_
  simpa using List.all_eq_true.1 all d mem

/-- A step of a requested run whose conditions hold. -/
theorem State.calStepWith_runs {c : CalRun} {f : State → State} (active : c.yielded = false) (request : c.request ≠ none)
    (condition : s.calCondition c.script (runStr c.mask) c.head = true) : s.calStepWith c f = f s := by
  have asked : c.request.isNone = false := by simpa [Option.isSome_iff_ne_none] using request
  simp only [State.calStepWith, active, asked, condition, Bool.false_and, Bool.false_eq_true, if_false, Bool.not_true]

theorem State.tdStep_effect {x : Str} {ecs pes : Nat} {c : CalRun} (search : s.tdRun x = some c) (open' : c.contact = none)
    (active : c.yielded = false) (request : c.request ≠ none) (condition : s.calCondition c.script (runStr c.mask) c.head = true)
    (cal : s.rd .AEx_STAT_STATE x.ix = 5)
    (apart : (tdTest c (s.rd .AEx_CALHTR_HTR x.ix) (s.rd .CAL_TD_TD_FLAT) (s.rd .CAL_TD_TD_PES) ecs pes).1 = none) :
    (s.rd .AEx_CALHTR_HTR x.ix < s.rd .AEx_H_HLIM_HTR_MAX (x.ix c.head) → (s.tdStep x ecs pes).rd .AEx_CALHTR_HTR x.ix =
      min (s.rd .AEx_H_HLIM_HTR_MAX (x.ix c.head)) (s.rd .AEx_CALHTR_HTR x.ix + s.eff .CAL_TD_TD_STEP) % 2 ^ Reg.AEx_CALHTR_HTR.row.width) ∧
    (s.rd .AEx_H_HLIM_HTR_MAX (x.ix c.head) ≤ s.rd .AEx_CALHTR_HTR x.ix → (s.tdStep x ecs pes).rd .AEx_CALHTR_HTR x.ix = 0 ∧
      (s.tdStep x ecs pes).rd .CAL_STAT_DONE = 1 ∧ (s.tdStep x ecs pes).rd .CAL_STAT_RESULT = CStat.code .calNoContact) := by
  have state : ¬(s.aeState x != 5) = true := by simp [State.aeState, cal]
  simp only [State.tdStep, search, State.calStepWith_runs active request condition, open', if_neg state]
  simp only [apart]
  refine ⟨fun below => ?_, fun top => ?_⟩
  · rw [if_neg (Nat.not_le.2 below)]
    exact State.rd_wr_self ..
  · rw [if_pos top]
    obtain ⟨done, result, _⟩ := State.calEnd_effect (s := s.tdRelease x) c .calNoContact []
    refine ⟨?_, done, result⟩
    rw [(State.calEnd_after (.refl _) (Nat.or_self _) (Nat.or_self _)).rd .AEx_CALHTR_HTR _ (by decide)]
    exact (State.rd_wr_self s .AEx_CALHTR_HTR 0 x.ix).trans (Nat.zero_mod _)

/-- The targets of a script are distinct entries. -/
theorem calTargets_nodup (script : Nat) (x : Str) : ((calTargets script x).map fun e => (e.1, e.2 % 2 ^ 20)).Nodup := by
  unfold calTargets
  split <;> cases x <;> decide

theorem calTarget_reg {script : Nat} {x : Str} {e : Reg × Nat} (mem : e ∈ calTargets script x) :
    e.1 = .PEGx_T_TARGET ∨ e.1 = .SVDx_HSKEW_HSKEW ∨ e.1 = .CAL_PEG_T_TARGET := by
  have pegs {l : List Nat} (mem : e ∈ l.map fun n => (Reg.PEGx_T_TARGET, x.ix n)) : e.1 = .PEGx_T_TARGET := by
    obtain ⟨n, _, rfl⟩ := List.mem_map.1 mem
    rfl
  unfold calTargets at mem
  split at mem
  · exact .inl (pegs mem)
  · exact .inl (pegs mem)
  · exact .inl (pegs mem)
  · exact .inl (pegs mem)
  · exact .inl (pegs mem)
  · obtain ⟨n, _, rfl⟩ := List.mem_map.1 mem
    exact .inr (.inl rfl)
  · obtain ⟨n, _, rfl⟩ := List.mem_map.1 mem
    exact .inr (.inr rfl)
  · cases mem

/-- Each target that a value fits holds it. -/
theorem State.targets_written {ts : List (Reg × Nat)} (once : (ts.map fun e => (e.1, e.2 % 2 ^ 20)).Nodup)
    {vs : List Int} {e : (Reg × Nat) × Int} (mem : e ∈ ts.zip vs)
    (fits : targetFits e.1.1 e.2 = true) : ((ts.zip vs).foldl (fun s e => s.when (targetFits e.1.1 e.2) fun s =>
      s.wr e.1.1 (ofSigned e.1.1.row.width e.2) e.1.2) s).rd e.1.1 e.1.2 = ofSigned e.1.1.row.width e.2 := by
  have leaves (ts : List (Reg × Nat)) (vs : List Int) (k : Reg × Nat) (out : (k.1, k.2 % 2 ^ 20) ∉ ts.map fun e => (e.1, e.2 % 2 ^ 20)) (u : State) :
      ((ts.zip vs).foldl (fun s e => s.when (targetFits e.1.1 e.2) fun s =>
        s.wr e.1.1 (ofSigned e.1.1.row.width e.2) e.1.2) u).rd k.1 k.2 = u.rd k.1 k.2 := by
    induction ts generalizing u vs with
    | nil => rfl
    | cons a ts ih =>
      obtain ⟨here, later⟩ := not_or.1 (fun h => out (List.mem_cons.2 h))
      cases vs with
      | nil => rfl
      | cons v vs =>
        rw [List.zip_cons_cons, List.foldl_cons, ih _ later]
        unfold State.when
        split
        · by_cases reg : k.1 = a.1
          · have entry : k.2 % 2 ^ 20 ≠ a.2 % 2 ^ 20 := fun h => here (Prod.ext reg h)
            rw [reg, State.rd_wr_entry _ _ _ _ _ entry]
          · rw [State.rd_wr_ne _ _ _ _ _ _ reg]
        · rfl
  induction ts generalizing s vs with
  | nil => cases mem
  | cons a ts ih =>
    obtain ⟨out, once⟩ := List.nodup_cons.1 once
    cases vs with
    | nil => cases mem
    | cons v vs =>
      rw [List.zip_cons_cons] at mem ⊢
      rw [List.foldl_cons]
      rcases List.mem_cons.1 mem with rfl | later
      · rw [leaves ts vs a out, fits]
        exact (State.rd_wr_self ..).trans (Nat.mod_eq_of_lt (ofSigned_lt _ _))
      · exact ih once later

theorem State.calFinish_effect {c : CalRun} {values : List Int} : (s.calFinish c values).rd .CAL_STAT_DONE = 1 ∧
    (s.calFinish c values).cal.runs = s.cal.runs.filter (fun d => d.mask != c.mask) ∧
    ∀ e ∈ (calTargets c.script (runStr c.mask)).zip values, targetFits e.1.1 e.2 = true →
      (s.calFinish c values).rd e.1.1 e.1.2 = ofSigned e.1.1.row.width e.2 := by
  simp only [State.calFinish]
  generalize written : List.foldl _ s _ = u
  have cal : u.cal = s.cal := by
    rw [← written]
    refine List.foldlRecOn (motive := fun v : State => v.cal = s.cal) _ _ rfl fun v holds e _ => ?_
    unfold State.when
    split <;> exact holds
  obtain ⟨done, _, runs⟩ := State.calEnd_effect (s := u) c
    (if ((calTargets c.script (runStr c.mask)).zip values).all fun e => targetFits e.1.1 e.2 then .ok else .cfgRange)
    ((((calTargets c.script (runStr c.mask)).zip values).map fun e => ofSigned 32 e.2).take 3)
  refine ⟨done, by rw [runs, cal], fun e mem fits => ?_⟩
  have target : e.1.1 = .PEGx_T_TARGET ∨ e.1.1 = .SVDx_HSKEW_HSKEW ∨ e.1.1 = .CAL_PEG_T_TARGET :=
    calTarget_reg (List.of_mem_zip (a := e.1) (b := e.2) mem).1
  have kept : Keeps (allBut [.PEGx_T_TARGET, .SVDx_HSKEW_HSKEW, .CAL_PEG_T_TARGET]) everyPart u (u.calEnd c
      (if ((calTargets c.script (runStr c.mask)).zip values).all fun e => targetFits e.1.1 e.2 then .ok else .cfgRange)
      ((((calTargets c.script (runStr c.mask)).zip values).map fun e => ofSigned 32 e.2).take 3)) :=
    State.calEnd_after (.refl u) (by decide) (by decide)
  rw [kept.rd e.1.1 _ (by rcases target with h | h | h <;> rw [h] <;> decide), ← written]
  exact State.targets_written (calTargets_nodup _ _) mem fits

end

/-- Settles O35. -/
theorem trimAndThermalEffects : Obligations.TrimAndThermalEffects := by
  unfold Obligations.TrimAndThermalEffects
  refine ⟨fun s n power peg => ⟨_, rfl, State.pegTick_shared power peg⟩, fun s x n power present peg => ⟨_, rfl, ?_⟩,
    fun s temps step i awake sensor => ⟨_, rfl, State.thermalSample_reading awake sensor⟩,
    fun s awake => ⟨_, rfl, State.throttleTick_level awake⟩,
    fun s n x present entry due idle free ready =>
      Completes.onStr rfl present (State.calScheduleDue_starts entry due idle free ready),
    fun s mask c found idle condition script => ⟨_, rfl, State.scriptResume_resumes found idle condition script⟩,
    fun s x ecs pes c present search open' active request condition cal apart =>
      Completes.onStr rfl present (State.tdStep_effect search open' active request condition cal apart),
    fun s => ⟨_, rfl, State.calAbort_runs⟩, fun s mask values c found active request condition => ⟨_, rfl, ?_⟩⟩
  · have acts : Option.all s.present (some x) = true := present
    rw [acts]
    exact State.pegTick_string power peg
  · have mine : c.mask = mask := by
      have := List.find?_some found
      simp only [Bool.and_eq_true, beq_iff_eq] at this
      exact this.1
    simp only [State.calScriptStep, found, State.calStepWith_runs active request condition]
    rw [← mine]
    exact State.calFinish_effect

end Sys2Proof.Machine

/-! PROOF. Proofs/Supply.lean: the power-loss event, the supply, wakes, timeouts, power domains and lost Strings (R425 to R438, R482). -/
namespace Sys2Proof.Machine

/-! ### The power-loss event (R426, R434) -/

section
variable {s : State} {x : Str}

theorem State.closeSession_session (s : State) : s.closeSession.rd .BNCH_STAT_SESSION = 0 := by
  have k : Keeps (allBut [.BNCH_STAT_SESSION]) everyPart (s.unflag .BNCH_STAT_SESSION) s.closeSession := by
    unfold State.closeSession
    refine .with_bur ?_ (by decide)
    exact State.resumeEngines_after (.refl _) (by decide) (by decide)
  rw [k.rd .BNCH_STAT_SESSION _ (by decide), State.rd_unflag_self]

theorem State.harvest_loss (s : State) : s.harvest.power.loss = s.power.loss := by
  unfold State.harvest
  dsimp only
  split
  · rfl
  · exact s.setSpeState_loss 9

/-- The event takes effect outside Dormant. -/
theorem State.emergency_effect (vm t : Nat) (awake : s.rd .PWR_STAT_MODE ≠ 0) : (s.emergency vm t).power.loss = some t ∧
    (s.emergency vm t).rd .SB_STAT_PWRLOSS = 1 ∧ (s.emergency vm t).rd .PWR_RETLOG_PARKED = 0 ∧
    (s.emergency vm t).rd .PWR_RETLOG_VM_MIN = min 255 vm ∧ (s.emergency vm t).cal.runs = [] := by
  have mode : ¬((s.flag .SB_STAT_PWRLOSS).bump .SB_CNT_PWRLOSS).mode = 0 := by
    have same : ((s.flag .SB_STAT_PWRLOSS).bump .SB_CNT_PWRLOSS).rd .PWR_STAT_MODE = s.rd .PWR_STAT_MODE := by simp
    rwa [← same] at awake
  simp only [State.emergency, if_neg mode]
  generalize marked : (s.flag .SB_STAT_PWRLOSS).bump .SB_CNT_PWRLOSS = a
  have flag : a.rd .SB_STAT_PWRLOSS = 1 := by rw [← marked]; simp
  generalize begins : (a.modPower _).modSpe _ = b
  have loss : b.harvest.power.loss = some t := by rw [State.harvest_loss, ← begins]; rfl
  have toHarvest : Keeps (allBut [.SB_STAT_PWRLOSS]) everyPart a b.harvest := by
    rw [← begins]
    exact State.harvest_after (State.modSpe_after (State.modPower_after (.refl a) (by decide) (by decide)) (by decide) (by decide))
      (by decide) (by decide)
  generalize b.harvest = c at loss toHarvest
  generalize strings : Str.all.foldl _ c = d
  have toStrings : Keeps (allBut [.SB_STAT_PWRLOSS]) (partsBut [.power]) c d := by
    rw [← strings]
    refine .foldl (.refl c) fun u y h => .onStr h fun u h => ?_
    exact State.lossRetract_after (State.cancelString_after h (by decide) (by decide)) (by decide) (by decide)
  have shared : Keeps (allBut [.SB_STAT_PWRLOSS]) (partsBut [.power]) d d.cancelShared.closeSession :=
    State.closeSession_after (State.cancelShared_after (.refl d) (by decide) (by decide)) (by decide) (by decide)
  have runs : d.cancelShared.closeSession.cal.runs = [] := by
    rw [(State.closeSession_after (.refl _) (Nat.or_self _) (Nat.or_self _)).parts .cal rfl]
    rfl
  generalize d.cancelShared.closeSession = e at shared runs
  generalize logs : State.wr (((State.wr (e.modBridge _) .PWR_RETLOG_BEGUN _).wr .PWR_RETLOG_PARKED 0).wr .PWR_RETLOG_LAST_MS 0)
    .PWR_RETLOG_VM_MIN (min 255 vm) = v
  have parked : v.rd .PWR_RETLOG_PARKED = 0 := by rw [← logs]; simp
  have low : v.rd .PWR_RETLOG_VM_MIN = min 255 vm := by
    rw [← logs, State.rd_wr_self]
    exact Nat.mod_eq_of_lt (by simp only [Reg.width_PWR_RETLOG_VM_MIN]; omega)
  have logged : Keeps (allBut [.SB_STAT_PWRLOSS]) (partsBut [.power, .cal]) e v := by
    rw [← logs]
    exact .wr (.wr (.wr (.wr (State.modBridge_after (.refl e) (by decide) (by decide)) (by decide)) (by decide)) (by decide)) (by decide)
  have last : Keeps (allBut [.SB_STAT_PWRLOSS, .PWR_RETLOG_PARKED, .PWR_RETLOG_VM_MIN]) (partsBut [.power, .cal]) v
      ((v.chestRow 4 (deviceRow 2)).flushRows.onlyDomains (v.chestRow 4 (deviceRow 2)).lossDomains) :=
    State.onlyDomains_after (State.flushRows_after (State.chestRow_after (.refl v) (by decide) (by decide)) (by decide) (by decide))
      (by decide) (by decide)
  have power : v.power = c.power := (logged.parts .power rfl).trans ((shared.parts .power rfl).trans (toStrings.parts .power rfl))
  refine ⟨?_, ?_, ?_, ?_, ?_⟩
  · exact (congrArg Power.loss ((last.parts .power rfl).trans power)).trans loss
  · exact (last.rd .SB_STAT_PWRLOSS 0 (by decide)).trans ((logged.rd .SB_STAT_PWRLOSS 0 (by decide)).trans
      ((shared.rd .SB_STAT_PWRLOSS 0 (by decide)).trans ((toStrings.rd .SB_STAT_PWRLOSS 0 (by decide)).trans
        ((toHarvest.rd .SB_STAT_PWRLOSS 0 (by decide)).trans flag))))
  · exact (last.rd .PWR_RETLOG_PARKED 0 (by decide)).trans parked
  · exact (last.rd .PWR_RETLOG_VM_MIN 0 (by decide)).trans low
  · exact (congrArg (·.runs) ((last.parts .cal rfl).trans (logged.parts .cal rfl))).trans runs

theorem State.powerLoss_effect (v12 v5 : Bool) (vm t : Nat) (awake : s.rd .PWR_STAT_MODE ≠ 0) (none : s.power.loss = none) :
    (s.powerLoss v12 v5 vm t).power.loss = some t ∧ (s.powerLoss v12 v5 vm t).rd .SB_STAT_PWRLOSS = 1 ∧
    (s.powerLoss v12 v5 vm t).rd .PWR_RETLOG_PARKED = 0 ∧ (s.powerLoss v12 v5 vm t).rd .PWR_RETLOG_VM_MIN = min 255 vm ∧
    (s.powerLoss v12 v5 vm t).cal.runs = [] ∧ (s.powerLoss v12 v5 vm t).rd .SB_STAT_V12_OK = boolNat v12 ∧
    (s.powerLoss v12 v5 vm t).rd .SB_STAT_V5_OK = boolNat v5 := by
  let u := ((s.at t).setTo .SB_STAT_V12_OK v12).setTo .SB_STAT_V5_OK v5
  have fresh : u.power.loss = Option.none := by
    rw [show u.power = s.power from (State.at_after (.refl s) (Nat.or_self _) (Nat.or_self _)).parts .power rfl, none]
  have acts : s.powerLoss v12 v5 vm t = u.emergency vm t := by
    change (if u.power.loss.isSome then u else u.emergency vm t) = _
    rw [fresh]
    rfl
  have mode : u.rd .PWR_STAT_MODE ≠ 0 := by simpa [u, State.at_rd _ _ _ (r := .PWR_STAT_MODE) (by decide)] using awake
  obtain ⟨loss, flag, parked, low, runs⟩ := State.emergency_effect vm t mode
  have kept : Keeps (allBut [.SB_STAT_V12_OK, .SB_STAT_V5_OK]) everyPart u (u.emergency vm t) :=
    State.emergency_after (.refl u) (by decide) (by decide)
  rw [acts]
  refine ⟨loss, flag, parked, low, runs, ?_, ?_⟩
  · rw [kept.rd .SB_STAT_V12_OK _ (by decide)]; simp [u]
  · rw [kept.rd .SB_STAT_V5_OK _ (by decide)]; simp [u]

/-! ### The emergency retract (R434, R435) -/

theorem State.startStep2_velocity (waiting : (s.str.get x).sce.step = .waiting) (turn : (s.str.get x).sce.turn = true)
    (high : s.power.vmLow = false) : ((s.startStep2 x).str.get x).sce.step = .velocity := by
  simp [State.startStep2, waiting, turn, high]

theorem State.startStep2_turn (s : State) (x : Str) : ((s.startStep2 x).str.get x).sce.turn = (s.str.get x).sce.turn := by
  unfold State.startStep2 State.when
  split
  · simp
  · rfl

theorem State.retractStagger_effect (vm : Nat) (loss : s.power.loss ≠ none) (retracts : s.rd .SCEx_STAT_STATE x.ix = 5)
    (emergency : (s.str.get x).sce.emergency = true) : ((s.retractStagger x vm).str.get x).sce.turn = true ∧
      (vm < s.rd .PWR_RETCFG_VM_RETMIN → (s.retractStagger x vm).power.vmLow = true) ∧
      ((s.str.get x).sce.step = .waiting → s.power.vmLow = false → s.rd .PWR_RETCFG_VM_RETMIN ≤ vm →
        ((s.retractStagger x vm).str.get x).sce.step = .velocity) := by
  have acts : (s.power.loss.isSome && s.sceState x == 5 && (s.str.get x).sce.emergency) = true := by
    simp [State.sceState, retracts, emergency, Option.isSome_iff_ne_none.2 loss]
  rw [State.retractStagger, acts, State.when_true]
  refine ⟨?_, fun low => ?_, fun waiting high enough => ?_⟩
  · rw [State.startStep2_turn]
    simp
  · rw [decide_eq_true low, State.when_true, (State.startStep2_after (.refl _) (Nat.or_self _) (Nat.or_self _)).parts .power rfl]
    rfl
  · rw [decide_eq_false (Nat.not_lt.2 enough), State.when_false]
    exact State.startStep2_velocity (by simpa using waiting) (by simp) high

theorem State.vmRecover_effect {vm : Nat} (low : s.power.vmLow = true) (above : s.rd .PWR_RETCFG_VM_RETMIN + 5 < vm) :
    (s.vmRecover vm).power.vmLow = false := by
  rw [State.vmRecover, low, decide_eq_true above, Bool.and_self, State.when_true]
  have k {v : State} : Keeps 0 (maskOfParts [.str]) v (Str.all.foldl (fun s x => s.when (s.sceState x == 5 && (s.str.get x).sce.emergency)
      fun s => (s.modSce x fun c => { c with retLimit := s.rd .SCEx_ILIM_RET_ILIM x.ix }).startStep2 x) v) :=
    .foldl (.refl v) fun u y h => .when h fun u h => State.startStep2_after (State.modSce_after h (by decide) (by decide))
      (by decide) (by decide)
  rw [k.parts .power rfl]
  rfl

/-! ### Supply, rails and wakes (R425, R426, R430, R482) -/

/-- With the rails not yet in range the supply is on and waits for them. -/
theorem State.powerUp_waits {p : PowerIn} (held : s.power.railHeld = false) (rails : p.rails = false) :
    s.powerUp p = s.modPower fun q => { q with mainpwr := true, railWait := true } := by
  simp [State.powerUp, held, rails]

theorem State.loaded_of_rd {t : State} (same : ∀ i, t.rd .SCEx_STAT_STATE i = s.rd .SCEx_STAT_STATE i) : t.loaded = s.loaded := by
  funext x
  unfold State.loaded State.sceState
  rw [same]

theorem State.supplyGood_first {p : PowerIn} (none : s.power.loss = none) (awake : s.rd .PWR_STAT_MODE ≠ 0)
    (was : s.rd .SB_STAT_V12_OK = 0) (rails : p.rails = false) : (s.supplyGood p).power.mainpwr = true ∧
      (s.supplyGood p).power.railWait = true ∧ (s.supplyGood p).rd .SB_STAT_V12_OK = 1 ∧ (s.supplyGood p).rd .SB_STAT_V5_OK = 1 := by
  let u := ((s.flag .SB_STAT_V12_OK).flag .SB_STAT_V5_OK).modPower fun q => { q with railHeld := false, railFails := 0 }
  have mode : u.mode ≠ 0 := by
    have same : u.mode = s.rd .PWR_STAT_MODE := by simp [u, State.mode]
    rwa [same]
  have acts : s.supplyGood p = u.modPower fun q => { q with mainpwr := true, railWait := true } := by
    have quiet : ¬u.power.loss.isSome = true := by
      change ¬s.power.loss.isSome = true
      simp [none]
    have sleeps : ¬(decide (u.mode = 0) && p.vddKept || false) = true := by simp [mode]
    simp only [State.supplyGood, State.isSet, was, bne_self_eq_false, Bool.false_and, Bool.not_false, State.when_true]
    rw [if_neg quiet, if_neg sleeps]
    exact State.powerUp_waits rfl rails
  rw [acts]
  exact ⟨rfl, rfl, by simp [u], by simp [u]⟩

/-- During an emergency retract the power-on sequence waits. -/
theorem State.supplyGood_retracting {p : PowerIn} (loss : s.power.loss ≠ none) (loaded : Str.all.any s.loaded = true) :
    (s.supplyGood p).power.supplyDue = some p ∧ (s.supplyGood p).power.loss = s.power.loss := by
  simp only [State.supplyGood]
  generalize first : State.when _ _ _ = u
  have same : u.power.loss = s.power.loss ∧ u.loaded = s.loaded := by
    rw [← first]
    unfold State.when
    split
    · exact ⟨rfl, State.loaded_of_rd fun i => by simp⟩
    · exact ⟨rfl, State.loaded_of_rd fun i => by simp⟩
  obtain ⟨kept, heads⟩ := same
  rw [if_pos (by rwa [kept, Option.isSome_iff_ne_none]), if_pos (by rwa [heads])]
  exact ⟨rfl, kept⟩

theorem State.vmCharged_effect (waits : s.power.startDue = false) : s.vmCharged.spe.vmCharged = true := by
  have quiet : s.vmCharged = s.modSpe fun e => { e with vmCharged := true } := by
    change (s.modSpe _).when s.power.startDue _ = _
    rw [waits, State.when_false]
  rw [quiet]
  rfl

theorem State.wake_asleep {src : Nat} {p : PowerIn} (asleep : s.rd .PWR_STAT_MODE = 0) (enabled : (s.rd .SB_WAKE_EN).testBit src = true)
    (held : s.power.railHeld = false) (rails : p.rails = false) (code : src + 1 < 2 ^ Reg.SB_STAT_WSRC.row.width) :
    (s.wake src p).rd .SB_STAT_WSRC = src + 1 ∧ (s.wake src p).power.mainpwr = true := by
  have acts : (s.mode == 0 && s.bit .SB_WAKE_EN src) = true := by simp [State.mode, State.bit, asleep, enabled]
  rw [State.wake, acts, State.when_true, State.powerUp_waits (by exact held) (by exact rails)]
  exact ⟨(State.rd_wr_self ..).trans (Nat.mod_eq_of_lt code), rfl⟩

theorem State.wake_awake {src : Nat} {p : PowerIn} (awake : s.rd .PWR_STAT_MODE ≠ 0) : s.wake src p = s := by
  have waits : (s.mode == 0 && s.bit .SB_WAKE_EN src) = false := by simp [State.mode, awake]
  rw [State.wake, waits, State.when_false]

/-! ### Timeouts (R390, R427, R430) -/

theorem State.dormantTimeout_effect (standby : s.rd .PWR_STAT_MODE = 1) (auto : s.isSet .PWR_CTRL_AUTODORM = true)
    (perst : s.allPerst = true) (idle : s.bur.requests = []) : s.dormantTimeout.rd .PWR_STAT_MODE = 0 ∧
      s.dormantTimeout.power.mainpwr = false ∧ s.dormantTimeout.rd .BNCH_STAT_SESSION = 0 := by
  have acts : (s.mode == 1 && s.isSet .PWR_CTRL_AUTODORM && s.allPerst && s.bur.requests.isEmpty) = true := by
    simp [State.mode, standby, auto, perst, idle]
  rw [State.dormantTimeout, acts, State.when_true]
  let off := (((s.wr .PWR_STAT_MODE 0).onlyDomains [78]).modPower fun p => { p with mainpwr := false, startDue := false }).modBridge
    fun b => { b with running := false }
  have ends : s.enterDormant = off.cancelShared.closeSession := rfl
  have toOff : Keeps (maskOf [.PWR_DOMSTAT_ON]) everyPart (s.wr .PWR_STAT_MODE 0) off :=
    State.modBridge_after (State.modPower_after (State.onlyDomains_after (.refl _) (by decide) (by decide)) (by decide) (by decide))
      (by decide) (by decide)
  have close : Keeps (allBut [.PWR_STAT_MODE]) (partsBut [.power]) off off.cancelShared.closeSession :=
    State.closeSession_after (State.cancelShared_after (.refl off) (by decide) (by decide)) (by decide) (by decide)
  refine ⟨?_, ?_, ?_⟩
  · rw [ends, close.rd .PWR_STAT_MODE _ (by decide), toOff.rd .PWR_STAT_MODE _ (by decide), State.rd_wr_self, Nat.zero_mod]
  · rw [ends, close.parts .power rfl]
    rfl
  · rw [ends, State.closeSession_session]

theorem State.idleTimeout_effect (idle : s.mediaWork = false) (streams : s.host.streams = []) :
    (s.rd .PWR_STAT_MODE = 4 → s.idleTimeout.rd .PWR_STAT_MODE = 3) ∧ (s.rd .PWR_STAT_MODE = 6 → s.idleTimeout.rd .PWR_STAT_SUB = 0) := by
  have acts : (!s.mediaWork && s.host.streams.isEmpty) = true := by simp [idle, streams]
  rw [State.idleTimeout, acts, State.when_true]
  refine ⟨fun active => ?_, fun degraded => ?_⟩
  · simp [State.mode, active]
  · simp [State.mode, degraded]

theorem State.regate_gated (standby : s.rd .PWR_STAT_MODE = 1) (idle : s.bur.requests = [])
    (answered : ∀ c ∈ s.host.cmds, c.ready.isSome = true) : s.regate.bur.gated = true := by
  have all : s.host.cmds.all (fun c => c.ready.isSome || (c.op == .asyncEvent && c.started)) = true :=
    List.all_eq_true.2 fun c mem => by rw [answered c mem, Bool.true_or]
  have acts : (s.mode == 1 && s.bur.requests.isEmpty && s.host.cmds.all fun c => c.ready.isSome || (c.op == .asyncEvent && c.started)) = true := by
    rw [all]
    simp [State.mode, standby, idle]
  rw [State.regate, acts, State.when_true]
  rfl

/-! ### Lost Strings (R431) -/

theorem State.isLost_of_rd {t : State} (same : t.rd .PWR_STRLOST_LOST = s.rd .PWR_STRLOST_LOST) : t.isLost = s.isLost := by
  funext x
  rw [State.isLost, State.bit, same]
  rfl

/-- String `y` back in service. -/
theorem State.isLost_unflag (y : Str) : (s.unflagBit .PWR_STRLOST_LOST y.num).isLost x = if x = y then false else s.isLost x := by
  unfold State.isLost State.bit
  rw [State.testBit_unflagBit _ _ _ _ _ (Str.num_lt x)]
  by_cases same : x = y
  · rw [if_pos same, if_pos (congrArg Str.num same)]
  · rw [if_neg same, if_neg fun h => same (Str.num_inj h)]

/-- A String of a list of lost ones that returns to service. -/
def State.backInService (s : State) (x : Str) : State :=
  (List.range 10).foldl (fun s k =>
      let d := 10 * x.num + k
      (s.flagBit .PWR_DOMREQ_ON (d % 32) (d / 32)).flagBit .PWR_DOMSTAT_ON (d % 32) (d / 32))
    ((s.unflagBit .PWR_STRLOST_LOST x.num).modStr x fun t => { t with health := { loadFails := 0, wedgeRetracts := [], nutEnables := 0 } })

theorem State.backInService_isLost (s : State) (x y : Str) : (s.backInService y).isLost x = if x = y then false else s.isLost x := by
  have k : Keeps (maskOf [.PWR_DOMREQ_ON, .PWR_DOMSTAT_ON]) everyPart (s.unflagBit .PWR_STRLOST_LOST y.num) (s.backInService y) :=
    .foldl (State.modStr_after (.refl _) (by decide) (by decide)) fun u k h => .flagBit (.flagBit h (by decide)) (by decide)
  rw [State.isLost_of_rd (k.rd .PWR_STRLOST_LOST 0 (by decide)), State.isLost_unflag]

theorem State.strlostClr_back {mask : Nat} (maintenance : s.rd .PWR_STAT_MODE = 7) (named : mask.testBit x.num = true) :
    (s.strlostClr mask).isLost x = false := by
  have acts : ¬(s.mode != 7) = true := by simp [State.mode, maintenance]
  rw [State.strlostClr, if_neg acts]
  generalize back : Str.all.filter (fun x => s.isLost x && mask.testBit x.num) = l
  change (if l.isEmpty then l.foldl State.backInService s else ((l.foldl State.backInService s).journal (deviceRow 1)).setDegr 0
    (Str.all.any (l.foldl State.backInService s).isLost)).isLost x = false
  have served : (l.foldl State.backInService s).isLost x = false := by
    by_cases lost : s.isLost x = true
    · have mem : x ∈ l := by
        rw [← back]
        exact List.mem_filter.2 ⟨Str.mem_all x, by rw [lost, named]; rfl⟩
      refine foldl_reaches (P := fun _ => True) (Q := fun u => u.isLost x = false) mem trivial (fun _ _ _ => trivial) (fun u _ => ?_)
        fun u y holds => ?_
      · rw [State.backInService_isLost, if_pos rfl]
      · rw [State.backInService_isLost, holds, ite_self]
    · refine List.foldlRecOn (motive := fun u : State => u.isLost x = false) _ _ (by simpa using lost) fun u holds y _ => ?_
      rw [State.backInService_isLost, holds, ite_self]
  split
  · exact served
  · generalize l.foldl State.backInService s = u at served
    have k : Keeps (allBut [.PWR_STRLOST_LOST]) everyPart u ((u.journal (deviceRow 1)).setDegr 0 (Str.all.any u.isLost)) :=
      State.setDegr_after (State.journal_after (.refl u) (by decide) (by decide)) (by decide) (by decide)
    rw [← served]
    exact congrFun (State.isLost_of_rd (k.rd .PWR_STRLOST_LOST 0 (by decide))) x

theorem State.strlostClr_locked {mask : Nat} (other : s.rd .PWR_STAT_MODE ≠ 7) : (s.strlostClr mask).rd .PWR_STAT_CFG_LOCKED = 1 ∧
    ∀ x : Str, (s.strlostClr mask).isLost x = s.isLost x := by
  have refused : (s.mode != 7) = true := by simp [State.mode, other]
  rw [State.strlostClr, if_pos refused]
  exact ⟨by simp, fun x => congrFun (State.isLost_of_rd (by simp)) x⟩

theorem State.stringLost_isLost (s : State) (x : Str) : (s.stringLost x).isLost x = true := by
  have k : Keeps (allBut [.PWR_STRLOST_LOST]) everyPart (s.flagBit .PWR_STRLOST_LOST x.num) (s.stringLost x) :=
    State.finishLost_after (State.requestRetract_after (State.withdrawLost_after (State.journal_after (State.setDegr_after (.refl _)
      (by decide) (by decide)) (by decide) (by decide)) (by decide) (by decide)) (by decide) (by decide)) (by decide) (by decide)
  rw [State.isLost_of_rd (k.rd .PWR_STRLOST_LOST 0 (by decide))]
  unfold State.isLost State.bit
  rw [State.testBit_flagBit _ _ _ _ _ (Str.num_lt x), if_pos rfl]

/-! ### Power domains (R433) -/

/-- The bit of a domain in its word of a power-domain field. -/
theorem State.domainBit_same (r : Reg) (d : Nat) : s.domainBit r d = (s.rd r (d / 32)).testBit (d % 32) := rfl

theorem domainBlocks_apart (d : Nat) : ∀ b ∈ (domainBlocks d).1, (blkMask b.1).testBit Reg.PWR_DOMSTAT_ON.ctorIdx = false := by
  unfold domainBlocks
  dsimp only
  repeat' split
  all_goals simp only [List.forall_mem_cons, List.not_mem_nil, false_implies, implies_true, and_true]
  all_goals decide

/-- A domain that goes up sets its bit of PWR_DOMSTAT; what follows leaves the field. -/
theorem State.domainUp_stat (s : State) (d i : Nat) : (s.domainUp d).rd .PWR_DOMSTAT_ON i =
    (s.flagBit .PWR_DOMSTAT_ON (d % 32) (d / 32)).rd .PWR_DOMSTAT_ON i := by
  unfold State.domainUp
  split
  · next quad =>
    obtain ⟨low, high⟩ := (Bool.and_eq_true_iff.1 quad).imp of_decide_eq_true of_decide_eq_true
    have here : 40 + (d - 40) = d := by omega
    unfold State.quadUp
    rw [here]
    refine Keeps.rd (m := allBut [.PWR_DOMSTAT_ON]) (q := everyPart) (.foldl ?_ fun u n h =>
      .when h fun u h => State.startSelfTest_after h (by decide) (by decide)) .PWR_DOMSTAT_ON i (by decide)
    exact State.harpRefresh_after (.foldl (.refl _) fun u n h => .unflagBit h (by decide)) (by decide) (by decide)
  · dsimp only
    have blocks : (((domainBlocks d).1.foldl (fun s b => s.blockReset b.1 b.2) (s.flagBit .PWR_DOMSTAT_ON (d % 32) (d / 32))).domainMemory d).rd
        .PWR_DOMSTAT_ON i = (s.flagBit .PWR_DOMSTAT_ON (d % 32) (d / 32)).rd .PWR_DOMSTAT_ON i := by
      rw [(State.domainMemory_after (.refl _) (Nat.or_self _) (Nat.or_self _)).rd .PWR_DOMSTAT_ON _ (by decide)]
      refine List.foldlRecOn (motive := fun u : State => u.rd .PWR_DOMSTAT_ON i = _) _ _ rfl fun u holds b mem => ?_
      rw [(State.blockReset_after (.refl u) (Nat.or_self _) (Nat.or_self _)).rd .PWR_DOMSTAT_ON _ (domainBlocks_apart d b mem), holds]
    split
    · have k {v : State} {x : Str} {n : Nat} {l : List Nat} : Keeps (allBut [.PWR_DOMSTAT_ON]) everyPart v
          (l.foldl (fun s n => s.pegLoad x n) (v.stringDomain x n)) :=
        .foldl (State.stringDomain_after (.refl v) (by decide) (by decide)) fun u n h => State.pegLoad_after h (by decide) (by decide)
      rw [k.rd .PWR_DOMSTAT_ON i (by decide), blocks]
    · exact blocks

theorem State.domainDown_stat (s : State) (d i : Nat) : (s.domainDown d).rd .PWR_DOMSTAT_ON i =
    (s.unflagBit .PWR_DOMSTAT_ON (d % 32) (d / 32)).rd .PWR_DOMSTAT_ON i := by
  unfold State.domainDown
  split
  · next quad =>
    obtain ⟨low, high⟩ := (Bool.and_eq_true_iff.1 quad).imp of_decide_eq_true of_decide_eq_true
    have here : 40 + (d - 40) = d := by omega
    unfold State.quadDown
    rw [here]
    refine Keeps.rd (m := allBut [.PWR_DOMSTAT_ON]) (q := everyPart) (State.harpRefresh_after (.foldl (.refl _) fun u n h => ?_)
      (by decide) (by decide)) .PWR_DOMSTAT_ON i (by decide)
    exact State.setLane_after (.flagBit h (by decide)) (by decide) (by decide)
  · have k {v : State} {b : Bool} : Keeps (allBut [.PWR_DOMSTAT_ON]) everyPart v (v.when b fun s => s.svdIdle (Str.ofNum (d / 10))) :=
      .when (.refl v) fun u h => State.svdIdle_after h (by decide) (by decide)
    exact k.rd .PWR_DOMSTAT_ON i (by decide)

/-- What a request of PWR_DOMREQ asks of one domain leaves the bits of the other domains of the word. -/
theorem State.domainRequest_other {d d' : Nat} (word : d' / 32 = d / 32) (other : d' ≠ d) :
    (s.domainRequest d').domainBit .PWR_DOMSTAT_ON d = s.domainBit .PWR_DOMSTAT_ON d := by
  have apart : d % 32 ≠ d' % 32 := by omega
  have within : d % 32 < Reg.PWR_DOMSTAT_ON.row.width := Nat.mod_lt _ (by decide)
  rw [State.domainBit_same, State.domainBit_same, State.domainRequest]
  split
  · rfl
  · split
    · rw [State.domainUp_stat, word, State.testBit_flagBit _ _ _ _ _ within, if_neg apart]
    · split
      · rw [State.domainDown_stat, word, State.testBit_unflagBit _ _ _ _ _ within, if_neg apart]
      · simp

/-- A domain that is requested, and that needs no leave to go up, is up. -/
theorem State.domainRequest_up {d : Nat} (wanted : s.domainBit .PWR_DOMREQ_ON d = true) :
    (s.domainRequest d).domainBit .PWR_DOMSTAT_ON d = true := by
  have within : d % 32 < Reg.PWR_DOMSTAT_ON.row.width := Nat.mod_lt _ (by decide)
  simp only [State.domainRequest, wanted, if_true]
  split
  · next same => simpa using same.symm
  · rw [State.domainBit_same, State.domainUp_stat, State.testBit_flagBit _ _ _ _ _ within, if_pos rfl]

/-- A sum of distinct powers of two has the bits that are chosen. -/
theorem testBit_sum_two_pow {α : Type} (f : α → Nat) (p : α → Bool) {l : List α} (once : (l.map f).Nodup) (j : Nat) :
    ((l.map fun a => if p a then 2 ^ f a else 0).sum).testBit j = l.any fun a => p a && f a == j := by
  induction l generalizing j with
  | nil => exact Nat.zero_testBit j
  | cons a l ih =>
    obtain ⟨fresh, once⟩ := List.nodup_cons.1 once
    rw [List.map_cons, List.sum_cons, List.any_cons, ← ih once]
    by_cases chosen : p a = true
    · have clear : ((l.map fun a => if p a then 2 ^ f a else 0).sum).testBit (f a) = false := by
        rw [ih once, List.any_eq_false]
        intro b mem taken
        have same : f b = f a := beq_iff_eq.1 (Bool.and_eq_true_iff.1 taken).2
        exact fresh (same ▸ List.mem_map_of_mem mem)
      rw [if_pos chosen, testBit_two_pow_add clear, chosen, Bool.true_and]
      by_cases here : j = f a
      · simp [here]
      · simp [here, Ne.symm here]
    · simp [chosen]

/-- A write of a word of PWR_DOMREQ that asks for a domain of the device brings it up. -/
theorem State.domainWrite_up {d value : Nat} (own : 40 ≤ d) (last : d < 80) (asks : value.testBit (d % 32) = true) :
    (s.domainWrite (d / 32) value).domainBit .PWR_DOMSTAT_ON d = true := by
  have word : ¬3 ≤ d / 32 := by omega
  rw [State.domainWrite, if_neg word]
  dsimp only
  generalize domains : List.filter _ ((List.range 32).map (32 * (d / 32) + ·)) = ds
  have mem : d ∈ ds := by
    rw [← domains]
    refine List.mem_filter.2 ⟨List.mem_map.2 ⟨d % 32, List.mem_range.2 (Nat.mod_lt _ (by decide)), Nat.div_add_mod d 32⟩, ?_⟩
    simp [own, last]
  have word' : ∀ e ∈ ds, e / 32 = d / 32 := by
    intro e inside
    rw [← domains] at inside
    obtain ⟨k, below, rfl⟩ := List.mem_map.1 (List.mem_of_mem_filter inside)
    have := List.mem_range.1 below
    omega
  have once : (ds.map (· % 32)).Nodup := by
    rw [← domains]
    refine List.Nodup.sublist (List.Sublist.map _ List.filter_sublist) ?_
    rw [List.map_map]
    have places : (List.range 32).map ((· % 32) ∘ (32 * (d / 32) + ·)) = List.range 32 := by
      refine (List.map_congr_left fun k below => ?_).trans (List.map_id _)
      have := List.mem_range.1 below
      simp only [Function.comp_apply, id_eq]
      omega
    rw [places]
    exact List.nodup_range
  generalize sum : (ds.map fun d => if value.testBit (d % 32) then 2 ^ (d % 32) else 0).sum = v
  have wanted : v.testBit (d % 32) = true := by
    rw [← sum, testBit_sum_two_pow (· % 32) (fun d => value.testBit (d % 32)) once]
    exact List.any_eq_true.2 ⟨d, mem, by simp [asks]⟩
  clear domains sum once asks
  have fold (l : List Nat) (inside : ∀ e ∈ l, e / 32 = d / 32) (u : State) (asks : u.domainBit .PWR_DOMREQ_ON d = true)
      (done : d ∈ l ∨ u.domainBit .PWR_DOMSTAT_ON d = true) : (l.foldl State.domainRequest u).domainBit .PWR_DOMSTAT_ON d = true := by
    induction l generalizing u with
    | nil => exact done.resolve_left List.not_mem_nil
    | cons e l ih =>
      obtain ⟨here, later⟩ := List.forall_mem_cons.1 inside
      refine ih later _ ?_ ?_
      · rw [State.domainBit_same, (State.domainRequest_after (.refl u) (Nat.or_self _) (Nat.or_self _)).rd .PWR_DOMREQ_ON _ (by decide)]
        exact asks
      · by_cases same : e = d
        · rw [same]
          exact .inr (State.domainRequest_up asks)
        · rw [State.domainRequest_other here same]
          exact done.imp_left fun mem => (List.mem_cons.1 mem).resolve_left (Ne.symm same)
  refine fold ds word' _ ?_ (.inl mem)
  have low : d % 32 < Reg.PWR_DOMREQ_ON.row.width := Nat.mod_lt _ (by decide)
  rw [State.domainBit_same, State.rd_wr_self, Nat.testBit_mod_two_pow, wanted, decide_eq_true low]
  rfl

/-- A masked write acts on the lowest bit and on the bits above it alike. -/
theorem masked_parts (old value mask : Nat) :
    (old - (old &&& mask) + (value &&& mask)) / 2 = old / 2 - (old / 2 &&& mask / 2) + (value / 2 &&& mask / 2) ∧
      (mask % 2 = 1 → (old - (old &&& mask) + (value &&& mask)) % 2 = value % 2) := by
  have low (a : Nat) : (a &&& mask) % 2 = a % 2 &&& mask % 2 := Nat.and_mod_two_pow (n := 1)
  have parts : mask % 2 = 1 ∧ (old &&& mask) % 2 = old % 2 ∧ (value &&& mask) % 2 = value % 2 ∨
      mask % 2 = 0 ∧ (old &&& mask) % 2 = 0 ∧ (value &&& mask) % 2 = 0 := by
    rcases Nat.mod_two_eq_zero_or_one mask with even | odd
    · exact .inr ⟨even, by rw [low, even, Nat.and_zero], by rw [low, even, Nat.and_zero]⟩
    · exact .inl ⟨odd, by rw [low, odd, Nat.and_one_is_mod, Nat.mod_mod], by rw [low, odd, Nat.and_one_is_mod, Nat.mod_mod]⟩
  have under : old &&& mask ≤ old := Nat.and_le_left
  rw [← Nat.and_div_two, ← Nat.and_div_two]
  omega

/-- The word that a masked write gives has the bits that are written. -/
theorem testBit_masked {old value mask k : Nat} (asks : value.testBit k = true) (named : mask.testBit k = true) :
    (old - (old &&& mask) + (value &&& mask)).testBit k = true := by
  induction k generalizing old value mask with
  | zero =>
    rw [Nat.testBit_zero, decide_eq_true_eq] at asks named ⊢
    rw [(masked_parts old value mask).2 named, asks]
  | succ k ih =>
    rw [Nat.testBit_succ] at asks named ⊢
    rw [(masked_parts old value mask).1]
    exact ih asks named

end

/-- Settles O34. -/
theorem powerEffects : Obligations.PowerEffects := by
  unfold Obligations.PowerEffects
  refine ⟨fun s v12 v5 vm time awake none => ⟨_, rfl, State.powerLoss_effect v12 v5 vm time awake none⟩,
    fun s x vm present loss retracts emergency => .onStr rfl present (State.retractStagger_effect vm loss retracts emergency),
    fun s vm low above => ⟨_, rfl, State.vmRecover_effect low above⟩,
    fun s p none awake was rails => ⟨_, rfl, State.supplyGood_first none awake was rails⟩,
    fun s p loss loaded => ⟨_, rfl, State.supplyGood_retracting loss loaded⟩,
    fun s waits => ⟨_, rfl, State.vmCharged_effect waits⟩,
    fun s temp p asleep enabled hot held rails => ⟨_, rfl, ?_⟩,
    fun s p awake => ⟨_, rfl, ?_⟩,
    fun s p awake alarm early => ⟨_, rfl, ?_⟩,
    fun s standby auto perst idle => ⟨_, rfl, State.dormantTimeout_effect standby auto perst idle⟩,
    fun s idle streams => ⟨_, rfl, State.idleTimeout_effect idle streams⟩,
    fun s standby idle answered => ⟨_, rfl, State.regate_gated standby idle answered⟩,
    fun s mask x maintenance named => ⟨_, rfl, State.strlostClr_back maintenance named⟩,
    fun s mask other => ⟨_, rfl, State.strlostClr_locked other⟩,
    fun s d value mask own last asks named => ⟨_, rfl, State.domainWrite_up (by omega) last (testBit_masked asks named)⟩,
    fun s v12 v5 vm time p awake none => ⟨_, rfl, ?_⟩,
    fun s main waits => ⟨_, rfl, ?_⟩,
    fun s p off failed held rails => ⟨_, rfl, ?_⟩,
    fun s d below present serves => ⟨_, rfl, ?_⟩⟩
  · rw [decide_eq_true hot, State.when_true]
    exact State.wake_asleep asleep enabled held rails (by decide)
  · rw [State.wake_awake (by simpa using awake)]
    simp
  · rw [alarm, decide_eq_true early, Bool.and_self, State.when_true, State.wake_awake (by simpa using awake)]
    exact State.rd_wr_self ..
  · rw [State.railUnder, if_neg (by exact awake)]
    obtain ⟨loss, flag, _⟩ := State.powerLoss_effect v12 v5 vm time awake none
    exact ⟨loss, flag⟩
  · have acts : (s.power.mainpwr && s.power.railWait) = true := by rw [main, waits]; rfl
    rw [State.railTimeout, acts, State.when_true]
    exact ⟨rfl, rfl, decide_eq_true_iff⟩
  · have acts : (!s.power.mainpwr && s.power.railFails != 0) = true := by simp [off, failed]
    rw [State.railRetry, acts, State.when_true, State.powerUp_waits held rails]
    exact ⟨rfl, rfl⟩
  · have acts : (decide (d < 40) && s.present (Str.ofNum (d / 10)) && !s.isLost (Str.ofNum (d / 10))) = true := by
      simp [below, present, serves]
    rw [State.domainFault]
    dsimp only
    rw [acts, State.when_true]
    exact State.stringLost_isLost _ _

end Sys2Proof.Machine

/-! PROOF. Proofs/Namespaces.lean: namespaces made, deleted, attached, detached and erased (R252, R256 to R263, R320). -/
namespace Sys2Proof.Machine

section
variable {s t u : State} {f : Nat} {c : Cmd}

/-! ### Slot operations issued by commands (R320, R333) -/

/-- The state in which an operation that is not refused has been queued. -/
def State.issued (s : State) (op k : Nat) (command : Option Nat) : State :=
  (s.modCab fun c => { c with ops := c.ops ++ [{ op, slot := k, command }] }).opsRefresh

theorem State.issueOp_accepted {op k : Nat} (accepted : s.opRefused op k = false) (command : Option Nat) :
    s.issueOp op k command = (true, s.issued op k command) := by
  rw [State.issueOp, accepted]
  rfl

theorem State.issued_cab (op k : Nat) (command : Option Nat) :
    (s.issued op k command).cab = { s.cab with ops := s.cab.ops ++ [{ op, slot := k, command }] } := by
  rw [State.issued, (State.opsRefresh_after (.refl _) (Nat.or_self _) (Nat.or_self _)).parts .cab rfl]
  rfl

theorem State.issued_host (op k : Nat) (command : Option Nat) : (s.issued op k command).host = s.host := by
  rw [State.issued, (State.opsRefresh_after (.refl _) (Nat.or_self _) (Nat.or_self _)).parts .host rfl]
  rfl

theorem State.opsRefresh_busy (waits : s.cab.ops ≠ []) : s.opsRefresh.rd .CAB_STAT_BUSY = 1 := by
  have k {v : State} : Keeps (allBut [.CAB_STAT_BUSY]) everyPart v v.slotShow := State.slotShow_after (.refl v) (by decide) (by decide)
  rw [State.opsRefresh, k.rd .CAB_STAT_BUSY _ (by decide), State.rd_setTo_self]
  have some : s.cab.ops.isEmpty = false := by simpa using waits
  rw [some]
  rfl

theorem State.issued_busy (op k : Nat) (command : Option Nat) : (s.issued op k command).rd .CAB_STAT_BUSY = 1 :=
  State.opsRefresh_busy (by simp)

/-- Whether an operation is refused depends on the slots, the generator and the stage alone. -/
theorem State.opRefused_of {op k : Nat} (slots : t.cab.slots = s.cab.slots) (rng : t.rd .CAB_STAT_RNG_FAIL = s.rd .CAB_STAT_RNG_FAIL)
    (stage : t.rd .LC_STAT_STATE = s.rd .LC_STAT_STATE) : t.opRefused op k = s.opRefused op k := by
  simp only [State.opRefused, State.isSet, State.keySlot, slots, rng, stage]

/-! ### Namespaces and commands under other changes -/

theorem State.ns_modNs {n : Namespace} {nsid : Nat} {g : Namespace → Namespace} (found : s.ns nsid = some n)
    (same : ∀ n, (g n).nsid = n.nsid) : (s.modNs nsid g).ns nsid = some (g n) := by
  rw [State.ns] at found
  have mine : n.nsid = nsid := by simpa using List.find?_some found
  have hits (e : Namespace) : ((fun e : Namespace => e.nsid == nsid) ∘ fun e => if (e.nsid == nsid) = true then g e else e) e = (e.nsid == nsid) := by
    by_cases h : e.nsid = nsid <;> simp [h, same]
  rw [State.ns, State.modNs, State.modHost_host, List.find?_map, funext hits, found]
  simp [mine]

theorem State.ns_of_host (same : t.host.namespaces = s.host.namespaces) (nsid : Nat) : t.ns nsid = s.ns nsid := by
  rw [State.ns, same, State.ns]

/-- The namespaces are those of `s`, and each command is one of `s`, perhaps further on. -/
def CmdsAlike (s t : State) : Prop :=
  t.host.namespaces = s.host.namespaces ∧
    t.host.cmds.map (fun c => (c.fseq, c.nsid, c.op, c.hqe)) = s.host.cmds.map fun c => (c.fseq, c.nsid, c.op, c.hqe)

theorem CmdsAlike.of_host (same : t.host = s.host) : CmdsAlike s t := by rw [CmdsAlike, same]; exact ⟨rfl, rfl⟩

theorem CmdsAlike.trans (h : CmdsAlike s t) (k : CmdsAlike t u) : CmdsAlike s u := ⟨k.1.trans h.1, k.2.trans h.2⟩

theorem CmdsAlike.hostEvent (k type info : Nat) : CmdsAlike s (s.hostEvent k type info) := by
  unfold State.hostEvent
  dsimp only
  split
  · refine ⟨rfl, ?_⟩
    rw [List.map_map]
    refine List.map_congr_left fun e _ => ?_
    simp only [Function.comp_apply]
    split <;> rfl
  · exact ⟨rfl, rfl⟩

theorem CmdsAlike.nsChanged (nsid : Nat) (ks : List Nat) : CmdsAlike s (s.nsChanged nsid ks) := by
  refine List.foldlRecOn (motive := fun u : State => CmdsAlike s u) ks _ ⟨rfl, rfl⟩ fun u holds k _ => ?_
  dsimp only
  unfold State.when
  split
  · exact holds.trans (.trans (t := u.modController k _) ⟨rfl, rfl⟩ (.hostEvent k 2 0))
  · exact holds

theorem CmdsAlike.found (h : CmdsAlike s t) (found : s.findCmd f = some c) : ∃ d, t.findCmd f = some d := by
  refine Option.isSome_iff_exists.1 (List.find?_isSome.2 ?_)
  have mem := List.mem_map_of_mem (f := fun c : Cmd => (c.fseq, c.nsid, c.op, c.hqe)) (List.mem_of_find?_eq_some found)
  rw [← h.2] at mem
  obtain ⟨d, inside, same⟩ := List.mem_map.1 mem
  have number : d.fseq = c.fseq := congrArg (·.1) same
  exact ⟨d, inside, by rw [number, State.findCmd_fseq found]; exact BEq.rfl⟩

theorem CmdsAlike.answered (h : CmdsAlike s t) (found : s.findCmd f = some c) (st : NvStatus) (dw0 dw1 : Nat) :
    Answered (t.finish f st dw0 dw1) f = some st := by
  obtain ⟨d, here⟩ := h.found found
  exact Answered.finish here st dw0 dw1

/-- No command in flight that `p` picks by its fields, if there was none. -/
theorem CmdsAlike.none (h : CmdsAlike s t) (p : Nat → Nat → HostOp → Nat → Bool)
    (clear : ∀ e ∈ s.host.cmds, p e.fseq e.nsid e.op e.hqe = false) : ∀ e ∈ t.host.cmds, p e.fseq e.nsid e.op e.hqe = false := by
  intro e mem
  have inside := List.mem_map_of_mem (f := fun c : Cmd => (c.fseq, c.nsid, c.op, c.hqe)) mem
  rw [h.2] at inside
  obtain ⟨d, there, same⟩ := List.mem_map.1 inside
  obtain ⟨a, b, o, q⟩ : d.fseq = e.fseq ∧ d.nsid = e.nsid ∧ d.op = e.op ∧ d.hqe = e.hqe := by simpa using same
  rw [← a, ← b, ← o, ← q]
  exact clear d there

theorem State.journal_host (s : State) (row : Nat) : (s.journal row).host = s.host :=
  (State.journal_after (.refl s) (Nat.or_self _) (Nat.or_self _)).parts .host rfl

/-! ### Create and Delete (R258, R259) -/

theorem State.nsCreate_issued {fields : NsFields} {k : Nat} (start : CanStart s f c) (op : c.op = .nsCreate fields)
    (idle : s.nsBusy = false) (good : s.createCheck fields = none) (slot : (s.cab.slots.findIdx? fun e => e.state == .free) = some k)
    (accepted : s.opRefused 0 k = false) : (s.nsCreate f).cab.ops = s.cab.ops ++ [{ op := 0, slot := k, command := some f }] ∧
      (s.nsCreate f).rd .CAB_STAT_BUSY = 1 ∧ ((s.nsCreate f).findCmd f).map (·.accepted) = some true := by
  obtain ⟨found, _⟩ := id start
  let u := s.modCmd f fun c => { c with started := true }
  have passes : u.createCheck fields = none := good
  have place : (u.cab.slots.findIdx? fun e => e.state == .free) = some k := slot
  have refused : u.opRefused 0 k = false := accepted
  have acts : s.nsCreate f = (u.issued 0 k (some f)).modCmd f fun c => { c with accepted := true } := by
    simp only [State.nsCreate, State.cmdOp_of_found found, op, idle, Bool.false_eq_true, if_false, State.admin_of_canStart start]
    rw [passes, place]
    dsimp only
    rw [State.issueOp_accepted refused]
  rw [acts]
  refine ⟨?_, u.issued_busy 0 k (some f), ?_⟩
  · exact congrArg Cabinet.ops (u.issued_cab 0 k (some f))
  · have here : (u.issued 0 k (some f)).findCmd f = some { c with started := true } :=
      (State.findCmd_of_cmds (congrArg HostState.cmds (u.issued_host 0 k (some f))) f).trans (State.findCmd_started found)
    exact congrArg (Option.map (·.accepted)) (State.findCmd_modCmd here (g := fun c => { c with accepted := true }) fun _ => rfl)

theorem State.nsDelete_issued {n : Namespace} (start : CanStart s f c) (op : c.op = .nsDelete) (idle : s.nsBusy = false)
    (owner : s.ns c.nsid = some n) (accepted : s.opRefused 1 n.slot = false) :
    (s.nsDelete f).cab.ops = s.cab.ops ++ [{ op := 1, slot := n.slot, command := some f }] ∧
      ((s.nsDelete f).ns c.nsid).map (·.attached) = some [] ∧ ((s.nsDelete f).findCmd f).map (·.accepted) = some true := by
  obtain ⟨found, _⟩ := id start
  let u := s.modCmd f fun c => { c with started := true }
  have here : u.ns c.nsid = some n := owner
  let v := u.nsChanged c.nsid n.attached
  have kept : Keeps 0 (maskOfParts [.host]) u v := State.nsChanged_after (.refl u) (by decide) (by decide)
  have alike : CmdsAlike u v := .nsChanged c.nsid n.attached
  let waits := (u.host.cmds.filter fun e => e.nsid == c.nsid && e.op.isIo).map (·.fseq)
  let w := (v.modNs c.nsid fun n => { n with attached := [] }).modCmd f fun c => { c with accepted := true, waits }
  have refused : w.opRefused 1 n.slot = false :=
    (State.opRefused_of (s := u) (t := w) (congrArg (·.slots) (kept.parts .cab rfl)) (kept.rd .CAB_STAT_RNG_FAIL 0 (by decide))
      (kept.rd .LC_STAT_STATE 0 (by decide))).trans accepted
  have acts : s.nsDelete f = w.issued 1 n.slot (some f) := by
    simp only [State.nsDelete, State.cmdOp_of_found found, op, idle, Bool.false_eq_true, if_false, State.admin_of_canStart start]
    rw [here]
    dsimp only
    rw [State.issueOp_accepted refused]
  rw [acts]
  refine ⟨?_, ?_, ?_⟩
  · rw [State.issued_cab]
    exact congrArg (fun c : Cabinet => c.ops ++ _) (kept.parts .cab rfl)
  · rw [State.ns_of_host (congrArg HostState.namespaces (w.issued_host 1 n.slot (some f)))]
    have still : v.ns c.nsid = some n := (State.ns_of_host alike.1 _).trans here
    exact congrArg (Option.map (·.attached)) (State.ns_modNs still (g := fun n => { n with attached := [] }) fun _ => rfl)
  · obtain ⟨d, there⟩ := alike.found (State.findCmd_started found)
    rw [State.findCmd_of_cmds (congrArg HostState.cmds (w.issued_host 1 n.slot (some f)))]
    have there : (v.modNs c.nsid fun n => { n with attached := [] }).findCmd f = some d := there
    exact congrArg (Option.map (·.accepted))
      (State.findCmd_modCmd there (g := fun c => { c with accepted := true, waits }) fun _ => rfl)

/-! ### Attachment (R261, R263) -/

theorem State.nsAttach_effect {ids ks : List Nat} {n : Namespace} (start : CanStart s f c) (op : c.op = .nsAttach ids)
    (owner : s.ns c.nsid = some n) (named : s.controllerList ids = some ks) (fresh : ∀ k ∈ ks, k ∉ n.attached)
    (room : n.shared = true ∨ n.attached.length + ks.length ≤ 1) : Answered (s.nsAttach f) f = some .success ∧
      ((s.nsAttach f).ns c.nsid).map (·.attached) = some (n.attached ++ ks) := by
  obtain ⟨found, _⟩ := id start
  let u := s.modCmd f fun c => { c with started := true }
  have here : u.ns c.nsid = some n := owner
  have list : u.controllerList ids = some ks := named
  have new : ¬(ks.any n.attached.contains) = true := by
    rw [List.any_eq_true]
    rintro ⟨k, mem, held⟩
    exact fresh k mem (List.contains_iff_mem.1 held)
  have fits : ¬(!n.shared && decide (1 < n.attached.length + ks.length)) = true := by
    rcases room with shared | few
    · simp [shared]
    · simp [Nat.not_lt.2 few]
  let v := (u.modNs c.nsid fun n => { n with attached := n.attached ++ ks }).journal (deviceRow (32 + c.nsid))
  have acts : s.nsAttach f = (v.nsChanged c.nsid ks).finish f .success := by
    simp only [State.nsAttach, State.cmdOp_of_found found, op, State.admin_of_canStart start]
    rw [here, list]
    dsimp only
    rw [if_neg new, if_neg fits]
  have host : v.host = (u.modNs c.nsid fun n => { n with attached := n.attached ++ ks }).host := State.journal_host _ _
  have there : v.findCmd f = some { c with started := true } :=
    (State.findCmd_of_cmds (congrArg HostState.cmds host) f).trans (State.findCmd_started found)
  rw [acts]
  refine ⟨(CmdsAlike.nsChanged c.nsid ks).answered there _ _ _, ?_⟩
  have same : ((v.nsChanged c.nsid ks).finish f .success).ns c.nsid = (u.modNs c.nsid fun n => { n with attached := n.attached ++ ks }).ns c.nsid :=
    State.ns_of_host ((CmdsAlike.nsChanged c.nsid ks).1.trans (congrArg HostState.namespaces host)) _
  rw [same]
  exact congrArg (Option.map (·.attached)) (State.ns_modNs here (g := fun n => { n with attached := n.attached ++ ks }) fun _ => rfl)

theorem State.nsDetach_effect {ids ks : List Nat} {n : Namespace} (start : CanStart s f c) (op : c.op = .nsDetach ids)
    (owner : s.ns c.nsid = some n) (named : s.controllerList ids = some ks) (held : ∀ k ∈ ks, k ∈ n.attached)
    (quiet : ∀ e ∈ s.host.cmds, e.nsid = c.nsid → e.hqe ∈ ks → e.op.isIo = false) : Answered (s.nsDetach f) f = some .success ∧
      ((s.nsDetach f).ns c.nsid).map (·.attached) = some (n.attached.filter fun k => !ks.contains k) := by
  obtain ⟨found, _⟩ := id start
  let u := s.modCmd f fun c => { c with started := true }
  have here : u.ns c.nsid = some n := owner
  have list : u.controllerList ids = some ks := named
  have attached : ¬(ks.any fun k => !n.attached.contains k) = true := by
    rw [List.any_eq_true]
    rintro ⟨k, mem, away⟩
    simp [held k mem] at away
  let v := (u.modNs c.nsid fun n => { n with attached := n.attached.filter fun k => !ks.contains k }).journal (deviceRow (32 + c.nsid))
  have host : v.host = (u.modNs c.nsid fun n => { n with attached := n.attached.filter fun k => !ks.contains k }).host := State.journal_host _ _
  have started : CmdsAlike s u := by
    refine ⟨rfl, ?_⟩
    change (s.host.cmds.map _).map _ = _
    rw [List.map_map]
    refine List.map_congr_left fun e _ => ?_
    simp only [Function.comp_apply]
    split <;> rfl
  have alike : CmdsAlike v (v.nsChanged c.nsid ks) := .nsChanged c.nsid ks
  have clear : ∀ e ∈ (v.nsChanged c.nsid ks).host.cmds, (e.nsid == c.nsid && e.op.isIo && ks.contains e.hqe) = false := by
    refine alike.none (fun _ nsid op hqe => nsid == c.nsid && op.isIo && ks.contains hqe) ?_
    rw [host]
    refine started.none (fun _ nsid op hqe => nsid == c.nsid && op.isIo && ks.contains hqe) fun e mem => ?_
    rw [Bool.eq_false_iff]
    intro all
    simp only [Bool.and_eq_true, beq_iff_eq, List.contains_iff_mem] at all
    obtain ⟨⟨mine, io⟩, on⟩ := all
    rw [quiet e mem mine on] at io
    cases io
  have done : (((v.nsChanged c.nsid ks).host.cmds.filter fun e => e.nsid == c.nsid && e.op.isIo && ks.contains e.hqe).map (·.fseq)).isEmpty
      = true := by
    rw [List.filter_eq_nil_iff.2 fun e mem => by rw [clear e mem]; exact Bool.false_ne_true]
    rfl
  have acts : s.nsDetach f = (v.nsChanged c.nsid ks).finish f .success := by
    simp only [State.nsDetach, State.cmdOp_of_found found, op, State.admin_of_canStart start]
    rw [here, list]
    dsimp only
    rw [if_neg attached, if_pos done]
  have there : v.findCmd f = some { c with started := true } :=
    (State.findCmd_of_cmds (congrArg HostState.cmds host) f).trans (State.findCmd_started found)
  rw [acts]
  refine ⟨alike.answered there _ _ _, ?_⟩
  have same : ((v.nsChanged c.nsid ks).finish f .success).ns c.nsid =
      (u.modNs c.nsid fun n => { n with attached := n.attached.filter fun k => !ks.contains k }).ns c.nsid :=
    State.ns_of_host (alike.1.trans (congrArg HostState.namespaces host)) _
  rw [same]
  exact congrArg (Option.map (·.attached))
    (State.ns_modNs here (g := fun n => { n with attached := n.attached.filter fun k => !ks.contains k }) fun _ => rfl)

/-! ### Cryptographic erase (R252, R263) -/

/-- A REKEY of a namespace's slot is issued. -/
def State.eraseStep (f : Nat) (s : State) (n : Namespace) : State :=
  (s.issueOp 2 n.slot (some f)).2.modNs n.nsid fun n => { n with formatting := true }

/-- What decides whether an operation is refused, the commands and the log of Sanitize are as in `s`. -/
def EraseKept (s t : State) : Prop :=
  t.cab.slots = s.cab.slots ∧ (∀ k, t.opRefused 2 k = s.opRefused 2 k) ∧ t.host.cmds = s.host.cmds ∧
    t.host.sanitizeLog = s.host.sanitizeLog

theorem EraseKept.step (h : EraseKept s t) (n : Namespace) : EraseKept s (t.eraseStep f n) := by
  obtain ⟨slots, refused, cmds, log⟩ := h
  have kept : Keeps (maskOf [.CAB_STAT_BUSY, .CAB_STAT_OP_ERR, .CAB_SLOTSTAT_STATE, .CAB_SLOTSTAT_LOW, .CAB_SLOTSTAT_NSID,
      .CAB_SLOTSTAT_NSTAG, .CAB_GENLO_GEN, .CAB_GENHI_GEN]) (maskOfParts [.cab]) t (t.issueOp 2 n.slot (some f)).2 :=
    State.issueOp_after (.refl t) (by decide) (by decide)
  have keys : (t.issueOp 2 n.slot (some f)).2.cab.slots = t.cab.slots := by
    unfold State.issueOp
    split
    · rfl
    · change (t.issued 2 n.slot (some f)).cab.slots = _
      rw [State.issued_cab]
  have host := kept.parts .host rfl
  refine ⟨keys.trans slots, fun k => ?_, (congrArg HostState.cmds host).trans cmds, (congrArg HostState.sanitizeLog host).trans log⟩
  exact (State.opRefused_of (s := t) (t := t.eraseStep f n) keys (kept.rd .CAB_STAT_RNG_FAIL 0 (by decide))
    (kept.rd .LC_STAT_STATE 0 (by decide))).trans (refused k)

/-- An operation that is queued stays queued, and BUSY is shown. -/
theorem State.eraseStep_ops {o : SlotOp} (busy : t.rd .CAB_STAT_BUSY = 1) (mem : o ∈ t.cab.ops) (n : Namespace) :
    (t.eraseStep f n).rd .CAB_STAT_BUSY = 1 ∧ o ∈ (t.eraseStep f n).cab.ops := by
  unfold State.eraseStep State.issueOp
  split
  · have still : (t.flag .CAB_STAT_OP_ERR).rd .CAB_STAT_BUSY = 1 := by simpa using busy
    exact ⟨still, mem⟩
  · refine ⟨t.issued_busy 2 n.slot (some f), ?_⟩
    change o ∈ (t.issued 2 n.slot (some f)).cab.ops
    rw [State.issued_cab]
    exact List.mem_append_left _ mem

theorem State.eraseAll_effect {ns : List Namespace} (found : s.findCmd f = some c) (some' : ns ≠ [])
    (accepted : ∀ n ∈ ns, s.opRefused 2 n.slot = false) : ((s.eraseAll f ns).findCmd f).map (·.accepted) = some true ∧
      (s.eraseAll f ns).rd .CAB_STAT_BUSY = 1 ∧ (s.eraseAll f ns).host.sanitizeLog = s.host.sanitizeLog ∧
      ∀ n ∈ ns, { op := 2, slot := n.slot, command := some f } ∈ (s.eraseAll f ns).cab.ops := by
  have open' : ¬(ns.any fun n => s.opRefused 2 n.slot) = true := by
    rw [List.any_eq_true]
    rintro ⟨n, mem, refused⟩
    rw [accepted n mem] at refused
    cases refused
  have here : ¬ns.isEmpty = true := by simpa using some'
  have acts : s.eraseAll f ns = (ns.foldl (State.eraseStep f) s).modCmd f fun c => { c with accepted := true } := by
    rw [State.eraseAll, if_neg open', if_neg here]
    rfl
  have kept : EraseKept s (ns.foldl (State.eraseStep f) s) :=
    List.foldlRecOn (motive := fun u : State => EraseKept s u) ns _ ⟨rfl, fun _ => rfl, rfl, rfl⟩ fun _ holds n _ => holds.step n
  have queued : ∀ n ∈ ns, (ns.foldl (State.eraseStep f) s).rd .CAB_STAT_BUSY = 1 ∧
      { op := 2, slot := n.slot, command := some f } ∈ (ns.foldl (State.eraseStep f) s).cab.ops := by
    intro n mem
    refine foldl_reaches (P := EraseKept s) (Q := fun u => u.rd .CAB_STAT_BUSY = 1 ∧ { op := 2, slot := n.slot, command := some f } ∈ u.cab.ops)
      mem ⟨rfl, fun _ => rfl, rfl, rfl⟩ (fun u b holds => holds.step b) (fun u holds => ?_) fun u b holds => State.eraseStep_ops holds.1 holds.2 b
    obtain ⟨_, refused, _⟩ := holds
    have free : u.opRefused 2 n.slot = false := (refused n.slot).trans (accepted n mem)
    rw [State.eraseStep, State.issueOp_accepted free]
    refine ⟨u.issued_busy 2 n.slot (some f), ?_⟩
    change _ ∈ (u.issued 2 n.slot (some f)).cab.ops
    rw [State.issued_cab]
    exact List.mem_append.2 (.inr (List.mem_singleton.2 rfl))
  obtain ⟨_, _, cmds, log⟩ := kept
  rw [acts]
  refine ⟨?_, ?_, log, fun n mem => (queued n mem).2⟩
  · exact congrArg (Option.map (·.accepted))
      (State.findCmd_modCmd ((State.findCmd_of_cmds cmds f).trans found) (g := fun c => { c with accepted := true }) fun _ => rfl)
  · obtain ⟨n, mem⟩ := List.exists_mem_of_ne_nil ns some'
    exact (queued n mem).1

theorem State.formatNvm_effect (start : CanStart s f c) (op : c.op = .format) (idle : s.nsBusy = false)
    (some' : s.formatTargets c.nsid ≠ []) (accepted : ∀ n ∈ s.formatTargets c.nsid, s.opRefused 2 n.slot = false) :
    ((s.formatNvm f).findCmd f).map (·.accepted) = some true ∧ (s.formatNvm f).rd .CAB_STAT_BUSY = 1 ∧
      ∀ n ∈ s.formatTargets c.nsid, { op := 2, slot := n.slot, command := some f } ∈ (s.formatNvm f).cab.ops := by
  obtain ⟨found, _⟩ := id start
  let u := s.modCmd f fun c => { c with started := true }
  have targets : u.formatTargets c.nsid = s.formatTargets c.nsid := rfl
  have named : ¬((s.formatTargets c.nsid).isEmpty && c.nsid != 0xFFFFFFFF) = true := by simp [some']
  have acts : s.formatNvm f = u.eraseAll f (s.formatTargets c.nsid) := by
    simp only [State.formatNvm, State.cmdOp_of_found found, op, idle, Bool.false_eq_true, if_false, State.admin_of_canStart start]
    rw [targets, if_neg named]
  rw [acts]
  obtain ⟨accepted, busy, _, queued⟩ := State.eraseAll_effect (s := u) (State.findCmd_started found) some' accepted
  exact ⟨accepted, busy, queued⟩

theorem State.sanitize_effect (start : CanStart s f c) (op : c.op = .sanitize 4) (idle : s.nsBusy = false)
    (some' : s.host.namespaces ≠ []) (accepted : ∀ n ∈ s.host.namespaces, s.opRefused 2 n.slot = false) :
    ((s.sanitize f).findCmd f).map (·.accepted) = some true ∧ (s.sanitize f).host.sanitizeLog = [2] ∧
      ∀ n ∈ s.host.namespaces, { op := 2, slot := n.slot, command := some f } ∈ (s.sanitize f).cab.ops := by
  obtain ⟨found, _⟩ := id start
  let u := (s.modCmd f fun c => { c with started := true }).modHost fun h => { h with sanitizeLog := [2] }
  have acts : s.sanitize f = u.eraseAll f s.host.namespaces := by
    simp only [State.sanitize, State.cmdOp_of_found found, op, idle, Bool.false_eq_true, if_false, State.admin_of_canStart start,
      bne_self_eq_false]
    rfl
  rw [acts]
  obtain ⟨accepted, _, log, queued⟩ := State.eraseAll_effect (s := u) (State.findCmd_started found) some' accepted
  exact ⟨accepted, log, queued⟩

/-! ### The end of a slot operation (R320) -/

theorem State.slotOpComplete_erase {slot : Nat} {later : List SlotOp} (head : s.cab.ops = { op := 1, slot, command := none } :: later)
    (unnamed : s.slotNamed slot = false) (inside : slot < s.cab.slots.length) (usable : (s.keySlot slot).state ≠ .exhausted) :
    s.slotOpComplete.cab.ops = later ∧ s.slotOpComplete.rd .CAB_STAT_DONE = 1 ∧ (s.slotOpComplete.keySlot slot).state = .free ∧
      (s.slotOpComplete.keySlot slot).key = 0 := by
  have ready : ¬(!s.opReady { op := 1, slot, command := none }) = true := by simp [State.opReady, unnamed]
  let u := ((s.clearKeys slot).modCab fun c => { c with ops := later }).flag .CAB_STAT_DONE
  have acts : s.slotOpComplete = u.opsRefresh := by
    rw [State.slotOpComplete, head]
    dsimp only
    rw [if_neg ready]
    rfl
  have shown : Keeps (maskOf [.CAB_STAT_BUSY, .CAB_SLOTSTAT_STATE, .CAB_SLOTSTAT_LOW, .CAB_SLOTSTAT_NSID, .CAB_SLOTSTAT_NSTAG,
      .CAB_GENLO_GEN, .CAB_GENHI_GEN]) 0 u u.opsRefresh := State.opsRefresh_after (.refl u) (by decide) (by decide)
  have cab : u.opsRefresh.cab = { (s.clearKeys slot).cab with ops := later } := shown.parts .cab rfl
  have keys : (s.clearKeys slot).cab = (s.modKeySlot slot fun c =>
      { c with key := 0, nsid := 0, nstag := 0, state := if c.state == .exhausted then .exhausted else .free }).cab :=
    (State.journal_after (.refl _) (Nat.or_self _) (Nat.or_self _)).parts .cab rfl
  have held : u.opsRefresh.keySlot slot =
      { s.keySlot slot with key := 0, nsid := 0, nstag := 0, state := if (s.keySlot slot).state == .exhausted then .exhausted else .free } := by
    rw [State.keySlot, cab, keys]
    change (s.cab.slots.modify slot _).getD slot _ = _
    rw [State.keySlot, List.getD_eq_getElem?_getD, List.getElem?_modify_eq, List.getElem?_eq_getElem inside, List.getD_eq_getElem?_getD,
      List.getElem?_eq_getElem inside]
    rfl
  rw [acts]
  refine ⟨by rw [cab], ?_, ?_, by rw [held]⟩
  · rw [shown.rd .CAB_STAT_DONE _ (by decide), State.rd_flag_self]
    rfl
  · rw [held]
    exact if_neg (by simpa using usable)

end

/-- Settles O31. -/
theorem namespaceEffects : Obligations.NamespaceEffects := by
  unfold Obligations.NamespaceEffects
  exact ⟨fun s f k fields c start op idle good slot accepted => ⟨_, rfl, State.nsCreate_issued start op idle good slot accepted⟩,
    fun s f c n start op idle owner accepted => ⟨_, rfl, State.nsDelete_issued start op idle owner accepted⟩,
    fun s f ids ks c n start op owner named fresh room => ⟨_, rfl, State.nsAttach_effect start op owner named fresh room⟩,
    fun s f ids ks c n start op owner named held quiet => ⟨_, rfl, State.nsDetach_effect start op owner named held quiet⟩,
    fun s f c start op idle some' accepted => ⟨_, rfl, State.formatNvm_effect start op idle some' accepted⟩,
    fun s f c start op idle some' accepted => ⟨_, rfl, State.sanitize_effect start op idle some' accepted⟩,
    fun s slot later head unnamed inside usable => ⟨_, rfl, State.slotOpComplete_erase head unnamed inside usable⟩⟩

end Sys2Proof.Machine

/-! PROOF. Proofs/Ports.lean: ports, controllers and their resets, NVMe-MI (R245 to R255, R264, R265). -/
namespace Sys2Proof.Machine

section
variable {s t u : State}

/-! ### The ports' side of the host state, and how many controllers there are -/

/-- What stands of the ports, and how many controllers, is as before. -/
def PortsKept (s t : State) : Prop :=
  t.host.perst = s.host.perst ∧ t.host.training = s.host.training ∧ t.host.controllers.length = s.host.controllers.length

theorem PortsKept.refl (s : State) : PortsKept s s := ⟨rfl, rfl, rfl⟩

theorem PortsKept.trans (h : PortsKept s t) (k : PortsKept t u) : PortsKept s u :=
  ⟨k.1.trans h.1, k.2.1.trans h.2.1, k.2.2.trans h.2.2⟩

theorem PortsKept.of_host (h : PortsKept s t) (same : u.host = t.host) : PortsKept s u := by
  rw [PortsKept, same]
  exact h

theorem PortsKept.when {b : Bool} {f : State → State} (h : PortsKept s t) (k : ∀ t, PortsKept s t → PortsKept s (f t)) :
    PortsKept s (t.when b f) := by
  cases b
  · exact h
  · exact k t h

theorem PortsKept.foldl {α : Type} {f : State → α → State} (l : List α) (h : PortsKept s t)
    (k : ∀ t a, PortsKept s t → PortsKept s (f t a)) : PortsKept s (l.foldl f t) :=
  List.foldlRecOn l f h fun t holds a _ => k t a holds

theorem PortsKept.wr (h : PortsKept s t) {r : Reg} {v i : Nat} : PortsKept s (t.wr r v i) := h
theorem PortsKept.modCmd (h : PortsKept s t) {f : Nat} {g : Cmd → Cmd} : PortsKept s (t.modCmd f g) := h
theorem PortsKept.modNs (h : PortsKept s t) {n : Nat} {g : Namespace → Namespace} : PortsKept s (t.modNs n g) := h
theorem PortsKept.modRecord (h : PortsKept s t) {n : Nat} {g : Record → Record} : PortsKept s (t.modRecord n g) := h
theorem PortsKept.modVersion (h : PortsKept s t) {n : Nat} {g : Version → Version} : PortsKept s (t.modVersion n g) := h
theorem PortsKept.modBridge (h : PortsKept s t) {g : BridgeState → BridgeState} : PortsKept s (t.modBridge g) := h
theorem PortsKept.modPhv (h : PortsKept s t) {g : Phovi → Phovi} : PortsKept s (t.modPhv g) := h
theorem PortsKept.modBur (h : PortsKept s t) {g : Bureau → Bureau} : PortsKept s (t.modBur g) := h
theorem PortsKept.settleWaits (h : PortsKept s t) : PortsKept s t.settleWaits := h
theorem PortsKept.finish (h : PortsKept s t) {f dw0 dw1 : Nat} {st : NvStatus} : PortsKept s (t.finish f st dw0 dw1) := h
theorem PortsKept.drawn (h : PortsKept s t) : PortsKept s t.drawn := h

theorem PortsKept.givePage (h : PortsKept s t) (page : Option Str) : PortsKept s (t.givePage page) :=
  h.of_host ((State.givePage_after (.refl t) (Nat.or_self _) (Nat.or_self _)).parts .host rfl)

theorem PortsKept.unspill (h : PortsKept s t) (f l : Nat) : PortsKept s (t.unspill f l) :=
  h.of_host ((State.unspill_after (.refl t) (Nat.or_self _) (Nat.or_self _)).parts .host rfl)

theorem PortsKept.logRefresh (h : PortsKept s t) : PortsKept s t.logRefresh :=
  h.of_host ((State.logRefresh_after (.refl t) (Nat.or_self _) (Nat.or_self _)).parts .host rfl)

theorem PortsKept.journal (h : PortsKept s t) (row : Nat) : PortsKept s (t.journal row) := h.of_host (t.journal_host row)

/-! ### The end of a command (R250) -/

theorem PortsKept.returnVersion (h : PortsKept s t) (v : Version) : PortsKept s (t.returnVersion v) := by
  unfold State.returnVersion
  dsimp only
  have granted : PortsKept s ((t.wr .BRG_DESC_FREE (t.rd .BRG_DESC_FREE + 1)).when (v.grant != 0) fun s =>
    s.modNs v.nsid fun n => { n with granted := n.granted - v.grant }) := .when h.wr fun _ h => h.modNs
  split
  · exact granted.of_host (State.retireEntry_host _)
  · exact granted.wr
  · exact granted

theorem PortsKept.dropVersions (h : PortsKept s t) : PortsKept s t.dropVersions :=
  .foldl _ h.modBridge fun _ v h => h.returnVersion v

theorem PortsKept.unpin (h : PortsKept s t) (f : Nat) : PortsKept s (t.unpin f) := PortsKept.dropVersions h.modVersion

theorem PortsKept.releaseCmd (h : PortsKept s t) (c : Cmd) : PortsKept s (t.releaseCmd c) :=
  .foldl _ (.foldl _ h fun _ e h => (h.givePage e.2.2).unspill c.fseq e.1) fun _ g h => h.unpin g

theorem PortsKept.setZone (h : PortsKept s t) (id : Nat) (f : Record → Record) : PortsKept s (t.setZone id f) :=
  PortsKept.journal h.modRecord (recordRow id)

theorem PortsKept.advanceWp (h : PortsKept s t) (c : Cmd) : PortsKept s (t.advanceWp c) := by
  unfold State.advanceWp
  split
  · exact h
  · split
    · exact h
    · exact h.setZone _ _

/-! ### A write that fails, and the reads that waited for it -/

theorem PortsKept.receiveBlock (h : PortsKept s t) (f lba data : Nat) (page : Option Str) : PortsKept s (t.receiveBlock f lba data page) := by
  unfold State.receiveBlock
  split
  · exact h.givePage page
  · split
    · dsimp only
      split
      · exact h.modCmd
      · exact PortsKept.givePage h.modCmd page
    · exact h.givePage page

theorem PortsKept.fromVersion (h : PortsKept s t) (f l g : Nat) : PortsKept s (t.fromVersion f l g) :=
  .when h.modCmd fun _ h => h.modVersion

theorem PortsKept.logUnrecovered (h : PortsKept s t) (c : Cmd) (lba vendor : Nat) : PortsKept s (t.logUnrecovered c lba vendor) := by
  unfold State.logUnrecovered State.modHost
  rw [PortsKept]
  dsimp only
  split <;> exact h

theorem PortsKept.sourceBlock (h : PortsKept s t) (f l : Nat) (todo : List (Nat × Nat × Nat)) : PortsKept s (t.sourceBlock f l todo).1 := by
  unfold State.sourceBlock
  split
  · exact h
  · next c _ =>
    split
    · split
      · exact PortsKept.modCmd (h.logUnrecovered c l 0)
      · exact h.fromVersion f l _
    · split
      · exact h
      · next st _ =>
        refine PortsKept.modCmd ?_
        split
        · exact h.logUnrecovered c l 0
        · exact h
      · exact PortsKept.drawn (h.receiveBlock f l _ none)
      · exact h.receiveBlock f l 0 none
      · split
        · exact h.modCmd
        · exact h.modCmd

theorem PortsKept.postPlaces (h : PortsKept s t) (x : Str) (q : SeqId) (source : ReqSource) (tag : Nat) (zone : Option Nat)
    (stream slipOk : Bool) (offs : Int) (band : Nat) (ps : List (Nat × Nat × Option Codeword)) :
    PortsKept s (t.postPlaces x q source tag zone stream slipOk offs band ps) :=
  .foldl _ h fun u _ h => PortsKept.of_host (t := u.newRequestId.2) h
    ((State.postRequest_after (.refl _) (Nat.or_self _) (Nat.or_self _)).parts .host rfl)

theorem PortsKept.reach (h : PortsKept s t) (c : Cmd) (x : Str) (n : Nat) : PortsKept s (t.reach c x n) := by
  unfold State.reach
  split
  · exact h
  · exact .when h fun _ h => h.modCmd

theorem PortsKept.postReads (h : PortsKept s t) (f : Nat) (todo : List (Nat × Nat × Nat)) : PortsKept s (t.postReads f todo) := by
  refine .foldl _ h fun u id h => ?_
  dsimp only
  split
  · exact h
  · refine PortsKept.postPlaces ?_ _ _ _ _ _ _ _ _ _ _
    split
    · exact h.reach _ _ _
    · exact h

theorem PortsKept.startReads (h : PortsKept s t) (f : Nat) (ls : List Nat) : PortsKept s (t.startReads f ls) := by
  have sources : PortsKept s (ls.foldl (fun (p : State × List (Nat × Nat × Nat)) l => p.1.sourceBlock f l p.2) (t, [])).1 :=
    List.foldlRecOn (motive := fun p : State × List (Nat × Nat × Nat) => PortsKept s p.1) ls _ h fun p holds l _ => holds.sourceBlock f l p.2
  exact PortsKept.modCmd (sources.postReads f _)

theorem PortsKept.resource (h : PortsKept s t) (g : Nat) : PortsKept s (t.resource g) :=
  .foldl _ h fun u e h => PortsKept.startReads (t := (u.modCmd e.1 fun c => { c with pins := c.pins.filter (· != g) }).modVersion g
    fun v => { v with pins := v.pins - 1 }) h e.1 e.2

theorem PortsKept.dropWrite (h : PortsKept s t) (f : Nat) : PortsKept s (t.dropWrite f) :=
  PortsKept.dropVersions (PortsKept.logRefresh (PortsKept.resource (PortsKept.modPhv h.modBridge) f))

theorem PortsKept.failWrite (h : PortsKept s t) (f : Nat) (st : NvStatus) : PortsKept s (t.failWrite f st) := by
  unfold State.failWrite
  split
  · exact h.dropWrite f
  · dsimp only
    refine PortsKept.settleWaits (.foldl _ (PortsKept.finish (PortsKept.dropWrite ?_ f)) fun _ g h => PortsKept.finish (h.dropWrite g))
    split
    · split
      · exact h
      · exact h.modRecord
    · exact h

theorem PortsKept.resetCmd (h : PortsKept s t) (f : Nat) : PortsKept s (t.resetCmd f) := by
  have gone (c : Cmd) {u : State} (h : PortsKept s u) :
      PortsKept s ((u.modHost fun h => { h with cmds := h.cmds.filter fun e => e.fseq != f }).releaseCmd c) :=
    PortsKept.releaseCmd (t := u.modHost fun h => { h with cmds := h.cmds.filter fun e => e.fseq != f }) h c
  unfold State.resetCmd
  split
  · exact h
  · next c _ =>
    dsimp only
    split
    · exact gone c (h.advanceWp c)
    · split
      · split
        · exact gone c h
        · exact gone c (h.failWrite f .success)
      · split
        · exact h.modCmd
        · exact gone c (.foldl _ h fun u x h => h.of_host
            ((State.detachOf_after (.refl u) (Nat.or_self _) (Nat.or_self _)).parts .host rfl))

/-! ### The mode follows -/

theorem State.giveReply_host (f numd : Nat) (r : CiborReply) : ∃ g : List Cmd → List Cmd,
    (s.giveReply f numd r).host = { s.host with cmds := g s.host.cmds } := by
  unfold State.giveReply
  have sent (l : List (Nat × Nat)) := (State.hostData_kept (s := s) f l).2
  dsimp only
  generalize fits : State.when _ _ _ = u
  have kept : u.host = s.host := by
    rw [← fits]
    unfold State.when
    split
    · exact sent _
    · exact sent _
  rw [kept]
  exact ⟨_, rfl⟩

/-- A reply changes the commands alone of what the host sees. -/
theorem State.reply_host (r : CiborRequest) (st : CStat) (d1 d2 : Nat) (results payload : List Nat) :
    ∃ g : List Cmd → List Cmd, (s.reply r st d1 d2 results payload).host = { s.host with cmds := g s.host.cmds } := by
  simp only [State.reply]
  split
  · exact ⟨id, rfl⟩
  · split
    · refine ⟨id, ?_⟩
      unfold State.when
      split
      · exact List.foldlRecOn (motive := fun u : State => u.host = s.host) _ _ rfl fun _ holds _ _ => holds
      · rfl
    · split
      · exact State.giveReply_host (s := { s with bur := _ }) ..
      · exact ⟨id, rfl⟩

theorem State.refreshMode_host : ∃ g : List Cmd → List Cmd, s.refreshMode.host = { s.host with cmds := g s.host.cmds } := by
  have mode : s.nextMode.host = s.host := (State.nextMode_after (.refl s) (Nat.or_self _) (Nat.or_self _)).parts .host rfl
  refine List.foldlRecOn (motive := fun u : State => ∃ g : List Cmd → List Cmd, u.host = { s.host with cmds := g s.host.cmds }) _ _
    ⟨id, mode⟩ fun u ⟨g, holds⟩ r _ => ?_
  rcases State.settleOne_cases u r with same | ⟨st, d1, d2, results, payload, replied⟩
  · rw [same]
    exact ⟨g, holds⟩
  · obtain ⟨g', replies⟩ := State.reply_host (s := u) r st d1 d2 results payload
    rw [replied, replies, holds]
    exact ⟨g' ∘ g, rfl⟩

theorem PortsKept.refreshMode (h : PortsKept s t) : PortsKept s t.refreshMode := by
  obtain ⟨g, host⟩ := State.refreshMode_host (s := t)
  rw [PortsKept, host]
  exact h

/-! ### A controller-level reset (R250) -/

theorem PortsKept.releaseStream (h : PortsKept s t) (e : Stream) (wdrn : Bool) : PortsKept s (t.releaseStream e wdrn) := by
  unfold State.releaseStream
  dsimp only
  refine PortsKept.refreshMode (PortsKept.of_host ?_ ((State.streamRefresh_after (.refl _) (Nat.or_self _) (Nat.or_self _)).parts .host rfl))
  obtain ⟨perst, training, length⟩ := h
  exact ⟨perst, training, (List.length_modify _ _ _).trans length⟩

/-- What a reset does before it makes the controller new. -/
def State.resetBegun (s : State) (k : Nat) : State :=
  let s := ((s.host.cmds.filter fun c => c.hqe == k).map (·.fseq)).foldl State.resetCmd s
  (s.host.streams.filter fun t => t.hqe == k).foldl (fun s t => s.releaseStream t false) s

theorem State.resetBegun_ports (k : Nat) : PortsKept s (s.resetBegun k) :=
  .foldl _ (.foldl _ (.refl s) fun _ f h => h.resetCmd f) fun _ e h => h.releaseStream e false

/-- The controller is new, EN, RDY and SHST are 0, what came from it is given up. -/
def State.resetMade (s : State) (k : Nat) : State :=
  State.modBur ((((s.modController k fun _ => { Controller.atReset with wasReset := true }).unflag .HQEn_STAT_EN (k * 65536)).unflag
      .HQEn_STAT_RDY (k * 65536)).wr .HQEn_STAT_SHST 0 (k * 65536)) fun b =>
    { b with replies := b.replies.filter fun r => r.source != k
             requests := b.requests.map fun r => if r.source == k then { r with source := 10 } else r }

theorem State.controllerReset_eq (k : Nat) : s.controllerReset k =
    ((((((s.resetBegun k).resetMade k).ioqRefresh k).outRefresh k).phvSweep).settleWaits).refreshMode := rfl

theorem State.phvSweep_host (s : State) : s.phvSweep.host.controllers = s.host.controllers ∧ s.phvSweep.host.perst = s.host.perst ∧
    s.phvSweep.host.training = s.host.training := by
  unfold State.phvSweep
  dsimp only
  rw [(State.phvRefresh_after (.refl _) (Nat.or_self _) (Nat.or_self _)).parts .host rfl]
  refine List.foldlRecOn (motive := fun u : State => u.host.controllers = s.host.controllers ∧ u.host.perst = s.host.perst ∧
    u.host.training = s.host.training) _ _ ⟨rfl, rfl, rfl⟩ fun u holds j _ => ?_
  unfold State.returnGrant
  split <;> exact holds

theorem State.controllerReset_host (k : Nat) : (s.controllerReset k).host.perst = s.host.perst ∧
    (s.controllerReset k).host.training = s.host.training ∧
    (s.controllerReset k).host.controllers = (s.resetBegun k).host.controllers.modify k fun _ => { Controller.atReset with wasReset := true } := by
  rw [State.controllerReset_eq]
  obtain ⟨perst, training, _⟩ := State.resetBegun_ports (s := s) k
  generalize s.resetBegun k = u at perst training
  obtain ⟨controllers, perst', training'⟩ := (((u.resetMade k).ioqRefresh k).outRefresh k).phvSweep_host
  obtain ⟨g, host⟩ := State.refreshMode_host (s := (((u.resetMade k).ioqRefresh k).outRefresh k).phvSweep.settleWaits)
  rw [host]
  exact ⟨perst'.trans perst, training'.trans training, controllers⟩

theorem PortsKept.controllerReset (h : PortsKept s t) (k : Nat) : PortsKept s (t.controllerReset k) := by
  obtain ⟨perst, training, controllers⟩ := State.controllerReset_host (s := t) k
  refine h.trans ⟨perst, training, ?_⟩
  rw [controllers, List.length_modify]
  exact (State.resetBegun_ports k).2.2

theorem PortsKept.resetPort (h : PortsKept s t) (port : Nat) : PortsKept s (t.resetPort port) :=
  .foldl _ h fun _ k h => h.controllerReset k

theorem State.controllerReset_idle (k : Nat) : (s.controllerReset k).rd .HQEn_STAT_EN (k * 65536) = 0 ∧
    (s.controllerReset k).rd .HQEn_STAT_RDY (k * 65536) = 0 := by
  rw [State.controllerReset_eq]
  generalize s.resetBegun k = u
  have last : Keeps (allBut [.HQEn_STAT_EN, .HQEn_STAT_RDY]) everyPart (u.resetMade k)
      ((((u.resetMade k).ioqRefresh k).outRefresh k).phvSweep.settleWaits).refreshMode :=
    State.refreshMode_after (State.settleWaits_after (State.phvSweep_after (State.outRefresh_after (State.ioqRefresh_after (.refl _)
      (by decide) (by decide)) (by decide) (by decide)) (by decide) (by decide)) (by decide) (by decide)) (by decide) (by decide)
  rw [last.rd .HQEn_STAT_EN _ (by decide), last.rd .HQEn_STAT_RDY _ (by decide)]
  simp [State.resetMade]

/-! ### Ports (R245, R246, R250, R265) -/

theorem State.setLink_keeps (port : Nat) (up : Bool) (speed width : Nat) : Keeps (maskOf [.HQEn_STAT_LINK]) 0
    (((s.setTo (portRegs port).1 up).wr (portRegs port).2.1 speed).wr (portRegs port).2.2 width) (s.setLink port up speed width) :=
  .foldl (.refl _) fun _ _ h => .setTo h (by decide)

theorem State.setLink_host (port : Nat) (up : Bool) (speed width : Nat) : (s.setLink port up speed width).host = s.host :=
  (State.setLink_keeps port up speed width).parts .host rfl

theorem State.setLink_up (port : Nat) (up : Bool) (speed width : Nat) :
    (s.setLink port up speed width).rd (portRegs port).1 = boolNat up := by
  have k := State.setLink_keeps (s := s) port up speed width
  by_cases first : port = 0
  · simp only [portRegs, first, if_true] at k ⊢
    rw [k.rd .PCIE_STAT_UP0 _ (by decide)]
    simp
  · simp only [portRegs, first, if_false] at k ⊢
    rw [k.rd .PCIE_STAT_UP1 _ (by decide)]
    simp

theorem State.setLink_width (port : Nat) (up : Bool) {speed width : Nat} (fits : width < 8) :
    (s.setLink port up speed width).rd (portRegs port).2.2 = width := by
  have k := State.setLink_keeps (s := s) port up speed width
  by_cases first : port = 0
  · simp only [portRegs, first, if_true] at k ⊢
    rw [k.rd .PCIE_STAT_WID0 _ (by decide), State.rd_wr_self]
    exact Nat.mod_eq_of_lt fits
  · simp only [portRegs, first, if_false] at k ⊢
    rw [k.rd .PCIE_STAT_WID1 _ (by decide), State.rd_wr_self]
    exact Nat.mod_eq_of_lt fits

theorem linkWidth_lt (lanes : Nat) : linkWidth lanes < 8 := by
  unfold linkWidth
  split
  · decide
  · split <;> decide

theorem List.getD_set_self {α : Type} {l : List α} {i : Nat} {a d : α} (inside : i < l.length) : (l.set i a).getD i d = a := by
  simp [inside]

theorem State.setPort_perst {port : Nat} {perst training : Bool} (inside : port < s.host.perst.length) :
    (s.setPort port perst training).host.perst.getD port false = perst := List.getD_set_self inside

theorem State.setPort_training {port : Nat} {perst training : Bool} (inside : port < s.host.training.length) :
    (s.setPort port perst training).host.training.getD port false = training := List.getD_set_self inside

theorem State.setPort_quiet {port : Nat} {perst : Bool} : (s.setPort port perst false).host.training.getD port false = false :=
  List.getD_set_default s.host.training port false

theorem State.perstAssert_effect {port : Nat} (exists' : s.portExists port = true) (inside : port < s.host.perst.length) :
    (s.perstAssert port).host.perst.getD port false = true ∧ (s.perstAssert port).host.training.getD port false = false ∧
      (s.perstAssert port).rd (portRegs port).1 = 0 := by
  obtain ⟨perst, _⟩ := PortsKept.resetPort (.refl s) port
  rw [State.perstAssert, if_pos exists']
  generalize s.resetPort port = u at perst
  have down : (u.setLink port false 0 0).rd (portRegs port).1 = 0 := State.setLink_up port false 0 0
  have held : (u.setLink port false 0 0).host.perst = s.host.perst := (congrArg HostState.perst (State.setLink_host port false 0 0)).trans perst
  generalize u.setLink port false 0 0 = v at down held
  exact ⟨State.setPort_perst (by rwa [held]), State.setPort_quiet, down⟩

theorem State.perstDeassert_effect {port : Nat} (exists' : s.portExists port = true) (asserted : s.host.perst.getD port false = true)
    (inside : port < s.host.training.length) : (s.perstDeassert port).host.perst.getD port false = false ∧
      (s.perstDeassert port).host.training.getD port false = true := by
  have acts : (s.portExists port && s.host.perst.getD port false) = true := by rw [exists', asserted]; rfl
  rw [State.perstDeassert, if_pos acts]
  exact ⟨List.getD_set_default s.host.perst port false, State.setPort_training inside⟩

theorem State.linkTrained_effect {port speed width : Nat} (exists' : s.portExists port = true)
    (training : s.host.training.getD port false = true) : (s.linkTrained port speed width).rd (portRegs port).1 = 1 ∧
      (s.linkTrained port speed width).host.training.getD port false = false ∧
      (s.linkTrained port speed width).rd (portRegs port).2.2 = linkWidth (min (if s.isSet .PCIE_CFG_DUAL then 2 else 4) width) := by
  have acts : (s.portExists port && s.host.training.getD port false) = true := by rw [exists', training]; rfl
  rw [State.linkTrained, if_pos acts]
  dsimp only
  generalize min _ (max 1 speed) = rate
  have up : (s.setLink port true rate (linkWidth (min (if s.isSet .PCIE_CFG_DUAL then 2 else 4) width))).rd (portRegs port).1 = 1 :=
    State.setLink_up port true rate _
  have lanes := State.setLink_width (s := s) port true (speed := rate) (linkWidth_lt (min (if s.isSet .PCIE_CFG_DUAL then 2 else 4) width))
  generalize s.setLink port true rate _ = v at up lanes
  exact ⟨up, State.setPort_quiet, lanes⟩

theorem State.dlDown_effect {port : Nat} (exists' : s.portExists port = true) (up : s.rd (portRegs port).1 = 1)
    (inside : port < s.host.training.length) : (s.dlDown port).rd (portRegs port).1 = 0 ∧
      (s.dlDown port).host.training.getD port false = true ∧
      (s.dlDown port).rd (if port = 0 then .PCIE_STAT_DLDN0 else .PCIE_STAT_DLDN1) = 1 := by
  have acts : (s.portExists port && s.isSet (portRegs port).1) = true := by simp [exists', State.isSet, up]
  obtain ⟨_, training, _⟩ := PortsKept.resetPort (.refl s) port
  rw [State.dlDown, if_pos acts]
  generalize s.resetPort port = u at training
  have down : (u.setLink port false 0 0).rd (portRegs port).1 = 0 := State.setLink_up port false 0 0
  have held : (u.setLink port false 0 0).host.training = s.host.training :=
    (congrArg HostState.training (State.setLink_host port false 0 0)).trans training
  generalize u.setLink port false 0 0 = v at down held
  have kept : (v.flag (if port = 0 then .PCIE_STAT_DLDN0 else .PCIE_STAT_DLDN1)).rd (portRegs port).1 = 0 := by
    rw [State.rd_flag_ne, down]
    unfold portRegs
    split <;> decide
  have shown : (v.flag (if port = 0 then .PCIE_STAT_DLDN0 else .PCIE_STAT_DLDN1)).rd (if port = 0 then .PCIE_STAT_DLDN0 else .PCIE_STAT_DLDN1)
      = 1 := by
    rw [State.rd_flag_self]
    split <;> decide
  have inside : port < (v.flag (if port = 0 then .PCIE_STAT_DLDN0 else .PCIE_STAT_DLDN1)).host.training.length := by
    change port < v.host.training.length
    rwa [held]
  generalize v.flag _ = w at kept shown inside
  exact ⟨kept, State.setPort_training inside, shown⟩

/-! ### Controllers (R248 to R250) -/

theorem State.modController_self {k : Nat} {c : Controller} (found : s.controller k = some c) (g : Controller → Controller) :
    (s.modController k g).controller k = some (g c) := by
  have here : s.host.controllers[k]? = some c := found
  change (s.host.controllers.modify k g)[k]? = _
  rw [List.getElem?_modify_eq, here]
  rfl

theorem State.ccDisable_effect {k : Nat} {c : Controller} (found : s.controller k = some c) (enabled : c.enabled = true) :
    (s.ccDisable k).rd .HQEn_STAT_EN (k * 65536) = 0 ∧ (s.ccDisable k).rd .HQEn_STAT_RDY (k * 65536) = 0 ∧
      (s.ccDisable k).controller k = some { Controller.atReset with wasReset := true } := by
  have acts : ((s.controller k).any (·.enabled)) = true := by rw [found]; exact enabled
  rw [State.ccDisable, if_pos acts]
  obtain ⟨disabled, waits⟩ := State.controllerReset_idle (s := s) k
  refine ⟨disabled, waits, ?_⟩
  have inside : k < (s.resetBegun k).host.controllers.length := by
    rw [(State.resetBegun_ports k).2.2]
    exact (List.getElem?_eq_some_iff.1 found).1
  rw [State.controller, (State.controllerReset_host k).2.2, List.getElem?_modify_eq, List.getElem?_eq_getElem inside]
  rfl

theorem State.ccEnable_effect {k ams : Nat} {c : Controller} (found : s.controller k = some c) (off : c.enabled = false)
    (presented : s.presented k = true) : (s.ccEnable k ams).rd .HQEn_STAT_EN (k * 65536) = 1 ∧
      (s.ccEnable k ams).controller k = some { c with enabled := true, ams, starting := true } := by
  have acts : ¬(!s.presented k || (s.controller k).any (·.enabled)) = true := by simp [presented, found, off]
  rw [State.ccEnable, if_neg acts]
  exact ⟨State.rd_flag_self .., State.modController_self found _⟩

theorem State.controllerReady_effect {k : Nat} {c : Controller} (found : s.controller k = some c) (starting : c.starting = true) :
    (s.controllerReady k).rd .HQEn_STAT_RDY (k * 65536) = 1 ∧
      (s.controllerReady k).controller k = some { c with starting := false, wasReset := false } ∧
      (c.wasReset = true → (s.controllerReady k).rd .HQEn_STAT_RST_DONE (k * 65536) = 1) := by
  have acts : ¬(!c.starting) = true := by simp [starting]
  let u := (s.flag .HQEn_STAT_RDY (k * 65536)).when c.wasReset fun s => s.flag .HQEn_STAT_RST_DONE (k * 65536)
  have ends : s.controllerReady k = u.modController k fun c => { c with starting := false, wasReset := false } := by
    simp only [State.controllerReady, found, if_neg acts]
    rfl
  have kept : Keeps (maskOf [.HQEn_STAT_RST_DONE]) 0 (s.flag .HQEn_STAT_RDY (k * 65536)) u := .when (.refl _) fun _ h => .flag h (by decide)
  have same : u.controller k = some c := by
    rw [State.controller, kept.parts .host rfl]
    exact found
  rw [ends]
  refine ⟨?_, State.modController_self same _, fun reset => ?_⟩
  · exact (kept.rd .HQEn_STAT_RDY _ (by decide)).trans (by simp)
  · change u.rd .HQEn_STAT_RST_DONE (k * 65536) = 1
    simp [u, reset]

theorem State.functionReset_effect {k : Nat} (presented : s.presented k = true) :
    (s.functionReset k).rd .HQEn_STAT_EN (k * 65536) = 0 ∧ (s.functionReset k).rd .HQEn_STAT_RDY (k * 65536) = 0 := by
  rw [State.functionReset, if_pos presented]
  exact State.controllerReset_idle k

/-! ### NVMe-MI (R255) -/

/-- Each word of an answer goes out under its number. -/
theorem State.miReply_out {ws : List Nat} {i w : Nat} (word : ws[i]? = some w) : Out.mi i w ∈ (s.miReply ws).out := by
  have mem : (i, w) ∈ ws.mapIdx fun i w => (i, w) := by
    refine List.mem_iff_getElem?.2 ⟨i, ?_⟩
    rw [List.getElem?_mapIdx, word]
    rfl
  exact foldl_reaches (P := fun _ => True) (Q := fun u : State => Out.mi i w ∈ u.out) mem trivial (fun _ _ _ => trivial)
    (fun _ _ => List.mem_cons_self) fun _ _ holds => List.mem_cons_of_mem _ holds

theorem State.vpdRead_out {offset n v : Nat} (some' : 1 ≤ n) (held : storeFind s.host.vpd offset = some v) :
    Out.mi offset v ∈ (s.vpdRead offset n).out := by
  have mem : 0 ∈ List.range (min n 4096) := List.mem_range.2 (by omega)
  refine foldl_reaches (P := fun u : State => u.host = s.host) (Q := fun u : State => Out.mi offset v ∈ u.out) mem rfl (fun u i holds => ?_)
    (fun u holds => ?_) fun u i holds => ?_
  · split <;> exact holds
  · rw [holds, Nat.add_zero, held]
    exact List.mem_cons_self
  · split <;> exact List.mem_cons_of_mem _ holds

end

/-- Settles O32. -/
theorem portEffects : Obligations.PortEffects := by
  unfold Obligations.PortEffects
  refine ⟨fun s port exists' inside => ⟨_, rfl, State.perstAssert_effect exists' inside⟩,
    fun s port wake exists' asserted inside awake => ⟨_, rfl, ?_⟩,
    fun s port speed width exists' training => ⟨_, rfl, State.linkTrained_effect exists' training⟩,
    fun s port exists' up inside => ⟨_, rfl, State.dlDown_effect exists' up inside⟩,
    fun s k c found enabled => ⟨_, rfl, State.ccDisable_effect found enabled⟩,
    fun s k ams c found off presented => ⟨_, rfl, State.ccEnable_effect found off presented⟩,
    fun s k c found starting => ⟨_, rfl, State.controllerReady_effect found starting⟩,
    fun s k presented => ⟨_, rfl, State.functionReset_effect presented⟩,
    fun s k presented => ⟨_, rfl, State.functionReset_effect presented⟩,
    fun s k wake awake => ⟨_, rfl, ?_⟩, fun s wake awake => ⟨_, rfl, ?_⟩, fun s k wake awake => ⟨_, rfl, ?_⟩,
    fun s id value wake awake low high => ⟨_, rfl, ?_⟩, fun s id wake awake => ⟨_, rfl, ?_⟩,
    fun s offset n v wake awake some' held => ⟨_, rfl, ?_⟩, fun s offset b wake awake => ⟨_, rfl, ?_⟩, fun s wake awake => ⟨_, rfl, ?_⟩⟩
  · have mode : (s.perstDeassert port).rd .PWR_STAT_MODE ≠ 0 := by
      rwa [(State.perstDeassert_after (.refl s) (Nat.or_self _) (Nat.or_self _)).rd .PWR_STAT_MODE _ (by decide)]
    rw [exists', State.when_true, State.wake_awake mode]
    exact State.perstDeassert_effect exists' asserted inside
  · rw [State.smbus_awake awake]
    exact ⟨State.miReply_out rfl, State.miReply_out rfl, State.miReply_out rfl⟩
  · rw [State.smbus_awake awake]
    exact ⟨State.miReply_out rfl, State.miReply_out rfl, State.miReply_out rfl⟩
  · rw [State.smbus_awake awake]
    exact ⟨State.miReply_out rfl, State.miReply_out rfl, State.miReply_out rfl⟩
  · have acts : (decide (1 ≤ id) && decide (id ≤ 3)) = true := by simp [low, high]
    rw [State.smbus_awake awake, State.miConfigSet, if_pos acts]
    rfl
  · rw [State.smbus_awake awake]
    exact State.miReply_out rfl
  · rw [State.smbus_awake awake]
    exact State.vpdRead_out some' held
  · rw [State.smbus_awake awake]
    rfl
  · rw [State.smbus_awake awake]
    exact ⟨State.miReply_out rfl, State.miReply_out rfl, State.miReply_out rfl⟩

end Sys2Proof.Machine

/-! PROOF. Proofs/TableWrites.lean: what a write of a coefficient bank, a channel set or a per-head table leaves alone (R391). -/
namespace Sys2Proof.Machine

section
variable {s t u : State}

/-- The host's side, the Bureau's and the Bridge's are as before. -/
def SidesKept (s t : State) : Prop := Keeps everyReg (partsBut [.host, .bur, .bridge]) s t

/-- The register fields of the tables. -/
def tableRegs : List Reg :=
  [.SCEx_BANK0_TABLE, .SCEx_BANK1_TABLE, .SCEx_FALLBACK_TABLE, .SVDx_HRDR_SRV_RDR, .SVDx_HRDR_RDR_OFFS, .SVDx_HSKEW_HSKEW
   , .AEx_H_LAS_LAS_WR, .AEx_H_LAS_LAS_IDLE, .AEx_H_LIM_LAS_MAX, .AEx_H_LIM_PW_LSB, .AEx_H_LIM_TC_LAS, .AEx_H_HTR_HTR_RD
   , .AEx_H_HTR_HTR_WIDLE, .AEx_H_HTR_HTR_WR, .AEx_H_HLIM_HTR_MAX, .AEx_H_HLIM_HTR_TC, .AEx_H_HLIM_HTR_CMAX, .AEx_H_HLIM_WC
   , .AEx_H_ECS_ECS_REF, .AEx_H_ECS_KI, .AEx_H_ECS_ECS_TD, .AEx_H_CAPS_LEDG_SOFT, .AEx_H_CAPS_LEDG_HARD, .AEx_H_LEDGER_NJ
   , .AEx_H_HSTAT_TEMP, .AEx_H_HSTAT_HCORR, .RCHx_FIR_TAP, .RCHx_NP_NP, .RCHx_SET_SET, .THR_SNS_T]

/-- The blocks that hold tables. -/
def tableBlocks : List Blk := [.sce, .rch, .ae, .svd, .thermal]

/-- A row of a block with tables that belongs to one. -/
def RegRow.tabled (r : RegRow) : Bool := decide (6 ≤ r.n)

/-- The first and the last byte address of a row's words. -/
def RegRow.apart (r q : RegRow) : Bool :=
  decide (r.off + max 1 r.stride * r.n ≤ q.off) || decide (q.off + max 1 q.stride * q.n ≤ r.off)

/-- In a block with tables the words of the tables hold nothing else. -/
theorem tables_apart : tableBlocks.all (fun b => b.rows.all fun r => b.rows.all fun q => !r.tabled || q.tabled || r.apart q) = true := by
  decide

theorem tables_regs : tableBlocks.all (fun b => b.rows.all fun r => !r.tabled || tableRegs.contains r.reg) = true := by
  decide

theorem mem_fieldsAt {b : Blk} {off : Nat} {e : RegRow × Nat} (mem : e ∈ fieldsAt b off) :
    e.1 ∈ b.rows ∧ e.1.off ≤ off ∧ off < e.1.off + max 1 e.1.stride * e.1.n := by
  obtain ⟨r, row, found⟩ := List.mem_filterMap.1 mem
  split at found
  · next inside =>
    simp only [Bool.and_eq_true, decide_eq_true_eq] at inside
    obtain ⟨⟨above, _⟩, below⟩ := inside
    obtain rfl := Option.some.inj found
    have positive : 0 < max 1 r.stride := by omega
    have := (Nat.div_lt_iff_lt_mul positive).1 below
    rw [Nat.mul_comm] at this
    have inside : off < r.off + max 1 r.stride * r.n := by omega
    exact ⟨row, above, inside⟩
  · cases found

/-- A word of a block with tables that holds a field of a table holds fields of tables alone. -/
theorem fieldsAt_tables {b : Blk} {off : Nat} (block : b ∈ tableBlocks) (table : (fieldsAt b off).any (fun e => decide (6 ≤ e.1.n)) = true) :
    ∀ e ∈ fieldsAt b off, e.1.reg ∈ tableRegs := by
  intro e mem
  obtain ⟨d, held, wide⟩ := List.any_eq_true.1 table
  obtain ⟨row, above, below⟩ := mem_fieldsAt mem
  obtain ⟨row', above', below'⟩ := mem_fieldsAt held
  have overlap : d.1.apart e.1 = false := by
    simp only [RegRow.apart, Bool.or_eq_false_iff, decide_eq_false_iff_not]
    omega
  have pair := List.all_eq_true.1 (List.all_eq_true.1 (List.all_eq_true.1 tables_apart b block) d.1 row') e.1 row
  have whole : d.1.tabled = true := wide
  have tabled : e.1.tabled = true := by simpa [overlap, whole] using pair
  have listed := List.all_eq_true.1 (List.all_eq_true.1 tables_regs b block) e.1 row
  simpa [tabled] using listed

/-! ### Fields (R9, R13) -/

theorem SidesKept.refl (s : State) : SidesKept s s := Keeps.refl s

theorem SidesKept.trans (h : SidesKept s t) (k : SidesKept t u) : SidesKept s u := Keeps.trans h k

theorem everyReg_bit (r : Reg) : everyReg.testBit r.ctorIdx = true := by cases r <;> rfl

theorem SidesKept.wr (h : SidesKept s t) {r : Reg} {v i : Nat} : SidesKept s (t.wr r v i) := Keeps.wr h (everyReg_bit r)

theorem State.setField_sides {r : RegRow} {inst k v : Nat} (domains : r.reg ≠ .PWR_DOMREQ_ON) (throttle : r.reg ≠ .THR_CTRL_L_MIN) :
    SidesKept s (s.setField r inst k v).2 := by
  have taken {v i : Nat} : Keeps everyReg (partsBut [.host, .bur, .bridge]) s (s.wr r.reg v i) := (SidesKept.refl s).wr
  unfold SidesKept State.setField
  dsimp only
  split
  · exact .ite_snd (fun _ => .refl s) fun _ => taken
  · dsimp only
    exact State.tableLoad_after taken (by decide) (by decide)
  · dsimp only
    exact State.tableLoad_after taken (by decide) (by decide)
  · dsimp only
    exact State.tableLoad_after taken (by decide) (by decide)
  · dsimp only
    exact State.modWrp_after (.refl s) (by decide) (by decide)
  · dsimp only
    exact State.writeHtrRd_after (.refl s) (by decide) (by decide)
  · dsimp only
    exact .when taken fun _ h => State.queueIdle_after h (by decide) (by decide)
  · dsimp only
    exact .when taken fun _ h => State.modStr_after h (by decide) (by decide)
  · dsimp only
    exact State.captureMode_after (State.shadowWr_after (.refl s) (by decide) (by decide)) (by decide) (by decide)
  · dsimp only
    exact State.channelSetWrite_after (.refl s) (by decide) (by decide)
  · dsimp only
    exact State.streamRefresh_after taken (by decide) (by decide)
  · dsimp only
    exact State.streamRefresh_after taken (by decide) (by decide)
  · dsimp only
    exact State.slotShow_after taken (by decide) (by decide)
  · dsimp only
    exact .ite (fun _ => State.l2Disable_after (.refl s) (by decide) (by decide)) fun _ =>
      .ite (fun _ => State.l2Enable_after (.refl s) (by decide) (by decide)) fun _ => .refl s
  · dsimp only
    exact .ite (fun _ => State.ratInvalidate_after (.refl s) (by decide) (by decide)) fun _ => taken
  · dsimp only
    exact .ite (fun _ => .refl s) fun _ => taken
  · next named => exact absurd named domains
  · next named => exact absurd named throttle
  · exact taken

theorem State.refuseWrite_sides (b : Blk) (inst : Nat) : SidesKept s (s.refuseWrite b inst).2 := by
  unfold State.refuseWrite
  dsimp only
  split
  · exact (SidesKept.refl s).wr
  · exact .refl s

theorem State.writeField_sides {r : RegRow} {inst k v : Nat} (domains : r.reg ≠ .PWR_DOMREQ_ON) (throttle : r.reg ≠ .THR_CTRL_L_MIN) :
    SidesKept s (s.writeField r inst k v).2 := by
  have field {u : State} (h : SidesKept s u) : SidesKept s (u.setField r inst k v).2 := h.trans (State.setField_sides domains throttle)
  unfold State.writeField
  dsimp only
  split
  · exact .refl s
  · exact .refl s
  · exact (SidesKept.refl s).wr
  · exact (SidesKept.refl s).wr
  · split
    · exact Keeps.flag (State.shadowWr_after (.refl s) (by decide) (by decide)) (by decide)
    · exact Keeps.flag (State.shadowWr_after (.refl s) (by decide) (by decide)) (by decide)
    · exact Keeps.flag (State.shadowWr_after (.refl s) (by decide) (by decide)) (by decide)
    · exact State.speSetptOp_after (.refl s) (by decide) (by decide)
    · exact State.wrArm_after (.refl s) (by decide) (by decide)
    · exact State.writePathEnable_after (.refl s) (by decide) (by decide)
    · split
      · split
        · exact s.refuseWrite_sides _ _
        · exact field (.refl s)
      · split
        · exact s.refuseWrite_sides _ _
        · exact field (.refl s)
      · split
        · exact State.shadowWr_after (.refl s) (by decide) (by decide)
        · exact field (State.shadowDrop_after (.refl s) (by decide) (by decide))
      · exact field (.refl s)

/-! ### Words (R39, R391) -/

/-- A row of a block is that of its field. -/
theorem row_of_mem {b : Blk} {r : RegRow} (mem : r ∈ b.rows) : r = r.reg.row := by
  obtain ⟨g, _, rfl⟩ := List.mem_map.1 mem
  rw [Reg.row_reg]

theorem tableRegs_access {g : Reg} (mem : g ∈ tableRegs) : (g.row.access == .wo) = false ∧ g ≠ .PWR_DOMREQ_ON ∧ g ≠ .THR_CTRL_L_MIN := by
  have all : ∀ g ∈ tableRegs, (g.row.access == .wo) = false ∧ g ≠ .PWR_DOMREQ_ON ∧ g ≠ .THR_CTRL_L_MIN := by decide
  exact all g mem

theorem State.writeReg_sides {b : Blk} {inst off v mask outcome : Nat} (block : b ∈ tableBlocks)
    (table : (fieldsAt b off).any (fun e => decide (6 ≤ e.1.n)) = true) : SidesKept s (s.writeReg b inst off v mask outcome).2 := by
  have safe (e : RegRow × Nat) (mem : e ∈ fieldsAt b off) : (e.1.access == .wo) = false ∧ e.1.reg ≠ .PWR_DOMREQ_ON ∧ e.1.reg ≠ .THR_CTRL_L_MIN := by
    have listed := tableRegs_access (fieldsAt_tables block table e mem)
    rwa [← row_of_mem (mem_fieldsAt mem).1] at listed
  unfold State.writeReg
  extract_lets fs value plain acts names acts' order write act done rest started all
  have none : order = [] := by
    have acts : acts = [] := List.filter_eq_nil_iff.2 fun e mem => by
      rw [(safe e (List.mem_of_mem_filter mem)).1]
      simp
    simp [order, acts', acts]
  have written (l : List (RegRow × Nat)) (sub : ∀ e ∈ l, e ∈ fs) : SidesKept s (write s l).2 :=
    List.foldlRecOn (motive := fun p : CStat × State => SidesKept s p.2) l _ (.refl s) fun p holds e mem =>
      holds.trans (State.writeField_sides (safe e (List.mem_of_mem_filter (sub e mem))).2.1 (safe e (List.mem_of_mem_filter (sub e mem))).2.2)
  have acted (c : CStat) (u : State) (h : SidesKept s u) : SidesKept s (act c u).2 := by
    simp only [act, none]
    exact h
  have finished (p : CStat × State) (h : SidesKept s p.2) : SidesKept s (done p).2 := by
    simp only [done]
    split
    · exact h.wr
    · exact h
  have plains : ∀ e ∈ plain, e ∈ fs := fun e mem => List.mem_of_mem_filter mem
  have first : SidesKept s started.2 := acted _ _ (written _ fun e mem => plains e (List.mem_of_mem_filter mem))
  split
  · exact finished _ (first.trans (State.refuseWrite_sides b inst))
  · exact finished _ (acted _ _ (written _ plains))

theorem State.target_of_bridge (same : t.bridge = s.bridge) (a : Nat) : t.target a = s.target a := by
  simp only [State.target, same]

theorem State.tableAddress_of_bridge (same : t.bridge = s.bridge) (a : Nat) : t.tableAddress a = s.tableAddress a := by
  simp only [State.tableAddress, State.target_of_bridge same]

theorem State.writeWord_sides {req a v mask outcome : Nat} (table : s.tableAddress a = true) :
    SidesKept s (s.writeWord req a v mask outcome).2 := by
  unfold State.tableAddress at table
  split at table
  · next b inst off reached =>
    simp only [Bool.and_eq_true] at table
    obtain ⟨block, fields⟩ := table
    have mem : b ∈ tableBlocks := List.contains_iff_mem.1 block
    unfold State.writeWord
    rw [reached]
    dsimp only
    split
    · exact State.fabricError_after (.refl s) (by decide) (by decide)
    · split
      · exact .refl s
      · exact State.writeReg_sides mem fields
  · cases table

/-- Words that are all of tables are written with the host's side, the Bureau's and the Bridge's as before. -/
theorem State.writeWords_sides {req a : Nat} {ws : List Nat} (table : ∀ i < ws.length, s.tableAddress (a + 4 * i) = true) :
    SidesKept s (s.writeWords req a ws).2 := by
  induction ws generalizing s a with
  | nil => exact .refl s
  | cons w ws ih =>
    have first : SidesKept s (s.writeWord req a w (2 ^ 32 - 1) 0).2 := State.writeWord_sides (table 0 (Nat.zero_lt_succ _))
    refine first.trans (ih fun i below => ?_)
    rw [State.tableAddress_of_bridge (first.parts .bridge rfl)]
    have here := table (i + 1) (Nat.succ_lt_succ below)
    rwa [show a + 4 * (i + 1) = a + 4 + 4 * i by omega] at here

end

end Sys2Proof.Machine

/-! PROOF. Proofs/Management.lean: what the opcodes of the management classes do (R62, R110, R202, R389 to R400, R430, R443). -/
namespace Sys2Proof.Machine

section
variable {s t u : State} {r : CiborRequest} {x : Str}

/-! ### Requests -/

theorem RequestGone.settleRequests (h : RequestGone t r) : RequestGone t.settleRequests r := by
  refine List.foldlRecOn (motive := fun u : State => RequestGone u r) _ _ h fun u holds e _ => ?_
  rcases State.settleOne_cases u e with same | ⟨st, d1, d2, results, payload, replied⟩
  · rwa [same]
  · rw [replied, RequestGone, State.reply_requests]
    exact fun q mem => holds q (List.mem_of_mem_filter mem)

theorem State.reply_rd {st : CStat} {d1 d2 : Nat} {results payload : List Nat} (g : Reg) (i : Nat) :
    (s.reply r st d1 d2 results payload).rd g i = s.rd g i := State.reply_keeps.rd g i (Nat.zero_testBit _)

theorem State.beginRequest_keeps (r : CiborRequest) : Keeps (maskOf [.PWR_STAT_MODE, .PWR_STAT_SUB]) everyPart s (s.beginRequest r) :=
  State.beginRequest_after (.refl s) (by decide) (by decide)

/-! ### Reading and writing (R391) -/

theorem State.mgmtRead_replied {ws : List Nat} (some' : r.param 3 ≠ 0) (few : r.param 3 ≤ 1024)
    (words : (s.readWords s.bureauReq r.address (r.param 3)).1 = some ws) : Replied s (s.mgmtRead r) r (replyBytes r 0 0 0 [] (bytesOf ws)) := by
  have range : ¬(decide (r.param 3 = 0) || decide (1024 < r.param 3)) = true := by simp [some', Nat.not_lt.2 few]
  have kept := (State.readWords_after (.refl s) (Nat.or_self _) (Nat.or_self _) : Keeps _ _ s (s.readWords s.bureauReq r.address (r.param 3)).2)
  simp only [State.mgmtRead, if_neg range]
  rcases reading : s.readWords s.bureauReq r.address (r.param 3) with ⟨found, u⟩
  rw [reading] at words kept
  obtain rfl : found = some ws := words
  exact State.reply_replied (s := u) (congrArg HostState.cmds (kept.parts .host rfl)) .ok 0 0 [] (bytesOf ws)

theorem State.mgmtRead_range (range : r.param 3 = 0 ∨ 1024 < r.param 3) :
    Replied s (s.mgmtRead r) r (replyBytes r (CStat.code .cfgRange) 0 0 [] []) := by
  have outside : (decide (r.param 3 = 0) || decide (1024 < r.param 3)) = true := by
    rcases range with none | many
    · simp [none]
    · simp [many]
  simp only [State.mgmtRead, if_pos outside]
  exact State.reply_replied rfl .cfgRange 0 0 [] []

theorem State.mgmtWrite_refused {outcome : Nat} (refused : protectedBlock r.address = true ∨ s.allowed r.source r.address = false) :
    Replied s (s.mgmtWrite r outcome) r (replyBytes r (CStat.code .prot) 0 0 [] []) ∧ (s.mgmtWrite r outcome).regs = s.regs ∧
      (s.mgmtWrite r outcome).mem = s.mem := by
  have closed : (protectedBlock r.address || !s.allowed r.source r.address) = true := by
    rcases refused with inside | outside
    · simp [inside]
    · simp [outside]
  have regs (f numd : Nat) (p : CiborReply) (v : State) : (v.giveReply f numd p).regs = v.regs := by
    have sent (l : List (Nat × Nat)) : (l.foldl (fun s e => s.emit (.hostData f e.1 e.2)) v).regs = v.regs :=
      List.foldlRecOn (motive := fun u : State => u.regs = v.regs) l _ rfl fun _ holds _ _ => holds
    simp only [State.giveReply, State.when]
    split <;> exact sent _
  have same : (s.reply r .prot).regs = s.regs := by
    simp only [State.reply]
    split
    · rfl
    · split
      · unfold State.when
        split
        · exact List.foldlRecOn (motive := fun u : State => u.regs = s.regs) _ _ rfl fun _ holds _ _ => holds
        · rfl
      · split
        · exact regs _ _ _ _
        · rfl
  simp only [State.mgmtWrite, if_pos closed]
  exact ⟨State.reply_replied rfl .prot 0 0 [] [], same, State.reply_keeps.parts .mem rfl⟩

theorem State.mgmtWrite_gone {outcome : Nat} (block : protectedBlock r.address = false) (allowed : s.allowed r.source r.address = true)
    (free : (inSpe r.address && s.speBusy) = false) : RequestGone (s.mgmtWrite r outcome) r := by
  have open' : ¬(protectedBlock r.address || !s.allowed r.source r.address) = true := by simp [block, allowed]
  simp only [State.mgmtWrite, if_neg open', free, Bool.false_eq_true, if_false]
  generalize s.writeWord s.bureauReq r.address (r.param 3) (r.param 4) outcome = written
  obtain ⟨answer, v⟩ := written
  cases answer with
  | none => exact State.reply_gone _ _ _ _ _ _
  | some st =>
    have done := State.reply_gone (s := (v.readWord v.bureauReq r.address).2) r st 0 ((v.readWord v.bureauReq r.address).1.getD 0) [] []
    exact done.settleRequests

theorem State.mgmtTable_replied (words : r.payload.length % 4 = 0) (places : ∀ i < (wordsOf r.payload).length,
      s.tableAddress (r.address + 4 * i) = true ∧ s.allowed r.source (r.address + 4 * i) = true) :
    Replied s (s.mgmtTable r) r (replyBytes r (s.writeWords s.bureauReq r.address (wordsOf r.payload)).1.code 0 0 [] []) := by
  have tables : ((List.range (wordsOf r.payload).length).map fun i => r.address + 4 * i).all s.tableAddress = true := by
    refine List.all_eq_true.2 fun a mem => ?_
    obtain ⟨i, below, rfl⟩ := List.mem_map.1 mem
    exact (places i (List.mem_range.1 below)).1
  have listed : ((List.range (wordsOf r.payload).length).map fun i => r.address + 4 * i).all (s.allowed r.source) = true := by
    refine List.all_eq_true.2 fun a mem => ?_
    obtain ⟨i, below, rfl⟩ := List.mem_map.1 mem
    exact (places i (List.mem_range.1 below)).2
  have kept : SidesKept s (s.writeWords s.bureauReq r.address (wordsOf r.payload)).2 :=
    State.writeWords_sides fun i below => (places i below).1
  have whole : ¬(r.payload.length % 4 != 0 || false) = true := by simp [words]
  simp only [State.mgmtTable, tables, listed, Bool.not_true, Bool.false_eq_true, if_false]
  rw [if_neg whole]
  exact State.reply_replied (congrArg HostState.cmds (kept.parts .host rfl)) _ 0 0 [] []

/-! ### Modes and the stored configuration (R394, R430) -/

theorem State.mgmtMode_maintenance (asks : r.param 1 = 7) (allowed : s.maintAllowed r.source = true) (streams : s.host.streams = [])
    (quiet : s.power.standbyDue = false) (mode : s.rd .PWR_STAT_MODE = 1 ∨ s.rd .PWR_STAT_MODE = 3) :
    (s.mgmtMode r).rd .PWR_STAT_MODE = 7 ∧ (s.mgmtMode r).power.maintSource = some r.source ∧
      Replied s (s.mgmtMode r) r (replyBytes r 0 0 0 [] []) := by
  have granted : ¬(!s.maintAllowed r.source) = true := by simp [allowed]
  have reached : ¬(s.streamsArmed || s.power.standbyDue || !(decide (s.mode = 1) || decide (s.mode = 3))) = true := by
    rcases mode with standby | ready
    · simp [State.streamsArmed, streams, quiet, State.mode, standby]
    · simp [State.streamsArmed, streams, quiet, State.mode, ready]
  have acts : s.mgmtMode r = ((s.wr .PWR_STAT_MODE 7).modPower fun p => { p with maintSource := some r.source }).reply r .ok := by
    simp only [State.mgmtMode, asks, if_neg granted, if_neg reached]
  rw [acts]
  refine ⟨?_, ?_, State.reply_replied (s := (s.wr .PWR_STAT_MODE 7).modPower fun p => { p with maintSource := some r.source }) rfl .ok 0 0 [] []⟩
  · rw [State.reply_rd]
    exact (State.rd_wr_self s .PWR_STAT_MODE 7 0).trans (by decide)
  · rw [State.reply_keeps.parts .power rfl]
    rfl

theorem State.mgmtMode_denied (asks : r.param 1 = 7) (denied : s.maintAllowed r.source = false) :
    Replied s (s.mgmtMode r) r (replyBytes r (CStat.code .classDenied) 0 0 [] []) ∧ (s.mgmtMode r).rd .PWR_STAT_MODE = s.rd .PWR_STAT_MODE := by
  have refused : (!s.maintAllowed r.source) = true := by simp [denied]
  have acts : s.mgmtMode r = s.reply r .classDenied := by simp only [State.mgmtMode, asks, if_pos refused]
  rw [acts]
  exact ⟨State.reply_replied rfl .classDenied 0 0 [] [], State.reply_rd ..⟩

theorem State.mgmtAllow_set {n : Nat} (maker : s.rd .LC_STAT_STATE = 2) (pairs : r.payload.length = 16 * n) (few : n ≤ 64) :
    (s.mgmtAllow r).bur.allow = (List.range n).map (fun i => (leField r.payload (16 * i) 8, leField r.payload (16 * i + 8) 8)) ∧
      Replied s (s.mgmtAllow r) r (replyBytes r 0 0 0 [] []) := by
  have stage : ¬(s.rd .LC_STAT_STATE != 2) = true := by simp [maker]
  have count : r.payload.length / 16 = n := by omega
  have whole : ¬(r.payload.length % 16 != 0 || decide (64 < n)) = true := by simp [pairs, Nat.not_lt.2 few]
  simp only [State.mgmtAllow, if_neg stage, count, if_neg whole]
  refine ⟨?_, State.reply_replied (s := s.modBur _) rfl .ok 0 0 [] []⟩
  rw [State.reply_bur]
  rfl

theorem State.mgmtAllow_denied (other : s.rd .LC_STAT_STATE ≠ 2) : (s.mgmtAllow r).bur.allow = s.bur.allow ∧
    Replied s (s.mgmtAllow r) r (replyBytes r (CStat.code .classDenied) 0 0 [] []) := by
  have stage : (s.rd .LC_STAT_STATE != 2) = true := by simp [other]
  simp only [State.mgmtAllow, if_pos stage]
  refine ⟨?_, State.reply_replied rfl .classDenied 0 0 [] []⟩
  rw [State.reply_bur]

theorem State.mgmtCommit_stores (closed : s.bur.transfers = []) (idle : s.bur.storing = none) :
    (s.mgmtCommit r).bur.storing = some s.snapshotConfig := by
  simp only [State.mgmtCommit, closed, idle, List.isEmpty_nil, Bool.not_true, Bool.false_eq_true, if_false, Option.isSome_none]
  rfl

theorem State.mgmtCommit_busy (open' : s.bur.transfers ≠ []) :
    Replied s (s.mgmtCommit r) r (replyBytes r (CStat.code .busy) 0 0 [] []) := by
  have refused : (!s.bur.transfers.isEmpty) = true := by simp [open']
  rw [State.mgmtCommit, if_pos refused]
  exact State.reply_replied rfl .busy 0 0 [] []

theorem State.mgmtReadback_replied : ∃ payload, (s.configInForce = none → payload = []) ∧
    Replied s (s.mgmtReadback r) r (replyBytes r 0 0 0 [] payload) := by
  refine ⟨_, fun none => ?_, State.reply_replied rfl .ok 0 0 [] _⟩
  rw [none]
  rfl

theorem State.configStored_effect {c : StoredConfig} (storing : s.bur.storing = some c) :
    s.configStored.bur.storing = none ∧ s.configStored.bur.stored = s.bur.stored.set s.idleCopy (some c) := by
  simp only [State.configStored, storing]
  split
  · rw [State.reply_bur]
    exact ⟨rfl, rfl⟩
  · exact ⟨rfl, rfl⟩

end

end Sys2Proof.Machine

/-! PROOF. Proofs/Opcodes.lean: the opcodes of the spindle, the Capo, the heads and their banks (R391). -/
namespace Sys2Proof.Machine

section
variable {s t u : State} {r : CiborRequest} {x : Str}

/-! ### Spindle and Capo (R62, R430) -/

/-- In Standby and in Spin-up a spindle that measures leaves the mode. -/
theorem State.nextMode_measures (measures : s.rd .SPE_STAT_STATE = 1) (slow : s.rd .SPE_STAT_ATSPD = 0)
    (mode : s.rd .PWR_STAT_MODE = 1 ∨ s.rd .PWR_STAT_MODE = 2) : s.nextMode.rd .PWR_STAT_MODE = s.rd .PWR_STAT_MODE := by
  have speed : s.isSet .SPE_STAT_ATSPD = false := by simp [State.isSet, slow]
  rcases mode with standby | spinUp
  · simp [State.nextMode, State.mode, standby, measures]
  · simp [State.nextMode, State.mode, spinUp, measures, speed]

theorem State.refreshMode_measures (measures : s.rd .SPE_STAT_STATE = 1) (slow : s.rd .SPE_STAT_ATSPD = 0)
    (mode : s.rd .PWR_STAT_MODE = 1 ∨ s.rd .PWR_STAT_MODE = 2) : s.refreshMode.rd .PWR_STAT_MODE = s.rd .PWR_STAT_MODE := by
  have settled : Keeps 0 everyPart s.nextMode s.refreshMode := State.settleRequests_after (.refl _) (by decide) (by decide)
  rw [settled.rd .PWR_STAT_MODE _ (by decide), State.nextMode_measures measures slow mode]

/-- The spindle measures, below its speed; a device in Standby is still there. -/
theorem State.speMeasure_standby : s.speMeasure.rd .SPE_STAT_ATSPD = 0 ∧
    (s.rd .PWR_STAT_MODE = 1 → s.speMeasure.rd .PWR_STAT_MODE = 1) := by
  let u := ((s.wr .SPE_STAT_STATE 1).setTo .SPE_STAT_TICKPRED (1 == 6)).unflag .SPE_STAT_ATSPD
  have k : Keeps (maskOf [.PWR_STAT_MODE, .PWR_STAT_SUB]) everyPart u s.speMeasure :=
    State.modSpe_after (State.refreshMode_after (.refl u) (by decide) (by decide)) (by decide) (by decide)
  refine ⟨?_, fun standby => ?_⟩
  · rw [k.rd .SPE_STAT_ATSPD _ (by decide)]
    simp [u]
  · have mode : u.rd .PWR_STAT_MODE = 1 := by simp [u, standby]
    have stays : u.refreshMode.rd .PWR_STAT_MODE = u.rd .PWR_STAT_MODE :=
      State.refreshMode_measures (by simp [u]) (by simp [u]) (.inl mode)
    exact stays.trans mode

theorem State.mgmtSpinStart_effect (free : s.speBusy = false) (cool : s.isSet .THR_STAT_SHUT = false) (off : s.speState = 0)
    (least : 1 ≤ s.rd .SPE_MOTOR_POLEPAIRS) (most : s.rd .SPE_MOTOR_POLEPAIRS ≤ 8) (charged : s.spe.vmCharged = true)
    (runs : s.bench.halted.contains 32 = false) : (s.mgmtSpinStart r).rd .SPE_STAT_STATE = 1 ∧
      (s.rd .PWR_STAT_MODE = 1 → (s.mgmtSpinStart r).rd .PWR_STAT_MODE = 2) := by
  have poles : ¬(decide (s.rd .SPE_MOTOR_POLEPAIRS = 0) || decide (s.rd .SPE_MOTOR_POLEPAIRS > 8)) = true := by
    have some : s.rd .SPE_MOTOR_POLEPAIRS ≠ 0 := by omega
    simp [some, most]
  have ready : ¬(!s.spe.vmCharged || s.bench.halted.contains 32) = true := by rw [charged, runs]; decide
  let v := ((s.wr .SPE_SKIPCNT_COUNT 0).unflag .SPE_KE_VALID).modSpe fun e =>
    { e with attempts := 0, rejects := 0, stopPending := false, toRest := false
             restHold := false, keSum := 0, keCount := 0, skips := 0, goods := 0 }
  have starts : s.speStartOp = (.ok, v.speMeasure) := by
    simp only [State.speStartOp, off, if_neg poles, if_neg ready]
    rfl
  have acts : s.mgmtSpinStart r = (v.speMeasure.when (v.speMeasure.mode == 1) fun s => s.wr .PWR_STAT_MODE 2).beginRequest r := by
    simp only [State.mgmtSpinStart, free, cool, Bool.false_eq_true, if_false, starts]
  obtain ⟨slow, standby⟩ := State.speMeasure_standby (s := v)
  have measures : v.speMeasure.rd .SPE_STAT_STATE = 1 := v.speMeasure_state
  rw [acts]
  generalize v.speMeasure = w at slow standby measures
  refine ⟨?_, fun mode => ?_⟩
  · rw [(State.beginRequest_keeps r).rd .SPE_STAT_STATE _ (by decide)]
    have k : Keeps (maskOf [.PWR_STAT_MODE]) 0 w (w.when (w.mode == 1) fun s => s.wr .PWR_STAT_MODE 2) :=
      .when (.refl w) fun _ h => .wr h (by decide)
    rw [k.rd .SPE_STAT_STATE _ (by decide), measures]
  · have before : v.rd .PWR_STAT_MODE = 1 := by simp [v, mode]
    have here : (w.mode == 1) = true := by simp [State.mode, standby before]
    rw [here, State.when_true, State.beginRequest]
    have spinUp : (w.wr .PWR_STAT_MODE 2).rd .PWR_STAT_MODE = 2 := (State.rd_wr_self ..).trans (by decide)
    have still : (w.wr .PWR_STAT_MODE 2).rd .SPE_STAT_STATE = 1 := by simpa using measures
    have below : (w.wr .PWR_STAT_MODE 2).rd .SPE_STAT_ATSPD = 0 := by simpa using slow
    exact (State.refreshMode_measures (s := (w.wr .PWR_STAT_MODE 2).modRequest r fun q => { q with started := true })
      still below (.inr spinUp)).trans spinUp

theorem State.mgmtSpinStop_mode (free : s.speBusy = false) (known : r.param 1 ≤ 1) (streams : s.host.streams = []) :
    (s.mgmtSpinStop r).rd .SPE_CTRL_STOPMODE = r.param 1 := by
  have armed : s.streamsArmed = false := by simp [State.streamsArmed, streams]
  simp only [State.mgmtSpinStop, free, armed, if_neg (Nat.not_lt.2 known), Bool.false_eq_true, if_false]
  rw [(State.beginRequest_keeps r).rd .SPE_CTRL_STOPMODE _ (by decide)]
  have written : (s.wr .SPE_CTRL_STOPMODE (r.param 1)).rd .SPE_CTRL_STOPMODE = r.param 1 := by
    rw [State.rd_wr_self]
    exact Nat.mod_eq_of_lt (Nat.lt_succ_of_le known)
  split
  · rw [(State.goStandby_after (.refl _) (Nat.or_self _) (Nat.or_self _)).rd .SPE_CTRL_STOPMODE _ (by decide), written]
  · rw [(State.speStopOp_after (.refl _) (Nat.or_self _) (Nat.or_self _)).rd .SPE_CTRL_STOPMODE _ (by decide), written]

theorem State.capoArm_armed (off : s.capoState = 0) (speed : s.isSet .SPE_STAT_ATSPD = true) (input : s.rd .CAPO_CTRL_SRC < 2)
    (whole : (wedgesPerFrame s.capoM s.capoN s.capoFdiv).isSome = true) :
    s.capoArm.2.rd .CAPO_STAT_STATE = 1 ∧ s.capoArm.2.rd .CAPO_FRAMECNT_COUNT = 0 := by
  have state : ¬(s.capoState != 0) = true := by simp [off]
  have turns : ¬(!s.isSet .SPE_STAT_ATSPD) = true := by simp [speed]
  have legal : ¬(decide (s.rd .CAPO_CTRL_SRC ≥ 2) || (wedgesPerFrame s.capoM s.capoN s.capoFdiv).isNone) = true := by
    simp [Option.isSome_iff_ne_none.1 whole, input]
  simp only [State.capoArm, if_neg state, if_neg turns, if_neg legal]
  simp [State.setCapoState, State.restartMeasure]

theorem State.capoArm_ratio : s.capoArm.2.rd .CAPO_RATIO_M1 = s.rd .CAPO_RATIO_M1 :=
  (State.capoArm_after (.refl s) (Nat.or_self _) (Nat.or_self _)).rd .CAPO_RATIO_M1 _ (by decide)

theorem State.mgmtCapoArm_armed (off : s.capoState = 0) (speed : s.isSet .SPE_STAT_ATSPD = true) (input : r.param 3 % 4 < 2)
    (whole : (wedgesPerFrame (r.param 1 % 4096 + 1) (r.param 1 / 65536 % 4096 + 1) (r.param 2 % 65536 + 1)).isSome = true) :
    (s.mgmtCapoArm r).rd .CAPO_STAT_STATE = 1 ∧ (s.mgmtCapoArm r).rd .CAPO_RATIO_M1 = r.param 1 % 4096 ∧
      (s.mgmtCapoArm r).rd .CAPO_FRAMECNT_COUNT = 0 ∧ RequestGone (s.mgmtCapoArm r) r := by
  let v := (((((s.wr .CAPO_CTRL_SRC (r.param 3)).wr .CAPO_CTRL_EDGE (r.param 3 / 4)).wr .CAPO_RATIO_M1 (r.param 1)).wr .CAPO_RATIO_N1
    (r.param 1 / 65536)).wr .CAPO_FRAME_FDIV1 (r.param 2))
  have acts : s.mgmtCapoArm r = v.capoArm.2.reply r v.capoArm.1 0 0 [v.capoArm.2.peekReg .capo 0 0x20] := by
    have stopped : (s.capoState == 0) = true := by simp [off]
    rw [State.mgmtCapoArm, stopped, State.when_true]
  have state : v.capoState = 0 := by simpa [v, State.capoState] using off
  have turns : v.isSet .SPE_STAT_ATSPD = true := by simpa [v, State.isSet] using speed
  have source : v.rd .CAPO_CTRL_SRC = r.param 3 % 4 := by simp [v]
  have ratio : v.rd .CAPO_RATIO_M1 = r.param 1 % 4096 := by simp [v]
  have terms : v.capoM = r.param 1 % 4096 + 1 ∧ v.capoN = r.param 1 / 65536 % 4096 + 1 ∧ v.capoFdiv = r.param 2 % 65536 + 1 := by
    simp [v, State.capoM, State.capoN, State.capoFdiv]
  obtain ⟨m, n, fdiv⟩ := terms
  obtain ⟨armed, count⟩ := State.capoArm_armed state turns (by rwa [source]) (by rwa [m, n, fdiv])
  rw [acts]
  refine ⟨?_, ?_, ?_, State.reply_gone _ _ _ _ _ _⟩
  · rw [State.reply_rd, armed]
  · rw [State.reply_rd, State.capoArm_ratio, ratio]
  · rw [State.reply_rd, count]

theorem State.mgmtCapoArm_locked (on : s.capoState ≠ 0) : (s.mgmtCapoArm r).rd .CAPO_STAT_CFG_LOCKED = 1 ∧
    (s.mgmtCapoArm r).rd .CAPO_RATIO_M1 = s.rd .CAPO_RATIO_M1 ∧ RequestGone (s.mgmtCapoArm r) r := by
  have refused : (s.capoState != 0) = true := by simp [on]
  have acts : s.mgmtCapoArm r = s.capoArm.2.reply r s.capoArm.1 0 0 [s.capoArm.2.peekReg .capo 0 0x20] := by
    have runs : (s.capoState == 0) = false := by simp [on]
    rw [State.mgmtCapoArm, runs, State.when_false]
  rw [acts]
  refine ⟨?_, ?_, State.reply_gone _ _ _ _ _ _⟩
  · rw [State.reply_rd, State.capoArm, if_pos refused]
    exact (State.rd_flag_self ..).trans (by decide)
  · rw [State.reply_rd, State.capoArm_ratio]

theorem State.capoDisarm_coasting (on : s.capoState ≠ 0) : s.capoDisarm.capo.coasting = (s.capo.a != 0) := by
  have acts : (s.capoState != 0) = true := by simp [on]
  rw [State.capoDisarm, acts, State.when_true]
  have rate : (s.enterCapo 0).capo = s.capo := s.enterCapo_capo 0
  let v := ((s.enterCapo 0).modCapo fun c => { c with offset := 0, coasting := true, phaseStage := false, lockFrames := 0 }).loadSetpt
  have turns : v.capo.a = s.capo.a := by
    change (s.enterCapo 0).capo.a = _
    rw [rate]
  have coasts : v.capo.coasting = true := rfl
  change (v.when (v.capo.a == 0) fun s => ({ s with capo := { s.capo with coasting := false } } : State).capoReleaseAll).capo.coasting = _
  generalize v = w at turns coasts
  have released (v : State) : v.capoReleaseAll.capo.coasting = v.capo.coasting := by
    simp [State.capoReleaseAll, State.capoWinh, Str.all, State.releaseCapoInhibit, State.refreshInh]
  rw [turns]
  by_cases zero : s.capo.a = 0
  · simp [zero, released]
  · have turning : (s.capo.a == 0) = false := by simpa using zero
    rw [turning, State.when_false, coasts]
    simp [zero]

/-! ### Heads (R98, R110) -/

/-- The mask of one String names it alone. -/
theorem named_bit (x : Str) : (Str.all.filter fun y => x.bit.testBit y.num) = [x] := by cases x <;> decide

theorem State.sceLoad_state (unloaded : s.sceState x = 0) (accepted : (s.sceLoad x).1 = .ok) : (s.sceLoad x).2.rd .SCEx_STAT_STATE x.ix = 1 := by
  have k {v : State} : Keeps (allBut [.SCEx_STAT_STATE]) everyPart v ((((v.refreshCyc x).assertWinh x).svdSearch x).aeLoad x) :=
    State.aeLoad_after (State.svdSearch_after (State.assertWinh_after (State.refreshCyc_after (.refl v) (by decide) (by decide))
      (by decide) (by decide)) (by decide) (by decide)) (by decide) (by decide)
  have state : ¬(s.sceState x != 0) = true := by simp [unloaded]
  unfold State.sceLoad at accepted ⊢
  rw [if_neg state] at accepted ⊢
  split at accepted
  · cases accepted
  · next turns =>
    rw [if_neg turns]
    split at accepted
    · cases accepted
    · next heads =>
      rw [if_neg heads]
      split at accepted
      · cases accepted
      · next tables =>
        rw [if_neg tables]
        dsimp only
        rw [k.rd .SCEx_STAT_STATE _ (by decide)]
        exact (State.rd_wr_self ..).trans (by decide)

theorem State.mgmtLoad_state (target : r.target = x.bit) (unloaded : s.sceState x = 0) (accepted : (s.sceLoad x).1 = .ok) :
    (s.mgmtLoad r).rd .SCEx_STAT_STATE x.ix = 1 := by
  have loaded := State.sceLoad_state unloaded accepted
  rcases loads : s.sceLoad x with ⟨st, v⟩
  rw [loads] at accepted loaded
  obtain rfl : st = .ok := accepted
  have one : State.loadOne (s, 0, 0, .ok) x = (v, 0 + x.bit, 0, .ok) := by
    simp only [State.loadOne, unloaded, if_true, loads]
  simp only [State.mgmtLoad, target, named_bit, List.foldl_cons, List.foldl_nil, one]
  have k {w : State} {f : CiborRequest → CiborRequest} : Keeps (maskOf [.PWR_STAT_MODE, .PWR_STAT_SUB]) everyPart w (w.modRequest r f).refreshMode :=
    State.refreshMode_after (.with_bur (.refl w) (by decide)) (by decide) (by decide)
  rw [k.rd .SCEx_STAT_STATE _ (by decide), loaded]

theorem State.mgmtUnload_state (target : r.target = x.bit) (above : 1 ≤ s.sceState x) (below : s.sceState x ≤ 4) :
    (s.mgmtUnload r).rd .SCEx_STAT_STATE x.ix = 5 := by
  simp only [State.mgmtUnload, target, named_bit, List.foldl_cons, List.foldl_nil]
  have k {w : State} {f : CiborRequest → CiborRequest} : Keeps (maskOf [.PWR_STAT_MODE, .PWR_STAT_SUB]) everyPart w (w.modRequest r f).refreshMode :=
    State.refreshMode_after (.with_bur (.refl w) (by decide)) (by decide) (by decide)
  rw [k.rd .SCEx_STAT_STATE _ (by decide)]
  exact State.requestRetract_state .planned above below

theorem State.mgmtBank_switched (one : oneString r.target = some x) (opened : s.isSet .SCEx_STAT_LOOP_OPEN x.ix = true)
    (valid : s.tableValid x (1 - s.rd .SCEx_STAT_ACTBANK x.ix) = true) :
    (s.mgmtBank r).rd .SCEx_STAT_ACTBANK x.ix = 1 - s.rd .SCEx_STAT_ACTBANK x.ix ∧
      Replied s (s.mgmtBank r) r (replyBytes r 0 0 0 [] []) := by
  let v := ((s.wr .SCEx_STAT_ACTBANK (1 - s.rd .SCEx_STAT_ACTBANK x.ix) x.ix).unflag .SCEx_STAT_FALLBACK x.ix).unflag .SCEx_STAT_FB_PEND x.ix
  have kept : Keeps (maskOf [.SCEx_CYC_MAND]) 0 v (v.refreshCyc x) := State.refreshCyc_after (.refl v) (by decide) (by decide)
  have acts : s.mgmtBank r = (v.refreshCyc x).reply r .ok := by
    simp only [State.mgmtBank, one, State.bankSwitch, opened, valid, Bool.not_true, Bool.false_eq_true, if_false]
    rfl
  rw [acts]
  refine ⟨?_, State.reply_replied (congrArg HostState.cmds (kept.parts .host rfl)) .ok 0 0 [] []⟩
  rw [State.reply_rd, kept.rd .SCEx_STAT_ACTBANK _ (by decide)]
  simp [v]

theorem State.mgmtBank_locked (one : oneString r.target = some x) (closed : s.isSet .SCEx_STAT_LOOP_OPEN x.ix = false) :
    (s.mgmtBank r).rd .SCEx_STAT_ACTBANK x.ix = s.rd .SCEx_STAT_ACTBANK x.ix ∧
      Replied s (s.mgmtBank r) r (replyBytes r (CStat.code .cfgLocked) 0 0 [] []) := by
  have acts : s.mgmtBank r = (s.flag .SCEx_STAT_CFG_LOCKED x.ix).reply r .cfgLocked := by
    simp only [State.mgmtBank, one, State.bankSwitch, closed, Bool.not_false, if_true]
  rw [acts]
  refine ⟨?_, State.reply_replied (s := s.flag .SCEx_STAT_CFG_LOCKED x.ix) rfl .cfgLocked 0 0 [] []⟩
  rw [State.reply_rd, State.rd_flag_ne _ _ _ _ (by decide)]

end

end Sys2Proof.Machine

/-! PROOF. Proofs/Requests.lean: formats, telemetry, calibration, lanes and cores asked for through Cibor (R202, R398, R443, R378, R195). -/
namespace Sys2Proof.Machine

section
variable {s t u : State} {r : CiborRequest} {x : Str}

/-! ### Media format (R202) -/

theorem State.mgmtFormat_notReady (mode : s.rd .PWR_STAT_MODE ≠ 7) : s.mgmtFormat r = s.reply r .notReady := by
  have refused : (s.mode != 7 || s.power.maintSource != some r.source || !s.host.namespaces.isEmpty
      || Str.all.any (fun x => s.present x && s.sceState x != 0)) = true := by simp [State.mode, mode]
  rw [State.mgmtFormat, if_pos refused]

/-- What installs a format after its records stand leaves each String's. -/
theorem State.installFormat_format (bs : List Nat) (named : (bs.getD 2 0).testBit x.num = true) :
    ((s.installFormat bs).str.get x).format = formatBlock bs x := by
  have records : ((s.withFormat bs).str.get x).format = formatBlock bs x := by
    have same : formatBlock bs x = if (bs.getD 2 0).testBit x.num then formatBlock bs x else StringState.atReset.format := by rw [named]; rfl
    rw [same]
    cases x <;> rfl
  have kept (u : State) : Keeps (allBut []) (partsBut [.str]) u ((List.range 4).foldl (fun s k => s.journal (mediaTableRow k))
      (u.writeHeads.modHost fun h => { h with records := [], bands := [] })) :=
    .foldl (.with_host (State.writeHeads_after (.refl u) (by decide) (by decide)) (by decide)) fun _ _ k =>
      State.journal_after k (by decide) (by decide)
  unfold State.installFormat
  rw [(kept _).parts .str rfl, records]

theorem State.mgmtFormat_installs (mode : s.rd .PWR_STAT_MODE = 7) (mine : s.power.maintSource = some r.source) (empty : s.host.namespaces = [])
    (unloaded : ∀ y, s.present y = true → s.sceState y = 0) (good : s.formatCheck r.payload = none)
    (space : ((s.withFormat r.payload).unitCounts.1 + (s.withFormat r.payload).unitCounts.2) * 2 ^ 29 ≤ 160 * 10 ^ 12)
    (bands : (s.withFormat r.payload).unitCounts.1 + (s.withFormat r.payload).unitCounts.2 ≤ 327680) :
    ∃ results, s.mgmtFormat r = (s.installFormat r.payload).reply r .ok 0 0 results [] := by
  have loaded : Str.all.any (fun x => s.present x && s.sceState x != 0) = false :=
    List.any_eq_false.2 fun y _ => by
      by_cases here : s.present y = true
      · simp [unloaded y here]
      · simp [here]
  have accepted : ¬(s.mode != 7 || s.power.maintSource != some r.source || !s.host.namespaces.isEmpty
      || Str.all.any (fun x => s.present x && s.sceState x != 0)) = true := by simp [State.mode, mode, mine, empty, loaded]
  rw [State.mgmtFormat, if_neg accepted]
  simp only [good]
  rcases counts : (s.withFormat r.payload).unitCounts with ⟨units, shingled⟩
  rw [counts] at space bands
  dsimp only at space bands ⊢
  rw [if_neg (Nat.not_lt.2 space), if_neg (Nat.not_lt.2 bands)]
  exact ⟨_, rfl⟩

/-! ### Telemetry (R398) -/

theorem State.mgmtEvents_replied (some' : r.param 2 ≠ 0) (few : r.param 2 ≤ 128) : Replied s (s.mgmtEvents r) r (replyBytes r 0 0 0 []
    (bytesOf (((s.events.filter fun e => decide (r.param 1 ≤ e.seq)).reverse.take (r.param 2)).flatMap Event.words))) := by
  have range : ¬(decide (r.param 2 = 0) || decide (128 < r.param 2)) = true := by simp [some', Nat.not_lt.2 few]
  simp only [State.mgmtEvents, if_neg range]
  exact State.reply_replied rfl .ok 0 0 [] _

theorem State.telemetryPeriod_page {words : List Nat} (on : s.host.telemetryMs ≠ 0) (awake : s.rd .PWR_STAT_MODE ≠ 0) :
    (s.telemetryPeriod words).host.telemetryReady = true ∧
      (s.telemetryPeriod words).host.telemetry.take s.resourceStatus.length = s.resourceStatus := by
  have due : (s.host.telemetryMs != 0 && s.mode != 0) = true := by simp [State.mode, on, awake]
  rw [State.telemetryPeriod, due, State.when_true]
  exact ⟨rfl, List.take_left' rfl⟩

/-! ### Calibration (R443, R146) -/

theorem runStr_bit (x : Str) : runStr x.bit = x := by cases x <;> rfl

theorem State.calStart_starts {script mask head : Nat} {request entry : Option Nat} (known : script ≤ 7) :
    (s.calStart script mask head request entry).rd .CAL_STAT_BUSY = 1 ∧
      (s.calStart script mask head request entry).rd .CAL_STAT_SCRIPT = script ∧
      ∃ c ∈ (s.calStart script mask head request entry).cal.runs, c.script = script ∧ c.mask = mask ∧ c.request = request := by
  have enters {u : State} {b : Bool} {y : Str} {h : State → Nat} : Keeps (allBut [.CAL_STAT_BUSY, .CAL_STAT_SCRIPT]) (partsBut [.cal]) u
      (u.when b fun s => s.tdEnter y (h s)) := .when (.refl u) fun _ k => State.tdEnter_after k (by decide) (by decide)
  simp only [State.calStart]
  refine ⟨?_, ?_, ?_⟩
  · rw [enters.rd .CAL_STAT_BUSY _ (by decide), State.rd_wr_ne _ _ _ _ _ _ (by decide), State.rd_wr_ne _ _ _ _ _ _ (by decide), State.rd_flag_self]
    rfl
  · rw [enters.rd .CAL_STAT_SCRIPT _ (by decide), State.rd_wr_ne _ _ _ _ _ _ (by decide), State.rd_wr_self]
    exact Nat.mod_eq_of_lt (Nat.lt_of_le_of_lt known (by decide))
  · rw [enters.parts .cal rfl]
    exact ⟨_, List.mem_append.2 (.inr (List.mem_singleton.2 rfl)), rfl, rfl, rfl⟩

/-- A request for a script of one String starts it. -/
theorem State.calRequest_starts {script : Nat} (least : 1 ≤ script) (known : script ≤ 7) (target : r.target % 16 = x.bit)
    (present : s.present x = true) (head : r.target / 16 % 8 < 6) (free : ∀ c ∈ s.cal.runs, c.mask ≠ x.bit)
    (ready : s.calReady script x.bit (r.target / 16 % 8) = true) : s.calRequest r script =
      (s.modRequest r fun q => { q with started := true }).calStart script x.bit (r.target / 16 % 8) (some r.order) none := by
  have one : script ≠ 8 := by omega
  have named : (decide (x.bit = 1) || decide (x.bit = 2) || decide (x.bit = 4) || decide (x.bit = 8)) = true := by cases x <;> decide
  have alone : (s.cal.runs.any fun c => c.mask == x.bit) = false := List.any_eq_false.2 fun c mem => by simpa using free c mem
  simp only [State.calRequest, if_neg one, target, named, runStr_bit, present, alone, ready]
  simp [least, Nat.le_succ_of_le known, Nat.not_le.2 head]

theorem State.calRequest_busy (busy : ∃ c ∈ s.cal.runs, c.mask = 0) : s.calRequest r 8 = s.reply r .busy := by
  have runs : (s.cal.runs.any fun c => c.mask == 0) = true := by
    obtain ⟨c, mem, shared⟩ := busy
    exact List.any_eq_true.2 ⟨c, mem, by simp [shared]⟩
  simp [State.calRequest, onHead, runs]

/-! ### Lanes (R195, R198) -/

theorem State.harpRetire_retired {lane : Nat} (least : lane < 32) (idle : s.laneJob lane = .idle) :
    (s.harpRetire lane).bit .HARP_RETIRED_LANES lane = true := by
  have kept : (s.wr .HARP_CTRL_RLANE lane).bit .HARP_RETIRED_LANES lane = s.bit .HARP_RETIRED_LANES lane := by
    rw [State.bit, State.rd_wr_ne _ _ _ _ _ _ (by decide), State.bit]
  by_cases retired : s.bit .HARP_RETIRED_LANES lane = true
  · rw [State.harpRetire, if_pos (kept.trans retired), kept, retired]
  · rw [State.harpRetire_idle (by simpa using retired) idle]
    exact (State.retireLane_effect 3 least (by decide)).1

theorem State.harpUnretire_tests {lane : Nat} (least : lane < 32) (maintenance : s.rd .PWR_STAT_MODE = 7) (idle : s.laneJob lane = .idle) :
    ∃ u, s.harpUnretire lane = (.ok, u) ∧ u.bit .HARP_RETIRED_LANES lane = false ∧ u.bit .HARP_WDRAWN_LANES lane = true := by
  have mode : ¬((s.wr .HARP_CTRL_RLANE lane).mode != 7) = true := by
    have same : (s.wr .HARP_CTRL_RLANE lane).mode = s.rd .PWR_STAT_MODE := State.rd_wr_ne _ _ _ _ _ _ (by decide)
    simp [same, maintenance]
  let v := ((s.wr .HARP_CTRL_RLANE lane).setStrikes lane 0).unflagBit .HARP_RETIRED_LANES lane
  have lanes : v.harp = s.harp := (State.setStrikes_after (.refl (s.wr .HARP_CTRL_RLANE lane)) (Nat.or_self _) (Nat.or_self _)).parts .harp rfl
  have job : v.laneJob lane = .idle := by rw [State.laneJob, lanes]; exact idle
  have acts : s.harpUnretire lane = (.ok, v.startSelfTest lane) := by
    simp only [State.harpUnretire, if_neg mode]
    split
    · rfl
    · next other => exact absurd job other
  have refreshed {w : State} : Keeps (allBut [.HARP_RETIRED_LANES, .HARP_WDRAWN_LANES]) everyPart w w.harpRefresh :=
    State.harpRefresh_after (.refl w) (by decide) (by decide)
  refine ⟨_, acts, ?_, ?_⟩
  · rw [State.bit, (State.startSelfTest_after (.refl v) (Nat.or_self _) (Nat.or_self _)).rd .HARP_RETIRED_LANES _ (by decide),
      State.testBit_unflagBit _ _ _ _ _ least, if_pos rfl]
  · rw [State.bit, State.startSelfTest, refreshed.rd .HARP_WDRAWN_LANES _ (by decide)]
    exact (State.testBit_flagBit v .HARP_WDRAWN_LANES lane 0 lane least).trans (if_pos rfl)

/-! ### Cores (R378, R399) -/

theorem State.mgmtCoreUnretire_tests (core : r.param 1 ≤ 15) (maintenance : s.rd .PWR_STAT_MODE = 7) (retired : s.coreState (r.param 1) = 3) :
    (s.mgmtCoreUnretire r).coreState (r.param 1) = 2 := by
  have mode : ¬(s.mode != 7) = true := by simp [State.mode, maintenance]
  have place : 4 * (r.param 1 / 4) + r.param 1 % 4 = r.param 1 := Nat.div_add_mod _ 4
  have acts : s.mgmtCoreUnretire r = (s.coreTest (r.param 1)).beginRequest r := by
    have tests := foldl_one_core (s := s) (f := fun s j => s.coreTest (4 * (r.param 1 / 4) + j)) (k := r.param 1 % 4) (Nat.mod_lt _ (by decide))
    rw [place] at tests
    simp only [State.mgmtCoreUnretire, if_neg (Nat.not_lt.2 core), State.coreUnretireMask, if_neg mode, tests]
  rw [acts, State.coreState_of_rd (fun i => (State.beginRequest_keeps r).rd .BURn_STAT_STATE i (by decide)), State.coreTest_state retired]

theorem State.mgmtCoreRetire_retired (core : r.param 1 ≤ 15) (others : s.lastCore (r.param 1) = false) (serves : s.coreState (r.param 1) = 0) :
    (s.mgmtCoreRetire r).coreState (r.param 1) = 3 ∧ RequestGone (s.mgmtCoreRetire r) r := by
  have accepted : ¬(decide (15 < r.param 1) || s.lastCore (r.param 1)) = true := by simp [others, Nat.not_lt.2 core]
  simp only [State.mgmtCoreRetire, if_neg accepted]
  refine ⟨?_, State.reply_gone _ _ _ _ _ _⟩
  rw [State.coreState_of_rd (fun i => State.reply_rd .BURn_STAT_STATE i), State.coreRetire_out (Nat.lt_succ_of_le core) serves others]
  exact (State.coreOut_effect 4).1

end

end Sys2Proof.Machine

/-! PROOF. Proofs/Answers.lean: what each Cibor opcode answers once its turn has come (R391). -/
namespace Sys2Proof.Machine

/-- Settles O38. -/
theorem managementEffects : Obligations.ManagementEffects := by
  unfold Obligations.ManagementEffects
  refine ⟨fun s source tag r due => ⟨_, rfl, ?_⟩, fun s source tag r ws due some' few words => ⟨_, rfl, ?_⟩,
    fun s source tag r due range => ⟨_, rfl, ?_⟩, fun s source tag outcome r due refused => ⟨_, rfl, ?_⟩,
    fun s source tag outcome r due block allowed free => ⟨_, rfl, ?_⟩, fun s source tag r due last words places => ⟨_, rfl, ?_⟩,
    fun s source tag r due more => ⟨_, rfl, ?_⟩, fun s source tag r due asks allowed streams quiet mode => ⟨_, rfl, ?_⟩,
    fun s source tag r due asks denied => ⟨_, rfl, ?_⟩, fun s source tag r due closed idle => ⟨_, rfl, ?_⟩,
    fun s source tag r due open' => ⟨_, rfl, ?_⟩, fun s source tag r due => ⟨_, rfl, ?_⟩,
    fun s source tag n r due maker pairs few => ⟨_, rfl, ?_⟩, fun s source tag r due other => ⟨_, rfl, ?_⟩,
    fun s source tag r due free cool off least most charged runs => ⟨_, rfl, ?_⟩,
    fun s source tag r due free known streams => ⟨_, rfl, ?_⟩, fun s source tag r due off speed input whole => ⟨_, rfl, ?_⟩,
    fun s source tag r due on => ⟨_, rfl, ?_⟩, fun s source tag r due on => ⟨_, rfl, ?_⟩,
    fun s source tag r x due target unloaded accepted => ⟨_, rfl, ?_⟩, fun s source tag r x due target above below => ⟨_, rfl, ?_⟩,
    fun s source tag r x due one opened valid => ⟨_, rfl, ?_⟩, fun s source tag r x due one closed => ⟨_, rfl, ?_⟩,
    fun s source tag r due mode => ⟨_, rfl, ?_⟩, fun s source tag r x due mode mine empty unloaded good space bands named => ⟨_, rfl, ?_⟩,
    fun s source tag r due => ⟨_, rfl, ?_⟩, fun s source tag r due some' few => ⟨_, rfl, ?_⟩,
    fun s source tag r x due least known target present head free ready => ⟨_, rfl, ?_⟩,
    fun s source tag r due shared busy => ⟨_, rfl, ?_⟩, fun s source tag r x due target present head free ready => ⟨_, rfl, ?_⟩,
    fun s source tag r due lane idle => ⟨_, rfl, ?_⟩, fun s source tag r due lane maintenance idle => ⟨_, rfl, ?_⟩,
    fun s source tag r due lane other => ⟨_, rfl, ?_⟩, fun s source tag r due core others serves => ⟨_, rfl, ?_⟩,
    fun s source tag r due last => ⟨_, rfl, ?_⟩, fun s source tag r due core maintenance retired => ⟨_, rfl, ?_⟩,
    fun s words on awake => ⟨_, rfl, State.telemetryPeriod_page on awake⟩,
    fun s c storing => ⟨_, rfl, State.configStored_effect storing⟩⟩
  · rw [State.cibor_due due rfl]
    exact ⟨_, _, State.reply_replied (s := s.drawn) rfl .ok 0 0 _ _⟩
  · rw [State.cibor_due due rfl]
    exact State.mgmtRead_replied some' few words
  · rw [State.cibor_due due rfl]
    exact State.mgmtRead_range range
  · rw [State.cibor_due due rfl]
    exact State.mgmtWrite_refused refused
  · rw [State.cibor_due due rfl]
    exact State.mgmtWrite_gone block allowed free
  · rw [State.cibor_last due last]
    exact State.mgmtTable_replied words places
  · have segment : s.cibor 0x0112 source tag State.mgmtTable = s.reply r .ok := by simp only [State.cibor, due, more]; rfl
    rw [segment]
    exact State.reply_replied rfl .ok 0 0 [] []
  · rw [State.cibor_due due rfl]
    exact State.mgmtMode_maintenance asks allowed streams quiet mode
  · rw [State.cibor_due due rfl]
    exact State.mgmtMode_denied asks denied
  · rw [State.cibor_due due rfl]
    exact State.mgmtCommit_stores closed idle
  · rw [State.cibor_due due rfl]
    exact State.mgmtCommit_busy open'
  · rw [State.cibor_due due rfl]
    exact State.mgmtReadback_replied
  · rw [State.cibor_due due rfl]
    exact State.mgmtAllow_set maker pairs few
  · rw [State.cibor_due due rfl]
    exact State.mgmtAllow_denied other
  · rw [State.cibor_due due rfl]
    exact State.mgmtSpinStart_effect free cool off least most charged runs
  · rw [State.cibor_due due rfl]
    exact State.mgmtSpinStop_mode free known streams
  · rw [State.cibor_due due rfl]
    exact State.mgmtCapoArm_armed off speed input whole
  · rw [State.cibor_due due rfl]
    exact State.mgmtCapoArm_locked on
  · rw [State.cibor_due due rfl]
    refine ⟨?_, ?_, State.reply_gone _ _ _ _ _ _⟩
    · rw [State.reply_rd, (State.capoDisarm_effect on).1]
    · exact (congrArg Capo.coasting (State.reply_keeps.parts .capo rfl)).trans (State.capoDisarm_coasting on)
  · rw [State.cibor_due due rfl]
    exact State.mgmtLoad_state target unloaded accepted
  · rw [State.cibor_due due rfl]
    exact State.mgmtUnload_state target above below
  · rw [State.cibor_due due rfl]
    exact State.mgmtBank_switched one opened valid
  · rw [State.cibor_due due rfl]
    exact State.mgmtBank_locked one closed
  · rw [State.cibor_due due rfl, State.mgmtFormat_notReady mode]
    exact ⟨State.reply_replied rfl .notReady 0 0 [] [], fun x => by rw [State.reply_keeps.parts .str rfl]⟩
  · obtain ⟨results, acts⟩ := State.mgmtFormat_installs mode mine empty unloaded good space bands
    rw [State.cibor_due due rfl, acts]
    refine ⟨?_, State.reply_gone _ _ _ _ _ _⟩
    rw [State.reply_keeps.parts .str rfl, State.installFormat_format _ named]
  · rw [State.cibor_due due rfl]
    exact State.reply_replied rfl .ok 0 0 [] _
  · rw [State.cibor_due due rfl]
    exact State.mgmtEvents_replied some' few
  · rw [State.cibor_due due rfl, State.calRequest_starts least known target present head free ready]
    exact State.calStart_starts known
  · rw [State.cibor_due due rfl, shared, State.calRequest_busy busy]
    exact State.reply_replied rfl .busy 0 0 [] []
  · rw [State.cibor_due due rfl, State.calRequest_starts (by decide) (by decide) target present head free ready]
    exact (State.calStart_starts (by decide)).2
  · rw [State.cibor_due due rfl, State.mgmtLaneRetire, if_neg (Nat.not_lt.2 lane)]
    refine ⟨?_, State.reply_gone _ _ _ _ _ _⟩
    rw [State.reply_rd]
    exact State.harpRetire_retired (Nat.lt_succ_of_le lane) idle
  · obtain ⟨u, acts, retired, withdrawn⟩ := State.harpUnretire_tests (Nat.lt_succ_of_le lane) maintenance idle
    have begins := State.beginRequest_keeps (s := u) r
    rw [State.cibor_due due rfl, State.mgmtLaneUnretire, if_neg (Nat.not_lt.2 lane), acts]
    dsimp only
    rw [begins.rd .HARP_RETIRED_LANES _ (by decide), begins.rd .HARP_WDRAWN_LANES _ (by decide)]
    exact ⟨retired, withdrawn⟩
  · have acts : s.harpUnretire (r.param 1) = (.cfgLocked, (s.wr .HARP_CTRL_RLANE (r.param 1)).flag .HARP_STAT_CFG_LOCKED) := by
      have mode : (s.wr .HARP_CTRL_RLANE (r.param 1)).mode = s.rd .PWR_STAT_MODE := State.rd_wr_ne _ _ _ _ _ _ (by decide)
      rw [State.harpUnretire, if_pos (by simpa [mode] using other)]
    rw [State.cibor_due due rfl, State.mgmtLaneUnretire, if_neg (Nat.not_lt.2 lane), acts]
    dsimp only
    rw [State.reply_rd]
    exact ⟨State.rd_flag_self .., State.reply_replied (s := (s.wr .HARP_CTRL_RLANE (r.param 1)).flag .HARP_STAT_CFG_LOCKED) rfl .cfgLocked
      0 0 [] []⟩
  · rw [State.cibor_due due rfl]
    exact State.mgmtCoreRetire_retired core others serves
  · have refused : (decide (15 < r.param 1) || s.lastCore (r.param 1)) = true := by simp [last]
    rw [State.cibor_due due rfl, State.mgmtCoreRetire, if_pos refused]
    exact State.reply_replied rfl .cfgRange 0 0 [] []
  · rw [State.cibor_due due rfl]
    exact State.mgmtCoreUnretire_tests core maintenance retired

end Sys2Proof.Machine

/-! PROOF. Proofs/Commands.lean: what the model's operations leave of the commands in flight (R266, R268 to R274). -/
namespace Sys2Proof.Machine

section
variable {s t u : State} {f : Nat} {c d e : Cmd}

/-- A command later on: what the host asked is as before, its blocks are those blocks, and once started it stays so. -/
def Cmd.Onward (c d : Cmd) : Prop :=
  (d.fseq = c.fseq ∧ d.hqe = c.hqe ∧ d.sqid = c.sqid ∧ d.cid = c.cid ∧ d.nsid = c.nsid ∧ d.op = c.op) ∧ d.lbas = c.lbas ∧
    (c.started = true → d.started = true)

theorem Cmd.Onward.refl (c : Cmd) : c.Onward c := ⟨⟨rfl, rfl, rfl, rfl, rfl, rfl⟩, rfl, id⟩

theorem Cmd.Onward.trans (h : c.Onward d) (k : d.Onward e) : c.Onward e := by
  obtain ⟨⟨a1, a2, a3, a4, a5, a6⟩, lbas, started⟩ := h
  obtain ⟨⟨b1, b2, b3, b4, b5, b6⟩, lbas', started'⟩ := k
  exact ⟨⟨b1.trans a1, b2.trans a2, b3.trans a3, b4.trans a4, b5.trans a5, b6.trans a6⟩, lbas'.trans lbas, started' ∘ started⟩

theorem Cmd.Onward.fseq (h : c.Onward d) : d.fseq = c.fseq := h.1.1

/-- What becomes of a command that keeps what the host asked, its blocks and its start. -/
theorem Cmd.Onward.of_fields (h : (d.fseq, d.hqe, d.sqid, d.cid, d.nsid, d.op) = (c.fseq, c.hqe, c.sqid, c.cid, c.nsid, c.op))
    (blocks : d.lbas = c.lbas) (started : d.started = c.started) : c.Onward d := by
  simp only [Prod.mk.injEq] at h
  exact ⟨h, blocks, fun on => started.trans on⟩

theorem Cmd.Onward.ite {p : Prop} [Decidable p] (h : c.Onward d) : c.Onward (if p then d else c) := by
  split
  · exact h
  · exact .refl c

theorem Cmd.Onward.settled (c : Cmd) : c.Onward c.settled := by
  unfold Cmd.settled
  split
  · exact .of_fields rfl rfl rfl
  · exact .refl c

theorem Cmd.Onward.setBlock (c : Cmd) (lba : Nat) (b : BlockState) : c.Onward (c.setBlock lba b) := by
  refine .of_fields rfl ?_ rfl
  simp only [Cmd.lbas, Cmd.setBlock, List.map_map]
  refine List.map_congr_left fun e _ => ?_
  simp only [Function.comp_apply]
  split
  · next same => exact same.symm
  · rfl

theorem Cmd.Onward.receive (c : Cmd) (lba data : Nat) (page : Option Str) : c.Onward (c.receive lba data page) := by
  unfold Cmd.receive
  split
  · exact (Cmd.Onward.setBlock c lba _).trans (.settled _)
  · exact (Cmd.Onward.setBlock c lba _).trans (.settled _)
  · obtain ⟨asked, blocks, started⟩ := Cmd.Onward.setBlock c lba .held
    exact ⟨asked, blocks, started⟩

/-! ### Each command of its own accord -/

/-- Every command went on by one rule; none came and none went. -/
def CmdsMapped (s t : State) : Prop := ∃ g : Cmd → Cmd, (∀ c : Cmd, c.Onward (g c)) ∧ t.host.cmds = s.host.cmds.map g

theorem CmdsMapped.refl (s : State) : CmdsMapped s s := ⟨id, Cmd.Onward.refl, (List.map_id _).symm⟩

theorem CmdsMapped.trans (h : CmdsMapped s t) (k : CmdsMapped t u) : CmdsMapped s u := by
  obtain ⟨g, onward, cmds⟩ := h
  obtain ⟨g', onward', cmds'⟩ := k
  exact ⟨g' ∘ g, fun c => (onward c).trans (onward' _), by rw [cmds', cmds, List.map_map]⟩

theorem CmdsMapped.of_cmds (h : CmdsMapped s t) (same : u.host.cmds = t.host.cmds) : CmdsMapped s u := by
  rw [CmdsMapped, same]
  exact h

theorem CmdsMapped.of_host (h : CmdsMapped s t) (same : u.host = t.host) : CmdsMapped s u := h.of_cmds (congrArg HostState.cmds same)

theorem CmdsMapped.when {b : Bool} {g : State → State} (h : CmdsMapped s t) (k : ∀ u, CmdsMapped s u → CmdsMapped s (g u)) :
    CmdsMapped s (t.when b g) := by
  cases b
  · exact h
  · exact k t h

theorem CmdsMapped.foldl {α : Type} {g : State → α → State} (l : List α) (h : CmdsMapped s t)
    (k : ∀ u a, CmdsMapped s u → CmdsMapped s (g u a)) : CmdsMapped s (l.foldl g t) :=
  List.foldlRecOn l g h fun u holds a _ => k u a holds

theorem CmdsMapped.modCmd {g : Cmd → Cmd} (h : CmdsMapped s t) (f : Nat) (onward : ∀ c : Cmd, c.Onward (g c)) : CmdsMapped s (t.modCmd f g) := by
  refine h.trans ⟨fun c => if c.fseq == f then g c else c, fun c => ?_, rfl⟩
  exact .ite (onward c)

theorem CmdsMapped.finish (h : CmdsMapped s t) (f : Nat) (st : NvStatus) (dw0 dw1 : Nat) : CmdsMapped s (t.finish f st dw0 dw1) :=
  h.modCmd f fun _ => ⟨⟨rfl, rfl, rfl, rfl, rfl, rfl⟩, rfl, fun _ => rfl⟩

theorem CmdsMapped.settleWaits (h : CmdsMapped s t) : CmdsMapped s t.settleWaits := by
  refine h.trans ⟨_, fun c => ?_, rfl⟩
  dsimp only
  split
  · exact .refl c
  · split
    · exact .of_fields rfl rfl rfl
    · split
      · exact .refl c
      · exact .trans (.of_fields rfl rfl rfl) (.settled _)

theorem CmdsMapped.hostEvent (h : CmdsMapped s t) (k type info : Nat) : CmdsMapped s (t.hostEvent k type info) := by
  unfold State.hostEvent
  dsimp only
  split
  · next e _ =>
    refine h.trans ⟨fun c => if c.fseq == e.fseq then { c with ready := some (.success, eventDword type info, 0) } else c, fun c => ?_, rfl⟩
    exact .ite (.of_fields rfl rfl rfl)
  · exact h.of_cmds rfl

theorem CmdsMapped.vendorEvent (h : CmdsMapped s t) (info : Nat) (who : Nat → Bool) : CmdsMapped s (t.vendorEvent info who) :=
  .foldl _ (h.of_cmds rfl) fun _ k holds => .when holds fun _ holds => holds.hostEvent k 7 info

theorem CmdsMapped.found (h : CmdsMapped s t) (found : s.findCmd f = some c) : ∃ d, t.findCmd f = some d ∧ c.Onward d := by
  obtain ⟨g, onward, cmds⟩ := h
  refine ⟨g c, ?_, onward c⟩
  have same : ((fun c : Cmd => c.fseq == f) ∘ g) = fun c => c.fseq == f := funext fun c => congrArg (· == f) (onward c).fseq
  rw [State.findCmd, cmds, List.find?_map, same]
  exact congrArg (Option.map g) found

theorem CmdsMapped.absent (h : CmdsMapped s t) (absent : s.findCmd f = none) : t.findCmd f = none := by
  obtain ⟨g, onward, cmds⟩ := h
  have same : ((fun c : Cmd => c.fseq == f) ∘ g) = fun c => c.fseq == f := funext fun c => congrArg (· == f) (onward c).fseq
  rw [State.findCmd, cmds, List.find?_map, same]
  exact congrArg (Option.map g) absent

theorem CmdsMapped.answered (h : CmdsMapped s t) (found : s.findCmd f = some c) (st : NvStatus) (dw0 dw1 : Nat) :
    Answered (t.finish f st dw0 dw1) f = some st := by
  obtain ⟨d, here, _⟩ := h.found found
  exact Answered.finish here st dw0 dw1

/-! ### Replies and modes (R384, R430) -/

theorem CmdsMapped.giveReply (h : CmdsMapped s t) (f numd : Nat) (r : CiborReply) : CmdsMapped s (t.giveReply f numd r) := by
  unfold State.giveReply
  dsimp only
  generalize fits : State.when _ _ _ = u
  have kept : u.host = t.host := by
    rw [← fits, State.when]
    split <;> exact (State.hostData_kept f _).2
  exact CmdsMapped.modCmd (h.of_host kept) f (g := fun c => { c with ready := some (.success, _, 0) }) fun _ => .of_fields rfl rfl rfl

theorem CmdsMapped.reply (h : CmdsMapped s t) (r : CiborRequest) (st : CStat) (d1 d2 : Nat) (results payload : List Nat) :
    CmdsMapped s (t.reply r st d1 d2 results payload) := by
  simp only [State.reply]
  split
  · exact h.of_cmds rfl
  · split
    · refine .when (h.of_cmds rfl) fun u holds => holds.of_host ?_
      exact List.foldlRecOn (motive := fun v : State => v.host = u.host) _ _ rfl fun _ same _ _ => same
    · split
      · exact CmdsMapped.giveReply (t := State.modBur (State.modBur t _) _) (h.of_cmds rfl) _ _ _
      · exact h.of_cmds rfl

theorem CmdsMapped.refreshMode (h : CmdsMapped s t) : CmdsMapped s t.refreshMode := by
  refine CmdsMapped.foldl _ (h.of_host ((State.nextMode_after (.refl t) (Nat.or_self _) (Nat.or_self _)).parts .host rfl)) fun u r holds => ?_
  rcases State.settleOne_cases u r with same | ⟨st, d1, d2, results, payload, replied⟩
  · rwa [same]
  · rw [replied]
    exact holds.reply r st d1 d2 results payload

/-! ### Zones and their writes (R213, R225) -/

theorem CmdsMapped.journal (h : CmdsMapped s t) (row : Nat) : CmdsMapped s (t.journal row) := h.of_host (State.journal_host _ _)

theorem CmdsMapped.setZone {g : Record → Record} (h : CmdsMapped s t) (id : Nat) : CmdsMapped s (t.setZone id g) :=
  CmdsMapped.of_host (h.of_cmds (u := t.modRecord id g) rfl) (State.journal_host _ _)

theorem CmdsMapped.withdrawPlaces (h : CmdsMapped s t) (r : Request) (ps : List Place) : CmdsMapped s (t.withdrawPlaces r ps) := by
  have unissued : CmdsMapped s (t.unissue (t.requestNsid r) (ps.map (·.lba))) :=
    h.of_host ((State.unissue_after (.refl t) (Nat.or_self _) (Nat.or_self _)).parts .host rfl)
  unfold State.withdrawPlaces
  dsimp only
  split
  · exact unissued.of_cmds rfl
  · exact unissued

/-- Of the host's state, withdrawing writes changes what withdrawing their places does. -/
theorem State.withdrawWrites_host (x : Str) (p : Request → Bool) : ∃ l : List Request,
    (s.withdrawWrites x p).host = (l.foldl (fun s r => s.withdrawPlaces r (s.unwritten x r)) s).host := by
  unfold State.withdrawWrites
  dsimp only
  split
  · exact ⟨[], rfl⟩
  · refine ⟨((s.seq x .wsq).queue ++ (s.seq x .wsq).returned).filter p, ?_⟩
    generalize List.foldl _ s _ = u
    have kept {v : State} {n : Nat} : Keeps (maskOf [.SCEx_TGT_SHADOW_PEND, .BRG_USE_CELLS, .SQ_STAT_CBUF, .SQ_STAT_STKD, .SQ_MBOX_CODE,
        .SQ_MBOX_VALID, .SQ_MBOXD_DATA, .SQ_REQ_QUEUED, .SQ_CNT_DEFERRED]) (maskOfParts [.shadow, .str]) v
        (((v.giveCells x n).feed x .wsq).seqIrq x .wsq 0) :=
      State.seqIrq_after (State.feed_after (State.giveCells_after (.refl v) (by decide) (by decide)) (by decide) (by decide))
        (by decide) (by decide)
    rw [kept.parts .host rfl]
    rfl

theorem CmdsMapped.withdrawWrites (h : CmdsMapped s t) (x : Str) (p : Request → Bool) : CmdsMapped s (t.withdrawWrites x p) := by
  have withdrawn (l : List Request) : CmdsMapped s (l.foldl (fun s r => s.withdrawPlaces r (s.unwritten x r)) t) :=
    .foldl l h fun _ r holds => holds.withdrawPlaces r _
  obtain ⟨l, same⟩ := State.withdrawWrites_host (s := t) x p
  exact (withdrawn l).of_host same

theorem CmdsMapped.abandonClean (h : CmdsMapped s t) (id : Nat) : CmdsMapped s (t.abandonClean id) := by
  unfold State.abandonClean
  dsimp only
  split
  · exact h
  · refine CmdsMapped.of_cmds (CmdsMapped.withdrawWrites (h.of_host ?_) _ _) rfl
    exact (State.withdrawReads_after (.refl t) (Nat.or_self _) (Nat.or_self _)).parts .host rfl

theorem CmdsMapped.saveAcc (h : CmdsMapped s t) (x : Str) : CmdsMapped s (t.saveAcc x) := by
  unfold State.saveAcc
  split
  · exact h
  · dsimp only
    split
    · exact h.of_cmds rfl
    · refine CmdsMapped.journal (.foldl _ ?_ fun u _ holds => holds.of_host ?_) _
      · exact h.of_cmds rfl
      · exact (State.chestRow_after (.refl u) (Nat.or_self _) (Nat.or_self _)).parts .host rfl

theorem CmdsMapped.closeZone (h : CmdsMapped s t) (id : Nat) : CmdsMapped s (t.closeZone id) := by
  unfold State.closeZone
  split
  · exact h
  · refine CmdsMapped.setZone ?_ id
    split
    · exact h.saveAcc _
    · exact h

theorem CmdsMapped.implicitOpen (h : CmdsMapped s t) (id : Nat) (r : Record) : CmdsMapped s (t.implicitOpen id r).2 := by
  unfold State.implicitOpen
  dsimp only
  split
  · exact h
  · split
    · exact h
    · split
      · exact h.setZone id
      · split
        · exact h
        · exact (h.closeZone _).setZone id

theorem CmdsMapped.draw (h : CmdsMapped s t) (k : Nat) : CmdsMapped s (t.draw k).2 := by
  have shown {v : State} (holds : CmdsMapped s v) : CmdsMapped s v.slotShow :=
    holds.of_host ((State.slotShow_after (.refl v) (Nat.or_self _) (Nat.or_self _)).parts .host rfl)
  unfold State.draw
  dsimp only
  split
  · refine shown (CmdsMapped.journal ?_ _)
    exact h.of_cmds rfl
  · refine shown (CmdsMapped.when (CmdsMapped.journal ?_ _) fun u holds => CmdsMapped.vendorEvent ?_ _ _)
    · exact h.of_cmds rfl
    · exact holds.of_cmds rfl

theorem CmdsMapped.acceptWrite (h : CmdsMapped s t) (id : Nat) (r : Record) (n : Namespace) (f z k : Nat) :
    CmdsMapped s (t.acceptWrite id r n f z k).2 := by
  unfold State.acceptWrite
  dsimp only
  split
  · exact h
  · have opened := h.implicitOpen id r
    split
    · next refused => rw [refused] at opened; exact opened
    · next v accepted =>
      rw [accepted] at opened
      have touched : CmdsMapped s (v.touchZone id) := opened.abandonClean id
      split
      · exact touched.of_cmds rfl
      · have drawn := touched.draw n.slot
        split
        · next refused => rw [refused] at drawn; exact drawn.setZone id
        · next drew => rw [drew] at drawn; exact (drawn.setZone id).of_cmds rfl

/-! ### Reads and writes of a namespace (R26, R271, R305) -/

theorem CmdsMapped.reach (h : CmdsMapped s t) (c : Cmd) (x : Str) (n : Nat) : CmdsMapped s (t.reach c x n) := by
  unfold State.reach
  split
  · exact h
  · exact .when (h.of_cmds rfl) fun _ holds => holds.modCmd _ fun _ => .of_fields rfl rfl rfl

theorem CmdsMapped.reachWrite (h : CmdsMapped s t) (c : Cmd) (n : Nat) : CmdsMapped s (t.reachWrite c n) := by
  unfold State.reachWrite
  split
  · exact h
  · split
    · split
      · exact h.reach c _ n
      · exact h
    · refine .foldl _ h fun u e holds => ?_
      split
      · exact holds
      · exact holds.reach c _ _

theorem CmdsMapped.joinQueue (h : CmdsMapped s t) (c : Cmd) (n : Nat) : CmdsMapped s (t.joinQueue c n) :=
  h.of_host ((State.joinQueue_after (.refl t) (Nat.or_self _) (Nat.or_self _)).parts .host rfl)

theorem CmdsMapped.takeWrite (h : CmdsMapped s t) (c : Cmd) : CmdsMapped s (t.takeWrite c) := by
  unfold State.takeWrite
  split
  · exact h.finish _ _ _ _
  · next n _ =>
    dsimp only
    split
    · exact (h.reachWrite c _).joinQueue c _
    · next id _ =>
      split
      · exact h.finish _ _ _ _
      · next r _ =>
        have accepted := h.acceptWrite id r n c.fseq (c.first % 131072) c.lbas.length
        split
        · next refused => rw [refused] at accepted; exact accepted.finish _ _ _ _
        · next taken => rw [taken] at accepted; exact (accepted.reachWrite c _).joinQueue c _

theorem CmdsMapped.dropVersions (h : CmdsMapped s t) : CmdsMapped s t.dropVersions := h.of_cmds State.dropVersions_cmds

theorem CmdsMapped.unpin (h : CmdsMapped s t) (f : Nat) : CmdsMapped s (t.unpin f) :=
  CmdsMapped.dropVersions (h.of_cmds (u := t.modVersion f _) rfl)

theorem CmdsMapped.unspill (h : CmdsMapped s t) (f l : Nat) : CmdsMapped s (t.unspill f l) :=
  h.of_host ((State.unspill_after (.refl t) (Nat.or_self _) (Nat.or_self _)).parts .host rfl)

theorem CmdsMapped.releaseCmd (h : CmdsMapped s t) (c : Cmd) : CmdsMapped s (t.releaseCmd c) := by
  refine .foldl _ (.foldl _ h fun u e holds => CmdsMapped.unspill (holds.of_host ?_) _ _) fun u g holds => holds.unpin g
  exact (State.givePage_after (.refl u) (Nat.or_self _) (Nat.or_self _)).parts .host rfl

theorem CmdsMapped.rewriteBand (h : CmdsMapped s t) (x : Str) (band : Nat) (leave : Bool) : CmdsMapped s (t.rewriteBand x band leave) := by
  unfold State.rewriteBand
  split
  · exact h
  · exact h.of_cmds rfl

end

end Sys2Proof.Machine

/-! PROOF. Proofs/Zones.lean: reads, writes and zone commands as they are taken, and what they leave (R208, R213 to R216, R253, R271). -/
namespace Sys2Proof.Machine

section
variable {s t u : State} {f : Nat} {c d : Cmd}

/-- A command whose turn it is is taken. -/
theorem State.take_of_turn (start : CanTake s f c) (g : State → Cmd → State) :
    s.take f g = g (s.modCmd f fun c => { c with started := true }) c := by
  rw [State.take, start.1]
  exact if_pos start.2

theorem CmdsMapped.started (s : State) (f : Nat) : CmdsMapped s (s.modCmd f fun c => { c with started := true }) :=
  (CmdsMapped.refl s).modCmd f fun _ => ⟨⟨rfl, rfl, rfl, rfl, rfl, rfl⟩, rfl, fun _ => rfl⟩

/-! ### Reads (R271, R272) -/

/-- Each command found by its FSEQ is that command later on. -/
def CmdsOnward (s t : State) : Prop := ∀ f, Option.Rel Cmd.Onward (s.findCmd f) (t.findCmd f)

theorem CmdsOnward.trans (h : CmdsOnward s t) (k : CmdsOnward t u) : CmdsOnward s u := by
  intro f
  have first := h f
  have second := k f
  generalize s.findCmd f = a at first
  generalize t.findCmd f = b at first second
  generalize u.findCmd f = e at second
  cases first with
  | none => exact second
  | some onward => cases second with
    | some later => exact .some (onward.trans later)

theorem CmdsMapped.onward (h : CmdsMapped s t) : CmdsOnward s t := by
  intro f
  match found : s.findCmd f with
  | none => rw [h.absent found]; exact .none
  | some c =>
    obtain ⟨d, here, onward⟩ := h.found found
    rw [here]
    exact .some onward

theorem CmdsOnward.mapped (h : CmdsOnward s t) (k : CmdsMapped t u) : CmdsOnward s u := h.trans k.onward

/-- Of the commands only those with that FSEQ are replaced. -/
theorem find_replaced {l : List Cmd} (number : d.fseq = f) (g : Nat) :
    (l.map fun e => if e.fseq == f then d else e).find? (fun e => e.fseq == g) =
      if g = f then (l.find? fun e => e.fseq == g).map fun _ => d else l.find? fun e => e.fseq == g := by
  have keys : ((fun e : Cmd => e.fseq == g) ∘ fun e => if e.fseq == f then d else e) = fun e => e.fseq == g := by
    funext e
    simp only [Function.comp_apply]
    split
    · next mine => rw [number, ← eq_of_beq mine]
    · rfl
  rw [List.find?_map, keys]
  match found : l.find? fun e => e.fseq == g with
  | none => rw [found, Option.map_none, Option.map_none, ite_self]
  | some e =>
    have mine : e.fseq = g := by simpa using List.find?_some found
    rw [found]
    by_cases same : g = f
    · simp [mine, same]
    · simp [mine, same]

theorem State.findCmd_replaced (found : s.findCmd f = some c) (number : d.fseq = f) : (s.modCmd f fun _ => d).findCmd f = some d := by
  refine (find_replaced number f).trans ?_
  rw [if_pos rfl]
  exact congrArg (Option.map fun _ => d) found

/-- One command is replaced by what it has become. -/
theorem CmdsOnward.replaced (h : CmdsOnward s t) (found : t.findCmd f = some c) (onward : c.Onward d) :
    CmdsOnward s (t.modCmd f fun _ => d) := by
  refine h.trans fun g => ?_
  have now : (t.modCmd f fun _ => d).findCmd g = if g = f then (t.findCmd g).map fun _ => d else t.findCmd g :=
    find_replaced (onward.fseq.trans (State.findCmd_fseq found)) g
  rw [now]
  split
  · next mine =>
    rw [mine, found]
    exact .some onward
  · cases t.findCmd g with
    | none => exact .none
    | some e => exact .some (.refl e)

theorem CmdsOnward.givePage (h : CmdsOnward s t) (page : Option Str) : CmdsOnward s (t.givePage page) :=
  h.mapped (.of_host (.refl t) ((State.givePage_after (.refl t) (Nat.or_self _) (Nat.or_self _)).parts .host rfl))

theorem CmdsOnward.receiveBlock (h : CmdsOnward s t) (f lba data : Nat) (page : Option Str) : CmdsOnward s (t.receiveBlock f lba data page) := by
  unfold State.receiveBlock
  split
  · exact h.givePage page
  · next c found =>
    split
    · have received := h.replaced found (.receive c lba data page)
      dsimp only
      split
      · exact received
      · exact received.givePage page
    · exact h.givePage page

theorem CmdsMapped.logUnrecovered (h : CmdsMapped s t) (c : Cmd) (lba vendor : Nat) : CmdsMapped s (t.logUnrecovered c lba vendor) := by
  refine h.of_cmds ?_
  rw [State.logUnrecovered, State.modHost_host]
  split <;> rfl

theorem CmdsMapped.fromVersion (h : CmdsMapped s t) (f l g : Nat) : CmdsMapped s (t.fromVersion f l g) := by
  refine .when (h.modCmd f fun c => ?_) fun u holds => holds.of_cmds rfl
  obtain ⟨asked, blocks, started⟩ := Cmd.Onward.setBlock c l (.version g)
  exact ⟨asked, blocks, started⟩

theorem CmdsOnward.sourceBlock (h : CmdsOnward s t) (f l : Nat) (todo : List (Nat × Nat × Nat)) : CmdsOnward s (t.sourceBlock f l todo).1 := by
  have failed {v : State} (holds : CmdsMapped t v) (st : NvStatus) : CmdsOnward s (v.modCmd f fun c => c.setBlock l (.failed st)) :=
    h.mapped (holds.modCmd f fun c => .setBlock c l _)
  unfold State.sourceBlock
  split
  · exact h
  · next c _ =>
    split
    · split
      · exact failed ((CmdsMapped.refl t).logUnrecovered c l 0) _
      · exact h.mapped ((CmdsMapped.refl t).fromVersion f l _)
    · split
      · exact h
      · dsimp only
        split
        · exact failed ((CmdsMapped.refl t).logUnrecovered c l 0) _
        · exact failed (.refl t) _
      · exact (h.receiveBlock f l t.free none).mapped (.of_cmds (.refl _) rfl)
      · exact h.receiveBlock f l 0 none
      · split
        · exact failed (.refl t) _
        · refine h.mapped ((CmdsMapped.refl t).modCmd f fun c => ?_)
          obtain ⟨asked, blocks, started⟩ := Cmd.Onward.setBlock c l .waiting
          exact ⟨asked, blocks, started⟩

theorem CmdsMapped.postPlaces (h : CmdsMapped s t) (x : Str) (q : SeqId) (source : ReqSource) (tag : Nat) (zone : Option Nat)
    (stream slipOk : Bool) (offs : Int) (band : Nat) (ps : List (Nat × Nat × Option Codeword)) :
    CmdsMapped s (t.postPlaces x q source tag zone stream slipOk offs band ps) := by
  refine .foldl _ h fun u e holds => CmdsMapped.of_host (t := u.newRequestId.2) (holds.of_cmds rfl) ?_
  exact (State.postRequest_after (.refl _) (Nat.or_self _) (Nat.or_self _)).parts .host rfl

theorem CmdsMapped.postReads (h : CmdsMapped s t) (f : Nat) (todo : List (Nat × Nat × Nat)) : CmdsMapped s (t.postReads f todo) := by
  refine .foldl _ h fun u id holds => ?_
  split
  · exact holds
  · refine CmdsMapped.postPlaces ?_ ..
    split
    · exact holds.reach _ _ _
    · exact holds

theorem CmdsOnward.startReads (h : CmdsOnward s t) (f : Nat) (ls : List Nat) : CmdsOnward s (t.startReads f ls) := by
  have sourced : CmdsOnward s (ls.foldl (fun (p : State × List (Nat × Nat × Nat)) l => p.1.sourceBlock f l p.2) (t, [])).1 :=
    List.foldlRecOn (motive := fun p : State × List (Nat × Nat × Nat) => CmdsOnward s p.1) ls _ h fun p holds l _ =>
      holds.sourceBlock f l p.2
  exact sourced.mapped (((CmdsMapped.refl _).postReads f _).modCmd f fun c => .settled c)

/-- What a Read, Compare or Verify that is taken leaves of its command (R253). -/
theorem State.takeRead_found (start : CanTake s f c) : ∃ d, (s.take f State.takeRead).findCmd f = some d ∧ d.started = true ∧
    d.lbas = c.lbas ∧ d.op = c.op := by
  rw [State.take_of_turn start, State.takeRead, State.findCmd_fseq start.1]
  have onward := (CmdsOnward.startReads (CmdsMapped.refl (s.modCmd f fun c => { c with started := true })).onward f c.lbas) f
  rw [State.findCmd_started start.1] at onward
  generalize ends : State.findCmd _ f = found at onward
  cases onward with
  | some h =>
    obtain ⟨⟨_, _, _, _, _, op⟩, lbas, started⟩ := h
    exact ⟨_, rfl, started rfl, lbas, op⟩

/-! ### Writes (R44, R213, R269) -/

theorem State.joinQueue_waits (c : Cmd) (n : Nat) : ∃ q, (c.fseq, q) ∈ (s.joinQueue c n).bridge.waiting := by
  unfold State.joinQueue
  dsimp only
  split
  · exact ⟨_, List.mem_append.2 (.inr (List.mem_singleton.2 rfl))⟩
  · split
    · exact ⟨_, List.mem_append.2 (.inr (List.mem_singleton.2 rfl))⟩
    · split
      · exact ⟨_, List.mem_append.2 (.inr (List.mem_singleton.2 rfl))⟩
      · exact ⟨_, List.mem_append.2 (.inr (List.mem_singleton.2 rfl))⟩

/-- A write of a namespace without zones waits for its grant. -/
theorem State.takeWrite_waits {n : Namespace} (number : c.fseq = f) (owner : s.ns c.nsid = some n) (kind : n.kind ≠ .zoned) :
    ∃ q, (f, q) ∈ (s.takeWrite c).bridge.waiting := by
  have zone : s.zoneOf c = none := by simp [State.zoneOf, owner, kind]
  simp only [State.takeWrite, owner, zone]
  rw [← number]
  exact State.joinQueue_waits c _

/-! ### Zones (R208, R213 to R216) -/

/-- Each record has accepted what it had. -/
def RecordsKept (s t : State) : Prop := ∀ id : Nat, (t.host.records[id]?).map (·.accepted) = (s.host.records[id]?).map (·.accepted)

theorem RecordsKept.refl (s : State) : RecordsKept s s := fun _ => rfl

theorem RecordsKept.of_records (h : RecordsKept s t) (same : u.host.records = t.host.records) : RecordsKept s u := by
  rw [RecordsKept, same]
  exact h

theorem RecordsKept.of_host (h : RecordsKept s t) (same : u.host = t.host) : RecordsKept s u := h.of_records (congrArg HostState.records same)

theorem RecordsKept.modRecord {g : Record → Record} (h : RecordsKept s t) (id : Nat) (same : ∀ r, (g r).accepted = r.accepted) :
    RecordsKept s (t.modRecord id g) := by
  intro k
  rw [← h k]
  change ((t.host.records.modify id g)[k]?).map _ = _
  rw [List.getElem?_modify, Option.map_eq_map, Option.map_map]
  congr 1
  funext r
  simp only [Function.comp_apply]
  split
  · exact same r
  · rfl

theorem RecordsKept.foldl {α : Type} {g : State → α → State} (l : List α) (h : RecordsKept s t)
    (k : ∀ u a, RecordsKept s u → RecordsKept s (g u a)) : RecordsKept s (l.foldl g t) :=
  List.foldlRecOn l g h fun u holds a _ => k u a holds

theorem RecordsKept.here (h : RecordsKept s t) {id : Nat} {r : Record} (there : s.host.records[id]? = some r) :
    ∃ q, t.host.records[id]? = some q ∧ q.accepted = r.accepted := by
  have kept := h id
  rw [there] at kept
  exact Option.map_eq_some_iff.1 kept

theorem RecordsKept.withdrawPlaces (h : RecordsKept s t) (r : Request) (ps : List Place) : RecordsKept s (t.withdrawPlaces r ps) := by
  have unissued : RecordsKept s (t.unissue (t.requestNsid r) (ps.map (·.lba))) :=
    h.of_host ((State.unissue_after (.refl t) (Nat.or_self _) (Nat.or_self _)).parts .host rfl)
  unfold State.withdrawPlaces
  dsimp only
  split
  · exact unissued.modRecord _ fun _ => rfl
  · exact unissued

theorem RecordsKept.withdrawWrites (h : RecordsKept s t) (x : Str) (p : Request → Bool) : RecordsKept s (t.withdrawWrites x p) := by
  have withdrawn (l : List Request) : RecordsKept s (l.foldl (fun s r => s.withdrawPlaces r (s.unwritten x r)) t) :=
    .foldl l h fun _ r holds => holds.withdrawPlaces r _
  obtain ⟨l, same⟩ := State.withdrawWrites_host (s := t) x p
  exact (withdrawn l).of_host same

theorem RecordsKept.abandonClean (h : RecordsKept s t) (id : Nat) : RecordsKept s (t.abandonClean id) := by
  unfold State.abandonClean
  dsimp only
  split
  · exact h
  · refine RecordsKept.of_records (t := State.modRecord _ id fun r => { r with clean := false }) ?_ rfl
    refine RecordsKept.modRecord (RecordsKept.withdrawWrites (h.of_host ?_) _ _) id fun _ => rfl
    exact (State.withdrawReads_after (.refl t) (Nat.or_self _) (Nat.or_self _)).parts .host rfl

theorem RecordsKept.saveAcc (h : RecordsKept s t) (x : Str) : RecordsKept s (t.saveAcc x) := by
  unfold State.saveAcc
  split
  · exact h
  · dsimp only
    split
    · exact h.modRecord _ fun _ => rfl
    · refine RecordsKept.of_host (RecordsKept.foldl _ ?_ fun u _ holds => holds.of_host ?_) (State.journal_host _ _)
      · exact h.modRecord _ fun _ => rfl
      · exact (State.chestRow_after (.refl u) (Nat.or_self _) (Nat.or_self _)).parts .host rfl

/-- A zone that changes state. -/
theorem State.setZone_record {g : Record → Record} {id : Nat} {r : Record} (here : s.host.records[id]? = some r) :
    (s.setZone id g).host.records[id]? = some (g r) := by
  rw [State.setZone, State.journal_host]
  change (s.host.records.modify id g)[id]? = _
  rw [List.getElem?_modify_eq, here]
  rfl

/-- An action on one zone that succeeds answers its command (R208). -/
theorem State.zoneSend_answers {action zone id : Nat} {r : Record} {v : State} (start : CanTake s f c) (op : c.op = .zoneSend action zone false)
    (place : s.recordOf c.nsid zone = some id) (here : s.host.records[id]? = some r)
    (calm : action ≠ zoneReset ∨ s.transfersOver r.nsid r.index = true)
    (acts : (s.modCmd f fun c => { c with started := true }).zoneAct action id = (some .success, v))
    (mapped : CmdsMapped (s.modCmd f fun c => { c with started := true }) v) :
    Answered (s.zoneSend f action) f = some .success ∧ (s.zoneSend f action).host.records = v.host.records := by
  have target : s.zoneTargets c.nsid action zone false = [id] := by simp [State.zoneTargets, place]
  have due : ¬(action != action || (action == zoneReset && !(s.transfersOver r.nsid r.index))) = true := by
    rcases calm with other | ended
    · simp [other]
    · simp [ended]
  have ends : s.zoneSend f action = v.finish f .success := by
    simp only [State.zoneSend, State.cmdOp_of_found start.1, op, target, List.all_cons, List.all_nil, here, Option.all_some, Bool.and_true,
      if_neg due, List.isEmpty_cons, Bool.false_and, Bool.false_eq_true, if_false, State.take_of_turn start, List.foldl_cons,
      List.foldl_nil, acts]
    rfl
  rw [ends]
  exact ⟨mapped.answered (State.findCmd_started start.1) _ _ _, rfl⟩

end

end Sys2Proof.Machine

/-! PROOF. Proofs/HostIo.lean: the host's I/O commands from the fetch to the completion (R249, R253, R254, R266 to R274). -/
namespace Sys2Proof.Machine

section
variable {s t u v : State} {f : Nat} {c d : Cmd} {id : Nat} {r : Record}

/-! ### Actions on one zone (R208, R213, R216) -/

theorem State.zoneAct_open (here : s.host.records[id]? = some r) (state : r.state = .implicit) :
    s.zoneAct zoneOpen id = (some .success, (s.touchZone id).setZone id fun r => { r with state := .explicit }) := by
  simp only [State.zoneAct, here, if_true, State.openZone, state]

theorem State.touchZone_record (here : s.host.records[id]? = some r) : ∃ q, (s.touchZone id).host.records[id]? = some q :=
  let ⟨q, there, _⟩ := ((RecordsKept.refl s).abandonClean id).here here
  ⟨q, there⟩

theorem State.zoneAct_close (here : s.host.records[id]? = some r) (state : r.state = .explicit) :
    s.zoneAct zoneClose id = (some .success, s.closeZone id) := by
  simp only [State.zoneAct, here, show zoneClose ≠ zoneOpen by decide, if_true, if_false, State.closeOne, state]

theorem State.closeZone_state (here : s.host.records[id]? = some r) :
    ((s.closeZone id).host.records[id]?).map (·.state) = some (if r.accepted = 0 then .empty else .closed) := by
  simp only [State.closeZone, here]
  split
  · obtain ⟨q, there, accepted⟩ := ((RecordsKept.refl s).saveAcc r.str).here here
    rw [State.setZone_record there, Option.map_some, accepted]
  · rw [State.setZone_record here]
    rfl

theorem State.zoneAct_finish (here : s.host.records[id]? = some r) (state : r.state = .explicit) (whole : r.accepted % 64 = 0)
    (written : r.mp = r.accepted) : s.zoneAct zoneFinish id =
      (some .success, (s.touchZone id).setZone id fun r => { r with state := .full, finish := some r.accepted }) := by
  simp [State.zoneAct, here, State.finishZone, state, whole, written, zoneFinish, zoneOpen, zoneClose]

theorem State.zoneAct_offline (here : s.host.records[id]? = some r) (state : r.state = .readOnly) :
    ∃ v, s.zoneAct zoneOffline id = (some .success, v) ∧ CmdsMapped s v ∧ (v.host.records[id]?).map (·.state) = some .offline := by
  let w := s.setZone id fun r => { r with state := .offline }
  let v := w.modHost fun h => { h with changedZones := h.changedZones ++ [(r.nsid, r.index)] }
  have mapped : CmdsMapped s w := (CmdsMapped.refl s).setZone id
  have offline : w.host.records[id]? = some { r with state := .offline } := State.setZone_record here
  refine ⟨v, ?_, mapped.of_cmds rfl, congrArg (Option.map (·.state)) offline⟩
  simp [State.zoneAct, here, State.offlineZone, state, zoneOffline, zoneOpen, zoneClose, zoneFinish, zoneReset, v, w]

theorem State.zoneAct_reset (here : s.host.records[id]? = some r) : s.zoneAct zoneReset id =
    (some (s.resetZone id r).1, (s.resetZone id r).2) := by
  simp [State.zoneAct, here, zoneReset, zoneOpen, zoneClose, zoneFinish]

theorem RecordsKept.rewriteBand (h : RecordsKept s t) (x : Str) (band : Nat) (leave : Bool) : RecordsKept s (t.rewriteBand x band leave) := by
  unfold State.rewriteBand
  split
  · exact h
  · exact h.of_records rfl

theorem State.dropVersions_records : s.dropVersions.host.records = s.host.records := by
  refine List.foldlRecOn (motive := fun u : State => u.host.records = s.host.records) _ _ rfl fun u holds v _ => ?_
  have granted : ((u.wr .BRG_DESC_FREE (u.rd .BRG_DESC_FREE + 1)).when (v.grant != 0) fun s =>
      s.modNs v.nsid fun n => { n with granted := n.granted - v.grant }).host.records = s.host.records := by
    unfold State.when
    split <;> exact holds
  simp only [State.returnVersion]
  split
  · rw [State.retireEntry_host, granted]
  · exact granted
  · exact granted

theorem CmdsMapped.unmark (h : CmdsMapped s t) (nsid first n : Nat) : CmdsMapped s (t.unmark nsid first n) := h.of_cmds rfl

/-- The end of a command of a zone that is reset. -/
theorem Cmd.Onward.closed (c : Cmd) : c.Onward { (if c.ready.isNone then c.allDone else c) with owed := [], past := true }.settled := by
  refine .trans ?_ (.settled _)
  split
  · refine .of_fields rfl ?_ rfl
    simp [Cmd.lbas, Cmd.allDone]
  · exact .of_fields rfl rfl rfl

/-- A zone that is reset is empty, and the command that asks for it stays (R216, R224). -/
theorem State.resetZone_effect (here : s.host.records[id]? = some r) (state : r.state = .full) : (s.resetZone id r).1 = .success ∧
    CmdsMapped s (s.resetZone id r).2 ∧
      ((s.resetZone id r).2.host.records[id]?).map (fun r => (r.state, r.wp)) = some (.empty, 0) := by
  unfold State.resetZone
  rw [state]
  extract_lets withdrawn mine acks unlisted saved ended close closed free rewritten band held cut emptied
  have begun : CmdsMapped s withdrawn ∧ RecordsKept s withdrawn :=
    ⟨((CmdsMapped.refl s).withdrawWrites _ _).abandonClean id, ((RecordsKept.refl s).withdrawWrites _ _).abandonClean id⟩
  have journaled : CmdsMapped s saved ∧ RecordsKept s saved :=
    ⟨.foldl acks (begun.1.of_cmds rfl) fun u v holds => holds.journal _, .foldl acks (begun.2.of_records rfl) fun u v holds =>
      holds.of_host (State.journal_host _ _)⟩
  have over' : CmdsMapped s closed ∧ RecordsKept s closed := by
    refine ⟨journaled.1.trans ⟨fun c => if ended c then close c else c, fun c => ?_, rfl⟩, journaled.2.of_records rfl⟩
    exact .ite (.closed c)
  have left : CmdsMapped s rewritten ∧ RecordsKept s rewritten :=
    ⟨CmdsMapped.rewriteBand (t := closed.drawn) (over'.1.of_cmds rfl) _ _ _,
      RecordsKept.rewriteBand (t := closed.drawn) (over'.2.of_records rfl) _ _ _⟩
  refine ⟨rfl, ?_, ?_⟩
  · exact ((CmdsMapped.setZone (t := cut.accRefresh r.str) (left.1.of_cmds rfl) id).unmark _ _ _).settleWaits.dropVersions
  · obtain ⟨q, there, _⟩ := left.2.here here
    rw [State.dropVersions_records]
    change (emptied.host.records[id]?).map _ = _
    rw [State.setZone_record (s := cut.accRefresh r.str) there]
    rfl

/-! ### Zone Append, Write Zeroes and Dataset Management (R213, R253, R269) -/

/-- An Append takes the blocks at the pointer of what its zone has accepted. -/
theorem State.zoneAppend_blocks {zone prchk : Nat} {blocks : List HostBlock} {pract : Bool} (start : CanTake s f c)
    (op : c.op = .append zone blocks pract prchk) (place : s.recordOf c.nsid zone = some id) (here : s.host.records[id]? = some r) :
    ∃ d, (s.zoneAppend f).findCmd f = some d ∧ d.started = true ∧
      d.lbas = (List.range blocks.length).map fun k => zone * 131072 + r.accepted + k := by
  let u := s.modCmd f fun c => { c with started := true }
  let d := { c with started := true, blocks := (List.range blocks.length).map fun k => (zone * 131072 + r.accepted + k, BlockState.waiting) }
  have zoneRecord : ((u.recordOf c.nsid zone).bind fun id => u.host.records[id]?) = some r := by
    rw [show u.recordOf c.nsid zone = some id from place]
    exact here
  have acts : s.zoneAppend f = (u.modCmd f fun _ => d).takeWrite d := by
    rw [State.zoneAppend, State.opOf, start.1, Option.map_some, op]
    dsimp only
    rw [State.take_of_turn start, zoneRecord]
  have number : c.fseq = f := State.findCmd_fseq start.1
  have placed : (u.modCmd f fun _ => d).findCmd f = some d := State.findCmd_replaced (State.findCmd_started start.1) number
  rw [acts]
  obtain ⟨e, found, _, lbas, started⟩ := ((CmdsMapped.refl _).takeWrite d).found placed
  refine ⟨e, found, started rfl, lbas.trans ?_⟩
  simp [Cmd.lbas, d]

theorem CmdsMapped.unmap (h : CmdsMapped s t) (nsid f : Nat) (lbas : List Nat) : CmdsMapped s (t.unmap nsid f lbas) := by
  refine CmdsMapped.dropVersions (CmdsMapped.settleWaits ?_)
  exact h.of_cmds rfl

/-- Write Zeroes unmaps the blocks of a Managed namespace and is a write of a Conventional one. -/
theorem State.writeZeroes_effect {lba k : Nat} {n : Namespace} (start : CanTake s f c) (op : c.op = .writeZeroes lba k)
    (owner : s.ns c.nsid = some n) : (n.kind = .managed → Answered (s.writeZeroes f) f = some .success) ∧
      (n.kind = .conventional → ∃ q, (f, q) ∈ (s.writeZeroes f).bridge.waiting) := by
  let u := s.modCmd f fun c => { c with started := true }
  have there : u.ns c.nsid = some n := owner
  have acts : s.writeZeroes f = if n.kind == .managed then (u.unmap c.nsid f ((List.range k).map (lba + ·))).finish f .success
      else u.takeWrite c := by
    rw [State.writeZeroes, State.opOf, start.1, Option.map_some, op]
    dsimp only
    rw [State.take_of_turn start, there, Option.any_some]
  rw [acts]
  refine ⟨fun managed => ?_, fun conventional => ?_⟩
  · rw [if_pos (by simp [managed])]
    exact ((CmdsMapped.refl u).unmap _ _ _).answered (State.findCmd_started start.1) _ _ _
  · rw [if_neg (by simp [conventional])]
    exact State.takeWrite_waits (State.findCmd_fseq start.1) there (by simp [conventional])

/-- Dataset Management is answered at once. -/
theorem State.datasetManagement_answers {ranges : List (Nat × Nat)} {deallocate : Bool} (start : CanTake s f c)
    (op : c.op = .dsm ranges deallocate) : Answered (s.datasetManagement f) f = some .success := by
  rw [State.datasetManagement, State.opOf, start.1, Option.map_some, op]
  dsimp only
  rw [State.take_of_turn start]
  refine CmdsMapped.answered (.when (.refl _) fun _ h => h.unmap _ _ _) (State.findCmd_started start.1) _ _ _

/-- A report of zones is answered at once (R254). -/
theorem State.reportZones_answers {zone n : Nat} (start : CanTake s f c) (op : c.op = .zoneReceive zone n) :
    Answered (s.reportZones f) f = some .success := by
  have sent (l : List Record) (u : State) : CmdsMapped u (l.foldl (fun s r => s.emit (.hostData f r.index (r.state.code + r.wp * 16))) u) :=
    .foldl l (.refl u) fun _ _ holds => holds.of_cmds rfl
  rw [State.reportZones, State.cmdOp_of_found start.1, op]
  dsimp only
  rw [State.take_of_turn start]
  exact (sent _ _).answered (State.findCmd_started start.1) _ _ _

/-! ### Flush (R269) -/

/-- A Flush that waits for nothing more is answered. -/
theorem State.settleWaits_flush (found : s.findCmd f = some c) (started : c.started = true) (open' : c.ready = none) (op : c.op = .flush)
    (waits : c.waits = []) : Answered s.settleWaits f = some .success := by
  have keys (g : Cmd → Cmd) (same : ∀ e, (g e).fseq = e.fseq) : (s.host.cmds.map g).find? (fun e => e.fseq == f) = some (g c) := by
    rw [List.find?_map, show ((fun e : Cmd => e.fseq == f) ∘ g) = fun e => e.fseq == f from funext fun e => congrArg (· == f) (same e)]
    exact congrArg (Option.map g) found
  refine Answered.of_found (keys _ fun e => ?_) (ready := (.success, 0, 0)) ?_
  · split
    · rfl
    · split
      · rfl
      · split
        · rfl
        · exact Cmd.settled_fseq _
  · simp [started, open', op, waits]

/-- A Flush with nothing before it is answered at once. -/
theorem State.nvmFlush_answers (start : CanStart s f c) (op : c.op = .flush)
    (writes : ∀ e ∈ s.host.cmds, e.fseq < f → e.nsid = c.nsid → e.op.isWrite = false)
    (versions : ∀ v ∈ s.bridge.versions, v.fseq < f → v.nsid ≠ c.nsid) : Answered (s.nvmFlush f) f = some .success := by
  obtain ⟨found, waits, open'⟩ := start
  have due : (c.op == .flush && !c.started && c.ready.isNone) = true := by simp [op, waits, open']
  have noWrites : (s.host.cmds.filter fun e => decide (e.fseq < f) && e.nsid == c.nsid && e.op.isWrite) = [] :=
    List.filter_eq_nil_iff.2 fun e mem => by
      simp only [Bool.and_eq_true, decide_eq_true_eq, beq_iff_eq, not_and, Bool.not_eq_true]
      exact fun h => writes e mem h.1 h.2
  have noVersions : (s.bridge.versions.filter fun v => decide (v.fseq < f) && v.nsid == c.nsid) = [] :=
    List.filter_eq_nil_iff.2 fun v mem => by
      simp only [Bool.and_eq_true, decide_eq_true_eq, beq_iff_eq, not_and]
      exact versions v mem
  have acts : s.nvmFlush f = ((s.modCmd f fun c => { c with started := true, waits := [] }).forceTails c.nsid).settleWaits := by
    simp only [State.nvmFlush, found, if_pos due, noWrites, noVersions]
    rfl
  let u := s.modCmd f fun c => { c with started := true, waits := [] }
  have there : (u.forceTails c.nsid).findCmd f = some { c with started := true, waits := [] } :=
    (State.findCmd_of_cmds (congrArg HostState.cmds ((State.forceTails_after (.refl u) (Nat.or_self _) (Nat.or_self _)).parts .host rfl)) f).trans
      (State.findCmd_modCmd found fun _ => rfl)
  rw [acts]
  exact State.settleWaits_flush there rfl open' op rfl

/-! ### Completion (R43, R274) -/

theorem CmdsMapped.advanceWp (h : CmdsMapped s t) (c : Cmd) : CmdsMapped s (t.advanceWp c) := by
  unfold State.advanceWp
  split
  · exact h
  · split
    · exact h
    · exact h.setZone _

/-- A command whose completion is committed is in flight no more. -/
theorem State.completionCommit_gone {st : NvStatus} {d0 d1 : Nat} (found : s.findCmd f = some c) (ready : c.ready = some (st, d0, d1))
    (powered : s.power.loss = none) (free : s.journalHolds c = false) (order : c.op.isWrite = false ∨ s.wpReached c = true) :
    (s.completionCommit f).findCmd f = none := by
  have due : ¬(s.power.loss.isSome || s.journalHolds c || (c.op.isWrite && st == .success && !s.wpReached c)) = true := by
    rcases order with reads | turn
    · simp [powered, free, reads]
    · simp [powered, free, turn]
  unfold State.completionCommit
  rw [found]
  dsimp only
  rw [ready]
  dsimp only
  rw [if_neg due]
  generalize State.when (State.when s _ _) _ _ = u
  have gone : (u.modHost fun h => { h with cmds := h.cmds.filter fun e => e.fseq != f }).findCmd f = none := by
    refine List.find?_eq_none.2 fun e mem => ?_
    simpa using (List.mem_filter.1 mem).2
  have after (w : State) {g : Cmd → Cmd} (onward : ∀ e : Cmd, e.Onward (g e)) :
      CmdsMapped w ((w.modHost fun h => { h with cmds := h.cmds.map g }).outRefresh c.hqe).settleWaits.refreshMode :=
    CmdsMapped.refreshMode (CmdsMapped.settleWaits ⟨g, onward, rfl⟩)
  refine (((CmdsMapped.refl _).releaseCmd c).trans (after _ fun e => ?_)).absent gone
  exact .ite (.of_fields rfl rfl rfl)

/-! ### The fetch (R249, R266, R267) -/

/-- The commands went on, and the next FSEQ is as before. -/
def FetchKept (s t : State) : Prop := CmdsMapped s t ∧ t.host.fseq = s.host.fseq

theorem FetchKept.refl (s : State) : FetchKept s s := ⟨.refl s, rfl⟩

theorem FetchKept.of_host (h : FetchKept s t) (same : u.host = t.host) : FetchKept s u :=
  ⟨h.1.of_host same, (congrArg HostState.fseq same).trans h.2⟩

theorem FetchKept.when {b : Bool} {g : State → State} (h : FetchKept s t) (k : ∀ u, FetchKept s u → FetchKept s (g u)) :
    FetchKept s (t.when b g) := by
  cases b
  · exact h
  · exact k t h

theorem FetchKept.refreshMode (h : FetchKept s t) : FetchKept s t.refreshMode := by
  obtain ⟨g, host⟩ := State.refreshMode_host (s := t)
  exact ⟨h.1.refreshMode, (congrArg HostState.fseq host).trans h.2⟩

theorem FetchKept.speMeasure (h : FetchKept s t) : FetchKept s t.speMeasure := by
  refine FetchKept.of_host (t := t.setSpeState 1) ?_ rfl
  refine FetchKept.refreshMode (h.of_host ?_)
  unfold State.when
  split <;> rfl

theorem FetchKept.speStartOp (h : FetchKept s t) : FetchKept s t.speStartOp.2 := by
  unfold State.speStartOp
  split
  · dsimp only
    split
    · exact h
    · split
      · exact h
      · exact FetchKept.speMeasure (h.of_host rfl)
  · exact h
  · exact h

theorem FetchKept.spinOnIo (h : FetchKept s t) : FetchKept s t.spinOnIo := by
  unfold State.spinOnIo
  split
  · exact FetchKept.speStartOp (h.of_host rfl)
  · exact h

/-- The state that a command enters with the next FSEQ. -/
def State.entered (s : State) (e : Cmd) : State := s.modHost fun h => { h with fseq := (s.host.fseq + 1) % 2 ^ 64, cmds := h.cmds ++ [e] }

theorem State.fetchOne_kept {k sqid cid nsid : Nat} {op : HostOp} {c : Controller} (here : s.controller k = some c) :
    ∃ e : Cmd, (e.fseq = s.host.fseq ∧ e.hqe = k ∧ e.sqid = sqid ∧ e.cid = cid ∧ e.nsid = nsid ∧ e.op = op) ∧
      FetchKept (s.entered e) (s.fetchOne k sqid cid nsid op) := by
  unfold State.fetchOne
  split
  · next none => rw [none] at here; cases here
  · extract_lets f st stream cmd notReady entered counted bureau awake conflicts
    have begun : FetchKept (s.entered cmd) awake := FetchKept.of_host (.refl entered) rfl
    exact ⟨cmd, ⟨rfl, rfl, rfl, rfl, rfl, rfl⟩, FetchKept.refreshMode (.when (.when begun fun _ h => h.of_host rfl) fun _ h =>
      FetchKept.spinOnIo (h.of_host rfl))⟩

/-- A command that is fetched enters with the next FSEQ. -/
theorem State.fetchOne_enters {k sqid cid nsid : Nat} {op : HostOp} {c : Controller} (here : s.controller k = some c) :
    (s.fetchOne k sqid cid nsid op).host.fseq = (s.host.fseq + 1) % 2 ^ 64 ∧ ∃ e ∈ (s.fetchOne k sqid cid nsid op).host.cmds,
      e.fseq = s.host.fseq ∧ e.hqe = k ∧ e.sqid = sqid ∧ e.cid = cid ∧ e.nsid = nsid ∧ e.op = op := by
  obtain ⟨e, ⟨fseq, hqe, queue, id, ns, asks⟩, ⟨g, onward, cmds⟩, number⟩ :=
    State.fetchOne_kept (s := s) (sqid := sqid) (cid := cid) (nsid := nsid) (op := op) here
  obtain ⟨⟨fseq', hqe', queue', id', ns', asks'⟩, _, _⟩ := onward e
  refine ⟨number, g e, ?_, fseq'.trans fseq, hqe'.trans hqe, queue'.trans queue, id'.trans id, ns'.trans ns, asks'.trans asks⟩
  rw [cmds]
  exact List.mem_map_of_mem (List.mem_append.2 (.inr (List.mem_singleton.2 rfl)))

theorem State.commandFetch_enters {k q : Nat} {heads : List QueueHead} {c : Controller} {a : Arbiter} {h : QueueHead}
    (here : s.controller k = some c) (presented : s.presented k = true) (enabled : c.enabled = true) (runs : s.bridge.running = true)
    (awake : s.rd .PWR_STAT_MODE ≠ 0) (room : s.rd .HQEn_OUT_OUTST (k * 65536) < 8192)
    (arbitrated : s.arbitrate k c ((heads.filter fun h => h.sqid == 0 || c.sqs.any fun q => q.sqid == h.sqid).map (·.sqid)) = some (q, a))
    (head : ((heads.filter fun h => h.sqid == 0 || c.sqs.any fun q => q.sqid == h.sqid).find? fun h => h.sqid == q) = some h) :
    (s.commandFetch k heads).host.fseq = (s.host.fseq + 1) % 2 ^ 64 ∧ ∃ e ∈ (s.commandFetch k heads).host.cmds,
      e.fseq = s.host.fseq ∧ e.hqe = k ∧ e.sqid = q ∧ e.cid = h.cid ∧ e.nsid = h.nsid ∧ e.op = s.taken k h.entry := by
  have due : ¬(!s.presented k || !c.enabled || !(s.bridge.running || s.isSet .LC_BOOT_RECOVERY) || decide (s.mode = 0)
      || decide (8192 ≤ s.rd .HQEn_OUT_OUTST (k * 65536))) = true := by
    simp [presented, enabled, runs, State.mode, awake, Nat.not_le.2 room]
  have there : (s.modController k fun c => { c with arbiter := a }).controller k = some { c with arbiter := a } := by
    change (s.host.controllers.modify k _)[k]? = _
    rw [List.getElem?_modify_eq]
    exact congrArg (Option.map _) here
  have fetches : s.commandFetch k heads = (s.modController k fun c => { c with arbiter := a }).fetchOne k q h.cid h.nsid (s.taken k h.entry) := by
    simp only [State.commandFetch, here, if_neg due, arbitrated, head, Option.elim_some]
  rw [fetches]
  exact State.fetchOne_enters there

end

/-- Settles O29. -/
theorem hostIoEffects : Obligations.HostIoEffects := by
  unfold Obligations.HostIoEffects
  refine ⟨fun s k q sqids cids nsids ops c a h here presented enabled runs awake room arbitrated head =>
      ⟨_, rfl, State.commandFetch_enters here presented enabled runs awake room arbitrated head⟩,
    fun s f lba n c start op => ⟨_, rfl, ?_⟩, fun s f lba prchk blocks pract fua c n start op owner kind => ⟨_, rfl, ?_⟩,
    fun s f zone prchk id blocks pract c r start op place here => ⟨_, rfl, ?_⟩,
    fun s f c start op writes versions => ⟨_, rfl, State.nvmFlush_answers start op writes versions⟩,
    fun s f lba blocks c start op => ⟨_, rfl, ?_⟩, fun s f lba n c start op => ⟨_, rfl, ?_⟩,
    fun s f lba k c n start op owner => ⟨_, rfl, ?_⟩, fun s f ranges deallocate c start op => ⟨_, rfl, ?_⟩,
    fun s f zone id c r start op place here state => ⟨_, rfl, ?_⟩, fun s f zone id c r start op place here state => ⟨_, rfl, ?_⟩,
    fun s f zone id c r start op place here state whole written => ⟨_, rfl, ?_⟩,
    fun s f zone id c r start op place here state ended => ⟨_, rfl, ?_⟩, fun s f zone id c r start op place here state => ⟨_, rfl, ?_⟩,
    fun s f zone n c start op => ⟨_, rfl, ?_⟩, fun s f d0 d1 st c found ready powered free order =>
      ⟨_, rfl, State.completionCommit_gone found ready powered free order⟩⟩
  · have acts : s.nvmRead f = s.take f State.takeRead := by simp only [State.nvmRead, State.opOf, start.1, Option.map_some, op]
    rw [acts]
    exact State.takeRead_found start
  · have acts : s.nvmWrite f = s.take f State.takeWrite := by simp only [State.nvmWrite, start.1, op]
    rw [acts, State.take_of_turn start]
    exact State.takeWrite_waits (s := s.modCmd f fun c => { c with started := true }) (State.findCmd_fseq start.1) owner kind
  · exact State.zoneAppend_blocks start op place here
  · have acts : s.nvmCompare f = s.take f State.takeRead := by simp only [State.nvmCompare, State.opOf, start.1, Option.map_some, op]
    rw [acts]
    exact State.takeRead_found start
  · have acts : s.nvmVerify f = s.take f State.takeRead := by simp only [State.nvmVerify, State.opOf, start.1, Option.map_some, op]
    rw [acts]
    exact State.takeRead_found start
  · exact State.writeZeroes_effect start op owner
  · exact State.datasetManagement_answers start op
  · obtain ⟨answer, records⟩ := State.zoneSend_answers start op place here (.inl (by decide)) (State.zoneAct_open here state)
      (((CmdsMapped.refl _).abandonClean id).setZone id)
    obtain ⟨q, there⟩ := State.touchZone_record (s := s.modCmd f fun c => { c with started := true }) here
    refine ⟨answer, ?_⟩
    rw [records, State.setZone_record there]
    rfl
  · obtain ⟨answer, records⟩ := State.zoneSend_answers start op place here (.inl (by decide)) (State.zoneAct_close here state)
      ((CmdsMapped.refl _).closeZone id)
    refine ⟨answer, ?_⟩
    rw [records]
    exact State.closeZone_state here
  · obtain ⟨answer, records⟩ := State.zoneSend_answers start op place here (.inl (by decide)) (State.zoneAct_finish here state whole written)
      (((CmdsMapped.refl _).abandonClean id).setZone id)
    obtain ⟨q, there⟩ := State.touchZone_record (s := s.modCmd f fun c => { c with started := true }) here
    refine ⟨answer, ?_⟩
    rw [records, State.setZone_record there]
    rfl
  · obtain ⟨success, mapped, empty⟩ := State.resetZone_effect (s := s.modCmd f fun c => { c with started := true }) here state
    have acts := State.zoneAct_reset (s := s.modCmd f fun c => { c with started := true }) here
    rw [success] at acts
    obtain ⟨answer, records⟩ := State.zoneSend_answers start op place here (.inr ended) acts mapped
    refine ⟨answer, ?_⟩
    rw [records]
    exact empty
  · obtain ⟨v, acts, mapped, offline⟩ := State.zoneAct_offline (s := s.modCmd f fun c => { c with started := true }) here state
    obtain ⟨answer, records⟩ := State.zoneSend_answers start op place here (.inl (by decide)) acts mapped
    refine ⟨answer, ?_⟩
    rw [records]
    exact offline
  · exact State.reportZones_answers start op

end Sys2Proof.Machine

/-! PROOF. Proofs/Admin.lean: reservations, queues, features, log pages and self-tests (R246 to R263, R289). -/
namespace Sys2Proof.Machine

section
variable {s t u : State} {f : Nat} {c d : Cmd} {n : Namespace} {k : Controller}

/-- The state in which a command begins to be executed. -/
def State.begun (s : State) (f : Nat) : State := s.modCmd f fun c => { c with started := true }

theorem State.begun_found (start : CanStart s f c) : (s.begun f).findCmd f = some { c with started := true } := State.findCmd_started start.1

theorem State.admin_begun (start : CanStart s f c) (g : State → Cmd → State) : s.admin f g = g (s.begun f) c :=
  State.admin_of_canStart start g

/-- What is executed and then ends is answered. -/
theorem CmdsMapped.answers (h : CmdsMapped (s.begun f) t) (start : CanStart s f c) (st : NvStatus) (dw0 dw1 : Nat) :
    Answered (t.finish f st dw0 dw1) f = some st := h.answered (State.begun_found start) st dw0 dw1

theorem State.finish_ns (st : NvStatus) (dw0 dw1 nsid : Nat) : (s.finish f st dw0 dw1).ns nsid = s.ns nsid := rfl

/-! ### Reservations (R262, R263) -/

theorem State.setResv_ns {nsid : Nat} {g : Reservation → Reservation} (here : s.ns nsid = some n) :
    (s.setResv nsid g).ns nsid = some { n with res := g n.res } := by
  have same : (s.setResv nsid g).host = (s.modNs nsid fun n => { n with res := g n.res }).host := State.journal_host _ _
  rw [State.ns, same]
  exact State.ns_modNs here fun _ => rfl

theorem CmdsMapped.setResv {nsid : Nat} {g : Reservation → Reservation} (h : CmdsMapped s t) : CmdsMapped s (t.setResv nsid g) :=
  CmdsMapped.journal (t := t.modNs nsid _) (h.of_cmds rfl) _

theorem State.resvRegister_effect {key newKey : Nat} {ignoreKey : Bool} {ptpl : Option Bool} (start : CanStart s f c)
    (op : c.op = .resvRegister .register key newKey ignoreKey ptpl) (here : s.ns c.nsid = some n) (fresh : n.res.keyOf c.hostId = none)
    (room : n.res.registrants.length < 64) : Answered (s.resvRegister f) f = some .success ∧
      ((s.resvRegister f).ns c.nsid).map (·.res.registrants) = some (n.res.registrants ++ [(c.hostId, newKey)]) := by
  have there : (s.begun f).ns c.nsid = some n := here
  have acts : ∃ g : Reservation → Reservation, (∀ r, (g r).registrants = r.registrants ++ [(c.hostId, newKey)]) ∧
      s.resvRegister f = ((s.begun f).setResv c.nsid g).finish f .success := by
    rw [State.resvRegister, State.cmdOp_of_found start.1, op]
    dsimp only
    rw [State.admin_begun start, there]
    dsimp only
    rw [fresh, if_neg (by simp), if_neg (by simp [room])]
    refine ⟨_, fun r => ?_, rfl⟩
    cases ptpl <;> rfl
  obtain ⟨g, adds, ends⟩ := acts
  rw [ends]
  refine ⟨CmdsMapped.answers ((CmdsMapped.refl _).setResv) start _ _ _, ?_⟩
  rw [State.finish_ns, State.setResv_ns there, Option.map_some, adds]

theorem State.resvAcquire_effect {key prKey rtype : Nat} (start : CanStart s f c) (op : c.op = .resvAcquire .acquire key prKey rtype)
    (here : s.ns c.nsid = some n) (least : 1 ≤ rtype) (most : rtype ≤ 6) (mine : n.res.keyOf c.hostId = some key) (free : n.res.rtype = 0) :
    Answered (s.resvAcquire f) f = some .success ∧
      ((s.resvAcquire f).ns c.nsid).map (fun n => (n.res.holder, n.res.rtype)) = some (some c.hostId, rtype) := by
  have there : (s.begun f).ns c.nsid = some n := here
  have known : ¬(decide (rtype = 0) || decide (6 < rtype)) = true := by
    have some' : rtype ≠ 0 := by omega
    simp [some', Nat.not_lt.2 most]
  have acts : s.resvAcquire f = ((s.begun f).setResv c.nsid fun r => { r with holder := some c.hostId, rtype }).finish f .success := by
    rw [State.resvAcquire, State.cmdOp_of_found start.1, op]
    dsimp only
    rw [State.admin_begun start, there]
    dsimp only
    rw [if_neg known, if_neg (by simp [mine]), if_pos free]
  rw [acts]
  refine ⟨CmdsMapped.answers ((CmdsMapped.refl _).setResv) start _ _ _, ?_⟩
  rw [State.finish_ns, State.setResv_ns there]
  rfl

/-- Controllers that hear of an event change no namespace. -/
theorem CmdsMapped.notifyHosts (h : CmdsMapped s t) (hosts : List Nat) (maskBit : Nat) : CmdsMapped s (t.notifyHosts hosts maskBit) :=
  .foldl _ h fun _ k holds => .when holds fun _ holds => holds.hostEvent k 6 0

theorem State.notifyHosts_ns (hosts : List Nat) (maskBit nsid : Nat) : (s.notifyHosts hosts maskBit).ns nsid = s.ns nsid := by
  refine State.ns_of_host (List.foldlRecOn (motive := fun u : State => u.host.namespaces = s.host.namespaces) _ _ rfl fun u holds k _ => ?_) _
  unfold State.when
  split
  · exact (CmdsAlike.hostEvent k 6 0).1.trans holds
  · exact holds

theorem State.resvRelease_effect {key rtype : Nat} (start : CanStart s f c) (op : c.op = .resvRelease false key rtype)
    (here : s.ns c.nsid = some n) (mine : n.res.keyOf c.hostId = some key) (type : n.res.rtype = rtype) (taken : n.res.rtype ≠ 0)
    (holds : n.res.holds c.hostId = true) : Answered (s.resvRelease f) f = some .success ∧
      ((s.resvRelease f).ns c.nsid).map (·.res.rtype) = some 0 := by
  have there : (s.begun f).ns c.nsid = some n := here
  have acts : ∃ hosts, s.resvRelease f = (((s.begun f).setResv c.nsid Reservation.free).notifyHosts hosts 2).finish f .success := by
    rw [State.resvRelease, State.cmdOp_of_found start.1, op]
    dsimp only
    rw [State.admin_begun start, there]
    dsimp only
    rw [if_neg (by simp [mine]), if_neg (by simp), if_neg (by simp [taken, holds]), if_neg (by simp [type])]
    exact ⟨_, rfl⟩
  obtain ⟨hosts, ends⟩ := acts
  rw [ends]
  refine ⟨CmdsMapped.answers (CmdsMapped.notifyHosts ((CmdsMapped.refl _).setResv) hosts 2) start _ _ _, ?_⟩
  rw [State.finish_ns, State.notifyHosts_ns, State.setResv_ns there]
  rfl

/-- What was sent stays sent while more is. -/
theorem State.emits_sent {α : Type} (l : List α) (g : α → Out) {e : Out} (sent : e ∈ s.out) :
    e ∈ (l.foldl (fun s a => s.emit (g a)) s).out :=
  List.foldlRecOn (motive := fun u : State => e ∈ u.out) l _ sent fun _ holds _ _ => List.mem_cons_of_mem _ holds

theorem CmdsMapped.emits {α : Type} (h : CmdsMapped s t) (l : List α) (g : α → Out) : CmdsMapped s (l.foldl (fun s a => s.emit (g a)) t) :=
  .foldl l h fun _ _ holds => holds.of_cmds rfl

/-- What is to be sent is sent. -/
theorem State.emits_all {α : Type} (l : List α) (g : α → Out) : ∀ a ∈ l, g a ∈ (l.foldl (fun s a => s.emit (g a)) s).out := by
  induction l generalizing s with
  | nil => simp
  | cons a l ih =>
    intro b mem
    rcases List.mem_cons.1 mem with rfl | later
    · exact State.emits_sent (s := s.emit (g b)) l g List.mem_cons_self
    · exact ih b later

theorem State.resvReport_effect (start : CanStart s f c) (op : c.op = .resvReport) (here : s.ns c.nsid = some n) :
    Answered (s.resvReport f) f = some .success ∧ .hostData f 0 n.res.generation ∈ (s.resvReport f).out := by
  have there : (s.begun f).ns c.nsid = some n := here
  have acts : s.resvReport f = (n.res.registrants.foldl
      (fun s e => s.emit (.hostData f (64 + e.1) (e.2 * 2 + boolNat (n.res.holds e.1))))
      ((((s.begun f).emit (.hostData f 0 n.res.generation)).emit (.hostData f 4 n.res.rtype)).emit
        (.hostData f 5 n.res.registrants.length))).finish f .success := by
    rw [State.resvReport, State.cmdOp_of_found start.1, op]
    dsimp only
    rw [State.admin_begun start, there]
  rw [acts]
  refine ⟨CmdsMapped.answers
      (CmdsMapped.emits ?_ _ fun e : Nat × Nat => .hostData f (64 + e.1) (e.2 * 2 + boolNat (n.res.holds e.1))) start _ _ _, ?_⟩
  · exact (CmdsMapped.refl _).of_cmds rfl
  refine State.emits_sent n.res.registrants (fun e => .hostData f (64 + e.1) (e.2 * 2 + boolNat (n.res.holds e.1))) ?_
  simp [State.emit]

/-! ### Queues (R248, R252, R289) -/

theorem State.createSq_effect {sqid cqid size prio : Nat} (start : CanStart s f c) (op : c.op = .createSq sqid cqid size prio)
    (here : s.controller c.hqe = some k) (least : 1 ≤ sqid) (offered : sqid ≤ s.nioq c.hqe) (fresh : ∀ q ∈ k.sqs, q.sqid ≠ sqid)
    (two : 2 ≤ size) (most : size ≤ 4096) (completes : ∃ q ∈ k.cqs, q.1 = cqid) : Answered (s.createSq f) f = some .success ∧
      ((s.createSq f).controller c.hqe).map (·.sqs) = some (k.sqs ++ [{ sqid, cqid, size, prio, stream := none }]) := by
  have there : (s.begun f).controller c.hqe = some k := here
  have free : ¬(decide (sqid = 0) || decide ((s.begun f).nioq c.hqe < sqid) || k.sqs.any fun q => q.sqid == sqid) = true := by
    have some' : sqid ≠ 0 := by omega
    have offered' : ¬(s.begun f).nioq c.hqe < sqid := Nat.not_lt.2 offered
    have none' : (k.sqs.any fun q => q.sqid == sqid) = false := List.any_eq_false.2 fun q mem => by simpa using fresh q mem
    simp [some', offered', none']
  have fits : ¬(decide (size < 2) || decide (4096 < size)) = true := by
    simp only [Bool.or_eq_true, decide_eq_true_eq]
    omega
  have queue : ¬(!(k.cqs.any fun q => q.1 == cqid)) = true := by
    obtain ⟨q, mem, same⟩ := completes
    have found : (k.cqs.any fun q => q.1 == cqid) = true := List.any_eq_true.2 ⟨q, mem, by simp [same]⟩
    simp [found]
  have acts : s.createSq f = (((s.begun f).modController c.hqe fun k =>
      { k with sqs := k.sqs ++ [{ sqid, cqid, size, prio, stream := none }] }).ioqRefresh c.hqe).finish f .success := by
    rw [State.createSq, State.cmdOp_of_found start.1, op]
    dsimp only
    rw [State.admin_begun start, there]
    dsimp only
    rw [if_neg free, if_neg fits, if_neg queue]
  rw [acts]
  refine ⟨CmdsMapped.answers ((CmdsMapped.refl _).of_cmds rfl) start _ _ _, ?_⟩
  exact congrArg (Option.map (·.sqs)) (State.modController_self there _)

theorem State.createCq_effect {cqid size : Nat} {vector : Option Nat} (start : CanStart s f c) (op : c.op = .createCq cqid size vector)
    (here : s.controller c.hqe = some k) (least : 1 ≤ cqid) (offered : cqid ≤ s.nioq c.hqe) (fresh : ∀ q ∈ k.cqs, q.1 ≠ cqid)
    (two : 2 ≤ size) (most : size ≤ 4096) (vectors : ∀ v ∈ vector, v < 65) : Answered (s.createCq f) f = some .success ∧
      ((s.createCq f).controller c.hqe).map (·.cqs) = some (k.cqs ++ [(cqid, size, vector)]) := by
  have there : (s.begun f).controller c.hqe = some k := here
  have free : ¬(decide (cqid = 0) || decide ((s.begun f).nioq c.hqe < cqid) || k.cqs.any fun q => q.1 == cqid) = true := by
    have some' : cqid ≠ 0 := by omega
    have offered' : ¬(s.begun f).nioq c.hqe < cqid := Nat.not_lt.2 offered
    have none' : (k.cqs.any fun q => q.1 == cqid) = false := List.any_eq_false.2 fun q mem => by simpa using fresh q mem
    simp [some', offered', none']
  have fits : ¬(decide (size < 2) || decide (4096 < size)) = true := by
    simp only [Bool.or_eq_true, decide_eq_true_eq]
    omega
  have known : ¬(vector.any fun v => decide (65 ≤ v)) = true := by
    cases vector with
    | none => simp
    | some v => simpa using vectors v rfl
  have acts : s.createCq f = ((s.begun f).modController c.hqe fun k => { k with cqs := k.cqs ++ [(cqid, size, vector)] }).finish f .success := by
    rw [State.createCq, State.cmdOp_of_found start.1, op]
    dsimp only
    rw [State.admin_begun start, there]
    dsimp only
    rw [if_neg free, if_neg fits, if_neg known]
  rw [acts]
  refine ⟨CmdsMapped.answers ((CmdsMapped.refl _).of_cmds rfl) start _ _ _, ?_⟩
  exact congrArg (Option.map (·.cqs)) (State.modController_self there _)

theorem State.deleteCq_effect {cqid : Nat} (start : CanStart s f c) (op : c.op = .deleteCq cqid) (here : s.controller c.hqe = some k)
    (least : 1 ≤ cqid) (exists' : ∃ q ∈ k.cqs, q.1 = cqid) (unused : ∀ q ∈ k.sqs, q.cqid ≠ cqid) :
    Answered (s.deleteCq f) f = some .success ∧ ((s.deleteCq f).controller c.hqe).map (·.cqs) = some (k.cqs.filter fun q => q.1 != cqid) := by
  have there : (s.begun f).controller c.hqe = some k := here
  have known : ¬(decide (cqid = 0) || !(k.cqs.any fun q => q.1 == cqid)) = true := by
    obtain ⟨q, mem, same⟩ := exists'
    have found : (k.cqs.any fun q => q.1 == cqid) = true := List.any_eq_true.2 ⟨q, mem, by simp [same]⟩
    have some' : cqid ≠ 0 := by omega
    simp [found, some']
  have free : ¬(k.sqs.any fun q => q.cqid == cqid) = true := by
    rw [List.any_eq_false.2 fun q mem => by simpa using unused q mem]
    exact Bool.false_ne_true
  have acts : s.deleteCq f = ((s.begun f).modController c.hqe fun k => { k with cqs := k.cqs.filter fun q => q.1 != cqid }).finish f .success := by
    rw [State.deleteCq, State.cmdOp_of_found start.1, op]
    dsimp only
    rw [State.admin_begun start, there]
    dsimp only
    rw [if_neg known, if_neg free]
  rw [acts]
  refine ⟨CmdsMapped.answers ((CmdsMapped.refl _).of_cmds rfl) start _ _ _, ?_⟩
  exact congrArg (Option.map (·.cqs)) (State.modController_self there _)

/-! ### A queue that is deleted (R289) -/

theorem CmdsMapped.returnGrant (h : CmdsMapped s t) (g : Nat) : CmdsMapped s (t.returnGrant g) := by
  unfold State.returnGrant
  split
  · exact h
  · exact h.of_cmds rfl

theorem CmdsMapped.phvSweep (h : CmdsMapped s t) : CmdsMapped s t.phvSweep := by
  unfold State.phvSweep
  dsimp only
  refine CmdsMapped.of_host (CmdsMapped.foldl _ h fun u j holds => holds.returnGrant j.version)
    ((State.phvRefresh_after (.refl _) (Nat.or_self _) (Nat.or_self _)).parts .host rfl)

theorem CmdsMapped.stopRead (h : CmdsMapped s t) (f : Nat) (st : NvStatus) : CmdsMapped s (t.stopRead f st) :=
  CmdsMapped.phvSweep (CmdsMapped.finish (.foldl _ h fun u _ holds =>
    holds.of_host ((State.detachOf_after (.refl u) (Nat.or_self _) (Nat.or_self _)).parts .host rfl)) f st 0 0)

theorem CmdsOnward.resource (h : CmdsOnward s t) (g : Nat) : CmdsOnward s (t.resource g) := by
  refine List.foldlRecOn (motive := fun u : State => CmdsOnward s u) _ _ h fun u holds e _ => CmdsOnward.startReads (holds.mapped ?_) e.1 e.2
  exact CmdsMapped.of_cmds (t := u.modCmd e.1 fun c => { c with pins := c.pins.filter (· != g) })
    ((CmdsMapped.refl u).modCmd _ fun _ => .of_fields rfl rfl rfl) rfl

theorem CmdsOnward.dropWrite (h : CmdsOnward s t) (f : Nat) : CmdsOnward s (t.dropWrite f) := by
  unfold State.dropWrite
  dsimp only
  refine CmdsOnward.mapped (CmdsOnward.resource (CmdsOnward.mapped h ?_) f) (CmdsMapped.dropVersions (CmdsMapped.of_host (.refl _)
    ((State.logRefresh_after (.refl _) (Nat.or_self _) (Nat.or_self _)).parts .host rfl)))
  exact CmdsMapped.of_cmds (.refl t) rfl

theorem CmdsOnward.failWrite (h : CmdsOnward s t) (f : Nat) (st : NvStatus) : CmdsOnward s (t.failWrite f st) := by
  have dropped {u : State} (holds : CmdsOnward s u) (g : Nat) (st : NvStatus) : CmdsOnward s ((u.dropWrite g).finish g st) :=
    (holds.dropWrite g).mapped ((CmdsMapped.refl _).finish g st 0 0)
  unfold State.failWrite
  split
  · exact h.dropWrite f
  · dsimp only
    refine CmdsOnward.mapped (List.foldlRecOn (motive := fun u : State => CmdsOnward s u) _ _ (dropped ?_ f st) fun u holds g _ =>
      dropped holds g .zoneInvalidWrite) (CmdsMapped.refl _).settleWaits
    split
    · split
      · exact h
      · exact h.mapped (.of_cmds (.refl t) rfl)
    · exact h

theorem CmdsOnward.deleteCmd (h : CmdsOnward s t) (f : Nat) : CmdsOnward s (t.deleteCmd f) := by
  unfold State.deleteCmd
  split
  · exact h
  · split
    · exact h
    · split
      · split
        · exact h.failWrite f _
        · exact h.mapped ((CmdsMapped.refl t).finish f _ 0 0)
      · exact h.mapped ((CmdsMapped.refl t).stopRead f _)

theorem CmdsMapped.releaseStream (h : CmdsMapped s t) (e : Stream) (wdrn : Bool) : CmdsMapped s (t.releaseStream e wdrn) := by
  unfold State.releaseStream
  dsimp only
  refine CmdsMapped.refreshMode (CmdsMapped.of_host ?_ ((State.streamRefresh_after (.refl _) (Nat.or_self _) (Nat.or_self _)).parts .host rfl))
  refine h.trans ⟨_, fun c => ?_, rfl⟩
  exact .ite (.of_fields rfl rfl rfl)

theorem CmdsOnward.answered (h : CmdsOnward s t) (found : s.findCmd f = some c) (st : NvStatus) (dw0 dw1 : Nat) :
    Answered (t.finish f st dw0 dw1) f = some st := by
  have onward := h f
  rw [found] at onward
  generalize here : t.findCmd f = e at onward
  cases onward with
  | some _ => exact Answered.finish here st dw0 dw1

theorem State.deleteSq_effect {sqid : Nat} (start : CanStart s f c) (op : c.op = .deleteSq sqid) (here : s.controller c.hqe = some k)
    (least : 1 ≤ sqid) (exists' : ∃ q ∈ k.sqs, q.sqid = sqid) : Answered (s.deleteSq f) f = some .success ∧
      ∀ k', (s.deleteSq f).controller c.hqe = some k' → ∀ q ∈ k'.sqs, q.sqid ≠ sqid := by
  have there : (s.begun f).controller c.hqe = some k := here
  have known : ¬(!(((s.begun f).controller c.hqe).any fun k => k.sqs.any fun q => q.sqid == sqid) || decide (sqid = 0)) = true := by
    obtain ⟨q, mem, same⟩ := exists'
    have found : (k.sqs.any fun q => q.sqid == sqid) = true := List.any_eq_true.2 ⟨q, mem, by simp [same]⟩
    have some' : sqid ≠ 0 := by omega
    simp [there, found, some']
  have acts : ∃ u, CmdsOnward (s.begun f) u ∧ s.deleteSq f =
      ((u.modController c.hqe fun k => { k with sqs := k.sqs.filter fun q => q.sqid != sqid }).ioqRefresh c.hqe).finish f .success := by
    have ended (l : List Nat) : CmdsOnward (s.begun f) (l.foldl State.deleteCmd (s.begun f)) :=
      List.foldlRecOn (motive := fun u : State => CmdsOnward (s.begun f) u) l _ (CmdsMapped.refl _).onward fun u holds g _ => holds.deleteCmd g
    rw [State.deleteSq, State.cmdOp_of_found start.1, op]
    dsimp only
    rw [State.admin_begun start, if_neg known]
    refine ⟨_, ?_, rfl⟩
    split
    · exact (ended _).mapped ((CmdsMapped.refl _).releaseStream _ false)
    · exact ended _
  obtain ⟨u, onward, ends⟩ := acts
  rw [ends]
  refine ⟨CmdsOnward.answered (CmdsOnward.mapped onward (.of_cmds (.refl u) rfl)) (State.begun_found start) _ _ _, fun k' found q mem => ?_⟩
  change (u.host.controllers.modify c.hqe fun k => { k with sqs := k.sqs.filter fun q => q.sqid != sqid })[c.hqe]? = some k' at found
  rw [List.getElem?_modify_eq] at found
  obtain ⟨k, _, rfl⟩ := Option.map_eq_some_iff.1 found
  simpa using (List.mem_filter.1 mem).2

/-! ### Abort (R274 to R276) -/

/-- Another command is found as it was. -/
theorem State.findCmd_modCmd_ne {i : Nat} {g : Cmd → Cmd} (other : i ≠ f) (same : ∀ c, (g c).fseq = c.fseq) :
    (s.modCmd f g).findCmd i = s.findCmd i := by
  have keys : ((fun e : Cmd => e.fseq == i) ∘ fun e => if e.fseq == f then g e else e) = fun e => e.fseq == i := by
    funext e
    simp only [Function.comp_apply]
    split
    · rw [same]
    · rfl
  rw [State.findCmd, State.modCmd, State.modHost_host, List.find?_map, keys, State.findCmd]
  match found : s.host.cmds.find? fun e => e.fseq == i with
  | none => rw [found, Option.map_none]
  | some e =>
    have mine : e.fseq = i := by simpa using List.find?_some found
    rw [found]
    simp [mine, other]

theorem State.nvmeAbort_flush {sqid cid : Nat} {e : Cmd} (start : CanStart s f c) (op : c.op = .abort sqid cid) (few : s.abortsOf c.hqe < 4)
    (picked : (s.host.cmds.find? fun e => e.hqe == c.hqe && e.sqid == sqid && e.cid == cid && e.fseq != f) = some e)
    (found : s.findCmd e.fseq = some e) (flush : e.op = .flush) (open' : e.ready = none) :
    Answered (s.nvmeAbort f) e.fseq = some .abortRequested ∧ ((s.nvmeAbort f).findCmd f).map (·.waits) = some [e.fseq] := by
  have other : e.fseq ≠ f := by
    have := List.find?_some picked
    simp only [Bool.and_eq_true, bne_iff_ne] at this
    exact this.2
  have apart : (s.begun f).findCmd e.fseq = s.findCmd e.fseq := State.findCmd_modCmd_ne other fun _ => rfl
  have there : (s.begun f).findCmd e.fseq = some e := apart.trans found
  have again : ((s.begun f).host.cmds.find? fun e => e.hqe == c.hqe && e.sqid == sqid && e.cid == cid && e.fseq != f) = some e := by
    rw [State.begun, State.modCmd, State.modHost_host, List.find?_map]
    refine (congrArg (Option.map _) ((List.find?_congr fun e _ => ?_).trans picked)).trans ?_
    · dsimp only [Function.comp]
      split <;> rfl
    · simp [other]
  have acts : s.nvmeAbort f = (((s.begun f).finish e.fseq .abortRequested).modCmd f fun c => { c with waits := [e.fseq] }) := by
    rw [State.nvmeAbort, State.cmdOp_of_found start.1, op]
    dsimp only
    rw [if_neg (Nat.not_le.2 few), State.admin_begun start, again]
    simp only [State.abortCmd, there, flush, open', Option.isNone_none, if_true]
  let u := (s.begun f).finish e.fseq .abortRequested
  have kept : u.findCmd f = (s.begun f).findCmd f := State.findCmd_modCmd_ne (Ne.symm other) fun _ => rfl
  have ended : (u.modCmd f fun c => { c with waits := [e.fseq] }).findCmd e.fseq = u.findCmd e.fseq :=
    State.findCmd_modCmd_ne other fun _ => rfl
  have held : (u.modCmd f fun c => { c with waits := [e.fseq] }).findCmd f = some { c with started := true, waits := [e.fseq] } :=
    State.findCmd_modCmd (kept.trans (State.begun_found start)) fun _ => rfl
  rw [acts]
  refine ⟨?_, congrArg (Option.map (·.waits)) held⟩
  exact Answered.of_found (ended.trans (State.findCmd_finish there .abortRequested 0 0)) rfl

/-! ### Identify, log pages, self-tests, security (R252, R317) -/

theorem State.nvmeIdentify_controller (start : CanStart s f c) (op : c.op = .identify 1) : Answered (s.nvmeIdentify f) f = some .success ∧
    ∀ e ∈ s.identifyCtrl c.hqe, .hostData f e.1 e.2 ∈ (s.nvmeIdentify f).out := by
  have acts : s.nvmeIdentify f = ((s.identifyCtrl c.hqe).foldl (fun s e => s.emit (.hostData f e.1 e.2)) (s.begun f)).finish f .success := by
    rw [State.nvmeIdentify, State.cmdOp_of_found start.1, op]
    dsimp only
    rw [State.admin_begun start]
    rfl
  rw [acts]
  exact ⟨CmdsMapped.answers ((CmdsMapped.refl _).emits _ _) start _ _ _, State.emits_all _ fun e : Nat × Nat => .hostData f e.1 e.2⟩

/-- Which log pages there are does not depend on the state. -/
theorem State.logPage_isSome (hqe lid offset n : Nat) : (t.logPage hqe lid offset n).isSome = (s.logPage hqe lid offset n).isSome := by
  unfold State.logPage
  split <;> simp only [Option.isSome_some, Option.isSome_none]

theorem CmdsMapped.clearChanges (h : CmdsMapped s t) (hqe lid : Nat) : CmdsMapped s (t.clearChanges hqe lid) := by
  unfold State.clearChanges
  split
  · exact h.of_cmds rfl
  · split
    · exact h.of_cmds rfl
    · split
      · exact h.of_cmds rfl
      · exact h

theorem State.getLogPage_answers {lid offset n : Nat} (start : CanStart s f c) (op : c.op = .getLog lid offset n) :
    ((s.logPage c.hqe lid offset n).isSome = true → Answered (s.getLogPage f) f = some .success) ∧
      (s.logPage c.hqe lid offset n = none → Answered (s.getLogPage f) f = some .invalidLogPage) := by
  have same := State.logPage_isSome (s := s) (t := s.begun f) c.hqe lid offset n
  refine ⟨fun page => ?_, fun none' => ?_⟩
  · rw [page] at same
    obtain ⟨ws, there⟩ := Option.isSome_iff_exists.1 same
    simp only [State.getLogPage, State.cmdOp_of_found start.1, op, State.admin_begun start, there]
    exact CmdsMapped.answers (((CmdsMapped.refl _).emits _ _).clearChanges _ _) start _ _ _
  · rw [none', Option.isSome_none] at same
    have absent : (s.begun f).logPage c.hqe lid offset n = none := Option.isNone_iff_eq_none.1 (by rw [← Option.not_isSome, same]; rfl)
    simp only [State.getLogPage, State.cmdOp_of_found start.1, op, State.admin_begun start, absent]
    exact CmdsMapped.answers (.refl _) start _ _ _

theorem State.selfTest_effect {passed : Bool} (start : CanStart s f c) (op : c.op = .selfTest 1) :
    Answered (s.selfTest f passed) f = some .success ∧
      (s.selfTest f passed).host.selfTests.head? = some (16 + if passed then 0 else 7) := by
  have acts : s.selfTest f passed = ((s.begun f).modHost fun h =>
      { h with selfTests := (1 * 16 + (if passed then 0 else 7)) :: h.selfTests.take 19 }).finish f .success := by
    rw [State.selfTest, State.cmdOp_of_found start.1, op]
    dsimp only
    rw [State.admin_begun start]
    rfl
  rw [acts]
  exact ⟨CmdsMapped.answers ((CmdsMapped.refl _).of_cmds rfl) start _ _ _, rfl⟩

theorem State.security_effect {protocol : Nat} {receive : Bool} (start : CanStart s f c) :
    Answered (s.security f protocol receive) f = some (if protocol = 0 then .success else .invalidField) ∧
      (receive = true → protocol = 0 → .hostData f 0 0 ∈ (s.security f protocol receive).out) := by
  rw [State.security, State.admin_begun start]
  by_cases zero : protocol = 0
  · rw [if_neg (by simp [zero]), if_pos zero]
    refine ⟨CmdsMapped.answers (.when (.refl _) fun u holds => ?_) start _ _ _, fun received _ => ?_⟩
    · exact holds.of_cmds rfl
    · subst received
      exact List.mem_cons_self
  · rw [if_pos (by simp [zero]), if_neg zero]
    exact ⟨CmdsMapped.answers (.refl _) start _ _ _, fun _ none => absurd none zero⟩

/-! ### Features and events (R252, R398) -/

theorem State.setFeatures_stored {dw11 dw12 dw13 : Nat} (start : CanStart s f c) (op : c.op = .setFeature 0x0B dw11 dw12 dw13 false)
    (here : s.controller c.hqe = some k) : Answered (s.setFeatures f) f = some .success ∧
      ((s.setFeatures f).controller c.hqe).map (·.features) = some (storePut k.features (featureKey 0x0B dw11) dw11) := by
  have there : (s.begun f).controller c.hqe = some k := here
  have acts : s.setFeatures f = ((s.begun f).modController c.hqe fun k =>
      { k with features := storePut k.features (featureKey 0x0B dw11) dw11, hostId := k.hostId }).finish f .success := by
    rw [State.setFeatures, State.cmdOp_of_found start.1, op]
    dsimp only
    rw [if_neg (by decide), State.admin_begun start]
    rfl
  rw [acts]
  refine ⟨CmdsMapped.answers ((CmdsMapped.refl _).of_cmds rfl) start _ _ _, ?_⟩
  exact congrArg (Option.map (·.features)) (State.modController_self there _)

theorem State.getFeatures_read {dw11 : Nat} (start : CanStart s f c) (op : c.op = .getFeature 0x0B dw11) (here : s.controller c.hqe = some k) :
    ((s.getFeatures f).findCmd f).map (·.ready) = some (some (.success, k.feature 0x0B, 0)) := by
  have there : (s.begun f).controller c.hqe = some k := here
  have acts : s.getFeatures f = (s.begun f).finish f .success (k.feature 0x0B) := by
    rw [State.getFeatures, State.cmdOp_of_found start.1, op]
    dsimp only
    rw [if_neg (by decide), State.admin_begun start, there]
    rfl
  rw [acts, State.findCmd_finish (State.begun_found start)]
  rfl

theorem State.setTelemetry_effect {dw11 dw12 dw13 : Nat} (start : CanStart s f c) (op : c.op = .setFeature 0xC4 dw11 dw12 dw13 false) :
    Answered (s.setTelemetry f) f = some .success ∧ (s.setTelemetry f).host.telemetryMs = dw11 % 65536 := by
  have acts : s.setTelemetry f = ((s.begun f).modHost fun h => { h with telemetryMs := dw11 % 65536 }).finish f .success := by
    rw [State.setTelemetry, State.cmdOp_of_found start.1, op]
    dsimp only
    rw [if_pos rfl, State.admin_begun start]
    rfl
  rw [acts]
  exact ⟨CmdsMapped.answers ((CmdsMapped.refl _).of_cmds rfl) start _ _ _, rfl⟩

theorem State.asyncRequest_answers {type info : Nat} {later : List (Nat × Nat)} (start : CanStart s f c) (op : c.op = .asyncEvent)
    (here : s.controller c.hqe = some k) (waits : k.events = (type, info) :: later) :
    ((s.asyncRequest f).findCmd f).map (·.ready) = some (some (.success, eventDword type info, 0)) ∧
      ((s.asyncRequest f).controller c.hqe).map (·.events) = some later := by
  have there : (s.begun f).controller c.hqe = some k := here
  have acts : s.asyncRequest f = ((s.begun f).modController c.hqe fun k => { k with events := later }).finish f .success (eventDword type info) := by
    rw [State.asyncRequest, State.cmdOp_of_found start.1, op]
    dsimp only
    rw [here, Option.map_some, waits]
    dsimp only
    rw [State.admin_begun start]
  rw [acts]
  refine ⟨?_, congrArg (Option.map (·.events)) (State.modController_self there _)⟩
  rw [State.findCmd_finish (s := (s.begun f).modController c.hqe fun k => { k with events := later }) (State.begun_found start)]
  rfl

end

end Sys2Proof.Machine

/-! PROOF. Proofs/Streams.lean: stream queues armed, disarmed and asked about (R277 to R281). -/
namespace Sys2Proof.Machine

section
variable {s t u : State} {f : Nat} {c d : Cmd} {n : Namespace} {k : Controller}

/-! ### An answer stays (R384) -/

/-- Every command with this FSEQ has this answer. -/
def AnswerStands (f : Nat) (a : NvStatus × Nat × Nat) (s : State) : Prop := ∀ e ∈ s.host.cmds, e.fseq = f → e.ready = some a

section
variable {a : NvStatus × Nat × Nat}

theorem AnswerStands.of_cmds (h : AnswerStands f a s) (same : t.host.cmds = s.host.cmds) : AnswerStands f a t := by
  rw [AnswerStands, same]
  exact h

theorem AnswerStands.of_host (h : AnswerStands f a s) (same : t.host = s.host) : AnswerStands f a t := h.of_cmds (congrArg HostState.cmds same)

theorem AnswerStands.finish (s : State) (f : Nat) (st : NvStatus) (dw0 dw1 : Nat) : AnswerStands f (st, dw0, dw1) (s.finish f st dw0 dw1) := by
  intro e mem mine
  obtain ⟨e', _, rfl⟩ := List.mem_map.1 mem
  split at mine
  · next h => rw [if_pos h]
  · next h => exact absurd (by simpa using mine) h

theorem AnswerStands.giveReply (h : AnswerStands f a s) {g : Nat} (other : g ≠ f) (numd : Nat) (r : CiborReply) :
    AnswerStands f a (s.giveReply g numd r) := by
  unfold State.giveReply
  dsimp only
  generalize fits : State.when _ _ _ = u
  have kept : u.host = s.host := by
    rw [← fits, State.when]
    split <;> exact (State.hostData_kept g _).2
  intro e mem mine
  obtain ⟨e', mem', rfl⟩ := List.mem_map.1 mem
  rw [kept] at mem'
  split at mine
  · next hit => exact absurd ((by simpa using hit : e'.fseq = g).symm.trans mine) other
  · next miss =>
    rw [if_neg miss]
    exact h e' mem' mine

/-- A reply is given to a command that waits. -/
theorem State.waitingReceive_waits {r : CiborReply} {g numd : Nat} (waits : s.waitingReceive r = some (g, numd)) :
    ∃ e ∈ s.host.cmds, e.fseq = g ∧ e.ready = none := by
  obtain ⟨e, mem, hit⟩ := List.exists_of_findSome?_eq_some waits
  refine ⟨e, mem, ?_⟩
  split at hit
  · split at hit
    · next asks =>
      simp only [Bool.and_eq_true, Option.isNone_iff_eq_none] at asks
      simp only [Option.some.injEq, Prod.mk.injEq] at hit
      exact ⟨hit.1, asks.1.2⟩
    · cases hit
  · cases hit

theorem AnswerStands.reply (h : AnswerStands f a s) (r : CiborRequest) (st : CStat) (d1 d2 : Nat) (results payload : List Nat) :
    AnswerStands f a (s.reply r st d1 d2 results payload) := by
  simp only [State.reply]
  split
  · exact h
  · split
    · refine AnswerStands.of_host h ?_
      unfold State.when
      split
      · exact List.foldlRecOn (motive := fun v : State => v.host = s.host) _ _ rfl fun _ same _ _ => same
      · rfl
    · split
      · next g numd waits =>
        obtain ⟨e, mem, number, open'⟩ := State.waitingReceive_waits waits
        refine AnswerStands.giveReply (s := State.modBur (State.modBur s _) _) h (fun same => ?_) _ _
        have stands := h e mem (number.trans same)
        rw [open'] at stands
        cases stands
      · exact h

theorem AnswerStands.refreshMode (h : AnswerStands f a s) : AnswerStands f a s.refreshMode := by
  refine List.foldlRecOn (motive := fun u : State => AnswerStands f a u) _ _
    (h.of_host ((State.nextMode_after (.refl s) (Nat.or_self _) (Nat.or_self _)).parts .host rfl)) fun u holds r _ => ?_
  rcases State.settleOne_cases u r with same | ⟨st, d1, d2, results, payload, replied⟩
  · rwa [same]
  · rw [replied]
    exact holds.reply r st d1 d2 results payload

theorem AnswerStands.answered (h : AnswerStands f a t) (mapped : CmdsMapped s t) (found : s.findCmd f = some c) :
    Answered t f = some a.1 := by
  obtain ⟨e, here, _⟩ := mapped.found found
  exact Answered.of_found here (h e (List.mem_of_find?_eq_some here) (State.findCmd_fseq here))

end

/-! ### Stream queues -/

theorem State.streamCapacity_answers {dw11 : Nat} (start : CanStart s f c) (op : c.op = .getFeature 0xC1 dw11) :
    Answered (s.streamCapacity f) f = some .success := by
  rw [State.streamCapacity, State.cmdOp_of_found start.1, op]
  dsimp only
  rw [if_pos rfl, State.admin_begun start]
  exact CmdsMapped.answers (.refl _) start _ _ _

theorem State.streamQueueGet_effect {dw11 : Nat} (start : CanStart s f c) (op : c.op = .getFeature 0xC0 dw11) :
    Answered (s.streamQueueGet f) f = some .success ∧
      ∀ e ∈ (s.streamQueueGet f).host.withdrawn, e.1 = c.hqe → e.2.1 = dw11 % 65536 → e.2.2.1 = false := by
  have acts : ∃ dw0, s.streamQueueGet f = ((s.begun f).modHost fun h => { h with withdrawn := h.withdrawn.map fun e =>
      if e.1 == c.hqe && e.2.1 == dw11 % 65536 then (e.1, e.2.1, false, e.2.2.2) else e }).finish f .success dw0 := by
    rw [State.streamQueueGet, State.cmdOp_of_found start.1, op]
    dsimp only
    rw [if_pos rfl, State.admin_begun start]
    exact ⟨_, rfl⟩
  obtain ⟨dw0, ends⟩ := acts
  rw [ends]
  refine ⟨CmdsMapped.answers ((CmdsMapped.refl _).of_cmds rfl) start _ _ _, fun e mem controller queue => ?_⟩
  obtain ⟨e', _, rfl⟩ := List.mem_map.1 mem
  split at controller
  · next hit => rw [if_pos hit]
  · next miss =>
    rw [if_neg miss] at queue
    exact absurd (by simp [controller, queue]) miss

theorem State.streamRefresh_host : s.streamRefresh.host = s.host :=
  (State.streamRefresh_after (.refl s) (Nat.or_self _) (Nat.or_self _)).parts .host rfl

/-- A stream's release leaves the others. -/
theorem State.releaseStream_streams (e : Stream) (wdrn : Bool) : (s.releaseStream e wdrn).host.streams =
    s.host.streams.filter fun u => !(u.hqe == e.hqe && u.slot == e.slot) := by
  unfold State.releaseStream
  dsimp only
  obtain ⟨g, host⟩ := State.refreshMode_host (s := State.streamRefresh (State.unflag (s.modHost _) .HQEn_STRM_Q_ARMED (slotIx e.hqe e.slot)))
  rw [host, State.streamRefresh_host]
  rfl

theorem State.streamQueueDisarm_effect {dw11 dw12 dw13 : Nat} {save : Bool} {e : Stream} (start : CanStart s f c)
    (op : c.op = .setFeature 0xC0 dw11 dw12 dw13 save) (off : dw11.testBit 16 = false)
    (armed : (s.host.streams.find? fun t => t.hqe == c.hqe && t.sqid == dw11 % 65536) = some e) :
    Answered (s.streamQueueDisarm f) f = some .success ∧
      (s.streamQueueDisarm f).host.streams = s.host.streams.filter fun v => !(v.hqe == e.hqe && v.slot == e.slot) := by
  have there : ((s.begun f).host.streams.find? fun t => t.hqe == c.hqe && t.sqid == dw11 % 65536) = some e := armed
  have acts : s.streamQueueDisarm f = ((s.begun f).releaseStream e false).finish f .success := by
    rw [State.streamQueueDisarm, State.cmdOp_of_found start.1, op]
    dsimp only
    rw [if_pos (by simp [off]), State.admin_begun start, there]
  rw [acts]
  exact ⟨CmdsMapped.answers ((CmdsMapped.refl _).releaseStream e false) start _ _ _, State.releaseStream_streams (s := s.begun f) e false⟩

/-- What the checks of arming ask of the stream `e` that command `c` describes, on namespace `n` (R278). -/
structure ArmAccepted (s : State) (c : Cmd) (n : Namespace) (e : Stream) (dw11 dw12 dw13 : Nat) : Prop where
  queue : ∃ k, s.controller c.hqe = some k ∧ ∃ q ∈ k.sqs, q.sqid = dw11 % 65536
  fields : dw11 < 2 ^ 22 ∧ dw12 < 2 ^ 24 ∧ dw13 < 256 ∧ 1 ≤ dw11 % 65536 ∧ dw12 ≠ 0 ∧ dw13 ≠ 0
  fresh : ∀ u ∈ s.host.streams, ¬(u.hqe = c.hqe ∧ u.sqid = dw11 % 65536)
  owner : (s.host.namespaces.find? fun n => n.nsid == c.nsid && n.kind != .managed && n.attached.contains c.hqe) = some n
  stream : e = { hqe := c.hqe, slot := (s.freeStreamSlot c.hqe).getD 0, sqid := dw11 % 65536, nsid := c.nsid, read := dw11.testBit 17
                 mask := if dw11 / 2 ^ 18 % 16 = 0 then s.stringMask n.mask else dw11 / 2 ^ 18 % 16, bpf := dw12, dlf := dw13
                 aord := s.host.aordNext, pages := 0, reached := Quad.all 0 }
  strings : ∀ x, e.mask.testBit x.num = true → (s.stringMask n.mask).testBit x.num = true ∧ s.present x = true ∧ s.isolated x = false
  locked : s.rd .CAPO_STAT_STATE = 3
  room : s.host.streams.length < 16 ∧ (s.freeStreamSlot c.hqe).isSome = true
  media : (s.recordAvail e).shortStrs s.host.streams e = []
  harp : e.read = false ∨ (s.recordAvail e).harpFits (s.host.streams ++ [e]) (s.rd .HARP_STAT_AVAIL) = true
  space : (s.recordAvail e).streamSpaceFits e = true

theorem State.recordAvail_keeps (e : Stream) : Keeps (maskOf [.STRM_AVL_AVAIL]) 0 s (s.recordAvail e) :=
  State.recordAvail_after (.refl s) (by decide) (by decide)

/-- A stream that every check accepts is armed. -/
theorem State.streamArm_armed {e : Stream} {dw11 dw12 dw13 : Nat} (accepted : ArmAccepted s c n e dw11 dw12 dw13) :
    ∃ w, CmdsMapped s w ∧ w.host.streams = s.host.streams ++ [e] ∧ s.streamArm c dw11 dw12 dw13 false =
      (((w.finish c.fseq .success).showSlot e).streamRefresh).refreshMode := by
  obtain ⟨⟨k, here, q, mem, number⟩, ⟨small11, small12, small13, least, frets, length⟩, fresh, owner, stream, strings, locked,
    ⟨few, slot⟩, media, harp, space⟩ := accepted
  unfold State.streamArm
  extract_lets f sqid read bpf dlf reserved queue armed state
  have hasQueue : queue = true := by
    simp only [queue, here, Option.any_some]
    exact List.any_eq_true.2 ⟨q, mem, by simp [number, sqid]⟩
  have notArmed : armed = false := List.any_eq_false.2 fun u inside => by simpa using fresh u inside
  have plain : reserved = false := by
    simp only [reserved, Nat.div_eq_of_lt small11, Nat.div_eq_of_lt small12, Nat.div_eq_of_lt small13]
    rfl
  have bpfs : bpf = dw12 := Nat.mod_eq_of_lt small12
  have dlfs : dlf = dw13 := Nat.mod_eq_of_lt small13
  have numbered : ¬(decide (sqid = 0) || !queue) = true := by
    have some' : sqid ≠ 0 := by omega
    simp [some', hasQueue]
  have given : ¬(armed || reserved || decide (bpf = 0) || decide (dlf = 0)) = true := by simp [notArmed, plain, bpfs, dlfs, frets, length]
  rw [if_neg (by decide), if_neg numbered, if_neg given, owner]
  dsimp -zeta only
  extract_lets all mask t recorded short entered pointed answered
  have same : t = e := by
    rw [stream]
    simp only [t, bpfs, dlfs, sqid, read, mask, all]
  have masks : mask = e.mask := by rw [← same]
  have allowed : ¬(Str.all.any fun x => mask.testBit x.num && (!all.testBit x.num || !s.present x)) = true := by
    rw [List.any_eq_true]
    rintro ⟨x, _, outside⟩
    rw [masks] at outside
    by_cases named : e.mask.testBit x.num = true
    · obtain ⟨within, present, _⟩ := strings x named
      simp [all, within, present] at outside
    · simp [named] at outside
  have counting : ¬(state != 2 && state != 3 && state != 4) = true := by simp [state, State.capoState, locked]
  have slots : ¬(decide (16 ≤ s.host.streams.length) || (s.freeStreamSlot c.hqe).isNone) = true := by
    simp [Nat.not_le.2 few, Option.isSome_iff_ne_none.1 slot]
  have connected : ¬((maskStrs mask).any s.isolated) = true := by
    rw [List.any_eq_true]
    rintro ⟨x, inside, lost⟩
    rw [masks] at inside
    rw [(strings x (List.mem_filter.1 inside).2).2.2] at lost
    cases lost
  have kept := State.recordAvail_keeps (s := s) e
  have recorded' : recorded = s.recordAvail e := by simp only [recorded, same]
  have streams : recorded.host.streams = s.host.streams := by rw [recorded', kept.parts .host rfl]
  have reads : read = e.read := by rw [← same]
  have strung : ¬(!short.isEmpty) = true := by
    have none' : short = [] := by
      simp only [short]
      rw [streams, same, recorded', media]
    simp [none']
  have laned : ¬(read && !recorded.harpFits (recorded.host.streams ++ [t]) (recorded.rd .HARP_STAT_AVAIL)) = true := by
    rw [streams, same, recorded', kept.rd .HARP_STAT_AVAIL _ (by decide), reads]
    rcases harp with writes | fits
    · simp [writes]
    · simp [fits]
  have spaced : ¬(!recorded.streamSpaceFits t) = true := by
    rw [same, recorded', space]
    decide
  rw [if_neg allowed, if_neg counting, if_neg slots, if_neg connected, if_neg strung, if_neg laned, if_neg spaced]
  have beside : CmdsMapped s recorded := by
    rw [recorded']
    exact .of_host (.refl s) (kept.parts .host rfl)
  have begun : CmdsMapped s pointed := beside.of_cmds rfl
  have joined : pointed.host.streams = s.host.streams ++ [e] := by
    change recorded.host.streams ++ [t] = _
    rw [streams, same]
  refine ⟨_, begun.journal (deviceRow (128 + t.aord % 16)), ?_, ?_⟩
  · rw [State.journal_host, joined]
  · rw [← same]

/-- The Frets and lanes that are free do not depend on the commands. -/
theorem State.recordAvail_begun (e : Stream) : (s.begun f).recordAvail e = (s.recordAvail e).begun f := by
  unfold State.recordAvail
  generalize maskStrs e.mask = l
  induction l generalizing s with
  | nil => rfl
  | cons x l ih => exact ih (s := s.wr .STRM_AVL_AVAIL (s.availFrets e.read) x.num)

theorem ArmAccepted.begun {e : Stream} {dw11 dw12 dw13 : Nat} (h : ArmAccepted s c n e dw11 dw12 dw13) :
    ArmAccepted (s.begun f) c n e dw11 dw12 dw13 := by
  obtain ⟨queue, fields, fresh, owner, stream, strings, locked, room, media, harp, space⟩ := h
  have same := State.recordAvail_begun (s := s) (f := f) e
  refine ⟨queue, fields, fresh, owner, stream, strings, locked, room, ?_, ?_, ?_⟩
  · rw [same]
    exact media
  · rw [same]
    exact harp
  · rw [same]
    exact space

theorem State.streamQueueArm_effect {e : Stream} {dw11 dw12 dw13 : Nat} (start : CanStart s f c) (number : c.fseq = f)
    (op : c.op = .setFeature 0xC0 dw11 dw12 dw13 false) (on : dw11.testBit 16 = true) (accepted : ArmAccepted s c n e dw11 dw12 dw13) :
    Answered (s.streamQueueArm f) f = some .success ∧ (s.streamQueueArm f).host.streams = s.host.streams ++ [e] := by
  obtain ⟨w, mapped, joined, ends⟩ := State.streamArm_armed (accepted.begun (f := f))
  have acts : s.streamQueueArm f = (((w.finish f .success).showSlot e).streamRefresh).refreshMode := by
    rw [State.streamQueueArm, State.cmdOp_of_found start.1, op]
    dsimp only
    rw [if_pos (by simp [on]), State.admin_begun start, ends, number]
  let v := ((w.finish f .success).showSlot e).streamRefresh
  have shown : v.host = (w.finish f .success).host :=
    State.streamRefresh_host.trans ((State.showSlot_after (.refl _) (Nat.or_self _) (Nat.or_self _)).parts .host rfl)
  obtain ⟨g, host⟩ := State.refreshMode_host (s := v)
  rw [acts]
  refine ⟨?_, ?_⟩
  · exact AnswerStands.answered (AnswerStands.refreshMode ((AnswerStands.finish w f .success 0 0).of_host shown))
      (CmdsMapped.refreshMode ((mapped.finish f .success 0 0).of_host shown)) (State.begun_found start)
  · rw [host, shown]
    exact joined

end

/-- Settles O30. -/
theorem adminEffects : Obligations.AdminEffects := by
  unfold Obligations.AdminEffects
  refine ⟨fun s f key newKey ignoreKey ptpl c n start op here fresh room => ⟨_, rfl, State.resvRegister_effect start op here fresh room⟩,
    fun s f key prKey rtype c n start op here least most mine free => ⟨_, rfl, State.resvAcquire_effect start op here least most mine free⟩,
    fun s f key rtype c n start op here mine type taken holds => ⟨_, rfl, State.resvRelease_effect start op here mine type taken holds⟩,
    fun s f c n start op here => ⟨_, rfl, State.resvReport_effect start op here⟩,
    fun s f sqid cqid size prio c k start op here least offered fresh two most completes =>
      ⟨_, rfl, State.createSq_effect start op here least offered fresh two most completes⟩,
    fun s f cqid size vector c k start op here least offered fresh two most vectors =>
      ⟨_, rfl, State.createCq_effect start op here least offered fresh two most vectors⟩,
    fun s f sqid c k start op here least exists' => ⟨_, rfl, State.deleteSq_effect start op here least exists'⟩,
    fun s f cqid c k start op here least exists' unused => ⟨_, rfl, State.deleteCq_effect start op here least exists' unused⟩,
    fun s f c start op => ⟨_, rfl, State.nvmeIdentify_controller start op⟩,
    fun s f lid offset n c start op => ⟨_, rfl, State.getLogPage_answers start op⟩,
    fun s f sqid cid c e start op few picked found flush open' =>
      ⟨_, rfl, State.nvmeAbort_flush start op few picked found flush open'⟩,
    fun s f dw11 dw12 dw13 c k start op here => ⟨_, rfl, State.setFeatures_stored start op here⟩,
    fun s f dw11 c k start op here => ⟨_, rfl, State.getFeatures_read start op here⟩,
    fun s f sqid dw11 dw12 dw13 c k n st start number op on small11 small12 small13 named least here queue fresh frets length owner stream
      strings locked few slot media harp space => ⟨_, rfl, ?_⟩,
    fun s f dw11 dw12 dw13 save c u start op off armed => ⟨_, rfl, State.streamQueueDisarm_effect start op off armed⟩,
    fun s f dw11 c start op => ⟨_, rfl, State.streamQueueGet_effect start op⟩,
    fun s f dw11 c start op => ⟨_, rfl, State.streamCapacity_answers start op⟩,
    fun s f dw11 dw12 dw13 c start op => ⟨_, rfl, State.setTelemetry_effect start op⟩,
    fun s f type info later c k start op here waits => ⟨_, rfl, State.asyncRequest_answers start op here waits⟩,
    fun s f passed c start op => ⟨_, rfl, State.selfTest_effect start op⟩, fun s f protocol c start op => ⟨_, rfl, ?_⟩,
    fun s f protocol c start op => ⟨_, rfl, ?_⟩⟩
  · subst named
    exact State.streamQueueArm_effect start number op on
      ⟨⟨k, here, queue⟩, ⟨small11, small12, small13, least, frets, length⟩, fresh, owner, stream, strings, locked, ⟨few, slot⟩, media,
        harp, space⟩
  · have acts : s.securitySend f = s.security f protocol false := by rw [State.securitySend, State.cmdOp_of_found start.1, op]
    rw [acts]
    exact (State.security_effect start).1
  · have acts : s.securityReceive f = s.security f protocol true := by rw [State.securityReceive, State.cmdOp_of_found start.1, op]
    rw [acts]
    obtain ⟨answer, sent⟩ := State.security_effect (protocol := protocol) (receive := true) start
    exact ⟨answer, sent rfl⟩

end Sys2Proof.Machine

/-! PROOF. Proofs/Bench.lean: the Bench port, its sessions, halted engines and shadow-step (R468 to R476). -/
namespace Sys2Proof.Machine

section
variable {s : State}

/-! ### TAP instructions (R468) -/

theorem State.tapSample_effect : (s.rd .LC_STAT_STATE ≠ 5 → s.tapSample.bench.ir = 2) ∧
    (s.rd .LC_STAT_STATE = 5 → s.tapSample.bench.ir = 0 ∧ s.tapSample.rd .BNCH_STAT_DENIED = 1) := by
  refine ⟨fun live => ?_, fun scrapped => ?_⟩
  · rw [State.tapSample, if_neg live]
    rfl
  · rw [State.tapSample, if_pos scrapped]
    exact ⟨rfl, State.rd_flag_self ..⟩

theorem State.tapScan_permitted {ir : Nat} (live : s.rd .LC_STAT_STATE ≠ 5)
    (opened : s.rd .LC_STAT_STATE = 3 → s.isSet .BNCH_STAT_SESSION = true) :
    (s.speState = 0 → (∀ x, s.sceState x = 0) → (s.tapScan ir).bench.ir = ir) ∧
      ((s.speState ≠ 0 ∨ ∃ x, s.sceState x ≠ 0) →
        (s.tapScan ir).bench.ir = 0 ∧ (s.tapScan ir).rd .BNCH_STAT_BSCAN_BLK = 1) := by
  have permitted : ¬(decide (s.rd .LC_STAT_STATE = 5) || (decide (s.rd .LC_STAT_STATE = 3) && !s.isSet .BNCH_STAT_SESSION)) = true := by
    by_cases field : s.rd .LC_STAT_STATE = 3 <;> simp [live, field, opened]
  simp only [State.tapScan]
  rw [if_neg permitted]
  refine ⟨fun spindle heads => ?_, fun moving => ?_⟩
  · rw [if_neg (by simp [spindle, heads])]
    rfl
  · have blocked : (s.speState != 0 || Str.all.any fun x => s.sceState x != 0) = true := by
      rcases moving with spindle | ⟨x, loaded⟩
      · simp [spindle]
      · have some' : (Str.all.any fun x => s.sceState x != 0) = true := List.any_eq_true.2 ⟨x, Str.mem_all x, by simpa using loaded⟩
        rw [some', Bool.or_true]
    rw [if_pos blocked]
    exact ⟨rfl, State.rd_flag_self ..⟩

theorem State.tapScan_denied {ir : Nat} (closed : s.rd .LC_STAT_STATE = 5 ∨ (s.rd .LC_STAT_STATE = 3 ∧ s.rd .BNCH_STAT_SESSION = 0)) :
    (s.tapScan ir).bench.ir = 0 ∧ (s.tapScan ir).rd .BNCH_STAT_DENIED = 1 := by
  have denied : (decide (s.rd .LC_STAT_STATE = 5) || (decide (s.rd .LC_STAT_STATE = 3) && !s.isSet .BNCH_STAT_SESSION)) = true := by
    rcases closed with scrapped | ⟨field, session⟩
    · simp [scrapped]
    · simp [field, State.isSet, session]
  simp only [State.tapScan]
  rw [if_pos denied]
  exact ⟨rfl, State.rd_flag_self ..⟩

theorem State.tapDbg_effect : (s.benchOpen = true → s.tapDbg.bench.ir = 6) ∧
    (s.benchOpen = false → s.tapDbg.bench.ir = 0 ∧ s.tapDbg.rd .BNCH_STAT_DENIED = 1) := by
  refine ⟨fun opens => ?_, fun closed => ?_⟩
  · rw [State.tapDbg, if_pos opens]
    rfl
  · rw [State.tapDbg, if_neg (by simp [closed])]
    exact ⟨rfl, State.rd_flag_self ..⟩

/-! ### Frames, challenges and sessions (R469, R472) -/

theorem State.benchPacket_accepts {bs : List Nat} (opens : s.benchOpen = true)
    (check : s.ciborCheck (packetRequest 9 s.bur.order bs) bs = none) (single : segmented (packetRequest 9 s.bur.order bs).opcode = false) :
    (s.benchPacket bs).bur.requests = s.bur.requests ++ [packetRequest 9 s.bur.order bs] := by
  simp only [State.benchPacket, opens, Bool.not_true, Bool.false_eq_true, if_false, State.ciborArrive_single check single]
  rfl

theorem State.benchFrame_keeps (type : Nat) (payload : List Nat) : Keeps 0 (maskOfParts [.out]) s (s.benchFrame type payload) :=
  State.benchFrame_after (.refl s) (by decide) (by decide)

theorem State.benchChallenge_live (live : s.rd .LC_STAT_STATE ≠ 5) : s.benchChallenge.rd .LC_STAT_CHAL_LIVE = 1 ∧
    s.benchChallenge.lc.challenge = some ((List.range 8).map fun i => Config.freeValue (s.draws + i) % 2 ^ 32) := by
  rw [State.benchChallenge, if_neg live]
  refine ⟨?_, ?_⟩
  · rw [(State.benchFrame_keeps ..).rd .LC_STAT_CHAL_LIVE _ (by decide)]
    exact State.rd_flag_self ..
  · rw [(State.benchFrame_keeps ..).parts .lc rfl]
    rfl

/-- An entry of the journal changes none of the port's and the life cycle's flags. -/
theorem State.journal_port (s : State) (row : Nat) :
    Keeps (allBut [.BNCH_STAT_SESSION, .LC_STAT_DENIED]) (partsBut [.lc]) s (s.journal row) :=
  State.journal_after (.refl s) (by decide) (by decide)

theorem State.benchOpening_good {token key : List Nat} {signed : Bool} (good : s.tokenGood token key signed = true) :
    (s.benchOpening token key signed).lc.challenge = none ∧ (s.benchOpening token key signed).rd .BNCH_STAT_SESSION = 1 := by
  simp only [State.benchOpening, if_pos good]
  have session : ((s.endChallenge.flag .BNCH_STAT_SESSION).bump .BNCH_CNT_OPENS).rd .BNCH_STAT_SESSION = 1 := by simp
  have ends : ((s.endChallenge.flag .BNCH_STAT_SESSION).bump .BNCH_CNT_OPENS).lc.challenge = none := rfl
  generalize (s.endChallenge.flag .BNCH_STAT_SESSION).bump .BNCH_CNT_OPENS = u at session ends ⊢
  have k := u.journal_port (deviceRow 7)
  exact ⟨(congrArg LifeCycle.challenge (k.parts .lc rfl)).trans ends, (k.rd .BNCH_STAT_SESSION 0 (by decide)).trans session⟩

theorem State.benchOpening_bad {token key : List Nat} {signed : Bool} (bad : s.tokenGood token key signed = false) :
    (s.benchOpening token key signed).lc.challenge = none ∧
      (s.benchOpening token key signed).rd .BNCH_STAT_SESSION = s.rd .BNCH_STAT_SESSION ∧
      (s.benchOpening token key signed).rd .LC_STAT_DENIED = 1 := by
  simp only [State.benchOpening, bad, Bool.false_eq_true, if_false]
  have session : (s.endChallenge.lcRefused.bump .BNCH_CNT_REFUSED).rd .BNCH_STAT_SESSION = s.rd .BNCH_STAT_SESSION := by
    simp [State.lcRefused, State.endChallenge]
  have denied : (s.endChallenge.lcRefused.bump .BNCH_CNT_REFUSED).rd .LC_STAT_DENIED = 1 := by simp [State.lcRefused]
  have ends : (s.endChallenge.lcRefused.bump .BNCH_CNT_REFUSED).lc.challenge = none := rfl
  generalize s.endChallenge.lcRefused.bump .BNCH_CNT_REFUSED = u at session denied ends ⊢
  have k := u.journal_port (deviceRow 7)
  exact ⟨(congrArg LifeCycle.challenge (k.parts .lc rfl)).trans ends, (k.rd .BNCH_STAT_SESSION 0 (by decide)).trans session,
    (k.rd .LC_STAT_DENIED 0 (by decide)).trans denied⟩

theorem State.benchOpening_effect (token key : List Nat) (signed : Bool) : (s.benchOpening token key signed).lc.challenge = none ∧
    (s.tokenGood token key signed = true → (s.benchOpening token key signed).rd .BNCH_STAT_SESSION = 1) ∧
    (s.tokenGood token key signed = false → (s.benchOpening token key signed).rd .BNCH_STAT_SESSION = s.rd .BNCH_STAT_SESSION ∧
      (s.benchOpening token key signed).rd .LC_STAT_DENIED = 1) := by
  refine ⟨?_, fun good => (State.benchOpening_good good).2, fun bad => (State.benchOpening_bad bad).2⟩
  cases stands : s.tokenGood token key signed with
  | true => exact (State.benchOpening_good stands).1
  | false => exact (State.benchOpening_bad stands).1

theorem State.benchOpenFrame_opening {token key : List Nat} {signed : Bool} {steps : Nat} (live : s.rd .LC_STAT_STATE ≠ 5)
    (free : s.lc.waiting = none) (opening : tokenTarget token = 0x80) :
    s.benchOpenFrame token key signed none steps = s.benchOpening token key signed := by
  simp only [State.benchOpenFrame]
  rw [if_neg (by simp [live, free]), if_pos opening]

/-! ### The end of a session (R469, R472) -/

/-- No session is open, and no engine is halted. -/
structure SessionOver (s : State) : Prop where
  session : s.rd .BNCH_STAT_SESSION = 0
  cores : s.rd .BNCH_STAT_HALTED = 0
  engines : s.bench.halted = []

theorem SessionOver.of_keeps {t : State} (gone : SessionOver s)
    (k : Keeps (allBut [.BNCH_STAT_SESSION, .BNCH_STAT_HALTED]) (partsBut [.bench]) s t) : SessionOver t where
  session := (k.rd .BNCH_STAT_SESSION 0 (by decide)).trans gone.session
  cores := (k.rd .BNCH_STAT_HALTED 0 (by decide)).trans gone.cores
  engines := (congrArg Bench.halted (k.parts .bench rfl)).trans gone.engines

theorem State.resumeEngines_cores (s : State) : s.resumeEngines.rd .BNCH_STAT_HALTED = 0 := by
  have schedules {u : State} : Keeps 0 everyPart u (u.scheduleTasks fun _ => true) :=
    State.scheduleTasks_after (.refl u) (by decide) (by decide)
  rw [State.resumeEngines, schedules.rd .BNCH_STAT_HALTED _ (by decide)]
  generalize Str.all.foldl State.sceResume s = u
  exact State.rd_wr_self u .BNCH_STAT_HALTED 0 0

theorem State.resumeEngines_engines (s : State) : s.resumeEngines.bench.halted = [] := by
  have schedules {u : State} : (u.scheduleTasks fun _ => true).bench = u.bench := rfl
  rw [State.resumeEngines, schedules]

theorem State.closeSession_over (s : State) : SessionOver s.closeSession := by
  refine ⟨s.closeSession_session, ?_, ?_⟩
  · rw [State.closeSession, State.modBur_rd]
    exact State.resumeEngines_cores _
  · rw [State.closeSession, State.modBur_bench]
    exact State.resumeEngines_engines _

theorem State.lifeEffects_over (t : Transition) : SessionOver (s.lifeEffects t) := by
  refine s.closeSession_over.of_keeps ?_
  simp only [State.lifeEffects]
  refine .ite (fun _ => ?_) fun _ => .refl _
  refine Keeps.ite (fun _ => ?_) fun _ => State.goStandby_after ?_ (by decide) (by decide)
  all_goals
    exact .foldl (.foldl (.refl _) fun u e k => State.releaseStream_after k (by decide) (by decide))
      fun u nsid k => State.removeNamespace_after k (by decide) (by decide)

theorem SessionOver.transit (gone : SessionOver s) (t : Transition) (steps : Nat) : SessionOver (s.transit t steps) := by
  have intends {u : State} (i : Option Transition) (h : SessionOver u) : SessionOver (u.intend i) :=
    h.of_keeps (State.intend_after (.refl u) (by decide) (by decide))
  have blows {u : State} (h : SessionOver u) : SessionOver (u.blow t) :=
    h.of_keeps (State.blow_after (.refl u) (by decide) (by decide))
  have when' {u : State} {b : Bool} {f : State → State} (h : SessionOver u) (k : ∀ {u}, SessionOver u → SessionOver (f u)) :
      SessionOver (u.when b f) := by
    cases b
    · exact h
    · exact k h
  exact when' (when' (when' (when' gone (intends _)) blows) fun _ => State.lifeEffects_over t) (intends _)

theorem SessionOver.reply (gone : SessionOver s) (r : CiborRequest) (st : CStat) (d1 d2 : Nat) (results payload : List Nat) :
    SessionOver (s.reply r st d1 d2 results payload) :=
  gone.of_keeps (State.reply_after (.refl s) (by decide) (by decide))

theorem SessionOver.emit (gone : SessionOver s) (o : Out) : SessionOver (s.emit o) := ⟨gone.session, gone.cores, gone.engines⟩

theorem SessionOver.runWaiting (gone : SessionOver s) : SessionOver s.runWaiting := by
  unfold State.runWaiting
  split
  · exact gone
  · rename_i t o _
    have taken : SessionOver (s.modLc fun l => { l with waiting := none }) := ⟨gone.session, gone.cores, gone.engines⟩
    generalize s.modLc _ = u at taken ⊢
    dsimp only
    split
    · simp only [State.carryOut, if_neg (show ¬4 < 4 by decide)]
      split
      · exact (taken.transit t 4).reply ..
      · exact (taken.transit t 4).emit _
    · have refused : SessionOver u.lcRefused := taken.of_keeps (.flag (.refl u) (by decide))
      simp only [State.refuseToken]
      split
      · exact refused.reply ..
      · exact refused.emit _

theorem State.endSession_over : s.endSession.isSet .BNCH_STAT_SESSION = false ∧
    (s.isSet .BNCH_STAT_SESSION = true → s.endSession.rd .BNCH_STAT_HALTED = 0 ∧ s.endSession.bench.halted = []) := by
  cases stands : s.isSet .BNCH_STAT_SESSION with
  | false =>
    rw [State.endSession, if_neg (by simp [stands])]
    exact ⟨stands, fun h => by cases h⟩
  | true =>
    rw [State.endSession, if_pos stands]
    have gone := s.closeSession_over.runWaiting
    exact ⟨by rw [State.isSet, gone.session]; rfl, fun _ => ⟨gone.cores, gone.engines⟩⟩

/-! ### Debug commands (R470) -/

/-- A debug command acts while the port is open, and its status goes out. -/
theorem Completes.debug {c : Instr} {f : State → CStat × State} {P : State → Prop} (run : exec c s = .next (s.debug f))
    (opens : s.benchOpen = true) (holds : P ((f s).2.emit (.frameStatus 0 (f s).1))) : Completes c s P :=
  ⟨_, run, by rw [State.debug, if_pos opens]; exact holds⟩

section
variable {x : Str}

theorem engineStr_sce (x : Str) : engineStr (28 + x.num) = some x := by cases x <;> rfl

theorem State.noEngine_sce (present : s.present x = true) : s.noEngine (28 + x.num) = false := by
  have code : ¬47 < 28 + x.num := by have := Str.num_lt x; omega
  rw [State.noEngine, engineStr_sce, decide_eq_false code]
  simp [present]

theorem State.isHalted_sce (s : State) (x : Str) : s.isHalted (28 + x.num) = (s.sceState x == 6) := by cases x <;> rfl

theorem State.haltSce_effect (unloaded : s.sceState x = 0) (open' : s.isSet .SCEx_STAT_LOOP_OPEN x.ix = true) :
    (s.haltSce x).1 = .ok ∧ (s.haltSce x).2.rd .SCEx_STAT_STATE x.ix = 6 ∧ (s.haltSce x).2.rd .SCEx_VCMCMD_S30 x.ix = 0 := by
  have winh (u : State) (b : Bench) : Keeps (allBut [.SCEx_STAT_STATE, .SCEx_VCMCMD_S30]) everyPart u { u.assertWinh x with bench := b } :=
    .with_bench (State.assertWinh_after (.refl u) (by decide) (by decide)) (by decide)
  rw [State.haltSce, if_pos (by simp [unloaded, open'])]
  refine ⟨rfl, ((winh _ _).rd .SCEx_STAT_STATE x.ix (by decide)).trans ?_, ((winh _ _).rd .SCEx_VCMCMD_S30 x.ix (by decide)).trans ?_⟩
  · rw [State.rd_unflag_ne _ _ _ _ (by decide), State.rd_wr_ne _ _ _ _ _ _ (by decide), State.rd_wr_ne _ _ _ _ _ _ (by decide),
      State.rd_wr_self]
    rfl
  · rw [State.rd_unflag_ne _ _ _ _ (by decide), State.rd_wr_ne _ _ _ _ _ _ (by decide), State.rd_wr_self]
    rfl

theorem State.haltOp_sce (present : s.present x = true) (unloaded : s.sceState x = 0) : s.haltOp (28 + x.num) = s.haltSce x := by
  have code := Str.num_lt x
  have running : ¬s.isHalted (28 + x.num) = true := by simp [State.isHalted_sce, unloaded]
  simp only [State.haltOp, State.noEngine_sce present, Bool.false_eq_true, if_false, engineStr_sce]
  rw [if_neg running, if_neg (by omega), if_neg (by omega), if_pos (by omega)]

theorem State.resumeOp_sce (present : s.present x = true) (halted : s.sceState x = 6) :
    (s.resumeOp (28 + x.num)).2.rd .SCEx_STAT_STATE x.ix = 0 := by
  have code := Str.num_lt x
  have stands : ¬(!s.isHalted (28 + x.num)) = true := by simp [State.isHalted_sce, halted]
  have same : Str.ofNum ((28 + x.num) % 4) = x := by cases x <;> rfl
  simp only [State.resumeOp, State.noEngine_sce present, Bool.false_eq_true, if_false, same]
  rw [if_neg stands, if_neg (by omega), if_pos (by simp; omega), State.sceResume]
  simp [State.when, halted]

theorem State.stepOp_runs {pt : Nat} (present : s.present x = true) (runs : s.sceState x ≠ 6) :
    s.stepOp (28 + x.num) pt = (.notReady, s) := by
  have stands : (!s.isHalted (28 + x.num)) = true := by simp [State.isHalted_sce, runs]
  simp only [State.stepOp, State.noEngine_sce present, Bool.false_eq_true, if_false]
  rw [if_pos stands]

theorem State.stepSce_at (more : s.bench.stepAt.get x < (s.sections x (s.rd .SCEx_STAT_ACTBANK x.ix)).length) :
    (s.stepSce x).bench.stepAt.get x = (s.bench.stepAt.get x + 1) % (s.sections x (s.rd .SCEx_STAT_ACTBANK x.ix)).length := by
  simp only [State.stepSce, List.getElem?_eq_getElem more]
  exact Quad.get_set_self ..

theorem State.stepOp_sce {pt : Nat} (present : s.present x = true) (halted : s.sceState x = 6) :
    s.stepOp (28 + x.num) pt = (.ok, s.stepSce x) := by
  have stands : ¬(!s.isHalted (28 + x.num)) = true := by simp [State.isHalted_sce, halted]
  simp only [State.stepOp, State.noEngine_sce present, Bool.false_eq_true, if_false, engineStr_sce]
  rw [if_neg stands, if_neg (by omega)]

theorem State.snapOp_sce (present : s.present x = true) (runs : s.sceState x ≠ 6) :
    s.snapOp (28 + x.num) = (.ok, { s with bench := { s.bench with snap := some (28 + x.num), latched := none } }) := by
  have code := Str.num_lt x
  have named : 28 + x.num < 32 := by omega
  simp only [State.snapOp, State.noEngine_sce present, Bool.false_eq_true, if_false]
  rw [if_pos (by simp [State.isHalted_sce, runs, named])]

end

section
variable {c : Nat}

theorem engineStr_core (core : c < 16) : engineStr c = none := by
  rw [engineStr, if_neg (by simp; omega), if_neg (by simp; omega)]

theorem State.noEngine_core (core : c < 16) : s.noEngine c = false := by
  have code : ¬47 < c := by omega
  rw [State.noEngine, engineStr_core core, decide_eq_false code]
  rfl

theorem State.isHalted_core (core : c < 16) : s.isHalted c = (s.rd .BNCH_STAT_HALTED).testBit c := by
  rw [State.isHalted, if_pos core]
  rfl

theorem State.haltOp_core (core : c < 16) (runs : (s.rd .BNCH_STAT_HALTED).testBit c = false) (serves : c ∈ s.coresRunning)
    (others : 2 ≤ s.coresRunning.length) : ((s.haltOp c).2.rd .BNCH_STAT_HALTED).testBit c = true := by
  have moves {u : State} : Keeps (allBut [.BNCH_STAT_HALTED]) everyPart u (u.moveTasks c false) :=
    State.moveTasks_after (.refl u) (by decide) (by decide)
  simp only [State.haltOp, State.noEngine_core core, State.isHalted_core core, runs, Bool.false_eq_true, if_false, if_pos core]
  rw [State.haltCore, if_pos (by simpa [others] using serves), moves.rd .BNCH_STAT_HALTED _ (by decide),
    State.testBit_flagBit _ _ _ _ _ core, if_pos rfl]

theorem State.resumeOp_core (core : c < 16) (halted : (s.rd .BNCH_STAT_HALTED).testBit c = true) :
    ((s.resumeOp c).2.rd .BNCH_STAT_HALTED).testBit c = false := by
  have schedules {u : State} : Keeps 0 everyPart u (u.scheduleTasks fun _ => true) :=
    State.scheduleTasks_after (.refl u) (by decide) (by decide)
  simp only [State.resumeOp, State.noEngine_core core, State.isHalted_core core, halted, Bool.not_true, Bool.false_eq_true, if_false,
    if_pos core]
  rw [schedules.rd .BNCH_STAT_HALTED _ (by decide), State.testBit_unflagBit _ _ _ _ _ core, if_pos rfl]

end

theorem State.haltOp_spe (runs : s.bench.halted.contains 32 = false) (rests : s.speState = 0)
    (slow : (toSigned 32 (s.rd .SPE_SPEED_MRPM)).natAbs < 60000) :
    (s.haltOp 32).2.bench.halted.contains 32 = true ∧ (s.haltOp 32).2.spe.bridge = .off := by
  have acts : s.haltOp 32 = s.haltSpe := by
    have running : ¬s.isHalted 32 = true := by
      rw [show s.isHalted 32 = s.bench.halted.contains 32 from rfl, runs]
      decide
    rw [State.haltOp, if_neg (show ¬s.noEngine 32 = true from Bool.false_ne_true), if_neg running]
    rfl
  rw [acts, State.haltSpe, if_pos (by simp [rests, slow])]
  refine ⟨?_, rfl⟩
  change (s.bench.halted ++ [32]).contains 32 = true
  simp

/-! ### Breakpoints (R470) -/

section
variable {engine kind place : Nat}

theorem State.breakOp_off (named : s.noEngine engine = false) : (engine, kind, place) ∉ (s.breakOp engine kind place false).2.bench.breaks := by
  simp only [State.breakOp, named, Bool.false_or, Bool.false_and, Bool.false_eq_true, if_false]
  intro mem
  simpa using (List.mem_filter.1 mem).2

theorem State.breakOp_on (named : s.noEngine engine = false)
    (room : (s.bench.breaks.filter fun b => b.1 == engine && b.2.1 == kind && b.2.2 != place).length < breakLimit engine kind) :
    (engine, kind, place) ∈ (s.breakOp engine kind place true).2.bench.breaks := by
  have mine : ((s.bench.breaks.filter fun b => !(b.1 == engine && b.2.1 == kind && b.2.2 == place)).filter fun b =>
      b.1 == engine && b.2.1 == kind) = s.bench.breaks.filter fun b => b.1 == engine && b.2.1 == kind && b.2.2 != place := by
    rw [List.filter_filter]
    refine List.filter_congr fun b _ => ?_
    cases one : b.1 == engine <;> cases two : b.2.1 == kind <;> simp [bne]
  simp only [State.breakOp, mine, named, Bool.false_or, Bool.true_and]
  rw [if_neg (by simpa using room)]
  exact List.mem_append_right _ (List.mem_singleton.2 rfl)

end

theorem State.breakHit_sce {x : Str} {kind place : Nat} (set' : (28 + x.num, kind, place) ∈ s.bench.breaks) (present : s.present x = true)
    (unloaded : s.sceState x = 0) (open' : s.isSet .SCEx_STAT_LOOP_OPEN x.ix = true) :
    (s.breakHit (28 + x.num) kind place).rd .SCEx_STAT_STATE x.ix = 6 := by
  have hits : s.breakHit (28 + x.num) kind place = (s.haltOp (28 + x.num)).2 := by
    simp only [State.breakHit]
    rw [if_pos (by simpa using set')]
  rw [hits, State.haltOp_sce present unloaded]
  exact (State.haltSce_effect unloaded open').2.1

/-! ### Memory, private state and trace (R470, R475) -/

theorem State.memRead_words {address n : Nat} {ws : List Nat} (some' : n ≠ 0) (few : n ≤ 16384)
    (read : (s.benchWords address n).1 = some ws) :
    s.memRead address n = (.ok, (s.benchWords address n).2.sendWords ws) := by
  have count : ¬(decide (n = 0) || decide (16384 < n)) = true := by simp [some', Nat.not_lt.2 few]
  rw [State.memRead, if_neg count]
  generalize s.benchWords address n = p at read ⊢
  obtain ⟨o, u⟩ := p
  cases read
  rfl

theorem State.benchWords_key {address : Nat} (key : keyArea address = true) :
    s.benchWords address 1 = (some [0], s.flag .BNCH_STAT_KEYRD) := by
  simp only [State.benchWords, if_pos key]

/-- Requests that are answered leave the registers. -/
theorem State.giveReply_regs (f numd : Nat) (p : CiborReply) : (s.giveReply f numd p).regs = s.regs := by
  have sent (l : List (Nat × Nat)) : (l.foldl (fun s e => s.emit (.hostData f e.1 e.2)) s).regs = s.regs :=
    List.foldlRecOn (motive := fun u : State => u.regs = s.regs) l _ rfl fun _ holds _ _ => holds
  simp only [State.giveReply, State.when]
  split <;> exact sent _

theorem State.reply_regs (r : CiborRequest) (st : CStat) (d1 d2 : Nat) (results payload : List Nat) :
    (s.reply r st d1 d2 results payload).regs = s.regs := by
  have framed {u : State} (l : List (Nat × Nat)) : (l.foldl (fun s e => s.emit (.bench e.1 e.2)) u).regs = u.regs :=
    List.foldlRecOn (motive := fun v : State => v.regs = u.regs) l _ rfl fun _ holds _ _ => holds
  simp only [State.reply]
  split
  · rfl
  · split
    · unfold State.when
      split
      · exact framed _
      · rfl
    · split
      · rw [State.giveReply_regs]
        rfl
      · rfl

theorem State.settleRequests_regs : s.settleRequests.regs = s.regs := by
  refine List.foldlRecOn (motive := fun u : State => u.regs = s.regs) _ _ rfl fun u holds r _ => ?_
  rcases State.settleOne_cases u r with same | ⟨st, d1, d2, results, payload, replied⟩
  · rwa [same]
  · rw [replied, State.reply_regs, holds]

theorem State.settleRequests_mem : s.settleRequests.mem = s.mem :=
  (State.settleRequests_after (.refl s) (Nat.or_self _) (Nat.or_self _)).parts .mem rfl

theorem State.memWrite_word {address w outcome : Nat} (free : protectedBlock address = false) :
    (s.memWrite address [w] outcome).2.mem = (s.writeWord 64 address (w % 2 ^ 32) (2 ^ 32 - 1) outcome).2.mem ∧
      (s.memWrite address [w] outcome).2.regs = (s.writeWord 64 address (w % 2 ^ 32) (2 ^ 32 - 1) outcome).2.regs := by
  have acts : (s.memWrite address [w] outcome).2 = (s.writeWord 64 address (w % 2 ^ 32) (2 ^ 32 - 1) outcome).2.settleRequests := by
    rw [State.memWrite, if_neg (by simp)]
    simp only [List.map_cons, List.map_nil, State.benchStore, free, Bool.false_eq_true, if_false]
  rw [acts]
  exact ⟨State.settleRequests_mem, State.settleRequests_regs⟩

theorem State.memWrite_protected {address w outcome : Nat} (guarded : protectedBlock address = true) :
    (s.memWrite address [w] outcome).2.mem = s.mem ∧ (s.memWrite address [w] outcome).2.regs = s.regs := by
  have acts : (s.memWrite address [w] outcome).2 = s.settleRequests := by
    rw [State.memWrite, if_neg (by simp)]
    simp only [List.map_cons, List.map_nil, State.benchStore, guarded, if_true]
  rw [acts]
  exact ⟨State.settleRequests_mem, State.settleRequests_regs⟩

theorem State.sendWords_draws (ws : List Nat) : (s.sendWords ws).draws = s.draws :=
  List.foldlRecOn (motive := fun u : State => u.draws = s.draws) _ _ rfl fun _ holds _ _ => holds

theorem State.stateRead_effect (engine : Nat) : (s.stateRead engine).1 = (if s.noEngine engine then CStat.cfgRange else .ok) ∧
    (s.noEngine engine = false → (s.stateRead engine).2.draws = s.draws + 1) := by
  rw [State.stateRead]
  cases named : s.noEngine engine with
  | true => exact ⟨rfl, fun h => by cases h⟩
  | false => exact ⟨rfl, fun _ => State.sendWords_draws _⟩

/-! ### Shadow-step (R471) -/

section
variable {e : ShadowEngine}

theorem State.snapCapture_effect {n : Nat} (snap : s.bench.snap = some n) (latched : s.bench.latched = some e) :
    s.snapCapture.bench.shadow = some e ∧ s.snapCapture.bench.snap = none ∧ s.snapCapture.rd .BNCH_STAT_MATCH = 0 := by
  simp only [State.snapCapture, snap, latched]
  exact ⟨rfl, rfl, State.rd_unflag_self ..⟩

theorem State.shadowStage_effect (runs : e.ended = false) :
    (s.shadowStage e).bench.shadow.map (·.at') = some (e.at' + 1) ∧ (s.shadowStage e).draws = s.draws + 3 := by
  rw [State.shadowStage, if_neg (by simp [runs])]
  dsimp only
  split
  · exact ⟨rfl, rfl⟩
  · exact ⟨rfl, rfl⟩

theorem State.shadowRun_ended (shadow : s.bench.shadow = some e) (ended : e.ended = true) (n : Nat) : s.shadowRun (n + 1) = s := by
  have done : s.shadowDone = true := by simp [State.shadowDone, shadow, ended]
  rw [State.shadowRun, if_pos done]

end

end

/-- Settles O41. -/
theorem benchEffects : Obligations.BenchEffects := by
  unfold Obligations.BenchEffects
  refine ⟨fun s => ⟨_, rfl, rfl⟩, fun s => ⟨_, rfl, rfl, rfl⟩, fun s => ⟨_, rfl, State.tapSample_effect⟩,
    fun s c ir scan live opened => ?_, fun s c scan closed => ?_, fun s => ⟨_, rfl, State.tapDbg_effect⟩,
    fun s frame packet whole opens check single => ⟨_, rfl, ?_⟩, fun s frame bad => ⟨_, rfl, ?_⟩,
    fun s live => ⟨_, rfl, State.benchChallenge_live live⟩, fun s token key signed steps live free opening => ⟨_, rfl, ?_⟩,
    fun s c ends => ?_, fun s x opens present unloaded open' => .debug rfl opens ?_, fun s opens runs rests slow => .debug rfl opens ?_,
    fun s c opens core runs serves others => .debug rfl opens ?_, fun s x opens present halted => .debug rfl opens ?_,
    fun s c opens core halted => .debug rfl opens ?_, fun s x pt opens present runs => .debug rfl opens ?_,
    fun s x pt opens present halted more => .debug rfl opens ?_, fun s engine kind place opens named => .debug rfl opens ?_,
    fun s engine kind place opens named room => .debug rfl opens ?_,
    fun s x kind place set' present unloaded open' => ⟨_, rfl, State.breakHit_sce set' present unloaded open'⟩,
    fun s address n ws opens some' few read => .debug rfl opens ?_, fun s address opens key => .debug rfl opens ?_,
    fun s address w outcome opens free => .debug rfl opens ?_, fun s address w outcome opens guarded => .debug rfl opens ?_,
    fun s engine opens => .debug rfl opens ?_, fun s opens => .debug rfl opens rfl,
    fun s x opens present runs => .debug rfl opens ?_, fun s n e snap latched => ⟨_, rfl, State.snapCapture_effect snap latched⟩,
    fun s c steps opens none' => ?_, fun s e opens shadow spe runs => .debug rfl opens ?_,
    fun s e opens shadow ended => .debug rfl opens ?_⟩
  · simp only [List.mem_cons, Prod.mk.injEq, List.not_mem_nil, or_false] at scan
    rcases scan with ⟨rfl, rfl⟩ | ⟨rfl, rfl⟩ | ⟨rfl, rfl⟩
    · exact ⟨_, rfl, State.tapScan_permitted live opened⟩
    · exact ⟨_, rfl, State.tapScan_permitted live opened⟩
    · exact ⟨_, rfl, State.tapScan_permitted live opened⟩
  · simp only [List.mem_cons, List.not_mem_nil, or_false] at scan
    rcases scan with rfl | rfl | rfl
    · exact ⟨_, rfl, State.tapScan_denied closed⟩
    · exact ⟨_, rfl, State.tapScan_denied closed⟩
    · exact ⟨_, rfl, State.tapScan_denied closed⟩
  · simp only [State.dbgFrame, whole]
    exact State.benchPacket_accepts opens check single
  · simp only [State.dbgFrame, bad]
  · rw [State.benchOpenFrame_opening live free opening]
    exact State.benchOpening_effect token key signed
  · simp only [List.mem_cons, List.not_mem_nil, or_false] at ends
    rcases ends with rfl | rfl | rfl
    · exact ⟨_, rfl, State.endSession_over.1, State.endSession_over.2, fun h => by cases h⟩
    · exact ⟨_, rfl, State.endSession_over.1, State.endSession_over.2, fun _ => rfl⟩
    · exact ⟨_, rfl, State.endSession_over.1, State.endSession_over.2, fun h => by cases h⟩
  · rw [State.haltOp_sce present unloaded]
    obtain ⟨ok, state, command⟩ := State.haltSce_effect unloaded open'
    exact ⟨state, command, by rw [ok]; rfl⟩
  · exact State.haltOp_spe runs rests slow
  · exact State.haltOp_core core runs serves others
  · exact State.resumeOp_sce present halted
  · exact State.resumeOp_core core halted
  · rw [State.stepOp_runs present runs]
  · rw [State.stepOp_sce present halted]
    exact State.stepSce_at more
  · exact State.breakOp_off named
  · exact State.breakOp_on named room
  · rw [State.memRead_words some' few read]
    rfl
  · rw [State.memRead_words (by decide) (by decide) (congrArg Prod.fst (State.benchWords_key key)), State.benchWords_key key,
      show (s.flag .BNCH_STAT_KEYRD).sendWords [0] = (s.flag .BNCH_STAT_KEYRD).emit (.bench 0 0) from rfl]
    exact ⟨State.rd_flag_self s .BNCH_STAT_KEYRD 0, rfl⟩
  · exact State.memWrite_word free
  · exact State.memWrite_protected guarded
  · obtain ⟨status, drawn⟩ := State.stateRead_effect (s := s) engine
    exact ⟨by rw [status]; rfl, drawn⟩
  · rw [State.snapOp_sce present runs]
    exact ⟨rfl, rfl⟩
  · simp only [List.mem_cons, List.not_mem_nil, or_false] at steps
    rcases steps with rfl | rfl
    · refine .debug rfl opens ?_
      rw [State.sstep, if_neg (by simp [none'])]
    · refine .debug rfl opens ?_
      rw [State.srun, if_neg (by simp [none'])]
  · have acts : s.sstep = (.ok, s.shadowStage e) := by
      rw [State.sstep, if_pos (by simp [shadow])]
      simp only [State.shadowStep, shadow, if_pos spe]
    rw [acts]
    exact State.shadowStage_effect runs
  · rw [State.srun, if_pos (by simp [shadow]), State.shadowRun_ended shadow ended 65]

end Sys2Proof.Machine
